-- ==== Sys2Proof/Word.lean ====
section
/-! DEFINITION. The word types of the module and their plainest arithmetic. -/

namespace Sys2Proof

/-- A byte of a buffer or of the service window. -/
abbrev Byte := BitVec 8

/-- A register of BAR0 (R531). -/
abbrev Word := BitVec 32

/-- A word of a queue, or an MT word: a cycle count above 24 phase bits (R7). -/
abbrev DWord := BitVec 64

/-- A sparse table: the listed keys rise strictly; an unlisted key holds the table's default. -/
abbrev Tab (α : Type) := List (Nat × α)

end Sys2Proof
end

