-- ==== Sys2Proof/Syntax.lean ====
section
/-! DEFINITION. The commands the module takes: one constructor of Instr for each row of
spec/opcode_table.json, with its operands, and the records those operands carry. An operand that
stands for an analogue quantity (a converter code, a time of arrival, a temperature) is what the
part senses at that step. -/

namespace Sys2Proof

/-- The port a mailbox, ring or access belongs to (R534). -/
inductive Port where
  | pcie | service
  deriving DecidableEq, Repr

/-- The header of a request once it has been fetched (Table 21.1). -/
structure Req where
  mbx : Nat
  tag : BitVec 16
  /-- FLAGS.SET and FLAGS.BARRIER (Table 21.2). -/
  set : Bool
  barrier : Bool
  outLen : Nat
  outAddr : BitVec 64
  deriving DecidableEq, Repr

/-- How a read of host memory ended (Table 21.5, R535). -/
inductive HostRead where
  | ok | error | timeout
  deriving DecidableEq, Repr

/-- A parameter triple: ID, index, value (Table 22.2). -/
structure Triple where
  id : Nat
  index : Nat
  value : Word
  deriving DecidableEq, Repr

/-- One factor set (Table 10.1): offset in 2^-31 of span, gain in Q2.30, 65 linearity entries,
temperature terms and calibration temperature. -/
structure Factors where
  ofs : Int
  g : Nat
  lin : List Int
  aT : Int
  gT : Int
  tCal : Int
  deriving DecidableEq, Repr

/-- Readings of one self-calibration run (R412): means of the internal zero, +V_REF and -V_REF in
nV, the rms of each kind in ppb of span, and how far T_DIE moved in 1/16 °C. -/
structure SelfCal where
  zero : Int
  plus : Int
  minus : Int
  rms : List Nat
  drift : Nat
  deriving DecidableEq, Repr

/-- Readings of a CAL_EXT run (Table 15.2), one list entry per arbiter: rms of the quiet test in ppb
of span and whether a reading was at a rail, means of CAL_IN and V_REF in nV, drift of T_DIE in
1/16 °C, and with a resistor the forward and reversed means in nV, their rms and a rail. -/
structure ExtCal where
  selfCal : List SelfCal
  quiet : List Nat
  rail : Bool
  meanIn : List Int
  meanRef : List Int
  drift : Nat
  fwd : List Int
  rev : List Int
  resRms : List Nat
  resRail : Bool
  deriving DecidableEq, Repr

/-- What a spare slot found for the spare of one group (Table 15.3): new sets by span code, probe
and reference values, and the largest distance to the arbiter in phase 6 in ppb of span. -/
structure SpareCal where
  grp : Nat
  sets : List (Nat × Factors)
  probe : List Int
  agree : Nat
  deriving DecidableEq, Repr

/-- ROLE codes 0-4 (Table 23.10). -/
inductive Role where
  | solo | active | standby | detached | negotiating
  deriving DecidableEq, Repr

/-- Hold-up states in the order of their HU_STATE codes 0-4 (Table 5.4). -/
inductive HuState where
  | normal | ride | winddown | commit | spent
  deriving DecidableEq, Repr

/-- Where the descriptor in force came from (R575 SOURCE), in the order of its codes 0-3. -/
inductive DescSource where
  | none | written | mire | eeprom
  deriving DecidableEq, Repr

/-- A stage descriptor in force: its 256 bytes, byte 0 in bits 7:0 (Table 7.4), and its source. -/
structure Desc where
  image : BitVec 2048
  source : DescSource
  deriving DecidableEq, Repr

/-- Placement states 0-6 (Table 8.8). -/
inductive PlState where
  | undefined | idle | placed | sequenced | tripped | migrating | unplaced
  deriving DecidableEq, Repr

/-- The placement of one figure (Table 8.9, R212). -/
structure Placement where
  state : PlState
  /-- CAUSE of Table 8.8. -/
  cause : Nat
  /-- Stage ports held, ascending; the first is the master (R192). -/
  members : List Nat
  pinned : Bool
  moved : Bool
  hot : Bool
  budgetCut : Bool
  migCnt : BitVec 16
  /-- Power claim, mW (R189). -/
  claim : Nat
  mtSet : BitVec 64
  hotHeads : Nat
  mireSet : Nat
  placeSeq : BitVec 32
  deriving DecidableEq, Repr

/-- One configuration set (Table 17.1, R452). -/
structure CfgSet where
  /-- Cast/Maquette parameters, key ID * 65536 + index; an unlisted one holds its reset value. -/
  params : Tab (BitVec 32)
  /-- Defined figures, ascending. -/
  figs : List Nat
  /-- Stage descriptors in force, by port. -/
  descs : Tab Desc
  /-- Coefficient blocks, key figure * 4 + LOOP (Table 12.5). -/
  coefs : Tab (BitVec 640)
  /-- Feed-forward entries, key port * 512 + half * 256 + i. -/
  ff : Tab (BitVec 16)
  /-- Sweep point table entries (Table 14.1). -/
  sweep : Tab (BitVec 256)
  /-- Generators by figure (Table 14.7). -/
  gens : Tab (BitVec 512)
  /-- Host aux entries, key group * 64 + entry (Table 9.6). -/
  aux : Tab (BitVec 128)
  /-- Aux entries added by the armature (R234); Cast only. -/
  auxArm : Tab (BitVec 128)
  /-- Placement, by figure; Cast only. -/
  place : Tab Placement
  deriving DecidableEq, Repr

/-- A heartbeat's content (Table 23.1). -/
structure Beat where
  number : BitVec 32
  role : Role
  seated : BitVec 16
  castSeq : BitVec 32
  digest : BitVec 64
  mt : BitVec 64
  era : BitVec 32
  hu : HuState
  ready : BitVec 32
  warm : Bool
  /-- Number and receive MT of the last heartbeat its sender received. -/
  echo : BitVec 32
  echoMt : BitVec 64
  deriving DecidableEq, Repr

/-- A channel record (Table 23.3). -/
structure ChanRec where
  ls : BitVec 32
  rng : BitVec 32
  win : Nat
  sp : Int
  integ : List Int
  tgt : Int
  deriving DecidableEq, Repr

/-- A runner's RUNNER frame as applied (Table 23.1). -/
structure RunnerRec where
  /-- Runner number, 0-127 (R383). -/
  num : Nat
  run : Nat
  point : Nat
  pstate : Nat
  pass : Nat
  dwell : Nat
  seq : BitVec 32
  deriving DecidableEq, Repr

/-- A COMMIT frame entry. -/
structure QueAnn where
  next : BitVec 32
  oldest : BitVec 32
  deriving DecidableEq, Repr

/-- A trip or hold record (Table 13.5). -/
structure TripRec where
  fig : Nat
  port : Nat
  range : BitVec 8
  cause : BitVec 32
  mtTrip : BitVec 64
  seq : BitVec 32
  out : Nat
  gov : Nat
  mon : BitVec 8
  detail : BitVec 8
  code : Int
  vWord : BitVec 32
  iWord : BitVec 32
  resV : BitVec 32
  resI : BitVec 32
  members : BitVec 8
  auxf : BitVec 8
  point : Nat
  stageTemp : Int
  dieTemp : Int
  mtCause : BitVec 64
  /-- The 32 bytes of the aux result record, or zeros. -/
  aux : List (BitVec 64)
  deriving DecidableEq, Repr

/-- The effect of one accepted Maquette edit, as a MAQ frame carries it (Table 23.1). -/
inductive MaqEdit where
  | param (key : Nat) (value : Word)
  | define (fig : Nat)
  | delete (fig : Nat)
  | coef (key : Nat) (block : Option (BitVec 640))
  | ff (key : Nat) (value : BitVec 16)
  | sweep (index : Nat) (entry : BitVec 256)
  | gen (fig : Nat) (block : Option (BitVec 512))
  | aux (key : Nat) (entry : BitVec 128)
  | desc (port : Nat) (d : Desc)
  | revert
  deriving DecidableEq, Repr

/-- A trip frame (Table 23.1): a trip or hold record, or a clear that took effect. -/
inductive TripNote where
  | record (r : TripRec)
  | tripClear (port : Nat)
  | monClear (port : Nat) (mask : Nat)
  | holdRelease (port : Nat)
  deriving DecidableEq, Repr

/-- A CONTROL frame (Table 23.1). -/
inductive ControlNote where
  | detach | attach
  | calBusy (running : Bool)
  deriving DecidableEq, Repr

/-- What a HANDOVER frame carries (Table 23.1, R608). -/
structure HandoverMsg where
  target : BitVec 64
  /-- 2 partner reset, 3 detach (Table 23.4). -/
  kind : Nat
  level : Nat
  src : BitVec 8
  chans : List (Nat × ChanRec)
  runners : List RunnerRec
  anns : List (Nat × QueAnn)
  deriving DecidableEq, Repr

/-- What the partner's CONFIG exchange gives (Table 23.2, state 4), with the latency measured. -/
structure ConfigMsg where
  part : Nat
  major : Nat
  serial : BitVec 64
  strap : BitVec 2
  pref : Nat
  seated : BitVec 16
  era : BitVec 32
  digest : BitVec 64
  latency : Nat
  deriving DecidableEq, Repr

/-- What a sense-lead check reads of one pair, in µV at the pair: its last four samples before the
injection and the last four of it (R370). -/
structure LeadIn where
  before : List Int
  last : List Int
  deriving DecidableEq, Repr

/-- An edge on a PWM land of a group (R168): the port's number in the group, the instant as an offset
from the period's boundary in 5 ns units, and its polarity. -/
structure LandEdge where
  port : Nat
  ofs : Nat
  rising : Bool
  deriving DecidableEq, Repr

/-- What a group senses in one loop period: the voltages at the shared-channel nodes of its slices, in
pV (R218). A slice that is not listed sees 0 V; slice 17 is what the spare's own chain sees where it
differs. The instants of the comb after the last one listed see what that one saw. -/
structure PeriodIn where
  /-- (slice, pV) at the loop sample. -/
  loop : List (Nat × Int)
  /-- (slice, pV) at the further comb samples from the trigger on, oldest first. -/
  comb : List (List (Nat × Int))
  /-- AUX_IN at the slice ticks of the period, pV, oldest first; the last one stands. -/
  aux : List Int
  /-- Channels that missed the code latch deadline (R342), as ports of the group. -/
  late : List Nat
  /-- Ports of the group whose short-circuit flag is set at the boundary (R292). -/
  short : List Nat
  deriving DecidableEq, Repr

/-- The edges on a group's PWM lands in one loop period (R223). -/
structure GroupEdges where
  grp : Nat
  edges : List LandEdge
  deriving DecidableEq, Repr

/-- What the check of the peat store at a start finds bad: the header's signature or CRC, the regions at
0x040, 0x080, 0x0C0 and 0x100 (bits 0 to 3), the region at 0xF00 (R146). -/
structure PeatCheck where
  header : Bool
  regions : BitVec 4
  errors : Bool
  deriving DecidableEq, Repr

/-- What the module finds as it leaves reset: STRAP over its supply in units of 10^-6 (R135), and what
the check of the peat store is to find (R146). -/
structure ExitIn where
  strap : Nat
  peat : PeatCheck
  deriving DecidableEq, Repr

/-- A frame that reaches one side of the isolation channel (R14): whether its CRC is good, and on the
secondary side AUX_FB in µV, which is compared as often as frames come (R108). -/
inductive IsoIn where
  | secondary (crcOk : Bool) (auxFb : Nat)
  | primary (crcOk : Bool)
  deriving DecidableEq, Repr

/-- Power drawn from V_AUX in mW: as measured now, and averaged over 1 s (Table 5.3, R114). -/
structure AuxPower where
  now : Nat
  average : Nat
  deriving DecidableEq, Repr

/-- What the scan finds on one NAND target (Table 19.3): its number 8c + t, whether it lies within
the limits, its geometry, its longest program time and its factory bad blocks. -/
structure NandScan where
  target : Nat
  inLimits : Bool
  luns : Nat
  blocks : Nat
  pagesPerBlock : Nat
  tprogUs : Nat
  factoryBad : List Nat
  deriving DecidableEq, Repr

/-- The commands: one constructor per row of spec/opcode_table.json. -/
inductive Instr where
  -- Umser commands (chapters 21 and 22): the header and the inline arguments and buffers.
  | sesInfo (r : Req)
  | sesCancel (r : Req) (tag : BitVec 16)
  | hdrOpen (r : Req) (ring log2 vector modN modUs : Nat) (auto : Bool) (base : BitVec 64)
  | hdrClose (r : Req) (ring : Nat)
  | hdrBind (r : Req) (ring : Nat) (qids : List Nat)
  | hdrUnbind (r : Req) (qids : List Nat)
  | hdrStatusRead (r : Req) (first count : Nat)
  | figDefine (r : Req) (fig op source : Nat) (triples : List Triple)
  | figListRead (r : Req)
  | figPlaceRead (r : Req) (first count : Nat)
  | placePreview (r : Req) (first count : Nat)
  | stgDescWrite (r : Req) (port : Nat) (image : BitVec 2048)
  | stgDescRead (r : Req) (port mode : Nat)
  | stgEepromWrite (r : Req) (port offset : Nat) (data : List Byte)
  | stgPlaceRead (r : Req) (first count : Nat)
  | swpTableWrite (r : Req) (first : Nat) (entries : List (BitVec 256))
  | swpTableRead (r : Req) (first count : Nat)
  | swpGenWrite (r : Req) (fig : Nat) (block : BitVec 512)
  | swpStart (r : Req) (fig : Nat)
  | swpStop (r : Req) (fig mode : Nat)
  | swpStatusRead (r : Req) (first count : Nat)
  | setUnveil (r : Req) (expect : Option Word) (at_ : Option DWord)
  | setValidate (r : Req) (expect : Option Word)
  | setRevert (r : Req)
  | setStatusRead (r : Req)
  | paramWrite (r : Req) (triples : List Triple)
  | paramRead (r : Req) (items : List (Nat × Nat))
  | paramDirRead (r : Req) (first count : Nat)
  | quePop (r : Req) (qid words : Nat)
  | queDropRest (r : Req) (qid : Nat)
  | queFlush (r : Req) (scope obj : Nat)
  | queCredit (r : Req) (qid grant : Nat)
  | quePush (r : Req) (qid : Nat) (words : List DWord)
  | queStatusRead (r : Req) (first count : Nat)
  | mireRead (r : Req) (qid : Nat) (first : Word) (count ring : Nat)
  | mireRelease (r : Req) (mode qid : Nat) (seq : Word) (mt : DWord)
  | mireQuery (r : Req) (qid : Nat) (start : Word)
  | mireFormat (r : Req) (key : Nat)
  | mireStatusRead (r : Req)
  | mireTargetRetire (r : Req) (channel target : Nat)
  | twinStatusRead (r : Req)
  | twinDetach (r : Req) (mode key : Nat)
  | twinAttach (r : Req)
  | acqAuxWrite (r : Req) (grp first : Nat) (entries : List (BitVec 128))
  | acqAuxRead (r : Req) (grp : Nat)
  | acqMeasNow (r : Req) (port kind auxsel span settle avg : Nat)
  | acqShareCheck (r : Req) (grp slice : Nat)
  | acqPathTest (r : Req) (grp slice : Nat)
  | acqRawCapture (r : Req) (grp fig mask count : Nat) (start : DWord)
  | measAperture (r : Req) (fig code : Nat) (start : DWord)
  | measSnapshot (r : Req) (mask : BitVec 16)
  | measTotalClear (r : Req) (fig : Nat)
  | loopCoefWrite (r : Req) (fig : Nat) (block : BitVec 640)
  | loopCoefRead (r : Req) (fig mask : Nat)
  | loopFfWrite (r : Req) (port half : Nat) (table : List (BitVec 16))
  | loopFfRead (r : Req) (port half : Nat)
  | loopSchedRead (r : Req)
  | tuneStart (r : Req) (fig member point wave prbsL dec : Nat) (amp : Int) (ftw n : Nat)
      (start : DWord)
  | tuneStop (r : Req) (grp : Nat)
  | supMonClear (r : Req) (port mask : Nat)
  | supTripClear (r : Req) (port : Nat)
  | supTripForce (r : Req) (port : Nat)
  | supLeadCheck (r : Req) (port : Nat)
  | supHoldRelease (r : Req) (port : Nat)
  | supStatusRead (r : Req) (first count : Nat)
  | calExt (r : Req) (nominal : Int) (tol rs : Nat) (date : Word)
  | calArbSelf (r : Req) (mask : BitVec 4)
  | calMainsSelf (r : Req)
  | calRefWrite (r : Req) (vRef iCal : Int) (date : Word)
  | calSpare (r : Req)
  | calIsrc (r : Req) (mode : Nat)
  | calStatusRead (r : Req)
  | evtRoute (r : Req) (items : List (Nat × Nat))
  | evtMask (r : Req) (sluice op : Nat) (codes : List Nat)
  | evtRead (r : Req) (kind first count : Nat)
  | evtPulse (r : Req) (mask : BitVec 8)
  | errRingRead (r : Req) (start : Word) (count : Nat) (ack : Bool)
  | errFirstRead (r : Req)
  | rstFuseProgram (r : Req) (map : Word) (lock : Bool) (key : Nat)
  | grpReset (r : Req) (mask : BitVec 16)
  -- Host interface (chapter 20).
  | requestFetch (mbx : Nat) (ring : HostRead) (desc : BitVec 512) (input : HostRead)
  | rspHead (port : Port) (mbx : Nat) (arg : BitVec 28)
  | setupLo (port : Port) (mbx : Nat) (arg : BitVec 28)
  | setupHi (port : Port) (mbx : Nat) (arg : BitVec 28)
  | setupBlockCheck (mbx : Nat) (read : HostRead) (block : BitVec 512)
  | close (port : Port) (mbx : Nat)
  | mailboxClosed (mbx : Nat)
  | ackReset (port : Port) (mbx : Nat)
  | mbxTailWrite (port : Port) (mbx : Nat) (value : Word)
  | rstReqWrite (value : Word)
  | relayFaultRetry
  | supMonLatchWrite (value : Word)
  | firstArm
  | hdrHeadWrite (ring : Nat) (value : Word)
  | selectRegisterWrite (port : Port) (offset : Nat) (value : Word)
  | twoHalfLowRead (port : Port) (offset : Nat)
  | twoHalfHighRead (port : Port) (offset : Nat)
  | fabPersistClear (n : Nat) (value : Word)
  | registerWrite (port : Port) (offset size : Nat) (value : Word)
  | spiReadFrame (address : Word) (words : Nat)
  | spiWriteFrame (address : Word) (data : List Byte)
  | dbgResetInstruction (asserted : Bool)
  | testHold (step : Option Nat)
  | extest (on : Bool)
  | functionLevelReset
  | pcieLinkDown
  | pcieLinkUp (speed width : Nat)
  | pcieConfigWrite (msixEn busMaster funcMask : Bool)
  | irqHoldoffExpiry (ring : Bool) (n : Nat)
  -- Reset and start-up (chapter 6).
  | supply (asserted : Bool)
  | supplyMarginSample (mv : Nat)
  | vretLoss
  | rstIn (low : Bool)
  | perst (low : Bool)
  | wdog
  | clk
  | clkRelease
  | fatal
  | resetPulseEnd (source : Nat)
  | controlPlaneResetEntry
  | dataPlaneStop
  | stretchStart
  | stretchEnd (found : ExitIn)
  | pllLock
  | stagingReady (retained : Bool)
  | mgmtBootDone
  | descReadsEnd (grp : Nat) (reads : List (Nat × Option (BitVec 2048)))
  | mireMapRebuilt (scan : List NandScan)
  | groupContextResetStart (grp : Nat)
  | groupContextResetEnd (grp : Nat)
  -- Isolation channel, mains time, power front end (chapters 1, 4 and 5).
  | isoFrameSend
  | isoFrameReceive (f : IsoIn)
  | isoChannelFail (secondary : Bool)
  | isoChannelRestore (secondary : Bool)
  | mainsCrossing (ago : Nat) (rising : Bool) (amplitude : Nat)
  | mainsLost
  | slewEnd
  | mtPhaseEvent (n : Nat)
  | mtWrap
  | mtCapture
  | vccPStart
  | vccPLow
  | auxSecondaryRegulation
  | relayClose
  | relayCheck (sensed : Bool)
  | bulkOkChange (ok : Bool)
  | pfcOvercurrent
  | bulkOvervoltage (high : Bool)
  | bulkUndervoltage
  | lineLoss
  | primaryOverTemperature (hot : Bool)
  | priWarn
  | flybackStop
  | holdupEstimate (vbulk : Option Nat) (linePeak lineRms : Nat) (temp : Int) (power : AuxPower)
  | rideTimeout
  | commit
  | commitEnd
  | holdupRestore
  | dcFail
  | dieTempRead (control data staging : Int)
  -- Control plane (chapters 7 to 13).
  | mainsCycleBoundary (grp : Nat) (tDie : Int)
  | loopPeriodBoundary (grp : Nat) (p : PeriodIn)
  | overrunTrip (port : Nat)
  | shortCircuitTrip (port : Nat)
  | frozenFault (port : Nat)
  | liveWriteApply
  | rangeSwitchBoundary (port : Nat)
  | rangeWindowClose (port : Nat)
  | stgEnAssert (port : Nat)
  | loopsClose (port : Nat)
  | rampDownEnd (port : Nat)
  | parkEnd (port : Nat)
  | rngLineRelease (port : Nat)
  | unsettled (port : Nat)
  | monitorSample (port : Nat) (v i : Int)
  | monitorQualify (port m : Nat)
  | stageFault (port : Nat)
  | stgFltRelease (port : Nat)
  | extTrip (port : Nat)
  | leadCheckStart (port : Nat)
  | leadCheckEnd (port : Nat) (vs is : LeadIn) (rail : Bool)
  | tripRecordMove (grp : Nat)
  | groupTrigger (grp : Nat) (edges : List LandEdge)
  | triggerMiss (p : GroupEdges)
  | auxPassStart (grp : Nat)
  | auxEntryEnd (grp : Nat) (inputs : List Int)
  | urgentConversionEnd (grp : Nat) (inputs : List Int)
  | shareCheckEnd (grp : Nat) (own spare : List Int) (novr : List Nat)
  | pathTestEnd (grp : Nat) (readings : List (List (List Int)))
  | apertureOpen (fig : Nat)
  | apertureClose (fig : Nat)
  | i2cTransferEnd (grp : Nat) (ack : Bool) (data : Option (BitVec 2048))
  -- Queues and storage (chapters 18 to 20).
  | packetCommit (qid corrected : Nat) (ecc : Bool) (poison : List Nat)
  | flushPoint (qid : Nat)
  | hdrPacketWrite (ring qid : Nat)
  | flushReadIssue (ring : Nat)
  | flushReadDone (ring : Nat) (read : HostRead)
  | pageBufferClose (page : Nat)
  | nandOpStart (channel : Nat)
  | programStatus (target : Nat) (pass : Bool)
  | eraseStatus (target : Nat) (pass : Bool)
  | nandReadDone (target corrected : Nat) (weak : Bool) (lost : List Nat)
  | targetTimeout (target : Nat)
  | channelResetEnd (target : Nat) (ready : Bool)
  | drainFault (drain : Nat)
  | rateMeasure (busy : Bool) (mbps : Nat)
  | mapCheckpoint
  -- Configuration sets (chapters 8 and 17), reset fuses.
  | unveilTransfer
  | unveilSwap
  | maquetteCopyEnd
  | migration (port : Nat)
  | internalUnveil
  | validationEnd
  | revertCopyEnd
  | fuseProgramEnd
  -- Sweeps (chapter 14).
  | listStart (fig : Nat)
  | pointFire (fig : Nat)
  | siteWaitEnd (fig : Nat)
  | settling (fig : Nat)
  | dwellEnd (fig : Nat)
  | rangeWaitTimeout (fig : Nat)
  | pulseLeadingEdge (fig : Nat)
  | pulseTrailingEdge (fig : Nat)
  | listEnd (fig : Nat)
  | pointReport (fig : Nat)
  -- Calibration (chapter 15).
  | arbiterSelfCalDue
  | arbiterSelfCalEnd (arb : Nat) (c : SelfCal)
  | mainsConverterExchange (c : SelfCal)
  | mainsConverterSelfCalEnd (c : SelfCal)
  | spareSlotDue
  | spareSlotStart (bus : Nat)
  | spareSlotEnd (bus : Nat) (spares : List SpareCal)
  | patinaPassStart (grp : Nat)
  | carryHandover (grp : Nat)
  | patinaSetsComputed (grp : Nat) (sets : List (Nat × Factors))
  | calStartup
  | calExtEnd (c : ExtCal)
  | isrcLimit
  -- Event fabric (chapter 16).
  | evtInEdge (n : Nat) (rising : Bool)
  | persist (sluice : Nat)
  | evtOutPulseEnd (n : Nat)
  -- Twin pairing (chapter 23).
  | heartbeatSend
  | stateSend (grp : Nat)
  | heartbeat (b : Beat)
  | state (grp : Nat) (chans : List ChanRec)
  | runner (r : RunnerRec) (fseq : Word)
  | commitFrame (anns : List (Nat × QueAnn)) (fseq : Word)
  | tripFrame (n : TripNote) (fseq : Word)
  | maq (e : List MaqEdit) (fseq : Word)
  | sync (cast maq : CfgSet) (castSeq maqSeq : Word) (fseq : Word)
  | unveilFrame (target : DWord) (castSeq : Word) (digest : DWord) (place : Tab Placement)
      (auxArm : Tab (BitVec 128)) (internal : Bool) (fseq : Word)
  | handover (m : HandoverMsg) (fseq : Word)
  | controlFrame (n : ControlNote) (fseq : Word)
  | ack (fseq : Word)
  | retransmitTimeout (fseq : Word)
  | trainAttemptStart
  | trainStateDone (order : List Nat) (pol : BitVec 4)
  | config (c : ConfigMsg)
  | trainTimeout
  | latencyMeasure (ns : Nat)
  | heartbeatSlotClose
  | aliveInChange (active : Bool)
  | takeoverB1 (grp : Nat) (enLow : List Nat)
  | takeoverB2 (grp : Nat)
  | handoverBoundary
  | cosynFrameDiscard
  | cosynSignalLoss
  deriving DecidableEq, Repr

end Sys2Proof
end

