-- ==== Sys2Proof/Decode.lean ====
section
/-! DEFINITION. The words that spell commands. The opcode table gives its rows no bits: the commands
come as requests, register accesses and events, whose operands the constructors of Instr carry. -/

namespace Sys2Proof

/-- The command a word of the opcode table spells: none, for no row has bits. -/
def decodeTableWord (_nbits _w : Nat) : Option Instr := none

end Sys2Proof
end

