-- ==== Sys2Proof/Config.lean ====
section
/-! DEFINITION. What the spec leaves open: free values, one opaque constant each, applied to the
index State.free holds, or to the operands. Nothing in Lean can evaluate them. -/

namespace Sys2Proof

/-- A free number (log entry 7): where the spec says that a value results and does not say which. -/
opaque Config.freeInt : Nat → Int

/-- A free word (log entry 7). -/
opaque Config.freeWord : Nat → BitVec 64

end Sys2Proof
end

