-- ==== Sys2Proof/Machine/State.lean ====
section
/-! DEFINITION. The state of the module: every register, buffer, counter, mode and land the spec
names, as plain data, and the queue of waiting commands. Each field cites the rule that names it;
INVENTORY.md lists every field with its width and reset value. -/

namespace Sys2Proof.Machine

/-- One record of the global error ring (Table 24.1, R620). -/
structure ErrRec where
  seq : BitVec 32
  code : BitVec 16
  source : BitVec 16
  mt : BitVec 64
  flags : BitVec 8
  arg : BitVec 8
  rep : BitVec 16
  d0 : BitVec 32
  d1 : BitVec 32
  d2 : BitVec 32
  deriving DecidableEq, Repr

/-- A record held in the ring, with what coalescing needs (R623): the REF25-derived clock of its
first and of its last counted occurrence, and whether a read has returned it. -/
structure ErrEntry where
  body : ErrRec
  firstClk : Nat
  lastClk : Nat
  closed : Bool
  deriving DecidableEq, Repr

/-- Error logging (chapter 24). -/
structure Err where
  /-- Records held, oldest first (R622). -/
  ring : List ErrEntry
  /-- ERR_NEWEST_SEQ. -/
  newest : BitVec 32
  /-- ERR_ACK_SEQ. -/
  ack : BitVec 32
  /-- ERR_LOST_CNT, event counter (R624). -/
  lost : BitVec 32
  /-- ERR_ISO_FRAME_CNT, event counter (R14). -/
  isoFrame : BitVec 32
  /-- ERR_SAT_SRC bits 15:0 (R629). -/
  satSrc : BitVec 16
  /-- The first-error register: none while armed (R626). -/
  first : Option ErrRec
  /-- ERR_STATUS.STORM: records lost since the last STORM record (R624). -/
  storm : Bool
  stormLosses : Nat
  stormFirst : BitVec 64
  stormLast : BitVec 64
  /-- Records that arose while the data plane was under reset and wait (R628). -/
  deferred : List ErrRec
  deriving DecidableEq, Repr

/-- One EVT_OUT land (R446): its level and whether a pulse is running on it. -/
structure EvtOut where
  level : Bool
  pulse : Bool
  deriving DecidableEq, Repr

/-- The event fabric (chapter 16). -/
structure Fab where
  /-- Producer mask of each sluice 0x00-0xFF (R436); empty by default. -/
  masks : Tab (List Nat)
  /-- The 64 figure taps: tap index and the figure event it carries (R439). -/
  taps : Tab Nat
  /-- Selection of each consumer multiplexer, 0x100 none by default (R440). -/
  sel : Tab Nat
  /-- Consumers whose coincidence flag is set (R442). -/
  coincFlag : List Nat
  /-- FAB_COINC of each consumer (R442). -/
  coinc : Tab (BitVec 16)
  /-- FAB_FLAGS. -/
  flags : BitVec 32
  /-- FAB_CSEL. -/
  csel : BitVec 32
  /-- FAB_PERSISTn. -/
  persist : Tab (BitVec 32)
  /-- FAB_SEENn. -/
  seen : Tab (BitVec 32)
  /-- FAB_CNTn, event counters (R447). -/
  cnt : Tab (BitVec 32)
  /-- FAB_ROUTE_SEQ (R441). -/
  routeSeq : BitVec 32
  /-- EVT_OUT0-7. -/
  evtOut : Tab EvtOut
  /-- Last sampled level of EVT_IN0-7 (R445). -/
  evtIn : Tab Bool
  /-- Producer codes raised and not yet carried by their sluices (the producer registers, R437). -/
  raised : List Nat
  /-- Consumer inputs that received an event their block has not acted on yet (R437). -/
  arrived : List Nat
  deriving DecidableEq, Repr

/-- Mailbox states (Table 20.8), in the order of their STATE codes 0-4. -/
inductive MbxState where
  | closed | opened | restarting | reset | closing
  deriving DecidableEq, Repr

/-- One response descriptor with its output buffer (Table 21.4, R553). -/
structure Response where
  opcode : Nat
  tag : BitVec 16
  status : Nat
  trunc : Bool
  cancelled : Bool
  outWritten : Nat
  detail : BitVec 32
  mtAccept : BitVec 64
  mtDone : BitVec 64
  castSeq : BitVec 32
  /-- RESULT, at most 28 bytes; the bytes not listed are 0. -/
  result : List (BitVec 8)
  /-- The bytes written to the output buffer. -/
  out : List (BitVec 8)
  deriving DecidableEq, Repr

/-- One mailbox (R533-R536). -/
structure Mbx where
  state : MbxState
  /-- REASON of Table 20.9. -/
  reason : Nat
  /-- CODE of Table 20.9. -/
  code : BitVec 16
  /-- The port that wrote SETUP_HI (R534). -/
  port : Port
  /-- A port owns it: from its SETUP_HI until it is CLOSED or an L1 or L0 reset. -/
  owned : Bool
  /-- Setup block address bits 33:6 as SETUP_LO left them, then the whole address. -/
  setupAddr : BitVec 64
  /-- SETUP_HI was written and the block is not yet checked. -/
  setupBusy : Bool
  reqLog2 : Nat
  rspLog2 : Nat
  irq : Bool
  reqBase : BitVec 64
  rspBase : BitVec 64
  shadow : BitVec 64
  modN : Nat
  modUs : Nat
  reqHead : BitVec 16
  reqTail : BitVec 16
  rspHead : BitVec 16
  rspTail : BitVec 16
  /-- Responses written since the last interrupt (R536). -/
  unsignalled : Nat
  /-- The shadow's 32-bit value as last written (R536). -/
  shadowWord : BitVec 32
  /-- Responses written and not yet returned by RSP_HEAD, oldest first. -/
  responses : List Response
  deriving DecidableEq, Repr

/-- A request fetched and not yet accepted (R536, R555). -/
structure Fetched where
  mbx : Nat
  opcode : Nat
  tag : BitVec 16
  set : Bool
  barrier : Bool
  outLen : Nat
  outAddr : BitVec 64
  deriving DecidableEq, Repr

/-- A long-running command accepted and not completed (R559), with the object and arguments its
completion needs. -/
structure Outstanding where
  mbx : Nat
  /-- The session that accepted it has ended: the response is discarded (R563). -/
  orphan : Bool
  opcode : Nat
  tag : BitVec 16
  outLen : Nat
  outAddr : BitVec 64
  mtAccept : BitVec 64
  /-- The stage port, group, figure, ring or mask it names. -/
  obj : Nat
  /-- Further command-defined data. -/
  aux : Nat
  /-- Phase code defined by the command (R560). -/
  phase : Nat
  deriving DecidableEq, Repr

/-- States of a host drain ring (R572), in the order of their STATE codes. -/
inductive RingState where
  | closed | opened | faulted | closing
  deriving DecidableEq, Repr

/-- A packet written to a ring and not yet known delivered, or not yet consumed (R541, R542). -/
structure RingPacket where
  qid : Nat
  seq : BitVec 32
  words : Nat
  /-- Line index after its last line. -/
  endLine : Nat
  delivered : Bool
  deriving DecidableEq, Repr

/-- One host drain ring (R540, R541). -/
structure Hdr where
  state : RingState
  log2 : Nat
  vector : Nat
  modN : Nat
  modUs : Nat
  auto : Bool
  base : BitVec 64
  port : Port
  /-- Free-running write line index. -/
  write : BitVec 32
  /-- HDR_HEADr. -/
  head : BitVec 32
  /-- Queues bound to the ring (R483). -/
  bound : List Nat
  /-- Packets written whose words have not been returned as credit, oldest first. -/
  packets : List RingPacket
  /-- A flush read is outstanding for the packets written so far (R542). -/
  flushBusy : Bool
  /-- Packets written since the last flush read. -/
  unflushed : Nat
  unsignalled : Nat
  deriving DecidableEq, Repr

/-- The SPI service port (R544, R545). -/
structure Spi where
  /-- The previous frame was executed; discarded. -/
  executed : Bool
  discarded : Bool
  /-- Status byte and data words clocked out by the last frame. -/
  miso : List (BitVec 32)
  status : BitVec 8
  deriving DecidableEq, Repr

/-- The debug port (R546). -/
structure Dbg where
  /-- EXTEST drives the lands. -/
  extest : Bool
  deriving DecidableEq, Repr

/-- A pair of two-half holding registers: register offset and the held high word (R95, R96). -/
structure Holding where
  /-- (offset of the high half, held word), one entry per holding register that is not empty. -/
  held : Tab (BitVec 32)
  deriving DecidableEq, Repr

/-- The host interface (chapters 20 and 21). -/
structure HostIf where
  /-- HOST_FLAGS. -/
  flags : BitVec 32
  /-- HOST_MBX_RST_CNT and HOST_CPL_ERR_CNT, event counters. -/
  mbxRst : BitVec 32
  cplErr : BitVec 32
  /-- Trained link: SPEED code and lanes; link up (R532). -/
  speed : Nat
  width : Nat
  msixEn : Bool
  busMaster : Bool
  /-- MSI-X table words by word index, 4 per vector; the vector control word (index 4v+3) holds the
  mask in bit 0 and is 1 by default, the others 0 (PCIe Base Specification). -/
  msix : Tab (BitVec 32)
  /-- MSI-X function mask of the configuration space. -/
  funcMask : Bool
  /-- Pending bit array: vectors that happened while they could not be sent. -/
  pba : List Nat
  /-- MSI-X messages sent, oldest first, until the host takes them. -/
  sent : List Nat
  /-- IRQ_PENDk as the set of pending vectors (R544). -/
  irqPend : List Nat
  /-- HDR_FAULT_LO and HDR_FAULT_HI. -/
  hdrFault : BitVec 64
  mbx : Tab Mbx
  hdr : Tab Hdr
  fetched : List Fetched
  outst : List Outstanding
  spi : Spi
  dbg : Dbg
  /-- The service window, 1 MiB (R544): canonical list of (address, byte). -/
  window : List Host.Cell
  holdPcie : Holding
  holdSpi : Holding
  /-- What the latest two-half read returned through each port (R96). -/
  readPcie : BitVec 32
  readSpi : BitVec 32
  deriving DecidableEq, Repr

/-- A validated Maquette handed to the Unveil boundary (R20, R461). -/
structure Transfer where
  image : CfgSet
  /-- The named instant (R461). -/
  at_ : Option (BitVec 64)
  late : Bool
  internal : Bool
  paired : Bool
  /-- Target boundary of a paired Unveil (R466). -/
  target : BitVec 64
  /-- The standby acknowledged the Unveil frame. -/
  acked : Bool
  /-- Figures an internal Unveil migrates, with the cause set and trip SEQ of each. -/
  migrated : List (Nat × BitVec 32 × BitVec 32)
  deriving DecidableEq, Repr

/-- Configuration sets and live parameters (chapter 17). -/
structure Sets where
  cast : CfgSet
  maq : CfgSet
  frozen : Bool
  /-- SET_STATUS.PHASE 0-3. -/
  phase : Nat
  valid : Bool
  rstStale : Bool
  lastInt : Bool
  lastPaired : Bool
  castEmpty : Bool
  castSeq : BitVec 32
  maqSeq : BitVec 32
  /-- SET_VAL. -/
  val : BitVec 32
  digest : BitVec 64
  unvMt : BitVec 64
  unvGen : Nat
  /-- SET_REJ_CNT, event counter. -/
  rejCnt : BitVec 32
  /-- The Maquette transferred and not yet swapped (R20). -/
  transfer : Option Transfer
  /-- The Maquette copy after a swap is still to be made (R463). -/
  copyDue : Bool
  /-- The Mire's descriptors are to be considered when the Maquette thaws (R178). -/
  mireDue : Bool
  /-- Live parameters the planes use; key ID * 65536 + index. -/
  live : Tab (BitVec 32)
  /-- Live writes accepted and not yet in effect (R18): (key, value), oldest first. -/
  livePending : List (Nat × BitVec 32)
  deriving DecidableEq, Repr

/-- A committed packet (Table 18.2, R474): two header words and 1 to 64 payload words. -/
structure Packet where
  qid : Nat
  seq : BitVec 32
  stamp : BitVec 64
  payload : List (BitVec 64)
  /-- Also archived (COPY). -/
  copy : Bool
  /-- Delivered from the Mire. -/
  mire : Bool
  /-- Word positions (0 and 1 the header words) that could not be corrected (R493). -/
  poison : List Nat
  deriving DecidableEq, Repr

/-- The aperture registers of one result of a port (Table 10.9), their generation tag apart. -/
structure ApRegs where
  vMean : BitVec 48
  iMean : BitVec 48
  pMean : BitVec 48
  mtFirst : BitVec 64
  count : BitVec 32
  flags : BitVec 16
  cause : Nat
  gen : Nat
  deriving DecidableEq, Repr

/-- What the commit of a measurement result brings about besides its packet (R267, R275, R279): the
registers of its ports, figXXX.ap_done, and figXXX.ap_ovr for a result with OVR. -/
structure ResNote where
  regs : List (Nat × ApRegs)
  ovr : Bool
  deriving DecidableEq, Repr

/-- What the commit of an injection's last packet brings about besides it: figXXX.tune_done and the
response of TUNE_START (R347): the figure, the command, whether it ran to its end, whether it was
cancelled, its start, and the entries and packets written. -/
structure TuneNote where
  fig : Nat
  mbx : Nat
  tag : BitVec 16
  ok : Bool
  cancelled : Bool
  startMt : BitVec 64
  written : Nat
  packets : Nat
  deriving DecidableEq, Repr

/-- An uncommitted packet (Table 18.6): its first item's key, its stamp and the payload words so
far, and for an aperture result, the last packet of an injection or a list report what its commit brings
about. -/
structure Building where
  key : BitVec 32
  stamp : BitVec 64
  payload : List (BitVec 64)
  note : Option ResNote := none
  tuned : Option TuneNote := none
  /-- A list report, whose commit raises figXXX.swp_done (R400). -/
  listEnd : Bool := false
  deriving DecidableEq, Repr

/-- A run of sequence numbers with a count (the ranges of queue-event records, Table 18.5). -/
structure SeqRun where
  first : BitVec 32
  last : BitVec 32
  count : Nat
  deriving DecidableEq, Repr

/-- One queue. -/
structure Queue where
  /-- SEQ the next commit receives (R476). -/
  next : BitVec 32
  /-- Committed packets not delivered, oldest first. -/
  pkts : List Packet
  /-- Words of the first packet already popped (R483). -/
  pos : Nat
  /-- Leading packets its drain has taken whose delivery is not confirmed (R495, R542). -/
  taken : Nat
  /-- Credit balance in words (R486). -/
  credit : Nat
  /-- Diversion in force: the run diverted so far (R487). -/
  divert : Option SeqRun
  /-- A pop returned the idle item since diversion began (R488). -/
  idled : Bool
  /-- Overflow not yet recorded: the run discarded (R490). -/
  overflow : Option SeqRun
  /-- The next packet delivered carries GAP. -/
  gap : Bool
  /-- The queue holds a hot head (R208, R491). -/
  hot : Bool
  /-- log2 of the ring size in bytes; 0 when no ring is assigned. -/
  ringLog2 : Nat
  /-- Uncommitted packet in progress of streams 4 and 5. -/
  building : Option Building
  /-- Packets built whose commit is due, oldest first (R29). -/
  due : List Building
  deriving DecidableEq, Repr

/-- An entry of the queue state table that staging DRAM keeps (R478). -/
structure QueSaved where
  next : BitVec 32
  head : BitVec 32
  era : BitVec 32
  deriving DecidableEq, Repr

/-- A LOST record that waits for its figure's first enable or its stream's first push (R478). -/
structure LostDue where
  qid : Nat
  first : BitVec 32
  last : BitVec 32
  count : BitVec 32
  cause : Nat
  era : BitVec 32
  deriving DecidableEq, Repr

/-- A QUE_FLUSH in progress (R494): queues whose flush point is still to come, packets discarded and
producers cut so far. -/
structure FlushRun where
  mbx : Nat
  tag : BitVec 16
  left : List Nat
  packets : Nat
  cut : Nat
  deriving DecidableEq, Repr

/-- The queues (chapter 18). -/
structure Queues where
  q : Tab Queue
  /-- QUE_SEL. -/
  sel : BitVec 32
  /-- QUE_FLAGS. -/
  flags : BitVec 32
  /-- QUE_POISON_CNT, QUE_DROP_CNT, QUE_OVF_CNT, event counters. -/
  poisonCnt : BitVec 32
  dropCnt : BitVec 32
  ovfCnt : BitVec 32
  /-- QUE_CORR_CNTc, c = 0-6, event counters. -/
  corrCnt : Tab (BitVec 32)
  /-- QUE_HOT_USED. -/
  hotUsed : Nat
  /-- Queue state table as staging DRAM held it at the last data plane reset (R478). -/
  saved : Tab QueSaved
  lostDue : List LostDue
  flushes : List FlushRun
  /-- Every stream of every figure is to report a loss of unknown extent at its first enable, with
  the MT_ERA of the loss and its cause (R61, R478). -/
  lostAll : Option (Nat × BitVec 32)
  /-- Queues whose unknown-extent record has been written or is not due. -/
  lostDone : List Nat
  deriving DecidableEq, Repr

/-- States of the Mire in the order of STO_STATUS.STATE codes 0-6 (Table 19.13). -/
inductive StoState where
  | none | scanning | unformatted | ready | formatting | commit | failed
  deriving DecidableEq, Repr

/-- Where a page stands on its way to the Mire. -/
inductive PageState where
  /-- Its buffer takes packets (R506). -/
  | opened
  /-- Closed and queued for programming. -/
  | queued
  /-- Its data input or program runs on a target. -/
  | programming
  /-- Data input paused by a class 0 page (R503). -/
  | paused
  /-- Confirmed; the buffer is still held (R515). -/
  | confirmed
  deriving DecidableEq, Repr

/-- A page: in a staging buffer while its state says so, or in the Mire's log. -/
structure Page where
  /-- Page buffer identity while staged. -/
  id : Nat
  state : PageState
  /-- Priority class of Table 19.2. -/
  prio : Nat
  pkts : List Packet
  /-- Target set 0-7, 0xFF striped. -/
  set : Nat
  logSeq : BitVec 32
  logical : Nat
  mtEra : BitVec 32
  mt : BitVec 64
  /-- MT of commit of its oldest packet (R523). -/
  firstMt : BitVec 64
  /-- Target 8c + t and block once programming starts. -/
  target : Nat
  block : Nat
  deriving DecidableEq, Repr

/-- What a NAND operation does (Table 19.2). -/
inductive NandKind where
  | program | read | erase
  deriving DecidableEq, Repr

/-- A NAND operation waiting or running on a channel drain. -/
structure NandOp where
  kind : NandKind
  prio : Nat
  target : Nat
  /-- Page buffer identity for a program, logical page for a read, block for an erase. -/
  obj : Nat
  running : Bool
  paused : Bool
  deriving DecidableEq, Repr

/-- One NAND target (R508, R519, R579). -/
structure Target where
  fitted : Bool
  healthy : Bool
  retired : Bool
  luns : Nat
  blocks : Nat
  pagesPerBlock : Nat
  /-- Bad blocks, factory and grown, and how many of them are grown. -/
  bad : List Nat
  grown : Nat
  tprogUs : Nat
  /-- Erase counts by block, and blocks that are not free. -/
  erases : Tab Nat
  used : List Nat
  /-- Block that takes pages, and pages written in it. -/
  block : Nat
  written : Nat
  /-- Next block a MIRE_FORMAT erases. -/
  fmtNext : Nat
  /-- Core clocks of the latest timeouts (R519). -/
  timeouts : List Nat
  deriving DecidableEq, Repr

/-- A MIRE_READ in progress (R521). -/
structure MireRead where
  mbx : Nat
  tag : BitVec 16
  qid : Nat
  first : BitVec 32
  count : Nat
  ring : Nat
  /-- Index of the next SEQ of the range to deliver. -/
  pos : Nat
  delivered : Nat
  absent : Nat
  lost : Nat
  /-- A SEQ of the range before the next was not delivered. -/
  gap : Bool
  /-- Logical pages read into staging for it. -/
  loaded : List Nat
  deriving DecidableEq, Repr

/-- Storage (chapter 19). -/
structure Sto where
  state : StoState
  flags : BitVec 32
  /-- STO_STATUS bits that are held: INTAKE_HELD, FULL, NEAR_FULL. -/
  intakeHeld : Bool
  full : Bool
  nearFull : Bool
  targets : Tab Target
  /-- Staging: page buffers in use (R505). -/
  pages : List Page
  nextPage : Nat
  /-- The Mire's log: confirmed pages whose packets are not all released. -/
  log : List Page
  /-- Next logical page number, next LOG_SEQ, and STO_LOG_SEQ. -/
  nextLogical : Nat
  logSeq : BitVec 32
  confirmedSeq : BitVec 32
  /-- STO_RATE. -/
  rate : Nat
  measured : Bool
  progFail : BitVec 32
  eraseFail : BitVec 32
  timeoutCnt : BitVec 32
  rdCorr : BitVec 32
  lostCnt : BitVec 32
  preempt : BitVec 32
  drainRst : BitVec 32
  badBlk : BitVec 32
  ops : List NandOp
  /-- Operations of classes 0 and 1 since the last one of class 2 or 3, by channel (R502). -/
  sinceLow : Tab Nat
  /-- Drains under single-block reset, with the core clock at which it ends (R143, R504). -/
  drainReset : Tab Nat
  /-- Targets whose program or erase an L2 reset met: WPn stays high and CEn asserted until RBn reports
  ready (R142). -/
  cutOps : List Nat
  /-- Targets whose timeout has put their channel under a channel reset. -/
  chanReset : List Nat
  reads : List MireRead
  /-- Packets lost in the log: queue and SEQ (R517). -/
  lostPkts : List (Nat × BitVec 32)
  /-- Packets released that a read in progress may still deliver (R522). -/
  releasedHeld : List Packet
  /-- Round-robin position of archive pages over the targets (R211). -/
  robin : Nat
  /-- Target sets of figures under arm.mire_stripe = 1 (R211). -/
  figSet : Tab Nat
  /-- Archive pages since the last map checkpoint; the checkpoint is due. -/
  sinceCkpt : Nat
  ckptDue : Bool
  /-- System records: stage descriptors by port and the reference record (R178, R410). -/
  sysDescs : Tab (BitVec 2048)
  sysRef : Option (Int × Int × BitVec 32)
  /-- The Mire carries a valid checkpoint; it carries this module's OWNER. -/
  formatted : Bool
  own : Bool
  deriving DecidableEq, Repr

/-- The isolation channel as the secondary side sees it, with the outgoing command class
(R14, R15). -/
structure Iso where
  /-- The secondary side has received a valid frame since it last left an L1 or L0 reset. -/
  rxValid : Bool
  /-- The primary side has received one. -/
  txValid : Bool
  /-- An established channel that has failed and not been restored (R15). -/
  failed : Bool
  /-- Aux error to send in the next frame, signed 16-bit, 1 mV units (R108). -/
  auxErr : Int
  /-- The relay command of the secondary side: closed (R14, R110). -/
  relayCmd : Bool
  /-- The last frame sent is on its way. -/
  flight : Bool
  /-- Contents of the last frame sent: aux error, PFC enable, bulk setpoint, relay command, a mains
  converter self-calibration, and the changed primary-side parameters with their values (R14, R122). -/
  sentAux : Int
  sentPfcEn : Bool
  sentBulkV : Nat
  sentRelay : Bool
  sentCal : Bool
  sentParams : Tab Nat
  /-- Frames sent. -/
  sent : Nat
  /-- Primary-side parameters changed by an Unveil and not yet sent, rising (R122). -/
  paramsDue : List Nat
  /-- A mains converter self-calibration command waits to be sent (Table 1.1). -/
  mainsCalDue : Bool
  deriving DecidableEq, Repr

/-- Tracker states in the order of their STATE codes 0-4 (Table 4.2). -/
inductive MtState where
  | search | acquire | locked | holdover | virtual
  deriving DecidableEq, Repr

/-- A crossing the tracker keeps (R74-R78): its instant in 10 ns units on the secondary time base
and its polarity. -/
structure Crossing where
  t : Int
  rising : Bool
  deriving DecidableEq, Repr

/-- Mains time (chapter 4). -/
structure MtBlk where
  /-- The MT word (R7, R75). -/
  mt : BitVec 64
  /-- The 32 further fraction bits (R75). -/
  frac : BitVec 32
  state : MtState
  /-- Present f_MT, unsigned Q8.24 Hz (MT_FREQ). -/
  freq : BitVec 32
  eraOk : Bool
  epoch : Bool
  isoLoss : Bool
  mainsValid : Bool
  slew : Bool
  firstPull : Bool
  /-- MT_LINE_FREQ. -/
  lineFreq : BitVec 32
  /-- MT_XNOISE bits 15:0. -/
  xnoise : BitVec 16
  /-- MT_FLAGS. -/
  flags : BitVec 32
  /-- MT_REJ_CNT, MT_UNLOCK_CNT, MT_HOLD_CYC, event counters. -/
  rejCnt : BitVec 32
  unlockCnt : BitVec 32
  holdCyc : BitVec 32
  /-- MT_CAP and its generation tag. -/
  cap : BitVec 64
  capGen : Nat
  /-- Generation tag of MT_NOW, per access port (R97). -/
  nowGenPcie : Nat
  nowGenSpi : Nat
  /-- Valid crossings kept since mains was last lost, newest first, at most 5. -/
  cross : List Crossing
  /-- Valid crossings in a row (R74). -/
  validRun : Nat
  /-- Crossings in a row inside 2^-12 cycle and beyond 2^-5 cycle (Table 4.3). -/
  goodRun : Nat
  badRun : Nat
  /-- Second differences of the last 64 valid crossings, newest first, where one exists (R78). -/
  diffs : List (Option Int)
  /-- Valid crossings since MT_XNOISE was last updated. -/
  sinceNoise : Nat
  /-- f_est, Q8.24 Hz (R633). -/
  fEst : Nat
  /-- Half-period intervals of the crossings tracked, newest first, at most 32, 10 ns units. -/
  tracked : List Nat
  /-- δ in units of 2^-32 cycle (R75). -/
  delta : Int
  /-- Phase error of the last valid crossing, units of 2^-32 cycle, before δ. -/
  lastErr : Int
  /-- The linear phase of ACQUIRE has begun (R633). -/
  linear : Bool
  /-- Integrator of the type-2 loop, Q8.24 Hz. -/
  integ : Int
  /-- MT wrapped at the latest core clock (R9), and mt.epoch with MT_FLAGS.EPOCH is still to be
  raised for the latest wrap (R92). -/
  wrapNow : Bool
  wrapDue : Bool
  deriving DecidableEq, Repr

/-- The primary die and its power circuits (chapter 5, R13). It lies outside every reset level. -/
structure Primary where
  /-- The flyback runs; the start-up source has turned off. -/
  flyback : Bool
  /-- Flyback regulation has moved to AUX_FB (AUX_SEC). -/
  auxSec : Bool
  relayCmd : Bool
  /-- Relay closed, as RELAY_SNS confirms. -/
  relay : Bool
  relayFault : Bool
  /-- PFC switching; enabled by the frame last received. -/
  pfcRun : Bool
  pfcEn : Bool
  pfcHeld : Bool
  /-- Consecutive cycle-limited pulses (Table 5.2), and the core clock of the last. -/
  ocpRun : Nat
  ocpClk : Nat
  /-- Core clock before which the PFC does not start again (Table 5.2). -/
  restart : Nat
  /-- The primary side has lost the channel (R15). -/
  isoFailed : Bool
  lineLoss : Bool
  overTemp : Bool
  bulkOv : Bool
  /-- Bulk setpoint received, V; the setpoint in force ramps to it from a value in 10 mV units at a
  core clock (R102, R122). -/
  setpoint : Nat
  rampFrom : Nat
  rampClk : Nat
  /-- Primary-side parameters received since the primary die's own start (R118, R122). -/
  params : Tab Nat
  /-- The relay command of the last good frame. -/
  relaySeen : Bool
  /-- VBULK as the primary die last measured it, 10 mV units. -/
  vbulk : Nat
  /-- Faults, as bits of PFE_FAULTS, and limited cycles that the next frame reports (R111). -/
  reports : BitVec 32
  ocpDue : Nat
  /-- Frames the primary side has discarded (R14). -/
  frameErr : BitVec 32
  deriving DecidableEq, Repr

/-- The secondary side's view of the front end and the hold-up sequence. -/
structure Pfe where
  hu : HuState
  /-- Core clock of the mains loss in RIDE, of the entry in the later states. -/
  huClk : Nat
  bulkOk : Bool
  derate : Bool
  lossReported : Bool
  /-- PFE_FAULTS. -/
  faults : BitVec 32
  /-- PFE_DROP_CNT, PFE_OCP_CNT, event counters. -/
  dropCnt : BitVec 32
  ocpCnt : BitVec 32
  /-- Line peak and rms, VBULK in 10 mV units; primary die temperature in 0.5 °C units; none while
  no measurement arrives (R123, R639). -/
  linePeak : Nat
  lineRms : Nat
  vbulk : Option Nat
  temp : Int
  /-- E_use and E_res in mJ (Table 5.3), and B_max in bytes. -/
  eUse : Nat
  eRes : Nat
  bMax : Nat
  /-- P_aux as measured and as averaged over 1 s, mW (Table 5.3, R114). -/
  pAux : Nat
  pAvg : Nat
  /-- Mains has been valid since the secondary side last left an L1 or L0 reset (R116). -/
  everValid : Bool
  pri : Primary
  deriving DecidableEq, Repr

/-- Where the module stands between an assertion and running (R129-R132, R139). -/
inductive RstPhase where
  /-- No reset in progress above the planes' own start-up. -/
  | running
  /-- A source of level L1 or L0 is asserted and the trip actions or the handover go on (R129). -/
  | ordered
  /-- As `ordered`, with every source released: the stretch already runs (R131). -/
  | orderedStretch
  /-- In reset at the governing level. -/
  | inReset
  /-- Every source released; the stretch runs (R131). -/
  | stretch
  deriving DecidableEq, Repr

/-- Reset, start-up and readiness (chapter 6). -/
structure Rst where
  /-- Sources asserted and sources seen since the last exit (Table 6.1). -/
  asserted : BitVec 8
  seen : BitVec 8
  /-- Governing level; 4 when none. -/
  level : Nat
  /-- LEVEL last written to RST_REQ since the last exit; 0 when CMD was not seen (R127). -/
  reqLevel : Nat
  phase : RstPhase
  /-- RST_CAUSE, and the causes of exits that are not recorded yet, oldest first (R133). -/
  cause : BitVec 32
  exits : List (BitVec 32)
  /-- RST_FUSE in force, and as programmed for the next L1 or L0 reset (R126). -/
  fuse : BitVec 32
  fuseProgrammed : BitVec 32
  /-- RST_STRAP. -/
  strap : BitVec 32
  /-- Planes released, PLL locked. -/
  pll : Bool
  ctrlUp : Bool
  dataUp : Bool
  mgmtUp : Bool
  spiUp : Bool
  staging : Bool
  mireUp : Bool
  /-- Start-up step at which a test hold stops the sequence (R139); a hold is in force. -/
  hold : Option Nat
  /-- Staging DRAM has lost its contents and is to be trained (step 4 at L0). -/
  train : Bool
  /-- Level of the last reset. -/
  startLevel : Nat
  /-- Lowest V_AUX of the excursion in progress in mV (R60). -/
  excursion : Option Nat
  /-- Lowest V_AUX of an excursion that ended in the monitor's reset, kept in the retention domain. -/
  margin : Option Nat
  /-- Latest die temperatures in 0.1 °C: control, data, staging DRAM (R64). -/
  dieTemp : List Int
  /-- No port can be enabled until every sensor reads 115 °C or less (R64). -/
  dieHot : Bool
  /-- Level of RESETn (R134). -/
  resetN : Bool
  /-- Step 5 has been done since the last L1 or L0 reset: configuration requests are answered (R139). -/
  booted : Bool
  deriving DecidableEq, Repr

/-- A loss range of the peat store (Table 6.7). -/
structure LossRange where
  qid : Nat
  first : BitVec 32
  last : BitVec 32
  cause : Nat
  done : Bool
  deriving DecidableEq, Repr

/-- The peat store and the peat registers (R145-R147). -/
structure Peat where
  /-- PEAT_STATUS. -/
  status : BitVec 32
  /-- Retention power was lost since the last start (R61). -/
  lostPower : Bool
  /-- PEAT_REG0-15. -/
  regs : Tab (BitVec 32)
  /-- The header carries its signature and layout version (Table 6.7). -/
  signed : Bool
  /-- What its check will find bad at the start in progress (R146). -/
  found : PeatCheck
  /-- Write sequence number of the store. -/
  writeSeq : BitVec 32
  /-- Reset history: cause code and MT_ERA of the last 8 resets, newest first. -/
  history : List (BitVec 16 × BitVec 32)
  era : BitVec 32
  rstCount : BitVec 32
  wdogCnt : BitVec 32
  commitShort : Bool
  holdup : Bool
  strapLast : Nat
  /-- Twin record: last role, partner serial number, digest of the last Cast. -/
  twinRole : Nat
  twinSerial : BitVec 64
  twinDigest : BitVec 64
  ranges : List LossRange
  /-- Streams with pending ranges beyond the 224 entries (R118). -/
  excess : Nat
  /-- Copy of the first error and of the ring position (R628). -/
  errFirst : Option ErrRec
  errNewest : BitVec 32
  errAck : BitVec 32
  /-- Trip records lost at the last reset; 0xFFFF_FFFF when not counted (R632). -/
  lostTrips : BitVec 32
  deriving DecidableEq, Repr

/-- What identifies the module (R57, R126, R531). -/
inductive Part where
  | adx7128 | adx7164 | adx7132
  deriving DecidableEq, Repr

structure Ident where
  part : Part
  serial : BitVec 64
  silicon : BitVec 8
  deriving DecidableEq, Repr

/-- LINK codes 0-3. -/
inductive Link where
  | down | training | up | split
  deriving DecidableEq, Repr

/-- Training states 0-5 (Table 23.2). -/
inductive Train where
  | idle | detect | lock | order | config | up
  deriving DecidableEq, Repr

/-- A reliable frame sent and not acknowledged (R592). -/
structure Unacked where
  fseq : BitVec 32
  ftype : Nat
  resends : Nat
  deriving DecidableEq, Repr

/-- A Maquette edit whose command completes once the standby has acknowledged its MAQ frame
(R598): the frame, who waits, and the result. -/
structure EditWait where
  fseq : BitVec 32
  mbx : Nat
  opcode : Nat
  tag : BitVec 16
  outLen : Nat
  outAddr : BitVec 64
  mtAccept : BitVec 64
  result : List (BitVec 8)
  deriving DecidableEq, Repr

/-- A handover in progress (R608). -/
structure HandoverSt where
  target : BitVec 64
  kind : Nat
  level : Nat
  src : BitVec 8
  /-- This module departs. -/
  departing : Bool
  acked : Bool
  deriving DecidableEq, Repr

/-- Twin pairing (chapter 23). -/
structure Twin where
  role : Role
  link : Link
  train : Train
  /-- Failed attempts since the attempt count was cleared (R594). -/
  attempts : Nat
  seated : BitVec 16
  warm : Bool
  resync : Bool
  aliveIn : Bool
  rev : Bool
  pol : BitVec 4
  flags : BitVec 32
  /-- L in ns. -/
  latency : Nat
  lastCode : BitVec 16
  partner : BitVec 64
  mtOfs : BitVec 64
  mtOfsGen : Nat
  hbMiss : BitVec 32
  frameErr : BitVec 32
  trainFail : BitVec 32
  takeover : BitVec 32
  retx : BitVec 32
  /-- Missed slots in the present run (R605). -/
  missRun : Nat
  /-- Heartbeat number to send next; the last received heartbeat and its receive MT. -/
  hbSeq : BitVec 32
  last : Option Beat
  lastMt : BitVec 64
  /-- Next FSEQ to send; reliable frames not acknowledged. -/
  fseq : BitVec 32
  unacked : List Unacked
  /-- Edits that wait for the standby (R598). -/
  edits : List EditWait
  /-- FSEQ of the last reliable frame acknowledged to the partner. -/
  rxAcked : Option (BitVec 32)
  /-- Groups for which a STATE frame was applied since the last SYNC (R598). -/
  stateSeen : BitVec 16
  /-- Latest channel records by port, and groups whose records wait for their next boundary. -/
  chans : Tab ChanRec
  chansDue : BitVec 16
  runners : Tab RunnerRec
  anns : Tab QueAnn
  /-- Queues that committed since the pair last became warm (R612), as the frames show. -/
  annDirty : List Nat
  handover : Option HandoverSt
  /-- Takeover decided: groups still to pass B1 and B2 (R609). -/
  b1Due : BitVec 16
  b2Due : BitVec 16
  cold : Bool
  /-- Ports held by B1 and ports marked for restart. -/
  held : List Nat
  restart : List Nat
  /-- An attach is in progress (R580, R615). -/
  attachBusy : Bool
  /-- The partner announced that it calibrates (R408). -/
  partnerCal : Bool
  /-- Frames sent: type and FSEQ of the last (streamed frames carry 0). -/
  lastSent : Nat × BitVec 32
  /-- Contents of the last HEARTBEAT and the last STATE frame sent (Table 23.1). -/
  sentBeat : Option Beat
  sentState : Option (Nat × List ChanRec)
  /-- Shadow integrators are stopped since a missed heartbeat slot (R599). -/
  shadowStop : Bool
  /-- A training attempt runs (R594). -/
  trying : Bool
  /-- What the partner sent in CONFIG at the last entry to UP (Table 23.2). -/
  conf : Option ConfigMsg
  /-- The standby was warm at the last heartbeat it received (R610). -/
  warmBeat : Bool
  deriving DecidableEq, Repr

/-- Spare slice roles 0-4 (Table 9.2). -/
inductive SpareRole where
  | idle | calbus | share | carry | probe
  deriving DecidableEq, Repr

/-- AUX_STATE codes 0-3 (Table 9.13). -/
inductive AuxState where
  | stopped | waiting | running | urgent
  deriving DecidableEq, Repr

/-- The conversions an aux reading has taken so far (R230, R241): their number, the sum of their
words, whether any carried OVR, NOVR or SPARE, and the stamp of the first. -/
structure Conv where
  n : Nat
  sum : Int
  ovr : Bool
  novr : Bool
  spare : Bool
  first : Option (BitVec 64)
  deriving DecidableEq, Repr

/-- An urgent request (Table 9.7, R237). -/
structure Urg where
  cls : Nat
  port : Nat
  auxsel : Nat
  span : Nat
  settle : Nat
  avg : Nat
  /-- Class 0: trip SEQ; class 1: figure; class 2: mailbox * 65536 + tag of the command. -/
  owner : Nat
  /-- Core clock at which it was raised; of the conversion in progress, the one of its first slice
  tick (R238, R240). -/
  clk : Nat
  /-- Conversions taken. -/
  conv : Conv
  deriving DecidableEq, Repr

/-- Progress of the aux entry in progress, or interrupted (R230, R240-R242). -/
structure AuxRun where
  entry : Nat
  /-- The entry as its pass read it (R234). -/
  image : BitVec 128
  /-- Core clock of the slice tick of its latest start or resumption. -/
  start : Nat
  /-- Conversions taken: the partial sum and count a resumed entry keeps (R241). -/
  conv : Conv
  /-- 0 none, 1 RESUMED, 2 RESTARTED (R236). -/
  mark : Nat
  deriving DecidableEq, Repr

/-- Sources of a slice's input selector (R216). -/
inductive InSel where
  | live | probe | ref | calbus
  deriving DecidableEq, Repr

/-- What the spare slice's front selector connects (R216, Table 9.2). -/
inductive Front where
  | nothing
  | slice (s : Nat)
  | calbus | probe | ref
  deriving DecidableEq, Repr

/-- A sample instant of the group comb still to come in the present period (R225): its offset from
the period's boundary in core clocks, the core clock of its slice tick (R226), the inputs of the
slices, and whether it is the loop sample, re-phased, or taken at the end of the window. -/
structure Instant where
  ofs : Nat
  clk : Nat
  inputs : List (Nat × Int)
  loop : Bool
  rph : Bool
  tmiss : Bool
  /-- MT of its slice tick, once that has come. -/
  stamp : Option (BitVec 64)
  deriving DecidableEq, Repr

/-- A shared-channel check or path test waiting or running in a group (R244, R246). -/
structure CheckReq where
  /-- A path test when true. -/
  path : Bool
  slice : Nat
  mbx : Nat
  tag : BitVec 16
  running : Bool
  deriving DecidableEq, Repr

/-- A raw capture of a group (R249). -/
structure RawCap where
  fig : Nat
  mask : Nat
  start : BitVec 64
  started : Bool
  /-- Sample instants still to capture, and captured. -/
  left : Nat
  done : Nat
  firstSeq : BitVec 32
  packets : Nat
  mbx : Nat
  tag : BitVec 16
  /-- A raw word that waits for its pair, with the stamp of its instant. -/
  half : Option (BitVec 32 × BitVec 64)
  deriving DecidableEq, Repr

/-- Acquisition state of one group (chapter 9). -/
structure Acq where
  trigMode : Nat
  trigPort : Nat
  /-- Qualifying edge: 0 rising, 1 falling, 2 both (R223). -/
  trigEdge : Nat
  /-- A qualifying edge arrived in the last completed period, and in the present one (Table 9.13). -/
  edgeSeen : Bool
  edgeNow : Bool
  /-- The trigger instant of the period to come is fixed. -/
  trigNow : Bool
  /-- The loop sample of this period was taken at the end of the capture window (R223). -/
  tmissNow : Bool
  /-- The comb changed phase at this trigger (R225). -/
  rphNow : Bool
  /-- Offset of the last trigger instant from its boundary, in 5 ns units (R225). -/
  combPhase : Nat
  /-- Slices at a rail in the latest sample instant and the core clock of its slice tick, and the one
  of the latest aux conversion at a rail (R221). -/
  railPrev : List Nat
  railClk : Nat
  auxRail : Option Nat
  /-- Sample instants still to come, in time order (R225). -/
  comb : List Instant
  /-- Node voltage of the aux slice at the slice ticks of the present period, pV. -/
  auxIn : List Int
  flags : BitVec 32
  auxOvr : BitVec 16
  tmiss : BitVec 16
  auxState : AuxState
  auxClass : Nat
  auxStart : Nat
  run : Option AuxRun
  /-- A start condition of mode 1 has come and no pass has taken it (R231). -/
  passGo : Bool
  /-- The pass in progress has run an entry; entries due and not yet visited. -/
  passRan : Bool
  due : List Nat
  /-- Entries with PERIOD >= 1 that became due at a mains-cycle boundary (R231). -/
  dueCycle : List Nat
  interrupted : Option AuxRun
  urg : List Urg
  urgRun : Option Urg
  spareRole : SpareRole
  /-- Slice served; 0x1F when none. -/
  spareTgt : Nat
  /-- Input selectors of slices 0 to 16 (R216); one not listed stands at LIVE. -/
  sel : Tab InSel
  /-- The spare's front selector, and the span of its amplifier among the seven: 0 to 3 the voltage
  spans, 4 to 6 the current spans (R216). -/
  front : Front
  spareSpan : Nat
  /-- Common boundaries the group had passed as its spare slot began (R415). -/
  slotAt : Option Nat
  /-- Code of the probe DAC and the power of ten its attenuator divides by (R247). -/
  probe : Int
  probeAtt : Nat
  checks : List CheckReq
  cap : Option RawCap
  deriving DecidableEq, Repr

/-- An aperture of a figure, open or waiting (R89, R261, R262). -/
structure Aperture where
  /-- Start instant S. -/
  start : BitVec 64
  /-- NPLC code; 0 a tick aperture. -/
  code : Nat
  /-- Sweep point index; 0xFFFF for a command aperture. -/
  point : Nat
  /-- Stamp of the first sample, once there is one. -/
  first : Option (BitVec 64)
  /-- Stamp of the first sample after the aperture, once there is one. -/
  next : Option (BitVec 64)
  /-- Its start is the stamp of the loop tick at which it opens (S = 0, or late under R87). -/
  asap : Bool
  /-- A tick aperture: loop periods still to end, the present one included, and whether its first has
  begun (R261). -/
  ticksLeft : Nat
  begun : Bool
  /-- Ports and mode of the figure as it opened (R263). -/
  members : List Nat
  mode : Nat
  late : Bool
  rchg : Bool
  mmSat : Bool
  novr : Bool
  spare : Bool
  tmiss : Bool
  /-- MT qualifier so far (R91): worst condition met, and whether VIRTUAL was met. -/
  qual : Nat
  deriving DecidableEq, Repr

/-- The three integrators of one stage port over one aperture (R260): sums in units of 2^-16 word. -/
structure Integ where
  sumV : Int
  sumI : Int
  sumP : Int
  minV : Int
  maxV : Int
  minI : Int
  maxI : Int
  count : Nat
  ovr : Nat
  rsw : Nat
  spare : Nat
  /-- The descriptor whose constants of R259 were in force when the aperture opened (R263), and the
  range and the voltage span its sums are on (R264). -/
  desc : BitVec 2048
  rng : Nat
  vspan : Nat
  deriving DecidableEq, Repr

/-- One comb sample of a port as the result taps carry it (R258, R273): stamp, words, MS_STAT, and
the current range and voltage span in force at its instant. -/
structure Sample where
  stamp : BitVec 64
  wV : Int
  wI : Int
  statV : BitVec 8
  statI : BitVec 8
  rng : Nat
  vspan : Nat
  deriving DecidableEq, Repr

/-- Measurement state of one stage port. -/
structure Meas where
  /-- V and I words of the latest loop sample with their MS_STAT, range and span. -/
  wV : Int
  wI : Int
  statV : BitVec 8
  statI : BitVec 8
  rng : Nat
  vspan : Nat
  sampleMt : BitVec 64
  /-- The latest samples, oldest first, at least those of a period (R90, R262: no sample is lost
  between apertures). -/
  recent : List Sample
  integ : Option Integ
  /-- The result last committed for the port (Table 10.9). -/
  regs : ApRegs
  /-- Sum of |V x I| in µW over the loop samples of the mains cycle so far, and their number (R195). -/
  cycSum : Nat
  cycN : Nat
  deriving DecidableEq, Repr

/-- Output states 0-7 (Table 11.1). -/
inductive OutState where
  | off | armed | ramp | regulating | rampDown | park | tripped | standby
  deriving DecidableEq, Repr

/-- A range window (Table 11.3): ranges a and b, ticks since m, k and j. -/
structure Window where
  a : Nat
  b : Nat
  tick : Nat
  k : Nat
  j : Nat
  /-- Last current word before tick m, and the hold voltage when the voltage loop governs (R300). -/
  heldI : Int
  holdV : Option Int
  /-- Requested by a sweep point or an Unveil, not automatic. -/
  requested : Bool
  deriving DecidableEq, Repr

/-- The disable ramp of R291: start code, length N and periods done. -/
structure DownRamp where
  c0 : Int
  n : Nat
  j : Nat
  deriving DecidableEq, Repr

/-- A figure that leaves a stage: until the stage has ramped down it runs there, with the members that
ramp together and the mode it had (R285, R291). -/
structure Leave where
  fig : Nat
  mode : Nat
  members : List Nat
  deriving DecidableEq, Repr

/-- Force path and ranging of one stage port (chapter 11). -/
structure Force where
  out : OutState
  /-- Codes in the input and output registers of the force DAC (R280). -/
  inCode : Int
  outCode : Int
  /-- F_OUT driven; STG_ENn driven low; RNGn lines held low. -/
  driven : Bool
  en : Bool
  lines : List Nat
  /-- Lines still to release, one per loop tick (R164), after the given number of ticks. -/
  release : List Nat
  /-- Range and voltage span whose factors are in force. -/
  rng : Nat
  vspan : Nat
  vspanAuto : Bool
  rngAuto : Bool
  win : Option Window
  /-- Requested range and voltage span changes that wait (R306, R637). -/
  downPend : Option Nat
  spanPend : Option Nat
  /-- Periods the request has waited. -/
  waited : Nat
  /-- Parameters of the figure changed under an open window take effect at its close (Table 11.4). -/
  paramsDue : Bool
  /-- Consecutive loop samples of R304: above the up threshold, and inside 90 % of each lower range. -/
  upRun : Nat
  downRuns : List Nat
  /-- The same for the voltage span (R305). -/
  spanUpRun : Nat
  spanDownRuns : List Nat
  /-- Consecutive samples that would let a requested lower range or smaller span start (R306). -/
  reqRun : Nat
  spanReqRun : Nat
  /-- Voltage samples still held after a span change, and the held word (R295). -/
  spanHold : Nat
  heldV : Int
  /-- Setpoint and ramp target in 1/2000 of the level's unit (1/2000 µA in modes 3 and 4): what a slew
  of 1 unit/ms moves in 500 ns. -/
  setpoint : Int
  target : Int
  /-- Ticks the port has spent in its sequence step (Table 7.2, R164, Table 13.4). -/
  seq : Nat
  /-- Enable waits for the release of RNGn lines (R163); the figure to enable. -/
  enableDue : Option Nat
  /-- A disable that takes effect at the next loop tick (R285), and one whose ramp or park runs. -/
  leaveDue : Option Leave
  leave : Option Leave
  down : Option DownRamp
  /-- Short-circuit flag now and consecutive ticks set (R292, R293). -/
  sc : Bool
  scRun : Nat
  /-- The current limits were clipped to the range at the last evaluation (R298). -/
  iClip : Bool
  flags : BitVec 32
  rngUpCnt : BitVec 16
  rngDownCnt : BitVec 16
  scCnt : BitVec 32
  /-- Site address in force; strobes made; ticks of site wait left (R169, R170). -/
  site : Nat
  siteWait : Nat
  /-- The site to strobe once the command stands at SAFE_CODE (R390). -/
  siteNext : Option Nat
  /-- Core clock of the latest site change (Table 7.3). -/
  siteClk : Option Nat
  deriving DecidableEq, Repr

/-- State of one biquad section, Q32.16 words (R326). -/
structure Biquad where
  x1 : Int
  x2 : Int
  y1 : Int
  y2 : Int
  deriving DecidableEq, Repr

/-- One compensator: two biquads and an integrator in Q20.28 (R326). -/
structure Comp where
  bq1 : Biquad
  bq2 : Biquad
  integ : Int
  /-- Output of the last evaluation and the last error word before the gain schedule (R330). -/
  lastU : Int
  lastX : Int
  deriving DecidableEq, Repr

/-- Loop engine state of one channel (chapter 12). -/
structure Loop where
  v : Comp
  i : Comp
  x : Comp
  share : Comp
  gov : Nat
  /-- The setpoint loop governs (R324). -/
  spGov : Bool
  /-- Loop-state word of the latest period (Table 12.4). -/
  ls : BitVec 32
  detail : BitVec 32
  flags : BitVec 32
  /-- u_sel of the latest period, Q20.28. -/
  uSel : Int
  ff : Int
  ffh : Nat
  /-- V' of R320: voltage word of the previous loop sample. -/
  prevV : Int
  /-- Upper bound of the V loop active; of the I loop (R319). -/
  vUp : Bool
  iUp : Bool
  /-- The code the first command is to equal as the loops close or change roles (R337, R371, R392). -/
  closing : Option Int
  /-- Demand of a gang's selectors, Q32.16 words of the reference scale (R338). -/
  demand : Int
  /-- Output state a standby's shadow channel runs in (R599). -/
  shadow : OutState
  ovrRun : Nat
  ovrCnt : BitVec 32
  govCnt : BitVec 32
  deriving DecidableEq, Repr

/-- A tuning injection of a group (R344-R347). -/
structure Tune where
  fig : Nat
  port : Nat
  /-- Point 1, the setpoint, when true. -/
  atSetpoint : Bool
  wave : Nat
  prbsL : Nat
  dec : Nat
  amp : Int
  ftw : Nat
  n : Nat
  start : BitVec 64
  startMt : BitVec 64
  started : Bool
  k : Nat
  /-- PRBS shift register. -/
  sr : Nat
  /-- Capture entries not yet committed, as words, and the stamp and index of the first. -/
  entries : List (BitVec 64)
  nEntries : Nat
  stamp : BitVec 64
  written : Nat
  packets : Nat
  mbx : Nat
  tag : BitVec 16
  /-- SES_CANCEL stopped it (R561). -/
  cancelled : Bool
  /-- TUNE_STOP accepted, or the injection is to be cut at the next tick (R347). -/
  stop : Bool
  cut : Bool
  deriving DecidableEq, Repr

/-- One sampled comparator: above its threshold, settled, and consecutive samples outside its band
while unsettled (R354, R356). -/
structure Cmp where
  above : Bool
  settled : Bool
  outside : Nat
  deriving DecidableEq, Repr

/-- One window monitor (R351-R356). -/
structure Mon where
  /-- The monitor was on at its last sample; an off monitor becomes unsettled when it goes on. -/
  on : Bool
  upper : Cmp
  lower : Cmp
  viol : Bool
  /-- Consecutive violating samples. -/
  run : Nat
  latch : Bool
  /-- Slice ticks whose samples are ignored after a change of an RNGn line (R358). -/
  mask : Nat
  deriving DecidableEq, Repr

/-- Plausibility model of a channel (R366): exact fixed point, nV and nA. -/
structure Model where
  /-- Filter state x, and histories of x, V, I and dIh, newest first. -/
  x : Int
  hist : List (Int × Int × Int × Int)
  /-- Evaluated samples since the last reset; samples still held off (R367). -/
  since : Nat
  holdoff : Nat
  /-- Samples of load fitting since Rh and Ch were reset. -/
  fitted : Nat
  deriving DecidableEq, Repr

/-- Supervision of one stage port (chapter 13). -/
structure Sup where
  mon : List Mon
  tripped : Bool
  held : Bool
  /-- SUP_CAUSE. -/
  cause : BitVec 32
  flags : BitVec 32
  resV : BitVec 32
  resI : BitVec 32
  resid : Bool
  tripCnt : BitVec 32
  /-- SUP_LEAD. -/
  lead : BitVec 32
  leadBad : Bool
  checking : Bool
  /-- A check is asked for by a command: (mailbox, tag). -/
  leadCmd : Option (Nat × BitVec 16)
  /-- Loop ticks since the last completed check (R370). -/
  leadTicks : Nat
  /-- A SUP_HOLD_RELEASE waits for its check (R371). -/
  releaseCmd : Option (Nat × BitVec 16)
  /-- Consecutive equal raw codes of the V and the I slice, and the last codes (R369). -/
  froV : Nat
  froI : Nat
  codeV : Int
  codeI : Int
  /-- Output code at the start of each detection window, newest first (R371). -/
  codes : List Int
  heldCode : Int
  /-- STG_FLTn low now (R166). -/
  flt : Bool
  /-- SUP_TRIP_FORCE accepted for the next loop tick. -/
  force : Bool
  /-- SUP_TRIP_CLEAR accepted, and the monitors whose latches SUP_MON_CLEAR or SUP_MON_LATCH clears, as a
  mask, for the next loop tick (R17). -/
  clearDue : Bool
  monDue : Nat
  /-- Last 256 loop samples: V, I and loop-state words, newest first (R373). -/
  snap : List (BitVec 32 × BitVec 32 × BitVec 32)
  /-- Trip snapshot in progress: trip SEQ, MT_TRIP, figure, samples after t_a still to take. -/
  snapRun : Option (BitVec 32 × BitVec 64 × Nat × Nat)
  /-- Trip record SEQ of the latest trip. -/
  tripSeq : BitVec 32
  /-- Core clock of its t_a. -/
  tripClk : Nat
  model : Model
  deriving DecidableEq, Repr

/-- Runner states 0-5 (Table 14.5). -/
inductive RunState where
  | idle | armed | waiting | active | held | ended
  deriving DecidableEq, Repr

/-- States of the point in flight (Table 14.6, codes 0-3; the final states end the flight). -/
inductive PtState where
  | pending | placed | settling | aperture
  deriving DecidableEq, Repr

/-- The point in flight (R389-R394). -/
structure Flight where
  /-- Table index and the latched entry (R383). -/
  index : Nat
  entry : BitVec 256
  state : PtState
  mtStart : BitVec 64
  /-- Settling stamp; loop ticks since settling began; ticks since the dwell ended. -/
  settleMt : BitVec 64
  ticks : Nat
  dwellEnded : Bool
  waited : Nat
  /-- FLAGS of Table 14.9 so far. -/
  flags : BitVec 16
  /-- The pulse top is in progress and its ticks (R394). -/
  top : Bool
  topTicks : Nat
  deriving DecidableEq, Repr

/-- A point or list report not yet committed (Table 14.8). -/
structure Report where
  point : Nat
  state : Nat
  cause : Nat
  flags : BitVec 16
  pass : BitVec 32
  port : Nat
  wher : BitVec 8
  mtStart : BitVec 64
  mtEnd : BitVec 64
  deriving DecidableEq, Repr

/-- Runtime state of one figure: its runner, apertures, totals (chapters 10 and 14). -/
structure Fig where
  run : RunState
  /-- A start has been asked for and waits (SWP_START, swpNNN.go, step 3). -/
  startDue : Bool
  /-- Next point of the pass (offset in the list) and pass number. -/
  next : Nat
  pass : BitVec 32
  /-- MT stamp of the tick at which a point last fired (R389). -/
  fireMt : Option (BitVec 64)
  /-- MT stamp of the tick at which the next point became ready. -/
  readyMt : BitVec 64
  /-- Stamp of the tick at which the list last started. -/
  listMt : BitVec 64
  flight : Option Flight
  /-- List in force while it runs: first entry and count, repeat, end (as latched at the start). -/
  first : Nat
  count : Nat
  repeats : Nat
  endMode : Nat
  /-- Mode and level in force, and the limits a running point narrows (R381). -/
  mode : Nat
  level : Int
  compA : Option Int
  compB : Option Int
  /-- Index of the latest point fired. -/
  lastPoint : Nat
  /-- SWP_FLAGS, counters, SEQ of the next report. -/
  flags : BitVec 32
  doneCnt : BitVec 32
  failCnt : BitVec 32
  nrunCnt : BitVec 32
  seq : BitVec 32
  everEnabled : Bool
  /-- Outcomes the data plane has not taken, oldest first (R401). -/
  reports : List Report
  /-- SWP_STOP accepted: mode, to be cut at the next tick; 2: an Unveil has replaced the list. -/
  stop : Option Nat
  /-- The list ended during a hold (R636). -/
  endedInHold : Bool
  /-- The figure is enabled and runs (R285); a trip or disable ends it until an Unveil. -/
  enabled : Bool
  /-- fig.level written while it is kept (R386). -/
  levelKept : Bool
  /-- Budget overrun cycles are module wide; the figure was cut by the governor (Table 8.9). -/
  budgetCut : Bool
  apOpen : Option Aperture
  apWait : Option Aperture
  /-- Results of apertures that met a data plane reset, still to be reported (R22). -/
  apHeld : List Building
  qTot : BitVec 64
  eTot : BitVec 64
  totGap : Bool
  /-- MEAS_TOTAL_CLEAR waits for the next loop tick (R583). -/
  totClear : Bool
  /-- The point cut by a migration runs again: its next report carries REPEAT (R206). -/
  again : Bool
  /-- Migration under way: trip SEQ and cause set (R201). -/
  migrating : Option (BitVec 32 × BitVec 32)
  deriving DecidableEq, Repr

/-- A patina pass in progress (Table 15.4). -/
structure Pass where
  slice : Nat
  /-- Step 1-7 of Table 15.4. -/
  step : Nat
  /-- Cause of Table 15.7 once the pass has failed; 0 while it has not. -/
  cause : Nat
  /-- New sets by span code, computed at step 4. -/
  sets : List (Nat × Factors)
  deriving DecidableEq, Repr

/-- The limits of the checks, as they stand when a run or pass starts (R433): ppm, of span where Table
15.10 says so, and the number of agreeing passes of R423. -/
structure CalLimits where
  ofs : Nat
  g : Nat
  lin : Nat
  dOfs : Nat
  dG : Nat
  closeTol : Nat
  spareTol : Nat
  refD : Nat
  stepN : Nat
  deriving DecidableEq, Repr

/-- Calibration state of one group. Factor tables have the key slice * 8 + span code. -/
structure CalGrp where
  /-- Factor sets in force; an object not listed runs on the defaults of Table 10.1 (R425). -/
  inForce : Tab Factors
  /-- Accepted sets that wait under R426 and R427. -/
  waiting : Tab Factors
  /-- Slices whose last pass or slot, if any, was accepted (CAL_PASSn bits 17:0, R434). -/
  passOk : BitVec 18
  /-- The rotation runs (CAL_PASSn bit 31), and the slice that comes next. -/
  rotating : Bool
  next : Nat
  pass : Option Pass
  /-- Slices for which a set has been accepted since the last L1 or L0 reset (R423). -/
  accepted : List Nat
  /-- Consecutive results of a slice that failed the change check alone, newest first (R423). -/
  changeFails : Tab (List (List (Nat × Factors)))
  /-- Accepted sets of an object since its last refit, newest first, at most 16 (R424). -/
  history : Tab (List Factors)
  /-- Probe and reference values of the last accepted spare slot, ppb of span (R416). -/
  probe : List Int
  /-- Limits of the checks of the pass or slot that started last (R433). -/
  limits : CalLimits
  deriving DecidableEq, Repr

/-- Factors of an arbiter or of a mains converter channel: offset and gain departure in ppb. -/
structure ArbFactors where
  ofs : Int
  gain : Int
  deriving DecidableEq, Repr

/-- CAL_EXT in progress (Table 15.2). -/
structure ExtRun where
  /-- nV, ppm and µΩ. -/
  nominal : Int
  tol : Nat
  rs : Nat
  /-- cal.ref_d as it stood at the start (R433). -/
  refD : Nat
  deriving DecidableEq, Repr

/-- Calibration (chapter 15). -/
structure Cal where
  /-- Fuse banks: factor sets by group * 256 + slice * 8 + span code, arbiters 0-3 and mains
  converter channels 0-1 (R425). -/
  fuse : Tab Factors
  fuseArb : Tab ArbFactors
  fuseMains : Tab ArbFactors
  arb : Tab ArbFactors
  /-- Arbiters with factors accepted since the last L1 or L0 reset. -/
  arbAccepted : BitVec 4
  arbRun : BitVec 4
  /-- Arbiters whose run waits for a slot or CAL_EXT to end (R412). -/
  arbWait : BitVec 4
  ext : Option ExtRun
  mains : Tab ArbFactors
  mainsAccepted : BitVec 2
  /-- Mains run: the channel that self-calibrates, with the exchange still to come (R414). -/
  mainsRun : Option Nat
  /-- Factors found for the first channel, in force at the end of the run. -/
  mainsFirst : Option ArbFactors
  /-- Cause of Table 15.7 of the first channel's failure; 0 while it has none. -/
  mainsCause : Nat
  /-- I_CAL driven, and its polarity is negative (R411). -/
  isrcOn : Bool
  isrcNeg : Bool
  /-- REF_SRC 0 fuse, 1 Mire, 2 CAL_REF_WRITE. -/
  refSrc : Nat
  /-- V_REF in nV, I_CAL in pA, date as CAL_REF_WRITE or the record gives it. -/
  vRef : Int
  iCal : Int
  date : BitVec 32
  refMt : BitVec 64
  flags : BitVec 32
  failCnt : BitVec 32
  /-- Buses whose spare slot is due, and those on which one runs. -/
  slotDue : BitVec 4
  slotRun : BitVec 4
  /-- Runs and passes a reset cut, recorded at the restart (R430): object code of CAL_FAIL, index,
  record source. -/
  cut : List (Nat × Nat × Nat)
  grp : Tab CalGrp
  /-- Step of the start-up sequence of R429 reached, 0 to 4. -/
  startStep : Nat
  deriving DecidableEq, Repr

/-- A stage port: everything the module holds for it (chapters 7 and 10 to 13). -/
structure Sp where
  force : Force
  meas : Meas
  loop : Loop
  sup : Sup
  /-- Stage temperature, 1/16 °C, as the aux sequencer last read it; warned at its T_WARN,
  tripped at its T_MAX (R196). -/
  temp : Option Int
  warned : Bool
  overTemp : Bool
  placeSeq : BitVec 32
  /-- Bytes of the stage EEPROM as last read; outcome 0 not acknowledged, 1 valid, 2 invalid
  (R575). -/
  eeprom : BitVec 2048
  eepromState : Nat
  /-- A shared stage: figure last served, and figure whose slot runs (R397). -/
  slotLast : Option Nat
  slotFig : Option Nat
  deriving DecidableEq, Repr

/-- An I2C transfer of a group's controller (R175, R576): an EEPROM write when data remains. -/
structure I2c where
  port : Nat
  write : Bool
  offset : Nat
  data : List (BitVec 8)
  mbx : Nat
  tag : BitVec 16
  deriving DecidableEq, Repr

/-- A W1C write of the host to a register of a control-plane block (R17): the register, the port or
figure that its select register named, the value. -/
structure W1c where
  off : Nat
  sel : Nat
  value : BitVec 32
  deriving DecidableEq, Repr

/-- A group (R17, R27). -/
structure Grp where
  acq : Acq
  /-- Loop rate code in force (Table 12.9), and loop periods begun since the last common boundary. -/
  rate : Nat
  frame : Nat
  /-- Common boundaries the group has passed (R27). -/
  frames : Nat
  /-- Loop tick count, 48 bits, with its epoch bit (R9, R84), and the MT and the core clock of the
  present period's boundary. -/
  tick : BitVec 48
  epoch : Bool
  tickMt : BitVec 64
  tickClk : Nat
  /-- The cycle of the group's latest mains-cycle boundary (R86). -/
  cycle : Option Nat
  /-- T_DIE of R255, 1/16 °C. -/
  tDie : Int
  tune : Option Tune
  /-- Trip record buffer, oldest first (R24). -/
  trips : List TripRec
  ovf : BitVec 16
  intPend : Bool
  /-- In group context reset (R144): requested, and running. -/
  ctxDue : Bool
  ctxReset : Bool
  /-- W1C writes that take effect at the next loop tick, oldest first (R17). -/
  w1c : List W1c
  /-- AUXSEL code driven (R171). -/
  auxsel : Nat
  /-- The stage descriptor reads or their transfer have ended (R148). -/
  descDone : Bool
  /-- I2C transfers waiting, oldest first; the first is in progress. -/
  i2c : List I2c
  deriving DecidableEq, Repr

/-- Select registers (R275, R310, R349, R376, R405; QUE_SEL and FAB_CSEL stand in their blocks). -/
structure Sel where
  mp : BitVec 32
  fr : BitVec 32
  le : BitVec 32
  sup : BitVec 32
  swp : BitVec 32
  deriving DecidableEq, Repr

/-- A MEAS_SNAPSHOT that waits for its boundary (R274). -/
structure SnapReq where
  mbx : Nat
  tag : BitVec 16
  mask : BitVec 16
  outLen : Nat
  outAddr : BitVec 64
  mtAccept : BitVec 64
  /-- The common boundary it captures, as a count of those passed (R27). -/
  target : Nat
  /-- Entries of the groups captured so far, and the boundary's MT. -/
  got : Tab (List (BitVec 8))
  boundary : BitVec 64
  deriving DecidableEq, Repr

/-- Module-wide counters and waits of the control and data planes. -/
structure Misc where
  /-- MP_TAP_DISC, event counter (R22). -/
  tapDisc : BitVec 32
  /-- SEQ of the next trip record (R372). -/
  tripSeq : BitVec 32
  /-- Consecutive mains cycles of budget overrun (R195). -/
  overCycles : Nat
  snaps : List SnapReq
  deriving DecidableEq, Repr

/-- The module's state. -/
structure State where
  ident : Ident
  rst : Rst
  peat : Peat
  iso : Iso
  mt : MtBlk
  pfe : Pfe
  sets : Sets
  /-- Groups, stage ports and figures in use; others hold their defaults. -/
  grp : Tab Grp
  sp : Tab Sp
  fig : Tab Fig
  fab : Fab
  que : Queues
  sto : Sto
  cal : Cal
  host : HostIf
  twin : Twin
  err : Err
  sel : Sel
  misc : Misc
  /-- The model's own: index of the next free value (log entry 7). -/
  free : Nat
  /-- Core clocks of 5 ns the model has idled (log entry 8). -/
  clk : Nat
  /-- Commands waiting, first in, first out. -/
  pending : List Instr
  deriving DecidableEq, Repr

/-- What stops the machine: nothing. Every command of this block completes, so no fault exists; a
command whose guard does not hold leaves the state unchanged (log entry 9). Nobody raises a
fault, which is safe. -/
inductive Fault where
  deriving DecidableEq, Repr

/-- Why the model does not run a command. -/
inductive Refusal where
  /-- The command has no meaning in the model yet. Raised by exec's arm of that command only;
  safe, because nothing is claimed of it. -/
  | notModelled (mnemonic : String)
  deriving DecidableEq, Repr

/-- Page at reset, or where nothing is listed. -/
def Page.init : Page :=
  { id := 0, state := .opened, prio := 0, pkts := [], set := 0, logSeq := 0#32, logical := 0,
    mtEra := 0#32, mt := 0#64, firstMt := 0#64, target := 0, block := 0 }

/-- Packet at reset, or where nothing is listed. -/
def Packet.init : Packet :=
  { qid := 0, seq := 0#32, stamp := 0#64, payload := [], copy := false, mire := false,
    poison := [] }

/-- TripRec at reset, or where nothing is listed. -/
def TripRec.init : TripRec :=
  { fig := 0, port := 0, range := 0#8, cause := 0#32, mtTrip := 0#64, seq := 0#32, out := 0,
    gov := 0, mon := 0#8, detail := 0#8, code := 0, vWord := 0#32, iWord := 0#32, resV := 0#32,
    resI := 0#32, members := 0#8, auxf := 0#8, point := 0, stageTemp := 0, dieTemp := 0,
    mtCause := 0#64, aux := [] }

/-- CfgSet at reset, or where nothing is listed. -/
def CfgSet.init : CfgSet :=
  { params := [], figs := [], descs := [], coefs := [], ff := [], sweep := [], gens := [],
    aux := [], auxArm := [], place := [] }

/-- Placement at reset, or where nothing is listed. -/
def Placement.init : Placement :=
  { state := .undefined, cause := 0, members := [], pinned := false, moved := false,
    hot := false, budgetCut := false, migCnt := 0#16, claim := 0, mtSet := 0#64, hotHeads := 0,
    mireSet := 0, placeSeq := 0#32 }

/-- Mbx at reset, or where nothing is listed. -/
def Mbx.init : Mbx :=
  { state := .closed, reason := 0, code := 0#16, port := .pcie, owned := false,
    setupAddr := 0#64, setupBusy := false, reqLog2 := 0, rspLog2 := 0, irq := false,
    reqBase := 0#64, rspBase := 0#64, shadow := 0#64, modN := 0, modUs := 0, reqHead := 0#16,
    reqTail := 0#16, rspHead := 0#16, rspTail := 0#16, unsignalled := 0, shadowWord := 0#32,
    responses := [] }

/-- Hdr at reset, or where nothing is listed. -/
def Hdr.init : Hdr :=
  { state := .closed, log2 := 6, vector := 0xFFFF, modN := 0, modUs := 0, auto := false,
    base := 0#64, port := .pcie, write := 0#32, head := 0#32, bound := [], packets := [],
    flushBusy := false, unflushed := 0, unsignalled := 0 }

/-- Queue at reset, or where nothing is listed. -/
def Queue.init : Queue :=
  { next := 0#32, pkts := [], pos := 0, taken := 0, credit := 0, divert := none, idled := false,
    overflow := none, gap := false, hot := false, ringLog2 := 0, building := none, due := [] }

/-- Target at reset, or where nothing is listed. -/
def Target.init : Target :=
  { fitted := false, healthy := false, retired := false, luns := 0, blocks := 0,
    pagesPerBlock := 0, bad := [], grown := 0, tprogUs := 0, erases := [], used := [],
    block := 0, written := 0, fmtNext := 0, timeouts := [] }

/-- Fig at reset, or where nothing is listed. -/
def Fig.init : Fig :=
  { run := .idle, startDue := false, next := 0, pass := 0#32, fireMt := none, readyMt := 0#64,
    listMt := 0#64, flight := none, first := 0, count := 0, repeats := 0, endMode := 0,
    mode := 0, level := 0, compA := none, compB := none, lastPoint := 0, flags := 0#32,
    doneCnt := 0#32, failCnt := 0#32, nrunCnt := 0#32, seq := 0#32, everEnabled := false,
    reports := [], stop := none, endedInHold := false, enabled := false, levelKept := false,
    budgetCut := false, apOpen := none, apWait := none, apHeld := [], qTot := 0#64, eTot := 0#64,
    totGap := false, totClear := false, again := false, migrating := none }

/-- Force at reset, or where nothing is listed. -/
def Force.init : Force :=
  { out := .off, inCode := 0, outCode := 0, driven := false, en := false, lines := [],
    release := [], rng := 0, vspan := 0, vspanAuto := false, rngAuto := false, win := none,
    downPend := none, spanPend := none, waited := 0, paramsDue := false, upRun := 0,
    downRuns := [], spanUpRun := 0, spanDownRuns := [], reqRun := 0, spanReqRun := 0, spanHold := 0, heldV := 0, setpoint := 0,
    target := 0, seq := 0, enableDue := none, leaveDue := none, leave := none, down := none, sc := false, scRun := 0, iClip := false,
    flags := 0#32, rngUpCnt := 0#16, rngDownCnt := 0#16, scCnt := 0#32, site := 0, siteWait := 0,
    siteNext := none, siteClk := none }

/-- ApRegs at reset, or where nothing is listed. -/
def ApRegs.init : ApRegs :=
  { vMean := 0#48, iMean := 0#48, pMean := 0#48, mtFirst := 0#64, count := 0#32, flags := 0#16,
    cause := 0, gen := 0 }

/-- Meas at reset, or where nothing is listed. -/
def Meas.init : Meas :=
  { wV := 0, wI := 0, statV := 0#8, statI := 0#8, rng := 0, vspan := 0, sampleMt := 0#64,
    recent := [], integ := none, regs := ApRegs.init, cycSum := 0, cycN := 0 }

/-- Biquad at reset, or where nothing is listed. -/
def Biquad.init : Biquad :=
  { x1 := 0, x2 := 0, y1 := 0, y2 := 0 }

/-- Comp at reset, or where nothing is listed. -/
def Comp.init : Comp :=
  { bq1 := Biquad.init, bq2 := Biquad.init, integ := 0, lastU := 0, lastX := 0 }

/-- Loop at reset, or where nothing is listed. -/
def Loop.init : Loop :=
  { v := Comp.init, i := Comp.init, x := Comp.init, share := Comp.init, gov := 0, spGov := false,
    ls := 0#32, detail := 0#32, flags := 0#32, uSel := 0, ff := 0, ffh := 0, prevV := 0,
    vUp := false, iUp := false, closing := none, demand := 0, shadow := .off, ovrRun := 0,
    ovrCnt := 0#32, govCnt := 0#32 }

/-- Model at reset, or where nothing is listed. -/
def Model.init : Model :=
  { x := 0, hist := [], since := 0, holdoff := 0, fitted := 0 }

/-- Sup at reset, or where nothing is listed. -/
def Sup.init : Sup :=
  { mon := [], tripped := false, held := false, cause := 0#32, flags := 0#32, resV := 0#32,
    resI := 0#32, resid := false, tripCnt := 0#32, lead := 0#32, leadBad := false,
    checking := false, leadCmd := none, leadTicks := 0, releaseCmd := none, froV := 0, froI := 0,
    codeV := 0, codeI := 0, codes := [], heldCode := 0, flt := false,
    force := false, clearDue := false, monDue := 0, snap := [], snapRun := none, tripSeq := 0#32, tripClk := 0, model := Model.init }

/-- Sp at reset, or where nothing is listed. -/
def Sp.init : Sp :=
  { force := Force.init, meas := Meas.init, loop := Loop.init, sup := Sup.init, temp := none,
    warned := false, overTemp := false, placeSeq := 0#32, eeprom := 0#2048, eepromState := 0,
    slotLast := none, slotFig := none }

/-- No conversion taken yet. -/
def Conv.init : Conv :=
  { n := 0, sum := 0, ovr := false, novr := false, spare := false, first := none }

/-- Acq at reset, or where nothing is listed. -/
def Acq.init : Acq :=
  { trigMode := 0, trigPort := 0, trigEdge := 0, edgeSeen := false, edgeNow := false,
    trigNow := false, tmissNow := false, rphNow := false, combPhase := 0, railPrev := [],
    railClk := 0, auxRail := none, comb := [], auxIn := [], flags := 0#32, auxOvr := 0#16,
    tmiss := 0#16, auxState := .stopped, auxClass := 0, auxStart := 3, run := none,
    passGo := false, passRan := false, due := [], dueCycle := [], interrupted := none, urg := [],
    urgRun := none, spareRole := .idle, spareTgt := 0x1F, sel := [], front := .nothing,
    spareSpan := 0, slotAt := none, probe := 0, probeAtt := 0, checks := [], cap := none }

/-- Grp at reset, or where nothing is listed. -/
def Grp.init : Grp :=
  { acq := Acq.init, rate := 3, frame := 0, frames := 0, tick := 0#48, epoch := false,
    tickMt := 0#64, tickClk := 0, cycle := none, tDie := 0, tune := none, trips := [],
    ovf := 0#16, intPend := false, ctxDue := false, ctxReset := false, w1c := [], auxsel := 0,
    descDone := false, i2c := [] }

/-- CalGrp at reset, or where nothing is listed. -/
def CalGrp.init : CalGrp :=
  { inForce := [], waiting := [], passOk := 0x3FFFF#18, rotating := false, next := 0,
    pass := none, accepted := [], changeFails := [], history := [], probe := []
    limits := { ofs := 500, g := 1000, lin := 50, dOfs := 10, dG := 20, closeTol := 5, spareTol := 3
                refD := 20, stepN := 3 } }

/-- EvtOut at reset, or where nothing is listed. -/
def EvtOut.init : EvtOut :=
  { level := false, pulse := false }

/-- Cmp at reset, or where nothing is listed. -/
def Cmp.init : Cmp :=
  { above := false, settled := false, outside := 0 }

/-- Mon at reset, or where nothing is listed. -/
def Mon.init : Mon :=
  { on := false, upper := Cmp.init, lower := Cmp.init, viol := false, run := 0, latch := false,
    mask := 0 }

/-- Ident at reset, or where nothing is listed. -/
def Ident.init : Ident :=
  { part := .adx7128, serial := 1#64, silicon := 0#8 }

/-- Rst at reset, or where nothing is listed. -/
def Rst.init : Rst :=
  { asserted := 0#8, seen := 0x01#8, level := 0, reqLevel := 0, phase := .stretch,
    cause := 0x01#32, exits := [], fuse := 0#32, fuseProgrammed := 0#32, strap := 0#32, pll := false,
    ctrlUp := false, dataUp := false, mgmtUp := false, spiUp := false, staging := false,
    mireUp := false, hold := none, train := true, startLevel := 0, excursion := none,
    margin := none, dieTemp := [], dieHot := false, resetN := false, booted := false }

/-- A check of the peat store that finds nothing bad. -/
def PeatCheck.good : PeatCheck := { header := false, regions := 0#4, errors := false }

/-- Peat at reset, or where nothing is listed. -/
def Peat.init : Peat :=
  { status := 0#32, lostPower := true, regs := [], signed := false, found := PeatCheck.good, writeSeq := 0#32, history := [], era := 0#32,
    rstCount := 0#32, wdogCnt := 0#32, commitShort := false, holdup := false, strapLast := 0,
    twinRole := 0, twinSerial := 0#64, twinDigest := 0#64, ranges := [], excess := 0,
    errFirst := none, errNewest := 0xFFFFFFFF#32, errAck := 0xFFFFFFFF#32,
    lostTrips := 0xFFFFFFFF#32 }

/-- Iso at reset, or where nothing is listed. -/
def Iso.init : Iso :=
  { rxValid := false, txValid := false, failed := false, auxErr := 0, relayCmd := false, flight := false,
    sentAux := 0, sentPfcEn := false, sentBulkV := 0, sentRelay := false, sentCal := false,
    sentParams := [], sent := 0, paramsDue := [], mainsCalDue := false }

/-- MtBlk at reset, or where nothing is listed. -/
def MtBlk.init : MtBlk :=
  { mt := 0#64, frac := 0#32, state := .search, freq := 0x32000000#32, eraOk := true,
    epoch := false, isoLoss := false, mainsValid := false, slew := false, firstPull := true,
    lineFreq := 0#32, xnoise := 0#16, flags := 0#32, rejCnt := 0#32, unlockCnt := 0#32,
    holdCyc := 0#32, cap := 0#64, capGen := 0, nowGenPcie := 0, nowGenSpi := 0, cross := [],
    validRun := 0, goodRun := 0, badRun := 0, diffs := [], sinceNoise := 0, fEst := 0x32000000,
    tracked := [], delta := 0, lastErr := 0, linear := false, integ := 0, wrapNow := false,
    wrapDue := false }

/-- Primary at reset, or where nothing is listed. -/
def Primary.init : Primary :=
  { flyback := false, auxSec := false, relayCmd := false, relay := false, relayFault := false,
    pfcRun := false, pfcEn := false, pfcHeld := false, ocpRun := 0, ocpClk := 0, restart := 0,
    isoFailed := false, lineLoss := false, overTemp := false, bulkOv := false, setpoint := 0,
    rampFrom := 0, rampClk := 0, params := [], relaySeen := false, vbulk := 0, reports := 0#32,
    ocpDue := 0, frameErr := 0#32 }

/-- Pfe at reset, or where nothing is listed. -/
def Pfe.init : Pfe :=
  { hu := .normal, huClk := 0, bulkOk := false, derate := false, lossReported := false,
    faults := 0#32, dropCnt := 0#32, ocpCnt := 0#32, linePeak := 0, lineRms := 0, vbulk := none,
    temp := 0, eUse := 0, eRes := 0, bMax := 0, pAux := 0, pAvg := 0, everValid := false,
    pri := Primary.init }

/-- Sets at reset, or where nothing is listed. -/
def Sets.init : Sets :=
  { cast := CfgSet.init, maq := CfgSet.init, frozen := false, phase := 0, valid := false,
    rstStale := false, lastInt := false, lastPaired := false, castEmpty := true, castSeq := 0#32,
    maqSeq := 0#32, val := 0#32, digest := 0#64, unvMt := 0#64, unvGen := 0, rejCnt := 0#32,
    transfer := none, copyDue := false, mireDue := false, live := [], livePending := [] }

/-- Fab at reset, or where nothing is listed. -/
def Fab.init : Fab :=
  { masks := [], taps := [], sel := [], coincFlag := [], coinc := [], flags := 0#32,
    csel := 0#32, persist := [], seen := [], cnt := [], routeSeq := 0#32, evtOut := [],
    evtIn := [], raised := [], arrived := [] }

/-- Queues at reset, or where nothing is listed. -/
def Queues.init : Queues :=
  { q := [], sel := 0#32, flags := 0#32, poisonCnt := 0#32, dropCnt := 0#32, ovfCnt := 0#32,
    corrCnt := [], hotUsed := 0, saved := [], lostDue := [], flushes := [], lostAll := none,
    lostDone := [] }

/-- Sto at reset, or where nothing is listed. -/
def Sto.init : Sto :=
  { state := .scanning, flags := 0#32, intakeHeld := false, full := false, nearFull := false,
    targets := [], pages := [], nextPage := 0, log := [], nextLogical := 0, logSeq := 0#32,
    confirmedSeq := 0#32, rate := 0, measured := false, progFail := 0#32, eraseFail := 0#32,
    timeoutCnt := 0#32, rdCorr := 0#32, lostCnt := 0#32, preempt := 0#32, drainRst := 0#32,
    badBlk := 0#32, ops := [], sinceLow := [], drainReset := [], cutOps := [], chanReset := [], reads := [],
    lostPkts := [], releasedHeld := [], robin := 0, figSet := [], sinceCkpt := 0,
    ckptDue := false, sysDescs := [], sysRef := none, formatted := false, own := false }

/-- Cal at reset, or where nothing is listed. -/
def Cal.init : Cal :=
  { fuse := [], fuseArb := [], fuseMains := [], arb := [], arbAccepted := 0#4, arbRun := 0#4,
    arbWait := 0#4, ext := none, mains := [], mainsAccepted := 0#2, mainsRun := none,
    mainsFirst := none, mainsCause := 0, isrcOn := false, isrcNeg := false, refSrc := 0,
    vRef := 7000000000, iCal := 1000000000, date := 0#32, refMt := 0#64, flags := 0#32,
    failCnt := 0#32, slotDue := 0#4, slotRun := 0#4, cut := [], grp := [], startStep := 0 }

/-- Spi at reset, or where nothing is listed. -/
def Spi.init : Spi :=
  { executed := false, discarded := false, miso := [], status := 0#8 }

/-- Dbg at reset, or where nothing is listed. -/
def Dbg.init : Dbg :=
  { extest := false }

/-- Holding at reset, or where nothing is listed. -/
def Holding.init : Holding :=
  { held := [] }

/-- HostIf at reset, or where nothing is listed. -/
def HostIf.init : HostIf :=
  { flags := 0#32, mbxRst := 0#32, cplErr := 0#32, speed := 0, width := 0, msixEn := false,
    busMaster := false, msix := [], funcMask := false, pba := [], sent := [], irqPend := [],
    hdrFault := 0#64, mbx := [], hdr := [], fetched := [], outst := [], spi := Spi.init,
    dbg := Dbg.init, window := [], holdPcie := Holding.init, holdSpi := Holding.init,
    readPcie := 0#32, readSpi := 0#32 }

/-- Twin at reset, or where nothing is listed. -/
def Twin.init : Twin :=
  { role := .negotiating, link := .down, train := .idle, attempts := 0, seated := 0#16,
    warm := false, resync := false, aliveIn := false, rev := false, pol := 0#4, flags := 0#32,
    latency := 0, lastCode := 0#16, partner := 0#64, mtOfs := 0#64, mtOfsGen := 0,
    hbMiss := 0#32, frameErr := 0#32, trainFail := 0#32, takeover := 0#32, retx := 0#32,
    missRun := 0, hbSeq := 0#32, last := none, lastMt := 0#64, fseq := 0#32, unacked := [],
    edits := [], rxAcked := none, stateSeen := 0#16, chans := [], chansDue := 0#16,
    runners := [], anns := [], annDirty := [], handover := none, b1Due := 0#16, b2Due := 0#16,
    cold := false, held := [], restart := [], attachBusy := false, partnerCal := false,
    lastSent := (0, 0#32), sentBeat := none, sentState := none, shadowStop := false,
    trying := false, conf := none, warmBeat := false }

/-- Err at reset, or where nothing is listed. -/
def Err.init : Err :=
  { ring := [], newest := 0xFFFFFFFF#32, ack := 0xFFFFFFFF#32, lost := 0#32, isoFrame := 0#32,
    satSrc := 0#16, first := none, storm := false, stormLosses := 0, stormFirst := 0#64,
    stormLast := 0#64, deferred := [] }

/-- Sel at reset, or where nothing is listed. -/
def Sel.init : Sel :=
  { mp := 0#32, fr := 0#32, le := 0#32, sup := 0#32, swp := 0#32 }

/-- Misc at reset, or where nothing is listed. -/
def Misc.init : Misc :=
  { tapDisc := 0#32, tripSeq := 0#32, overCycles := 0, snaps := [] }

/-- The module right after reset: power has come, every reset source has released and the stretch
of R131 runs. Each value is the spec's, or named in a log entry (log entries 1 to 8). -/
def State.reset : State :=
  { ident := Ident.init, rst := Rst.init, peat := Peat.init, iso := Iso.init, mt := MtBlk.init,
    pfe := Pfe.init, sets := Sets.init, grp := [], sp := [], fig := [], fab := Fab.init,
    que := Queues.init, sto := Sto.init, cal := Cal.init, host := HostIf.init, twin := Twin.init,
    err := Err.init, sel := Sel.init, misc := Misc.init, free := 0, clk := 0, pending := [] }

end Sys2Proof.Machine
end

