-- ==== Sys2Proof/Machine/Base.lean ====
section
/-! DEFINITION. Plain helpers of the meanings: sparse tables, bit fields, little-endian bytes,
saturating counters, sequence numbers, rounding. -/

namespace Sys2Proof.Machine

/-- The entry of a sparse table at a key. -/
def tget? {α : Type} : Tab α → Nat → Option α
  | [], _ => none
  | (k, v) :: t, n => if k = n then some v else tget? t n

/-- The entry at a key, or the default of an unlisted key. -/
def tget {α : Type} (d : α) (t : Tab α) (n : Nat) : α := (tget? t n).getD d

/-- Set the entry at a key; the keys keep rising. -/
def tput {α : Type} : Tab α → Nat → α → Tab α
  | [], n, v => [(n, v)]
  | (k, w) :: t, n, v =>
    if k = n then (n, v) :: t else if n < k then (n, v) :: (k, w) :: t else (k, w) :: tput t n v

/-- Remove the entry at a key. -/
def tdel {α : Type} (t : Tab α) (n : Nat) : Tab α := t.filter (fun e => e.1 != n)

/-- Apply a function to every listed entry. -/
def tmap {α β : Type} (f : Nat → α → β) (t : Tab α) : Tab β := t.map (fun e => (e.1, f e.1 e.2))

/-- Keep the entries whose key and value pass a test. -/
def tfilter {α : Type} (p : Nat → α → Bool) (t : Tab α) : Tab α := t.filter (fun e => p e.1 e.2)

/-- Insert into an ascending list without repeats. -/
def insAsc : List Nat → Nat → List Nat
  | [], n => [n]
  | k :: t, n => if k = n then k :: t else if n < k then n :: k :: t else k :: insAsc t n

/-- Replace the element at a position. -/
def lset {α : Type} : List α → Nat → α → List α
  | [], _, _ => []
  | _ :: t, 0, v => v :: t
  | x :: t, n + 1, v => x :: lset t n v

/-- Bit of a Boolean. -/
def b2n (b : Bool) : Nat := if b then 1 else 0

/-- A Boolean as a 32-bit word with that bit at a place. -/
def bitAt (b : Bool) (n : Nat) : Word := if b then BitVec.twoPow 32 n else 0#32

/-- Bits hi:lo of a word as a number. -/
def bits {w : Nat} (x : BitVec w) (hi lo : Nat) : Nat := (x.extractLsb' lo (hi + 1 - lo)).toNat

/-- A signed field of a record at a bit offset. -/
def sbits {w : Nat} (x : BitVec w) (lo len : Nat) : Int := (x.extractLsb' lo len).toInt

/-- A number placed at a bit offset of a 32-bit word. -/
def at32 (n lo : Nat) : Word := BitVec.ofNat 32 n <<< lo

/-- An event counter increments and holds at all-ones (R10). -/
def bump {w : Nat} (c : BitVec w) : BitVec w := if c = BitVec.allOnes w then c else c + 1#w

/-- An event counter counts n events, holding at all-ones (R10). -/
def bumpBy {w : Nat} (c : BitVec w) (n : Nat) : BitVec w :=
  if c.toNat + n < 2 ^ w then BitVec.ofNat w (c.toNat + n) else BitVec.allOnes w

/-- An all-ones write to a counter clears it; any other write leaves it (R10). -/
def clearCounter {w : Nat} (c v : BitVec w) : BitVec w :=
  if v = BitVec.allOnes w then 0#w else c

/-- Sequence number order (R11): a is b or earlier, compared modulo 2^32. -/
def seqLe (a b : Word) : Bool := (b - a).toNat < 2 ^ 31

/-- Sequence number order (R11): a is earlier than b. -/
def seqLt (a b : Word) : Bool := a != b && seqLe a b

/-- MT order: a is at or before b, compared modulo 2^64 (R85). -/
def mtLe (a b : DWord) : Bool := (b - a).toNat < 2 ^ 63

/-- The n low bytes of a number, least significant first (R5). -/
def leBytes : Nat → Nat → List Byte
  | 0, _ => []
  | n + 1, x => BitVec.ofNat 8 x :: leBytes n (x / 256)

/-- The number a little-endian byte list spells. -/
def ofLe : List Byte → Nat
  | [] => 0
  | b :: t => b.toNat + 256 * ofLe t

/-- The first n bytes, padded with zeros. -/
def padTo (n : Nat) (l : List Byte) : List Byte := (l ++ List.replicate (n - l.length) 0#8).take n

/-- Division of integers rounded to the nearest, halves away from zero. -/
def rdiv (a : Int) (b : Nat) : Int :=
  if a < 0 then -((2 * (-a) + b) / (2 * b)) else (2 * a + b) / (2 * b)

/-- Ceiling division. -/
def cdiv (a b : Nat) : Nat := (a + b - 1) / b

/-- An integer held between two bounds. -/
def clamp (lo hi x : Int) : Int := if x < lo then lo else if hi < x then hi else x

/-- An integer as a 32-bit two's complement word. -/
def w32 (x : Int) : Word := BitVec.ofInt 32 x

/-- An integer held in the int32 range. -/
def sat32 (x : Int) : Int := clamp (-2147483648) 2147483647 x

/-- Integer square root, by n steps of bisection below 2^n. -/
def isqrtAux (x : Nat) : Nat → Nat → Nat
  | 0, r => r
  | n + 1, r =>
    let c := r + 2 ^ n
    isqrtAux x n (if c * c ≤ x then c else r)

/-- Integer square root of a number below 2^256. -/
def isqrt (x : Nat) : Nat := isqrtAux x 128 0

/-- The bits that are set in a number below 2^n, ascending. -/
def setBits (n x : Nat) : List Nat := (List.range n).filter (fun i => x.testBit i)

/-- Greatest element of a list of naturals, 0 when empty. -/
def lmax (l : List Nat) : Nat := l.foldl max 0

/-- Sum of a list of integers. -/
def isum (l : List Int) : Int := l.foldl (· + ·) 0

/-- Sum of a list of naturals. -/
def nsum (l : List Nat) : Nat := l.foldl (· + ·) 0

/-- Insertion of an element before the first one a test puts after it. -/
def insertBy {α : Type} (before : α → α → Bool) (x : α) : List α → List α
  | [] => [x]
  | y :: t => if before x y then x :: y :: t else y :: insertBy before x t

/-- Stable sort by a strict order. -/
def sortBy {α : Type} (before : α → α → Bool) (l : List α) : List α :=
  l.foldr (fun x acc => insertBy (fun a b => !before b a) x acc) []

end Sys2Proof.Machine
end

