-- ==== Sys2Proof/Machine/Params.lean ====
section
/-! DEFINITION. The parameter directory (R467): every parameter with its class, set, format, range
and reset value, from the parameter tables of the chapters. WIDTH is the number of bits the range
needs and MASK those bits, where the spec gives neither (DEDUCED, log entry 10). -/

namespace Sys2Proof.Machine

/-- CLASS of Table 17.6, codes 0-4. -/
inductive PClass where
  | global | group | stage | figure | site
  deriving DecidableEq, Repr

/-- One directory entry (Table 17.6). -/
structure DirEntry where
  id : Nat
  cls : PClass
  live : Bool
  /-- 0 unsigned, 1 signed, 2 unsigned Q0.16, 3 unsigned Q8.24, 4 bit fields. -/
  format : Nat
  width : Nat
  /-- Bit 0 MIN names a parameter, bit 1 MAX names one, bit 2 SPECIAL is also allowed. -/
  flags : Nat
  min : Nat
  max : Nat
  reset : Nat
  mask : Nat
  special : Nat
  name : String
  deriving Repr

/-- Entries of IDs 0x0100 to 0x011F. -/
def dirMt : List DirEntry := [
  ⟨0x0100, .global, false, 0, 1, 0, 0, 1, 0, 0x1, 0, "mt.mode"⟩,
  ⟨0x0101, .global, false, 3, 32, 0, 0x28000000, 0x46000000, 0x32000000, 0xFFFFFFFF, 0, "mt.nominal_hz"⟩,
  ⟨0x0102, .global, false, 3, 32, 0, 0x28000000, 0x46000000, 0x32000000, 0xFFFFFFFF, 0, "mt.virt_hz"⟩,
  ⟨0x0103, .global, false, 0, 24, 0, 0, 0xffffff, 0, 0xFFFFFF, 0, "mt.phase_ofs"⟩,
  ⟨0x0104, .global, false, 0, 2, 0, 0, 3, 0, 0x3, 0, "mt.track_bw"⟩,
  ⟨0x0110, .global, true, 0, 24, 0, 0, 0xffffff, 0, 0xFFFFFF, 0, "mt.pe0.phase"⟩,
  ⟨0x0111, .global, true, 0, 9, 0, 1, 256, 1, 0x1FF, 0, "mt.pe0.div"⟩,
  ⟨0x0112, .global, true, 0, 8, 2, 0, 273, 0, 0xFF, 0, "mt.pe0.rem"⟩,
  ⟨0x0113, .global, true, 0, 1, 0, 0, 1, 0, 0x1, 0, "mt.pe0.en"⟩,
  ⟨0x0114, .global, true, 0, 24, 0, 0, 0xffffff, 0, 0xFFFFFF, 0, "mt.pe1.phase"⟩,
  ⟨0x0115, .global, true, 0, 9, 0, 1, 256, 1, 0x1FF, 0, "mt.pe1.div"⟩,
  ⟨0x0116, .global, true, 0, 8, 2, 0, 277, 0, 0xFF, 0, "mt.pe1.rem"⟩,
  ⟨0x0117, .global, true, 0, 1, 0, 0, 1, 0, 0x1, 0, "mt.pe1.en"⟩,
  ⟨0x0118, .global, true, 0, 24, 0, 0, 0xffffff, 0, 0xFFFFFF, 0, "mt.pe2.phase"⟩,
  ⟨0x0119, .global, true, 0, 9, 0, 1, 256, 1, 0x1FF, 0, "mt.pe2.div"⟩,
  ⟨0x011A, .global, true, 0, 8, 2, 0, 281, 0, 0xFF, 0, "mt.pe2.rem"⟩,
  ⟨0x011B, .global, true, 0, 1, 0, 0, 1, 0, 0x1, 0, "mt.pe2.en"⟩,
  ⟨0x011C, .global, true, 0, 24, 0, 0, 0xffffff, 0, 0xFFFFFF, 0, "mt.pe3.phase"⟩,
  ⟨0x011D, .global, true, 0, 9, 0, 1, 256, 1, 0x1FF, 0, "mt.pe3.div"⟩,
  ⟨0x011E, .global, true, 0, 8, 2, 0, 285, 0, 0xFF, 0, "mt.pe3.rem"⟩,
  ⟨0x011F, .global, true, 0, 1, 0, 0, 1, 0, 0x1, 0, "mt.pe3.en"⟩]

/-- Entries of IDs 0x0120 to 0x014F. -/
def dirPfe : List DirEntry := [
  ⟨0x0120, .global, false, 0, 1, 0, 0, 1, 0, 0x1, 0, "pfe.mode"⟩,
  ⟨0x0121, .global, false, 0, 1, 0, 0, 1, 0, 0x1, 0, "pfe.pfc_en"⟩,
  ⟨0x0122, .global, false, 0, 9, 0, 380, 420, 400, 0x1FF, 0, "pfe.bulk_v"⟩,
  ⟨0x0123, .global, false, 0, 8, 0, 50, 200, 100, 0xFF, 0, "pfe.pfc_fsw"⟩,
  ⟨0x0124, .global, false, 0, 13, 4, 50, 0x1388, 0, 0x1FFF, 0, "pfe.pfc_l_uh"⟩,
  ⟨0x0125, .global, false, 0, 14, 4, 10, 0x2710, 0, 0x3FFF, 0, "pfe.pfc_rs"⟩,
  ⟨0x0126, .global, false, 0, 2, 0, 0, 2, 0, 0x3, 0, "pfe.pfc_vbw"⟩,
  ⟨0x0127, .global, false, 0, 16, 4, 1, 0xffff, 0, 0xFFFF, 0, "pfe.c_bulk_uf"⟩,
  ⟨0x0128, .global, false, 2, 16, 0, 0x8000, 0xffff, 0xcccd, 0xFFFF, 0, "pfe.c_derate"⟩,
  ⟨0x0129, .global, false, 0, 8, 0, 100, 250, 150, 0xFF, 0, "pfe.v_stop"⟩,
  ⟨0x012A, .global, false, 2, 16, 0, 0x8000, 0xffff, 0xd99a, 0xFFFF, 0, "pfe.fly_eff"⟩,
  ⟨0x012B, .global, false, 2, 16, 0, 0x8000, 0xffff, 0xe666, 0xFFFF, 0, "pfe.stg_eff"⟩,
  ⟨0x012C, .global, false, 0, 7, 0, 1, 100, 2, 0x7F, 0, "pfe.wd_ms"⟩,
  ⟨0x012D, .global, false, 0, 14, 0, 0, 0x2710, 0, 0x3FFF, 0, "pfe.ride_max_ms"⟩,
  ⟨0x012E, .global, false, 0, 8, 0, 1, 255, 4, 0xFF, 0, "pfe.commit_j"⟩,
  ⟨0x012F, .global, false, 0, 7, 0, 0, 100, 25, 0x7F, 0, "pfe.reserve_pct"⟩,
  ⟨0x0130, .global, false, 0, 14, 0, 0x2c88, 0x3138, 0x2ee0, 0x3FFF, 0, "pfe.aux_v"⟩,
  ⟨0x0131, .global, false, 0, 2, 0, 0, 2, 1, 0x3, 0, "pfe.aux_bw"⟩,
  ⟨0x0132, .global, false, 0, 8, 0, 65, 130, 100, 0xFF, 0, "pfe.fly_fsw"⟩,
  ⟨0x0133, .global, false, 0, 16, 0, 0, 0xffff, 0, 0xFFFF, 0, "pfe.budget_w"⟩,
  ⟨0x0134, .global, false, 0, 9, 0, 85, 305, 180, 0x1FF, 0, "pfe.lowline_v"⟩]

/-- Entries of IDs 0x0150 to 0x016F. -/
def dirArm : List DirEntry := [
  ⟨0x0150, .global, false, 0, 1, 0, 0, 1, 0, 0x1, 0, "arm.strict"⟩,
  ⟨0x0151, .global, false, 0, 6, 0, 0, 50, 10, 0x3F, 0, "arm.gang_margin"⟩,
  ⟨0x0152, .global, false, 0, 6, 0, 1, 50, 5, 0x3F, 0, "arm.rot_dt"⟩,
  ⟨0x0153, .global, false, 0, 8, 0, 1, 255, 3, 0xFF, 0, "arm.gov_cyc"⟩,
  ⟨0x0154, .global, false, 0, 7, 0, 10, 80, 50, 0x7F, 0, "arm.stage_split"⟩,
  ⟨0x0155, .global, false, 0, 14, 0, 1, 0x2710, 100, 0x3FFF, 0, "arm.buf_ms"⟩,
  ⟨0x0156, .global, false, 0, 1, 0, 0, 1, 0, 0x1, 0, "arm.mire_stripe"⟩,
  ⟨0x0157, .global, false, 0, 9, 0, 1, 256, 16, 0x1FF, 0, "arm.temp_cyc"⟩,
  ⟨0x0158, .global, false, 0, 7, 0, 10, 95, 75, 0x7F, 0, "arm.divert_pct"⟩,
  ⟨0x0159, .global, false, 0, 7, 0, 1, 100, 25, 0x7F, 0, "arm.resume_pct"⟩,
  ⟨0x015A, .global, false, 0, 14, 0, 1, 0x2710, 100, 0x3FFF, 0, "arm.mire_pad_ms"⟩,
  ⟨0x015B, .global, false, 0, 7, 0, 50, 99, 95, 0x7F, 0, "arm.mire_full_pct"⟩,
  ⟨0x015C, .global, true, 0, 8, 0, 0, 255, 128, 0xFF, 0, "arm.twin_pref"⟩,
  ⟨0x0160, .global, false, 0, 8, 0, 0, 200, 20, 0xFF, 0, "sup.auto_pct"⟩,
  ⟨0x0161, .global, false, 0, 16, 0, 0, 0xea60, 1000, 0xFFFF, 0, "sup.lead_ms"⟩,
  ⟨0x0162, .global, false, 0, 7, 0, 1, 100, 10, 0x7F, 0, "sup.lead_mv"⟩,
  ⟨0x0163, .global, false, 0, 11, 0, 4, 1024, 32, 0x7FF, 0, "sup.res_hold"⟩,
  ⟨0x0164, .global, false, 0, 16, 0, 16, 0xffff, 256, 0xFFFF, 0, "sup.rc_win"⟩]

/-- Entries of IDs 0x0170 to 0x017F. -/
def dirCal : List DirEntry := [
  ⟨0x0170, .global, false, 0, 1, 0, 0, 1, 1, 0x1, 0, "cal.patina_en"⟩,
  ⟨0x0171, .global, false, 0, 11, 0, 1, 1440, 10, 0x7FF, 0, "cal.spare_min"⟩,
  ⟨0x0172, .global, false, 0, 10, 0, 0, 720, 24, 0x3FF, 0, "cal.arb_hours"⟩,
  ⟨0x0173, .global, false, 0, 14, 0, 10, 0x2710, 500, 0x3FFF, 0, "cal.ofs_band"⟩,
  ⟨0x0174, .global, false, 0, 14, 0, 10, 0x2710, 1000, 0x3FFF, 0, "cal.g_band"⟩,
  ⟨0x0175, .global, false, 0, 10, 0, 5, 1000, 50, 0x3FF, 0, "cal.lin_band"⟩,
  ⟨0x0176, .global, false, 0, 10, 0, 1, 1000, 10, 0x3FF, 0, "cal.d_ofs"⟩,
  ⟨0x0177, .global, false, 0, 10, 0, 1, 1000, 20, 0x3FF, 0, "cal.d_g"⟩,
  ⟨0x0178, .global, false, 0, 7, 0, 1, 100, 5, 0x7F, 0, "cal.close_tol"⟩,
  ⟨0x0179, .global, false, 0, 7, 0, 1, 100, 3, 0x7F, 0, "cal.spare_tol"⟩,
  ⟨0x017A, .global, false, 0, 10, 0, 1, 1000, 20, 0x3FF, 0, "cal.ref_d"⟩,
  ⟨0x017B, .global, false, 0, 5, 0, 0, 16, 3, 0x1F, 0, "cal.step_n"⟩]

/-- Entries of IDs 0x0180 to 0x01FF. -/
def dirEvt : List DirEntry := [
  ⟨0x0180, .global, true, 0, 2, 0, 0, 3, 3, 0x3, 0, "evt.in0.edge"⟩,
  ⟨0x0181, .global, true, 0, 2, 0, 0, 3, 3, 0x3, 0, "evt.in1.edge"⟩,
  ⟨0x0182, .global, true, 0, 2, 0, 0, 3, 3, 0x3, 0, "evt.in2.edge"⟩,
  ⟨0x0183, .global, true, 0, 2, 0, 0, 3, 3, 0x3, 0, "evt.in3.edge"⟩,
  ⟨0x0184, .global, true, 0, 2, 0, 0, 3, 3, 0x3, 0, "evt.in4.edge"⟩,
  ⟨0x0185, .global, true, 0, 2, 0, 0, 3, 3, 0x3, 0, "evt.in5.edge"⟩,
  ⟨0x0186, .global, true, 0, 2, 0, 0, 3, 3, 0x3, 0, "evt.in6.edge"⟩,
  ⟨0x0187, .global, true, 0, 2, 0, 0, 3, 3, 0x3, 0, "evt.in7.edge"⟩,
  ⟨0x0188, .global, true, 0, 1, 0, 0, 1, 0, 0x1, 0, "evt.out0.mode"⟩,
  ⟨0x0189, .global, true, 0, 1, 0, 0, 1, 0, 0x1, 0, "evt.out1.mode"⟩,
  ⟨0x018A, .global, true, 0, 1, 0, 0, 1, 0, 0x1, 0, "evt.out2.mode"⟩,
  ⟨0x018B, .global, true, 0, 1, 0, 0, 1, 0, 0x1, 0, "evt.out3.mode"⟩,
  ⟨0x018C, .global, true, 0, 1, 0, 0, 1, 0, 0x1, 0, "evt.out4.mode"⟩,
  ⟨0x018D, .global, true, 0, 1, 0, 0, 1, 0, 0x1, 0, "evt.out5.mode"⟩,
  ⟨0x018E, .global, true, 0, 1, 0, 0, 1, 0, 0x1, 0, "evt.out6.mode"⟩,
  ⟨0x018F, .global, true, 0, 1, 0, 0, 1, 0, 0x1, 0, "evt.out7.mode"⟩,
  ⟨0x0190, .global, true, 0, 8, 0, 2, 255, 20, 0xFF, 0, "evt.out0.width"⟩,
  ⟨0x0191, .global, true, 0, 8, 0, 2, 255, 20, 0xFF, 0, "evt.out1.width"⟩,
  ⟨0x0192, .global, true, 0, 8, 0, 2, 255, 20, 0xFF, 0, "evt.out2.width"⟩,
  ⟨0x0193, .global, true, 0, 8, 0, 2, 255, 20, 0xFF, 0, "evt.out3.width"⟩,
  ⟨0x0194, .global, true, 0, 8, 0, 2, 255, 20, 0xFF, 0, "evt.out4.width"⟩,
  ⟨0x0195, .global, true, 0, 8, 0, 2, 255, 20, 0xFF, 0, "evt.out5.width"⟩,
  ⟨0x0196, .global, true, 0, 8, 0, 2, 255, 20, 0xFF, 0, "evt.out6.width"⟩,
  ⟨0x0197, .global, true, 0, 8, 0, 2, 255, 20, 0xFF, 0, "evt.out7.width"⟩]

/-- Entries of IDs 0x0400 to 0x0413. -/
def dirFig0 : List DirEntry := [
  ⟨0x0400, .figure, false, 0, 1, 0, 0, 1, 0, 0x1, 0, "fig.en"⟩,
  ⟨0x0401, .figure, false, 0, 3, 0, 0, 5, 0, 0x7, 0, "fig.mode"⟩,
  ⟨0x0402, .figure, false, 1, 32, 0, 0x80000000, 0x7fffffff, 0, 0xFFFFFFFF, 0, "fig.lim.v_hi"⟩,
  ⟨0x0403, .figure, false, 1, 32, 2, 0x80000000, 1026, 0, 0xFFFFFFFF, 0, "fig.lim.v_lo"⟩,
  ⟨0x0404, .figure, false, 0, 32, 0, 0, 0xffffffff, 0, 0xFFFFFFFF, 0, "fig.lim.i_src"⟩,
  ⟨0x0405, .figure, false, 0, 32, 0, 0, 0xffffffff, 0, 0xFFFFFFFF, 0, "fig.lim.i_snk"⟩,
  ⟨0x0406, .figure, false, 0, 32, 0, 0, 0xffffffff, 0, 0xFFFFFFFF, 0, "fig.lim.p"⟩,
  ⟨0x0407, .figure, false, 0, 2, 0, 0, 3, 0, 0x3, 0, "fig.acc"⟩,
  ⟨0x0408, .figure, false, 0, 32, 0, 0, 0xffffffff, 0, 0xFFFFFFFF, 0, "fig.i_floor"⟩,
  ⟨0x0409, .figure, false, 0, 4, 0, 0, 15, 8, 0xF, 0, "fig.prio"⟩,
  ⟨0x040A, .figure, false, 4, 23, 0, 0, 0x7fffff, 0, 0x7FFFFF, 0, "fig.sites"⟩,
  ⟨0x040B, .figure, false, 0, 16, 4, 0, 127, 0xffff, 0xFFFF, 0xffff, "fig.pin"⟩,
  ⟨0x040C, .figure, false, 4, 8, 0, 0, 255, 0, 0xFF, 0, "fig.pin_gang"⟩,
  ⟨0x040D, .figure, false, 0, 4, 0, 1, 8, 1, 0xF, 0, "fig.gang_max"⟩,
  ⟨0x040E, .figure, false, 0, 1, 0, 0, 1, 0, 0x1, 0, "fig.share"⟩,
  ⟨0x040F, .figure, false, 0, 32, 0, 0, 0xffffffff, 0, 0xFFFFFFFF, 0, "fig.p_claim"⟩,
  ⟨0x0410, .figure, false, 0, 2, 0, 0, 2, 1, 0x3, 0, "fig.rotate"⟩,
  ⟨0x0411, .figure, false, 0, 1, 0, 0, 1, 1, 0x1, 0, "fig.migrate"⟩,
  ⟨0x0412, .figure, false, 0, 1, 0, 0, 1, 0, 0x1, 0, "fig.mig_repeat"⟩,
  ⟨0x0413, .figure, false, 0, 2, 0, 0, 2, 0, 0x3, 0, "fig.archive"⟩]

/-- Entries of IDs 0x0414 to 0x0427. -/
def dirFig1 : List DirEntry := [
  ⟨0x0414, .figure, false, 4, 27, 0, 0, 0x7f8ffff, 0, 0x7F8FFFF, 0, "fig.pt_aux"⟩,
  ⟨0x0415, .figure, false, 0, 4, 0, 0, 15, 0, 0xF, 0, "fig.pt_auxsel"⟩,
  ⟨0x0416, .figure, false, 0, 24, 0, 1, 0xffffff, 1, 0xFFFFFF, 0, "fig.ap_ticks"⟩,
  ⟨0x0417, .figure, false, 0, 1, 0, 0, 1, 1, 0x1, 0, "fig.tot_en"⟩,
  ⟨0x0418, .figure, false, 0, 32, 0, 0, 0xffffffff, 0xf4240, 0xFFFFFFFF, 0, "fig.slew"⟩,
  ⟨0x0419, .figure, false, 0, 1, 0, 0, 1, 1, 0x1, 0, "fig.rng_mode"⟩,
  ⟨0x041A, .figure, false, 0, 3, 0, 0, 5, 0, 0x7, 0, "fig.rng_fixed"⟩,
  ⟨0x041B, .figure, false, 0, 8, 4, 0, 5, 255, 0xFF, 255, "fig.rng_hi"⟩,
  ⟨0x041C, .figure, false, 0, 8, 4, 0, 5, 255, 0xFF, 255, "fig.rng_lo"⟩,
  ⟨0x041D, .figure, false, 0, 7, 0, 80, 98, 95, 0x7F, 0, "fig.rng_up_pct"⟩,
  ⟨0x041E, .figure, false, 0, 5, 0, 1, 16, 2, 0x1F, 0, "fig.rng_up_n"⟩,
  ⟨0x041F, .figure, false, 0, 16, 0, 1, 0xffff, 1000, 0xFFFF, 0, "fig.rng_down_n"⟩,
  ⟨0x0420, .figure, false, 0, 1, 0, 0, 1, 1, 0x1, 0, "fig.rng_ap_lock"⟩,
  ⟨0x0421, .figure, false, 0, 3, 0, 0, 4, 4, 0x7, 0, "fig.vspan"⟩,
  ⟨0x0422, .figure, false, 0, 16, 0, 1, 0xffff, 64, 0xFFFF, 0, "fig.lp_ready"⟩,
  ⟨0x0423, .figure, false, 0, 1, 0, 0, 1, 0, 0x1, 0, "fig.ff_en"⟩,
  ⟨0x0424, .figure, false, 0, 24, 0, 1000, 0x989680, 0x186a0, 0xFFFFFF, 0, "fig.lp_vmin"⟩,
  ⟨0x0425, .figure, false, 0, 1, 0, 0, 1, 0, 0x1, 0, "fig.fb_policy"⟩,
  ⟨0x0426, .figure, false, 0, 17, 4, 100, 0x186a0, 2000, 0x1FFFF, 0, "fig.res_lim"⟩,
  ⟨0x0427, .figure, false, 0, 13, 0, 4, 0x1000, 64, 0x1FFF, 0, "fig.res_n"⟩]

/-- Entries of IDs 0x0428 to 0x043F. -/
def dirFig2 : List DirEntry := [
  ⟨0x0428, .figure, false, 4, 28, 0, 0, 0xfff00e7, 0x140083, 0xFFF00E7, 0, "fig.mon0.ctrl"⟩,
  ⟨0x0429, .figure, false, 1, 32, 0, 0x80000000, 0x7fffffff, 0, 0xFFFFFFFF, 0, "fig.mon0.hi"⟩,
  ⟨0x042A, .figure, false, 1, 32, 0, 0x80000000, 0x7fffffff, 0, 0xFFFFFFFF, 0, "fig.mon0.lo"⟩,
  ⟨0x042C, .figure, false, 4, 28, 0, 0, 0xfff00e7, 0x140084, 0xFFF00E7, 0, "fig.mon1.ctrl"⟩,
  ⟨0x042D, .figure, false, 1, 32, 0, 0x80000000, 0x7fffffff, 0, 0xFFFFFFFF, 0, "fig.mon1.hi"⟩,
  ⟨0x042E, .figure, false, 1, 32, 0, 0x80000000, 0x7fffffff, 0, 0xFFFFFFFF, 0, "fig.mon1.lo"⟩,
  ⟨0x0430, .figure, false, 4, 28, 0, 0, 0xfff00e7, 0, 0xFFF00E7, 0, "fig.mon2.ctrl"⟩,
  ⟨0x0431, .figure, false, 1, 32, 0, 0x80000000, 0x7fffffff, 0, 0xFFFFFFFF, 0, "fig.mon2.hi"⟩,
  ⟨0x0432, .figure, false, 1, 32, 0, 0x80000000, 0x7fffffff, 0, 0xFFFFFFFF, 0, "fig.mon2.lo"⟩,
  ⟨0x0434, .figure, false, 4, 28, 0, 0, 0xfff00e7, 0, 0xFFF00E7, 0, "fig.mon3.ctrl"⟩,
  ⟨0x0435, .figure, false, 1, 32, 0, 0x80000000, 0x7fffffff, 0, 0xFFFFFFFF, 0, "fig.mon3.hi"⟩,
  ⟨0x0436, .figure, false, 1, 32, 0, 0x80000000, 0x7fffffff, 0, 0xFFFFFFFF, 0, "fig.mon3.lo"⟩,
  ⟨0x0437, .figure, false, 0, 1, 0, 0, 1, 0, 0x1, 0, "fig.res_i"⟩,
  ⟨0x0438, .figure, true, 1, 32, 0, 0x80000000, 0x7fffffff, 0, 0xFFFFFFFF, 0, "fig.level"⟩,
  ⟨0x0439, .figure, false, 0, 16, 0, 0, 0xffff, 0, 0xFFFF, 0, "fig.swp_first"⟩,
  ⟨0x043A, .figure, false, 0, 17, 0, 0, 0x10000, 0, 0x1FFFF, 0, "fig.swp_count"⟩,
  ⟨0x043B, .figure, false, 0, 16, 0, 0, 0xffff, 1, 0xFFFF, 0, "fig.swp_repeat"⟩,
  ⟨0x043C, .figure, false, 0, 2, 0, 0, 2, 0, 0x3, 0, "fig.swp_start"⟩,
  ⟨0x043D, .figure, false, 0, 2, 0, 0, 2, 0, 0x3, 0, "fig.swp_end"⟩,
  ⟨0x043E, .figure, false, 4, 32, 0, 0, 0xc000ffff, 0, 0xC000FFFF, 0, "fig.swp_sl"⟩,
  ⟨0x043F, .figure, false, 0, 24, 0, 0, 0xffffff, 0, 0xFFFFFF, 0, "fig.swp_rng_wait"⟩]

/-- Entries of IDs 0x0440 to 0x047F. -/
def dirStg : List DirEntry := [
  ⟨0x0440, .stage, false, 0, 2, 0, 0, 2, 0, 0x3, 0, "stg.role"⟩,
  ⟨0x0441, .stage, false, 4, 32, 0, 0, 0x803fffff, 0, 0x803FFFFF, 0, "stg.snap_aux"⟩,
  ⟨0x0442, .stage, false, 0, 10, 0, 1, 1000, 10, 0x3FF, 0, "stg.sc_us"⟩,
  ⟨0x0443, .stage, false, 1, 32, 2, 0xfff80000, 1092, 0xfff80000, 0xFFFFFFFF, 0, "stg.code_lo"⟩,
  ⟨0x0444, .stage, false, 1, 32, 1, 1091, 0x7ffff, 0x7ffff, 0xFFFFFFFF, 0, "stg.code_hi"⟩,
  ⟨0x0445, .stage, false, 0, 1, 0, 0, 1, 0, 0x1, 0, "stg.ext_trip"⟩,
  ⟨0x0446, .stage, false, 0, 20, 4, 100, 0xf4240, 0, 0xFFFFF, 0, "stg.model_tau"⟩,
  ⟨0x0460, .site, false, 0, 16, 0, 0, 0xffff, 0, 0xFFFF, 0, "site.pos"⟩]

/-- Entries of IDs 0x0500 to 0x05FF. -/
def dirGrp : List DirEntry := [
  ⟨0x0500, .group, false, 0, 1, 0, 0, 1, 0, 0x1, 0, "acq.trig_mode"⟩,
  ⟨0x0501, .group, false, 0, 10, 0, 0, 700, 0, 0x3FF, 0, "acq.trig_delay"⟩,
  ⟨0x0502, .group, false, 0, 3, 0, 0, 7, 0, 0x7, 0, "acq.trig_port"⟩,
  ⟨0x0503, .group, false, 0, 2, 0, 0, 2, 0, 0x3, 0, "acq.trig_edge"⟩,
  ⟨0x0504, .group, false, 0, 2, 0, 0, 3, 3, 0x3, 0, "acq.aux_start"⟩,
  ⟨0x0505, .group, false, 0, 10, 0, 5, 1000, 20, 0x3FF, 0, "acq.share_tol"⟩,
  ⟨0x0506, .group, false, 0, 9, 0, 5, 500, 50, 0x1FF, 0, "acq.path_tol"⟩,
  ⟨0x0520, .group, false, 0, 2, 0, 0, 3, 3, 0x3, 0, "grp.loop_rate"⟩]

/-- The whole directory, ascending. -/
def directory : List DirEntry :=
  dirMt ++ dirPfe ++ dirArm ++ dirCal ++ dirEvt ++ dirFig0 ++ dirFig1 ++ dirFig2 ++ dirStg ++ dirGrp

/-- The block of Table 17.7 that can hold an ID. -/
def dirBlock (id : Nat) : List DirEntry :=
  if id < 0x120 then dirMt
  else if id < 0x150 then dirPfe
  else if id < 0x170 then dirArm
  else if id < 0x180 then dirCal
  else if id < 0x200 then dirEvt
  else if id < 0x414 then dirFig0
  else if id < 0x428 then dirFig1
  else if id < 0x440 then dirFig2
  else if id < 0x480 then dirStg
  else if id < 0x600 then dirGrp
  else []

/-- The entry of an ID (R467). -/
def dirEntry (id : Nat) : Option DirEntry := (dirBlock id).find? (fun e => e.id == id)

/-- The reset value of a parameter; 0 where the ID has no entry. -/
def paramReset (id : Nat) : Word :=
  match dirEntry id with
  | some e => BitVec.ofNat 32 e.reset
  | none => 0#32

/-- Key of a parameter instance in a table of values. -/
def pkey (id index : Nat) : Nat := id * 65536 + index

/-- The value of an instance in a table of values: its reset value where none is listed. -/
def pval (t : Tab Word) (id index : Nat) : Word :=
  match tget? t (pkey id index) with
  | some v => v
  | none => paramReset id

/-- A signed parameter value. -/
def pint (t : Tab Word) (id index : Nat) : Int := (pval t id index).toInt

/-- An unsigned parameter value. -/
def pnat (t : Tab Word) (id index : Nat) : Nat := (pval t id index).toNat

/-- Set an instance; a value equal to the reset value is not listed, so that equal sets are equal
data. -/
def pset (t : Tab Word) (id index : Nat) (v : Word) : Tab Word :=
  if v = paramReset id then tdel t (pkey id index) else tput t (pkey id index) v

/-- A bound of an entry: a value, or the present value of the parameter it names (R457). -/
def boundOf (e : DirEntry) (flag raw : Nat) (cur : Nat → Word) : Int :=
  let w := if e.flags.testBit flag then cur raw else BitVec.ofNat 32 raw
  if e.format = 1 then w.toInt else (w.toNat : Int)

/-- Fields inside a bit-field parameter that have a range of their own: Table 13.2 (SRC, HYST),
stg.snap_aux (SETTLE while EN = 1) and fig.pt_aux (AVG 0-6, Table 9.6). -/
def fieldsOk (id : Nat) (v : Word) : Bool :=
  if id = 0x428 || id = 0x42C || id = 0x430 || id = 0x434 then
    bits v 2 0 ≤ 4 && bits v 23 16 ≤ 200
  else if id = 0x441 then !v.getLsbD 31 || 1 ≤ bits v 15 0
  else if id = 0x414 then bits v 26 24 ≤ 6
  else true

/-- A value lies in its parameter's range (R457, R468). A range that names another parameter is
taken against cur, that parameter's value as the same request leaves it; the ranges of
stg.code_lo, stg.code_hi and mt.peN.rem exclude the value named. -/
def valueOk (e : DirEntry) (v : Word) (cur : Nat → Word) : Bool :=
  let x : Int := if e.format = 1 then v.toInt else (v.toNat : Int)
  let lo := boundOf e 0 e.min cur + (if e.id = 0x444 then 1 else 0)
  let hi := boundOf e 1 e.max cur -
    (if e.id = 0x443 || (e.flags.testBit 1 && e.format = 0) then 1 else 0)
  (v &&& ~~~ BitVec.ofNat 32 e.mask) = 0#32 &&
    ((e.flags.testBit 2 && v.toNat = e.special) ||
     (decide (lo ≤ x) && decide (x ≤ hi) && fieldsOk e.id v))

/-- The ASCII name of an entry, padded with NUL to 32 bytes. -/
def nameBytes (n : String) : List Byte := padTo 32 (n.toList.map (fun c => BitVec.ofNat 8 c.toNat))

/-- The 64 bytes of an entry (Table 17.6). -/
def DirEntry.bytes (e : DirEntry) : List Byte :=
  leBytes 2 e.id ++
  [BitVec.ofNat 8 (match e.cls with
    | .global => 0 | .group => 1 | .stage => 2 | .figure => 3 | .site => 4),
   BitVec.ofNat 8 (b2n e.live), BitVec.ofNat 8 e.format, BitVec.ofNat 8 e.width,
   BitVec.ofNat 8 e.flags, 0#8] ++
  leBytes 4 e.min ++ leBytes 4 e.max ++ leBytes 4 e.reset ++ leBytes 4 e.mask ++
  leBytes 4 e.special ++ leBytes 4 0 ++ nameBytes e.name

end Sys2Proof.Machine
end

