-- ==== Sys2Proof/Machine/Flags.lean ====
section
/-! DEFINITION. Status words: what the module reports of itself, computed from its state. -/

namespace Sys2Proof.Machine

/-- Groups present (Table 0.1, R1). -/
def State.groups (s : State) : Nat :=
  match s.ident.part with
  | .adx7128 => 16
  | .adx7164 => 8
  | .adx7132 => 4

/-- A group is present. -/
def State.hasGrp (s : State) (g : Nat) : Bool := g < s.groups

/-- A stage port is present (R1). -/
def State.hasPort (s : State) (p : Nat) : Bool := p < 8 * s.groups

/-- The group state of a group. -/
def State.grpAt (s : State) (g : Nat) : Grp := tget Grp.init s.grp g

/-- The state of a stage port. -/
def State.spAt (s : State) (p : Nat) : Sp := tget Sp.init s.sp p

/-- The runtime state of a figure. -/
def State.figAt (s : State) (f : Nat) : Fig := tget Fig.init s.fig f

/-- The queue of a QID. -/
def State.queAt (s : State) (q : Nat) : Queue := tget Queue.init s.que.q q

/-- A mailbox. -/
def State.mbxAt (s : State) (n : Nat) : Mbx := tget Mbx.init s.host.mbx n

/-- A host drain ring. -/
def State.hdrAt (s : State) (n : Nat) : Hdr := tget Hdr.init s.host.hdr n

/-- The calibration state of a group. -/
def State.calAt (s : State) (g : Nat) : CalGrp := tget CalGrp.init s.cal.grp g

/-- A figure's placement in the Cast. -/
def State.placeAt (s : State) (f : Nat) : Placement := tget Placement.init s.sets.cast.place f

/-- A parameter of the Cast. -/
def State.cast (s : State) (id index : Nat) : Word := pval s.sets.cast.params id index

/-- An unsigned parameter of the Cast. -/
def State.castN (s : State) (id index : Nat) : Nat := pnat s.sets.cast.params id index

/-- A signed parameter of the Cast. -/
def State.castI (s : State) (id index : Nat) : Int := pint s.sets.cast.params id index

/-- A live parameter in use (R453). -/
def State.live (s : State) (id index : Nat) : Word := pval s.sets.live id index

/-- A slice has factors in force (R425). -/
def CalGrp.has (c : CalGrp) (slice : Nat) : Bool := c.inForce.any (fun e => e.1 / 8 == slice)

/-- Every slice of the group has factors in force (R148). -/
def CalGrp.hasAll (c : CalGrp) : Bool := (List.range 18).all c.has

/-- CAL_PASSn bits 17:0 (R434). -/
def CalGrp.passBits (c : CalGrp) : BitVec 18 :=
  BitVec.ofNat 18 (nsum ((List.range 18).map (fun i => b2n (c.has i && c.passOk.getLsbD i) * 2 ^ i)))

/-- GLB_READY.GRP of a group (R148). -/
def State.grpReady (s : State) (g : Nat) : Bool :=
  s.hasGrp g && s.rst.pll && s.rst.ctrlUp && (s.calAt g).hasAll && (s.grpAt g).descDone &&
    !(s.grpAt g).ctxReset

/-- The strap selects SPI only (R138): strap bit 1. -/
def State.spiOnly (s : State) : Bool := s.rst.strap.getLsbD 1

/-- The strap declares no Mire (R138): strap bit 0. -/
def State.noMire (s : State) : Bool := s.rst.strap.getLsbD 0

/-- The strap selects a pair: strap bits 3:2 other than 0 (R138). -/
def State.pairStrap (s : State) : Bool := s.rst.strap.getLsbD 2 || s.rst.strap.getLsbD 3

/-- The role has settled as active, standby or solo (Table 6.10). -/
def State.roleSettled (s : State) : Bool :=
  s.twin.role == .solo || s.twin.role == .active || s.twin.role == .standby

/-- Present groups as a mask. -/
def State.allGroups (s : State) : BitVec 16 := BitVec.ofNat 16 (2 ^ s.groups - 1)

/-- This module is the active one of a pair whose link is up. -/
def State.leads (s : State) : Bool := s.twin.role == .active && s.twin.link == .up

/-- This module's ports stand aside: it is a standby, or it has decided a takeover whose boundary is
still to come (R599, R608, R609). -/
def State.aside (s : State) : Bool :=
  s.twin.role == .standby || s.twin.b1Due != 0#16 || s.twin.b2Due != 0#16 ||
    s.twin.handover.any (fun h => !h.departing)

/-- GLB_READY (Table 6.10). -/
def State.ready (s : State) : Word :=
  bitAt s.rst.ctrlUp 1 |||
  bitAt (s.host.speed != 0 && !s.spiOnly) 2 |||
  bitAt s.rst.spiUp 3 ||| bitAt s.rst.mgmtUp 4 ||| bitAt s.rst.dataUp 5 |||
  bitAt s.rst.staging 6 ||| bitAt (s.rst.mireUp || (s.rst.ctrlUp && s.noMire)) 7 |||
  bitAt (s.mt.state == .locked || s.mt.state == .virtual) 8 |||
  bitAt (s.pfe.bulkOk || s.castN 0x120 0 == 1) 9 |||
  bitAt (s.rst.ctrlUp && (List.range s.groups).all (fun g =>
    (s.calAt g).hasAll && (s.calAt g).passOk == BitVec.allOnes 18)) 10 |||
  bitAt (s.rst.ctrlUp && s.roleSettled) 11 |||
  at32 (nsum ((List.range 16).map (fun g => b2n (s.grpReady g) * 2 ^ g))) 16

/-- SUP_TRIPPEDn: the tripped stage ports, bit p for port p (Table 13.9). -/
def State.tripped (s : State) : BitVec 128 :=
  BitVec.ofNat 128 (nsum (s.sp.map (fun e => b2n e.2.sup.tripped * 2 ^ e.1)))

end Sys2Proof.Machine
end

