-- ==== Sys2Proof/Machine/Ops.lean ====
section
/-! DEFINITION. The named operations every meaning is written over: events and their delivery
(chapter 16), the error log (chapter 24), interrupt vectors (R538), the service window (R544),
responses (R553, R536), and how a step ends. -/

namespace Sys2Proof.Machine

/-! ## Objects -/

/-- Change the state of a group. -/
def State.modGrp (s : State) (g : Nat) (f : Grp → Grp) : State :=
  { s with grp := tput s.grp g (f (s.grpAt g)) }

/-- Change the state of a stage port. -/
def State.modSp (s : State) (p : Nat) (f : Sp → Sp) : State :=
  { s with sp := tput s.sp p (f (s.spAt p)) }

/-- Change the runtime state of a figure. -/
def State.modFig (s : State) (n : Nat) (f : Fig → Fig) : State :=
  { s with fig := tput s.fig n (f (s.figAt n)) }

/-- Change a queue. -/
def State.modQue (s : State) (q : Nat) (f : Queue → Queue) : State :=
  { s with que := { s.que with q := tput s.que.q q (f (s.queAt q)) } }

/-- Change a mailbox. -/
def State.modMbx (s : State) (n : Nat) (f : Mbx → Mbx) : State :=
  { s with host := { s.host with mbx := tput s.host.mbx n (f (s.mbxAt n)) } }

/-- Change a host drain ring. -/
def State.modHdr (s : State) (n : Nat) (f : Hdr → Hdr) : State :=
  { s with host := { s.host with hdr := tput s.host.hdr n (f (s.hdrAt n)) } }

/-- Change the calibration state of a group. -/
def State.modCal (s : State) (g : Nat) (f : CalGrp → CalGrp) : State :=
  { s with cal := { s.cal with grp := tput s.cal.grp g (f (s.calAt g)) } }

/-- Change the twin block. -/
def State.modTwin (s : State) (f : Twin → Twin) : State := { s with twin := f s.twin }

/-- Change the placement of a figure in the Cast. -/
def State.modPlace (s : State) (n : Nat) (f : Placement → Placement) : State :=
  { s with sets := { s.sets with cast :=
    { s.sets.cast with place := tput s.sets.cast.place n (f (s.placeAt n)) } } }

/-! ## Events (R436, R437) -/

/-- A producer whose block is in reset raises nothing (R448): the ports and the aux sequencer of a
group in context reset, and the management-plane producers arm.* and cal.* through L2 and L3. -/
def State.silent (s : State) (code : Nat) : Bool :=
  if code < 0x800 then (s.grpAt (code / 128)).ctxReset
  else if code < 0x900 then (s.grpAt ((code - 0x800) / 16)).ctxReset
  else if (0x928 ≤ code && code ≤ 0x92B) || code == 0x930 || code == 0x931 then !s.rst.mgmtUp
  else false

/-- Raise an event: the producer register holds it until its sluices have carried it. -/
def State.raise (s : State) (code : Nat) : State :=
  if s.silent code || s.fab.raised.contains code then s
  else { s with fab := { s.fab with raised := s.fab.raised ++ [code] } }

/-- Raise a port's event k (Table 16.1). -/
def State.raisePort (s : State) (p k : Nat) : State := s.raise (16 * p + k)

/-- Raise a group's event k (Table 16.1). -/
def State.raiseGrp (s : State) (g k : Nat) : State := s.raise (0x800 + 16 * g + k)

/-- Raise a figure event of a kind (Table 16.2). -/
def State.raiseFig (s : State) (f kind : Nat) : State := s.raise (4096 * kind + f)

/-! ## The error log (R620 to R627) -/

/-- Codes whose repeats coalesce (Table 24.4). -/
def coalesces (code : Nat) : Bool :=
  code == 0x4102 || code == 0x4202 || code == 0x4306 || code == 0x3F02

/-- What a block reports: code, source, flags, ARG, REPEAT and D0 to D2 of Table 24.1. -/
structure ErrSpec where
  code : Nat
  source : Nat
  flags : Nat := 0
  arg : Nat := 0
  rep : Nat := 1
  d0 : Word := 0#32
  d1 : Word := 0#32
  d2 : Word := 0#32

/-- The record an occurrence at an MT forms, its SEQ still open. -/
def ErrSpec.record (e : ErrSpec) (mt : DWord) : ErrRec :=
  { seq := 0#32, code := BitVec.ofNat 16 e.code, source := BitVec.ofNat 16 e.source, mt := mt
    flags := BitVec.ofNat 8 (e.flags ||| b2n (coalesces e.code)), arg := BitVec.ofNat 8 e.arg
    rep := BitVec.ofNat 16 e.rep, d0 := e.d0, d1 := e.d1, d2 := e.d2 }

/-- Core clocks of 5 ns in 1 ms (R623). -/
def clocksPerMs : Nat := 200000

/-- The occurrence is counted into a held record (R623). -/
def ErrEntry.takes (e : ErrEntry) (r : ErrRec) (clk : Nat) : Bool :=
  e.body.code == r.code && e.body.source == r.source && !e.closed &&
    e.body.rep != BitVec.allOnes 16 && clk - e.lastClk ≤ clocksPerMs

/-- One more occurrence in a held record: REPEAT and D2 move on (R623). -/
def ErrEntry.repeat (e : ErrEntry) (clk : Nat) : ErrEntry :=
  let rep := bump e.body.rep
  { e with
    lastClk := clk
    body := { e.body with
      rep := rep
      d2 := bumpBy (0#32) ((clk - e.firstClk) / 200)
      flags := e.body.flags ||| (if rep = BitVec.allOnes 16 then 2#8 else 0#8) } }

/-- Count an occurrence into the newest held record of its code and source, when R623 allows. -/
def tryRepeat (clk : Nat) (r : ErrRec) : List ErrEntry → Option (List ErrEntry)
  | [] => none
  | e :: t =>
    match tryRepeat clk r t with
    | some t' => some (e :: t')
    | none =>
      if t.any (fun x => x.body.code == r.code && x.body.source == r.source) then none
      else if e.takes r clk then some (e.repeat clk :: t) else none

/-- Keep the first-error register's copy of a record while it is armed (R626). -/
def Err.freeze (e : Err) (r : ErrRec) : Err :=
  match e.first with
  | none => { e with first := some r }
  | some _ => e

/-- Records the ring can hold (R622). -/
def ringSize : Nat := 4096

/-- Form a record: it is counted into a held one, written as the next SEQ, or lost when the ring is
full (R622 to R624, R626). -/
def Err.form (e : Err) (clk : Nat) (r : ErrRec) : Err :=
  match if r.flags.getLsbD 0 then tryRepeat clk r e.ring else none with
  | some ring => { e with ring := ring }
  | none =>
    if e.ring.length < ringSize then
      let r := { r with seq := e.newest + 1#32 }
      { e.freeze r with
        ring := e.ring ++ [⟨r, clk, clk, false⟩]
        newest := r.seq }
    else
      { e.freeze { r with seq := BitVec.allOnes 32, flags := r.flags ||| 8#8 } with
        lost := bump e.lost
        storm := true
        stormLosses := e.stormLosses + 1
        stormFirst := if e.stormLosses = 0 then r.mt else e.stormFirst
        stormLast := r.mt }

/-- The peat store's copy of the log's position and first error (R628). -/
def Peat.copyErr (p : Peat) (e : Err) : Peat :=
  { p with errNewest := e.newest, errAck := e.ack, errFirst := e.first }

/-- Form a record in the global error ring and raise err.record and err.first for it (R622, R626,
R631). -/
def State.formErr (s : State) (r : ErrRec) : State :=
  let e := s.err.form s.clk r
  let s1 := { s with err := e, peat := s.peat.copyErr e }
  let s2 := if e.newest = s.err.newest then s1 else s1.raise 0xAA0
  if s.err.first = none && e.first ≠ none then s2.raise 0xAA2 else s2

/-- Log an occurrence. While the data plane is under reset it waits and its record is formed after
the restart (R628). -/
def State.log (s : State) (e : ErrSpec) : State :=
  let r := e.record s.mt.mt
  if s.rst.dataUp then s.formErr r
  else { s with err := { s.err with deferred := s.err.deferred ++ [r] } }

/-- Form the records that waited for the data plane (R628). -/
def State.logDeferred (s : State) : State :=
  s.err.deferred.foldl (fun s r => s.formErr r)
    { s with err := { s.err with deferred := [] } }

/-! ## Interrupt vectors (R538, R544) -/

/-- The word of the MSI-X table at a word index: 4 per vector, the vector control word masked by
default (log entry 3). -/
def HostIf.msixWord (h : HostIf) (i : Nat) : Word :=
  tget (if i % 4 = 3 then 1#32 else 0#32) h.msix i

/-- A message for the vector can be sent: MSI-X enabled, bus master, vector and function unmasked,
link up. -/
def HostIf.canSend (h : HostIf) (v : Nat) : Bool :=
  h.msixEn && h.busMaster && !h.funcMask && h.speed != 0 && !(h.msixWord (4 * v + 3)).getLsbD 0

/-- A happening of a vector on the PCIe side. -/
def HostIf.vecPcie (h : HostIf) (v : Nat) : HostIf :=
  if h.canSend v then { h with sent := h.sent ++ [v] } else { h with pba := insAsc h.pba v }

/-- A happening of a vector on the service port (R544). -/
def HostIf.vecSpi (h : HostIf) (v : Nat) : HostIf := { h with irqPend := insAsc h.irqPend v }

/-- A happening of a vector that belongs to an object of one port (R544). -/
def HostIf.vecOf (h : HostIf) (p : Port) (v : Nat) : HostIf :=
  match p with
  | .pcie => h.vecPcie v
  | .service => h.vecSpi v

/-- A happening of a global vector (R544). -/
def HostIf.vecAll (h : HostIf) (v : Nat) : HostIf := (h.vecPcie v).vecSpi v

/-- Send the messages that were held back, once they can be sent. -/
def HostIf.flushPba (h : HostIf) : HostIf :=
  { h with
    sent := h.sent ++ h.pba.filter h.canSend
    pba := h.pba.filter (fun v => !h.canSend v) }

/-- SPI_IRQn is low (R544): a pending vector whose MSI-X entry is unmasked. -/
def HostIf.spiIrqLow (h : HostIf) : Bool :=
  h.irqPend.any (fun v => !(h.msixWord (4 * v + 3)).getLsbD 0)

/-! ## Delivery of events (R436, R437, R442) -/

/-- Producers of a sluice's mask that raised an event. -/
def Fab.hits (f : Fab) (sluice : Nat) : Nat :=
  ((tget [] f.masks sluice).filter (fun c => f.raised.contains c)).length

/-- What a consumer input does with an event beyond handing it to its block: the counters, the event
lands (R446, R447). -/
def Fab.consume (f : Fab) (toggle : Nat → Bool) (c : Nat) : Fab :=
  if 0x1A0 ≤ c ∧ c ≤ 0x1BF then
    { f with cnt := tput f.cnt (c - 0x1A0) (bump (tget 0#32 f.cnt (c - 0x1A0))) }
  else if 0x190 ≤ c ∧ c ≤ 0x197 then
    let n := c - 0x190
    let o := tget EvtOut.init f.evtOut n
    let o1 : EvtOut :=
      if toggle n then { level := !o.level, pulse := false } else { level := true, pulse := true }
    { f with evtOut := tput f.evtOut n o1 }
  else { f with arrived := f.arrived ++ [c] }

/-- A consumer input receives what its sluice carried; a coincident event sets its flag and counts
(R442). -/
def Fab.receive (f : Fab) (toggle : Nat → Bool) (c hits : Nat) : Fab :=
  if hits = 0 then f
  else
    let f1 := f.consume toggle c
    if hits = 1 then f1
    else { f1 with
      coincFlag := insAsc f1.coincFlag c
      coinc := tput f1.coinc c (bump (tget 0#16 f1.coinc c))
      flags := f1.flags ||| 2#32 }

/-- Mark a sluice that carried an event (FAB_SEENn). -/
def Fab.see (f : Fab) (hits sluice : Nat) : Fab :=
  if hits = 0 then f
  else
    let w := tget 0#32 f.seen (sluice / 32) ||| BitVec.twoPow 32 (sluice % 32)
    { f with seen := tput f.seen (sluice / 32) w }

/-- A consumer of a group in context reset discards what it receives (R448). -/
def State.deaf (s : State) (c : Nat) : Bool :=
  if c < 0x180 then (s.grpAt (c % 128 / 8)).ctxReset
  else if c < 0x190 then (s.grpAt (c - 0x180)).ctxReset
  else false

/-- Carry every raised event through its sluices to the consumers that listen, all in one fabric
tick (log entry 11). With the control plane in reset nothing is carried. -/
def State.carry (s : State) : State :=
  if s.rst.ctrlUp then
    let f := s.fab
    let heard := f.sel.filter (fun e => e.2 < 256 && !s.deaf e.1 && 0 < f.hits e.2)
    let f1 := heard.foldl
      (fun g e => g.receive (fun n => s.live (0x188 + n) 0 == 1#32) e.1 (f.hits e.2)) f
    let f2 := f.masks.foldl (fun g e => g.see (f.hits e.1) e.1) f1
    { s with
      fab := { f2 with raised := [] }
      host := (heard.filter (fun e => 0x300 ≤ e.1 && e.1 ≤ 0x307)).foldl
        (fun h e => h.vecAll (280 + (e.1 - 0x300))) s.host }
  else { s with fab := { s.fab with raised := [] } }

/-! ## Counter saturation (R10, R629) -/

/-- A counter that stands at all-ones: SOURCE, ARG, D0 and D1 of its CTR_SAT record. -/
abbrev SatKey := Nat × Nat × Nat × Nat

/-- The key of a register counter, when it is saturated. -/
def satReg {w : Nat} (offset low sel : Nat) (c : BitVec w) : List SatKey :=
  if c = BitVec.allOnes w then [(0x8000 + offset / 4, 0, low, sel)] else []

/-- Every event counter at all-ones (Table 24.6), REPEAT apart. -/
def State.saturated (s : State) : List SatKey :=
  satReg 0xD14 0 0 s.err.isoFrame ++ satReg 0xD10 0 0 s.err.lost ++
  satReg 0x224 0 0 s.mt.rejCnt ++ satReg 0x228 0 0 s.mt.unlockCnt ++ satReg 0x22C 0 0 s.mt.holdCyc ++
  satReg 0x258 0 0 s.pfe.dropCnt ++ satReg 0x25C 0 0 s.pfe.ocpCnt ++
  satReg 0x110 0 0 s.peat.rstCount ++ satReg 0x118 0 0 s.peat.wdogCnt ++
  s.grp.flatMap (fun e =>
    satReg (0x480 + 4 * e.1) 16 0 e.2.acq.auxOvr ++ satReg (0x480 + 4 * e.1) 0 0 e.2.acq.tmiss ++
    satReg (0x6C0 + 4 * e.1) 16 0 e.2.ovf) ++
  satReg 0x538 0 0 s.misc.tapDisc ++
  s.sp.flatMap (fun e =>
    satReg 0x590 16 e.1 e.2.force.rngDownCnt ++ satReg 0x590 0 e.1 e.2.force.rngUpCnt ++
    satReg 0x594 0 e.1 e.2.force.scCnt ++ satReg 0x620 0 e.1 e.2.loop.ovrCnt ++
    satReg 0x624 0 e.1 e.2.loop.govCnt ++ satReg 0x69C 0 e.1 e.2.sup.tripCnt) ++
  s.fig.flatMap (fun e =>
    satReg 0x710 0 e.1 e.2.doneCnt ++ satReg 0x714 0 e.1 e.2.failCnt ++
    satReg 0x718 0 e.1 e.2.nrunCnt) ++
  s.sets.cast.place.flatMap (fun e =>
    if e.2.migCnt = BitVec.allOnes 16 then [(0x3000 + e.1, 1, 0, 0)] else []) ++
  satReg 0x788 0 0 s.cal.failCnt ++
  s.fab.coinc.flatMap (fun e => satReg 0x80C 0 e.1 e.2) ++
  s.fab.cnt.flatMap (fun e => satReg (0x880 + 4 * e.1) 0 0 e.2) ++
  satReg 0x91C 0 0 s.sets.rejCnt ++
  satReg 0x998 0 0 s.que.poisonCnt ++ satReg 0x99C 0 0 s.que.dropCnt ++
  s.que.corrCnt.flatMap (fun e => satReg (0x9A0 + 4 * e.1) 0 0 e.2) ++
  satReg 0x9BC 0 0 s.que.ovfCnt ++
  satReg 0xA24 0 0 s.sto.progFail ++ satReg 0xA28 0 0 s.sto.eraseFail ++
  satReg 0xA2C 0 0 s.sto.timeoutCnt ++ satReg 0xA30 0 0 s.sto.rdCorr ++
  satReg 0xA34 0 0 s.sto.lostCnt ++ satReg 0xA38 0 0 s.sto.preempt ++
  satReg 0xA3C 0 0 s.sto.drainRst ++ satReg 0xA40 0 0 s.sto.badBlk ++
  satReg 0x018 0 0 s.host.mbxRst ++ satReg 0x01C 0 0 s.host.cplErr ++
  satReg 0xC20 0 0 s.twin.hbMiss ++ satReg 0xC24 0 0 s.twin.frameErr ++
  satReg 0xC28 0 0 s.twin.trainFail ++ satReg 0xC2C 0 0 s.twin.takeover ++
  satReg 0xC30 0 0 s.twin.retx

/-- Write the CTR_SAT record of a counter, raise err.ctr_sat and set ERR_SAT_SRC (R629). -/
def State.logSat (s : State) (k : SatKey) : State :=
  ({ s with err := { s.err with satSrc := BitVec.ofNat 16 k.1 } }.log
    { code := 0x3F02, source := k.1, arg := k.2.1
      d0 := BitVec.ofNat 32 k.2.2.1, d1 := BitVec.ofNat 32 k.2.2.2 }).raise 0xAA3

/-- Counters that reached all-ones between two states: each once, until it is cleared (R10). -/
def State.logSats (s0 s1 : State) : State :=
  (s1.saturated.filter (fun k => !s0.saturated.contains k)).foldl State.logSat s1

/-! ## Reliable frames (R592) -/

/-- Send a reliable frame of a type; it takes the next FSEQ. -/
def State.sendReliable (s : State) (ftype : Nat) : State :=
  { s with twin := { s.twin with
      fseq := s.twin.fseq + 1#32
      unacked := s.twin.unacked ++ [{ fseq := s.twin.fseq, ftype := ftype, resends := 0 }]
      lastSent := (ftype, s.twin.fseq) } }

/-- Tell the standby, when there is one (Table 23.1). -/
def State.tell (s : State) (ftype : Nat) : State := if s.leads then s.sendReliable ftype else s

/-- What a RUNNER frame shows of a figure's runner: RUN, and the point in flight with its state. -/
def Fig.shown (x : Fig) : RunState × Option (Nat × PtState) := (x.run, x.flight.map (fun q => (q.index, q.state)))

/-- Figures whose runner or point state a step changed (R592). -/
def State.runnersChanged (s0 s1 : State) : Nat :=
  (s1.fig.filter (fun e => (s1.figAt e.1).shown != (s0.figAt e.1).shown)).length

/-- RUNNER frames of a step: one for each change. -/
def State.sendRunners (s0 s1 : State) : State :=
  if s1.leads then (List.range (State.runnersChanged s0 s1)).foldl (fun t _ => t.sendReliable 3) s1 else s1

/-! ## How a step ends -/

/-- Bits that went from 0 to 1. -/
def rose {w : Nat} (a b : BitVec w) : Bool := b &&& ~~~a ≠ 0#w

/-- A mailbox that was in another state has entered RESET. -/
def enteredReset (a b : State) : Bool :=
  b.host.mbx.any (fun e => e.2.state == .reset && (a.mbxAt e.1).state != .reset)

/-- The happenings of the global vectors 256 to 263 between two states (Table 20.11), one of each
kind a step (log entry 11). -/
def State.vectors (s0 s1 : State) : List Nat :=
  if !s1.rst.ctrlUp then [] else
  (if s1.err.newest = s0.err.newest then [] else [256]) ++
  (if s1.ready = s0.ready then [] else [257]) ++
  (if rose s0.tripped s1.tripped then [258] else []) ++
  (if enteredReset s0 s1 then [259] else []) ++
  (if s1.pfe.hu = s0.pfe.hu && !rose s0.pfe.faults s1.pfe.faults then [] else [260]) ++
  (if rose s0.sto.flags s1.sto.flags then [261] else []) ++
  (if s1.twin.role = s0.twin.role && s1.twin.link = s0.twin.link then [] else [262]) ++
  (if rose s0.host.flags s1.host.flags || rose s0.host.hdrFault s1.host.hdrFault ||
      rose s0.fab.flags s1.fab.flags then [263] else [])

/-- rst.ready_chg at a change of GLB_READY (R148). -/
def State.raiseReady (s0 s1 : State) : State :=
  if s1.ready = s0.ready then s1 else s1.raise 0x938

/-- Saturations, events and vectors of a step that took s0 to s1. What the first delivery itself
saturates is logged and delivered in turn. -/
def State.settled (s0 s1 : State) : State :=
  let a := (State.logSats s0 (State.raiseReady s0 s1)).carry
  let b := (State.logSats s1 a).carry
  { b with host := (State.vectors s0 b).foldl HostIf.vecAll b.host }

/-- Each change of the store's contents takes the next write sequence number (Table 6.7). -/
def Peat.stamped (old new : Peat) : Peat :=
  if new = old then new else { new with writeSeq := old.writeSeq + 1#32 }

/-- End a step that took s0 to s1: of its state, only the event fabric, the error log with its copy
in the peat store, the host interface and the frames for a partner can still change. No command
touches the queue of waiting commands, nor what identifies the module (R531). -/
def State.done (s0 s1 : State) : State :=
  let t := State.settled s0 s1
  { s1 with
    fab := t.fab, err := t.err, peat := s0.peat.stamped t.peat, host := t.host
    twin := (State.sendRunners s0 s1).twin, ident := s0.ident, pending := s0.pending }

/-- The outcome of a command that took s0 to s1. -/
def finish (s0 s1 : State) : Host.Outcome State Fault Refusal := .next (State.done s0 s1)

/-! ## Free values (log entry 7) -/

/-- Step the index of the free values. -/
def State.fresh (s : State) : State := { s with free := s.free + 1 }

/-- The free number at the present index. -/
def State.freeInt (s : State) : Int := Config.freeInt s.free

/-! ## The service window (R544): 1 MiB, a byte not listed reads 0 (log entry 2) -/

/-- Bytes of the service window. -/
def windowSize : Nat := 1048576

/-- Put a byte into a canonical list of cells: addresses rise, no byte is 0. -/
def cellPut : List Host.Cell → Nat → Byte → List Host.Cell
  | [], a, b => if b = 0#8 then [] else [(a, b)]
  | (k, v) :: t, a, b =>
    if k = a then (if b = 0#8 then t else (a, b) :: t)
    else if a < k then (if b = 0#8 then (k, v) :: t else (a, b) :: (k, v) :: t)
    else (k, v) :: cellPut t a b

/-- The byte at an address. -/
def cellGet : List Host.Cell → Nat → Byte
  | [], _ => 0#8
  | (k, v) :: t, a => if k = a then v else cellGet t a

/-- The service window's canonical form. -/
def cellsWf (m : List Host.Cell) : Bool :=
  m.all (fun c => c.1 < windowSize && c.2 != 0#8) && decide (m.Pairwise (fun a b => a.1 < b.1))

/-- Write bytes at an address; what lies beyond the window is dropped. -/
def HostIf.winWrite (h : HostIf) : Nat → List Byte → HostIf
  | _, [] => h
  | a, b :: t =>
    HostIf.winWrite (if a < windowSize then { h with window := cellPut h.window a b } else h) (a + 1) t

/-- Read n bytes at an address. -/
def HostIf.winRead (h : HostIf) (a n : Nat) : List Byte :=
  (List.range n).map (fun i => cellGet h.window (a + i))

/-! ## Responses (R536, R553, R554) -/

/-- The 64 bytes of a response descriptor (Table 21.4). -/
def Response.bytes (r : Response) : List Byte :=
  leBytes 2 r.opcode ++ leBytes 2 r.tag.toNat ++ leBytes 2 r.status ++
  leBytes 1 (b2n r.trunc + 2 * b2n r.cancelled) ++ leBytes 1 0 ++ leBytes 4 r.outWritten ++
  leBytes 4 r.detail.toNat ++ leBytes 8 r.mtAccept.toNat ++ leBytes 8 r.mtDone.toNat ++
  leBytes 4 r.castSeq.toNat ++ padTo 28 r.result

/-- A ring entry's address: base + 64 (i mod 2^log2). -/
def ringAddr (base : BitVec 64) (log2 : Nat) (i : BitVec 16) : Nat :=
  base.toNat + 64 * (i.toNat % 2 ^ log2)

/-- What a mailbox's response leaves in the service window, when it lies there (R544). -/
def HostIf.writeBack (h : HostIf) (m : Mbx) (outAddr : BitVec 64) (r : Response) : HostIf :=
  match m.port with
  | .pcie => h
  | .service =>
    let h1 := h.winWrite outAddr.toNat r.out
    let h2 := h1.winWrite (ringAddr m.rspBase m.rspLog2 m.rspTail) r.bytes
    if m.shadow = 0#64 then h2
    else h2.winWrite m.shadow.toNat
      (leBytes 2 m.reqHead.toNat ++ leBytes 2 (m.rspTail + 1#16).toNat ++ leBytes 4 0)

/-- Write a response: the buffer, the descriptor at RSP_TAIL, the shadow, and the mailbox's vector
when MOD_N unsignalled responses have been written or its hold-off is 0 (R536, R551). -/
def HostIf.writeResponse (h : HostIf) (n : Nat) (outAddr : BitVec 64) (r : Response) : HostIf :=
  let m := tget Mbx.init h.mbx n
  let tail := m.rspTail + 1#16
  let signal := m.irq && (m.modN ≤ m.unsignalled + 1 || m.modUs == 0)
  let m1 := { m with
    rspTail := tail
    shadowWord := if m.shadow = 0#64 then m.shadowWord else tail ++ m.reqHead
    responses := m.responses ++ [r]
    unsignalled := if signal then 0 else m.unsignalled + 1 }
  let h1 := h.writeBack m outAddr r
  let h2 := { h1 with mbx := tput h1.mbx n m1 }
  if signal then h2.vecOf m.port n else h2

/-- Who waits for a response, and since when. -/
structure Waiter where
  mbx : Nat
  opcode : Nat
  tag : BitVec 16
  outLen : Nat
  outAddr : BitVec 64
  mtAccept : BitVec 64
  deriving DecidableEq, Repr

/-- What a command answers. -/
structure Answer where
  status : Nat
  detail : Nat := 0
  result : List Byte := []
  out : List Byte := []
  cancelled : Bool := false
  deriving DecidableEq, Repr

/-- The response descriptor a command's answer gives (R553, R554). -/
def responseFor (w : Waiter) (a : Answer) (mtDone : DWord) (castSeq : Word) : Response :=
  let trunc := decide (w.outLen < a.out.length)
  { opcode := w.opcode, tag := w.tag, status := a.status, trunc := trunc, cancelled := a.cancelled
    outWritten := min w.outLen a.out.length
    detail := BitVec.ofNat 32 (if trunc then a.out.length else a.detail)
    mtAccept := w.mtAccept, mtDone := mtDone, castSeq := castSeq, result := a.result
    out := a.out.take w.outLen }

/-- Complete a command with its response (R553, R554); a session that is not OPEN gets none
(R563). -/
def State.answer (s : State) (w : Waiter) (a : Answer) : State :=
  if (s.mbxAt w.mbx).state = .opened then
    { s with host := s.host.writeResponse w.mbx w.outAddr (responseFor w a s.mt.mt s.sets.castSeq) }
  else s

/-- Status codes (Table 21.7). -/
abbrev stOk : Nat := 0x0000
abbrev stBadOpcode : Nat := 0x0001
abbrev stBadDesc : Nat := 0x0002
abbrev stRange : Nat := 0x0003
abbrev stAbsent : Nat := 0x0004
abbrev stBusy : Nat := 0x0005
abbrev stNotReady : Nat := 0x0006
abbrev stDenied : Nat := 0x0007
abbrev stStale : Nat := 0x0008
abbrev stUnplaceable : Nat := 0x0009
abbrev stCalFail : Nat := 0x000A
abbrev stAborted : Nat := 0x000B
abbrev stNotFound : Nat := 0x000C
abbrev stHostErr : Nat := 0x000D
abbrev stInternal : Nat := 0x000E

/-- The waiter of a request accepted now. -/
def waiterOf (r : Req) (opcode : Nat) (s : State) : Waiter :=
  ⟨r.mbx, opcode, r.tag, r.outLen, r.outAddr, s.mt.mt⟩

/-- Answer a request that completes as it is accepted. -/
def State.reply (s : State) (r : Req) (opcode : Nat) (a : Answer) : State :=
  s.answer (waiterOf r opcode s) a

/-- Answer with a status and DETAIL alone. -/
def State.refuse (s : State) (r : Req) (opcode status : Nat) (detail : Nat := 0) : State :=
  s.reply r opcode { status := status, detail := detail }

/-- Answer ST_OK with an inline result and a buffer. -/
def State.ok (s : State) (r : Req) (opcode : Nat) (result out : List Byte) : State :=
  s.reply r opcode { status := stOk, result := result, out := out }

/-! ## Acceptance (R555, R556, R559) -/

/-- Commands of a mailbox accepted and not completed. -/
def State.outstOf (s : State) (mbx : Nat) : List Outstanding :=
  s.host.outst.filter (fun o => o.mbx == mbx && !o.orphan)

/-- The first request of a mailbox that is fetched and not accepted. -/
def State.nextFetched (s : State) (mbx : Nat) : Option Fetched :=
  s.host.fetched.find? (fun f => f.mbx == mbx)

/-- A request can begin: its mailbox is in service, it is the next fetched (or nothing is fetched,
log entry 12), no immediate command of the mailbox is still to complete, and a BARRIER finds every
earlier command completed (R556). -/
def State.canBegin (s : State) (r : Req) (opcode : Nat) : Bool :=
  s.rst.mgmtUp && (s.mbxAt r.mbx).state == .opened &&
    (match s.nextFetched r.mbx with
     | some f => f.opcode == opcode && f.tag == r.tag
     | none => true) &&
    (!r.barrier || (s.outstOf r.mbx).isEmpty) &&
    !s.misc.snaps.any (fun w => w.mbx == r.mbx) &&
    !(s.outstOf r.mbx).any (fun o => o.opcode == 0x0D05) && !s.twin.edits.any (fun w => w.mbx == r.mbx)

/-- Remove the first entry that passes a test. -/
def dropFirst {α : Type} (p : α → Bool) : List α → List α
  | [] => []
  | x :: t => if p x then t else x :: dropFirst p t

/-- Take the request off the list of fetched ones. -/
def State.take (s : State) (r : Req) : State :=
  { s with host := { s.host with fetched := dropFirst (fun f => f.mbx == r.mbx) s.host.fetched } }

/-- Put a long-running command among the outstanding ones (R559). -/
def State.defer (s : State) (r : Req) (opcode obj aux phase : Nat) : State :=
  let o : Outstanding :=
    { mbx := r.mbx, orphan := false, opcode := opcode, tag := r.tag, outLen := r.outLen
      outAddr := r.outAddr, mtAccept := s.mt.mt, obj := obj, aux := aux, phase := phase }
  { s with host := { s.host with outst := s.host.outst ++ [o] } }

/-- The waiter of an outstanding command. -/
def Outstanding.waiter (o : Outstanding) : Waiter :=
  ⟨o.mbx, o.opcode, o.tag, o.outLen, o.outAddr, o.mtAccept⟩

/-- Complete the first outstanding command that passes a test; the response of an orphan is
discarded (R563). -/
def State.complete (s : State) (p : Outstanding → Bool) (a : Answer) : State :=
  match s.host.outst.find? p with
  | none => s
  | some o =>
    let s1 := { s with host := { s.host with outst := dropFirst p s.host.outst } }
    if o.orphan then s1 else s1.answer o.waiter a

/-- Complete every outstanding command that passes a test. -/
def State.completeAll (s : State) (p : Outstanding → Bool) (a : Outstanding → Answer) : State :=
  (s.host.outst.filter p).foldl
    (fun t o => if o.orphan then t else t.answer o.waiter (a o))
    { s with host := { s.host with outst := s.host.outst.filter (fun o => !p o) } }

/-- What the framework checks before a command's own checks: whether it is long-running (R559), the
GLB_READY bits it needs (R149), and whether a standby denies it (R570). -/
structure Gate where
  long : Bool := false
  needs : List Nat := []
  standbyOk : Bool := true

/-- Checks 4 and 5 of Table 21.5 and R570, in that order. -/
def State.gate (s : State) (r : Req) (g : Gate) : Option (Nat × Nat) :=
  let mine := (s.outstOf r.mbx).length
  if g.long && (16 ≤ mine || 256 ≤ s.host.outst.length) then some (stBusy, mine)
  else match g.needs.find? (fun b => !s.ready.getLsbD b) with
    | some b => some (stNotReady, b)
    | none => if !g.standbyOk && s.twin.role == .standby then some (stDenied, 0) else none

/-- A Umser command: when it can begin, it is accepted, checked, and runs its body; otherwise the
state does not change (log entry 9). -/
def umser (r : Req) (opcode : Nat) (g : Gate) (s : State) (body : State → State) :
    Host.Outcome State Fault Refusal :=
  finish s
    (if s.canBegin r opcode then
      match (s.take r).gate r g with
      | some (st, d) => (s.take r).refuse r opcode st d
      | none => body (s.take r)
    else s)

end Sys2Proof.Machine
end

