-- ==== Sys2Proof/Machine/Commit.lean ====
section
/-! DEFINITION. Packets and their commit (chapter 18), queue-event records (R482) and archive
staging (R505, R506): the operations every block that produces records uses. -/

namespace Sys2Proof.Machine

/-! ## Words and records -/

/-- The queue words of a record, padded with zero bytes to the next word (R475). -/
def wordsOf : Nat → List Byte → List DWord
  | 0, _ => []
  | _, [] => []
  | n + 1, b :: t => BitVec.ofNat 64 (ofLe ((b :: t).take 8)) :: wordsOf n ((b :: t).drop 8)

/-- The queue words of a record. -/
def recordWords (b : List Byte) : List DWord := wordsOf b.length b

/-- Words of a packet, headers included (R474). -/
def Packet.words (p : Packet) : Nat := 2 + p.payload.length

/-- Words of a list of packets. -/
def packetWords (l : List Packet) : Nat := nsum (l.map Packet.words)

/-- The figure and the stream of a queue ID (R472). -/
def qidFig (q : Nat) : Nat := q / 64
def qidStream (q : Nat) : Nat := q % 64

/-- Protection class of a stream (Table 18.1). -/
def protClass (stream : Nat) : Nat := if stream ≤ 5 then stream else 6

/-! ## Queue state -/

/-- Words of the queue's ring. -/
def Queue.ringWords (q : Queue) : Nat := if q.ringLog2 = 0 then 0 else 2 ^ q.ringLog2 / 8

/-- Words committed and not yet read or taken by the drain (FILL_PCT, Table 18.13). -/
def Queue.fill (q : Queue) : Nat := packetWords (q.pkts.drop q.taken) - q.pos

/-- FILL_PCT. -/
def Queue.fillPct (q : Queue) : Nat :=
  if q.ringWords = 0 then 0 else min 100 (100 * q.fill / q.ringWords)

/-- The ring has room for a packet (R490). -/
def Queue.room (q : Queue) (words : Nat) : Bool := packetWords q.pkts + words ≤ q.ringWords

/-- A run of sequence numbers that takes one more. -/
def extendRun (r : Option SeqRun) (seq : Word) : Option SeqRun :=
  match r with
  | none => some ⟨seq, seq, 1⟩
  | some r => some ⟨r.first, seq, r.count + 1⟩

/-! ## Archive staging (R505, R506) -/

/-- Archive staging is used: the Mire is READY, in COMMIT or FAILED (R512, R519). -/
def State.archiveOn (s : State) : Bool :=
  s.sto.state == .ready || s.sto.state == .commit || s.sto.state == .failed

/-- fig.archive in force: 1 and 2 act as 0 without a formatted Mire (R512). -/
def State.archMode (s : State) (fig : Nat) : Nat := if s.archiveOn then s.castN 0x413 fig else 0

/-- A page buffer of archive staging, not of the snapshot reserve (Table 19.1). -/
def Page.isArchive (p : Page) : Bool := p.prio != 0

/-- B in bytes (R505). -/
def Sto.staged (t : Sto) : Nat :=
  16384 * (t.pages.filter (fun p => p.isArchive && p.state != .confirmed)).length

/-- Page buffers of the archive staging partition (Table 8.7). -/
def State.buffers (s : State) : Nat := (7744 * s.castN 0x154 0 / 100) * 64

/-- Drains 12 and 13 must stop taking packets (R505). -/
def State.intakeMustHold (s : State) : Bool :=
  s.archiveOn && (s.pfe.bMax ≤ s.sto.staged ||
    s.buffers ≤ (s.sto.pages.filter Page.isArchive).length)

/-- Words a page has in use: header, directory and packets (R510). -/
def Page.usedWords (p : Page) : Nat := 8 + 3 * p.pkts.length + packetWords p.pkts

/-- The page has room for a packet (R510). -/
def Page.fits (p : Page) (k : Packet) : Bool :=
  p.usedWords + 3 + k.words ≤ 2048 && p.pkts.length < 340

/-- Close a page buffer and queue it for programming (R506): it takes the next logical page and
LOG_SEQ, padded with zero words. -/
def State.closePage (s : State) (id : Nat) : State :=
  let close (p : Page) : Page :=
    if p.id = id ∧ p.state = .opened then
      { p with
        state := .queued
        logSeq := s.sto.logSeq
        logical := s.sto.nextLogical
        mtEra := s.peat.era
        mt := s.mt.mt }
    else p
  if s.sto.pages.any (fun p => p.id == id && p.state == .opened) then
    { s with sto := { s.sto with
        pages := s.sto.pages.map close
        logSeq := s.sto.logSeq + 1#32
        nextLogical := (s.sto.nextLogical + 1) % 2 ^ 24 } }
  else s

/-- An open page of a class and set. -/
def State.openPage (s : State) (prio set : Nat) : Option Page :=
  s.sto.pages.find? (fun p => p.state == .opened && p.prio == prio && p.set == set)

/-- Put a packet into a fresh page buffer. -/
def State.newPage (s : State) (prio set : Nat) (k : Packet) : State :=
  let p : Page :=
    { Page.init with
      id := s.sto.nextPage
      state := .opened
      prio := prio
      pkts := [k]
      set := set
      firstMt := s.mt.mt }
  { s with sto := { s.sto with pages := s.sto.pages ++ [p], nextPage := s.sto.nextPage + 1 } }

/-- A target takes new pages (R519). -/
def Target.usable (t : Target) : Bool := t.fitted && t.healthy && !t.retired

/-- A target set has a target that takes new pages. -/
def Sto.setUsable (t : Sto) (set : Nat) : Bool :=
  t.targets.any (fun e => e.1 % 8 == set && e.2.usable)

/-- The target set a figure's pages go to: 0xFF striped (R211). -/
def State.figTargetSet (s : State) (fig : Nat) : Nat :=
  let set := tget 0xFF s.sto.figSet fig
  if s.castN 0x156 0 = 1 && s.sto.setUsable set then set else 0xFF

/-- Put a packet into a page buffer of its class and set; a page that has no room for it is closed
first (R506). -/
def State.stagePacket (s : State) (prio set : Nat) (k : Packet) : State :=
  match s.openPage prio set with
  | some p =>
    if p.fits k then
      { s with sto := { s.sto with pages := s.sto.pages.map (fun x =>
          if x.id = p.id then { x with pkts := x.pkts ++ [k] } else x) } }
    else (s.closePage p.id).newPage prio set k
  | none => s.newPage prio set k

/-- Oldest unconfirmed SEQ of each queue with unconfirmed archived packets, by queue ID. -/
def Sto.unconfirmed (t : Sto) : Tab Word :=
  t.pages.foldl (fun acc p =>
    if p.state == .confirmed then acc
    else p.pkts.foldl (fun acc k =>
      match tget? acc k.qid with
      | some old => if seqLt k.seq old then tput acc k.qid k.seq else acc
      | none => tput acc k.qid k.seq) acc) []

/-- Loss ranges the peat store can hold (Table 6.7). -/
def peatEntries : Nat := 224

/-- Write the loss-range region anew while archive staging holds unconfirmed pages (R523): one entry
per queue, its last SEQ open; queues beyond 224 count as excess. From COMMIT to the end of SPENT the entries stand and are
marked done as their last page is confirmed (R118). While the data plane is down no page moves, and the
entries stand until they have been reported (R116). -/
def State.syncPeat (s : State) : State :=
  let open_ := s.sto.unconfirmed
  if !s.rst.dataUp then s
  else if s.sto.state = .commit || s.pfe.hu = .spent then
    { s with peat := { s.peat with
      ranges := s.peat.ranges.map (fun r => { r with done := r.done || (tget? open_ r.qid).isNone })
      excess := min s.peat.excess
        (open_.filter (fun e => !s.peat.ranges.any (fun r => r.qid == e.1))).length } }
  else
    { s with peat := { s.peat with
        ranges := (open_.take peatEntries).map (fun e =>
          { qid := e.1, first := e.2, last := 0xFFFFFFFF#32, cause := 0, done := false })
        excess := open_.length - peatEntries } }

/-- Pages of the log, reserve excluded (R510): of each fitted target, the good blocks but four
system blocks and 3 % reserve; at most 256 GiB (Table 19.3). -/
def Sto.logPages (t : Sto) : Nat :=
  min 16777216 (nsum (t.targets.map (fun e =>
    if e.2.fitted then
      let good := e.2.blocks - e.2.bad.length - 4
      (good - cdiv (3 * good) 100) * e.2.pagesPerBlock
    else 0)))

/-- Log fill in percent. -/
def Sto.fillPct (t : Sto) : Nat :=
  if t.logPages = 0 then 0 else min 100 (100 * t.log.length / t.logPages)

/-- Bring INTAKE_HELD, FULL, NEAR_FULL, their flags and events, and the peat store's loss ranges up
to date after storage has changed (R505, R514, R523, Table 19.15). -/
def State.stoWatch (s : State) : State :=
  let s := s.syncPeat
  let held := s.intakeMustHold
  let full := s.archiveOn && s.sto.logPages ≤ s.sto.log.length
  let near := s.archiveOn && s.castN 0x15B 0 ≤ s.sto.fillPct
  let up (b now : Bool) (m : Word) : Word := if now && !b then m else 0#32
  let t := { s with sto := { s.sto with
    intakeHeld := held
    full := full
    nearFull := near
    flags := s.sto.flags ||| up s.sto.intakeHeld held 0x80#32 ||| up s.sto.full full 0x100#32 |||
      up s.sto.nearFull near 0x200#32 } }
  let t := if held && !s.sto.intakeHeld then t.raise 0xA66 else t
  let t := if full && !s.sto.full then t.raise 0xA63 else t
  if near && !s.sto.nearFull then t.raise 0xA62 else t

/-- A packet can go to archive staging now. -/
def State.canStage (s : State) : Bool := s.archiveOn && !s.intakeMustHold

/-- Send packets of a queue to archive staging, in order, for as long as intake takes them (R114, R505);
what it does not take any more. -/
def State.stageSome (s : State) (fig : Nat) : List Packet → State × List Packet
  | [] => (s, [])
  | k :: t =>
    if s.canStage then (s.stagePacket 1 (s.figTargetSet fig) k).stageSome fig t else (s, k :: t)

/-- Send one packet of a queue to archive staging. -/
def State.archivePacket (s : State) (fig : Nat) (k : Packet) : State :=
  (s.stagePacket 1 (s.figTargetSet fig) k).stoWatch

/-! ## Producing packets -/

/-- A producer has built a packet: its commit is due (R29). While the data plane is down its output
is discarded (R22), and a standby's figure streams receive none (R600). -/
def State.produce (s : State) (qid : Nat) (b : Building) : State :=
  if s.rst.dataUp && !(s.twin.role == .standby && qidStream qid ≤ 5) then s.modQue qid (fun q => { q with due := q.due ++ [b] }) else s

/-- A record of stream 0, 1 or 2 of a figure is built (R475). -/
def State.produceRecord (s : State) (fig stream : Nat) (key : Word) (bytes : List Byte) : State :=
  s.produce (64 * fig + stream) { key := key, stamp := s.mt.mt, payload := recordWords bytes }

/-- A queue event (Table 18.5): EVENT, CAUSE, the range, COUNT and ITEM_KEY. -/
structure QueueEvent where
  event : Nat
  cause : Nat := 0
  first : Word
  last : Word
  count : Word
  key : Word := 0#32

/-- The 32 bytes of a queue-event record (Table 18.5). -/
def QueueEvent.bytes (e : QueueEvent) (fig stream : Nat) (mt : DWord) : List Byte :=
  leBytes 2 (fig + 4 * 4096) ++ leBytes 1 stream ++ leBytes 1 e.event ++ leBytes 1 e.cause ++
  leBytes 3 0 ++ leBytes 4 e.first.toNat ++ leBytes 4 e.last.toNat ++ leBytes 4 e.count.toNat ++
  leBytes 4 e.key.toNat ++ leBytes 8 mt.toNat

/-- A queue event in the global error ring (R621). -/
def State.logQueueEvent (s : State) (fig stream : Nat) (e : QueueEvent) : State :=
  let sev := if e.event = 2 ∨ e.event = 3 then 0 else 0x8000
  s.log
    { code := sev + 0x0500 + 16 * e.event + e.cause
      source := 0x3000 + fig
      arg := stream
      rep := e.key.toNat % 65536
      d0 := if e.event = 1 then e.key else e.first
      d1 := e.last
      d2 := e.count }

/-- Write a queue-event record to stream 2 of the figure, or to the global error ring when it is
about stream 2 itself (R482). -/
def State.queueEvent (s : State) (qid : Nat) (e : QueueEvent) : State :=
  if qidStream qid = 2 then s.logQueueEvent (qidFig qid) 2 e
  else s.produceRecord (qidFig qid) 2 0xFFFFFFFF#32
    (e.bytes (qidFig qid) (qidStream qid) s.mt.mt)

/-- Set bits of QUE_FLAGS. -/
def State.queFlag (s : State) (m : Word) : State :=
  { s with que := { s.que with flags := s.que.flags ||| m } }

/-- Rewind an uncommitted packet with an ABANDON record (R481). -/
def State.abandon (s : State) (qid cause : Nat) (b : Building) : State :=
  (s.queueEvent qid
    { event := 1, cause := cause, first := 0xFFFFFFFF#32, last := 0xFFFFFFFF#32
      count := BitVec.ofNat 32 b.payload.length, key := b.key }).queFlag 4#32

/-! ## Commit (R476, R487 to R490) -/

/-- Diversion can end (R488). -/
def State.canResume (s : State) (qid : Nat) (q : Queue) : Bool :=
  if s.host.hdr.any (fun e => e.2.bound.contains qid) then
    s.castN 0x159 0 * q.ringWords ≤ 100 * q.credit
  else q.idled

/-- Write the DIVERT record of a run (R488). -/
def State.divertRecord (s : State) (qid : Nat) (r : SeqRun) : State :=
  s.queueEvent qid
    { event := 3, first := r.first, last := r.last, count := BitVec.ofNat 32 r.count }

/-- End a diversion: the DIVERT record is written and the next packet carries GAP (R488). -/
def State.endDivert (s : State) (qid : Nat) : State :=
  match (s.queAt qid).divert with
  | none => s
  | some r =>
    (s.modQue qid (fun q => { q with divert := none, idled := false, gap := true })).divertRecord
      qid r

/-- Record an overflow once a packet is accepted again (R490). -/
def State.endOverflow (s : State) (qid : Nat) : State :=
  match (s.queAt qid).overflow with
  | none => s
  | some r =>
    (s.modQue qid (fun q => { q with overflow := none, gap := true })).queueEvent qid
      { event := 4, first := r.first, last := r.last, count := BitVec.ofNat 32 r.count }

/-- Discard a packet that has no room (R490); it keeps its SEQ. -/
def State.overflowPacket (s : State) (qid : Nat) (seq : Word) : State :=
  let t := (s.modQue qid (fun q => { q with overflow := extendRun q.overflow seq })).queFlag 0x20#32
  { t with que := { t.que with ovfCnt := bump t.que.ovfCnt } }

/-- Packets that diversion or a flush can still take: not taken by a drain, and not partly popped
(R487, R495). -/
def Queue.movable (q : Queue) : List Packet := q.pkts.drop (max q.taken (b2n (q.pos != 0)))

/-- What stays when the movable packets go. -/
def Queue.stuck (q : Queue) : List Packet := q.pkts.take (max q.taken (b2n (q.pos != 0)))

/-- Move every movable packet out of a queue in diversion (R487): to archive staging for as long as
intake takes them (R505), or only out of the ring when it is archived already (R489). -/
def State.divertAll (s : State) (qid : Nat) (copied : Bool) : State :=
  let q := s.queAt qid
  let d := if copied then (s, []) else s.stageSome (qidFig qid) q.movable
  let moved := q.movable.take (q.movable.length - d.2.length)
  let t := d.1.modQue qid (fun q =>
    { q with
      pkts := q.stuck ++ d.2
      divert := moved.foldl (fun r k => extendRun r k.seq) q.divert })
  let t := if q.divert.isNone then t.queFlag 0x10#32 else t
  if copied then t else t.stoWatch

/-- Put a committed packet where it goes: the ring, archive staging, both, or nowhere when it
overflows (R487, R489, R490). copied says that it is in archive staging already. -/
def State.place (s : State) (qid : Nat) (p : Packet) (copied : Bool) : State :=
  let q := s.queAt qid
  let fits := q.room p.words
  let q1 := { q with pkts := q.pkts ++ [p] }
  let past := !fits || s.castN 0x158 0 * q1.ringWords ≤ 100 * q1.fill
  let divert := (q.divert.isSome || past) && (copied || s.canStage)
  if fits || divert then
    let t := (s.modQue qid (fun q => { q with pkts := q.pkts ++ [p] }))
    let t := if divert then t.divertAll qid copied else t
    let u := t.queAt qid
    if fits || packetWords u.pkts ≤ u.ringWords then t.endOverflow qid
    else (t.modQue qid (fun q => { q with pkts := q.pkts.dropLast })).overflowPacket qid p.seq
  else s.overflowPacket qid p.seq

/-- What a measurement result's commit brings about: its ports' result registers with the next
generation tag, figXXX.ap_done and figXXX.ap_ovr (R267, R275, R276, R279). -/
def State.resCommit (s : State) (fig : Nat) (n : ResNote) : State :=
  let t := n.regs.foldl (fun t e => t.modSp e.1 (fun y =>
    { y with meas := { y.meas with regs := { e.2 with gen := (y.meas.regs.gen + 1) % 16 } } })) s
  let t := t.raiseFig fig 8
  if n.ovr then t.raiseFig fig 9 else t

/-- The commit's effect of a packet that carries one. -/
def State.noteCommit (s : State) (fig : Nat) (n : Option ResNote) : State :=
  match n with
  | some x => s.resCommit fig x
  | none => s

/-- Complete the TUNE_START of an injection that has ended (R347). -/
def State.tuneAnswer (s : State) (n : TuneNote) : State :=
  s.complete (fun o => o.opcode == 0x0C06 && o.mbx == n.mbx && o.tag == n.tag)
    { status := if n.ok then stOk else stAborted
      cancelled := n.cancelled
      result := leBytes 8 n.startMt.toNat ++ leBytes 4 n.written ++ leBytes 4 n.packets }

/-- The commit of an injection's last packet: figXXX.tune_done, and TUNE_START completes (R347). -/
def State.tuneCommit (s : State) (n : Option TuneNote) : State :=
  match n with
  | some x => (s.raiseFig x.fig 12).tuneAnswer x
  | none => s

/-- Commit one packet: it receives its SEQ and becomes visible (R476). -/
def State.commitPacket (s : State) (qid : Nat) (b : Building) (poison : List Nat) : State :=
  let q := s.queAt qid
  let fig := qidFig qid
  let seq := q.next
  let s := (s.modQue qid (fun q => { q with next := q.next + 1#32 })).noteCommit fig b.note
  let s := s.tuneCommit b.tuned
  let s := if b.listEnd then s.raiseFig fig 6 else s
  let s := if q.divert.isSome && s.canResume qid q then s.endDivert qid else s
  let stamp := if qidStream qid ≤ 2 then s.mt.mt else b.stamp
  let mode := s.archMode fig
  let pkt : Packet :=
    { qid := qid, seq := seq, stamp := stamp, payload := b.payload, copy := false, mire := false
      poison := poison }
  if qidStream qid = 3 then
    if s.archiveOn then
      let p := { pkt with copy := true }
      ((s.stagePacket 0 0xFF p).stoWatch).place qid p true
    else s.place qid pkt false
  else if mode = 2 then
    if s.canStage then s.archivePacket fig pkt else s.overflowPacket qid seq
  else if mode = 1 && s.canStage then
    let p := { pkt with copy := true }
    (s.archivePacket fig p).place qid p true
  else s.place qid pkt false

/-- Write the LOST records that wait for a stream's first commit or a figure's first enable (R478). -/
def State.reportLost (s : State) (p : Nat → Bool) : State :=
  let now := s.que.lostDue.filter (fun d => p d.qid)
  let t := { s with que := { s.que with lostDue := s.que.lostDue.filter (fun d => !p d.qid) } }
  now.foldl (fun t d => t.queueEvent d.qid
    { event := 5, cause := d.cause, first := d.first, last := d.last, count := d.count
      key := d.era }) t

/-- A LOST record of unknown extent (R478). -/
def lostUnknown (cause : Nat) (era : Word) : QueueEvent :=
  { event := 5, cause := cause, first := 0xFFFFFFFF#32, last := 0xFFFFFFFF#32
    count := 0xFFFFFFFF#32, key := era }

/-- Write the record of unknown extent of a queue, once, when a loss of unknown extent is to be
reported: to the global error ring when the peat store was invalid (R61), else as R478 gives. -/
def State.reportUnknown (s : State) (qid : Nat) : State :=
  match s.que.lostAll with
  | none => s
  | some (cause, era) =>
    if s.que.lostDone.contains qid then s
    else
      let t := { s with que := { s.que with lostDone := insAsc s.que.lostDone qid } }
      if cause = 8 then t.logQueueEvent (qidFig qid) (qidStream qid) (lostUnknown cause era)
      else t.queueEvent qid (lostUnknown cause era)

end Sys2Proof.Machine
end

