-- ==== Sys2Proof/Machine/Queues.lean ====
section
/-! DEFINITION. The queues' commands (chapter 18, Table 22.4): pop, drop, flush, credit, push,
status, and the commit and the flush point of a packet. -/

namespace Sys2Proof.Machine

/-- A queue is bound to a host drain ring (R483). -/
def State.boundTo (s : State) (qid : Nat) : Option Nat :=
  (s.host.hdr.find? (fun e => e.2.bound.contains qid)).map (fun e => e.1)

/-- A figure is defined in the Cast. -/
def State.defined (s : State) (fig : Nat) : Bool := s.sets.cast.figs.contains fig

/-- SEQ of the next packet to be delivered (QUE_HEAD_SEQ). -/
def Queue.headSeq (q : Queue) : Word :=
  match q.pkts with
  | [] => q.next
  | p :: _ => p.seq

/-- QUE_STAT (Table 18.13); 0 for a queue of an undefined figure (R500). -/
def State.queStat (s : State) (qid : Nat) : Word :=
  let q := s.queAt qid
  if s.defined (qidFig qid) then
    bitAt q.hot 31 ||| bitAt (s.boundTo qid).isSome 30 ||| bitAt q.divert.isSome 29 |||
    bitAt q.overflow.isSome 28 ||| bitAt (q.pos != 0) 27 |||
    at32 (if q.hot then min 8 q.fill else 0) 20 ||| at32 (s.archMode (qidFig qid)) 18 |||
    at32 q.fillPct 8 ||| at32 q.ringLog2 0
  else 0#32

/-- A stream a command may name (R473). -/
def streamOk (qid : Nat) : Bool := qid < 262144 && !(6 ≤ qidStream qid && qidStream qid ≤ 15)

/-! ## Words of a packet -/

/-- Header word 0 (Table 18.2). -/
def Packet.header (p : Packet) (gap : Bool) : DWord :=
  p.seq ++ BitVec.ofNat 18 p.qid ++ BitVec.ofNat 6 (p.payload.length - 1) ++ 0#4 ++
  BitVec.ofBool p.copy ++ BitVec.ofBool p.mire ++ BitVec.ofBool gap ++
  BitVec.ofBool (!p.poison.isEmpty)

/-- A packet's words with their tags (Table 18.3). -/
def Packet.tagged (p : Packet) (gap : Bool) : List (DWord × Nat) :=
  let ws := p.header gap :: p.stamp :: p.payload
  (List.range ws.length).map (fun k =>
    (ws.getD k 0#64,
     b2n (k == 0) + 2 * b2n (k + 1 == ws.length) + 4 * b2n (p.poison.contains k)))

/-- The idle item (R484). -/
def idleItem : DWord × Nat := (BitVec.allOnes 64, 0xB)

/-- The tag block and the words of a QUE_POP (R578). -/
def popBytes (l : List (DWord × Nat)) : List Byte :=
  let tag (k : Nat) : Nat := match l[k]? with
    | some w => w.2
    | none => 0
  (List.range 40).map (fun i => BitVec.ofNat 8 (tag (2 * i) + 16 * tag (2 * i + 1))) ++
  l.flatMap (fun w => leBytes 8 w.1.toNat)

/-- Count words delivered with POISON (R493). -/
def State.countPoison (s : State) (n : Nat) : State :=
  if n = 0 then s
  else
    let t := s.queFlag 1#32
    { t with que := { t.que with poisonCnt := bumpBy t.que.poisonCnt n } }

/-- What a delivery of the packet at the front changes once its last word has gone (R483). -/
def Queue.pop (q : Queue) (n : Nat) : Queue :=
  match q.pkts with
  | [] => q
  | p :: t =>
    let q := if q.pos = 0 then { q with gap := false } else q
    if p.words ≤ q.pos + n then { q with pkts := t, pos := 0 } else { q with pos := q.pos + n }

/-- Answer of a pop: words returned, QUE_STAT after it, SEQ of the packet, the buffer. -/
def State.popAnswer (s : State) (qid : Nat) (seq : Word) (l : List (DWord × Nat)) : Answer :=
  { status := stOk
    result := leBytes 1 l.length ++ leBytes 3 0 ++ leBytes 4 (s.queStat qid).toNat ++
      leBytes 4 seq.toNat
    out := popBytes l }

/-- R484: up to n words of the packet at the read position, or the idle item. -/
def State.popWords (s : State) (r : Req) (qid n : Nat) : State :=
  let q := s.queAt qid
  match q.pkts with
  | [] =>
    let t := s.modQue qid (fun q => { q with idled := q.divert.isSome })
    t.reply r 0x0701 (t.popAnswer qid q.next [idleItem])
  | p :: _ =>
    let ws := ((p.tagged q.gap).drop q.pos).take n
    let t := (s.modQue qid (fun q => q.pop ws.length)).countPoison
      (ws.filter (fun w => w.2.testBit 2)).length
    t.reply r 0x0701 (t.popAnswer qid p.seq ws)

/-- QUE_POP (R483, R484, R578). -/
def execQuePop (r : Req) (qid words : Nat) (s : State) : Host.Outcome State Fault Refusal :=
  umser r 0x0701 { needs := [5] } s fun s =>
    if r.outLen < 48 then s.refuse r 0x0701 stBadDesc 0x14
    else if !streamOk qid then s.refuse r 0x0701 stRange 0x20
    else if words = 0 ∨ 66 < words then s.refuse r 0x0701 stRange 0x24
    else if (s.boundTo qid).isSome then s.refuse r 0x0701 stBusy
    else s.popWords r qid (min words ((r.outLen - 40) / 8))

/-- QUE_DROP_REST (R485). -/
def execQueDropRest (r : Req) (qid : Nat) (s : State) : Host.Outcome State Fault Refusal :=
  umser r 0x0702 { needs := [5] } s fun s =>
    let q := s.queAt qid
    if !streamOk qid then s.refuse r 0x0702 stRange 0x20
    else if (s.boundTo qid).isSome then s.refuse r 0x0702 stBusy
    else match q.pkts with
      | [] => s.refuse r 0x0702 stNotReady
      | p :: rest =>
        if q.pos = 0 then s.refuse r 0x0702 stNotReady
        else
          let t := (s.modQue qid (fun q => { q with pkts := rest, pos := 0 })).queFlag 0x40#32
          let t := { t with que := { t.que with dropCnt := bump t.que.dropCnt } }
          t.ok r 0x0702 (leBytes 2 (p.words - q.pos) ++ leBytes 2 0 ++ leBytes 4 p.seq.toNat) []

/-! ## Flush (R494 to R496) -/

/-- Period index of the first entry of an injection's packet in progress (R346, Table 18.6). -/
def Tune.firstK (t : Tune) : Nat := (t.written - t.nEntries) * t.dec

/-- The group whose tuning injection has entries of a packet in progress for a stream 4. -/
def State.tuneAt (s : State) (qid : Nat) : Option (Nat × Tune) :=
  if qidStream qid = 4 then
    s.grp.findSome? (fun e => match e.2.tune with
      | some t => if t.fig = qidFig qid && !t.entries.isEmpty then some (e.1, t) else none
      | none => none)
  else none

/-- Rewind the producer of stream 4 or 5 that a flush cuts, with its ABANDON record; the count of producers
cut. A capture and an injection go on in a new packet (Table 18.6). -/
def State.flushCut (s : State) (qid : Nat) : State × Nat :=
  match (s.queAt qid).building, s.tuneAt qid with
  | some b, _ =>
    (((s.modQue qid (fun q => { q with building := none })).abandon qid 3 b).queFlag 8#32, 1)
  | none, some (g, t) =>
    let b : Building := { key := BitVec.ofNat 32 t.firstK, stamp := t.stamp, payload := t.entries }
    (((s.modGrp g (fun x => { x with tune := x.tune.map (fun t =>
      { t with entries := [], nEntries := 0 }) })).abandon qid 3 b).queFlag 8#32, 1)
  | none, none => (s, 0)

/-- The FLUSH record of discarded packets, to stream 2 or, for a deleted figure, to the global error
ring (R494, R573). -/
def State.flushRecord (s : State) (qid : Nat) (toRing : Bool) (l : List Packet) : State :=
  match l.head?, l.getLast? with
  | some a, some b =>
    let e : QueueEvent :=
      { event := 2, first := a.seq, last := b.seq, count := BitVec.ofNat 32 l.length }
    if toRing then s.logQueueEvent (qidFig qid) (qidStream qid) e else s.queueEvent qid e
  | _, _ => s

/-- A queue's flush point: what is committed and not delivered is discarded, a producer is cut, a
diversion ends (R494, R495). Packets a drain has begun to move stay. -/
def State.flushQueue (s : State) (qid : Nat) (toRing : Bool) : State × Nat × Nat :=
  let q := s.queAt qid
  let gone := q.pkts.drop q.taken
  let t := s.modQue qid (fun q =>
    { q with pkts := q.pkts.take q.taken, pos := 0, gap := q.gap || !gone.isEmpty })
  let t := t.flushRecord qid toRing gone
  let c := t.flushCut qid
  (c.1.endDivert qid, gone.length, c.2)

/-- Queues of a flush's scope that hold something (R494). -/
def State.flushScope (s : State) (scope obj : Nat) : List Nat :=
  (s.que.q.map (fun e => e.1)).filter (fun q =>
    if scope = 0 then q == obj else if scope = 1 then qidFig q == obj else true)

/-- Complete the flushes whose last flush point has passed (R498). -/
def State.flushesDone (s : State) : State :=
  let ended := s.que.flushes.filter (fun f => f.left.isEmpty)
  ended.foldl (fun t f => t.complete (fun o => o.opcode == 0x0703 && o.mbx == f.mbx && o.tag == f.tag)
      { status := stOk, result := leBytes 4 f.packets ++ leBytes 4 f.cut })
    { s with que := { s.que with flushes := s.que.flushes.filter (fun f => !f.left.isEmpty) } }

/-- QUE_FLUSH (R494). -/
def execQueFlush (r : Req) (scope obj : Nat) (s : State) : Host.Outcome State Fault Refusal :=
  umser r 0x0703 { long := true, needs := [5] } s fun s =>
    if 2 < scope then s.refuse r 0x0703 stRange 0x20
    else if scope = 0 && !streamOk obj then s.refuse r 0x0703 stRange 0x24
    else if scope = 1 && 4096 ≤ obj then s.refuse r 0x0703 stRange 0x24
    else if scope = 2 && obj != 0 then s.refuse r 0x0703 stRange 0x24
    else if s.flushScope scope obj = [] then s.ok r 0x0703 (leBytes 4 0 ++ leBytes 4 0) []
    else
      let f : FlushRun :=
        { mbx := r.mbx, tag := r.tag, left := s.flushScope scope obj, packets := 0, cut := 0 }
      let t := s.defer r 0x0703 obj scope 0
      { t with que := { t.que with flushes := t.que.flushes ++ [f] } }

/-- A flush point passes for the runs that wait for it. -/
def FlushRun.pass (f : FlushRun) (qid n c : Nat) : FlushRun :=
  if f.left.contains qid then
    { f with left := f.left.filter (· != qid), packets := f.packets + n, cut := f.cut + c }
  else f

/-- FLUSH_POINT: a flush reaches a queue (R494). -/
def execFlushPoint (qid : Nat) (s : State) : Host.Outcome State Fault Refusal :=
  finish s
    (if s.rst.dataUp && s.que.flushes.any (fun f => f.left.contains qid) then
      let d := s.flushQueue qid false
      ({ d.1 with que := { d.1.que with
          flushes := d.1.que.flushes.map (fun f : FlushRun => f.pass qid d.2.1 d.2.2) } }).flushesDone
    else s)

/-! ## Credit, push, status, commit -/

/-- Add a grant to a queue's balance (R486). -/
def State.grant (s : State) (qid n : Nat) : State :=
  let b := (s.queAt qid).credit + n
  let t := s.modQue qid (fun q => { q with credit := min b (2 ^ 32 - 1) })
  if 2 ^ 32 - 1 < b then t.queFlag 0x80#32 else t

/-- QUE_CREDIT (R486). -/
def execQueCredit (r : Req) (qid grant : Nat) (s : State) : Host.Outcome State Fault Refusal :=
  umser r 0x0704 { needs := [5] } s fun s =>
    if !streamOk qid then s.refuse r 0x0704 stRange 0x20
    else if grant = 0 ∨ 2 ^ 32 ≤ grant then s.refuse r 0x0704 stRange 0x24
    else if (s.boundTo qid).isNone then s.refuse r 0x0704 stNotReady
    else
      let t := s.grant qid grant
      t.ok r 0x0704 (leBytes 4 (t.queAt qid).credit) []

/-- QUE_PUSH (R498, R473): the packet is committed at acceptance. -/
def execQuePush (r : Req) (qid : Nat) (words : List DWord) (s : State) :
    Host.Outcome State Fault Refusal :=
  umser r 0x0705 { needs := [5] } s fun s =>
    if qid ≥ 262144 ∨ qidStream qid < 16 then s.refuse r 0x0705 stRange 0x20
    else if words = [] ∨ 64 < words.length then s.refuse r 0x0705 stRange 0x24
    else if !s.defined (qidFig qid) then s.refuse r 0x0705 stRange 0x20
    else
      let s := (s.reportLost (· == qid)).reportUnknown qid
      let seq := (s.queAt qid).next
      let t := s.commitPacket qid
        { key := 0xFFFFFFFF#32, stamp := s.mt.mt, payload := words } []
      t.ok r 0x0705 (leBytes 4 seq.toNat ++ leBytes 8 s.mt.mt.toNat) []

/-- The 24 bytes of a queue in QUE_STATUS_READ (Table 22.4). -/
def State.queStatusEntry (s : State) (qid : Nat) : List Byte :=
  let q := s.queAt qid
  if s.defined (qidFig qid) then
    leBytes 4 (s.queStat qid).toNat ++ leBytes 4 q.next.toNat ++ leBytes 4 q.headSeq.toNat ++
    leBytes 4 q.credit ++ leBytes 4 (packetWords q.pkts - q.pos) ++ leBytes 4 0
  else List.replicate 24 0#8

/-- QUE_STATUS_READ (R498, R568). -/
def execQueStatusRead (r : Req) (first count : Nat) (s : State) :
    Host.Outcome State Fault Refusal :=
  umser r 0x0706 {} s fun s =>
    if 262144 ≤ first then s.refuse r 0x0706 stRange 0x20
    else if count = 0 ∨ 64 < count ∨ 262144 < first + count then s.refuse r 0x0706 stRange 0x24
    else s.ok r 0x0706 [] ((List.range count).flatMap (fun i => s.queStatusEntry (first + i)))

/-- Count words corrected in a protection class (R493). -/
def State.countCorrected (s : State) (qid n : Nat) : State :=
  if n = 0 then s
  else
    let c := protClass (qidStream qid)
    let t := s.queFlag 2#32
    { t with que := { t.que with corrCnt := tput t.que.corrCnt c (bumpBy (tget 0#32 t.que.corrCnt c) n) } }

/-- PACKET_COMMIT: the oldest packet built for a queue is committed (R476). corrected words were
corrected on the way; ecc says that an input word could not be, which rewinds the packet (R493);
poison lists the word positions that can no longer be corrected after the commit. -/
def execPacketCommit (qid corrected : Nat) (ecc : Bool) (poison : List Nat) (s : State) :
    Host.Outcome State Fault Refusal :=
  finish s
    (match s.rst.dataUp, (s.queAt qid).due with
     | true, b :: rest =>
       let t := (s.modQue qid (fun q => { q with due := rest })).countCorrected qid corrected
       if ecc then
         let t := t.abandon qid 2 b
         match b.tuned with
         | some n => t.tuneAnswer n
         | none => t
       else t.commitPacket qid b poison
     | _, _ => s)

end Sys2Proof.Machine
end

