-- ==== Sys2Proof/Machine/Storage.lean ====
section
/-! DEFINITION. Drains, staging DRAM and the Mire (chapter 19): NAND operations, confirmation and
faults, retrieval, release, format. -/

namespace Sys2Proof.Machine

/-! ## Targets -/

/-- A NAND target, 8c + t. -/
def State.targetAt (s : State) (n : Nat) : Target := tget Target.init s.sto.targets n

/-- Change a target. -/
def State.modTarget (s : State) (n : Nat) (f : Target → Target) : State :=
  { s with sto := { s.sto with targets := tput s.sto.targets n (f (s.targetAt n)) } }

/-- Set bits of STO_FLAGS. -/
def State.stoFlag (s : State) (m : Word) : State :=
  { s with sto := { s.sto with flags := s.sto.flags ||| m } }

/-- STO_TGT_FITTED and STO_TGT_HEALTHY. -/
def Sto.fittedMask (t : Sto) : Word :=
  BitVec.ofNat 32 (nsum (t.targets.map (fun e => b2n e.2.fitted * 2 ^ e.1)))
def Sto.healthyMask (t : Sto) : Word :=
  BitVec.ofNat 32 (nsum (t.targets.map (fun e => b2n e.2.usable * 2 ^ e.1)))

/-- Healthy targets. -/
def Sto.healthyCount (t : Sto) : Nat := (t.targets.filter (fun e => e.2.usable)).length

/-- Erase-count spread of a target (R518). -/
def Target.spread (t : Target) : Nat :=
  let counts := ((List.range t.blocks).filter (fun b => !t.bad.contains b)).map
    (fun b => tget 0 t.erases b)
  lmax counts - counts.foldl min (lmax counts)

/-- The system area: the first four good blocks (R510). -/
def Target.system (t : Target) : List Nat :=
  ((List.range t.blocks).filter (fun b => !t.bad.contains b)).take 4

/-- The free block with the lowest erase count (R518), the lowest block first among equals (log
entry 13). -/
def Target.freeBlock (t : Target) : Option Nat :=
  ((List.range t.blocks).filter
    (fun b => !t.bad.contains b && !t.used.contains b && !t.system.contains b)).foldl
    (fun best b => match best with
      | none => some b
      | some c => if tget 0 t.erases b < tget 0 t.erases c then some b else some c) none

/-- The target moves to a fresh block when its present one is full, bad or not yet chosen. -/
def Target.advance (t : Target) : Target :=
  if t.used.contains t.block && t.written < t.pagesPerBlock && !t.bad.contains t.block then t
  else match t.freeBlock with
    | none => t
    | some b => { t with block := b, written := 0, used := insAsc t.used b }

/-- The target has a page to write. -/
def Target.canWrite (t : Target) : Bool :=
  t.usable && (t.advance.written < t.pagesPerBlock && t.advance.used.contains t.advance.block)

/-- A channel is under a channel reset: a target of it has timed out (R143). -/
def Sto.channelHeld (t : Sto) (c : Nat) : Bool := t.chanReset.any (fun n => n / 8 == c)

/-- A target is ready: fitted, idle, its channel not in reset (R142, R143, R502). -/
def Sto.targetReady (t : Sto) (n : Nat) : Bool :=
  (tget Target.init t.targets n).fitted && !t.ops.any (fun o => o.target == n && o.running) &&
    !t.channelHeld (n / 8) && !t.cutOps.contains n

/-- RBn of a target that an L2 reset met reports ready: it is deselected (R142). -/
def Sto.deselect (t : Sto) (n : Nat) : Sto := { t with cutOps := t.cutOps.filter (· != n) }

/-! ## Starting operations (R502, R503) -/

/-- A page may go to a target: any for striped pages and snapshots, else the targets of its set
(R211). -/
def Page.mayUse (p : Page) (n : Nat) : Bool := p.prio == 0 || p.set == 0xFF || p.set == n % 8

/-- Targets of a channel in round-robin order (R211). -/
def Sto.order (t : Sto) (channel : Nat) : List Nat :=
  (List.range 8).map (fun i => 8 * channel + (t.robin / 4 + i) % 8)

/-- The target of a channel a page starts on. -/
def Sto.targetFor (t : Sto) (channel : Nat) (p : Page) : Option Nat :=
  (t.order channel).find? (fun n => t.targetReady n && p.mayUse n &&
    (tget Target.init t.targets n).canWrite)

/-- During COMMIT every page goes out before other work, in order of the commit MT of its oldest
packet, snapshots first (R523). -/
def Page.class (p : Page) (commit : Bool) : Nat := if commit && p.prio != 0 then 1 else p.prio

/-- One operation a channel could start: its class and what it is. -/
inductive Start where
  | page (p : Page) (target : Nat)
  | op (o : NandOp)
  deriving DecidableEq, Repr

/-- The class of a start. -/
def Start.class (s : Start) (commit : Bool) : Nat :=
  match s with
  | .page p _ => p.class commit
  | .op o => o.prio

/-- The translation of the Mire runs: not while the management plane is in reset (R32). -/
def State.translates (s : State) : Bool := s.rst.mgmtUp && s.rst.dataUp && s.archiveOn

/-- What a channel can start now, oldest first within a class: queued pages, then reads and erases
whose target is ready. In COMMIT retrieval and housekeeping stop (R523). -/
def State.starts (s : State) (channel : Nat) : List Start :=
  let commit := s.sto.state == .commit
  let pages := (s.sto.pages.filter (fun p => p.state == .queued)).filterMap (fun p =>
    if s.sto.full then none else (s.sto.targetFor channel p).map (Start.page p))
  let pages := if commit then sortBy (fun a b => match a, b with
      | .page p _, .page q _ => (p.class true < q.class true) ||
          (p.class true == q.class true && p.firstMt != q.firstMt && mtLe p.firstMt q.firstMt)
      | _, _ => false) pages else pages
  let ops := (s.sto.ops.filter (fun o => !o.running && o.target / 8 == channel &&
    s.sto.targetReady o.target)).map Start.op
  pages ++ (if commit then [] else ops)

/-- The start the channel drain chooses: the highest class, or a class 2 or 3 operation when 31 of
other classes have gone before it (R502). -/
def State.choose (s : State) (channel : Nat) : Option Start :=
  let l := s.starts channel
  let commit := s.sto.state == .commit
  let low := l.filter (fun x => 2 ≤ x.class commit)
  let best := sortBy (fun a b => a.class commit < b.class commit) l
  if 31 ≤ tget 0 s.sto.sinceLow channel && !commit && !low.isEmpty then
    (sortBy (fun a b => a.class commit < b.class commit) low).head?
  else best.head?

/-- A class 0 page pauses a data transfer of class 1 to 3 on the channel when another target is
ready (R503). -/
def State.pauseFor (s : State) (channel : Nat) : State :=
  match (s.sto.ops.find? (fun o => o.running && !o.paused && o.target / 8 == channel &&
      1 ≤ o.prio && o.kind != .erase)) with
  | none => s
  | some v =>
    let t := { s with sto := { s.sto with
      ops := s.sto.ops.map (fun o => if o = v then { o with paused := true } else o)
      pages := s.sto.pages.map (fun (p : Page) =>
        if v.kind = NandKind.program ∧ p.id = v.obj ∧ p.state = PageState.programming then
          { p with state := .paused } else p)
      preempt := bump s.sto.preempt } }
    t.stoFlag 0x40#32

/-- Start programming a page on a target (R515, R518). -/
def State.startPage (s : State) (p : Page) (n : Nat) : State :=
  let t := (s.targetAt n).advance
  let s := s.modTarget n (fun _ => { t with written := t.written + 1 })
  { s with sto := { s.sto with
    robin := s.sto.robin + 1
    pages := s.sto.pages.map (fun (x : Page) =>
      if x.id = p.id then { x with state := .programming, target := n, block := t.block } else x)
    ops := s.sto.ops ++ [{ kind := .program, prio := p.class (s.sto.state == .commit), target := n
                           obj := p.id, running := true, paused := false }] } }

/-- Count an operation toward the share of classes 2 and 3 (R502). -/
def State.countStart (s : State) (channel cls : Nat) : State :=
  let n := if 2 ≤ cls then 0 else tget 0 s.sto.sinceLow channel + 1
  { s with sto := { s.sto with sinceLow := tput s.sto.sinceLow channel n } }

/-- NAND_OP_START: a channel drain starts the oldest ready operation of the highest class (R502). -/
def execNandOpStart (channel : Nat) (s : State) : Host.Outcome State Fault Refusal :=
  finish s
    (if s.translates && tget 0 s.sto.drainReset channel ≤ s.clk then
      match s.choose channel with
      | none => s
      | some c =>
        let cls := c.class (s.sto.state == .commit)
        let s := if cls = 0 then s.pauseFor channel else s
        let s := s.countStart channel cls
        match c with
        | .page p n => (s.startPage p n).stoWatch
        | .op o => { s with sto := { s.sto with
            ops := s.sto.ops.map (fun x => if x = o then { x with running := true } else x) } }
    else s)

/-- A paused transfer resumes once the class 0 program has been sent (R503). -/
def Sto.resume (t : Sto) (channel : Nat) : Sto :=
  { t with
    ops := t.ops.map (fun o => if o.target / 8 = channel then { o with paused := false } else o)
    pages := t.pages.map (fun p =>
      if p.state = .paused ∧ p.target / 8 = channel then { p with state := .programming } else p) }

/-! ## Confirmation and faults (R515, R516) -/

/-- Pages of a block of a target that hold packets. -/
def Sto.inBlock (t : Sto) (n block : Nat) : List Page :=
  (t.pages ++ t.log).filter (fun p => p.target == n && p.block == block &&
    (p.state == .confirmed || p.state == .programming || p.state == .paused))

/-- Release the page buffers R515 lets go: two later pages of the block confirmed, or the block
closed with every page confirmed. -/
def State.releaseBuffers (s : State) (n block : Nat) : State :=
  let mine := s.sto.pages.filter (fun p => p.target == n && p.block == block)
  let closed := (s.targetAt n).block != block || (s.targetAt n).pagesPerBlock ≤ (s.targetAt n).written
  let allOk := mine.all (fun p => p.state == .confirmed)
  let free (p : Page) : Bool :=
    p.target == n && p.block == block && p.state == .confirmed &&
      (2 ≤ (mine.filter (fun q => q.state == .confirmed && seqLt p.logSeq q.logSeq)).length ||
        (closed && allOk))
  { s with sto := { s.sto with pages := s.sto.pages.filter (fun p => !free p) } }

/-- Remove the running operation of a target. -/
def Sto.endOp (t : Sto) (n : Nat) : Sto :=
  { t with ops := t.ops.filter (fun o => !(o.target == n && o.running)) }

/-- The running operation of a target. -/
def Sto.running (t : Sto) (n : Nat) : Option NandOp :=
  t.ops.find? (fun o => o.target == n && o.running)

/-- A confirmed page enters the log; STO_LOG_SEQ shows it, and archive pages count towards the next
map checkpoint (R511, R515). -/
def State.confirmPage (s : State) (id : Nat) : State :=
  match s.sto.pages.find? (fun p => p.id == id) with
  | none => s
  | some p =>
    let c := { p with state := PageState.confirmed }
    let t := { s with sto := { s.sto with
      pages := s.sto.pages.map (fun (x : Page) => if x.id = id then c else x)
      log := s.sto.log ++ [c]
      confirmedSeq := p.logSeq
      sinceCkpt := s.sto.sinceCkpt + 1
      ckptDue := s.sto.ckptDue || 65536 ≤ s.sto.sinceCkpt + 1 } }
    t.releaseBuffers p.target p.block

/-- Queue class 3 reads that relocate the live log pages of a block (R514, R516). -/
def State.relocate (s : State) (n block : Nat) : State :=
  let live := s.sto.log.filter (fun p => p.target == n && p.block == block && !p.pkts.isEmpty)
  { s with sto := { s.sto with ops := s.sto.ops ++ live.map (fun p =>
      { kind := .read, prio := 3, target := n, obj := p.logical, running := false, paused := false }) } }

/-- A block becomes grown bad (R518). -/
def State.growBad (s : State) (n block : Nat) : State :=
  let t := s.modTarget n (fun t => { t with bad := insAsc t.bad block, grown := t.grown + 1 })
  { t with sto := { t.sto with badBlk := bump t.sto.badBlk } }

/-- Retire a target (R519): no new pages, and its live pages are relocated. Its set goes on with the
targets it has left; where it has none, its pages go to any (R211, Table 19.8). -/
def State.retire (s : State) (n : Nat) : State :=
  if (s.targetAt n).retired || !(s.targetAt n).fitted then s
  else
    let t := s.modTarget n (fun t => { t with retired := true, healthy := false })
    let t := (t.stoFlag 0x20#32).raise 0xA61
    let live := t.sto.log.filter (fun p => p.target == n && !p.pkts.isEmpty)
    let t := { t with sto := { t.sto with
      ops := t.sto.ops ++ live.map (fun p =>
        { kind := .read, prio := 3, target := n, obj := p.logical, running := false, paused := false })
      pages := t.sto.pages.map (fun p =>
        if p.set = n % 8 ∧ !t.sto.setUsable (n % 8) then { p with set := 0xFF } else p) } }
    if t.sto.healthyCount = 0 && t.sto.state == .ready then
      { t with sto := { t.sto with state := .failed } }
    else t

/-- More than 5 % of a target's blocks are grown bad (R519). -/
def Target.worn (t : Target) : Bool := t.blocks < 20 * t.grown

/-- A program failed (Table 19.6): the block is grown bad, the page and the held pages of the block
go again from staging, the block's other live pages are relocated. -/
def State.programFailed (s : State) (p : Page) : State :=
  let again (x : Page) : Page :=
    if x.target = p.target ∧ x.block = p.block ∧
        (x.id = p.id ∨ x.state = .confirmed) then
      { x with state := .queued } else x
  let held := (s.sto.pages.filter (fun x => x.target == p.target && x.block == p.block &&
    x.state == .confirmed)).map (fun x => x.logical)
  let t := { s with sto := { s.sto with
    pages := s.sto.pages.map again
    log := s.sto.log.filter (fun x => !held.contains x.logical)
    progFail := bump s.sto.progFail } }
  let t := ((t.stoFlag 1#32).raise 0xA60).growBad p.target p.block
  let t := t.relocate p.target p.block
  if (t.targetAt p.target).worn then t.retire p.target else t

/-- PROGRAM_STATUS: READ STATUS ENHANCED reports the program of a target (R515, R516). That of a program
or an erase which an L2 reset met only shows RBn ready (R142). -/
def execProgramStatus (target : Nat) (pass : Bool) (s : State) :
    Host.Outcome State Fault Refusal :=
  finish s
    (if s.sto.cutOps.contains target then { s with sto := s.sto.deselect target } else match s.sto.running target with
     | some o =>
       if o.kind = .program && s.rst.dataUp then
         match s.sto.pages.find? (fun p => p.id == o.obj) with
         | some p =>
           let t := { s with sto := (s.sto.endOp target).resume (target / 8) }
           (if pass then t.confirmPage p.id else t.programFailed p).stoWatch
         | none => s
       else s
     | none => s)

/-! ## Erase and format (R513, R514, R516) -/

/-- A block's pages leave the log and the block is free again. -/
def State.blockErased (s : State) (n block : Nat) : State :=
  let t := s.modTarget n (fun t =>
    { t with erases := tput t.erases block (tget 0 t.erases block + 1)
             used := t.used.filter (· != block) })
  { t with sto := { t.sto with
      log := t.sto.log.filter (fun p => !(p.target == n && p.block == block)) } }

/-- A target's format erases its next block: a failing block is entered as bad (R513). -/
def Target.formatBlock (t : Target) (pass : Bool) : Target :=
  { t with
    fmtNext := t.fmtNext + 1
    bad := if pass then t.bad else insAsc t.bad t.fmtNext
    erases := tput t.erases t.fmtNext (tget 0 t.erases t.fmtNext + 1) }

/-- The format ends once every block of every fitted target is erased: a new system area is written,
every archived packet is gone, and retired targets that pass are healthy again (R513, R579). -/
def State.formatDone (s : State) : State :=
  if s.sto.state = .formatting &&
      s.sto.targets.all (fun e => !e.2.fitted || e.2.blocks ≤ e.2.fmtNext) then
    let t := { s with sto := { s.sto with
      state := .ready
      formatted := true
      own := true
      log := []
      lostPkts := []
      sinceCkpt := 0
      ckptDue := false
      sysDescs := []
      sysRef := none
      targets := tmap (fun _ (t : Target) =>
        { t with used := [], written := 0, grown := 0, retired := false
                 healthy := t.fitted && !t.worn }) s.sto.targets } }
    t.complete (fun o => o.opcode == 0x0804) { status := stOk }
  else s

/-- ERASE_STATUS: an erase of a target reports pass or FAIL (R516); during MIRE_FORMAT it is the
erase of the target's next block. -/
def execEraseStatus (target : Nat) (pass : Bool) (s : State) : Host.Outcome State Fault Refusal :=
  finish s
    (if s.sto.state = .formatting && (s.targetAt target).fitted &&
        (s.targetAt target).fmtNext < (s.targetAt target).blocks then
      (s.modTarget target (fun t => t.formatBlock pass)).formatDone.stoWatch
    else match s.sto.running target with
      | some o =>
        if o.kind = .erase && s.rst.dataUp then
          let t := { s with sto := s.sto.endOp target }
          if pass then (t.blockErased target o.obj).stoWatch
          else
            let t := { t with sto := { t.sto with eraseFail := bump t.sto.eraseFail } }
            let t := (t.stoFlag 2#32).growBad target o.obj
            (if (t.targetAt target).worn then t.retire target else t).stoWatch
        else s
      | none => s)

/-- MIRE_FORMAT (R513). -/
def execMireFormat (r : Req) (key : Nat) (s : State) : Host.Outcome State Fault Refusal :=
  umser r 0x0804 { long := true, needs := [7] } s fun s =>
    if key != 0xA5 then s.refuse r 0x0804 stDenied
    else if s.sto.state == .none || s.sto.state == .scanning then s.refuse r 0x0804 stNotReady 7
    else if s.sto.staged != 0 || s.sto.state == .commit || s.sto.state == .formatting ||
        !s.sto.reads.isEmpty ||
        s.sets.cast.figs.any (fun f => s.castN 0x400 f == 1 && s.castN 0x413 f != 0) then
      s.refuse r 0x0804 stBusy
    else
      let t := s.defer r 0x0804 0 0 0
      ({ t with sto := { t.sto with
          state := .formatting
          ops := []
          targets := tmap (fun _ (x : Target) => { x with fmtNext := 0 }) t.sto.targets } }).formatDone

/-! ## Reads, relocation, losses (R509, R517, R521) -/

/-- Consecutive SEQ runs of one queue, oldest first. -/
def runsOf : List Word → List SeqRun
  | [] => []
  | a :: t =>
    match runsOf t with
    | r :: rest => if r.first = a + 1#32 then ⟨a, r.last, r.count + 1⟩ :: rest else ⟨a, a, 1⟩ :: r :: rest
    | [] => [⟨a, a, 1⟩]

/-- Report packets of a page lost in the archive path (R517): one LOST record a run and queue. -/
def State.reportStorageLoss (s : State) (era : Word) (l : List Packet) : State :=
  let qids := l.foldl (fun acc k => insAsc acc k.qid) []
  let t := qids.foldl (fun t q =>
    (runsOf ((l.filter (fun k => k.qid == q)).map (fun k => k.seq))).foldl (fun t r =>
      (t.queueEvent q { event := 5, cause := 7, first := r.first, last := r.last
                        count := BitVec.ofNat 32 r.count, key := era }).raise 0xA64) t) s
  let t := { t with sto := { t.sto with
    lostCnt := bumpBy t.sto.lostCnt l.length
    lostPkts := t.sto.lostPkts ++ l.map (fun k => (k.qid, k.seq)) } }
  if l.isEmpty then t else t.stoFlag 0x18#32

/-- A page read for relocation goes back to staging at class 3 (R514, R516). -/
def State.restage (s : State) (p : Page) : State :=
  let q := { p with id := s.sto.nextPage, state := PageState.queued, prio := 3 }
  { s with sto := { s.sto with
    nextPage := s.sto.nextPage + 1
    pages := s.sto.pages ++ [q]
    log := s.sto.log.filter (fun x => x.logical != p.logical) } }

/-- NAND_READ_DONE: a page read is decoded (R509, R516): sectors corrected, a weak read, and the
positions in the page of packets that cannot be read. -/
def execNandReadDone (target corrected : Nat) (weak : Bool) (lost : List Nat) (s : State) :
    Host.Outcome State Fault Refusal :=
  finish s
    (match s.sto.running target with
     | some o =>
       if o.kind = .read && s.rst.dataUp then
         match s.sto.log.find? (fun p => p.logical == o.obj) with
         | some p =>
           let gone := (List.range p.pkts.length).filterMap
             (fun i => if lost.contains i then p.pkts[i]? else none)
           let left := p.pkts.filter (fun k => !gone.contains k)
           let t := { s with sto := { (s.sto.endOp target).resume (target / 8) with
             rdCorr := bumpBy s.sto.rdCorr corrected
             log := s.sto.log.map (fun (x : Page) =>
               if x.logical = p.logical then { x with pkts := left } else x)
             reads := s.sto.reads.map (fun (m : MireRead) =>
               { m with loaded := insAsc m.loaded p.logical }) } }
           let t := t.reportStorageLoss p.mtEra gone
           let t := if weak then (t.growBad target p.block).relocate target p.block else t
           let t := if weak && (t.targetAt target).worn then t.retire target else t
           (if o.prio = 3 then t.restage { p with pkts := left } else t).stoWatch
         | none => { s with sto := s.sto.endOp target }
       else s
     | none => s)

/-! ## Timeouts, channel resets, drain faults, retirement -/

/-- The operation a target lost goes again elsewhere (Table 19.6). -/
def State.requeue (s : State) (n : Nat) : State :=
  { s with sto := { s.sto with
    ops := (s.sto.ops.filter (fun o => !(o.target == n && o.running && o.kind == .program))).map
      (fun o => if o.target = n then { o with running := false, paused := false } else o)
    pages := s.sto.pages.map (fun (p : Page) =>
      if p.target = n ∧ (p.state = .programming ∨ p.state = .paused) then
        { p with state := .queued } else p) } }

/-- Core clocks in one hour (R519). -/
def clocksPerHour : Nat := 720000000000

/-- TARGET_TIMEOUT: RBn busy beyond twice the maximum time (R516, R519): the channel is reset and the
third timeout within an hour retires the target. The wrapper cuts what the channel's other targets do
too (R143, Table 6.6). -/
def execTargetTimeout (target : Nat) (s : State) : Host.Outcome State Fault Refusal :=
  finish s
    (if s.rst.dataUp && (s.sto.running target).isSome then
      let t := (List.range 8).foldl (fun t i => t.requeue (8 * (target / 8) + i)) s
      let t := t.modTarget target (fun x =>
        { x with timeouts := s.clk :: x.timeouts.filter (fun c => s.clk - c ≤ clocksPerHour) })
      let t := { t with sto := { t.sto with
        timeoutCnt := bump t.sto.timeoutCnt
        chanReset := insAsc t.sto.chanReset target } }
      let t := t.stoFlag 4#32
      (if 3 ≤ (t.targetAt target).timeouts.length then t.retire target else t).stoWatch
    else s)

/-- CHANNEL_RESET_END: RBn reports ready, or 10 ms have passed and the target is retired (R519). -/
def execChannelResetEnd (target : Nat) (ready : Bool) (s : State) :
    Host.Outcome State Fault Refusal :=
  finish s
    (if s.sto.chanReset.contains target then
      let t := { s with sto := { s.sto with chanReset := s.sto.chanReset.filter (· != target) } }
      (if ready then t else t.retire target).stoWatch
    else s)

/-- Core clocks of a drain's reset, 2 µs (Table 6.6). -/
def drainResetClocks : Nat := 400

/-- DRAIN_FAULT: a drain detects an internal fault, is reset for 2 µs and restarts its transfer from the
source (R143, R504). -/
def execDrainFault (drain : Nat) (s : State) : Host.Outcome State Fault Refusal :=
  finish s
    (if s.rst.dataUp && drain < 16 then
      let t := { s with sto := { s.sto with
        drainRst := bump s.sto.drainRst
        drainReset := tput s.sto.drainReset drain (s.clk + drainResetClocks) } }
      if drain < 4 then (List.range 8).foldl (fun t i => t.requeue (8 * drain + i)) t else t
    else s)

/-- RATE_MEASURE: each second, the write rate in MB/s when every healthy target has been programming
class 1 pages throughout (R520). -/
def execRateMeasure (busy : Bool) (mbps : Nat) (s : State) : Host.Outcome State Fault Refusal :=
  finish s { s with sto :=
    if busy then { s.sto with rate := min mbps 65535, measured := true }
    else { s.sto with measured := false } }

/-- MAP_CHECKPOINT: a map checkpoint is written to the system area when it is due (R511). -/
def execMapCheckpoint (s : State) : Host.Outcome State Fault Refusal :=
  finish s
    (if s.translates && s.sto.ckptDue then
      { s with sto := { s.sto with sinceCkpt := 0, ckptDue := false } }
    else s)

/-- PAGE_BUFFER_CLOSE: a page buffer is full or has waited arm.mire_pad_ms (R506). -/
def execPageBufferClose (page : Nat) (s : State) : Host.Outcome State Fault Refusal :=
  finish s (if s.rst.dataUp then (s.closePage page).stoWatch else s)

/-! ## Mire commands (Table 22.4) -/

/-- Commands that need a READY Mire (R512). -/
def State.mireReady (s : State) : Bool :=
  s.sto.state == .ready || s.sto.state == .commit || s.sto.state == .failed

/-- Pages that hold packets of a queue, staged and in the log; a page still staged after its
confirmation counts once. -/
def Sto.holding (t : Sto) : List Page :=
  t.pages.filter (fun p => p.state != .confirmed) ++ t.log

/-- The SEQ lies in a range. -/
def inRange (first : Word) (count : Nat) (seq : Word) : Bool := (seq - first).toNat < count

/-- Packets of a queue in a range that the Mire holds, in SEQ order from the first. -/
def Sto.held (t : Sto) (qid : Nat) (first : Word) (count : Nat) : List Packet :=
  sortBy (fun a b => (a.seq - first).toNat < (b.seq - first).toNat)
    ((t.holding.flatMap (fun p => p.pkts)).filter
      (fun k => k.qid == qid && inRange first count k.seq))

/-- MIRE_READ (R521): it starts; its packets reach the ring with HDR_PACKET_WRITE. -/
def execMireRead (r : Req) (qid : Nat) (first : Word) (count ring : Nat) (s : State) :
    Host.Outcome State Fault Refusal :=
  umser r 0x0801 { long := true, needs := [7] } s fun s =>
    if !s.mireReady then s.refuse r 0x0801 stNotReady 7
    else if !streamOk qid then s.refuse r 0x0801 stRange 0x20
    else if count = 0 ∨ 16777216 < count then s.refuse r 0x0801 stRange 0x28
    else if 64 ≤ ring then s.refuse r 0x0801 stRange 0x2C
    else if (s.hdrAt ring).state != .opened then s.refuse r 0x0801 stNotReady 0x2C
    else if 16 ≤ s.sto.reads.length || s.sto.state == .commit then s.refuse r 0x0801 stBusy
    else
      let held := s.sto.held qid first count
      let lost := (s.sto.lostPkts.filter (fun e => e.1 == qid && inRange first count e.2)).length
      let m : MireRead :=
        { mbx := r.mbx, tag := r.tag, qid := qid, first := first, count := count, ring := ring
          pos := 0, delivered := 0, absent := count - held.length - lost, lost := lost, gap := false
          loaded := [] }
      let reads := (s.sto.log.filter (fun p => p.pkts.any (fun k =>
          k.qid == qid && inRange first count k.seq))).map (fun p =>
        ({ kind := .read, prio := 2, target := p.target, obj := p.logical, running := false
           paused := false } : NandOp))
      let t := s.defer r 0x0801 qid ring 0
      if held.isEmpty then
        (s.ok r 0x0801 (leBytes 4 0 ++ leBytes 4 m.absent ++ leBytes 4 m.lost) []).raise 0xA65
      else { t with sto := { t.sto with reads := t.sto.reads ++ [m], ops := t.sto.ops ++ reads } }

/-- Erase, at class 3, each block whose pages are all free; relocate the live pages of a block that
is free to 75 % (R514). -/
def State.reclaim (s : State) : State :=
  let blocks := s.sto.targets.flatMap (fun e =>
    (e.2.used.filter (fun b => b != e.2.block || e.2.pagesPerBlock ≤ e.2.written)).map
      (fun b => (e.1, b)))
  blocks.foldl (fun t nb =>
    let live := t.sto.log.filter (fun p => p.target == nb.1 && p.block == nb.2)
    let op : NandOp := { kind := .erase, prio := 3, target := nb.1, obj := nb.2, running := false
                         paused := false }
    if live.isEmpty then
      if t.sto.ops.any (fun o => o.kind == .erase && o.target == nb.1 && o.obj == nb.2) then t
      else { t with sto := { t.sto with ops := t.sto.ops ++ [op] } }
    else if 4 * live.length ≤ (t.targetAt nb.1).pagesPerBlock &&
        !t.sto.ops.any (fun o => o.prio == 3 && o.target == nb.1 &&
          live.any (fun p => p.logical == o.obj)) then t.relocate nb.1 nb.2
    else t) s

/-- Release packets that pass a test: a page whose packets are all released is free; a read in
progress keeps what it has not delivered (R514, R522). -/
def State.release (s : State) (gone : Page → Packet → Bool) : State × Nat :=
  let cut (p : Page) : Page := { p with pkts := p.pkts.filter (fun k => !gone p k) }
  let out := s.sto.holding.flatMap (fun p => p.pkts.filter (gone p))
  let keep := out.filter (fun k => s.sto.reads.any (fun m =>
    m.qid == k.qid && inRange m.first m.count k.seq && m.pos ≤ (k.seq - m.first).toNat))
  let t := { s with sto := { s.sto with
    pages := s.sto.pages.map cut
    log := (s.sto.log.map cut).filter (fun p => !p.pkts.isEmpty)
    releasedHeld := s.sto.releasedHeld ++ keep } }
  (t.reclaim.stoWatch, out.length)

/-- MIRE_RELEASE (R522). -/
def execMireRelease (r : Req) (mode qid : Nat) (seq : Word) (mt : DWord) (s : State) :
    Host.Outcome State Fault Refusal :=
  umser r 0x0802 { needs := [7] } s fun s =>
    if !s.mireReady then s.refuse r 0x0802 stNotReady 7
    else if 1 < mode then s.refuse r 0x0802 stRange 0x20
    else if mode = 0 && !streamOk qid || mode = 1 && qid != 0 then s.refuse r 0x0802 stRange 0x24
    else
      let d := s.release (fun p k =>
        if mode = 0 then k.qid == qid && seqLe k.seq seq
        else p.mt != mt && mtLe p.mt mt)
      d.1.ok r 0x0802 (leBytes 4 d.2) []

/-- The MT of the page that holds a packet. -/
def Sto.pageMt (t : Sto) (qid : Nat) (seq : Word) : DWord :=
  match t.holding.find? (fun p => p.pkts.any (fun k => k.qid == qid && k.seq == seq)) with
  | some p => p.mt
  | none => 0#64

/-- MIRE_QUERY (R521): up to 64 runs from a SEQ on. -/
def execMireQuery (r : Req) (qid : Nat) (start : Word) (s : State) :
    Host.Outcome State Fault Refusal :=
  umser r 0x0803 { needs := [7] } s fun s =>
    if !s.mireReady then s.refuse r 0x0803 stNotReady 7
    else if !streamOk qid then s.refuse r 0x0803 stRange 0x20
    else
      let runs := runsOf ((s.sto.held qid start (2 ^ 31)).map (fun k => k.seq))
      let out := (runs.take 64).flatMap (fun x =>
        leBytes 4 x.first.toNat ++ leBytes 4 x.last.toNat ++
        leBytes 8 (s.sto.pageMt qid x.first).toNat ++ leBytes 8 (s.sto.pageMt qid x.last).toNat)
      s.ok r 0x0803 (leBytes 1 (min 64 runs.length) ++ leBytes 1 (b2n (decide (64 < runs.length)))) out

/-- STATE code of Table 19.13. -/
def StoState.code (t : StoState) : Nat :=
  match t with
  | .none => 0 | .scanning => 1 | .unformatted => 2 | .ready => 3 | .formatting => 4
  | .commit => 5 | .failed => 6

/-- STO_STATUS (Table 19.13). -/
def State.stoStatus (s : State) : Word :=
  at32 s.sto.fillPct 16 ||| at32 s.sto.healthyCount 8 ||| bitAt s.sto.intakeHeld 6 |||
  bitAt s.sto.full 5 ||| bitAt s.sto.nearFull 4 ||| bitAt (!s.sto.reads.isEmpty) 3 |||
  at32 s.sto.state.code 0

/-- STO_CAP and STO_FREE in MiB. -/
def Sto.capMiB (t : Sto) : Nat := t.logPages / 64
def Sto.freeMiB (t : Sto) : Nat := (t.logPages - t.log.length) / 64

/-- The 16 bytes of a target (R579). -/
def Target.bytes (t : Target) (n : Nat) : List Byte :=
  leBytes 1 (n / 8) ++ leBytes 1 (n % 8) ++
  leBytes 1 (b2n t.fitted + 2 * b2n t.healthy + 4 * b2n t.retired) ++ leBytes 1 t.luns ++
  leBytes 4 (t.blocks - t.bad.length) ++ leBytes 4 t.grown ++ leBytes 2 t.spread ++ leBytes 2 0

/-- MIRE_STATUS_READ (R579). -/
def execMireStatusRead (r : Req) (s : State) : Host.Outcome State Fault Refusal :=
  umser r 0x0805 {} s fun s =>
    s.ok r 0x0805
      (leBytes 4 s.stoStatus.toNat ++ leBytes 4 s.sto.capMiB ++ leBytes 4 s.sto.freeMiB)
      ((List.range 32).flatMap (fun n => (s.targetAt n).bytes n))

/-- MIRE_TARGET_RETIRE (R519, R579). -/
def execMireTargetRetire (r : Req) (channel target : Nat) (s : State) :
    Host.Outcome State Fault Refusal :=
  umser r 0x0806 { needs := [7] } s fun s =>
    if !s.mireReady then s.refuse r 0x0806 stNotReady 7
    else if 4 ≤ channel then s.refuse r 0x0806 stRange 0x20
    else if 8 ≤ target ∨ !(s.targetAt (8 * channel + target)).fitted then
      s.refuse r 0x0806 stRange 0x21
    else ((s.retire (8 * channel + target)).stoWatch).ok r 0x0806 [] []

/-! ## The Mire at start (R508, R512) -/

/-- Attach a target the scan found; one outside the limits is not used and a record is written
(R508). What the system area keeps of it stands. -/
def State.attach (s : State) (n : NandScan) : State :=
  let old := s.targetAt n.target
  if n.inLimits then
    s.modTarget n.target (fun _ => { old with
      fitted := true
      healthy := !old.retired
      luns := n.luns
      blocks := n.blocks
      pagesPerBlock := n.pagesPerBlock
      tprogUs := n.tprogUs
      bad := n.factoryBad.foldl insAsc old.bad })
  else
    (((s.modTarget n.target (fun _ => { old with fitted := false })).stoFlag 0x400#32).log
      { code := 0x4601, source := 0x6000 + n.target })

/-- W before the first measurement, MB/s: N × 16,384 B / tPROG × 0.8 (R520). -/
def Sto.defaultRate (t : Sto) : Nat :=
  let tp := lmax ((t.targets.filter (fun e => e.2.usable)).map (fun e => e.2.tprogUs))
  if tp = 0 then 0 else t.healthyCount * 16384 * 8 / (10 * tp)

/-- The state the Mire takes when GLB_READY.MIRE first reads 1 (R512). -/
def State.mireState (s : State) : State :=
  if s.noMire then { s with sto := { s.sto with state := .none } }
  else if s.sto.formatted && s.sto.own then
    { s with sto := { s.sto with state := if s.sto.healthyCount = 0 then .failed else .ready } }
  else
    let t := { s with sto := { s.sto with state := .unformatted } }
    if s.sto.formatted then t.stoFlag 0x1000#32 else t

end Sys2Proof.Machine
end

