-- ==== Sys2Proof/Machine/Host.lean ====
section
/-! DEFINITION. Mailboxes, fetching, host drain rings and the PCIe link (chapter 20), and the checks
a request meets before its command's own (chapters 21 and 22). -/

namespace Sys2Proof.Machine

/-! ## Flags and counters of the host interface -/

/-- Set bits of HOST_FLAGS. -/
def State.hostFlag (s : State) (m : Word) : State :=
  { s with host := { s.host with flags := s.host.flags ||| m } }

/-- BAD_ACCESS (Table 20.5). -/
def State.badAccess (s : State) : State := s.hostFlag 0x40#32

/-- A read of host memory failed: CPL_ERR or CPL_TIMEOUT and HOST_CPL_ERR_CNT (Tables 20.3, 20.5). -/
def State.cplError (s : State) (k : HostRead) : State :=
  let t := { s with host := { s.host with cplErr := bump s.host.cplErr } }
  t.hostFlag (if k = .timeout then 4#32 else 8#32)

/-- 1 completion error, 2 timeout (Tables 20.9, 21.5). -/
def readCode (k : HostRead) : Nat :=
  match k with
  | .ok => 0
  | .error => 1
  | .timeout => 2

/-- The module can reach the memory of a port: the service window always, host memory while the
link is up and bus mastering is enabled. -/
def State.reaches (s : State) (p : Port) : Bool :=
  match p with
  | .service => true
  | .pcie => s.host.speed != 0 && s.host.busMaster

/-! ## Mailbox states (R533 to R537) -/

/-- A session ends: what it fetched is dropped and its commands run on without a response (R563). -/
def State.endSession (s : State) (n : Nat) : State :=
  { s with
    host := { s.host with
      fetched := s.host.fetched.filter (fun f => f.mbx != n)
      outst := s.host.outst.map (fun o : Outstanding =>
        if o.mbx = n then { o with orphan := true } else o) }
    twin := { s.twin with edits := s.twin.edits.filter (fun w => w.mbx != n) }
    misc := { s.misc with snaps := s.misc.snaps.filter (fun w => w.mbx != n) } }

/-- A mailbox enters RESET (Tables 20.8, 20.9). -/
def State.resetMbx (s : State) (n reason code : Nat) : State :=
  let t := (s.endSession n).modMbx n (fun m =>
    { m with state := .reset, reason := reason, code := BitVec.ofNat 16 code, setupBusy := false
             unsignalled := 0 })
  { t with host := { t.host with mbxRst := bump t.host.mbxRst } }

/-- The management plane restarts: every mailbox reads RESTARTING (R33). -/
def State.restarting (s : State) : Bool := s.rst.ctrlUp && !s.rst.mgmtUp

/-- A doorbell or tail write of a port reaches a mailbox: not in RESTARTING, and not from the other
port (R534). -/
def State.doorbell (s : State) (port : Port) (n : Nat) (body : Mbx → State) : State :=
  let m := s.mbxAt n
  if 256 ≤ n ∨ s.restarting then s
  else if m.owned && m.port != port then s.badAccess
  else body m

/-- RSP_HEAD (R536): the host returns response slots. -/
def State.rspHead (s : State) (port : Port) (mbx : Nat) (arg : BitVec 28) : State :=
  s.doorbell port mbx fun m =>
    if m.state = .opened ∨ m.state = .closing then
      let head := arg.setWidth 16
      s.modMbx mbx (fun m =>
        { m with rspHead := head, responses := m.responses.drop (head - m.rspHead).toNat })
    else s.badAccess

/-- RSP_HEAD (R536): the host returns response slots. -/
def execRspHead (port : Port) (mbx : Nat) (arg : BitVec 28) (s : State) :
    Host.Outcome State Fault Refusal := finish s (s.rspHead port mbx arg)

/-- SETUP_LO (Table 20.7): setup block address bits 33:6. -/
def State.setupLo (s : State) (port : Port) (mbx : Nat) (arg : BitVec 28) : State :=
  s.doorbell port mbx fun m =>
    if m.state = .closed then
      s.modMbx mbx (fun m => { m with setupAddr := arg.setWidth 64 <<< 6 })
    else s.badAccess

/-- SETUP_LO (Table 20.7): setup block address bits 33:6. -/
def execSetupLo (port : Port) (mbx : Nat) (arg : BitVec 28) (s : State) :
    Host.Outcome State Fault Refusal := finish s (s.setupLo port mbx arg)

/-- SETUP_HI (Table 20.7, R535): address bits 61:34; the setup starts and the mailbox belongs to the
port. -/
def State.setupHi (s : State) (port : Port) (mbx : Nat) (arg : BitVec 28) : State :=
  s.doorbell port mbx fun m =>
    if m.state = .closed then
      s.modMbx mbx (fun m =>
        { m with
          setupAddr := (m.setupAddr.setWidth 34).setWidth 64 ||| (arg.setWidth 64 <<< 34)
          setupBusy := true, port := port, owned := true })
    else s.badAccess

/-- SETUP_HI (R535). -/
def execSetupHi (port : Port) (mbx : Nat) (arg : BitVec 28) (s : State) :
    Host.Outcome State Fault Refusal := finish s (s.setupHi port mbx arg)

/-- The setup block's checks: signature, sizes, alignment, reserved fields (R535, Table 20.10). -/
def setupOk (b : BitVec 512) : Bool :=
  bits b 31 0 == 0x3158424D && 4 ≤ bits b 39 32 && bits b 39 32 ≤ 12 && 4 ≤ bits b 47 40 &&
  bits b 47 40 ≤ 12 && bits b 55 49 == 0 && bits b 63 56 == 0 &&
  bits b 75 64 == 0 && bits b 127 126 == 0 && bits b 139 128 == 0 && bits b 191 190 == 0 &&
  bits b 194 192 == 0 && bits b 255 254 == 0 && 1 ≤ bits b 271 256 && bits b 271 256 ≤ 256 &&
  bits b 287 272 ≤ 1000 && bits b 511 288 == 0

/-- 64 bytes of the service window as one value. -/
def HostIf.winBlock (h : HostIf) (a : Nat) : BitVec 512 := BitVec.ofNat 512 (ofLe (h.winRead a 64))

/-- A mailbox opens with its four indices 0 (R535). -/
def Mbx.opening (m : Mbx) (b : BitVec 512) : Mbx :=
  { m with
    state := .opened, reason := 0, code := 0#16, setupBusy := false
    reqLog2 := bits b 39 32, rspLog2 := bits b 47 40, irq := b.getLsbD 48
    reqBase := b.extractLsb' 64 64, rspBase := b.extractLsb' 128 64
    shadow := b.extractLsb' 192 64, modN := bits b 271 256, modUs := bits b 287 272
    reqHead := 0#16, reqTail := 0#16, rspHead := 0#16, rspTail := 0#16, unsignalled := 0
    shadowWord := 0#32, responses := [] }

/-- SETUP_BLOCK_CHECK (R535): the block is read and the mailbox enters OPEN or RESET. The service
port's block is what the service window holds. -/
def execSetupBlockCheck (mbx : Nat) (read : HostRead) (block : BitVec 512) (s : State) :
    Host.Outcome State Fault Refusal :=
  let m := s.mbxAt mbx
  let block := if m.port = .service then s.host.winBlock m.setupAddr.toNat else block
  finish s
    (if s.rst.mgmtUp && m.setupBusy && m.state == .closed && s.reaches m.port then
      if m.port = .pcie && read != .ok then
        ((s.cplError read).resetMbx mbx 6 stHostErr).hostFlag 0x100#32
      else if setupOk block then s.modMbx mbx (fun m => m.opening block)
      else (s.resetMbx mbx 6 stRange).hostFlag 0x100#32
    else s)

/-- CLOSE (R537): fetching stops; accepted commands run to their end without a response. -/
def State.closeMbx (s : State) (port : Port) (mbx : Nat) : State :=
  s.doorbell port mbx fun m =>
    if m.state = .opened then
      (s.endSession mbx).modMbx mbx (fun m => { m with state := .closing, unsignalled := 0 })
    else s.badAccess

/-- CLOSE (R537). -/
def execClose (port : Port) (mbx : Nat) (s : State) : Host.Outcome State Fault Refusal :=
  finish s (s.closeMbx port mbx)

/-- MAILBOX_CLOSED (R537): within 1 ms the mailbox is CLOSED. -/
def execMailboxClosed (mbx : Nat) (s : State) : Host.Outcome State Fault Refusal :=
  finish s
    (if (s.mbxAt mbx).state = .closing then
      s.modMbx mbx (fun m => { m with state := .closed, owned := false })
    else s)

/-- ACK_RESET (Table 20.7). -/
def State.ackReset (s : State) (port : Port) (mbx : Nat) : State :=
  s.doorbell port mbx fun m =>
    if m.state = .reset then
      s.modMbx mbx (fun m =>
        { m with state := .closed, reason := 0, code := 0#16, owned := false })
    else s.badAccess

/-- ACK_RESET (Table 20.7). -/
def execAckReset (port : Port) (mbx : Nat) (s : State) : Host.Outcome State Fault Refusal :=
  finish s (s.ackReset port mbx)

/-- A tail beyond the ring faults the mailbox with code 3 (R536, Table 20.5). -/
def State.ringFault (s : State) (n code : Nat) : State := (s.resetMbx n 3 code).hostFlag 0x20#32

/-- MBX_TAIL_WRITE (R536). -/
def State.tailWrite (s : State) (port : Port) (mbx : Nat) (value : Word) : State :=
  s.doorbell port mbx fun m =>
    let tail := value.setWidth 16
    let t := s.modMbx mbx (fun m => { m with reqTail := tail })
    if m.state = .opened ∧ 2 ^ m.reqLog2 < (tail - m.reqHead).toNat then t.ringFault mbx 3 else t

/-- MBX_TAIL_WRITE (R536). -/
def execMbxTailWrite (port : Port) (mbx : Nat) (value : Word) (s : State) :
    Host.Outcome State Fault Refusal := finish s (s.tailWrite port mbx value)

/-! ## Fetching and the first checks (R555, Table 21.5) -/

/-- A field of ARGS: its offset, its size in bytes and how many of its low bits a value may use. -/
structure ArgField where
  off : Nat
  size : Nat
  used : Nat

/-- A field all of whose bits are used. -/
def af (off size : Nat) : ArgField := ⟨off, size, 8 * size⟩

/-- A FIG and a QID (R566). -/
def afFig (off : Nat) : ArgField := ⟨off, 2, 12⟩
def afQid (off : Nat) : ArgField := ⟨off, 4, 18⟩

/-- Length of a command's input buffer: none, fixed, or a count in ARGS times an entry's size,
padded to a multiple of 8 (R567). -/
inductive InLen where
  | none
  | fixed (n : Nat)
  | times (off size entry : Nat)

/-- How a command's descriptor is laid out (chapter 22). -/
structure OpDesc where
  opcode : Nat
  fields : List ArgField
  inp : InLen := .none
  out : Bool := false
  set : Bool := false

/-- Classes 0x01 to 0x04 (Tables 22.1 to 22.3). -/
def opsA : List OpDesc := [
  { opcode := 0x0101, fields := [], out := true },
  { opcode := 0x0102, fields := [af 0 2] },
  { opcode := 0x0103, fields := [af 0 1, af 1 1, af 2 2, af 4 2, af 6 2, ⟨8, 1, 1⟩, af 0x10 8] },
  { opcode := 0x0104, fields := [af 0 1] },
  { opcode := 0x0105, fields := [af 0 1, af 1 1], inp := .times 1 1 4 },
  { opcode := 0x0106, fields := [af 1 1], inp := .times 1 1 4 },
  { opcode := 0x0107, fields := [af 0 1, af 1 1], out := true },
  { opcode := 0x0201, fields := [afFig 0, af 2 1, afFig 4, af 6 1], inp := .times 6 1 8 },
  { opcode := 0x0202, fields := [], out := true, set := true },
  { opcode := 0x0210, fields := [af 0 2, af 2 2], out := true },
  { opcode := 0x0211, fields := [af 0 2, af 2 2], out := true },
  { opcode := 0x0301, fields := [af 0 1], inp := .fixed 256 },
  { opcode := 0x0302, fields := [af 0 1, af 1 1], out := true, set := true },
  { opcode := 0x0303, fields := [af 0 1, af 1 1, af 2 2], inp := .times 2 2 1 },
  { opcode := 0x0312, fields := [af 0 1, af 1 1], out := true },
  { opcode := 0x0401, fields := [af 0 2, af 2 1], inp := .times 2 1 32 },
  { opcode := 0x0402, fields := [af 0 2, af 2 1], out := true, set := true },
  { opcode := 0x0403, fields := [afFig 0], inp := .fixed 64 },
  { opcode := 0x0404, fields := [afFig 0] },
  { opcode := 0x0405, fields := [afFig 0, af 2 1] },
  { opcode := 0x0406, fields := [af 0 2, af 2 2], out := true }]

/-- Classes 0x05 to 0x09 (Tables 22.3 to 22.5). -/
def opsB : List OpDesc := [
  { opcode := 0x0501, fields := [⟨0, 1, 2⟩, af 4 4, af 8 8] },
  { opcode := 0x0502, fields := [⟨0, 1, 1⟩, af 4 4] },
  { opcode := 0x0503, fields := [] },
  { opcode := 0x0504, fields := [] },
  { opcode := 0x0601, fields := [af 0 1], inp := .times 0 1 8 },
  { opcode := 0x0602, fields := [af 0 1], inp := .times 0 1 4, out := true, set := true },
  { opcode := 0x0603, fields := [af 0 2, af 2 1], out := true },
  { opcode := 0x0701, fields := [afQid 0, af 4 1], out := true },
  { opcode := 0x0702, fields := [afQid 0] },
  { opcode := 0x0703, fields := [af 0 1, afQid 4] },
  { opcode := 0x0704, fields := [afQid 0, af 4 4] },
  { opcode := 0x0705, fields := [afQid 0, af 4 1], inp := .times 4 1 8 },
  { opcode := 0x0706, fields := [afQid 0, af 4 1], out := true },
  { opcode := 0x0801, fields := [afQid 0, af 4 4, af 8 4, af 0xC 1] },
  { opcode := 0x0802, fields := [af 0 1, afQid 4, af 8 4, af 0x10 8] },
  { opcode := 0x0803, fields := [afQid 0, af 4 4], out := true },
  { opcode := 0x0804, fields := [af 0 1] },
  { opcode := 0x0805, fields := [], out := true },
  { opcode := 0x0806, fields := [af 0 1, af 1 1] },
  { opcode := 0x0901, fields := [] },
  { opcode := 0x0902, fields := [af 0 1, af 1 1] },
  { opcode := 0x0903, fields := [] }]

/-- Classes 0x0A to 0x10 (Tables 22.6 to 22.8). -/
def opsC : List OpDesc := [
  { opcode := 0x0A01, fields := [af 0 1, af 1 1, af 2 1], inp := .times 2 1 16 },
  { opcode := 0x0A02, fields := [af 0 1], out := true },
  { opcode := 0x0A03, fields := [af 0 1, af 1 1, af 2 1, af 3 1, af 4 2, af 6 1] },
  { opcode := 0x0A04, fields := [af 0 1, af 1 1] },
  { opcode := 0x0A05, fields := [af 0 1, af 1 1] },
  { opcode := 0x0A06, fields := [af 0 1, afFig 2, ⟨4, 4, 18⟩, af 8 4, af 0x10 8] },
  { opcode := 0x0B01, fields := [afFig 0, af 2 2, af 8 8] },
  { opcode := 0x0B02, fields := [af 0 2], out := true },
  { opcode := 0x0B03, fields := [afFig 0] },
  { opcode := 0x0C01, fields := [afFig 0], inp := .fixed 80 },
  { opcode := 0x0C02, fields := [afFig 0, ⟨2, 1, 4⟩], out := true },
  { opcode := 0x0C03, fields := [af 0 1, af 1 1], inp := .fixed 512 },
  { opcode := 0x0C04, fields := [af 0 1, af 1 1], out := true },
  { opcode := 0x0C05, fields := [], out := true, set := true },
  { opcode := 0x0C06, fields := [afFig 0, af 2 1, af 3 1, af 4 1, af 5 1, af 6 1, af 8 4,
      ⟨0xC, 4, 24⟩, af 0x10 4, af 0x18 8] },
  { opcode := 0x0C07, fields := [af 0 1] },
  { opcode := 0x0D01, fields := [af 0 1, ⟨1, 1, 4⟩] },
  { opcode := 0x0D02, fields := [af 0 1] },
  { opcode := 0x0D03, fields := [af 0 1] },
  { opcode := 0x0D04, fields := [af 0 1] },
  { opcode := 0x0D05, fields := [af 0 1] },
  { opcode := 0x0D06, fields := [af 0 1, af 1 1], out := true },
  { opcode := 0x0E01, fields := [af 0 8, af 8 4, af 0x10 8, af 0x18 4] },
  { opcode := 0x0E02, fields := [⟨0, 1, 4⟩] },
  { opcode := 0x0E03, fields := [] },
  { opcode := 0x0E04, fields := [af 0 8, af 8 4, af 0xC 4] },
  { opcode := 0x0E05, fields := [] },
  { opcode := 0x0E06, fields := [af 0 1] },
  { opcode := 0x0E07, fields := [], out := true },
  { opcode := 0x0F01, fields := [af 0 1], inp := .times 0 1 4 },
  { opcode := 0x0F02, fields := [af 0 1, af 1 1, af 2 1], inp := .times 2 1 2 },
  { opcode := 0x0F03, fields := [af 0 1, af 2 2, af 4 2], out := true },
  { opcode := 0x0F04, fields := [af 0 1] },
  { opcode := 0x1001, fields := [af 0 4, af 4 2, ⟨6, 1, 1⟩], out := true },
  { opcode := 0x1002, fields := [], out := true },
  { opcode := 0x1003, fields := [⟨0, 4, 24⟩, ⟨4, 1, 1⟩, af 5 1] },
  { opcode := 0x1004, fields := [af 0 2] }]

/-- The layout of an opcode; none when it is unknown (check 1). -/
def opDesc (opcode : Nat) : Option OpDesc :=
  (opsA ++ opsB ++ opsC).find? (fun o => o.opcode == opcode)

/-- Bits of ARGS that the fields leave reserved: the first byte offset in ARGS that breaks a field's
format or belongs to no field. -/
def badArg (d : BitVec 512) (fields : List ArgField) : Option Nat :=
  (List.range 32).find? (fun i =>
    match fields.find? (fun f => f.off ≤ i && i < f.off + f.size) with
    | none => bits d (8 * (0x20 + i) + 7) (8 * (0x20 + i)) != 0
    | some f => i == f.off && f.used < 8 * f.size &&
        bits d (8 * (0x20 + f.off + f.size) - 1) (8 * (0x20 + f.off) + f.used) != 0)

/-- The input length the fields imply. -/
def InLen.bytes (k : InLen) (d : BitVec 512) : Nat :=
  match k with
  | .none => 0
  | .fixed n => n
  | .times off size entry =>
    8 * cdiv (entry * bits d (8 * (0x20 + off + size) - 1) (8 * (0x20 + off))) 8

/-- The input buffer is named in the entry. -/
def InLen.needed (k : InLen) : Bool :=
  match k with
  | .none => false
  | _ => true

/-- Check 2 of Table 21.5: the byte offset of the first bad field. -/
def badField (d : BitVec 512) (o : OpDesc) : Option Nat :=
  let inAddr := bits d 127 64
  let inLen := bits d 159 128
  let outLen := bits d 191 160
  let outAddr := bits d 255 192
  let want := o.inp.bytes d
  if bits d 39 34 != 0 || (d.getLsbD 33 && !o.set) then some 0x04
  else if bits d 63 40 != 0 then some 0x05
  else if inAddr % 8 != 0 || 2 ^ 62 ≤ inAddr || (inAddr == 0 && want != 0) then some 0x08
  else if inLen % 8 != 0 || 65536 < inLen || (o.inp.needed && inLen != want) then some 0x10
  else if outLen % 8 != 0 || 65536 < outLen then some 0x14
  else if outAddr % 8 != 0 || 2 ^ 62 ≤ outAddr || (outAddr == 0 && o.out) then some 0x18
  else (badArg d o.fields).map (· + 0x20)

/-- A response slot is free (R536): commands without a response and responses not returned number
fewer than 2^RSP_LOG2. -/
def State.slotFree (s : State) (n : Nat) : Bool :=
  let m := s.mbxAt n
  (s.host.fetched.filter (fun f => f.mbx == n)).length + (s.outstOf n).length +
    (s.misc.snaps.filter (fun w => w.mbx == n)).length +
    (s.twin.edits.filter (fun w => w.mbx == n)).length + (m.rspTail - m.rspHead).toNat <
    2 ^ m.rspLog2

/-- Checks 1 to 3 of Table 21.5 on a fetched descriptor: its STATUS and DETAIL when one fails. -/
def firstChecks (d : BitVec 512) (port : Port) (input : HostRead) : Option (Nat × Nat) :=
  match opDesc (bits d 15 0) with
  | none => some (stBadOpcode, 0)
  | some o =>
    match badField d o with
    | some off => some (stBadDesc, off)
    | none =>
      if port = .pcie && o.inp.bytes d != 0 && input != .ok then some (stHostErr, readCode input)
      else none

/-- A descriptor is fetched: REQ_HEAD advances; it is answered when one of its first checks fails,
and waits to begin otherwise. -/
def State.fetched (s : State) (n : Nat) (d : BitVec 512) (input : HostRead) : State :=
  let s := s.modMbx n (fun m => { m with reqHead := m.reqHead + 1#16 })
  let f : Fetched :=
    { mbx := n, opcode := bits d 15 0, tag := d.extractLsb' 16 16, set := d.getLsbD 33
      barrier := d.getLsbD 32, outLen := bits d 191 160, outAddr := d.extractLsb' 192 64 }
  match firstChecks d (s.mbxAt n).port input with
  | some (st, detail) =>
    (if st = stHostErr then s.cplError input else s).answer
      ⟨n, f.opcode, f.tag, f.outLen, f.outAddr, s.mt.mt⟩ { status := st, detail := detail }
  | none => { s with host := { s.host with fetched := s.host.fetched ++ [f] } }

/-- REQUEST_FETCH (R536, R555). The service port's ring entry is what the service window holds. -/
def execRequestFetch (mbx : Nat) (ring : HostRead) (desc : BitVec 512) (input : HostRead)
    (s : State) : Host.Outcome State Fault Refusal :=
  let m := s.mbxAt mbx
  let desc :=
    if m.port = .service then s.host.winBlock (ringAddr m.reqBase m.reqLog2 m.reqHead) else desc
  finish s
    (if s.rst.mgmtUp && m.state == .opened && m.reqHead != m.reqTail && s.slotFree mbx &&
        s.reaches m.port then
      if m.port = .pcie && ring != .ok then (s.cplError ring).ringFault mbx (readCode ring)
      else s.fetched mbx desc input
    else s)

/-- IRQ_HOLDOFF_EXPIRY (R536, R540): MOD_US after the first unsignalled response or packet the
vector is raised. -/
def execIrqHoldoffExpiry (ring : Bool) (n : Nat) (s : State) : Host.Outcome State Fault Refusal :=
  finish s
    (if ring then
      let h := s.hdrAt n
      if h.unsignalled = 0 ∨ h.vector = 0xFFFF then s
      else
        let t := s.modHdr n (fun h => { h with unsignalled := 0 })
        { t with host := t.host.vecOf h.port h.vector }
    else
      let m := s.mbxAt n
      if m.irq && m.state == .opened && m.unsignalled != 0 then
        let t := s.modMbx n (fun m => { m with unsignalled := 0 })
        { t with host := t.host.vecOf m.port n }
      else s)

/-! ## Session information (R560) -/

/-- PORT as results give it. -/
def portCode (p : Port) : Nat :=
  match p with
  | .pcie => 0
  | .service => 1

/-- SES_INFO (R560, Table 22.1). -/
def execSesInfo (r : Req) (s : State) : Host.Outcome State Fault Refusal :=
  umser r 0x0101 {} s fun s =>
    let m := s.mbxAt r.mbx
    let mine := s.outstOf r.mbx
    s.ok r 0x0101
      (leBytes 1 2 ++ leBytes 1 0 ++ leBytes 1 r.mbx ++ leBytes 1 (portCode m.port) ++
        leBytes 1 m.reqLog2 ++ leBytes 1 m.rspLog2 ++ leBytes 2 mine.length ++
        leBytes 2 s.host.outst.length)
      (mine.flatMap (fun o => leBytes 2 o.tag.toNat ++ leBytes 2 o.opcode ++ leBytes 1 o.phase ++
        leBytes 3 0 ++ leBytes 8 o.mtAccept.toNat))

/-! ## Host drain rings (R540 to R542, R571, R572) -/

/-- A ring in use belongs to the other port (R571). -/
def Hdr.foreign (h : Hdr) (port : Port) : Bool := h.state != .closed && h.port != port

/-- What a drain has taken of a ring's queues goes back to them, undelivered (R542). -/
def State.giveBack (s : State) (ring : Nat) : State :=
  (s.hdrAt ring).bound.foldl (fun t q => t.modQue q (fun x => { x with taken := 0 })) s

/-- End the MIRE_READs into a ring that takes no more writes (Table 22.9). -/
def State.abortReads (s : State) (p : MireRead → Bool) : State :=
  let cut := s.sto.reads.filter p
  cut.foldl (fun t m => t.complete (fun o => o.opcode == 0x0801 && o.mbx == m.mbx && o.tag == m.tag)
      { status := stAborted
        result := leBytes 4 m.delivered ++ leBytes 4 m.absent ++ leBytes 4 m.lost })
    { s with sto := { s.sto with reads := s.sto.reads.filter (fun m => !p m) } }

/-- A ring closes for good: its HDR_CLOSE commands complete with the last line index written. -/
def State.closeRing (s : State) (ring : Nat) : State :=
  let last := (s.hdrAt ring).write - 1#32
  let t := (s.giveBack ring).modHdr ring (fun h =>
    { h with state := .closed, packets := [], flushBusy := false, unflushed := 0, unsignalled := 0 })
  (t.abortReads (fun m => m.ring == ring)).completeAll
    (fun o => o.opcode == 0x0104 && o.obj == ring)
    (fun _ => { status := stOk, result := leBytes 4 last.toNat })

/-- HDR_OPEN (R540, R571). -/
def execHdrOpen (r : Req) (ring log2 vector modN modUs : Nat) (auto : Bool) (base : BitVec 64)
    (s : State) : Host.Outcome State Fault Refusal :=
  umser r 0x0103 {} s fun s =>
    let h := s.hdrAt ring
    let port := (s.mbxAt r.mbx).port
    if 64 ≤ ring then s.refuse r 0x0103 stRange 0x20
    else if log2 < 6 ∨ 20 < log2 then s.refuse r 0x0103 stRange 0x21
    else if vector != 0xFFFF && (vector < 264 || 279 < vector) then s.refuse r 0x0103 stRange 0x22
    else if modN = 0 ∨ 256 < modN then s.refuse r 0x0103 stRange 0x24
    else if 1000 < modUs then s.refuse r 0x0103 stRange 0x26
    else if bits base 11 0 != 0 || bits base 63 62 != 0 then s.refuse r 0x0103 stRange 0x30
    else if h.foreign port || h.state == .opened || h.state == .closing then
      s.refuse r 0x0103 stBusy
    else
      let t := (s.giveBack ring).modHdr ring (fun h =>
        { h with
          state := .opened, log2 := log2, vector := vector, modN := modN, modUs := modUs
          auto := auto, base := base, port := port, write := 0#32, head := 0#32, packets := []
          flushBusy := false, unflushed := 0, unsignalled := 0 })
      t.ok r 0x0103 [] []

/-- HDR_CLOSE (Table 20.14): the ring closes after the flush read that follows its last packet. -/
def execHdrClose (r : Req) (ring : Nat) (s : State) : Host.Outcome State Fault Refusal :=
  umser r 0x0104 { long := true } s fun s =>
    let h := s.hdrAt ring
    if 64 ≤ ring then s.refuse r 0x0104 stRange 0x20
    else if h.foreign (s.mbxAt r.mbx).port then s.refuse r 0x0104 stBusy
    else
      let t := s.defer r 0x0104 ring 0 0
      if h.flushBusy || h.unflushed != 0 then
        (t.modHdr ring (fun h => { h with state := .closing })).abortReads (fun m => m.ring == ring)
      else t.closeRing ring

/-- A queue is bound to a ring other than this one. -/
def State.boundElsewhere (s : State) (ring qid : Nat) : Bool :=
  match s.boundTo qid with
  | none => false
  | some n => n != ring

/-- HDR_BIND (Table 20.14, R571): all its queues or none. -/
def execHdrBind (r : Req) (ring : Nat) (qids : List Nat) (s : State) :
    Host.Outcome State Fault Refusal :=
  umser r 0x0105 {} s fun s =>
    if 64 ≤ ring then s.refuse r 0x0105 stRange 0x20
    else if qids = [] ∨ 64 < qids.length then s.refuse r 0x0105 stRange 0x21
    else match (List.range qids.length).find? (fun i => !streamOk (qids.getD i 0)) with
      | some i => s.refuse r 0x0105 stRange (4 * i)
      | none =>
        if (s.hdrAt ring).foreign (s.mbxAt r.mbx).port || qids.any (s.boundElsewhere ring) then
          s.refuse r 0x0105 stBusy
        else
          let t := s.modHdr ring (fun h => { h with bound := qids.foldl insAsc h.bound })
          t.ok r 0x0105 [] []

/-- Unbind a queue: its balance becomes 0 (R486). -/
def State.unbind (s : State) (qid : Nat) : State :=
  match s.boundTo qid with
  | none => s
  | some n =>
    (s.modHdr n (fun h => { h with bound := h.bound.filter (· != qid) })).modQue qid
      (fun q => { q with credit := 0 })

/-- HDR_UNBIND (Table 20.14, R571). -/
def execHdrUnbind (r : Req) (qids : List Nat) (s : State) : Host.Outcome State Fault Refusal :=
  umser r 0x0106 {} s fun s =>
    if qids = [] ∨ 64 < qids.length then s.refuse r 0x0106 stRange 0x21
    else match (List.range qids.length).find? (fun i => !streamOk (qids.getD i 0)) with
      | some i => s.refuse r 0x0106 stRange (4 * i)
      | none => (qids.foldl State.unbind s).ok r 0x0106 [] []

/-- STATE of R572. -/
def RingState.code (k : RingState) : Nat :=
  match k with
  | .closed => 0
  | .opened => 1
  | .faulted => 2
  | .closing => 3

/-- The 32 bytes of a ring (R572). -/
def Hdr.bytes (h : Hdr) : List Byte :=
  leBytes 1 h.state.code ++ leBytes 1 h.log2 ++ leBytes 2 h.vector ++ leBytes 2 h.bound.length ++
  leBytes 1 (portCode h.port) ++ leBytes 1 (b2n h.auto) ++ leBytes 8 h.base.toNat ++
  leBytes 4 h.write.toNat ++ leBytes 4 h.head.toNat ++ leBytes 8 0

/-- HDR_STATUS_READ (R572). -/
def execHdrStatusRead (r : Req) (first count : Nat) (s : State) :
    Host.Outcome State Fault Refusal :=
  umser r 0x0107 {} s fun s =>
    if 64 ≤ first then s.refuse r 0x0107 stRange 0x20
    else if count = 0 ∨ 64 < first + count then s.refuse r 0x0107 stRange 0x21
    else s.ok r 0x0107 [] ((List.range count).flatMap (fun i => (s.hdrAt (first + i)).bytes))

/-- One line of a ring (R541): 56 bytes of words and the control word. -/
def lineBytes (phase : Bool) (ws : List (DWord × Nat)) : List Byte :=
  let control := nsum ((List.range ws.length).map (fun k =>
    (match ws[k]? with | some w => w.2 | none => 0) * 16 ^ k)) +
    ws.length * 2 ^ 60 + b2n phase * 2 ^ 63
  padTo 56 (ws.flatMap (fun w => leBytes 8 w.1.toNat)) ++ leBytes 8 control

/-- The lines of a packet's words from a line index on, into the service window. -/
def HostIf.writeLines (h : HostIf) (base log2 : Nat) : Nat → Nat → List (DWord × Nat) → HostIf
  | 0, _, _ => h
  | n + 1, line, ws =>
    (h.winWrite (base + 64 * (line % 2 ^ log2))
      (lineBytes (line / 2 ^ log2 % 2 == 0) (ws.take 7))).writeLines base log2 n (line + 1) (ws.drop 7)

/-- Write a packet to a ring: lines, index, vector (R541, R540). -/
def State.ringWrite (s : State) (ring : Nat) (p : Packet) (gap : Bool) : State :=
  let h := s.hdrAt ring
  let n := cdiv p.words 7
  let k : RingPacket :=
    { qid := p.qid, seq := p.seq, words := p.words, endLine := (h.write.toNat + n) % 2 ^ 32
      delivered := false }
  let signal := h.vector != 0xFFFF && (h.modN ≤ h.unsignalled + 1 || h.modUs == 0)
  let t := s.modHdr ring (fun h =>
    { h with
      write := h.write + BitVec.ofNat 32 n
      packets := h.packets ++ [k]
      unflushed := h.unflushed + 1
      unsignalled := if signal then 0 else h.unsignalled + 1 })
  let t := t.countPoison p.poison.length
  let t := match h.port with
    | .pcie => t
    | .service =>
      { t with host := t.host.writeLines h.base.toNat h.log2 n h.write.toNat (p.tagged gap) }
  if signal then { t with host := t.host.vecOf h.port h.vector } else t

/-- The ring takes a packet now: open, its memory in reach, lines free (R541). -/
def State.ringTakes (s : State) (ring words : Nat) : Bool :=
  let h := s.hdrAt ring
  s.rst.dataUp && h.state == .opened && s.reaches h.port &&
    (h.write - h.head).toNat + cdiv words 7 ≤ 2 ^ h.log2

/-- The next packet a bound queue can deliver: the balance allows it (R486). -/
def State.deliverable (s : State) (ring qid : Nat) : Option Packet :=
  let q := s.queAt qid
  match q.pkts[q.taken]? with
  | none => none
  | some p =>
    if (s.hdrAt ring).bound.contains qid && p.words ≤ q.credit then some p else none

/-- The packet of a read's range that comes next: staged, or on a log page already read, or kept for
the read after its release (R521, R522). -/
def State.readPacket (s : State) (m : MireRead) : Option Packet :=
  let left (k : Packet) : Bool :=
    k.qid == m.qid && inRange m.first m.count k.seq && m.pos ≤ (k.seq - m.first).toNat
  let staged := (s.sto.pages.filter (fun p => p.state != .confirmed)).flatMap (fun p => p.pkts)
  let read := (s.sto.log.filter (fun p => m.loaded.contains p.logical)).flatMap (fun p => p.pkts)
  let all := (staged ++ (s.sto.log.flatMap (fun p => p.pkts)) ++ s.sto.releasedHeld).filter left
  let next := sortBy (fun a b => (a.seq - m.first).toNat < (b.seq - m.first).toNat) all
  match next.head? with
  | none => none
  | some k => if staged.contains k || read.contains k || s.sto.releasedHeld.contains k then some k
    else none

/-- A read that has nothing left to deliver completes, and mire.read_done is raised (R521). -/
def State.readsDone (s : State) : State :=
  let past (m : MireRead) : Bool :=
    !(s.sto.holding.any (fun p => p.pkts.any (fun k => k.qid == m.qid &&
        inRange m.first m.count k.seq && m.pos ≤ (k.seq - m.first).toNat)) ||
      s.sto.releasedHeld.any (fun k => k.qid == m.qid && inRange m.first m.count k.seq &&
        m.pos ≤ (k.seq - m.first).toNat))
  let ended := s.sto.reads.filter past
  let reads := s.sto.reads.filter (fun m => !past m)
  let t := { s with sto := { s.sto with
    reads := reads
    releasedHeld := s.sto.releasedHeld.filter (fun k => reads.any (fun m =>
      m.qid == k.qid && inRange m.first m.count k.seq && m.pos ≤ (k.seq - m.first).toNat)) } }
  ended.foldl (fun t m =>
    (t.complete (fun o => o.opcode == 0x0801 && o.mbx == m.mbx && o.tag == m.tag)
      { status := stOk
        result := leBytes 4 m.delivered ++ leBytes 4 m.absent ++ leBytes 4 m.lost }).raise 0xA65) t

/-- Drain 15 writes the next packet of a read into its ring (R521). -/
def State.writeRead (s : State) (ring qid : Nat) : State :=
  match s.sto.reads.find? (fun m => m.ring == ring && m.qid == qid) with
  | none => s
  | some m =>
    match s.readPacket m with
    | none => s
    | some k =>
      if s.ringTakes ring k.words then
        let gap := m.gap || (k.seq - m.first).toNat != m.pos
        let t := s.ringWrite ring { k with mire := true } gap
        let next := { m with
          pos := (k.seq - m.first).toNat + 1, delivered := m.delivered + 1, gap := false }
        ({ t with sto := { t.sto with
            reads := t.sto.reads.map (fun x => if x = m then next else x) } }).readsDone
      else s

/-- HDR_PACKET_WRITE (R541): the next packet of a bound queue, else of a MIRE_READ, goes to the
ring. -/
def execHdrPacketWrite (ring qid : Nat) (s : State) : Host.Outcome State Fault Refusal :=
  finish s
    (match s.deliverable ring qid with
     | some p =>
       if s.ringTakes ring p.words then
         let gap := (s.queAt qid).gap
         (s.modQue qid (fun q =>
           { q with taken := q.taken + 1, pos := 0, gap := false, credit := q.credit - p.words
             })).ringWrite ring p gap
       else s
     | none => s.writeRead ring qid)

/-- FLUSH_READ_ISSUE (R542). -/
def execFlushReadIssue (ring : Nat) (s : State) : Host.Outcome State Fault Refusal :=
  let h := s.hdrAt ring
  finish s
    (if (h.state == .opened || h.state == .closing) && h.unflushed != 0 && !h.flushBusy &&
        s.reaches h.port then
      s.modHdr ring (fun h => { h with flushBusy := true, unflushed := 0 })
    else s)

/-- A queue's first packet is delivered, when it has the SEQ the ring took (R542). -/
def State.delivered (s : State) (k : RingPacket) : State :=
  match (s.queAt k.qid).pkts with
  | p :: rest =>
    if p.seq = k.seq ∧ (s.queAt k.qid).taken ≠ 0 then
      s.modQue k.qid (fun q => { q with pkts := rest, taken := q.taken - 1 })
    else s
  | [] => s

/-- The packets of a ring that a flush read in flight covers are delivered. -/
def State.flushed (s : State) (ring : Nat) : State :=
  let h := s.hdrAt ring
  let n := h.packets.length - h.unflushed
  let now := (h.packets.take n).filter (fun k => !k.delivered)
  let t := s.modHdr ring (fun h =>
    { h with
      flushBusy := false
      packets := (h.packets.take n).map (fun k : RingPacket => { k with delivered := true }) ++
        h.packets.drop n })
  now.foldl State.delivered t

/-- A ring faults (R542). -/
def State.faultRing (s : State) (ring : Nat) (k : HostRead) : State :=
  let t := (s.cplError k).giveBack ring
  let t := (t.modHdr ring (fun h =>
    { h with state := .faulted, flushBusy := false, unflushed := 0 })).hostFlag 0x10#32
  let t := t.abortReads (fun m => m.ring == ring)
  { t with host := { t.host with hdrFault := t.host.hdrFault ||| BitVec.twoPow 64 ring } }

/-- FLUSH_READ_DONE (R542). -/
def execFlushReadDone (ring : Nat) (read : HostRead) (s : State) :
    Host.Outcome State Fault Refusal :=
  let h := s.hdrAt ring
  finish s
    (if h.flushBusy then
      if read = .ok ∨ h.port = .service then
        let t := s.flushed ring
        if h.state = .closing ∧ h.unflushed = 0 then t.closeRing ring else t
      else
        let t := s.faultRing ring read
        if h.state = .closing then t.closeRing ring else t
    else s)

/-- Packets a head index has passed give their words back as credit when AUTO is set (R541). -/
def State.consumed (s : State) (ring : Nat) (head : Word) : State :=
  let h := s.hdrAt ring
  let gone (k : RingPacket) : Bool := seqLe (BitVec.ofNat 32 k.endLine) head
  let t := s.modHdr ring (fun h =>
    { h with head := head, packets := h.packets.filter (fun k => !(gone k && k.delivered)) })
  if h.auto then
    let passed := h.packets.filter (fun k => gone k && !seqLe (BitVec.ofNat 32 k.endLine) h.head)
    passed.foldl (fun t k =>
      if h.bound.contains k.qid then t.grant k.qid k.words else t) t
  else t

/-- HDR_HEAD_WRITE (R541). -/
def execHdrHeadWrite (ring : Nat) (value : Word) (s : State) : Host.Outcome State Fault Refusal :=
  finish s (if ring < 64 then s.consumed ring value else s)

/-! ## Link, function level reset, configuration (R530, R537, R148) -/

/-- Every PCIe mailbox in OPEN or CLOSING goes to RESET and every PCIe ring closes without a fault
(R537). -/
def State.pcieGone (s : State) (reason : Nat) : State :=
  let boxes := (s.host.mbx.filter (fun e => e.2.port == .pcie &&
    (e.2.state == .opened || e.2.state == .closing))).map (fun e => e.1)
  let rings := (s.host.hdr.filter (fun e => e.2.port == .pcie && e.2.state != .closed)).map
    (fun e => e.1)
  rings.foldl State.closeRing (boxes.foldl (fun t n => t.resetMbx n reason 0) s)

/-- The function's configuration and MSI-X state return to their PCIe reset values (log entry 14). -/
def HostIf.functionReset (h : HostIf) : HostIf :=
  { h with msixEn := false, busMaster := false, funcMask := false, msix := [], pba := [] }

/-- FUNCTION_LEVEL_RESET (R537). -/
def execFunctionLevelReset (s : State) : Host.Outcome State Fault Refusal :=
  finish s
    (if s.host.speed != 0 then
      let t := (s.pcieGone 4).hostFlag 2#32
      { t with host := t.host.functionReset }
    else s)

/-- PCIE_LINK_DOWN (R537): the link leaves L0 other than by PERSTn. -/
def execPcieLinkDown (s : State) : Host.Outcome State Fault Refusal :=
  finish s
    (if s.host.speed != 0 then
      let t := (s.pcieGone 5).hostFlag 1#32
      { t with host := { t.host.functionReset with speed := 0, width := 0 } }
    else s)

/-- PCIE_LINK_UP (R148, R530): not with the lanes in electrical idle (R138). -/
def execPcieLinkUp (speed width : Nat) (s : State) : Host.Outcome State Fault Refusal :=
  finish s
    (if s.rst.pll && s.rst.ctrlUp && !s.spiOnly && 1 ≤ speed && speed ≤ 4 &&
        (width == 1 || width == 2 || width == 4) then
      { s with host := { s.host with speed := speed, width := width } }
    else s)

/-- PCIE_CONFIG_WRITE (R139, R530): until step 5 of a start it is answered with completion retry status
and changes nothing; what waits in the pending bits goes out once it can. -/
def execPcieConfigWrite (msixEn busMaster funcMask : Bool) (s : State) :
    Host.Outcome State Fault Refusal :=
  finish s
    (if s.host.speed != 0 && s.rst.booted then
      { s with host :=
        ({ s.host with msixEn := msixEn, busMaster := busMaster, funcMask := funcMask }).flushPba }
    else s)

/-! ## Debug port (R546) -/

/-- EXTEST: accepted only while the control plane is in reset or under a test hold (R546). -/
def execExtest (on : Bool) (s : State) : Host.Outcome State Fault Refusal :=
  finish s
    (if !on || !s.rst.ctrlUp || s.rst.hold.isSome then
      { s with host := { s.host with dbg := { extest := on } } }
    else s)

end Sys2Proof.Machine
end

