-- ==== Sys2Proof/Machine/Fabric.lean ====
section
/-! DEFINITION. The event fabric's commands and happenings (chapter 16). -/

namespace Sys2Proof.Machine

/-! ## Codes (R438 to R440) -/

/-- How a code or a consumer ID stands: usable, not assigned, or an object that is absent. -/
inductive Standing where
  | fine
  | unassigned
  | absent (object : Nat)
  deriving DecidableEq, Repr

/-- A producer code (Tables 16.1, 16.2). -/
def State.producer (s : State) (code : Nat) : Standing :=
  if 0x10000 ≤ code then .unassigned
  else if 0x1000 ≤ code then .fine
  else if code < 0x800 then
    if 10 < code % 16 then .unassigned
    else if s.hasPort (code / 16) then .fine else .absent (code / 16)
  else if code < 0x900 then
    if 8 < code % 16 then .unassigned
    else if s.hasGrp (code / 16 % 16) then .fine else .absent (code / 16 % 16)
  else if code ≤ 0x919 || (0x920 ≤ code && code ≤ 0x924) || (0x928 ≤ code && code ≤ 0x92B) ||
      code == 0x930 || code == 0x931 || code == 0x938 || code == 0x939 || code == 0x940 ||
      (0xA60 ≤ code && code ≤ 0xA66) || (0xA80 ≤ code && code ≤ 0xA87) || (0xAA0 ≤ code && code ≤ 0xAA3) then .fine
  else .unassigned

/-- A consumer ID (Table 16.3). -/
def State.consumer (s : State) (c : Nat) : Standing :=
  if c < 0x180 then (if s.hasPort (c % 128) then .fine else .absent (c % 128))
  else if c < 0x190 then (if s.hasGrp (c - 0x180) then .fine else .absent (c - 0x180))
  else if c ≤ 0x199 || (0x1A0 ≤ c && c ≤ 0x1BF) || (0x300 ≤ c && c ≤ 0x307) then .fine
  else .unassigned

/-- The selection of a consumer: a sluice, or 0x100 for none. -/
def Fab.selOf (f : Fab) (c : Nat) : Nat := tget 0x100 f.sel c

/-- A change of routing by a command (R441). -/
def Fab.routed (f : Fab) : Fab := { f with routeSeq := f.routeSeq + 1#32 }

/-- Set a consumer's selection. A pulse-mode EVT_OUT that selects none falls (R446). -/
def State.select (s : State) (c sel : Nat) : State :=
  let f := s.fab
  let sels := if sel = 0x100 then tdel f.sel c else tput f.sel c sel
  let outs :=
    if sel = 0x100 ∧ 0x190 ≤ c ∧ c ≤ 0x197 ∧ s.live (0x188 + (c - 0x190)) 0 ≠ 1#32 then
      tput f.evtOut (c - 0x190) { level := false, pulse := false }
    else f.evtOut
  { s with fab := { f with sel := sels, evtOut := outs } }

/-- Why an item of EVT_ROUTE cannot be taken. -/
def State.routeBad (s : State) (i : Nat) (x : Nat × Nat) : Option (Nat × Nat) :=
  match s.consumer x.1 with
  | .unassigned => some (stRange, 4 * i)
  | .absent o => some (stAbsent, o)
  | .fine => if 0x100 < x.2 then some (stRange, 4 * i) else none

/-- The first fault of a list of items, each with its position. -/
def firstBad {α : Type} (bad : Nat → α → Option (Nat × Nat)) : Nat → List α → Option (Nat × Nat)
  | _, [] => none
  | i, x :: t =>
    match bad i x with
    | some e => some e
    | none => firstBad bad (i + 1) t

/-- EVT_ROUTE (R440, R441). -/
def execEvtRoute (r : Req) (items : List (Nat × Nat)) (s : State) :
    Host.Outcome State Fault Refusal :=
  umser r 0x0F01 {} s fun s =>
    if items = [] ∨ 32 < items.length then s.refuse r 0x0F01 stRange 0x20
    else match firstBad s.routeBad 0 items with
      | some (st, d) => s.refuse r 0x0F01 st d
      | none =>
        let t := items.foldl (fun t x => t.select x.1 x.2) s
        let t := { t with fab := t.fab.routed }
        t.ok r 0x0F01 (leBytes 4 t.fab.routeSeq.toNat) []

/-! ## Masks and taps (R439) -/

/-- The mask a command leaves: OP 0 sets, 1 clears, 2 replaces. -/
def maskAfter (op : Nat) (old codes : List Nat) : List Nat :=
  if op = 0 then codes.foldl insAsc old
  else if op = 1 then old.filter (fun c => !codes.contains c)
  else codes.foldl insAsc []

/-- Figure events that need a tap and have none. -/
def Fab.newTaps (f : Fab) (mask : List Nat) : List Nat :=
  mask.filter (fun c => 0x1000 ≤ c && !f.taps.any (fun t => t.2 == c))

/-- Lowest free tap. -/
def Fab.freeTap (f : Fab) : Nat :=
  ((List.range 64).find? (fun i => (tget? f.taps i).isNone)).getD 64

/-- Give a figure event a tap. -/
def Fab.addTap (f : Fab) (code : Nat) : Fab := { f with taps := tput f.taps f.freeTap code }

/-- Free the taps that no mask names. -/
def Fab.freeTaps (f : Fab) : Fab :=
  { f with taps := f.taps.filter (fun t => f.masks.any (fun m => m.2.contains t.2)) }

/-- Give a sluice its new mask. -/
def Fab.setMask (f : Fab) (sluice : Nat) (mask : List Nat) : Fab :=
  let f1 := { f with masks := if mask = [] then tdel f.masks sluice else tput f.masks sluice mask }
  (f1.freeTaps.newTaps mask).foldl Fab.addTap f1.freeTaps

/-- Why a code of EVT_MASK cannot be taken. -/
def State.codeBad (s : State) (i c : Nat) : Option (Nat × Nat) :=
  match s.producer c with
  | .unassigned => some (stRange, 2 * i)
  | .absent o => some (stAbsent, o)
  | .fine => none

/-- EVT_MASK (R439, R441). -/
def execEvtMask (r : Req) (sluice op : Nat) (codes : List Nat) (s : State) :
    Host.Outcome State Fault Refusal :=
  umser r 0x0F02 {} s fun s =>
    let mask := maskAfter op (tget [] s.fab.masks sluice) codes
    if 256 ≤ sluice then s.refuse r 0x0F02 stRange 0x20
    else if 2 < op then s.refuse r 0x0F02 stRange 0x21
    else if 32 < codes.length || (codes.isEmpty && op != 2) then s.refuse r 0x0F02 stRange 0x22
    else match firstBad s.codeBad 0 codes with
      | some (st, d) => s.refuse r 0x0F02 st d
      | none =>
        if 64 < s.fab.taps.length + (s.fab.newTaps mask).length then
          ({ s with fab := { s.fab with flags := s.fab.flags ||| 4#32 } }).refuse r 0x0F02 stBusy
        else
          let t := { s with fab := (s.fab.setMask sluice mask).routed }
          t.ok r 0x0F02 (leBytes 4 t.fab.routeSeq.toNat) []

/-- The 4 bytes of a tap: its producer code and how many sluices name it; a free tap reads 0. -/
def Fab.tapBytes (f : Fab) (i : Nat) : List Byte :=
  match tget? f.taps i with
  | none => leBytes 4 0
  | some c => leBytes 2 c ++ leBytes 2 (f.masks.filter (fun m => m.2.contains c)).length

/-- EVT_READ (R449, Table 22.8). -/
def execEvtRead (r : Req) (kind first count : Nat) (s : State) :
    Host.Outcome State Fault Refusal :=
  umser r 0x0F03 {} s fun s =>
    let answer (n : Nat) (out : List Byte) : State :=
      s.ok r 0x0F03 (leBytes 4 s.fab.routeSeq.toNat ++ leBytes 2 n) out
    if 2 < kind then s.refuse r 0x0F03 stRange 0x20
    else if count = 0 ∨ 1024 < count then s.refuse r 0x0F03 stRange 0x24
    else if kind = 0 then
      if 2048 < first + count then s.refuse r 0x0F03 stRange 0x24
      else answer count ((List.range count).flatMap (fun i => leBytes 2 (s.fab.selOf (first + i))))
    else if kind = 1 then
      if 256 ≤ first then s.refuse r 0x0F03 stRange 0x22
      else
        let mask := (tget [] s.fab.masks first).take count
        answer mask.length (mask.flatMap (fun c => leBytes 2 c))
    else answer 64 ((List.range 64).flatMap s.fab.tapBytes)

/-- EVT_PULSE (R449): fab.swN for each bit of the mask. -/
def execEvtPulse (r : Req) (mask : BitVec 8) (s : State) : Host.Outcome State Fault Refusal :=
  umser r 0x0F04 {} s fun s =>
    ((setBits 8 mask.toNat).foldl (fun t n => t.raise (0x908 + n)) s).ok r 0x0F04 [] []

/-! ## Happenings of the fabric -/

/-- EVT_IN_EDGE (R445): evt.inN.edge 0 rising, 1 falling, 2 both, 3 off. -/
def execEvtInEdge (n : Nat) (rising : Bool) (s : State) : Host.Outcome State Fault Refusal :=
  finish s
    (if n < 8 && s.rst.ctrlUp && tget false s.fab.evtIn n != rising then
      let t := { s with fab := { s.fab with evtIn := tput s.fab.evtIn n rising } }
      let e := (s.live (0x180 + n) 0).toNat
      if e = 2 ∨ (e = 0 ∧ rising) ∨ (e = 1 ∧ ¬ rising) then t.raise (0x900 + n) else t
    else s)

/-- PERSIST (R444): a sluice has been active for 4,096 ticks; once for each setting of its bit. -/
def execPersist (sluice : Nat) (s : State) : Host.Outcome State Fault Refusal :=
  finish s
    (let w := tget 0#32 s.fab.persist (sluice / 32)
     if sluice < 256 && s.rst.ctrlUp && !w.getLsbD (sluice % 32) then
       let t := { s with fab := { s.fab with
         persist := tput s.fab.persist (sluice / 32) (w ||| BitVec.twoPow 32 (sluice % 32))
         flags := s.fab.flags ||| 1#32 } }
       (t.log { code := 0x4801, source := 0x5000 + sluice }).raise 0x940
     else s)

/-- FAB_PERSIST_CLEAR (R444): a W1C write to FAB_PERSISTn. -/
def Fab.persistClear (f : Fab) (n : Nat) (value : Word) : Fab :=
  if n < 8 then { f with persist := tput f.persist n (tget 0#32 f.persist n &&& ~~~ value) } else f

/-- FAB_PERSIST_CLEAR (R444). -/
def execFabPersistClear (n : Nat) (value : Word) (s : State) : Host.Outcome State Fault Refusal :=
  finish s { s with fab := s.fab.persistClear n value }

/-- EVT_OUT_PULSE_END (R446): the land falls evt.outN.width ticks after the last event. -/
def execEvtOutPulseEnd (n : Nat) (s : State) : Host.Outcome State Fault Refusal :=
  finish s
    (if n < 8 && (tget EvtOut.init s.fab.evtOut n).pulse then
      { s with fab := { s.fab with evtOut := tput s.fab.evtOut n { level := false, pulse := false } } }
    else s)

/-! ## The error log's commands (chapter 24) -/

/-- The 32 bytes of a record (Table 24.1). -/
def ErrRec.bytes (r : ErrRec) : List Byte :=
  leBytes 4 r.seq.toNat ++ leBytes 2 r.code.toNat ++ leBytes 2 r.source.toNat ++
  leBytes 8 r.mt.toNat ++ leBytes 1 r.flags.toNat ++ leBytes 1 r.arg.toNat ++
  leBytes 2 r.rep.toNat ++ leBytes 4 r.d0.toNat ++ leBytes 4 r.d1.toNat ++ leBytes 4 r.d2.toNat

/-- ERR_STATUS (Table 24.8). -/
def Err.status (e : Err) : Word :=
  bitAt e.first.isSome 18 ||| bitAt e.storm 17 ||| bitAt (ringSize ≤ e.ring.length) 16 |||
  at32 e.ring.length 0

/-- The STORM record of the losses so far (R624). -/
def Err.stormRecord (e : Err) : ErrRec :=
  { seq := 0#32, code := 0x7F01#16, source := 0#16, mt := e.stormFirst
    flags := if 0xFFFFFFFF < e.stormLosses then 0x10#8 else 0#8, arg := 0#8, rep := 1#16
    d0 := e.stormLast.extractLsb' 0 32, d1 := e.stormLast.extractLsb' 32 32
    d2 := BitVec.ofNat 32 (min e.stormLosses 0xFFFFFFFF) }

/-- Write the STORM record that is due after an acknowledgement, and raise err.storm (R624). -/
def State.writeStorm (s : State) : State :=
  if s.err.storm ∧ s.err.ring.length < ringSize then
    let r := s.err.stormRecord
    let t := { s with err := { s.err with storm := false, stormLosses := 0 } }
    (t.formErr r).raise 0xAA1
  else s

/-- Records a read returns: in SEQ order from FROM (R625, R586). -/
def Err.select (e : Err) (start : Word) (count : Nat) : List ErrEntry :=
  if seqLt e.newest start then []
  else (e.ring.filter (fun x => seqLe start x.body.seq)).take count

/-- Close records for coalescing; with ACK free everything up to the last one returned. -/
def Err.afterRead (e : Err) (l : List ErrEntry) (ack : Bool) : Err :=
  let closed := { e with ring := e.ring.map (fun x : ErrEntry =>
    if l.any (fun y => y.body.seq == x.body.seq) then { x with closed := true } else x) }
  match ack, l.getLast? with
  | true, some last =>
    { closed with
      ack := if seqLt e.ack last.body.seq then last.body.seq else e.ack
      ring := closed.ring.filter (fun x => !seqLe x.body.seq last.body.seq) }
  | _, _ => closed

/-- ERR_RING_READ (R625, R586): the acknowledgement acts first, then a STORM record takes the first
free slot. -/
def execErrRingRead (r : Req) (start : Word) (count : Nat) (ack : Bool) (s : State) :
    Host.Outcome State Fault Refusal :=
  umser r 0x1001 { needs := [6] } s fun s =>
    if count = 0 ∨ 2048 < count then s.refuse r 0x1001 stRange 0x24
    else
      let e := s.err
      let l := e.select start count
      let oldest := match e.ring with
        | [] => e.newest + 1#32
        | x :: _ => x.body.seq
      let e1 := e.afterRead l ack
      let t := { s with err := e1, peat := s.peat.copyErr e1 }
      let t := if ack && !l.isEmpty then t.writeStorm else t
      t.ok r 0x1001
        (leBytes 2 l.length ++ leBytes 2 0 ++ leBytes 4 oldest.toNat ++ leBytes 4 e.newest.toNat ++
          leBytes 4 e.lost.toNat)
        (l.flatMap (fun x => x.body.bytes))

/-- Arm the first-error register (R626). -/
def State.armFirst (s : State) : State :=
  let e := { s.err with first := none }
  { s with err := e, peat := s.peat.copyErr e }

/-- ERR_FIRST_READ (R626): returns the held record and arms the register. -/
def execErrFirstRead (r : Req) (s : State) : Host.Outcome State Fault Refusal :=
  umser r 0x1002 {} s fun s =>
    let out := match s.err.first with
      | some x => x.bytes
      | none => List.replicate 32 0#8
    s.armFirst.ok r 0x1002 (leBytes 1 (b2n s.err.first.isSome)) out

/-- FIRST_ARM (R626): 1 written to ERR_CTRL.FIRST_ARM. -/
def execFirstArm (s : State) : Host.Outcome State Fault Refusal := finish s s.armFirst

end Sys2Proof.Machine
end

