-- ==== Sys2Proof/Machine/Edit.lean ====
section
/-! DEFINITION. Editing the Maquette, parameters and figure definitions (chapters 8 and 17), and the
frames the active module of a pair sends for what it does (R592, R598). -/

namespace Sys2Proof.Machine

/-! ## The Maquette (R454, R455) -/

/-- Change the Maquette. -/
def State.modMaq (s : State) (f : CfgSet → CfgSet) : State :=
  { s with sets := { s.sets with maq := f s.sets.maq } }

/-- A successful edit advances SET_MAQ_SEQ and clears VALID (R454). -/
def State.edited (s : State) : State :=
  { s with sets := { s.sets with maqSeq := s.sets.maqSeq + 1#32, valid := false } }

/-- Complete an edit: at once, or with a partner once it has acknowledged the MAQ frame (R598). -/
def State.editOk (s : State) (r : Req) (opcode : Nat) (result : List Byte) : State :=
  if s.leads then
    let t := s.sendReliable 6
    { t with twin := { t.twin with edits := t.twin.edits ++ [
        { fseq := s.twin.fseq, mbx := r.mbx, opcode := opcode, tag := r.tag, outLen := r.outLen
          outAddr := r.outAddr, mtAccept := s.mt.mt, result := result }] } }
  else s.ok r opcode result []

/-- A command that edits the Maquette: not on a standby, not while it is frozen (R455, R570). -/
def editCommand (r : Req) (opcode : Nat) (s : State) (body : State → State) :
    Host.Outcome State Fault Refusal :=
  umser r opcode { standbyOk := false } s fun s =>
    if s.sets.frozen then s.refuse r opcode stBusy else body s

/-- The set FLAGS.SET selects (Table 21.6). -/
def State.setOf (s : State) (maq : Bool) : CfgSet := if maq then s.sets.maq else s.sets.cast

/-! ## Parameter instances (R457, R468, R469) -/

/-- The value of a live parameter most recently accepted (R453). -/
def State.liveAccepted (s : State) (id index : Nat) : Word :=
  match s.sets.livePending.reverse.find? (fun e => e.1 == pkey id index) with
  | some e => e.2
  | none => s.live id index

/-- Why an index cannot be used with a class: ST_RANGE or ST_ABSENT (R468). figs are the figures it
may name. -/
def State.indexBad (s : State) (c : PClass) (index : Nat) (figs : List Nat) : Option Nat :=
  match c with
  | .global => if index = 0 then none else some stRange
  | .group => if 16 ≤ index then some stRange else if s.hasGrp index then none else some stAbsent
  | .stage => if 128 ≤ index then some stRange else if s.hasPort index then none else some stAbsent
  | .site =>
    if 2048 ≤ index then some stRange else if s.hasPort (index / 16) then none else some stAbsent
  | .figure => if figs.contains index then none else some stRange

/-- Figures a parameter of an entry may be written for, or read from a set for. -/
def State.figsFor (s : State) (e : DirEntry) (set : CfgSet) : List Nat :=
  if e.live then s.sets.cast.figs ++ s.sets.maq.figs ++ set.figs else set.figs

/-- A value that names an absent stage port (R184, R4). -/
def State.valueAbsent (s : State) (id : Nat) (v : Word) : Bool :=
  (id == 0x40A && !s.hasPort (bits v 22 16)) ||
  (id == 0x40B && v.toNat != 0xFFFF && !s.hasPort v.toNat)

/-- The value a request's triples leave a parameter at. -/
def afterTriples (l : List Triple) (id index : Nat) (old : Word) : Word :=
  match l.reverse.find? (fun t => t.id == id && t.index == index) with
  | some t => t.value
  | none => old

/-- The value a parameter has before a request: in the Maquette, or live. -/
def State.present (s : State) (maq : CfgSet) (id index : Nat) : Word :=
  match dirEntry id with
  | some e => if e.live then s.liveAccepted id index else pval maq.params id index
  | none => 0#32

/-- IDs of mt.peN.div. -/
def isDiv (id : Nat) : Bool := id == 0x111 || id == 0x115 || id == 0x119 || id == 0x11D

/-- A divider stays above the remainder that the request leaves (R94). -/
def divOk (id : Nat) (v : Word) (cur : Nat → Word) : Bool := !isDiv id || decide ((cur (id + 1)).toNat < v.toNat)

/-- Why a triple cannot be written: its status (R94, R457, R468). -/
def State.tripleBad (s : State) (maq : CfgSet) (l : List Triple) (t : Triple) : Option Nat :=
  match dirEntry t.id with
  | none => some stRange
  | some e =>
    match s.indexBad e.cls t.index (s.figsFor e maq) with
    | some st => some st
    | none =>
      let cur (id : Nat) : Word := afterTriples l id t.index (s.present maq id t.index)
      if !valueOk e t.value cur || !divOk t.id t.value cur then some stRange
      else if s.valueAbsent t.id t.value then some stAbsent
      else none

/-- The first triple of a request that fails, with its status and its offset in the buffer. -/
def State.triplesBad (s : State) (maq : CfgSet) (l : List Triple) : Option (Nat × Nat) :=
  firstBad (fun i t => (s.tripleBad maq l t).map (fun st => (st, 8 * i))) 0 l

/-- An ID names a live parameter. -/
def isLive (id : Nat) : Bool :=
  match dirEntry id with
  | some e => e.live
  | none => false

/-- Apply the triples: each to the Maquette or to live state (R469). -/
def State.applyTriples (s : State) (l : List Triple) : State :=
  l.foldl (fun s t =>
    if isLive t.id then
      { s with sets := { s.sets with
          livePending := s.sets.livePending ++ [(pkey t.id t.index, t.value)] } }
    else s.modMaq (fun m => { m with params := pset m.params t.id t.index t.value })) s

/-- A standby refuses a triple of set Cast/Maquette, and a live one of figure, stage or site class
(R570). -/
def standbyRefuses (t : Triple) : Bool :=
  match dirEntry t.id with
  | none => false
  | some e => !e.live || e.cls == .figure || e.cls == .stage || e.cls == .site

/-- PARAM_WRITE (R457, R469). -/
def execParamWrite (r : Req) (triples : List Triple) (s : State) :
    Host.Outcome State Fault Refusal :=
  umser r 0x0601 {} s fun s =>
    let maq := triples.any (fun t => !isLive t.id && (dirEntry t.id).isSome)
    if s.twin.role == .standby && triples.any standbyRefuses then s.refuse r 0x0601 stDenied
    else if triples = [] ∨ 32 < triples.length then s.refuse r 0x0601 stRange 0x20
    else if maq && s.sets.frozen then s.refuse r 0x0601 stBusy
    else match s.triplesBad s.sets.maq triples with
      | some (st, d) => s.refuse r 0x0601 st d
      | none =>
        let t := s.applyTriples triples
        if maq then t.edited.editOk r 0x0601 [] else t.ok r 0x0601 [] []

/-- Why an instance cannot be read from a set. -/
def State.readBad (s : State) (set : CfgSet) (i : Nat) (x : Nat × Nat) : Option (Nat × Nat) :=
  match dirEntry x.1 with
  | none => some (stRange, 4 * i)
  | some e => (s.indexBad e.cls x.2 (s.figsFor e set)).map (fun st => (st, 4 * i))

/-- PARAM_READ (R469). -/
def execParamRead (r : Req) (items : List (Nat × Nat)) (s : State) :
    Host.Outcome State Fault Refusal :=
  umser r 0x0602 {} s fun s =>
    let set := s.setOf r.set
    if items = [] ∨ 32 < items.length then s.refuse r 0x0602 stRange 0x20
    else match firstBad (s.readBad set) 0 items with
      | some (st, d) => s.refuse r 0x0602 st d
      | none => s.ok r 0x0602 [] (items.flatMap (fun x =>
          leBytes 2 x.1 ++ leBytes 2 x.2 ++ leBytes 4 (s.present set x.1 x.2).toNat))

/-- PARAM_DIR_READ (R467, R577). -/
def execParamDirRead (r : Req) (first count : Nat) (s : State) : Host.Outcome State Fault Refusal :=
  umser r 0x0603 {} s fun s =>
    if count = 0 ∨ 64 < count then s.refuse r 0x0603 stRange 0x22
    else
      let l := directory.filter (fun e => first ≤ e.id)
      let next := match l.drop count with
        | [] => 0xFFFF
        | e :: _ => e.id
      s.ok r 0x0603 (leBytes 1 (l.take count).length ++ leBytes 1 0 ++ leBytes 2 next)
        ((l.take count).flatMap DirEntry.bytes)

/-! ## Figure definitions (R182, R573) -/

/-- A parameter key names an instance of a figure. -/
def isFigKey (key fig : Nat) : Bool := 0x400 ≤ key / 65536 && key / 65536 < 0x440 && key % 65536 == fig

/-- A set without a figure: its parameters, blocks and generator are gone. -/
def dropFig (c : CfgSet) (fig : Nat) : CfgSet :=
  { c with
    figs := c.figs.filter (· != fig)
    params := c.params.filter (fun e => !isFigKey e.1 fig)
    coefs := c.coefs.filter (fun e => e.1 / 4 != fig)
    gens := tdel c.gens fig }

/-- Define a figure with every parameter at its reset value. -/
def defineFig (c : CfgSet) (fig : Nat) : CfgSet :=
  let d := dropFig c fig
  { d with figs := insAsc d.figs fig }

/-- Copy what one table lists at a key to a key of another. -/
def tcopy {α : Type} (source : Tab α) (old : Nat) (t : Tab α) (new : Nat) : Tab α :=
  match tget? source old with
  | some v => tput t new v
  | none => t

/-- Give a figure another one's parameters, blocks and generator, disabled (R573). -/
def copyFigure (c : CfgSet) (fig src : Nat) : CfgSet :=
  let d := defineFig c fig
  { d with
    params := (List.range 63).foldl (fun t i => tcopy c.params (pkey (0x401 + i) src) t (pkey (0x401 + i) fig))
      d.params
    coefs := (List.range 4).foldl (fun t i => tcopy c.coefs (4 * src + i) t (4 * fig + i)) d.coefs
    gens := tcopy c.gens src d.gens fig }

/-- A figure that the Cast does not hold takes a live level at its definition: 0, or its template's
(R573, log entry 15). -/
def State.defineLevel (s : State) (fig : Nat) (v : Word) : State :=
  if s.sets.cast.figs.contains fig then s
  else { s with sets := { s.sets with
    live := pset s.sets.live 0x438 fig v
    livePending := s.sets.livePending.filter (fun e => e.1 != pkey 0x438 fig) } }

/-- Why a triple of FIG_DEFINE cannot be used: a figure-class parameter of this figure only. -/
def defineBad (fig i : Nat) (t : Triple) : Option (Nat × Nat) :=
  match dirEntry t.id with
  | some e => if e.cls == .figure && t.index == fig then none else some (stRange, 8 * i)
  | none => some (stRange, 8 * i)

/-- FIG_DEFINE's checks beyond the descriptor's (R573). -/
def State.defineFault (s : State) (fig op source : Nat) (l : List Triple) : Option (Nat × Nat) :=
  let m := s.sets.maq
  if 2 < op then some (stRange, 0x22)
  else if 4096 ≤ fig then some (stRange, 0x20)
  else if op != 2 && source != 0 then some (stRange, 0x24)
  else if 32 < l.length || (op == 1 && !l.isEmpty) then some (stRange, 0x26)
  else if op = 2 ∧ ¬ m.figs.contains source then some (stRange, 0x24)
  else if op = 0 ∧ m.figs.contains fig then some (stBusy, fig)
  else if op = 1 ∧ (¬ m.figs.contains fig ∨ pnat m.params 0x400 fig = 1 ∨ s.castN 0x400 fig = 1) then
    some (stBusy, fig)
  else firstBad (defineBad fig) 0 l

/-- FIG_DEFINE (R573). -/
def execFigDefine (r : Req) (fig op source : Nat) (triples : List Triple) (s : State) :
    Host.Outcome State Fault Refusal :=
  editCommand r 0x0201 s fun s =>
    match s.defineFault fig op source triples with
    | some (st, d) => s.refuse r 0x0201 st d
    | none =>
      if op = 1 then (s.modMaq (fun m => dropFig m fig)).edited.editOk r 0x0201 []
      else
        let d := if op = 0 then defineFig s.sets.maq fig else copyFigure s.sets.maq fig source
        match s.triplesBad d triples with
        | some (st, off) => s.refuse r 0x0201 st off
        | none =>
          let level := if op = 0 then 0#32 else s.liveAccepted 0x438 source
          (((s.modMaq (fun _ => d)).defineLevel fig level).applyTriples triples).edited.editOk
            r 0x0201 []

/-- A bitmap of figure numbers, 512 bytes. -/
def figBitmap (figs : List Nat) : List Byte :=
  (List.range 512).map (fun i =>
    BitVec.ofNat 8 (nsum ((figs.filter (fun f => f / 8 == i)).map (fun f => 2 ^ (f % 8)))))

/-- FIG_LIST_READ (Table 22.2). -/
def execFigListRead (r : Req) (s : State) : Host.Outcome State Fault Refusal :=
  umser r 0x0202 {} s fun s =>
    let c := s.setOf r.set
    let on := c.figs.filter (fun f => pnat c.params 0x400 f == 1)
    s.ok r 0x0202 (leBytes 2 c.figs.length ++ leBytes 2 on.length)
      (figBitmap c.figs ++ figBitmap on)

/-! ## Set status and revert -/

/-- SET_STATUS (Table 17.10). -/
def Sets.status (t : Sets) : Word :=
  bitAt t.frozen 7 ||| at32 t.phase 5 ||| bitAt t.valid 4 ||| bitAt t.rstStale 3 |||
  bitAt t.lastInt 2 ||| bitAt t.lastPaired 1 ||| bitAt t.castEmpty 0

/-- SET_STATUS_READ (Table 22.3). -/
def execSetStatusRead (r : Req) (s : State) : Host.Outcome State Fault Refusal :=
  umser r 0x0504 {} s fun s =>
    s.ok r 0x0504
      (leBytes 4 s.sets.status.toNat ++ leBytes 4 s.sets.maqSeq.toNat ++ leBytes 4 s.sets.val.toNat ++
        leBytes 8 s.sets.digest.toNat ++ leBytes 8 s.sets.unvMt.toNat) []

/-- SET_REVERT (R458): the Maquette is frozen until the copy ends. -/
def execSetRevert (r : Req) (s : State) : Host.Outcome State Fault Refusal :=
  umser r 0x0503 { long := true, standbyOk := false } s fun s =>
    if s.sets.frozen then s.refuse r 0x0503 stBusy
    else
      let t := s.defer r 0x0503 0 0 0
      { t with sets := { t.sets with frozen := true } }

/-- The Cast as it is copied into the Maquette: placement and armature entries stay in the Cast
(R452). -/
def maquetteOf (c : CfgSet) : CfgSet := { c with place := [], auxArm := [] }

end Sys2Proof.Machine
end

