-- ==== Sys2Proof/Machine/Stage.lean ====
section
/-! DEFINITION. Stage descriptors, the stage EEPROMs and what a stage port holds (chapter 7,
Tables 8.9 and 8.10). -/

namespace Sys2Proof.Machine

/-! ## binary32 (Table 7.4) -/

/-- The exact value of a binary32 word times 2^149; none for an infinity or a NaN. -/
def f32 (w : BitVec 32) : Option Int :=
  let e := bits w 30 23
  let m := bits w 22 0
  let mag : Nat := if e = 0 then m else (2 ^ 23 + m) * 2 ^ (e - 1)
  if e = 255 then none else some (if w.getLsbD 31 then -(mag : Int) else mag)

/-- 1 in the scale of f32. -/
def f32One : Nat := 2 ^ 149

/-! ## Fields of a descriptor (R176) -/

/-- An unsigned field at a byte offset. -/
def dn (d : BitVec 2048) (off size : Nat) : Nat := (d.extractLsb' (8 * off) (8 * size)).toNat

/-- A signed field at a byte offset. -/
def di (d : BitVec 2048) (off size : Nat) : Int := (d.extractLsb' (8 * off) (8 * size)).toInt

/-- A binary32 field at a byte offset, scaled by 2^149; 0 where it is not finite. -/
def df (d : BitVec 2048) (off : Nat) : Int := (f32 (d.extractLsb' (8 * off) 32)).getD 0

def dFlags (d : BitVec 2048) (bit : Nat) : Bool := (dn d 0x05 1).testBit bit
def dRanges (d : BitVec 2048) : Nat := dn d 0x3D 1
def dSites (d : BitVec 2048) : Nat := dn d 0x3E 1
def dSafe (d : BitVec 2048) : Int := di d 0x40 4
def dShunt (d : BitVec 2048) (r : Nat) : Int := df d (0x50 + 12 * r)
def dMake (d : BitVec 2048) (r : Nat) : Nat := dn d (0x54 + 12 * r) 2
def dBreak (d : BitVec 2048) (r : Nat) : Nat := dn d (0x56 + 12 * r) 2
def dSpan (d : BitVec 2048) (r : Nat) : Nat := dn d (0x58 + 12 * r) 1
def dTempAux (d : BitVec 2048) : Option Nat :=
  if (dn d 0x98 1).testBit 7 then some (dn d 0x98 1 % 16) else none

/-- FLT_PRESENT, PWM_PRESENT, SITE_HOT, GANG_OK and CAL_VALID (Table 7.6). -/
def dFlt (d : BitVec 2048) : Bool := dFlags d 0
def dPwm (d : BitVec 2048) : Bool := dFlags d 1
def dSiteHot (d : BitVec 2048) : Bool := dFlags d 2
def dGang (d : BitVec 2048) : Bool := dFlags d 3
def dCal (d : BitVec 2048) : Bool := dFlags d 4

/-- Sites a stage offers: one when it has no matrix (R185). -/
def dSiteTotal (d : BitVec 2048) : Nat := max 1 (dSites d)

/-- Full scale of a span code in nV: ±1 V, ±100 mV, ±10 mV (Table 7.5). -/
def spanNv (code : Nat) : Nat := 1000000000 / 10 ^ code

/-- Full scale of a current range in nA, rounded down: the span over SHUNT. -/
def dFullScale (d : BitVec 2048) (r : Nat) : Nat :=
  if dShunt d r ≤ 0 then 0 else spanNv (dSpan d r) * f32One / (dShunt d r).toNat

/-- RNG_ORDER: the lines in their order of release. -/
def dOrder (d : BitVec 2048) : List Nat := (List.range 6).map (fun i => dn d 0xAC 4 / 16 ^ i % 16)

/-! ## CRC-32 of IEEE 802.3 -/

/-- One bit of the reflected CRC-32. -/
def crc32Step (c : BitVec 32) : BitVec 32 :=
  if c.getLsbD 0 then (c >>> 1) ^^^ 0xEDB88320#32 else c >>> 1

/-- n steps. -/
def crc32Steps : Nat → BitVec 32 → BitVec 32
  | 0, c => c
  | n + 1, c => crc32Steps n (crc32Step c)

/-- CRC-32 of IEEE 802.3. -/
def crc32 (l : List Byte) : BitVec 32 :=
  ~~~ l.foldl (fun c b => crc32Steps 8 (c ^^^ b.setWidth 32)) 0xFFFFFFFF#32

/-! ## Validity (R177) -/

/-- A finite, positive binary32 field. -/
def positive (d : BitVec 2048) (off : Nat) : Bool :=
  match f32 (d.extractLsb' (8 * off) 32) with
  | some x => 0 < x
  | none => false

/-- The tests of R177, each with the offset of the field it is about, ascending. -/
def descTests (d : BitVec 2048) : List (Nat × Bool) :=
  let n := min 6 (dRanges d)
  [(0x00, dn d 0 4 == 0x31475453), (0x04, dn d 4 1 == 1),
   (0x28, decide (di d 0x2C 4 ≤ di d 0x28 4)), (0x3C, dn d 0x3C 1 != 0),
   (0x3D, 1 ≤ dRanges d && dRanges d ≤ 6), (0x3E, dSites d ≤ 16),
   (0x40, decide (-524288 ≤ dSafe d) && decide (dSafe d ≤ 524287)),
   (0x44, positive d 0x44), (0x4C, positive d 0x4C)] ++
  (List.range n).flatMap (fun r =>
    [(0x50 + 12 * r, positive d (0x50 + 12 * r) &&
      (r == 0 || decide ((spanNv (dSpan d r) : Int) * dShunt d (r - 1) <
        (spanNv (dSpan d (r - 1)) : Int) * dShunt d r))),
     (0x58 + 12 * r, dSpan d r ≤ 2)]) ++
  [(0x98, dn d 0x98 1 / 16 % 8 == 0),
   (0x99, (dTempAux d).isNone || decide (di d 0x99 1 < di d 0x9A 1)),
   (0xAC, (List.range 6).all (fun i => (dOrder d).contains i)),
   (0xFC, (crc32 (leBytes 252 d.toNat)).toNat == dn d 0xFC 4)]

/-- Offset of the first field that fails R177; none when the descriptor is valid. -/
def descFault (d : BitVec 2048) : Option Nat := ((descTests d).find? (fun t => !t.2)).map (·.1)

/-! ## Descriptors in force (R178, R179) -/

/-- The descriptor of a port in the Cast. -/
def State.desc (s : State) (p : Nat) : Option (BitVec 2048) :=
  (tget? s.sets.cast.descs p).map (fun d => d.image)

/-- What the EEPROM and the Mire offer for a port: the Mire's copy of the same SERIAL once the Mire is
up, else a valid EEPROM descriptor. -/
def State.offered (s : State) (p : Nat) : Option Desc :=
  let sp := s.spAt p
  if sp.eepromState = 1 then
    match tget? s.sto.sysDescs p with
    | some m =>
      if s.rst.mireUp && dn m 8 16 == dn sp.eeprom 8 16 then some ⟨m, .mire⟩
      else some ⟨sp.eeprom, .eeprom⟩
    | none => some ⟨sp.eeprom, .eeprom⟩
  else none

/-- A stage has been exchanged: the Mire's copy carries another SERIAL (R178). -/
def State.exchanged (s : State) (p : Nat) : Bool :=
  let sp := s.spAt p
  sp.eepromState == 1 && s.rst.mireUp &&
    (match tget? s.sto.sysDescs p with
     | some m => dn m 8 16 != dn sp.eeprom 8 16
     | none => false)

/-- Bring what R178 gives into force in the Maquette; a written descriptor stands. A warning is
recorded for an exchanged stage. -/
def State.bringDesc (s : State) (p : Nat) : State :=
  let s := if s.exchanged p then s.log { code := 0x4305, source := 0x1000 + p } else s
  match tget? s.sets.maq.descs p with
  | some ⟨_, .written⟩ => s
  | _ =>
    match s.offered p with
    | some d => s.modMaq (fun m => { m with descs := tput m.descs p d })
    | none => s.modMaq (fun m => { m with descs := tdel m.descs p })

/-- The same as the start brings it about; a partner is told of what came into force (Table 23.1). -/
def State.startDesc (s : State) (p : Nat) : State :=
  let t := s.bringDesc p
  if t.sets.maq.descs = s.sets.maq.descs then t else t.tell 6

/-- Consider the Mire's descriptors (R178). -/
def State.mireDescs (s : State) : State :=
  (List.range (8 * s.groups)).foldl (fun t p =>
    if (tget? t.sto.sysDescs p).isSome then t.startDesc p else t)
    { s with sets := { s.sets with mireDue := false } }

/-- Thaw the Maquette as a command that froze it completes; descriptors of the Mire that came up meanwhile
are considered now (R178, R455). -/
def State.unfreeze (s : State) : State :=
  let t := { s with sets := { s.sets with frozen := false, phase := 0 } }
  if s.sets.mireDue then t.mireDescs else t

/-- REVERT_COPY_END (R458). -/
def execRevertCopyEnd (s : State) : Host.Outcome State Fault Refusal :=
  finish s
    (if s.host.outst.any (fun o => o.opcode == 0x0503) && s.rst.mgmtUp then
      let t := ((s.modMaq (fun _ => maquetteOf s.sets.cast)).edited).tell 6
      let t := ({ t with sets := { t.sets with rstStale := false } }).unfreeze
      t.complete (fun o => o.opcode == 0x0503)
        { status := stOk, result := leBytes 4 t.sets.maqSeq.toNat }
    else s)

/-- Take in what a read of a port's EEPROM gave (R175, R177): none when it did not acknowledge. -/
def State.readEeprom (s : State) (p : Nat) (data : Option (BitVec 2048)) : State :=
  match data with
  | none => s.modSp p (fun x => { x with eepromState := 0 })
  | some d =>
    match descFault d with
    | none => s.modSp p (fun x => { x with eeprom := d, eepromState := 1 })
    | some off =>
      (s.modSp p (fun x => { x with eeprom := d, eepromState := 2 })).log
        { code := 0x4304, source := 0x1000 + p, d0 := BitVec.ofNat 32 off }

/-- SOURCE of R575. -/
def sourceCode (d : Option Desc) : Nat :=
  match d with
  | none => 0
  | some x =>
    match x.source with
    | .none => 0
    | .written => 1
    | .mire => 2
    | .eeprom => 3

/-- The 256 bytes of a descriptor image. -/
def imageBytes (d : BitVec 2048) : List Byte := leBytes 256 d.toNat

/-- STG_DESC_WRITE (R177, R178, R575). -/
def execStgDescWrite (r : Req) (port : Nat) (image : BitVec 2048) (s : State) :
    Host.Outcome State Fault Refusal :=
  editCommand r 0x0301 s fun s =>
    if !s.hasPort port then s.refuse r 0x0301 stAbsent port
    else match descFault image with
      | some off => s.refuse r 0x0301 stRange off
      | none =>
        let store := s.sto.state == .ready && s.rst.mireUp
        let t := s.modMaq (fun m => { m with descs := tput m.descs port ⟨image, .written⟩ })
        let t := if store then
            { t with sto := { t.sto with sysDescs := tput t.sto.sysDescs port image } } else t
        t.edited.editOk r 0x0301 (leBytes 1 (b2n store))

/-- STG_DESC_READ mode 0 (R575): the descriptor in force in a set. -/
def State.descReadNow (s : State) (r : Req) (port : Nat) : State :=
  let d := tget? (s.setOf r.set).descs port
  let image := match d with
    | some x => x.image
    | none => 0#2048
  s.ok r 0x0302 (leBytes 1 (sourceCode d) ++ leBytes 1 (s.spAt port).eepromState) (imageBytes image)

/-- Queue a transfer at a group's I2C controller (R576). -/
def State.i2cAdd (s : State) (x : I2c) : State :=
  s.modGrp (x.port / 8) (fun g => { g with i2c := g.i2c ++ [x] })

/-- STG_DESC_READ (R575). -/
def execStgDescRead (r : Req) (port mode : Nat) (s : State) : Host.Outcome State Fault Refusal :=
  umser r 0x0302 { long := true } s fun s =>
    if !s.hasPort port then s.refuse r 0x0302 stAbsent port
    else if 1 < mode then s.refuse r 0x0302 stRange 0x21
    else if mode = 0 then s.descReadNow r port
    else if s.twin.role == .standby then s.refuse r 0x0302 stDenied
    else if s.sets.frozen then s.refuse r 0x0302 stBusy
    else (s.defer r 0x0302 port mode 0).i2cAdd
      { port := port, write := false, offset := 0, data := [], mbx := r.mbx, tag := r.tag }

/-- STG_EEPROM_WRITE (R576). -/
def execStgEepromWrite (r : Req) (port offset : Nat) (data : List Byte) (s : State) :
    Host.Outcome State Fault Refusal :=
  umser r 0x0303 { long := true, standbyOk := false } s fun s =>
    if !s.hasPort port then s.refuse r 0x0303 stAbsent port
    else if offset % 8 != 0 then s.refuse r 0x0303 stRange 0x21
    else if data.length % 8 != 0 || data.isEmpty || 256 < offset + data.length then
      s.refuse r 0x0303 stRange 0x22
    else (s.defer r 0x0303 port 0 0).i2cAdd
      { port := port, write := true, offset := offset, data := data, mbx := r.mbx, tag := r.tag }

/-- Replace the transfer at the front of a group's queue. -/
def State.i2cNext (s : State) (grp : Nat) (x : Option I2c) : State :=
  s.modGrp grp (fun g => { g with i2c := x.toList ++ g.i2c.drop 1 })

/-- A STG_DESC_READ of mode 1 ends: the bytes read, and what comes into force (R575). A Maquette that
has frozen meanwhile is not changed and the command completes with ST_BUSY (log entry 16). -/
def State.rereadDone (s : State) (x : I2c) (data : Option (BitVec 2048)) : State :=
  let mine (o : Outstanding) : Bool := o.opcode == 0x0302 && o.mbx == x.mbx && o.tag == x.tag
  if s.sets.frozen then s.complete mine { status := stBusy }
  else
    let t := ((s.readEeprom x.port data).bringDesc x.port).edited.tell 6
    t.complete mine
      { status := stOk
        result := leBytes 1 (sourceCode (tget? t.sets.maq.descs x.port)) ++
          leBytes 1 (t.spAt x.port).eepromState
        out := imageBytes (data.getD 0#2048) }

/-- I2C_TRANSFER_END (R175, R576): an 8-byte page with its acknowledge polling, or a reread. -/
def execI2cTransferEnd (grp : Nat) (ack : Bool) (data : Option (BitVec 2048)) (s : State) :
    Host.Outcome State Fault Refusal :=
  finish s
    (match (s.grpAt grp).i2c, s.rst.mgmtUp with
     | x :: _, true =>
       let mine (o : Outstanding) : Bool := o.opcode == 0x0303 && o.mbx == x.mbx && o.tag == x.tag
       if x.write then
         if ack then
           if x.data.length ≤ 8 then (s.i2cNext grp none).complete mine { status := stOk }
           else s.i2cNext grp (some { x with offset := x.offset + 8, data := x.data.drop 8 })
         else (s.i2cNext grp none).complete mine { status := stNotReady, detail := x.offset }
       else (s.i2cNext grp none).rereadDone x (if ack then data else none)
     | _, _ => s)

/-! ## Figures on a stage -/

/-- A placement holds its stages. -/
def holds (p : Placement) : Bool :=
  p.state == .placed || p.state == .sequenced || p.state == .tripped || p.state == .migrating

/-- Figures of the Cast that hold a stage port, ascending. -/
def State.figsOn (s : State) (p : Nat) : List Nat :=
  (s.sets.cast.place.filter (fun e => holds e.2 && e.2.members.contains p)).map (fun e => e.1)

/-- The figure that leaves a port, until the port stands at OFF. -/
def Sp.leaving (x : Sp) : Option Leave := x.force.leave.or x.force.leaveDue

/-- The figure a port serves: one that is leaving it, else on a shared stage the one whose slot runs
(R193, R291, R397). -/
def State.serves (s : State) (p : Nat) : Option Nat :=
  match (s.spAt p).leaving, s.figsOn p with
  | some l, _ => some l.fig
  | none, [] => none
  | none, [f] => some f
  | none, _ => (s.spAt p).slotFig

/-- Master stage port of a figure (R192). -/
def State.master (s : State) (f : Nat) : Option Nat :=
  if holds (s.placeAt f) then (s.placeAt f).members.head? else none

/-- A stage temperature in 0.1 °C as int16; 0x8000 without one (Table 8.10). -/
def tempField (t : Option Int) : Nat :=
  match t with
  | none => 0x8000
  | some x => (BitVec.ofInt 16 (rdiv (10 * x) 16)).toNat

/-- STATE of Table 8.10. -/
def State.stageState (s : State) (p : Nat) : Nat :=
  let sp := s.spAt p
  if !s.hasPort p then 5
  else if sp.sup.tripped then 3
  else if (s.desc p).isNone then 4
  else if !s.grpReady (p / 8) || (sp.sup.flt && dFlt ((s.desc p).getD 0#2048)) || sp.overTemp then 6
  else match s.figsOn p with
    | [] => 0
    | [_] => 1
    | _ => 2

/-- The 16 bytes of a stage record (Table 8.10). -/
def State.stageRecord (s : State) (p : Nat) : List Byte :=
  let sp := s.spAt p
  let figs := s.figsOn p
  leBytes 1 p ++ leBytes 1 (s.castN 0x440 p) ++ leBytes 1 (s.stageState p) ++
  leBytes 1 figs.length ++ leBytes 2 (tempField sp.temp) ++
  leBytes 1 (b2n sp.warned + 2 * b2n sp.overTemp) ++ leBytes 1 0 ++
  leBytes 2 (figs.head?.getD 0xFFFF) ++ leBytes 2 0 ++ leBytes 4 sp.placeSeq.toNat

/-- STG_PLACE_READ (R212, R568). -/
def execStgPlaceRead (r : Req) (first count : Nat) (s : State) : Host.Outcome State Fault Refusal :=
  umser r 0x0312 {} s fun s =>
    if 128 ≤ first then s.refuse r 0x0312 stRange 0x20
    else if count = 0 ∨ 128 < first + count then s.refuse r 0x0312 stRange 0x21
    else s.ok r 0x0312 [] ((List.range count).flatMap (fun i => s.stageRecord (first + i)))

/-- STATE code of Table 8.8. -/
def plCode (k : PlState) : Nat :=
  match k with
  | .undefined => 0
  | .idle => 1
  | .placed => 2
  | .sequenced => 3
  | .tripped => 4
  | .migrating => 5
  | .unplaced => 6

/-- CLAIM of a record: the claim, where its 32 bits hold it; what they hold of a larger claim is not
stated (a free value, log entry 7). -/
def claimField (claim : Nat) : Nat :=
  if claim < 2 ^ 32 then claim else (Config.freeWord claim).toNat % 2 ^ 32

/-- The 32 bytes of a placement record (Table 8.9), with the figures that share its stage. -/
def placeBytes (fig sharers : Nat) (p : Placement) : List Byte :=
  let held := holds p && !p.members.isEmpty
  let m := p.members.head?.getD 0xFF
  leBytes 2 fig ++ leBytes 1 (plCode p.state) ++ leBytes 1 p.cause ++
  leBytes 1 (if held then p.members.length else 0) ++ leBytes 1 (if held then m else 0xFF) ++
  leBytes 1 (if held then m / 8 else 0xFF) ++ leBytes 1 (max 1 sharers) ++
  leBytes 1 (if held then nsum (p.members.map (fun k => 2 ^ (k % 8))) else 0) ++
  leBytes 1 (b2n p.pinned + 2 * b2n p.moved + 4 * b2n p.hot + 8 * b2n p.budgetCut) ++
  leBytes 2 p.migCnt.toNat ++ leBytes 4 (claimField p.claim) ++ leBytes 8 p.mtSet.toNat ++
  leBytes 2 p.hotHeads ++ leBytes 1 (if p.state == .undefined then 0xFE else p.mireSet) ++ leBytes 1 0 ++ leBytes 4 p.placeSeq.toNat

/-- Figures of a placement table that hold a stage port. -/
def holdersOf (t : Tab Placement) (port : Nat) : List Nat :=
  (t.filter (fun e => holds e.2 && e.2.members.contains port)).map (fun e => e.1)

/-- Figures on a figure's stage, itself counted; 1 where it shares none (SHARERS of Table 8.9). -/
def sharers (t : Tab Placement) (fig : Nat) : Nat :=
  let p := tget Placement.init t fig
  match p.members with
  | [m] => if holds p then (holdersOf t m).length else 1
  | _ => 1

/-- The record of a figure in a placement table. -/
def placeRecord (t : Tab Placement) (fig : Nat) : List Byte :=
  placeBytes fig (sharers t fig) (tget Placement.init t fig)

/-- FIG_PLACE_READ (R212). -/
def execFigPlaceRead (r : Req) (first count : Nat) (s : State) :
    Host.Outcome State Fault Refusal :=
  umser r 0x0210 {} s fun s =>
    if 4096 ≤ first then s.refuse r 0x0210 stRange 0x20
    else if count = 0 ∨ 2048 < count ∨ 4096 < first + count then s.refuse r 0x0210 stRange 0x22
    else s.ok r 0x0210 (leBytes 2 count)
      ((List.range count).flatMap (fun i => placeRecord s.sets.cast.place (first + i)))

end Sys2Proof.Machine
end

