-- ==== Sys2Proof/Machine/Real.lean ====
section
/-! DEFINITION. Exact fractions and their rounding to binary32 and binary64 (R259, R268): a formula
is computed exactly and rounded once (log entry 17). -/

namespace Sys2Proof.Machine

/-- A fraction; its denominator is positive. -/
structure Frac where
  num : Int
  den : Nat

def Frac.ofInt (n : Int) : Frac := ⟨n, 1⟩
def Frac.add (a b : Frac) : Frac := ⟨a.num * b.den + b.num * a.den, a.den * b.den⟩
def Frac.mul (a b : Frac) : Frac := ⟨a.num * b.num, a.den * b.den⟩
def Frac.neg (a : Frac) : Frac := ⟨-a.num, a.den⟩

/-- a over b; 0 where b is 0. -/
def Frac.div (a b : Frac) : Frac :=
  if b.num = 0 then ⟨0, 1⟩
  else if b.num < 0 then ⟨-(a.num * b.den), a.den * b.num.natAbs⟩
  else ⟨a.num * b.den, a.den * b.num.natAbs⟩

/-- Rounded to the nearest integer, ties away from zero. -/
def Frac.round (a : Frac) : Int := rdiv a.num a.den

/-- An order of fractions. -/
def Frac.le (a b : Frac) : Bool := decide (a.num * b.den ≤ b.num * a.den)

/-- Magnitude, and rounding up. -/
def Frac.abs (a : Frac) : Frac := ⟨a.num.natAbs, a.den⟩
def Frac.ceil (a : Frac) : Nat := (a.num.toNat + a.den - 1) / a.den

/-- num * 2^k / den rounded half to even. -/
def roundScaled (num den : Nat) (k : Int) : Nat :=
  let n := if 0 ≤ k then num * 2 ^ k.toNat else num
  let d := if 0 ≤ k then den else den * 2 ^ (-k).toNat
  let q := n / d
  let r := n % d
  if 2 * r < d then q else if d < 2 * r then q + 1 else q + q % 2

/-- The magnitude num / den in a binary format of p fraction bits, least normal exponent emin, and
infinity inf. -/
def floatBits (p : Nat) (emin : Int) (inf num den : Nat) : Nat :=
  if num = 0 then 0
  else
    let e0 : Int := (Nat.log2 num : Int) - (Nat.log2 den : Int)
    let big : Bool :=
      if 0 ≤ e0 then den * 2 ^ e0.toNat ≤ num else den ≤ num * 2 ^ (-e0).toNat
    let e := max emin (if big then e0 else e0 - 1)
    let m := roundScaled num den ((p : Int) - e)
    min inf (if m < 2 ^ p then m else (e - emin).toNat * 2 ^ p + m)

/-- Nearest binary64, ties to even. -/
def Frac.toF64 (a : Frac) : BitVec 64 :=
  BitVec.ofNat 64 ((if a.num < 0 then 2 ^ 63 else 0) +
    floatBits 52 (-1022) (2047 * 2 ^ 52) a.num.natAbs a.den)

/-- Nearest binary32, ties to even. -/
def Frac.toF32 (a : Frac) : BitVec 32 :=
  BitVec.ofNat 32 ((if a.num < 0 then 2 ^ 31 else 0) +
    floatBits 23 (-126) (255 * 2 ^ 23) a.num.natAbs a.den)

/-- +∞ in binary64. -/
def f64Inf : BitVec 64 := 0x7FF0000000000000#64

/-- The exact value of a finite binary64 word. -/
def f64Frac (w : BitVec 64) : Frac :=
  let e := bits w 62 52
  let m := bits w 51 0
  let mag : Nat := if e = 0 then m else (2 ^ 52 + m) * 2 ^ (e - 1)
  ⟨if w.getLsbD 63 then -(mag : Int) else mag, 2 ^ 1074⟩

/-- A binary64 total plus an exact amount, rounded once. -/
def f64Add (total : BitVec 64) (x : Frac) : BitVec 64 :=
  if total &&& 0x7FF0000000000000#64 = f64Inf then total else ((f64Frac total).add x).toF64

/-- A binary32 field of a descriptor as a fraction. -/
def dFrac (d : BitVec 2048) (off : Nat) : Frac := ⟨df d off, f32One⟩

end Sys2Proof.Machine
end

