-- ==== Sys2Proof/Machine/Measure.lean ====
section
/-! DEFINITION. Measurement processing (chapter 10): correction, units, integrators, results. -/

namespace Sys2Proof.Machine

/-! ## Ticks and stamps (R27, R75, R84) -/

/-- Loop period of a rate code in ns (Table 12.9). -/
def rateNs (rate : Nat) : Nat := 4000 / 2 ^ rate

/-- Loop period of a group in ns. -/
def State.periodNs (s : State) (g : Nat) : Nat := rateNs (s.grpAt g).rate

/-- Whole loop periods of a group that cover a time in µs. -/
def State.ticksUs (s : State) (g us : Nat) : Nat := cdiv (us * 1000) (s.periodNs g)

/-- What MT advances in one core clock, in units of 2^-32 phase (R75), rounded to nearest. -/
def State.mtInc (s : State) : Nat := (s.mt.freq.toNat * 5 * 2 ^ 33 + 10 ^ 9) / (2 * 10 ^ 9)

/-- MT with its further fraction bits, units of 2^-56 cycle. -/
def State.mtFull (s : State) : Nat := s.mt.mt.toNat * 2 ^ 32 + s.mt.frac.toNat

/-- MT a number of core clocks from now. -/
def State.mtAfter (s : State) (clocks : Nat) : DWord :=
  BitVec.ofNat 64 ((s.mtFull + clocks * s.mtInc) / 2 ^ 32)

/-- MT a number of slice ticks before now. -/
def State.mtBefore (s : State) (ticks : Nat) : DWord :=
  BitVec.ofInt 64 (((s.mtFull : Int) - (ticks * 50 * s.mtInc : Nat)) / 2 ^ 32)

/-- MT qualifier of the present condition (R91): LOCKED 0, VIRTUAL 1, SEARCH or ACQUIRE 2,
HOLDOVER 3. -/
def State.mtQual (s : State) : Nat :=
  match s.mt.state with
  | .locked => 0
  | .virtual => 1
  | .search => 2
  | .acquire => 2
  | .holdover => 3

/-- The first instant after an aperture of start S and NPLC code N (R90). -/
def apEnd (a : Aperture) : DWord := a.start + BitVec.ofNat 64 (a.code * 65536)

/-- A stamp lies in an open aperture: R90, or a period of a tick aperture (R261). -/
def apHolds (a : Aperture) (stamp : DWord) : Bool :=
  if a.code = 0 then a.begun && decide (0 < a.ticksLeft)
  else mtLe a.start stamp && !mtLe (apEnd a) stamp

/-- An aperture has reached its end, a tick aperture at the tick that ends its last period (log
entry 19). -/
def apOver (a : Aperture) (now : DWord) : Bool :=
  if a.code = 0 then a.begun && decide (a.ticksLeft ≤ 1) else mtLe (apEnd a) now

/-- Core clocks of 5 ns in a loop period of a group. -/
def State.periodClk (s : State) (g : Nat) : Nat := s.periodNs g / 5

/-- Core clocks from now to the next loop tick of a group, and past it by a number of periods. -/
def State.toTick (s : State) (g periods : Nat) : Nat :=
  (s.grpAt g).tickClk + (periods + 1) * s.periodClk g - s.clk

/-- MT at the next loop tick of a group. -/
def State.nextTick (s : State) (g : Nat) : DWord := s.mtAfter (s.toTick g 0)

/-- MT at the end of an open aperture of a figure in a group; of a tick aperture as the present f_MT
brings it (R261, R262). -/
def State.apEndMt (s : State) (g : Nat) (a : Aperture) : DWord :=
  if a.code ≠ 0 then apEnd a
  else if a.begun then s.mtAfter (s.toTick g (a.ticksLeft - 1))
  else if mtLe a.start (s.nextTick g) then s.mtAfter (s.toTick g a.ticksLeft)
  else a.start + (s.mtAfter (s.toTick g a.ticksLeft) - s.nextTick g)

/-! ## Correction (R253, R257) -/

/-- Measurement words lie in ±(2^31 - 1). -/
def sat31 (x : Int) : Int := clamp (-2147483647) 2147483647 x

/-- The factors of Table 10.1 when nothing else exists. -/
def factorDefault : Factors :=
  { ofs := 0, g := 2 ^ 30, lin := [], aT := 0, gT := 0, tCal := 400 }

/-- The factor set in force of a slice and span (R254). -/
def CalGrp.factors (c : CalGrp) (slice span : Nat) : Factors :=
  tget factorDefault c.inForce (8 * slice + span)

/-- The key of a span among the seven of the spare slice (R216): the current spans follow the four
voltage spans. -/
def spareSpan (slice span : Nat) : Nat := if 8 ≤ slice ∧ slice < 16 then 4 + span else span

/-- The corrected word of a code and whether it is over range (R253, R257). -/
def correct (f : Factors) (tDie code : Int) : Int × Bool :=
  if 524287 ≤ code then (2147483647, true)
  else if code ≤ -524288 then (-2147483647, true)
  else
    let u := (code + 524288).toNat
    let k := u / 16384
    let lo := f.lin.getD k 0
    let lin := 16 * lo + (16 * (f.lin.getD (k + 1) 0 - lo) * ((u % 16384 : Nat) : Int)) / 16384
    let dT := tDie - f.tCal
    let y := code * 2048 + lin - f.ofs - (f.aT * dT) / 16
    let g := (f.g : Int) + (f.gT * dT) / 16
    let w := rdiv (y * g) (2 ^ 30)
    (sat31 w, decide (w ≠ sat31 w))

/-- The spare slice carries a slice (R217). -/
def Acq.carries (a : Acq) (slice : Nat) : Bool := a.spareRole == .carry && a.spareTgt == slice

/-- The word a slice of a group delivers for a code in a span, over range or not: corrected with the
factors of the converting slice (R254). -/
def State.convert (s : State) (g slice span : Nat) (code : Int) : Int × Bool :=
  let c := s.calAt g
  let a := (s.grpAt g).acq
  let f := if a.carries slice then c.factors 17 (spareSpan slice span) else c.factors slice span
  correct f (s.grpAt g).tDie code

/-! ## Physical units (R259) -/

/-- Half-width of a voltage or aux span in V (R218). -/
def vFs (span : Nat) : Frac := ⟨([12000, 4000, 1200, 400] : List Int).getD span 0, 1000⟩

/-- Half-width of a current span in V. -/
def iFs (code : Nat) : Frac := ⟨1, 10 ^ code⟩

/-- VS_SCALE, FORCE_GAIN. -/
def dScale (d : BitVec 2048) : Frac := dFrac d 0x4C
def dGain (d : BitVec 2048) : Frac := dFrac d 0x44

/-- a of R268: volts of stage output per word. -/
def voltsPerWord (d : BitVec 2048) (vspan : Nat) : Frac :=
  let a := ((vFs vspan).mul (dScale d)).mul (if dCal d then dFrac d 0xB0 else ⟨1, 1⟩)
  ⟨a.num, a.den * 2 ^ 30⟩

/-- b of R268: volts at word 0. -/
def voltsOffset (d : BitVec 2048) : Frac := if dCal d then dFrac d 0xB4 else ⟨0, 1⟩

/-- Full-scale current of a range in A. -/
def ampsFull (d : BitVec 2048) (r : Nat) : Frac := (iFs (dSpan d r)).div ⟨dShunt d r, f32One⟩

/-- c of R268: amperes per word. -/
def ampsPerWord (d : BitVec 2048) (r : Nat) : Frac :=
  let c := ampsFull d r
  ⟨c.num, c.den * 2 ^ 30⟩

/-- The stage output voltage of a word, in V. -/
def voltsOf (d : BitVec 2048) (vspan : Nat) (w : Int) : Frac :=
  ((voltsPerWord d vspan).mul (Frac.ofInt w)).add (voltsOffset d)

/-- The current of a word, in A. -/
def ampsOf (d : BitVec 2048) (r : Nat) (w : Int) : Frac := (ampsPerWord d r).mul (Frac.ofInt w)

/-- A voltage in V as a word (R317). -/
def voltsWord (d : BitVec 2048) (vspan : Nat) (v : Frac) : Int :=
  sat31 ((v.add (voltsOffset d).neg).div (voltsPerWord d vspan)).round

/-- A current in A as a word (R317). -/
def ampsWord (d : BitVec 2048) (r : Nat) (i : Frac) : Int := sat31 (i.div (ampsPerWord d r)).round

/-- A count of micro-units. -/
def micro (x : Int) : Frac := ⟨x, 1000000⟩

/-- ρ of R264 for a change of voltage span, and of current range. -/
def rhoV (old new : Nat) : Frac := (vFs old).div (vFs new)
def rhoI (d : BitVec 2048) (old new : Nat) : Frac := (ampsFull d old).div (ampsFull d new)

/-- A word on a rescaled range. -/
def rescaleWord (rho : Frac) (w : Int) : Int := (rho.mul (Frac.ofInt w)).round

/-! ## Integrators (R260 to R265) -/

/-- An integrator as it opens on a range and a voltage span. -/
def Integ.opened (d : BitVec 2048) (rng vspan : Nat) : Integ :=
  { sumV := 0, sumI := 0, sumP := 0, minV := 0, maxV := 0, minI := 0, maxI := 0, count := 0
    ovr := 0, rsw := 0, spare := 0, desc := d, rng := rng, vspan := vspan }

/-- A bit of MS_STAT in either word of a sample. -/
def Sample.has (x : Sample) (bit : Nat) : Bool := x.statV.getLsbD bit || x.statI.getLsbD bit

/-- The power word (R260). -/
def powerWord (wV wI : Int) : Int := rdiv (wV * wI) (2 ^ 30)

/-- A sample's words on the range and span an integrator stands on; they differ only for a sample
from before a change that the aperture is opened after (R264). -/
def Integ.words (n : Integ) (x : Sample) : Int × Int :=
  (if x.vspan = n.vspan then x.wV else sat31 (rescaleWord (rhoV x.vspan n.vspan) x.wV),
   if x.rng = n.rng then x.wI else sat31 (rescaleWord (rhoI n.desc x.rng n.rng) x.wI))

/-- Take one sample in. -/
def Integ.add (n : Integ) (x : Sample) : Integ :=
  let fresh := n.count == 0
  let w := n.words x
  { n with
    sumV := n.sumV + w.1 * 65536
    sumI := n.sumI + w.2 * 65536
    sumP := n.sumP + powerWord w.1 w.2 * 65536
    minV := if fresh then w.1 else min n.minV w.1
    maxV := if fresh then w.1 else max n.maxV w.1
    minI := if fresh then w.2 else min n.minI w.2
    maxI := if fresh then w.2 else max n.maxI w.2
    count := n.count + 1
    ovr := n.ovr + b2n (x.has 6)
    rsw := n.rsw + b2n (x.statI.getLsbD 2)
    spare := n.spare + b2n (x.has 7) }

/-- Rescale for a change to a range and a span (R264), with the constants of the aperture's opening
(R263): the new integrator and whether an extreme saturated. -/
def Integ.rescale (n : Integ) (rng vspan : Nat) : Integ × Bool :=
  let rv : Frac := if vspan = n.vspan then ⟨1, 1⟩ else rhoV n.vspan vspan
  let ri : Frac := if rng = n.rng then ⟨1, 1⟩ else rhoI n.desc n.rng rng
  let e (r : Frac) (w : Int) : Int := rescaleWord r w
  let all := [(rv, n.minV), (rv, n.maxV), (ri, n.minI), (ri, n.maxI)]
  ({ n with
      sumV := (rv.mul (Frac.ofInt n.sumV)).round
      sumI := (ri.mul (Frac.ofInt n.sumI)).round
      sumP := ((rv.mul ri).mul (Frac.ofInt n.sumP)).round
      minV := sat31 (e rv n.minV)
      maxV := sat31 (e rv n.maxV)
      minI := sat31 (e ri n.minI)
      maxI := sat31 (e ri n.maxI)
      rng := rng
      vspan := vspan },
   all.any (fun p => e p.1 p.2 != sat31 (e p.1 p.2)))

/-- Members of a figure's stage or gang, ascending (R192). -/
def State.members (s : State) (f : Nat) : List Nat := (s.placeAt f).members

/-- The open apertures that cover a port, with their figures. -/
def State.apsOn (s : State) (p : Nat) : List (Nat × Aperture) :=
  s.fig.filterMap (fun e =>
    match e.2.apOpen with
    | some a => if a.members.contains p then some (e.1, a) else none
    | none => none)

/-- Rescale the open aperture that covers a port to a range and a span; one that ends at this
boundary keeps the scale it closes on (R264). -/
def State.rescaleAperture (s : State) (p rng vspan : Nat) : State :=
  (s.apsOn p).foldl (fun t e =>
    match (t.spAt p).meas.integ with
    | some n =>
      if e.2.next.isSome || apOver e.2 t.mt.mt then t
      else
        let r := n.rescale rng vspan
        let t1 := t.modSp p (fun x => { x with meas := { x.meas with integ := some r.1 } })
        t1.modFig e.1 (fun x =>
          { x with apOpen := x.apOpen.map (fun a => { a with rchg := true, mmSat := a.mmSat || r.2 }) })
    | none => t) s

/-- What a sample leaves in an open aperture beyond the integrators. -/
def apMark (a : Aperture) (x : Sample) (qual : Nat) : Aperture :=
  { a with
    first := some (a.first.getD x.stamp)
    novr := a.novr || x.has 5
    spare := a.spare || x.has 7
    tmiss := a.tmiss || x.has 3
    qual := max a.qual qual }

/-- Take one sample instant of an open aperture's ports into it. -/
def State.apTake (s : State) (f : Nat) (x : Nat → Sample) : State :=
  match (s.figAt f).apOpen with
  | some a =>
    let stamp := (x (a.members.headD 0)).stamp
    if apHolds a stamp then
      let t := a.members.foldl (fun t p => t.modSp p (fun y =>
        { y with meas := { y.meas with integ := y.meas.integ.map (fun n => n.add (x p)) } })) s
      let a1 := a.members.foldl (fun b p => apMark b (x p) s.mtQual) a
      t.modFig f (fun y => { y with apOpen := some a1 })
    else if a.next.isNone && a.code != 0 && mtLe (apEnd a) stamp then
      s.modFig f (fun y => { y with apOpen := some { a with next := some stamp } })
    else s
  | none => s

/-- The MT condition of this clock counts for every open aperture (R91). -/
def State.apQual (s : State) : State :=
  { s with fig := s.fig.map (fun e =>
      (e.1, { e.2 with apOpen := e.2.apOpen.map (fun a => { a with qual := max a.qual s.mtQual }) })) }

/-- Charge and energy one sample of a port adds: I and P over 250 ns (R268, R270). -/
def sampleTotals (d : BitVec 2048) (vspan r : Nat) (x : Sample) : Frac × Frac :=
  let i := ampsOf d r x.wI
  let c := ampsPerWord d r
  let p := (((voltsPerWord d vspan).mul c).mul (Frac.ofInt (powerWord x.wV x.wI * 2 ^ 30))).add
    ((voltsOffset d).mul i)
  (i.mul ⟨250, 10 ^ 9⟩, p.mul ⟨250, 10 ^ 9⟩)

/-- Add one sample instant of a figure's ports to its running totals (R270). -/
def State.totTake (s : State) (f : Nat) (x : Nat → Sample) : State :=
  if (s.figAt f).enabled && s.castN 0x417 f == 1 then
    let part := (s.members f).foldl (fun (acc : Frac × Frac) p =>
      let t := sampleTotals ((s.desc p).getD 0#2048) (x p).vspan (x p).rng (x p)
      (acc.1.add t.1, acc.2.add t.2)) (⟨0, 1⟩, ⟨0, 1⟩)
    s.modFig f (fun y => { y with qTot := f64Add y.qTot part.1, eTot := f64Add y.eTot part.2 })
  else s

/-! ## Opening an aperture (R261, R262) -/

/-- An aperture as it waits. -/
def apRequest (start : DWord) (code point : Nat) (asap late : Bool) : Aperture :=
  { start := start, code := code, point := point, first := none, next := none, asap := asap
    ticksLeft := 0, begun := false, members := [], mode := 0, late := late, rchg := false
    mmSat := false, novr := false, spare := false, tmiss := false, qual := 0 }

/-- The group a figure is placed in. -/
def State.grpOf (s : State) (f : Nat) : Nat := (s.members f).headD 0 / 8

/-- A request that starts at an instant can be taken (R262): nothing waits, and its start is not
before the end of the open one. -/
def State.apFree (s : State) (f : Nat) (start : DWord) : Bool :=
  (s.figAt f).apWait.isNone &&
    (match (s.figAt f).apOpen with
     | none => true
     | some a => mtLe (s.apEndMt (s.grpOf f) a) start)

/-- Put a request of a figure in wait. -/
def State.apAsk (s : State) (f : Nat) (a : Aperture) : State :=
  s.modFig f (fun x => { x with apWait := some a })

/-- A figure's ports are free for an aperture: none is open, for a sample belongs to one aperture of a port
at most (R261), and no site change waits (R170). -/
def State.apClear (s : State) (f : Nat) : Bool :=
  (s.members f).all (fun p =>
    (s.spAt p).meas.integ.isNone && (s.spAt p).force.siteNext.isNone && (s.spAt p).force.siteWait == 0)

/-- A sample of a port that has none. -/
def Sample.blank : Sample :=
  { stamp := 0#64, wV := 0, wI := 0, statV := 0#8, statI := 0#8, rng := 0, vspan := 0 }

/-- Open the waiting aperture of a figure once its ports are free: the integrators of its members
start with the constants in force, on the latest samples that belong to it; one that starts as it
opens starts now (R87), and a tick aperture whose first tick has passed began there (R261). -/
def State.apStart (s : State) (f : Nat) : State :=
  match (s.figAt f).apWait, (s.figAt f).apOpen, s.apClear f with
  | some a, none, true =>
    let tick := (s.grpAt (s.grpOf f)).tickMt
    let begun := a.code == 0 && !a.asap && mtLe a.start tick
    let a1 : Aperture :=
      { a with
        start := if a.asap then s.mt.mt else a.start
        ticksLeft := if a.code = 0 then s.castN 0x416 f else 0
        begun := begun
        members := s.members f
        mode := (s.figAt f).mode
        qual := s.mtQual }
    let t := (s.members f).foldl (fun t p => t.modSp p (fun y =>
      { y with meas := { y.meas with
          integ := some (Integ.opened ((s.desc p).getD 0#2048) y.force.rng y.force.vspan) } })) s
    let t := t.modFig f (fun y => { y with apOpen := some a1, apWait := none })
    let n := lmax ((s.members f).map (fun p => (s.spAt p).meas.recent.length))
    let t := (List.range n).foldl (fun t i =>
      let at_ (p : Nat) : Sample := (s.spAt p).meas.recent.getD i Sample.blank
      if a.code != 0 || (begun && mtLe tick (at_ ((s.members f).headD 0)).stamp) then t.apTake f at_
      else t) t
    t.raiseFig f 7
  | _, _, _ => s

/-! ## Results (R263 to R271) -/

/-- One port's part of a result. -/
structure PortResult where
  port : Nat
  integ : Integ

/-- Mean of a sum as Q32.16 (R263); an integrator that took no sample stands for its open mean. -/
def meanQ (sum : Int) (count : Nat) : Int := rdiv sum (max 1 count)

/-- A Q32.16 value as words. -/
def q16 (x : Int) : Frac := ⟨x, 65536⟩

/-- Current of a port's result in A (R268). -/
def PortResult.amps (r : PortResult) : Frac :=
  (ampsPerWord r.integ.desc r.integ.rng).mul (q16 (meanQ r.integ.sumI r.integ.count))

/-- Voltage of a port's result in V. -/
def PortResult.volts (r : PortResult) : Frac :=
  ((voltsPerWord r.integ.desc r.integ.vspan).mul (q16 (meanQ r.integ.sumV r.integ.count))).add
    (voltsOffset r.integ.desc)

/-- Power of a port's result in W. -/
def PortResult.watts (r : PortResult) : Frac :=
  let a := voltsPerWord r.integ.desc r.integ.vspan
  let c := ampsPerWord r.integ.desc r.integ.rng
  (((a.mul c).mul (Frac.ofInt (2 ^ 30))).mul (q16 (meanQ r.integ.sumP r.integ.count))).add
    ((voltsOffset r.integ.desc).mul r.amps)

/-- Why an aperture closed early: CAUSE of Table 10.4 and its flag. -/
def causeFlags (cause : Nat) : Nat :=
  if cause = 0 then 0
  else if cause = 1 ∨ cause = 2 ∨ cause = 3 ∨ cause = 8 then 0x40 else 0x80

/-- A result: everything its record and registers need. -/
structure ApResult where
  fig : Nat
  ap : Aperture
  parts : List PortResult
  cause : Nat
  mode : Nat
  /-- MT of the close, and the stamp of the sample that comes next. -/
  closed : DWord
  following : DWord
  qTot : BitVec 64
  eTot : BitVec 64
  gap : Bool

/-- The master's part. -/
def ApResult.master (r : ApResult) : PortResult :=
  r.parts.headD ⟨0, Integ.opened 0#2048 0 0⟩

/-- Sum of a quantity over the members (R269). -/
def ApResult.sum (r : ApResult) (f : PortResult → Frac) : Frac :=
  r.parts.foldl (fun a p => a.add (f p)) ⟨0, 1⟩

/-- RES is undefined (R268). -/
def ApResult.resUndef (r : ApResult) : Bool :=
  (meanQ r.master.integ.sumI r.master.integ.count).natAbs < 2 ^ 27

/-- FLAGS of Table 10.7. -/
def ApResult.flags (r : ApResult) : Nat :=
  let n := r.master.integ
  b2n (n.ovr != 0) + 2 * b2n r.ap.novr + 4 * b2n r.ap.rchg + 8 * b2n (n.rsw != 0) + 16 * b2n r.ap.spare +
  32 * b2n r.ap.tmiss + causeFlags r.cause +
  256 * b2n (r.cause != 0 && n.count != 0) + 512 * b2n (n.count == 0) +
  1024 * b2n r.resUndef + 2048 * b2n r.ap.mmSat + 4096 * b2n r.ap.late + 8192 * b2n r.gap +
  16384 * r.ap.qual

/-- RANGE of Table 10.6. -/
def PortResult.range (r : PortResult) : Nat := r.integ.rng + 8 * r.integ.vspan

/-- MT_FIRST and MT_NEXT; with EMPTY the start S and the slice tick of the close (R266). -/
def ApResult.mtFirst (r : ApResult) : DWord :=
  if r.master.integ.count = 0 then r.ap.start else r.ap.first.getD r.ap.start
def ApResult.mtNext (r : ApResult) : DWord :=
  if r.master.integ.count = 0 then r.closed else r.ap.next.getD r.following

/-- A Q32.16 mean as its 64-bit field. -/
def meanField (sum : Int) (count : Nat) : List Byte :=
  leBytes 8 (BitVec.ofInt 64 (meanQ sum count)).toNat

/-- The 144 bytes of the record (Table 10.6). -/
def ApResult.bytes (r : ApResult) : List Byte :=
  let m := r.master
  let n := m.integ
  let amps := r.sum PortResult.amps
  let watts := r.sum PortResult.watts
  let time : Frac := ⟨(n.count : Int) * 250, 10 ^ 9⟩
  let res := if r.resUndef then f64Inf
    else (m.volts.div (if r.mode ≤ 1 then amps else amps.neg)).toF64
  let w (x : Int) : List Byte := leBytes 4 (w32 x).toNat
  let d (x : BitVec 64) : List Byte := leBytes 8 x.toNat
  leBytes 2 r.fig ++ leBytes 1 m.port ++ leBytes 1 m.range ++ leBytes 2 r.flags ++
  leBytes 1 r.cause ++ leBytes 1 r.parts.length ++ d r.mtFirst ++ d r.mtNext ++
  leBytes 4 n.count ++ leBytes 4 n.ovr ++ leBytes 4 n.rsw ++ leBytes 2 r.ap.point ++ leBytes 2 0 ++
  meanField n.sumV n.count ++ meanField n.sumI n.count ++ meanField n.sumP n.count ++
  w n.minV ++ w n.maxV ++ w n.minI ++ w n.maxI ++
  d m.volts.toF64 ++ d amps.toF64 ++ d watts.toF64 ++ d res ++
  d (amps.mul time).toF64 ++ d (watts.mul time).toF64 ++ d r.qTot ++ d r.eTot

/-- What the result registers of a member show, the generation tag apart (Table 10.9). -/
def ApResult.regs (r : ApResult) (p : PortResult) : ApRegs :=
  let n := p.integ
  { vMean := BitVec.ofInt 48 (meanQ n.sumV n.count)
    iMean := BitVec.ofInt 48 (meanQ n.sumI n.count)
    pMean := BitVec.ofInt 48 (meanQ n.sumP n.count)
    mtFirst := r.mtFirst
    count := BitVec.ofNat 32 n.count
    flags := BitVec.ofNat 16 r.flags
    cause := r.cause
    gen := 0 }

/-- Stamp of the sample instant of a group that comes next: the first of the comb still to come, else
the loop sample of the next period (R225, log entry 18). -/
def State.nextSample (s : State) (g : Nat) : DWord :=
  match (s.grpAt g).acq.comb with
  | i :: _ => i.stamp.getD (s.mtAfter (i.clk - s.clk))
  | [] => s.mtAfter (s.toTick g 0 + (s.grpAt g).acq.combPhase / 50 * 50)

/-- Free values a result uses: seven for each member (log entry 7). -/
def State.freshResult (s : State) : State := { s with free := s.free + 56 }

/-- What an integrator without a sample shows: no mean and no extreme exists, and the spec states none;
member k of a result has free values of its own (log entry 7). -/
def State.openMeans (s : State) (k : Nat) (n : Integ) : Integ :=
  let v (j : Nat) : Int := Config.freeInt (s.free + 7 * k + j)
  if n.count = 0 then
    { n with sumV := v 0, sumI := v 1, sumP := v 2, minV := v 3, maxV := v 4, minI := v 5, maxI := v 6 }
  else n

/-- The result an aperture of a figure gives now. -/
def State.apResult (s : State) (f : Nat) (a : Aperture) (empty : Bool) (cause : Nat) : ApResult :=
  let mem := if empty && a.members.isEmpty then s.members f else a.members
  let part (p : Nat) : PortResult :=
    let x := s.spAt p
    let blank := Integ.opened ((s.desc p).getD 0#2048) x.force.rng x.force.vspan
    ⟨p, s.openMeans (mem.idxOf p) (if empty then blank else x.meas.integ.getD blank)⟩
  let x := s.figAt f
  let g := mem.headD 0 / 8
  { fig := f, ap := a, parts := mem.map part, cause := cause
    mode := if empty && a.members.isEmpty then x.mode else a.mode
    closed := s.mt.mt, following := s.nextSample g, qTot := x.qTot, eTot := x.eTot, gap := x.totGap }

/-- The packet a result's record makes, with what its commit brings about (R267, R275, R279). -/
def State.apPacket (s : State) (r : ApResult) : Building :=
  { key := BitVec.ofNat 32 r.ap.point, stamp := s.mt.mt, payload := recordWords r.bytes
    note := some { regs := r.parts.map (fun p => (p.port, r.regs p)), ovr := r.master.integ.ovr != 0 } }

/-- Deliver a result to its figure's measurement stream (R267). While the data plane is down it is
held until that runs again (R22). -/
def State.apDeliver (s : State) (r : ApResult) : State :=
  let t := s.freshResult.modFig r.fig (fun y => { y with totGap := false })
  if s.rst.dataUp then t.produce (64 * r.fig) (s.apPacket r)
  else t.modFig r.fig (fun y => { y with apHeld := y.apHeld ++ [s.apPacket r] })

/-- Close the open aperture of a figure with a cause of Table 10.4, 0 at its end (R263, R266). -/
def State.apClose (s : State) (f cause : Nat) : State :=
  match (s.figAt f).apOpen with
  | none => s
  | some a =>
    let t := s.apDeliver (s.apResult f a false cause)
    let t := t.modFig f (fun y => { y with apOpen := none })
    a.members.foldl (fun t p => t.modSp p (fun y =>
      { y with meas := { y.meas with integ := none } })) t

/-- Deliver what waits, empty (R266). -/
def State.apDrop (s : State) (f cause : Nat) : State :=
  match (s.figAt f).apWait with
  | none => s
  | some a =>
    (s.apDeliver (s.apResult f a true cause)).modFig f (fun y => { y with apWait := none })

/-- A tick aperture of a figure meets a loop tick of its group: its first period begins, or one more
has ended (R261). -/
def Fig.apTick (x : Fig) (now : DWord) : Fig :=
  { x with apOpen := x.apOpen.map (fun a =>
      if a.code != 0 then a
      else if a.begun then { a with ticksLeft := a.ticksLeft - 1 }
      else { a with begun := mtLe a.start now }) }

/-! ## Commands -/

/-- A command that reads or steers one defined figure that is enabled and placed. -/
def State.figBad (s : State) (f : Nat) : Option (Nat × Nat) :=
  if 4096 ≤ f || !s.defined f then some (stRange, 0x20)
  else if !(s.figAt f).enabled || !holds (s.placeAt f) then some (stNotReady, 0)
  else none

/-- MEAS_APERTURE (R262, R277): S = 0 is the first loop tick after acceptance. -/
def execMeasAperture (r : Req) (fig code : Nat) (start : DWord) (s : State) :
    Host.Outcome State Fault Refusal :=
  umser r 0x0B01 { needs := [5], standbyOk := false } s fun s =>
    match s.figBad fig with
    | some (st, d) => s.refuse r 0x0B01 st d
    | none =>
      let late := start != 0#64 && !mtLe s.mt.mt start
      let asap := late || start == 0#64
      let from_ := if asap then s.nextTick (s.grpOf fig) else start
      if !s.apFree fig from_ then s.refuse r 0x0B01 stBusy
      else
        let a := apRequest (if asap then s.mt.mt else start) code 0xFFFF asap late
        let n := if (s.figAt fig).apOpen.isNone && asap then 1 else 2
        (s.apAsk fig a).ok r 0x0B01 (leBytes 1 n) []

/-- MEAS_TOTAL_CLEAR (R277): the totals clear at the next loop tick. -/
def execMeasTotalClear (r : Req) (fig : Nat) (s : State) : Host.Outcome State Fault Refusal :=
  umser r 0x0B03 { needs := [5], standbyOk := false } s fun s =>
    match s.figBad fig with
    | some (st, d) => s.refuse r 0x0B03 st d
    | none =>
      (s.modFig fig (fun x => { x with totClear := true })).ok r 0x0B03 [] []

/-- MEAS_SNAPSHOT (R274): waits for the next common boundary. -/
def execMeasSnapshot (r : Req) (mask : BitVec 16) (s : State) : Host.Outcome State Fault Refusal :=
  umser r 0x0B02 { needs := [5] } s fun s =>
    match (setBits 16 mask.toNat).find? (fun g => !s.hasGrp g) with
    | some g => s.refuse r 0x0B02 stAbsent g
    | none =>
      let x : SnapReq :=
        { mbx := r.mbx, tag := r.tag, mask := mask, outLen := r.outLen, outAddr := r.outAddr
          mtAccept := s.mt.mt, got := [], boundary := 0#64
          target := 1 + lmax ((List.range s.groups).map (fun g => (s.grpAt g).frames)) }
      { s with misc := { s.misc with snaps := s.misc.snaps ++ [x] } }

end Sys2Proof.Machine
end

