-- ==== Sys2Proof/Machine/Port.lean ====
section
/-! DEFINITION. A port and its slices: what the group's samples need of them (chapters 9 and 13). -/

namespace Sys2Proof.Machine

/-- Change the force path, loop, supervision of a port. -/
def State.modForce (s : State) (p : Nat) (f : Force → Force) : State :=
  s.modSp p (fun x => { x with force := f x.force })
def State.modLoop (s : State) (p : Nat) (f : Loop → Loop) : State :=
  s.modSp p (fun x => { x with loop := f x.loop })
def State.modSup (s : State) (p : Nat) (f : Sup → Sup) : State :=
  s.modSp p (fun x => { x with sup := f x.sup })

/-- Change the acquisition state of a group. -/
def State.modAcq (s : State) (g : Nat) (f : Acq → Acq) : State :=
  s.modGrp g (fun x => { x with acq := f x.acq })

/-- Set bits of ACQ_FLAGSn. -/
def State.acqFlag (s : State) (g : Nat) (m : Word) : State :=
  s.modAcq g (fun a => { a with flags := a.flags ||| m })

/-- A group runs: it is present, the control plane is up and it is in no context reset. -/
def State.grpRuns (s : State) (g : Nat) : Bool :=
  s.hasGrp g && s.rst.ctrlUp && !(s.grpAt g).ctxReset

/-! ## Boundaries (R27, R85, R461, R466) -/

/-- The loop tick to come is a common boundary of every present group. -/
def State.commonNext (s : State) : Bool :=
  (List.range s.groups).all (fun g => (s.grpAt g).frame == 0 && (s.grpAt g).frames == (s.grpAt 0).frames)

/-- The boundary a transferred set waits for has come. -/
def State.landsNow (s : State) (x : Transfer) : Bool :=
  s.rst.ctrlUp && s.commonNext &&
    (match x.at_ with
     | some t => x.late || mtLe t s.mt.mt
     | none => true) &&
    (!x.paired || mtLe x.target s.mt.mt)

/-- An Unveil takes effect at this tick: it comes first (R19, R88). -/
def State.swapFirst (s : State) : Bool :=
  match s.sets.transfer with
  | some x => s.landsNow x
  | none => false

/-- The descriptor of a port, zeros where it has none. -/
def State.descOf (s : State) (p : Nat) : BitVec 2048 := (s.desc p).getD 0#2048

/-- The output state a channel runs in: on a standby the shadow's (R599). -/
def outOf (x : Sp) : OutState := if x.force.out == .standby then x.loop.shadow else x.force.out

/-! ## Frozen codes (R369) -/

/-- A port whose frozen counts run. -/
def frozenRuns (x : Sp) : Bool :=
  let o := outOf x
  (o == .armed || o == .ramp || o == .regulating || o == .rampDown) && !x.sup.checking

/-- Count one comb sample of a slice: a new code or an over-range sample starts over. -/
def frozenNext (n : Nat) (last code : Int) (ovr runs : Bool) : Nat :=
  if !runs || ovr then 0 else if code = last then max n 1 + 1 else 1

/-- Count one sample of a port's two slices. -/
def Sup.frozen (x : Sup) (runs : Bool) (v i : Int) (ovrV ovrI : Bool) : Sup :=
  { x with
    froV := frozenNext x.froV x.codeV v ovrV runs
    froI := frozenNext x.froI x.codeI i ovrI runs
    codeV := v
    codeI := i }

/-- The IS pair of a port can be checked: not on the ±10 mV span, and |w_I| at most 2^29. -/
def State.leadCurrent (s : State) (p : Nat) : Bool :=
  let x := s.spAt p
  dSpan (s.descOf p) x.force.rng ≤ 1 && decide (x.meas.wI.natAbs ≤ 2 ^ 29)

/-! ## Codes (R218, R220) -/

/-- The span a slice of a group stands on: sense slices those of their ports (R216). -/
def State.spanOf (s : State) (g slice : Nat) : Nat :=
  if slice < 8 then (s.spAt (8 * g + slice)).force.vspan
  else
    let p := 8 * g + slice - 8
    dSpan (s.descOf p) (s.spAt p).force.rng

/-- Half-width of a span of a slice (R218). -/
def fsOf (slice span : Nat) : Frac := if 8 ≤ slice ∧ slice < 16 then iFs span else vFs span

/-- The raw code of an input in pV at the shared-channel node, on a span of half-width fs (R218). -/
def codeIn (fs : Frac) (input : Int) : Int :=
  clamp (-524288) 524287 (((⟨input * 2 ^ 19, 10 ^ 12⟩ : Frac).div fs).round)

/-- The input of a slice in a sample instant, pV; an input that is not listed is 0 V. -/
def inputOf (l : List (Nat × Int)) (slice : Nat) : Int :=
  ((l.find? (fun e => e.1 == slice)).map (fun e => e.2)).getD 0

/-- The code a slice of a group delivers in an instant; the spare converts for a slice it carries, with
what its own chain sees where that is listed (R216, R217). -/
def State.codeOf (s : State) (g : Nat) (l : List (Nat × Int)) (slice : Nat) : Int :=
  let by_ := if (s.grpAt g).acq.carries slice && l.any (fun e => e.1 == 17) then 17 else slice
  codeIn (fsOf slice (s.spanOf g slice)) (inputOf l by_)

/-- A code is at a rail (R220). -/
def atRail (code : Int) : Bool := code ≤ -524288 || 524287 ≤ code

/-- Sense slices at a rail in an instant. -/
def State.rails (s : State) (g : Nat) (l : List (Nat × Int)) : List Nat :=
  (List.range 16).filter (fun k => atRail (s.codeOf g l k))

/-- The core clock of the slice tick at or before now (R84). -/
def State.sliceClk (s : State) (g : Nat) : Nat := s.clk - (s.clk - (s.grpAt g).tickClk) % 50

end Sys2Proof.Machine
end

