-- ==== Sys2Proof/Machine/Acq.lean ====
section
/-! DEFINITION. Acquisition (chapter 9): triggers, the aux sequence, urgent conversions, raw
capture. -/

namespace Sys2Proof.Machine

/-! ## The group trigger (R222 to R225) -/

/-- Length of the capture window in 5 ns units. -/
def State.window5 (s : State) (g : Nat) : Nat := (s.periodNs g - 500) / 5

/-- An edge on the land of the trigger port qualifies in PWM mode (R223). -/
def Acq.qualifies (a : Acq) (e : LandEdge) : Bool :=
  a.trigMode == 1 && e.port == a.trigPort && (a.trigEdge == 2 || e.rising == (a.trigEdge == 0))

/-- The trigger instant that the qualifying edges of a period give: the first one plus d, inside the
capture window (R223). -/
def State.edgeTrigger (s : State) (g : Nat) (edges : List LandEdge) : Option Nat :=
  let l := (edges.filter (s.grpAt g).acq.qualifies).map (fun e => e.ofs)
  match l with
  | [] => none
  | o :: t =>
    let n := t.foldl min o + s.castN 0x501 g
    if n ≤ s.window5 g then some n else none

/-- Fix the trigger instant of the period to come, as an offset in 5 ns units (R225); edge says that a
qualifying edge arrives in it. A phase that changes abandons the comb sample before it. -/
def State.trigger (s : State) (g ofs : Nat) (miss edge : Bool) : State :=
  let a := (s.grpAt g).acq
  let rph := ofs % 50 != a.combPhase % 50
  let t := s.modAcq g (fun a =>
    { a with
      trigNow := true
      edgeSeen := a.edgeNow
      edgeNow := edge
      combPhase := ofs
      rphNow := rph
      tmissNow := miss
      tmiss := if miss then bump a.tmiss else a.tmiss
      flags := a.flags ||| bitAt rph 1 ||| bitAt miss 0 })
  let t := t.raiseGrp g 1
  if miss then t.raiseGrp g 2 else t

/-- The trigger of the period to come with the edges that arrive in it: the first qualifying edge plus
d or a miss in PWM, the fixed offset d in TIMER (R222, R223). -/
def State.triggerBy (s : State) (g : Nat) (edges : List LandEdge) : State :=
  let a := (s.grpAt g).acq
  if a.trigMode = 1 then
    let seen := edges.any a.qualifies
    match s.edgeTrigger g edges with
    | some n => s.trigger g n false seen
    | none => s.trigger g (s.window5 g) true seen
  else s.trigger g (s.castN 0x501 g) false false

/-- GROUP_TRIGGER (R222, R223, R225): the edges of the period fix an instant in the window. -/
def execGroupTrigger (grp : Nat) (edges : List LandEdge) (s : State) : Host.Outcome State Fault Refusal :=
  let a := (s.grpAt grp).acq
  finish s
    (if s.grpRuns grp && !a.trigNow && (a.trigMode != 1 || (s.edgeTrigger grp edges).isSome) then
      s.triggerBy grp edges
    else s)

/-- TRIGGER_MISS (R223): no edge of the period gives an instant in the window. -/
def execTriggerMiss (p : GroupEdges) (s : State) : Host.Outcome State Fault Refusal :=
  let a := (s.grpAt p.grp).acq
  finish s
    (if s.grpRuns p.grp && !a.trigNow && a.trigMode == 1 && (s.edgeTrigger p.grp p.edges).isNone then
      s.triggerBy p.grp p.edges
    else s)

/-- The trigger of a period for which no row came: no edge arrived. -/
def State.defaultTrigger (s : State) (g : Nat) : State :=
  if (s.grpAt g).acq.trigNow then s else s.triggerBy g []

/-! ## Raw words (R219) -/

/-- What marks the samples of one instant. -/
structure Marks where
  loop : Bool
  rph : Bool
  tmiss : Bool

/-- A raw word (Table 9.3). -/
def rawWord (slice : Nat) (code : Int) (spare novr : Bool) (m : Marks) : Word :=
  bitAt spare 31 ||| bitAt (atRail code) 30 ||| bitAt m.rph 29 ||| bitAt m.loop 28 |||
  bitAt novr 27 ||| bitAt m.tmiss 26 ||| at32 slice 20 |||
  ((BitVec.ofInt 20 code).setWidth 32)

/-! ## Raw capture (R249) -/

/-- Put a word into the packet in progress of a figure's raw stream; a full packet is built. -/
def State.rawPush (s : State) (g : Nat) (c : RawCap) (w : DWord) (stamp : DWord) : State :=
  let q := 64 * c.fig + 5
  let b := (s.queAt q).building.getD { key := BitVec.ofNat 32 c.done, stamp := stamp, payload := [] }
  let b1 : Building := { b with payload := b.payload ++ [w] }
  if b1.payload.length < 64 then s.modQue q (fun x => { x with building := some b1 })
  else
    ((s.modQue q (fun x => { x with building := none })).produce q b1).modAcq g (fun a =>
      { a with cap := a.cap.map (fun c => { c with packets := c.packets + 1 }) })

/-- Put one raw word into a capture: two make a queue word, the first in bits 31:0; the word's packet
carries the stamp of the first one's instant. -/
def State.rawHalf (s : State) (g : Nat) (w : Word) (stamp : DWord) : State :=
  match (s.grpAt g).acq.cap with
  | none => s
  | some c =>
    match c.half with
    | none => s.modAcq g (fun a => { a with cap := some { c with half := some (w, stamp) } })
    | some lo =>
      (s.modAcq g (fun a => { a with cap := some { c with half := none } })).rawPush g c
        (w ++ lo.1) lo.2

/-- The command a capture belongs to. -/
def RawCap.owns (c : RawCap) (o : Outstanding) : Bool :=
  o.opcode == 0x0A06 && o.mbx == c.mbx && o.tag == c.tag

/-- What ACQ_RAW_CAPTURE answers. -/
def RawCap.answer (c : RawCap) (status detail : Nat) : Answer :=
  { status := status, detail := detail
    result := leBytes 4 c.firstSeq.toNat ++ leBytes 4 c.packets ++ leBytes 4 c.done }

/-- End a capture at its last instant: the packet in progress is built. -/
def State.rawEnd (s : State) (g : Nat) : State :=
  let s := match (s.grpAt g).acq.cap with
    | some c => if c.half.isSome then s.rawHalf g 0#32 s.mt.mt else s
    | none => s
  match (s.grpAt g).acq.cap with
  | none => s
  | some c =>
    let q := 64 * c.fig + 5
    let t := match (s.queAt q).building with
      | none => s
      | some b => (s.modQue q (fun x => { x with building := none })).produce q b
    let c1 := if (s.queAt q).building.isSome then { c with packets := c.packets + 1 } else c
    (t.modAcq g (fun a => { a with cap := none })).complete c1.owns (c1.answer stOk 0)

/-- Cut a capture (R249, R481): the packet in progress is rewound. -/
def State.rawCut (s : State) (g detail : Nat) : State :=
  match (s.grpAt g).acq.cap with
  | none => s
  | some c =>
    let q := 64 * c.fig + 5
    let t := match (s.queAt q).building with
      | none => s
      | some b => (s.modQue q (fun x => { x with building := none })).abandon q 1 b
    (t.modAcq g (fun a => { a with cap := none })).complete c.owns (c.answer stAborted detail)

/-- One more instant is captured; the capture ends with its last one. -/
def State.rawCount (s : State) (g : Nat) : State :=
  match (s.grpAt g).acq.cap with
  | none => s
  | some c =>
    let c1 : RawCap := { c with left := c.left - 1, done := c.done + 1 }
    let t := s.modAcq g (fun a => { a with cap := some c1 })
    if c1.left = 0 then t.rawEnd g else t

/-- Take raw words into a running capture; instant says that they make one sample instant of it. -/
def State.rawTake (s : State) (g : Nat) (words : List (Nat × Word)) (stamp : DWord) : State :=
  match (s.grpAt g).acq.cap with
  | none => s
  | some c =>
    let mine := words.filter (fun w => c.mask.testBit w.1)
    if !c.started || mine.isEmpty then s
    else
      let seq := (s.queAt (64 * c.fig + 5)).next +
        BitVec.ofNat 32 (s.queAt (64 * c.fig + 5)).due.length
      let s := if c.done = 0 then
          s.modAcq g (fun a => { a with cap := some { c with firstSeq := seq } }) else s
      (mine.foldl (fun t w => t.rawHalf g w.2 stamp) s).rawCount g

/-- A capture starts at the first loop tick at or after its instant (R249). -/
def State.rawStart (s : State) (g : Nat) : State :=
  match (s.grpAt g).acq.cap with
  | none => s
  | some c =>
    if c.started || !mtLe c.start s.mt.mt then s
    else s.modAcq g (fun a => { a with cap := some { c with started := true } })

/-- ACQ_RAW_CAPTURE (R249, R583). -/
def execAcqRawCapture (r : Req) (grp fig mask count : Nat) (start : DWord) (s : State) :
    Host.Outcome State Fault Refusal :=
  umser r 0x0A06 { long := true, needs := [5], standbyOk := false } s fun s =>
    if 16 ≤ grp then s.refuse r 0x0A06 stRange 0x20
    else if !s.hasGrp grp then s.refuse r 0x0A06 stAbsent grp
    else if 4096 ≤ fig || !s.defined fig then s.refuse r 0x0A06 stRange 0x22
    else if mask = 0 || 2 ^ 18 ≤ mask then s.refuse r 0x0A06 stRange 0x24
    else if count = 0 || 65536 < count then s.refuse r 0x0A06 stRange 0x28
    else if (s.grpAt grp).acq.cap.isSome then s.refuse r 0x0A06 stBusy
    else
      let c : RawCap :=
        { fig := fig, mask := mask, start := start, started := false, left := count, done := 0
          firstSeq := 0#32, packets := 0, mbx := r.mbx, tag := r.tag, half := none }
      (s.defer r 0x0A06 grp 0 0).modAcq grp (fun a => { a with cap := some c })

/-! ## The aux table (R229, R233) -/

def auxValid (e : BitVec 128) : Bool := e.getLsbD 7
def auxArm (e : BitVec 128) : Bool := e.getLsbD 6
def auxPort (e : BitVec 128) : Nat := bits e 2 0
def auxSpan (e : BitVec 128) : Nat := bits e 13 12
def auxCode (e : BitVec 128) : Nat := bits e 11 8
def auxSettle (e : BitVec 128) : Nat := bits e 31 16
/-- Bits 15:12 are reserved but for 0xFFFF, which names no figure (Table 9.6). -/
def auxFig (e : BitVec 128) : Nat := if bits e 47 32 = 0xFFFF then 0xFFFF else bits e 43 32
def auxPeriod (e : BitVec 128) : Nat := bits e 63 48
def auxAvg (e : BitVec 128) : Nat := bits e 66 64
def auxTag (e : BitVec 128) : Nat := bits e 79 72

/-- Entries of a group in a table, by entry index. -/
def auxOf (t : Tab (BitVec 128)) (g : Nat) : List (Nat × BitVec 128) :=
  (t.filter (fun e => e.1 / 64 == g)).map (fun e => (e.1 % 64, e.2))

/-- The sequence of a group: its valid host entries, then the armature's. -/
def auxSequence (c : CfgSet) (g : Nat) : List (Nat × BitVec 128) :=
  (auxOf c.aux g).filter (fun e => auxValid e.2) ++ auxOf c.auxArm g

/-- The entry at an index of a group's sequence. -/
def State.auxEntry (s : State) (g i : Nat) : BitVec 128 :=
  ((auxSequence s.sets.cast g).find? (fun e => e.1 == i)).map (fun e => e.2) |>.getD 0#128

/-- AUX_CLASS (R233): none, short, long. -/
def auxClassOf (n : Nat) : Nat := if n = 0 then 0 else if n ≤ 8 then 1 else 2

/-- ACQ_AUX_WRITE (R229). -/
def execAcqAuxWrite (r : Req) (grp first : Nat) (entries : List (BitVec 128)) (s : State) :
    Host.Outcome State Fault Refusal :=
  editCommand r 0x0A01 s fun s =>
    if 16 ≤ grp then s.refuse r 0x0A01 stRange 0x20
    else if !s.hasGrp grp then s.refuse r 0x0A01 stAbsent grp
    else if 64 ≤ first then s.refuse r 0x0A01 stRange 0x21
    else if entries.isEmpty || 64 < first + entries.length then s.refuse r 0x0A01 stRange 0x22
    else match firstBad (fun i e => if auxArm e then some (stRange, 16 * i) else none) 0 entries with
      | some (st, d) => s.refuse r 0x0A01 st d
      | none =>
        let put (a : Tab (BitVec 128)) (i : Nat) : Tab (BitVec 128) :=
          let e := entries.getD i 0#128
          if e = 0#128 then tdel a (64 * grp + first + i) else tput a (64 * grp + first + i) e
        let t := s.modMaq (fun m => { m with aux := (List.range entries.length).foldl put m.aux })
        t.edited.editOk r 0x0A01 []

/-- ACQ_AUX_READ (R229): the table of the Cast, armature entries included. -/
def execAcqAuxRead (r : Req) (grp : Nat) (s : State) : Host.Outcome State Fault Refusal :=
  umser r 0x0A02 {} s fun s =>
    if 16 ≤ grp then s.refuse r 0x0A02 stRange 0x20
    else if !s.hasGrp grp then s.refuse r 0x0A02 stAbsent grp
    else
      let host := auxOf s.sets.cast.aux grp
      let arm := auxOf s.sets.cast.auxArm grp
      let all := host.filter (fun e => !arm.any (fun a => a.1 == e.1)) ++ arm
      let entry (i : Nat) : BitVec 128 :=
        ((all.find? (fun e => e.1 == i)).map (fun e => e.2)).getD 0#128
      s.ok r 0x0A02
        (leBytes 1 (host.filter (fun e => auxValid e.2)).length ++ leBytes 1 arm.length ++
          leBytes 1 (s.grpAt grp).acq.auxClass)
        ((List.range 64).flatMap (fun i => leBytes 16 (entry i).toNat))

/-! ## Aux results (R236, R272) -/

/-- An aux result as its record holds it. -/
structure AuxResult where
  fig : Nat
  tag : Nat
  entry : Nat
  port : Nat
  code : Nat
  span : Nat
  mark : Nat
  ovr : Bool
  novr : Bool
  spare : Bool
  urgent : Bool
  count : Nat
  first : DWord
  /-- Mean as Q32.16. -/
  mean : Int

/-- VOLTS of a result: the mean on the entry's span. -/
def AuxResult.volts (r : AuxResult) : Frac :=
  (vFs r.span).mul ⟨r.mean, 65536 * 2 ^ 30⟩

/-- The 32 bytes of an aux result record (Table 10.8). -/
def AuxResult.bytes (r : AuxResult) : List Byte :=
  leBytes 2 (r.fig % 4096 + 4096) ++ leBytes 1 r.tag ++ leBytes 1 r.entry ++ leBytes 1 r.port ++
  leBytes 1 (r.code + 16 * r.span) ++
  leBytes 1 (r.mark + 4 * b2n r.ovr + 8 * b2n r.novr + 16 * b2n r.spare + 32 * b2n r.urgent) ++
  leBytes 1 r.count ++ leBytes 8 r.first.toNat ++ leBytes 8 (BitVec.ofInt 64 r.mean).toNat ++
  leBytes 4 r.volts.toF32.toNat ++ leBytes 4 0

/-- A conversion of the aux slice joins a reading (R236). -/
def Conv.add (c : Conv) (w : Int) (ovr novr spare : Bool) (stamp : DWord) : Conv :=
  { n := c.n + 1, sum := c.sum + w, ovr := c.ovr || ovr, novr := c.novr || novr
    spare := c.spare || spare, first := some (c.first.getD stamp) }

/-- A sense slice is at a rail in the sample instant of a slice tick, or was in the one before (R221). -/
def State.senseRail (s : State) (g clk : Nat) : Bool :=
  let a := (s.grpAt g).acq
  (!a.railPrev.isEmpty && decide (clk ≤ a.railClk + 50)) ||
    a.comb.any (fun i => i.clk == clk && !(s.rails g i.inputs).isEmpty)

/-- The aux reading in progress: an urgent one or an entry (R230, R240). -/
structure Reading where
  span : Nat
  settle : Nat
  avg : Nat
  start : Nat
  conv : Conv

def Acq.reading (a : Acq) : Option Reading :=
  match a.urgRun, a.run with
  | some u, _ => some ⟨u.span, u.settle, u.avg, u.clk, u.conv⟩
  | none, some x => some ⟨auxSpan x.image, auxSettle x.image, auxAvg x.image, x.start, x.conv⟩
  | none, none => none

/-- Give the reading in progress its conversions. -/
def Acq.setConv (a : Acq) (c : Conv) : Acq :=
  match a.urgRun with
  | some u => { a with urgRun := some { u with conv := c } }
  | none => { a with run := a.run.map (fun x => { x with conv := c }) }

/-- Conversions the reading in progress still lacks. -/
def Acq.lacking (a : Acq) : Nat :=
  match a.reading with
  | some r => 2 ^ r.avg - r.conv.n
  | none => 0

/-- The aux slice takes one conversion of an input at a slice tick, corrected with the factors in
force then (R218, R254); raw capture takes its word, and the spare's where that serves slice 16. -/
def State.auxConvert (s : State) (g : Nat) (input : Int) (clk : Nat) (stamp : DWord) : State :=
  let a := (s.grpAt g).acq
  match a.reading with
  | none => s
  | some r =>
    let code := codeIn (vFs r.span) input
    let w := s.convert g 16 r.span code
    let spare := a.carries 16
    let novr := s.senseRail g clk
    let own := rawWord 16 code spare novr ⟨false, false, false⟩
    let words := [(16, own)] ++
      (if (spare || a.spareRole == .share) && a.spareTgt == 16 then
        [(17, rawWord 17 code false novr ⟨false, false, false⟩)] else [])
    let t := s.modAcq g (fun a =>
      { a.setConv (r.conv.add w.1 w.2 novr spare stamp) with
        auxRail := if atRail code then some clk else a.auxRail
        flags := a.flags ||| bitAt w.2 2 ||| bitAt novr 3 })
    if t.rst.dataUp then t.rawTake g words stamp else t

/-- The conversions a reading lacks as it ends, oldest first: the last was taken one slice tick ago
(R230). -/
def State.auxFill (s : State) (g : Nat) (inputs : List Int) : State :=
  (List.range inputs.length).foldl (fun t i =>
    t.auxConvert g (inputs.getD i 0) (s.sliceClk g - 50 * (inputs.length - i))
      (s.mtBefore (inputs.length - i))) s

/-- The result of a reading's conversions; one that took none has no mean and no first conversion: free
values (log entry 7). -/
def State.convResult (s : State) (c : Conv) (r : AuxResult) : AuxResult :=
  { r with
    ovr := c.ovr, novr := c.novr, spare := c.spare, count := c.n
    first := c.first.getD (BitVec.ofInt 64 (Config.freeInt (s.free + 1)))
    mean := if c.n = 0 then s.freeInt else rdiv (c.sum * 65536) c.n }

/-! ## The sequencer (R230 to R235, R240 to R242) -/

/-- A pass of the group is under way. -/
def Acq.inPass (a : Acq) : Bool := a.run.isSome || a.interrupted.isSome || !a.due.isEmpty

/-- State between passes. -/
def restState (start : Nat) : AuxState := if start = 3 then .stopped else .waiting

/-- The entry's figure runs it: an armature entry, or one whose figure is enabled (R235). -/
def State.auxLive (s : State) (e : BitVec 128) : Bool :=
  auxFig e == 0xFFFF || (s.figAt (auxFig e)).enabled

/-- Drive AUXSEL (R171). -/
def State.auxDrive (s : State) (g code : Nat) : State := s.modGrp g (fun x => { x with auxsel := code })

/-- An entry as it starts at a slice tick. -/
def State.auxBegin (s : State) (g i : Nat) : AuxRun :=
  { entry := i, image := s.auxEntry g i, start := s.sliceClk g, conv := Conv.init, mark := 0 }

/-- Start the next due entry; a pass with none left ends (R231, R251). -/
def State.auxNext (s : State) (g : Nat) : State :=
  let a := (s.grpAt g).acq
  let due := a.due.dropWhile (fun i => !s.auxLive (s.auxEntry g i))
  match due with
  | i :: rest =>
    (s.modAcq g (fun a =>
      { a with due := rest, run := some (s.auxBegin g i), auxState := .running, passRan := true })).auxDrive g
      (auxCode (s.auxEntry g i))
  | [] =>
    let t := s.modAcq g (fun a =>
      { a with due := [], run := none, auxState := restState a.auxStart, passRan := false })
    if a.passRan then t.raiseGrp g 4 else t

/-- An entry meets the interruption tick: a short sequence keeps its conversions and resumes it, a long
one restarts it (R240 to R242). -/
def AuxRun.interrupt (x : AuxRun) (long : Bool) : AuxRun :=
  if long then { x with mark := 2, conv := Conv.init } else { x with mark := 1 }

/-- The next urgent request goes to the aux slice at this slice tick; an entry in progress is
interrupted (R240). -/
def State.urgNext (s : State) (g : Nat) : State :=
  let a := (s.grpAt g).acq
  match a.urgRun, a.urg with
  | none, u :: rest =>
    (s.modAcq g (fun a =>
      { a with
        urgRun := some { u with clk := s.sliceClk g, conv := Conv.init }
        urg := rest
        auxState := .urgent
        interrupted := if a.run.isSome then a.run.map (fun x => x.interrupt (a.auxClass == 2)) else a.interrupted
        run := none })).auxDrive g u.auxsel
  | _, _ => s

/-- The sequence goes on once the urgent queue is empty (R240 to R242). -/
def State.urgBack (s : State) (g : Nat) : State :=
  let a := (s.grpAt g).acq
  if !a.urg.isEmpty then (s.modAcq g (fun a => { a with urgRun := none })).urgNext g
  else match a.interrupted with
    | some x =>
      (s.modAcq g (fun a =>
        { a with
          urgRun := none
          interrupted := none
          run := some { x with start := s.sliceClk g }
          auxState := .running })).auxDrive g (auxCode x.image)
    | none => (s.modAcq g (fun a => { a with urgRun := none })).auxNext g

/-! ## Urgent requests (R237 to R239) -/

/-- The command a class 2 request belongs to. -/
def Urg.owns (u : Urg) (o : Outstanding) : Bool :=
  o.opcode == 0x0A03 && o.mbx == u.owner / 65536 && o.tag.toNat == u.owner % 65536

/-- Mark the aux reading of a figure's point in flight missing (R239). -/
def State.auxMissing (s : State) (f : Nat) : State :=
  s.modFig f (fun x => { x with flight := x.flight.map (fun p => { p with flags := p.flags ||| 0x20#16 }) })

/-- Complete the trip record of a SEQ with its aux part (R372): the management interrupt follows. -/
def State.tripAux (s : State) (g seq : Nat) (auxf : BitVec 8) (aux : List DWord) : State :=
  s.modGrp g (fun x =>
    { x with
      trips := x.trips.map (fun t =>
        if t.seq.toNat = seq ∧ t.auxf = 0#8 then { t with auxf := auxf, aux := aux } else t)
      intPend := x.intPend || x.trips.any (fun t => t.seq.toNat == seq && t.auxf == 0#8) })

/-- What becomes of a request that is displaced, dropped, rejected or emptied by a reset. -/
def State.urgLost (s : State) (g : Nat) (u : Urg) (a : Answer) : State :=
  if u.cls = 0 then s.tripAux g u.owner 2#8 []
  else if u.cls = 1 then s.auxMissing u.owner
  else s.complete u.owns a

/-- A request is lost to a full queue (R239). -/
def State.urgDrop (s : State) (g : Nat) (u : Urg) : State :=
  ((s.acqFlag g 0x80#32).raiseGrp g 5).urgLost g u { status := stBusy }

/-- Queue order: class, then arrival; of one core clock the lower port (R238). -/
def Urg.before (u v : Urg) : Bool :=
  u.cls < v.cls || (u.cls == v.cls && (u.clk < v.clk || (u.clk == v.clk && u.port < v.port)))

/-- Enter a request; it is served from the next slice tick on (R238, R240). -/
def State.urgEnter (s : State) (g : Nat) (u : Urg) : State :=
  s.modAcq g (fun a => { a with urg := insertBy Urg.before u a.urg })

/-- The latest request of a class. -/
def latestOf (l : List Urg) (cls : Nat) : Option Urg := (l.filter (fun u => u.cls == cls)).getLast?

/-- Remove the latest request of a class. -/
def dropLatest (l : List Urg) (cls : Nat) : List Urg :=
  l.filter (fun u => u.cls != cls) |>.append ((l.filter (fun u => u.cls == cls)).dropLast) |>
    sortBy (fun a b => a.cls < b.cls)

/-- Raise an urgent request (R237 to R239). -/
def State.urgAsk (s : State) (g : Nat) (u : Urg) : State :=
  let q := (s.grpAt g).acq.urg
  if q.length < 8 then s.urgEnter g u
  else if u.cls = 0 then
    match latestOf q 2, latestOf q 1 with
    | some x, _ =>
      ((s.modAcq g (fun a => { a with urg := dropLatest a.urg 2 })).urgDrop g x).urgEnter g u
    | none, some x =>
      ((s.modAcq g (fun a => { a with urg := dropLatest a.urg 1 })).urgDrop g x).urgEnter g u
    | none, none => s.urgDrop g u
  else s.urgDrop g u

/-- A start condition of mode 1 or 2 meets a running pass: it is discarded (R232). -/
def State.auxOverrun (s : State) (g : Nat) : State :=
  (s.modAcq g (fun a => { a with auxOvr := bump a.auxOvr })).acqFlag g 0x40#32

/-- AUX_PASS_START (R231, R232): continuous mode, a mains-cycle boundary that has come, or an event
that reached grpNN.aux_start. -/
def execAuxPassStart (grp : Nat) (s : State) : Host.Outcome State Fault Refusal :=
  let a := (s.grpAt grp).acq
  let heard := s.fab.arrived.contains (0x180 + grp)
  finish s
    (if !s.grpRuns grp || a.auxStart == 3 || (a.auxStart == 2 && !heard) ||
        (a.auxStart == 1 && !a.passGo) then s
    else
      let s := if a.auxStart = 2 then
          { s with fab := { s.fab with arrived := dropFirst (· == 0x180 + grp) s.fab.arrived } }
        else s
      if a.inPass then
        if a.auxStart = 2 then s.auxOverrun grp else s
      else
        let due := ((auxSequence s.sets.cast grp).filter (fun e =>
          auxPeriod e.2 == 0 || a.dueCycle.contains e.1)).map (fun e => e.1)
        let t := s.modAcq grp (fun a => { a with due := due, dueCycle := [], passGo := false })
        if a.urgRun.isSome then t else t.auxNext grp)

/-- The mains-cycle boundary of a cycle: entries become due, and in mode 1 a pass is to start (R231,
R232). -/
def State.auxCycle (s : State) (g cycle : Nat) : State :=
  let a := (s.grpAt g).acq
  let l := ((auxSequence s.sets.cast g).filter (fun e =>
    0 < auxPeriod e.2 && cycle % auxPeriod e.2 == 0)).map (fun e => e.1)
  let t := s.modAcq g (fun a => { a with dueCycle := l.foldl insAsc a.dueCycle })
  if a.auxStart ≠ 1 then t
  else if a.inPass then t.auxOverrun g
  else t.modAcq g (fun a => { a with passGo := true })

/-- Deliver an aux result to its figure's aux stream (R236); an armature entry's goes to none. -/
def State.auxDeliver (s : State) (r : AuxResult) : State :=
  if r.fig = 0xFFFF then s else s.produceRecord r.fig 1 0xFFFFFFFF#32 r.bytes

/-- The result of an entry from its conversions. -/
def State.auxResult (s : State) (g : Nat) (x : AuxRun) : AuxResult :=
  let e := x.image
  s.convResult x.conv
    { fig := auxFig e, tag := auxTag e, entry := x.entry, port := 8 * g + auxPort e
      code := auxCode e, span := auxSpan e, mark := x.mark, ovr := false, novr := false, spare := false
      urgent := false, count := 0, first := 0#64, mean := 0 }

/-- Free values a result without a conversion uses. -/
def State.freshConv (s : State) (c : Conv) : State := if c.n = 0 then { s with free := s.free + 2 } else s

/-- An entry is cut: what it has taken is delivered, marked ABORTED (R235). -/
def State.auxAbort (s : State) (g : Nat) (x : AuxRun) : State :=
  (s.freshConv x.conv).auxDeliver { s.auxResult g x with mark := 3 }

/-- Cut the entry in progress, or the one interrupted (R235). -/
def State.auxCut (s : State) (g : Nat) : State :=
  let a := (s.grpAt g).acq
  match a.run, a.interrupted with
  | some x, _ => (s.auxAbort g x).modAcq g (fun a => { a with run := none })
  | none, some x => (s.auxAbort g x).modAcq g (fun a => { a with interrupted := none })
  | none, none => s

/-- Cut the entry of a figure that is no longer enabled; the next due entry starts, after the urgent
conversions where one had interrupted it. -/
def State.auxFigCut (s : State) (g f : Nat) : State :=
  let a := (s.grpAt g).acq
  match a.run, a.interrupted with
  | some x, _ => if auxFig x.image = f then (s.auxCut g).auxNext g else s
  | none, some x => if auxFig x.image = f then s.auxCut g else s
  | none, none => s

/-- The result of an urgent conversion (R272). -/
def State.urgResult (s : State) (u : Urg) : AuxResult :=
  let fig := if u.cls = 1 then u.owner else (s.serves u.port).getD 0xFFF
  s.convResult u.conv
    { fig := fig, tag := 0xFE, entry := 0x3F, port := u.port, code := u.auxsel, span := u.span
      mark := 0, ovr := false, novr := false, spare := false, urgent := true, count := 0, first := 0#64
      mean := 0 }

/-- Hand an urgent result to who asked for it. -/
def State.urgDeliver (s : State) (g : Nat) (u : Urg) (r : AuxResult) : State :=
  if u.cls = 0 then s.tripAux g u.owner 1#8 (recordWords r.bytes)
  else if u.cls = 1 then s.auxDeliver r
  else
    s.complete u.owns
      { status := stOk, result := List.replicate 12 0#8 ++ leBytes 8 r.first.toNat, out := r.bytes }

/-- URGENT_CONVERSION_END (R238, R240 to R242, R272): inputs are those of the conversions that the slice
ticks so far have not taken. A request that waits for its slice tick starts first. -/
def execUrgentConversionEnd (grp : Nat) (inputs : List Int) (s : State) :
    Host.Outcome State Fault Refusal :=
  let t := s.urgNext grp
  finish s
    (if (t.grpAt grp).acq.urgRun.isSome && s.grpRuns grp &&
        inputs.length == (t.grpAt grp).acq.lacking then
      let t := t.auxFill grp inputs
      match (t.grpAt grp).acq.urgRun with
      | some u => (t.urgDeliver grp u (t.urgResult u)).urgBack grp
      | none => t
    else s)

/-- The aux slice at a slice tick of its group: an urgent request that waits is taken up, and the
reading in progress takes the conversion this tick gives it (R230, R240). The input beyond those of the
period stands. -/
def State.auxTick (s : State) (g : Nat) : State :=
  if (s.clk - (s.grpAt g).tickClk) % 50 = 0 then
    let t := if (s.grpAt g).acq.urg.any (fun u => u.clk < s.clk) then s.urgNext g else s
    let a := (t.grpAt g).acq
    match a.reading with
    | some r =>
      if r.start + 50 * r.settle ≤ s.clk && r.conv.n < 2 ^ r.avg then
        let i := (s.clk - (s.grpAt g).tickClk) / 50
        t.auxConvert g (a.auxIn.getD i (a.auxIn.getLast?.getD 0)) s.clk s.mt.mt
      else t
    | none => t
  else s

/-- Empty the urgent queue, as a group context reset does (R239, R589). -/
def State.urgEmpty (s : State) (g : Nat) : State :=
  let a := (s.grpAt g).acq
  (a.urgRun.toList ++ a.urg).foldl
    (fun t u => t.urgLost g u { status := stAborted, detail := 5 })
    (s.modAcq g (fun a =>
      { a with urg := [], urgRun := none, run := a.run.or a.interrupted, interrupted := none }))

/-- ACQ_MEAS_NOW (R237, R581). -/
def execAcqMeasNow (r : Req) (port kind auxsel span settle avg : Nat) (s : State) :
    Host.Outcome State Fault Refusal :=
  umser r 0x0A03 { long := true } s fun s =>
    if 128 ≤ port then s.refuse r 0x0A03 stRange 0x20
    else if !s.hasPort port then s.refuse r 0x0A03 stAbsent port
    else if 1 < kind then s.refuse r 0x0A03 stRange 0x21
    else if kind = 0 then
      if auxsel != 0 || span != 0 || settle != 0 || avg != 0 then
        s.refuse r 0x0A03 stRange
          (if auxsel != 0 then 0x22 else if span != 0 then 0x23 else if settle != 0 then 0x24
           else 0x26)
      else s.defer r 0x0A03 port 0 0
    else if 16 ≤ auxsel then s.refuse r 0x0A03 stRange 0x22
    else if 4 ≤ span then s.refuse r 0x0A03 stRange 0x23
    else if settle = 0 || 65536 ≤ settle then s.refuse r 0x0A03 stRange 0x24
    else if 7 ≤ avg then s.refuse r 0x0A03 stRange 0x26
    else
      (s.defer r 0x0A03 port 1 0).urgAsk (port / 8)
        { cls := 2, port := port, auxsel := auxsel, span := span, settle := settle, avg := avg
          owner := 65536 * r.mbx + r.tag.toNat, clk := s.clk, conv := Conv.init }

/-! ## Checks on one slice (R244, R246) -/

/-- Queue a shared-channel check or a path test. -/
def State.askCheck (s : State) (r : Req) (opcode grp slice : Nat) (path : Bool) : State :=
  if 16 ≤ grp then s.refuse r opcode stRange 0x20
  else if !s.hasGrp grp then s.refuse r opcode stAbsent grp
  else if 16 < slice then s.refuse r opcode stRange 0x21
  else if !(s.calAt grp).has 17 then s.refuse r opcode stNotReady
  else if 4 ≤ ((s.grpAt grp).acq.checks.filter (fun c => !c.running)).length then s.refuse r opcode stBusy
  else
    (s.defer r opcode grp slice 0).modAcq grp (fun a =>
      { a with checks := a.checks ++
          [{ path := path, slice := slice, mbx := r.mbx, tag := r.tag, running := false }] })

/-- ACQ_SHARE_CHECK (R244 to R246). -/
def execAcqShareCheck (r : Req) (grp slice : Nat) (s : State) : Host.Outcome State Fault Refusal :=
  umser r 0x0A04 { long := true } s fun s => s.askCheck r 0x0A04 grp slice false

/-- ACQ_PATH_TEST (R246). -/
def execAcqPathTest (r : Req) (grp slice : Nat) (s : State) : Host.Outcome State Fault Refusal :=
  umser r 0x0A05 { long := true } s fun s => s.askCheck r 0x0A05 grp slice true

/-- The command a check belongs to. -/
def CheckReq.owns (c : CheckReq) (o : Outstanding) : Bool :=
  o.opcode == (if c.path then 0x0A05 else 0x0A04) && o.mbx == c.mbx && o.tag == c.tag

end Sys2Proof.Machine
end

