-- ==== Sys2Proof/Machine/Comb.lean ====
section
/-! DEFINITION. The group comb: the sample instants of a period, what each leaves at the ports, and when
it is taken (R219 to R226, R253, R258, R273). An instant waits for its slice tick; its words reach the
taps one slice tick later (Table 1.5), or when what follows needs them. -/

namespace Sys2Proof.Machine

/-- Apply a change to each of a group's ports. -/
def State.eachPort (s : State) (g : Nat) (f : State → Nat → State) : State :=
  (List.range 8).foldl (fun t k => f t (8 * g + k)) s

/-- Another slice is at a rail in this instant or was in the one before (R221). -/
def novr (now prev : List Nat) (slice : Nat) : Bool :=
  now.any (fun k => k != slice) || prev.any (fun k => k != slice)

/-- The aux slice was at a rail at a slice tick or at the one before (R221). -/
def Acq.auxRailAt (a : Acq) (clk : Nat) : Bool := a.auxRail.any (fun c => c ≤ clk && clk ≤ c + 50)

/-- Status of a slice's word (Table 10.2). -/
def State.msStat (s : State) (g slice : Nat) (ovr nov rsw : Bool) (m : Marks) : BitVec 8 :=
  BitVec.ofNat 8 (128 * b2n ((s.grpAt g).acq.carries slice) + 64 * b2n ovr + 32 * b2n nov +
    16 * b2n m.rph + 8 * b2n m.tmiss + 4 * b2n rsw + b2n m.loop)

/-- What marks the samples of an instant. -/
def Instant.marks (i : Instant) : Marks := ⟨i.loop, i.rph, i.tmiss⟩

/-- A slice's samples of an instant carry NOVR. -/
def State.novrAt (s : State) (g : Nat) (i : Instant) (slice : Nat) : Bool :=
  let a := (s.grpAt g).acq
  novr (s.rails g i.inputs) a.railPrev slice || a.auxRailAt i.clk

/-- The sample of a port at an instant (R253, R258). -/
def State.sampleAt (s : State) (p : Nat) (i : Instant) (stamp : DWord) : Sample :=
  let g := p / 8
  let k := p % 8
  let x := s.spAt p
  let v := s.convert g k (s.spanOf g k) (s.codeOf g i.inputs k)
  let c := s.convert g (k + 8) (s.spanOf g (k + 8)) (s.codeOf g i.inputs (k + 8))
  let rsw := x.force.win.isSome && decide (2 ≤ x.force.lines.length)
  let check := x.sup.checking
  { stamp := stamp
    wV := if check then x.meas.wV else v.1
    wI := if check && s.leadCurrent p then x.meas.wI else c.1
    statV := s.msStat g k v.2 (s.novrAt g i k) false i.marks
    statI := s.msStat g (k + 8) c.2 (s.novrAt g i (k + 8)) rsw i.marks
    rng := x.force.rng
    vspan := x.force.vspan }

/-- The loop sample of a port: what the loop engine and the result registers see (R226, R275). -/
def Meas.setLoop (m : Meas) (x : Sample) : Meas :=
  { m with
    wV := x.wV, wI := x.wI, statV := x.statV, statI := x.statI, rng := x.rng, vspan := x.vspan
    sampleMt := x.stamp }

/-- Samples of a port that are kept. -/
def keptSamples : Nat := 32

/-- What an instant leaves at each port besides the loops: frozen counts and the sample list. -/
def State.keepSample (s : State) (p : Nat) (i : Instant) (x : Sample) : State :=
  let y := s.spAt p
  let g := p / 8
  let t := s.modSup p (fun z => z.frozen (frozenRuns y) (s.codeOf g i.inputs (p % 8))
    (s.codeOf g i.inputs (p % 8 + 8)) (x.statV.getLsbD 6) (x.statI.getLsbD 6))
  t.modSp p (fun z =>
    let m := { z.meas with recent := (z.meas.recent ++ [x]).drop (z.meas.recent.length + 1 - keptSamples) }
    { z with meas := if i.loop then m.setLoop x else m })

/-- The raw words of an instant, in slice order (Table 9.3); the spare's own follow while it serves a
sense slice (Table 9.1). -/
def State.rawWords (s : State) (g : Nat) (i : Instant) : List (Nat × Word) :=
  let a := (s.grpAt g).acq
  let word (k slice : Nat) (spare : Bool) : Nat × Word :=
    (k, rawWord k (s.codeOf g i.inputs slice) spare (s.novrAt g i slice) i.marks)
  (List.range 16).map (fun k => word k k (a.carries k)) ++
    (if (a.spareRole == .carry || a.spareRole == .share) && a.spareTgt < 16 then
      [word 17 a.spareTgt false] else [])

/-- Figures that a sample instant of a group concerns: those with an open aperture on its ports, and
those placed in it (R260, R270). -/
def State.sampledFigs (s : State) (g : Nat) : List Nat :=
  (s.fig.filter (fun e => e.2.apOpen.any (fun a => a.members.any (fun p => p / 8 == g)))).map (fun e => e.1)

/-- Figures placed in a group, ascending. -/
def State.figsIn (s : State) (g : Nat) : List Nat :=
  (s.sets.cast.place.filter (fun e => holds e.2 && e.2.members.any (fun p => p / 8 == g))).map
    (fun e => e.1)

/-- Take one sample instant of a group with its stamp: words, taps, integrators, totals, raw capture
(R273). -/
def State.takeInstant (s : State) (g : Nat) (i : Instant) (stamp : DWord) : State :=
  let x := (List.range 8).map (fun k => s.sampleAt (8 * g + k) i stamp)
  let at_ (p : Nat) : Sample := if p / 8 = g then x.getD (p % 8) Sample.blank else Sample.blank
  let words := s.rawWords g i
  let now := s.rails g i.inputs
  let t := s.eachPort g (fun t p => t.keepSample p i (at_ p))
  let t := t.modAcq g (fun a =>
    { a with
      railPrev := now, railClk := i.clk
      flags := a.flags ||| bitAt (x.any (fun y => y.has 6)) 2 ||| bitAt (x.any (fun y => y.has 5)) 3 })
  if t.rst.dataUp then
    let t := (t.sampledFigs g).foldl (fun t f => t.apTake f at_) t
    let t := (t.figsIn g).foldl (fun t f => t.totTake f at_) t
    t.rawTake g words stamp
  else t

/-- The stamp of an instant: MT of its slice tick, where that is still to come as the present f_MT
brings it (R226). -/
def State.stampOf (s : State) (i : Instant) : DWord := i.stamp.getD (s.mtAfter (i.clk - s.clk))

/-- Take the instants at the front of the comb that pass a test, oldest first. -/
def State.combTake (s : State) (g : Nat) (p : Instant → Bool) : State :=
  let l := (s.grpAt g).acq.comb
  (l.takeWhile p).foldl (fun t i => t.takeInstant g i (s.stampOf i))
    (s.modAcq g (fun a => { a with comb := l.dropWhile p }))

/-- Take every instant of the present period (Table 10.4: the samples of periods before the next loop
tick). -/
def State.combFinish (s : State) (g : Nat) : State :=
  s.combTake g (fun i => i.clk < (s.grpAt g).tickClk + s.periodClk g)

/-- Take every instant that has come (Table 10.4: the samples before a reset began). -/
def State.combDue (s : State) (g : Nat) : State := s.combTake g (fun i => i.stamp.isSome)

/-- A core clock of a group's acquisition: instants whose slice tick has come receive its stamp, those
one slice tick old are taken, and the aux slice converts. -/
def State.acqClock (s : State) (g : Nat) : State :=
  if !s.grpRuns g then s
  else
    let mark (i : Instant) : Instant :=
      if i.clk ≤ s.clk && i.stamp.isNone then { i with stamp := some s.mt.mt } else i
    let a := (s.grpAt g).acq
    let t := if a.comb.any (fun i => i.clk ≤ s.clk && i.stamp.isNone) then
        s.modAcq g (fun a => { a with comb := a.comb.map mark })
      else s
    (t.combTake g (fun i => i.clk + 50 ≤ s.clk)).auxTick g

/-- The instants that a period's inputs give: the loop sample at the trigger and one every 250 ns, up to
the latest next trigger (R225). -/
def State.combOf (s : State) (g : Nat) (x : PeriodIn) : List Instant :=
  let a := (s.grpAt g).acq
  let base := (s.grpAt g).tickClk
  let mk (ofs : Nat) (l : List (Nat × Int)) (loop : Bool) : Instant :=
    { ofs := ofs, clk := base + ofs / 50 * 50, inputs := l, loop := loop, rph := loop && a.rphNow
      tmiss := loop && a.tmissNow, stamp := none }
  let n := (2 * s.periodClk g - 100 - a.combPhase) / 50
  mk a.combPhase x.loop true :: (List.range n).map (fun i =>
    mk (a.combPhase + 50 * (i + 1)) (x.comb.getD i (x.comb.getLast?.getD x.loop)) false)

/-- The comb at a loop tick: what is left of the period before, up to 250 ns before the trigger, then
this period's own instants (R225). Its loop sample is known to the loop engine in this period. -/
def State.combStart (s : State) (g : Nat) (x : PeriodIn) : State :=
  let base := (s.grpAt g).tickClk
  let old := (s.grpAt g).acq.comb.filterMap (fun i =>
    let ofs := i.ofs - s.periodClk g
    if i.ofs < s.periodClk g || (s.grpAt g).acq.combPhase < ofs + 50 then none
    else some { i with ofs := ofs, clk := base + ofs / 50 * 50 })
  let l := s.combOf g x
  let t := s.modAcq g (fun a => { a with comb := old ++ l, auxIn := x.aux })
  match l with
  | i :: _ => t.eachPort g (fun t p =>
      t.modSp p (fun z => { z with meas := z.meas.setLoop (s.sampleAt p i (s.stampOf i)) }))
  | [] => t

/-- Take the samples that an aperture at its end still lacks. -/
def State.apSamples (s : State) (a : Aperture) : State :=
  let g := a.members.headD 0 / 8
  if a.code = 0 then s.combFinish g else s.combDue g

/-- Cut a figure's apertures with a cause of Table 10.4, on the samples that its row includes; those of
a trip are taken already. What waits is delivered empty (R266). -/
def State.apCut (s : State) (f cause : Nat) : State :=
  let t := match (s.figAt f).apOpen with
    | none => s
    | some a =>
      let g := a.members.headD 0 / 8
      if cause = 4 then s else if cause = 5 then s.combDue g else s.combFinish g
  (t.apClose f cause).apDrop f cause

end Sys2Proof.Machine
end

