-- ==== Sys2Proof/Machine/Mains.lean ====
section
/-! DEFINITION. Mains time (chapter 4): crossings, the phase tracker, MT events and capture. Phase
errors are in units of 2^-32 cycle, times in 10 ns units. -/

namespace Sys2Proof.Machine

/-- Change the mains time block. -/
def State.modMt (s : State) (f : MtBlk → MtBlk) : State := { s with mt := f s.mt }

/-- Time on the secondary side, 10 ns units (log entry 8). -/
def State.now10 (s : State) : Int := ((s.clk / 2 : Nat) : Int)

/-- MT advances one core clock (R75); MT_HOLD_CYC counts the cycles of a holdover (R79), and a wrap
toggles EPOCH (R9). -/
def State.mtClock (s : State) : State :=
  let x := s.mtFull + s.mtInc
  let cycle := decide (s.mtFull / 2 ^ 56 < x / 2 ^ 56)
  let wraps := decide (2 ^ 96 ≤ x)
  s.modMt (fun m =>
    { m with
      mt := BitVec.ofNat 64 (x / 2 ^ 32)
      frac := BitVec.ofNat 32 x
      epoch := m.epoch != wraps
      wrapNow := wraps
      wrapDue := m.wrapDue || wraps
      holdCyc := if cycle && m.state == .holdover then bump m.holdCyc else m.holdCyc })

/-- Phase error of a crossing some time ago: its MT phase less the phase at which it is due, in
(-0.5, +0.5] cycle (R72, R75). -/
def State.phaseErr (s : State) (ago : Nat) (rising : Bool) : Int :=
  let at_ : Int := (s.mtFull : Int) - (2 * ago * s.mtInc : Nat)
  let half : Int := if rising then 0 else 2 ^ 23
  let d := (at_ - (half - (s.castN 0x103 0 : Nat)) * 2 ^ 32) % 2 ^ 56
  rdiv (if 2 ^ 55 < d then d - 2 ^ 56 else d) (2 ^ 24)

/-- Frequency measured over up to four intervals of valid crossings, Q8.24 Hz; 0 without one. -/
def crossFreq (l : List Crossing) : Nat :=
  match l.head?, l.getLast? with
  | some a, some b =>
    let span := (a.t - b.t).toNat
    if span = 0 then 0 else ((l.length - 1) * 10 ^ 8 * 2 ^ 24 + span) / (2 * span)
  | _, _ => 0

/-- Mean line frequency of the crossings tracked (Table 4.2). -/
def MtBlk.heldFreq (m : MtBlk) : Nat :=
  let span := nsum m.tracked
  if span = 0 then m.fEst else (m.tracked.length * 10 ^ 8 * 2 ^ 24 + span) / (2 * span)

/-- Rate limits around the measured frequency (Table 4.2). -/
def MtBlk.bounds (m : MtBlk) : Int × Int :=
  let w := if m.firstPull && m.state == .acquire then m.fEst / 4 else m.fEst / 50
  ((m.fEst : Int) - w, (m.fEst : Int) + w)

/-- One update of the type-2 loop with damping 0.707 and a noise bandwidth in units of 0.25 Hz: its
gains are 8B/3 and 32B²/9 per update period (R75, R78, log entry 17). -/
def MtBlk.pull (m : MtBlk) (b4 : Nat) (e : Int) : MtBlk :=
  let b := m.bounds
  let integ := clamp b.1 b.2 (m.integ - rdiv ((b4 * b4 * 65536 : Nat) * e) (9 * max 1 m.fEst))
  let f := integ - rdiv (b4 * e) 384
  let g := clamp b.1 b.2 f
  { m with integ := integ, freq := w32 g, slew := f != g }

/-- Noise bandwidth of mt.track_bw in units of 0.25 Hz. -/
def State.trackBw (s : State) : Nat := [2, 1, 4, 8].getD (s.castN 0x104 0) 2

/-- Leave LOCKED, where the tracker is there (R77). -/
def State.mtUnlock (s : State) : State :=
  if s.mt.state = .locked then
    (s.modMt (fun m => { m with unlockCnt := bump m.unlockCnt, flags := m.flags ||| 2#32 })).raise 0x917
  else s

/-- Enter ACQUIRE with the measured frequency (Table 4.3, R633). -/
def State.mtAcquire (s : State) : State :=
  s.modMt (fun m =>
    { m with
      state := .acquire
      freq := BitVec.ofNat 32 m.fEst
      slew := false
      linear := false
      isoLoss := false
      goodRun := 0
      badRun := 0 })

/-- The tracker in ACQUIRE at a valid crossing: the slew, the linear phase, the lock (R633). -/
def State.mtPullIn (s : State) (e : Int) : State :=
  let m := s.mt
  if m.linear || e.natAbs ≤ 2 ^ 24 then
    let m1 := if m.linear then m else { m with linear := true, integ := m.fEst }
    let m2 := m1.pull 20 e
    let good := if e.natAbs ≤ 2 ^ 20 then m.goodRun + 1 else 0
    if 4 ≤ good then
      ({ s with mt :=
          { m2 with
            state := .locked
            firstPull := false
            goodRun := 0
            badRun := 0
            flags := m.flags ||| 1#32 } }).raise 0x916
    else { s with mt := { m2 with goodRun := good } }
  else
    let b := m.bounds
    s.modMt (fun m =>
      { m with freq := w32 (if 0 < e then b.1 else b.2), slew := true, goodRun := 0 })

/-- The tracker in LOCKED at a valid crossing (Table 4.3); the crossing that unlocks it begins the slew
phase of ACQUIRE (R633). -/
def State.mtTrack (s : State) (e : Int) : State :=
  let bad := if 2 ^ 27 < e.natAbs then s.mt.badRun + 1 else 0
  let t := { s with mt := { s.mt.pull s.trackBw e with badRun := bad } }
  if 4 ≤ bad then t.mtUnlock.mtAcquire.mtPullIn e else t

/-- MT_XNOISE from the second differences available (R78). -/
def xnoiseOf (l : List (Option Int)) : BitVec 16 :=
  let d := l.filterMap id
  if d.length < 16 then 0#16
  else
    let sum := nsum (d.map (fun x => x.natAbs * x.natAbs))
    BitVec.ofNat 16 (min 65535 ((isqrt (400 * sum / (6 * d.length)) + 1) / 2))

/-- What a valid crossing measures: intervals, frequency, noise (R74, R78, R633). -/
def MtBlk.measure (m : MtBlk) (c : Crossing) : MtBlk :=
  let l := (c :: m.cross).take 5
  let d : Option Int :=
    match l with
    | [a, _, b, _, e] => if 4 ≤ m.validRun then some (a.t - 2 * b.t + e.t) else none
    | _ => none
  let diffs := (d :: m.diffs).take 64
  let run := m.validRun + 1
  let valid := m.mainsValid || decide (3 ≤ run)
  let tracks := m.state == .acquire || m.state == .locked
  let f := crossFreq l
  { m with
    cross := l
    validRun := run
    mainsValid := valid
    fEst := if f = 0 then m.fEst else f
    lineFreq := if valid then BitVec.ofNat 32 f else 0#32
    tracked := match m.cross with
      | b :: _ => if tracks then ((c.t - b.t).toNat :: m.tracked).take 32 else m.tracked
      | [] => m.tracked
    diffs := diffs
    sinceNoise := (m.sinceNoise + 1) % 64
    xnoise := if m.sinceNoise + 1 = 64 then (if valid then xnoiseOf diffs else 0#16) else m.xnoise }

/-- A crossing holds the conditions of Table 4.1; the interval and the polarity are tested against the
valid crossing before it (R73, R74). -/
def MtBlk.accepts (m : MtBlk) (c : Crossing) (amplitude : Nat) : Bool :=
  60 ≤ amplitude &&
    (match m.cross with
     | [] => true
     | p :: _ => p.rising != c.rising && decide (680000 ≤ c.t - p.t) && decide (c.t - p.t ≤ 1316000))

/-- MAINS_CROSSING (R72 to R78, R633): ago in 10 ns units before now, amplitude in V rms. The primary
die reports none below 20 V. -/
def execMainsCrossing (ago : Nat) (rising : Bool) (amplitude : Nat) (s : State) :
    Host.Outcome State Fault Refusal :=
  let c : Crossing := { t := s.now10 - ago, rising := rising }
  finish s
    (if !s.rst.ctrlUp || s.iso.failed || amplitude < 20 then s
    else if !s.mt.accepts c amplitude then
      s.modMt (fun m =>
        { m with
          rejCnt := bump m.rejCnt
          flags := m.flags ||| 8#32
          validRun := 0
          goodRun := 0
          badRun := 0 })
    else
      let e := s.phaseErr ago rising
      let tracks := s.mt.state == .acquire || s.mt.state == .locked
      let d := if rising then e - s.mt.lastErr else s.mt.lastErr - e
      let delta := if tracks && 1 ≤ s.mt.validRun then s.mt.delta + rdiv (d - s.mt.delta) 256
        else s.mt.delta
      let used := if rising then e - rdiv delta 2 else e + rdiv delta 2
      let t := s.modMt (fun m => { m.measure c with delta := delta, lastErr := e })
      let back := t.mt.mainsValid && !s.mt.mainsValid
      let t := { t with pfe := { t.pfe with
          everValid := t.pfe.everValid || t.mt.mainsValid
          pri := { t.pfe.pri with lineLoss := t.pfe.pri.lineLoss && !back } } }
      let u := match t.mt.state with
        | .acquire => t.mtPullIn used
        | .locked => t.mtTrack used
        | .virtual => t
        | .search | .holdover =>
          if t.mt.mainsValid then (t.mtAcquire.mtPullIn used).modMt (fun m => { m with goodRun := 0 })
          else t
      u.apQual)

/-- Mains is lost for MT purposes (R74, R77, R79). -/
def State.mainsGone (s : State) (iso : Bool) : State :=
  let t := s.modMt (fun m =>
    { m with cross := [], validRun := 0, mainsValid := false, lineFreq := 0#32, xnoise := 0#16
             goodRun := 0, badRun := 0 })
  let hold (t : State) : State :=
    (t.modMt (fun m =>
      { m with
        state := .holdover
        freq := BitVec.ofNat 32 m.heldFreq
        slew := false
        isoLoss := iso
        holdCyc := 0#32
        flags := m.flags ||| 4#32 ||| bitAt iso 5 })).raise 0x918
  match s.mt.state with
  | .locked => (hold t.mtUnlock).apQual
  | .acquire =>
    if s.mt.firstPull then
      t.modMt (fun m => { m with state := .search, freq := s.cast 0x101 0, slew := false })
    else (hold t).apQual
  | _ => t

/-- Three quarters of the expected period have passed since the last valid crossing (R74). -/
def State.crossingLate (s : State) : Bool :=
  match s.mt.cross with
  | [] => false
  | c :: _ =>
    let f := if 3 ≤ s.mt.cross.length then s.mt.fEst else s.castN 0x101 0
    decide ((3 * 10 ^ 8 * 2 ^ 24 : Int) ≤ 4 * f * (s.now10 - c.t))

/-- Error predicted from f_est and the last valid crossing (R633), units of 2^-32 cycle. -/
def State.predicted (s : State) : Int :=
  match s.mt.cross with
  | [] => 0
  | c :: _ =>
    let half : Int := if c.rising then 0 else 2 ^ 31
    let way := rdiv ((s.now10 - c.t) * (s.mt.fEst : Int) * 2 ^ 8) (10 ^ 8)
    let now : Int := ((s.mtFull / 2 ^ 24 : Nat) : Int)
    let d := (now - (half - (s.castN 0x103 0 : Nat) * 2 ^ 8) - way) % 2 ^ 32
    if 2 ^ 31 < d then d - 2 ^ 32 else d

/-- SLEW_END (R633): the predicted error has reached 0 from the side the slew started on. -/
def execSlewEnd (s : State) : Host.Outcome State Fault Refusal :=
  let m := s.mt
  let e := s.predicted
  let back := decide (m.freq.toNat < m.fEst)
  finish s
    (if s.rst.ctrlUp && m.state == .acquire && m.slew && !m.linear &&
        (if back then decide (e ≤ 0) else decide (0 ≤ e)) then
      s.modMt (fun m => { m with freq := BitVec.ofNat 32 m.fEst, slew := false })
    else s)

/-- MT reached or passed a phase at this core clock: the cycle of it. Before the first cycle there is
none to pass but across a wrap (R9, R92). -/
def State.passes (s : State) (phase : Nat) : Option Nat :=
  let x := s.mtFull + (if s.mt.wrapNow then 2 ^ 96 else 0)
  let d := (x + 2 ^ 56 - phase % 2 ^ 24 * 2 ^ 32) % 2 ^ 56
  if d < s.mtInc && d + phase % 2 ^ 24 * 2 ^ 32 ≤ x then some ((x - d) / 2 ^ 56 % 2 ^ 40) else none

/-- MT_PHASE_EVENT (R92): 0 mt.cycle, 1 mt.half, 2 to 5 mt.pe0 to mt.pe3. -/
def execMtPhaseEvent (n : Nat) (s : State) : Host.Outcome State Fault Refusal :=
  let p (k : Nat) : Nat := (s.live (0x110 + 4 * (n - 2) + k) 0).toNat
  let due : Bool :=
    match n with
    | 0 => (s.passes 0).isSome
    | 1 => (s.passes 0x800000).isSome
    | _ => n ≤ 5 && p 3 == 1 && (s.passes (p 0)).any (fun c => c % p 1 == p 2)
  finish s (if s.rst.ctrlUp && due then s.raise (0x910 + n) else s)

/-- MT_WRAP (R83, R92): what a wrap of MT raises, once. -/
def execMtWrap (s : State) : Host.Outcome State Fault Refusal :=
  finish s
    (if s.rst.ctrlUp && s.mt.wrapDue then
      (s.modMt (fun m => { m with wrapDue := false, flags := m.flags ||| 0x10#32 })).raise 0x919
    else s)

/-- MT_CAPTURE (R93): an event that reached mt.capture. -/
def execMtCapture (s : State) : Host.Outcome State Fault Refusal :=
  finish s
    (if s.rst.ctrlUp && s.fab.arrived.contains 0x198 then
      let t := { s with fab := { s.fab with arrived := dropFirst (· == 0x198) s.fab.arrived } }
      t.modMt (fun m => { m with cap := m.mt, capGen := (m.capGen + 1) % 16 })
    else s)

/-- mt.mode of the Cast just brought into force (Table 4.3, R81). -/
def State.mtMode (s : State) : State :=
  if s.castN 0x100 0 = 1 then
    (s.mtUnlock.modMt (fun m =>
      { m with state := .virtual, freq := s.cast 0x102 0, slew := false, isoLoss := false })).apQual
  else match s.mt.state with
    | .virtual =>
      if s.mt.mainsValid then s.mtAcquire.apQual
      else (s.modMt (fun m => { m with state := .search, freq := s.cast 0x101 0 })).apQual
    | .search => s.modMt (fun m => { m with freq := s.cast 0x101 0 })
    | _ => s

end Sys2Proof.Machine
end

