-- ==== Sys2Proof/Machine/Clock.lean ====
section
/-! DEFINITION. What the block does with no command waiting: one clock of the 200 MHz core. -/

namespace Sys2Proof.Machine

/-- One core clock of 5 ns: the slices of each group sample what this clock's slice tick gives (R225,
R230), and MT advances (R75), while the control plane is out of reset. Everything else that time brings
is a command of its own (log entry 8). -/
def State.clock (s : State) : State :=
  let t := if s.rst.ctrlUp then ((List.range s.groups).foldl State.acqClock s).mtClock else s
  { t with clk := t.clk + 1 }

/-- The step of an empty queue. -/
def idle (s : State) : Host.Outcome State Fault Refusal := finish s s.clock

end Sys2Proof.Machine
end

