-- ==== Sys2Proof/Machine/CalOps.lean ====
section
/-! DEFINITION. Calibration operations that other blocks use: the record of a failure (R422), runs that
are cut (R414, R430), and the notice to the partner (R408). -/

namespace Sys2Proof.Machine

/-- Change the calibration block. -/
def State.modCalib (s : State) (f : Cal → Cal) : State := { s with cal := f s.cal }

/-- Set bits of CAL_FLAGS (Table 15.13). -/
def State.calFlag (s : State) (m : Word) : State := s.modCalib (fun c => { c with flags := c.flags ||| m })

/-- Causes of Table 15.7. -/
abbrev calNoisy : Nat := 1
abbrev calOvr : Nat := 2
abbrev calOutOfTol : Nat := 3
abbrev calDisagree : Nat := 4
abbrev calDrift : Nat := 5
abbrev calBand : Nat := 6
abbrev calChange : Nat := 7
abbrev calCheck : Nat := 8
abbrev calInterrupted : Nat := 9
abbrev calNoArb : Nat := 10

/-- Record source of a slice. -/
def sliceSource (g slice : Nat) : Nat := 0x7000 + 32 * g + slice

/-- A calibration failure (R422): its record, CAL_FAIL_CNT and cal.fail. object and index are D0 and D1
of CAL_FAIL. -/
def State.calFail (s : State) (cause object index source : Nat) : State :=
  let t := s.modCalib (fun c => { c with failCnt := bump c.failCnt })
  (t.log
    { code := 0x4703, source := source, arg := cause
      d0 := BitVec.ofNat 32 object, d1 := BitVec.ofNat 32 index }).raise 0x92B

/-- Cut a mains converter run (R414): both channels keep their factors. -/
def State.mainsCut (s : State) : State :=
  match s.cal.mainsRun with
  | none => s
  | some ch =>
    let t := s.modCalib (fun c => { c with mainsRun := none, mainsFirst := none, mainsCause := 0 })
    ((t.calFlag 0x90#32).calFail calInterrupted 3 ch 0).complete (fun o => o.opcode == 0x0E03)
      { status := stCalFail, detail := calInterrupted }

/-- This module's CAL_EXT or current source keeps the partner from its own (R408). -/
def State.calBusy (s : State) : Bool := s.cal.ext.isSome || s.cal.isrcOn

/-- Tell the partner of a change of that (Table 23.1). -/
def State.tellBusy (before s : State) : State :=
  if before.calBusy != s.calBusy && s.twin.link == .up then s.sendReliable 0xA else s

end Sys2Proof.Machine
end

