-- ==== Sys2Proof/Machine/Spare.lean ====
section
/-! DEFINITION. The spare slice and the input selectors of its group (R216, R217, R415, R418), and the
probe DAC (R247, R248). -/

namespace Sys2Proof.Machine

/-! ## Roles (Table 9.2) -/

/-- The span of the aux entry in progress, for slice 16; else the one a slice stands on. -/
def State.checkSpan (s : State) (g slice : Nat) : Nat :=
  if slice = 16 then (((s.grpAt g).acq.run).map (fun x => auxSpan x.image)).getD 0 else s.spanOf g slice

/-- What a role connects the spare's front selector to. -/
def SpareRole.front (r : SpareRole) (slice : Nat) : Front :=
  match r with
  | .idle => .nothing
  | .calbus => .calbus
  | .share => .slice slice
  | .carry => .slice slice
  | .probe => .probe

/-- The spare serves a slice. -/
def Acq.serving (a : Acq) : Bool := a.spareRole == .share || a.spareRole == .carry

/-- The spare's amplifier stands in the span of the slice it serves (R217, R420). -/
def State.spareFollow (s : State) (g : Nat) : State :=
  let a := (s.grpAt g).acq
  if a.serving then
    s.modAcq g (fun a => { a with spareSpan := spareSpan a.spareTgt (s.checkSpan g a.spareTgt) })
  else s

/-- Put the spare slice into a role on a slice. -/
def State.spare (s : State) (g : Nat) (role : SpareRole) (slice : Nat) : State :=
  (s.modAcq g (fun a => { a with spareRole := role, spareTgt := slice, front := role.front slice })).spareFollow g

/-- Set the input selector of a slice (R216). -/
def State.selector (s : State) (g slice : Nat) (x : InSel) : State :=
  s.modAcq g (fun a => { a with sel := if x = .live then tdel a.sel slice else tput a.sel slice x })

/-- Put the spare slice to rest; every slice is on its live input. -/
def State.spareIdle (s : State) (g : Nat) : State :=
  (s.modAcq g (fun a => { a with sel := [], slotAt := none })).spare g .idle 0x1F

/-! ## Phases that a group's time brings -/

/-- Change the pass of a group. -/
def State.modPass (s : State) (g : Nat) (f : Pass → Pass) : State :=
  s.modCal g (fun c => { c with pass := c.pass.map f })

/-- The slice of a pass returns to its live input at B_c (Table 15.4 step 5). -/
def State.passReturn (s : State) (g : Nat) : State :=
  match (s.calAt g).pass with
  | some p => if p.step = 5 then (s.selector g p.slice .live).modPass g (fun x => { x with step := 6 }) else s
  | none => s

/-- Phase 5 of a spare slot, from 9.10 s to 9.25 s, on the probe path; the other phases on the bus
(Table 15.3). A common boundary comes every 4 µs. -/
def State.slotPhase (s : State) (g : Nat) : State :=
  match (s.grpAt g).acq.slotAt with
  | none => s
  | some n =>
    let x := (s.grpAt g).frames - n
    let role : SpareRole := if 2275000 ≤ x && x < 2312500 then .probe else .calbus
    if (s.grpAt g).acq.spareRole = role then s else s.spare g role 0x1F

/-- The spare and the selectors at a loop tick of their group. -/
def State.spareTick (s : State) (g : Nat) : State := ((s.passReturn g).slotPhase g).spareFollow g

/-! ## Shared-channel checks (R243) -/

/-- Maximum noise of one sample in a span, 0.001 ppm of span (Table 3.8). -/
def noiseOf (slice span : Nat) : Nat :=
  if 8 ≤ slice ∧ slice < 16 then ([4800, 32000, 320000] : List Nat).getD span 320000
  else ([4800, 4800, 5500, 7500] : List Nat).getD span 7500

/-- The square root of n / d, rounded to nearest. -/
def rootOf (n d : Nat) : Nat := (isqrt (4 * n / max 1 d) + 1) / 2

/-- What the pairs of a check give: differences of the corrected words of the pairs that count, in
units of 2^-31 of span. -/
structure ShareResult where
  pairs : Nat
  sum : Int
  squares : Nat
  deriving DecidableEq, Repr

/-- One pair of conversions of a shared-channel check (R243): the raw codes of the slice and of the
spare, and whether either sample carries NOVR. -/
structure SharePair where
  own : Int
  spare : Int
  novr : Bool
  deriving DecidableEq, Repr

/-- The pairs of a check from the codes of both slices and the numbers of those with NOVR. -/
def sharePairs (own spare : List Int) (novr : List Nat) : List SharePair :=
  (own.zip spare).zipIdx.map (fun e => ⟨e.1.1, e.1.2, novr.contains e.2⟩)

/-- The pairs of a check with the factors of the slice and of the spare: at most 1,024, those at a rail
or with NOVR left out (R243). -/
def shareOf (own spare : Factors) (tDie : Int) (l : List SharePair) : ShareResult :=
  let d := ((l.take 1024).filter (fun x => !atRail x.own && !atRail x.spare && !x.novr)).map (fun x =>
    (correct own tDie x.own).1 - (correct spare tDie x.spare).1)
  ⟨d.length, isum d, nsum (d.map (fun x => x.natAbs ^ 2))⟩

/-- Mean and rms in 0.001 ppm of span. -/
def ShareResult.mean (r : ShareResult) : Int := rdiv (r.sum * 10 ^ 9) (max 1 r.pairs * 2 ^ 31)
def ShareResult.rms (r : ShareResult) : Int := (rootOf (r.squares * 10 ^ 18) (max 1 r.pairs * 2 ^ 62) : Nat)

/-- A check passes: the mean within tol ppm of span, the rms at most 2√2 times the noise. -/
def ShareResult.passes (r : ShareResult) (tol noise : Nat) : Bool :=
  decide (r.sum.natAbs * 10 ^ 6 ≤ tol * r.pairs * 2 ^ 31) &&
    decide (r.squares * 10 ^ 18 ≤ 8 * noise * noise * r.pairs * 2 ^ 62)

/-- A check has an outcome. -/
def ShareResult.judged (r : ShareResult) : Bool := 64 ≤ r.pairs

/-- The result of a check on a slice with its own set, or the one in force. -/
def State.shareResult (s : State) (g slice : Nat) (own : Option Factors) (l : List SharePair) : ShareResult :=
  let c := s.calAt g
  let k := s.checkSpan g slice
  shareOf (own.getD (c.factors slice k)) (c.factors 17 (spareSpan slice k)) (s.grpAt g).tDie l

/-- A check of a slice passes against a mean limit. -/
def State.sharePasses (s : State) (g slice tol : Nat) (r : ShareResult) : Bool :=
  r.passes tol (noiseOf slice (s.checkSpan g slice))

/-! ## The probe DAC (R247, R248) -/

/-- Spans of a slice. -/
def spansOf (slice : Nat) : Nat := if 8 ≤ slice ∧ slice < 16 then 3 else 4

/-- The power of ten that the attenuator divides by for a span (Table 9.9). -/
def probeAtt (slice span : Nat) : Nat :=
  if 8 ≤ slice ∧ slice < 16 then span + 1 else if span ≤ 1 then 0 else 1

/-- The levels of a path test, in percent of full scale. -/
def probeLevels : List Int := [-80, -40, 0, 40, 80]

/-- LSB of the probe DAC in V. -/
def probeLsb : Frac := ⟨20, 4096⟩

/-- The DAC code of a level of a span: rounded to the nearest LSB, in 12-bit two's complement. -/
def probeCode (slice span : Nat) (pct : Int) : Int :=
  clamp (-2048) 2047 ((((fsOf slice span).mul ⟨pct * 10 ^ probeAtt slice span, 100⟩).div probeLsb).round)

/-- The input that a code gives at a span, in V. -/
def probeInput (slice span : Nat) (code : Int) : Frac :=
  ((probeLsb.mul (Frac.ofInt code))).mul ⟨1, 10 ^ probeAtt slice span⟩

/-- A level's averaged result as a fraction of the span, its word having full scale at 2^30, less what
is expected; 256 conversions are averaged. -/
def probeError (slice span : Nat) (pct : Int) (words : List Int) : Frac :=
  let l := words.take 256
  let got : Frac := ⟨isum l, max 1 l.length * 2 ^ 31⟩
  let want := (probeInput slice span (probeCode slice span pct)).div ((fsOf slice span).mul ⟨2, 1⟩)
  (got.add want.neg).abs

/-- The 4-byte entry of a span whose levels have these words; none where it was not tested (R248). -/
def pathEntry (tol slice span : Nat) (levels : List (List Int)) : Word :=
  if levels.length < 5 then at32 span 0 ||| at32 2 8
  else
    let e := List.zipWith (probeError slice span) probeLevels levels
    let bad := e.any (fun x => !x.le ⟨tol, 10000⟩)
    let most := lmax (e.map (fun x => ((x.mul ⟨100000, 1⟩).round).toNat))
    at32 span 0 ||| at32 (b2n bad) 8 ||| at32 (min most 65535) 16

/-- Put the probe DAC on a level of a span (R247). -/
def State.probeSet (s : State) (g slice span : Nat) (pct : Int) : State :=
  s.modAcq g (fun a => { a with probe := probeCode slice span pct, probeAtt := probeAtt slice span })

end Sys2Proof.Machine
end

