-- ==== Sys2Proof/Machine/Point.lean ====
section
/-! DEFINITION. Points and lists of sweeps: entries, reports, cuts (chapter 14), and what ends a
tuning injection (R347). -/

namespace Sys2Proof.Machine

/-! ## Sweep entries (Table 14.1) -/

def ptValid (e : BitVec 256) : Bool := e.getLsbD 7
def ptPulse (e : BitVec 256) : Bool := e.getLsbD 6
def ptStart (e : BitVec 256) : Nat := bits e 5 4
def ptMode (e : BitVec 256) : Nat := bits e 3 0
def ptSpanReq (e : BitVec 256) : Nat := bits e 15 12
def ptRngReq (e : BitVec 256) : Nat := bits e 11 8
def ptKeep (e : BitVec 256) : Bool := e.getLsbD 23
def ptSite (e : BitVec 256) : Nat := bits e 19 16
def ptMark (e : BitVec 256) : Bool := e.getLsbD 28
def ptBrk (e : BitVec 256) : Bool := e.getLsbD 27
def ptAux (e : BitVec 256) : Bool := e.getLsbD 26
def ptNoAp (e : BitVec 256) : Bool := e.getLsbD 25
def ptTicks (e : BitVec 256) : Bool := e.getLsbD 24
def ptLevel (e : BitVec 256) : Int := sbits e 32 32
def ptCompA (e : BitVec 256) : Int := sbits e 64 32
def ptCompB (e : BitVec 256) : Int := sbits e 96 32
def ptDwell (e : BitVec 256) : Nat := bits e 159 128
def ptAperture (e : BitVec 256) : Nat := bits e 175 160
def ptApDelay (e : BitVec 256) : Nat := bits e 191 176
def ptBase (e : BitVec 256) : Int := sbits e 192 32
def ptWidth (e : BitVec 256) : Nat := bits e 239 224
def ptPhase (e : BitVec 256) : Nat := bits e 255 240

/-- The mode a point runs in for a figure of a mode. -/
def modeOf (e : BitVec 256) (figMode : Nat) : Nat := if ptMode e = 15 then figMode else ptMode e

/-! ## Reports (R398 to R401) -/

/-- Set bits of SWP_FLAGS. -/
def State.swpFlag (s : State) (f : Nat) (m : Word) : State :=
  s.modFig f (fun x => { x with flags := x.flags ||| m })

/-- WHERE of Table 14.8 for a figure now. -/
def State.whereOf (s : State) (f : Nat) : BitVec 8 :=
  match s.members f with
  | [] => 0#8
  | m :: _ => BitVec.ofNat 8 ((s.spAt m).force.site % 16 + 16 * ((s.spAt m).force.rng % 8))

/-- Queue a report of a figure (R401). -/
def State.report (s : State) (f point state cause : Nat) (flags : BitVec 16) (pass : Word)
    (mtStart : DWord) : State :=
  let r : Report :=
    { point := point, state := state, cause := cause, flags := flags, pass := pass
      port := (s.members f).headD 0xFF, wher := s.whereOf f, mtStart := mtStart, mtEnd := s.mt.mt }
  s.modFig f (fun x => { x with reports := x.reports ++ [r] })

/-- Events that reached pt_go of a figure's runner before its next point is ready are not remembered
(R389). -/
def State.forgetGo (s : State) (f : Nat) : State :=
  match s.members f with
  | [] => s
  | m :: _ => { s with fab := { s.fab with arrived := s.fab.arrived.filter (fun c => c != 0x100 + m) } }

/-- The point in flight reaches DONE (4) or FAILED (5) (R388, R400): its report, counter and event. -/
def State.ptFinal (s : State) (f state cause : Nat) (extra : BitVec 16) : State :=
  match (s.figAt f).flight with
  | none => s
  | some p =>
    let t := s.report f p.index state cause (p.flags ||| extra) (s.figAt f).pass p.mtStart
    let t := t.forgetGo f
    let t := t.modFig f (fun x =>
      { x with
        flight := none
        readyMt := s.mt.mt
        doneCnt := if state = 4 then bump x.doneCnt else x.doneCnt
        failCnt := if state = 5 then bump x.failCnt else x.failCnt
        flags := x.flags ||| bitAt (state == 5) 1 })
    t.raiseFig f (if state = 4 then 4 else 5)

/-- Report the pending points of the present pass NOT_RUN (R400). -/
def State.ptNotRun (s : State) (f cause : Nat) : State :=
  let x := s.figAt f
  let left := (List.range x.count).drop x.next
  let t := left.foldl (fun t i => t.report f (x.first + i) 6 cause 0#16 x.pass 0#64) s
  t.modFig f (fun y => { y with next := x.count, nrunCnt := bumpBy y.nrunCnt left.length })

/-- Write the list report (R398): state 4 when every pass completed, 5 when the list ended early. -/
def State.listReport (s : State) (f state cause : Nat) : State :=
  let x := s.figAt f
  let done := if state = 4 then x.pass else x.pass - 1#32
  (s.report f 0xFFFF state cause 0#16 done x.listMt).swpFlag f
    (bitAt true 0 ||| bitAt (state == 5) 2)

/-- A list runs: it has started and not ended. -/
def listRuns (x : Fig) : Bool := x.run == .waiting || x.run == .active || x.run == .held

/-- Set the runner state of a figure. -/
def State.setRun (s : State) (f : Nat) (r : RunState) : State :=
  s.modFig f (fun x => { x with run := r })

/-- The aperture of a figure's point was open with data, or gave a result: PARTIAL and RESULT of its
report. -/
def State.cutFlags (s : State) (f : Nat) : BitVec 16 :=
  let x := s.figAt f
  match x.apOpen, x.flight with
  | some a, some p =>
    if a.point = p.index then (if a.first.isSome then 0x48#16 else 0x40#16) else 0#16
  | _, _ => 0#16

/-- Cut a figure's list (R402): the point in flight fails, the pending ones are NOT_RUN, the list
report follows, and the runner goes to a state. extra holds ABORTED where it applies. -/
def State.listCut (s : State) (f cause : Nat) (extra : BitVec 16) (after : RunState) : State :=
  let x := s.figAt f
  let t := if listRuns x && !x.endedInHold then
      ((s.ptFinal f 5 cause extra).ptNotRun f cause).listReport f 5 cause
    else s
  t.modFig f (fun y =>
    { y with run := after, startDue := false, stop := none, endedInHold := false, compA := none, compB := none })

/-! ## The end of a tuning injection (R347) -/

/-- Build the packet in progress of an injection. -/
def State.tuneFlush (s : State) (g : Nat) : State :=
  match (s.grpAt g).tune with
  | none => s
  | some t =>
    if t.entries.isEmpty then s
    else
      let q := 64 * t.fig + 4
      (s.produce q
        { key := BitVec.ofNat 32 t.firstK, stamp := t.stamp, payload := t.entries }).modGrp
        g (fun x => { x with tune := some { t with entries := [], nEntries := 0, packets := t.packets + 1 } })

/-- What follows the commit of an injection's last packet, put to that packet where it still waits for
its commit; with none waiting it follows at once. While the data plane is down nothing is committed, and
only TUNE_START completes. -/
def State.tuneNoted (s : State) (n : TuneNote) : State :=
  let q := 64 * n.fig + 4
  match (s.queAt q).due.reverse with
  | b :: rest => s.modQue q (fun x => { x with due := ({ b with tuned := some n } :: rest).reverse })
  | [] => if s.rst.dataUp then s.tuneCommit (some n) else s.tuneAnswer n

/-- End the injection of a group: its last packet, and with that packet's commit tune_done and
TUNE_START's response (R347); one that had not started completes at once. -/
def State.tuneEnd (s : State) (g : Nat) (ok : Bool) : State :=
  match (s.grpAt g).tune with
  | none => s
  | some t =>
    let u := s.tuneFlush g
    let packets := (((u.grpAt g).tune).map (fun x => x.packets)).getD 0
    let u := u.modGrp g (fun x => { x with tune := none })
    let u := if ok then u else u.modSp t.port (fun x =>
      { x with loop := { x.loop with flags := x.loop.flags ||| 0x80#32 } })
    let n : TuneNote :=
      { fig := t.fig, mbx := t.mbx, tag := t.tag, ok := ok, cancelled := t.cancelled
        startMt := t.startMt, written := t.written, packets := packets }
    if t.started then u.tuneNoted n else u.tuneAnswer n

/-- Cut the injection of a figure. -/
def State.tuneCut (s : State) (f : Nat) : State :=
  (s.grp.filter (fun e => (e.2.tune.map (fun t => t.fig)) == some f)).foldl
    (fun t e => t.tuneEnd e.1 false) s

/-- Cut the raw capture that goes to a figure (R249). -/
def State.captureCut (s : State) (f : Nat) : State :=
  (s.grp.filter (fun e => (e.2.acq.cap.map (fun c => c.fig)) == some f)).foldl
    (fun t e => t.rawCut e.1 0) s

end Sys2Proof.Machine
end

