-- ==== Sys2Proof/Machine/Force.lean ====
section
/-! DEFINITION. The force path: output states, ramps, ranges and spans (chapters 7 and 11). A row that
acts at a loop tick stands before the LOOP_PERIOD_BOUNDARY row of that tick (log entry 19). -/

namespace Sys2Proof.Machine

/-- Set bits of FR_FLAGS. -/
def State.frFlag (s : State) (p : Nat) (m : Word) : State :=
  s.modForce p (fun f => { f with flags := f.flags ||| m })

/-- SAFE_CODE of a port; 0 without a descriptor (R280). -/
def State.safeCode (s : State) (p : Nat) : Int :=
  match s.desc p with
  | some d => dSafe d
  | none => 0

/-- A port is enabled now: it is in a state from ARMED to REGULATING. -/
def portOn (x : Sp) : Bool :=
  outOf x == .armed || outOf x == .ramp || outOf x == .regulating

/-- Loops of a port are closed: RAMP or REGULATING, no ramp to SAFE_CODE, no hold. -/
def loopsClosed (x : Sp) : Bool :=
  (outOf x == .ramp || outOf x == .regulating) && x.force.down.isNone && !x.sup.held

/-! ## Level, slew and ramps (R287 to R291) -/

/-- Modes whose level is a voltage. -/
def isVolt (mode : Nat) : Bool := mode == 0 || mode == 5

/-- Slew in force of a figure in a mode on a port, in level units per ms; none for a step (R287). -/
def State.slewIn (s : State) (f mode p : Nat) : Option Nat :=
  let slew := s.castN 0x418 f
  let most := dn (s.descOf p) 0x4A 2 * 1000000
  if isVolt mode && most != 0 then
    some (if slew = 0 then most else min slew most)
  else if slew = 0 then none else some slew

/-- Slew in force of a figure on a port. -/
def State.slewOf (s : State) (f p : Nat) : Option Nat := s.slewIn f (s.figAt f).mode p

/-- SLEW_MAX is the smaller one (R287). -/
def State.slewClips (s : State) (f p : Nat) : Bool :=
  let most := dn (s.descOf p) 0x4A 2 * 1000000
  isVolt (s.figAt f).mode && most != 0 && decide (most < s.castN 0x418 f)

/-- What the setpoint moves in one period, in 1/2000 unit; none for a step. -/
def State.stepOf (s : State) (f p : Nat) : Option Int :=
  (s.slewOf f p).map (fun r => ((r * (s.periodNs (p / 8) / 500) : Nat) : Int))

/-- The latest measured output voltage and current of a port, on the scale they were taken in. -/
def State.voltsNow (s : State) (p : Nat) : Frac :=
  let x := s.spAt p
  voltsOf (s.descOf p) x.meas.vspan x.meas.wV
def State.ampsNow (s : State) (p : Nat) : Frac :=
  let x := s.spAt p
  ampsOf (s.descOf p) x.meas.rng x.meas.wI

/-- The latest words of a port on the span and the range in force: a change at this tick rescales the
sample from before it (R264, R295, R300). -/
def State.lastV (s : State) (p : Nat) : Int :=
  let x := s.spAt p
  if x.meas.vspan = x.force.vspan then x.meas.wV
  else sat31 (rescaleWord (rhoV x.meas.vspan x.force.vspan) x.meas.wV)
def State.lastI (s : State) (p : Nat) : Int :=
  let x := s.spAt p
  if x.meas.rng = x.force.rng then x.meas.wI
  else sat31 (rescaleWord (rhoI (s.descOf p) x.meas.rng x.force.rng) x.meas.wI)

/-- Periods of the disable ramp of a figure in a mode, from its master (R291). -/
def State.downPeriods (s : State) (f mode p : Nat) : Nat :=
  match s.slewIn f mode p with
  | none => 1
  | some r =>
    let d := s.descOf p
    let vs := (dGain d).mul ⟨s.safeCode p * 20, 2 ^ 20⟩
    let way := if isVolt mode then ((s.voltsNow p).add vs.neg).abs else (s.ampsNow p).abs
    max 1 ((way.mul ⟨10 ^ 12, r * s.periodNs (p / 8)⟩).ceil)

/-- The code of the j-th period of a disable ramp (R291). -/
def DownRamp.code (r : DownRamp) (safe : Int) : Int := r.c0 + rdiv ((safe - r.c0) * r.j) r.n

/-- Open the loops of a port and ramp its command to SAFE_CODE in n periods. -/
def State.openRamp (s : State) (p n : Nat) : State :=
  s.modForce p (fun f => { f with down := some ⟨f.inCode, n, 0⟩ })

/-- The command of a port stands at SAFE_CODE with its loops open. -/
def atSafe (f : Force) : Bool :=
  match f.down with
  | some r => r.n ≤ r.j
  | none => false

/-! ## Allowed ranges (R297, R298) -/

/-- A percentage of a range's full scale covers a current in A. -/
def covers (d : BitVec 2048) (r pct : Nat) (i : Frac) : Bool :=
  (i.mul ⟨100, 1⟩).le ((ampsFull d r).mul ⟨pct, 1⟩)

/-- The highest-index range of a list that passes a test. -/
def bestRange (l : List Nat) (p : Nat → Bool) : Option Nat := (l.filter p).getLast?

/-- Ranges fitted. -/
def fitted (d : BitVec 2048) : List Nat := List.range (min 6 (dRanges d))

/-- r_hi and r_lo for a figure's parameters on a descriptor. -/
def rangeBounds (t : Tab Word) (f : Nat) (d : BitVec 2048) : Nat × Nat :=
  if pnat t 0x419 f = 0 then (pnat t 0x41A f, pnat t 0x41A f)
  else
    let lim := micro (max (pnat t 0x404 f) (pnat t 0x405 f) : Nat)
    let hi := if pnat t 0x41B f = 0xFF then (bestRange (fitted d) (fun r => covers d r 98 lim)).getD 0
      else pnat t 0x41B f
    (hi, if pnat t 0x41C f = 0xFF then dRanges d - 1 else pnat t 0x41C f)

/-- The allowed set of a figure on a port, r_hi first. -/
def State.allowed (s : State) (f p : Nat) : List Nat :=
  let b := rangeBounds s.sets.cast.params f (s.descOf p)
  (fitted (s.descOf p)).filter (fun r => b.1 ≤ r && r ≤ b.2)

/-- The first range of Table 7.2. -/
def State.firstRange (s : State) (f p : Nat) : Nat :=
  (rangeBounds s.sets.cast.params f (s.descOf p)).1

/-! ## Sites (R185, R186, R200) -/

/-- The site number on a port that serves site j of a figure: the same one on its nominal port, else
one of the same position. -/
def State.siteOn (s : State) (f p j : Nat) : Nat :=
  let nominal := bits (s.cast 0x40A f) 22 16
  if p = nominal then j
  else
    let pos := s.castN 0x460 (16 * nominal + j)
    ((List.range (dSiteTotal (s.descOf p))).find? (fun k =>
      pos != 0 && s.castN 0x460 (16 * p + k) == pos)).getD j

/-- The lowest site of a figure's mask. -/
def State.lowSite (s : State) (f : Nat) : Nat :=
  ((List.range 16).find? (fun j => (s.cast 0x40A f).getLsbD j)).getD 0

/-- The site strobed as a figure is enabled (R200, R386). -/
def State.enableSite (s : State) (f p : Nat) : Nat :=
  let e := tget 0#256 s.sets.cast.sweep (s.castN 0x439 f)
  let j := if s.castN 0x43C f == 0 && s.castN 0x43A f != 0 && !ptKeep e then ptSite e else s.lowSite f
  s.siteOn f p j

/-- Strobe a site; a stage without a matrix has none to strobe (R169). -/
def State.strobe (s : State) (p j : Nat) : State :=
  if dSites (s.descOf p) = 0 then s else s.modForce p (fun f => { f with site := j, siteClk := some s.clk })

/-! ## Model and frozen counts restart (R367, R369) -/

/-- The plausibility model starts anew after sup.res_hold samples. -/
def State.modelRestart (s : State) (p : Nat) : State :=
  s.modSup p (fun x => { x with model := { x.model with
    hist := [], since := 0, holdoff := s.castN 0x163 0, fitted := 0 } })

/-- The frozen counts of a port restart. -/
def State.thaw (s : State) (p : Nat) : State := s.modSup p (fun x => { x with froV := 0, froI := 0 })

/-- Ports of a standby that serve figures of its Cast are in STANDBY, the others OFF (R599). -/
def State.standbyPorts (s : State) : State :=
  if !s.aside then s
  else (List.range (8 * s.groups)).foldl (fun t p =>
    let serves := !(s.figsOn p).isEmpty
    let out := (s.spAt p).force.out
    if serves && out == .off then t.modForce p (fun x => { x with out := .standby })
    else if !serves && out == .standby then t.modForce p (fun x => { x with out := .off })
    else t) s

/-! ## Enable (Table 7.2) -/

/-- No port is enabled while a die is too hot (R64), nor while its STG_FLTn is low (R166). -/
def State.enableBarred (s : State) (p : Nat) : Bool :=
  s.rst.dieHot || ((s.spAt p).sup.flt && dFlt (s.descOf p))

/-- Step 1 of Table 7.2 for a figure on one member. It waits for the release of the port's lines (R163)
and for what bars it (R64, R166, log entry 128). -/
def State.enablePort (s : State) (f p : Nat) : State :=
  if !(s.spAt p).force.lines.isEmpty || s.enableBarred p then s.modForce p (fun x => { x with enableDue := some f })
  else
    let r := s.firstRange f p
    let v := s.castN 0x421 f
    let safe := s.safeCode p
    let t := s.modForce p (fun x =>
      { x with
        out := .armed
        inCode := safe
        outCode := safe
        driven := true
        en := false
        lines := [r]
        rng := r
        rngAuto := s.castN 0x419 f == 1
        vspan := if v = 4 then 0 else v
        vspanAuto := v == 4
        win := none
        downPend := none
        spanPend := none
        waited := 0
        upRun := 0
        downRuns := []
        spanUpRun := 0
        spanDownRuns := []
        spanHold := 0
        down := none
        enableDue := none
        leaveDue := none
        leave := none
        siteWait := 0
        seq := 0 })
    (t.strobe p (s.enableSite f p)).thaw p

/-- Ticks from step 1 to step 2: MAKE_US, and the site's times (R200). -/
def State.makeTicks (s : State) (p : Nat) : Nat :=
  let d := s.descOf p
  let site := if dSites d = 0 then 0 else dn d 0xA6 2 + dn d 0xA4 2
  s.ticksUs (p / 8) (max (dMake d (s.spAt p).force.rng) site)

/-- fig.monK.ctrl of monitor k of a port: off where the port serves no figure (R352). -/
def State.monCtrl (s : State) (p k : Nat) : Word :=
  match s.serves p with
  | none => 0#32
  | some f => s.cast (0x428 + 4 * k) f

/-- Monitor k of a port is settled; one that is off counts as settled (R356). -/
def State.monSettled (s : State) (p k : Nat) : Bool :=
  let m := (s.spAt p).sup.mon.getD k Mon.init
  bits (s.monCtrl p k) 2 0 == 0 || (m.on && m.upper.settled && m.lower.settled)

/-- All four monitors of a port are settled. -/
def State.allSettled (s : State) (p : Nat) : Bool := (List.range 4).all (s.monSettled p)

/-- STG_EN_ASSERT (Table 7.2 step 2, R357). -/
def execStgEnAssert (port : Nat) (s : State) : Host.Outcome State Fault Refusal :=
  let f := (s.spAt port).force
  finish s
    (if s.grpRuns (port / 8) && f.out == .armed && !f.en && s.makeTicks port ≤ f.seq &&
        f.lines.length == 1 && s.allSettled port then
      s.modForce port (fun x => { x with en := true, seq := 0 })
    else s)

/-- The loops of a port close: its first command is to equal a code (R288, R337). -/
def State.closeLoops (s : State) (p : Nat) (code : Int) : State :=
  let t := s.modForce p (fun x => { x with out := .ramp, down := none, seq := 0, iClip := false })
  (t.modLoop p (fun x => { x with closing := some code })).modelRestart p

/-- LOOPS_CLOSE (Table 7.2 step 3). On a shared stage with no slot running the command stands at
SAFE_CODE with the loops open (R397). -/
def execLoopsClose (port : Nat) (s : State) : Host.Outcome State Fault Refusal :=
  let f := (s.spAt port).force
  finish s
    (if s.grpRuns (port / 8) && f.out == .armed && f.en &&
        s.ticksUs (port / 8) (dn (s.descOf port) 0xA8 2) ≤ f.seq then
      let t := s.closeLoops port (s.safeCode port)
      if (s.serves port).isSome then t
      else t.modForce port (fun x => { x with down := some ⟨x.inCode, 1, 1⟩ })
    else s)

/-! ## Ranges and spans (R295, R299 to R306) -/

/-- The ports that go with a port: those that leave a figure together, the members of the figure whose
loops it runs; the port alone where none is served. -/
def State.gangOf (s : State) (p : Nat) : List Nat :=
  match (s.spAt p).leaving with
  | some l => l.members.filter (fun q => q == p || (s.spAt q).leaving == some l)
  | none =>
    match s.serves p with
    | some f => if (s.members f).contains p then s.members f else [p]
    | none => [p]

/-- Mark a range or span change in the point in flight of the figure a port serves. -/
def State.ptRngChange (s : State) (p : Nat) : State :=
  match s.serves p with
  | none => s
  | some f => s.modFig f (fun x =>
      { x with flight := x.flight.map (fun q => { q with flags := q.flags ||| 0x200#16 }) })

/-- Start a range window to range b on every member of a port's gang (R299, R300, R303). CV continues;
where another loop governs, or the hold voltage of a window that closed at this tick, the last voltage
word is held. -/
def State.rangeStart (s : State) (p b : Nat) (requested : Bool) : State :=
  let g := s.gangOf p
  let grp := p / 8
  let a := (s.spAt p).force.rng
  let k := s.ticksUs grp (lmax (g.map (fun q => dMake (s.descOf q) b)))
  let j := max 1 (s.ticksUs grp (lmax (g.map (fun q => dBreak (s.descOf q) a))))
  let m := s.spAt (g.headD p)
  g.foldl (fun t q =>
    let x := t.spAt q
    let hold := if m.loop.gov == 1 || !loopsClosed m then none else some (s.lastV (g.headD p))
    let w : Window :=
      { a := a, b := b, tick := 0, k := k, j := j, heldI := s.lastI q, holdV := hold
        requested := requested }
    let t := t.modForce q (fun y =>
      { y with
        win := some w
        lines := insAsc y.lines b
        downPend := none
        waited := 0
        upRun := 0
        downRuns := []
        flags := y.flags ||| bitAt hold.isSome 6 })
    let t := t.modSup q (fun y => { y with mon := y.mon.map (fun z => { z with mask := 2 }) })
    if hold.isSome then t.modLoop q (fun y => { y with closing := some x.force.inCode }) else t) s

/-- The switch boundary of a range window on one member (R299 step 2). -/
def State.rangeSwitch (s : State) (p : Nat) : State :=
  match (s.spAt p).force.win with
  | none => s
  | some w =>
    let d := s.descOf p
    let rho := rhoI d w.a w.b
    let s := s.combFinish (p / 8)
    let t := s.rescaleAperture p w.b (s.spAt p).force.vspan
    let w1 : Window := { w with heldI := sat31 (rescaleWord rho w.heldI) }
    let t := t.modForce p (fun y =>
      { y with
        win := some w1, rng := w.b, lines := y.lines.filter (fun l => l != w.a)
        release := y.release.filter (fun l => l != w.a) })
    (t.modSup p (fun y => { y with mon := y.mon.map (fun z => { z with mask := 2 }) })).thaw p

/-- RANGE_SWITCH_BOUNDARY (R299 step 2, R303): every member of the gang on one tick. -/
def execRangeSwitchBoundary (port : Nat) (s : State) : Host.Outcome State Fault Refusal :=
  finish s
    (match (s.spAt port).force.win with
     | some w =>
       if s.grpRuns (port / 8) && (s.spAt port).force.rng != w.b && w.k ≤ w.tick then
         (s.gangOf port).foldl State.rangeSwitch s
       else s
     | none => s)

/-- The range window of one member closes (R299 step 3). -/
def State.rangeClose (s : State) (p : Nat) : State :=
  match (s.spAt p).force.win with
  | none => s
  | some w =>
    let up := w.b < w.a
    let t := s.modForce p (fun y =>
      { y with
        win := none
        upRun := 0
        downRuns := []
        rngUpCnt := if up then bump y.rngUpCnt else y.rngUpCnt
        rngDownCnt := if up then y.rngDownCnt else bump y.rngDownCnt
        flags := y.flags ||| bitAt up 2 ||| bitAt (!up) 3 })
    (((t.modelRestart p).thaw p).ptRngChange p).raisePort p (if up then 8 else 9)

/-- The target R637 gives a port whose range lies outside the figure's allowed set, and whose span is
not the fixed one. -/
def nearest (l : List Nat) (r : Nat) : Nat :=
  match l.head?, l.getLast? with
  | some hi, some lo => if r < hi then hi else if lo < r then lo else r
  | _, _ => r

/-- Change the voltage span of a port at a boundary (R295). -/
def State.spanChange (s : State) (p v : Nat) : State :=
  let old := (s.spAt p).force.vspan
  if old = v then s
  else
    let rho := rhoV old v
    let s := s.combFinish (p / 8)
    let t := s.rescaleAperture p (s.spAt p).force.rng v
    let held := sat31 (rescaleWord rho (s.lastV p))
    let win := (s.spAt p).force.win.map (fun w =>
      { w with holdV := w.holdV.map (fun h => sat31 (rescaleWord rho h)) })
    let t := t.modForce p (fun y =>
      { y with
        vspan := v
        win := win
        spanPend := none
        spanUpRun := 0
        spanDownRuns := []
        heldV := held
        spanHold := 1
        rngUpCnt := if v < old then bump y.rngUpCnt else y.rngUpCnt
        rngDownCnt := if v < old then y.rngDownCnt else bump y.rngDownCnt
        flags := y.flags ||| 0x10#32 })
    let t := t.modLoop p (fun y => { y with prevV := sat31 (rescaleWord rho y.prevV) })
    ((t.thaw p).ptRngChange p).raisePort p (if v < old then 8 else 9)

/-- Ask for a range of a running port (R306): a higher full scale starts at once, a lower one waits, and
so does any while a range window is open (Table 11.4). -/
def State.askRange (s : State) (p b : Nat) : State :=
  let x := (s.spAt p).force
  if b = x.rng ∧ x.win.isNone then s
  else if b < x.rng ∧ x.win.isNone then s.rangeStart p b true
  else (s.gangOf p).foldl (fun t q => t.modForce q (fun y =>
    { y with downPend := some b, waited := 0, reqRun := 0 })) s

/-- Ask for a voltage span of a running port (R306, R391). -/
def State.askSpan (s : State) (p v : Nat) : State :=
  let x := (s.spAt p).force
  if v = x.vspan then s
  else if v < x.vspan then (s.gangOf p).foldl (fun t q => t.spanChange q v) s
  else (s.gangOf p).foldl (fun t q => t.modForce q (fun y =>
    { y with spanPend := some v, waited := 0, spanReqRun := 0 })) s

/-- Bring a figure's range and span parameters into force on a running port and its gang (R637, Table
11.4). -/
def State.rangeParams (s : State) (f p : Nat) : State :=
  let x := (s.spAt p).force
  let v := s.castN 0x421 f
  let t := (s.gangOf p).foldl (fun t q => t.modForce q (fun y =>
    { y with rngAuto := s.castN 0x419 f == 1, vspanAuto := v == 4, paramsDue := false })) s
  let t := t.askRange p (nearest (t.allowed f p) x.rng)
  if v = 4 then t else t.askSpan p v

/-- RANGE_WINDOW_CLOSE (R299 step 3, R301). -/
def execRangeWindowClose (port : Nat) (s : State) : Host.Outcome State Fault Refusal :=
  finish s
    (match (s.spAt port).force.win with
     | some w =>
       if s.grpRuns (port / 8) && (s.spAt port).force.rng == w.b && w.k + w.j ≤ w.tick then
         let t := (s.gangOf port).foldl State.rangeClose s
         match s.serves port with
         | some f => if (s.spAt port).force.paramsDue then t.rangeParams f port else t
         | none => t
       else s
     | none => s)

/-! ## Disable (R164, R285, R291) -/

/-- Take one port out of its run at a loop tick, as a figure's disable does (Table 11.2). -/
def State.disablePort (s : State) (p n : Nat) : State :=
  let t := s.modSup p (fun y => { y with held := false, checking := false })
  match (s.spAt p).force.out with
  | .armed => t.modForce p (fun y => { y with out := .park, en := false, seq := 0 })
  | .ramp => (t.openRamp p n).modForce p (fun y => { y with out := .rampDown })
  | .regulating => (t.openRamp p n).modForce p (fun y => { y with out := .rampDown })
  | _ => t

/-- No other figure runs on a port. -/
def State.soleOn (s : State) (f p : Nat) : Bool :=
  (s.figsOn p).all (fun g => g == f || !(s.figAt g).enabled)

/-- A figure leaves a shared stage that others still run on: its slot ends. -/
def State.leaveSlot (s : State) (f p : Nat) : State :=
  if (s.spAt p).slotFig = some f then
    let t := s.modSp p (fun x => { x with slotFig := none })
    if loopsClosed (s.spAt p) then t.openRamp p (s.downPeriods f (s.figAt f).mode p) else t
  else s

/-- A figure leaves the stages it runs on: at the next loop tick each ramps down, or parks from ARMED;
on a shared stage that others still run on its slot ends (R164, R285). -/
def State.leaveStages (s : State) (f : Nat) : State :=
  let l : Leave := { fig := f, mode := (s.figAt f).mode, members := (s.members f).filter (s.soleOn f) }
  (s.members f).foldl (fun t p =>
    if s.soleOn f p then
      t.modForce p (fun y => { y with enableDue := none, leaveDue := if y.out == .off then none else some l })
    else t.leaveSlot f p) s

/-- The disables of a port that take effect at this loop tick (R285, R291). -/
def State.leaveNow (s : State) (p : Nat) : State :=
  match (s.spAt p).force.leaveDue with
  | none => s
  | some l =>
    let n := s.downPeriods l.fig l.mode (l.members.headD p)
    (s.disablePort p n).modForce p (fun y => { y with leaveDue := none, leave := some l })

/-- Disable a figure with a cause of Tables 10.4 and 14.10: 1 host, 2 WINDDOWN, 3 budget (R117, R195,
R402). -/
def State.figDisable (s : State) (f cause : Nat) : State :=
  if !(s.figAt f).enabled then s
  else
    let flags := s.cutFlags f
    let t := s.apCut f cause
    let t := t.listCut f cause (flags ||| 0x10#16) .idle
    let t := ((t.tuneCut f).captureCut f).modFig f (fun x => { x with enabled := false })
    ((List.range t.groups).foldl (fun t g => t.auxFigCut g f) t).leaveStages f

/-- An Unveil moves a running figure to other stages (R197): it leaves its own; a list with no point
in flight goes on. -/
def State.figMove (s : State) (f : Nat) : State :=
  let flags := s.cutFlags f
  let t := s.apCut f 1
  let t := if (s.figAt f).flight.isSome then t.listCut f 1 (flags ||| 0x10#16) .idle else t
  let t := ((t.tuneCut f).captureCut f).modFig f (fun x => { x with enabled := false })
  ((List.range t.groups).foldl (fun t g => t.auxFigCut g f) t).leaveStages f

/-- RAMP_DOWN_END (R164, R285). -/
def execRampDownEnd (port : Nat) (s : State) : Host.Outcome State Fault Refusal :=
  let f := (s.spAt port).force
  finish s
    (if s.grpRuns (port / 8) && f.out == .rampDown && atSafe f then
      s.modForce port (fun x => { x with out := .park, en := false, down := none, seq := 0 })
    else s)

/-- The low lines of a port in the order of their release (R164). -/
def State.releaseOrder (s : State) (p : Nat) : List Nat :=
  let low := (s.spAt p).force.lines
  match s.desc p with
  | some d => (dOrder d).filter (fun l => low.contains l)
  | none => low

/-- PARK_END (R164, Table 13.4 step 2): after a disable, or after a trip. -/
def execParkEnd (port : Nat) (s : State) : Host.Outcome State Fault Refusal :=
  let f := (s.spAt port).force
  let due := s.ticksUs (port / 8) (dn (s.descOf port) 0xAA 2) ≤ f.seq
  finish s
    (if s.grpRuns (port / 8) && f.driven && due && (f.out == .park || f.out == .tripped) then
      s.modForce port (fun x =>
        { x with
          out := if x.out == .park then .off else x.out
          leave := none
          driven := false
          release := s.releaseOrder port
          seq := 0 })
    else s)

/-- RNG_LINE_RELEASE (R164, Table 13.4 step 3): one low line a tick, once an open range window has closed
(Table 11.4). -/
def execRngLineRelease (port : Nat) (s : State) : Host.Outcome State Fault Refusal :=
  let f := (s.spAt port).force
  finish s
    (match f.release with
     | l :: rest =>
       if s.grpRuns (port / 8) && 1 ≤ f.seq && !f.driven && f.win.isNone then
         s.modForce port (fun x =>
           { x with lines := x.lines.filter (fun y => y != l), release := rest, seq := 0 })
       else s
     | [] => s)

end Sys2Proof.Machine
end

