-- ==== Sys2Proof/Machine/Trip.lean ====
section
/-! DEFINITION. Supervision and protection (chapter 13): window monitors, trips, holds, sense-lead
checks, trip records. -/

namespace Sys2Proof.Machine

/-! ## Port state (Table 13.10) -/

/-- Set bits of SUP_FLAGS. -/
def State.supFlag (s : State) (p : Nat) (m : Word) : State :=
  s.modSup p (fun x => { x with flags := x.flags ||| m })

/-- A word with bit k + lo set for each k < 4 that passes a test. -/
def nibble (lo : Nat) (p : Nat → Bool) : Word :=
  at32 (nsum ((List.range 4).map (fun k => b2n (p k) * 2 ^ k))) lo

/-- SUP_PSTAT (Table 13.10). -/
def State.pstat (s : State) (p : Nat) : Word :=
  let x := (s.spAt p).sup
  let m (k : Nat) : Mon := x.mon.getD k Mon.init
  bitAt x.tripped 31 ||| bitAt x.held 30 ||| nibble 26 (fun k => !s.monSettled p k) |||
  nibble 22 (fun k => (m k).viol) ||| nibble 18 (fun k => (m k).latch) |||
  bitAt (x.flt && dFlt (s.descOf p)) 17 ||| bitAt x.leadBad 16 |||
  bitAt (64 ≤ x.froV || 64 ≤ x.froI) 15 ||| bitAt x.resid 14 ||| bitAt x.checking 13

/-- GFLTn of a group is driven low (R172). -/
def State.gflt (s : State) (g : Nat) : Bool :=
  (s.grpAt g).ctxReset || (List.range 8).any (fun k =>
    let p := 8 * g + k
    let x := (s.spAt p).sup
    x.tripped || (x.flt && dFlt (s.descOf p) && (s.figsOn p).any (fun f => (s.figAt f).enabled)))

/-! ## Limits in force (R381) -/

/-- The limits of a figure: V high and low in µV, source and sink in µA. -/
structure Limits where
  vHi : Int
  vLo : Int
  iSrc : Int
  iSnk : Int

/-- A compliance field as uint32. -/
def asUnsigned (x : Int) : Int := x % 2 ^ 32

/-- The limits in force, narrowed by a running point (R381, Table 14.4). -/
def State.limits (s : State) (f : Nat) : Limits :=
  let x := s.figAt f
  let own : Limits :=
    { vHi := s.castI 0x402 f, vLo := s.castI 0x403 f, iSrc := s.castN 0x404 f, iSnk := s.castN 0x405 f }
  match x.compA, x.compB with
  | some a, some b =>
    if isVolt x.mode then
      { own with iSrc := min own.iSrc (asUnsigned a), iSnk := min own.iSnk (asUnsigned b) }
    else if x.mode ≤ 2 then { own with vHi := min own.vHi a, vLo := max own.vLo b }
    else
      { own with
        iSrc := min own.iSrc (asUnsigned a)
        iSnk := min own.iSnk (asUnsigned a)
        vLo := max own.vLo b }
  | _, _ => own

/-! ## Window monitors (R351 to R358) -/

/-- A monitor watches the IS pair. -/
def onCurrent (ctrl : Word) : Bool := bits ctrl 2 0 == 2 || bits ctrl 2 0 == 4

/-- The threshold code of a physical threshold and full scale, and whether it was clipped (R353). -/
def thrCode (t full : Frac) : Int × Bool :=
  let c := ((t.div full).mul ⟨8192, 1⟩).round
  (clamp (-8191) 8191 c, decide (c ≠ clamp (-8191) 8191 c))

/-- Upper and lower threshold codes of monitor k of a port, and whether one was clipped. -/
def State.thresholds (s : State) (p k : Nat) : Int × Int × Bool :=
  match s.serves p with
  | none => (0, 0, false)
  | some f =>
    let d := s.descOf p
    let src := bits (s.cast (0x428 + 4 * k) f) 2 0
    let l := s.limits f
    let n := (s.gangOf p).length
    let fullV := (⟨12, 1⟩ : Frac).mul (dScale d)
    let fullI := ampsFull d (s.spAt p).force.rng
    let pct : Frac := ⟨s.castN 0x160 0, 1000⟩
    let mk (hi lo full : Frac) : Int × Int × Bool :=
      let h := thrCode hi full
      let o := thrCode lo full
      (h.1, o.1, h.2 || o.2)
    let part (x : Int) : Frac := ⟨x, 1000000 * n⟩
    if src = 1 then mk (micro (s.castI (0x429 + 4 * k) f)) (micro (s.castI (0x42A + 4 * k) f)) fullV
    else if src = 2 then mk (part (s.castI (0x429 + 4 * k) f)) (part (s.castI (0x42A + 4 * k) f)) fullI
    else if src = 3 then
      let m := pct.mul fullV
      mk ((micro l.vHi).add m) ((micro l.vLo).add m.neg) fullV
    else
      let m := pct.mul fullI
      mk ((part l.iSrc).add m) ((part (-l.iSnk)).add m.neg) fullI

/-- One sample of a comparator against threshold θ with half a hysteresis (R354, R356); fresh says
that the monitor has just gone on. -/
def Cmp.sample (c : Cmp) (x : Frac) (theta : Int) (half : Frac) (fresh : Bool) : Cmp :=
  let hi := (Frac.ofInt theta).add half
  let lo := (Frac.ofInt theta).add half.neg
  let aboveBand := !x.le hi
  let belowBand := !lo.le x
  if fresh then
    let above := (Frac.ofInt theta).le x
    { above := above, settled := false
      outside := b2n (if above then aboveBand else belowBand) }
  else
    let above := if c.above then !belowBand else aboveBand
    let moved := above != c.above
    let out := if (if c.above then aboveBand else belowBand) then c.outside + 1 else 0
    { above := above, settled := c.settled || moved || 16 ≤ out, outside := out }

/-- One sample of a monitor with its control word and thresholds. -/
def Mon.sample (m : Mon) (ctrl : Word) (hi lo : Int) (x : Frac) : Mon :=
  let half : Frac := ⟨bits ctrl 23 16 * 8192, 10000⟩
  let up := m.upper.sample x hi half (!m.on)
  let dn := m.lower.sample x lo half (!m.on)
  let out := up.above || !dn.above
  let viol := if ctrl.getLsbD 5 then !out else out
  let run := if viol && up.settled && dn.settled then m.run + 1 else 0
  { m with on := true, upper := up, lower := dn, viol := viol, run := run }

/-- A monitor that is off; its latch stands. -/
def Mon.idle (m : Mon) : Mon := { Mon.init with latch := m.latch }

/-- Sample monitor k of a port: v and i are the VS and IS pair in nV. -/
def State.monSample (s : State) (p k : Nat) (v i : Int) : State :=
  let m := (s.spAt p).sup.mon.getD k Mon.init
  let ctrl := s.monCtrl p k
  let put (n : Mon) (t : State) : State := t.modSup p (fun x =>
    { x with mon := lset (x.mon ++ List.replicate (4 - x.mon.length) Mon.init) k n })
  if bits ctrl 2 0 = 0 then put m.idle s
  else if onCurrent ctrl && 0 < m.mask then put { m with mask := m.mask - 1 } s
  else
    let t := s.thresholds p k
    let d := s.descOf p
    let x : Frac := if onCurrent ctrl then
        ⟨i * 8192, spanNv (dSpan d (s.spAt p).force.rng)⟩
      else ⟨v * 8192, 12000000000⟩
    let s1 := put { m.sample ctrl t.1 t.2.1 x with mask := 0 } s
    if t.2.2 then s1.supFlag p 0x100#32 else s1

/-- MONITOR_SAMPLE (R351, R354, R356, R358). -/
def execMonitorSample (port : Nat) (v i : Int) (s : State) : Host.Outcome State Fault Refusal :=
  finish s
    (if s.hasPort port && s.grpRuns (port / 8) then
      (List.range 4).foldl (fun t k => t.monSample port k v i) s
    else s)

/-! ## Trips (R360 to R363, R372) -/

/-- A port can trip (R355, R285). -/
def tripLive (o : OutState) : Bool :=
  o == .armed || o == .ramp || o == .regulating || o == .rampDown || o == .park

/-- OUT code (Table 11.1). -/
def outCode (o : OutState) : Nat :=
  match o with
  | .off => 0
  | .armed => 1
  | .ramp => 2
  | .regulating => 3
  | .rampDown => 4
  | .park => 5
  | .tripped => 6
  | .standby => 7

/-- Cause bits that lie with the stage (R360). -/
def stageCause (cause : Word) : Bool := cause &&& 0x3F0#32 != 0#32

/-- The figure a record of a port names; 0xFFF where none runs on it. -/
def State.recordFig (s : State) (p : Nat) : Nat :=
  match s.serves p with
  | some f => f
  | none => (s.figsOn p).headD 0xFFF

/-- The stage temperature as a record gives it, in 0.1 °C. -/
def tenths (t : Option Int) : Int :=
  match t with
  | none => -32768
  | some x => rdiv (10 * x) 16

/-- The record of a trip or hold on a port (Table 13.5). -/
def State.tripRecord (s : State) (p : Nat) (cause : Word) (mtCause : DWord) (detail : Nat)
    (members : List Nat) : TripRec :=
  let x := s.spAt p
  let m (k : Nat) : Mon := x.sup.mon.getD k Mon.init
  let f := s.recordFig p
  let snap := (s.cast 0x441 p).getLsbD 31
  { fig := f
    port := p
    range := BitVec.ofNat 8 (x.force.rng + 8 * x.force.vspan)
    cause := cause
    mtTrip := s.mt.mt
    seq := s.misc.tripSeq
    out := outCode x.force.out
    gov := x.loop.gov
    mon := BitVec.ofNat 8 (nsum ((List.range 4).map (fun k =>
      b2n (m k).viol * 2 ^ k + b2n (m k).latch * 2 ^ (k + 4))))
    detail := BitVec.ofNat 8 (detail + 16 * b2n x.force.win.isSome)
    code := x.force.outCode
    vWord := w32 x.meas.wV
    iWord := w32 x.meas.wI
    resV := x.sup.resV
    resI := x.sup.resI
    members := BitVec.ofNat 8 (nsum (members.map (fun q => 2 ^ (q % 8))))
    auxf := if snap then 0#8 else 4#8
    point := match (s.figAt f).flight with
      | some q => q.index
      | none => 0xFFFF
    stageTemp := tenths x.temp
    dieTemp := s.rst.dieTemp.headD 0
    mtCause := mtCause
    aux := [] }

/-- Post a record in its group's buffer (R24, R25). -/
def State.postRecord (s : State) (r : TripRec) : State :=
  let g := r.port / 8
  let s := { s with misc := { s.misc with tripSeq := s.misc.tripSeq + 1#32 } }
  let full := decide (8 ≤ (s.grpAt g).trips.length)
  let t := s.modGrp g (fun x =>
    if full then { x with ovf := bump x.ovf }
    else { x with trips := x.trips ++ [r], intPend := x.intPend || r.auxf != 0#8 })
  if full then
    t.log { code := 0x4306, source := 0x2000 + g, d0 := (t.grpAt g).ovf.zeroExtend 32 }
  else t

/-- A tripped port with EN = 1 asks for its snapshot (R237). The one of the record's port completes the
record; no record waits for another's. -/
def State.snapAsk (s : State) (r : TripRec) (p : Nat) : State :=
  let a := s.cast 0x441 p
  if !a.getLsbD 31 then s
  else s.urgAsk (p / 8)
    { cls := 0, port := p, auxsel := bits a 19 16, span := bits a 21 20, settle := bits a 15 0, avg := 0
      owner := if p = r.port then r.seq.toNat else 2 ^ 32 + p, clk := s.clk, conv := Conv.init }

/-- The trip actions of one port at t_a (Table 13.4 step 1), with its cause set. -/
def State.tripActions (s : State) (p : Nat) (cause : Word) (seq : Word) (fig : Nat) : State :=
  let safe := s.safeCode p
  let t := s.modForce p (fun x =>
    { x with
      out := .tripped
      inCode := safe
      outCode := safe
      en := false
      win := none
      down := none
      downPend := none
      spanPend := none
      release := []
      enableDue := none
      leaveDue := none
      leave := none
      seq := 0 })
  let t := t.modLoop p (fun x => { x with closing := none })
  let t := t.modSup p (fun x =>
    { x with
      tripped := true
      held := false
      checking := false
      force := false
      clearDue := false
      cause := cause
      flags := x.flags ||| 1#32
      tripCnt := bump x.tripCnt
      snapRun := some (seq, s.mt.mt, fig, 64)
      tripSeq := seq
      tripClk := s.clk })
  t.raisePort p 0

/-- A figure may migrate from a stage that faulted (R201); while the management plane restarts the
migration waits for it (R32). -/
def State.mayMigrate (s : State) (f : Nat) : Bool :=
  s.castN 0x411 f == 1 && s.castN 0x40B f == 0xFFFF && s.pfe.hu == .normal

/-- A figure's point is cut by a trip it may migrate from (Table 8.5): it fails with cause 7, and with
fig.mig_repeat = 1 it is to run again once the figure has migrated. -/
def State.pointMigrates (s : State) (f : Nat) (flags : BitVec 16) : State :=
  let x := s.figAt f
  let again := x.flight.isSome && s.castN 0x412 f == 1
  let t := s.ptFinal f 5 7 flags
  t.modFig f (fun y =>
    { y with
      again := again
      compA := none
      compB := none
      run := if listRuns y then .waiting else y.run })

/-- What a trip does to a figure of the tripped stage: its aperture, list, injection and captures are
cut; it migrates later when R201 allows, else it stays tripped. A trip that a group context reset makes
cuts as that reset does (Tables 10.4, 14.11). -/
def State.tripFigure (s : State) (f : Nat) (cause seq : Word) : State :=
  let flags := s.cutFlags f
  let reset := cause.getLsbD 15
  let t := (((s.apCut f (if reset then 5 else 4)).tuneCut f).captureCut f)
  let go := stageCause cause && s.mayMigrate f && (s.figAt f).enabled
  let t := if go then t.pointMigrates f flags
    else if reset then t.listCut f 5 (flags ||| 0x10#16) .idle
    else t.listCut f (if stageCause cause then 7 else 4) flags .idle
  let t := t.modFig f (fun x =>
    { x with enabled := false, migrating := if go then some (seq, cause) else none })
  let t := t.modPlace f (fun x =>
    { x with
      state := if go then .migrating else .tripped
      cause := if stageCause cause && !go then 12 else 0
      placeSeq := x.placeSeq + 1#32 })
  let t := if stageCause cause && !go then t.raiseFig f 15 else t
  (List.range t.groups).foldl (fun t g => t.auxFigCut g f) t

/-- GANG, the cause of the other members (R363). -/
def gangBit : Word := 0x20000#32

/-- Causes that arise on a port already tripped (R363): in the same slice tick they join its trip, later
they are added to SUP_CAUSE. -/
def State.addCause (s : State) (p : Nat) (cause : Word) : State :=
  let x := (s.spAt p).sup
  let t := s.modSup p (fun x => { x with cause := x.cause ||| cause })
  let same (r : TripRec) : Bool :=
    r.seq == x.tripSeq && r.port == p && s.clk / 50 == x.tripClk / 50
  if (s.grpAt (p / 8)).trips.any same then
    t.modGrp (p / 8) (fun g => { g with trips := g.trips.map (fun r =>
      if same r then { r with cause := r.cause ||| cause } else r) })
  else t.raisePort p 1

/-- Trip a port with a cause set (R360 to R363): every member of its gang performs the trip actions,
one record is posted, the figures of the stage are cut, the standby is told. A standby module trips
nothing (R359). -/
def State.trip (s : State) (p : Nat) (cause : Word) (mtCause : DWord) (detail : Nat) : State :=
  if s.aside then s
  else if (s.spAt p).sup.tripped then s.addCause p cause
  else if !tripLive (s.spAt p).force.out then s
  else
    let g := (s.gangOf p).filter (fun q => q == p || tripLive (s.spAt q).force.out)
    let rec_ := s.tripRecord p cause mtCause detail g
    let figs := s.figsOn p
    let t := g.foldl (fun t q => t.snapAsk rec_ q) (s.postRecord rec_)
    let t := g.foldl (fun t q =>
      t.tripActions q (if q = p then cause else gangBit) rec_.seq rec_.fig) t
    let t := t.raiseGrp (p / 8) 3
    let t := figs.foldl (fun t f => t.tripFigure f cause rec_.seq) t
    let t := g.foldl (fun t q => t.modSp q (fun x => { x with slotFig := none })) t
    let t := g.foldl (fun t q =>
      match (s.spAt q).sup.releaseCmd with
      | none => t
      | some (mbx, tag) =>
        (t.modSup q (fun x => { x with releaseCmd := none })).complete
          (fun o => o.opcode == 0x0D05 && o.mbx == mbx && o.tag == tag) { status := stNotReady }) t
    t.tell 5

/-! ## The fault policy (R371, R636) -/

/-- The point in flight as a hold begins (R636). -/
def State.pointHeld (s : State) (f : Nat) : State :=
  let x := s.figAt f
  match x.flight with
  | none => s.apCut f 7
  | some q =>
    if q.state = .settling ∨ q.state = .aperture then
      let flags := s.cutFlags f
      let t := (s.apCut f 7).ptFinal f 5 8 flags
      if ptBrk q.entry then
        (((t.ptNotRun f 12).listReport f 5 12).swpFlag f 0x40#32).modFig f (fun y =>
          { y with endedInHold := true })
      else t
    else
      (s.apCut f 7).modFig f (fun y =>
        { y with flight := none, next := if q.state = .placed then y.next - 1 else y.next })

/-- Hold the command of a figure's stages at the code it had a number of periods ago (R371). -/
def State.holdPort (s : State) (p : Nat) (cause : Word) (mtCause : DWord) (detail ago : Nat) : State :=
  let g := s.gangOf p
  let rec_ := { s.tripRecord p cause mtCause (detail + 32) g with auxf := 4#8 }
  let t := s.postRecord rec_
  let t := g.foldl (fun t q =>
    let x := t.spAt q
    let code := x.sup.codes.getD ago (x.sup.codes.getLast?.getD x.force.outCode)
    let t := t.modSup q (fun y =>
      { y with held := true, heldCode := code, flags := y.flags ||| 0x40#32 })
    (t.modForce q (fun y => { y with inCode := code })).raisePort q 6) t
  let t := match s.serves p with
    | none => t
    | some f =>
      let u := t.pointHeld f
      if listRuns (t.figAt f) then u.setRun f .held else u
  t.tell 5

/-- A frozen, lead or residual fault of a port (R371): trip or hold as fig.fb_policy gives. Without closed
loops there is no command to hold, and the port trips (log entry 136). -/
def State.fault (s : State) (p : Nat) (cause : Word) (mtCause : DWord) (detail ago : Nat) : State :=
  let hold := match s.serves p with
    | some f => s.castN 0x425 f == 1
    | none => false
  if hold && loopsClosed (s.spAt p) && !s.aside then
    s.holdPort p cause mtCause detail ago
  else s.trip p cause mtCause detail

/-! ## Rows -/

/-- MONITOR_QUALIFY (R355). A violation that stands trips a port that comes to a state of R355 under it, its
latch being set already (log entry 135). -/
def execMonitorQualify (port m : Nat) (s : State) : Host.Outcome State Fault Refusal :=
  let x := (s.spAt port).sup
  let n := x.mon.getD m Mon.init
  let ctrl := s.monCtrl port m
  let qn := bits ctrl 27 24 + 1
  let trips := ctrl.getLsbD 7 && tripLive (s.spAt port).force.out
  finish s
    (if s.hasPort port && s.grpRuns (port / 8) && m < 4 && bits ctrl 2 0 != 0 && qn ≤ n.run then
      let t := if !n.latch || n.run == qn then
          (s.modSup port (fun y =>
            { y with mon := lset y.mon m { n with latch := true }, flags := y.flags ||| 2#32 })).raisePort
            port (2 + m)
        else s
      if trips then t.trip port (bitAt true m) (s.mtBefore (n.run - 1)) 0 else t
    else s)

/-- STAGE_FAULT (R166): low on two samples. With FLT_PRESENT = 0 the land's level stands for nothing
(R167). -/
def execStageFault (port : Nat) (s : State) : Host.Outcome State Fault Refusal :=
  finish s
    (if s.hasPort port && s.rst.ctrlUp then
      let t := s.modSup port (fun x => { x with flt := true })
      if dFlt (s.descOf port) then t.trip port (bitAt true 4) (s.mtBefore 1) 0 else t
    else s)

/-- STG_FLT_RELEASE (R166, R172). -/
def execStgFltRelease (port : Nat) (s : State) : Host.Outcome State Fault Refusal :=
  finish s
    (if s.hasPort port && s.rst.ctrlUp then s.modSup port (fun x => { x with flt := false })
    else s)

/-- EXT_TRIP (R365): an event that reached spNNN.ext_trip. -/
def execExtTrip (port : Nat) (s : State) : Host.Outcome State Fault Refusal :=
  finish s
    (if s.fab.arrived.contains port && s.hasPort port then
      let t := { s with fab := { s.fab with arrived := dropFirst (· == port) s.fab.arrived } }
      if s.castN 0x445 port = 1 then t.trip port (bitAt true 12) s.mt.mt 0 else t
    else s)

/-- OVERRUN_TRIP (R343). -/
def execOverrunTrip (port : Nat) (s : State) : Host.Outcome State Fault Refusal :=
  finish s
    (if 3 ≤ (s.spAt port).loop.ovrRun && s.grpRuns (port / 8) && !s.aside &&
        tripLive (s.spAt port).force.out then
      (s.modLoop port (fun x => { x with flags := x.flags ||| 0x40#32, ovrRun := 0 })).trip port
        (bitAt true 11) (s.grpAt (port / 8)).tickMt 0
    else s)

/-- SHORT_CIRCUIT_TRIP (R293). -/
def execShortCircuitTrip (port : Nat) (s : State) : Host.Outcome State Fault Refusal :=
  let x := (s.spAt port).force
  finish s
    (if s.ticksUs (port / 8) (s.castN 0x442 port) ≤ x.scRun && 0 < x.scRun &&
        s.grpRuns (port / 8) && !s.aside && tripLive x.out then
      (s.frFlag port 2#32).trip port (bitAt true 5) (s.grpAt (port / 8)).tickMt 0
    else s)

/-- Comb samples in one loop period of a group. -/
def State.combPer (s : State) (g : Nat) : Nat := s.periodNs g / 250

/-- FROZEN_FAULT (R369): 64 equal codes of the V or the I slice. -/
def execFrozenFault (port : Nat) (s : State) : Host.Outcome State Fault Refusal :=
  let x := (s.spAt port).sup
  let v := decide (64 ≤ x.froV)
  let i := decide (64 ≤ x.froI)
  finish s
    (if (v || i) && s.grpRuns (port / 8) && !x.tripped && !x.held &&
        tripLive (s.spAt port).force.out && (s.spAt port).force.out != .park then
      (s.supFlag port 0x10#32).fault port (bitAt true 6) (s.mtBefore 63) (b2n v + 2 * b2n i)
        (cdiv 63 (s.combPer (port / 8)))
    else s)

/-- UNSETTLED (R357): 4 ms after step 2 fell due. -/
def execUnsettled (port : Nat) (s : State) : Host.Outcome State Fault Refusal :=
  let x := (s.spAt port).force
  finish s
    (if x.out == .armed && !x.en && s.grpRuns (port / 8) && !s.allSettled port &&
        s.makeTicks port + s.ticksUs (port / 8) 4000 ≤ x.seq then
      (s.supFlag port 0x80#32).trip port (bitAt true 18) s.mt.mt 0
    else s)

/-! ## Sense-lead checks (R370) -/

/-- A window in which a check can run on an enabled port. -/
def State.idleWindow (s : State) (p : Nat) : Bool :=
  let x := s.spAt p
  x.force.out == .regulating && x.force.down.isNone && x.force.win.isNone && !x.loop.ls.getLsbD 24 &&
    ((s.grpAt (p / 8)).tune.map (fun t => t.port)) != some p &&
    (match s.serves p with
     | some f => (s.figAt f).apOpen.isNone && (s.figAt f).apWait.isNone
     | none => false)

/-- Loop ticks in a number of ms. -/
def State.ticksMs (s : State) (g ms : Nat) : Nat := s.ticksUs g (1000 * ms)

/-- A check of a port is due: by time, by command, or for the release of a hold. -/
def State.leadIsDue (s : State) (p : Nat) : Bool :=
  let x := (s.spAt p).sup
  let ms := s.castN 0x161 0
  x.leadCmd.isSome || x.releaseCmd.isSome || (ms != 0 && s.ticksMs (p / 8) ms ≤ x.leadTicks)

/-- The tick allows a due check of a port now. -/
def State.leadCanRun (s : State) (p : Nat) : Bool :=
  let x := s.spAt p
  if x.sup.held then x.sup.releaseCmd.isSome
  else if x.force.out = .off then x.sup.leadCmd.isSome
  else s.idleWindow p

/-- LEAD_CHECK_START (R370): each group serves one port at a time, in port order. A standby runs none
(R359). -/
def execLeadCheckStart (port : Nat) (s : State) : Host.Outcome State Fault Refusal :=
  let g := port / 8
  finish s
    (if s.hasPort port && s.grpRuns g && !s.aside && s.leadIsDue port &&
        s.leadCanRun port &&
        (List.range 8).all (fun k => !(s.spAt (8 * g + k)).sup.checking &&
          (port ≤ 8 * g + k || !(s.leadIsDue (8 * g + k) && s.leadCanRun (8 * g + k)))) then
      (s.modSup port (fun x => { x with checking := true })).thaw port
    else s)

/-- The hold of a figure ends by SUP_HOLD_RELEASE (R371, R636): the loops close at the held code. -/
def State.releaseHold (s : State) (p : Nat) : State :=
  let t := (s.gangOf p).foldl (fun t q =>
    (t.modSup q (fun x => { x with held := false })).closeLoops q (s.spAt q).sup.heldCode) s
  let t := match s.serves p with
    | none => t
    | some f =>
      let x := s.figAt f
      if x.run != RunState.held then t
      else if x.endedInHold then
        t.modFig f (fun y => { y with run := .ended, endedInHold := false, stop := none })
      else t.modFig f (fun y => { y with run := .waiting, readyMt := s.mt.mt })
  t.tell 5

/-- Codes of a lead result. -/
abbrev leadPass : Nat := 0
abbrev leadFail : Nat := 1
abbrev leadUntested : Nat := 2
abbrev leadVoid : Nat := 3

/-- Four times Δ of a pair in µV: the mean of the last four samples of the injection less that of the four
before it (R370). -/
def leadDelta4 (x : LeadIn) : Int :=
  (x.last.take 4).foldl (· + ·) 0 - (x.before.take 4).foldl (· + ·) 0

/-- Δ of a pair to the nearest µV. -/
def leadDelta (x : LeadIn) : Int := rdiv (leadDelta4 x) 4

/-- Judge one pair: Δ against sup.lead_mv. -/
def State.leadJudge (s : State) (x : LeadIn) : Nat :=
  if (leadDelta4 x).natAbs ≤ s.castN 0x162 0 * 4000 then leadPass else leadFail

/-- LEAD_CHECK_END (R370): vs and is are the samples of the two pairs. -/
def execLeadCheckEnd (port : Nat) (vs is : LeadIn) (rail : Bool) (s : State) :
    Host.Outcome State Fault Refusal :=
  let x := (s.spAt port).sup
  finish s
    (if !x.checking || !s.grpRuns (port / 8) then s
    else
      let tested := s.leadCurrent port
      let rv := if rail then leadVoid else s.leadJudge vs
      let ri := if rail then leadVoid else if tested then s.leadJudge is else leadUntested
      let most := max (leadDelta vs).natAbs (if tested then (leadDelta is).natAbs else 0)
      let lead := at32 (min 65535 (most / 10)) 16 ||| at32 ri 2 ||| at32 rv 0
      let t := (s.modSup port (fun y => { y with checking := false, lead := lead })).thaw port
      if rail then t.supFlag port 4#32
      else
        let bad := rv == leadFail || ri == leadFail
        let t := t.modSup port (fun y =>
          { y with leadBad := bad, leadTicks := 0, leadCmd := none, releaseCmd := none
                   flags := y.flags ||| bitAt bad 3 })
        let t := match x.leadCmd with
          | none => t
          | some (mbx, tag) => t.complete
              (fun o => o.opcode == 0x0D04 && o.mbx == mbx && o.tag == tag)
              { status := stOk
                result := leBytes 4 lead.toNat ++ leBytes 4 (w32 (leadDelta vs)).toNat ++
                  leBytes 4 (w32 (leadDelta is)).toNat }
        let good := !bad && x.froV < 64 && x.froI < 64
        let t := match x.releaseCmd with
          | none => t
          | some (mbx, tag) =>
            (if good then t.releaseHold port else t).complete
              (fun o => o.opcode == 0x0D05 && o.mbx == mbx && o.tag == tag)
              { status := if good then stOk else stNotReady }
        if bad && !x.held && tripLive (s.spAt port).force.out then
          t.fault port (bitAt true 7) s.mt.mt
            (4 * b2n (rv == leadFail) + 8 * b2n (ri == leadFail))
            (cdiv 32 (s.combPer (port / 8)))
        else t)

/-! ## Trip records (R24, R26, R372) -/

/-- The 96 bytes of a record (Table 13.5). -/
def tripBytes (r : TripRec) : List Byte :=
  leBytes 2 (r.fig % 4096 + 2 * 4096) ++ leBytes 1 r.port ++ leBytes 1 r.range.toNat ++
  leBytes 4 r.cause.toNat ++ leBytes 8 r.mtTrip.toNat ++ leBytes 4 r.seq.toNat ++ leBytes 1 r.out ++
  leBytes 1 r.gov ++ leBytes 1 r.mon.toNat ++ leBytes 1 r.detail.toNat ++
  leBytes 4 (w32 r.code).toNat ++ leBytes 4 r.vWord.toNat ++ leBytes 4 r.iWord.toNat ++
  leBytes 4 r.resV.toNat ++ leBytes 4 r.resI.toNat ++ leBytes 1 r.members.toNat ++
  leBytes 1 r.auxf.toNat ++ leBytes 2 r.point ++ leBytes 2 (BitVec.ofInt 16 r.stageTemp).toNat ++
  leBytes 2 (BitVec.ofInt 16 r.dieTemp).toNat ++ leBytes 4 0 ++ leBytes 8 r.mtCause.toNat ++
  padTo 32 (r.aux.flatMap (fun w => leBytes 8 w.toNat))

/-- Move a record to its figure's error stream and to the global error ring. -/
def State.moveRecord (s : State) (r : TripRec) : State :=
  let hold := r.detail.getLsbD 5
  let t := if r.fig < 4096 && s.defined r.fig then s.produceRecord r.fig 2 r.seq (tripBytes r) else s
  t.log
    { code := if hold then 0x8302 else 0x8301
      source := 0x1000 + r.port
      arg := r.out
      d0 := r.cause
      d1 := r.seq
      d2 := BitVec.ofNat 32 r.fig }

/-- TRIP_RECORD_MOVE (R372): the oldest complete record of a group. While the data plane or the
management plane is under reset the records wait and the interrupt stays pending; both are delivered when
the reset ends (R26). -/
def execTripRecordMove (grp : Nat) (s : State) : Host.Outcome State Fault Refusal :=
  finish s
    (match (s.grpAt grp).trips.find? (fun r => r.auxf != 0#8), s.rst.dataUp && s.rst.mgmtUp with
     | some r, true =>
       let left := dropFirst (fun (x : TripRec) => x.auxf != 0#8) (s.grpAt grp).trips
       (s.modGrp grp (fun x =>
         { x with
           trips := left
           intPend := x.intPend && left.any (fun r => r.auxf != 0#8) })).moveRecord r
     | _, _ => s)

/-! ## Commands (R364, R374, R584) -/

/-- Checks of a command that names one stage port at an offset of its request. -/
def State.portBad (s : State) (port : Nat) : Option (Nat × Nat) :=
  if 128 ≤ port then some (stRange, 0x20)
  else if !s.hasPort port then some (stAbsent, port) else none

/-- Clear the latches of a port's monitors that a mask names (R355). -/
def State.clearLatches (s : State) (port mask : Nat) : State :=
  let clear (l : List Mon) : List Mon := (List.range l.length).map (fun k =>
    let m := l.getD k Mon.init
    if mask.testBit k then { m with latch := false } else m)
  (s.modSup port (fun x => { x with mon := clear x.mon })).tell 5

/-- SUP_MON_CLEAR (R17, R355, R374): the latches clear at the next loop tick. -/
def execSupMonClear (r : Req) (port mask : Nat) (s : State) : Host.Outcome State Fault Refusal :=
  umser r 0x0D01 {} s fun s =>
    match s.portBad port with
    | some (st, d) => s.refuse r 0x0D01 st d
    | none =>
      if 16 ≤ mask then s.refuse r 0x0D01 stRange 0x21
      else
        (s.modSup port (fun x => { x with monDue := x.monDue ||| mask })).ok r 0x0D01 [] []

/-- The first condition of R364 that fails, as R584 numbers them. -/
def State.tripStands (s : State) (p : Nat) : Option Nat :=
  let x := s.spAt p
  let d := s.descOf p
  if dFlt d && x.sup.flt then some 1
  else if (List.range 4).any (fun k =>
      (s.monCtrl p k).getLsbD 7 && bits (s.monCtrl p k) 2 0 != 0 &&
        (x.sup.mon.getD k Mon.init).viol) then some 2
  else if (dTempAux d).isSome && (match x.temp with
      | some t => decide (di d 0x99 1 * 16 ≤ t)
      | none => false) then some 3
  else if s.rst.dieTemp.any (fun t => decide (1150 < t)) then some 4
  else none

/-- Clear the trip of a port: it goes to OFF; lines still low are released (Table 11.2). -/
def State.clearTrip (s : State) (p : Nat) : State :=
  let t := s.modSup p (fun x => { x with tripped := false, clearDue := false })
  t.modForce p (fun x =>
    { x with
      out := if x.out == .tripped then .off else x.out
      driven := false
      release := s.releaseOrder p })

/-- SUP_TRIP_CLEAR (R17, R364, R584): the trip clears at the next loop tick. -/
def execSupTripClear (r : Req) (port : Nat) (s : State) : Host.Outcome State Fault Refusal :=
  umser r 0x0D02 { standbyOk := false } s fun s =>
    match s.portBad port with
    | some (st, d) => s.refuse r 0x0D02 st d
    | none =>
      if !(s.spAt port).sup.tripped then s.ok r 0x0D02 [] []
      else match s.tripStands port with
        | some n => s.refuse r 0x0D02 stNotReady n
        | none => (s.modSup port (fun x => { x with clearDue := true })).ok r 0x0D02 [] []

/-- SUP_TRIP_FORCE (R374): the trip falls on the next loop tick. -/
def execSupTripForce (r : Req) (port : Nat) (s : State) : Host.Outcome State Fault Refusal :=
  umser r 0x0D03 { standbyOk := false } s fun s =>
    match s.portBad port with
    | some (st, d) => s.refuse r 0x0D03 st d
    | none =>
      if !tripLive (s.spAt port).force.out then s.refuse r 0x0D03 stNotReady
      else (s.modSup port (fun x => { x with force := true })).ok r 0x0D03 [] []

/-- SUP_LEAD_CHECK (R370, R584). -/
def execSupLeadCheck (r : Req) (port : Nat) (s : State) : Host.Outcome State Fault Refusal :=
  umser r 0x0D04 { long := true, standbyOk := false } s fun s =>
    match s.portBad port with
    | some (st, d) => s.refuse r 0x0D04 st d
    | none =>
      let x := (s.spAt port).sup
      if x.leadCmd.isSome || x.checking then s.refuse r 0x0D04 stBusy
      else (s.defer r 0x0D04 port 0 0).modSup port (fun y => { y with leadCmd := some (r.mbx, r.tag) })

/-- SUP_HOLD_RELEASE (R371): it waits for the sense-lead check run at once. -/
def execSupHoldRelease (r : Req) (port : Nat) (s : State) : Host.Outcome State Fault Refusal :=
  umser r 0x0D05 { standbyOk := false } s fun s =>
    match s.portBad port with
    | some (st, d) => s.refuse r 0x0D05 st d
    | none =>
      let x := (s.spAt port).sup
      if !x.held || x.releaseCmd.isSome then s.refuse r 0x0D05 stNotReady
      else (s.defer r 0x0D05 port 0 0).modSup port (fun y =>
        { y with releaseCmd := some (r.mbx, r.tag) })

/-- The 24 bytes of SUP_STATUS_READ for a port; an absent one reads 0. -/
def State.supRecord (s : State) (p : Nat) : List Byte :=
  if !s.hasPort p then List.replicate 24 0#8
  else
    let x := (s.spAt p).sup
    leBytes 4 (s.pstat p).toNat ++ leBytes 4 x.cause.toNat ++ leBytes 4 x.flags.toNat ++
    leBytes 4 x.resV.toNat ++ leBytes 4 x.resI.toNat ++ leBytes 4 x.lead.toNat

/-- SUP_STATUS_READ (R374, R568). -/
def execSupStatusRead (r : Req) (first count : Nat) (s : State) : Host.Outcome State Fault Refusal :=
  umser r 0x0D06 {} s fun s =>
    if 128 ≤ first then s.refuse r 0x0D06 stRange 0x20
    else if count = 0 ∨ 128 < first + count then s.refuse r 0x0D06 stRange 0x21
    else s.ok r 0x0D06 [] ((List.range count).flatMap (fun i => s.supRecord (first + i)))

end Sys2Proof.Machine
end

