-- ==== Sys2Proof/Machine/Comp.lean ====
section
/-! DEFINITION. Compensators, feed-forward, injection waveforms and the static schedule of the loop
engine (chapter 12), as functions of plain values. -/

namespace Sys2Proof.Machine

/-! ## Coefficient blocks (Table 12.5) -/

def cfLoop (b : BitVec 640) : Nat := bits b 7 0
def cfEn (b : BitVec 640) (k : Nat) : Bool := b.getLsbD (8 + k)
def cfKs (b : BitVec 640) : Nat := bits b 20 16
def cfBq (b : BitVec 640) (k i : Nat) : Int := sbits b (32 + 160 * k + 32 * i) 32
def cfKp (b : BitVec 640) : Int := sbits b 352 32
def cfKi (b : BitVec 640) : Int := sbits b 384 32
def cfGs (b : BitVec 640) (r : Nat) : Int := sbits b (416 + 32 * r) 32

/-- What LOOP_COEF_WRITE checks (R329): the offset of the first bad field. -/
def coefBad (b : BitVec 640) : Option Nat :=
  ([(0, cfLoop b ≤ 3), (1, bits b 15 11 == 0), (2, bits b 23 16 ≤ 31), (3, bits b 31 24 == 0),
    (0x4C, bits b 639 608 == 0)] : List (Nat × Bool)).find? (fun t => !t.2) |>.map (fun t => t.1)

/-- The block of a figure's loop in a set. -/
def coefOf (c : CfgSet) (f loop : Nat) : Option (BitVec 640) := tget? c.coefs (4 * f + loop)

/-! ## The compensator (R326, R327) -/

/-- A 48-bit state or sum. -/
def sat48 (x : Int) : Int := clamp (-140737488355328) 140737488355327 x

/-- One step of a biquad section. -/
def Biquad.step (q : Biquad) (b : BitVec 640) (k : Nat) (x : Int) : Int × Biquad :=
  if cfEn b k then
    let y := sat48 ((cfBq b k 0 * x + cfBq b k 1 * q.x1 + cfBq b k 2 * q.x2 -
      cfBq b k 3 * q.y1 - cfBq b k 4 * q.y2) / 2 ^ 28)
    (y, { x1 := x, x2 := q.x1, y1 := y, y2 := q.y1 })
  else (x, q)

/-- What one evaluation of a compensator gives before it integrates. -/
structure CompOut where
  /-- Proportional part and output. -/
  p : Int
  u : Int
  /-- What integration would add. -/
  inc : Int
  comp : Comp

/-- Evaluate a compensator on an error word with a gain-schedule entry; shift is 16, or 28 for the
demand of a gang's V loop (R326, R338). -/
def Comp.eval (c : Comp) (b : BitVec 640) (gs e : Int) (shift : Nat) : CompOut :=
  let x := sat48 (gs * sat32 e / 4096)
  let r1 := c.bq1.step b 0 x
  let r2 := c.bq2.step b 1 r1.1
  let p := sat48 (cfKp b * r2.1 / 2 ^ (shift + cfKs b))
  let u := sat48 (p + c.integ)
  let inc := if cfEn b 2 then cfKi b * r2.1 / 2 ^ (shift + cfKs b) else 0
  { p := p, u := u, inc := inc
    comp := { c with bq1 := r1.2, bq2 := r2.2, lastU := u, lastX := e } }

/-- Set the integrator so that the output is a value; an integrator that is off stays 0. -/
def CompOut.force (o : CompOut) (b : BitVec 640) (u : Int) : CompOut :=
  if cfEn b 2 then
    let i := sat48 (u - o.p)
    { o with u := sat48 (o.p + i), comp := { o.comp with integ := i, lastU := sat48 (o.p + i) } }
  else o

/-- Integrate, when it is permitted (R335). -/
def CompOut.integrate (o : CompOut) (go : Bool) : CompOut :=
  if go then { o with comp := { o.comp with integ := sat48 (o.comp.integ + o.inc) } } else o

/-- A gain-schedule entry: the derived value where it is 0 (R327). -/
def gainOf (b : BitVec 640) (r : Nat) (derived : Frac) : Int :=
  if cfGs b r = 0 then (derived.mul ⟨2 ^ 28, 1⟩).round else cfGs b r

/-- A section that a block change enables starts at its steady state (R330). -/
def Biquad.steady (b : BitVec 640) (k : Nat) (x : Int) : Biquad :=
  let den := 2 ^ 28 + cfBq b k 3 + cfBq b k 4
  let num := cfBq b k 0 + cfBq b k 1 + cfBq b k 2
  let y := if den = 0 then x else sat48 (x * num / den)
  { x1 := x, x2 := x, y1 := y, y2 := y }

/-- The bumpless change of a running loop's block (R330): the new block applied to the last error
gives the last output. -/
def Comp.rebase (c : Comp) (old new : BitVec 640) (gs : Int) (shift : Nat) : Comp :=
  let x := sat48 (gs * sat32 c.lastX / 4096)
  let q1 := if cfEn new 0 && !cfEn old 0 then Biquad.steady new 0 x else c.bq1
  let y1 := (q1.step new 0 x).1
  let q2 := if cfEn new 1 && !cfEn old 1 then Biquad.steady new 1 y1 else c.bq2
  let y2 := (q2.step new 1 y1).1
  let p := sat48 (cfKp new * y2 / 2 ^ (shift + cfKs new))
  { c with bq1 := q1, bq2 := q2, integ := if cfEn new 2 then sat48 (c.lastU - p) else 0 }

/-! ## Feed-forward (R331) -/

/-- A port's table entry. -/
def ffEntry (c : CfgSet) (p h i : Nat) : Int :=
  (tget 0#16 c.ff (512 * p + 256 * h + min i 255)).toInt

/-- Index and value for a command in Q20.28. -/
def ffLookup (c : CfgSet) (p h : Nat) (u : Int) : Nat × Int :=
  let a := (clamp (-524288) 524287 (u / 2 ^ 28) + 524288).toNat
  let k := a / 4096
  let f : Nat := a % 4096
  let lo := ffEntry c p h k
  (k, lo + (ffEntry c p h (k + 1) - lo) * (f : Int) / 4096)

/-- The command whose sum with its feed-forward value is a code: n steps of substitution. -/
def ffSolve (c : CfgSet) (p h : Nat) (code : Int) : Nat → Int → Int
  | 0, u => u
  | n + 1, u => ffSolve c p h code n ((code - (ffLookup c p h u).2) * 2 ^ 28)

/-! ## Injection (R345) -/

/-- π in units of 2^-80. -/
def piScaled : Int := 3797952473636338580787993

/-- Taylor terms of the sine of x in units of 2^-80, from term t of order k on. -/
def sinTerms (x2 : Int) : Nat → Int → Nat → Int
  | 0, _, _ => 0
  | n + 1, t, k => t + sinTerms x2 n (-(t * x2 / 2 ^ 80) / (((k + 1) * (k + 2) : Nat) : Int)) (k + 2)

/-- Sine of a phase in 2^-24 cycle, in units of 2^-80. -/
def sinPhase (ph : Nat) : Int :=
  let q : Nat := ph % 2 ^ 24
  let half : Nat := q % 2 ^ 23
  let r : Nat := if half ≤ 2 ^ 22 then half else 2 ^ 23 - half
  let x := piScaled * 2 * r / 2 ^ 24
  let v := sinTerms (x * x / 2 ^ 80) 16 x 1
  if q < 2 ^ 23 then v else -v

/-- Length and tap of the PRBS of a waveform code 1-5. -/
def prbsTaps (wave : Nat) : Nat × Nat :=
  ([(7, 6), (9, 5), (11, 9), (15, 14), (23, 18)] : List (Nat × Nat)).getD (wave - 1) (7, 6)

/-- The sequence bit, and the register after one advance. -/
def prbsBit (wave sr : Nat) : Bool := sr.testBit ((prbsTaps wave).1 - 1)
def prbsNext (wave sr : Nat) : Nat :=
  let t := prbsTaps wave
  (2 * sr + b2n (sr.testBit (t.1 - 1) != sr.testBit (t.2 - 1))) % 2 ^ t.1

/-- The injection value of the present period. -/
def Tune.value (t : Tune) : Int :=
  if t.wave = 0 then rdiv (t.amp * sinPhase (t.k * t.ftw)) (2 ^ 80)
  else if prbsBit t.wave t.sr then t.amp else -t.amp

/-! ## Selectors (R322, R324) -/

/-- An output that feeds a selector: loop 0 V, 1 I, 2 X; the setpoint loop; upper or lower; its output
and the governing code it would report. -/
structure Cand where
  loop : Nat
  sp : Bool
  upper : Bool
  out : Int
  gov : Nat

/-- Setpoint loop first, then V, I, X. -/
def Cand.rank (c : Cand) : Nat := if c.sp then 0 else c.loop + 1

/-- Least and greatest output. -/
def minOut : List Cand → Option Int
  | [] => none
  | c :: t => some (match minOut t with
    | none => c.out
    | some m => min c.out m)
def maxOut : List Cand → Option Int
  | [] => none
  | c :: t => some (match maxOut t with
    | none => c.out
    | some m => max c.out m)

/-- u_sel (R322). -/
def selectOut (l : List Cand) : Int :=
  match minOut (l.filter (fun c => c.upper)), maxOut (l.filter (fun c => !c.upper)) with
  | some u, some w => max w u
  | some u, none => u
  | none, some w => w
  | none, none => 0

/-- The governing output. -/
def governing (l : List Cand) : Option Cand :=
  ((sortBy (fun a b => a.rank < b.rank) l).filter (fun c => c.out == selectOut l)).head?

/-- Where tracking moves an output that does not govern (R336); none where it stands. -/
def Cand.tracked (c : Cand) (out uSel margin : Int) : Option Int :=
  if c.upper && decide (uSel + margin < out) then some (uSel + margin)
  else if !c.upper && decide (out < uSel - margin) then some (uSel - margin)
  else none

/-! ## The static schedule (R314, R315) -/

/-- Modes a figure uses in a set: fig.mode and the MODE of every point of its list. -/
def modesOf (c : CfgSet) (f : Nat) : List Nat :=
  let m := pnat c.params 0x401 f
  m :: (List.range (pnat c.params 0x43A f)).map (fun i =>
    modeOf (tget 0#256 c.sweep (pnat c.params 0x439 f + i)) m)

/-- Compensators of a mode outside a gang. -/
def compsOf (mode : Nat) : List Nat := if mode = 3 ∨ mode = 4 then [0, 1, 2] else [0, 1]

/-- Closing and remaining slots of one mode of a figure on a member of its stage or gang. -/
def modeCost (c : CfgSet) (f n mode : Nat) (master : Bool) : Nat × Nat :=
  let ff := b2n (pnat c.params 0x423 f == 1)
  let comps := if n = 1 then (compsOf mode).length else if master then 1 else 0
  let share := b2n (1 < n)
  let fold := b2n (master && (pnat c.params 0x406 f != 0 || mode == 4))
  let res := b2n (master && mode == 3)
  (2 + comps + share + res + ff, 2 + 11 * comps + 11 * share + 2 * fold + 4)

/-- The costliest of a list of costs. -/
def dearest (l : List (Nat × Nat)) : Nat × Nat :=
  l.foldl (fun a b => if a.1 + a.2 < b.1 + b.2 then b else a) (0, 0)

/-- Cost of a port under a placement: the largest among the enabled figures it holds. -/
def portCost (c : CfgSet) (place : Tab Placement) (p : Nat) : Nat × Nat :=
  dearest ((place.filter (fun e => holds e.2 && e.2.members.contains p &&
    pnat c.params 0x400 e.1 == 1)).map (fun e =>
      dearest ((modesOf c e.1).map (fun m =>
        modeCost c e.1 e.2.members.length m (e.2.members.head? == some p)))))

/-- Closing slots and total slots of a group, reserve included. -/
def groupCost (c : CfgSet) (place : Tab Placement) (g : Nat) : Nat × Nat :=
  let l := (List.range 8).map (fun k => portCost c place (8 * g + k))
  (nsum (l.map (fun x => x.1)), nsum (l.map (fun x => x.1 + x.2)) + 16)

/-- A group's schedule fits (R315). -/
def schedFits (c : CfgSet) (place : Tab Placement) (g : Nat) : Bool :=
  let t := groupCost c place g
  t.2 ≤ rateNs (pnat c.params 0x520 g) / 5 * 4 && t.1 ≤ 80

end Sys2Proof.Machine
end

