-- ==== Sys2Proof/Machine/Sweep.lean ====
section
/-! DEFINITION. Sweeps (chapter 14): the table and generators, the runner and its points. -/

namespace Sys2Proof.Machine

/-! ## The table and generators (R380, R395, R403) -/

/-- What makes an entry unwritable (R380): the offset of the first bad field. -/
def entryBad (e : BitVec 256) : Option Nat :=
  let m := ptMode e
  let r := ptRngReq e
  let v := ptSpanReq e
  ([(0x00, ptStart e ≤ 2 && (m ≤ 5 || m == 15)),
    (0x01, (r ≤ 5 || 14 ≤ r) && (v ≤ 3 || 14 ≤ v)),
    (0x02, bits e 22 20 == 0), (0x03, bits e 31 29 == 0),
    (0x1C, !ptPulse e || ptWidth e != 0)] : List (Nat × Bool)).find? (fun t => !t.2)
    |>.map (fun t => t.1)

/-- Why a run of table entries cannot be named: the offset of FIRST or COUNT. -/
def tableRange (first count : Nat) : Option Nat :=
  if 65536 ≤ first then some 0x20
  else if count = 0 ∨ 128 < count ∨ 65536 < first + count then some 0x22 else none

/-- SWP_TABLE_WRITE (R378, R380). -/
def execSwpTableWrite (r : Req) (first : Nat) (entries : List (BitVec 256)) (s : State) :
    Host.Outcome State Fault Refusal :=
  editCommand r 0x0401 s fun s =>
    match tableRange first entries.length with
    | some d => s.refuse r 0x0401 stRange d
    | none =>
      match firstBad (fun i e => (entryBad e).map (fun o => (stRange, 32 * i + o))) 0 entries with
      | some (st, d) => s.refuse r 0x0401 st d
      | none =>
        let put (t : Tab (BitVec 256)) (i : Nat) : Tab (BitVec 256) :=
          let e := entries.getD i 0#256
          if e = 0#256 then tdel t (first + i) else tput t (first + i) e
        let t := s.modMaq (fun m =>
          { m with sweep := (List.range entries.length).foldl put m.sweep })
        t.edited.editOk r 0x0401 []

/-- SWP_TABLE_READ. -/
def execSwpTableRead (r : Req) (first count : Nat) (s : State) : Host.Outcome State Fault Refusal :=
  umser r 0x0402 {} s fun s =>
    match tableRange first count with
    | some d => s.refuse r 0x0402 stRange d
    | none => s.ok r 0x0402 [] ((List.range count).flatMap (fun i =>
        leBytes 32 (tget 0#256 (s.setOf r.set).sweep (first + i)).toNat))

def genType (b : BitVec 512) : Nat := bits b 7 0
def genInner (b : BitVec 512) : Bool := b.getLsbD 8
def genSites (b : BitVec 512) : Nat := bits b 31 16
def genStart (b : BitVec 512) : Int := sbits b 32 32
def genStop (b : BitVec 512) : Int := sbits b 64 32
def genCount (b : BitVec 512) : Nat := bits b 127 96
def genFirst (b : BitVec 512) : Nat := bits b 143 128
def genTemplate (b : BitVec 512) : BitVec 256 := b.extractLsb' 256 256

/-- What makes a generator unwritable: its form, a reserved field, or a template no entry may hold. -/
def genBad (b : BitVec 512) : Option Nat :=
  if 3 < genType b then some 0
  else if bits b 15 9 != 0 then some 1
  else if bits b 255 144 != 0 then some 0x12
  else if genType b = 0 then none
  else
    let t := genTemplate b
    let e := if genType b = 3 then t ||| 0x40#256 else t
    (entryBad e).map (fun o => 0x20 + o)

/-- SWP_GEN_WRITE (R395). -/
def execSwpGenWrite (r : Req) (fig : Nat) (block : BitVec 512) (s : State) :
    Host.Outcome State Fault Refusal :=
  editCommand r 0x0403 s fun s =>
    if !s.sets.maq.figs.contains fig then s.refuse r 0x0403 stRange 0x20
    else match genBad block with
      | some d => s.refuse r 0x0403 stRange d
      | none =>
        let t := s.modMaq (fun m =>
          { m with gens := if genType block = 0 then tdel m.gens fig else tput m.gens fig block })
        t.edited.editOk r 0x0403 []

/-! ## Runners (R383, R385, R405) -/

/-- The runner of a figure: its master stage port, while it is placed with a list. -/
def State.runnerOf (s : State) (f : Nat) : Option Nat :=
  if s.castN 0x43A f = 0 && !listRuns (s.figAt f) then none else s.master f

/-- Code of a runner state (Table 14.5) and of a point state (Table 14.6). -/
def runCode (r : RunState) : Nat :=
  match r with
  | .idle => 0
  | .armed => 1
  | .waiting => 2
  | .active => 3
  | .held => 4
  | .ended => 5
def ptCode (p : PtState) : Nat :=
  match p with
  | .pending => 0
  | .placed => 1
  | .settling => 2
  | .aperture => 3

/-- A port serves several figures by turns (R193). -/
def State.shared (s : State) (p : Nat) : Bool := 1 < (s.figsOn p).length

/-- SWP_STATE of a figure (Table 14.18); 0 where it is not defined. -/
def State.swpState (s : State) (f : Nat) : Word :=
  if !s.defined f then 0#32
  else
    let x := s.figAt f
    let run := s.runnerOf f
    at32 (run.getD 0xFF) 16 |||
    at32 (match x.flight with
      | some q => ptCode q.state
      | none => 15) 8 |||
    bitAt (x.flight.any (fun q => q.top)) 5 |||
    bitAt (run.any (fun p => s.shared p)) 4 ||| at32 (runCode x.run) 0

/-- SWP_POINT and SWP_SEQ. -/
def State.swpPoint (s : State) (f : Nat) : Word :=
  if !s.defined f then 0#32
  else at32 ((s.figAt f).pass.toNat % 65536) 16 ||| at32 (s.figAt f).lastPoint 0
def State.swpSeq (s : State) (f : Nat) : Word :=
  let q := (s.figAt f).seq
  if !s.defined f || q = 0#32 then 0#32 else q - 1#32

/-- The 16 bytes of SWP_STATUS_READ for a figure. -/
def State.swpRecord (s : State) (f : Nat) : List Byte :=
  leBytes 4 (s.swpState f).toNat ++ leBytes 4 (s.swpPoint f).toNat ++
  leBytes 4 (if s.defined f then (s.figAt f).flags else 0#32).toNat ++ leBytes 4 (s.swpSeq f).toNat

/-- SWP_STATUS_READ (R403, R577). -/
def execSwpStatusRead (r : Req) (first count : Nat) (s : State) : Host.Outcome State Fault Refusal :=
  umser r 0x0406 {} s fun s =>
    if 4096 ≤ first then s.refuse r 0x0406 stRange 0x20
    else if count = 0 ∨ 4096 < first + count then s.refuse r 0x0406 stRange 0x22
    else s.ok r 0x0406 [] ((List.range count).flatMap (fun i => s.swpRecord (first + i)))

/-- SWP_START (R385): the list starts at the next loop tick. -/
def execSwpStart (r : Req) (fig : Nat) (s : State) : Host.Outcome State Fault Refusal :=
  umser r 0x0404 { standbyOk := false } s fun s =>
    if 4096 ≤ fig || !s.defined fig then s.refuse r 0x0404 stRange 0x20
    else
      let x := s.figAt fig
      if x.run = .armed ∨ x.run = .ended then
        (s.modFig fig (fun x => { x with startDue := true })).ok r 0x0404 [] []
      else s.refuse r 0x0404 stNotReady

/-- SWP_STOP (R402, R577): the cut follows at the next loop tick. -/
def execSwpStop (r : Req) (fig mode : Nat) (s : State) : Host.Outcome State Fault Refusal :=
  umser r 0x0405 { standbyOk := false } s fun s =>
    if 4096 ≤ fig || !s.defined fig then s.refuse r 0x0405 stRange 0x20
    else if 1 < mode then s.refuse r 0x0405 stRange 0x22
    else if listRuns (s.figAt fig) || (s.figAt fig).startDue then
      (s.modFig fig (fun x =>
        { x with stop := if x.stop == some 2 && mode == 0 then some 2 else some mode })).ok r 0x0405 [] []
    else s.refuse r 0x0405 stNotReady

/-! ## Level, mode and roles (R386, R387, R392) -/

/-- Give a figure a level: a port that serves it goes from REGULATING to RAMP (R285, R289). -/
def State.setLevel (s : State) (f : Nat) (level : Int) : State :=
  let t := s.modFig f (fun x => { x with level := level })
  ((s.members f).filter (fun p => s.serves p == some f)).foldl (fun t p => t.modForce p (fun x =>
    { x with
      target := level * 2000
      out := if x.out == .regulating then .ramp else x.out })) t

/-- Give a figure a mode; on a change the loops take new roles, the command as before (R392). -/
def State.setMode (s : State) (f mode : Nat) : State :=
  if (s.figAt f).mode = mode then s
  else
    let t := s.modFig f (fun x => { x with mode := mode })
    (s.members f).foldl (fun t p =>
      if s.serves p == some f && loopsClosed (t.spAt p) && (t.spAt p).loop.closing.isNone then
        t.modLoop p (fun x => { x with closing := some (t.spAt p).force.inCode })
      else t) t

/-- The level a figure has outside a list: fig.level in the unit of fig.mode. -/
def State.ownLevel (s : State) (f : Nat) : State :=
  (s.setMode f (s.castN 0x401 f)).setLevel f (s.live 0x438 f).toInt

/-- A live write of fig.level takes effect (R386, R387). -/
def State.levelWritten (s : State) (f : Nat) : State :=
  let x := s.figAt f
  if !x.enabled then s.modFig f (fun y => { y with level := (s.live 0x438 f).toInt })
  else if listRuns x then s.modFig f (fun y => { y with levelKept := true })
  else s.ownLevel f

/-- The output at the end of a list (R387); kept level writes of the list then stand. -/
def State.listOutput (s : State) (f : Nat) : State :=
  let x := s.figAt f
  let t := s.modFig f (fun y => { y with compA := none, compB := none, levelKept := false })
  if x.endMode = 1 then t.ownLevel f
  else if x.endMode = 2 then t.figDisable f 1
  else t

/-- End a list with its report: every pass completed (4), or early (5) with a cause. -/
def State.endList (s : State) (f state cause : Nat) : State :=
  let t := s.listReport f state cause
  let t := t.modFig f (fun y => { y with run := .ended, stop := none, startDue := false })
  t.listOutput f

/-! ## Points (R388 to R394) -/

/-- A slot of a shared stage ends: the loops open and the command goes to SAFE_CODE (R397). -/
def State.slotEnd (s : State) (f : Nat) : State :=
  match s.members f with
  | [p] =>
    if (s.spAt p).slotFig = some f then
      let t := s.modSp p (fun x => { x with slotFig := none, slotLast := some f })
      if loopsClosed (s.spAt p) then t.openRamp p (s.downPeriods f (s.figAt f).mode p) else t
    else s
  | _ => s

/-- The point in flight ends; a failed point with BRK ends the list (Table 14.11). -/
def State.pointEnd (s : State) (f state cause : Nat) (extra : BitVec 16) : State :=
  match (s.figAt f).flight with
  | none => s
  | some q =>
    let t := (s.ptFinal f state cause extra).slotEnd f
    if state = 5 && ptBrk q.entry && (s.figAt f).stop != some 2 then
      (((t.ptNotRun f 12).swpFlag f 0x40#32)).endList f 5 12
    else t.setRun f .waiting

/-- Set bits in the flags of the point in flight. -/
def State.ptFlag (s : State) (f : Nat) (m : BitVec 16) : State :=
  s.modFig f (fun x => { x with flight := x.flight.map (fun q => { q with flags := q.flags ||| m }) })

/-- The loops of a figure stand closed on every member: it is past step 3 and not held. -/
def State.running (s : State) (f : Nat) : Bool :=
  (s.figAt f).enabled && !(s.members f).isEmpty && (s.members f).all (fun p =>
    let x := s.spAt p
    (x.force.out == .ramp || x.force.out == .regulating) && !x.sup.held)

/-- LIST_START (R385): enable with fig.swp_start = 0, SWP_START, or an event at swpNNN.go. -/
def execListStart (fig : Nat) (s : State) : Host.Outcome State Fault Refusal :=
  let x := s.figAt fig
  let run := (s.master fig).getD 0
  let heard := s.fab.arrived.contains (0x80 + run)
  let mode := s.castN 0x43C fig
  let open_ := x.run == .armed || x.run == .ended
  finish s
    (if !s.running fig || !s.grpRuns (run / 8) || s.swapFirst then s
    else
      let t := if heard then
          { s with fab := { s.fab with arrived := dropFirst (· == 0x80 + run) s.fab.arrived } }
        else s
      if open_ && 0 < s.castN 0x43A fig &&
          (x.startDue || (mode == 0 && x.run == .armed) || (mode == 2 && heard)) then
        (t.forgetGo fig).modFig fig (fun y =>
          { y with
            run := .waiting
            startDue := false
            first := s.castN 0x439 fig
            count := s.castN 0x43A fig
            repeats := s.castN 0x43B fig
            endMode := s.castN 0x43D fig
            next := 0
            pass := 1#32
            readyMt := s.mt.mt
            listMt := s.mt.mt })
      else t)

/-- The entry that comes next in a figure's list. -/
def State.nextEntry (s : State) (f : Nat) : BitVec 256 :=
  let x := s.figAt f
  tget 0#256 s.sets.cast.sweep (x.first + x.next)

/-- The instant of start condition 2: the first of the phase at or after the ready stamp (R389). -/
def phaseInstant (ready : DWord) (phase : Nat) : DWord :=
  let d := (phase * 256 + 2 ^ 24 - ready.toNat % 2 ^ 24) % 2 ^ 24
  ready + BitVec.ofNat 64 d

/-- The start condition of a figure's next point holds at this tick (R389, R401). -/
def State.wouldFire (s : State) (f : Nat) : Bool :=
  let x := s.figAt f
  let e := s.nextEntry f
  x.run == .waiting && x.flight.isNone && x.next < x.count && x.stop.isNone && s.running f &&
    x.reports.length < 256 && x.fireMt != some (s.grpAt (s.grpOf f)).tickMt &&
    (if ptStart e = 1 then s.fab.arrived.contains (0x100 + (s.master f).getD 0)
     else if ptStart e = 2 then mtLe (phaseInstant x.readyMt (ptPhase e)) s.mt.mt
     else true)

/-- The figure that takes the next slot of a shared stage: ascending from the one after the last
served, wrapping round (R397). -/
def State.slotNext (s : State) (p : Nat) : Option Nat :=
  let l := (s.figsOn p).filter s.wouldFire
  let last := (s.spAt p).slotLast.getD 4096
  match l.find? (fun f => decide (last < f)) with
  | some f => some f
  | none => l.head?

/-- A figure may fire now: it is alone on its stage, or the slot is its own. -/
def State.slotOpen (s : State) (f : Nat) : Bool :=
  match s.members f with
  | [p] => !s.shared p || ((s.spAt p).slotFig.isNone && s.slotNext p == some f &&
      atSafe (s.spAt p).force)
  | _ => true

/-- The larger of a point's LEVEL and, for a pulse, BASE, as a magnitude. -/
def ptReach (e : BitVec 256) : Nat :=
  if ptPulse e then max (ptLevel e).natAbs (ptBase e).natAbs else (ptLevel e).natAbs

/-- Limits a point brings (R381), whatever is in force. -/
def State.pointLimits (s : State) (f : Nat) (e : BitVec 256) : Limits :=
  (s.modFig f (fun x =>
    { x with mode := modeOf e (s.castN 0x401 f), compA := some (ptCompA e), compB := some (ptCompB e) })).limits f

/-- The range a point requests (R391): none asks for nothing; a range outside the allowed set is
refused. -/
def State.ptRange (s : State) (f p : Nat) (e : BitVec 256) : Option Nat :=
  let d := s.descOf p
  let ok := s.allowed f p
  let r := ptRngReq e
  let now := (s.spAt p).force.rng
  let mode := modeOf e (s.castN 0x401 f)
  let want := if r = 15 then now
    else if r ≤ 5 then r
    else if mode = 1 ∨ mode = 2 then
      (bestRange ok (fun k => covers d k 90 (micro (ptReach e)))).getD (s.firstRange f p)
    else
      let l := s.pointLimits f e
      (bestRange ok (fun k => covers d k 98 (micro (max l.iSrc l.iSnk)))).getD (s.firstRange f p)
  if want = now then none else some want

/-- The span a point requests (R391). -/
def State.ptSpan (s : State) (f p : Nat) (e : BitVec 256) : Option Nat :=
  let d := s.descOf p
  let v := ptSpanReq e
  let now := (s.spAt p).force.vspan
  let mode := modeOf e (s.castN 0x401 f)
  let want := if v = 15 then now
    else if v ≤ 3 then v
    else if isVolt mode then
      (bestRange [0, 1, 2, 3] (fun k =>
        ((micro (ptReach e)).mul ⟨10, 1⟩).le (((vFs k).mul (dScale d)).mul ⟨9, 1⟩))).getD 0
    else now
  if want = now then none else some want

/-- Start the range and span work of a point: higher full scale and larger span at once, or at the close of a
range window that is open; either way while the command stands at SAFE_CODE (R391, Table 11.4). -/
def State.ptRangeWork (s : State) (f p : Nat) (e : BitVec 256) (anyWay : Bool) : State :=
  let s := match s.ptRange f p e with
    | none => s
    | some b =>
      if !(s.allowed f p).contains b then (s.ptFlag f 4#16).swpFlag f 0x20#32
      else if anyWay || b < (s.spAt p).force.rng then
        if (s.spAt p).force.win.isNone then s.rangeStart p b true else s.askRange p b
      else s
  match s.ptSpan f p e with
  | none => s
  | some v =>
    if anyWay || v < (s.spAt p).force.vspan then (s.gangOf p).foldl (fun t q => t.spanChange q v) s
    else s

/-- The site a point names on a member; none keeps the site in use. -/
def State.ptSiteOn (s : State) (f p : Nat) (e : BitVec 256) : Option Nat :=
  let d := s.descOf p
  if dSites d = 0 then none
  else
    let j := if ptKeep e then (s.spAt p).force.site else s.siteOn f p (ptSite e)
    if j = (s.spAt p).force.site && !s.shared p then none else some j

/-- The site work of a point as it fires (R390): strobed at once when hot, unless an aperture is open on
the port (R170), else after a ramp to SAFE_CODE. A slot of a shared stage always takes the second way (R397). -/
def State.ptSiteWork (s : State) (f : Nat) (e : BitVec 256) : State :=
  let m := (s.master f).getD 0
  let change := (s.members f).any (fun p => (s.ptSiteOn f p e).isSome)
  if !change && !s.shared m then s
  else
    let changed := (s.members f).any (fun p =>
      match s.ptSiteOn f p e with
      | some j => j != (s.spAt p).force.site
      | none => false)
    let s := if changed then s.ptFlag f 0x100#16 else s
    let n := s.downPeriods f (s.figAt f).mode m
    (s.members f).foldl (fun t p =>
      let d := t.descOf p
      let j := (t.ptSiteOn f p e).getD (t.spAt p).force.site
      if dSiteHot d && !t.shared p then
        if (t.spAt p).meas.integ.isSome then t.modForce p (fun x => { x with siteNext := some j })
        else (t.strobe p j).modForce p (fun x => { x with siteWait := t.ticksUs (p / 8) (dn d 0xA4 2) })
      else
        let t := if (t.spAt p).force.down.isSome then t else t.openRamp p n
        t.modForce p (fun x => { x with siteNext := some j })) s

/-- The aux reading a point requests (R237). -/
def State.ptAuxAsk (s : State) (f : Nat) : State :=
  match s.master f with
  | none => s
  | some m =>
    let a := s.cast 0x414 f
    s.urgAsk (m / 8)
      { cls := 1, port := 8 * (m / 8) + bits a 21 19, auxsel := s.castN 0x415 f
        span := bits a 23 22, settle := bits a 15 0, avg := bits a 26 24, owner := f
        clk := s.clk, conv := Conv.init }

/-- More than one loop period after an instant (R389). -/
def State.pastPeriod (s : State) (g : Nat) (t : DWord) : Bool :=
  mtLe (t + BitVec.ofNat 64 (s.periodNs g / 5 * s.mtInc / 2 ^ 32)) s.mt.mt &&
    t + BitVec.ofNat 64 (s.periodNs g / 5 * s.mtInc / 2 ^ 32) != s.mt.mt

/-- A point fires (R389 to R391). -/
def State.firePoint (s : State) (f : Nat) : State :=
  let x := s.figAt f
  let e := s.nextEntry f
  let m := (s.master f).getD 0
  let late := ptStart e == 2 && s.pastPeriod (m / 8) (phaseInstant x.readyMt (ptPhase e))
  let q : Flight :=
    { index := x.first + x.next, entry := e, state := .placed, mtStart := s.mt.mt, settleMt := 0#64
      ticks := 0, dwellEnded := false, waited := 0
      flags := (if late then 1#16 else 0#16) ||| (if x.again then 0x80#16 else 0#16)
      top := false, topTicks := 0 }
  let t := s.forgetGo f
  let t := t.modFig f (fun y =>
    { y with
      run := .active
      flight := some q
      next := y.next + 1
      again := false
      lastPoint := q.index
      fireMt := some (s.grpAt (m / 8)).tickMt
      flags := y.flags ||| bitAt late 3 })
  let t := if s.shared m then t.modSp m (fun y => { y with slotFig := some f }) else t
  let t := t.raiseFig f 1
  let t := if ptMark e then t.raiseFig f 2 else t
  let t := if ptAux e then t.ptAuxAsk f else t
  let t := t.ptSiteWork f e
  if (t.spAt m).force.siteNext.isSome then t else t.ptRangeWork f m e false

/-- POINT_FIRE (R389, R397, R401). -/
def execPointFire (fig : Nat) (s : State) : Host.Outcome State Fault Refusal :=
  let x := s.figAt fig
  finish s
    (if s.swapFirst then s
    else if s.wouldFire fig && s.slotOpen fig then s.firePoint fig
    else if x.run == .waiting && x.flight.isNone && 256 ≤ x.reports.length then
      s.swpFlag fig 0x80#32
    else s)

/-- SITE_WAIT_END (R390): the loops close as at step 3, for the point's figure. -/
def execSiteWaitEnd (fig : Nat) (s : State) : Host.Outcome State Fault Refusal :=
  let placed := match (s.figAt fig).flight with
    | some q => q.state == .placed
    | none => false
  let ready := !(s.members fig).isEmpty && (s.members fig).all (fun p =>
    let x := (s.spAt p).force
    x.siteNext.isNone && x.siteWait == 0 && x.win.isNone && atSafe x)
  finish s
    (if placed && ready then
      (s.members fig).foldl (fun t p => t.closeLoops p (s.safeCode p)) s
    else s)

/-- The site and range work of a point is complete: no request for a higher full scale waits either. -/
def State.placedDone (s : State) (f : Nat) : Bool :=
  s.running f && (s.members f).all (fun p =>
    let x := (s.spAt p).force
    x.siteNext.isNone && x.siteWait == 0 && x.down.isNone && x.win.isNone &&
      !x.downPend.any (fun b => decide (b < x.rng)))

/-- SETTLING (R391, R392): mode, limits and level come into force, and requests for a lower full
scale or a smaller span start waiting. -/
def execSettling (fig : Nat) (s : State) : Host.Outcome State Fault Refusal :=
  finish s
    (match (s.figAt fig).flight with
     | none => s
     | some q =>
       if q.state == .placed && s.placedDone fig then
         let e := q.entry
         let m := (s.master fig).getD 0
         let t := s.modFig fig (fun x =>
           { x with
             compA := some (ptCompA e)
             compB := some (ptCompB e)
             flight := some { q with state := .settling, settleMt := s.mt.mt, ticks := 0 } })
         let t := t.setMode fig (modeOf e (s.castN 0x401 fig))
         let t := t.setLevel fig (if ptPulse e then ptBase e else ptLevel e)
         let t := match t.ptRange fig m e with
           | some b => if (t.allowed fig m).contains b then t.askRange m b else t
           | none => t
         match t.ptSpan fig m e with
         | some v => t.askSpan m v
         | none => t
       else s)

/-- The dwell of a point has ended at this tick (R392). -/
def State.dwellOver (s : State) (q : Flight) : Bool :=
  if ptTicks q.entry then ptDwell q.entry ≤ q.ticks
  else mtLe (q.settleMt + BitVec.ofNat 64 (ptDwell q.entry)) s.mt.mt

/-- The conditions of R393 but the dwell's end. -/
def State.canMeasure (s : State) (f : Nat) : Bool :=
  s.running f && (s.members f).all (fun p =>
    let x := (s.spAt p).force
    x.out == .regulating && x.down.isNone && x.win.isNone && x.downPend.isNone && x.spanPend.isNone)

/-- Open the aperture of a point at this tick; refused, the point fails (R393). -/
def State.ptOpen (s : State) (f : Nat) (q : Flight) : State :=
  if s.apFree f s.mt.mt && (s.figAt f).apOpen.all (fun a => apOver a s.mt.mt) then
    let t := match (s.figAt f).apOpen with
      | some a => (s.apSamples a).apClose f 0
      | none => s
    let t := t.apAsk f (apRequest s.mt.mt (ptAperture q.entry) q.index true false)
    (t.apStart f).modFig f (fun x => { x with flight := some { q with state := .aperture } })
  else (s.swpFlag f 0x10#32).pointEnd f 5 9 0#16

/-- DWELL_END (R392, R393): of a point that is no pulse. -/
def execDwellEnd (fig : Nat) (s : State) : Host.Outcome State Fault Refusal :=
  finish s
    (match (s.figAt fig).flight with
     | none => s
     | some q =>
       if q.state == .settling && !ptPulse q.entry && s.dwellOver q then
         if s.canMeasure fig then
           let q1 : Flight := { q with
             flags := q.flags ||| (if q.dwellEnded then 0x400#16 else 0#16), dwellEnded := true }
           let t := s.modFig fig (fun x => { x with flight := some q1 })
           if ptNoAp q.entry then t.pointEnd fig 4 0 0#16 else t.ptOpen fig q1
         else s.modFig fig (fun x => { x with flight := some { q with dwellEnded := true } })
       else s)

/-- A request of a figure that waited is reported refused (R393, Table 11.4). -/
def State.waitRefused (s : State) (f : Nat) : State := (s.ptFlag f 4#16).swpFlag f 0x20#32

/-- Cancel what waits for a lower range, and what waits for a smaller span. -/
def State.cancelRange (s : State) (f : Nat) : State :=
  ((s.members f).foldl (fun t p => t.modForce p (fun x =>
    { x with downPend := none, waited := 0 })) s).waitRefused f
def State.cancelSpan (s : State) (f : Nat) : State :=
  ((s.members f).foldl (fun t p => t.modForce p (fun x =>
    { x with spanPend := none, waited := 0 })) s).waitRefused f

/-- Cancel what waits for a lower range or a smaller span. -/
def State.cancelDown (s : State) (f : Nat) : State :=
  ((s.members f).foldl (fun t p => t.modForce p (fun x =>
    { x with downPend := none, spanPend := none, waited := 0 })) s).waitRefused f

/-- RANGE_WAIT_TIMEOUT (R393). -/
def execRangeWaitTimeout (fig : Nat) (s : State) : Host.Outcome State Fault Refusal :=
  let waits := (s.members fig).any (fun p =>
    (s.spAt p).force.downPend.isSome || (s.spAt p).force.spanPend.isSome)
  finish s
    (match (s.figAt fig).flight with
     | none => s
     | some q =>
       if q.state == .settling && s.dwellOver q && waits && s.castN 0x43F fig ≤ q.waited then
         s.cancelDown fig
       else s)

/-- Step the setpoint of a figure without a ramp (R394). -/
def State.stepLevel (s : State) (f : Nat) (level : Int) : State :=
  let t := s.modFig f (fun x => { x with level := level })
  (s.members f).foldl (fun t p => t.modForce p (fun x =>
    { x with target := level * 2000, setpoint := level * 2000 })) t

/-- PULSE_LEADING_EDGE (R394). -/
def execPulseLeadingEdge (fig : Nat) (s : State) : Host.Outcome State Fault Refusal :=
  finish s
    (match (s.figAt fig).flight with
     | none => s
     | some q =>
       if q.state == .settling && ptPulse q.entry && s.dwellOver q && s.canMeasure fig then
         if !ptNoAp q.entry && !s.apFree fig s.mt.mt then
           (s.swpFlag fig 0x10#32).pointEnd fig 5 9 0#16
         else
           let q1 : Flight := { q with
             state := .aperture, top := true, topTicks := 0, dwellEnded := true
             flags := q.flags ||| (if q.dwellEnded then 0x400#16 else 0#16) }
           let t := (s.stepLevel fig (ptLevel q.entry)).modFig fig (fun x =>
             { x with flight := some q1 })
           let t := t.raiseFig fig 3
           if ptNoAp q.entry then t else t.apAsk fig (apRequest s.mt.mt 0 q.index true false)
       else s)

/-- The aperture of the point in flight has closed: a point that is no pulse is DONE (R393). -/
def State.ptMeasured (s : State) (f point : Nat) : State :=
  match (s.figAt f).flight with
  | none => s
  | some q =>
    if q.index = point ∧ q.state = .aperture then
      let t := s.ptFlag f 0x40#16
      if ptPulse q.entry then t else t.pointEnd f 4 0 0#16
    else s

/-- Close the aperture of a figure at its end, and let its point follow. -/
def State.apFinish (s : State) (f : Nat) : State :=
  match (s.figAt f).apOpen with
  | none => s
  | some a => if apOver a s.mt.mt then ((s.apSamples a).apClose f 0).ptMeasured f a.point else s

/-- APERTURE_CLOSE (R263, R267). -/
def execApertureClose (fig : Nat) (s : State) : Host.Outcome State Fault Refusal :=
  finish s (if s.rst.ctrlUp && s.rst.dataUp then s.apFinish fig else s)

/-- A waiting aperture is due: its start, or AP_DELAY ticks after a pulse's leading edge. -/
def State.apDue (s : State) (f : Nat) (a : Aperture) : Bool :=
  match (s.figAt f).flight with
  | some q =>
    if q.index = a.point && q.top then ptApDelay q.entry ≤ q.topTicks else mtLe a.start s.mt.mt
  | none => mtLe a.start s.mt.mt

/-- An aperture that meets a data plane reset is lost: it ends empty and failed with cause 6, and a
point that is no pulse fails with it (R22, Table 14.11). -/
def State.apGone (s : State) (f : Nat) (a : Aperture) : State :=
  let t := s.apDeliver (s.apResult f a true 6)
  match (s.figAt f).flight with
  | some q =>
    if q.index = a.point ∧ q.state = .aperture ∧ !ptPulse q.entry then t.pointEnd f 5 6 0#16 else t
  | none => t

/-- APERTURE_OPEN (R261, R262). One that is due while the data plane is down is lost (R22). -/
def execApertureOpen (fig : Nat) (s : State) : Host.Outcome State Fault Refusal :=
  finish s
    (match (s.figAt fig).apWait, (s.figAt fig).apOpen with
     | some a, none =>
       if s.rst.ctrlUp && !s.swapFirst && s.apDue fig a then
         if s.rst.dataUp then s.apStart fig
         else (s.modFig fig (fun x => { x with apWait := none })).apGone fig a
       else s
     | _, _ => s)

/-- The data plane stops: every open aperture is lost (R22). -/
def State.aperturesLost (s : State) : State :=
  s.fig.foldl (fun t e =>
    match e.2.apOpen with
    | some a =>
      let t := t.modFig e.1 (fun x => { x with apOpen := none })
      (a.members.foldl (fun t p => t.modSp p (fun y =>
        { y with meas := { y.meas with integ := none } })) t).apGone e.1 a
    | none => t) s

/-- The pulse in flight had an aperture and a data plane reset has taken it (R22). -/
def State.apLost (s : State) (f : Nat) : Bool :=
  let x := s.figAt f
  match x.flight with
  | some q =>
    let mine (a : Option Aperture) : Bool := a.any (fun a => a.point == q.index)
    !ptNoAp q.entry && !q.flags.getLsbD 6 && !mine x.apOpen && !mine x.apWait
  | none => false

/-- PULSE_TRAILING_EDGE (R394). -/
def execPulseTrailingEdge (fig : Nat) (s : State) : Host.Outcome State Fault Refusal :=
  finish s
    (match (s.figAt fig).flight with
     | none => s
     | some q =>
       if q.top && ptWidth q.entry ≤ q.topTicks then
         let t := (s.apFinish fig).stepLevel fig (ptBase q.entry)
         if t.apLost fig then t.pointEnd fig 5 6 0#16 else t.pointEnd fig 4 0 0#16
       else s)

/-- A list that an Unveil replaced ends (Table 14.11): its report, and the new list is armed. -/
def State.listReplaced (s : State) (f : Nat) : State :=
  let t := (s.listReport f 5 11).modFig f (fun y =>
    { y with
      run := if s.castN 0x43A f = 0 then .idle else .armed
      stop := none
      startDue := false
      endedInHold := false
      compA := none
      compB := none
      levelKept := false })
  t.ownLevel f

/-- LIST_END (R385, R387, R402): the next pass, the end of the last one, SWP_STOP of mode 0, or the last
point of a list that an Unveil replaced. -/
def execListEnd (fig : Nat) (s : State) : Host.Outcome State Fault Refusal :=
  let x := s.figAt fig
  finish s
    (if x.run == .waiting && x.flight.isNone && s.rst.ctrlUp then
      if x.stop == some 0 then (s.ptNotRun fig 10).endList fig 5 10
      else if x.stop == some 2 then s.listReplaced fig
      else if x.count ≤ x.next then
        if x.repeats = 0 || x.pass.toNat < x.repeats then
          (s.forgetGo fig).modFig fig (fun y =>
            { y with next := 0, pass := y.pass + 1#32, readyMt := s.mt.mt })
        else s.endList fig 4 0
      else s
    else s)

/-- SWP_STOP of mode 1 acts at the loop tick after it (Table 14.11). -/
def State.stopNow (s : State) (f : Nat) : State :=
  let x := s.figAt f
  if x.stop = some 1 then
    let flags := s.cutFlags f
    let ofPoint (a : Aperture) : Bool := a.point != 0xFFFF
    let s := if x.apOpen.any ofPoint then (s.combFinish (s.grpOf f)).apClose f 8 else s
    let s := if x.apWait.any ofPoint then s.apDrop f 8 else s
    if listRuns x then
      ((s.slotEnd f).listCut f 10 (flags ||| 0x10#16) .ended).listOutput f
    else s.modFig f (fun y => { y with stop := none, startDue := false })
  else s

/-- The 32 bytes of a point report (Table 14.8). -/
def Report.bytes (r : Report) (f : Nat) (seq : Word) : List Byte :=
  leBytes 2 (f + 3 * 4096) ++ leBytes 2 r.point ++ leBytes 1 r.state ++ leBytes 1 r.cause ++
  leBytes 2 r.flags.toNat ++ leBytes 4 seq.toNat ++ leBytes 2 r.pass.toNat ++ leBytes 1 r.port ++
  leBytes 1 r.wher.toNat ++ leBytes 8 r.mtStart.toNat ++ leBytes 8 r.mtEnd.toNat

/-- POINT_REPORT (R398, R400, R401): the data plane takes the oldest outcome of a figure; figXXX.swp_done
follows at the commit of a list report. -/
def execPointReport (fig : Nat) (s : State) : Host.Outcome State Fault Refusal :=
  finish s
    (match (s.figAt fig).reports, s.rst.dataUp with
     | r :: rest, true =>
       let seq := (s.figAt fig).seq
       let t := s.modFig fig (fun x => { x with reports := rest, seq := seq + 1#32 })
       t.produce (64 * fig)
         { key := BitVec.ofNat 32 r.point, stamp := s.mt.mt, payload := recordWords (r.bytes fig seq)
           listEnd := r.point == 0xFFFF }
     | _, _ => s)

end Sys2Proof.Machine
end

