-- ==== Sys2Proof/Machine/Eval.lean ====
section
/-! DEFINITION. One period's evaluation of the channels of a figure (R317 to R339): targets, bounds,
compensators, selectors, command, readiness. -/

namespace Sys2Proof.Machine

/-! ## Quantities (R295, R300, R338) -/

/-- A fraction is below another; the smaller and the larger of two. -/
def Frac.lt (a b : Frac) : Bool := !b.le a
def Frac.min (a b : Frac) : Frac := if a.le b then a else b
def Frac.max (a b : Frac) : Frac := if a.le b then b else a

/-- The voltage word of a channel is held over this loop sample (R295). -/
def State.spanHeld (s : State) (p : Nat) : Bool :=
  0 < (s.spAt p).force.spanHold && decide ((s.grpAt (p / 8)).acq.combPhase < 100)

/-- The voltage and the current word the loops of a channel use. -/
def State.chanV (s : State) (p : Nat) : Int :=
  if s.spanHeld p then (s.spAt p).force.heldV else (s.spAt p).meas.wV
def State.chanI (s : State) (p : Nat) : Int :=
  match (s.spAt p).force.win with
  | some w => w.heldI
  | none => (s.spAt p).meas.wI

/-- What the loops of a figure work on in one period. In a gang the range is that of the reference
scale, range 0 (R338). -/
structure Work where
  fig : Nat
  m : Nat
  mem : List Nat
  mode : Nat
  d : BitVec 2048
  vspan : Nat
  rng : Nat
  qV : Int
  qI : Int
  volts : Frac
  amps : Frac

/-- More than one member. -/
def Work.gang (w : Work) : Bool := 1 < w.mem.length

/-- The work of a figure whose master is m. -/
def State.workOf (s : State) (f m : Nat) (mem : List Nat) : Work :=
  let d := s.descOf m
  let x := (s.spAt m).force
  let gang := decide (1 < mem.length)
  let rng := if gang then 0 else x.rng
  let amps := mem.foldl (fun a q =>
    a.add (ampsOf (s.descOf q) (s.spAt q).force.rng (s.chanI q))) (⟨0, 1⟩ : Frac)
  let qV := s.chanV m
  { fig := f, m := m, mem := mem, mode := (s.figAt f).mode, d := d, vspan := x.vspan, rng := rng
    qV := qV, qI := if gang then ampsWord d 0 amps else s.chanI m
    volts := voltsOf d x.vspan qV, amps := amps }

/-- A current as a word of the work's range. -/
def Work.iWord (w : Work) (i : Frac) : Int := ampsWord w.d w.rng i

/-- A voltage as a word of the work's span. -/
def Work.vWord (w : Work) (v : Frac) : Int := voltsWord w.d w.vspan v

/-! ## Bounds (R298, R320) -/

/-- The limits the loops act with. -/
structure Bounds where
  vHi : Frac
  vLo : Frac
  iSrc : Frac
  iSnk : Frac
  foldSrc : Bool
  foldSnk : Bool
  iClip : Bool
  vmin : Bool
  /-- V′ of R320. -/
  vPrev : Frac

/-- Limits clipped to the range and folded by the power limit. -/
def State.boundsOf (s : State) (w : Work) : Bounds :=
  let l := s.limits w.fig
  let full := w.mem.foldl (fun a q => a.min (ampsFull (s.descOf q) (s.spAt q).force.rng))
    (ampsFull (s.descOf w.m) (s.spAt w.m).force.rng)
  let most := full.mul ⟨98 * w.mem.length, 100⟩
  let src := micro l.iSrc
  let snk := micro l.iSnk
  let v := voltsOf w.d w.vspan (s.spAt w.m).loop.prevV
  let vm := micro (s.castN 0x424 w.fig)
  let small := v.abs.lt vm
  let mag := if small then vm else v.abs
  let vPrev := if v.num < 0 then mag.neg else mag
  let p := s.castN 0x406 w.fig
  let fold : Frac := (⟨p, 1000⟩ : Frac).div mag
  let src1 := src.min most
  let snk1 := snk.min most
  { vHi := micro l.vHi, vLo := micro l.vLo
    iSrc := if p = 0 then src1 else src1.min fold
    iSnk := if p = 0 then snk1 else snk1.min fold
    foldSrc := p != 0 && fold.lt src1
    foldSnk := p != 0 && fold.lt snk1
    iClip := most.lt src || most.lt snk
    vmin := small && (p != 0 || w.mode == 4)
    vPrev := vPrev }

/-! ## The setpoint (R288, R289, R317, R321) -/

/-- A level of the ramp's 1/2000 unit in V or A. -/
def rampUnit (x : Int) : Frac := ⟨x, 2000000000⟩

/-- A voltage or a current in the ramp's 1/2000 unit. -/
def toRamp (x : Frac) : Int := (x.mul ⟨2000000000, 1⟩).round

/-- The current a load resistance or load power demands (Table 12.2). A resistance of 0 demands more
than any limit. -/
def Work.demand (w : Work) (level : Int) (vPrev : Frac) : Frac :=
  if w.mode = 3 then
    if level = 0 then
      ⟨if w.volts.num = 0 then 0 else if 0 < w.volts.num then -1000000000000 else 1000000000000, 1⟩
    else (w.volts.div ⟨level, 1000⟩).neg
  else ((⟨level, 1000⟩ : Frac).div vPrev).neg

/-- The level quantity measured (R288): V, I, or -I for a load current. -/
def Work.measured (w : Work) : Frac :=
  if isVolt w.mode then w.volts else if w.mode = 2 then w.amps.neg else w.amps

/-- Move a setpoint toward a target by a step, none for at once; and whether it stands there. -/
def moveTo (sp target : Int) (step : Option Int) : Int × Bool :=
  match step with
  | none => (target, true)
  | some d =>
    if ((target - sp).natAbs : Int) ≤ d then (target, true)
    else if sp < target then (sp + d, false) else (sp - d, false)

/-- The setpoint of a figure in this period, in the ramp's unit: as the loops close the measured
level, in RAMP a step on; and whether the level is reached. -/
def State.setpointOf (s : State) (w : Work) (b : Bounds) (fresh : Bool) : Int × Bool :=
  let x := s.spAt w.m
  let target := if w.mode = 3 ∨ w.mode = 4 then toRamp (w.demand (s.figAt w.fig).level b.vPrev)
    else x.force.target
  if fresh then (toRamp w.measured, false)
  else if outOf x = .ramp then moveTo x.force.setpoint target (s.stepOf w.fig w.m)
  else (target, true)

/-- The setpoint loop's target before its clamp, in V or A. -/
def State.levelTarget (s : State) (w : Work) (b : Bounds) (sp : Int) (there : Bool) : Frac :=
  if w.mode = 3 ∨ w.mode = 4 then
    let x := w.demand (s.figAt w.fig).level b.vPrev
    if there || x.abs.le (rampUnit sp).abs then x else rampUnit sp
  else if w.mode = 2 then (rampUnit sp).neg
  else rampUnit sp

/-- The clamp of R321: the target, and whether it acts at the source or at the sink bound. -/
def clampTarget (w : Work) (b : Bounds) (t : Frac) : Frac × Bool × Bool :=
  let hi := if isVolt w.mode then b.vHi else b.iSrc
  let lo := if isVolt w.mode then b.vLo else b.iSnk.neg
  if hi.lt t then (hi, true, false) else if t.lt lo then (lo, false, true) else (t, false, false)

/-! ## Loops of one figure -/

/-- A loop as the selectors see it: its target, its error, and where it feeds. -/
structure LoopRole where
  loop : Nat
  sp : Bool
  upper : Bool
  target : Int
  gov : Nat

/-- GOV of the I loop at its setpoint (Table 12.3). -/
def govSet (w : Work) (b : Bounds) (target : Frac) (src snk : Bool) : Nat :=
  if (src && b.foldSrc) || (snk && b.foldSnk) then 4
  else if target.num < 0 || (target.num == 0 && w.mode == 2) then 3 else 2

/-- The roles of Table 12.2 in a period: target is the clamped setpoint with what the clamp did, inj
the setpoint injection in words. In a range window only the voltage loop counts (R300). -/
def State.roles (s : State) (w : Work) (b : Bounds) (t : Frac × Bool × Bool) (inj : Int) : List LoopRole :=
  let spWord := sat31 ((if isVolt w.mode then w.vWord t.1 else w.iWord t.1) + inj)
  let vHi := w.vWord b.vHi
  let vLo := w.vWord b.vLo
  let iHi := w.iWord b.iSrc
  let iLo := w.iWord b.iSnk.neg
  let vUp := decide (vHi + vLo ≤ 2 * w.qV)
  let iUp := decide (iHi + iLo ≤ 2 * w.qI)
  let vBound : LoopRole := ⟨0, false, vUp, if vUp then vHi else vLo, 1⟩
  let iBound : LoopRole :=
    ⟨1, false, iUp, if iUp then iHi else iLo,
      if iUp then (if b.foldSrc then 4 else 2) else (if b.foldSnk then 4 else 3)⟩
  let base : List LoopRole :=
    if isVolt w.mode then [⟨0, true, true, spWord, 1⟩, iBound]
    else if w.mode ≤ 2 then [⟨1, true, true, spWord, govSet w b t.1 t.2.1 t.2.2⟩, vBound]
    else
      let folded := (t.2.1 && b.foldSrc) || (t.2.2 && b.foldSnk)
      [⟨2, true, true, spWord, if w.mode = 4 || folded then 4 else 5⟩, vBound, iBound]
  match (s.spAt w.m).force.win.bind (fun x => x.holdV) with
  | some h => ⟨0, false, true, clamp vLo vHi h, 6⟩ :: base.filter (fun r => r.loop != 0)
  | none => base

/-- The gain a compensator of a loop applies (R327). -/
def loopGain (w : Work) (blk : BitVec 640) (loop : Nat) : Int :=
  if loop = 0 then gainOf blk w.vspan ((vFs w.vspan).div (vFs 0))
  else gainOf blk w.rng ((ampsFull w.d w.rng).div (ampsFull w.d 0))

/-- The compensator of a loop of a channel. -/
def Loop.comp (l : Loop) (loop : Nat) : Comp :=
  if loop = 0 then l.v else if loop = 1 then l.i else if loop = 2 then l.x else l.share

/-- Put a compensator back. -/
def Loop.putComp (l : Loop) (loop : Nat) (c : Comp) : Loop :=
  if loop = 0 then { l with v := c }
  else if loop = 1 then { l with i := c }
  else if loop = 2 then { l with x := c }
  else { l with share := c }

/-- The block of a figure's loop in the Cast. -/
def State.blockOf (s : State) (f loop : Nat) : BitVec 640 := (coefOf s.sets.cast f loop).getD 0#640

/-- One loop after its evaluation: its role, its output, and its compensator when it has one: in a
gang only the voltage loop has one (R338). -/
structure Ran where
  role : LoopRole
  out : Int
  run : Option CompOut

/-- Evaluate one loop. -/
def State.runRole (s : State) (w : Work) (r : LoopRole) : Ran :=
  let q := if r.loop = 0 then w.qV else w.qI
  if w.gang && r.loop != 0 then ⟨r, r.target * 65536, none⟩
  else
    let blk := s.blockOf w.fig r.loop
    let o := ((s.spAt w.m).loop.comp r.loop).eval blk (loopGain w blk r.loop) (r.target - q)
      (if w.gang then 28 else 16)
    ⟨r, o.u, some o⟩

/-- Give a loop an output by its integrator. -/
def State.forceRan (s : State) (w : Work) (r : Ran) (u : Int) : Ran :=
  match r.run with
  | none => r
  | some o =>
    let o1 := o.force (s.blockOf w.fig r.role.loop) u
    { r with out := o1.u, run := some o1 }

/-- A loop as a selector's candidate. -/
def Ran.cand (r : Ran) : Cand := ⟨r.role.loop, r.role.sp, r.role.upper, r.out, r.role.gov⟩

/-- The active bound of a loop changed with this sample (R319). -/
def flipped (l : Loop) (r : LoopRole) : Bool :=
  !r.sp && ((r.loop == 0 && r.upper != l.vUp) || (r.loop == 1 && r.upper != l.iUp))

/-- Readiness margin M in the units of the selector (R336). -/
def State.margin (s : State) (w : Work) : Int :=
  (s.castN 0x422 w.fig : Int) * (if w.gang then 2 ^ 27 else 2 ^ 28)

/-- What the selectors of a figure give in one period. -/
structure Selected where
  uSel : Int
  /-- The loop that governs. -/
  by_ : Option Cand
  /-- Loops that took no part. -/
  sits : List Nat
  gov : Nat
  spGov : Bool
  loops : List Ran
  upper : Nat
  lower : Nat
  fold : Bool
  vUp : Bool
  iUp : Bool

/-- Bits of the loops that pass a test. -/
def loopBits (l : List Ran) (p : Ran → Bool) : Nat :=
  nsum ((List.range 3).map (fun k => b2n (l.any (fun r => r.role.loop == k && p r)) * 2 ^ k))

/-- Select (R322, R324). window: only the voltage loop can govern; first: the loops close in this
period, so no bound has changed. -/
def State.selected (s : State) (w : Work) (l : List Ran) (window first : Bool) : Selected :=
  let lp := (s.spAt w.m).loop
  let sits (r : Ran) : Bool :=
    if window then r.role.loop != 0 else !first && flipped lp r.role
  let c := (l.filter (fun r => !sits r)).map Ran.cand
  let g := governing c
  { uSel := selectOut c
    by_ := g
    sits := if window then [] else (l.filter sits).map (fun r => r.role.loop)
    gov := match g with
      | some x => x.gov
      | none => 0
    spGov := match g with
      | some x => if window then lp.spGov else x.sp
      | none => false
    loops := l
    upper := loopBits l (fun r => r.role.upper)
    lower := loopBits l (fun r => !r.role.upper)
    fold := l.any (fun r => r.role.gov == 4 && r.role.loop == 1)
    vUp := match l.find? (fun r => r.role.loop == 0) with
      | some r => r.role.upper
      | none => lp.vUp
    iUp := match l.find? (fun r => r.role.loop == 1) with
      | some r => r.role.upper
      | none => lp.iUp }

/-- Where readiness tracking puts the output of a loop that did not govern, m being the margin (R336). A
loop whose active bound changed is put between u_sel and the margin on its new side (R319). -/
def Selected.track (sel : Selected) (r : Ran) (out m : Int) : Option Int :=
  let u := sel.uSel
  if sel.by_.any (fun x => x.loop == r.role.loop && x.sp == r.role.sp) then none
  else if sel.sits.contains r.role.loop then
    some (if r.role.upper then clamp u (u + m) out else clamp (u - m) u out)
  else r.cand.tracked out u m

/-- A loop at the end of a period: it integrates where it may (R326, R335), and tracking then sets it
(R336); and whether tracking moved it. -/
def State.settleRan (s : State) (w : Work) (sel : Selected) (go : Bool) (r : Ran) : Ran × Bool :=
  match r.run with
  | none => (r, false)
  | some o =>
    let o1 := o.integrate go
    let out := sat48 (o1.p + o1.comp.integ)
    match sel.track r out (s.margin w) with
    | some v =>
      if v = out then ({ r with run := some o1 }, false)
      else
        (s.forceRan w { r with run := some o1 } v, cfEn (s.blockOf w.fig r.role.loop) 2)
    | none => ({ r with run := some o1 }, false)

/-! ## The command of one channel (R323, R331, R332, R339) -/

/-- The half of the feed-forward table after a loop sample (R332). -/
def ffHalf (old : Nat) (wI : Int) (first : Bool) : Nat :=
  if first then b2n (decide (wI < 0))
  else if wI ≤ -1048576 then 1 else if 1048576 ≤ wI then 0 else old

/-- The command a channel writes. -/
structure Command where
  code : Int
  sat : Bool
  ff : Int
  idx : Nat

/-- Assemble the command of a channel from a selector or share output and an injection. -/
def State.command (s : State) (f p h : Nat) (u inj : Int) (short : Bool) : Command :=
  let k := ffLookup s.sets.cast p h (u + inj)
  let on := s.castN 0x423 f == 1
  let ff := if on then k.2 else 0
  let raw := rdiv (u + inj + ff * 2 ^ 28) (2 ^ 28)
  let code := clamp (s.castI 0x443 p) (s.castI 0x444 p) raw
  { code := code, sat := short || code != raw, ff := ff, idx := k.1 }

/-- The output whose command is a code (R337). -/
def State.outputFor (s : State) (f p h : Nat) (code : Int) : Int :=
  if s.castN 0x423 f = 1 then ffSolve s.sets.cast p h code 8 (code * 2 ^ 28) else code * 2 ^ 28

/-- The share loop of a member for a demand D in Q32.16 reference words (R339). -/
def State.shareRun (s : State) (w : Work) (q : Nat) (demand : Int) : CompOut :=
  let d := s.descOf q
  let r := (s.spAt q).force.rng
  let part := ((ampsPerWord w.d 0).mul ⟨demand, 65536⟩).mul ⟨1, w.mem.length⟩
  let blk := s.blockOf w.fig 3
  let gs := gainOf blk r ((ampsFull d r).div (ampsFull d 0))
  (s.spAt q).loop.share.eval blk gs (ampsWord d r part - s.chanI q) 16

/-! ## Loop-state word and GOV (R324, R325) -/

/-- A loop-state word (Table 12.4). -/
def lsWord (out gov : Nat) (hold inj ffh ovrn sat : Bool) (code : Int) : Word :=
  at32 out 29 ||| bitAt hold 28 ||| bitAt inj 27 ||| bitAt ffh 26 ||| bitAt ovrn 25 ||| bitAt sat 24 |||
  at32 gov 20 ||| (BitVec.ofInt 20 code).setWidth 32

/-- Set bits of LE_FLAGS. -/
def State.leFlag (s : State) (p : Nat) (m : Word) : State :=
  s.modLoop p (fun x => { x with flags := x.flags ||| m })

/-- A channel reports a governing loop: a change counts, and raises the figure's event once, for the
master. -/
def State.reportGov (s : State) (p gov : Nat) (fig : Option Nat) : State :=
  if (s.spAt p).loop.gov = gov then s
  else
    let t := s.modLoop p (fun x => { x with gov := gov, govCnt := bump x.govCnt })
    match fig with
    | some f => if s.master f = some p || (s.members f).isEmpty then t.raiseFig f 10 else t
    | none => t

/-! ## The channels of a figure with closed loops -/

/-- A channel missed the code-latch deadline (R341), or its short-circuit flag is set (R292). -/
def PeriodIn_late (x : PeriodIn) (p : Nat) : Bool := x.late.contains (p % 8)
def PeriodIn_short (x : PeriodIn) (p : Nat) : Bool := x.short.contains (p % 8)

/-- The injection a figure carries in this period: the value, and whether at the setpoint; 0 in a range
window (R345). -/
def State.injection (s : State) (f g : Nat) (window : Bool) : Int × Bool × Option Nat :=
  match (s.grpAt g).tune with
  | some t =>
    if t.started && t.fig == f then (if window then 0 else t.value, t.atSetpoint, some t.port)
    else (0, false, none)
  | none => (0, false, none)

/-- One member's command in a period. -/
structure Member where
  p : Nat
  share : Option CompOut
  u : Int
  h : Nat
  cmd : Command
  late : Bool

/-- The command of a member: u is the selector output, or the demand of a gang. -/
def State.memberRun (s : State) (w : Work) (x : PeriodIn) (u inj : Int) (first : Bool) (q : Nat) :
    Member :=
  let lp := (s.spAt q).loop
  let h := ffHalf lp.ffh (s.spAt q).meas.wI first
  let share := if w.gang then
      let o := s.shareRun w q u
      match lp.closing with
      | some c =>
        some (if first then o.force (s.blockOf w.fig 3) (s.outputFor w.fig q h c) else o)
      | none => some o
    else none
  let v := match share with
    | some o => o.u
    | none => u
  { p := q, share := share, u := v, h := h
    cmd := s.command w.fig q h v inj (PeriodIn_short x q), late := PeriodIn_late x q }

/-- Integrators that stop beyond saturation and the range window: a sense-lead check holds the words
of the pair, a span change the voltage, a missed heartbeat a standby's shadow (R370, R295, R599). -/
def State.stops (s : State) (mem : List Nat) (loop : Nat) : Bool :=
  let checkV := mem.any (fun q => (s.spAt q).sup.checking)
  let checkI := mem.any (fun q => (s.spAt q).sup.checking && s.leadCurrent q)
  let span := mem.any s.spanHeld
  (s.aside && s.twin.shadowStop) ||
    (if loop = 0 then checkV || span
     else if loop = 2 then checkV || checkI || span else checkI)

/-- Write one member's command and words; out is the output state after the period. -/
def State.memberWrite (s : State) (w : Work) (b : Bounds) (gov : Nat) (out : OutState) (sp : Int)
    (inj : Option Nat) (anySat : Bool) (k : Member) : State :=
  let p := k.p
  let x := s.spAt p
  let window := x.force.win.isSome
  let code := if k.late then x.force.outCode else k.cmd.code
  let ls := lsWord (outCode out) gov window (inj == some p) (k.h == 1) k.late (!k.late && k.cmd.sat) code
  let stop := anySat || window || s.stops w.mem 1
  let t := s.modForce p (fun y =>
    { y with
      inCode := code
      setpoint := sp
      out := if y.out == .standby then y.out else out
      spanHold := 0
      iClip := b.iClip
      flags := y.flags ||| bitAt (b.iClip && !y.iClip) 8 |||
        bitAt (out == .ramp && s.slewClips w.fig w.m) 7 })
  let t := t.modLoop p (fun y =>
    { y with
      shadow := out
      closing := if k.late then y.closing else none
      ls := ls
      ff := if k.late then y.ff else k.cmd.ff
      ffh := k.h
      uSel := if k.late then y.uSel else k.u
      prevV := s.chanV p
      share := match k.share with
        | some o => if k.late then y.share else (o.integrate (!stop)).comp
        | none => y.share
      detail := at32 k.cmd.idx 17 ||| bitAt (k.h == 1) 16
      flags := y.flags ||| bitAt (!k.late && k.cmd.sat) 0 ||| bitAt (w.gang && anySat) 8 })
  t.reportGov p gov (some w.fig)

/-- Write the outer loops of a figure on its master channel. -/
def State.outerWrite (s : State) (w : Work) (b : Bounds) (sel : Selected) (clip folded anySat window : Bool) :
    State :=
  let old := (s.spAt w.m).loop
  let stopped (k : Nat) : Bool := anySat || s.stops w.mem k || (window && k != 0)
  let limit := !window && old.spGov && !sel.spGov && old.gov != 0
  let stops := nsum ((List.range 3).map (fun k => b2n (stopped k) * 2 ^ k))
  let done := sel.loops.map (fun r => s.settleRan w sel (!stopped r.role.loop) r)
  let clamped := loopBits ((done.filter (fun r => r.2)).map (fun r => r.1)) (fun _ => true)
  let t := s.modLoop w.m (fun y =>
    let z := done.foldl (fun z r => match r.1.run with
      | some o => z.putComp r.1.role.loop o.comp
      | none => z) y
    { z with
      spGov := sel.spGov
      vUp := sel.vUp
      iUp := sel.iUp
      demand := if w.gang then sel.uSel else y.demand
      detail := z.detail ||| bitAt (sel.fold || folded) 15 ||| at32 stops 12 ||| at32 clamped 8 |||
        at32 sel.lower 4 ||| at32 sel.upper 0
      flags := z.flags ||| bitAt limit 1 ||| bitAt (sel.gov == 4) 2 ||| bitAt clip 3 ||| bitAt b.vmin 4 })
  if limit then t.raiseFig w.fig 11 else t

/-- Write a capture entry of an injection (R346): 21 make a packet. -/
def State.tuneEntry (s : State) (g f : Nat) (d : Int) (stamp : DWord) : State :=
  match (s.grpAt g).tune with
  | none => s
  | some t =>
    if !t.started || t.fig != f then s
    else
      let x := s.spAt t.port
      let e : List DWord :=
        [w32 (sat32 (x.loop.uSel / 2 ^ 20)) ++ w32 d, w32 x.meas.wI ++ w32 x.meas.wV,
         BitVec.ofNat 32 t.k ++ x.loop.ls]
      let take := t.k % t.dec == 0
      let t1 : Tune :=
        { t with
          entries := if take then t.entries ++ e else t.entries
          nEntries := if take then t.nEntries + 1 else t.nEntries
          stamp := if take && t.entries.isEmpty then stamp else t.stamp
          written := if take then t.written + 1 else t.written }
      let s1 := s.modGrp g (fun y => { y with tune := some t1 })
      let s2 := if t1.nEntries = 21 then s1.tuneFlush g else s1
      s2.modGrp g (fun y => { y with tune := y.tune.map (fun t =>
        { t with
          k := t.k + 1
          sr := if t.wave != 0 && (t.k + 1) % t.prbsL == 0 then prbsNext t.wave t.sr else t.sr }) })

/-- Evaluate a figure whose loops are closed, on its master m and its members (R317 to R339). -/
def State.evalFigure (s : State) (f m : Nat) (mem : List Nat) (x : PeriodIn) : State :=
  let w := s.workOf f m mem
  let b := s.boundsOf w
  let lp := (s.spAt m).loop
  let win := (s.spAt m).force.win
  let window := win.isSome
  let hold := (win.bind (fun y => y.holdV)).isSome
  let first := lp.closing.isSome && !hold
  let set := s.setpointOf w b first
  let want := s.levelTarget w b set.1 set.2
  let cl := clampTarget w b want
  let inj := s.injection f (m / 8) window
  let ran := (s.roles w b cl (if inj.2.1 then inj.1 else 0)).map (s.runRole w)
  let h := ffHalf lp.ffh (s.spAt m).meas.wI first
  let ran := match lp.closing with
    | none => ran
    | some c =>
      let u := if w.gang then (if hold then lp.demand else w.qI * 65536) else s.outputFor f m h c
      ran.map (fun r => if first || r.role.loop == 0 then s.forceRan w r u else r)
  let sel := s.selected w ran window first
  let late := PeriodIn_late x m
  let u := if late && w.gang then lp.demand else sel.uSel
  let kids := mem.map (fun q =>
    s.memberRun w x u (if !inj.2.1 && inj.2.2 == some q then inj.1 * 2 ^ 20 else 0) first q)
  let anySat := kids.any (fun k => !k.late && k.cmd.sat)
  let gov := if late then lp.gov else sel.gov
  let out : OutState := if late then outOf (s.spAt m) else if set.2 then .regulating else .ramp
  let sp := if late then (s.spAt m).force.setpoint else set.1
  let t := kids.foldl (fun t k => t.memberWrite w b gov out sp inj.2.2 anySat k) s
  let t := if late then t else t.outerWrite w b sel (cl.2.1 || cl.2.2)
      (!isVolt w.mode && (cl.2.1 && b.foldSrc || cl.2.2 && b.foldSnk)) anySat window
  t.tuneEntry (m / 8) f inj.1 (s.grpAt (m / 8)).tickMt

/-- A channel whose loops are open: a ramp to SAFE_CODE goes on, a held code stays (R291, R371). -/
def State.openChannel (s : State) (p : Nat) (x : PeriodIn) : State :=
  let y := s.spAt p
  let late := PeriodIn_late x p && (y.force.driven || y.force.out == .standby)
  let down := y.force.down.map (fun r => if r.j < r.n then { r with j := r.j + 1 } else r)
  let code := if late then y.force.outCode
    else match down with
      | some r => if y.sup.held then y.force.inCode else r.code (s.safeCode p)
      | none => if y.sup.held then y.force.inCode else s.safeCode p
  let gov := if y.sup.held then y.loop.gov else 0
  let t := s.modForce p (fun z => { z with inCode := code, down := down, spanHold := 0 })
  let t := t.modLoop p (fun z =>
    { z with
      ls := lsWord (outCode (outOf y)) gov y.force.win.isSome false (z.ffh == 1) late false code
      detail := at32 7 12
      prevV := s.chanV p
      spGov := if y.sup.held then z.spGov else false
      uSel := if y.sup.held then z.uSel else 0
      ff := 0 })
  t.reportGov p gov (if s.recordFig p < 4096 && s.defined (s.recordFig p) then some (s.recordFig p)
    else none)

/-- Count the overruns of a group's channels (R342). -/
def State.overruns (s : State) (p : Nat) (x : PeriodIn) : State :=
  let y := s.spAt p
  if PeriodIn_late x p && (y.force.driven || y.force.out == .standby) then
    (s.modLoop p (fun z =>
      { z with ovrRun := z.ovrRun + 1, ovrCnt := bump z.ovrCnt, flags := z.flags ||| 0x20#32 })).raisePort
      p 10
  else s.modLoop p (fun z => { z with ovrRun := 0 })

/-- Evaluate every channel of a group (R28). -/
def State.evalGroup (s : State) (g : Nat) (x : PeriodIn) : State :=
  (List.range 8).foldl (fun t k =>
    let p := 8 * g + k
    let t1 := match t.serves p with
      | some f =>
        let mem := (t.gangOf p).filter (fun q => loopsClosed (t.spAt q))
        if !loopsClosed (t.spAt p) then t.openChannel p x
        else if mem.head? = some p then t.evalFigure f p mem x else t
      | none => t.openChannel p x
    t1.overruns p x) s

end Sys2Proof.Machine
end

