-- ==== Sys2Proof/Machine/Watch.lean ====
section
/-! DEFINITION. What a group does with a period's samples beside the loops: the plausibility model
(R366, R367), automatic ranging (R304 to R306), frozen counts (R369), the snapshot history (R373). -/

namespace Sys2Proof.Machine

/-! ## The plausibility model (R366, R367): voltages in 2^-16 nV (log entry 17) -/

/-- e^(-a/b) in units of 2^-96: sixty-fourth of the exponent by its series, squared six times. -/
def expTerms (x : Int) : Nat → Int → Nat → Int
  | 0, _, _ => 0
  | n + 1, t, k => t + expTerms x n (-(t * x / 2 ^ 96) / ((k + 1 : Nat) : Int)) (k + 1)
def squares : Nat → Int → Int
  | 0, x => x
  | n + 1, x => squares n (x * x / 2 ^ 96)
def expNeg (a b : Nat) : Int :=
  squares 6 (expTerms ((a : Int) * 2 ^ 96 / ((64 * b : Nat) : Int)) 24 (2 ^ 96) 0)

/-- A voltage in V in units of 2^-16 nV. -/
def fineVolts (v : Frac) : Int := (v.mul ⟨65536000000000, 1⟩).round

/-- Time constant of the stage model, ns. -/
def State.modelTau (s : State) (p : Nat) : Nat :=
  let t := s.castN 0x446 p
  if t = 0 then max (dn (s.descOf p) 0x48 2) 100 else t

/-- The loop sample of a channel is evaluated (R367), its hold-off apart. -/
def State.modelRuns (s : State) (p : Nat) (window span sat : Bool) : Bool :=
  let x := s.spAt p
  loopsClosed x && !window && !span && !sat && !x.sup.checking && (s.serves p).isSome

/-- One loop sample of the model of a port: the residuals, and whether one exceeds fig.res_lim. window,
span and sat say what the sample met. -/
def State.modelStep (s : State) (p : Nat) (window span sat : Bool) : State :=
  let x := s.spAt p
  let d := s.descOf p
  let v := fineVolts (s.voltsNow p)
  let mo := x.sup.model
  let reset (m : Model) : Model := { m with x := v, hist := [(v, v, x.meas.wI, 0)], since := 0 }
  if !s.modelRuns p window span sat || 0 < mo.holdoff then
    s.modSup p (fun y =>
      { y with
        model := reset { y.model with
          holdoff := if s.modelRuns p window span sat then y.model.holdoff - 1 else y.model.holdoff }
        resV := 0#32, resI := 0#32, resid := false })
  else
    let f := (s.serves p).getD 0
    let n := s.castN 0x427 f
    let c := x.sup.codes.getD 1 x.force.outCode
    let vf := fineVolts ((dGain d).mul ⟨20 * c, 2 ^ 20⟩)
    let keep := expNeg (s.periodNs (p / 8)) (s.modelTau p)
    let xk := vf + (mo.x - vf) * keep / 2 ^ 96
    let hist := ((xk, v, x.meas.wI, 0) :: mo.hist).take (n + 1)
    let old := hist.getLast?.getD (xk, v, x.meas.wI, 0)
    let rV := (v - old.2.1) - (xk - old.1)
    let span := (vFs x.force.vspan).mul ((dScale d).mul ⟨2 * 65536000000000, 1⟩)
    let ppm10 := (((⟨rV, 1⟩ : Frac).mul ⟨10000000, 1⟩).div span).round
    let fit := s.castN 0x164 0 ≤ mo.fitted
    let rI := if fit then sat32 s.freeInt else 0
    let lim := s.castN 0x426 f
    let past (r : Int) : Bool := decide ((lim : Int) * 10 < r.natAbs)
    let bad := lim != 0 && (past ppm10 || (s.castN 0x437 f == 1 && fit && past rI))
    let s1 := if fit then s.fresh else s
    s1.modSup p (fun y =>
      { y with
        model := { y.model with x := xk, hist := hist, since := y.model.since + 1
                                fitted := y.model.fitted + 1 }
        resV := w32 (sat32 ppm10)
        resI := w32 rI
        resid := bad
        flags := y.flags ||| bitAt bad 5 })

/-- A residual fault applies the figure's fault policy (R367, R368, R371). -/
def State.residualFault (s : State) (p : Nat) : State :=
  if (s.spAt p).sup.resid then
    s.fault p (bitAt true 8) (s.spAt p).meas.sampleMt 0
      (match s.serves p with
       | some f => s.castN 0x427 f
       | none => 0)
  else s

/-! ## Automatic ranging (R304 to R306) -/

/-- A word's magnitude on full scale a lies inside 90 % of full scale b. -/
def inside (w : Int) (a b : Frac) : Bool :=
  ((⟨w.natAbs, 2 ^ 30⟩ : Frac).mul a).le (b.mul ⟨9, 10⟩)

/-- Advance the counts of the lower choices. -/
def countDown (old : List Nat) (l : List Nat) (ok : Nat → Bool) : List Nat :=
  (List.range l.length).map (fun i => if ok (l.getD i 0) then old.getD i 0 + 1 else 0)

/-- What one evaluation decides: the new counts and the change that starts, if any. -/
structure Auto where
  up : Nat
  downs : List Nat
  go : Option Nat
  /-- The change is an up change. -/
  rises : Bool

/-- Evaluate the up and the down condition over the allowed indexes: a the one in force, w and full
the word and full scales, ovr the sample's OVR, bar no down change may start, down whether every member
lies inside a lower full scale. -/
def autoStep (allowed : List Nat) (a : Nat) (w : Int) (full : Nat → Frac) (ovr bar : Bool)
    (down : Nat → Bool) (pct upN downN up : Nat) (downs : List Nat) : Auto :=
  let hi := allowed.headD a
  let hot := a != hi && (ovr || decide (pct * 2 ^ 30 ≤ 100 * w.natAbs))
  let up1 := if hot then up + 1 else 0
  let fits (b : Nat) : Bool := inside w (full a) (full b)
  let lower := allowed.filter (fun b => a < b)
  let downs1 := countDown downs lower down
  let ready := (List.range lower.length).filter (fun i => downN ≤ downs1.getD i 0)
  if hot && (ovr || upN ≤ up1) then
    let t := if ovr then hi else (bestRange (allowed.filter (fun b => b < a)) fits).getD hi
    { up := 0, downs := [], go := some t, rises := true }
  else if !bar && !ready.isEmpty then
    { up := up1, downs := downs1, go := (ready.getLast?).map (fun i => lower.getD i a), rises := false }
  else { up := up1, downs := downs1, go := none, rises := false }

/-- The member of a gang with the largest current word. -/
def State.largest (s : State) (mem : List Nat) : Nat :=
  mem.foldl (fun a q =>
    if (s.spAt a).meas.wI.natAbs < (s.spAt q).meas.wI.natAbs then q else a) (mem.headD 0)

/-- The count of a requested lower full scale or smaller span that waits, after one more sample (R306). -/
def waitStep (ok : Bool) (n : Nat) : Nat := if ok then n + 1 else 0

/-- A range request waits on every member of a gang. -/
def State.pendRange (s : State) (p : Nat) (b : Option Nat) : State :=
  (s.gangOf p).foldl (fun t q => t.modForce q (fun y =>
    { y with downPend := b, waited := 0, reqRun := 0 })) s

/-- A span request waits on every member of a gang. -/
def State.pendSpan (s : State) (p : Nat) (v : Option Nat) : State :=
  (s.gangOf p).foldl (fun t q => t.modForce q (fun y =>
    { y with spanPend := v, waited := 0, spanReqRun := 0 })) s

/-- Every member of a port's gang has its current inside a range (R306). -/
def State.allInside (s : State) (m b : Nat) : Bool :=
  (s.gangOf m).all (fun q =>
    let d := s.descOf q
    inside (s.lastI q) (ampsFull d (s.spAt q).force.rng) (ampsFull d b))

/-- A request has waited longer than one period: DOWN_WAIT (R306). -/
def State.waitFlag (s : State) (m : Nat) : State :=
  s.modForce m (fun z => { z with flags := z.flags ||| bitAt (1 ≤ z.waited) 5 })

/-- Automatic ranging and automatic span are suspended: from a pulse point's firing to its trailing edge
(R394). -/
def State.autoOff (s : State) (f : Nat) : Bool := (s.figAt f).flight.any (fun q => ptPulse q.entry)

/-- Evaluate the current range of a figure on its master m, with the loop sample of the period before
this tick (R304, R306, Table 11.4): a request that waited for a window starts when it asks for a higher
full scale; while one for a lower full scale waits, automatic evaluation goes on, and an up change
cancels it. -/
def State.autoRange (s : State) (f m : Nat) : State :=
  let x := s.spAt m
  let o := outOf x
  let live := o == .ramp || o == .regulating || o == .rampDown
  if !live || x.force.win.isSome then s
  else
    let q := s.largest (s.gangOf m)
    let y := s.spAt q
    let d := s.descOf q
    let downN := s.castN 0x41F f
    let bar := o == .rampDown || ((s.figAt f).apOpen.isSome && s.castN 0x420 f == 1)
    let a := autoStep (s.allowed f m) x.force.rng (s.lastI q) (ampsFull d) (y.meas.statI.getLsbD 6) bar
      (s.allInside m) (s.castN 0x41D f) (s.castN 0x41E f) downN x.force.upRun x.force.downRuns
    let off := s.autoOff f
    let go := if x.force.rngAuto && !off then a.go else none
    let put (t : State) : State :=
      if x.force.rngAuto then t.modForce m (fun z =>
        { z with upRun := if off then 0 else a.up, downRuns := if off then [] else a.downs }) else t
    match x.force.downPend with
    | some b =>
      let n := waitStep (s.allInside m b) x.force.reqRun
      if b = x.force.rng then put (s.pendRange m none)
      else if b < x.force.rng then s.rangeStart m b true
      else if go.isSome && a.rises then (s.cancelRange f).rangeStart m (go.getD b) false
      else if downN ≤ n && o != .rampDown then (s.waitFlag m).rangeStart m b true
      else
        let t := ((put s).waitFlag m).modForce m (fun z => { z with reqRun := n, waited := z.waited + 1 })
        match go with
        | some c => if c = b then t.rangeStart m c false else (t.rangeStart m c false).pendRange m (some b)
        | none => t
    | none =>
      match go with
      | some c => (if a.rises then s else put s).rangeStart m c false
      | none => put s

/-- Evaluate the voltage span of a figure on its master m (R305, R306). -/
def State.autoSpan (s : State) (f m : Nat) : State :=
  let x := s.spAt m
  let o := outOf x
  let live := o == .ramp || o == .regulating || o == .rampDown
  if !live || s.spanHeld m then s
  else
    let downN := s.castN 0x41F f
    let change (t : State) (v : Nat) : State := (t.gangOf m).foldl (fun t q => t.spanChange q v) t
    let bar := o == .rampDown || ((s.figAt f).apOpen.isSome && s.castN 0x420 f == 1)
    let low (v : Nat) : Bool := inside (s.lastV m) (vFs x.force.vspan) (vFs v)
    let a := autoStep [0, 1, 2, 3] x.force.vspan (s.lastV m) vFs (x.meas.statV.getLsbD 6) bar low
      (s.castN 0x41D f) (s.castN 0x41E f) downN x.force.spanUpRun x.force.spanDownRuns
    let off := s.autoOff f
    let go := if x.force.vspanAuto && !off then a.go else none
    let put (t : State) : State :=
      if x.force.vspanAuto then t.modForce m (fun z =>
        { z with spanUpRun := if off then 0 else a.up, spanDownRuns := if off then [] else a.downs })
      else t
    match x.force.spanPend with
    | some v =>
      let n := waitStep (low v) x.force.spanReqRun
      if v = x.force.vspan then put (s.pendSpan m none)
      else if v < x.force.vspan then change s v
      else if go.isSome && a.rises then change (s.cancelSpan f) (go.getD v)
      else if downN ≤ n && o != .rampDown then change (s.waitFlag m) v
      else
        let t := ((put s).waitFlag m).modForce m (fun z =>
          { z with spanReqRun := n, waited := z.waited + 1 })
        match go with
        | some c => if c = v then change t c else (change t c).pendSpan m (some v)
        | none => t
    | none =>
      match go with
      | some c => change (if a.rises then s else put s) c
      | none => put s

/-! ## Trip snapshots (R373, R480) -/

/-- Payload of a list of samples: three words for a pair. -/
def snapWords : List (Word × Word × Word) → List DWord
  | [] => []
  | [a] => [a.2.1 ++ a.1, (0#32) ++ a.2.2]
  | a :: b :: t => (a.2.1 ++ a.1) :: (b.1 ++ a.2.2) :: (b.2.2 ++ b.2.1) :: snapWords t

/-- Packets of a snapshot: the samples oldest first, the index of the first, 42 a packet. -/
def snapPackets (port : Nat) (seq : Word) : Nat → Int → List (Word × Word × Word) → List (List DWord)
  | 0, _, _ => []
  | n + 1, first, l =>
    if l.isEmpty then []
    else
      let part := l.take 42
      let w0 : DWord := BitVec.ofNat 64
        (port * 2 ^ 56 + part.length * 2 ^ 48 + (BitVec.ofInt 16 first).toNat * 2 ^ 32 + seq.toNat)
      (w0 :: snapWords part) :: snapPackets port seq n (first + 42) (l.drop 42)

/-- Build the packets of a port's trip snapshot with the samples it has; what the history lacks reads
0. -/
def State.snapBuild (s : State) (p : Nat) : State :=
  match (s.spAt p).sup.snapRun with
  | none => s
  | some (seq, mt, f, left) =>
    let have_ := (s.spAt p).sup.snap
    let all := (have_ ++ List.replicate (320 - have_.length) (0#32, 0#32, 0#32)).take (320 - left)
    let packets := snapPackets p seq 8 (-256) all.reverse
    let t := s.modSup p (fun x => { x with snapRun := none })
    if f < 4096 && s.defined f then
      packets.foldl (fun t w => t.produce (64 * f + 3) { key := seq, stamp := mt, payload := w }) t
    else t

/-- Keep a period's sample in the history, and go on with a snapshot. -/
def State.snapTake (s : State) (p : Nat) : State :=
  let x := s.spAt p
  let e := (w32 x.meas.wV, w32 x.meas.wI, x.loop.ls)
  let t := s.modSup p (fun y =>
    { y with
      snap := (e :: y.snap).take 320
      snapRun := y.snapRun.map (fun r => (r.1, r.2.1, r.2.2.1, r.2.2.2 - 1)) })
  match (t.spAt p).sup.snapRun with
  | some (_, _, _, 0) => t.snapBuild p
  | _ => t

end Sys2Proof.Machine
end

