-- ==== Sys2Proof/Machine/Wipe.lean ====
section
/-! DEFINITION. What the host's live actions leave for the next loop tick of a group (R17): W1C writes,
cleared latches, cleared trips. -/

namespace Sys2Proof.Machine

/-- W1C: each 1 clears its flag. -/
def wipe {w : Nat} (flags v : BitVec w) : BitVec w := flags &&& ~~~v

/-- Two 16-bit counters of one register: each is cleared by all-ones in its own field (R10). -/
def clearHigh (c : BitVec 16) (v : Word) : BitVec 16 := clearCounter c (v.extractLsb' 16 16)
def clearLow (c : BitVec 16) (v : Word) : BitVec 16 := clearCounter c (v.extractLsb' 0 16)

/-- A W1C write is accepted; it takes effect at its group's next loop tick (R17). -/
def State.wipeAsk (s : State) (g off sel : Nat) (v : Word) : State :=
  s.modGrp g (fun x => { x with w1c := x.w1c ++ [⟨off, sel, v⟩] })

/-- A W1C write to a register of a group, port or figure takes effect (Tables 9.12, 11.8, 12.11, 13.9,
14.17). -/
def State.wipeNow (s : State) (w : W1c) : State :=
  let v := w.value
  let off := w.off
  if off < 0x480 then s.modAcq ((off % 64) / 4) (fun a => { a with flags := wipe a.flags v })
  else if off < 0x500 then s.modAcq ((off % 64) / 4) (fun a =>
    { a with auxOvr := clearHigh a.auxOvr v, tmiss := clearLow a.tmiss v })
  else if off = 0x58C then s.modForce w.sel (fun x => { x with flags := wipe x.flags v })
  else if off = 0x590 then s.modForce w.sel (fun x =>
    { x with rngDownCnt := clearHigh x.rngDownCnt v, rngUpCnt := clearLow x.rngUpCnt v })
  else if off = 0x594 then s.modForce w.sel (fun x => { x with scCnt := clearCounter x.scCnt v })
  else if off = 0x60C then s.modLoop w.sel (fun x => { x with flags := wipe x.flags v })
  else if off = 0x620 then s.modLoop w.sel (fun x => { x with ovrCnt := clearCounter x.ovrCnt v })
  else if off = 0x624 then s.modLoop w.sel (fun x => { x with govCnt := clearCounter x.govCnt v })
  else if off = 0x68C then s.modSup w.sel (fun x => { x with flags := wipe x.flags v })
  else if off = 0x69C then s.modSup w.sel (fun x => { x with tripCnt := clearCounter x.tripCnt v })
  else if 0x6C0 ≤ off ∧ off < 0x700 then
    s.modGrp ((off - 0x6C0) / 4) (fun x => { x with ovf := clearHigh x.ovf v })
  else if off = 0x70C then s.modFig w.sel (fun x => { x with flags := wipe x.flags v })
  else if off = 0x710 then s.modFig w.sel (fun x => { x with doneCnt := clearCounter x.doneCnt v })
  else if off = 0x714 then s.modFig w.sel (fun x => { x with failCnt := clearCounter x.failCnt v })
  else if off = 0x718 then s.modFig w.sel (fun x => { x with nrunCnt := clearCounter x.nrunCnt v })
  else s

/-- A register of flags; the others hold counters. -/
def W1c.isFlags (w : W1c) : Bool :=
  w.off < 0x480 || w.off == 0x58C || w.off == 0x60C || w.off == 0x68C || w.off == 0x70C

/-- Flags are cleared as the tick begins, so that one which it sets stands. -/
def State.wipeFlags (s : State) (g : Nat) : State :=
  let l := (s.grpAt g).w1c
  if l.isEmpty then s
  else (l.filter W1c.isFlags).foldl State.wipeNow
    (s.modGrp g (fun x => { x with w1c := l.filter (fun w => !w.isFlags) }))

/-- Counters are cleared as the tick ends: a clear wins over an increment of its clock (R10). -/
def State.wipeCounters (s : State) (g : Nat) : State :=
  let l := (s.grpAt g).w1c
  if l.isEmpty then s else l.foldl State.wipeNow (s.modGrp g (fun x => { x with w1c := [] }))

/-- The trips and the monitor latches of a port that are to clear at this tick (R355, R364). -/
def State.clearsNow (s : State) (p : Nat) : State :=
  let x := (s.spAt p).sup
  let t := if x.monDue = 0 then s
    else (s.clearLatches p x.monDue).modSup p (fun y => { y with monDue := 0 })
  if x.clearDue then (t.clearTrip p).tell 5 else t

/-- A group's live actions at its loop tick. -/
def State.actionsNow (s : State) (g : Nat) : State := (s.wipeFlags g).eachPort g State.clearsNow

end Sys2Proof.Machine
end

