-- ==== Sys2Proof/Machine/Period.lean ====
section
/-! DEFINITION. The loop-period boundary of a group (R27, R28): strobe, samples, evaluation and what
follows a period. The row of tick n leaves the group before tick n + 1 (log entry 19). -/

namespace Sys2Proof.Machine

/-! ## A standby's shadow (R599) -/

/-- Output state of an OUT code. -/
def outOfCode (n : Nat) : OutState :=
  [OutState.off, .armed, .ramp, .regulating, .rampDown, .park, .tripped, .standby].getD n .off

/-- The window a channel record shows. -/
def State.recordWindow (s : State) (p : Nat) (r : ChanRec) : Option Window :=
  let phase := bits r.rng 15 14
  if phase = 0 then none
  else
    let x := s.spAt p
    let d := s.descOf p
    let rng := bits r.rng 2 0
    let b := bits r.rng 5 3
    let a := if phase = 1 then rng else match x.force.win with
      | some w => w.a
      | none => b
    let held := match x.force.win with
      | some w => w.heldI
      | none => x.meas.wI
    let hold := if bits r.ls 22 20 = 6 then
        some ((x.force.win.bind (fun w => w.holdV)).getD x.meas.wV)
      else none
    some
      { a := a, b := b, tick := r.win, k := s.ticksUs (p / 8) (dMake d b)
        j := max 1 (s.ticksUs (p / 8) (dBreak d a)), heldI := held, holdV := hold, requested := false }

/-- A setpoint word in the ramp's unit. -/
def State.wordToRamp (s : State) (p : Nat) (w : Int) : Int :=
  match s.serves p with
  | none => 0
  | some f =>
    let x := (s.spAt p).force
    let mode := (s.figAt f).mode
    if isVolt mode then toRamp (voltsOf (s.descOf p) x.vspan w)
    else toRamp (if mode = 2 then (ampsOf (s.descOf p) x.rng w).neg else ampsOf (s.descOf p) x.rng w)

/-- A channel takes its record's values and evaluates on from them. -/
def State.shadowPort (s : State) (p : Nat) : State :=
  match tget? s.twin.chans p with
  | none => s
  | some r =>
    if (s.spAt p).force.out != .standby then s
    else
      let rng := bits r.rng 2 0
      let win := s.recordWindow p r
      let t := s.modForce p (fun x =>
        { x with
          rng := rng
          vspan := bits r.rng 13 12
          win := win
          downPend := if r.rng.getLsbD 16 then some (bits r.rng 5 3) else none })
      let sp := t.wordToRamp p r.sp
      let tgt := t.wordToRamp p r.tgt
      let int (k : Nat) : Int := r.integ.getD k 0
      let t := t.modForce p (fun x => { x with setpoint := sp, target := tgt })
      t.modLoop p (fun x =>
        { x with
          shadow := outOfCode (bits r.ls 31 29)
          gov := bits r.ls 22 20
          ffh := b2n (r.ls.getLsbD 26)
          closing := none
          v := { x.v with integ := int 0 }
          i := { x.i with integ := int 1 }
          x := { x.x with integ := int 2 }
          share := { x.share with integ := int 3 } })

/-- The standby is warm (R598, R603). -/
def State.warmNow (s : State) : Bool :=
  s.twin.link == .up && !s.twin.resync && s.twin.stateSeen == s.allGroups &&
    s.twin.last.any (fun b => b.digest == s.sets.digest && (b.hu == .normal || b.hu == .ride))

/-- Bring a standby's warmth up to date; twin.warm is raised as it becomes true (R598). -/
def State.reWarm (s : State) : State :=
  if s.twin.role != .standby then s
  else
    let w := s.warmNow
    let up := w && !s.twin.warm
    let t := s.modTwin (fun x => { x with warm := w, annDirty := if up then [] else x.annDirty })
    if up then t.raise 0xA86 else t

/-- RNGn lines a channel record shows low (Table 23.3). -/
def recordLines (r : ChanRec) : List Nat := (List.range 6).filter (fun k => r.rng.getLsbD (6 + k))

/-- Drive low the lines a record shows low, ahead of a handover's boundary (R608 step 2). -/
def State.drivePort (s : State) (p : Nat) : State :=
  match tget? s.twin.chans p with
  | none => s
  | some r =>
    let o := outOfCode (bits r.ls 31 29)
    if (s.spAt p).force.out != .standby then s
    else s.modForce p (fun x =>
      { x with
        en := o == .ramp || o == .regulating || o == .rampDown
        lines := if o == .off || o == .tripped then [] else recordLines r })

/-- A standby applies the records that wait for this boundary of a group. -/
def State.shadowApply (s : State) (g : Nat) : State :=
  if s.aside && s.twin.chansDue.getLsbD g then
    let t := s.eachPort g State.shadowPort
    let t := if s.twin.handover.isSome then t.eachPort g State.drivePort else t
    (t.modTwin (fun x =>
      { x with
        chansDue := x.chansDue &&& ~~~(BitVec.twoPow 16 g), shadowStop := false
        stateSeen := x.stateSeen ||| BitVec.twoPow 16 g })).reWarm
  else s

/-! ## The start of a period -/

/-- The tick: its number, its stamp, its place in the 4 µs frame (R9, R27, R313). -/
def State.tickStart (s : State) (g : Nat) : State :=
  (s.modGrp g (fun x =>
    { x with
      tick := x.tick + 1#48, epoch := x.epoch != (x.tick == BitVec.allOnes 48), tickMt := s.mt.mt
      tickClk := s.clk, frame := (x.frame + 1) % 2 ^ x.rate
      frames := x.frames + b2n (x.frame == 0) })).raiseGrp g 0

/-- The load strobe of one port (R280): a standby's codes are loaded too (R599). -/
def State.strobePort (s : State) (p : Nat) : State :=
  let x := (s.spAt p).force
  let code := if x.driven || x.out == .standby then x.inCode else s.safeCode p
  (s.modForce p (fun y => { y with outCode := code })).modSup p (fun y =>
    { y with codes := (code :: y.codes).take 4098 })

/-- A site change goes on once the command stands at SAFE_CODE, or with SITE_HOT as it is, and no aperture
of the port is open (R170, R390, R391, log entry 129). -/
def State.siteStrobe (s : State) (p : Nat) : State :=
  let x := (s.spAt p).force
  match x.siteNext with
  | none => s
  | some j =>
    let d := s.descOf p
    let hot := dSiteHot d && !s.shared p
    if !(hot || atSafe x) || (s.spAt p).meas.integ.isSome then s
    else
      let wait := s.ticksUs (p / 8) (if hot then dn d 0xA4 2 else dn d 0xA6 2 + dn d 0xA4 2)
      let t := (s.strobe p j).modForce p (fun y =>
        { y with siteNext := none, siteWait := if dSites d = 0 then 0 else wait })
      match t.serves p with
      | some f =>
        match (t.figAt f).flight with
        | some q => if t.master f = some p then t.ptRangeWork f p q.entry (!hot) else t
        | none => t
      | none => t

/-- Latches of LATCH = 1 clear at the boundary (R355). -/
def State.latchClear (s : State) (p : Nat) : State :=
  let l := (s.spAt p).sup.mon
  s.modSup p (fun x => { x with mon := (List.range l.length).map (fun k =>
    let m := l.getD k Mon.init
    if (s.monCtrl p k).getLsbD 6 then { m with latch := false } else m) })

/-- A forced trip falls on this tick (R374). -/
def State.forcedTrip (s : State) (p : Nat) : State :=
  if (s.spAt p).sup.force then
    (s.modSup p (fun x => { x with force := false })).trip p (bitAt true 13) s.mt.mt 0
  else s

/-- What a figure's commands asked of this tick: totals cleared, the list stopped (R277, R405). -/
def State.figTick (s : State) (f : Nat) : State :=
  let t := if (s.figAt f).totClear then
      s.modFig f (fun x => { x with qTot := 0#64, eTot := 0#64, totClear := false })
    else s
  t.stopNow f

/-- The injection of a group starts or ends at this tick (R344, R347). -/
def State.tuneTick (s : State) (g : Nat) : State :=
  match (s.grpAt g).tune with
  | none => s
  | some t =>
    if t.cut then s.tuneEnd g false
    else if t.stop || (t.started && t.n ≤ t.k) then s.tuneEnd g true
    else if !t.started && (t.start = 0#64 || mtLe t.start s.mt.mt) then
      s.modGrp g (fun x => { x with tune := some { t with started := true, startMt := s.mt.mt } })
    else s

/-! ## What a period leaves -/

/-- An enabled port's power counts towards the mean of its mains cycle (R195). -/
def State.powerTake (s : State) (p : Nat) : State :=
  if portOn (s.spAt p) then
    let w := (((s.voltsNow p).mul (s.ampsNow p)).abs.mul ⟨1000000, 1⟩).round.toNat
    s.modSp p (fun x =>
      { x with meas := { x.meas with cycSum := x.meas.cycSum + w, cycN := x.meas.cycN + 1 } })
  else s

/-- Taps of a period the data plane did not take (R22, R270). -/
def State.tapsLost (s : State) (g : Nat) : State :=
  if s.rst.dataUp then s
  else
    let t := { s with misc := { s.misc with tapDisc := bump s.misc.tapDisc } }
    (s.figsIn g).foldl (fun t f =>
      if (s.figAt f).enabled && s.castN 0x417 f == 1 then t.modFig f (fun y => { y with totGap := true })
      else t) t

/-! ## Snapshots and ACQ_MEAS_NOW (R274, R581) -/

/-- The 16 bytes of a port in MEAS_SNAPSHOT. -/
def State.snapPort (s : State) (p : Nat) : List Byte :=
  let x := s.spAt p
  leBytes 4 (w32 x.meas.wV).toNat ++ leBytes 4 (w32 x.meas.wI).toNat ++
  leBytes 1 x.meas.statV.toNat ++ leBytes 1 x.meas.statI.toNat ++ leBytes 1 x.meas.rng ++
  leBytes 1 x.meas.vspan ++ leBytes 1 p ++ leBytes 3 0

/-- A group gives a waiting snapshot its part at the common boundary the snapshot captures. -/
def State.snapGroup (s : State) (g : Nat) (w : SnapReq) : SnapReq :=
  if w.mask.getLsbD g && (tget? w.got g).isNone && w.target ≤ (s.grpAt g).frames then
    { w with
      boundary := if w.got.isEmpty then (s.grpAt g).tickMt else w.boundary
      got := tput w.got g ((List.range 8).flatMap (fun k => s.snapPort (8 * g + k))) }
  else w

/-- Every group of a snapshot's mask has given its part. -/
def SnapReq.full (w : SnapReq) : Bool :=
  (setBits 16 w.mask.toNat).all (fun g => (tget? w.got g).isSome)

/-- Answer a snapshot. -/
def State.snapAnswer (s : State) (w : SnapReq) : State :=
  s.answer ⟨w.mbx, 0x0B02, w.tag, w.outLen, w.outAddr, w.mtAccept⟩
    { status := stOk
      result := leBytes 8 w.boundary.toNat ++ leBytes 1 (8 * w.got.length)
      out := w.got.flatMap (fun e => e.2) }

/-- The snapshots at a common boundary of a group. -/
def State.snapTick (s : State) (g : Nat) (common : Bool) : State :=
  if !common then s
  else
    let l := s.misc.snaps.map (s.snapGroup g)
    let t := { s with misc := { s.misc with snaps := l.filter (fun w => !w.full) } }
    (l.filter SnapReq.full).foldl State.snapAnswer t

/-- Complete ACQ_MEAS_NOW of KIND 0 of a port with its loop sample. -/
def State.measNow (s : State) (p : Nat) : State :=
  let x := s.spAt p
  s.completeAll (fun o => o.opcode == 0x0A03 && o.aux == 0 && o.obj == p) (fun _ =>
    { status := stOk
      result := leBytes 4 (w32 x.meas.wV).toNat ++ leBytes 4 (w32 x.meas.wI).toNat ++
        leBytes 1 x.meas.statV.toNat ++ leBytes 1 x.meas.statI.toNat ++ leBytes 1 x.meas.rng ++
        leBytes 1 x.meas.vspan ++ leBytes 8 x.meas.sampleMt.toNat })

/-! ## Short circuit (R292) -/

/-- Read the short-circuit flag of a driven port. -/
def State.shortFlag (s : State) (p : Nat) (x : PeriodIn) : State :=
  let y := (s.spAt p).force
  let now := PeriodIn_short x p && y.driven
  let t := s.modForce p (fun z =>
    { z with
      sc := now
      scRun := if now then z.scRun + 1 else 0
      scCnt := if now then bump z.scCnt else z.scCnt
      flags := z.flags ||| bitAt now 0 })
  if now && !y.sc then t.raisePort p 7 else t

/-! ## The end of a period -/

/-- Ticks of a port's sequences go on. -/
def Force.tickOn (x : Force) : Force :=
  { x with
    seq := x.seq + 1
    siteWait := x.siteWait - 1
    win := x.win.map (fun w => { w with tick := w.tick + 1 }) }

/-- A port's check interval (R370). -/
def State.leadTick (s : State) (p : Nat) : State :=
  let on : Bool := match s.serves p with
    | some f => (s.figAt f).enabled && !s.aside
    | none => false
  let n := if on then (s.spAt p).sup.leadTicks + 1 else 0
  let ms := s.castN 0x161 0
  let late := ms != 0 && decide (s.ticksMs (p / 8) (2 * ms) ≤ n)
  s.modSup p (fun x => { x with leadTicks := n, flags := x.flags ||| bitAt late 9 })

/-- A figure's point counts the period. -/
def Fig.tickOn (x : Fig) : Fig :=
  { x with
    flight := x.flight.map (fun q =>
      { q with
        ticks := q.ticks + 1
        topTicks := if q.top then q.topTicks + 1 else q.topTicks
        waited := if q.dwellEnded then q.waited + 1 else q.waited }) }

/-- Tick apertures of a group meet a loop tick. -/
def State.apTicks (s : State) (g : Nat) : State :=
  (s.sampledFigs g).foldl (fun t f => t.modFig f (fun x => x.apTick s.mt.mt)) s

/-- The masters of a group evaluate their ranges and spans with the loop sample of the period before
this tick (R304); of ports that ramp down together the first one does (R291). -/
def State.autoTick (s : State) (p : Nat) : State :=
  match s.serves p with
  | some f => if (s.gangOf p).head? = some p then (s.autoRange f p).autoSpan f p else s
  | none => s

/-- Step 1 of Table 7.2 for a port whose last line was released at the tick before this one (R163), and
that nothing bars any more. -/
def State.enableTick (s : State) (p : Nat) : State :=
  let x := (s.spAt p).force
  match x.enableDue with
  | some f =>
    if x.lines.isEmpty && x.out == .off && 1 ≤ x.seq && !s.enableBarred p then s.enablePort f p else s
  | none => s

/-- The model of a port, with what its sample met in this period. -/
def State.modelTick (before : State) (s : State) (p : Nat) : State :=
  s.modelStep p (before.spAt p).force.win.isSome (before.spanHeld p) ((s.spAt p).loop.ls.getLsbD 24)

/-- One period of a running group. -/
def State.period (s : State) (g : Nat) (x : PeriodIn) : State :=
  let common := (s.grpAt g).frame == 0
  let t := (s.combFinish g).eachPort g State.autoTick
  let t := (t.actionsNow g).eachPort g State.leaveNow
  let t := t.eachPort g State.enableTick
  let t := ((t.tickStart g).apTicks g).shadowApply g
  let t := t.defaultTrigger g
  let t := t.eachPort g State.strobePort
  let t := (t.eachPort g State.siteStrobe).spareTick g
  let t := t.eachPort g State.latchClear
  let t := t.eachPort g State.forcedTrip
  let t := (t.figsIn g).foldl State.figTick t
  let t := (t.tuneTick g).rawStart g
  let t := (t.combStart g x).tapsLost g
  let t := t.eachPort g State.powerTake
  let t := t.eachPort g (fun t p => t.shortFlag p x)
  let before := t
  let t := t.evalGroup g x
  let t := t.eachPort g (State.modelTick before)
  let t := t.eachPort g State.snapTake
  let t := t.eachPort g State.residualFault
  let t := (t.eachPort g State.measNow).snapTick g common
  let t := t.eachPort g (fun t p => (t.modForce p Force.tickOn).leadTick p)
  let t := (t.figsIn g).foldl (fun t f => t.modFig f Fig.tickOn) t
  (t.modAcq g (fun a => { a with trigNow := false, tmissNow := false, rphNow := false })).wipeCounters g

/-- LOOP_PERIOD_BOUNDARY (R27, R28, R280, R313). A group in context reset counts its ticks, and has no
sample for a snapshot beyond its last. -/
def execLoopPeriodBoundary (grp : Nat) (p : PeriodIn) (s : State) : Host.Outcome State Fault Refusal :=
  finish s
    (if !s.hasGrp grp || !s.rst.ctrlUp then s
    else if (s.grpAt grp).ctxReset then
      (((s.actionsNow grp).tickStart grp).snapTick grp ((s.grpAt grp).frame == 0)).wipeCounters grp
    else s.period grp p)

/-! ## Aux entries (R196, R230, R236, R272) -/

/-- A stage temperature in 1/16 °C from a mean word on a span (R196). -/
def stageTemp (d : BitVec 2048) (span : Nat) (mean : Int) : Int :=
  let v := (vFs span).mul ⟨mean, 65536 * 2 ^ 30⟩
  ((((dFrac d 0x9C).add ((dFrac d 0xA0).mul v)).mul ⟨16, 1⟩)).round

/-- The armature takes a stage's temperature: hot on entry, over temperature trips (R196). -/
def State.takeTemp (s : State) (p : Nat) (temp : Int) : State :=
  let x := s.spAt p
  let d := s.descOf p
  let warm := decide (di d 0x99 1 * 16 ≤ temp)
  let past := decide (di d 0x9A 1 * 16 ≤ temp)
  let t := s.modSp p (fun y => { y with temp := some temp, warned := warm, overTemp := past })
  let t := if warm && !x.warned then t.raise 0x931 else t
  if past then t.trip p (bitAt true 9) s.mt.mt 0 else t

/-- AUX_ENTRY_END (R230, R236): inputs are those of the conversions that the slice ticks so far have not
taken. -/
def execAuxEntryEnd (grp : Nat) (inputs : List Int) (s : State) : Host.Outcome State Fault Refusal :=
  let a := (s.grpAt grp).acq
  finish s
    (if a.run.isSome && a.urgRun.isNone && s.grpRuns grp && inputs.length == a.lacking then
      let t := s.auxFill grp inputs
      match (t.grpAt grp).acq.run with
      | some x =>
        let r := t.auxResult grp x
        let t := if s.aside then t
          else if auxFig x.image = 0xFFFF then t.takeTemp r.port (stageTemp (s.descOf r.port) r.span r.mean)
          else t.auxDeliver r
        (t.modAcq grp (fun a => { a with run := none })).auxNext grp
      | none => t
    else s)

end Sys2Proof.Machine
end

