-- ==== Sys2Proof/Machine/Front.lean ====
section
/-! DEFINITION. The isolation channel (R13 to R15), the power front end and the hold-up sequence
(chapter 5), and the die temperatures (R64). Energies are in mJ, powers in mW, VBULK in 10 mV units. -/

namespace Sys2Proof.Machine

/-- Change the front end, the primary die, the isolation channel. -/
def State.modPfe (s : State) (f : Pfe → Pfe) : State := { s with pfe := f s.pfe }
def State.modPri (s : State) (f : Primary → Primary) : State := s.modPfe (fun x => { x with pri := f x.pri })
def State.modIso (s : State) (f : Iso → Iso) : State := { s with iso := f s.iso }

/-- Set bits of PFE_FAULTS (Table 5.9). -/
def State.pfeFault (s : State) (m : Word) : State := s.modPfe (fun x => { x with faults := x.faults ||| m })

/-- pfe.mode = 1 in force (R120). -/
def State.dcFed (s : State) : Bool := s.castN 0x120 0 == 1

/-- The channel is established (R15). -/
def State.established (s : State) : Bool := s.iso.rxValid && s.iso.txValid

/-- Measurements and fault reports arrive from the primary side (R123, R639). -/
def State.priSeen (s : State) : Bool := s.established && !s.iso.failed && !s.dcFed

/-- A primary fault waits for the next frame, which brings its report to PFE_FAULTS (R111). -/
def State.priFault (s : State) (m : Word) : State :=
  s.modPri (fun p => { p with reports := p.reports ||| m })

/-- pfe.v_stop as the primary die has received it since its own start (R118). -/
def Primary.vStop (p : Primary) : Option Nat := tget? p.params 0x129

/-- The bulk setpoint in force, 10 mV units: it moves at 2 V/ms to the one received (R102, R122). -/
def Primary.bulkSet (p : Primary) (clk : Nat) : Nat :=
  let d := (clk - p.rampClk) / (clocksPerMs / 200)
  let goal := 100 * p.setpoint
  if p.rampFrom ≤ goal then min goal (p.rampFrom + d) else max goal (p.rampFrom - d)

/-- A bulk setpoint arrives, V. -/
def Primary.setTo (p : Primary) (v clk : Nat) : Primary :=
  if v = p.setpoint then p
  else { p with rampFrom := p.bulkSet clk, rampClk := clk, setpoint := v }

/-! ## The PFC and BULK_OK (R102, R105, R640) -/

/-- The PFC may run: enabled, relay closed, no fault of Table 5.2 that stops it. -/
def State.pfcMay (s : State) : Bool :=
  let p := s.pfe.pri
  p.pfcEn && p.relay && p.flyback && !p.relayFault && !p.lineLoss && !p.overTemp && !p.isoFailed &&
    decide (p.restart ≤ s.clk)

/-- Start the PFC where it may run: the setpoint ramps from the measured VBULK (Table 5.1 step 6). -/
def State.pfcTry (s : State) : State :=
  if s.pfcMay && !s.pfe.pri.pfcRun then
    s.modPri (fun p => { p with pfcRun := true, rampFrom := p.vbulk, rampClk := s.clk })
  else s

/-- The PFC stops; BULK_OK returns to 0 at once (R640). wait is the time to its next start. -/
def State.pfcStop (s : State) (wait : Nat) : State :=
  (s.modPfe (fun x => { x with bulkOk := false })).modPri (fun p =>
    { p with pfcRun := false, ocpRun := 0, restart := if wait = 0 then p.restart else s.clk + wait })

/-- VBULK lies within ±3 % of the setpoint. -/
def State.bulkInBand (s : State) : Bool :=
  match s.pfe.vbulk with
  | none => false
  | some v =>
    let b := s.castN 0x122 0
    decide (97 * b ≤ v) && decide (v ≤ 103 * b)

/-! ## Hold-up (R113 to R120) -/

/-- Entry to WINDDOWN: every enabled figure is disabled with cause "mains loss" (R117). -/
def State.windDown (s : State) : State :=
  let t := (s.modPfe (fun x => { x with hu := .winddown, huClk := s.clk })).raise 0x921
  (t.fig.filter (fun e => e.2.enabled)).foldl (fun t e => t.figDisable e.1 2) t

/-- Leave NORMAL (R119): a hold-up sequence starts. -/
def State.huStart (s : State) : State :=
  let t := (s.pfeFault 1#32).raise 0x920
  { t with peat := { t.peat with holdup := true } }

/-- A mains loss under R115 and R116. While VBULK is unknown E_use decides nothing (R639). -/
def State.mainsLoss (s : State) (iso : Bool) : State :=
  if s.dcFed || !s.pfe.everValid || s.pfe.hu != .normal then s
  else
    let t := s.huStart
    if iso || (s.pfe.vbulk.isSome && decide (s.pfe.eUse ≤ s.pfe.eRes)) then t.windDown
    else t.modPfe (fun x => { x with hu := .ride, huClk := s.clk })

/-- HU_STATE returns to NORMAL (R119). -/
def State.huNormal (s : State) : State :=
  (s.modPfe (fun x => { x with hu := .normal, huClk := s.clk })).raise 0x923

/-- MAINS_LOST (R74, R115). -/
def execMainsLost (s : State) : Host.Outcome State Fault Refusal :=
  finish s
    (if s.rst.ctrlUp && s.crossingLate then
      if s.mt.mainsValid then (s.mainsGone false).mainsLoss false else s.mainsGone false
    else s)

/-! ## The isolation channel (R13 to R15) -/

/-- What a good frame brings the primary side: PFC enable and setpoint, the relay command, and each
primary-side parameter that an Unveil changed (R14, R110, R118, R122, log entry 116). A failed channel
leaves the relay in its last state (R15). -/
def State.frameToPrimary (s : State) : State :=
  let x := s.iso
  let heard := !s.pfe.pri.isoFailed
  let close := heard && x.sentRelay && !s.pfe.pri.relaySeen && !s.pfe.pri.relayFault
  let t := s.modPri (fun p =>
    { p.setTo x.sentBulkV s.clk with
      pfcEn := x.sentPfcEn
      params := x.sentParams.foldl (fun a e => tput a e.1 e.2) p.params
      relaySeen := if heard then x.sentRelay else p.relaySeen
      relayCmd := p.relayCmd || close
      lineLoss := p.lineLoss && !close })
  if !x.sentPfcEn && t.pfe.pri.pfcRun then t.pfcStop 0 else t.pfcTry

/-- The aux error of Table 1.1 from AUX_FB in µV: pfe.aux_v less 4.8 times AUX_FB, in mV of V_AUX, as a
signed 16-bit number (R108, log entry 117). -/
def State.auxError (s : State) (auxFb : Nat) : Int :=
  clamp (-32768) 32767 (rdiv (5000 * (s.castN 0x130 0 : Int) - 24 * auxFb) 5000)

/-- ISO_FRAME_SEND (R14): a frame of each class leaves for the primary side. -/
def execIsoFrameSend (s : State) : Host.Outcome State Fault Refusal :=
  finish s
    (if !s.rst.ctrlUp then s
    else s.modIso (fun x =>
      { x with
        flight := true
        sentAux := x.auxErr
        sentPfcEn := s.castN 0x121 0 == 1
        sentBulkV := s.castN 0x122 0
        sentRelay := x.relayCmd
        sentCal := x.mainsCalDue
        sentParams := x.paramsDue.map (fun i => (i, s.castN i 0))
        paramsDue := if s.pfe.pri.flyback then [] else x.paramsDue
        mainsCalDue := false
        sent := x.sent + 1 }))

/-- The frame on its way reaches the primary side: with a failed CRC it is discarded and counted there
(R14); a die without supply takes none. -/
def State.frameArrives (s : State) (crcOk : Bool) : State :=
  let t := s.modIso (fun x => { x with flight := false, txValid := x.txValid || (s.pfe.pri.flyback && crcOk) })
  if !s.pfe.pri.flyback then t
  else if crcOk then t.frameToPrimary
  else t.modPri (fun p => { p with frameErr := bump p.frameErr })

/-- What a good frame from the primary side reports is latched in PFE_FAULTS and counted; a line loss is
a mains loss, and a relay that was opened is not commanded closed any more (R110, R111, R115). -/
def State.takeReports (s : State) : State :=
  let p := s.pfe.pri
  let t := s.modPfe (fun x =>
    { x with
      faults := x.faults ||| p.reports
      ocpCnt := bumpBy x.ocpCnt p.ocpDue
      pri := { p with reports := 0#32, ocpDue := 0 } })
  let t := if p.reports &&& 0x84#32 = 0#32 then t else t.modIso (fun x => { x with relayCmd := false })
  if p.reports.getLsbD 2 then t.mainsLoss false else t

/-- ISO_FRAME_RECEIVE (R14, R108, R111): a frame reaches one of the two sides; with a failed CRC it is discarded
and counted. Of a good one on the secondary side the fault reports are taken here; crossings and
measurements act in the rows of their classes. -/
def execIsoFrameReceive (f : IsoIn) (s : State) : Host.Outcome State Fault Refusal :=
  finish s
    (match f with
     | .primary crcOk => if s.iso.flight then s.frameArrives crcOk else s
     | .secondary crcOk auxFb =>
       if !s.rst.ctrlUp then s
       else
         let t := s.modIso (fun x => { x with auxErr := s.auxError auxFb, rxValid := x.rxValid || crcOk })
         if !crcOk then { t with err := { t.err with isoFrame := bump t.err.isoFrame } }
         else if s.dcFed then t
         else t.takeReports)

/-- ISO_CHANNEL_FAIL (R15, R115, R639): on the secondary side an established channel that fails is
recorded, takes MT out of tracking, cuts a mains converter run (R414) and starts the hold-up sequence; on the primary side the PFC
stops and the flyback falls back. -/
def execIsoChannelFail (secondary : Bool) (s : State) : Host.Outcome State Fault Refusal :=
  finish s
    (if secondary then
      if s.rst.ctrlUp && s.established && !s.iso.failed then
        let t := (s.modIso (fun x => { x with failed := true })).modPfe (fun x =>
          { x with vbulk := none, linePeak := 0, lineRms := 0, temp := 0, eUse := 0, bulkOk := false })
        (((t.mainsGone true).log { code := 0x8203, source := 0 }).mainsCut).mainsLoss true
      else s
    else if s.iso.txValid && !s.pfe.pri.isoFailed then
      (s.pfcStop 0).modPri (fun p => { p with isoFailed := true, auxSec := false })
    else s)

/-- ISO_CHANNEL_RESTORE (R15). -/
def execIsoChannelRestore (secondary : Bool) (s : State) : Host.Outcome State Fault Refusal :=
  finish s
    (if secondary then
      if s.rst.ctrlUp && s.iso.failed then
        (s.modIso (fun x => { x with failed := false })).log { code := 0x8203, source := 0, arg := 1 }
      else s
    else if s.pfe.pri.isoFailed then
      (s.modPri (fun p => { p with isoFailed := false, auxSec := p.flyback })).pfcTry
    else s)

/-! ## Start-up of the front end (R102, R103, R110) -/

/-- VCC_P_START (Table 5.1 step 2): the primary die starts; the flyback runs in fallback. -/
def execVccPStart (s : State) : Host.Outcome State Fault Refusal :=
  finish s
    (if !s.pfe.pri.flyback && !s.pfe.pri.overTemp then
      s.modPri (fun p =>
        { Primary.init with
          flyback := true, relayFault := p.relayFault, restart := p.restart, vbulk := p.vbulk
          frameErr := p.frameErr })
    else s)

/-- The flyback stops, and with it the supply of the primary circuits. -/
def State.flybackOff (s : State) : State :=
  (s.pfcStop 0).modPri (fun p => { p with flyback := false, auxSec := false, relayCmd := false, relay := false })

/-- VCC_P_LOW (R103). -/
def execVccPLow (s : State) : Host.Outcome State Fault Refusal :=
  finish s (if s.pfe.pri.flyback then s.flybackOff else s)

/-- AUX_SECONDARY_REGULATION (Table 5.1 step 4, R108). -/
def execAuxSecondaryRegulation (s : State) : Host.Outcome State Fault Refusal :=
  finish s
    (if s.pfe.pri.flyback && s.established && !s.pfe.pri.isoFailed then
      s.modPri (fun p => { p with auxSec := true })
    else s)

/-- RELAY_CLOSE (Table 5.1 step 5, R102, R110): the relay command is issued; the next frame carries it
(Table 1.1). -/
def execRelayClose (s : State) : Host.Outcome State Fault Refusal :=
  finish s
    (match s.pfe.vbulk with
     | none => s
     | some v =>
       if s.rst.ctrlUp && s.priSeen && s.mt.mainsValid && s.pfe.pri.auxSec && !s.pfe.pri.relayFault &&
           !s.iso.relayCmd && 9 * s.pfe.linePeak ≤ 10 * v then
         s.modIso (fun x => { x with relayCmd := true })
       else s)

/-- RELAY_CHECK (R102, R111): 50 ms after a relay command. -/
def execRelayCheck (sensed : Bool) (s : State) : Host.Outcome State Fault Refusal :=
  finish s
    (if !s.pfe.pri.flyback then s
    else if sensed = s.pfe.pri.relayCmd then (s.modPri (fun p => { p with relay := sensed })).pfcTry
    else
      ((s.pfcStop 0).modPri (fun p =>
        { p with relayCmd := false, relay := false, relayFault := true })).priFault 0x80#32)

/-- RELAY_FAULT_RETRY (R111): the flag clears and start-up goes on from step 5. -/
def State.relayRetry (s : State) : State :=
  if s.rst.ctrlUp then
    (s.modPfe (fun x => { x with faults := x.faults &&& ~~~0x80#32 })).modPri (fun p =>
      { p with relayFault := false })
  else s

/-- RELAY_FAULT_RETRY (R111). -/
def execRelayFaultRetry (s : State) : Host.Outcome State Fault Refusal := finish s s.relayRetry

/-- BULK_OK_CHANGE (R640, Table 5.1 step 7). -/
def execBulkOkChange (ok : Bool) (s : State) : Host.Outcome State Fault Refusal :=
  finish s
    (if ok then
      if s.rst.ctrlUp && s.priSeen && s.pfe.pri.pfcRun && s.bulkInBand then
        s.modPfe (fun x => { x with bulkOk := true })
      else s
    else if s.pfe.pri.pfcRun && s.bulkInBand then s
    else s.modPfe (fun x => { x with bulkOk := false }))

/-! ## Primary faults (Table 5.2) -/

/-- PFC_OVERCURRENT: 64 consecutive limited cycles stop the PFC for 1 s. -/
def execPfcOvercurrent (s : State) : Host.Outcome State Fault Refusal :=
  let p := s.pfe.pri
  let next := decide ((s.clk - p.ocpClk) * 2 * s.castN 0x123 0 ≤ 3 * 200000)
  let run := if next then p.ocpRun + 1 else 1
  finish s
    (if !p.pfcRun then s
    else
      let t := s.modPri (fun p => { p with ocpRun := run, ocpClk := s.clk, ocpDue := p.ocpDue + 1 })
      if 64 ≤ run then (t.priFault 8#32).pfcStop 200000000 else t)

/-- BULK_OVERVOLTAGE: the gate is held off from 440 V until below 430 V. -/
def execBulkOvervoltage (high : Bool) (s : State) : Host.Outcome State Fault Refusal :=
  finish s
    (if high then
      ((s.modPri (fun p => { p with bulkOv := true, pfcHeld := true })).modPfe (fun x =>
        { x with bulkOk := false })).priFault 0x10#32
    else s.modPri (fun p => { p with bulkOv := false, pfcHeld := false }))

/-- BULK_UNDERVOLTAGE: the PFC stops and soft starts after 100 ms. -/
def execBulkUndervoltage (s : State) : Host.Outcome State Fault Refusal :=
  let low : Bool := match s.pfe.vbulk with
    | none => true
    | some v => decide (v < 75 * s.castN 0x122 0)
  finish s
    (if s.pfe.pri.pfcRun && low then (s.priFault 0x20#32).pfcStop 20000000 else s)

/-- LINE_LOSS (R110, R111): the primary die's own fault; its report starts the hold-up sequence
(R115). -/
def execLineLoss (s : State) : Host.Outcome State Fault Refusal :=
  finish s
    (if s.pfe.pri.flyback && !s.pfe.pri.lineLoss then
      ((s.pfcStop 0).modPri (fun p =>
        { p with lineLoss := true, relayCmd := false, relay := false })).priFault 4#32
    else s)

/-- PRIMARY_OVER_TEMPERATURE: at 120 °C, and below 100 °C. -/
def execPrimaryOverTemperature (hot : Bool) (s : State) : Host.Outcome State Fault Refusal :=
  finish s
    (if hot then (s.priFault 0x40#32).flybackOff.modPri (fun p => { p with overTemp := true })
    else s.modPri (fun p => { p with overTemp := false }))

/-- PRI_WARN (R119). -/
def execPriWarn (s : State) : Host.Outcome State Fault Refusal :=
  finish s (if s.rst.ctrlUp && s.priSeen then s.raise 0x924 else s)

/-- FLYBACK_STOP (R118): VBULK at pfe.v_stop, once its value has been received. -/
def execFlybackStop (s : State) : Host.Outcome State Fault Refusal :=
  finish s
    (match s.pfe.pri.vStop with
     | none => s
     | some v =>
       let low : Bool := match s.pfe.vbulk with
         | none => true
         | some b => decide (b ≤ 100 * v)
       if s.pfe.pri.flyback && low then s.flybackOff else s)

/-! ## The energy estimate (R113, R114, R639) -/

/-- P_stg of the enabled stage ports, mW. -/
def State.stagePower (s : State) : Nat :=
  let w := (s.sp.filter (fun e => portOn e.2)).foldl (fun (a : Frac) e =>
    a.add ((s.voltsNow e.1).mul (s.ampsNow e.1)).abs) ⟨0, 1⟩
  ((w.mul ⟨1000 * 65536, max 1 (s.castN 0x12B 0)⟩).round).toNat

/-- E_use for a bulk voltage. -/
def State.energyUse (s : State) (vbulk : Option Nat) : Nat :=
  match vbulk with
  | none => 0
  | some v =>
    let stop := 100 * s.castN 0x129 0
    s.castN 0x127 0 * s.castN 0x128 0 * (v * v - stop * stop) / (65536 * 20000000)

/-- E_res for an auxiliary input power. While no write rate is known (W = 0) the spec states no E_commit:
W is taken as 1 MB/s (DESIGN CHOICE, log entry 118). -/
def State.energyReserve (s : State) (pAux : Nat) : Nat :=
  let commit := s.sto.staged * pAux / (max 1 s.sto.rate * 1000000)
  let wind := (s.stagePower / 2 + pAux) * s.castN 0x12C 0 / 1000
  (commit + wind) * (100 + s.castN 0x12F 0) / 100

/-- B_max in bytes; with no measured power the spec states no value: a free one (log entry 7). -/
def State.commitMax (s : State) (pAux : Nat) : Nat :=
  if pAux = 0 then s.freeInt.toNat else s.castN 0x12E 0 * s.sto.rate * 10 ^ 9 / pAux

/-- HOLDUP_ESTIMATE (R113, R114, R639, R112, R115): the operands are the words the primary side
reports, and the V_AUX input power as measured now and averaged over 1 s. BUDGET_DERATE while no line rms is
measured reads 0 (DESIGN CHOICE, log entry 119). -/
def execHoldupEstimate (vbulk : Option Nat) (linePeak lineRms : Nat) (temp : Int) (power : AuxPower)
    (s : State) : Host.Outcome State Fault Refusal :=
  finish s
    (if !s.rst.ctrlUp then s
    else
      let seen := s.priSeen
      let v := if seen then vbulk else none
      let input (w : Nat) : Nat := w * 65536 / max 1 (s.castN 0x12A 0)
      let bMax := s.commitMax (input power.average)
      let t := (if input power.average = 0 then s.fresh else s).modPfe (fun x =>
        { x with
          vbulk := v
          linePeak := if seen then linePeak else 0
          lineRms := if seen then lineRms else 0
          temp := if seen then temp else 0
          pAux := input power.now
          pAvg := input power.average
          eUse := s.energyUse v
          eRes := s.energyReserve (input power.now)
          bMax := bMax
          derate := seen && x.hu == .normal && decide (lineRms < 100 * s.castN 0x134 0)
          pri := { x.pri with vbulk := vbulk.getD x.pri.vbulk } })
      let t := t.stoWatch
      if t.pfe.hu == .ride && v.isSome && decide (t.pfe.eUse ≤ t.pfe.eRes) then t.windDown else t)

/-- RIDE_TIMEOUT (R115). -/
def execRideTimeout (s : State) : Host.Outcome State Fault Refusal :=
  let ms := s.castN 0x12D 0
  finish s
    (if s.pfe.hu == .ride && ms != 0 && s.pfe.huClk + ms * clocksPerMs ≤ s.clk then s.windDown else s)

/-- The peat store's ranges at entry to COMMIT: each last SEQ is closed (R118, R523). -/
def State.closeRanges (s : State) : State :=
  let t := s.syncPeat
  let last (q : Nat) : Word := s.sto.pages.foldl (fun w p =>
    p.pkts.foldl (fun w k => if k.qid = q && seqLe w k.seq then k.seq else w) w)
    (((tget? s.sto.unconfirmed q)).getD 0#32)
  { t with peat := { t.peat with ranges := t.peat.ranges.map (fun r => { r with last := last r.qid }) } }

/-- The Mire's part of COMMIT: every page buffer closes, retrieval ends, pages go in the order of
R523. -/
def State.mireCommit (s : State) : State :=
  if !s.archiveOn then s
  else
    let t := s.closeRanges
    let t := (t.sto.pages.map (fun p => p.id)).foldl (fun t id => t.closePage id) t
    let t := t.abortReads (fun _ => true)
    let pages := sortBy (fun (a b : Page) =>
      if a.prio == 0 || b.prio == 0 then a.prio == 0 && b.prio != 0
      else !mtLe b.firstMt a.firstMt) t.sto.pages
    { t with sto := { t.sto with state := .commit, pages := pages } }

/-- COMMIT (R117, R118, R523): pfe.wd_ms after entry to WINDDOWN. -/
def execCommit (s : State) : Host.Outcome State Fault Refusal :=
  finish s
    (if s.rst.ctrlUp && s.pfe.hu == .winddown &&
        s.pfe.huClk + s.castN 0x12C 0 * clocksPerMs ≤ s.clk then
      let live := s.sp.filter (fun e =>
        e.2.force.out == .rampDown || e.2.force.out == .ramp || e.2.force.out == .regulating)
      let t := live.foldl (fun t e => t.trip e.1 (bitAt true 16) s.mt.mt 0) s
      (t.modPfe (fun x => { x with hu := .commit, huClk := s.clk })).mireCommit
    else s)

/-- COMMIT_END (R115, R511): B = 0, or VBULK at pfe.v_stop with records left. -/
def execCommitEnd (s : State) : Host.Outcome State Fault Refusal :=
  let left := s.sto.staged != 0
  let low := s.pfe.vbulk.any (fun v => decide (v ≤ 100 * s.castN 0x129 0))
  finish s
    (if s.rst.ctrlUp && s.pfe.hu == .commit && (!left || low) then
      let t := (s.modPfe (fun x => { x with hu := .spent, huClk := s.clk })).raise 0x922
      let t := if left then
          { t.pfeFault 2#32 with peat := { t.peat with commitShort := true } }
        else t
      if t.sto.state = .commit then
        { t with sto := { t.sto with
            state := if t.sto.healthyCount = 0 then .failed else .ready
            ckptDue := t.sto.ckptDue || !left } }
      else t
    else s)

/-- HOLDUP_RESTORE (Table 5.4): from RIDE once mains is valid, the relay closed and, with
pfe.pfc_en = 1, the PFC running; from SPENT after steps 5 to 7 of Table 5.1. -/
def execHoldupRestore (s : State) : Host.Outcome State Fault Refusal :=
  let mains := s.rst.ctrlUp && !s.dcFed && s.mt.mainsValid && s.pfe.pri.relay
  let pfc := s.castN 0x121 0 == 1
  finish s
    (if s.pfe.hu = .ride && mains && (!pfc || s.pfe.pri.pfcRun) then
      s.huNormal.modPfe (fun x => { x with dropCnt := bump x.dropCnt })
    else if s.pfe.hu = .spent && mains && (!pfc || s.pfe.bulkOk) then s.huNormal
    else s)

/-- DC_FAIL (R120): an event that reached pfe.dc_fail. -/
def execDcFail (s : State) : Host.Outcome State Fault Refusal :=
  finish s
    (if s.rst.ctrlUp && s.fab.arrived.contains 0x199 then
      let t := { s with fab := { s.fab with arrived := dropFirst (· == 0x199) s.fab.arrived } }
      if s.dcFed && s.pfe.hu == .normal then t.huStart.windDown else t
    else s)

/-! ## Die temperatures (R64) -/

/-- Record a die at 118 °C or more. -/
def State.dieWarn (s : State) (die : Nat) (temp : Int) : State :=
  if temp < 1180 then s
  else (s.raise 0x939).log { code := 0x4202, source := 0, d0 := BitVec.ofNat 32 die, d1 := w32 temp }

/-- DIE_TEMP_READ (R64): control, data and staging DRAM in 0.1 °C. The readings show in DIE_TEMP of the
trip record and in DIE_OT_WARN, for no status register or record has another field for them (DEDUCED, log
entry 126). -/
def execDieTempRead (control data staging : Int) (s : State) : Host.Outcome State Fault Refusal :=
  let l := [control, data, staging]
  finish s
    (if !s.rst.ctrlUp then s
    else
      let past := l.any (fun t => decide (1250 ≤ t))
      let hot := past || (s.rst.dieHot && l.any (fun t => decide (1150 < t)))
      let t := { s with rst := { s.rst with dieTemp := l, dieHot := hot } }
      let t := ((t.dieWarn 0 control).dieWarn 1 data).dieWarn 2 staging
      if past then t.sp.foldl (fun t e => t.trip e.1 (bitAt true 10) s.mt.mt 0) t else t)

end Sys2Proof.Machine
end

