-- ==== Sys2Proof/Machine/LoopCmd.lean ====
section
/-! DEFINITION. Commands of the loop engine (Table 12.10, R329, R333, R344 to R347, R582). -/

namespace Sys2Proof.Machine

/-- LOOP_COEF_WRITE (R329). -/
def execLoopCoefWrite (r : Req) (fig : Nat) (block : BitVec 640) (s : State) :
    Host.Outcome State Fault Refusal :=
  editCommand r 0x0C01 s fun s =>
    if !s.sets.maq.figs.contains fig then s.refuse r 0x0C01 stRange 0x20
    else match coefBad block with
      | some d => s.refuse r 0x0C01 stRange d
      | none =>
        let t := s.modMaq (fun m => { m with coefs := tput m.coefs (4 * fig + cfLoop block) block })
        t.edited.editOk r 0x0C01 []

/-- LOOP_COEF_READ: the blocks a figure holds in the Cast. -/
def execLoopCoefRead (r : Req) (fig mask : Nat) (s : State) : Host.Outcome State Fault Refusal :=
  umser r 0x0C02 {} s fun s =>
    if !s.defined fig then s.refuse r 0x0C02 stRange 0x20
    else if 16 ≤ mask then s.refuse r 0x0C02 stRange 0x22
    else
      let held := (List.range 4).filter (fun k =>
        mask.testBit k && (coefOf s.sets.cast fig k).isSome)
      s.ok r 0x0C02 (leBytes 1 (nsum (held.map (fun k => 2 ^ k))))
        (held.flatMap (fun k => leBytes 80 ((coefOf s.sets.cast fig k).getD 0#640).toNat))

/-- Checks of a command that names a half of a port's table. -/
def State.ffBad (s : State) (port half : Nat) : Option (Nat × Nat) :=
  match s.portBad port with
  | some e => some e
  | none => if 2 ≤ half then some (stRange, 0x21) else none

/-- LOOP_FF_WRITE (R333): 256 entries of one half. -/
def execLoopFfWrite (r : Req) (port half : Nat) (table : List (BitVec 16)) (s : State) :
    Host.Outcome State Fault Refusal :=
  editCommand r 0x0C03 s fun s =>
    match s.ffBad port half with
    | some (st, d) => s.refuse r 0x0C03 st d
    | none =>
      let put (a : Tab (BitVec 16)) (i : Nat) : Tab (BitVec 16) :=
        let v := table.getD i 0#16
        let k := 512 * port + 256 * half + i
        if v = 0#16 then tdel a k else tput a k v
      let t := s.modMaq (fun m => { m with ff := (List.range 256).foldl put m.ff })
      t.edited.editOk r 0x0C03 []

/-- LOOP_FF_READ. -/
def execLoopFfRead (r : Req) (port half : Nat) (s : State) : Host.Outcome State Fault Refusal :=
  umser r 0x0C04 {} s fun s =>
    match s.ffBad port half with
    | some (st, d) => s.refuse r 0x0C04 st d
    | none => s.ok r 0x0C04 [] ((List.range 256).flatMap (fun i =>
        leBytes 2 (tget 0#16 s.sets.cast.ff (512 * port + 256 * half + i)).toNat))

/-- The first field of TUNE_START out of its range (R344, R345, R582); rng is the amplitude limit. -/
def tuneBad (point wave prbsL dec : Nat) (amp : Int) (ftw n : Nat) (most : Int) : Option Nat :=
  ([(0x23, point ≤ 1), (0x24, wave ≤ 5), (0x25, prbsL ≤ 255 && (wave != 0 || prbsL == 0)),
    (0x26, dec ≤ 255), (0x28, decide ((amp.natAbs : Int) ≤ most)),
    (0x2C, ftw < 2 ^ 24 && (wave == 0 || ftw == 0)), (0x30, 1 ≤ n && n ≤ 16777215)] :
    List (Nat × Bool)).find? (fun t => !t.2) |>.map (fun t => t.1)

/-- Largest amplitude (R344): 4,096 codes at the command node, 10 % of the active full scale at the
setpoint. -/
def tuneMost (point : Nat) : Int := if point = 0 then 4096 * 256 else 107374182

/-- TUNE_START (R4, R344, R582): prbsL and dec are L - 1 and D - 1. -/
def execTuneStart (r : Req) (fig member point wave prbsL dec : Nat) (amp : Int) (ftw n : Nat)
    (start : DWord) (s : State) : Host.Outcome State Fault Refusal :=
  umser r 0x0C06 { long := true, standbyOk := false } s fun s =>
    if 4096 ≤ fig || !s.defined fig then s.refuse r 0x0C06 stRange 0x20
    else if member != 0xFF && member < 128 && !s.hasPort member then s.refuse r 0x0C06 stAbsent member
    else if member != 0xFF && !(s.members fig).contains member then s.refuse r 0x0C06 stRange 0x22
    else match tuneBad point wave prbsL dec amp ftw n (tuneMost point) with
      | some d => s.refuse r 0x0C06 stRange d
      | none =>
        let p := if member = 0xFF then (s.members fig).headD 0 else member
        if (s.members fig).isEmpty || s.serves p != some fig || !loopsClosed (s.spAt p) then
          s.refuse r 0x0C06 stNotReady
        else if (s.grpAt (p / 8)).tune.isSome then s.refuse r 0x0C06 stBusy
        else
          let t : Tune :=
            { fig := fig, port := p, atSetpoint := point == 1, wave := wave, prbsL := prbsL + 1
              dec := dec + 1, amp := amp, ftw := ftw, n := n, start := start, startMt := 0#64
              started := false, k := 0, sr := 2 ^ (prbsTaps wave).1 - 1, entries := [], nEntries := 0
              stamp := 0#64, written := 0, packets := 0, mbx := r.mbx, tag := r.tag, cancelled := false, stop := false
              cut := false }
          (s.defer r 0x0C06 fig 0 0).modGrp (p / 8) (fun x => { x with tune := some t })

/-- TUNE_STOP (R347): the injection ends at the next loop tick. -/
def execTuneStop (r : Req) (grp : Nat) (s : State) : Host.Outcome State Fault Refusal :=
  umser r 0x0C07 { standbyOk := false } s fun s =>
    if 16 ≤ grp then s.refuse r 0x0C07 stRange 0x20
    else if !s.hasGrp grp then s.refuse r 0x0C07 stAbsent grp
    else match (s.grpAt grp).tune with
      | none => s.refuse r 0x0C07 stNotReady
      | some _ => (s.modGrp grp (fun x =>
          { x with tune := x.tune.map (fun t => { t with stop := true }) })).ok r 0x0C07 [] []

end Sys2Proof.Machine
end

