-- ==== Sys2Proof/Machine/Digest.lean ====
section
/-! DEFINITION. The Cast digest (R462, R638): CRC-64 of ECMA-182 over the image of Table 17.11, taken
without writing the image out. The CRC is linear: the record at a place adds its own CRC times a
power of x. -/

namespace Sys2Proof.Machine

/-! ## CRC-64/ECMA-182 -/

/-- The polynomial without its x^64. -/
def crcPoly : Nat := 0x42F0E1EBA9EA3693

/-- A residue times x. -/
def crcX (c : Nat) : Nat := if c < 2 ^ 63 then 2 * c else (2 * c - 2 ^ 64) ^^^ crcPoly

/-- n factors of x. -/
def crcShift : Nat → Nat → Nat
  | 0, c => c
  | n + 1, c => crcShift n (crcX c)

/-- The next byte. -/
def crcByte (c b : Nat) : Nat := crcShift 8 (c ^^^ (b * 2 ^ 56))

/-- A run of bytes. -/
def crcBytes (c : Nat) (l : List Byte) : Nat := l.foldl (fun c b => crcByte c b.toNat) c

/-- The n high bits of a times b, over r. -/
def crcMulAux (a b : Nat) : Nat → Nat → Nat
  | 0, r => r
  | n + 1, r =>
    let x := crcX r
    crcMulAux a b n (if a.testBit n then x ^^^ b else x)

/-- The product of two residues. -/
def crcMul (a b : Nat) : Nat := crcMulAux a b 64 0

/-- x to a power below 2^k. -/
def crcPow : Nat → Nat → Nat
  | 0, _ => 1
  | k + 1, n =>
    let h := crcPow k (n / 2)
    let q := crcMul h h
    if n = 0 then 1 else if n % 2 = 1 then crcX q else q

/-- A residue after n further zero bytes. -/
def crcSkip (c n : Nat) : Nat := if c = 0 || n = 0 then c else crcMul c (crcPow 32 (8 * n))

/-! ## Sections of the image -/

/-- A section of equal records, most of them zero: the records that are not, ascending. -/
def crcSparse (c size total : Nat) (l : List (Nat × List Byte)) : Nat :=
  let r := l.foldl (fun (a : Nat × Nat) e =>
    (crcBytes (crcSkip a.1 (size * (e.1 - a.2))) e.2, e.1 + 1)) (c, 0)
  crcSkip r.1 (size * (total - r.2))

/-- Sums over 2^n records of a size: of x to their places, and of the CRCs of their indexes, idx j
being the CRC of a record that holds bit j of an index alone. The third part is x to the length. -/
def crcIndexed (size : Nat) (idx : Nat → Nat) : Nat → Nat × Nat × Nat
  | 0 => (1, 0, crcPow 32 (8 * size))
  | n + 1 =>
    let r := crcIndexed size idx n
    (crcMul r.1 r.2.2 ^^^ r.1, crcMul r.2.1 r.2.2 ^^^ r.2.1 ^^^ crcMul (idx n) r.1,
      crcMul r.2.2 r.2.2)

/-- The change of a section when records differ from those counted: (place from the end, difference of
the bytes). -/
def crcChanges (size : Nat) (l : List (Nat × List Byte)) : Nat :=
  l.foldl (fun c e => c ^^^ crcSkip (crcBytes 0 e.2) (size * e.1)) 0

/-- Bytes of two records combined. -/
def xorBytes (a b : List Byte) : List Byte := List.zipWith (· ^^^ ·) a b

/-- log2 of the number of instances of a class that a part has (R468). -/
def State.instances (s : State) (c : PClass) : Nat :=
  let g := Nat.log2 s.groups
  match c with
  | .global => 0
  | .group => g
  | .stage => g + 3
  | .figure => 12
  | .site => g + 7

/-- Section 1: every parameter of set Cast/Maquette, every instance of a present object. -/
def State.digestParams (s : State) (c : CfgSet) : Nat :=
  let idx (j : Nat) : Nat := crcBytes 0 (leBytes 2 0 ++ leBytes 2 (2 ^ j) ++ leBytes 4 0)
  let fig := crcIndexed 8 idx 12
  (directory.filter (fun e => !e.live)).foldl (fun crc e =>
    let n := s.instances e.cls
    let t := if n = 12 then fig else crcIndexed 8 idx n
    let base := crcBytes 0 (leBytes 2 e.id ++ leBytes 2 0 ++ leBytes 4 e.reset)
    let listed := c.params.filter (fun p => p.1 / 65536 == e.id && p.1 % 65536 < 2 ^ n)
    crcMul crc t.2.2 ^^^ crcMul base t.1 ^^^ t.2.1 ^^^
      crcChanges 8 (listed.map (fun p =>
        (2 ^ n - 1 - p.1 % 65536, leBytes 4 0 ++ leBytes 4 (p.2.toNat ^^^ e.reset))))) 0

/-- Section 2: the bitmaps of defined figures and of coefficient blocks. -/
def digestBitmaps (crc : Nat) (c : CfgSet) : Nat :=
  let bitmap (l : List Nat) : List (Nat × List Byte) :=
    (l.foldl (fun t i => tput t (i / 8) (tget 0 t (i / 8) ||| 2 ^ (i % 8))) []).map
      (fun e => (e.1, leBytes 1 e.2))
  crcSparse (crcSparse crc 1 512 (bitmap c.figs)) 1 2048 (bitmap (c.coefs.map (fun e => e.1)))

/-- A table of records as a section. -/
def digestTab {α : Type} (crc size total : Nat) (t : Tab α) (f : α → Nat) : Nat :=
  crcSparse crc size total
    ((t.filter (fun e => e.1 < total)).map (fun e => (e.1, leBytes size (f e.2))))

/-- The aux table of a set with the armature's entries (R229). -/
def auxTable (c : CfgSet) : Tab (BitVec 128) :=
  c.auxArm.foldl (fun t e => tput t e.1 e.2) c.aux

/-- Section 9: the placement records. -/
def digestPlace (crc : Nat) (place : Tab Placement) : Nat :=
  let idx (j : Nat) : Nat := crcBytes 0 (leBytes 2 (2 ^ j) ++ leBytes 30 0)
  let t := crcIndexed 32 idx 12
  let none_ := placeBytes 0 1 Placement.init
  crcMul crc t.2.2 ^^^ crcMul (crcBytes 0 none_) t.1 ^^^ t.2.1 ^^^
    crcChanges 32 (place.map (fun e =>
      (4095 - e.1, xorBytes (placeRecord place e.1) (placeBytes e.1 1 Placement.init))))

/-- The digest of a set with its placement (R462, R638). -/
def State.digestOf (s : State) (c : CfgSet) : DWord :=
  let ports := 8 * s.groups
  let d := digestBitmaps (s.digestParams c) c
  let d := digestTab d 256 ports c.descs (fun x => x.image.toNat)
  let d := digestTab d 80 16384 c.coefs BitVec.toNat
  let d := digestTab d 2 (512 * ports) c.ff BitVec.toNat
  let d := digestTab d 32 65536 c.sweep BitVec.toNat
  let d := digestTab d 64 4096 c.gens BitVec.toNat
  let d := digestTab d 16 (64 * s.groups) (auxTable c) BitVec.toNat
  BitVec.ofNat 64 (digestPlace d c.place)

end Sys2Proof.Machine
end

