-- ==== Sys2Proof/Machine/Placement.lean ====
section
/-! DEFINITION. Placement (R185 to R203, R634): which stages serve each enabled figure of a set, and the
cause where none can. Everything is a function of the set, the Cast and the stage states. -/

namespace Sys2Proof.Machine

/-! ## What a figure needs (R184, R189, R192) -/

/-- A figure's requirement in a set. -/
structure Need where
  fig : Nat
  vHi : Int
  vLo : Int
  iSrc : Nat
  iSnk : Nat
  /-- Power claim, mW. -/
  claim : Nat
  acc : Nat
  floor : Nat
  gangMax : Nat
  /-- arm.gang_margin, %. -/
  margin : Nat
  nominal : Nat
  /-- Sites of the mask. -/
  sites : List Nat
  pin : Option Nat
  /-- Ports of fig.pin_gang; none of them: the armature chooses. -/
  pinGang : List Nat
  share : Bool
  rotate : Nat
  prio : Nat
  /-- Stages that a move takes the figure from (R197). -/
  avoid : List Nat
  deriving DecidableEq, Repr

/-- The power claim of a figure (R189), mW: µV times µA is 10^-9 mW. -/
def claimOf (c : CfgSet) (f : Nat) : Nat :=
  let p (id : Nat) : Nat := pnat c.params id f
  if p 0x40F != 0 then p 0x40F
  else
    let v := max (pint c.params 0x402 f).natAbs (pint c.params 0x403 f).natAbs
    let w := cdiv (v * max (p 0x404) (p 0x405)) 1000000000
    if p 0x406 = 0 then w else min w (p 0x406)

/-- The requirement of a figure. -/
def needOf (c : CfgSet) (f : Nat) : Need :=
  let p (id : Nat) : Nat := pnat c.params id f
  let pin := p 0x40B
  { fig := f, vHi := pint c.params 0x402 f, vLo := pint c.params 0x403 f
    iSrc := p 0x404, iSnk := p 0x405, claim := claimOf c f, acc := p 0x407, floor := p 0x408
    gangMax := p 0x40D, margin := pnat c.params 0x151 0
    nominal := p 0x40A / 65536 % 128, sites := setBits 16 (p 0x40A)
    pin := if pin = 0xFFFF then none else some pin
    pinGang := (setBits 8 (p 0x40C)).map (fun k => 8 * (pin / 8) + k)
    share := p 0x40E == 1, rotate := p 0x410, prio := p 0x409, avoid := [] }

/-- Enabled figures of a set, ascending. -/
def enabledFigs (c : CfgSet) : List Nat := c.figs.filter (fun f => pnat c.params 0x400 f == 1)

/-- A figure's requirement parameters are the same in two sets (R191): limits, accuracy, sites, pin, gang,
share and claim, but not fig.mode, fig.prio and the permissions (DEDUCED, log entry 130). -/
def sameNeed (a b : CfgSet) (f : Nat) : Bool :=
  [0x402, 0x403, 0x404, 0x405, 0x406, 0x407, 0x408, 0x40A, 0x40B, 0x40C, 0x40D, 0x40E, 0x40F].all
    (fun id => pval a.params id f == pval b.params id f)

/-- A gang of n stages of a descriptor carries the figure's current and power (R192). -/
def Need.fits (k : Need) (d : BitVec 2048) (n : Nat) : Bool :=
  let m := if n = 1 then 100 else n * (100 - k.margin)
  100 * k.iSrc ≤ m * dn d 0x30 4 && 100 * k.iSnk ≤ m * dn d 0x34 4 && 100 * k.claim ≤ m * dn d 0x38 4

/-- Gang size needed on stages of a descriptor; 9 where eight are too few. -/
def Need.size (k : Need) (d : BitVec 2048) : Nat :=
  (((List.range 8).map (· + 1)).find? (k.fits d)).getD 9

/-! ## Tests of a stage (Table 8.4, R634) -/

/-- Quadrants the figure requires, Q1 in bit 0. -/
def Need.quadrants (k : Need) : List Nat :=
  (if 0 < k.vHi && k.iSrc != 0 then [0] else []) ++ (if k.vLo < 0 && k.iSrc != 0 then [1] else []) ++
  (if k.vLo < 0 && k.iSnk != 0 then [2] else []) ++ (if 0 < k.vHi && k.iSnk != 0 then [3] else [])

/-- The accuracy condition: fig.i_floor against f times the full scale of the lowest range. -/
def Need.accurate (k : Need) (d : BitVec 2048) : Bool :=
  let r := min 6 (dRanges d) - 1
  let f := ([0, 1, 10, 100] : List Nat).getD k.acc 0
  decide ((f * spanNv (dSpan d r) * f32One : Int) ≤ (k.floor : Int) * 1000 * dShunt d r) &&
    (k.acc != 3 || dCal d)

/-- The descriptor in force for a port in a set; zeros where it has none. -/
def descIn (c : CfgSet) (p : Nat) : BitVec 2048 :=
  match tget? c.descs p with
  | some d => d.image
  | none => 0#2048

/-- The site of a port that serves site j behind the nominal port: the same position, or the site
itself (R186). -/
def siteIn (c : CfgSet) (nominal p j : Nat) : Option Nat :=
  let pos := pnat c.params 0x460 (16 * nominal + j)
  if p = nominal then some j
  else if pos = 0 then none
  else (List.range (dSiteTotal (descIn c p))).find? (fun k => pnat c.params 0x460 (16 * p + k) == pos)

/-- The reach condition: the figure has sites, all below the nominal stage's count, and the stage has one
for each (R185). -/
def Need.reaches (k : Need) (c : CfgSet) (p : Nat) : Bool :=
  !k.sites.isEmpty && k.sites.all (fun j =>
    decide (j < dSiteTotal (descIn c k.nominal)) && (siteIn c k.nominal p j).isSome)

/-- The stage cannot take a figure now (R187, R188): NOT_READY of R634. -/
def State.unready (s : State) (d : BitVec 2048) (p : Nat) : Bool :=
  let x := s.spAt p
  x.sup.tripped || (dFlt d && x.sup.flt) || !s.grpReady (p / 8) || x.overTemp

/-- Two stages may be members of one gang (R192). -/
def kin (c : CfgSet) (p q : Nat) : Bool :=
  dGang (descIn c p) && dGang (descIn c q) && dn (descIn c p) 0x18 16 == dn (descIn c q) 0x18 16

/-- A stage could head or join a gang of n: its group has n stages of its kin that carry the figure's
current and power as such a gang (R634, LIMITS). -/
def couldGang (c : CfgSet) (k : Need) (n p : Nat) : Bool :=
  n == 1 || decide (n ≤ ((List.range 8).filter (fun i =>
    kin c p (8 * (p / 8) + i) && k.fits (descIn c (8 * (p / 8) + i)) n)).length)

/-- Causes 1 to 6 of a stage for a figure, with the gang size it is to have there; 0 when none holds. -/
def State.unfit (s : State) (c : CfgSet) (k : Need) (n p : Nat) : Nat :=
  match tget? c.descs p with
  | none => 1
  | some x =>
    let d := x.image
    if !s.hasPort p then 2
    else if decide (k.vLo < di d 0x2C 4) || decide (di d 0x28 4 < k.vHi) || !k.fits d n ||
        !couldGang c k n p || k.gangMax < n then 3
    else if !k.quadrants.all (fun q => (dn d 0x3C 1).testBit q) then 4
    else if !k.accurate d then 5
    else if !k.reaches c p then 6
    else 0

/-! ## Stages held (R193, R194) -/

/-- Figures that hold a port in a table of members. -/
def onPort (held : Tab (List Nat)) (p : Nat) : List Nat :=
  (held.filter (fun e => e.2.contains p)).map (fun e => e.1)

/-- A figure may join those on a stage by site sequencing (R193). -/
def mayShare (c : CfgSet) (held : Tab (List Nat)) (k : Need) (p : Nat) : Bool :=
  let l := onPort held p
  let mine := k.sites.map (siteIn c k.nominal p)
  k.share && decide (l.length < 16) && l.all (fun g =>
    let o := needOf c g
    o.share && (tget [] held g).length == 1 &&
      !o.sites.any (fun j => mine.contains (siteIn c o.nominal p j)))

/-- Claims counted: a shared stage counts its largest once (R194). -/
def counted (c : CfgSet) (held : Tab (List Nat)) : Nat :=
  nsum (held.map (fun e =>
    match e.2 with
    | [p] =>
      let mine := claimOf c e.1
      if (onPort held p).any (fun g => mine < claimOf c g || (claimOf c g == mine && g < e.1)) then 0
      else mine
    | _ => claimOf c e.1))

/-- The power available to figures (R112), mW; none where no budget is enforced. While no line rms is
measured V_line is 0, and with it the power (DESIGN CHOICE, log entry 119). An Unveil in SPENT with pfe.mode = 1
is planned before its boundary returns HU_STATE to NORMAL, so with 0 W (DESIGN CHOICE, log entry 131). -/
def State.available (s : State) (c : CfgSet) : Option Nat :=
  let w := pnat c.params 0x133 0
  if w = 0 then none
  else if s.pfe.hu != .normal then some 0
  else if pnat c.params 0x120 0 = 1 then some (1000 * w)
  else
    let low := 100 * pnat c.params 0x134 0
    some (if low ≤ s.pfe.lineRms then 1000 * w else 1000 * w * s.pfe.lineRms / low)

/-- A figure on a stage of its own fits under the budget (R194). -/
def State.affordsOwn (s : State) (c : CfgSet) (held : Tab (List Nat)) (f : Nat) : Bool :=
  match s.available c with
  | none => true
  | some w => counted c (tdel held f) + claimOf c f ≤ w

/-- A figure on these members fits under the budget. -/
def State.affords (s : State) (c : CfgSet) (held : Tab (List Nat)) (f : Nat) (members : List Nat) :
    Bool :=
  match s.available c with
  | none => true
  | some w => counted c (tput held f members) ≤ w

/-! ## Seeking stages (R191, R192, R198, R202) -/

/-- A stage's role admits a figure: spare stages serve a migration, and a figure pinned to them. -/
def roleFits (c : CfgSet) (k : Need) (migrating : Bool) (p : Nat) : Bool :=
  let role := pnat c.params 0x440 p
  role == 0 || (role == 1 && (migrating || k.pin == some p || k.pinGang.contains p))

/-- A stage that may be picked: eligible, free and of a fitting role. -/
def State.candidate (s : State) (c : CfgSet) (held : Tab (List Nat)) (k : Need) (migrating : Bool)
    (p : Nat) : Bool :=
  let d := descIn c p
  s.unfit c k (k.size d) p == 0 && (onPort held p).isEmpty && !s.unready d p &&
    roleFits c k migrating p && !k.avoid.contains p

/-- The order of preference among stages: spare ones first in a migration, the coolest first where
fig.rotate allows it (one without a temperature last), then the lowest port. It ranks the stages of one
group; the lowest group that serves comes first, whatever its stages are (R191; DEDUCED, log entry 132). -/
def State.prefer (s : State) (c : CfgSet) (k : Need) (migrating : Bool) (p q : Nat) : Bool :=
  let spare (x : Nat) : Nat := if migrating && pnat c.params 0x440 x == 1 then 0 else 1
  let heat (x : Nat) : Int := if k.rotate = 0 then 0 else (s.spAt x).temp.getD 100000
  if spare p != spare q then decide (spare p < spare q)
  else if heat p != heat q then decide (heat p < heat q)
  else decide (p < q)

/-- The gang a head forms with others, in their order: none where there are too few. -/
def gangFrom (c : CfgSet) (k : Need) (head : Nat) (others : List Nat) : Option (List Nat) :=
  let n := k.size (descIn c head)
  let l := (others.filter (fun q => q != head && kin c head q && k.fits (descIn c q) n)).take (n - 1)
  if l.length + 1 = n then some (l.foldl insAsc [head]) else none

/-- The ports of a group that pass a test, in order of preference. -/
def State.ranked (s : State) (c : CfgSet) (k : Need) (migrating : Bool) (g : Nat) (p : Nat → Bool) :
    List Nat :=
  sortBy (s.prefer c k migrating) (((List.range 8).map (fun i => 8 * g + i)).filter p)

/-- First result of a function over a list. -/
def firstSome {α β : Type} (f : α → Option β) : List α → Option β
  | [] => none
  | x :: t =>
    match f x with
    | some y => some y
    | none => firstSome f t

/-- What a search must also find true of its answer, such as the schedule of the group entered. -/
abbrev Allow := List Nat → Bool

/-- Free stages for an unpinned figure. -/
def State.seekFree (s : State) (c : CfgSet) (held : Tab (List Nat)) (k : Need) (migrating : Bool)
    (allow : Allow) : Option (List Nat) :=
  firstSome (fun g =>
    let l := s.ranked c k migrating g (s.candidate c held k migrating)
    (firstSome (fun h => gangFrom c k h l) l).filter (fun m => s.affords c held k.fig m && allow m))
    (List.range s.groups)

/-- A free eligible stage, or gang, exists for a figure, whether or not the budget allows it (R193). -/
def State.freeExists (s : State) (c : CfgSet) (held : Tab (List Nat)) (k : Need) (migrating : Bool) : Bool :=
  (List.range s.groups).any (fun g =>
    let l := s.ranked c k migrating g (s.candidate c held k migrating)
    (firstSome (fun h => gangFrom c k h l) l).isSome)

/-- A stage that may be shared: where no free eligible stage exists (R193). -/
def State.seekShared (s : State) (c : CfgSet) (held : Tab (List Nat)) (k : Need) (migrating : Bool)
    (allow : Allow) : Option (List Nat) :=
  if !k.share || s.freeExists c held k migrating then none
  else firstSome (fun g =>
    firstSome (fun p => if s.affords c held k.fig [p] && allow [p] then some [p] else none)
      (s.ranked c k migrating g (fun p =>
        let d := descIn c p
        k.size d == 1 && s.unfit c k 1 p == 0 && !(onPort held p).isEmpty && mayShare c held k p &&
          !s.unready d p && roleFits c k migrating p && !k.avoid.contains p)))
    (List.range s.groups)

/-- The gang needed can be formed in a stage's group (R634, GANG). -/
def State.formable (s : State) (c : CfgSet) (held : Tab (List Nat)) (k : Need) (migrating : Bool)
    (p : Nat) : Bool :=
  k.size (descIn c p) == 1 || (gangFrom c k p
    (s.ranked c k migrating (p / 8) (s.candidate c held k migrating))).isSome

/-- The cause of a stage for a figure (R634); 0 when nothing stands against it. -/
def State.causeAt (s : State) (c : CfgSet) (held : Tab (List Nat)) (k : Need) (n : Nat)
    (formable migrating : Bool) (p : Nat) : Nat :=
  let d := descIn c p
  let u := s.unfit c k n p
  if u != 0 then u
  else if !(if !(onPort held p).isEmpty && n == 1 && mayShare c held k p then s.affords c held k.fig [p]
      else s.affordsOwn c held k.fig) then 7
  else if !(onPort held p).isEmpty && !(n == 1 && mayShare c held k p) then 8
  else if !formable then 9
  else if s.unready d p then 10
  else if !roleFits c k migrating p then 13
  else 0

/-- The cause of a stage with the gang size it needs itself. -/
def State.ownCause (s : State) (c : CfgSet) (held : Tab (List Nat)) (k : Need) (migrating : Bool)
    (p : Nat) : Nat :=
  s.causeAt c held k (k.size (descIn c p)) (s.formable c held k migrating p) migrating p

/-- The members a pin asks for, each with its cause (R198). Where fig.pin_gang leaves the gang to the
armature, the pinned stage is one of its members, and the lowest is the master (R192; DEDUCED, log entry
133). -/
def State.pinned (s : State) (c : CfgSet) (held : Tab (List Nat)) (k : Need) (pin : Nat) :
    List Nat × Nat :=
  if k.pinGang.isEmpty then
    let l := s.ranked c k false (pin / 8) (fun q => q != pin && s.candidate c held k false q)
    match gangFrom c k pin l with
    | some m =>
      let n := m.length
      let cause := s.causeAt c held k n true false pin
      (m, if cause = 0 && !s.affords c held k.fig m then 7 else cause)
    | none =>
      (let n := k.size (descIn c pin)
       ([pin], s.causeAt c held k n false false pin))
  else
    let n := k.pinGang.length
    let bonded := k.pinGang.contains pin && (n == 1 || k.pinGang.all (kin c pin))
    (k.pinGang, lmax (k.pinGang.map (s.causeAt c held k n bonded false)))

/-- Where a figure of the second pass goes: its members, or the cause it carries (R191, R634). -/
def State.seek (s : State) (c : CfgSet) (held : Tab (List Nat)) (k : Need) : Except Nat (List Nat) :=
  match k.pin with
  | some pin =>
    let r := s.pinned c held k pin
    if r.2 = 0 then .ok r.1 else .error r.2
  | none =>
    match s.seekFree c held k false (fun _ => true) with
    | some m => .ok m
    | none =>
      match s.seekShared c held k false (fun _ => true) with
      | some m => .ok m
      | none => .error (lmax ((List.range (8 * s.groups)).map (s.ownCause c held k false)))

/-! ## Rotation (R197) -/

/-- A move of a figure from its stages is wanted. -/
def State.wantsMove (s : State) (c : CfgSet) (k : Need) (members : List Nat) : Bool :=
  let ok (p : Nat) : Bool :=
    let d := descIn c p
    !members.contains p && s.unfit c k (k.size d) p == 0 && !s.unready d p && roleFits c k false p
  let free (p : Nat) : Bool := (s.figsOn p).all (fun g => pnat c.params 0x400 g != 1)
  let ports := (List.range (8 * s.groups)).filter ok
  let own := (members.filterMap (fun p => (s.spAt p).temp))
  let dt : Int := 16 * (pnat c.params 0x152 0 : Int)
  k.pin.isNone &&
    ((members.any (fun p => (s.spAt p).warned) && ports.any (fun p => !(s.spAt p).warned)) ||
     own.any (fun t => ports.any (fun p => free p &&
       (match (s.spAt p).temp with
        | some u => decide (u + dt ≤ t)
        | none => false))))

/-- fig.rotate permits a move now. -/
def State.allowsMove (s : State) (k : Need) : Bool :=
  let x := s.figAt k.fig
  (1 ≤ k.rotate && !x.enabled) ||
    (k.rotate == 2 && x.flight.all (fun q => q.state == .pending))

/-! ## The plan (R190, R191) -/

/-- Members, ascending by figure, and causes of figures unplaced, in the order in which they failed. -/
structure Plan where
  held : Tab (List Nat)
  unplaced : List (Nat × Nat)
  deriving DecidableEq, Repr

/-- A figure of the Cast stays on its stages (R191). A spare stage that a migration has given it stays
its own (R204). -/
def State.keeps (s : State) (c : CfgSet) (held : Tab (List Nat)) (f : Nat) : Bool :=
  let k := needOf c f
  let old := s.placeAt f
  let m := old.members
  let bonded := m.length == 1 || m.all (fun p => kin c (m.headD 0) p)
  holds old && !m.isEmpty && s.sets.cast.figs.contains f && sameNeed s.sets.cast c f &&
    m.all (fun p =>
      s.unfit c k m.length p == 0 && !s.unready (descIn c p) p && bonded &&
      ((onPort held p).isEmpty || (m.length == 1 && mayShare c held k p)) &&
      (roleFits c k false p || (pnat c.params 0x440 p == 1 && s.castN 0x440 p == 1))) &&
    !(s.wantsMove c k m && s.allowsMove k)

/-- The order of the second pass: pinned first, fig.prio, gang size needed descending, ID. -/
def State.passOrder (s : State) (c : CfgSet) (a b : Nat) : Bool :=
  let x := needOf c a
  let y := needOf c b
  let need (k : Need) : Nat :=
    ((List.range (8 * s.groups)).filter (fun p => (tget? c.descs p).isSome)).foldl
      (fun n p => min n (k.size (descIn c p))) 9
  if x.pin.isSome != y.pin.isSome then x.pin.isSome
  else if x.prio != y.prio then decide (x.prio < y.prio)
  else if need x != need y then decide (need y < need x)
  else decide (a < b)

/-- Where a figure of the second pass goes. One that a move under R197 takes from its stages goes to
others; where none serves it, it may have its own again (log entry 134). -/
def State.seekMove (s : State) (c : CfgSet) (held : Tab (List Nat)) (f : Nat) : Except Nat (List Nat) :=
  let k := needOf c f
  let m := (s.placeAt f).members
  if holds (s.placeAt f) && !m.isEmpty && s.wantsMove c k m && s.allowsMove k then
    match s.seek c held { k with avoid := m } with
    | .ok l => .ok l
    | .error _ => s.seek c held k
  else s.seek c held k

/-- The placement of a set (R191). -/
def State.plan (s : State) (c : CfgSet) : Plan :=
  let figs := enabledFigs c
  let kept : Tab (List Nat) := figs.foldl (fun held f =>
    if s.keeps c held f then tput held f (s.placeAt f).members else held) []
  let rest := sortBy (s.passOrder c) (figs.filter (fun f => (tget? kept f).isNone))
  rest.foldl (fun (pl : Plan) f =>
    match s.seekMove c pl.held f with
    | .ok m => { pl with held := tput pl.held f m }
    | .error cause => { pl with unplaced := pl.unplaced ++ [(f, cause)] }) ⟨kept, []⟩

end Sys2Proof.Machine
end

