-- ==== Sys2Proof/Machine/DataPlace.lean ====
section
/-! DEFINITION. Data placement (R208 to R211, R635), the armature's aux entries (R196, R229) and the
placement table a plan gives (R212). -/

namespace Sys2Proof.Machine

/-! ## Peak rates (R635), bytes per second -/

/-- n units of 2^-24 cycle at 70 Hz, in ns. -/
def mtNs (n : Nat) : Frac := ⟨n * 1000000000, 70 * 2 ^ 24⟩

/-- Time of a point of a figure's list in a group of a period, ns. -/
def pointNs (c : CfgSet) (f periodNs : Nat) (e : BitVec 256) : Frac :=
  let tick (n : Nat) : Frac := ⟨n * periodNs, 1⟩
  let dwell := if ptTicks e then tick (ptDwell e) else mtNs (ptDwell e)
  let rest :=
    if ptPulse e then tick (ptWidth e)
    else if ptNoAp e then ⟨0, 1⟩
    else if ptAperture e = 0 then tick (pnat c.params 0x416 f)
    else mtNs (65536 * ptAperture e)
  Frac.max (dwell.add rest) (tick 1)

/-- Least of a list of positive numbers. -/
def leastFrac : List Frac → Option Frac
  | [] => none
  | x :: t => some (match leastFrac t with
    | none => x
    | some y => Frac.min x y)

/-- Loop period of a port's group in a set. -/
def periodIn (c : CfgSet) (p : Nat) : Nat := rateNs (pnat c.params 0x520 (p / 8))

/-- Peak rate of the measurement stream of a figure whose master is a port. -/
def measRate (c : CfgSet) (f p : Nat) : Frac :=
  let ns := periodIn c p
  let n := pnat c.params 0x43A f
  match leastFrac ((List.range n).map (fun i =>
      pointNs c f ns (tget 0#256 c.sweep (pnat c.params 0x439 f + i)))) with
  | some t => (Frac.ofInt 208000000000).div t
  | none => ⟨160000000000, pnat c.params 0x416 f * ns⟩

/-- Peak rate of its aux stream. -/
def auxRate (c : CfgSet) (f p : Nat) : Frac :=
  let g := p / 8
  let host := (auxOf c.aux g).filter (fun e => auxValid e.2)
  let mine := (host.filter (fun e => auxFig e.2 == f)).length
  let ns : Frac := match pnat c.params 0x504 g with
    | 1 => mtNs (2 ^ 24)
    | _ => ⟨nsum ((auxSequence c g).map (fun e => 250 * (auxSettle e.2 + 2 ^ auxAvg e.2))), 1⟩
  if mine = 0 ∨ pnat c.params 0x504 g = 3 then ⟨0, 1⟩
  else (Frac.ofInt (48000000000 * mine)).div ns

/-- Peak rate of a stream of a figure with members; 0 for one without. -/
def streamRate (c : CfgSet) (held : Tab (List Nat)) (q : Nat) : Frac :=
  match tget [] held (qidFig q) with
  | [] => ⟨0, 1⟩
  | p :: _ =>
    if qidStream q = 0 then measRate c (qidFig q) p
    else if qidStream q = 1 then auxRate c (qidFig q) p
    else ⟨0, 1⟩

/-! ## Hot heads (R208) -/

/-- Queues that get a hot head, ascending. -/
def hotHeads (c : CfgSet) (held : Tab (List Nat)) : List Nat :=
  let first := held.map (fun e => 64 * e.1)
  let more := (held.map (fun e => 64 * e.1 + 1)).filter (fun q => (⟨0, 1⟩ : Frac).lt (streamRate c held q))
  let order := sortBy (fun a b => (streamRate c held b).lt (streamRate c held a)) more
  sortBy (fun a b => decide (a < b)) ((first ++ order).take 4096)

/-! ## Rings (R209, R210) -/

/-- MiB of the queue body partition and of archive staging (Table 8.7). -/
def State.partitions (s : State) (c : CfgSet) : Nat × Nat :=
  if s.noMire then (8192 - 320, 0)
  else
    let flexible := 8192 - 448
    let archive := flexible * pnat c.params 0x154 0 / 100
    (flexible - archive, archive)

/-- log2 of the ring a stream asks for. -/
def ringWish (c : CfgSet) (held : Tab (List Nat)) (q : Nat) : Nat :=
  if qidStream q = 3 then 16
  else
    let bytes := ((streamRate c held q).mul ⟨pnat c.params 0x155 0, 1000⟩).ceil
    ((List.range 16).find? (fun k => bytes ≤ 2 ^ (12 + k))).getD 16 + 12

/-- Streams of a figure that have a ring. -/
def ringStreams : List Nat := List.range 6 ++ (List.range 48).map (· + 16)

/-- Scale a ring above 4 KiB into a share of the partition, a power of two of at least 4 KiB. -/
def ringScaled (log2 room want : Nat) : Nat := max 12 (Nat.log2 (2 ^ log2 * room / want))

/-- log2 of every ring, by queue ID ascending. -/
def State.rings (s : State) (c : CfgSet) (held : Tab (List Nat)) : List (Nat × Nat) :=
  let wish := c.figs.flatMap (fun f => ringStreams.map (fun t => (64 * f + t, ringWish c held (64 * f + t))))
  let large (e : Nat × Nat) : Bool := qidStream e.1 != 3 && 12 < e.2
  let fixed := nsum ((wish.filter (fun e => !large e)).map (fun e => 2 ^ e.2))
  let want := nsum ((wish.filter large).map (fun e => 2 ^ e.2))
  let room := (s.partitions c).1 * 2 ^ 20 - fixed
  if want ≤ room then wish
  else wish.map (fun e => if large e then (e.1, ringScaled e.2 room want) else e)

/-- The queues with their rings and hot heads as an Unveil assigns them, n steps of a merge; a queue
without a ring keeps its items. -/
def assignQueues (hot : List Nat) : Nat → Tab Queue → List (Nat × Nat) → Tab Queue
  | 0, _, _ => []
  | _, [], [] => []
  | n + 1, [], (q, r) :: t =>
    (q, { Queue.init with ringLog2 := r, hot := hot.contains q }) :: assignQueues hot n [] t
  | n + 1, (k, x) :: u, [] =>
    (k, { x with ringLog2 := 0, hot := false }) :: assignQueues hot n u []
  | n + 1, (k, x) :: u, (q, r) :: t =>
    if k < q then (k, { x with ringLog2 := 0, hot := false }) :: assignQueues hot n u ((q, r) :: t)
    else if q < k then
      (q, { Queue.init with ringLog2 := r, hot := hot.contains q }) :: assignQueues hot n ((k, x) :: u) t
    else (k, { x with ringLog2 := r, hot := hot.contains q }) :: assignQueues hot n u t

/-! ## Mire target sets (R211) -/

/-- A target set has lost a target: one that is fitted and no longer in use. -/
def State.setLost (s : State) (t : Nat) : Bool :=
  s.sto.targets.any (fun e => e.1 % 8 == t && e.2.fitted && !e.2.usable)

/-- Rate of a figure's archived streams. -/
def figRate (c : CfgSet) (held : Tab (List Nat)) (f : Nat) : Frac :=
  (streamRate c held (64 * f)).add (streamRate c held (64 * f + 1))

/-- The set with the least rate, among those that have lost no target where there are any. -/
def State.leastSet (s : State) (load : Tab Frac) : Nat :=
  let good := (List.range 8).filter (fun t => !s.setLost t)
  let l := if good.isEmpty then List.range 8 else good
  let at_ (t : Nat) : Frac := tget ⟨0, 1⟩ load t
  l.foldl (fun best t => if (at_ t).lt (at_ best) then t else best) (l.headD 0)

/-- Target sets of the archived figures, in the order of R191. -/
def State.mireSets (s : State) (c : CfgSet) (held : Tab (List Nat)) : Tab Nat :=
  if s.noMire || pnat c.params 0x156 0 != 1 then []
  else
    let figs := (held.map (fun e => e.1)).filter (fun f => pnat c.params 0x413 f != 0)
    let old (f : Nat) : Option Nat :=
      match tget? s.sto.figSet f with
      | some t => if s.setLost t then none else some t
      | none => none
    let add (a : Tab Nat × Tab Frac) (f t : Nat) : Tab Nat × Tab Frac :=
      (tput a.1 f t, tput a.2 t ((tget ⟨0, 1⟩ a.2 t).add (figRate c held f)))
    let kept := figs.foldl (fun a f =>
      match old f with
      | some t => add a f t
      | none => a) ([], [])
    ((sortBy (s.passOrder c) (figs.filter (fun f => (old f).isNone))).foldl
      (fun a f => add a f (s.leastSet a.2)) kept).1

/-! ## Armature entries (R196, R229) -/

/-- The entry that reads a stage's temperature. -/
def armEntry (c : CfgSet) (k code : Nat) : BitVec 128 :=
  BitVec.ofNat 128 (0xC0 + k + 2 ^ 8 * code + 2 ^ 16 * 40 + 2 ^ 32 * 0xFFFF +
    2 ^ 48 * pnat c.params 0x157 0 + 2 ^ 72 * 0xFF)

/-- Indexes of n armature entries: after the last valid host entry, or the last free ones where the
table has no room behind it. -/
def armPlaces (host : List Nat) (n : Nat) : List Nat :=
  let free := (List.range 64).filter (fun i => !host.contains i)
  let after := match host.getLast? with
    | some l => free.filter (fun i => decide (l < i))
    | none => free
  if n ≤ after.length then after.take n else free.drop (free.length - n)

/-- The armature's entries of a set. -/
def State.armEntries (s : State) (c : CfgSet) : Tab (BitVec 128) :=
  (List.range s.groups).flatMap (fun g =>
    let l := (List.range 8).filterMap (fun k =>
      match tget? c.descs (8 * g + k) with
      | some d => (dTempAux d.image).map (armEntry c k)
      | none => none)
    let host := ((auxOf c.aux g).filter (fun e => auxValid e.2)).map (fun e => e.1)
    List.zipWith (fun i e => (64 * g + i, e)) (armPlaces host l.length) l)

/-! ## The placement table (Table 8.9) -/

/-- The record a plan gives a figure; MT_SET and PLACE_SEQ still stand as they were. -/
def State.planned (s : State) (c : CfgSet) (pl : Plan) (hot : List Nat) (sets : Tab Nat) (f : Nat) :
    Placement :=
  let old := s.placeAt f
  let k := needOf c f
  let m := tget [] pl.held f
  let forbidden := s.wantsMove c k m && !s.allowsMove k
  { state :=
      if pnat c.params 0x400 f != 1 then .idle
      else match m with
        | [] => .unplaced
        | [p] => if 1 < (onPort pl.held p).length then .sequenced else .placed
        | _ => .placed
    cause := ((pl.unplaced.find? (fun u => u.1 == f)).map (fun u => u.2)).getD 0
    members := m
    pinned := k.pin.isSome
    moved := holds old && !m.isEmpty && old.members != m
    hot := !m.isEmpty && (m.any (fun p => (s.spAt p).warned) || forbidden)
    budgetCut := false
    migCnt := old.migCnt
    claim := k.claim
    mtSet := old.mtSet
    hotHeads := (hot.filter (fun q => qidFig q == f)).length
    mireSet :=
      if s.noMire || pnat c.params 0x413 f == 0 then 0xFE
      else if pnat c.params 0x156 0 == 1 then tget 0xFE sets f else 0xFF
    placeSeq := old.placeSeq }

/-- The placement table of a plan: the defined figures, and those the Cast held. -/
def State.placeTable (s : State) (c : CfgSet) (pl : Plan) : Tab Placement :=
  let hot := hotHeads c pl.held
  let sets := s.mireSets c pl.held
  let gone : Tab Placement := (s.sets.cast.place.filter (fun e => !c.figs.contains e.1)).map (fun e =>
    (e.1, { Placement.init with
      migCnt := e.2.migCnt, mtSet := e.2.mtSet, placeSeq := e.2.placeSeq }))
  c.figs.foldl (fun t f => tput t f (s.planned c pl hot sets f)) gone

/-- The set as an Unveil brings it into force: with its placement and the armature's entries. -/
def State.image (s : State) (c : CfgSet) (pl : Plan) : CfgSet :=
  let d := { c with auxArm := s.armEntries c }
  { d with place := s.placeTable d pl }

end Sys2Proof.Machine
end

