-- ==== Sys2Proof/Machine/Validate.lean ====
section
/-! DEFINITION. Validation (R459, Table 17.3) and the expansion of generators (R395, R396). -/

namespace Sys2Proof.Machine

/-- Why validation fails: status, check and object. -/
structure Failure where
  status : Nat
  check : Nat
  object : Nat
  deriving DecidableEq, Repr

/-- The first object of a list that fails a check. -/
def failing (status check : Nat) (bad : Nat → Bool) (l : List Nat) : Option Failure :=
  (l.find? bad).map (fun x => ⟨status, check, x⟩)

/-- The first failure of a list of checks. -/
def firstFailure (l : List (Option Failure)) : Option Failure := firstSome id l

/-! ## Check 1: relations that need no stage -/

/-- The first relation of a figure that fails, as the ID of its parameter (R297, R352, R457). -/
def figRelation (c : CfgSet) (f : Nat) : Option Nat :=
  let p (id : Nat) : Nat := pnat c.params id f
  let monitor (k : Nat) : Option Nat :=
    let src := p (0x428 + 4 * k) % 8
    if (src = 1 ∨ src = 2) ∧ pint c.params (0x429 + 4 * k) f ≤ pint c.params (0x42A + 4 * k) f then
      some (0x429 + 4 * k)
    else none
  if pint c.params 0x402 f < pint c.params 0x403 f then some 0x403
  else match firstSome monitor [0, 1, 2, 3] with
    | some id => some id
    | none =>
      if p 0x419 = 1 ∧ p 0x41B ≠ 0xFF ∧ p 0x41C ≠ 0xFF ∧ p 0x41C < p 0x41B then some 0x41B else none

/-- The front end parameter that R105 refuses. -/
def frontEnd (c : CfgSet) : Option Nat :=
  let p (id : Nat) : Nat := pnat c.params id 0
  if p 0x121 = 0 then none
  else match ([0x124, 0x125, 0x127] : List Nat).find? (fun id => p id == 0) with
    | some id => some id
    | none => if p 0x123 * 1000 / 10 < 5000 then some 0x123 else none

/-- Check 1. -/
def check1 (c : CfgSet) : Option Failure :=
  match firstSome (figRelation c) c.figs with
  | some id => some ⟨stRange, 1, id⟩
  | none => (frontEnd c).map (fun id => ⟨stRange, 1, id⟩)

/-! ## Check 2: coefficient blocks (R329) -/

/-- A figure lacks a block of a compensator that a mode uses. -/
def lacksBlock (c : CfgSet) (f mode : Nat) : Bool := (compsOf mode).any (fun l => (coefOf c f l).isNone)

/-- Check 2; the plan says which figures are ganged. -/
def check2 (c : CfgSet) (pl : Plan) : Option Failure :=
  failing stRange 2 (fun f => lacksBlock c f (pnat c.params 0x401 f) ||
    (decide (1 < (tget [] pl.held f).length) && (coefOf c f 3).isNone)) (enabledFigs c)

/-! ## Check 3: generators -/

/-- Sites a generator visits: those of its mask, or the template's alone. -/
def genSiteList (b : BitVec 512) : List Nat := setBits 16 (genSites b)

/-- Points of a generator. -/
def genTotal (b : BitVec 512) : Nat := genCount b * max 1 (genSiteList b).length

/-- The greatest m with (2m - 1)^k at most a number, n steps of bisection. -/
def rootAux (x k : Nat) : Nat → Nat → Nat
  | 0, r => r
  | n + 1, r =>
    let c := r + 2 ^ n
    rootAux x k n (if (2 * c - 1) ^ k ≤ x then c else r)

/-- a (b / a)^(i / k) rounded to the nearest, for positive a and b: the greatest m with
(m - 1/2)^k at most a^(k-i) b^i. -/
def logLevel (a b i k : Nat) : Nat := rootAux (2 ^ k * a ^ (k - i) * b ^ i) k 32 0

/-- Level i of a generator (R396). -/
def genLevel (b : BitVec 512) (i : Nat) : Int :=
  let n := genCount b
  if n ≤ 1 then genStart b
  else if genType b = 2 then
    let m : Nat := logLevel (genStart b).natAbs (genStop b).natAbs i (n - 1)
    if genStart b < 0 then -(m : Int) else m
  else rdiv (genStart b * ((n - 1 : Nat) : Int) + (genStop b - genStart b) * i) (n - 1)

/-- A field of an entry replaced. -/
def putField (e : BitVec 256) (lo len : Nat) (v : BitVec 256) : BitVec 256 :=
  let mask := (BitVec.allOnes 256 >>> (256 - len)) <<< lo
  (e &&& ~~~mask) ||| ((v <<< lo) &&& mask)

/-- The entry of level i at the j-th site. -/
def genEntry (b : BitVec 512) (i j : Nat) : BitVec 256 :=
  let e := putField (genTemplate b) 32 32 (BitVec.ofInt 256 (genLevel b i))
  let e := match (genSiteList b)[j]? with
    | some site => putField e 16 8 (BitVec.ofNat 256 site)
    | none => e
  e ||| 0x80#256 ||| (if genType b = 3 then 0x40#256 else 0#256)

/-- The entries of a generator, by table index. -/
def genEntries (b : BitVec 512) : List (Nat × BitVec 256) :=
  let n := genCount b
  let s := max 1 (genSiteList b).length
  (List.range n).flatMap (fun i => (List.range s).map (fun j =>
    (genFirst b + (if genInner b then j * n + i else i * s + j), genEntry b i j)))

/-- The run of table entries a figure's list takes, after expansion. -/
def listRun (c : CfgSet) (f : Nat) : Nat × Nat :=
  match tget? c.gens f with
  | some b => (genFirst b, genTotal b)
  | none => (pnat c.params 0x439 f, pnat c.params 0x43A f)

/-- Two runs overlap. -/
def runsMeet (a b : Nat × Nat) : Bool :=
  decide (0 < a.2) && decide (0 < b.2) && decide (a.1 < b.1 + b.2) && decide (b.1 < a.1 + a.2)

/-- A generator of an enabled figure that R395 refuses. -/
def genRefused (c : CfgSet) (f : Nat) : Bool :=
  match tget? c.gens f with
  | none => false
  | some b =>
    let mask := pnat c.params 0x40A f % 65536
    genCount b == 0 || decide (65536 < genFirst b + genTotal b) ||
    (genType b == 2 && !(decide (0 < genStart b * genStop b))) ||
    (genSiteList b).any (fun j => !mask.testBit j) ||
    (enabledFigs c).any (fun g => g != f && runsMeet (listRun c f) (listRun c g))

/-- Check 3. -/
def check3 (c : CfgSet) : Option Failure := failing stRange 3 (genRefused c) (enabledFigs c)

/-- Expand the generators of the enabled figures (R395). -/
def expand (c : CfgSet) : CfgSet :=
  (enabledFigs c).foldl (fun c f =>
    match tget? c.gens f with
    | none => c
    | some b =>
      let params := pset c.params 0x439 f (BitVec.ofNat 32 (genFirst b))
      { c with
        params := pset params 0x43A f (BitVec.ofNat 32 (genTotal b))
        sweep := (genEntries b).foldl (fun t e => tput t e.1 e.2) c.sweep }) c

/-! ## Check 4: lists (R384) -/

/-- Entries of a figure's list. -/
def listOf (c : CfgSet) (f : Nat) : List (BitVec 256) :=
  (List.range (pnat c.params 0x43A f)).map (fun i => tget 0#256 c.sweep (pnat c.params 0x439 f + i))

/-- An entry that R384 refuses, stage tests apart. -/
def entryRefused (c : CfgSet) (f : Nat) (e : BitVec 256) : Bool :=
  !ptValid e || lacksBlock c f (modeOf e (pnat c.params 0x401 f)) ||
  (!ptKeep e && !(pnat c.params 0x40A f).testBit (ptSite e)) ||
  (ptPulse e && (ptAperture e != 0 || decide (ptWidth e < ptApDelay e + pnat c.params 0x416 f))) ||
  (ptAux e && pnat c.params 0x414 f % 65536 == 0)

/-- Check 4. -/
def check4 (c : CfgSet) : Option Failure :=
  failing stRange 4 (fun f =>
    decide (65536 < pnat c.params 0x439 f + pnat c.params 0x43A f) ||
    (listOf c f).any (entryRefused c f)) (enabledFigs c)

/-! ## Check 5: placement, and the tests against placed stages -/

/-- A figure fails a test against one of its stages (R294, R297, R384). -/
def stageRefused (c : CfgSet) (f : Nat) (shared : Bool) (p : Nat) : Bool :=
  let d := descIn c p
  let n := dRanges d
  let v (id : Nat) : Nat := pnat c.params id f
  let most := max (pint c.params 0x402 f).natAbs (pint c.params 0x403 f).natAbs
  let span := decide (v 0x421 < 4) &&
    (((vFs (v 0x421)).mul (dScale d)).mul ⟨98, 100⟩).lt (micro most)
  let b := rangeBounds c.params f d
  let explicit (x : Nat) : Bool := x != 0xFF && decide (n ≤ x)
  let range := decide (b.2 < b.1) || decide (n ≤ b.1) || decide (n ≤ b.2) ||
    (v 0x419 == 1 && (explicit (v 0x41B) || explicit (v 0x41C)))
  let request (e : BitVec 256) : Bool :=
    decide (ptRngReq e < 14) && !(decide (b.1 ≤ ptRngReq e) && decide (ptRngReq e ≤ b.2) &&
      decide (ptRngReq e < n))
  span || range || (listOf c f).any request || (shared && v 0x43A == 0)

/-- Check 5. -/
def check5 (c : CfgSet) (pl : Plan) : Option Failure :=
  match if pnat c.params 0x150 0 = 1 then pl.unplaced.head? else none with
  | some (f, _) => some ⟨stUnplaceable, 5, f⟩
  | none =>
    (pl.held.find? (fun e =>
      let shared := match e.2 with
        | [p] => decide (1 < (onPort pl.held p).length)
        | _ => false
      e.2.any (stageRefused c e.1 shared))).map (fun e => ⟨stRange, 5, e.1⟩)

/-! ## Check 6: readiness of newly enabled ports -/

/-- A figure runs on these members now. -/
def State.runsOn (s : State) (f : Nat) (members : List Nat) : Bool :=
  (s.figAt f).enabled && s.members f == members && !members.isEmpty

/-- Ports a plan newly enables, ascending. -/
def State.newPorts (s : State) (pl : Plan) : List Nat :=
  (pl.held.foldl (fun l e =>
    if s.runsOn e.1 e.2 then l
    else (e.2.filter (fun p => !(portOn (s.spAt p) && (s.figsOn p).any (fun g =>
      s.runsOn g (tget [] pl.held g))))).foldl insAsc l) [])

/-- A port cannot be enabled now (R104, R120, R149, R166, R64). -/
def State.portUnready (s : State) (c : CfgSet) (p : Nat) : Bool :=
  let supply := if pnat c.params 0x120 0 = 1 then s.pfe.hu == .winddown || s.pfe.hu == .commit
    else !s.pfe.bulkOk || s.pfe.hu != .normal
  supply || !s.grpReady (p / 8) || (dFlt (descIn c p) && (s.spAt p).sup.flt) || s.rst.dieHot

/-- Check 6. -/
def State.check6 (s : State) (c : CfgSet) (pl : Plan) : Option Failure :=
  failing stNotReady 6 (s.portUnready c) (s.newPorts pl)

/-! ## Checks 7 to 9: groups -/

/-- Trigger limits (R224) and the aux table (R233). -/
def State.groupRefused (s : State) (c : CfgSet) (g : Nat) : Bool :=
  let rate := pnat c.params 0x520 g
  let pwm := pnat c.params 0x500 g == 1
  let host := (auxOf c.aux g).filter (fun e => auxValid e.2)
  let arm := auxOf (s.armEntries c) g
  let stages := (List.range 8).filter (fun k =>
    match tget? c.descs (8 * g + k) with
    | some d => (dTempAux d.image).isSome
    | none => false)
  decide ((rateNs rate - 500) / 5 < pnat c.params 0x501 g) ||
  (pwm && (rate == 3 || !dPwm (descIn c (8 * g + pnat c.params 0x502 g)))) ||
  decide (64 < host.length + stages.length) ||
  (host ++ arm).any (fun e => auxSettle e.2 == 0 || decide (6 < auxAvg e.2) ||
    (auxFig e.2 != 0xFFFF && !c.figs.contains (auxFig e.2)))

/-- A loop rate changes while a port of the group is in use (R312). -/
def State.rateBusy (s : State) (c : CfgSet) (g : Nat) : Bool :=
  pnat c.params 0x520 g != (s.grpAt g).rate && (List.range 8).any (fun k =>
    let o := (s.spAt (8 * g + k)).force.out
    o != .off && o != .tripped && o != .standby)

/-- Checks 7 to 9. -/
def State.checkGroups (s : State) (c : CfgSet) : Option Failure :=
  let l := List.range s.groups
  firstFailure [failing stRange 7 (s.groupRefused c) l, failing stBusy 8 (s.rateBusy c) l,
    failing stRange 9 (fun g => !schedFits c c.place g) l]

/-! ## Validation -/

/-- Checks 1 to 10 of a set: the failure, or the set to bring into force with its plan. -/
def State.validate (s : State) (c : CfgSet) : Except Failure (CfgSet × Plan) :=
  let pl := s.plan c
  match firstFailure [check1 c, check2 c pl, check3 c] with
  | some e => .error e
  | none =>
    let x := expand c
    let pl := s.plan x
    let image := s.image x pl
    match firstFailure [check4 x, check5 x pl, s.check6 x pl, s.checkGroups image] with
    | some e => .error e
    | none => .ok (image, pl)

/-- SET_VAL of a failure (Table 17.9), and what DETAIL shows of it (Table 21.7). -/
def Failure.word (e : Failure) : Word := at32 e.status 16 ||| at32 e.check 12 ||| at32 (e.object % 4096) 0
def Failure.detail (e : Failure) : Nat :=
  if e.status = stUnplaceable then e.object else 4096 * e.check + e.object % 4096

end Sys2Proof.Machine
end

