-- ==== Sys2Proof/Machine/Swap.lean ====
section
/-! DEFINITION. The swap that brings a set into force (R36, R461 to R466, Table 17.4): what the figures
that leave, stay and enter do, and what the groups, queues and the Mire take over. -/

namespace Sys2Proof.Machine

/-! ## Figures that leave -/

/-- Members of a figure in a set, none while it holds no stage. -/
def membersIn (c : CfgSet) (f : Nat) : List Nat :=
  let p := tget Placement.init c.place f
  if holds p then p.members else []

/-- Under the old Cast: figures the new one does not place are disabled, and moved ones leave their
stages (R117, R197). A standby's ports run nothing. -/
def State.leaveCast (s : State) (c : CfgSet) : State :=
  (s.fig.filter (fun e => e.2.enabled)).foldl (fun t e =>
    if membersIn c e.1 = s.members e.1 && membersIn c e.1 != [] then t
    else if s.aside then t.modFig e.1 (fun x => { x with enabled := false })
    else if membersIn c e.1 = [] then t.figDisable e.1 1
    else t.figMove e.1) s

/-! ## Placement records (Tables 8.8 to 8.10) -/

/-- The record a figure has from the swap on: a trip stands (Table 17.4), and a change of state, cause
or stages takes the next PLACE_SEQ. -/
def State.newRecord (s : State) (f : Nat) (p : Placement) : Placement :=
  let old := s.placeAt f
  let tripped := holds p && p.members.any (fun q => (s.spAt q).sup.tripped)
  let state := if tripped then
      (if (s.figAt f).migrating.isSome then PlState.migrating else PlState.tripped) else p.state
  let moved := state != old.state || p.cause != old.cause || p.members != old.members
  { p with
    state := state
    migCnt := old.migCnt
    mtSet := if moved then s.mt.mt else old.mtSet
    placeSeq := if moved then old.placeSeq + 1#32 else old.placeSeq }

/-- The set takes force: its records, the stages' PLACE_SEQ and the figure events (Table 16.2). -/
def State.castIn (s : State) (c : CfgSet) : State :=
  let place := tmap (fun f p => s.newRecord f p) c.place
  let changed := place.filter (fun e =>
    e.2 != s.placeAt e.1 || sharers place e.1 != sharers s.sets.cast.place e.1)
  let moved := changed.filter (fun e => e.2.placeSeq != (s.placeAt e.1).placeSeq)
  let ports := moved.foldl (fun l e => (e.2.members ++ s.members e.1).foldl insAsc l) []
  let t := { s with sets := { s.sets with cast := { c with place := place } } }
  let t := ports.foldl (fun t p => t.modSp p (fun x => { x with placeSeq := x.placeSeq + 1#32 })) t
  changed.foldl (fun t e =>
    let t := t.raiseFig e.1 13
    if e.2.state == .unplaced && (s.placeAt e.1).state != .unplaced then t.raiseFig e.1 15 else t) t

/-! ## Groups -/

/-- A group under the new Cast: rate, trigger and aux sequence (R224, R233, R312); its periods count
from the common boundary. A changed sequence starts anew after the entry in progress (R234). -/
def State.groupIn (s old : State) (g : Nat) : State :=
  let seq := auxSequence s.sets.cast g
  let start := s.castN 0x504 g
  let anew := seq != auxSequence old.sets.cast g || start != (s.grpAt g).acq.auxStart
  s.modGrp g (fun x =>
    let a := x.acq
    let due := if anew then [] else a.due
    let dueCycle := if anew then [] else a.dueCycle
    let st := if anew && a.run.isNone && a.urgRun.isNone then restState start else a.auxState
    { x with
      frame := 0
      rate := s.castN 0x520 g
      acq := { a with
        trigMode := s.castN 0x500 g
        trigPort := s.castN 0x502 g
        trigEdge := s.castN 0x503 g
        auxStart := start
        auxClass := auxClassOf seq.length
        due := due
        dueCycle := dueCycle
        auxState := st } })

/-! ## Queues and the Mire (R208 to R212, R512) -/

/-- Members of the placed figures. -/
def State.heldNow (s : State) : Tab (List Nat) :=
  (s.sets.cast.place.filter (fun e => holds e.2 && !e.2.members.isEmpty)).map (fun e => (e.1, e.2.members))

/-- Data placement under the new Cast. -/
def State.dataIn (s : State) : State :=
  let c := s.sets.cast
  let held := s.heldNow
  let hot := hotHeads c held
  let rings := s.rings c held
  let off := (s.sto.state == .none || s.sto.state == .unformatted) &&
    held.any (fun e => pnat c.params 0x413 e.1 == 1 || pnat c.params 0x413 e.1 == 2)
  let t := { s with
    que := { s.que with
      q := assignQueues hot (s.que.q.length + rings.length) s.que.q rings
      hotUsed := hot.length }
    sto := { s.sto with figSet := s.mireSets c held } }
  if off then t.stoFlag 0x800#32 else t

/-! ## Figures that stay -/

/-- Bring a loop's changed block into force without a bump (R330). -/
def State.rebaseLoop (s old : State) (f p loop : Nat) (w : Work) : State :=
  match coefOf s.sets.cast f loop with
  | none => s
  | some b =>
    let a := (coefOf old.sets.cast f loop).getD 0#640
    let d := s.descOf p
    let r := (s.spAt p).force.rng
    let gs := if loop = 3 then gainOf b r ((ampsFull d r).div (ampsFull d 0)) else loopGain w b loop
    s.modLoop p (fun x =>
      x.putComp loop ((x.comp loop).rebase a b gs (if w.gang && loop = 0 then 28 else 16)))

/-- Loops of a figure whose block the Unveil changed. -/
def State.changedLoops (s old : State) (f : Nat) : List Nat :=
  (List.range 4).filter (fun l => coefOf s.sets.cast f l != coefOf old.sets.cast f l)

/-- A figure that goes on takes its changed coefficient blocks (R330, R347, R367). -/
def State.keepBlocks (s old : State) (f : Nat) : State :=
  let mem := s.members f
  match mem, s.changedLoops old f with
  | m :: _, l :: ls =>
    let w := s.workOf f m mem
    let t := (l :: ls).foldl (fun t loop =>
      if loop = 3 then mem.foldl (fun t q => t.rebaseLoop old f q 3 w) t
      else t.rebaseLoop old f m loop w) s
    (mem.foldl (fun t q => t.modelRestart q) t).tuneCut f
  | _, _ => s

/-- IDs that bear on the range and the span of a figure (R297, R637). -/
def rangeIds : List Nat := [0x404, 0x405, 0x419, 0x41A, 0x41B, 0x41C, 0x421]

/-- A figure that goes on takes its changed range and span parameters on all its members: at once, or as
an open range window closes (R637, Table 17.4). -/
def State.keepRange (s old : State) (f : Nat) : State :=
  let mem := s.members f
  let changed := rangeIds.any (fun id => s.cast id f != old.cast id f) ||
    mem.any (fun p => s.desc p != old.desc p)
  if !changed then s
  else
    let mine := mem.filter (fun p => s.serves p == some f)
    if mine.any (fun p => (s.spAt p).force.win.isSome) then
      mine.foldl (fun t p => t.modForce p (fun x => { x with paramsDue := true })) s
    else match mine with
      | p :: _ => s.rangeParams f p
      | [] => s

/-- What makes up a figure's list (Table 14.11). -/
def listParts (c : CfgSet) (f : Nat) : List Nat × Option (BitVec 512) × List (BitVec 256) :=
  ([0x439, 0x43A, 0x43B, 0x43C, 0x43D].map (fun id => pnat c.params id f), tget? c.gens f, listOf c f)

/-- A figure that goes on takes its changed list: a running one ends with its point in flight
(Table 14.11). -/
def State.keepList (s old : State) (f : Nat) : State :=
  let x := s.figAt f
  if listParts s.sets.cast f = listParts old.sets.cast f then s
  else if listRuns x then
    let t := s.ptNotRun f 11
    if x.flight.isSome then t.modFig f (fun y => { y with stop := some 2 }) else t.listReplaced f
  else
    let t := s.setRun f (if s.castN 0x43A f = 0 then .idle else .armed)
    if x.run = .ended then t.ownLevel f else t

/-- A stage that becomes shared opens its loops, but for a point in flight, whose slot it then is; one
that becomes a figure's own closes them again (R397). -/
def State.keepShare (s old : State) (f : Nat) : State :=
  match s.members f with
  | [p] =>
    let before := decide (1 < (old.figsOn p).length)
    let x := s.spAt p
    if !before && s.shared p then
      if (s.figAt f).flight.isSome then s.modSp p (fun x => { x with slotFig := some f })
      else if loopsClosed x then s.openRamp p (s.downPeriods f (s.figAt f).mode p)
      else s
    else if before && !s.shared p then
      let t := s.modSp p (fun x => { x with slotFig := none })
      if x.force.down.isSome && portOn x then (t.closeLoops p x.force.inCode).setLevel f (s.figAt f).level
      else t
    else s
  | _ => s

/-- A running figure that stays on its stages. -/
def State.keepFigure (s old : State) (f : Nat) : State :=
  let t := if s.cast 0x401 f != old.cast 0x401 f && !listRuns (s.figAt f) then s.ownLevel f else s
  let t := t.keepShare old f
  let t := t.keepBlocks old f
  let t := t.keepRange old f
  t.keepList old f

/-! ## Figures that enter -/

/-- Losses that wait for a figure's first enable are reported (R61, R478). -/
def State.firstEnable (s : State) (f : Nat) : State :=
  if (s.figAt f).everEnabled then s
  else (List.range 6).foldl (fun t k => t.reportUnknown (64 * f + k)) (s.reportLost (fun q => qidFig q == f))

/-- Enable a figure on the stages of its record (Table 7.2, R270, R385). A list that a move or a
migration left running goes on. -/
def State.figEnable (s : State) (f : Nat) : State :=
  let x := s.figAt f
  let runs := listRuns x
  let run : RunState := if runs then x.run else if s.castN 0x43A f = 0 then .idle else .armed
  let t := (s.firstEnable f).modFig f (fun y =>
    { y with
      enabled := true
      everEnabled := true
      budgetCut := false
      migrating := none
      qTot := 0#64
      eTot := 0#64
      totGap := false
      totClear := false
      run := run
      mode := if runs then y.mode else s.castN 0x401 f
      level := if runs then y.level else (s.live 0x438 f).toInt })
  if s.aside then t
  else
    let t := (t.members f).foldl (fun t p =>
      if portOn (t.spAt p) && (t.figsOn p).any (fun g => g != f && (t.figAt g).enabled) then t
      else t.enablePort f p) t
    t.setLevel f (t.figAt f).level

/-- Routing that fig.swp_sl asks for (R404). -/
def State.routeRunner (s : State) (f : Nat) : State :=
  match s.master f with
  | none => s
  | some m =>
    let w := s.cast 0x43E f
    let t := if w.getLsbD 31 then s.select (0x80 + m) (bits w 7 0) else s
    if w.getLsbD 30 then t.select (0x100 + m) (bits w 15 8) else t

/-- Every placed figure of the new Cast stays or enters. -/
def State.figuresIn (s old : State) : State :=
  (s.heldNow.map (fun e => e.1)).foldl (fun t f =>
    let p := t.placeAt f
    let t := if (t.figAt f).enabled then
        (if s.aside then t else t.keepFigure old f)
      else if p.state == .placed || p.state == .sequenced then t.figEnable f
      else t
    t.routeRunner f) s

/-! ## The swap -/

/-- Primary-side parameters (R122): those of Table 5.6 that the primary die works by. -/
def primaryParams : List Nat :=
  [0x121, 0x122, 0x123, 0x124, 0x125, 0x126, 0x127, 0x129, 0x131, 0x132]

/-- Primary-side parameters that an Unveil changes travel in the next frame (R122); an Unveil that
disables the PFC ends BULK_OK (R640), and one with pfe.mode = 1 ends SPENT (R120). -/
def State.frontIn (s old : State) : State :=
  let changed := primaryParams.filter (fun i => s.cast i 0 != old.cast i 0)
  let t := s.modIso (fun x => { x with paramsDue := changed.foldl insAsc x.paramsDue })
  let t := if s.castN 0x121 0 = 0 && old.castN 0x121 0 = 1 then
      t.modPfe (fun x => { x with bulkOk := false }) else t
  if t.dcFed && t.pfe.hu == .spent then t.huNormal else t

/-- What the module keeps of the swap of a state (R462, R463): its number, its instant, its digest. -/
def State.swapped (s s0 : State) (internal paired : Bool) : State :=
  let digest := s.digestOf s.sets.cast
  { s with
    sets := { s.sets with
      castSeq := s0.sets.castSeq + 1#32
      unvMt := s0.mt.mt
      unvGen := (s.sets.unvGen + 1) % 16
      castEmpty := false
      lastInt := internal
      lastPaired := paired
      transfer := none
      digest := digest }
    peat := { s.peat with twinDigest := digest } }

/-- Bring a set into force (R461). -/
def State.bringIn (s : State) (c : CfgSet) (paired : Bool) : State :=
  let t := (s.leaveCast c).castIn c
  let t := (List.range s.groups).foldl (fun t g => t.groupIn s g) t
  let t := (t.dataIn.frontIn s).figuresIn s
  t.standbyPorts.mtMode.swapped s false paired

end Sys2Proof.Machine
end

