-- ==== Sys2Proof/Machine/Unveil.lean ====
section
/-! DEFINITION. Unveils, validations, migrations and live writes: their commands and their events
(R18 to R20, R201 to R207, R454 to R466, R574). -/

namespace Sys2Proof.Machine

/-! ## Commands that validate (R455, R456) -/

/-- Freeze the Maquette for a validation. -/
def State.freeze (s : State) : State := { s with sets := { s.sets with frozen := true, phase := 1 } }

/-- A detach of mode 1 is in progress: it meets an Unveil with ST_BUSY (Table 22.9). -/
def State.detaching (s : State) : Bool :=
  s.host.outst.any (fun o => o.opcode == 0x0902 && o.obj == 1) || s.twin.handover.any (fun h => h.kind == 3)

/-- SET_UNVEIL (R455, R456, R461): the named instant stands in aux where obj says so. -/
def execSetUnveil (r : Req) (expect : Option Word) (at_ : Option DWord) (s : State) :
    Host.Outcome State Fault Refusal :=
  umser r 0x0501 { long := true, standbyOk := false } s fun s =>
    if s.sets.frozen || s.detaching then s.refuse r 0x0501 stBusy
    else if expect.any (fun e => e != s.sets.maqSeq) then
      s.refuse r 0x0501 stStale s.sets.maqSeq.toNat
    else (s.defer r 0x0501 (b2n at_.isSome) ((at_.getD 0#64).toNat) 1).freeze

/-- SET_VALIDATE (R455, R456, R460). -/
def execSetValidate (r : Req) (expect : Option Word) (s : State) : Host.Outcome State Fault Refusal :=
  umser r 0x0502 { long := true, standbyOk := false } s fun s =>
    if s.sets.frozen then s.refuse r 0x0502 stBusy
    else if expect.any (fun e => e != s.sets.maqSeq) then
      s.refuse r 0x0502 stStale s.sets.maqSeq.toNat
    else (s.defer r 0x0502 0 0 1).freeze

/-- PLACE_PREVIEW (R212, R574): obj is the first figure, aux the count. -/
def execPlacePreview (r : Req) (first count : Nat) (s : State) : Host.Outcome State Fault Refusal :=
  umser r 0x0211 { long := true } s fun s =>
    if 4096 ≤ first then s.refuse r 0x0211 stRange 0x20
    else if count = 0 ∨ 2048 < count ∨ 4096 < first + count then s.refuse r 0x0211 stRange 0x22
    else s.defer r 0x0211 first count 1

/-! ## What a preview shows -/

/-- The Maquette as a preview sees it: expanded where its generators can be. -/
def State.previewed (s : State) : CfgSet :=
  if (check3 s.sets.maq).isNone then expand s.sets.maq else s.sets.maq

/-- The placement table an Unveil of the present Maquette would give (R574), and how many figures it
would leave unplaced. MT_SET of a record that would change names no Unveil yet: a free value. -/
def State.preview (s : State) : Tab Placement × Nat :=
  let c := s.previewed
  let pl := s.plan c
  let one (f : Nat) (p : Placement) : Placement :=
    let r := s.newRecord f p
    { r with mtSet := if r.placeSeq = (s.placeAt f).placeSeq then r.mtSet else Config.freeWord (s.free + f) }
  (tmap one (s.image c pl).place, pl.unplaced.length)

/-- The 16 bytes of LOOP_SCHED_READ for a group (R316, Table 22.6). -/
def State.schedRecord (s : State) (c : CfgSet) (g : Nat) : List Byte :=
  if !s.hasGrp g then List.replicate 16 0#8
  else
    let t := groupCost c c.place g
    leBytes 1 (pnat c.params 0x520 g) ++ leBytes 1 0 ++ leBytes 2 t.2 ++ leBytes 2 t.1 ++ leBytes 2 0 ++
    (List.range 8).flatMap (fun k =>
      let x := portCost c c.place (8 * g + k)
      leBytes 1 (x.1 + x.2))

/-- LOOP_SCHED_READ (R316): of the Cast, or of the previewed Maquette. -/
def execLoopSchedRead (r : Req) (s : State) : Host.Outcome State Fault Refusal :=
  umser r 0x0C05 { long := true } s fun s =>
    let m := s.previewed
    let c := if r.set then s.image m (s.plan m) else s.sets.cast
    s.ok r 0x0C05 [] ((List.range 16).flatMap (s.schedRecord c))

/-! ## Outstanding commands of the sets -/

/-- Change the outstanding commands of an opcode. -/
def State.modOutst (s : State) (opcode : Nat) (f : Outstanding → Outstanding) : State :=
  { s with host := { s.host with outst := s.host.outst.map (fun o => if o.opcode = opcode then f o else o) } }

/-- The SET_UNVEIL that is being validated. -/
def State.unveiling (s : State) : Option Outstanding :=
  s.host.outst.find? (fun o => o.opcode == 0x0501 && o.phase == 1)

/-- Figures whose migration is due: cut by a fault of the stage they still hold (R201). -/
def State.migrations (s : State) : List Nat :=
  (s.fig.filter (fun e => e.2.migrating.isSome && holds (s.placeAt e.1) && !(s.members e.1).isEmpty)).map
    (fun e => e.1)

/-- The management plane can hand a set to the Unveil boundary (R20). -/
def State.canTransfer (s : State) : Bool :=
  s.rst.mgmtUp && s.rst.ctrlUp && s.sets.transfer.isNone && !s.aside

/-- Where a paired Unveil lands: L from now (R466). -/
def State.pairTarget (s : State) : DWord := s.mtAfter (cdiv s.twin.latency 5)

/-- Hand a set to the boundary and tell the standby (R466). -/
def State.handOver (s : State) (x : Transfer) : State :=
  let y := { x with paired := s.leads, target := s.pairTarget }
  ({ s with sets := { s.sets with transfer := some y } }).tell 8

/-! ## The Unveil (R459 to R463) -/

/-- UNVEIL_TRANSFER (R459, R461): validation ends. A migration due comes first (R204). -/
def execUnveilTransfer (s : State) : Host.Outcome State Fault Refusal :=
  finish s
    (match s.unveiling with
     | none => s
     | some o =>
       if !s.canTransfer || !s.migrations.isEmpty then s
       else match s.validate s.sets.maq with
         | .error e =>
           let t := { s with sets := { s.sets with val := e.word, rejCnt := bump s.sets.rejCnt } }
           t.unfreeze.complete (fun x => x.opcode == 0x0501 && x.phase == 1)
             { status := e.status, detail := e.detail }
         | .ok (image, pl) =>
           let at_ : Option DWord := if o.obj = 1 then some (BitVec.ofNat 64 o.aux) else none
           let late : Bool := match at_ with
             | some t => mtLe t s.mt.mt && t != s.mt.mt
             | none => false
           let t := { s with sets := { s.sets with val := 0#32, phase := 2 } }
           (t.modOutst 0x0501 (fun x => { x with phase := 2, aux := pl.unplaced.length })).handOver
             { image := image, at_ := at_, late := late, internal := false, paired := false
               target := 0#64, acked := false, migrated := [] })

/-- A paired Unveil that the standby has not acknowledged lands alone (R466); the next heartbeat shows
digests that differ, and the pair resynchronises (R598). -/
def State.pairSwap (s : State) (x : Transfer) : State :=
  if x.paired && !x.acked then { s with twin := { s.twin with flags := s.twin.flags ||| 0x400#32 } } else s

/-- UNVEIL_SWAP (R461, R462). -/
def execUnveilSwap (s : State) : Host.Outcome State Fault Refusal :=
  finish s
    (match s.sets.transfer with
     | none => s
     | some x =>
       if x.internal || !s.landsNow x then s
       else
         let t := (s.bringIn x.image (x.paired && x.acked)).pairSwap x
         let t := { t with sets := { t.sets with rstStale := false, copyDue := true, phase := 3 } }
         t.modOutst 0x0501 (fun o =>
           { o with
             phase := 3
             aux := ofLe (leBytes 8 t.sets.unvMt.toNat ++ leBytes 8 t.sets.digest.toNat ++
               leBytes 2 o.aux ++ leBytes 1 (b2n x.late)) }))

/-- MAQUETTE_COPY_END (R463). -/
def execMaquetteCopyEnd (s : State) : Host.Outcome State Fault Refusal :=
  finish s
    (if s.sets.copyDue && s.rst.mgmtUp then
      let t := (s.modMaq (fun _ => maquetteOf s.sets.cast)).unfreeze
      let t := { t with sets := { t.sets with copyDue := false } }
      t.completeAll (fun o => o.opcode == 0x0501 && o.phase == 3)
        (fun o => { status := stOk, result := leBytes 19 o.aux })
    else s)

/-- The validation of SET_VALIDATE (R460). -/
def State.validateEnd (s : State) : State :=
  match s.validate s.sets.maq with
  | .error e =>
    (({ s with sets := { s.sets with val := e.word } }).unfreeze).complete
      (fun o => o.opcode == 0x0502) { status := e.status, detail := e.detail }
  | .ok (_, pl) =>
    (({ s with sets := { s.sets with val := 0#32, valid := true, rstStale := false } }).unfreeze).complete
      (fun o => o.opcode == 0x0502) { status := stOk, result := leBytes 2 pl.unplaced.length }

/-- The preview of PLACE_PREVIEW (R574). -/
def State.previewEnd (s : State) (o : Outstanding) : State :=
  let mine (x : Outstanding) : Bool := x.opcode == 0x0211 && x.mbx == o.mbx && x.tag == o.tag
  match check1 s.sets.maq with
  | some e => s.complete mine { status := e.status, detail := e.detail }
  | none =>
    let p := s.preview
    ({ s with free := s.free + 4096 }).complete mine
      { status := stOk
        result := leBytes 2 o.aux ++ leBytes 2 p.2
        out := (List.range o.aux).flatMap (fun i => placeRecord p.1 (o.obj + i)) }

/-- VALIDATION_END (R460, R574): the oldest of the commands that only validate. -/
def execValidationEnd (s : State) : Host.Outcome State Fault Refusal :=
  finish s
    (match s.host.outst.find? (fun o => o.opcode == 0x0502 || o.opcode == 0x0211) with
     | none => s
     | some o =>
       if !s.rst.mgmtUp then s
       else if o.opcode = 0x0211 then s.previewEnd o
       else if s.migrations.isEmpty then s.validateEnd
       else s)

/-! ## Migration (R201 to R207, R465) -/

/-- Causes of a port's trip other than GANG. -/
def State.faulted (s : State) (p : Nat) : Bool := (s.spAt p).sup.cause &&& ~~~gangBit != 0#32

/-- A placement table with a figure on other members. -/
def putMembers (place : Tab Placement) (f : Nat) (m : List Nat) : Tab Placement :=
  tput place f { tget Placement.init place f with state := .placed, cause := 0, members := m }

/-- Members of the figures that a placement table gives stages. -/
def heldIn (place : Tab Placement) : Tab (List Nat) :=
  (place.filter (fun e => holds e.2 && !e.2.members.isEmpty)).map (fun e => (e.1, e.2.members))

/-- Replacements from a list for all n members of a gang: n stages of one kin. -/
def wholeGang (c : CfgSet) (n : Nat) (l : List Nat) : List Nat :=
  (firstSome (fun h =>
    let x := h :: l.filter (fun q => q != h && kin c h q)
    if n ≤ x.length then some (x.take n) else none) l).getD []

/-- One eligible stage of the group for each faulted member of a gang (R202). -/
def State.repairGang (s : State) (c : CfgSet) (held : Tab (List Nat)) (k : Need) (m : List Nat)
    (allow : Allow) : Option (List Nat) :=
  let good := m.filter (fun p => !s.faulted p)
  let bad := m.length - good.length
  let l := s.ranked c k true (m.headD 0 / 8) (fun p =>
    s.candidate c held k true p && good.all (kin c p) && k.fits (descIn c p) m.length)
  let all := (if good.isEmpty then wholeGang c bad l else l.take bad).foldl insAsc good
  let bonded := all.all (kin c (all.headD 0))
  if all.length != m.length || !bonded then none
  else if s.affords c held k.fig all && allow all then some all else none

/-- Where a migrating figure goes under a placement table (R202, R465). A stage taken by another figure
that migrates is not offered (R203). -/
def State.migrateTo (s : State) (place : Tab Placement) (taken : List Nat) (f : Nat) : Option (List Nat) :=
  let c := s.sets.cast
  let k := needOf c f
  let held := tdel (heldIn place) f
  let m := s.members f
  let allow : Allow := fun l =>
    !l.any taken.contains && schedFits c (putMembers place f l) (l.headD 0 / 8)
  if !s.mayMigrate f then none
  else match m with
    | [_] =>
      match s.seekFree c held k true allow with
      | some l => some l
      | none => s.seekShared c held k true allow
    | _ =>
      match s.repairGang c held k m allow with
      | some l => some l
      | none => s.seekFree c held k true (fun l => l.headD 0 / 8 != m.headD 0 / 8 && allow l)

/-- A figure for which no target exists stays tripped (R203, Table 8.5): NO_TARGET, or NO_MIGRATE where
the Cast no longer lets it migrate. -/
def State.noTarget (s : State) (f : Nat) : State :=
  let cause := if s.mayMigrate f then 11 else 12
  let t := s.modPlace f (fun x =>
    { x with state := .tripped, cause := cause, placeSeq := x.placeSeq + 1#32 })
  let t := (t.raiseFig f 15).listCut f 7 0#16 .idle
  t.modFig f (fun x => { x with migrating := none, again := false })

/-- One migration decided: the table so far, the figures that move and those that cannot. -/
structure Decided where
  place : Tab Placement
  taken : List Nat
  moved : List Nat
  stuck : List Nat

/-- Decide every migration due, in the order of R191 (R203). -/
def State.decide_ (s : State) : Decided :=
  (sortBy (s.passOrder s.sets.cast) s.migrations).foldl (fun d f =>
    match s.migrateTo d.place d.taken f with
    | some m => { d with place := putMembers d.place f m, taken := d.taken ++ m, moved := d.moved ++ [f] }
    | none => { d with stuck := d.stuck ++ [f] }) ⟨s.sets.cast.place, [], [], []⟩

/-- MIGRATION (R201 to R205): the armature decides every migration due, and transfers one internal
Unveil for those that have a target. -/
def execMigration (port : Nat) (s : State) : Host.Outcome State Fault Refusal :=
  finish s
    (if s.canTransfer && (s.figsOn port).any (fun f => s.migrations.contains f) then
      let d := s.decide_
      let t := d.stuck.foldl State.noTarget s
      if d.moved.isEmpty then t
      else
        let image := { s.sets.cast with place := d.place }
        t.handOver
          { image := image, at_ := none, late := false, internal := true, paired := false
            target := 0#64, acked := false
            migrated := d.moved.map (fun f =>
              let x := (s.figAt f).migrating.getD (0#32, 0#32)
              (f, x.2, x.1)) }
    else s)

/-- The 32 bytes of a migration record (Table 24.5). -/
def migrationBytes (f old new : Nat) (cause : Word) (mt : DWord) (placeSeq castSeq : Word)
    (cnt : BitVec 16) (tripSeq : Word) : List Byte :=
  leBytes 2 (f + 5 * 4096) ++ leBytes 1 old ++ leBytes 1 new ++ leBytes 4 cause.toNat ++
  leBytes 8 mt.toNat ++ leBytes 4 placeSeq.toNat ++ leBytes 4 castSeq.toNat ++ leBytes 2 cnt.toNat ++
  leBytes 2 0 ++ leBytes 4 tripSeq.toNat

/-- A figure that shares a stage it had alone, or has one alone that it shared, takes the state that
says so (Table 8.8); one whose SHARERS alone change has a changed record too (R213). -/
def State.reshare (s old : State) (ports : List Nat) : State :=
  ports.foldl (fun t p =>
    let n := (t.figsOn p).length
    (t.figsOn p).foldl (fun u g =>
      let want : PlState := if 1 < n then .sequenced else .placed
      let st := (u.placeAt g).state
      if (st == .placed || st == .sequenced) && st != want && (u.members g).length = 1 then
        (u.modPlace g (fun x => { x with state := want, placeSeq := x.placeSeq + 1#32 })).raiseFig g 13
      else if sharers u.sets.cast.place g != sharers old.sets.cast.place g && u.members g == old.members g then
        u.raiseFig g 13
      else u) t) s

/-- A migrated figure takes its new stages (R207): its record, its events, its migration records. Under
fig.mig_repeat = 1 its cut point is pending again, as a new attempt (Table 8.5). -/
def State.migrated (s : State) (m : List Nat) (f : Nat) (cause tripSeq : Word) : State :=
  let old := s.members f
  let stay := m.filter (fun p => old.contains p)
  let s := (stay.foldl (fun t p => t.clearTrip p) s).modFig f (fun y =>
    { y with next := if y.again then y.next - 1 else y.next })
  let t := s.modPlace f (fun x =>
    { x with
      state := if m.any (fun p => (s.spAt p).sup.tripped) then .tripped else .placed
      cause := 0
      members := m
      moved := true
      hot := m.any (fun p => (s.spAt p).warned)
      migCnt := bump x.migCnt
      mtSet := s.mt.mt
      placeSeq := x.placeSeq + 1#32 })
  let t := (m.foldl insAsc old).foldl (fun t p =>
    t.modSp p (fun x => { x with placeSeq := x.placeSeq + 1#32 })) t
  let r := t.placeAt f
  let t := t.produceRecord f 2 r.placeSeq (migrationBytes f (old.headD 0xFF) (m.headD 0xFF) cause
    s.mt.mt r.placeSeq (s.sets.castSeq + 1#32) r.migCnt tripSeq)
  let t := t.log
    { code := 0x4303
      source := 0x3000 + f
      arg := old.headD 0xFF
      d0 := BitVec.ofNat 32 (m.headD 0xFF)
      d1 := cause
      d2 := r.placeSeq }
  (t.raiseFig f 14).raiseFig f 13

/-- Bring an internal Unveil into force (R465). A standby takes the records of its partner. -/
def State.internalIn (s : State) (x : Transfer) : State :=
  let news (f : Nat) : List Nat := (tget Placement.init x.image.place f).members
  let ports := x.migrated.foldl (fun l e => (news e.1).foldl insAsc l) []
  let t := if s.aside then
      { s with sets := { s.sets with cast := { s.sets.cast with place := x.image.place } } }
    else (x.migrated.foldl (fun t e => t.migrated (news e.1) e.1 e.2.1 e.2.2) s).reshare s
      (x.migrated.foldl (fun l e => (s.members e.1).foldl insAsc l) ports)
  let t := (List.range t.groups).foldl (fun t g => t.modGrp g (fun y => { y with frame := 0 })) t
  let others := (ports.flatMap t.figsOn).filter (fun g => !x.migrated.any (fun e => e.1 == g))
  let t := if s.aside then t
    else others.foldl (fun t g => if (t.figAt g).enabled then t.keepShare s g else t) t
  let t := x.migrated.foldl (fun t e =>
    if (t.placeAt e.1).state = .tripped then t.modFig e.1 (fun y =>
        { y with migrating := none, again := false })
    else (t.figEnable e.1).routeRunner e.1) t
  let t := t.standbyPorts.swapped s true (x.paired && x.acked)
  ({ t with sets := { t.sets with valid := false } }).pairSwap x

/-- INTERNAL_UNVEIL (R204, R465). -/
def execInternalUnveil (s : State) : Host.Outcome State Fault Refusal :=
  finish s
    (match s.sets.transfer with
     | none => s
     | some x => if x.internal && s.landsNow x then s.internalIn x else s)

/-! ## Live writes (R18, R453) -/

/-- A live parameter takes effect: fig.level reaches its figure, and a change of evt.outN.mode drives the
land low (R386, R446). -/
def State.liveIn (s : State) (key : Nat) (v : Word) : State :=
  let id := key / 65536
  let old := s.live id (key % 65536)
  let t := { s with sets := { s.sets with live := pset s.sets.live id (key % 65536) v } }
  if id = 0x438 then t.levelWritten (key % 65536)
  else if 0x188 ≤ id ∧ id ≤ 0x18F ∧ old ≠ v then
    { t with fab := { t.fab with evtOut := tput t.fab.evtOut (id - 0x188) EvtOut.init } }
  else t

/-- A live write can take effect at the tick to come: one of a figure at any tick of its group, a global
one at a common boundary (R18). -/
def State.liveDue (s : State) (key : Nat) : Bool := key / 65536 == 0x438 || s.commonNext

/-- LIVE_WRITE_APPLY (R18, R19): the oldest accepted write whose boundary has come, or the latest one of
the same parameter; an Unveil of the same boundary comes first. -/
def execLiveWriteApply (s : State) : Host.Outcome State Fault Refusal :=
  finish s
    (match s.sets.livePending.find? (fun e => s.liveDue e.1) with
     | none => s
     | some (key, _) =>
       if s.rst.ctrlUp && s.rst.mgmtUp && !s.swapFirst then
         let v := s.liveAccepted (key / 65536) (key % 65536)
         let t := { s with sets := { s.sets with
           livePending := s.sets.livePending.filter (fun e => e.1 != key) } }
         t.liveIn key v
       else s)

end Sys2Proof.Machine
end

