-- ==== Sys2Proof/Machine/Calib.lean ====
section
/-! DEFINITION. Calibration (chapter 15) with the checks and path tests that share its rotation (R243 to
R248), and a group's mains-cycle boundary (R86, R195, R231, R255, R426, R427). Readings are operands;
what the module computes and decides from them is here. -/

namespace Sys2Proof.Machine

/-! ## Status (Tables 15.11, 15.12) -/

/-- Bits of a 4-bit mask below n. -/
def maskOf (n : Nat) : BitVec 4 := BitVec.ofNat 4 (2 ^ n - 1)

/-- A group's rotation runs (R417). -/
def State.rotates (s : State) (g : Nat) : Bool :=
  (s.calAt g).rotating && s.castN 0x170 0 == 1 && (s.calAt g).has 17

/-- CAL_PASSn. -/
def State.calPass (s : State) (g : Nat) : Word :=
  if s.hasGrp g then bitAt (s.rotates g) 31 ||| BitVec.zeroExtend 32 (s.calAt g).passBits else 0#32

/-- CAL_STATUS. -/
def State.calStatus (s : State) : Word :=
  let c := s.cal
  let arb := nsum (c.arb.map (fun e => 2 ^ e.1))
  let ok := nsum (((List.range s.groups).filter (fun g => (s.calAt g).passBits == BitVec.allOnes 18)).map (2 ^ ·))
  at32 (arb % 16) 28 ||| at32 c.arbRun.toNat 24 ||| bitAt c.ext.isSome 23 ||| bitAt c.mainsRun.isSome 22 |||
  bitAt ((tget? c.mains 0).isSome && (tget? c.mains 1).isSome) 21 ||| bitAt c.isrcOn 20 ||| at32 c.refSrc 18 |||
  bitAt (c.slotRun != 0#4) 17 ||| at32 ok 0

/-- CAL_STATUS_READ (R432). -/
def execCalStatusRead (r : Req) (s : State) : Host.Outcome State Fault Refusal :=
  umser r 0x0E07 {} s fun s =>
    s.ok r 0x0E07 []
      (leBytes 4 s.calStatus.toNat ++ leBytes 4 s.cal.flags.toNat ++
        (List.range 16).flatMap (fun g => leBytes 4 (s.calPass g).toNat) ++
        leBytes 8 (BitVec.ofInt 64 s.cal.vRef).toNat ++ leBytes 4 (w32 s.cal.iCal).toNat ++
        leBytes 4 s.cal.date.toNat)

/-! ## Arbiters and mains converter channels (R412, R414, Table 15.6) -/

/-- Factors from the readings of a run: offset in ppb of the 21 V span, gain departure in ppb. -/
def SelfCal_factors (c : SelfCal) (vRef : Int) : ArbFactors :=
  { ofs := rdiv c.zero 21
    gain := rdiv ((c.plus - c.minus) * 1000000000) (2 * vRef.toNat) - 1000000000 }

/-- The cause for which readings are refused before their factors are looked at: scatter, drift. -/
def SelfCal_refused (c : SelfCal) : Nat :=
  if c.rms.any (fun r => decide (500 < r)) then calNoisy else if 8 < c.drift then calDrift else 0

/-- A number lies within plus or minus a limit. -/
def within (x : Int) (limit : Nat) : Bool := decide (x.natAbs ≤ limit)

/-- Judge new arbiter factors against the last ones; first waives the change check (R423). -/
def judgeArb (c : SelfCal) (f : ArbFactors) (last : ArbFactors) (first : Bool) : Nat :=
  if SelfCal_refused c != 0 then SelfCal_refused c
  else if !(within f.ofs 10000 && within f.gain 300000) then calBand
  else if !first && !(within (f.ofs - last.ofs) 2000 && within (f.gain - last.gain) 5000) then calChange
  else 0

/-- Judge new factors of a mains converter channel. -/
def judgeMains (c : SelfCal) (f : ArbFactors) (last : ArbFactors) (first : Bool) : Nat :=
  if SelfCal_refused c != 0 then SelfCal_refused c
  else if !(within f.ofs 50000 && within f.gain 500000) then calBand
  else if !first && !within (f.gain - last.gain) 20000 then calChange
  else 0

/-- Factors with no value. -/
def arbZero : ArbFactors := { ofs := 0, gain := 0 }

/-- An arbiter takes the outcome of a run (R412, R422, R435); the cause, 0 when accepted. -/
def State.arbTake (s : State) (a : Nat) (c : SelfCal) : State × Nat :=
  let f := SelfCal_factors c s.cal.vRef
  let cause := judgeArb c f (tget arbZero s.cal.arb a) (!s.cal.arbAccepted.getLsbD a)
  let t := if cause = 0 then
      s.modCalib (fun x =>
        { x with arb := tput x.arb a f, arbAccepted := x.arbAccepted ||| BitVec.twoPow 4 a })
    else (s.calFlag 4#32).calFail cause 2 a 0
  (t.raise 0x928, cause)

/-- Start the self-calibration of the arbiters of a mask: those that a slot or CAL_EXT uses wait. -/
def State.arbStart (s : State) (mask : BitVec 4) : State :=
  let c := s.cal
  let wait : BitVec 4 := if c.ext.isSome then mask else mask &&& c.slotRun
  s.modCalib (fun x => { x with arbRun := x.arbRun ||| (mask &&& ~~~wait), arbWait := x.arbWait ||| wait })

/-- Arbiters that waited start when what used them ends. -/
def State.arbNext (s : State) : State :=
  let mask := s.cal.arbWait
  (s.modCalib (fun x => { x with arbWait := 0#4 })).arbStart mask

/-- Start a mains converter run where one can run (R414). -/
def State.mainsStart (s : State) : State :=
  if s.cal.mainsRun.isSome || !s.priSeen then s
  else
    (s.modCalib (fun x => { x with mainsRun := some 0, mainsFirst := none, mainsCause := 0 })).modIso
      (fun x => { x with mainsCalDue := true })

/-! ## The start-up sequence (R429) -/

/-- The calibration buses with present groups: bus b serves groups 4b to 4b + 3. -/
def presentBuses (groups : Nat) : BitVec 4 := maskOf (groups / 4)

/-- V_REF and I_CAL change: every arbiter's gain is rescaled at once (R410). -/
def State.assign (s : State) (vRef iCal : Int) (date : Word) (src : Nat) : State :=
  let old := s.cal.vRef
  let scale (f : ArbFactors) : ArbFactors :=
    { f with gain := rdiv ((1000000000 + f.gain) * old) vRef.toNat - 1000000000 }
  s.modCalib (fun x =>
    { x with
      arb := if vRef = old then x.arb else tmap (fun _ f => scale f) x.arb
      vRef := vRef
      iCal := iCal
      date := date
      refMt := s.mt.mt
      refSrc := src })

/-- The assignment of R410 from the Mire, unless a CAL_REF_WRITE stands. -/
def State.assignMire (s : State) : State :=
  match s.sto.sysRef with
  | some (v, i, d) => if s.cal.refSrc = 2 || !s.rst.mireUp then s else s.assign v i d 1
  | none => s

/-- The sequence goes on once what its present step runs has ended. -/
def State.calAdvance (s : State) : State :=
  let c := s.cal
  if c.startStep = 2 && c.arbRun == 0#4 && c.arbWait == 0#4 then
    s.modCalib (fun x => { x with startStep := 3, slotDue := presentBuses s.groups })
  else if c.startStep = 3 && c.slotDue == 0#4 && c.slotRun == 0#4 then
    (List.range s.groups).foldl (fun t g => t.modCal g (fun x => { x with rotating := true, next := 0 }))
      (s.modCalib (fun x => { x with startStep := 4 }))
  else s

/-- CAL_STARTUP (R429). -/
def execCalStartup (s : State) : Host.Outcome State Fault Refusal :=
  finish s
    (if !s.rst.mgmtUp || !s.rst.ctrlUp || !(s.rst.mireUp || s.noMire) then s
    else if s.cal.startStep = 0 then
      let t := (s.assignMire).modCalib (fun x => { x with startStep := 2 })
      let t := t.arbStart 15#4
      if s.dcFed then t else t.mainsStart
    else s.calAdvance)

/-! ## Arbiter and mains converter rows -/

/-- ARBITER_SELF_CAL_DUE (R413). -/
def execArbiterSelfCalDue (s : State) : Host.Outcome State Fault Refusal :=
  finish s
    (if s.rst.mgmtUp && 2 ≤ s.cal.startStep && s.castN 0x172 0 != 0 then
      (s.arbStart (15#4 &&& ~~~s.cal.arbRun)).mainsStart
    else s)

/-- CAL_ARB_SELF (R412, R413): obj is the mask of arbiters still to end, aux the mask that passed with
the cause of the first failure above it. -/
def execCalArbSelf (r : Req) (mask : BitVec 4) (s : State) : Host.Outcome State Fault Refusal :=
  umser r 0x0E02 { long := true } s fun s =>
    if mask &&& (s.cal.arbRun ||| s.cal.arbWait) != 0#4 then s.refuse r 0x0E02 stBusy
    else if mask = 0#4 then s.ok r 0x0E02 [0#8] []
    else (s.defer r 0x0E02 mask.toNat 0 0).arbStart mask

/-- The commands that wait for an arbiter note its outcome; those with none left complete. -/
def State.arbEnded (s : State) (a cause : Nat) : State :=
  let note (o : Outstanding) : Outstanding :=
    if o.obj.testBit a then
      { o with
        obj := o.obj - 2 ^ a
        aux := if cause = 0 then o.aux + 2 ^ a else if o.aux < 16 then o.aux + 16 * cause else o.aux }
    else o
  (s.modOutst 0x0E02 note).completeAll (fun o => o.opcode == 0x0E02 && o.obj == 0)
    (fun o =>
      { status := if o.aux < 16 then stOk else stCalFail, detail := o.aux / 16
        result := leBytes 1 (o.aux % 16) })

/-- ARBITER_SELF_CAL_END (R412). -/
def execArbiterSelfCalEnd (arb : Nat) (c : SelfCal) (s : State) : Host.Outcome State Fault Refusal :=
  finish s
    (if s.rst.mgmtUp && arb < 4 && s.cal.arbRun.getLsbD arb then
      let t := s.modCalib (fun x => { x with arbRun := x.arbRun &&& ~~~(BitVec.twoPow 4 arb) })
      let u := t.arbTake arb c
      (u.1.arbEnded arb u.2).calAdvance
    else s)

/-- CAL_MAINS_SELF (R414). -/
def execCalMainsSelf (r : Req) (s : State) : Host.Outcome State Fault Refusal :=
  umser r 0x0E03 { long := true } s fun s =>
    if s.cal.mainsRun.isSome then s.refuse r 0x0E03 stBusy
    else if !s.priSeen then s.refuse r 0x0E03 stNotReady
    else (s.defer r 0x0E03 0 0 0).mainsStart

/-- A channel's outcome: its factors when accepted, and the cause. -/
def State.mainsJudge (s : State) (ch : Nat) (c : SelfCal) : Option ArbFactors × Nat :=
  let f := SelfCal_factors c s.cal.vRef
  let cause := judgeMains c f (tget arbZero s.cal.mains ch) (!s.cal.mainsAccepted.getLsbD ch)
  (if cause = 0 then some f else none, cause)

/-- A channel's failure: its record and flag. -/
def State.mainsFailed (s : State) (ch cause : Nat) : State :=
  if cause = 0 then s else (s.calFlag 0x10#32).calFail cause 3 ch 0

/-- MAINS_CONVERTER_EXCHANGE (R414): the first channel has ended; the second one begins. -/
def execMainsConverterExchange (c : SelfCal) (s : State) : Host.Outcome State Fault Refusal :=
  finish s
    (if s.rst.mgmtUp && s.cal.mainsRun == some 0 then
      let j := s.mainsJudge 0 c
      (s.modCalib (fun x => { x with mainsRun := some 1, mainsFirst := j.1, mainsCause := j.2 })).mainsFailed
        0 j.2
    else s)

/-- MAINS_CONVERTER_SELF_CAL_END (R414, R428): the factors of both channels come into force. -/
def execMainsConverterSelfCalEnd (c : SelfCal) (s : State) : Host.Outcome State Fault Refusal :=
  finish s
    (if s.rst.mgmtUp && s.cal.mainsRun == some 1 then
      let j := s.mainsJudge 1 c
      let first := s.cal.mainsFirst
      let cause := if s.cal.mainsCause = 0 then j.2 else s.cal.mainsCause
      let put (ch : Nat) (f : Option ArbFactors) (x : Cal) : Cal :=
        match f with
        | some v =>
          { x with mains := tput x.mains ch v, mainsAccepted := x.mainsAccepted ||| BitVec.twoPow 2 ch }
        | none => x
      let t := s.modCalib (fun x =>
        { put 1 j.1 (put 0 first x) with mainsRun := none, mainsFirst := none, mainsCause := 0 })
      (t.mainsFailed 1 j.2).complete (fun o => o.opcode == 0x0E03)
        { status := if cause = 0 then stOk else stCalFail, detail := cause }
    else s)

/-! ## CAL_EXT, CAL_REF_WRITE, CAL_ISRC (R408 to R411) -/

/-- A value lies within ±0.1 % of a nominal one (Table 15.6). -/
def inBand (x nominal : Int) : Bool := within ((x - nominal) * 1000) nominal.natAbs

/-- Two values differ by at most a number of ppm of the second. -/
def inPpm (x y : Int) (ppm : Nat) : Bool := within ((x - y) * 1000000) (ppm * y.natAbs)

/-- Nominal V_REF in nV and I_CAL in pA. -/
abbrev vRefNominal : Int := 7000000000
abbrev iCalNominal : Int := 1000000000

/-- CAL_REF_WRITE (R410, R585). -/
def execCalRefWrite (r : Req) (vRef iCal : Int) (date : Word) (s : State) :
    Host.Outcome State Fault Refusal :=
  umser r 0x0E04 {} s fun s =>
    if !inBand vRef vRefNominal then s.refuse r 0x0E04 stRange 0x20
    else if !inBand iCal iCalNominal then s.refuse r 0x0E04 stRange 0x28
    else (s.assign vRef iCal date 2).ok r 0x0E04 [] []

/-- CAL_EXT (R408, R409): nominal in nV, tol in ppm, rs in µΩ; the source of CAL_ISRC goes off. obj is
the date. -/
def execCalExt (r : Req) (nominal : Int) (tol rs : Nat) (date : Word) (s : State) :
    Host.Outcome State Fault Refusal :=
  umser r 0x0E01 { long := true } s fun s =>
    let v := nominal.natAbs
    if v < 1000000000 ∨ 10500000000 < v then s.refuse r 0x0E01 stRange 0x20
    else if rs ≠ 0 ∧ (rs < 1000000000 ∨ 10000000000 < rs) then s.refuse r 0x0E01 stRange 0x30
    else if s.cal.startStep < 2 then s.refuse r 0x0E01 stNotReady
    else if s.cal.ext.isSome || s.twin.partnerCal then s.refuse r 0x0E01 stBusy
    else
      let t := (s.defer r 0x0E01 date.toNat 0 0).modCalib (fun x =>
        { x with ext := some { nominal := nominal, tol := tol, rs := rs, refD := s.castN 0x17A 0 }, isrcOn := false })
      s.tellBusy t

/-- CAL_ISRC (R411): 0 off, 1 positive, 2 negative. -/
def execCalIsrc (r : Req) (mode : Nat) (s : State) : Host.Outcome State Fault Refusal :=
  umser r 0x0E06 {} s fun s =>
    if 2 < mode then s.refuse r 0x0E06 stRange 0x20
    else if s.cal.ext.isSome || s.twin.partnerCal then s.refuse r 0x0E06 stBusy
    else
      let t := s.modCalib (fun x => { x with isrcOn := mode != 0, isrcNeg := mode == 2 })
      (s.tellBusy t).ok r 0x0E06 (leBytes 4 (w32 s.cal.iCal).toNat) []

/-- ISRC_LIMIT (R411). -/
def execIsrcLimit (s : State) : Host.Outcome State Fault Refusal :=
  finish s
    (if s.cal.isrcOn then
      s.tellBusy ((s.modCalib (fun x => { x with isrcOn := false })).calFlag 0x100#32)
    else s)

/-- The mean of a list of readings. -/
def meanOf (l : List Int) : Int := rdiv (isum l) (max 1 l.length)

/-- Values spread by more than 1 ppm. -/
def spread (l : List Int) : Bool := l.any (fun x => l.any (fun y => !inPpm x y 1))

/-- V_REF as each arbiter gives it (Table 15.2 step 4). -/
def extRef (x : ExtRun) (c : ExtCal) : List Int :=
  List.zipWith (fun v i => rdiv (x.nominal * v * (if i < 0 then -1 else 1)) (max 1 i.natAbs)) c.meanRef c.meanIn

/-- I_CAL as each arbiter gives it, pA: half the reversed drop over R_s. -/
def extCurrent (x : ExtRun) (c : ExtCal) : List Int :=
  List.zipWith (fun f r => rdiv ((f - r) * 1000000000) (2 * x.rs)) c.fwd c.rev

/-- The cause for which steps 2 to 5 of Table 15.2 fail; 0 when they do not. -/
def extCause (x : ExtRun) (c : ExtCal) : Nat :=
  if c.quiet.any (fun r => decide (500 < r)) then calNoisy
  else if c.rail then calOvr
  else if c.meanIn.any (fun v => !inPpm v x.nominal x.tol) then calOutOfTol
  else if spread (extRef x c) then calDisagree
  else if 8 < c.drift then calDrift
  else if x.rs = 0 then 0
  else if c.resRail then calOvr
  else if c.resRms.any (fun r => decide (500 < r)) then calNoisy
  else if (List.zipWith (fun f r => f - r) c.fwd c.rev).any (fun d =>
      !within ((d - 2 * (x.rs : Int)) * 20) (2 * x.rs)) then calOutOfTol
  else if spread (extCurrent x c) then calDisagree
  else 0

/-- Step 6: the band, and the change against an assignment that is not the factory's (R423). -/
def State.refCause (s : State) (d : Nat) (v i : Int) : Nat :=
  if !inBand v vRefNominal || !inBand i iCalNominal then calBand
  else if s.cal.refSrc != 0 && !(inPpm v s.cal.vRef d && inPpm i s.cal.iCal d) then calChange
  else 0

/-- CAL_EXT fails with a cause (R425). -/
def State.extFailed (s : State) (cause object : Nat) : State :=
  ((s.calFlag 8#32).calFail cause object 0 0).complete (fun o => o.opcode == 0x0E01)
    { status := stCalFail, detail := cause }

/-- The four arbiters of step 1; the first cause of a failure. -/
def State.extArbs (s : State) : Nat → List SelfCal → State × Nat
  | _, [] => (s, 0)
  | a, c :: rest =>
    let u := s.arbTake a c
    let v := u.1.extArbs (a + 1) rest
    (v.1, if u.2 = 0 then v.2 else u.2)

/-- CAL_EXT_END (R409, R410, R422): its readings are judged step by step. -/
def execCalExtEnd (c : ExtCal) (s : State) : Host.Outcome State Fault Refusal :=
  finish s
    (match s.cal.ext with
     | none => s
     | some x =>
       if !s.rst.mgmtUp then s
       else
         let date := BitVec.ofNat 32 (((s.host.outst.find? (fun o => o.opcode == 0x0E01)).map
           (fun o => o.obj)).getD 0)
         let arbs := s.extArbs 0 (c.selfCal.take 4)
         let t := arbs.1
         let v := meanOf (extRef x c)
         let i := if x.rs = 0 then t.cal.iCal else meanOf (extCurrent x c)
         let cause := if arbs.2 = 0 then extCause x c else arbs.2
         let t :=
           if cause != 0 then t.extFailed cause 5
           else if t.refCause x.refD v i != 0 then t.extFailed (t.refCause x.refD v i) 4
           else
             let t := t.assign v i date 1
             let t := if t.rst.mireUp then { t with sto := { t.sto with sysRef := some (v, i, date) } } else t
             t.complete (fun o => o.opcode == 0x0E01)
               { status := stOk
                 result := leBytes 8 (BitVec.ofInt 64 v).toNat ++ leBytes 4 (w32 i).toNat ++
                   leBytes 8 t.mt.mt.toNat ++ leBytes 4 date.toNat }
         let t := (t.modCalib (fun y => { y with ext := none })).arbNext
         (s.tellBusy t).raise 0x92A)

/-! ## Factor sets (Tables 10.1 and 15.6, R422 to R424) -/

/-- The limits in force (Table 15.10). -/
def State.calLimits (s : State) : CalLimits :=
  { ofs := s.castN 0x173 0, g := s.castN 0x174 0, lin := s.castN 0x175 0, dOfs := s.castN 0x176 0
    dG := s.castN 0x177 0, closeTol := s.castN 0x178 0, spareTol := s.castN 0x179 0, refD := s.castN 0x17A 0
    stepN := s.castN 0x17B 0 }

/-- A pass or slot of a group starts: its checks use the limits of this moment (R433). -/
def State.limitsAt (s : State) (g : Nat) : State := s.modCal g (fun c => { c with limits := s.calLimits })

/-- A set lies within the band. -/
def CalLimits.band (l : CalLimits) (f : Factors) : Bool :=
  within (f.ofs * 1000000) (l.ofs * 2 ^ 31) && within ((f.g - 2 ^ 30) * 1000000) (l.g * 2 ^ 30) &&
    f.lin.all (fun x => within (16 * x * 1000000) (l.lin * 2 ^ 31))

/-- Two sets lie within the change limits of each other. -/
def CalLimits.near (l : CalLimits) (a b : Factors) : Bool :=
  within ((a.ofs - b.ofs) * 1000000) (l.dOfs * 2 ^ 31) && within ((a.g - b.g) * 1000000) (l.dG * 2 ^ 30)

/-- The last accepted set of an object: one that waits, else the one in force. -/
def CalGrp.lastSet (c : CalGrp) (key : Nat) : Factors :=
  match tget? c.waiting key with
  | some f => f
  | none => tget factorDefault c.inForce key

/-- Slope of y against x by least squares, times 16, for x in 1/16 °C; int16 as Table 10.1 holds it. -/
def slope16 (l : List (Int × Int)) : Int :=
  let n : Int := l.length
  let sx := isum (l.map (fun p => p.1))
  let sy := isum (l.map (fun p => p.2))
  let sxy := isum (l.map (fun p => p.1 * p.2))
  let sxx := isum (l.map (fun p => p.1 * p.1))
  clamp (-32768) 32767 (rdiv (16 * (n * sxy - sx * sy)) (n * sxx - sx * sx).toNat)

/-- Sets that suffice for a refit (R424): 16 of them over at least 4 °C. -/
def refits (l : List Factors) : Bool :=
  l.length == 16 && l.any (fun a => l.any (fun b => decide (64 ≤ a.tCal - b.tCal)))

/-- A new set with its temperature terms: refitted, or those of the set before it (R424). -/
def CalGrp.termed (c : CalGrp) (key : Nat) (f : Factors) : Factors :=
  let l := (f :: tget [] c.history key).take 16
  if refits l then
    { f with aT := slope16 (l.map (fun x => (x.tCal, x.ofs))), gT := slope16 (l.map (fun x => (x.tCal, x.g))) }
  else
    let last := c.lastSet key
    { f with aT := last.aT, gT := last.gT }

/-- Band and change checks of new sets of a slice: 0, BAND or CHANGE. -/
def CalGrp.judge (c : CalGrp) (l : CalLimits) (slice : Nat) (sets : List (Nat × Factors)) : Nat :=
  if !sets.all (fun e => l.band e.2) then calBand
  else if !c.accepted.contains slice && !sets.isEmpty then 0
  else if !sets.all (fun e => l.near e.2 (c.lastSet (8 * slice + e.1))) then calChange
  else 0

/-- Results of a slice agree with one another within the change limits. -/
def CalLimits.agree (l : CalLimits) (runs : List (List (Nat × Factors))) : Bool :=
  runs.all (fun a => runs.all (fun b => a.all (fun x =>
    (b.filter (fun y => y.1 == x.1)).all (fun y => l.near x.2 y.2))))

/-- The second waiver of R423: enough results in a row that failed the change check alone agree. -/
def State.stepWaives (s : State) (g slice : Nat) (sets : List (Nat × Factors)) : Bool :=
  let l := (s.calAt g).limits
  let runs := (sets :: tget [] (s.calAt g).changeFails slice).take l.stepN
  l.stepN != 0 && runs.length == l.stepN && l.agree runs

/-- A slice's sets are accepted: they wait, or for the spare come into force (R416, R426). -/
def CalGrp.accept (c : CalGrp) (slice : Nat) (sets : List (Nat × Factors)) : CalGrp :=
  let hist (h : Tab (List Factors)) (key : Nat) (f : Factors) : Tab (List Factors) :=
    let l := (f :: tget [] h key).take 16
    tput h key (if refits l then [] else l)
  let put (t : Tab Factors) : Tab Factors := sets.foldl (fun t e => tput t (8 * slice + e.1) e.2) t
  { c with
    inForce := if slice = 17 then put c.inForce else c.inForce
    waiting := if slice = 17 then c.waiting else put c.waiting
    passOk := c.passOk ||| BitVec.twoPow 18 slice
    accepted := insAsc c.accepted slice
    changeFails := tdel c.changeFails slice
    history := sets.foldl (fun h e => hist h (8 * slice + e.1) e.2) c.history }

/-- A slice's sets are refused: the results that failed the change check alone are kept (R423). -/
def CalGrp.refuse (c : CalGrp) (slice cause : Nat) (sets : List (Nat × Factors)) : CalGrp :=
  { c with
    passOk := c.passOk &&& ~~~(BitVec.twoPow 18 slice)
    changeFails := if cause = calChange then
        tput c.changeFails slice ((sets :: tget [] c.changeFails slice).take 16)
      else tdel c.changeFails slice }

/-- The end of a pass or slot of a slice: accepted, or refused with its record and events (R416, R422,
R423, R435). The cause, 0 when accepted. -/
def State.setsEnd (s : State) (g slice cause : Nat) (sets : List (Nat × Factors)) : State × Nat :=
  let step := cause == calChange && s.stepWaives g slice sets
  if cause = 0 || step then
    let t := s.modCal g (fun c => c.accept slice sets)
    (if step then t.calFlag 0x20#32 else t, 0)
  else
    let t := s.modCal g (fun c => c.refuse slice cause sets)
    let t := t.calFlag (if slice = 17 then 2#32 else 1#32)
    ((t.calFail cause (if slice = 17 then 1 else 0) 0 (sliceSource g slice)).raiseGrp g 8, cause)

/-! ## Spare slots (R415, R416) -/

/-- A group holds its rotation for a slot: no pass, no check, the spare IDLE. -/
def State.holdsSpare (s : State) (g : Nat) : Bool :=
  (s.calAt g).pass.isNone && (s.grpAt g).acq.spareRole == .idle && !(s.grpAt g).ctxReset &&
    !(s.grpAt g).acq.checks.any (fun c => c.running)

/-- Present groups of a bus. -/
def State.busGroups (s : State) (b : Nat) : List Nat := (List.range s.groups).filter (fun g => g / 4 == b)

/-- SPARE_SLOT_DUE (R415). -/
def execSpareSlotDue (s : State) : Host.Outcome State Fault Refusal :=
  finish s
    (if s.rst.mgmtUp && s.cal.startStep == 4 then
      s.modCalib (fun x => { x with slotDue := presentBuses s.groups &&& ~~~x.slotRun })
    else s)

/-- CAL_SPARE (R415, R416): obj is the mask of buses still to end, aux the mask of groups whose spare
passed with the cause of the first failure above it. -/
def execCalSpare (r : Req) (s : State) : Host.Outcome State Fault Refusal :=
  umser r 0x0E05 { long := true } s fun s =>
    if s.cal.startStep < 2 then s.refuse r 0x0E05 stNotReady
    else if s.cal.slotDue != 0#4 || s.cal.slotRun != 0#4 then s.refuse r 0x0E05 stBusy
    else
      let b := presentBuses s.groups
      (s.defer r 0x0E05 b.toNat 0 0).modCalib (fun x => { x with slotDue := b })

/-- The end of a bus's slot for CAL_SPARE. -/
def State.slotEnded (s : State) (bus passed cause : Nat) : State :=
  let note (o : Outstanding) : Outstanding :=
    if o.obj.testBit bus then
      { o with
        obj := o.obj - 2 ^ bus
        aux := o.aux + passed + (if o.aux < 65536 then 65536 * cause else 0) }
    else o
  (s.modOutst 0x0E05 note).completeAll (fun o => o.opcode == 0x0E05 && o.obj == 0)
    (fun o =>
      { status := if o.aux < 65536 then stOk else stCalFail, detail := o.aux / 65536
        result := leBytes 2 (o.aux % 65536) })

/-- SPARE_SLOT_START (R409, R412, R415): at a common boundary at which every present group of the bus
holds. Without arbiter factors the slot does not run, and the spares keep their sets. -/
def execSpareSlotStart (bus : Nat) (s : State) : Host.Outcome State Fault Refusal :=
  let l := s.busGroups bus
  finish s
    (if bus < 4 && s.rst.mgmtUp && s.cal.slotDue.getLsbD bus && s.cal.ext.isNone &&
        !s.cal.arbRun.getLsbD bus && l.all s.holdsSpare then
      let t := s.modCalib (fun x => { x with slotDue := x.slotDue &&& ~~~(BitVec.twoPow 4 bus) })
      if (tget? s.cal.arb bus).isNone then
        let t := l.foldl (fun t g =>
          ((t.calFlag 2#32).calFail calNoArb 1 0 (sliceSource g 17)).raiseGrp g 8) t
        ((t.raise 0x929).slotEnded bus 0 calNoArb).calAdvance
      else
        l.foldl (fun t g =>
          ((t.limitsAt g).modAcq g (fun a => { a with slotAt := some (s.grpAt g).frames })).spare g .calbus 0x1F)
          (t.modCalib (fun x => { x with slotRun := x.slotRun ||| BitVec.twoPow 4 bus }))
    else s)

/-- The spare of one group at the end of its slot: the state, and the cause. -/
def State.spareEnd (s : State) (x : SpareCal) : State × Nat :=
  let c := s.calAt x.grp
  let sets := x.sets.map (fun e => (e.1, c.termed (8 * 17 + e.1) e.2))
  let judged := c.judge c.limits 17 sets
  let cause := if judged = calBand then calBand
    else if 1000 * c.limits.spareTol < x.agree then calCheck else judged
  let t := s.setsEnd x.grp 17 cause sets
  (if t.2 = 0 then t.1.modCal x.grp (fun c => { c with probe := x.probe }) else t.1, t.2)

/-- SPARE_SLOT_END (R416). -/
def execSpareSlotEnd (bus : Nat) (spares : List SpareCal) (s : State) : Host.Outcome State Fault Refusal :=
  finish s
    (if bus < 4 && s.rst.mgmtUp && s.cal.slotRun.getLsbD bus then
      let l := s.busGroups bus
      let mine := spares.filter (fun x => l.contains x.grp)
      let r := mine.foldl (fun (a : State × Nat × Nat) x =>
        let u := a.1.spareEnd x
        (u.1, a.2.1 + (if u.2 = 0 then 2 ^ x.grp else 0), if a.2.2 = 0 then u.2 else a.2.2)) (s, 0, 0)
      let t := l.foldl (fun t g => t.spareIdle g) r.1
      let t := t.modCalib (fun x => { x with slotRun := x.slotRun &&& ~~~(BitVec.twoPow 4 bus) })
      (((t.raise 0x929).slotEnded bus r.2.1 r.2.2).arbNext).calAdvance
    else s)

/-! ## Patina passes (R417 to R420) -/

/-- Begin the pass on the next slice with its opening check. -/
def State.passBegin (s : State) (g : Nat) : State :=
  let n := (s.calAt g).next
  ((s.limitsAt g).modCal g (fun c => { c with pass := some { slice := n, step := 1, cause := 0, sets := [] } })).spare
    g .share n

/-- Start what waits first in a group's queue, else the pass (R244, R246). -/
def State.slotBegin (s : State) (g : Nat) : State :=
  match (s.grpAt g).acq.checks with
  | c :: rest =>
    let t := s.modAcq g (fun a => { a with checks := { c with running := true } :: rest })
    t.spare g (if c.path then .idle else .share) c.slice
  | [] => s.passBegin g

/-- PATINA_PASS_START (R417, R244, R246): a check or test that waits comes first. -/
def execPatinaPassStart (grp : Nat) (s : State) : Host.Outcome State Fault Refusal :=
  finish s
    (if s.grpRuns grp && s.rst.mgmtUp && s.rotates grp && s.holdsSpare grp &&
        !s.cal.slotDue.getLsbD (grp / 4) && !s.cal.slotRun.getLsbD (grp / 4) then s.slotBegin grp
    else s)

/-- An on-demand check ends (R245): its response, and what a failure leaves. -/
def State.demandEnd (s : State) (g : Nat) (c : CheckReq) (r : ShareResult) : State :=
  let ok := s.sharePasses g c.slice (s.castN 0x505 g) r
  let t := (s.modAcq g (fun a => { a with checks := a.checks.drop 1 })).spareIdle g
  if !r.judged then t.complete c.owns { status := stNotReady }
  else
    let t := if ok then t
      else
        ((t.acqFlag g 0x10#32).raiseGrp g 6).log
          { code := 0x4701, source := sliceSource g c.slice, d0 := w32 r.mean, d1 := w32 r.rms }
    t.complete c.owns
      { status := stOk
        result := leBytes 4 r.pairs ++ leBytes 4 (w32 r.mean).toNat ++ leBytes 4 (w32 r.rms).toNat ++
          leBytes 1 (b2n ok) }

/-- SHARE_CHECK_END (R243, R245, R419): of a command, or the opening or closing check of a pass, the
closing one on the new set of the span in use. -/
def execShareCheckEnd (grp : Nat) (own spare : List Int) (novr : List Nat) (s : State) :
    Host.Outcome State Fault Refusal :=
  let a := (s.grpAt grp).acq
  let pairs := sharePairs own spare novr
  finish s
    (if !s.grpRuns grp || !s.rst.mgmtUp then s
    else match a.checks.find? (fun c => c.running), (s.calAt grp).pass with
      | some c, _ =>
        if c.path then s
        else
          let t := s.demandEnd grp c (s.shareResult grp c.slice none pairs)
          match (t.grpAt grp).acq.checks with
          | d :: _ => if d.path then t.passBegin grp else t.slotBegin grp
          | [] => t.passBegin grp
      | none, some p =>
        if p.step = 1 then
          let r := s.shareResult grp p.slice none pairs
          let t := s.modPass grp (fun x => { x with step := 2 })
          if r.judged && !s.sharePasses grp p.slice (s.castN 0x505 grp) r then
            (t.calFlag 0x40#32).log
              { code := 0x0704, source := sliceSource grp p.slice, d0 := w32 r.mean, d1 := w32 r.rms }
          else t
        else if p.step = 6 then
          let k := s.checkSpan grp p.slice
          let r := s.shareResult grp p.slice ((p.sets.find? (fun e => e.1 == k)).map (fun e => e.2)) pairs
          let found := if !r.judged then calOvr
            else if s.sharePasses grp p.slice (s.calAt grp).limits.closeTol r then 0 else calCheck
          s.modPass grp (fun x =>
            { x with step := 7, cause := if found = 0 || x.cause == calBand then x.cause else found })
        else s
      | none, none => s)

/-- A pass ends at B_out: its sets wait or are refused, and the rotation goes on (R418, R426). -/
def State.passEnd (s : State) (g : Nat) (p : Pass) : State :=
  let t := (s.setsEnd g p.slice p.cause p.sets).1.spareIdle g
  t.modCal g (fun c => { c with pass := none, next := (p.slice + 1) % 17 })

/-- A pass that a reset cut hands back; it counts for nothing (R32, R430). -/
def State.passHanded (s : State) (g : Nat) (p : Pass) : State :=
  (s.spareIdle g).modCal g (fun c => { c with pass := none, next := (p.slice + 1) % 17 })

/-- CARRY_HANDOVER (R418, R246): B_in and B_out, at a loop-period boundary of the group. -/
def execCarryHandover (grp : Nat) (s : State) : Host.Outcome State Fault Refusal :=
  let a := (s.grpAt grp).acq
  finish s
    (if !s.grpRuns grp || !s.rst.mgmtUp then s
    else match a.checks.find? (fun c => c.running), (s.calAt grp).pass with
      | some c, _ =>
        if c.path && a.spareRole != .carry then
          (((s.spare grp .carry c.slice).selector grp c.slice .probe).probeSet grp c.slice 0 (-80))
        else s
      | none, some p =>
        if p.step = 2 then
          ((s.spare grp .carry p.slice).selector grp p.slice .ref).modPass grp (fun x => { x with step := 3 })
        else if p.step = 7 then s.passEnd grp p
        else s
      | none, none => if a.spareRole == .carry then s.spareIdle grp else s)

/-- PATINA_SETS_COMPUTED (R418 step 4, R422 to R424): step 5 follows at the next loop boundary. -/
def execPatinaSetsComputed (grp : Nat) (sets : List (Nat × Factors)) (s : State) :
    Host.Outcome State Fault Refusal :=
  finish s
    (match (s.calAt grp).pass with
     | some p =>
       if s.grpRuns grp && s.rst.mgmtUp && p.step == 3 && p.cause == 0 then
         let c := s.calAt grp
         let l := sets.map (fun e => (e.1, c.termed (8 * p.slice + e.1) e.2))
         s.modPass grp (fun x =>
           { x with step := 5, sets := l, cause := c.judge c.limits p.slice l })
       else s
     | none => s)

/-! ## Path tests (R247, R248) -/

/-- PATH_TEST_END (R246 to R248): the raw codes that each span's five levels gave, 256 conversions each,
in level order; a span without them was not tested. -/
def execPathTestEnd (grp : Nat) (readings : List (List (List Int))) (s : State) :
    Host.Outcome State Fault Refusal :=
  finish s
    (match (s.grpAt grp).acq.checks.find? (fun c => c.running) with
     | some c =>
       if s.grpRuns grp && s.rst.mgmtUp && c.path && (s.grpAt grp).acq.spareRole == .carry then
         let word (k : Nat) (code : Int) : Int :=
           (correct ((s.calAt grp).factors c.slice k) (s.grpAt grp).tDie code).1
         let l := (List.range (spansOf c.slice)).map (fun k =>
           pathEntry (s.castN 0x506 grp) c.slice k ((readings.getD k []).map (fun x => x.map (word k))))
         let t := s.modAcq grp (fun a => { a with checks := a.checks.drop 1 })
         let t := t.probeSet grp c.slice (spansOf c.slice - 1) 80
         let t := match l.find? (fun w => bits w 15 8 == 1) with
           | some w => ((t.acqFlag grp 0x20#32).raiseGrp grp 7).log
               { code := 0x4702, source := sliceSource grp c.slice, d0 := w }
           | none => t
         t.complete c.owns { status := stOk, result := padTo 16 (l.flatMap (fun w => leBytes 4 w.toNat)) }
       else s
     | none => s)

/-! ## The mains-cycle boundary of a group (R86) -/

/-- The tick falls inside an aperture of a figure: it holds samples from before and to come (R426). -/
def State.insideAperture (s : State) (f : Nat) : Bool :=
  match (s.figAt f).apOpen with
  | some a => a.first.isSome && !apOver a s.mt.mt
  | none => false

/-- A sense slice's waiting set can come into force now. -/
def State.senseReady (s : State) (g slice : Nat) : Bool :=
  (s.figsOn (8 * g + slice % 8)).all (fun f => !(s.figAt f).enabled || !s.insideAperture f)

/-- The aux slice samples no conversion now (R427). -/
def State.auxReady (s : State) (g : Nat) : Bool :=
  let a := (s.grpAt g).acq
  a.urgRun.isNone && (match a.run with
    | some x => decide (s.clk < x.start + 50 * auxSettle x.image)
    | none => true)

/-- Waiting sets come into force, every span of a slice together (R426, R427). -/
def State.setsIn (s : State) (g : Nat) : State :=
  let go (slice : Nat) : Bool := if slice = 16 then s.auxReady g else s.senseReady g slice
  s.modCal g (fun c =>
    { c with
      inForce := (c.waiting.filter (fun e => go (e.1 / 8))).foldl (fun t e => tput t e.1 e.2) c.inForce
      waiting := c.waiting.filter (fun e => !go (e.1 / 8)) })

/-- A pass that a reset cut, and a carry that no pass or test needs, hand back (R32). -/
def State.handBack (s : State) (g : Nat) : State :=
  let a := (s.grpAt g).acq
  match (s.calAt g).pass with
  | some p => if p.cause = calInterrupted then s.passHanded g p else s
  | none =>
    if (a.spareRole == .carry || a.spareRole == .share) && !a.checks.any (fun c => c.running) then s.spareIdle g
    else s

/-- Σ|V x I| over the enabled ports as means over the mains cycle, µW (R195). -/
def State.cyclePower (s : State) : Nat :=
  nsum ((s.sp.filter (fun e => portOn e.2)).map (fun e => e.2.meas.cycSum / max 1 e.2.meas.cycN))

/-- The enabled figure that the governor disables: the highest fig.prio, then the highest ID. -/
def State.governed (s : State) : Option Nat :=
  let l := (s.fig.filter (fun e => e.2.enabled)).map (fun e => e.1)
  let most := lmax (l.map (s.castN 0x409))
  (l.filter (fun f => s.castN 0x409 f == most)).getLast?

/-- The budget governor once per mains cycle (R195). -/
def State.govern (s : State) : State :=
  let exceeded : Bool := match s.available s.sets.cast with
    | some w => s.pfe.hu == .normal && decide (1000 * w < s.cyclePower)
    | none => false
  let n := if exceeded then s.misc.overCycles + 1 else 0
  let t := { s with
    misc := { s.misc with overCycles := n }
    sp := tmap (fun _ x => { x with meas := { x.meas with cycSum := 0, cycN := 0 } }) s.sp }
  if exceeded && s.rst.mgmtUp && s.castN 0x153 0 ≤ n then
    match t.governed with
    | some f =>
      let u := (t.figDisable f 3).modFig f (fun x => { x with budgetCut := true })
      (u.modPlace f (fun x => { x with budgetCut := true })).raise 0x930
    | none => t
  else t

/-- The lowest group that runs: its boundary stands for the module's. -/
def State.leadsGroups (s : State) (g : Nat) : Bool := (List.range g).all (fun k => !s.grpRuns k)

/-- MAINS_CYCLE_BOUNDARY (R86, R195, R231, R255, R426, R427). -/
def execMainsCycleBoundary (grp : Nat) (tDie : Int) (s : State) : Host.Outcome State Fault Refusal :=
  finish s
    (if s.grpRuns grp && (s.grpAt grp).cycle != some (s.mt.mt.toNat / 2 ^ 24) then
      let c := s.mt.mt.toNat / 2 ^ 24
      let t := (s.combFinish grp).modGrp grp (fun x => { x with tDie := tDie, cycle := some c })
      let t := ((t.setsIn grp).handBack grp).auxCycle grp c
      if s.leadsGroups grp && !s.aside then t.govern else t
    else s)

end Sys2Proof.Machine
end

