-- ==== Sys2Proof/Machine/Reset.lean ====
section
/-! DEFINITION. Reset, start-up and readiness (chapter 6): sources and levels, what each level reaches,
the stretch, the steps of the start, the losses reported after it, and group context resets. -/

namespace Sys2Proof.Machine

/-- Change the reset block. -/
def State.modRst (s : State) (f : Rst → Rst) : State := { s with rst := f s.rst }

/-- Change the peat store. -/
def State.modPeat (s : State) (f : Peat → Peat) : State := { s with peat := f s.peat }

/-! ## Sources and the fuse table (R125, R126) -/

/-- Default level of a source (Table 6.1). -/
def defaultLevel (src : Nat) : Nat := ([0, 1, 3, 3, 1, 1, 1, 1] : List Nat).getD src 3

/-- Levels a source may cause (Table 6.1). -/
def allowedLevels (src : Nat) : List Nat :=
  ([[0], [0, 1, 2, 3], [1, 2, 3], [2, 3], [1, 2, 3], [0, 1, 2, 3], [0, 1], [0, 1]] : List (List Nat)).getD
    src []

/-- The level a source causes under a fuse map; SUPPLY is always L0. -/
def fuseLevel (map : Word) (src : Nat) : Nat :=
  let c := bits map (3 * src + 2) (3 * src)
  if src = 0 then 0 else if 4 ≤ c then c - 4 else defaultLevel src

/-- A field of a map to program holds the default or an allowed level. -/
def fuseFieldOk (map : Word) (src : Nat) : Bool :=
  let c := bits map (3 * src + 2) (3 * src)
  c == 0 || (4 ≤ c && (allowedLevels src).contains (c - 4))

/-! ## The management plane restarts (R32 to R34, R430, R563) -/

/-- What the restart of the management plane cuts of calibration, as the restart will record it:
object of CAL_FAIL, index, record source (R430). -/
def State.calRuns (s : State) : List (Nat × Nat × Nat) :=
  let c := s.cal
  (setBits 4 c.arbRun.toNat).map (fun a => (2, a, 0)) ++
  (if c.ext.isSome then [(5, 0, 0)] else []) ++
  c.mainsRun.toList.map (fun ch => (3, ch, 0)) ++
  ((List.range s.groups).filter (fun g => c.slotRun.getLsbD (g / 4))).map (fun g => (1, 0, sliceSource g 17)) ++
  (c.grp.filterMap (fun e => e.2.pass.bind (fun p =>
    if p.cause = calInterrupted then none else some (0, 0, sliceSource e.1 p.slice))))

/-- Cut calibration runs, slots, passes, checks and tests. A carry hands back at the next mains-cycle
boundary (R32). -/
def State.calCut (s : State) : State :=
  let runs := s.calRuns
  let t := ((List.range s.groups).filter (fun g => s.cal.slotRun.getLsbD (g / 4))).foldl
    (fun t g => t.spareIdle g) s
  let t := t.modCalib (fun c =>
    { c with
      arbRun := 0#4, arbWait := 0#4, ext := none, mainsRun := none, mainsFirst := none, mainsCause := 0
      slotRun := 0#4, cut := c.cut ++ runs
      grp := tmap (fun _ x => { x with pass := x.pass.map (fun p => { p with cause := calInterrupted }) })
        c.grp })
  let t := { t with grp := tmap (fun _ x => { x with acq := { x.acq with checks := [] } }) t.grp }
  s.tellBusy t

/-- Work of the control and data planes goes on, but belongs to no command any more (R563). -/
def State.disown (s : State) : State :=
  let urg (u : Urg) : Urg := if u.cls = 2 then { u with owner := 256 * 65536 } else u
  { s with
    host := { s.host with fetched := [], outst := [] }
    misc := { s.misc with snaps := [] }
    twin := { s.twin with edits := [] }
    que := { s.que with flushes := s.que.flushes.map (fun f => { f with mbx := 256 }) }
    sto := { s.sto with reads := [], releasedHeld := [] }
    grp := tmap (fun _ x =>
      { x with
        tune := x.tune.map (fun y => { y with mbx := 256 })
        acq := { x.acq with
          cap := x.acq.cap.map (fun y => { y with mbx := 256 })
          urg := x.acq.urg.map urg
          urgRun := x.acq.urgRun.map urg } }) s.grp
    sp := tmap (fun _ x => { x with sup := { x.sup with
        leadCmd := x.sup.leadCmd.map (fun _ => (256, 0#16))
        releaseCmd := x.sup.releaseCmd.map (fun _ => (256, 0#16)) } }) s.sp }

/-- The management plane enters reset: no command is carried over, an Unveil that was not transferred
is not performed and the Maquette is marked unvalidated, a MIRE_FORMAT leaves the Mire UNFORMATTED, and
Mire translation stops. Mailboxes keep their ports. -/
def State.mgmtReset (s : State) : State :=
  let t := s.calCut.disown
  let under := s.sets.transfer.isSome || s.sets.copyDue
  let forming := s.sto.state == .formatting
  { t with
    rst := { t.rst with mgmtUp := false, spiUp := false, mireUp := false }
    sets := { t.sets with
      frozen := under
      phase := if under then t.sets.phase else 0
      valid := false
      rstStale := true }
    host := { t.host with
      mbx := tmap (fun _ m => { Mbx.init with port := m.port, owned := m.owned }) t.host.mbx }
    sto := { t.sto with
      state := if forming then .unformatted else t.sto.state
      formatted := t.sto.formatted && !forming
      ops := if forming then t.sto.ops.filter (fun o => o.kind != .erase) else t.sto.ops } }

/-! ## The data plane stops (R22, R34, R142, R478) -/

/-- A queue's entry of the queue state table (R478). -/
def Queue.entry (q : Queue) (era : Word) : QueSaved :=
  { next := q.next, head := ((q.pkts.find? (fun p => !p.copy)).map (fun p => p.seq)).getD q.next, era := era }

/-- A page whose program status was not confirmed is programmed again (R142). -/
def Page.again (p : Page) : Page :=
  if p.state == .programming || p.state == .paused then { p with state := .queued } else p

/-- Staging DRAM loses its contents (L0): the pages, the queue state table and the error ring
(Table 1.6, R478, R628). -/
def State.stagingLost (s : State) : State :=
  { s with
    rst := { s.rst with staging := false, train := true }
    sto := { s.sto with pages := [] }
    que := { s.que with
      saved := [], lostDue := [], lostAll := some (4, s.peat.era), lostDone := [] }
    err := { s.err with ring := [], lost := 0#32, storm := false, stormLosses := 0, deferred := [] } }

/-- The data plane enters reset: what it holds is lost, the queue state table stays in staging DRAM,
rings lose their packets, and pages go back to wait for programming. SEQ goes on at L2 and restarts at
L1 and L0 (R477). -/
def State.dataStop (s : State) : State :=
  let deep := s.rst.level ≤ 1
  let busy := (s.sto.ops.filter (fun o => o.running && o.kind != .read)).map (fun o => o.target)
  let t := s.modRst (fun r => { r with dataUp := false, staging := false })
  let t := if deep then t else t.aperturesLost
  let saved := tmap (fun _ q => q.entry s.peat.era) t.que.q
  let q1 := tmap (fun _ (q : Queue) =>
    { Queue.init with next := q.next, ringLog2 := q.ringLog2, hot := q.hot }) t.que.q
  let t := { t with
    que :=
      if deep then
        { Queues.init with
          saved := saved, lostDue := t.que.lostDue, lostAll := t.que.lostAll, lostDone := t.que.lostDone }
      else { t.que with q := q1, saved := saved, flushes := [] }
    host := { t.host with hdr := [] }
    grp := tmap (fun _ x => { x with acq := { x.acq with cap := none } }) t.grp
    sto := { t.sto with
      pages := t.sto.pages.map Page.again, ops := [], drainReset := [], chanReset := [], sinceLow := []
      cutOps := if deep then [] else busy.foldl insAsc t.sto.cutOps
      state := if deep then .scanning else t.sto.state
      flags := if deep then 0#32 else t.sto.flags } }
  if s.rst.level = 0 then t.stagingLost else t

/-- The packets of error streams that are built are committed (R632). -/
def State.commitErrors (s : State) : State :=
  (s.que.q.filter (fun e => qidStream e.1 == 2)).foldl (fun t e =>
    e.2.due.foldl (fun t b => t.commitPacket e.1 b []) (t.modQue e.1 (fun q => { q with due := [] }))) s

/-- Every record that waits in a trip record buffer is moved out before the buffers go (R632). -/
def State.moveTrips (s : State) : State :=
  let t := s.grp.foldl (fun t e => e.2.trips.foldl State.moveRecord t) s
  ({ t with grp := tmap (fun _ (x : Grp) => { x with trips := [], intPend := false }) t.grp }).commitErrors

/-! ## The control plane enters reset (R30, R101, R129, R140, R458) -/

/-- Everything the control plane holds takes its reset state; the host link goes down with its lanes
(Table 6.5). The input lands, the primary die (R13), storage media, fuses and the retention domain are
not reached; the data plane's queues and pages stay until it stops. -/
def State.ctrlReset (s : State) (lost : Word) : State :=
  { State.reset with
    ident := s.ident
    rst := { s.rst with
      phase := if s.rst.phase == .orderedStretch then .stretch else .inReset
      pll := false, ctrlUp := false, mgmtUp := false, spiUp := false, mireUp := false
      hold := none, resetN := false, booted := false }
    peat := { s.peat with
      lostTrips := lost, twinSerial := s.twin.partner, twinDigest := s.sets.digest }
    iso := { Iso.init with txValid := s.iso.txValid }
    pfe := { Pfe.init with pri := s.pfe.pri }
    sp := tmap (fun _ x => { Sp.init with sup := { Sup.init with flt := x.sup.flt } })
      (tfilter (fun _ x => x.sup.flt) s.sp)
    fab := { Fab.init with evtIn := s.fab.evtIn }
    que := s.que
    sto := { s.sto with
      rate := 0, measured := false, progFail := 0#32, eraseFail := 0#32, timeoutCnt := 0#32, rdCorr := 0#32
      lostCnt := 0#32, preempt := 0#32, drainRst := 0#32, badBlk := 0#32, robin := 0, figSet := [] }
    cal := { Cal.init with fuse := s.cal.fuse, fuseArb := s.cal.fuseArb, fuseMains := s.cal.fuseMains }
    host := { HostIf.init with dbg := s.host.dbg }
    twin := Twin.init
    err := { s.err with isoFrame := 0#32, satSrc := 0#16 }
    free := s.free
    clk := s.clk
    pending := s.pending }

/-- The control plane enters reset with the planes above it: after ordered trip actions the records
that wait are moved, or counted as lost when the data plane is already down; without them (hard)
nothing is counted (R129, R632). -/
def State.enterReset (s : State) (hard : Bool) : State :=
  let t := if hard || !s.rst.dataUp then s else s.moveTrips
  let lost : Word := if hard then 0xFFFFFFFF#32
    else BitVec.ofNat 32 (nsum (t.grp.map (fun e => e.2.trips.length)))
  t.mgmtReset.ctrlReset lost

/-! ## A handover that departs (R608) -/

/-- The partner stands ready to take over: it was warm at its last heartbeat. -/
def State.partnerWarm (s : State) : Bool := s.leads && s.twin.last.any (fun b => b.warm)

/-- Send HANDOVER: T_h is the first common boundary at or after send + L + 4 µs. kind, level and src go
into the takeover code (Table 23.4). -/
def State.depart (s : State) (kind level : Nat) (src : BitVec 8) : State :=
  let h : HandoverSt :=
    { target := s.mtAfter (cdiv (s.twin.latency + 4000) 5), kind := kind, level := level, src := src
      departing := true, acked := false }
  (s.modTwin (fun x => { x with handover := some h })).sendReliable 9

/-! ## Assertion and release (R129 to R131) -/

/-- The ordered actions before an L1 or L0 reset go on (R129). -/
def Rst.ordering (r : Rst) : Bool := r.phase == .ordered || r.phase == .orderedStretch

/-- RESET, the cause of the trips a reset makes (Table 13.3). -/
def resetBit : Word := 0x4000#32

/-- The ordered actions of an L1 or L0 reset: a handover to a warm partner, or the trip actions on every
enabled port (R129, R608). -/
def State.orderedActions (s : State) : State :=
  if s.partnerWarm then s.depart 2 s.rst.level s.rst.seen
  else (List.range (8 * s.groups)).foldl (fun t p => t.trip p resetBit s.mt.mt 0) s

/-- The data plane stops, if it runs; staging DRAM enters self-refresh, or loses its contents at L0
(R129, Table 1.6). -/
def State.stagingDown (s : State) : State :=
  let t := if s.rst.dataUp then s.dataStop else s.modRst (fun r => { r with staging := false })
  if s.rst.level = 0 && !t.rst.train then t.stagingLost else t

/-- A source asserts with a level (R129, R130): the deepest level seen governs. SUPPLY and CLK act at
once; another source at L1 or L0 first has the ordered actions performed while the control plane
runs. An L1 or L0 reset clears a test hold (R139). -/
def State.assertSource (s : State) (src level : Nat) : State :=
  let deepest := min level s.rst.level
  let ordered := s.rst.ordering
  let t := s.modRst (fun r =>
    { r with
      asserted := r.asserted ||| BitVec.twoPow 8 src
      seen := r.seen ||| BitVec.twoPow 8 src
      level := deepest
      phase := if ordered then .ordered else .inReset })
  let hard := src == 0 || src == 6
  if 2 ≤ deepest then
    let t := if s.rst.mgmtUp then t.mgmtReset else t
    if deepest = 2 then t.stagingDown else t
  else if hard then (if s.rst.ctrlUp then t.enterReset true else t.modRst (fun r => { r with hold := none })).stagingDown
  else if s.rst.ctrlUp then
    if ordered then t else (t.modRst (fun r => { r with phase := .ordered })).orderedActions
  else
    let t := t.modRst (fun r => { r with hold := none })
    if s.rst.dataUp then t else t.stagingDown

/-- A source releases. -/
def State.releaseSource (s : State) (src : Nat) : State :=
  s.modRst (fun r => { r with asserted := r.asserted &&& ~~~(BitVec.twoPow 8 src) })

/-- Assert a source at its fuse level. -/
def State.assertFused (s : State) (src : Nat) : State := s.assertSource src (fuseLevel s.rst.fuse src)

/-! ## The rows of the sources -/

/-- SUPPLY (R60, R125): the V_AUX monitor. An excursion in progress ends in the reset, and its lowest
value is kept. -/
def execSupply (asserted : Bool) (s : State) : Host.Outcome State Fault Refusal :=
  finish s
    (if asserted then
      if s.rst.asserted.getLsbD 0 then s
      else (s.modRst (fun r => { r with
        margin := if r.excursion.isSome then r.excursion else r.margin, excursion := none })).assertSource 0 0
    else s.releaseSource 0)

/-- SUPPLY_MARGIN (Table 24.4): the lowest V_AUX of an excursion, mV. -/
def marginRecord (mv flags : Nat) : ErrSpec := { code := 0x4201, source := 0, flags := flags, d0 := BitVec.ofNat 32 mv }

/-- SUPPLY_MARGIN_SAMPLE (R60): every 100 µs. An excursion begins at any sample below 10.8 V, also at one
of a supply that still rises after SUPPLY has released (DESIGN CHOICE, log entry 125). -/
def execSupplyMarginSample (mv : Nat) (s : State) : Host.Outcome State Fault Refusal :=
  finish s
    (if s.rst.asserted.getLsbD 0 then s
    else if mv < 10800 then
      s.modRst (fun r => { r with excursion := some (match r.excursion with
        | some x => min x mv
        | none => mv) })
    else match s.rst.excursion with
      | some x =>
        if 10800 < mv then (s.modRst (fun r => { r with excursion := none })).log (marginRecord x 0) else s
      | none => s)

/-- VRET_LOSS (R61, R147): retention power is lost while V_AUX is absent. -/
def execVretLoss (s : State) : Host.Outcome State Fault Refusal :=
  finish s
    (if s.rst.asserted.getLsbD 0 then
      (s.modPeat (fun p => { p with lostPower := true, signed := false, regs := [] })).modRst (fun r => { r with margin := none })
    else s)

/-- RST_IN (R125). -/
def execRstIn (low : Bool) (s : State) : Host.Outcome State Fault Refusal :=
  finish s
    (if low then (if s.rst.asserted.getLsbD 1 then s else s.assertFused 1) else s.releaseSource 1)

/-- PERST (R125): the link leaves L0 with PERSTn. -/
def execPerst (low : Bool) (s : State) : Host.Outcome State Fault Refusal :=
  finish s
    (if low then
      if s.rst.asserted.getLsbD 2 then s
      else
        let t := { s with host := { s.host.functionReset with speed := 0, width := 0 } }
        t.assertFused 2
    else s.releaseSource 2)

/-- WDOG (R128). -/
def execWdog (s : State) : Host.Outcome State Fault Refusal :=
  finish s
    (if s.rst.ctrlUp && !s.rst.asserted.getLsbD 3 then
      (s.modPeat (fun p => { p with wdogCnt := bump p.wdogCnt })).assertFused 3
    else s)

/-- CLK (R125): no edge of REF25, or the PLL out of lock. -/
def execClk (s : State) : Host.Outcome State Fault Refusal :=
  finish s (if s.rst.asserted.getLsbD 6 then s else s.assertFused 6)

/-- CLK_RELEASE: REF25 has run for 100 µs. -/
def execClkRelease (s : State) : Host.Outcome State Fault Refusal := finish s (s.releaseSource 6)

/-- FATAL (R125). -/
def execFatal (s : State) : Host.Outcome State Fault Refusal :=
  finish s (if s.rst.asserted.getLsbD 7 then s else s.assertFused 7)

/-- DBG_RESET_INSTRUCTION (R546): the instruction asserts DBG; leaving it changes nothing, for the source
is a pulse. -/
def execDbgResetInstruction (asserted : Bool) (s : State) : Host.Outcome State Fault Refusal :=
  finish s (if asserted && !s.rst.asserted.getLsbD 5 then s.assertFused 5 else s)

/-- RST_REQ_WRITE (R127): KEY 0xA5 and LEVEL 1 to 3 assert CMD at the shallower of LEVEL and the fuse's
level; any other write is recorded. -/
def State.rstReq (s : State) (value : Word) : State :=
  let level := bits value 1 0
  if !s.rst.ctrlUp then s
  else if bits value 31 24 = 0xA5 ∧ level ≠ 0 then
    (s.modRst (fun r => { r with reqLevel := level })).assertSource 4 (max level (fuseLevel s.rst.fuse 4))
  else s.log { code := 0x4102, source := 0, d0 := value }

/-- RST_REQ_WRITE (R127). -/
def execRstReqWrite (value : Word) (s : State) : Host.Outcome State Fault Refusal :=
  finish s (s.rstReq value)

/-- RESET_PULSE_END (R125): a pulse source releases itself. -/
def execResetPulseEnd (source : Nat) (s : State) : Host.Outcome State Fault Refusal :=
  finish s (if source = 3 ∨ source = 4 ∨ source = 5 ∨ source = 7 then s.releaseSource source else s)

/-- CONTROL_PLANE_RESET_ENTRY (R129): the ordered actions are complete, or 1 ms has passed. -/
def execControlPlaneResetEntry (s : State) : Host.Outcome State Fault Refusal :=
  finish s (if s.rst.ordering then s.enterReset false else s)

/-- DATA_PLANE_STOP (R129, R632): the data plane stops after the control plane has, and staging DRAM
enters self-refresh. -/
def execDataPlaneStop (s : State) : Host.Outcome State Fault Refusal :=
  finish s
    (if (s.rst.phase == .inReset || s.rst.phase == .stretch) && s.rst.level ≤ 1 && !s.rst.ctrlUp then
      s.stagingDown
    else s)

/-- Every plane the governing level reaches is in reset. -/
def State.landed (s : State) : Bool := 2 ≤ s.rst.level || (!s.rst.ctrlUp && !s.rst.dataUp && !s.rst.staging && (s.rst.level != 0 || s.rst.train))

/-- STRETCH_START (R131): the last source has released. The stretch is counted from that release, so it
may run while the trip actions still go on. -/
def execStretchStart (s : State) : Host.Outcome State Fault Refusal :=
  finish s
    (if s.rst.asserted != 0#8 then s
    else if s.rst.phase = .inReset then s.modRst (fun r => { r with phase := .stretch })
    else if s.rst.phase = .ordered then s.modRst (fun r => { r with phase := .orderedStretch })
    else s)

/-! ## Exit from reset (R133, R135 to R138) -/

/-- The code whose centre k / 15 lies nearest to x, in units of 10^-6 (R135). -/
def strapCode (x : Nat) : Nat := min 15 ((15 * x + 500000) / 1000000)

/-- x lies within 0.008 of a decision threshold (k ± 0.5) / 15 (R137). -/
def strapMarginal (x : Nat) : Bool :=
  (List.range 15).any (fun k => decide ((30 * (x : Int) - (2 * k + 1) * 1000000).natAbs ≤ 240000))

/-- RST_STRAP (Table 6.8). RATIO is x × 255 rounded to nearest and held to its 8 bits (DESIGN CHOICE, log
entry 120). -/
def strapWord (x : Nat) : Word :=
  at32 (min 255 ((255 * x + 500000) / 1000000)) 8 ||| bitAt (strapMarginal x) 4 ||| at32 (strapCode x) 0

/-- RST_CAUSE at an exit (Table 6.9). -/
def Rst.causeWord (r : Rst) : Word :=
  at32 r.reqLevel 12 ||| at32 r.level 8 ||| r.seen.zeroExtend 32

/-- The record of an exit, with the supply margin ahead of it (R60, R133): the reset history takes the
cause code and MT_ERA, and RESET is written with PEAT set. -/
def State.recordReset (s : State) (cause lost : Word) : State :=
  let t := match s.rst.margin with
    | some mv => (s.modRst (fun r => { r with margin := none })).log (marginRecord mv 4)
    | none => s
  let t := t.modPeat (fun p =>
    { p with history := ((cause.truncate 16, p.era) :: p.history).take 8 })
  t.log
    { code := 0x0101, source := 0, flags := 4, d0 := (cause &&& 0xFFFF#32), d1 := t.peat.era, d2 := lost }

/-- Record the exits that wait, oldest first; the trip records lost belong to the first. -/
def State.recordExits (s : State) (lost : Word) : State :=
  match s.rst.exits with
  | [] => s
  | c :: rest =>
    rest.foldl (fun t c => t.recordReset c 0#32)
      ((s.modRst (fun r => { r with exits := [] })).recordReset c lost)

/-- The strap is sampled at an L1 or L0 exit; the fuses are read anew, and what the code selects holds
until the next such exit (R126, R135 to R138). -/
def State.readStrap (s : State) (x : Nat) : State :=
  let w := strapWord x
  let t := s.modRst (fun r => { r with strap := w, fuse := r.fuseProgrammed })
  let t := t.modPeat (fun p => { p with strapLast := strapCode x })
  let t := { t with sto := { t.sto with state := if t.noMire then .none else .scanning } }
  let t := t.modTwin (fun x => { x with role := if t.pairStrap then .negotiating else .solo })
  if w.getLsbD 4 then t.log { code := 0x4103, source := 0, d0 := w } else t

/-- STRETCH_END (R131 to R137): strap is the ratio V(STRAP) / 3.300 V in units of 10^-6. After an L1 or
L0 reset the exit's records wait for the check of the peat store, and with them those of an exit in
between. -/
def execStretchEnd (found : ExitIn) (s : State) : Host.Outcome State Fault Refusal :=
  finish s
    (if s.rst.phase = .stretch && s.rst.asserted == 0#8 && s.landed then
      let level := s.rst.level
      let t := s.modRst (fun r =>
        { r with
          cause := r.causeWord, exits := r.exits ++ [r.causeWord], seen := 0#8, reqLevel := 0, level := 4, startLevel := level
          phase := .running })
      let t := t.modPeat (fun p => { p with rstCount := bump p.rstCount })
      if level ≤ 1 then (t.modPeat (fun p => { p with found := found.peat })).readStrap found.strap else if t.rst.ctrlUp then t.recordExits 0#32 else t
    else s)

/-! ## Roles and seats as the start settles them (R138, R173, R594 to R596) -/

/-- A role settles: an active or solo module seats every present group, any other none; the twin record
is written and a change of ROLE is raised (R595, R596). -/
def State.settleRole (s : State) (role : Role) : State :=
  let seats := role == .solo || role == .active
  let t := s.modTwin (fun x => { x with role := role, seated := if seats then s.allGroups else 0#16 })
  let code (r : Role) : Nat :=
    match r with
    | .solo => 0
    | .active => 1
    | .standby => 2
    | .detached => 3
    | .negotiating => 4
  let t := t.modPeat (fun p =>
    { p with twinRole := code role, twinSerial := s.twin.partner, twinDigest := s.sets.digest })
  if role = s.twin.role then t
  else (t.modTwin (fun x => { x with flags := x.flags ||| 1#32 })).raise 0xA80

/-- SEAT of a group is driven low: seated, and not in a group context reset (Table 6.5). -/
def State.seatLow (s : State) (g : Nat) : Bool := s.twin.seated.getLsbD g && !(s.grpAt g).ctxReset

/-! ## The peat store at a start (R61, R101, R118, R124, R146, R628) -/

/-- The store as an invalid one is cleared; the host's peat registers and the programmed state of this
start stay. A lost store reads LOST, one with a bad header HDR_BAD (R146). -/
def Peat.cleared (p : Peat) : Peat :=
  { Peat.init with
    status := if p.lostPower then 2#32 else 8#32, lostPower := false, regs := p.regs
    signed := true, writeSeq := p.writeSeq, rstCount := 1#32, strapLast := p.strapLast, lostTrips := p.lostTrips }

/-- A valid store at a start (R146): MT_ERA counts on (R101), and each region that failed its CRC alone is
cleared. With the region at 0x080 MT_ERA restarts at 0 (log entry 121). -/
def Peat.checked (p : Peat) (c : PeatCheck) : Peat :=
  let bad (i : Nat) : Bool := c.regions.getLsbD i
  { p with
    found := PeatCheck.good
    status := 1#32 ||| at32 c.regions.toNat 4 ||| bitAt c.errors 2
    history := if bad 0 then [] else p.history
    era := if bad 1 then 0#32 else p.era + 1#32
    rstCount := if bad 1 then 1#32 else p.rstCount
    wdogCnt := if bad 1 then 0#32 else p.wdogCnt
    commitShort := p.commitShort && !bad 1
    holdup := p.holdup && !bad 1
    twinRole := if bad 2 then 0 else p.twinRole
    twinSerial := if bad 2 then 0#64 else p.twinSerial
    twinDigest := if bad 2 then 0#64 else p.twinDigest
    ranges := if bad 3 then [] else p.ranges
    excess := if bad 3 then 0 else p.excess
    lostTrips := if c.errors then 0xFFFFFFFF#32 else p.lostTrips }

/-- The error log starts anew: SEQ restarts and the first-error register is armed (R628). -/
def Err.restarted (e : Err) : Err :=
  { e with newest := BitVec.allOnes 32, ack := BitVec.allOnes 32, first := none }

/-- The check of the store and what follows from it (R61, R101, R124, R146, R628). An invalid store
restarts MT_ERA and the error log's SEQ and reports the loss. A valid one restores the front end's
faults; each bad region is reported, the loss ranges as a loss of unknown extent; after the loss of the
ring what was not acknowledged is reported, unless the region that held its position was bad. -/
def State.peatCheck (s : State) : State :=
  let c := s.peat.found
  if s.peat.lostPower || !s.peat.signed || c.header then
    let t := s.modPeat Peat.cleared
    let t := { t with
      mt := { t.mt with eraOk := false }
      que := { t.que with lostAll := some (8, 0#32), lostDone := [] }
      err := t.err.restarted }
    t.log { code := 0x8104, source := 0, d0 := t.peat.status }
  else
    let t := s.modPeat (fun p => p.checked c)
    let t := { t with
      mt := { t.mt with eraOk := !c.regions.getLsbD 1 }
      pfe := { t.pfe with faults := bitAt t.peat.holdup 0 ||| bitAt t.peat.commitShort 1 }
      que := if c.regions.getLsbD 3 then { t.que with lostAll := some (8, 0#32), lostDone := [] } else t.que
      err := if c.errors && s.rst.train then t.err.restarted else t.err }
    let bad : ErrSpec := { code := 0x8104, source := 0, arg := 1, d0 := t.peat.status }
    let t := (setBits 4 c.regions.toNat).foldl (fun t _ => t.log bad) t
    if c.errors then t.log bad
    else if s.rst.train && s.err.newest != s.err.ack then
      let u := { t with err := { t.err with first := s.peat.errFirst } }
      u.log { code := 0x8105, source := 0, d0 := s.err.ack + 1#32, d1 := s.err.newest }
    else t

/-- Factors in force after an L1 or L0 reset: those of the fuses (R425). -/
def State.calFuses (s : State) : State :=
  let of (g : Nat) : Tab Factors :=
    (tfilter (fun k _ => k / 256 == g) s.cal.fuse).map (fun e => (e.1 % 256, e.2))
  let t := s.modCalib (fun c => { c with arb := c.fuseArb, mains := c.fuseMains })
  (List.range s.groups).foldl (fun t g =>
    if (of g).isEmpty then t else t.modCal g (fun c => { c with inForce := of g })) t

/-! ## The steps of the start (R139) -/

/-- A test hold stops the sequence at the end of one of these steps. -/
def State.heldAt (s : State) (l : List Nat) : Bool :=
  match s.rst.hold with
  | some n => l.contains n
  | none => false

/-- PLL_LOCK (step 2): the control plane is released; MT restarts, RESETn rises, the isolation channel is
to be established anew (R15), and a solo strap settles
the role (R594). What the check of the peat store finds is the operand. -/
def execPllLock (s : State) : Host.Outcome State Fault Refusal :=
  finish s
    (if s.rst.phase = .running && !s.rst.ctrlUp && !s.heldAt [1] then
      let t := (s.modRst (fun r => { r with pll := true, ctrlUp := true, resetN := true })).modIso
        (fun x => { x with txValid := false })
      let t := t.peatCheck.calFuses
      let t := t.recordExits t.peat.lostTrips
      if t.pairStrap then t else t.settleRole .solo
    else s)

/-- STAGING_READY (step 4): out of self-refresh with its contents retained, or trained at L0. -/
def State.stagingUp (s : State) : State := s.modRst (fun r => { r with staging := true, train := false })

/-! ### Losses reported once the data plane runs (R118, R478, R524) -/

/-- Write a LOST record now, or when the figure that is not defined is first enabled (R478). -/
def State.reportLoss (s : State) (qid cause : Nat) (first last count era : Word) : State :=
  if qidStream qid ≤ 5 && s.defined (qidFig qid) then
    s.queueEvent qid { event := 5, cause := cause, first := first, last := last, count := count, key := era }
  else
    let d : LostDue := { qid := qid, first := first, last := last, count := count, cause := cause, era := era }
    { s with que := { s.que with lostDue := s.que.lostDue ++ [d] } }

/-- Losses of the queue state table: queues whose two SEQs differ. What archive staging took is not
among them. -/
def State.reportSaved (s : State) : State :=
  let l := s.que.saved.filter (fun e => e.2.head != e.2.next)
  l.foldl (fun t e =>
    t.reportLoss e.1 4 e.2.head (e.2.next - 1#32) (e.2.next - e.2.head) e.2.era)
    { s with que := { s.que with saved := [] } }

/-- Runs of a range of SEQs that a rising list of held ones leaves out. -/
def gapRuns : Word → Word → List Word → List (Word × Word)
  | first, last, [] => if seqLe first last then [(first, last)] else []
  | first, last, k :: rest =>
    (if seqLt first k then [(first, k - 1#32)] else []) ++ gapRuns (k + 1#32) last rest

/-- The SEQs of a range that confirmed pages of the Mire hold, rising. -/
def State.confirmedIn (s : State) (r : LossRange) : List Word :=
  let l := s.sto.log.flatMap (fun p => (p.pkts.filter (fun k =>
    k.qid == r.qid && seqLe r.first k.seq && seqLe k.seq r.last)).map (fun k => k.seq))
  (sortBy seqLt l).eraseDups

/-- A range of the peat store names packets that are lost. -/
def State.rangeLost (s : State) (r : LossRange) : Bool :=
  !r.done && (r.last == BitVec.allOnes 32 || !(gapRuns r.first r.last (s.confirmedIn r)).isEmpty)

/-- Report one range of the peat store after its packets were lost (Table 19.7). -/
def State.reportRange (s : State) (era : Word) (r : LossRange) : State :=
  if r.done then s
  else if r.last = BitVec.allOnes 32 then
    s.reportLoss r.qid 4 r.first (BitVec.allOnes 32) (BitVec.allOnes 32) era
  else
    (gapRuns r.first r.last (s.confirmedIn r)).foldl (fun t x =>
      t.reportLoss r.qid 5 x.1 x.2 (x.2 - x.1 + 1#32) era) s

/-- Streams beyond the store's entries: one loss of unknown extent with their number (R118). -/
def State.reportExcess (s : State) : State :=
  if s.peat.excess = 0 then s
  else s.log
    { code := 0x8558, source := 0, d0 := BitVec.allOnes 32, d1 := BitVec.allOnes 32
      d2 := BitVec.ofNat 32 s.peat.excess }

/-- Report what the peat store holds, in queue ID order, and clear its entries; LOSS_REPORTED says that
ranges a COMMIT left were among them (Table 5.8). Staging DRAM that was
kept holds its pages still, and their entries stay open (Table 19.7). -/
def State.reportPeat (s : State) : State :=
  if s.sto.pages.isEmpty then
    let l := sortBy (fun (a b : LossRange) => a.qid < b.qid) s.peat.ranges
    let t := (l.foldl (fun t r => t.reportRange (s.peat.era - 1#32) r) s).reportExcess
    { t with
      que := { t.que with lostDone := ((l.filter s.rangeLost).map (fun r => r.qid)).foldl insAsc t.que.lostDone }
      peat := { t.peat with ranges := [], excess := 0 }
      pfe := { t.pfe with
        lossReported := l.any (fun r => r.last != BitVec.allOnes 32 && (s.rangeLost r || s.peat.excess != 0)) } }
  else s.syncPeat

/-- Staged pages that cannot be programmed after a restart, because there is no Mire that is formatted
for this module, are reported failed as ranges of SEQs, and go (R34, log entry 122). -/
def State.pagesLost (s : State) : State :=
  let pkts := s.sto.pages.flatMap (fun p => if p.state == .confirmed then [] else p.pkts)
  let qids := pkts.foldl (fun l k => insAsc l k.qid) []
  let era := if s.rst.startLevel ≤ 1 then s.peat.era - 1#32 else s.peat.era
  let t := qids.foldl (fun t q =>
    (runsOf (sortBy seqLt ((pkts.filter (fun k => k.qid == q)).map (fun k => k.seq)))).foldl (fun t r =>
      t.reportLoss q 4 r.first r.last (BitVec.ofNat 32 r.count) era) t) s
  { t with
    sto := { t.sto with pages := [] }
    peat := { t.peat with ranges := [], excess := 0 } }

/-- Apertures that a data plane reset met are reported (R22). -/
def State.reportApertures (s : State) : State :=
  s.fig.foldl (fun t e =>
    e.2.apHeld.foldl (fun t b => t.produce (64 * e.1) b) (t.modFig e.1 (fun x => { x with apHeld := [] }))) s

/-- The data plane is released once steps 4 and 5 are done (step 6): records that waited are formed and
losses reported. -/
def State.dataRelease (s : State) : State :=
  if s.rst.staging && s.rst.mgmtUp && !s.rst.dataUp && s.rst.phase == .running && !s.heldAt [1, 2, 5] then
    let t := s.modRst (fun r => { r with dataUp := true })
    let t := t.logDeferred.reportPeat.reportSaved.reportApertures
    if t.noMire then t.pagesLost else t
  else s

/-- STAGING_READY (R139): trained says that the contents were not retained. -/
def execStagingReady (retained : Bool) (s : State) : Host.Outcome State Fault Refusal :=
  finish s
    (if s.rst.phase = .running && s.rst.ctrlUp && !s.rst.staging && retained != s.rst.train &&
        !s.heldAt [1, 2] then s.stagingUp.dataRelease
    else s)

/-- Every mailbox reports the restart (R33, Table 20.9); one that a takeover has reset during the restart
keeps that reason (R613). -/
def State.reportRestart (s : State) : State :=
  let one (n : Nat) : Mbx :=
    let m := s.mbxAt n
    if m.state = .reset && m.reason = 2 then m
    else { Mbx.init with
      state := .reset, reason := 1, code := s.rst.cause.truncate 16, port := m.port, owned := m.owned }
  { s with host := { s.host with
      mbx := (List.range 256).map (fun n => (n, one n))
      mbxRst := bumpBy s.host.mbxRst 256
      holdPcie := Holding.init
      holdSpi := Holding.init } }

/-- Calibration that the reset cut is recorded (R430). -/
def State.recordCut (s : State) : State :=
  let l := s.cal.cut
  let t := s.modCalib (fun c => { c with cut := [] })
  let t := if l.isEmpty then t else t.calFlag 0x80#32
  l.foldl (fun t x =>
    let t := t.calFail calInterrupted x.1 x.2.1 x.2.2
    if 0x7000 ≤ x.2.2 then t.raiseGrp ((x.2.2 - 0x7000) / 32) 8 else t) t

/-- MGMT_BOOT_DONE (step 5): the copy of an Unveil that landed is repeated first (R464); the service
port answers, mailboxes report the restart, and the data plane may be released. -/
def execMgmtBootDone (s : State) : Host.Outcome State Fault Refusal :=
  finish s
    (if s.rst.phase = .running && s.rst.ctrlUp && !s.rst.mgmtUp && !s.heldAt [1, 2] then
      let t := if s.sets.copyDue then
          let u := (s.modMaq (fun _ => maquetteOf s.sets.cast)).unfreeze
          { u with sets := { u.sets with copyDue := false } }
        else s
      let t := (t.modRst (fun r =>
        { r with mgmtUp := true, spiUp := true, booted := true })).reportRestart
      t.recordCut.dataRelease
    else s)

/-- TEST_HOLD (R139): a hold at the end of step 1, 2 or 5, or its lifting. -/
def execTestHold (step : Option Nat) (s : State) : Host.Outcome State Fault Refusal :=
  finish s
    (match step with
     | some n => if n = 1 ∨ n = 2 ∨ n = 5 then s.modRst (fun r => { r with hold := some n }) else s
     | none => (s.modRst (fun r => { r with hold := none })).dataRelease)

/-- DESC_READS_END (R175, R177, R178, R597): the eight reads of a group in port order; a port not listed
has no EEPROM. Under a pair strap they wait for the role, and a standby reads none. A test hold at the end
of step 5 does not stop them, for step 7 needs step 3 alone (DEDUCED, log entry 123). -/
def execDescReadsEnd (grp : Nat) (reads : List (Nat × Option (BitVec 2048))) (s : State) :
    Host.Outcome State Fault Refusal :=
  finish s
    (if s.hasGrp grp && s.rst.phase == .running && s.rst.ctrlUp && !(s.grpAt grp).descDone &&
        !s.heldAt [1, 2] && (!s.pairStrap || s.twin.role == .solo || s.twin.role == .active) then
      let t := (List.range 8).foldl (fun t k =>
        let p := 8 * grp + k
        let d := ((reads.find? (fun r => r.1 == p)).map (fun r => r.2)).getD none
        (t.readEeprom p d).startDesc p) s
      t.modGrp grp (fun x => { x with descDone := true })
    else s)

/-- MIRE_MAP_REBUILT (step 8; R508, R511, R512): what the scan of the targets found. The state is taken
the first time GLB_READY.MIRE reads 1; descriptors and the calibration record of the Mire come into
use. -/
def execMireMapRebuilt (scan : List NandScan) (s : State) : Host.Outcome State Fault Refusal :=
  finish s
    (if s.rst.dataUp && s.rst.mgmtUp && !s.rst.mireUp && !s.noMire && !s.heldAt [1, 2, 5] then
      let t := scan.foldl State.attach s
      let t := t.modRst (fun r => { r with mireUp := true })
      let t := if s.sto.state = .scanning then t.mireState else t
      let t := if t.sto.state = .unformatted then t.pagesLost else t
      let t := if t.sto.measured then t
        else { t with sto := { t.sto with rate := t.sto.defaultRate } }
      let t := if t.sto.state = .ready then
          let u := t.assignMire
          if u.sets.frozen then { u with sets := { u.sets with mireDue := true } } else u.mireDescs
        else t
      t.stoWatch
    else s)

/-! ## Reset fuses (R126, R587) -/

/-- RST_FUSE_PROGRAM: obj is the map to program, aux the lock bit. -/
def execRstFuseProgram (r : Req) (map : Word) (lock : Bool) (key : Nat) (s : State) :
    Host.Outcome State Fault Refusal :=
  umser r 0x1003 { long := true } s fun s =>
    if s.rst.fuseProgrammed.getLsbD 31 || key != 0xA5 then s.refuse r 0x1003 stDenied
    else if !(List.range 8).all (fuseFieldOk map) then s.refuse r 0x1003 stRange 0x20
    else s.defer r 0x1003 (map.toNat % 2 ^ 24) (b2n lock) 0

/-- FUSE_PROGRAM_END: the table governs from the next L1 or L0 reset; LOCKED reads 1 at once. While LOCKED
is 0 a second program replaces the whole map (DESIGN CHOICE, log entry 124). -/
def execFuseProgramEnd (s : State) : Host.Outcome State Fault Refusal :=
  finish s
    (match s.host.outst.find? (fun o => o.opcode == 0x1003), s.rst.mgmtUp with
     | some o, true =>
       let lock := o.aux == 1 || s.rst.fuseProgrammed.getLsbD 31
       let t := s.modRst (fun r =>
         { r with
           fuseProgrammed := BitVec.ofNat 32 o.obj ||| bitAt lock 31
           fuse := r.fuse ||| bitAt lock 31 })
       t.complete (fun o => o.opcode == 0x1003) { status := stOk }
     | _, _ => s)

/-! ## Group context reset (R143, R144, R235, R364, R402, R430, R588) -/

/-- GRP_RESET, the cause of the trips a group context reset makes (Table 13.3). -/
def grpResetBit : Word := 0x8000#32

/-- GRP_RESET (R144, R588): obj is the mask of groups still to end. -/
def execGrpReset (r : Req) (mask : BitVec 16) (s : State) : Host.Outcome State Fault Refusal :=
  umser r 0x1004 { long := true, standbyOk := false } s fun s =>
    if mask = 0#16 then s.refuse r 0x1004 stRange 0x20
    else match (setBits 16 mask.toNat).find? (fun g => !s.hasGrp g) with
      | some g => s.refuse r 0x1004 stAbsent g
      | none =>
        (setBits 16 mask.toNat).foldl (fun t g =>
          if (t.grpAt g).ctxReset then t
          else (List.range 8).foldl (fun t k => t.trip (8 * g + k) grpResetBit s.mt.mt 0)
            (t.modGrp g (fun x => { x with ctxDue := true })))
          (s.defer r 0x1004 mask.toNat 0 0)

/-- The trip actions are complete on a port: F_OUT at high impedance and every line released. -/
def State.portReleased (s : State) (p : Nat) : Bool :=
  let f := (s.spAt p).force
  !f.driven && f.lines.isEmpty && f.release.isEmpty

/-- The shared-channel checks and path tests of a group end with the reset (Table 22.9). -/
def State.checksCut (s : State) (g : Nat) : State :=
  (s.grpAt g).acq.checks.foldl (fun t c => t.complete c.owns { status := stAborted, detail := 5 })
    (s.modAcq g (fun a => { a with checks := [] }))

/-- GROUP_CONTEXT_RESET_START (R144): once the trip actions are complete on every port of the group, its
apertures, lists, captures, conversions and pass are cut, its producers fall silent and its site and
aux lands go low (Table 6.5). -/
def execGroupContextResetStart (grp : Nat) (s : State) : Host.Outcome State Fault Refusal :=
  finish s
    (if s.grpRuns grp && (s.grpAt grp).ctxDue && (List.range 8).all (fun k => s.portReleased (8 * grp + k)) then
      let figs := (s.fig.filter (fun e => (s.members e.1).any (fun p => p / 8 == grp))).map (fun e => e.1)
      let t := figs.foldl (fun t f =>
        (((t.apCut f 5).tuneCut f).captureCut f).listCut f 5 (s.cutFlags f ||| 0x10#16) .idle) s
      let t := (List.range 8).foldl (fun t k => t.snapBuild (8 * grp + k)) t
      let t := (((t.rawCut grp 5).urgEmpty grp).checksCut grp).auxCut grp
      let t := t.modPass grp (fun p => { p with cause := calInterrupted })
      let t := (List.range 8).foldl (fun t k => t.modForce (8 * grp + k) (fun f =>
        { f with site := 0, siteWait := 0, siteNext := none })) t
      (t.modAcq grp (fun a => { a with comb := [] })).modGrp grp (fun x =>
        { x with ctxDue := false, ctxReset := true, auxsel := 0 })
    else s)

/-- A port after the reset: integrator, compensator and model states are cleared and every window monitor
starts unsettled (R144). -/
def Sp.contextCleared (x : Sp) : Sp :=
  { x with
    meas := { x.meas with integ := none, recent := [] }
    loop := { Loop.init with
      flags := x.loop.flags, ovrCnt := x.loop.ovrCnt, govCnt := x.loop.govCnt, detail := x.loop.detail }
    sup := { x.sup with
      mon := x.sup.mon.map Mon.idle, model := Model.init, resid := false, held := false, checking := false
      leadBad := false, froV := 0, froI := 0, codes := [], snap := [], snapRun := none, force := false
      clearDue := false, monDue := 0 }
    slotFig := none
    slotLast := none }

/-- The pass that the reset cut hands back with its record (R430). -/
def State.passCut (s : State) (g : Nat) : State :=
  match (s.calAt g).pass with
  | some p =>
    (((s.passHanded g p).calFlag 0x80#32).calFail calInterrupted 0 0 (sliceSource g p.slice)).raiseGrp g 8
  | none => s.spareIdle g

/-- GROUP_CONTEXT_RESET_END (R144, R364, R588): states are cleared, the aux sequencer restarts at its
first entry, trips that may be cleared are, and commands whose last group this is complete. -/
def execGroupContextResetEnd (grp : Nat) (s : State) : Host.Outcome State Fault Refusal :=
  finish s
    (if s.hasGrp grp && s.rst.ctrlUp && (s.grpAt grp).ctxReset then
      let ports := (List.range 8).map (fun k => 8 * grp + k)
      let t := s.modGrp grp (fun x =>
        { x with
          ctxReset := false
          acq := { x.acq with
            edgeSeen := false, trigNow := false, railPrev := [], auxState := restState x.acq.auxStart
            run := none, passRan := false, due := [], dueCycle := [], interrupted := none } })
      let t := ports.foldl (fun t p => t.modSp p Sp.contextCleared) t
      let t := ports.foldl (fun t p =>
        if (t.spAt p).sup.tripped && (t.tripStands p).isNone then t.clearTrip p else t) t
      let t := (t.passCut grp).tell 5
      let note (o : Outstanding) : Outstanding :=
        if o.obj.testBit grp then { o with obj := o.obj - 2 ^ grp } else o
      (t.modOutst 0x1004 note).completeAll (fun o => o.opcode == 0x1004 && o.obj == 0)
        (fun _ => { status := stOk })
    else s)

end Sys2Proof.Machine
end

