-- ==== Sys2Proof/Machine/Twin.lean ====
section
/-! DEFINITION. Twin pairing (chapter 23): the frames of the Cosyn link, training, roles, the standby,
liveness, takeover and handover, planned detach and attach. -/

namespace Sys2Proof.Machine

/-! ## LINK (R606, R618, R619) -/

/-- Change LINK, with the flags and events of its changes. -/
def State.setLink (s : State) (l : Link) : State :=
  let old := s.twin.link
  let gone := old == .up && l != .up
  let split := l == .split && old != .split
  let t := s.modTwin (fun x =>
    { x with
      link := l
      warm := x.warm && l == .up
      flags := x.flags ||| bitAt gone 1 ||| bitAt split 2 })
  let t := if l = .up ∧ old ≠ .up then t.raise 0xA81 else t
  let t := if gone then t.raise 0xA82 else t
  if split then t.raise 0xA83 else t

/-- The link is not up: it is split while ALIVE_IN is active, but for a detached module (R606). -/
def State.linkOff (s : State) : State :=
  s.setLink (if s.twin.aliveIn && s.twin.role != .detached && s.pairStrap then .split else .down)

/-- Edits that waited for the standby complete: the pair's link is gone, or it has acknowledged them
(R598). -/
def State.editsDone (s : State) (p : EditWait → Bool) : State :=
  (s.twin.edits.filter p).foldl (fun t w =>
    t.answer ⟨w.mbx, w.opcode, w.tag, w.outLen, w.outAddr, w.mtAccept⟩ { status := stOk, result := w.result })
    (s.modTwin (fun x => { x with edits := x.edits.filter (fun w => !p w) }))

/-! ## Ports and figures that stop (R595, R608, R614) -/

/-- A port goes to OFF without trip actions: F_OUT at high impedance and its lines released. -/
def Sp.released (x : Sp) (safe : Int) : Sp :=
  { x with
    force := { x.force with
      out := .off, driven := false, en := false, lines := [], release := [], win := none, down := none
      downPend := none, spanPend := none, enableDue := none, siteNext := none, siteWait := 0, seq := 0
      inCode := safe, outCode := safe }
    sup := { x.sup with held := false, checking := false }
    slotFig := none }

/-- Take a port to OFF. -/
def State.portOff (s : State) (p : Nat) : State :=
  let safe := s.safeCode p
  s.modSp p (fun x => x.released safe)

/-- Take every port to OFF. -/
def State.allOff (s : State) : State := (List.range (8 * s.groups)).foldl State.portOff s

/-- What a module runs of its figures ends without reports: its partner goes on with it. -/
def Fig.left (x : Fig) : Fig :=
  { x with
    run := .idle, startDue := false, flight := none, stop := none, apOpen := none, apWait := none
    compA := none, compB := none, endedInHold := false }

/-- The figures of this module end, and may stay enabled for a shadow. -/
def State.figuresLeft (s : State) (enabled : Bool) : State :=
  let on := (s.fig.filter (fun e => e.2.enabled)).map (fun e => e.1)
  let t := on.foldl (fun t f => (t.tuneCut f).captureCut f) s
  on.foldl (fun t f => t.modFig f (fun x => { x.left with enabled := enabled })) t

/-! ## Detached (R614) -/

/-- Enter DETACHED: the link goes to electrical idle. A standby's ports go to OFF; an active module
keeps its seats and outputs. -/
def State.enterDetached (s : State) (status : Nat) : State :=
  let t := if s.twin.role == .standby then (s.figuresLeft false).allOff else s
  let t := t.modTwin (fun x => { x with
    role := .detached, train := .idle, trying := false, unacked := [], resync := false, chansDue := 0#16
    shadowStop := false, attachBusy := false, flags := x.flags ||| bitAt (x.role != .detached) 0 })
  let t := if s.twin.role = .detached then t else t.raise 0xA80
  let t := (t.setLink .down).editsDone (fun _ => true)
  t.completeAll (fun o => o.opcode == 0x0902) (fun _ => { status := status })

/-- The link leaves UP (R592, R606): what waited for the partner goes on without it. -/
def State.linkLost (s : State) : State :=
  let t := s.modTwin (fun x => { x with train := .idle, trying := false, unacked := [], resync := false })
  let t := (t.linkOff).editsDone (fun _ => true)
  if s.host.outst.any (fun o => o.opcode == 0x0902 && o.obj == 0) then t.enterDetached stOk else t

/-! ## Roles (R594, R595, R598) -/

/-- Rank of strap bits 3:2 in rule 2 of R595. -/
def strapRank (b : Nat) : Nat := if b = 1 then 2 else if b = 3 then 1 else 0

/-- The first rule of R595 that decides: this module is active. -/
def State.winsRole (s : State) (c : ConfigMsg) (partnerSeated : BitVec 16) : Bool :=
  let mine := s.twin.seated != 0#16
  let theirs := partnerSeated != 0#16
  let a := strapRank (bits s.rst.strap 3 2)
  let b := strapRank c.strap.toNat
  let pref := (s.live 0x15C 0).toNat
  if mine != theirs then mine
  else if a != b then b < a
  else if pref != c.pref then c.pref < pref
  else s.ident.serial.toNat < c.serial.toNat

/-- A standby's ports and figures as the role settles (R595, R599). -/
def State.asStandby (s : State) : State :=
  let t := if s.twin.seated != 0#16 then (s.figuresLeft true).allOff else s
  (t.settleRole .standby).standbyPorts

/-- An active module as the role settles. One that stood by without a takeover drives nothing until the
next Unveil. -/
def State.asActive (s : State) : State :=
  let t := if s.twin.role == .standby then (s.figuresLeft false).allOff else s
  t.settleRole .active

/-- Settle the roles at an entry to UP; the active module then sends SYNC (R595, R598). -/
def State.settlePair (s : State) (c : ConfigMsg) (partnerSeated : BitVec 16) : State :=
  let t := if s.winsRole c partnerSeated then s.asActive.sendReliable 7 else s.asStandby
  let t := t.modTwin (fun x => { x with resync := true, stateSeen := 0#16, attachBusy := false, attempts := 0 })
  t.completeAll (fun o => o.opcode == 0x0903) (fun _ => { status := stOk })

/-! ## Training (R593, R594) -/

/-- Training gives up with ALIVE_IN absent: TWIN_ATTACH ends (R580). -/
def State.attachFailed (s : State) : State :=
  (s.modTwin (fun x => { x with attachBusy := false })).completeAll (fun o => o.opcode == 0x0903)
    (fun _ => { status := stAborted, detail := 1 })

/-- An attempt fails: the link returns to DETECT. After three failed attempts a module without a settled
role becomes solo, or stays negotiating with LINK split. -/
def State.trainFailed (s : State) : State :=
  let t := s.modTwin (fun x => { x with
    train := .detect, trying := false, attempts := x.attempts + 1, trainFail := bump x.trainFail
    flags := x.flags ||| 0x40#32 })
  if t.twin.attempts < 3 && (!s.roleSettled || s.twin.attachBusy) then t
  else
    let past := 3 ≤ t.twin.attempts && !s.twin.aliveIn
    let t := if past && !s.roleSettled then
        (t.modTwin (fun x => { x with flags := x.flags ||| 0x200#32 })).settleRole .solo
      else t
    let t := t.linkOff
    if past then t.attachFailed else t

/-- TRAIN_ATTEMPT_START (R594): at the release of the control plane, after a failure, on signal, or once
a second in LINK split. A detached module trains with its partner (R615). -/
def execTrainAttemptStart (s : State) : Host.Outcome State Fault Refusal :=
  finish s
    (if s.rst.ctrlUp && s.pairStrap && !s.twin.trying && (s.twin.train == .idle || s.twin.train == .detect) then
      let t := s.modTwin (fun x => { x with train := .detect, trying := true, rev := false, pol := 0#4 })
      let t := if s.twin.role = .detached then
          (t.modTwin (fun x => { x with
            role := .negotiating, attempts := 0, attachBusy := true, flags := x.flags ||| 1#32 })).raise 0xA80
        else t
      if s.twin.link = .split then t else t.setLink .training
    else s)

/-- TRAIN_STATE_DONE (R593): the exit condition of the present state is met. order is the received lane
order, pol the lanes whose training blocks arrive complemented. -/
def execTrainStateDone (order : List Nat) (pol : BitVec 4) (s : State) : Host.Outcome State Fault Refusal :=
  finish s
    (if !s.rst.ctrlUp || !s.twin.trying then s
    else match s.twin.train with
      | .detect => s.modTwin (fun x => { x with train := .lock })
      | .lock => s.modTwin (fun x => { x with train := .order, pol := pol })
      | .order =>
        if order = [0, 1, 2, 3] then s.modTwin (fun x => { x with train := .config, rev := false })
        else if order = [3, 2, 1, 0] then s.modTwin (fun x => { x with train := .config, rev := true })
        else s.trainFailed
      | .idle => s
      | .config => s
      | .up => s)

/-- Part number as GLB_ID gives it (Table 20.3). -/
def partCode (p : Part) : Nat :=
  match p with
  | .adx7128 => 0x7128
  | .adx7164 => 0x7164
  | .adx7132 => 0x7132

/-- CONFIG (R593): the exchange completes. Parts, revisions, serial numbers and L are checked; on success
the link is UP and the roles settle. -/
def execConfig (c : ConfigMsg) (s : State) : Host.Outcome State Fault Refusal :=
  finish s
    (if s.rst.ctrlUp && s.twin.trying && s.twin.train == .config then
      let far := decide (3000 < c.latency)
      let t := s.modTwin (fun x => { x with
        latency := min 65535 c.latency, partner := c.serial, flags := x.flags ||| bitAt far 8 })
      if c.part != partCode s.ident.part || c.major != 2 || c.serial == s.ident.serial || far then t.trainFailed
      else
        let t := t.modTwin (fun x => { x with
          train := .up, trying := false, conf := some c, missRun := 0, last := none, unacked := []
          rxAcked := none, warmBeat := false })
        (t.setLink .up).settlePair c c.seated
    else s)

/-- TRAIN_TIMEOUT (R593): a state has lasted 10 ms. -/
def execTrainTimeout (s : State) : Host.Outcome State Fault Refusal :=
  finish s (if s.rst.ctrlUp && s.twin.trying then s.trainFailed else s)

/-- LATENCY_MEASURE (R594): L from heartbeat echoes. -/
def execLatencyMeasure (ns : Nat) (s : State) : Host.Outcome State Fault Refusal :=
  finish s
    (if s.rst.ctrlUp && s.twin.train == .up then s.modTwin (fun x => { x with latency := min 65535 ns }) else s)

/-! ## What is sent (Table 23.1) -/

/-- Oldest SEQ of a queue that is not confirmed (R612); the next SEQ when every packet is. -/
def State.oldestOpen (s : State) (qid : Nat) (q : Queue) : Word :=
  let staged := ((s.sto.pages.filter (fun p => p.state != .confirmed)).flatMap (fun p => p.pkts)).filter
    (fun k => k.qid == qid)
  let l := (q.pkts.filter (fun k => !k.copy || staged.any (fun z => z.seq == k.seq))).map (fun k => k.seq) ++
    (staged.filter (fun k => !k.copy)).map (fun k => k.seq)
  l.foldl (fun a b => if seqLt b a then b else a) q.next

/-- What a COMMIT frame says of every queue. -/
def State.announce (s : State) : Tab QueAnn :=
  tmap (fun n q => { next := q.next, oldest := s.oldestOpen n q })
    (s.que.q.filter (fun e => e.2.next != 0#32))

/-- The content of a HEARTBEAT. -/
def State.beat (s : State) : Beat :=
  { number := s.twin.hbSeq, role := s.twin.role, seated := s.twin.seated, castSeq := s.sets.castSeq
    digest := s.sets.digest, mt := s.mt.mt, era := s.peat.era, hu := s.pfe.hu, ready := s.ready
    warm := s.twin.warm, echo := (s.twin.last.map (fun b => b.number)).getD 0#32, echoMt := s.twin.lastMt }

/-- HEARTBEAT_SEND (R592, R612): every 10 µs; with it the active module sends COMMIT for the queues whose
values have changed. -/
def execHeartbeatSend (s : State) : Host.Outcome State Fault Refusal :=
  finish s
    (if s.rst.ctrlUp && s.twin.train == .up then
      let t := s.modTwin (fun x => { x with
        hbSeq := x.hbSeq + 1#32, lastSent := (1, 0#32), sentBeat := some s.beat })
      if s.leads && s.announce != s.twin.anns then
        (t.modTwin (fun x => { x with anns := s.announce })).sendReliable 4
      else t
    else s)

/-- A setpoint as a word of the channel's scale. -/
def State.rampToWord (s : State) (p : Nat) (v : Int) : Int :=
  let x := (s.spAt p).force
  let q : Frac := ⟨v, 2000000000⟩
  match s.serves p with
  | none => 0
  | some f =>
    let mode := (s.figAt f).mode
    if isVolt mode then voltsWord (s.descOf p) x.vspan q
    else ampsWord (s.descOf p) x.rng (if mode = 2 then q.neg else q)

/-- RNG_PHASE of a port: 0 no window, 1 make, 2 break (Table 11.9). -/
def rngPhase (x : Force) : Nat :=
  match x.win with
  | none => 0
  | some w => if x.rng = w.b && x.rng != w.a then 2 else 1

/-- A channel record (Table 23.3). -/
def State.chanRecord (s : State) (p : Nat) : ChanRec :=
  let x := s.spAt p
  let tgt := match x.force.win with
    | some w => w.b
    | none => x.force.downPend.getD 7
  let latches := nsum ((List.range 4).map (fun k => b2n (x.sup.mon.getD k Mon.init).latch * 2 ^ k))
  let low := nsum (x.force.lines.map (fun l => 2 ^ l))
  { ls := x.loop.ls
    rng := at32 x.force.rng 0 ||| at32 tgt 3 ||| at32 low 6 ||| at32 x.force.vspan 12 |||
      at32 (rngPhase x.force) 14 ||| bitAt x.force.downPend.isSome 16 ||| at32 latches 17 |||
      bitAt x.sup.tripped 21 ||| bitAt x.sup.held 22
    win := match x.force.win with
      | some w => w.tick
      | none => 0
    sp := s.rampToWord p x.force.setpoint
    integ := [x.loop.v.integ, x.loop.i.integ, x.loop.x.integ, x.loop.share.integ]
    tgt := s.rampToWord p x.force.target }

/-- STATE_SEND (R592): every 4 loop periods of a group. -/
def execStateSend (grp : Nat) (s : State) : Host.Outcome State Fault Refusal :=
  finish s
    (if s.leads && s.grpRuns grp then
      s.modTwin (fun x => { x with
        lastSent := (2, 0#32)
        sentState := some (grp, (List.range 8).map (fun k => s.chanRecord (8 * grp + k))) })
    else s)

/-! ## Reliable frames (R592) -/

/-- Frames flow. -/
def State.cosynUp (s : State) : Bool := s.rst.ctrlUp && s.twin.train == .up

/-- A reliable frame arrives: it is acknowledged, and acts once; a frame sent again only has its
acknowledgement repeated. -/
def State.receive (s : State) (fseq : Word) (f : State → State) : State :=
  let seen : Bool := match s.twin.rxAcked with
    | some a => !seqLt a fseq
    | none => false
  let t := if seen then s else f s
  t.modTwin (fun x => { x with lastSent := (0xB, fseq), rxAcked := if seen then x.rxAcked else some fseq })

/-- A frame that only a standby acts on. -/
def State.shadows (s : State) (fseq : Word) (f : State → State) : State :=
  if !s.cosynUp then s
  else s.receive fseq (fun s => if s.twin.role == .standby then f s else s)

/-- ACK (R592): what waited for the frame goes on. -/
def execAck (fseq : Word) (s : State) : Host.Outcome State Fault Refusal :=
  finish s
    (match s.cosynUp, s.twin.unacked.find? (fun u => u.fseq == fseq) with
     | true, some u =>
       let t := s.modTwin (fun x => { x with
         unacked := x.unacked.filter (fun y => y.fseq != fseq)
         resync := x.resync && u.ftype != 7
         handover := if u.ftype = 9 then x.handover.map (fun h => { h with acked := true }) else x.handover })
       let t := if u.ftype = 8 then
           { t with sets := { t.sets with transfer := t.sets.transfer.map (fun y => { y with acked := true }) } }
         else t
       let t := t.editsDone (fun w => w.fseq == fseq)
       if u.ftype = 0xA && s.host.outst.any (fun o => o.opcode == 0x0902 && o.obj == 0 && o.aux == fseq.toNat) then
         t.enterDetached stOk
       else t
     | _, _ => s)

/-- RETRANSMIT_TIMEOUT (R592): a frame not acknowledged for 20 µs is sent again; after the eighth resend
the link is taken down and training restarts. -/
def execRetransmitTimeout (fseq : Word) (s : State) : Host.Outcome State Fault Refusal :=
  finish s
    (match s.cosynUp, s.twin.unacked.find? (fun u => u.fseq == fseq) with
     | true, some u =>
       if u.resends < 8 then
         s.modTwin (fun x => { x with
           retx := bump x.retx
           lastSent := (u.ftype, fseq)
           unacked := x.unacked.map (fun y => if y.fseq = fseq then { y with resends := y.resends + 1 } else y) })
       else
         let t := s.linkLost
         if t.twin.role = .detached then t
         else
           let u := t.modTwin (fun x => { x with train := .detect, trying := true, rev := false, pol := 0#4 })
           if u.twin.link = .split then u else u.setLink .training
     | _, _ => s)

/-- COSYN_FRAME_DISCARD (R592). -/
def execCosynFrameDiscard (s : State) : Host.Outcome State Fault Refusal :=
  finish s
    (if s.rst.ctrlUp && (s.twin.train == .config || s.twin.train == .up) then
      s.modTwin (fun x => { x with frameErr := bump x.frameErr, flags := x.flags ||| 0x20#32 })
    else s)

/-! ## The standby (R598 to R602) -/

/-- STATE (R599): records wait for the next boundary of their group. -/
def execState (grp : Nat) (chans : List ChanRec) (s : State) : Host.Outcome State Fault Refusal :=
  finish s
    (if s.cosynUp && s.twin.role == .standby && s.hasGrp grp && chans.length == 8 then
      s.modTwin (fun x => { x with
        chans := (List.range 8).foldl (fun t k => match chans[k]? with
          | some r => tput t (8 * grp + k) r
          | none => t) x.chans
        chansDue := x.chansDue ||| BitVec.twoPow 16 grp })
    else s)

/-- Runner state and point state of a RUNNER frame. -/
def runOf (n : Nat) : RunState :=
  [RunState.idle, .armed, .waiting, .active, .held, .ended].getD n .idle
def ptOf (n : Nat) : PtState := [PtState.pending, .placed, .settling, .aperture].getD n .pending

/-- The figure a RUNNER frame is about: of those whose master is the runner's port, the one whose list
holds the point, else the first. -/
def State.runnerFig (s : State) (r : RunnerRec) : Option Nat :=
  let l := (s.figsOn r.num).filter (fun f => s.master f == some r.num)
  match l.find? (fun f => decide (s.castN 0x439 f ≤ r.point && r.point < s.castN 0x439 f + s.castN 0x43A f)) with
  | some f => some f
  | none => l.head?

/-- The point in flight a RUNNER frame shows, with its remaining dwell. -/
def State.runnerFlight (s : State) (r : RunnerRec) : Option Flight :=
  if ptOf r.pstate = .pending ∨ r.run ≠ 3 then none
  else
    let e := tget 0#256 s.sets.cast.sweep r.point
    let g := r.num / 8
    let left := r.dwell * (s.periodNs g / 5) * s.mtInc / 2 ^ 32
    some
      { index := r.point, entry := e, state := ptOf r.pstate, mtStart := s.mt.mt
        settleMt := s.mt.mt + BitVec.ofNat 64 left - BitVec.ofNat 64 (ptDwell e)
        ticks := ptDwell e - r.dwell, dwellEnded := false, waited := 0, flags := 0#16, top := false
        topTicks := 0 }

/-- A runner takes what a RUNNER frame shows (R600). -/
def State.applyRunner (s : State) (r : RunnerRec) : State :=
  let t := s.modTwin (fun x => { x with runners := tput x.runners r.num r })
  match s.runnerFig r with
  | none => t
  | some f =>
    let q := s.runnerFlight r
    let first := s.castN 0x439 f
    let settled : Bool := match q with
      | some q => q.state == .settling || q.state == .aperture
      | none => false
    let e := tget 0#256 s.sets.cast.sweep r.point
    let t := t.modFig f (fun x =>
      let y : Fig :=
        { x with
          run := runOf r.run, flight := q, pass := BitVec.ofNat 32 r.pass, seq := r.seq
          first := first, count := s.castN 0x43A f, repeats := s.castN 0x43B f, endMode := s.castN 0x43D f
          next := r.point + b2n q.isSome - first }
      if settled then
        { y with mode := modeOf e (s.castN 0x401 f), level := if ptPulse e then ptBase e else ptLevel e
                 compA := some (ptCompA e), compB := some (ptCompB e) }
      else if r.run = 2 ∨ r.run = 3 then y
      else { y with compA := none, compB := none })
    if t.shared r.num && q.isSome then t.modSp r.num (fun x => { x with slotFig := some f }) else t

/-- RUNNER (R600). -/
def execRunner (r : RunnerRec) (fseq : Word) (s : State) : Host.Outcome State Fault Refusal :=
  finish s (s.shadows fseq (fun s => s.applyRunner r))

/-- Take in what a COMMIT frame announces: a queue whose next SEQ moved has committed. -/
def State.applyAnns (s : State) (l : List (Nat × QueAnn)) : State :=
  s.modTwin (fun x => l.foldl (fun x e =>
    { x with
      anns := tput x.anns e.1 e.2
      annDirty := if (tget? x.anns e.1).any (fun a => a.next == e.2.next) then x.annDirty
        else insAsc x.annDirty e.1 }) x)

/-- COMMIT_FRAME (R612). -/
def execCommitFrame (anns : List (Nat × QueAnn)) (fseq : Word) (s : State) :
    Host.Outcome State Fault Refusal :=
  finish s (s.shadows fseq (fun s => s.applyAnns anns))

/-- A port takes a trip of its partner: status, cause set and latches, and its figures stop (R600). -/
def State.mirrorTrip (s : State) (r : TripRec) (p : Nat) : State :=
  let t := s.modSup p (fun x =>
    { x with
      tripped := true
      held := false
      cause := if p = r.port then r.cause else gangBit
      tripSeq := r.seq
      mon := if p = r.port then (List.range 4).map (fun k =>
          let m := x.mon.getD k Mon.init
          { m with latch := m.latch || r.mon.getLsbD (k + 4) })
        else x.mon })
  (s.figsOn p).foldl (fun t f =>
    (t.modFig f (fun x => { x.left with enabled := false })).modPlace f (fun x =>
      if x.state == .tripped then x else { x with state := .tripped, cause := 0, placeSeq := x.placeSeq + 1#32 }))
    t

/-- What a TRIP frame does to the ports it names (R600). -/
def State.applyTrip (s : State) (n : TripNote) : State :=
  match n with
  | .record r =>
    let l := (setBits 8 r.members.toNat).map (fun k => 8 * (r.port / 8) + k)
    let ports := if l.contains r.port then l else r.port :: l
    if r.detail.getLsbD 5 then
      ports.foldl (fun t p => t.modSup p (fun x => { x with held := true, heldCode := r.code })) s
    else ports.foldl (fun t p => t.mirrorTrip r p) s
  | .tripClear p => s.modSup p (fun x => { x with tripped := false })
  | .monClear p mask => s.modSup p (fun x => { x with
      mon := (List.range x.mon.length).map (fun k =>
        let m := x.mon.getD k Mon.init
        if mask.testBit k then { m with latch := false } else m) })
  | .holdRelease p => s.modSup p (fun x => { x with held := false })

/-- TRIP_FRAME (R600). -/
def execTripFrame (n : TripNote) (fseq : Word) (s : State) : Host.Outcome State Fault Refusal :=
  finish s (s.shadows fseq (fun s => s.applyTrip n))

/-- The effect of one item of a MAQ frame on the Maquette. -/
def applyMaq (cast c : CfgSet) (e : MaqEdit) : CfgSet :=
  match e with
  | .param key v => { c with params := pset c.params (key / 65536) (key % 65536) v }
  | .define f => defineFig c f
  | .delete f => dropFig c f
  | .coef k (some b) => { c with coefs := tput c.coefs k b }
  | .coef k none => { c with coefs := tdel c.coefs k }
  | .ff k v => { c with ff := tput c.ff k v }
  | .sweep i v => { c with sweep := tput c.sweep i v }
  | .gen f (some b) => { c with gens := tput c.gens f b }
  | .gen f none => { c with gens := tdel c.gens f }
  | .aux k v => { c with aux := tput c.aux k v }
  | .desc p d => { c with descs := tput c.descs p d }
  | .revert => maquetteOf cast

/-- MAQ (R598): one accepted edit, or a descriptor that comes into force. -/
def execMaq (e : List MaqEdit) (fseq : Word) (s : State) : Host.Outcome State Fault Refusal :=
  finish s (s.shadows fseq (fun s =>
    (s.modMaq (fun c => e.foldl (applyMaq s.sets.cast) c)).edited))

/-- The Cast, the Maquette and the descriptors of the active module come into force on the standby. -/
def State.install (s : State) (cast maq : CfgSet) (castSeq maqSeq : Word) : State :=
  let t := s.leaveCast cast
  let t := { t with sets := { t.sets with cast := cast, maq := maq } }
  let t := (List.range t.groups).foldl (fun t g =>
    (t.groupIn s g).modGrp g (fun x => { x with descDone := true })) t
  let t := ((t.dataIn.frontIn s).figuresIn s).standbyPorts.mtMode
  let digest := t.digestOf cast
  ({ t with
    sets := { t.sets with
      castSeq := castSeq, maqSeq := maqSeq, digest := digest, castEmpty := cast.figs.isEmpty, valid := false }
    peat := { t.peat with twinDigest := digest } }).modTwin (fun x =>
      { x with resync := false, stateSeen := 0#16 })

/-- SYNC (R598). -/
def execSync (cast maq : CfgSet) (castSeq maqSeq : Word) (fseq : Word) (s : State) :
    Host.Outcome State Fault Refusal :=
  finish s (s.shadows fseq (fun s => (s.install cast maq castSeq maqSeq).reWarm))

/-- UNVEIL_FRAME (R602): the standby installs the validated Maquette and the placement the frame carries,
and swaps at the target boundary. -/
def execUnveilFrame (target : DWord) (_castSeq : Word) (_digest : DWord) (place : Tab Placement)
    (auxArm : Tab (BitVec 128)) (internal : Bool) (fseq : Word) (s : State) :
    Host.Outcome State Fault Refusal :=
  finish s (s.shadows fseq (fun s =>
    let base := if internal then s.sets.cast else s.sets.maq
    let x : Transfer :=
      { image := { base with place := place, auxArm := auxArm }, at_ := none, late := false
        internal := internal, paired := true, target := target, acked := true, migrated := [] }
    { s with sets := { s.sets with
        transfer := some x
        frozen := s.sets.frozen || !internal
        phase := if internal then s.sets.phase else 2 } }))

/-! ## Takeover (R607 to R613) -/

/-- Take a loss record of the partner's packets to where it is written (R612). -/
def State.partnerLoss (s : State) (qid : Nat) : State :=
  let a := tget { next := 0#32, oldest := 0#32 } s.twin.anns qid
  let era := (s.twin.last.map (fun b => b.era)).getD 0#32
  let last := (s.queAt qid).next - 1#32
  if s.rst.dataUp then s.reportLoss qid 6 a.oldest last (BitVec.allOnes 32) era
  else
    let d : LostDue := { qid := qid, first := a.oldest, last := last, count := BitVec.allOnes 32, cause := 6, era := era }
    { s with que := { s.que with lostDue := s.que.lostDue ++ [d] } }

/-- SEQs of the new active module start 2^16 past what the frames announced, and what the departing
module had not confirmed is reported lost; the first packet of each such queue carries GAP (R612). -/
def State.seqJump (s : State) : State :=
  let t := s.twin.anns.foldl (fun t e =>
    t.modQue e.1 (fun q => { q with
      next := e.2.next + 0x10000#32, gap := q.gap || s.twin.annDirty.contains e.1 })) s
  let t := s.twin.runners.foldl (fun t e =>
    match s.runnerFig e.2 with
    | some f => t.modFig f (fun x => { x with seq := e.2.seq + 0x10000#32 })
    | none => t) t
  let t := s.twin.annDirty.foldl State.partnerLoss t
  t.modTwin (fun x => { x with annDirty := [] })

/-- Every mailbox enters RESET with the takeover code; its commands end without a response (R549, R563,
R613). -/
def State.mailboxesTaken (s : State) (code : BitVec 16) : State :=
  let one (n : Nat) : Mbx := { s.mbxAt n with state := .reset, reason := 2, code := code, setupBusy := false, unsignalled := 0 }
  { s with
    host := { s.host with
      mbx := (List.range 256).map (fun n => (n, one n))
      mbxRst := bumpBy s.host.mbxRst 256
      fetched := []
      outst := s.host.outst.map (fun o : Outstanding => { o with orphan := true }) }
    twin := { s.twin with edits := [] }
    misc := { s.misc with snaps := [] } }

/-- The code of Table 23.4. -/
def takeoverCode (kind : Nat) (cold : Bool) (level : Nat) (src : BitVec 8) : BitVec 16 :=
  BitVec.ofNat 16 (4096 * kind + 2048 * b2n cold + 256 * level + src.toNat)

/-- The decision of a takeover (R607, R610, R612, R613): the module becomes active, and a swap that was
to come is cancelled (R602). groups: those whose B1 and B2 are to come. -/
def State.takeOver (s : State) (kind level : Nat) (src : BitVec 8) (groups : BitVec 16) : State :=
  let cold := kind == 4 || !s.twin.warmBeat
  let code := takeoverCode kind cold level src
  let swap := s.sets.transfer.isSome
  let t := s.modTwin (fun x => { x with
    role := .active, cold := cold, warm := false, resync := false, missRun := 0, b1Due := groups, b2Due := groups
    held := [], restart := [], lastCode := code, takeover := bump x.takeover, flags := x.flags ||| 9#32 })
  let t := (t.raise 0xA85).raise 0xA80
  let t := t.modPeat (fun p => { p with twinRole := 1, twinSerial := s.twin.partner, twinDigest := s.sets.digest })
  let t := if swap then ({ t with sets := { t.sets with transfer := none } }).unfreeze else t
  (t.seqJump).mailboxesTaken code

/-- A port takes the state its record shows, and its first code is strobed (R608, R609). -/
def State.takePort (s : State) (p : Nat) (r : ChanRec) : State :=
  let o := outOfCode (bits r.ls 31 29)
  let t := s.modForce p (fun x => { x with
    out := o, outCode := x.inCode, driven := true, en := o == .ramp || o == .regulating || o == .rampDown
    lines := recordLines r, seq := 0, release := [] })
  let t := if o = .rampDown then
      match s.serves p with
      | some f => t.openRamp p (s.downPeriods f (s.figAt f).mode p)
      | none => t.openRamp p 1
    else t
  t.modelRestart p

/-- A port enters step 1 of Table 7.2 on the range its record shows in force (R609). -/
def State.restartPort (s : State) (p : Nat) (r : ChanRec) : State :=
  match (s.figsOn p).head? with
  | none => s.portOff p
  | some f =>
    let rng := bits r.rng 2 0
    let t := (s.portOff p).enablePort f p
    let t := if t.enableBarred p then t else t.modForce p (fun x => { x with rng := rng, lines := [rng] })
    (t.setLevel f (t.figAt f).level).modelRestart p

/-- OUT shows a port that runs: ARMED to PARK. -/
def recordRuns (r : ChanRec) : Bool := 1 ≤ bits r.ls 31 29 && bits r.ls 31 29 ≤ 5

/-- A port as its group is seated: held or restarted, tripped, or OFF. -/
def State.seatPort (s : State) (p : Nat) (held : Bool) : State :=
  match s.twin.cold, tget? s.twin.chans p with
  | false, some r =>
    if recordRuns r then (if held then s.takePort p r else s.restartPort p r)
    else if (s.spAt p).sup.tripped then (s.portOff p).modForce p (fun x => { x with out := .tripped })
    else s.portOff p
  | _, _ => s.portOff p

/-- What a takeover makes of a figure's list (Table 23.5). -/
def State.seatFig (s : State) (f : Nat) (held : Bool) : State :=
  if s.twin.cold then
    ((s.listCut f 13 0#16 .idle)).modFig f (fun x => { x with enabled := false })
  else match (s.figAt f).flight with
    | none => s
    | some q => if held && q.state != .aperture then s else s.pointEnd f 5 13 0#16

/-- Seat a group: SEAT goes low, and its ports and figures go on (R608 step 3, R609 B2). all: every port
is held. -/
def State.seatGroup (s : State) (g : Nat) (all : Bool) : State :=
  let ports := (List.range 8).map (fun k => 8 * g + k)
  let held (p : Nat) : Bool := all || s.twin.held.contains p
  let figs := (s.fig.filter (fun e => e.2.enabled && (s.master e.1).any (fun m => m / 8 == g))).map (fun e => e.1)
  let t := if s.twin.chansDue.getLsbD g then s.eachPort g State.shadowPort else s
  let t := ports.foldl (fun t p => t.seatPort p (held p)) t
  let t := figs.foldl (fun t f => t.seatFig f ((s.master f).any held)) t
  t.modTwin (fun x => { x with
    seated := x.seated ||| BitVec.twoPow 16 g
    chansDue := x.chansDue &&& ~~~(BitVec.twoPow 16 g)
    shadowStop := false })

/-- TAKEOVER_B1 (R609): enLow lists the ports whose STG_ENn reads low. -/
def execTakeoverB1 (grp : Nat) (enLow : List Nat) (s : State) : Host.Outcome State Fault Refusal :=
  finish s
    (if s.grpRuns grp && s.twin.b1Due.getLsbD grp then
      let ports := (List.range 8).map (fun k => 8 * grp + k)
      let runs := ports.filter (fun p => !s.twin.cold && (tget? s.twin.chans p).any recordRuns)
      let keep := runs.filter (fun p => enLow.contains p)
      let t := if s.twin.chansDue.getLsbD grp then s.eachPort grp State.shadowPort else s
      let t := keep.foldl (fun t p => t.modForce p (fun x => { x with
        en := true
        lines := match tget? s.twin.chans p with
          | some r => recordLines r
          | none => [] })) t
      t.modTwin (fun x => { x with
        chansDue := x.chansDue &&& ~~~(BitVec.twoPow 16 grp)
        b1Due := x.b1Due &&& ~~~(BitVec.twoPow 16 grp)
        held := x.held ++ keep
        restart := x.restart ++ runs.filter (fun p => !enLow.contains p) })
    else s)

/-- TAKEOVER_B2 (R609, R610). -/
def execTakeoverB2 (grp : Nat) (s : State) : Host.Outcome State Fault Refusal :=
  finish s
    (if s.grpRuns grp && s.twin.b2Due.getLsbD grp && !s.twin.b1Due.getLsbD grp then
      (s.seatGroup grp false).modTwin (fun x => { x with
        b2Due := x.b2Due &&& ~~~(BitVec.twoPow 16 grp)
        held := x.held.filter (fun p => p / 8 != grp)
        restart := x.restart.filter (fun p => p / 8 != grp) })
    else s)

/-- HANDOVER (R607, R608): a takeover is decided, and the records wait for each group's boundary. -/
def execHandover (m : HandoverMsg) (fseq : Word) (s : State) : Host.Outcome State Fault Refusal :=
  finish s (s.shadows fseq (fun s =>
    let t := (m.runners.foldl State.applyRunner s).applyAnns m.anns
    let h : HandoverSt :=
      { target := m.target, kind := m.kind, level := m.level, src := m.src, departing := false, acked := true }
    let t := t.modTwin (fun x => { x with
      chans := m.chans.foldl (fun c e => tput c e.1 e.2) x.chans
      chansDue := s.allGroups
      handover := some h })
    t.takeOver m.kind (if m.kind = 2 then m.level else 0) (if m.kind = 2 then m.src else 0#8) 0#16))

/-- T_h on the departing module: SEAT high for every group, every port OFF, no trip (R608 step 3). -/
def State.departNow (s : State) (h : HandoverSt) : State :=
  let t := (s.figuresLeft false).allOff
  let t := t.modTwin (fun x => { x with seated := 0#16, handover := none })
  if h.kind = 3 then t.enterDetached (if h.acked then stOk else stAborted) else t

/-- T_h on the standby: it seats every group, its ports leave STANDBY for the recorded states (R608
step 3). After a detach of mode 1 it is detached too (R614). -/
def State.arriveNow (s : State) (h : HandoverSt) : State :=
  let t := (List.range s.groups).foldl (fun t g => t.seatGroup g true) s
  let t := t.modTwin (fun x => { x with handover := none, cold := false })
  if h.kind = 3 then t.enterDetached stOk else t

/-- HANDOVER_BOUNDARY (R608): T_h is the first common boundary that has reached the named instant. -/
def execHandoverBoundary (s : State) : Host.Outcome State Fault Refusal :=
  finish s
    (match s.rst.ctrlUp, s.twin.handover with
     | true, some h =>
       if !mtLe h.target s.mt.mt || !s.commonNext then s
       else if h.departing then s.departNow h
       else s.arriveNow h
     | _, _ => s)

/-! ## Liveness (R601, R604 to R606) -/

/-- HEARTBEAT (R598, R601, R605): a run of missed slots ends; a link that was split by them returns. -/
def execHeartbeat (b : Beat) (s : State) : Host.Outcome State Fault Refusal :=
  finish s
    (if !s.cosynUp then s
    else
      let ahead := s.mtAfter ((s.twin.latency + 2) / 5) - s.mt.mt
      let differ := b.digest != s.sets.digest
      let t := s.modTwin (fun x => { x with
        last := some b, lastMt := s.mt.mt, missRun := 0, mtOfs := b.mt + ahead - s.mt.mt
        mtOfsGen := (x.mtOfsGen + b2n (x.mtOfs != b.mt + ahead - s.mt.mt)) % 16
        flags := x.flags ||| bitAt differ 7 })
      let t := if differ then t.raise 0xA87 else t
      let back := s.twin.link == .split
      let t := match back, s.twin.conf with
        | true, some c => (t.setLink .up).settlePair c b.seated
        | _, _ => t
      let t := if differ && !t.twin.resync then
          let u := t.modTwin (fun x => { x with resync := true })
          if u.leads then u.sendReliable 7 else u
        else t
      let t := if t.twin.role == .standby then t.reWarm else t.modTwin (fun x => { x with warm := b.warm })
      let t := if t.twin.warm && !s.twin.warm && t.twin.role != .standby then t.raise 0xA86 else t
      t.modTwin (fun x => { x with warmBeat := x.role == .standby && x.warm }))

/-- HEARTBEAT_SLOT_CLOSE (R605 to R607): a slot closes without a valid heartbeat. A standby counts on
while the link is down. -/
def execHeartbeatSlotClose (s : State) : Host.Outcome State Fault Refusal :=
  let standby := s.twin.role == .standby
  finish s
    (if s.rst.ctrlUp && s.twin.last.isSome && (s.twin.train == .up || standby) then
      let t := s.modTwin (fun x => { x with
        hbMiss := bump x.hbMiss, missRun := x.missRun + 1, flags := x.flags ||| 0x10#32
        shadowStop := x.shadowStop || standby })
      let t := if s.twin.missRun = 0 then t.raise 0xA84 else t
      if t.twin.missRun < 3 then t
      else if s.twin.aliveIn then t.setLink .split
      else
        let u := if s.twin.train = .up then t.linkLost else t
        if standby && u.twin.role == .standby then u.takeOver 1 0 0#8 s.allGroups else u
    else s)

/-- ALIVE_IN_CHANGE (R604, R606, R607): with the link down, ALIVE_IN makes it split; its absence while
LINK is split, or after the third missed slot, lets a standby take over. -/
def execAliveInChange (active : Bool) (s : State) : Host.Outcome State Fault Refusal :=
  finish s
    (if !s.rst.ctrlUp || !s.pairStrap || s.twin.aliveIn == active then s
    else
      let t := s.modTwin (fun x => { x with aliveIn := active })
      if active then (if s.twin.link = .down then t.linkOff else t)
      else
        let standby := s.twin.role == .standby
        let missed := 3 ≤ s.twin.missRun
        if s.twin.link = .split then
          let u := if s.twin.train = .up then t.linkLost
            else t.setLink (if s.twin.trying then .training else .down)
          if standby && u.twin.role == .standby then u.takeOver 4 0 0#8 s.allGroups else u
        else if missed && standby then t.takeOver 1 0 0#8 s.allGroups
        else t)

/-- COSYN_SIGNAL_LOSS (R593, R606): the link leaves UP, or the attempt fails. -/
def execCosynSignalLoss (s : State) : Host.Outcome State Fault Refusal :=
  finish s
    (if !s.rst.ctrlUp then s
    else if s.twin.train = .up then s.linkLost
    else if s.twin.trying && s.twin.train != .detect then s.trainFailed
    else s)

/-! ## Detach and attach (R580, R614, R615) -/

/-- CONTROL_FRAME (R408, R614). -/
def execControlFrame (n : ControlNote) (fseq : Word) (s : State) : Host.Outcome State Fault Refusal :=
  finish s
    (if !s.cosynUp then s
    else s.receive fseq (fun s =>
      match n with
      | .detach => s.enterDetached stOk
      | .attach => s.modTwin (fun x => { x with attempts := 0 })
      | .calBusy b => s.modTwin (fun x => { x with partnerCal := b })))

/-- ROLE and LINK codes (Table 22.5). -/
def roleCode (r : Role) : Nat :=
  match r with
  | .solo => 0
  | .active => 1
  | .standby => 2
  | .detached => 3
  | .negotiating => 4
def linkCode (l : Link) : Nat :=
  match l with
  | .down => 0
  | .training => 1
  | .up => 2
  | .split => 3

/-- TWIN_STATUS_READ (R580). -/
def execTwinStatusRead (r : Req) (s : State) : Host.Outcome State Fault Refusal :=
  umser r 0x0901 {} s fun s =>
    let same := s.twin.last.any (fun b => b.digest == s.sets.digest)
    s.ok r 0x0901
      (leBytes 1 (roleCode s.twin.role) ++ leBytes 1 (linkCode s.twin.link) ++
        leBytes 1 (bits s.rst.strap 3 2) ++ leBytes 1 (b2n same) ++ leBytes 4 s.twin.latency ++
        leBytes 8 s.twin.partner.toNat ++ leBytes 4 s.twin.hbMiss.toNat) []

/-- The pair is formed: the link is up and the role settled. -/
def State.paired (s : State) : Bool :=
  s.twin.link == .up && (s.twin.role == .active || s.twin.role == .standby)

/-- TWIN_DETACH (R580, R614): obj is the mode, aux the FSEQ of the notice. -/
def execTwinDetach (r : Req) (mode key : Nat) (s : State) : Host.Outcome State Fault Refusal :=
  umser r 0x0902 { long := true } s fun s =>
    if key != 0xA5 || !s.pairStrap then s.refuse r 0x0902 stDenied
    else if 1 < mode then s.refuse r 0x0902 stRange 0x20
    else if !s.paired || (mode == 1 && s.twin.role != .active) then s.refuse r 0x0902 stNotReady
    else if s.twin.attachBusy || s.twin.handover.isSome || s.sets.phase != 0 ||
        s.host.outst.any (fun o => o.opcode == 0x0902 || o.opcode == 0x0903) then s.refuse r 0x0902 stBusy
    else if mode = 1 then (s.defer r 0x0902 1 0 0).depart 3 0 0#8
    else (s.defer r 0x0902 0 s.twin.fseq.toNat 0).sendReliable 0xA

/-- TWIN_ATTACH (R580, R615): training starts with the attempt count cleared. -/
def execTwinAttach (r : Req) (s : State) : Host.Outcome State Fault Refusal :=
  umser r 0x0903 { long := true } s fun s =>
    if !s.pairStrap then s.refuse r 0x0903 stDenied
    else if s.paired then s.ok r 0x0903 [] []
    else
      let t := (s.defer r 0x0903 0 0 0).modTwin (fun x => { x with
        attempts := 0, attachBusy := true, trying := true
        train := if x.trying then x.train else .detect
        role := if x.role == .detached then .negotiating else x.role
        flags := x.flags ||| bitAt (x.role == .detached) 0 })
      let t := if s.twin.role = .detached then t.raise 0xA80 else t
      if s.twin.link = .split then t else t.setLink .training

end Sys2Proof.Machine
end

