-- ==== Sys2Proof/Machine/Session.lean ====
section
/-! DEFINITION. SES_CANCEL (R561, Table 21.8): what a cancel does to the command it names. -/

namespace Sys2Proof.Machine

/-- The command a cancel acts on is this one. -/
def Outstanding.is (o x : Outstanding) : Bool := x.mbx == o.mbx && x.tag == o.tag && x.opcode == o.opcode

/-- Complete the cancelled command. -/
def State.cancelled (s : State) (o : Outstanding) (result : List Byte) : State :=
  s.complete o.is { status := stAborted, cancelled := true, result := result }

/-- Cut the calibration run of a command with cause INTERRUPTED; old factors stay. -/
def State.calCancel (s : State) (o : Outstanding) : State :=
  if o.opcode = 0x0E01 then
    let t := (s.modCalib (fun c => { c with ext := none })).calFlag 0x88#32
    s.tellBusy (t.calFail calInterrupted 5 0 0).arbNext
  else if o.opcode = 0x0E02 then
    let m := BitVec.ofNat 4 o.obj
    let ran := setBits 4 (m &&& s.cal.arbRun).toNat
    let t := s.modCalib (fun c => { c with arbRun := c.arbRun &&& ~~~m, arbWait := c.arbWait &&& ~~~m })
    let t := if ran.isEmpty then t else t.calFlag 0x84#32
    (ran.foldl (fun t a => t.calFail calInterrupted 2 a 0) t).calAdvance
  else if o.opcode = 0x0E03 then
    match s.cal.mainsRun with
    | none => s
    | some ch =>
      let t := s.modCalib (fun c => { c with mainsRun := none, mainsFirst := none, mainsCause := 0 })
      (t.calFlag 0x90#32).calFail calInterrupted 3 ch 0
  else
    let m := BitVec.ofNat 4 o.obj
    let ran := (setBits 4 (m &&& s.cal.slotRun).toNat).flatMap s.busGroups
    let t := s.modCalib (fun c => { c with slotDue := c.slotDue &&& ~~~m, slotRun := c.slotRun &&& ~~~m })
    let t := if ran.isEmpty then t else t.calFlag 0x82#32
    (ran.foldl (fun t g =>
      ((t.spareIdle g).calFail calInterrupted 1 0 (sliceSource g 17)).raiseGrp g 8) t).arbNext.calAdvance

/-- The check of a command waits in its queue. -/
def State.checkWaits (s : State) (o : Outstanding) : Bool :=
  if o.opcode = 0x0D04 then !(s.spAt o.obj).sup.checking
  else (s.grpAt o.obj).acq.checks.any (fun c => c.owns o && !c.running)

/-- Take a waiting check out of its queue. -/
def State.uncheck (s : State) (o : Outstanding) : State :=
  if o.opcode = 0x0D04 then s.modSup o.obj (fun x => { x with leadCmd := none })
  else s.modAcq o.obj (fun a => { a with checks := a.checks.filter (fun c => !c.owns o) })

/-- Opcodes of the runs of calibration, and of the checks that queue. -/
def isCalRun (op : Nat) : Bool := op == 0x0E01 || op == 0x0E02 || op == 0x0E03 || op == 0x0E05
def isCheck (op : Nat) : Bool := op == 0x0A04 || op == 0x0A05 || op == 0x0D04

/-- The command an injection belongs to. -/
def Tune.owns (t : Tune) (o : Outstanding) : Bool :=
  o.opcode == 0x0C06 && o.mbx == t.mbx && o.tag == t.tag

/-- Cancel an outstanding command: the status of SES_CANCEL, and the state (Table 21.8). -/
def State.cancel (s : State) (o : Outstanding) : Nat × State :=
  if o.opcode = 0x0501 ∧ o.phase ≠ 1 then (stNotReady, s)
  else if o.opcode = 0x0501 ∨ o.opcode = 0x0502 then (stOk, s.unfreeze.cancelled o [])
  else if isCalRun o.opcode then (stOk, (s.calCancel o).cancelled o [])
  else if o.opcode = 0x0C06 then
    let stop (t : Tune) : Tune := if t.owns o then { t with stop := true, cancelled := true } else t
    (stOk, { s with grp := tmap (fun _ x => { x with tune := x.tune.map stop }) s.grp })
  else if o.opcode = 0x0801 then
    let mine (m : MireRead) : Bool := m.mbx == o.mbx && m.tag == o.tag
    match s.sto.reads.find? mine with
    | none => (stNotFound, s)
    | some m =>
      let reads := s.sto.reads.filter (fun x => !mine x)
      let t := { s with sto := { s.sto with
        reads := reads
        releasedHeld := s.sto.releasedHeld.filter (fun k => reads.any (fun x =>
          x.qid == k.qid && inRange x.first x.count k.seq)) } }
      (stOk, t.cancelled o (leBytes 4 m.delivered ++ leBytes 4 m.absent ++ leBytes 4 m.lost))
  else if isCheck o.opcode then
    if s.checkWaits o then (stOk, (s.uncheck o).cancelled o []) else (stNotReady, s)
  else (stDenied, s)

/-- SES_CANCEL (R561): the oldest outstanding command of the mailbox with the tag. -/
def execSesCancel (r : Req) (tag : BitVec 16) (s : State) : Host.Outcome State Fault Refusal :=
  umser r 0x0102 {} s fun s =>
    match (s.outstOf r.mbx).find? (fun o => o.tag == tag) with
    | none => s.refuse r 0x0102 stNotFound
    | some o =>
      let x := s.cancel o
      if x.1 = stOk then x.2.ok r 0x0102 [] [] else s.refuse r 0x0102 x.1

end Sys2Proof.Machine
end

