-- ==== Sys2Proof/Machine/Regs.lean ====
section
/-! DEFINITION. The registers of BAR0 (Table 20.2): what each reads, what a write does by its access code
(Table 0.3), two-half reads with their holding registers (R95 to R98), select registers, and the service
port's frames (R545). -/

namespace Sys2Proof.Machine

/-! ## The map (R531) -/

/-- Ranges of offsets that hold registers, first and last, below the mailboxes. -/
def regRanges : List (Nat × Nat) :=
  [(0x0, 0x8), (0x10, 0x3C), (0x40, 0x60), (0x68, 0x6C), (0x100, 0x118), (0x120, 0x120), (0x140, 0x17C),
   (0x200, 0x230), (0x240, 0x25C), (0x400, 0x4BC), (0x500, 0x538), (0x580, 0x594), (0x600, 0x62C)] ++
  [(0x640, 0x67C), (0x680, 0x6B0), (0x6C0, 0x6FC), (0x700, 0x720), (0x780, 0x788), (0x7C0, 0x7FC),
   (0x800, 0x834), (0x840, 0x85C), (0x880, 0x91C), (0x980, 0x9C0), (0xA00, 0xA40), (0xB00, 0xBFC)] ++
  [(0xC00, 0xC30), (0xD00, 0xD18), (0xD20, 0xD3C), (0x8000, 0x91FC), (0x9800, 0x9824)]

/-- An aligned offset of BAR0 holds a register. -/
def isReg (off : Nat) : Bool :=
  off % 4 == 0 &&
    (regRanges.any (fun r => r.1 ≤ off && off ≤ r.2) ||
      (0x1000 ≤ off && off < 0x5000 && off % 0x40 ≤ 8))

/-! ## Two-half values (Tables 4.9, 4.10, 10.10, 10.11) -/

/-- Low and high half of a 64-bit MT value with its generation tag. -/
def mtLow (gen : Nat) (v : DWord) : Word := at32 (gen % 16) 28 ||| at32 (bits v 36 9) 0
def mtHigh (gen : Nat) (v : DWord) : Word := at32 (gen % 16) 28 ||| at32 (bits v 63 37) 0

/-- Low and high half of a 48-bit value with its generation tag. -/
def q48Low (gen : Nat) (v : BitVec 48) : Word := at32 (gen % 16) 28 ||| at32 (bits v 27 0) 0
def q48High (gen : Nat) (v : BitVec 48) : Word := at32 (gen % 16) 28 ||| at32 (bits v 47 28) 0

/-- The generation tag of MT_NOW for an access port (R97). -/
def MtBlk.nowGen (m : MtBlk) (port : Port) : Nat :=
  match port with
  | .pcie => m.nowGenPcie
  | .service => m.nowGenSpi

/-! ## Codes of fields -/

def huCode (h : HuState) : Nat :=
  match h with
  | .normal => 0 | .ride => 1 | .winddown => 2 | .commit => 3 | .spent => 4
def MtState.toCode (m : MtState) : Nat :=
  match m with
  | .search => 0 | .acquire => 1 | .locked => 2 | .holdover => 3 | .virtual => 4
def SpareRole.toCode (r : SpareRole) : Nat :=
  match r with
  | .idle => 0 | .calbus => 1 | .share => 2 | .carry => 3 | .probe => 4
def AuxState.toCode (a : AuxState) : Nat :=
  match a with
  | .stopped => 0 | .waiting => 1 | .running => 2 | .urgent => 3
def MbxState.toCode (m : MbxState) : Nat :=
  match m with
  | .closed => 0 | .opened => 1 | .restarting => 2 | .reset => 3 | .closing => 4
def trainCode (t : Train) : Nat :=
  match t with
  | .idle => 0 | .detect => 1 | .lock => 2 | .order => 3 | .config => 4 | .up => 5

/-- The word of a 256-bit-or-less set of numbers: bit i when 32n + i is in the set. -/
def wordOf (n : Nat) (p : Nat → Bool) : Word :=
  at32 (nsum ((List.range 32).map (fun i => b2n (p (32 * n + i)) * 2 ^ i))) 0

/-! ## What registers read -/

/-- HOST_STATUS (Table 20.4). -/
def State.hostStatus (s : State) : Word :=
  let up := s.host.speed != 0 && !s.spiOnly
  at32 (if up then s.host.speed else 0) 20 ||| at32 (if up then s.host.width else 0) 16 |||
  bitAt s.host.msixEn 15 ||| bitAt s.host.busMaster 14 ||| bitAt s.spiOnly 13 |||
  at32 (s.host.mbx.filter (fun e => e.2.state == .opened)).length 0

/-- The identity and host registers (Table 20.3). -/
def State.readHost (s : State) (off : Nat) : Word :=
  if off = 0x0 then at32 (partCode s.ident.part) 16 ||| at32 s.ident.silicon.toNat 8 ||| 0x20#32
  else if off = 0x4 then s.ident.serial.extractLsb' 0 32
  else if off = 0x8 then s.ident.serial.extractLsb' 32 32
  else if off = 0x10 then s.hostStatus
  else if off = 0x14 then s.host.flags
  else if off = 0x18 then s.host.mbxRst
  else if off = 0x1C then s.host.cplErr
  else if off < 0x40 then wordOf ((off - 0x20) / 4) (fun n => (s.mbxAt n).state == .opened && !s.restarting)
  else if off < 0x64 then wordOf ((off - 0x40) / 4) s.host.irqPend.contains
  else if off = 0x68 then s.host.hdrFault.extractLsb' 0 32
  else s.host.hdrFault.extractLsb' 32 32

/-- RST_FUSE shows the table as programmed; its SUPPLY field reads as L0, whatever it holds (R126). -/
def State.fuseShown (s : State) : Word := (s.rst.fuseProgrammed &&& ~~~7#32) ||| 4#32

/-- The reset, readiness and peat registers (Table 6.8). -/
def State.readRst (s : State) (off : Nat) : Word :=
  if off = 0x100 then s.rst.cause
  else if off = 0x104 then s.fuseShown
  else if off = 0x108 then s.rst.strap
  else if off = 0x110 then s.peat.rstCount
  else if off = 0x114 then s.peat.status
  else if off = 0x118 then s.peat.wdogCnt
  else if off = 0x120 then s.ready
  else if 0x140 ≤ off then tget 0#32 s.peat.regs ((off - 0x140) / 4)
  else 0#32

/-- MT_STATUS (Table 4.11). -/
def State.mtStatus (s : State) : Word :=
  let m := s.mt
  bitAt m.eraOk 11 ||| bitAt m.epoch 10 ||| bitAt m.isoLoss 9 ||| bitAt m.mainsValid 8 |||
  at32 s.mtQual 6 ||| bitAt m.slew 5 ||| bitAt m.firstPull 4 ||| at32 m.state.toCode 0

/-- The MT registers (Table 4.8). -/
def State.readMt (s : State) (port : Port) (off : Nat) : Word :=
  let m := s.mt
  if off = 0x200 then mtLow (m.nowGen port) m.mt
  else if off = 0x204 then mtHigh (m.nowGen port) m.mt
  else if off = 0x208 then mtLow m.capGen m.cap
  else if off = 0x20C then mtHigh m.capGen m.cap
  else if off = 0x210 then s.mtStatus
  else if off = 0x214 then m.freq
  else if off = 0x218 then m.lineFreq
  else if off = 0x21C then m.xnoise.setWidth 32
  else if off = 0x220 then m.flags
  else if off = 0x224 then m.rejCnt
  else if off = 0x228 then m.unlockCnt
  else if off = 0x22C then m.holdCyc
  else s.peat.era

/-- PFE_STATUS (Table 5.8). The relay keeps its last state while the channel is failed (R15). -/
def State.pfeStatus (s : State) : Word :=
  let p := s.pfe.pri
  at32 (huCode s.pfe.hu) 8 ||| bitAt (s.priSeen && p.auxSec) 6 |||
  bitAt (s.priSeen && p.pfcRun && !p.pfcHeld) 5 ||| bitAt (s.established && p.relay) 4 |||
  bitAt s.pfe.bulkOk 3 ||| bitAt (s.priSeen && !p.lineLoss) 2 ||| bitAt s.pfe.derate 1 |||
  bitAt s.pfe.lossReported 0

/-- The front end registers (Table 5.7); PFE_LINE and PFE_BULK read 0 where R123 says so. -/
def State.readPfe (s : State) (off : Nat) : Word :=
  let x := s.pfe
  let tenMj (e : Nat) : Nat := min 0xFFFF (e / 10)
  if off = 0x240 then s.pfeStatus
  else if off = 0x244 then if s.priSeen then at32 x.linePeak 16 ||| at32 (x.lineRms % 65536) 0 else 0#32
  else if off = 0x248 then
    if s.priSeen then at32 (BitVec.ofInt 16 x.temp).toNat 16 ||| at32 (x.vbulk.getD 0 % 65536) 0 else 0#32
  else if off = 0x24C then at32 (tenMj x.eRes) 16 ||| at32 (tenMj x.eUse) 0
  else if off = 0x250 then at32 (x.bMax / 1048576) 0
  else if off = 0x254 then x.faults
  else if off = 0x258 then x.dropCnt
  else x.ocpCnt

/-- ACQ_GSTATn (Table 9.13). -/
def Acq.gstat (a : Acq) : Word :=
  let tgt := if a.spareRole = .share ∨ a.spareRole = .carry then a.spareTgt else 0x1F
  at32 a.urg.length 20 ||| at32 a.auxClass 18 ||| at32 a.auxState.toCode 16 |||
  at32 tgt 11 ||| at32 a.spareRole.toCode 8 ||| at32 a.trigMode 4 ||| bitAt a.edgeSeen 3 ||| at32 a.trigPort 0

/-- The acquisition registers (Table 9.12); those of an absent group read 0. -/
def State.readAcq (s : State) (off : Nat) : Word :=
  let g := (off % 64) / 4
  let a := (s.grpAt g).acq
  if !s.hasGrp g then 0#32
  else if off < 0x440 then a.gstat
  else if off < 0x480 then a.flags
  else a.auxOvr ++ a.tmiss

/-- The result registers (Table 10.9) show the port of MP_SEL; an absent port reads 0 (R276). -/
def State.readMp (s : State) (off : Nat) : Word :=
  let p := s.sel.mp.toNat
  let x := (s.spAt p).meas
  let f := (s.spAt p).force
  let r := x.regs
  if off = 0x500 then s.sel.mp
  else if off = 0x538 then s.misc.tapDisc
  else if !s.hasPort p then 0#32
  else if off = 0x504 then w32 x.wV
  else if off = 0x508 then w32 x.wI
  else if off = 0x50C then
    at32 f.vspan 19 ||| at32 f.rng 16 ||| at32 x.statI.toNat 8 ||| at32 x.statV.toNat 0
  else if off = 0x510 then q48Low r.gen r.vMean
  else if off = 0x514 then q48High r.gen r.vMean
  else if off = 0x518 then q48Low r.gen r.iMean
  else if off = 0x51C then q48High r.gen r.iMean
  else if off = 0x520 then q48Low r.gen r.pMean
  else if off = 0x524 then q48High r.gen r.pMean
  else if off = 0x528 then mtLow r.gen r.mtFirst
  else if off = 0x52C then mtHigh r.gen r.mtFirst
  else if off = 0x530 then r.count
  else at32 (r.gen % 16) 28 ||| at32 r.cause 16 ||| r.flags.setWidth 32

/-- FR_STATE (Table 11.9). -/
def Force.state (x : Force) : Word :=
  let tgt := match x.win with
    | some w => w.b
    | none => x.downPend.getD 7
  let lower := x.downPend.any (fun b => x.rng < b) || x.spanPend.any (fun v => x.vspan < v)
  bitAt x.sc 25 ||| bitAt lower 24 ||| at32 (rngPhase x) 22 ||| at32 tgt 19 ||| at32 x.rng 16 |||
  at32 (nsum ((List.range 6).map (fun i => b2n (x.lines.contains i) * 2 ^ i))) 10 ||| at32 x.vspan 8 |||
  bitAt x.vspanAuto 7 ||| bitAt x.rngAuto 6 ||| at32 (Sys2Proof.Machine.outCode x.out) 0

/-- The force and ranging registers (Table 11.8). -/
def State.readFr (s : State) (off : Nat) : Word :=
  let p := s.sel.fr.toNat
  let x := (s.spAt p).force
  if off = 0x580 then s.sel.fr
  else if !s.hasPort p then 0#32
  else if off = 0x584 then w32 x.outCode
  else if off = 0x588 then x.state
  else if off = 0x58C then x.flags
  else if off = 0x590 then x.rngDownCnt ++ x.rngUpCnt
  else x.scCnt

/-- LE_GSTATn (Table 12.14). -/
def State.leGstat (s : State) (g : Nat) : Word :=
  let x := s.grpAt g
  let c := groupCost s.sets.cast s.sets.cast.place g
  let tune := match x.tune with
    | some t => at32 (t.port % 8) 29 ||| bitAt true 28
    | none => 0#32
  if s.hasGrp g then tune ||| at32 c.1 16 ||| at32 c.2 4 ||| at32 x.rate 0 else 0#32

/-- The integrator LE_SEL names. -/
def Loop.integOf (l : Loop) (k : Nat) : Int :=
  if k = 0 then l.v.integ else if k = 1 then l.i.integ else if k = 2 then l.x.integ else l.share.integ

/-- The loop engine registers (Table 12.11). -/
def State.readLe (s : State) (off : Nat) : Word :=
  let p := bits s.sel.le 6 0
  let l := (s.spAt p).loop
  let g := s.grpAt (p / 8)
  let gen := g.tick.toNat
  let int := BitVec.ofInt 48 (l.integOf (bits s.sel.le 9 8))
  if off = 0x600 then s.sel.le
  else if 0x640 ≤ off then s.leGstat ((off - 0x640) / 4)
  else if !s.hasPort p then 0#32
  else if off = 0x604 then l.ls
  else if off = 0x608 then l.detail
  else if off = 0x60C then l.flags
  else if off = 0x610 then w32 (sat32 (l.uSel / 2 ^ 20))
  else if off = 0x614 then (BitVec.ofInt 16 l.ff).setWidth 32
  else if off = 0x618 then q48Low gen int
  else if off = 0x61C then q48High gen int
  else if off = 0x620 then l.ovrCnt
  else if off = 0x624 then l.govCnt
  else if off = 0x628 then q48Low gen g.tick
  else q48High gen g.tick ||| bitAt g.epoch 26

/-- The supervision registers (Table 13.9). -/
def State.readSup (s : State) (off : Nat) : Word :=
  let p := s.sel.sup.toNat
  let x := (s.spAt p).sup
  let g := (off - 0x6C0) / 4
  if off = 0x680 then s.sel.sup
  else if 0x6C0 ≤ off then
    if s.hasGrp g then
      at32 (s.grpAt g).ovf.toNat 16 ||| bitAt (s.grpAt g).intPend 4 ||| at32 (s.grpAt g).trips.length 0
    else 0#32
  else if 0x6A0 ≤ off ∧ off ≤ 0x6AC then s.tripped.extractLsb' (8 * (off - 0x6A0)) 32
  else if !s.hasPort p then 0#32
  else if off = 0x684 then s.pstat p
  else if off = 0x688 then x.cause
  else if off = 0x68C then x.flags
  else if off = 0x690 then nibble 0 (fun k => (x.mon.getD k Mon.init).latch)
  else if off = 0x694 then x.resV
  else if off = 0x698 then x.resI
  else if off = 0x69C then x.tripCnt
  else x.lead

/-- The sweep registers (Table 14.17); a figure that is not defined reads 0 (R405). -/
def State.readSwp (s : State) (off : Nat) : Word :=
  let f := s.sel.swp.toNat
  let x := s.figAt f
  if off = 0x700 then s.sel.swp
  else if off = 0x720 then
    at32 ((s.sets.cast.figs.filter (fun f => (s.figAt f).run != .idle)).filterMap s.runnerOf).eraseDups.length 0
  else if !s.defined f then 0#32
  else if off = 0x704 then s.swpState f
  else if off = 0x708 then s.swpPoint f
  else if off = 0x70C then x.flags
  else if off = 0x710 then x.doneCnt
  else if off = 0x714 then x.failCnt
  else if off = 0x718 then x.nrunCnt
  else s.swpSeq f

/-- The event fabric registers (Table 16.6). -/
def State.readFab (s : State) (off : Nat) : Word :=
  let f := s.fab
  let c := f.csel.toNat
  if off = 0x800 then f.flags
  else if off = 0x804 then f.csel
  else if off = 0x808 then bitAt (f.coincFlag.contains c) 16 ||| at32 (f.selOf c) 0
  else if off = 0x80C then (tget 0#16 f.coinc c).setWidth 32
  else if off < 0x830 then tget 0#32 f.persist ((off - 0x810) / 4)
  else if off = 0x830 then at32 f.taps.length 0
  else if off = 0x834 then f.routeSeq
  else if off < 0x880 then tget 0#32 f.seen ((off - 0x840) / 4)
  else tget 0#32 f.cnt ((off - 0x880) / 4)

/-- The set registers (Table 17.9). -/
def Sets.read (t : Sets) (off : Nat) : Word :=
  if off = 0x900 then t.status
  else if off = 0x904 then t.castSeq
  else if off = 0x908 then t.maqSeq
  else if off = 0x90C then t.val
  else if off = 0x910 then t.digest.extractLsb' 0 32
  else if off = 0x914 then mtLow t.unvGen t.unvMt
  else if off = 0x918 then mtHigh t.unvGen t.unvMt
  else t.rejCnt

/-- The queue registers (Table 18.12); the queue of an undefined figure reads 0 (R500). -/
def State.readQue (s : State) (off : Nat) : Word :=
  let u := s.que
  let qid := u.sel.toNat
  let q := s.queAt qid
  let on := s.defined (qidFig qid)
  if off = 0x980 then u.sel
  else if off = 0x984 then s.queStat qid
  else if off = 0x988 then if on then q.next else 0#32
  else if off = 0x98C then if on then q.headSeq else 0#32
  else if off = 0x990 then if on then at32 q.credit 0 else 0#32
  else if off = 0x994 then u.flags
  else if off = 0x998 then u.poisonCnt
  else if off = 0x99C then u.dropCnt
  else if off < 0x9BC then tget 0#32 u.corrCnt ((off - 0x9A0) / 4)
  else if off = 0x9BC then u.ovfCnt
  else at32 u.hotUsed 0

/-- The storage registers (Table 19.12). -/
def State.readSto (s : State) (off : Nat) : Word :=
  let t := s.sto
  if off = 0xA00 then s.stoStatus
  else if off = 0xA04 then t.flags
  else if off = 0xA08 then at32 t.capMiB 0
  else if off = 0xA0C then at32 t.freeMiB 0
  else if off = 0xA10 then bitAt t.measured 16 ||| at32 (t.rate % 65536) 0
  else if off = 0xA14 then at32 (t.staged / 1024) 0
  else if off = 0xA18 then wordOf 0 (fun n => (s.targetAt n).fitted)
  else if off = 0xA1C then wordOf 0 (fun n => (s.targetAt n).healthy)
  else if off = 0xA20 then t.confirmedSeq
  else if off = 0xA24 then t.progFail
  else if off = 0xA28 then t.eraseFail
  else if off = 0xA2C then t.timeoutCnt
  else if off = 0xA30 then t.rdCorr
  else if off = 0xA34 then t.lostCnt
  else if off = 0xA38 then t.preempt
  else if off = 0xA3C then t.drainRst
  else t.badBlk

/-- TWIN_STATUS (Table 23.10). -/
def Twin.status (t : Twin) : Word :=
  at32 t.seated.toNat 16 ||| at32 (trainCode t.train) 13 ||| bitAt t.warm 12 ||| bitAt t.resync 11 |||
  bitAt t.aliveIn 10 ||| bitAt t.rev 9 ||| at32 t.pol.toNat 5 ||| at32 (linkCode t.link) 3 |||
  at32 (roleCode t.role) 0

/-- The twin registers (Table 23.9). -/
def Twin.read (t : Twin) (off : Nat) : Word :=
  if off = 0xC00 then t.status
  else if off = 0xC04 then t.flags
  else if off = 0xC08 then at32 (t.latency % 65536) 0
  else if off = 0xC0C then t.lastCode.setWidth 32
  else if off = 0xC10 then t.partner.extractLsb' 0 32
  else if off = 0xC14 then t.partner.extractLsb' 32 32
  else if off = 0xC18 then mtLow t.mtOfsGen t.mtOfs
  else if off = 0xC1C then mtHigh t.mtOfsGen t.mtOfs
  else if off = 0xC20 then t.hbMiss
  else if off = 0xC24 then t.frameErr
  else if off = 0xC28 then t.trainFail
  else if off = 0xC2C then t.takeover
  else t.retx

/-- The error registers (Table 24.7). -/
def Err.read (e : Err) (off : Nat) : Word :=
  if off = 0xD00 then e.status
  else if off = 0xD04 then e.newest
  else if off = 0xD08 then e.ack
  else if off = 0xD10 then e.lost
  else if off = 0xD14 then e.isoFrame
  else if off = 0xD18 then e.satSrc.setWidth 32
  else if 0xD20 ≤ off then
    match e.first with
    | some r => BitVec.ofNat 32 (ofLe ((r.bytes.drop (off - 0xD20)).take 4))
    | none => 0#32
  else 0#32

/-- The mailbox registers (Table 20.6). -/
def State.readMbx (s : State) (n k : Nat) : Word :=
  let m := s.mbxAt n
  if k = 4 then m.rspTail ++ m.reqTail
  else if k = 8 then
    let port := bitAt (m.port == .service) 23
    if s.restarting then at32 2 28 ||| port
    else
      let low := match m.state with
        | .opened => m.reqHead
        | .closing => m.reqHead
        | .reset => m.code
        | _ => 0#16
      at32 m.state.toCode 28 ||| at32 m.reason 24 ||| port ||| low.setWidth 32
  else 0#32

/-- What a register of BAR0 reads, live. -/
def State.readReg (s : State) (port : Port) (off : Nat) : Word :=
  if !isReg off then 0#32
  else if off < 0x100 then s.readHost off
  else if off < 0x180 then s.readRst off
  else if off < 0x240 then s.readMt port off
  else if off < 0x260 then s.readPfe off
  else if off < 0x500 then s.readAcq off
  else if off < 0x580 then s.readMp off
  else if off < 0x600 then s.readFr off
  else if off < 0x680 then s.readLe off
  else if off < 0x700 then s.readSup off
  else if off < 0x780 then s.readSwp off
  else if off = 0x780 then s.calStatus
  else if off = 0x784 then s.cal.flags
  else if off = 0x788 then s.cal.failCnt
  else if off < 0x800 then s.calPass ((off - 0x7C0) / 4)
  else if off < 0x900 then s.readFab off
  else if off < 0x980 then s.sets.read off
  else if off < 0xA00 then s.readQue off
  else if off < 0xB00 then s.readSto off
  else if off < 0xC00 then (s.hdrAt ((off - 0xB00) / 4)).head
  else if off < 0xD00 then s.twin.read off
  else if off < 0x1000 then s.err.read off
  else if off < 0x5000 then s.readMbx ((off - 0x1000) / 0x40) (off % 0x40)
  else if off < 0x9800 then s.host.msixWord ((off - 0x8000) / 4)
  else wordOf ((off - 0x9800) / 4) s.host.pba.contains

/-! ## Two-half reads (R95 to R100, R276, R349, R471, R618) -/

/-- The holding registers a low half fills: the offsets that return them. -/
def highsOf (off : Nat) : List Nat :=
  if off = 0x504 then [0x508, 0x50C]
  else if [0x200, 0x208, 0x510, 0x518, 0x520, 0x528, 0x618, 0x628, 0x914, 0xC18].contains off then [off + 4]
  else []

/-- The offset returns a holding register, if that is not empty. -/
def isHigh (off : Nat) : Bool :=
  [0x204, 0x20C, 0x508, 0x50C, 0x514, 0x51C, 0x524, 0x52C, 0x61C, 0x62C, 0x918, 0xC1C].contains off

/-- The register has a STALE bit, and shows a port that is present. -/
def State.hasStale (s : State) (off : Nat) : Bool :=
  if off = 0x508 ∨ off = 0x50C then false
  else if 0x500 ≤ off ∧ off < 0x580 then s.hasPort s.sel.mp.toNat
  else if 0x600 ≤ off ∧ off < 0x640 then s.hasPort (bits s.sel.le 6 0)
  else true

/-- The holding registers of an access port. -/
def HostIf.holding (h : HostIf) (port : Port) : Tab Word :=
  match port with
  | .pcie => h.holdPcie.held
  | .service => h.holdSpi.held

/-- Set the holding registers of an access port. -/
def State.setHolding (s : State) (port : Port) (t : Tab Word) : State :=
  match port with
  | .pcie => { s with host := { s.host with holdPcie := { held := t } } }
  | .service => { s with host := { s.host with holdSpi := { held := t } } }

/-- GEN of MT_NOW advances at each low-half read through the port (R97). -/
def MtBlk.stepGen (m : MtBlk) (port : Port) : MtBlk :=
  match port with
  | .pcie => { m with nowGenPcie := (m.nowGenPcie + 1) % 16 }
  | .service => { m with nowGenSpi := (m.nowGenSpi + 1) % 16 }

/-- A low-half read: the value, and the state with its high half held (R96). -/
def State.readLow (s : State) (port : Port) (off : Nat) : Word × State :=
  let t := if off = 0x200 then s.modMt (fun m => m.stepGen port) else s
  let held := (highsOf off).foldl (fun h o => tput h o (t.readReg port o)) (t.host.holding port)
  (t.readReg port off, t.setHolding port held)

/-- A high-half read: the held copy, which it empties, or the live half with STALE set (R98). -/
def State.readHigh (s : State) (port : Port) (off : Nat) : Word × State :=
  match tget? (s.host.holding port) off with
  | some v => (v, s.setHolding port (tdel (s.host.holding port) off))
  | none => (s.readReg port off ||| bitAt (s.hasStale off) 27, s)

/-- An aligned read of any register, with its side effects. -/
def State.readAny (s : State) (port : Port) (off : Nat) : Word × State :=
  if !(highsOf off).isEmpty then s.readLow port off
  else if isHigh off then s.readHigh port off
  else (s.readReg port off, s)

/-- A port reaches BAR0: the PCIe link is up, or the service port answers. -/
def State.opens (s : State) (port : Port) : Bool :=
  match port with
  | .pcie => s.rst.ctrlUp && s.host.speed != 0
  | .service => s.rst.spiUp

/-- Keep what a two-half read returned. -/
def State.returns (x : Word × State) (port : Port) : State :=
  match port with
  | .pcie => { x.2 with host := { x.2.host with readPcie := x.1 } }
  | .service => { x.2 with host := { x.2.host with readSpi := x.1 } }

/-- TWO_HALF_LOW_READ (R96, R97, R276). -/
def execTwoHalfLowRead (port : Port) (offset : Nat) (s : State) : Host.Outcome State Fault Refusal :=
  finish s
    (if s.opens port && !(highsOf offset).isEmpty then State.returns (s.readLow port offset) port else s)

/-- TWO_HALF_HIGH_READ (R96, R98, R276). -/
def execTwoHalfHighRead (port : Port) (offset : Nat) (s : State) : Host.Outcome State Fault Refusal :=
  finish s
    (if s.opens port && isHigh offset then State.returns (s.readHigh port offset) port else s)

/-! ## Select registers (R275, R276, R310, R349, R376, R405, R451, R500) -/

/-- The offset is a select register. -/
def isSelect (off : Nat) : Bool := [0x500, 0x580, 0x600, 0x680, 0x700, 0x804, 0x980].contains off

/-- Empty the holding registers of an access port between two offsets. -/
def State.emptyHolding (s : State) (port : Port) (lo hi : Nat) : State :=
  s.setHolding port (tfilter (fun o _ => !(lo ≤ o && o < hi)) (s.host.holding port))

/-- Write a select register; reserved bits are dropped. -/
def State.writeSelect (s : State) (port : Port) (off : Nat) (v : Word) : State :=
  if off = 0x500 then
    { s with sel := { s.sel with mp := v &&& 0x7F#32 } }.emptyHolding port 0x500 0x580
  else if off = 0x580 then { s with sel := { s.sel with fr := v &&& 0x7F#32 } }
  else if off = 0x600 then
    { s with sel := { s.sel with le := v &&& 0x37F#32 } }.emptyHolding port 0x600 0x640
  else if off = 0x680 then { s with sel := { s.sel with sup := v &&& 0x7F#32 } }
  else if off = 0x700 then { s with sel := { s.sel with swp := v &&& 0xFFF#32 } }
  else if off = 0x804 then { s with fab := { s.fab with csel := v &&& 0x7FF#32 } }
  else { s with que := { s.que with sel := v &&& 0x3FFFF#32 } }

/-- SELECT_REGISTER_WRITE. -/
def execSelectRegisterWrite (port : Port) (offset : Nat) (value : Word) (s : State) :
    Host.Outcome State Fault Refusal :=
  finish s (if s.opens port && isSelect offset then s.writeSelect port offset value else s)

/-! ## Writes (Table 0.3, R10) -/

/-- A write to MBX_DOORBELLn (Table 20.7); an OP not listed sets BAD_ACCESS (R534). -/
def State.ring (s : State) (port : Port) (n : Nat) (v : Word) : State :=
  let op := bits v 31 28
  let arg := v.extractLsb' 0 28
  if op = 1 then s.rspHead port n arg
  else if op = 2 then s.setupLo port n arg
  else if op = 3 then s.setupHi port n arg
  else if op = 4 then s.closeMbx port n
  else if op = 5 then s.ackReset port n
  else s.doorbell port n (fun _ => s.badAccess)

/-- Writes to the host registers. -/
def State.writeHost (s : State) (off : Nat) (v : Word) : State :=
  let h := s.host
  if off = 0x14 then { s with host := { h with flags := wipe h.flags v } }
  else if off = 0x18 then { s with host := { h with mbxRst := clearCounter h.mbxRst v } }
  else if off = 0x1C then { s with host := { h with cplErr := clearCounter h.cplErr v } }
  else if 0x40 ≤ off ∧ off < 0x64 then
    let k := (off - 0x40) / 4
    { s with host := { h with irqPend := h.irqPend.filter (fun n => !(n / 32 == k && v.getLsbD (n % 32))) } }
  else if off = 0x68 then { s with host := { h with hdrFault := wipe h.hdrFault (v.setWidth 64) } }
  else if off = 0x6C then { s with host := { h with hdrFault := wipe h.hdrFault (v ++ 0#32) } }
  else s

/-- Writes to the reset, readiness and peat registers. -/
def State.writeRst (s : State) (off : Nat) (v : Word) : State :=
  if off = 0x10C then s.rstReq v
  else if off = 0x110 then s.modPeat (fun p => { p with rstCount := clearCounter p.rstCount v })
  else if off = 0x118 then s.modPeat (fun p => { p with wdogCnt := clearCounter p.wdogCnt v })
  else if 0x140 ≤ off then s.modPeat (fun p => { p with regs := tput p.regs ((off - 0x140) / 4) v })
  else s

/-- Writes to the MT and front end registers; a 1 to PFE_FAULTS.RELAY_FAULT also retries (Table 5.2). -/
def State.writeMtPfe (s : State) (off : Nat) (v : Word) : State :=
  if off = 0x220 then s.modMt (fun m => { m with flags := wipe m.flags v })
  else if off = 0x224 then s.modMt (fun m => { m with rejCnt := clearCounter m.rejCnt v })
  else if off = 0x228 then s.modMt (fun m => { m with unlockCnt := clearCounter m.unlockCnt v })
  else if off = 0x254 then
    let t := if v.getLsbD 7 then s.relayRetry else s
    { t with
      pfe := { t.pfe with faults := wipe t.pfe.faults v }
      peat := { t.peat with
        holdup := t.peat.holdup && !v.getLsbD 0, commitShort := t.peat.commitShort && !v.getLsbD 1 } }
  else if off = 0x258 then s.modPfe (fun x => { x with dropCnt := clearCounter x.dropCnt v })
  else if off = 0x25C then s.modPfe (fun x => { x with ocpCnt := clearCounter x.ocpCnt v })
  else s

/-- Writes to the acquisition registers; an absent group ignores them (R252). -/
def State.writeAcq (s : State) (off : Nat) (v : Word) : State :=
  let g := (off % 64) / 4
  if s.hasGrp g && 0x440 ≤ off then s.wipeAsk g off 0 v else s

/-- Writes to the force and ranging registers; an absent port ignores them (R310). -/
def State.writeFr (s : State) (off : Nat) (v : Word) : State :=
  let p := s.sel.fr.toNat
  if s.hasPort p && (off == 0x58C || off == 0x590 || off == 0x594) then s.wipeAsk (p / 8) off p v else s

/-- Writes to the loop engine registers (R349). -/
def State.writeLe (s : State) (off : Nat) (v : Word) : State :=
  let p := bits s.sel.le 6 0
  if s.hasPort p && (off == 0x60C || off == 0x620 || off == 0x624) then s.wipeAsk (p / 8) off p v else s

/-- Writes to the supervision registers (R376). -/
def State.writeSup (s : State) (off : Nat) (v : Word) : State :=
  let p := s.sel.sup.toNat
  let g := (off - 0x6C0) / 4
  if 0x6C0 ≤ off then if s.hasGrp g then s.wipeAsk g off 0 v else s
  else if !s.hasPort p then s
  else if off = 0x690 then s.modSup p (fun x => { x with monDue := x.monDue ||| v.toNat % 16 })
  else if off = 0x68C || off = 0x69C then s.wipeAsk (p / 8) off p v
  else s

/-- Writes to the sweep registers; those of a figure that no group holds act at once. -/
def State.writeSwp (s : State) (off : Nat) (v : Word) : State :=
  let f := s.sel.swp.toNat
  if !s.defined f || off < 0x70C || 0x718 < off then s
  else if holds (s.placeAt f) then s.wipeAsk (s.grpOf f) off f v
  else s.wipeNow ⟨off, f, v⟩

/-- Clear the coincidence count of the consumer FAB_CSEL names, and with it its flag (R451). -/
def Fab.clearCoinc (f : Fab) (v : Word) : Fab :=
  let c := f.csel.toNat
  if v.extractLsb' 0 16 = BitVec.allOnes 16 then
    { f with coinc := tdel f.coinc c, coincFlag := f.coincFlag.filter (fun k => k != c) }
  else f

/-- Clear a listed counter of a table. -/
def clearIn (t : Tab Word) (k : Nat) (v : Word) : Tab Word := tput t k (clearCounter (tget 0#32 t k) v)

/-- Writes to the event fabric registers. -/
def Fab.write (f : Fab) (off : Nat) (v : Word) : Fab :=
  if off = 0x800 then { f with flags := wipe f.flags v }
  else if off = 0x80C then f.clearCoinc v
  else if 0x810 ≤ off ∧ off < 0x830 then f.persistClear ((off - 0x810) / 4) v
  else if 0x840 ≤ off ∧ off < 0x880 then
    { f with seen := tput f.seen ((off - 0x840) / 4) (wipe (tget 0#32 f.seen ((off - 0x840) / 4)) v) }
  else if 0x880 ≤ off then { f with cnt := clearIn f.cnt ((off - 0x880) / 4) v }
  else f

/-- Writes to the queue registers. -/
def Queues.write (u : Queues) (off : Nat) (v : Word) : Queues :=
  if off = 0x994 then { u with flags := wipe u.flags v }
  else if off = 0x998 then { u with poisonCnt := clearCounter u.poisonCnt v }
  else if off = 0x99C then { u with dropCnt := clearCounter u.dropCnt v }
  else if 0x9A0 ≤ off ∧ off < 0x9BC then { u with corrCnt := clearIn u.corrCnt ((off - 0x9A0) / 4) v }
  else if off = 0x9BC then { u with ovfCnt := clearCounter u.ovfCnt v }
  else u

/-- Writes to the storage registers. -/
def Sto.write (t : Sto) (off : Nat) (v : Word) : Sto :=
  if off = 0xA04 then { t with flags := wipe t.flags v }
  else if off = 0xA24 then { t with progFail := clearCounter t.progFail v }
  else if off = 0xA28 then { t with eraseFail := clearCounter t.eraseFail v }
  else if off = 0xA2C then { t with timeoutCnt := clearCounter t.timeoutCnt v }
  else if off = 0xA30 then { t with rdCorr := clearCounter t.rdCorr v }
  else if off = 0xA34 then { t with lostCnt := clearCounter t.lostCnt v }
  else if off = 0xA38 then { t with preempt := clearCounter t.preempt v }
  else if off = 0xA3C then { t with drainRst := clearCounter t.drainRst v }
  else t

/-- Writes to the twin registers. -/
def Twin.write (t : Twin) (off : Nat) (v : Word) : Twin :=
  if off = 0xC04 then { t with flags := wipe t.flags v }
  else if off = 0xC20 then { t with hbMiss := clearCounter t.hbMiss v }
  else if off = 0xC24 then { t with frameErr := clearCounter t.frameErr v }
  else if off = 0xC28 then { t with trainFail := clearCounter t.trainFail v }
  else if off = 0xC2C then { t with takeover := clearCounter t.takeover v }
  else if off = 0xC30 then { t with retx := clearCounter t.retx v }
  else t

/-- Writes to the error registers; FIRST_ARM arms the first-error register (R626). -/
def State.writeErr (s : State) (off : Nat) (v : Word) : State :=
  if off = 0xD0C then if v.getLsbD 0 then s.armFirst else s
  else if off = 0xD10 then { s with err := { s.err with lost := clearCounter s.err.lost v } }
  else if off = 0xD14 then { s with err := { s.err with isoFrame := clearCounter s.err.isoFrame v } }
  else s

/-- Writes to the MSI-X table; of a vector control word only the mask bit is kept. An unmasked vector
whose pending bit is set is sent (log entry 3). -/
def HostIf.writeMsix (h : HostIf) (i : Nat) (v : Word) : HostIf :=
  ({ h with msix := tput h.msix i (if i % 4 = 3 then v &&& 1#32 else v) }).flushPba

/-- What an aligned 4-byte write to BAR0 does. -/
def State.writeReg (s : State) (port : Port) (off : Nat) (v : Word) : State :=
  if !isReg off then s.badAccess
  else if isSelect off then s.writeSelect port off v
  else if off < 0x100 then s.writeHost off v
  else if off < 0x180 then s.writeRst off v
  else if off < 0x260 then s.writeMtPfe off v
  else if off < 0x500 then s.writeAcq off v
  else if off < 0x580 then
    if off = 0x538 then { s with misc := { s.misc with tapDisc := clearCounter s.misc.tapDisc v } } else s
  else if off < 0x600 then s.writeFr off v
  else if off < 0x680 then s.writeLe off v
  else if off < 0x700 then s.writeSup off v
  else if off < 0x780 then s.writeSwp off v
  else if off = 0x784 then s.modCalib (fun c => { c with flags := wipe c.flags v })
  else if off = 0x788 then s.modCalib (fun c => { c with failCnt := clearCounter c.failCnt v })
  else if off < 0x800 then s
  else if off < 0x900 then { s with fab := s.fab.write off v }
  else if off = 0x91C then { s with sets := { s.sets with rejCnt := clearCounter s.sets.rejCnt v } }
  else if off < 0x980 then s
  else if off < 0xA00 then { s with que := s.que.write off v }
  else if off < 0xB00 then { s with sto := s.sto.write off v }
  else if off < 0xC00 then s.consumed ((off - 0xB00) / 4) v
  else if off < 0xD00 then s.modTwin (fun t => t.write off v)
  else if off < 0x1000 then s.writeErr off v
  else if off < 0x5000 then
    let n := (off - 0x1000) / 0x40
    if off % 0x40 = 0 then s.ring port n v
    else if off % 0x40 = 4 then s.tailWrite port n v
    else s
  else if off < 0x9800 then { s with host := s.host.writeMsix ((off - 0x8000) / 4) v }
  else s

/-- REGISTER_WRITE (R6, R531): any access but an aligned one of 4 bytes is ignored and sets
BAD_ACCESS. -/
def execRegisterWrite (port : Port) (offset size : Nat) (value : Word) (s : State) :
    Host.Outcome State Fault Refusal :=
  finish s
    (if !s.opens port ∨ 0x10000 ≤ offset then s
    else if size = 4 ∧ offset % 4 = 0 then s.writeReg port offset value
    else s.badAccess)

/-- SUP_MON_LATCH_WRITE (R355): a 1 clears the latch of its monitor on the port of SUP_SEL. -/
def execSupMonLatchWrite (value : Word) (s : State) : Host.Outcome State Fault Refusal :=
  finish s (if s.rst.ctrlUp && s.hasPort s.sel.sup.toNat then s.writeSup 0x690 value else s)

/-! ## The service port's frames (R545) -/

/-- The status byte of a frame. -/
def State.spiStatus (s : State) : BitVec 8 :=
  BitVec.ofNat 8
    (b2n s.host.spi.executed + 2 * b2n s.host.spi.discarded + 4 * b2n s.host.spiIrqLow + 8 * b2n s.rst.spiUp)

/-- Bytes of the space an address names: BAR0 or the service window. -/
def spaceSize (space : Nat) : Nat := if space = 0 then 0x10000 else if space = 1 then windowSize else 0

/-- A frame of n bytes of data at an address is executed, not discarded. -/
def frameOk (address : Word) (n : Nat) : Bool :=
  let a := bits address 27 0
  a % 4 == 0 && n % 4 == 0 && a + n ≤ spaceSize (bits address 31 28) && bits address 31 28 < 2

/-- End a frame: its status byte, the words it clocked out, and whether it was executed. -/
def State.frameEnd (s : State) (status : BitVec 8) (ok : Bool) (miso : List Word) : State :=
  let t := if ok then s else s.hostFlag 0x80#32
  { t with host := { t.host with spi := { executed := ok, discarded := !ok, miso := miso, status := status } } }

/-- Read words in order of their addresses. -/
def State.readWords (s : State) (space : Nat) : Nat → Nat → List Word × State
  | _, 0 => ([], s)
  | a, n + 1 =>
    let x := if space = 0 then s.readAny .service a else (BitVec.ofNat 32 (ofLe (s.host.winRead a 4)), s)
    let rest := State.readWords x.2 space (a + 4) n
    (x.1 :: rest.1, rest.2)

/-- Write words in order of their addresses. -/
def State.writeWords (s : State) (a : Nat) : List Byte → State
  | b0 :: b1 :: b2 :: b3 :: t => State.writeWords (s.writeReg .service a (b3 ++ b2 ++ b1 ++ b0)) (a + 4) t
  | _ => s

/-- SPI_READ_FRAME (R545). -/
def execSpiReadFrame (address : Word) (words : Nat) (s : State) : Host.Outcome State Fault Refusal :=
  finish s
    (if !s.rst.spiUp then s
    else if frameOk address (4 * words) then
      let x := s.readWords (bits address 31 28) (bits address 27 0) words
      x.2.frameEnd s.spiStatus true x.1
    else s.frameEnd s.spiStatus false [])

/-- SPI_WRITE_FRAME (R545). -/
def execSpiWriteFrame (address : Word) (data : List Byte) (s : State) :
    Host.Outcome State Fault Refusal :=
  finish s
    (if !s.rst.spiUp then s
    else if frameOk address data.length then
      let a := bits address 27 0
      let t := if bits address 31 28 = 0 then s.writeWords a data
        else { s with host := s.host.winWrite a data }
      t.frameEnd s.spiStatus true []
    else s.frameEnd s.spiStatus false [])

end Sys2Proof.Machine
end

