-- ==== Sys2Proof/Machine/Dispatch.lean ====
section
/-! DEFINITION. The meaning of each command, one arm per constructor. -/

namespace Sys2Proof.Machine

def exec (i : Instr) (s : State) : Host.Outcome State Fault Refusal :=
  match i with
  | .sesInfo r => Sys2Proof.Machine.execSesInfo r s
  | .sesCancel r tag => Sys2Proof.Machine.execSesCancel r tag s
  | .hdrOpen r ring log2 vector modN modUs auto base => Sys2Proof.Machine.execHdrOpen r ring log2 vector modN modUs auto base s
  | .hdrClose r ring => Sys2Proof.Machine.execHdrClose r ring s
  | .hdrBind r ring qids => Sys2Proof.Machine.execHdrBind r ring qids s
  | .hdrUnbind r qids => Sys2Proof.Machine.execHdrUnbind r qids s
  | .hdrStatusRead r first count => Sys2Proof.Machine.execHdrStatusRead r first count s
  | .figDefine r fig op source triples => Sys2Proof.Machine.execFigDefine r fig op source triples s
  | .figListRead r => Sys2Proof.Machine.execFigListRead r s
  | .figPlaceRead r first count => Sys2Proof.Machine.execFigPlaceRead r first count s
  | .placePreview r first count => Sys2Proof.Machine.execPlacePreview r first count s
  | .stgDescWrite r port image => Sys2Proof.Machine.execStgDescWrite r port image s
  | .stgDescRead r port mode => Sys2Proof.Machine.execStgDescRead r port mode s
  | .stgEepromWrite r port offset data => Sys2Proof.Machine.execStgEepromWrite r port offset data s
  | .stgPlaceRead r first count => Sys2Proof.Machine.execStgPlaceRead r first count s
  | .swpTableWrite r first entries => Sys2Proof.Machine.execSwpTableWrite r first entries s
  | .swpTableRead r first count => Sys2Proof.Machine.execSwpTableRead r first count s
  | .swpGenWrite r fig block => Sys2Proof.Machine.execSwpGenWrite r fig block s
  | .swpStart r fig => Sys2Proof.Machine.execSwpStart r fig s
  | .swpStop r fig mode => Sys2Proof.Machine.execSwpStop r fig mode s
  | .swpStatusRead r first count => Sys2Proof.Machine.execSwpStatusRead r first count s
  | .setUnveil r expect at_ => Sys2Proof.Machine.execSetUnveil r expect at_ s
  | .setValidate r expect => Sys2Proof.Machine.execSetValidate r expect s
  | .setRevert r => Sys2Proof.Machine.execSetRevert r s
  | .setStatusRead r => Sys2Proof.Machine.execSetStatusRead r s
  | .paramWrite r triples => Sys2Proof.Machine.execParamWrite r triples s
  | .paramRead r items => Sys2Proof.Machine.execParamRead r items s
  | .paramDirRead r first count => Sys2Proof.Machine.execParamDirRead r first count s
  | .quePop r qid words => Sys2Proof.Machine.execQuePop r qid words s
  | .queDropRest r qid => Sys2Proof.Machine.execQueDropRest r qid s
  | .queFlush r scope obj => Sys2Proof.Machine.execQueFlush r scope obj s
  | .queCredit r qid grant => Sys2Proof.Machine.execQueCredit r qid grant s
  | .quePush r qid words => Sys2Proof.Machine.execQuePush r qid words s
  | .queStatusRead r first count => Sys2Proof.Machine.execQueStatusRead r first count s
  | .mireRead r qid first count ring => Sys2Proof.Machine.execMireRead r qid first count ring s
  | .mireRelease r mode qid seq mt => Sys2Proof.Machine.execMireRelease r mode qid seq mt s
  | .mireQuery r qid start => Sys2Proof.Machine.execMireQuery r qid start s
  | .mireFormat r key => Sys2Proof.Machine.execMireFormat r key s
  | .mireStatusRead r => Sys2Proof.Machine.execMireStatusRead r s
  | .mireTargetRetire r channel target => Sys2Proof.Machine.execMireTargetRetire r channel target s
  | .twinStatusRead r => Sys2Proof.Machine.execTwinStatusRead r s
  | .twinDetach r mode key => Sys2Proof.Machine.execTwinDetach r mode key s
  | .twinAttach r => Sys2Proof.Machine.execTwinAttach r s
  | .acqAuxWrite r grp first entries => Sys2Proof.Machine.execAcqAuxWrite r grp first entries s
  | .acqAuxRead r grp => Sys2Proof.Machine.execAcqAuxRead r grp s
  | .acqMeasNow r port kind auxsel span settle avg => Sys2Proof.Machine.execAcqMeasNow r port kind auxsel span settle avg s
  | .acqShareCheck r grp slice => Sys2Proof.Machine.execAcqShareCheck r grp slice s
  | .acqPathTest r grp slice => Sys2Proof.Machine.execAcqPathTest r grp slice s
  | .acqRawCapture r grp fig mask count start => Sys2Proof.Machine.execAcqRawCapture r grp fig mask count start s
  | .measAperture r fig code start => Sys2Proof.Machine.execMeasAperture r fig code start s
  | .measSnapshot r mask => Sys2Proof.Machine.execMeasSnapshot r mask s
  | .measTotalClear r fig => Sys2Proof.Machine.execMeasTotalClear r fig s
  | .loopCoefWrite r fig block => Sys2Proof.Machine.execLoopCoefWrite r fig block s
  | .loopCoefRead r fig mask => Sys2Proof.Machine.execLoopCoefRead r fig mask s
  | .loopFfWrite r port half table => Sys2Proof.Machine.execLoopFfWrite r port half table s
  | .loopFfRead r port half => Sys2Proof.Machine.execLoopFfRead r port half s
  | .loopSchedRead r => Sys2Proof.Machine.execLoopSchedRead r s
  | .tuneStart r fig member point wave prbsL dec amp ftw n start => Sys2Proof.Machine.execTuneStart r fig member point wave prbsL dec amp ftw n start s
  | .tuneStop r grp => Sys2Proof.Machine.execTuneStop r grp s
  | .supMonClear r port mask => Sys2Proof.Machine.execSupMonClear r port mask s
  | .supTripClear r port => Sys2Proof.Machine.execSupTripClear r port s
  | .supTripForce r port => Sys2Proof.Machine.execSupTripForce r port s
  | .supLeadCheck r port => Sys2Proof.Machine.execSupLeadCheck r port s
  | .supHoldRelease r port => Sys2Proof.Machine.execSupHoldRelease r port s
  | .supStatusRead r first count => Sys2Proof.Machine.execSupStatusRead r first count s
  | .calExt r nominal tol rs date => Sys2Proof.Machine.execCalExt r nominal tol rs date s
  | .calArbSelf r mask => Sys2Proof.Machine.execCalArbSelf r mask s
  | .calMainsSelf r => Sys2Proof.Machine.execCalMainsSelf r s
  | .calRefWrite r vRef iCal date => Sys2Proof.Machine.execCalRefWrite r vRef iCal date s
  | .calSpare r => Sys2Proof.Machine.execCalSpare r s
  | .calIsrc r mode => Sys2Proof.Machine.execCalIsrc r mode s
  | .calStatusRead r => Sys2Proof.Machine.execCalStatusRead r s
  | .evtRoute r items => Sys2Proof.Machine.execEvtRoute r items s
  | .evtMask r sluice op codes => Sys2Proof.Machine.execEvtMask r sluice op codes s
  | .evtRead r kind first count => Sys2Proof.Machine.execEvtRead r kind first count s
  | .evtPulse r mask => Sys2Proof.Machine.execEvtPulse r mask s
  | .errRingRead r start count ack => Sys2Proof.Machine.execErrRingRead r start count ack s
  | .errFirstRead r => Sys2Proof.Machine.execErrFirstRead r s
  | .rstFuseProgram r map lock key => Sys2Proof.Machine.execRstFuseProgram r map lock key s
  | .grpReset r mask => Sys2Proof.Machine.execGrpReset r mask s
  | .requestFetch mbx ring desc input => Sys2Proof.Machine.execRequestFetch mbx ring desc input s
  | .rspHead port mbx arg => Sys2Proof.Machine.execRspHead port mbx arg s
  | .setupLo port mbx arg => Sys2Proof.Machine.execSetupLo port mbx arg s
  | .setupHi port mbx arg => Sys2Proof.Machine.execSetupHi port mbx arg s
  | .setupBlockCheck mbx read block => Sys2Proof.Machine.execSetupBlockCheck mbx read block s
  | .close port mbx => Sys2Proof.Machine.execClose port mbx s
  | .mailboxClosed mbx => Sys2Proof.Machine.execMailboxClosed mbx s
  | .ackReset port mbx => Sys2Proof.Machine.execAckReset port mbx s
  | .mbxTailWrite port mbx value => Sys2Proof.Machine.execMbxTailWrite port mbx value s
  | .rstReqWrite value => Sys2Proof.Machine.execRstReqWrite value s
  | .relayFaultRetry => Sys2Proof.Machine.execRelayFaultRetry s
  | .supMonLatchWrite value => Sys2Proof.Machine.execSupMonLatchWrite value s
  | .firstArm => Sys2Proof.Machine.execFirstArm s
  | .hdrHeadWrite ring value => Sys2Proof.Machine.execHdrHeadWrite ring value s
  | .selectRegisterWrite port offset value => Sys2Proof.Machine.execSelectRegisterWrite port offset value s
  | .twoHalfLowRead port offset => Sys2Proof.Machine.execTwoHalfLowRead port offset s
  | .twoHalfHighRead port offset => Sys2Proof.Machine.execTwoHalfHighRead port offset s
  | .fabPersistClear n value => Sys2Proof.Machine.execFabPersistClear n value s
  | .registerWrite port offset size value => Sys2Proof.Machine.execRegisterWrite port offset size value s
  | .spiReadFrame address words => Sys2Proof.Machine.execSpiReadFrame address words s
  | .spiWriteFrame address data => Sys2Proof.Machine.execSpiWriteFrame address data s
  | .dbgResetInstruction asserted => Sys2Proof.Machine.execDbgResetInstruction asserted s
  | .testHold step => Sys2Proof.Machine.execTestHold step s
  | .extest on => Sys2Proof.Machine.execExtest on s
  | .functionLevelReset => Sys2Proof.Machine.execFunctionLevelReset s
  | .pcieLinkDown => Sys2Proof.Machine.execPcieLinkDown s
  | .pcieLinkUp speed width => Sys2Proof.Machine.execPcieLinkUp speed width s
  | .pcieConfigWrite msixEn busMaster funcMask => Sys2Proof.Machine.execPcieConfigWrite msixEn busMaster funcMask s
  | .irqHoldoffExpiry ring n => Sys2Proof.Machine.execIrqHoldoffExpiry ring n s
  | .supply asserted => Sys2Proof.Machine.execSupply asserted s
  | .supplyMarginSample mv => Sys2Proof.Machine.execSupplyMarginSample mv s
  | .vretLoss => Sys2Proof.Machine.execVretLoss s
  | .rstIn low => Sys2Proof.Machine.execRstIn low s
  | .perst low => Sys2Proof.Machine.execPerst low s
  | .wdog => Sys2Proof.Machine.execWdog s
  | .clk => Sys2Proof.Machine.execClk s
  | .clkRelease => Sys2Proof.Machine.execClkRelease s
  | .fatal => Sys2Proof.Machine.execFatal s
  | .resetPulseEnd source => Sys2Proof.Machine.execResetPulseEnd source s
  | .controlPlaneResetEntry => Sys2Proof.Machine.execControlPlaneResetEntry s
  | .dataPlaneStop => Sys2Proof.Machine.execDataPlaneStop s
  | .stretchStart => Sys2Proof.Machine.execStretchStart s
  | .stretchEnd found => Sys2Proof.Machine.execStretchEnd found s
  | .pllLock => Sys2Proof.Machine.execPllLock s
  | .stagingReady retained => Sys2Proof.Machine.execStagingReady retained s
  | .mgmtBootDone => Sys2Proof.Machine.execMgmtBootDone s
  | .descReadsEnd grp reads => Sys2Proof.Machine.execDescReadsEnd grp reads s
  | .mireMapRebuilt scan => Sys2Proof.Machine.execMireMapRebuilt scan s
  | .groupContextResetStart grp => Sys2Proof.Machine.execGroupContextResetStart grp s
  | .groupContextResetEnd grp => Sys2Proof.Machine.execGroupContextResetEnd grp s
  | .isoFrameSend => Sys2Proof.Machine.execIsoFrameSend s
  | .isoFrameReceive f => Sys2Proof.Machine.execIsoFrameReceive f s
  | .isoChannelFail secondary => Sys2Proof.Machine.execIsoChannelFail secondary s
  | .isoChannelRestore secondary => Sys2Proof.Machine.execIsoChannelRestore secondary s
  | .mainsCrossing ago rising amplitude => Sys2Proof.Machine.execMainsCrossing ago rising amplitude s
  | .mainsLost => Sys2Proof.Machine.execMainsLost s
  | .slewEnd => Sys2Proof.Machine.execSlewEnd s
  | .mtPhaseEvent n => Sys2Proof.Machine.execMtPhaseEvent n s
  | .mtWrap => Sys2Proof.Machine.execMtWrap s
  | .mtCapture => Sys2Proof.Machine.execMtCapture s
  | .vccPStart => Sys2Proof.Machine.execVccPStart s
  | .vccPLow => Sys2Proof.Machine.execVccPLow s
  | .auxSecondaryRegulation => Sys2Proof.Machine.execAuxSecondaryRegulation s
  | .relayClose => Sys2Proof.Machine.execRelayClose s
  | .relayCheck sensed => Sys2Proof.Machine.execRelayCheck sensed s
  | .bulkOkChange ok => Sys2Proof.Machine.execBulkOkChange ok s
  | .pfcOvercurrent => Sys2Proof.Machine.execPfcOvercurrent s
  | .bulkOvervoltage high => Sys2Proof.Machine.execBulkOvervoltage high s
  | .bulkUndervoltage => Sys2Proof.Machine.execBulkUndervoltage s
  | .lineLoss => Sys2Proof.Machine.execLineLoss s
  | .primaryOverTemperature hot => Sys2Proof.Machine.execPrimaryOverTemperature hot s
  | .priWarn => Sys2Proof.Machine.execPriWarn s
  | .flybackStop => Sys2Proof.Machine.execFlybackStop s
  | .holdupEstimate vbulk linePeak lineRms temp power => Sys2Proof.Machine.execHoldupEstimate vbulk linePeak lineRms temp power s
  | .rideTimeout => Sys2Proof.Machine.execRideTimeout s
  | .commit => Sys2Proof.Machine.execCommit s
  | .commitEnd => Sys2Proof.Machine.execCommitEnd s
  | .holdupRestore => Sys2Proof.Machine.execHoldupRestore s
  | .dcFail => Sys2Proof.Machine.execDcFail s
  | .dieTempRead control data staging => Sys2Proof.Machine.execDieTempRead control data staging s
  | .mainsCycleBoundary grp tDie => Sys2Proof.Machine.execMainsCycleBoundary grp tDie s
  | .loopPeriodBoundary grp p => Sys2Proof.Machine.execLoopPeriodBoundary grp p s
  | .overrunTrip port => Sys2Proof.Machine.execOverrunTrip port s
  | .shortCircuitTrip port => Sys2Proof.Machine.execShortCircuitTrip port s
  | .frozenFault port => Sys2Proof.Machine.execFrozenFault port s
  | .liveWriteApply => Sys2Proof.Machine.execLiveWriteApply s
  | .rangeSwitchBoundary port => Sys2Proof.Machine.execRangeSwitchBoundary port s
  | .rangeWindowClose port => Sys2Proof.Machine.execRangeWindowClose port s
  | .stgEnAssert port => Sys2Proof.Machine.execStgEnAssert port s
  | .loopsClose port => Sys2Proof.Machine.execLoopsClose port s
  | .rampDownEnd port => Sys2Proof.Machine.execRampDownEnd port s
  | .parkEnd port => Sys2Proof.Machine.execParkEnd port s
  | .rngLineRelease port => Sys2Proof.Machine.execRngLineRelease port s
  | .unsettled port => Sys2Proof.Machine.execUnsettled port s
  | .monitorSample port v iw => Sys2Proof.Machine.execMonitorSample port v iw s
  | .monitorQualify port m => Sys2Proof.Machine.execMonitorQualify port m s
  | .stageFault port => Sys2Proof.Machine.execStageFault port s
  | .stgFltRelease port => Sys2Proof.Machine.execStgFltRelease port s
  | .extTrip port => Sys2Proof.Machine.execExtTrip port s
  | .leadCheckStart port => Sys2Proof.Machine.execLeadCheckStart port s
  | .leadCheckEnd port vs is rail => Sys2Proof.Machine.execLeadCheckEnd port vs is rail s
  | .tripRecordMove grp => Sys2Proof.Machine.execTripRecordMove grp s
  | .groupTrigger grp edges => Sys2Proof.Machine.execGroupTrigger grp edges s
  | .triggerMiss p => Sys2Proof.Machine.execTriggerMiss p s
  | .auxPassStart grp => Sys2Proof.Machine.execAuxPassStart grp s
  | .auxEntryEnd grp inputs => Sys2Proof.Machine.execAuxEntryEnd grp inputs s
  | .urgentConversionEnd grp inputs => Sys2Proof.Machine.execUrgentConversionEnd grp inputs s
  | .shareCheckEnd grp own spare novr => Sys2Proof.Machine.execShareCheckEnd grp own spare novr s
  | .pathTestEnd grp readings => Sys2Proof.Machine.execPathTestEnd grp readings s
  | .apertureOpen fig => Sys2Proof.Machine.execApertureOpen fig s
  | .apertureClose fig => Sys2Proof.Machine.execApertureClose fig s
  | .i2cTransferEnd grp ack data => Sys2Proof.Machine.execI2cTransferEnd grp ack data s
  | .packetCommit qid corrected ecc poison => Sys2Proof.Machine.execPacketCommit qid corrected ecc poison s
  | .flushPoint qid => Sys2Proof.Machine.execFlushPoint qid s
  | .hdrPacketWrite ring qid => Sys2Proof.Machine.execHdrPacketWrite ring qid s
  | .flushReadIssue ring => Sys2Proof.Machine.execFlushReadIssue ring s
  | .flushReadDone ring read => Sys2Proof.Machine.execFlushReadDone ring read s
  | .pageBufferClose page => Sys2Proof.Machine.execPageBufferClose page s
  | .nandOpStart channel => Sys2Proof.Machine.execNandOpStart channel s
  | .programStatus target pass => Sys2Proof.Machine.execProgramStatus target pass s
  | .eraseStatus target pass => Sys2Proof.Machine.execEraseStatus target pass s
  | .nandReadDone target corrected weak lost => Sys2Proof.Machine.execNandReadDone target corrected weak lost s
  | .targetTimeout target => Sys2Proof.Machine.execTargetTimeout target s
  | .channelResetEnd target ready => Sys2Proof.Machine.execChannelResetEnd target ready s
  | .drainFault drain => Sys2Proof.Machine.execDrainFault drain s
  | .rateMeasure busy mbps => Sys2Proof.Machine.execRateMeasure busy mbps s
  | .mapCheckpoint => Sys2Proof.Machine.execMapCheckpoint s
  | .unveilTransfer => Sys2Proof.Machine.execUnveilTransfer s
  | .unveilSwap => Sys2Proof.Machine.execUnveilSwap s
  | .maquetteCopyEnd => Sys2Proof.Machine.execMaquetteCopyEnd s
  | .migration port => Sys2Proof.Machine.execMigration port s
  | .internalUnveil => Sys2Proof.Machine.execInternalUnveil s
  | .validationEnd => Sys2Proof.Machine.execValidationEnd s
  | .revertCopyEnd => Sys2Proof.Machine.execRevertCopyEnd s
  | .fuseProgramEnd => Sys2Proof.Machine.execFuseProgramEnd s
  | .listStart fig => Sys2Proof.Machine.execListStart fig s
  | .pointFire fig => Sys2Proof.Machine.execPointFire fig s
  | .siteWaitEnd fig => Sys2Proof.Machine.execSiteWaitEnd fig s
  | .settling fig => Sys2Proof.Machine.execSettling fig s
  | .dwellEnd fig => Sys2Proof.Machine.execDwellEnd fig s
  | .rangeWaitTimeout fig => Sys2Proof.Machine.execRangeWaitTimeout fig s
  | .pulseLeadingEdge fig => Sys2Proof.Machine.execPulseLeadingEdge fig s
  | .pulseTrailingEdge fig => Sys2Proof.Machine.execPulseTrailingEdge fig s
  | .listEnd fig => Sys2Proof.Machine.execListEnd fig s
  | .pointReport fig => Sys2Proof.Machine.execPointReport fig s
  | .arbiterSelfCalDue => Sys2Proof.Machine.execArbiterSelfCalDue s
  | .arbiterSelfCalEnd arb c => Sys2Proof.Machine.execArbiterSelfCalEnd arb c s
  | .mainsConverterExchange c => Sys2Proof.Machine.execMainsConverterExchange c s
  | .mainsConverterSelfCalEnd c => Sys2Proof.Machine.execMainsConverterSelfCalEnd c s
  | .spareSlotDue => Sys2Proof.Machine.execSpareSlotDue s
  | .spareSlotStart bus => Sys2Proof.Machine.execSpareSlotStart bus s
  | .spareSlotEnd bus spares => Sys2Proof.Machine.execSpareSlotEnd bus spares s
  | .patinaPassStart grp => Sys2Proof.Machine.execPatinaPassStart grp s
  | .carryHandover grp => Sys2Proof.Machine.execCarryHandover grp s
  | .patinaSetsComputed grp sets => Sys2Proof.Machine.execPatinaSetsComputed grp sets s
  | .calStartup => Sys2Proof.Machine.execCalStartup s
  | .calExtEnd c => Sys2Proof.Machine.execCalExtEnd c s
  | .isrcLimit => Sys2Proof.Machine.execIsrcLimit s
  | .evtInEdge n rising => Sys2Proof.Machine.execEvtInEdge n rising s
  | .persist sluice => Sys2Proof.Machine.execPersist sluice s
  | .evtOutPulseEnd n => Sys2Proof.Machine.execEvtOutPulseEnd n s
  | .heartbeatSend => Sys2Proof.Machine.execHeartbeatSend s
  | .stateSend grp => Sys2Proof.Machine.execStateSend grp s
  | .heartbeat b => Sys2Proof.Machine.execHeartbeat b s
  | .state grp chans => Sys2Proof.Machine.execState grp chans s
  | .runner r fseq => Sys2Proof.Machine.execRunner r fseq s
  | .commitFrame anns fseq => Sys2Proof.Machine.execCommitFrame anns fseq s
  | .tripFrame n fseq => Sys2Proof.Machine.execTripFrame n fseq s
  | .maq e fseq => Sys2Proof.Machine.execMaq e fseq s
  | .sync cast maq castSeq maqSeq fseq => Sys2Proof.Machine.execSync cast maq castSeq maqSeq fseq s
  | .unveilFrame target castSeq digest place auxArm internal fseq => Sys2Proof.Machine.execUnveilFrame target castSeq digest place auxArm internal fseq s
  | .handover m fseq => Sys2Proof.Machine.execHandover m fseq s
  | .controlFrame n fseq => Sys2Proof.Machine.execControlFrame n fseq s
  | .ack fseq => Sys2Proof.Machine.execAck fseq s
  | .retransmitTimeout fseq => Sys2Proof.Machine.execRetransmitTimeout fseq s
  | .trainAttemptStart => Sys2Proof.Machine.execTrainAttemptStart s
  | .trainStateDone order pol => Sys2Proof.Machine.execTrainStateDone order pol s
  | .config c => Sys2Proof.Machine.execConfig c s
  | .trainTimeout => Sys2Proof.Machine.execTrainTimeout s
  | .latencyMeasure ns => Sys2Proof.Machine.execLatencyMeasure ns s
  | .heartbeatSlotClose => Sys2Proof.Machine.execHeartbeatSlotClose s
  | .aliveInChange active => Sys2Proof.Machine.execAliveInChange active s
  | .takeoverB1 grp enLow => Sys2Proof.Machine.execTakeoverB1 grp enLow s
  | .takeoverB2 grp => Sys2Proof.Machine.execTakeoverB2 grp s
  | .handoverBoundary => Sys2Proof.Machine.execHandoverBoundary s
  | .cosynFrameDiscard => Sys2Proof.Machine.execCosynFrameDiscard s
  | .cosynSignalLoss => Sys2Proof.Machine.execCosynSignalLoss s

end Sys2Proof.Machine
end

