-- ==== Sys2Proof/Safety.lean ====
section
/-! DEFINITION. What a safe run is, and the words the statements use: the parts of the state a
command leaves alone, what a mailbox finds when its request is answered, and the invariants of the
state. -/

namespace Sys2Proof.Machine

/-! ## Frames -/

/-- The parts of the state a frame names. Signals are no part: the events a step delivers, the
records it logs, the interrupts and the frames for the partner it sends. -/
inductive Piece where
  | rst | peat | iso | mt | pfe | sets | grp | sp | fig | routes | que | sto | cal | link | mbx | hdr
  | requests | window | hostRegs | twin | sel | misc | free
  deriving DecidableEq, Repr

/-- A part is the same in two states. -/
def Kept (s t : State) : Piece → Prop
  | .rst => t.rst = s.rst
  | .peat => t.peat.status = s.peat.status ∧ t.peat.regs = s.peat.regs ∧
      t.peat.history = s.peat.history ∧ t.peat.era = s.peat.era ∧ t.peat.ranges = s.peat.ranges ∧
      t.peat.rstCount = s.peat.rstCount ∧ t.peat.wdogCnt = s.peat.wdogCnt ∧
      t.peat.lostTrips = s.peat.lostTrips
  | .iso => t.iso = s.iso
  | .mt => t.mt = s.mt
  | .pfe => t.pfe = s.pfe
  | .sets => t.sets = s.sets
  | .grp => t.grp = s.grp
  | .sp => t.sp = s.sp
  | .fig => t.fig = s.fig
  | .routes => t.fab.masks = s.fab.masks ∧ t.fab.taps = s.fab.taps ∧ t.fab.sel = s.fab.sel ∧
      t.fab.routeSeq = s.fab.routeSeq ∧ t.fab.csel = s.fab.csel ∧ t.fab.evtIn = s.fab.evtIn ∧
      t.fab.persist = s.fab.persist
  | .que => t.que = s.que
  | .sto => t.sto = s.sto
  | .cal => t.cal = s.cal
  | .link => t.host.speed = s.host.speed ∧ t.host.width = s.host.width ∧
      t.host.msixEn = s.host.msixEn ∧ t.host.busMaster = s.host.busMaster ∧
      t.host.funcMask = s.host.funcMask ∧ t.host.msix = s.host.msix
  | .mbx => t.host.mbx = s.host.mbx
  | .hdr => t.host.hdr = s.host.hdr
  | .requests => t.host.fetched = s.host.fetched ∧ t.host.outst = s.host.outst
  | .window => t.host.window = s.host.window
  | .hostRegs => t.host.flags = s.host.flags ∧ t.host.mbxRst = s.host.mbxRst ∧
      t.host.cplErr = s.host.cplErr ∧ t.host.hdrFault = s.host.hdrFault ∧ t.host.spi = s.host.spi ∧
      t.host.dbg = s.host.dbg ∧ t.host.holdPcie = s.host.holdPcie ∧
      t.host.holdSpi = s.host.holdSpi ∧ t.host.readPcie = s.host.readPcie ∧
      t.host.readSpi = s.host.readSpi
  | .twin => { t.twin with
      fseq := s.twin.fseq, unacked := s.twin.unacked, lastSent := s.twin.lastSent } = s.twin
  | .sel => t.sel = s.sel
  | .misc => t.misc = s.misc
  | .free => t.free = s.free

/-- Every part but those listed is the same in two states, and so are what identifies the module,
the clock and the queue of waiting commands. -/
def KeptBut (changed : List Piece) (s t : State) : Prop :=
  t.ident = s.ident ∧ t.clk = s.clk ∧ t.pending = s.pending ∧ ∀ p, p ∉ changed → Kept s t p

/-- Every mailbox but one is as it was. -/
def OnlyMbx (n : Nat) (s t : State) : Prop := ∀ k, k ≠ n → t.mbxAt k = s.mbxAt k

/-- Every host drain ring but one is as it was. -/
def OnlyHdr (n : Nat) (s t : State) : Prop := ∀ k, k ≠ n → t.hdrAt k = s.hdrAt k

/-- Every group but one is as it was. -/
def OnlyGrp (n : Nat) (s t : State) : Prop := ∀ k, k ≠ n → t.grpAt k = s.grpAt k

/-- Every stage port but one is as it was. -/
def OnlySp (n : Nat) (s t : State) : Prop := ∀ k, k ≠ n → t.spAt k = s.spAt k

/-- Every figure's runtime state but one's is as it was. -/
def OnlyFig (n : Nat) (s t : State) : Prop := ∀ k, k ≠ n → t.figAt k = s.figAt k

/-- Every queue but one is as it was. -/
def OnlyQue (n : Nat) (s t : State) : Prop := ∀ k, k ≠ n → t.queAt k = s.queAt k

/-! ## Who reaches a mailbox -/

/-- A doorbell or tail write of a port reaches a mailbox: it exists, the management plane serves it,
and the other port does not own it (R534). -/
abbrev Reached (s : State) (port : Port) (mbx : Nat) : Prop :=
  mbx < 256 ∧ s.restarting = false ∧ ((s.mbxAt mbx).owned = true → (s.mbxAt mbx).port = port)

/-! ## Answers -/

/-- A byte of the service window that an answer to a mailbox may write (R544, R551): the output
buffer, the response slot and the shadow of a mailbox of the service port. -/
def windowWrites (s : State) (mbx : Nat) (outAddr : BitVec 64) (outLen : Nat) (a : Answer) (x : Nat) :
    Prop :=
  let m := s.mbxAt mbx
  let slot := ringAddr m.rspBase m.rspLog2 m.rspTail
  m.port = .service ∧
    ((outAddr.toNat ≤ x ∧ x < outAddr.toNat + min outLen a.out.length) ∨
      (slot ≤ x ∧ x < slot + 64) ∨
      (m.shadow ≠ 0#64 ∧ m.shadow.toNat ≤ x ∧ x < m.shadow.toNat + 8))

/-- A byte of the service window that an answer of a request may write. -/
def answerWrites (s : State) (r : Req) (a : Answer) (x : Nat) : Prop :=
  windowWrites s r.mbx r.outAddr r.outLen a x

/-- The response descriptor of a request accepted and answered in this state. -/
def responseTo (s : State) (r : Req) (opcode : Nat) (a : Answer) (castSeq : Word) : Response :=
  responseFor (waiterOf r opcode s) a s.mt.mt castSeq

/-- Its mailbox holds the answer to a request as its newest response, and the request is no longer
among those fetched; the other mailboxes, the outstanding commands and the rest of the service
window stand. -/
def Answers (s t : State) (r : Req) (opcode : Nat) (a : Answer) : Prop :=
  (t.mbxAt r.mbx).responses =
    (s.mbxAt r.mbx).responses ++ [responseTo s r opcode a s.sets.castSeq] ∧
  OnlyMbx r.mbx s t ∧
  t.host.fetched = (s.take r).host.fetched ∧ t.host.outst = s.host.outst ∧
  ∀ x, ¬ answerWrites s r a x → cellGet t.host.window x = cellGet s.host.window x

/-- An outstanding command is answered in this state (R553, R563): its mailbox holds the answer as its
newest response, unless the session that sent it has ended; the other mailboxes and the rest of the
service window stand. -/
def Completed (s t : State) (o : Outstanding) (a : Answer) : Prop :=
  if o.orphan = false ∧ (s.mbxAt o.mbx).state = .opened then
    (t.mbxAt o.mbx).responses =
      (s.mbxAt o.mbx).responses ++ [responseFor o.waiter a s.mt.mt s.sets.castSeq] ∧
    OnlyMbx o.mbx s t ∧
    ∀ x, ¬ windowWrites s o.mbx o.outAddr o.outLen a x →
      cellGet t.host.window x = cellGet s.host.window x
  else Kept s t .mbx ∧ Kept s t .window

/-- A request accepted in this state stands among the outstanding commands with an object and
arguments of its own (R559), and is not yet answered. -/
def Waits (s t : State) (r : Req) (opcode obj aux phase : Nat) : Prop :=
  t.host.outst = s.host.outst ++
    [{ mbx := r.mbx, orphan := false, opcode := opcode, tag := r.tag, outLen := r.outLen
       outAddr := r.outAddr, mtAccept := s.mt.mt, obj := obj, aux := aux, phase := phase }] ∧
  t.host.fetched = (s.take r).host.fetched ∧ t.host.mbx = s.host.mbx

/-- A request accepted in this state that edits the Maquette ends well: at once, or, held with a
partner, once the partner has acknowledged the MAQ frame sent for it (R598). -/
def EditEnds (held : Bool) (s t : State) (r : Req) (opcode : Nat) (result : List Byte) : Prop :=
  if held = true then
    t.twin = { s.twin with
      fseq := s.twin.fseq + 1#32
      unacked := s.twin.unacked ++ [{ fseq := s.twin.fseq, ftype := 6, resends := 0 }]
      lastSent := (6, s.twin.fseq)
      edits := s.twin.edits ++ [{ fseq := s.twin.fseq, mbx := r.mbx, opcode := opcode, tag := r.tag
                                  outLen := r.outLen, outAddr := r.outAddr
                                  mtAccept := s.mt.mt, result := result }] } ∧
    t.host.fetched = (s.take r).host.fetched ∧ t.host.outst = s.host.outst ∧
    Kept s t .mbx ∧ Kept s t .window
  else Answers s t r opcode ⟨stOk, 0, result, [], false⟩ ∧ Kept s t .twin

/-- A request is accepted and passes the checks of the framework (R555, R556, R149, R559, R570). -/
abbrev Accepts (s : State) (r : Req) (opcode : Nat) (g : Gate) : Prop :=
  s.canBegin r opcode = true ∧ s.gate r g = none

/-- The descriptor a port has in the Maquette after it thaws (R178, R455): as it was, or what the Mire
and the EEPROM offer where the Mire came up meanwhile and no written descriptor stands. -/
def thawedDesc (s : State) (m : CfgSet) (p : Nat) : Option Desc :=
  if s.sets.mireDue && decide (p < 8 * s.groups) && (tget? s.sto.sysDescs p).isSome then
    match tget? m.descs p with
    | some ⟨d, .written⟩ => some ⟨d, .written⟩
    | _ => s.offered p
  else tget? m.descs p

/-- The Maquette thaws with a content (R455): its descriptors as thawedDesc gives them. -/
def ThawsWith (s t : State) (m : CfgSet) : Prop :=
  { t.sets.maq with descs := m.descs } = m ∧ (∀ p, tget? t.sets.maq.descs p = thawedDesc s m p) ∧
  t.sets.frozen = false ∧ t.sets.phase = 0 ∧ t.sets.mireDue = false

/-! ## Flushes -/

/-- The flushes in progress as the flush point of a queue has passed for those that wait for it (R494):
its packets that no drain has taken are discarded, and a producer of stream 4 or 5 is cut. -/
def flushPassed (s : State) (qid : Nat) : List FlushRun :=
  let q := s.queAt qid
  s.que.flushes.map (fun f => f.pass qid (q.pkts.drop q.taken).length
    (if q.building.isSome || (s.tuneAt qid).isSome then 1 else 0))

/-! ## Points -/

/-- The outcome of a point in flight that ends now (Table 14.8). -/
def outcomeOf (s : State) (fig : Nat) (q : Flight) (state cause : Nat) : Report :=
  { point := q.index, state := state, cause := cause, flags := q.flags, pass := (s.figAt fig).pass
    port := (s.members fig).headD 0xFF, wher := s.whereOf fig, mtStart := q.mtStart, mtEnd := s.mt.mt }

/-! ## Trips -/

/-- A trip of a port with a cause set falls now (R360 to R363, R372): the port performs the trip
actions, one record with the next SEQ joins its group's buffer while that has room, and no port changes
but those of its gang and those of the figures that run on it. -/
def Trips (s t : State) (port : Nat) (cause : Word) : Prop :=
  ((t.spAt port).force.out = .tripped ∧ (t.spAt port).force.en = false ∧
    (t.spAt port).force.win = none) ∧
  ((t.spAt port).force.inCode = s.safeCode port ∧ (t.spAt port).force.outCode = s.safeCode port) ∧
  ((t.spAt port).sup.tripped = true ∧ (t.spAt port).sup.cause = cause) ∧
  t.misc.tripSeq = s.misc.tripSeq + 1#32 ∧
  ((s.grpAt (port / 8)).trips.length < 8 →
    (t.grpAt (port / 8)).trips.map (fun r => (r.port, r.cause, r.seq, r.mtTrip)) =
      (s.grpAt (port / 8)).trips.map (fun r => (r.port, r.cause, r.seq, r.mtTrip)) ++
        [(port, cause, s.misc.tripSeq, s.mt.mt)]) ∧
  (∀ q, q ≠ port → q ∉ s.gangOf port → (∀ f ∈ s.figsOn port, q ∉ s.members f) →
    t.spAt q = s.spAt q) ∧
  KeptBut [.sp, .grp, .misc, .fig, .sets, .que, .mbx, .requests, .window, .free] s t

/-! ## Invariants of a safe run -/

/-- The service window is in its canonical form. -/
def WindowOk (s : State) : Prop := cellsWf s.host.window = true

/-- No event waits between steps: what a command raised its sluices have carried (R437). -/
def NothingRaised (s : State) : Prop := s.fab.raised = []

/-- The error ring holds at most 4096 records (R622). -/
def RingOk (s : State) : Prop := s.err.ring.length ≤ ringSize

/-- A state of a safe run. -/
def Safe (s : State) : Prop := WindowOk s ∧ NothingRaised s ∧ RingOk s

end Sys2Proof.Machine
end

