-- ==== Sys2Proof/Certificates/Slice0/Obligations.lean ====
section
/-! DEFINITION. The statements for the provers. -/

open Sys2Proof Sys2Proof.Machine

/-- What the doorbells and the tail register do to a mailbox. -/
def Obligations.DoorbellsMoveMailboxStates : Prop :=
  (∀ (s : State) (port : Port) (mbx : Nat) (arg : BitVec 28),
    Reached s port mbx →
    (s.mbxAt mbx).state = .opened ∨ (s.mbxAt mbx).state = .closing →
    ∃ t, exec (.rspHead port mbx arg) s = .next t ∧
      (t.mbxAt mbx).rspHead = arg.setWidth 16 ∧
      (t.mbxAt mbx).responses = (s.mbxAt mbx).responses.drop (arg.setWidth 16 - (s.mbxAt mbx).rspHead).toNat ∧
      (t.mbxAt mbx).state = (s.mbxAt mbx).state ∧
      OnlyMbx mbx s t ∧
      KeptBut [.mbx] s t) ∧
  (∀ (s : State) (port : Port) (mbx : Nat) (arg : BitVec 28),
    Reached s port mbx →
    (s.mbxAt mbx).state = .closed →
    ∃ t, exec (.setupLo port mbx arg) s = .next t ∧
      (t.mbxAt mbx).setupAddr = arg.setWidth 64 <<< 6 ∧
      (t.mbxAt mbx).state = .closed ∧
      OnlyMbx mbx s t ∧
      KeptBut [.mbx] s t) ∧
  (∀ (s : State) (port : Port) (mbx : Nat) (arg : BitVec 28),
    Reached s port mbx →
    (s.mbxAt mbx).state = .closed →
    ∃ t, exec (.setupHi port mbx arg) s = .next t ∧
      (t.mbxAt mbx).setupAddr = (((s.mbxAt mbx).setupAddr.setWidth 34).setWidth 64 ||| (arg.setWidth 64 <<< 34)) ∧
      (t.mbxAt mbx).setupBusy = true ∧
      (t.mbxAt mbx).owned = true ∧
      (t.mbxAt mbx).port = port ∧
      OnlyMbx mbx s t ∧
      KeptBut [.mbx] s t) ∧
  (∀ (s : State) (port : Port) (mbx : Nat),
    Reached s port mbx →
    (s.mbxAt mbx).state = .opened →
    ∃ t, exec (.close port mbx) s = .next t ∧
      (t.mbxAt mbx).state = .closing ∧
      OnlyMbx mbx s t ∧
      t.host.fetched = s.host.fetched.filter (fun f => f.mbx != mbx) ∧
      (∀ o ∈ t.host.outst, o.mbx = mbx → o.orphan = true) ∧
      KeptBut [.mbx, .requests, .twin, .misc] s t) ∧
  (∀ (s : State) (mbx : Nat),
    (s.mbxAt mbx).state = .closing →
    ∃ t, exec (.mailboxClosed mbx) s = .next t ∧
      (t.mbxAt mbx).state = .closed ∧
      (t.mbxAt mbx).owned = false ∧
      OnlyMbx mbx s t ∧
      KeptBut [.mbx] s t) ∧
  (∀ (s : State) (port : Port) (mbx : Nat),
    Reached s port mbx →
    (s.mbxAt mbx).state = .reset →
    ∃ t, exec (.ackReset port mbx) s = .next t ∧
      (t.mbxAt mbx).state = .closed ∧
      (t.mbxAt mbx).reason = 0 ∧
      (t.mbxAt mbx).owned = false ∧
      OnlyMbx mbx s t ∧
      KeptBut [.mbx] s t) ∧
  (∀ (s : State) (port : Port) (mbx : Nat) (value : Word),
    Reached s port mbx →
    (value.setWidth 16 - (s.mbxAt mbx).reqHead).toNat ≤ 2 ^ (s.mbxAt mbx).reqLog2 →
    ∃ t, exec (.mbxTailWrite port mbx value) s = .next t ∧
      (t.mbxAt mbx).reqTail = value.setWidth 16 ∧
      (t.mbxAt mbx).state = (s.mbxAt mbx).state ∧
      OnlyMbx mbx s t ∧
      KeptBut [.mbx] s t)

/-- A valid setup block opens a mailbox; an invalid one, and a tail beyond the ring, reset it. -/
def Obligations.MailboxSetupAndFaults : Prop :=
  (∀ (s : State) (mbx : Nat) (block : BitVec 512),
    s.rst.mgmtUp = true →
    (s.mbxAt mbx).setupBusy = true →
    (s.mbxAt mbx).state = .closed →
    (s.mbxAt mbx).port = .pcie →
    s.reaches .pcie = true →
    setupOk block = true →
    ∃ t, exec (.setupBlockCheck mbx .ok block) s = .next t ∧
      (t.mbxAt mbx).state = .opened ∧
      (t.mbxAt mbx).reqHead = 0 ∧ (t.mbxAt mbx).reqTail = 0 ∧
      (t.mbxAt mbx).rspHead = 0 ∧ (t.mbxAt mbx).rspTail = 0 ∧
      (t.mbxAt mbx).reqLog2 = bits block 39 32 ∧ (t.mbxAt mbx).rspLog2 = bits block 47 40 ∧
      (t.mbxAt mbx).reqBase = block.extractLsb' 64 64 ∧ (t.mbxAt mbx).rspBase = block.extractLsb' 128 64 ∧
      (t.mbxAt mbx).responses = [] ∧
      OnlyMbx mbx s t ∧
      KeptBut [.mbx] s t) ∧
  (∀ (s : State) (mbx : Nat) (block : BitVec 512),
    s.rst.mgmtUp = true →
    (s.mbxAt mbx).setupBusy = true →
    (s.mbxAt mbx).state = .closed →
    (s.mbxAt mbx).port = .pcie →
    s.reaches .pcie = true →
    setupOk block = false →
    ∃ t, exec (.setupBlockCheck mbx .ok block) s = .next t ∧
      (t.mbxAt mbx).state = .reset ∧
      (t.mbxAt mbx).reason = 6 ∧ (t.mbxAt mbx).code = 3#16 ∧
      t.host.flags = s.host.flags ||| 0x100#32 ∧
      t.host.mbxRst = bump s.host.mbxRst ∧
      OnlyMbx mbx s t ∧
      KeptBut [.mbx, .requests, .hostRegs, .twin, .misc] s t) ∧
  (∀ (s : State) (port : Port) (mbx : Nat) (value : Word),
    Reached s port mbx →
    (s.mbxAt mbx).state = .opened →
    2 ^ (s.mbxAt mbx).reqLog2 < (value.setWidth 16 - (s.mbxAt mbx).reqHead).toNat →
    ∃ t, exec (.mbxTailWrite port mbx value) s = .next t ∧
      (t.mbxAt mbx).state = .reset ∧
      (t.mbxAt mbx).reason = 3 ∧ (t.mbxAt mbx).code = 3#16 ∧
      t.host.flags = s.host.flags ||| 0x20#32 ∧
      OnlyMbx mbx s t ∧
      KeptBut [.mbx, .requests, .hostRegs, .twin, .misc] s t)

/-- A fetched request waits to begin or is answered by its first checks. -/
def Obligations.FetchChecksRequests : Prop :=
  (∀ (s : State) (mbx : Nat) (desc : BitVec 512) (input : HostRead),
    s.rst.mgmtUp = true →
    (s.mbxAt mbx).state = .opened →
    (s.mbxAt mbx).port = .pcie →
    (s.mbxAt mbx).reqHead ≠ (s.mbxAt mbx).reqTail →
    s.slotFree mbx = true →
    s.reaches .pcie = true →
    firstChecks desc .pcie input = none →
    ∃ t, exec (.requestFetch mbx .ok desc input) s = .next t ∧
      (t.mbxAt mbx).reqHead = (s.mbxAt mbx).reqHead + 1#16 ∧
      t.host.fetched = s.host.fetched ++ [⟨mbx, bits desc 15 0, desc.extractLsb' 16 16, desc.getLsbD 33, desc.getLsbD 32, bits desc 191 160, desc.extractLsb' 192 64⟩] ∧
      t.host.outst = s.host.outst ∧
      (t.mbxAt mbx).responses = (s.mbxAt mbx).responses ∧
      OnlyMbx mbx s t ∧
      KeptBut [.mbx, .requests] s t) ∧
  (∀ (s : State) (mbx : Nat) (desc : BitVec 512) (input : HostRead) (st detail : Nat),
    s.rst.mgmtUp = true →
    (s.mbxAt mbx).state = .opened →
    (s.mbxAt mbx).port = .pcie →
    (s.mbxAt mbx).reqHead ≠ (s.mbxAt mbx).reqTail →
    s.slotFree mbx = true →
    s.reaches .pcie = true →
    firstChecks desc .pcie input = some (st, detail) →
    st ≠ stHostErr →
    ∃ t, exec (.requestFetch mbx .ok desc input) s = .next t ∧
      (t.mbxAt mbx).reqHead = (s.mbxAt mbx).reqHead + 1#16 ∧
      (t.mbxAt mbx).responses = (s.mbxAt mbx).responses ++ [{ opcode := bits desc 15 0, tag := desc.extractLsb' 16 16, status := st, trunc := false, cancelled := false, outWritten := 0, detail := BitVec.ofNat 32 detail, mtAccept := s.mt.mt, mtDone := s.mt.mt, castSeq := s.sets.castSeq, result := [], out := [] }] ∧
      t.host.fetched = s.host.fetched ∧
      t.host.outst = s.host.outst ∧
      OnlyMbx mbx s t ∧
      KeptBut [.mbx] s t)

/-- SES_INFO reports the session; SES_CANCEL answers for an absent tag and stops a cancellable command. -/
def Obligations.SessionQueriesAndCancel : Prop :=
  (∀ (s : State) (r : Req),
    Accepts s r 0x0101 {} →
    ∃ t, exec (.sesInfo r) s = .next t ∧
      Answers s t r 0x0101 ⟨stOk, 0, (leBytes 1 2 ++ leBytes 1 0 ++ leBytes 1 r.mbx ++ leBytes 1 (portCode (s.mbxAt r.mbx).port) ++ leBytes 1 (s.mbxAt r.mbx).reqLog2 ++ leBytes 1 (s.mbxAt r.mbx).rspLog2 ++ leBytes 2 (s.outstOf r.mbx).length ++ leBytes 2 s.host.outst.length), ((s.outstOf r.mbx).flatMap (fun o => leBytes 2 o.tag.toNat ++ leBytes 2 o.opcode ++ leBytes 1 o.phase ++ leBytes 3 0 ++ leBytes 8 o.mtAccept.toNat)), false⟩ ∧
      KeptBut [.mbx, .requests, .window] s t) ∧
  (∀ (s : State) (r : Req) (tag : BitVec 16),
    Accepts s r 0x0102 {} →
    (s.outstOf r.mbx).find? (fun o => o.tag == tag) = none →
    ∃ t, exec (.sesCancel r tag) s = .next t ∧
      Answers s t r 0x0102 ⟨stNotFound, 0, [], [], false⟩ ∧
      KeptBut [.mbx, .requests, .window] s t) ∧
  (∀ (s : State) (r : Req) (tag : BitVec 16) (o : Outstanding),
    Accepts s r 0x0102 {} →
    s.host.outst = [o] →
    o.mbx = r.mbx ∧ o.tag = tag ∧ o.orphan = false ∧ o.opcode = 0x0502 →
    ∃ t, exec (.sesCancel r tag) s = .next t ∧
      t.host.outst = [] ∧
      t.sets.frozen = false ∧
      ((t.mbxAt r.mbx).responses.map (fun q => (q.opcode, q.tag, q.status, q.cancelled))) = ((s.mbxAt r.mbx).responses.map (fun q => (q.opcode, q.tag, q.status, q.cancelled))) ++ [(0x0502, tag, stAborted, true), (0x0102, r.tag, stOk, false)] ∧
      KeptBut [.mbx, .requests, .window, .sets] s t)

/-- Host drain rings open, bind queues, unbind them and close. -/
def Obligations.RingsOpenBindAndClose : Prop :=
  (∀ (s : State) (r : Req) (ring log2 vector modN modUs : Nat) (auto : Bool) (base : BitVec 64),
    Accepts s r 0x0103 {} →
    ring < 64 →
    6 ≤ log2 ∧ log2 ≤ 20 →
    vector = 0xFFFF ∨ (264 ≤ vector ∧ vector ≤ 279) →
    1 ≤ modN ∧ modN ≤ 256 →
    modUs ≤ 1000 →
    bits base 11 0 = 0 ∧ bits base 63 62 = 0 →
    (s.hdrAt ring).state = .closed →
    (s.hdrAt ring).bound = [] →
    ∃ t, exec (.hdrOpen r ring log2 vector modN modUs auto base) s = .next t ∧
      Answers s t r 0x0103 ⟨stOk, 0, [], [], false⟩ ∧
      (t.hdrAt ring).state = .opened ∧ (t.hdrAt ring).log2 = log2 ∧ (t.hdrAt ring).base = base ∧ (t.hdrAt ring).vector = vector ∧
      (t.hdrAt ring).modN = modN ∧ (t.hdrAt ring).modUs = modUs ∧ (t.hdrAt ring).auto = auto ∧
      (t.hdrAt ring).write = 0 ∧ (t.hdrAt ring).head = 0 ∧ (t.hdrAt ring).port = (s.mbxAt r.mbx).port ∧
      OnlyHdr ring s t ∧
      KeptBut [.mbx, .requests, .window, .hdr] s t) ∧
  (∀ (s : State) (r : Req) (ring : Nat),
    Accepts s r 0x0104 { long := true } →
    ring < 64 →
    (s.hdrAt ring).state = .opened →
    (s.hdrAt ring).port = (s.mbxAt r.mbx).port →
    (s.hdrAt ring).flushBusy = false ∧ (s.hdrAt ring).unflushed = 0 →
    (s.hdrAt ring).bound = [] →
    s.sto.reads = [] →
    s.host.outst = [] →
    ∃ t, exec (.hdrClose r ring) s = .next t ∧
      Answers s t r 0x0104 ⟨stOk, 0, (leBytes 4 ((s.hdrAt ring).write - 1#32).toNat), [], false⟩ ∧
      (t.hdrAt ring).state = .closed ∧
      OnlyHdr ring s t ∧
      KeptBut [.mbx, .requests, .window, .hdr] s t) ∧
  (∀ (s : State) (r : Req) (ring : Nat) (qids : List Nat),
    Accepts s r 0x0105 {} →
    ring < 64 →
    qids ≠ [] ∧ qids.length ≤ 64 →
    (∀ q ∈ qids, streamOk q = true) →
    (s.hdrAt ring).foreign (s.mbxAt r.mbx).port = false →
    (∀ q ∈ qids, s.boundElsewhere ring q = false) →
    ∃ t, exec (.hdrBind r ring qids) s = .next t ∧
      Answers s t r 0x0105 ⟨stOk, 0, [], [], false⟩ ∧
      (∀ q ∈ qids, q ∈ (t.hdrAt ring).bound) ∧
      (∀ q ∈ (s.hdrAt ring).bound, q ∈ (t.hdrAt ring).bound) ∧
      (∀ q ∈ (t.hdrAt ring).bound, q ∈ qids ∨ q ∈ (s.hdrAt ring).bound) ∧
      OnlyHdr ring s t ∧
      KeptBut [.mbx, .requests, .window, .hdr] s t) ∧
  (∀ (s : State) (r : Req) (qid ring : Nat),
    Accepts s r 0x0106 {} →
    streamOk qid = true →
    s.boundTo qid = some ring →
    ∃ t, exec (.hdrUnbind r [qid]) s = .next t ∧
      Answers s t r 0x0106 ⟨stOk, 0, [], [], false⟩ ∧
      (t.queAt qid).credit = 0 ∧
      qid ∉ (t.hdrAt ring).bound ∧
      OnlyHdr ring s t ∧
      OnlyQue qid s t ∧
      KeptBut [.mbx, .requests, .window, .hdr, .que] s t) ∧
  (∀ (s : State) (r : Req) (first count : Nat),
    Accepts s r 0x0107 {} →
    first < 64 →
    count ≠ 0 ∧ first + count ≤ 64 →
    ∃ t, exec (.hdrStatusRead r first count) s = .next t ∧
      Answers s t r 0x0107 ⟨stOk, 0, [], ((List.range count).flatMap (fun i => (s.hdrAt (first + i)).bytes)), false⟩ ∧
      KeptBut [.mbx, .requests, .window] s t)

/-- A bound queue's packet goes to its ring, is flushed and its words come back as credit. -/
def Obligations.RingsDrainPackets : Prop :=
  (∀ (s : State) (ring qid : Nat) (p : Packet),
    s.deliverable ring qid = some p →
    s.ringTakes ring p.words = true →
    (s.hdrAt ring).port = .pcie →
    ∃ t, exec (.hdrPacketWrite ring qid) s = .next t ∧
      (t.hdrAt ring).write = (s.hdrAt ring).write + BitVec.ofNat 32 (cdiv p.words 7) ∧
      (t.hdrAt ring).unflushed = (s.hdrAt ring).unflushed + 1 ∧
      (t.queAt qid).credit = (s.queAt qid).credit - p.words ∧
      (t.queAt qid).taken = (s.queAt qid).taken + 1 ∧
      (t.queAt qid).pkts = (s.queAt qid).pkts ∧
      OnlyHdr ring s t ∧
      OnlyQue qid s t ∧
      KeptBut [.hdr, .que] s t) ∧
  (∀ (s : State) (ring : Nat),
    (s.hdrAt ring).state = .opened →
    (s.hdrAt ring).unflushed ≠ 0 →
    (s.hdrAt ring).flushBusy = false →
    s.reaches (s.hdrAt ring).port = true →
    ∃ t, exec (.flushReadIssue ring) s = .next t ∧
      (t.hdrAt ring).flushBusy = true ∧ (t.hdrAt ring).unflushed = 0 ∧
      OnlyHdr ring s t ∧
      KeptBut [.hdr] s t) ∧
  (∀ (s : State) (ring : Nat),
    (s.hdrAt ring).state = .opened →
    (s.hdrAt ring).flushBusy = true →
    (s.hdrAt ring).unflushed = 0 →
    ∃ t, exec (.flushReadDone ring .ok) s = .next t ∧
      (t.hdrAt ring).flushBusy = false ∧
      (∀ k ∈ (t.hdrAt ring).packets, k.delivered = true) ∧
      (t.hdrAt ring).state = .opened ∧
      OnlyHdr ring s t ∧
      KeptBut [.hdr, .que] s t) ∧
  (∀ (s : State) (ring : Nat),
    (s.hdrAt ring).state = .opened →
    (s.hdrAt ring).flushBusy = true →
    (s.hdrAt ring).port = .pcie →
    s.sto.reads = [] →
    ∃ t, exec (.flushReadDone ring .timeout) s = .next t ∧
      (t.hdrAt ring).state = .faulted ∧
      t.host.hdrFault = s.host.hdrFault ||| BitVec.twoPow 64 ring ∧
      t.host.cplErr = bump s.host.cplErr ∧
      OnlyHdr ring s t ∧
      KeptBut [.hdr, .que, .hostRegs] s t) ∧
  (∀ (s : State) (ring : Nat) (value : Word),
    ring < 64 →
    (s.hdrAt ring).auto = false →
    ∃ t, exec (.hdrHeadWrite ring value) s = .next t ∧
      (t.hdrAt ring).head = value ∧
      (t.hdrAt ring).write = (s.hdrAt ring).write ∧
      OnlyHdr ring s t ∧
      KeptBut [.hdr] s t) ∧
  (∀ (s : State) (n : Nat),
    (s.mbxAt n).irq = true →
    (s.mbxAt n).state = .opened →
    (s.mbxAt n).unsignalled ≠ 0 →
    ∃ t, exec (.irqHoldoffExpiry false n) s = .next t ∧
      (t.mbxAt n).unsignalled = 0 ∧
      OnlyMbx n s t ∧
      KeptBut [.mbx] s t)

/-- Link and function events set the link, its configuration, and the mailboxes of the port. -/
def Obligations.LinkAndFunctionEvents : Prop :=
  (∀ (s : State) (speed width : Nat),
    s.rst.pll = true ∧ s.rst.ctrlUp = true →
    s.spiOnly = false →
    1 ≤ speed ∧ speed ≤ 4 →
    width = 1 ∨ width = 2 ∨ width = 4 →
    ∃ t, exec (.pcieLinkUp speed width) s = .next t ∧
      t.host.speed = speed ∧ t.host.width = width ∧
      t.host.msixEn = s.host.msixEn ∧ t.host.busMaster = s.host.busMaster ∧
      KeptBut [.link] s t) ∧
  (∀ (s : State) (msixEn busMaster funcMask : Bool),
    s.host.speed ≠ 0 →
    s.rst.booted = true →
    ∃ t, exec (.pcieConfigWrite msixEn busMaster funcMask) s = .next t ∧
      t.host.msixEn = msixEn ∧ t.host.busMaster = busMaster ∧ t.host.funcMask = funcMask ∧
      t.host.speed = s.host.speed ∧
      KeptBut [.link] s t) ∧
  (∀ (s : State),
    s.host.speed ≠ 0 →
    ∃ t, exec (.functionLevelReset) s = .next t ∧
      t.host.msixEn = false ∧ t.host.busMaster = false ∧
      t.host.speed = s.host.speed ∧
      t.host.flags = s.host.flags ||| 2#32 ∧
      (∀ e ∈ t.host.mbx, e.2.port = .pcie → e.2.state ≠ .opened ∧ e.2.state ≠ .closing) ∧
      KeptBut [.link, .mbx, .requests, .window, .hdr, .que, .sto, .hostRegs, .twin, .misc] s t) ∧
  (∀ (s : State),
    s.host.speed ≠ 0 →
    ∃ t, exec (.pcieLinkDown) s = .next t ∧
      t.host.speed = 0 ∧ t.host.width = 0 ∧
      t.host.busMaster = false ∧
      t.host.flags = s.host.flags ||| 1#32 ∧
      (∀ e ∈ t.host.mbx, e.2.port = .pcie → e.2.state ≠ .opened ∧ e.2.state ≠ .closing) ∧
      KeptBut [.link, .mbx, .requests, .window, .hdr, .que, .sto, .hostRegs, .twin, .misc] s t) ∧
  (∀ (s : State) (on : Bool),
    on = false ∨ s.rst.ctrlUp = false ∨ s.rst.hold.isSome = true →
    ∃ t, exec (.extest on) s = .next t ∧
      t.host.dbg.extest = on ∧
      KeptBut [.hostRegs] s t)

/-- Parameter writes take effect in the Maquette or as live values; reads and the directory answer. -/
def Obligations.ParameterCommands : Prop :=
  (∀ (s : State) (r : Req) (triples : List Triple),
    Accepts s r 0x0601 {} →
    s.twin.role ≠ .standby ∨ triples.any standbyRefuses = false →
    triples ≠ [] ∧ triples.length ≤ 32 →
    s.sets.frozen = false ∨ triples.all (fun x => isLive x.id) = true →
    (∀ x ∈ triples, x.index < 65536) →
    s.triplesBad s.sets.maq triples = none →
    ∃ t, exec (.paramWrite r triples) s = .next t ∧
      EditEnds (s.leads && triples.any (fun x => !isLive x.id)) s t r 0x0601 [] ∧
      (∀ id index, isLive id = false → index < 65536 → pval t.sets.maq.params id index = afterTriples triples id index (pval s.sets.maq.params id index)) ∧
      (∀ id index, isLive id = true → index < 65536 → t.liveAccepted id index = afterTriples triples id index (s.liveAccepted id index)) ∧
      t.sets.maqSeq = (if triples.any (fun x => !isLive x.id) then s.sets.maqSeq + 1#32 else s.sets.maqSeq) ∧
      t.sets.valid = (if triples.any (fun x => !isLive x.id) then false else s.sets.valid) ∧
      { t.sets with
        maq := { t.sets.maq with params := s.sets.maq.params }, maqSeq := s.sets.maqSeq
        valid := s.sets.valid, livePending := s.sets.livePending } = s.sets ∧
      KeptBut [.mbx, .requests, .window, .sets, .twin] s t) ∧
  (∀ (s : State) (r : Req) (items : List (Nat × Nat)),
    Accepts s r 0x0602 {} →
    items ≠ [] ∧ items.length ≤ 32 →
    firstBad (s.readBad (s.setOf r.set)) 0 items = none →
    ∃ t, exec (.paramRead r items) s = .next t ∧
      Answers s t r 0x0602 ⟨stOk, 0, [], (items.flatMap (fun x => leBytes 2 x.1 ++ leBytes 2 x.2 ++ leBytes 4 (s.present (s.setOf r.set) x.1 x.2).toNat)), false⟩ ∧
      KeptBut [.mbx, .requests, .window] s t) ∧
  (∀ (s : State) (r : Req) (first count : Nat),
    Accepts s r 0x0603 {} →
    count ≠ 0 ∧ count ≤ 64 →
    ∃ t, exec (.paramDirRead r first count) s = .next t ∧
      Answers s t r 0x0603 ⟨stOk, 0, (leBytes 1 ((directory.filter (fun e => first ≤ e.id)).take count).length ++ leBytes 1 0 ++ leBytes 2 (match (directory.filter (fun e => first ≤ e.id)).drop count with | [] => 0xFFFF | e :: _ => e.id)), (((directory.filter (fun e => first ≤ e.id)).take count).flatMap DirEntry.bytes), false⟩ ∧
      KeptBut [.mbx, .requests, .window] s t)

/-- FIG_DEFINE defines, copies and deletes figures in the Maquette; FIG_LIST_READ lists them. -/
def Obligations.FigureDefinitionsEditTheMaquette : Prop :=
  (∀ (s : State) (r : Req) (fig : Nat) (triples : List Triple),
    Accepts s r 0x0201 { standbyOk := false } →
    s.sets.frozen = false →
    fig < 4096 →
    fig ∉ s.sets.maq.figs →
    triples.length ≤ 32 →
    firstBad (defineBad fig) 0 triples = none →
    s.triplesBad (defineFig s.sets.maq fig) triples = none →
    ∃ t, exec (.figDefine r fig 0 0 triples) s = .next t ∧
      EditEnds s.leads s t r 0x0201 [] ∧
      (∀ f, f ∈ t.sets.maq.figs ↔ f = fig ∨ f ∈ s.sets.maq.figs) ∧
      (∀ id, 0x400 ≤ id → id < 0x440 → isLive id = false → pval t.sets.maq.params id fig = afterTriples triples id fig (paramReset id)) ∧
      (∀ id index, id < 0x400 ∨ 0x440 ≤ id ∨ index ≠ fig → index < 65536 → pval t.sets.maq.params id index = pval s.sets.maq.params id index) ∧
      (∀ k, tget? t.sets.maq.coefs k = if k / 4 = fig then none else tget? s.sets.maq.coefs k) ∧
      (∀ f, tget? t.sets.maq.gens f = if f = fig then none else tget? s.sets.maq.gens f) ∧
      t.liveAccepted 0x438 fig = afterTriples triples 0x438 fig (if s.sets.cast.figs.contains fig then s.liveAccepted 0x438 fig else 0#32) ∧
      t.sets.maqSeq = s.sets.maqSeq + 1#32 ∧ t.sets.valid = false ∧
      t.sets.cast = s.sets.cast ∧
      { t.sets with
        maq := { t.sets.maq with figs := s.sets.maq.figs, params := s.sets.maq.params, coefs := s.sets.maq.coefs, gens := s.sets.maq.gens }
        maqSeq := s.sets.maqSeq, valid := s.sets.valid
        live := s.sets.live, livePending := s.sets.livePending } = s.sets ∧
      KeptBut [.mbx, .requests, .window, .sets, .twin] s t) ∧
  (∀ (s : State) (r : Req) (fig source : Nat) (triples : List Triple),
    Accepts s r 0x0201 { standbyOk := false } →
    s.sets.frozen = false →
    fig < 4096 →
    source ∈ s.sets.maq.figs →
    source < 65536 →
    triples.length ≤ 32 →
    firstBad (defineBad fig) 0 triples = none →
    s.triplesBad (copyFigure s.sets.maq fig source) triples = none →
    ∃ t, exec (.figDefine r fig 2 source triples) s = .next t ∧
      EditEnds s.leads s t r 0x0201 [] ∧
      (∀ f, f ∈ t.sets.maq.figs ↔ f = fig ∨ f ∈ s.sets.maq.figs) ∧
      pval t.sets.maq.params 0x400 fig = afterTriples triples 0x400 fig 0#32 ∧
      (∀ id, 0x401 ≤ id → id < 0x440 → isLive id = false → pval t.sets.maq.params id fig = afterTriples triples id fig (pval s.sets.maq.params id source)) ∧
      (∀ id index, id < 0x400 ∨ 0x440 ≤ id ∨ index ≠ fig → index < 65536 → pval t.sets.maq.params id index = pval s.sets.maq.params id index) ∧
      (∀ k, tget? t.sets.maq.coefs k = if k / 4 = fig then tget? s.sets.maq.coefs (4 * source + k % 4) else tget? s.sets.maq.coefs k) ∧
      (∀ f, tget? t.sets.maq.gens f = if f = fig then tget? s.sets.maq.gens source else tget? s.sets.maq.gens f) ∧
      t.liveAccepted 0x438 fig = afterTriples triples 0x438 fig (if s.sets.cast.figs.contains fig then s.liveAccepted 0x438 fig else s.liveAccepted 0x438 source) ∧
      t.sets.maqSeq = s.sets.maqSeq + 1#32 ∧ t.sets.valid = false ∧
      t.sets.cast = s.sets.cast ∧
      { t.sets with
        maq := { t.sets.maq with figs := s.sets.maq.figs, params := s.sets.maq.params, coefs := s.sets.maq.coefs, gens := s.sets.maq.gens }
        maqSeq := s.sets.maqSeq, valid := s.sets.valid
        live := s.sets.live, livePending := s.sets.livePending } = s.sets ∧
      KeptBut [.mbx, .requests, .window, .sets, .twin] s t) ∧
  (∀ (s : State) (r : Req) (fig : Nat),
    Accepts s r 0x0201 { standbyOk := false } →
    s.sets.frozen = false →
    fig < 4096 →
    fig ∈ s.sets.maq.figs →
    pnat s.sets.maq.params 0x400 fig ≠ 1 →
    s.castN 0x400 fig ≠ 1 →
    ∃ t, exec (.figDefine r fig 1 0 []) s = .next t ∧
      EditEnds s.leads s t r 0x0201 [] ∧
      (∀ f, f ∈ t.sets.maq.figs ↔ f ≠ fig ∧ f ∈ s.sets.maq.figs) ∧
      (∀ id, 0x400 ≤ id → id < 0x440 → pval t.sets.maq.params id fig = paramReset id) ∧
      (∀ id index, id < 0x400 ∨ 0x440 ≤ id ∨ index ≠ fig → index < 65536 → pval t.sets.maq.params id index = pval s.sets.maq.params id index) ∧
      (∀ k, tget? t.sets.maq.coefs k = if k / 4 = fig then none else tget? s.sets.maq.coefs k) ∧
      (∀ f, tget? t.sets.maq.gens f = if f = fig then none else tget? s.sets.maq.gens f) ∧
      t.sets.maqSeq = s.sets.maqSeq + 1#32 ∧ t.sets.valid = false ∧
      t.sets.cast = s.sets.cast ∧
      { t.sets with
        maq := { t.sets.maq with figs := s.sets.maq.figs, params := s.sets.maq.params, coefs := s.sets.maq.coefs, gens := s.sets.maq.gens }
        maqSeq := s.sets.maqSeq, valid := s.sets.valid } = s.sets ∧
      KeptBut [.mbx, .requests, .window, .sets, .twin] s t) ∧
  (∀ (s : State) (r : Req),
    Accepts s r 0x0202 {} →
    ∃ t, exec (.figListRead r) s = .next t ∧
      Answers s t r 0x0202 ⟨stOk, 0, (leBytes 2 (s.setOf r.set).figs.length ++ leBytes 2 ((s.setOf r.set).figs.filter (fun f => pnat (s.setOf r.set).params 0x400 f == 1)).length), (figBitmap (s.setOf r.set).figs ++ figBitmap ((s.setOf r.set).figs.filter (fun f => pnat (s.setOf r.set).params 0x400 f == 1))), false⟩ ∧
      KeptBut [.mbx, .requests, .window] s t)

/-- SET_REVERT freezes the Maquette until it is the Cast again; SET_STATUS_READ reports the sets. -/
def Obligations.SetRevertAndStatus : Prop :=
  (∀ (s : State) (r : Req),
    Accepts s r 0x0503 { long := true, standbyOk := false } →
    s.sets.frozen = false →
    ∃ t, exec (.setRevert r) s = .next t ∧
      Waits s t r 0x0503 0 0 0 ∧
      t.sets.frozen = true ∧
      t.sets.maq = s.sets.maq ∧ t.sets.cast = s.sets.cast ∧
      KeptBut [.requests, .sets] s t) ∧
  (∀ (s : State) (o : Outstanding),
    s.host.outst.find? (fun x => x.opcode == 0x0503) = some o →
    s.rst.mgmtUp = true →
    ∃ t, exec (.revertCopyEnd) s = .next t ∧
      ThawsWith s t (maquetteOf s.sets.cast) ∧
      t.sets.valid = false ∧ t.sets.rstStale = false ∧
      t.sets.maqSeq = s.sets.maqSeq + 1#32 ∧
      t.sets.cast = s.sets.cast ∧
      Completed s t o ⟨stOk, 0, leBytes 4 (s.sets.maqSeq + 1#32).toNat, [], false⟩ ∧
      t.host.outst = dropFirst (fun x => x.opcode == 0x0503) s.host.outst ∧ t.host.fetched = s.host.fetched ∧
      KeptBut [.mbx, .requests, .window, .sets] s t) ∧
  (∀ (s : State) (r : Req),
    Accepts s r 0x0504 {} →
    ∃ t, exec (.setStatusRead r) s = .next t ∧
      Answers s t r 0x0504 ⟨stOk, 0, (leBytes 4 s.sets.status.toNat ++ leBytes 4 s.sets.maqSeq.toNat ++ leBytes 4 s.sets.val.toNat ++ leBytes 8 s.sets.digest.toNat ++ leBytes 8 s.sets.unvMt.toNat), [], false⟩ ∧
      KeptBut [.mbx, .requests, .window] s t)

/-- Stage descriptors are written to the Maquette; EEPROM transfers queue at their group's controller. -/
def Obligations.StageDescriptorCommands : Prop :=
  (∀ (s : State) (r : Req) (port : Nat) (image : BitVec 2048),
    Accepts s r 0x0301 { standbyOk := false } →
    s.leads = false →
    s.sets.frozen = false →
    s.hasPort port = true →
    descFault image = none →
    s.sto.state ≠ .ready →
    ∃ t, exec (.stgDescWrite r port image) s = .next t ∧
      Answers s t r 0x0301 ⟨stOk, 0, (leBytes 1 0), [], false⟩ ∧
      tget? t.sets.maq.descs port = some ⟨image, .written⟩ ∧
      (∀ p, p ≠ port → tget? t.sets.maq.descs p = tget? s.sets.maq.descs p) ∧
      t.sets.maqSeq = s.sets.maqSeq + 1#32 ∧ t.sets.valid = false ∧
      t.sets.cast = s.sets.cast ∧
      KeptBut [.mbx, .requests, .window, .sets] s t) ∧
  (∀ (s : State) (r : Req) (port : Nat) (image : BitVec 2048),
    Accepts s r 0x0301 { standbyOk := false } →
    s.leads = false →
    s.sets.frozen = false →
    s.hasPort port = true →
    descFault image = none →
    s.sto.state = .ready ∧ s.rst.mireUp = true →
    ∃ t, exec (.stgDescWrite r port image) s = .next t ∧
      Answers s t r 0x0301 ⟨stOk, 0, (leBytes 1 1), [], false⟩ ∧
      tget? t.sets.maq.descs port = some ⟨image, .written⟩ ∧
      tget? t.sto.sysDescs port = some image ∧
      t.sets.maqSeq = s.sets.maqSeq + 1#32 ∧ t.sets.valid = false ∧
      t.sets.cast = s.sets.cast ∧
      KeptBut [.mbx, .requests, .window, .sets, .sto] s t) ∧
  (∀ (s : State) (r : Req) (port : Nat),
    Accepts s r 0x0302 { long := true } →
    s.hasPort port = true →
    ∃ t, exec (.stgDescRead r port 0) s = .next t ∧
      Answers s t r 0x0302 ⟨stOk, 0, (leBytes 1 (sourceCode (tget? (s.setOf r.set).descs port)) ++ leBytes 1 (s.spAt port).eepromState), (imageBytes (((tget? (s.setOf r.set).descs port).map (fun x => x.image)).getD 0#2048)), false⟩ ∧
      KeptBut [.mbx, .requests, .window] s t) ∧
  (∀ (s : State) (r : Req) (port : Nat),
    Accepts s r 0x0302 { long := true } →
    s.hasPort port = true →
    s.twin.role ≠ .standby →
    s.sets.frozen = false →
    ∃ t, exec (.stgDescRead r port 1) s = .next t ∧
      Waits s t r 0x0302 port 1 0 ∧
      (t.grpAt (port / 8)).i2c = (s.grpAt (port / 8)).i2c ++ [⟨port, false, 0, [], r.mbx, r.tag⟩] ∧
      OnlyGrp (port / 8) s t ∧
      KeptBut [.requests, .grp] s t) ∧
  (∀ (s : State) (r : Req) (port offset : Nat) (data : List Byte),
    Accepts s r 0x0303 { long := true, standbyOk := false } →
    s.hasPort port = true →
    offset % 8 = 0 →
    data.length % 8 = 0 ∧ data ≠ [] →
    offset + data.length ≤ 256 →
    ∃ t, exec (.stgEepromWrite r port offset data) s = .next t ∧
      Waits s t r 0x0303 port 0 0 ∧
      (t.grpAt (port / 8)).i2c = (s.grpAt (port / 8)).i2c ++ [⟨port, true, offset, data, r.mbx, r.tag⟩] ∧
      OnlyGrp (port / 8) s t ∧
      KeptBut [.requests, .grp] s t) ∧
  (∀ (s : State) (grp : Nat) (x : I2c) (rest : List I2c) (data : Option (BitVec 2048)),
    s.rst.mgmtUp = true →
    (s.grpAt grp).i2c = x :: rest →
    x.write = true →
    x.data.length ≤ 8 →
    ∃ t, exec (.i2cTransferEnd grp true data) s = .next t ∧
      (t.grpAt grp).i2c = rest ∧
      OnlyGrp grp s t ∧
      t.host.outst = dropFirst (fun o => o.opcode == 0x0303 && o.mbx == x.mbx && o.tag == x.tag) s.host.outst ∧
      KeptBut [.mbx, .requests, .window, .grp] s t) ∧
  (∀ (s : State) (grp : Nat) (x : I2c) (rest : List I2c) (data : Option (BitVec 2048)),
    s.rst.mgmtUp = true →
    (s.grpAt grp).i2c = x :: rest →
    x.write = true →
    8 < x.data.length →
    ∃ t, exec (.i2cTransferEnd grp true data) s = .next t ∧
      (t.grpAt grp).i2c = { x with offset := x.offset + 8, data := x.data.drop 8 } :: rest ∧
      OnlyGrp grp s t ∧
      KeptBut [.grp] s t) ∧
  (∀ (s : State) (r : Req) (first count : Nat),
    Accepts s r 0x0312 {} →
    first < 128 →
    count ≠ 0 ∧ first + count ≤ 128 →
    ∃ t, exec (.stgPlaceRead r first count) s = .next t ∧
      Answers s t r 0x0312 ⟨stOk, 0, [], ((List.range count).flatMap (fun i => s.stageRecord (first + i))), false⟩ ∧
      KeptBut [.mbx, .requests, .window] s t) ∧
  (∀ (s : State) (r : Req) (first count : Nat),
    Accepts s r 0x0210 {} →
    first < 4096 →
    count ≠ 0 ∧ count ≤ 2048 ∧ first + count ≤ 4096 →
    ∃ t, exec (.figPlaceRead r first count) s = .next t ∧
      Answers s t r 0x0210 ⟨stOk, 0, (leBytes 2 count), ((List.range count).flatMap (fun i => placeRecord s.sets.cast.place (first + i))), false⟩ ∧
      KeptBut [.mbx, .requests, .window] s t)

/-- SET_UNVEIL, SET_VALIDATE and PLACE_PREVIEW are accepted and wait for their validation. -/
def Obligations.ValidationCommandsFreezeTheMaquette : Prop :=
  (∀ (s : State) (r : Req) (expect : Option Word) (at_ : Option DWord),
    Accepts s r 0x0501 { long := true, standbyOk := false } →
    s.sets.frozen = false →
    s.detaching = false →
    expect = none ∨ expect = some s.sets.maqSeq →
    ∃ t, exec (.setUnveil r expect at_) s = .next t ∧
      Waits s t r 0x0501 (b2n at_.isSome) ((at_.getD 0#64).toNat) 1 ∧
      t.sets.frozen = true ∧ t.sets.phase = 1 ∧
      t.sets.cast = s.sets.cast ∧ t.sets.maq = s.sets.maq ∧
      KeptBut [.requests, .sets] s t) ∧
  (∀ (s : State) (r : Req) (expect : Word) (at_ : Option DWord),
    Accepts s r 0x0501 { long := true, standbyOk := false } →
    s.sets.frozen = false →
    s.detaching = false →
    expect ≠ s.sets.maqSeq →
    ∃ t, exec (.setUnveil r (some expect) at_) s = .next t ∧
      Answers s t r 0x0501 ⟨stStale, s.sets.maqSeq.toNat, [], [], false⟩ ∧
      KeptBut [.mbx, .requests, .window] s t) ∧
  (∀ (s : State) (r : Req) (expect : Option Word),
    Accepts s r 0x0502 { long := true, standbyOk := false } →
    s.sets.frozen = false →
    expect = none ∨ expect = some s.sets.maqSeq →
    ∃ t, exec (.setValidate r expect) s = .next t ∧
      Waits s t r 0x0502 0 0 1 ∧
      t.sets.frozen = true ∧ t.sets.phase = 1 ∧
      t.sets.cast = s.sets.cast ∧ t.sets.maq = s.sets.maq ∧
      KeptBut [.requests, .sets] s t) ∧
  (∀ (s : State) (r : Req) (first count : Nat),
    Accepts s r 0x0211 { long := true } →
    first < 4096 →
    count ≠ 0 ∧ count ≤ 2048 ∧ first + count ≤ 4096 →
    ∃ t, exec (.placePreview r first count) s = .next t ∧
      Waits s t r 0x0211 first count 1 ∧
      KeptBut [.requests] s t) ∧
  (∀ (s : State) (r : Req),
    Accepts s r 0x0C05 { long := true } →
    r.set = false →
    ∃ t, exec (.loopSchedRead r) s = .next t ∧
      Answers s t r 0x0C05 ⟨stOk, 0, [], ((List.range 16).flatMap (s.schedRecord s.sets.cast)), false⟩ ∧
      KeptBut [.mbx, .requests, .window] s t)

/-- A validation hands the set to the boundary or is answered with its failure. -/
def Obligations.ValidationsEnd : Prop :=
  (∀ (s : State) (o : Outstanding) (image : CfgSet) (pl : Plan),
    s.unveiling = some o →
    s.canTransfer = true →
    s.migrations = [] →
    s.validate s.sets.maq = .ok (image, pl) →
    ∃ t, exec (.unveilTransfer) s = .next t ∧
      t.sets = { s.sets with
        val := 0#32, phase := 2
        transfer := some {
          image := image, internal := false, acked := false, migrated := []
          at_ := if o.obj = 1 then some (BitVec.ofNat 64 o.aux) else none
          late := decide (o.obj = 1) && mtLe (BitVec.ofNat 64 o.aux) s.mt.mt && BitVec.ofNat 64 o.aux != s.mt.mt
          paired := s.leads, target := s.pairTarget } } ∧
      t.host.outst = s.host.outst.map (fun x => if x.opcode = 0x0501 then { x with phase := 2, aux := pl.unplaced.length } else x) ∧
      t.host.fetched = s.host.fetched ∧
      KeptBut [.sets, .requests] s t) ∧
  (∀ (s : State) (o : Outstanding) (e : Failure),
    s.unveiling = some o →
    s.canTransfer = true →
    s.migrations = [] →
    s.validate s.sets.maq = .error e →
    ∃ t, exec (.unveilTransfer) s = .next t ∧
      Completed s t o ⟨e.status, e.detail, [], [], false⟩ ∧
      t.host.outst = dropFirst (fun x => x.opcode == 0x0501 && x.phase == 1) s.host.outst ∧ t.host.fetched = s.host.fetched ∧
      ThawsWith s t s.sets.maq ∧
      { t.sets with maq := s.sets.maq, mireDue := s.sets.mireDue } = { s.sets with val := e.word, rejCnt := bump s.sets.rejCnt, frozen := false, phase := 0 } ∧
      KeptBut [.sets, .requests, .mbx, .window] s t) ∧
  (∀ (s : State) (o : Outstanding) (image : CfgSet) (pl : Plan),
    s.host.outst.find? (fun x => x.opcode == 0x0502 || x.opcode == 0x0211) = some o →
    o.opcode = 0x0502 →
    s.rst.mgmtUp = true →
    s.migrations = [] →
    s.validate s.sets.maq = .ok (image, pl) →
    ∃ t, exec (.validationEnd) s = .next t ∧
      Completed s t o ⟨stOk, 0, leBytes 2 pl.unplaced.length, [], false⟩ ∧
      t.host.outst = dropFirst (fun x => x.opcode == 0x0502) s.host.outst ∧ t.host.fetched = s.host.fetched ∧
      ThawsWith s t s.sets.maq ∧
      { t.sets with maq := s.sets.maq, mireDue := s.sets.mireDue } = { s.sets with val := 0#32, valid := true, rstStale := false, frozen := false, phase := 0 } ∧
      KeptBut [.sets, .requests, .mbx, .window] s t) ∧
  (∀ (s : State) (o : Outstanding) (e : Failure),
    s.host.outst.find? (fun x => x.opcode == 0x0502 || x.opcode == 0x0211) = some o →
    o.opcode = 0x0502 →
    s.rst.mgmtUp = true →
    s.migrations = [] →
    s.validate s.sets.maq = .error e →
    ∃ t, exec (.validationEnd) s = .next t ∧
      Completed s t o ⟨e.status, e.detail, [], [], false⟩ ∧
      t.host.outst = dropFirst (fun x => x.opcode == 0x0502) s.host.outst ∧ t.host.fetched = s.host.fetched ∧
      ThawsWith s t s.sets.maq ∧
      { t.sets with maq := s.sets.maq, mireDue := s.sets.mireDue } = { s.sets with val := e.word, frozen := false, phase := 0 } ∧
      KeptBut [.sets, .requests, .mbx, .window] s t) ∧
  (∀ (s : State) (o : Outstanding),
    s.host.outst.find? (fun x => x.opcode == 0x0502 || x.opcode == 0x0211) = some o →
    o.opcode = 0x0211 →
    s.rst.mgmtUp = true →
    check1 s.sets.maq = none →
    ∃ t, exec (.validationEnd) s = .next t ∧
      Completed s t o ⟨stOk, 0, leBytes 2 o.aux ++ leBytes 2 s.preview.2, (List.range o.aux).flatMap (fun i => placeRecord s.preview.1 (o.obj + i)), false⟩ ∧
      t.host.outst = dropFirst (fun x => x.opcode == 0x0211 && x.mbx == o.mbx && x.tag == o.tag) s.host.outst ∧ t.host.fetched = s.host.fetched ∧
      KeptBut [.requests, .mbx, .window, .free] s t) ∧
  (∀ (s : State) (o : Outstanding) (e : Failure),
    s.host.outst.find? (fun x => x.opcode == 0x0502 || x.opcode == 0x0211) = some o →
    o.opcode = 0x0211 →
    s.rst.mgmtUp = true →
    check1 s.sets.maq = some e →
    ∃ t, exec (.validationEnd) s = .next t ∧
      Completed s t o ⟨e.status, e.detail, [], [], false⟩ ∧
      t.host.outst = dropFirst (fun x => x.opcode == 0x0211 && x.mbx == o.mbx && x.tag == o.tag) s.host.outst ∧ t.host.fetched = s.host.fetched ∧
      KeptBut [.requests, .mbx, .window] s t)

/-- At its boundary a transferred set is brought in; live writes take effect; migrations become an internal Unveil. -/
def Obligations.UnveilsAndLiveWritesTakeEffect : Prop :=
  (∀ (s : State) (x : Transfer),
    s.sets.transfer = some x →
    x.internal = false →
    s.landsNow x = true →
    ∃ t, exec (.unveilSwap) s = .next t ∧
      t.sets = { s.sets with
        cast := { x.image with place := t.sets.cast.place }, digest := t.digestOf t.sets.cast
        castSeq := s.sets.castSeq + 1#32, unvMt := s.mt.mt, unvGen := (s.sets.unvGen + 1) % 16
        transfer := none, phase := 3, copyDue := true, castEmpty := false, rstStale := false
        lastInt := false, lastPaired := x.paired && x.acked } ∧
      (∀ f, (t.placeAt f).members = (tget Placement.init x.image.place f).members) ∧
      (∀ f, membersIn x.image f = [] → (t.figAt f).enabled = false) ∧
      (∀ o ∈ t.host.outst, o.opcode = 0x0501 → o.phase = 3) ∧
      KeptBut [.peat, .iso, .mt, .pfe, .sets, .grp, .sp, .fig, .routes, .que, .sto, .mbx, .requests, .window, .twin, .misc, .free] s t) ∧
  (∀ (s : State) (x : Transfer),
    s.sets.transfer = some x →
    x.internal = true →
    s.landsNow x = true →
    ∃ t, exec (.internalUnveil) s = .next t ∧
      t.sets = { s.sets with
        cast := { s.sets.cast with place := t.sets.cast.place }, digest := t.digestOf t.sets.cast
        castSeq := s.sets.castSeq + 1#32, unvMt := s.mt.mt, unvGen := (s.sets.unvGen + 1) % 16
        transfer := none, valid := false, castEmpty := false
        lastInt := true, lastPaired := x.paired && x.acked } ∧
      (∀ e ∈ x.migrated, (t.placeAt e.1).members = (tget Placement.init x.image.place e.1).members) ∧
      KeptBut [.peat, .sets, .grp, .sp, .fig, .routes, .que, .sto, .mbx, .requests, .window, .twin, .misc, .free] s t) ∧
  (∀ (s : State),
    s.sets.copyDue = true →
    s.rst.mgmtUp = true →
    ∃ t, exec (.maquetteCopyEnd) s = .next t ∧
      ThawsWith s t (maquetteOf s.sets.cast) ∧
      { t.sets with maq := s.sets.maq, mireDue := s.sets.mireDue } = { s.sets with frozen := false, phase := 0, copyDue := false } ∧
      t.host.outst = s.host.outst.filter (fun o => !(o.opcode == 0x0501 && o.phase == 3)) ∧ t.host.fetched = s.host.fetched ∧
      (∀ m, (t.mbxAt m).responses = (s.mbxAt m).responses ++ (s.host.outst.filter (fun o => o.opcode == 0x0501 && o.phase == 3 && o.mbx == m && !o.orphan && (s.mbxAt m).state == .opened)).map (fun o => responseFor o.waiter ⟨stOk, 0, leBytes 19 o.aux, [], false⟩ s.mt.mt s.sets.castSeq)) ∧
      KeptBut [.sets, .requests, .mbx, .window] s t) ∧
  (∀ (s : State) (key : Nat) (v : Word),
    s.sets.livePending.find? (fun e => s.liveDue e.1) = some (key, v) →
    s.rst.ctrlUp = true ∧ s.rst.mgmtUp = true →
    s.swapFirst = false →
    ∃ t, exec (.liveWriteApply) s = .next t ∧
      t.live (key / 65536) (key % 65536) = s.liveAccepted (key / 65536) (key % 65536) ∧
      (∀ k, k ≠ key → t.live (k / 65536) (k % 65536) = s.live (k / 65536) (k % 65536)) ∧
      { t.sets with live := s.sets.live } = { s.sets with livePending := s.sets.livePending.filter (fun e => e.1 != key) } ∧
      (key / 65536 = 0x438 →
        (if !(s.figAt (key % 65536)).enabled then (t.figAt (key % 65536)).level = (t.live 0x438 (key % 65536)).toInt
          else (listRuns (s.figAt (key % 65536)) = true →
            (t.figAt (key % 65536)).level = (s.figAt (key % 65536)).level ∧ (t.figAt (key % 65536)).levelKept = true)) ∧
        OnlyFig (key % 65536) s t ∧ KeptBut [.sets, .fig, .sp] s t) ∧
      (key / 65536 ≠ 0x438 → KeptBut [.sets] s t)) ∧
  (∀ (s : State) (port : Nat),
    s.canTransfer = true →
    (s.figsOn port).any (fun f => s.migrations.contains f) = true →
    ∃ t, exec (.migration port) s = .next t ∧
      t.sets = { s.sets with
        cast := { s.sets.cast with place := t.sets.cast.place }
        transfer := if s.decide_.moved = [] then none else some {
          image := { s.sets.cast with place := s.decide_.place }, at_ := none, late := false
          internal := true, paired := s.leads, target := s.pairTarget, acked := false
          migrated := s.decide_.moved.map (fun f => (f, ((s.figAt f).migrating.getD (0#32, 0#32)).2, ((s.figAt f).migrating.getD (0#32, 0#32)).1)) } } ∧
      (∀ f ∈ s.decide_.stuck, (t.placeAt f).state = .tripped ∧ (t.figAt f).migrating = none) ∧
      (s.decide_.stuck = [] → t.sets.cast = s.sets.cast ∧ KeptBut [.sets] s t) ∧
      KeptBut [.sets, .fig, .sp, .grp, .que, .sto, .misc, .mbx, .requests, .window, .free] s t)

/-- The sweep commands write the table and the generators, read them, and start and stop lists. -/
def Obligations.SweepCommandsEditAndStart : Prop :=
  (∀ (s : State) (r : Req) (first : Nat) (entries : List (BitVec 256)),
    Accepts s r 0x0401 { standbyOk := false } →
    s.leads = false →
    s.sets.frozen = false →
    tableRange first entries.length = none →
    entries.all (fun e => (entryBad e).isNone) = true →
    ∃ t, exec (.swpTableWrite r first entries) s = .next t ∧
      Answers s t r 0x0401 ⟨stOk, 0, [], [], false⟩ ∧
      (∀ i, i < entries.length → tget 0#256 t.sets.maq.sweep (first + i) = entries.getD i 0#256) ∧
      (∀ k, k < first ∨ first + entries.length ≤ k → tget 0#256 t.sets.maq.sweep k = tget 0#256 s.sets.maq.sweep k) ∧
      t.sets.maqSeq = s.sets.maqSeq + 1#32 ∧ t.sets.valid = false ∧
      t.sets.cast = s.sets.cast ∧
      KeptBut [.mbx, .requests, .window, .sets] s t) ∧
  (∀ (s : State) (r : Req) (first count : Nat),
    Accepts s r 0x0402 {} →
    tableRange first count = none →
    ∃ t, exec (.swpTableRead r first count) s = .next t ∧
      Answers s t r 0x0402 ⟨stOk, 0, [], ((List.range count).flatMap (fun i => leBytes 32 (tget 0#256 (s.setOf r.set).sweep (first + i)).toNat)), false⟩ ∧
      KeptBut [.mbx, .requests, .window] s t) ∧
  (∀ (s : State) (r : Req) (fig : Nat) (block : BitVec 512),
    Accepts s r 0x0403 { standbyOk := false } →
    s.leads = false →
    s.sets.frozen = false →
    fig ∈ s.sets.maq.figs →
    genBad block = none →
    ∃ t, exec (.swpGenWrite r fig block) s = .next t ∧
      Answers s t r 0x0403 ⟨stOk, 0, [], [], false⟩ ∧
      tget? t.sets.maq.gens fig = (if genType block = 0 then none else some block) ∧
      (∀ f, f ≠ fig → tget? t.sets.maq.gens f = tget? s.sets.maq.gens f) ∧
      t.sets.maqSeq = s.sets.maqSeq + 1#32 ∧ t.sets.valid = false ∧
      t.sets.cast = s.sets.cast ∧
      KeptBut [.mbx, .requests, .window, .sets] s t) ∧
  (∀ (s : State) (r : Req) (fig : Nat),
    Accepts s r 0x0404 { standbyOk := false } →
    fig < 4096 →
    s.defined fig = true →
    (s.figAt fig).run = .armed ∨ (s.figAt fig).run = .ended →
    ∃ t, exec (.swpStart r fig) s = .next t ∧
      Answers s t r 0x0404 ⟨stOk, 0, [], [], false⟩ ∧
      (t.figAt fig).startDue = true ∧ (t.figAt fig).run = (s.figAt fig).run ∧
      OnlyFig fig s t ∧
      KeptBut [.mbx, .requests, .window, .fig] s t) ∧
  (∀ (s : State) (r : Req) (fig : Nat),
    Accepts s r 0x0404 { standbyOk := false } →
    fig < 4096 →
    s.defined fig = true →
    (s.figAt fig).run ≠ .armed ∧ (s.figAt fig).run ≠ .ended →
    ∃ t, exec (.swpStart r fig) s = .next t ∧
      Answers s t r 0x0404 ⟨stNotReady, 0, [], [], false⟩ ∧
      KeptBut [.mbx, .requests, .window] s t) ∧
  (∀ (s : State) (r : Req) (fig mode : Nat),
    Accepts s r 0x0405 { standbyOk := false } →
    fig < 4096 →
    s.defined fig = true →
    mode ≤ 1 →
    listRuns (s.figAt fig) = true ∨ (s.figAt fig).startDue = true →
    (s.figAt fig).stop ≠ some 2 →
    ∃ t, exec (.swpStop r fig mode) s = .next t ∧
      Answers s t r 0x0405 ⟨stOk, 0, [], [], false⟩ ∧
      (t.figAt fig).stop = some mode ∧
      (t.figAt fig).run = (s.figAt fig).run ∧
      OnlyFig fig s t ∧
      KeptBut [.mbx, .requests, .window, .fig] s t) ∧
  (∀ (s : State) (r : Req) (first count : Nat),
    Accepts s r 0x0406 {} →
    first < 4096 →
    count ≠ 0 ∧ first + count ≤ 4096 →
    ∃ t, exec (.swpStatusRead r first count) s = .next t ∧
      Answers s t r 0x0406 ⟨stOk, 0, [], ((List.range count).flatMap (fun i => s.swpRecord (first + i))), false⟩ ∧
      KeptBut [.mbx, .requests, .window] s t)

/-- A list starts as its start condition says, goes on to its next pass and ends. -/
def Obligations.ListsStartAndEnd : Prop :=
  (∀ (s : State) (fig : Nat),
    s.running fig = true →
    s.grpRuns ((s.master fig).getD 0 / 8) = true →
    s.swapFirst = false →
    (s.figAt fig).run = .armed ∨ (s.figAt fig).run = .ended →
    0 < s.castN 0x43A fig →
    (s.figAt fig).startDue = true ∨ (s.castN 0x43C fig = 0 ∧ (s.figAt fig).run = .armed) ∨ (s.castN 0x43C fig = 2 ∧ 0x80 + (s.master fig).getD 0 ∈ s.fab.arrived) →
    ∃ t, exec (.listStart fig) s = .next t ∧
      t.figAt fig = { s.figAt fig with
        run := .waiting, startDue := false
        first := s.castN 0x439 fig, count := s.castN 0x43A fig, repeats := s.castN 0x43B fig, endMode := s.castN 0x43D fig
        next := 0, pass := 1#32, readyMt := s.mt.mt, listMt := s.mt.mt } ∧
      OnlyFig fig s t ∧
      KeptBut [.fig] s t) ∧
  (∀ (s : State) (fig : Nat),
    (s.figAt fig).run = .waiting →
    (s.figAt fig).flight = none →
    s.rst.ctrlUp = true →
    (s.figAt fig).stop = none ∨ (s.figAt fig).stop = some 1 →
    (s.figAt fig).count ≤ (s.figAt fig).next →
    (s.figAt fig).repeats = 0 ∨ (s.figAt fig).pass.toNat < (s.figAt fig).repeats →
    ∃ t, exec (.listEnd fig) s = .next t ∧
      t.figAt fig = { s.figAt fig with next := 0, pass := (s.figAt fig).pass + 1#32, readyMt := s.mt.mt } ∧
      OnlyFig fig s t ∧
      KeptBut [.fig] s t) ∧
  (∀ (s : State) (fig : Nat),
    (s.figAt fig).run = .waiting →
    (s.figAt fig).flight = none →
    s.rst.ctrlUp = true →
    (s.figAt fig).stop = some 0 ∨
      ((s.figAt fig).stop ≠ some 2 ∧ (s.figAt fig).count ≤ (s.figAt fig).next ∧ (s.figAt fig).repeats ≠ 0 ∧ (s.figAt fig).repeats ≤ (s.figAt fig).pass.toNat) →
    ∃ t, exec (.listEnd fig) s = .next t ∧
      (t.figAt fig).reports.map (fun p => (p.point, p.state, p.cause)) =
        (s.figAt fig).reports.map (fun p => (p.point, p.state, p.cause)) ++
        (if (s.figAt fig).stop = some 0 then
          ((List.range (s.figAt fig).count).drop (s.figAt fig).next).map (fun i => ((s.figAt fig).first + i, 6, 10)) ++ [(0xFFFF, 5, 10)]
         else [(0xFFFF, 4, 0)]) ∧
      (t.figAt fig).nrunCnt = (if (s.figAt fig).stop = some 0 then bumpBy (s.figAt fig).nrunCnt ((s.figAt fig).count - (s.figAt fig).next) else (s.figAt fig).nrunCnt) ∧
      (t.figAt fig).stop = none ∧ (t.figAt fig).startDue = false ∧ (t.figAt fig).compA = none ∧ (t.figAt fig).compB = none ∧
      (t.figAt fig).doneCnt = (s.figAt fig).doneCnt ∧ (t.figAt fig).failCnt = (s.figAt fig).failCnt ∧ (t.figAt fig).seq = (s.figAt fig).seq ∧
      (if (s.figAt fig).endMode = 2 then (t.figAt fig).enabled = false
       else (t.figAt fig).run = .ended ∧ (t.figAt fig).enabled = (s.figAt fig).enabled ∧ KeptBut [.fig, .sp] s t) ∧
      (if (s.figAt fig).endMode = 1 then (t.figAt fig).level = (s.live 0x438 fig).toInt ∧ (t.figAt fig).mode = s.castN 0x401 fig
       else (t.figAt fig).level = (s.figAt fig).level ∧ (t.figAt fig).mode = (s.figAt fig).mode) ∧
      ((s.figAt fig).endMode ≠ 1 → (s.figAt fig).endMode ≠ 2 → KeptBut [.fig] s t) ∧
      OnlyFig fig s t ∧
      KeptBut [.fig, .sp, .grp, .que, .sto, .mbx, .requests, .window, .misc, .free] s t) ∧
  (∀ (s : State) (fig : Nat),
    (s.figAt fig).run = .waiting →
    (s.figAt fig).flight = none →
    s.rst.ctrlUp = true →
    (s.figAt fig).stop = some 2 →
    ∃ t, exec (.listEnd fig) s = .next t ∧
      (t.figAt fig).reports.map (fun p => (p.point, p.state, p.cause)) =
        (s.figAt fig).reports.map (fun p => (p.point, p.state, p.cause)) ++ [(0xFFFF, 5, 11)] ∧
      { t.figAt fig with reports := (s.figAt fig).reports } = { s.figAt fig with
        run := if s.castN 0x43A fig = 0 then .idle else .armed
        stop := none, startDue := false, endedInHold := false, compA := none, compB := none, levelKept := false
        flags := (s.figAt fig).flags ||| 5#32, mode := s.castN 0x401 fig, level := (s.live 0x438 fig).toInt } ∧
      OnlyFig fig s t ∧
      KeptBut [.fig, .sp] s t) ∧
  (∀ (s : State) (fig : Nat) (p : Report) (rest : List Report),
    (s.figAt fig).reports = p :: rest →
    s.rst.dataUp = true →
    ∃ t, exec (.pointReport fig) s = .next t ∧
      t.figAt fig = { s.figAt fig with reports := rest, seq := (s.figAt fig).seq + 1#32 } ∧
      (t.queAt (64 * fig)).due = (if s.twin.role = .standby then (s.queAt (64 * fig)).due
        else (s.queAt (64 * fig)).due ++ [{
          key := BitVec.ofNat 32 p.point, stamp := s.mt.mt, payload := recordWords (p.bytes fig (s.figAt fig).seq)
          listEnd := p.point == 0xFFFF }]) ∧
      { t.queAt (64 * fig) with due := (s.queAt (64 * fig)).due } = s.queAt (64 * fig) ∧
      OnlyQue (64 * fig) s t ∧
      OnlyFig fig s t ∧
      KeptBut [.fig, .que] s t) ∧
  (∀ (s : State) (fig : Nat) (q : Flight),
    (s.figAt fig).flight = some q →
    q.state = .settling →
    s.dwellOver q = true →
    (s.members fig).any (fun p => (s.spAt p).force.downPend.isSome || (s.spAt p).force.spanPend.isSome) = true →
    s.castN 0x43F fig ≤ q.waited →
    ∃ t, exec (.rangeWaitTimeout fig) s = .next t ∧
      (∀ p ∈ s.members fig, t.spAt p = { s.spAt p with force := { (s.spAt p).force with downPend := none, spanPend := none, waited := 0 } }) ∧
      (∀ p, p ∉ s.members fig → t.spAt p = s.spAt p) ∧
      t.figAt fig = { s.figAt fig with
        flags := (s.figAt fig).flags ||| 0x20#32, flight := some { q with flags := q.flags ||| 4#16 } } ∧
      OnlyFig fig s t ∧
      KeptBut [.fig, .sp] s t)

/-- A point fires, settles, dwells, is measured and ends. -/
def Obligations.PointsRun : Prop :=
  (∀ (s : State) (fig m : Nat),
    s.wouldFire fig = true →
    s.slotOpen fig = true →
    s.swapFirst = false →
    s.master fig = some m →
    ∃ t, exec (.pointFire fig) s = .next t ∧
      (t.figAt fig).flight.map (fun q => { q with flags := 0#16 }) = some {
        index := (s.figAt fig).first + (s.figAt fig).next, entry := s.nextEntry fig, state := .placed, mtStart := s.mt.mt
        settleMt := 0#64, ticks := 0, dwellEnded := false, waited := 0, flags := 0#16, top := false, topTicks := 0 } ∧
      (t.figAt fig).flight.any (fun q => q.flags.getLsbD 7) = (s.figAt fig).again ∧
      { t.figAt fig with
        flight := none, flags := (s.figAt fig).flags, apOpen := (s.figAt fig).apOpen } = { s.figAt fig with
        run := .active, flight := none, again := false, next := (s.figAt fig).next + 1
        lastPoint := (s.figAt fig).first + (s.figAt fig).next, fireMt := some (s.grpAt (m / 8)).tickMt } ∧
      (s.shared m = true → (t.spAt m).slotFig = some fig) ∧
      (∀ f, f ≠ fig → { t.figAt f with apOpen := (s.figAt f).apOpen } = s.figAt f) ∧
      (∀ p, p ∉ s.members fig → p ∉ s.gangOf m → t.spAt p = s.spAt p) ∧
      OnlyGrp (m / 8) s t ∧
      KeptBut [.fig, .sp, .grp, .free] s t) ∧
  (∀ (s : State) (fig m : Nat) (q : Flight),
    (s.figAt fig).flight = some q →
    q.state = .placed →
    s.placedDone fig = true →
    s.master fig = some m →
    ∃ t, exec (.settling fig) s = .next t ∧
      { t.figAt fig with apOpen := (s.figAt fig).apOpen } = { s.figAt fig with
        level := if ptPulse q.entry then ptBase q.entry else ptLevel q.entry, mode := modeOf q.entry (s.castN 0x401 fig)
        compA := some (ptCompA q.entry), compB := some (ptCompB q.entry)
        flight := some { q with state := .settling, settleMt := s.mt.mt, ticks := 0 } } ∧
      (∀ p ∈ s.members fig, s.serves p = some fig → (t.spAt p).force.target = (t.figAt fig).level * 2000) ∧
      (∀ f, f ≠ fig → { t.figAt f with apOpen := (s.figAt f).apOpen } = s.figAt f) ∧
      (∀ p, p ∉ s.members fig → p ∉ s.gangOf m → t.spAt p = s.spAt p) ∧
      KeptBut [.fig, .sp] s t) ∧
  (∀ (s : State) (fig : Nat) (q : Flight),
    (s.figAt fig).flight = some q →
    q.state = .settling →
    ptPulse q.entry = false →
    s.dwellOver q = true →
    s.canMeasure fig = true →
    ptNoAp q.entry = true →
    ∃ t, exec (.dwellEnd fig) s = .next t ∧
      t.figAt fig = { s.figAt fig with
        flight := none, run := .waiting, doneCnt := bump (s.figAt fig).doneCnt, readyMt := s.mt.mt
        reports := (s.figAt fig).reports ++ [outcomeOf s fig { q with flags := q.flags ||| (if q.dwellEnded then 0x400#16 else 0#16) } 4 0] } ∧
      OnlyFig fig s t ∧
      (∀ p, (s.spAt p).slotFig ≠ some fig ∨ p ∉ s.members fig → t.spAt p = s.spAt p) ∧
      KeptBut [.fig, .sp] s t) ∧
  (∀ (s : State) (fig : Nat) (q : Flight),
    (s.figAt fig).flight = some q →
    q.state = .settling →
    ptPulse q.entry = false →
    s.dwellOver q = true →
    s.canMeasure fig = true →
    ptNoAp q.entry = false →
    s.apFree fig s.mt.mt = true →
    (s.figAt fig).apOpen = none →
    ∃ t, exec (.dwellEnd fig) s = .next t ∧
      (t.figAt fig).flight = some { q with state := .aperture, dwellEnded := true, flags := q.flags ||| (if q.dwellEnded then 0x400#16 else 0#16) } ∧
      (if s.apClear fig then
        (t.figAt fig).apWait = none ∧
        (t.figAt fig).apOpen.map (fun a => (a.start, a.code, a.point, a.members)) = some (s.mt.mt, ptAperture q.entry, q.index, s.members fig)
       else (t.figAt fig).apWait = some (apRequest s.mt.mt (ptAperture q.entry) q.index true false) ∧ (t.figAt fig).apOpen = none) ∧
      { t.figAt fig with flight := (s.figAt fig).flight, apWait := (s.figAt fig).apWait, apOpen := (s.figAt fig).apOpen } = s.figAt fig ∧
      OnlyFig fig s t ∧
      (∀ p, p ∉ s.members fig → t.spAt p = s.spAt p) ∧
      KeptBut [.fig, .sp] s t) ∧
  (∀ (s : State) (fig : Nat) (q : Flight),
    (s.figAt fig).flight = some q →
    q.state = .settling →
    ptPulse q.entry = false →
    s.dwellOver q = true →
    s.canMeasure fig = true →
    ptNoAp q.entry = false →
    s.apFree fig s.mt.mt = false →
    ptBrk q.entry = false →
    ∃ t, exec (.dwellEnd fig) s = .next t ∧
      t.figAt fig = { s.figAt fig with
        flight := none, run := .waiting, failCnt := bump (s.figAt fig).failCnt, readyMt := s.mt.mt
        flags := (s.figAt fig).flags ||| 0x10#32 ||| 2#32
        reports := (s.figAt fig).reports ++ [outcomeOf s fig { q with flags := q.flags ||| (if q.dwellEnded then 0x400#16 else 0#16) } 5 9] } ∧
      OnlyFig fig s t ∧
      KeptBut [.fig, .sp] s t) ∧
  (∀ (s : State) (fig : Nat) (q : Flight),
    (s.figAt fig).flight = some q →
    q.state = .settling →
    ptPulse q.entry = false →
    s.dwellOver q = true →
    s.canMeasure fig = false →
    ∃ t, exec (.dwellEnd fig) s = .next t ∧
      t.figAt fig = { s.figAt fig with flight := some { q with dwellEnded := true } } ∧
      OnlyFig fig s t ∧
      KeptBut [.fig] s t) ∧
  (∀ (s : State) (fig : Nat) (q : Flight),
    (s.figAt fig).flight = some q →
    q.state = .settling →
    ptPulse q.entry = true →
    s.dwellOver q = true →
    s.canMeasure fig = true →
    ptNoAp q.entry = true ∨ s.apFree fig s.mt.mt = true →
    ∃ t, exec (.pulseLeadingEdge fig) s = .next t ∧
      t.figAt fig = { s.figAt fig with
        level := ptLevel q.entry
        apWait := if ptNoAp q.entry then (s.figAt fig).apWait else some (apRequest s.mt.mt 0 q.index true false)
        flight := some { q with
          state := .aperture, top := true, topTicks := 0, dwellEnded := true, flags := q.flags ||| (if q.dwellEnded then 0x400#16 else 0#16) } } ∧
      (∀ p ∈ s.members fig, t.spAt p = { s.spAt p with force := { (s.spAt p).force with target := ptLevel q.entry * 2000, setpoint := ptLevel q.entry * 2000 } }) ∧
      (∀ p, p ∉ s.members fig → t.spAt p = s.spAt p) ∧
      OnlyFig fig s t ∧
      KeptBut [.fig, .sp] s t) ∧
  (∀ (s : State) (fig : Nat) (q : Flight),
    (s.figAt fig).flight = some q →
    q.top = true →
    ptWidth q.entry ≤ q.topTicks →
    (s.apFinish fig).apLost fig = false →
    ∃ t, exec (.pulseTrailingEdge fig) s = .next t ∧
      (t.figAt fig).level = ptBase q.entry ∧
      (∀ p ∈ s.members fig, (t.spAt p).force.target = ptBase q.entry * 2000 ∧ (t.spAt p).force.setpoint = ptBase q.entry * 2000) ∧
      (t.figAt fig).flight = none ∧ (t.figAt fig).run = .waiting ∧ (t.figAt fig).readyMt = s.mt.mt ∧
      (t.figAt fig).doneCnt = bump (s.figAt fig).doneCnt ∧ (t.figAt fig).failCnt = (s.figAt fig).failCnt ∧
      (t.figAt fig).reports.map (fun p => (p.point, p.state, p.cause)) = (s.figAt fig).reports.map (fun p => (p.point, p.state, p.cause)) ++ [(q.index, 4, 0)] ∧
      ((s.figAt fig).apOpen = none → KeptBut [.fig, .sp] s t) ∧
      (∀ f, f ≠ fig → { t.figAt f with apOpen := (s.figAt f).apOpen, qTot := (s.figAt f).qTot, eTot := (s.figAt f).eTot, totGap := (s.figAt f).totGap } = s.figAt f) ∧
      KeptBut [.fig, .sp, .grp, .que, .requests, .mbx, .window, .free] s t) ∧
  (∀ (s : State) (fig : Nat) (q : Flight),
    (s.figAt fig).flight = some q →
    q.state = .placed →
    s.members fig ≠ [] →
    (∀ p ∈ s.members fig, (s.spAt p).force.siteNext = none ∧ (s.spAt p).force.siteWait = 0 ∧ (s.spAt p).force.win = none ∧ atSafe (s.spAt p).force = true) →
    ∃ t, exec (.siteWaitEnd fig) s = .next t ∧
      (∀ p ∈ s.members fig, (t.spAt p).force = { (s.spAt p).force with out := .ramp, down := none, seq := 0, iClip := false } ∧
        (t.spAt p).loop.closing = some (s.safeCode p)) ∧
      (∀ p, p ∉ s.members fig → t.spAt p = s.spAt p) ∧
      KeptBut [.sp, .free] s t) ∧
  (∀ (s : State) (fig : Nat) (a : Aperture),
    (s.figAt fig).apWait = some a →
    (s.figAt fig).apOpen = none →
    s.rst.ctrlUp = true ∧ s.rst.dataUp = true →
    s.swapFirst = false →
    s.apDue fig a = true →
    s.apClear fig = true →
    ∃ t, exec (.apertureOpen fig) s = .next t ∧
      (t.figAt fig).apWait = none ∧
      (t.figAt fig).apOpen.map (fun x => (x.start, x.code, x.point, x.ticksLeft, x.members, x.mode)) =
        some (if a.asap then s.mt.mt else a.start, a.code, a.point, if a.code = 0 then s.castN 0x416 fig else 0, s.members fig, (s.figAt fig).mode) ∧
      { t.figAt fig with apWait := (s.figAt fig).apWait, apOpen := (s.figAt fig).apOpen } = s.figAt fig ∧
      (∀ p ∈ s.members fig, (t.spAt p).meas.integ.isSome = true) ∧
      (∀ p, p ∉ s.members fig → t.spAt p = s.spAt p) ∧
      OnlyFig fig s t ∧
      KeptBut [.fig, .sp] s t) ∧
  (∀ (s : State) (fig : Nat) (a : Aperture),
    (s.figAt fig).apOpen = some a →
    s.rst.ctrlUp = true ∧ s.rst.dataUp = true →
    apOver a s.mt.mt = true →
    ∃ t, exec (.apertureClose fig) s = .next t ∧
      (t.figAt fig).apOpen = none ∧ (t.figAt fig).apWait = (s.figAt fig).apWait ∧
      (∀ p ∈ a.members, (t.spAt p).meas.integ = none) ∧
      (t.queAt (64 * fig)).due.length = (s.queAt (64 * fig)).due.length + (if s.twin.role = .standby then 0 else 1) ∧
      OnlyQue (64 * fig) s t ∧
      (∀ q, (s.figAt fig).flight = some q → q.index = a.point → q.state = .aperture → ptPulse q.entry = false →
        (t.figAt fig).flight = none ∧ (t.figAt fig).run = .waiting ∧
        (t.figAt fig).doneCnt = bump (s.figAt fig).doneCnt ∧
        (t.figAt fig).reports.map (fun p => (p.point, p.state, p.cause)) = (s.figAt fig).reports.map (fun p => (p.point, p.state, p.cause)) ++ [(q.index, 4, 0)]) ∧
      ((∀ q, (s.figAt fig).flight = some q → q.index ≠ a.point ∨ q.state ≠ .aperture) →
        (t.figAt fig).flight = (s.figAt fig).flight ∧ (t.figAt fig).run = (s.figAt fig).run ∧ (t.figAt fig).reports = (s.figAt fig).reports) ∧
      KeptBut [.fig, .sp, .grp, .que, .requests, .mbx, .window, .free] s t)

/-- QUE_POP delivers the words of the front packet or the idle item; QUE_DROP_REST drops what is left of it. -/
def Obligations.QueuesPopAndDrop : Prop :=
  (∀ (s : State) (r : Req) (qid words : Nat) (p : Packet) (rest : List Packet),
    Accepts s r 0x0701 { needs := [5] } →
    48 ≤ r.outLen →
    streamOk qid = true →
    1 ≤ words ∧ words ≤ 66 →
    s.boundTo qid = none →
    (s.queAt qid).pkts = p :: rest →
    words ≤ (r.outLen - 40) / 8 →
    (s.queAt qid).pos + words < p.words →
    ∃ t, exec (.quePop r qid words) s = .next t ∧
      Answers s t r 0x0701 (t.popAnswer qid p.seq (((p.tagged (s.queAt qid).gap).drop (s.queAt qid).pos).take words)) ∧
      (t.queAt qid).pkts = p :: rest ∧ (t.queAt qid).pos = (s.queAt qid).pos + words ∧
      (t.queAt qid).next = (s.queAt qid).next ∧ (t.queAt qid).credit = (s.queAt qid).credit ∧
      OnlyQue qid s t ∧
      KeptBut [.mbx, .requests, .window, .que] s t) ∧
  (∀ (s : State) (r : Req) (qid words : Nat) (p : Packet) (rest : List Packet),
    Accepts s r 0x0701 { needs := [5] } →
    48 ≤ r.outLen →
    streamOk qid = true →
    1 ≤ words ∧ words ≤ 66 →
    s.boundTo qid = none →
    (s.queAt qid).pkts = p :: rest →
    words ≤ (r.outLen - 40) / 8 →
    (s.queAt qid).pos < p.words →
    p.words ≤ (s.queAt qid).pos + words →
    ∃ t, exec (.quePop r qid words) s = .next t ∧
      Answers s t r 0x0701 (t.popAnswer qid p.seq ((p.tagged (s.queAt qid).gap).drop (s.queAt qid).pos)) ∧
      (t.queAt qid).pkts = rest ∧ (t.queAt qid).pos = 0 ∧
      (t.queAt qid).next = (s.queAt qid).next ∧
      OnlyQue qid s t ∧
      KeptBut [.mbx, .requests, .window, .que] s t) ∧
  (∀ (s : State) (r : Req) (qid words : Nat),
    Accepts s r 0x0701 { needs := [5] } →
    48 ≤ r.outLen →
    streamOk qid = true →
    1 ≤ words ∧ words ≤ 66 →
    s.boundTo qid = none →
    (s.queAt qid).pkts = [] →
    ∃ t, exec (.quePop r qid words) s = .next t ∧
      Answers s t r 0x0701 (t.popAnswer qid (s.queAt qid).next [idleItem]) ∧
      (t.queAt qid).pkts = [] ∧ (t.queAt qid).next = (s.queAt qid).next ∧
      OnlyQue qid s t ∧
      KeptBut [.mbx, .requests, .window, .que] s t) ∧
  (∀ (s : State) (r : Req) (qid : Nat) (p : Packet) (rest : List Packet),
    Accepts s r 0x0702 { needs := [5] } →
    streamOk qid = true →
    s.boundTo qid = none →
    (s.queAt qid).pkts = p :: rest →
    (s.queAt qid).pos ≠ 0 →
    ∃ t, exec (.queDropRest r qid) s = .next t ∧
      Answers s t r 0x0702 ⟨stOk, 0, (leBytes 2 (p.words - (s.queAt qid).pos) ++ leBytes 2 0 ++ leBytes 4 p.seq.toNat), [], false⟩ ∧
      (t.queAt qid).pkts = rest ∧ (t.queAt qid).pos = 0 ∧
      t.que.dropCnt = bump s.que.dropCnt ∧ t.que.flags = s.que.flags ||| 0x40#32 ∧
      OnlyQue qid s t ∧
      KeptBut [.mbx, .requests, .window, .que] s t) ∧
  (∀ (s : State) (r : Req) (first count : Nat),
    Accepts s r 0x0706 {} →
    first < 262144 →
    count ≠ 0 ∧ count ≤ 64 ∧ first + count ≤ 262144 →
    ∃ t, exec (.queStatusRead r first count) s = .next t ∧
      Answers s t r 0x0706 ⟨stOk, 0, [], ((List.range count).flatMap (fun i => s.queStatusEntry (first + i))), false⟩ ∧
      KeptBut [.mbx, .requests, .window] s t)

/-- Flushes wait for their flush points; credit adds to the balance; pushes and commits take the next SEQ. -/
def Obligations.QueuesFlushCreditAndCommit : Prop :=
  (∀ (s : State) (r : Req) (scope obj : Nat),
    Accepts s r 0x0703 { long := true, needs := [5] } →
    (scope = 0 ∧ streamOk obj = true) ∨ (scope = 1 ∧ obj < 4096) ∨ (scope = 2 ∧ obj = 0) →
    s.flushScope scope obj ≠ [] →
    ∃ t, exec (.queFlush r scope obj) s = .next t ∧
      Waits s t r 0x0703 obj scope 0 ∧
      t.que = { s.que with flushes := s.que.flushes ++ [⟨r.mbx, r.tag, s.flushScope scope obj, 0, 0⟩] } ∧
      KeptBut [.requests, .que] s t) ∧
  (∀ (s : State) (r : Req) (scope obj : Nat),
    Accepts s r 0x0703 { long := true, needs := [5] } →
    (scope = 0 ∧ streamOk obj = true) ∨ (scope = 1 ∧ obj < 4096) ∨ (scope = 2 ∧ obj = 0) →
    s.flushScope scope obj = [] →
    ∃ t, exec (.queFlush r scope obj) s = .next t ∧
      Answers s t r 0x0703 ⟨stOk, 0, (leBytes 4 0 ++ leBytes 4 0), [], false⟩ ∧
      KeptBut [.mbx, .requests, .window] s t) ∧
  (∀ (s : State) (qid : Nat),
    s.rst.dataUp = true →
    s.que.flushes.any (fun x => x.left.contains qid) = true →
    ∃ t, exec (.flushPoint qid) s = .next t ∧
      (t.queAt qid).pkts = (s.queAt qid).pkts.take (s.queAt qid).taken ∧ (t.queAt qid).pos = 0 ∧
      (t.queAt qid).building = none ∧ (t.queAt qid).divert = none ∧ (t.queAt qid).next = (s.queAt qid).next ∧
      (∀ k, k ≠ qid → k ≠ 64 * qidFig qid + 2 → t.queAt k = s.queAt k) ∧
      t.que.flushes = (flushPassed s qid).filter (fun x => !x.left.isEmpty) ∧
      ((flushPassed s qid).all (fun x => !x.left.isEmpty) = true → KeptBut [.que, .grp] s t) ∧
      KeptBut [.mbx, .requests, .window, .que, .grp] s t) ∧
  (∀ (s : State) (qid : Nat) (f : FlushRun) (o : Outstanding),
    s.rst.dataUp = true →
    s.que.flushes.any (fun x => x.left.contains qid) = true →
    (flushPassed s qid).filter (fun x => x.left.isEmpty) = [f] →
    s.host.outst.find? (fun x => x.opcode == 0x0703 && x.mbx == f.mbx && x.tag == f.tag) = some o →
    ∃ t, exec (.flushPoint qid) s = .next t ∧
      Completed s t o ⟨stOk, 0, leBytes 4 f.packets ++ leBytes 4 f.cut, [], false⟩ ∧
      t.host.outst = dropFirst (fun x => x.opcode == 0x0703 && x.mbx == f.mbx && x.tag == f.tag) s.host.outst ∧
      t.host.fetched = s.host.fetched) ∧
  (∀ (s : State) (r : Req) (qid grant : Nat),
    Accepts s r 0x0704 { needs := [5] } →
    streamOk qid = true →
    grant ≠ 0 ∧ grant < 2 ^ 32 →
    (s.boundTo qid).isSome = true →
    ∃ t, exec (.queCredit r qid grant) s = .next t ∧
      Answers s t r 0x0704 ⟨stOk, 0, (leBytes 4 (min ((s.queAt qid).credit + grant) (2 ^ 32 - 1))), [], false⟩ ∧
      t.queAt qid = { s.queAt qid with credit := min ((s.queAt qid).credit + grant) (2 ^ 32 - 1) } ∧
      OnlyQue qid s t ∧
      { t.que with q := s.que.q } = { s.que with
        flags := if 2 ^ 32 ≤ (s.queAt qid).credit + grant then s.que.flags ||| 0x80#32 else s.que.flags } ∧
      KeptBut [.mbx, .requests, .window, .que] s t) ∧
  (∀ (s : State) (r : Req) (qid : Nat) (words : List DWord),
    Accepts s r 0x0705 { needs := [5] } →
    qid < 262144 ∧ 16 ≤ qidStream qid →
    words ≠ [] ∧ words.length ≤ 64 →
    s.defined (qidFig qid) = true →
    ∃ t, exec (.quePush r qid words) s = .next t ∧
      Answers s t r 0x0705 ⟨stOk, 0, (leBytes 4 (s.queAt qid).next.toNat ++ leBytes 8 s.mt.mt.toNat), [], false⟩ ∧
      (t.queAt qid).next = (s.queAt qid).next + 1#32 ∧
      (s.archMode (qidFig qid) = 0 → (s.queAt qid).divert = none → (s.queAt qid).room (words.length + 2) = true →
        100 * ((s.queAt qid).fill + words.length + 2) < s.castN 0x158 0 * (s.queAt qid).ringWords →
        (t.queAt qid).pkts = (s.queAt qid).pkts ++ [⟨qid, (s.queAt qid).next, s.mt.mt, words, false, false, []⟩]) ∧
      (∀ k, k ≠ qid → k ≠ 64 * qidFig qid + 2 → t.queAt k = s.queAt k) ∧
      KeptBut [.mbx, .requests, .window, .que, .sto, .peat] s t) ∧
  (∀ (s : State) (qid corrected : Nat) (poison : List Nat) (b : Building) (rest : List Building),
    s.rst.dataUp = true →
    (s.queAt qid).due = b :: rest →
    ∃ t, exec (.packetCommit qid corrected false poison) s = .next t ∧
      (t.queAt qid).next = (s.queAt qid).next + 1#32 ∧
      (t.queAt qid).due = rest ∧
      (qidStream qid ≠ 3 → s.archMode (qidFig qid) = 0 → (s.queAt qid).divert = none → (s.queAt qid).room (b.payload.length + 2) = true →
        100 * ((s.queAt qid).fill + b.payload.length + 2) < s.castN 0x158 0 * (s.queAt qid).ringWords →
        (t.queAt qid).pkts = (s.queAt qid).pkts ++
          [⟨qid, (s.queAt qid).next, if qidStream qid ≤ 2 then s.mt.mt else b.stamp, b.payload, false, false, poison⟩]) ∧
      (∀ k, k ≠ qid → k ≠ 64 * qidFig qid + 2 → t.queAt k = s.queAt k) ∧
      (∀ p, { t.spAt p with meas := { (t.spAt p).meas with regs := (s.spAt p).meas.regs } } = s.spAt p) ∧
      (b.note = none → Kept s t .sp) ∧
      (b.tuned = none → Kept s t .mbx ∧ Kept s t .requests ∧ Kept s t .window) ∧
      KeptBut [.que, .sto, .peat, .sp, .mbx, .requests, .window] s t) ∧
  (∀ (s : State) (qid corrected : Nat) (poison : List Nat) (b : Building) (rest : List Building) (n : TuneNote) (o : Outstanding),
    s.rst.dataUp = true →
    (s.queAt qid).due = b :: rest →
    b.tuned = some n →
    s.host.outst.find? (fun x => x.opcode == 0x0C06 && x.mbx == n.mbx && x.tag == n.tag) = some o →
    ∃ t, exec (.packetCommit qid corrected false poison) s = .next t ∧
      (t.queAt qid).next = (s.queAt qid).next + 1#32 ∧
      (t.queAt qid).due = rest ∧
      Completed s t o ⟨if n.ok then stOk else stAborted, 0, leBytes 8 n.startMt.toNat ++ leBytes 4 n.written ++ leBytes 4 n.packets, [], n.cancelled⟩ ∧
      t.host.outst = dropFirst (fun x => x.opcode == 0x0C06 && x.mbx == n.mbx && x.tag == n.tag) s.host.outst ∧
      KeptBut [.que, .sto, .peat, .sp, .mbx, .requests, .window] s t) ∧
  (∀ (s : State) (qid corrected : Nat) (poison : List Nat) (b : Building) (rest : List Building),
    s.rst.dataUp = true →
    (s.queAt qid).due = b :: rest →
    ∃ t, exec (.packetCommit qid corrected true poison) s = .next t ∧
      t.queAt qid = { s.queAt qid with due := rest } ∧
      t.que.flags &&& 4#32 = 4#32 ∧
      (∀ k, k ≠ qid → k ≠ 64 * qidFig qid + 2 → t.queAt k = s.queAt k) ∧
      (b.tuned = none → KeptBut [.que] s t) ∧
      KeptBut [.que, .mbx, .requests, .window] s t)

/-- The Mire's commands read, release, query, format and retire. -/
def Obligations.MireCommands : Prop :=
  (∀ (s : State) (r : Req) (qid : Nat) (first : Word) (count ring : Nat),
    Accepts s r 0x0801 { long := true, needs := [7] } →
    s.mireReady = true →
    streamOk qid = true →
    count ≠ 0 ∧ count ≤ 16777216 →
    ring < 64 →
    (s.hdrAt ring).state = .opened →
    s.sto.reads.length < 16 →
    s.sto.state ≠ .commit →
    s.sto.held qid first count ≠ [] →
    ∃ t, exec (.mireRead r qid first count ring) s = .next t ∧
      Waits s t r 0x0801 qid ring 0 ∧
      (∃ lost, lost = (s.sto.lostPkts.filter (fun e => e.1 == qid && inRange first count e.2)).length ∧
        t.sto = { s.sto with
          reads := s.sto.reads ++ [⟨r.mbx, r.tag, qid, first, count, ring, 0, 0,
            count - (s.sto.held qid first count).length - lost, lost, false, []⟩]
          ops := s.sto.ops ++ (s.sto.log.filter (fun p => p.pkts.any (fun k => k.qid == qid && inRange first count k.seq))).map
            (fun p => ⟨.read, 2, p.target, p.logical, false, false⟩) }) ∧
      KeptBut [.requests, .sto] s t) ∧
  (∀ (s : State) (r : Req) (qid : Nat) (first : Word) (count ring : Nat),
    Accepts s r 0x0801 { long := true, needs := [7] } →
    s.mireReady = true →
    streamOk qid = true →
    count ≠ 0 ∧ count ≤ 16777216 →
    ring < 64 →
    (s.hdrAt ring).state = .opened →
    s.sto.reads.length < 16 →
    s.sto.state ≠ .commit →
    s.sto.held qid first count = [] →
    ∃ t, exec (.mireRead r qid first count ring) s = .next t ∧
      (∃ lost, lost = (s.sto.lostPkts.filter (fun e => e.1 == qid && inRange first count e.2)).length ∧
        Answers s t r 0x0801 ⟨stOk, 0, (leBytes 4 0 ++ leBytes 4 (count - lost) ++ leBytes 4 lost), [], false⟩) ∧
      KeptBut [.mbx, .requests, .window] s t) ∧
  (∀ (s : State) (r : Req) (qid : Nat) (seq : Word) (mt : DWord),
    Accepts s r 0x0802 { needs := [7] } →
    s.mireReady = true →
    streamOk qid = true →
    ∃ t, exec (.mireRelease r 0 qid seq mt) s = .next t ∧
      Answers s t r 0x0802 ⟨stOk, 0, leBytes 4
        ((s.sto.holding.flatMap (fun p => p.pkts)).filter (fun k => k.qid == qid && seqLe k.seq seq)).length, [], false⟩ ∧
      t.sto.holding.flatMap (fun p => p.pkts) =
        (s.sto.holding.flatMap (fun p => p.pkts)).filter (fun k => !(k.qid == qid && seqLe k.seq seq)) ∧
      t.sto.reads = s.sto.reads ∧ t.sto.targets = s.sto.targets ∧ t.sto.state = s.sto.state ∧
      KeptBut [.mbx, .requests, .window, .sto, .peat] s t) ∧
  (∀ (s : State) (r : Req) (seq : Word) (mt : DWord),
    Accepts s r 0x0802 { needs := [7] } →
    s.mireReady = true →
    ∃ t, exec (.mireRelease r 1 0 seq mt) s = .next t ∧
      Answers s t r 0x0802 ⟨stOk, 0, leBytes 4
        ((s.sto.holding.filter (fun p => p.mt != mt && mtLe p.mt mt)).flatMap (fun p => p.pkts)).length, [], false⟩ ∧
      t.sto.holding.flatMap (fun p => p.pkts) =
        (s.sto.holding.filter (fun p => !(p.mt != mt && mtLe p.mt mt))).flatMap (fun p => p.pkts) ∧
      t.sto.reads = s.sto.reads ∧ t.sto.targets = s.sto.targets ∧ t.sto.state = s.sto.state ∧
      KeptBut [.mbx, .requests, .window, .sto, .peat] s t) ∧
  (∀ (s : State) (r : Req) (qid : Nat) (start : Word),
    Accepts s r 0x0803 { needs := [7] } →
    s.mireReady = true →
    streamOk qid = true →
    ∃ t, exec (.mireQuery r qid start) s = .next t ∧
      (∃ runs : List SeqRun, runs = runsOf ((s.sto.held qid start (2 ^ 31)).map (fun k => k.seq)) ∧
        Answers s t r 0x0803 ⟨stOk, 0, (leBytes 1 (min 64 runs.length) ++ leBytes 1 (if 64 < runs.length then 1 else 0)),
          ((runs.take 64).flatMap (fun x => leBytes 4 x.first.toNat ++ leBytes 4 x.last.toNat ++
            leBytes 8 (s.sto.pageMt qid x.first).toNat ++ leBytes 8 (s.sto.pageMt qid x.last).toNat)), false⟩) ∧
      KeptBut [.mbx, .requests, .window] s t) ∧
  (∀ (s : State) (r : Req),
    Accepts s r 0x0804 { long := true, needs := [7] } →
    s.sto.state = .ready ∨ s.sto.state = .unformatted ∨ s.sto.state = .failed →
    s.sto.staged = 0 →
    s.sto.reads = [] →
    s.sets.cast.figs.all (fun f => s.castN 0x400 f != 1 || s.castN 0x413 f == 0) = true →
    s.sto.targets.any (fun e => e.2.fitted && e.2.blocks != 0) = true →
    ∃ t, exec (.mireFormat r 0xA5) s = .next t ∧
      Waits s t r 0x0804 0 0 0 ∧
      t.sto = { s.sto with state := .formatting, ops := [],
                           targets := tmap (fun _ (x : Target) => { x with fmtNext := 0 }) s.sto.targets } ∧
      KeptBut [.requests, .sto] s t) ∧
  (∀ (s : State) (r : Req),
    Accepts s r 0x0804 { long := true, needs := [7] } →
    s.sto.state = .ready ∨ s.sto.state = .unformatted ∨ s.sto.state = .failed →
    s.sto.staged = 0 →
    s.sto.reads = [] →
    s.sets.cast.figs.all (fun f => s.castN 0x400 f != 1 || s.castN 0x413 f == 0) = true →
    s.sto.targets.all (fun e => !e.2.fitted || e.2.blocks == 0) = true →
    s.host.outst.any (fun o => o.opcode == 0x0804) = false →
    ∃ t, exec (.mireFormat r 0xA5) s = .next t ∧
      Answers s t r 0x0804 ⟨stOk, 0, [], [], false⟩ ∧
      t.sto.state = .ready ∧ t.sto.formatted = true ∧ t.sto.own = true ∧ t.sto.log = [] ∧
      KeptBut [.mbx, .requests, .window, .sto] s t) ∧
  (∀ (s : State) (r : Req),
    Accepts s r 0x0805 {} →
    ∃ t, exec (.mireStatusRead r) s = .next t ∧
      Answers s t r 0x0805 ⟨stOk, 0, (leBytes 4 s.stoStatus.toNat ++ leBytes 4 s.sto.capMiB ++ leBytes 4 s.sto.freeMiB), ((List.range 32).flatMap (fun n => (s.targetAt n).bytes n)), false⟩ ∧
      KeptBut [.mbx, .requests, .window] s t) ∧
  (∀ (s : State) (r : Req) (channel target : Nat),
    Accepts s r 0x0806 { needs := [7] } →
    s.mireReady = true →
    channel < 4 ∧ target < 8 →
    (s.targetAt (8 * channel + target)).fitted = true →
    (s.targetAt (8 * channel + target)).retired = false →
    ∃ t, exec (.mireTargetRetire r channel target) s = .next t ∧
      Answers s t r 0x0806 ⟨stOk, 0, [], [], false⟩ ∧
      t.targetAt (8 * channel + target) = { s.targetAt (8 * channel + target) with retired := true, healthy := false } ∧
      (∀ k, k ≠ 8 * channel + target → t.targetAt k = s.targetAt k) ∧
      t.sto.log = s.sto.log ∧
      t.sto.pages.map (fun p => (p.id, p.pkts)) = s.sto.pages.map (fun p => (p.id, p.pkts)) ∧
      t.sto.ops = s.sto.ops ++ (s.sto.log.filter (fun p => p.target == 8 * channel + target && !p.pkts.isEmpty)).map
        (fun p => ⟨.read, 3, 8 * channel + target, p.logical, false, false⟩) ∧
      t.sto.flags &&& 0x20#32 = 0x20#32 ∧
      (s.sto.state = .ready → t.sto.state = if t.sto.healthyCount = 0 then .failed else .ready) ∧
      KeptBut [.mbx, .requests, .window, .sto, .peat] s t) ∧
  (∀ (s : State) (r : Req) (channel target : Nat),
    Accepts s r 0x0806 { needs := [7] } →
    s.mireReady = true →
    channel < 4 ∧ target < 8 →
    (s.targetAt (8 * channel + target)).fitted = true →
    (s.targetAt (8 * channel + target)).retired = true →
    ∃ t, exec (.mireTargetRetire r channel target) s = .next t ∧
      Answers s t r 0x0806 ⟨stOk, 0, [], [], false⟩ ∧
      t.sto.targets = s.sto.targets ∧ t.sto.log = s.sto.log ∧ t.sto.pages = s.sto.pages ∧
      KeptBut [.mbx, .requests, .window, .sto, .peat] s t)

/-- Pages are closed, programmed, confirmed and recovered as the drains report. -/
def Obligations.DrainsProgramConfirmAndRecover : Prop :=
  (∀ (s : State) (page : Nat),
    s.rst.dataUp = true →
    s.sto.pages.any (fun p => p.id == page && p.state == .opened) = true →
    ∃ t, exec (.pageBufferClose page) s = .next t ∧
      t.sto.pages = s.sto.pages.map (fun p => if p.id = page ∧ p.state = .opened then
        { p with state := .queued, logSeq := s.sto.logSeq, logical := s.sto.nextLogical, mtEra := s.peat.era, mt := s.mt.mt } else p) ∧
      t.sto.logSeq = s.sto.logSeq + 1#32 ∧ t.sto.nextLogical = (s.sto.nextLogical + 1) % 2 ^ 24 ∧
      t.sto.log = s.sto.log ∧ t.sto.ops = s.sto.ops ∧ t.sto.targets = s.sto.targets ∧
      KeptBut [.sto, .peat] s t) ∧
  (∀ (s : State) (channel : Nat) (o : NandOp),
    s.translates = true →
    tget 0 s.sto.drainReset channel ≤ s.clk →
    s.choose channel = some (.op o) →
    o.prio ≠ 0 →
    ∃ t, exec (.nandOpStart channel) s = .next t ∧
      t.sto = { s.sto with
        ops := s.sto.ops.map (fun x => if x = o then { x with running := true } else x)
        sinceLow := tput s.sto.sinceLow channel (if 2 ≤ o.prio then 0 else tget 0 s.sto.sinceLow channel + 1) } ∧
      KeptBut [.sto] s t) ∧
  (∀ (s : State) (channel n : Nat) (p : Page),
    s.translates = true →
    tget 0 s.sto.drainReset channel ≤ s.clk →
    s.choose channel = some (.page p n) →
    p.prio ≠ 0 →
    ∃ t, exec (.nandOpStart channel) s = .next t ∧
      t.sto.pages = s.sto.pages.map (fun x => if x.id = p.id then
        { x with state := .programming, target := n, block := (s.targetAt n).advance.block } else x) ∧
      t.sto.ops = s.sto.ops ++ [⟨.program, p.class (s.sto.state == .commit), n, p.id, true, false⟩] ∧
      t.targetAt n = { (s.targetAt n).advance with written := (s.targetAt n).advance.written + 1 } ∧
      (∀ k, k ≠ n → t.targetAt k = s.targetAt k) ∧
      t.sto.preempt = s.sto.preempt ∧ t.sto.log = s.sto.log ∧
      KeptBut [.sto, .peat] s t) ∧
  (∀ (s : State) (channel n : Nat) (p : Page),
    s.translates = true →
    tget 0 s.sto.drainReset channel ≤ s.clk →
    s.choose channel = some (.page p n) →
    p.prio = 0 →
    ∃ t, exec (.nandOpStart channel) s = .next t ∧
      (∀ x ∈ t.sto.pages, x.id = p.id → x.state = .programming ∧ x.target = n) ∧
      (∃ busy, busy = s.sto.ops.find? (fun o => o.running && !o.paused && o.target / 8 == channel && decide (1 ≤ o.prio) && o.kind != .erase) ∧
        t.sto.preempt = (if busy.isSome then bump s.sto.preempt else s.sto.preempt) ∧
        t.sto.ops = s.sto.ops.map (fun o => if busy = some o then { o with paused := true } else o) ++
          [⟨.program, 0, n, p.id, true, false⟩]) ∧
      (∀ k, k ≠ n → t.targetAt k = s.targetAt k) ∧ t.sto.log = s.sto.log ∧
      KeptBut [.sto, .peat] s t) ∧
  (∀ (s : State) (target : Nat) (o : NandOp) (p : Page),
    s.rst.dataUp = true →
    target ∉ s.sto.cutOps →
    s.sto.running target = some o →
    o.kind = .program →
    s.sto.pages.find? (fun x => x.id == o.obj) = some p →
    ∃ t, exec (.programStatus target true) s = .next t ∧
      t.sto.confirmedSeq = p.logSeq ∧
      t.sto.log = s.sto.log ++ [{ p with state := .confirmed }] ∧
      t.sto.sinceCkpt = s.sto.sinceCkpt + 1 ∧
      t.sto.ckptDue = (s.sto.ckptDue || decide (65536 ≤ s.sto.sinceCkpt + 1)) ∧
      t.sto.running target = none ∧ t.sto.targets = s.sto.targets ∧
      (∀ x ∈ s.sto.pages, x.id ≠ p.id → ¬ (x.target = p.target ∧ x.block = p.block) → x.state ≠ .paused → x ∈ t.sto.pages) ∧
      KeptBut [.sto, .peat] s t) ∧
  (∀ (s : State) (target : Nat) (o : NandOp) (p : Page),
    s.rst.dataUp = true →
    target ∉ s.sto.cutOps →
    s.sto.running target = some o →
    o.kind = .program →
    s.sto.pages.find? (fun x => x.id == o.obj) = some p →
    ∃ t, exec (.programStatus target false) s = .next t ∧
      t.sto.progFail = bump s.sto.progFail ∧
      p.block ∈ (t.targetAt p.target).bad ∧
      (t.targetAt p.target).grown = (s.targetAt p.target).grown + 1 ∧
      t.sto.badBlk = bump s.sto.badBlk ∧
      t.sto.confirmedSeq = s.sto.confirmedSeq ∧
      (∀ x ∈ t.sto.pages, x.target = p.target → x.block = p.block → x.id = p.id ∨ x.state ≠ .confirmed) ∧
      (∀ k, k ≠ p.target → t.targetAt k = s.targetAt k) ∧
      KeptBut [.sto, .peat] s t) ∧
  (∀ (s : State) (target : Nat) (pass : Bool),
    target ∈ s.sto.cutOps →
    ∃ t, exec (.programStatus target pass) s = .next t ∧
      t.sto = { s.sto with cutOps := s.sto.cutOps.filter (fun n => n != target) } ∧
      KeptBut [.sto] s t) ∧
  (∀ (s : State) (target : Nat) (o : NandOp),
    s.rst.dataUp = true →
    s.sto.state ≠ .formatting →
    s.sto.running target = some o →
    o.kind = .erase →
    ∃ t, exec (.eraseStatus target true) s = .next t ∧
      t.targetAt target = { s.targetAt target with
        erases := tput (s.targetAt target).erases o.obj (tget 0 (s.targetAt target).erases o.obj + 1)
        used := (s.targetAt target).used.filter (fun b => b != o.obj) } ∧
      (∀ k, k ≠ target → t.targetAt k = s.targetAt k) ∧
      t.sto.running target = none ∧
      t.sto.log = s.sto.log.filter (fun p => !(p.target == target && p.block == o.obj)) ∧
      t.sto.pages = s.sto.pages ∧
      KeptBut [.sto, .peat] s t) ∧
  (∀ (s : State) (target : Nat) (o : NandOp),
    s.rst.dataUp = true →
    s.sto.state ≠ .formatting →
    s.sto.running target = some o →
    o.kind = .erase →
    ∃ t, exec (.eraseStatus target false) s = .next t ∧
      t.sto.eraseFail = bump s.sto.eraseFail ∧
      o.obj ∈ (t.targetAt target).bad ∧ t.sto.badBlk = bump s.sto.badBlk ∧
      (∀ k, k ≠ target → t.targetAt k = s.targetAt k) ∧
      t.sto.running target = none ∧ t.sto.log = s.sto.log ∧
      KeptBut [.sto, .peat] s t) ∧
  (∀ (s : State) (target : Nat) (pass : Bool),
    s.sto.state = .formatting →
    (s.targetAt target).fitted = true →
    (s.targetAt target).fmtNext < (s.targetAt target).blocks →
    (tput s.sto.targets target ((s.targetAt target).formatBlock pass)).all (fun e => !e.2.fitted || decide (e.2.blocks ≤ e.2.fmtNext)) = false →
    ∃ t, exec (.eraseStatus target pass) s = .next t ∧
      t.targetAt target = (s.targetAt target).formatBlock pass ∧
      (∀ k, k ≠ target → t.targetAt k = s.targetAt k) ∧
      t.sto.state = .formatting ∧ t.sto.log = s.sto.log ∧
      KeptBut [.sto, .peat] s t) ∧
  (∀ (s : State) (target : Nat) (pass : Bool) (o : Outstanding),
    s.sto.state = .formatting →
    (s.targetAt target).fitted = true →
    (s.targetAt target).fmtNext < (s.targetAt target).blocks →
    (tput s.sto.targets target ((s.targetAt target).formatBlock pass)).all (fun e => !e.2.fitted || decide (e.2.blocks ≤ e.2.fmtNext)) = true →
    s.host.outst.find? (fun x => x.opcode == 0x0804) = some o →
    ∃ t, exec (.eraseStatus target pass) s = .next t ∧
      Completed s t o ⟨stOk, 0, [], [], false⟩ ∧
      t.host.outst = dropFirst (fun x => x.opcode == 0x0804) s.host.outst ∧ t.host.fetched = s.host.fetched ∧
      t.sto.state = .ready ∧ t.sto.formatted = true ∧ t.sto.own = true ∧ t.sto.log = [] ∧ t.sto.lostPkts = [] ∧
      KeptBut [.sto, .peat, .mbx, .requests, .window] s t) ∧
  (∀ (s : State) (target corrected : Nat) (lost : List Nat) (o : NandOp) (p : Page),
    s.rst.dataUp = true →
    s.sto.running target = some o →
    o.kind = .read ∧ o.prio ≠ 3 →
    s.sto.log.find? (fun x => x.logical == o.obj) = some p →
    lost.all (fun i => decide (p.pkts.length ≤ i)) = true →
    ∃ t, exec (.nandReadDone target corrected false lost) s = .next t ∧
      t.sto.rdCorr = bumpBy s.sto.rdCorr corrected ∧
      t.sto.reads = s.sto.reads.map (fun m => { m with loaded := insAsc m.loaded p.logical }) ∧
      t.sto.running target = none ∧
      t.sto.lostCnt = s.sto.lostCnt ∧ t.sto.targets = s.sto.targets ∧
      t.sto.log.map (fun x => (x.id, x.logical)) = s.sto.log.map (fun x => (x.id, x.logical)) ∧
      KeptBut [.sto, .peat] s t) ∧
  (∀ (s : State) (target corrected : Nat) (lost : List Nat) (o : NandOp) (p : Page),
    s.rst.dataUp = true →
    s.sto.running target = some o →
    o.kind = .read ∧ o.prio ≠ 3 →
    s.sto.log.find? (fun x => x.logical == o.obj) = some p →
    ∃ t, exec (.nandReadDone target corrected true lost) s = .next t ∧
      t.sto.rdCorr = bumpBy s.sto.rdCorr corrected ∧
      p.block ∈ (t.targetAt target).bad ∧ t.sto.badBlk = bump s.sto.badBlk ∧
      t.sto.reads = s.sto.reads.map (fun m => { m with loaded := insAsc m.loaded p.logical }) ∧
      t.sto.running target = none ∧
      KeptBut [.sto, .peat, .que] s t) ∧
  (∀ (s : State) (target : Nat),
    s.rst.dataUp = true →
    (s.sto.running target).isSome = true →
    ∃ t, exec (.targetTimeout target) s = .next t ∧
      t.sto.timeoutCnt = bump s.sto.timeoutCnt ∧
      t.sto.chanReset = insAsc s.sto.chanReset target ∧
      (∀ i, i < 8 → t.sto.running (8 * (target / 8) + i) = none) ∧
      (∀ p ∈ t.sto.pages, p.target / 8 = target / 8 → p.state ≠ .programming ∧ p.state ≠ .paused) ∧
      (t.targetAt target).timeouts = s.clk :: (s.targetAt target).timeouts.filter (fun c => decide (s.clk - c ≤ clocksPerHour)) ∧
      ((s.targetAt target).fitted = true → 3 ≤ (t.targetAt target).timeouts.length → (t.targetAt target).retired = true) ∧
      (∀ k, k ≠ target → t.targetAt k = s.targetAt k) ∧ t.sto.log = s.sto.log ∧
      KeptBut [.sto, .peat] s t) ∧
  (∀ (s : State) (target : Nat),
    target ∈ s.sto.chanReset →
    ∃ t, exec (.channelResetEnd target true) s = .next t ∧
      t.sto.chanReset = s.sto.chanReset.filter (fun n => n != target) ∧
      t.sto.pages = s.sto.pages ∧ t.sto.ops = s.sto.ops ∧ t.sto.targets = s.sto.targets ∧ t.sto.log = s.sto.log ∧
      KeptBut [.sto, .peat] s t) ∧
  (∀ (s : State) (target : Nat),
    target ∈ s.sto.chanReset →
    (s.targetAt target).fitted = true →
    ∃ t, exec (.channelResetEnd target false) s = .next t ∧
      t.sto.chanReset = s.sto.chanReset.filter (fun n => n != target) ∧
      (t.targetAt target).retired = true ∧
      (∀ k, k ≠ target → t.targetAt k = s.targetAt k) ∧ t.sto.log = s.sto.log ∧
      KeptBut [.sto, .peat] s t) ∧
  (∀ (s : State) (drain : Nat),
    s.rst.dataUp = true →
    drain < 16 →
    ∃ t, exec (.drainFault drain) s = .next t ∧
      t.sto.drainRst = bump s.sto.drainRst ∧
      t.sto.drainReset = tput s.sto.drainReset drain (s.clk + 400) ∧
      (∀ i, drain < 4 → i < 8 → t.sto.running (8 * drain + i) = none) ∧
      (4 ≤ drain → t.sto.ops = s.sto.ops ∧ t.sto.pages = s.sto.pages) ∧
      t.sto.log = s.sto.log ∧ t.sto.targets = s.sto.targets ∧
      KeptBut [.sto] s t) ∧
  (∀ (s : State) (busy : Bool) (mbps : Nat),
    ∃ t, exec (.rateMeasure busy mbps) s = .next t ∧
      t.sto = { s.sto with rate := if busy then min mbps 65535 else s.sto.rate, measured := busy } ∧
      KeptBut [.sto] s t) ∧
  (∀ (s : State),
    ∃ t, exec (.mapCheckpoint) s = .next t ∧
      (s.translates = true → s.sto.ckptDue = true → t.sto = { s.sto with ckptDue := false, sinceCkpt := 0 }) ∧
      (¬ (s.translates = true ∧ s.sto.ckptDue = true) → t.sto = s.sto) ∧
      KeptBut [.sto] s t)

/-- The acquisition commands edit the aux table, ask for conversions, checks, path tests and captures. -/
def Obligations.AcquisitionCommands : Prop :=
  (∀ (s : State) (r : Req) (grp first : Nat) (entries : List (BitVec 128)),
    Accepts s r 0x0A01 { standbyOk := false } →
    s.sets.frozen = false →
    grp < 16 ∧ s.hasGrp grp = true →
    entries ≠ [] →
    first + entries.length ≤ 64 →
    entries.all (fun e => !auxArm e) = true →
    ∃ t, exec (.acqAuxWrite r grp first entries) s = .next t ∧
      EditEnds s.leads s t r 0x0A01 [] ∧
      (∀ i, i < entries.length → tget 0#128 t.sets.maq.aux (64 * grp + first + i) = entries.getD i 0#128) ∧
      (∀ k, ¬ (64 * grp + first ≤ k ∧ k < 64 * grp + first + entries.length) → tget 0#128 t.sets.maq.aux k = tget 0#128 s.sets.maq.aux k) ∧
      t.sets.maqSeq = s.sets.maqSeq + 1#32 ∧ t.sets.valid = false ∧
      { t.sets with
        maq := { t.sets.maq with aux := s.sets.maq.aux }, maqSeq := s.sets.maqSeq
        valid := s.sets.valid } = s.sets ∧
      KeptBut [.mbx, .requests, .window, .sets, .twin] s t) ∧
  (∀ (s : State) (r : Req) (grp : Nat) (arm all : List (Nat × BitVec 128)),
    Accepts s r 0x0A02 {} →
    grp < 16 ∧ s.hasGrp grp = true →
    arm = auxOf s.sets.cast.auxArm grp →
    all = (auxOf s.sets.cast.aux grp).filter (fun e => !arm.any (fun a => a.1 == e.1)) ++ arm →
    ∃ t, exec (.acqAuxRead r grp) s = .next t ∧
      Answers s t r 0x0A02 ⟨stOk, 0, (leBytes 1 ((auxOf s.sets.cast.aux grp).filter (fun e => auxValid e.2)).length ++ leBytes 1 arm.length ++ leBytes 1 (s.grpAt grp).acq.auxClass), ((List.range 64).flatMap (fun i => leBytes 16 (((all.find? (fun e => e.1 == i)).map (fun e => e.2)).getD 0#128).toNat)), false⟩ ∧
      KeptBut [.mbx, .requests, .window] s t) ∧
  (∀ (s : State) (r : Req) (port : Nat),
    Accepts s r 0x0A03 { long := true } →
    port < 128 ∧ s.hasPort port = true →
    ∃ t, exec (.acqMeasNow r port 0 0 0 0 0) s = .next t ∧
      Waits s t r 0x0A03 port 0 0 ∧
      KeptBut [.requests] s t) ∧
  (∀ (s : State) (r : Req) (port auxsel span settle avg : Nat),
    Accepts s r 0x0A03 { long := true } →
    port < 128 ∧ s.hasPort port = true →
    auxsel < 16 →
    span < 4 →
    1 ≤ settle ∧ settle < 65536 →
    avg < 7 →
    (s.grpAt (port / 8)).acq.urg.length < 8 →
    ∃ t, exec (.acqMeasNow r port 1 auxsel span settle avg) s = .next t ∧
      Waits s t r 0x0A03 port 1 0 ∧
      t.grpAt (port / 8) = { s.grpAt (port / 8) with acq := { (s.grpAt (port / 8)).acq with
        urg := insertBy Urg.before
          ⟨2, port, auxsel, span, settle, avg, 65536 * r.mbx + r.tag.toNat, s.clk, ⟨0, 0, false, false, false, none⟩⟩
          (s.grpAt (port / 8)).acq.urg } } ∧
      OnlyGrp (port / 8) s t ∧
      KeptBut [.requests, .grp] s t) ∧
  (∀ (s : State) (r : Req) (grp slice : Nat),
    Accepts s r 0x0A04 { long := true } →
    grp < 16 ∧ s.hasGrp grp = true →
    slice ≤ 16 →
    (s.calAt grp).has 17 = true →
    ((s.grpAt grp).acq.checks.filter (fun c => !c.running)).length < 4 →
    ∃ t, exec (.acqShareCheck r grp slice) s = .next t ∧
      Waits s t r 0x0A04 grp slice 0 ∧
      t.grpAt grp = { s.grpAt grp with acq := { (s.grpAt grp).acq with
        checks := (s.grpAt grp).acq.checks ++ [⟨false, slice, r.mbx, r.tag, false⟩] } } ∧
      OnlyGrp grp s t ∧
      KeptBut [.requests, .grp] s t) ∧
  (∀ (s : State) (r : Req) (grp slice : Nat),
    Accepts s r 0x0A05 { long := true } →
    grp < 16 ∧ s.hasGrp grp = true →
    slice ≤ 16 →
    (s.calAt grp).has 17 = true →
    ((s.grpAt grp).acq.checks.filter (fun c => !c.running)).length < 4 →
    ∃ t, exec (.acqPathTest r grp slice) s = .next t ∧
      Waits s t r 0x0A05 grp slice 0 ∧
      t.grpAt grp = { s.grpAt grp with acq := { (s.grpAt grp).acq with
        checks := (s.grpAt grp).acq.checks ++ [⟨true, slice, r.mbx, r.tag, false⟩] } } ∧
      OnlyGrp grp s t ∧
      KeptBut [.requests, .grp] s t) ∧
  (∀ (s : State) (r : Req) (grp fig mask count : Nat) (start : DWord),
    Accepts s r 0x0A06 { long := true, needs := [5], standbyOk := false } →
    grp < 16 ∧ s.hasGrp grp = true →
    fig < 4096 ∧ s.defined fig = true →
    mask ≠ 0 ∧ mask < 2 ^ 18 →
    count ≠ 0 ∧ count ≤ 65536 →
    (s.grpAt grp).acq.cap = none →
    ∃ t, exec (.acqRawCapture r grp fig mask count start) s = .next t ∧
      Waits s t r 0x0A06 grp 0 0 ∧
      t.grpAt grp = { s.grpAt grp with acq := { (s.grpAt grp).acq with
        cap := some ⟨fig, mask, start, false, count, 0, 0#32, 0, r.mbx, r.tag, none⟩ } } ∧
      OnlyGrp grp s t ∧
      KeptBut [.requests, .grp] s t)

/-- MEAS_APERTURE, MEAS_SNAPSHOT and MEAS_TOTAL_CLEAR. -/
def Obligations.MeasurementCommands : Prop :=
  (∀ (s : State) (r : Req) (fig code : Nat) (start : DWord),
    Accepts s r 0x0B01 { needs := [5], standbyOk := false } →
    s.figBad fig = none →
    start = 0#64 ∨ mtLe s.mt.mt start = false →
    s.apFree fig (s.nextTick (s.grpOf fig)) = true →
    ∃ t, exec (.measAperture r fig code start) s = .next t ∧
      Answers s t r 0x0B01 ⟨stOk, 0, leBytes 1 (if (s.figAt fig).apOpen = none then 1 else 2), [], false⟩ ∧
      t.figAt fig = { s.figAt fig with
        apWait := some (apRequest s.mt.mt code 0xFFFF true (decide (start ≠ 0#64))) } ∧
      OnlyFig fig s t ∧
      KeptBut [.mbx, .requests, .window, .fig] s t) ∧
  (∀ (s : State) (r : Req) (fig code : Nat) (start : DWord),
    Accepts s r 0x0B01 { needs := [5], standbyOk := false } →
    s.figBad fig = none →
    start ≠ 0#64 ∧ mtLe s.mt.mt start = true →
    s.apFree fig start = true →
    ∃ t, exec (.measAperture r fig code start) s = .next t ∧
      Answers s t r 0x0B01 ⟨stOk, 0, leBytes 1 2, [], false⟩ ∧
      t.figAt fig = { s.figAt fig with apWait := some (apRequest start code 0xFFFF false false) } ∧
      OnlyFig fig s t ∧
      KeptBut [.mbx, .requests, .window, .fig] s t) ∧
  (∀ (s : State) (r : Req) (mask : BitVec 16),
    Accepts s r 0x0B02 { needs := [5] } →
    (setBits 16 mask.toNat).all s.hasGrp = true →
    ∃ t, exec (.measSnapshot r mask) s = .next t ∧
      t.misc = { s.misc with snaps := s.misc.snaps ++
        [⟨r.mbx, r.tag, mask, r.outLen, r.outAddr, s.mt.mt,
          1 + lmax ((List.range s.groups).map (fun g => (s.grpAt g).frames)), [], 0#64⟩] } ∧
      t.host.mbx = s.host.mbx ∧ t.host.outst = s.host.outst ∧ t.host.fetched = (s.take r).host.fetched ∧
      KeptBut [.requests, .misc] s t) ∧
  (∀ (s : State) (r : Req) (fig : Nat),
    Accepts s r 0x0B03 { needs := [5], standbyOk := false } →
    s.figBad fig = none →
    ∃ t, exec (.measTotalClear r fig) s = .next t ∧
      Answers s t r 0x0B03 ⟨stOk, 0, [], [], false⟩ ∧
      t.figAt fig = { s.figAt fig with totClear := true } ∧
      OnlyFig fig s t ∧
      KeptBut [.mbx, .requests, .window, .fig] s t)

/-- Coefficients and feedforward tables are edited; a tuning injection starts and is stopped. -/
def Obligations.LoopCommands : Prop :=
  (∀ (s : State) (r : Req) (fig : Nat) (block : BitVec 640),
    Accepts s r 0x0C01 { standbyOk := false } →
    s.sets.frozen = false →
    fig ∈ s.sets.maq.figs →
    coefBad block = none →
    ∃ t, exec (.loopCoefWrite r fig block) s = .next t ∧
      EditEnds s.leads s t r 0x0C01 [] ∧
      tget? t.sets.maq.coefs (4 * fig + cfLoop block) = some block ∧
      (∀ k, k ≠ 4 * fig + cfLoop block → tget? t.sets.maq.coefs k = tget? s.sets.maq.coefs k) ∧
      t.sets.maqSeq = s.sets.maqSeq + 1#32 ∧ t.sets.valid = false ∧
      { t.sets with
        maq := { t.sets.maq with coefs := s.sets.maq.coefs }, maqSeq := s.sets.maqSeq
        valid := s.sets.valid } = s.sets ∧
      KeptBut [.mbx, .requests, .window, .sets, .twin] s t) ∧
  (∀ (s : State) (r : Req) (fig mask : Nat) (held : List Nat),
    Accepts s r 0x0C02 {} →
    s.defined fig = true →
    mask < 16 →
    held = (List.range 4).filter (fun k => mask.testBit k && (tget? s.sets.cast.coefs (4 * fig + k)).isSome) →
    ∃ t, exec (.loopCoefRead r fig mask) s = .next t ∧
      Answers s t r 0x0C02 ⟨stOk, 0, leBytes 1 (nsum (held.map (fun k => 2 ^ k))),
        (held.flatMap (fun k => leBytes 80 ((tget? s.sets.cast.coefs (4 * fig + k)).getD 0#640).toNat)), false⟩ ∧
      KeptBut [.mbx, .requests, .window] s t) ∧
  (∀ (s : State) (r : Req) (port half : Nat) (table : List (BitVec 16)),
    Accepts s r 0x0C03 { standbyOk := false } →
    s.sets.frozen = false →
    s.ffBad port half = none →
    ∃ t, exec (.loopFfWrite r port half table) s = .next t ∧
      EditEnds s.leads s t r 0x0C03 [] ∧
      (∀ i, i < 256 → tget 0#16 t.sets.maq.ff (512 * port + 256 * half + i) = table.getD i 0#16) ∧
      (∀ k, ¬ (512 * port + 256 * half ≤ k ∧ k < 512 * port + 256 * half + 256) → tget 0#16 t.sets.maq.ff k = tget 0#16 s.sets.maq.ff k) ∧
      t.sets.maqSeq = s.sets.maqSeq + 1#32 ∧ t.sets.valid = false ∧
      { t.sets with
        maq := { t.sets.maq with ff := s.sets.maq.ff }, maqSeq := s.sets.maqSeq
        valid := s.sets.valid } = s.sets ∧
      KeptBut [.mbx, .requests, .window, .sets, .twin] s t) ∧
  (∀ (s : State) (r : Req) (port half : Nat),
    Accepts s r 0x0C04 {} →
    s.ffBad port half = none →
    ∃ t, exec (.loopFfRead r port half) s = .next t ∧
      Answers s t r 0x0C04 ⟨stOk, 0, [], ((List.range 256).flatMap (fun i => leBytes 2 (tget 0#16 s.sets.cast.ff (512 * port + 256 * half + i)).toNat)), false⟩ ∧
      KeptBut [.mbx, .requests, .window] s t) ∧
  (∀ (s : State) (r : Req) (fig member point wave prbsL dec : Nat) (amp : Int) (ftw n : Nat) (start : DWord) (p : Nat),
    Accepts s r 0x0C06 { long := true, standbyOk := false } →
    fig < 4096 ∧ s.defined fig = true →
    p = (if member = 0xFF then (s.members fig).headD 0 else member) →
    s.hasPort p = true ∧ p ∈ s.members fig →
    tuneBad point wave prbsL dec amp ftw n (tuneMost point) = none →
    s.serves p = some fig →
    loopsClosed (s.spAt p) = true →
    (s.grpAt (p / 8)).tune = none →
    ∃ t, exec (.tuneStart r fig member point wave prbsL dec amp ftw n start) s = .next t ∧
      Waits s t r 0x0C06 fig 0 0 ∧
      t.grpAt (p / 8) = { s.grpAt (p / 8) with
        tune := some ⟨fig, p, point == 1, wave, prbsL + 1, dec + 1, amp, ftw, n, start, 0#64, false, 0, 2 ^ (prbsTaps wave).1 - 1,
          [], 0, 0#64, 0, 0, r.mbx, r.tag, false, false, false⟩ } ∧
      OnlyGrp (p / 8) s t ∧
      KeptBut [.requests, .grp] s t) ∧
  (∀ (s : State) (r : Req) (grp : Nat) (x : Tune),
    Accepts s r 0x0C07 { standbyOk := false } →
    grp < 16 ∧ s.hasGrp grp = true →
    (s.grpAt grp).tune = some x →
    ∃ t, exec (.tuneStop r grp) s = .next t ∧
      Answers s t r 0x0C07 ⟨stOk, 0, [], [], false⟩ ∧
      t.grpAt grp = { s.grpAt grp with tune := some { x with stop := true } } ∧
      OnlyGrp grp s t ∧
      KeptBut [.mbx, .requests, .window, .grp] s t)

/-- TWIN_STATUS_READ, TWIN_DETACH and TWIN_ATTACH. -/
def Obligations.TwinCommands : Prop :=
  (∀ (s : State) (r : Req),
    Accepts s r 0x0901 {} →
    ∃ t, exec (.twinStatusRead r) s = .next t ∧
      Answers s t r 0x0901 ⟨stOk, 0, (leBytes 1 (roleCode s.twin.role) ++ leBytes 1 (linkCode s.twin.link) ++ leBytes 1 (bits s.rst.strap 3 2) ++ leBytes 1 (b2n (s.twin.last.any (fun b => b.digest == s.sets.digest))) ++ leBytes 4 s.twin.latency ++ leBytes 8 s.twin.partner.toNat ++ leBytes 4 s.twin.hbMiss.toNat), [], false⟩ ∧
      KeptBut [.mbx, .requests, .window] s t) ∧
  (∀ (s : State) (r : Req),
    Accepts s r 0x0902 { long := true } →
    s.pairStrap = true →
    s.paired = true →
    s.twin.attachBusy = false ∧ s.twin.handover = none ∧ s.sets.phase = 0 →
    s.host.outst.all (fun o => o.opcode != 0x0902 && o.opcode != 0x0903) = true →
    ∃ t, exec (.twinDetach r 0 0xA5) s = .next t ∧
      Waits s t r 0x0902 0 s.twin.fseq.toNat 0 ∧
      t.twin = { s.twin with
        fseq := s.twin.fseq + 1#32
        unacked := s.twin.unacked ++ [⟨s.twin.fseq, 0xA, 0⟩]
        lastSent := (0xA, s.twin.fseq) } ∧
      KeptBut [.requests] s t) ∧
  (∀ (s : State) (r : Req),
    Accepts s r 0x0902 { long := true } →
    s.pairStrap = true →
    s.paired = true ∧ s.twin.role = .active →
    s.twin.attachBusy = false ∧ s.twin.handover = none ∧ s.sets.phase = 0 →
    s.host.outst.all (fun o => o.opcode != 0x0902 && o.opcode != 0x0903) = true →
    ∃ t, exec (.twinDetach r 1 0xA5) s = .next t ∧
      Waits s t r 0x0902 1 0 0 ∧
      t.twin = { s.twin with
        handover := some ⟨s.mtAfter (cdiv (s.twin.latency + 4000) 5), 3, 0, 0#8, true, false⟩
        fseq := s.twin.fseq + 1#32
        unacked := s.twin.unacked ++ [⟨s.twin.fseq, 9, 0⟩]
        lastSent := (9, s.twin.fseq) } ∧
      KeptBut [.requests, .twin] s t) ∧
  (∀ (s : State) (r : Req),
    Accepts s r 0x0903 { long := true } →
    s.pairStrap = true →
    s.paired = true →
    ∃ t, exec (.twinAttach r) s = .next t ∧
      Answers s t r 0x0903 ⟨stOk, 0, [], [], false⟩ ∧
      KeptBut [.mbx, .requests, .window] s t) ∧
  (∀ (s : State) (r : Req),
    Accepts s r 0x0903 { long := true } →
    s.pairStrap = true →
    s.paired = false →
    ∃ t, exec (.twinAttach r) s = .next t ∧
      Waits s t r 0x0903 0 0 0 ∧
      t.twin = { s.twin with
        attempts := 0
        attachBusy := true
        trying := true
        train := if s.twin.trying then s.twin.train else .detect
        role := if s.twin.role = .detached then .negotiating else s.twin.role
        link := if s.twin.link = .split then .split else .training
        warm := s.twin.warm && s.twin.link == .split
        flags := s.twin.flags ||| bitAt (s.twin.role == .detached) 0 ||| bitAt (s.twin.link == .up) 1 } ∧
      KeptBut [.requests, .twin] s t)

/-- The supervision commands clear latches and trips, force a trip, ask for checks and report. -/
def Obligations.SupervisionCommands : Prop :=
  (∀ (s : State) (r : Req) (port mask : Nat),
    Accepts s r 0x0D01 {} →
    port < 128 ∧ s.hasPort port = true →
    mask < 16 →
    ∃ t, exec (.supMonClear r port mask) s = .next t ∧
      Answers s t r 0x0D01 ⟨stOk, 0, [], [], false⟩ ∧
      t.spAt port = { s.spAt port with sup := { (s.spAt port).sup with monDue := (s.spAt port).sup.monDue ||| mask } } ∧
      OnlySp port s t ∧
      KeptBut [.mbx, .requests, .window, .sp] s t) ∧
  (∀ (s : State) (r : Req) (port : Nat),
    Accepts s r 0x0D02 { standbyOk := false } →
    port < 128 ∧ s.hasPort port = true →
    (s.spAt port).sup.tripped = true →
    s.tripStands port = none →
    ∃ t, exec (.supTripClear r port) s = .next t ∧
      Answers s t r 0x0D02 ⟨stOk, 0, [], [], false⟩ ∧
      t.spAt port = { s.spAt port with sup := { (s.spAt port).sup with clearDue := true } } ∧
      OnlySp port s t ∧
      KeptBut [.mbx, .requests, .window, .sp] s t) ∧
  (∀ (s : State) (r : Req) (port : Nat),
    Accepts s r 0x0D02 { standbyOk := false } →
    port < 128 ∧ s.hasPort port = true →
    (s.spAt port).sup.tripped = false →
    ∃ t, exec (.supTripClear r port) s = .next t ∧
      Answers s t r 0x0D02 ⟨stOk, 0, [], [], false⟩ ∧
      KeptBut [.mbx, .requests, .window] s t) ∧
  (∀ (s : State) (r : Req) (port : Nat),
    Accepts s r 0x0D03 { standbyOk := false } →
    port < 128 ∧ s.hasPort port = true →
    tripLive (s.spAt port).force.out = true →
    ∃ t, exec (.supTripForce r port) s = .next t ∧
      Answers s t r 0x0D03 ⟨stOk, 0, [], [], false⟩ ∧
      t.spAt port = { s.spAt port with sup := { (s.spAt port).sup with force := true } } ∧
      OnlySp port s t ∧
      KeptBut [.mbx, .requests, .window, .sp] s t) ∧
  (∀ (s : State) (r : Req) (port : Nat),
    Accepts s r 0x0D04 { long := true, standbyOk := false } →
    port < 128 ∧ s.hasPort port = true →
    (s.spAt port).sup.leadCmd = none ∧ (s.spAt port).sup.checking = false →
    ∃ t, exec (.supLeadCheck r port) s = .next t ∧
      Waits s t r 0x0D04 port 0 0 ∧
      t.spAt port = { s.spAt port with sup := { (s.spAt port).sup with leadCmd := some (r.mbx, r.tag) } } ∧
      OnlySp port s t ∧
      KeptBut [.requests, .sp] s t) ∧
  (∀ (s : State) (r : Req) (port : Nat),
    Accepts s r 0x0D05 { standbyOk := false } →
    port < 128 ∧ s.hasPort port = true →
    (s.spAt port).sup.held = true →
    (s.spAt port).sup.releaseCmd = none →
    ∃ t, exec (.supHoldRelease r port) s = .next t ∧
      Waits s t r 0x0D05 port 0 0 ∧
      t.spAt port = { s.spAt port with sup := { (s.spAt port).sup with releaseCmd := some (r.mbx, r.tag) } } ∧
      OnlySp port s t ∧
      KeptBut [.requests, .sp] s t) ∧
  (∀ (s : State) (r : Req) (first count : Nat),
    Accepts s r 0x0D06 {} →
    first < 128 →
    count ≠ 0 ∧ first + count ≤ 128 →
    ∃ t, exec (.supStatusRead r first count) s = .next t ∧
      Answers s t r 0x0D06 ⟨stOk, 0, [], ((List.range count).flatMap (fun i => s.supRecord (first + i))), false⟩ ∧
      KeptBut [.mbx, .requests, .window] s t)

/-- The calibration commands start their runs, write the reference and report. -/
def Obligations.CalibrationCommands : Prop :=
  (∀ (s : State) (r : Req) (nominal : Int) (tol rs : Nat) (date : Word),
    Accepts s r 0x0E01 { long := true } →
    1000000000 ≤ nominal.natAbs ∧ nominal.natAbs ≤ 10500000000 →
    rs = 0 ∨ (1000000000 ≤ rs ∧ rs ≤ 10000000000) →
    2 ≤ s.cal.startStep →
    s.cal.ext = none ∧ s.twin.partnerCal = false →
    ∃ t, exec (.calExt r nominal tol rs date) s = .next t ∧
      Waits s t r 0x0E01 date.toNat 0 0 ∧
      t.cal = { s.cal with ext := some ⟨nominal, tol, rs, s.castN 0x17A 0⟩, isrcOn := false } ∧
      KeptBut [.requests, .cal] s t) ∧
  (∀ (s : State) (r : Req) (mask wait : BitVec 4),
    Accepts s r 0x0E02 { long := true } →
    mask ≠ 0#4 →
    mask &&& (s.cal.arbRun ||| s.cal.arbWait) = 0#4 →
    wait = (if s.cal.ext.isSome then mask else mask &&& s.cal.slotRun) →
    ∃ t, exec (.calArbSelf r mask) s = .next t ∧
      Waits s t r 0x0E02 mask.toNat 0 0 ∧
      t.cal = { s.cal with arbRun := s.cal.arbRun ||| (mask &&& ~~~wait), arbWait := s.cal.arbWait ||| wait } ∧
      KeptBut [.requests, .cal] s t) ∧
  (∀ (s : State) (r : Req),
    Accepts s r 0x0E02 { long := true } →
    ∃ t, exec (.calArbSelf r 0) s = .next t ∧
      Answers s t r 0x0E02 ⟨stOk, 0, [0#8], [], false⟩ ∧
      KeptBut [.mbx, .requests, .window] s t) ∧
  (∀ (s : State) (r : Req),
    Accepts s r 0x0E03 { long := true } →
    s.cal.mainsRun = none →
    s.priSeen = true →
    ∃ t, exec (.calMainsSelf r) s = .next t ∧
      Waits s t r 0x0E03 0 0 0 ∧
      t.cal = { s.cal with mainsRun := some 0, mainsFirst := none, mainsCause := 0 } ∧
      t.iso = { s.iso with mainsCalDue := true } ∧
      KeptBut [.requests, .cal, .iso] s t) ∧
  (∀ (s : State) (r : Req) (vRef iCal : Int) (date : Word),
    Accepts s r 0x0E04 {} →
    ((vRef - 7000000000) * 1000).natAbs ≤ 7000000000 →
    ((iCal - 1000000000) * 1000).natAbs ≤ 1000000000 →
    ∃ t, exec (.calRefWrite r vRef iCal date) s = .next t ∧
      Answers s t r 0x0E04 ⟨stOk, 0, [], [], false⟩ ∧
      t.cal = { s.cal with
        vRef := vRef, iCal := iCal, date := date, refMt := s.mt.mt, refSrc := 2
        arb := if vRef = s.cal.vRef then s.cal.arb else tmap (fun _ f =>
          { f with gain := rdiv ((1000000000 + f.gain) * s.cal.vRef) vRef.toNat - 1000000000 }) s.cal.arb } ∧
      KeptBut [.mbx, .requests, .window, .cal] s t) ∧
  (∀ (s : State) (r : Req),
    Accepts s r 0x0E05 { long := true } →
    2 ≤ s.cal.startStep →
    s.cal.slotDue = 0#4 ∧ s.cal.slotRun = 0#4 →
    ∃ t, exec (.calSpare r) s = .next t ∧
      Waits s t r 0x0E05 (presentBuses s.groups).toNat 0 0 ∧
      t.cal = { s.cal with slotDue := presentBuses s.groups } ∧
      KeptBut [.requests, .cal] s t) ∧
  (∀ (s : State) (r : Req) (mode : Nat),
    Accepts s r 0x0E06 {} →
    mode ≤ 2 →
    s.cal.ext = none ∧ s.twin.partnerCal = false →
    ∃ t, exec (.calIsrc r mode) s = .next t ∧
      Answers s t r 0x0E06 ⟨stOk, 0, (leBytes 4 (w32 s.cal.iCal).toNat), [], false⟩ ∧
      t.cal = { s.cal with isrcOn := mode != 0, isrcNeg := mode == 2 } ∧
      KeptBut [.mbx, .requests, .window, .cal] s t) ∧
  (∀ (s : State) (r : Req),
    Accepts s r 0x0E07 {} →
    ∃ t, exec (.calStatusRead r) s = .next t ∧
      Answers s t r 0x0E07 ⟨stOk, 0, [], (leBytes 4 s.calStatus.toNat ++ leBytes 4 s.cal.flags.toNat ++ (List.range 16).flatMap (fun g => leBytes 4 (s.calPass g).toNat) ++ leBytes 8 (BitVec.ofInt 64 s.cal.vRef).toNat ++ leBytes 4 (w32 s.cal.iCal).toNat ++ leBytes 4 s.cal.date.toNat), false⟩ ∧
      KeptBut [.mbx, .requests, .window] s t)

/-- The event fabric's commands route, mask, read and pulse. -/
def Obligations.EventCommands : Prop :=
  (∀ (s : State) (r : Req) (items : List (Nat × Nat)),
    Accepts s r 0x0F01 {} →
    items ≠ [] ∧ items.length ≤ 32 →
    firstBad s.routeBad 0 items = none →
    ∃ t, exec (.evtRoute r items) s = .next t ∧
      Answers s t r 0x0F01 ⟨stOk, 0, (leBytes 4 (s.fab.routeSeq + 1#32).toNat), [], false⟩ ∧
      (∀ c, t.fab.selOf c = ((items.reverse.find? (fun x => x.1 == c)).map (fun x => x.2)).getD (s.fab.selOf c)) ∧
      t.fab.routeSeq = s.fab.routeSeq + 1#32 ∧
      t.fab.masks = s.fab.masks ∧ t.fab.taps = s.fab.taps ∧
      KeptBut [.mbx, .requests, .window, .routes] s t) ∧
  (∀ (s : State) (r : Req) (sluice op : Nat) (codes : List Nat),
    Accepts s r 0x0F02 {} →
    sluice < 256 →
    op ≤ 2 →
    codes.length ≤ 32 →
    codes ≠ [] ∨ op = 2 →
    firstBad s.codeBad 0 codes = none →
    s.fab.taps.length + (s.fab.newTaps (maskAfter op (tget [] s.fab.masks sluice) codes)).length ≤ 64 →
    ∃ t, exec (.evtMask r sluice op codes) s = .next t ∧
      Answers s t r 0x0F02 ⟨stOk, 0, (leBytes 4 (s.fab.routeSeq + 1#32).toNat), [], false⟩ ∧
      tget [] t.fab.masks sluice = maskAfter op (tget [] s.fab.masks sluice) codes ∧
      (∀ k, k ≠ sluice → tget [] t.fab.masks k = tget [] s.fab.masks k) ∧
      t.fab.routeSeq = s.fab.routeSeq + 1#32 ∧
      t.fab.sel = s.fab.sel ∧
      KeptBut [.mbx, .requests, .window, .routes] s t) ∧
  (∀ (s : State) (r : Req) (first count : Nat),
    Accepts s r 0x0F03 {} →
    count ≠ 0 ∧ count ≤ 1024 →
    first + count ≤ 2048 →
    ∃ t, exec (.evtRead r 0 first count) s = .next t ∧
      Answers s t r 0x0F03 ⟨stOk, 0, (leBytes 4 s.fab.routeSeq.toNat ++ leBytes 2 count), ((List.range count).flatMap (fun i => leBytes 2 (s.fab.selOf (first + i)))), false⟩ ∧
      KeptBut [.mbx, .requests, .window] s t) ∧
  (∀ (s : State) (r : Req) (first count : Nat),
    Accepts s r 0x0F03 {} →
    count ≠ 0 ∧ count ≤ 1024 →
    first < 256 →
    ∃ t, exec (.evtRead r 1 first count) s = .next t ∧
      Answers s t r 0x0F03 ⟨stOk, 0, (leBytes 4 s.fab.routeSeq.toNat ++ leBytes 2 ((tget [] s.fab.masks first).take count).length), (((tget [] s.fab.masks first).take count).flatMap (fun c => leBytes 2 c)), false⟩ ∧
      KeptBut [.mbx, .requests, .window] s t) ∧
  (∀ (s : State) (r : Req) (first count : Nat),
    Accepts s r 0x0F03 {} →
    count ≠ 0 ∧ count ≤ 1024 →
    ∃ t, exec (.evtRead r 2 first count) s = .next t ∧
      Answers s t r 0x0F03 ⟨stOk, 0, (leBytes 4 s.fab.routeSeq.toNat ++ leBytes 2 64), ((List.range 64).flatMap (fun i => match tget? s.fab.taps i with
        | none => leBytes 4 0
        | some c => leBytes 2 c ++ leBytes 2 (s.fab.masks.filter (fun m => m.2.contains c)).length)), false⟩ ∧
      KeptBut [.mbx, .requests, .window] s t) ∧
  (∀ (s : State) (r : Req) (mask : BitVec 8),
    Accepts s r 0x0F04 {} →
    s.rst.ctrlUp = true →
    ∃ t, exec (.evtPulse r mask) s = .next t ∧
      Answers s t r 0x0F04 ⟨stOk, 0, [], [], false⟩ ∧
      (∀ n j, n < 8 → mask.getLsbD n = true → j < 256 → 0x908 + n ∈ tget [] s.fab.masks j →
        (tget 0#32 t.fab.seen (j / 32)).getLsbD (j % 32) = true) ∧
      (∀ n k, n < 8 → mask.getLsbD n = true → k < 32 → s.fab.selOf (0x1A0 + k) < 256 →
        0x908 + n ∈ tget [] s.fab.masks (s.fab.selOf (0x1A0 + k)) →
        (bump (tget 0#32 s.fab.cnt k)).toNat ≤ (tget 0#32 t.fab.cnt k).toNat) ∧
      KeptBut [.mbx, .requests, .window] s t) ∧
  (∀ (s : State) (r : Req) (mask : BitVec 8) (n k j : Nat),
    Accepts s r 0x0F04 {} →
    s.rst.ctrlUp = true ∧ s.fab.raised = [] →
    n < 8 ∧ mask.getLsbD n = true →
    k < 32 ∧ j < 256 →
    s.fab.sel = [(0x1A0 + k, j)] →
    tget [] s.fab.masks j = [0x908 + n] →
    ∃ t, exec (.evtPulse r mask) s = .next t ∧
      Answers s t r 0x0F04 ⟨stOk, 0, [], [], false⟩ ∧
      tget 0#32 t.fab.cnt k = bump (tget 0#32 s.fab.cnt k) ∧
      KeptBut [.mbx, .requests, .window] s t)

/-- ERR_RING_READ and ERR_FIRST_READ, RST_FUSE_PROGRAM and GRP_RESET. -/
def Obligations.ErrorFuseAndGroupCommands : Prop :=
  (∀ (s : State) (r : Req) (start : Word) (count : Nat),
    Accepts s r 0x1001 { needs := [6] } →
    count ≠ 0 ∧ count ≤ 2048 →
    s.fab.raised = [] →
    ∃ t, exec (.errRingRead r start count false) s = .next t ∧
      Answers s t r 0x1001 ⟨stOk, 0, (leBytes 2 (s.err.select start count).length ++ leBytes 2 0 ++ leBytes 4 ((s.err.ring.map (fun x => x.body.seq)).headD (s.err.newest + 1#32)).toNat ++ leBytes 4 s.err.newest.toNat ++ leBytes 4 s.err.lost.toNat), ((s.err.select start count).flatMap (fun x => x.body.bytes)), false⟩ ∧
      t.err = { s.err with
        ring := s.err.ring.map (fun x => if (s.err.select start count).any (fun y => y.body.seq == x.body.seq) then { x with closed := true } else x) } ∧
      KeptBut [.mbx, .requests, .window] s t) ∧
  (∀ (s : State) (r : Req) (start : Word) (count : Nat) (last : ErrEntry),
    Accepts s r 0x1001 { needs := [6] } →
    count ≠ 0 ∧ count ≤ 2048 →
    (s.err.select start count).getLast? = some last →
    s.err.storm = false →
    s.fab.raised = [] →
    ∃ t, exec (.errRingRead r start count true) s = .next t ∧
      Answers s t r 0x1001 ⟨stOk, 0, (leBytes 2 (s.err.select start count).length ++ leBytes 2 0 ++ leBytes 4 ((s.err.ring.map (fun x => x.body.seq)).headD (s.err.newest + 1#32)).toNat ++ leBytes 4 s.err.newest.toNat ++ leBytes 4 s.err.lost.toNat), ((s.err.select start count).flatMap (fun x => x.body.bytes)), false⟩ ∧
      t.err = { s.err with
        ring := (s.err.ring.map (fun x => if (s.err.select start count).any (fun y => y.body.seq == x.body.seq) then { x with closed := true } else x)).filter (fun x => !seqLe x.body.seq last.body.seq)
        ack := if seqLt s.err.ack last.body.seq then last.body.seq else s.err.ack } ∧
      KeptBut [.mbx, .requests, .window] s t) ∧
  (∀ (s : State) (r : Req) (start : Word) (count : Nat),
    Accepts s r 0x1001 { needs := [6] } →
    count ≠ 0 ∧ count ≤ 2048 →
    ∃ t, exec (.errRingRead r start count true) s = .next t ∧
      Answers s t r 0x1001 ⟨stOk, 0, (leBytes 2 (s.err.select start count).length ++ leBytes 2 0 ++ leBytes 4 ((s.err.ring.map (fun x => x.body.seq)).headD (s.err.newest + 1#32)).toNat ++ leBytes 4 s.err.newest.toNat ++ leBytes 4 s.err.lost.toNat), ((s.err.select start count).flatMap (fun x => x.body.bytes)), false⟩ ∧
      t.err.ack = (match (s.err.select start count).getLast? with
        | some last => if seqLt s.err.ack last.body.seq then last.body.seq else s.err.ack
        | none => s.err.ack) ∧
      KeptBut [.mbx, .requests, .window] s t) ∧
  (∀ (s : State) (r : Req),
    Accepts s r 0x1002 {} →
    s.fab.raised = [] →
    ∃ t, exec (.errFirstRead r) s = .next t ∧
      Answers s t r 0x1002 (match s.err.first with
        | some x => ⟨stOk, 0, leBytes 1 1, x.bytes, false⟩
        | none => ⟨stOk, 0, leBytes 1 0, List.replicate 32 0#8, false⟩) ∧
      t.err = { s.err with first := none } ∧
      KeptBut [.mbx, .requests, .window] s t) ∧
  (∀ (s : State) (r : Req) (map : Word) (lock : Bool),
    Accepts s r 0x1003 { long := true } →
    s.rst.fuseProgrammed.getLsbD 31 = false →
    (List.range 8).all (fuseFieldOk map) = true →
    ∃ t, exec (.rstFuseProgram r map lock 0xA5) s = .next t ∧
      Waits s t r 0x1003 (map.toNat % 2 ^ 24) (b2n lock) 0 ∧
      t.rst = s.rst ∧
      KeptBut [.requests] s t) ∧
  (∀ (s : State) (r : Req) (mask : BitVec 16),
    Accepts s r 0x1004 { long := true, standbyOk := false } →
    mask ≠ 0#16 →
    (setBits 16 mask.toNat).all (fun g => s.hasGrp g) = true →
    (List.range 128).all (fun p => !mask.getLsbD (p / 8) || (!tripLive (s.spAt p).force.out && !(s.spAt p).sup.tripped)) = true →
    ∃ t, exec (.grpReset r mask) s = .next t ∧
      Waits s t r 0x1004 mask.toNat 0 0 ∧
      (∀ g, g < 16 → t.grpAt g = { s.grpAt g with ctxDue := (s.grpAt g).ctxDue || (mask.getLsbD g && !(s.grpAt g).ctxReset) }) ∧
      t.sp = s.sp ∧
      KeptBut [.requests, .grp] s t) ∧
  (∀ (s : State) (r : Req) (mask : BitVec 16),
    Accepts s r 0x1004 { long := true, standbyOk := false } →
    mask ≠ 0#16 →
    (setBits 16 mask.toNat).all (fun g => s.hasGrp g) = true →
    ∃ t, exec (.grpReset r mask) s = .next t ∧
      t.host.outst.any (fun o => o.opcode == 0x1004 && o.mbx == r.mbx && o.tag == r.tag && o.obj == mask.toNat) = true ∧
      (∀ g, g < 16 → (t.grpAt g).ctxDue = ((s.grpAt g).ctxDue || (mask.getLsbD g && !(s.grpAt g).ctxReset))) ∧
      (∀ p, p < 128 → s.aside = false → mask.getLsbD (p / 8) = true → (s.grpAt (p / 8)).ctxReset = false →
        tripLive (s.spAt p).force.out = true →
        (t.spAt p).force.out = .tripped ∧ (t.spAt p).force.en = false ∧ (t.spAt p).sup.tripped = true) ∧
      KeptBut [.sp, .grp, .misc, .fig, .sets, .que, .mbx, .requests, .window, .free] s t)

/-- Two-half reads hold the high half, return it once, and go stale after. -/
def Obligations.TwoHalfReads : Prop :=
  (∀ (s : State) (port : Port) (offset : Nat),
    s.opens port = true →
    highsOf offset ≠ [] →
    offset ≠ 0x200 →
    ∃ t, exec (.twoHalfLowRead port offset) s = .next t ∧
      (match port with | .pcie => t.host.readPcie | .service => t.host.readSpi) = s.readReg port offset ∧
      (∀ o ∈ highsOf offset, tget? (t.host.holding port) o = some (s.readReg port o)) ∧
      (∀ p, p ≠ port → t.host.holding p = s.host.holding p) ∧
      KeptBut [.hostRegs] s t) ∧
  (∀ (s : State) (port : Port),
    s.opens port = true →
    ∃ t, exec (.twoHalfLowRead port 0x200) s = .next t ∧
      (match port with | .pcie => t.host.readPcie | .service => t.host.readSpi) = mtLow (s.mt.nowGen port + 1) s.mt.mt ∧
      tget? (t.host.holding port) 0x204 = some (mtHigh (s.mt.nowGen port + 1) s.mt.mt) ∧
      t.mt.nowGen port = (s.mt.nowGen port + 1) % 16 ∧
      t.mt.mt = s.mt.mt ∧ t.mt.state = s.mt.state ∧ t.mt.freq = s.mt.freq ∧
      KeptBut [.hostRegs, .mt] s t) ∧
  (∀ (s : State) (port : Port) (offset : Nat) (v : Word),
    s.opens port = true →
    isHigh offset = true →
    tget? (s.host.holding port) offset = some v →
    ∃ t, exec (.twoHalfHighRead port offset) s = .next t ∧
      (match port with | .pcie => t.host.readPcie | .service => t.host.readSpi) = v ∧
      tget? (t.host.holding port) offset = none ∧
      (∀ o, o ≠ offset → tget? (t.host.holding port) o = tget? (s.host.holding port) o) ∧
      KeptBut [.hostRegs] s t) ∧
  (∀ (s : State) (port : Port) (offset : Nat),
    s.opens port = true →
    isHigh offset = true →
    tget? (s.host.holding port) offset = none →
    ∃ t, exec (.twoHalfHighRead port offset) s = .next t ∧
      (match port with | .pcie => t.host.readPcie | .service => t.host.readSpi) = (s.readReg port offset ||| bitAt (s.hasStale offset) 27) ∧
      t.host.holding port = s.host.holding port ∧
      KeptBut [.hostRegs] s t)

/-- Select registers take their defined bits; single-purpose writes act on their own latch. -/
def Obligations.SelectAndLatchWrites : Prop :=
  (∀ (s : State) (port : Port) (offset : Nat) (value : Word),
    s.opens port = true →
    offset = 0x580 ∨ offset = 0x680 ∨ offset = 0x700 →
    ∃ t, exec (.selectRegisterWrite port offset value) s = .next t ∧
      t.sel = (if offset = 0x580 then { s.sel with fr := value &&& 0x7F#32 } else if offset = 0x680 then { s.sel with sup := value &&& 0x7F#32 } else { s.sel with swp := value &&& 0xFFF#32 }) ∧
      KeptBut [.sel] s t) ∧
  (∀ (s : State) (port : Port) (value : Word),
    s.opens port = true →
    ∃ t, exec (.selectRegisterWrite port 0x500 value) s = .next t ∧
      t.sel = { s.sel with mp := value &&& 0x7F#32 } ∧
      (∀ o, tget? (t.host.holding port) o = (if 0x500 ≤ o ∧ o < 0x580 then none else tget? (s.host.holding port) o)) ∧
      KeptBut [.sel, .hostRegs] s t) ∧
  (∀ (s : State) (port : Port) (value : Word),
    s.opens port = true →
    ∃ t, exec (.selectRegisterWrite port 0x600 value) s = .next t ∧
      t.sel = { s.sel with le := value &&& 0x37F#32 } ∧
      (∀ o, tget? (t.host.holding port) o = (if 0x600 ≤ o ∧ o < 0x640 then none else tget? (s.host.holding port) o)) ∧
      KeptBut [.sel, .hostRegs] s t) ∧
  (∀ (s : State) (port : Port) (value : Word),
    s.opens port = true →
    ∃ t, exec (.selectRegisterWrite port 0x804 value) s = .next t ∧
      t.fab.csel = value &&& 0x7FF#32 ∧ t.fab.masks = s.fab.masks ∧ t.fab.sel = s.fab.sel ∧
      KeptBut [.routes] s t) ∧
  (∀ (s : State) (port : Port) (value : Word),
    s.opens port = true →
    ∃ t, exec (.selectRegisterWrite port 0x980 value) s = .next t ∧
      t.que = { s.que with sel := value &&& 0x3FFFF#32 } ∧
      KeptBut [.que] s t) ∧
  (∀ (s : State) (n : Nat) (value : Word),
    n < 8 →
    ∃ t, exec (.fabPersistClear n value) s = .next t ∧
      tget 0#32 t.fab.persist n = tget 0#32 s.fab.persist n &&& ~~~value ∧
      (∀ k, k ≠ n → tget 0#32 t.fab.persist k = tget 0#32 s.fab.persist k) ∧
      t.fab.masks = s.fab.masks ∧ t.fab.sel = s.fab.sel ∧
      KeptBut [.routes] s t) ∧
  (∀ (s : State),
    s.fab.raised = [] →
    ∃ t, exec (.firstArm) s = .next t ∧
      t.err.first = none ∧ t.err.ring = s.err.ring ∧ t.err.newest = s.err.newest ∧
      KeptBut [] s t) ∧
  (∀ (s : State),
    s.rst.ctrlUp = true →
    ∃ t, exec (.relayFaultRetry) s = .next t ∧
      t.pfe = { s.pfe with faults := s.pfe.faults &&& ~~~0x80#32, pri := { s.pfe.pri with relayFault := false } } ∧
      KeptBut [.pfe] s t) ∧
  (∀ (s : State) (value : Word),
    s.rst.ctrlUp = true →
    s.hasPort s.sel.sup.toNat = true →
    ∃ t, exec (.supMonLatchWrite value) s = .next t ∧
      t.spAt s.sel.sup.toNat = { s.spAt s.sel.sup.toNat with sup := { (s.spAt s.sel.sup.toNat).sup with
        monDue := (s.spAt s.sel.sup.toNat).sup.monDue ||| value.toNat % 16 } } ∧
      OnlySp s.sel.sup.toNat s t ∧
      KeptBut [.sp] s t)

/-- Register writes by access code, and the service port's frames. -/
def Obligations.RegisterWrites : Prop :=
  (∀ (s : State) (port : Port) (offset size : Nat) (value : Word),
    s.opens port = true →
    offset < 0x10000 →
    size ≠ 4 ∨ offset % 4 ≠ 0 ∨ isReg offset = false →
    ∃ t, exec (.registerWrite port offset size value) s = .next t ∧
      t.host.flags = s.host.flags ||| 0x40#32 ∧
      KeptBut [.hostRegs] s t) ∧
  (∀ (s : State) (port : Port) (offset : Nat) (value : Word),
    s.opens port = true →
    s.fab.raised = [] →
    offset ∈ [0x14, 0x220, 0x784, 0x800, 0x994, 0xA04, 0xC04] ∨ (0x810 ≤ offset ∧ offset < 0x830 ∧ offset % 4 = 0) →
    ∃ t, exec (.registerWrite port offset 4 value) s = .next t ∧
      t.readReg port offset = s.readReg port offset &&& ~~~value ∧
      KeptBut [.hostRegs, .mt, .cal, .routes, .que, .sto, .twin] s t) ∧
  (∀ (s : State) (port : Port) (offset : Nat) (value : Word),
    s.opens port = true →
    s.fab.raised = [] →
    offset ∈ [0x18, 0x1C, 0x110, 0x118, 0x224, 0x228, 0x258, 0x25C, 0x538, 0x788, 0x91C, 0x998, 0x99C, 0x9BC, 0xC20, 0xC24, 0xC28,
      0xC2C, 0xC30, 0xD10, 0xD14] ∨
      (0xA24 ≤ offset ∧ offset < 0xA40 ∧ offset % 4 = 0) ∨ (0x880 ≤ offset ∧ offset < 0x900 ∧ offset % 4 = 0) →
    ∃ t, exec (.registerWrite port offset 4 value) s = .next t ∧
      t.readReg port offset = (if value = 0xFFFFFFFF#32 then 0#32 else s.readReg port offset) ∧
      KeptBut [.hostRegs, .peat, .mt, .pfe, .misc, .cal, .sets, .que, .sto, .twin] s t) ∧
  (∀ (s : State) (port : Port) (offset : Nat) (value : Word),
    s.opens port = true →
    (0x440 ≤ offset ∧ offset < 0x4C0 ∧ offset % 4 = 0) ∧ s.hasGrp (offset % 64 / 4) = true →
    ∃ t, exec (.registerWrite port offset 4 value) s = .next t ∧
      t.grpAt (offset % 64 / 4) = { s.grpAt (offset % 64 / 4) with
        w1c := (s.grpAt (offset % 64 / 4)).w1c ++ [⟨offset, 0, value⟩] } ∧
      OnlyGrp (offset % 64 / 4) s t ∧
      KeptBut [.grp] s t) ∧
  (∀ (s : State) (port : Port) (offset p : Nat) (value : Word),
    s.opens port = true →
    (offset ∈ [0x58C, 0x590, 0x594] ∧ p = s.sel.fr.toNat) ∨ (offset ∈ [0x60C, 0x620, 0x624] ∧ p = bits s.sel.le 6 0) ∨
      (offset ∈ [0x68C, 0x69C] ∧ p = s.sel.sup.toNat) →
    s.hasPort p = true →
    ∃ t, exec (.registerWrite port offset 4 value) s = .next t ∧
      t.grpAt (p / 8) = { s.grpAt (p / 8) with w1c := (s.grpAt (p / 8)).w1c ++ [⟨offset, p, value⟩] } ∧
      OnlyGrp (p / 8) s t ∧
      KeptBut [.grp] s t) ∧
  (∀ (s : State) (port : Port) (k : Nat) (value : Word),
    s.opens port = true →
    k < 16 →
    ∃ t, exec (.registerWrite port (0x140 + 4 * k) 4 value) s = .next t ∧
      t.peat.regs = tput s.peat.regs k value ∧
      t.peat.era = s.peat.era ∧ t.peat.history = s.peat.history ∧
      KeptBut [.peat] s t) ∧
  (∀ (s : State) (offset words : Nat),
    s.rst.spiUp = true →
    offset % 4 = 0 ∧ offset + 4 * words ≤ 0x10000 →
    ∃ t, exec (.spiReadFrame (BitVec.ofNat 32 offset) words) s = .next t ∧
      t.host.spi.executed = true ∧ t.host.spi.discarded = false ∧ t.host.spi.status = s.spiStatus ∧
      t.host.spi.miso.length = words ∧
      ((List.range words).all (fun i => (highsOf (offset + 4 * i)).isEmpty && !isHigh (offset + 4 * i)) = true →
        t.host.spi.miso = (List.range words).map (fun i => s.readReg .service (offset + 4 * i)) ∧ KeptBut [.hostRegs] s t) ∧
      KeptBut [.hostRegs, .mt] s t) ∧
  (∀ (s : State) (a words : Nat),
    s.rst.spiUp = true →
    a % 4 = 0 ∧ a + 4 * words ≤ 1048576 →
    ∃ t, exec (.spiReadFrame (BitVec.ofNat 32 (0x10000000 + a)) words) s = .next t ∧
      t.host.spi = ⟨true, false, (List.range words).map (fun i =>
        cellGet s.host.window (a + 4 * i + 3) ++ cellGet s.host.window (a + 4 * i + 2) ++
          cellGet s.host.window (a + 4 * i + 1) ++ cellGet s.host.window (a + 4 * i)), s.spiStatus⟩ ∧
      KeptBut [.hostRegs] s t) ∧
  (∀ (s : State) (address : Word) (words : Nat),
    s.rst.spiUp = true →
    frameOk address (4 * words) = false →
    ∃ t, exec (.spiReadFrame address words) s = .next t ∧
      t.host.spi = ⟨false, true, [], s.spiStatus⟩ ∧ t.host.flags = s.host.flags ||| 0x80#32 ∧
      KeptBut [.hostRegs] s t) ∧
  (∀ (s : State) (k : Nat) (b0 b1 b2 b3 : Byte),
    s.rst.spiUp = true →
    k < 16 →
    ∃ t, exec (.spiWriteFrame (BitVec.ofNat 32 (0x140 + 4 * k)) [b0, b1, b2, b3]) s = .next t ∧
      t.peat.regs = tput s.peat.regs k (b3 ++ b2 ++ b1 ++ b0) ∧
      t.host.spi = ⟨true, false, [], s.spiStatus⟩ ∧
      t.peat.era = s.peat.era ∧ t.peat.history = s.peat.history ∧
      KeptBut [.peat, .hostRegs] s t) ∧
  (∀ (s : State) (a : Nat) (data : List Byte),
    s.rst.spiUp = true →
    a % 4 = 0 ∧ data.length % 4 = 0 ∧ a + data.length ≤ 0x10000 →
    ∃ t, exec (.spiWriteFrame (BitVec.ofNat 32 a) data) s = .next t ∧
      t.host.spi = ⟨true, false, [], s.spiStatus⟩ ∧
      t.clk = s.clk ∧ t.pending = s.pending ∧ t.ident = s.ident) ∧
  (∀ (s : State) (a : Nat) (data : List Byte),
    s.rst.spiUp = true →
    a % 4 = 0 ∧ data.length % 4 = 0 ∧ a + data.length ≤ 1048576 →
    cellsWf s.host.window = true →
    ∃ t, exec (.spiWriteFrame (BitVec.ofNat 32 (0x10000000 + a)) data) s = .next t ∧
      (∀ i, i < data.length → cellGet t.host.window (a + i) = data.getD i 0#8) ∧
      (∀ x, ¬ (a ≤ x ∧ x < a + data.length) → cellGet t.host.window x = cellGet s.host.window x) ∧
      t.host.spi = ⟨true, false, [], s.spiStatus⟩ ∧ cellsWf t.host.window = true ∧
      KeptBut [.hostRegs, .window] s t) ∧
  (∀ (s : State) (address : Word) (data : List Byte),
    s.rst.spiUp = true →
    frameOk address data.length = false →
    ∃ t, exec (.spiWriteFrame address data) s = .next t ∧
      t.host.spi = ⟨false, true, [], s.spiStatus⟩ ∧ t.host.flags = s.host.flags ||| 0x80#32 ∧
      KeptBut [.hostRegs] s t)

/-- An asserted reset source joins the asserted and seen sets and the deepest level governs. -/
def Obligations.SourcesAssertTheirLevels : Prop :=
  (∀ (s : State),
    s.rst.asserted.getLsbD 0 = false →
    s.rst.ctrlUp = true ∨ (s.rst.mgmtUp = false ∧ s.rst.pll = false) →
    ∃ t, exec (.supply true) s = .next t ∧
      t.rst.asserted = s.rst.asserted ||| 1#8 ∧ t.rst.seen = s.rst.seen ||| 1#8 ∧
      t.rst.level = 0 ∧ t.rst.excursion = none ∧
      t.rst.margin = (if s.rst.excursion.isSome then s.rst.excursion else s.rst.margin) ∧
      t.rst.ctrlUp = false ∧ t.rst.mgmtUp = false ∧ t.rst.dataUp = false ∧ t.rst.pll = false) ∧
  (∀ (s : State),
    s.rst.asserted.getLsbD 0 = true →
    ∃ t, exec (.supply true) s = .next t ∧
      KeptBut [] s t) ∧
  (∀ (s : State),
    s.rst.asserted.getLsbD 6 = false →
    min (fuseLevel s.rst.fuse 6) s.rst.level ≤ 1 →
    s.rst.ctrlUp = true ∨ (s.rst.mgmtUp = false ∧ s.rst.pll = false) →
    ∃ t, exec (.clk) s = .next t ∧
      t.rst.asserted = s.rst.asserted ||| 64#8 ∧ t.rst.seen = s.rst.seen ||| 64#8 ∧
      t.rst.level = min (fuseLevel s.rst.fuse 6) s.rst.level ∧
      t.rst.ctrlUp = false ∧ t.rst.mgmtUp = false ∧ t.rst.dataUp = false ∧ t.rst.pll = false) ∧
  (∀ (s : State),
    s.rst.asserted.getLsbD 6 = false →
    ∃ t, exec (.clk) s = .next t ∧
      t.rst.asserted = s.rst.asserted ||| 64#8 ∧ t.rst.seen = s.rst.seen ||| 64#8 ∧
      t.rst.level = min (fuseLevel s.rst.fuse 6) s.rst.level) ∧
  (∀ (s : State),
    s.rst.asserted.getLsbD 6 = true →
    ∃ t, exec (.clk) s = .next t ∧
      KeptBut [] s t) ∧
  (∀ (s : State),
    s.rst.asserted.getLsbD 1 = false →
    ∃ t, exec (.rstIn true) s = .next t ∧
      t.rst.asserted = s.rst.asserted ||| 2#8 ∧ t.rst.seen = s.rst.seen ||| 2#8 ∧
      t.rst.level = min (fuseLevel s.rst.fuse 1) s.rst.level) ∧
  (∀ (s : State),
    s.rst.asserted.getLsbD 1 = false →
    min (fuseLevel s.rst.fuse 1) s.rst.level = 3 →
    ∃ t, exec (.rstIn true) s = .next t ∧
      t.rst.asserted = s.rst.asserted ||| 2#8 ∧ t.rst.seen = s.rst.seen ||| 2#8 ∧
      t.rst.level = 3 ∧ t.rst.mgmtUp = false ∧ t.rst.ctrlUp = s.rst.ctrlUp ∧ t.rst.dataUp = s.rst.dataUp ∧
      (∀ p, (t.spAt p).force = (s.spAt p).force ∧ (t.spAt p).loop = (s.spAt p).loop ∧ (t.spAt p).meas = (s.spAt p).meas) ∧
      KeptBut [.rst, .sets, .requests, .misc, .twin, .que, .sto, .grp, .sp, .cal, .mbx] s t) ∧
  (∀ (s : State),
    s.rst.asserted.getLsbD 1 = true →
    ∃ t, exec (.rstIn true) s = .next t ∧
      KeptBut [] s t) ∧
  (∀ (s : State),
    s.rst.asserted.getLsbD 2 = false →
    ∃ t, exec (.perst true) s = .next t ∧
      t.rst.asserted = s.rst.asserted ||| 4#8 ∧ t.rst.seen = s.rst.seen ||| 4#8 ∧
      t.rst.level = min (fuseLevel s.rst.fuse 2) s.rst.level ∧
      t.host.speed = 0 ∧ t.host.width = 0) ∧
  (∀ (s : State),
    s.rst.asserted.getLsbD 2 = false →
    min (fuseLevel s.rst.fuse 2) s.rst.level = 3 →
    ∃ t, exec (.perst true) s = .next t ∧
      t.rst.asserted = s.rst.asserted ||| 4#8 ∧ t.rst.seen = s.rst.seen ||| 4#8 ∧
      t.rst.level = 3 ∧ t.rst.mgmtUp = false ∧ t.rst.ctrlUp = s.rst.ctrlUp ∧ t.rst.dataUp = s.rst.dataUp ∧
      t.host.speed = 0 ∧ t.host.width = 0 ∧
      (∀ p, (t.spAt p).force = (s.spAt p).force ∧ (t.spAt p).loop = (s.spAt p).loop ∧ (t.spAt p).meas = (s.spAt p).meas) ∧
      KeptBut [.link, .rst, .sets, .requests, .misc, .twin, .que, .sto, .grp, .sp, .cal, .mbx] s t) ∧
  (∀ (s : State),
    s.rst.asserted.getLsbD 2 = true →
    ∃ t, exec (.perst true) s = .next t ∧
      KeptBut [] s t) ∧
  (∀ (s : State),
    s.rst.asserted.getLsbD 3 = false →
    s.rst.ctrlUp = true →
    ∃ t, exec (.wdog) s = .next t ∧
      t.rst.asserted = s.rst.asserted ||| 8#8 ∧ t.rst.seen = s.rst.seen ||| 8#8 ∧
      t.rst.level = min (fuseLevel s.rst.fuse 3) s.rst.level ∧
      t.peat.wdogCnt = bump s.peat.wdogCnt) ∧
  (∀ (s : State),
    s.rst.asserted.getLsbD 3 = false →
    s.rst.ctrlUp = true →
    min (fuseLevel s.rst.fuse 3) s.rst.level = 3 →
    ∃ t, exec (.wdog) s = .next t ∧
      t.rst.asserted = s.rst.asserted ||| 8#8 ∧ t.rst.seen = s.rst.seen ||| 8#8 ∧
      t.rst.level = 3 ∧ t.rst.mgmtUp = false ∧ t.rst.ctrlUp = s.rst.ctrlUp ∧ t.rst.dataUp = s.rst.dataUp ∧
      t.peat.wdogCnt = bump s.peat.wdogCnt ∧
      (∀ p, (t.spAt p).force = (s.spAt p).force ∧ (t.spAt p).loop = (s.spAt p).loop ∧ (t.spAt p).meas = (s.spAt p).meas) ∧
      KeptBut [.peat, .rst, .sets, .requests, .misc, .twin, .que, .sto, .grp, .sp, .cal, .mbx] s t) ∧
  (∀ (s : State),
    s.rst.asserted.getLsbD 3 = true →
    ∃ t, exec (.wdog) s = .next t ∧
      KeptBut [] s t) ∧
  (∀ (s : State),
    s.rst.asserted.getLsbD 7 = false →
    ∃ t, exec (.fatal) s = .next t ∧
      t.rst.asserted = s.rst.asserted ||| 128#8 ∧ t.rst.seen = s.rst.seen ||| 128#8 ∧
      t.rst.level = min (fuseLevel s.rst.fuse 7) s.rst.level) ∧
  (∀ (s : State),
    s.rst.asserted.getLsbD 7 = false →
    min (fuseLevel s.rst.fuse 7) s.rst.level = 3 →
    ∃ t, exec (.fatal) s = .next t ∧
      t.rst.asserted = s.rst.asserted ||| 128#8 ∧ t.rst.seen = s.rst.seen ||| 128#8 ∧
      t.rst.level = 3 ∧ t.rst.mgmtUp = false ∧ t.rst.ctrlUp = s.rst.ctrlUp ∧ t.rst.dataUp = s.rst.dataUp ∧
      (∀ p, (t.spAt p).force = (s.spAt p).force ∧ (t.spAt p).loop = (s.spAt p).loop ∧ (t.spAt p).meas = (s.spAt p).meas) ∧
      KeptBut [.rst, .sets, .requests, .misc, .twin, .que, .sto, .grp, .sp, .cal, .mbx] s t) ∧
  (∀ (s : State),
    s.rst.asserted.getLsbD 7 = true →
    ∃ t, exec (.fatal) s = .next t ∧
      KeptBut [] s t) ∧
  (∀ (s : State),
    s.rst.asserted.getLsbD 5 = false →
    ∃ t, exec (.dbgResetInstruction true) s = .next t ∧
      t.rst.asserted = s.rst.asserted ||| 32#8 ∧ t.rst.seen = s.rst.seen ||| 32#8 ∧
      t.rst.level = min (fuseLevel s.rst.fuse 5) s.rst.level) ∧
  (∀ (s : State),
    s.rst.asserted.getLsbD 5 = false →
    min (fuseLevel s.rst.fuse 5) s.rst.level = 3 →
    ∃ t, exec (.dbgResetInstruction true) s = .next t ∧
      t.rst.asserted = s.rst.asserted ||| 32#8 ∧ t.rst.seen = s.rst.seen ||| 32#8 ∧
      t.rst.level = 3 ∧ t.rst.mgmtUp = false ∧ t.rst.ctrlUp = s.rst.ctrlUp ∧ t.rst.dataUp = s.rst.dataUp ∧
      (∀ p, (t.spAt p).force = (s.spAt p).force ∧ (t.spAt p).loop = (s.spAt p).loop ∧ (t.spAt p).meas = (s.spAt p).meas) ∧
      KeptBut [.rst, .sets, .requests, .misc, .twin, .que, .sto, .grp, .sp, .cal, .mbx] s t) ∧
  (∀ (s : State),
    s.rst.asserted.getLsbD 5 = true →
    ∃ t, exec (.dbgResetInstruction true) s = .next t ∧
      KeptBut [] s t) ∧
  (∀ (s : State),
    ∃ t, exec (.dbgResetInstruction false) s = .next t ∧
      KeptBut [] s t)

/-- A source releases its own bit; the supply monitor keeps the lowest value and retention loss is remembered. -/
def Obligations.SourcesReleaseAndTheSupplyIsWatched : Prop :=
  (∀ (s : State),
    ∃ t, exec (.supply false) s = .next t ∧
      t.rst = { s.rst with asserted := s.rst.asserted &&& ~~~1#8 } ∧
      KeptBut [.rst] s t) ∧
  (∀ (s : State),
    ∃ t, exec (.rstIn false) s = .next t ∧
      t.rst = { s.rst with asserted := s.rst.asserted &&& ~~~2#8 } ∧
      KeptBut [.rst] s t) ∧
  (∀ (s : State),
    ∃ t, exec (.perst false) s = .next t ∧
      t.rst = { s.rst with asserted := s.rst.asserted &&& ~~~4#8 } ∧
      KeptBut [.rst] s t) ∧
  (∀ (s : State),
    ∃ t, exec (.clkRelease) s = .next t ∧
      t.rst = { s.rst with asserted := s.rst.asserted &&& ~~~0x40#8 } ∧
      KeptBut [.rst] s t) ∧
  (∀ (s : State) (source : Nat),
    source = 3 ∨ source = 4 ∨ source = 5 ∨ source = 7 →
    ∃ t, exec (.resetPulseEnd source) s = .next t ∧
      t.rst = { s.rst with asserted := s.rst.asserted &&& ~~~(BitVec.twoPow 8 source) } ∧
      KeptBut [.rst] s t) ∧
  (∀ (s : State) (mv : Nat),
    s.rst.asserted.getLsbD 0 = false →
    mv < 10800 →
    ∃ t, exec (.supplyMarginSample mv) s = .next t ∧
      t.rst = { s.rst with excursion := some (min mv (s.rst.excursion.getD mv)) } ∧
      KeptBut [.rst] s t) ∧
  (∀ (s : State) (mv : Nat),
    s.rst.asserted.getLsbD 0 = false →
    10800 < mv →
    ∃ t, exec (.supplyMarginSample mv) s = .next t ∧
      t.rst = { s.rst with excursion := none } ∧
      KeptBut [.rst] s t) ∧
  (∀ (s : State) (mv x : Nat),
    s.rst.asserted.getLsbD 0 = false ∧ s.rst.dataUp = true →
    10800 < mv →
    s.rst.excursion = some x →
    s.err.ring = [] →
    ∃ t, exec (.supplyMarginSample mv) s = .next t ∧
      t.rst = { s.rst with excursion := none } ∧
      (t.err.ring.head?.map (fun e => (e.body.code, e.body.d0))) = some (0x4201#16, BitVec.ofNat 32 x) ∧
      KeptBut [.rst] s t) ∧
  (∀ (s : State) (mv : Nat),
    s.rst.asserted.getLsbD 0 = true ∨ mv = 10800 →
    ∃ t, exec (.supplyMarginSample mv) s = .next t ∧
      KeptBut [] s t) ∧
  (∀ (s : State),
    s.rst.asserted.getLsbD 0 = true →
    ∃ t, exec (.vretLoss) s = .next t ∧
      t.peat.lostPower = true ∧ t.peat.signed = false ∧ t.peat.regs = [] ∧
      t.peat.history = s.peat.history ∧ t.peat.era = s.peat.era ∧ t.rst = { s.rst with margin := none } ∧
      KeptBut [.peat, .rst] s t) ∧
  (∀ (s : State) (n : Nat),
    n = 1 ∨ n = 2 ∨ n = 5 →
    ∃ t, exec (.testHold (some n)) s = .next t ∧
      t.rst = { s.rst with hold := some n } ∧
      KeptBut [.rst] s t) ∧
  (∀ (s : State),
    s.rst.dataUp = true ∨ s.rst.staging = false ∨ s.rst.mgmtUp = false ∨ s.rst.phase ≠ .running →
    ∃ t, exec (.testHold none) s = .next t ∧
      t.rst = { s.rst with hold := none } ∧
      KeptBut [.rst] s t) ∧
  (∀ (s : State),
    s.rst.dataUp = false ∧ s.rst.staging = true ∧ s.rst.mgmtUp = true ∧ s.rst.phase = .running →
    ∃ t, exec (.testHold none) s = .next t ∧
      t.rst = { s.rst with hold := none, dataUp := true } ∧
      t.clk = s.clk ∧ t.pending = s.pending ∧ t.ident = s.ident ∧
      KeptBut [.rst, .peat, .pfe, .que, .sto, .misc, .grp, .fig, .sp] s t)

/-- The control plane enters reset, the data plane stops and the stretch starts. -/
def Obligations.PlanesEnterReset : Prop :=
  (∀ (s : State),
    s.rst.phase = .ordered ∨ s.rst.phase = .orderedStretch →
    ∃ t, exec (.controlPlaneResetEntry) s = .next t ∧
      t.rst = { s.rst with
        phase := if s.rst.phase = .orderedStretch then .stretch else .inReset
        pll := false, ctrlUp := false, mgmtUp := false, spiUp := false, mireUp := false
        hold := none, resetN := false, booted := false } ∧
      t.mt = State.reset.mt ∧ t.sets = State.reset.sets ∧
      t.grp = [] ∧ t.fig = [] ∧ (∀ p, (t.spAt p).force = Force.init) ∧ t.host.speed = 0 ∧
      t.iso = { State.reset.iso with txValid := s.iso.txValid } ∧
      t.pfe = { State.reset.pfe with pri := s.pfe.pri } ∧
      (s.grp.all (fun e => e.2.trips.isEmpty) = true → s.que.q.all (fun e => e.2.due.isEmpty || qidStream e.1 != 2) = true →
        t.que.q = s.que.q ∧ t.sto.pages = s.sto.pages) ∧
      t.sto.log = s.sto.log ∧
      t.cal.fuse = s.cal.fuse ∧ t.cal.fuseArb = s.cal.fuseArb ∧ t.cal.fuseMains = s.cal.fuseMains ∧
      t.twin = State.reset.twin) ∧
  (∀ (s : State),
    s.rst.phase = .inReset ∨ s.rst.phase = .stretch →
    s.rst.level ≤ 1 →
    s.rst.ctrlUp = false →
    s.rst.dataUp = true →
    ∃ t, exec (.dataPlaneStop) s = .next t ∧
      t.rst.dataUp = false ∧ t.rst.staging = false ∧
      t.host.hdr = [] ∧ t.que.q = [] ∧ t.sto.ops = [] ∧
      t.sto.log = s.sto.log ∧ t.sto.logSeq = s.sto.logSeq ∧
      (s.rst.level = 0 → t.sto.pages = [] ∧ t.que.saved = [] ∧ t.rst.train = true) ∧
      (s.rst.level = 0 → s.fab.raised = [] → t.err.ring = []) ∧
      (s.rst.level = 1 → t.sto.pages = s.sto.pages.map Page.again ∧ t.rst.train = s.rst.train ∧
        t.que.saved = tmap (fun _ q => q.entry s.peat.era) s.que.q) ∧
      KeptBut [.rst, .que, .hdr, .grp, .sto] s t) ∧
  (∀ (s : State),
    s.rst.phase = .inReset →
    s.rst.asserted = 0#8 →
    ∃ t, exec (.stretchStart) s = .next t ∧
      t.rst = { s.rst with phase := .stretch } ∧
      KeptBut [.rst] s t) ∧
  (∀ (s : State),
    s.rst.phase = .ordered →
    s.rst.asserted = 0#8 →
    ∃ t, exec (.stretchStart) s = .next t ∧
      t.rst = { s.rst with phase := .orderedStretch } ∧
      KeptBut [.rst] s t)

/-- The exit from reset, PLL lock, staging DRAM, the management plane and the reads that follow. -/
def Obligations.TheStartRunsItsSteps : Prop :=
  (∀ (s : State) (found : ExitIn),
    s.rst.phase = .stretch →
    s.rst.asserted = 0#8 →
    2 ≤ s.rst.level →
    s.rst.ctrlUp = true →
    ∃ t, exec (.stretchEnd found) s = .next t ∧
      t.rst = { s.rst with
        cause := at32 s.rst.reqLevel 12 ||| at32 s.rst.level 8 ||| s.rst.seen.zeroExtend 32
        exits := [], seen := 0#8, reqLevel := 0, level := 4, startLevel := s.rst.level
        phase := .running, margin := none } ∧
      t.peat.rstCount = bump s.peat.rstCount ∧
      t.peat.history = ((s.rst.exits ++ [t.rst.cause]).reverse.map (fun c => (c.truncate 16, s.peat.era)) ++ s.peat.history).take 8 ∧
      KeptBut [.rst, .peat] s t) ∧
  (∀ (s : State) (found : ExitIn),
    s.rst.phase = .stretch →
    s.rst.asserted = 0#8 →
    2 ≤ s.rst.level →
    s.rst.ctrlUp = false →
    ∃ t, exec (.stretchEnd found) s = .next t ∧
      t.rst = { s.rst with
        cause := at32 s.rst.reqLevel 12 ||| at32 s.rst.level 8 ||| s.rst.seen.zeroExtend 32
        exits := s.rst.exits ++ [at32 s.rst.reqLevel 12 ||| at32 s.rst.level 8 ||| s.rst.seen.zeroExtend 32]
        seen := 0#8, reqLevel := 0, level := 4, startLevel := s.rst.level, phase := .running } ∧
      t.peat.rstCount = bump s.peat.rstCount ∧ t.peat.history = s.peat.history ∧
      KeptBut [.rst, .peat] s t) ∧
  (∀ (s : State) (found : ExitIn),
    s.rst.phase = .stretch →
    s.rst.asserted = 0#8 →
    s.rst.level = 0 ∧ s.rst.train = true →
    s.rst.ctrlUp = false ∧ s.rst.dataUp = false ∧ s.rst.staging = false →
    ∃ t, exec (.stretchEnd found) s = .next t ∧
      t.rst = { s.rst with
        cause := at32 s.rst.reqLevel 12 ||| at32 s.rst.level 8 ||| s.rst.seen.zeroExtend 32
        exits := s.rst.exits ++ [at32 s.rst.reqLevel 12 ||| at32 s.rst.level 8 ||| s.rst.seen.zeroExtend 32]
        seen := 0#8, reqLevel := 0, level := 4, startLevel := s.rst.level, phase := .running
        strap := strapWord found.strap, fuse := s.rst.fuseProgrammed } ∧
      t.peat.rstCount = bump s.peat.rstCount ∧ t.peat.history = s.peat.history ∧ t.peat.found = found.peat ∧
      KeptBut [.rst, .peat, .sto, .twin] s t) ∧
  (∀ (s : State) (found : ExitIn),
    s.rst.phase = .stretch →
    s.rst.asserted = 0#8 →
    s.rst.level = 1 →
    s.rst.ctrlUp = false ∧ s.rst.dataUp = false ∧ s.rst.staging = false →
    ∃ t, exec (.stretchEnd found) s = .next t ∧
      t.rst = { s.rst with
        cause := at32 s.rst.reqLevel 12 ||| at32 1 8 ||| s.rst.seen.zeroExtend 32
        exits := s.rst.exits ++ [at32 s.rst.reqLevel 12 ||| at32 1 8 ||| s.rst.seen.zeroExtend 32]
        seen := 0#8, reqLevel := 0, level := 4, startLevel := 1, phase := .running
        strap := strapWord found.strap, fuse := s.rst.fuseProgrammed } ∧
      t.peat.rstCount = bump s.peat.rstCount ∧ t.peat.history = s.peat.history ∧ t.peat.found = found.peat ∧
      KeptBut [.rst, .peat, .sto, .twin] s t) ∧
  (∀ (s : State),
    s.rst.phase = .running →
    s.rst.ctrlUp = false →
    s.rst.hold ≠ some 1 →
    s.peat.lostPower = false ∧ s.peat.signed = true ∧ s.peat.found.header = false →
    ∃ t, exec .pllLock s = .next t ∧
      t.rst = { s.rst with
        pll := true, ctrlUp := true, resetN := true, exits := []
        margin := if s.rst.exits = [] then s.rst.margin else none } ∧
      t.peat.era = (if s.peat.found.regions.getLsbD 1 then 0#32 else s.peat.era + 1#32) ∧
      t.mt = { s.mt with eraOk := !s.peat.found.regions.getLsbD 1 } ∧
      t.peat.history = (s.rst.exits.reverse.map (fun c => (c.truncate 16, t.peat.era)) ++
        (if s.peat.found.regions.getLsbD 0 then [] else s.peat.history)).take (if s.rst.exits = [] then s.peat.history.length else 8) ∧
      t.peat.regs = s.peat.regs ∧
      t.cal.arb = s.cal.fuseArb ∧ t.cal.mains = s.cal.fuseMains ∧
      t.iso = { s.iso with txValid := false } ∧
      KeptBut [.rst, .iso, .peat, .mt, .pfe, .que, .cal, .twin] s t) ∧
  (∀ (s : State),
    s.rst.phase = .running →
    s.rst.ctrlUp = false →
    s.rst.hold ≠ some 1 →
    s.peat.lostPower = true ∨ s.peat.signed = false ∨ s.peat.found.header = true →
    ∃ t, exec .pllLock s = .next t ∧
      t.rst.pll = true ∧ t.rst.ctrlUp = true ∧ t.rst.resetN = true ∧ t.rst.exits = [] ∧
      t.peat.era = 0#32 ∧ t.peat.rstCount = 1#32 ∧ t.peat.signed = true ∧ t.peat.lostPower = false ∧
      t.peat.status = (if s.peat.lostPower then 2#32 else 8#32) ∧ t.peat.ranges = [] ∧
      t.mt = { s.mt with eraOk := false } ∧
      t.que.lostAll = some (8, 0#32) ∧
      t.cal.arb = s.cal.fuseArb ∧ t.cal.mains = s.cal.fuseMains ∧
      t.iso = { s.iso with txValid := false } ∧
      KeptBut [.rst, .iso, .peat, .mt, .que, .cal, .twin] s t) ∧
  (∀ (s : State) (retained : Bool),
    s.rst.phase = .running →
    s.rst.ctrlUp = true ∧ s.rst.staging = false →
    retained ≠ s.rst.train →
    s.rst.hold ≠ some 1 ∧ s.rst.hold ≠ some 2 →
    ∃ t, exec (.stagingReady retained) s = .next t ∧
      t.rst = { s.rst with
        staging := true, train := false
        dataUp := s.rst.dataUp || (s.rst.mgmtUp && s.rst.hold != some 5) } ∧
      (s.rst.mgmtUp = false → KeptBut [.rst] s t) ∧
      KeptBut [.rst, .peat, .pfe, .que, .sto, .misc, .grp, .fig, .sp] s t) ∧
  (∀ (s : State),
    s.rst.phase = .running →
    s.rst.ctrlUp = true ∧ s.rst.mgmtUp = false →
    s.rst.hold ≠ some 1 ∧ s.rst.hold ≠ some 2 →
    ∃ t, exec (.mgmtBootDone) s = .next t ∧
      t.rst = { s.rst with
        mgmtUp := true, spiUp := true, booted := true
        dataUp := s.rst.dataUp || (s.rst.staging && s.rst.hold != some 5) } ∧
      (∀ n, n < 256 → t.mbxAt n = if (s.mbxAt n).state = .reset ∧ (s.mbxAt n).reason = 2 then s.mbxAt n else
        { Mbx.init with
          state := .reset, reason := 1, code := s.rst.cause.truncate 16
          port := (s.mbxAt n).port, owned := (s.mbxAt n).owned }) ∧
      t.host.mbxRst = bumpBy s.host.mbxRst 256 ∧ t.cal.cut = [] ∧
      (s.sets.copyDue = false → t.sets = s.sets) ∧
      (s.sets.copyDue = true → t.sets.copyDue = false ∧ t.sets.frozen = false ∧ t.sets.phase = 0 ∧ t.sets.cast = s.sets.cast ∧
        { t.sets.maq with descs := s.sets.cast.descs } = { (maquetteOf s.sets.cast) with descs := s.sets.cast.descs }) ∧
      (s.rst.staging = false → s.sets.copyDue = false → s.cal.cut = [] → KeptBut [.rst, .mbx, .hostRegs] s t) ∧
      KeptBut [.rst, .mbx, .hostRegs, .sets, .cal, .peat, .pfe, .que, .sto, .misc, .grp, .fig, .sp] s t) ∧
  (∀ (s : State) (grp : Nat) (reads : List (Nat × Option (BitVec 2048))),
    s.hasGrp grp = true →
    s.rst.phase = .running ∧ s.rst.ctrlUp = true →
    (s.grpAt grp).descDone = false →
    s.rst.hold ≠ some 1 ∧ s.rst.hold ≠ some 2 →
    s.pairStrap = false ∨ s.twin.role = .solo ∨ s.twin.role = .active →
    ∃ t, exec (.descReadsEnd grp reads) s = .next t ∧
      t.grpAt grp = { s.grpAt grp with descDone := true } ∧
      (∀ p, p / 8 = grp → t.spAt p = match ((reads.find? (fun r => r.1 == p)).map (fun r => r.2)).getD none with
        | none => { s.spAt p with eepromState := 0 }
        | some d => { s.spAt p with eeprom := d, eepromState := if descFault d = none then 1 else 2 }) ∧
      (∀ p, p / 8 = grp → tget? t.sets.maq.descs p = match tget? s.sets.maq.descs p with
        | some ⟨d, .written⟩ => some ⟨d, .written⟩
        | _ => t.offered p) ∧
      (∀ p, p / 8 ≠ grp → t.spAt p = s.spAt p ∧ tget? t.sets.maq.descs p = tget? s.sets.maq.descs p) ∧
      { t.sets with maq := { t.sets.maq with descs := s.sets.maq.descs } } = s.sets ∧
      OnlyGrp grp s t ∧
      KeptBut [.grp, .sp, .sets] s t) ∧
  (∀ (s : State) (scan : List NandScan),
    s.rst.dataUp = true ∧ s.rst.mgmtUp = true ∧ s.rst.mireUp = false →
    s.noMire = false →
    s.heldAt [1, 2, 5] = false →
    ∃ t, exec (.mireMapRebuilt scan) s = .next t ∧
      t.rst = { s.rst with mireUp := true } ∧
      t.sto.state = (if s.sto.state = .scanning then
        (if s.sto.formatted = true ∧ s.sto.own = true then (if t.sto.healthyCount = 0 then .failed else .ready) else .unformatted)
        else s.sto.state) ∧
      t.sto.log = s.sto.log ∧
      KeptBut [.rst, .sto, .peat, .que, .sets, .cal, .pfe] s t) ∧
  (∀ (s : State) (x : NandScan),
    s.rst.dataUp = true ∧ s.rst.mgmtUp = true ∧ s.rst.mireUp = false →
    s.noMire = false →
    s.heldAt [1, 2, 5] = false →
    ∃ t, exec (.mireMapRebuilt [x]) s = .next t ∧
      t.targetAt x.target = (if x.inLimits then
        { s.targetAt x.target with
          fitted := true, healthy := !(s.targetAt x.target).retired, luns := x.luns, blocks := x.blocks
          pagesPerBlock := x.pagesPerBlock, tprogUs := x.tprogUs
          bad := x.factoryBad.foldl insAsc (s.targetAt x.target).bad }
        else { s.targetAt x.target with fitted := false }) ∧
      (∀ n, n ≠ x.target → t.targetAt n = s.targetAt n) ∧
      KeptBut [.rst, .sto, .peat, .que, .sets, .cal, .pfe] s t)

/-- A group context reset starts when its ports are released, ends with its states cleared; the fuses are programmed. -/
def Obligations.GroupResetsAndFuses : Prop :=
  (∀ (s : State) (grp : Nat),
    s.grpRuns grp = true →
    (s.grpAt grp).ctxDue = true →
    (List.range 8).all (fun k => s.portReleased (8 * grp + k)) = true →
    ∃ t, exec (.groupContextResetStart grp) s = .next t ∧
      (t.grpAt grp).ctxReset = true ∧ (t.grpAt grp).ctxDue = false ∧ (t.grpAt grp).auxsel = 0 ∧
      (t.grpAt grp).acq.cap = none ∧ (t.grpAt grp).acq.urg = [] ∧ (t.grpAt grp).acq.urgRun = none ∧
      (t.grpAt grp).acq.checks = [] ∧ (t.grpAt grp).acq.run = none ∧ (t.grpAt grp).acq.comb = [] ∧
      (∀ k, k < 8 → (t.spAt (8 * grp + k)).force.site = 0 ∧ (t.spAt (8 * grp + k)).force.siteNext = none) ∧
      (t.grpAt grp).tick = (s.grpAt grp).tick ∧ (t.grpAt grp).trips = (s.grpAt grp).trips ∧
      KeptBut [.grp, .sp, .fig, .que, .sto, .peat, .cal, .mbx, .requests, .window, .free] s t) ∧
  (∀ (s : State) (grp : Nat),
    s.hasGrp grp = true →
    s.rst.ctrlUp = true →
    (s.grpAt grp).ctxReset = true →
    ∃ t, exec (.groupContextResetEnd grp) s = .next t ∧
      t.grpAt grp = { s.grpAt grp with
        ctxReset := false
        acq := { (s.grpAt grp).acq with
          edgeSeen := false, trigNow := false, railPrev := [], auxState := restState (s.grpAt grp).acq.auxStart
          run := none, passRan := false, due := [], dueCycle := [], interrupted := none } } ∧
      (∀ p, p / 8 = grp → (t.spAt p).meas = ((s.spAt p).contextCleared).meas ∧ (t.spAt p).loop = ((s.spAt p).contextCleared).loop ∧
        (t.spAt p).sup.model = Model.init ∧ (t.spAt p).sup.mon = (s.spAt p).sup.mon.map Mon.idle ∧
        ((s.spAt p).sup.tripped = false → t.spAt p = (s.spAt p).contextCleared)) ∧
      (∀ p, p / 8 ≠ grp → t.spAt p = s.spAt p) ∧
      OnlyGrp grp s t ∧
      ((s.host.outst.filter (fun o => o.opcode == 0x1004)) = [] → KeptBut [.grp, .sp, .cal] s t) ∧
      KeptBut [.grp, .sp, .cal, .mbx, .requests, .window] s t) ∧
  (∀ (s : State) (grp : Nat) (o : Outstanding),
    s.hasGrp grp = true →
    s.rst.ctrlUp = true →
    (s.grpAt grp).ctxReset = true →
    s.host.outst.filter (fun x => x.opcode == 0x1004) = [o] →
    o.obj = 2 ^ grp →
    ∃ t, exec (.groupContextResetEnd grp) s = .next t ∧
      (t.grpAt grp).ctxReset = false ∧
      Completed s t o ⟨stOk, 0, [], [], false⟩ ∧
      t.host.outst = s.host.outst.filter (fun x => x.opcode != 0x1004) ∧
      KeptBut [.grp, .sp, .cal, .mbx, .requests, .window] s t) ∧
  (∀ (s : State) (grp : Nat) (o : Outstanding),
    s.hasGrp grp = true →
    s.rst.ctrlUp = true →
    (s.grpAt grp).ctxReset = true →
    s.host.outst.filter (fun x => x.opcode == 0x1004) = [o] →
    o.obj.testBit grp = true ∧ o.obj ≠ 2 ^ grp →
    ∃ t, exec (.groupContextResetEnd grp) s = .next t ∧
      (t.grpAt grp).ctxReset = false ∧
      t.host.outst = s.host.outst.map (fun x => if x.opcode = 0x1004 then { x with obj := x.obj - 2 ^ grp } else x) ∧
      KeptBut [.grp, .sp, .cal, .requests] s t) ∧
  (∀ (s : State) (o : Outstanding) (lock : Word),
    s.rst.mgmtUp = true →
    s.host.outst.find? (fun x => x.opcode == 0x1003) = some o →
    lock = bitAt (o.aux == 1 || s.rst.fuseProgrammed.getLsbD 31) 31 →
    ∃ t, exec (.fuseProgramEnd) s = .next t ∧
      t.rst = { s.rst with fuseProgrammed := BitVec.ofNat 32 o.obj ||| lock, fuse := s.rst.fuse ||| lock } ∧
      Completed s t o ⟨stOk, 0, [], [], false⟩ ∧
      t.host.outst = dropFirst (fun x => x.opcode == 0x1003) s.host.outst ∧ t.host.fetched = s.host.fetched ∧
      KeptBut [.rst, .requests, .mbx, .window] s t)

/-- Start-up of the primary side and its faults, as Tables 5.1 and 5.2 give them. -/
def Obligations.ThePrimarySideStartsAndStops : Prop :=
  (∀ (s : State),
    s.pfe.pri.flyback = false →
    s.pfe.pri.overTemp = false →
    ∃ t, exec (.vccPStart) s = .next t ∧
      t.pfe = { s.pfe with
        pri := { Primary.init with
          flyback := true, relayFault := s.pfe.pri.relayFault, restart := s.pfe.pri.restart
          vbulk := s.pfe.pri.vbulk, frameErr := s.pfe.pri.frameErr } } ∧
      KeptBut [.pfe] s t) ∧
  (∀ (s : State),
    s.pfe.pri.flyback = true →
    ∃ t, exec (.vccPLow) s = .next t ∧
      t.pfe = { s.pfe with
        bulkOk := false
        pri := { s.pfe.pri with
          pfcRun := false, ocpRun := 0, flyback := false, auxSec := false, relayCmd := false, relay := false } } ∧
      KeptBut [.pfe] s t) ∧
  (∀ (s : State),
    s.pfe.pri.flyback = true →
    s.established = true →
    s.pfe.pri.isoFailed = false →
    ∃ t, exec (.auxSecondaryRegulation) s = .next t ∧
      t.pfe = { s.pfe with pri := { s.pfe.pri with auxSec := true } } ∧
      KeptBut [.pfe] s t) ∧
  (∀ (s : State) (v : Nat),
    s.pfe.vbulk = some v →
    s.rst.ctrlUp = true ∧ s.priSeen = true ∧ s.mt.mainsValid = true →
    s.pfe.pri.auxSec = true ∧ s.pfe.pri.relayFault = false ∧ s.iso.relayCmd = false →
    9 * s.pfe.linePeak ≤ 10 * v →
    ∃ t, exec (.relayClose) s = .next t ∧
      t.iso = { s.iso with relayCmd := true } ∧
      KeptBut [.iso] s t) ∧
  (∀ (s : State) (v : Nat),
    s.pfe.vbulk = some v →
    10 * v < 9 * s.pfe.linePeak ∨ s.pfe.pri.auxSec = false →
    ∃ t, exec (.relayClose) s = .next t ∧
      KeptBut [] s t) ∧
  (∀ (s : State) (sensed : Bool),
    s.pfe.pri.flyback = true →
    sensed = s.pfe.pri.relayCmd →
    s.pfe.pri.pfcRun = true ∨ s.pfe.pri.pfcEn = false ∨ sensed = false ∨ s.pfe.pri.relayFault = true ∨
      s.pfe.pri.lineLoss = true ∨ s.pfe.pri.overTemp = true ∨ s.pfe.pri.isoFailed = true ∨ s.clk < s.pfe.pri.restart →
    ∃ t, exec (.relayCheck sensed) s = .next t ∧
      t.pfe = { s.pfe with pri := { s.pfe.pri with relay := sensed } } ∧
      KeptBut [.pfe] s t) ∧
  (∀ (s : State),
    s.pfe.pri.flyback = true ∧ s.pfe.pri.relayCmd = true →
    s.pfe.pri.pfcRun = false ∧ s.pfe.pri.pfcEn = true ∧ s.pfe.pri.relayFault = false ∧
      s.pfe.pri.lineLoss = false ∧ s.pfe.pri.overTemp = false ∧ s.pfe.pri.isoFailed = false ∧ s.pfe.pri.restart ≤ s.clk →
    ∃ t, exec (.relayCheck true) s = .next t ∧
      t.pfe = { s.pfe with
        pri := { s.pfe.pri with relay := true, pfcRun := true, rampFrom := s.pfe.pri.vbulk, rampClk := s.clk } } ∧
      KeptBut [.pfe] s t) ∧
  (∀ (s : State) (sensed : Bool),
    s.pfe.pri.flyback = true →
    sensed ≠ s.pfe.pri.relayCmd →
    ∃ t, exec (.relayCheck sensed) s = .next t ∧
      t.pfe = { s.pfe with
        bulkOk := false
        pri := { s.pfe.pri with
          pfcRun := false, ocpRun := 0, relayCmd := false, relay := false, relayFault := true
          reports := s.pfe.pri.reports ||| 0x80#32 } } ∧
      KeptBut [.pfe] s t) ∧
  (∀ (s : State),
    s.rst.ctrlUp = true ∧ s.priSeen = true →
    s.pfe.pri.pfcRun = true →
    s.bulkInBand = true →
    ∃ t, exec (.bulkOkChange true) s = .next t ∧
      t.pfe = { s.pfe with bulkOk := true } ∧
      KeptBut [.pfe] s t) ∧
  (∀ (s : State),
    s.pfe.pri.pfcRun = false ∨ s.bulkInBand = false →
    ∃ t, exec (.bulkOkChange false) s = .next t ∧
      t.pfe = { s.pfe with bulkOk := false } ∧
      KeptBut [.pfe] s t) ∧
  (∀ (s : State),
    s.pfe.pri.pfcRun = true →
    63 ≤ s.pfe.pri.ocpRun →
    (s.clk - s.pfe.pri.ocpClk) * 2 * s.castN 0x123 0 ≤ 600000 →
    ∃ t, exec (.pfcOvercurrent) s = .next t ∧
      t.pfe = { s.pfe with
        bulkOk := false
        pri := { s.pfe.pri with
          pfcRun := false, ocpRun := 0, ocpClk := s.clk, ocpDue := s.pfe.pri.ocpDue + 1
          reports := s.pfe.pri.reports ||| 8#32, restart := s.clk + 200000000 } } ∧
      KeptBut [.pfe] s t) ∧
  (∀ (s : State),
    s.pfe.pri.pfcRun = true →
    s.pfe.pri.ocpRun < 63 →
    (s.clk - s.pfe.pri.ocpClk) * 2 * s.castN 0x123 0 ≤ 600000 →
    ∃ t, exec (.pfcOvercurrent) s = .next t ∧
      t.pfe = { s.pfe with
        pri := { s.pfe.pri with ocpRun := s.pfe.pri.ocpRun + 1, ocpClk := s.clk, ocpDue := s.pfe.pri.ocpDue + 1 } } ∧
      KeptBut [.pfe] s t) ∧
  (∀ (s : State),
    s.pfe.pri.pfcRun = true →
    600000 < (s.clk - s.pfe.pri.ocpClk) * 2 * s.castN 0x123 0 →
    ∃ t, exec (.pfcOvercurrent) s = .next t ∧
      t.pfe = { s.pfe with pri := { s.pfe.pri with ocpRun := 1, ocpClk := s.clk, ocpDue := s.pfe.pri.ocpDue + 1 } } ∧
      KeptBut [.pfe] s t) ∧
  (∀ (s : State),
    ∃ t, exec (.bulkOvervoltage true) s = .next t ∧
      t.pfe = { s.pfe with
        bulkOk := false
        pri := { s.pfe.pri with bulkOv := true, pfcHeld := true, reports := s.pfe.pri.reports ||| 0x10#32 } } ∧
      KeptBut [.pfe] s t) ∧
  (∀ (s : State),
    ∃ t, exec (.bulkOvervoltage false) s = .next t ∧
      t.pfe = { s.pfe with pri := { s.pfe.pri with bulkOv := false, pfcHeld := false } } ∧
      KeptBut [.pfe] s t) ∧
  (∀ (s : State),
    s.pfe.pri.pfcRun = true →
    s.pfe.vbulk = none ∨ s.pfe.vbulk.any (fun v => decide (v < 75 * s.castN 0x122 0)) = true →
    ∃ t, exec (.bulkUndervoltage) s = .next t ∧
      t.pfe = { s.pfe with
        bulkOk := false
        pri := { s.pfe.pri with
          pfcRun := false, ocpRun := 0, restart := s.clk + 20000000, reports := s.pfe.pri.reports ||| 0x20#32 } } ∧
      KeptBut [.pfe] s t) ∧
  (∀ (s : State),
    s.pfe.pri.flyback = true ∧ s.pfe.pri.lineLoss = false →
    ∃ t, exec (.lineLoss) s = .next t ∧
      t.pfe = { s.pfe with
        bulkOk := false
        pri := { s.pfe.pri with
          pfcRun := false, ocpRun := 0, lineLoss := true, relayCmd := false, relay := false
          reports := s.pfe.pri.reports ||| 4#32 } } ∧
      KeptBut [.pfe] s t) ∧
  (∀ (s : State),
    ∃ t, exec (.primaryOverTemperature true) s = .next t ∧
      t.pfe = { s.pfe with
        bulkOk := false
        pri := { s.pfe.pri with
          pfcRun := false, ocpRun := 0, flyback := false, auxSec := false, relayCmd := false, relay := false
          overTemp := true, reports := s.pfe.pri.reports ||| 0x40#32 } } ∧
      KeptBut [.pfe] s t) ∧
  (∀ (s : State),
    ∃ t, exec (.primaryOverTemperature false) s = .next t ∧
      t.pfe = { s.pfe with pri := { s.pfe.pri with overTemp := false } } ∧
      KeptBut [.pfe] s t) ∧
  (∀ (s : State) (v : Nat),
    tget? s.pfe.pri.params 0x129 = some v →
    s.pfe.vbulk = none ∨ s.pfe.vbulk.any (fun b => decide (b ≤ 100 * v)) = true →
    s.pfe.pri.flyback = true →
    ∃ t, exec (.flybackStop) s = .next t ∧
      t.pfe = { s.pfe with
        bulkOk := false
        pri := { s.pfe.pri with
          pfcRun := false, ocpRun := 0, flyback := false, auxSec := false, relayCmd := false, relay := false } } ∧
      KeptBut [.pfe] s t) ∧
  (∀ (s : State),
    tget? s.pfe.pri.params 0x129 = none →
    ∃ t, exec (.flybackStop) s = .next t ∧
      KeptBut [] s t) ∧
  (∀ (s : State),
    ∃ t, exec (.priWarn) s = .next t ∧
      KeptBut [] s t)

/-- Frames cross the isolation channel, bad ones are counted, and a failure starts the hold-up sequence. -/
def Obligations.TheIsolationChannelCarriesFrames : Prop :=
  (∀ (s : State),
    s.rst.ctrlUp = true →
    ∃ t, exec (.isoFrameSend) s = .next t ∧
      t.iso = { s.iso with
        flight := true
        sentAux := s.iso.auxErr
        sentPfcEn := s.castN 0x121 0 == 1
        sentBulkV := s.castN 0x122 0
        sentRelay := s.iso.relayCmd
        sentCal := s.iso.mainsCalDue
        sentParams := s.iso.paramsDue.map (fun i => (i, s.castN i 0))
        paramsDue := if s.pfe.pri.flyback = true then [] else s.iso.paramsDue
        mainsCalDue := false
        sent := s.iso.sent + 1 } ∧
      KeptBut [.iso] s t) ∧
  (∀ (s : State) (crcOk : Bool),
    s.iso.flight = true →
    s.pfe.pri.flyback = false ∨ crcOk = false →
    ∃ t, exec (.isoFrameReceive (.primary crcOk)) s = .next t ∧
      t.iso = { s.iso with flight := false } ∧
      t.pfe = { s.pfe with pri := { s.pfe.pri with
        frameErr := if s.pfe.pri.flyback = true then bump s.pfe.pri.frameErr else s.pfe.pri.frameErr } } ∧
      KeptBut [.iso, .pfe] s t) ∧
  (∀ (s : State) (close : Bool),
    s.iso.flight = true →
    s.pfe.pri.flyback = true →
    close = (!s.pfe.pri.isoFailed && s.iso.sentRelay && !s.pfe.pri.relaySeen && !s.pfe.pri.relayFault) →
    s.iso.sentPfcEn = true ∨ s.pfe.pri.pfcRun = false →
    ∃ t, exec (.isoFrameReceive (.primary true)) s = .next t ∧
      t.iso = { s.iso with flight := false, txValid := true } ∧
      t.pfe.pri.pfcEn = s.iso.sentPfcEn ∧ t.pfe.pri.setpoint = s.iso.sentBulkV ∧
      (∀ i, tget? t.pfe.pri.params i =
        (((s.iso.sentParams.reverse.find? (fun e => e.1 == i)).map (fun e => e.2)).or (tget? s.pfe.pri.params i))) ∧
      t.pfe.pri.relaySeen = (if s.pfe.pri.isoFailed = true then s.pfe.pri.relaySeen else s.iso.sentRelay) ∧
      t.pfe.pri.relayCmd = (s.pfe.pri.relayCmd || close) ∧
      t.pfe.pri.lineLoss = (s.pfe.pri.lineLoss && !close) ∧
      t.pfe.pri.pfcRun = (s.pfe.pri.pfcRun || (s.iso.sentPfcEn && s.pfe.pri.relay &&
        !s.pfe.pri.relayFault && !(s.pfe.pri.lineLoss && !close) && !s.pfe.pri.overTemp && !s.pfe.pri.isoFailed &&
        decide (s.pfe.pri.restart ≤ s.clk))) ∧
      (s.pfe.pri.pfcRun = true →
        t.pfe.pri.bulkSet s.clk = if s.iso.sentBulkV = s.pfe.pri.setpoint then s.pfe.pri.bulkSet s.clk
          else (s.pfe.pri.setTo s.iso.sentBulkV s.clk).bulkSet s.clk) ∧
      (s.pfe.pri.pfcRun = false → t.pfe.pri.pfcRun = true →
        t.pfe.pri.rampFrom = s.pfe.pri.vbulk ∧ t.pfe.pri.rampClk = s.clk) ∧
      t.pfe = { s.pfe with
        pri := { s.pfe.pri with
          pfcEn := t.pfe.pri.pfcEn, setpoint := t.pfe.pri.setpoint, params := t.pfe.pri.params
          relaySeen := t.pfe.pri.relaySeen, relayCmd := t.pfe.pri.relayCmd, lineLoss := t.pfe.pri.lineLoss
          pfcRun := t.pfe.pri.pfcRun, rampFrom := t.pfe.pri.rampFrom, rampClk := t.pfe.pri.rampClk } } ∧
      KeptBut [.iso, .pfe] s t) ∧
  (∀ (s : State),
    s.iso.flight = true →
    s.pfe.pri.flyback = true →
    s.iso.sentPfcEn = false ∧ s.pfe.pri.pfcRun = true →
    ∃ t, exec (.isoFrameReceive (.primary true)) s = .next t ∧
      t.iso = { s.iso with flight := false, txValid := true } ∧
      t.pfe.pri.pfcEn = false ∧ t.pfe.pri.pfcRun = false ∧ t.pfe.bulkOk = false ∧
      t.pfe.pri.setpoint = s.iso.sentBulkV ∧ t.pfe.pri.restart = s.pfe.pri.restart ∧ t.pfe.faults = s.pfe.faults ∧
      KeptBut [.iso, .pfe] s t) ∧
  (∀ (s : State) (crcOk : Bool),
    s.iso.flight = false →
    ∃ t, exec (.isoFrameReceive (.primary crcOk)) s = .next t ∧
      KeptBut [] s t) ∧
  (∀ (s : State) (auxFb : Nat),
    s.rst.ctrlUp = true →
    s.dcFed = true →
    ∃ t, exec (.isoFrameReceive (.secondary true auxFb)) s = .next t ∧
      t.iso = { s.iso with
        rxValid := true
        auxErr := clamp (-32768) 32767 (rdiv (5000 * (s.castN 0x130 0 : Int) - 24 * auxFb) 5000) } ∧
      KeptBut [.iso] s t) ∧
  (∀ (s : State) (auxFb : Nat),
    s.rst.ctrlUp = true →
    s.dcFed = false →
    s.pfe.pri.reports.getLsbD 2 = false ∨ s.pfe.everValid = false ∨ s.pfe.hu ≠ .normal →
    ∃ t, exec (.isoFrameReceive (.secondary true auxFb)) s = .next t ∧
      t.iso = { s.iso with
        rxValid := true, relayCmd := s.iso.relayCmd && decide (s.pfe.pri.reports &&& 0x84#32 = 0#32)
        auxErr := clamp (-32768) 32767 (rdiv (5000 * (s.castN 0x130 0 : Int) - 24 * auxFb) 5000) } ∧
      t.pfe = { s.pfe with
        faults := s.pfe.faults ||| s.pfe.pri.reports, ocpCnt := bumpBy s.pfe.ocpCnt s.pfe.pri.ocpDue
        pri := { s.pfe.pri with reports := 0#32, ocpDue := 0 } } ∧
      KeptBut [.iso, .pfe] s t) ∧
  (∀ (s : State) (auxFb : Nat),
    s.rst.ctrlUp = true →
    s.dcFed = false →
    s.pfe.pri.reports.getLsbD 2 = true ∧ s.pfe.everValid = true ∧ s.pfe.hu = .normal →
    s.pfe.vbulk = none ∨ s.pfe.eRes < s.pfe.eUse →
    ∃ t, exec (.isoFrameReceive (.secondary true auxFb)) s = .next t ∧
      t.iso = { s.iso with
        rxValid := true, relayCmd := false
        auxErr := clamp (-32768) 32767 (rdiv (5000 * (s.castN 0x130 0 : Int) - 24 * auxFb) 5000) } ∧
      t.pfe = { s.pfe with
        faults := s.pfe.faults ||| s.pfe.pri.reports ||| 1#32, ocpCnt := bumpBy s.pfe.ocpCnt s.pfe.pri.ocpDue
        pri := { s.pfe.pri with reports := 0#32, ocpDue := 0 }
        hu := .ride, huClk := s.clk } ∧
      t.peat.holdup = true ∧
      KeptBut [.iso, .pfe] s t) ∧
  (∀ (s : State) (auxFb : Nat),
    s.rst.ctrlUp = true →
    s.dcFed = false →
    s.pfe.pri.reports.getLsbD 2 = true ∧ s.pfe.everValid = true ∧ s.pfe.hu = .normal →
    s.pfe.vbulk ≠ none ∧ s.pfe.eUse ≤ s.pfe.eRes →
    ∃ t, exec (.isoFrameReceive (.secondary true auxFb)) s = .next t ∧
      t.iso = { s.iso with
        rxValid := true, relayCmd := false
        auxErr := clamp (-32768) 32767 (rdiv (5000 * (s.castN 0x130 0 : Int) - 24 * auxFb) 5000) } ∧
      t.pfe = { s.pfe with
        faults := s.pfe.faults ||| s.pfe.pri.reports ||| 1#32, ocpCnt := bumpBy s.pfe.ocpCnt s.pfe.pri.ocpDue
        pri := { s.pfe.pri with reports := 0#32, ocpDue := 0 }
        hu := .winddown, huClk := s.clk } ∧
      t.peat.holdup = true ∧
      (∀ f, (t.figAt f).enabled = false) ∧
      KeptBut [.iso, .pfe, .fig, .grp, .sp, .que, .cal, .requests, .mbx, .window, .misc, .free] s t) ∧
  (∀ (s : State) (auxFb : Nat),
    s.rst.ctrlUp = true →
    ∃ t, exec (.isoFrameReceive (.secondary false auxFb)) s = .next t ∧
      t.err.isoFrame = bump s.err.isoFrame ∧
      t.iso = { s.iso with
        auxErr := clamp (-32768) 32767 (rdiv (5000 * (s.castN 0x130 0 : Int) - 24 * auxFb) 5000) } ∧
      KeptBut [.iso] s t) ∧
  (∀ (s : State),
    s.rst.ctrlUp = true ∧ s.established = true ∧ s.iso.failed = false →
    s.dcFed = true ∨ s.pfe.everValid = false ∨ s.pfe.hu ≠ .normal →
    s.cal.mainsRun = none →
    ∃ t, exec (.isoChannelFail true) s = .next t ∧
      t.iso = { s.iso with failed := true } ∧
      t.pfe = { s.pfe with vbulk := none, linePeak := 0, lineRms := 0, temp := 0, eUse := 0, bulkOk := false } ∧
      t.mt.mainsValid = false ∧ t.mt.mt = s.mt.mt ∧ t.mt.cross = [] ∧
      t.mt.state = (match s.mt.state with
        | .locked => .holdover
        | .acquire => if s.mt.firstPull = true then .search else .holdover
        | x => x) ∧
      (s.mt.state = .locked → t.mt.isoLoss = true ∧ t.mt.flags = s.mt.flags ||| 0x26#32 ∧
        t.mt.unlockCnt = bump s.mt.unlockCnt ∧ t.mt.freq = BitVec.ofNat 32 s.mt.heldFreq) ∧
      KeptBut [.iso, .pfe, .mt, .fig] s t) ∧
  (∀ (s : State),
    s.rst.ctrlUp = true ∧ s.established = true ∧ s.iso.failed = false →
    s.dcFed = false ∧ s.pfe.everValid = true ∧ s.pfe.hu = .normal →
    ∃ t, exec (.isoChannelFail true) s = .next t ∧
      t.iso = { s.iso with failed := true } ∧
      t.pfe = { s.pfe with
        vbulk := none, linePeak := 0, lineRms := 0, temp := 0, eUse := 0, bulkOk := false
        faults := s.pfe.faults ||| 1#32, hu := .winddown, huClk := s.clk } ∧
      t.peat.holdup = true ∧ t.mt.mainsValid = false ∧ t.cal.mainsRun = none ∧
      (∀ f, (t.figAt f).enabled = false) ∧
      KeptBut [.mt, .iso, .pfe, .fig, .grp, .sp, .que, .cal, .requests, .mbx, .window, .misc, .free] s t) ∧
  (∀ (s : State) (ch : Nat) (o : Outstanding),
    s.rst.ctrlUp = true ∧ s.established = true ∧ s.iso.failed = false →
    s.dcFed = true ∨ s.pfe.everValid = false ∨ s.pfe.hu ≠ .normal →
    s.cal.mainsRun = some ch →
    s.host.outst.find? (fun x => x.opcode == 0x0E03) = some o →
    ∃ t, exec (.isoChannelFail true) s = .next t ∧
      t.iso = { s.iso with failed := true } ∧
      t.cal.mainsRun = none ∧ t.cal.flags = s.cal.flags ||| 0x90#32 ∧ t.cal.failCnt = bump s.cal.failCnt ∧
      Completed s t o { status := stCalFail, detail := calInterrupted } ∧
      t.host.outst = dropFirst (fun x => x.opcode == 0x0E03) s.host.outst ∧
      KeptBut [.iso, .pfe, .mt, .fig, .cal, .requests, .mbx, .window] s t) ∧
  (∀ (s : State),
    s.iso.txValid = true →
    s.pfe.pri.isoFailed = false →
    ∃ t, exec (.isoChannelFail false) s = .next t ∧
      t.pfe = { s.pfe with
        bulkOk := false
        pri := { s.pfe.pri with pfcRun := false, ocpRun := 0, isoFailed := true, auxSec := false } } ∧
      KeptBut [.pfe] s t) ∧
  (∀ (s : State),
    s.rst.ctrlUp = true ∧ s.iso.failed = true →
    ∃ t, exec (.isoChannelRestore true) s = .next t ∧
      t.iso = { s.iso with failed := false } ∧
      KeptBut [.iso] s t) ∧
  (∀ (s : State) (may : Bool),
    s.pfe.pri.isoFailed = true →
    may = (s.pfe.pri.pfcEn && s.pfe.pri.relay && s.pfe.pri.flyback && !s.pfe.pri.relayFault && !s.pfe.pri.lineLoss &&
      !s.pfe.pri.overTemp && decide (s.pfe.pri.restart ≤ s.clk) && !s.pfe.pri.pfcRun) →
    ∃ t, exec (.isoChannelRestore false) s = .next t ∧
      t.pfe = { s.pfe with
        pri := { s.pfe.pri with
          isoFailed := false, auxSec := s.pfe.pri.flyback, pfcRun := s.pfe.pri.pfcRun || may
          rampFrom := if may = true then s.pfe.pri.vbulk else s.pfe.pri.rampFrom
          rampClk := if may = true then s.clk else s.pfe.pri.rampClk } } ∧
      KeptBut [.pfe] s t)

/-- The hold-up sequence winds down, commits, is spent and is restored. -/
def Obligations.HoldupRunsItsStates : Prop :=
  (∀ (s : State) (vbulk : Option Nat) (linePeak lineRms : Nat) (temp : Int) (power average : Nat) (pAux pAvg eUse eRes : Nat),
    s.rst.ctrlUp = true ∧ s.priSeen = true →
    pAux = power * 65536 / max 1 (s.castN 0x12A 0) ∧ pAvg = average * 65536 / max 1 (s.castN 0x12A 0) →
    eUse = (vbulk.map (fun v => s.castN 0x127 0 * s.castN 0x128 0 *
      (v * v - 100 * s.castN 0x129 0 * (100 * s.castN 0x129 0)) / (65536 * 20000000))).getD 0 →
    eRes = (s.sto.staged * pAux / (max 1 s.sto.rate * 1000000) + (s.stagePower / 2 + pAux) * s.castN 0x12C 0 / 1000) *
      (100 + s.castN 0x12F 0) / 100 →
    s.pfe.hu ≠ .ride ∨ vbulk = none ∨ eRes < eUse →
    ∃ t, exec (.holdupEstimate vbulk linePeak lineRms temp ⟨power, average⟩) s = .next t ∧
      t.pfe = { s.pfe with
        vbulk := vbulk, linePeak := linePeak, lineRms := lineRms, temp := temp, pAux := pAux, pAvg := pAvg
        eUse := eUse, eRes := eRes, bMax := t.pfe.bMax
        derate := s.pfe.hu == .normal && decide (lineRms < 100 * s.castN 0x134 0)
        pri := { s.pfe.pri with vbulk := vbulk.getD s.pfe.pri.vbulk } } ∧
      (pAvg ≠ 0 → t.pfe.bMax = s.castN 0x12E 0 * s.sto.rate * 10 ^ 9 / pAvg ∧ t.free = s.free) ∧
      t.sto = { s.sto with
        intakeHeld := t.sto.intakeHeld, full := t.sto.full, nearFull := t.sto.nearFull, flags := t.sto.flags } ∧
      KeptBut [.pfe, .sto, .peat, .free] s t) ∧
  (∀ (s : State) (vbulk : Option Nat) (linePeak lineRms : Nat) (temp : Int) (power average : Nat),
    s.rst.ctrlUp = true ∧ s.priSeen = false →
    ∃ t, exec (.holdupEstimate vbulk linePeak lineRms temp ⟨power, average⟩) s = .next t ∧
      t.pfe.vbulk = none ∧ t.pfe.linePeak = 0 ∧ t.pfe.lineRms = 0 ∧ t.pfe.temp = 0 ∧ t.pfe.eUse = 0 ∧
      t.pfe.derate = false ∧ t.pfe.pAux = power * 65536 / max 1 (s.castN 0x12A 0) ∧
      t.pfe.hu = s.pfe.hu ∧ t.pfe.huClk = s.pfe.huClk ∧ t.pfe.faults = s.pfe.faults ∧ t.pfe.bulkOk = s.pfe.bulkOk ∧
      t.pfe.everValid = s.pfe.everValid ∧
      KeptBut [.pfe, .sto, .peat, .free] s t) ∧
  (∀ (s : State) (v linePeak lineRms : Nat) (temp : Int) (power average : Nat),
    s.rst.ctrlUp = true ∧ s.priSeen = true →
    s.pfe.hu = .ride →
    s.energyUse (some v) ≤ s.energyReserve (power * 65536 / max 1 (s.castN 0x12A 0)) →
    ∃ t, exec (.holdupEstimate (some v) linePeak lineRms temp ⟨power, average⟩) s = .next t ∧
      t.pfe.hu = .winddown ∧ t.pfe.huClk = s.clk ∧ t.pfe.vbulk = some v ∧ t.pfe.faults = s.pfe.faults ∧
      (∀ f, (t.figAt f).enabled = false) ∧
      KeptBut [.pfe, .sto, .peat, .fig, .grp, .sp, .que, .cal, .requests, .mbx, .window, .misc, .free] s t) ∧
  (∀ (s : State),
    s.pfe.hu = .ride →
    s.castN 0x12D 0 ≠ 0 →
    s.pfe.huClk + s.castN 0x12D 0 * clocksPerMs ≤ s.clk →
    ∃ t, exec (.rideTimeout) s = .next t ∧
      t.pfe = { s.pfe with hu := .winddown, huClk := s.clk } ∧
      (∀ f, (t.figAt f).enabled = false) ∧
      KeptBut [.pfe, .fig, .grp, .sp, .que, .cal, .requests, .mbx, .window, .misc, .free] s t) ∧
  (∀ (s : State),
    s.pfe.hu ≠ .ride ∨ s.castN 0x12D 0 = 0 ∨ s.clk < s.pfe.huClk + s.castN 0x12D 0 * clocksPerMs →
    ∃ t, exec (.rideTimeout) s = .next t ∧
      KeptBut [] s t) ∧
  (∀ (s : State),
    s.rst.ctrlUp = true →
    s.pfe.hu = .winddown →
    s.pfe.huClk + s.castN 0x12C 0 * clocksPerMs ≤ s.clk →
    ∃ t, exec (.commit) s = .next t ∧
      t.pfe = { s.pfe with hu := .commit, huClk := s.clk } ∧
      (s.aside = false → ∀ p,
        (s.spAt p).force.out = .rampDown ∨ (s.spAt p).force.out = .ramp ∨ (s.spAt p).force.out = .regulating →
          (s.spAt p).sup.tripped = false → (t.spAt p).force.out = .tripped ∧ (t.spAt p).sup.tripped = true) ∧
      (s.archiveOn = true → t.sto.state = .commit ∧ t.sto.reads = [] ∧
        t.sto.pages.all (fun p => decide (p.state ≠ .opened)) = true) ∧
      (s.archiveOn = false → t.sto = s.sto ∧ t.peat.ranges = s.peat.ranges) ∧
      KeptBut [.pfe, .sp, .grp, .misc, .fig, .sets, .que, .sto, .peat, .mbx, .requests, .window, .free] s t) ∧
  (∀ (s : State),
    s.rst.ctrlUp = true →
    s.pfe.hu = .winddown →
    s.clk < s.pfe.huClk + s.castN 0x12C 0 * clocksPerMs →
    ∃ t, exec (.commit) s = .next t ∧
      KeptBut [] s t) ∧
  (∀ (s : State),
    s.rst.ctrlUp = true →
    s.pfe.hu = .commit →
    s.sto.staged = 0 →
    ∃ t, exec (.commitEnd) s = .next t ∧
      t.pfe = { s.pfe with hu := .spent, huClk := s.clk } ∧
      (s.sto.state ≠ .commit → t.sto = s.sto) ∧
      (s.sto.state = .commit → t.sto = { s.sto with
        state := if s.sto.healthyCount = 0 then .failed else .ready, ckptDue := true }) ∧
      KeptBut [.pfe, .sto] s t) ∧
  (∀ (s : State) (v : Nat),
    s.rst.ctrlUp = true →
    s.pfe.hu = .commit →
    s.sto.staged ≠ 0 →
    s.pfe.vbulk = some v →
    v ≤ 100 * s.castN 0x129 0 →
    ∃ t, exec (.commitEnd) s = .next t ∧
      t.pfe = { s.pfe with hu := .spent, huClk := s.clk, faults := s.pfe.faults ||| 2#32 } ∧
      t.peat.commitShort = true ∧
      (s.sto.state ≠ .commit → t.sto = s.sto) ∧
      (s.sto.state = .commit → t.sto = { s.sto with
        state := if s.sto.healthyCount = 0 then .failed else .ready }) ∧
      KeptBut [.pfe, .sto] s t) ∧
  (∀ (s : State) (v : Nat),
    s.pfe.hu = .commit →
    s.sto.staged ≠ 0 →
    s.pfe.vbulk = some v →
    100 * s.castN 0x129 0 < v →
    ∃ t, exec (.commitEnd) s = .next t ∧
      KeptBut [] s t) ∧
  (∀ (s : State),
    s.pfe.hu = .ride →
    s.rst.ctrlUp = true ∧ s.dcFed = false ∧ s.mt.mainsValid = true ∧ s.pfe.pri.relay = true →
    s.castN 0x121 0 ≠ 1 ∨ s.pfe.pri.pfcRun = true →
    ∃ t, exec (.holdupRestore) s = .next t ∧
      t.pfe = { s.pfe with hu := .normal, huClk := s.clk, dropCnt := bump s.pfe.dropCnt } ∧
      KeptBut [.pfe] s t) ∧
  (∀ (s : State),
    s.pfe.hu = .spent →
    s.rst.ctrlUp = true ∧ s.dcFed = false ∧ s.mt.mainsValid = true ∧ s.pfe.pri.relay = true →
    s.castN 0x121 0 ≠ 1 ∨ s.pfe.bulkOk = true →
    ∃ t, exec (.holdupRestore) s = .next t ∧
      t.pfe = { s.pfe with hu := .normal, huClk := s.clk } ∧
      KeptBut [.pfe] s t) ∧
  (∀ (s : State),
    s.mt.mainsValid = false ∨ s.pfe.pri.relay = false ∨ s.pfe.hu = .winddown ∨ s.pfe.hu = .commit →
    ∃ t, exec (.holdupRestore) s = .next t ∧
      KeptBut [] s t) ∧
  (∀ (s : State),
    s.rst.ctrlUp = true →
    s.fab.arrived.contains 0x199 = true →
    s.dcFed = true →
    s.pfe.hu = .normal →
    ∃ t, exec (.dcFail) s = .next t ∧
      t.pfe = { s.pfe with hu := .winddown, huClk := s.clk, faults := s.pfe.faults ||| 1#32 } ∧
      t.peat.holdup = true ∧
      (∀ f, (t.figAt f).enabled = false) ∧
      KeptBut [.pfe, .fig, .grp, .sp, .que, .cal, .requests, .mbx, .window, .misc, .free] s t) ∧
  (∀ (s : State),
    s.dcFed = false ∨ s.pfe.hu ≠ .normal →
    ∃ t, exec (.dcFail) s = .next t ∧
      KeptBut [] s t) ∧
  (∀ (s : State) (control data staging : Int),
    s.rst.ctrlUp = true →
    control < 1250 ∧ data < 1250 ∧ staging < 1250 →
    ∃ t, exec (.dieTempRead control data staging) s = .next t ∧
      t.rst = { s.rst with
        dieTemp := [control, data, staging]
        dieHot := s.rst.dieHot && [control, data, staging].any (fun x => decide (1150 < x)) } ∧
      KeptBut [.rst] s t) ∧
  (∀ (s : State) (control data staging : Int),
    s.rst.ctrlUp = true →
    1250 ≤ control ∨ 1250 ≤ data ∨ 1250 ≤ staging →
    ∃ t, exec (.dieTempRead control data staging) s = .next t ∧
      t.rst = { s.rst with dieTemp := [control, data, staging], dieHot := true } ∧
      (s.aside = false → ∀ p, tripLive (s.spAt p).force.out = true → (s.spAt p).sup.tripped = false →
        (t.spAt p).force.out = .tripped ∧ (t.spAt p).sup.tripped = true) ∧
      KeptBut [.rst, .sp, .grp, .misc, .fig, .sets, .que, .mbx, .requests, .window, .free] s t)

/-- Mains crossings are accepted or rejected, the tracker follows them, mains is lost, and MT events, wraps and captures happen. -/
def Obligations.MainsTimeFollowsCrossings : Prop :=
  (∀ (s : State) (ago : Nat) (rising : Bool) (amplitude : Nat),
    s.rst.ctrlUp = true ∧ s.iso.failed = false →
    20 ≤ amplitude →
    amplitude < 60 ∨ s.mt.cross.head?.any (fun p => (p.rising == rising) ||
      decide (s.now10 - ago - p.t < 680000) || decide (1316000 < s.now10 - ago - p.t)) = true →
    ∃ t, exec (.mainsCrossing ago rising amplitude) s = .next t ∧
      t.mt = { s.mt with rejCnt := bump s.mt.rejCnt, flags := s.mt.flags ||| 8#32, validRun := 0, goodRun := 0, badRun := 0 } ∧
      KeptBut [.mt] s t) ∧
  (∀ (s : State) (ago : Nat) (rising : Bool) (amplitude : Nat),
    amplitude < 20 ∨ s.iso.failed = true →
    ∃ t, exec (.mainsCrossing ago rising amplitude) s = .next t ∧
      KeptBut [] s t) ∧
  (∀ (s : State) (ago : Nat) (rising : Bool) (amplitude : Nat),
    s.rst.ctrlUp = true ∧ s.iso.failed = false →
    60 ≤ amplitude ∧ s.mt.cross.head?.all (fun p => (p.rising != rising) &&
      decide (680000 ≤ s.now10 - ago - p.t) && decide (s.now10 - ago - p.t ≤ 1316000)) = true →
    s.mt.state = .virtual ∨ (s.mt.state ≠ .acquire ∧ s.mt.state ≠ .locked ∧ s.mt.mainsValid = false ∧ s.mt.validRun < 2) →
    ∃ t, exec (.mainsCrossing ago rising amplitude) s = .next t ∧
      t.mt.state = s.mt.state ∧ t.mt.freq = s.mt.freq ∧ t.mt.flags = s.mt.flags ∧
      t.mt.validRun = s.mt.validRun + 1 ∧ t.mt.mt = s.mt.mt ∧ t.mt.rejCnt = s.mt.rejCnt ∧
      t.mt.mainsValid = (s.mt.mainsValid || decide (3 ≤ s.mt.validRun + 1)) ∧
      t.mt.cross = ((⟨s.now10 - ago, rising⟩ : Crossing) :: s.mt.cross).take 5 ∧
      t.pfe = { s.pfe with
        everValid := s.pfe.everValid || t.mt.mainsValid
        pri := { s.pfe.pri with lineLoss := s.pfe.pri.lineLoss && !(t.mt.mainsValid && !s.mt.mainsValid) } } ∧
      KeptBut [.pfe, .mt, .fig] s t) ∧
  (∀ (s : State) (ago : Nat) (rising : Bool) (amplitude : Nat) (used : Int),
    s.rst.ctrlUp = true ∧ s.iso.failed = false →
    60 ≤ amplitude ∧ s.mt.cross.head?.all (fun p => (p.rising != rising) &&
      decide (680000 ≤ s.now10 - ago - p.t) && decide (s.now10 - ago - p.t ≤ 1316000)) = true →
    used = (if rising = true then s.phaseErr ago rising - rdiv s.mt.delta 2 else s.phaseErr ago rising + rdiv s.mt.delta 2) →
    s.mt.state = .search ∨ s.mt.state = .holdover →
    s.mt.mainsValid = true ∨ 2 ≤ s.mt.validRun →
    ∃ t, exec (.mainsCrossing ago rising amplitude) s = .next t ∧
      t.mt.state = .acquire ∧ t.mt.flags = s.mt.flags ∧ t.mt.goodRun = 0 ∧ t.mt.isoLoss = false ∧
      t.mt.linear = decide (used.natAbs ≤ 2 ^ 24) ∧
      (2 ^ 24 < used.natAbs → t.mt.slew = true ∧
        t.mt.freq = w32 (if 0 < used then
            (t.mt.fEst : Int) - (if s.mt.firstPull = true then t.mt.fEst / 4 else t.mt.fEst / 50 : Nat)
          else (t.mt.fEst : Int) + (if s.mt.firstPull = true then t.mt.fEst / 4 else t.mt.fEst / 50 : Nat))) ∧
      t.mt.validRun = s.mt.validRun + 1 ∧ t.mt.mt = s.mt.mt ∧ t.mt.rejCnt = s.mt.rejCnt ∧
      t.mt.mainsValid = (s.mt.mainsValid || decide (3 ≤ s.mt.validRun + 1)) ∧
      t.mt.cross = ((⟨s.now10 - ago, rising⟩ : Crossing) :: s.mt.cross).take 5 ∧
      t.pfe = { s.pfe with
        everValid := s.pfe.everValid || t.mt.mainsValid
        pri := { s.pfe.pri with lineLoss := s.pfe.pri.lineLoss && !(t.mt.mainsValid && !s.mt.mainsValid) } } ∧
      KeptBut [.pfe, .mt, .fig] s t) ∧
  (∀ (s : State) (ago : Nat) (rising : Bool) (amplitude : Nat) (delta used : Int),
    s.rst.ctrlUp = true ∧ s.iso.failed = false →
    60 ≤ amplitude ∧ s.mt.cross.head?.all (fun p => (p.rising != rising) &&
      decide (680000 ≤ s.now10 - ago - p.t) && decide (s.now10 - ago - p.t ≤ 1316000)) = true →
    delta = (if 1 ≤ s.mt.validRun then
      s.mt.delta + rdiv ((if rising = true then s.phaseErr ago rising - s.mt.lastErr else s.mt.lastErr - s.phaseErr ago rising) -
        s.mt.delta) 256 else s.mt.delta) →
    used = (if rising = true then s.phaseErr ago rising - rdiv delta 2 else s.phaseErr ago rising + rdiv delta 2) →
    s.mt.state = .acquire ∧ s.mt.linear = false ∧ 2 ^ 24 < used.natAbs →
    ∃ t, exec (.mainsCrossing ago rising amplitude) s = .next t ∧
      t.mt.state = .acquire ∧ t.mt.linear = false ∧ t.mt.slew = true ∧ t.mt.goodRun = 0 ∧
      t.mt.freq = w32 (if 0 < used then
          (t.mt.fEst : Int) - (if s.mt.firstPull = true then t.mt.fEst / 4 else t.mt.fEst / 50 : Nat)
        else (t.mt.fEst : Int) + (if s.mt.firstPull = true then t.mt.fEst / 4 else t.mt.fEst / 50 : Nat)) ∧
      t.mt.delta = delta ∧ t.mt.flags = s.mt.flags ∧
      t.mt.validRun = s.mt.validRun + 1 ∧ t.mt.mt = s.mt.mt ∧ t.mt.rejCnt = s.mt.rejCnt ∧
      t.mt.mainsValid = (s.mt.mainsValid || decide (3 ≤ s.mt.validRun + 1)) ∧
      t.mt.cross = ((⟨s.now10 - ago, rising⟩ : Crossing) :: s.mt.cross).take 5 ∧
      t.pfe = { s.pfe with
        everValid := s.pfe.everValid || t.mt.mainsValid
        pri := { s.pfe.pri with lineLoss := s.pfe.pri.lineLoss && !(t.mt.mainsValid && !s.mt.mainsValid) } } ∧
      KeptBut [.pfe, .mt, .fig] s t) ∧
  (∀ (s : State) (ago : Nat) (rising : Bool) (amplitude : Nat) (delta used : Int),
    s.rst.ctrlUp = true ∧ s.iso.failed = false →
    60 ≤ amplitude ∧ s.mt.cross.head?.all (fun p => (p.rising != rising) &&
      decide (680000 ≤ s.now10 - ago - p.t) && decide (s.now10 - ago - p.t ≤ 1316000)) = true →
    delta = (if 1 ≤ s.mt.validRun then
      s.mt.delta + rdiv ((if rising = true then s.phaseErr ago rising - s.mt.lastErr else s.mt.lastErr - s.phaseErr ago rising) -
        s.mt.delta) 256 else s.mt.delta) →
    used = (if rising = true then s.phaseErr ago rising - rdiv delta 2 else s.phaseErr ago rising + rdiv delta 2) →
    s.mt.state = .acquire →
    s.mt.linear = true ∨ used.natAbs ≤ 2 ^ 24 →
    2 ^ 20 < used.natAbs ∨ s.mt.goodRun < 3 →
    ∃ t, exec (.mainsCrossing ago rising amplitude) s = .next t ∧
      t.mt.state = .acquire ∧ t.mt.linear = true ∧ t.mt.firstPull = s.mt.firstPull ∧ t.mt.flags = s.mt.flags ∧
      t.mt.goodRun = (if used.natAbs ≤ 2 ^ 20 then s.mt.goodRun + 1 else 0) ∧
      t.mt.validRun = s.mt.validRun + 1 ∧ t.mt.mt = s.mt.mt ∧ t.mt.rejCnt = s.mt.rejCnt ∧
      t.mt.mainsValid = (s.mt.mainsValid || decide (3 ≤ s.mt.validRun + 1)) ∧
      t.mt.cross = ((⟨s.now10 - ago, rising⟩ : Crossing) :: s.mt.cross).take 5 ∧
      t.pfe = { s.pfe with
        everValid := s.pfe.everValid || t.mt.mainsValid
        pri := { s.pfe.pri with lineLoss := s.pfe.pri.lineLoss && !(t.mt.mainsValid && !s.mt.mainsValid) } } ∧
      KeptBut [.pfe, .mt, .fig] s t) ∧
  (∀ (s : State) (ago : Nat) (rising : Bool) (amplitude : Nat) (delta used : Int),
    s.rst.ctrlUp = true ∧ s.iso.failed = false →
    60 ≤ amplitude ∧ s.mt.cross.head?.all (fun p => (p.rising != rising) &&
      decide (680000 ≤ s.now10 - ago - p.t) && decide (s.now10 - ago - p.t ≤ 1316000)) = true →
    delta = (if 1 ≤ s.mt.validRun then
      s.mt.delta + rdiv ((if rising = true then s.phaseErr ago rising - s.mt.lastErr else s.mt.lastErr - s.phaseErr ago rising) -
        s.mt.delta) 256 else s.mt.delta) →
    used = (if rising = true then s.phaseErr ago rising - rdiv delta 2 else s.phaseErr ago rising + rdiv delta 2) →
    s.mt.state = .acquire →
    used.natAbs ≤ 2 ^ 20 ∧ 3 ≤ s.mt.goodRun →
    ∃ t, exec (.mainsCrossing ago rising amplitude) s = .next t ∧
      t.mt.state = .locked ∧ t.mt.firstPull = false ∧ t.mt.flags = s.mt.flags ||| 1#32 ∧ t.mt.goodRun = 0 ∧
      t.mt.validRun = s.mt.validRun + 1 ∧ t.mt.mt = s.mt.mt ∧ t.mt.rejCnt = s.mt.rejCnt ∧
      t.mt.mainsValid = (s.mt.mainsValid || decide (3 ≤ s.mt.validRun + 1)) ∧
      t.mt.cross = ((⟨s.now10 - ago, rising⟩ : Crossing) :: s.mt.cross).take 5 ∧
      t.pfe = { s.pfe with
        everValid := s.pfe.everValid || t.mt.mainsValid
        pri := { s.pfe.pri with lineLoss := s.pfe.pri.lineLoss && !(t.mt.mainsValid && !s.mt.mainsValid) } } ∧
      KeptBut [.pfe, .mt, .fig] s t) ∧
  (∀ (s : State) (ago : Nat) (rising : Bool) (amplitude : Nat) (delta used : Int),
    s.rst.ctrlUp = true ∧ s.iso.failed = false →
    60 ≤ amplitude ∧ s.mt.cross.head?.all (fun p => (p.rising != rising) &&
      decide (680000 ≤ s.now10 - ago - p.t) && decide (s.now10 - ago - p.t ≤ 1316000)) = true →
    delta = (if 1 ≤ s.mt.validRun then
      s.mt.delta + rdiv ((if rising = true then s.phaseErr ago rising - s.mt.lastErr else s.mt.lastErr - s.phaseErr ago rising) -
        s.mt.delta) 256 else s.mt.delta) →
    used = (if rising = true then s.phaseErr ago rising - rdiv delta 2 else s.phaseErr ago rising + rdiv delta 2) →
    s.mt.state = .locked →
    used.natAbs ≤ 2 ^ 27 ∨ s.mt.badRun < 3 →
    ∃ t, exec (.mainsCrossing ago rising amplitude) s = .next t ∧
      t.mt.state = .locked ∧ t.mt.flags = s.mt.flags ∧ t.mt.unlockCnt = s.mt.unlockCnt ∧
      t.mt.badRun = (if 2 ^ 27 < used.natAbs then s.mt.badRun + 1 else 0) ∧
      t.mt.validRun = s.mt.validRun + 1 ∧ t.mt.mt = s.mt.mt ∧ t.mt.rejCnt = s.mt.rejCnt ∧
      t.mt.mainsValid = (s.mt.mainsValid || decide (3 ≤ s.mt.validRun + 1)) ∧
      t.mt.cross = ((⟨s.now10 - ago, rising⟩ : Crossing) :: s.mt.cross).take 5 ∧
      t.pfe = { s.pfe with
        everValid := s.pfe.everValid || t.mt.mainsValid
        pri := { s.pfe.pri with lineLoss := s.pfe.pri.lineLoss && !(t.mt.mainsValid && !s.mt.mainsValid) } } ∧
      KeptBut [.pfe, .mt, .fig] s t) ∧
  (∀ (s : State) (ago : Nat) (rising : Bool) (amplitude : Nat) (delta used : Int),
    s.rst.ctrlUp = true ∧ s.iso.failed = false →
    60 ≤ amplitude ∧ s.mt.cross.head?.all (fun p => (p.rising != rising) &&
      decide (680000 ≤ s.now10 - ago - p.t) && decide (s.now10 - ago - p.t ≤ 1316000)) = true →
    delta = (if 1 ≤ s.mt.validRun then
      s.mt.delta + rdiv ((if rising = true then s.phaseErr ago rising - s.mt.lastErr else s.mt.lastErr - s.phaseErr ago rising) -
        s.mt.delta) 256 else s.mt.delta) →
    used = (if rising = true then s.phaseErr ago rising - rdiv delta 2 else s.phaseErr ago rising + rdiv delta 2) →
    s.mt.state = .locked →
    2 ^ 27 < used.natAbs ∧ 3 ≤ s.mt.badRun →
    ∃ t, exec (.mainsCrossing ago rising amplitude) s = .next t ∧
      t.mt.state = .acquire ∧ t.mt.flags = s.mt.flags ||| 2#32 ∧ t.mt.unlockCnt = bump s.mt.unlockCnt ∧
      t.mt.linear = false ∧ t.mt.slew = true ∧
      t.mt.validRun = s.mt.validRun + 1 ∧ t.mt.mt = s.mt.mt ∧ t.mt.rejCnt = s.mt.rejCnt ∧
      t.mt.mainsValid = (s.mt.mainsValid || decide (3 ≤ s.mt.validRun + 1)) ∧
      t.mt.cross = ((⟨s.now10 - ago, rising⟩ : Crossing) :: s.mt.cross).take 5 ∧
      t.pfe = { s.pfe with
        everValid := s.pfe.everValid || t.mt.mainsValid
        pri := { s.pfe.pri with lineLoss := s.pfe.pri.lineLoss && !(t.mt.mainsValid && !s.mt.mainsValid) } } ∧
      KeptBut [.pfe, .mt, .fig] s t) ∧
  (∀ (s : State),
    s.rst.ctrlUp = true →
    s.crossingLate = true →
    s.mt.mainsValid = false ∨ s.dcFed = true ∨ s.pfe.everValid = false ∨ s.pfe.hu ≠ .normal →
    ∃ t, exec (.mainsLost) s = .next t ∧
      t.mt.cross = [] ∧ t.mt.validRun = 0 ∧ t.mt.mainsValid = false ∧ t.mt.lineFreq = 0#32 ∧ t.mt.xnoise = 0#16 ∧
      t.mt.mt = s.mt.mt ∧
      (s.mt.state = .locked → t.mt.state = .holdover ∧ t.mt.freq = BitVec.ofNat 32 s.mt.heldFreq ∧
        t.mt.unlockCnt = bump s.mt.unlockCnt ∧ t.mt.flags = s.mt.flags ||| 6#32 ∧ t.mt.isoLoss = false ∧ t.mt.holdCyc = 0#32) ∧
      (s.mt.state = .acquire ∧ s.mt.firstPull = true → t.mt.state = .search ∧ t.mt.freq = s.cast 0x101 0 ∧ t.mt.flags = s.mt.flags) ∧
      (s.mt.state = .acquire ∧ s.mt.firstPull = false → t.mt.state = .holdover ∧ t.mt.freq = BitVec.ofNat 32 s.mt.heldFreq ∧
        t.mt.flags = s.mt.flags ||| 4#32 ∧ t.mt.unlockCnt = s.mt.unlockCnt ∧ t.mt.holdCyc = 0#32) ∧
      (s.mt.state = .virtual ∨ s.mt.state = .search ∨ s.mt.state = .holdover →
        t.mt.state = s.mt.state ∧ t.mt.freq = s.mt.freq ∧ t.mt.flags = s.mt.flags) ∧
      KeptBut [.mt, .fig] s t) ∧
  (∀ (s : State),
    s.rst.ctrlUp = true →
    s.crossingLate = true →
    s.mt.mainsValid = true ∧ s.dcFed = false ∧ s.pfe.everValid = true ∧ s.pfe.hu = .normal →
    s.pfe.vbulk = none ∨ s.pfe.eRes < s.pfe.eUse →
    ∃ t, exec (.mainsLost) s = .next t ∧
      t.mt.cross = [] ∧ t.mt.validRun = 0 ∧ t.mt.mainsValid = false ∧ t.mt.lineFreq = 0#32 ∧ t.mt.xnoise = 0#16 ∧
      t.mt.mt = s.mt.mt ∧
      (s.mt.state = .locked → t.mt.state = .holdover ∧ t.mt.freq = BitVec.ofNat 32 s.mt.heldFreq ∧
        t.mt.unlockCnt = bump s.mt.unlockCnt ∧ t.mt.flags = s.mt.flags ||| 6#32 ∧ t.mt.isoLoss = false ∧ t.mt.holdCyc = 0#32) ∧
      (s.mt.state = .acquire ∧ s.mt.firstPull = true → t.mt.state = .search ∧ t.mt.freq = s.cast 0x101 0 ∧ t.mt.flags = s.mt.flags) ∧
      (s.mt.state = .acquire ∧ s.mt.firstPull = false → t.mt.state = .holdover ∧ t.mt.freq = BitVec.ofNat 32 s.mt.heldFreq ∧
        t.mt.flags = s.mt.flags ||| 4#32 ∧ t.mt.unlockCnt = s.mt.unlockCnt ∧ t.mt.holdCyc = 0#32) ∧
      (s.mt.state = .virtual ∨ s.mt.state = .search ∨ s.mt.state = .holdover →
        t.mt.state = s.mt.state ∧ t.mt.freq = s.mt.freq ∧ t.mt.flags = s.mt.flags) ∧
      t.pfe = { s.pfe with faults := s.pfe.faults ||| 1#32, hu := .ride, huClk := s.clk } ∧
      t.peat.holdup = true ∧
      KeptBut [.mt, .fig, .pfe] s t) ∧
  (∀ (s : State),
    s.rst.ctrlUp = true →
    s.crossingLate = true →
    s.mt.mainsValid = true ∧ s.dcFed = false ∧ s.pfe.everValid = true ∧ s.pfe.hu = .normal →
    s.pfe.vbulk ≠ none ∧ s.pfe.eUse ≤ s.pfe.eRes →
    ∃ t, exec (.mainsLost) s = .next t ∧
      t.mt.cross = [] ∧ t.mt.validRun = 0 ∧ t.mt.mainsValid = false ∧ t.mt.lineFreq = 0#32 ∧ t.mt.xnoise = 0#16 ∧
      t.mt.mt = s.mt.mt ∧
      (s.mt.state = .locked → t.mt.state = .holdover ∧ t.mt.freq = BitVec.ofNat 32 s.mt.heldFreq ∧
        t.mt.unlockCnt = bump s.mt.unlockCnt ∧ t.mt.flags = s.mt.flags ||| 6#32 ∧ t.mt.isoLoss = false ∧ t.mt.holdCyc = 0#32) ∧
      (s.mt.state = .acquire ∧ s.mt.firstPull = true → t.mt.state = .search ∧ t.mt.freq = s.cast 0x101 0 ∧ t.mt.flags = s.mt.flags) ∧
      (s.mt.state = .acquire ∧ s.mt.firstPull = false → t.mt.state = .holdover ∧ t.mt.freq = BitVec.ofNat 32 s.mt.heldFreq ∧
        t.mt.flags = s.mt.flags ||| 4#32 ∧ t.mt.unlockCnt = s.mt.unlockCnt ∧ t.mt.holdCyc = 0#32) ∧
      (s.mt.state = .virtual ∨ s.mt.state = .search ∨ s.mt.state = .holdover →
        t.mt.state = s.mt.state ∧ t.mt.freq = s.mt.freq ∧ t.mt.flags = s.mt.flags) ∧
      t.pfe = { s.pfe with faults := s.pfe.faults ||| 1#32, hu := .winddown, huClk := s.clk } ∧
      t.peat.holdup = true ∧ (∀ f, (t.figAt f).enabled = false) ∧
      KeptBut [.mt, .pfe, .fig, .grp, .sp, .que, .cal, .requests, .mbx, .window, .misc, .free] s t) ∧
  (∀ (s : State),
    s.crossingLate = false →
    ∃ t, exec (.mainsLost) s = .next t ∧
      KeptBut [] s t) ∧
  (∀ (s : State),
    s.rst.ctrlUp = true →
    s.mt.state = .acquire ∧ s.mt.slew = true ∧ s.mt.linear = false →
    (if s.mt.freq.toNat < s.mt.fEst then s.predicted ≤ 0 else 0 ≤ s.predicted) →
    ∃ t, exec (.slewEnd) s = .next t ∧
      t.mt = { s.mt with freq := BitVec.ofNat 32 s.mt.fEst, slew := false } ∧
      KeptBut [.mt] s t) ∧
  (∀ (s : State),
    s.mt.state ≠ .acquire ∨ s.mt.slew = false ∨ s.mt.linear = true →
    ∃ t, exec (.slewEnd) s = .next t ∧
      KeptBut [] s t) ∧
  (∀ (s : State) (n : Nat),
    ∃ t, exec (.mtPhaseEvent n) s = .next t ∧
      KeptBut [] s t) ∧
  (∀ (s : State) (k j : Nat),
    s.rst.ctrlUp = true ∧ s.fab.raised = [] →
    s.passes 0 ≠ none →
    k < 32 ∧ j < 256 →
    s.fab.sel = [(0x1A0 + k, j)] →
    tget [] s.fab.masks j = [0x910] →
    ∃ t, exec (.mtPhaseEvent 0) s = .next t ∧
      tget 0#32 t.fab.cnt k = bump (tget 0#32 s.fab.cnt k) ∧
      KeptBut [] s t) ∧
  (∀ (s : State) (k j : Nat),
    s.rst.ctrlUp = true ∧ s.fab.raised = [] →
    s.passes 0x800000 ≠ none →
    k < 32 ∧ j < 256 →
    s.fab.sel = [(0x1A0 + k, j)] →
    tget [] s.fab.masks j = [0x911] →
    ∃ t, exec (.mtPhaseEvent 1) s = .next t ∧
      tget 0#32 t.fab.cnt k = bump (tget 0#32 s.fab.cnt k) ∧
      KeptBut [] s t) ∧
  (∀ (s : State) (k j n : Nat),
    s.rst.ctrlUp = true ∧ s.fab.raised = [] →
    n < 4 →
    s.live (0x113 + 4 * n) 0 = 1#32 →
    (s.passes (s.live (0x110 + 4 * n) 0).toNat).any (fun c =>
      c % (s.live (0x111 + 4 * n) 0).toNat == (s.live (0x112 + 4 * n) 0).toNat) = true →
    k < 32 ∧ j < 256 →
    s.fab.sel = [(0x1A0 + k, j)] →
    tget [] s.fab.masks j = [0x912 + n] →
    ∃ t, exec (.mtPhaseEvent (2 + n)) s = .next t ∧
      tget 0#32 t.fab.cnt k = bump (tget 0#32 s.fab.cnt k) ∧
      KeptBut [] s t) ∧
  (∀ (s : State),
    s.rst.ctrlUp = true →
    s.mt.wrapDue = true →
    ∃ t, exec (.mtWrap) s = .next t ∧
      t.mt = { s.mt with wrapDue := false, flags := s.mt.flags ||| 0x10#32 } ∧
      KeptBut [.mt] s t) ∧
  (∀ (s : State),
    s.mt.wrapDue = false →
    ∃ t, exec (.mtWrap) s = .next t ∧
      KeptBut [] s t) ∧
  (∀ (s : State),
    s.rst.ctrlUp = true →
    s.fab.arrived.contains 0x198 = true →
    ∃ t, exec (.mtCapture) s = .next t ∧
      t.mt = { s.mt with cap := s.mt.mt, capGen := (s.mt.capGen + 1) % 16 } ∧
      KeptBut [.mt] s t) ∧
  (∀ (s : State),
    s.fab.arrived.contains 0x198 = false →
    ∃ t, exec (.mtCapture) s = .next t ∧
      KeptBut [] s t)

/-- Overruns, short circuits, frozen codes, unsettled monitors, qualified monitors, stage faults and external trips trip their port. -/
def Obligations.TripsFallOnTheirCauses : Prop :=
  (∀ (s : State) (port : Nat),
    s.aside = false →
    (s.spAt port).sup.tripped = false ∧ tripLive (s.spAt port).force.out = true →
    s.grpRuns (port / 8) = true →
    3 ≤ (s.spAt port).loop.ovrRun →
    ∃ t, exec (.overrunTrip port) s = .next t ∧
      Trips s t port 0x800#32 ∧
      (t.spAt port).loop.flags.getLsbD 6 = true ∧ (t.spAt port).loop.ovrRun = 0) ∧
  (∀ (s : State) (port : Nat),
    s.aside = false →
    (s.spAt port).sup.tripped = false ∧ tripLive (s.spAt port).force.out = true →
    s.grpRuns (port / 8) = true →
    s.ticksUs (port / 8) (s.castN 0x442 port) ≤ (s.spAt port).force.scRun ∧ 0 < (s.spAt port).force.scRun →
    ∃ t, exec (.shortCircuitTrip port) s = .next t ∧
      Trips s t port 0x20#32 ∧
      (t.spAt port).force.flags.getLsbD 1 = true) ∧
  (∀ (s : State) (port : Nat),
    s.aside = false →
    (s.spAt port).sup.tripped = false ∧ tripLive (s.spAt port).force.out = true →
    s.grpRuns (port / 8) = true →
    64 ≤ (s.spAt port).sup.froV ∨ 64 ≤ (s.spAt port).sup.froI →
    (s.spAt port).sup.held = false ∧ (s.spAt port).force.out ≠ .park →
    ((s.serves port).toList.all (fun f => s.castN 0x425 f != 1)) = true ∨ loopsClosed (s.spAt port) = false →
    ∃ t, exec (.frozenFault port) s = .next t ∧
      Trips s t port 0x40#32 ∧
      (t.spAt port).sup.flags.getLsbD 4 = true) ∧
  (∀ (s : State) (port f : Nat),
    s.aside = false →
    (s.spAt port).sup.tripped = false ∧ tripLive (s.spAt port).force.out = true →
    s.grpRuns (port / 8) = true →
    64 ≤ (s.spAt port).sup.froV ∨ 64 ≤ (s.spAt port).sup.froI →
    (s.spAt port).sup.held = false ∧ (s.spAt port).force.out ≠ .park →
    s.serves port = some f ∧ s.castN 0x425 f = 1 ∧ loopsClosed (s.spAt port) = true →
    ∃ t, exec (.frozenFault port) s = .next t ∧
      (t.spAt port).sup.held = true ∧ (t.spAt port).sup.tripped = false ∧
      (t.spAt port).sup.flags = (s.spAt port).sup.flags ||| 0x50#32 ∧
      (t.spAt port).force = { (s.spAt port).force with inCode := (t.spAt port).sup.heldCode } ∧
      (∀ q, q ∈ s.gangOf port → (t.spAt q).sup.held = true ∧ (t.spAt q).force.out = (s.spAt q).force.out) ∧
      (∀ q, q ≠ port → q ∉ s.gangOf port →
        (t.spAt q).force = (s.spAt q).force ∧ (t.spAt q).loop = (s.spAt q).loop ∧
        (t.spAt q).sup.held = (s.spAt q).sup.held ∧ (t.spAt q).sup.tripped = (s.spAt q).sup.tripped) ∧
      (t.figAt f).enabled = (s.figAt f).enabled ∧ (t.figAt f).apOpen = none ∧
      (listRuns (s.figAt f) = true → (t.figAt f).run = .held ∧ (t.figAt f).flight = none) ∧
      t.misc.tripSeq = s.misc.tripSeq + 1#32 ∧
      ((s.grpAt (port / 8)).trips.length < 8 →
        (t.grpAt (port / 8)).trips.map (fun r => (r.port, r.cause, r.seq, r.detail.getLsbD 5)) =
          (s.grpAt (port / 8)).trips.map (fun r => (r.port, r.cause, r.seq, r.detail.getLsbD 5)) ++
            [(port, 0x40#32, s.misc.tripSeq, true)]) ∧
      KeptBut [.sp, .grp, .misc, .fig, .que, .free] s t) ∧
  (∀ (s : State) (port : Nat),
    s.aside = false →
    (s.spAt port).sup.tripped = false →
    s.grpRuns (port / 8) = true →
    (s.spAt port).force.out = .armed ∧ (s.spAt port).force.en = false →
    s.allSettled port = false →
    s.makeTicks port + s.ticksUs (port / 8) 4000 ≤ (s.spAt port).force.seq →
    ∃ t, exec (.unsettled port) s = .next t ∧
      Trips s t port 0x40000#32 ∧
      (t.spAt port).sup.flags.getLsbD 7 = true) ∧
  (∀ (s : State) (port m : Nat),
    s.aside = false →
    (s.spAt port).sup.tripped = false ∧ tripLive (s.spAt port).force.out = true →
    s.hasPort port = true →
    s.grpRuns (port / 8) = true →
    m < 4 ∧ bits (s.monCtrl port m) 2 0 ≠ 0 →
    (s.monCtrl port m).getLsbD 7 = true →
    bits (s.monCtrl port m) 27 24 + 1 ≤ ((s.spAt port).sup.mon.getD m Mon.init).run →
    ∃ t, exec (.monitorQualify port m) s = .next t ∧
      Trips s t port (bitAt true m)) ∧
  (∀ (s : State) (port m : Nat),
    s.hasPort port = true →
    s.grpRuns (port / 8) = true →
    m < 4 ∧ m < (s.spAt port).sup.mon.length ∧ bits (s.monCtrl port m) 2 0 ≠ 0 →
    (s.monCtrl port m).getLsbD 7 = false ∨ tripLive (s.spAt port).force.out = false →
    bits (s.monCtrl port m) 27 24 + 1 ≤ ((s.spAt port).sup.mon.getD m Mon.init).run →
    ((s.spAt port).sup.mon.getD m Mon.init).latch = false →
    ∃ t, exec (.monitorQualify port m) s = .next t ∧
      t.spAt port = { s.spAt port with
        sup := { (s.spAt port).sup with
          mon := lset (s.spAt port).sup.mon m { (s.spAt port).sup.mon.getD m Mon.init with latch := true }
          flags := (s.spAt port).sup.flags ||| 2#32 } } ∧
      OnlySp port s t ∧
      KeptBut [.sp] s t) ∧
  (∀ (s : State) (port m : Nat),
    4 ≤ m ∨ bits (s.monCtrl port m) 2 0 = 0 ∨
      ((s.spAt port).sup.mon.getD m Mon.init).run < bits (s.monCtrl port m) 27 24 + 1 →
    ∃ t, exec (.monitorQualify port m) s = .next t ∧
      KeptBut [] s t) ∧
  (∀ (s : State) (port : Nat),
    s.aside = false →
    (s.spAt port).sup.tripped = false ∧ tripLive (s.spAt port).force.out = true →
    s.hasPort port = true →
    s.rst.ctrlUp = true →
    dFlt (s.descOf port) = true →
    ∃ t, exec (.stageFault port) s = .next t ∧
      Trips s t port 0x10#32 ∧
      (t.spAt port).sup.flt = true) ∧
  (∀ (s : State) (port : Nat),
    s.aside = false →
    (s.spAt port).sup.tripped = true →
    s.hasPort port = true →
    s.rst.ctrlUp = true →
    dFlt (s.descOf port) = true →
    ∃ t, exec (.stageFault port) s = .next t ∧
      (t.spAt port).sup.cause = (s.spAt port).sup.cause ||| 0x10#32 ∧ (t.spAt port).force = (s.spAt port).force ∧
      (t.spAt port).sup.tripped = true ∧ (t.spAt port).sup.tripSeq = (s.spAt port).sup.tripSeq ∧
      (t.spAt port).sup.flt = true ∧
      OnlySp port s t ∧
      KeptBut [.sp, .grp] s t) ∧
  (∀ (s : State) (port : Nat),
    s.hasPort port = true →
    s.rst.ctrlUp = true →
    dFlt (s.descOf port) = false ∨ s.aside = true ∨
      (tripLive (s.spAt port).force.out = false ∧ (s.spAt port).sup.tripped = false) →
    ∃ t, exec (.stageFault port) s = .next t ∧
      t.spAt port = { s.spAt port with sup := { (s.spAt port).sup with flt := true } } ∧
      OnlySp port s t ∧
      KeptBut [.sp] s t) ∧
  (∀ (s : State) (port : Nat),
    s.hasPort port = true →
    s.rst.ctrlUp = true →
    ∃ t, exec (.stgFltRelease port) s = .next t ∧
      t.spAt port = { s.spAt port with sup := { (s.spAt port).sup with flt := false } } ∧
      OnlySp port s t ∧
      KeptBut [.sp] s t) ∧
  (∀ (s : State) (port : Nat),
    s.aside = false →
    (s.spAt port).sup.tripped = false ∧ tripLive (s.spAt port).force.out = true →
    s.hasPort port = true →
    port ∈ s.fab.arrived →
    s.castN 0x445 port = 1 →
    ∃ t, exec (.extTrip port) s = .next t ∧
      Trips s t port 0x1000#32) ∧
  (∀ (s : State) (port : Nat),
    s.aside = false →
    (s.spAt port).sup.tripped = true →
    s.hasPort port = true →
    port ∈ s.fab.arrived →
    s.castN 0x445 port = 1 →
    ∃ t, exec (.extTrip port) s = .next t ∧
      (t.spAt port).sup.cause = (s.spAt port).sup.cause ||| 0x1000#32 ∧ (t.spAt port).force = (s.spAt port).force ∧
      (t.spAt port).sup.tripped = true ∧ (t.spAt port).sup.tripSeq = (s.spAt port).sup.tripSeq ∧
      OnlySp port s t ∧
      KeptBut [.sp, .grp] s t) ∧
  (∀ (s : State) (port : Nat),
    port ∉ s.fab.arrived ∨ s.castN 0x445 port ≠ 1 ∨ s.aside = true →
    ∃ t, exec (.extTrip port) s = .next t ∧
      KeptBut [] s t)

/-- A port goes through its enable and disable sequences and its range windows. -/
def Obligations.PortsEnableRampAndOpen : Prop :=
  (∀ (s : State) (port : Nat),
    s.grpRuns (port / 8) = true →
    (s.spAt port).force.out = .armed ∧ (s.spAt port).force.en = false →
    s.makeTicks port ≤ (s.spAt port).force.seq →
    (s.spAt port).force.lines.length = 1 →
    s.allSettled port = true →
    ∃ t, exec (.stgEnAssert port) s = .next t ∧
      t.spAt port = { s.spAt port with force := { (s.spAt port).force with en := true, seq := 0 } } ∧
      OnlySp port s t ∧
      KeptBut [.sp] s t) ∧
  (∀ (s : State) (port : Nat),
    (s.spAt port).force.seq < s.makeTicks port ∨ (s.spAt port).force.out ≠ .armed ∨
      (s.spAt port).force.lines.length ≠ 1 ∨ s.allSettled port = false →
    ∃ t, exec (.stgEnAssert port) s = .next t ∧
      KeptBut [] s t) ∧
  (∀ (s : State) (port : Nat),
    s.grpRuns (port / 8) = true →
    (s.spAt port).force.out = .armed ∧ (s.spAt port).force.en = true →
    s.ticksUs (port / 8) (dn (s.descOf port) 0xA8 2) ≤ (s.spAt port).force.seq →
    ∃ t, exec (.loopsClose port) s = .next t ∧
      t.spAt port = { s.spAt port with
        force := { (s.spAt port).force with
          out := .ramp, seq := 0, iClip := false
          down := if (s.serves port).isSome = true then none else some ⟨(s.spAt port).force.inCode, 1, 1⟩ }
        loop := { (s.spAt port).loop with closing := some (s.safeCode port) }
        sup := { (s.spAt port).sup with
          model := { (s.spAt port).sup.model with hist := [], since := 0, holdoff := s.castN 0x163 0, fitted := 0 } } } ∧
      OnlySp port s t ∧
      KeptBut [.sp] s t) ∧
  (∀ (s : State) (port : Nat),
    (s.spAt port).force.out ≠ .armed ∨ (s.spAt port).force.en = false ∨
      (s.spAt port).force.seq < s.ticksUs (port / 8) (dn (s.descOf port) 0xA8 2) →
    ∃ t, exec (.loopsClose port) s = .next t ∧
      KeptBut [] s t) ∧
  (∀ (s : State) (port : Nat),
    s.grpRuns (port / 8) = true →
    (s.spAt port).force.out = .rampDown →
    (s.spAt port).force.down.any (fun r => decide (r.n ≤ r.j)) = true →
    ∃ t, exec (.rampDownEnd port) s = .next t ∧
      t.spAt port = { s.spAt port with
        force := { (s.spAt port).force with out := .park, en := false, down := none, seq := 0 } } ∧
      OnlySp port s t ∧
      KeptBut [.sp] s t) ∧
  (∀ (s : State) (port : Nat),
    (s.spAt port).force.out ≠ .rampDown ∨ (s.spAt port).force.down.any (fun r => decide (r.n ≤ r.j)) = false →
    ∃ t, exec (.rampDownEnd port) s = .next t ∧
      KeptBut [] s t) ∧
  (∀ (s : State) (port : Nat),
    s.grpRuns (port / 8) = true →
    (s.spAt port).force.out = .park ∧ (s.spAt port).force.driven = true →
    s.ticksUs (port / 8) (dn (s.descOf port) 0xAA 2) ≤ (s.spAt port).force.seq →
    ∃ t, exec (.parkEnd port) s = .next t ∧
      t.spAt port = { s.spAt port with
        force := { (s.spAt port).force with
          out := .off, leave := none, driven := false, release := s.releaseOrder port, seq := 0 } } ∧
      OnlySp port s t ∧
      KeptBut [.sp] s t) ∧
  (∀ (s : State) (port : Nat),
    s.grpRuns (port / 8) = true →
    (s.spAt port).force.out = .tripped ∧ (s.spAt port).force.driven = true →
    s.ticksUs (port / 8) (dn (s.descOf port) 0xAA 2) ≤ (s.spAt port).force.seq →
    ∃ t, exec (.parkEnd port) s = .next t ∧
      t.spAt port = { s.spAt port with
        force := { (s.spAt port).force with
          leave := none, driven := false, release := s.releaseOrder port, seq := 0 } } ∧
      OnlySp port s t ∧
      KeptBut [.sp] s t) ∧
  (∀ (s : State) (port : Nat),
    (s.spAt port).force.driven = false ∨
      (s.spAt port).force.seq < s.ticksUs (port / 8) (dn (s.descOf port) 0xAA 2) →
    ∃ t, exec (.parkEnd port) s = .next t ∧
      KeptBut [] s t) ∧
  (∀ (s : State) (port l : Nat) (rest : List Nat),
    s.grpRuns (port / 8) = true →
    (s.spAt port).force.release = l :: rest →
    1 ≤ (s.spAt port).force.seq ∧ (s.spAt port).force.driven = false ∧ (s.spAt port).force.win = none →
    ∃ t, exec (.rngLineRelease port) s = .next t ∧
      t.spAt port = { s.spAt port with
        force := { (s.spAt port).force with
          lines := (s.spAt port).force.lines.filter (fun y => y != l), release := rest, seq := 0 } } ∧
      OnlySp port s t ∧
      KeptBut [.sp] s t) ∧
  (∀ (s : State) (port : Nat),
    (s.spAt port).force.release = [] ∨ (s.spAt port).force.seq = 0 ∨ (s.spAt port).force.driven = true ∨
      (s.spAt port).force.win ≠ none →
    ∃ t, exec (.rngLineRelease port) s = .next t ∧
      KeptBut [] s t) ∧
  (∀ (s : State) (port q : Nat) (w x : Window),
    s.grpRuns (port / 8) = true →
    (s.spAt port).force.win = some w →
    (s.spAt port).force.rng ≠ w.b ∧ w.k ≤ w.tick →
    (s.gangOf port).count q = 1 ∧ (s.spAt q).force.win = some x →
    ∃ t, exec (.rangeSwitchBoundary port) s = .next t ∧
      (t.spAt q).force = { (s.spAt q).force with
        win := some { x with heldI := sat31 (rescaleWord (rhoI (s.descOf q) x.a x.b) x.heldI) }
        rng := x.b
        lines := (s.spAt q).force.lines.filter (fun l => l != x.a)
        release := (s.spAt q).force.release.filter (fun l => l != x.a) } ∧
      (t.spAt q).sup.froV = 0 ∧ (t.spAt q).sup.froI = 0 ∧
      (t.spAt q).sup.mon = (s.spAt q).sup.mon.map (fun z => { z with mask := 2 }) ∧
      (t.spAt q).sup.tripped = (s.spAt q).sup.tripped ∧ (t.spAt q).loop = (s.spAt q).loop ∧
      (∀ p, p ∉ s.gangOf port →
        (t.spAt p).force = (s.spAt p).force ∧ (t.spAt p).loop = (s.spAt p).loop ∧ (t.spAt p).sup.mon = (s.spAt p).sup.mon) ∧
      KeptBut [.sp, .fig, .grp, .que, .requests, .mbx, .window, .free] s t) ∧
  (∀ (s : State) (port : Nat) (w : Window),
    (s.spAt port).force.win = some w →
    (s.spAt port).force.rng = w.b ∨ w.tick < w.k →
    ∃ t, exec (.rangeSwitchBoundary port) s = .next t ∧
      KeptBut [] s t) ∧
  (∀ (s : State) (port q : Nat) (w x : Window),
    s.grpRuns (port / 8) = true →
    (s.spAt port).force.win = some w →
    (s.spAt port).force.rng = w.b ∧ w.k + w.j ≤ w.tick →
    (s.spAt port).force.paramsDue = false ∨ s.serves port = none →
    (s.gangOf port).contains q = true ∧ (s.spAt q).force.win = some x →
    ∃ t, exec (.rangeWindowClose port) s = .next t ∧
      t.spAt q = { s.spAt q with
        force := { (s.spAt q).force with
          win := none, upRun := 0, downRuns := []
          rngUpCnt := if x.b < x.a then bump (s.spAt q).force.rngUpCnt else (s.spAt q).force.rngUpCnt
          rngDownCnt := if x.b < x.a then (s.spAt q).force.rngDownCnt else bump (s.spAt q).force.rngDownCnt
          flags := (s.spAt q).force.flags ||| (if x.b < x.a then 4#32 else 8#32) }
        sup := { (s.spAt q).sup with
          froV := 0, froI := 0
          model := { (s.spAt q).sup.model with hist := [], since := 0, holdoff := s.castN 0x163 0, fitted := 0 } } } ∧
      (∀ p, p ∉ s.gangOf port → t.spAt p = s.spAt p) ∧
      (∀ f, (t.figAt f).run = (s.figAt f).run ∧ (t.figAt f).flight.map (fun y => { y with flags := 0#16 }) =
        (s.figAt f).flight.map (fun y => { y with flags := 0#16 })) ∧
      KeptBut [.sp, .fig] s t) ∧
  (∀ (s : State) (port f : Nat) (w : Window),
    s.grpRuns (port / 8) = true →
    (s.spAt port).force.win = some w →
    (s.spAt port).force.rng = w.b ∧ w.k + w.j ≤ w.tick →
    (s.spAt port).force.paramsDue = true ∧ s.serves port = some f →
    (s.gangOf port).contains port = true →
    ∃ t, exec (.rangeWindowClose port) s = .next t ∧
      (t.spAt port).force.paramsDue = false ∧
      (t.spAt port).force.rngAuto = (s.castN 0x419 f == 1) ∧ (t.spAt port).force.vspanAuto = (s.castN 0x421 f == 4) ∧
      (t.spAt port).force.out = (s.spAt port).force.out ∧
      (nearest (s.allowed f port) w.b = w.b → (t.spAt port).force.win = none) ∧
      (nearest (s.allowed f port) w.b < w.b →
        (t.spAt port).force.win.map (fun v => (v.a, v.b, v.tick, v.requested)) =
          some (w.b, nearest (s.allowed f port) w.b, 0, true)) ∧
      (w.b < nearest (s.allowed f port) w.b →
        (t.spAt port).force.win = none ∧
        (t.spAt port).force.downPend = some (nearest (s.allowed f port) w.b)) ∧
      KeptBut [.sp, .fig, .grp, .que, .requests, .mbx, .window, .free] s t) ∧
  (∀ (s : State) (port : Nat) (w : Window),
    (s.spAt port).force.win = some w →
    (s.spAt port).force.rng ≠ w.b ∨ w.tick < w.k + w.j →
    ∃ t, exec (.rangeWindowClose port) s = .next t ∧
      KeptBut [] s t)

/-- Monitor samples, sense-lead checks and the move of trip records. -/
def Obligations.MonitorsChecksAndRecords : Prop :=
  (∀ (s : State) (port k : Nat) (v i : Int),
    s.hasPort port = true →
    s.grpRuns (port / 8) = true →
    k < 4 ∧ bits (s.monCtrl port k) 2 0 ≠ 0 →
    onCurrent (s.monCtrl port k) = false ∨ ((s.spAt port).sup.mon.getD k Mon.init).mask = 0 →
    ∃ t, exec (.monitorSample port v i) s = .next t ∧
      (t.spAt port).sup.mon.getD k Mon.init =
        { ((s.spAt port).sup.mon.getD k Mon.init).sample (s.monCtrl port k) (s.thresholds port k).1
            (s.thresholds port k).2.1
            (if onCurrent (s.monCtrl port k) = true then
              ⟨i * 8192, spanNv (dSpan (s.descOf port) (s.spAt port).force.rng)⟩ else ⟨v * 8192, 12000000000⟩)
          with mask := 0 } ∧
      ((s.thresholds port k).2.2 = true → (t.spAt port).sup.flags = (s.spAt port).sup.flags ||| 0x100#32) ∧
      t.spAt port = { s.spAt port with
        sup := { (s.spAt port).sup with mon := (t.spAt port).sup.mon, flags := (t.spAt port).sup.flags } } ∧
      OnlySp port s t ∧
      KeptBut [.sp] s t) ∧
  (∀ (s : State) (port k : Nat) (v i : Int),
    s.hasPort port = true →
    s.grpRuns (port / 8) = true →
    k < 4 ∧ bits (s.monCtrl port k) 2 0 ≠ 0 →
    onCurrent (s.monCtrl port k) = true ∧ 0 < ((s.spAt port).sup.mon.getD k Mon.init).mask →
    ∃ t, exec (.monitorSample port v i) s = .next t ∧
      (t.spAt port).sup.mon.getD k Mon.init =
        { (s.spAt port).sup.mon.getD k Mon.init with mask := ((s.spAt port).sup.mon.getD k Mon.init).mask - 1 } ∧
      (t.spAt port).force = (s.spAt port).force ∧ (t.spAt port).loop = (s.spAt port).loop ∧
      OnlySp port s t ∧
      KeptBut [.sp] s t) ∧
  (∀ (s : State) (port k : Nat) (v i : Int),
    s.hasPort port = true →
    s.grpRuns (port / 8) = true →
    k < 4 ∧ bits (s.monCtrl port k) 2 0 = 0 →
    ∃ t, exec (.monitorSample port v i) s = .next t ∧
      (t.spAt port).sup.mon.getD k Mon.init = { Mon.init with latch := ((s.spAt port).sup.mon.getD k Mon.init).latch } ∧
      (t.spAt port).force = (s.spAt port).force ∧ (t.spAt port).loop = (s.spAt port).loop ∧
      OnlySp port s t ∧
      KeptBut [.sp] s t) ∧
  (∀ (s : State) (port : Nat),
    s.hasPort port = true →
    s.grpRuns (port / 8) = true →
    s.aside = false →
    s.leadIsDue port = true ∧ s.leadCanRun port = true →
    (List.range 8).all (fun k => !(s.spAt (8 * (port / 8) + k)).sup.checking && (port ≤ 8 * (port / 8) + k || !(s.leadIsDue (8 * (port / 8) + k) && s.leadCanRun (8 * (port / 8) + k)))) = true →
    ∃ t, exec (.leadCheckStart port) s = .next t ∧
      t.spAt port = { s.spAt port with sup := { (s.spAt port).sup with checking := true, froV := 0, froI := 0 } } ∧
      OnlySp port s t ∧
      KeptBut [.sp] s t) ∧
  (∀ (s : State) (port : Nat),
    s.aside = true ∨ s.leadIsDue port = false ∨ s.leadCanRun port = false →
    ∃ t, exec (.leadCheckStart port) s = .next t ∧
      KeptBut [] s t) ∧
  (∀ (s : State) (port : Nat) (vs is : LeadIn) (dv di : Int),
    (s.spAt port).sup.checking = true →
    s.grpRuns (port / 8) = true →
    dv = (vs.last.take 4).foldl (· + ·) 0 - (vs.before.take 4).foldl (· + ·) 0 ∧
      di = (is.last.take 4).foldl (· + ·) 0 - (is.before.take 4).foldl (· + ·) 0 →
    dv.natAbs ≤ s.castN 0x162 0 * 4000 ∧ (s.leadCurrent port = true → di.natAbs ≤ s.castN 0x162 0 * 4000) →
    (s.spAt port).sup.leadCmd = none ∧ (s.spAt port).sup.releaseCmd = none →
    ∃ t, exec (.leadCheckEnd port vs is false) s = .next t ∧
      t.spAt port = { s.spAt port with
        sup := { (s.spAt port).sup with
          checking := false, froV := 0, froI := 0, leadTicks := 0, leadCmd := none, releaseCmd := none
          leadBad := false
          lead := BitVec.ofNat 32 (65536 * min 65535 (max (rdiv dv 4).natAbs (if s.leadCurrent port = true then (rdiv di 4).natAbs else 0) / 10) +
            4 * (if s.leadCurrent port = true then (if di.natAbs ≤ s.castN 0x162 0 * 4000 then 0 else 1) else 2) +
            (if dv.natAbs ≤ s.castN 0x162 0 * 4000 then 0 else 1)) } } ∧
      OnlySp port s t ∧
      KeptBut [.sp] s t) ∧
  (∀ (s : State) (port : Nat) (vs is : LeadIn) (dv di : Int) (mbx : Nat) (tag : BitVec 16) (o : Outstanding) (lead : Word),
    (s.spAt port).sup.checking = true →
    s.grpRuns (port / 8) = true →
    dv = (vs.last.take 4).foldl (· + ·) 0 - (vs.before.take 4).foldl (· + ·) 0 ∧
      di = (is.last.take 4).foldl (· + ·) 0 - (is.before.take 4).foldl (· + ·) 0 →
    dv.natAbs ≤ s.castN 0x162 0 * 4000 ∧ (s.leadCurrent port = true → di.natAbs ≤ s.castN 0x162 0 * 4000) →
    (s.spAt port).sup.leadCmd = some (mbx, tag) ∧ (s.spAt port).sup.releaseCmd = none →
    s.host.outst.find? (fun x => x.opcode == 0x0D04 && x.mbx == mbx && x.tag == tag) = some o →
    lead = BitVec.ofNat 32 (65536 * min 65535 (max (rdiv dv 4).natAbs (if s.leadCurrent port = true then (rdiv di 4).natAbs else 0) / 10) +
        4 * (if s.leadCurrent port = true then (if di.natAbs ≤ s.castN 0x162 0 * 4000 then 0 else 1) else 2) +
        (if dv.natAbs ≤ s.castN 0x162 0 * 4000 then 0 else 1)) →
    ∃ t, exec (.leadCheckEnd port vs is false) s = .next t ∧
      t.spAt port = { s.spAt port with
        sup := { (s.spAt port).sup with checking := false, froV := 0, froI := 0, leadTicks := 0, leadCmd := none, releaseCmd := none, leadBad := false, lead := lead } } ∧
      Completed s t o { status := stOk, result := leBytes 4 lead.toNat ++ leBytes 4 (w32 (rdiv dv 4)).toNat ++ leBytes 4 (w32 (rdiv di 4)).toNat } ∧
      t.host.outst = dropFirst (fun x => x.opcode == 0x0D04 && x.mbx == mbx && x.tag == tag) s.host.outst ∧
      OnlySp port s t ∧
      KeptBut [.sp, .requests, .mbx, .window] s t) ∧
  (∀ (s : State) (port : Nat) (vs is : LeadIn) (dv di : Int) (mbx : Nat) (tag : BitVec 16) (o : Outstanding),
    (s.spAt port).sup.checking = true →
    s.grpRuns (port / 8) = true →
    dv = (vs.last.take 4).foldl (· + ·) 0 - (vs.before.take 4).foldl (· + ·) 0 ∧
      di = (is.last.take 4).foldl (· + ·) 0 - (is.before.take 4).foldl (· + ·) 0 →
    dv.natAbs ≤ s.castN 0x162 0 * 4000 ∧ (s.leadCurrent port = true → di.natAbs ≤ s.castN 0x162 0 * 4000) →
    (s.spAt port).sup.leadCmd = none ∧ (s.spAt port).sup.releaseCmd = some (mbx, tag) →
    (s.spAt port).sup.froV < 64 ∧ (s.spAt port).sup.froI < 64 →
    s.host.outst.find? (fun x => x.opcode == 0x0D05 && x.mbx == mbx && x.tag == tag) = some o →
    ∃ t, exec (.leadCheckEnd port vs is false) s = .next t ∧
      (t.spAt port).sup.checking = false ∧ (t.spAt port).sup.releaseCmd = none ∧ (t.spAt port).sup.leadBad = false ∧
      (∀ q, q ∈ s.gangOf port → (t.spAt q).sup.held = false ∧ (t.spAt q).force.out = .ramp ∧
        (t.spAt q).loop.closing = some (s.spAt q).sup.heldCode) ∧
      (∀ q, q ≠ port → q ∉ s.gangOf port → t.spAt q = s.spAt q) ∧
      Completed s t o { status := stOk } ∧
      KeptBut [.sp, .fig, .requests, .mbx, .window] s t) ∧
  (∀ (s : State) (port : Nat) (vs is : LeadIn) (dv di : Int) (mbx : Nat) (tag : BitVec 16) (o : Outstanding),
    (s.spAt port).sup.checking = true →
    s.grpRuns (port / 8) = true →
    dv = (vs.last.take 4).foldl (· + ·) 0 - (vs.before.take 4).foldl (· + ·) 0 ∧
      di = (is.last.take 4).foldl (· + ·) 0 - (is.before.take 4).foldl (· + ·) 0 →
    s.castN 0x162 0 * 4000 < dv.natAbs ∨ (s.leadCurrent port = true ∧ s.castN 0x162 0 * 4000 < di.natAbs) →
    (s.spAt port).sup.leadCmd = none ∧ (s.spAt port).sup.releaseCmd = some (mbx, tag) ∧ (s.spAt port).sup.held = true →
    s.host.outst.find? (fun x => x.opcode == 0x0D05 && x.mbx == mbx && x.tag == tag) = some o →
    ∃ t, exec (.leadCheckEnd port vs is false) s = .next t ∧
      t.spAt port = { s.spAt port with
        sup := { (s.spAt port).sup with
          checking := false, froV := 0, froI := 0, leadTicks := 0, leadCmd := none, releaseCmd := none
          leadBad := true, flags := (s.spAt port).sup.flags ||| 8#32, lead := (t.spAt port).sup.lead } } ∧
      Completed s t o { status := stNotReady } ∧
      OnlySp port s t ∧
      KeptBut [.sp, .requests, .mbx, .window] s t) ∧
  (∀ (s : State) (port : Nat) (vs is : LeadIn) (dv di : Int),
    (s.spAt port).sup.checking = true →
    s.grpRuns (port / 8) = true →
    dv = (vs.last.take 4).foldl (· + ·) 0 - (vs.before.take 4).foldl (· + ·) 0 ∧
      di = (is.last.take 4).foldl (· + ·) 0 - (is.before.take 4).foldl (· + ·) 0 →
    s.castN 0x162 0 * 4000 < dv.natAbs ∨ (s.leadCurrent port = true ∧ s.castN 0x162 0 * 4000 < di.natAbs) →
    s.aside = false →
    (s.spAt port).sup.tripped = false ∧ tripLive (s.spAt port).force.out = true →
    (s.spAt port).sup.held = false →
    ((s.serves port).toList.all (fun f => s.castN 0x425 f != 1)) = true ∨ loopsClosed (s.spAt port) = false →
    ∃ t, exec (.leadCheckEnd port vs is false) s = .next t ∧
      Trips s t port 0x80#32 ∧
      (t.spAt port).sup.leadBad = true ∧ (t.spAt port).sup.flags.getLsbD 3 = true ∧
      (t.spAt port).sup.lead = BitVec.ofNat 32 (65536 * min 65535 (max (rdiv dv 4).natAbs (if s.leadCurrent port = true then (rdiv di 4).natAbs else 0) / 10) +
        4 * (if s.leadCurrent port = true then (if di.natAbs ≤ s.castN 0x162 0 * 4000 then 0 else 1) else 2) +
        (if dv.natAbs ≤ s.castN 0x162 0 * 4000 then 0 else 1))) ∧
  (∀ (s : State) (port : Nat) (vs is : LeadIn) (dv di : Int),
    (s.spAt port).sup.checking = true →
    s.grpRuns (port / 8) = true →
    dv = (vs.last.take 4).foldl (· + ·) 0 - (vs.before.take 4).foldl (· + ·) 0 ∧
      di = (is.last.take 4).foldl (· + ·) 0 - (is.before.take 4).foldl (· + ·) 0 →
    s.castN 0x162 0 * 4000 < dv.natAbs ∨ (s.leadCurrent port = true ∧ s.castN 0x162 0 * 4000 < di.natAbs) →
    (s.spAt port).sup.leadCmd = none ∧ (s.spAt port).sup.releaseCmd = none →
    (s.spAt port).sup.tripped = false ∧ tripLive (s.spAt port).force.out = false →
    ∃ t, exec (.leadCheckEnd port vs is false) s = .next t ∧
      t.spAt port = { s.spAt port with
        sup := { (s.spAt port).sup with
          checking := false, froV := 0, froI := 0, leadTicks := 0, leadCmd := none, releaseCmd := none
          leadBad := true, flags := (s.spAt port).sup.flags ||| 8#32, lead := (t.spAt port).sup.lead } } ∧
      OnlySp port s t ∧
      KeptBut [.sp] s t) ∧
  (∀ (s : State) (port : Nat) (vs is : LeadIn),
    (s.spAt port).sup.checking = true →
    s.grpRuns (port / 8) = true →
    ∃ t, exec (.leadCheckEnd port vs is true) s = .next t ∧
      t.spAt port = { s.spAt port with
        sup := { (s.spAt port).sup with
          checking := false, froV := 0, froI := 0, flags := (s.spAt port).sup.flags ||| 4#32
          lead := (t.spAt port).sup.lead } } ∧
      bits (t.spAt port).sup.lead 3 0 = 15 ∧
      OnlySp port s t ∧
      KeptBut [.sp] s t) ∧
  (∀ (s : State) (port : Nat) (vs is : LeadIn) (rail : Bool),
    (s.spAt port).sup.checking = false →
    ∃ t, exec (.leadCheckEnd port vs is rail) s = .next t ∧
      KeptBut [] s t) ∧
  (∀ (s : State) (grp : Nat) (r : TripRec),
    s.rst.dataUp = true ∧ s.rst.mgmtUp = true →
    (s.grpAt grp).trips.find? (fun x => x.auxf != 0#8) = some r →
    s.err.ring.length < 4096 →
    ∃ t, exec (.tripRecordMove grp) s = .next t ∧
      t.grpAt grp = { s.grpAt grp with
        trips := dropFirst (fun (x : TripRec) => x.auxf != 0#8) (s.grpAt grp).trips
        intPend := (s.grpAt grp).intPend &&
          (dropFirst (fun (x : TripRec) => x.auxf != 0#8) (s.grpAt grp).trips).any (fun x => x.auxf != 0#8) } ∧
      (r.fig < 4096 ∧ s.defined r.fig = true ∧ s.twin.role ≠ .standby →
        t.queAt (64 * r.fig + 2) = { s.queAt (64 * r.fig + 2) with
          due := (s.queAt (64 * r.fig + 2)).due ++
            [{ key := r.seq, stamp := s.mt.mt, payload := recordWords (tripBytes r) }] } ∧
        OnlyQue (64 * r.fig + 2) s t) ∧
      (4096 ≤ r.fig ∨ s.defined r.fig = false → t.que = s.que) ∧
      t.err.ring.map (fun e => (e.body.code, e.body.source, e.body.d0, e.body.d1)) =
        s.err.ring.map (fun e => (e.body.code, e.body.source, e.body.d0, e.body.d1)) ++
          [((if r.detail.getLsbD 5 = true then 0x8302#16 else 0x8301#16), BitVec.ofNat 16 (0x1000 + r.port), r.cause, r.seq)] ∧
      OnlyGrp grp s t ∧
      KeptBut [.grp, .que] s t) ∧
  (∀ (s : State) (grp : Nat),
    s.rst.dataUp = false ∨ s.rst.mgmtUp = false ∨ (s.grpAt grp).trips.all (fun x => x.auxf == 0#8) = true →
    ∃ t, exec (.tripRecordMove grp) s = .next t ∧
      KeptBut [] s t)

/-- Triggers, aux passes, urgent conversions, shared-channel checks and path tests of a group. -/
def Obligations.GroupsTriggerConvertAndCheck : Prop :=
  (∀ (s : State) (grp : Nat) (edges : List LandEdge) (o n : Nat) (l rest : List Nat),
    s.grpRuns grp = true →
    (s.grpAt grp).acq.trigNow = false ∧ (s.grpAt grp).acq.trigMode = 1 →
    l = (edges.filter (fun e => e.port == (s.grpAt grp).acq.trigPort &&
      ((s.grpAt grp).acq.trigEdge == 2 || e.rising == ((s.grpAt grp).acq.trigEdge == 0)))).map (fun e => e.ofs) →
    l = o :: rest ∧ n = rest.foldl min o + s.castN 0x501 grp ∧ n ≤ (s.periodNs grp - 500) / 5 →
    ∃ t, exec (.groupTrigger grp edges) s = .next t ∧
      t.grpAt grp = { s.grpAt grp with acq := { (s.grpAt grp).acq with
        trigNow := true, edgeSeen := (s.grpAt grp).acq.edgeNow, edgeNow := true, combPhase := n
        rphNow := n % 50 != (s.grpAt grp).acq.combPhase % 50, tmissNow := false
        tmiss := (s.grpAt grp).acq.tmiss
        flags := (s.grpAt grp).acq.flags ||| bitAt (n % 50 != (s.grpAt grp).acq.combPhase % 50) 1 } } ∧
      OnlyGrp grp s t ∧
      KeptBut [.grp] s t) ∧
  (∀ (s : State) (grp : Nat) (edges : List LandEdge),
    s.grpRuns grp = true →
    (s.grpAt grp).acq.trigNow = false ∧ (s.grpAt grp).acq.trigMode ≠ 1 →
    ∃ t, exec (.groupTrigger grp edges) s = .next t ∧
      t.grpAt grp = { s.grpAt grp with acq := { (s.grpAt grp).acq with
        trigNow := true, edgeSeen := (s.grpAt grp).acq.edgeNow, edgeNow := false, combPhase := s.castN 0x501 grp
        rphNow := s.castN 0x501 grp % 50 != (s.grpAt grp).acq.combPhase % 50, tmissNow := false
        tmiss := (s.grpAt grp).acq.tmiss
        flags := (s.grpAt grp).acq.flags ||| bitAt (s.castN 0x501 grp % 50 != (s.grpAt grp).acq.combPhase % 50) 1 } } ∧
      OnlyGrp grp s t ∧
      KeptBut [.grp] s t) ∧
  (∀ (s : State) (grp : Nat) (edges : List LandEdge),
    (s.grpAt grp).acq.trigNow = true →
    ∃ t, exec (.groupTrigger grp edges) s = .next t ∧
      KeptBut [] s t) ∧
  (∀ (s : State) (grp : Nat) (edges : List LandEdge) (l : List Nat),
    s.grpRuns grp = true →
    (s.grpAt grp).acq.trigNow = false ∧ (s.grpAt grp).acq.trigMode = 1 →
    l = (edges.filter (fun e => e.port == (s.grpAt grp).acq.trigPort &&
      ((s.grpAt grp).acq.trigEdge == 2 || e.rising == ((s.grpAt grp).acq.trigEdge == 0)))).map (fun e => e.ofs) →
    l = [] ∨ (s.periodNs grp - 500) / 5 < (l.drop 1).foldl min (l.headD 0) + s.castN 0x501 grp →
    ∃ t, exec (.triggerMiss ⟨grp, edges⟩) s = .next t ∧
      t.grpAt grp = { s.grpAt grp with acq := { (s.grpAt grp).acq with
        trigNow := true, edgeSeen := (s.grpAt grp).acq.edgeNow, edgeNow := !l.isEmpty, combPhase := (s.periodNs grp - 500) / 5
        rphNow := (s.periodNs grp - 500) / 5 % 50 != (s.grpAt grp).acq.combPhase % 50, tmissNow := true
        tmiss := bump (s.grpAt grp).acq.tmiss
        flags := (s.grpAt grp).acq.flags ||| bitAt ((s.periodNs grp - 500) / 5 % 50 != (s.grpAt grp).acq.combPhase % 50) 1 ||| 1#32 } } ∧
      OnlyGrp grp s t ∧
      KeptBut [.grp] s t) ∧
  (∀ (s : State) (grp : Nat) (edges : List LandEdge),
    (s.grpAt grp).acq.trigNow = true ∨ (s.grpAt grp).acq.trigMode ≠ 1 →
    ∃ t, exec (.triggerMiss ⟨grp, edges⟩) s = .next t ∧
      KeptBut [] s t) ∧
  (∀ (s : State) (grp i : Nat) (rest : List Nat),
    s.grpRuns grp = true →
    (s.grpAt grp).acq.auxStart = 0 ∨ ((s.grpAt grp).acq.auxStart = 1 ∧ (s.grpAt grp).acq.passGo = true) ∨
      ((s.grpAt grp).acq.auxStart = 2 ∧ s.fab.arrived.contains (0x180 + grp) = true) →
    (s.grpAt grp).acq.run = none ∧ (s.grpAt grp).acq.interrupted = none ∧ (s.grpAt grp).acq.due = [] →
    (s.grpAt grp).acq.urgRun = none →
    (((auxSequence s.sets.cast grp).filter (fun x => auxPeriod x.2 == 0 || (s.grpAt grp).acq.dueCycle.contains x.1)).map
      (fun x => x.1)).dropWhile (fun j => !s.auxLive (s.auxEntry grp j)) = i :: rest →
    ∃ t, exec (.auxPassStart grp) s = .next t ∧
      t.grpAt grp = { s.grpAt grp with
        auxsel := auxCode (s.auxEntry grp i)
        acq := { (s.grpAt grp).acq with
          run := some { entry := i, image := s.auxEntry grp i, start := s.sliceClk grp, conv := Conv.init, mark := 0 }
          due := rest, dueCycle := [], passGo := false, passRan := true, auxState := .running } } ∧
      OnlyGrp grp s t ∧
      KeptBut [.grp] s t) ∧
  (∀ (s : State) (grp : Nat),
    s.grpRuns grp = true →
    (s.grpAt grp).acq.auxStart = 0 ∨ ((s.grpAt grp).acq.auxStart = 1 ∧ (s.grpAt grp).acq.passGo = true) ∨
      ((s.grpAt grp).acq.auxStart = 2 ∧ s.fab.arrived.contains (0x180 + grp) = true) →
    (s.grpAt grp).acq.run = none ∧ (s.grpAt grp).acq.interrupted = none ∧ (s.grpAt grp).acq.due = [] →
    (s.grpAt grp).acq.urgRun = none →
    (((auxSequence s.sets.cast grp).filter (fun x => auxPeriod x.2 == 0 || (s.grpAt grp).acq.dueCycle.contains x.1)).map
      (fun x => x.1)).all (fun j => !s.auxLive (s.auxEntry grp j)) = true →
    ∃ t, exec (.auxPassStart grp) s = .next t ∧
      t.grpAt grp = { s.grpAt grp with acq := { (s.grpAt grp).acq with
        dueCycle := [], passGo := false, passRan := false, auxState := restState (s.grpAt grp).acq.auxStart } } ∧
      OnlyGrp grp s t ∧
      KeptBut [.grp] s t) ∧
  (∀ (s : State) (grp : Nat),
    s.grpRuns grp = true →
    (s.grpAt grp).acq.auxStart = 0 ∨ ((s.grpAt grp).acq.auxStart = 1 ∧ (s.grpAt grp).acq.passGo = true) ∨
      ((s.grpAt grp).acq.auxStart = 2 ∧ s.fab.arrived.contains (0x180 + grp) = true) →
    (s.grpAt grp).acq.run = none ∧ (s.grpAt grp).acq.interrupted = none ∧ (s.grpAt grp).acq.due = [] →
    (s.grpAt grp).acq.urgRun.isSome = true →
    ∃ t, exec (.auxPassStart grp) s = .next t ∧
      t.grpAt grp = { s.grpAt grp with acq := { (s.grpAt grp).acq with
        dueCycle := [], passGo := false
        due := (((auxSequence s.sets.cast grp).filter (fun x => auxPeriod x.2 == 0 || (s.grpAt grp).acq.dueCycle.contains x.1)).map
          (fun x => x.1)) } } ∧
      OnlyGrp grp s t ∧
      KeptBut [.grp] s t) ∧
  (∀ (s : State) (grp : Nat),
    s.grpRuns grp = true →
    (s.grpAt grp).acq.auxStart = 2 ∧ s.fab.arrived.contains (0x180 + grp) = true →
    (s.grpAt grp).acq.run ≠ none ∨ (s.grpAt grp).acq.interrupted ≠ none ∨ (s.grpAt grp).acq.due ≠ [] →
    ∃ t, exec (.auxPassStart grp) s = .next t ∧
      t.grpAt grp = { s.grpAt grp with acq := { (s.grpAt grp).acq with
        auxOvr := bump (s.grpAt grp).acq.auxOvr, flags := (s.grpAt grp).acq.flags ||| 0x40#32 } } ∧
      OnlyGrp grp s t ∧
      KeptBut [.grp] s t) ∧
  (∀ (s : State) (grp : Nat),
    (s.grpAt grp).acq.auxStart = 3 ∨ ((s.grpAt grp).acq.auxStart = 1 ∧ (s.grpAt grp).acq.passGo = false) ∨
      ((s.grpAt grp).acq.auxStart = 2 ∧ s.fab.arrived.contains (0x180 + grp) = false) →
    ∃ t, exec (.auxPassStart grp) s = .next t ∧
      KeptBut [] s t) ∧
  (∀ (s : State) (grp : Nat) (inputs : List Int) (x : AuxRun) (c : Conv),
    s.grpRuns grp = true →
    (s.grpAt grp).acq.run = some x ∧ (s.grpAt grp).acq.urgRun = none →
    inputs.length = 2 ^ auxAvg x.image - x.conv.n →
    c = (List.range inputs.length).foldl (fun a i =>
      a.add (s.convert grp 16 (auxSpan x.image) (codeIn (vFs (auxSpan x.image)) (inputs.getD i 0))).1
        (s.convert grp 16 (auxSpan x.image) (codeIn (vFs (auxSpan x.image)) (inputs.getD i 0))).2
        (s.senseRail grp (s.sliceClk grp - 50 * (inputs.length - i))) ((s.grpAt grp).acq.carries 16)
        (s.mtBefore (inputs.length - i))) x.conv →
    auxFig x.image ≠ 0xFFFF ∧ s.aside = false ∧ s.rst.dataUp = true →
    c.n ≠ 0 →
    ∃ t, exec (.auxEntryEnd grp inputs) s = .next t ∧
      (t.queAt (64 * auxFig x.image + 1)).due = (s.queAt (64 * auxFig x.image + 1)).due ++
        [{ key := 0xFFFFFFFF#32, stamp := s.mt.mt
           payload := recordWords (AuxResult.bytes
             { fig := auxFig x.image, tag := auxTag x.image, entry := x.entry, port := 8 * grp + auxPort x.image
               code := auxCode x.image, span := auxSpan x.image, mark := x.mark, ovr := c.ovr, novr := c.novr
               spare := c.spare, urgent := false, count := c.n, first := c.first.getD 0#64
               mean := rdiv (c.sum * 65536) c.n }) }] ∧
      (t.grpAt grp).acq.run = ((s.grpAt grp).acq.due.dropWhile (fun j => !s.auxLive (s.auxEntry grp j))).head?.map (fun j =>
        { entry := j, image := s.auxEntry grp j, start := s.sliceClk grp, conv := Conv.init, mark := 0 }) ∧
      (t.grpAt grp).acq.due = ((s.grpAt grp).acq.due.dropWhile (fun j => !s.auxLive (s.auxEntry grp j))).drop 1 ∧
      (t.grpAt grp).acq.auxState = (if ((s.grpAt grp).acq.due.dropWhile (fun j => !s.auxLive (s.auxEntry grp j))) = [] then restState (s.grpAt grp).acq.auxStart else .running) ∧
      (t.grpAt grp).auxsel = (((s.grpAt grp).acq.due.dropWhile (fun j => !s.auxLive (s.auxEntry grp j))).head?.map (fun j => auxCode (s.auxEntry grp j))).getD (s.grpAt grp).auxsel ∧
      (t.grpAt grp).acq.urgRun = none ∧
      ((s.grpAt grp).acq.cap = none → OnlyQue (64 * auxFig x.image + 1) s t) ∧
      OnlyGrp grp s t ∧
      KeptBut [.grp, .que, .requests, .mbx, .window] s t) ∧
  (∀ (s : State) (grp port : Nat) (inputs : List Int) (x : AuxRun) (c : Conv) (temp : Int),
    s.grpRuns grp = true →
    (s.grpAt grp).acq.run = some x ∧ (s.grpAt grp).acq.urgRun = none →
    inputs.length = 2 ^ auxAvg x.image - x.conv.n →
    c = (List.range inputs.length).foldl (fun a i =>
      a.add (s.convert grp 16 (auxSpan x.image) (codeIn (vFs (auxSpan x.image)) (inputs.getD i 0))).1
        (s.convert grp 16 (auxSpan x.image) (codeIn (vFs (auxSpan x.image)) (inputs.getD i 0))).2
        (s.senseRail grp (s.sliceClk grp - 50 * (inputs.length - i))) ((s.grpAt grp).acq.carries 16)
        (s.mtBefore (inputs.length - i))) x.conv →
    auxFig x.image = 0xFFFF ∧ s.aside = false →
    c.n ≠ 0 →
    port = 8 * grp + auxPort x.image ∧
      temp = stageTemp (s.descOf port) (auxSpan x.image) (rdiv (c.sum * 65536) c.n) →
    temp < di (s.descOf port) 0x9A 1 * 16 →
    ∃ t, exec (.auxEntryEnd grp inputs) s = .next t ∧
      t.spAt port = { s.spAt port with
        temp := some temp, warned := decide (di (s.descOf port) 0x99 1 * 16 ≤ temp), overTemp := false } ∧
      (t.grpAt grp).acq.run = ((s.grpAt grp).acq.due.dropWhile (fun j => !s.auxLive (s.auxEntry grp j))).head?.map (fun j =>
        { entry := j, image := s.auxEntry grp j, start := s.sliceClk grp, conv := Conv.init, mark := 0 }) ∧
      (t.grpAt grp).acq.due = ((s.grpAt grp).acq.due.dropWhile (fun j => !s.auxLive (s.auxEntry grp j))).drop 1 ∧
      (t.grpAt grp).acq.auxState = (if ((s.grpAt grp).acq.due.dropWhile (fun j => !s.auxLive (s.auxEntry grp j))) = [] then restState (s.grpAt grp).acq.auxStart else .running) ∧
      (t.grpAt grp).auxsel = (((s.grpAt grp).acq.due.dropWhile (fun j => !s.auxLive (s.auxEntry grp j))).head?.map (fun j => auxCode (s.auxEntry grp j))).getD (s.grpAt grp).auxsel ∧
      (t.grpAt grp).acq.urgRun = none ∧
      ((s.grpAt grp).acq.cap = none → t.que = s.que) ∧
      OnlySp port s t ∧
      OnlyGrp grp s t ∧
      KeptBut [.grp, .sp, .que, .requests, .mbx, .window] s t) ∧
  (∀ (s : State) (grp port : Nat) (inputs : List Int) (x : AuxRun) (c : Conv) (temp : Int),
    s.grpRuns grp = true →
    (s.grpAt grp).acq.run = some x ∧ (s.grpAt grp).acq.urgRun = none →
    inputs.length = 2 ^ auxAvg x.image - x.conv.n →
    c = (List.range inputs.length).foldl (fun a i =>
      a.add (s.convert grp 16 (auxSpan x.image) (codeIn (vFs (auxSpan x.image)) (inputs.getD i 0))).1
        (s.convert grp 16 (auxSpan x.image) (codeIn (vFs (auxSpan x.image)) (inputs.getD i 0))).2
        (s.senseRail grp (s.sliceClk grp - 50 * (inputs.length - i))) ((s.grpAt grp).acq.carries 16)
        (s.mtBefore (inputs.length - i))) x.conv →
    auxFig x.image = 0xFFFF ∧ s.aside = false →
    c.n ≠ 0 →
    port = 8 * grp + auxPort x.image ∧
      temp = stageTemp (s.descOf port) (auxSpan x.image) (rdiv (c.sum * 65536) c.n) →
    di (s.descOf port) 0x9A 1 * 16 ≤ temp →
    auxPort x.image < 8 ∧ (s.spAt port).sup.tripped = false ∧ tripLive (s.spAt port).force.out = true →
    ∃ t, exec (.auxEntryEnd grp inputs) s = .next t ∧
      (t.spAt port).temp = some temp ∧ (t.spAt port).overTemp = true ∧
      Trips s t port 0x200#32) ∧
  (∀ (s : State) (grp : Nat) (inputs : List Int) (x : AuxRun) (c : Conv),
    s.grpRuns grp = true →
    (s.grpAt grp).acq.run = some x ∧ (s.grpAt grp).acq.urgRun = none →
    inputs.length = 2 ^ auxAvg x.image - x.conv.n →
    c = (List.range inputs.length).foldl (fun a i =>
      a.add (s.convert grp 16 (auxSpan x.image) (codeIn (vFs (auxSpan x.image)) (inputs.getD i 0))).1
        (s.convert grp 16 (auxSpan x.image) (codeIn (vFs (auxSpan x.image)) (inputs.getD i 0))).2
        (s.senseRail grp (s.sliceClk grp - 50 * (inputs.length - i))) ((s.grpAt grp).acq.carries 16)
        (s.mtBefore (inputs.length - i))) x.conv →
    s.aside = true →
    ∃ t, exec (.auxEntryEnd grp inputs) s = .next t ∧
      (t.grpAt grp).acq.run = ((s.grpAt grp).acq.due.dropWhile (fun j => !s.auxLive (s.auxEntry grp j))).head?.map (fun j =>
        { entry := j, image := s.auxEntry grp j, start := s.sliceClk grp, conv := Conv.init, mark := 0 }) ∧
      (t.grpAt grp).acq.due = ((s.grpAt grp).acq.due.dropWhile (fun j => !s.auxLive (s.auxEntry grp j))).drop 1 ∧
      (t.grpAt grp).acq.auxState = (if ((s.grpAt grp).acq.due.dropWhile (fun j => !s.auxLive (s.auxEntry grp j))) = [] then restState (s.grpAt grp).acq.auxStart else .running) ∧
      (t.grpAt grp).auxsel = (((s.grpAt grp).acq.due.dropWhile (fun j => !s.auxLive (s.auxEntry grp j))).head?.map (fun j => auxCode (s.auxEntry grp j))).getD (s.grpAt grp).auxsel ∧
      (t.grpAt grp).acq.urgRun = none ∧
      ((s.grpAt grp).acq.cap = none → t.que = s.que) ∧
      OnlyGrp grp s t ∧
      KeptBut [.grp, .que, .requests, .mbx, .window] s t) ∧
  (∀ (s : State) (grp : Nat) (inputs : List Int),
    (s.grpAt grp).acq.run = none ∨ (s.grpAt grp).acq.urgRun ≠ none →
    ∃ t, exec (.auxEntryEnd grp inputs) s = .next t ∧
      KeptBut [] s t) ∧
  (∀ (s : State) (grp : Nat) (inputs : List Int) (u : Urg) (c : Conv) (o : Outstanding) (fig : Nat),
    s.grpRuns grp = true →
    (s.grpAt grp).acq.urgRun = some u →
    inputs.length = 2 ^ u.avg - u.conv.n →
    c = (List.range inputs.length).foldl (fun a i =>
      a.add (s.convert grp 16 u.span (codeIn (vFs u.span) (inputs.getD i 0))).1
        (s.convert grp 16 u.span (codeIn (vFs u.span) (inputs.getD i 0))).2
        (s.senseRail grp (s.sliceClk grp - 50 * (inputs.length - i))) ((s.grpAt grp).acq.carries 16)
        (s.mtBefore (inputs.length - i))) u.conv →
    u.cls = 2 ∧ c.n ≠ 0 →
    (s.grpAt grp).acq.cap = none →
    s.host.outst.find? u.owns = some o →
    fig = (s.serves u.port).getD 0xFFF →
    ∃ t, exec (.urgentConversionEnd grp inputs) s = .next t ∧
      Completed s t o
        { status := stOk, result := List.replicate 12 0#8 ++ leBytes 8 (c.first.getD 0#64).toNat
          out := AuxResult.bytes
            { fig := fig, tag := 0xFE, entry := 0x3F, port := u.port, code := u.auxsel, span := u.span, mark := 0
              ovr := c.ovr, novr := c.novr, spare := c.spare, urgent := true, count := c.n
              first := c.first.getD 0#64, mean := rdiv (c.sum * 65536) c.n } } ∧
      t.host.outst = dropFirst u.owns s.host.outst ∧
      (t.grpAt grp).acq.urg = (s.grpAt grp).acq.urg.drop 1 ∧
      OnlyGrp grp s t ∧
      KeptBut [.grp, .requests, .mbx, .window] s t) ∧
  (∀ (s : State) (grp : Nat) (inputs : List Int) (u : Urg) (c : Conv),
    s.grpRuns grp = true →
    (s.grpAt grp).acq.urgRun = some u →
    inputs.length = 2 ^ u.avg - u.conv.n →
    c = (List.range inputs.length).foldl (fun a i =>
      a.add (s.convert grp 16 u.span (codeIn (vFs u.span) (inputs.getD i 0))).1
        (s.convert grp 16 u.span (codeIn (vFs u.span) (inputs.getD i 0))).2
        (s.senseRail grp (s.sliceClk grp - 50 * (inputs.length - i))) ((s.grpAt grp).acq.carries 16)
        (s.mtBefore (inputs.length - i))) u.conv →
    u.cls = 1 ∧ u.owner ≠ 0xFFFF ∧ c.n ≠ 0 →
    s.rst.dataUp = true ∧ s.twin.role ≠ .standby →
    ∃ t, exec (.urgentConversionEnd grp inputs) s = .next t ∧
      (t.queAt (64 * u.owner + 1)).due = (s.queAt (64 * u.owner + 1)).due ++
        [{ key := 0xFFFFFFFF#32, stamp := s.mt.mt
           payload := recordWords (AuxResult.bytes
             { fig := u.owner, tag := 0xFE, entry := 0x3F, port := u.port, code := u.auxsel, span := u.span, mark := 0
               ovr := c.ovr, novr := c.novr, spare := c.spare, urgent := true, count := c.n
               first := c.first.getD 0#64, mean := rdiv (c.sum * 65536) c.n }) }] ∧
      (t.grpAt grp).acq.urg = (s.grpAt grp).acq.urg.drop 1 ∧
      ((s.grpAt grp).acq.cap = none → OnlyQue (64 * u.owner + 1) s t) ∧
      OnlyGrp grp s t ∧
      KeptBut [.grp, .que, .requests, .mbx, .window] s t) ∧
  (∀ (s : State) (grp : Nat) (inputs : List Int) (u : Urg) (c : Conv),
    s.grpRuns grp = true →
    (s.grpAt grp).acq.urgRun = some u →
    inputs.length = 2 ^ u.avg - u.conv.n →
    c = (List.range inputs.length).foldl (fun a i =>
      a.add (s.convert grp 16 u.span (codeIn (vFs u.span) (inputs.getD i 0))).1
        (s.convert grp 16 u.span (codeIn (vFs u.span) (inputs.getD i 0))).2
        (s.senseRail grp (s.sliceClk grp - 50 * (inputs.length - i))) ((s.grpAt grp).acq.carries 16)
        (s.mtBefore (inputs.length - i))) u.conv →
    u.cls = 0 →
    ∃ t, exec (.urgentConversionEnd grp inputs) s = .next t ∧
      (t.grpAt grp).trips.map (fun r => { r with aux := [], auxf := 0#8 }) =
        (s.grpAt grp).trips.map (fun r => { r with aux := [], auxf := 0#8 }) ∧
      (t.grpAt grp).trips.map (fun r => r.auxf) =
        (s.grpAt grp).trips.map (fun r => if r.seq.toNat = u.owner ∧ r.auxf = 0#8 then 1#8 else r.auxf) ∧
      ((s.grpAt grp).trips.any (fun r => r.seq.toNat == u.owner && r.auxf == 0#8) = true → (t.grpAt grp).intPend = true) ∧
      (t.grpAt grp).acq.urg = (s.grpAt grp).acq.urg.drop 1 ∧
      OnlyGrp grp s t ∧
      KeptBut [.grp, .que, .requests, .mbx, .window] s t) ∧
  (∀ (s : State) (grp : Nat) (inputs : List Int) (u : Urg) (c : Conv),
    s.grpRuns grp = true →
    (s.grpAt grp).acq.urgRun = some u →
    inputs.length = 2 ^ u.avg - u.conv.n →
    c = (List.range inputs.length).foldl (fun a i =>
      a.add (s.convert grp 16 u.span (codeIn (vFs u.span) (inputs.getD i 0))).1
        (s.convert grp 16 u.span (codeIn (vFs u.span) (inputs.getD i 0))).2
        (s.senseRail grp (s.sliceClk grp - 50 * (inputs.length - i))) ((s.grpAt grp).acq.carries 16)
        (s.mtBefore (inputs.length - i))) u.conv →
    (s.grpAt grp).acq.urg = [] →
    ∃ t, exec (.urgentConversionEnd grp inputs) s = .next t ∧
      (t.grpAt grp).acq.urgRun = none ∧ (t.grpAt grp).acq.interrupted = none ∧
      (∀ k, k ∈ (s.grpAt grp).acq.interrupted.toList.map (fun x => x.entry) →
        (t.grpAt grp).acq.run = (s.grpAt grp).acq.interrupted.map (fun x => { x with start := s.sliceClk grp }) ∧
        (t.grpAt grp).acq.auxState = .running ∧ (t.grpAt grp).acq.due = (s.grpAt grp).acq.due) ∧
      ((s.grpAt grp).acq.interrupted = none →
        (t.grpAt grp).acq.run = ((s.grpAt grp).acq.due.dropWhile (fun j => !s.auxLive (s.auxEntry grp j))).head?.map (fun j =>
          { entry := j, image := s.auxEntry grp j, start := s.sliceClk grp, conv := Conv.init, mark := 0 }) ∧
        (t.grpAt grp).acq.due = ((s.grpAt grp).acq.due.dropWhile (fun j => !s.auxLive (s.auxEntry grp j))).drop 1 ∧
        (t.grpAt grp).acq.auxState = (if ((s.grpAt grp).acq.due.dropWhile (fun j => !s.auxLive (s.auxEntry grp j))) = [] then restState (s.grpAt grp).acq.auxStart else .running) ∧
        (t.grpAt grp).auxsel = (((s.grpAt grp).acq.due.dropWhile (fun j => !s.auxLive (s.auxEntry grp j))).head?.map (fun j => auxCode (s.auxEntry grp j))).getD (s.grpAt grp).auxsel ∧
        (t.grpAt grp).acq.urgRun = none) ∧
      KeptBut [.grp, .que, .requests, .mbx, .window, .free] s t) ∧
  (∀ (s : State) (grp : Nat) (inputs : List Int) (u : Urg) (c : Conv) (v : Urg) (rest : List Urg),
    s.grpRuns grp = true →
    (s.grpAt grp).acq.urgRun = some u →
    inputs.length = 2 ^ u.avg - u.conv.n →
    c = (List.range inputs.length).foldl (fun a i =>
      a.add (s.convert grp 16 u.span (codeIn (vFs u.span) (inputs.getD i 0))).1
        (s.convert grp 16 u.span (codeIn (vFs u.span) (inputs.getD i 0))).2
        (s.senseRail grp (s.sliceClk grp - 50 * (inputs.length - i))) ((s.grpAt grp).acq.carries 16)
        (s.mtBefore (inputs.length - i))) u.conv →
    (s.grpAt grp).acq.urg = v :: rest →
    ∃ t, exec (.urgentConversionEnd grp inputs) s = .next t ∧
      (t.grpAt grp).acq.urgRun = some { v with clk := s.sliceClk grp, conv := Conv.init } ∧
      (t.grpAt grp).acq.urg = rest ∧ (t.grpAt grp).auxsel = v.auxsel ∧ (t.grpAt grp).acq.auxState = .urgent ∧
      KeptBut [.grp, .que, .requests, .mbx, .window, .free] s t) ∧
  (∀ (s : State) (grp : Nat) (inputs : List Int),
    (s.grpAt grp).acq.urgRun = none ∧ (s.grpAt grp).acq.urg = [] →
    ∃ t, exec (.urgentConversionEnd grp inputs) s = .next t ∧
      KeptBut [] s t) ∧
  (∀ (s : State) (grp : Nat) (own spare : List Int) (novr : List Nat) (p : Pass) (r : ShareResult),
    s.grpRuns grp = true ∧ s.rst.mgmtUp = true →
    (s.grpAt grp).acq.checks.all (fun c => !c.running) = true →
    (s.calAt grp).pass = some p ∧ p.step = 1 →
    r = s.shareResult grp p.slice none (sharePairs own spare novr) →
    ∃ t, exec (.shareCheckEnd grp own spare novr) s = .next t ∧
      t.calAt grp = { s.calAt grp with pass := some { p with step := 2 } } ∧
      (r.pairs < 64 ∨ r.passes (s.castN 0x505 grp) (noiseOf p.slice (s.checkSpan grp p.slice)) = true →
        t.cal.flags = s.cal.flags) ∧
      (64 ≤ r.pairs → r.passes (s.castN 0x505 grp) (noiseOf p.slice (s.checkSpan grp p.slice)) = false →
        t.cal.flags = s.cal.flags ||| 0x40#32) ∧
      KeptBut [.cal] s t) ∧
  (∀ (s : State) (grp : Nat) (own spare : List Int) (novr : List Nat) (p : Pass) (r : ShareResult) (found : Nat),
    s.grpRuns grp = true ∧ s.rst.mgmtUp = true →
    (s.grpAt grp).acq.checks.all (fun c => !c.running) = true →
    (s.calAt grp).pass = some p ∧ p.step = 6 →
    r = s.shareResult grp p.slice ((p.sets.find? (fun e => e.1 == s.checkSpan grp p.slice)).map (fun e => e.2)) (sharePairs own spare novr) →
    found = (if r.pairs < 64 then calOvr
      else if r.passes (s.calAt grp).limits.closeTol (noiseOf p.slice (s.checkSpan grp p.slice)) = true then 0 else calCheck) →
    ∃ t, exec (.shareCheckEnd grp own spare novr) s = .next t ∧
      t.calAt grp = { s.calAt grp with
        pass := some { p with step := 7, cause := if found = 0 ∨ p.cause = calBand then p.cause else found } } ∧
      t.cal.flags = s.cal.flags ∧
      KeptBut [.cal] s t) ∧
  (∀ (s : State) (grp : Nat) (own spare : List Int) (novr : List Nat) (c : CheckReq) (rest : List CheckReq) (o : Outstanding) (r : ShareResult),
    s.grpRuns grp = true ∧ s.rst.mgmtUp = true →
    (s.grpAt grp).acq.checks = c :: rest ∧ c.running = true ∧ c.path = false →
    s.host.outst.find? c.owns = some o →
    r = s.shareResult grp c.slice none (sharePairs own spare novr) →
    ∃ t, exec (.shareCheckEnd grp own spare novr) s = .next t ∧
      (r.pairs < 64 → Completed s t o { status := stNotReady } ∧
        (t.grpAt grp).acq.flags = (s.grpAt grp).acq.flags) ∧
      (64 ≤ r.pairs → Completed s t o
          { status := stOk
            result := leBytes 4 r.pairs ++ leBytes 4 (w32 r.mean).toNat ++ leBytes 4 (w32 r.rms).toNat ++
              leBytes 1 (b2n (r.passes (s.castN 0x505 grp) (noiseOf c.slice (s.checkSpan grp c.slice)))) } ∧
        (t.grpAt grp).acq.flags = (s.grpAt grp).acq.flags |||
          bitAt (!r.passes (s.castN 0x505 grp) (noiseOf c.slice (s.checkSpan grp c.slice))) 4) ∧
      t.host.outst = dropFirst c.owns s.host.outst ∧
      (t.grpAt grp).acq.checks.map (fun x => { x with running := false }) =
        rest.map (fun x => { x with running := false }) ∧
      OnlyGrp grp s t ∧
      KeptBut [.grp, .cal, .requests, .mbx, .window] s t) ∧
  (∀ (s : State) (grp : Nat) (readings : List (List (List Int))) (c : CheckReq) (rest : List CheckReq) (o : Outstanding) (entries : List Word),
    s.grpRuns grp = true ∧ s.rst.mgmtUp = true →
    (s.grpAt grp).acq.checks = c :: rest ∧ c.running = true ∧ c.path = true →
    (s.grpAt grp).acq.spareRole = .carry →
    s.host.outst.find? c.owns = some o →
    entries = (List.range (if 8 ≤ c.slice ∧ c.slice < 16 then 3 else 4)).map (fun k =>
      pathEntry (s.castN 0x506 grp) c.slice k ((readings.getD k []).map (fun x => x.map (fun code =>
        (correct ((s.calAt grp).factors c.slice k) (s.grpAt grp).tDie code).1)))) →
    ∃ t, exec (.pathTestEnd grp readings) s = .next t ∧
      Completed s t o { status := stOk, result := padTo 16 (entries.flatMap (fun w => leBytes 4 w.toNat)) } ∧
      t.host.outst = dropFirst c.owns s.host.outst ∧
      t.grpAt grp = { s.grpAt grp with acq := { (s.grpAt grp).acq with
        checks := rest
        probe := (t.grpAt grp).acq.probe, probeAtt := (t.grpAt grp).acq.probeAtt
        flags := (s.grpAt grp).acq.flags ||| bitAt (entries.any (fun w => bits w 15 8 == 1)) 5 } } ∧
      OnlyGrp grp s t ∧
      KeptBut [.grp, .requests, .mbx, .window] s t) ∧
  (∀ (s : State) (grp : Nat) (readings : List (List (List Int))),
    (s.grpAt grp).acq.checks.all (fun c => !c.running || !c.path) = true ∨ (s.grpAt grp).acq.spareRole ≠ .carry →
    ∃ t, exec (.pathTestEnd grp readings) s = .next t ∧
      KeptBut [] s t)

/-- What a mains-cycle boundary and a loop-period boundary do to a group. -/
def Obligations.GroupBoundaries : Prop :=
  (∀ (s : State) (grp : Nat) (tDie : Int),
    s.grpRuns grp = true →
    (s.grpAt grp).cycle ≠ some (s.mt.mt.toNat / 2 ^ 24) →
    s.aside = true ∨ s.leadsGroups grp = false →
    ∃ t, exec (.mainsCycleBoundary grp tDie) s = .next t ∧
      (t.grpAt grp).tDie = tDie ∧ (t.grpAt grp).cycle = some (s.mt.mt.toNat / 2 ^ 24) ∧
      (t.grpAt grp).tick = (s.grpAt grp).tick ∧ (t.grpAt grp).trips = (s.grpAt grp).trips ∧
      (∀ i, i ∈ (t.grpAt grp).acq.dueCycle ↔ i ∈ (s.grpAt grp).acq.dueCycle ∨
        i ∈ ((auxSequence s.sets.cast grp).filter (fun e =>
          decide (0 < auxPeriod e.2) && s.mt.mt.toNat / 2 ^ 24 % auxPeriod e.2 == 0)).map (fun e => e.1)) ∧
      (s.grpAt grp).acq.run = (t.grpAt grp).acq.run ∧
      ((s.grpAt grp).acq.auxStart = 1 → (s.grpAt grp).acq.inPass = false → (t.grpAt grp).acq.passGo = true) ∧
      ((s.grpAt grp).acq.auxStart = 1 → (s.grpAt grp).acq.inPass = true →
        (t.grpAt grp).acq.auxOvr = bump (s.grpAt grp).acq.auxOvr ∧ (t.grpAt grp).acq.flags.getLsbD 6 = true) ∧
      (∀ p, (t.spAt p).force = (s.spAt p).force ∧ (t.spAt p).loop = (s.spAt p).loop) ∧
      OnlyGrp grp s t ∧
      KeptBut [.grp, .cal, .sp, .fig, .que, .requests, .mbx, .window] s t) ∧
  (∀ (s : State) (grp : Nat) (tDie : Int),
    s.grpRuns grp = true →
    (s.grpAt grp).cycle ≠ some (s.mt.mt.toNat / 2 ^ 24) →
    (s.calAt grp).pass.all (fun p => p.cause != calInterrupted) = true →
    ((s.calAt grp).waiting.map (fun e => e.1)).Nodup →
    ∃ t, exec (.mainsCycleBoundary grp tDie) s = .next t ∧
      (∀ k, (k / 8 < 16 →
          (s.figsOn (8 * grp + k / 8 % 8)).all (fun f => !(s.figAt f).enabled || (s.figAt f).apOpen.isNone) = true →
          tget? (t.calAt grp).waiting k = none ∧
            tget? (t.calAt grp).inForce k = (tget? (s.calAt grp).waiting k).or (tget? (s.calAt grp).inForce k)) ∧
        (k / 8 = 16 → s.auxReady grp = true →
          tget? (t.calAt grp).waiting k = none ∧
            tget? (t.calAt grp).inForce k = (tget? (s.calAt grp).waiting k).or (tget? (s.calAt grp).inForce k)) ∧
        (k / 8 = 16 → s.auxReady grp = false →
          tget? (t.calAt grp).waiting k = tget? (s.calAt grp).waiting k ∧
            tget? (t.calAt grp).inForce k = tget? (s.calAt grp).inForce k)) ∧
      KeptBut [.grp, .cal, .sp, .fig, .que, .requests, .mbx, .window, .misc, .sets, .free] s t) ∧
  (∀ (s : State) (grp w n : Nat) (tDie : Int),
    s.grpRuns grp = true →
    (s.grpAt grp).cycle ≠ some (s.mt.mt.toNat / 2 ^ 24) →
    s.aside = false ∧ s.leadsGroups grp = true →
    s.available s.sets.cast = some w →
    n = (if s.pfe.hu = .normal ∧ 1000 * w < s.cyclePower then s.misc.overCycles + 1 else 0) →
    ∃ t, exec (.mainsCycleBoundary grp tDie) s = .next t ∧
      t.misc.overCycles = n ∧
      (∀ p, (t.spAt p).meas.cycSum = 0 ∧ (t.spAt p).meas.cycN = 0) ∧
      (n = 0 ∨ n < s.castN 0x153 0 ∨ s.rst.mgmtUp = false →
        (∀ f, (t.figAt f).enabled = (s.figAt f).enabled) ∧ t.sets = s.sets) ∧
      (∀ f, n ≠ 0 → s.castN 0x153 0 ≤ n → s.rst.mgmtUp = true → s.governed = some f →
        (t.figAt f).enabled = false ∧ (t.figAt f).budgetCut = true) ∧
      (∀ f, s.governed ≠ some f → (t.figAt f).enabled = (s.figAt f).enabled) ∧
      KeptBut [.grp, .cal, .sp, .fig, .que, .requests, .mbx, .window, .misc, .sets, .free] s t) ∧
  (∀ (s : State) (grp : Nat) (tDie : Int),
    (s.grpAt grp).cycle = some (s.mt.mt.toNat / 2 ^ 24) →
    ∃ t, exec (.mainsCycleBoundary grp tDie) s = .next t ∧
      KeptBut [] s t) ∧
  (∀ (s : State) (grp : Nat) (p : PeriodIn),
    s.hasGrp grp = true ∧ s.rst.ctrlUp = true →
    (s.grpAt grp).ctxReset = true →
    (s.grpAt grp).w1c = [] →
    ∃ t, exec (.loopPeriodBoundary grp p) s = .next t ∧
      t.grpAt grp = { s.grpAt grp with
        tick := (s.grpAt grp).tick + 1#48
        epoch := (s.grpAt grp).epoch != ((s.grpAt grp).tick == BitVec.allOnes 48), tickMt := s.mt.mt, tickClk := s.clk
        frame := ((s.grpAt grp).frame + 1) % 2 ^ (s.grpAt grp).rate
        frames := (s.grpAt grp).frames + b2n ((s.grpAt grp).frame == 0) } ∧
      (∀ q, q / 8 ≠ grp ∨ ((s.spAt q).sup.clearDue = false ∧ (s.spAt q).sup.monDue = 0) → t.spAt q = s.spAt q) ∧
      OnlyGrp grp s t ∧
      KeptBut [.grp, .sp, .misc, .mbx, .window] s t) ∧
  (∀ (s : State) (grp : Nat) (p : PeriodIn),
    s.hasGrp grp = true ∧ s.rst.ctrlUp = true →
    (s.grpAt grp).ctxReset = false →
    ∃ t, exec (.loopPeriodBoundary grp p) s = .next t ∧
      t.grpAt grp = { t.grpAt grp with
        tick := (s.grpAt grp).tick + 1#48
        epoch := (s.grpAt grp).epoch != ((s.grpAt grp).tick == BitVec.allOnes 48), tickMt := s.mt.mt, tickClk := s.clk
        frame := ((s.grpAt grp).frame + 1) % 2 ^ (s.grpAt grp).rate
        frames := (s.grpAt grp).frames + b2n ((s.grpAt grp).frame == 0) } ∧
      (t.grpAt grp).acq.trigNow = false ∧ (t.grpAt grp).acq.tmissNow = false ∧ (t.grpAt grp).acq.rphNow = false ∧
      (t.grpAt grp).w1c = [] ∧
      (t.host.outst.all (fun o => !(o.opcode == 0x0A03 && o.aux == 0 && o.obj / 8 == grp))) = true ∧
      KeptBut [.grp, .sp, .misc, .fig, .sets, .que, .cal, .twin, .mbx, .requests, .window, .free] s t) ∧
  (∀ (s : State) (grp k : Nat) (p : PeriodIn),
    s.hasGrp grp = true ∧ s.rst.ctrlUp = true →
    (s.grpAt grp).ctxReset = false →
    k < 8 ∧ (s.spAt (8 * grp + k)).force.enableDue = none →
    ∃ t, exec (.loopPeriodBoundary grp p) s = .next t ∧
      ((t.spAt (8 * grp + k)).force.out ≠ .tripped →
        (t.spAt (8 * grp + k)).force.outCode =
          (if ((s.spAt (8 * grp + k)).force.driven = true ∧ (s.spAt (8 * grp + k)).sup.clearDue = false) ∨
              (s.spAt (8 * grp + k)).force.out = .standby then (s.spAt (8 * grp + k)).force.inCode
           else s.safeCode (8 * grp + k))) ∧
      ((s.spAt (8 * grp + k)).sup.checking = false →
        (t.spAt (8 * grp + k)).meas.wV =
          (t.convert grp k (t.spanOf grp k) (t.codeOf grp p.loop k)).1 ∧
        (t.spAt (8 * grp + k)).meas.wI =
          (t.convert grp (k + 8) (t.spanOf grp (k + 8)) (t.codeOf grp p.loop (k + 8))).1) ∧
      (∀ m, (s.spAt (8 * grp + k)).sup.monDue.testBit m = true →
        ((t.spAt (8 * grp + k)).sup.mon.getD m Mon.init).latch = false) ∧
      (t.spAt (8 * grp + k)).sup.monDue = 0 ∧ (t.spAt (8 * grp + k)).sup.force = false ∧
      KeptBut [.grp, .sp, .misc, .fig, .sets, .que, .cal, .twin, .mbx, .requests, .window, .free] s t) ∧
  (∀ (s : State) (grp k : Nat) (p : PeriodIn),
    s.hasGrp grp = true ∧ s.rst.ctrlUp = true →
    (s.grpAt grp).ctxReset = false →
    k < 8 ∧ (s.spAt (8 * grp + k)).sup.clearDue = true ∧ (s.spAt (8 * grp + k)).sup.tripped = true →
    (s.spAt (8 * grp + k)).force.out = .tripped ∧ (s.spAt (8 * grp + k)).force.enableDue = none →
    ∃ t, exec (.loopPeriodBoundary grp p) s = .next t ∧
      (t.spAt (8 * grp + k)).force.out = .off ∧ (t.spAt (8 * grp + k)).sup.tripped = false ∧
      (t.spAt (8 * grp + k)).force.driven = false ∧ (t.spAt (8 * grp + k)).sup.clearDue = false ∧
      (t.spAt (8 * grp + k)).force.release = s.releaseOrder (8 * grp + k) ∧
      KeptBut [.grp, .sp, .misc, .fig, .sets, .que, .cal, .twin, .mbx, .requests, .window, .free] s t) ∧
  (∀ (s : State) (grp k : Nat) (p : PeriodIn),
    s.hasGrp grp = true ∧ s.rst.ctrlUp = true →
    (s.grpAt grp).ctxReset = false →
    k < 8 ∧ (s.spAt (8 * grp + k)).sup.force = true ∧ (s.spAt (8 * grp + k)).sup.tripped = false →
    s.aside = false ∧ tripLive (s.spAt (8 * grp + k)).force.out = true →
    ∃ t, exec (.loopPeriodBoundary grp p) s = .next t ∧
      (t.spAt (8 * grp + k)).force.out = .tripped ∧ (t.spAt (8 * grp + k)).sup.tripped = true ∧
      (t.spAt (8 * grp + k)).force.inCode = s.safeCode (8 * grp + k) ∧
      ((t.spAt (8 * grp + k)).sup.cause.getLsbD 13 = true ∨ (t.spAt (8 * grp + k)).sup.cause.getLsbD 17 = true) ∧
      KeptBut [.grp, .sp, .misc, .fig, .sets, .que, .cal, .twin, .mbx, .requests, .window, .free] s t) ∧
  (∀ (s : State) (grp : Nat) (p : PeriodIn) (o : Outstanding),
    s.hasGrp grp = true ∧ s.rst.ctrlUp = true →
    (s.grpAt grp).ctxReset = false →
    s.host.outst = [o] ∧ s.misc.snaps = [] →
    o.opcode = 0x0A03 ∧ o.aux = 0 ∧ o.obj / 8 = grp →
    ∃ t, exec (.loopPeriodBoundary grp p) s = .next t ∧
      Completed s t o
        { status := stOk
          result := leBytes 4 (w32 (t.spAt o.obj).meas.wV).toNat ++ leBytes 4 (w32 (t.spAt o.obj).meas.wI).toNat ++
            leBytes 1 (t.spAt o.obj).meas.statV.toNat ++ leBytes 1 (t.spAt o.obj).meas.statI.toNat ++
            leBytes 1 (t.spAt o.obj).meas.rng ++ leBytes 1 (t.spAt o.obj).meas.vspan ++
            leBytes 8 (t.spAt o.obj).meas.sampleMt.toNat } ∧
      t.host.outst = [] ∧
      KeptBut [.grp, .sp, .misc, .fig, .sets, .que, .cal, .twin, .mbx, .requests, .window, .free] s t) ∧
  (∀ (s : State) (grp : Nat) (p : PeriodIn) (x : Tune),
    s.hasGrp grp = true ∧ s.rst.ctrlUp = true →
    (s.grpAt grp).ctxReset = false →
    (s.grpAt grp).tune = some x ∧ x.cut = false ∧ x.stop = false ∧ x.started = false →
    x.start = 0#64 ∨ mtLe x.start s.mt.mt = true →
    s.defined x.fig = true ∨ x.fig = x.fig →
    ∃ t, exec (.loopPeriodBoundary grp p) s = .next t ∧
      (∀ n, n ∈ (t.grpAt grp).tune.toList.map (fun y => y.fig) → ((t.grpAt grp).tune.map (fun y => y.started)) = some true) ∧
      KeptBut [.grp, .sp, .misc, .fig, .sets, .que, .cal, .twin, .mbx, .requests, .window, .free] s t)

/-- The runs of the arbiters, the mains converter and CAL_EXT start when due and end in force or refused. -/
def Obligations.CalibrationRunsEnd : Prop :=
  (∀ (s : State) (w : BitVec 4) (m : Bool),
    s.rst.mgmtUp = true ∧ 2 ≤ s.cal.startStep ∧ s.castN 0x172 0 ≠ 0 →
    w = ~~~s.cal.arbRun &&& (if s.cal.ext.isSome = true then 15#4 else s.cal.slotRun) →
    m = (s.priSeen && s.cal.mainsRun.isNone) →
    ∃ t, exec (.arbiterSelfCalDue) s = .next t ∧
      t.cal = { s.cal with
        arbRun := s.cal.arbRun ||| ~~~w, arbWait := s.cal.arbWait ||| w
        mainsRun := if m = true then some 0 else s.cal.mainsRun
        mainsFirst := if m = true then none else s.cal.mainsFirst
        mainsCause := if m = true then 0 else s.cal.mainsCause } ∧
      t.iso = { s.iso with mainsCalDue := s.iso.mainsCalDue || m } ∧
      KeptBut [.cal, .iso] s t) ∧
  (∀ (s : State),
    s.rst.mgmtUp = false ∨ s.cal.startStep < 2 ∨ s.castN 0x172 0 = 0 →
    ∃ t, exec (.arbiterSelfCalDue) s = .next t ∧
      KeptBut [] s t) ∧
  (∀ (s : State) (arb k : Nat) (c : SelfCal) (f : ArbFactors),
    s.rst.mgmtUp = true ∧ arb < 4 ∧ s.cal.arbRun.getLsbD arb = true →
    f = ⟨rdiv c.zero 21, rdiv ((c.plus - c.minus) * 1000000000) (2 * s.cal.vRef.toNat) - 1000000000⟩ →
    k = (if c.rms.any (fun x => 500 < x) = true then 1 else if 8 < c.drift then 5
      else if 10000 < f.ofs.natAbs ∨ 300000 < f.gain.natAbs then 6
      else if s.cal.arbAccepted.getLsbD arb = true ∧ (2000 < (f.ofs - (tget arbZero s.cal.arb arb).ofs).natAbs ∨ 5000 < (f.gain - (tget arbZero s.cal.arb arb).gain).natAbs) then 7 else 0) →
    (s.cal.startStep ≠ 2 ∨ s.cal.arbRun &&& ~~~(BitVec.twoPow 4 arb) ≠ 0#4 ∨ s.cal.arbWait ≠ 0#4) ∧
      (s.cal.startStep ≠ 3 ∨ s.cal.slotDue ≠ 0#4 ∨ s.cal.slotRun ≠ 0#4) →
    s.host.outst.any (fun o => o.opcode == 0x0E02 && (o.obj == 0 || o.obj.testBit arb)) = false →
    ∃ t, exec (.arbiterSelfCalEnd arb c) s = .next t ∧
      t.cal = { s.cal with
        arb := t.cal.arb, arbRun := s.cal.arbRun &&& ~~~(BitVec.twoPow 4 arb)
        arbAccepted := if k = 0 then s.cal.arbAccepted ||| BitVec.twoPow 4 arb else s.cal.arbAccepted
        flags := if k = 0 then s.cal.flags else s.cal.flags ||| 4#32
        failCnt := if k = 0 then s.cal.failCnt else bump s.cal.failCnt } ∧
      tget? t.cal.arb arb = (if k = 0 then some f else tget? s.cal.arb arb) ∧
      (∀ j, j ≠ arb → tget? t.cal.arb j = tget? s.cal.arb j) ∧
      KeptBut [.cal] s t) ∧
  (∀ (s : State) (arb k : Nat) (c : SelfCal) (f : ArbFactors),
    s.rst.mgmtUp = true ∧ arb < 4 ∧ s.cal.arbRun.getLsbD arb = true →
    f = ⟨rdiv c.zero 21, rdiv ((c.plus - c.minus) * 1000000000) (2 * s.cal.vRef.toNat) - 1000000000⟩ →
    k = (if c.rms.any (fun x => 500 < x) = true then 1 else if 8 < c.drift then 5
      else if 10000 < f.ofs.natAbs ∨ 300000 < f.gain.natAbs then 6
      else if s.cal.arbAccepted.getLsbD arb = true ∧ (2000 < (f.ofs - (tget arbZero s.cal.arb arb).ofs).natAbs ∨ 5000 < (f.gain - (tget arbZero s.cal.arb arb).gain).natAbs) then 7 else 0) →
    s.cal.startStep = 2 ∧ s.cal.arbRun &&& ~~~(BitVec.twoPow 4 arb) = 0#4 ∧ s.cal.arbWait = 0#4 →
    s.host.outst.any (fun o => o.opcode == 0x0E02 && (o.obj == 0 || o.obj.testBit arb)) = false →
    ∃ t, exec (.arbiterSelfCalEnd arb c) s = .next t ∧
      t.cal = { s.cal with
        arb := t.cal.arb, arbRun := s.cal.arbRun &&& ~~~(BitVec.twoPow 4 arb)
        arbAccepted := if k = 0 then s.cal.arbAccepted ||| BitVec.twoPow 4 arb else s.cal.arbAccepted
        flags := if k = 0 then s.cal.flags else s.cal.flags ||| 4#32
        failCnt := if k = 0 then s.cal.failCnt else bump s.cal.failCnt, startStep := 3, slotDue := presentBuses s.groups } ∧
      tget? t.cal.arb arb = (if k = 0 then some f else tget? s.cal.arb arb) ∧
      (∀ j, j ≠ arb → tget? t.cal.arb j = tget? s.cal.arb j) ∧
      KeptBut [.cal] s t) ∧
  (∀ (s : State) (arb k : Nat) (c : SelfCal) (f : ArbFactors),
    s.rst.mgmtUp = true ∧ arb < 4 ∧ s.cal.arbRun.getLsbD arb = true →
    f = ⟨rdiv c.zero 21, rdiv ((c.plus - c.minus) * 1000000000) (2 * s.cal.vRef.toNat) - 1000000000⟩ →
    k = (if c.rms.any (fun x => 500 < x) = true then 1 else if 8 < c.drift then 5
      else if 10000 < f.ofs.natAbs ∨ 300000 < f.gain.natAbs then 6
      else if s.cal.arbAccepted.getLsbD arb = true ∧ (2000 < (f.ofs - (tget arbZero s.cal.arb arb).ofs).natAbs ∨ 5000 < (f.gain - (tget arbZero s.cal.arb arb).gain).natAbs) then 7 else 0) →
    s.cal.startStep = 3 ∧ s.cal.slotDue = 0#4 ∧ s.cal.slotRun = 0#4 →
    s.host.outst.any (fun o => o.opcode == 0x0E02 && (o.obj == 0 || o.obj.testBit arb)) = false →
    ∃ t, exec (.arbiterSelfCalEnd arb c) s = .next t ∧
      t.cal.startStep = 4 ∧
      (∀ g, g < s.groups → t.calAt g = { s.calAt g with rotating := true, next := 0 }) ∧
      (∀ g, s.groups ≤ g → t.calAt g = s.calAt g) ∧
      tget? t.cal.arb arb = (if k = 0 then some f else tget? s.cal.arb arb) ∧
      (∀ j, j ≠ arb → tget? t.cal.arb j = tget? s.cal.arb j) ∧
      KeptBut [.cal] s t) ∧
  (∀ (s : State) (arb k q : Nat) (c : SelfCal) (f : ArbFactors) (o : Outstanding),
    s.rst.mgmtUp = true ∧ arb < 4 ∧ s.cal.arbRun.getLsbD arb = true →
    f = ⟨rdiv c.zero 21, rdiv ((c.plus - c.minus) * 1000000000) (2 * s.cal.vRef.toNat) - 1000000000⟩ →
    k = (if c.rms.any (fun x => 500 < x) = true then 1 else if 8 < c.drift then 5
      else if 10000 < f.ofs.natAbs ∨ 300000 < f.gain.natAbs then 6
      else if s.cal.arbAccepted.getLsbD arb = true ∧ (2000 < (f.ofs - (tget arbZero s.cal.arb arb).ofs).natAbs ∨ 5000 < (f.gain - (tget arbZero s.cal.arb arb).gain).natAbs) then 7 else 0) →
    (s.cal.startStep ≠ 2 ∨ s.cal.arbRun &&& ~~~(BitVec.twoPow 4 arb) ≠ 0#4 ∨ s.cal.arbWait ≠ 0#4) ∧
      (s.cal.startStep ≠ 3 ∨ s.cal.slotDue ≠ 0#4 ∨ s.cal.slotRun ≠ 0#4) →
    s.host.outst.filter (fun y => y.opcode == 0x0E02 && (y.obj == 0 || y.obj.testBit arb)) = [o] →
    o.obj.testBit arb = true ∧
      q = (if k = 0 then o.aux + 2 ^ arb else if o.aux < 16 then o.aux + 16 * k else o.aux) →
    ∃ t, exec (.arbiterSelfCalEnd arb c) s = .next t ∧
      t.cal = { s.cal with
        arb := t.cal.arb, arbRun := s.cal.arbRun &&& ~~~(BitVec.twoPow 4 arb)
        arbAccepted := if k = 0 then s.cal.arbAccepted ||| BitVec.twoPow 4 arb else s.cal.arbAccepted
        flags := if k = 0 then s.cal.flags else s.cal.flags ||| 4#32
        failCnt := if k = 0 then s.cal.failCnt else bump s.cal.failCnt } ∧
      tget? t.cal.arb arb = (if k = 0 then some f else tget? s.cal.arb arb) ∧
      (∀ j, j ≠ arb → tget? t.cal.arb j = tget? s.cal.arb j) ∧
      (o.obj = 2 ^ arb →
        t.host.outst = s.host.outst.filter (fun y => y != o) ∧
        Completed s t o
          { status := if q < 16 then stOk else stCalFail, detail := q / 16, result := leBytes 1 (q % 16) }) ∧
      (o.obj ≠ 2 ^ arb →
        t.host.outst = s.host.outst.map (fun y => if y = o then { o with obj := o.obj - 2 ^ arb, aux := q } else y) ∧
        Kept s t .mbx ∧ Kept s t .window) ∧
      KeptBut [.cal, .requests, .mbx, .window] s t) ∧
  (∀ (s : State) (arb : Nat) (c : SelfCal),
    s.rst.mgmtUp = false ∨ 4 ≤ arb ∨ s.cal.arbRun.getLsbD arb = false →
    ∃ t, exec (.arbiterSelfCalEnd arb c) s = .next t ∧
      KeptBut [] s t) ∧
  (∀ (s : State) (c : SelfCal) (f : ArbFactors) (k : Nat),
    s.rst.mgmtUp = true ∧ s.cal.mainsRun = some 0 →
    f = ⟨rdiv c.zero 21, rdiv ((c.plus - c.minus) * 1000000000) (2 * s.cal.vRef.toNat) - 1000000000⟩ →
    k = (if c.rms.any (fun x => 500 < x) = true then 1 else if 8 < c.drift then 5
      else if 50000 < f.ofs.natAbs ∨ 500000 < f.gain.natAbs then 6
      else if s.cal.mainsAccepted.getLsbD 0 = true ∧ (20000 < (f.gain - (tget arbZero s.cal.mains 0).gain).natAbs) then 7 else 0) →
    ∃ t, exec (.mainsConverterExchange c) s = .next t ∧
      t.cal = { s.cal with
        mainsRun := some 1, mainsFirst := if k = 0 then some f else none, mainsCause := k
        flags := if k = 0 then s.cal.flags else s.cal.flags ||| 0x10#32
        failCnt := if k = 0 then s.cal.failCnt else bump s.cal.failCnt } ∧
      KeptBut [.cal] s t) ∧
  (∀ (s : State) (c : SelfCal),
    s.rst.mgmtUp = false ∨ s.cal.mainsRun ≠ some 0 →
    ∃ t, exec (.mainsConverterExchange c) s = .next t ∧
      KeptBut [] s t) ∧
  (∀ (s : State) (c : SelfCal) (f : ArbFactors) (k : Nat) (o : Outstanding),
    s.rst.mgmtUp = true ∧ s.cal.mainsRun = some 1 →
    f = ⟨rdiv c.zero 21, rdiv ((c.plus - c.minus) * 1000000000) (2 * s.cal.vRef.toNat) - 1000000000⟩ →
    k = (if c.rms.any (fun x => 500 < x) = true then 1 else if 8 < c.drift then 5
      else if 50000 < f.ofs.natAbs ∨ 500000 < f.gain.natAbs then 6
      else if s.cal.mainsAccepted.getLsbD 1 = true ∧ (20000 < (f.gain - (tget arbZero s.cal.mains 1).gain).natAbs) then 7 else 0) →
    s.host.outst.find? (fun y => y.opcode == 0x0E03) = some o →
    ∃ t, exec (.mainsConverterSelfCalEnd c) s = .next t ∧
      t.cal = { s.cal with
        mains := t.cal.mains, mainsRun := none, mainsFirst := none, mainsCause := 0
        mainsAccepted := s.cal.mainsAccepted ||| (if s.cal.mainsFirst.isSome = true then 1#2 else 0#2) |||
          (if k = 0 then 2#2 else 0#2)
        flags := if k = 0 then s.cal.flags else s.cal.flags ||| 0x10#32
        failCnt := if k = 0 then s.cal.failCnt else bump s.cal.failCnt } ∧
      tget? t.cal.mains 0 = s.cal.mainsFirst.or (tget? s.cal.mains 0) ∧
      tget? t.cal.mains 1 = (if k = 0 then some f else tget? s.cal.mains 1) ∧
      Completed s t o
        { status := if s.cal.mainsCause = 0 ∧ k = 0 then stOk else stCalFail
          detail := if s.cal.mainsCause = 0 then k else s.cal.mainsCause } ∧
      t.host.outst = dropFirst (fun o => o.opcode == 0x0E03) s.host.outst ∧
      KeptBut [.cal, .requests, .mbx, .window] s t) ∧
  (∀ (s : State) (c : SelfCal) (f : ArbFactors) (k : Nat),
    s.rst.mgmtUp = true ∧ s.cal.mainsRun = some 1 →
    f = ⟨rdiv c.zero 21, rdiv ((c.plus - c.minus) * 1000000000) (2 * s.cal.vRef.toNat) - 1000000000⟩ →
    k = (if c.rms.any (fun x => 500 < x) = true then 1 else if 8 < c.drift then 5
      else if 50000 < f.ofs.natAbs ∨ 500000 < f.gain.natAbs then 6
      else if s.cal.mainsAccepted.getLsbD 1 = true ∧ (20000 < (f.gain - (tget arbZero s.cal.mains 1).gain).natAbs) then 7 else 0) →
    s.host.outst.find? (fun y => y.opcode == 0x0E03) = none →
    ∃ t, exec (.mainsConverterSelfCalEnd c) s = .next t ∧
      t.cal = { s.cal with
        mains := t.cal.mains, mainsRun := none, mainsFirst := none, mainsCause := 0
        mainsAccepted := s.cal.mainsAccepted ||| (if s.cal.mainsFirst.isSome = true then 1#2 else 0#2) |||
          (if k = 0 then 2#2 else 0#2)
        flags := if k = 0 then s.cal.flags else s.cal.flags ||| 0x10#32
        failCnt := if k = 0 then s.cal.failCnt else bump s.cal.failCnt } ∧
      tget? t.cal.mains 0 = s.cal.mainsFirst.or (tget? s.cal.mains 0) ∧
      tget? t.cal.mains 1 = (if k = 0 then some f else tget? s.cal.mains 1) ∧
      KeptBut [.cal] s t) ∧
  (∀ (s : State) (c : SelfCal),
    s.rst.mgmtUp = false ∨ s.cal.mainsRun ≠ some 1 →
    ∃ t, exec (.mainsConverterSelfCalEnd c) s = .next t ∧
      KeptBut [] s t) ∧
  (∀ (s : State) (c : ExtCal) (x : ExtRun) (v i : Int) (k : Nat) (o : Outstanding),
    s.rst.mgmtUp = true ∧ s.cal.ext = some x →
    v = meanOf (extRef x c) ∧ i = (if x.rs = 0 then s.cal.iCal else meanOf (extCurrent x c)) →
    k = (((List.range (min 4 c.selfCal.length)).map (fun a =>
      judgeArb (c.selfCal.getD a ⟨0, 0, 0, [], 0⟩) (SelfCal_factors (c.selfCal.getD a ⟨0, 0, 0, [], 0⟩) s.cal.vRef) (tget arbZero s.cal.arb a) (!s.cal.arbAccepted.getLsbD a))).find? (fun j => j != 0)).getD
        (if extCause x c ≠ 0 then extCause x c else s.refCause x.refD v i) →
    k = 0 →
    s.host.outst.find? (fun y => y.opcode == 0x0E01) = some o →
    ∃ t, exec (.calExtEnd c) s = .next t ∧
      t.cal.vRef = v ∧ t.cal.iCal = i ∧ t.cal.refMt = s.mt.mt ∧ t.cal.refSrc = 1 ∧ t.cal.flags = s.cal.flags ∧
      t.cal.failCnt = s.cal.failCnt ∧
      (v ≠ s.cal.vRef → ∀ a, a < min 4 c.selfCal.length → tget? t.cal.arb a =
        some { SelfCal_factors (c.selfCal.getD a ⟨0, 0, 0, [], 0⟩) s.cal.vRef with gain := rdiv ((1000000000 + (SelfCal_factors (c.selfCal.getD a ⟨0, 0, 0, [], 0⟩) s.cal.vRef).gain) * s.cal.vRef) v.toNat - 1000000000 }) ∧
      (v = s.cal.vRef → ∀ a, a < min 4 c.selfCal.length → tget? t.cal.arb a =
        some (SelfCal_factors (c.selfCal.getD a ⟨0, 0, 0, [], 0⟩) s.cal.vRef)) ∧
      t.cal.date = BitVec.ofNat 32 o.obj ∧
      t.cal.ext = none ∧ t.cal.arbWait = (s.cal.arbWait &&& s.cal.slotRun) ∧
      t.cal.arbRun = s.cal.arbRun ||| (s.cal.arbWait &&& ~~~s.cal.slotRun) ∧
      t.cal = { s.cal with
        arb := t.cal.arb, arbAccepted := t.cal.arbAccepted, arbRun := t.cal.arbRun, arbWait := t.cal.arbWait
        ext := t.cal.ext, vRef := t.cal.vRef, iCal := t.cal.iCal, date := t.cal.date, refMt := t.cal.refMt
        refSrc := t.cal.refSrc, flags := t.cal.flags, failCnt := t.cal.failCnt } ∧
      t.sto = (if s.rst.mireUp = true then { s.sto with sysRef := some (v, i, BitVec.ofNat 32 o.obj) } else s.sto) ∧
      Completed s t o
        { status := stOk
          result := leBytes 8 (BitVec.ofInt 64 v).toNat ++ leBytes 4 (w32 i).toNat ++ leBytes 8 s.mt.mt.toNat ++
            leBytes 4 (BitVec.ofNat 32 o.obj).toNat } ∧
      t.host.outst = dropFirst (fun o => o.opcode == 0x0E01) s.host.outst ∧
      KeptBut [.cal, .sto, .requests, .mbx, .window] s t) ∧
  (∀ (s : State) (c : ExtCal) (x : ExtRun) (v i : Int) (k : Nat) (o : Outstanding),
    s.rst.mgmtUp = true ∧ s.cal.ext = some x →
    v = meanOf (extRef x c) ∧ i = (if x.rs = 0 then s.cal.iCal else meanOf (extCurrent x c)) →
    k = (((List.range (min 4 c.selfCal.length)).map (fun a =>
      judgeArb (c.selfCal.getD a ⟨0, 0, 0, [], 0⟩) (SelfCal_factors (c.selfCal.getD a ⟨0, 0, 0, [], 0⟩) s.cal.vRef) (tget arbZero s.cal.arb a) (!s.cal.arbAccepted.getLsbD a))).find? (fun j => j != 0)).getD
        (if extCause x c ≠ 0 then extCause x c else s.refCause x.refD v i) →
    k ≠ 0 →
    s.host.outst.find? (fun y => y.opcode == 0x0E01) = some o →
    ∃ t, exec (.calExtEnd c) s = .next t ∧
      t.cal.vRef = s.cal.vRef ∧ t.cal.iCal = s.cal.iCal ∧ t.cal.date = s.cal.date ∧ t.cal.refMt = s.cal.refMt ∧
      t.cal.refSrc = s.cal.refSrc ∧
      t.cal.flags = s.cal.flags ||| 8#32 ||| (if (List.range (min 4 c.selfCal.length)).any (fun a =>
        judgeArb (c.selfCal.getD a ⟨0, 0, 0, [], 0⟩) (SelfCal_factors (c.selfCal.getD a ⟨0, 0, 0, [], 0⟩) s.cal.vRef) (tget arbZero s.cal.arb a) (!s.cal.arbAccepted.getLsbD a) != 0) = true then 4#32 else 0#32) ∧
      (∀ a, a < min 4 c.selfCal.length → tget? t.cal.arb a = (if judgeArb (c.selfCal.getD a ⟨0, 0, 0, [], 0⟩) (SelfCal_factors (c.selfCal.getD a ⟨0, 0, 0, [], 0⟩) s.cal.vRef) (tget arbZero s.cal.arb a) (!s.cal.arbAccepted.getLsbD a) = 0
        then some (SelfCal_factors (c.selfCal.getD a ⟨0, 0, 0, [], 0⟩) s.cal.vRef) else tget? s.cal.arb a)) ∧
      ((List.range (min 4 c.selfCal.length)).all (fun a => judgeArb (c.selfCal.getD a ⟨0, 0, 0, [], 0⟩) (SelfCal_factors (c.selfCal.getD a ⟨0, 0, 0, [], 0⟩) s.cal.vRef) (tget arbZero s.cal.arb a) (!s.cal.arbAccepted.getLsbD a) == 0) = true →
        t.cal.failCnt = bump s.cal.failCnt) ∧
      t.cal.ext = none ∧ t.cal.arbWait = (s.cal.arbWait &&& s.cal.slotRun) ∧
      t.cal.arbRun = s.cal.arbRun ||| (s.cal.arbWait &&& ~~~s.cal.slotRun) ∧
      t.cal = { s.cal with
        arb := t.cal.arb, arbAccepted := t.cal.arbAccepted, arbRun := t.cal.arbRun, arbWait := t.cal.arbWait
        ext := t.cal.ext, vRef := t.cal.vRef, iCal := t.cal.iCal, date := t.cal.date, refMt := t.cal.refMt
        refSrc := t.cal.refSrc, flags := t.cal.flags, failCnt := t.cal.failCnt } ∧
      Completed s t o { status := stCalFail, detail := k } ∧
      t.host.outst = dropFirst (fun o => o.opcode == 0x0E01) s.host.outst ∧
      KeptBut [.cal, .requests, .mbx, .window] s t) ∧
  (∀ (s : State) (c : ExtCal) (x : ExtRun) (v i : Int) (k : Nat),
    s.rst.mgmtUp = true ∧ s.cal.ext = some x →
    v = meanOf (extRef x c) ∧ i = (if x.rs = 0 then s.cal.iCal else meanOf (extCurrent x c)) →
    k = (((List.range (min 4 c.selfCal.length)).map (fun a =>
      judgeArb (c.selfCal.getD a ⟨0, 0, 0, [], 0⟩) (SelfCal_factors (c.selfCal.getD a ⟨0, 0, 0, [], 0⟩) s.cal.vRef) (tget arbZero s.cal.arb a) (!s.cal.arbAccepted.getLsbD a))).find? (fun j => j != 0)).getD
        (if extCause x c ≠ 0 then extCause x c else s.refCause x.refD v i) →
    k ≠ 0 →
    s.host.outst.find? (fun y => y.opcode == 0x0E01) = none →
    ∃ t, exec (.calExtEnd c) s = .next t ∧
      t.cal.vRef = s.cal.vRef ∧ t.cal.iCal = s.cal.iCal ∧ t.cal.date = s.cal.date ∧ t.cal.refMt = s.cal.refMt ∧
      t.cal.refSrc = s.cal.refSrc ∧
      t.cal.flags = s.cal.flags ||| 8#32 ||| (if (List.range (min 4 c.selfCal.length)).any (fun a =>
        judgeArb (c.selfCal.getD a ⟨0, 0, 0, [], 0⟩) (SelfCal_factors (c.selfCal.getD a ⟨0, 0, 0, [], 0⟩) s.cal.vRef) (tget arbZero s.cal.arb a) (!s.cal.arbAccepted.getLsbD a) != 0) = true then 4#32 else 0#32) ∧
      (∀ a, a < min 4 c.selfCal.length → tget? t.cal.arb a = (if judgeArb (c.selfCal.getD a ⟨0, 0, 0, [], 0⟩) (SelfCal_factors (c.selfCal.getD a ⟨0, 0, 0, [], 0⟩) s.cal.vRef) (tget arbZero s.cal.arb a) (!s.cal.arbAccepted.getLsbD a) = 0
        then some (SelfCal_factors (c.selfCal.getD a ⟨0, 0, 0, [], 0⟩) s.cal.vRef) else tget? s.cal.arb a)) ∧
      ((List.range (min 4 c.selfCal.length)).all (fun a => judgeArb (c.selfCal.getD a ⟨0, 0, 0, [], 0⟩) (SelfCal_factors (c.selfCal.getD a ⟨0, 0, 0, [], 0⟩) s.cal.vRef) (tget arbZero s.cal.arb a) (!s.cal.arbAccepted.getLsbD a) == 0) = true →
        t.cal.failCnt = bump s.cal.failCnt) ∧
      t.cal.ext = none ∧ t.cal.arbWait = (s.cal.arbWait &&& s.cal.slotRun) ∧
      t.cal.arbRun = s.cal.arbRun ||| (s.cal.arbWait &&& ~~~s.cal.slotRun) ∧
      t.cal = { s.cal with
        arb := t.cal.arb, arbAccepted := t.cal.arbAccepted, arbRun := t.cal.arbRun, arbWait := t.cal.arbWait
        ext := t.cal.ext, vRef := t.cal.vRef, iCal := t.cal.iCal, date := t.cal.date, refMt := t.cal.refMt
        refSrc := t.cal.refSrc, flags := t.cal.flags, failCnt := t.cal.failCnt } ∧
      KeptBut [.cal] s t) ∧
  (∀ (s : State) (c : ExtCal),
    s.rst.mgmtUp = false ∨ s.cal.ext = none →
    ∃ t, exec (.calExtEnd c) s = .next t ∧
      KeptBut [] s t) ∧
  (∀ (s : State),
    s.cal.isrcOn = true →
    ∃ t, exec (.isrcLimit) s = .next t ∧
      t.cal = { s.cal with isrcOn := false, flags := s.cal.flags ||| 0x100#32 } ∧
      (s.cal.ext = none ∧ s.twin.link = .up →
        t.twin = { s.twin with
          fseq := s.twin.fseq + 1#32
          unacked := s.twin.unacked ++ [{ fseq := s.twin.fseq, ftype := 0xA, resends := 0 }]
          lastSent := (0xA, s.twin.fseq) }) ∧
      KeptBut [.cal] s t) ∧
  (∀ (s : State),
    s.cal.isrcOn = false →
    ∃ t, exec (.isrcLimit) s = .next t ∧
      KeptBut [] s t)

/-- The start-up sequence, the spare slots and the Patina passes. -/
def Obligations.TheRotationAndItsSlots : Prop :=
  (∀ (s : State) (v i : Int) (d : Word) (w : BitVec 4) (m : Bool),
    s.rst.mgmtUp = true ∧ s.rst.ctrlUp = true ∧ (s.rst.mireUp = true ∨ s.noMire = true) →
    s.cal.startStep = 0 →
    w = (if s.cal.ext.isSome = true then 15#4 else s.cal.slotRun) →
    m = (!s.dcFed && s.priSeen && s.cal.mainsRun.isNone) →
    s.sto.sysRef = some (v, i, d) ∧ s.cal.refSrc ≠ 2 ∧ s.rst.mireUp = true →
    ∃ t, exec (.calStartup) s = .next t ∧
      (∀ a, tget? t.cal.arb a = (tget? s.cal.arb a).map (fun f => if v = s.cal.vRef then f else
        { f with gain := rdiv ((1000000000 + f.gain) * s.cal.vRef) v.toNat - 1000000000 })) ∧
      t.cal = { s.cal with
        startStep := 2, arbRun := s.cal.arbRun ||| ~~~w, arbWait := s.cal.arbWait ||| w
        mainsRun := if m = true then some 0 else s.cal.mainsRun
        mainsFirst := if m = true then none else s.cal.mainsFirst
        mainsCause := if m = true then 0 else s.cal.mainsCause
        arb := t.cal.arb, vRef := v, iCal := i, date := d, refMt := s.mt.mt, refSrc := 1 } ∧
      t.iso = { s.iso with mainsCalDue := s.iso.mainsCalDue || m } ∧
      KeptBut [.cal, .iso] s t) ∧
  (∀ (s : State) (w : BitVec 4) (m : Bool),
    s.rst.mgmtUp = true ∧ s.rst.ctrlUp = true ∧ (s.rst.mireUp = true ∨ s.noMire = true) →
    s.cal.startStep = 0 →
    w = (if s.cal.ext.isSome = true then 15#4 else s.cal.slotRun) →
    m = (!s.dcFed && s.priSeen && s.cal.mainsRun.isNone) →
    s.sto.sysRef = none ∨ s.cal.refSrc = 2 ∨ s.rst.mireUp = false →
    ∃ t, exec (.calStartup) s = .next t ∧
      t.cal = { s.cal with
        startStep := 2, arbRun := s.cal.arbRun ||| ~~~w, arbWait := s.cal.arbWait ||| w
        mainsRun := if m = true then some 0 else s.cal.mainsRun
        mainsFirst := if m = true then none else s.cal.mainsFirst
        mainsCause := if m = true then 0 else s.cal.mainsCause } ∧
      t.iso = { s.iso with mainsCalDue := s.iso.mainsCalDue || m } ∧
      KeptBut [.cal, .iso] s t) ∧
  (∀ (s : State),
    s.rst.mgmtUp = true ∧ s.rst.ctrlUp = true ∧ (s.rst.mireUp = true ∨ s.noMire = true) →
    s.cal.startStep = 2 ∧ s.cal.arbRun = 0#4 ∧ s.cal.arbWait = 0#4 →
    ∃ t, exec (.calStartup) s = .next t ∧
      t.cal = { s.cal with startStep := 3, slotDue := presentBuses s.groups } ∧
      KeptBut [.cal] s t) ∧
  (∀ (s : State),
    s.rst.mgmtUp = true ∧ s.rst.ctrlUp = true ∧ (s.rst.mireUp = true ∨ s.noMire = true) →
    s.cal.startStep = 3 ∧ s.cal.slotDue = 0#4 ∧ s.cal.slotRun = 0#4 →
    ∃ t, exec (.calStartup) s = .next t ∧
      t.cal = { s.cal with startStep := 4, grp := t.cal.grp } ∧
      (∀ g, g < s.groups → t.calAt g = { s.calAt g with rotating := true, next := 0 }) ∧
      (∀ g, s.groups ≤ g → t.calAt g = s.calAt g) ∧
      KeptBut [.cal] s t) ∧
  (∀ (s : State),
    s.rst.mgmtUp = false ∨ s.rst.ctrlUp = false ∨ (s.rst.mireUp = false ∧ s.noMire = false) ∨
      (s.cal.startStep = 2 ∧ (s.cal.arbRun ≠ 0#4 ∨ s.cal.arbWait ≠ 0#4)) ∨
      (s.cal.startStep = 3 ∧ (s.cal.slotDue ≠ 0#4 ∨ s.cal.slotRun ≠ 0#4)) ∨ 4 ≤ s.cal.startStep →
    ∃ t, exec (.calStartup) s = .next t ∧
      KeptBut [] s t) ∧
  (∀ (s : State),
    s.rst.mgmtUp = true ∧ s.cal.startStep = 4 →
    ∃ t, exec (.spareSlotDue) s = .next t ∧
      t.cal = { s.cal with slotDue := presentBuses s.groups &&& ~~~s.cal.slotRun } ∧
      KeptBut [.cal] s t) ∧
  (∀ (s : State),
    s.rst.mgmtUp = false ∨ s.cal.startStep ≠ 4 →
    ∃ t, exec (.spareSlotDue) s = .next t ∧
      KeptBut [] s t) ∧
  (∀ (s : State) (bus : Nat),
    s.rst.mgmtUp = true ∧ bus < 4 →
    s.cal.slotDue.getLsbD bus = true ∧ s.cal.arbRun.getLsbD bus = false ∧ s.cal.ext = none →
    (s.busGroups bus).all s.holdsSpare = true →
    (tget? s.cal.arb bus).isSome = true →
    ∃ t, exec (.spareSlotStart bus) s = .next t ∧
      t.cal = { s.cal with slotDue := s.cal.slotDue &&& ~~~(BitVec.twoPow 4 bus), slotRun := s.cal.slotRun ||| BitVec.twoPow 4 bus, grp := t.cal.grp } ∧
      (∀ g ∈ s.busGroups bus, t.grpAt g = { s.grpAt g with acq := { (s.grpAt g).acq with
        spareRole := .calbus, spareTgt := 0x1F, front := .calbus, slotAt := some (s.grpAt g).frames } }) ∧
      (∀ g ∈ s.busGroups bus, t.calAt g = { s.calAt g with limits := s.calLimits }) ∧
      (∀ g, g ∉ s.busGroups bus → t.grpAt g = s.grpAt g ∧ t.calAt g = s.calAt g) ∧
      KeptBut [.cal, .grp] s t) ∧
  (∀ (s : State) (bus : Nat),
    s.rst.mgmtUp = true ∧ bus < 4 →
    s.cal.slotDue.getLsbD bus = true ∧ s.cal.arbRun.getLsbD bus = false ∧ s.cal.ext = none →
    (s.busGroups bus).all s.holdsSpare = true →
    tget? s.cal.arb bus = none →
    (s.cal.startStep ≠ 2 ∨ s.cal.arbRun ≠ 0#4 ∨ s.cal.arbWait ≠ 0#4) ∧
      (s.cal.startStep ≠ 3 ∨ s.cal.slotDue &&& ~~~(BitVec.twoPow 4 bus) ≠ 0#4 ∨ s.cal.slotRun ≠ 0#4) →
    s.host.outst.any (fun y => y.opcode == 0x0E05 && (y.obj == 0 || y.obj.testBit bus)) = false →
    ∃ t, exec (.spareSlotStart bus) s = .next t ∧
      t.cal = { s.cal with
        slotDue := s.cal.slotDue &&& ~~~(BitVec.twoPow 4 bus)
        flags := if s.busGroups bus = [] then s.cal.flags else s.cal.flags ||| 2#32
        failCnt := (s.busGroups bus).foldl (fun n _ => bump n) s.cal.failCnt } ∧
      KeptBut [.cal] s t) ∧
  (∀ (s : State) (bus q : Nat) (o : Outstanding),
    s.rst.mgmtUp = true ∧ bus < 4 →
    s.cal.slotDue.getLsbD bus = true ∧ s.cal.arbRun.getLsbD bus = false ∧ s.cal.ext = none →
    (s.busGroups bus).all s.holdsSpare = true →
    tget? s.cal.arb bus = none →
    (s.cal.startStep ≠ 2 ∨ s.cal.arbRun ≠ 0#4 ∨ s.cal.arbWait ≠ 0#4) ∧
      (s.cal.startStep ≠ 3 ∨ s.cal.slotDue &&& ~~~(BitVec.twoPow 4 bus) ≠ 0#4 ∨ s.cal.slotRun ≠ 0#4) →
    s.host.outst.filter (fun y => y.opcode == 0x0E05 && (y.obj == 0 || y.obj.testBit bus)) = [o] →
    o.obj.testBit bus = true →
    q = o.aux + (if o.aux < 65536 then 655360 else 0) →
    ∃ t, exec (.spareSlotStart bus) s = .next t ∧
      t.cal = { s.cal with
        slotDue := s.cal.slotDue &&& ~~~(BitVec.twoPow 4 bus)
        flags := if s.busGroups bus = [] then s.cal.flags else s.cal.flags ||| 2#32
        failCnt := (s.busGroups bus).foldl (fun n _ => bump n) s.cal.failCnt } ∧
      (o.obj = 2 ^ bus →
        t.host.outst = s.host.outst.filter (fun y => y != o) ∧
        Completed s t o
          { status := if q < 65536 then stOk else stCalFail, detail := q / 65536, result := leBytes 2 (q % 65536) }) ∧
      (o.obj ≠ 2 ^ bus →
        t.host.outst = s.host.outst.map (fun y => if y = o then { o with obj := o.obj - 2 ^ bus, aux := q } else y) ∧
        Kept s t .mbx ∧ Kept s t .window) ∧
      KeptBut [.cal, .requests, .mbx, .window] s t) ∧
  (∀ (s : State) (bus : Nat),
    s.rst.mgmtUp = false ∨ 4 ≤ bus ∨ s.cal.slotDue.getLsbD bus = false ∨ s.cal.arbRun.getLsbD bus = true ∨
      s.cal.ext ≠ none ∨ (s.busGroups bus).all s.holdsSpare = false →
    ∃ t, exec (.spareSlotStart bus) s = .next t ∧
      KeptBut [] s t) ∧
  (∀ (s : State) (bus : Nat) (spares : List SpareCal),
    s.rst.mgmtUp = true ∧ bus < 4 ∧ s.cal.slotRun.getLsbD bus = true →
    (spares.map (fun x => x.grp)).Nodup ∧ spares.all (fun x => (x.sets.map (fun e => e.1)).Nodup) = true →
    (s.cal.arbWait = 0#4 ∧ s.cal.startStep ≠ 2) ∧ (s.cal.startStep ≠ 3 ∨ s.cal.slotDue ≠ 0#4 ∨ s.cal.slotRun &&& ~~~(BitVec.twoPow 4 bus) ≠ 0#4) →
    s.host.outst.any (fun y => y.opcode == 0x0E05 && (y.obj == 0 || y.obj.testBit bus)) = false →
    ∃ t, exec (.spareSlotEnd bus spares) s = .next t ∧
      (∀ x ∈ spares, x.grp < s.groups ∧ x.grp / 4 = bus →
        ((x.sets.all (fun e => (s.calAt x.grp).limits.band e.2) = true ∧ x.agree ≤ 1000 * (s.calAt x.grp).limits.spareTol ∧
          ((17 ∉ (s.calAt x.grp).accepted ∧ x.sets ≠ []) ∨ x.sets.all (fun e => (s.calAt x.grp).limits.near e.2 ((s.calAt x.grp).lastSet (136 + e.1))) = true)) →
          (∀ e ∈ x.sets, (tget? (t.calAt x.grp).inForce (136 + e.1)).map (fun y => (y.ofs, y.g, y.lin, y.tCal)) =
            some (e.2.ofs, e.2.g, e.2.lin, e.2.tCal)) ∧
          (t.calAt x.grp).probe = x.probe ∧ (t.calAt x.grp).passOk = (s.calAt x.grp).passOk ||| BitVec.twoPow 18 17) ∧
        ((x.sets.all (fun e => (s.calAt x.grp).limits.band e.2) = false ∨ 1000 * (s.calAt x.grp).limits.spareTol < x.agree ∨
          ((s.calAt x.grp).limits.stepN = 0 ∧ (17 ∈ (s.calAt x.grp).accepted ∨ x.sets = []) ∧
            x.sets.all (fun e => (s.calAt x.grp).limits.near e.2 ((s.calAt x.grp).lastSet (136 + e.1))) = false)) →
          (t.calAt x.grp).inForce = (s.calAt x.grp).inForce ∧ (t.calAt x.grp).probe = (s.calAt x.grp).probe ∧
          (t.calAt x.grp).passOk = (s.calAt x.grp).passOk &&& ~~~(BitVec.twoPow 18 17) ∧
          t.cal.flags.getLsbD 1 = true) ∧
        (∀ n, n / 8 ≠ 17 → tget? (t.calAt x.grp).inForce n = tget? (s.calAt x.grp).inForce n) ∧
        (t.calAt x.grp).waiting = (s.calAt x.grp).waiting ∧ (t.calAt x.grp).pass = (s.calAt x.grp).pass) ∧
      (∀ n, n / 4 ≠ bus ∨ n ∉ spares.map (fun x => x.grp) → t.calAt n = s.calAt n) ∧
      (∀ n ∈ s.busGroups bus, (t.grpAt n).acq = { (s.grpAt n).acq with
        spareRole := .idle, spareTgt := 0x1F, front := .nothing, sel := [], slotAt := none }) ∧
      (∀ n, n ∉ s.busGroups bus → t.grpAt n = s.grpAt n) ∧
      t.cal = { s.cal with grp := t.cal.grp, flags := t.cal.flags, failCnt := t.cal.failCnt, slotRun := s.cal.slotRun &&& ~~~(BitVec.twoPow 4 bus) } ∧
      KeptBut [.cal, .grp] s t) ∧
  (∀ (s : State) (bus q : Nat) (spares : List SpareCal) (o : Outstanding),
    s.rst.mgmtUp = true ∧ bus < 4 ∧ s.cal.slotRun.getLsbD bus = true →
    (spares.map (fun x => x.grp)).Nodup ∧ spares.all (fun x => (x.sets.map (fun e => e.1)).Nodup) = true →
    (s.cal.arbWait = 0#4 ∧ s.cal.startStep ≠ 2) ∧ (s.cal.startStep ≠ 3 ∨ s.cal.slotDue ≠ 0#4 ∨ s.cal.slotRun &&& ~~~(BitVec.twoPow 4 bus) ≠ 0#4) →
    s.host.outst.filter (fun y => y.opcode == 0x0E05 && (y.obj == 0 || y.obj.testBit bus)) = [o] →
    o.obj.testBit bus = true →
    (∀ x ∈ spares, x.grp < s.groups ∧ x.grp / 4 = bus ∧
        (x.sets.all (fun e => (s.calAt x.grp).limits.band e.2) = true ∧ x.agree ≤ 1000 * (s.calAt x.grp).limits.spareTol ∧
          ((17 ∉ (s.calAt x.grp).accepted ∧ x.sets ≠ []) ∨ x.sets.all (fun e => (s.calAt x.grp).limits.near e.2 ((s.calAt x.grp).lastSet (136 + e.1))) = true))) ∧
      q = o.aux + nsum (spares.map (fun x => 2 ^ x.grp)) →
    ∃ t, exec (.spareSlotEnd bus spares) s = .next t ∧
      (∀ x ∈ spares, x.grp < s.groups ∧ x.grp / 4 = bus →
        ((x.sets.all (fun e => (s.calAt x.grp).limits.band e.2) = true ∧ x.agree ≤ 1000 * (s.calAt x.grp).limits.spareTol ∧
          ((17 ∉ (s.calAt x.grp).accepted ∧ x.sets ≠ []) ∨ x.sets.all (fun e => (s.calAt x.grp).limits.near e.2 ((s.calAt x.grp).lastSet (136 + e.1))) = true)) →
          (∀ e ∈ x.sets, (tget? (t.calAt x.grp).inForce (136 + e.1)).map (fun y => (y.ofs, y.g, y.lin, y.tCal)) =
            some (e.2.ofs, e.2.g, e.2.lin, e.2.tCal)) ∧
          (t.calAt x.grp).probe = x.probe ∧ (t.calAt x.grp).passOk = (s.calAt x.grp).passOk ||| BitVec.twoPow 18 17) ∧
        ((x.sets.all (fun e => (s.calAt x.grp).limits.band e.2) = false ∨ 1000 * (s.calAt x.grp).limits.spareTol < x.agree ∨
          ((s.calAt x.grp).limits.stepN = 0 ∧ (17 ∈ (s.calAt x.grp).accepted ∨ x.sets = []) ∧
            x.sets.all (fun e => (s.calAt x.grp).limits.near e.2 ((s.calAt x.grp).lastSet (136 + e.1))) = false)) →
          (t.calAt x.grp).inForce = (s.calAt x.grp).inForce ∧ (t.calAt x.grp).probe = (s.calAt x.grp).probe ∧
          (t.calAt x.grp).passOk = (s.calAt x.grp).passOk &&& ~~~(BitVec.twoPow 18 17) ∧
          t.cal.flags.getLsbD 1 = true) ∧
        (∀ n, n / 8 ≠ 17 → tget? (t.calAt x.grp).inForce n = tget? (s.calAt x.grp).inForce n) ∧
        (t.calAt x.grp).waiting = (s.calAt x.grp).waiting ∧ (t.calAt x.grp).pass = (s.calAt x.grp).pass) ∧
      (∀ n, n / 4 ≠ bus ∨ n ∉ spares.map (fun x => x.grp) → t.calAt n = s.calAt n) ∧
      (∀ n ∈ s.busGroups bus, (t.grpAt n).acq = { (s.grpAt n).acq with
        spareRole := .idle, spareTgt := 0x1F, front := .nothing, sel := [], slotAt := none }) ∧
      (∀ n, n ∉ s.busGroups bus → t.grpAt n = s.grpAt n) ∧
      t.cal = { s.cal with grp := t.cal.grp, flags := t.cal.flags, failCnt := t.cal.failCnt, slotRun := s.cal.slotRun &&& ~~~(BitVec.twoPow 4 bus) } ∧
      t.cal.flags = s.cal.flags ∧
      (o.obj = 2 ^ bus →
        t.host.outst = s.host.outst.filter (fun y => y != o) ∧
        Completed s t o
          { status := if q < 65536 then stOk else stCalFail, detail := q / 65536, result := leBytes 2 (q % 65536) }) ∧
      (o.obj ≠ 2 ^ bus →
        t.host.outst = s.host.outst.map (fun y => if y = o then { o with obj := o.obj - 2 ^ bus, aux := q } else y) ∧
        Kept s t .mbx ∧ Kept s t .window) ∧
      KeptBut [.cal, .grp, .requests, .mbx, .window] s t) ∧
  (∀ (s : State) (bus k q : Nat) (u : SpareCal) (o : Outstanding),
    s.rst.mgmtUp = true ∧ bus < 4 ∧ s.cal.slotRun.getLsbD bus = true →
    ([u].map (fun x => x.grp)).Nodup ∧ [u].all (fun x => (x.sets.map (fun e => e.1)).Nodup) = true →
    (s.cal.arbWait = 0#4 ∧ s.cal.startStep ≠ 2) ∧ (s.cal.startStep ≠ 3 ∨ s.cal.slotDue ≠ 0#4 ∨ s.cal.slotRun &&& ~~~(BitVec.twoPow 4 bus) ≠ 0#4) →
    s.host.outst.filter (fun y => y.opcode == 0x0E05 && (y.obj == 0 || y.obj.testBit bus)) = [o] →
    o.obj.testBit bus = true →
    u.grp < s.groups ∧ u.grp / 4 = bus →
    (if u.sets.all (fun e => (s.calAt u.grp).limits.band e.2) = false then k = 6
      else 1000 * (s.calAt u.grp).limits.spareTol < u.agree ∧ k = 8) →
    q = o.aux + (if o.aux < 65536 then 65536 * k else 0) →
    ∃ t, exec (.spareSlotEnd bus [u]) s = .next t ∧
      (∀ x ∈ [u], x.grp < s.groups ∧ x.grp / 4 = bus →
        ((x.sets.all (fun e => (s.calAt x.grp).limits.band e.2) = true ∧ x.agree ≤ 1000 * (s.calAt x.grp).limits.spareTol ∧
          ((17 ∉ (s.calAt x.grp).accepted ∧ x.sets ≠ []) ∨ x.sets.all (fun e => (s.calAt x.grp).limits.near e.2 ((s.calAt x.grp).lastSet (136 + e.1))) = true)) →
          (∀ e ∈ x.sets, (tget? (t.calAt x.grp).inForce (136 + e.1)).map (fun y => (y.ofs, y.g, y.lin, y.tCal)) =
            some (e.2.ofs, e.2.g, e.2.lin, e.2.tCal)) ∧
          (t.calAt x.grp).probe = x.probe ∧ (t.calAt x.grp).passOk = (s.calAt x.grp).passOk ||| BitVec.twoPow 18 17) ∧
        ((x.sets.all (fun e => (s.calAt x.grp).limits.band e.2) = false ∨ 1000 * (s.calAt x.grp).limits.spareTol < x.agree ∨
          ((s.calAt x.grp).limits.stepN = 0 ∧ (17 ∈ (s.calAt x.grp).accepted ∨ x.sets = []) ∧
            x.sets.all (fun e => (s.calAt x.grp).limits.near e.2 ((s.calAt x.grp).lastSet (136 + e.1))) = false)) →
          (t.calAt x.grp).inForce = (s.calAt x.grp).inForce ∧ (t.calAt x.grp).probe = (s.calAt x.grp).probe ∧
          (t.calAt x.grp).passOk = (s.calAt x.grp).passOk &&& ~~~(BitVec.twoPow 18 17) ∧
          t.cal.flags.getLsbD 1 = true) ∧
        (∀ n, n / 8 ≠ 17 → tget? (t.calAt x.grp).inForce n = tget? (s.calAt x.grp).inForce n) ∧
        (t.calAt x.grp).waiting = (s.calAt x.grp).waiting ∧ (t.calAt x.grp).pass = (s.calAt x.grp).pass) ∧
      (∀ n, n / 4 ≠ bus ∨ n ∉ [u].map (fun x => x.grp) → t.calAt n = s.calAt n) ∧
      (∀ n ∈ s.busGroups bus, (t.grpAt n).acq = { (s.grpAt n).acq with
        spareRole := .idle, spareTgt := 0x1F, front := .nothing, sel := [], slotAt := none }) ∧
      (∀ n, n ∉ s.busGroups bus → t.grpAt n = s.grpAt n) ∧
      t.cal = { s.cal with grp := t.cal.grp, flags := t.cal.flags, failCnt := t.cal.failCnt, slotRun := s.cal.slotRun &&& ~~~(BitVec.twoPow 4 bus) } ∧
      t.cal.flags = s.cal.flags ||| 2#32 ∧ t.cal.failCnt = bump s.cal.failCnt ∧
      (o.obj = 2 ^ bus →
        t.host.outst = s.host.outst.filter (fun y => y != o) ∧
        Completed s t o
          { status := if q < 65536 then stOk else stCalFail, detail := q / 65536, result := leBytes 2 (q % 65536) }) ∧
      (o.obj ≠ 2 ^ bus →
        t.host.outst = s.host.outst.map (fun y => if y = o then { o with obj := o.obj - 2 ^ bus, aux := q } else y) ∧
        Kept s t .mbx ∧ Kept s t .window) ∧
      KeptBut [.cal, .grp, .requests, .mbx, .window] s t) ∧
  (∀ (s : State) (bus : Nat) (spares : List SpareCal),
    s.rst.mgmtUp = false ∨ 4 ≤ bus ∨ s.cal.slotRun.getLsbD bus = false →
    ∃ t, exec (.spareSlotEnd bus spares) s = .next t ∧
      KeptBut [] s t) ∧
  (∀ (s : State) (grp n : Nat),
    s.grpRuns grp = true ∧ s.rst.mgmtUp = true →
    s.rotates grp = true ∧ s.holdsSpare grp = true →
    s.cal.slotDue.getLsbD (grp / 4) = false ∧ s.cal.slotRun.getLsbD (grp / 4) = false →
    (s.grpAt grp).acq.checks = [] ∧ n = (s.calAt grp).next →
    ∃ t, exec (.patinaPassStart grp) s = .next t ∧
      t.calAt grp = { s.calAt grp with pass := some ⟨n, 1, 0, []⟩, limits := s.calLimits } ∧
      (∀ n, n ≠ grp → t.calAt n = s.calAt n) ∧
      t.grpAt grp = { s.grpAt grp with acq := { (s.grpAt grp).acq with
        spareRole := .share, spareTgt := n, front := .slice n, spareSpan := spareSpan n (s.checkSpan grp n) } } ∧
      OnlyGrp grp s t ∧
      KeptBut [.cal, .grp] s t) ∧
  (∀ (s : State) (grp : Nat) (c : CheckReq) (rest : List CheckReq),
    s.grpRuns grp = true ∧ s.rst.mgmtUp = true →
    s.rotates grp = true ∧ s.holdsSpare grp = true →
    s.cal.slotDue.getLsbD (grp / 4) = false ∧ s.cal.slotRun.getLsbD (grp / 4) = false →
    (s.grpAt grp).acq.checks = c :: rest →
    ∃ t, exec (.patinaPassStart grp) s = .next t ∧
      t.grpAt grp = { s.grpAt grp with acq := { (s.grpAt grp).acq with
        checks := { c with running := true } :: rest, spareTgt := c.slice
        spareRole := if c.path = true then .idle else .share
        front := if c.path = true then .nothing else .slice c.slice
        spareSpan := if c.path = true then (s.grpAt grp).acq.spareSpan
          else spareSpan c.slice (s.checkSpan grp c.slice) } } ∧
      OnlyGrp grp s t ∧
      KeptBut [.grp] s t) ∧
  (∀ (s : State) (grp : Nat),
    s.grpRuns grp = false ∨ s.rst.mgmtUp = false ∨ s.rotates grp = false ∨ s.holdsSpare grp = false ∨
      s.cal.slotDue.getLsbD (grp / 4) = true ∨ s.cal.slotRun.getLsbD (grp / 4) = true →
    ∃ t, exec (.patinaPassStart grp) s = .next t ∧
      KeptBut [] s t) ∧
  (∀ (s : State) (grp : Nat) (p : Pass),
    s.grpRuns grp = true ∧ s.rst.mgmtUp = true →
    (s.grpAt grp).acq.checks.find? (fun y => y.running) = none →
    (s.calAt grp).pass = some p →
    p.step = 2 →
    ∃ t, exec (.carryHandover grp) s = .next t ∧
      t.calAt grp = { s.calAt grp with pass := some { p with step := 3 } } ∧
      (∀ n, n ≠ grp → t.calAt n = s.calAt n) ∧
      t.grpAt grp = { s.grpAt grp with acq := { (s.grpAt grp).acq with
        spareRole := .carry, spareTgt := p.slice, front := .slice p.slice
        spareSpan := spareSpan p.slice (s.checkSpan grp p.slice)
        sel := tput (s.grpAt grp).acq.sel p.slice .ref } } ∧
      OnlyGrp grp s t ∧
      KeptBut [.cal, .grp] s t) ∧
  (∀ (s : State) (grp : Nat) (p : Pass),
    s.grpRuns grp = true ∧ s.rst.mgmtUp = true →
    (s.grpAt grp).acq.checks.find? (fun y => y.running) = none →
    (s.calAt grp).pass = some p →
    p.step = 7 ∧ p.cause = 0 ∧ p.slice < 17 ∧ (p.sets.map (fun e => e.1)).Nodup →
    ∃ t, exec (.carryHandover grp) s = .next t ∧
      (t.calAt grp).pass = none ∧ (t.calAt grp).next = (p.slice + 1) % 17 ∧
      (∀ e ∈ p.sets, tget? (t.calAt grp).waiting (8 * p.slice + e.1) = some e.2) ∧
      (∀ n, n ∉ p.sets.map (fun e => 8 * p.slice + e.1) → tget? (t.calAt grp).waiting n = tget? (s.calAt grp).waiting n) ∧
      (t.calAt grp).inForce = (s.calAt grp).inForce ∧
      (t.calAt grp).passOk = (s.calAt grp).passOk ||| BitVec.twoPow 18 p.slice ∧
      (∀ n, n ≠ grp → t.calAt n = s.calAt n) ∧
      t.cal = { s.cal with grp := t.cal.grp } ∧
      t.grpAt grp = { s.grpAt grp with acq := { (s.grpAt grp).acq with
        spareRole := .idle, spareTgt := 0x1F, front := .nothing, sel := [], slotAt := none } } ∧
      OnlyGrp grp s t ∧
      KeptBut [.cal, .grp] s t) ∧
  (∀ (s : State) (grp : Nat) (p : Pass),
    s.grpRuns grp = true ∧ s.rst.mgmtUp = true →
    (s.grpAt grp).acq.checks.find? (fun y => y.running) = none →
    (s.calAt grp).pass = some p →
    p.step = 7 ∧ p.cause ≠ 0 ∧ p.slice < 17 ∧ (p.cause ≠ 7 ∨ (s.calAt grp).limits.stepN = 0) →
    ∃ t, exec (.carryHandover grp) s = .next t ∧
      t.calAt grp = { s.calAt grp with
        pass := none, next := (p.slice + 1) % 17, changeFails := (t.calAt grp).changeFails
        passOk := (s.calAt grp).passOk &&& ~~~(BitVec.twoPow 18 p.slice) } ∧
      (∀ n, n ≠ grp → t.calAt n = s.calAt n) ∧
      t.cal = { s.cal with grp := t.cal.grp, flags := s.cal.flags ||| 1#32, failCnt := bump s.cal.failCnt } ∧
      t.grpAt grp = { s.grpAt grp with acq := { (s.grpAt grp).acq with
        spareRole := .idle, spareTgt := 0x1F, front := .nothing, sel := [], slotAt := none } } ∧
      OnlyGrp grp s t ∧
      KeptBut [.cal, .grp] s t) ∧
  (∀ (s : State) (grp : Nat) (c : CheckReq),
    s.grpRuns grp = true ∧ s.rst.mgmtUp = true →
    (s.grpAt grp).acq.checks.find? (fun y => y.running) = some c →
    c.path = true ∧ (s.grpAt grp).acq.spareRole ≠ .carry →
    ∃ t, exec (.carryHandover grp) s = .next t ∧
      t.grpAt grp = { s.grpAt grp with acq := { (s.grpAt grp).acq with
        spareRole := .carry, spareTgt := c.slice, front := .slice c.slice
        spareSpan := spareSpan c.slice (s.checkSpan grp c.slice)
        sel := tput (s.grpAt grp).acq.sel c.slice .probe
        probe := probeCode c.slice 0 (-80), probeAtt := probeAtt c.slice 0 } } ∧
      OnlyGrp grp s t ∧
      KeptBut [.grp] s t) ∧
  (∀ (s : State) (grp : Nat),
    s.grpRuns grp = true ∧ s.rst.mgmtUp = true →
    (s.grpAt grp).acq.checks.find? (fun y => y.running) = none →
    (s.calAt grp).pass = none ∧ (s.grpAt grp).acq.spareRole = .carry →
    ∃ t, exec (.carryHandover grp) s = .next t ∧
      t.grpAt grp = { s.grpAt grp with acq := { (s.grpAt grp).acq with
        spareRole := .idle, spareTgt := 0x1F, front := .nothing, sel := [], slotAt := none } } ∧
      OnlyGrp grp s t ∧
      KeptBut [.grp] s t) ∧
  (∀ (s : State) (grp : Nat),
    s.grpRuns grp = false ∨ s.rst.mgmtUp = false ∨
      (s.grpAt grp).acq.checks.any (fun y => y.running && !y.path) = true ∧
        (s.grpAt grp).acq.checks.all (fun y => !y.path) = true ∨
      ((s.grpAt grp).acq.checks.all (fun y => !y.running) = true ∧
        (((s.calAt grp).pass.map (fun x => x.step != 2 && x.step != 7)).getD
          ((s.grpAt grp).acq.spareRole != .carry)) = true) →
    ∃ t, exec (.carryHandover grp) s = .next t ∧
      KeptBut [] s t) ∧
  (∀ (s : State) (grp k : Nat) (sets : List (Nat × Factors)) (p : Pass),
    s.grpRuns grp = true ∧ s.rst.mgmtUp = true →
    (s.calAt grp).pass = some p →
    p.step = 3 ∧ p.cause = 0 →
    k = (if sets.all (fun e => (s.calAt grp).limits.band e.2) = false then 6
      else if p.slice ∉ (s.calAt grp).accepted ∧ sets ≠ [] then 0
      else if sets.all (fun e => (s.calAt grp).limits.near e.2 ((s.calAt grp).lastSet (8 * p.slice + e.1))) = true
        then 0 else 7) →
    ∃ t, exec (.patinaSetsComputed grp sets) s = .next t ∧
      t.calAt grp = { s.calAt grp with pass := (t.calAt grp).pass } ∧
      ((t.calAt grp).pass.map (fun x => (x.slice, x.step, x.cause))) = some (p.slice, 5, k) ∧
      ((t.calAt grp).pass.map (fun x => x.sets.map (fun e => (e.1, e.2.ofs, e.2.g, e.2.lin, e.2.tCal)))) =
        some (sets.map (fun e => (e.1, e.2.ofs, e.2.g, e.2.lin, e.2.tCal))) ∧
      (∀ n, n ≠ grp → t.calAt n = s.calAt n) ∧
      t.cal = { s.cal with grp := t.cal.grp } ∧
      KeptBut [.cal] s t) ∧
  (∀ (s : State) (grp : Nat) (sets : List (Nat × Factors)),
    s.grpRuns grp = false ∨ s.rst.mgmtUp = false ∨
      ((s.calAt grp).pass.map (fun x => x.step != 3 || x.cause != 0)).getD true = true →
    ∃ t, exec (.patinaSetsComputed grp sets) s = .next t ∧
      KeptBut [] s t)

/-- Event inputs, event outputs and the report of a persistent sluice. -/
def Obligations.EventLandsAndPersistentSluices : Prop :=
  (∀ (s : State) (n : Nat) (rising : Bool) (k j : Nat),
    n < 8 ∧ s.rst.ctrlUp = true ∧ tget false s.fab.evtIn n ≠ rising →
    s.fab.raised = [] →
    k < 32 ∧ j < 256 →
    s.fab.sel.filter (fun e => e.1 == 0x1A0 + k) = [(0x1A0 + k, j)] →
    tget [] s.fab.masks j = [0x900 + n] →
    ∃ t, exec (.evtInEdge n rising) s = .next t ∧
      tget false t.fab.evtIn n = rising ∧
      (∀ m, m ≠ n → tget false t.fab.evtIn m = tget false s.fab.evtIn m) ∧
      t.fab.masks = s.fab.masks ∧ t.fab.taps = s.fab.taps ∧ t.fab.sel = s.fab.sel ∧
      t.fab.persist = s.fab.persist ∧ t.fab.raised = [] ∧
      tget 0#32 t.fab.cnt k = (if ((s.live (0x180 + n) 0).toNat = 2 ∨ ((s.live (0x180 + n) 0).toNat = 0 ∧ rising = true) ∨ ((s.live (0x180 + n) 0).toNat = 1 ∧ rising = false))
        then bump (tget 0#32 s.fab.cnt k) else tget 0#32 s.fab.cnt k) ∧
      KeptBut [.routes] s t) ∧
  (∀ (s : State) (n : Nat) (rising : Bool) (m j : Nat),
    n < 8 ∧ s.rst.ctrlUp = true ∧ tget false s.fab.evtIn n ≠ rising →
    s.fab.raised = [] →
    m < 8 ∧ j < 256 →
    s.fab.sel.filter (fun e => e.1 == 0x190 + m) = [(0x190 + m, j)] →
    tget [] s.fab.masks j = [0x900 + n] →
    ∃ t, exec (.evtInEdge n rising) s = .next t ∧
      tget false t.fab.evtIn n = rising ∧
      (∀ m, m ≠ n → tget false t.fab.evtIn m = tget false s.fab.evtIn m) ∧
      t.fab.masks = s.fab.masks ∧ t.fab.taps = s.fab.taps ∧ t.fab.sel = s.fab.sel ∧
      t.fab.persist = s.fab.persist ∧ t.fab.raised = [] ∧
      tget EvtOut.init t.fab.evtOut m = (if ((s.live (0x180 + n) 0).toNat = 2 ∨ ((s.live (0x180 + n) 0).toNat = 0 ∧ rising = true) ∨ ((s.live (0x180 + n) 0).toNat = 1 ∧ rising = false))
        then (if s.live (0x188 + m) 0 = 1#32 then ⟨!(tget EvtOut.init s.fab.evtOut m).level, false⟩ else ⟨true, true⟩)
        else tget EvtOut.init s.fab.evtOut m) ∧
      KeptBut [.routes] s t) ∧
  (∀ (s : State) (n : Nat) (rising : Bool),
    n < 8 ∧ s.rst.ctrlUp = true ∧ tget false s.fab.evtIn n ≠ rising →
    s.fab.raised = [] →
    ∃ t, exec (.evtInEdge n rising) s = .next t ∧
      tget false t.fab.evtIn n = rising ∧
      (∀ m, m ≠ n → tget false t.fab.evtIn m = tget false s.fab.evtIn m) ∧
      t.fab.masks = s.fab.masks ∧ t.fab.taps = s.fab.taps ∧ t.fab.sel = s.fab.sel ∧
      t.fab.persist = s.fab.persist ∧ t.fab.raised = [] ∧
      KeptBut [.routes] s t) ∧
  (∀ (s : State) (n : Nat) (rising : Bool),
    8 ≤ n ∨ s.rst.ctrlUp = false ∨ tget false s.fab.evtIn n = rising →
    ∃ t, exec (.evtInEdge n rising) s = .next t ∧
      KeptBut [] s t) ∧
  (∀ (s : State) (sluice : Nat),
    sluice < 256 ∧ s.rst.ctrlUp = true ∧ s.rst.dataUp = true →
    (tget 0#32 s.fab.persist (sluice / 32)).getLsbD (sluice % 32) = false →
    s.err.ring.length < 4096 →
    s.err.ring.all (fun e => e.body.code != 0x4801#16) = true →
    ∃ t, exec (.persist sluice) s = .next t ∧
      tget 0#32 t.fab.persist (sluice / 32) =
        tget 0#32 s.fab.persist (sluice / 32) ||| BitVec.twoPow 32 (sluice % 32) ∧
      (∀ n, n ≠ sluice / 32 → tget 0#32 t.fab.persist n = tget 0#32 s.fab.persist n) ∧
      t.fab.flags.getLsbD 0 = true ∧
      t.fab.masks = s.fab.masks ∧ t.fab.taps = s.fab.taps ∧ t.fab.sel = s.fab.sel ∧ t.fab.evtIn = s.fab.evtIn ∧
      (t.err.ring.map (fun e => (e.body.seq, e.body.code, e.body.source.toNat))).take (s.err.ring.length + 1) =
        s.err.ring.map (fun e => (e.body.seq, e.body.code, e.body.source.toNat)) ++
          [(s.err.newest + 1#32, 0x4801#16, 0x5000 + sluice)] ∧
      KeptBut [.routes] s t) ∧
  (∀ (s : State) (sluice : Nat),
    sluice < 256 ∧ s.rst.ctrlUp = true →
    (tget 0#32 s.fab.persist (sluice / 32)).getLsbD (sluice % 32) = false →
    ∃ t, exec (.persist sluice) s = .next t ∧
      tget 0#32 t.fab.persist (sluice / 32) =
        tget 0#32 s.fab.persist (sluice / 32) ||| BitVec.twoPow 32 (sluice % 32) ∧
      (∀ n, n ≠ sluice / 32 → tget 0#32 t.fab.persist n = tget 0#32 s.fab.persist n) ∧
      t.fab.flags.getLsbD 0 = true ∧
      t.fab.masks = s.fab.masks ∧ t.fab.taps = s.fab.taps ∧ t.fab.sel = s.fab.sel ∧ t.fab.evtIn = s.fab.evtIn ∧
      (s.rst.dataUp = false →
        (t.err.deferred.map (fun r => (r.code, r.source.toNat))).take (s.err.deferred.length + 1) =
          s.err.deferred.map (fun r => (r.code, r.source.toNat)) ++ [(0x4801#16, 0x5000 + sluice)]) ∧
      KeptBut [.routes] s t) ∧
  (∀ (s : State) (sluice : Nat),
    256 ≤ sluice ∨ s.rst.ctrlUp = false ∨
      (tget 0#32 s.fab.persist (sluice / 32)).getLsbD (sluice % 32) = true →
    ∃ t, exec (.persist sluice) s = .next t ∧
      KeptBut [] s t) ∧
  (∀ (s : State) (n : Nat),
    n < 8 ∧ (tget EvtOut.init s.fab.evtOut n).pulse = true →
    s.fab.raised = [] →
    ∃ t, exec (.evtOutPulseEnd n) s = .next t ∧
      t.fab = { s.fab with evtOut := t.fab.evtOut } ∧
      tget EvtOut.init t.fab.evtOut n = ⟨false, false⟩ ∧
      (∀ m, m ≠ n → tget EvtOut.init t.fab.evtOut m = tget EvtOut.init s.fab.evtOut m) ∧
      KeptBut [] s t) ∧
  (∀ (s : State) (n : Nat),
    8 ≤ n ∨ (tget EvtOut.init s.fab.evtOut n).pulse = false →
    s.fab.raised = [] →
    ∃ t, exec (.evtOutPulseEnd n) s = .next t ∧
      t.fab = s.fab ∧
      KeptBut [] s t)

/-- The frames of the Cosyn link do on the standby what the active module did, once, and are acknowledged. -/
def Obligations.FramesOfThePartnerAct : Prop :=
  (∀ (s : State),
    s.rst.ctrlUp = true ∧ s.twin.train = .up →
    ∃ t, exec (.heartbeatSend) s = .next t ∧
      (s.leads = false ∨ s.announce = s.twin.anns →
        t.twin = { s.twin with hbSeq := s.twin.hbSeq + 1#32, sentBeat := some s.beat, lastSent := (1, 0#32) }) ∧
      (s.leads = true ∧ s.announce ≠ s.twin.anns →
        t.twin = { s.twin with
          hbSeq := s.twin.hbSeq + 1#32, sentBeat := some s.beat, anns := s.announce, fseq := s.twin.fseq + 1#32
          unacked := s.twin.unacked ++ [⟨s.twin.fseq, 4, 0⟩], lastSent := (4, s.twin.fseq) }) ∧
      KeptBut [.twin] s t) ∧
  (∀ (s : State),
    s.rst.ctrlUp = false ∨ s.twin.train ≠ .up →
    ∃ t, exec (.heartbeatSend) s = .next t ∧
      t.twin = s.twin ∧
      KeptBut [] s t) ∧
  (∀ (s : State) (grp : Nat),
    s.leads = true ∧ s.grpRuns grp = true →
    ∃ t, exec (.stateSend grp) s = .next t ∧
      t.twin = { s.twin with
        lastSent := (2, 0#32), sentState := some (grp, (List.range 8).map (fun k => s.chanRecord (8 * grp + k))) } ∧
      KeptBut [.twin] s t) ∧
  (∀ (s : State) (grp : Nat),
    s.leads = false ∨ s.grpRuns grp = false →
    ∃ t, exec (.stateSend grp) s = .next t ∧
      t.twin = s.twin ∧
      KeptBut [] s t) ∧
  (∀ (s : State) (grp : Nat) (chans : List ChanRec),
    s.rst.ctrlUp = true ∧ s.twin.train = .up ∧ s.twin.role = .standby →
    s.hasGrp grp = true ∧ chans.length = 8 →
    ∃ t, exec (.state grp chans) s = .next t ∧
      (∀ k, k < 8 → tget? t.twin.chans (8 * grp + k) = chans[k]?) ∧
      (∀ p, p / 8 ≠ grp → tget? t.twin.chans p = tget? s.twin.chans p) ∧
      t.twin = { s.twin with chans := t.twin.chans, chansDue := s.twin.chansDue ||| BitVec.twoPow 16 grp } ∧
      KeptBut [.twin] s t) ∧
  (∀ (s : State) (grp : Nat) (chans : List ChanRec),
    s.rst.ctrlUp = false ∨ s.twin.train ≠ .up ∨ s.twin.role ≠ .standby ∨ s.hasGrp grp = false ∨ chans.length ≠ 8 →
    ∃ t, exec (.state grp chans) s = .next t ∧
      t.twin = s.twin ∧
      KeptBut [] s t) ∧
  (∀ (s : State) (r : RunnerRec) (fseq : Word) (f : Nat),
    s.rst.ctrlUp = true ∧ s.twin.train = .up ∧ s.twin.role = .standby →
    s.twin.rxAcked.all (fun z => seqLt z fseq) = true →
    s.runnerFig r = some f →
    r.run ≠ 3 ∨ ptOf r.pstate = .pending →
    ∃ t, exec (.runner r fseq) s = .next t ∧
      t.figAt f = { s.figAt f with
        run := runOf r.run, flight := none, pass := BitVec.ofNat 32 r.pass, seq := r.seq
        first := s.castN 0x439 f, count := s.castN 0x43A f, repeats := s.castN 0x43B f
        endMode := s.castN 0x43D f, next := r.point - s.castN 0x439 f
        compA := if r.run = 2 ∨ r.run = 3 then (s.figAt f).compA else none
        compB := if r.run = 2 ∨ r.run = 3 then (s.figAt f).compB else none } ∧
      t.twin = { s.twin with lastSent := (0xB, fseq), rxAcked := some fseq, runners := tput s.twin.runners r.num r } ∧
      OnlyFig f s t ∧
      KeptBut [.twin, .fig] s t) ∧
  (∀ (s : State) (r : RunnerRec) (fseq : Word) (f : Nat) (e : BitVec 256) (b : Bool),
    s.rst.ctrlUp = true ∧ s.twin.train = .up ∧ s.twin.role = .standby →
    s.twin.rxAcked.all (fun z => seqLt z fseq) = true →
    s.runnerFig r = some f →
    r.run = 3 ∧ ptOf r.pstate ≠ .pending →
    e = tget 0#256 s.sets.cast.sweep r.point ∧ b = (ptOf r.pstate != .placed) →
    ∃ t, exec (.runner r fseq) s = .next t ∧
      (t.figAt f).flight.map (fun q => (q.index, q.entry, q.state, q.ticks)) =
        some (r.point, e, ptOf r.pstate, ptDwell e - r.dwell) ∧
      t.figAt f = { s.figAt f with
        run := .active, flight := (t.figAt f).flight, pass := BitVec.ofNat 32 r.pass, seq := r.seq
        first := s.castN 0x439 f, count := s.castN 0x43A f, repeats := s.castN 0x43B f
        endMode := s.castN 0x43D f, next := r.point + 1 - s.castN 0x439 f
        mode := if b = true then modeOf e (s.castN 0x401 f) else (s.figAt f).mode
        level := if b = true then (if ptPulse e = true then ptBase e else ptLevel e) else (s.figAt f).level
        compA := if b = true then some (ptCompA e) else (s.figAt f).compA
        compB := if b = true then some (ptCompB e) else (s.figAt f).compB } ∧
      t.spAt r.num = { s.spAt r.num with slotFig := if s.shared r.num = true then some f else (s.spAt r.num).slotFig } ∧
      t.twin = { s.twin with lastSent := (0xB, fseq), rxAcked := some fseq, runners := tput s.twin.runners r.num r } ∧
      OnlyFig f s t ∧ OnlySp r.num s t ∧
      KeptBut [.twin, .fig, .sp] s t) ∧
  (∀ (s : State) (r : RunnerRec) (fseq : Word),
    s.rst.ctrlUp = true ∧ s.twin.train = .up ∧ s.twin.role = .standby →
    s.twin.rxAcked.all (fun z => seqLt z fseq) = true →
    s.runnerFig r = none →
    ∃ t, exec (.runner r fseq) s = .next t ∧
      t.twin = { s.twin with lastSent := (0xB, fseq), rxAcked := some fseq, runners := tput s.twin.runners r.num r } ∧
      KeptBut [.twin] s t) ∧
  (∀ (s : State) (r : RunnerRec) (fseq : Word),
    s.rst.ctrlUp = false ∨ s.twin.train ≠ .up ∨ s.twin.rxAcked.all (fun z => seqLt z fseq) = false ∨
      s.twin.role ≠ .standby →
    ∃ t, exec (.runner r fseq) s = .next t ∧
      t.twin = (if s.rst.ctrlUp = false ∨ s.twin.train ≠ .up then s.twin
        else if s.twin.rxAcked.all (fun z => seqLt z fseq) = false then { s.twin with lastSent := (0xB, fseq) }
        else { s.twin with lastSent := (0xB, fseq), rxAcked := some fseq }) ∧
      KeptBut [.twin] s t) ∧
  (∀ (s : State) (anns : List (Nat × QueAnn)) (fseq : Word),
    s.rst.ctrlUp = true ∧ s.twin.train = .up ∧ s.twin.role = .standby →
    s.twin.rxAcked.all (fun z => seqLt z fseq) = true →
    (anns.map (fun e => e.1)).Nodup →
    ∃ t, exec (.commitFrame anns fseq) s = .next t ∧
      (∀ e ∈ anns, tget? t.twin.anns e.1 = some e.2 ∧
        ((tget? s.twin.anns e.1).any (fun b => b.next == e.2.next) = false → e.1 ∈ t.twin.annDirty)) ∧
      (∀ n, n ∉ anns.map (fun e => e.1) → tget? t.twin.anns n = tget? s.twin.anns n) ∧
      (∀ n, n ∈ t.twin.annDirty → n ∈ s.twin.annDirty ∨
        anns.any (fun e => e.1 == n && !(tget? s.twin.anns n).any (fun b => b.next == e.2.next)) = true) ∧
      t.twin = { s.twin with lastSent := (0xB, fseq), rxAcked := some fseq, anns := t.twin.anns, annDirty := t.twin.annDirty } ∧
      KeptBut [.twin] s t) ∧
  (∀ (s : State) (anns : List (Nat × QueAnn)) (fseq : Word),
    s.rst.ctrlUp = false ∨ s.twin.train ≠ .up ∨ s.twin.rxAcked.all (fun z => seqLt z fseq) = false ∨
      s.twin.role ≠ .standby →
    ∃ t, exec (.commitFrame anns fseq) s = .next t ∧
      t.twin = (if s.rst.ctrlUp = false ∨ s.twin.train ≠ .up then s.twin
        else if s.twin.rxAcked.all (fun z => seqLt z fseq) = false then { s.twin with lastSent := (0xB, fseq) }
        else { s.twin with lastSent := (0xB, fseq), rxAcked := some fseq }) ∧
      KeptBut [.twin] s t) ∧
  (∀ (s : State) (r : TripRec) (fseq : Word),
    s.rst.ctrlUp = true ∧ s.twin.train = .up ∧ s.twin.role = .standby →
    s.twin.rxAcked.all (fun z => seqLt z fseq) = true →
    r.detail.getLsbD 5 = false →
    ∃ t, exec (.tripFrame (.record r) fseq) s = .next t ∧
      (∀ p, (p = r.port ∨ (p / 8 = r.port / 8 ∧ r.members.getLsbD (p % 8) = true)) →
        t.spAt p = { s.spAt p with sup := { (s.spAt p).sup with
          tripped := true, held := false, tripSeq := r.seq, mon := (t.spAt p).sup.mon
          cause := if p = r.port then r.cause else gangBit } } ∧
        (p ≠ r.port → (t.spAt p).sup.mon = (s.spAt p).sup.mon) ∧
        ((s.figsOn p).all (fun f => !(t.figAt f).enabled && (t.figAt f).run == .idle &&
          (t.placeAt f).state == .tripped)) = true) ∧
      (∀ k, k < 4 → ((t.spAt r.port).sup.mon.getD k Mon.init).latch =
        (((s.spAt r.port).sup.mon.getD k Mon.init).latch || r.mon.getLsbD (k + 4))) ∧
      (∀ p, ¬ (p = r.port ∨ (p / 8 = r.port / 8 ∧ r.members.getLsbD (p % 8) = true)) → t.spAt p = s.spAt p) ∧
      (∀ f, (s.fig.map (fun e => e.1)).contains f = true →
        (∀ k, k < 8 → (8 * (r.port / 8) + k = r.port ∨ (true = true ∧ r.members.getLsbD (k) = true)) → f ∉ s.figsOn (8 * (r.port / 8) + k)) →
        t.figAt f = s.figAt f ∧ t.placeAt f = s.placeAt f) ∧
      t.sets = { s.sets with cast := { s.sets.cast with place := t.sets.cast.place } } ∧
      t.twin = { s.twin with lastSent := (0xB, fseq), rxAcked := some fseq } ∧
      KeptBut [.twin, .sp, .fig, .sets] s t) ∧
  (∀ (s : State) (r : TripRec) (fseq : Word),
    s.rst.ctrlUp = true ∧ s.twin.train = .up ∧ s.twin.role = .standby →
    s.twin.rxAcked.all (fun z => seqLt z fseq) = true →
    r.detail.getLsbD 5 = true →
    ∃ t, exec (.tripFrame (.record r) fseq) s = .next t ∧
      (∀ p, t.spAt p = (if (p = r.port ∨ (p / 8 = r.port / 8 ∧ r.members.getLsbD (p % 8) = true)) then
        { s.spAt p with sup := { (s.spAt p).sup with held := true, heldCode := r.code } } else s.spAt p)) ∧
      t.twin = { s.twin with lastSent := (0xB, fseq), rxAcked := some fseq } ∧
      KeptBut [.twin, .sp] s t) ∧
  (∀ (s : State) (p : Nat) (fseq : Word),
    s.rst.ctrlUp = true ∧ s.twin.train = .up ∧ s.twin.role = .standby →
    s.twin.rxAcked.all (fun z => seqLt z fseq) = true →
    ∃ t, exec (.tripFrame (.tripClear p) fseq) s = .next t ∧
      t.spAt p = { s.spAt p with sup := { (s.spAt p).sup with tripped := false } } ∧
      OnlySp p s t ∧
      t.twin = { s.twin with lastSent := (0xB, fseq), rxAcked := some fseq } ∧
      KeptBut [.twin, .sp] s t) ∧
  (∀ (s : State) (p mask : Nat) (fseq : Word),
    s.rst.ctrlUp = true ∧ s.twin.train = .up ∧ s.twin.role = .standby →
    s.twin.rxAcked.all (fun z => seqLt z fseq) = true →
    ∃ t, exec (.tripFrame (.monClear p mask) fseq) s = .next t ∧
      (∀ k, k < (s.spAt p).sup.mon.length → (t.spAt p).sup.mon.getD k Mon.init =
        { (s.spAt p).sup.mon.getD k Mon.init with
          latch := ((s.spAt p).sup.mon.getD k Mon.init).latch && !mask.testBit k }) ∧
      t.spAt p = { s.spAt p with sup := { (s.spAt p).sup with mon := (t.spAt p).sup.mon } } ∧
      OnlySp p s t ∧
      t.twin = { s.twin with lastSent := (0xB, fseq), rxAcked := some fseq } ∧
      KeptBut [.twin, .sp] s t) ∧
  (∀ (s : State) (p : Nat) (fseq : Word),
    s.rst.ctrlUp = true ∧ s.twin.train = .up ∧ s.twin.role = .standby →
    s.twin.rxAcked.all (fun z => seqLt z fseq) = true →
    ∃ t, exec (.tripFrame (.holdRelease p) fseq) s = .next t ∧
      t.spAt p = { s.spAt p with sup := { (s.spAt p).sup with held := false } } ∧
      OnlySp p s t ∧
      t.twin = { s.twin with lastSent := (0xB, fseq), rxAcked := some fseq } ∧
      KeptBut [.twin, .sp] s t) ∧
  (∀ (s : State) (n : TripNote) (fseq : Word),
    s.rst.ctrlUp = false ∨ s.twin.train ≠ .up ∨ s.twin.rxAcked.all (fun z => seqLt z fseq) = false ∨
      s.twin.role ≠ .standby →
    ∃ t, exec (.tripFrame n fseq) s = .next t ∧
      t.twin = (if s.rst.ctrlUp = false ∨ s.twin.train ≠ .up then s.twin
        else if s.twin.rxAcked.all (fun z => seqLt z fseq) = false then { s.twin with lastSent := (0xB, fseq) }
        else { s.twin with lastSent := (0xB, fseq), rxAcked := some fseq }) ∧
      KeptBut [.twin] s t) ∧
  (∀ (s : State) (e : List MaqEdit) (fseq : Word),
    s.rst.ctrlUp = true ∧ s.twin.train = .up ∧ s.twin.role = .standby →
    s.twin.rxAcked.all (fun z => seqLt z fseq) = true →
    ∃ t, exec (.maq e fseq) s = .next t ∧
      t.sets = { s.sets with
        maq := e.foldl (fun c x => match x with
          | .param key v => { c with params := pset c.params (key / 65536) (key % 65536) v }
          | .define f => defineFig c f
          | .delete f => dropFig c f
          | .coef k (some b) => { c with coefs := tput c.coefs k b }
          | .coef k none => { c with coefs := tdel c.coefs k }
          | .ff k v => { c with ff := tput c.ff k v }
          | .sweep i v => { c with sweep := tput c.sweep i v }
          | .gen f (some b) => { c with gens := tput c.gens f b }
          | .gen f none => { c with gens := tdel c.gens f }
          | .aux k v => { c with aux := tput c.aux k v }
          | .desc p d => { c with descs := tput c.descs p d }
          | .revert => maquetteOf s.sets.cast) s.sets.maq
        maqSeq := s.sets.maqSeq + 1#32, valid := false } ∧
      t.twin = { s.twin with lastSent := (0xB, fseq), rxAcked := some fseq } ∧
      KeptBut [.twin, .sets] s t) ∧
  (∀ (s : State) (e : List MaqEdit) (fseq : Word),
    s.rst.ctrlUp = false ∨ s.twin.train ≠ .up ∨ s.twin.rxAcked.all (fun z => seqLt z fseq) = false ∨
      s.twin.role ≠ .standby →
    ∃ t, exec (.maq e fseq) s = .next t ∧
      t.twin = (if s.rst.ctrlUp = false ∨ s.twin.train ≠ .up then s.twin
        else if s.twin.rxAcked.all (fun z => seqLt z fseq) = false then { s.twin with lastSent := (0xB, fseq) }
        else { s.twin with lastSent := (0xB, fseq), rxAcked := some fseq }) ∧
      KeptBut [.twin] s t) ∧
  (∀ (s : State) (cast maq : CfgSet) (castSeq maqSeq fseq : Word),
    s.rst.ctrlUp = true ∧ s.twin.train = .up ∧ s.twin.role = .standby →
    s.twin.rxAcked.all (fun z => seqLt z fseq) = true →
    ∃ t, exec (.sync cast maq castSeq maqSeq fseq) s = .next t ∧
      t.sets.castSeq = castSeq ∧ t.sets.maqSeq = maqSeq ∧ t.sets.maq = maq ∧ t.sets.cast = cast ∧
      t.sets.castEmpty = cast.figs.isEmpty ∧ t.sets.valid = false ∧ t.peat.twinDigest = t.sets.digest ∧
      t.twin.resync = false ∧ t.twin.stateSeen = 0#16 ∧
      t.twin.rxAcked = some fseq ∧
      KeptBut [.twin, .sets, .grp, .sp, .fig, .que, .routes, .iso, .pfe, .mt, .cal, .sto, .misc, .mbx, .requests, .window, .free] s t) ∧
  (∀ (s : State) (cast maq : CfgSet) (castSeq maqSeq : Word) (fseq : Word),
    s.rst.ctrlUp = false ∨ s.twin.train ≠ .up ∨ s.twin.rxAcked.all (fun z => seqLt z fseq) = false ∨
      s.twin.role ≠ .standby →
    ∃ t, exec (.sync cast maq castSeq maqSeq fseq) s = .next t ∧
      t.twin = (if s.rst.ctrlUp = false ∨ s.twin.train ≠ .up then s.twin
        else if s.twin.rxAcked.all (fun z => seqLt z fseq) = false then { s.twin with lastSent := (0xB, fseq) }
        else { s.twin with lastSent := (0xB, fseq), rxAcked := some fseq }) ∧
      KeptBut [.twin] s t) ∧
  (∀ (s : State) (target : DWord) (castSeq fseq : Word) (digest : DWord) (place : Tab Placement) (auxArm : Tab (BitVec 128)) (internal : Bool),
    s.rst.ctrlUp = true ∧ s.twin.train = .up ∧ s.twin.role = .standby →
    s.twin.rxAcked.all (fun z => seqLt z fseq) = true →
    ∃ t, exec (.unveilFrame target castSeq digest place auxArm internal fseq) s = .next t ∧
      t.sets = { s.sets with
        transfer := some ⟨{ (if internal = true then s.sets.cast else s.sets.maq) with
          place := place, auxArm := auxArm }, none, false, internal, true, target, true, []⟩
        frozen := s.sets.frozen || !internal
        phase := if internal = true then s.sets.phase else 2 } ∧
      t.twin = { s.twin with lastSent := (0xB, fseq), rxAcked := some fseq } ∧
      KeptBut [.twin, .sets] s t) ∧
  (∀ (s : State) (target : DWord) (castSeq : Word) (digest : DWord) (place : Tab Placement) (auxArm : Tab (BitVec 128)) (internal : Bool) (fseq : Word),
    s.rst.ctrlUp = false ∨ s.twin.train ≠ .up ∨ s.twin.rxAcked.all (fun z => seqLt z fseq) = false ∨
      s.twin.role ≠ .standby →
    ∃ t, exec (.unveilFrame target castSeq digest place auxArm internal fseq) s = .next t ∧
      t.twin = (if s.rst.ctrlUp = false ∨ s.twin.train ≠ .up then s.twin
        else if s.twin.rxAcked.all (fun z => seqLt z fseq) = false then { s.twin with lastSent := (0xB, fseq) }
        else { s.twin with lastSent := (0xB, fseq), rxAcked := some fseq }) ∧
      KeptBut [.twin] s t) ∧
  (∀ (s : State) (b : Bool) (fseq : Word),
    s.rst.ctrlUp = true ∧ s.twin.train = .up →
    s.twin.rxAcked.all (fun z => seqLt z fseq) = true →
    ∃ t, exec (.controlFrame (.calBusy b) fseq) s = .next t ∧
      t.twin = { s.twin with lastSent := (0xB, fseq), rxAcked := some fseq, partnerCal := b } ∧
      KeptBut [.twin] s t) ∧
  (∀ (s : State) (fseq : Word),
    s.rst.ctrlUp = true ∧ s.twin.train = .up →
    s.twin.rxAcked.all (fun z => seqLt z fseq) = true →
    ∃ t, exec (.controlFrame .attach fseq) s = .next t ∧
      t.twin = { s.twin with lastSent := (0xB, fseq), rxAcked := some fseq, attempts := 0 } ∧
      KeptBut [.twin] s t) ∧
  (∀ (s : State) (fseq : Word),
    s.rst.ctrlUp = true ∧ s.twin.train = .up →
    s.twin.rxAcked.all (fun z => seqLt z fseq) = true →
    ∃ t, exec (.controlFrame .detach fseq) s = .next t ∧
      t.twin = { s.twin with
        role := .detached, link := .down, train := .idle, trying := false, unacked := [], resync := false
        chansDue := 0#16, shadowStop := false, attachBusy := false, warm := false, edits := []
        flags := s.twin.flags ||| bitAt (s.twin.role != .detached) 0 ||| bitAt (s.twin.link == .up) 1
        lastSent := (0xB, fseq), rxAcked := some fseq } ∧
      (s.twin.role ≠ .standby → (∀ p, t.spAt p = s.spAt p) ∧ t.fig = s.fig) ∧
      (s.twin.role = .standby →
        (∀ p, p < 8 * s.groups → (t.spAt p).force.out = .off ∧ (t.spAt p).force.driven = false) ∧
        t.fig.all (fun e => !e.2.enabled) = true) ∧
      KeptBut [.twin, .sp, .fig, .grp, .que, .mbx, .requests, .window, .free] s t) ∧
  (∀ (s : State) (n : ControlNote) (fseq : Word),
    s.rst.ctrlUp = false ∨ s.twin.train ≠ .up ∨ s.twin.rxAcked.all (fun z => seqLt z fseq) = false →
    ∃ t, exec (.controlFrame n fseq) s = .next t ∧
      t.twin = (if s.rst.ctrlUp = false ∨ s.twin.train ≠ .up then s.twin
        else { s.twin with lastSent := (0xB, fseq) }) ∧
      KeptBut [.twin] s t)

/-- Training, acknowledgement and loss of the Cosyn link. -/
def Obligations.TheCosynLinkTrains : Prop :=
  (∀ (s : State),
    s.rst.ctrlUp = true ∧ s.pairStrap = true →
    s.twin.trying = false ∧ (s.twin.train = .idle ∨ s.twin.train = .detect) →
    ∃ t, exec (.trainAttemptStart) s = .next t ∧
      t.twin = { s.twin with
        train := .detect, trying := true, rev := false, pol := 0#4
        link := if s.twin.link = .split then .split else .training, warm := s.twin.warm && s.twin.link == .split
        role := if s.twin.role = .detached then .negotiating else s.twin.role
        attempts := if s.twin.role = .detached then 0 else s.twin.attempts
        attachBusy := s.twin.attachBusy || s.twin.role == .detached
        flags := s.twin.flags ||| bitAt (s.twin.role == .detached) 0 ||| bitAt (s.twin.link == .up) 1 } ∧
      KeptBut [.twin] s t) ∧
  (∀ (s : State),
    s.rst.ctrlUp = false ∨ s.pairStrap = false ∨ s.twin.trying = true ∨
      (s.twin.train ≠ .idle ∧ s.twin.train ≠ .detect) →
    ∃ t, exec (.trainAttemptStart) s = .next t ∧
      t.twin = s.twin ∧
      KeptBut [] s t) ∧
  (∀ (s : State) (order : List Nat) (pol : BitVec 4),
    s.rst.ctrlUp = true ∧ s.twin.trying = true →
    s.twin.train = .detect →
    ∃ t, exec (.trainStateDone order pol) s = .next t ∧
      t.twin = { s.twin with train := .lock } ∧
      KeptBut [.twin] s t) ∧
  (∀ (s : State) (order : List Nat) (pol : BitVec 4),
    s.rst.ctrlUp = true ∧ s.twin.trying = true →
    s.twin.train = .lock →
    ∃ t, exec (.trainStateDone order pol) s = .next t ∧
      t.twin = { s.twin with train := .order, pol := pol } ∧
      KeptBut [.twin] s t) ∧
  (∀ (s : State) (order : List Nat) (pol : BitVec 4),
    s.rst.ctrlUp = true ∧ s.twin.trying = true ∧ s.twin.train = .order →
    order = [0, 1, 2, 3] ∨ order = [3, 2, 1, 0] →
    ∃ t, exec (.trainStateDone order pol) s = .next t ∧
      t.twin = { s.twin with train := .config, rev := order == [3, 2, 1, 0] } ∧
      KeptBut [.twin] s t) ∧
  (∀ (s : State) (order : List Nat) (pol : BitVec 4),
    s.rst.ctrlUp = true ∧ s.twin.trying = true ∧ s.twin.train = .order →
    order ≠ [0, 1, 2, 3] ∧ order ≠ [3, 2, 1, 0] →
    s.twin.attempts < 2 ∧ (s.roleSettled = false ∨ s.twin.attachBusy = true) →
    ∃ t, exec (.trainStateDone order pol) s = .next t ∧
      t.twin = { s.twin with
        train := .detect, trying := false, attempts := s.twin.attempts + 1, trainFail := bump s.twin.trainFail
        flags := s.twin.flags ||| 0x40#32 } ∧
      KeptBut [.twin] s t) ∧
  (∀ (s : State) (order : List Nat) (pol : BitVec 4) (past solo : Bool) (l : Link),
    s.rst.ctrlUp = true ∧ s.twin.trying = true ∧ s.twin.train = .order →
    order ≠ [0, 1, 2, 3] ∧ order ≠ [3, 2, 1, 0] →
    2 ≤ s.twin.attempts ∨ (s.roleSettled = true ∧ s.twin.attachBusy = false) →
    past = (2 ≤ s.twin.attempts && !s.twin.aliveIn) ∧ solo = (past && !s.roleSettled) →
    l = (if s.twin.aliveIn = true ∧ s.twin.role ≠ .detached ∧ s.pairStrap = true then .split else .down) →
    past = false ∨ s.host.outst.any (fun y => y.opcode == 0x0903) = false →
    ∃ t, exec (.trainStateDone order pol) s = .next t ∧
      t.twin = { s.twin with
        train := .detect, trying := false, attempts := s.twin.attempts + 1, trainFail := bump s.twin.trainFail
        flags := s.twin.flags ||| 0x40#32 ||| (if solo = true then 0x201#32 else 0#32) |||
          bitAt (s.twin.link == .up) 1 ||| bitAt (l == .split && s.twin.link != .split) 2
        role := if solo = true then .solo else s.twin.role
        seated := if solo = true then s.allGroups else s.twin.seated
        link := l, warm := false, attachBusy := s.twin.attachBusy && !past } ∧
      KeptBut [.twin] s t) ∧
  (∀ (s : State) (order : List Nat) (pol : BitVec 4),
    s.rst.ctrlUp = false ∨ s.twin.trying = false ∨ s.twin.train = .idle ∨ s.twin.train = .config ∨ s.twin.train = .up →
    ∃ t, exec (.trainStateDone order pol) s = .next t ∧
      t.twin = s.twin ∧
      KeptBut [] s t) ∧
  (∀ (s : State) (c : ConfigMsg),
    s.rst.ctrlUp = true ∧ s.twin.trying = true ∧ s.twin.train = .config →
    c.part = partCode s.ident.part ∧ c.major = 2 ∧ c.serial ≠ s.ident.serial ∧ c.latency ≤ 3000 →
    s.winsRole c c.seated = true →
    ∃ t, exec (.config c) s = .next t ∧
      t.twin = { s.twin with
        latency := c.latency, partner := c.serial, train := .up, trying := false, conf := some c, missRun := 0
        last := none, rxAcked := none, warmBeat := false, link := .up, resync := true, stateSeen := 0#16
        attachBusy := false, attempts := 0, role := .active, seated := s.allGroups
        flags := s.twin.flags ||| bitAt (s.twin.role != .active) 0
        fseq := s.twin.fseq + 1#32, unacked := [⟨s.twin.fseq, 7, 0⟩], lastSent := (7, s.twin.fseq) } ∧
      (s.twin.role ≠ .standby → (∀ p, t.spAt p = s.spAt p) ∧ t.fig = s.fig) ∧
      (s.twin.role = .standby → (∀ p, p < 8 * s.groups → (t.spAt p).force.out = .off) ∧ t.fig.all (fun e => !e.2.enabled) = true) ∧
      (s.host.outst.any (fun y => y.opcode == 0x0903) = false →
        Kept s t .requests ∧ Kept s t .mbx ∧ Kept s t .window) ∧
      KeptBut [.twin, .sp, .fig, .grp, .que, .requests, .mbx, .window, .free] s t) ∧
  (∀ (s : State) (c : ConfigMsg),
    s.rst.ctrlUp = true ∧ s.twin.trying = true ∧ s.twin.train = .config →
    c.part = partCode s.ident.part ∧ c.major = 2 ∧ c.serial ≠ s.ident.serial ∧ c.latency ≤ 3000 →
    s.winsRole c c.seated = false →
    ∃ t, exec (.config c) s = .next t ∧
      t.twin = { s.twin with
        latency := c.latency, partner := c.serial, train := .up, trying := false, conf := some c, missRun := 0
        last := none, rxAcked := none, warmBeat := false, link := .up, resync := true, stateSeen := 0#16
        attachBusy := false, attempts := 0, role := .standby, seated := 0#16
        flags := s.twin.flags ||| bitAt (s.twin.role != .standby) 0
        unacked := [] } ∧
      (∀ p, p < 8 * s.groups →
        s.twin.seated ≠ 0#16 ∨ (s.spAt p).force.out = .off ∨ (s.spAt p).force.out = .standby →
        (t.spAt p).force.out = (if s.figsOn p = [] then .off else .standby)) ∧
      (s.twin.seated = 0#16 → t.fig = s.fig ∧
        ∀ p, t.spAt p = { s.spAt p with force := { (s.spAt p).force with out := (t.spAt p).force.out } }) ∧
      (s.twin.seated ≠ 0#16 → (∀ p, p < 8 * s.groups → (t.spAt p).force.driven = false ∧ (t.spAt p).force.lines = []) ∧
        t.fig.all (fun e => !e.2.enabled || (e.2.run == .idle && e.2.flight.isNone)) = true) ∧
      (s.host.outst.any (fun y => y.opcode == 0x0903) = false →
        Kept s t .requests ∧ Kept s t .mbx ∧ Kept s t .window) ∧
      KeptBut [.twin, .sp, .fig, .grp, .que, .requests, .mbx, .window, .free] s t) ∧
  (∀ (s : State) (c : ConfigMsg) (o : Outstanding),
    s.rst.ctrlUp = true ∧ s.twin.trying = true ∧ s.twin.train = .config →
    c.part = partCode s.ident.part ∧ c.major = 2 ∧ c.serial ≠ s.ident.serial ∧ c.latency ≤ 3000 →
    s.host.outst.filter (fun y => y.opcode == 0x0903) = [o] →
    s.host.outst.all (fun y => y.opcode != 0x0A02 && y.opcode != 0x0704) = true →
    ∃ t, exec (.config c) s = .next t ∧
      Completed s t o { status := stOk } ∧
      t.host.outst = s.host.outst.filter (fun y => y != o) ∧
      t.twin.link = .up ∧ t.twin.train = .up ∧ t.twin.attachBusy = false ∧
      t.twin.role = (if s.winsRole c c.seated = true then .active else .standby) ∧
      KeptBut [.twin, .sp, .fig, .grp, .que, .requests, .mbx, .window, .free] s t) ∧
  (∀ (s : State) (c : ConfigMsg),
    s.rst.ctrlUp = true ∧ s.twin.trying = true ∧ s.twin.train = .config →
    c.part ≠ partCode s.ident.part ∨ c.major ≠ 2 ∨ c.serial = s.ident.serial ∨ 3000 < c.latency →
    s.twin.attempts < 2 ∧ (s.roleSettled = false ∨ s.twin.attachBusy = true) →
    ∃ t, exec (.config c) s = .next t ∧
      t.twin = { s.twin with
        latency := min 65535 c.latency, partner := c.serial
        train := .detect, trying := false, attempts := s.twin.attempts + 1, trainFail := bump s.twin.trainFail
        flags := s.twin.flags ||| bitAt (decide (3000 < c.latency)) 8 ||| 0x40#32 } ∧
      KeptBut [.twin] s t) ∧
  (∀ (s : State) (c : ConfigMsg) (past solo : Bool) (l : Link),
    s.rst.ctrlUp = true ∧ s.twin.trying = true ∧ s.twin.train = .config →
    c.part ≠ partCode s.ident.part ∨ c.major ≠ 2 ∨ c.serial = s.ident.serial ∨ 3000 < c.latency →
    2 ≤ s.twin.attempts ∨ (s.roleSettled = true ∧ s.twin.attachBusy = false) →
    past = (2 ≤ s.twin.attempts && !s.twin.aliveIn) ∧ solo = (past && !s.roleSettled) →
    l = (if s.twin.aliveIn = true ∧ s.twin.role ≠ .detached ∧ s.pairStrap = true then .split else .down) →
    past = false ∨ s.host.outst.any (fun y => y.opcode == 0x0903) = false →
    ∃ t, exec (.config c) s = .next t ∧
      t.twin = { s.twin with
        latency := min 65535 c.latency, partner := c.serial
        train := .detect, trying := false, attempts := s.twin.attempts + 1, trainFail := bump s.twin.trainFail
        flags := s.twin.flags ||| bitAt (decide (3000 < c.latency)) 8 ||| 0x40#32 ||| (if solo = true then 0x201#32 else 0#32) |||
          bitAt (s.twin.link == .up) 1 ||| bitAt (l == .split && s.twin.link != .split) 2
        role := if solo = true then .solo else s.twin.role
        seated := if solo = true then s.allGroups else s.twin.seated
        link := l, warm := false, attachBusy := s.twin.attachBusy && !past } ∧
      KeptBut [.twin] s t) ∧
  (∀ (s : State) (c : ConfigMsg),
    s.rst.ctrlUp = false ∨ s.twin.trying = false ∨ s.twin.train ≠ .config →
    ∃ t, exec (.config c) s = .next t ∧
      t.twin = s.twin ∧
      KeptBut [] s t) ∧
  (∀ (s : State),
    s.rst.ctrlUp = true ∧ s.twin.trying = true →
    s.twin.attempts < 2 ∧ (s.roleSettled = false ∨ s.twin.attachBusy = true) →
    ∃ t, exec (.trainTimeout) s = .next t ∧
      t.twin = { s.twin with
        train := .detect, trying := false, attempts := s.twin.attempts + 1, trainFail := bump s.twin.trainFail
        flags := s.twin.flags ||| 0x40#32 } ∧
      KeptBut [.twin] s t) ∧
  (∀ (s : State) (past solo : Bool) (l : Link),
    s.rst.ctrlUp = true ∧ s.twin.trying = true →
    2 ≤ s.twin.attempts ∨ (s.roleSettled = true ∧ s.twin.attachBusy = false) →
    past = (2 ≤ s.twin.attempts && !s.twin.aliveIn) ∧ solo = (past && !s.roleSettled) →
    l = (if s.twin.aliveIn = true ∧ s.twin.role ≠ .detached ∧ s.pairStrap = true then .split else .down) →
    past = false ∨ s.host.outst.any (fun y => y.opcode == 0x0903) = false →
    ∃ t, exec (.trainTimeout) s = .next t ∧
      t.twin = { s.twin with
        train := .detect, trying := false, attempts := s.twin.attempts + 1, trainFail := bump s.twin.trainFail
        flags := s.twin.flags ||| 0x40#32 ||| (if solo = true then 0x201#32 else 0#32) |||
          bitAt (s.twin.link == .up) 1 ||| bitAt (l == .split && s.twin.link != .split) 2
        role := if solo = true then .solo else s.twin.role
        seated := if solo = true then s.allGroups else s.twin.seated
        link := l, warm := false, attachBusy := s.twin.attachBusy && !past } ∧
      KeptBut [.twin] s t) ∧
  (∀ (s : State) (o : Outstanding),
    s.rst.ctrlUp = true ∧ s.twin.trying = true →
    2 ≤ s.twin.attempts ∧ s.twin.aliveIn = false →
    s.host.outst.filter (fun y => y.opcode == 0x0903) = [o] →
    ∃ t, exec (.trainTimeout) s = .next t ∧
      Completed s t o { status := stAborted, detail := 1 } ∧
      t.host.outst = s.host.outst.filter (fun y => y != o) ∧
      t.twin.attachBusy = false ∧ t.twin.link = .down ∧ t.twin.train = .detect ∧
      t.twin.role = (if s.roleSettled = true then s.twin.role else .solo) ∧
      KeptBut [.twin, .requests, .mbx, .window] s t) ∧
  (∀ (s : State),
    s.rst.ctrlUp = false ∨ s.twin.trying = false →
    ∃ t, exec (.trainTimeout) s = .next t ∧
      t.twin = s.twin ∧
      KeptBut [] s t) ∧
  (∀ (s : State) (ns : Nat),
    s.rst.ctrlUp = true ∧ s.twin.train = .up →
    ∃ t, exec (.latencyMeasure ns) s = .next t ∧
      t.twin = { s.twin with latency := min 65535 ns } ∧
      KeptBut [.twin] s t) ∧
  (∀ (s : State) (ns : Nat),
    s.rst.ctrlUp = false ∨ s.twin.train ≠ .up →
    ∃ t, exec (.latencyMeasure ns) s = .next t ∧
      t.twin = s.twin ∧
      KeptBut [] s t) ∧
  (∀ (s : State),
    s.rst.ctrlUp = true ∧ (s.twin.train = .config ∨ s.twin.train = .up) →
    ∃ t, exec (.cosynFrameDiscard) s = .next t ∧
      t.twin = { s.twin with frameErr := bump s.twin.frameErr, flags := s.twin.flags ||| 0x20#32 } ∧
      KeptBut [.twin] s t) ∧
  (∀ (s : State),
    s.rst.ctrlUp = false ∨ (s.twin.train ≠ .config ∧ s.twin.train ≠ .up) →
    ∃ t, exec (.cosynFrameDiscard) s = .next t ∧
      t.twin = s.twin ∧
      KeptBut [] s t) ∧
  (∀ (s : State) (fseq : Word) (u : Unacked),
    s.rst.ctrlUp = true ∧ s.twin.train = .up →
    s.twin.unacked.find? (fun y => y.fseq == fseq) = some u →
    s.twin.edits.any (fun y => y.fseq == fseq) = false →
    u.ftype ≠ 0xA ∨ s.host.outst.any (fun y => y.opcode == 0x0902 && y.obj == 0 && y.aux == fseq.toNat) = false →
    ∃ t, exec (.ack fseq) s = .next t ∧
      t.twin = { s.twin with
        unacked := s.twin.unacked.filter (fun y => y.fseq != fseq), resync := s.twin.resync && u.ftype != 7
        edits := s.twin.edits
        handover := if u.ftype = 9 then s.twin.handover.map (fun h => { h with acked := true })
          else s.twin.handover } ∧
      t.sets = { s.sets with transfer := if u.ftype = 8
        then s.sets.transfer.map (fun y => { y with acked := true }) else s.sets.transfer } ∧
      KeptBut [.twin, .sets] s t) ∧
  (∀ (s : State) (fseq : Word) (u : Unacked) (w : EditWait),
    s.rst.ctrlUp = true ∧ s.twin.train = .up →
    s.twin.unacked.find? (fun y => y.fseq == fseq) = some u →
    s.twin.edits.filter (fun y => y.fseq == fseq) = [w] ∧ u.ftype ≠ 0xA →
    ∃ t, exec (.ack fseq) s = .next t ∧
      t.twin = { s.twin with
        unacked := s.twin.unacked.filter (fun y => y.fseq != fseq), resync := s.twin.resync && u.ftype != 7
        edits := s.twin.edits.filter (fun y => y.fseq != fseq)
        handover := if u.ftype = 9 then s.twin.handover.map (fun h => { h with acked := true })
          else s.twin.handover } ∧
      t.sets = { s.sets with transfer := if u.ftype = 8
        then s.sets.transfer.map (fun y => { y with acked := true }) else s.sets.transfer } ∧
      Completed s t ⟨w.mbx, false, w.opcode, w.tag, w.outLen, w.outAddr, w.mtAccept, 0, 0, 0⟩ { status := stOk, result := w.result } ∧
      t.host.outst = s.host.outst ∧
      KeptBut [.twin, .sets, .requests, .mbx, .window] s t) ∧
  (∀ (s : State) (fseq : Word) (u : Unacked) (o : Outstanding),
    s.rst.ctrlUp = true ∧ s.twin.train = .up →
    s.twin.unacked.find? (fun y => y.fseq == fseq) = some u →
    s.twin.role ≠ .detached ∧ s.twin.edits = [] →
    s.host.outst.filter (fun y => y.opcode == 0x0902) = [o] ∧ o.obj = 0 →
    s.host.outst.all (fun y => y.opcode != 0x0A02 && y.opcode != 0x0704) = true →
    u.ftype = 0xA ∧ o.aux = fseq.toNat →
    ∃ t, exec (.ack fseq) s = .next t ∧
      t.twin.role = .detached ∧ t.twin.link = .down ∧ t.twin.train = .idle ∧ t.twin.trying = false ∧
      t.twin.unacked = [] ∧ t.twin.edits = [] ∧ t.twin.seated = s.twin.seated ∧ t.twin.flags.getLsbD 0 = true ∧
      (s.twin.role ≠ .standby → (∀ p, t.spAt p = s.spAt p) ∧ t.fig = s.fig) ∧
      (s.twin.role = .standby → (∀ p, p < 8 * s.groups → (t.spAt p).force.out = .off) ∧
        t.fig.all (fun e => !e.2.enabled) = true) ∧
      t.host.outst = s.host.outst.filter (fun y => y != o) ∧
      Completed s t o { status := stOk } ∧
      KeptBut [.twin, .sets, .sp, .fig, .grp, .que, .mbx, .requests, .window, .free] s t) ∧
  (∀ (s : State) (fseq : Word),
    s.rst.ctrlUp = false ∨ s.twin.train ≠ .up ∨ s.twin.unacked.all (fun y => y.fseq != fseq) = true →
    ∃ t, exec (.ack fseq) s = .next t ∧
      t.twin = s.twin ∧
      KeptBut [] s t) ∧
  (∀ (s : State) (fseq : Word) (u : Unacked),
    s.rst.ctrlUp = true ∧ s.twin.train = .up →
    s.twin.unacked.find? (fun y => y.fseq == fseq) = some u ∧ u.resends < 8 →
    ∃ t, exec (.retransmitTimeout fseq) s = .next t ∧
      t.twin = { s.twin with
        retx := bump s.twin.retx, lastSent := (u.ftype, fseq)
        unacked := s.twin.unacked.map (fun y => if y.fseq = fseq then { y with resends := y.resends + 1 } else y) } ∧
      KeptBut [.twin] s t) ∧
  (∀ (s : State) (fseq : Word) (u : Unacked) (l : Link),
    s.rst.ctrlUp = true ∧ s.twin.train = .up ∧ s.twin.role ≠ .detached →
    s.twin.unacked.find? (fun y => y.fseq == fseq) = some u ∧ 8 ≤ u.resends →
    l = (if s.twin.aliveIn = true ∧ s.twin.role ≠ .detached ∧ s.pairStrap = true then .split else .down) →
    s.host.outst.any (fun y => y.opcode == 0x0902 && y.obj == 0) = false →
    s.twin.edits = [] →
    ∃ t, exec (.retransmitTimeout fseq) s = .next t ∧
      t.twin = { s.twin with
        train := .detect, trying := true, unacked := [], resync := false, edits := [], warm := false, link := if l = .split then .split else .training
        flags := s.twin.flags ||| bitAt (s.twin.link == .up) 1 ||| bitAt (l == .split && s.twin.link != .split) 2
        rev := false, pol := 0#4 } ∧
      KeptBut [.twin] s t) ∧
  (∀ (s : State) (fseq : Word) (u : Unacked) (l : Link) (w : EditWait),
    s.rst.ctrlUp = true ∧ s.twin.train = .up ∧ s.twin.role ≠ .detached →
    s.twin.unacked.find? (fun y => y.fseq == fseq) = some u ∧ 8 ≤ u.resends →
    l = (if s.twin.aliveIn = true ∧ s.twin.role ≠ .detached ∧ s.pairStrap = true then .split else .down) →
    s.host.outst.any (fun y => y.opcode == 0x0902 && y.obj == 0) = false →
    s.twin.edits = [w] →
    ∃ t, exec (.retransmitTimeout fseq) s = .next t ∧
      t.twin = { s.twin with
        train := .detect, trying := true, unacked := [], resync := false, edits := [], warm := false, link := if l = .split then .split else .training
        flags := s.twin.flags ||| bitAt (s.twin.link == .up) 1 ||| bitAt (l == .split && s.twin.link != .split) 2
        rev := false, pol := 0#4 } ∧
      Completed s t ⟨w.mbx, false, w.opcode, w.tag, w.outLen, w.outAddr, w.mtAccept, 0, 0, 0⟩ { status := stOk, result := w.result } ∧
      t.host.outst = s.host.outst ∧
      KeptBut [.twin, .requests, .mbx, .window] s t) ∧
  (∀ (s : State) (fseq : Word) (u : Unacked) (o : Outstanding),
    s.rst.ctrlUp = true ∧ s.twin.train = .up ∧ s.twin.role ≠ .detached →
    s.twin.unacked.find? (fun y => y.fseq == fseq) = some u ∧ 8 ≤ u.resends →
    s.twin.role ≠ .detached ∧ s.twin.edits = [] →
    s.host.outst.filter (fun y => y.opcode == 0x0902) = [o] ∧ o.obj = 0 →
    s.host.outst.all (fun y => y.opcode != 0x0A02 && y.opcode != 0x0704) = true →
    ∃ t, exec (.retransmitTimeout fseq) s = .next t ∧
      t.twin.role = .detached ∧ t.twin.link = .down ∧ t.twin.train = .idle ∧ t.twin.trying = false ∧
      t.twin.unacked = [] ∧ t.twin.edits = [] ∧ t.twin.seated = s.twin.seated ∧ t.twin.flags.getLsbD 0 = true ∧
      (s.twin.role ≠ .standby → (∀ p, t.spAt p = s.spAt p) ∧ t.fig = s.fig) ∧
      (s.twin.role = .standby → (∀ p, p < 8 * s.groups → (t.spAt p).force.out = .off) ∧
        t.fig.all (fun e => !e.2.enabled) = true) ∧
      t.host.outst = s.host.outst.filter (fun y => y != o) ∧
      Completed s t o { status := stOk } ∧
      KeptBut [.twin, .sets, .sp, .fig, .grp, .que, .mbx, .requests, .window, .free] s t) ∧
  (∀ (s : State) (fseq : Word),
    s.rst.ctrlUp = false ∨ s.twin.train ≠ .up ∨ s.twin.unacked.all (fun y => y.fseq != fseq) = true →
    ∃ t, exec (.retransmitTimeout fseq) s = .next t ∧
      t.twin = s.twin ∧
      KeptBut [] s t) ∧
  (∀ (s : State) (l : Link),
    s.rst.ctrlUp = true ∧ s.twin.train = .up →
    l = (if s.twin.aliveIn = true ∧ s.twin.role ≠ .detached ∧ s.pairStrap = true then .split else .down) →
    s.host.outst.any (fun y => y.opcode == 0x0902 && y.obj == 0) = false →
    s.twin.edits = [] →
    ∃ t, exec (.cosynSignalLoss) s = .next t ∧
      t.twin = { s.twin with
        train := .idle, trying := false, unacked := [], resync := false, edits := [], warm := false, link := l
        flags := s.twin.flags ||| bitAt (s.twin.link == .up) 1 ||| bitAt (l == .split && s.twin.link != .split) 2 } ∧
      KeptBut [.twin] s t) ∧
  (∀ (s : State) (l : Link) (w : EditWait),
    s.rst.ctrlUp = true ∧ s.twin.train = .up →
    l = (if s.twin.aliveIn = true ∧ s.twin.role ≠ .detached ∧ s.pairStrap = true then .split else .down) →
    s.host.outst.any (fun y => y.opcode == 0x0902 && y.obj == 0) = false →
    s.twin.edits = [w] →
    ∃ t, exec (.cosynSignalLoss) s = .next t ∧
      t.twin = { s.twin with
        train := .idle, trying := false, unacked := [], resync := false, edits := [], warm := false, link := l
        flags := s.twin.flags ||| bitAt (s.twin.link == .up) 1 ||| bitAt (l == .split && s.twin.link != .split) 2 } ∧
      Completed s t ⟨w.mbx, false, w.opcode, w.tag, w.outLen, w.outAddr, w.mtAccept, 0, 0, 0⟩ { status := stOk, result := w.result } ∧
      t.host.outst = s.host.outst ∧
      KeptBut [.twin, .requests, .mbx, .window] s t) ∧
  (∀ (s : State) (o : Outstanding),
    s.rst.ctrlUp = true ∧ s.twin.train = .up →
    s.twin.role ≠ .detached ∧ s.twin.edits = [] →
    s.host.outst.filter (fun y => y.opcode == 0x0902) = [o] ∧ o.obj = 0 →
    s.host.outst.all (fun y => y.opcode != 0x0A02 && y.opcode != 0x0704) = true →
    ∃ t, exec (.cosynSignalLoss) s = .next t ∧
      t.twin.role = .detached ∧ t.twin.link = .down ∧ t.twin.train = .idle ∧ t.twin.trying = false ∧
      t.twin.unacked = [] ∧ t.twin.edits = [] ∧ t.twin.seated = s.twin.seated ∧ t.twin.flags.getLsbD 0 = true ∧
      (s.twin.role ≠ .standby → (∀ p, t.spAt p = s.spAt p) ∧ t.fig = s.fig) ∧
      (s.twin.role = .standby → (∀ p, p < 8 * s.groups → (t.spAt p).force.out = .off) ∧
        t.fig.all (fun e => !e.2.enabled) = true) ∧
      t.host.outst = s.host.outst.filter (fun y => y != o) ∧
      Completed s t o { status := stOk } ∧
      KeptBut [.twin, .sets, .sp, .fig, .grp, .que, .mbx, .requests, .window, .free] s t) ∧
  (∀ (s : State),
    s.rst.ctrlUp = true ∧ s.twin.trying = true →
    s.twin.train = .lock ∨ s.twin.train = .order ∨ s.twin.train = .config ∨ s.twin.train = .idle →
    s.twin.attempts < 2 ∧ (s.roleSettled = false ∨ s.twin.attachBusy = true) →
    ∃ t, exec (.cosynSignalLoss) s = .next t ∧
      t.twin = { s.twin with
        train := .detect, trying := false, attempts := s.twin.attempts + 1, trainFail := bump s.twin.trainFail
        flags := s.twin.flags ||| 0x40#32 } ∧
      KeptBut [.twin] s t) ∧
  (∀ (s : State) (past solo : Bool) (l : Link),
    s.rst.ctrlUp = true ∧ s.twin.trying = true →
    s.twin.train = .lock ∨ s.twin.train = .order ∨ s.twin.train = .config ∨ s.twin.train = .idle →
    2 ≤ s.twin.attempts ∨ (s.roleSettled = true ∧ s.twin.attachBusy = false) →
    past = (2 ≤ s.twin.attempts && !s.twin.aliveIn) ∧ solo = (past && !s.roleSettled) →
    l = (if s.twin.aliveIn = true ∧ s.twin.role ≠ .detached ∧ s.pairStrap = true then .split else .down) →
    past = false ∨ s.host.outst.any (fun y => y.opcode == 0x0903) = false →
    ∃ t, exec (.cosynSignalLoss) s = .next t ∧
      t.twin = { s.twin with
        train := .detect, trying := false, attempts := s.twin.attempts + 1, trainFail := bump s.twin.trainFail
        flags := s.twin.flags ||| 0x40#32 ||| (if solo = true then 0x201#32 else 0#32) |||
          bitAt (s.twin.link == .up) 1 ||| bitAt (l == .split && s.twin.link != .split) 2
        role := if solo = true then .solo else s.twin.role
        seated := if solo = true then s.allGroups else s.twin.seated
        link := l, warm := false, attachBusy := s.twin.attachBusy && !past } ∧
      KeptBut [.twin] s t) ∧
  (∀ (s : State),
    s.rst.ctrlUp = false ∨ (s.twin.train ≠ .up ∧ (s.twin.trying = false ∨ s.twin.train = .detect)) →
    ∃ t, exec (.cosynSignalLoss) s = .next t ∧
      t.twin = s.twin ∧
      KeptBut [] s t)

/-- Heartbeats, missed slots, ALIVE_IN and handovers decide which module drives. -/
def Obligations.TheStandbyTakesOver : Prop :=
  (∀ (s : State) (b : Beat) (o : BitVec 64),
    s.rst.ctrlUp = true ∧ s.twin.train = .up →
    o = b.mt + (s.mtAfter ((s.twin.latency + 2) / 5) - s.mt.mt) - s.mt.mt →
    (s.twin.link ≠ .split ∨ s.twin.conf = none) ∧ s.twin.role ≠ .standby →
    b.digest = s.sets.digest ∨ s.twin.resync = true ∨ s.leads = false →
    ∃ t, exec (.heartbeat b) s = .next t ∧
      t.twin = { s.twin with
        last := some b, lastMt := s.mt.mt, missRun := 0, mtOfs := o, mtOfsGen := (s.twin.mtOfsGen + b2n (s.twin.mtOfs != o)) % 16
        flags := s.twin.flags ||| bitAt (b.digest != s.sets.digest) 7
        resync := s.twin.resync || b.digest != s.sets.digest, warm := b.warm, warmBeat := false } ∧
      KeptBut [.twin] s t) ∧
  (∀ (s : State) (b : Beat) (o : BitVec 64),
    s.rst.ctrlUp = true ∧ s.twin.train = .up →
    o = b.mt + (s.mtAfter ((s.twin.latency + 2) / 5) - s.mt.mt) - s.mt.mt →
    s.leads = true ∧ b.digest ≠ s.sets.digest ∧ s.twin.resync = false →
    ∃ t, exec (.heartbeat b) s = .next t ∧
      t.twin = { s.twin with
        last := some b, lastMt := s.mt.mt, missRun := 0, mtOfs := o, mtOfsGen := (s.twin.mtOfsGen + b2n (s.twin.mtOfs != o)) % 16
        flags := s.twin.flags ||| 0x80#32, resync := true, warm := b.warm, warmBeat := false
        fseq := s.twin.fseq + 1#32, unacked := s.twin.unacked ++ [⟨s.twin.fseq, 7, 0⟩]
        lastSent := (7, s.twin.fseq) } ∧
      KeptBut [.twin] s t) ∧
  (∀ (s : State) (b : Beat) (o : BitVec 64) (w : Bool),
    s.rst.ctrlUp = true ∧ s.twin.train = .up →
    o = b.mt + (s.mtAfter ((s.twin.latency + 2) / 5) - s.mt.mt) - s.mt.mt →
    (s.twin.link ≠ .split ∨ s.twin.conf = none) ∧ s.twin.role = .standby →
    w = (s.twin.link == .up && !s.twin.resync && b.digest == s.sets.digest && s.twin.stateSeen == s.allGroups &&
      (b.hu == .normal || b.hu == .ride)) →
    ∃ t, exec (.heartbeat b) s = .next t ∧
      t.twin = { s.twin with
        last := some b, lastMt := s.mt.mt, missRun := 0, mtOfs := o, mtOfsGen := (s.twin.mtOfsGen + b2n (s.twin.mtOfs != o)) % 16
        flags := s.twin.flags ||| bitAt (b.digest != s.sets.digest) 7
        resync := s.twin.resync || b.digest != s.sets.digest, warm := w, warmBeat := w
        annDirty := if w = true ∧ s.twin.warm = false then [] else s.twin.annDirty } ∧
      KeptBut [.twin] s t) ∧
  (∀ (s : State) (b : Beat) (o : BitVec 64) (c : ConfigMsg),
    s.rst.ctrlUp = true ∧ s.twin.train = .up →
    o = b.mt + (s.mtAfter ((s.twin.latency + 2) / 5) - s.mt.mt) - s.mt.mt →
    s.twin.link = .split ∧ s.twin.conf = some c →
    s.host.outst.all (fun y => y.opcode != 0x0903 && y.opcode != 0x0A02 && y.opcode != 0x0704) = true →
    ∃ t, exec (.heartbeat b) s = .next t ∧
      t.twin.link = .up ∧ t.twin.last = some b ∧ t.twin.lastMt = s.mt.mt ∧ t.twin.missRun = 0 ∧ t.twin.mtOfs = o ∧
      t.twin.role = (if s.winsRole c b.seated = true then .active else .standby) ∧
      t.twin.seated = (if s.winsRole c b.seated = true then s.allGroups else 0#16) ∧
      t.twin.resync = true ∧ t.twin.attempts = 0 ∧ t.twin.attachBusy = false ∧
      (s.winsRole c b.seated = true ∧ s.twin.role ≠ .standby → (∀ p, t.spAt p = s.spAt p) ∧ t.fig = s.fig) ∧
      (s.winsRole c b.seated = true → t.twin.lastSent.1 = 7) ∧
      (s.winsRole c b.seated = false → ∀ p, p < 8 * s.groups →
        s.twin.seated ≠ 0#16 ∨ (s.spAt p).force.out = .off ∨ (s.spAt p).force.out = .standby →
        (t.spAt p).force.out = (if s.figsOn p = [] then .off else .standby)) ∧
      KeptBut [.twin, .sp, .fig, .grp, .que, .free] s t) ∧
  (∀ (s : State) (b : Beat),
    s.rst.ctrlUp = false ∨ s.twin.train ≠ .up →
    ∃ t, exec (.heartbeat b) s = .next t ∧
      t.twin = s.twin ∧
      KeptBut [] s t) ∧
  (∀ (s : State),
    s.rst.ctrlUp = true ∧ s.twin.last.isSome = true ∧ (s.twin.train = .up ∨ s.twin.role = .standby) →
    s.twin.missRun < 2 ∨ s.twin.aliveIn = true →
    ∃ t, exec (.heartbeatSlotClose) s = .next t ∧
      t.twin = { s.twin with
        hbMiss := bump s.twin.hbMiss, missRun := s.twin.missRun + 1
        shadowStop := s.twin.shadowStop || s.twin.role == .standby
        link := if s.twin.missRun < 2 then s.twin.link else .split
        warm := s.twin.warm && decide (s.twin.missRun < 2)
        flags := s.twin.flags ||| 0x10#32 ||| bitAt (decide (2 ≤ s.twin.missRun) && s.twin.link == .up) 1 |||
          bitAt (decide (2 ≤ s.twin.missRun) && s.twin.link != .split) 2 } ∧
      KeptBut [.twin] s t) ∧
  (∀ (s : State),
    s.rst.ctrlUp = true ∧ s.twin.last.isSome = true ∧ (s.twin.train = .up ∨ s.twin.role = .standby) →
    2 ≤ s.twin.missRun ∧ s.twin.aliveIn = false ∧ s.twin.role = .standby →
    (s.twin.train ≠ .up ∨ s.host.outst.any (fun y => y.opcode == 0x0902 && y.obj == 0) = false) →
    s.sets.transfer = none ∨ s.sets.mireDue = false →
    ∃ t, exec (.heartbeatSlotClose) s = .next t ∧
      t.twin.role = .active ∧ t.twin.cold = (!s.twin.warmBeat) ∧ t.twin.warm = false ∧ t.twin.resync = false ∧
      t.twin.missRun = 0 ∧ t.twin.b1Due = s.allGroups ∧ t.twin.b2Due = s.allGroups ∧ t.twin.held = [] ∧ t.twin.restart = [] ∧
      t.twin.takeover = bump s.twin.takeover ∧ t.twin.edits = [] ∧ t.twin.annDirty = [] ∧
      t.twin.lastCode = BitVec.ofNat 16 (4096 * 1 + 2048 * b2n (!s.twin.warmBeat) + 256 * 0 + 0) ∧
      (t.twin.flags &&& 9#32) = 9#32 ∧ t.twin.seated = s.twin.seated ∧
      (∀ n, n < 256 → t.mbxAt n = { s.mbxAt n with
        state := .reset, reason := 2, code := t.twin.lastCode, setupBusy := false, unsignalled := 0
        responses := (t.mbxAt n).responses }) ∧
      t.host.fetched = [] ∧ (∀ o ∈ t.host.outst, o.orphan = true) ∧ t.misc.snaps = [] ∧
      t.sets.transfer = none ∧
      (s.twin.annDirty = [] ∧ (s.twin.anns.map (fun e => e.1)).Nodup →
        (∀ e ∈ s.twin.anns, (t.queAt e.1).next = e.2.next + 0x10000#32) ∧
        ∀ q, q ∉ s.twin.anns.map (fun e => e.1) → t.queAt q = s.queAt q) ∧
      (∀ p, t.spAt p = s.spAt p) ∧
      t.twin.hbMiss = bump s.twin.hbMiss ∧
      KeptBut [.twin, .mbx, .requests, .window, .hostRegs, .sets, .que, .fig, .misc, .sto] s t) ∧
  (∀ (s : State),
    s.rst.ctrlUp = true ∧ s.twin.last.isSome = true ∧ s.twin.train = .up ∧ s.twin.role ≠ .standby →
    2 ≤ s.twin.missRun ∧ s.twin.aliveIn = false →
    s.host.outst.any (fun y => y.opcode == 0x0902 && y.obj == 0) = false →
    s.twin.edits = [] →
    ∃ t, exec (.heartbeatSlotClose) s = .next t ∧
      t.twin = { s.twin with
        train := .idle, trying := false, unacked := [], resync := false, edits := [], warm := false, link := .down
        flags := s.twin.flags ||| 0x10#32 ||| bitAt (s.twin.link == .up) 1
        hbMiss := bump s.twin.hbMiss, missRun := s.twin.missRun + 1 } ∧
      KeptBut [.twin] s t) ∧
  (∀ (s : State) (w : EditWait),
    s.rst.ctrlUp = true ∧ s.twin.last.isSome = true ∧ s.twin.train = .up ∧ s.twin.role ≠ .standby →
    2 ≤ s.twin.missRun ∧ s.twin.aliveIn = false →
    s.host.outst.any (fun y => y.opcode == 0x0902 && y.obj == 0) = false →
    s.twin.edits = [w] →
    ∃ t, exec (.heartbeatSlotClose) s = .next t ∧
      t.twin = { s.twin with
        train := .idle, trying := false, unacked := [], resync := false, edits := [], warm := false, link := .down
        flags := s.twin.flags ||| 0x10#32 ||| bitAt (s.twin.link == .up) 1
        hbMiss := bump s.twin.hbMiss, missRun := s.twin.missRun + 1 } ∧
      Completed s t ⟨w.mbx, false, w.opcode, w.tag, w.outLen, w.outAddr, w.mtAccept, 0, 0, 0⟩ { status := stOk, result := w.result } ∧
      t.host.outst = s.host.outst ∧
      KeptBut [.twin, .requests, .mbx, .window] s t) ∧
  (∀ (s : State),
    s.rst.ctrlUp = false ∨ s.twin.last = none ∨ (s.twin.train ≠ .up ∧ s.twin.role ≠ .standby) →
    ∃ t, exec (.heartbeatSlotClose) s = .next t ∧
      t.twin = s.twin ∧
      KeptBut [] s t) ∧
  (∀ (s : State) (sp : Bool),
    s.rst.ctrlUp = true ∧ s.pairStrap = true ∧ s.twin.aliveIn = false →
    sp = (s.twin.link == .down && s.twin.role != .detached) →
    ∃ t, exec (.aliveInChange true) s = .next t ∧
      t.twin = { s.twin with
        aliveIn := true, link := if sp = true then .split else s.twin.link, flags := s.twin.flags ||| bitAt sp 2
        warm := s.twin.warm && s.twin.link != .down } ∧
      KeptBut [.twin] s t) ∧
  (∀ (s : State),
    s.rst.ctrlUp = true ∧ s.pairStrap = true ∧ s.twin.aliveIn = true →
    s.twin.link = .split ∧ s.twin.role = .standby →
    (s.twin.train ≠ .up ∨ s.host.outst.any (fun y => y.opcode == 0x0902 && y.obj == 0) = false) →
    s.sets.transfer = none ∨ s.sets.mireDue = false →
    ∃ t, exec (.aliveInChange false) s = .next t ∧
      t.twin.role = .active ∧ t.twin.cold = (true) ∧ t.twin.warm = false ∧ t.twin.resync = false ∧
      t.twin.missRun = 0 ∧ t.twin.b1Due = s.allGroups ∧ t.twin.b2Due = s.allGroups ∧ t.twin.held = [] ∧ t.twin.restart = [] ∧
      t.twin.takeover = bump s.twin.takeover ∧ t.twin.edits = [] ∧ t.twin.annDirty = [] ∧
      t.twin.lastCode = BitVec.ofNat 16 (4096 * 4 + 2048 * b2n (true) + 256 * 0 + 0) ∧
      (t.twin.flags &&& 9#32) = 9#32 ∧ t.twin.seated = s.twin.seated ∧
      (∀ n, n < 256 → t.mbxAt n = { s.mbxAt n with
        state := .reset, reason := 2, code := t.twin.lastCode, setupBusy := false, unsignalled := 0
        responses := (t.mbxAt n).responses }) ∧
      t.host.fetched = [] ∧ (∀ o ∈ t.host.outst, o.orphan = true) ∧ t.misc.snaps = [] ∧
      t.sets.transfer = none ∧
      (s.twin.annDirty = [] ∧ (s.twin.anns.map (fun e => e.1)).Nodup →
        (∀ e ∈ s.twin.anns, (t.queAt e.1).next = e.2.next + 0x10000#32) ∧
        ∀ q, q ∉ s.twin.anns.map (fun e => e.1) → t.queAt q = s.queAt q) ∧
      (∀ p, t.spAt p = s.spAt p) ∧
      t.twin.aliveIn = false ∧
      KeptBut [.twin, .mbx, .requests, .window, .hostRegs, .sets, .que, .fig, .misc, .sto] s t) ∧
  (∀ (s : State),
    s.rst.ctrlUp = true ∧ s.pairStrap = true ∧ s.twin.aliveIn = true →
    s.twin.link ≠ .split ∧ s.twin.role = .standby ∧ 3 ≤ s.twin.missRun →
    s.sets.transfer = none ∨ s.sets.mireDue = false →
    ∃ t, exec (.aliveInChange false) s = .next t ∧
      t.twin.role = .active ∧ t.twin.cold = (!s.twin.warmBeat) ∧ t.twin.warm = false ∧ t.twin.resync = false ∧
      t.twin.missRun = 0 ∧ t.twin.b1Due = s.allGroups ∧ t.twin.b2Due = s.allGroups ∧ t.twin.held = [] ∧ t.twin.restart = [] ∧
      t.twin.takeover = bump s.twin.takeover ∧ t.twin.edits = [] ∧ t.twin.annDirty = [] ∧
      t.twin.lastCode = BitVec.ofNat 16 (4096 * 1 + 2048 * b2n (!s.twin.warmBeat) + 256 * 0 + 0) ∧
      (t.twin.flags &&& 9#32) = 9#32 ∧ t.twin.seated = s.twin.seated ∧
      (∀ n, n < 256 → t.mbxAt n = { s.mbxAt n with
        state := .reset, reason := 2, code := t.twin.lastCode, setupBusy := false, unsignalled := 0
        responses := (t.mbxAt n).responses }) ∧
      t.host.fetched = [] ∧ (∀ o ∈ t.host.outst, o.orphan = true) ∧ t.misc.snaps = [] ∧
      t.sets.transfer = none ∧
      (s.twin.annDirty = [] ∧ (s.twin.anns.map (fun e => e.1)).Nodup →
        (∀ e ∈ s.twin.anns, (t.queAt e.1).next = e.2.next + 0x10000#32) ∧
        ∀ q, q ∉ s.twin.anns.map (fun e => e.1) → t.queAt q = s.queAt q) ∧
      (∀ p, t.spAt p = s.spAt p) ∧
      t.twin.aliveIn = false ∧
      KeptBut [.twin, .mbx, .requests, .window, .hostRegs, .sets, .que, .fig, .misc, .sto] s t) ∧
  (∀ (s : State),
    s.rst.ctrlUp = true ∧ s.pairStrap = true ∧ s.twin.aliveIn = true →
    s.twin.link ≠ .split ∧ (s.twin.role ≠ .standby ∨ s.twin.missRun < 3) →
    ∃ t, exec (.aliveInChange false) s = .next t ∧
      t.twin = { s.twin with aliveIn := false } ∧
      KeptBut [.twin] s t) ∧
  (∀ (s : State),
    s.rst.ctrlUp = true ∧ s.pairStrap = true ∧ s.twin.aliveIn = true →
    s.twin.link = .split ∧ s.twin.role ≠ .standby →
    s.twin.train ≠ .up →
    ∃ t, exec (.aliveInChange false) s = .next t ∧
      t.twin = { s.twin with
        aliveIn := false, link := if s.twin.trying = true then .training else .down, warm := false } ∧
      KeptBut [.twin] s t) ∧
  (∀ (s : State),
    s.rst.ctrlUp = true ∧ s.pairStrap = true ∧ s.twin.aliveIn = true →
    s.twin.link = .split ∧ s.twin.role ≠ .standby →
    s.twin.train = .up ∧ s.twin.edits = [] →
    s.host.outst.any (fun y => y.opcode == 0x0902 && y.obj == 0) = false →
    ∃ t, exec (.aliveInChange false) s = .next t ∧
      t.twin = { s.twin with
        train := .idle, trying := false, unacked := [], resync := false, edits := [], warm := false, link := .down
        flags := s.twin.flags ||| bitAt (s.twin.link == .up) 1
        aliveIn := false } ∧
      KeptBut [.twin] s t) ∧
  (∀ (s : State) (active : Bool),
    s.rst.ctrlUp = false ∨ s.pairStrap = false ∨ s.twin.aliveIn = active →
    ∃ t, exec (.aliveInChange active) s = .next t ∧
      t.twin = s.twin ∧
      KeptBut [] s t) ∧
  (∀ (s : State) (grp : Nat) (enLow : List Nat),
    s.grpRuns grp = true ∧ s.twin.b1Due.getLsbD grp = true →
    ∃ t, exec (.takeoverB1 grp enLow) s = .next t ∧
      (∀ p, p ∈ t.twin.held ↔ p ∈ s.twin.held ∨
        (p / 8 = grp ∧ p ∈ enLow ∧ s.twin.cold = false ∧ (tget? s.twin.chans p).any recordRuns = true)) ∧
      (∀ p, p ∈ t.twin.restart ↔ p ∈ s.twin.restart ∨
        (p / 8 = grp ∧ p ∉ enLow ∧ s.twin.cold = false ∧ (tget? s.twin.chans p).any recordRuns = true)) ∧
      t.twin = { s.twin with
        held := t.twin.held, restart := t.twin.restart
        b1Due := s.twin.b1Due &&& ~~~(BitVec.twoPow 16 grp)
        chansDue := s.twin.chansDue &&& ~~~(BitVec.twoPow 16 grp) } ∧
      (∀ p, p / 8 = grp → p ∈ enLow → s.twin.cold = false → (tget? s.twin.chans p).any recordRuns = true → (t.spAt p).force.en = true ∧
        some (t.spAt p).force.lines = (tget? s.twin.chans p).map recordLines) ∧
      (s.twin.chansDue.getLsbD grp = false →
        ∀ p, p / 8 = grp → p ∉ enLow ∨ s.twin.cold = true ∨ ¬ (tget? s.twin.chans p).any recordRuns = true → t.spAt p = s.spAt p) ∧
      (∀ q, q / 8 ≠ grp → t.spAt q = s.spAt q) ∧
      (∀ q, (t.spAt q).force.out = (s.spAt q).force.out ∧ (t.spAt q).force.outCode = (s.spAt q).force.outCode ∧
        (t.spAt q).sup = (s.spAt q).sup) ∧
      KeptBut [.twin, .sp] s t) ∧
  (∀ (s : State) (grp : Nat) (enLow : List Nat),
    s.grpRuns grp = false ∨ s.twin.b1Due.getLsbD grp = false →
    ∃ t, exec (.takeoverB1 grp enLow) s = .next t ∧
      t.twin = s.twin ∧
      KeptBut [] s t) ∧
  (∀ (s : State) (grp : Nat),
    s.grpRuns grp = true ∧ s.twin.b2Due.getLsbD grp = true ∧ s.twin.b1Due.getLsbD grp = false →
    s.twin.cold = true ∨ s.fig.all (fun e => e.2.flight.isNone) = true →
    ∃ t, exec (.takeoverB2 grp) s = .next t ∧
      t.twin = { s.twin with
        seated := s.twin.seated ||| BitVec.twoPow 16 grp, b2Due := s.twin.b2Due &&& ~~~(BitVec.twoPow 16 grp)
        chansDue := s.twin.chansDue &&& ~~~(BitVec.twoPow 16 grp), shadowStop := false
        held := s.twin.held.filter (fun p => p / 8 != grp), restart := s.twin.restart.filter (fun p => p / 8 != grp) } ∧
      (∀ p, p / 8 = grp → s.twin.cold = true ∨ tget? s.twin.chans p = none →
        (t.spAt p).force.out = .off ∧ (t.spAt p).force.lines = [] ∧ (t.spAt p).force.driven = false) ∧
      (∀ p, p / 8 = grp → s.twin.cold = false → (tget? s.twin.chans p).any (fun r => !recordRuns r) = true →
        (t.spAt p).force.out = (if (s.spAt p).sup.tripped = true then .tripped else .off) ∧
        (t.spAt p).force.lines = [] ∧ (t.spAt p).force.driven = false) ∧
      (∀ p, p / 8 = grp → s.twin.cold = false → (tget? s.twin.chans p).any recordRuns = true → p ∈ s.twin.held →
        some (t.spAt p).force.out = (tget? s.twin.chans p).map (fun r => outOfCode (bits r.ls 31 29)) ∧
        some (t.spAt p).force.lines = (tget? s.twin.chans p).map recordLines ∧
        (t.spAt p).force.driven = true ∧ (t.spAt p).force.outCode = (t.spAt p).force.inCode) ∧
      (∀ p, p / 8 = grp → s.twin.cold = false → (tget? s.twin.chans p).any recordRuns = true → ¬ p ∈ s.twin.held →
        if s.figsOn p = [] ∨ s.enableBarred p = true then (t.spAt p).force.out = .off ∧ (t.spAt p).force.lines = []
        else (t.spAt p).force.out = .armed ∧ (t.spAt p).force.driven = true ∧
          some (t.spAt p).force.lines = (tget? s.twin.chans p).map (fun r => [bits r.rng 2 0])) ∧
      (∀ q, q / 8 ≠ grp → (t.spAt q).force.driven = (s.spAt q).force.driven ∧
        (t.spAt q).force.lines = (s.spAt q).force.lines ∧ (t.spAt q).sup.tripped = (s.spAt q).sup.tripped) ∧
      (s.twin.cold = true → ∀ f, (s.figAt f).enabled = true → ((s.master f).any (fun m => m / 8 == grp)) = true →
        (t.figAt f).enabled = false ∧ (t.figAt f).run = .idle ∧ (t.figAt f).flight = none) ∧
      (s.twin.cold = false → ∀ f, (t.figAt f).enabled = (s.figAt f).enabled ∧ (t.figAt f).run = (s.figAt f).run) ∧
      KeptBut [.twin, .sp, .fig, .grp, .que, .requests, .mbx, .window, .free, .misc, .sto, .sets] s t) ∧
  (∀ (s : State) (grp f m : Nat) (q : Flight),
    s.grpRuns grp = true ∧ s.twin.b2Due.getLsbD grp = true ∧ s.twin.b1Due.getLsbD grp = false →
    s.twin.cold = false ∧ s.fig.map (fun e => e.1) = [f] →
    (s.figAt f).enabled = true ∧ s.master f = some m ∧ m / 8 = grp ∧ (s.figAt f).flight = some q →
    ∃ t, exec (.takeoverB2 grp) s = .next t ∧
      t.twin = { s.twin with
        seated := s.twin.seated ||| BitVec.twoPow 16 grp, b2Due := s.twin.b2Due &&& ~~~(BitVec.twoPow 16 grp)
        chansDue := s.twin.chansDue &&& ~~~(BitVec.twoPow 16 grp), shadowStop := false
        held := s.twin.held.filter (fun p => p / 8 != grp), restart := s.twin.restart.filter (fun p => p / 8 != grp) } ∧
      (∀ p, p / 8 = grp → s.twin.cold = true ∨ tget? s.twin.chans p = none →
        (t.spAt p).force.out = .off ∧ (t.spAt p).force.lines = [] ∧ (t.spAt p).force.driven = false) ∧
      (∀ p, p / 8 = grp → s.twin.cold = false → (tget? s.twin.chans p).any (fun r => !recordRuns r) = true →
        (t.spAt p).force.out = (if (s.spAt p).sup.tripped = true then .tripped else .off) ∧
        (t.spAt p).force.lines = [] ∧ (t.spAt p).force.driven = false) ∧
      (∀ p, p / 8 = grp → s.twin.cold = false → (tget? s.twin.chans p).any recordRuns = true → p ∈ s.twin.held →
        some (t.spAt p).force.out = (tget? s.twin.chans p).map (fun r => outOfCode (bits r.ls 31 29)) ∧
        some (t.spAt p).force.lines = (tget? s.twin.chans p).map recordLines ∧
        (t.spAt p).force.driven = true ∧ (t.spAt p).force.outCode = (t.spAt p).force.inCode) ∧
      (m ∈ s.twin.held ∧ q.state ≠ .aperture → t.figAt f = s.figAt f) ∧
      (m ∉ s.twin.held ∨ q.state = .aperture → (t.figAt f).flight = none ∧ (t.figAt f).enabled = true ∧
        ((t.figAt f).run = .waiting ∨ (t.figAt f).run = .ended)) ∧
      KeptBut [.twin, .sp, .fig, .grp, .que, .requests, .mbx, .window, .free, .misc, .sto, .sets] s t) ∧
  (∀ (s : State) (grp : Nat),
    s.grpRuns grp = false ∨ s.twin.b2Due.getLsbD grp = false ∨ s.twin.b1Due.getLsbD grp = true →
    ∃ t, exec (.takeoverB2 grp) s = .next t ∧
      t.twin = s.twin ∧
      KeptBut [] s t) ∧
  (∀ (s : State) (m : HandoverMsg) (fseq : Word),
    s.rst.ctrlUp = true ∧ s.twin.train = .up ∧ s.twin.role = .standby →
    s.twin.rxAcked.all (fun z => seqLt z fseq) = true →
    s.sets.transfer = none ∨ s.sets.mireDue = false →
    (m.chans.map (fun e => e.1)).Nodup ∧ (m.runners.map (fun r => r.num)).Nodup ∧ (m.anns.map (fun e => e.1)).Nodup →
    ∃ t, exec (.handover m fseq) s = .next t ∧
      t.twin.role = .active ∧ t.twin.cold = (m.kind == 4 || !s.twin.warmBeat) ∧ t.twin.warm = false ∧ t.twin.resync = false ∧
      t.twin.missRun = 0 ∧ t.twin.b1Due = 0#16 ∧ t.twin.b2Due = 0#16 ∧ t.twin.held = [] ∧ t.twin.restart = [] ∧
      t.twin.takeover = bump s.twin.takeover ∧ t.twin.edits = [] ∧ t.twin.annDirty = [] ∧
      t.twin.lastCode = BitVec.ofNat 16 (4096 * m.kind + 2048 * b2n (m.kind == 4 || !s.twin.warmBeat) + 256 * (if m.kind = 2 then m.level else 0) + (if m.kind = 2 then m.src.toNat else 0)) ∧
      (t.twin.flags &&& 9#32) = 9#32 ∧ t.twin.seated = s.twin.seated ∧
      (∀ n, n < 256 → t.mbxAt n = { s.mbxAt n with
        state := .reset, reason := 2, code := t.twin.lastCode, setupBusy := false, unsignalled := 0
        responses := (t.mbxAt n).responses }) ∧
      t.host.fetched = [] ∧ (∀ o ∈ t.host.outst, o.orphan = true) ∧ t.misc.snaps = [] ∧
      t.sets.transfer = none ∧
      (m.anns = [] ∧ s.twin.annDirty = [] ∧ (s.twin.anns.map (fun e => e.1)).Nodup →
        (∀ e ∈ s.twin.anns, (t.queAt e.1).next = e.2.next + 0x10000#32) ∧
        ∀ q, q ∉ s.twin.anns.map (fun e => e.1) → t.queAt q = s.queAt q) ∧
      (∀ p, t.spAt p = { s.spAt p with slotFig := (t.spAt p).slotFig }) ∧
      (∀ e ∈ m.chans, tget? t.twin.chans e.1 = some e.2) ∧
      (∀ p, p ∉ m.chans.map (fun e => e.1) → tget? t.twin.chans p = tget? s.twin.chans p) ∧
      (∀ r ∈ m.runners, tget? t.twin.runners r.num = some r) ∧ (∀ e ∈ m.anns, tget? t.twin.anns e.1 = some e.2) ∧
      t.twin.handover = some ⟨m.target, m.kind, m.level, m.src, false, true⟩ ∧ t.twin.chansDue = s.allGroups ∧
      t.twin.rxAcked = some fseq ∧
      KeptBut [.twin, .mbx, .requests, .window, .hostRegs, .sets, .que, .sp, .fig, .misc, .sto] s t) ∧
  (∀ (s : State) (m : HandoverMsg) (fseq : Word),
    s.rst.ctrlUp = false ∨ s.twin.train ≠ .up ∨ s.twin.rxAcked.all (fun z => seqLt z fseq) = false ∨
      s.twin.role ≠ .standby →
    ∃ t, exec (.handover m fseq) s = .next t ∧
      t.twin = (if s.rst.ctrlUp = false ∨ s.twin.train ≠ .up then s.twin
        else if s.twin.rxAcked.all (fun z => seqLt z fseq) = false then { s.twin with lastSent := (0xB, fseq) }
        else { s.twin with lastSent := (0xB, fseq), rxAcked := some fseq }) ∧
      KeptBut [.twin] s t) ∧
  (∀ (s : State) (h : HandoverSt),
    s.rst.ctrlUp = true ∧ s.twin.handover = some h →
    mtLe h.target s.mt.mt = true ∧ s.commonNext = true →
    h.departing = true ∧ h.kind ≠ 3 →
    ∃ t, exec (.handoverBoundary) s = .next t ∧
      t.twin = { s.twin with
        seated := 0#16, handover := none, fseq := t.twin.fseq, unacked := t.twin.unacked, lastSent := t.twin.lastSent } ∧
      (∀ p, p < 8 * s.groups → (t.spAt p).force.out = .off ∧ (t.spAt p).force.driven = false ∧
        (t.spAt p).force.lines = [] ∧ (t.spAt p).sup.tripped = (s.spAt p).sup.tripped) ∧
      t.fig.all (fun e => !e.2.enabled) = true ∧
      KeptBut [.twin, .sets, .sp, .fig, .grp, .que, .requests, .mbx, .window, .free] s t) ∧
  (∀ (s : State) (h : HandoverSt) (o : Outstanding),
    s.rst.ctrlUp = true ∧ s.twin.handover = some h →
    mtLe h.target s.mt.mt = true ∧ s.commonNext = true →
    h.departing = true ∧ h.kind = 3 ∧ s.twin.role ≠ .detached →
    s.host.outst.filter (fun y => y.opcode == 0x0902) = [o] ∧ s.twin.edits = [] →
    s.host.outst.all (fun y => y.opcode != 0x0A02 && y.opcode != 0x0704) = true →
    ∃ t, exec (.handoverBoundary) s = .next t ∧
      t.twin.seated = 0#16 ∧ t.twin.handover = none ∧ t.twin.role = .detached ∧ t.twin.link = .down ∧
      t.twin.train = .idle ∧ t.twin.unacked = [] ∧
      (∀ p, p < 8 * s.groups → (t.spAt p).force.out = .off ∧ (t.spAt p).force.driven = false ∧
        (t.spAt p).force.lines = [] ∧ (t.spAt p).sup.tripped = (s.spAt p).sup.tripped) ∧
      t.fig.all (fun e => !e.2.enabled) = true ∧
      Completed s t o { status := if h.acked = true then stOk else stAborted } ∧
      t.host.outst = s.host.outst.filter (fun y => y != o) ∧
      KeptBut [.twin, .sets, .sp, .fig, .grp, .que, .requests, .mbx, .window, .free] s t) ∧
  (∀ (s : State) (h : HandoverSt),
    s.rst.ctrlUp = true ∧ s.twin.handover = some h →
    mtLe h.target s.mt.mt = true ∧ s.commonNext = true →
    h.departing = false ∧ h.kind ≠ 3 →
    s.twin.cold = true ∨ s.fig.all (fun e => e.2.flight.isNone) = true →
    ∃ t, exec (.handoverBoundary) s = .next t ∧
      t.twin.handover = none ∧ t.twin.cold = false ∧ (∀ g, g < s.groups → t.twin.seated.getLsbD g = true) ∧
      t.twin.role = s.twin.role ∧ t.twin.link = s.twin.link ∧
      (∀ p, p < 8 * s.groups → s.twin.cold = true ∨ tget? s.twin.chans p = none →
        (t.spAt p).force.out = .off ∧ (t.spAt p).force.lines = [] ∧ (t.spAt p).force.driven = false) ∧
      (∀ p, p < 8 * s.groups → s.twin.cold = false → (tget? s.twin.chans p).any (fun r => !recordRuns r) = true →
        (t.spAt p).force.out = (if (s.spAt p).sup.tripped = true then .tripped else .off) ∧
        (t.spAt p).force.lines = [] ∧ (t.spAt p).force.driven = false) ∧
      (∀ p, p < 8 * s.groups → s.twin.cold = false → (tget? s.twin.chans p).any recordRuns = true →
        some (t.spAt p).force.out = (tget? s.twin.chans p).map (fun r => outOfCode (bits r.ls 31 29)) ∧
        some (t.spAt p).force.lines = (tget? s.twin.chans p).map recordLines ∧
        (t.spAt p).force.driven = true ∧ (t.spAt p).force.outCode = (t.spAt p).force.inCode) ∧
      (s.twin.cold = false → ∀ f, (t.figAt f).enabled = (s.figAt f).enabled ∧ (t.figAt f).run = (s.figAt f).run) ∧
      KeptBut [.twin, .sp, .fig, .grp, .que, .requests, .mbx, .window, .free, .misc, .sto, .sets] s t) ∧
  (∀ (s : State) (h : HandoverSt),
    s.rst.ctrlUp = true ∧ s.twin.handover = some h →
    mtLe h.target s.mt.mt = true ∧ s.commonNext = true →
    h.departing = false ∧ h.kind = 3 ∧ s.twin.role = .active →
    s.host.outst = [] ∧ s.twin.edits = [] →
    s.twin.cold = true ∨ s.fig.all (fun e => e.2.flight.isNone) = true →
    ∃ t, exec (.handoverBoundary) s = .next t ∧
      t.twin.handover = none ∧ t.twin.cold = false ∧ (∀ g, g < s.groups → t.twin.seated.getLsbD g = true) ∧
      t.twin.role = .detached ∧ t.twin.link = .down ∧ t.twin.train = .idle ∧
      (∀ p, p < 8 * s.groups → s.twin.cold = true ∨ tget? s.twin.chans p = none →
        (t.spAt p).force.out = .off ∧ (t.spAt p).force.lines = [] ∧ (t.spAt p).force.driven = false) ∧
      (∀ p, p < 8 * s.groups → s.twin.cold = false → (tget? s.twin.chans p).any (fun r => !recordRuns r) = true →
        (t.spAt p).force.out = (if (s.spAt p).sup.tripped = true then .tripped else .off) ∧
        (t.spAt p).force.lines = [] ∧ (t.spAt p).force.driven = false) ∧
      (∀ p, p < 8 * s.groups → s.twin.cold = false → (tget? s.twin.chans p).any recordRuns = true →
        some (t.spAt p).force.out = (tget? s.twin.chans p).map (fun r => outOfCode (bits r.ls 31 29)) ∧
        some (t.spAt p).force.lines = (tget? s.twin.chans p).map recordLines ∧
        (t.spAt p).force.driven = true ∧ (t.spAt p).force.outCode = (t.spAt p).force.inCode) ∧
      KeptBut [.twin, .sp, .fig, .grp, .que, .requests, .mbx, .window, .free, .misc, .sto, .sets] s t) ∧
  (∀ (s : State),
    s.rst.ctrlUp = false ∨ s.twin.handover.any (fun h => mtLe h.target s.mt.mt) = false ∨ s.commonNext = false →
    ∃ t, exec (.handoverBoundary) s = .next t ∧
      t.twin = s.twin ∧
      KeptBut [] s t)

/-- R127. The level governs with any that is already asserted (R130). -/
def Obligations.HostResetRequests : Prop :=
  (∀ (s : State) (value : Word),
    s.rst.ctrlUp = true →
    bits value 31 24 = 0xA5 →
    1 ≤ bits value 1 0 ∧ bits value 1 0 ≤ 3 →
    ∃ t, exec (.rstReqWrite value) s = .next t ∧
      t.rst.asserted.getLsbD 4 = true ∧ t.rst.seen.getLsbD 4 = true ∧
      t.rst.reqLevel = bits value 1 0 ∧ bits t.rst.causeWord 13 12 = bits value 1 0 ∧
      t.rst.level = min (max (bits value 1 0) (fuseLevel s.rst.fuse 4)) s.rst.level) ∧
  (∀ (s : State) (value : Word),
    s.rst.ctrlUp = true ∧ s.rst.dataUp = true →
    bits value 31 24 ≠ 0xA5 ∨ bits value 1 0 = 0 →
    s.err.ring.length < 4096 →
    s.err.ring.all (fun e => e.body.code != 0x4102#16) = true →
    ∃ t, exec (.rstReqWrite value) s = .next t ∧
      (t.err.ring.map (fun e => (e.body.seq, e.body.code, e.body.d0))).take (s.err.ring.length + 1) = s.err.ring.map (fun e => (e.body.seq, e.body.code, e.body.d0)) ++ [(s.err.newest + 1#32, 0x4102#16, value)] ∧
      KeptBut [] s t) ∧
  (∀ (s : State) (value : Word),
    s.rst.ctrlUp = true ∧ s.rst.dataUp = false →
    bits value 31 24 ≠ 0xA5 ∨ bits value 1 0 = 0 →
    ∃ t, exec (.rstReqWrite value) s = .next t ∧
      (t.err.deferred.map (fun r => (r.code, r.d0))).take (s.err.deferred.length + 1) = s.err.deferred.map (fun r => (r.code, r.d0)) ++ [(0x4102#16, value)] ∧
      KeptBut [] s t)

/-- The event routes stay through L3 and L2 resets and go with L1 and L0. -/
def Obligations.RoutingThroughResets : Prop :=
  (∀ (s t : State) (c : Instr), (c = .rstIn true ∨ c = .perst true ∨ c = .wdog ∨ c = .fatal ∨ c = .dbgResetInstruction true ∨ (∃ v, c = .rstReqWrite v)) → exec c s = .next t → 2 ≤ t.rst.level →
    t.fab.masks = s.fab.masks ∧ t.fab.taps = s.fab.taps ∧ t.fab.sel = s.fab.sel) ∧
  (∀ (s t : State) (c : Instr), (c = .rstIn false ∨ c = .perst false ∨ (∃ n, c = .resetPulseEnd n) ∨ c = .stretchStart ∨ (∃ x, c = .stretchEnd x)) → exec c s = .next t → 2 ≤ s.rst.level →
    t.fab.masks = s.fab.masks ∧ t.fab.taps = s.fab.taps ∧ t.fab.sel = s.fab.sel) ∧
  (∀ (s : State), s.rst.phase = .ordered →
    ∃ t, exec .controlPlaneResetEntry s = .next t ∧
      t.fab.masks = [] ∧ t.fab.taps = [] ∧ t.fab.sel = []) ∧
  (∀ (s : State), s.rst.asserted.getLsbD 0 = false → s.rst.ctrlUp = true →
    ∃ t, exec (.supply true) s = .next t ∧ t.fab.masks = [] ∧ t.fab.taps = [] ∧ t.fab.sel = []) ∧
  (∀ (s : State), s.rst.asserted.getLsbD 6 = false → s.rst.ctrlUp = true → fuseLevel s.rst.fuse 6 ≤ 1 →
    ∃ t, exec .clk s = .next t ∧ t.fab.masks = [] ∧ t.fab.taps = [] ∧ t.fab.sel = [])

/-- R147, over every command of the table. -/
def Obligations.PeatRegistersBelongToTheHost : Prop :=
  (∀ (s t : State) (c : Instr), exec c s = .next t →
    (∀ p o n v, c ≠ .registerWrite p o n v) → (∀ a d, c ≠ .spiWriteFrame a d) → c ≠ .vretLoss →
    t.peat.regs = s.peat.regs) ∧
  (∀ (s t : State), idle s = .next t → t.peat.regs = s.peat.regs) ∧
  (∀ (s : State) (port : Port) (n : Nat) (v : Word), n < 16 → s.opens port = true →
    ∃ t, exec (.registerWrite port (0x140 + 4 * n) 4 v) s = .next t ∧
      t.readReg port (0x140 + 4 * n) = v ∧
      ∀ k, k ≠ n → tget 0#32 t.peat.regs k = tget 0#32 s.peat.regs k) ∧
  (∀ (s : State), s.rst.asserted.getLsbD 0 = true →
    ∃ t, exec .vretLoss s = .next t ∧ ∀ port n, n < 16 → t.readReg port (0x140 + 4 * n) = 0#32)

/-- The queue of waiting commands is the model's own form (log entries 8 and 20); R555 takes commands in the order of their fetch. -/
def Obligations.TheQueueRunsInOrder : Prop :=
  (∀ (s : State) (c : Instr) (rest : List Instr), s.pending = c :: rest →
    step s = exec c { s with pending := rest }) ∧
  (∀ (s : State), s.pending = [] →
    ∃ t, step s = .next t ∧ t.pending = [] ∧ t.clk = s.clk + 1 ∧ t.ident = s.ident) ∧
  (∀ (s : State) (nbits w : Nat), decodeTableWord nbits w = none ∧ s.withFetchWord nbits w = s)

/-- The reset column of the register tables. What the tables do not give is the model's choice (log entries 4 to 6). -/
def Obligations.ResetLeavesTheRegistersAndIsSafe : Prop :=
  (∀ port : Port, (([(0x10, 21, 0x0#32), (0x68, 2, 0x0#32), (0x10C, 1, 0x0#32), (0x120, 1, 0x0#32), (0x200, 4, 0x0#32), (0x210, 1, 0x890#32), (0x214, 1, 0x32000000#32), (0x218, 6, 0x0#32), (0x240, 8, 0x0#32), (0x400, 16, 0xF800#32), (0x440, 32, 0x0#32), (0x500, 15, 0x0#32), (0x580, 2, 0x0#32), (0x588, 1, 0x380000#32), (0x58C, 3, 0x0#32), (0x600, 12, 0x0#32), (0x640, 16, 0x103#32), (0x680, 13, 0x0#32)] : List (Nat × Nat × Word)) ++
    [(0x6C0, 17, 0x0#32), (0x708, 7, 0x0#32), (0x780, 3, 0x0#32), (0x7C0, 18, 0x0#32), (0x808, 1, 0x100#32), (0x80C, 11, 0x0#32), (0x840, 8, 0x0#32), (0x880, 32, 0x0#32), (0x900, 1, 0x1#32), (0x904, 7, 0x0#32), (0x980, 17, 0x0#32), (0xA00, 1, 0x1#32), (0xA04, 16, 0x0#32), (0xB00, 64, 0x0#32), (0xC00, 1, 0x4#32), (0xC04, 12, 0x0#32), (0xD00, 1, 0x0#32), (0xD0C, 4, 0x0#32)]).all (fun e => (List.range e.2.1).all (fun k =>
      State.reset.readReg port (e.1 + 4 * k) == e.2.2)) = true) ∧
  State.reset.rst.ctrlUp = false ∧ State.reset.rst.mgmtUp = false ∧ State.reset.rst.dataUp = false ∧
  State.reset.pending = [] ∧ Safe State.reset

/-- R130: the level never becomes shallower before the module leaves reset. -/
def Obligations.TheLevelOnlyDeepens : Prop :=
  (∀ (s t : State) (c : Instr), exec c s = .next t → (∀ x, c ≠ .stretchEnd x) →
    t.rst.level ≤ s.rst.level) ∧
  (∀ (s t : State), idle s = .next t → t.rst.level = s.rst.level)

/-- The model has no stop: log entry 9 says what a command does whose conditions are not met. -/
def Obligations.EveryStepCompletes : Prop :=
  ∀ s : State, ∃ t, step s = .next t ∧ NothingRaised t ∧ t.ident = s.ident ∧ t.pending = s.pending.drop 1 ∧
    (t.peat = s.peat ∨ t.peat.writeSeq = s.peat.writeSeq + 1#32)

/-- Safe is the invariant of Safety.lean; the ring's bound is R622's. -/
def Obligations.EveryStepKeepsSafety : Prop :=
  ∀ s t : State, Safe s → step s = .next t → Safe t
end

