-- ==== Sys2Proof/Laws/State.lean ====
section
/-! SUPPORT. One lemma per field per update of the state, and the laws of the sparse tables: no
later proof unfolds a record update. -/

namespace Sys2Proof.Machine

/-! ## Sparse tables -/

variable {α : Type} {t : Tab α} {d v : α} {k n : Nat}

theorem tget?_tput_self : tget? (tput t k v) k = some v := by
  induction t with
  | nil => simp [tput, tget?]
  | cons e t ih => simp only [tput]; split_ifs <;> simp_all [tget?]

theorem tget?_tput_other (h : n ≠ k) : tget? (tput t k v) n = tget? t n := by
  induction t with
  | nil => simp [tput, tget?, h.symm]
  | cons e t ih => simp only [tput]; split_ifs <;> simp_all [tget?, h.symm]

@[simp] theorem tget_tput_self : tget d (tput t k v) k = v := by simp [tget, tget?_tput_self]

theorem tget_tput_other (h : n ≠ k) : tget d (tput t k v) n = tget d t n := by
  simp [tget, tget?_tput_other h]

/-! ## Updates of one object -/

variable (s : State)

section modGrp
variable (g : Nat) (f : Grp → Grp)
@[simp] theorem modGrp_ident : (s.modGrp g f).ident = s.ident := rfl
@[simp] theorem modGrp_rst : (s.modGrp g f).rst = s.rst := rfl
@[simp] theorem modGrp_peat : (s.modGrp g f).peat = s.peat := rfl
@[simp] theorem modGrp_iso : (s.modGrp g f).iso = s.iso := rfl
@[simp] theorem modGrp_mt : (s.modGrp g f).mt = s.mt := rfl
@[simp] theorem modGrp_pfe : (s.modGrp g f).pfe = s.pfe := rfl
@[simp] theorem modGrp_sets : (s.modGrp g f).sets = s.sets := rfl
@[simp] theorem modGrp_sp : (s.modGrp g f).sp = s.sp := rfl
@[simp] theorem modGrp_fig : (s.modGrp g f).fig = s.fig := rfl
@[simp] theorem modGrp_fab : (s.modGrp g f).fab = s.fab := rfl
@[simp] theorem modGrp_que : (s.modGrp g f).que = s.que := rfl
@[simp] theorem modGrp_sto : (s.modGrp g f).sto = s.sto := rfl
@[simp] theorem modGrp_cal : (s.modGrp g f).cal = s.cal := rfl
@[simp] theorem modGrp_host : (s.modGrp g f).host = s.host := rfl
@[simp] theorem modGrp_twin : (s.modGrp g f).twin = s.twin := rfl
@[simp] theorem modGrp_err : (s.modGrp g f).err = s.err := rfl
@[simp] theorem modGrp_sel : (s.modGrp g f).sel = s.sel := rfl
@[simp] theorem modGrp_misc : (s.modGrp g f).misc = s.misc := rfl
@[simp] theorem modGrp_free : (s.modGrp g f).free = s.free := rfl
@[simp] theorem modGrp_clk : (s.modGrp g f).clk = s.clk := rfl
@[simp] theorem modGrp_pending : (s.modGrp g f).pending = s.pending := rfl
end modGrp

section modSp
variable (p : Nat) (f : Sp → Sp)
@[simp] theorem modSp_ident : (s.modSp p f).ident = s.ident := rfl
@[simp] theorem modSp_rst : (s.modSp p f).rst = s.rst := rfl
@[simp] theorem modSp_peat : (s.modSp p f).peat = s.peat := rfl
@[simp] theorem modSp_iso : (s.modSp p f).iso = s.iso := rfl
@[simp] theorem modSp_mt : (s.modSp p f).mt = s.mt := rfl
@[simp] theorem modSp_pfe : (s.modSp p f).pfe = s.pfe := rfl
@[simp] theorem modSp_sets : (s.modSp p f).sets = s.sets := rfl
@[simp] theorem modSp_grp : (s.modSp p f).grp = s.grp := rfl
@[simp] theorem modSp_fig : (s.modSp p f).fig = s.fig := rfl
@[simp] theorem modSp_fab : (s.modSp p f).fab = s.fab := rfl
@[simp] theorem modSp_que : (s.modSp p f).que = s.que := rfl
@[simp] theorem modSp_sto : (s.modSp p f).sto = s.sto := rfl
@[simp] theorem modSp_cal : (s.modSp p f).cal = s.cal := rfl
@[simp] theorem modSp_host : (s.modSp p f).host = s.host := rfl
@[simp] theorem modSp_twin : (s.modSp p f).twin = s.twin := rfl
@[simp] theorem modSp_err : (s.modSp p f).err = s.err := rfl
@[simp] theorem modSp_sel : (s.modSp p f).sel = s.sel := rfl
@[simp] theorem modSp_misc : (s.modSp p f).misc = s.misc := rfl
@[simp] theorem modSp_free : (s.modSp p f).free = s.free := rfl
@[simp] theorem modSp_clk : (s.modSp p f).clk = s.clk := rfl
@[simp] theorem modSp_pending : (s.modSp p f).pending = s.pending := rfl
end modSp

section modFig
variable (n : Nat) (f : Fig → Fig)
@[simp] theorem modFig_ident : (s.modFig n f).ident = s.ident := rfl
@[simp] theorem modFig_rst : (s.modFig n f).rst = s.rst := rfl
@[simp] theorem modFig_peat : (s.modFig n f).peat = s.peat := rfl
@[simp] theorem modFig_iso : (s.modFig n f).iso = s.iso := rfl
@[simp] theorem modFig_mt : (s.modFig n f).mt = s.mt := rfl
@[simp] theorem modFig_pfe : (s.modFig n f).pfe = s.pfe := rfl
@[simp] theorem modFig_sets : (s.modFig n f).sets = s.sets := rfl
@[simp] theorem modFig_grp : (s.modFig n f).grp = s.grp := rfl
@[simp] theorem modFig_sp : (s.modFig n f).sp = s.sp := rfl
@[simp] theorem modFig_fab : (s.modFig n f).fab = s.fab := rfl
@[simp] theorem modFig_que : (s.modFig n f).que = s.que := rfl
@[simp] theorem modFig_sto : (s.modFig n f).sto = s.sto := rfl
@[simp] theorem modFig_cal : (s.modFig n f).cal = s.cal := rfl
@[simp] theorem modFig_host : (s.modFig n f).host = s.host := rfl
@[simp] theorem modFig_twin : (s.modFig n f).twin = s.twin := rfl
@[simp] theorem modFig_err : (s.modFig n f).err = s.err := rfl
@[simp] theorem modFig_sel : (s.modFig n f).sel = s.sel := rfl
@[simp] theorem modFig_misc : (s.modFig n f).misc = s.misc := rfl
@[simp] theorem modFig_free : (s.modFig n f).free = s.free := rfl
@[simp] theorem modFig_clk : (s.modFig n f).clk = s.clk := rfl
@[simp] theorem modFig_pending : (s.modFig n f).pending = s.pending := rfl
end modFig

section modQue
variable (q : Nat) (f : Queue → Queue)
@[simp] theorem modQue_ident : (s.modQue q f).ident = s.ident := rfl
@[simp] theorem modQue_rst : (s.modQue q f).rst = s.rst := rfl
@[simp] theorem modQue_peat : (s.modQue q f).peat = s.peat := rfl
@[simp] theorem modQue_iso : (s.modQue q f).iso = s.iso := rfl
@[simp] theorem modQue_mt : (s.modQue q f).mt = s.mt := rfl
@[simp] theorem modQue_pfe : (s.modQue q f).pfe = s.pfe := rfl
@[simp] theorem modQue_sets : (s.modQue q f).sets = s.sets := rfl
@[simp] theorem modQue_grp : (s.modQue q f).grp = s.grp := rfl
@[simp] theorem modQue_sp : (s.modQue q f).sp = s.sp := rfl
@[simp] theorem modQue_fig : (s.modQue q f).fig = s.fig := rfl
@[simp] theorem modQue_fab : (s.modQue q f).fab = s.fab := rfl
@[simp] theorem modQue_sto : (s.modQue q f).sto = s.sto := rfl
@[simp] theorem modQue_cal : (s.modQue q f).cal = s.cal := rfl
@[simp] theorem modQue_host : (s.modQue q f).host = s.host := rfl
@[simp] theorem modQue_twin : (s.modQue q f).twin = s.twin := rfl
@[simp] theorem modQue_err : (s.modQue q f).err = s.err := rfl
@[simp] theorem modQue_sel : (s.modQue q f).sel = s.sel := rfl
@[simp] theorem modQue_misc : (s.modQue q f).misc = s.misc := rfl
@[simp] theorem modQue_free : (s.modQue q f).free = s.free := rfl
@[simp] theorem modQue_clk : (s.modQue q f).clk = s.clk := rfl
@[simp] theorem modQue_pending : (s.modQue q f).pending = s.pending := rfl
end modQue

section modMbx
variable (n : Nat) (f : Mbx → Mbx)
@[simp] theorem modMbx_ident : (s.modMbx n f).ident = s.ident := rfl
@[simp] theorem modMbx_rst : (s.modMbx n f).rst = s.rst := rfl
@[simp] theorem modMbx_peat : (s.modMbx n f).peat = s.peat := rfl
@[simp] theorem modMbx_iso : (s.modMbx n f).iso = s.iso := rfl
@[simp] theorem modMbx_mt : (s.modMbx n f).mt = s.mt := rfl
@[simp] theorem modMbx_pfe : (s.modMbx n f).pfe = s.pfe := rfl
@[simp] theorem modMbx_sets : (s.modMbx n f).sets = s.sets := rfl
@[simp] theorem modMbx_grp : (s.modMbx n f).grp = s.grp := rfl
@[simp] theorem modMbx_sp : (s.modMbx n f).sp = s.sp := rfl
@[simp] theorem modMbx_fig : (s.modMbx n f).fig = s.fig := rfl
@[simp] theorem modMbx_fab : (s.modMbx n f).fab = s.fab := rfl
@[simp] theorem modMbx_que : (s.modMbx n f).que = s.que := rfl
@[simp] theorem modMbx_sto : (s.modMbx n f).sto = s.sto := rfl
@[simp] theorem modMbx_cal : (s.modMbx n f).cal = s.cal := rfl
@[simp] theorem modMbx_twin : (s.modMbx n f).twin = s.twin := rfl
@[simp] theorem modMbx_err : (s.modMbx n f).err = s.err := rfl
@[simp] theorem modMbx_sel : (s.modMbx n f).sel = s.sel := rfl
@[simp] theorem modMbx_misc : (s.modMbx n f).misc = s.misc := rfl
@[simp] theorem modMbx_free : (s.modMbx n f).free = s.free := rfl
@[simp] theorem modMbx_clk : (s.modMbx n f).clk = s.clk := rfl
@[simp] theorem modMbx_pending : (s.modMbx n f).pending = s.pending := rfl
end modMbx

section modHdr
variable (n : Nat) (f : Hdr → Hdr)
@[simp] theorem modHdr_ident : (s.modHdr n f).ident = s.ident := rfl
@[simp] theorem modHdr_rst : (s.modHdr n f).rst = s.rst := rfl
@[simp] theorem modHdr_peat : (s.modHdr n f).peat = s.peat := rfl
@[simp] theorem modHdr_iso : (s.modHdr n f).iso = s.iso := rfl
@[simp] theorem modHdr_mt : (s.modHdr n f).mt = s.mt := rfl
@[simp] theorem modHdr_pfe : (s.modHdr n f).pfe = s.pfe := rfl
@[simp] theorem modHdr_sets : (s.modHdr n f).sets = s.sets := rfl
@[simp] theorem modHdr_grp : (s.modHdr n f).grp = s.grp := rfl
@[simp] theorem modHdr_sp : (s.modHdr n f).sp = s.sp := rfl
@[simp] theorem modHdr_fig : (s.modHdr n f).fig = s.fig := rfl
@[simp] theorem modHdr_fab : (s.modHdr n f).fab = s.fab := rfl
@[simp] theorem modHdr_que : (s.modHdr n f).que = s.que := rfl
@[simp] theorem modHdr_sto : (s.modHdr n f).sto = s.sto := rfl
@[simp] theorem modHdr_cal : (s.modHdr n f).cal = s.cal := rfl
@[simp] theorem modHdr_twin : (s.modHdr n f).twin = s.twin := rfl
@[simp] theorem modHdr_err : (s.modHdr n f).err = s.err := rfl
@[simp] theorem modHdr_sel : (s.modHdr n f).sel = s.sel := rfl
@[simp] theorem modHdr_misc : (s.modHdr n f).misc = s.misc := rfl
@[simp] theorem modHdr_free : (s.modHdr n f).free = s.free := rfl
@[simp] theorem modHdr_clk : (s.modHdr n f).clk = s.clk := rfl
@[simp] theorem modHdr_pending : (s.modHdr n f).pending = s.pending := rfl
end modHdr

section modCal
variable (g : Nat) (f : CalGrp → CalGrp)
@[simp] theorem modCal_ident : (s.modCal g f).ident = s.ident := rfl
@[simp] theorem modCal_rst : (s.modCal g f).rst = s.rst := rfl
@[simp] theorem modCal_peat : (s.modCal g f).peat = s.peat := rfl
@[simp] theorem modCal_iso : (s.modCal g f).iso = s.iso := rfl
@[simp] theorem modCal_mt : (s.modCal g f).mt = s.mt := rfl
@[simp] theorem modCal_pfe : (s.modCal g f).pfe = s.pfe := rfl
@[simp] theorem modCal_sets : (s.modCal g f).sets = s.sets := rfl
@[simp] theorem modCal_grp : (s.modCal g f).grp = s.grp := rfl
@[simp] theorem modCal_sp : (s.modCal g f).sp = s.sp := rfl
@[simp] theorem modCal_fig : (s.modCal g f).fig = s.fig := rfl
@[simp] theorem modCal_fab : (s.modCal g f).fab = s.fab := rfl
@[simp] theorem modCal_que : (s.modCal g f).que = s.que := rfl
@[simp] theorem modCal_sto : (s.modCal g f).sto = s.sto := rfl
@[simp] theorem modCal_host : (s.modCal g f).host = s.host := rfl
@[simp] theorem modCal_twin : (s.modCal g f).twin = s.twin := rfl
@[simp] theorem modCal_err : (s.modCal g f).err = s.err := rfl
@[simp] theorem modCal_sel : (s.modCal g f).sel = s.sel := rfl
@[simp] theorem modCal_misc : (s.modCal g f).misc = s.misc := rfl
@[simp] theorem modCal_free : (s.modCal g f).free = s.free := rfl
@[simp] theorem modCal_clk : (s.modCal g f).clk = s.clk := rfl
@[simp] theorem modCal_pending : (s.modCal g f).pending = s.pending := rfl
end modCal

section modTwin
variable (f : Twin → Twin)
@[simp] theorem modTwin_ident : (s.modTwin f).ident = s.ident := rfl
@[simp] theorem modTwin_rst : (s.modTwin f).rst = s.rst := rfl
@[simp] theorem modTwin_peat : (s.modTwin f).peat = s.peat := rfl
@[simp] theorem modTwin_iso : (s.modTwin f).iso = s.iso := rfl
@[simp] theorem modTwin_mt : (s.modTwin f).mt = s.mt := rfl
@[simp] theorem modTwin_pfe : (s.modTwin f).pfe = s.pfe := rfl
@[simp] theorem modTwin_sets : (s.modTwin f).sets = s.sets := rfl
@[simp] theorem modTwin_grp : (s.modTwin f).grp = s.grp := rfl
@[simp] theorem modTwin_sp : (s.modTwin f).sp = s.sp := rfl
@[simp] theorem modTwin_fig : (s.modTwin f).fig = s.fig := rfl
@[simp] theorem modTwin_fab : (s.modTwin f).fab = s.fab := rfl
@[simp] theorem modTwin_que : (s.modTwin f).que = s.que := rfl
@[simp] theorem modTwin_sto : (s.modTwin f).sto = s.sto := rfl
@[simp] theorem modTwin_cal : (s.modTwin f).cal = s.cal := rfl
@[simp] theorem modTwin_host : (s.modTwin f).host = s.host := rfl
@[simp] theorem modTwin_err : (s.modTwin f).err = s.err := rfl
@[simp] theorem modTwin_sel : (s.modTwin f).sel = s.sel := rfl
@[simp] theorem modTwin_misc : (s.modTwin f).misc = s.misc := rfl
@[simp] theorem modTwin_free : (s.modTwin f).free = s.free := rfl
@[simp] theorem modTwin_clk : (s.modTwin f).clk = s.clk := rfl
@[simp] theorem modTwin_pending : (s.modTwin f).pending = s.pending := rfl
end modTwin

section modPlace
variable (n : Nat) (f : Placement → Placement)
@[simp] theorem modPlace_ident : (s.modPlace n f).ident = s.ident := rfl
@[simp] theorem modPlace_rst : (s.modPlace n f).rst = s.rst := rfl
@[simp] theorem modPlace_peat : (s.modPlace n f).peat = s.peat := rfl
@[simp] theorem modPlace_iso : (s.modPlace n f).iso = s.iso := rfl
@[simp] theorem modPlace_mt : (s.modPlace n f).mt = s.mt := rfl
@[simp] theorem modPlace_pfe : (s.modPlace n f).pfe = s.pfe := rfl
@[simp] theorem modPlace_grp : (s.modPlace n f).grp = s.grp := rfl
@[simp] theorem modPlace_sp : (s.modPlace n f).sp = s.sp := rfl
@[simp] theorem modPlace_fig : (s.modPlace n f).fig = s.fig := rfl
@[simp] theorem modPlace_fab : (s.modPlace n f).fab = s.fab := rfl
@[simp] theorem modPlace_que : (s.modPlace n f).que = s.que := rfl
@[simp] theorem modPlace_sto : (s.modPlace n f).sto = s.sto := rfl
@[simp] theorem modPlace_cal : (s.modPlace n f).cal = s.cal := rfl
@[simp] theorem modPlace_host : (s.modPlace n f).host = s.host := rfl
@[simp] theorem modPlace_twin : (s.modPlace n f).twin = s.twin := rfl
@[simp] theorem modPlace_err : (s.modPlace n f).err = s.err := rfl
@[simp] theorem modPlace_sel : (s.modPlace n f).sel = s.sel := rfl
@[simp] theorem modPlace_misc : (s.modPlace n f).misc = s.misc := rfl
@[simp] theorem modPlace_free : (s.modPlace n f).free = s.free := rfl
@[simp] theorem modPlace_clk : (s.modPlace n f).clk = s.clk := rfl
@[simp] theorem modPlace_pending : (s.modPlace n f).pending = s.pending := rfl
end modPlace

@[simp] theorem grpAt_modGrp_self (f : Grp → Grp) : (s.modGrp n f).grpAt n = f (s.grpAt n) := by
  simp [State.grpAt, State.modGrp]

theorem grpAt_modGrp_other (f : Grp → Grp) (h : k ≠ n) : (s.modGrp n f).grpAt k = s.grpAt k := by
  simp [State.grpAt, State.modGrp, tget_tput_other h]

@[simp] theorem spAt_modSp_self (f : Sp → Sp) : (s.modSp n f).spAt n = f (s.spAt n) := by
  simp [State.spAt, State.modSp]

theorem spAt_modSp_other (f : Sp → Sp) (h : k ≠ n) : (s.modSp n f).spAt k = s.spAt k := by
  simp [State.spAt, State.modSp, tget_tput_other h]

@[simp] theorem figAt_modFig_self (f : Fig → Fig) : (s.modFig n f).figAt n = f (s.figAt n) := by
  simp [State.figAt, State.modFig]

theorem figAt_modFig_other (f : Fig → Fig) (h : k ≠ n) : (s.modFig n f).figAt k = s.figAt k := by
  simp [State.figAt, State.modFig, tget_tput_other h]

@[simp] theorem queAt_modQue_self (f : Queue → Queue) : (s.modQue n f).queAt n = f (s.queAt n) := by
  simp [State.queAt, State.modQue]

theorem queAt_modQue_other (f : Queue → Queue) (h : k ≠ n) : (s.modQue n f).queAt k = s.queAt k := by
  simp [State.queAt, State.modQue, tget_tput_other h]

@[simp] theorem mbxAt_modMbx_self (f : Mbx → Mbx) : (s.modMbx n f).mbxAt n = f (s.mbxAt n) := by
  simp [State.mbxAt, State.modMbx]

theorem mbxAt_modMbx_other (f : Mbx → Mbx) (h : k ≠ n) : (s.modMbx n f).mbxAt k = s.mbxAt k := by
  simp [State.mbxAt, State.modMbx, tget_tput_other h]

@[simp] theorem hdrAt_modHdr_self (f : Hdr → Hdr) : (s.modHdr n f).hdrAt n = f (s.hdrAt n) := by
  simp [State.hdrAt, State.modHdr]

theorem hdrAt_modHdr_other (f : Hdr → Hdr) (h : k ≠ n) : (s.modHdr n f).hdrAt k = s.hdrAt k := by
  simp [State.hdrAt, State.modHdr, tget_tput_other h]

@[simp] theorem calAt_modCal_self (f : CalGrp → CalGrp) : (s.modCal n f).calAt n = f (s.calAt n) := by
  simp [State.calAt, State.modCal]

theorem calAt_modCal_other (f : CalGrp → CalGrp) (h : k ≠ n) : (s.modCal n f).calAt k = s.calAt k := by
  simp [State.calAt, State.modCal, tget_tput_other h]

@[simp] theorem placeAt_modPlace_self (f : Placement → Placement) : (s.modPlace n f).placeAt n = f (s.placeAt n) := by
  simp [State.placeAt, State.modPlace]

theorem placeAt_modPlace_other (f : Placement → Placement) (h : k ≠ n) : (s.modPlace n f).placeAt k = s.placeAt k := by
  simp [State.placeAt, State.modPlace, tget_tput_other h]

end Sys2Proof.Machine
end

