-- ==== Sys2Proof/Laws/Done.lean ====
section
/-! SUPPORT. What the end of a step can change: only signals. -/

namespace Sys2Proof.Machine

variable (s s0 s1 : State)

/-! ## Interrupt vectors -/

/-- The host interface without its interrupt bookkeeping. -/
def HostIf.bare (h : HostIf) : HostIf := { h with sent := [], pba := [], irqPend := [] }

theorem bare_flags (h : HostIf) : h.bare.flags = h.flags := rfl
theorem bare_mbxRst (h : HostIf) : h.bare.mbxRst = h.mbxRst := rfl
theorem bare_cplErr (h : HostIf) : h.bare.cplErr = h.cplErr := rfl
theorem bare_speed (h : HostIf) : h.bare.speed = h.speed := rfl
theorem bare_width (h : HostIf) : h.bare.width = h.width := rfl
theorem bare_msixEn (h : HostIf) : h.bare.msixEn = h.msixEn := rfl
theorem bare_busMaster (h : HostIf) : h.bare.busMaster = h.busMaster := rfl
theorem bare_funcMask (h : HostIf) : h.bare.funcMask = h.funcMask := rfl
theorem bare_msix (h : HostIf) : h.bare.msix = h.msix := rfl
theorem bare_hdrFault (h : HostIf) : h.bare.hdrFault = h.hdrFault := rfl
theorem bare_mbx (h : HostIf) : h.bare.mbx = h.mbx := rfl
theorem bare_hdr (h : HostIf) : h.bare.hdr = h.hdr := rfl
theorem bare_fetched (h : HostIf) : h.bare.fetched = h.fetched := rfl
theorem bare_outst (h : HostIf) : h.bare.outst = h.outst := rfl
theorem bare_spi (h : HostIf) : h.bare.spi = h.spi := rfl
theorem bare_dbg (h : HostIf) : h.bare.dbg = h.dbg := rfl
theorem bare_window (h : HostIf) : h.bare.window = h.window := rfl
theorem bare_holdPcie (h : HostIf) : h.bare.holdPcie = h.holdPcie := rfl
theorem bare_holdSpi (h : HostIf) : h.bare.holdSpi = h.holdSpi := rfl
theorem bare_readPcie (h : HostIf) : h.bare.readPcie = h.readPcie := rfl
theorem bare_readSpi (h : HostIf) : h.bare.readSpi = h.readSpi := rfl

@[simp] theorem vecPcie_bare (h : HostIf) (v : Nat) : (h.vecPcie v).bare = h.bare := by
  unfold HostIf.vecPcie; split <;> rfl

@[simp] theorem vecSpi_bare (h : HostIf) (v : Nat) : (h.vecSpi v).bare = h.bare := rfl

@[simp] theorem vecOf_bare (h : HostIf) (p : Port) (v : Nat) : (h.vecOf p v).bare = h.bare := by
  cases p <;> simp [HostIf.vecOf]

@[simp] theorem vecAll_bare (h : HostIf) (v : Nat) : (h.vecAll v).bare = h.bare := by
  simp [HostIf.vecAll]

theorem foldl_bare {β : Type} (f : HostIf → β → HostIf) (hf : ∀ h x, (f h x).bare = h.bare)
    (l : List β) (h : HostIf) : (l.foldl f h).bare = h.bare := by
  induction l generalizing h with
  | nil => rfl
  | cons x l ih => rw [List.foldl_cons, ih, hf]

/-! ## The event fabric -/

/-- The event fabric without what events leave in it: its routes. -/
def Fab.bare (f : Fab) : Fab :=
  { f with
    coincFlag := [], coinc := [], flags := 0, seen := [], cnt := [], evtOut := [], raised := []
    arrived := [] }

@[simp] theorem consume_bare (f : Fab) (g : Nat → Bool) (c : Nat) : (f.consume g c).bare = f.bare := by
  unfold Fab.consume; split <;> [rfl; split <;> rfl]

@[simp] theorem receive_bare (f : Fab) (g : Nat → Bool) (c h : Nat) :
    (f.receive g c h).bare = f.bare := by
  unfold Fab.receive
  split
  · rfl
  · simp only
    split
    · simp
    · rw [← consume_bare f g c]; rfl

@[simp] theorem see_bare (f : Fab) (h k : Nat) : (f.see h k).bare = f.bare := by
  unfold Fab.see; split <;> rfl

theorem foldl_fab {β : Type} (f : Fab → β → Fab) (hf : ∀ h x, (f h x).bare = h.bare)
    (l : List β) (h : Fab) : (l.foldl f h).bare = h.bare := by
  induction l generalizing h with
  | nil => rfl
  | cons x l ih => rw [List.foldl_cons, ih, hf]

/-! ## Records and events -/

/-- The state without the signals: what events leave in the fabric, the log, its copy in the peat
store, the interrupts. -/
def State.quiet (s : State) : State :=
  { s with
    fab := s.fab.bare, err := State.reset.err, host := s.host.bare
    peat := { s.peat with errNewest := 0, errAck := 0, errFirst := none, writeSeq := 0 } }

@[simp] theorem raise_quiet (c : Nat) : (s.raise c).quiet = s.quiet := by
  unfold State.raise; split <;> rfl

@[simp] theorem formErr_quiet (r : ErrRec) : (s.formErr r).quiet = s.quiet := by
  unfold State.formErr
  simp only
  split <;> split <;> (try simp only [raise_quiet]) <;> rfl

@[simp] theorem log_quiet (e : ErrSpec) : (s.log e).quiet = s.quiet := by
  unfold State.log
  simp only
  split
  · simp
  · rfl

theorem foldl_quiet {β : Type} (f : State → β → State) (hf : ∀ s x, (f s x).quiet = s.quiet)
    (l : List β) (s : State) : (l.foldl f s).quiet = s.quiet := by
  induction l generalizing s with
  | nil => rfl
  | cons x l ih => rw [List.foldl_cons, ih, hf]

@[simp] theorem logSat_quiet (k : SatKey) : (s.logSat k).quiet = s.quiet := by
  simp [State.logSat]; rfl

@[simp] theorem logSats_quiet : (State.logSats s0 s1).quiet = s1.quiet :=
  foldl_quiet _ (fun s k => logSat_quiet s k) _ _

@[simp] theorem carry_quiet : s.carry.quiet = s.quiet := by
  unfold State.carry
  split
  · simp only [State.quiet]
    rw [foldl_bare _ (fun h x => vecAll_bare h _)]
    have h (g : Fab) : ({ g with raised := [] } : Fab).bare = g.bare := rfl
    rw [h, foldl_fab _ (fun f x => see_bare f _ _), foldl_fab _ (fun f x => receive_bare f _ _ _)]
  · rfl

@[simp] theorem raiseReady_quiet : (State.raiseReady s0 s1).quiet = s1.quiet := by
  unfold State.raiseReady; split <;> simp

/-- What follows a command leaves everything but signals as it is. -/
theorem settled_quiet : (State.settled s0 s1).quiet = s1.quiet := by
  have h : ∀ (b : State) (h : HostIf), h.bare = b.host.bare → ({ b with host := h }).quiet = b.quiet := by
    intro b h hh; simp [State.quiet, hh]
  unfold State.settled
  simp only
  rw [h _ _ (foldl_bare _ vecAll_bare _ _)]
  simp

/-! ## The parts of the state after a step -/

@[simp] theorem done_ident : (State.done s0 s1).ident = s0.ident := rfl
@[simp] theorem done_pending : (State.done s0 s1).pending = s0.pending := rfl
@[simp] theorem done_rst : (State.done s0 s1).rst = s1.rst := rfl
@[simp] theorem done_iso : (State.done s0 s1).iso = s1.iso := rfl
@[simp] theorem done_mt : (State.done s0 s1).mt = s1.mt := rfl
@[simp] theorem done_pfe : (State.done s0 s1).pfe = s1.pfe := rfl
@[simp] theorem done_sets : (State.done s0 s1).sets = s1.sets := rfl
@[simp] theorem done_grp : (State.done s0 s1).grp = s1.grp := rfl
@[simp] theorem done_sp : (State.done s0 s1).sp = s1.sp := rfl
@[simp] theorem done_fig : (State.done s0 s1).fig = s1.fig := rfl
@[simp] theorem done_que : (State.done s0 s1).que = s1.que := rfl
@[simp] theorem done_sto : (State.done s0 s1).sto = s1.sto := rfl
@[simp] theorem done_cal : (State.done s0 s1).cal = s1.cal := rfl
@[simp] theorem done_sel : (State.done s0 s1).sel = s1.sel := rfl
@[simp] theorem done_misc : (State.done s0 s1).misc = s1.misc := rfl
@[simp] theorem done_free : (State.done s0 s1).free = s1.free := rfl
@[simp] theorem done_clk : (State.done s0 s1).clk = s1.clk := rfl

theorem quiet_host : s.quiet.host = s.host.bare := rfl

theorem done_host : (State.done s0 s1).host = (State.settled s0 s1).host := by
  simp only [State.done]

theorem done_host_bare : (State.done s0 s1).host.bare = s1.host.bare := by
  rw [done_host, ← quiet_host, settled_quiet, quiet_host]

@[simp] theorem done_host_flags : (State.done s0 s1).host.flags = s1.host.flags := by
  rw [← bare_flags, done_host_bare, bare_flags]
@[simp] theorem done_host_mbxRst : (State.done s0 s1).host.mbxRst = s1.host.mbxRst := by
  rw [← bare_mbxRst, done_host_bare, bare_mbxRst]
@[simp] theorem done_host_cplErr : (State.done s0 s1).host.cplErr = s1.host.cplErr := by
  rw [← bare_cplErr, done_host_bare, bare_cplErr]
@[simp] theorem done_host_speed : (State.done s0 s1).host.speed = s1.host.speed := by
  rw [← bare_speed, done_host_bare, bare_speed]
@[simp] theorem done_host_width : (State.done s0 s1).host.width = s1.host.width := by
  rw [← bare_width, done_host_bare, bare_width]
@[simp] theorem done_host_msixEn : (State.done s0 s1).host.msixEn = s1.host.msixEn := by
  rw [← bare_msixEn, done_host_bare, bare_msixEn]
@[simp] theorem done_host_busMaster : (State.done s0 s1).host.busMaster = s1.host.busMaster := by
  rw [← bare_busMaster, done_host_bare, bare_busMaster]
@[simp] theorem done_host_funcMask : (State.done s0 s1).host.funcMask = s1.host.funcMask := by
  rw [← bare_funcMask, done_host_bare, bare_funcMask]
@[simp] theorem done_host_msix : (State.done s0 s1).host.msix = s1.host.msix := by
  rw [← bare_msix, done_host_bare, bare_msix]
@[simp] theorem done_host_hdrFault : (State.done s0 s1).host.hdrFault = s1.host.hdrFault := by
  rw [← bare_hdrFault, done_host_bare, bare_hdrFault]
@[simp] theorem done_host_mbx : (State.done s0 s1).host.mbx = s1.host.mbx := by
  rw [← bare_mbx, done_host_bare, bare_mbx]
@[simp] theorem done_host_hdr : (State.done s0 s1).host.hdr = s1.host.hdr := by
  rw [← bare_hdr, done_host_bare, bare_hdr]
@[simp] theorem done_host_fetched : (State.done s0 s1).host.fetched = s1.host.fetched := by
  rw [← bare_fetched, done_host_bare, bare_fetched]
@[simp] theorem done_host_outst : (State.done s0 s1).host.outst = s1.host.outst := by
  rw [← bare_outst, done_host_bare, bare_outst]
@[simp] theorem done_host_spi : (State.done s0 s1).host.spi = s1.host.spi := by
  rw [← bare_spi, done_host_bare, bare_spi]
@[simp] theorem done_host_dbg : (State.done s0 s1).host.dbg = s1.host.dbg := by
  rw [← bare_dbg, done_host_bare, bare_dbg]
@[simp] theorem done_host_window : (State.done s0 s1).host.window = s1.host.window := by
  rw [← bare_window, done_host_bare, bare_window]
@[simp] theorem done_host_holdPcie : (State.done s0 s1).host.holdPcie = s1.host.holdPcie := by
  rw [← bare_holdPcie, done_host_bare, bare_holdPcie]
@[simp] theorem done_host_holdSpi : (State.done s0 s1).host.holdSpi = s1.host.holdSpi := by
  rw [← bare_holdSpi, done_host_bare, bare_holdSpi]
@[simp] theorem done_host_readPcie : (State.done s0 s1).host.readPcie = s1.host.readPcie := by
  rw [← bare_readPcie, done_host_bare, bare_readPcie]
@[simp] theorem done_host_readSpi : (State.done s0 s1).host.readSpi = s1.host.readSpi := by
  rw [← bare_readSpi, done_host_bare, bare_readSpi]

@[simp] theorem done_mbxAt (n : Nat) : (State.done s0 s1).mbxAt n = s1.mbxAt n := by
  simp [State.mbxAt]

@[simp] theorem done_hdrAt (n : Nat) : (State.done s0 s1).hdrAt n = s1.hdrAt n := by
  simp [State.hdrAt]

@[simp] theorem done_grpAt (n : Nat) : (State.done s0 s1).grpAt n = s1.grpAt n := rfl
@[simp] theorem done_spAt (n : Nat) : (State.done s0 s1).spAt n = s1.spAt n := rfl
@[simp] theorem done_figAt (n : Nat) : (State.done s0 s1).figAt n = s1.figAt n := rfl
@[simp] theorem done_queAt (n : Nat) : (State.done s0 s1).queAt n = s1.queAt n := rfl
@[simp] theorem done_calAt (n : Nat) : (State.done s0 s1).calAt n = s1.calAt n := rfl
@[simp] theorem done_placeAt (n : Nat) : (State.done s0 s1).placeAt n = s1.placeAt n := rfl

/-- The peat store's part that no record of the log touches. -/
theorem settled_peat : { (State.settled s0 s1).peat with
    errNewest := 0, errAck := 0, errFirst := none, writeSeq := 0 } =
    { s1.peat with errNewest := 0, errAck := 0, errFirst := none, writeSeq := 0 } := by
  have h : ∀ s : State, s.quiet.peat =
      { s.peat with errNewest := 0, errAck := 0, errFirst := none, writeSeq := 0 } := fun _ => rfl
  rw [← h, ← h, settled_quiet]

/-- The routes of the fabric after what follows a command. -/
theorem settled_fab : (State.settled s0 s1).fab.bare = s1.fab.bare := by
  have h : ∀ s : State, s.quiet.fab = s.fab.bare := fun _ => rfl
  rw [← h, ← h, settled_quiet]

/-- A step's frames are all the twin block gains at its end. -/
theorem sendRunners_twin : { (State.sendRunners s0 s1).twin with
    fseq := s1.twin.fseq, unacked := s1.twin.unacked, lastSent := s1.twin.lastSent } = s1.twin := by
  have h : ∀ (l : List Nat) (t : State), { (l.foldl (fun t _ => t.sendReliable 3) t).twin with
      fseq := s1.twin.fseq, unacked := s1.twin.unacked, lastSent := s1.twin.lastSent } =
      { t.twin with
        fseq := s1.twin.fseq, unacked := s1.twin.unacked, lastSent := s1.twin.lastSent } := by
    intro l
    induction l with
    | nil => intro t; rfl
    | cons x l ih => intro t; rw [List.foldl_cons, ih]; rfl
  unfold State.sendRunners
  split
  · rw [h]
  · rfl

/-- The twin block after a step, its frames apart. -/
theorem done_twin : { (State.done s0 s1).twin with
    fseq := s1.twin.fseq, unacked := s1.twin.unacked, lastSent := s1.twin.lastSent } = s1.twin := by
  have h : (State.done s0 s1).twin = (State.sendRunners s0 s1).twin := by simp only [State.done]
  rw [h, sendRunners_twin]

end Sys2Proof.Machine
end

