-- ==== Sys2Proof/Laws/Window.lean ====
section
/-! SUPPORT. The service window: a read after a write, and the canonical form every write keeps. -/

namespace Sys2Proof.Machine

variable {m : List Host.Cell} {a x : Nat} {b : Byte}

/-- Addresses rise along the list. -/
abbrev rising (m : List Host.Cell) : Prop := m.Pairwise (fun c d => c.1 < d.1)

/-- A write leaves every other byte alone. -/
theorem cellGet_cellPut_other (h : x ≠ a) : cellGet (cellPut m a b) x = cellGet m x := by
  induction m with
  | nil => simp only [cellPut]; split_ifs <;> simp [cellGet, h.symm]
  | cons c m ih =>
    simp only [cellPut]
    split_ifs with h1 h2 h3 h4 <;> simp_all [cellGet, h.symm]

/-- No byte of a rising list lies at an address below its first. -/
theorem cellGet_below (h : ∀ c ∈ m, x < c.1) : cellGet m x = 0#8 := by
  induction m with
  | nil => rfl
  | cons c m ih =>
    have hc := h c (by simp)
    rw [cellGet, if_neg (by omega), ih (fun d hd => h d (by simp [hd]))]

/-- A read after a write gives what was written. -/
theorem cellGet_cellPut_self (h : rising m) : cellGet (cellPut m a b) a = b := by
  induction m with
  | nil => simp only [cellPut]; split_ifs <;> simp_all [cellGet]
  | cons c m ih =>
    rw [rising, List.pairwise_cons] at h
    simp only [cellPut]
    split_ifs with h1 h2 h3 h4
    · rw [h2]; exact cellGet_below (fun d hd => by have := h.1 d hd; omega)
    · simp [cellGet]
    · rw [h4]
      exact cellGet_below (fun d hd => by
        rcases List.mem_cons.mp hd with rfl | hd
        · exact h3
        · have := h.1 d hd; omega)
    · simp [cellGet]
    · rw [cellGet, if_neg h1, ih h.2]

/-- Every cell of a list after a write was there before or is the byte written. -/
theorem mem_cellPut {c : Host.Cell} (h : c ∈ cellPut m a b) : c ∈ m ∨ (c = (a, b) ∧ b ≠ 0#8) := by
  induction m with
  | nil => simp only [cellPut] at h; split_ifs at h <;> simp_all
  | cons d m ih =>
    simp only [cellPut] at h
    split_ifs at h <;> simp_all <;> tauto

theorem rising_cellPut (h : rising m) : rising (cellPut m a b) := by
  induction m with
  | nil => simp only [cellPut]; split_ifs <;> simp [rising]
  | cons c m ih =>
    rw [rising, List.pairwise_cons] at h
    simp only [cellPut]
    split_ifs with h1 h2 h3 h4
    · exact h.2
    · exact List.pairwise_cons.mpr ⟨fun d hd => by have := h.1 d hd; simp only; omega, h.2⟩
    · exact List.pairwise_cons.mpr h
    · refine List.pairwise_cons.mpr ⟨fun d hd => ?_, List.pairwise_cons.mpr h⟩
      rcases List.mem_cons.mp hd with rfl | hd
      · exact h3
      · have := h.1 d hd; simp only; omega
    · refine List.pairwise_cons.mpr ⟨fun d hd => ?_, ih h.2⟩
      rcases mem_cellPut hd with hd | ⟨rfl, -⟩
      · exact h.1 d hd
      · simp only; omega

/-- Writing a byte keeps the canonical form. -/
theorem cellsWf_cellPut (h : cellsWf m = true) (ha : a < windowSize) : cellsWf (cellPut m a b) = true := by
  simp only [cellsWf, Bool.and_eq_true, List.all_eq_true, decide_eq_true_eq] at h ⊢
  refine ⟨fun c hc => ?_, rising_cellPut h.2⟩
  rcases mem_cellPut hc with hc | ⟨rfl, hb⟩
  · exact h.1 c hc
  · simp [ha, hb]

/-- Writing bytes at an address keeps the canonical form. -/
theorem cellsWf_winWrite (l : List Byte) (h : HostIf) (a : Nat) (hw : cellsWf h.window = true) :
    cellsWf (h.winWrite a l).window = true := by
  induction l generalizing h a with
  | nil => exact hw
  | cons b l ih =>
    rw [HostIf.winWrite]
    apply ih
    split_ifs with ha
    · exact cellsWf_cellPut hw ha
    · exact hw

/-- Writing bytes at an address leaves the bytes outside alone. -/
theorem cellGet_winWrite (l : List Byte) (h : HostIf) (a : Nat) (hx : x < a ∨ a + l.length ≤ x) :
    cellGet (h.winWrite a l).window x = cellGet h.window x := by
  induction l generalizing h a with
  | nil => rfl
  | cons b l ih =>
    simp only [List.length_cons] at hx
    rw [HostIf.winWrite, ih _ _ (by omega)]
    split_ifs
    · exact cellGet_cellPut_other (by omega)
    · rfl

/-- A window write touches nothing else of the host interface. -/
theorem winWrite_eq (l : List Byte) (h : HostIf) (a : Nat) :
    ∃ w, h.winWrite a l = { h with window := w } := by
  induction l generalizing h a with
  | nil => exact ⟨h.window, rfl⟩
  | cons b l ih =>
    rw [HostIf.winWrite]
    split_ifs
    · exact (ih { h with window := cellPut h.window a b } (a + 1)).imp fun _ e => e
    · exact ih h (a + 1)

end Sys2Proof.Machine
end

