-- ==== Sys2Proof/Laws/Answer.lean ====
section
/-! SUPPORT. What completing a command does, once for all: its mailbox's newest response, and
nothing else but the service window and the interrupts. -/

namespace Sys2Proof.Machine

variable {s t u : State} {r : Req} {w : Waiter} {a : Answer} {op : Nat}

/-! ## An answer leaves the rest of the state alone -/

section
variable (s w a)
@[simp] theorem answer_ident : (s.answer w a).ident = s.ident := by unfold State.answer; split <;> rfl
@[simp] theorem answer_rst : (s.answer w a).rst = s.rst := by unfold State.answer; split <;> rfl
@[simp] theorem answer_peat : (s.answer w a).peat = s.peat := by unfold State.answer; split <;> rfl
@[simp] theorem answer_iso : (s.answer w a).iso = s.iso := by unfold State.answer; split <;> rfl
@[simp] theorem answer_mt : (s.answer w a).mt = s.mt := by unfold State.answer; split <;> rfl
@[simp] theorem answer_pfe : (s.answer w a).pfe = s.pfe := by unfold State.answer; split <;> rfl
@[simp] theorem answer_sets : (s.answer w a).sets = s.sets := by unfold State.answer; split <;> rfl
@[simp] theorem answer_grp : (s.answer w a).grp = s.grp := by unfold State.answer; split <;> rfl
@[simp] theorem answer_sp : (s.answer w a).sp = s.sp := by unfold State.answer; split <;> rfl
@[simp] theorem answer_fig : (s.answer w a).fig = s.fig := by unfold State.answer; split <;> rfl
@[simp] theorem answer_fab : (s.answer w a).fab = s.fab := by unfold State.answer; split <;> rfl
@[simp] theorem answer_que : (s.answer w a).que = s.que := by unfold State.answer; split <;> rfl
@[simp] theorem answer_sto : (s.answer w a).sto = s.sto := by unfold State.answer; split <;> rfl
@[simp] theorem answer_cal : (s.answer w a).cal = s.cal := by unfold State.answer; split <;> rfl
@[simp] theorem answer_twin : (s.answer w a).twin = s.twin := by unfold State.answer; split <;> rfl
@[simp] theorem answer_err : (s.answer w a).err = s.err := by unfold State.answer; split <;> rfl
@[simp] theorem answer_sel : (s.answer w a).sel = s.sel := by unfold State.answer; split <;> rfl
@[simp] theorem answer_misc : (s.answer w a).misc = s.misc := by unfold State.answer; split <;> rfl
@[simp] theorem answer_free : (s.answer w a).free = s.free := by unfold State.answer; split <;> rfl
@[simp] theorem answer_clk : (s.answer w a).clk = s.clk := by unfold State.answer; split <;> rfl
@[simp] theorem answer_pending : (s.answer w a).pending = s.pending := by
  unfold State.answer; split <;> rfl
end

section
variable (s r)
@[simp] theorem take_ident : (s.take r).ident = s.ident := rfl
@[simp] theorem take_rst : (s.take r).rst = s.rst := rfl
@[simp] theorem take_peat : (s.take r).peat = s.peat := rfl
@[simp] theorem take_iso : (s.take r).iso = s.iso := rfl
@[simp] theorem take_mt : (s.take r).mt = s.mt := rfl
@[simp] theorem take_pfe : (s.take r).pfe = s.pfe := rfl
@[simp] theorem take_sets : (s.take r).sets = s.sets := rfl
@[simp] theorem take_grp : (s.take r).grp = s.grp := rfl
@[simp] theorem take_sp : (s.take r).sp = s.sp := rfl
@[simp] theorem take_fig : (s.take r).fig = s.fig := rfl
@[simp] theorem take_fab : (s.take r).fab = s.fab := rfl
@[simp] theorem take_que : (s.take r).que = s.que := rfl
@[simp] theorem take_sto : (s.take r).sto = s.sto := rfl
@[simp] theorem take_cal : (s.take r).cal = s.cal := rfl
@[simp] theorem take_twin : (s.take r).twin = s.twin := rfl
@[simp] theorem take_err : (s.take r).err = s.err := rfl
@[simp] theorem take_sel : (s.take r).sel = s.sel := rfl
@[simp] theorem take_misc : (s.take r).misc = s.misc := rfl
@[simp] theorem take_free : (s.take r).free = s.free := rfl
@[simp] theorem take_clk : (s.take r).clk = s.clk := rfl
@[simp] theorem take_pending : (s.take r).pending = s.pending := rfl
@[simp] theorem take_mbxAt (n : Nat) : (s.take r).mbxAt n = s.mbxAt n := rfl
@[simp] theorem take_hdrAt (n : Nat) : (s.take r).hdrAt n = s.hdrAt n := rfl
@[simp] theorem take_outst : (s.take r).host.outst = s.host.outst := rfl
@[simp] theorem take_gate (g : Gate) : (s.take r).gate r g = s.gate r g := rfl
end

/-! ## The response -/

/-- A write back touches nothing of the host interface but the service window. -/
theorem writeBack_eq (h : HostIf) (m : Mbx) (x : BitVec 64) (q : Response) :
    ∃ c, h.writeBack m x q = { h with window := c } := by
  unfold HostIf.writeBack
  split
  · exact ⟨h.window, rfl⟩
  · obtain ⟨c, hc⟩ := winWrite_eq q.out h x.toNat
    obtain ⟨d, hd⟩ := winWrite_eq q.bytes (h.winWrite x.toNat q.out)
      (ringAddr m.rspBase m.rspLog2 m.rspTail)
    simp only
    split
    · exact ⟨d, by rw [hd, hc]⟩
    · obtain ⟨e, he⟩ := winWrite_eq (leBytes 2 m.reqHead.toNat ++ leBytes 2 (m.rspTail + 1#16).toNat ++
        leBytes 4 0) ((h.winWrite x.toNat q.out).winWrite
          (ringAddr m.rspBase m.rspLog2 m.rspTail) q.bytes) m.shadow.toNat
      exact ⟨e, by rw [he, hd, hc]⟩

theorem leBytes_length (n x : Nat) : (leBytes n x).length = n := by
  induction n generalizing x with
  | zero => rfl
  | succ n ih => simp [leBytes, ih]

theorem padTo_length (n : Nat) (l : List Byte) : (padTo n l).length = n := by
  simp [padTo]; omega

theorem response_bytes_length (q : Response) : q.bytes.length = 64 := by
  simp [Response.bytes, leBytes_length, padTo_length]

/-- A write back leaves the window outside the buffer, the slot and the shadow alone. -/
theorem cellGet_writeBack (h : HostIf) (m : Mbx) (x : BitVec 64) (q : Response) (n : Nat)
    (hn : ¬ (m.port = .service ∧
      ((x.toNat ≤ n ∧ n < x.toNat + q.out.length) ∨
       (ringAddr m.rspBase m.rspLog2 m.rspTail ≤ n ∧ n < ringAddr m.rspBase m.rspLog2 m.rspTail + 64) ∨
       (m.shadow ≠ 0#64 ∧ m.shadow.toNat ≤ n ∧ n < m.shadow.toNat + 8)))) :
    cellGet (h.writeBack m x q).window n = cellGet h.window n := by
  unfold HostIf.writeBack
  split
  · rfl
  · rename_i hp
    have hl := response_bytes_length q
    simp only [hp, true_and, not_or, not_and, not_lt] at hn
    simp only
    split
    · rw [cellGet_winWrite, cellGet_winWrite] <;> omega
    · rename_i hs
      have h3 := hn.2.2 hs
      rw [cellGet_winWrite, cellGet_winWrite, cellGet_winWrite]
      · omega
      · omega
      · simp only [List.length_append, leBytes_length]; omega

/-- A vector's happening touches nothing of the host interface but its interrupt bookkeeping. -/
theorem vecOf_eq (h : HostIf) (p : Port) (v : Nat) :
    ∃ x y z, h.vecOf p v = { h with sent := x, pba := y, irqPend := z } := by
  cases p
  · simp only [HostIf.vecOf, HostIf.vecPcie]
    split
    · exact ⟨_, h.pba, h.irqPend, rfl⟩
    · exact ⟨h.sent, _, h.irqPend, rfl⟩
  · exact ⟨h.sent, h.pba, _, rfl⟩

/-- Everything writing a response can do: the mailbox's entry, window cells, interrupts. -/
theorem writeResponse_eq (h : HostIf) (n : Nat) (x : BitVec 64) (q : Response) :
    ∃ m c y z i, h.writeResponse n x q =
      { h with mbx := tput h.mbx n m, window := c, sent := y, pba := z, irqPend := i } ∧
      m.responses = (tget Mbx.init h.mbx n).responses ++ [q] ∧
      c = (h.writeBack (tget Mbx.init h.mbx n) x q).window := by
  obtain ⟨c, hc⟩ := writeBack_eq h (tget Mbx.init h.mbx n) x q
  have hw : (h.writeBack (tget Mbx.init h.mbx n) x q).window = c := by rw [hc]
  rw [hw]
  simp only [HostIf.writeResponse]
  rw [hc]
  split
  · obtain ⟨y, z, i, hv⟩ := vecOf_eq _ _ _
    exact ⟨_, c, y, z, i, hv, rfl, rfl⟩
  · exact ⟨_, c, h.sent, h.pba, h.irqPend, rfl, rfl, rfl⟩

theorem tget_writeResponse_other {n k : Nat} (hk : k ≠ n) (h : HostIf) (x : BitVec 64) (q : Response) :
    tget Mbx.init (h.writeResponse n x q).mbx k = tget Mbx.init h.mbx k := by
  obtain ⟨m, c, y, z, i, e, -, -⟩ := writeResponse_eq h n x q
  rw [e]; exact tget_tput_other hk

/-! ## Commands -/

/-- Ending a step keeps every part of the state it ends. -/
theorem done_kept (s u : State) (p : Piece) : Kept u (State.done s u) p := by
  cases p <;> simp only [Kept]
  case peat =>
    have h : (State.done s u).peat = s.peat.stamped (State.settled s u).peat := by
      simp only [State.done]
    have hp := settled_peat s u
    simp only [Peat.mk.injEq] at hp
    rw [h]
    unfold Peat.stamped
    split <;> simp_all
  case routes =>
    have h : (State.done s u).fab = (State.settled s u).fab := by simp only [State.done]
    have hf := settled_fab s u
    simp only [Fab.bare, Fab.mk.injEq] at hf
    rw [h]
    simp_all
  case twin => exact done_twin s u
  all_goals simp

/-- Answering a request and ending the step keep every part but the mailboxes and the window. -/
theorem done_reply_kept (s u : State) (r : Req) (op : Nat) (a : Answer) (p : Piece)
    (hm : p ≠ .mbx) (hw : p ≠ .window) : Kept u (State.done s (u.reply r op a)) p := by
  have hk := done_kept s (u.reply r op a) p
  have hh : ∃ m c y z i, (u.reply r op a).host =
      { u.host with mbx := m, window := c, sent := y, pba := z, irqPend := i } := by
    simp only [State.reply, State.answer]
    split
    · obtain ⟨m, c, y, z, i, e, -, -⟩ := writeResponse_eq u.host (waiterOf r op u).mbx
        (waiterOf r op u).outAddr _
      exact ⟨_, _, _, _, _, e⟩
    · exact ⟨_, _, _, _, _, rfl⟩
  obtain ⟨m, c, y, z, i, hh⟩ := hh
  cases p <;> simp_all [Kept, State.reply]

/-- A request that completes as it is accepted is answered: what was done before leaves the host
interface, the time and the Cast's number as they were. -/
theorem answers_of_reply {s u : State} {r : Req} {op : Nat} {a : Answer}
    (ho : (s.mbxAt r.mbx).state = .opened) (hu : u.host = (s.take r).host) (ht : u.mt = s.mt)
    (hc : u.sets.castSeq = s.sets.castSeq) : Answers s (State.done s (u.reply r op a)) r op a := by
  have hm (n : Nat) : u.mbxAt n = s.mbxAt n := by
    simp only [State.mbxAt, hu]; exact congrArg _ rfl
  have he : (u.reply r op a).host =
      u.host.writeResponse r.mbx r.outAddr (responseTo s r op a s.sets.castSeq) := by
    simp only [State.reply, State.answer, waiterOf, hm, ho, if_pos, responseTo, ht, hc]
  obtain ⟨m, c, y, z, i, e, h1, h2⟩ := writeResponse_eq u.host r.mbx r.outAddr
    (responseTo s r op a s.sets.castSeq)
  refine ⟨?_, fun n hn => ?_, ?_, ?_, fun x hx => ?_⟩
  · rw [done_mbxAt, State.mbxAt, he, e, tget_tput_self, h1, ← hm]; rfl
  · rw [done_mbxAt, State.mbxAt, he, tget_writeResponse_other hn, ← hm]; rfl
  · rw [done_host_fetched, he, e, ← hu]
  · rw [done_host_outst, he, e]; simp [hu]
  · rw [done_host_window, he, e]
    simp only
    rw [h2, cellGet_writeBack]
    · rw [hu]; rfl
    · have : tget Mbx.init u.host.mbx r.mbx = s.mbxAt r.mbx := hm r.mbx
      rw [this]
      simpa [answerWrites, windowWrites, responseTo, responseFor, waiterOf, List.length_take] using hx

end Sys2Proof.Machine
end

