-- ==== Sys2Proof/Laws/Port.lean ====
section
/-! SUPPORT. What the operations on one port, group or die can do, once for all: where an update lands,
and the range of what they compute. -/

namespace Sys2Proof.Machine

variable (s : State) (p g n : Nat)

/-! ## Where an update of a part of a port or group lands -/

@[simp] theorem modForce_eq (f : Force → Force) :
    s.modForce p f = s.modSp p (fun x => { x with force := f x.force }) := rfl

@[simp] theorem modLoop_eq (f : Loop → Loop) :
    s.modLoop p f = s.modSp p (fun x => { x with loop := f x.loop }) := rfl

@[simp] theorem modSup_eq (f : Sup → Sup) :
    s.modSup p f = s.modSp p (fun x => { x with sup := f x.sup }) := rfl

@[simp] theorem modAcq_eq (f : Acq → Acq) :
    s.modAcq g f = s.modGrp g (fun x => { x with acq := f x.acq }) := rfl

/-! ## The spare slice, the selectors and the probe DAC -/

/-- The spare's amplifier follows a span and nothing else. -/
theorem spareFollow_cases : s.spareFollow g = s ∨
    ∃ k, s.spareFollow g = s.modAcq g (fun a => { a with spareSpan := k }) := by
  simp only [State.spareFollow]
  split
  · exact .inr ⟨_, rfl⟩
  · exact .inl rfl

/-- A role of the spare, its target and its front selector are what the command names. -/
theorem spare_role (role : SpareRole) (slice : Nat) :
    ((s.spare g role slice).grpAt g).acq.spareRole = role ∧
      ((s.spare g role slice).grpAt g).acq.spareTgt = slice ∧
      ((s.spare g role slice).grpAt g).acq.front = role.front slice := by
  unfold State.spare
  obtain e | ⟨k, e⟩ := spareFollow_cases (s.modAcq g (fun a =>
    { a with spareRole := role, spareTgt := slice, front := role.front slice })) g <;> rw [e] <;> simp

/-- It is of one group. -/
theorem spare_other (role : SpareRole) (slice : Nat) (h : n ≠ g) :
    (s.spare g role slice).grpAt n = s.grpAt n := by
  unfold State.spare
  obtain e | ⟨k, e⟩ := spareFollow_cases (s.modAcq g (fun a =>
    { a with spareRole := role, spareTgt := slice, front := role.front slice })) g <;>
    rw [e] <;> simp only [modAcq_eq, grpAt_modGrp_other (h := h)]

/-- And of that group's part of the state alone. -/
theorem spare_keeps (role : SpareRole) (slice : Nat) :
    s.spare g role slice = { s with grp := (s.spare g role slice).grp } := by
  unfold State.spare
  obtain e | ⟨k, e⟩ := spareFollow_cases (s.modAcq g (fun a =>
    { a with spareRole := role, spareTgt := slice, front := role.front slice })) g <;> rw [e] <;> rfl

/-! ## Ranges -/

theorem clamp_bounds {lo hi x : Int} (h : lo ≤ hi) : lo ≤ clamp lo hi x ∧ clamp lo hi x ≤ hi := by
  unfold clamp; split_ifs <;> omega

/-- A raw code is a signed 20-bit number (R218). -/
theorem codeIn_bounds (fs : Frac) (v : Int) : -524288 ≤ codeIn fs v ∧ codeIn fs v ≤ 524287 :=
  clamp_bounds (by decide)

/-- A code of the probe DAC is a signed 12-bit number (R247). -/
theorem probeCode_bounds (slice span : Nat) (pct : Int) :
    -2048 ≤ probeCode slice span pct ∧ probeCode slice span pct ≤ 2047 := clamp_bounds (by decide)

/-- The aux error fits its field (R108). -/
theorem auxError_bounds (fb : Nat) : -32768 ≤ s.auxError fb ∧ s.auxError fb ≤ 32767 :=
  clamp_bounds (by decide)

/-! ## Writes that wait for the loop tick (R17) -/

/-- A W1C write joins its group's list behind those that wait. -/
theorem wipeAsk_waits (off sel : Nat) (v : Word) :
    ((s.wipeAsk g off sel v).grpAt g).w1c = (s.grpAt g).w1c ++ [⟨off, sel, v⟩] := by
  simp [State.wipeAsk]

end Sys2Proof.Machine
end

