-- ==== Sys2Proof/Machine/Lands.lean ====
section
/-! DEFINITION. The land states of Table 6.5 (R134, R138, R140 to R142, R604), as State gives them. -/

namespace Sys2Proof.Machine

/-- The lands of Table 6.5: those of a stage port, of a group, of an ONFI channel, and the module's. -/
inductive Land where
  | fOut (port : Nat)
  | stgEn (port : Nat)
  | rng (port line : Nat)
  | site (port bit : Nat)
  | siteStb (port : Nat)
  | auxsel (grp bit : Nat)
  | seat (grp : Nat)
  | i2c (grp : Nat)
  | gflt (grp : Nat)
  | aliveOut
  | cosyn
  | pcie
  | evtOut (n : Nat)
  | onfiCe (channel target : Nat)
  | onfiRe (channel : Nat)
  | onfiWp (channel : Nat)
  | calRef (arbiter : Nat)
  | resetN
  deriving DecidableEq, Repr

/-- What the module does with a land: no drive, the weak pull-up alone, an idle transmitter or bus, one
at work, a level, or a DAC code. -/
inductive Drive where
  | highZ | pullUp | idle | active | low | high
  | code (n : Int)
  deriving DecidableEq, Repr

/-- A level. -/
def Drive.level (b : Bool) : Drive := if b then .high else .low

/-- An open-drain land driven low, or left to its pull-up. -/
def Drive.open_ (low : Bool) : Drive := if low then .low else .pullUp

/-- A program or erase of an ONFI target is in progress, or was when an L2 reset met it (R142, R508). -/
def Sto.writing (t : Sto) (n : Nat) : Bool :=
  t.cutOps.contains n || t.ops.any (fun o => o.target == n && o.running && o.kind != .read)

/-- An ONFI target is selected. -/
def Sto.selected (t : Sto) (n : Nat) : Bool :=
  t.cutOps.contains n || t.ops.any (fun o => o.target == n && o.running)

/-- The level of ALIVE_OUT: under a pair strap a square wave of 500 kHz while the control plane runs, else
static (R141, R604). -/
def State.aliveLevel (s : State) : Bool :=
  s.rst.ctrlUp && s.pairStrap && decide (s.clk / 200 % 2 = 1)

/-- The lands while the control plane is in reset (column "L0, L1 and stretch"). -/
def Land.inReset (l : Land) : Drive :=
  match l with
  | .fOut _ | .calRef _ => .highZ
  | .aliveOut | .cosyn | .pcie => .idle
  | .onfiWp _ | .resetN => .low
  | .stgEn _ | .rng _ _ | .site _ _ | .siteStb _ | .auxsel _ _ | .seat _ | .i2c _ | .gflt _ | .evtOut _
  | .onfiCe _ _ | .onfiRe _ => .pullUp

/-- The lands while the control plane runs: before the first Cast, under it, through L2 and L3, and in a
group context reset. SITE_STBn is low from 100 ns to 300 ns after a site change (Table 7.3). -/
def State.landDriven (s : State) (l : Land) : Drive :=
  match l with
  | .fOut p => if (s.spAt p).force.driven then .code (s.spAt p).force.outCode else .highZ
  | .stgEn p => .open_ (s.spAt p).force.en
  | .rng p k => .open_ ((s.spAt p).force.lines.contains k)
  | .site p b => .level ((s.spAt p).force.site.testBit b)
  | .siteStb p => .level (!((s.spAt p).force.siteClk.any (fun c => c + 20 ≤ s.clk && s.clk < c + 60)))
  | .auxsel g b => .level ((s.grpAt g).auxsel.testBit b)
  | .seat g => .level (!s.seatLow g)
  | .i2c g => if (s.grpAt g).i2c.isEmpty || (s.grpAt g).ctxReset then .idle else .active
  | .gflt g => .open_ (s.gflt g)
  | .aliveOut => if s.pairStrap then .level s.aliveLevel else .idle
  | .cosyn => if s.pairStrap then .active else .idle
  | .pcie => if s.spiOnly then .idle else .active
  | .evtOut n => .level (tget EvtOut.init s.fab.evtOut n).level
  | .onfiCe c t => if s.noMire then .pullUp else .level (!s.sto.selected (8 * c + t))
  | .onfiRe _ => if s.noMire then .pullUp else .high
  | .onfiWp c => .level ((List.range 8).any (fun t => s.sto.writing (8 * c + t)))
  | .calRef b => if s.cal.arbRun.getLsbD b || s.cal.slotRun.getLsbD b || s.cal.ext.isSome then .active else .highZ
  | .resetN => .level s.rst.resetN

/-- The drive of a land (R140). A module without V_AUX drives none; the model has no level of V_AUX beyond
the monitor's, whose reset takes the column of L0 (log entry 127). -/
def State.land (s : State) (l : Land) : Drive := if s.rst.ctrlUp then s.landDriven l else l.inReset

end Sys2Proof.Machine
end

