-- ==== Sys2Proof/WellFormed.lean ====
section
/-! DEFINITION. Well-formed commands: each operand fits the field that carries it (R566 and the argument
layouts of chapter 22), and an event names an object the module numbers (R1, R2). A request's value that
fits its field and lies outside the command's range is well formed: the command rejects it (R555). -/

namespace Sys2Proof

/-- The header's mailbox and output length, each with its bound. -/
def Req.checks (r : Req) : List (Nat × Nat) := [(r.mbx, 256), (r.outLen, 4294967296)]

/-- Each bounded operand of a command with the bound it must lie below. -/
def Instr.checks (i : Instr) : List (Nat × Nat) :=
  match i with
  | .sesInfo r => r.checks
  | .sesCancel r _ => r.checks
  | .hdrOpen r ring log2 vector modN modUs _ _ => r.checks ++ [(ring, 256), (log2, 256), (vector, 65536), (modN, 65536), (modUs, 65536)]
  | .hdrClose r ring => r.checks ++ [(ring, 256)]
  | .hdrBind r ring _ => r.checks ++ [(ring, 256)]
  | .hdrUnbind r _ => r.checks
  | .hdrStatusRead r first count => r.checks ++ [(first, 256), (count, 256)]
  | .figDefine r fig op source _ => r.checks ++ [(fig, 4096), (op, 256), (source, 4096)]
  | .figListRead r => r.checks
  | .figPlaceRead r first count => r.checks ++ [(first, 65536), (count, 65536)]
  | .placePreview r first count => r.checks ++ [(first, 65536), (count, 65536)]
  | .stgDescWrite r port _ => r.checks ++ [(port, 256)]
  | .stgDescRead r port mode => r.checks ++ [(port, 256), (mode, 256)]
  | .stgEepromWrite r port offset _ => r.checks ++ [(port, 256), (offset, 65536)]
  | .stgPlaceRead r first count => r.checks ++ [(first, 256), (count, 256)]
  | .swpTableWrite r first _ => r.checks ++ [(first, 65536)]
  | .swpTableRead r first count => r.checks ++ [(first, 65536), (count, 256)]
  | .swpGenWrite r fig _ => r.checks ++ [(fig, 4096)]
  | .swpStart r fig => r.checks ++ [(fig, 4096)]
  | .swpStop r fig mode => r.checks ++ [(fig, 4096), (mode, 256)]
  | .swpStatusRead r first count => r.checks ++ [(first, 65536), (count, 65536)]
  | .setUnveil r _ _ => r.checks
  | .setValidate r _ => r.checks
  | .setRevert r => r.checks
  | .setStatusRead r => r.checks
  | .paramWrite r _ => r.checks
  | .paramRead r _ => r.checks
  | .paramDirRead r first count => r.checks ++ [(first, 65536), (count, 256)]
  | .quePop r qid words => r.checks ++ [(qid, 262144), (words, 256)]
  | .queDropRest r qid => r.checks ++ [(qid, 262144)]
  | .queFlush r scope obj => r.checks ++ [(scope, 256), (obj, 262144)]
  | .queCredit r qid grant => r.checks ++ [(qid, 262144), (grant, 4294967296)]
  | .quePush r qid _ => r.checks ++ [(qid, 262144)]
  | .queStatusRead r first count => r.checks ++ [(first, 262144), (count, 256)]
  | .mireRead r qid _ count ring => r.checks ++ [(qid, 262144), (count, 4294967296), (ring, 256)]
  | .mireRelease r mode qid _ _ => r.checks ++ [(mode, 256), (qid, 262144)]
  | .mireQuery r qid _ => r.checks ++ [(qid, 262144)]
  | .mireFormat r key => r.checks ++ [(key, 256)]
  | .mireStatusRead r => r.checks
  | .mireTargetRetire r channel target => r.checks ++ [(channel, 256), (target, 256)]
  | .twinStatusRead r => r.checks
  | .twinDetach r mode key => r.checks ++ [(mode, 256), (key, 256)]
  | .twinAttach r => r.checks
  | .acqAuxWrite r grp first _ => r.checks ++ [(grp, 256), (first, 256)]
  | .acqAuxRead r grp => r.checks ++ [(grp, 256)]
  | .acqMeasNow r port kind auxsel span settle avg => r.checks ++ [(port, 256), (kind, 256), (auxsel, 256), (span, 256), (settle, 65536), (avg, 256)]
  | .acqShareCheck r grp slice => r.checks ++ [(grp, 256), (slice, 256)]
  | .acqPathTest r grp slice => r.checks ++ [(grp, 256), (slice, 256)]
  | .acqRawCapture r grp fig mask count _ => r.checks ++ [(grp, 256), (fig, 4096), (mask, 262144), (count, 4294967296)]
  | .measAperture r fig code _ => r.checks ++ [(fig, 4096), (code, 65536)]
  | .measSnapshot r _ => r.checks
  | .measTotalClear r fig => r.checks ++ [(fig, 4096)]
  | .loopCoefWrite r fig _ => r.checks ++ [(fig, 4096)]
  | .loopCoefRead r fig mask => r.checks ++ [(fig, 4096), (mask, 16)]
  | .loopFfWrite r port half _ => r.checks ++ [(port, 256), (half, 256)]
  | .loopFfRead r port half => r.checks ++ [(port, 256), (half, 256)]
  | .loopSchedRead r => r.checks
  | .tuneStart r fig member point wave prbsL dec _ ftw n _ => r.checks ++ [(fig, 4096), (member, 256), (point, 256), (wave, 256), (prbsL, 256), (dec, 256), (ftw, 16777216), (n, 4294967296)]
  | .tuneStop r grp => r.checks ++ [(grp, 256)]
  | .supMonClear r port mask => r.checks ++ [(port, 256), (mask, 16)]
  | .supTripClear r port => r.checks ++ [(port, 256)]
  | .supTripForce r port => r.checks ++ [(port, 256)]
  | .supLeadCheck r port => r.checks ++ [(port, 256)]
  | .supHoldRelease r port => r.checks ++ [(port, 256)]
  | .supStatusRead r first count => r.checks ++ [(first, 256), (count, 256)]
  | .calExt r _ tol rs _ => r.checks ++ [(tol, 4294967296), (rs, 4294967296)]
  | .calArbSelf r _ => r.checks
  | .calMainsSelf r => r.checks
  | .calRefWrite r _ _ _ => r.checks
  | .calSpare r => r.checks
  | .calIsrc r mode => r.checks ++ [(mode, 256)]
  | .calStatusRead r => r.checks
  | .evtRoute r _ => r.checks
  | .evtMask r sluice op _ => r.checks ++ [(sluice, 256), (op, 256)]
  | .evtRead r kind first count => r.checks ++ [(kind, 256), (first, 65536), (count, 65536)]
  | .evtPulse r _ => r.checks
  | .errRingRead r _ count _ => r.checks ++ [(count, 65536)]
  | .errFirstRead r => r.checks
  | .rstFuseProgram r _ _ key => r.checks ++ [(key, 256)]
  | .grpReset r _ => r.checks
  | .requestFetch mbx _ _ _ => [(mbx, 256)]
  | .rspHead _ mbx _ => [(mbx, 256)]
  | .setupLo _ mbx _ => [(mbx, 256)]
  | .setupHi _ mbx _ => [(mbx, 256)]
  | .setupBlockCheck mbx _ _ => [(mbx, 256)]
  | .close _ mbx => [(mbx, 256)]
  | .mailboxClosed mbx => [(mbx, 256)]
  | .ackReset _ mbx => [(mbx, 256)]
  | .mbxTailWrite _ mbx _ => [(mbx, 256)]
  | .rstReqWrite _ => []
  | .relayFaultRetry => []
  | .supMonLatchWrite _ => []
  | .firstArm => []
  | .hdrHeadWrite ring _ => [(ring, 64)]
  | .selectRegisterWrite _ offset _ => [(offset, 65536)]
  | .twoHalfLowRead _ offset => [(offset, 65536)]
  | .twoHalfHighRead _ offset => [(offset, 65536)]
  | .fabPersistClear n _ => [(n, 8)]
  | .registerWrite _ offset size _ => [(offset, 65536), (size, 9)]
  | .spiReadFrame _ words => [(words, 262144)]
  | .spiWriteFrame _ _ => []
  | .dbgResetInstruction _ => []
  | .testHold _ => []
  | .extest _ => []
  | .functionLevelReset => []
  | .pcieLinkDown => []
  | .pcieLinkUp speed width => [(speed, 5), (width, 5)]
  | .pcieConfigWrite _ _ _ => []
  | .irqHoldoffExpiry _ n => [(n, 256)]
  | .supply _ => []
  | .supplyMarginSample _ => []
  | .vretLoss => []
  | .rstIn _ => []
  | .perst _ => []
  | .wdog => []
  | .clk => []
  | .clkRelease => []
  | .fatal => []
  | .resetPulseEnd source => [(source, 8)]
  | .controlPlaneResetEntry => []
  | .dataPlaneStop => []
  | .stretchStart => []
  | .stretchEnd _ => []
  | .pllLock => []
  | .stagingReady _ => []
  | .mgmtBootDone => []
  | .descReadsEnd grp _ => [(grp, 16)]
  | .mireMapRebuilt _ => []
  | .groupContextResetStart grp => [(grp, 16)]
  | .groupContextResetEnd grp => [(grp, 16)]
  | .isoFrameSend => []
  | .isoFrameReceive _ => []
  | .isoChannelFail _ => []
  | .isoChannelRestore _ => []
  | .mainsCrossing _ _ _ => []
  | .mainsLost => []
  | .slewEnd => []
  | .mtPhaseEvent n => [(n, 4)]
  | .mtWrap => []
  | .mtCapture => []
  | .vccPStart => []
  | .vccPLow => []
  | .auxSecondaryRegulation => []
  | .relayClose => []
  | .relayCheck _ => []
  | .bulkOkChange _ => []
  | .pfcOvercurrent => []
  | .bulkOvervoltage _ => []
  | .bulkUndervoltage => []
  | .lineLoss => []
  | .primaryOverTemperature _ => []
  | .priWarn => []
  | .flybackStop => []
  | .holdupEstimate _ _ _ _ _ => []
  | .rideTimeout => []
  | .commit => []
  | .commitEnd => []
  | .holdupRestore => []
  | .dcFail => []
  | .dieTempRead _ _ _ => []
  | .mainsCycleBoundary grp _ => [(grp, 16)]
  | .loopPeriodBoundary grp _ => [(grp, 16)]
  | .overrunTrip port => [(port, 128)]
  | .shortCircuitTrip port => [(port, 128)]
  | .frozenFault port => [(port, 128)]
  | .liveWriteApply => []
  | .rangeSwitchBoundary port => [(port, 128)]
  | .rangeWindowClose port => [(port, 128)]
  | .stgEnAssert port => [(port, 128)]
  | .loopsClose port => [(port, 128)]
  | .rampDownEnd port => [(port, 128)]
  | .parkEnd port => [(port, 128)]
  | .rngLineRelease port => [(port, 128)]
  | .unsettled port => [(port, 128)]
  | .monitorSample port _ _ => [(port, 128)]
  | .monitorQualify port m => [(port, 128), (m, 4)]
  | .stageFault port => [(port, 128)]
  | .stgFltRelease port => [(port, 128)]
  | .extTrip port => [(port, 128)]
  | .leadCheckStart port => [(port, 128)]
  | .leadCheckEnd port _ _ _ => [(port, 128)]
  | .tripRecordMove grp => [(grp, 16)]
  | .groupTrigger grp _ => [(grp, 16)]
  | .triggerMiss p => [(p.grp, 16)]
  | .auxPassStart grp => [(grp, 16)]
  | .auxEntryEnd grp _ => [(grp, 16)]
  | .urgentConversionEnd grp _ => [(grp, 16)]
  | .shareCheckEnd grp _ _ _ => [(grp, 16)]
  | .pathTestEnd grp _ => [(grp, 16)]
  | .apertureOpen fig => [(fig, 4096)]
  | .apertureClose fig => [(fig, 4096)]
  | .i2cTransferEnd grp _ _ => [(grp, 16)]
  | .packetCommit qid _ _ _ => [(qid, 262144)]
  | .flushPoint qid => [(qid, 262144)]
  | .hdrPacketWrite ring qid => [(ring, 64), (qid, 262144)]
  | .flushReadIssue ring => [(ring, 64)]
  | .flushReadDone ring _ => [(ring, 64)]
  | .pageBufferClose _ => []
  | .nandOpStart channel => [(channel, 4)]
  | .programStatus target _ => [(target, 32)]
  | .eraseStatus target _ => [(target, 32)]
  | .nandReadDone target _ _ _ => [(target, 32)]
  | .targetTimeout target => [(target, 32)]
  | .channelResetEnd target _ => [(target, 32)]
  | .drainFault drain => [(drain, 16)]
  | .rateMeasure _ _ => []
  | .mapCheckpoint => []
  | .unveilTransfer => []
  | .unveilSwap => []
  | .maquetteCopyEnd => []
  | .migration port => [(port, 128)]
  | .internalUnveil => []
  | .validationEnd => []
  | .revertCopyEnd => []
  | .fuseProgramEnd => []
  | .listStart fig => [(fig, 4096)]
  | .pointFire fig => [(fig, 4096)]
  | .siteWaitEnd fig => [(fig, 4096)]
  | .settling fig => [(fig, 4096)]
  | .dwellEnd fig => [(fig, 4096)]
  | .rangeWaitTimeout fig => [(fig, 4096)]
  | .pulseLeadingEdge fig => [(fig, 4096)]
  | .pulseTrailingEdge fig => [(fig, 4096)]
  | .listEnd fig => [(fig, 4096)]
  | .pointReport fig => [(fig, 4096)]
  | .arbiterSelfCalDue => []
  | .arbiterSelfCalEnd arb _ => [(arb, 4)]
  | .mainsConverterExchange _ => []
  | .mainsConverterSelfCalEnd _ => []
  | .spareSlotDue => []
  | .spareSlotStart bus => [(bus, 4)]
  | .spareSlotEnd bus _ => [(bus, 4)]
  | .patinaPassStart grp => [(grp, 16)]
  | .carryHandover grp => [(grp, 16)]
  | .patinaSetsComputed grp _ => [(grp, 16)]
  | .calStartup => []
  | .calExtEnd _ => []
  | .isrcLimit => []
  | .evtInEdge n _ => [(n, 8)]
  | .persist sluice => [(sluice, 256)]
  | .evtOutPulseEnd n => [(n, 8)]
  | .heartbeatSend => []
  | .stateSend grp => [(grp, 16)]
  | .heartbeat _ => []
  | .state grp _ => [(grp, 16)]
  | .runner _ _ => []
  | .commitFrame _ _ => []
  | .tripFrame _ _ => []
  | .maq _ _ => []
  | .sync _ _ _ _ _ => []
  | .unveilFrame _ _ _ _ _ _ _ => []
  | .handover _ _ => []
  | .controlFrame _ _ => []
  | .ack _ => []
  | .retransmitTimeout _ => []
  | .trainAttemptStart => []
  | .trainStateDone _ _ => []
  | .config _ => []
  | .trainTimeout => []
  | .latencyMeasure _ => []
  | .heartbeatSlotClose => []
  | .aliveInChange _ => []
  | .takeoverB1 grp _ => [(grp, 16)]
  | .takeoverB2 grp => [(grp, 16)]
  | .handoverBoundary => []
  | .cosynFrameDiscard => []
  | .cosynSignalLoss => []

/-- A well-formed command. -/
def Instr.wf (i : Instr) : Bool := i.checks.all (fun c => c.1 < c.2)

end Sys2Proof
end

