-- ==== Sys2Proof/Tests/Slice0.lean ====
section
/-! SUPPORT. Tests: the hypotheses of every statement met on a small state, what the checks of
WellFormed refuse, and cases worked by hand from the spec. -/

set_option Elab.async false

namespace Sys2Proof.Tests

open Sys2Proof Sys2Proof.Machine

/-- The state a step answers. -/
def nx (o : Host.Outcome State Fault Refusal) : State :=
  match o with
  | .next s => s
  | _ => State.reset

/-- A module whose planes run and whose host drives a mailbox through the PCIe link. -/
def live : State :=
  { State.reset with
    rst := { State.reset.rst with
      asserted := 0, level := 4, phase := .running, booted := true, pll := true, ctrlUp := true, dataUp := true
      mgmtUp := true, spiUp := true, staging := true, mireUp := true }
    mt := { State.reset.mt with state := .locked }
    pfe := { State.reset.pfe with bulkOk := true, everValid := true }
    host := { State.reset.host with
      speed := 4, width := 4, busMaster := true, msixEn := true
      mbx := [(0, { Mbx.init with state := .opened, owned := true, reqLog2 := 6, rspLog2 := 6 })] } }

/-- A request of the mailbox. -/
def req : Req := ⟨0, 0x1234, false, false, 65536, 0x10000⟩

/-- A valid stage descriptor (Table 7.4): one range, no sites, SAFE_CODE 0, finite scales, the lines
in order, and its CRC. -/
def descImage : BitVec 2048 :=
  let f (off v : Nat) : Nat := v * 256 ^ off
  let body := f 0 0x31475453 + f 4 1 + f 0x28 1 + f 0x3C 1 + f 0x3D 1 + f 0x44 0x3F800000 +
    f 0x4C 0x3F800000 + f 0x50 0x3F800000 + f 0x9A 1 + f 0xAC 0x543210
  BitVec.ofNat 2048 (body + f 0xFC 0xB2D0F02E)

/-- The CRC register after some bytes. -/
def crcFold (c : BitVec 32) (l : List Byte) : BitVec 32 :=
  l.foldl (fun c b => crc32Steps 8 (c ^^^ b.setWidth 32)) c

/-- The bytes the CRC of the descriptor covers. -/
def descBytes : List Byte := leBytes 252 descImage.toNat

/-- Some of those bytes. -/
def descPart (n : Nat) : List Byte := (descBytes.drop (36 * n)).take 36

theorem descPart_crc_0 : crcFold 0xFFFFFFFF (descPart 0) = 0x1fa4973e := by decide +kernel

theorem descPart_crc_1 : crcFold 0x1fa4973e (descPart 1) = 0x2363081a := by decide +kernel

theorem descPart_crc_2 : crcFold 0x2363081a (descPart 2) = 0x4c40b4d5 := by decide +kernel

theorem descPart_crc_3 : crcFold 0x4c40b4d5 (descPart 3) = 0xa2a5717f := by decide +kernel

theorem descPart_crc_4 : crcFold 0xa2a5717f (descPart 4) = 0x59c1dda9 := by decide +kernel

theorem descPart_crc_5 : crcFold 0x59c1dda9 (descPart 5) = 0xb907de45 := by decide +kernel

theorem descPart_crc_6 : crcFold 0xb907de45 (descPart 6) = 0x4d2f0fd1 := by decide +kernel

theorem descBytes_parts : descBytes = descPart 0 ++ (descPart 1 ++ (descPart 2 ++ (descPart 3 ++
    (descPart 4 ++ (descPart 5 ++ descPart 6))))) := by
  have h (n : Nat) : descBytes.drop (36 * n) = descPart n ++ descBytes.drop (36 * (n + 1)) := by
    rw [Nat.mul_succ, ← List.drop_drop]
    exact (List.take_append_drop 36 _).symm
  have h7 : descBytes.drop (36 * 7) = [] :=
    List.drop_eq_nil_of_le (by simp [descBytes, leBytes_length])
  have h0 : descBytes = descBytes.drop (36 * 0) := rfl
  rw [h0, h 0, h 1, h 2, h 3, h 4, h 5, h 6, h7, List.append_nil]

theorem descImage_crc : crc32 (leBytes 252 descImage.toNat) = 0xB2D0F02E := by
  have h1 : crc32 descBytes = ~~~ crcFold 0xFFFFFFFF descBytes := rfl
  have h2 : ∀ c l m, crcFold c (l ++ m) = crcFold (crcFold c l) m := fun c l m => List.foldl_append
  show crc32 descBytes = _
  rw [h1, descBytes_parts]
  simp only [h2, descPart_crc_0, descPart_crc_1, descPart_crc_2, descPart_crc_3, descPart_crc_4,
    descPart_crc_5, descPart_crc_6]
  decide +kernel

theorem descImage_valid : descFault descImage = none := by
  unfold descFault descTests
  rw [descImage_crc]
  decide +kernel

/-- A figure that runs on the first stage port. -/
def placed : State :=
  { live with
    sets := { live.sets with cast := { live.sets.cast with
      figs := [5]
      place := [(5, { Placement.init with state := .placed, members := [0] })]
      descs := [(0, ⟨descImage, .written⟩)] } }
    sp := [(0, { Sp.init with force :=
      { Force.init with out := .regulating, en := true, driven := true } })]
    fig := [(5, { Fig.init with enabled := true })] }

/-- A group all of whose slices have factors in force. -/
def readyCal : CalGrp :=
  { CalGrp.init with inForce := (List.range 18).map (fun i => (8 * i, ⟨0, 2 ^ 30, [], 0, 0, 0⟩)) }

/-- A figure that must leave the first stage port, with a second stage of the same kind free. -/
def migrating : State :=
  { placed with
    sets := { placed.sets with cast := { placed.sets.cast with
      params := [(pkey 0x400 5, 1), (pkey 0x40A 5, 1), (pkey 0x460 0, 1), (pkey 0x460 128, 1)]
      descs := [(0, ⟨descImage, .written⟩), (8, ⟨descImage, .written⟩)] } }
    sp := [(0, { Sp.init with sup := { Sp.init.sup with tripped := true, cause := 1 } })]
    grp := [(0, { Grp.init with descDone := true }), (1, { Grp.init with descDone := true })]
    cal := { placed.cal with grp := [(0, readyCal), (1, readyCal)] }
    fig := [(5, { Fig.init with migrating := some (0, 1) })] }

/-- A Maquette that fails a check: a figure pinned on a port it may not use. -/
def badMaq : State :=
  { live with
    host := { live.host with outst := [⟨0, false, 0x0501, 9, 0, 0, 0, 0, 0, 1⟩] }
    sets := { live.sets with frozen := true, maq := { live.sets.maq with
      figs := [5], params := [(pkey 0x400 5, 1), (pkey 0x43A 5, 4)] } } }

/-- The first member of what a validation gives. -/
def imageOf (s : State) : CfgSet :=
  match s.validate s.sets.maq with
  | .ok x => x.1
  | .error _ => s.sets.maq

/-- The plan of what a validation gives. -/
def planOf (s : State) : Plan :=
  match s.validate s.sets.maq with
  | .ok x => x.2
  | .error _ => s.plan s.sets.maq

/-- A validation passes. -/
def passes (s : State) : Bool :=
  match s.validate s.sets.maq with
  | .ok _ => true
  | .error _ => false

theorem validate_of_passes (s : State) (h : passes s = true) :
    s.validate s.sets.maq = .ok (imageOf s, planOf s) := by
  unfold passes at h
  unfold imageOf planOf
  split at h
  · simp_all
  · cases h

/-- Why a validation fails. -/
def failure (s : State) : Option Failure :=
  match s.validate s.sets.maq with
  | .ok _ => none
  | .error e => some e

theorem validate_of_failure (s : State) (e : Failure) (h : failure s = some e) :
    s.validate s.sets.maq = .error e := by
  unfold failure at h
  split at h <;> simp_all

/-! ## What the checks of WellFormed refuse: one term for each bounded operand -/

theorem test_wf_refuses_1 : ([
    .hdrOpen req 256 0 0 0 0 false 0,
    .hdrOpen req 0 256 0 0 0 false 0,
    .hdrOpen req 0 0 65536 0 0 false 0,
    .hdrOpen req 0 0 0 65536 0 false 0,
    .hdrOpen req 0 0 0 0 65536 false 0,
    .hdrClose req 256,
    .hdrBind req 256 [],
    .hdrStatusRead req 256 0,
    .hdrStatusRead req 0 256,
    .figDefine req 4096 0 0 [],
    .figDefine req 0 256 0 [],
    .figDefine req 0 0 4096 [],
    .figPlaceRead req 65536 0,
    .figPlaceRead req 0 65536,
    .placePreview req 65536 0,
    .placePreview req 0 65536,
    .stgDescWrite req 256 0,
    .stgDescRead req 256 0,
    .stgDescRead req 0 256,
    .stgEepromWrite req 256 0 [],
    .stgEepromWrite req 0 65536 [],
    .stgPlaceRead req 256 0,
    .stgPlaceRead req 0 256,
    .swpTableWrite req 65536 [],
    .swpTableRead req 65536 0,
    .swpTableRead req 0 256,
    .swpGenWrite req 4096 0,
    .swpStart req 4096,
    .swpStop req 4096 0,
    .swpStop req 0 256,
    .swpStatusRead req 65536 0,
    .swpStatusRead req 0 65536,
    .paramDirRead req 65536 0,
    .paramDirRead req 0 256
    ] : List Instr).all (fun i => !i.wf) = true := by decide +kernel

theorem test_wf_refuses_2 : ([
    .quePop req 262144 0,
    .quePop req 0 256,
    .queDropRest req 262144,
    .queFlush req 256 0,
    .queFlush req 0 262144,
    .queCredit req 262144 0,
    .queCredit req 0 4294967296,
    .quePush req 262144 [],
    .queStatusRead req 262144 0,
    .queStatusRead req 0 256,
    .mireRead req 262144 0 0 0,
    .mireRead req 0 0 4294967296 0,
    .mireRead req 0 0 0 256,
    .mireRelease req 256 0 0 0,
    .mireRelease req 0 262144 0 0,
    .mireQuery req 262144 0,
    .mireFormat req 256,
    .mireTargetRetire req 256 0,
    .mireTargetRetire req 0 256,
    .twinDetach req 256 0,
    .twinDetach req 0 256,
    .acqAuxWrite req 256 0 [],
    .acqAuxWrite req 0 256 [],
    .acqAuxRead req 256,
    .acqMeasNow req 256 0 0 0 0 0,
    .acqMeasNow req 0 256 0 0 0 0,
    .acqMeasNow req 0 0 256 0 0 0,
    .acqMeasNow req 0 0 0 256 0 0,
    .acqMeasNow req 0 0 0 0 65536 0,
    .acqMeasNow req 0 0 0 0 0 256,
    .acqShareCheck req 256 0,
    .acqShareCheck req 0 256,
    .acqPathTest req 256 0,
    .acqPathTest req 0 256
    ] : List Instr).all (fun i => !i.wf) = true := by decide +kernel

theorem test_wf_refuses_3 : ([
    .acqRawCapture req 256 0 0 0 0,
    .acqRawCapture req 0 4096 0 0 0,
    .acqRawCapture req 0 0 262144 0 0,
    .acqRawCapture req 0 0 0 4294967296 0,
    .measAperture req 4096 0 0,
    .measAperture req 0 65536 0,
    .measTotalClear req 4096,
    .loopCoefWrite req 4096 0,
    .loopCoefRead req 4096 0,
    .loopCoefRead req 0 16,
    .loopFfWrite req 256 0 [],
    .loopFfWrite req 0 256 [],
    .loopFfRead req 256 0,
    .loopFfRead req 0 256,
    .tuneStart req 4096 0 0 0 0 0 0 0 0 0,
    .tuneStart req 0 256 0 0 0 0 0 0 0 0,
    .tuneStart req 0 0 256 0 0 0 0 0 0 0,
    .tuneStart req 0 0 0 256 0 0 0 0 0 0,
    .tuneStart req 0 0 0 0 256 0 0 0 0 0,
    .tuneStart req 0 0 0 0 0 256 0 0 0 0,
    .tuneStart req 0 0 0 0 0 0 0 16777216 0 0,
    .tuneStart req 0 0 0 0 0 0 0 0 4294967296 0,
    .tuneStop req 256,
    .supMonClear req 256 0,
    .supMonClear req 0 16,
    .supTripClear req 256,
    .supTripForce req 256,
    .supLeadCheck req 256,
    .supHoldRelease req 256,
    .supStatusRead req 256 0,
    .supStatusRead req 0 256,
    .calExt req 0 4294967296 0 0,
    .calExt req 0 0 4294967296 0,
    .calIsrc req 256
    ] : List Instr).all (fun i => !i.wf) = true := by decide +kernel

theorem test_wf_refuses_4 : ([
    .evtMask req 256 0 [],
    .evtMask req 0 256 [],
    .evtRead req 256 0 0,
    .evtRead req 0 65536 0,
    .evtRead req 0 0 65536,
    .errRingRead req 0 65536 false,
    .rstFuseProgram req 0 false 256,
    .requestFetch 256 .ok 0 .ok,
    .rspHead .pcie 256 0,
    .setupLo .pcie 256 0,
    .setupHi .pcie 256 0,
    .setupBlockCheck 256 .ok 0,
    .close .pcie 256,
    .mailboxClosed 256,
    .ackReset .pcie 256,
    .mbxTailWrite .pcie 256 0,
    .hdrHeadWrite 64 0,
    .selectRegisterWrite .pcie 65536 0,
    .twoHalfLowRead .pcie 65536,
    .twoHalfHighRead .pcie 65536,
    .fabPersistClear 8 0,
    .registerWrite .pcie 65536 0 0,
    .registerWrite .pcie 0 9 0,
    .spiReadFrame 0 262144,
    .pcieLinkUp 5 0,
    .pcieLinkUp 0 5,
    .irqHoldoffExpiry false 256,
    .resetPulseEnd 8,
    .descReadsEnd 16 [],
    .groupContextResetStart 16,
    .groupContextResetEnd 16,
    .mtPhaseEvent 4,
    .mainsCycleBoundary 16 0,
    .loopPeriodBoundary 16 ⟨[], [], [], [], []⟩
    ] : List Instr).all (fun i => !i.wf) = true := by decide +kernel

theorem test_wf_refuses_5 : ([
    .overrunTrip 128,
    .shortCircuitTrip 128,
    .frozenFault 128,
    .rangeSwitchBoundary 128,
    .rangeWindowClose 128,
    .stgEnAssert 128,
    .loopsClose 128,
    .rampDownEnd 128,
    .parkEnd 128,
    .rngLineRelease 128,
    .unsettled 128,
    .monitorSample 128 0 0,
    .monitorQualify 128 0,
    .monitorQualify 0 4,
    .stageFault 128,
    .stgFltRelease 128,
    .extTrip 128,
    .leadCheckStart 128,
    .leadCheckEnd 128 ⟨[], []⟩ ⟨[], []⟩ false,
    .tripRecordMove 16,
    .groupTrigger 16 [],
    .triggerMiss ⟨16, []⟩,
    .auxPassStart 16,
    .auxEntryEnd 16 [],
    .urgentConversionEnd 16 [],
    .shareCheckEnd 16 [] [] [],
    .pathTestEnd 16 [],
    .apertureOpen 4096,
    .apertureClose 4096,
    .i2cTransferEnd 16 false none,
    .packetCommit 262144 0 false [],
    .flushPoint 262144,
    .hdrPacketWrite 64 0,
    .hdrPacketWrite 0 262144
    ] : List Instr).all (fun i => !i.wf) = true := by decide +kernel

theorem test_wf_refuses_6 : ([
    .flushReadIssue 64,
    .flushReadDone 64 .ok,
    .nandOpStart 4,
    .programStatus 32 false,
    .eraseStatus 32 false,
    .nandReadDone 32 0 false [],
    .targetTimeout 32,
    .channelResetEnd 32 false,
    .drainFault 16,
    .migration 128,
    .listStart 4096,
    .pointFire 4096,
    .siteWaitEnd 4096,
    .settling 4096,
    .dwellEnd 4096,
    .rangeWaitTimeout 4096,
    .pulseLeadingEdge 4096,
    .pulseTrailingEdge 4096,
    .listEnd 4096,
    .pointReport 4096,
    .arbiterSelfCalEnd 4 ⟨0, 0, 0, [], 0⟩,
    .spareSlotStart 4,
    .spareSlotEnd 4 [],
    .patinaPassStart 16,
    .carryHandover 16,
    .patinaSetsComputed 16 [],
    .evtInEdge 8 false,
    .persist 256,
    .evtOutPulseEnd 8,
    .stateSend 16,
    .state 16 [],
    .takeoverB1 16 [],
    .takeoverB2 16,
    .sesInfo { req with mbx := 256 }
    ] : List Instr).all (fun i => !i.wf) = true := by decide +kernel

theorem test_wf_refuses_7 : ([
    .sesInfo { req with outLen := 4294967296 }
    ] : List Instr).all (fun i => !i.wf) = true := by decide +kernel

theorem test_wf_accepts : ([
    .sesInfo req,
    .hdrClose req 255,
    .queFlush req 255 262143,
    .acqRawCapture req 255 4095 262143 4294967295 0,
    .hdrHeadWrite 63 0,
    .monitorQualify 127 3,
    .programStatus 31 0,
    .pcieLinkUp 4 4 ] : List Instr).all (fun i => i.wf) = true := by decide +kernel

/-! ## Cases worked in the spec -/

/-- R95: MT 1030:0x40_0000 with GEN 7. -/
theorem test_mt_words : (mtLow 7 0x0000000406400000#64, mtHigh 7 0x0000000406400000#64) =
    (0x72032000#32, 0x70000000#32) := by decide +kernel

/-- R82: 1024:0x80_0000 and a dwell of 0x05C0_0000. -/
theorem test_mt_delta : (0x0000000400800000#64 + 0x05C00000#64) = 0x0000000406400000#64 := by decide

/-- R11: record 3 is later than record 0xFFFF_FFFE. -/
theorem test_serial_order : (seqLt 0xFFFFFFFE#32 3#32, seqLt 3#32 0xFFFFFFFE#32) = (true, false) := by
  decide

/-- R75: INC is 4.194304 at 50 Hz. -/
theorem test_mt_inc : ({ live with mt := { live.mt with freq := 0x32000000 } } : State).mtInc =
    4194304 * 2 ^ 32 / 10 ^ 6 := by decide +kernel

/-- R127: 0xA500_0002 causes L2 by the default table and L3 with CMD programmed to L3. -/
theorem test_rst_req : ((nx (exec (.rstReqWrite 0xA5000002#32) live)).rst.level,
    (nx (exec (.rstReqWrite 0xA5000002#32)
      { live with rst := { live.rst with fuse := 0x7000 } })).rst.level) = (2, 3) := by decide +kernel

/-- R136: 8.66 kΩ gives x = 0.464, which decodes as code 7 and not as marginal. -/
theorem test_strap_code : (strapCode 464000, strapMarginal 464000, strapMarginal 433000) =
    (7, false, true) := by decide +kernel

/-- Table 6.10: strap code 4, ready in every respect but mains lock. -/
def readyModule : State :=
  { live with
    rst := { live.rst with strap := 4 }
    mt := { live.mt with state := .acquire }
    twin := { live.twin with role := .active }
    grp := (List.range 16).map (fun g => (g, { Grp.init with descDone := true }))
    cal := { live.cal with grp := (List.range 16).map (fun g => (g, readyCal)) } }

theorem test_ready_word : (readyModule.ready,
    ({ readyModule with mt := { readyModule.mt with state := .locked } } : State).ready) =
    (0xFFFF0EFE#32, 0xFFFF0FFE#32) := by decide +kernel

/-- Table 10.3: the worked correction. -/
theorem test_correction : correct
    ⟨1200, 0x4000D1B7, (List.replicate 44 0) ++ [-40, -38], 10, -50, 560⟩ 688 196608 =
    (0x1800468F, false) := by decide +kernel

/-- R218: 1.500 V on the ±4 V span, 0.4000 mV on the ±10 mV span, and an input beyond the span. -/
theorem test_codes : (codeIn (fsOf 0 1) 1500000000000, codeIn (fsOf 8 2) 400000000,
    codeIn (fsOf 0 1) 9000000000000) = (196608, 20972, 524287) := by decide +kernel

/-- Table 9.9: the DAC codes at +80 % of the voltage and current spans. -/
theorem test_probe_codes : ((List.range 4).map (fun k => probeCode 0 k 80),
    (List.range 3).map (fun k => probeCode 8 k 80)) =
    ([0x7AE, 0x28F, 0x7AE, 0x28F], [0x666, 0x666, 0x666]) := by decide +kernel

/-- Table 9.13: group 5 with its spare carrying slice 10. -/
theorem test_acq_status : ({ Acq.init with
    auxClass := 2, auxState := .running, spareRole := .carry, spareTgt := 10, trigMode := 1
    edgeSeen := true, trigPort := 2 }).gstat = 0x000A531A#32 := by decide

/-- Table 11.9: port 26 after the change of Table 11.6. -/
theorem test_force_state : ({ Force.init with
    rng := 2, lines := [2], vspan := 0, vspanAuto := true, rngAuto := true, out := .regulating }).state =
    0x003A10C3#32 := by decide

/-- R328: port 26 regulating under CV at +5.000 V. -/
theorem test_loop_state : lsWord (outCode .regulating) 1 false false false false false 0x40000 =
    0x60140000#32 := by decide

/-- R315: closing and remaining slots of mode 0, of mode 3 with a power limit, and of the master and
the slave of a gang in mode 1, each with feed-forward. -/
theorem test_loop_costs :
    let c := { live.sets.cast with params := [(pkey 0x406 5, 1000), (pkey 0x423 5, 1), (pkey 0x423 6, 1)] }
    (modeCost c 6 1 0 true, modeCost c 5 1 3 true, modeCost c 6 2 1 true, modeCost c 6 2 1 false) =
      ((5, 28), (7, 41), (5, 28), (4, 17)) := by decide +kernel

/-- Table 15.11: slice 2 of group 3 failed its last pass. -/
def calibrated : State :=
  { live with
    sets := { live.sets with cast := { live.sets.cast with params := [(pkey 0x170 0, 1)] } }
    cal := { live.cal with
      grp := (List.range 16).map (fun g => (g, { readyCal with
        rotating := true, passOk := if g = 3 then 0x3FFFB else 0x3FFFF }))
      arb := (List.range 4).map (fun a => (a, ⟨0, 0⟩)), mains := [(0, ⟨0, 0⟩), (1, ⟨0, 0⟩)], refSrc := 1 } }

theorem test_cal_registers : (calibrated.calPass 3, calibrated.calStatus) =
    (0x8003FFFB#32, 0xF024FFF7#32) := by decide +kernel

/-- Table 17.9: frozen in phase 1. -/
theorem test_set_status : ({ live.sets with
    frozen := true, phase := 1, castEmpty := false, rstStale := false }).status = 0x000000A0#32 := by
  decide +kernel

/-- Table 20.7: mailbox 5 of the service port, OPEN with REQ_HEAD 0. -/
theorem test_mbx_status : ({ live with host := { live.host with
    mbx := [(5, { Mbx.init with state := .opened, owned := true, port := .service })] } }).readReg .service
    0x1148 = 0x10800000#32 := by decide +kernel

/-- Table 23.4 and Table 23.10: the new active module after Table 23.6. -/
theorem test_takeover_code : (takeoverCode 2 false 1 2#8,
    ({ Twin.init with role := .active, seated := 0xFFFF }).status) = (0x2102#16, 0xFFFF0001#32) := by
  decide

/-- R621: LOST with cause STORAGE about stream 2 is 0x8557. -/
theorem test_queue_event_code : ((live.logQueueEvent 5 2
    { event := 5, cause := 7, first := 1, last := 2, count := 2, key := 0 }).err.ring.map
      (fun e => e.body.code)) = [0x8557#16] := by decide +kernel

theorem witness_DoorbellsMoveMailboxStates_rspHead :
    Reached live (.pcie : Port) (0 : Nat) ∧ ((live.mbxAt (0 : Nat)).state = .opened ∨ (live.mbxAt (0 : Nat)).state = .closing) := by
  decide +kernel

theorem witness_DoorbellsMoveMailboxStates_setupLo :
    Reached live (.service : Port) (255 : Nat) ∧ (live.mbxAt (255 : Nat)).state = .closed := by
  decide +kernel

theorem witness_DoorbellsMoveMailboxStates_setupHi :
    Reached live (.service : Port) (7 : Nat) ∧ (live.mbxAt (7 : Nat)).state = .closed := by
  decide +kernel

theorem witness_DoorbellsMoveMailboxStates_close :
    Reached live (.pcie : Port) (0 : Nat) ∧ (live.mbxAt (0 : Nat)).state = .opened := by
  decide +kernel

/-- The state of the witness below. -/
def state_DoorbellsMoveMailboxStates_mailboxClosed : State :=
  { live with host := { live.host with mbx := [(0, { Mbx.init with state := .closing, owned := true })] } }

theorem witness_DoorbellsMoveMailboxStates_mailboxClosed :
    (state_DoorbellsMoveMailboxStates_mailboxClosed.mbxAt (0 : Nat)).state = .closing := by
  decide +kernel

/-- The state of the witness below. -/
def state_DoorbellsMoveMailboxStates_ackReset : State :=
  { live with host := { live.host with mbx := [(0, { Mbx.init with state := .reset, owned := true })] } }

theorem witness_DoorbellsMoveMailboxStates_ackReset :
    Reached state_DoorbellsMoveMailboxStates_ackReset (.pcie : Port) (0 : Nat) ∧ (state_DoorbellsMoveMailboxStates_ackReset.mbxAt (0 : Nat)).state = .reset := by
  decide +kernel

theorem witness_DoorbellsMoveMailboxStates_mbxTailWrite :
    Reached live (.pcie : Port) (0 : Nat) ∧ ((64 : Word).setWidth 16 - (live.mbxAt (0 : Nat)).reqHead).toNat ≤ 2 ^ (live.mbxAt (0 : Nat)).reqLog2 := by
  decide +kernel

/-- The state of the witness below. -/
def state_MailboxSetupAndFaults_setupBlockCheck : State :=
  { live with host := { live.host with mbx := [(0, { Mbx.init with owned := true, setupBusy := true })] } }

theorem witness_MailboxSetupAndFaults_setupBlockCheck :
    state_MailboxSetupAndFaults_setupBlockCheck.rst.mgmtUp = true ∧ (state_MailboxSetupAndFaults_setupBlockCheck.mbxAt (0 : Nat)).setupBusy = true ∧ (state_MailboxSetupAndFaults_setupBlockCheck.mbxAt (0 : Nat)).state = .closed ∧ (state_MailboxSetupAndFaults_setupBlockCheck.mbxAt (0 : Nat)).port = .pcie ∧ state_MailboxSetupAndFaults_setupBlockCheck.reaches .pcie = true ∧ setupOk (BitVec.ofNat 512 (0x3158424D + 4 * 2 ^ 32 + 12 * 2 ^ 40 + 2 ^ 48 + 0x10000 * 2 ^ 64 + 0x20000 * 2 ^ 128 + 2 ^ 256) : BitVec 512) = true := by
  decide +kernel

/-- The state of the witness below. -/
def state_MailboxSetupAndFaults_setupBlockCheck_2 : State :=
  { live with host := { live.host with mbx := [(0, { Mbx.init with owned := true, setupBusy := true })] } }

theorem witness_MailboxSetupAndFaults_setupBlockCheck_2 :
    state_MailboxSetupAndFaults_setupBlockCheck_2.rst.mgmtUp = true ∧ (state_MailboxSetupAndFaults_setupBlockCheck_2.mbxAt (0 : Nat)).setupBusy = true ∧ (state_MailboxSetupAndFaults_setupBlockCheck_2.mbxAt (0 : Nat)).state = .closed ∧ (state_MailboxSetupAndFaults_setupBlockCheck_2.mbxAt (0 : Nat)).port = .pcie ∧ state_MailboxSetupAndFaults_setupBlockCheck_2.reaches .pcie = true ∧ setupOk (0 : BitVec 512) = false := by
  decide +kernel

theorem witness_MailboxSetupAndFaults_mbxTailWrite :
    Reached live (.pcie : Port) (0 : Nat) ∧ (live.mbxAt (0 : Nat)).state = .opened ∧ 2 ^ (live.mbxAt (0 : Nat)).reqLog2 < ((65 : Word).setWidth 16 - (live.mbxAt (0 : Nat)).reqHead).toNat := by
  decide +kernel

/-- The state of the witness below. -/
def state_FetchChecksRequests_requestFetch : State :=
  { live with host := { live.host with mbx := [(0, { Mbx.init with state := .opened, owned := true, reqLog2 := 6, rspLog2 := 6, reqTail := 1 })] } }

theorem witness_FetchChecksRequests_requestFetch :
    state_FetchChecksRequests_requestFetch.rst.mgmtUp = true ∧ (state_FetchChecksRequests_requestFetch.mbxAt (0 : Nat)).state = .opened ∧ (state_FetchChecksRequests_requestFetch.mbxAt (0 : Nat)).port = .pcie ∧ (state_FetchChecksRequests_requestFetch.mbxAt (0 : Nat)).reqHead ≠ (state_FetchChecksRequests_requestFetch.mbxAt (0 : Nat)).reqTail ∧ state_FetchChecksRequests_requestFetch.slotFree (0 : Nat) = true ∧ state_FetchChecksRequests_requestFetch.reaches .pcie = true ∧ firstChecks (0x0102#512 : BitVec 512) .pcie (.ok : HostRead) = none := by
  decide +kernel

/-- The state of the witness below. -/
def state_FetchChecksRequests_requestFetch_2 : State :=
  { live with host := { live.host with mbx := [(0, { Mbx.init with state := .opened, owned := true, reqLog2 := 6, rspLog2 := 6, reqTail := 1 })] } }

theorem witness_FetchChecksRequests_requestFetch_2 :
    state_FetchChecksRequests_requestFetch_2.rst.mgmtUp = true ∧ (state_FetchChecksRequests_requestFetch_2.mbxAt (0 : Nat)).state = .opened ∧ (state_FetchChecksRequests_requestFetch_2.mbxAt (0 : Nat)).port = .pcie ∧ (state_FetchChecksRequests_requestFetch_2.mbxAt (0 : Nat)).reqHead ≠ (state_FetchChecksRequests_requestFetch_2.mbxAt (0 : Nat)).reqTail ∧ state_FetchChecksRequests_requestFetch_2.slotFree (0 : Nat) = true ∧ state_FetchChecksRequests_requestFetch_2.reaches .pcie = true ∧ firstChecks (0x7777#512 : BitVec 512) .pcie (.ok : HostRead) = some ((1 : Nat), (0 : Nat)) ∧ (1 : Nat) ≠ stHostErr := by
  decide +kernel

theorem witness_SessionQueriesAndCancel_sesInfo :
    Accepts live req 0x0101 {} := by
  decide +kernel

theorem witness_SessionQueriesAndCancel_sesCancel :
    Accepts live req 0x0102 {} ∧ (live.outstOf req.mbx).find? (fun o => o.tag == (5 : BitVec 16)) = none := by
  decide +kernel

/-- The state of the witness below. -/
def state_SessionQueriesAndCancel_sesCancel_2 : State :=
  { live with host := { live.host with outst := [⟨0, false, 0x0502, 9, 0, 0, 0, 0, 0, 0⟩] }, sets := { live.sets with frozen := true } }

theorem witness_SessionQueriesAndCancel_sesCancel_2 :
    Accepts state_SessionQueriesAndCancel_sesCancel_2 req 0x0102 {} ∧ state_SessionQueriesAndCancel_sesCancel_2.host.outst = [(⟨0, false, 0x0502, 9, 0, 0, 0, 0, 0, 0⟩ : Outstanding)] ∧ ((⟨0, false, 0x0502, 9, 0, 0, 0, 0, 0, 0⟩ : Outstanding).mbx = req.mbx ∧ (⟨0, false, 0x0502, 9, 0, 0, 0, 0, 0, 0⟩ : Outstanding).tag = (9 : BitVec 16) ∧ (⟨0, false, 0x0502, 9, 0, 0, 0, 0, 0, 0⟩ : Outstanding).orphan = false ∧ (⟨0, false, 0x0502, 9, 0, 0, 0, 0, 0, 0⟩ : Outstanding).opcode = 0x0502) := by
  decide +kernel

theorem witness_RingsOpenBindAndClose_hdrOpen :
    Accepts live req 0x0103 {} ∧ (63 : Nat) < 64 ∧ (6 ≤ (20 : Nat) ∧ (20 : Nat) ≤ 20) ∧ ((279 : Nat) = 0xFFFF ∨ (264 ≤ (279 : Nat) ∧ (279 : Nat) ≤ 279)) ∧ (1 ≤ (256 : Nat) ∧ (256 : Nat) ≤ 256) ∧ (1000 : Nat) ≤ 1000 ∧ (bits (0x1000 : BitVec 64) 11 0 = 0 ∧ bits (0x1000 : BitVec 64) 63 62 = 0) ∧ (live.hdrAt (63 : Nat)).state = .closed ∧ (live.hdrAt (63 : Nat)).bound = [] := by
  decide +kernel

/-- The state of the witness below. -/
def state_RingsOpenBindAndClose_hdrClose : State :=
  { live with host := { live.host with hdr := [(0, { Hdr.init with state := .opened, log2 := 6, vector := 264, modN := 1, modUs := 0, base := 0x100000 })] } }

theorem witness_RingsOpenBindAndClose_hdrClose :
    Accepts state_RingsOpenBindAndClose_hdrClose req 0x0104 { long := true } ∧ (0 : Nat) < 64 ∧ (state_RingsOpenBindAndClose_hdrClose.hdrAt (0 : Nat)).state = .opened ∧ (state_RingsOpenBindAndClose_hdrClose.hdrAt (0 : Nat)).port = (state_RingsOpenBindAndClose_hdrClose.mbxAt req.mbx).port ∧ ((state_RingsOpenBindAndClose_hdrClose.hdrAt (0 : Nat)).flushBusy = false ∧ (state_RingsOpenBindAndClose_hdrClose.hdrAt (0 : Nat)).unflushed = 0) ∧ (state_RingsOpenBindAndClose_hdrClose.hdrAt (0 : Nat)).bound = [] ∧ state_RingsOpenBindAndClose_hdrClose.sto.reads = [] ∧ state_RingsOpenBindAndClose_hdrClose.host.outst = [] := by
  decide +kernel

/-- The state of the witness below. -/
def state_RingsOpenBindAndClose_hdrBind : State :=
  { live with host := { live.host with hdr := [(0, { Hdr.init with state := .opened, log2 := 6, vector := 264, modN := 1, modUs := 0, base := 0x100000 })] } }

theorem witness_RingsOpenBindAndClose_hdrBind :
    Accepts state_RingsOpenBindAndClose_hdrBind req 0x0105 {} ∧ (0 : Nat) < 64 ∧ (([128, 64] : List Nat) ≠ [] ∧ ([128, 64] : List Nat).length ≤ 64) ∧ ((∀ q ∈ ([128, 64] : List Nat), streamOk q = true)) ∧ (state_RingsOpenBindAndClose_hdrBind.hdrAt (0 : Nat)).foreign (state_RingsOpenBindAndClose_hdrBind.mbxAt req.mbx).port = false ∧ ((∀ q ∈ ([128, 64] : List Nat), state_RingsOpenBindAndClose_hdrBind.boundElsewhere (0 : Nat) q = false)) := by
  decide +kernel

/-- The state of the witness below. -/
def state_RingsOpenBindAndClose_hdrUnbind : State :=
  { live with host := { live.host with hdr := [(0, { Hdr.init with state := .opened, bound := [64] })] } }

theorem witness_RingsOpenBindAndClose_hdrUnbind :
    Accepts state_RingsOpenBindAndClose_hdrUnbind req 0x0106 {} ∧ streamOk (64 : Nat) = true ∧ state_RingsOpenBindAndClose_hdrUnbind.boundTo (64 : Nat) = some (0 : Nat) := by
  decide +kernel

theorem witness_RingsOpenBindAndClose_hdrStatusRead :
    Accepts live req 0x0107 {} ∧ (63 : Nat) < 64 ∧ ((1 : Nat) ≠ 0 ∧ (63 : Nat) + (1 : Nat) ≤ 64) := by
  decide +kernel

/-- The state of the witness below. -/
def state_RingsDrainPackets_hdrPacketWrite : State :=
  { live with host := { live.host with hdr := [(0, { Hdr.init with state := .opened, log2 := 6, vector := 264, modN := 1, bound := [64] })] }, que := { live.que with q := [(64, { Queue.init with pkts := [{ Packet.init with qid := 64, payload := [1, 2] }], credit := 100 })] } }

theorem witness_RingsDrainPackets_hdrPacketWrite :
    state_RingsDrainPackets_hdrPacketWrite.deliverable (0 : Nat) (64 : Nat) = some ({ Packet.init with qid := 64, payload := [1, 2] } : Packet) ∧ state_RingsDrainPackets_hdrPacketWrite.ringTakes (0 : Nat) ({ Packet.init with qid := 64, payload := [1, 2] } : Packet).words = true ∧ (state_RingsDrainPackets_hdrPacketWrite.hdrAt (0 : Nat)).port = .pcie := by
  decide +kernel

/-- The state of the witness below. -/
def state_RingsDrainPackets_flushReadIssue : State :=
  { live with host := { live.host with hdr := [(0, { Hdr.init with state := .opened, unflushed := 1 })] } }

theorem witness_RingsDrainPackets_flushReadIssue :
    (state_RingsDrainPackets_flushReadIssue.hdrAt (0 : Nat)).state = .opened ∧ (state_RingsDrainPackets_flushReadIssue.hdrAt (0 : Nat)).unflushed ≠ 0 ∧ (state_RingsDrainPackets_flushReadIssue.hdrAt (0 : Nat)).flushBusy = false ∧ state_RingsDrainPackets_flushReadIssue.reaches (state_RingsDrainPackets_flushReadIssue.hdrAt (0 : Nat)).port = true := by
  decide +kernel

/-- The state of the witness below. -/
def state_RingsDrainPackets_flushReadDone : State :=
  { live with host := { live.host with hdr := [(0, { Hdr.init with state := .opened, flushBusy := true, packets := [⟨64, 0, 4, 1, false⟩] })] } }

theorem witness_RingsDrainPackets_flushReadDone :
    (state_RingsDrainPackets_flushReadDone.hdrAt (0 : Nat)).state = .opened ∧ (state_RingsDrainPackets_flushReadDone.hdrAt (0 : Nat)).flushBusy = true ∧ (state_RingsDrainPackets_flushReadDone.hdrAt (0 : Nat)).unflushed = 0 := by
  decide +kernel

/-- The state of the witness below. -/
def state_RingsDrainPackets_flushReadDone_2 : State :=
  { live with host := { live.host with hdr := [(0, { Hdr.init with state := .opened, flushBusy := true })] } }

theorem witness_RingsDrainPackets_flushReadDone_2 :
    (state_RingsDrainPackets_flushReadDone_2.hdrAt (0 : Nat)).state = .opened ∧ (state_RingsDrainPackets_flushReadDone_2.hdrAt (0 : Nat)).flushBusy = true ∧ (state_RingsDrainPackets_flushReadDone_2.hdrAt (0 : Nat)).port = .pcie ∧ state_RingsDrainPackets_flushReadDone_2.sto.reads = [] := by
  decide +kernel

/-- The state of the witness below. -/
def state_RingsDrainPackets_hdrHeadWrite : State :=
  { live with host := { live.host with hdr := [(0, { Hdr.init with state := .opened, log2 := 6, vector := 264, modN := 1, modUs := 0, base := 0x100000 })] } }

theorem witness_RingsDrainPackets_hdrHeadWrite :
    (0 : Nat) < 64 ∧ (state_RingsDrainPackets_hdrHeadWrite.hdrAt (0 : Nat)).auto = false := by
  decide +kernel

/-- The state of the witness below. -/
def state_RingsDrainPackets_irqHoldoffExpiry : State :=
  { live with host := { live.host with mbx := [(0, { Mbx.init with state := .opened, irq := true, unsignalled := 2 })] } }

theorem witness_RingsDrainPackets_irqHoldoffExpiry :
    (state_RingsDrainPackets_irqHoldoffExpiry.mbxAt (0 : Nat)).irq = true ∧ (state_RingsDrainPackets_irqHoldoffExpiry.mbxAt (0 : Nat)).state = .opened ∧ (state_RingsDrainPackets_irqHoldoffExpiry.mbxAt (0 : Nat)).unsignalled ≠ 0 := by
  decide +kernel

theorem witness_LinkAndFunctionEvents_pcieLinkUp :
    (live.rst.pll = true ∧ live.rst.ctrlUp = true) ∧ live.spiOnly = false ∧ (1 ≤ (1 : Nat) ∧ (1 : Nat) ≤ 4) ∧ ((4 : Nat) = 1 ∨ (4 : Nat) = 2 ∨ (4 : Nat) = 4) := by
  decide +kernel

theorem witness_LinkAndFunctionEvents_pcieConfigWrite :
    live.host.speed ≠ 0 ∧ live.rst.booted = true := by
  decide +kernel

theorem witness_LinkAndFunctionEvents_functionLevelReset :
    live.host.speed ≠ 0 := by
  decide +kernel

theorem witness_LinkAndFunctionEvents_pcieLinkDown :
    live.host.speed ≠ 0 := by
  decide +kernel

theorem witness_LinkAndFunctionEvents_extest :
    (true : Bool) = false ∨ State.reset.rst.ctrlUp = false ∨ State.reset.rst.hold.isSome = true := by
  decide +kernel

theorem witness_ParameterCommands_paramWrite :
    Accepts live req 0x0601 {} ∧ (live.twin.role ≠ .standby ∨ ([⟨0x120, 0, 1⟩, ⟨0x188, 0, 1⟩] : List Triple).any standbyRefuses = false) ∧ (([⟨0x120, 0, 1⟩, ⟨0x188, 0, 1⟩] : List Triple) ≠ [] ∧ ([⟨0x120, 0, 1⟩, ⟨0x188, 0, 1⟩] : List Triple).length ≤ 32) ∧ (live.sets.frozen = false ∨ ([⟨0x120, 0, 1⟩, ⟨0x188, 0, 1⟩] : List Triple).all (fun x => isLive x.id) = true) ∧ (∀ x ∈ ([⟨0x120, 0, 1⟩, ⟨0x188, 0, 1⟩] : List Triple), x.index < 65536) ∧ live.triplesBad live.sets.maq ([⟨0x120, 0, 1⟩, ⟨0x188, 0, 1⟩] : List Triple) = none := by
  decide +kernel

theorem witness_ParameterCommands_paramRead :
    Accepts live req 0x0602 {} ∧ (([(0x120, 0), (0x440, 127)] : List (Nat × Nat)) ≠ [] ∧ ([(0x120, 0), (0x440, 127)] : List (Nat × Nat)).length ≤ 32) ∧ firstBad (live.readBad (live.setOf req.set)) 0 ([(0x120, 0), (0x440, 127)] : List (Nat × Nat)) = none := by
  decide +kernel

theorem witness_ParameterCommands_paramDirRead :
    Accepts live req 0x0603 {} ∧ ((64 : Nat) ≠ 0 ∧ (64 : Nat) ≤ 64) := by
  decide +kernel

theorem witness_FigureDefinitionsEditTheMaquette_figDefine :
    Accepts live req 0x0201 { standbyOk := false } ∧ live.sets.frozen = false ∧ (4095 : Nat) < 4096 ∧ (4095 : Nat) ∉ live.sets.maq.figs ∧ ([⟨0x413, 4095, 1⟩] : List Triple).length ≤ 32 ∧ firstBad (defineBad (4095 : Nat)) 0 ([⟨0x413, 4095, 1⟩] : List Triple) = none ∧ live.triplesBad (defineFig live.sets.maq (4095 : Nat)) ([⟨0x413, 4095, 1⟩] : List Triple) = none := by
  decide +kernel

/-- The state of the witness below. -/
def state_FigureDefinitionsEditTheMaquette_figDefine_2 : State :=
  { live with sets := { live.sets with maq := { live.sets.maq with figs := [5], params := [(pkey 0x413 5, 2), (pkey 0x413 6, 2)], coefs := [(20, 3), (21, 4)], gens := [(5, 7)] } } }

theorem witness_FigureDefinitionsEditTheMaquette_figDefine_2 :
    Accepts state_FigureDefinitionsEditTheMaquette_figDefine_2 req 0x0201 { standbyOk := false } ∧ state_FigureDefinitionsEditTheMaquette_figDefine_2.sets.frozen = false ∧ (0 : Nat) < 4096 ∧ (5 : Nat) ∈ state_FigureDefinitionsEditTheMaquette_figDefine_2.sets.maq.figs ∧ (5 : Nat) < 65536 ∧ ([⟨0x413, 0, 1⟩] : List Triple).length ≤ 32 ∧ firstBad (defineBad (0 : Nat)) 0 ([⟨0x413, 0, 1⟩] : List Triple) = none ∧ state_FigureDefinitionsEditTheMaquette_figDefine_2.triplesBad (copyFigure state_FigureDefinitionsEditTheMaquette_figDefine_2.sets.maq (0 : Nat) (5 : Nat)) ([⟨0x413, 0, 1⟩] : List Triple) = none := by
  decide +kernel

/-- The state of the witness below. -/
def state_FigureDefinitionsEditTheMaquette_figDefine_3 : State :=
  { live with sets := { live.sets with maq := { live.sets.maq with figs := [5], params := [(pkey 0x413 5, 2), (pkey 0x413 6, 2)], coefs := [(20, 3), (21, 4)], gens := [(5, 7)] } } }

theorem witness_FigureDefinitionsEditTheMaquette_figDefine_3 :
    Accepts state_FigureDefinitionsEditTheMaquette_figDefine_3 req 0x0201 { standbyOk := false } ∧ state_FigureDefinitionsEditTheMaquette_figDefine_3.sets.frozen = false ∧ (5 : Nat) < 4096 ∧ (5 : Nat) ∈ state_FigureDefinitionsEditTheMaquette_figDefine_3.sets.maq.figs ∧ pnat state_FigureDefinitionsEditTheMaquette_figDefine_3.sets.maq.params 0x400 (5 : Nat) ≠ 1 ∧ state_FigureDefinitionsEditTheMaquette_figDefine_3.castN 0x400 (5 : Nat) ≠ 1 := by
  decide +kernel

/-- The state of the witness below. -/
def state_FigureDefinitionsEditTheMaquette_figListRead : State :=
  { live with sets := { live.sets with maq := { live.sets.maq with figs := [5], params := [(pkey 0x413 5, 2), (pkey 0x413 6, 2)], coefs := [(20, 3), (21, 4)], gens := [(5, 7)] } } }

theorem witness_FigureDefinitionsEditTheMaquette_figListRead :
    Accepts state_FigureDefinitionsEditTheMaquette_figListRead req 0x0202 {} := by
  decide +kernel

theorem witness_SetRevertAndStatus_setRevert :
    Accepts live req 0x0503 { long := true, standbyOk := false } ∧ live.sets.frozen = false := by
  decide +kernel

/-- The state of the witness below. -/
def state_SetRevertAndStatus_revertCopyEnd : State :=
  { live with host := { live.host with outst := [⟨0, false, 0x0503, 9, 0, 0, 0, 0, 0, 0⟩] }, sets := { live.sets with frozen := true } }

theorem witness_SetRevertAndStatus_revertCopyEnd :
    state_SetRevertAndStatus_revertCopyEnd.host.outst.find? (fun x => x.opcode == 0x0503) = some (⟨0, false, 0x0503, 9, 0, 0, 0, 0, 0, 0⟩ : Outstanding) ∧ state_SetRevertAndStatus_revertCopyEnd.rst.mgmtUp = true := by
  decide +kernel

theorem witness_SetRevertAndStatus_setStatusRead :
    Accepts live req 0x0504 {} := by
  decide +kernel

theorem witness_StageDescriptorCommands_stgDescWrite :
    Accepts live req 0x0301 { standbyOk := false } ∧ live.leads = false ∧ live.sets.frozen = false ∧ live.hasPort (127 : Nat) = true ∧ descFault descImage = none ∧ live.sto.state ≠ .ready := by
  exact ⟨by decide +kernel, by decide +kernel, by decide +kernel, by decide +kernel, descImage_valid, by decide +kernel⟩

/-- The state of the witness below. -/
def state_StageDescriptorCommands_stgDescWrite_2 : State :=
  { live with sto := { live.sto with state := .ready } }

theorem witness_StageDescriptorCommands_stgDescWrite_2 :
    Accepts state_StageDescriptorCommands_stgDescWrite_2 req 0x0301 { standbyOk := false } ∧ state_StageDescriptorCommands_stgDescWrite_2.leads = false ∧ state_StageDescriptorCommands_stgDescWrite_2.sets.frozen = false ∧ state_StageDescriptorCommands_stgDescWrite_2.hasPort (0 : Nat) = true ∧ descFault descImage = none ∧ (state_StageDescriptorCommands_stgDescWrite_2.sto.state = .ready ∧ state_StageDescriptorCommands_stgDescWrite_2.rst.mireUp = true) := by
  exact ⟨by decide +kernel, by decide +kernel, by decide +kernel, by decide +kernel, descImage_valid, by decide +kernel⟩

theorem witness_StageDescriptorCommands_stgDescRead :
    Accepts live req 0x0302 { long := true } ∧ live.hasPort (127 : Nat) = true := by
  decide +kernel

theorem witness_StageDescriptorCommands_stgDescRead_2 :
    Accepts live req 0x0302 { long := true } ∧ live.hasPort (127 : Nat) = true ∧ live.twin.role ≠ .standby ∧ live.sets.frozen = false := by
  decide +kernel

theorem witness_StageDescriptorCommands_stgEepromWrite :
    Accepts live req 0x0303 { long := true, standbyOk := false } ∧ live.hasPort (0 : Nat) = true ∧ (248 : Nat) % 8 = 0 ∧ (([1, 2, 3, 4, 5, 6, 7, 8] : List Byte).length % 8 = 0 ∧ ([1, 2, 3, 4, 5, 6, 7, 8] : List Byte) ≠ []) ∧ (248 : Nat) + ([1, 2, 3, 4, 5, 6, 7, 8] : List Byte).length ≤ 256 := by
  decide +kernel

/-- The state of the witness below. -/
def state_StageDescriptorCommands_i2cTransferEnd : State :=
  { live with grp := [(0, { Grp.init with i2c := [⟨0, true, 0, [1], 0, 5⟩] })] }

theorem witness_StageDescriptorCommands_i2cTransferEnd :
    state_StageDescriptorCommands_i2cTransferEnd.rst.mgmtUp = true ∧ (state_StageDescriptorCommands_i2cTransferEnd.grpAt (0 : Nat)).i2c = (⟨0, true, 0, [1], 0, 5⟩ : I2c) :: ([] : List I2c) ∧ (⟨0, true, 0, [1], 0, 5⟩ : I2c).write = true ∧ (⟨0, true, 0, [1], 0, 5⟩ : I2c).data.length ≤ 8 := by
  decide +kernel

/-- The state of the witness below. -/
def state_StageDescriptorCommands_i2cTransferEnd_2 : State :=
  { live with grp := [(0, { Grp.init with i2c := [⟨0, true, 0, [1, 2, 3, 4, 5, 6, 7, 8, 9, 10, 11, 12, 13, 14, 15, 16], 0, 5⟩] })] }

theorem witness_StageDescriptorCommands_i2cTransferEnd_2 :
    state_StageDescriptorCommands_i2cTransferEnd_2.rst.mgmtUp = true ∧ (state_StageDescriptorCommands_i2cTransferEnd_2.grpAt (0 : Nat)).i2c = (⟨0, true, 0, [1, 2, 3, 4, 5, 6, 7, 8, 9, 10, 11, 12, 13, 14, 15, 16], 0, 5⟩ : I2c) :: ([] : List I2c) ∧ (⟨0, true, 0, [1, 2, 3, 4, 5, 6, 7, 8, 9, 10, 11, 12, 13, 14, 15, 16], 0, 5⟩ : I2c).write = true ∧ 8 < (⟨0, true, 0, [1, 2, 3, 4, 5, 6, 7, 8, 9, 10, 11, 12, 13, 14, 15, 16], 0, 5⟩ : I2c).data.length := by
  decide +kernel

theorem witness_StageDescriptorCommands_stgPlaceRead :
    Accepts live req 0x0312 {} ∧ (127 : Nat) < 128 ∧ ((1 : Nat) ≠ 0 ∧ (127 : Nat) + (1 : Nat) ≤ 128) := by
  decide +kernel

theorem witness_StageDescriptorCommands_figPlaceRead :
    Accepts live req 0x0210 {} ∧ (4095 : Nat) < 4096 ∧ ((1 : Nat) ≠ 0 ∧ (1 : Nat) ≤ 2048 ∧ (4095 : Nat) + (1 : Nat) ≤ 4096) := by
  decide +kernel

theorem witness_ValidationCommandsFreezeTheMaquette_setUnveil :
    Accepts live req 0x0501 { long := true, standbyOk := false } ∧ live.sets.frozen = false ∧ live.detaching = false ∧ ((none : Option Word) = none ∨ (none : Option Word) = some live.sets.maqSeq) := by
  decide +kernel

theorem witness_ValidationCommandsFreezeTheMaquette_setUnveil_2 :
    Accepts live req 0x0501 { long := true, standbyOk := false } ∧ live.sets.frozen = false ∧ live.detaching = false ∧ (7 : Word) ≠ live.sets.maqSeq := by
  decide +kernel

theorem witness_ValidationCommandsFreezeTheMaquette_setValidate :
    Accepts live req 0x0502 { long := true, standbyOk := false } ∧ live.sets.frozen = false ∧ ((none : Option Word) = none ∨ (none : Option Word) = some live.sets.maqSeq) := by
  decide +kernel

theorem witness_ValidationCommandsFreezeTheMaquette_placePreview :
    Accepts live req 0x0211 { long := true } ∧ (4095 : Nat) < 4096 ∧ ((1 : Nat) ≠ 0 ∧ (1 : Nat) ≤ 2048 ∧ (4095 : Nat) + (1 : Nat) ≤ 4096) := by
  decide +kernel

theorem witness_ValidationCommandsFreezeTheMaquette_loopSchedRead :
    Accepts live req 0x0C05 { long := true } ∧ req.set = false := by
  decide +kernel

/-- The state of the witness below. -/
def state_ValidationsEnd_unveilTransfer : State :=
  { live with host := { live.host with outst := [⟨0, false, 0x0501, 9, 0, 0, 0, 0, 0, 1⟩] } }

theorem witness_ValidationsEnd_unveilTransfer :
    state_ValidationsEnd_unveilTransfer.unveiling = some (⟨0, false, 0x0501, 9, 0, 0, 0, 0, 0, 1⟩ : Outstanding) ∧ state_ValidationsEnd_unveilTransfer.canTransfer = true ∧ state_ValidationsEnd_unveilTransfer.migrations = [] ∧ state_ValidationsEnd_unveilTransfer.validate state_ValidationsEnd_unveilTransfer.sets.maq = .ok ((imageOf state_ValidationsEnd_unveilTransfer : CfgSet), (planOf state_ValidationsEnd_unveilTransfer : Plan)) := by
  exact ⟨by decide +kernel, by decide +kernel, by decide +kernel, validate_of_passes _ (by decide +kernel)⟩

theorem witness_ValidationsEnd_unveilTransfer_2 :
    badMaq.unveiling = some (⟨0, false, 0x0501, 9, 0, 0, 0, 0, 0, 1⟩ : Outstanding) ∧ badMaq.canTransfer = true ∧ badMaq.migrations = [] ∧ badMaq.validate badMaq.sets.maq = .error (⟨3, 2, 5⟩ : Failure) := by
  exact ⟨by decide +kernel, by decide +kernel, by decide +kernel, validate_of_failure _ _ (by decide +kernel)⟩

/-- The state of the witness below. -/
def state_ValidationsEnd_validationEnd : State :=
  { live with host := { live.host with outst := [⟨0, false, 0x0502, 9, 0, 0, 0, 0, 0, 1⟩] } }

theorem witness_ValidationsEnd_validationEnd :
    state_ValidationsEnd_validationEnd.host.outst.find? (fun x => x.opcode == 0x0502 || x.opcode == 0x0211) = some (⟨0, false, 0x0502, 9, 0, 0, 0, 0, 0, 1⟩ : Outstanding) ∧ (⟨0, false, 0x0502, 9, 0, 0, 0, 0, 0, 1⟩ : Outstanding).opcode = 0x0502 ∧ state_ValidationsEnd_validationEnd.rst.mgmtUp = true ∧ state_ValidationsEnd_validationEnd.migrations = [] ∧ state_ValidationsEnd_validationEnd.validate state_ValidationsEnd_validationEnd.sets.maq = .ok ((imageOf state_ValidationsEnd_validationEnd : CfgSet), (planOf state_ValidationsEnd_validationEnd : Plan)) := by
  exact ⟨by decide +kernel, by decide +kernel, by decide +kernel, by decide +kernel, validate_of_passes _ (by decide +kernel)⟩

/-- The state of the witness below. -/
def state_ValidationsEnd_validationEnd_2 : State :=
  { badMaq with host := { badMaq.host with outst := [⟨0, false, 0x0502, 9, 0, 0, 0, 0, 0, 1⟩] } }

theorem witness_ValidationsEnd_validationEnd_2 :
    state_ValidationsEnd_validationEnd_2.host.outst.find? (fun x => x.opcode == 0x0502 || x.opcode == 0x0211) = some (⟨0, false, 0x0502, 9, 0, 0, 0, 0, 0, 1⟩ : Outstanding) ∧ (⟨0, false, 0x0502, 9, 0, 0, 0, 0, 0, 1⟩ : Outstanding).opcode = 0x0502 ∧ state_ValidationsEnd_validationEnd_2.rst.mgmtUp = true ∧ state_ValidationsEnd_validationEnd_2.migrations = [] ∧ state_ValidationsEnd_validationEnd_2.validate state_ValidationsEnd_validationEnd_2.sets.maq = .error (⟨3, 2, 5⟩ : Failure) := by
  exact ⟨by decide +kernel, by decide +kernel, by decide +kernel, by decide +kernel, validate_of_failure _ _ (by decide +kernel)⟩

/-- The state of the witness below. -/
def state_ValidationsEnd_validationEnd_3 : State :=
  { placed with host := { placed.host with outst := [⟨0, false, 0x0211, 9, 0, 0, 0, 5, 2, 1⟩] } }

theorem witness_ValidationsEnd_validationEnd_3 :
    state_ValidationsEnd_validationEnd_3.host.outst.find? (fun x => x.opcode == 0x0502 || x.opcode == 0x0211) = some (⟨0, false, 0x0211, 9, 0, 0, 0, 5, 2, 1⟩ : Outstanding) ∧ (⟨0, false, 0x0211, 9, 0, 0, 0, 5, 2, 1⟩ : Outstanding).opcode = 0x0211 ∧ state_ValidationsEnd_validationEnd_3.rst.mgmtUp = true ∧ check1 state_ValidationsEnd_validationEnd_3.sets.maq = none := by
  decide +kernel

/-- The state of the witness below. -/
def state_ValidationsEnd_validationEnd_4 : State :=
  { live with host := { live.host with outst := [⟨0, false, 0x0211, 9, 0, 0, 0, 5, 2, 1⟩] }, sets := { live.sets with maq := { live.sets.maq with figs := [5], params := [(pkey 0x403 5, 100)] } } }

theorem witness_ValidationsEnd_validationEnd_4 :
    state_ValidationsEnd_validationEnd_4.host.outst.find? (fun x => x.opcode == 0x0502 || x.opcode == 0x0211) = some (⟨0, false, 0x0211, 9, 0, 0, 0, 5, 2, 1⟩ : Outstanding) ∧ (⟨0, false, 0x0211, 9, 0, 0, 0, 5, 2, 1⟩ : Outstanding).opcode = 0x0211 ∧ state_ValidationsEnd_validationEnd_4.rst.mgmtUp = true ∧ check1 state_ValidationsEnd_validationEnd_4.sets.maq = some (⟨3, 1, 0x403⟩ : Failure) := by
  decide +kernel

/-- The state of the witness below. -/
def state_UnveilsAndLiveWritesTakeEffect_unveilSwap : State :=
  { live with sets := { live.sets with transfer := some ⟨live.sets.maq, none, false, false, false, 0, false, []⟩ } }

theorem witness_UnveilsAndLiveWritesTakeEffect_unveilSwap :
    state_UnveilsAndLiveWritesTakeEffect_unveilSwap.sets.transfer = some (⟨live.sets.maq, none, false, false, false, 0, false, []⟩ : Transfer) ∧ (⟨live.sets.maq, none, false, false, false, 0, false, []⟩ : Transfer).internal = false ∧ state_UnveilsAndLiveWritesTakeEffect_unveilSwap.landsNow (⟨live.sets.maq, none, false, false, false, 0, false, []⟩ : Transfer) = true := by
  decide +kernel

/-- The state of the witness below. -/
def state_UnveilsAndLiveWritesTakeEffect_internalUnveil : State :=
  { live with sets := { live.sets with transfer := some ⟨live.sets.maq, none, false, true, false, 0, false, []⟩ } }

theorem witness_UnveilsAndLiveWritesTakeEffect_internalUnveil :
    state_UnveilsAndLiveWritesTakeEffect_internalUnveil.sets.transfer = some (⟨live.sets.maq, none, false, true, false, 0, false, []⟩ : Transfer) ∧ (⟨live.sets.maq, none, false, true, false, 0, false, []⟩ : Transfer).internal = true ∧ state_UnveilsAndLiveWritesTakeEffect_internalUnveil.landsNow (⟨live.sets.maq, none, false, true, false, 0, false, []⟩ : Transfer) = true := by
  decide +kernel

/-- The state of the witness below. -/
def state_UnveilsAndLiveWritesTakeEffect_maquetteCopyEnd : State :=
  { live with sets := { live.sets with copyDue := true, frozen := true }, host := { live.host with outst := [⟨0, false, 0x0501, 9, 0, 0, 0, 1, 7, 3⟩] } }

theorem witness_UnveilsAndLiveWritesTakeEffect_maquetteCopyEnd :
    state_UnveilsAndLiveWritesTakeEffect_maquetteCopyEnd.sets.copyDue = true ∧ state_UnveilsAndLiveWritesTakeEffect_maquetteCopyEnd.rst.mgmtUp = true := by
  decide +kernel

/-- The state of the witness below. -/
def state_UnveilsAndLiveWritesTakeEffect_liveWriteApply : State :=
  { live with sets := { live.sets with livePending := [(pkey 0x188 7, 1), (pkey 0x188 7, 0)] } }

theorem witness_UnveilsAndLiveWritesTakeEffect_liveWriteApply :
    state_UnveilsAndLiveWritesTakeEffect_liveWriteApply.sets.livePending.find? (fun e => state_UnveilsAndLiveWritesTakeEffect_liveWriteApply.liveDue e.1) = some ((pkey 0x188 7 : Nat), (1 : Word)) ∧ (state_UnveilsAndLiveWritesTakeEffect_liveWriteApply.rst.ctrlUp = true ∧ state_UnveilsAndLiveWritesTakeEffect_liveWriteApply.rst.mgmtUp = true) ∧ state_UnveilsAndLiveWritesTakeEffect_liveWriteApply.swapFirst = false := by
  decide +kernel

/-- The state of the witness below. -/
def state_UnveilsAndLiveWritesTakeEffect_liveWriteApply_2 : State :=
  { placed with sets := { placed.sets with livePending := [(pkey 0x438 5, 9)] } }

theorem witness_UnveilsAndLiveWritesTakeEffect_liveWriteApply_2 :
    state_UnveilsAndLiveWritesTakeEffect_liveWriteApply_2.sets.livePending.find? (fun e => state_UnveilsAndLiveWritesTakeEffect_liveWriteApply_2.liveDue e.1) = some ((pkey 0x438 5 : Nat), (9 : Word)) ∧ (state_UnveilsAndLiveWritesTakeEffect_liveWriteApply_2.rst.ctrlUp = true ∧ state_UnveilsAndLiveWritesTakeEffect_liveWriteApply_2.rst.mgmtUp = true) ∧ state_UnveilsAndLiveWritesTakeEffect_liveWriteApply_2.swapFirst = false := by
  decide +kernel

theorem witness_UnveilsAndLiveWritesTakeEffect_migration :
    migrating.canTransfer = true ∧ (migrating.figsOn (0 : Nat)).any (fun f => migrating.migrations.contains f) = true := by
  decide +kernel

/-- The state of the witness below. -/
def state_UnveilsAndLiveWritesTakeEffect_migration_2 : State :=
  { migrating with sets := { migrating.sets with cast := { migrating.sets.cast with descs := [] } } }

theorem witness_UnveilsAndLiveWritesTakeEffect_migration_2 :
    state_UnveilsAndLiveWritesTakeEffect_migration_2.canTransfer = true ∧ (state_UnveilsAndLiveWritesTakeEffect_migration_2.figsOn (0 : Nat)).any (fun f => state_UnveilsAndLiveWritesTakeEffect_migration_2.migrations.contains f) = true := by
  decide +kernel

theorem witness_SweepCommandsEditAndStart_swpTableWrite :
    Accepts live req 0x0401 { standbyOk := false } ∧ live.leads = false ∧ live.sets.frozen = false ∧ tableRange (3 : Nat) ([0x80] : List (BitVec 256)).length = none ∧ ([0x80] : List (BitVec 256)).all (fun e => (entryBad e).isNone) = true := by
  decide +kernel

theorem witness_SweepCommandsEditAndStart_swpTableRead :
    Accepts live req 0x0402 {} ∧ tableRange (65535 : Nat) (1 : Nat) = none := by
  decide +kernel

/-- The state of the witness below. -/
def state_SweepCommandsEditAndStart_swpGenWrite : State :=
  { live with sets := { live.sets with maq := { live.sets.maq with figs := [5] } } }

theorem witness_SweepCommandsEditAndStart_swpGenWrite :
    Accepts state_SweepCommandsEditAndStart_swpGenWrite req 0x0403 { standbyOk := false } ∧ state_SweepCommandsEditAndStart_swpGenWrite.leads = false ∧ state_SweepCommandsEditAndStart_swpGenWrite.sets.frozen = false ∧ (5 : Nat) ∈ state_SweepCommandsEditAndStart_swpGenWrite.sets.maq.figs ∧ genBad (1 : BitVec 512) = none := by
  decide +kernel

/-- The state of the witness below. -/
def state_SweepCommandsEditAndStart_swpStart : State :=
  { placed with fig := [(5, { Fig.init with enabled := true, run := .armed })] }

theorem witness_SweepCommandsEditAndStart_swpStart :
    Accepts state_SweepCommandsEditAndStart_swpStart req 0x0404 { standbyOk := false } ∧ (5 : Nat) < 4096 ∧ state_SweepCommandsEditAndStart_swpStart.defined (5 : Nat) = true ∧ ((state_SweepCommandsEditAndStart_swpStart.figAt (5 : Nat)).run = .armed ∨ (state_SweepCommandsEditAndStart_swpStart.figAt (5 : Nat)).run = .ended) := by
  decide +kernel

/-- The state of the witness below. -/
def state_SweepCommandsEditAndStart_swpStart_2 : State :=
  { placed with fig := [(5, { Fig.init with enabled := true, run := .waiting })] }

theorem witness_SweepCommandsEditAndStart_swpStart_2 :
    Accepts state_SweepCommandsEditAndStart_swpStart_2 req 0x0404 { standbyOk := false } ∧ (5 : Nat) < 4096 ∧ state_SweepCommandsEditAndStart_swpStart_2.defined (5 : Nat) = true ∧ ((state_SweepCommandsEditAndStart_swpStart_2.figAt (5 : Nat)).run ≠ .armed ∧ (state_SweepCommandsEditAndStart_swpStart_2.figAt (5 : Nat)).run ≠ .ended) := by
  decide +kernel

/-- The state of the witness below. -/
def state_SweepCommandsEditAndStart_swpStop : State :=
  { placed with fig := [(5, { Fig.init with enabled := true, run := .waiting })] }

theorem witness_SweepCommandsEditAndStart_swpStop :
    Accepts state_SweepCommandsEditAndStart_swpStop req 0x0405 { standbyOk := false } ∧ (5 : Nat) < 4096 ∧ state_SweepCommandsEditAndStart_swpStop.defined (5 : Nat) = true ∧ (1 : Nat) ≤ 1 ∧ (listRuns (state_SweepCommandsEditAndStart_swpStop.figAt (5 : Nat)) = true ∨ (state_SweepCommandsEditAndStart_swpStop.figAt (5 : Nat)).startDue = true) ∧ (state_SweepCommandsEditAndStart_swpStop.figAt (5 : Nat)).stop ≠ some 2 := by
  decide +kernel

theorem witness_SweepCommandsEditAndStart_swpStatusRead :
    Accepts placed req 0x0406 {} ∧ (5 : Nat) < 4096 ∧ ((1 : Nat) ≠ 0 ∧ (5 : Nat) + (1 : Nat) ≤ 4096) := by
  decide +kernel

/-- The state of the witness below. -/
def state_ListsStartAndEnd_listStart : State :=
  { placed with fig := [(5, { Fig.init with enabled := true, run := .ended, startDue := true })], sets := { placed.sets with cast := { placed.sets.cast with params := [(pkey 0x43A 5, 2), (pkey 0x439 5, 7), (pkey 0x43B 5, 3)] } } }

theorem witness_ListsStartAndEnd_listStart :
    state_ListsStartAndEnd_listStart.running (5 : Nat) = true ∧ state_ListsStartAndEnd_listStart.grpRuns ((state_ListsStartAndEnd_listStart.master (5 : Nat)).getD 0 / 8) = true ∧ state_ListsStartAndEnd_listStart.swapFirst = false ∧ ((state_ListsStartAndEnd_listStart.figAt (5 : Nat)).run = .armed ∨ (state_ListsStartAndEnd_listStart.figAt (5 : Nat)).run = .ended) ∧ 0 < state_ListsStartAndEnd_listStart.castN 0x43A (5 : Nat) ∧ ((state_ListsStartAndEnd_listStart.figAt (5 : Nat)).startDue = true ∨ (state_ListsStartAndEnd_listStart.castN 0x43C (5 : Nat) = 0 ∧ (state_ListsStartAndEnd_listStart.figAt (5 : Nat)).run = .armed) ∨ (state_ListsStartAndEnd_listStart.castN 0x43C (5 : Nat) = 2 ∧ 0x80 + (state_ListsStartAndEnd_listStart.master (5 : Nat)).getD 0 ∈ state_ListsStartAndEnd_listStart.fab.arrived)) := by
  decide +kernel

/-- The state of the witness below. -/
def state_ListsStartAndEnd_listEnd : State :=
  { placed with fig := [(5, { Fig.init with enabled := true, run := .waiting, count := 2, next := 2, pass := 1, repeats := 2 })] }

theorem witness_ListsStartAndEnd_listEnd :
    (state_ListsStartAndEnd_listEnd.figAt (5 : Nat)).run = .waiting ∧ (state_ListsStartAndEnd_listEnd.figAt (5 : Nat)).flight = none ∧ state_ListsStartAndEnd_listEnd.rst.ctrlUp = true ∧ ((state_ListsStartAndEnd_listEnd.figAt (5 : Nat)).stop = none ∨ (state_ListsStartAndEnd_listEnd.figAt (5 : Nat)).stop = some 1) ∧ (state_ListsStartAndEnd_listEnd.figAt (5 : Nat)).count ≤ (state_ListsStartAndEnd_listEnd.figAt (5 : Nat)).next ∧ ((state_ListsStartAndEnd_listEnd.figAt (5 : Nat)).repeats = 0 ∨ (state_ListsStartAndEnd_listEnd.figAt (5 : Nat)).pass.toNat < (state_ListsStartAndEnd_listEnd.figAt (5 : Nat)).repeats) := by
  decide +kernel

/-- The state of the witness below. -/
def state_ListsStartAndEnd_listEnd_2 : State :=
  { placed with fig := [(5, { Fig.init with enabled := true, run := .waiting, count := 2, next := 1, pass := 1, stop := some 0 })] }

theorem witness_ListsStartAndEnd_listEnd_2 :
    (state_ListsStartAndEnd_listEnd_2.figAt (5 : Nat)).run = .waiting ∧ (state_ListsStartAndEnd_listEnd_2.figAt (5 : Nat)).flight = none ∧ state_ListsStartAndEnd_listEnd_2.rst.ctrlUp = true ∧ ((state_ListsStartAndEnd_listEnd_2.figAt (5 : Nat)).stop = some 0 ∨ ((state_ListsStartAndEnd_listEnd_2.figAt (5 : Nat)).stop ≠ some 2 ∧ (state_ListsStartAndEnd_listEnd_2.figAt (5 : Nat)).count ≤ (state_ListsStartAndEnd_listEnd_2.figAt (5 : Nat)).next ∧ (state_ListsStartAndEnd_listEnd_2.figAt (5 : Nat)).repeats ≠ 0 ∧ (state_ListsStartAndEnd_listEnd_2.figAt (5 : Nat)).repeats ≤ (state_ListsStartAndEnd_listEnd_2.figAt (5 : Nat)).pass.toNat)) := by
  decide +kernel

/-- The state of the witness below. -/
def state_ListsStartAndEnd_listEnd_3 : State :=
  { placed with fig := [(5, { Fig.init with enabled := true, run := .waiting, count := 2, next := 2, pass := 2, repeats := 2, endMode := 1 })] }

theorem witness_ListsStartAndEnd_listEnd_3 :
    (state_ListsStartAndEnd_listEnd_3.figAt (5 : Nat)).run = .waiting ∧ (state_ListsStartAndEnd_listEnd_3.figAt (5 : Nat)).flight = none ∧ state_ListsStartAndEnd_listEnd_3.rst.ctrlUp = true ∧ ((state_ListsStartAndEnd_listEnd_3.figAt (5 : Nat)).stop = some 0 ∨ ((state_ListsStartAndEnd_listEnd_3.figAt (5 : Nat)).stop ≠ some 2 ∧ (state_ListsStartAndEnd_listEnd_3.figAt (5 : Nat)).count ≤ (state_ListsStartAndEnd_listEnd_3.figAt (5 : Nat)).next ∧ (state_ListsStartAndEnd_listEnd_3.figAt (5 : Nat)).repeats ≠ 0 ∧ (state_ListsStartAndEnd_listEnd_3.figAt (5 : Nat)).repeats ≤ (state_ListsStartAndEnd_listEnd_3.figAt (5 : Nat)).pass.toNat)) := by
  decide +kernel

/-- The state of the witness below. -/
def state_ListsStartAndEnd_listEnd_4 : State :=
  { placed with fig := [(5, { Fig.init with enabled := true, run := .waiting, count := 2, next := 2, stop := some 2 })] }

theorem witness_ListsStartAndEnd_listEnd_4 :
    (state_ListsStartAndEnd_listEnd_4.figAt (5 : Nat)).run = .waiting ∧ (state_ListsStartAndEnd_listEnd_4.figAt (5 : Nat)).flight = none ∧ state_ListsStartAndEnd_listEnd_4.rst.ctrlUp = true ∧ (state_ListsStartAndEnd_listEnd_4.figAt (5 : Nat)).stop = some 2 := by
  decide +kernel

/-- The state of the witness below. -/
def state_ListsStartAndEnd_pointReport : State :=
  { placed with fig := [(5, { Fig.init with enabled := true, reports := [⟨7, 4, 0, 0, 1, 0, 0, 0, 0⟩] })] }

theorem witness_ListsStartAndEnd_pointReport :
    (state_ListsStartAndEnd_pointReport.figAt (5 : Nat)).reports = (⟨7, 4, 0, 0, 1, 0, 0, 0, 0⟩ : Report) :: ([] : List Report) ∧ state_ListsStartAndEnd_pointReport.rst.dataUp = true := by
  decide +kernel

/-- The state of the witness below. -/
def state_ListsStartAndEnd_rangeWaitTimeout : State :=
  { placed with fig := [(5, { Fig.init with flight := some { index := 7, entry := 0x1000080#256, state := .settling, mtStart := 0, settleMt := 0, ticks := 0, dwellEnded := false, waited := 65535, flags := 0, top := false, topTicks := 0 } })], sp := [(0, { Sp.init with force := { Force.init with downPend := some 1 } })] }

theorem witness_ListsStartAndEnd_rangeWaitTimeout :
    (state_ListsStartAndEnd_rangeWaitTimeout.figAt (5 : Nat)).flight = some ({ index := 7, entry := 0x1000080#256, state := .settling, mtStart := 0, settleMt := 0, ticks := 0, dwellEnded := false, waited := 65535, flags := 0, top := false, topTicks := 0 } : Flight) ∧ ({ index := 7, entry := 0x1000080#256, state := .settling, mtStart := 0, settleMt := 0, ticks := 0, dwellEnded := false, waited := 65535, flags := 0, top := false, topTicks := 0 } : Flight).state = .settling ∧ state_ListsStartAndEnd_rangeWaitTimeout.dwellOver ({ index := 7, entry := 0x1000080#256, state := .settling, mtStart := 0, settleMt := 0, ticks := 0, dwellEnded := false, waited := 65535, flags := 0, top := false, topTicks := 0 } : Flight) = true ∧ (state_ListsStartAndEnd_rangeWaitTimeout.members (5 : Nat)).any (fun p => (state_ListsStartAndEnd_rangeWaitTimeout.spAt p).force.downPend.isSome || (state_ListsStartAndEnd_rangeWaitTimeout.spAt p).force.spanPend.isSome) = true ∧ state_ListsStartAndEnd_rangeWaitTimeout.castN 0x43F (5 : Nat) ≤ ({ index := 7, entry := 0x1000080#256, state := .settling, mtStart := 0, settleMt := 0, ticks := 0, dwellEnded := false, waited := 65535, flags := 0, top := false, topTicks := 0 } : Flight).waited := by
  decide +kernel

/-- The state of the witness below. -/
def state_PointsRun_pointFire : State :=
  { placed with fig := [(5, { Fig.init with enabled := true, run := .waiting, count := 2, first := 7 })] }

theorem witness_PointsRun_pointFire :
    state_PointsRun_pointFire.wouldFire (5 : Nat) = true ∧ state_PointsRun_pointFire.slotOpen (5 : Nat) = true ∧ state_PointsRun_pointFire.swapFirst = false ∧ state_PointsRun_pointFire.master (5 : Nat) = some (0 : Nat) := by
  decide +kernel

/-- The state of the witness below. -/
def state_PointsRun_settling : State :=
  { placed with fig := [(5, { Fig.init with enabled := true, run := .active, flight := some { index := 7, entry := (0x2C8F80 + 0x64 * 2 ^ 32), state := .placed, mtStart := 0, settleMt := 0, ticks := 0, dwellEnded := false, waited := 0, flags := 0, top := false, topTicks := 0 } })] }

theorem witness_PointsRun_settling :
    (state_PointsRun_settling.figAt (5 : Nat)).flight = some ({ index := 7, entry := (0x2C8F80 + 0x64 * 2 ^ 32), state := .placed, mtStart := 0, settleMt := 0, ticks := 0, dwellEnded := false, waited := 0, flags := 0, top := false, topTicks := 0 } : Flight) ∧ ({ index := 7, entry := (0x2C8F80 + 0x64 * 2 ^ 32), state := .placed, mtStart := 0, settleMt := 0, ticks := 0, dwellEnded := false, waited := 0, flags := 0, top := false, topTicks := 0 } : Flight).state = .placed ∧ state_PointsRun_settling.placedDone (5 : Nat) = true ∧ state_PointsRun_settling.master (5 : Nat) = some (0 : Nat) := by
  decide +kernel

/-- The state of the witness below. -/
def state_PointsRun_dwellEnd : State :=
  { placed with fig := [(5, { Fig.init with enabled := true, run := .active, flight := some { index := 7, entry := 0x3000080#256, state := .settling, mtStart := 0, settleMt := 0, ticks := 0, dwellEnded := false, waited := 0, flags := 0, top := false, topTicks := 0 } })] }

theorem witness_PointsRun_dwellEnd :
    (state_PointsRun_dwellEnd.figAt (5 : Nat)).flight = some ({ index := 7, entry := 0x3000080#256, state := .settling, mtStart := 0, settleMt := 0, ticks := 0, dwellEnded := false, waited := 0, flags := 0, top := false, topTicks := 0 } : Flight) ∧ ({ index := 7, entry := 0x3000080#256, state := .settling, mtStart := 0, settleMt := 0, ticks := 0, dwellEnded := false, waited := 0, flags := 0, top := false, topTicks := 0 } : Flight).state = .settling ∧ ptPulse ({ index := 7, entry := 0x3000080#256, state := .settling, mtStart := 0, settleMt := 0, ticks := 0, dwellEnded := false, waited := 0, flags := 0, top := false, topTicks := 0 } : Flight).entry = false ∧ state_PointsRun_dwellEnd.dwellOver ({ index := 7, entry := 0x3000080#256, state := .settling, mtStart := 0, settleMt := 0, ticks := 0, dwellEnded := false, waited := 0, flags := 0, top := false, topTicks := 0 } : Flight) = true ∧ state_PointsRun_dwellEnd.canMeasure (5 : Nat) = true ∧ ptNoAp ({ index := 7, entry := 0x3000080#256, state := .settling, mtStart := 0, settleMt := 0, ticks := 0, dwellEnded := false, waited := 0, flags := 0, top := false, topTicks := 0 } : Flight).entry = true := by
  decide +kernel

/-- The state of the witness below. -/
def state_PointsRun_dwellEnd_2 : State :=
  { placed with fig := [(5, { Fig.init with enabled := true, run := .active, flight := some { index := 7, entry := 0x1000080#256, state := .settling, mtStart := 0, settleMt := 0, ticks := 0, dwellEnded := false, waited := 0, flags := 0, top := false, topTicks := 0 } })] }

theorem witness_PointsRun_dwellEnd_2 :
    (state_PointsRun_dwellEnd_2.figAt (5 : Nat)).flight = some ({ index := 7, entry := 0x1000080#256, state := .settling, mtStart := 0, settleMt := 0, ticks := 0, dwellEnded := false, waited := 0, flags := 0, top := false, topTicks := 0 } : Flight) ∧ ({ index := 7, entry := 0x1000080#256, state := .settling, mtStart := 0, settleMt := 0, ticks := 0, dwellEnded := false, waited := 0, flags := 0, top := false, topTicks := 0 } : Flight).state = .settling ∧ ptPulse ({ index := 7, entry := 0x1000080#256, state := .settling, mtStart := 0, settleMt := 0, ticks := 0, dwellEnded := false, waited := 0, flags := 0, top := false, topTicks := 0 } : Flight).entry = false ∧ state_PointsRun_dwellEnd_2.dwellOver ({ index := 7, entry := 0x1000080#256, state := .settling, mtStart := 0, settleMt := 0, ticks := 0, dwellEnded := false, waited := 0, flags := 0, top := false, topTicks := 0 } : Flight) = true ∧ state_PointsRun_dwellEnd_2.canMeasure (5 : Nat) = true ∧ ptNoAp ({ index := 7, entry := 0x1000080#256, state := .settling, mtStart := 0, settleMt := 0, ticks := 0, dwellEnded := false, waited := 0, flags := 0, top := false, topTicks := 0 } : Flight).entry = false ∧ state_PointsRun_dwellEnd_2.apFree (5 : Nat) state_PointsRun_dwellEnd_2.mt.mt = true ∧ (state_PointsRun_dwellEnd_2.figAt (5 : Nat)).apOpen = none := by
  decide +kernel

/-- The state of the witness below. -/
def state_PointsRun_dwellEnd_3 : State :=
  { placed with fig := [(5, { Fig.init with enabled := true, run := .active, flight := some { index := 7, entry := 0x1000080#256, state := .settling, mtStart := 0, settleMt := 0, ticks := 0, dwellEnded := false, waited := 0, flags := 0, top := false, topTicks := 0 }, apWait := some ⟨0, 1, 0xFFFF, none, none, false, 0, false, [], 0, false, false, false, false, false, false, 0⟩ })] }

theorem witness_PointsRun_dwellEnd_3 :
    (state_PointsRun_dwellEnd_3.figAt (5 : Nat)).flight = some ({ index := 7, entry := 0x1000080#256, state := .settling, mtStart := 0, settleMt := 0, ticks := 0, dwellEnded := false, waited := 0, flags := 0, top := false, topTicks := 0 } : Flight) ∧ ({ index := 7, entry := 0x1000080#256, state := .settling, mtStart := 0, settleMt := 0, ticks := 0, dwellEnded := false, waited := 0, flags := 0, top := false, topTicks := 0 } : Flight).state = .settling ∧ ptPulse ({ index := 7, entry := 0x1000080#256, state := .settling, mtStart := 0, settleMt := 0, ticks := 0, dwellEnded := false, waited := 0, flags := 0, top := false, topTicks := 0 } : Flight).entry = false ∧ state_PointsRun_dwellEnd_3.dwellOver ({ index := 7, entry := 0x1000080#256, state := .settling, mtStart := 0, settleMt := 0, ticks := 0, dwellEnded := false, waited := 0, flags := 0, top := false, topTicks := 0 } : Flight) = true ∧ state_PointsRun_dwellEnd_3.canMeasure (5 : Nat) = true ∧ ptNoAp ({ index := 7, entry := 0x1000080#256, state := .settling, mtStart := 0, settleMt := 0, ticks := 0, dwellEnded := false, waited := 0, flags := 0, top := false, topTicks := 0 } : Flight).entry = false ∧ state_PointsRun_dwellEnd_3.apFree (5 : Nat) state_PointsRun_dwellEnd_3.mt.mt = false ∧ ptBrk ({ index := 7, entry := 0x1000080#256, state := .settling, mtStart := 0, settleMt := 0, ticks := 0, dwellEnded := false, waited := 0, flags := 0, top := false, topTicks := 0 } : Flight).entry = false := by
  decide +kernel

/-- The state of the witness below. -/
def state_PointsRun_dwellEnd_4 : State :=
  { placed with fig := [(5, { Fig.init with enabled := false, flight := some { index := 7, entry := 0x3000080#256, state := .settling, mtStart := 0, settleMt := 0, ticks := 0, dwellEnded := false, waited := 0, flags := 0, top := false, topTicks := 0 } })] }

theorem witness_PointsRun_dwellEnd_4 :
    (state_PointsRun_dwellEnd_4.figAt (5 : Nat)).flight = some ({ index := 7, entry := 0x3000080#256, state := .settling, mtStart := 0, settleMt := 0, ticks := 0, dwellEnded := false, waited := 0, flags := 0, top := false, topTicks := 0 } : Flight) ∧ ({ index := 7, entry := 0x3000080#256, state := .settling, mtStart := 0, settleMt := 0, ticks := 0, dwellEnded := false, waited := 0, flags := 0, top := false, topTicks := 0 } : Flight).state = .settling ∧ ptPulse ({ index := 7, entry := 0x3000080#256, state := .settling, mtStart := 0, settleMt := 0, ticks := 0, dwellEnded := false, waited := 0, flags := 0, top := false, topTicks := 0 } : Flight).entry = false ∧ state_PointsRun_dwellEnd_4.dwellOver ({ index := 7, entry := 0x3000080#256, state := .settling, mtStart := 0, settleMt := 0, ticks := 0, dwellEnded := false, waited := 0, flags := 0, top := false, topTicks := 0 } : Flight) = true ∧ state_PointsRun_dwellEnd_4.canMeasure (5 : Nat) = false := by
  decide +kernel

/-- The state of the witness below. -/
def state_PointsRun_pulseLeadingEdge : State :=
  { placed with fig := [(5, { Fig.init with enabled := true, run := .active, flight := some { index := 7, entry := 0x30000C0#256, state := .settling, mtStart := 0, settleMt := 0, ticks := 0, dwellEnded := false, waited := 0, flags := 0, top := false, topTicks := 0 } })] }

theorem witness_PointsRun_pulseLeadingEdge :
    (state_PointsRun_pulseLeadingEdge.figAt (5 : Nat)).flight = some ({ index := 7, entry := 0x30000C0#256, state := .settling, mtStart := 0, settleMt := 0, ticks := 0, dwellEnded := false, waited := 0, flags := 0, top := false, topTicks := 0 } : Flight) ∧ ({ index := 7, entry := 0x30000C0#256, state := .settling, mtStart := 0, settleMt := 0, ticks := 0, dwellEnded := false, waited := 0, flags := 0, top := false, topTicks := 0 } : Flight).state = .settling ∧ ptPulse ({ index := 7, entry := 0x30000C0#256, state := .settling, mtStart := 0, settleMt := 0, ticks := 0, dwellEnded := false, waited := 0, flags := 0, top := false, topTicks := 0 } : Flight).entry = true ∧ state_PointsRun_pulseLeadingEdge.dwellOver ({ index := 7, entry := 0x30000C0#256, state := .settling, mtStart := 0, settleMt := 0, ticks := 0, dwellEnded := false, waited := 0, flags := 0, top := false, topTicks := 0 } : Flight) = true ∧ state_PointsRun_pulseLeadingEdge.canMeasure (5 : Nat) = true ∧ (ptNoAp ({ index := 7, entry := 0x30000C0#256, state := .settling, mtStart := 0, settleMt := 0, ticks := 0, dwellEnded := false, waited := 0, flags := 0, top := false, topTicks := 0 } : Flight).entry = true ∨ state_PointsRun_pulseLeadingEdge.apFree (5 : Nat) state_PointsRun_pulseLeadingEdge.mt.mt = true) := by
  decide +kernel

/-- The state of the witness below. -/
def state_PointsRun_pulseLeadingEdge_2 : State :=
  { placed with fig := [(5, { Fig.init with enabled := true, run := .active, flight := some { index := 7, entry := 0x10000C0#256, state := .settling, mtStart := 0, settleMt := 0, ticks := 0, dwellEnded := false, waited := 0, flags := 0, top := false, topTicks := 0 } })] }

theorem witness_PointsRun_pulseLeadingEdge_2 :
    (state_PointsRun_pulseLeadingEdge_2.figAt (5 : Nat)).flight = some ({ index := 7, entry := 0x10000C0#256, state := .settling, mtStart := 0, settleMt := 0, ticks := 0, dwellEnded := false, waited := 0, flags := 0, top := false, topTicks := 0 } : Flight) ∧ ({ index := 7, entry := 0x10000C0#256, state := .settling, mtStart := 0, settleMt := 0, ticks := 0, dwellEnded := false, waited := 0, flags := 0, top := false, topTicks := 0 } : Flight).state = .settling ∧ ptPulse ({ index := 7, entry := 0x10000C0#256, state := .settling, mtStart := 0, settleMt := 0, ticks := 0, dwellEnded := false, waited := 0, flags := 0, top := false, topTicks := 0 } : Flight).entry = true ∧ state_PointsRun_pulseLeadingEdge_2.dwellOver ({ index := 7, entry := 0x10000C0#256, state := .settling, mtStart := 0, settleMt := 0, ticks := 0, dwellEnded := false, waited := 0, flags := 0, top := false, topTicks := 0 } : Flight) = true ∧ state_PointsRun_pulseLeadingEdge_2.canMeasure (5 : Nat) = true ∧ (ptNoAp ({ index := 7, entry := 0x10000C0#256, state := .settling, mtStart := 0, settleMt := 0, ticks := 0, dwellEnded := false, waited := 0, flags := 0, top := false, topTicks := 0 } : Flight).entry = true ∨ state_PointsRun_pulseLeadingEdge_2.apFree (5 : Nat) state_PointsRun_pulseLeadingEdge_2.mt.mt = true) := by
  decide +kernel

/-- The state of the witness below. -/
def state_PointsRun_pulseTrailingEdge : State :=
  { placed with fig := [(5, { Fig.init with enabled := true, run := .active, flight := some { index := 7, entry := (0x30000C0 + 2 ^ 224), state := .aperture, mtStart := 0, settleMt := 0, ticks := 0, dwellEnded := false, waited := 0, flags := 0, top := true, topTicks := 1 } })] }

theorem witness_PointsRun_pulseTrailingEdge :
    (state_PointsRun_pulseTrailingEdge.figAt (5 : Nat)).flight = some ({ index := 7, entry := (0x30000C0 + 2 ^ 224), state := .aperture, mtStart := 0, settleMt := 0, ticks := 0, dwellEnded := false, waited := 0, flags := 0, top := true, topTicks := 1 } : Flight) ∧ ({ index := 7, entry := (0x30000C0 + 2 ^ 224), state := .aperture, mtStart := 0, settleMt := 0, ticks := 0, dwellEnded := false, waited := 0, flags := 0, top := true, topTicks := 1 } : Flight).top = true ∧ ptWidth ({ index := 7, entry := (0x30000C0 + 2 ^ 224), state := .aperture, mtStart := 0, settleMt := 0, ticks := 0, dwellEnded := false, waited := 0, flags := 0, top := true, topTicks := 1 } : Flight).entry ≤ ({ index := 7, entry := (0x30000C0 + 2 ^ 224), state := .aperture, mtStart := 0, settleMt := 0, ticks := 0, dwellEnded := false, waited := 0, flags := 0, top := true, topTicks := 1 } : Flight).topTicks ∧ (state_PointsRun_pulseTrailingEdge.apFinish (5 : Nat)).apLost (5 : Nat) = false := by
  decide +kernel

/-- The state of the witness below. -/
def state_PointsRun_siteWaitEnd : State :=
  { placed with fig := [(5, { Fig.init with flight := some { index := 7, entry := 0x80#256, state := .placed, mtStart := 0, settleMt := 0, ticks := 0, dwellEnded := false, waited := 0, flags := 0, top := false, topTicks := 0 } })], sp := [(0, { Sp.init with force := { Force.init with down := some ⟨0, 0, 1⟩ } })] }

theorem witness_PointsRun_siteWaitEnd :
    (state_PointsRun_siteWaitEnd.figAt (5 : Nat)).flight = some ({ index := 7, entry := 0x80#256, state := .placed, mtStart := 0, settleMt := 0, ticks := 0, dwellEnded := false, waited := 0, flags := 0, top := false, topTicks := 0 } : Flight) ∧ ({ index := 7, entry := 0x80#256, state := .placed, mtStart := 0, settleMt := 0, ticks := 0, dwellEnded := false, waited := 0, flags := 0, top := false, topTicks := 0 } : Flight).state = .placed ∧ state_PointsRun_siteWaitEnd.members (5 : Nat) ≠ [] ∧ ((∀ p ∈ state_PointsRun_siteWaitEnd.members (5 : Nat), (state_PointsRun_siteWaitEnd.spAt p).force.siteNext = none ∧ (state_PointsRun_siteWaitEnd.spAt p).force.siteWait = 0 ∧ (state_PointsRun_siteWaitEnd.spAt p).force.win = none ∧ atSafe (state_PointsRun_siteWaitEnd.spAt p).force = true)) := by
  decide +kernel

/-- The state of the witness below. -/
def state_PointsRun_apertureOpen : State :=
  { placed with fig := [(5, { Fig.init with enabled := true, apWait := some ⟨0, 1, 0xFFFF, none, none, false, 0, false, [], 0, false, false, false, false, false, false, 0⟩ })] }

theorem witness_PointsRun_apertureOpen :
    (state_PointsRun_apertureOpen.figAt (5 : Nat)).apWait = some (⟨0, 1, 0xFFFF, none, none, false, 0, false, [], 0, false, false, false, false, false, false, 0⟩ : Aperture) ∧ (state_PointsRun_apertureOpen.figAt (5 : Nat)).apOpen = none ∧ (state_PointsRun_apertureOpen.rst.ctrlUp = true ∧ state_PointsRun_apertureOpen.rst.dataUp = true) ∧ state_PointsRun_apertureOpen.swapFirst = false ∧ state_PointsRun_apertureOpen.apDue (5 : Nat) (⟨0, 1, 0xFFFF, none, none, false, 0, false, [], 0, false, false, false, false, false, false, 0⟩ : Aperture) = true ∧ state_PointsRun_apertureOpen.apClear (5 : Nat) = true := by
  decide +kernel

/-- The state of the witness below. -/
def state_PointsRun_apertureClose : State :=
  { placed with fig := [(5, { Fig.init with enabled := true, apOpen := some ⟨0, 1, 0xFFFF, some 0, some 0xFFFFFFFF, false, 0, false, [0], 0, false, false, false, false, false, false, 0⟩ })], mt := { placed.mt with mt := 0xFFFFFFFF } }

theorem witness_PointsRun_apertureClose :
    (state_PointsRun_apertureClose.figAt (5 : Nat)).apOpen = some (⟨0, 1, 0xFFFF, some 0, some 0xFFFFFFFF, false, 0, false, [0], 0, false, false, false, false, false, false, 0⟩ : Aperture) ∧ (state_PointsRun_apertureClose.rst.ctrlUp = true ∧ state_PointsRun_apertureClose.rst.dataUp = true) ∧ apOver (⟨0, 1, 0xFFFF, some 0, some 0xFFFFFFFF, false, 0, false, [0], 0, false, false, false, false, false, false, 0⟩ : Aperture) state_PointsRun_apertureClose.mt.mt = true := by
  decide +kernel

/-- The state of the witness below. -/
def state_PointsRun_apertureClose_2 : State :=
  { placed with fig := [(5, { Fig.init with enabled := true, apOpen := some ⟨0, 1, 0xFFFF, some 0, some 0xFFFFFFFF, false, 0, false, [0], 0, false, false, false, false, false, false, 0⟩, flight := some { index := 0xFFFF, entry := 0x1000080#256, state := .aperture, mtStart := 0, settleMt := 0, ticks := 0, dwellEnded := false, waited := 0, flags := 0, top := false, topTicks := 0 } })], mt := { placed.mt with mt := 0xFFFFFFFF } }

theorem witness_PointsRun_apertureClose_2 :
    (state_PointsRun_apertureClose_2.figAt (5 : Nat)).apOpen = some (⟨0, 1, 0xFFFF, some 0, some 0xFFFFFFFF, false, 0, false, [0], 0, false, false, false, false, false, false, 0⟩ : Aperture) ∧ (state_PointsRun_apertureClose_2.rst.ctrlUp = true ∧ state_PointsRun_apertureClose_2.rst.dataUp = true) ∧ apOver (⟨0, 1, 0xFFFF, some 0, some 0xFFFFFFFF, false, 0, false, [0], 0, false, false, false, false, false, false, 0⟩ : Aperture) state_PointsRun_apertureClose_2.mt.mt = true := by
  decide +kernel

/-- The state of the witness below. -/
def state_QueuesPopAndDrop_quePop : State :=
  { live with que := { live.que with q := [(64, { Queue.init with pkts := [{ Packet.init with qid := 64, seq := 4, payload := [1, 2, 3] }] })] } }

theorem witness_QueuesPopAndDrop_quePop :
    Accepts state_QueuesPopAndDrop_quePop req 0x0701 { needs := [5] } ∧ 48 ≤ req.outLen ∧ streamOk (64 : Nat) = true ∧ (1 ≤ (2 : Nat) ∧ (2 : Nat) ≤ 66) ∧ state_QueuesPopAndDrop_quePop.boundTo (64 : Nat) = none ∧ (state_QueuesPopAndDrop_quePop.queAt (64 : Nat)).pkts = ({ Packet.init with qid := 64, seq := 4, payload := [1, 2, 3] } : Packet) :: ([] : List Packet) ∧ (2 : Nat) ≤ (req.outLen - 40) / 8 ∧ (state_QueuesPopAndDrop_quePop.queAt (64 : Nat)).pos + (2 : Nat) < ({ Packet.init with qid := 64, seq := 4, payload := [1, 2, 3] } : Packet).words := by
  decide +kernel

/-- The state of the witness below. -/
def state_QueuesPopAndDrop_quePop_2 : State :=
  { live with que := { live.que with q := [(64, { Queue.init with pkts := [{ Packet.init with qid := 64, seq := 4, payload := [1, 2, 3] }], pos := 3 })] } }

theorem witness_QueuesPopAndDrop_quePop_2 :
    Accepts state_QueuesPopAndDrop_quePop_2 req 0x0701 { needs := [5] } ∧ 48 ≤ req.outLen ∧ streamOk (64 : Nat) = true ∧ (1 ≤ (2 : Nat) ∧ (2 : Nat) ≤ 66) ∧ state_QueuesPopAndDrop_quePop_2.boundTo (64 : Nat) = none ∧ (state_QueuesPopAndDrop_quePop_2.queAt (64 : Nat)).pkts = ({ Packet.init with qid := 64, seq := 4, payload := [1, 2, 3] } : Packet) :: ([] : List Packet) ∧ (2 : Nat) ≤ (req.outLen - 40) / 8 ∧ (state_QueuesPopAndDrop_quePop_2.queAt (64 : Nat)).pos < ({ Packet.init with qid := 64, seq := 4, payload := [1, 2, 3] } : Packet).words ∧ ({ Packet.init with qid := 64, seq := 4, payload := [1, 2, 3] } : Packet).words ≤ (state_QueuesPopAndDrop_quePop_2.queAt (64 : Nat)).pos + (2 : Nat) := by
  decide +kernel

theorem witness_QueuesPopAndDrop_quePop_3 :
    Accepts live req 0x0701 { needs := [5] } ∧ 48 ≤ req.outLen ∧ streamOk (64 : Nat) = true ∧ (1 ≤ (66 : Nat) ∧ (66 : Nat) ≤ 66) ∧ live.boundTo (64 : Nat) = none ∧ (live.queAt (64 : Nat)).pkts = [] := by
  decide +kernel

/-- The state of the witness below. -/
def state_QueuesPopAndDrop_queDropRest : State :=
  { live with que := { live.que with q := [(64, { Queue.init with pkts := [{ Packet.init with qid := 64, seq := 4, payload := [1, 2, 3] }], pos := 3 })] } }

theorem witness_QueuesPopAndDrop_queDropRest :
    Accepts state_QueuesPopAndDrop_queDropRest req 0x0702 { needs := [5] } ∧ streamOk (64 : Nat) = true ∧ state_QueuesPopAndDrop_queDropRest.boundTo (64 : Nat) = none ∧ (state_QueuesPopAndDrop_queDropRest.queAt (64 : Nat)).pkts = ({ Packet.init with qid := 64, seq := 4, payload := [1, 2, 3] } : Packet) :: ([] : List Packet) ∧ (state_QueuesPopAndDrop_queDropRest.queAt (64 : Nat)).pos ≠ 0 := by
  decide +kernel

theorem witness_QueuesPopAndDrop_queStatusRead :
    Accepts live req 0x0706 {} ∧ (262143 : Nat) < 262144 ∧ ((1 : Nat) ≠ 0 ∧ (1 : Nat) ≤ 64 ∧ (262143 : Nat) + (1 : Nat) ≤ 262144) := by
  decide +kernel

/-- The state of the witness below. -/
def state_QueuesFlushCreditAndCommit_queFlush : State :=
  { live with que := { live.que with q := [(64, { Queue.init with pos := 0 })] } }

theorem witness_QueuesFlushCreditAndCommit_queFlush :
    Accepts state_QueuesFlushCreditAndCommit_queFlush req 0x0703 { long := true, needs := [5] } ∧ (((1 : Nat) = 0 ∧ streamOk (1 : Nat) = true) ∨ ((1 : Nat) = 1 ∧ (1 : Nat) < 4096) ∨ ((1 : Nat) = 2 ∧ (1 : Nat) = 0)) ∧ state_QueuesFlushCreditAndCommit_queFlush.flushScope (1 : Nat) (1 : Nat) ≠ [] := by
  decide +kernel

theorem witness_QueuesFlushCreditAndCommit_queFlush_2 :
    Accepts live req 0x0703 { long := true, needs := [5] } ∧ (((2 : Nat) = 0 ∧ streamOk (0 : Nat) = true) ∨ ((2 : Nat) = 1 ∧ (0 : Nat) < 4096) ∨ ((2 : Nat) = 2 ∧ (0 : Nat) = 0)) ∧ live.flushScope (2 : Nat) (0 : Nat) = [] := by
  decide +kernel

/-- The state of the witness below. -/
def state_QueuesFlushCreditAndCommit_flushPoint : State :=
  { live with que := { live.que with q := [(64, { Queue.init with pkts := [{ Packet.init with qid := 64, seq := 4, payload := [1, 2, 3] }] })], flushes := [⟨0, 9, [64], 0, 0⟩] } }

theorem witness_QueuesFlushCreditAndCommit_flushPoint :
    state_QueuesFlushCreditAndCommit_flushPoint.rst.dataUp = true ∧ state_QueuesFlushCreditAndCommit_flushPoint.que.flushes.any (fun x => x.left.contains (64 : Nat)) = true := by
  decide +kernel

/-- The state of the witness below. -/
def state_QueuesFlushCreditAndCommit_flushPoint_2 : State :=
  { live with que := { live.que with q := [(64, { Queue.init with pkts := [{ Packet.init with qid := 64, seq := 4, payload := [1, 2, 3] }] })], flushes := [⟨0, 9, [64], 0, 0⟩] }, host := { live.host with outst := [⟨0, false, 0x0703, 9, 0, 0, 0, 0, 0, 0⟩] } }

theorem witness_QueuesFlushCreditAndCommit_flushPoint_2 :
    state_QueuesFlushCreditAndCommit_flushPoint_2.rst.dataUp = true ∧ state_QueuesFlushCreditAndCommit_flushPoint_2.que.flushes.any (fun x => x.left.contains (64 : Nat)) = true ∧ (flushPassed state_QueuesFlushCreditAndCommit_flushPoint_2 (64 : Nat)).filter (fun x => x.left.isEmpty) = [(⟨0, 9, [], 1, 0⟩ : FlushRun)] ∧ state_QueuesFlushCreditAndCommit_flushPoint_2.host.outst.find? (fun x => x.opcode == 0x0703 && x.mbx == (⟨0, 9, [], 1, 0⟩ : FlushRun).mbx && x.tag == (⟨0, 9, [], 1, 0⟩ : FlushRun).tag) = some (⟨0, false, 0x0703, 9, 0, 0, 0, 0, 0, 0⟩ : Outstanding) := by
  decide +kernel

/-- The state of the witness below. -/
def state_QueuesFlushCreditAndCommit_queCredit : State :=
  { live with host := { live.host with hdr := [(0, { Hdr.init with state := .opened, bound := [64] })] } }

theorem witness_QueuesFlushCreditAndCommit_queCredit :
    Accepts state_QueuesFlushCreditAndCommit_queCredit req 0x0704 { needs := [5] } ∧ streamOk (64 : Nat) = true ∧ ((4294967295 : Nat) ≠ 0 ∧ (4294967295 : Nat) < 2 ^ 32) ∧ (state_QueuesFlushCreditAndCommit_queCredit.boundTo (64 : Nat)).isSome = true := by
  decide +kernel

theorem witness_QueuesFlushCreditAndCommit_quePush :
    Accepts placed req 0x0705 { needs := [5] } ∧ ((383 : Nat) < 262144 ∧ 16 ≤ qidStream (383 : Nat)) ∧ (([7] : List DWord) ≠ [] ∧ ([7] : List DWord).length ≤ 64) ∧ placed.defined (qidFig (383 : Nat)) = true := by
  decide +kernel

/-- The state of the witness below. -/
def state_QueuesFlushCreditAndCommit_packetCommit : State :=
  { live with que := { live.que with q := [(324, { Queue.init with due := [⟨0, 0, [5], none, none, false⟩], ringLog2 := 12 })] } }

theorem witness_QueuesFlushCreditAndCommit_packetCommit :
    state_QueuesFlushCreditAndCommit_packetCommit.rst.dataUp = true ∧ (state_QueuesFlushCreditAndCommit_packetCommit.queAt (324 : Nat)).due = (⟨0, 0, [5], none, none, false⟩ : Building) :: ([] : List Building) := by
  decide +kernel

/-- The state of the witness below. -/
def state_QueuesFlushCreditAndCommit_packetCommit_2 : State :=
  { live with que := { live.que with q := [(324, { Queue.init with due := [⟨0, 0, [5], none, some ⟨5, 0, 9, true, false, 3, 4, 1⟩, false⟩], ringLog2 := 12 })] }, host := { live.host with outst := [⟨0, false, 0x0C06, 9, 0, 0, 0, 0, 0, 0⟩] } }

theorem witness_QueuesFlushCreditAndCommit_packetCommit_2 :
    state_QueuesFlushCreditAndCommit_packetCommit_2.rst.dataUp = true ∧ (state_QueuesFlushCreditAndCommit_packetCommit_2.queAt (324 : Nat)).due = (⟨0, 0, [5], none, some ⟨5, 0, 9, true, false, 3, 4, 1⟩, false⟩ : Building) :: ([] : List Building) ∧ (⟨0, 0, [5], none, some ⟨5, 0, 9, true, false, 3, 4, 1⟩, false⟩ : Building).tuned = some (⟨5, 0, 9, true, false, 3, 4, 1⟩ : TuneNote) ∧ state_QueuesFlushCreditAndCommit_packetCommit_2.host.outst.find? (fun x => x.opcode == 0x0C06 && x.mbx == (⟨5, 0, 9, true, false, 3, 4, 1⟩ : TuneNote).mbx && x.tag == (⟨5, 0, 9, true, false, 3, 4, 1⟩ : TuneNote).tag) = some (⟨0, false, 0x0C06, 9, 0, 0, 0, 0, 0, 0⟩ : Outstanding) := by
  decide +kernel

/-- The state of the witness below. -/
def state_QueuesFlushCreditAndCommit_packetCommit_3 : State :=
  { live with que := { live.que with q := [(324, { Queue.init with due := [⟨0, 0, [5], none, none, false⟩], ringLog2 := 12 })] } }

theorem witness_QueuesFlushCreditAndCommit_packetCommit_3 :
    state_QueuesFlushCreditAndCommit_packetCommit_3.rst.dataUp = true ∧ (state_QueuesFlushCreditAndCommit_packetCommit_3.queAt (324 : Nat)).due = (⟨0, 0, [5], none, none, false⟩ : Building) :: ([] : List Building) := by
  decide +kernel

/-- The state of the witness below. -/
def state_MireCommands_mireRead : State :=
  { live with sto := { live.sto with state := .ready, formatted := true, own := true, targets := [(0, { Target.init with fitted := true, healthy := true, luns := 1, blocks := 100, pagesPerBlock := 64, block := 5, written := 1, used := [5] })], log := [{ Page.init with id := 3, state := .confirmed, target := 0, block := 5, logSeq := 8, pkts := [{ Packet.init with qid := 64, seq := 4, payload := [1] }] }] }, host := { live.host with hdr := [(0, { Hdr.init with state := .opened })] } }

theorem witness_MireCommands_mireRead :
    Accepts state_MireCommands_mireRead req 0x0801 { long := true, needs := [7] } ∧ state_MireCommands_mireRead.mireReady = true ∧ streamOk (64 : Nat) = true ∧ ((1 : Nat) ≠ 0 ∧ (1 : Nat) ≤ 16777216) ∧ (0 : Nat) < 64 ∧ (state_MireCommands_mireRead.hdrAt (0 : Nat)).state = .opened ∧ state_MireCommands_mireRead.sto.reads.length < 16 ∧ state_MireCommands_mireRead.sto.state ≠ .commit ∧ state_MireCommands_mireRead.sto.held (64 : Nat) (4 : Word) (1 : Nat) ≠ [] := by
  decide +kernel

/-- The state of the witness below. -/
def state_MireCommands_mireRead_2 : State :=
  { live with sto := { live.sto with state := .ready, formatted := true, own := true, targets := [(0, { Target.init with fitted := true, healthy := true, luns := 1, blocks := 100, pagesPerBlock := 64, block := 5, written := 1, used := [5] })], log := [], lostPkts := [(64, 5)] }, host := { live.host with hdr := [(0, { Hdr.init with state := .opened })] } }

theorem witness_MireCommands_mireRead_2 :
    Accepts state_MireCommands_mireRead_2 req 0x0801 { long := true, needs := [7] } ∧ state_MireCommands_mireRead_2.mireReady = true ∧ streamOk (64 : Nat) = true ∧ ((9 : Nat) ≠ 0 ∧ (9 : Nat) ≤ 16777216) ∧ (0 : Nat) < 64 ∧ (state_MireCommands_mireRead_2.hdrAt (0 : Nat)).state = .opened ∧ state_MireCommands_mireRead_2.sto.reads.length < 16 ∧ state_MireCommands_mireRead_2.sto.state ≠ .commit ∧ state_MireCommands_mireRead_2.sto.held (64 : Nat) (4 : Word) (9 : Nat) = [] := by
  decide +kernel

/-- The state of the witness below. -/
def state_MireCommands_mireRelease : State :=
  { live with sto := { live.sto with state := .ready, formatted := true, own := true, targets := [(0, { Target.init with fitted := true, healthy := true, luns := 1, blocks := 100, pagesPerBlock := 64, block := 5, written := 1, used := [5] })], log := [{ Page.init with id := 3, state := .confirmed, target := 0, block := 5, logSeq := 8, pkts := [{ Packet.init with qid := 64, seq := 4, payload := [1] }] }] } }

theorem witness_MireCommands_mireRelease :
    Accepts state_MireCommands_mireRelease req 0x0802 { needs := [7] } ∧ state_MireCommands_mireRelease.mireReady = true ∧ streamOk (64 : Nat) = true := by
  decide +kernel

/-- The state of the witness below. -/
def state_MireCommands_mireRelease_2 : State :=
  { live with sto := { live.sto with state := .ready, formatted := true, own := true, targets := [(0, { Target.init with fitted := true, healthy := true, luns := 1, blocks := 100, pagesPerBlock := 64, block := 5, written := 1, used := [5] })], log := [{ Page.init with id := 3, state := .confirmed, target := 0, block := 5, logSeq := 8, pkts := [{ Packet.init with qid := 64, seq := 4, payload := [1] }] }] } }

theorem witness_MireCommands_mireRelease_2 :
    Accepts state_MireCommands_mireRelease_2 req 0x0802 { needs := [7] } ∧ state_MireCommands_mireRelease_2.mireReady = true := by
  decide +kernel

/-- The state of the witness below. -/
def state_MireCommands_mireQuery : State :=
  { live with sto := { live.sto with state := .ready, formatted := true, own := true, targets := [(0, { Target.init with fitted := true, healthy := true, luns := 1, blocks := 100, pagesPerBlock := 64, block := 5, written := 1, used := [5] })], log := [{ Page.init with id := 3, state := .confirmed, target := 0, block := 5, logSeq := 8, pkts := [{ Packet.init with qid := 64, seq := 4, payload := [1] }] }] } }

theorem witness_MireCommands_mireQuery :
    Accepts state_MireCommands_mireQuery req 0x0803 { needs := [7] } ∧ state_MireCommands_mireQuery.mireReady = true ∧ streamOk (64 : Nat) = true := by
  decide +kernel

/-- The state of the witness below. -/
def state_MireCommands_mireFormat : State :=
  { live with sto := { live.sto with state := .ready, formatted := true, own := true, targets := [(0, { Target.init with fitted := true, healthy := true, luns := 1, blocks := 100, pagesPerBlock := 64, block := 5, written := 1, used := [5] })], log := [] } }

theorem witness_MireCommands_mireFormat :
    Accepts state_MireCommands_mireFormat req 0x0804 { long := true, needs := [7] } ∧ (state_MireCommands_mireFormat.sto.state = .ready ∨ state_MireCommands_mireFormat.sto.state = .unformatted ∨ state_MireCommands_mireFormat.sto.state = .failed) ∧ state_MireCommands_mireFormat.sto.staged = 0 ∧ state_MireCommands_mireFormat.sto.reads = [] ∧ state_MireCommands_mireFormat.sets.cast.figs.all (fun f => state_MireCommands_mireFormat.castN 0x400 f != 1 || state_MireCommands_mireFormat.castN 0x413 f == 0) = true ∧ state_MireCommands_mireFormat.sto.targets.any (fun e => e.2.fitted && e.2.blocks != 0) = true := by
  decide +kernel

/-- The state of the witness below. -/
def state_MireCommands_mireFormat_2 : State :=
  { live with sto := { live.sto with state := .ready, formatted := true, own := true, targets := [], log := [] } }

theorem witness_MireCommands_mireFormat_2 :
    Accepts state_MireCommands_mireFormat_2 req 0x0804 { long := true, needs := [7] } ∧ (state_MireCommands_mireFormat_2.sto.state = .ready ∨ state_MireCommands_mireFormat_2.sto.state = .unformatted ∨ state_MireCommands_mireFormat_2.sto.state = .failed) ∧ state_MireCommands_mireFormat_2.sto.staged = 0 ∧ state_MireCommands_mireFormat_2.sto.reads = [] ∧ state_MireCommands_mireFormat_2.sets.cast.figs.all (fun f => state_MireCommands_mireFormat_2.castN 0x400 f != 1 || state_MireCommands_mireFormat_2.castN 0x413 f == 0) = true ∧ state_MireCommands_mireFormat_2.sto.targets.all (fun e => !e.2.fitted || e.2.blocks == 0) = true ∧ state_MireCommands_mireFormat_2.host.outst.any (fun o => o.opcode == 0x0804) = false := by
  decide +kernel

/-- The state of the witness below. -/
def state_MireCommands_mireStatusRead : State :=
  { live with sto := { live.sto with state := .ready, formatted := true, own := true, targets := [(0, { Target.init with fitted := true, healthy := true, luns := 1, blocks := 100, pagesPerBlock := 64, block := 5, written := 1, used := [5] })], log := [{ Page.init with id := 3, state := .confirmed, target := 0, block := 5, logSeq := 8, pkts := [{ Packet.init with qid := 64, seq := 4, payload := [1] }] }] } }

theorem witness_MireCommands_mireStatusRead :
    Accepts state_MireCommands_mireStatusRead req 0x0805 {} := by
  decide +kernel

/-- The state of the witness below. -/
def state_MireCommands_mireTargetRetire : State :=
  { live with sto := { live.sto with state := .ready, formatted := true, own := true, targets := [(0, { Target.init with fitted := true, healthy := true, luns := 1, blocks := 100, pagesPerBlock := 64, block := 5, written := 1, used := [5] })], log := [{ Page.init with id := 3, state := .confirmed, target := 0, block := 5, logSeq := 8, pkts := [{ Packet.init with qid := 64, seq := 4, payload := [1] }] }] } }

theorem witness_MireCommands_mireTargetRetire :
    Accepts state_MireCommands_mireTargetRetire req 0x0806 { needs := [7] } ∧ state_MireCommands_mireTargetRetire.mireReady = true ∧ ((0 : Nat) < 4 ∧ (0 : Nat) < 8) ∧ (state_MireCommands_mireTargetRetire.targetAt (8 * (0 : Nat) + (0 : Nat))).fitted = true ∧ (state_MireCommands_mireTargetRetire.targetAt (8 * (0 : Nat) + (0 : Nat))).retired = false := by
  decide +kernel

/-- The state of the witness below. -/
def state_MireCommands_mireTargetRetire_2 : State :=
  { live with sto := { live.sto with state := .ready, formatted := true, own := true, targets := [(0, { Target.init with fitted := true, retired := true })], log := [{ Page.init with id := 3, state := .confirmed, target := 0, block := 5, logSeq := 8, pkts := [{ Packet.init with qid := 64, seq := 4, payload := [1] }] }] } }

theorem witness_MireCommands_mireTargetRetire_2 :
    Accepts state_MireCommands_mireTargetRetire_2 req 0x0806 { needs := [7] } ∧ state_MireCommands_mireTargetRetire_2.mireReady = true ∧ ((0 : Nat) < 4 ∧ (0 : Nat) < 8) ∧ (state_MireCommands_mireTargetRetire_2.targetAt (8 * (0 : Nat) + (0 : Nat))).fitted = true ∧ (state_MireCommands_mireTargetRetire_2.targetAt (8 * (0 : Nat) + (0 : Nat))).retired = true := by
  decide +kernel

/-- The state of the witness below. -/
def state_DrainsProgramConfirmAndRecover_pageBufferClose : State :=
  { live with sto := { live.sto with state := .ready, formatted := true, own := true, targets := [(0, { Target.init with fitted := true, healthy := true, luns := 1, blocks := 100, pagesPerBlock := 64, block := 5, written := 1, used := [5] })], pages := [{ Page.init with id := 3, state := .opened, target := 0, block := 5, logSeq := 8, pkts := [{ Packet.init with qid := 64, seq := 4, payload := [1] }] }] } }

theorem witness_DrainsProgramConfirmAndRecover_pageBufferClose :
    state_DrainsProgramConfirmAndRecover_pageBufferClose.rst.dataUp = true ∧ state_DrainsProgramConfirmAndRecover_pageBufferClose.sto.pages.any (fun p => p.id == (3 : Nat) && p.state == .opened) = true := by
  decide +kernel

/-- The state of the witness below. -/
def state_DrainsProgramConfirmAndRecover_nandOpStart : State :=
  { live with sto := { live.sto with state := .ready, formatted := true, own := true, targets := [(0, { Target.init with fitted := true, healthy := true, luns := 1, blocks := 100, pagesPerBlock := 64, block := 5, written := 1, used := [5] })], ops := [⟨.read, 2, 0, 8, false, false⟩] } }

theorem witness_DrainsProgramConfirmAndRecover_nandOpStart :
    state_DrainsProgramConfirmAndRecover_nandOpStart.translates = true ∧ tget 0 state_DrainsProgramConfirmAndRecover_nandOpStart.sto.drainReset (0 : Nat) ≤ state_DrainsProgramConfirmAndRecover_nandOpStart.clk ∧ state_DrainsProgramConfirmAndRecover_nandOpStart.choose (0 : Nat) = some (.op (⟨.read, 2, 0, 8, false, false⟩ : NandOp)) ∧ (⟨.read, 2, 0, 8, false, false⟩ : NandOp).prio ≠ 0 := by
  decide +kernel

/-- The state of the witness below. -/
def state_DrainsProgramConfirmAndRecover_nandOpStart_2 : State :=
  { live with sto := { live.sto with state := .ready, formatted := true, own := true, targets := [(0, { Target.init with fitted := true, healthy := true, luns := 1, blocks := 100, pagesPerBlock := 64, block := 5, written := 1, used := [5] })], pages := [{ Page.init with id := 3, state := .queued, target := 0, block := 5, logSeq := 8, pkts := [{ Packet.init with qid := 64, seq := 4, payload := [1] }], prio := 1 }] } }

theorem witness_DrainsProgramConfirmAndRecover_nandOpStart_2 :
    state_DrainsProgramConfirmAndRecover_nandOpStart_2.translates = true ∧ tget 0 state_DrainsProgramConfirmAndRecover_nandOpStart_2.sto.drainReset (0 : Nat) ≤ state_DrainsProgramConfirmAndRecover_nandOpStart_2.clk ∧ state_DrainsProgramConfirmAndRecover_nandOpStart_2.choose (0 : Nat) = some (.page ({ Page.init with id := 3, state := .queued, target := 0, block := 5, logSeq := 8, pkts := [{ Packet.init with qid := 64, seq := 4, payload := [1] }], prio := 1 } : Page) (0 : Nat)) ∧ ({ Page.init with id := 3, state := .queued, target := 0, block := 5, logSeq := 8, pkts := [{ Packet.init with qid := 64, seq := 4, payload := [1] }], prio := 1 } : Page).prio ≠ 0 := by
  decide +kernel

/-- The state of the witness below. -/
def state_DrainsProgramConfirmAndRecover_nandOpStart_3 : State :=
  { live with sto := { live.sto with state := .ready, formatted := true, own := true, targets := [(0, { Target.init with fitted := true, healthy := true, luns := 1, blocks := 100, pagesPerBlock := 64, block := 5, written := 1, used := [5] }), (1, { Target.init with fitted := true, healthy := true, luns := 1, blocks := 100, pagesPerBlock := 64, block := 5, written := 1, used := [5] })], pages := [{ Page.init with id := 3, state := .queued, target := 0, block := 5, logSeq := 8, pkts := [{ Packet.init with qid := 64, seq := 4, payload := [1] }], prio := 0 }], ops := [⟨.read, 2, 0, 9, true, false⟩] } }

theorem witness_DrainsProgramConfirmAndRecover_nandOpStart_3 :
    state_DrainsProgramConfirmAndRecover_nandOpStart_3.translates = true ∧ tget 0 state_DrainsProgramConfirmAndRecover_nandOpStart_3.sto.drainReset (0 : Nat) ≤ state_DrainsProgramConfirmAndRecover_nandOpStart_3.clk ∧ state_DrainsProgramConfirmAndRecover_nandOpStart_3.choose (0 : Nat) = some (.page ({ Page.init with id := 3, state := .queued, target := 0, block := 5, logSeq := 8, pkts := [{ Packet.init with qid := 64, seq := 4, payload := [1] }], prio := 0 } : Page) (1 : Nat)) ∧ ({ Page.init with id := 3, state := .queued, target := 0, block := 5, logSeq := 8, pkts := [{ Packet.init with qid := 64, seq := 4, payload := [1] }], prio := 0 } : Page).prio = 0 := by
  decide +kernel

/-- The state of the witness below. -/
def state_DrainsProgramConfirmAndRecover_programStatus : State :=
  { live with sto := { live.sto with state := .ready, formatted := true, own := true, targets := [(0, { Target.init with fitted := true, healthy := true, luns := 1, blocks := 100, pagesPerBlock := 64, block := 5, written := 1, used := [5] })], pages := [{ Page.init with id := 3, state := .programming, target := 0, block := 5, logSeq := 8, pkts := [{ Packet.init with qid := 64, seq := 4, payload := [1] }] }], ops := [⟨.program, 1, 0, 3, true, false⟩] } }

theorem witness_DrainsProgramConfirmAndRecover_programStatus :
    state_DrainsProgramConfirmAndRecover_programStatus.rst.dataUp = true ∧ (0 : Nat) ∉ state_DrainsProgramConfirmAndRecover_programStatus.sto.cutOps ∧ state_DrainsProgramConfirmAndRecover_programStatus.sto.running (0 : Nat) = some (⟨.program, 1, 0, 3, true, false⟩ : NandOp) ∧ (⟨.program, 1, 0, 3, true, false⟩ : NandOp).kind = .program ∧ state_DrainsProgramConfirmAndRecover_programStatus.sto.pages.find? (fun x => x.id == (⟨.program, 1, 0, 3, true, false⟩ : NandOp).obj) = some ({ Page.init with id := 3, state := .programming, target := 0, block := 5, logSeq := 8, pkts := [{ Packet.init with qid := 64, seq := 4, payload := [1] }] } : Page) := by
  decide +kernel

/-- The state of the witness below. -/
def state_DrainsProgramConfirmAndRecover_programStatus_2 : State :=
  { live with sto := { live.sto with state := .ready, formatted := true, own := true, targets := [(0, { Target.init with fitted := true, healthy := true, luns := 1, blocks := 100, pagesPerBlock := 64, block := 5, written := 1, used := [5] })], pages := [{ Page.init with id := 3, state := .programming, target := 0, block := 5, logSeq := 8, pkts := [{ Packet.init with qid := 64, seq := 4, payload := [1] }] }], ops := [⟨.program, 1, 0, 3, true, false⟩] } }

theorem witness_DrainsProgramConfirmAndRecover_programStatus_2 :
    state_DrainsProgramConfirmAndRecover_programStatus_2.rst.dataUp = true ∧ (0 : Nat) ∉ state_DrainsProgramConfirmAndRecover_programStatus_2.sto.cutOps ∧ state_DrainsProgramConfirmAndRecover_programStatus_2.sto.running (0 : Nat) = some (⟨.program, 1, 0, 3, true, false⟩ : NandOp) ∧ (⟨.program, 1, 0, 3, true, false⟩ : NandOp).kind = .program ∧ state_DrainsProgramConfirmAndRecover_programStatus_2.sto.pages.find? (fun x => x.id == (⟨.program, 1, 0, 3, true, false⟩ : NandOp).obj) = some ({ Page.init with id := 3, state := .programming, target := 0, block := 5, logSeq := 8, pkts := [{ Packet.init with qid := 64, seq := 4, payload := [1] }] } : Page) := by
  decide +kernel

/-- The state of the witness below. -/
def state_DrainsProgramConfirmAndRecover_programStatus_3 : State :=
  { live with sto := { live.sto with state := .ready, formatted := true, own := true, targets := [(0, { Target.init with fitted := true, healthy := true, luns := 1, blocks := 100, pagesPerBlock := 64, block := 5, written := 1, used := [5] })], cutOps := [0] } }

theorem witness_DrainsProgramConfirmAndRecover_programStatus_3 :
    (0 : Nat) ∈ state_DrainsProgramConfirmAndRecover_programStatus_3.sto.cutOps := by
  decide +kernel

/-- The state of the witness below. -/
def state_DrainsProgramConfirmAndRecover_eraseStatus : State :=
  { live with sto := { live.sto with state := .ready, formatted := true, own := true, targets := [(0, { Target.init with fitted := true, healthy := true, luns := 1, blocks := 100, pagesPerBlock := 64, block := 5, written := 1, used := [5] })], ops := [⟨.erase, 3, 0, 5, true, false⟩] } }

theorem witness_DrainsProgramConfirmAndRecover_eraseStatus :
    state_DrainsProgramConfirmAndRecover_eraseStatus.rst.dataUp = true ∧ state_DrainsProgramConfirmAndRecover_eraseStatus.sto.state ≠ .formatting ∧ state_DrainsProgramConfirmAndRecover_eraseStatus.sto.running (0 : Nat) = some (⟨.erase, 3, 0, 5, true, false⟩ : NandOp) ∧ (⟨.erase, 3, 0, 5, true, false⟩ : NandOp).kind = .erase := by
  decide +kernel

/-- The state of the witness below. -/
def state_DrainsProgramConfirmAndRecover_eraseStatus_2 : State :=
  { live with sto := { live.sto with state := .ready, formatted := true, own := true, targets := [(0, { Target.init with fitted := true, healthy := true, luns := 1, blocks := 100, pagesPerBlock := 64, block := 5, written := 1, used := [5] })], ops := [⟨.erase, 3, 0, 5, true, false⟩] } }

theorem witness_DrainsProgramConfirmAndRecover_eraseStatus_2 :
    state_DrainsProgramConfirmAndRecover_eraseStatus_2.rst.dataUp = true ∧ state_DrainsProgramConfirmAndRecover_eraseStatus_2.sto.state ≠ .formatting ∧ state_DrainsProgramConfirmAndRecover_eraseStatus_2.sto.running (0 : Nat) = some (⟨.erase, 3, 0, 5, true, false⟩ : NandOp) ∧ (⟨.erase, 3, 0, 5, true, false⟩ : NandOp).kind = .erase := by
  decide +kernel

/-- The state of the witness below. -/
def state_DrainsProgramConfirmAndRecover_eraseStatus_3 : State :=
  { live with sto := { live.sto with state := .formatting, targets := [(0, { Target.init with fitted := true, blocks := 2, fmtNext := 1 }), (1, { Target.init with fitted := true, blocks := 2, fmtNext := 1 })] } }

theorem witness_DrainsProgramConfirmAndRecover_eraseStatus_3 :
    state_DrainsProgramConfirmAndRecover_eraseStatus_3.sto.state = .formatting ∧ (state_DrainsProgramConfirmAndRecover_eraseStatus_3.targetAt (0 : Nat)).fitted = true ∧ (state_DrainsProgramConfirmAndRecover_eraseStatus_3.targetAt (0 : Nat)).fmtNext < (state_DrainsProgramConfirmAndRecover_eraseStatus_3.targetAt (0 : Nat)).blocks ∧ (tput state_DrainsProgramConfirmAndRecover_eraseStatus_3.sto.targets (0 : Nat) ((state_DrainsProgramConfirmAndRecover_eraseStatus_3.targetAt (0 : Nat)).formatBlock false)).all (fun e => !e.2.fitted || decide (e.2.blocks ≤ e.2.fmtNext)) = false := by
  decide +kernel

/-- The state of the witness below. -/
def state_DrainsProgramConfirmAndRecover_eraseStatus_4 : State :=
  { live with sto := { live.sto with state := .formatting, targets := [(0, { Target.init with fitted := true, blocks := 2, fmtNext := 2 }), (1, { Target.init with fitted := true, blocks := 2, fmtNext := 1 })] }, host := { live.host with outst := [⟨0, false, 0x0804, 9, 0, 0, 0, 0, 0, 0⟩] } }

theorem witness_DrainsProgramConfirmAndRecover_eraseStatus_4 :
    state_DrainsProgramConfirmAndRecover_eraseStatus_4.sto.state = .formatting ∧ (state_DrainsProgramConfirmAndRecover_eraseStatus_4.targetAt (1 : Nat)).fitted = true ∧ (state_DrainsProgramConfirmAndRecover_eraseStatus_4.targetAt (1 : Nat)).fmtNext < (state_DrainsProgramConfirmAndRecover_eraseStatus_4.targetAt (1 : Nat)).blocks ∧ (tput state_DrainsProgramConfirmAndRecover_eraseStatus_4.sto.targets (1 : Nat) ((state_DrainsProgramConfirmAndRecover_eraseStatus_4.targetAt (1 : Nat)).formatBlock true)).all (fun e => !e.2.fitted || decide (e.2.blocks ≤ e.2.fmtNext)) = true ∧ state_DrainsProgramConfirmAndRecover_eraseStatus_4.host.outst.find? (fun x => x.opcode == 0x0804) = some (⟨0, false, 0x0804, 9, 0, 0, 0, 0, 0, 0⟩ : Outstanding) := by
  decide +kernel

/-- The state of the witness below. -/
def state_DrainsProgramConfirmAndRecover_nandReadDone : State :=
  { live with sto := { live.sto with state := .ready, formatted := true, own := true, targets := [(0, { Target.init with fitted := true, healthy := true, luns := 1, blocks := 100, pagesPerBlock := 64, block := 5, written := 1, used := [5] })], log := [{ Page.init with id := 3, state := .confirmed, target := 0, block := 5, logSeq := 8, pkts := [{ Packet.init with qid := 64, seq := 4, payload := [1] }] }], ops := [⟨.read, 2, 0, 0, true, false⟩], reads := [⟨0, 0, 64, 4, 1, 0, 0, 0, 0, 0, false, []⟩] } }

theorem witness_DrainsProgramConfirmAndRecover_nandReadDone :
    state_DrainsProgramConfirmAndRecover_nandReadDone.rst.dataUp = true ∧ state_DrainsProgramConfirmAndRecover_nandReadDone.sto.running (0 : Nat) = some (⟨.read, 2, 0, 0, true, false⟩ : NandOp) ∧ ((⟨.read, 2, 0, 0, true, false⟩ : NandOp).kind = .read ∧ (⟨.read, 2, 0, 0, true, false⟩ : NandOp).prio ≠ 3) ∧ state_DrainsProgramConfirmAndRecover_nandReadDone.sto.log.find? (fun x => x.logical == (⟨.read, 2, 0, 0, true, false⟩ : NandOp).obj) = some ({ Page.init with id := 3, state := .confirmed, target := 0, block := 5, logSeq := 8, pkts := [{ Packet.init with qid := 64, seq := 4, payload := [1] }] } : Page) ∧ ([] : List Nat).all (fun i => decide (({ Page.init with id := 3, state := .confirmed, target := 0, block := 5, logSeq := 8, pkts := [{ Packet.init with qid := 64, seq := 4, payload := [1] }] } : Page).pkts.length ≤ i)) = true := by
  decide +kernel

/-- The state of the witness below. -/
def state_DrainsProgramConfirmAndRecover_nandReadDone_2 : State :=
  { live with sto := { live.sto with state := .ready, formatted := true, own := true, targets := [(0, { Target.init with fitted := true, healthy := true, luns := 1, blocks := 100, pagesPerBlock := 64, block := 5, written := 1, used := [5] })], log := [{ Page.init with id := 3, state := .confirmed, target := 0, block := 5, logSeq := 8, pkts := [{ Packet.init with qid := 64, seq := 4, payload := [1] }] }], ops := [⟨.read, 2, 0, 0, true, false⟩], reads := [⟨0, 0, 64, 4, 1, 0, 0, 0, 0, 0, false, []⟩] } }

theorem witness_DrainsProgramConfirmAndRecover_nandReadDone_2 :
    state_DrainsProgramConfirmAndRecover_nandReadDone_2.rst.dataUp = true ∧ state_DrainsProgramConfirmAndRecover_nandReadDone_2.sto.running (0 : Nat) = some (⟨.read, 2, 0, 0, true, false⟩ : NandOp) ∧ ((⟨.read, 2, 0, 0, true, false⟩ : NandOp).kind = .read ∧ (⟨.read, 2, 0, 0, true, false⟩ : NandOp).prio ≠ 3) ∧ state_DrainsProgramConfirmAndRecover_nandReadDone_2.sto.log.find? (fun x => x.logical == (⟨.read, 2, 0, 0, true, false⟩ : NandOp).obj) = some ({ Page.init with id := 3, state := .confirmed, target := 0, block := 5, logSeq := 8, pkts := [{ Packet.init with qid := 64, seq := 4, payload := [1] }] } : Page) := by
  decide +kernel

/-- The state of the witness below. -/
def state_DrainsProgramConfirmAndRecover_targetTimeout : State :=
  { live with sto := { live.sto with state := .ready, formatted := true, own := true, targets := [(0, { Target.init with fitted := true, healthy := true, luns := 1, blocks := 100, pagesPerBlock := 64, block := 5, written := 1, used := [5] })], pages := [{ Page.init with id := 3, state := .programming, target := 0, block := 5, logSeq := 8, pkts := [{ Packet.init with qid := 64, seq := 4, payload := [1] }] }], ops := [⟨.program, 1, 0, 3, true, false⟩] } }

theorem witness_DrainsProgramConfirmAndRecover_targetTimeout :
    state_DrainsProgramConfirmAndRecover_targetTimeout.rst.dataUp = true ∧ (state_DrainsProgramConfirmAndRecover_targetTimeout.sto.running (0 : Nat)).isSome = true := by
  decide +kernel

/-- The state of the witness below. -/
def state_DrainsProgramConfirmAndRecover_channelResetEnd : State :=
  { live with sto := { live.sto with state := .ready, formatted := true, own := true, targets := [(0, { Target.init with fitted := true, healthy := true, luns := 1, blocks := 100, pagesPerBlock := 64, block := 5, written := 1, used := [5] })], chanReset := [0] } }

theorem witness_DrainsProgramConfirmAndRecover_channelResetEnd :
    (0 : Nat) ∈ state_DrainsProgramConfirmAndRecover_channelResetEnd.sto.chanReset := by
  decide +kernel

/-- The state of the witness below. -/
def state_DrainsProgramConfirmAndRecover_channelResetEnd_2 : State :=
  { live with sto := { live.sto with state := .ready, formatted := true, own := true, targets := [(0, { Target.init with fitted := true, healthy := true, luns := 1, blocks := 100, pagesPerBlock := 64, block := 5, written := 1, used := [5] })], chanReset := [0] } }

theorem witness_DrainsProgramConfirmAndRecover_channelResetEnd_2 :
    (0 : Nat) ∈ state_DrainsProgramConfirmAndRecover_channelResetEnd_2.sto.chanReset ∧ (state_DrainsProgramConfirmAndRecover_channelResetEnd_2.targetAt (0 : Nat)).fitted = true := by
  decide +kernel

/-- The state of the witness below. -/
def state_DrainsProgramConfirmAndRecover_drainFault : State :=
  { live with sto := { live.sto with state := .ready, formatted := true, own := true, targets := [(0, { Target.init with fitted := true, healthy := true, luns := 1, blocks := 100, pagesPerBlock := 64, block := 5, written := 1, used := [5] })], log := [] } }

theorem witness_DrainsProgramConfirmAndRecover_drainFault :
    state_DrainsProgramConfirmAndRecover_drainFault.rst.dataUp = true ∧ (15 : Nat) < 16 := by
  decide +kernel

theorem witness_DrainsProgramConfirmAndRecover_rateMeasure :
    True := by
  decide +kernel

/-- The state of the witness below. -/
def state_DrainsProgramConfirmAndRecover_mapCheckpoint : State :=
  { live with sto := { live.sto with state := .ready, formatted := true, own := true, targets := [(0, { Target.init with fitted := true, healthy := true, luns := 1, blocks := 100, pagesPerBlock := 64, block := 5, written := 1, used := [5] })], ckptDue := true, sinceCkpt := 9 } }

theorem witness_DrainsProgramConfirmAndRecover_mapCheckpoint :
    True := by
  decide +kernel

theorem witness_AcquisitionCommands_acqAuxWrite :
    Accepts live req 0x0A01 { standbyOk := false } ∧ live.sets.frozen = false ∧ ((15 : Nat) < 16 ∧ live.hasGrp (15 : Nat) = true) ∧ ([0x80#128, 0] : List (BitVec 128)) ≠ [] ∧ (62 : Nat) + ([0x80#128, 0] : List (BitVec 128)).length ≤ 64 ∧ ([0x80#128, 0] : List (BitVec 128)).all (fun e => !auxArm e) = true := by
  decide +kernel

/-- The state of the witness below. -/
def state_AcquisitionCommands_acqAuxRead : State :=
  { live with sets := { live.sets with cast := { live.sets.cast with aux := [(67, 0x80#128), (68, 0x82#128)], auxArm := [(68, 0x81#128)] } } }

theorem witness_AcquisitionCommands_acqAuxRead :
    Accepts state_AcquisitionCommands_acqAuxRead req 0x0A02 {} ∧ ((1 : Nat) < 16 ∧ state_AcquisitionCommands_acqAuxRead.hasGrp (1 : Nat) = true) ∧ ([(4, 0x81#128)] : List (Nat × BitVec 128)) = auxOf state_AcquisitionCommands_acqAuxRead.sets.cast.auxArm (1 : Nat) ∧ ([(3, 0x80#128), (4, 0x81#128)] : List (Nat × BitVec 128)) = (auxOf state_AcquisitionCommands_acqAuxRead.sets.cast.aux (1 : Nat)).filter (fun e => !([(4, 0x81#128)] : List (Nat × BitVec 128)).any (fun a => a.1 == e.1)) ++ ([(4, 0x81#128)] : List (Nat × BitVec 128)) := by
  decide +kernel

theorem witness_AcquisitionCommands_acqMeasNow :
    Accepts live req 0x0A03 { long := true } ∧ ((127 : Nat) < 128 ∧ live.hasPort (127 : Nat) = true) := by
  decide +kernel

theorem witness_AcquisitionCommands_acqMeasNow_2 :
    Accepts live req 0x0A03 { long := true } ∧ ((127 : Nat) < 128 ∧ live.hasPort (127 : Nat) = true) ∧ (15 : Nat) < 16 ∧ (3 : Nat) < 4 ∧ (1 ≤ (65535 : Nat) ∧ (65535 : Nat) < 65536) ∧ (6 : Nat) < 7 ∧ (live.grpAt ((127 : Nat) / 8)).acq.urg.length < 8 := by
  decide +kernel

/-- The state of the witness below. -/
def state_AcquisitionCommands_acqShareCheck : State :=
  { live with cal := { live.cal with grp := [(0, readyCal)] } }

theorem witness_AcquisitionCommands_acqShareCheck :
    Accepts state_AcquisitionCommands_acqShareCheck req 0x0A04 { long := true } ∧ ((0 : Nat) < 16 ∧ state_AcquisitionCommands_acqShareCheck.hasGrp (0 : Nat) = true) ∧ (16 : Nat) ≤ 16 ∧ (state_AcquisitionCommands_acqShareCheck.calAt (0 : Nat)).has 17 = true ∧ ((state_AcquisitionCommands_acqShareCheck.grpAt (0 : Nat)).acq.checks.filter (fun c => !c.running)).length < 4 := by
  decide +kernel

/-- The state of the witness below. -/
def state_AcquisitionCommands_acqPathTest : State :=
  { live with cal := { live.cal with grp := [(0, readyCal)] } }

theorem witness_AcquisitionCommands_acqPathTest :
    Accepts state_AcquisitionCommands_acqPathTest req 0x0A05 { long := true } ∧ ((0 : Nat) < 16 ∧ state_AcquisitionCommands_acqPathTest.hasGrp (0 : Nat) = true) ∧ (0 : Nat) ≤ 16 ∧ (state_AcquisitionCommands_acqPathTest.calAt (0 : Nat)).has 17 = true ∧ ((state_AcquisitionCommands_acqPathTest.grpAt (0 : Nat)).acq.checks.filter (fun c => !c.running)).length < 4 := by
  decide +kernel

theorem witness_AcquisitionCommands_acqRawCapture :
    Accepts placed req 0x0A06 { long := true, needs := [5], standbyOk := false } ∧ ((0 : Nat) < 16 ∧ placed.hasGrp (0 : Nat) = true) ∧ ((5 : Nat) < 4096 ∧ placed.defined (5 : Nat) = true) ∧ ((0x3FFFF : Nat) ≠ 0 ∧ (0x3FFFF : Nat) < 2 ^ 18) ∧ ((65536 : Nat) ≠ 0 ∧ (65536 : Nat) ≤ 65536) ∧ (placed.grpAt (0 : Nat)).acq.cap = none := by
  decide +kernel

theorem witness_MeasurementCommands_measAperture :
    Accepts placed req 0x0B01 { needs := [5], standbyOk := false } ∧ placed.figBad (5 : Nat) = none ∧ ((0 : DWord) = 0#64 ∨ mtLe placed.mt.mt (0 : DWord) = false) ∧ placed.apFree (5 : Nat) (placed.nextTick (placed.grpOf (5 : Nat))) = true := by
  decide +kernel

theorem witness_MeasurementCommands_measAperture_2 :
    Accepts placed req 0x0B01 { needs := [5], standbyOk := false } ∧ placed.figBad (5 : Nat) = none ∧ ((7 : DWord) ≠ 0#64 ∧ mtLe placed.mt.mt (7 : DWord) = true) ∧ placed.apFree (5 : Nat) (7 : DWord) = true := by
  decide +kernel

theorem witness_MeasurementCommands_measSnapshot :
    Accepts live req 0x0B02 { needs := [5] } ∧ (setBits 16 (0xFFFF : BitVec 16).toNat).all live.hasGrp = true := by
  decide +kernel

theorem witness_MeasurementCommands_measTotalClear :
    Accepts placed req 0x0B03 { needs := [5], standbyOk := false } ∧ placed.figBad (5 : Nat) = none := by
  decide +kernel

/-- The state of the witness below. -/
def state_LoopCommands_loopCoefWrite : State :=
  { live with sets := { live.sets with maq := { live.sets.maq with figs := [5] } } }

theorem witness_LoopCommands_loopCoefWrite :
    Accepts state_LoopCommands_loopCoefWrite req 0x0C01 { standbyOk := false } ∧ state_LoopCommands_loopCoefWrite.sets.frozen = false ∧ (5 : Nat) ∈ state_LoopCommands_loopCoefWrite.sets.maq.figs ∧ coefBad (0x1F0003#640 : BitVec 640) = none := by
  decide +kernel

/-- The state of the witness below. -/
def state_LoopCommands_loopCoefRead : State :=
  { placed with sets := { placed.sets with cast := { placed.sets.cast with coefs := [(23, 3)] } } }

theorem witness_LoopCommands_loopCoefRead :
    Accepts state_LoopCommands_loopCoefRead req 0x0C02 {} ∧ state_LoopCommands_loopCoefRead.defined (5 : Nat) = true ∧ (12 : Nat) < 16 ∧ ([3] : List Nat) = (List.range 4).filter (fun k => (12 : Nat).testBit k && (tget? state_LoopCommands_loopCoefRead.sets.cast.coefs (4 * (5 : Nat) + k)).isSome) := by
  decide +kernel

theorem witness_LoopCommands_loopFfWrite :
    Accepts live req 0x0C03 { standbyOk := false } ∧ live.sets.frozen = false ∧ live.ffBad (127 : Nat) (1 : Nat) = none := by
  decide +kernel

theorem witness_LoopCommands_loopFfRead :
    Accepts live req 0x0C04 {} ∧ live.ffBad (0 : Nat) (0 : Nat) = none := by
  decide +kernel

theorem witness_LoopCommands_tuneStart :
    Accepts placed req 0x0C06 { long := true, standbyOk := false } ∧ ((5 : Nat) < 4096 ∧ placed.defined (5 : Nat) = true) ∧ (0 : Nat) = (if (0xFF : Nat) = 0xFF then (placed.members (5 : Nat)).headD 0 else (0xFF : Nat)) ∧ (placed.hasPort (0 : Nat) = true ∧ (0 : Nat) ∈ placed.members (5 : Nat)) ∧ tuneBad (1 : Nat) (0 : Nat) (0 : Nat) (255 : Nat) ((-107374182) : Int) (1048576 : Nat) (16777215 : Nat) (tuneMost (1 : Nat)) = none ∧ placed.serves (0 : Nat) = some (5 : Nat) ∧ loopsClosed (placed.spAt (0 : Nat)) = true ∧ (placed.grpAt ((0 : Nat) / 8)).tune = none := by
  decide +kernel

/-- The state of the witness below. -/
def state_LoopCommands_tuneStop : State :=
  { live with grp := [(0, { Grp.init with tune := some ⟨5, 0, false, 0, 1, 0, 0, 0, 5, 0, 0, true, 0, 1, [], 0, 0, 0, 0, 0, 1, false, false, false⟩ })] }

theorem witness_LoopCommands_tuneStop :
    Accepts state_LoopCommands_tuneStop req 0x0C07 { standbyOk := false } ∧ ((0 : Nat) < 16 ∧ state_LoopCommands_tuneStop.hasGrp (0 : Nat) = true) ∧ (state_LoopCommands_tuneStop.grpAt (0 : Nat)).tune = some (⟨5, 0, false, 0, 1, 0, 0, 0, 5, 0, 0, true, 0, 1, [], 0, 0, 0, 0, 0, 1, false, false, false⟩ : Tune) := by
  decide +kernel

theorem witness_TwinCommands_twinStatusRead :
    Accepts live req 0x0901 {} := by
  decide +kernel

/-- The state of the witness below. -/
def state_TwinCommands_twinDetach : State :=
  { live with twin := { live.twin with role := .active, link := .up }, rst := { live.rst with strap := 8 } }

theorem witness_TwinCommands_twinDetach :
    Accepts state_TwinCommands_twinDetach req 0x0902 { long := true } ∧ state_TwinCommands_twinDetach.pairStrap = true ∧ state_TwinCommands_twinDetach.paired = true ∧ (state_TwinCommands_twinDetach.twin.attachBusy = false ∧ state_TwinCommands_twinDetach.twin.handover = none ∧ state_TwinCommands_twinDetach.sets.phase = 0) ∧ state_TwinCommands_twinDetach.host.outst.all (fun o => o.opcode != 0x0902 && o.opcode != 0x0903) = true := by
  decide +kernel

/-- The state of the witness below. -/
def state_TwinCommands_twinDetach_2 : State :=
  { live with twin := { live.twin with role := .active, link := .up }, rst := { live.rst with strap := 8 } }

theorem witness_TwinCommands_twinDetach_2 :
    Accepts state_TwinCommands_twinDetach_2 req 0x0902 { long := true } ∧ state_TwinCommands_twinDetach_2.pairStrap = true ∧ (state_TwinCommands_twinDetach_2.paired = true ∧ state_TwinCommands_twinDetach_2.twin.role = .active) ∧ (state_TwinCommands_twinDetach_2.twin.attachBusy = false ∧ state_TwinCommands_twinDetach_2.twin.handover = none ∧ state_TwinCommands_twinDetach_2.sets.phase = 0) ∧ state_TwinCommands_twinDetach_2.host.outst.all (fun o => o.opcode != 0x0902 && o.opcode != 0x0903) = true := by
  decide +kernel

/-- The state of the witness below. -/
def state_TwinCommands_twinAttach : State :=
  { live with twin := { live.twin with role := .active, link := .up }, rst := { live.rst with strap := 8 } }

theorem witness_TwinCommands_twinAttach :
    Accepts state_TwinCommands_twinAttach req 0x0903 { long := true } ∧ state_TwinCommands_twinAttach.pairStrap = true ∧ state_TwinCommands_twinAttach.paired = true := by
  decide +kernel

/-- The state of the witness below. -/
def state_TwinCommands_twinAttach_2 : State :=
  { live with twin := { live.twin with role := .detached }, rst := { live.rst with strap := 8 } }

theorem witness_TwinCommands_twinAttach_2 :
    Accepts state_TwinCommands_twinAttach_2 req 0x0903 { long := true } ∧ state_TwinCommands_twinAttach_2.pairStrap = true ∧ state_TwinCommands_twinAttach_2.paired = false := by
  decide +kernel

/-- The state of the witness below. -/
def state_SupervisionCommands_supMonClear : State :=
  { live with sp := [(0, { Sp.init with sup := { Sup.init with mon := [{ Mon.init with latch := true }, { Mon.init with latch := true }] } })] }

theorem witness_SupervisionCommands_supMonClear :
    Accepts state_SupervisionCommands_supMonClear req 0x0D01 {} ∧ ((0 : Nat) < 128 ∧ state_SupervisionCommands_supMonClear.hasPort (0 : Nat) = true) ∧ (2 : Nat) < 16 := by
  decide +kernel

/-- The state of the witness below. -/
def state_SupervisionCommands_supTripClear : State :=
  { live with sp := [(0, { Sp.init with force := { Force.init with out := .tripped }, sup := { Sup.init with tripped := true, cause := 0x1000 } })] }

theorem witness_SupervisionCommands_supTripClear :
    Accepts state_SupervisionCommands_supTripClear req 0x0D02 { standbyOk := false } ∧ ((0 : Nat) < 128 ∧ state_SupervisionCommands_supTripClear.hasPort (0 : Nat) = true) ∧ (state_SupervisionCommands_supTripClear.spAt (0 : Nat)).sup.tripped = true ∧ state_SupervisionCommands_supTripClear.tripStands (0 : Nat) = none := by
  decide +kernel

theorem witness_SupervisionCommands_supTripClear_2 :
    Accepts live req 0x0D02 { standbyOk := false } ∧ ((127 : Nat) < 128 ∧ live.hasPort (127 : Nat) = true) ∧ (live.spAt (127 : Nat)).sup.tripped = false := by
  decide +kernel

/-- The state of the witness below. -/
def state_SupervisionCommands_supTripForce : State :=
  { live with sp := [(0, { Sp.init with force := { Force.init with out := .regulating, en := true, driven := true }, sup := { Sup.init with held := true } })] }

theorem witness_SupervisionCommands_supTripForce :
    Accepts state_SupervisionCommands_supTripForce req 0x0D03 { standbyOk := false } ∧ ((0 : Nat) < 128 ∧ state_SupervisionCommands_supTripForce.hasPort (0 : Nat) = true) ∧ tripLive (state_SupervisionCommands_supTripForce.spAt (0 : Nat)).force.out = true := by
  decide +kernel

/-- The state of the witness below. -/
def state_SupervisionCommands_supLeadCheck : State :=
  { live with sp := [(0, { Sp.init with force := { Force.init with out := .regulating, en := true, driven := true }, sup := { Sup.init with held := true } })] }

theorem witness_SupervisionCommands_supLeadCheck :
    Accepts state_SupervisionCommands_supLeadCheck req 0x0D04 { long := true, standbyOk := false } ∧ ((0 : Nat) < 128 ∧ state_SupervisionCommands_supLeadCheck.hasPort (0 : Nat) = true) ∧ ((state_SupervisionCommands_supLeadCheck.spAt (0 : Nat)).sup.leadCmd = none ∧ (state_SupervisionCommands_supLeadCheck.spAt (0 : Nat)).sup.checking = false) := by
  decide +kernel

/-- The state of the witness below. -/
def state_SupervisionCommands_supHoldRelease : State :=
  { live with sp := [(0, { Sp.init with force := { Force.init with out := .regulating, en := true, driven := true }, sup := { Sup.init with held := true } })] }

theorem witness_SupervisionCommands_supHoldRelease :
    Accepts state_SupervisionCommands_supHoldRelease req 0x0D05 { standbyOk := false } ∧ ((0 : Nat) < 128 ∧ state_SupervisionCommands_supHoldRelease.hasPort (0 : Nat) = true) ∧ (state_SupervisionCommands_supHoldRelease.spAt (0 : Nat)).sup.held = true ∧ (state_SupervisionCommands_supHoldRelease.spAt (0 : Nat)).sup.releaseCmd = none := by
  decide +kernel

theorem witness_SupervisionCommands_supStatusRead :
    Accepts live req 0x0D06 {} ∧ (127 : Nat) < 128 ∧ ((1 : Nat) ≠ 0 ∧ (127 : Nat) + (1 : Nat) ≤ 128) := by
  decide +kernel

/-- The state of the witness below. -/
def state_CalibrationCommands_calExt : State :=
  { live with cal := { live.cal with startStep := 4, isrcOn := true } }

theorem witness_CalibrationCommands_calExt :
    Accepts state_CalibrationCommands_calExt req 0x0E01 { long := true } ∧ (1000000000 ≤ ((-10500000000) : Int).natAbs ∧ ((-10500000000) : Int).natAbs ≤ 10500000000) ∧ ((1000000000 : Nat) = 0 ∨ (1000000000 ≤ (1000000000 : Nat) ∧ (1000000000 : Nat) ≤ 10000000000)) ∧ 2 ≤ state_CalibrationCommands_calExt.cal.startStep ∧ (state_CalibrationCommands_calExt.cal.ext = none ∧ state_CalibrationCommands_calExt.twin.partnerCal = false) := by
  decide +kernel

/-- The state of the witness below. -/
def state_CalibrationCommands_calArbSelf : State :=
  { live with cal := { live.cal with slotRun := 2 } }

theorem witness_CalibrationCommands_calArbSelf :
    Accepts state_CalibrationCommands_calArbSelf req 0x0E02 { long := true } ∧ (15 : BitVec 4) ≠ 0#4 ∧ (15 : BitVec 4) &&& (state_CalibrationCommands_calArbSelf.cal.arbRun ||| state_CalibrationCommands_calArbSelf.cal.arbWait) = 0#4 ∧ (2 : BitVec 4) = (if state_CalibrationCommands_calArbSelf.cal.ext.isSome then (15 : BitVec 4) else (15 : BitVec 4) &&& state_CalibrationCommands_calArbSelf.cal.slotRun) := by
  decide +kernel

theorem witness_CalibrationCommands_calArbSelf_2 :
    Accepts live req 0x0E02 { long := true } := by
  decide +kernel

/-- The state of the witness below. -/
def state_CalibrationCommands_calMainsSelf : State :=
  { live with iso := { live.iso with rxValid := true, txValid := true } }

theorem witness_CalibrationCommands_calMainsSelf :
    Accepts state_CalibrationCommands_calMainsSelf req 0x0E03 { long := true } ∧ state_CalibrationCommands_calMainsSelf.cal.mainsRun = none ∧ state_CalibrationCommands_calMainsSelf.priSeen = true := by
  decide +kernel

theorem witness_CalibrationCommands_calRefWrite :
    Accepts live req 0x0E04 {} ∧ (((7007000000 : Int) - 7000000000) * 1000).natAbs ≤ 7000000000 ∧ (((999000000 : Int) - 1000000000) * 1000).natAbs ≤ 1000000000 := by
  decide +kernel

/-- The state of the witness below. -/
def state_CalibrationCommands_calSpare : State :=
  { live with cal := { live.cal with startStep := 2 } }

theorem witness_CalibrationCommands_calSpare :
    Accepts state_CalibrationCommands_calSpare req 0x0E05 { long := true } ∧ 2 ≤ state_CalibrationCommands_calSpare.cal.startStep ∧ (state_CalibrationCommands_calSpare.cal.slotDue = 0#4 ∧ state_CalibrationCommands_calSpare.cal.slotRun = 0#4) := by
  decide +kernel

theorem witness_CalibrationCommands_calIsrc :
    Accepts live req 0x0E06 {} ∧ (2 : Nat) ≤ 2 ∧ (live.cal.ext = none ∧ live.twin.partnerCal = false) := by
  decide +kernel

theorem witness_CalibrationCommands_calStatusRead :
    Accepts live req 0x0E07 {} := by
  decide +kernel

theorem witness_EventCommands_evtRoute :
    Accepts live req 0x0F01 {} ∧ (([(0x1A0, 255), (0x190, 0x100), (0x1A0, 0)] : List (Nat × Nat)) ≠ [] ∧ ([(0x1A0, 255), (0x190, 0x100), (0x1A0, 0)] : List (Nat × Nat)).length ≤ 32) ∧ firstBad live.routeBad 0 ([(0x1A0, 255), (0x190, 0x100), (0x1A0, 0)] : List (Nat × Nat)) = none := by
  decide +kernel

theorem witness_EventCommands_evtMask :
    Accepts live req 0x0F02 {} ∧ (255 : Nat) < 256 ∧ (0 : Nat) ≤ 2 ∧ ([0x1005, 0x900] : List Nat).length ≤ 32 ∧ (([0x1005, 0x900] : List Nat) ≠ [] ∨ (0 : Nat) = 2) ∧ firstBad live.codeBad 0 ([0x1005, 0x900] : List Nat) = none ∧ live.fab.taps.length + (live.fab.newTaps (maskAfter (0 : Nat) (tget [] live.fab.masks (255 : Nat)) ([0x1005, 0x900] : List Nat))).length ≤ 64 := by
  decide +kernel

theorem witness_EventCommands_evtRead :
    Accepts live req 0x0F03 {} ∧ ((2 : Nat) ≠ 0 ∧ (2 : Nat) ≤ 1024) ∧ (0x1A0 : Nat) + (2 : Nat) ≤ 2048 := by
  decide +kernel

theorem witness_EventCommands_evtRead_2 :
    Accepts live req 0x0F03 {} ∧ ((1024 : Nat) ≠ 0 ∧ (1024 : Nat) ≤ 1024) ∧ (255 : Nat) < 256 := by
  decide +kernel

theorem witness_EventCommands_evtRead_3 :
    Accepts live req 0x0F03 {} ∧ ((1 : Nat) ≠ 0 ∧ (1 : Nat) ≤ 1024) := by
  decide +kernel

/-- The state of the witness below. -/
def state_EventCommands_evtPulse : State :=
  { live with fab := { live.fab with masks := [(254, [0x908, 0x90F]), (255, [0x90F])], sel := [(0x1A0, 254), (0x1BF, 255)] } }

theorem witness_EventCommands_evtPulse :
    Accepts state_EventCommands_evtPulse req 0x0F04 {} ∧ state_EventCommands_evtPulse.rst.ctrlUp = true := by
  decide +kernel

/-- The state of the witness below. -/
def state_EventCommands_evtPulse_2 : State :=
  { live with fab := { live.fab with masks := [(255, [0x90F])], sel := [(0x1BF, 255)] } }

theorem witness_EventCommands_evtPulse_2 :
    Accepts state_EventCommands_evtPulse_2 req 0x0F04 {} ∧ (state_EventCommands_evtPulse_2.rst.ctrlUp = true ∧ state_EventCommands_evtPulse_2.fab.raised = []) ∧ ((7 : Nat) < 8 ∧ (0x80 : BitVec 8).getLsbD (7 : Nat) = true) ∧ ((31 : Nat) < 32 ∧ (255 : Nat) < 256) ∧ state_EventCommands_evtPulse_2.fab.sel = [(0x1A0 + (31 : Nat), (255 : Nat))] ∧ tget [] state_EventCommands_evtPulse_2.fab.masks (255 : Nat) = [0x908 + (7 : Nat)] := by
  decide +kernel

/-- The state of the witness below. -/
def state_ErrorFuseAndGroupCommands_errRingRead : State :=
  { live with err := { live.err with newest := 1, ring := [⟨⟨0, 0x4102, 0, 0, 1, 0, 1, 0, 0, 0⟩, 0, 0, false⟩, ⟨⟨1, 0x4102, 0, 0, 1, 0, 1, 0, 0, 0⟩, 0, 0, false⟩] } }

theorem witness_ErrorFuseAndGroupCommands_errRingRead :
    Accepts state_ErrorFuseAndGroupCommands_errRingRead req 0x1001 { needs := [6] } ∧ ((2048 : Nat) ≠ 0 ∧ (2048 : Nat) ≤ 2048) ∧ state_ErrorFuseAndGroupCommands_errRingRead.fab.raised = [] := by
  decide +kernel

/-- The state of the witness below. -/
def state_ErrorFuseAndGroupCommands_errRingRead_2 : State :=
  { live with err := { live.err with newest := 1, ring := [⟨⟨0, 0x4102, 0, 0, 1, 0, 1, 0, 0, 0⟩, 0, 0, false⟩, ⟨⟨1, 0x4102, 0, 0, 1, 0, 1, 0, 0, 0⟩, 0, 0, false⟩] } }

theorem witness_ErrorFuseAndGroupCommands_errRingRead_2 :
    Accepts state_ErrorFuseAndGroupCommands_errRingRead_2 req 0x1001 { needs := [6] } ∧ ((1 : Nat) ≠ 0 ∧ (1 : Nat) ≤ 2048) ∧ (state_ErrorFuseAndGroupCommands_errRingRead_2.err.select (0 : Word) (1 : Nat)).getLast? = some (⟨⟨0, 0x4102, 0, 0, 1, 0, 1, 0, 0, 0⟩, 0, 0, false⟩ : ErrEntry) ∧ state_ErrorFuseAndGroupCommands_errRingRead_2.err.storm = false ∧ state_ErrorFuseAndGroupCommands_errRingRead_2.fab.raised = [] := by
  decide +kernel

/-- The state of the witness below. -/
def state_ErrorFuseAndGroupCommands_errRingRead_3 : State :=
  { live with err := { live.err with newest := 1, ring := [⟨⟨0, 0x4102, 0, 0, 1, 0, 1, 0, 0, 0⟩, 0, 0, false⟩, ⟨⟨1, 0x4102, 0, 0, 1, 0, 1, 0, 0, 0⟩, 0, 0, false⟩], storm := true } }

theorem witness_ErrorFuseAndGroupCommands_errRingRead_3 :
    Accepts state_ErrorFuseAndGroupCommands_errRingRead_3 req 0x1001 { needs := [6] } ∧ ((1 : Nat) ≠ 0 ∧ (1 : Nat) ≤ 2048) := by
  decide +kernel

/-- The state of the witness below. -/
def state_ErrorFuseAndGroupCommands_errFirstRead : State :=
  { live with err := { live.err with first := some ⟨0, 0x4102, 0, 0, 1, 0, 1, 0, 0, 0⟩ } }

theorem witness_ErrorFuseAndGroupCommands_errFirstRead :
    Accepts state_ErrorFuseAndGroupCommands_errFirstRead req 0x1002 {} ∧ state_ErrorFuseAndGroupCommands_errFirstRead.fab.raised = [] := by
  decide +kernel

theorem witness_ErrorFuseAndGroupCommands_rstFuseProgram :
    Accepts live req 0x1003 { long := true } ∧ live.rst.fuseProgrammed.getLsbD 31 = false ∧ (List.range 8).all (fuseFieldOk (0x28 : Word)) = true := by
  decide +kernel

theorem witness_ErrorFuseAndGroupCommands_grpReset :
    Accepts live req 0x1004 { long := true, standbyOk := false } ∧ (0x8001 : BitVec 16) ≠ 0#16 ∧ (setBits 16 (0x8001 : BitVec 16).toNat).all (fun g => live.hasGrp g) = true ∧ (List.range 128).all (fun p => !(0x8001 : BitVec 16).getLsbD (p / 8) || (!tripLive (live.spAt p).force.out && !(live.spAt p).sup.tripped)) = true := by
  decide +kernel

theorem witness_ErrorFuseAndGroupCommands_grpReset_2 :
    Accepts placed req 0x1004 { long := true, standbyOk := false } ∧ (0x0001 : BitVec 16) ≠ 0#16 ∧ (setBits 16 (0x0001 : BitVec 16).toNat).all (fun g => placed.hasGrp g) = true := by
  decide +kernel

/-- The state of the witness below. -/
def state_TwoHalfReads_twoHalfLowRead : State :=
  { live with host := { live.host with holdPcie := { held := [(0x510, 7), (0x514, 9), (0x61C, 3)] } } }

theorem witness_TwoHalfReads_twoHalfLowRead :
    state_TwoHalfReads_twoHalfLowRead.opens (.service : Port) = true ∧ highsOf (0x504 : Nat) ≠ [] ∧ (0x504 : Nat) ≠ 0x200 := by
  decide +kernel

/-- The state of the witness below. -/
def state_TwoHalfReads_twoHalfLowRead_2 : State :=
  { live with mt := { live.mt with mt := 0x406400000, nowGenPcie := 6 } }

theorem witness_TwoHalfReads_twoHalfLowRead_2 :
    state_TwoHalfReads_twoHalfLowRead_2.opens (.pcie : Port) = true := by
  decide +kernel

/-- The state of the witness below. -/
def state_TwoHalfReads_twoHalfHighRead : State :=
  { live with host := { live.host with holdPcie := { held := [(0x510, 7), (0x514, 9), (0x61C, 3)] } } }

theorem witness_TwoHalfReads_twoHalfHighRead :
    state_TwoHalfReads_twoHalfHighRead.opens (.pcie : Port) = true ∧ isHigh (0x514 : Nat) = true ∧ tget? (state_TwoHalfReads_twoHalfHighRead.host.holding (.pcie : Port)) (0x514 : Nat) = some (9 : Word) := by
  decide +kernel

/-- The state of the witness below. -/
def state_TwoHalfReads_twoHalfHighRead_2 : State :=
  { live with host := { live.host with holdPcie := { held := [(0x510, 7), (0x514, 9), (0x61C, 3)] } } }

theorem witness_TwoHalfReads_twoHalfHighRead_2 :
    state_TwoHalfReads_twoHalfHighRead_2.opens (.pcie : Port) = true ∧ isHigh (0x204 : Nat) = true ∧ tget? (state_TwoHalfReads_twoHalfHighRead_2.host.holding (.pcie : Port)) (0x204 : Nat) = none := by
  decide +kernel

theorem witness_SelectAndLatchWrites_selectRegisterWrite :
    live.opens (.pcie : Port) = true ∧ ((0x700 : Nat) = 0x580 ∨ (0x700 : Nat) = 0x680 ∨ (0x700 : Nat) = 0x700) := by
  decide +kernel

/-- The state of the witness below. -/
def state_SelectAndLatchWrites_selectRegisterWrite_2 : State :=
  { live with host := { live.host with holdPcie := { held := [(0x510, 7), (0x514, 9), (0x61C, 3)] } } }

theorem witness_SelectAndLatchWrites_selectRegisterWrite_2 :
    state_SelectAndLatchWrites_selectRegisterWrite_2.opens (.pcie : Port) = true := by
  decide +kernel

/-- The state of the witness below. -/
def state_SelectAndLatchWrites_selectRegisterWrite_3 : State :=
  { live with host := { live.host with holdPcie := { held := [(0x510, 7), (0x514, 9), (0x61C, 3)] } } }

theorem witness_SelectAndLatchWrites_selectRegisterWrite_3 :
    state_SelectAndLatchWrites_selectRegisterWrite_3.opens (.service : Port) = true := by
  decide +kernel

theorem witness_SelectAndLatchWrites_selectRegisterWrite_4 :
    live.opens (.pcie : Port) = true := by
  decide +kernel

theorem witness_SelectAndLatchWrites_selectRegisterWrite_5 :
    live.opens (.pcie : Port) = true := by
  decide +kernel

/-- The state of the witness below. -/
def state_SelectAndLatchWrites_fabPersistClear : State :=
  { live with fab := { live.fab with persist := [(7, 3)] } }

theorem witness_SelectAndLatchWrites_fabPersistClear :
    (7 : Nat) < 8 := by
  decide +kernel

/-- The state of the witness below. -/
def state_SelectAndLatchWrites_firstArm : State :=
  { live with err := { live.err with first := some ⟨0, 0x4102, 0, 0, 1, 0, 1, 0, 0, 0⟩ } }

theorem witness_SelectAndLatchWrites_firstArm :
    state_SelectAndLatchWrites_firstArm.fab.raised = [] := by
  decide +kernel

/-- The state of the witness below. -/
def state_SelectAndLatchWrites_relayFaultRetry : State :=
  { live with pfe := { live.pfe with faults := 0x80, pri := { live.pfe.pri with relayFault := true } } }

theorem witness_SelectAndLatchWrites_relayFaultRetry :
    state_SelectAndLatchWrites_relayFaultRetry.rst.ctrlUp = true := by
  decide +kernel

/-- The state of the witness below. -/
def state_SelectAndLatchWrites_supMonLatchWrite : State :=
  { live with sp := [(0, { Sp.init with sup := { Sup.init with mon := [{ Mon.init with latch := true }, { Mon.init with latch := true }] } })] }

theorem witness_SelectAndLatchWrites_supMonLatchWrite :
    state_SelectAndLatchWrites_supMonLatchWrite.rst.ctrlUp = true ∧ state_SelectAndLatchWrites_supMonLatchWrite.hasPort state_SelectAndLatchWrites_supMonLatchWrite.sel.sup.toNat = true := by
  decide +kernel

theorem witness_RegisterWrites_registerWrite :
    live.opens (.pcie : Port) = true ∧ (0xC : Nat) < 0x10000 ∧ ((4 : Nat) ≠ 4 ∨ (0xC : Nat) % 4 ≠ 0 ∨ isReg (0xC : Nat) = false) := by
  decide +kernel

/-- The state of the witness below. -/
def state_RegisterWrites_registerWrite_2 : State :=
  { live with host := { live.host with flags := 0x60 } }

theorem witness_RegisterWrites_registerWrite_2 :
    state_RegisterWrites_registerWrite_2.opens (.service : Port) = true ∧ state_RegisterWrites_registerWrite_2.fab.raised = [] ∧ ((0x14 : Nat) ∈ [0x14, 0x220, 0x784, 0x800, 0x994, 0xA04, 0xC04] ∨ (0x810 ≤ (0x14 : Nat) ∧ (0x14 : Nat) < 0x830 ∧ (0x14 : Nat) % 4 = 0)) := by
  decide +kernel

/-- The state of the witness below. -/
def state_RegisterWrites_registerWrite_3 : State :=
  { live with mt := { live.mt with rejCnt := 7 } }

theorem witness_RegisterWrites_registerWrite_3 :
    state_RegisterWrites_registerWrite_3.opens (.pcie : Port) = true ∧ state_RegisterWrites_registerWrite_3.fab.raised = [] ∧ ((0x224 : Nat) ∈ [0x18, 0x1C, 0x110, 0x118, 0x224, 0x228, 0x258, 0x25C, 0x538, 0x788, 0x91C, 0x998, 0x99C, 0x9BC, 0xC20, 0xC24, 0xC28, 0xC2C, 0xC30, 0xD10, 0xD14] ∨ (0xA24 ≤ (0x224 : Nat) ∧ (0x224 : Nat) < 0xA40 ∧ (0x224 : Nat) % 4 = 0) ∨ (0x880 ≤ (0x224 : Nat) ∧ (0x224 : Nat) < 0x900 ∧ (0x224 : Nat) % 4 = 0)) := by
  decide +kernel

theorem witness_RegisterWrites_registerWrite_4 :
    live.opens (.pcie : Port) = true ∧ ((0x440 ≤ (0x484 : Nat) ∧ (0x484 : Nat) < 0x4C0 ∧ (0x484 : Nat) % 4 = 0) ∧ live.hasGrp ((0x484 : Nat) % 64 / 4) = true) := by
  decide +kernel

theorem witness_RegisterWrites_registerWrite_5 :
    live.opens (.pcie : Port) = true ∧ (((0x69C : Nat) ∈ [0x58C, 0x590, 0x594] ∧ (0 : Nat) = live.sel.fr.toNat) ∨ ((0x69C : Nat) ∈ [0x60C, 0x620, 0x624] ∧ (0 : Nat) = bits live.sel.le 6 0) ∨ ((0x69C : Nat) ∈ [0x68C, 0x69C] ∧ (0 : Nat) = live.sel.sup.toNat)) ∧ live.hasPort (0 : Nat) = true := by
  decide +kernel

theorem witness_RegisterWrites_registerWrite_6 :
    live.opens (.pcie : Port) = true ∧ (15 : Nat) < 16 := by
  decide +kernel

theorem witness_RegisterWrites_spiReadFrame :
    live.rst.spiUp = true ∧ ((0xFFFC : Nat) % 4 = 0 ∧ (0xFFFC : Nat) + 4 * (1 : Nat) ≤ 0x10000) := by
  decide +kernel

/-- The state of the witness below. -/
def state_RegisterWrites_spiReadFrame_2 : State :=
  { live with host := { live.host with window := [(0xFFFFC, 9), (0xFFFFE, 1)] } }

theorem witness_RegisterWrites_spiReadFrame_2 :
    state_RegisterWrites_spiReadFrame_2.rst.spiUp = true ∧ ((0xFFFFC : Nat) % 4 = 0 ∧ (0xFFFFC : Nat) + 4 * (1 : Nat) ≤ 1048576) := by
  decide +kernel

theorem witness_RegisterWrites_spiReadFrame_3 :
    live.rst.spiUp = true ∧ frameOk (0x1000FFFC : Word) (4 * (0x40000 : Nat)) = false := by
  decide +kernel

theorem witness_RegisterWrites_spiWriteFrame :
    live.rst.spiUp = true ∧ (15 : Nat) < 16 := by
  decide +kernel

theorem witness_RegisterWrites_spiWriteFrame_2 :
    live.rst.spiUp = true ∧ ((0x580 : Nat) % 4 = 0 ∧ ([1, 0, 0, 5] : List Byte).length % 4 = 0 ∧ (0x580 : Nat) + ([1, 0, 0, 5] : List Byte).length ≤ 0x10000) := by
  decide +kernel

/-- The state of the witness below. -/
def state_RegisterWrites_spiWriteFrame_3 : State :=
  { live with host := { live.host with window := [(0xFFFFC, 9), (0xFFFFE, 1)] } }

theorem witness_RegisterWrites_spiWriteFrame_3 :
    state_RegisterWrites_spiWriteFrame_3.rst.spiUp = true ∧ ((0xFFFFC : Nat) % 4 = 0 ∧ ([1, 0, 0, 5] : List Byte).length % 4 = 0 ∧ (0xFFFFC : Nat) + ([1, 0, 0, 5] : List Byte).length ≤ 1048576) ∧ cellsWf state_RegisterWrites_spiWriteFrame_3.host.window = true := by
  decide +kernel

theorem witness_RegisterWrites_spiWriteFrame_4 :
    live.rst.spiUp = true ∧ frameOk (0x20000000 : Word) ([1, 2, 3, 4] : List Byte).length = false := by
  decide +kernel

/-- The state of the witness below. -/
def state_SourcesAssertTheirLevels_supply : State :=
  { live with rst := { live.rst with excursion := some 9000 } }

theorem witness_SourcesAssertTheirLevels_supply :
    state_SourcesAssertTheirLevels_supply.rst.asserted.getLsbD 0 = false ∧ (state_SourcesAssertTheirLevels_supply.rst.ctrlUp = true ∨ (state_SourcesAssertTheirLevels_supply.rst.mgmtUp = false ∧ state_SourcesAssertTheirLevels_supply.rst.pll = false)) := by
  decide +kernel

/-- The state of the witness below. -/
def state_SourcesAssertTheirLevels_supply_2 : State :=
  { live with rst := { live.rst with asserted := 255, seen := 255, level := 0 } }

theorem witness_SourcesAssertTheirLevels_supply_2 :
    state_SourcesAssertTheirLevels_supply_2.rst.asserted.getLsbD 0 = true := by
  decide +kernel

theorem witness_SourcesAssertTheirLevels_clk :
    live.rst.asserted.getLsbD 6 = false ∧ min (fuseLevel live.rst.fuse 6) live.rst.level ≤ 1 ∧ (live.rst.ctrlUp = true ∨ (live.rst.mgmtUp = false ∧ live.rst.pll = false)) := by
  decide +kernel

theorem witness_SourcesAssertTheirLevels_clk_2 :
    live.rst.asserted.getLsbD 6 = false := by
  decide +kernel

/-- The state of the witness below. -/
def state_SourcesAssertTheirLevels_clk_3 : State :=
  { live with rst := { live.rst with asserted := 255, seen := 255, level := 0 } }

theorem witness_SourcesAssertTheirLevels_clk_3 :
    state_SourcesAssertTheirLevels_clk_3.rst.asserted.getLsbD 6 = true := by
  decide +kernel

theorem witness_SourcesAssertTheirLevels_rstIn :
    live.rst.asserted.getLsbD 1 = false := by
  decide +kernel

/-- The state of the witness below. -/
def state_SourcesAssertTheirLevels_rstIn_2 : State :=
  { live with rst := { live.rst with fuse := 56 } }

theorem witness_SourcesAssertTheirLevels_rstIn_2 :
    state_SourcesAssertTheirLevels_rstIn_2.rst.asserted.getLsbD 1 = false ∧ min (fuseLevel state_SourcesAssertTheirLevels_rstIn_2.rst.fuse 1) state_SourcesAssertTheirLevels_rstIn_2.rst.level = 3 := by
  decide +kernel

/-- The state of the witness below. -/
def state_SourcesAssertTheirLevels_rstIn_3 : State :=
  { live with rst := { live.rst with asserted := 255, seen := 255, level := 0 } }

theorem witness_SourcesAssertTheirLevels_rstIn_3 :
    state_SourcesAssertTheirLevels_rstIn_3.rst.asserted.getLsbD 1 = true := by
  decide +kernel

theorem witness_SourcesAssertTheirLevels_perst :
    live.rst.asserted.getLsbD 2 = false := by
  decide +kernel

/-- The state of the witness below. -/
def state_SourcesAssertTheirLevels_perst_2 : State :=
  { live with rst := { live.rst with fuse := 448 } }

theorem witness_SourcesAssertTheirLevels_perst_2 :
    state_SourcesAssertTheirLevels_perst_2.rst.asserted.getLsbD 2 = false ∧ min (fuseLevel state_SourcesAssertTheirLevels_perst_2.rst.fuse 2) state_SourcesAssertTheirLevels_perst_2.rst.level = 3 := by
  decide +kernel

/-- The state of the witness below. -/
def state_SourcesAssertTheirLevels_perst_3 : State :=
  { live with rst := { live.rst with asserted := 255, seen := 255, level := 0 } }

theorem witness_SourcesAssertTheirLevels_perst_3 :
    state_SourcesAssertTheirLevels_perst_3.rst.asserted.getLsbD 2 = true := by
  decide +kernel

theorem witness_SourcesAssertTheirLevels_wdog :
    live.rst.asserted.getLsbD 3 = false ∧ live.rst.ctrlUp = true := by
  decide +kernel

theorem witness_SourcesAssertTheirLevels_wdog_2 :
    live.rst.asserted.getLsbD 3 = false ∧ live.rst.ctrlUp = true ∧ min (fuseLevel live.rst.fuse 3) live.rst.level = 3 := by
  decide +kernel

/-- The state of the witness below. -/
def state_SourcesAssertTheirLevels_wdog_3 : State :=
  { live with rst := { live.rst with asserted := 255, seen := 255, level := 0 } }

theorem witness_SourcesAssertTheirLevels_wdog_3 :
    state_SourcesAssertTheirLevels_wdog_3.rst.asserted.getLsbD 3 = true := by
  decide +kernel

theorem witness_SourcesAssertTheirLevels_fatal :
    live.rst.asserted.getLsbD 7 = false := by
  decide +kernel

/-- The state of the witness below. -/
def state_SourcesAssertTheirLevels_fatal_2 : State :=
  { live with rst := { live.rst with fuse := 14680064 } }

theorem witness_SourcesAssertTheirLevels_fatal_2 :
    state_SourcesAssertTheirLevels_fatal_2.rst.asserted.getLsbD 7 = false ∧ min (fuseLevel state_SourcesAssertTheirLevels_fatal_2.rst.fuse 7) state_SourcesAssertTheirLevels_fatal_2.rst.level = 3 := by
  decide +kernel

/-- The state of the witness below. -/
def state_SourcesAssertTheirLevels_fatal_3 : State :=
  { live with rst := { live.rst with asserted := 255, seen := 255, level := 0 } }

theorem witness_SourcesAssertTheirLevels_fatal_3 :
    state_SourcesAssertTheirLevels_fatal_3.rst.asserted.getLsbD 7 = true := by
  decide +kernel

theorem witness_SourcesAssertTheirLevels_dbgResetInstruction :
    live.rst.asserted.getLsbD 5 = false := by
  decide +kernel

/-- The state of the witness below. -/
def state_SourcesAssertTheirLevels_dbgResetInstruction_2 : State :=
  { live with rst := { live.rst with fuse := 229376 } }

theorem witness_SourcesAssertTheirLevels_dbgResetInstruction_2 :
    state_SourcesAssertTheirLevels_dbgResetInstruction_2.rst.asserted.getLsbD 5 = false ∧ min (fuseLevel state_SourcesAssertTheirLevels_dbgResetInstruction_2.rst.fuse 5) state_SourcesAssertTheirLevels_dbgResetInstruction_2.rst.level = 3 := by
  decide +kernel

/-- The state of the witness below. -/
def state_SourcesAssertTheirLevels_dbgResetInstruction_3 : State :=
  { live with rst := { live.rst with asserted := 255, seen := 255, level := 0 } }

theorem witness_SourcesAssertTheirLevels_dbgResetInstruction_3 :
    state_SourcesAssertTheirLevels_dbgResetInstruction_3.rst.asserted.getLsbD 5 = true := by
  decide +kernel

theorem witness_SourcesAssertTheirLevels_dbgResetInstruction_4 :
    True := by
  decide +kernel

/-- The state of the witness below. -/
def state_SourcesReleaseAndTheSupplyIsWatched_supply : State :=
  { live with rst := { live.rst with asserted := 3 } }

theorem witness_SourcesReleaseAndTheSupplyIsWatched_supply :
    True := by
  decide +kernel

/-- The state of the witness below. -/
def state_SourcesReleaseAndTheSupplyIsWatched_rstIn : State :=
  { live with rst := { live.rst with asserted := 3 } }

theorem witness_SourcesReleaseAndTheSupplyIsWatched_rstIn :
    True := by
  decide +kernel

/-- The state of the witness below. -/
def state_SourcesReleaseAndTheSupplyIsWatched_perst : State :=
  { live with rst := { live.rst with asserted := 7 } }

theorem witness_SourcesReleaseAndTheSupplyIsWatched_perst :
    True := by
  decide +kernel

/-- The state of the witness below. -/
def state_SourcesReleaseAndTheSupplyIsWatched_clkRelease : State :=
  { live with rst := { live.rst with asserted := 0x41 } }

theorem witness_SourcesReleaseAndTheSupplyIsWatched_clkRelease :
    True := by
  decide +kernel

/-- The state of the witness below. -/
def state_SourcesReleaseAndTheSupplyIsWatched_resetPulseEnd : State :=
  { live with rst := { live.rst with asserted := 0x80 } }

theorem witness_SourcesReleaseAndTheSupplyIsWatched_resetPulseEnd :
    (7 : Nat) = 3 ∨ (7 : Nat) = 4 ∨ (7 : Nat) = 5 ∨ (7 : Nat) = 7 := by
  decide +kernel

/-- The state of the witness below. -/
def state_SourcesReleaseAndTheSupplyIsWatched_supplyMarginSample : State :=
  { live with rst := { live.rst with excursion := some 10700 } }

theorem witness_SourcesReleaseAndTheSupplyIsWatched_supplyMarginSample :
    state_SourcesReleaseAndTheSupplyIsWatched_supplyMarginSample.rst.asserted.getLsbD 0 = false ∧ (10799 : Nat) < 10800 := by
  decide +kernel

/-- The state of the witness below. -/
def state_SourcesReleaseAndTheSupplyIsWatched_supplyMarginSample_2 : State :=
  { live with rst := { live.rst with excursion := some 10700 } }

theorem witness_SourcesReleaseAndTheSupplyIsWatched_supplyMarginSample_2 :
    state_SourcesReleaseAndTheSupplyIsWatched_supplyMarginSample_2.rst.asserted.getLsbD 0 = false ∧ 10800 < (10801 : Nat) := by
  decide +kernel

/-- The state of the witness below. -/
def state_SourcesReleaseAndTheSupplyIsWatched_supplyMarginSample_3 : State :=
  { live with rst := { live.rst with excursion := some 10700 } }

theorem witness_SourcesReleaseAndTheSupplyIsWatched_supplyMarginSample_3 :
    (state_SourcesReleaseAndTheSupplyIsWatched_supplyMarginSample_3.rst.asserted.getLsbD 0 = false ∧ state_SourcesReleaseAndTheSupplyIsWatched_supplyMarginSample_3.rst.dataUp = true) ∧ 10800 < (10801 : Nat) ∧ state_SourcesReleaseAndTheSupplyIsWatched_supplyMarginSample_3.rst.excursion = some (10700 : Nat) ∧ state_SourcesReleaseAndTheSupplyIsWatched_supplyMarginSample_3.err.ring = [] := by
  decide +kernel

/-- The state of the witness below. -/
def state_SourcesReleaseAndTheSupplyIsWatched_supplyMarginSample_4 : State :=
  { live with rst := { live.rst with asserted := 1 } }

theorem witness_SourcesReleaseAndTheSupplyIsWatched_supplyMarginSample_4 :
    state_SourcesReleaseAndTheSupplyIsWatched_supplyMarginSample_4.rst.asserted.getLsbD 0 = true ∨ (10800 : Nat) = 10800 := by
  decide +kernel

/-- The state of the witness below. -/
def state_SourcesReleaseAndTheSupplyIsWatched_vretLoss : State :=
  { live with rst := { live.rst with asserted := 1 } }

theorem witness_SourcesReleaseAndTheSupplyIsWatched_vretLoss :
    state_SourcesReleaseAndTheSupplyIsWatched_vretLoss.rst.asserted.getLsbD 0 = true := by
  decide +kernel

theorem witness_SourcesReleaseAndTheSupplyIsWatched_testHold :
    (5 : Nat) = 1 ∨ (5 : Nat) = 2 ∨ (5 : Nat) = 5 := by
  decide +kernel

/-- The state of the witness below. -/
def state_SourcesReleaseAndTheSupplyIsWatched_testHold_2 : State :=
  { live with rst := { live.rst with hold := some 2 } }

theorem witness_SourcesReleaseAndTheSupplyIsWatched_testHold_2 :
    state_SourcesReleaseAndTheSupplyIsWatched_testHold_2.rst.dataUp = true ∨ state_SourcesReleaseAndTheSupplyIsWatched_testHold_2.rst.staging = false ∨ state_SourcesReleaseAndTheSupplyIsWatched_testHold_2.rst.mgmtUp = false ∨ state_SourcesReleaseAndTheSupplyIsWatched_testHold_2.rst.phase ≠ .running := by
  decide +kernel

/-- The state of the witness below. -/
def state_SourcesReleaseAndTheSupplyIsWatched_testHold_3 : State :=
  { live with rst := { live.rst with hold := some 2, dataUp := false, staging := true } }

theorem witness_SourcesReleaseAndTheSupplyIsWatched_testHold_3 :
    state_SourcesReleaseAndTheSupplyIsWatched_testHold_3.rst.dataUp = false ∧ state_SourcesReleaseAndTheSupplyIsWatched_testHold_3.rst.staging = true ∧ state_SourcesReleaseAndTheSupplyIsWatched_testHold_3.rst.mgmtUp = true ∧ state_SourcesReleaseAndTheSupplyIsWatched_testHold_3.rst.phase = .running := by
  decide +kernel

/-- The state of the witness below. -/
def state_PlanesEnterReset_controlPlaneResetEntry : State :=
  { live with rst := { live.rst with phase := .ordered, level := 1, asserted := 0x10, seen := 0x10 } }

theorem witness_PlanesEnterReset_controlPlaneResetEntry :
    state_PlanesEnterReset_controlPlaneResetEntry.rst.phase = .ordered ∨ state_PlanesEnterReset_controlPlaneResetEntry.rst.phase = .orderedStretch := by
  decide +kernel

/-- The state of the witness below. -/
def state_PlanesEnterReset_dataPlaneStop : State :=
  { live with rst := { live.rst with phase := .inReset, level := 1, ctrlUp := false, mgmtUp := false } }

theorem witness_PlanesEnterReset_dataPlaneStop :
    (state_PlanesEnterReset_dataPlaneStop.rst.phase = .inReset ∨ state_PlanesEnterReset_dataPlaneStop.rst.phase = .stretch) ∧ state_PlanesEnterReset_dataPlaneStop.rst.level ≤ 1 ∧ state_PlanesEnterReset_dataPlaneStop.rst.ctrlUp = false ∧ state_PlanesEnterReset_dataPlaneStop.rst.dataUp = true := by
  decide +kernel

/-- The state of the witness below. -/
def state_PlanesEnterReset_stretchStart : State :=
  { live with rst := { live.rst with phase := .inReset, level := 3 } }

theorem witness_PlanesEnterReset_stretchStart :
    state_PlanesEnterReset_stretchStart.rst.phase = .inReset ∧ state_PlanesEnterReset_stretchStart.rst.asserted = 0#8 := by
  decide +kernel

/-- The state of the witness below. -/
def state_PlanesEnterReset_stretchStart_2 : State :=
  { live with rst := { live.rst with phase := .ordered, level := 1 } }

theorem witness_PlanesEnterReset_stretchStart_2 :
    state_PlanesEnterReset_stretchStart_2.rst.phase = .ordered ∧ state_PlanesEnterReset_stretchStart_2.rst.asserted = 0#8 := by
  decide +kernel

/-- The state of the witness below. -/
def state_TheStartRunsItsSteps_stretchEnd : State :=
  { live with rst := { live.rst with phase := .stretch, level := 3, seen := 0x0C, mgmtUp := false, margin := some 9000 } }

theorem witness_TheStartRunsItsSteps_stretchEnd :
    state_TheStartRunsItsSteps_stretchEnd.rst.phase = .stretch ∧ state_TheStartRunsItsSteps_stretchEnd.rst.asserted = 0#8 ∧ 2 ≤ state_TheStartRunsItsSteps_stretchEnd.rst.level ∧ state_TheStartRunsItsSteps_stretchEnd.rst.ctrlUp = true := by
  decide +kernel

/-- The state of the witness below. -/
def state_TheStartRunsItsSteps_stretchEnd_2 : State :=
  { State.reset with rst := { State.reset.rst with phase := .stretch, asserted := 0, level := 2, seen := 2 } }

theorem witness_TheStartRunsItsSteps_stretchEnd_2 :
    state_TheStartRunsItsSteps_stretchEnd_2.rst.phase = .stretch ∧ state_TheStartRunsItsSteps_stretchEnd_2.rst.asserted = 0#8 ∧ 2 ≤ state_TheStartRunsItsSteps_stretchEnd_2.rst.level ∧ state_TheStartRunsItsSteps_stretchEnd_2.rst.ctrlUp = false := by
  decide +kernel

theorem witness_TheStartRunsItsSteps_stretchEnd_3 :
    State.reset.rst.phase = .stretch ∧ State.reset.rst.asserted = 0#8 ∧ (State.reset.rst.level = 0 ∧ State.reset.rst.train = true) ∧ (State.reset.rst.ctrlUp = false ∧ State.reset.rst.dataUp = false ∧ State.reset.rst.staging = false) := by
  decide +kernel

/-- The state of the witness below. -/
def state_TheStartRunsItsSteps_stretchEnd_4 : State :=
  { State.reset with rst := { State.reset.rst with level := 1, train := false } }

theorem witness_TheStartRunsItsSteps_stretchEnd_4 :
    state_TheStartRunsItsSteps_stretchEnd_4.rst.phase = .stretch ∧ state_TheStartRunsItsSteps_stretchEnd_4.rst.asserted = 0#8 ∧ state_TheStartRunsItsSteps_stretchEnd_4.rst.level = 1 ∧ (state_TheStartRunsItsSteps_stretchEnd_4.rst.ctrlUp = false ∧ state_TheStartRunsItsSteps_stretchEnd_4.rst.dataUp = false ∧ state_TheStartRunsItsSteps_stretchEnd_4.rst.staging = false) := by
  decide +kernel

/-- The state of the witness below. -/
def state_TheStartRunsItsSteps_pllLock : State :=
  { State.reset with rst := { State.reset.rst with asserted := 0, phase := .running, exits := [0x0101] }, peat := { State.reset.peat with lostPower := false, signed := true, found := ⟨false, 4, false⟩, era := 6 } }

theorem witness_TheStartRunsItsSteps_pllLock :
    state_TheStartRunsItsSteps_pllLock.rst.phase = .running ∧ state_TheStartRunsItsSteps_pllLock.rst.ctrlUp = false ∧ state_TheStartRunsItsSteps_pllLock.rst.hold ≠ some 1 ∧ (state_TheStartRunsItsSteps_pllLock.peat.lostPower = false ∧ state_TheStartRunsItsSteps_pllLock.peat.signed = true ∧ state_TheStartRunsItsSteps_pllLock.peat.found.header = false) := by
  decide +kernel

/-- The state of the witness below. -/
def state_TheStartRunsItsSteps_pllLock_2 : State :=
  { State.reset with rst := { State.reset.rst with asserted := 0, phase := .running, exits := [0x0101] } }

theorem witness_TheStartRunsItsSteps_pllLock_2 :
    state_TheStartRunsItsSteps_pllLock_2.rst.phase = .running ∧ state_TheStartRunsItsSteps_pllLock_2.rst.ctrlUp = false ∧ state_TheStartRunsItsSteps_pllLock_2.rst.hold ≠ some 1 ∧ (state_TheStartRunsItsSteps_pllLock_2.peat.lostPower = true ∨ state_TheStartRunsItsSteps_pllLock_2.peat.signed = false ∨ state_TheStartRunsItsSteps_pllLock_2.peat.found.header = true) := by
  decide +kernel

/-- The state of the witness below. -/
def state_TheStartRunsItsSteps_stagingReady : State :=
  { State.reset with rst := { State.reset.rst with asserted := 0, phase := .running, ctrlUp := true, pll := true, train := true } }

theorem witness_TheStartRunsItsSteps_stagingReady :
    state_TheStartRunsItsSteps_stagingReady.rst.phase = .running ∧ (state_TheStartRunsItsSteps_stagingReady.rst.ctrlUp = true ∧ state_TheStartRunsItsSteps_stagingReady.rst.staging = false) ∧ false ≠ state_TheStartRunsItsSteps_stagingReady.rst.train ∧ (state_TheStartRunsItsSteps_stagingReady.rst.hold ≠ some 1 ∧ state_TheStartRunsItsSteps_stagingReady.rst.hold ≠ some 2) := by
  decide +kernel

/-- The state of the witness below. -/
def state_TheStartRunsItsSteps_mgmtBootDone : State :=
  { State.reset with rst := { State.reset.rst with asserted := 0, phase := .running, ctrlUp := true, pll := true } }

theorem witness_TheStartRunsItsSteps_mgmtBootDone :
    state_TheStartRunsItsSteps_mgmtBootDone.rst.phase = .running ∧ (state_TheStartRunsItsSteps_mgmtBootDone.rst.ctrlUp = true ∧ state_TheStartRunsItsSteps_mgmtBootDone.rst.mgmtUp = false) ∧ (state_TheStartRunsItsSteps_mgmtBootDone.rst.hold ≠ some 1 ∧ state_TheStartRunsItsSteps_mgmtBootDone.rst.hold ≠ some 2) := by
  decide +kernel

/-- The state of the witness below. -/
def state_TheStartRunsItsSteps_descReadsEnd : State :=
  { State.reset with rst := { State.reset.rst with asserted := 0, phase := .running, ctrlUp := true, pll := true } }

theorem witness_TheStartRunsItsSteps_descReadsEnd :
    state_TheStartRunsItsSteps_descReadsEnd.hasGrp (15 : Nat) = true ∧ (state_TheStartRunsItsSteps_descReadsEnd.rst.phase = .running ∧ state_TheStartRunsItsSteps_descReadsEnd.rst.ctrlUp = true) ∧ (state_TheStartRunsItsSteps_descReadsEnd.grpAt (15 : Nat)).descDone = false ∧ (state_TheStartRunsItsSteps_descReadsEnd.rst.hold ≠ some 1 ∧ state_TheStartRunsItsSteps_descReadsEnd.rst.hold ≠ some 2) ∧ (state_TheStartRunsItsSteps_descReadsEnd.pairStrap = false ∨ state_TheStartRunsItsSteps_descReadsEnd.twin.role = .solo ∨ state_TheStartRunsItsSteps_descReadsEnd.twin.role = .active) := by
  decide +kernel

/-- The state of the witness below. -/
def state_TheStartRunsItsSteps_mireMapRebuilt : State :=
  { live with rst := { live.rst with mireUp := false } }

theorem witness_TheStartRunsItsSteps_mireMapRebuilt :
    (state_TheStartRunsItsSteps_mireMapRebuilt.rst.dataUp = true ∧ state_TheStartRunsItsSteps_mireMapRebuilt.rst.mgmtUp = true ∧ state_TheStartRunsItsSteps_mireMapRebuilt.rst.mireUp = false) ∧ state_TheStartRunsItsSteps_mireMapRebuilt.noMire = false ∧ state_TheStartRunsItsSteps_mireMapRebuilt.heldAt [1, 2, 5] = false := by
  decide +kernel

/-- The state of the witness below. -/
def state_TheStartRunsItsSteps_mireMapRebuilt_2 : State :=
  { live with rst := { live.rst with mireUp := false } }

theorem witness_TheStartRunsItsSteps_mireMapRebuilt_2 :
    (state_TheStartRunsItsSteps_mireMapRebuilt_2.rst.dataUp = true ∧ state_TheStartRunsItsSteps_mireMapRebuilt_2.rst.mgmtUp = true ∧ state_TheStartRunsItsSteps_mireMapRebuilt_2.rst.mireUp = false) ∧ state_TheStartRunsItsSteps_mireMapRebuilt_2.noMire = false ∧ state_TheStartRunsItsSteps_mireMapRebuilt_2.heldAt [1, 2, 5] = false := by
  decide +kernel

/-- The state of the witness below. -/
def state_GroupResetsAndFuses_groupContextResetStart : State :=
  { live with grp := [(0, { Grp.init with ctxDue := true })] }

theorem witness_GroupResetsAndFuses_groupContextResetStart :
    state_GroupResetsAndFuses_groupContextResetStart.grpRuns (0 : Nat) = true ∧ (state_GroupResetsAndFuses_groupContextResetStart.grpAt (0 : Nat)).ctxDue = true ∧ (List.range 8).all (fun k => state_GroupResetsAndFuses_groupContextResetStart.portReleased (8 * (0 : Nat) + k)) = true := by
  decide +kernel

/-- The state of the witness below. -/
def state_GroupResetsAndFuses_groupContextResetEnd : State :=
  { live with grp := [(0, { Grp.init with ctxReset := true })] }

theorem witness_GroupResetsAndFuses_groupContextResetEnd :
    state_GroupResetsAndFuses_groupContextResetEnd.hasGrp (0 : Nat) = true ∧ state_GroupResetsAndFuses_groupContextResetEnd.rst.ctrlUp = true ∧ (state_GroupResetsAndFuses_groupContextResetEnd.grpAt (0 : Nat)).ctxReset = true := by
  decide +kernel

/-- The state of the witness below. -/
def state_GroupResetsAndFuses_groupContextResetEnd_2 : State :=
  { live with grp := [(3, { Grp.init with ctxReset := true })], host := { live.host with outst := [⟨0, false, 0x1004, 9, 0, 0, 0, 8, 0, 0⟩] } }

theorem witness_GroupResetsAndFuses_groupContextResetEnd_2 :
    state_GroupResetsAndFuses_groupContextResetEnd_2.hasGrp (3 : Nat) = true ∧ state_GroupResetsAndFuses_groupContextResetEnd_2.rst.ctrlUp = true ∧ (state_GroupResetsAndFuses_groupContextResetEnd_2.grpAt (3 : Nat)).ctxReset = true ∧ state_GroupResetsAndFuses_groupContextResetEnd_2.host.outst.filter (fun x => x.opcode == 0x1004) = [(⟨0, false, 0x1004, 9, 0, 0, 0, 8, 0, 0⟩ : Outstanding)] ∧ (⟨0, false, 0x1004, 9, 0, 0, 0, 8, 0, 0⟩ : Outstanding).obj = 2 ^ (3 : Nat) := by
  decide +kernel

/-- The state of the witness below. -/
def state_GroupResetsAndFuses_groupContextResetEnd_3 : State :=
  { live with grp := [(3, { Grp.init with ctxReset := true })], host := { live.host with outst := [⟨0, false, 0x1004, 9, 0, 0, 0, 9, 0, 0⟩] } }

theorem witness_GroupResetsAndFuses_groupContextResetEnd_3 :
    state_GroupResetsAndFuses_groupContextResetEnd_3.hasGrp (3 : Nat) = true ∧ state_GroupResetsAndFuses_groupContextResetEnd_3.rst.ctrlUp = true ∧ (state_GroupResetsAndFuses_groupContextResetEnd_3.grpAt (3 : Nat)).ctxReset = true ∧ state_GroupResetsAndFuses_groupContextResetEnd_3.host.outst.filter (fun x => x.opcode == 0x1004) = [(⟨0, false, 0x1004, 9, 0, 0, 0, 9, 0, 0⟩ : Outstanding)] ∧ ((⟨0, false, 0x1004, 9, 0, 0, 0, 9, 0, 0⟩ : Outstanding).obj.testBit (3 : Nat) = true ∧ (⟨0, false, 0x1004, 9, 0, 0, 0, 9, 0, 0⟩ : Outstanding).obj ≠ 2 ^ (3 : Nat)) := by
  decide +kernel

/-- The state of the witness below. -/
def state_GroupResetsAndFuses_fuseProgramEnd : State :=
  { live with host := { live.host with outst := [⟨0, false, 0x1003, 9, 0, 0, 0, 0x28, 1, 0⟩] } }

theorem witness_GroupResetsAndFuses_fuseProgramEnd :
    state_GroupResetsAndFuses_fuseProgramEnd.rst.mgmtUp = true ∧ state_GroupResetsAndFuses_fuseProgramEnd.host.outst.find? (fun x => x.opcode == 0x1003) = some (⟨0, false, 0x1003, 9, 0, 0, 0, 0x28, 1, 0⟩ : Outstanding) ∧ (0x80000000 : Word) = bitAt ((⟨0, false, 0x1003, 9, 0, 0, 0, 0x28, 1, 0⟩ : Outstanding).aux == 1 || state_GroupResetsAndFuses_fuseProgramEnd.rst.fuseProgrammed.getLsbD 31) 31 := by
  decide +kernel

theorem witness_ThePrimarySideStartsAndStops_vccPStart :
    live.pfe.pri.flyback = false ∧ live.pfe.pri.overTemp = false := by
  decide +kernel

/-- The state of the witness below. -/
def state_ThePrimarySideStartsAndStops_vccPLow : State :=
  { live with pfe := { live.pfe with  pri := { live.pfe.pri with flyback := true, pfcRun := true } }, iso := { live.iso with rxValid := true, txValid := true } }

theorem witness_ThePrimarySideStartsAndStops_vccPLow :
    state_ThePrimarySideStartsAndStops_vccPLow.pfe.pri.flyback = true := by
  decide +kernel

/-- The state of the witness below. -/
def state_ThePrimarySideStartsAndStops_auxSecondaryRegulation : State :=
  { live with pfe := { live.pfe with  pri := { live.pfe.pri with flyback := true } }, iso := { live.iso with rxValid := true, txValid := true } }

theorem witness_ThePrimarySideStartsAndStops_auxSecondaryRegulation :
    state_ThePrimarySideStartsAndStops_auxSecondaryRegulation.pfe.pri.flyback = true ∧ state_ThePrimarySideStartsAndStops_auxSecondaryRegulation.established = true ∧ state_ThePrimarySideStartsAndStops_auxSecondaryRegulation.pfe.pri.isoFailed = false := by
  decide +kernel

/-- The state of the witness below. -/
def state_ThePrimarySideStartsAndStops_relayClose : State :=
  { live with pfe := { live.pfe with vbulk := some 9, linePeak := 10, pri := { live.pfe.pri with flyback := true, auxSec := true } }, iso := { live.iso with rxValid := true, txValid := true }, mt := { live.mt with mainsValid := true } }

theorem witness_ThePrimarySideStartsAndStops_relayClose :
    state_ThePrimarySideStartsAndStops_relayClose.pfe.vbulk = some (9 : Nat) ∧ (state_ThePrimarySideStartsAndStops_relayClose.rst.ctrlUp = true ∧ state_ThePrimarySideStartsAndStops_relayClose.priSeen = true ∧ state_ThePrimarySideStartsAndStops_relayClose.mt.mainsValid = true) ∧ (state_ThePrimarySideStartsAndStops_relayClose.pfe.pri.auxSec = true ∧ state_ThePrimarySideStartsAndStops_relayClose.pfe.pri.relayFault = false ∧ state_ThePrimarySideStartsAndStops_relayClose.iso.relayCmd = false) ∧ 9 * state_ThePrimarySideStartsAndStops_relayClose.pfe.linePeak ≤ 10 * (9 : Nat) := by
  decide +kernel

/-- The state of the witness below. -/
def state_ThePrimarySideStartsAndStops_relayClose_2 : State :=
  { live with pfe := { live.pfe with vbulk := some 8, linePeak := 10, pri := { live.pfe.pri with flyback := true, auxSec := true } }, iso := { live.iso with rxValid := true, txValid := true }, mt := { live.mt with mainsValid := true } }

theorem witness_ThePrimarySideStartsAndStops_relayClose_2 :
    state_ThePrimarySideStartsAndStops_relayClose_2.pfe.vbulk = some (8 : Nat) ∧ (10 * (8 : Nat) < 9 * state_ThePrimarySideStartsAndStops_relayClose_2.pfe.linePeak ∨ state_ThePrimarySideStartsAndStops_relayClose_2.pfe.pri.auxSec = false) := by
  decide +kernel

/-- The state of the witness below. -/
def state_ThePrimarySideStartsAndStops_relayCheck : State :=
  { live with pfe := { live.pfe with  pri := { live.pfe.pri with flyback := true, relayCmd := true, pfcEn := true, restart := 1 } }, iso := { live.iso with rxValid := true, txValid := true } }

theorem witness_ThePrimarySideStartsAndStops_relayCheck :
    state_ThePrimarySideStartsAndStops_relayCheck.pfe.pri.flyback = true ∧ true = state_ThePrimarySideStartsAndStops_relayCheck.pfe.pri.relayCmd ∧ (state_ThePrimarySideStartsAndStops_relayCheck.pfe.pri.pfcRun = true ∨ state_ThePrimarySideStartsAndStops_relayCheck.pfe.pri.pfcEn = false ∨ true = false ∨ state_ThePrimarySideStartsAndStops_relayCheck.pfe.pri.relayFault = true ∨ state_ThePrimarySideStartsAndStops_relayCheck.pfe.pri.lineLoss = true ∨ state_ThePrimarySideStartsAndStops_relayCheck.pfe.pri.overTemp = true ∨ state_ThePrimarySideStartsAndStops_relayCheck.pfe.pri.isoFailed = true ∨ state_ThePrimarySideStartsAndStops_relayCheck.clk < state_ThePrimarySideStartsAndStops_relayCheck.pfe.pri.restart) := by
  decide +kernel

/-- The state of the witness below. -/
def state_ThePrimarySideStartsAndStops_relayCheck_2 : State :=
  { live with pfe := { live.pfe with  pri := { live.pfe.pri with flyback := true, relayCmd := true, pfcEn := true, vbulk := 30000 } }, iso := { live.iso with rxValid := true, txValid := true } }

theorem witness_ThePrimarySideStartsAndStops_relayCheck_2 :
    (state_ThePrimarySideStartsAndStops_relayCheck_2.pfe.pri.flyback = true ∧ state_ThePrimarySideStartsAndStops_relayCheck_2.pfe.pri.relayCmd = true) ∧ (state_ThePrimarySideStartsAndStops_relayCheck_2.pfe.pri.pfcRun = false ∧ state_ThePrimarySideStartsAndStops_relayCheck_2.pfe.pri.pfcEn = true ∧ state_ThePrimarySideStartsAndStops_relayCheck_2.pfe.pri.relayFault = false ∧ state_ThePrimarySideStartsAndStops_relayCheck_2.pfe.pri.lineLoss = false ∧ state_ThePrimarySideStartsAndStops_relayCheck_2.pfe.pri.overTemp = false ∧ state_ThePrimarySideStartsAndStops_relayCheck_2.pfe.pri.isoFailed = false ∧ state_ThePrimarySideStartsAndStops_relayCheck_2.pfe.pri.restart ≤ state_ThePrimarySideStartsAndStops_relayCheck_2.clk) := by
  decide +kernel

/-- The state of the witness below. -/
def state_ThePrimarySideStartsAndStops_relayCheck_3 : State :=
  { live with pfe := { live.pfe with  pri := { live.pfe.pri with flyback := true, relayCmd := true, pfcRun := true } }, iso := { live.iso with rxValid := true, txValid := true } }

theorem witness_ThePrimarySideStartsAndStops_relayCheck_3 :
    state_ThePrimarySideStartsAndStops_relayCheck_3.pfe.pri.flyback = true ∧ false ≠ state_ThePrimarySideStartsAndStops_relayCheck_3.pfe.pri.relayCmd := by
  decide +kernel

/-- The state of the witness below. -/
def state_ThePrimarySideStartsAndStops_bulkOkChange : State :=
  { live with pfe := { live.pfe with vbulk := some 38800, bulkOk := false, pri := { live.pfe.pri with pfcRun := true } }, iso := { live.iso with rxValid := true, txValid := true } }

theorem witness_ThePrimarySideStartsAndStops_bulkOkChange :
    (state_ThePrimarySideStartsAndStops_bulkOkChange.rst.ctrlUp = true ∧ state_ThePrimarySideStartsAndStops_bulkOkChange.priSeen = true) ∧ state_ThePrimarySideStartsAndStops_bulkOkChange.pfe.pri.pfcRun = true ∧ state_ThePrimarySideStartsAndStops_bulkOkChange.bulkInBand = true := by
  decide +kernel

theorem witness_ThePrimarySideStartsAndStops_bulkOkChange_2 :
    live.pfe.pri.pfcRun = false ∨ live.bulkInBand = false := by
  decide +kernel

/-- The state of the witness below. -/
def state_ThePrimarySideStartsAndStops_pfcOvercurrent : State :=
  { live with pfe := { live.pfe with  pri := { live.pfe.pri with pfcRun := true, ocpRun := 63 } }, iso := { live.iso with rxValid := true, txValid := true } }

theorem witness_ThePrimarySideStartsAndStops_pfcOvercurrent :
    state_ThePrimarySideStartsAndStops_pfcOvercurrent.pfe.pri.pfcRun = true ∧ 63 ≤ state_ThePrimarySideStartsAndStops_pfcOvercurrent.pfe.pri.ocpRun ∧ (state_ThePrimarySideStartsAndStops_pfcOvercurrent.clk - state_ThePrimarySideStartsAndStops_pfcOvercurrent.pfe.pri.ocpClk) * 2 * state_ThePrimarySideStartsAndStops_pfcOvercurrent.castN 0x123 0 ≤ 600000 := by
  decide +kernel

/-- The state of the witness below. -/
def state_ThePrimarySideStartsAndStops_pfcOvercurrent_2 : State :=
  { live with pfe := { live.pfe with  pri := { live.pfe.pri with pfcRun := true, ocpRun := 62 } }, iso := { live.iso with rxValid := true, txValid := true } }

theorem witness_ThePrimarySideStartsAndStops_pfcOvercurrent_2 :
    state_ThePrimarySideStartsAndStops_pfcOvercurrent_2.pfe.pri.pfcRun = true ∧ state_ThePrimarySideStartsAndStops_pfcOvercurrent_2.pfe.pri.ocpRun < 63 ∧ (state_ThePrimarySideStartsAndStops_pfcOvercurrent_2.clk - state_ThePrimarySideStartsAndStops_pfcOvercurrent_2.pfe.pri.ocpClk) * 2 * state_ThePrimarySideStartsAndStops_pfcOvercurrent_2.castN 0x123 0 ≤ 600000 := by
  decide +kernel

/-- The state of the witness below. -/
def state_ThePrimarySideStartsAndStops_pfcOvercurrent_3 : State :=
  { live with pfe := { live.pfe with  pri := { live.pfe.pri with pfcRun := true, ocpRun := 63 } }, iso := { live.iso with rxValid := true, txValid := true }, clk := 1000000 }

theorem witness_ThePrimarySideStartsAndStops_pfcOvercurrent_3 :
    state_ThePrimarySideStartsAndStops_pfcOvercurrent_3.pfe.pri.pfcRun = true ∧ 600000 < (state_ThePrimarySideStartsAndStops_pfcOvercurrent_3.clk - state_ThePrimarySideStartsAndStops_pfcOvercurrent_3.pfe.pri.ocpClk) * 2 * state_ThePrimarySideStartsAndStops_pfcOvercurrent_3.castN 0x123 0 := by
  decide +kernel

/-- The state of the witness below. -/
def state_ThePrimarySideStartsAndStops_bulkOvervoltage : State :=
  { live with pfe := { live.pfe with  pri := { live.pfe.pri with pfcRun := true } }, iso := { live.iso with rxValid := true, txValid := true } }

theorem witness_ThePrimarySideStartsAndStops_bulkOvervoltage :
    True := by
  decide +kernel

/-- The state of the witness below. -/
def state_ThePrimarySideStartsAndStops_bulkOvervoltage_2 : State :=
  { live with pfe := { live.pfe with  pri := { live.pfe.pri with pfcHeld := true } }, iso := { live.iso with rxValid := true, txValid := true } }

theorem witness_ThePrimarySideStartsAndStops_bulkOvervoltage_2 :
    True := by
  decide +kernel

/-- The state of the witness below. -/
def state_ThePrimarySideStartsAndStops_bulkUndervoltage : State :=
  { live with pfe := { live.pfe with vbulk := some 29624, pri := { live.pfe.pri with pfcRun := true } }, iso := { live.iso with rxValid := true, txValid := true } }

theorem witness_ThePrimarySideStartsAndStops_bulkUndervoltage :
    state_ThePrimarySideStartsAndStops_bulkUndervoltage.pfe.pri.pfcRun = true ∧ (state_ThePrimarySideStartsAndStops_bulkUndervoltage.pfe.vbulk = none ∨ state_ThePrimarySideStartsAndStops_bulkUndervoltage.pfe.vbulk.any (fun v => decide (v < 75 * state_ThePrimarySideStartsAndStops_bulkUndervoltage.castN 0x122 0)) = true) := by
  decide +kernel

/-- The state of the witness below. -/
def state_ThePrimarySideStartsAndStops_lineLoss : State :=
  { live with pfe := { live.pfe with  pri := { live.pfe.pri with flyback := true, pfcRun := true } }, iso := { live.iso with rxValid := true, txValid := true } }

theorem witness_ThePrimarySideStartsAndStops_lineLoss :
    state_ThePrimarySideStartsAndStops_lineLoss.pfe.pri.flyback = true ∧ state_ThePrimarySideStartsAndStops_lineLoss.pfe.pri.lineLoss = false := by
  decide +kernel

/-- The state of the witness below. -/
def state_ThePrimarySideStartsAndStops_primaryOverTemperature : State :=
  { live with pfe := { live.pfe with  pri := { live.pfe.pri with flyback := true } }, iso := { live.iso with rxValid := true, txValid := true } }

theorem witness_ThePrimarySideStartsAndStops_primaryOverTemperature :
    True := by
  decide +kernel

/-- The state of the witness below. -/
def state_ThePrimarySideStartsAndStops_primaryOverTemperature_2 : State :=
  { live with pfe := { live.pfe with  pri := { live.pfe.pri with overTemp := true } }, iso := { live.iso with rxValid := true, txValid := true } }

theorem witness_ThePrimarySideStartsAndStops_primaryOverTemperature_2 :
    True := by
  decide +kernel

/-- The state of the witness below. -/
def state_ThePrimarySideStartsAndStops_flybackStop : State :=
  { live with pfe := { live.pfe with vbulk := some 15000, pri := { live.pfe.pri with flyback := true, params := [(0x129, 150)] } }, iso := { live.iso with rxValid := true, txValid := true } }

theorem witness_ThePrimarySideStartsAndStops_flybackStop :
    tget? state_ThePrimarySideStartsAndStops_flybackStop.pfe.pri.params 0x129 = some (150 : Nat) ∧ (state_ThePrimarySideStartsAndStops_flybackStop.pfe.vbulk = none ∨ state_ThePrimarySideStartsAndStops_flybackStop.pfe.vbulk.any (fun b => decide (b ≤ 100 * (150 : Nat))) = true) ∧ state_ThePrimarySideStartsAndStops_flybackStop.pfe.pri.flyback = true := by
  decide +kernel

/-- The state of the witness below. -/
def state_ThePrimarySideStartsAndStops_flybackStop_2 : State :=
  { live with pfe := { live.pfe with  pri := { live.pfe.pri with flyback := true } }, iso := { live.iso with rxValid := true, txValid := true } }

theorem witness_ThePrimarySideStartsAndStops_flybackStop_2 :
    tget? state_ThePrimarySideStartsAndStops_flybackStop_2.pfe.pri.params 0x129 = none := by
  decide +kernel

/-- The state of the witness below. -/
def state_ThePrimarySideStartsAndStops_priWarn : State :=
  { live with pfe := { live.pfe with  pri := { live.pfe.pri with flyback := true } }, iso := { live.iso with rxValid := true, txValid := true } }

theorem witness_ThePrimarySideStartsAndStops_priWarn :
    True := by
  decide +kernel

/-- The state of the witness below. -/
def state_TheIsolationChannelCarriesFrames_isoFrameSend : State :=
  { live with pfe := { live.pfe with  pri := { live.pfe.pri with flyback := true } }, iso := { live.iso with rxValid := true, txValid := true , paramsDue := [0x129], auxErr := -7 } }

theorem witness_TheIsolationChannelCarriesFrames_isoFrameSend :
    state_TheIsolationChannelCarriesFrames_isoFrameSend.rst.ctrlUp = true := by
  decide +kernel

/-- The state of the witness below. -/
def state_TheIsolationChannelCarriesFrames_isoFrameReceive : State :=
  { live with pfe := { live.pfe with  pri := { live.pfe.pri with flyback := true, frameErr := 2 } }, iso := { live.iso with rxValid := true, txValid := true , flight := true } }

theorem witness_TheIsolationChannelCarriesFrames_isoFrameReceive :
    state_TheIsolationChannelCarriesFrames_isoFrameReceive.iso.flight = true ∧ (state_TheIsolationChannelCarriesFrames_isoFrameReceive.pfe.pri.flyback = false ∨ false = false) := by
  decide +kernel

/-- The state of the witness below. -/
def state_TheIsolationChannelCarriesFrames_isoFrameReceive_2 : State :=
  { live with pfe := { live.pfe with  pri := { live.pfe.pri with flyback := true, relay := true, lineLoss := true, vbulk := 30000 } }, iso := { live.iso with rxValid := true, txValid := true , flight := true, sentPfcEn := true, sentRelay := true, sentBulkV := 390, sentParams := [(0x129, 150), (0x129, 160)] } }

theorem witness_TheIsolationChannelCarriesFrames_isoFrameReceive_2 :
    state_TheIsolationChannelCarriesFrames_isoFrameReceive_2.iso.flight = true ∧ state_TheIsolationChannelCarriesFrames_isoFrameReceive_2.pfe.pri.flyback = true ∧ true = (!state_TheIsolationChannelCarriesFrames_isoFrameReceive_2.pfe.pri.isoFailed && state_TheIsolationChannelCarriesFrames_isoFrameReceive_2.iso.sentRelay && !state_TheIsolationChannelCarriesFrames_isoFrameReceive_2.pfe.pri.relaySeen && !state_TheIsolationChannelCarriesFrames_isoFrameReceive_2.pfe.pri.relayFault) ∧ (state_TheIsolationChannelCarriesFrames_isoFrameReceive_2.iso.sentPfcEn = true ∨ state_TheIsolationChannelCarriesFrames_isoFrameReceive_2.pfe.pri.pfcRun = false) := by
  decide +kernel

/-- The state of the witness below. -/
def state_TheIsolationChannelCarriesFrames_isoFrameReceive_3 : State :=
  { live with pfe := { live.pfe with  pri := { live.pfe.pri with flyback := true, pfcRun := true } }, iso := { live.iso with rxValid := true, txValid := true , flight := true } }

theorem witness_TheIsolationChannelCarriesFrames_isoFrameReceive_3 :
    state_TheIsolationChannelCarriesFrames_isoFrameReceive_3.iso.flight = true ∧ state_TheIsolationChannelCarriesFrames_isoFrameReceive_3.pfe.pri.flyback = true ∧ (state_TheIsolationChannelCarriesFrames_isoFrameReceive_3.iso.sentPfcEn = false ∧ state_TheIsolationChannelCarriesFrames_isoFrameReceive_3.pfe.pri.pfcRun = true) := by
  decide +kernel

theorem witness_TheIsolationChannelCarriesFrames_isoFrameReceive_4 :
    live.iso.flight = false := by
  decide +kernel

/-- The state of the witness below. -/
def state_TheIsolationChannelCarriesFrames_isoFrameReceive_5 : State :=
  { live with pfe := { live.pfe with  pri := { live.pfe.pri with reports := 4 } }, iso := { live.iso with rxValid := true, txValid := true }, sets := { live.sets with cast := { live.sets.cast with params := [(pkey 0x120 0, 1)] } } }

theorem witness_TheIsolationChannelCarriesFrames_isoFrameReceive_5 :
    state_TheIsolationChannelCarriesFrames_isoFrameReceive_5.rst.ctrlUp = true ∧ state_TheIsolationChannelCarriesFrames_isoFrameReceive_5.dcFed = true := by
  decide +kernel

/-- The state of the witness below. -/
def state_TheIsolationChannelCarriesFrames_isoFrameReceive_6 : State :=
  { live with pfe := { live.pfe with  pri := { live.pfe.pri with reports := 0x88, ocpDue := 65 } }, iso := { live.iso with rxValid := true, txValid := true , relayCmd := true } }

theorem witness_TheIsolationChannelCarriesFrames_isoFrameReceive_6 :
    state_TheIsolationChannelCarriesFrames_isoFrameReceive_6.rst.ctrlUp = true ∧ state_TheIsolationChannelCarriesFrames_isoFrameReceive_6.dcFed = false ∧ (state_TheIsolationChannelCarriesFrames_isoFrameReceive_6.pfe.pri.reports.getLsbD 2 = false ∨ state_TheIsolationChannelCarriesFrames_isoFrameReceive_6.pfe.everValid = false ∨ state_TheIsolationChannelCarriesFrames_isoFrameReceive_6.pfe.hu ≠ .normal) := by
  decide +kernel

/-- The state of the witness below. -/
def state_TheIsolationChannelCarriesFrames_isoFrameReceive_7 : State :=
  { live with pfe := { live.pfe with eUse := 5, vbulk := some 39000, pri := { live.pfe.pri with reports := 4 } }, iso := { live.iso with rxValid := true, txValid := true , relayCmd := true } }

theorem witness_TheIsolationChannelCarriesFrames_isoFrameReceive_7 :
    state_TheIsolationChannelCarriesFrames_isoFrameReceive_7.rst.ctrlUp = true ∧ state_TheIsolationChannelCarriesFrames_isoFrameReceive_7.dcFed = false ∧ (state_TheIsolationChannelCarriesFrames_isoFrameReceive_7.pfe.pri.reports.getLsbD 2 = true ∧ state_TheIsolationChannelCarriesFrames_isoFrameReceive_7.pfe.everValid = true ∧ state_TheIsolationChannelCarriesFrames_isoFrameReceive_7.pfe.hu = .normal) ∧ (state_TheIsolationChannelCarriesFrames_isoFrameReceive_7.pfe.vbulk = none ∨ state_TheIsolationChannelCarriesFrames_isoFrameReceive_7.pfe.eRes < state_TheIsolationChannelCarriesFrames_isoFrameReceive_7.pfe.eUse) := by
  decide +kernel

/-- The state of the witness below. -/
def state_TheIsolationChannelCarriesFrames_isoFrameReceive_8 : State :=
  { live with pfe := { live.pfe with eUse := 5, eRes := 5, vbulk := some 39000, pri := { live.pfe.pri with reports := 4 } }, iso := { live.iso with rxValid := true, txValid := true , relayCmd := true }, fig := [(3, { Fig.init with enabled := true, run := .active })] }

theorem witness_TheIsolationChannelCarriesFrames_isoFrameReceive_8 :
    state_TheIsolationChannelCarriesFrames_isoFrameReceive_8.rst.ctrlUp = true ∧ state_TheIsolationChannelCarriesFrames_isoFrameReceive_8.dcFed = false ∧ (state_TheIsolationChannelCarriesFrames_isoFrameReceive_8.pfe.pri.reports.getLsbD 2 = true ∧ state_TheIsolationChannelCarriesFrames_isoFrameReceive_8.pfe.everValid = true ∧ state_TheIsolationChannelCarriesFrames_isoFrameReceive_8.pfe.hu = .normal) ∧ (state_TheIsolationChannelCarriesFrames_isoFrameReceive_8.pfe.vbulk ≠ none ∧ state_TheIsolationChannelCarriesFrames_isoFrameReceive_8.pfe.eUse ≤ state_TheIsolationChannelCarriesFrames_isoFrameReceive_8.pfe.eRes) := by
  decide +kernel

theorem witness_TheIsolationChannelCarriesFrames_isoFrameReceive_9 :
    live.rst.ctrlUp = true := by
  decide +kernel

/-- The state of the witness below. -/
def state_TheIsolationChannelCarriesFrames_isoChannelFail : State :=
  { live with pfe := { live.pfe with everValid := false, vbulk := some 9, pri := { live.pfe.pri with flyback := true } }, iso := { live.iso with rxValid := true, txValid := true } }

theorem witness_TheIsolationChannelCarriesFrames_isoChannelFail :
    (state_TheIsolationChannelCarriesFrames_isoChannelFail.rst.ctrlUp = true ∧ state_TheIsolationChannelCarriesFrames_isoChannelFail.established = true ∧ state_TheIsolationChannelCarriesFrames_isoChannelFail.iso.failed = false) ∧ (state_TheIsolationChannelCarriesFrames_isoChannelFail.dcFed = true ∨ state_TheIsolationChannelCarriesFrames_isoChannelFail.pfe.everValid = false ∨ state_TheIsolationChannelCarriesFrames_isoChannelFail.pfe.hu ≠ .normal) ∧ state_TheIsolationChannelCarriesFrames_isoChannelFail.cal.mainsRun = none := by
  decide +kernel

/-- The state of the witness below. -/
def state_TheIsolationChannelCarriesFrames_isoChannelFail_2 : State :=
  { live with pfe := { live.pfe with vbulk := some 9, pri := { live.pfe.pri with flyback := true } }, iso := { live.iso with rxValid := true, txValid := true }, fig := [(3, { Fig.init with enabled := true, run := .active })] }

theorem witness_TheIsolationChannelCarriesFrames_isoChannelFail_2 :
    (state_TheIsolationChannelCarriesFrames_isoChannelFail_2.rst.ctrlUp = true ∧ state_TheIsolationChannelCarriesFrames_isoChannelFail_2.established = true ∧ state_TheIsolationChannelCarriesFrames_isoChannelFail_2.iso.failed = false) ∧ (state_TheIsolationChannelCarriesFrames_isoChannelFail_2.dcFed = false ∧ state_TheIsolationChannelCarriesFrames_isoChannelFail_2.pfe.everValid = true ∧ state_TheIsolationChannelCarriesFrames_isoChannelFail_2.pfe.hu = .normal) := by
  decide +kernel

/-- The state of the witness below. -/
def state_TheIsolationChannelCarriesFrames_isoChannelFail_3 : State :=
  { live with pfe := { live.pfe with hu := .spent, pri := { live.pfe.pri with flyback := true } }, iso := { live.iso with rxValid := true, txValid := true }, cal := { live.cal with mainsRun := some 1 }, host := { live.host with outst := [⟨0, false, 0x0E03, 9, 0, 0, 0, 1, 0, 0⟩] } }

theorem witness_TheIsolationChannelCarriesFrames_isoChannelFail_3 :
    (state_TheIsolationChannelCarriesFrames_isoChannelFail_3.rst.ctrlUp = true ∧ state_TheIsolationChannelCarriesFrames_isoChannelFail_3.established = true ∧ state_TheIsolationChannelCarriesFrames_isoChannelFail_3.iso.failed = false) ∧ (state_TheIsolationChannelCarriesFrames_isoChannelFail_3.dcFed = true ∨ state_TheIsolationChannelCarriesFrames_isoChannelFail_3.pfe.everValid = false ∨ state_TheIsolationChannelCarriesFrames_isoChannelFail_3.pfe.hu ≠ .normal) ∧ state_TheIsolationChannelCarriesFrames_isoChannelFail_3.cal.mainsRun = some (1 : Nat) ∧ state_TheIsolationChannelCarriesFrames_isoChannelFail_3.host.outst.find? (fun x => x.opcode == 0x0E03) = some (⟨0, false, 0x0E03, 9, 0, 0, 0, 1, 0, 0⟩ : Outstanding) := by
  decide +kernel

/-- The state of the witness below. -/
def state_TheIsolationChannelCarriesFrames_isoChannelFail_4 : State :=
  { live with pfe := { live.pfe with  pri := { live.pfe.pri with flyback := true, pfcRun := true } }, iso := { live.iso with rxValid := true, txValid := true } }

theorem witness_TheIsolationChannelCarriesFrames_isoChannelFail_4 :
    state_TheIsolationChannelCarriesFrames_isoChannelFail_4.iso.txValid = true ∧ state_TheIsolationChannelCarriesFrames_isoChannelFail_4.pfe.pri.isoFailed = false := by
  decide +kernel

/-- The state of the witness below. -/
def state_TheIsolationChannelCarriesFrames_isoChannelRestore : State :=
  { live with iso := { live.iso with failed := true } }

theorem witness_TheIsolationChannelCarriesFrames_isoChannelRestore :
    state_TheIsolationChannelCarriesFrames_isoChannelRestore.rst.ctrlUp = true ∧ state_TheIsolationChannelCarriesFrames_isoChannelRestore.iso.failed = true := by
  decide +kernel

/-- The state of the witness below. -/
def state_TheIsolationChannelCarriesFrames_isoChannelRestore_2 : State :=
  { live with pfe := { live.pfe with  pri := { live.pfe.pri with flyback := true, isoFailed := true, relay := true, pfcEn := true } }, iso := { live.iso with rxValid := true, txValid := true } }

theorem witness_TheIsolationChannelCarriesFrames_isoChannelRestore_2 :
    state_TheIsolationChannelCarriesFrames_isoChannelRestore_2.pfe.pri.isoFailed = true ∧ true = (state_TheIsolationChannelCarriesFrames_isoChannelRestore_2.pfe.pri.pfcEn && state_TheIsolationChannelCarriesFrames_isoChannelRestore_2.pfe.pri.relay && state_TheIsolationChannelCarriesFrames_isoChannelRestore_2.pfe.pri.flyback && !state_TheIsolationChannelCarriesFrames_isoChannelRestore_2.pfe.pri.relayFault && !state_TheIsolationChannelCarriesFrames_isoChannelRestore_2.pfe.pri.lineLoss && !state_TheIsolationChannelCarriesFrames_isoChannelRestore_2.pfe.pri.overTemp && decide (state_TheIsolationChannelCarriesFrames_isoChannelRestore_2.pfe.pri.restart ≤ state_TheIsolationChannelCarriesFrames_isoChannelRestore_2.clk) && !state_TheIsolationChannelCarriesFrames_isoChannelRestore_2.pfe.pri.pfcRun) := by
  decide +kernel

/-- The state of the witness below. -/
def state_HoldupRunsItsStates_holdupEstimate : State :=
  { live with pfe := { live.pfe with  pri := { live.pfe.pri with flyback := true } }, iso := { live.iso with rxValid := true, txValid := true }, sets := { live.sets with cast := { live.sets.cast with params := [(pkey 0x127 0, 1000)] } } }

theorem witness_HoldupRunsItsStates_holdupEstimate :
    (state_HoldupRunsItsStates_holdupEstimate.rst.ctrlUp = true ∧ state_HoldupRunsItsStates_holdupEstimate.priSeen = true) ∧ ((23529 : Nat) = (20000 : Nat) * 65536 / max 1 (state_HoldupRunsItsStates_holdupEstimate.castN 0x12A 0) ∧ (22352 : Nat) = (19000 : Nat) * 65536 / max 1 (state_HoldupRunsItsStates_holdupEstimate.castN 0x12A 0)) ∧ (51840 : Nat) = ((some 39000 : Option Nat).map (fun v => state_HoldupRunsItsStates_holdupEstimate.castN 0x127 0 * state_HoldupRunsItsStates_holdupEstimate.castN 0x128 0 * (v * v - 100 * state_HoldupRunsItsStates_holdupEstimate.castN 0x129 0 * (100 * state_HoldupRunsItsStates_holdupEstimate.castN 0x129 0)) / (65536 * 20000000))).getD 0 ∧ (58 : Nat) = (state_HoldupRunsItsStates_holdupEstimate.sto.staged * (23529 : Nat) / (max 1 state_HoldupRunsItsStates_holdupEstimate.sto.rate * 1000000) + (state_HoldupRunsItsStates_holdupEstimate.stagePower / 2 + (23529 : Nat)) * state_HoldupRunsItsStates_holdupEstimate.castN 0x12C 0 / 1000) * (100 + state_HoldupRunsItsStates_holdupEstimate.castN 0x12F 0) / 100 ∧ (state_HoldupRunsItsStates_holdupEstimate.pfe.hu ≠ .ride ∨ (some 39000 : Option Nat) = none ∨ (58 : Nat) < (51840 : Nat)) := by
  decide +kernel

/-- The state of the witness below. -/
def state_HoldupRunsItsStates_holdupEstimate_2 : State :=
  { live with pfe := { live.pfe with vbulk := some 5 } }

theorem witness_HoldupRunsItsStates_holdupEstimate_2 :
    state_HoldupRunsItsStates_holdupEstimate_2.rst.ctrlUp = true ∧ state_HoldupRunsItsStates_holdupEstimate_2.priSeen = false := by
  decide +kernel

/-- The state of the witness below. -/
def state_HoldupRunsItsStates_holdupEstimate_3 : State :=
  { live with pfe := { live.pfe with hu := .ride, pri := { live.pfe.pri with flyback := true } }, iso := { live.iso with rxValid := true, txValid := true }, fig := [(3, { Fig.init with enabled := true, run := .active })] }

theorem witness_HoldupRunsItsStates_holdupEstimate_3 :
    (state_HoldupRunsItsStates_holdupEstimate_3.rst.ctrlUp = true ∧ state_HoldupRunsItsStates_holdupEstimate_3.priSeen = true) ∧ state_HoldupRunsItsStates_holdupEstimate_3.pfe.hu = .ride ∧ state_HoldupRunsItsStates_holdupEstimate_3.energyUse (some (15000 : Nat)) ≤ state_HoldupRunsItsStates_holdupEstimate_3.energyReserve ((20000 : Nat) * 65536 / max 1 (state_HoldupRunsItsStates_holdupEstimate_3.castN 0x12A 0)) := by
  decide +kernel

/-- The state of the witness below. -/
def state_HoldupRunsItsStates_rideTimeout : State :=
  { live with clk := 100000000, pfe := { live.pfe with hu := .ride }, sets := { live.sets with cast := { live.sets.cast with params := [(pkey 0x12D 0, 100)] } }, fig := [(3, { Fig.init with enabled := true, run := .active })] }

theorem witness_HoldupRunsItsStates_rideTimeout :
    state_HoldupRunsItsStates_rideTimeout.pfe.hu = .ride ∧ state_HoldupRunsItsStates_rideTimeout.castN 0x12D 0 ≠ 0 ∧ state_HoldupRunsItsStates_rideTimeout.pfe.huClk + state_HoldupRunsItsStates_rideTimeout.castN 0x12D 0 * clocksPerMs ≤ state_HoldupRunsItsStates_rideTimeout.clk := by
  decide +kernel

/-- The state of the witness below. -/
def state_HoldupRunsItsStates_rideTimeout_2 : State :=
  { live with clk := 19999999, pfe := { live.pfe with hu := .ride }, sets := { live.sets with cast := { live.sets.cast with params := [(pkey 0x12D 0, 100)] } } }

theorem witness_HoldupRunsItsStates_rideTimeout_2 :
    state_HoldupRunsItsStates_rideTimeout_2.pfe.hu ≠ .ride ∨ state_HoldupRunsItsStates_rideTimeout_2.castN 0x12D 0 = 0 ∨ state_HoldupRunsItsStates_rideTimeout_2.clk < state_HoldupRunsItsStates_rideTimeout_2.pfe.huClk + state_HoldupRunsItsStates_rideTimeout_2.castN 0x12D 0 * clocksPerMs := by
  decide +kernel

/-- The state of the witness below. -/
def state_HoldupRunsItsStates_commit : State :=
  { live with clk := 1000000000, pfe := { live.pfe with hu := .winddown }, sp := [(2, { Sp.init with force := { Sp.init.force with out := .rampDown } })] }

theorem witness_HoldupRunsItsStates_commit :
    state_HoldupRunsItsStates_commit.rst.ctrlUp = true ∧ state_HoldupRunsItsStates_commit.pfe.hu = .winddown ∧ state_HoldupRunsItsStates_commit.pfe.huClk + state_HoldupRunsItsStates_commit.castN 0x12C 0 * clocksPerMs ≤ state_HoldupRunsItsStates_commit.clk := by
  decide +kernel

/-- The state of the witness below. -/
def state_HoldupRunsItsStates_commit_2 : State :=
  { live with clk := 1, pfe := { live.pfe with hu := .winddown } }

theorem witness_HoldupRunsItsStates_commit_2 :
    state_HoldupRunsItsStates_commit_2.rst.ctrlUp = true ∧ state_HoldupRunsItsStates_commit_2.pfe.hu = .winddown ∧ state_HoldupRunsItsStates_commit_2.clk < state_HoldupRunsItsStates_commit_2.pfe.huClk + state_HoldupRunsItsStates_commit_2.castN 0x12C 0 * clocksPerMs := by
  decide +kernel

/-- The state of the witness below. -/
def state_HoldupRunsItsStates_commitEnd : State :=
  { live with clk := 1, pfe := { live.pfe with hu := .commit }, sto := { live.sto with state := .commit } }

theorem witness_HoldupRunsItsStates_commitEnd :
    state_HoldupRunsItsStates_commitEnd.rst.ctrlUp = true ∧ state_HoldupRunsItsStates_commitEnd.pfe.hu = .commit ∧ state_HoldupRunsItsStates_commitEnd.sto.staged = 0 := by
  decide +kernel

/-- The state of the witness below. -/
def state_HoldupRunsItsStates_commitEnd_2 : State :=
  { live with clk := 1, pfe := { live.pfe with hu := .commit, vbulk := some 15000 }, sets := { live.sets with cast := { live.sets.cast with params := [(pkey 0x129 0, 150)] } }, sto := { live.sto with pages := [{ { Page.init with id := 3, state := .queued, target := 0, block := 5, logSeq := 8, pkts := [{ Packet.init with qid := 64, seq := 4, payload := [1] }] } with prio := 1 }] } }

theorem witness_HoldupRunsItsStates_commitEnd_2 :
    state_HoldupRunsItsStates_commitEnd_2.rst.ctrlUp = true ∧ state_HoldupRunsItsStates_commitEnd_2.pfe.hu = .commit ∧ state_HoldupRunsItsStates_commitEnd_2.sto.staged ≠ 0 ∧ state_HoldupRunsItsStates_commitEnd_2.pfe.vbulk = some (15000 : Nat) ∧ (15000 : Nat) ≤ 100 * state_HoldupRunsItsStates_commitEnd_2.castN 0x129 0 := by
  decide +kernel

/-- The state of the witness below. -/
def state_HoldupRunsItsStates_commitEnd_3 : State :=
  { live with clk := 1, pfe := { live.pfe with hu := .commit, vbulk := some 15001 }, sets := { live.sets with cast := { live.sets.cast with params := [(pkey 0x129 0, 150)] } }, sto := { live.sto with pages := [{ { Page.init with id := 3, state := .queued, target := 0, block := 5, logSeq := 8, pkts := [{ Packet.init with qid := 64, seq := 4, payload := [1] }] } with prio := 1 }] } }

theorem witness_HoldupRunsItsStates_commitEnd_3 :
    state_HoldupRunsItsStates_commitEnd_3.pfe.hu = .commit ∧ state_HoldupRunsItsStates_commitEnd_3.sto.staged ≠ 0 ∧ state_HoldupRunsItsStates_commitEnd_3.pfe.vbulk = some (15001 : Nat) ∧ 100 * state_HoldupRunsItsStates_commitEnd_3.castN 0x129 0 < (15001 : Nat) := by
  decide +kernel

/-- The state of the witness below. -/
def state_HoldupRunsItsStates_holdupRestore : State :=
  { live with pfe := { live.pfe with hu := .ride, pri := { live.pfe.pri with relay := true, pfcRun := true } }, iso := { live.iso with rxValid := true, txValid := true }, mt := { live.mt with mainsValid := true } }

theorem witness_HoldupRunsItsStates_holdupRestore :
    state_HoldupRunsItsStates_holdupRestore.pfe.hu = .ride ∧ (state_HoldupRunsItsStates_holdupRestore.rst.ctrlUp = true ∧ state_HoldupRunsItsStates_holdupRestore.dcFed = false ∧ state_HoldupRunsItsStates_holdupRestore.mt.mainsValid = true ∧ state_HoldupRunsItsStates_holdupRestore.pfe.pri.relay = true) ∧ (state_HoldupRunsItsStates_holdupRestore.castN 0x121 0 ≠ 1 ∨ state_HoldupRunsItsStates_holdupRestore.pfe.pri.pfcRun = true) := by
  decide +kernel

/-- The state of the witness below. -/
def state_HoldupRunsItsStates_holdupRestore_2 : State :=
  { live with pfe := { live.pfe with hu := .spent, pri := { live.pfe.pri with relay := true, pfcRun := true } }, iso := { live.iso with rxValid := true, txValid := true }, mt := { live.mt with mainsValid := true } }

theorem witness_HoldupRunsItsStates_holdupRestore_2 :
    state_HoldupRunsItsStates_holdupRestore_2.pfe.hu = .spent ∧ (state_HoldupRunsItsStates_holdupRestore_2.rst.ctrlUp = true ∧ state_HoldupRunsItsStates_holdupRestore_2.dcFed = false ∧ state_HoldupRunsItsStates_holdupRestore_2.mt.mainsValid = true ∧ state_HoldupRunsItsStates_holdupRestore_2.pfe.pri.relay = true) ∧ (state_HoldupRunsItsStates_holdupRestore_2.castN 0x121 0 ≠ 1 ∨ state_HoldupRunsItsStates_holdupRestore_2.pfe.bulkOk = true) := by
  decide +kernel

/-- The state of the witness below. -/
def state_HoldupRunsItsStates_holdupRestore_3 : State :=
  { live with pfe := { live.pfe with hu := .winddown, pri := { live.pfe.pri with relay := true, pfcRun := true } }, iso := { live.iso with rxValid := true, txValid := true }, mt := { live.mt with mainsValid := true } }

theorem witness_HoldupRunsItsStates_holdupRestore_3 :
    state_HoldupRunsItsStates_holdupRestore_3.mt.mainsValid = false ∨ state_HoldupRunsItsStates_holdupRestore_3.pfe.pri.relay = false ∨ state_HoldupRunsItsStates_holdupRestore_3.pfe.hu = .winddown ∨ state_HoldupRunsItsStates_holdupRestore_3.pfe.hu = .commit := by
  decide +kernel

/-- The state of the witness below. -/
def state_HoldupRunsItsStates_dcFail : State :=
  { live with fab := { live.fab with arrived := [5, 0x199] }, sets := { live.sets with cast := { live.sets.cast with params := [(pkey 0x120 0, 1)] } }, fig := [(3, { Fig.init with enabled := true, run := .active })] }

theorem witness_HoldupRunsItsStates_dcFail :
    state_HoldupRunsItsStates_dcFail.rst.ctrlUp = true ∧ state_HoldupRunsItsStates_dcFail.fab.arrived.contains 0x199 = true ∧ state_HoldupRunsItsStates_dcFail.dcFed = true ∧ state_HoldupRunsItsStates_dcFail.pfe.hu = .normal := by
  decide +kernel

theorem witness_HoldupRunsItsStates_dcFail_2 :
    live.dcFed = false ∨ live.pfe.hu ≠ .normal := by
  decide +kernel

/-- The state of the witness below. -/
def state_HoldupRunsItsStates_dieTempRead : State :=
  { live with rst := { live.rst with dieHot := true } }

theorem witness_HoldupRunsItsStates_dieTempRead :
    state_HoldupRunsItsStates_dieTempRead.rst.ctrlUp = true ∧ ((1249 : Int) < 1250 ∧ (1190 : Int) < 1250 ∧ (1151 : Int) < 1250) := by
  decide +kernel

/-- The state of the witness below. -/
def state_HoldupRunsItsStates_dieTempRead_2 : State :=
  { live with sp := [(2, { Sp.init with force := { Sp.init.force with out := .regulating } })] }

theorem witness_HoldupRunsItsStates_dieTempRead_2 :
    state_HoldupRunsItsStates_dieTempRead_2.rst.ctrlUp = true ∧ (1250 ≤ (1250 : Int) ∨ 1250 ≤ (3 : Int) ∨ 1250 ≤ (4 : Int)) := by
  decide +kernel

theorem witness_MainsTimeFollowsCrossings_mainsCrossing :
    (live.rst.ctrlUp = true ∧ live.iso.failed = false) ∧ 20 ≤ (59 : Nat) ∧ ((59 : Nat) < 60 ∨ live.mt.cross.head?.any (fun p => (p.rising == true) || decide (live.now10 - (0 : Nat) - p.t < 680000) || decide (1316000 < live.now10 - (0 : Nat) - p.t)) = true) := by
  decide +kernel

theorem witness_MainsTimeFollowsCrossings_mainsCrossing_2 :
    (19 : Nat) < 20 ∨ live.iso.failed = true := by
  decide +kernel

/-- The state of the witness below. -/
def state_MainsTimeFollowsCrossings_mainsCrossing_3 : State :=
  { live with mt := { live.mt with state := .virtual, validRun := 2, cross := [⟨-1316000, false⟩] } }

theorem witness_MainsTimeFollowsCrossings_mainsCrossing_3 :
    (state_MainsTimeFollowsCrossings_mainsCrossing_3.rst.ctrlUp = true ∧ state_MainsTimeFollowsCrossings_mainsCrossing_3.iso.failed = false) ∧ (60 ≤ (60 : Nat) ∧ state_MainsTimeFollowsCrossings_mainsCrossing_3.mt.cross.head?.all (fun p => (p.rising != true) && decide (680000 ≤ state_MainsTimeFollowsCrossings_mainsCrossing_3.now10 - (0 : Nat) - p.t) && decide (state_MainsTimeFollowsCrossings_mainsCrossing_3.now10 - (0 : Nat) - p.t ≤ 1316000)) = true) ∧ (state_MainsTimeFollowsCrossings_mainsCrossing_3.mt.state = .virtual ∨ (state_MainsTimeFollowsCrossings_mainsCrossing_3.mt.state ≠ .acquire ∧ state_MainsTimeFollowsCrossings_mainsCrossing_3.mt.state ≠ .locked ∧ state_MainsTimeFollowsCrossings_mainsCrossing_3.mt.mainsValid = false ∧ state_MainsTimeFollowsCrossings_mainsCrossing_3.mt.validRun < 2)) := by
  decide +kernel

/-- The state of the witness below. -/
def state_MainsTimeFollowsCrossings_mainsCrossing_4 : State :=
  { live with mt := { live.mt with state := .search, mt := 0, validRun := 2, cross := [⟨-1000000, false⟩] } }

theorem witness_MainsTimeFollowsCrossings_mainsCrossing_4 :
    (state_MainsTimeFollowsCrossings_mainsCrossing_4.rst.ctrlUp = true ∧ state_MainsTimeFollowsCrossings_mainsCrossing_4.iso.failed = false) ∧ (60 ≤ (60 : Nat) ∧ state_MainsTimeFollowsCrossings_mainsCrossing_4.mt.cross.head?.all (fun p => (p.rising != true) && decide (680000 ≤ state_MainsTimeFollowsCrossings_mainsCrossing_4.now10 - (0 : Nat) - p.t) && decide (state_MainsTimeFollowsCrossings_mainsCrossing_4.now10 - (0 : Nat) - p.t ≤ 1316000)) = true) ∧ (0 : Int) = (if true = true then state_MainsTimeFollowsCrossings_mainsCrossing_4.phaseErr (0 : Nat) true - rdiv state_MainsTimeFollowsCrossings_mainsCrossing_4.mt.delta 2 else state_MainsTimeFollowsCrossings_mainsCrossing_4.phaseErr (0 : Nat) true + rdiv state_MainsTimeFollowsCrossings_mainsCrossing_4.mt.delta 2) ∧ (state_MainsTimeFollowsCrossings_mainsCrossing_4.mt.state = .search ∨ state_MainsTimeFollowsCrossings_mainsCrossing_4.mt.state = .holdover) ∧ (state_MainsTimeFollowsCrossings_mainsCrossing_4.mt.mainsValid = true ∨ 2 ≤ state_MainsTimeFollowsCrossings_mainsCrossing_4.mt.validRun) := by
  decide +kernel

/-- The state of the witness below. -/
def state_MainsTimeFollowsCrossings_mainsCrossing_5 : State :=
  { live with mt := { live.mt with state := .acquire, mt := 0x400000, cross := [⟨-1000000, false⟩] } }

theorem witness_MainsTimeFollowsCrossings_mainsCrossing_5 :
    (state_MainsTimeFollowsCrossings_mainsCrossing_5.rst.ctrlUp = true ∧ state_MainsTimeFollowsCrossings_mainsCrossing_5.iso.failed = false) ∧ (60 ≤ (60 : Nat) ∧ state_MainsTimeFollowsCrossings_mainsCrossing_5.mt.cross.head?.all (fun p => (p.rising != true) && decide (680000 ≤ state_MainsTimeFollowsCrossings_mainsCrossing_5.now10 - (0 : Nat) - p.t) && decide (state_MainsTimeFollowsCrossings_mainsCrossing_5.now10 - (0 : Nat) - p.t ≤ 1316000)) = true) ∧ (0 : Int) = (if 1 ≤ state_MainsTimeFollowsCrossings_mainsCrossing_5.mt.validRun then state_MainsTimeFollowsCrossings_mainsCrossing_5.mt.delta + rdiv ((if true = true then state_MainsTimeFollowsCrossings_mainsCrossing_5.phaseErr (0 : Nat) true - state_MainsTimeFollowsCrossings_mainsCrossing_5.mt.lastErr else state_MainsTimeFollowsCrossings_mainsCrossing_5.mt.lastErr - state_MainsTimeFollowsCrossings_mainsCrossing_5.phaseErr (0 : Nat) true) - state_MainsTimeFollowsCrossings_mainsCrossing_5.mt.delta) 256 else state_MainsTimeFollowsCrossings_mainsCrossing_5.mt.delta) ∧ (1073741824 : Int) = (if true = true then state_MainsTimeFollowsCrossings_mainsCrossing_5.phaseErr (0 : Nat) true - rdiv (0 : Int) 2 else state_MainsTimeFollowsCrossings_mainsCrossing_5.phaseErr (0 : Nat) true + rdiv (0 : Int) 2) ∧ (state_MainsTimeFollowsCrossings_mainsCrossing_5.mt.state = .acquire ∧ state_MainsTimeFollowsCrossings_mainsCrossing_5.mt.linear = false ∧ 2 ^ 24 < (1073741824 : Int).natAbs) := by
  decide +kernel

/-- The state of the witness below. -/
def state_MainsTimeFollowsCrossings_mainsCrossing_6 : State :=
  { live with mt := { live.mt with state := .acquire, mt := 0, goodRun := 2, cross := [⟨-1000000, false⟩] } }

theorem witness_MainsTimeFollowsCrossings_mainsCrossing_6 :
    (state_MainsTimeFollowsCrossings_mainsCrossing_6.rst.ctrlUp = true ∧ state_MainsTimeFollowsCrossings_mainsCrossing_6.iso.failed = false) ∧ (60 ≤ (60 : Nat) ∧ state_MainsTimeFollowsCrossings_mainsCrossing_6.mt.cross.head?.all (fun p => (p.rising != true) && decide (680000 ≤ state_MainsTimeFollowsCrossings_mainsCrossing_6.now10 - (0 : Nat) - p.t) && decide (state_MainsTimeFollowsCrossings_mainsCrossing_6.now10 - (0 : Nat) - p.t ≤ 1316000)) = true) ∧ (0 : Int) = (if 1 ≤ state_MainsTimeFollowsCrossings_mainsCrossing_6.mt.validRun then state_MainsTimeFollowsCrossings_mainsCrossing_6.mt.delta + rdiv ((if true = true then state_MainsTimeFollowsCrossings_mainsCrossing_6.phaseErr (0 : Nat) true - state_MainsTimeFollowsCrossings_mainsCrossing_6.mt.lastErr else state_MainsTimeFollowsCrossings_mainsCrossing_6.mt.lastErr - state_MainsTimeFollowsCrossings_mainsCrossing_6.phaseErr (0 : Nat) true) - state_MainsTimeFollowsCrossings_mainsCrossing_6.mt.delta) 256 else state_MainsTimeFollowsCrossings_mainsCrossing_6.mt.delta) ∧ (0 : Int) = (if true = true then state_MainsTimeFollowsCrossings_mainsCrossing_6.phaseErr (0 : Nat) true - rdiv (0 : Int) 2 else state_MainsTimeFollowsCrossings_mainsCrossing_6.phaseErr (0 : Nat) true + rdiv (0 : Int) 2) ∧ state_MainsTimeFollowsCrossings_mainsCrossing_6.mt.state = .acquire ∧ (state_MainsTimeFollowsCrossings_mainsCrossing_6.mt.linear = true ∨ (0 : Int).natAbs ≤ 2 ^ 24) ∧ (2 ^ 20 < (0 : Int).natAbs ∨ state_MainsTimeFollowsCrossings_mainsCrossing_6.mt.goodRun < 3) := by
  decide +kernel

/-- The state of the witness below. -/
def state_MainsTimeFollowsCrossings_mainsCrossing_7 : State :=
  { live with mt := { live.mt with state := .acquire, linear := true, mt := 0, goodRun := 3, cross := [⟨-1000000, false⟩] } }

theorem witness_MainsTimeFollowsCrossings_mainsCrossing_7 :
    (state_MainsTimeFollowsCrossings_mainsCrossing_7.rst.ctrlUp = true ∧ state_MainsTimeFollowsCrossings_mainsCrossing_7.iso.failed = false) ∧ (60 ≤ (60 : Nat) ∧ state_MainsTimeFollowsCrossings_mainsCrossing_7.mt.cross.head?.all (fun p => (p.rising != true) && decide (680000 ≤ state_MainsTimeFollowsCrossings_mainsCrossing_7.now10 - (0 : Nat) - p.t) && decide (state_MainsTimeFollowsCrossings_mainsCrossing_7.now10 - (0 : Nat) - p.t ≤ 1316000)) = true) ∧ (0 : Int) = (if 1 ≤ state_MainsTimeFollowsCrossings_mainsCrossing_7.mt.validRun then state_MainsTimeFollowsCrossings_mainsCrossing_7.mt.delta + rdiv ((if true = true then state_MainsTimeFollowsCrossings_mainsCrossing_7.phaseErr (0 : Nat) true - state_MainsTimeFollowsCrossings_mainsCrossing_7.mt.lastErr else state_MainsTimeFollowsCrossings_mainsCrossing_7.mt.lastErr - state_MainsTimeFollowsCrossings_mainsCrossing_7.phaseErr (0 : Nat) true) - state_MainsTimeFollowsCrossings_mainsCrossing_7.mt.delta) 256 else state_MainsTimeFollowsCrossings_mainsCrossing_7.mt.delta) ∧ (0 : Int) = (if true = true then state_MainsTimeFollowsCrossings_mainsCrossing_7.phaseErr (0 : Nat) true - rdiv (0 : Int) 2 else state_MainsTimeFollowsCrossings_mainsCrossing_7.phaseErr (0 : Nat) true + rdiv (0 : Int) 2) ∧ state_MainsTimeFollowsCrossings_mainsCrossing_7.mt.state = .acquire ∧ ((0 : Int).natAbs ≤ 2 ^ 20 ∧ 3 ≤ state_MainsTimeFollowsCrossings_mainsCrossing_7.mt.goodRun) := by
  decide +kernel

/-- The state of the witness below. -/
def state_MainsTimeFollowsCrossings_mainsCrossing_8 : State :=
  { live with mt := { live.mt with state := .locked, mt := 0x400000, badRun := 2, cross := [⟨-1000000, false⟩] } }

theorem witness_MainsTimeFollowsCrossings_mainsCrossing_8 :
    (state_MainsTimeFollowsCrossings_mainsCrossing_8.rst.ctrlUp = true ∧ state_MainsTimeFollowsCrossings_mainsCrossing_8.iso.failed = false) ∧ (60 ≤ (60 : Nat) ∧ state_MainsTimeFollowsCrossings_mainsCrossing_8.mt.cross.head?.all (fun p => (p.rising != true) && decide (680000 ≤ state_MainsTimeFollowsCrossings_mainsCrossing_8.now10 - (0 : Nat) - p.t) && decide (state_MainsTimeFollowsCrossings_mainsCrossing_8.now10 - (0 : Nat) - p.t ≤ 1316000)) = true) ∧ (0 : Int) = (if 1 ≤ state_MainsTimeFollowsCrossings_mainsCrossing_8.mt.validRun then state_MainsTimeFollowsCrossings_mainsCrossing_8.mt.delta + rdiv ((if true = true then state_MainsTimeFollowsCrossings_mainsCrossing_8.phaseErr (0 : Nat) true - state_MainsTimeFollowsCrossings_mainsCrossing_8.mt.lastErr else state_MainsTimeFollowsCrossings_mainsCrossing_8.mt.lastErr - state_MainsTimeFollowsCrossings_mainsCrossing_8.phaseErr (0 : Nat) true) - state_MainsTimeFollowsCrossings_mainsCrossing_8.mt.delta) 256 else state_MainsTimeFollowsCrossings_mainsCrossing_8.mt.delta) ∧ (1073741824 : Int) = (if true = true then state_MainsTimeFollowsCrossings_mainsCrossing_8.phaseErr (0 : Nat) true - rdiv (0 : Int) 2 else state_MainsTimeFollowsCrossings_mainsCrossing_8.phaseErr (0 : Nat) true + rdiv (0 : Int) 2) ∧ state_MainsTimeFollowsCrossings_mainsCrossing_8.mt.state = .locked ∧ ((1073741824 : Int).natAbs ≤ 2 ^ 27 ∨ state_MainsTimeFollowsCrossings_mainsCrossing_8.mt.badRun < 3) := by
  decide +kernel

/-- The state of the witness below. -/
def state_MainsTimeFollowsCrossings_mainsCrossing_9 : State :=
  { live with mt := { live.mt with state := .locked, mt := 0x400000, badRun := 3, cross := [⟨-1000000, false⟩] } }

theorem witness_MainsTimeFollowsCrossings_mainsCrossing_9 :
    (state_MainsTimeFollowsCrossings_mainsCrossing_9.rst.ctrlUp = true ∧ state_MainsTimeFollowsCrossings_mainsCrossing_9.iso.failed = false) ∧ (60 ≤ (60 : Nat) ∧ state_MainsTimeFollowsCrossings_mainsCrossing_9.mt.cross.head?.all (fun p => (p.rising != true) && decide (680000 ≤ state_MainsTimeFollowsCrossings_mainsCrossing_9.now10 - (0 : Nat) - p.t) && decide (state_MainsTimeFollowsCrossings_mainsCrossing_9.now10 - (0 : Nat) - p.t ≤ 1316000)) = true) ∧ (0 : Int) = (if 1 ≤ state_MainsTimeFollowsCrossings_mainsCrossing_9.mt.validRun then state_MainsTimeFollowsCrossings_mainsCrossing_9.mt.delta + rdiv ((if true = true then state_MainsTimeFollowsCrossings_mainsCrossing_9.phaseErr (0 : Nat) true - state_MainsTimeFollowsCrossings_mainsCrossing_9.mt.lastErr else state_MainsTimeFollowsCrossings_mainsCrossing_9.mt.lastErr - state_MainsTimeFollowsCrossings_mainsCrossing_9.phaseErr (0 : Nat) true) - state_MainsTimeFollowsCrossings_mainsCrossing_9.mt.delta) 256 else state_MainsTimeFollowsCrossings_mainsCrossing_9.mt.delta) ∧ (1073741824 : Int) = (if true = true then state_MainsTimeFollowsCrossings_mainsCrossing_9.phaseErr (0 : Nat) true - rdiv (0 : Int) 2 else state_MainsTimeFollowsCrossings_mainsCrossing_9.phaseErr (0 : Nat) true + rdiv (0 : Int) 2) ∧ state_MainsTimeFollowsCrossings_mainsCrossing_9.mt.state = .locked ∧ (2 ^ 27 < (1073741824 : Int).natAbs ∧ 3 ≤ state_MainsTimeFollowsCrossings_mainsCrossing_9.mt.badRun) := by
  decide +kernel

/-- The state of the witness below. -/
def state_MainsTimeFollowsCrossings_mainsLost : State :=
  { live with mt := { live.mt with state := .locked, mainsValid := true, cross := [⟨0, true⟩] }, clk := 4000000, pfe := { live.pfe with everValid := false } }

theorem witness_MainsTimeFollowsCrossings_mainsLost :
    state_MainsTimeFollowsCrossings_mainsLost.rst.ctrlUp = true ∧ state_MainsTimeFollowsCrossings_mainsLost.crossingLate = true ∧ (state_MainsTimeFollowsCrossings_mainsLost.mt.mainsValid = false ∨ state_MainsTimeFollowsCrossings_mainsLost.dcFed = true ∨ state_MainsTimeFollowsCrossings_mainsLost.pfe.everValid = false ∨ state_MainsTimeFollowsCrossings_mainsLost.pfe.hu ≠ .normal) := by
  decide +kernel

/-- The state of the witness below. -/
def state_MainsTimeFollowsCrossings_mainsLost_2 : State :=
  { live with mt := { live.mt with state := .acquire, firstPull := false, mainsValid := true, cross := [⟨0, true⟩] }, clk := 4000000 }

theorem witness_MainsTimeFollowsCrossings_mainsLost_2 :
    state_MainsTimeFollowsCrossings_mainsLost_2.rst.ctrlUp = true ∧ state_MainsTimeFollowsCrossings_mainsLost_2.crossingLate = true ∧ (state_MainsTimeFollowsCrossings_mainsLost_2.mt.mainsValid = true ∧ state_MainsTimeFollowsCrossings_mainsLost_2.dcFed = false ∧ state_MainsTimeFollowsCrossings_mainsLost_2.pfe.everValid = true ∧ state_MainsTimeFollowsCrossings_mainsLost_2.pfe.hu = .normal) ∧ (state_MainsTimeFollowsCrossings_mainsLost_2.pfe.vbulk = none ∨ state_MainsTimeFollowsCrossings_mainsLost_2.pfe.eRes < state_MainsTimeFollowsCrossings_mainsLost_2.pfe.eUse) := by
  decide +kernel

/-- The state of the witness below. -/
def state_MainsTimeFollowsCrossings_mainsLost_3 : State :=
  { live with mt := { live.mt with state := .locked, mainsValid := true, cross := [⟨0, true⟩] }, clk := 4000000, pfe := { live.pfe with vbulk := some 20000 }, fig := [(3, { Fig.init with enabled := true, run := .active })] }

theorem witness_MainsTimeFollowsCrossings_mainsLost_3 :
    state_MainsTimeFollowsCrossings_mainsLost_3.rst.ctrlUp = true ∧ state_MainsTimeFollowsCrossings_mainsLost_3.crossingLate = true ∧ (state_MainsTimeFollowsCrossings_mainsLost_3.mt.mainsValid = true ∧ state_MainsTimeFollowsCrossings_mainsLost_3.dcFed = false ∧ state_MainsTimeFollowsCrossings_mainsLost_3.pfe.everValid = true ∧ state_MainsTimeFollowsCrossings_mainsLost_3.pfe.hu = .normal) ∧ (state_MainsTimeFollowsCrossings_mainsLost_3.pfe.vbulk ≠ none ∧ state_MainsTimeFollowsCrossings_mainsLost_3.pfe.eUse ≤ state_MainsTimeFollowsCrossings_mainsLost_3.pfe.eRes) := by
  decide +kernel

theorem witness_MainsTimeFollowsCrossings_mainsLost_4 :
    live.crossingLate = false := by
  decide +kernel

/-- The state of the witness below. -/
def state_MainsTimeFollowsCrossings_slewEnd : State :=
  { live with mt := { live.mt with state := .acquire, slew := true } }

theorem witness_MainsTimeFollowsCrossings_slewEnd :
    state_MainsTimeFollowsCrossings_slewEnd.rst.ctrlUp = true ∧ (state_MainsTimeFollowsCrossings_slewEnd.mt.state = .acquire ∧ state_MainsTimeFollowsCrossings_slewEnd.mt.slew = true ∧ state_MainsTimeFollowsCrossings_slewEnd.mt.linear = false) ∧ (if state_MainsTimeFollowsCrossings_slewEnd.mt.freq.toNat < state_MainsTimeFollowsCrossings_slewEnd.mt.fEst then state_MainsTimeFollowsCrossings_slewEnd.predicted ≤ 0 else 0 ≤ state_MainsTimeFollowsCrossings_slewEnd.predicted) := by
  decide +kernel

theorem witness_MainsTimeFollowsCrossings_slewEnd_2 :
    live.mt.state ≠ .acquire ∨ live.mt.slew = false ∨ live.mt.linear = true := by
  decide +kernel

theorem witness_MainsTimeFollowsCrossings_mtPhaseEvent :
    True := by
  decide +kernel

/-- The state of the witness below. -/
def state_MainsTimeFollowsCrossings_mtPhaseEvent_2 : State :=
  { live with fab := { live.fab with masks := [(3, [0x910])], sel := [(0x1A0, 3)] } }

theorem witness_MainsTimeFollowsCrossings_mtPhaseEvent_2 :
    (state_MainsTimeFollowsCrossings_mtPhaseEvent_2.rst.ctrlUp = true ∧ state_MainsTimeFollowsCrossings_mtPhaseEvent_2.fab.raised = []) ∧ state_MainsTimeFollowsCrossings_mtPhaseEvent_2.passes 0 ≠ none ∧ ((0 : Nat) < 32 ∧ (3 : Nat) < 256) ∧ state_MainsTimeFollowsCrossings_mtPhaseEvent_2.fab.sel = [(0x1A0 + (0 : Nat), (3 : Nat))] ∧ tget [] state_MainsTimeFollowsCrossings_mtPhaseEvent_2.fab.masks (3 : Nat) = [0x910] := by
  decide +kernel

/-- The state of the witness below. -/
def state_MainsTimeFollowsCrossings_mtPhaseEvent_3 : State :=
  { live with mt := { live.mt with mt := 0x800000 }, fab := { live.fab with masks := [(3, [0x911])], sel := [(0x1BF, 3)] } }

theorem witness_MainsTimeFollowsCrossings_mtPhaseEvent_3 :
    (state_MainsTimeFollowsCrossings_mtPhaseEvent_3.rst.ctrlUp = true ∧ state_MainsTimeFollowsCrossings_mtPhaseEvent_3.fab.raised = []) ∧ state_MainsTimeFollowsCrossings_mtPhaseEvent_3.passes 0x800000 ≠ none ∧ ((31 : Nat) < 32 ∧ (3 : Nat) < 256) ∧ state_MainsTimeFollowsCrossings_mtPhaseEvent_3.fab.sel = [(0x1A0 + (31 : Nat), (3 : Nat))] ∧ tget [] state_MainsTimeFollowsCrossings_mtPhaseEvent_3.fab.masks (3 : Nat) = [0x911] := by
  decide +kernel

/-- The state of the witness below. -/
def state_MainsTimeFollowsCrossings_mtPhaseEvent_4 : State :=
  { live with sets := { live.sets with live := [(pkey 0x11D 0, 1), (pkey 0x11F 0, 1)] }, fab := { live.fab with masks := [(3, [0x915])], sel := [(0x1A0, 3)] } }

theorem witness_MainsTimeFollowsCrossings_mtPhaseEvent_4 :
    (state_MainsTimeFollowsCrossings_mtPhaseEvent_4.rst.ctrlUp = true ∧ state_MainsTimeFollowsCrossings_mtPhaseEvent_4.fab.raised = []) ∧ (3 : Nat) < 4 ∧ state_MainsTimeFollowsCrossings_mtPhaseEvent_4.live (0x113 + 4 * (3 : Nat)) 0 = 1#32 ∧ (state_MainsTimeFollowsCrossings_mtPhaseEvent_4.passes (state_MainsTimeFollowsCrossings_mtPhaseEvent_4.live (0x110 + 4 * (3 : Nat)) 0).toNat).any (fun c => c % (state_MainsTimeFollowsCrossings_mtPhaseEvent_4.live (0x111 + 4 * (3 : Nat)) 0).toNat == (state_MainsTimeFollowsCrossings_mtPhaseEvent_4.live (0x112 + 4 * (3 : Nat)) 0).toNat) = true ∧ ((0 : Nat) < 32 ∧ (3 : Nat) < 256) ∧ state_MainsTimeFollowsCrossings_mtPhaseEvent_4.fab.sel = [(0x1A0 + (0 : Nat), (3 : Nat))] ∧ tget [] state_MainsTimeFollowsCrossings_mtPhaseEvent_4.fab.masks (3 : Nat) = [0x912 + (3 : Nat)] := by
  decide +kernel

/-- The state of the witness below. -/
def state_MainsTimeFollowsCrossings_mtWrap : State :=
  { live with mt := { live.mt with wrapDue := true } }

theorem witness_MainsTimeFollowsCrossings_mtWrap :
    state_MainsTimeFollowsCrossings_mtWrap.rst.ctrlUp = true ∧ state_MainsTimeFollowsCrossings_mtWrap.mt.wrapDue = true := by
  decide +kernel

theorem witness_MainsTimeFollowsCrossings_mtWrap_2 :
    live.mt.wrapDue = false := by
  decide +kernel

/-- The state of the witness below. -/
def state_MainsTimeFollowsCrossings_mtCapture : State :=
  { live with mt := { live.mt with mt := 77, capGen := 15 }, fab := { live.fab with arrived := [5, 0x198] } }

theorem witness_MainsTimeFollowsCrossings_mtCapture :
    state_MainsTimeFollowsCrossings_mtCapture.rst.ctrlUp = true ∧ state_MainsTimeFollowsCrossings_mtCapture.fab.arrived.contains 0x198 = true := by
  decide +kernel

theorem witness_MainsTimeFollowsCrossings_mtCapture_2 :
    live.fab.arrived.contains 0x198 = false := by
  decide +kernel

/-- The state of the witness below. -/
def state_TripsFallOnTheirCauses_overrunTrip : State :=
  { live with sp := [(9, { Sp.init with force := { Force.init with out := .regulating, en := true, driven := true }, sup := { Sup.init with held := false }, loop := { Loop.init with ovrRun := 3 } })] }

theorem witness_TripsFallOnTheirCauses_overrunTrip :
    state_TripsFallOnTheirCauses_overrunTrip.aside = false ∧ ((state_TripsFallOnTheirCauses_overrunTrip.spAt (9 : Nat)).sup.tripped = false ∧ tripLive (state_TripsFallOnTheirCauses_overrunTrip.spAt (9 : Nat)).force.out = true) ∧ state_TripsFallOnTheirCauses_overrunTrip.grpRuns ((9 : Nat) / 8) = true ∧ 3 ≤ (state_TripsFallOnTheirCauses_overrunTrip.spAt (9 : Nat)).loop.ovrRun := by
  decide +kernel

/-- The state of the witness below. -/
def state_TripsFallOnTheirCauses_shortCircuitTrip : State :=
  { live with sp := [(9, { Sp.init with force := { Force.init with out := .regulating, en := true, driven := true, scRun := 100000 }, sup := { Sup.init with held := false }, loop := { Loop.init with gov := 1 } })] }

theorem witness_TripsFallOnTheirCauses_shortCircuitTrip :
    state_TripsFallOnTheirCauses_shortCircuitTrip.aside = false ∧ ((state_TripsFallOnTheirCauses_shortCircuitTrip.spAt (9 : Nat)).sup.tripped = false ∧ tripLive (state_TripsFallOnTheirCauses_shortCircuitTrip.spAt (9 : Nat)).force.out = true) ∧ state_TripsFallOnTheirCauses_shortCircuitTrip.grpRuns ((9 : Nat) / 8) = true ∧ (state_TripsFallOnTheirCauses_shortCircuitTrip.ticksUs ((9 : Nat) / 8) (state_TripsFallOnTheirCauses_shortCircuitTrip.castN 0x442 (9 : Nat)) ≤ (state_TripsFallOnTheirCauses_shortCircuitTrip.spAt (9 : Nat)).force.scRun ∧ 0 < (state_TripsFallOnTheirCauses_shortCircuitTrip.spAt (9 : Nat)).force.scRun) := by
  decide +kernel

/-- The state of the witness below. -/
def state_TripsFallOnTheirCauses_frozenFault : State :=
  { live with sp := [(9, { Sp.init with force := { Force.init with out := .regulating, en := true, driven := true }, sup := { Sup.init with held := false, froI := 64 }, loop := { Loop.init with gov := 1 } })] }

theorem witness_TripsFallOnTheirCauses_frozenFault :
    state_TripsFallOnTheirCauses_frozenFault.aside = false ∧ ((state_TripsFallOnTheirCauses_frozenFault.spAt (9 : Nat)).sup.tripped = false ∧ tripLive (state_TripsFallOnTheirCauses_frozenFault.spAt (9 : Nat)).force.out = true) ∧ state_TripsFallOnTheirCauses_frozenFault.grpRuns ((9 : Nat) / 8) = true ∧ (64 ≤ (state_TripsFallOnTheirCauses_frozenFault.spAt (9 : Nat)).sup.froV ∨ 64 ≤ (state_TripsFallOnTheirCauses_frozenFault.spAt (9 : Nat)).sup.froI) ∧ ((state_TripsFallOnTheirCauses_frozenFault.spAt (9 : Nat)).sup.held = false ∧ (state_TripsFallOnTheirCauses_frozenFault.spAt (9 : Nat)).force.out ≠ .park) ∧ (((state_TripsFallOnTheirCauses_frozenFault.serves (9 : Nat)).toList.all (fun f => state_TripsFallOnTheirCauses_frozenFault.castN 0x425 f != 1)) = true ∨ loopsClosed (state_TripsFallOnTheirCauses_frozenFault.spAt (9 : Nat)) = false) := by
  decide +kernel

/-- The state of the witness below. -/
def state_TripsFallOnTheirCauses_frozenFault_2 : State :=
  { placed with sp := [(0, { Sp.init with force := { Force.init with out := .regulating, en := true, driven := true }, sup := { Sup.init with held := false, froI := 64, codes := [5, 6] }, loop := { Loop.init with gov := 1 } })], sets := { placed.sets with cast := { placed.sets.cast with params := [(pkey 0x425 5, 1)] } } }

theorem witness_TripsFallOnTheirCauses_frozenFault_2 :
    state_TripsFallOnTheirCauses_frozenFault_2.aside = false ∧ ((state_TripsFallOnTheirCauses_frozenFault_2.spAt (0 : Nat)).sup.tripped = false ∧ tripLive (state_TripsFallOnTheirCauses_frozenFault_2.spAt (0 : Nat)).force.out = true) ∧ state_TripsFallOnTheirCauses_frozenFault_2.grpRuns ((0 : Nat) / 8) = true ∧ (64 ≤ (state_TripsFallOnTheirCauses_frozenFault_2.spAt (0 : Nat)).sup.froV ∨ 64 ≤ (state_TripsFallOnTheirCauses_frozenFault_2.spAt (0 : Nat)).sup.froI) ∧ ((state_TripsFallOnTheirCauses_frozenFault_2.spAt (0 : Nat)).sup.held = false ∧ (state_TripsFallOnTheirCauses_frozenFault_2.spAt (0 : Nat)).force.out ≠ .park) ∧ (state_TripsFallOnTheirCauses_frozenFault_2.serves (0 : Nat) = some (5 : Nat) ∧ state_TripsFallOnTheirCauses_frozenFault_2.castN 0x425 (5 : Nat) = 1 ∧ loopsClosed (state_TripsFallOnTheirCauses_frozenFault_2.spAt (0 : Nat)) = true) := by
  decide +kernel

/-- The state of the witness below. -/
def state_TripsFallOnTheirCauses_unsettled : State :=
  { placed with sets := { placed.sets with cast := { placed.sets.cast with params := [(pkey 0x428 5, 1)] } }, sp := [(0, { Sp.init with force := { Force.init with out := .armed, driven := true, seq := 100000 } })] }

theorem witness_TripsFallOnTheirCauses_unsettled :
    state_TripsFallOnTheirCauses_unsettled.aside = false ∧ (state_TripsFallOnTheirCauses_unsettled.spAt (0 : Nat)).sup.tripped = false ∧ state_TripsFallOnTheirCauses_unsettled.grpRuns ((0 : Nat) / 8) = true ∧ ((state_TripsFallOnTheirCauses_unsettled.spAt (0 : Nat)).force.out = .armed ∧ (state_TripsFallOnTheirCauses_unsettled.spAt (0 : Nat)).force.en = false) ∧ state_TripsFallOnTheirCauses_unsettled.allSettled (0 : Nat) = false ∧ state_TripsFallOnTheirCauses_unsettled.makeTicks (0 : Nat) + state_TripsFallOnTheirCauses_unsettled.ticksUs ((0 : Nat) / 8) 4000 ≤ (state_TripsFallOnTheirCauses_unsettled.spAt (0 : Nat)).force.seq := by
  decide +kernel

/-- The state of the witness below. -/
def state_TripsFallOnTheirCauses_monitorQualify : State :=
  { placed with sp := [(0, { Sp.init with force := { Force.init with out := .regulating, en := true, driven := true }, sup := { Sup.init with held := false, mon := [{ Mon.init with run := 1 }] }, loop := { Loop.init with gov := 1 } })], sets := { placed.sets with cast := { placed.sets.cast with params := [(pkey 0x428 5, 0x81)] } } }

theorem witness_TripsFallOnTheirCauses_monitorQualify :
    state_TripsFallOnTheirCauses_monitorQualify.aside = false ∧ ((state_TripsFallOnTheirCauses_monitorQualify.spAt (0 : Nat)).sup.tripped = false ∧ tripLive (state_TripsFallOnTheirCauses_monitorQualify.spAt (0 : Nat)).force.out = true) ∧ state_TripsFallOnTheirCauses_monitorQualify.hasPort (0 : Nat) = true ∧ state_TripsFallOnTheirCauses_monitorQualify.grpRuns ((0 : Nat) / 8) = true ∧ ((0 : Nat) < 4 ∧ bits (state_TripsFallOnTheirCauses_monitorQualify.monCtrl (0 : Nat) (0 : Nat)) 2 0 ≠ 0) ∧ (state_TripsFallOnTheirCauses_monitorQualify.monCtrl (0 : Nat) (0 : Nat)).getLsbD 7 = true ∧ bits (state_TripsFallOnTheirCauses_monitorQualify.monCtrl (0 : Nat) (0 : Nat)) 27 24 + 1 ≤ ((state_TripsFallOnTheirCauses_monitorQualify.spAt (0 : Nat)).sup.mon.getD (0 : Nat) Mon.init).run := by
  decide +kernel

/-- The state of the witness below. -/
def state_TripsFallOnTheirCauses_monitorQualify_2 : State :=
  { placed with sp := [(0, { Sp.init with sup := { Sup.init with mon := [{ Mon.init with run := 1 }] } })], sets := { placed.sets with cast := { placed.sets.cast with params := [(pkey 0x428 5, 1)] } } }

theorem witness_TripsFallOnTheirCauses_monitorQualify_2 :
    state_TripsFallOnTheirCauses_monitorQualify_2.hasPort (0 : Nat) = true ∧ state_TripsFallOnTheirCauses_monitorQualify_2.grpRuns ((0 : Nat) / 8) = true ∧ ((0 : Nat) < 4 ∧ (0 : Nat) < (state_TripsFallOnTheirCauses_monitorQualify_2.spAt (0 : Nat)).sup.mon.length ∧ bits (state_TripsFallOnTheirCauses_monitorQualify_2.monCtrl (0 : Nat) (0 : Nat)) 2 0 ≠ 0) ∧ ((state_TripsFallOnTheirCauses_monitorQualify_2.monCtrl (0 : Nat) (0 : Nat)).getLsbD 7 = false ∨ tripLive (state_TripsFallOnTheirCauses_monitorQualify_2.spAt (0 : Nat)).force.out = false) ∧ bits (state_TripsFallOnTheirCauses_monitorQualify_2.monCtrl (0 : Nat) (0 : Nat)) 27 24 + 1 ≤ ((state_TripsFallOnTheirCauses_monitorQualify_2.spAt (0 : Nat)).sup.mon.getD (0 : Nat) Mon.init).run ∧ ((state_TripsFallOnTheirCauses_monitorQualify_2.spAt (0 : Nat)).sup.mon.getD (0 : Nat) Mon.init).latch = false := by
  decide +kernel

theorem witness_TripsFallOnTheirCauses_monitorQualify_3 :
    4 ≤ (4 : Nat) ∨ bits (live.monCtrl (0 : Nat) (4 : Nat)) 2 0 = 0 ∨ ((live.spAt (0 : Nat)).sup.mon.getD (4 : Nat) Mon.init).run < bits (live.monCtrl (0 : Nat) (4 : Nat)) 27 24 + 1 := by
  decide +kernel

/-- The state of the witness below. -/
def state_TripsFallOnTheirCauses_stageFault : State :=
  { placed with sp := placed.sp, sets := { placed.sets with cast := { placed.sets.cast with descs := [(0, ⟨BitVec.allOnes 2048, .written⟩)] } } }

theorem witness_TripsFallOnTheirCauses_stageFault :
    state_TripsFallOnTheirCauses_stageFault.aside = false ∧ ((state_TripsFallOnTheirCauses_stageFault.spAt (0 : Nat)).sup.tripped = false ∧ tripLive (state_TripsFallOnTheirCauses_stageFault.spAt (0 : Nat)).force.out = true) ∧ state_TripsFallOnTheirCauses_stageFault.hasPort (0 : Nat) = true ∧ state_TripsFallOnTheirCauses_stageFault.rst.ctrlUp = true ∧ dFlt (state_TripsFallOnTheirCauses_stageFault.descOf (0 : Nat)) = true := by
  decide +kernel

/-- The state of the witness below. -/
def state_TripsFallOnTheirCauses_stageFault_2 : State :=
  { placed with sp := [(0, { Sp.init with force := { Force.init with out := .tripped }, sup := { Sup.init with tripped := true, cause := 1 } })], sets := { placed.sets with cast := { placed.sets.cast with descs := [(0, ⟨BitVec.allOnes 2048, .written⟩)] } } }

theorem witness_TripsFallOnTheirCauses_stageFault_2 :
    state_TripsFallOnTheirCauses_stageFault_2.aside = false ∧ (state_TripsFallOnTheirCauses_stageFault_2.spAt (0 : Nat)).sup.tripped = true ∧ state_TripsFallOnTheirCauses_stageFault_2.hasPort (0 : Nat) = true ∧ state_TripsFallOnTheirCauses_stageFault_2.rst.ctrlUp = true ∧ dFlt (state_TripsFallOnTheirCauses_stageFault_2.descOf (0 : Nat)) = true := by
  decide +kernel

theorem witness_TripsFallOnTheirCauses_stageFault_3 :
    live.hasPort (0 : Nat) = true ∧ live.rst.ctrlUp = true ∧ (dFlt (live.descOf (0 : Nat)) = false ∨ live.aside = true ∨ (tripLive (live.spAt (0 : Nat)).force.out = false ∧ (live.spAt (0 : Nat)).sup.tripped = false)) := by
  decide +kernel

/-- The state of the witness below. -/
def state_TripsFallOnTheirCauses_stgFltRelease : State :=
  { placed with sp := [(0, { Sp.init with sup := { Sup.init with flt := true } })], sets := { placed.sets with cast := { placed.sets.cast with descs := [(0, ⟨BitVec.allOnes 2048, .written⟩)] } } }

theorem witness_TripsFallOnTheirCauses_stgFltRelease :
    state_TripsFallOnTheirCauses_stgFltRelease.hasPort (0 : Nat) = true ∧ state_TripsFallOnTheirCauses_stgFltRelease.rst.ctrlUp = true := by
  decide +kernel

/-- The state of the witness below. -/
def state_TripsFallOnTheirCauses_extTrip : State :=
  { live with sp := [(9, { Sp.init with force := { Force.init with out := .regulating, en := true, driven := true }, sup := { Sup.init with held := false }, loop := { Loop.init with gov := 1 } })], fab := { live.fab with arrived := [9] }, sets := { live.sets with cast := { live.sets.cast with params := [(pkey 0x445 9, 1)] } } }

theorem witness_TripsFallOnTheirCauses_extTrip :
    state_TripsFallOnTheirCauses_extTrip.aside = false ∧ ((state_TripsFallOnTheirCauses_extTrip.spAt (9 : Nat)).sup.tripped = false ∧ tripLive (state_TripsFallOnTheirCauses_extTrip.spAt (9 : Nat)).force.out = true) ∧ state_TripsFallOnTheirCauses_extTrip.hasPort (9 : Nat) = true ∧ (9 : Nat) ∈ state_TripsFallOnTheirCauses_extTrip.fab.arrived ∧ state_TripsFallOnTheirCauses_extTrip.castN 0x445 (9 : Nat) = 1 := by
  decide +kernel

/-- The state of the witness below. -/
def state_TripsFallOnTheirCauses_extTrip_2 : State :=
  { live with sp := [(9, { Sp.init with force := { Force.init with out := .tripped, en := true, driven := true }, sup := { Sup.init with held := false, tripped := true }, loop := { Loop.init with gov := 1 } })], fab := { live.fab with arrived := [9] }, sets := { live.sets with cast := { live.sets.cast with params := [(pkey 0x445 9, 1)] } } }

theorem witness_TripsFallOnTheirCauses_extTrip_2 :
    state_TripsFallOnTheirCauses_extTrip_2.aside = false ∧ (state_TripsFallOnTheirCauses_extTrip_2.spAt (9 : Nat)).sup.tripped = true ∧ state_TripsFallOnTheirCauses_extTrip_2.hasPort (9 : Nat) = true ∧ (9 : Nat) ∈ state_TripsFallOnTheirCauses_extTrip_2.fab.arrived ∧ state_TripsFallOnTheirCauses_extTrip_2.castN 0x445 (9 : Nat) = 1 := by
  decide +kernel

theorem witness_TripsFallOnTheirCauses_extTrip_3 :
    (9 : Nat) ∉ live.fab.arrived ∨ live.castN 0x445 (9 : Nat) ≠ 1 ∨ live.aside = true := by
  decide +kernel

/-- The state of the witness below. -/
def state_PortsEnableRampAndOpen_stgEnAssert : State :=
  { live with sp := [(0, { Sp.init with force := { Force.init with out := .armed, lines := [0], seq := 100000, driven := true }, sup := { Sup.init with held := false }, loop := { Loop.init with gov := 1 } })] }

theorem witness_PortsEnableRampAndOpen_stgEnAssert :
    state_PortsEnableRampAndOpen_stgEnAssert.grpRuns ((0 : Nat) / 8) = true ∧ ((state_PortsEnableRampAndOpen_stgEnAssert.spAt (0 : Nat)).force.out = .armed ∧ (state_PortsEnableRampAndOpen_stgEnAssert.spAt (0 : Nat)).force.en = false) ∧ state_PortsEnableRampAndOpen_stgEnAssert.makeTicks (0 : Nat) ≤ (state_PortsEnableRampAndOpen_stgEnAssert.spAt (0 : Nat)).force.seq ∧ (state_PortsEnableRampAndOpen_stgEnAssert.spAt (0 : Nat)).force.lines.length = 1 ∧ state_PortsEnableRampAndOpen_stgEnAssert.allSettled (0 : Nat) = true := by
  decide +kernel

theorem witness_PortsEnableRampAndOpen_stgEnAssert_2 :
    (live.spAt (0 : Nat)).force.seq < live.makeTicks (0 : Nat) ∨ (live.spAt (0 : Nat)).force.out ≠ .armed ∨ (live.spAt (0 : Nat)).force.lines.length ≠ 1 ∨ live.allSettled (0 : Nat) = false := by
  decide +kernel

/-- The state of the witness below. -/
def state_PortsEnableRampAndOpen_loopsClose : State :=
  { placed with sp := [(0, { Sp.init with force := { Force.init with out := .armed, en := true, lines := [0], seq := 100000, driven := true }, sup := { Sup.init with held := false }, loop := { Loop.init with gov := 1 } })] }

theorem witness_PortsEnableRampAndOpen_loopsClose :
    state_PortsEnableRampAndOpen_loopsClose.grpRuns ((0 : Nat) / 8) = true ∧ ((state_PortsEnableRampAndOpen_loopsClose.spAt (0 : Nat)).force.out = .armed ∧ (state_PortsEnableRampAndOpen_loopsClose.spAt (0 : Nat)).force.en = true) ∧ state_PortsEnableRampAndOpen_loopsClose.ticksUs ((0 : Nat) / 8) (dn (state_PortsEnableRampAndOpen_loopsClose.descOf (0 : Nat)) 0xA8 2) ≤ (state_PortsEnableRampAndOpen_loopsClose.spAt (0 : Nat)).force.seq := by
  decide +kernel

theorem witness_PortsEnableRampAndOpen_loopsClose_2 :
    (live.spAt (0 : Nat)).force.out ≠ .armed ∨ (live.spAt (0 : Nat)).force.en = false ∨ (live.spAt (0 : Nat)).force.seq < live.ticksUs ((0 : Nat) / 8) (dn (live.descOf (0 : Nat)) 0xA8 2) := by
  decide +kernel

/-- The state of the witness below. -/
def state_PortsEnableRampAndOpen_rampDownEnd : State :=
  { placed with sp := [(0, { Sp.init with force := { Force.init with out := .rampDown, en := true, down := some ⟨5, 3, 3⟩ }, sup := { Sup.init with held := false }, loop := { Loop.init with gov := 1 } })] }

theorem witness_PortsEnableRampAndOpen_rampDownEnd :
    state_PortsEnableRampAndOpen_rampDownEnd.grpRuns ((0 : Nat) / 8) = true ∧ (state_PortsEnableRampAndOpen_rampDownEnd.spAt (0 : Nat)).force.out = .rampDown ∧ (state_PortsEnableRampAndOpen_rampDownEnd.spAt (0 : Nat)).force.down.any (fun r => decide (r.n ≤ r.j)) = true := by
  decide +kernel

/-- The state of the witness below. -/
def state_PortsEnableRampAndOpen_rampDownEnd_2 : State :=
  { placed with sp := [(0, { Sp.init with force := { Force.init with out := .rampDown, en := true, down := some ⟨5, 3, 2⟩ }, sup := { Sup.init with held := false }, loop := { Loop.init with gov := 1 } })] }

theorem witness_PortsEnableRampAndOpen_rampDownEnd_2 :
    (state_PortsEnableRampAndOpen_rampDownEnd_2.spAt (0 : Nat)).force.out ≠ .rampDown ∨ (state_PortsEnableRampAndOpen_rampDownEnd_2.spAt (0 : Nat)).force.down.any (fun r => decide (r.n ≤ r.j)) = false := by
  decide +kernel

/-- The state of the witness below. -/
def state_PortsEnableRampAndOpen_parkEnd : State :=
  { placed with sp := [(0, { Sp.init with force := { Force.init with out := .park, driven := true, lines := [0], seq := 100000 }, sup := { Sup.init with held := false }, loop := { Loop.init with gov := 1 } })] }

theorem witness_PortsEnableRampAndOpen_parkEnd :
    state_PortsEnableRampAndOpen_parkEnd.grpRuns ((0 : Nat) / 8) = true ∧ ((state_PortsEnableRampAndOpen_parkEnd.spAt (0 : Nat)).force.out = .park ∧ (state_PortsEnableRampAndOpen_parkEnd.spAt (0 : Nat)).force.driven = true) ∧ state_PortsEnableRampAndOpen_parkEnd.ticksUs ((0 : Nat) / 8) (dn (state_PortsEnableRampAndOpen_parkEnd.descOf (0 : Nat)) 0xAA 2) ≤ (state_PortsEnableRampAndOpen_parkEnd.spAt (0 : Nat)).force.seq := by
  decide +kernel

/-- The state of the witness below. -/
def state_PortsEnableRampAndOpen_parkEnd_2 : State :=
  { placed with sp := [(0, { Sp.init with force := { Force.init with out := .tripped, driven := true, lines := [0], seq := 100000 }, sup := { Sup.init with held := false }, loop := { Loop.init with gov := 1 } })] }

theorem witness_PortsEnableRampAndOpen_parkEnd_2 :
    state_PortsEnableRampAndOpen_parkEnd_2.grpRuns ((0 : Nat) / 8) = true ∧ ((state_PortsEnableRampAndOpen_parkEnd_2.spAt (0 : Nat)).force.out = .tripped ∧ (state_PortsEnableRampAndOpen_parkEnd_2.spAt (0 : Nat)).force.driven = true) ∧ state_PortsEnableRampAndOpen_parkEnd_2.ticksUs ((0 : Nat) / 8) (dn (state_PortsEnableRampAndOpen_parkEnd_2.descOf (0 : Nat)) 0xAA 2) ≤ (state_PortsEnableRampAndOpen_parkEnd_2.spAt (0 : Nat)).force.seq := by
  decide +kernel

theorem witness_PortsEnableRampAndOpen_parkEnd_3 :
    (live.spAt (0 : Nat)).force.driven = false ∨ (live.spAt (0 : Nat)).force.seq < live.ticksUs ((0 : Nat) / 8) (dn (live.descOf (0 : Nat)) 0xAA 2) := by
  decide +kernel

/-- The state of the witness below. -/
def state_PortsEnableRampAndOpen_rngLineRelease : State :=
  { placed with sp := [(0, { Sp.init with force := { Force.init with lines := [1, 2], release := [2, 1], seq := 1 }, sup := { Sup.init with held := false }, loop := { Loop.init with gov := 1 } })] }

theorem witness_PortsEnableRampAndOpen_rngLineRelease :
    state_PortsEnableRampAndOpen_rngLineRelease.grpRuns ((0 : Nat) / 8) = true ∧ (state_PortsEnableRampAndOpen_rngLineRelease.spAt (0 : Nat)).force.release = (2 : Nat) :: ([1] : List Nat) ∧ (1 ≤ (state_PortsEnableRampAndOpen_rngLineRelease.spAt (0 : Nat)).force.seq ∧ (state_PortsEnableRampAndOpen_rngLineRelease.spAt (0 : Nat)).force.driven = false ∧ (state_PortsEnableRampAndOpen_rngLineRelease.spAt (0 : Nat)).force.win = none) := by
  decide +kernel

theorem witness_PortsEnableRampAndOpen_rngLineRelease_2 :
    (live.spAt (0 : Nat)).force.release = [] ∨ (live.spAt (0 : Nat)).force.seq = 0 ∨ (live.spAt (0 : Nat)).force.driven = true ∨ (live.spAt (0 : Nat)).force.win ≠ none := by
  decide +kernel

/-- The state of the witness below. -/
def state_PortsEnableRampAndOpen_rangeSwitchBoundary : State :=
  { placed with sp := [(0, { Sp.init with force := { Force.init with out := .regulating, en := true, driven := true, rng := 2, lines := [1, 2], win := some ⟨2, 1, 4, 4, 3, 7, none, false⟩ }, sup := { Sup.init with held := false }, loop := { Loop.init with gov := 1 } })] }

theorem witness_PortsEnableRampAndOpen_rangeSwitchBoundary :
    state_PortsEnableRampAndOpen_rangeSwitchBoundary.grpRuns ((0 : Nat) / 8) = true ∧ (state_PortsEnableRampAndOpen_rangeSwitchBoundary.spAt (0 : Nat)).force.win = some (⟨2, 1, 4, 4, 3, 7, none, false⟩ : Window) ∧ ((state_PortsEnableRampAndOpen_rangeSwitchBoundary.spAt (0 : Nat)).force.rng ≠ (⟨2, 1, 4, 4, 3, 7, none, false⟩ : Window).b ∧ (⟨2, 1, 4, 4, 3, 7, none, false⟩ : Window).k ≤ (⟨2, 1, 4, 4, 3, 7, none, false⟩ : Window).tick) ∧ ((state_PortsEnableRampAndOpen_rangeSwitchBoundary.gangOf (0 : Nat)).count (0 : Nat) = 1 ∧ (state_PortsEnableRampAndOpen_rangeSwitchBoundary.spAt (0 : Nat)).force.win = some (⟨2, 1, 4, 4, 3, 7, none, false⟩ : Window)) := by
  decide +kernel

/-- The state of the witness below. -/
def state_PortsEnableRampAndOpen_rangeSwitchBoundary_2 : State :=
  { placed with sp := [(0, { Sp.init with force := { Force.init with out := .regulating, en := true, driven := true, rng := 2, lines := [1, 2], win := some ⟨2, 1, 3, 4, 3, 7, none, false⟩ }, sup := { Sup.init with held := false }, loop := { Loop.init with gov := 1 } })] }

theorem witness_PortsEnableRampAndOpen_rangeSwitchBoundary_2 :
    (state_PortsEnableRampAndOpen_rangeSwitchBoundary_2.spAt (0 : Nat)).force.win = some (⟨2, 1, 3, 4, 3, 7, none, false⟩ : Window) ∧ ((state_PortsEnableRampAndOpen_rangeSwitchBoundary_2.spAt (0 : Nat)).force.rng = (⟨2, 1, 3, 4, 3, 7, none, false⟩ : Window).b ∨ (⟨2, 1, 3, 4, 3, 7, none, false⟩ : Window).tick < (⟨2, 1, 3, 4, 3, 7, none, false⟩ : Window).k) := by
  decide +kernel

/-- The state of the witness below. -/
def state_PortsEnableRampAndOpen_rangeWindowClose : State :=
  { placed with sp := [(0, { Sp.init with force := { Force.init with out := .regulating, en := true, driven := true, rng := 1, lines := [1], win := some ⟨2, 1, 7, 4, 3, 7, none, false⟩ }, sup := { Sup.init with held := false }, loop := { Loop.init with gov := 1 } })] }

theorem witness_PortsEnableRampAndOpen_rangeWindowClose :
    state_PortsEnableRampAndOpen_rangeWindowClose.grpRuns ((0 : Nat) / 8) = true ∧ (state_PortsEnableRampAndOpen_rangeWindowClose.spAt (0 : Nat)).force.win = some (⟨2, 1, 7, 4, 3, 7, none, false⟩ : Window) ∧ ((state_PortsEnableRampAndOpen_rangeWindowClose.spAt (0 : Nat)).force.rng = (⟨2, 1, 7, 4, 3, 7, none, false⟩ : Window).b ∧ (⟨2, 1, 7, 4, 3, 7, none, false⟩ : Window).k + (⟨2, 1, 7, 4, 3, 7, none, false⟩ : Window).j ≤ (⟨2, 1, 7, 4, 3, 7, none, false⟩ : Window).tick) ∧ ((state_PortsEnableRampAndOpen_rangeWindowClose.spAt (0 : Nat)).force.paramsDue = false ∨ state_PortsEnableRampAndOpen_rangeWindowClose.serves (0 : Nat) = none) ∧ ((state_PortsEnableRampAndOpen_rangeWindowClose.gangOf (0 : Nat)).contains (0 : Nat) = true ∧ (state_PortsEnableRampAndOpen_rangeWindowClose.spAt (0 : Nat)).force.win = some (⟨2, 1, 7, 4, 3, 7, none, false⟩ : Window)) := by
  decide +kernel

/-- The state of the witness below. -/
def state_PortsEnableRampAndOpen_rangeWindowClose_2 : State :=
  { placed with sp := [(0, { Sp.init with force := { Force.init with out := .regulating, en := true, driven := true, rng := 1, lines := [1], paramsDue := true, win := some ⟨2, 1, 7, 4, 3, 7, none, false⟩ }, sup := { Sup.init with held := false }, loop := { Loop.init with gov := 1 } })] }

theorem witness_PortsEnableRampAndOpen_rangeWindowClose_2 :
    state_PortsEnableRampAndOpen_rangeWindowClose_2.grpRuns ((0 : Nat) / 8) = true ∧ (state_PortsEnableRampAndOpen_rangeWindowClose_2.spAt (0 : Nat)).force.win = some (⟨2, 1, 7, 4, 3, 7, none, false⟩ : Window) ∧ ((state_PortsEnableRampAndOpen_rangeWindowClose_2.spAt (0 : Nat)).force.rng = (⟨2, 1, 7, 4, 3, 7, none, false⟩ : Window).b ∧ (⟨2, 1, 7, 4, 3, 7, none, false⟩ : Window).k + (⟨2, 1, 7, 4, 3, 7, none, false⟩ : Window).j ≤ (⟨2, 1, 7, 4, 3, 7, none, false⟩ : Window).tick) ∧ ((state_PortsEnableRampAndOpen_rangeWindowClose_2.spAt (0 : Nat)).force.paramsDue = true ∧ state_PortsEnableRampAndOpen_rangeWindowClose_2.serves (0 : Nat) = some (5 : Nat)) ∧ (state_PortsEnableRampAndOpen_rangeWindowClose_2.gangOf (0 : Nat)).contains (0 : Nat) = true := by
  decide +kernel

/-- The state of the witness below. -/
def state_PortsEnableRampAndOpen_rangeWindowClose_3 : State :=
  { placed with sp := [(0, { Sp.init with force := { Force.init with out := .regulating, en := true, driven := true, rng := 1, lines := [1], win := some ⟨2, 1, 4, 4, 3, 7, none, false⟩ }, sup := { Sup.init with held := false }, loop := { Loop.init with gov := 1 } })] }

theorem witness_PortsEnableRampAndOpen_rangeWindowClose_3 :
    (state_PortsEnableRampAndOpen_rangeWindowClose_3.spAt (0 : Nat)).force.win = some (⟨2, 1, 4, 4, 3, 7, none, false⟩ : Window) ∧ ((state_PortsEnableRampAndOpen_rangeWindowClose_3.spAt (0 : Nat)).force.rng ≠ (⟨2, 1, 4, 4, 3, 7, none, false⟩ : Window).b ∨ (⟨2, 1, 4, 4, 3, 7, none, false⟩ : Window).tick < (⟨2, 1, 4, 4, 3, 7, none, false⟩ : Window).k + (⟨2, 1, 4, 4, 3, 7, none, false⟩ : Window).j) := by
  decide +kernel

/-- The state of the witness below. -/
def state_MonitorsChecksAndRecords_monitorSample : State :=
  { placed with sets := { placed.sets with cast := { placed.sets.cast with params := [(pkey 0x428 5, 0x20001), (pkey 0x429 5, 1000000)] } } }

theorem witness_MonitorsChecksAndRecords_monitorSample :
    state_MonitorsChecksAndRecords_monitorSample.hasPort (0 : Nat) = true ∧ state_MonitorsChecksAndRecords_monitorSample.grpRuns ((0 : Nat) / 8) = true ∧ ((0 : Nat) < 4 ∧ bits (state_MonitorsChecksAndRecords_monitorSample.monCtrl (0 : Nat) (0 : Nat)) 2 0 ≠ 0) ∧ (onCurrent (state_MonitorsChecksAndRecords_monitorSample.monCtrl (0 : Nat) (0 : Nat)) = false ∨ ((state_MonitorsChecksAndRecords_monitorSample.spAt (0 : Nat)).sup.mon.getD (0 : Nat) Mon.init).mask = 0) := by
  decide +kernel

/-- The state of the witness below. -/
def state_MonitorsChecksAndRecords_monitorSample_2 : State :=
  { placed with sp := [(0, { Sp.init with force := { Force.init with out := .regulating, en := true, driven := true, lines := [0] }, sup := { Sup.init with mon := [Mon.init, { Mon.init with mask := 2, run := 3 }] }, loop := { Loop.init with gov := 1 } })], sets := { placed.sets with cast := { placed.sets.cast with params := [(pkey 0x42C 5, 2)] } } }

theorem witness_MonitorsChecksAndRecords_monitorSample_2 :
    state_MonitorsChecksAndRecords_monitorSample_2.hasPort (0 : Nat) = true ∧ state_MonitorsChecksAndRecords_monitorSample_2.grpRuns ((0 : Nat) / 8) = true ∧ ((1 : Nat) < 4 ∧ bits (state_MonitorsChecksAndRecords_monitorSample_2.monCtrl (0 : Nat) (1 : Nat)) 2 0 ≠ 0) ∧ (onCurrent (state_MonitorsChecksAndRecords_monitorSample_2.monCtrl (0 : Nat) (1 : Nat)) = true ∧ 0 < ((state_MonitorsChecksAndRecords_monitorSample_2.spAt (0 : Nat)).sup.mon.getD (1 : Nat) Mon.init).mask) := by
  decide +kernel

/-- The state of the witness below. -/
def state_MonitorsChecksAndRecords_monitorSample_3 : State :=
  { live with sp := [(0, { Sp.init with sup := { Sup.init with mon := [{ Mon.init with latch := true }, { Mon.init with latch := true }] } })] }

theorem witness_MonitorsChecksAndRecords_monitorSample_3 :
    state_MonitorsChecksAndRecords_monitorSample_3.hasPort (0 : Nat) = true ∧ state_MonitorsChecksAndRecords_monitorSample_3.grpRuns ((0 : Nat) / 8) = true ∧ ((1 : Nat) < 4 ∧ bits (state_MonitorsChecksAndRecords_monitorSample_3.monCtrl (0 : Nat) (1 : Nat)) 2 0 = 0) := by
  decide +kernel

/-- The state of the witness below. -/
def state_MonitorsChecksAndRecords_leadCheckStart : State :=
  { live with sp := [(0, { Sp.init with force := { Force.init with out := .off }, sup := { Sup.init with leadCmd := some (0, 9) } })] }

theorem witness_MonitorsChecksAndRecords_leadCheckStart :
    state_MonitorsChecksAndRecords_leadCheckStart.hasPort (0 : Nat) = true ∧ state_MonitorsChecksAndRecords_leadCheckStart.grpRuns ((0 : Nat) / 8) = true ∧ state_MonitorsChecksAndRecords_leadCheckStart.aside = false ∧ (state_MonitorsChecksAndRecords_leadCheckStart.leadIsDue (0 : Nat) = true ∧ state_MonitorsChecksAndRecords_leadCheckStart.leadCanRun (0 : Nat) = true) ∧ (List.range 8).all (fun k => !(state_MonitorsChecksAndRecords_leadCheckStart.spAt (8 * ((0 : Nat) / 8) + k)).sup.checking && ((0 : Nat) ≤ 8 * ((0 : Nat) / 8) + k || !(state_MonitorsChecksAndRecords_leadCheckStart.leadIsDue (8 * ((0 : Nat) / 8) + k) && state_MonitorsChecksAndRecords_leadCheckStart.leadCanRun (8 * ((0 : Nat) / 8) + k)))) = true := by
  decide +kernel

theorem witness_MonitorsChecksAndRecords_leadCheckStart_2 :
    live.aside = true ∨ live.leadIsDue (0 : Nat) = false ∨ live.leadCanRun (0 : Nat) = false := by
  decide +kernel

/-- The state of the witness below. -/
def state_MonitorsChecksAndRecords_leadCheckEnd : State :=
  { placed with sp := [(0, { Sp.init with force := { Force.init with out := .regulating, en := true, driven := true, lines := [0] }, sup := { Sup.init with checking := true }, loop := { Loop.init with gov := 1 } })] }

theorem witness_MonitorsChecksAndRecords_leadCheckEnd :
    (state_MonitorsChecksAndRecords_leadCheckEnd.spAt (0 : Nat)).sup.checking = true ∧ state_MonitorsChecksAndRecords_leadCheckEnd.grpRuns ((0 : Nat) / 8) = true ∧ ((40000 : Int) = ((⟨[1, 1, 1, 1], [40001, 1, 1, 1]⟩ : LeadIn).last.take 4).foldl (· + ·) 0 - ((⟨[1, 1, 1, 1], [40001, 1, 1, 1]⟩ : LeadIn).before.take 4).foldl (· + ·) 0 ∧ (3 : Int) = ((⟨[0, 0, 0, 0], [0, 0, 0, 3]⟩ : LeadIn).last.take 4).foldl (· + ·) 0 - ((⟨[0, 0, 0, 0], [0, 0, 0, 3]⟩ : LeadIn).before.take 4).foldl (· + ·) 0) ∧ ((40000 : Int).natAbs ≤ state_MonitorsChecksAndRecords_leadCheckEnd.castN 0x162 0 * 4000 ∧ (state_MonitorsChecksAndRecords_leadCheckEnd.leadCurrent (0 : Nat) = true → (3 : Int).natAbs ≤ state_MonitorsChecksAndRecords_leadCheckEnd.castN 0x162 0 * 4000)) ∧ ((state_MonitorsChecksAndRecords_leadCheckEnd.spAt (0 : Nat)).sup.leadCmd = none ∧ (state_MonitorsChecksAndRecords_leadCheckEnd.spAt (0 : Nat)).sup.releaseCmd = none) := by
  decide +kernel

/-- The state of the witness below. -/
def state_MonitorsChecksAndRecords_leadCheckEnd_2 : State :=
  { placed with sp := [(0, { Sp.init with force := { Force.init with out := .regulating, en := true, driven := true, lines := [0] }, sup := { Sup.init with checking := true, leadCmd := some (0, 9) }, loop := { Loop.init with gov := 1 } })], host := { placed.host with outst := [⟨0, false, 0x0D04, 9, 16, 0, 0, 0, 0, 0⟩] } }

theorem witness_MonitorsChecksAndRecords_leadCheckEnd_2 :
    (state_MonitorsChecksAndRecords_leadCheckEnd_2.spAt (0 : Nat)).sup.checking = true ∧ state_MonitorsChecksAndRecords_leadCheckEnd_2.grpRuns ((0 : Nat) / 8) = true ∧ ((40000 : Int) = ((⟨[1, 1, 1, 1], [40001, 1, 1, 1]⟩ : LeadIn).last.take 4).foldl (· + ·) 0 - ((⟨[1, 1, 1, 1], [40001, 1, 1, 1]⟩ : LeadIn).before.take 4).foldl (· + ·) 0 ∧ (3 : Int) = ((⟨[0, 0, 0, 0], [0, 0, 0, 3]⟩ : LeadIn).last.take 4).foldl (· + ·) 0 - ((⟨[0, 0, 0, 0], [0, 0, 0, 3]⟩ : LeadIn).before.take 4).foldl (· + ·) 0) ∧ ((40000 : Int).natAbs ≤ state_MonitorsChecksAndRecords_leadCheckEnd_2.castN 0x162 0 * 4000 ∧ (state_MonitorsChecksAndRecords_leadCheckEnd_2.leadCurrent (0 : Nat) = true → (3 : Int).natAbs ≤ state_MonitorsChecksAndRecords_leadCheckEnd_2.castN 0x162 0 * 4000)) ∧ ((state_MonitorsChecksAndRecords_leadCheckEnd_2.spAt (0 : Nat)).sup.leadCmd = some ((0 : Nat), (9 : BitVec 16)) ∧ (state_MonitorsChecksAndRecords_leadCheckEnd_2.spAt (0 : Nat)).sup.releaseCmd = none) ∧ state_MonitorsChecksAndRecords_leadCheckEnd_2.host.outst.find? (fun x => x.opcode == 0x0D04 && x.mbx == (0 : Nat) && x.tag == (9 : BitVec 16)) = some (⟨0, false, 0x0D04, 9, 16, 0, 0, 0, 0, 0⟩ : Outstanding) ∧ (65536000 : Word) = BitVec.ofNat 32 (65536 * min 65535 (max (rdiv (40000 : Int) 4).natAbs (if state_MonitorsChecksAndRecords_leadCheckEnd_2.leadCurrent (0 : Nat) = true then (rdiv (3 : Int) 4).natAbs else 0) / 10) + 4 * (if state_MonitorsChecksAndRecords_leadCheckEnd_2.leadCurrent (0 : Nat) = true then (if (3 : Int).natAbs ≤ state_MonitorsChecksAndRecords_leadCheckEnd_2.castN 0x162 0 * 4000 then 0 else 1) else 2) + (if (40000 : Int).natAbs ≤ state_MonitorsChecksAndRecords_leadCheckEnd_2.castN 0x162 0 * 4000 then 0 else 1)) := by
  decide +kernel

/-- The state of the witness below. -/
def state_MonitorsChecksAndRecords_leadCheckEnd_3 : State :=
  { placed with sp := [(0, { Sp.init with force := { Force.init with out := .regulating, en := true, driven := true, lines := [0] }, sup := { Sup.init with checking := true, held := true, heldCode := 77, releaseCmd := some (0, 9) }, loop := { Loop.init with gov := 1 } })], host := { placed.host with outst := [⟨0, false, 0x0D05, 9, 16, 0, 0, 0, 0, 0⟩] } }

theorem witness_MonitorsChecksAndRecords_leadCheckEnd_3 :
    (state_MonitorsChecksAndRecords_leadCheckEnd_3.spAt (0 : Nat)).sup.checking = true ∧ state_MonitorsChecksAndRecords_leadCheckEnd_3.grpRuns ((0 : Nat) / 8) = true ∧ ((40000 : Int) = ((⟨[1, 1, 1, 1], [40001, 1, 1, 1]⟩ : LeadIn).last.take 4).foldl (· + ·) 0 - ((⟨[1, 1, 1, 1], [40001, 1, 1, 1]⟩ : LeadIn).before.take 4).foldl (· + ·) 0 ∧ (3 : Int) = ((⟨[0, 0, 0, 0], [0, 0, 0, 3]⟩ : LeadIn).last.take 4).foldl (· + ·) 0 - ((⟨[0, 0, 0, 0], [0, 0, 0, 3]⟩ : LeadIn).before.take 4).foldl (· + ·) 0) ∧ ((40000 : Int).natAbs ≤ state_MonitorsChecksAndRecords_leadCheckEnd_3.castN 0x162 0 * 4000 ∧ (state_MonitorsChecksAndRecords_leadCheckEnd_3.leadCurrent (0 : Nat) = true → (3 : Int).natAbs ≤ state_MonitorsChecksAndRecords_leadCheckEnd_3.castN 0x162 0 * 4000)) ∧ ((state_MonitorsChecksAndRecords_leadCheckEnd_3.spAt (0 : Nat)).sup.leadCmd = none ∧ (state_MonitorsChecksAndRecords_leadCheckEnd_3.spAt (0 : Nat)).sup.releaseCmd = some ((0 : Nat), (9 : BitVec 16))) ∧ ((state_MonitorsChecksAndRecords_leadCheckEnd_3.spAt (0 : Nat)).sup.froV < 64 ∧ (state_MonitorsChecksAndRecords_leadCheckEnd_3.spAt (0 : Nat)).sup.froI < 64) ∧ state_MonitorsChecksAndRecords_leadCheckEnd_3.host.outst.find? (fun x => x.opcode == 0x0D05 && x.mbx == (0 : Nat) && x.tag == (9 : BitVec 16)) = some (⟨0, false, 0x0D05, 9, 16, 0, 0, 0, 0, 0⟩ : Outstanding) := by
  decide +kernel

/-- The state of the witness below. -/
def state_MonitorsChecksAndRecords_leadCheckEnd_4 : State :=
  { placed with sp := [(0, { Sp.init with force := { Force.init with out := .regulating, en := true, driven := true, lines := [0] }, sup := { Sup.init with checking := true, held := true, heldCode := 77, releaseCmd := some (0, 9) }, loop := { Loop.init with gov := 1 } })], host := { placed.host with outst := [⟨0, false, 0x0D05, 9, 16, 0, 0, 0, 0, 0⟩] } }

theorem witness_MonitorsChecksAndRecords_leadCheckEnd_4 :
    (state_MonitorsChecksAndRecords_leadCheckEnd_4.spAt (0 : Nat)).sup.checking = true ∧ state_MonitorsChecksAndRecords_leadCheckEnd_4.grpRuns ((0 : Nat) / 8) = true ∧ ((-40001 : Int) = ((⟨[1, 1, 1, 1], [-40000, 1, 1, 1]⟩ : LeadIn).last.take 4).foldl (· + ·) 0 - ((⟨[1, 1, 1, 1], [-40000, 1, 1, 1]⟩ : LeadIn).before.take 4).foldl (· + ·) 0 ∧ (3 : Int) = ((⟨[0, 0, 0, 0], [0, 0, 0, 3]⟩ : LeadIn).last.take 4).foldl (· + ·) 0 - ((⟨[0, 0, 0, 0], [0, 0, 0, 3]⟩ : LeadIn).before.take 4).foldl (· + ·) 0) ∧ (state_MonitorsChecksAndRecords_leadCheckEnd_4.castN 0x162 0 * 4000 < (-40001 : Int).natAbs ∨ (state_MonitorsChecksAndRecords_leadCheckEnd_4.leadCurrent (0 : Nat) = true ∧ state_MonitorsChecksAndRecords_leadCheckEnd_4.castN 0x162 0 * 4000 < (3 : Int).natAbs)) ∧ ((state_MonitorsChecksAndRecords_leadCheckEnd_4.spAt (0 : Nat)).sup.leadCmd = none ∧ (state_MonitorsChecksAndRecords_leadCheckEnd_4.spAt (0 : Nat)).sup.releaseCmd = some ((0 : Nat), (9 : BitVec 16)) ∧ (state_MonitorsChecksAndRecords_leadCheckEnd_4.spAt (0 : Nat)).sup.held = true) ∧ state_MonitorsChecksAndRecords_leadCheckEnd_4.host.outst.find? (fun x => x.opcode == 0x0D05 && x.mbx == (0 : Nat) && x.tag == (9 : BitVec 16)) = some (⟨0, false, 0x0D05, 9, 16, 0, 0, 0, 0, 0⟩ : Outstanding) := by
  decide +kernel

/-- The state of the witness below. -/
def state_MonitorsChecksAndRecords_leadCheckEnd_5 : State :=
  { placed with sp := [(0, { Sp.init with force := { Force.init with out := .regulating, en := true, driven := true, lines := [0] }, sup := { Sup.init with checking := true }, loop := { Loop.init with gov := 1 } })] }

theorem witness_MonitorsChecksAndRecords_leadCheckEnd_5 :
    (state_MonitorsChecksAndRecords_leadCheckEnd_5.spAt (0 : Nat)).sup.checking = true ∧ state_MonitorsChecksAndRecords_leadCheckEnd_5.grpRuns ((0 : Nat) / 8) = true ∧ ((-40001 : Int) = ((⟨[1, 1, 1, 1], [-40000, 1, 1, 1]⟩ : LeadIn).last.take 4).foldl (· + ·) 0 - ((⟨[1, 1, 1, 1], [-40000, 1, 1, 1]⟩ : LeadIn).before.take 4).foldl (· + ·) 0 ∧ (3 : Int) = ((⟨[0, 0, 0, 0], [0, 0, 0, 3]⟩ : LeadIn).last.take 4).foldl (· + ·) 0 - ((⟨[0, 0, 0, 0], [0, 0, 0, 3]⟩ : LeadIn).before.take 4).foldl (· + ·) 0) ∧ (state_MonitorsChecksAndRecords_leadCheckEnd_5.castN 0x162 0 * 4000 < (-40001 : Int).natAbs ∨ (state_MonitorsChecksAndRecords_leadCheckEnd_5.leadCurrent (0 : Nat) = true ∧ state_MonitorsChecksAndRecords_leadCheckEnd_5.castN 0x162 0 * 4000 < (3 : Int).natAbs)) ∧ state_MonitorsChecksAndRecords_leadCheckEnd_5.aside = false ∧ ((state_MonitorsChecksAndRecords_leadCheckEnd_5.spAt (0 : Nat)).sup.tripped = false ∧ tripLive (state_MonitorsChecksAndRecords_leadCheckEnd_5.spAt (0 : Nat)).force.out = true) ∧ (state_MonitorsChecksAndRecords_leadCheckEnd_5.spAt (0 : Nat)).sup.held = false ∧ (((state_MonitorsChecksAndRecords_leadCheckEnd_5.serves (0 : Nat)).toList.all (fun f => state_MonitorsChecksAndRecords_leadCheckEnd_5.castN 0x425 f != 1)) = true ∨ loopsClosed (state_MonitorsChecksAndRecords_leadCheckEnd_5.spAt (0 : Nat)) = false) := by
  decide +kernel

/-- The state of the witness below. -/
def state_MonitorsChecksAndRecords_leadCheckEnd_6 : State :=
  { placed with sp := [(0, { Sp.init with force := { Force.init with out := .off }, sup := { Sup.init with checking := true }, loop := { Loop.init with gov := 1 } })] }

theorem witness_MonitorsChecksAndRecords_leadCheckEnd_6 :
    (state_MonitorsChecksAndRecords_leadCheckEnd_6.spAt (0 : Nat)).sup.checking = true ∧ state_MonitorsChecksAndRecords_leadCheckEnd_6.grpRuns ((0 : Nat) / 8) = true ∧ ((-40001 : Int) = ((⟨[1, 1, 1, 1], [-40000, 1, 1, 1]⟩ : LeadIn).last.take 4).foldl (· + ·) 0 - ((⟨[1, 1, 1, 1], [-40000, 1, 1, 1]⟩ : LeadIn).before.take 4).foldl (· + ·) 0 ∧ (3 : Int) = ((⟨[0, 0, 0, 0], [0, 0, 0, 3]⟩ : LeadIn).last.take 4).foldl (· + ·) 0 - ((⟨[0, 0, 0, 0], [0, 0, 0, 3]⟩ : LeadIn).before.take 4).foldl (· + ·) 0) ∧ (state_MonitorsChecksAndRecords_leadCheckEnd_6.castN 0x162 0 * 4000 < (-40001 : Int).natAbs ∨ (state_MonitorsChecksAndRecords_leadCheckEnd_6.leadCurrent (0 : Nat) = true ∧ state_MonitorsChecksAndRecords_leadCheckEnd_6.castN 0x162 0 * 4000 < (3 : Int).natAbs)) ∧ ((state_MonitorsChecksAndRecords_leadCheckEnd_6.spAt (0 : Nat)).sup.leadCmd = none ∧ (state_MonitorsChecksAndRecords_leadCheckEnd_6.spAt (0 : Nat)).sup.releaseCmd = none) ∧ ((state_MonitorsChecksAndRecords_leadCheckEnd_6.spAt (0 : Nat)).sup.tripped = false ∧ tripLive (state_MonitorsChecksAndRecords_leadCheckEnd_6.spAt (0 : Nat)).force.out = false) := by
  decide +kernel

/-- The state of the witness below. -/
def state_MonitorsChecksAndRecords_leadCheckEnd_7 : State :=
  { placed with sp := [(0, { Sp.init with force := { Force.init with out := .regulating, en := true, driven := true, lines := [0] }, sup := { Sup.init with checking := true }, loop := { Loop.init with gov := 1 } })] }

theorem witness_MonitorsChecksAndRecords_leadCheckEnd_7 :
    (state_MonitorsChecksAndRecords_leadCheckEnd_7.spAt (0 : Nat)).sup.checking = true ∧ state_MonitorsChecksAndRecords_leadCheckEnd_7.grpRuns ((0 : Nat) / 8) = true := by
  decide +kernel

theorem witness_MonitorsChecksAndRecords_leadCheckEnd_8 :
    (live.spAt (0 : Nat)).sup.checking = false := by
  decide +kernel

/-- The state of the witness below. -/
def state_MonitorsChecksAndRecords_tripRecordMove : State :=
  { placed with grp := [(0, { Grp.init with intPend := true, trips := [{ TripRec.init with port := 1 }, { TripRec.init with fig := 5, port := 0, seq := 3, auxf := 4, cause := 0x10 }] })] }

theorem witness_MonitorsChecksAndRecords_tripRecordMove :
    (state_MonitorsChecksAndRecords_tripRecordMove.rst.dataUp = true ∧ state_MonitorsChecksAndRecords_tripRecordMove.rst.mgmtUp = true) ∧ (state_MonitorsChecksAndRecords_tripRecordMove.grpAt (0 : Nat)).trips.find? (fun x => x.auxf != 0#8) = some ({ TripRec.init with fig := 5, port := 0, seq := 3, auxf := 4, cause := 0x10 } : TripRec) ∧ state_MonitorsChecksAndRecords_tripRecordMove.err.ring.length < 4096 := by
  decide +kernel

theorem witness_MonitorsChecksAndRecords_tripRecordMove_2 :
    live.rst.dataUp = false ∨ live.rst.mgmtUp = false ∨ (live.grpAt (0 : Nat)).trips.all (fun x => x.auxf == 0#8) = true := by
  decide +kernel

/-- The state of the witness below. -/
def state_GroupsTriggerConvertAndCheck_groupTrigger : State :=
  { placed with grp := [(0, { Grp.init with acq := { Acq.init with trigMode := 1 } })] }

theorem witness_GroupsTriggerConvertAndCheck_groupTrigger :
    state_GroupsTriggerConvertAndCheck_groupTrigger.grpRuns (0 : Nat) = true ∧ ((state_GroupsTriggerConvertAndCheck_groupTrigger.grpAt (0 : Nat)).acq.trigNow = false ∧ (state_GroupsTriggerConvertAndCheck_groupTrigger.grpAt (0 : Nat)).acq.trigMode = 1) ∧ ([0] : List Nat) = (([⟨1, 0, true⟩, ⟨0, 9, false⟩, ⟨0, 0, true⟩] : List LandEdge).filter (fun e => e.port == (state_GroupsTriggerConvertAndCheck_groupTrigger.grpAt (0 : Nat)).acq.trigPort && ((state_GroupsTriggerConvertAndCheck_groupTrigger.grpAt (0 : Nat)).acq.trigEdge == 2 || e.rising == ((state_GroupsTriggerConvertAndCheck_groupTrigger.grpAt (0 : Nat)).acq.trigEdge == 0)))).map (fun e => e.ofs) ∧ (([0] : List Nat) = (0 : Nat) :: ([] : List Nat) ∧ (0 : Nat) = ([] : List Nat).foldl min (0 : Nat) + state_GroupsTriggerConvertAndCheck_groupTrigger.castN 0x501 (0 : Nat) ∧ (0 : Nat) ≤ (state_GroupsTriggerConvertAndCheck_groupTrigger.periodNs (0 : Nat) - 500) / 5) := by
  decide +kernel

/-- The state of the witness below. -/
def state_GroupsTriggerConvertAndCheck_groupTrigger_2 : State :=
  { placed with grp := [(0, { Grp.init with acq := { Acq.init with trigMode := 0 } })] }

theorem witness_GroupsTriggerConvertAndCheck_groupTrigger_2 :
    state_GroupsTriggerConvertAndCheck_groupTrigger_2.grpRuns (0 : Nat) = true ∧ ((state_GroupsTriggerConvertAndCheck_groupTrigger_2.grpAt (0 : Nat)).acq.trigNow = false ∧ (state_GroupsTriggerConvertAndCheck_groupTrigger_2.grpAt (0 : Nat)).acq.trigMode ≠ 1) := by
  decide +kernel

/-- The state of the witness below. -/
def state_GroupsTriggerConvertAndCheck_groupTrigger_3 : State :=
  { placed with grp := [(0, { Grp.init with acq := { Acq.init with trigNow := true } })] }

theorem witness_GroupsTriggerConvertAndCheck_groupTrigger_3 :
    (state_GroupsTriggerConvertAndCheck_groupTrigger_3.grpAt (0 : Nat)).acq.trigNow = true := by
  decide +kernel

/-- The state of the witness below. -/
def state_GroupsTriggerConvertAndCheck_triggerMiss : State :=
  { placed with grp := [(0, { Grp.init with acq := { Acq.init with trigMode := 1 } })] }

theorem witness_GroupsTriggerConvertAndCheck_triggerMiss :
    state_GroupsTriggerConvertAndCheck_triggerMiss.grpRuns (0 : Nat) = true ∧ ((state_GroupsTriggerConvertAndCheck_triggerMiss.grpAt (0 : Nat)).acq.trigNow = false ∧ (state_GroupsTriggerConvertAndCheck_triggerMiss.grpAt (0 : Nat)).acq.trigMode = 1) ∧ ([] : List Nat) = (([⟨0, 9, false⟩] : List LandEdge).filter (fun e => e.port == (state_GroupsTriggerConvertAndCheck_triggerMiss.grpAt (0 : Nat)).acq.trigPort && ((state_GroupsTriggerConvertAndCheck_triggerMiss.grpAt (0 : Nat)).acq.trigEdge == 2 || e.rising == ((state_GroupsTriggerConvertAndCheck_triggerMiss.grpAt (0 : Nat)).acq.trigEdge == 0)))).map (fun e => e.ofs) ∧ (([] : List Nat) = [] ∨ (state_GroupsTriggerConvertAndCheck_triggerMiss.periodNs (0 : Nat) - 500) / 5 < (([] : List Nat).drop 1).foldl min (([] : List Nat).headD 0) + state_GroupsTriggerConvertAndCheck_triggerMiss.castN 0x501 (0 : Nat)) := by
  decide +kernel

/-- The state of the witness below. -/
def state_GroupsTriggerConvertAndCheck_triggerMiss_2 : State :=
  { placed with grp := [(0, { Grp.init with acq := { Acq.init with trigMode := 0 } })] }

theorem witness_GroupsTriggerConvertAndCheck_triggerMiss_2 :
    (state_GroupsTriggerConvertAndCheck_triggerMiss_2.grpAt (0 : Nat)).acq.trigNow = true ∨ (state_GroupsTriggerConvertAndCheck_triggerMiss_2.grpAt (0 : Nat)).acq.trigMode ≠ 1 := by
  decide +kernel

/-- The state of the witness below. -/
def state_GroupsTriggerConvertAndCheck_auxPassStart : State :=
  { placed with grp := [(0, { Grp.init with acq := { Acq.init with auxStart := 0 } })], sets := { placed.sets with cast := { placed.sets.cast with aux := [(2, 0x500000585#128)] } }, fig := [(5, { Fig.init with enabled := true })] }

theorem witness_GroupsTriggerConvertAndCheck_auxPassStart :
    state_GroupsTriggerConvertAndCheck_auxPassStart.grpRuns (0 : Nat) = true ∧ ((state_GroupsTriggerConvertAndCheck_auxPassStart.grpAt (0 : Nat)).acq.auxStart = 0 ∨ ((state_GroupsTriggerConvertAndCheck_auxPassStart.grpAt (0 : Nat)).acq.auxStart = 1 ∧ (state_GroupsTriggerConvertAndCheck_auxPassStart.grpAt (0 : Nat)).acq.passGo = true) ∨ ((state_GroupsTriggerConvertAndCheck_auxPassStart.grpAt (0 : Nat)).acq.auxStart = 2 ∧ state_GroupsTriggerConvertAndCheck_auxPassStart.fab.arrived.contains (0x180 + (0 : Nat)) = true)) ∧ ((state_GroupsTriggerConvertAndCheck_auxPassStart.grpAt (0 : Nat)).acq.run = none ∧ (state_GroupsTriggerConvertAndCheck_auxPassStart.grpAt (0 : Nat)).acq.interrupted = none ∧ (state_GroupsTriggerConvertAndCheck_auxPassStart.grpAt (0 : Nat)).acq.due = []) ∧ (state_GroupsTriggerConvertAndCheck_auxPassStart.grpAt (0 : Nat)).acq.urgRun = none ∧ (((auxSequence state_GroupsTriggerConvertAndCheck_auxPassStart.sets.cast (0 : Nat)).filter (fun x => auxPeriod x.2 == 0 || (state_GroupsTriggerConvertAndCheck_auxPassStart.grpAt (0 : Nat)).acq.dueCycle.contains x.1)).map (fun x => x.1)).dropWhile (fun j => !state_GroupsTriggerConvertAndCheck_auxPassStart.auxLive (state_GroupsTriggerConvertAndCheck_auxPassStart.auxEntry (0 : Nat) j)) = (2 : Nat) :: ([] : List Nat) := by
  decide +kernel

/-- The state of the witness below. -/
def state_GroupsTriggerConvertAndCheck_auxPassStart_2 : State :=
  { placed with grp := [(0, { Grp.init with acq := { Acq.init with auxStart := 1, passGo := true } })] }

theorem witness_GroupsTriggerConvertAndCheck_auxPassStart_2 :
    state_GroupsTriggerConvertAndCheck_auxPassStart_2.grpRuns (0 : Nat) = true ∧ ((state_GroupsTriggerConvertAndCheck_auxPassStart_2.grpAt (0 : Nat)).acq.auxStart = 0 ∨ ((state_GroupsTriggerConvertAndCheck_auxPassStart_2.grpAt (0 : Nat)).acq.auxStart = 1 ∧ (state_GroupsTriggerConvertAndCheck_auxPassStart_2.grpAt (0 : Nat)).acq.passGo = true) ∨ ((state_GroupsTriggerConvertAndCheck_auxPassStart_2.grpAt (0 : Nat)).acq.auxStart = 2 ∧ state_GroupsTriggerConvertAndCheck_auxPassStart_2.fab.arrived.contains (0x180 + (0 : Nat)) = true)) ∧ ((state_GroupsTriggerConvertAndCheck_auxPassStart_2.grpAt (0 : Nat)).acq.run = none ∧ (state_GroupsTriggerConvertAndCheck_auxPassStart_2.grpAt (0 : Nat)).acq.interrupted = none ∧ (state_GroupsTriggerConvertAndCheck_auxPassStart_2.grpAt (0 : Nat)).acq.due = []) ∧ (state_GroupsTriggerConvertAndCheck_auxPassStart_2.grpAt (0 : Nat)).acq.urgRun = none ∧ (((auxSequence state_GroupsTriggerConvertAndCheck_auxPassStart_2.sets.cast (0 : Nat)).filter (fun x => auxPeriod x.2 == 0 || (state_GroupsTriggerConvertAndCheck_auxPassStart_2.grpAt (0 : Nat)).acq.dueCycle.contains x.1)).map (fun x => x.1)).all (fun j => !state_GroupsTriggerConvertAndCheck_auxPassStart_2.auxLive (state_GroupsTriggerConvertAndCheck_auxPassStart_2.auxEntry (0 : Nat) j)) = true := by
  decide +kernel

/-- The state of the witness below. -/
def state_GroupsTriggerConvertAndCheck_auxPassStart_3 : State :=
  { placed with grp := [(0, { Grp.init with acq := { Acq.init with auxStart := 0, urgRun := some ⟨2, 0, 3, 1, 5, 0, 9, 0, Conv.init⟩ } })], sets := { placed.sets with cast := { placed.sets.cast with aux := [(2, 0x500000585#128)] } }, fig := [(5, { Fig.init with enabled := true })] }

theorem witness_GroupsTriggerConvertAndCheck_auxPassStart_3 :
    state_GroupsTriggerConvertAndCheck_auxPassStart_3.grpRuns (0 : Nat) = true ∧ ((state_GroupsTriggerConvertAndCheck_auxPassStart_3.grpAt (0 : Nat)).acq.auxStart = 0 ∨ ((state_GroupsTriggerConvertAndCheck_auxPassStart_3.grpAt (0 : Nat)).acq.auxStart = 1 ∧ (state_GroupsTriggerConvertAndCheck_auxPassStart_3.grpAt (0 : Nat)).acq.passGo = true) ∨ ((state_GroupsTriggerConvertAndCheck_auxPassStart_3.grpAt (0 : Nat)).acq.auxStart = 2 ∧ state_GroupsTriggerConvertAndCheck_auxPassStart_3.fab.arrived.contains (0x180 + (0 : Nat)) = true)) ∧ ((state_GroupsTriggerConvertAndCheck_auxPassStart_3.grpAt (0 : Nat)).acq.run = none ∧ (state_GroupsTriggerConvertAndCheck_auxPassStart_3.grpAt (0 : Nat)).acq.interrupted = none ∧ (state_GroupsTriggerConvertAndCheck_auxPassStart_3.grpAt (0 : Nat)).acq.due = []) ∧ (state_GroupsTriggerConvertAndCheck_auxPassStart_3.grpAt (0 : Nat)).acq.urgRun.isSome = true := by
  decide +kernel

/-- The state of the witness below. -/
def state_GroupsTriggerConvertAndCheck_auxPassStart_4 : State :=
  { placed with grp := [(0, { Grp.init with acq := { Acq.init with auxStart := 2, run := some ⟨0, 0x80, 0, Conv.init, 0⟩ } })], fab := { placed.fab with arrived := [0x180] } }

theorem witness_GroupsTriggerConvertAndCheck_auxPassStart_4 :
    state_GroupsTriggerConvertAndCheck_auxPassStart_4.grpRuns (0 : Nat) = true ∧ ((state_GroupsTriggerConvertAndCheck_auxPassStart_4.grpAt (0 : Nat)).acq.auxStart = 2 ∧ state_GroupsTriggerConvertAndCheck_auxPassStart_4.fab.arrived.contains (0x180 + (0 : Nat)) = true) ∧ ((state_GroupsTriggerConvertAndCheck_auxPassStart_4.grpAt (0 : Nat)).acq.run ≠ none ∨ (state_GroupsTriggerConvertAndCheck_auxPassStart_4.grpAt (0 : Nat)).acq.interrupted ≠ none ∨ (state_GroupsTriggerConvertAndCheck_auxPassStart_4.grpAt (0 : Nat)).acq.due ≠ []) := by
  decide +kernel

/-- The state of the witness below. -/
def state_GroupsTriggerConvertAndCheck_auxPassStart_5 : State :=
  { placed with grp := [(0, { Grp.init with acq := { Acq.init with auxStart := 3 } })] }

theorem witness_GroupsTriggerConvertAndCheck_auxPassStart_5 :
    (state_GroupsTriggerConvertAndCheck_auxPassStart_5.grpAt (0 : Nat)).acq.auxStart = 3 ∨ ((state_GroupsTriggerConvertAndCheck_auxPassStart_5.grpAt (0 : Nat)).acq.auxStart = 1 ∧ (state_GroupsTriggerConvertAndCheck_auxPassStart_5.grpAt (0 : Nat)).acq.passGo = false) ∨ ((state_GroupsTriggerConvertAndCheck_auxPassStart_5.grpAt (0 : Nat)).acq.auxStart = 2 ∧ state_GroupsTriggerConvertAndCheck_auxPassStart_5.fab.arrived.contains (0x180 + (0 : Nat)) = false) := by
  decide +kernel

/-- The state of the witness below. -/
def state_GroupsTriggerConvertAndCheck_auxEntryEnd : State :=
  { placed with grp := [(0, { Grp.init with acq := { Acq.init with run := some ⟨0, 0x500000080, 0, Conv.init, 0⟩ } })] }

theorem witness_GroupsTriggerConvertAndCheck_auxEntryEnd :
    state_GroupsTriggerConvertAndCheck_auxEntryEnd.grpRuns (0 : Nat) = true ∧ ((state_GroupsTriggerConvertAndCheck_auxEntryEnd.grpAt (0 : Nat)).acq.run = some (⟨0, 0x500000080, 0, Conv.init, 0⟩ : AuxRun) ∧ (state_GroupsTriggerConvertAndCheck_auxEntryEnd.grpAt (0 : Nat)).acq.urgRun = none) ∧ ([1000000000000] : List Int).length = 2 ^ auxAvg (⟨0, 0x500000080, 0, Conv.init, 0⟩ : AuxRun).image - (⟨0, 0x500000080, 0, Conv.init, 0⟩ : AuxRun).conv.n ∧ (⟨1, 89479168, false, false, false, some 18446744073709551406⟩ : Conv) = (List.range ([1000000000000] : List Int).length).foldl (fun a i => a.add (state_GroupsTriggerConvertAndCheck_auxEntryEnd.convert (0 : Nat) 16 (auxSpan (⟨0, 0x500000080, 0, Conv.init, 0⟩ : AuxRun).image) (codeIn (vFs (auxSpan (⟨0, 0x500000080, 0, Conv.init, 0⟩ : AuxRun).image)) (([1000000000000] : List Int).getD i 0))).1 (state_GroupsTriggerConvertAndCheck_auxEntryEnd.convert (0 : Nat) 16 (auxSpan (⟨0, 0x500000080, 0, Conv.init, 0⟩ : AuxRun).image) (codeIn (vFs (auxSpan (⟨0, 0x500000080, 0, Conv.init, 0⟩ : AuxRun).image)) (([1000000000000] : List Int).getD i 0))).2 (state_GroupsTriggerConvertAndCheck_auxEntryEnd.senseRail (0 : Nat) (state_GroupsTriggerConvertAndCheck_auxEntryEnd.sliceClk (0 : Nat) - 50 * (([1000000000000] : List Int).length - i))) ((state_GroupsTriggerConvertAndCheck_auxEntryEnd.grpAt (0 : Nat)).acq.carries 16) (state_GroupsTriggerConvertAndCheck_auxEntryEnd.mtBefore (([1000000000000] : List Int).length - i))) (⟨0, 0x500000080, 0, Conv.init, 0⟩ : AuxRun).conv ∧ (auxFig (⟨0, 0x500000080, 0, Conv.init, 0⟩ : AuxRun).image ≠ 0xFFFF ∧ state_GroupsTriggerConvertAndCheck_auxEntryEnd.aside = false ∧ state_GroupsTriggerConvertAndCheck_auxEntryEnd.rst.dataUp = true) ∧ (⟨1, 89479168, false, false, false, some 18446744073709551406⟩ : Conv).n ≠ 0 := by
  decide +kernel

/-- The state of the witness below. -/
def state_GroupsTriggerConvertAndCheck_auxEntryEnd_2 : State :=
  { placed with grp := [(0, { Grp.init with acq := { Acq.init with run := some ⟨0, 0xFFFF00000080, 0, Conv.init, 0⟩ } })], sets := { placed.sets with cast := { placed.sets.cast with descs := [(0, ⟨descImage ||| (0x7F7F#2048 <<< (8 * 0x99)), .written⟩)] } } }

theorem witness_GroupsTriggerConvertAndCheck_auxEntryEnd_2 :
    state_GroupsTriggerConvertAndCheck_auxEntryEnd_2.grpRuns (0 : Nat) = true ∧ ((state_GroupsTriggerConvertAndCheck_auxEntryEnd_2.grpAt (0 : Nat)).acq.run = some (⟨0, 0xFFFF00000080, 0, Conv.init, 0⟩ : AuxRun) ∧ (state_GroupsTriggerConvertAndCheck_auxEntryEnd_2.grpAt (0 : Nat)).acq.urgRun = none) ∧ ([1000000000000] : List Int).length = 2 ^ auxAvg (⟨0, 0xFFFF00000080, 0, Conv.init, 0⟩ : AuxRun).image - (⟨0, 0xFFFF00000080, 0, Conv.init, 0⟩ : AuxRun).conv.n ∧ (⟨1, 89479168, false, false, false, some 18446744073709551406⟩ : Conv) = (List.range ([1000000000000] : List Int).length).foldl (fun a i => a.add (state_GroupsTriggerConvertAndCheck_auxEntryEnd_2.convert (0 : Nat) 16 (auxSpan (⟨0, 0xFFFF00000080, 0, Conv.init, 0⟩ : AuxRun).image) (codeIn (vFs (auxSpan (⟨0, 0xFFFF00000080, 0, Conv.init, 0⟩ : AuxRun).image)) (([1000000000000] : List Int).getD i 0))).1 (state_GroupsTriggerConvertAndCheck_auxEntryEnd_2.convert (0 : Nat) 16 (auxSpan (⟨0, 0xFFFF00000080, 0, Conv.init, 0⟩ : AuxRun).image) (codeIn (vFs (auxSpan (⟨0, 0xFFFF00000080, 0, Conv.init, 0⟩ : AuxRun).image)) (([1000000000000] : List Int).getD i 0))).2 (state_GroupsTriggerConvertAndCheck_auxEntryEnd_2.senseRail (0 : Nat) (state_GroupsTriggerConvertAndCheck_auxEntryEnd_2.sliceClk (0 : Nat) - 50 * (([1000000000000] : List Int).length - i))) ((state_GroupsTriggerConvertAndCheck_auxEntryEnd_2.grpAt (0 : Nat)).acq.carries 16) (state_GroupsTriggerConvertAndCheck_auxEntryEnd_2.mtBefore (([1000000000000] : List Int).length - i))) (⟨0, 0xFFFF00000080, 0, Conv.init, 0⟩ : AuxRun).conv ∧ (auxFig (⟨0, 0xFFFF00000080, 0, Conv.init, 0⟩ : AuxRun).image = 0xFFFF ∧ state_GroupsTriggerConvertAndCheck_auxEntryEnd_2.aside = false) ∧ (⟨1, 89479168, false, false, false, some 18446744073709551406⟩ : Conv).n ≠ 0 ∧ ((0 : Nat) = 8 * (0 : Nat) + auxPort (⟨0, 0xFFFF00000080, 0, Conv.init, 0⟩ : AuxRun).image ∧ (0 : Int) = stageTemp (state_GroupsTriggerConvertAndCheck_auxEntryEnd_2.descOf (0 : Nat)) (auxSpan (⟨0, 0xFFFF00000080, 0, Conv.init, 0⟩ : AuxRun).image) (rdiv ((⟨1, 89479168, false, false, false, some 18446744073709551406⟩ : Conv).sum * 65536) (⟨1, 89479168, false, false, false, some 18446744073709551406⟩ : Conv).n)) ∧ (0 : Int) < di (state_GroupsTriggerConvertAndCheck_auxEntryEnd_2.descOf (0 : Nat)) 0x9A 1 * 16 := by
  decide +kernel

/-- The state of the witness below. -/
def state_GroupsTriggerConvertAndCheck_auxEntryEnd_3 : State :=
  { placed with grp := [(0, { Grp.init with acq := { Acq.init with run := some ⟨0, 0xFFFF00000080, 0, Conv.init, 0⟩ } })], sets := { placed.sets with cast := { placed.sets.cast with descs := [(0, ⟨descImage &&& ~~~(0xFF#2048 <<< (8 * 0x9A)), .written⟩)] } }, sp := [(0, { Sp.init with force := { Force.init with out := .regulating, driven := true } })] }

theorem witness_GroupsTriggerConvertAndCheck_auxEntryEnd_3 :
    state_GroupsTriggerConvertAndCheck_auxEntryEnd_3.grpRuns (0 : Nat) = true ∧ ((state_GroupsTriggerConvertAndCheck_auxEntryEnd_3.grpAt (0 : Nat)).acq.run = some (⟨0, 0xFFFF00000080, 0, Conv.init, 0⟩ : AuxRun) ∧ (state_GroupsTriggerConvertAndCheck_auxEntryEnd_3.grpAt (0 : Nat)).acq.urgRun = none) ∧ ([1000000000000] : List Int).length = 2 ^ auxAvg (⟨0, 0xFFFF00000080, 0, Conv.init, 0⟩ : AuxRun).image - (⟨0, 0xFFFF00000080, 0, Conv.init, 0⟩ : AuxRun).conv.n ∧ (⟨1, 89479168, false, false, false, some 18446744073709551406⟩ : Conv) = (List.range ([1000000000000] : List Int).length).foldl (fun a i => a.add (state_GroupsTriggerConvertAndCheck_auxEntryEnd_3.convert (0 : Nat) 16 (auxSpan (⟨0, 0xFFFF00000080, 0, Conv.init, 0⟩ : AuxRun).image) (codeIn (vFs (auxSpan (⟨0, 0xFFFF00000080, 0, Conv.init, 0⟩ : AuxRun).image)) (([1000000000000] : List Int).getD i 0))).1 (state_GroupsTriggerConvertAndCheck_auxEntryEnd_3.convert (0 : Nat) 16 (auxSpan (⟨0, 0xFFFF00000080, 0, Conv.init, 0⟩ : AuxRun).image) (codeIn (vFs (auxSpan (⟨0, 0xFFFF00000080, 0, Conv.init, 0⟩ : AuxRun).image)) (([1000000000000] : List Int).getD i 0))).2 (state_GroupsTriggerConvertAndCheck_auxEntryEnd_3.senseRail (0 : Nat) (state_GroupsTriggerConvertAndCheck_auxEntryEnd_3.sliceClk (0 : Nat) - 50 * (([1000000000000] : List Int).length - i))) ((state_GroupsTriggerConvertAndCheck_auxEntryEnd_3.grpAt (0 : Nat)).acq.carries 16) (state_GroupsTriggerConvertAndCheck_auxEntryEnd_3.mtBefore (([1000000000000] : List Int).length - i))) (⟨0, 0xFFFF00000080, 0, Conv.init, 0⟩ : AuxRun).conv ∧ (auxFig (⟨0, 0xFFFF00000080, 0, Conv.init, 0⟩ : AuxRun).image = 0xFFFF ∧ state_GroupsTriggerConvertAndCheck_auxEntryEnd_3.aside = false) ∧ (⟨1, 89479168, false, false, false, some 18446744073709551406⟩ : Conv).n ≠ 0 ∧ ((0 : Nat) = 8 * (0 : Nat) + auxPort (⟨0, 0xFFFF00000080, 0, Conv.init, 0⟩ : AuxRun).image ∧ (0 : Int) = stageTemp (state_GroupsTriggerConvertAndCheck_auxEntryEnd_3.descOf (0 : Nat)) (auxSpan (⟨0, 0xFFFF00000080, 0, Conv.init, 0⟩ : AuxRun).image) (rdiv ((⟨1, 89479168, false, false, false, some 18446744073709551406⟩ : Conv).sum * 65536) (⟨1, 89479168, false, false, false, some 18446744073709551406⟩ : Conv).n)) ∧ di (state_GroupsTriggerConvertAndCheck_auxEntryEnd_3.descOf (0 : Nat)) 0x9A 1 * 16 ≤ (0 : Int) ∧ (auxPort (⟨0, 0xFFFF00000080, 0, Conv.init, 0⟩ : AuxRun).image < 8 ∧ (state_GroupsTriggerConvertAndCheck_auxEntryEnd_3.spAt (0 : Nat)).sup.tripped = false ∧ tripLive (state_GroupsTriggerConvertAndCheck_auxEntryEnd_3.spAt (0 : Nat)).force.out = true) := by
  decide +kernel

/-- The state of the witness below. -/
def state_GroupsTriggerConvertAndCheck_auxEntryEnd_4 : State :=
  { placed with grp := [(0, { Grp.init with acq := { Acq.init with run := some ⟨0, 0x500000080, 0, Conv.init, 0⟩ } })], twin := { placed.twin with role := .standby } }

theorem witness_GroupsTriggerConvertAndCheck_auxEntryEnd_4 :
    state_GroupsTriggerConvertAndCheck_auxEntryEnd_4.grpRuns (0 : Nat) = true ∧ ((state_GroupsTriggerConvertAndCheck_auxEntryEnd_4.grpAt (0 : Nat)).acq.run = some (⟨0, 0x500000080, 0, Conv.init, 0⟩ : AuxRun) ∧ (state_GroupsTriggerConvertAndCheck_auxEntryEnd_4.grpAt (0 : Nat)).acq.urgRun = none) ∧ ([1000000000000] : List Int).length = 2 ^ auxAvg (⟨0, 0x500000080, 0, Conv.init, 0⟩ : AuxRun).image - (⟨0, 0x500000080, 0, Conv.init, 0⟩ : AuxRun).conv.n ∧ (⟨1, 89479168, false, false, false, some 18446744073709551406⟩ : Conv) = (List.range ([1000000000000] : List Int).length).foldl (fun a i => a.add (state_GroupsTriggerConvertAndCheck_auxEntryEnd_4.convert (0 : Nat) 16 (auxSpan (⟨0, 0x500000080, 0, Conv.init, 0⟩ : AuxRun).image) (codeIn (vFs (auxSpan (⟨0, 0x500000080, 0, Conv.init, 0⟩ : AuxRun).image)) (([1000000000000] : List Int).getD i 0))).1 (state_GroupsTriggerConvertAndCheck_auxEntryEnd_4.convert (0 : Nat) 16 (auxSpan (⟨0, 0x500000080, 0, Conv.init, 0⟩ : AuxRun).image) (codeIn (vFs (auxSpan (⟨0, 0x500000080, 0, Conv.init, 0⟩ : AuxRun).image)) (([1000000000000] : List Int).getD i 0))).2 (state_GroupsTriggerConvertAndCheck_auxEntryEnd_4.senseRail (0 : Nat) (state_GroupsTriggerConvertAndCheck_auxEntryEnd_4.sliceClk (0 : Nat) - 50 * (([1000000000000] : List Int).length - i))) ((state_GroupsTriggerConvertAndCheck_auxEntryEnd_4.grpAt (0 : Nat)).acq.carries 16) (state_GroupsTriggerConvertAndCheck_auxEntryEnd_4.mtBefore (([1000000000000] : List Int).length - i))) (⟨0, 0x500000080, 0, Conv.init, 0⟩ : AuxRun).conv ∧ state_GroupsTriggerConvertAndCheck_auxEntryEnd_4.aside = true := by
  decide +kernel

/-- The state of the witness below. -/
def state_GroupsTriggerConvertAndCheck_auxEntryEnd_5 : State :=
  { placed with grp := [(0, { Grp.init with acq := { Acq.init with auxStart := 3 } })] }

theorem witness_GroupsTriggerConvertAndCheck_auxEntryEnd_5 :
    (state_GroupsTriggerConvertAndCheck_auxEntryEnd_5.grpAt (0 : Nat)).acq.run = none ∨ (state_GroupsTriggerConvertAndCheck_auxEntryEnd_5.grpAt (0 : Nat)).acq.urgRun ≠ none := by
  decide +kernel

/-- The state of the witness below. -/
def state_GroupsTriggerConvertAndCheck_urgentConversionEnd : State :=
  { placed with grp := [(0, { Grp.init with acq := { Acq.init with urgRun := some ⟨2, 0, 3, 1, 5, 0, 9, 0, Conv.init⟩ } })], host := { placed.host with outst := [⟨0, false, 0x0A03, 9, 32, 0, 0, 0, 0, 0⟩] } }

theorem witness_GroupsTriggerConvertAndCheck_urgentConversionEnd :
    state_GroupsTriggerConvertAndCheck_urgentConversionEnd.grpRuns (0 : Nat) = true ∧ (state_GroupsTriggerConvertAndCheck_urgentConversionEnd.grpAt (0 : Nat)).acq.urgRun = some (⟨2, 0, 3, 1, 5, 0, 9, 0, Conv.init⟩ : Urg) ∧ ([-500000000000] : List Int).length = 2 ^ (⟨2, 0, 3, 1, 5, 0, 9, 0, Conv.init⟩ : Urg).avg - (⟨2, 0, 3, 1, 5, 0, 9, 0, Conv.init⟩ : Urg).conv.n ∧ (⟨1, -134217728, false, false, false, some 18446744073709551406⟩ : Conv) = (List.range ([-500000000000] : List Int).length).foldl (fun a i => a.add (state_GroupsTriggerConvertAndCheck_urgentConversionEnd.convert (0 : Nat) 16 (⟨2, 0, 3, 1, 5, 0, 9, 0, Conv.init⟩ : Urg).span (codeIn (vFs (⟨2, 0, 3, 1, 5, 0, 9, 0, Conv.init⟩ : Urg).span) (([-500000000000] : List Int).getD i 0))).1 (state_GroupsTriggerConvertAndCheck_urgentConversionEnd.convert (0 : Nat) 16 (⟨2, 0, 3, 1, 5, 0, 9, 0, Conv.init⟩ : Urg).span (codeIn (vFs (⟨2, 0, 3, 1, 5, 0, 9, 0, Conv.init⟩ : Urg).span) (([-500000000000] : List Int).getD i 0))).2 (state_GroupsTriggerConvertAndCheck_urgentConversionEnd.senseRail (0 : Nat) (state_GroupsTriggerConvertAndCheck_urgentConversionEnd.sliceClk (0 : Nat) - 50 * (([-500000000000] : List Int).length - i))) ((state_GroupsTriggerConvertAndCheck_urgentConversionEnd.grpAt (0 : Nat)).acq.carries 16) (state_GroupsTriggerConvertAndCheck_urgentConversionEnd.mtBefore (([-500000000000] : List Int).length - i))) (⟨2, 0, 3, 1, 5, 0, 9, 0, Conv.init⟩ : Urg).conv ∧ ((⟨2, 0, 3, 1, 5, 0, 9, 0, Conv.init⟩ : Urg).cls = 2 ∧ (⟨1, -134217728, false, false, false, some 18446744073709551406⟩ : Conv).n ≠ 0) ∧ (state_GroupsTriggerConvertAndCheck_urgentConversionEnd.grpAt (0 : Nat)).acq.cap = none ∧ state_GroupsTriggerConvertAndCheck_urgentConversionEnd.host.outst.find? (⟨2, 0, 3, 1, 5, 0, 9, 0, Conv.init⟩ : Urg).owns = some (⟨0, false, 0x0A03, 9, 32, 0, 0, 0, 0, 0⟩ : Outstanding) ∧ (5 : Nat) = (state_GroupsTriggerConvertAndCheck_urgentConversionEnd.serves (⟨2, 0, 3, 1, 5, 0, 9, 0, Conv.init⟩ : Urg).port).getD 0xFFF := by
  decide +kernel

/-- The state of the witness below. -/
def state_GroupsTriggerConvertAndCheck_urgentConversionEnd_2 : State :=
  { placed with grp := [(0, { Grp.init with acq := { Acq.init with urgRun := some ⟨1, 0, 3, 1, 5, 0, 5, 0, Conv.init⟩ } })] }

theorem witness_GroupsTriggerConvertAndCheck_urgentConversionEnd_2 :
    state_GroupsTriggerConvertAndCheck_urgentConversionEnd_2.grpRuns (0 : Nat) = true ∧ (state_GroupsTriggerConvertAndCheck_urgentConversionEnd_2.grpAt (0 : Nat)).acq.urgRun = some (⟨1, 0, 3, 1, 5, 0, 5, 0, Conv.init⟩ : Urg) ∧ ([-500000000000] : List Int).length = 2 ^ (⟨1, 0, 3, 1, 5, 0, 5, 0, Conv.init⟩ : Urg).avg - (⟨1, 0, 3, 1, 5, 0, 5, 0, Conv.init⟩ : Urg).conv.n ∧ (⟨1, -134217728, false, false, false, some 18446744073709551406⟩ : Conv) = (List.range ([-500000000000] : List Int).length).foldl (fun a i => a.add (state_GroupsTriggerConvertAndCheck_urgentConversionEnd_2.convert (0 : Nat) 16 (⟨1, 0, 3, 1, 5, 0, 5, 0, Conv.init⟩ : Urg).span (codeIn (vFs (⟨1, 0, 3, 1, 5, 0, 5, 0, Conv.init⟩ : Urg).span) (([-500000000000] : List Int).getD i 0))).1 (state_GroupsTriggerConvertAndCheck_urgentConversionEnd_2.convert (0 : Nat) 16 (⟨1, 0, 3, 1, 5, 0, 5, 0, Conv.init⟩ : Urg).span (codeIn (vFs (⟨1, 0, 3, 1, 5, 0, 5, 0, Conv.init⟩ : Urg).span) (([-500000000000] : List Int).getD i 0))).2 (state_GroupsTriggerConvertAndCheck_urgentConversionEnd_2.senseRail (0 : Nat) (state_GroupsTriggerConvertAndCheck_urgentConversionEnd_2.sliceClk (0 : Nat) - 50 * (([-500000000000] : List Int).length - i))) ((state_GroupsTriggerConvertAndCheck_urgentConversionEnd_2.grpAt (0 : Nat)).acq.carries 16) (state_GroupsTriggerConvertAndCheck_urgentConversionEnd_2.mtBefore (([-500000000000] : List Int).length - i))) (⟨1, 0, 3, 1, 5, 0, 5, 0, Conv.init⟩ : Urg).conv ∧ ((⟨1, 0, 3, 1, 5, 0, 5, 0, Conv.init⟩ : Urg).cls = 1 ∧ (⟨1, 0, 3, 1, 5, 0, 5, 0, Conv.init⟩ : Urg).owner ≠ 0xFFFF ∧ (⟨1, -134217728, false, false, false, some 18446744073709551406⟩ : Conv).n ≠ 0) ∧ (state_GroupsTriggerConvertAndCheck_urgentConversionEnd_2.rst.dataUp = true ∧ state_GroupsTriggerConvertAndCheck_urgentConversionEnd_2.twin.role ≠ .standby) := by
  decide +kernel

/-- The state of the witness below. -/
def state_GroupsTriggerConvertAndCheck_urgentConversionEnd_3 : State :=
  { placed with grp := [(0, { Grp.init with trips := [{ TripRec.init with seq := 3, auxf := 0 }], acq := { Acq.init with urgRun := some ⟨0, 0, 3, 1, 5, 0, 3, 0, Conv.init⟩ } })] }

theorem witness_GroupsTriggerConvertAndCheck_urgentConversionEnd_3 :
    state_GroupsTriggerConvertAndCheck_urgentConversionEnd_3.grpRuns (0 : Nat) = true ∧ (state_GroupsTriggerConvertAndCheck_urgentConversionEnd_3.grpAt (0 : Nat)).acq.urgRun = some (⟨0, 0, 3, 1, 5, 0, 3, 0, Conv.init⟩ : Urg) ∧ ([-500000000000] : List Int).length = 2 ^ (⟨0, 0, 3, 1, 5, 0, 3, 0, Conv.init⟩ : Urg).avg - (⟨0, 0, 3, 1, 5, 0, 3, 0, Conv.init⟩ : Urg).conv.n ∧ (⟨1, -134217728, false, false, false, some 18446744073709551406⟩ : Conv) = (List.range ([-500000000000] : List Int).length).foldl (fun a i => a.add (state_GroupsTriggerConvertAndCheck_urgentConversionEnd_3.convert (0 : Nat) 16 (⟨0, 0, 3, 1, 5, 0, 3, 0, Conv.init⟩ : Urg).span (codeIn (vFs (⟨0, 0, 3, 1, 5, 0, 3, 0, Conv.init⟩ : Urg).span) (([-500000000000] : List Int).getD i 0))).1 (state_GroupsTriggerConvertAndCheck_urgentConversionEnd_3.convert (0 : Nat) 16 (⟨0, 0, 3, 1, 5, 0, 3, 0, Conv.init⟩ : Urg).span (codeIn (vFs (⟨0, 0, 3, 1, 5, 0, 3, 0, Conv.init⟩ : Urg).span) (([-500000000000] : List Int).getD i 0))).2 (state_GroupsTriggerConvertAndCheck_urgentConversionEnd_3.senseRail (0 : Nat) (state_GroupsTriggerConvertAndCheck_urgentConversionEnd_3.sliceClk (0 : Nat) - 50 * (([-500000000000] : List Int).length - i))) ((state_GroupsTriggerConvertAndCheck_urgentConversionEnd_3.grpAt (0 : Nat)).acq.carries 16) (state_GroupsTriggerConvertAndCheck_urgentConversionEnd_3.mtBefore (([-500000000000] : List Int).length - i))) (⟨0, 0, 3, 1, 5, 0, 3, 0, Conv.init⟩ : Urg).conv ∧ (⟨0, 0, 3, 1, 5, 0, 3, 0, Conv.init⟩ : Urg).cls = 0 := by
  decide +kernel

/-- The state of the witness below. -/
def state_GroupsTriggerConvertAndCheck_urgentConversionEnd_4 : State :=
  { placed with grp := [(0, { Grp.init with acq := { Acq.init with urgRun := some ⟨1, 0, 3, 1, 5, 0, 5, 0, Conv.init⟩, interrupted := some ⟨0, 0x80, 0, Conv.init, 0⟩ } })] }

theorem witness_GroupsTriggerConvertAndCheck_urgentConversionEnd_4 :
    state_GroupsTriggerConvertAndCheck_urgentConversionEnd_4.grpRuns (0 : Nat) = true ∧ (state_GroupsTriggerConvertAndCheck_urgentConversionEnd_4.grpAt (0 : Nat)).acq.urgRun = some (⟨1, 0, 3, 1, 5, 0, 5, 0, Conv.init⟩ : Urg) ∧ ([-500000000000] : List Int).length = 2 ^ (⟨1, 0, 3, 1, 5, 0, 5, 0, Conv.init⟩ : Urg).avg - (⟨1, 0, 3, 1, 5, 0, 5, 0, Conv.init⟩ : Urg).conv.n ∧ (⟨1, -134217728, false, false, false, some 18446744073709551406⟩ : Conv) = (List.range ([-500000000000] : List Int).length).foldl (fun a i => a.add (state_GroupsTriggerConvertAndCheck_urgentConversionEnd_4.convert (0 : Nat) 16 (⟨1, 0, 3, 1, 5, 0, 5, 0, Conv.init⟩ : Urg).span (codeIn (vFs (⟨1, 0, 3, 1, 5, 0, 5, 0, Conv.init⟩ : Urg).span) (([-500000000000] : List Int).getD i 0))).1 (state_GroupsTriggerConvertAndCheck_urgentConversionEnd_4.convert (0 : Nat) 16 (⟨1, 0, 3, 1, 5, 0, 5, 0, Conv.init⟩ : Urg).span (codeIn (vFs (⟨1, 0, 3, 1, 5, 0, 5, 0, Conv.init⟩ : Urg).span) (([-500000000000] : List Int).getD i 0))).2 (state_GroupsTriggerConvertAndCheck_urgentConversionEnd_4.senseRail (0 : Nat) (state_GroupsTriggerConvertAndCheck_urgentConversionEnd_4.sliceClk (0 : Nat) - 50 * (([-500000000000] : List Int).length - i))) ((state_GroupsTriggerConvertAndCheck_urgentConversionEnd_4.grpAt (0 : Nat)).acq.carries 16) (state_GroupsTriggerConvertAndCheck_urgentConversionEnd_4.mtBefore (([-500000000000] : List Int).length - i))) (⟨1, 0, 3, 1, 5, 0, 5, 0, Conv.init⟩ : Urg).conv ∧ (state_GroupsTriggerConvertAndCheck_urgentConversionEnd_4.grpAt (0 : Nat)).acq.urg = [] := by
  decide +kernel

/-- The state of the witness below. -/
def state_GroupsTriggerConvertAndCheck_urgentConversionEnd_5 : State :=
  { placed with grp := [(0, { Grp.init with acq := { Acq.init with urgRun := some ⟨1, 0, 3, 1, 5, 0, 5, 0, Conv.init⟩, urg := [⟨2, 0, 3, 1, 5, 0, 9, 0, Conv.init⟩] } })] }

theorem witness_GroupsTriggerConvertAndCheck_urgentConversionEnd_5 :
    state_GroupsTriggerConvertAndCheck_urgentConversionEnd_5.grpRuns (0 : Nat) = true ∧ (state_GroupsTriggerConvertAndCheck_urgentConversionEnd_5.grpAt (0 : Nat)).acq.urgRun = some (⟨1, 0, 3, 1, 5, 0, 5, 0, Conv.init⟩ : Urg) ∧ ([-500000000000] : List Int).length = 2 ^ (⟨1, 0, 3, 1, 5, 0, 5, 0, Conv.init⟩ : Urg).avg - (⟨1, 0, 3, 1, 5, 0, 5, 0, Conv.init⟩ : Urg).conv.n ∧ (⟨1, -134217728, false, false, false, some 18446744073709551406⟩ : Conv) = (List.range ([-500000000000] : List Int).length).foldl (fun a i => a.add (state_GroupsTriggerConvertAndCheck_urgentConversionEnd_5.convert (0 : Nat) 16 (⟨1, 0, 3, 1, 5, 0, 5, 0, Conv.init⟩ : Urg).span (codeIn (vFs (⟨1, 0, 3, 1, 5, 0, 5, 0, Conv.init⟩ : Urg).span) (([-500000000000] : List Int).getD i 0))).1 (state_GroupsTriggerConvertAndCheck_urgentConversionEnd_5.convert (0 : Nat) 16 (⟨1, 0, 3, 1, 5, 0, 5, 0, Conv.init⟩ : Urg).span (codeIn (vFs (⟨1, 0, 3, 1, 5, 0, 5, 0, Conv.init⟩ : Urg).span) (([-500000000000] : List Int).getD i 0))).2 (state_GroupsTriggerConvertAndCheck_urgentConversionEnd_5.senseRail (0 : Nat) (state_GroupsTriggerConvertAndCheck_urgentConversionEnd_5.sliceClk (0 : Nat) - 50 * (([-500000000000] : List Int).length - i))) ((state_GroupsTriggerConvertAndCheck_urgentConversionEnd_5.grpAt (0 : Nat)).acq.carries 16) (state_GroupsTriggerConvertAndCheck_urgentConversionEnd_5.mtBefore (([-500000000000] : List Int).length - i))) (⟨1, 0, 3, 1, 5, 0, 5, 0, Conv.init⟩ : Urg).conv ∧ (state_GroupsTriggerConvertAndCheck_urgentConversionEnd_5.grpAt (0 : Nat)).acq.urg = (⟨2, 0, 3, 1, 5, 0, 9, 0, Conv.init⟩ : Urg) :: ([] : List Urg) := by
  decide +kernel

/-- The state of the witness below. -/
def state_GroupsTriggerConvertAndCheck_urgentConversionEnd_6 : State :=
  { placed with grp := [(0, { Grp.init with acq := { Acq.init with auxStart := 3 } })] }

theorem witness_GroupsTriggerConvertAndCheck_urgentConversionEnd_6 :
    (state_GroupsTriggerConvertAndCheck_urgentConversionEnd_6.grpAt (0 : Nat)).acq.urgRun = none ∧ (state_GroupsTriggerConvertAndCheck_urgentConversionEnd_6.grpAt (0 : Nat)).acq.urg = [] := by
  decide +kernel

/-- The state of the witness below. -/
def state_GroupsTriggerConvertAndCheck_shareCheckEnd : State :=
  { live with cal := { live.cal with grp := [(0, { readyCal with rotating := true, pass := some ⟨3, 1, 0, []⟩ })] } }

theorem witness_GroupsTriggerConvertAndCheck_shareCheckEnd :
    (state_GroupsTriggerConvertAndCheck_shareCheckEnd.grpRuns (0 : Nat) = true ∧ state_GroupsTriggerConvertAndCheck_shareCheckEnd.rst.mgmtUp = true) ∧ (state_GroupsTriggerConvertAndCheck_shareCheckEnd.grpAt (0 : Nat)).acq.checks.all (fun c => !c.running) = true ∧ ((state_GroupsTriggerConvertAndCheck_shareCheckEnd.calAt (0 : Nat)).pass = some (⟨3, 1, 0, []⟩ : Pass) ∧ (⟨3, 1, 0, []⟩ : Pass).step = 1) ∧ (⟨1, -2048, 4194304⟩ : ShareResult) = state_GroupsTriggerConvertAndCheck_shareCheckEnd.shareResult (0 : Nat) (⟨3, 1, 0, []⟩ : Pass).slice none (sharePairs [5] [6] []) := by
  decide +kernel

/-- The state of the witness below. -/
def state_GroupsTriggerConvertAndCheck_shareCheckEnd_2 : State :=
  { live with cal := { live.cal with grp := [(0, { readyCal with rotating := true, pass := some ⟨3, 6, 0, []⟩ })] } }

theorem witness_GroupsTriggerConvertAndCheck_shareCheckEnd_2 :
    (state_GroupsTriggerConvertAndCheck_shareCheckEnd_2.grpRuns (0 : Nat) = true ∧ state_GroupsTriggerConvertAndCheck_shareCheckEnd_2.rst.mgmtUp = true) ∧ (state_GroupsTriggerConvertAndCheck_shareCheckEnd_2.grpAt (0 : Nat)).acq.checks.all (fun c => !c.running) = true ∧ ((state_GroupsTriggerConvertAndCheck_shareCheckEnd_2.calAt (0 : Nat)).pass = some (⟨3, 6, 0, []⟩ : Pass) ∧ (⟨3, 6, 0, []⟩ : Pass).step = 6) ∧ (⟨1, -2048, 4194304⟩ : ShareResult) = state_GroupsTriggerConvertAndCheck_shareCheckEnd_2.shareResult (0 : Nat) (⟨3, 6, 0, []⟩ : Pass).slice (((⟨3, 6, 0, []⟩ : Pass).sets.find? (fun e => e.1 == state_GroupsTriggerConvertAndCheck_shareCheckEnd_2.checkSpan (0 : Nat) (⟨3, 6, 0, []⟩ : Pass).slice)).map (fun e => e.2)) (sharePairs [5] [6] []) ∧ calOvr = (if (⟨1, -2048, 4194304⟩ : ShareResult).pairs < 64 then calOvr else if (⟨1, -2048, 4194304⟩ : ShareResult).passes (state_GroupsTriggerConvertAndCheck_shareCheckEnd_2.calAt (0 : Nat)).limits.closeTol (noiseOf (⟨3, 6, 0, []⟩ : Pass).slice (state_GroupsTriggerConvertAndCheck_shareCheckEnd_2.checkSpan (0 : Nat) (⟨3, 6, 0, []⟩ : Pass).slice)) = true then 0 else calCheck) := by
  decide +kernel

/-- The state of the witness below. -/
def state_GroupsTriggerConvertAndCheck_shareCheckEnd_3 : State :=
  { placed with grp := [(0, { Grp.init with acq := { Acq.init with spareRole := .share, spareTgt := 3, checks := [⟨false, 3, 0, 9, true⟩] } })], host := { placed.host with outst := [⟨0, false, 0x0A04, 9, 32, 0, 0, 0, 3, 0⟩] } }

theorem witness_GroupsTriggerConvertAndCheck_shareCheckEnd_3 :
    (state_GroupsTriggerConvertAndCheck_shareCheckEnd_3.grpRuns (0 : Nat) = true ∧ state_GroupsTriggerConvertAndCheck_shareCheckEnd_3.rst.mgmtUp = true) ∧ ((state_GroupsTriggerConvertAndCheck_shareCheckEnd_3.grpAt (0 : Nat)).acq.checks = (⟨false, 3, 0, 9, true⟩ : CheckReq) :: ([] : List CheckReq) ∧ (⟨false, 3, 0, 9, true⟩ : CheckReq).running = true ∧ (⟨false, 3, 0, 9, true⟩ : CheckReq).path = false) ∧ state_GroupsTriggerConvertAndCheck_shareCheckEnd_3.host.outst.find? (⟨false, 3, 0, 9, true⟩ : CheckReq).owns = some (⟨0, false, 0x0A04, 9, 32, 0, 0, 0, 3, 0⟩ : Outstanding) ∧ (⟨1, -2048, 4194304⟩ : ShareResult) = state_GroupsTriggerConvertAndCheck_shareCheckEnd_3.shareResult (0 : Nat) (⟨false, 3, 0, 9, true⟩ : CheckReq).slice none (sharePairs [5] [6] []) := by
  decide +kernel

/-- The state of the witness below. -/
def state_GroupsTriggerConvertAndCheck_pathTestEnd : State :=
  { placed with grp := [(0, { Grp.init with acq := { Acq.init with spareRole := .carry, spareTgt := 3, checks := [⟨true, 3, 0, 9, true⟩] } })], host := { placed.host with outst := [⟨0, false, 0x0A05, 9, 32, 0, 0, 0, 3, 0⟩] } }

theorem witness_GroupsTriggerConvertAndCheck_pathTestEnd :
    (state_GroupsTriggerConvertAndCheck_pathTestEnd.grpRuns (0 : Nat) = true ∧ state_GroupsTriggerConvertAndCheck_pathTestEnd.rst.mgmtUp = true) ∧ ((state_GroupsTriggerConvertAndCheck_pathTestEnd.grpAt (0 : Nat)).acq.checks = (⟨true, 3, 0, 9, true⟩ : CheckReq) :: ([] : List CheckReq) ∧ (⟨true, 3, 0, 9, true⟩ : CheckReq).running = true ∧ (⟨true, 3, 0, 9, true⟩ : CheckReq).path = true) ∧ (state_GroupsTriggerConvertAndCheck_pathTestEnd.grpAt (0 : Nat)).acq.spareRole = .carry ∧ state_GroupsTriggerConvertAndCheck_pathTestEnd.host.outst.find? (⟨true, 3, 0, 9, true⟩ : CheckReq).owns = some (⟨0, false, 0x0A05, 9, 32, 0, 0, 0, 3, 0⟩ : Outstanding) ∧ (([0x200, 0x201, 0x202, 0x203] : List Word) = (List.range (if 8 ≤ (⟨true, 3, 0, 9, true⟩ : CheckReq).slice ∧ (⟨true, 3, 0, 9, true⟩ : CheckReq).slice < 16 then 3 else 4)).map (fun k => pathEntry (state_GroupsTriggerConvertAndCheck_pathTestEnd.castN 0x506 (0 : Nat)) (⟨true, 3, 0, 9, true⟩ : CheckReq).slice k ((([] : List (List (List Int))).getD k []).map (fun x => x.map (fun code => (correct ((state_GroupsTriggerConvertAndCheck_pathTestEnd.calAt (0 : Nat)).factors (⟨true, 3, 0, 9, true⟩ : CheckReq).slice k) (state_GroupsTriggerConvertAndCheck_pathTestEnd.grpAt (0 : Nat)).tDie code).1))))) := by
  decide +kernel

/-- The state of the witness below. -/
def state_GroupsTriggerConvertAndCheck_pathTestEnd_2 : State :=
  { placed with grp := [(0, { Grp.init with acq := { Acq.init with auxStart := 3 } })] }

theorem witness_GroupsTriggerConvertAndCheck_pathTestEnd_2 :
    (state_GroupsTriggerConvertAndCheck_pathTestEnd_2.grpAt (0 : Nat)).acq.checks.all (fun c => !c.running || !c.path) = true ∨ (state_GroupsTriggerConvertAndCheck_pathTestEnd_2.grpAt (0 : Nat)).acq.spareRole ≠ .carry := by
  decide +kernel

/-- The state of the witness below. -/
def state_GroupBoundaries_mainsCycleBoundary : State :=
  { live with cal := { live.cal with grp := [(1, { CalGrp.init with waiting := [(24, ⟨1, 2 ^ 30, [], 0, 0, 400⟩)] })] } }

theorem witness_GroupBoundaries_mainsCycleBoundary :
    state_GroupBoundaries_mainsCycleBoundary.grpRuns (1 : Nat) = true ∧ (state_GroupBoundaries_mainsCycleBoundary.grpAt (1 : Nat)).cycle ≠ some (state_GroupBoundaries_mainsCycleBoundary.mt.mt.toNat / 2 ^ 24) ∧ (state_GroupBoundaries_mainsCycleBoundary.aside = true ∨ state_GroupBoundaries_mainsCycleBoundary.leadsGroups (1 : Nat) = false) := by
  decide +kernel

/-- The state of the witness below. -/
def state_GroupBoundaries_mainsCycleBoundary_2 : State :=
  { live with cal := { live.cal with grp := [(1, { CalGrp.init with waiting := [(24, ⟨1, 2 ^ 30, [], 0, 0, 400⟩)] })] } }

theorem witness_GroupBoundaries_mainsCycleBoundary_2 :
    state_GroupBoundaries_mainsCycleBoundary_2.grpRuns (1 : Nat) = true ∧ (state_GroupBoundaries_mainsCycleBoundary_2.grpAt (1 : Nat)).cycle ≠ some (state_GroupBoundaries_mainsCycleBoundary_2.mt.mt.toNat / 2 ^ 24) ∧ (state_GroupBoundaries_mainsCycleBoundary_2.calAt (1 : Nat)).pass.all (fun p => p.cause != calInterrupted) = true ∧ ((state_GroupBoundaries_mainsCycleBoundary_2.calAt (1 : Nat)).waiting.map (fun e => e.1)).Nodup := by
  decide +kernel

/-- The state of the witness below. -/
def state_GroupBoundaries_mainsCycleBoundary_3 : State :=
  { placed with sp := [(0, { Sp.init with force := { Force.init with out := .regulating, en := true, driven := true }, meas := { Meas.init with cycSum := 10 ^ 15, cycN := 1 } })], sets := { placed.sets with cast := { placed.sets.cast with params := [(pkey 0x120 0, 1), (pkey 0x133 0, 1)] } } }

theorem witness_GroupBoundaries_mainsCycleBoundary_3 :
    state_GroupBoundaries_mainsCycleBoundary_3.grpRuns (0 : Nat) = true ∧ (state_GroupBoundaries_mainsCycleBoundary_3.grpAt (0 : Nat)).cycle ≠ some (state_GroupBoundaries_mainsCycleBoundary_3.mt.mt.toNat / 2 ^ 24) ∧ (state_GroupBoundaries_mainsCycleBoundary_3.aside = false ∧ state_GroupBoundaries_mainsCycleBoundary_3.leadsGroups (0 : Nat) = true) ∧ state_GroupBoundaries_mainsCycleBoundary_3.available state_GroupBoundaries_mainsCycleBoundary_3.sets.cast = some (1000 : Nat) ∧ ((1 : Nat) = (if state_GroupBoundaries_mainsCycleBoundary_3.pfe.hu = .normal ∧ 1000 * (1000 : Nat) < state_GroupBoundaries_mainsCycleBoundary_3.cyclePower then state_GroupBoundaries_mainsCycleBoundary_3.misc.overCycles + 1 else 0)) := by
  decide +kernel

/-- The state of the witness below. -/
def state_GroupBoundaries_mainsCycleBoundary_4 : State :=
  { live with grp := [(1, { Grp.init with cycle := some 0 })] }

theorem witness_GroupBoundaries_mainsCycleBoundary_4 :
    (state_GroupBoundaries_mainsCycleBoundary_4.grpAt (1 : Nat)).cycle = some (state_GroupBoundaries_mainsCycleBoundary_4.mt.mt.toNat / 2 ^ 24) := by
  decide +kernel

/-- The state of the witness below. -/
def state_GroupBoundaries_loopPeriodBoundary : State :=
  { live with grp := [(0, { Grp.init with ctxReset := true })] }

theorem witness_GroupBoundaries_loopPeriodBoundary :
    (state_GroupBoundaries_loopPeriodBoundary.hasGrp (0 : Nat) = true ∧ state_GroupBoundaries_loopPeriodBoundary.rst.ctrlUp = true) ∧ (state_GroupBoundaries_loopPeriodBoundary.grpAt (0 : Nat)).ctxReset = true ∧ (state_GroupBoundaries_loopPeriodBoundary.grpAt (0 : Nat)).w1c = [] := by
  decide +kernel

/-- The state of the witness below. -/
def state_GroupBoundaries_loopPeriodBoundary_2 : State :=
  { placed with grp := [(0, { Grp.init with w1c := [⟨0x400, 0, 3⟩] })] }

theorem witness_GroupBoundaries_loopPeriodBoundary_2 :
    (state_GroupBoundaries_loopPeriodBoundary_2.hasGrp (0 : Nat) = true ∧ state_GroupBoundaries_loopPeriodBoundary_2.rst.ctrlUp = true) ∧ (state_GroupBoundaries_loopPeriodBoundary_2.grpAt (0 : Nat)).ctxReset = false := by
  decide +kernel

/-- The state of the witness below. -/
def state_GroupBoundaries_loopPeriodBoundary_3 : State :=
  { live with sp := [(1, { Sp.init with force := { Force.init with driven := true, inCode := 77 }, sup := { Sup.init with mon := [{ Mon.init with latch := true }], monDue := 1 } })], cal := { live.cal with grp := [(0, readyCal)] } }

theorem witness_GroupBoundaries_loopPeriodBoundary_3 :
    (state_GroupBoundaries_loopPeriodBoundary_3.hasGrp (0 : Nat) = true ∧ state_GroupBoundaries_loopPeriodBoundary_3.rst.ctrlUp = true) ∧ (state_GroupBoundaries_loopPeriodBoundary_3.grpAt (0 : Nat)).ctxReset = false ∧ ((1 : Nat) < 8 ∧ (state_GroupBoundaries_loopPeriodBoundary_3.spAt (8 * (0 : Nat) + (1 : Nat))).force.enableDue = none) := by
  decide +kernel

/-- The state of the witness below. -/
def state_GroupBoundaries_loopPeriodBoundary_4 : State :=
  { live with sp := [(1, { Sp.init with force := { Force.init with out := .tripped, driven := true, inCode := 77 }, sup := { Sup.init with tripped := true, clearDue := true } })], cal := { live.cal with grp := [(0, readyCal)] } }

theorem witness_GroupBoundaries_loopPeriodBoundary_4 :
    (state_GroupBoundaries_loopPeriodBoundary_4.hasGrp (0 : Nat) = true ∧ state_GroupBoundaries_loopPeriodBoundary_4.rst.ctrlUp = true) ∧ (state_GroupBoundaries_loopPeriodBoundary_4.grpAt (0 : Nat)).ctxReset = false ∧ ((1 : Nat) < 8 ∧ (state_GroupBoundaries_loopPeriodBoundary_4.spAt (8 * (0 : Nat) + (1 : Nat))).sup.clearDue = true ∧ (state_GroupBoundaries_loopPeriodBoundary_4.spAt (8 * (0 : Nat) + (1 : Nat))).sup.tripped = true) ∧ ((state_GroupBoundaries_loopPeriodBoundary_4.spAt (8 * (0 : Nat) + (1 : Nat))).force.out = .tripped ∧ (state_GroupBoundaries_loopPeriodBoundary_4.spAt (8 * (0 : Nat) + (1 : Nat))).force.enableDue = none) := by
  decide +kernel

/-- The state of the witness below. -/
def state_GroupBoundaries_loopPeriodBoundary_5 : State :=
  { live with sp := [(1, { Sp.init with force := { Force.init with out := .regulating, en := true, driven := true, inCode := 77 }, sup := { Sup.init with force := true } })], cal := { live.cal with grp := [(0, readyCal)] } }

theorem witness_GroupBoundaries_loopPeriodBoundary_5 :
    (state_GroupBoundaries_loopPeriodBoundary_5.hasGrp (0 : Nat) = true ∧ state_GroupBoundaries_loopPeriodBoundary_5.rst.ctrlUp = true) ∧ (state_GroupBoundaries_loopPeriodBoundary_5.grpAt (0 : Nat)).ctxReset = false ∧ ((1 : Nat) < 8 ∧ (state_GroupBoundaries_loopPeriodBoundary_5.spAt (8 * (0 : Nat) + (1 : Nat))).sup.force = true ∧ (state_GroupBoundaries_loopPeriodBoundary_5.spAt (8 * (0 : Nat) + (1 : Nat))).sup.tripped = false) ∧ (state_GroupBoundaries_loopPeriodBoundary_5.aside = false ∧ tripLive (state_GroupBoundaries_loopPeriodBoundary_5.spAt (8 * (0 : Nat) + (1 : Nat))).force.out = true) := by
  decide +kernel

/-- The state of the witness below. -/
def state_GroupBoundaries_loopPeriodBoundary_6 : State :=
  { live with host := { live.host with outst := [⟨0, false, 0x0A03, 9, 32, 0, 0, 1, 0, 0⟩] } }

theorem witness_GroupBoundaries_loopPeriodBoundary_6 :
    (state_GroupBoundaries_loopPeriodBoundary_6.hasGrp (0 : Nat) = true ∧ state_GroupBoundaries_loopPeriodBoundary_6.rst.ctrlUp = true) ∧ (state_GroupBoundaries_loopPeriodBoundary_6.grpAt (0 : Nat)).ctxReset = false ∧ (state_GroupBoundaries_loopPeriodBoundary_6.host.outst = [(⟨0, false, 0x0A03, 9, 32, 0, 0, 1, 0, 0⟩ : Outstanding)] ∧ state_GroupBoundaries_loopPeriodBoundary_6.misc.snaps = []) ∧ ((⟨0, false, 0x0A03, 9, 32, 0, 0, 1, 0, 0⟩ : Outstanding).opcode = 0x0A03 ∧ (⟨0, false, 0x0A03, 9, 32, 0, 0, 1, 0, 0⟩ : Outstanding).aux = 0 ∧ (⟨0, false, 0x0A03, 9, 32, 0, 0, 1, 0, 0⟩ : Outstanding).obj / 8 = (0 : Nat)) := by
  decide +kernel

/-- The state of the witness below. -/
def state_GroupBoundaries_loopPeriodBoundary_7 : State :=
  { placed with grp := [(0, { Grp.init with tune := some ⟨5, 0, false, 1, 0, 1, 0, 0, 8, 0, 0, false, 0, 0, [], 0, 0, 0, 0, 0, 9, false, false, false⟩ })] }

theorem witness_GroupBoundaries_loopPeriodBoundary_7 :
    (state_GroupBoundaries_loopPeriodBoundary_7.hasGrp (0 : Nat) = true ∧ state_GroupBoundaries_loopPeriodBoundary_7.rst.ctrlUp = true) ∧ (state_GroupBoundaries_loopPeriodBoundary_7.grpAt (0 : Nat)).ctxReset = false ∧ ((state_GroupBoundaries_loopPeriodBoundary_7.grpAt (0 : Nat)).tune = some (⟨5, 0, false, 1, 0, 1, 0, 0, 8, 0, 0, false, 0, 0, [], 0, 0, 0, 0, 0, 9, false, false, false⟩ : Tune) ∧ (⟨5, 0, false, 1, 0, 1, 0, 0, 8, 0, 0, false, 0, 0, [], 0, 0, 0, 0, 0, 9, false, false, false⟩ : Tune).cut = false ∧ (⟨5, 0, false, 1, 0, 1, 0, 0, 8, 0, 0, false, 0, 0, [], 0, 0, 0, 0, 0, 9, false, false, false⟩ : Tune).stop = false ∧ (⟨5, 0, false, 1, 0, 1, 0, 0, 8, 0, 0, false, 0, 0, [], 0, 0, 0, 0, 0, 9, false, false, false⟩ : Tune).started = false) ∧ ((⟨5, 0, false, 1, 0, 1, 0, 0, 8, 0, 0, false, 0, 0, [], 0, 0, 0, 0, 0, 9, false, false, false⟩ : Tune).start = 0#64 ∨ mtLe (⟨5, 0, false, 1, 0, 1, 0, 0, 8, 0, 0, false, 0, 0, [], 0, 0, 0, 0, 0, 9, false, false, false⟩ : Tune).start state_GroupBoundaries_loopPeriodBoundary_7.mt.mt = true) ∧ (state_GroupBoundaries_loopPeriodBoundary_7.defined (⟨5, 0, false, 1, 0, 1, 0, 0, 8, 0, 0, false, 0, 0, [], 0, 0, 0, 0, 0, 9, false, false, false⟩ : Tune).fig = true ∨ (⟨5, 0, false, 1, 0, 1, 0, 0, 8, 0, 0, false, 0, 0, [], 0, 0, 0, 0, 0, 9, false, false, false⟩ : Tune).fig = (⟨5, 0, false, 1, 0, 1, 0, 0, 8, 0, 0, false, 0, 0, [], 0, 0, 0, 0, 0, 9, false, false, false⟩ : Tune).fig) := by
  decide +kernel

/-- The state of the witness below. -/
def state_CalibrationRunsEnd_arbiterSelfCalDue : State :=
  { live with cal := { live.cal with startStep := 4, slotRun := 2 }, iso := { live.iso with rxValid := true, txValid := true } }

theorem witness_CalibrationRunsEnd_arbiterSelfCalDue :
    (state_CalibrationRunsEnd_arbiterSelfCalDue.rst.mgmtUp = true ∧ 2 ≤ state_CalibrationRunsEnd_arbiterSelfCalDue.cal.startStep ∧ state_CalibrationRunsEnd_arbiterSelfCalDue.castN 0x172 0 ≠ 0) ∧ (2 : BitVec 4) = ~~~state_CalibrationRunsEnd_arbiterSelfCalDue.cal.arbRun &&& (if state_CalibrationRunsEnd_arbiterSelfCalDue.cal.ext.isSome = true then 15#4 else state_CalibrationRunsEnd_arbiterSelfCalDue.cal.slotRun) ∧ true = (state_CalibrationRunsEnd_arbiterSelfCalDue.priSeen && state_CalibrationRunsEnd_arbiterSelfCalDue.cal.mainsRun.isNone) := by
  decide +kernel

theorem witness_CalibrationRunsEnd_arbiterSelfCalDue_2 :
    live.rst.mgmtUp = false ∨ live.cal.startStep < 2 ∨ live.castN 0x172 0 = 0 := by
  decide +kernel

/-- The state of the witness below. -/
def state_CalibrationRunsEnd_arbiterSelfCalEnd : State :=
  { live with cal := { live.cal with startStep := 4, arbRun := 10 } }

theorem witness_CalibrationRunsEnd_arbiterSelfCalEnd :
    (state_CalibrationRunsEnd_arbiterSelfCalEnd.rst.mgmtUp = true ∧ (3 : Nat) < 4 ∧ state_CalibrationRunsEnd_arbiterSelfCalEnd.cal.arbRun.getLsbD (3 : Nat) = true) ∧ (⟨10, 0⟩ : ArbFactors) = ⟨rdiv (⟨210, 7000000000, -7000000000, [500, 3], 8⟩ : SelfCal).zero 21, rdiv (((⟨210, 7000000000, -7000000000, [500, 3], 8⟩ : SelfCal).plus - (⟨210, 7000000000, -7000000000, [500, 3], 8⟩ : SelfCal).minus) * 1000000000) (2 * state_CalibrationRunsEnd_arbiterSelfCalEnd.cal.vRef.toNat) - 1000000000⟩ ∧ ((0 : Nat) = (if (⟨210, 7000000000, -7000000000, [500, 3], 8⟩ : SelfCal).rms.any (fun x => 500 < x) = true then 1 else if 8 < (⟨210, 7000000000, -7000000000, [500, 3], 8⟩ : SelfCal).drift then 5 else if 10000 < (⟨10, 0⟩ : ArbFactors).ofs.natAbs ∨ 300000 < (⟨10, 0⟩ : ArbFactors).gain.natAbs then 6 else if state_CalibrationRunsEnd_arbiterSelfCalEnd.cal.arbAccepted.getLsbD (3 : Nat) = true ∧ (2000 < ((⟨10, 0⟩ : ArbFactors).ofs - (tget arbZero state_CalibrationRunsEnd_arbiterSelfCalEnd.cal.arb (3 : Nat)).ofs).natAbs ∨ 5000 < ((⟨10, 0⟩ : ArbFactors).gain - (tget arbZero state_CalibrationRunsEnd_arbiterSelfCalEnd.cal.arb (3 : Nat)).gain).natAbs) then 7 else 0)) ∧ ((state_CalibrationRunsEnd_arbiterSelfCalEnd.cal.startStep ≠ 2 ∨ state_CalibrationRunsEnd_arbiterSelfCalEnd.cal.arbRun &&& ~~~(BitVec.twoPow 4 (3 : Nat)) ≠ 0#4 ∨ state_CalibrationRunsEnd_arbiterSelfCalEnd.cal.arbWait ≠ 0#4) ∧ (state_CalibrationRunsEnd_arbiterSelfCalEnd.cal.startStep ≠ 3 ∨ state_CalibrationRunsEnd_arbiterSelfCalEnd.cal.slotDue ≠ 0#4 ∨ state_CalibrationRunsEnd_arbiterSelfCalEnd.cal.slotRun ≠ 0#4)) ∧ state_CalibrationRunsEnd_arbiterSelfCalEnd.host.outst.any (fun o => o.opcode == 0x0E02 && (o.obj == 0 || o.obj.testBit (3 : Nat))) = false := by
  decide +kernel

/-- The state of the witness below. -/
def state_CalibrationRunsEnd_arbiterSelfCalEnd_2 : State :=
  { live with cal := { live.cal with startStep := 2, arbRun := 1 } }

theorem witness_CalibrationRunsEnd_arbiterSelfCalEnd_2 :
    (state_CalibrationRunsEnd_arbiterSelfCalEnd_2.rst.mgmtUp = true ∧ (0 : Nat) < 4 ∧ state_CalibrationRunsEnd_arbiterSelfCalEnd_2.cal.arbRun.getLsbD (0 : Nat) = true) ∧ (⟨0, 0⟩ : ArbFactors) = ⟨rdiv (⟨0, 7000000000, -7000000000, [1, 501], 0⟩ : SelfCal).zero 21, rdiv (((⟨0, 7000000000, -7000000000, [1, 501], 0⟩ : SelfCal).plus - (⟨0, 7000000000, -7000000000, [1, 501], 0⟩ : SelfCal).minus) * 1000000000) (2 * state_CalibrationRunsEnd_arbiterSelfCalEnd_2.cal.vRef.toNat) - 1000000000⟩ ∧ ((1 : Nat) = (if (⟨0, 7000000000, -7000000000, [1, 501], 0⟩ : SelfCal).rms.any (fun x => 500 < x) = true then 1 else if 8 < (⟨0, 7000000000, -7000000000, [1, 501], 0⟩ : SelfCal).drift then 5 else if 10000 < (⟨0, 0⟩ : ArbFactors).ofs.natAbs ∨ 300000 < (⟨0, 0⟩ : ArbFactors).gain.natAbs then 6 else if state_CalibrationRunsEnd_arbiterSelfCalEnd_2.cal.arbAccepted.getLsbD (0 : Nat) = true ∧ (2000 < ((⟨0, 0⟩ : ArbFactors).ofs - (tget arbZero state_CalibrationRunsEnd_arbiterSelfCalEnd_2.cal.arb (0 : Nat)).ofs).natAbs ∨ 5000 < ((⟨0, 0⟩ : ArbFactors).gain - (tget arbZero state_CalibrationRunsEnd_arbiterSelfCalEnd_2.cal.arb (0 : Nat)).gain).natAbs) then 7 else 0)) ∧ (state_CalibrationRunsEnd_arbiterSelfCalEnd_2.cal.startStep = 2 ∧ state_CalibrationRunsEnd_arbiterSelfCalEnd_2.cal.arbRun &&& ~~~(BitVec.twoPow 4 (0 : Nat)) = 0#4 ∧ state_CalibrationRunsEnd_arbiterSelfCalEnd_2.cal.arbWait = 0#4) ∧ state_CalibrationRunsEnd_arbiterSelfCalEnd_2.host.outst.any (fun o => o.opcode == 0x0E02 && (o.obj == 0 || o.obj.testBit (0 : Nat))) = false := by
  decide +kernel

/-- The state of the witness below. -/
def state_CalibrationRunsEnd_arbiterSelfCalEnd_3 : State :=
  { live with cal := { live.cal with startStep := 3, arbRun := 1 } }

theorem witness_CalibrationRunsEnd_arbiterSelfCalEnd_3 :
    (state_CalibrationRunsEnd_arbiterSelfCalEnd_3.rst.mgmtUp = true ∧ (0 : Nat) < 4 ∧ state_CalibrationRunsEnd_arbiterSelfCalEnd_3.cal.arbRun.getLsbD (0 : Nat) = true) ∧ (⟨10, 0⟩ : ArbFactors) = ⟨rdiv (⟨210, 7000000000, -7000000000, [500, 3], 8⟩ : SelfCal).zero 21, rdiv (((⟨210, 7000000000, -7000000000, [500, 3], 8⟩ : SelfCal).plus - (⟨210, 7000000000, -7000000000, [500, 3], 8⟩ : SelfCal).minus) * 1000000000) (2 * state_CalibrationRunsEnd_arbiterSelfCalEnd_3.cal.vRef.toNat) - 1000000000⟩ ∧ ((0 : Nat) = (if (⟨210, 7000000000, -7000000000, [500, 3], 8⟩ : SelfCal).rms.any (fun x => 500 < x) = true then 1 else if 8 < (⟨210, 7000000000, -7000000000, [500, 3], 8⟩ : SelfCal).drift then 5 else if 10000 < (⟨10, 0⟩ : ArbFactors).ofs.natAbs ∨ 300000 < (⟨10, 0⟩ : ArbFactors).gain.natAbs then 6 else if state_CalibrationRunsEnd_arbiterSelfCalEnd_3.cal.arbAccepted.getLsbD (0 : Nat) = true ∧ (2000 < ((⟨10, 0⟩ : ArbFactors).ofs - (tget arbZero state_CalibrationRunsEnd_arbiterSelfCalEnd_3.cal.arb (0 : Nat)).ofs).natAbs ∨ 5000 < ((⟨10, 0⟩ : ArbFactors).gain - (tget arbZero state_CalibrationRunsEnd_arbiterSelfCalEnd_3.cal.arb (0 : Nat)).gain).natAbs) then 7 else 0)) ∧ (state_CalibrationRunsEnd_arbiterSelfCalEnd_3.cal.startStep = 3 ∧ state_CalibrationRunsEnd_arbiterSelfCalEnd_3.cal.slotDue = 0#4 ∧ state_CalibrationRunsEnd_arbiterSelfCalEnd_3.cal.slotRun = 0#4) ∧ state_CalibrationRunsEnd_arbiterSelfCalEnd_3.host.outst.any (fun o => o.opcode == 0x0E02 && (o.obj == 0 || o.obj.testBit (0 : Nat))) = false := by
  decide +kernel

/-- The state of the witness below. -/
def state_CalibrationRunsEnd_arbiterSelfCalEnd_4 : State :=
  { live with cal := { live.cal with startStep := 4, arbRun := 10 }, host := { live.host with outst := [⟨0, false, 0x0E02, 9, 0, 0, 0, 8, 3, 0⟩] } }

theorem witness_CalibrationRunsEnd_arbiterSelfCalEnd_4 :
    (state_CalibrationRunsEnd_arbiterSelfCalEnd_4.rst.mgmtUp = true ∧ (3 : Nat) < 4 ∧ state_CalibrationRunsEnd_arbiterSelfCalEnd_4.cal.arbRun.getLsbD (3 : Nat) = true) ∧ (⟨10, 0⟩ : ArbFactors) = ⟨rdiv (⟨210, 7000000000, -7000000000, [500, 3], 8⟩ : SelfCal).zero 21, rdiv (((⟨210, 7000000000, -7000000000, [500, 3], 8⟩ : SelfCal).plus - (⟨210, 7000000000, -7000000000, [500, 3], 8⟩ : SelfCal).minus) * 1000000000) (2 * state_CalibrationRunsEnd_arbiterSelfCalEnd_4.cal.vRef.toNat) - 1000000000⟩ ∧ ((0 : Nat) = (if (⟨210, 7000000000, -7000000000, [500, 3], 8⟩ : SelfCal).rms.any (fun x => 500 < x) = true then 1 else if 8 < (⟨210, 7000000000, -7000000000, [500, 3], 8⟩ : SelfCal).drift then 5 else if 10000 < (⟨10, 0⟩ : ArbFactors).ofs.natAbs ∨ 300000 < (⟨10, 0⟩ : ArbFactors).gain.natAbs then 6 else if state_CalibrationRunsEnd_arbiterSelfCalEnd_4.cal.arbAccepted.getLsbD (3 : Nat) = true ∧ (2000 < ((⟨10, 0⟩ : ArbFactors).ofs - (tget arbZero state_CalibrationRunsEnd_arbiterSelfCalEnd_4.cal.arb (3 : Nat)).ofs).natAbs ∨ 5000 < ((⟨10, 0⟩ : ArbFactors).gain - (tget arbZero state_CalibrationRunsEnd_arbiterSelfCalEnd_4.cal.arb (3 : Nat)).gain).natAbs) then 7 else 0)) ∧ ((state_CalibrationRunsEnd_arbiterSelfCalEnd_4.cal.startStep ≠ 2 ∨ state_CalibrationRunsEnd_arbiterSelfCalEnd_4.cal.arbRun &&& ~~~(BitVec.twoPow 4 (3 : Nat)) ≠ 0#4 ∨ state_CalibrationRunsEnd_arbiterSelfCalEnd_4.cal.arbWait ≠ 0#4) ∧ (state_CalibrationRunsEnd_arbiterSelfCalEnd_4.cal.startStep ≠ 3 ∨ state_CalibrationRunsEnd_arbiterSelfCalEnd_4.cal.slotDue ≠ 0#4 ∨ state_CalibrationRunsEnd_arbiterSelfCalEnd_4.cal.slotRun ≠ 0#4)) ∧ state_CalibrationRunsEnd_arbiterSelfCalEnd_4.host.outst.filter (fun y => y.opcode == 0x0E02 && (y.obj == 0 || y.obj.testBit (3 : Nat))) = [(⟨0, false, 0x0E02, 9, 0, 0, 0, 8, 3, 0⟩ : Outstanding)] ∧ ((⟨0, false, 0x0E02, 9, 0, 0, 0, 8, 3, 0⟩ : Outstanding).obj.testBit (3 : Nat) = true ∧ (11 : Nat) = (if (0 : Nat) = 0 then (⟨0, false, 0x0E02, 9, 0, 0, 0, 8, 3, 0⟩ : Outstanding).aux + 2 ^ (3 : Nat) else if (⟨0, false, 0x0E02, 9, 0, 0, 0, 8, 3, 0⟩ : Outstanding).aux < 16 then (⟨0, false, 0x0E02, 9, 0, 0, 0, 8, 3, 0⟩ : Outstanding).aux + 16 * (0 : Nat) else (⟨0, false, 0x0E02, 9, 0, 0, 0, 8, 3, 0⟩ : Outstanding).aux)) := by
  decide +kernel

theorem witness_CalibrationRunsEnd_arbiterSelfCalEnd_5 :
    live.rst.mgmtUp = false ∨ 4 ≤ (4 : Nat) ∨ live.cal.arbRun.getLsbD (4 : Nat) = false := by
  decide +kernel

/-- The state of the witness below. -/
def state_CalibrationRunsEnd_mainsConverterExchange : State :=
  { live with cal := { live.cal with mainsRun := some 0 } }

theorem witness_CalibrationRunsEnd_mainsConverterExchange :
    (state_CalibrationRunsEnd_mainsConverterExchange.rst.mgmtUp = true ∧ state_CalibrationRunsEnd_mainsConverterExchange.cal.mainsRun = some 0) ∧ (⟨10, 0⟩ : ArbFactors) = ⟨rdiv (⟨210, 7000000000, -7000000000, [500, 3], 8⟩ : SelfCal).zero 21, rdiv (((⟨210, 7000000000, -7000000000, [500, 3], 8⟩ : SelfCal).plus - (⟨210, 7000000000, -7000000000, [500, 3], 8⟩ : SelfCal).minus) * 1000000000) (2 * state_CalibrationRunsEnd_mainsConverterExchange.cal.vRef.toNat) - 1000000000⟩ ∧ ((0 : Nat) = (if (⟨210, 7000000000, -7000000000, [500, 3], 8⟩ : SelfCal).rms.any (fun x => 500 < x) = true then 1 else if 8 < (⟨210, 7000000000, -7000000000, [500, 3], 8⟩ : SelfCal).drift then 5 else if 50000 < (⟨10, 0⟩ : ArbFactors).ofs.natAbs ∨ 500000 < (⟨10, 0⟩ : ArbFactors).gain.natAbs then 6 else if state_CalibrationRunsEnd_mainsConverterExchange.cal.mainsAccepted.getLsbD 0 = true ∧ (20000 < ((⟨10, 0⟩ : ArbFactors).gain - (tget arbZero state_CalibrationRunsEnd_mainsConverterExchange.cal.mains 0).gain).natAbs) then 7 else 0)) := by
  decide +kernel

theorem witness_CalibrationRunsEnd_mainsConverterExchange_2 :
    live.rst.mgmtUp = false ∨ live.cal.mainsRun ≠ some 0 := by
  decide +kernel

/-- The state of the witness below. -/
def state_CalibrationRunsEnd_mainsConverterSelfCalEnd : State :=
  { live with cal := { live.cal with mainsRun := some 1, mainsFirst := some ⟨1, 2⟩ }, host := { live.host with outst := [⟨0, false, 0x0E03, 9, 0, 0, 0, 0, 0, 0⟩] } }

theorem witness_CalibrationRunsEnd_mainsConverterSelfCalEnd :
    (state_CalibrationRunsEnd_mainsConverterSelfCalEnd.rst.mgmtUp = true ∧ state_CalibrationRunsEnd_mainsConverterSelfCalEnd.cal.mainsRun = some 1) ∧ (⟨10, 0⟩ : ArbFactors) = ⟨rdiv (⟨210, 7000000000, -7000000000, [500, 3], 8⟩ : SelfCal).zero 21, rdiv (((⟨210, 7000000000, -7000000000, [500, 3], 8⟩ : SelfCal).plus - (⟨210, 7000000000, -7000000000, [500, 3], 8⟩ : SelfCal).minus) * 1000000000) (2 * state_CalibrationRunsEnd_mainsConverterSelfCalEnd.cal.vRef.toNat) - 1000000000⟩ ∧ ((0 : Nat) = (if (⟨210, 7000000000, -7000000000, [500, 3], 8⟩ : SelfCal).rms.any (fun x => 500 < x) = true then 1 else if 8 < (⟨210, 7000000000, -7000000000, [500, 3], 8⟩ : SelfCal).drift then 5 else if 50000 < (⟨10, 0⟩ : ArbFactors).ofs.natAbs ∨ 500000 < (⟨10, 0⟩ : ArbFactors).gain.natAbs then 6 else if state_CalibrationRunsEnd_mainsConverterSelfCalEnd.cal.mainsAccepted.getLsbD 1 = true ∧ (20000 < ((⟨10, 0⟩ : ArbFactors).gain - (tget arbZero state_CalibrationRunsEnd_mainsConverterSelfCalEnd.cal.mains 1).gain).natAbs) then 7 else 0)) ∧ state_CalibrationRunsEnd_mainsConverterSelfCalEnd.host.outst.find? (fun y => y.opcode == 0x0E03) = some (⟨0, false, 0x0E03, 9, 0, 0, 0, 0, 0, 0⟩ : Outstanding) := by
  decide +kernel

/-- The state of the witness below. -/
def state_CalibrationRunsEnd_mainsConverterSelfCalEnd_2 : State :=
  { live with cal := { live.cal with mainsRun := some 1, mainsFirst := some ⟨1, 2⟩ } }

theorem witness_CalibrationRunsEnd_mainsConverterSelfCalEnd_2 :
    (state_CalibrationRunsEnd_mainsConverterSelfCalEnd_2.rst.mgmtUp = true ∧ state_CalibrationRunsEnd_mainsConverterSelfCalEnd_2.cal.mainsRun = some 1) ∧ (⟨10, 0⟩ : ArbFactors) = ⟨rdiv (⟨210, 7000000000, -7000000000, [500, 3], 8⟩ : SelfCal).zero 21, rdiv (((⟨210, 7000000000, -7000000000, [500, 3], 8⟩ : SelfCal).plus - (⟨210, 7000000000, -7000000000, [500, 3], 8⟩ : SelfCal).minus) * 1000000000) (2 * state_CalibrationRunsEnd_mainsConverterSelfCalEnd_2.cal.vRef.toNat) - 1000000000⟩ ∧ ((0 : Nat) = (if (⟨210, 7000000000, -7000000000, [500, 3], 8⟩ : SelfCal).rms.any (fun x => 500 < x) = true then 1 else if 8 < (⟨210, 7000000000, -7000000000, [500, 3], 8⟩ : SelfCal).drift then 5 else if 50000 < (⟨10, 0⟩ : ArbFactors).ofs.natAbs ∨ 500000 < (⟨10, 0⟩ : ArbFactors).gain.natAbs then 6 else if state_CalibrationRunsEnd_mainsConverterSelfCalEnd_2.cal.mainsAccepted.getLsbD 1 = true ∧ (20000 < ((⟨10, 0⟩ : ArbFactors).gain - (tget arbZero state_CalibrationRunsEnd_mainsConverterSelfCalEnd_2.cal.mains 1).gain).natAbs) then 7 else 0)) ∧ state_CalibrationRunsEnd_mainsConverterSelfCalEnd_2.host.outst.find? (fun y => y.opcode == 0x0E03) = none := by
  decide +kernel

theorem witness_CalibrationRunsEnd_mainsConverterSelfCalEnd_3 :
    live.rst.mgmtUp = false ∨ live.cal.mainsRun ≠ some 1 := by
  decide +kernel

/-- The state of the witness below. -/
def state_CalibrationRunsEnd_calExtEnd : State :=
  { live with cal := { live.cal with ext := some ⟨7000000000, 50, 0, 10⟩ }, host := { live.host with outst := [⟨0, false, 0x0E01, 9, 0, 0, 0, 20, 0, 0⟩] } }

theorem witness_CalibrationRunsEnd_calExtEnd :
    (state_CalibrationRunsEnd_calExtEnd.rst.mgmtUp = true ∧ state_CalibrationRunsEnd_calExtEnd.cal.ext = some (⟨7000000000, 50, 0, 10⟩ : ExtRun)) ∧ ((6999999300 : Int) = meanOf (extRef (⟨7000000000, 50, 0, 10⟩ : ExtRun) (⟨[], [], false, [7000000700], [7000000000], 0, [], [], [], false⟩ : ExtCal)) ∧ (1000000000 : Int) = (if (⟨7000000000, 50, 0, 10⟩ : ExtRun).rs = 0 then state_CalibrationRunsEnd_calExtEnd.cal.iCal else meanOf (extCurrent (⟨7000000000, 50, 0, 10⟩ : ExtRun) (⟨[], [], false, [7000000700], [7000000000], 0, [], [], [], false⟩ : ExtCal)))) ∧ (0 : Nat) = (((List.range (min 4 (⟨[], [], false, [7000000700], [7000000000], 0, [], [], [], false⟩ : ExtCal).selfCal.length)).map (fun a => judgeArb ((⟨[], [], false, [7000000700], [7000000000], 0, [], [], [], false⟩ : ExtCal).selfCal.getD a ⟨0, 0, 0, [], 0⟩) (SelfCal_factors ((⟨[], [], false, [7000000700], [7000000000], 0, [], [], [], false⟩ : ExtCal).selfCal.getD a ⟨0, 0, 0, [], 0⟩) state_CalibrationRunsEnd_calExtEnd.cal.vRef) (tget arbZero state_CalibrationRunsEnd_calExtEnd.cal.arb a) (!state_CalibrationRunsEnd_calExtEnd.cal.arbAccepted.getLsbD a))).find? (fun j => j != 0)).getD (if extCause (⟨7000000000, 50, 0, 10⟩ : ExtRun) (⟨[], [], false, [7000000700], [7000000000], 0, [], [], [], false⟩ : ExtCal) ≠ 0 then extCause (⟨7000000000, 50, 0, 10⟩ : ExtRun) (⟨[], [], false, [7000000700], [7000000000], 0, [], [], [], false⟩ : ExtCal) else state_CalibrationRunsEnd_calExtEnd.refCause (⟨7000000000, 50, 0, 10⟩ : ExtRun).refD (6999999300 : Int) (1000000000 : Int)) ∧ (0 : Nat) = 0 ∧ state_CalibrationRunsEnd_calExtEnd.host.outst.find? (fun y => y.opcode == 0x0E01) = some (⟨0, false, 0x0E01, 9, 0, 0, 0, 20, 0, 0⟩ : Outstanding) := by
  decide +kernel

/-- The state of the witness below. -/
def state_CalibrationRunsEnd_calExtEnd_2 : State :=
  { live with cal := { live.cal with ext := some ⟨7000000000, 50, 0, 10⟩ }, host := { live.host with outst := [⟨0, false, 0x0E01, 9, 0, 0, 0, 20, 0, 0⟩] } }

theorem witness_CalibrationRunsEnd_calExtEnd_2 :
    (state_CalibrationRunsEnd_calExtEnd_2.rst.mgmtUp = true ∧ state_CalibrationRunsEnd_calExtEnd_2.cal.ext = some (⟨7000000000, 50, 0, 10⟩ : ExtRun)) ∧ ((6999999300 : Int) = meanOf (extRef (⟨7000000000, 50, 0, 10⟩ : ExtRun) (⟨[], [501], false, [7000000700], [7000000000], 0, [], [], [], false⟩ : ExtCal)) ∧ (1000000000 : Int) = (if (⟨7000000000, 50, 0, 10⟩ : ExtRun).rs = 0 then state_CalibrationRunsEnd_calExtEnd_2.cal.iCal else meanOf (extCurrent (⟨7000000000, 50, 0, 10⟩ : ExtRun) (⟨[], [501], false, [7000000700], [7000000000], 0, [], [], [], false⟩ : ExtCal)))) ∧ (1 : Nat) = (((List.range (min 4 (⟨[], [501], false, [7000000700], [7000000000], 0, [], [], [], false⟩ : ExtCal).selfCal.length)).map (fun a => judgeArb ((⟨[], [501], false, [7000000700], [7000000000], 0, [], [], [], false⟩ : ExtCal).selfCal.getD a ⟨0, 0, 0, [], 0⟩) (SelfCal_factors ((⟨[], [501], false, [7000000700], [7000000000], 0, [], [], [], false⟩ : ExtCal).selfCal.getD a ⟨0, 0, 0, [], 0⟩) state_CalibrationRunsEnd_calExtEnd_2.cal.vRef) (tget arbZero state_CalibrationRunsEnd_calExtEnd_2.cal.arb a) (!state_CalibrationRunsEnd_calExtEnd_2.cal.arbAccepted.getLsbD a))).find? (fun j => j != 0)).getD (if extCause (⟨7000000000, 50, 0, 10⟩ : ExtRun) (⟨[], [501], false, [7000000700], [7000000000], 0, [], [], [], false⟩ : ExtCal) ≠ 0 then extCause (⟨7000000000, 50, 0, 10⟩ : ExtRun) (⟨[], [501], false, [7000000700], [7000000000], 0, [], [], [], false⟩ : ExtCal) else state_CalibrationRunsEnd_calExtEnd_2.refCause (⟨7000000000, 50, 0, 10⟩ : ExtRun).refD (6999999300 : Int) (1000000000 : Int)) ∧ (1 : Nat) ≠ 0 ∧ state_CalibrationRunsEnd_calExtEnd_2.host.outst.find? (fun y => y.opcode == 0x0E01) = some (⟨0, false, 0x0E01, 9, 0, 0, 0, 20, 0, 0⟩ : Outstanding) := by
  decide +kernel

/-- The state of the witness below. -/
def state_CalibrationRunsEnd_calExtEnd_3 : State :=
  { live with cal := { live.cal with ext := some ⟨7000000000, 50, 0, 10⟩ } }

theorem witness_CalibrationRunsEnd_calExtEnd_3 :
    (state_CalibrationRunsEnd_calExtEnd_3.rst.mgmtUp = true ∧ state_CalibrationRunsEnd_calExtEnd_3.cal.ext = some (⟨7000000000, 50, 0, 10⟩ : ExtRun)) ∧ ((6999999300 : Int) = meanOf (extRef (⟨7000000000, 50, 0, 10⟩ : ExtRun) (⟨[], [501], false, [7000000700], [7000000000], 0, [], [], [], false⟩ : ExtCal)) ∧ (1000000000 : Int) = (if (⟨7000000000, 50, 0, 10⟩ : ExtRun).rs = 0 then state_CalibrationRunsEnd_calExtEnd_3.cal.iCal else meanOf (extCurrent (⟨7000000000, 50, 0, 10⟩ : ExtRun) (⟨[], [501], false, [7000000700], [7000000000], 0, [], [], [], false⟩ : ExtCal)))) ∧ (1 : Nat) = (((List.range (min 4 (⟨[], [501], false, [7000000700], [7000000000], 0, [], [], [], false⟩ : ExtCal).selfCal.length)).map (fun a => judgeArb ((⟨[], [501], false, [7000000700], [7000000000], 0, [], [], [], false⟩ : ExtCal).selfCal.getD a ⟨0, 0, 0, [], 0⟩) (SelfCal_factors ((⟨[], [501], false, [7000000700], [7000000000], 0, [], [], [], false⟩ : ExtCal).selfCal.getD a ⟨0, 0, 0, [], 0⟩) state_CalibrationRunsEnd_calExtEnd_3.cal.vRef) (tget arbZero state_CalibrationRunsEnd_calExtEnd_3.cal.arb a) (!state_CalibrationRunsEnd_calExtEnd_3.cal.arbAccepted.getLsbD a))).find? (fun j => j != 0)).getD (if extCause (⟨7000000000, 50, 0, 10⟩ : ExtRun) (⟨[], [501], false, [7000000700], [7000000000], 0, [], [], [], false⟩ : ExtCal) ≠ 0 then extCause (⟨7000000000, 50, 0, 10⟩ : ExtRun) (⟨[], [501], false, [7000000700], [7000000000], 0, [], [], [], false⟩ : ExtCal) else state_CalibrationRunsEnd_calExtEnd_3.refCause (⟨7000000000, 50, 0, 10⟩ : ExtRun).refD (6999999300 : Int) (1000000000 : Int)) ∧ (1 : Nat) ≠ 0 ∧ state_CalibrationRunsEnd_calExtEnd_3.host.outst.find? (fun y => y.opcode == 0x0E01) = none := by
  decide +kernel

theorem witness_CalibrationRunsEnd_calExtEnd_4 :
    live.rst.mgmtUp = false ∨ live.cal.ext = none := by
  decide +kernel

/-- The state of the witness below. -/
def state_CalibrationRunsEnd_isrcLimit : State :=
  { live with cal := { live.cal with isrcOn := true } }

theorem witness_CalibrationRunsEnd_isrcLimit :
    state_CalibrationRunsEnd_isrcLimit.cal.isrcOn = true := by
  decide +kernel

theorem witness_CalibrationRunsEnd_isrcLimit_2 :
    live.cal.isrcOn = false := by
  decide +kernel

/-- The state of the witness below. -/
def state_TheRotationAndItsSlots_calStartup : State :=
  { live with sto := { live.sto with sysRef := some (7000001000, 999999000, 5) } }

theorem witness_TheRotationAndItsSlots_calStartup :
    (state_TheRotationAndItsSlots_calStartup.rst.mgmtUp = true ∧ state_TheRotationAndItsSlots_calStartup.rst.ctrlUp = true ∧ (state_TheRotationAndItsSlots_calStartup.rst.mireUp = true ∨ state_TheRotationAndItsSlots_calStartup.noMire = true)) ∧ state_TheRotationAndItsSlots_calStartup.cal.startStep = 0 ∧ (0 : BitVec 4) = (if state_TheRotationAndItsSlots_calStartup.cal.ext.isSome = true then 15#4 else state_TheRotationAndItsSlots_calStartup.cal.slotRun) ∧ false = (!state_TheRotationAndItsSlots_calStartup.dcFed && state_TheRotationAndItsSlots_calStartup.priSeen && state_TheRotationAndItsSlots_calStartup.cal.mainsRun.isNone) ∧ (state_TheRotationAndItsSlots_calStartup.sto.sysRef = some ((7000001000 : Int), (999999000 : Int), (5 : Word)) ∧ state_TheRotationAndItsSlots_calStartup.cal.refSrc ≠ 2 ∧ state_TheRotationAndItsSlots_calStartup.rst.mireUp = true) := by
  decide +kernel

/-- The state of the witness below. -/
def state_TheRotationAndItsSlots_calStartup_2 : State :=
  { live with iso := { live.iso with rxValid := true, txValid := true } }

theorem witness_TheRotationAndItsSlots_calStartup_2 :
    (state_TheRotationAndItsSlots_calStartup_2.rst.mgmtUp = true ∧ state_TheRotationAndItsSlots_calStartup_2.rst.ctrlUp = true ∧ (state_TheRotationAndItsSlots_calStartup_2.rst.mireUp = true ∨ state_TheRotationAndItsSlots_calStartup_2.noMire = true)) ∧ state_TheRotationAndItsSlots_calStartup_2.cal.startStep = 0 ∧ (0 : BitVec 4) = (if state_TheRotationAndItsSlots_calStartup_2.cal.ext.isSome = true then 15#4 else state_TheRotationAndItsSlots_calStartup_2.cal.slotRun) ∧ true = (!state_TheRotationAndItsSlots_calStartup_2.dcFed && state_TheRotationAndItsSlots_calStartup_2.priSeen && state_TheRotationAndItsSlots_calStartup_2.cal.mainsRun.isNone) ∧ (state_TheRotationAndItsSlots_calStartup_2.sto.sysRef = none ∨ state_TheRotationAndItsSlots_calStartup_2.cal.refSrc = 2 ∨ state_TheRotationAndItsSlots_calStartup_2.rst.mireUp = false) := by
  decide +kernel

/-- The state of the witness below. -/
def state_TheRotationAndItsSlots_calStartup_3 : State :=
  { live with cal := { live.cal with startStep := 2 } }

theorem witness_TheRotationAndItsSlots_calStartup_3 :
    (state_TheRotationAndItsSlots_calStartup_3.rst.mgmtUp = true ∧ state_TheRotationAndItsSlots_calStartup_3.rst.ctrlUp = true ∧ (state_TheRotationAndItsSlots_calStartup_3.rst.mireUp = true ∨ state_TheRotationAndItsSlots_calStartup_3.noMire = true)) ∧ (state_TheRotationAndItsSlots_calStartup_3.cal.startStep = 2 ∧ state_TheRotationAndItsSlots_calStartup_3.cal.arbRun = 0#4 ∧ state_TheRotationAndItsSlots_calStartup_3.cal.arbWait = 0#4) := by
  decide +kernel

/-- The state of the witness below. -/
def state_TheRotationAndItsSlots_calStartup_4 : State :=
  { live with cal := { live.cal with startStep := 3 } }

theorem witness_TheRotationAndItsSlots_calStartup_4 :
    (state_TheRotationAndItsSlots_calStartup_4.rst.mgmtUp = true ∧ state_TheRotationAndItsSlots_calStartup_4.rst.ctrlUp = true ∧ (state_TheRotationAndItsSlots_calStartup_4.rst.mireUp = true ∨ state_TheRotationAndItsSlots_calStartup_4.noMire = true)) ∧ (state_TheRotationAndItsSlots_calStartup_4.cal.startStep = 3 ∧ state_TheRotationAndItsSlots_calStartup_4.cal.slotDue = 0#4 ∧ state_TheRotationAndItsSlots_calStartup_4.cal.slotRun = 0#4) := by
  decide +kernel

/-- The state of the witness below. -/
def state_TheRotationAndItsSlots_calStartup_5 : State :=
  { live with cal := { live.cal with startStep := 4 } }

theorem witness_TheRotationAndItsSlots_calStartup_5 :
    state_TheRotationAndItsSlots_calStartup_5.rst.mgmtUp = false ∨ state_TheRotationAndItsSlots_calStartup_5.rst.ctrlUp = false ∨ (state_TheRotationAndItsSlots_calStartup_5.rst.mireUp = false ∧ state_TheRotationAndItsSlots_calStartup_5.noMire = false) ∨ (state_TheRotationAndItsSlots_calStartup_5.cal.startStep = 2 ∧ (state_TheRotationAndItsSlots_calStartup_5.cal.arbRun ≠ 0#4 ∨ state_TheRotationAndItsSlots_calStartup_5.cal.arbWait ≠ 0#4)) ∨ (state_TheRotationAndItsSlots_calStartup_5.cal.startStep = 3 ∧ (state_TheRotationAndItsSlots_calStartup_5.cal.slotDue ≠ 0#4 ∨ state_TheRotationAndItsSlots_calStartup_5.cal.slotRun ≠ 0#4)) ∨ 4 ≤ state_TheRotationAndItsSlots_calStartup_5.cal.startStep := by
  decide +kernel

/-- The state of the witness below. -/
def state_TheRotationAndItsSlots_spareSlotDue : State :=
  { live with cal := { live.cal with startStep := 4, slotRun := 1 } }

theorem witness_TheRotationAndItsSlots_spareSlotDue :
    state_TheRotationAndItsSlots_spareSlotDue.rst.mgmtUp = true ∧ state_TheRotationAndItsSlots_spareSlotDue.cal.startStep = 4 := by
  decide +kernel

/-- The state of the witness below. -/
def state_TheRotationAndItsSlots_spareSlotDue_2 : State :=
  { live with cal := { live.cal with startStep := 3 } }

theorem witness_TheRotationAndItsSlots_spareSlotDue_2 :
    state_TheRotationAndItsSlots_spareSlotDue_2.rst.mgmtUp = false ∨ state_TheRotationAndItsSlots_spareSlotDue_2.cal.startStep ≠ 4 := by
  decide +kernel

/-- The state of the witness below. -/
def state_TheRotationAndItsSlots_spareSlotStart : State :=
  { live with cal := { live.cal with startStep := 4, slotDue := 15, arb := [(3, ⟨0, 0⟩)] } }

theorem witness_TheRotationAndItsSlots_spareSlotStart :
    (state_TheRotationAndItsSlots_spareSlotStart.rst.mgmtUp = true ∧ (3 : Nat) < 4) ∧ (state_TheRotationAndItsSlots_spareSlotStart.cal.slotDue.getLsbD (3 : Nat) = true ∧ state_TheRotationAndItsSlots_spareSlotStart.cal.arbRun.getLsbD (3 : Nat) = false ∧ state_TheRotationAndItsSlots_spareSlotStart.cal.ext = none) ∧ (state_TheRotationAndItsSlots_spareSlotStart.busGroups (3 : Nat)).all state_TheRotationAndItsSlots_spareSlotStart.holdsSpare = true ∧ (tget? state_TheRotationAndItsSlots_spareSlotStart.cal.arb (3 : Nat)).isSome = true := by
  decide +kernel

/-- The state of the witness below. -/
def state_TheRotationAndItsSlots_spareSlotStart_2 : State :=
  { live with cal := { live.cal with startStep := 4, slotDue := 15 } }

theorem witness_TheRotationAndItsSlots_spareSlotStart_2 :
    (state_TheRotationAndItsSlots_spareSlotStart_2.rst.mgmtUp = true ∧ (3 : Nat) < 4) ∧ (state_TheRotationAndItsSlots_spareSlotStart_2.cal.slotDue.getLsbD (3 : Nat) = true ∧ state_TheRotationAndItsSlots_spareSlotStart_2.cal.arbRun.getLsbD (3 : Nat) = false ∧ state_TheRotationAndItsSlots_spareSlotStart_2.cal.ext = none) ∧ (state_TheRotationAndItsSlots_spareSlotStart_2.busGroups (3 : Nat)).all state_TheRotationAndItsSlots_spareSlotStart_2.holdsSpare = true ∧ tget? state_TheRotationAndItsSlots_spareSlotStart_2.cal.arb (3 : Nat) = none ∧ ((state_TheRotationAndItsSlots_spareSlotStart_2.cal.startStep ≠ 2 ∨ state_TheRotationAndItsSlots_spareSlotStart_2.cal.arbRun ≠ 0#4 ∨ state_TheRotationAndItsSlots_spareSlotStart_2.cal.arbWait ≠ 0#4) ∧ (state_TheRotationAndItsSlots_spareSlotStart_2.cal.startStep ≠ 3 ∨ state_TheRotationAndItsSlots_spareSlotStart_2.cal.slotDue &&& ~~~(BitVec.twoPow 4 (3 : Nat)) ≠ 0#4 ∨ state_TheRotationAndItsSlots_spareSlotStart_2.cal.slotRun ≠ 0#4)) ∧ state_TheRotationAndItsSlots_spareSlotStart_2.host.outst.any (fun y => y.opcode == 0x0E05 && (y.obj == 0 || y.obj.testBit (3 : Nat))) = false := by
  decide +kernel

/-- The state of the witness below. -/
def state_TheRotationAndItsSlots_spareSlotStart_3 : State :=
  { live with cal := { live.cal with startStep := 4, slotDue := 15 }, host := { live.host with outst := [⟨0, false, 0x0E05, 9, 0, 0, 0, 1, 4, 0⟩] } }

theorem witness_TheRotationAndItsSlots_spareSlotStart_3 :
    (state_TheRotationAndItsSlots_spareSlotStart_3.rst.mgmtUp = true ∧ (0 : Nat) < 4) ∧ (state_TheRotationAndItsSlots_spareSlotStart_3.cal.slotDue.getLsbD (0 : Nat) = true ∧ state_TheRotationAndItsSlots_spareSlotStart_3.cal.arbRun.getLsbD (0 : Nat) = false ∧ state_TheRotationAndItsSlots_spareSlotStart_3.cal.ext = none) ∧ (state_TheRotationAndItsSlots_spareSlotStart_3.busGroups (0 : Nat)).all state_TheRotationAndItsSlots_spareSlotStart_3.holdsSpare = true ∧ tget? state_TheRotationAndItsSlots_spareSlotStart_3.cal.arb (0 : Nat) = none ∧ ((state_TheRotationAndItsSlots_spareSlotStart_3.cal.startStep ≠ 2 ∨ state_TheRotationAndItsSlots_spareSlotStart_3.cal.arbRun ≠ 0#4 ∨ state_TheRotationAndItsSlots_spareSlotStart_3.cal.arbWait ≠ 0#4) ∧ (state_TheRotationAndItsSlots_spareSlotStart_3.cal.startStep ≠ 3 ∨ state_TheRotationAndItsSlots_spareSlotStart_3.cal.slotDue &&& ~~~(BitVec.twoPow 4 (0 : Nat)) ≠ 0#4 ∨ state_TheRotationAndItsSlots_spareSlotStart_3.cal.slotRun ≠ 0#4)) ∧ state_TheRotationAndItsSlots_spareSlotStart_3.host.outst.filter (fun y => y.opcode == 0x0E05 && (y.obj == 0 || y.obj.testBit (0 : Nat))) = [(⟨0, false, 0x0E05, 9, 0, 0, 0, 1, 4, 0⟩ : Outstanding)] ∧ (⟨0, false, 0x0E05, 9, 0, 0, 0, 1, 4, 0⟩ : Outstanding).obj.testBit (0 : Nat) = true ∧ (655364 : Nat) = (⟨0, false, 0x0E05, 9, 0, 0, 0, 1, 4, 0⟩ : Outstanding).aux + (if (⟨0, false, 0x0E05, 9, 0, 0, 0, 1, 4, 0⟩ : Outstanding).aux < 65536 then 655360 else 0) := by
  decide +kernel

/-- The state of the witness below. -/
def state_TheRotationAndItsSlots_spareSlotStart_4 : State :=
  { live with cal := { live.cal with startStep := 4, slotDue := 15 } }

theorem witness_TheRotationAndItsSlots_spareSlotStart_4 :
    state_TheRotationAndItsSlots_spareSlotStart_4.rst.mgmtUp = false ∨ 4 ≤ (4 : Nat) ∨ state_TheRotationAndItsSlots_spareSlotStart_4.cal.slotDue.getLsbD (4 : Nat) = false ∨ state_TheRotationAndItsSlots_spareSlotStart_4.cal.arbRun.getLsbD (4 : Nat) = true ∨ state_TheRotationAndItsSlots_spareSlotStart_4.cal.ext ≠ none ∨ (state_TheRotationAndItsSlots_spareSlotStart_4.busGroups (4 : Nat)).all state_TheRotationAndItsSlots_spareSlotStart_4.holdsSpare = false := by
  decide +kernel

/-- The state of the witness below. -/
def state_TheRotationAndItsSlots_spareSlotEnd : State :=
  { live with cal := { live.cal with startStep := 4, slotRun := 1, grp := [(1, { CalGrp.init with limits := { live.calLimits with spareTol := 1 } })] } }

theorem witness_TheRotationAndItsSlots_spareSlotEnd :
    (state_TheRotationAndItsSlots_spareSlotEnd.rst.mgmtUp = true ∧ (0 : Nat) < 4 ∧ state_TheRotationAndItsSlots_spareSlotEnd.cal.slotRun.getLsbD (0 : Nat) = true) ∧ ((([⟨1, [(2, ⟨5, 2 ^ 30 + 3, [], 0, 0, 400⟩)], [7], 9⟩] : List SpareCal).map (fun x => x.grp)).Nodup ∧ ([⟨1, [(2, ⟨5, 2 ^ 30 + 3, [], 0, 0, 400⟩)], [7], 9⟩] : List SpareCal).all (fun x => (x.sets.map (fun e => e.1)).Nodup) = true) ∧ ((state_TheRotationAndItsSlots_spareSlotEnd.cal.arbWait = 0#4 ∧ state_TheRotationAndItsSlots_spareSlotEnd.cal.startStep ≠ 2) ∧ (state_TheRotationAndItsSlots_spareSlotEnd.cal.startStep ≠ 3 ∨ state_TheRotationAndItsSlots_spareSlotEnd.cal.slotDue ≠ 0#4 ∨ state_TheRotationAndItsSlots_spareSlotEnd.cal.slotRun &&& ~~~(BitVec.twoPow 4 (0 : Nat)) ≠ 0#4)) ∧ state_TheRotationAndItsSlots_spareSlotEnd.host.outst.any (fun y => y.opcode == 0x0E05 && (y.obj == 0 || y.obj.testBit (0 : Nat))) = false := by
  decide +kernel

/-- The state of the witness below. -/
def state_TheRotationAndItsSlots_spareSlotEnd_2 : State :=
  { live with cal := { live.cal with startStep := 4, slotRun := 1, grp := [(1, { CalGrp.init with limits := live.calLimits })] }, host := { live.host with outst := [⟨0, false, 0x0E05, 9, 0, 0, 0, 1, 4, 0⟩] } }

theorem witness_TheRotationAndItsSlots_spareSlotEnd_2 :
    (state_TheRotationAndItsSlots_spareSlotEnd_2.rst.mgmtUp = true ∧ (0 : Nat) < 4 ∧ state_TheRotationAndItsSlots_spareSlotEnd_2.cal.slotRun.getLsbD (0 : Nat) = true) ∧ ((([⟨1, [(2, ⟨5, 2 ^ 30 + 3, [], 0, 0, 400⟩)], [7], 9⟩] : List SpareCal).map (fun x => x.grp)).Nodup ∧ ([⟨1, [(2, ⟨5, 2 ^ 30 + 3, [], 0, 0, 400⟩)], [7], 9⟩] : List SpareCal).all (fun x => (x.sets.map (fun e => e.1)).Nodup) = true) ∧ ((state_TheRotationAndItsSlots_spareSlotEnd_2.cal.arbWait = 0#4 ∧ state_TheRotationAndItsSlots_spareSlotEnd_2.cal.startStep ≠ 2) ∧ (state_TheRotationAndItsSlots_spareSlotEnd_2.cal.startStep ≠ 3 ∨ state_TheRotationAndItsSlots_spareSlotEnd_2.cal.slotDue ≠ 0#4 ∨ state_TheRotationAndItsSlots_spareSlotEnd_2.cal.slotRun &&& ~~~(BitVec.twoPow 4 (0 : Nat)) ≠ 0#4)) ∧ state_TheRotationAndItsSlots_spareSlotEnd_2.host.outst.filter (fun y => y.opcode == 0x0E05 && (y.obj == 0 || y.obj.testBit (0 : Nat))) = [(⟨0, false, 0x0E05, 9, 0, 0, 0, 1, 4, 0⟩ : Outstanding)] ∧ (⟨0, false, 0x0E05, 9, 0, 0, 0, 1, 4, 0⟩ : Outstanding).obj.testBit (0 : Nat) = true ∧ ((∀ x ∈ ([⟨1, [(2, ⟨5, 2 ^ 30 + 3, [], 0, 0, 400⟩)], [7], 9⟩] : List SpareCal), x.grp < state_TheRotationAndItsSlots_spareSlotEnd_2.groups ∧ x.grp / 4 = (0 : Nat) ∧ (x.sets.all (fun e => (state_TheRotationAndItsSlots_spareSlotEnd_2.calAt x.grp).limits.band e.2) = true ∧ x.agree ≤ 1000 * (state_TheRotationAndItsSlots_spareSlotEnd_2.calAt x.grp).limits.spareTol ∧ ((17 ∉ (state_TheRotationAndItsSlots_spareSlotEnd_2.calAt x.grp).accepted ∧ x.sets ≠ []) ∨ x.sets.all (fun e => (state_TheRotationAndItsSlots_spareSlotEnd_2.calAt x.grp).limits.near e.2 ((state_TheRotationAndItsSlots_spareSlotEnd_2.calAt x.grp).lastSet (136 + e.1))) = true))) ∧ (6 : Nat) = (⟨0, false, 0x0E05, 9, 0, 0, 0, 1, 4, 0⟩ : Outstanding).aux + nsum (([⟨1, [(2, ⟨5, 2 ^ 30 + 3, [], 0, 0, 400⟩)], [7], 9⟩] : List SpareCal).map (fun x => 2 ^ x.grp))) := by
  decide +kernel

/-- The state of the witness below. -/
def state_TheRotationAndItsSlots_spareSlotEnd_3 : State :=
  { live with cal := { live.cal with startStep := 4, slotRun := 1, grp := [(1, { CalGrp.init with limits := { live.calLimits with spareTol := 1 } })] }, host := { live.host with outst := [⟨0, false, 0x0E05, 9, 0, 0, 0, 1, 4, 0⟩] } }

theorem witness_TheRotationAndItsSlots_spareSlotEnd_3 :
    (state_TheRotationAndItsSlots_spareSlotEnd_3.rst.mgmtUp = true ∧ (0 : Nat) < 4 ∧ state_TheRotationAndItsSlots_spareSlotEnd_3.cal.slotRun.getLsbD (0 : Nat) = true) ∧ (([(⟨1, [(2, ⟨5, 2 ^ 30 + 3, [], 0, 0, 400⟩)], [7], 1001⟩ : SpareCal)].map (fun x => x.grp)).Nodup ∧ [(⟨1, [(2, ⟨5, 2 ^ 30 + 3, [], 0, 0, 400⟩)], [7], 1001⟩ : SpareCal)].all (fun x => (x.sets.map (fun e => e.1)).Nodup) = true) ∧ ((state_TheRotationAndItsSlots_spareSlotEnd_3.cal.arbWait = 0#4 ∧ state_TheRotationAndItsSlots_spareSlotEnd_3.cal.startStep ≠ 2) ∧ (state_TheRotationAndItsSlots_spareSlotEnd_3.cal.startStep ≠ 3 ∨ state_TheRotationAndItsSlots_spareSlotEnd_3.cal.slotDue ≠ 0#4 ∨ state_TheRotationAndItsSlots_spareSlotEnd_3.cal.slotRun &&& ~~~(BitVec.twoPow 4 (0 : Nat)) ≠ 0#4)) ∧ state_TheRotationAndItsSlots_spareSlotEnd_3.host.outst.filter (fun y => y.opcode == 0x0E05 && (y.obj == 0 || y.obj.testBit (0 : Nat))) = [(⟨0, false, 0x0E05, 9, 0, 0, 0, 1, 4, 0⟩ : Outstanding)] ∧ (⟨0, false, 0x0E05, 9, 0, 0, 0, 1, 4, 0⟩ : Outstanding).obj.testBit (0 : Nat) = true ∧ ((⟨1, [(2, ⟨5, 2 ^ 30 + 3, [], 0, 0, 400⟩)], [7], 1001⟩ : SpareCal).grp < state_TheRotationAndItsSlots_spareSlotEnd_3.groups ∧ (⟨1, [(2, ⟨5, 2 ^ 30 + 3, [], 0, 0, 400⟩)], [7], 1001⟩ : SpareCal).grp / 4 = (0 : Nat)) ∧ ((if (⟨1, [(2, ⟨5, 2 ^ 30 + 3, [], 0, 0, 400⟩)], [7], 1001⟩ : SpareCal).sets.all (fun e => (state_TheRotationAndItsSlots_spareSlotEnd_3.calAt (⟨1, [(2, ⟨5, 2 ^ 30 + 3, [], 0, 0, 400⟩)], [7], 1001⟩ : SpareCal).grp).limits.band e.2) = false then (8 : Nat) = 6 else 1000 * (state_TheRotationAndItsSlots_spareSlotEnd_3.calAt (⟨1, [(2, ⟨5, 2 ^ 30 + 3, [], 0, 0, 400⟩)], [7], 1001⟩ : SpareCal).grp).limits.spareTol < (⟨1, [(2, ⟨5, 2 ^ 30 + 3, [], 0, 0, 400⟩)], [7], 1001⟩ : SpareCal).agree ∧ (8 : Nat) = 8)) ∧ (524292 : Nat) = (⟨0, false, 0x0E05, 9, 0, 0, 0, 1, 4, 0⟩ : Outstanding).aux + (if (⟨0, false, 0x0E05, 9, 0, 0, 0, 1, 4, 0⟩ : Outstanding).aux < 65536 then 65536 * (8 : Nat) else 0) := by
  decide +kernel

theorem witness_TheRotationAndItsSlots_spareSlotEnd_4 :
    live.rst.mgmtUp = false ∨ 4 ≤ (4 : Nat) ∨ live.cal.slotRun.getLsbD (4 : Nat) = false := by
  decide +kernel

/-- The state of the witness below. -/
def state_TheRotationAndItsSlots_patinaPassStart : State :=
  { live with cal := { live.cal with grp := [(0, { readyCal with rotating := true, next := 16 })] } }

theorem witness_TheRotationAndItsSlots_patinaPassStart :
    (state_TheRotationAndItsSlots_patinaPassStart.grpRuns (0 : Nat) = true ∧ state_TheRotationAndItsSlots_patinaPassStart.rst.mgmtUp = true) ∧ (state_TheRotationAndItsSlots_patinaPassStart.rotates (0 : Nat) = true ∧ state_TheRotationAndItsSlots_patinaPassStart.holdsSpare (0 : Nat) = true) ∧ (state_TheRotationAndItsSlots_patinaPassStart.cal.slotDue.getLsbD ((0 : Nat) / 4) = false ∧ state_TheRotationAndItsSlots_patinaPassStart.cal.slotRun.getLsbD ((0 : Nat) / 4) = false) ∧ ((state_TheRotationAndItsSlots_patinaPassStart.grpAt (0 : Nat)).acq.checks = [] ∧ (16 : Nat) = (state_TheRotationAndItsSlots_patinaPassStart.calAt (0 : Nat)).next) := by
  decide +kernel

/-- The state of the witness below. -/
def state_TheRotationAndItsSlots_patinaPassStart_2 : State :=
  { live with cal := { live.cal with grp := [(0, { readyCal with rotating := true, next := 16 })] }, grp := [(0, { Grp.init with acq := { Acq.init with checks := [⟨true, 3, 0, 9, false⟩] } })] }

theorem witness_TheRotationAndItsSlots_patinaPassStart_2 :
    (state_TheRotationAndItsSlots_patinaPassStart_2.grpRuns (0 : Nat) = true ∧ state_TheRotationAndItsSlots_patinaPassStart_2.rst.mgmtUp = true) ∧ (state_TheRotationAndItsSlots_patinaPassStart_2.rotates (0 : Nat) = true ∧ state_TheRotationAndItsSlots_patinaPassStart_2.holdsSpare (0 : Nat) = true) ∧ (state_TheRotationAndItsSlots_patinaPassStart_2.cal.slotDue.getLsbD ((0 : Nat) / 4) = false ∧ state_TheRotationAndItsSlots_patinaPassStart_2.cal.slotRun.getLsbD ((0 : Nat) / 4) = false) ∧ (state_TheRotationAndItsSlots_patinaPassStart_2.grpAt (0 : Nat)).acq.checks = (⟨true, 3, 0, 9, false⟩ : CheckReq) :: ([] : List CheckReq) := by
  decide +kernel

/-- The state of the witness below. -/
def state_TheRotationAndItsSlots_patinaPassStart_3 : State :=
  { live with cal := { live.cal with slotDue := 1, grp := [(0, { readyCal with rotating := true, next := 16 })] } }

theorem witness_TheRotationAndItsSlots_patinaPassStart_3 :
    state_TheRotationAndItsSlots_patinaPassStart_3.grpRuns (0 : Nat) = false ∨ state_TheRotationAndItsSlots_patinaPassStart_3.rst.mgmtUp = false ∨ state_TheRotationAndItsSlots_patinaPassStart_3.rotates (0 : Nat) = false ∨ state_TheRotationAndItsSlots_patinaPassStart_3.holdsSpare (0 : Nat) = false ∨ state_TheRotationAndItsSlots_patinaPassStart_3.cal.slotDue.getLsbD ((0 : Nat) / 4) = true ∨ state_TheRotationAndItsSlots_patinaPassStart_3.cal.slotRun.getLsbD ((0 : Nat) / 4) = true := by
  decide +kernel

/-- The state of the witness below. -/
def state_TheRotationAndItsSlots_carryHandover : State :=
  { live with cal := { live.cal with grp := [(0, { readyCal with rotating := true, pass := some ⟨3, 2, 0, []⟩ })] } }

theorem witness_TheRotationAndItsSlots_carryHandover :
    (state_TheRotationAndItsSlots_carryHandover.grpRuns (0 : Nat) = true ∧ state_TheRotationAndItsSlots_carryHandover.rst.mgmtUp = true) ∧ (state_TheRotationAndItsSlots_carryHandover.grpAt (0 : Nat)).acq.checks.find? (fun y => y.running) = none ∧ (state_TheRotationAndItsSlots_carryHandover.calAt (0 : Nat)).pass = some (⟨3, 2, 0, []⟩ : Pass) ∧ (⟨3, 2, 0, []⟩ : Pass).step = 2 := by
  decide +kernel

/-- The state of the witness below. -/
def state_TheRotationAndItsSlots_carryHandover_2 : State :=
  { live with cal := { live.cal with grp := [(0, { readyCal with rotating := true, pass := some ⟨16, 7, 0, [(1, ⟨5, 2 ^ 30 + 3, [], 0, 0, 400⟩)]⟩ })] } }

theorem witness_TheRotationAndItsSlots_carryHandover_2 :
    (state_TheRotationAndItsSlots_carryHandover_2.grpRuns (0 : Nat) = true ∧ state_TheRotationAndItsSlots_carryHandover_2.rst.mgmtUp = true) ∧ (state_TheRotationAndItsSlots_carryHandover_2.grpAt (0 : Nat)).acq.checks.find? (fun y => y.running) = none ∧ (state_TheRotationAndItsSlots_carryHandover_2.calAt (0 : Nat)).pass = some (⟨16, 7, 0, [(1, ⟨5, 2 ^ 30 + 3, [], 0, 0, 400⟩)]⟩ : Pass) ∧ ((⟨16, 7, 0, [(1, ⟨5, 2 ^ 30 + 3, [], 0, 0, 400⟩)]⟩ : Pass).step = 7 ∧ (⟨16, 7, 0, [(1, ⟨5, 2 ^ 30 + 3, [], 0, 0, 400⟩)]⟩ : Pass).cause = 0 ∧ (⟨16, 7, 0, [(1, ⟨5, 2 ^ 30 + 3, [], 0, 0, 400⟩)]⟩ : Pass).slice < 17 ∧ ((⟨16, 7, 0, [(1, ⟨5, 2 ^ 30 + 3, [], 0, 0, 400⟩)]⟩ : Pass).sets.map (fun e => e.1)).Nodup) := by
  decide +kernel

/-- The state of the witness below. -/
def state_TheRotationAndItsSlots_carryHandover_3 : State :=
  { live with cal := { live.cal with grp := [(0, { readyCal with rotating := true, pass := some ⟨16, 7, 6, [(1, ⟨5, 2 ^ 30 + 3, [], 0, 0, 400⟩)]⟩ })] } }

theorem witness_TheRotationAndItsSlots_carryHandover_3 :
    (state_TheRotationAndItsSlots_carryHandover_3.grpRuns (0 : Nat) = true ∧ state_TheRotationAndItsSlots_carryHandover_3.rst.mgmtUp = true) ∧ (state_TheRotationAndItsSlots_carryHandover_3.grpAt (0 : Nat)).acq.checks.find? (fun y => y.running) = none ∧ (state_TheRotationAndItsSlots_carryHandover_3.calAt (0 : Nat)).pass = some (⟨16, 7, 6, [(1, ⟨5, 2 ^ 30 + 3, [], 0, 0, 400⟩)]⟩ : Pass) ∧ ((⟨16, 7, 6, [(1, ⟨5, 2 ^ 30 + 3, [], 0, 0, 400⟩)]⟩ : Pass).step = 7 ∧ (⟨16, 7, 6, [(1, ⟨5, 2 ^ 30 + 3, [], 0, 0, 400⟩)]⟩ : Pass).cause ≠ 0 ∧ (⟨16, 7, 6, [(1, ⟨5, 2 ^ 30 + 3, [], 0, 0, 400⟩)]⟩ : Pass).slice < 17 ∧ ((⟨16, 7, 6, [(1, ⟨5, 2 ^ 30 + 3, [], 0, 0, 400⟩)]⟩ : Pass).cause ≠ 7 ∨ (state_TheRotationAndItsSlots_carryHandover_3.calAt (0 : Nat)).limits.stepN = 0)) := by
  decide +kernel

/-- The state of the witness below. -/
def state_TheRotationAndItsSlots_carryHandover_4 : State :=
  { live with cal := { live.cal with grp := [(0, { readyCal with rotating := true, next := 16 })] }, grp := [(0, { Grp.init with acq := { Acq.init with checks := [⟨true, 3, 0, 9, true⟩] } })] }

theorem witness_TheRotationAndItsSlots_carryHandover_4 :
    (state_TheRotationAndItsSlots_carryHandover_4.grpRuns (0 : Nat) = true ∧ state_TheRotationAndItsSlots_carryHandover_4.rst.mgmtUp = true) ∧ (state_TheRotationAndItsSlots_carryHandover_4.grpAt (0 : Nat)).acq.checks.find? (fun y => y.running) = some (⟨true, 3, 0, 9, true⟩ : CheckReq) ∧ ((⟨true, 3, 0, 9, true⟩ : CheckReq).path = true ∧ (state_TheRotationAndItsSlots_carryHandover_4.grpAt (0 : Nat)).acq.spareRole ≠ .carry) := by
  decide +kernel

/-- The state of the witness below. -/
def state_TheRotationAndItsSlots_carryHandover_5 : State :=
  { live with cal := { live.cal with grp := [(0, { readyCal with rotating := true, next := 16 })] }, grp := [(0, { Grp.init with acq := { Acq.init with spareRole := .carry, spareTgt := 3 } })] }

theorem witness_TheRotationAndItsSlots_carryHandover_5 :
    (state_TheRotationAndItsSlots_carryHandover_5.grpRuns (0 : Nat) = true ∧ state_TheRotationAndItsSlots_carryHandover_5.rst.mgmtUp = true) ∧ (state_TheRotationAndItsSlots_carryHandover_5.grpAt (0 : Nat)).acq.checks.find? (fun y => y.running) = none ∧ ((state_TheRotationAndItsSlots_carryHandover_5.calAt (0 : Nat)).pass = none ∧ (state_TheRotationAndItsSlots_carryHandover_5.grpAt (0 : Nat)).acq.spareRole = .carry) := by
  decide +kernel

theorem witness_TheRotationAndItsSlots_carryHandover_6 :
    live.grpRuns (0 : Nat) = false ∨ live.rst.mgmtUp = false ∨ (live.grpAt (0 : Nat)).acq.checks.any (fun y => y.running && !y.path) = true ∧ (live.grpAt (0 : Nat)).acq.checks.all (fun y => !y.path) = true ∨ ((live.grpAt (0 : Nat)).acq.checks.all (fun y => !y.running) = true ∧ (((live.calAt (0 : Nat)).pass.map (fun x => x.step != 2 && x.step != 7)).getD ((live.grpAt (0 : Nat)).acq.spareRole != .carry)) = true) := by
  decide +kernel

/-- The state of the witness below. -/
def state_TheRotationAndItsSlots_patinaSetsComputed : State :=
  { live with cal := { live.cal with grp := [(0, { readyCal with rotating := true, pass := some ⟨3, 3, 0, []⟩, limits := live.calLimits })] } }

theorem witness_TheRotationAndItsSlots_patinaSetsComputed :
    (state_TheRotationAndItsSlots_patinaSetsComputed.grpRuns (0 : Nat) = true ∧ state_TheRotationAndItsSlots_patinaSetsComputed.rst.mgmtUp = true) ∧ (state_TheRotationAndItsSlots_patinaSetsComputed.calAt (0 : Nat)).pass = some (⟨3, 3, 0, []⟩ : Pass) ∧ ((⟨3, 3, 0, []⟩ : Pass).step = 3 ∧ (⟨3, 3, 0, []⟩ : Pass).cause = 0) ∧ ((0 : Nat) = (if ([(2, ⟨5, 2 ^ 30 + 3, [], 0, 0, 400⟩)] : List (Nat × Factors)).all (fun e => (state_TheRotationAndItsSlots_patinaSetsComputed.calAt (0 : Nat)).limits.band e.2) = false then 6 else if (⟨3, 3, 0, []⟩ : Pass).slice ∉ (state_TheRotationAndItsSlots_patinaSetsComputed.calAt (0 : Nat)).accepted ∧ ([(2, ⟨5, 2 ^ 30 + 3, [], 0, 0, 400⟩)] : List (Nat × Factors)) ≠ [] then 0 else if ([(2, ⟨5, 2 ^ 30 + 3, [], 0, 0, 400⟩)] : List (Nat × Factors)).all (fun e => (state_TheRotationAndItsSlots_patinaSetsComputed.calAt (0 : Nat)).limits.near e.2 ((state_TheRotationAndItsSlots_patinaSetsComputed.calAt (0 : Nat)).lastSet (8 * (⟨3, 3, 0, []⟩ : Pass).slice + e.1))) = true then 0 else 7)) := by
  decide +kernel

theorem witness_TheRotationAndItsSlots_patinaSetsComputed_2 :
    live.grpRuns (0 : Nat) = false ∨ live.rst.mgmtUp = false ∨ ((live.calAt (0 : Nat)).pass.map (fun x => x.step != 3 || x.cause != 0)).getD true = true := by
  decide +kernel

/-- The state of the witness below. -/
def state_EventLandsAndPersistentSluices_evtInEdge : State :=
  { live with fab := { live.fab with sel := [(0x1A0, 3), (0x1A4, 3)], masks := [(3, [0x907])] } }

theorem witness_EventLandsAndPersistentSluices_evtInEdge :
    ((7 : Nat) < 8 ∧ state_EventLandsAndPersistentSluices_evtInEdge.rst.ctrlUp = true ∧ tget false state_EventLandsAndPersistentSluices_evtInEdge.fab.evtIn (7 : Nat) ≠ true) ∧ state_EventLandsAndPersistentSluices_evtInEdge.fab.raised = [] ∧ ((4 : Nat) < 32 ∧ (3 : Nat) < 256) ∧ state_EventLandsAndPersistentSluices_evtInEdge.fab.sel.filter (fun e => e.1 == 0x1A0 + (4 : Nat)) = [(0x1A0 + (4 : Nat), (3 : Nat))] ∧ tget [] state_EventLandsAndPersistentSluices_evtInEdge.fab.masks (3 : Nat) = [0x900 + (7 : Nat)] := by
  decide +kernel

/-- The state of the witness below. -/
def state_EventLandsAndPersistentSluices_evtInEdge_2 : State :=
  { live with fab := { live.fab with sel := [(0x191, 3)], masks := [(3, [0x907])] } }

theorem witness_EventLandsAndPersistentSluices_evtInEdge_2 :
    ((7 : Nat) < 8 ∧ state_EventLandsAndPersistentSluices_evtInEdge_2.rst.ctrlUp = true ∧ tget false state_EventLandsAndPersistentSluices_evtInEdge_2.fab.evtIn (7 : Nat) ≠ true) ∧ state_EventLandsAndPersistentSluices_evtInEdge_2.fab.raised = [] ∧ ((1 : Nat) < 8 ∧ (3 : Nat) < 256) ∧ state_EventLandsAndPersistentSluices_evtInEdge_2.fab.sel.filter (fun e => e.1 == 0x190 + (1 : Nat)) = [(0x190 + (1 : Nat), (3 : Nat))] ∧ tget [] state_EventLandsAndPersistentSluices_evtInEdge_2.fab.masks (3 : Nat) = [0x900 + (7 : Nat)] := by
  decide +kernel

theorem witness_EventLandsAndPersistentSluices_evtInEdge_3 :
    ((7 : Nat) < 8 ∧ live.rst.ctrlUp = true ∧ tget false live.fab.evtIn (7 : Nat) ≠ true) ∧ live.fab.raised = [] := by
  decide +kernel

theorem witness_EventLandsAndPersistentSluices_evtInEdge_4 :
    8 ≤ (7 : Nat) ∨ live.rst.ctrlUp = false ∨ tget false live.fab.evtIn (7 : Nat) = false := by
  decide +kernel

theorem witness_EventLandsAndPersistentSluices_persist :
    ((255 : Nat) < 256 ∧ live.rst.ctrlUp = true ∧ live.rst.dataUp = true) ∧ (tget 0#32 live.fab.persist ((255 : Nat) / 32)).getLsbD ((255 : Nat) % 32) = false ∧ live.err.ring.length < 4096 ∧ live.err.ring.all (fun e => e.body.code != 0x4801#16) = true := by
  decide +kernel

/-- The state of the witness below. -/
def state_EventLandsAndPersistentSluices_persist_2 : State :=
  { live with rst := { live.rst with dataUp := false } }

theorem witness_EventLandsAndPersistentSluices_persist_2 :
    ((32 : Nat) < 256 ∧ state_EventLandsAndPersistentSluices_persist_2.rst.ctrlUp = true) ∧ (tget 0#32 state_EventLandsAndPersistentSluices_persist_2.fab.persist ((32 : Nat) / 32)).getLsbD ((32 : Nat) % 32) = false := by
  decide +kernel

/-- The state of the witness below. -/
def state_EventLandsAndPersistentSluices_persist_3 : State :=
  { live with fab := { live.fab with persist := [(1, 1)] } }

theorem witness_EventLandsAndPersistentSluices_persist_3 :
    256 ≤ (32 : Nat) ∨ state_EventLandsAndPersistentSluices_persist_3.rst.ctrlUp = false ∨ (tget 0#32 state_EventLandsAndPersistentSluices_persist_3.fab.persist ((32 : Nat) / 32)).getLsbD ((32 : Nat) % 32) = true := by
  decide +kernel

/-- The state of the witness below. -/
def state_EventLandsAndPersistentSluices_evtOutPulseEnd : State :=
  { live with fab := { live.fab with evtOut := [(7, ⟨true, true⟩)] } }

theorem witness_EventLandsAndPersistentSluices_evtOutPulseEnd :
    ((7 : Nat) < 8 ∧ (tget EvtOut.init state_EventLandsAndPersistentSluices_evtOutPulseEnd.fab.evtOut (7 : Nat)).pulse = true) ∧ state_EventLandsAndPersistentSluices_evtOutPulseEnd.fab.raised = [] := by
  decide +kernel

theorem witness_EventLandsAndPersistentSluices_evtOutPulseEnd_2 :
    (8 ≤ (7 : Nat) ∨ (tget EvtOut.init live.fab.evtOut (7 : Nat)).pulse = false) ∧ live.fab.raised = [] := by
  decide +kernel

/-- The state of the witness below. -/
def state_FramesOfThePartnerAct_heartbeatSend : State :=
  { live with twin := { live.twin with role := .active, link := .up, train := .up, seated := 0xFFFF, aliveIn := true }, rst := { live.rst with strap := 8 }, que := { live.que with q := [(64, { Queue.init with next := 4 })] } }

theorem witness_FramesOfThePartnerAct_heartbeatSend :
    state_FramesOfThePartnerAct_heartbeatSend.rst.ctrlUp = true ∧ state_FramesOfThePartnerAct_heartbeatSend.twin.train = .up := by
  decide +kernel

theorem witness_FramesOfThePartnerAct_heartbeatSend_2 :
    live.rst.ctrlUp = false ∨ live.twin.train ≠ .up := by
  decide +kernel

/-- The state of the witness below. -/
def state_FramesOfThePartnerAct_stateSend : State :=
  { live with twin := { live.twin with role := .active, link := .up, train := .up, seated := 0xFFFF, aliveIn := true }, rst := { live.rst with strap := 8 }, que := { live.que with q := [(64, { Queue.init with next := 4 })] } }

theorem witness_FramesOfThePartnerAct_stateSend :
    state_FramesOfThePartnerAct_stateSend.leads = true ∧ state_FramesOfThePartnerAct_stateSend.grpRuns (15 : Nat) = true := by
  decide +kernel

theorem witness_FramesOfThePartnerAct_stateSend_2 :
    live.leads = false ∨ live.grpRuns (15 : Nat) = false := by
  decide +kernel

/-- The state of the witness below. -/
def state_FramesOfThePartnerAct_state : State :=
  { live with twin := { live.twin with role := .standby, link := .up, train := .up, aliveIn := true }, rst := { live.rst with strap := 8 } }

theorem witness_FramesOfThePartnerAct_state :
    (state_FramesOfThePartnerAct_state.rst.ctrlUp = true ∧ state_FramesOfThePartnerAct_state.twin.train = .up ∧ state_FramesOfThePartnerAct_state.twin.role = .standby) ∧ (state_FramesOfThePartnerAct_state.hasGrp (15 : Nat) = true ∧ (List.replicate 8 ⟨0x60000000, 0, 0, 0, [0, 0, 0, 0], 0⟩ : List ChanRec).length = 8) := by
  decide +kernel

theorem witness_FramesOfThePartnerAct_state_2 :
    live.rst.ctrlUp = false ∨ live.twin.train ≠ .up ∨ live.twin.role ≠ .standby ∨ live.hasGrp (15 : Nat) = false ∨ (List.replicate 8 ⟨0x60000000, 0, 0, 0, [0, 0, 0, 0], 0⟩ : List ChanRec).length ≠ 8 := by
  decide +kernel

/-- The state of the witness below. -/
def state_FramesOfThePartnerAct_runner : State :=
  { placed with twin := { placed.twin with role := .standby, link := .up, train := .up, aliveIn := true }, rst := { placed.rst with strap := 8 } }

theorem witness_FramesOfThePartnerAct_runner :
    (state_FramesOfThePartnerAct_runner.rst.ctrlUp = true ∧ state_FramesOfThePartnerAct_runner.twin.train = .up ∧ state_FramesOfThePartnerAct_runner.twin.role = .standby) ∧ state_FramesOfThePartnerAct_runner.twin.rxAcked.all (fun z => seqLt z (5 : Word)) = true ∧ state_FramesOfThePartnerAct_runner.runnerFig (⟨0, 1, 0, 0, 3, 0, 44⟩ : RunnerRec) = some (5 : Nat) ∧ ((⟨0, 1, 0, 0, 3, 0, 44⟩ : RunnerRec).run ≠ 3 ∨ ptOf (⟨0, 1, 0, 0, 3, 0, 44⟩ : RunnerRec).pstate = .pending) := by
  decide +kernel

/-- The state of the witness below. -/
def state_FramesOfThePartnerAct_runner_2 : State :=
  { placed with twin := { placed.twin with role := .standby, link := .up, train := .up, aliveIn := true }, rst := { placed.rst with strap := 8 } }

theorem witness_FramesOfThePartnerAct_runner_2 :
    (state_FramesOfThePartnerAct_runner_2.rst.ctrlUp = true ∧ state_FramesOfThePartnerAct_runner_2.twin.train = .up ∧ state_FramesOfThePartnerAct_runner_2.twin.role = .standby) ∧ state_FramesOfThePartnerAct_runner_2.twin.rxAcked.all (fun z => seqLt z (5 : Word)) = true ∧ state_FramesOfThePartnerAct_runner_2.runnerFig (⟨0, 3, 6, 3, 3, 5, 44⟩ : RunnerRec) = some (5 : Nat) ∧ ((⟨0, 3, 6, 3, 3, 5, 44⟩ : RunnerRec).run = 3 ∧ ptOf (⟨0, 3, 6, 3, 3, 5, 44⟩ : RunnerRec).pstate ≠ .pending) ∧ ((0 : BitVec 256) = tget 0#256 state_FramesOfThePartnerAct_runner_2.sets.cast.sweep (⟨0, 3, 6, 3, 3, 5, 44⟩ : RunnerRec).point ∧ true = (ptOf (⟨0, 3, 6, 3, 3, 5, 44⟩ : RunnerRec).pstate != .placed)) := by
  decide +kernel

/-- The state of the witness below. -/
def state_FramesOfThePartnerAct_runner_3 : State :=
  { live with twin := { live.twin with role := .standby, link := .up, train := .up, aliveIn := true, rxAcked := some 0xFFFFFFFF }, rst := { live.rst with strap := 8 } }

theorem witness_FramesOfThePartnerAct_runner_3 :
    (state_FramesOfThePartnerAct_runner_3.rst.ctrlUp = true ∧ state_FramesOfThePartnerAct_runner_3.twin.train = .up ∧ state_FramesOfThePartnerAct_runner_3.twin.role = .standby) ∧ state_FramesOfThePartnerAct_runner_3.twin.rxAcked.all (fun z => seqLt z (0 : Word)) = true ∧ state_FramesOfThePartnerAct_runner_3.runnerFig (⟨0, 1, 0, 0, 3, 0, 44⟩ : RunnerRec) = none := by
  decide +kernel

/-- The state of the witness below. -/
def state_FramesOfThePartnerAct_runner_4 : State :=
  { live with twin := { live.twin with role := .standby, link := .up, train := .up, aliveIn := true, rxAcked := some 5 }, rst := { live.rst with strap := 8 } }

theorem witness_FramesOfThePartnerAct_runner_4 :
    state_FramesOfThePartnerAct_runner_4.rst.ctrlUp = false ∨ state_FramesOfThePartnerAct_runner_4.twin.train ≠ .up ∨ state_FramesOfThePartnerAct_runner_4.twin.rxAcked.all (fun z => seqLt z (5 : Word)) = false ∨ state_FramesOfThePartnerAct_runner_4.twin.role ≠ .standby := by
  decide +kernel

/-- The state of the witness below. -/
def state_FramesOfThePartnerAct_commitFrame : State :=
  { live with twin := { live.twin with role := .standby, link := .up, train := .up, aliveIn := true }, rst := { live.rst with strap := 8 } }

theorem witness_FramesOfThePartnerAct_commitFrame :
    (state_FramesOfThePartnerAct_commitFrame.rst.ctrlUp = true ∧ state_FramesOfThePartnerAct_commitFrame.twin.train = .up ∧ state_FramesOfThePartnerAct_commitFrame.twin.role = .standby) ∧ state_FramesOfThePartnerAct_commitFrame.twin.rxAcked.all (fun z => seqLt z (1 : Word)) = true ∧ (([(64, ⟨4, 2⟩), (65, ⟨9, 9⟩)] : List (Nat × QueAnn)).map (fun e => e.1)).Nodup := by
  decide +kernel

/-- The state of the witness below. -/
def state_FramesOfThePartnerAct_commitFrame_2 : State :=
  { live with twin := { live.twin with role := .standby, link := .up, train := .up, aliveIn := true, rxAcked := some 5 }, rst := { live.rst with strap := 8 } }

theorem witness_FramesOfThePartnerAct_commitFrame_2 :
    state_FramesOfThePartnerAct_commitFrame_2.rst.ctrlUp = false ∨ state_FramesOfThePartnerAct_commitFrame_2.twin.train ≠ .up ∨ state_FramesOfThePartnerAct_commitFrame_2.twin.rxAcked.all (fun z => seqLt z (5 : Word)) = false ∨ state_FramesOfThePartnerAct_commitFrame_2.twin.role ≠ .standby := by
  decide +kernel

/-- The state of the witness below. -/
def state_FramesOfThePartnerAct_tripFrame : State :=
  { placed with twin := { placed.twin with role := .standby, link := .up, train := .up, aliveIn := true }, rst := { placed.rst with strap := 8 } }

theorem witness_FramesOfThePartnerAct_tripFrame :
    (state_FramesOfThePartnerAct_tripFrame.rst.ctrlUp = true ∧ state_FramesOfThePartnerAct_tripFrame.twin.train = .up ∧ state_FramesOfThePartnerAct_tripFrame.twin.role = .standby) ∧ state_FramesOfThePartnerAct_tripFrame.twin.rxAcked.all (fun z => seqLt z (9 : Word)) = true ∧ ({ TripRec.init with fig := 5, port := 0, seq := 3, cause := 0x10, members := 3 } : TripRec).detail.getLsbD 5 = false := by
  decide +kernel

/-- The state of the witness below. -/
def state_FramesOfThePartnerAct_tripFrame_2 : State :=
  { placed with twin := { placed.twin with role := .standby, link := .up, train := .up, aliveIn := true }, rst := { placed.rst with strap := 8 } }

theorem witness_FramesOfThePartnerAct_tripFrame_2 :
    (state_FramesOfThePartnerAct_tripFrame_2.rst.ctrlUp = true ∧ state_FramesOfThePartnerAct_tripFrame_2.twin.train = .up ∧ state_FramesOfThePartnerAct_tripFrame_2.twin.role = .standby) ∧ state_FramesOfThePartnerAct_tripFrame_2.twin.rxAcked.all (fun z => seqLt z (9 : Word)) = true ∧ ({ TripRec.init with fig := 5, port := 0, seq := 3, detail := 0x20, code := 77 } : TripRec).detail.getLsbD 5 = true := by
  decide +kernel

/-- The state of the witness below. -/
def state_FramesOfThePartnerAct_tripFrame_3 : State :=
  { live with twin := { live.twin with role := .standby, link := .up, train := .up, aliveIn := true }, rst := { live.rst with strap := 8 }, sp := [(9, { Sp.init with force := { Force.init with out := .tripped }, sup := { Sup.init with tripped := true, cause := 0x1000 } })] }

theorem witness_FramesOfThePartnerAct_tripFrame_3 :
    (state_FramesOfThePartnerAct_tripFrame_3.rst.ctrlUp = true ∧ state_FramesOfThePartnerAct_tripFrame_3.twin.train = .up ∧ state_FramesOfThePartnerAct_tripFrame_3.twin.role = .standby) ∧ state_FramesOfThePartnerAct_tripFrame_3.twin.rxAcked.all (fun z => seqLt z (1 : Word)) = true := by
  decide +kernel

/-- The state of the witness below. -/
def state_FramesOfThePartnerAct_tripFrame_4 : State :=
  { live with twin := { live.twin with role := .standby, link := .up, train := .up, aliveIn := true }, rst := { live.rst with strap := 8 }, sp := [(9, { Sp.init with sup := { Sup.init with mon := [{ Mon.init with latch := true }, { Mon.init with latch := true }] } })] }

theorem witness_FramesOfThePartnerAct_tripFrame_4 :
    (state_FramesOfThePartnerAct_tripFrame_4.rst.ctrlUp = true ∧ state_FramesOfThePartnerAct_tripFrame_4.twin.train = .up ∧ state_FramesOfThePartnerAct_tripFrame_4.twin.role = .standby) ∧ state_FramesOfThePartnerAct_tripFrame_4.twin.rxAcked.all (fun z => seqLt z (1 : Word)) = true := by
  decide +kernel

/-- The state of the witness below. -/
def state_FramesOfThePartnerAct_tripFrame_5 : State :=
  { live with twin := { live.twin with role := .standby, link := .up, train := .up, aliveIn := true }, rst := { live.rst with strap := 8 }, sp := [(9, { Sp.init with sup := { Sup.init with held := true } })] }

theorem witness_FramesOfThePartnerAct_tripFrame_5 :
    (state_FramesOfThePartnerAct_tripFrame_5.rst.ctrlUp = true ∧ state_FramesOfThePartnerAct_tripFrame_5.twin.train = .up ∧ state_FramesOfThePartnerAct_tripFrame_5.twin.role = .standby) ∧ state_FramesOfThePartnerAct_tripFrame_5.twin.rxAcked.all (fun z => seqLt z (1 : Word)) = true := by
  decide +kernel

/-- The state of the witness below. -/
def state_FramesOfThePartnerAct_tripFrame_6 : State :=
  { live with twin := { live.twin with role := .standby, link := .up, train := .up, aliveIn := true, rxAcked := some 5 }, rst := { live.rst with strap := 8 } }

theorem witness_FramesOfThePartnerAct_tripFrame_6 :
    state_FramesOfThePartnerAct_tripFrame_6.rst.ctrlUp = false ∨ state_FramesOfThePartnerAct_tripFrame_6.twin.train ≠ .up ∨ state_FramesOfThePartnerAct_tripFrame_6.twin.rxAcked.all (fun z => seqLt z (5 : Word)) = false ∨ state_FramesOfThePartnerAct_tripFrame_6.twin.role ≠ .standby := by
  decide +kernel

/-- The state of the witness below. -/
def state_FramesOfThePartnerAct_maq : State :=
  { live with twin := { live.twin with role := .standby, link := .up, train := .up, aliveIn := true }, rst := { live.rst with strap := 8 } }

theorem witness_FramesOfThePartnerAct_maq :
    (state_FramesOfThePartnerAct_maq.rst.ctrlUp = true ∧ state_FramesOfThePartnerAct_maq.twin.train = .up ∧ state_FramesOfThePartnerAct_maq.twin.role = .standby) ∧ state_FramesOfThePartnerAct_maq.twin.rxAcked.all (fun z => seqLt z (1 : Word)) = true := by
  decide +kernel

/-- The state of the witness below. -/
def state_FramesOfThePartnerAct_maq_2 : State :=
  { live with twin := { live.twin with role := .standby, link := .up, train := .up, aliveIn := true, rxAcked := some 5 }, rst := { live.rst with strap := 8 } }

theorem witness_FramesOfThePartnerAct_maq_2 :
    state_FramesOfThePartnerAct_maq_2.rst.ctrlUp = false ∨ state_FramesOfThePartnerAct_maq_2.twin.train ≠ .up ∨ state_FramesOfThePartnerAct_maq_2.twin.rxAcked.all (fun z => seqLt z (5 : Word)) = false ∨ state_FramesOfThePartnerAct_maq_2.twin.role ≠ .standby := by
  decide +kernel

/-- The state of the witness below. -/
def state_FramesOfThePartnerAct_sync : State :=
  { live with twin := { live.twin with role := .standby, link := .up, train := .up, aliveIn := true, resync := true }, rst := { live.rst with strap := 8 } }

theorem witness_FramesOfThePartnerAct_sync :
    (state_FramesOfThePartnerAct_sync.rst.ctrlUp = true ∧ state_FramesOfThePartnerAct_sync.twin.train = .up ∧ state_FramesOfThePartnerAct_sync.twin.role = .standby) ∧ state_FramesOfThePartnerAct_sync.twin.rxAcked.all (fun z => seqLt z (1 : Word)) = true := by
  decide +kernel

/-- The state of the witness below. -/
def state_FramesOfThePartnerAct_sync_2 : State :=
  { live with twin := { live.twin with role := .standby, link := .up, train := .up, aliveIn := true, rxAcked := some 5 }, rst := { live.rst with strap := 8 } }

theorem witness_FramesOfThePartnerAct_sync_2 :
    state_FramesOfThePartnerAct_sync_2.rst.ctrlUp = false ∨ state_FramesOfThePartnerAct_sync_2.twin.train ≠ .up ∨ state_FramesOfThePartnerAct_sync_2.twin.rxAcked.all (fun z => seqLt z (5 : Word)) = false ∨ state_FramesOfThePartnerAct_sync_2.twin.role ≠ .standby := by
  decide +kernel

/-- The state of the witness below. -/
def state_FramesOfThePartnerAct_unveilFrame : State :=
  { live with twin := { live.twin with role := .standby, link := .up, train := .up, aliveIn := true }, rst := { live.rst with strap := 8 } }

theorem witness_FramesOfThePartnerAct_unveilFrame :
    (state_FramesOfThePartnerAct_unveilFrame.rst.ctrlUp = true ∧ state_FramesOfThePartnerAct_unveilFrame.twin.train = .up ∧ state_FramesOfThePartnerAct_unveilFrame.twin.role = .standby) ∧ state_FramesOfThePartnerAct_unveilFrame.twin.rxAcked.all (fun z => seqLt z (1 : Word)) = true := by
  decide +kernel

theorem witness_FramesOfThePartnerAct_unveilFrame_2 :
    live.rst.ctrlUp = false ∨ live.twin.train ≠ .up ∨ live.twin.rxAcked.all (fun z => seqLt z (1 : Word)) = false ∨ live.twin.role ≠ .standby := by
  decide +kernel

/-- The state of the witness below. -/
def state_FramesOfThePartnerAct_controlFrame : State :=
  { live with twin := { live.twin with role := .standby, link := .up, train := .up, aliveIn := true }, rst := { live.rst with strap := 8 } }

theorem witness_FramesOfThePartnerAct_controlFrame :
    (state_FramesOfThePartnerAct_controlFrame.rst.ctrlUp = true ∧ state_FramesOfThePartnerAct_controlFrame.twin.train = .up) ∧ state_FramesOfThePartnerAct_controlFrame.twin.rxAcked.all (fun z => seqLt z (1 : Word)) = true := by
  decide +kernel

/-- The state of the witness below. -/
def state_FramesOfThePartnerAct_controlFrame_2 : State :=
  { live with twin := { live.twin with role := .standby, link := .up, train := .up, aliveIn := true }, rst := { live.rst with strap := 8 } }

theorem witness_FramesOfThePartnerAct_controlFrame_2 :
    (state_FramesOfThePartnerAct_controlFrame_2.rst.ctrlUp = true ∧ state_FramesOfThePartnerAct_controlFrame_2.twin.train = .up) ∧ state_FramesOfThePartnerAct_controlFrame_2.twin.rxAcked.all (fun z => seqLt z (1 : Word)) = true := by
  decide +kernel

/-- The state of the witness below. -/
def state_FramesOfThePartnerAct_controlFrame_3 : State :=
  { placed with twin := { placed.twin with role := .standby, link := .up, train := .up, aliveIn := true }, rst := { placed.rst with strap := 8 } }

theorem witness_FramesOfThePartnerAct_controlFrame_3 :
    (state_FramesOfThePartnerAct_controlFrame_3.rst.ctrlUp = true ∧ state_FramesOfThePartnerAct_controlFrame_3.twin.train = .up) ∧ state_FramesOfThePartnerAct_controlFrame_3.twin.rxAcked.all (fun z => seqLt z (1 : Word)) = true := by
  decide +kernel

/-- The state of the witness below. -/
def state_FramesOfThePartnerAct_controlFrame_4 : State :=
  { live with twin := { live.twin with role := .standby, link := .up, train := .up, aliveIn := true, rxAcked := some 5 }, rst := { live.rst with strap := 8 } }

theorem witness_FramesOfThePartnerAct_controlFrame_4 :
    state_FramesOfThePartnerAct_controlFrame_4.rst.ctrlUp = false ∨ state_FramesOfThePartnerAct_controlFrame_4.twin.train ≠ .up ∨ state_FramesOfThePartnerAct_controlFrame_4.twin.rxAcked.all (fun z => seqLt z (5 : Word)) = false := by
  decide +kernel

/-- The state of the witness below. -/
def state_TheCosynLinkTrains_trainAttemptStart : State :=
  { live with twin := { live.twin with role := .detached, link := .down, rev := true, pol := 3 }, rst := { live.rst with strap := 8 } }

theorem witness_TheCosynLinkTrains_trainAttemptStart :
    (state_TheCosynLinkTrains_trainAttemptStart.rst.ctrlUp = true ∧ state_TheCosynLinkTrains_trainAttemptStart.pairStrap = true) ∧ (state_TheCosynLinkTrains_trainAttemptStart.twin.trying = false ∧ (state_TheCosynLinkTrains_trainAttemptStart.twin.train = .idle ∨ state_TheCosynLinkTrains_trainAttemptStart.twin.train = .detect)) := by
  decide +kernel

theorem witness_TheCosynLinkTrains_trainAttemptStart_2 :
    live.rst.ctrlUp = false ∨ live.pairStrap = false ∨ live.twin.trying = true ∨ (live.twin.train ≠ .idle ∧ live.twin.train ≠ .detect) := by
  decide +kernel

/-- The state of the witness below. -/
def state_TheCosynLinkTrains_trainStateDone : State :=
  { live with twin := { live.twin with trying := true, train := .detect }, rst := { live.rst with strap := 8 } }

theorem witness_TheCosynLinkTrains_trainStateDone :
    (state_TheCosynLinkTrains_trainStateDone.rst.ctrlUp = true ∧ state_TheCosynLinkTrains_trainStateDone.twin.trying = true) ∧ state_TheCosynLinkTrains_trainStateDone.twin.train = .detect := by
  decide +kernel

/-- The state of the witness below. -/
def state_TheCosynLinkTrains_trainStateDone_2 : State :=
  { live with twin := { live.twin with trying := true, train := .lock }, rst := { live.rst with strap := 8 } }

theorem witness_TheCosynLinkTrains_trainStateDone_2 :
    (state_TheCosynLinkTrains_trainStateDone_2.rst.ctrlUp = true ∧ state_TheCosynLinkTrains_trainStateDone_2.twin.trying = true) ∧ state_TheCosynLinkTrains_trainStateDone_2.twin.train = .lock := by
  decide +kernel

/-- The state of the witness below. -/
def state_TheCosynLinkTrains_trainStateDone_3 : State :=
  { live with twin := { live.twin with trying := true, train := .order }, rst := { live.rst with strap := 8 } }

theorem witness_TheCosynLinkTrains_trainStateDone_3 :
    (state_TheCosynLinkTrains_trainStateDone_3.rst.ctrlUp = true ∧ state_TheCosynLinkTrains_trainStateDone_3.twin.trying = true ∧ state_TheCosynLinkTrains_trainStateDone_3.twin.train = .order) ∧ (([3, 2, 1, 0] : List Nat) = [0, 1, 2, 3] ∨ ([3, 2, 1, 0] : List Nat) = [3, 2, 1, 0]) := by
  decide +kernel

/-- The state of the witness below. -/
def state_TheCosynLinkTrains_trainStateDone_4 : State :=
  { live with twin := { live.twin with role := .negotiating, link := .training, trying := true, train := .order }, rst := { live.rst with strap := 8 } }

theorem witness_TheCosynLinkTrains_trainStateDone_4 :
    (state_TheCosynLinkTrains_trainStateDone_4.rst.ctrlUp = true ∧ state_TheCosynLinkTrains_trainStateDone_4.twin.trying = true ∧ state_TheCosynLinkTrains_trainStateDone_4.twin.train = .order) ∧ (([1, 0, 2, 3] : List Nat) ≠ [0, 1, 2, 3] ∧ ([1, 0, 2, 3] : List Nat) ≠ [3, 2, 1, 0]) ∧ (state_TheCosynLinkTrains_trainStateDone_4.twin.attempts < 2 ∧ (state_TheCosynLinkTrains_trainStateDone_4.roleSettled = false ∨ state_TheCosynLinkTrains_trainStateDone_4.twin.attachBusy = true)) := by
  decide +kernel

/-- The state of the witness below. -/
def state_TheCosynLinkTrains_trainStateDone_5 : State :=
  { live with twin := { live.twin with role := .negotiating, link := .training, trying := true, train := .order, attempts := 2 }, rst := { live.rst with strap := 8 } }

theorem witness_TheCosynLinkTrains_trainStateDone_5 :
    (state_TheCosynLinkTrains_trainStateDone_5.rst.ctrlUp = true ∧ state_TheCosynLinkTrains_trainStateDone_5.twin.trying = true ∧ state_TheCosynLinkTrains_trainStateDone_5.twin.train = .order) ∧ (([1, 0, 2, 3] : List Nat) ≠ [0, 1, 2, 3] ∧ ([1, 0, 2, 3] : List Nat) ≠ [3, 2, 1, 0]) ∧ (2 ≤ state_TheCosynLinkTrains_trainStateDone_5.twin.attempts ∨ (state_TheCosynLinkTrains_trainStateDone_5.roleSettled = true ∧ state_TheCosynLinkTrains_trainStateDone_5.twin.attachBusy = false)) ∧ (true = (2 ≤ state_TheCosynLinkTrains_trainStateDone_5.twin.attempts && !state_TheCosynLinkTrains_trainStateDone_5.twin.aliveIn) ∧ true = (true && !state_TheCosynLinkTrains_trainStateDone_5.roleSettled)) ∧ ((.down : Link) = (if state_TheCosynLinkTrains_trainStateDone_5.twin.aliveIn = true ∧ state_TheCosynLinkTrains_trainStateDone_5.twin.role ≠ .detached ∧ state_TheCosynLinkTrains_trainStateDone_5.pairStrap = true then .split else .down)) ∧ (true = false ∨ state_TheCosynLinkTrains_trainStateDone_5.host.outst.any (fun y => y.opcode == 0x0903) = false) := by
  decide +kernel

theorem witness_TheCosynLinkTrains_trainStateDone_6 :
    live.rst.ctrlUp = false ∨ live.twin.trying = false ∨ live.twin.train = .idle ∨ live.twin.train = .config ∨ live.twin.train = .up := by
  decide +kernel

/-- The state of the witness below. -/
def state_TheCosynLinkTrains_config : State :=
  { live with twin := { live.twin with role := .negotiating, link := .training, trying := true, train := .config }, rst := { live.rst with strap := 8 } }

theorem witness_TheCosynLinkTrains_config :
    (state_TheCosynLinkTrains_config.rst.ctrlUp = true ∧ state_TheCosynLinkTrains_config.twin.trying = true ∧ state_TheCosynLinkTrains_config.twin.train = .config) ∧ ((⟨0x7128, 2, 99, 2, (live.live 0x15C 0).toNat, 0, 0, 0, 3000⟩ : ConfigMsg).part = partCode state_TheCosynLinkTrains_config.ident.part ∧ (⟨0x7128, 2, 99, 2, (live.live 0x15C 0).toNat, 0, 0, 0, 3000⟩ : ConfigMsg).major = 2 ∧ (⟨0x7128, 2, 99, 2, (live.live 0x15C 0).toNat, 0, 0, 0, 3000⟩ : ConfigMsg).serial ≠ state_TheCosynLinkTrains_config.ident.serial ∧ (⟨0x7128, 2, 99, 2, (live.live 0x15C 0).toNat, 0, 0, 0, 3000⟩ : ConfigMsg).latency ≤ 3000) ∧ state_TheCosynLinkTrains_config.winsRole (⟨0x7128, 2, 99, 2, (live.live 0x15C 0).toNat, 0, 0, 0, 3000⟩ : ConfigMsg) (⟨0x7128, 2, 99, 2, (live.live 0x15C 0).toNat, 0, 0, 0, 3000⟩ : ConfigMsg).seated = true := by
  decide +kernel

/-- The state of the witness below. -/
def state_TheCosynLinkTrains_config_2 : State :=
  { placed with twin := { placed.twin with role := .negotiating, link := .training, trying := true, train := .config }, rst := { placed.rst with strap := 8 } }

theorem witness_TheCosynLinkTrains_config_2 :
    (state_TheCosynLinkTrains_config_2.rst.ctrlUp = true ∧ state_TheCosynLinkTrains_config_2.twin.trying = true ∧ state_TheCosynLinkTrains_config_2.twin.train = .config) ∧ ((⟨0x7128, 2, 0, 1, 0, 0, 0, 0, 0⟩ : ConfigMsg).part = partCode state_TheCosynLinkTrains_config_2.ident.part ∧ (⟨0x7128, 2, 0, 1, 0, 0, 0, 0, 0⟩ : ConfigMsg).major = 2 ∧ (⟨0x7128, 2, 0, 1, 0, 0, 0, 0, 0⟩ : ConfigMsg).serial ≠ state_TheCosynLinkTrains_config_2.ident.serial ∧ (⟨0x7128, 2, 0, 1, 0, 0, 0, 0, 0⟩ : ConfigMsg).latency ≤ 3000) ∧ state_TheCosynLinkTrains_config_2.winsRole (⟨0x7128, 2, 0, 1, 0, 0, 0, 0, 0⟩ : ConfigMsg) (⟨0x7128, 2, 0, 1, 0, 0, 0, 0, 0⟩ : ConfigMsg).seated = false := by
  decide +kernel

/-- The state of the witness below. -/
def state_TheCosynLinkTrains_config_3 : State :=
  { live with twin := { live.twin with role := .negotiating, link := .training, trying := true, train := .config, attachBusy := true }, rst := { live.rst with strap := 8 }, host := { live.host with outst := [⟨0, false, 0x0903, 9, 0, 0, 0, 0, 0, 0⟩] } }

theorem witness_TheCosynLinkTrains_config_3 :
    (state_TheCosynLinkTrains_config_3.rst.ctrlUp = true ∧ state_TheCosynLinkTrains_config_3.twin.trying = true ∧ state_TheCosynLinkTrains_config_3.twin.train = .config) ∧ ((⟨0x7128, 2, 0, 1, 0, 0, 0, 0, 0⟩ : ConfigMsg).part = partCode state_TheCosynLinkTrains_config_3.ident.part ∧ (⟨0x7128, 2, 0, 1, 0, 0, 0, 0, 0⟩ : ConfigMsg).major = 2 ∧ (⟨0x7128, 2, 0, 1, 0, 0, 0, 0, 0⟩ : ConfigMsg).serial ≠ state_TheCosynLinkTrains_config_3.ident.serial ∧ (⟨0x7128, 2, 0, 1, 0, 0, 0, 0, 0⟩ : ConfigMsg).latency ≤ 3000) ∧ state_TheCosynLinkTrains_config_3.host.outst.filter (fun y => y.opcode == 0x0903) = [(⟨0, false, 0x0903, 9, 0, 0, 0, 0, 0, 0⟩ : Outstanding)] ∧ state_TheCosynLinkTrains_config_3.host.outst.all (fun y => y.opcode != 0x0A02 && y.opcode != 0x0704) = true := by
  decide +kernel

/-- The state of the witness below. -/
def state_TheCosynLinkTrains_config_4 : State :=
  { live with twin := { live.twin with role := .negotiating, link := .training, trying := true, train := .config }, rst := { live.rst with strap := 8 } }

theorem witness_TheCosynLinkTrains_config_4 :
    (state_TheCosynLinkTrains_config_4.rst.ctrlUp = true ∧ state_TheCosynLinkTrains_config_4.twin.trying = true ∧ state_TheCosynLinkTrains_config_4.twin.train = .config) ∧ ((⟨0x7164, 2, 99, 1, 0, 0, 0, 0, 3001⟩ : ConfigMsg).part ≠ partCode state_TheCosynLinkTrains_config_4.ident.part ∨ (⟨0x7164, 2, 99, 1, 0, 0, 0, 0, 3001⟩ : ConfigMsg).major ≠ 2 ∨ (⟨0x7164, 2, 99, 1, 0, 0, 0, 0, 3001⟩ : ConfigMsg).serial = state_TheCosynLinkTrains_config_4.ident.serial ∨ 3000 < (⟨0x7164, 2, 99, 1, 0, 0, 0, 0, 3001⟩ : ConfigMsg).latency) ∧ (state_TheCosynLinkTrains_config_4.twin.attempts < 2 ∧ (state_TheCosynLinkTrains_config_4.roleSettled = false ∨ state_TheCosynLinkTrains_config_4.twin.attachBusy = true)) := by
  decide +kernel

/-- The state of the witness below. -/
def state_TheCosynLinkTrains_config_5 : State :=
  { live with twin := { live.twin with role := .negotiating, link := .training, trying := true, train := .config, attempts := 2 }, rst := { live.rst with strap := 8 } }

theorem witness_TheCosynLinkTrains_config_5 :
    (state_TheCosynLinkTrains_config_5.rst.ctrlUp = true ∧ state_TheCosynLinkTrains_config_5.twin.trying = true ∧ state_TheCosynLinkTrains_config_5.twin.train = .config) ∧ ((⟨0x7164, 2, 99, 1, 0, 0, 0, 0, 3001⟩ : ConfigMsg).part ≠ partCode state_TheCosynLinkTrains_config_5.ident.part ∨ (⟨0x7164, 2, 99, 1, 0, 0, 0, 0, 3001⟩ : ConfigMsg).major ≠ 2 ∨ (⟨0x7164, 2, 99, 1, 0, 0, 0, 0, 3001⟩ : ConfigMsg).serial = state_TheCosynLinkTrains_config_5.ident.serial ∨ 3000 < (⟨0x7164, 2, 99, 1, 0, 0, 0, 0, 3001⟩ : ConfigMsg).latency) ∧ (2 ≤ state_TheCosynLinkTrains_config_5.twin.attempts ∨ (state_TheCosynLinkTrains_config_5.roleSettled = true ∧ state_TheCosynLinkTrains_config_5.twin.attachBusy = false)) ∧ (true = (2 ≤ state_TheCosynLinkTrains_config_5.twin.attempts && !state_TheCosynLinkTrains_config_5.twin.aliveIn) ∧ true = (true && !state_TheCosynLinkTrains_config_5.roleSettled)) ∧ ((.down : Link) = (if state_TheCosynLinkTrains_config_5.twin.aliveIn = true ∧ state_TheCosynLinkTrains_config_5.twin.role ≠ .detached ∧ state_TheCosynLinkTrains_config_5.pairStrap = true then .split else .down)) ∧ (true = false ∨ state_TheCosynLinkTrains_config_5.host.outst.any (fun y => y.opcode == 0x0903) = false) := by
  decide +kernel

theorem witness_TheCosynLinkTrains_config_6 :
    live.rst.ctrlUp = false ∨ live.twin.trying = false ∨ live.twin.train ≠ .config := by
  decide +kernel

/-- The state of the witness below. -/
def state_TheCosynLinkTrains_trainTimeout : State :=
  { live with twin := { live.twin with role := .negotiating, link := .training, trying := true, train := .lock }, rst := { live.rst with strap := 8 } }

theorem witness_TheCosynLinkTrains_trainTimeout :
    (state_TheCosynLinkTrains_trainTimeout.rst.ctrlUp = true ∧ state_TheCosynLinkTrains_trainTimeout.twin.trying = true) ∧ (state_TheCosynLinkTrains_trainTimeout.twin.attempts < 2 ∧ (state_TheCosynLinkTrains_trainTimeout.roleSettled = false ∨ state_TheCosynLinkTrains_trainTimeout.twin.attachBusy = true)) := by
  decide +kernel

/-- The state of the witness below. -/
def state_TheCosynLinkTrains_trainTimeout_2 : State :=
  { live with twin := { live.twin with role := .negotiating, link := .training, trying := true, train := .lock, attempts := 2 }, rst := { live.rst with strap := 8 } }

theorem witness_TheCosynLinkTrains_trainTimeout_2 :
    (state_TheCosynLinkTrains_trainTimeout_2.rst.ctrlUp = true ∧ state_TheCosynLinkTrains_trainTimeout_2.twin.trying = true) ∧ (2 ≤ state_TheCosynLinkTrains_trainTimeout_2.twin.attempts ∨ (state_TheCosynLinkTrains_trainTimeout_2.roleSettled = true ∧ state_TheCosynLinkTrains_trainTimeout_2.twin.attachBusy = false)) ∧ (true = (2 ≤ state_TheCosynLinkTrains_trainTimeout_2.twin.attempts && !state_TheCosynLinkTrains_trainTimeout_2.twin.aliveIn) ∧ true = (true && !state_TheCosynLinkTrains_trainTimeout_2.roleSettled)) ∧ ((.down : Link) = (if state_TheCosynLinkTrains_trainTimeout_2.twin.aliveIn = true ∧ state_TheCosynLinkTrains_trainTimeout_2.twin.role ≠ .detached ∧ state_TheCosynLinkTrains_trainTimeout_2.pairStrap = true then .split else .down)) ∧ (true = false ∨ state_TheCosynLinkTrains_trainTimeout_2.host.outst.any (fun y => y.opcode == 0x0903) = false) := by
  decide +kernel

/-- The state of the witness below. -/
def state_TheCosynLinkTrains_trainTimeout_3 : State :=
  { live with twin := { live.twin with role := .negotiating, link := .training, trying := true, train := .lock, attempts := 2, attachBusy := true }, rst := { live.rst with strap := 8 }, host := { live.host with outst := [⟨0, false, 0x0903, 9, 0, 0, 0, 0, 0, 0⟩] } }

theorem witness_TheCosynLinkTrains_trainTimeout_3 :
    (state_TheCosynLinkTrains_trainTimeout_3.rst.ctrlUp = true ∧ state_TheCosynLinkTrains_trainTimeout_3.twin.trying = true) ∧ (2 ≤ state_TheCosynLinkTrains_trainTimeout_3.twin.attempts ∧ state_TheCosynLinkTrains_trainTimeout_3.twin.aliveIn = false) ∧ state_TheCosynLinkTrains_trainTimeout_3.host.outst.filter (fun y => y.opcode == 0x0903) = [(⟨0, false, 0x0903, 9, 0, 0, 0, 0, 0, 0⟩ : Outstanding)] := by
  decide +kernel

theorem witness_TheCosynLinkTrains_trainTimeout_4 :
    live.rst.ctrlUp = false ∨ live.twin.trying = false := by
  decide +kernel

/-- The state of the witness below. -/
def state_TheCosynLinkTrains_latencyMeasure : State :=
  { live with twin := { live.twin with role := .active, seated := 0xFFFF, link := .up, train := .up, aliveIn := true }, rst := { live.rst with strap := 8 } }

theorem witness_TheCosynLinkTrains_latencyMeasure :
    state_TheCosynLinkTrains_latencyMeasure.rst.ctrlUp = true ∧ state_TheCosynLinkTrains_latencyMeasure.twin.train = .up := by
  decide +kernel

theorem witness_TheCosynLinkTrains_latencyMeasure_2 :
    live.rst.ctrlUp = false ∨ live.twin.train ≠ .up := by
  decide +kernel

/-- The state of the witness below. -/
def state_TheCosynLinkTrains_cosynFrameDiscard : State :=
  { live with twin := { live.twin with train := .config }, rst := { live.rst with strap := 8 } }

theorem witness_TheCosynLinkTrains_cosynFrameDiscard :
    state_TheCosynLinkTrains_cosynFrameDiscard.rst.ctrlUp = true ∧ (state_TheCosynLinkTrains_cosynFrameDiscard.twin.train = .config ∨ state_TheCosynLinkTrains_cosynFrameDiscard.twin.train = .up) := by
  decide +kernel

theorem witness_TheCosynLinkTrains_cosynFrameDiscard_2 :
    live.rst.ctrlUp = false ∨ (live.twin.train ≠ .config ∧ live.twin.train ≠ .up) := by
  decide +kernel

/-- The state of the witness below. -/
def state_TheCosynLinkTrains_ack : State :=
  { live with twin := { live.twin with role := .active, seated := 0xFFFF, link := .up, train := .up, aliveIn := true, resync := true, unacked := [⟨7, 7, 0⟩] }, rst := { live.rst with strap := 8 } }

theorem witness_TheCosynLinkTrains_ack :
    (state_TheCosynLinkTrains_ack.rst.ctrlUp = true ∧ state_TheCosynLinkTrains_ack.twin.train = .up) ∧ state_TheCosynLinkTrains_ack.twin.unacked.find? (fun y => y.fseq == (7 : Word)) = some (⟨7, 7, 0⟩ : Unacked) ∧ state_TheCosynLinkTrains_ack.twin.edits.any (fun y => y.fseq == (7 : Word)) = false ∧ ((⟨7, 7, 0⟩ : Unacked).ftype ≠ 0xA ∨ state_TheCosynLinkTrains_ack.host.outst.any (fun y => y.opcode == 0x0902 && y.obj == 0 && y.aux == (7 : Word).toNat) = false) := by
  decide +kernel

/-- The state of the witness below. -/
def state_TheCosynLinkTrains_ack_2 : State :=
  { live with twin := { live.twin with role := .active, seated := 0xFFFF, link := .up, train := .up, aliveIn := true, unacked := [⟨7, 6, 0⟩], edits := [⟨7, 0, 0x0503, 9, 0, 0, 5, [1]⟩] }, rst := { live.rst with strap := 8 } }

theorem witness_TheCosynLinkTrains_ack_2 :
    (state_TheCosynLinkTrains_ack_2.rst.ctrlUp = true ∧ state_TheCosynLinkTrains_ack_2.twin.train = .up) ∧ state_TheCosynLinkTrains_ack_2.twin.unacked.find? (fun y => y.fseq == (7 : Word)) = some (⟨7, 6, 0⟩ : Unacked) ∧ (state_TheCosynLinkTrains_ack_2.twin.edits.filter (fun y => y.fseq == (7 : Word)) = [(⟨7, 0, 0x0503, 9, 0, 0, 5, [1]⟩ : EditWait)] ∧ (⟨7, 6, 0⟩ : Unacked).ftype ≠ 0xA) := by
  decide +kernel

/-- The state of the witness below. -/
def state_TheCosynLinkTrains_ack_3 : State :=
  { live with twin := { live.twin with role := .active, seated := 0xFFFF, link := .up, train := .up, aliveIn := true, unacked := [⟨7, 10, 0⟩] }, rst := { live.rst with strap := 8 }, host := { live.host with outst := [⟨0, false, 0x0902, 9, 0, 0, 0, 0, 7, 0⟩] } }

theorem witness_TheCosynLinkTrains_ack_3 :
    (state_TheCosynLinkTrains_ack_3.rst.ctrlUp = true ∧ state_TheCosynLinkTrains_ack_3.twin.train = .up) ∧ state_TheCosynLinkTrains_ack_3.twin.unacked.find? (fun y => y.fseq == (7 : Word)) = some (⟨7, 10, 0⟩ : Unacked) ∧ (state_TheCosynLinkTrains_ack_3.twin.role ≠ .detached ∧ state_TheCosynLinkTrains_ack_3.twin.edits = []) ∧ (state_TheCosynLinkTrains_ack_3.host.outst.filter (fun y => y.opcode == 0x0902) = [(⟨0, false, 0x0902, 9, 0, 0, 0, 0, 7, 0⟩ : Outstanding)] ∧ (⟨0, false, 0x0902, 9, 0, 0, 0, 0, 7, 0⟩ : Outstanding).obj = 0) ∧ state_TheCosynLinkTrains_ack_3.host.outst.all (fun y => y.opcode != 0x0A02 && y.opcode != 0x0704) = true ∧ ((⟨7, 10, 0⟩ : Unacked).ftype = 0xA ∧ (⟨0, false, 0x0902, 9, 0, 0, 0, 0, 7, 0⟩ : Outstanding).aux = (7 : Word).toNat) := by
  decide +kernel

theorem witness_TheCosynLinkTrains_ack_4 :
    live.rst.ctrlUp = false ∨ live.twin.train ≠ .up ∨ live.twin.unacked.all (fun y => y.fseq != (7 : Word)) = true := by
  decide +kernel

/-- The state of the witness below. -/
def state_TheCosynLinkTrains_retransmitTimeout : State :=
  { live with twin := { live.twin with role := .active, seated := 0xFFFF, link := .up, train := .up, aliveIn := true, unacked := [⟨7, 6, 7⟩] }, rst := { live.rst with strap := 8 } }

theorem witness_TheCosynLinkTrains_retransmitTimeout :
    (state_TheCosynLinkTrains_retransmitTimeout.rst.ctrlUp = true ∧ state_TheCosynLinkTrains_retransmitTimeout.twin.train = .up) ∧ (state_TheCosynLinkTrains_retransmitTimeout.twin.unacked.find? (fun y => y.fseq == (7 : Word)) = some (⟨7, 6, 7⟩ : Unacked) ∧ (⟨7, 6, 7⟩ : Unacked).resends < 8) := by
  decide +kernel

/-- The state of the witness below. -/
def state_TheCosynLinkTrains_retransmitTimeout_2 : State :=
  { live with twin := { live.twin with role := .active, seated := 0xFFFF, link := .up, train := .up, aliveIn := true, unacked := [⟨7, 6, 8⟩] }, rst := { live.rst with strap := 8 } }

theorem witness_TheCosynLinkTrains_retransmitTimeout_2 :
    (state_TheCosynLinkTrains_retransmitTimeout_2.rst.ctrlUp = true ∧ state_TheCosynLinkTrains_retransmitTimeout_2.twin.train = .up ∧ state_TheCosynLinkTrains_retransmitTimeout_2.twin.role ≠ .detached) ∧ (state_TheCosynLinkTrains_retransmitTimeout_2.twin.unacked.find? (fun y => y.fseq == (7 : Word)) = some (⟨7, 6, 8⟩ : Unacked) ∧ 8 ≤ (⟨7, 6, 8⟩ : Unacked).resends) ∧ ((.split : Link) = (if state_TheCosynLinkTrains_retransmitTimeout_2.twin.aliveIn = true ∧ state_TheCosynLinkTrains_retransmitTimeout_2.twin.role ≠ .detached ∧ state_TheCosynLinkTrains_retransmitTimeout_2.pairStrap = true then .split else .down)) ∧ state_TheCosynLinkTrains_retransmitTimeout_2.host.outst.any (fun y => y.opcode == 0x0902 && y.obj == 0) = false ∧ state_TheCosynLinkTrains_retransmitTimeout_2.twin.edits = [] := by
  decide +kernel

/-- The state of the witness below. -/
def state_TheCosynLinkTrains_retransmitTimeout_3 : State :=
  { live with twin := { live.twin with role := .active, seated := 0xFFFF, link := .up, train := .up, aliveIn := true, unacked := [⟨7, 6, 8⟩], edits := [⟨7, 0, 0x0503, 9, 0, 0, 5, [1]⟩] }, rst := { live.rst with strap := 8 } }

theorem witness_TheCosynLinkTrains_retransmitTimeout_3 :
    (state_TheCosynLinkTrains_retransmitTimeout_3.rst.ctrlUp = true ∧ state_TheCosynLinkTrains_retransmitTimeout_3.twin.train = .up ∧ state_TheCosynLinkTrains_retransmitTimeout_3.twin.role ≠ .detached) ∧ (state_TheCosynLinkTrains_retransmitTimeout_3.twin.unacked.find? (fun y => y.fseq == (7 : Word)) = some (⟨7, 6, 8⟩ : Unacked) ∧ 8 ≤ (⟨7, 6, 8⟩ : Unacked).resends) ∧ ((.split : Link) = (if state_TheCosynLinkTrains_retransmitTimeout_3.twin.aliveIn = true ∧ state_TheCosynLinkTrains_retransmitTimeout_3.twin.role ≠ .detached ∧ state_TheCosynLinkTrains_retransmitTimeout_3.pairStrap = true then .split else .down)) ∧ state_TheCosynLinkTrains_retransmitTimeout_3.host.outst.any (fun y => y.opcode == 0x0902 && y.obj == 0) = false ∧ state_TheCosynLinkTrains_retransmitTimeout_3.twin.edits = [(⟨7, 0, 0x0503, 9, 0, 0, 5, [1]⟩ : EditWait)] := by
  decide +kernel

/-- The state of the witness below. -/
def state_TheCosynLinkTrains_retransmitTimeout_4 : State :=
  { live with twin := { live.twin with role := .active, seated := 0xFFFF, link := .up, train := .up, aliveIn := true, unacked := [⟨7, 10, 8⟩] }, rst := { live.rst with strap := 8 }, host := { live.host with outst := [⟨0, false, 0x0902, 9, 0, 0, 0, 0, 7, 0⟩] } }

theorem witness_TheCosynLinkTrains_retransmitTimeout_4 :
    (state_TheCosynLinkTrains_retransmitTimeout_4.rst.ctrlUp = true ∧ state_TheCosynLinkTrains_retransmitTimeout_4.twin.train = .up ∧ state_TheCosynLinkTrains_retransmitTimeout_4.twin.role ≠ .detached) ∧ (state_TheCosynLinkTrains_retransmitTimeout_4.twin.unacked.find? (fun y => y.fseq == (7 : Word)) = some (⟨7, 10, 8⟩ : Unacked) ∧ 8 ≤ (⟨7, 10, 8⟩ : Unacked).resends) ∧ (state_TheCosynLinkTrains_retransmitTimeout_4.twin.role ≠ .detached ∧ state_TheCosynLinkTrains_retransmitTimeout_4.twin.edits = []) ∧ (state_TheCosynLinkTrains_retransmitTimeout_4.host.outst.filter (fun y => y.opcode == 0x0902) = [(⟨0, false, 0x0902, 9, 0, 0, 0, 0, 7, 0⟩ : Outstanding)] ∧ (⟨0, false, 0x0902, 9, 0, 0, 0, 0, 7, 0⟩ : Outstanding).obj = 0) ∧ state_TheCosynLinkTrains_retransmitTimeout_4.host.outst.all (fun y => y.opcode != 0x0A02 && y.opcode != 0x0704) = true := by
  decide +kernel

theorem witness_TheCosynLinkTrains_retransmitTimeout_5 :
    live.rst.ctrlUp = false ∨ live.twin.train ≠ .up ∨ live.twin.unacked.all (fun y => y.fseq != (7 : Word)) = true := by
  decide +kernel

/-- The state of the witness below. -/
def state_TheCosynLinkTrains_cosynSignalLoss : State :=
  { live with twin := { live.twin with role := .standby, link := .up, train := .up, aliveIn := true }, rst := { live.rst with strap := 8 } }

theorem witness_TheCosynLinkTrains_cosynSignalLoss :
    (state_TheCosynLinkTrains_cosynSignalLoss.rst.ctrlUp = true ∧ state_TheCosynLinkTrains_cosynSignalLoss.twin.train = .up) ∧ ((.split : Link) = (if state_TheCosynLinkTrains_cosynSignalLoss.twin.aliveIn = true ∧ state_TheCosynLinkTrains_cosynSignalLoss.twin.role ≠ .detached ∧ state_TheCosynLinkTrains_cosynSignalLoss.pairStrap = true then .split else .down)) ∧ state_TheCosynLinkTrains_cosynSignalLoss.host.outst.any (fun y => y.opcode == 0x0902 && y.obj == 0) = false ∧ state_TheCosynLinkTrains_cosynSignalLoss.twin.edits = [] := by
  decide +kernel

/-- The state of the witness below. -/
def state_TheCosynLinkTrains_cosynSignalLoss_2 : State :=
  { live with twin := { live.twin with role := .active, seated := 0xFFFF, link := .up, train := .up, aliveIn := true, edits := [⟨7, 0, 0x0503, 9, 0, 0, 5, [1]⟩] }, rst := { live.rst with strap := 8 } }

theorem witness_TheCosynLinkTrains_cosynSignalLoss_2 :
    (state_TheCosynLinkTrains_cosynSignalLoss_2.rst.ctrlUp = true ∧ state_TheCosynLinkTrains_cosynSignalLoss_2.twin.train = .up) ∧ ((.split : Link) = (if state_TheCosynLinkTrains_cosynSignalLoss_2.twin.aliveIn = true ∧ state_TheCosynLinkTrains_cosynSignalLoss_2.twin.role ≠ .detached ∧ state_TheCosynLinkTrains_cosynSignalLoss_2.pairStrap = true then .split else .down)) ∧ state_TheCosynLinkTrains_cosynSignalLoss_2.host.outst.any (fun y => y.opcode == 0x0902 && y.obj == 0) = false ∧ state_TheCosynLinkTrains_cosynSignalLoss_2.twin.edits = [(⟨7, 0, 0x0503, 9, 0, 0, 5, [1]⟩ : EditWait)] := by
  decide +kernel

/-- The state of the witness below. -/
def state_TheCosynLinkTrains_cosynSignalLoss_3 : State :=
  { live with twin := { live.twin with role := .active, seated := 0xFFFF, link := .up, train := .up, aliveIn := true }, rst := { live.rst with strap := 8 }, host := { live.host with outst := [⟨0, false, 0x0902, 9, 0, 0, 0, 0, 7, 0⟩] } }

theorem witness_TheCosynLinkTrains_cosynSignalLoss_3 :
    (state_TheCosynLinkTrains_cosynSignalLoss_3.rst.ctrlUp = true ∧ state_TheCosynLinkTrains_cosynSignalLoss_3.twin.train = .up) ∧ (state_TheCosynLinkTrains_cosynSignalLoss_3.twin.role ≠ .detached ∧ state_TheCosynLinkTrains_cosynSignalLoss_3.twin.edits = []) ∧ (state_TheCosynLinkTrains_cosynSignalLoss_3.host.outst.filter (fun y => y.opcode == 0x0902) = [(⟨0, false, 0x0902, 9, 0, 0, 0, 0, 7, 0⟩ : Outstanding)] ∧ (⟨0, false, 0x0902, 9, 0, 0, 0, 0, 7, 0⟩ : Outstanding).obj = 0) ∧ state_TheCosynLinkTrains_cosynSignalLoss_3.host.outst.all (fun y => y.opcode != 0x0A02 && y.opcode != 0x0704) = true := by
  decide +kernel

/-- The state of the witness below. -/
def state_TheCosynLinkTrains_cosynSignalLoss_4 : State :=
  { live with twin := { live.twin with role := .negotiating, link := .training, trying := true, train := .config }, rst := { live.rst with strap := 8 } }

theorem witness_TheCosynLinkTrains_cosynSignalLoss_4 :
    (state_TheCosynLinkTrains_cosynSignalLoss_4.rst.ctrlUp = true ∧ state_TheCosynLinkTrains_cosynSignalLoss_4.twin.trying = true) ∧ (state_TheCosynLinkTrains_cosynSignalLoss_4.twin.train = .lock ∨ state_TheCosynLinkTrains_cosynSignalLoss_4.twin.train = .order ∨ state_TheCosynLinkTrains_cosynSignalLoss_4.twin.train = .config ∨ state_TheCosynLinkTrains_cosynSignalLoss_4.twin.train = .idle) ∧ (state_TheCosynLinkTrains_cosynSignalLoss_4.twin.attempts < 2 ∧ (state_TheCosynLinkTrains_cosynSignalLoss_4.roleSettled = false ∨ state_TheCosynLinkTrains_cosynSignalLoss_4.twin.attachBusy = true)) := by
  decide +kernel

/-- The state of the witness below. -/
def state_TheCosynLinkTrains_cosynSignalLoss_5 : State :=
  { live with twin := { live.twin with role := .negotiating, link := .training, trying := true, train := .config, attempts := 2 }, rst := { live.rst with strap := 8 } }

theorem witness_TheCosynLinkTrains_cosynSignalLoss_5 :
    (state_TheCosynLinkTrains_cosynSignalLoss_5.rst.ctrlUp = true ∧ state_TheCosynLinkTrains_cosynSignalLoss_5.twin.trying = true) ∧ (state_TheCosynLinkTrains_cosynSignalLoss_5.twin.train = .lock ∨ state_TheCosynLinkTrains_cosynSignalLoss_5.twin.train = .order ∨ state_TheCosynLinkTrains_cosynSignalLoss_5.twin.train = .config ∨ state_TheCosynLinkTrains_cosynSignalLoss_5.twin.train = .idle) ∧ (2 ≤ state_TheCosynLinkTrains_cosynSignalLoss_5.twin.attempts ∨ (state_TheCosynLinkTrains_cosynSignalLoss_5.roleSettled = true ∧ state_TheCosynLinkTrains_cosynSignalLoss_5.twin.attachBusy = false)) ∧ (true = (2 ≤ state_TheCosynLinkTrains_cosynSignalLoss_5.twin.attempts && !state_TheCosynLinkTrains_cosynSignalLoss_5.twin.aliveIn) ∧ true = (true && !state_TheCosynLinkTrains_cosynSignalLoss_5.roleSettled)) ∧ ((.down : Link) = (if state_TheCosynLinkTrains_cosynSignalLoss_5.twin.aliveIn = true ∧ state_TheCosynLinkTrains_cosynSignalLoss_5.twin.role ≠ .detached ∧ state_TheCosynLinkTrains_cosynSignalLoss_5.pairStrap = true then .split else .down)) ∧ (true = false ∨ state_TheCosynLinkTrains_cosynSignalLoss_5.host.outst.any (fun y => y.opcode == 0x0903) = false) := by
  decide +kernel

theorem witness_TheCosynLinkTrains_cosynSignalLoss_6 :
    live.rst.ctrlUp = false ∨ (live.twin.train ≠ .up ∧ (live.twin.trying = false ∨ live.twin.train = .detect)) := by
  decide +kernel

/-- The state of the witness below. -/
def state_TheStandbyTakesOver_heartbeat : State :=
  { live with twin := { live.twin with role := .active, train := .up, seated := 0xFFFF, aliveIn := true, missRun := 2 }, rst := { live.rst with strap := 8 } }

theorem witness_TheStandbyTakesOver_heartbeat :
    (state_TheStandbyTakesOver_heartbeat.rst.ctrlUp = true ∧ state_TheStandbyTakesOver_heartbeat.twin.train = .up) ∧ (live.mtAfter 0 : BitVec 64) = (⟨9, .standby, 0, 1, 0, 0, 0, .normal, 0, true, 0, 0⟩ : Beat).mt + (state_TheStandbyTakesOver_heartbeat.mtAfter ((state_TheStandbyTakesOver_heartbeat.twin.latency + 2) / 5) - state_TheStandbyTakesOver_heartbeat.mt.mt) - state_TheStandbyTakesOver_heartbeat.mt.mt ∧ ((state_TheStandbyTakesOver_heartbeat.twin.link ≠ .split ∨ state_TheStandbyTakesOver_heartbeat.twin.conf = none) ∧ state_TheStandbyTakesOver_heartbeat.twin.role ≠ .standby) ∧ ((⟨9, .standby, 0, 1, 0, 0, 0, .normal, 0, true, 0, 0⟩ : Beat).digest = state_TheStandbyTakesOver_heartbeat.sets.digest ∨ state_TheStandbyTakesOver_heartbeat.twin.resync = true ∨ state_TheStandbyTakesOver_heartbeat.leads = false) := by
  decide +kernel

/-- The state of the witness below. -/
def state_TheStandbyTakesOver_heartbeat_2 : State :=
  { live with twin := { live.twin with role := .active, seated := 0xFFFF, link := .up, train := .up, aliveIn := true }, rst := { live.rst with strap := 8 } }

theorem witness_TheStandbyTakesOver_heartbeat_2 :
    (state_TheStandbyTakesOver_heartbeat_2.rst.ctrlUp = true ∧ state_TheStandbyTakesOver_heartbeat_2.twin.train = .up) ∧ (live.mtAfter 0 : BitVec 64) = (⟨9, .standby, 0, 1, 5, 0, 0, .normal, 0, true, 0, 0⟩ : Beat).mt + (state_TheStandbyTakesOver_heartbeat_2.mtAfter ((state_TheStandbyTakesOver_heartbeat_2.twin.latency + 2) / 5) - state_TheStandbyTakesOver_heartbeat_2.mt.mt) - state_TheStandbyTakesOver_heartbeat_2.mt.mt ∧ (state_TheStandbyTakesOver_heartbeat_2.leads = true ∧ (⟨9, .standby, 0, 1, 5, 0, 0, .normal, 0, true, 0, 0⟩ : Beat).digest ≠ state_TheStandbyTakesOver_heartbeat_2.sets.digest ∧ state_TheStandbyTakesOver_heartbeat_2.twin.resync = false) := by
  decide +kernel

/-- The state of the witness below. -/
def state_TheStandbyTakesOver_heartbeat_3 : State :=
  { live with twin := { live.twin with role := .standby, link := .up, train := .up, aliveIn := true, stateSeen := 0xFFFF }, rst := { live.rst with strap := 8 } }

theorem witness_TheStandbyTakesOver_heartbeat_3 :
    (state_TheStandbyTakesOver_heartbeat_3.rst.ctrlUp = true ∧ state_TheStandbyTakesOver_heartbeat_3.twin.train = .up) ∧ (live.mtAfter 0 : BitVec 64) = (⟨9, .active, 0, 1, live.sets.digest, 0, 0, .ride, 0, true, 0, 0⟩ : Beat).mt + (state_TheStandbyTakesOver_heartbeat_3.mtAfter ((state_TheStandbyTakesOver_heartbeat_3.twin.latency + 2) / 5) - state_TheStandbyTakesOver_heartbeat_3.mt.mt) - state_TheStandbyTakesOver_heartbeat_3.mt.mt ∧ ((state_TheStandbyTakesOver_heartbeat_3.twin.link ≠ .split ∨ state_TheStandbyTakesOver_heartbeat_3.twin.conf = none) ∧ state_TheStandbyTakesOver_heartbeat_3.twin.role = .standby) ∧ true = (state_TheStandbyTakesOver_heartbeat_3.twin.link == .up && !state_TheStandbyTakesOver_heartbeat_3.twin.resync && (⟨9, .active, 0, 1, live.sets.digest, 0, 0, .ride, 0, true, 0, 0⟩ : Beat).digest == state_TheStandbyTakesOver_heartbeat_3.sets.digest && state_TheStandbyTakesOver_heartbeat_3.twin.stateSeen == state_TheStandbyTakesOver_heartbeat_3.allGroups && ((⟨9, .active, 0, 1, live.sets.digest, 0, 0, .ride, 0, true, 0, 0⟩ : Beat).hu == .normal || (⟨9, .active, 0, 1, live.sets.digest, 0, 0, .ride, 0, true, 0, 0⟩ : Beat).hu == .ride)) := by
  decide +kernel

/-- The state of the witness below. -/
def state_TheStandbyTakesOver_heartbeat_4 : State :=
  { placed with twin := { placed.twin with role := .standby, link := .split, train := .up, conf := some ⟨0x7128, 2, 99, 2, 0, 0, 0, 0, 0⟩ }, rst := { placed.rst with strap := 8 } }

theorem witness_TheStandbyTakesOver_heartbeat_4 :
    (state_TheStandbyTakesOver_heartbeat_4.rst.ctrlUp = true ∧ state_TheStandbyTakesOver_heartbeat_4.twin.train = .up) ∧ (live.mtAfter 0 : BitVec 64) = (⟨9, .active, 0xFFFF, 1, 0, 0, 0, .ride, 0, true, 0, 0⟩ : Beat).mt + (state_TheStandbyTakesOver_heartbeat_4.mtAfter ((state_TheStandbyTakesOver_heartbeat_4.twin.latency + 2) / 5) - state_TheStandbyTakesOver_heartbeat_4.mt.mt) - state_TheStandbyTakesOver_heartbeat_4.mt.mt ∧ (state_TheStandbyTakesOver_heartbeat_4.twin.link = .split ∧ state_TheStandbyTakesOver_heartbeat_4.twin.conf = some (⟨0x7128, 2, 99, 2, 0, 0, 0, 0, 0⟩ : ConfigMsg)) ∧ state_TheStandbyTakesOver_heartbeat_4.host.outst.all (fun y => y.opcode != 0x0903 && y.opcode != 0x0A02 && y.opcode != 0x0704) = true := by
  decide +kernel

theorem witness_TheStandbyTakesOver_heartbeat_5 :
    live.rst.ctrlUp = false ∨ live.twin.train ≠ .up := by
  decide +kernel

/-- The state of the witness below. -/
def state_TheStandbyTakesOver_heartbeatSlotClose : State :=
  { live with twin := { live.twin with role := .standby, link := .up, train := .up, aliveIn := true, missRun := 2, last := some ⟨3, .active, 0xFFFF, 1, 0, 0, 0, .normal, 0, true, 0, 0⟩ }, rst := { live.rst with strap := 8 } }

theorem witness_TheStandbyTakesOver_heartbeatSlotClose :
    (state_TheStandbyTakesOver_heartbeatSlotClose.rst.ctrlUp = true ∧ state_TheStandbyTakesOver_heartbeatSlotClose.twin.last.isSome = true ∧ (state_TheStandbyTakesOver_heartbeatSlotClose.twin.train = .up ∨ state_TheStandbyTakesOver_heartbeatSlotClose.twin.role = .standby)) ∧ (state_TheStandbyTakesOver_heartbeatSlotClose.twin.missRun < 2 ∨ state_TheStandbyTakesOver_heartbeatSlotClose.twin.aliveIn = true) := by
  decide +kernel

/-- The state of the witness below. -/
def state_TheStandbyTakesOver_heartbeatSlotClose_2 : State :=
  { live with twin := { live.twin with role := .standby, link := .up, train := .up, missRun := 2, last := some ⟨3, .active, 0xFFFF, 1, 0, 0, 0, .normal, 0, true, 0, 0⟩ }, rst := { live.rst with strap := 8 } }

theorem witness_TheStandbyTakesOver_heartbeatSlotClose_2 :
    (state_TheStandbyTakesOver_heartbeatSlotClose_2.rst.ctrlUp = true ∧ state_TheStandbyTakesOver_heartbeatSlotClose_2.twin.last.isSome = true ∧ (state_TheStandbyTakesOver_heartbeatSlotClose_2.twin.train = .up ∨ state_TheStandbyTakesOver_heartbeatSlotClose_2.twin.role = .standby)) ∧ (2 ≤ state_TheStandbyTakesOver_heartbeatSlotClose_2.twin.missRun ∧ state_TheStandbyTakesOver_heartbeatSlotClose_2.twin.aliveIn = false ∧ state_TheStandbyTakesOver_heartbeatSlotClose_2.twin.role = .standby) ∧ ((state_TheStandbyTakesOver_heartbeatSlotClose_2.twin.train ≠ .up ∨ state_TheStandbyTakesOver_heartbeatSlotClose_2.host.outst.any (fun y => y.opcode == 0x0902 && y.obj == 0) = false)) ∧ (state_TheStandbyTakesOver_heartbeatSlotClose_2.sets.transfer = none ∨ state_TheStandbyTakesOver_heartbeatSlotClose_2.sets.mireDue = false) := by
  decide +kernel

/-- The state of the witness below. -/
def state_TheStandbyTakesOver_heartbeatSlotClose_3 : State :=
  { live with twin := { live.twin with role := .active, link := .up, train := .up, missRun := 2, last := some ⟨3, .active, 0xFFFF, 1, 0, 0, 0, .normal, 0, true, 0, 0⟩ }, rst := { live.rst with strap := 8 } }

theorem witness_TheStandbyTakesOver_heartbeatSlotClose_3 :
    (state_TheStandbyTakesOver_heartbeatSlotClose_3.rst.ctrlUp = true ∧ state_TheStandbyTakesOver_heartbeatSlotClose_3.twin.last.isSome = true ∧ state_TheStandbyTakesOver_heartbeatSlotClose_3.twin.train = .up ∧ state_TheStandbyTakesOver_heartbeatSlotClose_3.twin.role ≠ .standby) ∧ (2 ≤ state_TheStandbyTakesOver_heartbeatSlotClose_3.twin.missRun ∧ state_TheStandbyTakesOver_heartbeatSlotClose_3.twin.aliveIn = false) ∧ state_TheStandbyTakesOver_heartbeatSlotClose_3.host.outst.any (fun y => y.opcode == 0x0902 && y.obj == 0) = false ∧ state_TheStandbyTakesOver_heartbeatSlotClose_3.twin.edits = [] := by
  decide +kernel

/-- The state of the witness below. -/
def state_TheStandbyTakesOver_heartbeatSlotClose_4 : State :=
  { live with twin := { live.twin with role := .active, link := .up, train := .up, missRun := 2, edits := [⟨7, 0, 0x0503, 9, 0, 0, 5, [1]⟩], last := some ⟨3, .active, 0xFFFF, 1, 0, 0, 0, .normal, 0, true, 0, 0⟩ }, rst := { live.rst with strap := 8 } }

theorem witness_TheStandbyTakesOver_heartbeatSlotClose_4 :
    (state_TheStandbyTakesOver_heartbeatSlotClose_4.rst.ctrlUp = true ∧ state_TheStandbyTakesOver_heartbeatSlotClose_4.twin.last.isSome = true ∧ state_TheStandbyTakesOver_heartbeatSlotClose_4.twin.train = .up ∧ state_TheStandbyTakesOver_heartbeatSlotClose_4.twin.role ≠ .standby) ∧ (2 ≤ state_TheStandbyTakesOver_heartbeatSlotClose_4.twin.missRun ∧ state_TheStandbyTakesOver_heartbeatSlotClose_4.twin.aliveIn = false) ∧ state_TheStandbyTakesOver_heartbeatSlotClose_4.host.outst.any (fun y => y.opcode == 0x0902 && y.obj == 0) = false ∧ state_TheStandbyTakesOver_heartbeatSlotClose_4.twin.edits = [(⟨7, 0, 0x0503, 9, 0, 0, 5, [1]⟩ : EditWait)] := by
  decide +kernel

theorem witness_TheStandbyTakesOver_heartbeatSlotClose_5 :
    live.rst.ctrlUp = false ∨ live.twin.last = none ∨ (live.twin.train ≠ .up ∧ live.twin.role ≠ .standby) := by
  decide +kernel

/-- The state of the witness below. -/
def state_TheStandbyTakesOver_aliveInChange : State :=
  { live with twin := { live.twin with role := .standby, link := .down }, rst := { live.rst with strap := 8 } }

theorem witness_TheStandbyTakesOver_aliveInChange :
    (state_TheStandbyTakesOver_aliveInChange.rst.ctrlUp = true ∧ state_TheStandbyTakesOver_aliveInChange.pairStrap = true ∧ state_TheStandbyTakesOver_aliveInChange.twin.aliveIn = false) ∧ true = (state_TheStandbyTakesOver_aliveInChange.twin.link == .down && state_TheStandbyTakesOver_aliveInChange.twin.role != .detached) := by
  decide +kernel

/-- The state of the witness below. -/
def state_TheStandbyTakesOver_aliveInChange_2 : State :=
  { live with twin := { live.twin with role := .standby, link := .split, aliveIn := true }, rst := { live.rst with strap := 8 } }

theorem witness_TheStandbyTakesOver_aliveInChange_2 :
    (state_TheStandbyTakesOver_aliveInChange_2.rst.ctrlUp = true ∧ state_TheStandbyTakesOver_aliveInChange_2.pairStrap = true ∧ state_TheStandbyTakesOver_aliveInChange_2.twin.aliveIn = true) ∧ (state_TheStandbyTakesOver_aliveInChange_2.twin.link = .split ∧ state_TheStandbyTakesOver_aliveInChange_2.twin.role = .standby) ∧ ((state_TheStandbyTakesOver_aliveInChange_2.twin.train ≠ .up ∨ state_TheStandbyTakesOver_aliveInChange_2.host.outst.any (fun y => y.opcode == 0x0902 && y.obj == 0) = false)) ∧ (state_TheStandbyTakesOver_aliveInChange_2.sets.transfer = none ∨ state_TheStandbyTakesOver_aliveInChange_2.sets.mireDue = false) := by
  decide +kernel

/-- The state of the witness below. -/
def state_TheStandbyTakesOver_aliveInChange_3 : State :=
  { live with twin := { live.twin with role := .standby, link := .training, aliveIn := true, missRun := 3 }, rst := { live.rst with strap := 8 } }

theorem witness_TheStandbyTakesOver_aliveInChange_3 :
    (state_TheStandbyTakesOver_aliveInChange_3.rst.ctrlUp = true ∧ state_TheStandbyTakesOver_aliveInChange_3.pairStrap = true ∧ state_TheStandbyTakesOver_aliveInChange_3.twin.aliveIn = true) ∧ (state_TheStandbyTakesOver_aliveInChange_3.twin.link ≠ .split ∧ state_TheStandbyTakesOver_aliveInChange_3.twin.role = .standby ∧ 3 ≤ state_TheStandbyTakesOver_aliveInChange_3.twin.missRun) ∧ (state_TheStandbyTakesOver_aliveInChange_3.sets.transfer = none ∨ state_TheStandbyTakesOver_aliveInChange_3.sets.mireDue = false) := by
  decide +kernel

/-- The state of the witness below. -/
def state_TheStandbyTakesOver_aliveInChange_4 : State :=
  { live with twin := { live.twin with role := .active, seated := 0xFFFF, link := .up, train := .up, aliveIn := true }, rst := { live.rst with strap := 8 } }

theorem witness_TheStandbyTakesOver_aliveInChange_4 :
    (state_TheStandbyTakesOver_aliveInChange_4.rst.ctrlUp = true ∧ state_TheStandbyTakesOver_aliveInChange_4.pairStrap = true ∧ state_TheStandbyTakesOver_aliveInChange_4.twin.aliveIn = true) ∧ (state_TheStandbyTakesOver_aliveInChange_4.twin.link ≠ .split ∧ (state_TheStandbyTakesOver_aliveInChange_4.twin.role ≠ .standby ∨ state_TheStandbyTakesOver_aliveInChange_4.twin.missRun < 3)) := by
  decide +kernel

/-- The state of the witness below. -/
def state_TheStandbyTakesOver_aliveInChange_5 : State :=
  { live with twin := { live.twin with role := .active, link := .split, aliveIn := true }, rst := { live.rst with strap := 8 } }

theorem witness_TheStandbyTakesOver_aliveInChange_5 :
    (state_TheStandbyTakesOver_aliveInChange_5.rst.ctrlUp = true ∧ state_TheStandbyTakesOver_aliveInChange_5.pairStrap = true ∧ state_TheStandbyTakesOver_aliveInChange_5.twin.aliveIn = true) ∧ (state_TheStandbyTakesOver_aliveInChange_5.twin.link = .split ∧ state_TheStandbyTakesOver_aliveInChange_5.twin.role ≠ .standby) ∧ state_TheStandbyTakesOver_aliveInChange_5.twin.train ≠ .up := by
  decide +kernel

/-- The state of the witness below. -/
def state_TheStandbyTakesOver_aliveInChange_6 : State :=
  { live with twin := { live.twin with role := .active, link := .split, train := .up, aliveIn := true }, rst := { live.rst with strap := 8 } }

theorem witness_TheStandbyTakesOver_aliveInChange_6 :
    (state_TheStandbyTakesOver_aliveInChange_6.rst.ctrlUp = true ∧ state_TheStandbyTakesOver_aliveInChange_6.pairStrap = true ∧ state_TheStandbyTakesOver_aliveInChange_6.twin.aliveIn = true) ∧ (state_TheStandbyTakesOver_aliveInChange_6.twin.link = .split ∧ state_TheStandbyTakesOver_aliveInChange_6.twin.role ≠ .standby) ∧ (state_TheStandbyTakesOver_aliveInChange_6.twin.train = .up ∧ state_TheStandbyTakesOver_aliveInChange_6.twin.edits = []) ∧ state_TheStandbyTakesOver_aliveInChange_6.host.outst.any (fun y => y.opcode == 0x0902 && y.obj == 0) = false := by
  decide +kernel

theorem witness_TheStandbyTakesOver_aliveInChange_7 :
    live.rst.ctrlUp = false ∨ live.pairStrap = false ∨ live.twin.aliveIn = true := by
  decide +kernel

/-- The state of the witness below. -/
def state_TheStandbyTakesOver_takeoverB1 : State :=
  { live with twin := { live.twin with role := .active, b1Due := 0xFFFF, b2Due := 0xFFFF, chans := [(1, ⟨0x60000000, 0, 0, 0, [0, 0, 0, 0], 0⟩)] }, rst := { live.rst with strap := 8 } }

theorem witness_TheStandbyTakesOver_takeoverB1 :
    state_TheStandbyTakesOver_takeoverB1.grpRuns (0 : Nat) = true ∧ state_TheStandbyTakesOver_takeoverB1.twin.b1Due.getLsbD (0 : Nat) = true := by
  decide +kernel

theorem witness_TheStandbyTakesOver_takeoverB1_2 :
    live.grpRuns (0 : Nat) = false ∨ live.twin.b1Due.getLsbD (0 : Nat) = false := by
  decide +kernel

/-- The state of the witness below. -/
def state_TheStandbyTakesOver_takeoverB2 : State :=
  { live with twin := { live.twin with role := .active, b2Due := 0xFFFF, held := [1], chans := [(1, ⟨0x60000000, 0x40, 0, 0, [0, 0, 0, 0], 0⟩)] }, rst := { live.rst with strap := 8 } }

theorem witness_TheStandbyTakesOver_takeoverB2 :
    (state_TheStandbyTakesOver_takeoverB2.grpRuns (0 : Nat) = true ∧ state_TheStandbyTakesOver_takeoverB2.twin.b2Due.getLsbD (0 : Nat) = true ∧ state_TheStandbyTakesOver_takeoverB2.twin.b1Due.getLsbD (0 : Nat) = false) ∧ (state_TheStandbyTakesOver_takeoverB2.twin.cold = true ∨ state_TheStandbyTakesOver_takeoverB2.fig.all (fun e => e.2.flight.isNone) = true) := by
  decide +kernel

/-- The state of the witness below. -/
def state_TheStandbyTakesOver_takeoverB2_2 : State :=
  { placed with twin := { live.twin with role := .active, b2Due := 0xFFFF, held := [0], chans := [(0, ⟨0x60000000, 0x40, 0, 0, [0, 0, 0, 0], 0⟩)] }, rst := { live.rst with strap := 8 }, fig := [(5, { Fig.init with enabled := true, run := .active, flight := some ⟨6, 0, .settling, 0, 0, 0, false, 0, 0, false, 0⟩ })] }

theorem witness_TheStandbyTakesOver_takeoverB2_2 :
    (state_TheStandbyTakesOver_takeoverB2_2.grpRuns (0 : Nat) = true ∧ state_TheStandbyTakesOver_takeoverB2_2.twin.b2Due.getLsbD (0 : Nat) = true ∧ state_TheStandbyTakesOver_takeoverB2_2.twin.b1Due.getLsbD (0 : Nat) = false) ∧ (state_TheStandbyTakesOver_takeoverB2_2.twin.cold = false ∧ state_TheStandbyTakesOver_takeoverB2_2.fig.map (fun e => e.1) = [(5 : Nat)]) ∧ ((state_TheStandbyTakesOver_takeoverB2_2.figAt (5 : Nat)).enabled = true ∧ state_TheStandbyTakesOver_takeoverB2_2.master (5 : Nat) = some (0 : Nat) ∧ (0 : Nat) / 8 = (0 : Nat) ∧ (state_TheStandbyTakesOver_takeoverB2_2.figAt (5 : Nat)).flight = some (⟨6, 0, .settling, 0, 0, 0, false, 0, 0, false, 0⟩ : Flight)) := by
  decide +kernel

theorem witness_TheStandbyTakesOver_takeoverB2_3 :
    live.grpRuns (0 : Nat) = false ∨ live.twin.b2Due.getLsbD (0 : Nat) = false ∨ live.twin.b1Due.getLsbD (0 : Nat) = true := by
  decide +kernel

/-- The state of the witness below. -/
def state_TheStandbyTakesOver_handover : State :=
  { live with twin := { live.twin with role := .standby, link := .up, train := .up, aliveIn := true }, rst := { live.rst with strap := 8 } }

theorem witness_TheStandbyTakesOver_handover :
    (state_TheStandbyTakesOver_handover.rst.ctrlUp = true ∧ state_TheStandbyTakesOver_handover.twin.train = .up ∧ state_TheStandbyTakesOver_handover.twin.role = .standby) ∧ state_TheStandbyTakesOver_handover.twin.rxAcked.all (fun z => seqLt z (1 : Word)) = true ∧ (state_TheStandbyTakesOver_handover.sets.transfer = none ∨ state_TheStandbyTakesOver_handover.sets.mireDue = false) ∧ (((⟨77, 2, 1, 0x10, [(3, ⟨0x60000000, 0, 0, 0, [0, 0, 0, 0], 0⟩)], [⟨0, 1, 0, 0, 3, 0, 44⟩], [(64, ⟨4, 2⟩)]⟩ : HandoverMsg).chans.map (fun e => e.1)).Nodup ∧ ((⟨77, 2, 1, 0x10, [(3, ⟨0x60000000, 0, 0, 0, [0, 0, 0, 0], 0⟩)], [⟨0, 1, 0, 0, 3, 0, 44⟩], [(64, ⟨4, 2⟩)]⟩ : HandoverMsg).runners.map (fun r => r.num)).Nodup ∧ ((⟨77, 2, 1, 0x10, [(3, ⟨0x60000000, 0, 0, 0, [0, 0, 0, 0], 0⟩)], [⟨0, 1, 0, 0, 3, 0, 44⟩], [(64, ⟨4, 2⟩)]⟩ : HandoverMsg).anns.map (fun e => e.1)).Nodup) := by
  decide +kernel

theorem witness_TheStandbyTakesOver_handover_2 :
    live.rst.ctrlUp = false ∨ live.twin.train ≠ .up ∨ live.twin.rxAcked.all (fun z => seqLt z (1 : Word)) = false ∨ live.twin.role ≠ .standby := by
  decide +kernel

/-- The state of the witness below. -/
def state_TheStandbyTakesOver_handoverBoundary : State :=
  { placed with twin := { placed.twin with role := .active, seated := 0xFFFF, link := .up, train := .up, aliveIn := true, handover := some ⟨5, 2, 1, 0x10, true, true⟩ }, rst := { placed.rst with strap := 8 }, mt := { live.mt with mt := 5 } }

theorem witness_TheStandbyTakesOver_handoverBoundary :
    (state_TheStandbyTakesOver_handoverBoundary.rst.ctrlUp = true ∧ state_TheStandbyTakesOver_handoverBoundary.twin.handover = some (⟨5, 2, 1, 0x10, true, true⟩ : HandoverSt)) ∧ (mtLe (⟨5, 2, 1, 0x10, true, true⟩ : HandoverSt).target state_TheStandbyTakesOver_handoverBoundary.mt.mt = true ∧ state_TheStandbyTakesOver_handoverBoundary.commonNext = true) ∧ ((⟨5, 2, 1, 0x10, true, true⟩ : HandoverSt).departing = true ∧ (⟨5, 2, 1, 0x10, true, true⟩ : HandoverSt).kind ≠ 3) := by
  decide +kernel

/-- The state of the witness below. -/
def state_TheStandbyTakesOver_handoverBoundary_2 : State :=
  { placed with twin := { placed.twin with role := .active, seated := 0xFFFF, link := .up, train := .up, aliveIn := true, handover := some ⟨5, 3, 1, 0x10, true, true⟩ }, rst := { placed.rst with strap := 8 }, mt := { live.mt with mt := 5 }, host := { live.host with outst := [⟨0, false, 0x0902, 9, 0, 0, 0, 0, 7, 0⟩] } }

theorem witness_TheStandbyTakesOver_handoverBoundary_2 :
    (state_TheStandbyTakesOver_handoverBoundary_2.rst.ctrlUp = true ∧ state_TheStandbyTakesOver_handoverBoundary_2.twin.handover = some (⟨5, 3, 1, 0x10, true, true⟩ : HandoverSt)) ∧ (mtLe (⟨5, 3, 1, 0x10, true, true⟩ : HandoverSt).target state_TheStandbyTakesOver_handoverBoundary_2.mt.mt = true ∧ state_TheStandbyTakesOver_handoverBoundary_2.commonNext = true) ∧ ((⟨5, 3, 1, 0x10, true, true⟩ : HandoverSt).departing = true ∧ (⟨5, 3, 1, 0x10, true, true⟩ : HandoverSt).kind = 3 ∧ state_TheStandbyTakesOver_handoverBoundary_2.twin.role ≠ .detached) ∧ (state_TheStandbyTakesOver_handoverBoundary_2.host.outst.filter (fun y => y.opcode == 0x0902) = [(⟨0, false, 0x0902, 9, 0, 0, 0, 0, 7, 0⟩ : Outstanding)] ∧ state_TheStandbyTakesOver_handoverBoundary_2.twin.edits = []) ∧ state_TheStandbyTakesOver_handoverBoundary_2.host.outst.all (fun y => y.opcode != 0x0A02 && y.opcode != 0x0704) = true := by
  decide +kernel

/-- The state of the witness below. -/
def state_TheStandbyTakesOver_handoverBoundary_3 : State :=
  { placed with twin := { placed.twin with role := .active, handover := some ⟨5, 2, 1, 0x10, false, true⟩ }, rst := { placed.rst with strap := 8 }, mt := { live.mt with mt := 5 } }

theorem witness_TheStandbyTakesOver_handoverBoundary_3 :
    (state_TheStandbyTakesOver_handoverBoundary_3.rst.ctrlUp = true ∧ state_TheStandbyTakesOver_handoverBoundary_3.twin.handover = some (⟨5, 2, 1, 0x10, false, true⟩ : HandoverSt)) ∧ (mtLe (⟨5, 2, 1, 0x10, false, true⟩ : HandoverSt).target state_TheStandbyTakesOver_handoverBoundary_3.mt.mt = true ∧ state_TheStandbyTakesOver_handoverBoundary_3.commonNext = true) ∧ ((⟨5, 2, 1, 0x10, false, true⟩ : HandoverSt).departing = false ∧ (⟨5, 2, 1, 0x10, false, true⟩ : HandoverSt).kind ≠ 3) ∧ (state_TheStandbyTakesOver_handoverBoundary_3.twin.cold = true ∨ state_TheStandbyTakesOver_handoverBoundary_3.fig.all (fun e => e.2.flight.isNone) = true) := by
  decide +kernel

/-- The state of the witness below. -/
def state_TheStandbyTakesOver_handoverBoundary_4 : State :=
  { placed with twin := { placed.twin with role := .active, handover := some ⟨5, 3, 1, 0x10, false, true⟩ }, rst := { placed.rst with strap := 8 }, mt := { live.mt with mt := 5 } }

theorem witness_TheStandbyTakesOver_handoverBoundary_4 :
    (state_TheStandbyTakesOver_handoverBoundary_4.rst.ctrlUp = true ∧ state_TheStandbyTakesOver_handoverBoundary_4.twin.handover = some (⟨5, 3, 1, 0x10, false, true⟩ : HandoverSt)) ∧ (mtLe (⟨5, 3, 1, 0x10, false, true⟩ : HandoverSt).target state_TheStandbyTakesOver_handoverBoundary_4.mt.mt = true ∧ state_TheStandbyTakesOver_handoverBoundary_4.commonNext = true) ∧ ((⟨5, 3, 1, 0x10, false, true⟩ : HandoverSt).departing = false ∧ (⟨5, 3, 1, 0x10, false, true⟩ : HandoverSt).kind = 3 ∧ state_TheStandbyTakesOver_handoverBoundary_4.twin.role = .active) ∧ (state_TheStandbyTakesOver_handoverBoundary_4.host.outst = [] ∧ state_TheStandbyTakesOver_handoverBoundary_4.twin.edits = []) ∧ (state_TheStandbyTakesOver_handoverBoundary_4.twin.cold = true ∨ state_TheStandbyTakesOver_handoverBoundary_4.fig.all (fun e => e.2.flight.isNone) = true) := by
  decide +kernel

theorem witness_TheStandbyTakesOver_handoverBoundary_5 :
    live.rst.ctrlUp = false ∨ live.twin.handover.any (fun h => mtLe h.target live.mt.mt) = false ∨ live.commonNext = false := by
  decide +kernel

theorem witness_HostResetRequests_rstReqWrite :
    live.rst.ctrlUp = true ∧ bits (0xA5000002 : Word) 31 24 = 0xA5 ∧ (1 ≤ bits (0xA5000002 : Word) 1 0 ∧ bits (0xA5000002 : Word) 1 0 ≤ 3) := by
  decide +kernel

theorem witness_HostResetRequests_rstReqWrite_2 :
    (live.rst.ctrlUp = true ∧ live.rst.dataUp = true) ∧ (bits (0x5A000002 : Word) 31 24 ≠ 0xA5 ∨ bits (0x5A000002 : Word) 1 0 = 0) ∧ live.err.ring.length < 4096 ∧ live.err.ring.all (fun e => e.body.code != 0x4102#16) = true := by
  decide +kernel

/-- The state of the witness below. -/
def state_HostResetRequests_rstReqWrite_3 : State :=
  { live with rst := { live.rst with dataUp := false } }

theorem witness_HostResetRequests_rstReqWrite_3 :
    (state_HostResetRequests_rstReqWrite_3.rst.ctrlUp = true ∧ state_HostResetRequests_rstReqWrite_3.rst.dataUp = false) ∧ (bits (0xA5000000 : Word) 31 24 ≠ 0xA5 ∨ bits (0xA5000000 : Word) 1 0 = 0) := by
  decide +kernel

/-- A state whose fabric holds a route. -/
def routed : State :=
  { live with fab := { live.fab with masks := [(255, [0x90F])], taps := [(0, 0x1005)], sel := [(0x1BF, 255)] } }

theorem witness_RoutingThroughResets_shallow :
    2 ≤ (nx (exec (.rstReqWrite 0xA5000002#32) routed)).rst.level := by decide +kernel

theorem witness_RoutingThroughResets_way :
    2 ≤ ({ routed with rst := { routed.rst with phase := .stretch, level := 3 } } : State).rst.level := by
  decide

theorem witness_RoutingThroughResets_entry :
    ({ routed with rst := { routed.rst with phase := .ordered, level := 1 } } : State).rst.phase = .ordered := rfl

theorem witness_RoutingThroughResets_hard :
    routed.rst.asserted.getLsbD 0 = false ∧ routed.rst.asserted.getLsbD 6 = false ∧
      routed.rst.ctrlUp = true ∧ fuseLevel routed.rst.fuse 6 ≤ 1 := by decide +kernel

theorem witness_PeatRegistersBelongToTheHost_other :
    (∀ p o n v, Instr.wdog ≠ .registerWrite p o n v) ∧ (∀ a d, Instr.wdog ≠ .spiWriteFrame a d) ∧
      Instr.wdog ≠ .vretLoss := ⟨nofun, nofun, nofun⟩

theorem witness_PeatRegistersBelongToTheHost_write : 15 < 16 ∧ live.opens .service = true := by
  decide +kernel

theorem witness_PeatRegistersBelongToTheHost_loss :
    ({ live with rst := { live.rst with asserted := 1 } } : State).rst.asserted.getLsbD 0 = true := by
  decide

theorem witness_TheQueueRunsInOrder :
    ({ live with pending := [.wdog, .clk] } : State).pending = .wdog :: [.clk] ∧ live.pending = [] :=
  ⟨rfl, rfl⟩

theorem witness_TheLevelOnlyDeepens : ∀ x, Instr.fatal ≠ .stretchEnd x := nofun

theorem witness_EveryStepKeepsSafety : Safe live := by
  unfold Safe WindowOk NothingRaised RingOk
  decide +kernel

end Sys2Proof.Tests
end

/-! SUPPORT. The clock of the model: only a step on an empty queue moves it (log entry 8), so no operation
that a write to a register can run does. One lemma for each operation, by the file of the model. -/

namespace Sys2Proof.Machine

section
variable (s : State)

@[simp] theorem clk_ite (c : Prop) [Decidable c] (t u : State) :
    (if c then t else u).clk = if c then t.clk else u.clk := apply_ite State.clk c t u

theorem foldl_clk {β : Type} (f : State → β → State) (hf : ∀ s x, (f s x).clk = s.clk) (l : List β) :
    (l.foldl f s).clk = s.clk := by
  induction l generalizing s with
  | nil => rfl
  | cons x l ih => rw [List.foldl_cons, ih, hf]

@[simp] theorem foldl_modSp_clk (l : List Nat) (f : Nat → Sp → Sp) :
    (l.foldl (fun t p => t.modSp p (f p)) s).clk = s.clk :=
  foldl_clk s (fun t p => t.modSp p (f p)) (fun _ _ => rfl) l

/-! ### Machine/Ops.lean -/

@[simp] theorem raise_clk (code : Nat) : (s.raise code).clk = s.clk := by simp [State.raise]
@[simp] theorem raisePort_clk (p k : Nat) : (s.raisePort p k).clk = s.clk := by
  simp [State.raisePort]

@[simp] theorem raiseGrp_clk (g k : Nat) : (s.raiseGrp g k).clk = s.clk := by simp [State.raiseGrp]
@[simp] theorem raiseFig_clk (f kind : Nat) : (s.raiseFig f kind).clk = s.clk := by
  simp [State.raiseFig]

@[simp] theorem formErr_clk (r : ErrRec) : (s.formErr r).clk = s.clk := by simp [State.formErr]
@[simp] theorem log_clk (e : ErrSpec) : (s.log e).clk = s.clk := by simp [State.log]
@[simp] theorem sendReliable_clk (ftype : Nat) : (s.sendReliable ftype).clk = s.clk := rfl
@[simp] theorem tell_clk (ftype : Nat) : (s.tell ftype).clk = s.clk := by simp [State.tell]
@[simp] theorem complete_clk (p : Outstanding → Bool) (a : Answer) :
    (s.complete p a).clk = s.clk := by
  unfold State.complete; split <;> simp

/-! ### Machine/Commit.lean -/

@[simp] theorem produce_clk (qid : Nat) (b : Building) : (s.produce qid b).clk = s.clk := by
  simp [State.produce]

@[simp] theorem produceRecord_clk (fig stream : Nat) (key : Word) (bytes : List Byte) :
    (s.produceRecord fig stream key bytes).clk = s.clk := by simp [State.produceRecord]

@[simp] theorem logQueueEvent_clk (fig stream : Nat) (e : QueueEvent) :
    (s.logQueueEvent fig stream e).clk = s.clk := by simp [State.logQueueEvent]

@[simp] theorem queueEvent_clk (qid : Nat) (e : QueueEvent) :
    (s.queueEvent qid e).clk = s.clk := by simp [State.queueEvent]

@[simp] theorem queFlag_clk (m : Word) : (s.queFlag m).clk = s.clk := rfl
@[simp] theorem abandon_clk (qid cause : Nat) (b : Building) :
    (s.abandon qid cause b).clk = s.clk := by simp [State.abandon]

@[simp] theorem tuneAnswer_clk (n : TuneNote) : (s.tuneAnswer n).clk = s.clk := by
  simp [State.tuneAnswer]

@[simp] theorem tuneCommit_clk (n : Option TuneNote) : (s.tuneCommit n).clk = s.clk := by
  unfold State.tuneCommit; split <;> simp

/-! ### Machine/Queues.lean -/

@[simp] theorem grant_clk (qid n : Nat) : (s.grant qid n).clk = s.clk := by simp [State.grant]

/-! ### Machine/Host.lean -/

@[simp] theorem hostFlag_clk (m : Word) : (s.hostFlag m).clk = s.clk := rfl
@[simp] theorem badAccess_clk : s.badAccess.clk = s.clk := by simp [State.badAccess]
@[simp] theorem endSession_clk (n : Nat) : (s.endSession n).clk = s.clk := rfl

@[simp] theorem doorbell_clk (port : Port) (n : Nat) (body : Mbx → State)
    (hf : ∀ m, (body m).clk = s.clk) : (s.doorbell port n body).clk = s.clk := by simp [State.doorbell, hf]

@[simp] theorem rspHead_clk (port : Port) (mbx : Nat) (arg : BitVec 28) :
    (s.rspHead port mbx arg).clk = s.clk := by simp [State.rspHead]

@[simp] theorem setupLo_clk (port : Port) (mbx : Nat) (arg : BitVec 28) :
    (s.setupLo port mbx arg).clk = s.clk := by simp [State.setupLo]

@[simp] theorem setupHi_clk (port : Port) (mbx : Nat) (arg : BitVec 28) :
    (s.setupHi port mbx arg).clk = s.clk := by simp [State.setupHi]

@[simp] theorem closeMbx_clk (port : Port) (mbx : Nat) : (s.closeMbx port mbx).clk = s.clk := by
  simp [State.closeMbx]

@[simp] theorem ackReset_clk (port : Port) (mbx : Nat) : (s.ackReset port mbx).clk = s.clk := by
  simp [State.ackReset]

@[simp] theorem ringFault_clk (n code : Nat) : (s.ringFault n code).clk = s.clk := rfl
@[simp] theorem tailWrite_clk (port : Port) (mbx : Nat) (value : Word) :
    (s.tailWrite port mbx value).clk = s.clk := by simp [State.tailWrite]

@[simp] theorem consumed_clk (ring : Nat) (head : Word) :
    (s.consumed ring head).clk = s.clk := by simp [State.consumed, foldl_clk]

/-! ### Machine/Fabric.lean -/

@[simp] theorem armFirst_clk : s.armFirst.clk = s.clk := rfl

/-! ### Machine/Measure.lean -/

@[simp] theorem apTake_clk (f : Nat) (x : Nat → Sample) : (s.apTake f x).clk = s.clk := by
  unfold State.apTake; split <;> simp

@[simp] theorem totTake_clk (f : Nat) (x : Nat → Sample) : (s.totTake f x).clk = s.clk := by
  simp [State.totTake]

@[simp] theorem freshResult_clk : s.freshResult.clk = s.clk := rfl
@[simp] theorem apDeliver_clk (r : ApResult) : (s.apDeliver r).clk = s.clk := by
  simp [State.apDeliver]

@[simp] theorem apClose_clk (f cause : Nat) : (s.apClose f cause).clk = s.clk := by
  unfold State.apClose; split <;> simp

@[simp] theorem apDrop_clk (f cause : Nat) : (s.apDrop f cause).clk = s.clk := by
  unfold State.apDrop; split <;> simp

/-! ### Machine/Port.lean -/

@[simp] theorem acqFlag_clk (g : Nat) (m : Word) : (s.acqFlag g m).clk = s.clk := rfl

/-! ### Machine/Acq.lean -/

@[simp] theorem rawPush_clk (g : Nat) (c : RawCap) (w : DWord) (stamp : DWord) :
    (s.rawPush g c w stamp).clk = s.clk := by simp [State.rawPush]

@[simp] theorem rawHalf_clk (g : Nat) (w : Word) (stamp : DWord) :
    (s.rawHalf g w stamp).clk = s.clk := by
  unfold State.rawHalf
  split
  · rfl
  · split <;> simp

@[simp] theorem rawEnd_clk (g : Nat) : (s.rawEnd g).clk = s.clk := by
  unfold State.rawEnd
  extract_lets u
  have hu : u.clk = s.clk := by simp only [u]; split <;> simp
  split
  · exact hu
  · extract_lets q t
    have ht : t.clk = u.clk := by simp only [t]; split <;> simp
    simp [ht, hu]

@[simp] theorem rawCut_clk (g detail : Nat) : (s.rawCut g detail).clk = s.clk := by
  unfold State.rawCut
  split
  · rfl
  · extract_lets q t
    have ht : t.clk = s.clk := by simp only [t]; split <;> simp
    simp [ht]

@[simp] theorem rawCount_clk (g : Nat) : (s.rawCount g).clk = s.clk := by
  unfold State.rawCount; split <;> simp

@[simp] theorem rawTake_clk (g : Nat) (words : List (Nat × Word)) (stamp : DWord) :
    (s.rawTake g words stamp).clk = s.clk := by
  unfold State.rawTake
  split
  · rfl
  · simp [foldl_clk]

@[simp] theorem auxDrive_clk (g code : Nat) : (s.auxDrive g code).clk = s.clk := rfl
@[simp] theorem auxNext_clk (g : Nat) : (s.auxNext g).clk = s.clk := by
  unfold State.auxNext; simp only; split <;> simp

@[simp] theorem auxMissing_clk (f : Nat) : (s.auxMissing f).clk = s.clk := rfl
@[simp] theorem tripAux_clk (g seq : Nat) (auxf : BitVec 8) (aux : List DWord) :
    (s.tripAux g seq auxf aux).clk = s.clk := rfl

@[simp] theorem urgLost_clk (g : Nat) (u : Urg) (a : Answer) :
    (s.urgLost g u a).clk = s.clk := by simp [State.urgLost]

@[simp] theorem urgDrop_clk (g : Nat) (u : Urg) : (s.urgDrop g u).clk = s.clk := by
  simp [State.urgDrop]

@[simp] theorem urgEnter_clk (g : Nat) (u : Urg) : (s.urgEnter g u).clk = s.clk := rfl
@[simp] theorem urgAsk_clk (g : Nat) (u : Urg) : (s.urgAsk g u).clk = s.clk := by
  unfold State.urgAsk
  simp only
  split_ifs
  · simp
  · split <;> simp
  · simp

@[simp] theorem auxDeliver_clk (r : AuxResult) : (s.auxDeliver r).clk = s.clk := by
  simp [State.auxDeliver]

@[simp] theorem freshConv_clk (c : Conv) : (s.freshConv c).clk = s.clk := by simp [State.freshConv]
@[simp] theorem auxAbort_clk (g : Nat) (x : AuxRun) : (s.auxAbort g x).clk = s.clk := by
  simp [State.auxAbort]

@[simp] theorem auxCut_clk (g : Nat) : (s.auxCut g).clk = s.clk := by
  unfold State.auxCut; simp only; split <;> simp

@[simp] theorem auxFigCut_clk (g f : Nat) : (s.auxFigCut g f).clk = s.clk := by
  unfold State.auxFigCut; simp only; split <;> simp

/-! ### Machine/Comb.lean -/

@[simp] theorem eachPort_clk (g : Nat) (f : State → Nat → State)
    (hf : ∀ s x, (f s x).clk = s.clk) : (s.eachPort g f).clk = s.clk := foldl_clk s _ (fun t _ => hf t _) _

@[simp] theorem keepSample_clk (p : Nat) (i : Instant) (x : Sample) :
    (s.keepSample p i x).clk = s.clk := by simp [State.keepSample]

@[simp] theorem takeInstant_clk (g : Nat) (i : Instant) (stamp : DWord) :
    (s.takeInstant g i stamp).clk = s.clk := by simp [State.takeInstant, foldl_clk]

@[simp] theorem combTake_clk (g : Nat) (p : Instant → Bool) : (s.combTake g p).clk = s.clk := by
  simp [State.combTake, foldl_clk]

@[simp] theorem combFinish_clk (g : Nat) : (s.combFinish g).clk = s.clk := by
  simp [State.combFinish]

@[simp] theorem combDue_clk (g : Nat) : (s.combDue g).clk = s.clk := by simp [State.combDue]
@[simp] theorem apCut_clk (f cause : Nat) : (s.apCut f cause).clk = s.clk := by
  unfold State.apCut; split <;> simp

/-! ### Machine/Mains.lean -/

@[simp] theorem modMt_clk (f : MtBlk → MtBlk) : (s.modMt f).clk = s.clk := rfl

/-! ### Machine/CalOps.lean -/

@[simp] theorem modCalib_clk (f : Cal → Cal) : (s.modCalib f).clk = s.clk := rfl
@[simp] theorem tellBusy_clk (before : State) : (State.tellBusy before s).clk = s.clk := by
  simp [State.tellBusy]

/-! ### Machine/Spare.lean -/

@[simp] theorem spareFollow_clk (g : Nat) : (s.spareFollow g).clk = s.clk := by
  simp [State.spareFollow]

@[simp] theorem spare_clk (g : Nat) (role : SpareRole) (slice : Nat) :
    (s.spare g role slice).clk = s.clk := by simp [State.spare]

@[simp] theorem spareIdle_clk (g : Nat) : (s.spareIdle g).clk = s.clk := by simp [State.spareIdle]

/-! ### Machine/Point.lean -/

@[simp] theorem swpFlag_clk (f : Nat) (m : Word) : (s.swpFlag f m).clk = s.clk := rfl
@[simp] theorem report_clk (f point state cause : Nat) (flags : BitVec 16) (pass : Word) (mtStart : DWord) :
    (s.report f point state cause flags pass mtStart).clk = s.clk := by simp [State.report]

@[simp] theorem forgetGo_clk (f : Nat) : (s.forgetGo f).clk = s.clk := by
  unfold State.forgetGo; split <;> rfl

@[simp] theorem ptFinal_clk (f state cause : Nat) (extra : BitVec 16) :
    (s.ptFinal f state cause extra).clk = s.clk := by
  unfold State.ptFinal; split <;> simp

@[simp] theorem ptNotRun_clk (f cause : Nat) : (s.ptNotRun f cause).clk = s.clk := by
  simp [State.ptNotRun, foldl_clk]

@[simp] theorem listReport_clk (f state cause : Nat) :
    (s.listReport f state cause).clk = s.clk := rfl

@[simp] theorem setRun_clk (f : Nat) (r : RunState) : (s.setRun f r).clk = s.clk := rfl
@[simp] theorem listCut_clk (f cause : Nat) (extra : BitVec 16) (after : RunState) :
    (s.listCut f cause extra after).clk = s.clk := by simp [State.listCut]

@[simp] theorem tuneFlush_clk (g : Nat) : (s.tuneFlush g).clk = s.clk := by
  unfold State.tuneFlush; split <;> simp

@[simp] theorem tuneNoted_clk (n : TuneNote) : (s.tuneNoted n).clk = s.clk := by
  unfold State.tuneNoted; simp only; split <;> simp

@[simp] theorem tuneEnd_clk (g : Nat) (ok : Bool) : (s.tuneEnd g ok).clk = s.clk := by
  unfold State.tuneEnd; split <;> simp

@[simp] theorem tuneCut_clk (f : Nat) : (s.tuneCut f).clk = s.clk := by
  simp [State.tuneCut, foldl_clk]

@[simp] theorem captureCut_clk (f : Nat) : (s.captureCut f).clk = s.clk := by
  simp [State.captureCut, foldl_clk]

/-! ### Machine/Force.lean -/

@[simp] theorem openRamp_clk (p n : Nat) : (s.openRamp p n).clk = s.clk := rfl
@[simp] theorem leaveSlot_clk (f p : Nat) : (s.leaveSlot f p).clk = s.clk := by
  simp [State.leaveSlot]

@[simp] theorem leaveStages_clk (f : Nat) : (s.leaveStages f).clk = s.clk := by
  simp [State.leaveStages, foldl_clk]

@[simp] theorem figDisable_clk (f cause : Nat) : (s.figDisable f cause).clk = s.clk := by
  simp [State.figDisable, foldl_clk]

/-! ### Machine/Trip.lean -/

@[simp] theorem postRecord_clk (r : TripRec) : (s.postRecord r).clk = s.clk := by
  simp [State.postRecord]

@[simp] theorem snapAsk_clk (r : TripRec) (p : Nat) : (s.snapAsk r p).clk = s.clk := by
  simp [State.snapAsk]

@[simp] theorem tripActions_clk (p : Nat) (cause : Word) (seq : Word) (fig : Nat) :
    (s.tripActions p cause seq fig).clk = s.clk := by simp [State.tripActions]

@[simp] theorem pointMigrates_clk (f : Nat) (flags : BitVec 16) :
    (s.pointMigrates f flags).clk = s.clk := by simp [State.pointMigrates]

@[simp] theorem tripFigure_clk (f : Nat) (cause seq : Word) :
    (s.tripFigure f cause seq).clk = s.clk := by simp [State.tripFigure, foldl_clk]

@[simp] theorem addCause_clk (p : Nat) (cause : Word) : (s.addCause p cause).clk = s.clk := by
  simp [State.addCause]

@[simp] theorem trip_clk (p : Nat) (cause : Word) (mtCause : DWord) (detail : Nat) :
    (s.trip p cause mtCause detail).clk = s.clk := by
  unfold State.trip
  split_ifs
  · rfl
  · simp
  · rfl
  · simp only [tell_clk]
    rw [foldl_clk]
    · simp [foldl_clk]
    · intro t q
      split <;> simp

/-! ### Machine/Sweep.lean -/

@[simp] theorem setLevel_clk (f : Nat) (level : Int) : (s.setLevel f level).clk = s.clk := by
  simp [State.setLevel]

@[simp] theorem setMode_clk (f mode : Nat) : (s.setMode f mode).clk = s.clk := by
  simp [State.setMode, foldl_clk]

@[simp] theorem ownLevel_clk (f : Nat) : (s.ownLevel f).clk = s.clk := by simp [State.ownLevel]
@[simp] theorem listOutput_clk (f : Nat) : (s.listOutput f).clk = s.clk := by
  simp [State.listOutput]

@[simp] theorem endList_clk (f state cause : Nat) : (s.endList f state cause).clk = s.clk := by
  simp [State.endList]

@[simp] theorem slotEnd_clk (f : Nat) : (s.slotEnd f).clk = s.clk := by
  unfold State.slotEnd; split <;> simp

@[simp] theorem pointEnd_clk (f state cause : Nat) (extra : BitVec 16) :
    (s.pointEnd f state cause extra).clk = s.clk := by
  unfold State.pointEnd; split <;> simp

@[simp] theorem apGone_clk (f : Nat) (a : Aperture) : (s.apGone f a).clk = s.clk := by
  unfold State.apGone; split <;> simp

@[simp] theorem aperturesLost_clk : s.aperturesLost.clk = s.clk := by
  refine foldl_clk s _ (fun t e => ?_) _
  split <;> simp

/-! ### Machine/Wipe.lean -/

@[simp] theorem wipeAsk_clk (g off sel : Nat) (v : Word) :
    (s.wipeAsk g off sel v).clk = s.clk := rfl

@[simp] theorem wipeNow_clk (w : W1c) : (s.wipeNow w).clk = s.clk := by simp [State.wipeNow]

/-! ### Machine/Front.lean -/

@[simp] theorem modPfe_clk (f : Pfe → Pfe) : (s.modPfe f).clk = s.clk := rfl
@[simp] theorem modPri_clk (f : Primary → Primary) : (s.modPri f).clk = s.clk := rfl
@[simp] theorem relayRetry_clk : s.relayRetry.clk = s.clk := by simp [State.relayRetry]

/-! ### Machine/Reset.lean -/

@[simp] theorem modRst_clk (f : Rst → Rst) : (s.modRst f).clk = s.clk := rfl
@[simp] theorem modPeat_clk (f : Peat → Peat) : (s.modPeat f).clk = s.clk := rfl
@[simp] theorem calCut_clk : s.calCut.clk = s.clk := by simp [State.calCut, foldl_clk]
@[simp] theorem disown_clk : s.disown.clk = s.clk := rfl
@[simp] theorem mgmtReset_clk : s.mgmtReset.clk = s.clk := by simp [State.mgmtReset]
@[simp] theorem stagingLost_clk : s.stagingLost.clk = s.clk := rfl
@[simp] theorem dataStop_clk : s.dataStop.clk = s.clk := by simp [State.dataStop]
@[simp] theorem depart_clk (kind level : Nat) (src : BitVec 8) :
    (s.depart kind level src).clk = s.clk := rfl

@[simp] theorem orderedActions_clk : s.orderedActions.clk = s.clk := by
  simp [State.orderedActions, foldl_clk]

@[simp] theorem stagingDown_clk : s.stagingDown.clk = s.clk := by simp [State.stagingDown]
@[simp] theorem assertSource_clk (src level : Nat) (h0 : src ≠ 0) (h6 : src ≠ 6) :
    (s.assertSource src level).clk = s.clk := by
  simp [State.assertSource, h0, h6]

@[simp] theorem rstReq_clk (value : Word) : (s.rstReq value).clk = s.clk := by simp [State.rstReq]

/-! ### Machine/Regs.lean -/

@[simp] theorem setHolding_clk (port : Port) (t : Tab Word) :
    (s.setHolding port t).clk = s.clk := by
  unfold State.setHolding; split <;> rfl

@[simp] theorem emptyHolding_clk (port : Port) (lo hi : Nat) :
    (s.emptyHolding port lo hi).clk = s.clk := by simp [State.emptyHolding]

@[simp] theorem writeSelect_clk (port : Port) (off : Nat) (v : Word) :
    (s.writeSelect port off v).clk = s.clk := by simp [State.writeSelect]

@[simp] theorem ring_clk (port : Port) (n : Nat) (v : Word) :
    (s.ring port n v).clk = s.clk := by simp [State.ring]

@[simp] theorem writeHost_clk (off : Nat) (v : Word) : (s.writeHost off v).clk = s.clk := by
  simp [State.writeHost]

@[simp] theorem writeRst_clk (off : Nat) (v : Word) : (s.writeRst off v).clk = s.clk := by
  simp [State.writeRst]

@[simp] theorem writeMtPfe_clk (off : Nat) (v : Word) : (s.writeMtPfe off v).clk = s.clk := by
  simp [State.writeMtPfe]

@[simp] theorem writeAcq_clk (off : Nat) (v : Word) : (s.writeAcq off v).clk = s.clk := by
  simp [State.writeAcq]

@[simp] theorem writeFr_clk (off : Nat) (v : Word) : (s.writeFr off v).clk = s.clk := by
  simp [State.writeFr]

@[simp] theorem writeLe_clk (off : Nat) (v : Word) : (s.writeLe off v).clk = s.clk := by
  simp [State.writeLe]

@[simp] theorem writeSup_clk (off : Nat) (v : Word) : (s.writeSup off v).clk = s.clk := by
  simp [State.writeSup]

@[simp] theorem writeSwp_clk (off : Nat) (v : Word) : (s.writeSwp off v).clk = s.clk := by
  simp [State.writeSwp]

@[simp] theorem writeErr_clk (off : Nat) (v : Word) : (s.writeErr off v).clk = s.clk := by
  simp [State.writeErr]

@[simp] theorem writeReg_clk (port : Port) (off : Nat) (v : Word) :
    (s.writeReg port off v).clk = s.clk := by simp [State.writeReg]

end

end Sys2Proof.Machine

/-! SUPPORT. The end of a step that raised nothing, and frames through the end of a step. -/

namespace Sys2Proof.Machine

section
variable {s t u : State} {p : Piece} {l : List Piece}

/-! ### Frames -/

theorem Kept.refl : Kept s s p := by
  cases p <;> simp [Kept]

theorem Kept.trans (h : Kept s t p) (k : Kept t u p) : Kept s u p := by
  cases p
  case twin =>
    simp only [Kept] at h k ⊢
    rw [← k] at h
    exact h
  all_goals simp_all [Kept]

/-- A part that a command leaves alone is the same after its step. -/
theorem keptBut_done (hc : u.clk = s.clk) (h : ∀ p ∉ l, Kept s u p) :
    KeptBut l s (State.done s u) :=
  ⟨rfl, hc, rfl, fun p hp => (h p hp).trans (done_kept s u p)⟩

/-! ### What a change of one block leaves alone -/

theorem kept_peat {x : Peat} (hl : .peat ∈ l) (h : p ∉ l) : Kept s { s with peat := x } p := by
  cases p <;> simp_all [Kept]

theorem kept_mt {x : MtBlk} (hl : .mt ∈ l) (h : p ∉ l) : Kept s { s with mt := x } p := by
  cases p <;> simp_all [Kept]

theorem kept_pfe {x : Pfe} (hl : .pfe ∈ l) (h : p ∉ l) : Kept s { s with pfe := x } p := by
  cases p <;> simp_all [Kept]

theorem kept_grp {x : Tab Grp} (hl : .grp ∈ l) (h : p ∉ l) : Kept s { s with grp := x } p := by
  cases p <;> simp_all [Kept]

theorem kept_misc {x : Misc} (hl : .misc ∈ l) (h : p ∉ l) : Kept s { s with misc := x } p := by
  cases p <;> simp_all [Kept]

theorem kept_cal {x : Cal} (hl : .cal ∈ l) (h : p ∉ l) : Kept s { s with cal := x } p := by
  cases p <;> simp_all [Kept]

theorem kept_fab {x : Fab} (hl : .routes ∈ l) (h : p ∉ l) : Kept s { s with fab := x } p := by
  cases p <;> simp_all [Kept]

theorem kept_sets {x : Sets} (hl : .sets ∈ l) (h : p ∉ l) : Kept s { s with sets := x } p := by
  cases p <;> simp_all [Kept]

theorem kept_que {x : Queues} (hl : .que ∈ l) (h : p ∉ l) : Kept s { s with que := x } p := by
  cases p <;> simp_all [Kept]

theorem kept_sto {x : Sto} (hl : .sto ∈ l) (h : p ∉ l) : Kept s { s with sto := x } p := by
  cases p <;> simp_all [Kept]

theorem kept_twin {x : Twin} (hl : .twin ∈ l) (h : p ∉ l) : Kept s { s with twin := x } p := by
  cases p <;> simp_all [Kept]

theorem kept_hostRegs {a b c : Word} {e : Spi} {hp hs : Holding} (hl : .hostRegs ∈ l) (h : p ∉ l) :
    Kept s { s with host := { s.host with
      flags := a, mbxRst := b, cplErr := c, spi := e, holdPcie := hp, holdSpi := hs } } p := by
  cases p <;> simp_all [Kept]

theorem kept_window {w : List Host.Cell} (hl : .window ∈ l) (h : p ∉ l) :
    Kept s { s with host := { s.host with window := w } } p := by
  cases p <;> simp_all [Kept]

/-- The error log, and counters of the event fabric, are no part that a frame names. -/
theorem kept_err {x : Err} : Kept s { s with err := x } p := by
  cases p <;> simp [Kept]

theorem kept_fabCnt {x : Tab Word} : Kept s { s with fab := { s.fab with cnt := x } } p := by
  cases p <;> simp [Kept]

/-! ### A step without events -/

/-- With no event raised the fabric carries nothing. -/
theorem carry_of_raised_nil (h : s.fab.raised = []) : s.carry = s := by
  have hits (f : Fab) (hf : f.raised = []) (n : Nat) : f.hits n = 0 := by simp [Fab.hits, hf]
  have heard : s.fab.sel.filter (fun e => e.2 < 256 && !s.deaf e.1 && 0 < s.fab.hits e.2) = [] := by
    simp [hits _ h]
  have seen (m : List (Nat × List Nat)) (f : Fab) :
      m.foldl (fun g e => g.see (s.fab.hits e.1) e.1) f = f := by
    induction m generalizing f with
    | nil => rfl
    | cons x m ih => rw [List.foldl_cons, ih]; simp [Fab.see, hits _ h]
  have keep : { s.fab with raised := [] } = s.fab := by rw [← h]
  unfold State.carry
  simp only [heard, List.foldl_nil, List.filter_nil, seen, keep, ite_self]

/-- A command after which no event waits, readiness is as it was and no counter has newly reached
all-ones. -/
structure Silent (s u : State) : Prop where
  raised : u.fab.raised = []
  ready : u.ready = s.ready
  saturated : u.saturated ⊆ s.saturated

theorem logSats_of_subset (h : u.saturated ⊆ s.saturated) : State.logSats s u = u := by
  have : u.saturated.filter (fun k => !s.saturated.contains k) = [] :=
    List.filter_eq_nil_iff.mpr fun k hk => by simp [h hk]
  rw [State.logSats, this, List.foldl_nil]

/-- Then its step ends in the command's own state, but for the interrupts. -/
theorem Silent.settled (h : Silent s u) :
    State.settled s u = { u with host := (State.vectors s u).foldl HostIf.vecAll u.host } := by
  have hr : State.raiseReady s u = u := if_pos h.ready
  have hc : u.carry = u := carry_of_raised_nil h.raised
  simp only [State.settled, hr, logSats_of_subset h.saturated, hc,
    logSats_of_subset (List.Subset.refl u.saturated)]

theorem Silent.done_fab (h : Silent s u) : (State.done s u).fab = u.fab := by
  simp only [State.done, h.settled]

theorem Silent.done_err (h : Silent s u) : (State.done s u).err = u.err := by
  simp only [State.done, h.settled]

end

end Sys2Proof.Machine

/-! SUPPORT. The flag and counter registers of BAR0 (Table 0.3, R10): each shows a field of the state, and a
write puts back that field with bits dropped, or cleared. -/

namespace Sys2Proof.Machine

section
variable {s u : State} {port : Port} {off : Nat} {v : Word} {p : Piece} {l : List Piece}

/-! ### REGISTER_WRITE -/

theorem exec_registerWrite (ho : s.opens port = true) (hoff : off < 0x10000) (size : Nat) :
    exec (.registerWrite port off size v) s =
      .next (State.done s (if size = 4 ∧ off % 4 = 0 then s.writeReg port off v else s.badAccess)) := by
  show execRegisterWrite port off size v s = _
  have h : ¬ ((!s.opens port) = true ∨ 0x10000 ≤ off) := by simp [ho, hoff]
  rw [execRegisterWrite, if_neg h]
  rfl

theorem isSelect_eq_false (h : off < 0x500 ∨ (0x804 < off ∧ off < 0x980)) : isSelect off = false := by
  simp [isSelect]
  omega

theorem isReg_bounds (h : isReg off = true) : off < 0x10000 ∧ off % 4 = 0 := by
  simp [isReg, regRanges] at h
  omega

/-- An aligned write of 4 bytes to a register. -/
theorem exec_registerWrite_reg (ho : s.opens port = true) (hr : isReg off = true) :
    exec (.registerWrite port off 4 v) s = .next (State.done s (s.writeReg port off v)) := by
  obtain ⟨hlt, hal⟩ := isReg_bounds hr
  rw [exec_registerWrite ho hlt, if_pos ⟨rfl, hal⟩]

/-! ### Registers that are a field of the state -/

/-- A register that shows a field of the state, where a write acts at once: the value becomes `act` of
what it was and of the value written, and of the parts of the state only those of `l` change. -/
structure FieldReg (act : Word → Word → Word) (l : List Piece) (off : Nat) (get : State → Word) :
    Prop where
  reg : isReg off = true
  reads : ∀ s port, s.readReg port off = get s
  writes : ∀ s port v, get (s.writeReg port off v) = act (get s) v
  ends : ∀ s port v, s.fab.raised = [] →
    get (State.done s (s.writeReg port off v)) = get (s.writeReg port off v)
  frame : ∀ s port v p, p ∉ l → Kept s (s.writeReg port off v) p

theorem FieldReg.exec_registerWrite {act : Word → Word → Word} {get : State → Word}
    (h : FieldReg act l off get) (ho : s.opens port = true) (hr : s.fab.raised = []) :
    ∃ t, exec (.registerWrite port off 4 v) s = .next t ∧
      t.readReg port off = act (s.readReg port off) v ∧ KeptBut l s t :=
  ⟨_, exec_registerWrite_reg ho h.reg, by rw [h.reads, h.ends _ _ _ hr, h.writes, h.reads],
    keptBut_done (writeReg_clk ..) (h.frame s port v)⟩

/-- The twin block's own fields after a step: its frames are all that a step adds. -/
theorem done_twin_field {α : Type} (f : Twin → α)
    (hf : ∀ (x : Twin) a b c, f { x with fseq := a, unacked := b, lastSent := c } = f x) :
    f (State.done s u).twin = f u.twin :=
  (hf (State.done s u).twin _ _ _).symm.trans (congrArg f (done_twin s u))

theorem done_peat_rstCount (s u : State) : (State.done s u).peat.rstCount = u.peat.rstCount := by
  obtain ⟨-, -, -, -, -, h, -⟩ := done_kept s u .peat
  exact h

theorem done_peat_wdogCnt (s u : State) : (State.done s u).peat.wdogCnt = u.peat.wdogCnt := by
  obtain ⟨-, -, -, -, -, -, h, -⟩ := done_kept s u .peat
  exact h

/-- The registers of the peat store, its era and its history after a step. -/
theorem done_peat (s u : State) : (State.done s u).peat.regs = u.peat.regs ∧
    (State.done s u).peat.era = u.peat.era ∧ (State.done s u).peat.history = u.peat.history := by
  obtain ⟨-, hr, hh, he, -⟩ := done_kept s u .peat
  exact ⟨hr, he, hh⟩

/-- A write to the event fabric's flags raises no event and saturates no counter. -/
theorem silent_fabFlags (h : s.fab.raised = []) (x : Word) :
    Silent s { s with fab := { s.fab with flags := x } } :=
  ⟨h, rfl, List.Subset.refl _⟩

/-! ### The event fabric's tables -/

theorem readReg_fab (hr : isReg off = true) (h1 : 0x800 ≤ off) (h2 : off < 0x900) :
    s.readReg port off = s.readFab off := by
  simp (disch := omega) only [State.readReg, hr, Bool.not_true, Bool.false_eq_true, if_neg,
    if_pos, if_false]

theorem writeReg_fab (hr : isReg off = true) (h1 : 0x810 ≤ off) (h2 : off < 0x900) :
    s.writeReg port off v = { s with fab := s.fab.write off v } := by
  have hs : isSelect off = false := isSelect_eq_false (by omega)
  simp (disch := omega) only [State.writeReg, hr, hs, Bool.not_true, Bool.false_eq_true, if_neg,
    if_pos, if_false]

theorem isReg_fab (h1 : 0x800 ≤ off) (h2 : off ≤ 0x834 ∨ 0x880 ≤ off) (h3 : off < 0x900)
    (h4 : off % 4 = 0) : isReg off = true := by
  simp [isReg, regRanges]; omega

theorem readReg_persist {k : Nat} (hk : k < 8) :
    s.readReg port (0x810 + 4 * k) = tget 0#32 s.fab.persist k := by
  rw [readReg_fab (isReg_fab (by omega) (by omega) (by omega) (by omega)) (by omega) (by omega)]
  have hi : (0x810 + 4 * k - 0x810) / 4 = k := by omega
  simp (disch := omega) only [State.readFab, if_neg, if_pos, hi]

theorem writeReg_persist {k : Nat} (hk : k < 8) :
    s.writeReg port (0x810 + 4 * k) v = { s with fab := { s.fab with
      persist := tput s.fab.persist k (wipe (tget 0#32 s.fab.persist k) v) } } := by
  rw [writeReg_fab (isReg_fab (by omega) (by omega) (by omega) (by omega)) (by omega) (by omega)]
  have hi : (0x810 + 4 * k - 0x810) / 4 = k := by omega
  simp (disch := omega) only [Fab.write, if_neg, if_pos, hi, Fab.persistClear, wipe]

theorem readReg_fabCnt {k : Nat} (hk : k < 32) :
    s.readReg port (0x880 + 4 * k) = tget 0#32 s.fab.cnt k := by
  rw [readReg_fab (isReg_fab (by omega) (by omega) (by omega) (by omega)) (by omega) (by omega)]
  have hi : (0x880 + 4 * k - 0x880) / 4 = k := by omega
  simp (disch := omega) only [State.readFab, if_neg, hi]

theorem writeReg_fabCnt {k : Nat} (hk : k < 32) :
    s.writeReg port (0x880 + 4 * k) v = { s with fab := { s.fab with cnt := clearIn s.fab.cnt k v } } := by
  rw [writeReg_fab (isReg_fab (by omega) (by omega) (by omega) (by omega)) (by omega) (by omega)]
  have hi : (0x880 + 4 * k - 0x880) / 4 = k := by omega
  simp (disch := omega) only [Fab.write, if_neg, if_pos, hi]

/-! ### Flags (W1C) -/

/-- The parts of the state that hold flag registers which a write acts on at once. -/
def flagParts : List Piece := [.hostRegs, .mt, .cal, .routes, .que, .sto, .twin]

theorem flagReg_persist {k : Nat} (hk : k < 8) :
    FieldReg wipe flagParts (0x810 + 4 * k) (fun s => tget 0#32 s.fab.persist k) where
  reg := isReg_fab (by omega) (by omega) (by omega) (by omega)
  reads _ _ := readReg_persist hk
  writes _ _ _ := by simp only [writeReg_persist hk, tget_tput_self]
  ends s port v _ := by
    obtain ⟨-, -, -, -, -, -, h⟩ := done_kept s (s.writeReg port (0x810 + 4 * k) v) .routes
    rw [h]
  frame s port v p h := by
    rw [writeReg_persist hk]
    exact kept_fab (l := flagParts) (by decide) h

/-- The other flag registers, in the order of their offsets. -/
theorem flagReg (h : off ∈ [0x14, 0x220, 0x784, 0x800, 0x994, 0xA04, 0xC04]) :
    ∃ get, FieldReg wipe flagParts off get := by
  simp only [List.mem_cons, List.not_mem_nil, or_false] at h
  rcases h with rfl | rfl | rfl | rfl | rfl | rfl | rfl
  · exact ⟨fun s => s.host.flags, rfl, fun _ _ => rfl, fun _ _ _ => rfl,
      fun s _ _ _ => done_host_flags s _, fun _ _ _ _ => kept_hostRegs (by decide)⟩
  · exact ⟨fun s => s.mt.flags, rfl, fun _ _ => rfl, fun _ _ _ => rfl, fun _ _ _ _ => rfl,
      fun _ _ _ _ => kept_mt (by decide)⟩
  · exact ⟨fun s => s.cal.flags, rfl, fun _ _ => rfl, fun _ _ _ => rfl, fun _ _ _ _ => rfl,
      fun _ _ _ _ => kept_cal (by decide)⟩
  · exact ⟨fun s => s.fab.flags, rfl, fun _ _ => rfl, fun _ _ _ => rfl, fun _ _ _ h =>
      congrArg Fab.flags (silent_fabFlags h _).done_fab,
      fun _ _ _ _ => kept_fab (by decide)⟩
  · exact ⟨fun s => s.que.flags, rfl, fun _ _ => rfl, fun _ _ _ => rfl, fun _ _ _ _ => rfl,
      fun _ _ _ _ => kept_que (by decide)⟩
  · exact ⟨fun s => s.sto.flags, rfl, fun _ _ => rfl, fun _ _ _ => rfl, fun _ _ _ _ => rfl,
      fun _ _ _ _ => kept_sto (by decide)⟩
  · exact ⟨fun s => s.twin.flags, rfl, fun _ _ => rfl, fun _ _ _ => rfl, 
      fun _ _ _ _ => done_twin_field Twin.flags (fun _ _ _ _ => rfl),
      fun _ _ _ _ => kept_twin (by decide)⟩

/-! ### Clearing a counter saturates none -/

theorem satReg_clearCounter {c : Word} {o lo sel : Nat} :
    satReg o lo sel (clearCounter c v) ⊆ satReg o lo sel c := by
  unfold clearCounter
  split
  · simp [satReg]
  · exact List.Subset.refl _

theorem mem_tput {α : Type} {t : Tab α} {k : Nat} {y : α} {e : Nat × α} (h : e ∈ tput t k y) :
    e ∈ t ∨ e = (k, y) := by
  induction t with
  | nil => simp_all [tput]
  | cons c t ih =>
    simp only [tput] at h
    split_ifs at h <;> simp_all <;> tauto

theorem mem_of_tget? {α : Type} {t : Tab α} {k : Nat} {y : α} (h : tget? t k = some y) : (k, y) ∈ t := by
  induction t with
  | nil => simp [tget?] at h
  | cons c t ih =>
    obtain ⟨n, w⟩ := c
    simp only [tget?] at h
    split_ifs at h with hn
    · simp_all
    · exact List.mem_cons_of_mem _ (ih h)

theorem satReg_clearIn {t : Tab Word} {k : Nat} {o lo sel : Nat → Nat} :
    (clearIn t k v).flatMap (fun e => satReg (o e.1) (lo e.1) (sel e.1) e.2) ⊆
      t.flatMap (fun e => satReg (o e.1) (lo e.1) (sel e.1) e.2) := by
  intro x hx
  obtain ⟨e, he, hk⟩ := List.mem_flatMap.mp hx
  rcases mem_tput he with he | rfl
  · exact List.mem_flatMap.mpr ⟨e, he, hk⟩
  · have hs := satReg_clearCounter hk
    cases hg : tget? t k with
    | none => simp [tget, hg, satReg] at hs
    | some w => exact List.mem_flatMap.mpr ⟨(k, w), mem_of_tget? hg, by simpa [tget, hg] using hs⟩

theorem append_subset_append {α : Type} {a b c d : List α} (h : a ⊆ c) (k : b ⊆ d) :
    a ++ b ⊆ c ++ d :=
  List.append_subset.mpr
    ⟨List.subset_append_of_subset_left _ h, List.subset_append_of_subset_right _ k⟩

theorem silent_fabCnt (h : s.fab.raised = []) (k : Nat) :
    Silent s { s with fab := { s.fab with cnt := clearIn s.fab.cnt k v } } where
  raised := h
  ready := rfl
  saturated := by
    unfold State.saturated
    repeat refine append_subset_append ?_ (List.Subset.refl _)
    exact append_subset_append (List.Subset.refl _)
      (satReg_clearIn (o := fun n => 0x880 + 4 * n) (lo := fun _ => 0) (sel := fun _ => 0))

theorem silent_errLost (h : s.fab.raised = []) :
    Silent s { s with err := { s.err with lost := clearCounter s.err.lost v } } where
  raised := h
  ready := rfl
  saturated := by
    unfold State.saturated
    repeat refine append_subset_append ?_ (List.Subset.refl _)
    exact append_subset_append (List.Subset.refl _) satReg_clearCounter

theorem silent_errIsoFrame (h : s.fab.raised = []) :
    Silent s { s with err := { s.err with isoFrame := clearCounter s.err.isoFrame v } } where
  raised := h
  ready := rfl
  saturated := by
    unfold State.saturated
    repeat refine append_subset_append ?_ (List.Subset.refl _)
    exact satReg_clearCounter

/-- The parts of the state that hold counters which a write acts on at once. -/
def counterParts : List Piece := [.hostRegs, .peat, .mt, .pfe, .misc, .cal, .sets, .que, .sto, .twin]

/-- A counter of the event fabric's consumers. -/
theorem counterReg_fabCnt {k : Nat} (hk : k < 32) :
    FieldReg clearCounter counterParts (0x880 + 4 * k) (fun s => tget 0#32 s.fab.cnt k) where
  reg := isReg_fab (by omega) (by omega) (by omega) (by omega)
  reads _ _ := readReg_fabCnt hk
  writes _ _ _ := by simp only [writeReg_fabCnt hk, clearIn, tget_tput_self]
  ends s port v h := by
    rw [writeReg_fabCnt hk, (silent_fabCnt h k).done_fab]
  frame s port v p _ := by
    rw [writeReg_fabCnt hk]
    exact kept_fabCnt

/-- The counters of the storage block. -/
theorem counterReg_sto (h : 0xA24 ≤ off ∧ off < 0xA40 ∧ off % 4 = 0) :
    ∃ get, FieldReg clearCounter counterParts off get := by
  have ho : off = 0xA24 ∨ off = 0xA28 ∨ off = 0xA2C ∨ off = 0xA30 ∨ off = 0xA34 ∨ off = 0xA38 ∨
      off = 0xA3C := by omega
  rcases ho with rfl | rfl | rfl | rfl | rfl | rfl | rfl
  · exact ⟨fun s => s.sto.progFail, rfl, fun _ _ => rfl, fun _ _ _ => rfl, fun _ _ _ _ => rfl,
      fun _ _ _ _ => kept_sto (by decide)⟩
  · exact ⟨fun s => s.sto.eraseFail, rfl, fun _ _ => rfl, fun _ _ _ => rfl, fun _ _ _ _ => rfl,
      fun _ _ _ _ => kept_sto (by decide)⟩
  · exact ⟨fun s => s.sto.timeoutCnt, rfl, fun _ _ => rfl, fun _ _ _ => rfl, fun _ _ _ _ => rfl,
      fun _ _ _ _ => kept_sto (by decide)⟩
  · exact ⟨fun s => s.sto.rdCorr, rfl, fun _ _ => rfl, fun _ _ _ => rfl, fun _ _ _ _ => rfl,
      fun _ _ _ _ => kept_sto (by decide)⟩
  · exact ⟨fun s => s.sto.lostCnt, rfl, fun _ _ => rfl, fun _ _ _ => rfl, fun _ _ _ _ => rfl,
      fun _ _ _ _ => kept_sto (by decide)⟩
  · exact ⟨fun s => s.sto.preempt, rfl, fun _ _ => rfl, fun _ _ _ => rfl, fun _ _ _ _ => rfl,
      fun _ _ _ _ => kept_sto (by decide)⟩
  · exact ⟨fun s => s.sto.drainRst, rfl, fun _ _ => rfl, fun _ _ _ => rfl, fun _ _ _ _ => rfl,
      fun _ _ _ _ => kept_sto (by decide)⟩

/-- The other counters, in the order of their offsets. -/
theorem counterReg (h : off ∈ [0x18, 0x1C, 0x110, 0x118, 0x224, 0x228, 0x258, 0x25C, 0x538, 0x788, 0x91C,
    0x998, 0x99C, 0x9BC, 0xC20, 0xC24, 0xC28, 0xC2C, 0xC30, 0xD10, 0xD14]) :
    ∃ get, FieldReg clearCounter counterParts off get := by
  simp only [List.mem_cons, List.not_mem_nil, or_false] at h
  rcases h with rfl | rfl | rfl | rfl | rfl | rfl | rfl | rfl | rfl | rfl | rfl | rfl | rfl | rfl | rfl |
    rfl | rfl | rfl | rfl | rfl | rfl
  · exact ⟨fun s => s.host.mbxRst, rfl, fun _ _ => rfl, fun _ _ _ => rfl,
      fun s _ _ _ => done_host_mbxRst s _, fun _ _ _ _ => kept_hostRegs (by decide)⟩
  · exact ⟨fun s => s.host.cplErr, rfl, fun _ _ => rfl, fun _ _ _ => rfl,
      fun s _ _ _ => done_host_cplErr s _, fun _ _ _ _ => kept_hostRegs (by decide)⟩
  · exact ⟨fun s => s.peat.rstCount, rfl, fun _ _ => rfl, fun _ _ _ => rfl, 
      fun s _ _ _ => done_peat_rstCount s _,
      fun _ _ _ _ => kept_peat (by decide)⟩
  · exact ⟨fun s => s.peat.wdogCnt, rfl, fun _ _ => rfl, fun _ _ _ => rfl, 
      fun s _ _ _ => done_peat_wdogCnt s _,
      fun _ _ _ _ => kept_peat (by decide)⟩
  · exact ⟨fun s => s.mt.rejCnt, rfl, fun _ _ => rfl, fun _ _ _ => rfl, fun _ _ _ _ => rfl,
      fun _ _ _ _ => kept_mt (by decide)⟩
  · exact ⟨fun s => s.mt.unlockCnt, rfl, fun _ _ => rfl, fun _ _ _ => rfl, fun _ _ _ _ => rfl,
      fun _ _ _ _ => kept_mt (by decide)⟩
  · exact ⟨fun s => s.pfe.dropCnt, rfl, fun _ _ => rfl, fun _ _ _ => rfl, fun _ _ _ _ => rfl,
      fun _ _ _ _ => kept_pfe (by decide)⟩
  · exact ⟨fun s => s.pfe.ocpCnt, rfl, fun _ _ => rfl, fun _ _ _ => rfl, fun _ _ _ _ => rfl,
      fun _ _ _ _ => kept_pfe (by decide)⟩
  · exact ⟨fun s => s.misc.tapDisc, rfl, fun _ _ => rfl, fun _ _ _ => rfl, fun _ _ _ _ => rfl,
      fun _ _ _ _ => kept_misc (by decide)⟩
  · exact ⟨fun s => s.cal.failCnt, rfl, fun _ _ => rfl, fun _ _ _ => rfl, fun _ _ _ _ => rfl,
      fun _ _ _ _ => kept_cal (by decide)⟩
  · exact ⟨fun s => s.sets.rejCnt, rfl, fun _ _ => rfl, fun _ _ _ => rfl, fun _ _ _ _ => rfl,
      fun _ _ _ _ => kept_sets (by decide)⟩
  · exact ⟨fun s => s.que.poisonCnt, rfl, fun _ _ => rfl, fun _ _ _ => rfl, fun _ _ _ _ => rfl,
      fun _ _ _ _ => kept_que (by decide)⟩
  · exact ⟨fun s => s.que.dropCnt, rfl, fun _ _ => rfl, fun _ _ _ => rfl, fun _ _ _ _ => rfl,
      fun _ _ _ _ => kept_que (by decide)⟩
  · exact ⟨fun s => s.que.ovfCnt, rfl, fun _ _ => rfl, fun _ _ _ => rfl, fun _ _ _ _ => rfl,
      fun _ _ _ _ => kept_que (by decide)⟩
  · exact ⟨fun s => s.twin.hbMiss, rfl, fun _ _ => rfl, fun _ _ _ => rfl, 
      fun _ _ _ _ => done_twin_field Twin.hbMiss (fun _ _ _ _ => rfl),
      fun _ _ _ _ => kept_twin (by decide)⟩
  · exact ⟨fun s => s.twin.frameErr, rfl, fun _ _ => rfl, fun _ _ _ => rfl, 
      fun _ _ _ _ => done_twin_field Twin.frameErr (fun _ _ _ _ => rfl),
      fun _ _ _ _ => kept_twin (by decide)⟩
  · exact ⟨fun s => s.twin.trainFail, rfl, fun _ _ => rfl, fun _ _ _ => rfl, 
      fun _ _ _ _ => done_twin_field Twin.trainFail (fun _ _ _ _ => rfl),
      fun _ _ _ _ => kept_twin (by decide)⟩
  · exact ⟨fun s => s.twin.takeover, rfl, fun _ _ => rfl, fun _ _ _ => rfl, 
      fun _ _ _ _ => done_twin_field Twin.takeover (fun _ _ _ _ => rfl),
      fun _ _ _ _ => kept_twin (by decide)⟩
  · exact ⟨fun s => s.twin.retx, rfl, fun _ _ => rfl, fun _ _ _ => rfl, 
      fun _ _ _ _ => done_twin_field Twin.retx (fun _ _ _ _ => rfl),
      fun _ _ _ _ => kept_twin (by decide)⟩
  · exact ⟨fun s => s.err.lost, rfl, fun _ _ => rfl, fun _ _ _ => rfl, 
      fun _ _ _ h => congrArg Err.lost (silent_errLost h).done_err,
      fun _ _ _ _ _ => kept_err⟩
  · exact ⟨fun s => s.err.isoFrame, rfl, fun _ _ => rfl, fun _ _ _ => rfl, 
      fun _ _ _ h => congrArg Err.isoFrame (silent_errIsoFrame h).done_err,
      fun _ _ _ _ _ => kept_err⟩

end

end Sys2Proof.Machine

/-! SUPPORT. Writes that wait for a group's loop tick (R17), and the peat registers (R146). -/

namespace Sys2Proof.Machine

section
variable {s : State} {port : Port} {off : Nat} {v : Word}

/-! ### Writes that wait -/

theorem writeReg_group (h1 : 0x440 ≤ off) (h2 : off < 0x4C0) (h4 : off % 4 = 0)
    (hg : s.hasGrp (off % 64 / 4) = true) : isReg off = true ∧
      s.writeReg port off v = s.wipeAsk (off % 64 / 4) off 0 v := by
  have hr : isReg off = true := by simp [isReg, regRanges]; omega
  have hs : isSelect off = false := isSelect_eq_false (by omega)
  refine ⟨hr, ?_⟩
  simp (disch := omega) only [State.writeReg, State.writeAcq, hr, hs, hg, Bool.not_true,
    Bool.false_eq_true, if_neg, if_pos, if_false, Bool.true_and, decide_eq_true_eq]

/-- The flag and counter registers that show the port of a select register (R310, R349, R376). -/
def PortReg (s : State) (off p : Nat) : Prop :=
  (off ∈ [0x58C, 0x590, 0x594] ∧ p = s.sel.fr.toNat) ∨
    (off ∈ [0x60C, 0x620, 0x624] ∧ p = bits s.sel.le 6 0) ∨
    (off ∈ [0x68C, 0x69C] ∧ p = s.sel.sup.toNat)

theorem writeReg_portReg {q : Nat} (h : PortReg s off q) (hp : s.hasPort q = true) :
    isReg off = true ∧ s.writeReg port off v = s.wipeAsk (q / 8) off q v := by
  unfold PortReg at h
  simp only [List.mem_cons, List.not_mem_nil, or_false] at h
  rcases h with ⟨ho, rfl⟩ | ⟨ho, rfl⟩ | ⟨ho, rfl⟩
  · rcases ho with rfl | rfl | rfl <;>
      exact ⟨rfl, by simp [State.writeReg, isReg, regRanges, isSelect, State.writeFr, hp]⟩
  · rcases ho with rfl | rfl | rfl <;>
      exact ⟨rfl, by simp [State.writeReg, isReg, regRanges, isSelect, State.writeLe, hp]⟩
  · rcases ho with rfl | rfl <;>
      exact ⟨rfl, by simp [State.writeReg, isReg, regRanges, isSelect, State.writeSup, hp]⟩

/-- A write that waits joins the list of its group, and that is all it does. -/
theorem exec_wipeAsk {g q : Nat} (ho : s.opens port = true)
    (h : isReg off = true ∧ s.writeReg port off v = s.wipeAsk g off q v) :
    ∃ t, exec (.registerWrite port off 4 v) s = .next t ∧
      t.grpAt g = { s.grpAt g with w1c := (s.grpAt g).w1c ++ [⟨off, q, v⟩] } ∧
      OnlyGrp g s t ∧ KeptBut [.grp] s t := by
  obtain ⟨hr, hw⟩ := h
  refine ⟨_, exec_registerWrite_reg ho hr, ?_, fun k hk => ?_, keptBut_done (by simp) fun p hp => ?_⟩ <;>
    rw [hw]
  · rw [done_grpAt, State.wipeAsk, grpAt_modGrp_self]
  · rw [done_grpAt, State.wipeAsk, grpAt_modGrp_other (h := hk)]
  · exact kept_grp (by decide) hp

/-! ### The peat registers -/

theorem writeReg_peatReg {k : Nat} (hk : k < 16) :
    isReg (0x140 + 4 * k) = true ∧ s.writeReg port (0x140 + 4 * k) v =
      { s with peat := { s.peat with regs := tput s.peat.regs k v } } := by
  have hr : isReg (0x140 + 4 * k) = true := by simp [isReg, regRanges]; omega
  have hs : isSelect (0x140 + 4 * k) = false := isSelect_eq_false (by omega)
  have hi : (0x140 + 4 * k - 0x140) / 4 = k := by omega
  refine ⟨hr, ?_⟩
  simp (disch := omega) only [State.writeReg, State.writeRst, State.modPeat, hr, hs, hi, Bool.not_true,
    Bool.false_eq_true, if_neg, if_pos, if_false]

end

end Sys2Proof.Machine

/-! SUPPORT. The frames of the service port (R545): where they reach, what they read and write, how they
end. -/

namespace Sys2Proof.Machine

section
variable {s : State} {port : Port} {off a n : Nat} {v : Word} {p : Piece} {l : List Piece}

/-! ### Addresses -/

/-- An address of BAR0: its place and its space. -/
theorem bits_bar0 (h : a < 2 ^ 28) :
    bits (BitVec.ofNat 32 a) 27 0 = a ∧ bits (BitVec.ofNat 32 a) 31 28 = 0 := by
  simp only [bits, BitVec.extractLsb'_toNat, BitVec.toNat_ofNat, Nat.shiftRight_eq_div_pow]
  omega

/-- An address of the service window: its place and its space. -/
theorem bits_window (h : a < 2 ^ 28) :
    bits (BitVec.ofNat 32 (0x10000000 + a)) 27 0 = a ∧
      bits (BitVec.ofNat 32 (0x10000000 + a)) 31 28 = 1 := by
  simp only [bits, BitVec.extractLsb'_toNat, BitVec.toNat_ofNat, Nat.shiftRight_eq_div_pow]
  omega

/-- An aligned frame that ends within its space is executed. -/
theorem frameOk_of_le {k : Nat} (hv : bits v 27 0 = a ∧ bits v 31 28 = k) (hk : k < 2) (ha : a % 4 = 0)
    (hn : n % 4 = 0) (h : a + n ≤ spaceSize k) : frameOk v n = true := by
  simp [frameOk, hv, hk, ha, hn, h]

/-! ### The end of a frame -/

theorem frameEnd_true (st : BitVec 8) (m : List Word) :
    s.frameEnd st true m = { s with host := { s.host with spi := ⟨true, false, m, st⟩ } } := rfl

theorem frameEnd_false (st : BitVec 8) (m : List Word) :
    s.frameEnd st false m = { s with host := { s.host with
      flags := s.host.flags ||| 0x80#32, spi := ⟨false, true, m, st⟩ } } := rfl

theorem exec_spiReadFrame_ok {k : Nat} (hu : s.rst.spiUp = true)
    (hv : bits v 27 0 = a ∧ bits v 31 28 = k) (h : frameOk v (4 * n) = true) :
    exec (.spiReadFrame v n) s = .next (State.done s
      ((s.readWords k a n).2.frameEnd s.spiStatus true (s.readWords k a n).1)) := by
  show execSpiReadFrame v n s = _
  simp [execSpiReadFrame, hu, h, hv, finish]

theorem exec_spiReadFrame_discarded (hu : s.rst.spiUp = true) (h : frameOk v (4 * n) = false) :
    exec (.spiReadFrame v n) s = .next (State.done s (s.frameEnd s.spiStatus false [])) := by
  show execSpiReadFrame v n s = _
  simp [execSpiReadFrame, hu, h, finish]

theorem exec_spiWriteFrame_ok {d : List Byte} {k : Nat} (hu : s.rst.spiUp = true)
    (hv : bits v 27 0 = a ∧ bits v 31 28 = k) (h : frameOk v d.length = true) :
    exec (.spiWriteFrame v d) s = .next (State.done s
      ((if k = 0 then s.writeWords a d else { s with host := s.host.winWrite a d }).frameEnd
        s.spiStatus true [])) := by
  show execSpiWriteFrame v d s = _
  simp [execSpiWriteFrame, hu, h, hv, finish]

theorem exec_spiWriteFrame_discarded {d : List Byte} (hu : s.rst.spiUp = true)
    (h : frameOk v d.length = false) :
    exec (.spiWriteFrame v d) s = .next (State.done s (s.frameEnd s.spiStatus false [])) := by
  show execSpiWriteFrame v d s = _
  simp [execSpiWriteFrame, hu, h, finish]

/-- A discarded frame leaves its flag and its status byte, and nothing else. -/
theorem frameEnd_discarded (st : BitVec 8) :
    (State.done s (s.frameEnd st false [])).host.spi = ⟨false, true, [], st⟩ ∧
      (State.done s (s.frameEnd st false [])).host.flags = s.host.flags ||| 0x80#32 ∧
      KeptBut [.hostRegs] s (State.done s (s.frameEnd st false [])) := by
  rw [frameEnd_false]
  exact ⟨done_host_spi .., done_host_flags .., keptBut_done rfl fun p hp => kept_hostRegs (by decide) hp⟩

/-! ### Reads -/

theorem readWords_length (space : Nat) : (s.readWords space a n).1.length = n := by
  induction n generalizing s a with
  | zero => rfl
  | succ n ih => simp [State.readWords, ih]

theorem setHolding_kept (x : Tab Word) (hl : .hostRegs ∈ l) (h : p ∉ l) :
    Kept s (s.setHolding port x) p := by
  cases port <;> exact kept_hostRegs hl h

/-- A read changes the holding registers and the generation tag of MT_NOW, and nothing else (R96 to R98). -/
theorem readAny_cases : ∃ m x, (s.readAny port off).2 = s ∨
    (s.readAny port off).2 = ({ s with mt := m } : State).setHolding port x := by
  unfold State.readAny State.readLow State.readHigh
  split_ifs
  · exact ⟨_, _, .inr rfl⟩
  · exact ⟨s.mt, _, .inr rfl⟩
  · split
    · exact ⟨s.mt, _, .inr rfl⟩
    · exact ⟨s.mt, [], .inl rfl⟩
  · exact ⟨s.mt, [], .inl rfl⟩

theorem readAny_clk : (s.readAny port off).2.clk = s.clk := by
  obtain ⟨m, x, h | h⟩ := readAny_cases (s := s) (port := port) (off := off) <;> simp [h]

theorem readAny_kept (h : p ∉ [Piece.hostRegs, .mt]) : Kept s (s.readAny port off).2 p := by
  obtain ⟨m, x, e | e⟩ := readAny_cases (s := s) (port := port) (off := off) <;> rw [e]
  · exact Kept.refl
  · exact (kept_mt (by decide) h).trans (setHolding_kept x (by decide) h)

theorem readWords_clk : (s.readWords 0 a n).2.clk = s.clk := by
  induction n generalizing s a with
  | zero => rfl
  | succ n ih => exact ih.trans readAny_clk

theorem readWords_kept (h : p ∉ [Piece.hostRegs, .mt]) : Kept s (s.readWords 0 a n).2 p := by
  induction n generalizing s a with
  | zero => exact Kept.refl
  | succ n ih => exact (readAny_kept h).trans ih

/-- A register that is no half of a pair is read without effect. -/
theorem readAny_single (h1 : (highsOf off).isEmpty = true) (h2 : isHigh off = false) :
    s.readAny port off = (s.readReg port off, s) := by
  simp [State.readAny, h1, h2]

/-- A frame that meets no half of a pair reads the registers as they stand. -/
theorem readWords_single (h : (List.range n).all (fun i =>
      (highsOf (a + 4 * i)).isEmpty && !isHigh (a + 4 * i)) = true) :
    s.readWords 0 a n = ((List.range n).map (fun i => s.readReg .service (a + 4 * i)), s) := by
  induction n generalizing a with
  | zero => rfl
  | succ n ih =>
    have hs (i : Nat) : a + 4 * (i + 1) = a + 4 + 4 * i := by omega
    simp only [List.range_succ_eq_map, List.all_cons, List.all_map, Function.comp_def, hs,
      Bool.and_eq_true, Bool.not_eq_true', Nat.succ_eq_add_one] at h
    obtain ⟨⟨h1, h2⟩, ht⟩ := h
    have hr : s.readWords 0 (a + 4) n = _ := ih (by simpa using ht)
    simp only [State.readWords, if_true, readAny_single (off := a) h1 h2, hr, List.range_succ_eq_map,
      List.map_cons, List.map_map, Function.comp_def, Nat.succ_eq_add_one, hs, Nat.mul_zero, Nat.add_zero]

theorem toNat_append_byte {w : Nat} (x : BitVec w) (b : Byte) :
    (x ++ b).toNat = 256 * x.toNat + b.toNat := by
  rw [BitVec.toNat_append, ← Nat.shiftLeft_add_eq_or_of_lt b.isLt, Nat.shiftLeft_eq]
  omega

/-- Four bytes as a word, the least significant first. -/
theorem ofNat_ofLe (b0 b1 b2 b3 : Byte) :
    BitVec.ofNat 32 (ofLe [b0, b1, b2, b3]) = b3 ++ b2 ++ b1 ++ b0 := by
  apply BitVec.eq_of_toNat_eq
  simp only [ofLe, BitVec.toNat_ofNat, toNat_append_byte]
  omega

/-- The words of the service window that a read frame clocks out. -/
theorem readWords_window :
    s.readWords 1 a n = ((List.range n).map (fun i =>
      cellGet s.host.window (a + 4 * i + 3) ++ cellGet s.host.window (a + 4 * i + 2) ++
        cellGet s.host.window (a + 4 * i + 1) ++ cellGet s.host.window (a + 4 * i)), s) := by
  induction n generalizing a with
  | zero => rfl
  | succ n ih =>
    have hs (i : Nat) : a + 4 * (i + 1) = a + 4 + 4 * i := by omega
    have hw : s.host.winRead a 4 = [cellGet s.host.window a, cellGet s.host.window (a + 1),
      cellGet s.host.window (a + 2), cellGet s.host.window (a + 3)] := rfl
    have hr : s.readWords 1 (a + 4) n = _ := ih
    simp only [State.readWords, if_neg one_ne_zero, hw, ofNat_ofLe, hr, List.range_succ_eq_map,
      List.map_cons, List.map_map, Function.comp_def, Nat.succ_eq_add_one, hs, Nat.mul_zero, Nat.add_zero]

/-! ### Writes -/

theorem writeWords_clk (d : List Byte) : (s.writeWords a d).clk = s.clk := by
  fun_induction State.writeWords s a d with
  | case1 s a b0 b1 b2 b3 d ih => rw [ih, writeReg_clk]
  | case2 => rfl

/-- Bytes written within the window are read back. -/
theorem cellGet_winWrite_inside {d : List Byte} {h : HostIf} {i : Nat} (hw : cellsWf h.window = true)
    (ha : a + d.length ≤ windowSize) (hi : i < d.length) :
    cellGet (h.winWrite a d).window (a + i) = d.getD i 0#8 := by
  induction d generalizing h a i with
  | nil => simp at hi
  | cons b d ih =>
    simp only [List.length_cons] at ha hi
    rw [HostIf.winWrite, if_pos (by omega)]
    cases i with
    | zero =>
      rw [cellGet_winWrite _ _ _ (by omega)]
      simp only [cellsWf, Bool.and_eq_true, decide_eq_true_eq] at hw
      exact cellGet_cellPut_self hw.2
    | succ i =>
      have hk := ih (h := { h with window := cellPut h.window a b }) (a := a + 1) (i := i)
        (cellsWf_cellPut hw (by omega)) (by omega) (by omega)
      rw [show a + (i + 1) = a + 1 + i by omega, hk]
      rfl

/-- A write frame to the service window leaves every part but the window and the frame's own register. -/
theorem kept_winWrite {d : List Byte} (hl : .window ∈ l) (h : p ∉ l) :
    Kept s { s with host := s.host.winWrite a d } p := by
  obtain ⟨w, hw⟩ := winWrite_eq d s.host a
  rw [hw]
  exact kept_window hl h

end

end Sys2Proof.Machine

/-! Register writes by access code and the service port's frames, one theorem for each kind of access, and
the obligation they settle. -/

namespace Sys2Proof.Machine

section
variable {s : State} {port : Port} {off a k n : Nat} {v : Word} {d : List Byte}

/-! ### Accesses of the registers -/

/-- Any access but an aligned one of 4 bytes to a register only sets BAD_ACCESS (R531, log entry 68). -/
theorem exec_registerWrite_bad {size : Nat} (ho : s.opens port = true) (hoff : off < 0x10000)
    (h : size ≠ 4 ∨ off % 4 ≠ 0 ∨ isReg off = false) :
    ∃ t, exec (.registerWrite port off size v) s = .next t ∧
      t.host.flags = s.host.flags ||| 0x40#32 ∧ KeptBut [.hostRegs] s t := by
  have hbad : (if size = 4 ∧ off % 4 = 0 then s.writeReg port off v else s.badAccess) = s.badAccess := by
    split_ifs with hs
    · have hr : isReg off = false := by tauto
      simp [State.writeReg, hr]
    · rfl
  refine ⟨_, exec_registerWrite ho hoff size, ?_⟩
  rw [hbad]
  exact ⟨done_host_flags .., keptBut_done rfl fun p hp => kept_hostRegs (by decide) hp⟩

/-- A flag register drops the bits written as 1. -/
theorem exec_registerWrite_flag (ho : s.opens port = true) (hr : s.fab.raised = [])
    (h : off ∈ [0x14, 0x220, 0x784, 0x800, 0x994, 0xA04, 0xC04] ∨
      (0x810 ≤ off ∧ off < 0x830 ∧ off % 4 = 0)) :
    ∃ t, exec (.registerWrite port off 4 v) s = .next t ∧
      t.readReg port off = wipe (s.readReg port off) v ∧ KeptBut flagParts s t := by
  rcases h with h | ⟨h1, h2, h4⟩
  · obtain ⟨get, hf⟩ := flagReg h
    exact hf.exec_registerWrite ho hr
  · obtain ⟨k, hk, rfl⟩ : ∃ k, k < 8 ∧ off = 0x810 + 4 * k :=
      ⟨(off - 0x810) / 4, by omega, by omega⟩
    exact (flagReg_persist hk).exec_registerWrite ho hr

/-- An event counter clears at all-ones and ignores any other value (R10). -/
theorem exec_registerWrite_counter (ho : s.opens port = true) (hr : s.fab.raised = [])
    (h : off ∈ [0x18, 0x1C, 0x110, 0x118, 0x224, 0x228, 0x258, 0x25C, 0x538, 0x788, 0x91C, 0x998, 0x99C,
        0x9BC, 0xC20, 0xC24, 0xC28, 0xC2C, 0xC30, 0xD10, 0xD14] ∨
      (0xA24 ≤ off ∧ off < 0xA40 ∧ off % 4 = 0) ∨ (0x880 ≤ off ∧ off < 0x900 ∧ off % 4 = 0)) :
    ∃ t, exec (.registerWrite port off 4 v) s = .next t ∧
      t.readReg port off = clearCounter (s.readReg port off) v ∧ KeptBut counterParts s t := by
  rcases h with h | h | ⟨h1, h2, h4⟩
  · obtain ⟨get, hf⟩ := counterReg h
    exact hf.exec_registerWrite ho hr
  · obtain ⟨get, hf⟩ := counterReg_sto h
    exact hf.exec_registerWrite ho hr
  · obtain ⟨k, hk, rfl⟩ : ∃ k, k < 32 ∧ off = 0x880 + 4 * k :=
      ⟨(off - 0x880) / 4, by omega, by omega⟩
    exact (counterReg_fabCnt hk).exec_registerWrite ho hr

/-- A peat register takes its value (R146). -/
theorem exec_registerWrite_peatReg (ho : s.opens port = true) (hk : k < 16) :
    ∃ t, exec (.registerWrite port (0x140 + 4 * k) 4 v) s = .next t ∧
      t.peat.regs = tput s.peat.regs k v ∧ t.peat.era = s.peat.era ∧ t.peat.history = s.peat.history ∧
      KeptBut [.peat] s t := by
  obtain ⟨hr, hw⟩ := writeReg_peatReg (s := s) (port := port) (v := v) hk
  refine ⟨_, exec_registerWrite_reg ho hr, ?_⟩
  rw [hw]
  obtain ⟨hregs, hera, hhist⟩ := done_peat s
    { s with peat := { s.peat with regs := tput s.peat.regs k v } }
  exact ⟨hregs, hera, hhist, keptBut_done rfl fun p hp => kept_peat (by decide) hp⟩

/-! ### Frames of the service port -/

/-- A read frame of BAR0 gives the words of its registers; only halves of pairs change anything. -/
theorem exec_spiReadFrame_bar0 (hu : s.rst.spiUp = true) (h4 : off % 4 = 0)
    (hle : off + 4 * n ≤ 0x10000) :
    ∃ t, exec (.spiReadFrame (BitVec.ofNat 32 off) n) s = .next t ∧
      t.host.spi.executed = true ∧ t.host.spi.discarded = false ∧ t.host.spi.status = s.spiStatus ∧
      t.host.spi.miso.length = n ∧
      ((List.range n).all (fun i => (highsOf (off + 4 * i)).isEmpty && !isHigh (off + 4 * i)) = true →
        t.host.spi.miso = (List.range n).map (fun i => s.readReg .service (off + 4 * i)) ∧
          KeptBut [.hostRegs] s t) ∧
      KeptBut [.hostRegs, .mt] s t := by
  have hv := bits_bar0 (a := off) (by omega)
  have hok := frameOk_of_le hv (n := 4 * n) (by omega) h4 (by omega) hle
  refine ⟨_, exec_spiReadFrame_ok hu hv hok, ?_⟩
  rw [frameEnd_true, done_host_spi]
  refine ⟨rfl, rfl, rfl, readWords_length 0, fun hs => ?_, ?_⟩
  · rw [readWords_single hs]
    exact ⟨rfl, keptBut_done rfl fun p hp => kept_hostRegs (by decide) hp⟩
  · exact keptBut_done readWords_clk fun p hp =>
      (readWords_kept hp).trans (kept_hostRegs (by decide) hp)

/-- A read frame of the service window gives its bytes (R544). -/
theorem exec_spiReadFrame_window (hu : s.rst.spiUp = true) (h4 : a % 4 = 0) (hle : a + 4 * n ≤ 1048576) :
    ∃ t, exec (.spiReadFrame (BitVec.ofNat 32 (0x10000000 + a)) n) s = .next t ∧
      t.host.spi = ⟨true, false, (List.range n).map (fun i =>
        cellGet s.host.window (a + 4 * i + 3) ++ cellGet s.host.window (a + 4 * i + 2) ++
          cellGet s.host.window (a + 4 * i + 1) ++ cellGet s.host.window (a + 4 * i)), s.spiStatus⟩ ∧
      KeptBut [.hostRegs] s t := by
  have hv := bits_window (a := a) (by omega)
  have hok := frameOk_of_le hv (n := 4 * n) (by omega) h4 (by omega) hle
  refine ⟨_, exec_spiReadFrame_ok hu hv hok, ?_⟩
  rw [readWords_window, frameEnd_true, done_host_spi]
  exact ⟨rfl, keptBut_done rfl fun p hp => kept_hostRegs (by decide) hp⟩

/-- A write frame to a peat register. -/
theorem exec_spiWriteFrame_peatReg {b0 b1 b2 b3 : Byte} (hu : s.rst.spiUp = true) (hk : k < 16) :
    ∃ t, exec (.spiWriteFrame (BitVec.ofNat 32 (0x140 + 4 * k)) [b0, b1, b2, b3]) s = .next t ∧
      t.peat.regs = tput s.peat.regs k (b3 ++ b2 ++ b1 ++ b0) ∧
      t.host.spi = ⟨true, false, [], s.spiStatus⟩ ∧ t.peat.era = s.peat.era ∧
      t.peat.history = s.peat.history ∧ KeptBut [.peat, .hostRegs] s t := by
  have hv := bits_bar0 (a := 0x140 + 4 * k) (by omega)
  have hok := frameOk_of_le hv (n := [b0, b1, b2, b3].length) (by omega) (by omega) (by simp)
    (by simp [spaceSize]; omega)
  obtain ⟨-, hw⟩ := writeReg_peatReg (s := s) (port := .service) (v := b3 ++ b2 ++ b1 ++ b0) hk
  have hww : s.writeWords (0x140 + 4 * k) [b0, b1, b2, b3] = _ := hw
  refine ⟨_, exec_spiWriteFrame_ok hu hv hok, ?_⟩
  rw [if_pos rfl, hww, frameEnd_true, done_host_spi]
  obtain ⟨hregs, hera, hhist⟩ := done_peat s _
  exact ⟨hregs, rfl, hera, hhist, keptBut_done rfl fun p hp =>
    (kept_peat (by decide) hp).trans (kept_hostRegs (by decide) hp)⟩

/-- A write frame to BAR0 is executed; no register moves the clock. -/
theorem exec_spiWriteFrame_bar0 (hu : s.rst.spiUp = true) (h4 : a % 4 = 0) (hd : d.length % 4 = 0)
    (hle : a + d.length ≤ 0x10000) :
    ∃ t, exec (.spiWriteFrame (BitVec.ofNat 32 a) d) s = .next t ∧
      t.host.spi = ⟨true, false, [], s.spiStatus⟩ ∧
      t.clk = s.clk ∧ t.pending = s.pending ∧ t.ident = s.ident := by
  have hv := bits_bar0 (a := a) (by omega)
  refine ⟨_, exec_spiWriteFrame_ok hu hv (frameOk_of_le hv (by omega) h4 hd hle), ?_⟩
  rw [if_pos rfl, frameEnd_true, done_host_spi]
  exact ⟨rfl, writeWords_clk d, rfl, rfl⟩

/-- A write frame to the service window leaves its bytes there and the others as they were (R544). -/
theorem exec_spiWriteFrame_window (hu : s.rst.spiUp = true) (h4 : a % 4 = 0) (hd : d.length % 4 = 0)
    (hle : a + d.length ≤ 1048576) (hw : cellsWf s.host.window = true) :
    ∃ t, exec (.spiWriteFrame (BitVec.ofNat 32 (0x10000000 + a)) d) s = .next t ∧
      (∀ i, i < d.length → cellGet t.host.window (a + i) = d.getD i 0#8) ∧
      (∀ x, ¬ (a ≤ x ∧ x < a + d.length) → cellGet t.host.window x = cellGet s.host.window x) ∧
      t.host.spi = ⟨true, false, [], s.spiStatus⟩ ∧ cellsWf t.host.window = true ∧
      KeptBut [.hostRegs, .window] s t := by
  have hv := bits_window (a := a) (by omega)
  refine ⟨_, exec_spiWriteFrame_ok hu hv (frameOk_of_le hv (by omega) h4 hd hle), ?_⟩
  rw [if_neg one_ne_zero, frameEnd_true, done_host_spi, done_host_window]
  exact ⟨fun i hi => cellGet_winWrite_inside hw hle hi,
    fun x hx => cellGet_winWrite d s.host a (by omega), rfl, cellsWf_winWrite d s.host a hw,
    keptBut_done rfl fun p hp => (kept_winWrite (by decide) hp).trans (kept_hostRegs (by decide) hp)⟩

end

/-- Settles O32: each clause is the theorem above for its kind of access. -/
theorem registerWrites : Obligations.RegisterWrites := by
  unfold Obligations.RegisterWrites
  refine ⟨?_, ?_, ?_, ?_, ?_, ?_, ?_, ?_, ?_, ?_, ?_, ?_, ?_⟩
  · exact fun s port off size v ho hoff h => exec_registerWrite_bad ho hoff h
  · exact fun s port off v ho hr h => exec_registerWrite_flag ho hr h
  · exact fun s port off v ho hr h => exec_registerWrite_counter ho hr h
  · rintro s port off v ho ⟨⟨h1, h2, h4⟩, hg⟩
    exact exec_wipeAsk ho (writeReg_group h1 h2 h4 hg)
  · exact fun s port off p v ho h hp => exec_wipeAsk ho (writeReg_portReg h hp)
  · exact fun s port k v ho hk => exec_registerWrite_peatReg ho hk
  · exact fun s off n hu ⟨h4, hle⟩ => exec_spiReadFrame_bar0 hu h4 hle
  · exact fun s a n hu ⟨h4, hle⟩ => exec_spiReadFrame_window hu h4 hle
  · exact fun s v n hu hbad => ⟨_, exec_spiReadFrame_discarded hu hbad, frameEnd_discarded _⟩
  · exact fun s k b0 b1 b2 b3 hu hk => exec_spiWriteFrame_peatReg hu hk
  · exact fun s a d hu ⟨h4, hd, hle⟩ => exec_spiWriteFrame_bar0 hu h4 hd hle
  · exact fun s a d hu ⟨h4, hd, hle⟩ hw => exec_spiWriteFrame_window hu h4 hd hle hw
  · exact fun s v d hu hbad => ⟨_, exec_spiWriteFrame_discarded hu hbad, frameEnd_discarded _⟩

end Sys2Proof.Machine

/-! SUPPORT. What disabling a figure leaves alone (R117, R402): everything but groups, ports, figures,
queues, results and signals; and of the figures, whether each other one is enabled. One lemma for each
operation, by the file of the model. -/

namespace Sys2Proof.Machine

section
variable {s t u : State} {p : Piece}

/-! ### The projection -/

/-- The state without what cutting the work of a figure touches: the groups, ports, figures and queues, the
mailboxes with their commands and the service window, free values, frames for a partner, and signals. -/
def State.steady (s : State) : State :=
  { s.quiet with
    grp := [], sp := [], fig := [], que := State.reset.que, misc := State.reset.misc, free := 0
    host := { s.host.bare with mbx := [], fetched := [], outst := [], window := [] }
    twin := { s.twin with fseq := 0#32, unacked := [], lastSent := (0, 0#32) } }

/-- That state, and which figures are enabled. -/
def State.core (s : State) : State × (Nat → Bool) := (s.steady, fun n => (s.figAt n).enabled)

/-- The event routes (R436, R439, R440). -/
def State.routes (s : State) : Tab (List Nat) × Tab Nat × Tab Nat := (s.fab.masks, s.fab.taps, s.fab.sel)

/-- The parts of the state that are no part of `steady`. -/
def workParts : List Piece := [.fig, .grp, .sp, .que, .requests, .mbx, .window, .misc, .free]

theorem steady_of_core (h : t.core = s.core) : t.steady = s.steady := congrArg Prod.fst h

theorem enabled_of_core (h : t.core = s.core) (n : Nat) : (t.figAt n).enabled = (s.figAt n).enabled :=
  congrFun (congrArg Prod.snd h) n

theorem routes_of_steady (h : t.steady = s.steady) : t.routes = s.routes :=
  (congrArg State.routes h :)

theorem routes_of_core (h : t.core = s.core) : t.routes = s.routes := routes_of_steady (steady_of_core h)

theorem iso_of_steady (h : t.steady = s.steady) : t.iso = s.iso := (congrArg State.iso h :)

theorem pfe_of_steady (h : t.steady = s.steady) : t.pfe = s.pfe := (congrArg State.pfe h :)

theorem mt_of_steady (h : t.steady = s.steady) : t.mt = s.mt := (congrArg State.mt h :)

theorem cal_of_steady (h : t.steady = s.steady) : t.cal = s.cal := (congrArg State.cal h :)

theorem clk_of_steady (h : t.steady = s.steady) : t.clk = s.clk := (congrArg State.clk h :)

theorem holdup_of_steady (h : t.steady = s.steady) : t.peat.holdup = s.peat.holdup :=
  (congrArg (fun x : State => x.peat.holdup) h :)

theorem steady_of_quiet (h : t.quiet = s.quiet) : t.steady = s.steady := (congrArg State.steady h :)

theorem core_of_quiet (h : t.quiet = s.quiet) : t.core = s.core := (congrArg State.core h :)

/-- Signals are no part that a frame names. -/
theorem kept_of_quiet (h : t.quiet = s.quiet) (p : Piece) : Kept s t p := by
  simp only [State.quiet, HostIf.bare, Fab.bare, State.mk.injEq, Peat.mk.injEq, HostIf.mk.injEq,
    Fab.mk.injEq] at h
  cases p <;> simp_all [Kept]

theorem kept_of_steady (h : t.steady = s.steady) (hp : p ∉ workParts) : Kept s t p := by
  have hpeat := congrArg State.peat h
  have hhost := congrArg State.host h
  have hfab := congrArg State.fab h
  have htwin := congrArg State.twin h
  simp only [State.steady, State.quiet, HostIf.bare, Fab.bare, Peat.mk.injEq, HostIf.mk.injEq, Fab.mk.injEq,
    Twin.mk.injEq] at hpeat hhost hfab htwin
  cases p
  case rst => exact (congrArg State.rst h :)
  case iso => exact (congrArg State.iso h :)
  case mt => exact (congrArg State.mt h :)
  case pfe => exact (congrArg State.pfe h :)
  case sets => exact (congrArg State.sets h :)
  case sto => exact (congrArg State.sto h :)
  case cal => exact (congrArg State.cal h :)
  case sel => exact (congrArg State.sel h :)
  case peat | routes | link | hdr | hostRegs | twin => simp_all [Kept]
  case grp | sp | fig | que | mbx | requests | window | misc | free => simp [workParts] at hp

/-! ### Elementary changes -/

@[simp] theorem core_ite (c : Prop) [Decidable c] (t u : State) :
    (if c then t else u).core = if c then t.core else u.core := apply_ite State.core c t u

theorem foldl_core {β : Type} (f : State → β → State) (hf : ∀ s x, (f s x).core = s.core) (l : List β)
    (s : State) : (l.foldl f s).core = s.core := by
  induction l generalizing s with
  | nil => rfl
  | cons x l ih => rw [List.foldl_cons, ih, hf]

variable (s)

@[simp] theorem modGrp_core (g : Nat) (f : Grp → Grp) : (s.modGrp g f).core = s.core := rfl
@[simp] theorem modSp_core (p : Nat) (f : Sp → Sp) : (s.modSp p f).core = s.core := rfl
@[simp] theorem modQue_core (q : Nat) (f : Queue → Queue) : (s.modQue q f).core = s.core := rfl

/-- Enabled or not is all that counts of a figure. -/
@[simp] theorem modFig_core (n : Nat) (f : Fig → Fig) (h : ∀ x, (f x).enabled = x.enabled) :
    (s.modFig n f).core = s.core := by
  refine Prod.ext rfl (funext fun k => ?_)
  by_cases hk : k = n
  · simp [hk, State.core, h]
  · simp [State.core, figAt_modFig_other (h := hk)]

theorem foldl_modSp_core {β : Type} (l : List β) (k : β → Nat) (f : State → β → Sp → Sp) :
    (l.foldl (fun t p => t.modSp (k p) (f t p)) s).core = s.core :=
  foldl_core (fun t p => t.modSp (k p) (f t p)) (fun _ _ => rfl) l s

/-! ### Machine/Ops.lean -/

@[simp] theorem raise_core (c : Nat) : (s.raise c).core = s.core := core_of_quiet (raise_quiet s c)
@[simp] theorem raisePort_core (p k : Nat) : (s.raisePort p k).core = s.core := raise_core s _
@[simp] theorem raiseGrp_core (g k : Nat) : (s.raiseGrp g k).core = s.core := raise_core s _
@[simp] theorem raiseFig_core (f kind : Nat) : (s.raiseFig f kind).core = s.core := raise_core s _

@[simp] theorem log_core (e : ErrSpec) : (s.log e).core = s.core := core_of_quiet (log_quiet s e)
@[simp] theorem sendReliable_core (ftype : Nat) : (s.sendReliable ftype).core = s.core := rfl
@[simp] theorem tell_core (ftype : Nat) : (s.tell ftype).core = s.core := by simp [State.tell]

/-- An answer touches its mailbox, the service window and interrupts. -/
theorem answer_eq (w : Waiter) (a : Answer) : ∃ m c y z i, s.answer w a = { s with host := { s.host with
    mbx := m, window := c, sent := y, pba := z, irqPend := i } } := by
  unfold State.answer
  split
  · obtain ⟨m, c, y, z, i, e, -, -⟩ := writeResponse_eq s.host w.mbx w.outAddr
      (responseFor w a s.mt.mt s.sets.castSeq)
    exact ⟨_, c, y, z, i, by rw [e]⟩
  · exact ⟨_, _, _, _, _, rfl⟩

@[simp] theorem answer_core (w : Waiter) (a : Answer) : (s.answer w a).core = s.core := by
  obtain ⟨m, c, y, z, i, e⟩ := answer_eq s w a
  rw [e]
  rfl

@[simp] theorem complete_core (p : Outstanding → Bool) (a : Answer) : (s.complete p a).core = s.core := by
  unfold State.complete
  split
  · rfl
  · simp only [core_ite, answer_core, ite_self]
    rfl

end

end Sys2Proof.Machine

/-! SUPPORT. The operations that cut the work of a figure keep `core`: what `steady` shows of the state, and
which figures are enabled. -/

namespace Sys2Proof.Machine

section
variable (s : State)

/-! ### Machine/Commit.lean -/

@[simp] theorem produce_core (qid : Nat) (b : Building) : (s.produce qid b).core = s.core := by
  simp [State.produce]

@[simp] theorem produceRecord_core (fig stream : Nat) (key : Word) (bytes : List Byte) :
    (s.produceRecord fig stream key bytes).core = s.core := by simp [State.produceRecord]

@[simp] theorem queueEvent_core (qid : Nat) (e : QueueEvent) : (s.queueEvent qid e).core = s.core := by
  simp [State.queueEvent, State.logQueueEvent]

@[simp] theorem queFlag_core (m : Word) : (s.queFlag m).core = s.core := rfl
@[simp] theorem abandon_core (qid cause : Nat) (b : Building) :
    (s.abandon qid cause b).core = s.core := by simp [State.abandon]

@[simp] theorem tuneAnswer_core (n : TuneNote) : (s.tuneAnswer n).core = s.core := by
  simp [State.tuneAnswer]

@[simp] theorem tuneCommit_core (n : Option TuneNote) : (s.tuneCommit n).core = s.core := by
  unfold State.tuneCommit; split <;> simp

/-! ### Machine/Measure.lean -/

@[simp] theorem apTake_core (f : Nat) (x : Nat → Sample) : (s.apTake f x).core = s.core := by
  unfold State.apTake; split <;> simp [foldl_modSp_core]

@[simp] theorem totTake_core (f : Nat) (x : Nat → Sample) : (s.totTake f x).core = s.core := by
  simp [State.totTake]

@[simp] theorem freshResult_core : s.freshResult.core = s.core := rfl
@[simp] theorem apDeliver_core (r : ApResult) : (s.apDeliver r).core = s.core := by
  simp [State.apDeliver]

@[simp] theorem apClose_core (f cause : Nat) : (s.apClose f cause).core = s.core := by
  unfold State.apClose; split <;> simp [foldl_modSp_core]

@[simp] theorem apDrop_core (f cause : Nat) : (s.apDrop f cause).core = s.core := by
  unfold State.apDrop; split <;> simp

/-! ### Machine/Port.lean -/

@[simp] theorem acqFlag_core (g : Nat) (m : Word) : (s.acqFlag g m).core = s.core := rfl

/-! ### Machine/Acq.lean -/

@[simp] theorem rawPush_core (g : Nat) (c : RawCap) (w : DWord) (stamp : DWord) :
    (s.rawPush g c w stamp).core = s.core := by simp [State.rawPush]

@[simp] theorem rawHalf_core (g : Nat) (w : Word) (stamp : DWord) :
    (s.rawHalf g w stamp).core = s.core := by
  unfold State.rawHalf
  split
  · rfl
  · split <;> simp

@[simp] theorem rawEnd_core (g : Nat) : (s.rawEnd g).core = s.core := by
  unfold State.rawEnd
  extract_lets u
  have hu : u.core = s.core := by simp only [u]; split <;> simp
  split
  · exact hu
  · extract_lets q t
    have ht : t.core = u.core := by simp only [t]; split <;> simp
    simp [ht, hu]

@[simp] theorem rawCut_core (g detail : Nat) : (s.rawCut g detail).core = s.core := by
  unfold State.rawCut
  split
  · rfl
  · extract_lets q t
    have ht : t.core = s.core := by simp only [t]; split <;> simp
    simp [ht]

@[simp] theorem rawCount_core (g : Nat) : (s.rawCount g).core = s.core := by
  unfold State.rawCount; split <;> simp

@[simp] theorem rawTake_core (g : Nat) (words : List (Nat × Word)) (stamp : DWord) :
    (s.rawTake g words stamp).core = s.core := by
  unfold State.rawTake
  split
  · rfl
  · simp [foldl_core]

@[simp] theorem auxDrive_core (g code : Nat) : (s.auxDrive g code).core = s.core := rfl
@[simp] theorem auxNext_core (g : Nat) : (s.auxNext g).core = s.core := by
  unfold State.auxNext; simp only; split <;> simp

@[simp] theorem auxMissing_core (f : Nat) : (s.auxMissing f).core = s.core := by simp [State.auxMissing]

@[simp] theorem urgLost_core (g : Nat) (u : Urg) (a : Answer) : (s.urgLost g u a).core = s.core := by
  simp [State.urgLost, State.tripAux]

@[simp] theorem urgDrop_core (g : Nat) (u : Urg) : (s.urgDrop g u).core = s.core := by
  simp [State.urgDrop]

@[simp] theorem urgEnter_core (g : Nat) (u : Urg) : (s.urgEnter g u).core = s.core := rfl
@[simp] theorem urgAsk_core (g : Nat) (u : Urg) : (s.urgAsk g u).core = s.core := by
  unfold State.urgAsk
  simp only
  split_ifs
  · simp
  · split <;> simp
  · simp

@[simp] theorem auxDeliver_core (r : AuxResult) : (s.auxDeliver r).core = s.core := by
  simp [State.auxDeliver]

@[simp] theorem freshConv_core (c : Conv) : (s.freshConv c).core = s.core := by
  unfold State.freshConv; split <;> rfl

@[simp] theorem auxAbort_core (g : Nat) (x : AuxRun) : (s.auxAbort g x).core = s.core := by
  simp [State.auxAbort]

@[simp] theorem auxCut_core (g : Nat) : (s.auxCut g).core = s.core := by
  unfold State.auxCut; simp only; split <;> simp

@[simp] theorem auxFigCut_core (g f : Nat) : (s.auxFigCut g f).core = s.core := by
  unfold State.auxFigCut; simp only; split <;> simp

/-! ### Machine/Comb.lean -/

@[simp] theorem keepSample_core (p : Nat) (i : Instant) (x : Sample) :
    (s.keepSample p i x).core = s.core := by simp [State.keepSample]

@[simp] theorem takeInstant_core (g : Nat) (i : Instant) (stamp : DWord) :
    (s.takeInstant g i stamp).core = s.core := by
  simp [State.takeInstant, State.eachPort, foldl_core]

@[simp] theorem combTake_core (g : Nat) (p : Instant → Bool) : (s.combTake g p).core = s.core := by
  simp [State.combTake, foldl_core]

@[simp] theorem combFinish_core (g : Nat) : (s.combFinish g).core = s.core := by
  simp [State.combFinish]

@[simp] theorem combDue_core (g : Nat) : (s.combDue g).core = s.core := by simp [State.combDue]
@[simp] theorem apCut_core (f cause : Nat) : (s.apCut f cause).core = s.core := by
  unfold State.apCut; split <;> simp

/-! ### Machine/Point.lean -/

@[simp] theorem swpFlag_core (f : Nat) (m : Word) : (s.swpFlag f m).core = s.core := by
  simp [State.swpFlag]

@[simp] theorem report_core (f point state cause : Nat) (flags : BitVec 16) (pass : Word) (mtStart : DWord) :
    (s.report f point state cause flags pass mtStart).core = s.core := by simp [State.report]

@[simp] theorem forgetGo_core (f : Nat) : (s.forgetGo f).core = s.core := by
  unfold State.forgetGo; split <;> rfl

@[simp] theorem ptFinal_core (f state cause : Nat) (extra : BitVec 16) :
    (s.ptFinal f state cause extra).core = s.core := by
  unfold State.ptFinal; split <;> simp

@[simp] theorem ptNotRun_core (f cause : Nat) : (s.ptNotRun f cause).core = s.core := by
  simp [State.ptNotRun, foldl_core]

@[simp] theorem listReport_core (f state cause : Nat) : (s.listReport f state cause).core = s.core := by
  simp [State.listReport]

@[simp] theorem setRun_core (f : Nat) (r : RunState) : (s.setRun f r).core = s.core := by
  simp [State.setRun]

@[simp] theorem listCut_core (f cause : Nat) (extra : BitVec 16) (after : RunState) :
    (s.listCut f cause extra after).core = s.core := by simp [State.listCut]

@[simp] theorem tuneFlush_core (g : Nat) : (s.tuneFlush g).core = s.core := by
  unfold State.tuneFlush; split <;> simp

@[simp] theorem tuneNoted_core (n : TuneNote) : (s.tuneNoted n).core = s.core := by
  unfold State.tuneNoted; simp only; split <;> simp

@[simp] theorem tuneEnd_core (g : Nat) (ok : Bool) : (s.tuneEnd g ok).core = s.core := by
  unfold State.tuneEnd; split <;> simp

@[simp] theorem tuneCut_core (f : Nat) : (s.tuneCut f).core = s.core := by
  simp [State.tuneCut, foldl_core]

@[simp] theorem captureCut_core (f : Nat) : (s.captureCut f).core = s.core := by
  simp [State.captureCut, foldl_core]

/-! ### Machine/Force.lean -/

@[simp] theorem openRamp_core (p n : Nat) : (s.openRamp p n).core = s.core := rfl
@[simp] theorem leaveSlot_core (f p : Nat) : (s.leaveSlot f p).core = s.core := by
  simp [State.leaveSlot]

@[simp] theorem leaveStages_core (f : Nat) : (s.leaveStages f).core = s.core := by
  simp [State.leaveStages, foldl_core]

end

end Sys2Proof.Machine

/-! SUPPORT. WINDDOWN disables every figure (R117), and what a mains loss does to the front end (R115, R116,
R119). -/

namespace Sys2Proof.Machine

section
variable {s t : State} {p : Piece} {l : List Piece}

/-! ### Disabling figures -/

theorem modFig_disabled_core (n : Nat) (f : Fig → Fig) (h : ∀ x, (f x).enabled = false) :
    (s.modFig n f).core = (s.steady, fun k => (s.figAt k).enabled && k != n) := by
  refine Prod.ext rfl (funext fun k => ?_)
  by_cases hk : k = n
  · simp [hk, State.core, h]
  · simp [hk, State.core, figAt_modFig_other (h := hk)]

/-- Disabling a figure leaves `steady` alone, and of the figures whether each other one is enabled. -/
theorem figDisable_core (f cause : Nat) :
    (s.figDisable f cause).core = (s.steady, fun k => (s.figAt k).enabled && k != f) := by
  unfold State.figDisable
  split
  next hf =>
    refine Prod.ext rfl (funext fun k => ?_)
    by_cases hk : k = f <;> simp_all [State.core]
  next =>
    extract_lets flags t u v
    have hu : ((u.tuneCut f).captureCut f).core = s.core := by simp [u, t]
    have hv : v.core = (s.steady, fun k => (s.figAt k).enabled && k != f) := by
      rw [modFig_disabled_core f _ fun _ => rfl, steady_of_core hu]
      simp only [enabled_of_core hu]
    rw [leaveStages_core, foldl_core _ fun t g => auxFigCut_core t g f, hv]

theorem foldl_figDisable_core (l : List (Nat × Fig)) (cause : Nat) :
    (l.foldl (fun t e => t.figDisable e.1 cause) s).core =
      (s.steady, fun k => (s.figAt k).enabled && l.all (fun e => k != e.1)) := by
  induction l generalizing s with
  | nil => simp [State.core]
  | cons e l ih =>
    have hc := figDisable_core (s := s) e.1 cause
    have hs : (s.figDisable e.1 cause).steady = s.steady := (congrArg Prod.fst hc :)
    have hf (k : Nat) : ((s.figDisable e.1 cause).figAt k).enabled = ((s.figAt k).enabled && k != e.1) :=
      congrFun (congrArg Prod.snd hc :) k
    simp only [List.foldl_cons, ih, hs, hf, List.all_cons, Bool.and_assoc]

/-- A figure that is enabled stands in the table of figures. -/
theorem mem_of_enabled {n : Nat} (h : (s.figAt n).enabled = true) : (n, s.figAt n) ∈ s.fig := by
  cases hg : tget? s.fig n with
  | none => simp [State.figAt, tget, hg, Fig.init] at h
  | some x =>
    have hx : s.figAt n = x := by simp [State.figAt, tget, hg]
    exact hx ▸ mem_of_tget? hg

/-- WINDDOWN disables every figure and leaves `steady` alone but for the state it enters (R117). -/
theorem windDown_core :
    s.windDown.core =
      ((s.modPfe (fun x => { x with hu := .winddown, huClk := s.clk })).steady, fun _ => false) := by
  unfold State.windDown
  extract_lets t
  have hc : t.core = (s.modPfe (fun x => { x with hu := .winddown, huClk := s.clk })).core := raise_core _ _
  rw [foldl_figDisable_core, steady_of_core hc]
  refine Prod.ext rfl (funext fun k => Bool.eq_false_iff.mpr fun h => ?_)
  simp only [Bool.and_eq_true, List.all_eq_true, bne_iff_ne, List.mem_filter] at h
  obtain ⟨he, hall⟩ := h
  exact hall _ ⟨mem_of_enabled he, he⟩ rfl

/-! ### The front end at a mains loss -/

/-- A hold-up sequence has started and stands in a state (R119). -/
def State.heldUp (s : State) (m : HuState) : State :=
  { s with
    pfe := { s.pfe with faults := s.pfe.faults ||| 1#32, hu := m, huClk := s.clk }
    peat := { s.peat with holdup := true } }

/-- A mains loss does nothing with mains converters fed by DC, before mains has been valid, or once a
sequence runs (R115, R116, R120). -/
theorem mainsLoss_none {iso : Bool} (h : s.dcFed = true ∨ s.pfe.everValid = false ∨ s.pfe.hu ≠ .normal) :
    s.mainsLoss iso = s := by
  have hc : (s.dcFed || !s.pfe.everValid || s.pfe.hu != .normal) = true := by
    rcases h with h | h | h <;> simp [h]
  exact if_pos hc

theorem mainsLoss_start {iso : Bool} (h : s.dcFed = false ∧ s.pfe.everValid = true ∧ s.pfe.hu = .normal) :
    s.mainsLoss iso =
      if iso || (s.pfe.vbulk.isSome && decide (s.pfe.eUse ≤ s.pfe.eRes)) then s.huStart.windDown
      else s.huStart.modPfe (fun x => { x with hu := .ride, huClk := s.clk }) := by
  obtain ⟨hd, hv, hn⟩ := h
  have hc : ¬ (s.dcFed || !s.pfe.everValid || s.pfe.hu != .normal) = true := by simp [hd, hv, hn]
  rw [State.mainsLoss, if_neg hc]

theorem huStart_quiet (s : State) : s.huStart.quiet = ({ s with
    pfe := { s.pfe with faults := s.pfe.faults ||| 1#32 }, peat := { s.peat with holdup := true } } : State).quiet := by
  have h := raise_quiet (s.pfeFault 1#32) 0x920
  simp only [State.quiet, State.mk.injEq, Peat.mk.injEq] at h ⊢
  simp_all [State.huStart, State.pfeFault, State.modPfe]

/-- While the usable energy passes the reserve, or VBULK is unknown, a line loss starts RIDE (R115, R639). -/
theorem mainsLoss_ride (h : s.dcFed = false ∧ s.pfe.everValid = true ∧ s.pfe.hu = .normal)
    (he : s.pfe.vbulk = none ∨ s.pfe.eRes < s.pfe.eUse) :
    (s.mainsLoss false).quiet = (s.heldUp .ride).quiet := by
  have hc : (false || (s.pfe.vbulk.isSome && decide (s.pfe.eUse ≤ s.pfe.eRes))) = false := by
    rcases he with he | he <;> simp [he]
  rw [mainsLoss_start h, hc, if_neg Bool.false_ne_true]
  exact (congrArg (fun t : State => t.modPfe (fun x => { x with hu := .ride, huClk := s.clk }))
    (huStart_quiet s) :)

/-- A failed channel, or a usable energy within the reserve, starts WINDDOWN, which disables every figure
(R115, R117). -/
theorem mainsLoss_windDown {iso : Bool} (h : s.dcFed = false ∧ s.pfe.everValid = true ∧ s.pfe.hu = .normal)
    (he : iso = true ∨ s.pfe.vbulk ≠ none ∧ s.pfe.eUse ≤ s.pfe.eRes) :
    (s.mainsLoss iso).core = ((s.heldUp .winddown).steady, fun _ => false) := by
  have hc : (iso || (s.pfe.vbulk.isSome && decide (s.pfe.eUse ≤ s.pfe.eRes))) = true := by
    rcases he with he | ⟨hv, he⟩
    · simp [he]
    · simp [he, Option.isSome_iff_ne_none.mpr hv]
  rw [mainsLoss_start h, hc, if_pos rfl, windDown_core]
  exact congrArg (·, fun _ => false) (congrArg (fun t : State =>
    (t.modPfe (fun x => { x with hu := .winddown, huClk := t.clk })).steady) (huStart_quiet s) :)

end

end Sys2Proof.Machine

/-! SUPPORT. The two ends of the isolation channel (R13 to R15): what each row does to the primary die, the
channel, mains time and the front end. -/

namespace Sys2Proof.Machine

section
variable {s t u : State} {p : Piece} {l m : List Piece}

/-! ### Frames -/

theorem KeptBut.mono (h : KeptBut l s t) (hl : l ⊆ m) : KeptBut m s t := by
  obtain ⟨hi, hc, hp, hk⟩ := h
  exact ⟨hi, hc, hp, fun p hm => hk p fun hx => hm (hl hx)⟩

theorem kept_iso {x : Iso} (hl : .iso ∈ l) (h : p ∉ l) : Kept s { s with iso := x } p := by
  cases p <;> simp_all [Kept]

theorem keptBut_iso {x : Iso} : KeptBut [.iso] s (State.done s { s with iso := x }) :=
  keptBut_done rfl fun _ hp => kept_iso (by decide) hp

theorem keptBut_pfe {x : Pfe} : KeptBut [.pfe] s (State.done s { s with pfe := x }) :=
  keptBut_done rfl fun _ hp => kept_pfe (by decide) hp

theorem keptBut_iso_pfe {x : Iso} {y : Pfe} :
    KeptBut [.iso, .pfe] s (State.done s { s with iso := x, pfe := y }) :=
  keptBut_done rfl fun _ hp => (kept_iso (x := x) (by decide) hp).trans (kept_pfe (by decide) hp)

theorem keptBut_same : KeptBut [] s (State.done s s) := keptBut_done rfl fun _ _ => Kept.refl

theorem done_peat_holdup (s u : State) : (State.done s u).peat.holdup = u.peat.holdup := by
  have hp := settled_peat s u
  have hd : (State.done s u).peat = s.peat.stamped (State.settled s u).peat := by simp only [State.done]
  simp only [Peat.mk.injEq] at hp
  rw [hd]
  unfold Peat.stamped
  split <;> simp_all

/-! ### ERR_ISO_FRAME is no part of the log -/

theorem raise_isoFrame (s : State) (c : Nat) : (s.raise c).err.isoFrame = s.err.isoFrame := by
  unfold State.raise; split <;> rfl

theorem form_isoFrame (e : Err) (clk : Nat) (r : ErrRec) : (e.form clk r).isoFrame = e.isoFrame := by
  have hf (r : ErrRec) : (e.freeze r).isoFrame = e.isoFrame := by unfold Err.freeze; split <;> rfl
  unfold Err.form
  split
  · rfl
  · split <;> simp [hf]

theorem log_isoFrame (s : State) (e : ErrSpec) : (s.log e).err.isoFrame = s.err.isoFrame := by
  simp only [State.log, State.formErr, apply_ite State.err, apply_ite Err.isoFrame, raise_isoFrame,
    form_isoFrame, ite_self]

theorem logSats_isoFrame (s u : State) : (State.logSats s u).err.isoFrame = u.err.isoFrame := by
  unfold State.logSats
  generalize u.saturated.filter _ = l
  induction l generalizing u with
  | nil => rfl
  | cons k l ih => rw [List.foldl_cons, ih, State.logSat, raise_isoFrame, log_isoFrame]

theorem carry_isoFrame (s : State) : s.carry.err.isoFrame = s.err.isoFrame := by
  unfold State.carry; split <;> rfl

theorem done_isoFrame (s u : State) : (State.done s u).err.isoFrame = u.err.isoFrame := by
  have hr : (State.raiseReady s u).err.isoFrame = u.err.isoFrame := by
    unfold State.raiseReady; split <;> simp [raise_isoFrame]
  have hd : (State.done s u).err = (State.settled s u).err := by simp only [State.done]
  simp only [hd, State.settled, carry_isoFrame, logSats_isoFrame, hr]

/-! ### The primary side -/

/-- A start of the PFC where it may run: its setpoint ramps from the measured VBULK. -/
theorem pfcTry_eq (s : State) : s.pfcTry = s.modPri (fun p => { p with
    pfcRun := p.pfcRun || s.pfcMay
    rampFrom := if s.pfcMay && !p.pfcRun then p.vbulk else p.rampFrom
    rampClk := if s.pfcMay && !p.pfcRun then s.clk else p.rampClk }) := by
  unfold State.pfcTry
  split
  next h => simp_all [State.modPri, State.modPfe]
  next h =>
    have hr : (s.pfe.pri.pfcRun || s.pfcMay) = s.pfe.pri.pfcRun := by
      cases hp : s.pfe.pri.pfcRun <;> simp_all
    simp only [State.modPri, State.modPfe, h, hr, if_false, Bool.false_eq_true]

/-- The primary die as it takes a frame, before its PFC starts or stops for it. -/
def State.framed (s : State) : Primary :=
  let x := s.iso
  let p := s.pfe.pri
  let close := !p.isoFailed && x.sentRelay && !p.relaySeen && !p.relayFault
  { p.setTo x.sentBulkV s.clk with
    pfcEn := x.sentPfcEn
    params := x.sentParams.foldl (fun a e => tput a e.1 e.2) p.params
    relaySeen := if !p.isoFailed then x.sentRelay else p.relaySeen
    relayCmd := p.relayCmd || close
    lineLoss := p.lineLoss && !close }

theorem setTo_eq (p : Primary) (v c : Nat) :
    ∃ a b, p.setTo v c = { p with rampFrom := a, rampClk := b, setpoint := v } := by
  unfold Primary.setTo
  split
  next h => exact ⟨p.rampFrom, p.rampClk, by rw [h]⟩
  next => exact ⟨_, _, rfl⟩

/-- A frame that enables the PFC, or finds it stopped, lets it start. -/
theorem frameToPrimary_try (h : s.iso.sentPfcEn = true ∨ s.pfe.pri.pfcRun = false) :
    s.frameToPrimary = (s.modPri (fun _ => s.framed)).pfcTry := by
  obtain ⟨a, b, hs⟩ := setTo_eq s.pfe.pri s.iso.sentBulkV s.clk
  refine if_neg ?_
  rcases h with h | h <;> simp [State.modPri, State.modPfe, hs, h]

/-- A frame that no longer enables a running PFC stops it. -/
theorem frameToPrimary_stop (h : s.iso.sentPfcEn = false ∧ s.pfe.pri.pfcRun = true) :
    s.frameToPrimary = (s.modPri (fun _ => s.framed)).pfcStop 0 := by
  obtain ⟨a, b, hs⟩ := setTo_eq s.pfe.pri s.iso.sentBulkV s.clk
  refine if_pos ?_
  simp [State.modPri, State.modPfe, hs, h]

/-- Of values sent in turn, the last one sent for a key stands. -/
theorem tget?_foldl_tput {α : Type} (l : Tab α) (a : Tab α) (i : Nat) :
    tget? (l.foldl (fun a e => tput a e.1 e.2) a) i =
      ((l.reverse.find? (fun e => e.1 == i)).map (fun e => e.2)).or (tget? a i) := by
  induction l generalizing a with
  | nil => rfl
  | cons e l ih =>
    rw [List.foldl_cons, ih, List.reverse_cons, List.find?_append]
    cases l.reverse.find? (fun e => e.1 == i) with
    | some x => rfl
    | none =>
      by_cases he : e.1 = i
      · simp [he, tget?_tput_self]
      · simp [he, tget?_tput_other (Ne.symm he)]

/-- A frame that a die without supply misses, or discards with a bad CRC and counts (R14). -/
theorem frameArrives_lost {ok : Bool} (h : s.pfe.pri.flyback = false ∨ ok = false) :
    s.frameArrives ok = { s with
      iso := { s.iso with flight := false }
      pfe := { s.pfe with pri := { s.pfe.pri with
        frameErr := if s.pfe.pri.flyback = true then bump s.pfe.pri.frameErr else s.pfe.pri.frameErr } } } := by
  have ht : (s.pfe.pri.flyback && ok) = false := by rcases h with h | h <;> simp [h]
  cases hf : s.pfe.pri.flyback
  · simp [State.frameArrives, State.modIso, hf]
    rw [← hf]
  · simp_all [State.frameArrives, State.modIso, State.modPri, State.modPfe]

/-- The channel as the primary side has taken a good frame. -/
def State.frameTaken (s : State) : State := { s with iso := { s.iso with flight := false, txValid := true } }

theorem frameArrives_taken (h : s.pfe.pri.flyback = true) :
    s.frameArrives true = s.frameTaken.frameToPrimary := by
  simp [State.frameArrives, State.frameTaken, State.modIso, h]

/-! ### The secondary side -/

/-- The fault reports and limited cycles of a good frame are latched; a relay that was opened is not
commanded closed any more (R110, R111). -/
def State.reportsTaken (s : State) : State :=
  { s with
    pfe := { s.pfe with
      faults := s.pfe.faults ||| s.pfe.pri.reports, ocpCnt := bumpBy s.pfe.ocpCnt s.pfe.pri.ocpDue
      pri := { s.pfe.pri with reports := 0#32, ocpDue := 0 } }
    iso := { s.iso with relayCmd := s.iso.relayCmd && decide (s.pfe.pri.reports &&& 0x84#32 = 0#32) } }

theorem takeReports_eq (s : State) : s.takeReports =
    if s.pfe.pri.reports.getLsbD 2 then s.reportsTaken.mainsLoss false else s.reportsTaken := by
  by_cases h : s.pfe.pri.reports &&& 0x84#32 = 0#32 <;>
    simp [State.takeReports, State.reportsTaken, State.modPfe, State.modIso, h]

theorem takeReports_lineLoss (h : s.pfe.pri.reports.getLsbD 2 = true) :
    s.takeReports = s.reportsTaken.mainsLoss false := (takeReports_eq s).trans (if_pos h)

/-- Without a line loss, or where a mains loss starts nothing, the reports are all that is taken. -/
theorem takeReports_none (h : s.pfe.pri.reports.getLsbD 2 = false ∨ s.pfe.everValid = false ∨ s.pfe.hu ≠ .normal) :
    s.takeReports = s.reportsTaken := by
  rw [takeReports_eq]
  split
  next hl => exact mainsLoss_none (.inr (h.resolve_left (by simp [hl])))
  next => rfl

/-- A line loss is among the reports that open the relay. -/
theorem reports_open {w : Word} (h : w.getLsbD 2 = true) : ¬ w &&& 0x84#32 = 0#32 := fun h0 => by
  have hb : (w &&& 0x84#32).getLsbD 2 = true := by rw [BitVec.getLsbD_and, h]; rfl
  rw [h0] at hb
  exact absurd hb (by decide)

/-- A frame on the secondary side: AUX_FB is compared, and a good one is received. -/
def State.heard (s : State) (ok : Bool) (auxFb : Nat) : State :=
  s.modIso (fun x => { x with auxErr := s.auxError auxFb, rxValid := x.rxValid || ok })

end

end Sys2Proof.Machine

/-! SUPPORT. What a failed channel does on the secondary side (R15, R77, R414, R639). -/

namespace Sys2Proof.Machine

section
variable {s t u : State} {p : Piece} {l : List Piece} {o : Outstanding} {q : Outstanding → Bool} {a : Answer}

/-! ### Commands that complete -/

/-- The first outstanding command that passes a test leaves the list. -/
def State.unlist (s : State) (q : Outstanding → Bool) : State :=
  { s with host := { s.host with outst := dropFirst q s.host.outst } }

theorem complete_found (a : Answer) (h : s.host.outst.find? q = some o) :
    s.complete q a = if o.orphan then s.unlist q else (s.unlist q).answer o.waiter a := by
  rw [State.complete, h]
  rfl

/-- Completing a command touches its mailbox, the window, the outstanding commands and interrupts. -/
theorem complete_eq (s : State) (q : Outstanding → Bool) (a : Answer) :
    ∃ m c y z i n, s.complete q a = { s with host := { s.host with
      mbx := m, window := c, sent := y, pba := z, irqPend := i, outst := n } } := by
  cases hf : s.host.outst.find? q with
  | none => exact ⟨_, _, _, _, _, s.host.outst, by rw [State.complete, hf]⟩
  | some o =>
    rw [complete_found a hf]
    split
    · exact ⟨_, _, _, _, _, _, rfl⟩
    · obtain ⟨m, c, y, z, i, e⟩ := answer_eq (s.unlist q) o.waiter a
      exact ⟨m, c, y, z, i, _, e⟩

theorem kept_complete (hr : .requests ∈ l) (hm : .mbx ∈ l) (hw : .window ∈ l) (h : p ∉ l) :
    Kept s (s.complete q a) p := by
  obtain ⟨m, c, y, z, i, n, e⟩ := complete_eq s q a
  rw [e]
  cases p <;> simp_all [Kept]

/-- The first command that passes is answered; what was done before in the step leaves the mailboxes, the
window, the outstanding commands, the time and the Cast's number as they were. -/
theorem completed_of_complete (hm : u.host.mbx = s.host.mbx) (hw : u.host.window = s.host.window)
    (ho : u.host.outst = s.host.outst) (ht : u.mt.mt = s.mt.mt) (hc : u.sets.castSeq = s.sets.castSeq)
    (hf : s.host.outst.find? q = some o) :
    Completed s (State.done s (u.complete q a)) o a ∧
      (State.done s (u.complete q a)).host.outst = dropFirst q s.host.outst := by
  have hat (n : Nat) : u.mbxAt n = s.mbxAt n := by simp only [State.mbxAt, hm]
  have hd : (u.unlist q).host.outst = dropFirst q s.host.outst := by rw [State.unlist, ho]
  have hx := complete_found a (ho ▸ hf : u.host.outst.find? q = some o)
  by_cases hopen : o.orphan = false ∧ (s.mbxAt o.mbx).state = .opened
  · obtain ⟨horph, hst⟩ := hopen
    have hresp : responseFor o.waiter a u.mt.mt u.sets.castSeq =
        responseFor o.waiter a s.mt.mt s.sets.castSeq := by rw [ht, hc]
    have hst' : ((u.unlist q).mbxAt o.mbx).state = .opened := (congrArg Mbx.state (hat o.mbx)).trans hst
    have hans : (u.complete q a).host = (u.unlist q).host.writeResponse o.mbx o.outAddr
        (responseFor o.waiter a s.mt.mt s.sets.castSeq) := by
      rw [hx, horph, if_neg Bool.false_ne_true, State.answer, ← hresp]
      exact congrArg State.host (if_pos hst')
    obtain ⟨m, c, y, z, i, e, hnew, hwin⟩ := writeResponse_eq (u.unlist q).host o.mbx o.outAddr
      (responseFor o.waiter a s.mt.mt s.sets.castSeq)
    rw [Completed, if_pos ⟨horph, hst⟩]
    refine ⟨⟨?_, fun n hn => ?_, fun x hx => ?_⟩, ?_⟩
    · rw [done_mbxAt, State.mbxAt, hans, e, tget_tput_self, hnew, ← hat]; rfl
    · rw [done_mbxAt, State.mbxAt, hans, tget_writeResponse_other hn, ← hat]; rfl
    · rw [done_host_window, hans, e]
      simp only
      rw [hwin, cellGet_writeBack]
      · exact congrArg (cellGet · x) hw
      · have hmx : tget Mbx.init (u.unlist q).host.mbx o.mbx = s.mbxAt o.mbx := hat o.mbx
        rw [hmx]
        simpa [windowWrites, responseFor, List.length_take, Outstanding.waiter] using hx
    · rw [done_host_outst, hans, e]; exact hd
  · have hsame : u.complete q a = u.unlist q := by
      rw [hx]
      split
      · rfl
      next horph =>
        exact if_neg fun h => hopen ⟨Bool.eq_false_iff.mpr horph, (congrArg Mbx.state (hat o.mbx)).symm.trans h⟩
    rw [Completed, if_neg hopen, hsame]
    exact ⟨⟨(done_host_mbx ..).trans hm, (done_host_window ..).trans hw⟩, (done_host_outst ..).trans hd⟩

/-! ### Mains time -/

theorem raise_mt (s : State) (c : Nat) : (s.raise c).mt = s.mt := (congrArg State.mt (raise_quiet s c) :)

/-- The state without mains time, the figures and signals. -/
def State.sansMt (s : State) : State := { s.quiet with mt := State.reset.mt, fig := [] }

theorem raise_sansMt (s : State) (c : Nat) : (s.raise c).sansMt = s.sansMt :=
  (congrArg (fun x : State => { x with mt := State.reset.mt, fig := [] }) (raise_quiet s c) :)

theorem mtUnlock_sansMt (s : State) : s.mtUnlock.sansMt = s.sansMt := by
  unfold State.mtUnlock
  split
  · rw [raise_sansMt]; rfl
  · rfl

/-- A loss of mains changes mains time and what open apertures note of it. -/
theorem mainsGone_sansMt (s : State) (iso : Bool) : (s.mainsGone iso).sansMt = s.sansMt := by
  have ha (x : State) : x.apQual.sansMt = x.sansMt := rfl
  have hm (x : State) (f : MtBlk → MtBlk) : (x.modMt f).sansMt = x.sansMt := rfl
  unfold State.mainsGone
  extract_lets t hold
  have hh (x : State) : (hold x).sansMt = x.sansMt := by simp only [hold, raise_sansMt, hm]
  split
  · rw [ha, hh, mtUnlock_sansMt, hm]
  · split
    · rw [hm, hm]
    · rw [ha, hh, hm]
  · rw [hm]

theorem mainsGone_quiet (s : State) (iso : Bool) : (s.mainsGone iso).quiet =
    ({ s with mt := (s.mainsGone iso).mt, fig := (s.mainsGone iso).fig } : State).quiet :=
  (congrArg (fun x : State => { x with mt := (s.mainsGone iso).mt, fig := (s.mainsGone iso).fig })
    (mainsGone_sansMt s iso) :)

theorem mtUnlock_mt_locked (h : s.mt.state = .locked) : s.mtUnlock.mt =
    { s.mt with unlockCnt := bump s.mt.unlockCnt, flags := s.mt.flags ||| 2#32 } := by
  rw [State.mtUnlock, if_pos h, raise_mt]
  rfl

/-- A failed channel takes MT out of tracking (R15, Table 4.3). -/
theorem mainsGone_mt (s : State) :
    (s.mainsGone true).mt.mainsValid = false ∧ (s.mainsGone true).mt.mt = s.mt.mt ∧
      (s.mainsGone true).mt.cross = [] ∧
      (s.mainsGone true).mt.state = (match s.mt.state with
        | .locked => .holdover
        | .acquire => if s.mt.firstPull = true then .search else .holdover
        | x => x) ∧
      (s.mt.state = .locked → (s.mainsGone true).mt.isoLoss = true ∧
        (s.mainsGone true).mt.flags = s.mt.flags ||| 0x26#32 ∧
        (s.mainsGone true).mt.unlockCnt = bump s.mt.unlockCnt ∧
        (s.mainsGone true).mt.freq = BitVec.ofNat 32 s.mt.heldFreq) := by
  have hq (x : State) : x.apQual.mt = x.mt := rfl
  have hf : s.mt.flags ||| 2#32 ||| 4#32 ||| bitAt true 5 = s.mt.flags ||| 0x26#32 := by
    simp only [BitVec.or_assoc]; rfl
  unfold State.mainsGone
  extract_lets t hold
  cases hs : s.mt.state with
  | locked =>
    have hu : t.mtUnlock.mt = { t.mt with unlockCnt := bump s.mt.unlockCnt, flags := s.mt.flags ||| 2#32 } :=
      mtUnlock_mt_locked hs
    simp only [hq, hold, raise_mt, State.modMt, hu, hf]
    exact ⟨rfl, rfl, rfl, trivial, fun _ => ⟨trivial, trivial, trivial, rfl⟩⟩
  | acquire =>
    by_cases hp : s.mt.firstPull = true
    · simp [hp, t, State.modMt]
    · simp [hp, hq, hold, t, raise_mt, State.modMt]
  | search => exact ⟨rfl, rfl, rfl, hs, fun h => nomatch h⟩
  | holdover => exact ⟨rfl, rfl, rfl, hs, fun h => nomatch h⟩
  | virtual => exact ⟨rfl, rfl, rfl, hs, fun h => nomatch h⟩

/-! ### A mains converter calibration (R414) -/

theorem mainsCut_none (h : s.cal.mainsRun = none) : s.mainsCut = s := by
  rw [State.mainsCut, h]

/-- The run that is cut fails with its record and flags, before its command is answered. -/
def State.mainsRunCut (s : State) : State :=
  { s with cal := { s.cal with
      mainsRun := none, mainsFirst := none, mainsCause := 0
      flags := s.cal.flags ||| 0x90#32, failCnt := bump s.cal.failCnt } }

theorem mainsCut_some {ch : Nat} (h : s.cal.mainsRun = some ch) :
    ∃ v : State, v.quiet = s.mainsRunCut.quiet ∧ s.mainsCut = v.complete (fun o => o.opcode == 0x0E03)
      { status := stCalFail, detail := calInterrupted } := by
  refine ⟨((s.modCalib (fun c => { c with mainsRun := none, mainsFirst := none, mainsCause := 0 })).calFlag
    0x90#32).calFail calInterrupted 3 ch 0, ?_, by rw [State.mainsCut, h]⟩
  rw [State.calFail, raise_quiet, log_quiet]
  rfl

theorem mainsCut_mainsRun (s : State) : s.mainsCut.cal.mainsRun = none := by
  cases h : s.cal.mainsRun with
  | none => rw [mainsCut_none h, h]
  | some ch =>
    obtain ⟨v, hv, he⟩ := mainsCut_some h
    obtain ⟨m, c, y, z, i, n, hc⟩ := complete_eq v (fun o => o.opcode == 0x0E03)
      { status := stCalFail, detail := calInterrupted }
    rw [he, hc]
    exact congrArg (fun x : State => x.cal.mainsRun) hv

theorem mainsCut_steady (s : State) : s.mainsCut.steady = ({ s with cal := s.mainsCut.cal } : State).steady := by
  cases h : s.cal.mainsRun with
  | none => rw [mainsCut_none h]
  | some ch =>
    obtain ⟨v, hv, he⟩ := mainsCut_some h
    have hs : s.mainsCut.steady = s.mainsRunCut.steady := by
      rw [he, steady_of_core (complete_core v _ _), steady_of_core (core_of_quiet hv)]
    have hcal : s.mainsCut.cal = s.mainsRunCut.cal := (congrArg State.cal hs :)
    rw [hs, hcal]
    rfl

/-! ### The channel fails -/

/-- What the primary side reported is gone with the channel (R639). -/
def State.channelLost (s : State) : State :=
  { s with
    iso := { s.iso with failed := true }
    pfe := { s.pfe with vbulk := none, linePeak := 0, lineRms := 0, temp := 0, eUse := 0, bulkOk := false } }

/-- The channel failed, MT out of tracking and the failure recorded (R15). -/
def State.channelOut (s : State) : State := (s.channelLost.mainsGone true).log { code := 0x8203, source := 0 }

theorem channelOut_quiet (s : State) : s.channelOut.quiet = ({ s.channelLost with
    mt := (s.channelLost.mainsGone true).mt, fig := (s.channelLost.mainsGone true).fig } : State).quiet :=
  (log_quiet _ _).trans (mainsGone_quiet _ _)

theorem channelOut_mt (s : State) : s.channelOut.mt = (s.channelLost.mainsGone true).mt :=
  (congrArg State.mt (channelOut_quiet s) :)

end

end Sys2Proof.Machine

/-! The rows of the isolation channel (R13 to R15, R108, R110, R111, R115, R639), and the obligation they
settle. -/

namespace Sys2Proof.Machine

section
variable {s t u x : State} {p : Piece} {l : List Piece} {ok : Bool} {fb : Nat}

/-! ### The rows -/

/-- A frame of each class leaves for the primary side (R14). -/
def State.frameSent (s : State) : State :=
  { s with iso := { s.iso with
      flight := true
      sentAux := s.iso.auxErr
      sentPfcEn := s.castN 0x121 0 == 1
      sentBulkV := s.castN 0x122 0
      sentRelay := s.iso.relayCmd
      sentCal := s.iso.mainsCalDue
      sentParams := s.iso.paramsDue.map (fun i => (i, s.castN i 0))
      paramsDue := if s.pfe.pri.flyback = true then [] else s.iso.paramsDue
      mainsCalDue := false
      sent := s.iso.sent + 1 } }

theorem exec_isoFrameSend (h : s.rst.ctrlUp = true) :
    exec .isoFrameSend s = .next (State.done s s.frameSent) := by
  show execIsoFrameSend s = _
  simp [execIsoFrameSend, finish, h, State.modIso, State.frameSent]

theorem exec_isoFrameReceive_none (h : s.iso.flight = false) :
    exec (.isoFrameReceive (.primary ok)) s = .next (State.done s s) := by
  show execIsoFrameReceive (.primary ok) s = _
  simp [execIsoFrameReceive, finish, h]

theorem exec_isoFrameReceive_primary (h : s.iso.flight = true) :
    exec (.isoFrameReceive (.primary ok)) s = .next (State.done s (s.frameArrives ok)) := by
  show execIsoFrameReceive (.primary ok) s = _
  simp [execIsoFrameReceive, finish, h]

/-- AUX_FB is compared with every frame that comes (R108). -/
def State.compared (s : State) (fb : Nat) : State := { s with iso := { s.iso with auxErr := s.auxError fb } }

/-- A good frame is received on the secondary side. -/
def State.received (s : State) (fb : Nat) : State :=
  { s with iso := { s.iso with auxErr := s.auxError fb, rxValid := true } }

theorem exec_isoFrameReceive_bad (h : s.rst.ctrlUp = true) :
    exec (.isoFrameReceive (.secondary false fb)) s = .next (State.done s
      { s.compared fb with err := { s.err with isoFrame := bump s.err.isoFrame } }) := by
  show execIsoFrameReceive (.secondary false fb) s = _
  simp [execIsoFrameReceive, finish, h, State.modIso, State.compared]

theorem exec_isoFrameReceive_dc (h : s.rst.ctrlUp = true) (hd : s.dcFed = true) :
    exec (.isoFrameReceive (.secondary true fb)) s = .next (State.done s (s.received fb)) := by
  show execIsoFrameReceive (.secondary true fb) s = _
  simp [execIsoFrameReceive, finish, h, hd, State.modIso, State.received]

theorem exec_isoFrameReceive_good (h : s.rst.ctrlUp = true) (hd : s.dcFed = false) :
    exec (.isoFrameReceive (.secondary true fb)) s = .next (State.done s (s.received fb).takeReports) := by
  show execIsoFrameReceive (.secondary true fb) s = _
  simp [execIsoFrameReceive, finish, h, hd, State.modIso, State.received]

theorem exec_isoChannelFail_secondary
    (h : s.rst.ctrlUp = true ∧ s.established = true ∧ s.iso.failed = false) :
    exec (.isoChannelFail true) s = .next (State.done s (s.channelOut.mainsCut.mainsLoss true)) := by
  obtain ⟨hu, he, hf⟩ := h
  show execIsoChannelFail true s = _
  simp [execIsoChannelFail, finish, hu, he, hf, State.channelOut, State.channelLost, State.modIso, State.modPfe]

theorem exec_isoChannelFail_primary (h : s.iso.txValid = true) (hf : s.pfe.pri.isoFailed = false) :
    exec (.isoChannelFail false) s = .next (State.done s
      ((s.pfcStop 0).modPri (fun p => { p with isoFailed := true, auxSec := false }))) := by
  show execIsoChannelFail false s = _
  simp [execIsoChannelFail, finish, h, hf]

theorem exec_isoChannelRestore_secondary (h : s.rst.ctrlUp = true ∧ s.iso.failed = true) :
    exec (.isoChannelRestore true) s = .next (State.done s
      ((s.modIso (fun x => { x with failed := false })).log { code := 0x8203, source := 0, arg := 1 })) := by
  show execIsoChannelRestore true s = _
  simp [execIsoChannelRestore, finish, h]

theorem exec_isoChannelRestore_primary (h : s.pfe.pri.isoFailed = true) :
    exec (.isoChannelRestore false) s = .next (State.done s
      (s.modPri (fun p => { p with isoFailed := false, auxSec := p.flyback })).pfcTry) := by
  show execIsoChannelRestore false s = _
  simp [execIsoChannelRestore, finish, h]

/-! ### Frames through the end of a step -/

theorem kept_frontEnd {a : Iso} {b : Pfe} {c : Bool} (hp : p ∉ [Piece.iso, .pfe]) :
    Kept s { s with iso := a, pfe := b, peat := { s.peat with holdup := c } } p := by
  cases p <;> simp_all [Kept]

theorem keptBut_of_quiet (hq : u.quiet = x.quiet) (hc : x.clk = s.clk) (h : ∀ p ∉ l, Kept s x p) :
    KeptBut l s (State.done s u) :=
  keptBut_done ((congrArg State.clk hq).trans hc) fun p hp => (h p hp).trans (kept_of_quiet hq p)

theorem keptBut_of_steady (hs : u.steady = x.steady) (hc : x.clk = s.clk) (h : ∀ p ∉ l, Kept s x p) :
    KeptBut (l ++ workParts) s (State.done s u) :=
  keptBut_done ((congrArg State.clk hs).trans hc) fun p hp => by
    obtain ⟨hl, hw⟩ := not_or.mp fun hx => hp (List.mem_append.mpr hx)
    exact (h p hl).trans (kept_of_steady hs hw)

/-! ### A good frame on the primary side -/

/-- A relay command that turns to closed closes the relay, unless the channel or the relay has failed. -/
def State.closes (s : State) : Bool :=
  !s.pfe.pri.isoFailed && s.iso.sentRelay && !s.pfe.pri.relaySeen && !s.pfe.pri.relayFault

/-- What a frame brought lets the PFC run. -/
def State.mayRun (s : State) : Bool :=
  s.iso.sentPfcEn && s.pfe.pri.relay && !s.pfe.pri.relayFault && !(s.pfe.pri.lineLoss && !s.closes) &&
    !s.pfe.pri.overTemp && !s.pfe.pri.isoFailed && decide (s.pfe.pri.restart ≤ s.clk)

theorem framed_eq (s : State) : ∃ a b,
    s.pfe.pri.setTo s.iso.sentBulkV s.clk =
      { s.pfe.pri with rampFrom := a, rampClk := b, setpoint := s.iso.sentBulkV } ∧
    s.framed = { s.pfe.pri with
      pfcEn := s.iso.sentPfcEn, setpoint := s.iso.sentBulkV, rampFrom := a, rampClk := b
      params := s.iso.sentParams.foldl (fun a e => tput a e.1 e.2) s.pfe.pri.params
      relaySeen := if s.pfe.pri.isoFailed = true then s.pfe.pri.relaySeen else s.iso.sentRelay
      relayCmd := s.pfe.pri.relayCmd || s.closes, lineLoss := s.pfe.pri.lineLoss && !s.closes } := by
  obtain ⟨a, b, hs⟩ := setTo_eq s.pfe.pri s.iso.sentBulkV s.clk
  refine ⟨a, b, hs, ?_⟩
  cases hi : s.pfe.pri.isoFailed <;> simp [State.framed, State.closes, hs, hi]

theorem framed_pfcMay (h : s.pfe.pri.flyback = true) :
    (s.frameTaken.modPri (fun _ => s.framed)).pfcMay = s.mayRun := by
  obtain ⟨a, b, -, hq⟩ := framed_eq s
  simp [State.pfcMay, State.modPri, State.modPfe, State.frameTaken, State.mayRun, hq, h]

/-- The die as a good frame leaves it whose PFC does not stop. -/
def State.framedRun (s : State) : Primary :=
  { s.framed with
    pfcRun := s.framed.pfcRun || s.mayRun
    rampFrom := if s.mayRun && !s.framed.pfcRun then s.framed.vbulk else s.framed.rampFrom
    rampClk := if s.mayRun && !s.framed.pfcRun then s.clk else s.framed.rampClk }

theorem frameArrives_run (hf : s.pfe.pri.flyback = true) (h : s.iso.sentPfcEn = true ∨ s.pfe.pri.pfcRun = false) :
    s.frameArrives true = { s with
      iso := { s.iso with flight := false, txValid := true }, pfe := { s.pfe with pri := s.framedRun } } := by
  have hm := framed_pfcMay hf
  rw [frameArrives_taken hf, frameToPrimary_try (s := s.frameTaken) h, pfcTry_eq]
  simp only [State.framedRun, ← hm]
  rfl

/-- What a good frame changes of a running die whose PFC does not stop (R14, R102, R110, R118, R122). -/
theorem framedRun_spec (s : State) :
    s.framedRun.pfcEn = s.iso.sentPfcEn ∧ s.framedRun.setpoint = s.iso.sentBulkV ∧
      (∀ i, tget? s.framedRun.params i =
        (((s.iso.sentParams.reverse.find? (fun e => e.1 == i)).map (fun e => e.2)).or
          (tget? s.pfe.pri.params i))) ∧
      s.framedRun.relaySeen = (if s.pfe.pri.isoFailed = true then s.pfe.pri.relaySeen else s.iso.sentRelay) ∧
      s.framedRun.relayCmd = (s.pfe.pri.relayCmd || s.closes) ∧
      s.framedRun.lineLoss = (s.pfe.pri.lineLoss && !s.closes) ∧
      s.framedRun.pfcRun = (s.pfe.pri.pfcRun || s.mayRun) ∧
      (s.pfe.pri.pfcRun = true →
        s.framedRun.bulkSet s.clk = if s.iso.sentBulkV = s.pfe.pri.setpoint then s.pfe.pri.bulkSet s.clk
          else (s.pfe.pri.setTo s.iso.sentBulkV s.clk).bulkSet s.clk) ∧
      (s.pfe.pri.pfcRun = false → s.framedRun.pfcRun = true →
        s.framedRun.rampFrom = s.pfe.pri.vbulk ∧ s.framedRun.rampClk = s.clk) ∧
      s.framedRun = { s.pfe.pri with
        pfcEn := s.framedRun.pfcEn, setpoint := s.framedRun.setpoint, params := s.framedRun.params
        relaySeen := s.framedRun.relaySeen, relayCmd := s.framedRun.relayCmd, lineLoss := s.framedRun.lineLoss
        pfcRun := s.framedRun.pfcRun, rampFrom := s.framedRun.rampFrom, rampClk := s.framedRun.rampClk } := by
  obtain ⟨a, b, hs, hq⟩ := framed_eq s
  simp only [State.framedRun, hq]
  refine ⟨trivial, trivial, fun i => tget?_foldl_tput _ _ i, trivial, trivial, trivial, trivial, fun hr => ?_,
    fun hr hm => ?_, trivial⟩
  · have hset : (if s.iso.sentBulkV = s.pfe.pri.setpoint then s.pfe.pri.bulkSet s.clk
        else (s.pfe.pri.setTo s.iso.sentBulkV s.clk).bulkSet s.clk) =
        (s.pfe.pri.setTo s.iso.sentBulkV s.clk).bulkSet s.clk := by
      split
      next he => rw [he, Primary.setTo, if_pos rfl]
      next => rfl
    rw [hset, hs]
    simp [hr, Primary.bulkSet]
  · simp_all

/-! ### A good frame on the secondary side -/

/-- A line loss among the reports: what a hold-up sequence in a state changes. -/
theorem lineLoss_iso (h : s.pfe.pri.reports.getLsbD 2 = true) :
    (s.received fb).reportsTaken.iso =
      { s.iso with rxValid := true, relayCmd := false, auxErr := s.auxError fb } := by
  have hr := reports_open h
  simp [State.received, State.reportsTaken, hr]

theorem kept_heldUp (m : HuState) (hp : p ∉ [Piece.iso, .pfe]) :
    Kept s ((s.received fb).reportsTaken.heldUp m) p :=
  kept_frontEnd (a := (s.received fb).reportsTaken.iso) (b := ((s.received fb).reportsTaken.heldUp m).pfe)
    (c := true) hp

theorem received_ride (hd : s.dcFed = false)
    (h : s.pfe.pri.reports.getLsbD 2 = true ∧ s.pfe.everValid = true ∧ s.pfe.hu = .normal)
    (he : s.pfe.vbulk = none ∨ s.pfe.eRes < s.pfe.eUse) :
    (s.received fb).takeReports.quiet = ((s.received fb).reportsTaken.heldUp .ride).quiet := by
  obtain ⟨hl, hv, hn⟩ := h
  rw [takeReports_lineLoss (s := s.received fb) hl]
  exact mainsLoss_ride (s := (s.received fb).reportsTaken) ⟨hd, hv, hn⟩ he

theorem received_windDown (hd : s.dcFed = false)
    (h : s.pfe.pri.reports.getLsbD 2 = true ∧ s.pfe.everValid = true ∧ s.pfe.hu = .normal)
    (he : s.pfe.vbulk ≠ none ∧ s.pfe.eUse ≤ s.pfe.eRes) :
    (s.received fb).takeReports.core =
      (((s.received fb).reportsTaken.heldUp .winddown).steady, fun _ => false) := by
  obtain ⟨hl, hv, hn⟩ := h
  rw [takeReports_lineLoss (s := s.received fb) hl]
  exact mainsLoss_windDown (s := (s.received fb).reportsTaken) ⟨hd, hv, hn⟩ (.inr he)

/-! ### A channel that fails -/

/-- The parts that a failed channel changes by itself. -/
theorem kept_channelOut (hp : p ∉ [Piece.iso, .pfe, .mt, .fig]) : Kept s s.channelOut p := by
  refine Kept.trans (t := ({ s.channelLost with
    mt := (s.channelLost.mainsGone true).mt, fig := (s.channelLost.mainsGone true).fig } : State)) ?_
    (kept_of_quiet (channelOut_quiet s) p)
  cases p <;> simp_all [Kept, State.channelLost]

theorem channelOut_iso (s : State) : s.channelOut.iso = { s.iso with failed := true } :=
  (congrArg State.iso (channelOut_quiet s) :)

theorem channelOut_pfe (s : State) : s.channelOut.pfe = { s.pfe with
    vbulk := none, linePeak := 0, lineRms := 0, temp := 0, eUse := 0, bulkOk := false } :=
  (congrArg State.pfe (channelOut_quiet s) :)

theorem channelOut_cal (s : State) : s.channelOut.cal = s.cal := (congrArg State.cal (channelOut_quiet s) :)

theorem channelOut_clk (s : State) : s.channelOut.clk = s.clk := (congrArg State.clk (channelOut_quiet s) :)

theorem channelOut_dcFed (s : State) : s.channelOut.dcFed = s.dcFed :=
  (congrArg State.dcFed (channelOut_quiet s) :)

/-- A hold-up sequence starts on a failed channel as it does before (R115). -/
theorem channelOut_loss (h : s.dcFed = true ∨ s.pfe.everValid = false ∨ s.pfe.hu ≠ .normal) :
    s.channelOut.dcFed = true ∨ s.channelOut.pfe.everValid = false ∨ s.channelOut.pfe.hu ≠ .normal := by
  rwa [channelOut_dcFed, channelOut_pfe]

/-- A failure starts WINDDOWN: the calibration it cut is the only other change of what `steady` shows. -/
theorem channelFail_windDown (h : s.dcFed = false ∧ s.pfe.everValid = true ∧ s.pfe.hu = .normal) :
    (s.channelOut.mainsCut.mainsLoss true).core =
      ((({ s.channelOut with cal := s.channelOut.mainsCut.cal } : State).heldUp .winddown).steady, fun _ => false) := by
  have hs := mainsCut_steady s.channelOut
  have hl : s.channelOut.mainsCut.dcFed = false ∧ s.channelOut.mainsCut.pfe.everValid = true ∧
      s.channelOut.mainsCut.pfe.hu = .normal := by
    have hd : s.channelOut.mainsCut.dcFed = s.channelOut.dcFed := (congrArg State.dcFed hs :)
    have hp : s.channelOut.mainsCut.pfe = s.channelOut.pfe := (congrArg State.pfe hs :)
    rwa [hd, hp, channelOut_dcFed, channelOut_pfe]
  rw [mainsLoss_windDown hl (.inl rfl)]
  exact congrArg (·, fun _ => false) (congrArg (fun x : State => (x.heldUp .winddown).steady) hs :)

/-- What the primary side takes of a good frame, where its PFC does not stop (R14, R102). -/
theorem exec_isoFrameReceive_stop (hf : s.iso.flight = true) (hy : s.pfe.pri.flyback = true)
    (h : s.iso.sentPfcEn = false ∧ s.pfe.pri.pfcRun = true) :
    ∃ t, exec (.isoFrameReceive (.primary true)) s = .next t ∧
      t.iso = { s.iso with flight := false, txValid := true } ∧
      t.pfe.pri.pfcEn = false ∧ t.pfe.pri.pfcRun = false ∧ t.pfe.bulkOk = false ∧
      t.pfe.pri.setpoint = s.iso.sentBulkV ∧ t.pfe.pri.restart = s.pfe.pri.restart ∧ t.pfe.faults = s.pfe.faults ∧
      KeptBut [.iso, .pfe] s t := by
  obtain ⟨a, b, -, hq⟩ := framed_eq s
  have hr : s.framed.restart = s.pfe.pri.restart := by rw [hq]
  have hset : s.framed.setpoint = s.iso.sentBulkV := by rw [hq]
  refine ⟨_, exec_isoFrameReceive_primary hf, ?_⟩
  rw [frameArrives_taken hy, frameToPrimary_stop (s := s.frameTaken) h]
  exact ⟨rfl, h.1, rfl, rfl, hset, hr, rfl, keptBut_iso_pfe⟩

/-- A line loss with energy to ride on starts RIDE (R115). -/
theorem exec_isoFrameReceive_ride (hu : s.rst.ctrlUp = true) (hd : s.dcFed = false)
    (h : s.pfe.pri.reports.getLsbD 2 = true ∧ s.pfe.everValid = true ∧ s.pfe.hu = .normal)
    (he : s.pfe.vbulk = none ∨ s.pfe.eRes < s.pfe.eUse) :
    ∃ t, exec (.isoFrameReceive (.secondary true fb)) s = .next t ∧
      t.iso = { s.iso with rxValid := true, relayCmd := false, auxErr := s.auxError fb } ∧
      t.pfe = ((s.received fb).reportsTaken.heldUp .ride).pfe ∧ t.peat.holdup = true ∧
      KeptBut [.iso, .pfe] s t := by
  have hq := received_ride (fb := fb) hd h he
  have hs := steady_of_quiet hq
  refine ⟨_, exec_isoFrameReceive_good hu hd, ?_, ?_, ?_, ?_⟩
  · rw [done_iso, iso_of_steady hs]
    exact lineLoss_iso h.1
  · rw [done_pfe, pfe_of_steady hs]
  · rw [done_peat_holdup, holdup_of_steady hs]
    rfl
  · exact keptBut_of_quiet hq rfl fun _ hp => kept_heldUp .ride hp

/-- A line loss whose energy does not pass the reserve starts WINDDOWN (R115, R117). -/
theorem exec_isoFrameReceive_windDown (hu : s.rst.ctrlUp = true) (hd : s.dcFed = false)
    (h : s.pfe.pri.reports.getLsbD 2 = true ∧ s.pfe.everValid = true ∧ s.pfe.hu = .normal)
    (he : s.pfe.vbulk ≠ none ∧ s.pfe.eUse ≤ s.pfe.eRes) :
    ∃ t, exec (.isoFrameReceive (.secondary true fb)) s = .next t ∧
      t.iso = { s.iso with rxValid := true, relayCmd := false, auxErr := s.auxError fb } ∧
      t.pfe = ((s.received fb).reportsTaken.heldUp .winddown).pfe ∧ t.peat.holdup = true ∧
      (∀ f, (t.figAt f).enabled = false) ∧ KeptBut ([.iso, .pfe] ++ workParts) s t := by
  have hc := received_windDown (fb := fb) hd h he
  have hs : (s.received fb).takeReports.steady = ((s.received fb).reportsTaken.heldUp .winddown).steady :=
    congrArg Prod.fst hc
  refine ⟨_, exec_isoFrameReceive_good hu hd, ?_, ?_, ?_, fun f => ?_, ?_⟩
  · rw [done_iso, iso_of_steady hs]
    exact lineLoss_iso h.1
  · rw [done_pfe, pfe_of_steady hs]
  · rw [done_peat_holdup, holdup_of_steady hs]
    rfl
  · rw [done_figAt]
    exact congrFun (congrArg Prod.snd hc) f
  · exact keptBut_of_steady hs rfl fun _ hp => kept_heldUp .winddown hp

end

end Sys2Proof.Machine

/-! A channel that fails, by what its failure finds (R15, R115, R414), and the obligation on the isolation
channel. -/

namespace Sys2Proof.Machine

section
variable {s : State} {p : Piece} {fb : Nat}

/-- Without a hold-up sequence to start and a calibration to cut, the channel and mains time alone change. -/
theorem exec_isoChannelFail_alone (hr : s.rst.ctrlUp = true ∧ s.established = true ∧ s.iso.failed = false)
    (hd : s.dcFed = true ∨ s.pfe.everValid = false ∨ s.pfe.hu ≠ .normal) (hm : s.cal.mainsRun = none) :
    exec (.isoChannelFail true) s = .next (State.done s s.channelOut) := by
  rw [exec_isoChannelFail_secondary hr, mainsCut_none (by rw [channelOut_cal, hm]),
    mainsLoss_none (channelOut_loss hd)]

theorem keptBut_channelOut : KeptBut [.iso, .pfe, .mt, .fig] s (State.done s s.channelOut) :=
  keptBut_done (channelOut_clk s) fun _ hp => kept_channelOut hp

/-- The failure of a module that runs on mains starts WINDDOWN. -/
theorem exec_isoChannelFail_windDown (hr : s.rst.ctrlUp = true ∧ s.established = true ∧ s.iso.failed = false)
    (h : s.dcFed = false ∧ s.pfe.everValid = true ∧ s.pfe.hu = .normal) :
    ∃ t, exec (.isoChannelFail true) s = .next t ∧
      t.iso = { s.iso with failed := true } ∧
      t.pfe = { s.pfe with
        vbulk := none, linePeak := 0, lineRms := 0, temp := 0, eUse := 0, bulkOk := false
        faults := s.pfe.faults ||| 1#32, hu := .winddown, huClk := s.clk } ∧
      t.peat.holdup = true ∧ t.mt.mainsValid = false ∧ t.cal.mainsRun = none ∧
      (∀ f, (t.figAt f).enabled = false) ∧
      KeptBut ([.iso, .pfe, .mt, .fig, .cal] ++ workParts) s t := by
  have hc := channelFail_windDown h
  have hs : (s.channelOut.mainsCut.mainsLoss true).steady =
      (({ s.channelOut with cal := s.channelOut.mainsCut.cal } : State).heldUp .winddown).steady :=
    congrArg Prod.fst hc
  obtain ⟨hvalid, -⟩ := mainsGone_mt s.channelLost
  refine ⟨_, exec_isoChannelFail_secondary hr, ?_, ?_, ?_, ?_, ?_, fun f => ?_, ?_⟩
  · rw [done_iso, iso_of_steady hs]
    exact channelOut_iso s
  · rw [done_pfe, pfe_of_steady hs]
    simp only [State.heldUp, channelOut_pfe, channelOut_clk]
  · rw [done_peat_holdup, holdup_of_steady hs]
    rfl
  · rw [done_mt, mt_of_steady hs, ← hvalid, ← channelOut_mt]
    rfl
  · rw [done_cal, cal_of_steady hs]
    exact mainsCut_mainsRun s.channelOut
  · rw [done_figAt]
    exact congrFun (congrArg Prod.snd hc) f
  · refine keptBut_of_steady hs (channelOut_clk s) fun p hp => ?_
    have hk : Kept s s.channelOut p := kept_channelOut fun hx => hp (by revert hx; cases p <;> decide)
    have hcal : Kept s.channelOut { s.channelOut with cal := s.channelOut.mainsCut.cal } p :=
      kept_cal (by decide) hp
    exact (hk.trans hcal).trans (kept_frontEnd fun hx => hp (by revert hx; cases p <;> decide))

/-- The calibration of mains converters that a failure cuts ends its command with ST_CAL_FAIL (R414). -/
theorem exec_isoChannelFail_calibration {ch : Nat} {o : Outstanding}
    (hr : s.rst.ctrlUp = true ∧ s.established = true ∧ s.iso.failed = false)
    (hd : s.dcFed = true ∨ s.pfe.everValid = false ∨ s.pfe.hu ≠ .normal) (hm : s.cal.mainsRun = some ch)
    (ho : s.host.outst.find? (fun x => x.opcode == 0x0E03) = some o) :
    ∃ t, exec (.isoChannelFail true) s = .next t ∧
      t.iso = { s.iso with failed := true } ∧
      t.cal.mainsRun = none ∧ t.cal.flags = s.cal.flags ||| 0x90#32 ∧ t.cal.failCnt = bump s.cal.failCnt ∧
      Completed s t o { status := stCalFail, detail := calInterrupted } ∧
      t.host.outst = dropFirst (fun x => x.opcode == 0x0E03) s.host.outst ∧
      KeptBut [.iso, .pfe, .mt, .fig, .cal, .requests, .mbx, .window] s t := by
  obtain ⟨v, hv, hcut⟩ := mainsCut_some (s := s.channelOut) (by rw [channelOut_cal, hm])
  have hs : s.channelOut.mainsCut.steady = s.channelOut.mainsRunCut.steady := by
    rw [hcut, steady_of_core (complete_core v _ _), steady_of_quiet hv]
  have hu : s.channelOut.mainsCut.mainsLoss true = s.channelOut.mainsCut := by
    refine mainsLoss_none ?_
    have hdc : s.channelOut.mainsCut.dcFed = s.channelOut.dcFed := (congrArg State.dcFed hs :)
    have hp : s.channelOut.mainsCut.pfe = s.channelOut.pfe := (pfe_of_steady hs :)
    rw [hdc, hp]
    exact channelOut_loss hd
  have hvq : v.quiet.host = s.host.bare :=
    (congrArg State.host hv).trans (congrArg State.host (channelOut_quiet s) :)
  have hmt : v.mt.mt = s.mt.mt := by
    obtain ⟨-, hmt, -⟩ := mainsGone_mt s.channelLost
    exact (congrArg (fun x : State => x.mt.mt) hv :).trans ((congrArg MtBlk.mt (channelOut_mt s)).trans hmt)
  have hseq : v.sets.castSeq = s.sets.castSeq :=
    (congrArg (fun x : State => x.sets.castSeq) hv :).trans
      (congrArg (fun x : State => x.sets.castSeq) (channelOut_quiet s) :)
  have hdone := completed_of_complete (u := v) (a := { status := stCalFail, detail := calInterrupted })
    (congrArg HostIf.mbx hvq :) (congrArg HostIf.window hvq :) (congrArg HostIf.outst hvq :) hmt hseq ho
  rw [← hcut] at hdone
  have hcal : s.channelOut.mainsCut.cal = s.mainsRunCut.cal := by
    rw [cal_of_steady hs, State.mainsRunCut, channelOut_cal]
    rfl
  refine ⟨_, exec_isoChannelFail_secondary hr, ?_⟩
  rw [hu]
  refine ⟨(iso_of_steady hs).trans (channelOut_iso s), by rw [done_cal, hcal]; rfl, by rw [done_cal, hcal]; rfl,
    by rw [done_cal, hcal]; rfl, hdone.1, hdone.2, keptBut_done ((clk_of_steady hs).trans (channelOut_clk s))
    fun p hp => ?_⟩
  have hk : Kept s s.channelOut p := kept_channelOut fun hx => hp (by revert hx; cases p <;> decide)
  have hkc : Kept s.channelOut s.channelOut.mainsRunCut p := kept_cal (by decide) hp
  have hkv : Kept s.channelOut.mainsRunCut v p := kept_of_quiet hv p
  rw [hcut]
  exact ((hk.trans hkc).trans hkv).trans (kept_complete (by decide) (by decide) (by decide) hp)

/-- The channel is restored on the primary side: regulation follows the frames again, and the PFC starts
where it may (R15). -/
theorem exec_isoChannelRestore_pfc {may : Bool} (hf : s.pfe.pri.isoFailed = true)
    (hm : may = (s.pfe.pri.pfcEn && s.pfe.pri.relay && s.pfe.pri.flyback && !s.pfe.pri.relayFault &&
      !s.pfe.pri.lineLoss && !s.pfe.pri.overTemp && decide (s.pfe.pri.restart ≤ s.clk) && !s.pfe.pri.pfcRun)) :
    ∃ t, exec (.isoChannelRestore false) s = .next t ∧
      t.pfe = { s.pfe with
        pri := { s.pfe.pri with
          isoFailed := false, auxSec := s.pfe.pri.flyback, pfcRun := s.pfe.pri.pfcRun || may
          rampFrom := if may = true then s.pfe.pri.vbulk else s.pfe.pri.rampFrom
          rampClk := if may = true then s.clk else s.pfe.pri.rampClk } } ∧
      KeptBut [.pfe] s t := by
  refine ⟨_, exec_isoChannelRestore_primary hf, ?_⟩
  have hmay : ((s.modPri (fun p => { p with isoFailed := false, auxSec := p.flyback })).pfcMay &&
      !s.pfe.pri.pfcRun) = may := by
    simp only [hm, State.pfcMay, State.modPri, State.modPfe, Bool.not_false, Bool.and_true]
    rfl
  rw [pfcTry_eq]
  refine ⟨?_, keptBut_pfe⟩
  generalize (s.modPri (fun p => { p with isoFailed := false, auxSec := p.flyback })).pfcMay = b at hmay ⊢
  have hrun : (s.pfe.pri.pfcRun || b) = (s.pfe.pri.pfcRun || may) := by
    rw [← hmay]
    cases s.pfe.pri.pfcRun <;> simp
  simp only [done_pfe, State.modPri, State.modPfe, hrun, hmay]

end

/-- Settles O39: each clause is a row of one side of the channel, by what its frame finds there. -/
theorem theIsolationChannelCarriesFrames : Obligations.TheIsolationChannelCarriesFrames := by
  unfold Obligations.TheIsolationChannelCarriesFrames
  refine ⟨?_, ?_, ?_, ?_, ?_, ?_, ?_, ?_, ?_, ?_, ?_, ?_, ?_, ?_, ?_, ?_⟩
  · exact fun s hu => ⟨_, exec_isoFrameSend hu, rfl, keptBut_iso⟩
  · exact fun s ok hf h => ⟨_, exec_isoFrameReceive_primary hf, by rw [frameArrives_lost h]; rfl,
      by rw [frameArrives_lost h]; rfl, by rw [frameArrives_lost h]; exact keptBut_iso_pfe⟩
  · rintro s close hf hy rfl h
    obtain ⟨hen, hset, hpar, hseen, hcmd, hloss, hrun, hbulk, hramp, heq⟩ := framedRun_spec s
    refine ⟨_, exec_isoFrameReceive_primary hf, ?_⟩
    rw [frameArrives_run hy h]
    exact ⟨rfl, hen, hset, hpar, hseen, hcmd, hloss, hrun, hbulk, hramp,
      congrArg (fun q => { s.pfe with pri := q }) heq, keptBut_iso_pfe⟩
  · exact fun s hf hy h => exec_isoFrameReceive_stop hf hy h
  · exact fun s ok hf => ⟨_, exec_isoFrameReceive_none hf, keptBut_same⟩
  · exact fun s fb hu hd => ⟨_, exec_isoFrameReceive_dc hu hd, rfl, keptBut_iso⟩
  · intro s fb hu hd h
    refine ⟨_, exec_isoFrameReceive_good hu hd, ?_⟩
    rw [takeReports_none (s := s.received fb) h]
    exact ⟨rfl, rfl, keptBut_iso_pfe⟩
  · exact fun s fb hu hd h he => exec_isoFrameReceive_ride hu hd h he
  · intro s fb hu hd h he
    obtain ⟨t, ht, hiso, hpfe, hup, hfig, hk⟩ := exec_isoFrameReceive_windDown (fb := fb) hu hd h he
    exact ⟨t, ht, hiso, hpfe, hup, hfig, hk.mono (by decide)⟩
  · exact fun s fb hu => ⟨_, exec_isoFrameReceive_bad hu, done_isoFrame .., rfl,
      keptBut_done rfl fun _ hp => (kept_iso (by decide) hp).trans kept_err⟩
  · intro s hr hd hm
    obtain ⟨hvalid, hmt, hcross, hstate, hlocked⟩ := mainsGone_mt s.channelLost
    rw [← channelOut_mt] at hvalid hmt hcross hstate hlocked
    exact ⟨_, exec_isoChannelFail_alone hr hd hm, channelOut_iso s, channelOut_pfe s, hvalid, hmt, hcross, hstate,
      hlocked, keptBut_channelOut⟩
  · intro s hr h
    obtain ⟨t, ht, hiso, hpfe, hup, hvalid, hrun, hfig, hk⟩ := exec_isoChannelFail_windDown hr h
    exact ⟨t, ht, hiso, hpfe, hup, hvalid, hrun, hfig, hk.mono (by decide)⟩
  · exact fun s ch o hr hd hm ho => exec_isoChannelFail_calibration hr hd hm ho
  · exact fun s h hf => ⟨_, exec_isoChannelFail_primary h hf, rfl, keptBut_pfe⟩
  · intro s h
    exact ⟨_, exec_isoChannelRestore_secondary h, (congrArg State.iso (log_quiet _ _) :),
      keptBut_of_quiet (log_quiet _ _) rfl fun _ hp => kept_iso (by decide) hp⟩
  · exact fun s may hf hm => exec_isoChannelRestore_pfc hf hm

end Sys2Proof.Machine

/-! SUPPORT. The event routes (R23) under the operations of a reset: trips, the restart of the management
plane, the stop of the data plane, the assertion of a source. -/

namespace Sys2Proof.Machine

section
variable {s t u : State}

theorem foldl_routes {β : Type} (f : State → β → State) (hf : ∀ s x, (f s x).routes = s.routes) (l : List β)
    (s : State) : (l.foldl f s).routes = s.routes := by
  induction l generalizing s with
  | nil => rfl
  | cons x l ih => rw [List.foldl_cons, ih, hf]

theorem done_routes (s u : State) : (State.done s u).routes = u.routes := by
  obtain ⟨hm, ht, hs, -⟩ := done_kept s u .routes
  simp only [State.routes, hm, ht, hs]

variable (s)

theorem log_routes (e : ErrSpec) : (s.log e).routes = s.routes := routes_of_core (log_core s e)

/-! ### Trips -/

@[simp] theorem postRecord_core (r : TripRec) : (s.postRecord r).core = s.core := by
  simp only [State.postRecord, core_ite, log_core, modGrp_core, ite_self]
  rfl

@[simp] theorem snapAsk_core (r : TripRec) (p : Nat) : (s.snapAsk r p).core = s.core := by
  simp [State.snapAsk]

@[simp] theorem tripActions_core (p : Nat) (cause seq : Word) (fig : Nat) :
    (s.tripActions p cause seq fig).core = s.core := by simp [State.tripActions]

@[simp] theorem pointMigrates_core (f : Nat) (flags : BitVec 16) :
    (s.pointMigrates f flags).core = s.core := by simp [State.pointMigrates]

@[simp] theorem addCause_core (p : Nat) (cause : Word) : (s.addCause p cause).core = s.core := by
  simp [State.addCause]

theorem tripFigure_routes (f : Nat) (cause seq : Word) : (s.tripFigure f cause seq).routes = s.routes := by
  unfold State.tripFigure
  extract_lets flags reset t go t1 t2 t3 t4
  have h1 : t1.core = s.core := by simp [t1, t]
  have h4 : t4.core = t3.core := by simp [t4]
  calc _ = t4.routes := routes_of_core (foldl_core (fun t g => t.auxFigCut g f) (fun t g => auxFigCut_core t g f) _ t4)
    _ = t3.routes := routes_of_core h4
    _ = t1.routes := rfl
    _ = s.routes := routes_of_core h1

theorem trip_routes (p : Nat) (cause : Word) (mtCause : DWord) (detail : Nat) :
    (s.trip p cause mtCause detail).routes = s.routes := by
  unfold State.trip
  split_ifs
  · rfl
  · exact routes_of_core (addCause_core s p cause)
  · rfl
  · extract_lets g r figs t1 t2 t3 t4 t5 t6
    have h3 : t3.core = s.core := by simp [t3, t2, t1, foldl_core]
    have h4 : t4.routes = t3.routes := foldl_routes _ (fun t f => tripFigure_routes t f cause _) _ _
    have h5 : t5.core = t4.core := foldl_modSp_core t4 g id (fun _ _ x => { x with slotFig := none })
    have h6 : t6.core = t5.core := by
      refine foldl_core _ (fun t q => ?_) _ _
      split <;> simp
    calc _ = t6.routes := routes_of_core (tell_core t6 5)
      _ = t4.routes := (routes_of_core h6).trans (routes_of_core h5)
      _ = s.routes := h4.trans (routes_of_core h3)

/-! ### Apertures that a data plane reset meets (R22) -/

@[simp] theorem setLevel_core (f : Nat) (level : Int) : (s.setLevel f level).core = s.core := by
  simp [State.setLevel, foldl_modSp_core]

@[simp] theorem setMode_core (f mode : Nat) : (s.setMode f mode).core = s.core := by
  simp [State.setMode, foldl_core]

@[simp] theorem ownLevel_core (f : Nat) : (s.ownLevel f).core = s.core := by simp [State.ownLevel]

@[simp] theorem slotEnd_core (f : Nat) : (s.slotEnd f).core = s.core := by
  unfold State.slotEnd; split <;> simp

theorem figDisable_routes (f cause : Nat) : (s.figDisable f cause).routes = s.routes :=
  routes_of_steady (congrArg Prod.fst (figDisable_core f cause) :)

theorem listOutput_routes (f : Nat) : (s.listOutput f).routes = s.routes := by
  unfold State.listOutput
  extract_lets x t
  have ht : t.routes = s.routes := rfl
  split_ifs
  · rw [routes_of_core (ownLevel_core t f), ht]
  · rw [figDisable_routes, ht]
  · exact ht

theorem endList_routes (f state cause : Nat) : (s.endList f state cause).routes = s.routes := by
  unfold State.endList
  rw [listOutput_routes]
  exact routes_of_core (s := s) (by simp)

theorem pointEnd_routes (f state cause : Nat) (extra : BitVec 16) :
    (s.pointEnd f state cause extra).routes = s.routes := by
  unfold State.pointEnd
  split
  · rfl
  · extract_lets t
    have ht : t.core = s.core := by simp [t]
    split
    · rw [endList_routes]
      exact routes_of_core (by simp [ht])
    · exact routes_of_core (by simp [ht])

theorem apGone_routes (f : Nat) (a : Aperture) : (s.apGone f a).routes = s.routes := by
  unfold State.apGone
  extract_lets t
  have ht : t.routes = s.routes := routes_of_core (apDeliver_core s _)
  split
  · split
    · rw [pointEnd_routes, ht]
    · exact ht
  · exact ht

theorem aperturesLost_routes : s.aperturesLost.routes = s.routes := by
  refine foldl_routes _ (fun t e => ?_) _ _
  split
  · rw [apGone_routes]
    exact routes_of_core (by simp [foldl_modSp_core])
  · rfl

/-! ### The planes -/

@[simp] theorem spareIdle_core (g : Nat) : (s.spareIdle g).core = s.core := by
  simp [State.spareIdle, State.spare, State.spareFollow]

theorem calCut_routes : s.calCut.routes = s.routes := by
  unfold State.calCut
  extract_lets runs t1 t2 t3
  have h1 : t1.core = s.core := foldl_core _ (fun t g => spareIdle_core t g) _ _
  have ht : (s.tellBusy t3).core = t3.core := by simp [State.tellBusy]
  have h3 : t3.routes = t1.routes := rfl
  exact (routes_of_core ht).trans (h3.trans (routes_of_core h1))

theorem mgmtReset_routes : s.mgmtReset.routes = s.routes := calCut_routes s

theorem dataStop_routes : s.dataStop.routes = s.routes := by
  unfold State.dataStop
  extract_lets deep busy t1 t2 saved q1 t3
  have h2 : t2.routes = s.routes := by
    simp only [t2]
    split
    · rfl
    · exact aperturesLost_routes t1
  split <;> exact h2

theorem stagingDown_routes : s.stagingDown.routes = s.routes := by
  unfold State.stagingDown
  extract_lets t
  have ht : t.routes = s.routes := by
    simp only [t]
    split
    · exact dataStop_routes s
    · rfl
  split <;> exact ht

theorem orderedActions_routes : s.orderedActions.routes = s.routes := by
  unfold State.orderedActions
  split
  · rfl
  · exact foldl_routes _ (fun t p => trip_routes t p resetBit _ 0) _ _

end

end Sys2Proof.Machine

/-! O54. The event routes stay through L3 and L2 resets and go with L1 and L0 (R23). -/

namespace Sys2Proof.Machine

section
variable {s t u : State}

/-! ### Assertion (R129) -/

/-- A source other than SUPPLY and CLK clears no route as it asserts: at L1 and L0 the entry of the control
plane does, once the ordered actions are complete (R129). -/
theorem assertSource_routes {src : Nat} (h0 : src ≠ 0) (h6 : src ≠ 6) (s : State) (level : Nat) :
    (s.assertSource src level).routes = s.routes := by
  have hard : ¬ (src == 0 || src == 6) = true := by simp [h0, h6]
  unfold State.assertSource
  extract_lets deepest ordered t hard' u v
  have ht : t.routes = s.routes := rfl
  have hu : u.routes = t.routes := by
    simp only [u]
    split
    · exact mgmtReset_routes t
    · rfl
  rw [if_neg (show ¬ hard' = true from hard)]
  split_ifs
  · rw [stagingDown_routes, hu, ht]
  · rw [hu, ht]
  · exact ht
  · rw [orderedActions_routes]
    exact ht
  · exact ht
  · rw [stagingDown_routes]
    exact ht

theorem assertFused_routes {src : Nat} (h0 : src ≠ 0) (h6 : src ≠ 6) (s : State) :
    (s.assertFused src).routes = s.routes := assertSource_routes h0 h6 s _

/-- The control plane enters reset: no mask, no tap and no selection is left (R23). -/
theorem enterReset_routes (s : State) (hard : Bool) : (s.enterReset hard).routes = ([], [], []) := rfl

/-- SUPPLY and CLK at L1 or L0 take the control plane down at once, without ordered actions (R129). -/
theorem assertSource_hard_routes {src level : Nat} (hs : src = 0 ∨ src = 6) (hl : level ≤ 1)
    (hc : s.rst.ctrlUp = true) : (s.assertSource src level).routes = ([], [], []) := by
  have hard : (src == 0 || src == 6) = true := by simpa using hs
  have deep : ¬ 2 ≤ min level s.rst.level := by omega
  simp only [State.assertSource, if_neg deep, if_pos hard, if_pos hc]
  rw [stagingDown_routes, enterReset_routes]

theorem rstReq_routes (s : State) (v : Word) : (s.rstReq v).routes = s.routes := by
  unfold State.rstReq
  extract_lets level
  split_ifs
  · rfl
  · exact assertSource_routes (by decide) (by decide) _ _
  · exact log_routes s _

/-! ### The way out (R131) -/

theorem recordReset_routes (s : State) (cause lost : Word) : (s.recordReset cause lost).routes = s.routes := by
  unfold State.recordReset
  extract_lets t t'
  have ht : t.routes = s.routes := by
    simp only [t]
    split
    · exact log_routes _ _
    · rfl
  rw [log_routes]
  exact ht

theorem recordExits_routes (s : State) (lost : Word) : (s.recordExits lost).routes = s.routes := by
  unfold State.recordExits
  split
  · rfl
  · rw [foldl_routes _ (fun t c => recordReset_routes t c _), recordReset_routes]
    rfl

/-! ### The rows -/

/-- What a row leaves of the routes is what its state before the common end of a command holds. -/
theorem routes_of_finish (h : finish s u = .next t) : t.routes = u.routes :=
  Host.Outcome.next.inj h ▸ done_routes s u

theorem routes_eq_iff : t.routes = s.routes ↔
    t.fab.masks = s.fab.masks ∧ t.fab.taps = s.fab.taps ∧ t.fab.sel = s.fab.sel := by
  simp [State.routes]

theorem exec_rstIn_routes (low : Bool) (h : exec (.rstIn low) s = .next t) : t.routes = s.routes := by
  rw [routes_of_finish h]
  cases low
  case false => rfl
  case true =>
    rw [if_pos rfl]
    split
    · rfl
    · exact assertFused_routes (by decide) (by decide) s

theorem exec_perst_routes (low : Bool) (h : exec (.perst low) s = .next t) : t.routes = s.routes := by
  rw [routes_of_finish h]
  cases low
  case false => rfl
  case true =>
    rw [if_pos rfl]
    split
    · rfl
    · exact assertFused_routes (by decide) (by decide) _

theorem exec_wdog_routes (h : exec .wdog s = .next t) : t.routes = s.routes := by
  rw [routes_of_finish h]
  split
  · exact assertFused_routes (by decide) (by decide) _
  · rfl

theorem exec_fatal_routes (h : exec .fatal s = .next t) : t.routes = s.routes := by
  rw [routes_of_finish h]
  split
  · rfl
  · exact assertFused_routes (by decide) (by decide) s

theorem exec_dbgResetInstruction_routes (on : Bool) (h : exec (.dbgResetInstruction on) s = .next t) :
    t.routes = s.routes := by
  rw [routes_of_finish h]
  split
  · exact assertFused_routes (by decide) (by decide) s
  · rfl

theorem exec_rstReqWrite_routes (v : Word) (h : exec (.rstReqWrite v) s = .next t) : t.routes = s.routes :=
  (routes_of_finish h).trans (rstReq_routes s v)

theorem exec_resetPulseEnd_routes (n : Nat) (h : exec (.resetPulseEnd n) s = .next t) :
    t.routes = s.routes := by
  rw [routes_of_finish h]
  split <;> rfl

theorem exec_stretchStart_routes (h : exec .stretchStart s = .next t) : t.routes = s.routes := by
  rw [routes_of_finish h]
  split_ifs <;> rfl

theorem exec_stretchEnd_routes (x : ExitIn) (h : exec (.stretchEnd x) s = .next t) (hl : 2 ≤ s.rst.level) :
    t.routes = s.routes := by
  rw [routes_of_finish h]
  split
  · extract_lets level t1 t2
    rw [if_neg (show ¬ level ≤ 1 by omega)]
    split
    · rw [recordExits_routes]
      rfl
    · rfl
  · rfl

/-- A row that ends with no routes. -/
theorem cleared_of_finish {c : Instr} (h : exec c s = finish s u) (hu : u.routes = ([], [], [])) :
    ∃ t, exec c s = .next t ∧ t.fab.masks = [] ∧ t.fab.taps = [] ∧ t.fab.sel = [] := by
  have hd : (State.done s u).routes = ([], [], []) := (done_routes s u).trans hu
  simp only [State.routes, Prod.mk.injEq] at hd
  exact ⟨State.done s u, h, hd⟩

end

/-- Settles O54: the assertion of a source other than SUPPLY and CLK and every row of the way out keep the
routes, through trips, calibration cut, lost apertures and staging; only the entry of the control plane, ordered
or at once, sets the fabric to its reset value. -/
theorem routingThroughResets : Obligations.RoutingThroughResets := by
  refine ⟨?_, ?_, ?_, ?_, ?_⟩
  · intro s t c hc h _
    rw [← routes_eq_iff]
    obtain rfl | rfl | rfl | rfl | rfl | ⟨v, rfl⟩ := hc
    · exact exec_rstIn_routes true h
    · exact exec_perst_routes true h
    · exact exec_wdog_routes h
    · exact exec_fatal_routes h
    · exact exec_dbgResetInstruction_routes true h
    · exact exec_rstReqWrite_routes v h
  · intro s t c hc h hl
    rw [← routes_eq_iff]
    obtain rfl | rfl | ⟨n, rfl⟩ | rfl | ⟨x, rfl⟩ := hc
    · exact exec_rstIn_routes false h
    · exact exec_perst_routes false h
    · exact exec_resetPulseEnd_routes n h
    · exact exec_stretchStart_routes h
    · exact exec_stretchEnd_routes x h hl
  · intro s hp
    have ho : s.rst.ordering = true := by simp [Rst.ordering, hp]
    exact cleared_of_finish rfl (by rw [if_pos ho, enterReset_routes])
  · intro s ha hc
    refine cleared_of_finish rfl ?_
    rw [if_pos rfl, if_neg (Bool.eq_false_iff.mp ha)]
    exact assertSource_hard_routes (.inl rfl) (by decide) hc
  · intro s ha hc hf
    refine cleared_of_finish rfl ?_
    rw [if_neg (Bool.eq_false_iff.mp ha)]
    exact assertSource_hard_routes (.inr rfl) hf hc

end Sys2Proof.Machine

/-! SUPPORT. Reads in two halves (R95 to R98): what a port's holding registers and its last word read are
after each. -/

namespace Sys2Proof.Machine

section
variable {s u : State} {port q : Port} {off : Nat} {v : Word} {p : Piece} {l : List Piece}

/-! ### Sparse tables -/

theorem tget?_tdel_self {α : Type} (t : Tab α) (k : Nat) : tget? (tdel t k) k = none := by
  induction t with
  | nil => rfl
  | cons e t ih => by_cases he : e.1 = k <;> simp_all [tdel, tget?]

theorem tget?_tdel_other {α : Type} (t : Tab α) {k n : Nat} (h : n ≠ k) : tget? (tdel t k) n = tget? t n := by
  induction t with
  | nil => rfl
  | cons e t ih => by_cases he : e.1 = k <;> simp_all [tdel, tget?, h.symm]

/-- Every key of a list of keys holds what it was put to. -/
theorem tget?_foldl_tput_of_mem {α : Type} (f : Nat → α) {l : List Nat} {k : Nat} (h : k ∈ l) (t : Tab α) :
    tget? (l.foldl (fun a o => tput a o (f o)) t) k = some (f k) := by
  have hk (l : List Nat) (t : Tab α) (ht : tget? t k = some (f k)) :
      tget? (l.foldl (fun a o => tput a o (f o)) t) k = some (f k) := by
    induction l generalizing t with
    | nil => exact ht
    | cons o l ih =>
      refine ih _ ?_
      by_cases ho : k = o
      · rw [← ho, tget?_tput_self]
      · rw [tget?_tput_other ho, ht]
  obtain ⟨a, b, rfl⟩ := List.append_of_mem h
  rw [List.foldl_append, List.foldl_cons]
  exact hk b _ tget?_tput_self

/-! ### The holding registers and the last word read -/

/-- The word that a port's last two-half read returned. -/
def HostIf.lastRead (h : HostIf) (port : Port) : Word :=
  match port with
  | .pcie => h.readPcie
  | .service => h.readSpi

theorem setHolding_holding_self (x : Tab Word) : (s.setHolding port x).host.holding port = x := by
  cases port <;> rfl

theorem setHolding_holding_other (x : Tab Word) (h : q ≠ port) :
    (s.setHolding port x).host.holding q = s.host.holding q := by
  cases port <;> cases q <;> simp_all [State.setHolding, HostIf.holding]

theorem setHolding_mt (x : Tab Word) : (s.setHolding port x).mt = s.mt := by cases port <;> rfl

theorem returns_holding : (State.returns (v, u) port).host.holding q = u.host.holding q := by
  cases port <;> rfl

theorem returns_lastRead : (State.returns (v, u) port).host.lastRead port = v := by cases port <;> rfl

theorem returns_mt : (State.returns (v, u) port).mt = u.mt := by cases port <;> rfl

theorem returns_clk : (State.returns (v, u) port).clk = u.clk := by cases port <;> rfl

theorem returns_kept (h : p ≠ .hostRegs) : Kept u (State.returns (v, u) port) p := by
  cases port <;> cases p <;> simp_all [Kept, State.returns]

theorem done_holding : (State.done s u).host.holding q = u.host.holding q := by
  cases q <;> simp [HostIf.holding]

theorem done_lastRead : (State.done s u).host.lastRead port = u.host.lastRead port := by
  cases port <;> simp [HostIf.lastRead]

/-- A read that returned a word and left a state: what the port shows, and what its step leaves alone. -/
theorem keptBut_returns (hl : .hostRegs ∈ l) (hc : u.clk = s.clk) (hk : ∀ p ∉ l, Kept s u p) :
    KeptBut l s (State.done s (State.returns (v, u) port)) :=
  keptBut_done (returns_clk.trans hc) fun p hp =>
    (hk p hp).trans (returns_kept fun h => hp (h ▸ hl))

theorem done_returns_holding :
    (State.done s (State.returns (v, u) port)).host.holding q = u.host.holding q :=
  done_holding.trans returns_holding

theorem done_returns_lastRead : (State.done s (State.returns (v, u) port)).host.lastRead port = v :=
  done_lastRead.trans returns_lastRead

theorem done_returns_mt : (State.done s (State.returns (v, u) port)).mt = u.mt := returns_mt

/-! ### The two rows -/

theorem exec_twoHalfLowRead (ho : s.opens port = true) (hh : highsOf off ≠ []) :
    exec (.twoHalfLowRead port off) s = .next (State.done s (State.returns (s.readLow port off) port)) := by
  show execTwoHalfLowRead port off s = _
  simp [execTwoHalfLowRead, finish, ho, hh]

theorem exec_twoHalfHighRead (ho : s.opens port = true) (hh : isHigh off = true) :
    exec (.twoHalfHighRead port off) s = .next (State.done s (State.returns (s.readHigh port off) port)) := by
  show execTwoHalfHighRead port off s = _
  simp [execTwoHalfHighRead, finish, ho, hh]

/-- A low half of any pair but MT_NOW is read as it stands, and its high halves are held (R96). -/
theorem readLow_of_ne (h : off ≠ 0x200) : s.readLow port off = (s.readReg port off,
    s.setHolding port ((highsOf off).foldl (fun a o => tput a o (s.readReg port o)) (s.host.holding port))) := by
  rw [State.readLow, if_neg h]

theorem stepGen_nowGen (m : MtBlk) : (m.stepGen port).nowGen port = (m.nowGen port + 1) % 16 := by
  cases port <;> rfl

/-- GEN and nothing else of mains time advances. -/
theorem stepGen_eq (m : MtBlk) : ∃ a b, m.stepGen port = { m with nowGenPcie := a, nowGenSpi := b } := by
  cases port
  · exact ⟨_, m.nowGenSpi, rfl⟩
  · exact ⟨m.nowGenPcie, _, rfl⟩

theorem mtLow_mod (g : Nat) (x : DWord) : mtLow (g % 16) x = mtLow g x := by simp [mtLow]

theorem mtHigh_mod (g : Nat) (x : DWord) : mtHigh (g % 16) x = mtHigh g x := by simp [mtHigh]

/-- MT_NOW is read with the next GEN, which its high half holds too (R97). -/
theorem readLow_mtNow : s.readLow port 0x200 = (mtLow (s.mt.nowGen port + 1) s.mt.mt,
    (s.modMt (fun m => m.stepGen port)).setHolding port
      (tput (s.host.holding port) 0x204 (mtHigh (s.mt.nowGen port + 1) s.mt.mt))) := by
  have hmt : (s.mt.stepGen port).mt = s.mt.mt := by cases port <;> rfl
  have hlow : (s.modMt (fun m => m.stepGen port)).readReg port 0x200 =
      mtLow ((s.mt.stepGen port).nowGen port) (s.mt.stepGen port).mt := rfl
  have hhigh : (s.modMt (fun m => m.stepGen port)).readReg port 0x204 =
      mtHigh ((s.mt.stepGen port).nowGen port) (s.mt.stepGen port).mt := rfl
  rw [stepGen_nowGen, hmt, mtLow_mod] at hlow
  rw [stepGen_nowGen, hmt, mtHigh_mod] at hhigh
  have hset : highsOf 0x200 = [0x204] := rfl
  simp only [State.readLow, if_true, hlow, hset, List.foldl_cons, List.foldl_nil, hhigh]
  rfl

/-- A high half that is held is returned once (R98). -/
theorem readHigh_held (h : tget? (s.host.holding port) off = some v) :
    s.readHigh port off = (v, s.setHolding port (tdel (s.host.holding port) off)) := by
  rw [State.readHigh, h]

/-- A high half that is not held is read live, marked STALE (R98). -/
theorem readHigh_stale (h : tget? (s.host.holding port) off = none) :
    s.readHigh port off = (s.readReg port off ||| bitAt (s.hasStale off) 27, s) := by
  rw [State.readHigh, h]

end

/-- Settles O30: each clause is a read of one half, by whether its holding register is full, with MT_NOW, whose
GEN advances, apart. -/
theorem twoHalfReads : Obligations.TwoHalfReads := by
  refine ⟨?_, ?_, ?_, ?_⟩
  · intro s port off ho hh hne
    refine ⟨_, exec_twoHalfLowRead ho hh, ?_⟩
    rw [readLow_of_ne hne]
    refine ⟨done_returns_lastRead, fun o hm => ?_, fun q hq => ?_, keptBut_returns (by decide)
      (setHolding_clk ..) fun p hp => setHolding_kept _ (by decide) hp⟩
    · rw [done_returns_holding, setHolding_holding_self]
      exact tget?_foldl_tput_of_mem (fun o => s.readReg port o) hm _
    · rw [done_returns_holding, setHolding_holding_other _ hq]
  · intro s port ho
    refine ⟨_, exec_twoHalfLowRead ho (by decide), ?_⟩
    rw [readLow_mtNow]
    have hmt : ∀ x : Tab Word, ((s.modMt (fun m => m.stepGen port)).setHolding port x).mt = s.mt.stepGen port :=
      fun x => setHolding_mt x
    obtain ⟨a, b, hgen⟩ := stepGen_eq (port := port) s.mt
    refine ⟨done_returns_lastRead, ?_, ?_, ?_, ?_, ?_, keptBut_returns (by decide) (setHolding_clk ..)
      fun p hp => (kept_mt (by decide) hp).trans (setHolding_kept _ (by decide) hp)⟩
    · rw [done_returns_holding, setHolding_holding_self, tget?_tput_self]
    · rw [done_returns_mt, hmt, stepGen_nowGen]
    all_goals rw [done_returns_mt, hmt, hgen]
  · intro s port off v ho hh hv
    refine ⟨_, exec_twoHalfHighRead ho hh, ?_⟩
    rw [readHigh_held hv]
    refine ⟨done_returns_lastRead, ?_, fun o hne => ?_, keptBut_returns (by decide) (setHolding_clk ..)
      fun p hp => setHolding_kept _ (by decide) hp⟩
    · rw [done_returns_holding, setHolding_holding_self, tget?_tdel_self]
    · rw [done_returns_holding, setHolding_holding_self, tget?_tdel_other _ hne]
  · intro s port off ho hh hv
    refine ⟨_, exec_twoHalfHighRead ho hh, ?_⟩
    rw [readHigh_stale hv]
    exact ⟨done_returns_lastRead, done_returns_holding, keptBut_returns (by decide) rfl fun _ _ => Kept.refl⟩

end Sys2Proof.Machine

/-! SUPPORT. The phase tracker of mains time (R75, R77, R633, Table 4.3): what it does at a valid crossing, and
what it leaves to the measurement. -/

namespace Sys2Proof.Machine

section
variable {s t u x : State} {e : Int} {p : Piece} {l : List Piece}

/-! ### What the tracker leaves alone -/

/-- Mains time without what the tracker sets. -/
def MtBlk.measured (m : MtBlk) : MtBlk :=
  { m with
    state := .virtual, freq := 0#32, slew := false, linear := false, firstPull := false, isoLoss := false
    integ := 0, goodRun := 0, badRun := 0, flags := 0#32, unlockCnt := 0#32 }

/-- A crossing in the state machine of Table 4.3, with the error the tracker uses. -/
def State.mtFollow (x : State) (e : Int) : State :=
  match x.mt.state with
  | .acquire => x.mtPullIn e
  | .locked => x.mtTrack e
  | .virtual => x
  | .search | .holdover =>
    if x.mt.mainsValid then (x.mtAcquire.mtPullIn e).modMt (fun m => { m with goodRun := 0 }) else x

/-- The tracker changes its own part of mains time, and raises events. -/
def Tracks (s t : State) : Prop := t.mt.measured = s.mt.measured ∧ t.sansMt = s.sansMt

theorem Tracks.trans (h : Tracks s t) (k : Tracks t u) : Tracks s u := ⟨k.1.trans h.1, k.2.trans h.2⟩

theorem tracks_raise (s : State) (c : Nat) : Tracks s (s.raise c) :=
  ⟨congrArg MtBlk.measured (raise_mt s c), raise_sansMt s c⟩

theorem tracks_mtUnlock (s : State) : Tracks s s.mtUnlock := by
  unfold State.mtUnlock
  split
  · exact Tracks.trans ⟨rfl, rfl⟩ (tracks_raise _ _)
  · exact ⟨rfl, rfl⟩

theorem tracks_mtPullIn (s : State) (e : Int) : Tracks s (s.mtPullIn e) := by
  unfold State.mtPullIn
  extract_lets m m1 m2 good b
  have h1 : m1.measured = s.mt.measured := by simp only [m1]; split <;> rfl
  have h2 : m2.measured = s.mt.measured := h1
  split
  · split
    · refine Tracks.trans ?_ (tracks_raise _ _)
      exact ⟨h2, rfl⟩
    · exact ⟨h2, rfl⟩
  · exact ⟨rfl, rfl⟩

theorem tracks_mtTrack (s : State) (e : Int) : Tracks s (s.mtTrack e) := by
  unfold State.mtTrack
  extract_lets bad m t
  have ht : Tracks s t := ⟨rfl, rfl⟩
  split
  · have ha (x : State) : Tracks x x.mtAcquire := ⟨rfl, rfl⟩
    exact ((ht.trans (tracks_mtUnlock t)).trans (ha _)).trans (tracks_mtPullIn _ e)
  · exact ht

theorem tracks_mtFollow (s : State) (e : Int) : Tracks s (s.mtFollow e) := by
  have same : Tracks s s := ⟨rfl, rfl⟩
  have enter : Tracks s ((s.mtAcquire.mtPullIn e).modMt (fun m => { m with goodRun := 0 })) := by
    have ha : Tracks s s.mtAcquire := ⟨rfl, rfl⟩
    exact (ha.trans (tracks_mtPullIn _ e)).trans ⟨rfl, rfl⟩
  unfold State.mtFollow
  split
  · exact tracks_mtPullIn s e
  · exact tracks_mtTrack s e
  · exact same
  all_goals
    split
    · exact enter
    · exact same

/-! ### ACQUIRE -/

/-- The frequency of a slew: f_est and the rate limit of ACQUIRE on the side that brings the error back
(Table 4.2, R633). -/
def MtBlk.slewFreq (m : MtBlk) (e : Int) : Word :=
  w32 (if 0 < e then (m.fEst : Int) - (if m.firstPull = true then m.fEst / 4 else m.fEst / 50 : Nat)
    else (m.fEst : Int) + (if m.firstPull = true then m.fEst / 4 else m.fEst / 50 : Nat))

/-- Outside the linear phase an error beyond 2^-8 cycle slews at the rate limit. -/
theorem mtPullIn_slew (ha : x.mt.state = .acquire) (hl : x.mt.linear = false) (he : 2 ^ 24 < e.natAbs) :
    x.mtPullIn e = x.modMt (fun m => { m with freq := x.mt.slewFreq e, slew := true, goodRun := 0 }) := by
  have hc : ¬ (x.mt.linear || decide (e.natAbs ≤ 2 ^ 24)) = true := by
    rw [hl, Bool.false_or, decide_eq_true_eq]
    exact Nat.not_le.mpr he
  have hf : w32 (if 0 < e then x.mt.bounds.1 else x.mt.bounds.2) = x.mt.slewFreq e := by
    simp [MtBlk.bounds, MtBlk.slewFreq, ha]
  rw [← hf]
  exact if_neg hc

/-- The block as the linear phase leaves it before it judges the lock (R633). -/
def MtBlk.pulledIn (m : MtBlk) (e : Int) : MtBlk :=
  (if m.linear then m else { m with linear := true, integ := m.fEst }).pull 20 e

theorem pulledIn_eq (m : MtBlk) (e : Int) :
    ∃ i f w, m.pulledIn e = { m with linear := true, integ := i, freq := f, slew := w } := by
  unfold MtBlk.pulledIn
  split
  next h => exact ⟨_, _, _, by rw [MtBlk.pull, ← h]⟩
  next => exact ⟨_, _, _, rfl⟩

/-- The linear phase counts the errors within 2^-12 cycle. -/
theorem mtPullIn_linear (h : x.mt.linear = true ∨ e.natAbs ≤ 2 ^ 24)
    (hg : 2 ^ 20 < e.natAbs ∨ x.mt.goodRun < 3) :
    x.mtPullIn e = { x with mt := { x.mt.pulledIn e with
      goodRun := if e.natAbs ≤ 2 ^ 20 then x.mt.goodRun + 1 else 0 } } := by
  have hc : (x.mt.linear || decide (e.natAbs ≤ 2 ^ 24)) = true := by
    rwa [Bool.or_eq_true, decide_eq_true_eq]
  have hn : ¬ 4 ≤ (if e.natAbs ≤ 2 ^ 20 then x.mt.goodRun + 1 else 0) := by split <;> omega
  unfold State.mtPullIn
  extract_lets
  rw [if_pos hc, if_neg hn]
  rfl

/-- The fourth error in a row within 2^-12 cycle locks. -/
theorem mtPullIn_lock (hg : e.natAbs ≤ 2 ^ 20 ∧ 3 ≤ x.mt.goodRun) :
    (x.mtPullIn e).mt = { x.mt.pulledIn e with
      state := .locked, firstPull := false, goodRun := 0, badRun := 0, flags := x.mt.flags ||| 1#32 } := by
  obtain ⟨he, h3⟩ := hg
  have hc : (x.mt.linear || decide (e.natAbs ≤ 2 ^ 24)) = true := by
    rw [Bool.or_eq_true, decide_eq_true_eq]
    exact .inr (he.trans (by norm_num))
  have hn : 4 ≤ (if e.natAbs ≤ 2 ^ 20 then x.mt.goodRun + 1 else 0) := by
    rw [if_pos he]
    omega
  unfold State.mtPullIn
  extract_lets
  rw [if_pos hc, if_pos hn, raise_mt]
  rfl

/-! ### LOCKED -/

theorem mtTrack_locked (h : e.natAbs ≤ 2 ^ 27 ∨ x.mt.badRun < 3) :
    x.mtTrack e = { x with mt := { x.mt.pull x.trackBw e with
      badRun := if 2 ^ 27 < e.natAbs then x.mt.badRun + 1 else 0 } } := by
  have hn : ¬ 4 ≤ (if 2 ^ 27 < e.natAbs then x.mt.badRun + 1 else 0) := by split <;> omega
  unfold State.mtTrack
  extract_lets
  rw [if_neg hn]

/-- The fourth error in a row beyond 2^-5 cycle unlocks into the slew phase. -/
theorem mtTrack_unlock (hs : x.mt.state = .locked) (h : 2 ^ 27 < e.natAbs ∧ 3 ≤ x.mt.badRun) :
    (x.mtTrack e).mt.state = .acquire ∧ (x.mtTrack e).mt.flags = x.mt.flags ||| 2#32 ∧
      (x.mtTrack e).mt.unlockCnt = bump x.mt.unlockCnt ∧ (x.mtTrack e).mt.linear = false ∧
      (x.mtTrack e).mt.slew = true := by
  obtain ⟨he, h3⟩ := h
  have hn : 4 ≤ (if 2 ^ 27 < e.natAbs then x.mt.badRun + 1 else 0) := by
    rw [if_pos he]
    omega
  unfold State.mtTrack
  extract_lets bad m t
  have hu : t.mtUnlock.mt = { t.mt with unlockCnt := bump x.mt.unlockCnt, flags := x.mt.flags ||| 2#32 } :=
    mtUnlock_mt_locked hs
  rw [if_pos hn, mtPullIn_slew rfl rfl (lt_trans (by norm_num) he)]
  simp only [State.modMt, State.mtAcquire, hu]
  exact ⟨trivial, trivial, trivial, trivial, trivial⟩

/-! ### Table 4.3 -/

theorem mtFollow_acquire (h : x.mt.state = .acquire) : x.mtFollow e = x.mtPullIn e := by
  rw [State.mtFollow, h]

theorem mtFollow_locked (h : x.mt.state = .locked) : x.mtFollow e = x.mtTrack e := by
  rw [State.mtFollow, h]

theorem mtFollow_slew (ha : x.mt.state = .acquire) (hl : x.mt.linear = false) (he : 2 ^ 24 < e.natAbs) :
    (x.mtFollow e).mt.state = .acquire ∧ (x.mtFollow e).mt.linear = false ∧ (x.mtFollow e).mt.slew = true ∧
      (x.mtFollow e).mt.goodRun = 0 ∧ (x.mtFollow e).mt.freq = x.mt.slewFreq e ∧
      (x.mtFollow e).mt.flags = x.mt.flags := by
  rw [mtFollow_acquire ha, mtPullIn_slew ha hl he]
  exact ⟨ha, hl, rfl, rfl, rfl, rfl⟩

theorem mtFollow_linear (ha : x.mt.state = .acquire) (h : x.mt.linear = true ∨ e.natAbs ≤ 2 ^ 24)
    (hg : 2 ^ 20 < e.natAbs ∨ x.mt.goodRun < 3) :
    (x.mtFollow e).mt.state = .acquire ∧ (x.mtFollow e).mt.linear = true ∧
      (x.mtFollow e).mt.firstPull = x.mt.firstPull ∧ (x.mtFollow e).mt.flags = x.mt.flags ∧
      (x.mtFollow e).mt.goodRun = if e.natAbs ≤ 2 ^ 20 then x.mt.goodRun + 1 else 0 := by
  obtain ⟨i, f, w, hp⟩ := pulledIn_eq x.mt e
  rw [mtFollow_acquire ha, mtPullIn_linear h hg, hp]
  exact ⟨ha, rfl, rfl, rfl, rfl⟩

theorem mtFollow_lock (ha : x.mt.state = .acquire) (hg : e.natAbs ≤ 2 ^ 20 ∧ 3 ≤ x.mt.goodRun) :
    (x.mtFollow e).mt.state = .locked ∧ (x.mtFollow e).mt.firstPull = false ∧
      (x.mtFollow e).mt.flags = x.mt.flags ||| 1#32 ∧ (x.mtFollow e).mt.goodRun = 0 := by
  rw [mtFollow_acquire ha, mtPullIn_lock hg]
  exact ⟨rfl, rfl, rfl, rfl⟩

theorem mtFollow_track (hs : x.mt.state = .locked) (h : e.natAbs ≤ 2 ^ 27 ∨ x.mt.badRun < 3) :
    (x.mtFollow e).mt.state = .locked ∧ (x.mtFollow e).mt.flags = x.mt.flags ∧
      (x.mtFollow e).mt.unlockCnt = x.mt.unlockCnt ∧
      (x.mtFollow e).mt.badRun = if 2 ^ 27 < e.natAbs then x.mt.badRun + 1 else 0 := by
  rw [mtFollow_locked hs, mtTrack_locked h]
  exact ⟨hs, rfl, rfl, rfl⟩

theorem mtFollow_unlock (hs : x.mt.state = .locked) (h : 2 ^ 27 < e.natAbs ∧ 3 ≤ x.mt.badRun) :
    (x.mtFollow e).mt.state = .acquire ∧ (x.mtFollow e).mt.flags = x.mt.flags ||| 2#32 ∧
      (x.mtFollow e).mt.unlockCnt = bump x.mt.unlockCnt ∧ (x.mtFollow e).mt.linear = false ∧
      (x.mtFollow e).mt.slew = true := by
  rw [mtFollow_locked hs]
  exact mtTrack_unlock hs h

/-- In VIRTUAL, and while mains is not valid, the tracker stays as it is. -/
theorem mtFollow_idle (h : x.mt.state = .virtual ∨
    (x.mt.state ≠ .acquire ∧ x.mt.state ≠ .locked ∧ x.mt.mainsValid = false)) : x.mtFollow e = x := by
  unfold State.mtFollow
  rcases h with h | ⟨ha, hl, hv⟩
  · rw [h]
  · split <;> simp_all

/-- With mains valid, SEARCH and HOLDOVER enter ACQUIRE. -/
theorem mtFollow_enter (h : x.mt.state = .search ∨ x.mt.state = .holdover) (hv : x.mt.mainsValid = true) :
    x.mtFollow e = (x.mtAcquire.mtPullIn e).modMt (fun m => { m with goodRun := 0 }) := by
  rcases h with h | h <;> simp [State.mtFollow, h, hv]

/-- ACQUIRE begins with the linear phase within 2^-8 cycle, and with a slew beyond. -/
theorem mtFollow_enter_mt (h : x.mt.state = .search ∨ x.mt.state = .holdover) (hv : x.mt.mainsValid = true) :
    (x.mtFollow e).mt.state = .acquire ∧ (x.mtFollow e).mt.flags = x.mt.flags ∧ (x.mtFollow e).mt.goodRun = 0 ∧
      (x.mtFollow e).mt.isoLoss = false ∧ (x.mtFollow e).mt.linear = decide (e.natAbs ≤ 2 ^ 24) ∧
      (2 ^ 24 < e.natAbs → (x.mtFollow e).mt.slew = true ∧ (x.mtFollow e).mt.freq = x.mt.slewFreq e) := by
  rw [mtFollow_enter h hv]
  by_cases he : e.natAbs ≤ 2 ^ 24
  · obtain ⟨i, f, w, hp⟩ := pulledIn_eq x.mtAcquire.mt e
    rw [mtPullIn_linear (.inr he) (.inr (show (0 : Nat) < 3 by decide)), decide_eq_true he, hp]
    exact ⟨rfl, rfl, rfl, rfl, rfl, fun hb => absurd he (Nat.not_le.mpr hb)⟩
  · rw [mtPullIn_slew rfl rfl (Nat.not_le.mp he), decide_eq_false he]
    exact ⟨rfl, rfl, rfl, rfl, rfl, fun _ => ⟨rfl, rfl⟩⟩

end

end Sys2Proof.Machine

/-! SUPPORT. A valid mains crossing joins the measurement (R72 to R74, Table 4.1), whatever the tracker does with
it. -/

namespace Sys2Proof.Machine

section
variable {s t : State} {ago amplitude : Nat} {rising : Bool} {delta used : Int} {p : Piece}

theorem accepts_of_all {m : MtBlk} {c : Crossing} (h : 60 ≤ amplitude ∧ m.cross.head?.all (fun p =>
    (p.rising != c.rising) && decide (680000 ≤ c.t - p.t) && decide (c.t - p.t ≤ 1316000)) = true) :
    m.accepts c amplitude = true := by
  obtain ⟨ha, hc⟩ := h
  cases hm : m.cross <;> simp_all [MtBlk.accepts]

theorem not_accepts_of_any {m : MtBlk} {c : Crossing} (h : amplitude < 60 ∨ m.cross.head?.any (fun p =>
    (p.rising == c.rising) || decide (c.t - p.t < 680000) || decide (1316000 < c.t - p.t)) = true) :
    m.accepts c amplitude = false := by
  rcases h with h | h
  · simp [MtBlk.accepts, Nat.not_le.mpr h]
  · cases hm : m.cross with
    | nil => simp [hm] at h
    | cons a l =>
      simp only [hm, List.head?_cons, Option.any_some, Bool.or_eq_true, beq_iff_eq, decide_eq_true_eq] at h
      simp only [MtBlk.accepts, hm, Bool.and_eq_false_iff, bne_eq_false_iff_eq, decide_eq_false_iff_not, not_le]
      exact .inr h

/-- A crossing without effect: below 20 V, or with the channel failed. -/
theorem exec_mainsCrossing_none (h : amplitude < 20 ∨ s.iso.failed = true) :
    exec (.mainsCrossing ago rising amplitude) s = .next (State.done s s) := by
  have hc : (!s.rst.ctrlUp || s.iso.failed || decide (amplitude < 20)) = true := by
    rcases h with h | h <;> simp [h]
  show execMainsCrossing ago rising amplitude s = _
  rw [execMainsCrossing, if_pos hc]
  rfl

theorem exec_mainsCrossing_rejected (hu : s.rst.ctrlUp = true ∧ s.iso.failed = false) (ha : 20 ≤ amplitude)
    (h : s.mt.accepts ⟨s.now10 - ago, rising⟩ amplitude = false) :
    exec (.mainsCrossing ago rising amplitude) s = .next (State.done s { s with mt := { s.mt with
      rejCnt := bump s.mt.rejCnt, flags := s.mt.flags ||| 8#32, validRun := 0, goodRun := 0, badRun := 0 } }) := by
  obtain ⟨hc, hf⟩ := hu
  show execMainsCrossing ago rising amplitude s = _
  simp [execMainsCrossing, finish, hc, hf, Nat.not_lt.mpr ha, h, State.modMt]

/-- δ after a crossing: it follows the phase errors while the tracker runs (R75, Table 4.2). -/
def State.crossDelta (s : State) (ago : Nat) (rising : Bool) : Int :=
  if (s.mt.state == .acquire || s.mt.state == .locked) && 1 ≤ s.mt.validRun then
    s.mt.delta + rdiv ((if rising then s.phaseErr ago rising - s.mt.lastErr
      else s.mt.lastErr - s.phaseErr ago rising) - s.mt.delta) 256
  else s.mt.delta

/-- The error the tracker uses: the phase error with half of δ taken out (R75). -/
def State.usedErr (s : State) (ago : Nat) (rising : Bool) (delta : Int) : Int :=
  if rising then s.phaseErr ago rising - rdiv delta 2 else s.phaseErr ago rising + rdiv delta 2

/-- A valid crossing in the measurement, before the tracker takes it (R74). -/
def State.crossed (s : State) (ago : Nat) (rising : Bool) (delta : Int) : State :=
  { s with
    mt := { s.mt.measure ⟨s.now10 - ago, rising⟩ with delta := delta, lastErr := s.phaseErr ago rising }
    pfe := { s.pfe with
      everValid := s.pfe.everValid || (s.mt.measure ⟨s.now10 - ago, rising⟩).mainsValid
      pri := { s.pfe.pri with lineLoss := s.pfe.pri.lineLoss &&
        !((s.mt.measure ⟨s.now10 - ago, rising⟩).mainsValid && !s.mt.mainsValid) } } }

/-- What a valid crossing comes to. -/
def State.crossEnd (s : State) (ago : Nat) (rising : Bool) (delta : Int) : State :=
  State.done s ((s.crossed ago rising delta).mtFollow (s.usedErr ago rising delta)).apQual

theorem exec_mainsCrossing_accepted (hu : s.rst.ctrlUp = true ∧ s.iso.failed = false)
    (h : s.mt.accepts ⟨s.now10 - ago, rising⟩ amplitude = true) :
    exec (.mainsCrossing ago rising amplitude) s =
      .next (s.crossEnd ago rising (s.crossDelta ago rising)) := by
  obtain ⟨hc, hf⟩ := hu
  have ha : ¬ amplitude < 20 := by
    simp only [MtBlk.accepts, Bool.and_eq_true, decide_eq_true_eq] at h
    omega
  have hn : ¬ (!s.rst.ctrlUp || s.iso.failed || decide (amplitude < 20)) = true := by simp [hc, hf, ha]
  show execMainsCrossing ago rising amplitude s = _
  unfold execMainsCrossing
  extract_lets c e tracks d delta used t back t'
  rw [if_neg hn, if_neg (by simp [c, h])]
  rfl

theorem crossDelta_tracking (h : s.mt.state = .acquire ∨ s.mt.state = .locked) :
    s.crossDelta ago rising = if 1 ≤ s.mt.validRun then
      s.mt.delta + rdiv ((if rising = true then s.phaseErr ago rising - s.mt.lastErr
        else s.mt.lastErr - s.phaseErr ago rising) - s.mt.delta) 256 else s.mt.delta := by
  rcases h with h | h <;> simp [State.crossDelta, h]

theorem crossDelta_idle (h : s.mt.state = .search ∨ s.mt.state = .holdover) :
    s.crossDelta ago rising = s.mt.delta := by
  rcases h with h | h <;> simp [State.crossDelta, h]

/-- Of what a crossing measures the tracker changes nothing. -/
theorem crossEnd_measured (s : State) (ago : Nat) (rising : Bool) (delta : Int) :
    (s.crossEnd ago rising delta).mt.measured = (s.crossed ago rising delta).mt.measured :=
  (tracks_mtFollow _ _).1

theorem crossEnd_fEst (s : State) (ago : Nat) (rising : Bool) (delta : Int) :
    (s.crossEnd ago rising delta).mt.fEst = (s.crossed ago rising delta).mt.fEst :=
  (congrArg MtBlk.fEst (crossEnd_measured s ago rising delta) :)

theorem crossEnd_delta (s : State) (ago : Nat) (rising : Bool) (delta : Int) :
    (s.crossEnd ago rising delta).mt.delta = delta :=
  (congrArg MtBlk.delta (crossEnd_measured s ago rising delta) :)

/-- Mains is valid from the third valid crossing in a row (R74). -/
theorem crossed_mainsValid (s : State) (ago : Nat) (rising : Bool) (delta : Int) :
    (s.crossed ago rising delta).mt.mainsValid = (s.mt.mainsValid || decide (3 ≤ s.mt.validRun + 1)) := rfl

/-- What a valid crossing does in every state of the tracker. -/
def Joins (s t : State) (ago : Nat) (rising : Bool) : Prop :=
  t.mt.validRun = s.mt.validRun + 1 ∧ t.mt.mt = s.mt.mt ∧ t.mt.rejCnt = s.mt.rejCnt ∧
    t.mt.mainsValid = (s.mt.mainsValid || decide (3 ≤ s.mt.validRun + 1)) ∧
    t.mt.cross = ((⟨s.now10 - ago, rising⟩ : Crossing) :: s.mt.cross).take 5 ∧
    t.pfe = { s.pfe with
      everValid := s.pfe.everValid || t.mt.mainsValid
      pri := { s.pfe.pri with lineLoss := s.pfe.pri.lineLoss && !(t.mt.mainsValid && !s.mt.mainsValid) } } ∧
    KeptBut [.pfe, .mt, .fig] s t

theorem kept_mainsTime {a : MtBlk} {b : Tab Fig} {c : Pfe} (hp : p ∉ [Piece.pfe, .mt, .fig]) :
    Kept s { s with mt := a, fig := b, pfe := c } p := by
  cases p <;> simp_all [Kept]

/-- What the tracker and open apertures do leaves the rest of a state as it was. -/
theorem quiet_of_sansMt {u x : State} (h : u.sansMt = x.sansMt) :
    u.quiet = ({ x with mt := u.mt, fig := u.fig } : State).quiet :=
  (congrArg (fun y : State => { y with mt := u.mt, fig := u.fig }) h :)

theorem crossEnd_joins (s : State) (ago : Nat) (rising : Bool) (delta : Int) :
    Joins s (s.crossEnd ago rising delta) ago rising := by
  obtain ⟨-, hs⟩ := tracks_mtFollow (s.crossed ago rising delta) (s.usedErr ago rising delta)
  have hm := crossEnd_measured s ago rising delta
  have hv : (s.crossEnd ago rising delta).mt.mainsValid = (s.mt.mainsValid || decide (3 ≤ s.mt.validRun + 1)) :=
    (congrArg MtBlk.mainsValid hm :)
  refine ⟨(congrArg MtBlk.validRun hm :), (congrArg MtBlk.mt hm :), (congrArg MtBlk.rejCnt hm :), hv,
    (congrArg MtBlk.cross hm :), ?_, ?_⟩
  · rw [hv]
    exact (congrArg State.pfe hs :)
  · exact keptBut_of_quiet (x := { s.crossed ago rising delta with mt := _, fig := _ }) (quiet_of_sansMt hs) rfl
      fun p hp => kept_mainsTime hp

end

end Sys2Proof.Machine

/-! SUPPORT. Mains is lost (R74, R77, R79, Table 4.3), with or without a hold-up sequence (R115). -/

namespace Sys2Proof.Machine

section
variable {s : State} {p : Piece}

/-! ### Mains time -/

/-- Mains time without the crossings of the mains that is lost (R74). -/
def MtBlk.lost (m : MtBlk) : MtBlk :=
  { m with cross := [], validRun := 0, mainsValid := false, lineFreq := 0#32, xnoise := 0#16, goodRun := 0, badRun := 0 }

/-- A holdover begins at the mean frequency of the crossings tracked (R77, R79). -/
def MtBlk.heldOver (m : MtBlk) : MtBlk :=
  { m.lost with
    state := .holdover, freq := BitVec.ofNat 32 m.heldFreq, slew := false, isoLoss := false, holdCyc := 0#32
    flags := m.flags ||| 4#32 }

theorem bitAt_false (n : Nat) : bitAt false n = 0#32 := rfl

theorem mainsGone_mt_locked (h : s.mt.state = .locked) : (s.mainsGone false).mt =
    { s.mt.heldOver with unlockCnt := bump s.mt.unlockCnt, flags := s.mt.flags ||| 6#32 } := by
  have hq (x : State) : x.apQual.mt = x.mt := rfl
  have hf : s.mt.flags ||| 2#32 ||| 4#32 ||| bitAt false 5 = s.mt.flags ||| 6#32 := by
    simp only [BitVec.or_assoc]
    rfl
  unfold State.mainsGone
  extract_lets t hold
  have hu : t.mtUnlock.mt = { t.mt with unlockCnt := bump s.mt.unlockCnt, flags := s.mt.flags ||| 2#32 } :=
    mtUnlock_mt_locked h
  simp only [h, hq, hold, raise_mt, State.modMt, hu, hf]
  rfl

theorem mainsGone_mt_first (h : s.mt.state = .acquire) (hp : s.mt.firstPull = true) : (s.mainsGone false).mt =
    { s.mt.lost with state := .search, freq := s.cast 0x101 0, slew := false } := by
  unfold State.mainsGone
  extract_lets t hold
  simp only [h, if_pos hp]
  rfl

theorem mainsGone_mt_again (h : s.mt.state = .acquire) (hp : s.mt.firstPull = false) :
    (s.mainsGone false).mt = s.mt.heldOver := by
  have hq (x : State) : x.apQual.mt = x.mt := rfl
  have hf (x : Word) : x ||| 4#32 ||| bitAt false 5 = x ||| 4#32 := by rw [bitAt_false, BitVec.or_zero]
  unfold State.mainsGone
  extract_lets t hold
  simp only [h, hp, if_neg Bool.false_ne_true, hq, hold, raise_mt, State.modMt, hf]
  rfl

theorem mainsGone_mt_idle {iso : Bool} (h : s.mt.state = .virtual ∨ s.mt.state = .search ∨ s.mt.state = .holdover) :
    (s.mainsGone iso).mt = s.mt.lost := by
  rcases h with h | h | h <;> rw [State.mainsGone, h] <;> rfl

/-- What a loss of mains makes of mains time (Table 4.3). -/
def MtLoss (s : State) (m : MtBlk) : Prop :=
  m.cross = [] ∧ m.validRun = 0 ∧ m.mainsValid = false ∧ m.lineFreq = 0#32 ∧ m.xnoise = 0#16 ∧ m.mt = s.mt.mt ∧
    (s.mt.state = .locked → m.state = .holdover ∧ m.freq = BitVec.ofNat 32 s.mt.heldFreq ∧
      m.unlockCnt = bump s.mt.unlockCnt ∧ m.flags = s.mt.flags ||| 6#32 ∧ m.isoLoss = false ∧ m.holdCyc = 0#32) ∧
    (s.mt.state = .acquire ∧ s.mt.firstPull = true →
      m.state = .search ∧ m.freq = s.cast 0x101 0 ∧ m.flags = s.mt.flags) ∧
    (s.mt.state = .acquire ∧ s.mt.firstPull = false → m.state = .holdover ∧ m.freq = BitVec.ofNat 32 s.mt.heldFreq ∧
      m.flags = s.mt.flags ||| 4#32 ∧ m.unlockCnt = s.mt.unlockCnt ∧ m.holdCyc = 0#32) ∧
    (s.mt.state = .virtual ∨ s.mt.state = .search ∨ s.mt.state = .holdover →
      m.state = s.mt.state ∧ m.freq = s.mt.freq ∧ m.flags = s.mt.flags)

theorem mtLoss_mainsGone (s : State) : MtLoss s (s.mainsGone false).mt := by
  unfold MtLoss
  cases hs : s.mt.state with
  | locked => simp [mainsGone_mt_locked hs, MtBlk.heldOver, MtBlk.lost]
  | acquire =>
    cases hp : s.mt.firstPull with
    | true => simp [mainsGone_mt_first hs hp, MtBlk.lost]
    | false => simp [mainsGone_mt_again hs hp, MtBlk.heldOver, MtBlk.lost]
  | virtual => simp [mainsGone_mt_idle (.inl hs), MtBlk.lost, hs]
  | search => simp [mainsGone_mt_idle (.inr (.inl hs)), MtBlk.lost, hs]
  | holdover => simp [mainsGone_mt_idle (.inr (.inr hs)), MtBlk.lost, hs]

/-! ### The rest of the state -/

theorem mainsGone_pfe (iso : Bool) : (s.mainsGone iso).pfe = s.pfe := (congrArg State.pfe (mainsGone_quiet s iso) :)

theorem mainsGone_clk (iso : Bool) : (s.mainsGone iso).clk = s.clk := (congrArg State.clk (mainsGone_quiet s iso) :)

theorem mainsGone_dcFed (iso : Bool) : (s.mainsGone iso).dcFed = s.dcFed :=
  (congrArg State.dcFed (mainsGone_quiet s iso) :)

theorem mainsGone_kept (iso : Bool) (hm : p ≠ .mt) (hf : p ≠ .fig) : Kept s (s.mainsGone iso) p := by
  refine Kept.trans (t := ({ s with mt := (s.mainsGone iso).mt, fig := (s.mainsGone iso).fig } : State)) ?_
    (kept_of_quiet (mainsGone_quiet s iso) p)
  cases p <;> simp_all [Kept]

theorem heldUp_kept (m : HuState) (h : p ≠ .pfe) : Kept s (s.heldUp m) p := by
  cases p <;> simp_all [Kept, State.heldUp]

theorem mainsGone_heldUp_pfe (m : HuState) : ((s.mainsGone false).heldUp m).pfe =
    { s.pfe with faults := s.pfe.faults ||| 1#32, hu := m, huClk := s.clk } := by
  simp only [State.heldUp, mainsGone_pfe, mainsGone_clk]

theorem mainsGone_heldUp_kept (m : HuState) (hp : p ∉ [Piece.mt, .fig, .pfe]) :
    Kept s ((s.mainsGone false).heldUp m) p := by
  simp only [List.mem_cons, List.not_mem_nil, or_false, not_or] at hp
  obtain ⟨hm, hf, hq⟩ := hp
  exact (mainsGone_kept false hm hf).trans (heldUp_kept m hq)

/-- A hold-up sequence finds after the loss what it found before. -/
theorem mainsGone_starts (h : s.dcFed = false ∧ s.pfe.everValid = true ∧ s.pfe.hu = .normal) :
    (s.mainsGone false).dcFed = false ∧ (s.mainsGone false).pfe.everValid = true ∧
      (s.mainsGone false).pfe.hu = .normal := by
  rwa [mainsGone_dcFed, mainsGone_pfe]

/-! ### The row -/

theorem exec_mainsLost_late (hu : s.rst.ctrlUp = true) (hl : s.crossingLate = true) :
    exec .mainsLost s = .next (State.done s
      (if s.mt.mainsValid = true then (s.mainsGone false).mainsLoss false else s.mainsGone false)) := by
  show execMainsLost s = _
  simp [execMainsLost, finish, hu, hl]

theorem exec_mainsLost_early (hl : s.crossingLate = false) : exec .mainsLost s = .next (State.done s s) := by
  show execMainsLost s = _
  simp [execMainsLost, finish, hl]

/-- A loss that starts no hold-up sequence. -/
theorem exec_mainsLost_alone (hu : s.rst.ctrlUp = true) (hl : s.crossingLate = true)
    (h : s.mt.mainsValid = false ∨ s.dcFed = true ∨ s.pfe.everValid = false ∨ s.pfe.hu ≠ .normal) :
    exec .mainsLost s = .next (State.done s (s.mainsGone false)) := by
  have hn : s.dcFed = true ∨ s.pfe.everValid = false ∨ s.pfe.hu ≠ .normal →
      (s.mainsGone false).mainsLoss false = s.mainsGone false := fun h =>
    mainsLoss_none (by rwa [mainsGone_dcFed, mainsGone_pfe])
  rw [exec_mainsLost_late hu hl]
  rcases h with h | h
  · rw [h, if_neg Bool.false_ne_true]
  · rw [hn h, ite_self]

theorem keptBut_mainsGone : KeptBut [.mt, .fig] s (State.done s (s.mainsGone false)) :=
  keptBut_done (mainsGone_clk false) fun p hp => by
    simp only [List.mem_cons, List.not_mem_nil, or_false, not_or] at hp
    exact mainsGone_kept false hp.1 hp.2

/-- A loss with energy to ride on starts RIDE (R115). -/
theorem exec_mainsLost_ride (hu : s.rst.ctrlUp = true) (hl : s.crossingLate = true)
    (h : s.mt.mainsValid = true ∧ s.dcFed = false ∧ s.pfe.everValid = true ∧ s.pfe.hu = .normal)
    (he : s.pfe.vbulk = none ∨ s.pfe.eRes < s.pfe.eUse) :
    ∃ t, exec .mainsLost s = .next t ∧ t.mt = (s.mainsGone false).mt ∧
      t.pfe = { s.pfe with faults := s.pfe.faults ||| 1#32, hu := .ride, huClk := s.clk } ∧
      t.peat.holdup = true ∧ KeptBut [.mt, .fig, .pfe] s t := by
  obtain ⟨hv, h⟩ := h
  have hq : ((s.mainsGone false).mainsLoss false).quiet = ((s.mainsGone false).heldUp .ride).quiet :=
    mainsLoss_ride (mainsGone_starts h) (by rwa [mainsGone_pfe])
  have hs := steady_of_quiet hq
  refine ⟨_, exec_mainsLost_late hu hl, ?_⟩
  rw [if_pos hv]
  refine ⟨?_, ?_, ?_, ?_⟩
  · rw [done_mt, mt_of_steady hs]
    rfl
  · rw [done_pfe, pfe_of_steady hs, mainsGone_heldUp_pfe]
  · rw [done_peat_holdup, holdup_of_steady hs]
    rfl
  · exact keptBut_of_quiet hq (mainsGone_clk false) fun p hp => mainsGone_heldUp_kept .ride hp

/-- A loss whose energy does not pass the reserve starts WINDDOWN, which disables every figure (R115, R117). -/
theorem exec_mainsLost_windDown (hu : s.rst.ctrlUp = true) (hl : s.crossingLate = true)
    (h : s.mt.mainsValid = true ∧ s.dcFed = false ∧ s.pfe.everValid = true ∧ s.pfe.hu = .normal)
    (he : s.pfe.vbulk ≠ none ∧ s.pfe.eUse ≤ s.pfe.eRes) :
    ∃ t, exec .mainsLost s = .next t ∧ t.mt = (s.mainsGone false).mt ∧
      t.pfe = { s.pfe with faults := s.pfe.faults ||| 1#32, hu := .winddown, huClk := s.clk } ∧
      t.peat.holdup = true ∧ (∀ f, (t.figAt f).enabled = false) ∧
      KeptBut ([.mt, .fig, .pfe] ++ workParts) s t := by
  obtain ⟨hv, h⟩ := h
  have hc : ((s.mainsGone false).mainsLoss false).core =
      (((s.mainsGone false).heldUp .winddown).steady, fun _ => false) :=
    mainsLoss_windDown (mainsGone_starts h) (.inr (by rwa [mainsGone_pfe]))
  have hs : ((s.mainsGone false).mainsLoss false).steady = ((s.mainsGone false).heldUp .winddown).steady :=
    congrArg Prod.fst hc
  refine ⟨_, exec_mainsLost_late hu hl, ?_⟩
  rw [if_pos hv]
  refine ⟨?_, ?_, ?_, fun f => ?_, ?_⟩
  · rw [done_mt, mt_of_steady hs]
    rfl
  · rw [done_pfe, pfe_of_steady hs, mainsGone_heldUp_pfe]
  · rw [done_peat_holdup, holdup_of_steady hs]
    rfl
  · rw [done_figAt]
    exact congrFun (congrArg Prod.snd hc) f
  · exact keptBut_of_steady hs (mainsGone_clk false) fun p hp => mainsGone_heldUp_kept .winddown hp

end

end Sys2Proof.Machine

/-! SUPPORT. A counter of the event fabric counts the event that its sluice carries (R436, R446): the records of
the error log that a step adds raise events of the log alone. -/

namespace Sys2Proof.Machine

section
variable {s u : State} {c j k : Nat}

/-! ### What the log leaves of the fabric -/

/-- The fabric without the events of the error log (Table 16.1). -/
def State.plainFab (s : State) : Fab :=
  { s.fab with raised := s.fab.raised.filter (fun c => c < 0xAA0) }

theorem plainFab_cnt (s : State) : s.plainFab.cnt = s.fab.cnt := rfl
theorem plainFab_sel (s : State) : s.plainFab.sel = s.fab.sel := rfl
theorem plainFab_masks (s : State) : s.plainFab.masks = s.fab.masks := rfl
theorem plainFab_raised (s : State) : s.plainFab.raised = s.fab.raised.filter (fun c => c < 0xAA0) := rfl

theorem raise_plainFab (h : 0xAA0 ≤ c) : (s.raise c).plainFab = s.plainFab := by
  unfold State.raise
  split
  · rfl
  · simp [State.plainFab, Nat.not_lt.mpr h]

theorem formErr_plainFab (s : State) (r : ErrRec) : (s.formErr r).plainFab = s.plainFab := by
  unfold State.formErr
  extract_lets e s1 s2
  have h2 : s2.plainFab = s.plainFab := by
    simp only [s2]
    split
    · rfl
    · rw [raise_plainFab (by decide)]
      rfl
  split
  · rw [raise_plainFab (by decide), h2]
  · exact h2

theorem log_plainFab (s : State) (e : ErrSpec) : (s.log e).plainFab = s.plainFab := by
  unfold State.log
  extract_lets r
  split
  · exact formErr_plainFab s r
  · rfl

theorem logSats_plainFab (s u : State) : (State.logSats s u).plainFab = u.plainFab := by
  have one (x : State) (k : SatKey) : (x.logSat k).plainFab = x.plainFab := by
    rw [State.logSat, raise_plainFab (by decide), log_plainFab]
    rfl
  unfold State.logSats
  generalize u.saturated.filter _ = l
  induction l generalizing u with
  | nil => rfl
  | cons k l ih => rw [List.foldl_cons, ih, one]

/-! ### One sluice, one counter -/

theorem see_cnt (f : Fab) (h n : Nat) : (f.see h n).cnt = f.cnt := by unfold Fab.see; split <;> rfl

theorem foldl_see_cnt (m : List (Nat × List Nat)) (g : Nat → Nat) (f : Fab) :
    (m.foldl (fun f e => f.see (g e.1) e.1) f).cnt = f.cnt := by
  induction m generalizing f with
  | nil => rfl
  | cons e m ih => rw [List.foldl_cons, ih, see_cnt]

/-- A sluice without a hit leaves the counters. -/
theorem carry_cnt_idle {i : Nat} (hsel : s.fab.sel = [(i, j)]) (hh : s.fab.hits j = 0) :
    s.carry.fab.cnt = s.fab.cnt := by
  unfold State.carry
  split
  · simp [hsel, hh, foldl_see_cnt]
  · rfl

/-- A counter counts the one event that its sluice carries. -/
theorem carry_cnt_hit (hu : s.rst.ctrlUp = true) (hk : k < 32) (hj : j < 256)
    (hsel : s.fab.sel = [(0x1A0 + k, j)]) (hh : s.fab.hits j = 1) :
    s.carry.fab.cnt = tput s.fab.cnt k (bump (tget 0#32 s.fab.cnt k)) := by
  have hd : s.deaf (0x1A0 + k) = false := by
    rw [State.deaf, if_neg (by omega), if_neg (by omega)]
  have hc (f : Fab) (g : Nat → Bool) : (f.receive g (0x1A0 + k) 1).cnt =
      tput f.cnt k (bump (tget 0#32 f.cnt k)) := by
    rw [Fab.receive, if_neg one_ne_zero, if_pos rfl, Fab.consume, if_pos (by omega), Nat.add_sub_cancel_left]
  simp [State.carry, hu, hsel, hh, hd, hj, foldl_see_cnt, hc]

theorem hits_single (hm : tget [] s.fab.masks j = [c]) :
    s.fab.hits j = if c ∈ s.fab.raised then 1 else 0 := by
  unfold Fab.hits
  rw [hm]
  by_cases h : c ∈ s.fab.raised <;> simp [h]

theorem carry_sel (s : State) : s.carry.fab.sel = s.fab.sel :=
  (congrArg (fun x : State => x.fab.sel) (carry_quiet s) :)

theorem carry_masks (s : State) : s.carry.fab.masks = s.fab.masks :=
  (congrArg (fun x : State => x.fab.masks) (carry_quiet s) :)

theorem carry_raised (hu : s.rst.ctrlUp = true) : s.carry.fab.raised = [] := by rw [State.carry, if_pos hu]

/-- The log's own events reach no sluice that listens to another one. -/
theorem carry_logSats_cnt {i : Nat} (hc : c < 0xAA0) (hr : u.fab.raised = []) (hsel : u.fab.sel = [(i, j)])
    (hm : tget [] u.fab.masks j = [c]) : (State.logSats s u).carry.fab.cnt = u.fab.cnt := by
  have hp := logSats_plainFab s u
  have hcnt : (State.logSats s u).fab.cnt = u.fab.cnt := by rw [← plainFab_cnt, hp, plainFab_cnt]
  have hsel' : (State.logSats s u).fab.sel = u.fab.sel := by rw [← plainFab_sel, hp, plainFab_sel]
  have hmask : (State.logSats s u).fab.masks = u.fab.masks := by rw [← plainFab_masks, hp, plainFab_masks]
  have hnone : (State.logSats s u).fab.raised.filter (fun c => c < 0xAA0) = [] := by
    rw [← plainFab_raised, hp, plainFab_raised, hr, List.filter_nil]
  have hout : c ∉ (State.logSats s u).fab.raised := fun h =>
    List.filter_eq_nil_iff.mp hnone c h (decide_eq_true hc)
  rw [carry_cnt_idle (hsel'.trans hsel) ((hits_single (by rw [hmask, hm])).trans (if_neg hout)), hcnt]

/-- A step that raised one event, and changed neither readiness nor a counter, counts it where a counter
listens. -/
theorem done_cnt_of_raised (hready : u.ready = s.ready) (hsat : u.saturated ⊆ s.saturated)
    (hu : u.rst.ctrlUp = true) (hk : k < 32) (hj : j < 256) (hc : c < 0xAA0) (hr : u.fab.raised = [c])
    (hsel : u.fab.sel = [(0x1A0 + k, j)]) (hm : tget [] u.fab.masks j = [c]) :
    tget 0#32 (State.done s u).fab.cnt k = bump (tget 0#32 u.fab.cnt k) := by
  have hd : (State.done s u).fab = (State.logSats u u.carry).carry.fab := by
    have hx : State.raiseReady s u = u := if_pos hready
    simp only [State.done, State.settled, hx, logSats_of_subset hsat]
  have hhit : u.fab.hits j = 1 := by
    rw [hits_single hm, hr, if_pos (List.mem_singleton.mpr rfl)]
  rw [hd, carry_logSats_cnt hc (carry_raised hu) ((carry_sel u).trans hsel) (by rw [carry_masks, hm]),
    carry_cnt_hit hu hk hj hsel hhit, tget_tput_self]

end

end Sys2Proof.Machine

/-! The rows of mains time (R72 to R79, R92, R93, R633), and the obligation they settle. -/

namespace Sys2Proof.Machine

section
variable {s u x : State} {p : Piece} {c n j k : Nat}

theorem keptBut_mt {m : MtBlk} (hq : u.quiet = ({ s with mt := m } : State).quiet) :
    KeptBut [.mt] s (State.done s u) :=
  keptBut_of_quiet hq rfl fun _ hp => kept_mt (by decide) hp

theorem exec_slewEnd_due (hu : s.rst.ctrlUp = true)
    (hs : s.mt.state = .acquire ∧ s.mt.slew = true ∧ s.mt.linear = false)
    (he : if s.mt.freq.toNat < s.mt.fEst then s.predicted ≤ 0 else 0 ≤ s.predicted) :
    exec .slewEnd s = .next (State.done s
      { s with mt := { s.mt with freq := BitVec.ofNat 32 s.mt.fEst, slew := false } }) := by
  obtain ⟨ha, hsl, hln⟩ := hs
  show execSlewEnd s = _
  simp [execSlewEnd, finish, hu, ha, hsl, hln, he, State.modMt]

theorem exec_slewEnd_none (h : s.mt.state ≠ .acquire ∨ s.mt.slew = false ∨ s.mt.linear = true) :
    exec .slewEnd s = .next (State.done s s) := by
  show execSlewEnd s = _
  rcases h with h | h | h <;> simp [execSlewEnd, finish, h]

/-- A wrap that is still to be reported raises its event and sets its flag. -/
theorem exec_mtWrap_due (hu : s.rst.ctrlUp = true) (hw : s.mt.wrapDue = true) :
    exec .mtWrap s = .next (State.done s (State.raise
      { s with mt := { s.mt with wrapDue := false, flags := s.mt.flags ||| 0x10#32 } } 0x919)) := by
  show execMtWrap s = _
  simp [execMtWrap, finish, hu, hw, State.modMt]

theorem exec_mtWrap_none (hw : s.mt.wrapDue = false) : exec .mtWrap s = .next (State.done s s) := by
  show execMtWrap s = _
  simp [execMtWrap, finish, hw]

theorem exec_mtCapture_due (hu : s.rst.ctrlUp = true) (ha : s.fab.arrived.contains 0x198 = true) :
    exec .mtCapture s = .next (State.done s { s with
      fab := { s.fab with arrived := dropFirst (· == 0x198) s.fab.arrived }
      mt := { s.mt with cap := s.mt.mt, capGen := (s.mt.capGen + 1) % 16 } }) := by
  show execMtCapture s = _
  rw [execMtCapture, hu, ha]
  rfl

theorem exec_mtCapture_none (ha : s.fab.arrived.contains 0x198 = false) :
    exec .mtCapture s = .next (State.done s s) := by
  show execMtCapture s = _
  rw [execMtCapture, ha, Bool.and_false]
  rfl

/-! ### Phase events (R92) -/

/-- A phase event is due: mt.cycle, mt.half, or a divided phase whose divider is on. -/
def State.phaseDue (s : State) (n : Nat) : Bool :=
  let p (k : Nat) : Nat := (s.live (0x110 + 4 * (n - 2) + k) 0).toNat
  match n with
  | 0 => (s.passes 0).isSome
  | 1 => (s.passes 0x800000).isSome
  | _ => n ≤ 5 && p 3 == 1 && (s.passes (p 0)).any (fun c => c % p 1 == p 2)

theorem exec_mtPhaseEvent (s : State) (n : Nat) : exec (.mtPhaseEvent n) s =
    .next (State.done s (if (s.rst.ctrlUp && s.phaseDue n) = true then s.raise (0x910 + n) else s)) := rfl

theorem phaseDue_divided (hn : n < 4) (hon : s.live (0x113 + 4 * n) 0 = 1#32)
    (h : (s.passes (s.live (0x110 + 4 * n) 0).toNat).any (fun c =>
      c % (s.live (0x111 + 4 * n) 0).toNat == (s.live (0x112 + 4 * n) 0).toNat) = true) :
    s.phaseDue (2 + n) = true := by
  have hp (k : Nat) : 0x110 + 4 * n + k = 0x110 + k + 4 * n := by omega
  have h5 : n + 2 ≤ 5 := by omega
  rw [Nat.add_comm]
  simp [State.phaseDue, hp, hon, h, h5]

theorem keptBut_mtPhaseEvent (s : State) (n : Nat) : KeptBut [] s
    (State.done s (if (s.rst.ctrlUp && s.phaseDue n) = true then s.raise (0x910 + n) else s)) := by
  split
  · exact keptBut_of_quiet (raise_quiet s _) rfl fun _ _ => Kept.refl
  · exact keptBut_same

/-- A phase event that is due is counted by the counter that listens to it. -/
theorem exec_mtPhaseEvent_counted (hr : s.rst.ctrlUp = true ∧ s.fab.raised = []) (hn : n < 6)
    (hd : s.phaseDue n = true) (hkj : k < 32 ∧ j < 256) (hsel : s.fab.sel = [(0x1A0 + k, j)])
    (hm : tget [] s.fab.masks j = [0x910 + n]) :
    ∃ t, exec (.mtPhaseEvent n) s = .next t ∧
      tget 0#32 t.fab.cnt k = bump (tget 0#32 s.fab.cnt k) ∧ KeptBut [] s t := by
  obtain ⟨hu, hraised⟩ := hr
  have hloud : s.silent (0x910 + n) = false := by
    have h1 : ¬ (0x928 ≤ 0x910 + n ∧ 0x910 + n ≤ 0x92B) := by omega
    simp (disch := omega) [State.silent, if_neg, h1]
  have hraise : s.raise (0x910 + n) = { s with fab := { s.fab with raised := [0x910 + n] } } := by
    simp [State.raise, hloud, hraised]
  refine ⟨_, exec_mtPhaseEvent s n, ?_, keptBut_mtPhaseEvent s n⟩
  rw [if_pos (by rw [hu, hd]; rfl), hraise]
  exact done_cnt_of_raised rfl (List.Subset.refl _) hu hkj.1 hkj.2 (by omega) rfl hsel hm

end

/-- Settles O41: each clause is a row of mains time, a valid crossing by what the tracker does with it. -/
theorem mainsTimeFollowsCrossings : Obligations.MainsTimeFollowsCrossings := by
  refine ⟨?_, ?_, ?_, ?_, ?_, ?_, ?_, ?_, ?_, ?_, ?_, ?_, ?_, ?_, ?_, ?_, ?_, ?_, ?_, ?_, ?_, ?_, ?_⟩
  · intro s ago rising amplitude hu ha h
    exact ⟨_, exec_mainsCrossing_rejected hu ha (not_accepts_of_any h), rfl, keptBut_mt rfl⟩
  · exact fun s ago rising amplitude h => ⟨_, exec_mainsCrossing_none h, keptBut_same⟩
  · intro s ago rising amplitude hu ha h
    have idle : (s.crossed ago rising (s.crossDelta ago rising)).mtFollow
        (s.usedErr ago rising (s.crossDelta ago rising)) = s.crossed ago rising (s.crossDelta ago rising) := by
      refine mtFollow_idle (h.imp_right fun ⟨hna, hnl, hv, hr⟩ => ⟨hna, hnl, ?_⟩)
      rw [crossed_mainsValid, hv, Bool.false_or, decide_eq_false_iff_not]
      omega
    have hm : (s.crossEnd ago rising (s.crossDelta ago rising)).mt =
        (s.crossed ago rising (s.crossDelta ago rising)).mt := (congrArg State.mt idle :)
    exact ⟨_, exec_mainsCrossing_accepted hu (accepts_of_all ha), (congrArg MtBlk.state hm :),
      (congrArg MtBlk.freq hm :), (congrArg MtBlk.flags hm :), crossEnd_joins ..⟩
  · intro s ago rising amplitude used hu ha hused hs hv
    obtain rfl : used = s.usedErr ago rising s.mt.delta := hused
    have hvalid : (s.crossed ago rising s.mt.delta).mt.mainsValid = true := by
      rw [crossed_mainsValid]
      rcases hv with hv | hv
      · rw [hv, Bool.true_or]
      · rw [decide_eq_true (by omega), Bool.or_true]
    obtain ⟨hst, hfl, hg, hi, hl, hsl⟩ := mtFollow_enter_mt (x := s.crossed ago rising s.mt.delta)
      (e := s.usedErr ago rising s.mt.delta) hs hvalid
    refine ⟨_, exec_mainsCrossing_accepted hu (accepts_of_all ha), ?_⟩
    rw [crossDelta_idle hs, crossEnd_fEst]
    exact ⟨hst, hfl, hg, hi, hl, hsl, crossEnd_joins ..⟩
  · intro s ago rising amplitude delta used hu ha hdelta hused ⟨hs, hl, he⟩
    obtain rfl : delta = s.crossDelta ago rising := hdelta.trans (crossDelta_tracking (.inl hs)).symm
    obtain rfl : used = s.usedErr ago rising (s.crossDelta ago rising) := hused
    obtain ⟨hst, hln, hsl, hg, hf, hfl⟩ := mtFollow_slew (x := s.crossed ago rising (s.crossDelta ago rising)) hs hl he
    refine ⟨_, exec_mainsCrossing_accepted hu (accepts_of_all ha), ?_⟩
    rw [crossEnd_fEst]
    exact ⟨hst, hln, hsl, hg, hf, crossEnd_delta .., hfl, crossEnd_joins ..⟩
  · intro s ago rising amplitude delta used hu ha hdelta hused hs hn hg
    obtain rfl : delta = s.crossDelta ago rising := hdelta.trans (crossDelta_tracking (.inl hs)).symm
    obtain rfl : used = s.usedErr ago rising (s.crossDelta ago rising) := hused
    obtain ⟨hst, hln, hfp, hfl, hgood⟩ :=
      mtFollow_linear (x := s.crossed ago rising (s.crossDelta ago rising)) hs hn hg
    exact ⟨_, exec_mainsCrossing_accepted hu (accepts_of_all ha), hst, hln, hfp, hfl, hgood, crossEnd_joins ..⟩
  · intro s ago rising amplitude delta used hu ha hdelta hused hs hg
    obtain rfl : delta = s.crossDelta ago rising := hdelta.trans (crossDelta_tracking (.inl hs)).symm
    obtain rfl : used = s.usedErr ago rising (s.crossDelta ago rising) := hused
    obtain ⟨hst, hfp, hfl, hgood⟩ := mtFollow_lock (x := s.crossed ago rising (s.crossDelta ago rising)) hs hg
    exact ⟨_, exec_mainsCrossing_accepted hu (accepts_of_all ha), hst, hfp, hfl, hgood, crossEnd_joins ..⟩
  · intro s ago rising amplitude delta used hu ha hdelta hused hs hb
    obtain rfl : delta = s.crossDelta ago rising := hdelta.trans (crossDelta_tracking (.inr hs)).symm
    obtain rfl : used = s.usedErr ago rising (s.crossDelta ago rising) := hused
    obtain ⟨hst, hfl, huc, hbad⟩ := mtFollow_track (x := s.crossed ago rising (s.crossDelta ago rising)) hs hb
    exact ⟨_, exec_mainsCrossing_accepted hu (accepts_of_all ha), hst, hfl, huc, hbad, crossEnd_joins ..⟩
  · intro s ago rising amplitude delta used hu ha hdelta hused hs hb
    obtain rfl : delta = s.crossDelta ago rising := hdelta.trans (crossDelta_tracking (.inr hs)).symm
    obtain rfl : used = s.usedErr ago rising (s.crossDelta ago rising) := hused
    obtain ⟨hst, hfl, huc, hln, hsl⟩ := mtFollow_unlock (x := s.crossed ago rising (s.crossDelta ago rising)) hs hb
    exact ⟨_, exec_mainsCrossing_accepted hu (accepts_of_all ha), hst, hfl, huc, hln, hsl, crossEnd_joins ..⟩
  · intro s hu hl h
    obtain ⟨hc, hr, hv, hf, hx, hm, hlk, hfi, hag, hid⟩ := mtLoss_mainsGone s
    exact ⟨_, exec_mainsLost_alone hu hl h, hc, hr, hv, hf, hx, hm, hlk, hfi, hag, hid, keptBut_mainsGone⟩
  · intro s hu hl h he
    obtain ⟨t, ht, hmt, hpfe, hup, hk⟩ := exec_mainsLost_ride hu hl h he
    obtain ⟨hc, hr, hv, hf, hx, hm, hlk, hfi, hag, hid⟩ := hmt ▸ mtLoss_mainsGone s
    exact ⟨t, ht, hc, hr, hv, hf, hx, hm, hlk, hfi, hag, hid, hpfe, hup, hk⟩
  · intro s hu hl h he
    obtain ⟨t, ht, hmt, hpfe, hup, hfig, hk⟩ := exec_mainsLost_windDown hu hl h he
    obtain ⟨hc, hr, hv, hf, hx, hm, hlk, hfi, hag, hid⟩ := hmt ▸ mtLoss_mainsGone s
    exact ⟨t, ht, hc, hr, hv, hf, hx, hm, hlk, hfi, hag, hid, hpfe, hup, hfig, hk.mono (by decide)⟩
  · exact fun s hl => ⟨_, exec_mainsLost_early hl, keptBut_same⟩
  · exact fun s hu hs he => ⟨_, exec_slewEnd_due hu hs he, rfl, keptBut_mt rfl⟩
  · exact fun s h => ⟨_, exec_slewEnd_none h, keptBut_same⟩
  · exact fun s n => ⟨_, exec_mtPhaseEvent s n, keptBut_mtPhaseEvent s n⟩
  · intro s k j hr hp hkj hsel hm
    exact exec_mtPhaseEvent_counted hr (by decide) (Option.isSome_iff_ne_none.mpr hp) hkj hsel hm
  · intro s k j hr hp hkj hsel hm
    exact exec_mtPhaseEvent_counted hr (by decide) (Option.isSome_iff_ne_none.mpr hp) hkj hsel hm
  · intro s k j n hr hn hon hp hkj hsel hm
    exact exec_mtPhaseEvent_counted hr (by omega) (phaseDue_divided hn hon hp) hkj hsel
      (hm.trans (by rw [← Nat.add_assoc]))
  · intro s hu hw
    exact ⟨_, exec_mtWrap_due hu hw, raise_mt _ _, keptBut_mt (raise_quiet _ _)⟩
  · exact fun s hw => ⟨_, exec_mtWrap_none hw, keptBut_same⟩
  · intro s hu ha
    exact ⟨_, exec_mtCapture_due hu ha, rfl, keptBut_mt rfl⟩
  · exact fun s ha => ⟨_, exec_mtCapture_none ha, keptBut_same⟩

end Sys2Proof.Machine

/-! The start-up of the primary side and its faults (Tables 5.1 and 5.2): what each row finds and what it
leaves, and the obligation they settle. -/

namespace Sys2Proof.Machine

section
variable {s : State}

/-! ### Supply -/

/-- The primary die runs in fallback with its reset values; a relay fault, the wait before a restart, the
measured VBULK and the frame count outlast it (Table 5.1 step 2). -/
def Primary.started (p : Primary) : Primary :=
  { Primary.init with
    flyback := true, relayFault := p.relayFault, restart := p.restart, vbulk := p.vbulk, frameErr := p.frameErr }

theorem exec_vccPStart (hf : s.pfe.pri.flyback = false) (ht : s.pfe.pri.overTemp = false) :
    exec .vccPStart s = .next (State.done s { s with pfe := { s.pfe with pri := s.pfe.pri.started } }) := by
  show execVccPStart s = _
  simp [execVccPStart, finish, hf, ht, State.modPri, State.modPfe, Primary.started]

/-- The flyback is off, and with it everything it supplies (R103). -/
def Pfe.unsupplied (x : Pfe) : Pfe :=
  { x with
    bulkOk := false
    pri := { x.pri with
      pfcRun := false, ocpRun := 0, flyback := false, auxSec := false, relayCmd := false, relay := false } }

theorem flybackOff_eq (s : State) : s.flybackOff = { s with pfe := s.pfe.unsupplied } := rfl

theorem exec_vccPLow (hf : s.pfe.pri.flyback = true) :
    exec .vccPLow s = .next (State.done s { s with pfe := s.pfe.unsupplied }) := by
  show execVccPLow s = _
  rw [execVccPLow, if_pos hf, flybackOff_eq]
  rfl

theorem exec_flybackStop_none (hv : s.pfe.pri.vStop = none) :
    exec .flybackStop s = .next (State.done s s) := by
  show execFlybackStop s = _
  rw [execFlybackStop, hv]
  rfl

/-- With VBULK at pfe.v_stop, or not seen, the flyback stops (R118). -/
theorem exec_flybackStop_low {v : Nat} (hv : s.pfe.pri.vStop = some v) (hf : s.pfe.pri.flyback = true)
    (hb : s.pfe.vbulk = none ∨ s.pfe.vbulk.any (fun b => decide (b ≤ 100 * v)) = true) :
    exec .flybackStop s = .next (State.done s { s with pfe := s.pfe.unsupplied }) := by
  show execFlybackStop s = _
  cases hx : s.pfe.vbulk with
  | none => simp [execFlybackStop, finish, hv, hf, hx, flybackOff_eq]
  | some b =>
    have hle : b ≤ 100 * v := by simpa [hx] using hb
    simp [execFlybackStop, finish, hv, hf, hx, hle, flybackOff_eq]

/-- Heat stops the flyback, and its report waits for the next frame. -/
theorem exec_primaryOverTemperature (s : State) :
    exec (.primaryOverTemperature true) s = .next (State.done s { s with pfe := { s.pfe.unsupplied with
      pri := { s.pfe.unsupplied.pri with overTemp := true, reports := s.pfe.pri.reports ||| 0x40#32 } } }) := by
  show execPrimaryOverTemperature true s = _
  simp only [execPrimaryOverTemperature, finish, if_true, flybackOff_eq, State.priFault, State.modPri, State.modPfe,
    Pfe.unsupplied]

theorem exec_auxSecondaryRegulation (hf : s.pfe.pri.flyback = true) (he : s.established = true)
    (hi : s.pfe.pri.isoFailed = false) :
    exec .auxSecondaryRegulation s = .next (State.done s { s with pfe := { s.pfe with
      pri := { s.pfe.pri with auxSec := true } } }) := by
  show execAuxSecondaryRegulation s = _
  simp [execAuxSecondaryRegulation, finish, hf, he, hi, State.modPri, State.modPfe]

/-! ### The relay (R102, R110) -/

/-- The bulk has been charged to within 10 % of the line peak: the relay is commanded closed. -/
theorem exec_relayClose {v : Nat} (hv : s.pfe.vbulk = some v)
    (hm : s.rst.ctrlUp = true ∧ s.priSeen = true ∧ s.mt.mainsValid = true)
    (hr : s.pfe.pri.auxSec = true ∧ s.pfe.pri.relayFault = false ∧ s.iso.relayCmd = false)
    (hb : 9 * s.pfe.linePeak ≤ 10 * v) :
    exec .relayClose s = .next (State.done s { s with iso := { s.iso with relayCmd := true } }) := by
  obtain ⟨hu, hs, hval⟩ := hm
  obtain ⟨ha, hfault, hcmd⟩ := hr
  show execRelayClose s = _
  simp [execRelayClose, finish, hv, hu, hs, hval, ha, hfault, hcmd, hb, State.modIso]

theorem exec_relayClose_early {v : Nat} (hv : s.pfe.vbulk = some v)
    (h : 10 * v < 9 * s.pfe.linePeak ∨ s.pfe.pri.auxSec = false) :
    exec .relayClose s = .next (State.done s s) := by
  show execRelayClose s = _
  rcases h with h | h
  · simp [execRelayClose, finish, hv, Nat.not_le.mpr h]
  · simp [execRelayClose, finish, hv, h]

/-- The sense line agrees with the command: the relay stands, and the PFC starts where it may. -/
theorem exec_relayCheck_agrees {sensed : Bool} (hf : s.pfe.pri.flyback = true)
    (hs : sensed = s.pfe.pri.relayCmd) :
    exec (.relayCheck sensed) s = .next (State.done s (s.modPri (fun p => { p with relay := sensed })).pfcTry) := by
  show execRelayCheck sensed s = _
  simp [execRelayCheck, finish, hf, hs]

/-- A PFC that runs, or that something bars, is left as it is. -/
theorem pfcTry_none (h : s.pfe.pri.pfcRun = true ∨ s.pfe.pri.pfcEn = false ∨ s.pfe.pri.relay = false ∨
      s.pfe.pri.relayFault = true ∨ s.pfe.pri.lineLoss = true ∨ s.pfe.pri.overTemp = true ∨
      s.pfe.pri.isoFailed = true ∨ s.clk < s.pfe.pri.restart) : s.pfcTry = s := by
  have hc : (s.pfcMay && !s.pfe.pri.pfcRun) = false := by
    rcases h with h | h | h | h | h | h | h | h <;> simp [State.pfcMay, h]
  rw [State.pfcTry, hc, if_neg Bool.false_ne_true]

/-- The PFC starts: its setpoint ramps from the measured VBULK (Table 5.1 step 6). -/
theorem pfcTry_start (hr : s.pfe.pri.pfcRun = false ∧ s.pfe.pri.pfcEn = true ∧ s.pfe.pri.relayFault = false ∧
      s.pfe.pri.lineLoss = false ∧ s.pfe.pri.overTemp = false ∧ s.pfe.pri.isoFailed = false ∧
      s.pfe.pri.restart ≤ s.clk) (hs : s.pfe.pri.flyback = true ∧ s.pfe.pri.relay = true) :
    s.pfcTry = { s with pfe := { s.pfe with
      pri := { s.pfe.pri with pfcRun := true, rampFrom := s.pfe.pri.vbulk, rampClk := s.clk } } } := by
  obtain ⟨hrun, hen, hfault, hloss, htemp, hiso, hwait⟩ := hr
  obtain ⟨hfly, hrelay⟩ := hs
  have hc : (s.pfcMay && !s.pfe.pri.pfcRun) = true := by
    simp [State.pfcMay, hrun, hen, hfault, hloss, htemp, hiso, hwait, hfly, hrelay]
  rw [State.pfcTry, if_pos hc]
  rfl

/-- The sense line contradicts the command: a relay fault, which opens the relay and stops the PFC (R111). -/
theorem exec_relayCheck_fault {sensed : Bool} (hf : s.pfe.pri.flyback = true)
    (hs : sensed ≠ s.pfe.pri.relayCmd) :
    exec (.relayCheck sensed) s = .next (State.done s { s with pfe := { s.pfe with
      bulkOk := false
      pri := { s.pfe.pri with
        pfcRun := false, ocpRun := 0, relayCmd := false, relay := false, relayFault := true
        reports := s.pfe.pri.reports ||| 0x80#32 } } }) := by
  show execRelayCheck sensed s = _
  simp [execRelayCheck, finish, hf, hs, State.pfcStop, State.priFault, State.modPri, State.modPfe]

/-! ### BULK_OK (R640) -/

theorem exec_bulkOkChange_up (hu : s.rst.ctrlUp = true ∧ s.priSeen = true) (hr : s.pfe.pri.pfcRun = true)
    (hb : s.bulkInBand = true) :
    exec (.bulkOkChange true) s = .next (State.done s { s with pfe := { s.pfe with bulkOk := true } }) := by
  obtain ⟨hc, hs⟩ := hu
  show execBulkOkChange true s = _
  simp [execBulkOkChange, finish, hc, hs, hr, hb, State.modPfe]

theorem exec_bulkOkChange_down (h : s.pfe.pri.pfcRun = false ∨ s.bulkInBand = false) :
    exec (.bulkOkChange false) s = .next (State.done s { s with pfe := { s.pfe with bulkOk := false } }) := by
  show execBulkOkChange false s = _
  rcases h with h | h <;> simp [execBulkOkChange, finish, h, State.modPfe]

/-! ### Faults of the PFC (Table 5.2) -/

/-- Limited cycles in a row with the one that comes now: a gap beyond 1.5 cycles ends the run. -/
def State.limitedCycles (s : State) : Nat :=
  if (s.clk - s.pfe.pri.ocpClk) * 2 * s.castN 0x123 0 ≤ 600000 then s.pfe.pri.ocpRun + 1 else 1

/-- The primary die after the n-th limited cycle in a row, which the next frame reports. -/
def State.limited (s : State) (n : Nat) : Primary :=
  { s.pfe.pri with ocpRun := n, ocpClk := s.clk, ocpDue := s.pfe.pri.ocpDue + 1 }

theorem exec_pfcOvercurrent (hr : s.pfe.pri.pfcRun = true) :
    exec .pfcOvercurrent s = .next (State.done s
      (if 64 ≤ s.limitedCycles then
        ((s.modPri (fun _ => s.limited s.limitedCycles)).priFault 8#32).pfcStop 200000000
      else s.modPri (fun _ => s.limited s.limitedCycles))) := by
  show execPfcOvercurrent s = _
  simp only [execPfcOvercurrent, finish, hr, Bool.not_true, Bool.false_eq_true, if_false, decide_eq_true_eq,
    Nat.reduceMul, State.limitedCycles, State.limited, State.modPri, State.modPfe]

/-- A limited cycle short of the 64th in a row is counted. -/
theorem exec_pfcOvercurrent_counts {n : Nat} (hr : s.pfe.pri.pfcRun = true) (hl : s.limitedCycles = n) (hn : n < 64) :
    exec .pfcOvercurrent s = .next (State.done s { s with pfe := { s.pfe with pri := s.limited n } }) := by
  rw [exec_pfcOvercurrent hr, hl, if_neg (Nat.not_le.mpr hn)]
  rfl

/-- The 64th limited cycle in a row stops the PFC for 1 s. -/
theorem exec_pfcOvercurrent_stops (hr : s.pfe.pri.pfcRun = true) (hn : 64 ≤ s.limitedCycles) :
    exec .pfcOvercurrent s = .next (State.done s { s with pfe := { s.pfe with
      bulkOk := false
      pri := { s.pfe.pri with
        pfcRun := false, ocpRun := 0, ocpClk := s.clk, ocpDue := s.pfe.pri.ocpDue + 1
        reports := s.pfe.pri.reports ||| 8#32, restart := s.clk + 200000000 } } }) := by
  rw [exec_pfcOvercurrent hr, if_pos hn]
  simp only [State.pfcStop, State.priFault, State.modPri, State.modPfe, State.limited, OfNat.ofNat_ne_zero, if_false]

theorem exec_bulkOvervoltage (s : State) (high : Bool) :
    exec (.bulkOvervoltage high) s = .next (State.done s { s with pfe :=
      if high = true then { s.pfe with
        bulkOk := false
        pri := { s.pfe.pri with bulkOv := true, pfcHeld := true, reports := s.pfe.pri.reports ||| 0x10#32 } }
      else { s.pfe with pri := { s.pfe.pri with bulkOv := false, pfcHeld := false } } }) := by
  cases high <;> rfl

/-- Below 75 % of the setpoint, or with VBULK not seen, the PFC stops for 100 ms. -/
theorem exec_bulkUndervoltage (hr : s.pfe.pri.pfcRun = true)
    (hb : s.pfe.vbulk = none ∨ s.pfe.vbulk.any (fun v => decide (v < 75 * s.castN 0x122 0)) = true) :
    exec .bulkUndervoltage s = .next (State.done s { s with pfe := { s.pfe with
      bulkOk := false
      pri := { s.pfe.pri with
        pfcRun := false, ocpRun := 0, restart := s.clk + 20000000
        reports := s.pfe.pri.reports ||| 0x20#32 } } }) := by
  have stops : ((s.priFault 0x20#32).pfcStop 20000000) = { s with pfe := { s.pfe with
      bulkOk := false
      pri := { s.pfe.pri with
        pfcRun := false, ocpRun := 0, restart := s.clk + 20000000
        reports := s.pfe.pri.reports ||| 0x20#32 } } } := rfl
  show execBulkUndervoltage s = _
  cases hx : s.pfe.vbulk with
  | none => simp [execBulkUndervoltage, finish, hr, hx, stops]
  | some v =>
    have hlt : v < 75 * s.castN 0x122 0 := by simpa [hx] using hb
    simp [execBulkUndervoltage, finish, hr, hx, hlt, stops]

/-- A loss of the line opens the relay and waits for the next frame (R110, R111). -/
theorem exec_lineLoss (h : s.pfe.pri.flyback = true ∧ s.pfe.pri.lineLoss = false) :
    exec .lineLoss s = .next (State.done s { s with pfe := { s.pfe with
      bulkOk := false
      pri := { s.pfe.pri with
        pfcRun := false, ocpRun := 0, lineLoss := true, relayCmd := false, relay := false
        reports := s.pfe.pri.reports ||| 4#32 } } }) := by
  obtain ⟨hf, hl⟩ := h
  show execLineLoss s = _
  simp [execLineLoss, finish, hf, hl, State.pfcStop, State.priFault, State.modPri, State.modPfe]

/-- PRI_WARN leaves nothing but its event (R119). -/
theorem exec_priWarn_kept (s : State) : ∃ t, exec .priWarn s = .next t ∧ KeptBut [] s t := by
  refine ⟨_, rfl, ?_⟩
  split
  · exact keptBut_of_quiet (raise_quiet s _) rfl fun _ _ => Kept.refl
  · exact keptBut_same

end

/-- Settles O38: each clause is a row of the start-up or a fault of Table 5.2, and changes the front end or the
relay command alone. -/
theorem thePrimarySideStartsAndStops : Obligations.ThePrimarySideStartsAndStops := by
  refine ⟨?_, ?_, ?_, ?_, ?_, ?_, ?_, ?_, ?_, ?_, ?_, ?_, ?_, ?_, ?_, ?_, ?_, ?_, ?_, ?_, ?_, ?_⟩
  · exact fun s hf ht => ⟨_, exec_vccPStart hf ht, rfl, keptBut_pfe⟩
  · exact fun s hf => ⟨_, exec_vccPLow hf, rfl, keptBut_pfe⟩
  · exact fun s hf he hi => ⟨_, exec_auxSecondaryRegulation hf he hi, rfl, keptBut_pfe⟩
  · exact fun s v hv hm hr hb => ⟨_, exec_relayClose hv hm hr hb, rfl, keptBut_iso⟩
  · exact fun s v hv h => ⟨_, exec_relayClose_early hv h, keptBut_same⟩
  · intro s sensed hf hs h
    refine ⟨_, exec_relayCheck_agrees hf hs, ?_⟩
    rw [pfcTry_none (s := s.modPri (fun p => { p with relay := sensed })) h]
    exact ⟨rfl, keptBut_pfe⟩
  · intro s ⟨hf, hc⟩ hr
    refine ⟨_, exec_relayCheck_agrees hf hc.symm, ?_⟩
    rw [pfcTry_start (s := s.modPri (fun p => { p with relay := true })) hr ⟨hf, rfl⟩]
    exact ⟨rfl, keptBut_pfe⟩
  · exact fun s sensed hf hs => ⟨_, exec_relayCheck_fault hf hs, rfl, keptBut_pfe⟩
  · exact fun s hu hr hb => ⟨_, exec_bulkOkChange_up hu hr hb, rfl, keptBut_pfe⟩
  · exact fun s h => ⟨_, exec_bulkOkChange_down h, rfl, keptBut_pfe⟩
  · intro s hr hn hc
    have hl : s.limitedCycles = s.pfe.pri.ocpRun + 1 := if_pos hc
    exact ⟨_, exec_pfcOvercurrent_stops hr (by omega), rfl, keptBut_pfe⟩
  · exact fun s hr hn hc => ⟨_, exec_pfcOvercurrent_counts hr (if_pos hc) (by omega), rfl, keptBut_pfe⟩
  · exact fun s hr hc => ⟨_, exec_pfcOvercurrent_counts hr (if_neg (by omega)) (by omega), rfl, keptBut_pfe⟩
  · exact fun s => ⟨_, exec_bulkOvervoltage s true, rfl, keptBut_pfe⟩
  · exact fun s => ⟨_, exec_bulkOvervoltage s false, rfl, keptBut_pfe⟩
  · exact fun s hr hb => ⟨_, exec_bulkUndervoltage hr hb, rfl, keptBut_pfe⟩
  · exact fun s h => ⟨_, exec_lineLoss h, rfl, keptBut_pfe⟩
  · exact fun s => ⟨_, exec_primaryOverTemperature s, rfl, keptBut_pfe⟩
  · exact fun s => ⟨_, rfl, rfl, keptBut_pfe⟩
  · exact fun s v hv hb hf => ⟨_, exec_flybackStop_low hv hf hb, rfl, keptBut_pfe⟩
  · exact fun s hv => ⟨_, exec_flybackStop_none hv, keptBut_same⟩
  · exact exec_priWarn_kept

end Sys2Proof.Machine

/-! The hold-up sequence and the die temperatures (R64, R113 to R120): a live port that a trip does not reach,
and the obligation it refutes. -/

namespace Sys2Proof.Machine

section
variable {s : State} {p detail : Nat} {cause : Word} {mtCause : DWord}

theorem raise_sp (s : State) (c : Nat) : (s.raise c).sp = s.sp := (congrArg State.sp (raise_quiet s c) :)

theorem log_sp (s : State) (e : ErrSpec) : (s.log e).sp = s.sp := (congrArg State.sp (log_quiet s e) :)

theorem postRecord_sp (s : State) (r : TripRec) : (s.postRecord r).sp = s.sp := by
  simp only [State.postRecord, apply_ite State.sp, log_sp, modGrp_sp, ite_self]

theorem tell_sp (s : State) (ftype : Nat) : (s.tell ftype).sp = s.sp := by
  unfold State.tell
  split <;> rfl

/-- A trip acts on the gang of its port (R363): with none, and no figure on the port, every port stays. -/
theorem trip_sp_of_gangOf_nil (hg : s.gangOf p = []) (hf : s.figsOn p = []) (ht : (s.spAt p).sup.tripped = false) :
    (s.trip p cause mtCause detail).sp = s.sp := by
  unfold State.trip
  split_ifs with _ htripped
  · rfl
  · exact absurd htripped (Bool.eq_false_iff.mp ht)
  · rfl
  · simp only [hg, hf, List.filter_nil, List.foldl_nil, tell_sp, State.raiseGrp, raise_sp, postRecord_sp]

theorem dieWarn_sp (s : State) (die : Nat) (temp : Int) : (s.dieWarn die temp).sp = s.sp := by
  simp only [State.dieWarn, apply_ite State.sp, log_sp, raise_sp, ite_self]

/-- A die at 125 °C or more is read and recorded, before a port is tripped for it (R64). -/
def State.hotRead (s : State) (control data staging : Int) : State :=
  ((({ s with rst := { s.rst with dieTemp := [control, data, staging], dieHot := true } } : State).dieWarn 0
    control).dieWarn 1 data).dieWarn 2 staging

theorem hotRead_sp (s : State) (control data staging : Int) : (s.hotRead control data staging).sp = s.sp := by
  simp only [State.hotRead, dieWarn_sp]

theorem exec_dieTempRead_hot {control : Int} (data staging : Int) (hu : s.rst.ctrlUp = true) (h : 1250 ≤ control) :
    exec (.dieTempRead control data staging) s = .next (State.done s
      ((s.hotRead control data staging).sp.foldl (fun t e => t.trip e.1 (bitAt true 10) s.mt.mt 0)
        (s.hotRead control data staging))) := by
  show execDieTempRead control data staging s = _
  simp [execDieTempRead, finish, hu, h, State.hotRead]

end

/-- A running module whose port 0 regulates and leaves with a figure whose members do not name it. No row
leaves a port so (`State.leaveStages` lists the ports themselves); the statement speaks of every state. -/
def strayPort : State :=
  { State.reset with
    rst := { State.reset.rst with ctrlUp := true }
    sp := [(0, { Sp.init with force := { Force.init with
      out := .regulating, leave := some { fig := 0, mode := 0, members := [] } } })] }

/-- The trip that a hot die asks for reaches no port. -/
theorem strayPort_trips_sp : ((strayPort.hotRead 1250 0 0).sp.foldl (fun t e =>
    t.trip e.1 (bitAt true 10) strayPort.mt.mt 0) (strayPort.hotRead 1250 0 0)).sp = strayPort.sp := by
  have hsp := hotRead_sp strayPort 1250 0 0
  have hl : strayPort.sp = [(0, strayPort.spAt 0)] := rfl
  have hg : (strayPort.hotRead 1250 0 0).gangOf 0 = [] := rfl
  have hf : (strayPort.hotRead 1250 0 0).figsOn 0 = [] := rfl
  have ht : ((strayPort.hotRead 1250 0 0).spAt 0).sup.tripped = false := by rw [State.spAt, hsp]; rfl
  rw [hsp, hl, List.foldl_cons, List.foldl_nil, trip_sp_of_gangOf_nil hg hf ht, hsp, hl]

/-- Refutes O40: at 125 °C a live port that its own gang does not hold posts its trip record and goes on
regulating (`strayPort`). -/
theorem not_holdupRunsItsStates : ¬ Obligations.HoldupRunsItsStates := by
  intro h
  obtain ⟨-, -, -, -, -, -, -, -, -, -, -, -, -, -, -, -, hot⟩ := h
  obtain ⟨t, ht, -, htrips, -⟩ := hot strayPort 1250 0 0 rfl (.inl le_rfl)
  obtain ⟨hout, -⟩ := htrips rfl 0 rfl rfl
  obtain rfl := Host.Outcome.next.inj ((exec_dieTempRead_hot 0 0 rfl le_rfl).symm.trans ht)
  rw [done_spAt, State.spAt, strayPort_trips_sp] at hout
  exact absurd hout (by decide)

end Sys2Proof.Machine

/-! SUPPORT. What only a reset, the host and a loss of power change (R130, R147): the reset block, and of the
peat store the host's registers and the watchdog's count. Every other operation and command of the model
leaves them alone. One lemma for each, by the file of the model. -/

namespace Sys2Proof.Machine

section
variable {s t u : State}

/-- The reset block, and of the peat store the host's registers and the watchdog's count. -/
def State.reserved (s : State) : Rst × Tab Word × Word := (s.rst, s.peat.regs, s.peat.wdogCnt)

@[simp] theorem reserved_mk (a b c d e f g h i j k l m n o p q r x y z w) :
    State.reserved ⟨a, b, c, d, e, f, g, h, i, j, k, l, m, n, o, p, q, r, x, y, z, w⟩ =
      (b, c.regs, c.wdogCnt) := rfl

@[simp] theorem reserved_eta (s : State) : (s.rst, s.peat.regs, s.peat.wdogCnt) = s.reserved := rfl

theorem rst_of_reserved (h : t.reserved = s.reserved) : t.rst = s.rst := congrArg Prod.fst h

theorem regs_of_reserved (h : t.reserved = s.reserved) : t.peat.regs = s.peat.regs :=
  congrArg (fun x => x.2.1) h

theorem wdogCnt_of_reserved (h : t.reserved = s.reserved) : t.peat.wdogCnt = s.peat.wdogCnt :=
  congrArg (fun x => x.2.2) h

theorem reserved_of_core (h : t.core = s.core) : t.reserved = s.reserved :=
  (congrArg (fun x => x.1.reserved) h :)

theorem reserved_of_quiet (h : t.quiet = s.quiet) : t.reserved = s.reserved :=
  reserved_of_core (core_of_quiet h)

@[simp] theorem reserved_ite (c : Prop) [Decidable c] (t u : State) :
    (if c then t else u).reserved = if c then t.reserved else u.reserved := apply_ite State.reserved c t u

@[simp] theorem foldl_reserved {β : Type} (f : State → β → State)
    (hf : ∀ s x, (f s x).reserved = s.reserved) (l : List β) (s : State) :
    (l.foldl f s).reserved = s.reserved := by
  induction l generalizing s with
  | nil => rfl
  | cons x l ih => rw [List.foldl_cons, ih, hf]

/-- The same for a fold that carries a result beside the state. -/
@[simp] theorem foldl_pair_reserved {β γ : Type} (f : State × γ → β → State × γ)
    (hf : ∀ a x, (f a x).1.reserved = a.1.reserved) (l : List β) (a : State × γ) :
    (l.foldl f a).1.reserved = a.1.reserved := by
  induction l generalizing a with
  | nil => rfl
  | cons x l ih => rw [List.foldl_cons, ih, hf]

/-- The end of a step leaves them alone. -/
theorem done_reserved (s u : State) : (State.done s u).reserved = u.reserved := by
  obtain ⟨-, hr, -, -, -, -, hw, -⟩ := done_kept s u .peat
  simp only [State.reserved, done_rst, hr, hw]

/-- A command leaves them as they are. -/
def Holds (s : State) (o : Host.Outcome State Fault Refusal) : Prop :=
  ∀ t, o = .next t → t.reserved = s.reserved

@[simp] theorem holds_finish : Holds s (finish s u) ↔ u.reserved = s.reserved := by
  simp [Holds, finish, done_reserved]

end

section
variable (s : State)

/-! ### Machine/Ops.lean -/

@[simp] theorem modGrp_reserved (g : Nat) (f : Grp → Grp) : (s.modGrp g f).reserved = s.reserved :=
  reserved_of_core (modGrp_core ..)
@[simp] theorem modSp_reserved (p : Nat) (f : Sp → Sp) : (s.modSp p f).reserved = s.reserved :=
  reserved_of_core (modSp_core ..)
@[simp] theorem modFig_reserved (n : Nat) (f : Fig → Fig) : (s.modFig n f).reserved = s.reserved := by
  simp [State.modFig]
@[simp] theorem modQue_reserved (q : Nat) (f : Queue → Queue) : (s.modQue q f).reserved = s.reserved :=
  reserved_of_core (modQue_core ..)
@[simp] theorem modMbx_reserved (n : Nat) (f : Mbx → Mbx) : (s.modMbx n f).reserved = s.reserved := by
  simp [State.modMbx]
@[simp] theorem modHdr_reserved (n : Nat) (f : Hdr → Hdr) : (s.modHdr n f).reserved = s.reserved := by
  simp [State.modHdr]
@[simp] theorem modCal_reserved (g : Nat) (f : CalGrp → CalGrp) : (s.modCal g f).reserved = s.reserved := by
  simp [State.modCal]
@[simp] theorem modTwin_reserved (f : Twin → Twin) : (s.modTwin f).reserved = s.reserved := by
  simp [State.modTwin]
@[simp] theorem modPlace_reserved (n : Nat) (f : Placement → Placement) :
    (s.modPlace n f).reserved = s.reserved := by
  simp [State.modPlace]
@[simp] theorem raise_reserved (code : Nat) : (s.raise code).reserved = s.reserved :=
  reserved_of_core (raise_core ..)
@[simp] theorem raisePort_reserved (p k : Nat) : (s.raisePort p k).reserved = s.reserved :=
  reserved_of_core (raisePort_core ..)
@[simp] theorem raiseGrp_reserved (g k : Nat) : (s.raiseGrp g k).reserved = s.reserved :=
  reserved_of_core (raiseGrp_core ..)
@[simp] theorem raiseFig_reserved (f kind : Nat) : (s.raiseFig f kind).reserved = s.reserved :=
  reserved_of_core (raiseFig_core ..)
@[simp] theorem formErr_reserved (r : ErrRec) :
    (s.formErr r).reserved = s.reserved := reserved_of_quiet (formErr_quiet s r)
@[simp] theorem log_reserved (e : ErrSpec) :
    (s.log e).reserved = s.reserved := reserved_of_core (log_core ..)
@[simp] theorem logDeferred_reserved : s.logDeferred.reserved = s.reserved := by simp [State.logDeferred]
@[simp] theorem carry_reserved : s.carry.reserved = s.reserved := by simp [State.carry]
@[simp] theorem logSat_reserved (k : SatKey) : (s.logSat k).reserved = s.reserved := by simp [State.logSat]
@[simp] theorem logSats_reserved (s0 s1 : State) : (State.logSats s0 s1).reserved = s1.reserved := by
  simp [State.logSats]
@[simp] theorem sendReliable_reserved (ftype : Nat) : (s.sendReliable ftype).reserved = s.reserved :=
  reserved_of_core (sendReliable_core ..)
@[simp] theorem tell_reserved (ftype : Nat) : (s.tell ftype).reserved = s.reserved :=
  reserved_of_core (tell_core ..)
@[simp] theorem sendRunners_reserved (s0 s1 : State) :
    (State.sendRunners s0 s1).reserved = s1.reserved := by
  simp [State.sendRunners]
@[simp] theorem raiseReady_reserved (s0 s1 : State) : (State.raiseReady s0 s1).reserved = s1.reserved := by
  simp [State.raiseReady]
@[simp] theorem fresh_reserved : s.fresh.reserved = s.reserved := by simp [State.fresh]
@[simp] theorem answer_reserved (w : Waiter) (a : Answer) : (s.answer w a).reserved = s.reserved :=
  reserved_of_core (answer_core ..)
@[simp] theorem reply_reserved (r : Req) (opcode : Nat) (a : Answer) :
    (s.reply r opcode a).reserved = s.reserved := by
  simp [State.reply]
@[simp] theorem refuse_reserved (r : Req) (opcode status detail : Nat) :
    (s.refuse r opcode status detail).reserved = s.reserved := by
  simp [State.refuse]
@[simp] theorem ok_reserved (r : Req) (opcode : Nat) (result out : List Byte) :
    (s.ok r opcode result out).reserved = s.reserved := by
  simp [State.ok]
@[simp] theorem take_reserved (r : Req) : (s.take r).reserved = s.reserved := by simp [State.take]
@[simp] theorem defer_reserved (r : Req) (opcode obj aux phase : Nat) :
    (s.defer r opcode obj aux phase).reserved = s.reserved := by
  simp [State.defer]
@[simp] theorem complete_reserved (p : Outstanding → Bool) (a : Answer) :
    (s.complete p a).reserved = s.reserved := reserved_of_core (complete_core ..)
@[simp] theorem completeAll_reserved (p : Outstanding → Bool) (a : Outstanding → Answer) :
    (s.completeAll p a).reserved = s.reserved := by
  simp [State.completeAll]

section
variable {s}
theorem holds_umser {r : Req} {op : Nat} {g : Gate} {body : State → State} (hb : ∀ t,
    (body t).reserved = t.reserved) :
    Holds s (umser r op g s body) := by
  unfold umser
  rw [holds_finish, reserved_ite]
  split
  · split
    · simp
    · rw [hb, take_reserved]
  · rfl
end


/-! ### Machine/Commit.lean -/

@[simp] theorem closePage_reserved (id : Nat) : (s.closePage id).reserved = s.reserved := by
  simp [State.closePage]
@[simp] theorem newPage_reserved (prio set : Nat) (k : Packet) :
    (s.newPage prio set k).reserved = s.reserved := by
  simp [State.newPage]
@[simp] theorem stagePacket_reserved (prio set : Nat) (k : Packet) :
    (s.stagePacket prio set k).reserved = s.reserved := by
  unfold State.stagePacket; split <;> simp
@[simp] theorem stageSome_reserved (fig : Nat) (l : List Packet) :
    (s.stageSome fig l).1.reserved = s.reserved := by
  induction l generalizing s with
  | nil => rfl
  | cons k l ih => simp only [State.stageSome]; split <;> simp [ih]
@[simp] theorem syncPeat_reserved : s.syncPeat.reserved = s.reserved := by simp [State.syncPeat]
@[simp] theorem stoWatch_reserved : s.stoWatch.reserved = s.reserved := by simp [State.stoWatch]
@[simp] theorem archivePacket_reserved (fig : Nat) (k : Packet) :
    (s.archivePacket fig k).reserved = s.reserved := by
  simp [State.archivePacket]
@[simp] theorem produce_reserved (qid : Nat) (b : Building) : (s.produce qid b).reserved = s.reserved :=
  reserved_of_core (produce_core ..)
@[simp] theorem produceRecord_reserved (fig stream : Nat) (key : Word) (bytes : List Byte) :
    (s.produceRecord fig stream key bytes).reserved = s.reserved := reserved_of_core (produceRecord_core ..)
@[simp] theorem logQueueEvent_reserved (fig stream : Nat) (e : QueueEvent) :
    (s.logQueueEvent fig stream e).reserved = s.reserved := by
  simp [State.logQueueEvent]
@[simp] theorem queueEvent_reserved (qid : Nat) (e : QueueEvent) :
    (s.queueEvent qid e).reserved = s.reserved := reserved_of_core (queueEvent_core ..)
@[simp] theorem queFlag_reserved (m : Word) : (s.queFlag m).reserved = s.reserved :=
  reserved_of_core (queFlag_core ..)
@[simp] theorem abandon_reserved (qid cause : Nat) (b : Building) :
    (s.abandon qid cause b).reserved = s.reserved := reserved_of_core (abandon_core ..)
@[simp] theorem divertRecord_reserved (qid : Nat) (r : SeqRun) :
    (s.divertRecord qid r).reserved = s.reserved := by
  simp [State.divertRecord]
@[simp] theorem endDivert_reserved (qid : Nat) : (s.endDivert qid).reserved = s.reserved := by
  unfold State.endDivert; split <;> simp
@[simp] theorem endOverflow_reserved (qid : Nat) : (s.endOverflow qid).reserved = s.reserved := by
  unfold State.endOverflow; split <;> simp
@[simp] theorem overflowPacket_reserved (qid : Nat) (seq : Word) :
    (s.overflowPacket qid seq).reserved = s.reserved := by
  simp [State.overflowPacket]
@[simp] theorem divertAll_reserved (qid : Nat) (copied : Bool) :
    (s.divertAll qid copied).reserved = s.reserved := by
  unfold State.divertAll
  extract_lets q d moved t t'
  have hd : d.1.reserved = s.reserved := by simp only [d]; split <;> simp
  have ht : t'.reserved = s.reserved := by simp [t', t, hd]
  simp [ht]
@[simp] theorem place_reserved (qid : Nat) (p : Packet) (copied : Bool) :
    (s.place qid p copied).reserved = s.reserved := by
  simp [State.place]
@[simp] theorem resCommit_reserved (fig : Nat) (n : ResNote) :
    (s.resCommit fig n).reserved = s.reserved := by
  simp [State.resCommit]
@[simp] theorem noteCommit_reserved (fig : Nat) (n : Option ResNote) :
    (s.noteCommit fig n).reserved = s.reserved := by
  unfold State.noteCommit; split <;> simp
@[simp] theorem tuneAnswer_reserved (n : TuneNote) : (s.tuneAnswer n).reserved = s.reserved :=
  reserved_of_core (tuneAnswer_core ..)
@[simp] theorem tuneCommit_reserved (n : Option TuneNote) : (s.tuneCommit n).reserved = s.reserved :=
  reserved_of_core (tuneCommit_core ..)
@[simp] theorem commitPacket_reserved (qid : Nat) (b : Building) (poison : List Nat) :
    (s.commitPacket qid b poison).reserved = s.reserved := by
  simp [State.commitPacket]
@[simp] theorem reportLost_reserved (p : Nat → Bool) : (s.reportLost p).reserved = s.reserved := by
  simp [State.reportLost]
@[simp] theorem reportUnknown_reserved (qid : Nat) : (s.reportUnknown qid).reserved = s.reserved := by
  unfold State.reportUnknown; split <;> simp

/-! ### Machine/Queues.lean -/

@[simp] theorem countPoison_reserved (n : Nat) : (s.countPoison n).reserved = s.reserved := by
  simp [State.countPoison]
@[simp] theorem popWords_reserved (r : Req) (qid n : Nat) : (s.popWords r qid n).reserved = s.reserved := by
  unfold State.popWords; simp only; split <;> simp
@[simp] theorem execQuePop_reserved (r : Req) (qid words : Nat) : Holds s (execQuePop r qid words s) := 
  holds_umser fun t => by simp
@[simp] theorem execQueDropRest_reserved (r : Req) (qid : Nat) : Holds s (execQueDropRest r qid s) := by
  refine holds_umser fun t => ?_
  simp only
  split
  · simp
  · split
    · simp
    · split <;> simp
@[simp] theorem flushCut_reserved (qid : Nat) : (s.flushCut qid).1.reserved = s.reserved := by
  unfold State.flushCut; split <;> simp
@[simp] theorem flushRecord_reserved (qid : Nat) (toRing : Bool) (l : List Packet) :
    (s.flushRecord qid toRing l).reserved = s.reserved := by
  unfold State.flushRecord; split <;> simp
@[simp] theorem flushQueue_reserved (qid : Nat) (toRing : Bool) :
    (s.flushQueue qid toRing).1.reserved = s.reserved := by
  simp [State.flushQueue]
@[simp] theorem flushesDone_reserved : s.flushesDone.reserved = s.reserved := by simp [State.flushesDone]
@[simp] theorem execQueFlush_reserved (r : Req) (scope obj : Nat) : Holds s (execQueFlush r scope obj s) := 
  holds_umser fun t => by simp
@[simp] theorem execFlushPoint_reserved (qid : Nat) : Holds s (execFlushPoint qid s) := by
  simp [execFlushPoint]
@[simp] theorem grant_reserved (qid n : Nat) :
    (s.grant qid n).reserved = s.reserved := by simp [State.grant]
@[simp] theorem execQueCredit_reserved (r : Req) (qid grant : Nat) :
    Holds s (execQueCredit r qid grant s) := 
  holds_umser fun t => by simp
@[simp] theorem execQuePush_reserved (r : Req) (qid : Nat) (words : List DWord) :
    Holds s (execQuePush r qid words s) :=
  holds_umser fun t => by simp
@[simp] theorem execQueStatusRead_reserved (r : Req) (first count : Nat) :
    Holds s (execQueStatusRead r first count s) :=
  holds_umser fun t => by simp
@[simp] theorem countCorrected_reserved (qid n : Nat) : (s.countCorrected qid n).reserved = s.reserved := by
  simp [State.countCorrected]
@[simp] theorem execPacketCommit_reserved (qid corrected : Nat) (ecc : Bool) (poison : List Nat) :
    Holds s (execPacketCommit qid corrected ecc poison s) := by
  unfold execPacketCommit; rw [holds_finish]; (repeat' split) <;> simp

/-! ### Machine/Storage.lean -/

@[simp] theorem modTarget_reserved (n : Nat) (f : Target → Target) :
    (s.modTarget n f).reserved = s.reserved := by
  simp [State.modTarget]
@[simp] theorem stoFlag_reserved (m : Word) : (s.stoFlag m).reserved = s.reserved := by simp [State.stoFlag]
@[simp] theorem pauseFor_reserved (channel : Nat) : (s.pauseFor channel).reserved = s.reserved := by
  unfold State.pauseFor; split <;> simp
@[simp] theorem startPage_reserved (p : Page) (n : Nat) : (s.startPage p n).reserved = s.reserved := by
  simp [State.startPage]
@[simp] theorem countStart_reserved (channel cls : Nat) :
    (s.countStart channel cls).reserved = s.reserved := by
  simp [State.countStart]
@[simp] theorem execNandOpStart_reserved (channel : Nat) : Holds s (execNandOpStart channel s) := by
  unfold execNandOpStart; rw [holds_finish]; (repeat' split) <;> simp
@[simp] theorem releaseBuffers_reserved (n block : Nat) :
    (s.releaseBuffers n block).reserved = s.reserved := by
  simp [State.releaseBuffers]
@[simp] theorem confirmPage_reserved (id : Nat) : (s.confirmPage id).reserved = s.reserved := by
  unfold State.confirmPage; split <;> simp
@[simp] theorem relocate_reserved (n block : Nat) : (s.relocate n block).reserved = s.reserved := by
  simp [State.relocate]
@[simp] theorem growBad_reserved (n block : Nat) : (s.growBad n block).reserved = s.reserved := by
  simp [State.growBad]
@[simp] theorem retire_reserved (n : Nat) : (s.retire n).reserved = s.reserved := by simp [State.retire]
@[simp] theorem programFailed_reserved (p : Page) : (s.programFailed p).reserved = s.reserved := by
  simp [State.programFailed]
@[simp] theorem execProgramStatus_reserved (target : Nat) (pass : Bool) :
    Holds s (execProgramStatus target pass s) := by
  unfold execProgramStatus; rw [holds_finish]; (repeat' split) <;> simp
@[simp] theorem blockErased_reserved (n block : Nat) : (s.blockErased n block).reserved = s.reserved := by
  simp [State.blockErased]
@[simp] theorem formatDone_reserved : s.formatDone.reserved = s.reserved := by simp [State.formatDone]
@[simp] theorem execEraseStatus_reserved (target : Nat) (pass : Bool) :
    Holds s (execEraseStatus target pass s) := by
  unfold execEraseStatus; rw [holds_finish]; (repeat' split) <;> simp
@[simp] theorem execMireFormat_reserved (r : Req) (key : Nat) : Holds s (execMireFormat r key s) := 
  holds_umser fun t => by simp
@[simp] theorem reportStorageLoss_reserved (era : Word) (l : List Packet) :
    (s.reportStorageLoss era l).reserved = s.reserved := by
  simp [State.reportStorageLoss]
@[simp] theorem restage_reserved (p : Page) : (s.restage p).reserved = s.reserved := by simp [State.restage]
@[simp] theorem execNandReadDone_reserved (target corrected : Nat) (weak : Bool) (lost : List Nat) :
    Holds s (execNandReadDone target corrected weak lost s) := by
  unfold execNandReadDone; rw [holds_finish]; (repeat' split) <;> simp
@[simp] theorem requeue_reserved (n : Nat) : (s.requeue n).reserved = s.reserved := by simp [State.requeue]
@[simp] theorem execTargetTimeout_reserved (target : Nat) : Holds s (execTargetTimeout target s) := by
  simp [execTargetTimeout]
@[simp] theorem execChannelResetEnd_reserved (target : Nat) (ready : Bool) :
    Holds s (execChannelResetEnd target ready s) := by
  simp [execChannelResetEnd]
@[simp] theorem execDrainFault_reserved (drain : Nat) : Holds s (execDrainFault drain s) := by
  simp [execDrainFault]
@[simp] theorem execRateMeasure_reserved (busy : Bool) (mbps : Nat) :
    Holds s (execRateMeasure busy mbps s) := by
  simp [execRateMeasure]
@[simp] theorem execMapCheckpoint_reserved : Holds s (execMapCheckpoint s) := by simp [execMapCheckpoint]
@[simp] theorem execPageBufferClose_reserved (page : Nat) : Holds s (execPageBufferClose page s) := by
  simp [execPageBufferClose]
@[simp] theorem execMireRead_reserved (r : Req) (qid : Nat) (first : Word) (count ring : Nat) :
    Holds s (execMireRead r qid first count ring s) :=
  holds_umser fun t => by simp
@[simp] theorem reclaim_reserved : s.reclaim.reserved = s.reserved := by simp [State.reclaim]
@[simp] theorem release_reserved (gone : Page → Packet → Bool) :
    (s.release gone).1.reserved = s.reserved := by
  simp [State.release]
@[simp] theorem execMireRelease_reserved (r : Req) (mode qid : Nat) (seq : Word) (mt : DWord) :
    Holds s (execMireRelease r mode qid seq mt s) :=
  holds_umser fun t => by simp
@[simp] theorem execMireQuery_reserved (r : Req) (qid : Nat) (start : Word) :
    Holds s (execMireQuery r qid start s) :=
  holds_umser fun t => by simp
@[simp] theorem execMireStatusRead_reserved (r : Req) : Holds s (execMireStatusRead r s) := 
  holds_umser fun t => by simp
@[simp] theorem execMireTargetRetire_reserved (r : Req) (channel target : Nat) :
    Holds s (execMireTargetRetire r channel target s) :=
  holds_umser fun t => by simp
@[simp] theorem attach_reserved (n : NandScan) :
    (s.attach n).reserved = s.reserved := by simp [State.attach]
@[simp] theorem mireState_reserved : s.mireState.reserved = s.reserved := by simp [State.mireState]

/-! ### Machine/Host.lean -/

@[simp] theorem hostFlag_reserved (m : Word) : (s.hostFlag m).reserved = s.reserved := by
  simp [State.hostFlag]
@[simp] theorem badAccess_reserved : s.badAccess.reserved = s.reserved := by simp [State.badAccess]
@[simp] theorem cplError_reserved (k : HostRead) : (s.cplError k).reserved = s.reserved := by
  simp [State.cplError]
@[simp] theorem endSession_reserved (n : Nat) : (s.endSession n).reserved = s.reserved := by
  simp [State.endSession]
@[simp] theorem resetMbx_reserved (n reason code : Nat) :
    (s.resetMbx n reason code).reserved = s.reserved := by
  simp [State.resetMbx]
@[simp] theorem doorbell_reserved (port : Port) (n : Nat) (body : Mbx → State) (hf : ∀ m,
    (body m).reserved = s.reserved) :
    (s.doorbell port n body).reserved = s.reserved := by
  simp [State.doorbell, hf]
@[simp] theorem rspHead_reserved (port : Port) (mbx : Nat) (arg : BitVec 28) :
    (s.rspHead port mbx arg).reserved = s.reserved := by
  simp [State.rspHead]
@[simp] theorem execRspHead_reserved (port : Port) (mbx : Nat) (arg : BitVec 28) :
    Holds s (execRspHead port mbx arg s) := by
  simp [execRspHead]
@[simp] theorem setupLo_reserved (port : Port) (mbx : Nat) (arg : BitVec 28) :
    (s.setupLo port mbx arg).reserved = s.reserved := by
  simp [State.setupLo]
@[simp] theorem execSetupLo_reserved (port : Port) (mbx : Nat) (arg : BitVec 28) :
    Holds s (execSetupLo port mbx arg s) := by
  simp [execSetupLo]
@[simp] theorem setupHi_reserved (port : Port) (mbx : Nat) (arg : BitVec 28) :
    (s.setupHi port mbx arg).reserved = s.reserved := by
  simp [State.setupHi]
@[simp] theorem execSetupHi_reserved (port : Port) (mbx : Nat) (arg : BitVec 28) :
    Holds s (execSetupHi port mbx arg s) := by
  simp [execSetupHi]
@[simp] theorem execSetupBlockCheck_reserved (mbx : Nat) (read : HostRead) (block : BitVec 512) :
    Holds s (execSetupBlockCheck mbx read block s) := by
  simp [execSetupBlockCheck]
@[simp] theorem closeMbx_reserved (port : Port) (mbx : Nat) :
    (s.closeMbx port mbx).reserved = s.reserved := by
  simp [State.closeMbx]
@[simp] theorem execClose_reserved (port : Port) (mbx : Nat) : Holds s (execClose port mbx s) := by
  simp [execClose]
@[simp] theorem execMailboxClosed_reserved (mbx : Nat) : Holds s (execMailboxClosed mbx s) := by
  simp [execMailboxClosed]
@[simp] theorem ackReset_reserved (port : Port) (mbx : Nat) :
    (s.ackReset port mbx).reserved = s.reserved := by
  simp [State.ackReset]
@[simp] theorem execAckReset_reserved (port : Port) (mbx : Nat) : Holds s (execAckReset port mbx s) := by
  simp [execAckReset]
@[simp] theorem ringFault_reserved (n code : Nat) : (s.ringFault n code).reserved = s.reserved := by
  simp [State.ringFault]
@[simp] theorem tailWrite_reserved (port : Port) (mbx : Nat) (value : Word) :
    (s.tailWrite port mbx value).reserved = s.reserved := by
  simp [State.tailWrite]
@[simp] theorem execMbxTailWrite_reserved (port : Port) (mbx : Nat) (value : Word) :
    Holds s (execMbxTailWrite port mbx value s) := by
  simp [execMbxTailWrite]
@[simp] theorem fetched_reserved (n : Nat) (d : BitVec 512) (input : HostRead) :
    (s.fetched n d input).reserved = s.reserved := by
  unfold State.fetched; simp only; split <;> simp
@[simp] theorem execRequestFetch_reserved (mbx : Nat) (ring : HostRead) (desc : BitVec 512)
    (input : HostRead) :
    Holds s (execRequestFetch mbx ring desc input s) := by
  simp [execRequestFetch]
@[simp] theorem execIrqHoldoffExpiry_reserved (ring : Bool) (n : Nat) :
    Holds s (execIrqHoldoffExpiry ring n s) := by
  simp [execIrqHoldoffExpiry]
@[simp] theorem execSesInfo_reserved (r : Req) : Holds s (execSesInfo r s) := 
  holds_umser fun t => by simp
@[simp] theorem giveBack_reserved (ring : Nat) : (s.giveBack ring).reserved = s.reserved := by
  simp [State.giveBack]
@[simp] theorem abortReads_reserved (p : MireRead → Bool) : (s.abortReads p).reserved = s.reserved := by
  simp [State.abortReads]
@[simp] theorem closeRing_reserved (ring : Nat) : (s.closeRing ring).reserved = s.reserved := by
  simp [State.closeRing]
@[simp] theorem execHdrOpen_reserved (r : Req) (ring log2 vector modN modUs : Nat) (auto : Bool)
    (base : BitVec 64) :
    Holds s (execHdrOpen r ring log2 vector modN modUs auto base s) :=
  holds_umser fun t => by simp
@[simp] theorem execHdrClose_reserved (r : Req) (ring : Nat) : Holds s (execHdrClose r ring s) := 
  holds_umser fun t => by simp
@[simp] theorem execHdrBind_reserved (r : Req) (ring : Nat) (qids : List Nat) :
    Holds s (execHdrBind r ring qids s) :=
  holds_umser fun t => by (repeat' split) <;> simp
@[simp] theorem unbind_reserved (qid : Nat) : (s.unbind qid).reserved = s.reserved := by
  unfold State.unbind; split <;> simp
@[simp] theorem execHdrUnbind_reserved (r : Req) (qids : List Nat) : Holds s (execHdrUnbind r qids s) := 
  holds_umser fun t => by (repeat' split) <;> simp
@[simp] theorem execHdrStatusRead_reserved (r : Req) (first count : Nat) :
    Holds s (execHdrStatusRead r first count s) :=
  holds_umser fun t => by simp
@[simp] theorem ringWrite_reserved (ring : Nat) (p : Packet) (gap : Bool) :
    (s.ringWrite ring p gap).reserved = s.reserved := by
  unfold State.ringWrite; simp only; (repeat' split) <;> simp
@[simp] theorem readsDone_reserved : s.readsDone.reserved = s.reserved := by simp [State.readsDone]
@[simp] theorem writeRead_reserved (ring qid : Nat) : (s.writeRead ring qid).reserved = s.reserved := by
  unfold State.writeRead; (repeat' split) <;> simp
@[simp] theorem execHdrPacketWrite_reserved (ring qid : Nat) : Holds s (execHdrPacketWrite ring qid s) := by
  unfold execHdrPacketWrite; rw [holds_finish]; split <;> simp
@[simp] theorem execFlushReadIssue_reserved (ring : Nat) : Holds s (execFlushReadIssue ring s) := by
  simp [execFlushReadIssue]
@[simp] theorem delivered_reserved (k : RingPacket) : (s.delivered k).reserved = s.reserved := by
  unfold State.delivered; split <;> simp
@[simp] theorem flushed_reserved (ring : Nat) : (s.flushed ring).reserved = s.reserved := by
  simp [State.flushed]
@[simp] theorem faultRing_reserved (ring : Nat) (k : HostRead) :
    (s.faultRing ring k).reserved = s.reserved := by
  simp [State.faultRing]
@[simp] theorem execFlushReadDone_reserved (ring : Nat) (read : HostRead) :
    Holds s (execFlushReadDone ring read s) := by
  simp [execFlushReadDone]
@[simp] theorem consumed_reserved (ring : Nat) (head : Word) :
    (s.consumed ring head).reserved = s.reserved := by
  simp [State.consumed]
@[simp] theorem execHdrHeadWrite_reserved (ring : Nat) (value : Word) :
    Holds s (execHdrHeadWrite ring value s) := by
  simp [execHdrHeadWrite]
@[simp] theorem pcieGone_reserved (reason : Nat) : (s.pcieGone reason).reserved = s.reserved := by
  simp [State.pcieGone]
@[simp] theorem execFunctionLevelReset_reserved : Holds s (execFunctionLevelReset s) := by
  simp [execFunctionLevelReset]
@[simp] theorem execPcieLinkDown_reserved : Holds s (execPcieLinkDown s) := by simp [execPcieLinkDown]
@[simp] theorem execPcieLinkUp_reserved (speed width : Nat) : Holds s (execPcieLinkUp speed width s) := by
  simp [execPcieLinkUp]
@[simp] theorem execPcieConfigWrite_reserved (msixEn busMaster funcMask : Bool) :
    Holds s (execPcieConfigWrite msixEn busMaster funcMask s) := by
  simp [execPcieConfigWrite]
@[simp] theorem execExtest_reserved (on : Bool) : Holds s (execExtest on s) := by simp [execExtest]

/-! ### Machine/Fabric.lean -/

@[simp] theorem select_reserved (c sel : Nat) : (s.select c sel).reserved = s.reserved := by
  simp [State.select]
@[simp] theorem execEvtRoute_reserved (r : Req) (items : List (Nat × Nat)) :
    Holds s (execEvtRoute r items s) :=
  holds_umser fun t => by (repeat' split) <;> simp
@[simp] theorem execEvtMask_reserved (r : Req) (sluice op : Nat) (codes : List Nat) :
    Holds s (execEvtMask r sluice op codes s) :=
  holds_umser fun t => by (repeat' split) <;> simp
@[simp] theorem execEvtRead_reserved (r : Req) (kind first count : Nat) :
    Holds s (execEvtRead r kind first count s) :=
  holds_umser fun t => by simp
@[simp] theorem execEvtPulse_reserved (r : Req) (mask : BitVec 8) : Holds s (execEvtPulse r mask s) := 
  holds_umser fun t => by simp
@[simp] theorem execEvtInEdge_reserved (n : Nat) (rising : Bool) : Holds s (execEvtInEdge n rising s) := by
  simp [execEvtInEdge]
@[simp] theorem execPersist_reserved (sluice : Nat) :
    Holds s (execPersist sluice s) := by simp [execPersist]
@[simp] theorem execFabPersistClear_reserved (n : Nat) (value : Word) :
    Holds s (execFabPersistClear n value s) := by
  simp [execFabPersistClear]
@[simp] theorem execEvtOutPulseEnd_reserved (n : Nat) : Holds s (execEvtOutPulseEnd n s) := by
  simp [execEvtOutPulseEnd]
@[simp] theorem writeStorm_reserved : s.writeStorm.reserved = s.reserved := by simp [State.writeStorm]
@[simp] theorem execErrRingRead_reserved (r : Req) (start : Word) (count : Nat) (ack : Bool) :
    Holds s (execErrRingRead r start count ack s) := by
  refine holds_umser fun t => ?_
  simp [Peat.copyErr]
@[simp] theorem armFirst_reserved : s.armFirst.reserved = s.reserved := rfl
@[simp] theorem execErrFirstRead_reserved (r : Req) : Holds s (execErrFirstRead r s) := 
  holds_umser fun t => by simp
@[simp] theorem execFirstArm_reserved : Holds s (execFirstArm s) := by simp [execFirstArm]

/-! ### Machine/Edit.lean -/

@[simp] theorem modMaq_reserved (f : CfgSet → CfgSet) : (s.modMaq f).reserved = s.reserved := by
  simp [State.modMaq]
@[simp] theorem edited_reserved : s.edited.reserved = s.reserved := by simp [State.edited]
@[simp] theorem editOk_reserved (r : Req) (opcode : Nat) (result : List Byte) :
    (s.editOk r opcode result).reserved = s.reserved := by
  simp [State.editOk]

section
variable {s}
theorem holds_editCommand {r : Req} {op : Nat} {body : State → State} (hb : ∀ t,
    (body t).reserved = t.reserved) :
    Holds s (editCommand r op s body) := by
  refine holds_umser fun t => ?_
  simp [hb]
end

@[simp] theorem applyTriples_reserved (l : List Triple) : (s.applyTriples l).reserved = s.reserved := by
  simp [State.applyTriples]
@[simp] theorem execParamWrite_reserved (r : Req) (triples : List Triple) :
    Holds s (execParamWrite r triples s) :=
  holds_umser fun t => by (repeat' split) <;> simp
@[simp] theorem execParamRead_reserved (r : Req) (items : List (Nat × Nat)) :
    Holds s (execParamRead r items s) := by
  refine holds_umser fun t => ?_
  simp only
  split
  · simp
  · split <;> simp
@[simp] theorem execParamDirRead_reserved (r : Req) (first count : Nat) :
    Holds s (execParamDirRead r first count s) :=
  holds_umser fun t => by simp
@[simp] theorem defineLevel_reserved (fig : Nat) (v : Word) :
    (s.defineLevel fig v).reserved = s.reserved := by
  simp [State.defineLevel]
@[simp] theorem execFigDefine_reserved (r : Req) (fig op source : Nat) (triples : List Triple) :
    Holds s (execFigDefine r fig op source triples s) := by
  refine holds_editCommand fun t => ?_
  split
  · simp
  · split
    · simp
    · simp only
      split <;> simp
@[simp] theorem execFigListRead_reserved (r : Req) : Holds s (execFigListRead r s) := 
  holds_umser fun t => by simp
@[simp] theorem execSetStatusRead_reserved (r : Req) : Holds s (execSetStatusRead r s) := 
  holds_umser fun t => by simp
@[simp] theorem execSetRevert_reserved (r : Req) : Holds s (execSetRevert r s) := 
  holds_umser fun t => by simp

/-! ### Machine/Stage.lean -/

@[simp] theorem bringDesc_reserved (p : Nat) : (s.bringDesc p).reserved = s.reserved := by
  unfold State.bringDesc; simp only; (repeat' split) <;> simp
@[simp] theorem startDesc_reserved (p : Nat) : (s.startDesc p).reserved = s.reserved := by
  simp [State.startDesc]
@[simp] theorem mireDescs_reserved : s.mireDescs.reserved = s.reserved := by simp [State.mireDescs]
@[simp] theorem unfreeze_reserved : s.unfreeze.reserved = s.reserved := by simp [State.unfreeze]
@[simp] theorem execRevertCopyEnd_reserved : Holds s (execRevertCopyEnd s) := by simp [execRevertCopyEnd]
@[simp] theorem readEeprom_reserved (p : Nat) (data : Option (BitVec 2048)) :
    (s.readEeprom p data).reserved = s.reserved := by
  unfold State.readEeprom; (repeat' split) <;> simp
@[simp] theorem execStgDescWrite_reserved (r : Req) (port : Nat) (image : BitVec 2048) :
    Holds s (execStgDescWrite r port image s) :=
  holds_editCommand fun t => by (repeat' split) <;> simp
@[simp] theorem descReadNow_reserved (r : Req) (port : Nat) :
    (s.descReadNow r port).reserved = s.reserved := by
  simp [State.descReadNow]
@[simp] theorem i2cAdd_reserved (x : I2c) : (s.i2cAdd x).reserved = s.reserved := by simp [State.i2cAdd]
@[simp] theorem execStgDescRead_reserved (r : Req) (port mode : Nat) :
    Holds s (execStgDescRead r port mode s) :=
  holds_umser fun t => by simp
@[simp] theorem execStgEepromWrite_reserved (r : Req) (port offset : Nat) (data : List Byte) :
    Holds s (execStgEepromWrite r port offset data s) :=
  holds_umser fun t => by simp
@[simp] theorem i2cNext_reserved (grp : Nat) (x : Option I2c) :
    (s.i2cNext grp x).reserved = s.reserved := by
  simp [State.i2cNext]
@[simp] theorem rereadDone_reserved (x : I2c) (data : Option (BitVec 2048)) :
    (s.rereadDone x data).reserved = s.reserved := by
  simp [State.rereadDone]
@[simp] theorem execI2cTransferEnd_reserved (grp : Nat) (ack : Bool) (data : Option (BitVec 2048)) :
    Holds s (execI2cTransferEnd grp ack data s) := by
  unfold execI2cTransferEnd; rw [holds_finish]; split <;> simp
@[simp] theorem execStgPlaceRead_reserved (r : Req) (first count : Nat) :
    Holds s (execStgPlaceRead r first count s) :=
  holds_umser fun t => by simp
@[simp] theorem execFigPlaceRead_reserved (r : Req) (first count : Nat) :
    Holds s (execFigPlaceRead r first count s) :=
  holds_umser fun t => by simp

/-! ### Machine/Measure.lean -/

@[simp] theorem rescaleAperture_reserved (p rng vspan : Nat) :
    (s.rescaleAperture p rng vspan).reserved = s.reserved := by
  refine foldl_reserved _ (fun t e => ?_) _ _
  split
  · simp
  · rfl
@[simp] theorem apTake_reserved (f : Nat) (x : Nat → Sample) : (s.apTake f x).reserved = s.reserved :=
  reserved_of_core (apTake_core ..)
@[simp] theorem apQual_reserved : s.apQual.reserved = s.reserved := by simp [State.apQual]
@[simp] theorem totTake_reserved (f : Nat) (x : Nat → Sample) : (s.totTake f x).reserved = s.reserved :=
  reserved_of_core (totTake_core ..)
@[simp] theorem apAsk_reserved (f : Nat) (a : Aperture) : (s.apAsk f a).reserved = s.reserved := by
  simp [State.apAsk]
@[simp] theorem apStart_reserved (f : Nat) : (s.apStart f).reserved = s.reserved := by
  unfold State.apStart; split <;> simp
@[simp] theorem freshResult_reserved : s.freshResult.reserved = s.reserved :=
  reserved_of_core (freshResult_core ..)
@[simp] theorem apDeliver_reserved (r : ApResult) : (s.apDeliver r).reserved = s.reserved :=
  reserved_of_core (apDeliver_core ..)
@[simp] theorem apClose_reserved (f cause : Nat) : (s.apClose f cause).reserved = s.reserved :=
  reserved_of_core (apClose_core ..)
@[simp] theorem apDrop_reserved (f cause : Nat) : (s.apDrop f cause).reserved = s.reserved :=
  reserved_of_core (apDrop_core ..)
@[simp] theorem execMeasAperture_reserved (r : Req) (fig code : Nat) (start : DWord) :
    Holds s (execMeasAperture r fig code start s) :=
  holds_umser fun t => by split <;> simp
@[simp] theorem execMeasTotalClear_reserved (r : Req) (fig : Nat) : Holds s (execMeasTotalClear r fig s) := 
  holds_umser fun t => by split <;> simp
@[simp] theorem execMeasSnapshot_reserved (r : Req) (mask : BitVec 16) :
    Holds s (execMeasSnapshot r mask s) :=
  holds_umser fun t => by split <;> simp

/-! ### Machine/Port.lean -/

@[simp] theorem modForce_reserved (p : Nat) (f : Force → Force) :
    (s.modForce p f).reserved = s.reserved := by
  simp [State.modForce]
@[simp] theorem modLoop_reserved (p : Nat) (f : Loop → Loop) : (s.modLoop p f).reserved = s.reserved := by
  simp [State.modLoop]
@[simp] theorem modSup_reserved (p : Nat) (f : Sup → Sup) : (s.modSup p f).reserved = s.reserved := by
  simp [State.modSup]
@[simp] theorem modAcq_reserved (g : Nat) (f : Acq → Acq) : (s.modAcq g f).reserved = s.reserved := by
  simp [State.modAcq]
@[simp] theorem acqFlag_reserved (g : Nat) (m : Word) : (s.acqFlag g m).reserved = s.reserved :=
  reserved_of_core (acqFlag_core ..)

/-! ### Machine/Acq.lean -/

@[simp] theorem trigger_reserved (g ofs : Nat) (miss edge : Bool) :
    (s.trigger g ofs miss edge).reserved = s.reserved := by
  simp [State.trigger]
@[simp] theorem triggerBy_reserved (g : Nat) (edges : List LandEdge) :
    (s.triggerBy g edges).reserved = s.reserved := by
  unfold State.triggerBy; split <;> simp
@[simp] theorem execGroupTrigger_reserved (grp : Nat) (edges : List LandEdge) :
    Holds s (execGroupTrigger grp edges s) := by
  simp [execGroupTrigger]
@[simp] theorem execTriggerMiss_reserved (p : GroupEdges) : Holds s (execTriggerMiss p s) := by
  simp [execTriggerMiss]
@[simp] theorem defaultTrigger_reserved (g : Nat) : (s.defaultTrigger g).reserved = s.reserved := by
  simp [State.defaultTrigger]
@[simp] theorem rawPush_reserved (g : Nat) (c : RawCap) (w : DWord) (stamp : DWord) :
    (s.rawPush g c w stamp).reserved = s.reserved := reserved_of_core (rawPush_core ..)
@[simp] theorem rawHalf_reserved (g : Nat) (w : Word) (stamp : DWord) :
    (s.rawHalf g w stamp).reserved = s.reserved := reserved_of_core (rawHalf_core ..)
@[simp] theorem rawEnd_reserved (g : Nat) : (s.rawEnd g).reserved = s.reserved :=
  reserved_of_core (rawEnd_core ..)
@[simp] theorem rawCut_reserved (g detail : Nat) : (s.rawCut g detail).reserved = s.reserved :=
  reserved_of_core (rawCut_core ..)
@[simp] theorem rawCount_reserved (g : Nat) : (s.rawCount g).reserved = s.reserved :=
  reserved_of_core (rawCount_core ..)
@[simp] theorem rawTake_reserved (g : Nat) (words : List (Nat × Word)) (stamp : DWord) :
    (s.rawTake g words stamp).reserved = s.reserved := reserved_of_core (rawTake_core ..)
@[simp] theorem rawStart_reserved (g : Nat) : (s.rawStart g).reserved = s.reserved := by
  unfold State.rawStart; split <;> simp
@[simp] theorem execAcqRawCapture_reserved (r : Req) (grp fig mask count : Nat) (start : DWord) :
    Holds s (execAcqRawCapture r grp fig mask count start s) :=
  holds_umser fun t => by simp
@[simp] theorem execAcqAuxWrite_reserved (r : Req) (grp first : Nat) (entries : List (BitVec 128)) :
    Holds s (execAcqAuxWrite r grp first entries s) :=
  holds_editCommand fun t => by (repeat' split) <;> simp
@[simp] theorem execAcqAuxRead_reserved (r : Req) (grp : Nat) : Holds s (execAcqAuxRead r grp s) := 
  holds_umser fun t => by simp
@[simp] theorem auxConvert_reserved (g : Nat) (input : Int) (clk : Nat) (stamp : DWord) :
    (s.auxConvert g input clk stamp).reserved = s.reserved := by
  unfold State.auxConvert; simp only; split <;> simp
@[simp] theorem auxFill_reserved (g : Nat) (inputs : List Int) :
    (s.auxFill g inputs).reserved = s.reserved := by
  simp [State.auxFill]
@[simp] theorem auxDrive_reserved (g code : Nat) : (s.auxDrive g code).reserved = s.reserved :=
  reserved_of_core (auxDrive_core ..)
@[simp] theorem auxNext_reserved (g : Nat) : (s.auxNext g).reserved = s.reserved :=
  reserved_of_core (auxNext_core ..)
@[simp] theorem urgNext_reserved (g : Nat) : (s.urgNext g).reserved = s.reserved := by
  unfold State.urgNext; simp only; split <;> simp
@[simp] theorem urgBack_reserved (g : Nat) : (s.urgBack g).reserved = s.reserved := by
  unfold State.urgBack; simp only; (repeat' split) <;> simp
@[simp] theorem auxMissing_reserved (f : Nat) : (s.auxMissing f).reserved = s.reserved :=
  reserved_of_core (auxMissing_core ..)
@[simp] theorem tripAux_reserved (g seq : Nat) (auxf : BitVec 8) (aux : List DWord) :
    (s.tripAux g seq auxf aux).reserved = s.reserved := by
  simp [State.tripAux]
@[simp] theorem urgLost_reserved (g : Nat) (u : Urg) (a : Answer) :
    (s.urgLost g u a).reserved = s.reserved :=
  reserved_of_core (urgLost_core ..)
@[simp] theorem urgDrop_reserved (g : Nat) (u : Urg) : (s.urgDrop g u).reserved = s.reserved :=
  reserved_of_core (urgDrop_core ..)
@[simp] theorem urgEnter_reserved (g : Nat) (u : Urg) : (s.urgEnter g u).reserved = s.reserved :=
  reserved_of_core (urgEnter_core ..)
@[simp] theorem urgAsk_reserved (g : Nat) (u : Urg) : (s.urgAsk g u).reserved = s.reserved :=
  reserved_of_core (urgAsk_core ..)
@[simp] theorem auxOverrun_reserved (g : Nat) : (s.auxOverrun g).reserved = s.reserved := by
  simp [State.auxOverrun]
@[simp] theorem execAuxPassStart_reserved (grp : Nat) : Holds s (execAuxPassStart grp s) := by
  simp [execAuxPassStart]
@[simp] theorem auxCycle_reserved (g cycle : Nat) : (s.auxCycle g cycle).reserved = s.reserved := by
  simp [State.auxCycle]
@[simp] theorem auxDeliver_reserved (r : AuxResult) : (s.auxDeliver r).reserved = s.reserved :=
  reserved_of_core (auxDeliver_core ..)
@[simp] theorem freshConv_reserved (c : Conv) : (s.freshConv c).reserved = s.reserved :=
  reserved_of_core (freshConv_core ..)
@[simp] theorem auxAbort_reserved (g : Nat) (x : AuxRun) : (s.auxAbort g x).reserved = s.reserved :=
  reserved_of_core (auxAbort_core ..)
@[simp] theorem auxCut_reserved (g : Nat) : (s.auxCut g).reserved = s.reserved :=
  reserved_of_core (auxCut_core ..)
@[simp] theorem auxFigCut_reserved (g f : Nat) : (s.auxFigCut g f).reserved = s.reserved :=
  reserved_of_core (auxFigCut_core ..)
@[simp] theorem urgDeliver_reserved (g : Nat) (u : Urg) (r : AuxResult) :
    (s.urgDeliver g u r).reserved = s.reserved := by
  simp [State.urgDeliver]
@[simp] theorem execUrgentConversionEnd_reserved (grp : Nat) (inputs : List Int) :
    Holds s (execUrgentConversionEnd grp inputs s) := by
  unfold execUrgentConversionEnd
  simp only [holds_finish]
  split
  · split <;> simp
  · simp
@[simp] theorem auxTick_reserved (g : Nat) : (s.auxTick g).reserved = s.reserved := by
  unfold State.auxTick; simp only; (repeat' split) <;> simp
@[simp] theorem urgEmpty_reserved (g : Nat) : (s.urgEmpty g).reserved = s.reserved := by
  simp [State.urgEmpty, -List.foldl_append]
@[simp] theorem execAcqMeasNow_reserved (r : Req) (port kind auxsel span settle avg : Nat) :
    Holds s (execAcqMeasNow r port kind auxsel span settle avg s) :=
  holds_umser fun t => by simp
@[simp] theorem askCheck_reserved (r : Req) (opcode grp slice : Nat) (path : Bool) :
    (s.askCheck r opcode grp slice path).reserved = s.reserved := by
  simp [State.askCheck]
@[simp] theorem execAcqShareCheck_reserved (r : Req) (grp slice : Nat) :
    Holds s (execAcqShareCheck r grp slice s) :=
  holds_umser fun t => by simp
@[simp] theorem execAcqPathTest_reserved (r : Req) (grp slice : Nat) :
    Holds s (execAcqPathTest r grp slice s) :=
  holds_umser fun t => by simp

/-! ### Machine/Comb.lean -/

@[simp] theorem eachPort_reserved (g : Nat) (f : State → Nat → State) (hf : ∀ s x,
    (f s x).reserved = s.reserved) :
    (s.eachPort g f).reserved = s.reserved := foldl_reserved _ (fun t _ => hf t _) _ s
@[simp] theorem keepSample_reserved (p : Nat) (i : Instant) (x : Sample) :
    (s.keepSample p i x).reserved = s.reserved := reserved_of_core (keepSample_core ..)
@[simp] theorem takeInstant_reserved (g : Nat) (i : Instant) (stamp : DWord) :
    (s.takeInstant g i stamp).reserved = s.reserved := reserved_of_core (takeInstant_core ..)
@[simp] theorem combTake_reserved (g : Nat) (p : Instant → Bool) : (s.combTake g p).reserved = s.reserved :=
  reserved_of_core (combTake_core ..)
@[simp] theorem combFinish_reserved (g : Nat) : (s.combFinish g).reserved = s.reserved :=
  reserved_of_core (combFinish_core ..)
@[simp] theorem combDue_reserved (g : Nat) : (s.combDue g).reserved = s.reserved :=
  reserved_of_core (combDue_core ..)
@[simp] theorem acqClock_reserved (g : Nat) :
    (s.acqClock g).reserved = s.reserved := by simp [State.acqClock]
@[simp] theorem combStart_reserved (g : Nat) (x : PeriodIn) : (s.combStart g x).reserved = s.reserved := by
  unfold State.combStart; simp only; split <;> simp
@[simp] theorem apSamples_reserved (a : Aperture) : (s.apSamples a).reserved = s.reserved := by
  simp [State.apSamples]
@[simp] theorem apCut_reserved (f cause : Nat) : (s.apCut f cause).reserved = s.reserved :=
  reserved_of_core (apCut_core ..)

/-! ### Machine/Mains.lean -/

@[simp] theorem modMt_reserved (f : MtBlk → MtBlk) : (s.modMt f).reserved = s.reserved := by
  simp [State.modMt]
@[simp] theorem mtClock_reserved : s.mtClock.reserved = s.reserved := by simp [State.mtClock]
@[simp] theorem mtUnlock_reserved : s.mtUnlock.reserved = s.reserved := by simp [State.mtUnlock]
@[simp] theorem mtAcquire_reserved : s.mtAcquire.reserved = s.reserved := by simp [State.mtAcquire]
@[simp] theorem mtPullIn_reserved (e : Int) :
    (s.mtPullIn e).reserved = s.reserved := by simp [State.mtPullIn]
@[simp] theorem mtTrack_reserved (e : Int) : (s.mtTrack e).reserved = s.reserved := by simp [State.mtTrack]
@[simp] theorem execMainsCrossing_reserved (ago : Nat) (rising : Bool) (amplitude : Nat) :
    Holds s (execMainsCrossing ago rising amplitude s) := by
  unfold execMainsCrossing
  simp only [holds_finish]
  split
  · rfl
  · split
    · rfl
    · rw [apQual_reserved]
      split
      · simp
      · simp
      · simp
      all_goals split <;> simp
@[simp] theorem mainsGone_reserved (iso : Bool) : (s.mainsGone iso).reserved = s.reserved := by
  unfold State.mainsGone; split <;> simp
@[simp] theorem execSlewEnd_reserved : Holds s (execSlewEnd s) := by simp [execSlewEnd]
@[simp] theorem execMtPhaseEvent_reserved (n : Nat) : Holds s (execMtPhaseEvent n s) := by
  simp [execMtPhaseEvent]
@[simp] theorem execMtWrap_reserved : Holds s (execMtWrap s) := by simp [execMtWrap]
@[simp] theorem execMtCapture_reserved : Holds s (execMtCapture s) := by simp [execMtCapture]
@[simp] theorem mtMode_reserved : s.mtMode.reserved = s.reserved := by
  unfold State.mtMode; (repeat' split) <;> simp

/-! ### Machine/Clock.lean -/

@[simp] theorem clock_reserved : s.clock.reserved = s.reserved := by simp [State.clock]

/-! ### Machine/CalOps.lean -/

@[simp] theorem modCalib_reserved (f : Cal → Cal) : (s.modCalib f).reserved = s.reserved := by
  simp [State.modCalib]
@[simp] theorem calFlag_reserved (m : Word) : (s.calFlag m).reserved = s.reserved := by simp [State.calFlag]
@[simp] theorem calFail_reserved (cause object index source : Nat) :
    (s.calFail cause object index source).reserved = s.reserved := by
  simp [State.calFail]
@[simp] theorem mainsCut_reserved : s.mainsCut.reserved = s.reserved := by
  unfold State.mainsCut; split <;> simp
@[simp] theorem tellBusy_reserved (before s : State) : (State.tellBusy before s).reserved = s.reserved := by
  simp [State.tellBusy]

/-! ### Machine/Spare.lean -/

@[simp] theorem spareFollow_reserved (g : Nat) : (s.spareFollow g).reserved = s.reserved := by
  simp [State.spareFollow]
@[simp] theorem spare_reserved (g : Nat) (role : SpareRole) (slice : Nat) :
    (s.spare g role slice).reserved = s.reserved := by
  simp [State.spare]
@[simp] theorem selector_reserved (g slice : Nat) (x : InSel) :
    (s.selector g slice x).reserved = s.reserved := by
  simp [State.selector]
@[simp] theorem spareIdle_reserved (g : Nat) : (s.spareIdle g).reserved = s.reserved :=
  reserved_of_core (spareIdle_core ..)
@[simp] theorem modPass_reserved (g : Nat) (f : Pass → Pass) : (s.modPass g f).reserved = s.reserved := by
  simp [State.modPass]
@[simp] theorem passReturn_reserved (g : Nat) : (s.passReturn g).reserved = s.reserved := by
  unfold State.passReturn; split <;> simp
@[simp] theorem slotPhase_reserved (g : Nat) : (s.slotPhase g).reserved = s.reserved := by
  unfold State.slotPhase; split <;> simp
@[simp] theorem spareTick_reserved (g : Nat) : (s.spareTick g).reserved = s.reserved := by
  simp [State.spareTick]
@[simp] theorem probeSet_reserved (g slice span : Nat) (pct : Int) :
    (s.probeSet g slice span pct).reserved = s.reserved := by
  simp [State.probeSet]

/-! ### Machine/Point.lean -/

@[simp] theorem swpFlag_reserved (f : Nat) (m : Word) : (s.swpFlag f m).reserved = s.reserved :=
  reserved_of_core (swpFlag_core ..)
@[simp] theorem report_reserved (f point state cause : Nat) (flags : BitVec 16) (pass : Word)
    (mtStart : DWord) :
    (s.report f point state cause flags pass mtStart).reserved = s.reserved := reserved_of_core
    (report_core ..)
@[simp] theorem forgetGo_reserved (f : Nat) : (s.forgetGo f).reserved = s.reserved :=
  reserved_of_core (forgetGo_core ..)
@[simp] theorem ptFinal_reserved (f state cause : Nat) (extra : BitVec 16) :
    (s.ptFinal f state cause extra).reserved = s.reserved := reserved_of_core (ptFinal_core ..)
@[simp] theorem ptNotRun_reserved (f cause : Nat) : (s.ptNotRun f cause).reserved = s.reserved :=
  reserved_of_core (ptNotRun_core ..)
@[simp] theorem listReport_reserved (f state cause : Nat) :
    (s.listReport f state cause).reserved = s.reserved := reserved_of_core (listReport_core ..)
@[simp] theorem setRun_reserved (f : Nat) (r : RunState) : (s.setRun f r).reserved = s.reserved :=
  reserved_of_core (setRun_core ..)
@[simp] theorem listCut_reserved (f cause : Nat) (extra : BitVec 16) (after : RunState) :
    (s.listCut f cause extra after).reserved = s.reserved := reserved_of_core (listCut_core ..)
@[simp] theorem tuneFlush_reserved (g : Nat) : (s.tuneFlush g).reserved = s.reserved :=
  reserved_of_core (tuneFlush_core ..)
@[simp] theorem tuneNoted_reserved (n : TuneNote) : (s.tuneNoted n).reserved = s.reserved :=
  reserved_of_core (tuneNoted_core ..)
@[simp] theorem tuneEnd_reserved (g : Nat) (ok : Bool) : (s.tuneEnd g ok).reserved = s.reserved :=
  reserved_of_core (tuneEnd_core ..)
@[simp] theorem tuneCut_reserved (f : Nat) : (s.tuneCut f).reserved = s.reserved :=
  reserved_of_core (tuneCut_core ..)
@[simp] theorem captureCut_reserved (f : Nat) : (s.captureCut f).reserved = s.reserved :=
  reserved_of_core (captureCut_core ..)

/-! ### Machine/Force.lean -/

@[simp] theorem frFlag_reserved (p : Nat) (m : Word) : (s.frFlag p m).reserved = s.reserved := by
  simp [State.frFlag]
@[simp] theorem openRamp_reserved (p n : Nat) : (s.openRamp p n).reserved = s.reserved :=
  reserved_of_core (openRamp_core ..)
@[simp] theorem strobe_reserved (p j : Nat) : (s.strobe p j).reserved = s.reserved := by simp [State.strobe]
@[simp] theorem modelRestart_reserved (p : Nat) : (s.modelRestart p).reserved = s.reserved := by
  simp [State.modelRestart]
@[simp] theorem thaw_reserved (p : Nat) : (s.thaw p).reserved = s.reserved := by simp [State.thaw]
@[simp] theorem standbyPorts_reserved : s.standbyPorts.reserved = s.reserved := by
  simp [State.standbyPorts]
@[simp] theorem enablePort_reserved (f p : Nat) : (s.enablePort f p).reserved = s.reserved := by
  simp [State.enablePort]
@[simp] theorem execStgEnAssert_reserved (port : Nat) : Holds s (execStgEnAssert port s) := by
  simp [execStgEnAssert]
@[simp] theorem closeLoops_reserved (p : Nat) (code : Int) :
    (s.closeLoops p code).reserved = s.reserved := by
  simp [State.closeLoops]
@[simp] theorem execLoopsClose_reserved (port : Nat) : Holds s (execLoopsClose port s) := by
  simp [execLoopsClose]
@[simp] theorem ptRngChange_reserved (p : Nat) : (s.ptRngChange p).reserved = s.reserved := by
  unfold State.ptRngChange; split <;> simp
@[simp] theorem rangeStart_reserved (p b : Nat) (requested : Bool) :
    (s.rangeStart p b requested).reserved = s.reserved := by
  simp [State.rangeStart]
@[simp] theorem rangeSwitch_reserved (p : Nat) : (s.rangeSwitch p).reserved = s.reserved := by
  unfold State.rangeSwitch; split <;> simp
@[simp] theorem execRangeSwitchBoundary_reserved (port : Nat) :
    Holds s (execRangeSwitchBoundary port s) := by
  unfold execRangeSwitchBoundary; rw [holds_finish]; split <;> simp
@[simp] theorem rangeClose_reserved (p : Nat) : (s.rangeClose p).reserved = s.reserved := by
  unfold State.rangeClose; split <;> simp
@[simp] theorem spanChange_reserved (p v : Nat) : (s.spanChange p v).reserved = s.reserved := by
  simp [State.spanChange]
@[simp] theorem askRange_reserved (p b : Nat) : (s.askRange p b).reserved = s.reserved := by
  simp [State.askRange]
@[simp] theorem askSpan_reserved (p v : Nat) : (s.askSpan p v).reserved = s.reserved := by
  simp [State.askSpan]
@[simp] theorem rangeParams_reserved (f p : Nat) : (s.rangeParams f p).reserved = s.reserved := by
  simp [State.rangeParams]
@[simp] theorem execRangeWindowClose_reserved (port : Nat) : Holds s (execRangeWindowClose port s) := by
  unfold execRangeWindowClose; rw [holds_finish]; (repeat' split) <;> simp
@[simp] theorem disablePort_reserved (p n : Nat) : (s.disablePort p n).reserved = s.reserved := by
  unfold State.disablePort; split <;> simp
@[simp] theorem leaveSlot_reserved (f p : Nat) : (s.leaveSlot f p).reserved = s.reserved :=
  reserved_of_core (leaveSlot_core ..)
@[simp] theorem leaveStages_reserved (f : Nat) : (s.leaveStages f).reserved = s.reserved :=
  reserved_of_core (leaveStages_core ..)
@[simp] theorem leaveNow_reserved (p : Nat) : (s.leaveNow p).reserved = s.reserved := by
  unfold State.leaveNow; split <;> simp
@[simp] theorem figDisable_reserved (f cause : Nat) : (s.figDisable f cause).reserved = s.reserved := by
  simp [State.figDisable]
@[simp] theorem figMove_reserved (f : Nat) : (s.figMove f).reserved = s.reserved := by simp [State.figMove]
@[simp] theorem execRampDownEnd_reserved (port : Nat) : Holds s (execRampDownEnd port s) := by
  simp [execRampDownEnd]
@[simp] theorem execParkEnd_reserved (port : Nat) : Holds s (execParkEnd port s) := by simp [execParkEnd]
@[simp] theorem execRngLineRelease_reserved (port : Nat) : Holds s (execRngLineRelease port s) := by
  unfold execRngLineRelease; rw [holds_finish]; split <;> simp

/-! ### Machine/Trip.lean -/

@[simp] theorem supFlag_reserved (p : Nat) (m : Word) : (s.supFlag p m).reserved = s.reserved := by
  simp [State.supFlag]
@[simp] theorem monSample_reserved (p k : Nat) (v i : Int) :
    (s.monSample p k v i).reserved = s.reserved := by
  simp [State.monSample]
@[simp] theorem execMonitorSample_reserved (port : Nat) (v i : Int) :
    Holds s (execMonitorSample port v i s) := by
  simp [execMonitorSample]
@[simp] theorem postRecord_reserved (r : TripRec) : (s.postRecord r).reserved = s.reserved :=
  reserved_of_core (postRecord_core ..)
@[simp] theorem snapAsk_reserved (r : TripRec) (p : Nat) : (s.snapAsk r p).reserved = s.reserved :=
  reserved_of_core (snapAsk_core ..)
@[simp] theorem tripActions_reserved (p : Nat) (cause : Word) (seq : Word) (fig : Nat) :
    (s.tripActions p cause seq fig).reserved = s.reserved := reserved_of_core (tripActions_core ..)
@[simp] theorem pointMigrates_reserved (f : Nat) (flags : BitVec 16) :
    (s.pointMigrates f flags).reserved = s.reserved := reserved_of_core (pointMigrates_core ..)
@[simp] theorem tripFigure_reserved (f : Nat) (cause seq : Word) :
    (s.tripFigure f cause seq).reserved = s.reserved := by
  simp [State.tripFigure]
@[simp] theorem addCause_reserved (p : Nat) (cause : Word) : (s.addCause p cause).reserved = s.reserved :=
  reserved_of_core (addCause_core ..)
@[simp] theorem trip_reserved (p : Nat) (cause : Word) (mtCause : DWord) (detail : Nat) :
    (s.trip p cause mtCause detail).reserved = s.reserved := by
  unfold State.trip
  split_ifs
  · rfl
  · simp
  · rfl
  · simp only [tell_reserved]
    rw [foldl_reserved]
    · simp
    · intro t q
      split <;> simp
@[simp] theorem pointHeld_reserved (f : Nat) : (s.pointHeld f).reserved = s.reserved := by
  unfold State.pointHeld; simp only; split <;> simp
@[simp] theorem holdPort_reserved (p : Nat) (cause : Word) (mtCause : DWord) (detail ago : Nat) :
    (s.holdPort p cause mtCause detail ago).reserved = s.reserved := by
  unfold State.holdPort; split <;> simp
@[simp] theorem fault_reserved (p : Nat) (cause : Word) (mtCause : DWord) (detail ago : Nat) :
    (s.fault p cause mtCause detail ago).reserved = s.reserved := by
  simp [State.fault]
@[simp] theorem execMonitorQualify_reserved (port m : Nat) : Holds s (execMonitorQualify port m s) := by
  simp [execMonitorQualify]
@[simp] theorem execStageFault_reserved (port : Nat) : Holds s (execStageFault port s) := by
  simp [execStageFault]
@[simp] theorem execStgFltRelease_reserved (port : Nat) : Holds s (execStgFltRelease port s) := by
  simp [execStgFltRelease]
@[simp] theorem execExtTrip_reserved (port : Nat) : Holds s (execExtTrip port s) := by simp [execExtTrip]
@[simp] theorem execOverrunTrip_reserved (port : Nat) : Holds s (execOverrunTrip port s) := by
  simp [execOverrunTrip]
@[simp] theorem execShortCircuitTrip_reserved (port : Nat) : Holds s (execShortCircuitTrip port s) := by
  simp [execShortCircuitTrip]
@[simp] theorem execFrozenFault_reserved (port : Nat) : Holds s (execFrozenFault port s) := by
  simp [execFrozenFault]
@[simp] theorem execUnsettled_reserved (port : Nat) : Holds s (execUnsettled port s) := by
  simp [execUnsettled]
@[simp] theorem execLeadCheckStart_reserved (port : Nat) : Holds s (execLeadCheckStart port s) := by
  simp [execLeadCheckStart]
@[simp] theorem releaseHold_reserved (p : Nat) : (s.releaseHold p).reserved = s.reserved := by
  unfold State.releaseHold; split <;> simp
@[simp] theorem execLeadCheckEnd_reserved (port : Nat) (vs is : LeadIn) (rail : Bool) :
    Holds s (execLeadCheckEnd port vs is rail s) := by
  unfold execLeadCheckEnd; rw [holds_finish]; (repeat' split) <;> simp
@[simp] theorem moveRecord_reserved (r : TripRec) : (s.moveRecord r).reserved = s.reserved := by
  simp [State.moveRecord]
@[simp] theorem execTripRecordMove_reserved (grp : Nat) : Holds s (execTripRecordMove grp s) := by
  unfold execTripRecordMove; rw [holds_finish]; split <;> simp
@[simp] theorem clearLatches_reserved (port mask : Nat) :
    (s.clearLatches port mask).reserved = s.reserved := by
  simp [State.clearLatches]
@[simp] theorem execSupMonClear_reserved (r : Req) (port mask : Nat) :
    Holds s (execSupMonClear r port mask s) :=
  holds_umser fun t => by split <;> simp
@[simp] theorem clearTrip_reserved (p : Nat) : (s.clearTrip p).reserved = s.reserved := by
  simp [State.clearTrip]
@[simp] theorem execSupTripClear_reserved (r : Req) (port : Nat) : Holds s (execSupTripClear r port s) := 
  holds_umser fun t => by (repeat' split) <;> simp
@[simp] theorem execSupTripForce_reserved (r : Req) (port : Nat) : Holds s (execSupTripForce r port s) := 
  holds_umser fun t => by split <;> simp
@[simp] theorem execSupLeadCheck_reserved (r : Req) (port : Nat) : Holds s (execSupLeadCheck r port s) := 
  holds_umser fun t => by split <;> simp
@[simp] theorem execSupHoldRelease_reserved (r : Req) (port : Nat) :
    Holds s (execSupHoldRelease r port s) := 
  holds_umser fun t => by split <;> simp
@[simp] theorem execSupStatusRead_reserved (r : Req) (first count : Nat) :
    Holds s (execSupStatusRead r first count s) :=
  holds_umser fun t => by simp

/-! ### Machine/Sweep.lean -/

@[simp] theorem execSwpTableWrite_reserved (r : Req) (first : Nat) (entries : List (BitVec 256)) :
    Holds s (execSwpTableWrite r first entries s) :=
  holds_editCommand fun t => by (repeat' split) <;> simp
@[simp] theorem execSwpTableRead_reserved (r : Req) (first count : Nat) :
    Holds s (execSwpTableRead r first count s) :=
  holds_umser fun t => by split <;> simp
@[simp] theorem execSwpGenWrite_reserved (r : Req) (fig : Nat) (block : BitVec 512) :
    Holds s (execSwpGenWrite r fig block s) :=
  holds_editCommand fun t => by (repeat' split) <;> simp
@[simp] theorem execSwpStatusRead_reserved (r : Req) (first count : Nat) :
    Holds s (execSwpStatusRead r first count s) :=
  holds_umser fun t => by simp
@[simp] theorem execSwpStart_reserved (r : Req) (fig : Nat) : Holds s (execSwpStart r fig s) := 
  holds_umser fun t => by simp
@[simp] theorem execSwpStop_reserved (r : Req) (fig mode : Nat) : Holds s (execSwpStop r fig mode s) := 
  holds_umser fun t => by simp
@[simp] theorem setLevel_reserved (f : Nat) (level : Int) : (s.setLevel f level).reserved = s.reserved :=
  reserved_of_core (setLevel_core ..)
@[simp] theorem setMode_reserved (f mode : Nat) : (s.setMode f mode).reserved = s.reserved :=
  reserved_of_core (setMode_core ..)
@[simp] theorem ownLevel_reserved (f : Nat) : (s.ownLevel f).reserved = s.reserved :=
  reserved_of_core (ownLevel_core ..)
@[simp] theorem levelWritten_reserved (f : Nat) : (s.levelWritten f).reserved = s.reserved := by
  simp [State.levelWritten]
@[simp] theorem listOutput_reserved (f : Nat) : (s.listOutput f).reserved = s.reserved := by
  simp [State.listOutput]
@[simp] theorem endList_reserved (f state cause : Nat) :
    (s.endList f state cause).reserved = s.reserved := by
  simp [State.endList]
@[simp] theorem slotEnd_reserved (f : Nat) : (s.slotEnd f).reserved = s.reserved :=
  reserved_of_core (slotEnd_core ..)
@[simp] theorem pointEnd_reserved (f state cause : Nat) (extra : BitVec 16) :
    (s.pointEnd f state cause extra).reserved = s.reserved := by
  unfold State.pointEnd; split <;> simp
@[simp] theorem ptFlag_reserved (f : Nat) (m : BitVec 16) : (s.ptFlag f m).reserved = s.reserved := by
  simp [State.ptFlag]
@[simp] theorem execListStart_reserved (fig : Nat) :
    Holds s (execListStart fig s) := by simp [execListStart]
@[simp] theorem ptRangeWork_reserved (f p : Nat) (e : BitVec 256) (anyWay : Bool) :
    (s.ptRangeWork f p e anyWay).reserved = s.reserved := by
  unfold State.ptRangeWork; simp only; (repeat' split) <;> simp
@[simp] theorem ptSiteWork_reserved (f : Nat) (e : BitVec 256) :
    (s.ptSiteWork f e).reserved = s.reserved := by
  simp [State.ptSiteWork]
@[simp] theorem ptAuxAsk_reserved (f : Nat) : (s.ptAuxAsk f).reserved = s.reserved := by
  unfold State.ptAuxAsk; split <;> simp
@[simp] theorem firePoint_reserved (f : Nat) : (s.firePoint f).reserved = s.reserved := by
  simp [State.firePoint]
@[simp] theorem execPointFire_reserved (fig : Nat) :
    Holds s (execPointFire fig s) := by simp [execPointFire]
@[simp] theorem execSiteWaitEnd_reserved (fig : Nat) : Holds s (execSiteWaitEnd fig s) := by
  simp [execSiteWaitEnd]
@[simp] theorem execSettling_reserved (fig : Nat) : Holds s (execSettling fig s) := by
  unfold execSettling
  rw [holds_finish]
  split
  · rfl
  · split
    · extract_lets e m t1 t2 t3 t4
      have h4 : t4.reserved = s.reserved := by
        simp only [t4]
        split <;> simp [t3, t2, t1]
      split <;> simp [h4]
    · rfl
@[simp] theorem ptOpen_reserved (f : Nat) (q : Flight) : (s.ptOpen f q).reserved = s.reserved := by
  unfold State.ptOpen; (repeat' split) <;> simp
@[simp] theorem execDwellEnd_reserved (fig : Nat) : Holds s (execDwellEnd fig s) := by
  unfold execDwellEnd; rw [holds_finish]; split <;> simp
@[simp] theorem waitRefused_reserved (f : Nat) : (s.waitRefused f).reserved = s.reserved := by
  simp [State.waitRefused]
@[simp] theorem cancelRange_reserved (f : Nat) : (s.cancelRange f).reserved = s.reserved := by
  simp [State.cancelRange]
@[simp] theorem cancelSpan_reserved (f : Nat) : (s.cancelSpan f).reserved = s.reserved := by
  simp [State.cancelSpan]
@[simp] theorem cancelDown_reserved (f : Nat) : (s.cancelDown f).reserved = s.reserved := by
  simp [State.cancelDown]
@[simp] theorem execRangeWaitTimeout_reserved (fig : Nat) : Holds s (execRangeWaitTimeout fig s) := by
  unfold execRangeWaitTimeout; rw [holds_finish]; split <;> simp
@[simp] theorem stepLevel_reserved (f : Nat) (level : Int) :
    (s.stepLevel f level).reserved = s.reserved := by
  simp [State.stepLevel]
@[simp] theorem execPulseLeadingEdge_reserved (fig : Nat) : Holds s (execPulseLeadingEdge fig s) := by
  unfold execPulseLeadingEdge; rw [holds_finish]; split <;> simp
@[simp] theorem ptMeasured_reserved (f point : Nat) : (s.ptMeasured f point).reserved = s.reserved := by
  unfold State.ptMeasured; split <;> simp
@[simp] theorem apFinish_reserved (f : Nat) : (s.apFinish f).reserved = s.reserved := by
  unfold State.apFinish; split <;> simp
@[simp] theorem execApertureClose_reserved (fig : Nat) : Holds s (execApertureClose fig s) := by
  simp [execApertureClose]
@[simp] theorem apGone_reserved (f : Nat) (a : Aperture) : (s.apGone f a).reserved = s.reserved := by
  unfold State.apGone; split <;> simp
@[simp] theorem execApertureOpen_reserved (fig : Nat) : Holds s (execApertureOpen fig s) := by
  unfold execApertureOpen; rw [holds_finish]; split <;> simp
@[simp] theorem aperturesLost_reserved : s.aperturesLost.reserved = s.reserved := by
  refine foldl_reserved _ (fun t e => ?_) _ _
  split <;> simp
@[simp] theorem execPulseTrailingEdge_reserved (fig : Nat) : Holds s (execPulseTrailingEdge fig s) := by
  unfold execPulseTrailingEdge; rw [holds_finish]; split <;> simp
@[simp] theorem listReplaced_reserved (f : Nat) : (s.listReplaced f).reserved = s.reserved := by
  simp [State.listReplaced]
@[simp] theorem execListEnd_reserved (fig : Nat) : Holds s (execListEnd fig s) := by simp [execListEnd]
@[simp] theorem stopNow_reserved (f : Nat) : (s.stopNow f).reserved = s.reserved := by simp [State.stopNow]
@[simp] theorem execPointReport_reserved (fig : Nat) : Holds s (execPointReport fig s) := by
  unfold execPointReport; rw [holds_finish]; split <;> simp

/-! ### Machine/Eval.lean -/

@[simp] theorem leFlag_reserved (p : Nat) (m : Word) : (s.leFlag p m).reserved = s.reserved := by
  simp [State.leFlag]
@[simp] theorem reportGov_reserved (p gov : Nat) (fig : Option Nat) :
    (s.reportGov p gov fig).reserved = s.reserved := by
  unfold State.reportGov; (repeat' split) <;> simp
@[simp] theorem memberWrite_reserved (w : Work) (b : Bounds) (gov : Nat) (out : OutState) (sp : Int)
    (inj : Option Nat) (anySat : Bool) (k : Member) :
    (s.memberWrite w b gov out sp inj anySat k).reserved = s.reserved := by
  simp [State.memberWrite]
@[simp] theorem outerWrite_reserved (w : Work) (b : Bounds) (sel : Selected)
    (clip folded anySat window : Bool) :
    (s.outerWrite w b sel clip folded anySat window).reserved = s.reserved := by
  simp [State.outerWrite]
@[simp] theorem tuneEntry_reserved (g f : Nat) (d : Int) (stamp : DWord) :
    (s.tuneEntry g f d stamp).reserved = s.reserved := by
  unfold State.tuneEntry; split <;> simp
@[simp] theorem evalFigure_reserved (f m : Nat) (mem : List Nat) (x : PeriodIn) :
    (s.evalFigure f m mem x).reserved = s.reserved := by
  simp [State.evalFigure]
@[simp] theorem openChannel_reserved (p : Nat) (x : PeriodIn) :
    (s.openChannel p x).reserved = s.reserved := by
  simp [State.openChannel]
@[simp] theorem overruns_reserved (p : Nat) (x : PeriodIn) : (s.overruns p x).reserved = s.reserved := by
  simp [State.overruns]
@[simp] theorem evalGroup_reserved (g : Nat) (x : PeriodIn) : (s.evalGroup g x).reserved = s.reserved := by
  refine foldl_reserved _ (fun t k => ?_) _ _
  simp only [overruns_reserved]
  split <;> simp

/-! ### Machine/Watch.lean -/

@[simp] theorem modelStep_reserved (p : Nat) (window span sat : Bool) :
    (s.modelStep p window span sat).reserved = s.reserved := by
  simp [State.modelStep]
@[simp] theorem residualFault_reserved (p : Nat) : (s.residualFault p).reserved = s.reserved := by
  simp [State.residualFault]
@[simp] theorem pendRange_reserved (p : Nat) (b : Option Nat) :
    (s.pendRange p b).reserved = s.reserved := by
  simp [State.pendRange]
@[simp] theorem pendSpan_reserved (p : Nat) (v : Option Nat) : (s.pendSpan p v).reserved = s.reserved := by
  simp [State.pendSpan]
@[simp] theorem waitFlag_reserved (m : Nat) :
    (s.waitFlag m).reserved = s.reserved := by simp [State.waitFlag]
@[simp] theorem autoRange_reserved (f m : Nat) : (s.autoRange f m).reserved = s.reserved := by
  unfold State.autoRange
  extract_lets x o live q y d downN bar a off go put
  have hput (t : State) : (put t).reserved = t.reserved := by simp [put]
  clear_value go put
  split
  · rfl
  · split
    · extract_lets n t
      have ht : t.reserved = s.reserved := by simp [t, hput]
      clear_value n t
      split_ifs
      · simp [hput]
      · simp
      · simp
      · simp
      · split
        · split <;> simp [ht]
        · exact ht
    · split <;> simp [hput]
@[simp] theorem autoSpan_reserved (f m : Nat) : (s.autoSpan f m).reserved = s.reserved := by
  unfold State.autoSpan
  extract_lets x o live downN change bar low a off go put
  have hput (t : State) : (put t).reserved = t.reserved := by simp [put]
  have hchange (t : State) (v : Nat) : (change t v).reserved = t.reserved := by simp [change]
  clear_value go put change
  split
  · rfl
  · split
    · extract_lets n t
      have ht : t.reserved = s.reserved := by simp [t, hput]
      clear_value n t
      split_ifs
      · simp [hput]
      · simp [hchange]
      · simp [hchange]
      · simp [hchange]
      · split
        · split <;> simp [hchange, ht]
        · exact ht
    · split <;> simp [hput, hchange]
@[simp] theorem snapBuild_reserved (p : Nat) : (s.snapBuild p).reserved = s.reserved := by
  unfold State.snapBuild; split <;> simp
@[simp] theorem snapTake_reserved (p : Nat) : (s.snapTake p).reserved = s.reserved := by
  unfold State.snapTake; simp only; split <;> simp

/-! ### Machine/Wipe.lean -/

@[simp] theorem wipeAsk_reserved (g off sel : Nat) (v : Word) :
    (s.wipeAsk g off sel v).reserved = s.reserved := by
  simp [State.wipeAsk]
@[simp] theorem wipeNow_reserved (w : W1c) : (s.wipeNow w).reserved = s.reserved := by simp [State.wipeNow]
@[simp] theorem wipeFlags_reserved (g : Nat) : (s.wipeFlags g).reserved = s.reserved := by
  simp [State.wipeFlags]
@[simp] theorem wipeCounters_reserved (g : Nat) : (s.wipeCounters g).reserved = s.reserved := by
  simp [State.wipeCounters]
@[simp] theorem clearsNow_reserved (p : Nat) : (s.clearsNow p).reserved = s.reserved := by
  simp [State.clearsNow]
@[simp] theorem actionsNow_reserved (g : Nat) : (s.actionsNow g).reserved = s.reserved := by
  simp [State.actionsNow]

/-! ### Machine/Period.lean -/

@[simp] theorem shadowPort_reserved (p : Nat) : (s.shadowPort p).reserved = s.reserved := by
  unfold State.shadowPort; split <;> simp
@[simp] theorem reWarm_reserved : s.reWarm.reserved = s.reserved := by simp [State.reWarm]
@[simp] theorem drivePort_reserved (p : Nat) : (s.drivePort p).reserved = s.reserved := by
  unfold State.drivePort; split <;> simp
@[simp] theorem shadowApply_reserved (g : Nat) : (s.shadowApply g).reserved = s.reserved := by
  simp [State.shadowApply]
@[simp] theorem tickStart_reserved (g : Nat) : (s.tickStart g).reserved = s.reserved := by
  simp [State.tickStart]
@[simp] theorem strobePort_reserved (p : Nat) : (s.strobePort p).reserved = s.reserved := by
  simp [State.strobePort]
@[simp] theorem siteStrobe_reserved (p : Nat) : (s.siteStrobe p).reserved = s.reserved := by
  unfold State.siteStrobe; simp only; (repeat' split) <;> simp
@[simp] theorem latchClear_reserved (p : Nat) : (s.latchClear p).reserved = s.reserved := by
  simp [State.latchClear]
@[simp] theorem forcedTrip_reserved (p : Nat) : (s.forcedTrip p).reserved = s.reserved := by
  simp [State.forcedTrip]
@[simp] theorem figTick_reserved (f : Nat) : (s.figTick f).reserved = s.reserved := by simp [State.figTick]
@[simp] theorem tuneTick_reserved (g : Nat) : (s.tuneTick g).reserved = s.reserved := by
  unfold State.tuneTick; split <;> simp
@[simp] theorem powerTake_reserved (p : Nat) : (s.powerTake p).reserved = s.reserved := by
  simp [State.powerTake]
@[simp] theorem tapsLost_reserved (g : Nat) :
    (s.tapsLost g).reserved = s.reserved := by simp [State.tapsLost]
@[simp] theorem snapAnswer_reserved (w : SnapReq) : (s.snapAnswer w).reserved = s.reserved := by
  simp [State.snapAnswer]
@[simp] theorem snapTick_reserved (g : Nat) (common : Bool) :
    (s.snapTick g common).reserved = s.reserved := by
  simp [State.snapTick]
@[simp] theorem measNow_reserved (p : Nat) : (s.measNow p).reserved = s.reserved := by simp [State.measNow]
@[simp] theorem shortFlag_reserved (p : Nat) (x : PeriodIn) : (s.shortFlag p x).reserved = s.reserved := by
  simp [State.shortFlag]
@[simp] theorem leadTick_reserved (p : Nat) :
    (s.leadTick p).reserved = s.reserved := by simp [State.leadTick]
@[simp] theorem apTicks_reserved (g : Nat) : (s.apTicks g).reserved = s.reserved := by simp [State.apTicks]
@[simp] theorem autoTick_reserved (p : Nat) : (s.autoTick p).reserved = s.reserved := by
  unfold State.autoTick; split <;> simp
@[simp] theorem enableTick_reserved (p : Nat) : (s.enableTick p).reserved = s.reserved := by
  unfold State.enableTick; simp only; split <;> simp
@[simp] theorem modelTick_reserved (before : State) (p : Nat) :
    (State.modelTick before s p).reserved = s.reserved := by
  simp [State.modelTick]
@[simp] theorem period_reserved (g : Nat) (x : PeriodIn) : (s.period g x).reserved = s.reserved := by
  simp [State.period]
@[simp] theorem execLoopPeriodBoundary_reserved (grp : Nat) (p : PeriodIn) :
    Holds s (execLoopPeriodBoundary grp p s) := by
  simp [execLoopPeriodBoundary]
@[simp] theorem takeTemp_reserved (p : Nat) (temp : Int) : (s.takeTemp p temp).reserved = s.reserved := by
  simp [State.takeTemp]
@[simp] theorem execAuxEntryEnd_reserved (grp : Nat) (inputs : List Int) :
    Holds s (execAuxEntryEnd grp inputs s) := by
  unfold execAuxEntryEnd
  simp only [holds_finish]
  split
  · split <;> simp
  · rfl

/-! ### Machine/Front.lean -/

@[simp] theorem modPfe_reserved (f : Pfe → Pfe) :
    (s.modPfe f).reserved = s.reserved := by simp [State.modPfe]
@[simp] theorem modPri_reserved (f : Primary → Primary) : (s.modPri f).reserved = s.reserved := by
  simp [State.modPri]
@[simp] theorem modIso_reserved (f : Iso → Iso) :
    (s.modIso f).reserved = s.reserved := by simp [State.modIso]
@[simp] theorem pfeFault_reserved (m : Word) : (s.pfeFault m).reserved = s.reserved := by
  simp [State.pfeFault]
@[simp] theorem pfeFault_peat (m : Word) : (s.pfeFault m).peat = s.peat := rfl
@[simp] theorem pfeFault_rst (m : Word) : (s.pfeFault m).rst = s.rst := rfl
@[simp] theorem priFault_reserved (m : Word) : (s.priFault m).reserved = s.reserved := by
  simp [State.priFault]
@[simp] theorem pfcTry_reserved : s.pfcTry.reserved = s.reserved := by simp [State.pfcTry]
@[simp] theorem pfcStop_reserved (wait : Nat) : (s.pfcStop wait).reserved = s.reserved := by
  simp [State.pfcStop]
@[simp] theorem windDown_reserved : s.windDown.reserved = s.reserved := by simp [State.windDown]
@[simp] theorem huStart_reserved : s.huStart.reserved = s.reserved := by simp [State.huStart]
@[simp] theorem mainsLoss_reserved (iso : Bool) : (s.mainsLoss iso).reserved = s.reserved := by
  simp [State.mainsLoss]
@[simp] theorem huNormal_reserved : s.huNormal.reserved = s.reserved := by simp [State.huNormal]
@[simp] theorem execMainsLost_reserved : Holds s (execMainsLost s) := by simp [execMainsLost]
@[simp] theorem frameToPrimary_reserved : s.frameToPrimary.reserved = s.reserved := by
  simp [State.frameToPrimary]
@[simp] theorem execIsoFrameSend_reserved : Holds s (execIsoFrameSend s) := by simp [execIsoFrameSend]
@[simp] theorem frameArrives_reserved (crcOk : Bool) : (s.frameArrives crcOk).reserved = s.reserved := by
  simp [State.frameArrives]
@[simp] theorem takeReports_reserved : s.takeReports.reserved = s.reserved := by simp [State.takeReports]
@[simp] theorem execIsoFrameReceive_reserved (f : IsoIn) : Holds s (execIsoFrameReceive f s) := by
  unfold execIsoFrameReceive; rw [holds_finish]; split <;> simp
@[simp] theorem execIsoChannelFail_reserved (secondary : Bool) :
    Holds s (execIsoChannelFail secondary s) := by
  simp [execIsoChannelFail]
@[simp] theorem execIsoChannelRestore_reserved (secondary : Bool) :
    Holds s (execIsoChannelRestore secondary s) := by
  simp [execIsoChannelRestore]
@[simp] theorem execVccPStart_reserved : Holds s (execVccPStart s) := by simp [execVccPStart]
@[simp] theorem flybackOff_reserved : s.flybackOff.reserved = s.reserved := by simp [State.flybackOff]
@[simp] theorem execVccPLow_reserved : Holds s (execVccPLow s) := by simp [execVccPLow]
@[simp] theorem execAuxSecondaryRegulation_reserved : Holds s (execAuxSecondaryRegulation s) := by
  simp [execAuxSecondaryRegulation]
@[simp] theorem execRelayClose_reserved : Holds s (execRelayClose s) := by
  unfold execRelayClose; rw [holds_finish]; split <;> simp
@[simp] theorem execRelayCheck_reserved (sensed : Bool) : Holds s (execRelayCheck sensed s) := by
  simp [execRelayCheck]
@[simp] theorem relayRetry_reserved : s.relayRetry.reserved = s.reserved := by simp [State.relayRetry]
@[simp] theorem execRelayFaultRetry_reserved : Holds s (execRelayFaultRetry s) := by
  simp [execRelayFaultRetry]
@[simp] theorem execBulkOkChange_reserved (ok : Bool) : Holds s (execBulkOkChange ok s) := by
  simp [execBulkOkChange]
@[simp] theorem execPfcOvercurrent_reserved : Holds s (execPfcOvercurrent s) := by simp [execPfcOvercurrent]
@[simp] theorem execBulkOvervoltage_reserved (high : Bool) : Holds s (execBulkOvervoltage high s) := by
  simp [execBulkOvervoltage]
@[simp] theorem execBulkUndervoltage_reserved : Holds s (execBulkUndervoltage s) := by
  simp [execBulkUndervoltage]
@[simp] theorem execLineLoss_reserved : Holds s (execLineLoss s) := by simp [execLineLoss]
@[simp] theorem execPrimaryOverTemperature_reserved (hot : Bool) :
    Holds s (execPrimaryOverTemperature hot s) := by
  simp [execPrimaryOverTemperature]
@[simp] theorem execPriWarn_reserved : Holds s (execPriWarn s) := by simp [execPriWarn]
@[simp] theorem execFlybackStop_reserved : Holds s (execFlybackStop s) := by
  unfold execFlybackStop; rw [holds_finish]; split <;> simp
@[simp] theorem execHoldupEstimate_reserved (vbulk : Option Nat) (linePeak lineRms : Nat) (temp : Int)
    (power : AuxPower) :
    Holds s (execHoldupEstimate vbulk linePeak lineRms temp power s) := by
  simp [execHoldupEstimate]
@[simp] theorem execRideTimeout_reserved : Holds s (execRideTimeout s) := by simp [execRideTimeout]
@[simp] theorem closeRanges_reserved : s.closeRanges.reserved = s.reserved := by simp [State.closeRanges]
@[simp] theorem mireCommit_reserved : s.mireCommit.reserved = s.reserved := by simp [State.mireCommit]
@[simp] theorem execCommit_reserved : Holds s (execCommit s) := by simp [execCommit]
@[simp] theorem execCommitEnd_reserved : Holds s (execCommitEnd s) := by
  unfold execCommitEnd
  simp only [holds_finish]
  split_ifs <;> simp
@[simp] theorem execHoldupRestore_reserved : Holds s (execHoldupRestore s) := by simp [execHoldupRestore]
@[simp] theorem execDcFail_reserved : Holds s (execDcFail s) := by simp [execDcFail]
@[simp] theorem dieWarn_reserved (die : Nat) (temp : Int) : (s.dieWarn die temp).reserved = s.reserved := by
  simp [State.dieWarn]

/-! ### Machine/LoopCmd.lean -/

@[simp] theorem execLoopCoefWrite_reserved (r : Req) (fig : Nat) (block : BitVec 640) :
    Holds s (execLoopCoefWrite r fig block s) :=
  holds_editCommand fun t => by (repeat' split) <;> simp
@[simp] theorem execLoopCoefRead_reserved (r : Req) (fig mask : Nat) :
    Holds s (execLoopCoefRead r fig mask s) :=
  holds_umser fun t => by simp
@[simp] theorem execLoopFfWrite_reserved (r : Req) (port half : Nat) (table : List (BitVec 16)) :
    Holds s (execLoopFfWrite r port half table s) :=
  holds_editCommand fun t => by split <;> simp
@[simp] theorem execLoopFfRead_reserved (r : Req) (port half : Nat) :
    Holds s (execLoopFfRead r port half s) :=
  holds_umser fun t => by split <;> simp
@[simp] theorem execTuneStart_reserved (r : Req) (fig member point wave prbsL dec : Nat) (amp : Int)
    (ftw n : Nat) (start : DWord) :
    Holds s (execTuneStart r fig member point wave prbsL dec amp ftw n start s) :=
  holds_umser fun t => by (repeat' split) <;> simp
@[simp] theorem execTuneStop_reserved (r : Req) (grp : Nat) : Holds s (execTuneStop r grp s) := 
  holds_umser fun t => by (repeat' split) <;> simp

/-! ### Machine/Swap.lean -/

@[simp] theorem leaveCast_reserved (c : CfgSet) : (s.leaveCast c).reserved = s.reserved := by
  simp [State.leaveCast]
@[simp] theorem castIn_reserved (c : CfgSet) : (s.castIn c).reserved = s.reserved := by simp [State.castIn]
@[simp] theorem groupIn_reserved (s old : State) (g : Nat) : (s.groupIn old g).reserved = s.reserved := by
  simp [State.groupIn]
@[simp] theorem dataIn_reserved : s.dataIn.reserved = s.reserved := by simp [State.dataIn]
@[simp] theorem rebaseLoop_reserved (s old : State) (f p loop : Nat) (w : Work) :
    (s.rebaseLoop old f p loop w).reserved = s.reserved := by
  unfold State.rebaseLoop; split <;> simp
@[simp] theorem keepBlocks_reserved (s old : State) (f : Nat) :
    (s.keepBlocks old f).reserved = s.reserved := by
  unfold State.keepBlocks; simp only; split <;> simp
@[simp] theorem keepRange_reserved (s old : State) (f : Nat) :
    (s.keepRange old f).reserved = s.reserved := by
  unfold State.keepRange; simp only; (repeat' split) <;> simp
@[simp] theorem keepList_reserved (s old : State) (f : Nat) : (s.keepList old f).reserved = s.reserved := by
  simp [State.keepList]
@[simp] theorem keepShare_reserved (s old : State) (f : Nat) :
    (s.keepShare old f).reserved = s.reserved := by
  unfold State.keepShare; split <;> simp
@[simp] theorem keepFigure_reserved (s old : State) (f : Nat) :
    (s.keepFigure old f).reserved = s.reserved := by
  simp [State.keepFigure]
@[simp] theorem firstEnable_reserved (f : Nat) : (s.firstEnable f).reserved = s.reserved := by
  simp [State.firstEnable]
@[simp] theorem figEnable_reserved (f : Nat) : (s.figEnable f).reserved = s.reserved := by
  simp [State.figEnable]
@[simp] theorem routeRunner_reserved (f : Nat) : (s.routeRunner f).reserved = s.reserved := by
  unfold State.routeRunner; split <;> simp
@[simp] theorem figuresIn_reserved (s old : State) : (s.figuresIn old).reserved = s.reserved := by
  simp [State.figuresIn]
@[simp] theorem frontIn_reserved (s old : State) : (s.frontIn old).reserved = s.reserved := by
  simp [State.frontIn]
@[simp] theorem swapped_reserved (s s0 : State) (internal paired : Bool) :
    (s.swapped s0 internal paired).reserved = s.reserved := by
  simp [State.swapped]
@[simp] theorem bringIn_reserved (c : CfgSet) (paired : Bool) :
    (s.bringIn c paired).reserved = s.reserved := by
  simp [State.bringIn]

/-! ### Machine/Unveil.lean -/

@[simp] theorem freeze_reserved : s.freeze.reserved = s.reserved := by simp [State.freeze]
@[simp] theorem execSetUnveil_reserved (r : Req) (expect : Option Word) (at_ : Option DWord) :
    Holds s (execSetUnveil r expect at_ s) :=
  holds_umser fun t => by simp
@[simp] theorem execSetValidate_reserved (r : Req) (expect : Option Word) :
    Holds s (execSetValidate r expect s) :=
  holds_umser fun t => by simp
@[simp] theorem execPlacePreview_reserved (r : Req) (first count : Nat) :
    Holds s (execPlacePreview r first count s) :=
  holds_umser fun t => by simp
@[simp] theorem execLoopSchedRead_reserved (r : Req) : Holds s (execLoopSchedRead r s) := 
  holds_umser fun t => by simp
@[simp] theorem modOutst_reserved (opcode : Nat) (f : Outstanding → Outstanding) :
    (s.modOutst opcode f).reserved = s.reserved := by
  simp [State.modOutst]
@[simp] theorem handOver_reserved (x : Transfer) : (s.handOver x).reserved = s.reserved := by
  simp [State.handOver]
@[simp] theorem execUnveilTransfer_reserved : Holds s (execUnveilTransfer s) := by
  unfold execUnveilTransfer; rw [holds_finish]; (repeat' split) <;> simp
@[simp] theorem pairSwap_reserved (x : Transfer) : (s.pairSwap x).reserved = s.reserved := by
  simp [State.pairSwap]
@[simp] theorem execUnveilSwap_reserved : Holds s (execUnveilSwap s) := by
  unfold execUnveilSwap; rw [holds_finish]; split <;> simp
@[simp] theorem execMaquetteCopyEnd_reserved : Holds s (execMaquetteCopyEnd s) := by
  simp [execMaquetteCopyEnd]
@[simp] theorem validateEnd_reserved : s.validateEnd.reserved = s.reserved := by
  unfold State.validateEnd; split <;> simp
@[simp] theorem previewEnd_reserved (o : Outstanding) : (s.previewEnd o).reserved = s.reserved := by
  unfold State.previewEnd; split <;> simp
@[simp] theorem execValidationEnd_reserved : Holds s (execValidationEnd s) := by
  unfold execValidationEnd; rw [holds_finish]; split <;> simp
@[simp] theorem noTarget_reserved (f : Nat) :
    (s.noTarget f).reserved = s.reserved := by simp [State.noTarget]
@[simp] theorem execMigration_reserved (port : Nat) : Holds s (execMigration port s) := by
  simp [execMigration]
@[simp] theorem reshare_reserved (s old : State) (ports : List Nat) :
    (s.reshare old ports).reserved = s.reserved := by
  simp [State.reshare]
@[simp] theorem migrated_reserved (m : List Nat) (f : Nat) (cause tripSeq : Word) :
    (s.migrated m f cause tripSeq).reserved = s.reserved := by
  simp [State.migrated]
@[simp] theorem internalIn_reserved (x : Transfer) : (s.internalIn x).reserved = s.reserved := by
  simp [State.internalIn]
@[simp] theorem execInternalUnveil_reserved : Holds s (execInternalUnveil s) := by
  unfold execInternalUnveil; rw [holds_finish]; split <;> simp
@[simp] theorem liveIn_reserved (key : Nat) (v : Word) : (s.liveIn key v).reserved = s.reserved := by
  simp [State.liveIn]
@[simp] theorem execLiveWriteApply_reserved : Holds s (execLiveWriteApply s) := by
  unfold execLiveWriteApply; rw [holds_finish]; split <;> simp

/-! ### Machine/Calib.lean -/

@[simp] theorem execCalStatusRead_reserved (r : Req) : Holds s (execCalStatusRead r s) := 
  holds_umser fun t => by simp
@[simp] theorem arbTake_reserved (a : Nat) (c : SelfCal) : (s.arbTake a c).1.reserved = s.reserved := by
  simp [State.arbTake]
@[simp] theorem extArbs_reserved (k : Nat) (l : List SelfCal) :
    (s.extArbs k l).1.reserved = s.reserved := by
  induction l generalizing s k with
  | nil => rfl
  | cons c l ih => simp only [State.extArbs, ih, arbTake_reserved]
@[simp] theorem arbStart_reserved (mask : BitVec 4) : (s.arbStart mask).reserved = s.reserved := by
  simp [State.arbStart]
@[simp] theorem arbNext_reserved : s.arbNext.reserved = s.reserved := by simp [State.arbNext]
@[simp] theorem mainsStart_reserved : s.mainsStart.reserved = s.reserved := by simp [State.mainsStart]
@[simp] theorem assign_reserved (vRef iCal : Int) (date : Word) (src : Nat) :
    (s.assign vRef iCal date src).reserved = s.reserved := by
  simp [State.assign]
@[simp] theorem assignMire_reserved : s.assignMire.reserved = s.reserved := by
  unfold State.assignMire; split <;> simp
@[simp] theorem calAdvance_reserved : s.calAdvance.reserved = s.reserved := by simp [State.calAdvance]
@[simp] theorem execCalStartup_reserved : Holds s (execCalStartup s) := by simp [execCalStartup]
@[simp] theorem execArbiterSelfCalDue_reserved : Holds s (execArbiterSelfCalDue s) := by
  simp [execArbiterSelfCalDue]
@[simp] theorem execCalArbSelf_reserved (r : Req) (mask : BitVec 4) : Holds s (execCalArbSelf r mask s) := 
  holds_umser fun t => by simp
@[simp] theorem arbEnded_reserved (a cause : Nat) : (s.arbEnded a cause).reserved = s.reserved := by
  simp [State.arbEnded]
@[simp] theorem execArbiterSelfCalEnd_reserved (arb : Nat) (c : SelfCal) :
    Holds s (execArbiterSelfCalEnd arb c s) := by
  simp [execArbiterSelfCalEnd]
@[simp] theorem execCalMainsSelf_reserved (r : Req) : Holds s (execCalMainsSelf r s) := 
  holds_umser fun t => by simp
@[simp] theorem mainsFailed_reserved (ch cause : Nat) : (s.mainsFailed ch cause).reserved = s.reserved := by
  simp [State.mainsFailed]
@[simp] theorem execMainsConverterExchange_reserved (c : SelfCal) :
    Holds s (execMainsConverterExchange c s) := by
  simp [execMainsConverterExchange]
@[simp] theorem execMainsConverterSelfCalEnd_reserved (c : SelfCal) :
    Holds s (execMainsConverterSelfCalEnd c s) := by
  simp [execMainsConverterSelfCalEnd]
@[simp] theorem execCalRefWrite_reserved (r : Req) (vRef iCal : Int) (date : Word) :
    Holds s (execCalRefWrite r vRef iCal date s) :=
  holds_umser fun t => by simp
@[simp] theorem execCalExt_reserved (r : Req) (nominal : Int) (tol rs : Nat) (date : Word) :
    Holds s (execCalExt r nominal tol rs date s) :=
  holds_umser fun t => by simp
@[simp] theorem execCalIsrc_reserved (r : Req) (mode : Nat) : Holds s (execCalIsrc r mode s) := 
  holds_umser fun t => by simp
@[simp] theorem execIsrcLimit_reserved : Holds s (execIsrcLimit s) := by simp [execIsrcLimit]
@[simp] theorem extFailed_reserved (cause object : Nat) :
    (s.extFailed cause object).reserved = s.reserved := by
  simp [State.extFailed]
@[simp] theorem execCalExtEnd_reserved (c : ExtCal) : Holds s (execCalExtEnd c s) := by
  unfold execCalExtEnd
  rw [holds_finish]
  split
  · rfl
  · split
    · rfl
    · simp
@[simp] theorem limitsAt_reserved (g : Nat) :
    (s.limitsAt g).reserved = s.reserved := by simp [State.limitsAt]
@[simp] theorem setsEnd_reserved (g slice cause : Nat) (sets : List (Nat × Factors)) :
    (s.setsEnd g slice cause sets).1.reserved = s.reserved := by
  unfold State.setsEnd; simp only; split <;> simp
@[simp] theorem execSpareSlotDue_reserved : Holds s (execSpareSlotDue s) := by simp [execSpareSlotDue]
@[simp] theorem execCalSpare_reserved (r : Req) : Holds s (execCalSpare r s) := 
  holds_umser fun t => by simp
@[simp] theorem slotEnded_reserved (bus passed cause : Nat) :
    (s.slotEnded bus passed cause).reserved = s.reserved := by
  simp [State.slotEnded]
@[simp] theorem execSpareSlotStart_reserved (bus : Nat) : Holds s (execSpareSlotStart bus s) := by
  simp [execSpareSlotStart]
@[simp] theorem spareEnd_reserved (x : SpareCal) : (s.spareEnd x).1.reserved = s.reserved := by
  simp [State.spareEnd]
@[simp] theorem execSpareSlotEnd_reserved (bus : Nat) (spares : List SpareCal) :
    Holds s (execSpareSlotEnd bus spares s) := by
  unfold execSpareSlotEnd
  simp only [holds_finish]
  split
  · simp [foldl_pair_reserved]
  · rfl
@[simp] theorem passBegin_reserved (g : Nat) : (s.passBegin g).reserved = s.reserved := by
  simp [State.passBegin]
@[simp] theorem slotBegin_reserved (g : Nat) : (s.slotBegin g).reserved = s.reserved := by
  unfold State.slotBegin; split <;> simp
@[simp] theorem execPatinaPassStart_reserved (grp : Nat) : Holds s (execPatinaPassStart grp s) := by
  simp [execPatinaPassStart]
@[simp] theorem demandEnd_reserved (g : Nat) (c : CheckReq) (r : ShareResult) :
    (s.demandEnd g c r).reserved = s.reserved := by
  simp [State.demandEnd]
@[simp] theorem execShareCheckEnd_reserved (grp : Nat) (own spare : List Int) (novr : List Nat) :
    Holds s (execShareCheckEnd grp own spare novr s) := by
  unfold execShareCheckEnd
  simp only [holds_finish]
  split
  · rfl
  · split
    · split
      · rfl
      · split
        · split <;> simp
        · simp
    · simp
    · rfl
@[simp] theorem passEnd_reserved (g : Nat) (p : Pass) : (s.passEnd g p).reserved = s.reserved := by
  simp [State.passEnd]
@[simp] theorem passHanded_reserved (g : Nat) (p : Pass) : (s.passHanded g p).reserved = s.reserved := by
  simp [State.passHanded]
@[simp] theorem execCarryHandover_reserved (grp : Nat) : Holds s (execCarryHandover grp s) := by
  unfold execCarryHandover; rw [holds_finish]; (repeat' split) <;> simp
@[simp] theorem execPatinaSetsComputed_reserved (grp : Nat) (sets : List (Nat × Factors)) :
    Holds s (execPatinaSetsComputed grp sets s) := by
  unfold execPatinaSetsComputed; rw [holds_finish]; split <;> simp
@[simp] theorem execPathTestEnd_reserved (grp : Nat) (readings : List (List (List Int))) :
    Holds s (execPathTestEnd grp readings s) := by
  unfold execPathTestEnd
  rw [holds_finish]
  split
  · split
    · simp only [complete_reserved]
      split <;> simp
    · rfl
  · rfl
@[simp] theorem setsIn_reserved (g : Nat) : (s.setsIn g).reserved = s.reserved := by simp [State.setsIn]
@[simp] theorem handBack_reserved (g : Nat) : (s.handBack g).reserved = s.reserved := by
  unfold State.handBack; split <;> simp
@[simp] theorem govern_reserved : s.govern.reserved = s.reserved := by
  unfold State.govern; simp only; (repeat' split) <;> simp
@[simp] theorem execMainsCycleBoundary_reserved (grp : Nat) (tDie : Int) :
    Holds s (execMainsCycleBoundary grp tDie s) := by
  simp [execMainsCycleBoundary]

/-! ### Machine/Reset.lean -/

@[simp] theorem calCut_reserved : s.calCut.reserved = s.reserved := by simp [State.calCut]
@[simp] theorem disown_reserved : s.disown.reserved = s.reserved := by simp [State.disown]
@[simp] theorem commitErrors_reserved : s.commitErrors.reserved = s.reserved := by
  simp [State.commitErrors]
@[simp] theorem moveTrips_reserved : s.moveTrips.reserved = s.reserved := by simp [State.moveTrips]
@[simp] theorem depart_reserved (kind level : Nat) (src : BitVec 8) :
    (s.depart kind level src).reserved = s.reserved := by
  simp [State.depart]
@[simp] theorem orderedActions_reserved : s.orderedActions.reserved = s.reserved := by
  simp [State.orderedActions]
@[simp] theorem settleRole_reserved (role : Role) : (s.settleRole role).reserved = s.reserved := by
  unfold State.settleRole
  extract_lets seats t code t'
  have ht : t'.reserved = s.reserved := rfl
  split <;> simp [ht]
@[simp] theorem calFuses_reserved : s.calFuses.reserved = s.reserved := by simp [State.calFuses]
@[simp] theorem reportLoss_reserved (qid cause : Nat) (first last count era : Word) :
    (s.reportLoss qid cause first last count era).reserved = s.reserved := by
  simp [State.reportLoss]
@[simp] theorem reportSaved_reserved : s.reportSaved.reserved = s.reserved := by simp [State.reportSaved]
@[simp] theorem reportRange_reserved (era : Word) (r : LossRange) :
    (s.reportRange era r).reserved = s.reserved := by
  simp [State.reportRange]
@[simp] theorem reportExcess_reserved : s.reportExcess.reserved = s.reserved := by
  simp [State.reportExcess]
@[simp] theorem reportPeat_reserved : s.reportPeat.reserved = s.reserved := by simp [State.reportPeat]
@[simp] theorem pagesLost_reserved : s.pagesLost.reserved = s.reserved := by simp [State.pagesLost]
@[simp] theorem reportApertures_reserved : s.reportApertures.reserved = s.reserved := by
  simp [State.reportApertures]
@[simp] theorem reportRestart_reserved : s.reportRestart.reserved = s.reserved := by
  simp [State.reportRestart]
@[simp] theorem recordCut_reserved : s.recordCut.reserved = s.reserved := by simp [State.recordCut]
@[simp] theorem execDescReadsEnd_reserved (grp : Nat) (reads : List (Nat × Option (BitVec 2048))) :
    Holds s (execDescReadsEnd grp reads s) := by
  simp [execDescReadsEnd]
@[simp] theorem execRstFuseProgram_reserved (r : Req) (map : Word) (lock : Bool) (key : Nat) :
    Holds s (execRstFuseProgram r map lock key s) :=
  holds_umser fun t => by simp
@[simp] theorem execGrpReset_reserved (r : Req) (mask : BitVec 16) : Holds s (execGrpReset r mask s) := 
  holds_umser fun t => by (repeat' split) <;> simp
@[simp] theorem checksCut_reserved (g : Nat) : (s.checksCut g).reserved = s.reserved := by
  simp [State.checksCut]
@[simp] theorem execGroupContextResetStart_reserved (grp : Nat) :
    Holds s (execGroupContextResetStart grp s) := by
  simp [execGroupContextResetStart]
@[simp] theorem passCut_reserved (g : Nat) : (s.passCut g).reserved = s.reserved := by
  unfold State.passCut; split <;> simp
@[simp] theorem execGroupContextResetEnd_reserved (grp : Nat) :
    Holds s (execGroupContextResetEnd grp s) := by
  simp [execGroupContextResetEnd]

/-! ### Machine/Twin.lean -/

@[simp] theorem setLink_reserved (l : Link) : (s.setLink l).reserved = s.reserved := by simp [State.setLink]
@[simp] theorem linkOff_reserved : s.linkOff.reserved = s.reserved := by simp [State.linkOff]
@[simp] theorem editsDone_reserved (p : EditWait → Bool) : (s.editsDone p).reserved = s.reserved := by
  simp [State.editsDone]
@[simp] theorem portOff_reserved (p : Nat) : (s.portOff p).reserved = s.reserved := by simp [State.portOff]
@[simp] theorem allOff_reserved : s.allOff.reserved = s.reserved := by simp [State.allOff]
@[simp] theorem figuresLeft_reserved (enabled : Bool) : (s.figuresLeft enabled).reserved = s.reserved := by
  simp [State.figuresLeft]
@[simp] theorem enterDetached_reserved (status : Nat) : (s.enterDetached status).reserved = s.reserved := by
  simp [State.enterDetached]
@[simp] theorem linkLost_reserved : s.linkLost.reserved = s.reserved := by simp [State.linkLost]
@[simp] theorem asStandby_reserved : s.asStandby.reserved = s.reserved := by simp [State.asStandby]
@[simp] theorem asActive_reserved : s.asActive.reserved = s.reserved := by simp [State.asActive]
@[simp] theorem settlePair_reserved (c : ConfigMsg) (partnerSeated : BitVec 16) :
    (s.settlePair c partnerSeated).reserved = s.reserved := by
  simp [State.settlePair]
@[simp] theorem attachFailed_reserved : s.attachFailed.reserved = s.reserved := by
  simp [State.attachFailed]
@[simp] theorem trainFailed_reserved : s.trainFailed.reserved = s.reserved := by simp [State.trainFailed]
@[simp] theorem execTrainAttemptStart_reserved : Holds s (execTrainAttemptStart s) := by
  simp [execTrainAttemptStart]
@[simp] theorem execTrainStateDone_reserved (order : List Nat) (pol : BitVec 4) :
    Holds s (execTrainStateDone order pol s) := by
  unfold execTrainStateDone; rw [holds_finish]; (repeat' split) <;> simp
@[simp] theorem execConfig_reserved (c : ConfigMsg) : Holds s (execConfig c s) := by simp [execConfig]
@[simp] theorem execTrainTimeout_reserved : Holds s (execTrainTimeout s) := by simp [execTrainTimeout]
@[simp] theorem execLatencyMeasure_reserved (ns : Nat) : Holds s (execLatencyMeasure ns s) := by
  simp [execLatencyMeasure]
@[simp] theorem execHeartbeatSend_reserved : Holds s (execHeartbeatSend s) := by simp [execHeartbeatSend]
@[simp] theorem execStateSend_reserved (grp : Nat) :
    Holds s (execStateSend grp s) := by simp [execStateSend]
@[simp] theorem receive_reserved (fseq : Word) (f : State → State) (hf : ∀ s, (f s).reserved = s.reserved) :
    (s.receive fseq f).reserved = s.reserved := by
  simp [State.receive, hf]
@[simp] theorem shadows_reserved (fseq : Word) (f : State → State) (hf : ∀ s, (f s).reserved = s.reserved) :
    (s.shadows fseq f).reserved = s.reserved := by
  simp [State.shadows, hf]
@[simp] theorem execAck_reserved (fseq : Word) : Holds s (execAck fseq s) := by
  unfold execAck; rw [holds_finish]; split <;> simp
@[simp] theorem execRetransmitTimeout_reserved (fseq : Word) : Holds s (execRetransmitTimeout fseq s) := by
  unfold execRetransmitTimeout; rw [holds_finish]; split <;> simp
@[simp] theorem execCosynFrameDiscard_reserved : Holds s (execCosynFrameDiscard s) := by
  simp [execCosynFrameDiscard]
@[simp] theorem execState_reserved (grp : Nat) (chans : List ChanRec) :
    Holds s (execState grp chans s) := by
  simp [execState]
@[simp] theorem applyRunner_reserved (r : RunnerRec) : (s.applyRunner r).reserved = s.reserved := by
  unfold State.applyRunner; split <;> simp
@[simp] theorem execRunner_reserved (r : RunnerRec) (fseq : Word) : Holds s (execRunner r fseq s) := by
  simp [execRunner]
@[simp] theorem applyAnns_reserved (l : List (Nat × QueAnn)) : (s.applyAnns l).reserved = s.reserved := by
  simp [State.applyAnns]
@[simp] theorem execCommitFrame_reserved (anns : List (Nat × QueAnn)) (fseq : Word) :
    Holds s (execCommitFrame anns fseq s) := by
  simp [execCommitFrame]
@[simp] theorem mirrorTrip_reserved (r : TripRec) (p : Nat) : (s.mirrorTrip r p).reserved = s.reserved := by
  simp [State.mirrorTrip]
@[simp] theorem applyTrip_reserved (n : TripNote) : (s.applyTrip n).reserved = s.reserved := by
  unfold State.applyTrip; split <;> simp
@[simp] theorem execTripFrame_reserved (n : TripNote) (fseq : Word) : Holds s (execTripFrame n fseq s) := by
  simp [execTripFrame]
@[simp] theorem execMaq_reserved (e : List MaqEdit) (fseq : Word) : Holds s (execMaq e fseq s) := by
  simp [execMaq]
@[simp] theorem install_reserved (cast maq : CfgSet) (castSeq maqSeq : Word) :
    (s.install cast maq castSeq maqSeq).reserved = s.reserved := by
  simp [State.install]
@[simp] theorem execSync_reserved (cast maq : CfgSet) (castSeq maqSeq : Word) (fseq : Word) :
    Holds s (execSync cast maq castSeq maqSeq fseq s) := by
  simp [execSync]
@[simp] theorem execUnveilFrame_reserved (target : DWord) (castSeq : Word) (digest : DWord)
    (place : Tab Placement)
    (auxArm : Tab (BitVec 128)) (internal : Bool) (fseq : Word) :
    Holds s (execUnveilFrame target castSeq digest place auxArm internal fseq s) := by
  unfold execUnveilFrame
  rw [holds_finish, shadows_reserved]
  intro t
  rfl
@[simp] theorem partnerLoss_reserved (qid : Nat) : (s.partnerLoss qid).reserved = s.reserved := by
  simp [State.partnerLoss]
@[simp] theorem seqJump_reserved : s.seqJump.reserved = s.reserved := by
  unfold State.seqJump
  extract_lets t1 t2 t3
  have h1 : t1.reserved = s.reserved := by simp [t1]
  have h2 : t2.reserved = t1.reserved := foldl_reserved _ (fun t e => by split <;> simp) _ _
  simp [t3, h2, h1]
@[simp] theorem mailboxesTaken_reserved (code : BitVec 16) :
    (s.mailboxesTaken code).reserved = s.reserved := by
  simp [State.mailboxesTaken]
@[simp] theorem takeOver_reserved (kind level : Nat) (src : BitVec 8) (groups : BitVec 16) :
    (s.takeOver kind level src groups).reserved = s.reserved := by
  unfold State.takeOver
  simp [State.modPeat]
@[simp] theorem takePort_reserved (p : Nat) (r : ChanRec) : (s.takePort p r).reserved = s.reserved := by
  unfold State.takePort; split <;> simp
@[simp] theorem restartPort_reserved (p : Nat) (r : ChanRec) :
    (s.restartPort p r).reserved = s.reserved := by
  unfold State.restartPort; split <;> simp
@[simp] theorem seatPort_reserved (p : Nat) (held : Bool) : (s.seatPort p held).reserved = s.reserved := by
  unfold State.seatPort; split <;> simp
@[simp] theorem seatFig_reserved (f : Nat) (held : Bool) : (s.seatFig f held).reserved = s.reserved := by
  unfold State.seatFig; (repeat' split) <;> simp
@[simp] theorem seatGroup_reserved (g : Nat) (all : Bool) : (s.seatGroup g all).reserved = s.reserved := by
  simp [State.seatGroup]
@[simp] theorem execTakeoverB1_reserved (grp : Nat) (enLow : List Nat) :
    Holds s (execTakeoverB1 grp enLow s) := by
  simp [execTakeoverB1]
@[simp] theorem execTakeoverB2_reserved (grp : Nat) : Holds s (execTakeoverB2 grp s) := by
  simp [execTakeoverB2]
@[simp] theorem execHandover_reserved (m : HandoverMsg) (fseq : Word) :
    Holds s (execHandover m fseq s) := by
  simp [execHandover]
@[simp] theorem departNow_reserved (h : HandoverSt) : (s.departNow h).reserved = s.reserved := by
  simp [State.departNow]
@[simp] theorem arriveNow_reserved (h : HandoverSt) : (s.arriveNow h).reserved = s.reserved := by
  simp [State.arriveNow]
@[simp] theorem execHandoverBoundary_reserved : Holds s (execHandoverBoundary s) := by
  unfold execHandoverBoundary; rw [holds_finish]; split <;> simp
@[simp] theorem execHeartbeat_reserved (b : Beat) : Holds s (execHeartbeat b s) := by
  unfold execHeartbeat
  rw [holds_finish, reserved_ite]
  refine (if_congr Iff.rfl rfl ?_).trans (ite_self _)
  extract_lets ahead differ t1 t2 back t3 t4 t5 t6 t7
  have h2 : t2.reserved = s.reserved := by simp [t2, t1]
  have h3 : t3.reserved = s.reserved := by
    simp only [t3]
    split <;> simp [h2]
  simp [t7, t6, t5, t4, h3]
@[simp] theorem execHeartbeatSlotClose_reserved : Holds s (execHeartbeatSlotClose s) := by
  simp [execHeartbeatSlotClose]
@[simp] theorem execAliveInChange_reserved (active : Bool) : Holds s (execAliveInChange active s) := by
  simp [execAliveInChange]
@[simp] theorem execCosynSignalLoss_reserved : Holds s (execCosynSignalLoss s) := by
  simp [execCosynSignalLoss]
@[simp] theorem execControlFrame_reserved (n : ControlNote) (fseq : Word) :
    Holds s (execControlFrame n fseq s) := by
  unfold execControlFrame; rw [holds_finish]; (repeat' split) <;> simp
@[simp] theorem execTwinStatusRead_reserved (r : Req) : Holds s (execTwinStatusRead r s) := 
  holds_umser fun t => by simp
@[simp] theorem execTwinDetach_reserved (r : Req) (mode key : Nat) :
    Holds s (execTwinDetach r mode key s) := 
  holds_umser fun t => by simp
@[simp] theorem execTwinAttach_reserved (r : Req) : Holds s (execTwinAttach r s) := 
  holds_umser fun t => by simp

/-! ### Machine/Session.lean -/

@[simp] theorem cancelled_reserved (o : Outstanding) (result : List Byte) :
    (s.cancelled o result).reserved = s.reserved := by
  simp [State.cancelled]
@[simp] theorem calCancel_reserved (o : Outstanding) : (s.calCancel o).reserved = s.reserved := by
  unfold State.calCancel; (repeat' split) <;> simp
@[simp] theorem uncheck_reserved (o : Outstanding) : (s.uncheck o).reserved = s.reserved := by
  simp [State.uncheck]
@[simp] theorem cancel_reserved (o : Outstanding) : (s.cancel o).2.reserved = s.reserved := by
  unfold State.cancel; simp only; (repeat' split) <;> simp
@[simp] theorem execSesCancel_reserved (r : Req) (tag : BitVec 16) : Holds s (execSesCancel r tag s) := 
  holds_umser fun t => by split <;> simp

/-! ### Machine/Regs.lean -/

@[simp] theorem setHolding_reserved (port : Port) (t : Tab Word) :
    (s.setHolding port t).reserved = s.reserved := by
  unfold State.setHolding; split <;> simp
@[simp] theorem readLow_reserved (port : Port) (off : Nat) :
    (s.readLow port off).2.reserved = s.reserved := by
  simp [State.readLow]
@[simp] theorem readHigh_reserved (port : Port) (off : Nat) :
    (s.readHigh port off).2.reserved = s.reserved := by
  unfold State.readHigh; split <;> simp
@[simp] theorem readAny_reserved (port : Port) (off : Nat) :
    (s.readAny port off).2.reserved = s.reserved := by
  unfold State.readAny; (repeat' split) <;> simp
@[simp] theorem readWords_reserved (space a n : Nat) : (s.readWords space a n).2.reserved = s.reserved := by
  induction n generalizing s a with
  | zero => rfl
  | succ n ih =>
    simp only [State.readWords, ih]
    split <;> simp
@[simp] theorem returns_reserved (x : Word × State) (port : Port) :
    (State.returns x port).reserved = x.2.reserved := by
  cases port <;> rfl
@[simp] theorem execTwoHalfLowRead_reserved (port : Port) (offset : Nat) :
    Holds s (execTwoHalfLowRead port offset s) := by
  simp [execTwoHalfLowRead, returns_reserved]
@[simp] theorem execTwoHalfHighRead_reserved (port : Port) (offset : Nat) :
    Holds s (execTwoHalfHighRead port offset s) := by
  simp [execTwoHalfHighRead, returns_reserved]
@[simp] theorem emptyHolding_reserved (port : Port) (lo hi : Nat) :
    (s.emptyHolding port lo hi).reserved = s.reserved := by
  simp [State.emptyHolding]
@[simp] theorem writeSelect_reserved (port : Port) (off : Nat) (v : Word) :
    (s.writeSelect port off v).reserved = s.reserved := by
  simp [State.writeSelect]
@[simp] theorem execSelectRegisterWrite_reserved (port : Port) (offset : Nat) (value : Word) :
    Holds s (execSelectRegisterWrite port offset value s) := by
  simp [execSelectRegisterWrite]
@[simp] theorem ring_reserved (port : Port) (n : Nat) (v : Word) :
    (s.ring port n v).reserved = s.reserved := by
  simp [State.ring]
@[simp] theorem writeHost_reserved (off : Nat) (v : Word) : (s.writeHost off v).reserved = s.reserved := by
  simp [State.writeHost]
@[simp] theorem writeMtPfe_reserved (off : Nat) (v : Word) :
    (s.writeMtPfe off v).reserved = s.reserved := by
  simp [State.writeMtPfe]
@[simp] theorem writeAcq_reserved (off : Nat) (v : Word) : (s.writeAcq off v).reserved = s.reserved := by
  simp [State.writeAcq]
@[simp] theorem writeFr_reserved (off : Nat) (v : Word) : (s.writeFr off v).reserved = s.reserved := by
  simp [State.writeFr]
@[simp] theorem writeLe_reserved (off : Nat) (v : Word) : (s.writeLe off v).reserved = s.reserved := by
  simp [State.writeLe]
@[simp] theorem writeSup_reserved (off : Nat) (v : Word) : (s.writeSup off v).reserved = s.reserved := by
  simp [State.writeSup]
@[simp] theorem writeSwp_reserved (off : Nat) (v : Word) : (s.writeSwp off v).reserved = s.reserved := by
  simp [State.writeSwp]
@[simp] theorem writeErr_reserved (off : Nat) (v : Word) : (s.writeErr off v).reserved = s.reserved := by
  simp [State.writeErr]
@[simp] theorem execSupMonLatchWrite_reserved (value : Word) : Holds s (execSupMonLatchWrite value s) := by
  simp [execSupMonLatchWrite]
@[simp] theorem frameEnd_reserved (status : BitVec 8) (ok : Bool) (miso : List Word) :
    (s.frameEnd status ok miso).reserved = s.reserved := by
  simp [State.frameEnd]
@[simp] theorem execSpiReadFrame_reserved (address : Word) (words : Nat) :
    Holds s (execSpiReadFrame address words s) := by
  simp [execSpiReadFrame, readWords_reserved]
end

end Sys2Proof.Machine

/-! SUPPORT. The operations of a reset and of the start (chapter 6) leave alone what the sources asserted, the
level that governs, the host's peat registers and the watchdog's count; only the assertion of a source and the
exit move them (R130, R131). -/

namespace Sys2Proof.Machine

section
variable {s t u : State}

/-- The sources asserted and seen, the governing and the requested level; the host's peat registers and the
watchdog's count. -/
def State.sources (s : State) : BitVec 8 × BitVec 8 × Nat × Nat × Tab Word × Word :=
  (s.rst.asserted, s.rst.seen, s.rst.level, s.rst.reqLevel, s.peat.regs, s.peat.wdogCnt)

theorem sources_of_reserved (h : t.reserved = s.reserved) : t.sources = s.sources := by
  simp only [State.sources, rst_of_reserved h, regs_of_reserved h, wdogCnt_of_reserved h]

theorem level_of_sources (h : t.sources = s.sources) : t.rst.level = s.rst.level :=
  congrArg (fun x => x.2.2.1) h

theorem regs_of_sources (h : t.sources = s.sources) : t.peat.regs = s.peat.regs :=
  congrArg (fun x => x.2.2.2.2.1) h

theorem rst_of_quiet (h : t.quiet = s.quiet) : t.rst = s.rst := (congrArg State.rst h :)

theorem regs_of_quiet (h : t.quiet = s.quiet) : t.peat.regs = s.peat.regs :=
  (congrArg (fun x : State => x.peat.regs) h :)

@[simp] theorem sources_ite (c : Prop) [Decidable c] (t u : State) :
    (if c then t else u).sources = if c then t.sources else u.sources := apply_ite State.sources c t u

variable (s)

/-! ### The planes enter reset -/

/-- The management plane alone goes down. -/
theorem mgmtReset_reserved : s.mgmtReset.reserved =
    ({ s.rst with mgmtUp := false, spiUp := false, mireUp := false }, s.peat.regs, s.peat.wdogCnt) := by
  have h : s.calCut.disown.reserved = s.reserved := by simp
  simp only [State.mgmtReset, reserved_mk, rst_of_reserved h, regs_of_reserved h, wdogCnt_of_reserved h]

theorem mgmtReset_rst : s.mgmtReset.rst = { s.rst with mgmtUp := false, spiUp := false, mireUp := false } :=
  congrArg Prod.fst (mgmtReset_reserved s)

@[simp] theorem mgmtReset_sources : s.mgmtReset.sources = s.sources := by
  have h := mgmtReset_reserved s
  simp only [State.reserved, Prod.mk.injEq] at h
  obtain ⟨hrst, hregs, hcnt⟩ := h
  simp only [State.sources, hrst, hregs, hcnt]

@[simp] theorem dataStop_sources : s.dataStop.sources = s.sources := by
  unfold State.dataStop
  extract_lets deep busy t1 t2 saved q1 t3
  have h2 : t2.sources = s.sources := by
    simp only [t2]
    split
    · rfl
    · exact (sources_of_reserved (aperturesLost_reserved t1)).trans rfl
  split <;> exact h2

@[simp] theorem stagingDown_sources : s.stagingDown.sources = s.sources := by
  unfold State.stagingDown
  extract_lets t
  have ht : t.sources = s.sources := by
    simp only [t]
    split
    · exact dataStop_sources s
    · rfl
  split <;> exact ht

@[simp] theorem enterReset_sources (hard : Bool) : (s.enterReset hard).sources = s.sources := by
  unfold State.enterReset
  extract_lets t lost
  have ht : t.reserved = s.reserved := by simp [t]
  calc _ = t.mgmtReset.sources := rfl
    _ = s.sources := (mgmtReset_sources t).trans (sources_of_reserved ht)

/-! ### Assertion (R130) -/

/-- A source joins the asserted and the seen, and the deepest level governs; what its assertion sets off
moves nothing of this. -/
theorem assertSource_sources (src level : Nat) : (s.assertSource src level).sources =
    (s.rst.asserted ||| BitVec.twoPow 8 src, s.rst.seen ||| BitVec.twoPow 8 src, min level s.rst.level,
      s.rst.reqLevel, s.peat.regs, s.peat.wdogCnt) := by
  unfold State.assertSource
  extract_lets deepest ordered t hard u t1
  have ht : t.sources = (s.rst.asserted ||| BitVec.twoPow 8 src, s.rst.seen ||| BitVec.twoPow 8 src,
      min level s.rst.level, s.rst.reqLevel, s.peat.regs, s.peat.wdogCnt) := rfl
  have hu : u.sources = t.sources := by simp only [u]; split <;> simp
  have h1 : t1.sources = t.sources := rfl
  rw [← ht]
  split_ifs
  · rw [stagingDown_sources, hu]
  · exact hu
  · rw [stagingDown_sources, enterReset_sources]
  · rw [stagingDown_sources]; rfl
  · rfl
  · rw [sources_of_reserved (orderedActions_reserved _)]; rfl
  · exact h1
  · rw [stagingDown_sources, h1]

theorem assertFused_sources (src : Nat) : (s.assertFused src).sources =
    (s.rst.asserted ||| BitVec.twoPow 8 src, s.rst.seen ||| BitVec.twoPow 8 src,
      min (fuseLevel s.rst.fuse src) s.rst.level, s.rst.reqLevel, s.peat.regs, s.peat.wdogCnt) :=
  assertSource_sources s src _

/-! ### The way out and the start (R131, R139) -/

/-- The state with its reset block replaced, where a later operation keeps what is reserved. -/
theorem recordReset_reserved (cause lost : Word) : (s.recordReset cause lost).reserved =
    ({ s.rst with margin := none }, s.peat.regs, s.peat.wdogCnt) := by
  unfold State.recordReset
  extract_lets t t'
  have ht : t.reserved = ({ s.rst with margin := none }, s.peat.regs, s.peat.wdogCnt) := by
    simp only [t]
    split
    next => rw [log_reserved]; rfl
    next hm => rw [← hm]; rfl
  rw [log_reserved]
  exact ht

/-- Recording the exits that wait leaves the level and the host's registers. -/
theorem recordExits_sources (lost : Word) : (s.recordExits lost).sources = s.sources := by
  have hrec (t : State) (c x : Word) : (t.recordReset c x).sources = t.sources := by
    have h := recordReset_reserved t c x
    simp only [State.reserved, Prod.mk.injEq] at h
    obtain ⟨hrst, hregs, hcnt⟩ := h
    simp only [State.sources, hrst, hregs, hcnt]
  have hfold (l : List Word) (t : State) : (l.foldl (fun t c => t.recordReset c 0#32) t).sources = t.sources := by
    induction l generalizing t with
    | nil => rfl
    | cons c l ih => rw [List.foldl_cons, ih, hrec]
  unfold State.recordExits
  split
  · rfl
  · rw [hfold, hrec]
    rfl

/-- A strap word and code taken and the fuses read anew; the Mire and the role wait for what they select. -/
def State.strapped (s : State) (w : Word) (code : Nat) : State :=
  let t := s.modRst (fun r => { r with strap := w, fuse := r.fuseProgrammed })
  let t := t.modPeat (fun p => { p with strapLast := code })
  let t := { t with sto := { t.sto with state := if t.noMire then .none else .scanning } }
  t.modTwin (fun x => { x with role := if t.pairStrap then .negotiating else .solo })

/-- A strap out of its bands is logged. -/
theorem readStrap_eq (x : Nat) : s.readStrap x =
    if (strapWord x).getLsbD 4 then
      (s.strapped (strapWord x) (strapCode x)).log { code := 0x4103, source := 0, d0 := strapWord x }
    else s.strapped (strapWord x) (strapCode x) := rfl

theorem readStrap_quiet (x : Nat) : (s.readStrap x).quiet = (s.strapped (strapWord x) (strapCode x)).quiet := by
  rw [readStrap_eq]
  split
  · exact log_quiet ..
  · rfl

theorem strapped_regs (w : Word) (code : Nat) : (s.strapped w code).peat.regs = s.peat.regs := rfl

@[simp] theorem readStrap_regs (x : Nat) : (s.readStrap x).peat.regs = s.peat.regs := by
  rw [regs_of_quiet (readStrap_quiet s x), strapped_regs]

/-- The peat store is invalid at a start: it lost power, it holds no signature or its header is bad (R146). -/
def State.peatLost (s : State) : Bool := s.peat.lostPower || !s.peat.signed || s.peat.found.header

/-- What the check makes of an invalid store, the records apart (R61, R101, R146). -/
def State.peatCleared (s : State) : State :=
  { s with
    peat := s.peat.cleared
    mt := { s.mt with eraOk := false }
    que := { s.que with lostAll := some (8, 0#32), lostDone := [] } }

/-- What the check makes of a valid store, the records apart (R101, R124, R146). -/
def State.peatCounted (s : State) : State :=
  { s with
    peat := s.peat.checked s.peat.found
    mt := { s.mt with eraOk := !s.peat.found.regions.getLsbD 1 }
    pfe := { s.pfe with
      faults := bitAt (s.peat.checked s.peat.found).holdup 0 ||| bitAt (s.peat.checked s.peat.found).commitShort 1 }
    que := if s.peat.found.regions.getLsbD 3 then { s.que with lostAll := some (8, 0#32), lostDone := [] }
      else s.que }

theorem peatCheck_lost (h : s.peatLost = true) : s.peatCheck.quiet = s.peatCleared.quiet := by
  unfold State.peatCheck
  simp only
  rw [if_pos (show (s.peat.lostPower || !s.peat.signed || s.peat.found.header) = true from h), log_quiet]
  rfl

theorem peatCheck_valid (h : s.peatLost = false) : s.peatCheck.quiet = s.peatCounted.quiet := by
  have hlogs (l : List Nat) (e : ErrSpec) (t : State) : (l.foldl (fun t _ => t.log e) t).quiet = t.quiet :=
    foldl_quiet _ (fun t _ => log_quiet t e) l t
  have hbranch (c d : Prop) [Decidable c] [Decidable d] (x y z q : State) (hx : x.quiet = q.quiet)
      (hy : y.quiet = q.quiet) (hz : z.quiet = q.quiet) :
      (if c then x else if d then y else z).quiet = q.quiet := by
    split_ifs <;> assumption
  unfold State.peatCheck
  simp only
  rw [if_neg (Bool.eq_false_iff.mp (show (s.peat.lostPower || !s.peat.signed || s.peat.found.header) = false from h))]
  refine hbranch _ _ _ _ _ _ ?_ ?_ ?_
  · rw [log_quiet, hlogs]; rfl
  · rw [log_quiet]; exact (hlogs ..).trans rfl
  · rw [hlogs]; rfl

/-- The check reaches no part of the reset block, and leaves the host's registers. -/
theorem peatCheck_rst_regs : s.peatCheck.rst = s.rst ∧ s.peatCheck.peat.regs = s.peat.regs := by
  cases h : s.peatLost with
  | true => exact ⟨(rst_of_quiet (peatCheck_lost s h) :), (regs_of_quiet (peatCheck_lost s h) :)⟩
  | false => exact ⟨(rst_of_quiet (peatCheck_valid s h) :), (regs_of_quiet (peatCheck_valid s h) :)⟩

/-- The start has come to the release of the data plane (R139). -/
def State.releases (s : State) : Bool :=
  s.rst.staging && s.rst.mgmtUp && !s.rst.dataUp && s.rst.phase == .running && !s.heldAt [1, 2, 5]

/-- The release of the data plane is all that it changes of the reset block. -/
theorem dataRelease_reserved : s.dataRelease.reserved =
    (if s.releases then { s.rst with dataUp := true } else s.rst, s.peat.regs, s.peat.wdogCnt) := by
  unfold State.dataRelease State.releases
  split
  · extract_lets t t'
    have ht : t'.reserved = t.reserved := by simp [t']
    have hu : (if t'.noMire then t'.pagesLost else t').reserved = t'.reserved := by simp
    rw [hu, ht]
    rfl
  · rfl

@[simp] theorem dataRelease_sources : s.dataRelease.sources = s.sources := by
  have h := dataRelease_reserved s
  simp only [State.reserved, Prod.mk.injEq] at h
  obtain ⟨hrst, hregs, hcnt⟩ := h
  simp only [State.sources, hrst, hregs, hcnt]
  split <;> rfl

@[simp] theorem heldAt_of_rst {l : List Nat} (h : t.rst = s.rst) : t.heldAt l = s.heldAt l := by
  simp only [State.heldAt, h]

end

end Sys2Proof.Machine

/-! SUPPORT. Commands of chapter 6: each leaves the level as deep as it was or deeper, and the host's peat
registers alone, but for the exit from reset, the writes of the host and the loss of retention power. -/

namespace Sys2Proof.Machine

section
variable {s t u : State}

/-- The level is no shallower than before, and the host's peat registers stand. -/
structure Deepens (s t : State) : Prop where
  level : t.rst.level ≤ s.rst.level
  regs : t.peat.regs = s.peat.regs

theorem Deepens.of_sources (h : t.sources = s.sources) : Deepens s t :=
  ⟨(level_of_sources h).le, regs_of_sources h⟩

theorem Deepens.of_reserved (h : t.reserved = s.reserved) : Deepens s t := .of_sources (sources_of_reserved h)

theorem Deepens.refl : Deepens s s := .of_sources rfl

theorem Deepens.trans (h : Deepens s t) (k : Deepens t u) : Deepens s u :=
  ⟨k.level.trans h.level, k.regs.trans h.regs⟩

/-- What went before moved neither. -/
theorem Deepens.after (k : Deepens t u) (hl : t.rst.level = s.rst.level) (hr : t.peat.regs = s.peat.regs) :
    Deepens s u :=
  ⟨hl ▸ k.level, k.regs.trans hr⟩

theorem Deepens.of_finish (hu : Deepens s u) (h : finish s u = .next t) : Deepens s t := by
  obtain rfl := Host.Outcome.next.inj h
  exact hu.trans (.of_reserved (done_reserved s u))

/-- The deepest level governs (R130). -/
theorem assertSource_deepens (s : State) (src level : Nat) : Deepens s (s.assertSource src level) := by
  have h := assertSource_sources s src level
  simp only [State.sources, Prod.mk.injEq] at h
  obtain ⟨-, -, hlevel, -, hregs, -⟩ := h
  exact ⟨hlevel ▸ Nat.min_le_right .., hregs⟩

theorem assertFused_deepens (s : State) (src : Nat) : Deepens s (s.assertFused src) :=
  assertSource_deepens s src _

theorem rstReq_deepens (s : State) (v : Word) : Deepens s (s.rstReq v) := by
  unfold State.rstReq
  split
  · exact .refl
  · extract_lets level
    split
    · exact (assertSource_deepens ..).after rfl rfl
    · exact .of_reserved (log_reserved s _)

/-! ### Sources -/

theorem exec_supply_deepens (on : Bool) (h : exec (.supply on) s = .next t) : Deepens s t := by
  refine .of_finish ?_ h
  split_ifs
  · exact .refl
  · exact (assertSource_deepens ..).after rfl rfl
  · exact ⟨le_rfl, rfl⟩

theorem exec_supplyMarginSample_deepens (mv : Nat) (h : exec (.supplyMarginSample mv) s = .next t) :
    Deepens s t := by
  refine .of_finish ?_ h
  split
  · exact .refl
  split
  · exact .of_sources rfl
  split
  · split
    · exact (Deepens.of_reserved (log_reserved ..)).after rfl rfl
    · exact .refl
  · exact .refl

theorem exec_rstIn_deepens (low : Bool) (h : exec (.rstIn low) s = .next t) : Deepens s t := by
  refine .of_finish ?_ h
  split_ifs
  · exact .refl
  · exact assertFused_deepens s 1
  · exact ⟨le_rfl, rfl⟩

theorem exec_perst_deepens (low : Bool) (h : exec (.perst low) s = .next t) : Deepens s t := by
  refine .of_finish ?_ h
  split_ifs
  · exact .refl
  · exact (assertFused_deepens ..).after rfl rfl
  · exact ⟨le_rfl, rfl⟩

theorem exec_wdog_deepens (h : exec .wdog s = .next t) : Deepens s t := by
  refine .of_finish ?_ h
  split_ifs
  · exact (assertFused_deepens ..).after rfl rfl
  · exact .refl

theorem exec_clk_deepens (h : exec .clk s = .next t) : Deepens s t := by
  refine .of_finish ?_ h
  split_ifs
  · exact .refl
  · exact assertFused_deepens s 6

theorem exec_clkRelease_deepens (h : exec .clkRelease s = .next t) : Deepens s t :=
  Deepens.of_finish (u := s.releaseSource 6) ⟨le_rfl, rfl⟩ h

theorem exec_fatal_deepens (h : exec .fatal s = .next t) : Deepens s t := by
  refine .of_finish ?_ h
  split_ifs
  · exact .refl
  · exact assertFused_deepens s 7

theorem exec_dbgResetInstruction_deepens (on : Bool) (h : exec (.dbgResetInstruction on) s = .next t) :
    Deepens s t := by
  refine .of_finish ?_ h
  split_ifs
  · exact assertFused_deepens s 5
  · exact .refl

theorem exec_resetPulseEnd_deepens (src : Nat) (h : exec (.resetPulseEnd src) s = .next t) : Deepens s t := by
  refine .of_finish ?_ h
  split_ifs
  · exact ⟨le_rfl, rfl⟩
  · exact .refl

theorem exec_rstReqWrite_deepens (v : Word) (h : exec (.rstReqWrite v) s = .next t) : Deepens s t :=
  .of_finish (rstReq_deepens s v) h

/-! ### Planes -/

theorem exec_controlPlaneResetEntry_deepens (h : exec .controlPlaneResetEntry s = .next t) : Deepens s t := by
  refine .of_finish ?_ h
  split_ifs
  · exact .of_sources (enterReset_sources s false)
  · exact .refl

theorem exec_dataPlaneStop_deepens (h : exec .dataPlaneStop s = .next t) : Deepens s t := by
  refine .of_finish ?_ h
  split_ifs
  · exact .of_sources (stagingDown_sources s)
  · exact .refl

theorem exec_stretchStart_deepens (h : exec .stretchStart s = .next t) : Deepens s t := by
  refine .of_finish ?_ h
  split_ifs <;> exact ⟨le_rfl, rfl⟩

/-! ### The start -/

theorem exec_pllLock_deepens (h : exec .pllLock s = .next t) : Deepens s t := by
  refine .of_finish ?_ h
  split_ifs
  · extract_lets t1 t2 t3
    have h1 : Deepens s t1 := .of_sources rfl
    have h2 : Deepens t1 t2 := by
      obtain ⟨hrst, hregs⟩ := peatCheck_rst_regs t1
      have hc := calFuses_reserved t1.peatCheck
      exact ⟨(congrArg Rst.level ((rst_of_reserved hc).trans hrst)).le, (regs_of_reserved hc).trans hregs⟩
    have h3 : Deepens t2 t3 := .of_sources (recordExits_sources t2 _)
    have h13 := (h1.trans h2).trans h3
    split_ifs
    · exact h13
    · exact h13.trans (.of_reserved (settleRole_reserved t3 .solo))
  · exact .refl

theorem exec_stagingReady_deepens (kept : Bool) (h : exec (.stagingReady kept) s = .next t) : Deepens s t := by
  refine .of_finish ?_ h
  split_ifs
  · exact .of_sources (dataRelease_sources s.stagingUp)
  · exact .refl

theorem exec_testHold_deepens (step : Option Nat) (h : exec (.testHold step) s = .next t) : Deepens s t := by
  refine .of_finish ?_ h
  split
  · split_ifs <;> exact .of_sources rfl
  · exact .of_sources ((dataRelease_sources _).trans rfl)

theorem exec_mgmtBootDone_deepens (h : exec .mgmtBootDone s = .next t) : Deepens s t := by
  refine .of_finish ?_ h
  split
  · refine .of_sources ((dataRelease_sources _).trans ((sources_of_reserved (recordCut_reserved _)).trans ?_))
    split
    · exact (sources_of_reserved (unfreeze_reserved (s.modMaq fun _ => maquetteOf s.sets.cast)) :)
    · rfl
  · exact .refl

theorem exec_mireMapRebuilt_deepens (scan : List NandScan) (h : exec (.mireMapRebuilt scan) s = .next t) :
    Deepens s t := by
  refine .of_finish ?_ h
  split
  · have h1 : (scan.foldl State.attach s).reserved = s.reserved := by simp
    have h2 : ((scan.foldl State.attach s).modRst fun r => { r with mireUp := true }).sources = s.sources :=
      (show _ = (scan.foldl State.attach s).sources from rfl).trans (sources_of_reserved h1)
    refine .of_sources (.trans (sources_of_reserved ?_) h2)
    simp
  · exact .refl

/-! ### Fuses and die temperatures -/

theorem exec_fuseProgramEnd_deepens (h : exec .fuseProgramEnd s = .next t) : Deepens s t := by
  refine .of_finish ?_ h
  split
  · exact (Deepens.of_reserved (complete_reserved ..)).after rfl rfl
  · exact .refl

theorem exec_dieTempRead_deepens (a b c : Int) (h : exec (.dieTempRead a b c) s = .next t) : Deepens s t := by
  refine .of_finish ?_ h
  extract_lets past hot r t1 t2
  split
  · exact .refl
  · exact Deepens.after (t := t1) (.of_reserved (by simp [t2])) rfl rfl

end

end Sys2Proof.Machine

/-! SUPPORT. The exit from reset and a loss of retention power; the writes of the host; and every command of the
table. -/

namespace Sys2Proof.Machine

section
variable {s t u : State} {port : Port} {off : Nat} {v : Word}

/-! ### The exit, and retention power -/

/-- The exit counts the reset and records it; the host's registers stand (R147). -/
theorem exec_stretchEnd_regs (found : ExitIn) (h : exec (.stretchEnd found) s = .next t) :
    t.peat.regs = s.peat.regs := by
  obtain rfl := Host.Outcome.next.inj h
  rw [regs_of_reserved (done_reserved s _)]
  split
  · dsimp only
    split
    · rw [readStrap_regs]; rfl
    · split
      · rw [regs_of_sources (recordExits_sources _ _)]; rfl
      · rfl
  · rfl

theorem exec_vretLoss_level (h : exec .vretLoss s = .next t) : t.rst.level = s.rst.level := by
  obtain rfl := Host.Outcome.next.inj h
  rw [rst_of_reserved (done_reserved s _)]
  split <;> rfl

/-- Once retention power is lost no peat register holds anything (R147). -/
theorem exec_vretLoss_regs (h : s.rst.asserted.getLsbD 0 = true) :
    ∃ t, exec .vretLoss s = .next t ∧ t.peat.regs = [] := by
  refine ⟨_, rfl, ?_⟩
  rw [if_pos h, regs_of_reserved (done_reserved s _)]
  rfl

/-! ### The writes of the host -/

theorem readReg_peatReg {k : Nat} (hk : k < 16) :
    s.readReg port (0x140 + 4 * k) = tget 0#32 s.peat.regs k := by
  have hr : isReg (0x140 + 4 * k) = true := by simp [isReg, regRanges]; omega
  have hi : (0x140 + 4 * k - 0x140) / 4 = k := by omega
  simp (disch := omega) only [State.readReg, State.readRst, hr, hi, Bool.not_true, Bool.false_eq_true, if_neg,
    if_pos, if_false]

/-- A write outside the reset and peat registers leaves what they hold. -/
theorem writeReg_reserved (h : off < 0x100 ∨ 0x180 ≤ off) : (s.writeReg port off v).reserved = s.reserved := by
  simp only [State.writeReg, reserved_ite]
  simp
  omega

theorem writeRst_level : (s.writeRst off v).rst.level ≤ s.rst.level := by
  unfold State.writeRst
  split_ifs
  · exact (rstReq_deepens s v).level
  all_goals exact le_rfl

theorem writeReg_reset (h1 : 0x100 ≤ off) (h2 : off < 0x180) : s.writeReg port off v =
    if !isReg off then s.badAccess else if isSelect off then s.writeSelect port off v else s.writeRst off v := by
  simp (disch := omega) only [State.writeReg, if_neg, if_pos]

theorem writeReg_level : (s.writeReg port off v).rst.level ≤ s.rst.level := by
  by_cases h : off < 0x100 ∨ 0x180 ≤ off
  · exact (congrArg Rst.level (rst_of_reserved (writeReg_reserved h))).le
  · rw [writeReg_reset (by omega) (by omega)]
    split
    · exact (congrArg Rst.level (rst_of_reserved (badAccess_reserved s))).le
    · split
      · exact (congrArg Rst.level (rst_of_reserved (writeSelect_reserved s port off v))).le
      · exact writeRst_level

theorem writeWords_level (a : Nat) (d : List Byte) : (s.writeWords a d).rst.level ≤ s.rst.level := by
  fun_induction State.writeWords s a d with
  | case1 s a b0 b1 b2 b3 l ih => exact ih.trans writeReg_level
  | case2 => exact le_rfl

theorem exec_registerWrite_level {size : Nat} (h : exec (.registerWrite port off size v) s = .next t) :
    t.rst.level ≤ s.rst.level := by
  obtain rfl := Host.Outcome.next.inj h
  rw [rst_of_reserved (done_reserved s _)]
  split_ifs
  · exact le_rfl
  · exact writeReg_level
  · exact (congrArg Rst.level (rst_of_reserved (badAccess_reserved s))).le

theorem exec_spiWriteFrame_level {a : Word} {d : List Byte} (h : exec (.spiWriteFrame a d) s = .next t) :
    t.rst.level ≤ s.rst.level := by
  obtain rfl := Host.Outcome.next.inj h
  rw [rst_of_reserved (done_reserved s _)]
  split
  · exact le_rfl
  split
  · dsimp only
    rw [rst_of_reserved (frameEnd_reserved ..)]
    split
    · exact writeWords_level _ _
    · exact le_rfl
  · exact (congrArg Rst.level (rst_of_reserved (frameEnd_reserved ..))).le

/-! ### Every command -/

/-- Commands that lie outside the lemma below: the exit, the writes of the host and the loss of retention power. -/
def touchesReset : Instr → Bool
  | .stretchEnd _ | .registerWrite .. | .spiWriteFrame .. | .vretLoss => true
  | _ => false

theorem touchesReset_cases {c : Instr} (h : touchesReset c = true) : (∃ x, c = .stretchEnd x) ∨
    (∃ p o n v, c = .registerWrite p o n v) ∨ (∃ a d, c = .spiWriteFrame a d) ∨ c = .vretLoss := by
  cases c <;> simp_all [touchesReset]

theorem exec_deepens (c : Instr) (hc : touchesReset c = false) (h : exec c s = .next t) : Deepens s t := by
  cases c
  case supply => exact exec_supply_deepens _ h
  case supplyMarginSample => exact exec_supplyMarginSample_deepens _ h
  case rstIn => exact exec_rstIn_deepens _ h
  case perst => exact exec_perst_deepens _ h
  case wdog => exact exec_wdog_deepens h
  case clk => exact exec_clk_deepens h
  case clkRelease => exact exec_clkRelease_deepens h
  case fatal => exact exec_fatal_deepens h
  case resetPulseEnd => exact exec_resetPulseEnd_deepens _ h
  case dbgResetInstruction => exact exec_dbgResetInstruction_deepens _ h
  case rstReqWrite => exact exec_rstReqWrite_deepens _ h
  case controlPlaneResetEntry => exact exec_controlPlaneResetEntry_deepens h
  case dataPlaneStop => exact exec_dataPlaneStop_deepens h
  case stretchStart => exact exec_stretchStart_deepens h
  case pllLock => exact exec_pllLock_deepens h
  case stagingReady => exact exec_stagingReady_deepens _ h
  case mgmtBootDone => exact exec_mgmtBootDone_deepens h
  case testHold => exact exec_testHold_deepens _ h
  case mireMapRebuilt => exact exec_mireMapRebuilt_deepens _ h
  case fuseProgramEnd => exact exec_fuseProgramEnd_deepens h
  case dieTempRead => exact exec_dieTempRead_deepens _ _ _ h
  case stretchEnd => cases hc
  case registerWrite => cases hc
  case spiWriteFrame => cases hc
  case vretLoss => cases hc
  all_goals exact .of_reserved ((by simp [exec] : Holds s (exec _ s)) t h)

end

end Sys2Proof.Machine

namespace Sys2Proof.Machine

section

/-- Settles O58: every command but the exit deepens the level or keeps it. -/
theorem theLevelOnlyDeepens : Obligations.TheLevelOnlyDeepens := by
  refine ⟨fun s t c h hexit => ?_, fun s t h => ?_⟩
  · cases hc : touchesReset c with
    | false => exact (exec_deepens c hc h).level
    | true =>
      obtain ⟨x, rfl⟩ | ⟨p, o, n, v, rfl⟩ | ⟨a, d, rfl⟩ | rfl := touchesReset_cases hc
      · exact absurd rfl (hexit x)
      · exact exec_registerWrite_level h
      · exact exec_spiWriteFrame_level h
      · exact (exec_vretLoss_level h).le
  · obtain rfl := Host.Outcome.next.inj h
    exact congrArg Rst.level (rst_of_reserved ((done_reserved s _).trans (clock_reserved s)))

/-- Settles O55: no command moves the peat registers but the writes of the host, each of its own register, and the
loss of retention power, which clears them. -/
theorem peatRegistersBelongToTheHost : Obligations.PeatRegistersBelongToTheHost := by
  refine ⟨fun s t c h hw hspi hv => ?_, fun s t h => ?_, fun s port n v hn ho => ?_, fun s h => ?_⟩
  · cases hc : touchesReset c with
    | false => exact (exec_deepens c hc h).regs
    | true =>
      obtain ⟨x, rfl⟩ | ⟨p, o, n, v, rfl⟩ | ⟨a, d, rfl⟩ | rfl := touchesReset_cases hc
      · exact exec_stretchEnd_regs x h
      · exact absurd rfl (hw p o n v)
      · exact absurd rfl (hspi a d)
      · exact absurd rfl hv
  · obtain rfl := Host.Outcome.next.inj h
    exact regs_of_reserved ((done_reserved s _).trans (clock_reserved s))
  · obtain ⟨t, he, hregs, -⟩ := exec_registerWrite_peatReg (v := v) ho hn
    refine ⟨t, he, ?_, fun k hk => ?_⟩
    · rw [readReg_peatReg hn, hregs, tget_tput_self]
    · rw [hregs, tget_tput_other hk]
  · obtain ⟨t, he, hregs⟩ := exec_vretLoss_regs h
    refine ⟨t, he, fun port n hn => ?_⟩
    rw [readReg_peatReg hn, hregs]
    rfl

end

end Sys2Proof.Machine

/-! SUPPORT. The error log only grows as a step ends (R622, R623, R628): what follows a command counts repeats into
held records and appends new ones, in the ring while the data plane runs and among those still to be formed while
it does not. -/

namespace Sys2Proof.Machine

section
variable {s t u : State} {e : ErrSpec}

/-- What a held record keeps while repeats are counted into it. -/
def ErrEntry.mark (e : ErrEntry) : Word × BitVec 16 × Word := (e.body.seq, e.body.code, e.body.d0)

/-- The records of one log stand in another, in order and ahead of the new ones. -/
structure LogGrows (a b : Err) : Prop where
  ring : a.ring.map ErrEntry.mark <+: b.ring.map ErrEntry.mark
  deferred : a.deferred <+: b.deferred

theorem LogGrows.refl (a : Err) : LogGrows a a := ⟨List.prefix_rfl, List.prefix_rfl⟩

theorem LogGrows.trans {a b c : Err} (h : LogGrows a b) (k : LogGrows b c) : LogGrows a c :=
  ⟨h.ring.trans k.ring, h.deferred.trans k.deferred⟩

theorem freeze_log (a : Err) (r : ErrRec) : (a.freeze r).ring = a.ring ∧ (a.freeze r).deferred = a.deferred := by
  unfold Err.freeze
  split <;> exact ⟨rfl, rfl⟩

/-- A repeat counted into a ring moves no mark. -/
theorem tryRepeat_mark {clk : Nat} {r : ErrRec} {l l' : List ErrEntry} (h : tryRepeat clk r l = some l') :
    l'.map ErrEntry.mark = l.map ErrEntry.mark := by
  induction l generalizing l' with
  | nil => cases h
  | cons a l ih =>
    rw [tryRepeat] at h
    split at h
    next m hm =>
      cases h
      rw [List.map_cons, List.map_cons, ih hm]
    next =>
      split_ifs at h
      cases h
      rfl

/-- A code that no held record has repeats none. -/
theorem tryRepeat_none {clk : Nat} {r : ErrRec} {l : List ErrEntry}
    (h : l.all (fun x => x.body.code != r.code) = true) : tryRepeat clk r l = none := by
  induction l with
  | nil => rfl
  | cons a l ih =>
    rw [List.all_cons, Bool.and_eq_true] at h
    obtain ⟨ha, hl⟩ := h
    have hno : (a.body.code == r.code) = false := by simpa using ha
    rw [tryRepeat, ih hl]
    simp [ErrEntry.takes, hno]

theorem form_grows (a : Err) (clk : Nat) (r : ErrRec) : LogGrows a (a.form clk r) := by
  unfold Err.form
  split
  next l hl =>
    refine ⟨?_, List.prefix_rfl⟩
    split_ifs at hl
    rw [tryRepeat_mark hl]
  next =>
    dsimp only
    split
    · obtain ⟨-, hdef⟩ := freeze_log a { r with seq := a.newest + 1#32 }
      refine ⟨?_, hdef ▸ List.prefix_rfl⟩
      rw [List.map_append]
      exact List.prefix_append ..
    · obtain ⟨hring, hdef⟩ := freeze_log a { r with seq := BitVec.allOnes 32, flags := r.flags ||| 8#8 }
      exact ⟨hring ▸ List.prefix_rfl, hdef ▸ List.prefix_rfl⟩

theorem raise_err (s : State) (c : Nat) : (s.raise c).err = s.err := by
  unfold State.raise
  split <;> rfl

theorem log_err_up (hd : s.rst.dataUp = true) : (s.log e).err = s.err.form s.clk (e.record s.mt.mt) := by
  simp only [State.log, hd, if_true, State.formErr, apply_ite State.err, raise_err, ite_self]

theorem log_err_down (hd : s.rst.dataUp = false) :
    (s.log e).err = { s.err with deferred := s.err.deferred ++ [e.record s.mt.mt] } := by
  simp only [State.log, hd, Bool.false_eq_true, if_false]

theorem log_grows (s : State) (e : ErrSpec) : LogGrows s.err (s.log e).err := by
  cases hd : s.rst.dataUp with
  | true =>
    rw [log_err_up hd]
    exact form_grows ..
  | false =>
    rw [log_err_down hd]
    exact ⟨List.prefix_rfl, List.prefix_append ..⟩

/-- What every record of a step and its mark of a saturated counter keep of the log, the end of the step keeps. -/
theorem done_err_of_log (P : Err → Prop) (s u : State)
    (hlog : ∀ (x : State) (e : ErrSpec), x.rst = u.rst → P x.err → P (x.log e).err)
    (hsat : ∀ (a : Err) (w : BitVec 16), P a → P { a with satSrc := w }) (h : P u.err) :
    P (State.done s u).err := by
  have hsats (l : List SatKey) (x : State) (hx : x.rst = u.rst) (hp : P x.err) :
      P (l.foldl State.logSat x).err := by
    induction l generalizing x with
    | nil => exact hp
    | cons k l ih =>
      refine ih _ ((rst_of_reserved (logSat_reserved x k)).trans hx) ?_
      rw [State.logSat, raise_err]
      exact hlog _ _ hx (hsat _ _ hp)
  have hcarry (x : State) : x.carry.err = x.err := by unfold State.carry; split <;> rfl
  have hready : (State.raiseReady s u).err = u.err := by
    unfold State.raiseReady
    split
    · rfl
    · exact raise_err ..
  have hr : (State.raiseReady s u).rst = u.rst := rst_of_reserved (raiseReady_reserved s u)
  have ha : P (State.logSats s (State.raiseReady s u)).err := hsats _ _ hr (hready ▸ h)
  have hb : (State.logSats s (State.raiseReady s u)).carry.rst = u.rst :=
    rst_of_reserved ((carry_reserved _).trans ((logSats_reserved s _).trans (raiseReady_reserved s u)))
  simp only [State.done, State.settled, hcarry]
  exact hsats _ _ hb ((hcarry _).symm ▸ ha)

theorem done_grows (s u : State) : LogGrows u.err (State.done s u).err :=
  done_err_of_log (LogGrows u.err) s u (fun x e _ h => h.trans (log_grows x e))
    (fun _ _ h => ⟨h.ring, h.deferred⟩) (.refl _)

/-- A record of a code that is not held takes the next SEQ and a place of its own (R622, R623). -/
theorem log_ring_new (hd : s.rst.dataUp = true) (hl : s.err.ring.length < 4096)
    (hc : s.err.ring.all (fun x => x.body.code != (e.record s.mt.mt).code) = true) :
    (s.log e).err.ring.map ErrEntry.mark =
      s.err.ring.map ErrEntry.mark ++ [(s.err.newest + 1#32, (e.record s.mt.mt).code, e.d0)] := by
  rw [log_err_up hd, Err.form, tryRepeat_none hc, ite_self]
  dsimp only
  rw [if_pos (show s.err.ring.length < ringSize from hl), List.map_append]
  rfl

/-! ### RST_REQ (R127) -/

/-- The levels that fuses give are those of a reset (Table 6.2). -/
theorem fuseLevel_le (map : Word) (src : Nat) : fuseLevel map src ≤ 3 := by
  have hb : bits map (3 * src + 2) (3 * src) < 8 := by
    have h : 3 * src + 2 + 1 - 3 * src = 3 := by omega
    simpa [bits, h] using BitVec.isLt (map.extractLsb' (3 * src) 3)
  unfold fuseLevel
  dsimp only
  split_ifs
  · omega
  · omega
  · by_cases hs : src < 8
    · interval_cases src <;> decide
    · exact (List.getD_eq_default _ _ (by simpa using hs)).le

/-- RST_CAUSE shows the requested level in its bits 13 to 12 (Table 6.9). -/
theorem causeWord_reqLevel {r : Rst} (hq : r.reqLevel < 4) (hl : r.level < 16) :
    bits r.causeWord 13 12 = r.reqLevel := by
  have hcut : r.causeWord.extractLsb' 12 2 = BitVec.ofNat 2 r.reqLevel := by
    apply BitVec.eq_of_getLsbD_eq
    intro k hk
    have hlk : r.level.testBit (12 + k - 8) = false :=
      Nat.testBit_lt_two_pow (hl.trans_le (Nat.pow_le_pow_right (show 0 < 2 by norm_num) (show 4 ≤ 12 + k - 8 by omega)))
    have hsk : r.seen.getLsbD (12 + k) = false := BitVec.getLsbD_of_ge _ _ (by omega)
    have h12 : 12 + k < 32 := by omega
    have h32 : k < 32 := by omega
    simp only [Rst.causeWord, at32, BitVec.getLsbD_extractLsb', BitVec.getLsbD_or, BitVec.getLsbD_shiftLeft,
      BitVec.getLsbD_ofNat, BitVec.getLsbD_setWidth, BitVec.truncate_eq_setWidth, hlk, hsk]
    simp [hk, h12, h32]
  rw [bits, show 13 + 1 - 12 = 2 from rfl, hcut, BitVec.toNat_ofNat]
  exact Nat.mod_eq_of_lt hq

theorem rstReq_accepted {v : Word} (hc : s.rst.ctrlUp = true) (hk : bits v 31 24 = 0xA5) (hl : bits v 1 0 ≠ 0) :
    s.rstReq v = (s.modRst fun r => { r with reqLevel := bits v 1 0 }).assertSource 4
      (max (bits v 1 0) (fuseLevel s.rst.fuse 4)) := by
  simp only [State.rstReq, hc, hk, Bool.not_true, Bool.false_eq_true, if_false]
  exact if_pos ⟨trivial, hl⟩

theorem rstReq_ignored {v : Word} (hc : s.rst.ctrlUp = true) (hk : bits v 31 24 ≠ 0xA5 ∨ bits v 1 0 = 0) :
    s.rstReq v = s.log { code := 0x4102, source := 0, d0 := v } := by
  simp only [State.rstReq, hc, Bool.not_true, Bool.false_eq_true, if_false]
  exact if_neg fun h => hk.elim (absurd h.1) h.2

/-- A write that is ignored leaves every part of the state (R127). -/
theorem keptBut_log (s : State) (e : ErrSpec) : KeptBut [] s (State.done s (s.log e)) :=
  keptBut_of_quiet (log_quiet s e) rfl fun _ _ => Kept.refl

/-- Settles O53: the asserted level is the shallower of the two, and never shallower than one that governs; a
write that is ignored does nothing but log itself. -/
theorem hostResetRequests : Obligations.HostResetRequests := by
  refine ⟨fun s v hc hk ⟨h1, h3⟩ => ?_, fun s v ⟨hc, hd⟩ hk hl hall => ?_, fun s v ⟨hc, hd⟩ hk => ?_⟩
  · refine ⟨_, rfl, ?_⟩
    have hs := assertSource_sources (s.modRst fun r => { r with reqLevel := bits v 1 0 }) 4
      (max (bits v 1 0) (fuseLevel s.rst.fuse 4))
    rw [← rstReq_accepted hc hk (by omega)] at hs
    simp only [State.sources, Prod.mk.injEq] at hs
    obtain ⟨hasserted, hseen, hlevel, hreq, -, -⟩ := hs
    rw [rst_of_reserved (done_reserved s (s.rstReq v)), hasserted, hseen]
    have hmax : max (bits v 1 0) (fuseLevel s.rst.fuse 4) ≤ 3 := max_le h3 (fuseLevel_le _ _)
    refine ⟨by simp, by simp, hreq, ?_, hlevel⟩
    rw [causeWord_reqLevel (by rw [hreq]; show bits v 1 0 < 4; omega) (by rw [hlevel]; omega), hreq]
    rfl
  · refine ⟨State.done s (s.rstReq v), rfl, ?_⟩
    rw [rstReq_ignored hc hk]
    have hg := (done_grows s (s.log { code := 0x4102, source := 0, d0 := v })).ring
    rw [log_ring_new (e := { code := 0x4102, source := 0, d0 := v }) hd hl hall] at hg
    have ht := (List.prefix_iff_eq_take.mp hg).symm
    rw [List.length_append, List.length_map] at ht
    exact ⟨ht, keptBut_log s _⟩
  · refine ⟨State.done s (s.rstReq v), rfl, ?_⟩
    rw [rstReq_ignored hc hk]
    have hg := (done_grows s (s.log { code := 0x4102, source := 0, d0 := v })).deferred
    rw [log_err_down hd] at hg
    refine ⟨?_, keptBut_log s _⟩
    have ht := congrArg (List.map fun r : ErrRec => (r.code, r.d0)) (List.prefix_iff_eq_take.mp hg).symm
    simpa [ErrSpec.record] using ht

end

end Sys2Proof.Machine

/-! SUPPORT. A trip record that waits for its urgent aux reading when the context reset of its group starts: the
queue is emptied, and the record takes AUXF 2 (R239). -/

namespace Sys2Proof.Machine

section

/-- Group 0 with its context reset due and every port released; a trip record of port 0 waits for the class 0
request that reads its aux channel. -/
def waitingTrip : State :=
  { State.reset with
    rst := { State.reset.rst with level := 4, phase := .running, ctrlUp := true, mgmtUp := true, dataUp := true }
    grp := [(0, { Grp.init with
      ctxDue := true
      trips := [{ TripRec.init with seq := 3 }]
      acq := { Grp.init.acq with urg := [⟨0, 0, 0, 0, 0, 0, 3, 0, Conv.init⟩] } })] }

/-- The reset empties the urgent queue, and the record is marked for what it lost. -/
theorem groupContextResetStart_waitingTrip (t : State)
    (h : exec (.groupContextResetStart 0) waitingTrip = .next t) :
    (t.grpAt 0).trips.map TripRec.auxf = [2#8] := by
  obtain rfl := Host.Outcome.next.inj h
  rw [done_grpAt]
  decide +kernel

/-- Refutes O37: a trip record that waits for its aux reading loses it to the context reset and takes AUXF 2, where
the first clause has the records stand (`waitingTrip`). -/
theorem not_groupResetsAndFuses : ¬ Obligations.GroupResetsAndFuses := by
  intro h
  obtain ⟨start, -⟩ := h
  obtain ⟨t, ht, -, -, -, -, -, -, -, -, -, -, -, htrips, -⟩ :=
    start waitingTrip 0 (by decide +kernel) rfl (by decide +kernel)
  have hlost := groupContextResetStart_waitingTrip t ht
  rw [htrips] at hlost
  exact absurd hlost (by decide)

end

end Sys2Proof.Machine

/-! SUPPORT. Frames of operations: the parts of the state that an operation leaves alone, one after another. -/

namespace Sys2Proof.Machine

section
variable {s t u : State} {l m : List Piece}

/-- Every part but those listed, and the clock, is the same in two states. -/
structure Spares (l : List Piece) (s t : State) : Prop where
  clk : t.clk = s.clk
  parts : ∀ p, p ∉ l → Kept s t p

theorem Spares.refl : Spares l s s := ⟨rfl, fun _ _ => Kept.refl⟩

theorem Spares.trans (h : Spares l s t) (k : Spares l t u) : Spares l s u :=
  ⟨k.clk.trans h.clk, fun p hp => (h.parts p hp).trans (k.parts p hp)⟩

theorem Spares.mono (h : Spares m s t) (hl : m ⊆ l) : Spares l s t :=
  ⟨h.clk, fun p hp => h.parts p fun hm => hp (hl hm)⟩

theorem Spares.of_quiet (h : t.quiet = s.quiet) : Spares l s t :=
  ⟨(congrArg State.clk h :), fun p _ => kept_of_quiet h p⟩

theorem Spares.of_eq (h : t = s) : Spares l s t := h ▸ .refl

/-- A step whose work spares a part spares it. -/
theorem Spares.done (h : Spares l s u) : KeptBut l s (State.done s u) := keptBut_done h.clk h.parts

theorem Spares.ite {c : Prop} [Decidable c] (ht : Spares l s t) (hu : Spares l s u) :
    Spares l s (if c then t else u) := by
  split <;> assumption

theorem Spares.foldl {β : Type} {f : State → β → State} (hf : ∀ s x, Spares l s (f s x)) (xs : List β) (s : State) :
    Spares l s (xs.foldl f s) := by
  induction xs generalizing s with
  | nil => exact .refl
  | cons x xs ih => exact (hf s x).trans (ih _)

/-! ### Changes of one block -/

theorem spares_rst {x : Rst} (hl : .rst ∈ l) : Spares l s { s with rst := x } :=
  ⟨rfl, fun p hp => by cases p <;> simp_all [Kept]⟩

theorem spares_peat {x : Peat} (hl : .peat ∈ l) : Spares l s { s with peat := x } :=
  ⟨rfl, fun _ hp => kept_peat hl hp⟩

theorem spares_pfe {x : Pfe} (hl : .pfe ∈ l) : Spares l s { s with pfe := x } :=
  ⟨rfl, fun _ hp => kept_pfe hl hp⟩

theorem spares_que {x : Queues} (hl : .que ∈ l) : Spares l s { s with que := x } :=
  ⟨rfl, fun _ hp => kept_que hl hp⟩

theorem spares_sto {x : Sto} (hl : .sto ∈ l) : Spares l s { s with sto := x } :=
  ⟨rfl, fun _ hp => kept_sto hl hp⟩

theorem spares_sets {x : Sets} (hl : .sets ∈ l) : Spares l s { s with sets := x } :=
  ⟨rfl, fun _ hp => kept_sets hl hp⟩

theorem spares_cal {x : Cal} (hl : .cal ∈ l) : Spares l s { s with cal := x } :=
  ⟨rfl, fun _ hp => kept_cal hl hp⟩

theorem spares_grp {x : Tab Grp} (hl : .grp ∈ l) : Spares l s { s with grp := x } :=
  ⟨rfl, fun _ hp => kept_grp hl hp⟩

theorem spares_iso {x : Iso} (hl : .iso ∈ l) : Spares l s { s with iso := x } :=
  ⟨rfl, fun _ hp => kept_iso hl hp⟩

theorem spares_misc {x : Misc} (hl : .misc ∈ l) : Spares l s { s with misc := x } :=
  ⟨rfl, fun _ hp => kept_misc hl hp⟩

theorem spares_twin {x : Twin} (hl : .twin ∈ l) : Spares l s { s with twin := x } :=
  ⟨rfl, fun _ hp => kept_twin hl hp⟩

theorem spares_mt {x : MtBlk} (hl : .mt ∈ l) : Spares l s { s with mt := x } :=
  ⟨rfl, fun _ hp => kept_mt hl hp⟩

theorem spares_fig {x : Tab Fig} (hl : .fig ∈ l) : Spares l s { s with fig := x } :=
  ⟨rfl, fun p hp => by cases p <;> simp_all [Kept]⟩

theorem spares_sp {x : Tab Sp} (hl : .sp ∈ l) : Spares l s { s with sp := x } :=
  ⟨rfl, fun p hp => by cases p <;> simp_all [Kept]⟩

theorem spares_err {x : Err} : Spares l s { s with err := x } := ⟨rfl, fun _ _ => kept_err⟩

theorem spares_peatPfeQue {x : Peat} {y : Pfe} {z : Queues} (hp : .peat ∈ l) (hf : .pfe ∈ l) (hq : .que ∈ l) :
    Spares l s { s with peat := x, pfe := y, que := z } :=
  ⟨rfl, fun p h => by cases p <;> simp_all [Kept]⟩

theorem spares_peatSto {x : Peat} {y : Sto} (hp : .peat ∈ l) (hs : .sto ∈ l) :
    Spares l s { s with peat := x, sto := y } :=
  ⟨rfl, fun p h => by cases p <;> simp_all [Kept]⟩

/-! ### Records and losses -/

variable (s)

theorem log_spares (e : ErrSpec) : Spares l s (s.log e) := .of_quiet (log_quiet s e)

theorem produce_spares (hl : .que ∈ l) (qid : Nat) (b : Building) : Spares l s (s.produce qid b) := by
  unfold State.produce
  exact .ite (spares_que hl) .refl

theorem queueEvent_spares (hl : .que ∈ l) (qid : Nat) (e : QueueEvent) : Spares l s (s.queueEvent qid e) := by
  unfold State.queueEvent
  exact .ite (log_spares ..) (produce_spares _ hl ..)

theorem reportLoss_spares (hl : .que ∈ l) (qid cause : Nat) (first last count era : Word) :
    Spares l s (s.reportLoss qid cause first last count era) := by
  unfold State.reportLoss
  exact .ite (queueEvent_spares s hl ..) (spares_que hl)

theorem reportRange_spares (hl : .que ∈ l) (era : Word) (r : LossRange) : Spares l s (s.reportRange era r) := by
  unfold State.reportRange
  exact .ite .refl (.ite (reportLoss_spares s hl ..) (.foldl (fun t _ => reportLoss_spares t hl ..) _ _))

theorem syncPeat_spares (hl : .peat ∈ l) : Spares l s s.syncPeat := by
  unfold State.syncPeat
  exact .ite .refl (.ite (spares_peat hl) (spares_peat hl))

theorem logDeferred_spares : Spares l s s.logDeferred :=
  .of_quiet (foldl_quiet _ (fun t r => formErr_quiet t r) _ _)

theorem reportExcess_spares : Spares l s s.reportExcess := by
  unfold State.reportExcess
  exact .ite .refl (log_spares ..)

theorem reportPeat_spares (hq : .que ∈ l) (hp : .peat ∈ l) (hf : .pfe ∈ l) : Spares l s s.reportPeat := by
  unfold State.reportPeat
  refine .ite ?_ (syncPeat_spares s hp)
  extract_lets xs t
  have ht : Spares l s t :=
    (Spares.foldl (fun t r => reportRange_spares t hq (s.peat.era - 1#32) r) xs s).trans (reportExcess_spares _)
  exact ht.trans (spares_peatPfeQue hp hf hq)

theorem reportSaved_spares (hl : .que ∈ l) : Spares l s s.reportSaved := by
  unfold State.reportSaved
  exact (spares_que hl).trans (.foldl (fun t _ => reportLoss_spares t hl ..) _ _)

theorem reportApertures_spares (hf : .fig ∈ l) (hq : .que ∈ l) : Spares l s s.reportApertures := by
  unfold State.reportApertures
  exact .foldl (fun t _ => (spares_fig hf).trans (.foldl (fun t _ => produce_spares t hq ..) _ _)) _ _

theorem pagesLost_spares (hq : .que ∈ l) (hs : .sto ∈ l) (hp : .peat ∈ l) : Spares l s s.pagesLost := by
  unfold State.pagesLost
  extract_lets pkts qids era t
  have ht : Spares l s t := .foldl (fun t _ => .foldl (fun t _ => reportLoss_spares t hq ..) _ _) _ s
  exact ht.trans (spares_peatSto hp hs)

/-- The parts that the release of the data plane may change. -/
def releaseParts : List Piece := [.rst, .peat, .pfe, .que, .sto, .fig]

/-- The release of the data plane forms the records that waited and reports the losses. -/
theorem dataRelease_spares : Spares releaseParts s s.dataRelease := by
  unfold State.dataRelease
  refine .ite ?_ .refl
  extract_lets t u
  have ht : Spares releaseParts s t := spares_rst (by decide)
  have hu : Spares releaseParts t u :=
    (logDeferred_spares t).trans ((reportPeat_spares _ (by decide) (by decide) (by decide)).trans
      ((reportSaved_spares _ (by decide)).trans (reportApertures_spares _ (by decide) (by decide))))
  exact (ht.trans hu).trans (.ite (pagesLost_spares u (by decide) (by decide) (by decide)) .refl)

theorem dataRelease_same (h : s.releases = false) : s.dataRelease = s := by
  unfold State.dataRelease
  exact if_neg (Bool.eq_false_iff.mp h)

end

end Sys2Proof.Machine

/-! SUPPORT. The sources released, the supply watched, and the test holds (R60, R125, R139). -/

namespace Sys2Proof.Machine

section
variable {s t u : State}

/-- The peat store without its copy of the log's position and its write sequence. -/
def Peat.lasting (p : Peat) : Peat := { p with errNewest := 0, errAck := 0, errFirst := none, writeSeq := 0 }

theorem lasting_of_quiet (h : t.quiet = s.quiet) : t.peat.lasting = s.peat.lasting :=
  (congrArg State.peat h :)

theorem stamped_lasting (p q : Peat) : (p.stamped q).lasting = q.lasting := by
  unfold Peat.stamped
  split <;> rfl

/-- The end of a step touches no more of the peat store than that. -/
theorem done_lasting (s u : State) : (State.done s u).peat.lasting = u.peat.lasting := by
  have hd : (State.done s u).peat = s.peat.stamped (State.settled s u).peat := by simp only [State.done]
  rw [hd, stamped_lasting, Peat.lasting, settled_peat, ← Peat.lasting]

/-- A field of the peat store that the log leaves is the same after the step. -/
theorem done_peat_field {α : Type} (f : Peat → α) (hf : ∀ p : Peat, f p.lasting = f p) (s u : State) :
    f (State.done s u).peat = f u.peat := by
  rw [← hf, done_lasting, hf]

/-- A step whose work changes the reset block alone. -/
theorem stepRst (s : State) (r : Rst) : (State.done s { s with rst := r }).rst = r ∧
    KeptBut [.rst] s (State.done s { s with rst := r }) :=
  ⟨done_rst s _, (spares_rst (by decide)).done⟩

/-- The first record of an empty ring. -/
theorem log_head {e : ErrSpec} (hd : s.rst.dataUp = true) (hr : s.err.ring = []) {a : Err}
    (hg : LogGrows (s.log e).err a) :
    a.ring.head?.map (fun x => (x.body.code, x.body.d0)) = some ((e.record s.mt.mt).code, e.d0) := by
  have hnew := log_ring_new (e := e) hd (by rw [hr]; decide) (by rw [hr]; rfl)
  obtain ⟨l, hl⟩ := hg.ring
  rw [hnew, hr] at hl
  cases hu : a.ring with
  | nil => rw [hu] at hl; cases hl
  | cons x m =>
    rw [hu, List.map_cons, List.map_nil, List.nil_append, List.cons_append, List.cons.injEq] at hl
    obtain ⟨ha, -⟩ := hl
    simp only [ErrEntry.mark, Prod.mk.injEq] at ha
    obtain ⟨-, hc, h0⟩ := ha
    simp only [List.head?_cons, Option.map_some, hc, h0]

/-! ### The supply's samples (R60) -/

/-- A sample below 10.8 V, of a supply that is not asserted, keeps the lowest value. -/
theorem exec_marginSample_low {mv : Nat} (h0 : s.rst.asserted.getLsbD 0 = false) (hmv : mv < 10800) :
    exec (.supplyMarginSample mv) s = .next (State.done s
      { s with rst := { s.rst with excursion := some (min mv (s.rst.excursion.getD mv)) } }) := by
  have hmin : some (match s.rst.excursion with | some x => min x mv | none => mv) =
      some (min mv (s.rst.excursion.getD mv)) := by
    cases s.rst.excursion with
    | none => rw [Option.getD_none, Nat.min_self]
    | some x => rw [Option.getD_some, Nat.min_comm]
  show finish s (if s.rst.asserted.getLsbD 0 then s else if mv < 10800 then _ else _) = _
  rw [if_neg (ne_true_of_eq_false h0), if_pos hmv, ← hmin]
  rfl

/-- One above it ends an excursion and writes its record. -/
theorem exec_marginSample_high {mv x : Nat} (h0 : s.rst.asserted.getLsbD 0 = false) (hmv : 10800 < mv)
    (hx : s.rst.excursion = some x) : exec (.supplyMarginSample mv) s = .next (State.done s
      (({ s with rst := { s.rst with excursion := none } } : State).log (marginRecord x 0))) := by
  show finish s (if s.rst.asserted.getLsbD 0 then s else if mv < 10800 then _ else match s.rst.excursion with
    | some x => if 10800 < mv then _ else s
    | none => s) = _
  rw [if_neg (ne_true_of_eq_false h0), if_neg (by omega), hx]
  dsimp only
  rw [if_pos hmv]
  rfl

/-- Any other does nothing. -/
theorem exec_marginSample_idle {mv : Nat} (h : s.rst.asserted.getLsbD 0 = true ∨ mv = 10800 ∨
    10800 < mv ∧ s.rst.excursion = none) : exec (.supplyMarginSample mv) s = .next (State.done s s) := by
  show finish s (if s.rst.asserted.getLsbD 0 then s else if mv < 10800 then _ else match s.rst.excursion with
    | some x => if 10800 < mv then _ else s
    | none => s) = _
  split
  · rfl
  next h0 =>
    obtain hmv | ⟨hmv, hx⟩ := h.resolve_left h0
    · rw [if_neg (by omega)]
      cases s.rst.excursion with
      | none => rfl
      | some x => dsimp only; rw [if_neg (by omega)]; rfl
    · rw [if_neg (by omega), hx]
      rfl

theorem excursion_none {r : Rst} (h : r.excursion = none) : { r with excursion := none } = r := by
  cases r
  cases h
  rfl

theorem stepExcursion (s : State) (e : ErrSpec) :
    (State.done s (({ s with rst := { s.rst with excursion := none } } : State).log e)).rst =
      { s.rst with excursion := none } ∧
    KeptBut [.rst] s (State.done s (({ s with rst := { s.rst with excursion := none } } : State).log e)) := by
  refine ⟨?_, ((spares_rst (by decide)).trans (log_spares ..)).done⟩
  rw [done_rst, rst_of_reserved (log_reserved ..)]

theorem excursion_head {x : Nat} (hd : s.rst.dataUp = true) (hr : s.err.ring = []) :
    (State.done s (({ s with rst := { s.rst with excursion := none } } : State).log (marginRecord x 0))).err.ring.head?.map
      (fun e => (e.body.code, e.body.d0)) = some (0x4201#16, BitVec.ofNat 32 x) := by
  have hhead := log_head (s := { s with rst := { s.rst with excursion := none } }) (e := marginRecord x 0) hd hr
    (done_grows s _)
  rw [hhead]
  rfl

/-! ### Holds lifted (R139) -/

/-- The data plane does not follow where it runs already, or its steps are not done. -/
theorem releases_false (h : s.rst.dataUp = true ∨ s.rst.staging = false ∨ s.rst.mgmtUp = false ∨
    s.rst.phase ≠ .running) : s.releases = false := by
  obtain h | h | h | h := h <;> simp [State.releases, h]

theorem releases_unheld (hd : s.rst.dataUp = false) (hs : s.rst.staging = true) (hm : s.rst.mgmtUp = true)
    (hp : s.rst.phase = .running) (hh : s.heldAt [1, 2, 5] = false) : s.releases = true := by
  simp [State.releases, hd, hs, hm, hp, hh]

theorem dataRelease_rst (s : State) :
    s.dataRelease.rst = if s.releases then { s.rst with dataUp := true } else s.rst :=
  congrArg Prod.fst (dataRelease_reserved s)

/-- Settles O34: each release clears its bit, and the supply, the retention power and the holds are watched in the
reset block; the release of the data plane alone reaches further. -/
theorem sourcesReleaseAndTheSupplyIsWatched : Obligations.SourcesReleaseAndTheSupplyIsWatched := by
  refine ⟨fun s => ⟨_, rfl, stepRst s _⟩, fun s => ⟨_, rfl, stepRst s _⟩, fun s => ⟨_, rfl, stepRst s _⟩,
    fun s => ⟨_, rfl, stepRst s _⟩, fun s src hsrc => ⟨_, rfl, ?_⟩,
    fun s mv h0 hmv => ⟨_, exec_marginSample_low h0 hmv, stepRst s _⟩, fun s mv h0 hmv => ?_,
    fun s mv x ⟨h0, hd⟩ hmv hx hr => ⟨_, exec_marginSample_high h0 hmv hx, ?_⟩,
    fun s mv h => ⟨_, exec_marginSample_idle (h.imp_right .inl), keptBut_same⟩, fun s h => ⟨_, rfl, ?_⟩,
    fun s n hn => ⟨_, rfl, ?_⟩, fun s h => ⟨_, rfl, ?_⟩, fun s ⟨hd, hst, hm, hp⟩ => ⟨_, rfl, ?_⟩⟩
  · rw [if_pos hsrc]
    exact stepRst s _
  · cases hx : s.rst.excursion with
    | none =>
      refine ⟨_, exec_marginSample_idle (.inr (.inr ⟨hmv, hx⟩)), ?_, keptBut_same.mono (by simp)⟩
      rw [done_rst, excursion_none hx]
    | some x => exact ⟨_, exec_marginSample_high h0 hmv hx, stepExcursion s (marginRecord x 0)⟩
  · obtain ⟨hrst, hk⟩ := stepExcursion s (marginRecord x 0)
    exact ⟨hrst, excursion_head hd hr, hk⟩
  · rw [if_pos h]
    refine ⟨done_peat_field Peat.lostPower (fun _ => rfl) s _, done_peat_field Peat.signed (fun _ => rfl) s _,
      done_peat_field Peat.regs (fun _ => rfl) s _, done_peat_field Peat.history (fun _ => rfl) s _,
      done_peat_field Peat.era (fun _ => rfl) s _, done_rst s _, Spares.done ?_⟩
    exact (spares_peat (by decide)).trans (spares_rst (by decide))
  · dsimp only
    rw [if_pos hn]
    exact stepRst s _
  · dsimp only
    have hrel : (s.modRst fun r => { r with hold := none }).releases = false := releases_false h
    rw [dataRelease_same _ hrel]
    exact stepRst s _
  · have hrel : State.releases { s with rst := { s.rst with hold := none } } = true :=
      releases_unheld hd hst hm hp rfl
    have hrst := dataRelease_rst { s with rst := { s.rst with hold := none } }
    rw [hrel] at hrst
    refine ⟨(done_rst s _).trans hrst, ?_⟩
    have hk : Spares releaseParts s (State.dataRelease { s with rst := { s.rst with hold := none } }) :=
      (spares_rst (by decide)).trans (dataRelease_spares _)
    exact ⟨hk.clk, rfl, rfl, (hk.mono (by decide)).done⟩

end

end Sys2Proof.Machine

/-! SUPPORT. What the assertion of a source sets off (R129, R130): the management plane alone at L3, every plane at
once for SUPPLY and CLK at L1 and L0. -/

namespace Sys2Proof.Machine

section
variable {s t u : State} {l : List Piece}

/-! ### Tables -/

theorem tget?_tmap {α β : Type} (f : Nat → α → β) (t : Tab α) (k : Nat) :
    tget? (tmap f t) k = (tget? t k).map (f k) := by
  induction t with
  | nil => rfl
  | cons e t ih =>
    obtain ⟨n, x⟩ := e
    rw [tmap, List.map_cons, tget?, tget?, ← tmap, ih]
    split
    next h => rw [h, Option.map_some]
    next => rfl

/-- What a change of every entry leaves of each is left of the entry at an index. -/
theorem tget_tmap_of {α β : Type} {d : α} {f : Nat → α → α} (π : α → β) (h : ∀ k x, π (f k x) = π x) (t : Tab α)
    (k : Nat) : π (tget d (tmap f t) k) = π (tget d t k) := by
  rw [tget, tget, tget?_tmap]
  cases tget? t k with
  | none => rfl
  | some x => exact h k x

variable (s)

/-! ### The management plane (R32, R563) -/

theorem sendReliable_spares (ftype : Nat) : Spares l s (s.sendReliable ftype) :=
  ⟨rfl, fun p _ => by cases p <;> simp [Kept, State.sendReliable]⟩

theorem modGrp_spares (hl : .grp ∈ l) (g : Nat) (f : Grp → Grp) : Spares l s (s.modGrp g f) := spares_grp hl

theorem spareIdle_spares (hl : .grp ∈ l) (g : Nat) : Spares l s (s.spareIdle g) := by
  unfold State.spareIdle State.spare State.spareFollow
  exact ((modGrp_spares _ hl ..).trans (modGrp_spares _ hl ..)).trans (.ite (modGrp_spares _ hl ..) .refl)

theorem spareIdle_sp (g : Nat) : (s.spareIdle g).sp = s.sp := by
  unfold State.spareIdle State.spare State.spareFollow
  dsimp only
  split <;> rfl

theorem tellBusy_spares (b : State) : Spares l s (State.tellBusy b s) := by
  unfold State.tellBusy
  exact .ite (sendReliable_spares s _) .refl

/-- A cut of calibration touches the groups and the calibration block, no port. -/
theorem calCut_spares (hg : .grp ∈ l) (hc : .cal ∈ l) : Spares l s s.calCut := by
  unfold State.calCut
  extract_lets runs t1 t2 t3
  have h1 : Spares l s t1 := .foldl (fun t g => spareIdle_spares t hg g) _ _
  have h2 : Spares l t1 t2 := spares_cal hc
  have h3 : Spares l t2 t3 := spares_grp hg
  exact ((h1.trans h2).trans h3).trans (tellBusy_spares t3 s)

theorem calCut_sp : s.calCut.sp = s.sp := by
  unfold State.calCut
  extract_lets runs t1 t2 t3
  have h1 : t1.sp = s.sp := by
    simp only [t1]
    generalize List.filter _ (List.range s.groups) = gs
    clear * -
    induction gs generalizing s with
    | nil => rfl
    | cons g gs ih => rw [List.foldl_cons, ih, spareIdle_sp]
  have ht : (State.tellBusy s t3).sp = t3.sp := by unfold State.tellBusy; split <;> rfl
  exact ht.trans h1

/-- A port whose answers go to no command any more. -/
def Sp.disowned (x : Sp) : Sp :=
  { x with sup := { x.sup with
      leadCmd := x.sup.leadCmd.map (fun _ => (256, 0#16)), releaseCmd := x.sup.releaseCmd.map (fun _ => (256, 0#16)) } }

theorem disown_sp : s.disown.sp = tmap (fun _ => Sp.disowned) s.sp := rfl

/-- What disowns the commands' work leaves force, loops and measurement. -/
theorem disown_spAt (p : Nat) : (s.disown.spAt p).force = (s.spAt p).force ∧
    (s.disown.spAt p).loop = (s.spAt p).loop ∧ (s.disown.spAt p).meas = (s.spAt p).meas := by
  rw [State.spAt, State.spAt, disown_sp]
  exact ⟨tget_tmap_of (f := fun _ => Sp.disowned) Sp.force (fun _ _ => rfl) _ _,
    tget_tmap_of (f := fun _ => Sp.disowned) Sp.loop (fun _ _ => rfl) _ _,
    tget_tmap_of (f := fun _ => Sp.disowned) Sp.meas (fun _ _ => rfl) _ _⟩

/-- The parts that a reset of the management plane may change. -/
def mgmtParts : List Piece := [.rst, .sets, .requests, .misc, .twin, .que, .sto, .grp, .sp, .cal, .mbx]

theorem disown_spares : Spares mgmtParts s s.disown :=
  ⟨rfl, fun p hp => by cases p <;> simp_all [Kept, mgmtParts, State.disown]⟩

theorem mgmtReset_spares : Spares mgmtParts s s.mgmtReset := by
  have h : Spares mgmtParts s s.calCut.disown :=
    (calCut_spares s (by decide) (by decide)).trans (disown_spares _)
  refine h.trans ?_
  unfold State.mgmtReset
  generalize s.calCut.disown = t
  exact ⟨rfl, fun p hp => by cases p <;> simp_all [Kept, mgmtParts]⟩

theorem mgmtReset_spAt (p : Nat) : (s.mgmtReset.spAt p).force = (s.spAt p).force ∧
    (s.mgmtReset.spAt p).loop = (s.spAt p).loop ∧ (s.mgmtReset.spAt p).meas = (s.spAt p).meas := by
  have h : s.calCut.spAt p = s.spAt p := by rw [State.spAt, calCut_sp, State.spAt]
  rw [← h]
  exact disown_spAt s.calCut p

/-! ### The data plane and staging DRAM -/

theorem stagingLost_rst : s.stagingLost.rst = { s.rst with staging := false, train := true } := rfl

/-- What the stop makes of a state whose open apertures it has put by: rings, queues and operations go. -/
def State.dataCut (s t : State) : State :=
  { t with
    que :=
      if s.rst.level ≤ 1 then
        { Queues.init with
          saved := tmap (fun _ q => q.entry s.peat.era) t.que.q
          lostDue := t.que.lostDue, lostAll := t.que.lostAll, lostDone := t.que.lostDone }
      else { t.que with
        q := tmap (fun _ (q : Queue) => { Queue.init with next := q.next, ringLog2 := q.ringLog2, hot := q.hot }) t.que.q
        saved := tmap (fun _ q => q.entry s.peat.era) t.que.q
        flushes := [] }
    host := { t.host with hdr := [] }
    grp := tmap (fun _ x => { x with acq := { x.acq with cap := none } }) t.grp
    sto := { t.sto with
      pages := t.sto.pages.map Page.again, ops := [], drainReset := [], chanReset := [], sinceLow := []
      cutOps := if s.rst.level ≤ 1 then [] else
        ((s.sto.ops.filter (fun o => o.running && o.kind != .read)).map (fun o => o.target)).foldl insAsc t.sto.cutOps
      state := if s.rst.level ≤ 1 then .scanning else t.sto.state
      flags := if s.rst.level ≤ 1 then 0#32 else t.sto.flags } }

/-- The data plane is down, and staging DRAM is not ready. -/
def State.dataDown (s : State) : State := s.modRst (fun r => { r with dataUp := false, staging := false })

theorem dataStop_eq : s.dataStop =
    if s.rst.level = 0 then
      (s.dataCut (if s.rst.level ≤ 1 then s.dataDown else s.dataDown.aperturesLost)).stagingLost
    else s.dataCut (if s.rst.level ≤ 1 then s.dataDown else s.dataDown.aperturesLost) := rfl

theorem dataStop_rst : s.dataStop.rst =
    { s.rst with dataUp := false, staging := false, train := s.rst.train || s.rst.level == 0 } := by
  have hcut (t : State) : (s.dataCut t).rst = t.rst := rfl
  have hdown : s.dataDown.rst = { s.rst with dataUp := false, staging := false } := rfl
  have hput : (if s.rst.level ≤ 1 then s.dataDown else s.dataDown.aperturesLost).rst = s.dataDown.rst := by
    split
    · rfl
    · exact rst_of_reserved (aperturesLost_reserved _)
  rw [dataStop_eq]
  split
  next h0 => rw [stagingLost_rst, hcut, hput, hdown, h0, beq_self_eq_true, Bool.or_true]
  next h0 => rw [hcut, hput, hdown, beq_eq_false_iff_ne.mpr h0, Bool.or_false]

theorem stagingDown_up (hd : s.rst.dataUp = true) : s.stagingDown = s.dataStop := by
  unfold State.stagingDown
  rw [if_pos hd]
  refine if_neg ?_
  rw [dataStop_rst]
  cases s.rst.train <;> simp

theorem stagingDown_down (hd : s.rst.dataUp = false) : s.stagingDown =
    if s.rst.level = 0 ∧ s.rst.train = false then (s.modRst fun r => { r with staging := false }).stagingLost
    else s.modRst fun r => { r with staging := false } := by
  unfold State.stagingDown
  rw [if_neg (ne_true_of_eq_false hd)]
  dsimp only
  have hc : (decide (s.rst.level = 0) && !(s.modRst fun r => { r with staging := false }).rst.train) = true ↔
      s.rst.level = 0 ∧ s.rst.train = false := by simp [State.modRst]
  simp only [hc]

theorem dataUp_false {r : Rst} (h : r.dataUp = false) (b : Bool) :
    { r with staging := false, train := b } = { r with dataUp := false, staging := false, train := b } := by
  cases r
  cases h
  rfl

theorem stagingDown_rst : s.stagingDown.rst =
    { s.rst with dataUp := false, staging := false, train := s.rst.train || s.rst.level == 0 } := by
  cases hd : s.rst.dataUp with
  | true => rw [stagingDown_up s hd, dataStop_rst]
  | false =>
    rw [stagingDown_down s hd, ← dataUp_false hd]
    split
    next h =>
      obtain ⟨h0, -⟩ := h
      have hb : (s.rst.train || s.rst.level == 0) = true := by rw [h0, beq_self_eq_true, Bool.or_true]
      rw [stagingLost_rst, hb]
      rfl
    next h =>
      have hb : (s.rst.train || s.rst.level == 0) = s.rst.train := by
        cases ht : s.rst.train <;> simp_all
      rw [hb]
      rfl

/-! ### Assertion -/

/-- The source joins the asserted and the seen, the deepest level governs and the phase follows. -/
def State.marked (s : State) (src level : Nat) : State :=
  s.modRst (fun r =>
    { r with
      asserted := r.asserted ||| BitVec.twoPow 8 src
      seen := r.seen ||| BitVec.twoPow 8 src
      level := min level s.rst.level
      phase := if s.rst.ordering then .ordered else .inReset })

/-- At L3 a source resets the management plane alone. -/
theorem assertSource_three {src level : Nat} (h : min level s.rst.level = 3) : s.assertSource src level =
    if s.rst.mgmtUp then (s.marked src level).mgmtReset else s.marked src level := by
  unfold State.assertSource
  dsimp only
  rw [if_pos (by omega), if_neg (by omega)]
  rfl

/-- SUPPLY and CLK act at once at L1 and L0. -/
theorem assertSource_hard {src level : Nat} (hsrc : src = 0 ∨ src = 6) (h : min level s.rst.level ≤ 1) :
    s.assertSource src level = (if s.rst.ctrlUp then (s.marked src level).enterReset true
      else (s.marked src level).modRst (fun r => { r with hold := none })).stagingDown := by
  have hs : (src == 0 || src == 6) = true := by simpa using hsrc
  unfold State.assertSource
  dsimp only
  rw [if_neg (by omega), if_pos hs]
  rfl

/-- The planes after an assertion at L3: the management plane is down, the others as they were. -/
theorem assertSource_three_planes {src level : Nat} (h : min level s.rst.level = 3) :
    (s.assertSource src level).rst.mgmtUp = false ∧ (s.assertSource src level).rst.ctrlUp = s.rst.ctrlUp ∧
    (s.assertSource src level).rst.dataUp = s.rst.dataUp := by
  rw [assertSource_three s h]
  split
  next => rw [mgmtReset_rst]; exact ⟨rfl, rfl, rfl⟩
  next hm => exact ⟨Bool.eq_false_iff.mpr hm, rfl, rfl⟩

theorem assertSource_three_spares {src level : Nat} (h : min level s.rst.level = 3) :
    Spares mgmtParts s (s.assertSource src level) := by
  have hm : Spares mgmtParts s (s.marked src level) := spares_rst (by decide)
  rw [assertSource_three s h]
  exact .ite (hm.trans (mgmtReset_spares _)) hm

theorem assertSource_three_spAt {src level : Nat} (h : min level s.rst.level = 3) (p : Nat) :
    ((s.assertSource src level).spAt p).force = (s.spAt p).force ∧
    ((s.assertSource src level).spAt p).loop = (s.spAt p).loop ∧
    ((s.assertSource src level).spAt p).meas = (s.spAt p).meas := by
  rw [assertSource_three s h]
  split
  · exact mgmtReset_spAt (s.marked src level) p
  · exact ⟨rfl, rfl, rfl⟩

theorem enterReset_hard_rst : (s.enterReset true).rst = { s.rst with
    phase := if s.rst.phase == .orderedStretch then .stretch else .inReset
    pll := false, ctrlUp := false, mgmtUp := false, spiUp := false, mireUp := false
    hold := none, resetN := false, booted := false } := by
  have h (t : State) (w : Word) : (t.ctrlReset w).rst = { t.rst with
    phase := if t.rst.phase == .orderedStretch then .stretch else .inReset
    pll := false, ctrlUp := false, mgmtUp := false, spiUp := false, mireUp := false
    hold := none, resetN := false, booted := false } := rfl
  rw [State.enterReset, h]
  simp only [Bool.true_or, if_true, mgmtReset_rst]

/-- SUPPLY and CLK take every plane down at L1 and L0, and keep the supply's margin. -/
theorem assertSource_hard_planes {src level : Nat} (hsrc : src = 0 ∨ src = 6) (h : min level s.rst.level ≤ 1)
    (hup : s.rst.ctrlUp = true ∨ s.rst.mgmtUp = false ∧ s.rst.pll = false) :
    (s.assertSource src level).rst.ctrlUp = false ∧ (s.assertSource src level).rst.mgmtUp = false ∧
    (s.assertSource src level).rst.dataUp = false ∧ (s.assertSource src level).rst.pll = false ∧
    (s.assertSource src level).rst.excursion = s.rst.excursion ∧
    (s.assertSource src level).rst.margin = s.rst.margin := by
  rw [assertSource_hard s hsrc h, stagingDown_rst]
  split
  next => rw [enterReset_hard_rst]; exact ⟨rfl, rfl, rfl, rfl, rfl, rfl⟩
  next hc =>
    obtain ⟨hm, hp⟩ := hup.resolve_left hc
    exact ⟨Bool.eq_false_iff.mpr hc, hm, rfl, hp, rfl, rfl⟩

end

end Sys2Proof.Machine

/-! SUPPORT. What a source other than SUPPLY and CLK leaves alone as it asserts: the front end, time, the link and
the peat store, whatever the level (R129, R142). -/

namespace Sys2Proof.Machine

section
variable {s t u : State} {l : List Piece}

theorem Spares.of_steady (h : t.steady = s.steady) (hl : workParts ⊆ l) : Spares l s t :=
  ⟨(congrArg State.clk h :), fun _ hp => kept_of_steady h fun hw => hp (hl hw)⟩

theorem Spares.of_core (h : t.core = s.core) (hl : workParts ⊆ l) : Spares l s t := .of_steady (steady_of_core h) hl

variable (s)

/-! ### Trips -/

theorem tripFigure_spares (hl : workParts ⊆ l) (hs : .sets ∈ l) (f : Nat) (cause seq : Word) :
    Spares l s (s.tripFigure f cause seq) := by
  unfold State.tripFigure
  extract_lets flags reset t go t1 t2 t3 t4
  have h1 : t1.core = s.core := by simp [t1, t]
  have h2 : t2.steady = t1.steady := rfl
  have h3 : Spares l t2 t3 := spares_sets hs
  have h4 : t4.core = t3.core := by simp [t4]
  have h5 : Spares l t4 _ := .of_core (foldl_core (fun t g => t.auxFigCut g f) (fun t g => auxFigCut_core t g f)
    (List.range t4.groups) t4) hl
  exact (((Spares.of_core h1 hl).trans (.of_steady h2 hl)).trans h3).trans ((Spares.of_core h4 hl).trans h5)

theorem trip_spares (hl : workParts ⊆ l) (hs : .sets ∈ l) (p : Nat) (cause : Word) (mtCause : DWord) (detail : Nat) :
    Spares l s (s.trip p cause mtCause detail) := by
  unfold State.trip
  split_ifs
  · exact .refl
  · exact .of_core (addCause_core s p cause) hl
  · exact .refl
  · extract_lets g r figs t1 t2 t3 t4 t5 t6
    have h3 : t3.core = s.core := by simp [t3, t2, t1, foldl_core]
    have h4 : Spares l t3 t4 := .foldl (fun t f => tripFigure_spares t hl hs f cause _) _ _
    have h5 : t5.core = t4.core := foldl_modSp_core t4 g id (fun _ _ x => { x with slotFig := none })
    have h6 : t6.core = t5.core := by
      refine foldl_core _ (fun t q => ?_) _ _
      split <;> simp
    have h7 : (t6.tell 5).core = t4.core := (tell_core t6 5).trans (h6.trans h5)
    exact ((Spares.of_core h3 hl).trans h4).trans (.of_core h7 hl)

/-- The ordered actions trip every port, or hand over to a warm partner. -/
theorem orderedActions_spares (hl : workParts ⊆ l) (hs : .sets ∈ l) (ht : .twin ∈ l) : Spares l s s.orderedActions := by
  unfold State.orderedActions
  exact .ite ((spares_twin ht).trans (sendReliable_spares _ 9)) (.foldl (fun t p => trip_spares t hl hs ..) _ _)

/-! ### Apertures that a data plane reset meets (R22) -/

theorem listOutput_steady (f : Nat) : (s.listOutput f).steady = s.steady := by
  unfold State.listOutput
  extract_lets x t
  have ht : t.steady = s.steady := rfl
  split_ifs
  · rw [steady_of_core (ownLevel_core t f), ht]
  · exact (congrArg Prod.fst (figDisable_core f 1) :)
  · exact ht

theorem endList_steady (f state cause : Nat) : (s.endList f state cause).steady = s.steady := by
  unfold State.endList
  rw [listOutput_steady]
  exact steady_of_core (s := s) (by simp)

theorem pointEnd_steady (f state cause : Nat) (extra : BitVec 16) :
    (s.pointEnd f state cause extra).steady = s.steady := by
  unfold State.pointEnd
  split
  · rfl
  · extract_lets t
    have ht : t.core = s.core := by simp [t]
    split
    · rw [endList_steady]
      exact steady_of_core (by simp [ht])
    · exact steady_of_core (by simp [ht])

theorem apGone_steady (f : Nat) (a : Aperture) : (s.apGone f a).steady = s.steady := by
  unfold State.apGone
  extract_lets t
  have ht : t.steady = s.steady := steady_of_core (apDeliver_core s _)
  split
  · split
    · rw [pointEnd_steady, ht]
    · exact ht
  · exact ht

theorem aperturesLost_spares (hl : workParts ⊆ l) : Spares l s s.aperturesLost := by
  refine .foldl (fun t e => ?_) _ _
  split
  · exact .of_steady ((apGone_steady _ _ _).trans (steady_of_core (by simp [foldl_modSp_core]))) hl
  · exact .refl

/-! ### The assertion -/

/-- The parts that an assertion at any level may change, but for SUPPLY and CLK. -/
def assertParts : List Piece :=
  [.rst, .sets, .grp, .sp, .fig, .que, .sto, .cal, .mbx, .hdr, .requests, .window, .twin, .misc, .free]

theorem stagingLost_spares : Spares assertParts s s.stagingLost :=
  ⟨rfl, fun p hp => by cases p <;> simp_all [Kept, assertParts, State.stagingLost]⟩

theorem dataStop_spares : Spares assertParts s s.dataStop := by
  have hdown : Spares assertParts s s.dataDown := spares_rst (by decide)
  have hput : Spares assertParts s (if s.rst.level ≤ 1 then s.dataDown else s.dataDown.aperturesLost) :=
    .ite hdown (hdown.trans (aperturesLost_spares _ (by decide)))
  have hcut (t : State) : Spares assertParts t (s.dataCut t) :=
    ⟨rfl, fun p hp => by cases p <;> simp_all [Kept, assertParts, State.dataCut]⟩
  rw [dataStop_eq]
  exact .ite ((hput.trans (hcut _)).trans (stagingLost_spares _)) (hput.trans (hcut _))

theorem stagingDown_spares : Spares assertParts s s.stagingDown := by
  cases hd : s.rst.dataUp with
  | true =>
    rw [stagingDown_up s hd]
    exact dataStop_spares s
  | false =>
    have h : Spares assertParts s (s.modRst fun r => { r with staging := false }) := spares_rst (by decide)
    rw [stagingDown_down s hd]
    exact .ite (h.trans (stagingLost_spares _)) h

theorem assertSource_spares {src : Nat} (h0 : src ≠ 0) (h6 : src ≠ 6) (level : Nat) :
    Spares assertParts s (s.assertSource src level) := by
  have hard : ¬ (src == 0 || src == 6) = true := by simp [h0, h6]
  unfold State.assertSource
  extract_lets deepest ordered t hard' u v
  have ht : Spares assertParts s t := spares_rst (by decide)
  have hu : Spares assertParts s u := .ite (ht.trans ((mgmtReset_spares t).mono (by decide))) ht
  have hv : Spares assertParts s v := ht.trans (spares_rst (by decide))
  rw [if_neg (show ¬ hard' = true from hard)]
  split_ifs
  · exact hu.trans (stagingDown_spares u)
  · exact hu
  · exact ht
  · exact (ht.trans (spares_rst (by decide))).trans
      (orderedActions_spares _ (by decide) (by decide) (by decide))
  · exact hv
  · exact hv.trans (stagingDown_spares v)

end

end Sys2Proof.Machine

/-! O33. A source asserts (R125, R129, R130): one lemma for what every assertion shows, one for a level 3, one for
SUPPLY and CLK; each command is the case of its source. -/

namespace Sys2Proof.Machine

section
variable {s u : State} {l : List Piece} {src : Nat}

/-- The source has joined the asserted and the seen, and the deepest level governs. -/
def Joined (s t : State) (src level : Nat) : Prop :=
  t.rst.asserted = s.rst.asserted ||| BitVec.twoPow 8 src ∧ t.rst.seen = s.rst.seen ||| BitVec.twoPow 8 src ∧
    t.rst.level = min level s.rst.level

/-- The source has joined at L3: the management plane alone is in reset, and the ports go on. -/
def JoinedAtThree (l : List Piece) (s t : State) (src : Nat) : Prop :=
  t.rst.asserted = s.rst.asserted ||| BitVec.twoPow 8 src ∧ t.rst.seen = s.rst.seen ||| BitVec.twoPow 8 src ∧
    t.rst.level = 3 ∧ t.rst.mgmtUp = false ∧ t.rst.ctrlUp = s.rst.ctrlUp ∧ t.rst.dataUp = s.rst.dataUp ∧
    (∀ p, (t.spAt p).force = (s.spAt p).force ∧ (t.spAt p).loop = (s.spAt p).loop ∧
      (t.spAt p).meas = (s.spAt p).meas) ∧
    KeptBut l s t

theorem joined_assertSource (s u : State) (src level : Nat) :
    Joined u (State.done s (u.assertSource src level)) src level := by
  have h := assertSource_sources u src level
  simp only [State.sources, Prod.mk.injEq] at h
  obtain ⟨hasserted, hseen, hlevel, -⟩ := h
  exact ⟨hasserted, hseen, hlevel⟩

theorem joinedAtThree_assertFused (hu : Spares l s u) (hm : mgmtParts ⊆ l) (hr : u.rst = s.rst) (hsp : u.sp = s.sp)
    (h : min (fuseLevel s.rst.fuse src) s.rst.level = 3) : JoinedAtThree l s (State.done s (u.assertFused src)) src := by
  obtain ⟨hasserted, hseen, hlevel⟩ := joined_assertSource s u src (fuseLevel u.rst.fuse src)
  rw [← hr] at h
  obtain ⟨hmgmt, hctrl, hdata⟩ := assertSource_three_planes u h
  refine ⟨hr ▸ hasserted, hr ▸ hseen, hlevel.trans h, hmgmt, hr ▸ hctrl, hr ▸ hdata, fun p => ?_,
    (hu.trans ((assertSource_three_spares u h).mono hm)).done⟩
  have hp : u.spAt p = s.spAt p := by rw [State.spAt, hsp, State.spAt]
  rw [← hp]
  exact assertSource_three_spAt (src := src) u h p

/-- SUPPLY as it asserts: the excursion ends, and is kept as the margin (R60). -/
def State.supplied (s : State) : State :=
  s.modRst (fun r => { r with
    margin := if r.excursion.isSome then r.excursion else r.margin, excursion := none })

/-! ### The commands, asserted or not -/

theorem exec_supply_new (h : s.rst.asserted.getLsbD 0 = false) :
    exec (.supply true) s = .next (State.done s (s.supplied.assertSource 0 0)) := by
  show finish s (if s.rst.asserted.getLsbD 0 then s else s.supplied.assertSource 0 0) = _
  rw [if_neg (ne_true_of_eq_false h), finish]

theorem exec_supply_held (h : s.rst.asserted.getLsbD 0 = true) : exec (.supply true) s = .next (State.done s s) := by
  show finish s (if s.rst.asserted.getLsbD 0 then s else _) = _
  rw [if_pos h, finish]

/-- PERSTn low: the function is reset and the link goes down (R546). -/
def State.linkDown (s : State) : State := { s with host := { s.host.functionReset with speed := 0, width := 0 } }

/-- The watchdog counts (R128). -/
def State.barked (s : State) : State := s.modPeat (fun p => { p with wdogCnt := bump p.wdogCnt })

theorem linkDown_spares (hl : .link ∈ l) : Spares l s s.linkDown :=
  ⟨rfl, fun p hp => by cases p <;> simp_all [Kept, State.linkDown, HostIf.functionReset]⟩

theorem exec_perst_new (h : s.rst.asserted.getLsbD 2 = false) :
    exec (.perst true) s = .next (State.done s (s.linkDown.assertFused 2)) := by
  show finish s (if s.rst.asserted.getLsbD 2 then s else s.linkDown.assertFused 2) = _
  rw [if_neg (ne_true_of_eq_false h), finish]

theorem exec_perst_held (h : s.rst.asserted.getLsbD 2 = true) : exec (.perst true) s = .next (State.done s s) := by
  show finish s (if s.rst.asserted.getLsbD 2 then s else _) = _
  rw [if_pos h, finish]

theorem exec_wdog_new (h : s.rst.asserted.getLsbD 3 = false) (hc : s.rst.ctrlUp = true) :
    exec .wdog s = .next (State.done s (s.barked.assertFused 3)) := by
  show finish s (if s.rst.ctrlUp && !s.rst.asserted.getLsbD 3 then s.barked.assertFused 3 else s) = _
  rw [if_pos (by rw [hc, h]; rfl), finish]

theorem exec_wdog_held (h : s.rst.asserted.getLsbD 3 = true) : exec .wdog s = .next (State.done s s) := by
  show finish s (if s.rst.ctrlUp && !s.rst.asserted.getLsbD 3 then _ else s) = _
  rw [if_neg (by rw [h]; simp), finish]

/-- A source of no further effect, asserted anew or held already. -/
theorem finish_assert (src : Nat) (h : s.rst.asserted.getLsbD src = false) :
    finish s (if s.rst.asserted.getLsbD src then s else s.assertFused src) =
      .next (State.done s (s.assertFused src)) := by
  rw [if_neg (ne_true_of_eq_false h), finish]

theorem finish_held (src : Nat) (h : s.rst.asserted.getLsbD src = true) :
    finish s (if s.rst.asserted.getLsbD src then s else s.assertFused src) = .next (State.done s s) := by
  rw [if_pos h, finish]

/-- The link stays down whatever the level (R546). -/
theorem perst_link (s : State) : (State.done s (s.linkDown.assertFused 2)).host.speed = 0 ∧
    (State.done s (s.linkDown.assertFused 2)).host.width = 0 := by
  have hk := ((assertSource_spares s.linkDown (by decide) (by decide) _).parts .link (by decide)).trans
    (done_kept s (s.linkDown.assertFused 2) .link)
  obtain ⟨hspeed, hwidth, -⟩ := hk
  exact ⟨hspeed, hwidth⟩

/-- The count stays whatever the level (R128). -/
theorem wdog_count (s : State) : (State.done s (s.barked.assertFused 3)).peat.wdogCnt = bump s.peat.wdogCnt := by
  have h := assertFused_sources s.barked 3
  simp only [State.sources, Prod.mk.injEq] at h
  obtain ⟨-, -, -, -, -, hcnt⟩ := h
  rw [done_peat_wdogCnt, hcnt]
  rfl

/-- The debug port's reset instruction, and its withdrawal. -/
theorem exec_dbgReset_new (h : s.rst.asserted.getLsbD 5 = false) :
    exec (.dbgResetInstruction true) s = .next (State.done s (s.assertFused 5)) := by
  show finish s (if true && !s.rst.asserted.getLsbD 5 then s.assertFused 5 else s) = _
  rw [if_pos (by rw [h]; rfl), finish]

theorem exec_dbgReset_held (h : s.rst.asserted.getLsbD 5 = true) :
    exec (.dbgResetInstruction true) s = .next (State.done s s) := by
  show finish s (if true && !s.rst.asserted.getLsbD 5 then s.assertFused 5 else s) = _
  rw [if_neg (by rw [h]; simp), finish]

/-- Settles O33: every source joins the asserted and the seen (`joined_assertSource`); at L3 the management plane
alone goes down (`joinedAtThree_assertFused`), with SUPPLY and CLK every plane (`assertSource_hard_planes`). -/
theorem sourcesAssertTheirLevels : Obligations.SourcesAssertTheirLevels := by
  refine ⟨fun s h hup => ⟨_, exec_supply_new h, ?_⟩, fun s h => ⟨_, exec_supply_held h, keptBut_same⟩,
    fun s h hl hup => ⟨_, finish_assert 6 h, ?_⟩, fun s h => ⟨_, finish_assert 6 h, joined_assertSource s s 6 _⟩,
    fun s h => ⟨_, finish_held 6 h, keptBut_same⟩, fun s h => ⟨_, finish_assert 1 h, joined_assertSource s s 1 _⟩,
    fun s h hl => ⟨_, finish_assert 1 h, joinedAtThree_assertFused .refl (by decide) rfl rfl hl⟩,
    fun s h => ⟨_, finish_held 1 h, keptBut_same⟩,
    fun s h => ⟨_, exec_perst_new h, ?_⟩, fun s h hl => ⟨_, exec_perst_new h, ?_⟩,
    fun s h => ⟨_, exec_perst_held h, keptBut_same⟩, fun s h hc => ⟨_, exec_wdog_new h hc, ?_⟩,
    fun s h hc hl => ⟨_, exec_wdog_new h hc, ?_⟩, fun s h => ⟨_, exec_wdog_held h, keptBut_same⟩,
    fun s h => ⟨_, finish_assert 7 h, joined_assertSource s s 7 _⟩,
    fun s h hl => ⟨_, finish_assert 7 h, joinedAtThree_assertFused .refl (by decide) rfl rfl hl⟩,
    fun s h => ⟨_, finish_held 7 h, keptBut_same⟩,
    fun s h => ⟨_, exec_dbgReset_new h, joined_assertSource s s 5 _⟩,
    fun s h hl => ⟨_, exec_dbgReset_new h, joinedAtThree_assertFused .refl (by decide) rfl rfl hl⟩,
    fun s h => ⟨_, exec_dbgReset_held h, keptBut_same⟩,
    fun s => ⟨_, rfl, keptBut_same⟩⟩
  · obtain ⟨hasserted, hseen, hlevel⟩ := joined_assertSource s s.supplied 0 0
    obtain ⟨hc, hm, hd, hp, hexcursion, hmargin⟩ :=
      assertSource_hard_planes s.supplied (src := 0) (level := 0) (.inl rfl) (by omega) hup
    exact ⟨hasserted, hseen, hlevel.trans (Nat.zero_min _), hexcursion, hmargin, hc, hm, hd, hp⟩
  · obtain ⟨hasserted, hseen, hlevel⟩ := joined_assertSource s s 6 (fuseLevel s.rst.fuse 6)
    obtain ⟨hc, hm, hd, hp, -⟩ := assertSource_hard_planes s (.inr rfl) hl hup
    exact ⟨hasserted, hseen, hlevel, hc, hm, hd, hp⟩
  · obtain ⟨hasserted, hseen, hlevel⟩ := joined_assertSource s s.linkDown 2 (fuseLevel s.rst.fuse 2)
    exact ⟨hasserted, hseen, hlevel, perst_link s⟩
  · obtain ⟨hasserted, hseen, hlevel, hm, hc, hd, hports, hk⟩ := joinedAtThree_assertFused
      (l := .link :: mgmtParts) (linkDown_spares (by decide)) (by decide) rfl rfl hl
    obtain ⟨hspeed, hwidth⟩ := perst_link s
    exact ⟨hasserted, hseen, hlevel, hm, hc, hd, hspeed, hwidth, hports, hk⟩
  · obtain ⟨hasserted, hseen, hlevel⟩ := joined_assertSource s s.barked 3 (fuseLevel s.rst.fuse 3)
    exact ⟨hasserted, hseen, hlevel, wdog_count s⟩
  · obtain ⟨hasserted, hseen, hlevel, hm, hc, hd, hports, hk⟩ := joinedAtThree_assertFused (u := s.barked)
      (l := .peat :: mgmtParts) (spares_peat (by decide)) (by decide) rfl rfl hl
    exact ⟨hasserted, hseen, hlevel, hm, hc, hd, wdog_count s, hports, hk⟩

end

end Sys2Proof.Machine

/-! SUPPORT. A queue table whose keys do not rise, which no statement of the family excludes: the entry of the
control plane writes the error stream's queue back at the place where rising keys would have it. -/

namespace Sys2Proof.Machine

section

/-- The ordered actions are done; the queue of figure 1 stands ahead of the error stream of figure 0, and both are
empty. -/
def unsortedQueues : State :=
  { State.reset with
    rst := { State.reset.rst with phase := .ordered, level := 1, ctrlUp := true, mgmtUp := true, dataUp := true }
    que := { State.reset.que with q := [(64, Queue.init), (2, Queue.init)] } }

/-- The error stream's queue is found once more, ahead of the others. -/
theorem controlPlaneResetEntry_unsortedQueues (t : State)
    (h : exec .controlPlaneResetEntry unsortedQueues = .next t) :
    t.que.q.map Prod.fst = [2, 64, 2] := by
  obtain rfl := Host.Outcome.next.inj h
  rw [done_que]
  decide +kernel

/-- Refutes O35: without a trip record and without a packet that waits, the first clause has the queue table stand;
one whose keys do not rise gains an entry (`unsortedQueues`). On tables with rising keys the write is of the entry
that stands there. -/
theorem not_planesEnterReset : ¬ Obligations.PlanesEnterReset := by
  intro h
  obtain ⟨entry, -⟩ := h
  obtain ⟨t, ht, -, -, -, -, -, -, -, -, -, hque, -⟩ := entry unsortedQueues (.inl rfl)
  obtain ⟨hq, -⟩ := hque rfl (by decide)
  have hkeys := controlPlaneResetEntry_unsortedQueues t ht
  rw [hq] at hkeys
  exact absurd hkeys (by decide)

end

end Sys2Proof.Machine

/-! SUPPORT. The exit from reset (R131 to R133): what it records, in the reset history and in RST_CAUSE. -/

namespace Sys2Proof.Machine

section
variable {s t u : State} {l : List Word}

/-- What the records of exits, oldest first, leave beside the error ring: the margin is spent, and the reset history
has each cause with MT_ERA. -/
def State.recorded (s : State) (l : List Word) : State :=
  { s with
    rst := { s.rst with margin := none }
    peat := { s.peat with
      history := (l.reverse.map (fun c => (c.truncate 16, s.peat.era)) ++ s.peat.history).take 8 } }

theorem margin_none {r : Rst} (h : r.margin = none) : { r with margin := none } = r := by
  cases r
  cases h
  rfl

theorem recorded_of_quiet (h : t.quiet = s.quiet) (l : List Word) : (t.recorded l).quiet = (s.recorded l).quiet := by
  have hq (u : State) : (u.recorded l).quiet = (u.quiet.recorded l).quiet := rfl
  rw [hq, h, ← hq]

/-- A record more. -/
theorem recorded_recorded (s : State) (l : List Word) (c : Word) : (s.recorded l).recorded [c] = s.recorded (l ++ [c]) := by
  have htake (x : BitVec 16 × Word) (m : List (BitVec 16 × Word)) : (x :: m.take 8).take 8 = (x :: m).take 8 := by
    rw [List.take_succ_cons, List.take_take, List.take_succ_cons]
    rfl
  simp only [State.recorded, List.reverse_append, List.reverse_cons, List.reverse_nil, List.nil_append,
    List.map_cons, List.map_nil, List.cons_append, htake]

theorem recordReset_quiet (s : State) (c lost : Word) : (s.recordReset c lost).quiet = (s.recorded [c]).quiet := by
  unfold State.recordReset
  extract_lets t u
  have ht : t.quiet = State.quiet { s with rst := { s.rst with margin := none } } := by
    simp only [t]
    split
    next => rw [log_quiet]; rfl
    next hm => rw [margin_none hm]
  have hmod (v : State) : (v.modPeat fun p => { p with history := ((c.truncate 16, p.era) :: p.history).take 8 }).quiet =
      (v.quiet.modPeat fun p => { p with history := ((c.truncate 16, p.era) :: p.history).take 8 }).quiet := rfl
  rw [log_quiet]
  simp only [u]
  rw [hmod, ht]
  rfl

theorem foldl_recordReset_quiet (c : Word) (l : List Word) (h : t.quiet = (s.recorded [c]).quiet) :
    (l.foldl (fun t c => t.recordReset c 0#32) t).quiet = (s.recorded (c :: l)).quiet := by
  induction l using List.reverseRecOn with
  | nil => exact h
  | append_singleton l d ih =>
    rw [List.foldl_append, List.foldl_cons, List.foldl_nil, recordReset_quiet, recorded_of_quiet ih,
      recorded_recorded, List.cons_append]

/-- The exits that wait are recorded, and wait no longer. -/
theorem recordExits_quiet (s : State) (lost : Word) (h : s.rst.exits ≠ []) : (s.recordExits lost).quiet =
    ((s.modRst fun r => { r with exits := [] }).recorded s.rst.exits).quiet := by
  unfold State.recordExits
  split
  next hx => exact absurd hx h
  next c rest hx =>
    rw [hx]
    exact foldl_recordReset_quiet c rest (recordReset_quiet _ c lost)

theorem recordExits_none (s : State) (lost : Word) (h : s.rst.exits = []) : s.recordExits lost = s := by
  unfold State.recordExits
  rw [h]

/-- A field of the peat store that the log leaves, of two states that differ in signals. -/
theorem peat_of_quiet {α : Type} (f : Peat → α) (hf : ∀ p : Peat, f p.lasting = f p) (h : t.quiet = s.quiet) :
    f t.peat = f s.peat := by
  rw [← hf, lasting_of_quiet h, hf]

/-- The reset block and the count of resets at the exit (R131, R133). -/
def State.exited (s : State) : State :=
  { s with
    rst := { s.rst with
      cause := s.rst.causeWord, exits := s.rst.exits ++ [s.rst.causeWord], seen := 0#8, reqLevel := 0, level := 4
      startLevel := s.rst.level, phase := .running }
    peat := { s.peat with rstCount := bump s.peat.rstCount } }

/-- At the exit from L2 or L3 with the control plane up the records follow at once. -/
theorem exec_stretchEnd_deep (found : ExitIn) (hp : s.rst.phase = .stretch) (ha : s.rst.asserted = 0#8)
    (hl : 2 ≤ s.rst.level) : exec (.stretchEnd found) s = .next (State.done s
      (if s.rst.ctrlUp then s.exited.recordExits 0#32 else s.exited)) := by
  have hland : s.landed = true := by simp [State.landed, hl]
  show finish s (if s.rst.phase = .stretch && s.rst.asserted == 0#8 && s.landed then
    if s.rst.level ≤ 1 then _ else if s.rst.ctrlUp then s.exited.recordExits 0#32 else s.exited else s) = _
  rw [if_pos (by simp [hp, ha, hland]), if_neg (by omega)]
  rfl

/-- At the exit from L1 or L0 the strap is sampled and the fuses are read; the records wait. -/
theorem exec_stretchEnd_start (found : ExitIn) (hp : s.rst.phase = .stretch) (ha : s.rst.asserted = 0#8)
    (hl : s.rst.level ≤ 1) (hland : s.landed = true) : exec (.stretchEnd found) s = .next (State.done s
      ((s.exited.modPeat fun p => { p with found := found.peat }).readStrap found.strap)) := by
  show finish s (if s.rst.phase = .stretch && s.rst.asserted == 0#8 && s.landed then
    if s.rst.level ≤ 1 then (s.exited.modPeat fun p => { p with found := found.peat }).readStrap found.strap
      else if s.rst.ctrlUp then s.exited.recordExits 0#32 else s.exited else s) = _
  rw [if_pos (by simp [hp, ha, hland]), if_pos hl]
  rfl

theorem spares_rstPeat {r : Rst} {p : Peat} {l : List Piece} (hr : .rst ∈ l) (hp : .peat ∈ l) :
    Spares l s { s with rst := r, peat := p } :=
  ⟨rfl, fun q hq => by cases q <;> simp_all [Kept]⟩

theorem recordExits_spares (s : State) (lost : Word) {l : List Piece} (hr : .rst ∈ l) (hp : .peat ∈ l) :
    Spares l s (s.recordExits lost) := by
  by_cases h : s.rst.exits = []
  · exact .of_eq (recordExits_none s lost h)
  · have h1 : Spares l s (s.modRst fun r => { r with exits := [] }) := spares_rst hr
    exact (h1.trans (spares_rstPeat hr hp)).trans (.of_quiet (recordExits_quiet s lost h))

/-- The exit's records, with the control plane up. -/
theorem exec_stretchEnd_records (found : ExitIn) (hp : s.rst.phase = .stretch) (ha : s.rst.asserted = 0#8)
    (hl : 2 ≤ s.rst.level) (hc : s.rst.ctrlUp = true) : ∃ t, exec (.stretchEnd found) s = .next t ∧
      t.rst = { s.rst with
        cause := s.rst.causeWord, exits := [], seen := 0#8, reqLevel := 0, level := 4, startLevel := s.rst.level
        phase := .running, margin := none } ∧
      t.peat.rstCount = bump s.peat.rstCount ∧
      t.peat.history = ((s.rst.exits ++ [s.rst.causeWord]).reverse.map (fun c => (c.truncate 16, s.peat.era)) ++
        s.peat.history).take 8 ∧
      KeptBut [.rst, .peat] s t := by
  have hq := recordExits_quiet s.exited 0#32 (List.append_ne_nil_of_right_ne_nil _ (List.cons_ne_nil _ _))
  refine ⟨_, (exec_stretchEnd_deep found hp ha hl).trans (by rw [if_pos hc]), ?_, ?_, ?_, ?_⟩
  · rw [done_rst, rst_of_quiet hq]
    rfl
  · rw [done_peat_rstCount]
    exact peat_of_quiet Peat.rstCount (fun _ => rfl) hq
  · rw [done_peat_field Peat.history (fun _ => rfl), peat_of_quiet Peat.history (fun _ => rfl) hq]
    rfl
  · exact ((spares_rstPeat (by decide) (by decide)).trans (recordExits_spares s.exited _ (by decide) (by decide))).done

/-- With the control plane down they wait. -/
theorem exec_stretchEnd_waits (found : ExitIn) (hp : s.rst.phase = .stretch) (ha : s.rst.asserted = 0#8)
    (hl : 2 ≤ s.rst.level) (hc : s.rst.ctrlUp = false) : ∃ t, exec (.stretchEnd found) s = .next t ∧
      t.rst = s.exited.rst ∧ t.peat.rstCount = bump s.peat.rstCount ∧ t.peat.history = s.peat.history ∧
      KeptBut [.rst, .peat] s t := by
  refine ⟨_, (exec_stretchEnd_deep found hp ha hl).trans (by rw [if_neg (ne_true_of_eq_false hc)]), ?_, ?_, ?_, ?_⟩
  · exact done_rst ..
  · rw [done_peat_rstCount]
    rfl
  · rw [done_peat_field Peat.history (fun _ => rfl)]
    rfl
  · exact (spares_rstPeat (by decide) (by decide)).done

theorem strapped_spares (s : State) (w : Word) (code : Nat) : Spares [.rst, .peat, .sto, .twin] s (s.strapped w code) :=
  ⟨rfl, fun p hp => by cases p <;> simp_all [Kept, State.strapped, State.modRst, State.modPeat, State.modTwin]⟩

/-- After L1 or L0 the strap and the fuses are read, and the check of the peat store is due (R135, R146). -/
theorem exec_stretchEnd_reads (found : ExitIn) (hp : s.rst.phase = .stretch) (ha : s.rst.asserted = 0#8)
    (hl : s.rst.level ≤ 1) (hland : s.landed = true) : ∃ t, exec (.stretchEnd found) s = .next t ∧
      t.rst = { s.exited.rst with strap := strapWord found.strap, fuse := s.rst.fuseProgrammed } ∧
      t.peat.rstCount = bump s.peat.rstCount ∧ t.peat.history = s.peat.history ∧ t.peat.found = found.peat ∧
      KeptBut [.rst, .peat, .sto, .twin] s t := by
  have hq := readStrap_quiet (s.exited.modPeat fun p => { p with found := found.peat }) found.strap
  have hkeep (w : Word) (code : Nat) :
      let u := (s.exited.modPeat fun p => { p with found := found.peat }).strapped w code
      u.rst = { s.exited.rst with strap := w, fuse := s.rst.fuseProgrammed } ∧
      u.peat.rstCount = bump s.peat.rstCount ∧ u.peat.history = s.peat.history ∧ u.peat.found = found.peat :=
    ⟨rfl, rfl, rfl, rfl⟩
  obtain ⟨hrst, hcount, hhist, hfound⟩ := hkeep (strapWord found.strap) (strapCode found.strap)
  refine ⟨_, exec_stretchEnd_start found hp ha hl hland, ?_, ?_, ?_, ?_, ?_⟩
  · rw [done_rst, rst_of_quiet hq, hrst]
  · rw [done_peat_rstCount, ← hcount]
    exact peat_of_quiet Peat.rstCount (fun _ => rfl) hq
  · rw [done_peat_field Peat.history (fun _ => rfl), peat_of_quiet Peat.history (fun _ => rfl) hq, hhist]
  · rw [done_peat_field Peat.found (fun _ => rfl), ← hfound]
    exact peat_of_quiet Peat.found (fun _ => rfl) hq
  · have h1 : Spares [.rst, .peat, .sto, .twin] s (s.exited.modPeat fun p => { p with found := found.peat }) :=
      spares_rstPeat (by decide) (by decide)
    exact ((h1.trans (strapped_spares _ _ _)).trans (.of_quiet hq)).done

end

end Sys2Proof.Machine

/-! SUPPORT. PLL lock (R61, R101, R133, R146): the control plane is released, the peat store is checked, the fuses'
factors come into force and the exits are recorded. -/

namespace Sys2Proof.Machine

section
variable {s t u : State} {l : List Piece}

/-! ### Factors of the fuses (R425) -/

theorem calFuses_eq (s : State) : ∃ x, s.calFuses =
    { s with cal := { s.cal with arb := s.cal.fuseArb, mains := s.cal.fuseMains, grp := x } } := by
  have hfold {β : Type} (f : State → β → State) (hf : ∀ t b, ∃ x, f t b = { t with cal := { t.cal with grp := x } })
      (bs : List β) (t : State) : ∃ x, bs.foldl f t = { t with cal := { t.cal with grp := x } } := by
    induction bs generalizing t with
    | nil => exact ⟨_, rfl⟩
    | cons b bs ih =>
      obtain ⟨x, hx⟩ := hf t b
      obtain ⟨y, hy⟩ := ih (f t b)
      exact ⟨y, by rw [List.foldl_cons, hy, hx]⟩
  obtain ⟨x, hx⟩ := hfold (fun t g =>
    if ((tfilter (fun k _ => k / 256 == g) s.cal.fuse).map (fun e => (e.1 % 256, e.2))).isEmpty then t
    else t.modCal g (fun c => { c with
      inForce := (tfilter (fun k _ => k / 256 == g) s.cal.fuse).map (fun e => (e.1 % 256, e.2)) }))
    (fun t g => by split <;> exact ⟨_, rfl⟩) (List.range s.groups)
    (s.modCalib fun c => { c with arb := c.fuseArb, mains := c.fuseMains })
  exact ⟨x, hx⟩

/-! ### The role (R594 to R596) -/

/-- The twin block and the twin record of the peat store. -/
def State.roleSet (s : State) (x : Twin) (a : Nat) (b c : DWord) : State :=
  { s with twin := x, peat := { s.peat with twinRole := a, twinSerial := b, twinDigest := c } }

theorem roleSet_of_quiet (h : t.quiet = s.quiet) (x : Twin) (a : Nat) (b c : DWord) :
    (t.roleSet x a b c).quiet = (s.roleSet x a b c).quiet := by
  have hq (u : State) : (u.roleSet x a b c).quiet = (u.quiet.roleSet x a b c).quiet := rfl
  rw [hq, h, ← hq]

/-- A role that settles reaches no more. -/
theorem settleRole_quiet (s : State) (r : Role) : ∃ x a b c, (s.settleRole r).quiet = (s.roleSet x a b c).quiet := by
  unfold State.settleRole
  dsimp only
  split
  · exact ⟨_, _, _, _, rfl⟩
  · rw [raise_quiet]
    exact ⟨_, _, _, _, rfl⟩

/-! ### The step -/

/-- The control plane is released; RESETn rises and the isolation channel is to be established anew (R15). -/
def State.locked (s : State) : State :=
  { s with
    rst := { s.rst with pll := true, ctrlUp := true, resetN := true }
    iso := { s.iso with txValid := false } }

/-- What the check made of the peat store, its records put by: the store lost, or counted on. -/
def State.peatChecked (s : State) : State := if s.peatLost then s.peatCleared else s.peatCounted

theorem peatCheck_quiet (s : State) : s.peatCheck.quiet = s.peatChecked.quiet := by
  unfold State.peatChecked
  split
  next h => exact peatCheck_lost s h
  next h => exact peatCheck_valid s (Bool.eq_false_iff.mpr h)

/-- The exits of the last starts, recorded once the store is checked. -/
def State.exitsRecorded (s : State) : State :=
  if s.rst.exits = [] then s else (s.modRst fun r => { r with exits := [] }).recorded s.rst.exits

theorem recordExits_recorded (s : State) (lost : Word) : (s.recordExits lost).quiet = s.exitsRecorded.quiet := by
  unfold State.exitsRecorded
  split
  next h => rw [recordExits_none s lost h]
  next h => exact recordExits_quiet s lost h

theorem exitsRecorded_of_quiet (h : t.quiet = s.quiet) : t.exitsRecorded.quiet = s.exitsRecorded.quiet := by
  have hq (u : State) : u.exitsRecorded.quiet = u.quiet.exitsRecorded.quiet := by
    unfold State.exitsRecorded
    split
    next hu => rw [if_pos (show u.quiet.rst.exits = [] from hu)]; rfl
    next hu => rw [if_neg (show ¬ u.quiet.rst.exits = [] from hu)]; rfl
  rw [hq, h, ← hq]

theorem exec_pllLock (hp : s.rst.phase = .running) (hc : s.rst.ctrlUp = false) (hh : s.rst.hold ≠ some 1) :
    ∃ lost, exec .pllLock s = .next (State.done s
      (if (s.locked.peatCheck.calFuses.recordExits lost).pairStrap then s.locked.peatCheck.calFuses.recordExits lost
      else (s.locked.peatCheck.calFuses.recordExits lost).settleRole .solo)) := by
  have hheld : s.heldAt [1] = false := by
    unfold State.heldAt
    split
    next n hn => simpa using fun h1 => hh (hn.trans (congrArg some h1))
    next => rfl
  refine ⟨s.locked.peatCheck.calFuses.peat.lostTrips, ?_⟩
  show finish s (if s.rst.phase = .running && !s.rst.ctrlUp && !s.heldAt [1] then _ else s) = _
  rw [if_pos (by simp [hp, hc, hheld])]
  rfl

theorem withCal_of_quiet (h : t.quiet = s.quiet) (x : Cal) :
    State.quiet { t with cal := x } = State.quiet { s with cal := x } := by
  have hq (u : State) : State.quiet { u with cal := x } = State.quiet { u.quiet with cal := x } := rfl
  rw [hq, h, ← hq]

theorem cal_of_quiet (h : t.quiet = s.quiet) : t.cal = s.cal := (congrArg State.cal h :)

theorem peatChecked_cal (s : State) : s.peatChecked.cal = s.cal := by
  unfold State.peatChecked
  split <;> rfl

/-- The store checked, the factors of the fuses in force, the exits recorded. -/
def State.started (s : State) (g : Tab CalGrp) : State :=
  State.exitsRecorded { s.locked.peatChecked with
    cal := { s.cal with arb := s.cal.fuseArb, mains := s.cal.fuseMains, grp := g } }

/-- The state at PLL lock, up to signals and the twin block where a role settled. -/
theorem exec_pllLock_quiet (hp : s.rst.phase = .running) (hc : s.rst.ctrlUp = false) (hh : s.rst.hold ≠ some 1) :
    ∃ u g x a b c, exec .pllLock s = .next (State.done s u) ∧ u.quiet = ((s.started g).roleSet x a b c).quiet := by
  obtain ⟨lost, he⟩ := exec_pllLock hp hc hh
  obtain ⟨g, hg⟩ := calFuses_eq s.locked.peatCheck
  have hcheck := peatCheck_quiet s.locked
  have hcal : s.locked.peatCheck.cal = s.cal := (cal_of_quiet hcheck).trans (peatChecked_cal s.locked)
  have hfuses : s.locked.peatCheck.calFuses.quiet = State.quiet { s.locked.peatChecked with
      cal := { s.cal with arb := s.cal.fuseArb, mains := s.cal.fuseMains, grp := g } } := by
    rw [hg, hcal]
    exact withCal_of_quiet hcheck _
  have hexits : (s.locked.peatCheck.calFuses.recordExits lost).quiet = (s.started g).quiet :=
    (recordExits_recorded _ lost).trans (exitsRecorded_of_quiet hfuses)
  by_cases hpair : (s.locked.peatCheck.calFuses.recordExits lost).pairStrap
  · rw [if_pos hpair] at he
    exact ⟨_, g, _, _, _, _, he, hexits.trans rfl⟩
  · rw [if_neg hpair] at he
    obtain ⟨x, a, b, c, hrole⟩ := settleRole_quiet (s.locked.peatCheck.calFuses.recordExits lost) .solo
    exact ⟨_, g, x, a, b, c, he, hrole.trans (roleSet_of_quiet hexits x a b c)⟩

end

end Sys2Proof.Machine

/-! SUPPORT. PLL lock with a valid and with an invalid peat store. -/

namespace Sys2Proof.Machine

section
variable {s t u : State} {l : List Piece}

theorem peatChecked_valid (h : s.peat.lostPower = false ∧ s.peat.signed = true ∧ s.peat.found.header = false) :
    s.locked.peatChecked = s.locked.peatCounted := by
  obtain ⟨hl, hs, hf⟩ := h
  have hlost : s.locked.peatLost = false := by
    simp only [State.peatLost, State.locked, hl, hs, hf, Bool.not_true, Bool.or_false]
  rw [State.peatChecked, hlost]
  rfl

theorem peatChecked_lost (h : s.peat.lostPower = true ∨ s.peat.signed = false ∨ s.peat.found.header = true) :
    s.locked.peatChecked = s.locked.peatCleared := by
  have hlost : s.locked.peatLost = true := by
    simp only [State.peatLost, State.locked]
    obtain h | h | h := h <;> simp [h]
  rw [State.peatChecked, hlost]
  rfl

/-- The reset block after the exits are recorded. -/
theorem exitsRecorded_rst (s : State) : s.exitsRecorded.rst =
    { s.rst with exits := [], margin := if s.rst.exits = [] then s.rst.margin else none } := by
  unfold State.exitsRecorded
  split
  next h => rw [← h]
  next h => rfl

/-- The history: each exit that waited, with MT_ERA, ahead of what stood. -/
theorem exitsRecorded_history (s : State) (n : Nat) (hn : s.peat.history.length ≤ n) : s.exitsRecorded.peat.history =
    (s.rst.exits.reverse.map (fun c => (c.truncate 16, s.peat.era)) ++ s.peat.history).take
      (if s.rst.exits = [] then n else 8) := by
  unfold State.exitsRecorded
  split
  next h => rw [h, List.reverse_nil, List.map_nil, List.nil_append, List.take_of_length_le hn]
  next h => rfl

/-- Recording exits leaves the rest of the store, and everything else. -/
theorem exitsRecorded_keeps (s : State) :
    s.exitsRecorded = { s with
      rst := s.exitsRecorded.rst, peat := { s.peat with history := s.exitsRecorded.peat.history } } := by
  unfold State.exitsRecorded
  split <;> rfl

theorem exitsRecorded_spares (s : State) (hr : .rst ∈ l) (hp : .peat ∈ l) : Spares l s s.exitsRecorded := by
  rw [exitsRecorded_keeps]
  exact spares_rstPeat hr hp

theorem roleSet_spares (s : State) (x : Twin) (a : Nat) (b c : DWord) (ht : .twin ∈ l) (hp : .peat ∈ l) :
    Spares l s (s.roleSet x a b c) :=
  ⟨rfl, fun p hq => by cases p <;> simp_all [Kept, State.roleSet]⟩

theorem locked_spares (s : State) (hr : .rst ∈ l) (hi : .iso ∈ l) : Spares l s s.locked :=
  ⟨rfl, fun p hq => by cases p <;> simp_all [Kept, State.locked]⟩

theorem peatCounted_spares (s : State) (hp : .peat ∈ l) (hm : .mt ∈ l) (hf : .pfe ∈ l) (hq : .que ∈ l) :
    Spares l s s.peatCounted :=
  ⟨rfl, fun p hq => by cases p <;> simp_all [Kept, State.peatCounted]⟩

theorem peatCleared_spares (s : State) (hp : .peat ∈ l) (hm : .mt ∈ l) (hq : .que ∈ l) : Spares l s s.peatCleared :=
  ⟨rfl, fun p hq => by cases p <;> simp_all [Kept, State.peatCleared]⟩

/-- What PLL lock leaves alone, whatever the check finds. -/
theorem started_spares (g : Tab CalGrp) (hchecked : Spares l s.locked s.locked.peatChecked) (hr : .rst ∈ l)
    (hp : .peat ∈ l) (hc : .cal ∈ l) (hi : .iso ∈ l) (x : Twin) (a : Nat) (b c : DWord) (ht : .twin ∈ l) :
    Spares l s ((s.started g).roleSet x a b c) := by
  have h1 : Spares l s s.locked.peatChecked := (locked_spares s hr hi).trans hchecked
  have h2 : Spares l s.locked.peatChecked { s.locked.peatChecked with
      cal := { s.cal with arb := s.cal.fuseArb, mains := s.cal.fuseMains, grp := g } } := spares_cal hc
  exact ((h1.trans h2).trans (exitsRecorded_spares _ hr hp)).trans (roleSet_spares _ x a b c ht hp)

/-- A part that no signal reaches, of two states that differ in signals. -/
theorem field_of_quiet {α : Type} (f : State → α) (hf : ∀ s : State, f s.quiet = f s) (h : t.quiet = s.quiet) :
    f t = f s := by
  rw [← hf, h, hf]

/-- A field of the store other than the history stands as the exits are recorded. -/
theorem exitsRecorded_peat {α : Type} (f : Peat → α) (hf : ∀ (p : Peat) h, f { p with history := h } = f p) (s : State) :
    f s.exitsRecorded.peat = f s.peat := by
  rw [exitsRecorded_keeps]
  exact hf _ _

theorem exitsRecorded_rest (s : State) : s.exitsRecorded.mt = s.mt ∧ s.exitsRecorded.cal = s.cal ∧
    s.exitsRecorded.iso = s.iso ∧ s.exitsRecorded.que = s.que := by
  rw [exitsRecorded_keeps]
  exact ⟨rfl, rfl, rfl, rfl⟩

/-- The state at PLL lock, from what the check made of the store: `v`. -/
structure Started (s v t : State) : Prop where
  rst : t.rst = { s.rst with
    pll := true, ctrlUp := true, resetN := true, exits := []
    margin := if s.rst.exits = [] then s.rst.margin else none }
  /-- The store as checked, but for the history and the twin record. -/
  peat : ∀ {α : Type} (f : Peat → α), (∀ p : Peat, f p.lasting = f p) → (∀ (p : Peat) h, f { p with history := h } = f p) →
    (∀ (p : Peat) a b c, f { p with twinRole := a, twinSerial := b, twinDigest := c } = f p) → f t.peat = f v.peat
  history : ∀ n, v.peat.history.length ≤ n → t.peat.history =
    (s.rst.exits.reverse.map (fun c => (c.truncate 16, v.peat.era)) ++ v.peat.history).take
      (if s.rst.exits = [] then n else 8)
  mt : t.mt = v.mt
  que : t.que = v.que
  arb : t.cal.arb = s.cal.fuseArb
  mains : t.cal.mains = s.cal.fuseMains
  iso : t.iso = { s.iso with txValid := false }

/-- What the check makes of the store leaves the reset block and the isolation channel. -/
theorem peatChecked_rest (s : State) : s.peatChecked.rst = s.rst ∧ s.peatChecked.iso = s.iso := by
  unfold State.peatChecked
  split <;> exact ⟨rfl, rfl⟩

theorem exec_pllLock_started (hp : s.rst.phase = .running) (hc : s.rst.ctrlUp = false) (hh : s.rst.hold ≠ some 1)
    (hl : Spares l s.locked s.locked.peatChecked) (hm : [.rst, .iso, .peat, .cal, .twin] ⊆ l) :
    ∃ t, exec .pllLock s = .next t ∧ Started s s.locked.peatChecked t ∧ KeptBut l s t := by
  obtain ⟨u, g, x, a, b, c, he, hu⟩ := exec_pllLock_quiet hp hc hh
  obtain ⟨hrst, hiso⟩ := peatChecked_rest s.locked
  have hsp : Spares l s u :=
    (started_spares g hl (hm (by simp)) (hm (by simp)) (hm (by simp)) (hm (by simp)) x a b c (hm (by simp))).trans
      (.of_quiet hu)
  rw [State.started] at hu
  generalize s.locked.peatChecked = v at hrst hiso hu ⊢
  have hq := exitsRecorded_rst { v with cal := { s.cal with arb := s.cal.fuseArb, mains := s.cal.fuseMains, grp := g } }
  have hpeat {α : Type} (f : Peat → α) (hf : ∀ p : Peat, f p.lasting = f p)
      (hr : ∀ (p : Peat) a b c, f { p with twinRole := a, twinSerial := b, twinDigest := c } = f p) :=
    ((done_peat_field f hf s u).trans (peat_of_quiet f hf hu)).trans (hr _ a b c)
  have hhist (n : Nat) := exitsRecorded_history
    { v with cal := { s.cal with arb := s.cal.fuseArb, mains := s.cal.fuseMains, grp := g } } n
  obtain ⟨hmt, hcal, hi, hque⟩ := exitsRecorded_rest
    { v with cal := { s.cal with arb := s.cal.fuseArb, mains := s.cal.fuseMains, grp := g } }
  have hexits : v.rst.exits = s.rst.exits := by rw [hrst]; rfl
  refine ⟨_, he, ?_, hsp.done⟩
  constructor
  case rst =>
    rw [done_rst, rst_of_quiet hu]
    refine hq.trans ?_
    dsimp only
    rw [hrst]
    rfl
  case peat =>
    intro α f hf hh hr
    exact (hpeat f hf hr).trans (exitsRecorded_peat f hh _)
  case history =>
    intro n hn
    refine ((hpeat Peat.history (fun _ => rfl) (fun _ _ _ _ => rfl)).trans (hhist n hn)).trans ?_
    dsimp only
    rw [hexits]
  case mt =>
    exact (field_of_quiet State.mt (fun _ => rfl) hu).trans hmt
  case que =>
    exact (field_of_quiet State.que (fun _ => rfl) hu).trans hque
  case arb =>
    exact (congrArg Cal.arb (field_of_quiet State.cal (fun _ => rfl) hu)).trans (congrArg Cal.arb hcal)
  case mains =>
    exact (congrArg Cal.mains (field_of_quiet State.cal (fun _ => rfl) hu)).trans (congrArg Cal.mains hcal)
  case iso =>
    exact ((field_of_quiet State.iso (fun _ => rfl) hu).trans hi).trans hiso

/-- A valid store counts MT_ERA on and takes the exits into its history (R101, R133, R146). -/
theorem exec_pllLock_valid (hp : s.rst.phase = .running) (hc : s.rst.ctrlUp = false) (hh : s.rst.hold ≠ some 1)
    (h : s.peat.lostPower = false ∧ s.peat.signed = true ∧ s.peat.found.header = false) :
    ∃ t, exec .pllLock s = .next t ∧
      t.rst = { s.rst with
        pll := true, ctrlUp := true, resetN := true, exits := []
        margin := if s.rst.exits = [] then s.rst.margin else none } ∧
      t.peat.era = (if s.peat.found.regions.getLsbD 1 then 0#32 else s.peat.era + 1#32) ∧
      t.mt = { s.mt with eraOk := !s.peat.found.regions.getLsbD 1 } ∧
      t.peat.history = (s.rst.exits.reverse.map (fun c => (c.truncate 16, t.peat.era)) ++
        (if s.peat.found.regions.getLsbD 0 then [] else s.peat.history)).take
          (if s.rst.exits = [] then s.peat.history.length else 8) ∧
      t.peat.regs = s.peat.regs ∧ t.cal.arb = s.cal.fuseArb ∧ t.cal.mains = s.cal.fuseMains ∧
      t.iso = { s.iso with txValid := false } ∧
      KeptBut [.rst, .iso, .peat, .mt, .pfe, .que, .cal, .twin] s t := by
  have hv := peatChecked_valid h
  obtain ⟨t, he, hs, hk⟩ := exec_pllLock_started (l := [.rst, .iso, .peat, .mt, .pfe, .que, .cal, .twin]) hp hc hh
    (hv ▸ peatCounted_spares _ (by decide) (by decide) (by decide) (by decide)) (by simp)
  rw [hv] at hs
  have hera : t.peat.era = s.locked.peatCounted.peat.era :=
    hs.peat Peat.era (fun _ => rfl) (fun _ _ => rfl) (fun _ _ _ _ => rfl)
  have hregs : t.peat.regs = s.locked.peatCounted.peat.regs :=
    hs.peat Peat.regs (fun _ => rfl) (fun _ _ => rfl) (fun _ _ _ _ => rfl)
  have hlen : s.locked.peatCounted.peat.history.length ≤ s.peat.history.length := by
    show (if s.peat.found.regions.getLsbD 0 then [] else s.peat.history).length ≤ _
    split
    · exact Nat.zero_le _
    · exact le_rfl
  exact ⟨t, he, hs.rst, hera, hs.mt, hera ▸ hs.history _ hlen, hregs, hs.arb, hs.mains, hs.iso, hk⟩

/-- An invalid store starts anew (R61, R146). -/
theorem exec_pllLock_lost (hp : s.rst.phase = .running) (hc : s.rst.ctrlUp = false) (hh : s.rst.hold ≠ some 1)
    (h : s.peat.lostPower = true ∨ s.peat.signed = false ∨ s.peat.found.header = true) :
    ∃ t, exec .pllLock s = .next t ∧
      t.rst.pll = true ∧ t.rst.ctrlUp = true ∧ t.rst.resetN = true ∧ t.rst.exits = [] ∧
      t.peat.era = 0#32 ∧ t.peat.rstCount = 1#32 ∧ t.peat.signed = true ∧ t.peat.lostPower = false ∧
      t.peat.status = (if s.peat.lostPower then 2#32 else 8#32) ∧ t.peat.ranges = [] ∧
      t.mt = { s.mt with eraOk := false } ∧ t.que.lostAll = some (8, 0#32) ∧
      t.cal.arb = s.cal.fuseArb ∧ t.cal.mains = s.cal.fuseMains ∧ t.iso = { s.iso with txValid := false } ∧
      KeptBut [.rst, .iso, .peat, .mt, .que, .cal, .twin] s t := by
  have hv := peatChecked_lost h
  obtain ⟨t, he, hs, hk⟩ := exec_pllLock_started (l := [.rst, .iso, .peat, .mt, .que, .cal, .twin]) hp hc hh
    (hv ▸ peatCleared_spares _ (by decide) (by decide) (by decide)) (by simp)
  rw [hv] at hs
  have hpeat {α : Type} (f : Peat → α) (hf : ∀ p : Peat, f p.lasting = f p)
      (hh : ∀ (p : Peat) h, f { p with history := h } = f p)
      (hr : ∀ (p : Peat) a b c, f { p with twinRole := a, twinSerial := b, twinDigest := c } = f p) :
      f t.peat = f s.peat.cleared := hs.peat f hf hh hr
  refine ⟨t, he, by rw [hs.rst], by rw [hs.rst], by rw [hs.rst], by rw [hs.rst],
    hpeat Peat.era (fun _ => rfl) (fun _ _ => rfl) (fun _ _ _ _ => rfl),
    hpeat Peat.rstCount (fun _ => rfl) (fun _ _ => rfl) (fun _ _ _ _ => rfl),
    hpeat Peat.signed (fun _ => rfl) (fun _ _ => rfl) (fun _ _ _ _ => rfl),
    hpeat Peat.lostPower (fun _ => rfl) (fun _ _ => rfl) (fun _ _ _ _ => rfl),
    hpeat Peat.status (fun _ => rfl) (fun _ _ => rfl) (fun _ _ _ _ => rfl),
    hpeat Peat.ranges (fun _ => rfl) (fun _ _ => rfl) (fun _ _ _ _ => rfl), hs.mt, ?_, hs.arb, hs.mains, hs.iso, hk⟩
  rw [hs.que]
  rfl

end

end Sys2Proof.Machine

/-! SUPPORT. Staging DRAM and the management plane come up (R33, R139, R533). -/

namespace Sys2Proof.Machine

section
variable {s t u : State} {l : List Piece}

/-! ### Staging DRAM -/

theorem heldAt_12 (h : s.rst.hold ≠ some 1 ∧ s.rst.hold ≠ some 2) : s.heldAt [1, 2] = false := by
  obtain ⟨h1, h2⟩ := h
  unfold State.heldAt
  split
  next n hn =>
    have hn1 : n ≠ 1 := fun hx => h1 (hn.trans (congrArg some hx))
    have hn2 : n ≠ 2 := fun hx => h2 (hn.trans (congrArg some hx))
    simp [hn1, hn2]
  next => rfl

/-- Past steps 1 and 2 a hold at the end of step 5 alone stops the release of the data plane. -/
theorem heldAt_125 (h : s.rst.hold ≠ some 1 ∧ s.rst.hold ≠ some 2) :
    s.heldAt [1, 2, 5] = (s.rst.hold == some 5) := by
  obtain ⟨h1, h2⟩ := h
  unfold State.heldAt
  split
  next n hn =>
    have hn1 : n ≠ 1 := fun hx => h1 (hn.trans (congrArg some hx))
    have hn2 : n ≠ 2 := fun hx => h2 (hn.trans (congrArg some hx))
    rw [hn]
    simp [hn1, hn2, Bool.beq_eq_decide_eq]
  next hn => rw [hn]; rfl

/-- The reset block once a plane has come up: the data plane follows where both have. -/
theorem dataRelease_rst_running (s : State) (hp : s.rst.phase = .running)
    (hh : s.rst.hold ≠ some 1 ∧ s.rst.hold ≠ some 2) : s.dataRelease.rst = { s.rst with
      dataUp := s.rst.dataUp || (s.rst.staging && s.rst.mgmtUp && s.rst.hold != some 5) } := by
  have hheld := heldAt_125 hh
  have hrel : s.releases = (s.rst.staging && s.rst.mgmtUp && !s.rst.dataUp && s.rst.hold != some 5) := by
    simp only [State.releases, hp, hheld, beq_self_eq_true, Bool.and_true]
    rfl
  have hset {r : Rst} {b c : Bool} (hb : b = (c && !r.dataUp)) :
      (if b then { r with dataUp := true } else r) = { r with dataUp := r.dataUp || c } := by
    subst hb
    cases hd : r.dataUp <;> cases c <;> cases r <;> cases hd <;> rfl
  rw [dataRelease_rst]
  exact hset (by rw [hrel]; cases s.rst.staging <;> cases s.rst.mgmtUp <;> cases s.rst.dataUp <;> simp)

theorem exec_stagingReady {retained : Bool} (hp : s.rst.phase = .running) (hc : s.rst.ctrlUp = true)
    (hs : s.rst.staging = false) (hr : retained ≠ s.rst.train) (hh : s.rst.hold ≠ some 1 ∧ s.rst.hold ≠ some 2) :
    exec (.stagingReady retained) s = .next (State.done s s.stagingUp.dataRelease) := by
  have hheld := heldAt_12 hh
  show finish s (if s.rst.phase = .running && s.rst.ctrlUp && !s.rst.staging && retained != s.rst.train &&
    !s.heldAt [1, 2] then s.stagingUp.dataRelease else s) = _
  rw [if_pos (by simp [hp, hc, hs, hr, hheld]), finish]

/-- STAGING_READY marks its plane, and the data plane follows where the management plane is up. -/
theorem exec_stagingReady_marks {retained : Bool} (hp : s.rst.phase = .running) (hc : s.rst.ctrlUp = true)
    (hs : s.rst.staging = false) (hr : retained ≠ s.rst.train) (hh : s.rst.hold ≠ some 1 ∧ s.rst.hold ≠ some 2) :
    ∃ t, exec (.stagingReady retained) s = .next t ∧
      t.rst = { s.rst with
        staging := true, train := false
        dataUp := s.rst.dataUp || (s.rst.mgmtUp && s.rst.hold != some 5) } ∧
      (s.rst.mgmtUp = false → KeptBut [.rst] s t) ∧
      KeptBut [.rst, .peat, .pfe, .que, .sto, .misc, .grp, .fig, .sp] s t := by
  have hup : Spares [.rst] s s.stagingUp := spares_rst (by decide)
  refine ⟨_, exec_stagingReady hp hc hs hr hh, ?_, fun hm => ?_, ?_⟩
  · rw [done_rst, dataRelease_rst_running s.stagingUp hp hh]
    rfl
  · have hrel : s.stagingUp.releases = false := releases_false (.inr (.inr (.inl hm)))
    rw [dataRelease_same _ hrel]
    exact hup.done
  · exact ((hup.mono (by simp)).trans ((dataRelease_spares _).mono (by decide))).done

/-! ### The management plane -/

/-- A copy that a reset met is repeated first (R464). -/
def State.copied (s : State) : State :=
  if s.sets.copyDue then
    { (s.modMaq (fun _ => maquetteOf s.sets.cast)).unfreeze with
      sets := { (s.modMaq (fun _ => maquetteOf s.sets.cast)).unfreeze.sets with copyDue := false } }
  else s

/-- The plane is up: the service port answers. -/
def State.mgmtBooted (s : State) : State :=
  s.modRst (fun r => { r with mgmtUp := true, spiUp := true, booted := true })

theorem exec_mgmtBootDone (hp : s.rst.phase = .running) (hc : s.rst.ctrlUp = true) (hm : s.rst.mgmtUp = false)
    (hh : s.rst.hold ≠ some 1 ∧ s.rst.hold ≠ some 2) :
    exec .mgmtBootDone s = .next (State.done s s.copied.mgmtBooted.reportRestart.recordCut.dataRelease) := by
  have hheld := heldAt_12 hh
  show finish s (if s.rst.phase = .running && s.rst.ctrlUp && !s.rst.mgmtUp && !s.heldAt [1, 2] then
    s.copied.mgmtBooted.reportRestart.recordCut.dataRelease else s) = _
  rw [if_pos (by simp [hp, hc, hm, hheld]), finish]

end

end Sys2Proof.Machine

/-! SUPPORT. Stage descriptors at a start (R175, R178): what a port offers, and what the Maquette takes of it. -/

namespace Sys2Proof.Machine

section
variable {s t u : State} {l : List Piece}

theorem tell_spares (s : State) (ftype : Nat) : Spares l s (s.tell ftype) := by
  unfold State.tell
  exact .ite (sendReliable_spares s ftype) .refl

theorem tell_sets (s : State) (ftype : Nat) : (s.tell ftype).sets = s.sets := by
  unfold State.tell
  split <;> rfl

/-- The descriptors of the Maquette once a port has offered its own: a written one stands, else the offered one is
taken or none. -/
def State.broughtDescs (s : State) (p : Nat) : Tab Desc :=
  match tget? s.sets.maq.descs p with
  | some ⟨_, .written⟩ => s.sets.maq.descs
  | _ =>
    match s.offered p with
    | some d => tput s.sets.maq.descs p d
    | none => tdel s.sets.maq.descs p

theorem withSets_of_quiet (h : t.quiet = s.quiet) (x : Sets) :
    State.quiet { t with sets := x } = State.quiet { s with sets := x } := by
  have hq (u : State) : State.quiet { u with sets := x } = State.quiet { u.quiet with sets := x } := rfl
  rw [hq, h, ← hq]

/-- What is offered hangs on the ports, the storage and the reset block. -/
theorem offered_of_quiet (h : t.quiet = s.quiet) (p : Nat) : t.offered p = s.offered p :=
  field_of_quiet (fun u => u.offered p) (fun _ => rfl) h

theorem bringDesc_quiet (s : State) (p : Nat) : (s.bringDesc p).quiet =
    State.quiet { s with sets := { s.sets with maq := { s.sets.maq with descs := s.broughtDescs p } } } := by
  have hmatch (v : State) : State.quiet (match tget? v.sets.maq.descs p with
      | some ⟨_, .written⟩ => v
      | _ =>
        match v.offered p with
        | some d => v.modMaq (fun m => { m with descs := tput m.descs p d })
        | none => v.modMaq (fun m => { m with descs := tdel m.descs p })) =
      State.quiet { v with sets := { v.sets with maq := { v.sets.maq with descs := v.broughtDescs p } } } := by
    unfold State.broughtDescs
    split
    · rfl
    · split <;> rfl
  have hbrought (v : State) (hv : v.quiet = s.quiet) :
      State.quiet { v with sets := { v.sets with maq := { v.sets.maq with descs := v.broughtDescs p } } } =
      State.quiet { s with sets := { s.sets with maq := { s.sets.maq with descs := s.broughtDescs p } } } := by
    have hsets : v.sets = s.sets := field_of_quiet State.sets (fun _ => rfl) hv
    rw [State.broughtDescs, hsets, offered_of_quiet hv, ← State.broughtDescs, withSets_of_quiet hv]
  unfold State.bringDesc
  have hv : State.quiet (if s.exchanged p then s.log { code := 0x4305, source := 0x1000 + p } else s) = s.quiet := by
    split
    · exact log_quiet ..
    · rfl
  exact (hmatch _).trans (hbrought _ hv)

theorem startDesc_sets (s : State) (p : Nat) :
    (s.startDesc p).sets = { s.sets with maq := { s.sets.maq with descs := s.broughtDescs p } } := by
  have hb := field_of_quiet State.sets (fun _ => rfl) (bringDesc_quiet s p)
  unfold State.startDesc
  dsimp only
  split
  · exact hb
  · rw [tell_sets]
    exact hb

theorem startDesc_spares (s : State) (p : Nat) (hl : .sets ∈ l) : Spares l s (s.startDesc p) := by
  have hb : Spares l s (s.bringDesc p) := (spares_sets hl).trans (.of_quiet (bringDesc_quiet s p))
  unfold State.startDesc
  exact .ite hb (hb.trans (tell_spares _ 6))

/-- The descriptors of the Mire are considered port by port (R178). -/
theorem mireDescs_sets (s : State) : ∃ d, s.mireDescs.sets =
    { s.sets with mireDue := false, maq := { s.sets.maq with descs := d } } := by
  have hfold (ps : List Nat) (t : State) : ∃ d, (ps.foldl (fun t p =>
      if (tget? t.sto.sysDescs p).isSome then t.startDesc p else t) t).sets =
      { t.sets with maq := { t.sets.maq with descs := d } } := by
    induction ps generalizing t with
    | nil => exact ⟨_, rfl⟩
    | cons p ps ih =>
      rw [List.foldl_cons]
      obtain ⟨d, hd⟩ := ih (if (tget? t.sto.sysDescs p).isSome then t.startDesc p else t)
      refine ⟨d, hd.trans ?_⟩
      split
      · rw [startDesc_sets]
      · rfl
  exact hfold _ { s with sets := { s.sets with mireDue := false } }

theorem mireDescs_spares (s : State) (hl : .sets ∈ l) : Spares l s s.mireDescs :=
  (spares_sets hl).trans (.foldl (fun t p => .ite (startDesc_spares t p hl) .refl) _ _)

/-- A Maquette that thaws (R455). -/
theorem unfreeze_sets (s : State) : ∃ m d, s.unfreeze.sets =
    { s.sets with frozen := false, phase := 0, mireDue := m, maq := { s.sets.maq with descs := d } } := by
  unfold State.unfreeze
  dsimp only
  split
  · obtain ⟨d, hd⟩ := mireDescs_sets { s with sets := { s.sets with frozen := false, phase := 0 } }
    exact ⟨_, d, hd⟩
  · exact ⟨_, _, rfl⟩

theorem unfreeze_spares (s : State) (hl : .sets ∈ l) : Spares l s s.unfreeze := by
  unfold State.unfreeze
  have h : Spares l s { s with sets := { s.sets with frozen := false, phase := 0 } } := spares_sets hl
  exact .ite (h.trans (mireDescs_spares _ hl)) h

end

end Sys2Proof.Machine

/-! SUPPORT. The boot of the management plane (R33, R139, R430, R464, R533). -/

namespace Sys2Proof.Machine

section
variable {s t u : State} {l : List Piece}

/-! ### Mailboxes -/

theorem tget?_map_keys {α : Type} (f : Nat → α) (ks : List Nat) (n : Nat) :
    tget? (ks.map fun k => (k, f k)) n = if n ∈ ks then some (f n) else none := by
  induction ks with
  | nil => rfl
  | cons k ks ih =>
    rw [List.map_cons, tget?, ih]
    by_cases h : k = n
    · simp [h]
    · simp [h, Ne.symm h]

/-- A mailbox as it reports the restart: one that a takeover has reset keeps that reason (R613). -/
def Mbx.restarted (m : Mbx) (cause : Word) : Mbx :=
  if m.state = .reset ∧ m.reason = 2 then m
  else { Mbx.init with state := .reset, reason := 1, code := cause.truncate 16, port := m.port, owned := m.owned }

theorem reportRestart_mbx (s : State) : s.reportRestart.host.mbx =
    (List.range 256).map fun n => (n, (s.mbxAt n).restarted s.rst.cause) := by
  have hone (m : Mbx) : (if (m.state = .reset && m.reason = 2) = true then m else { Mbx.init with
      state := .reset, reason := 1, code := s.rst.cause.truncate 16, port := m.port, owned := m.owned }) =
      m.restarted s.rst.cause := by
    simp only [Mbx.restarted, Bool.and_eq_true, decide_eq_true_eq]
  simp only [← hone]
  rfl

theorem reportRestart_mbxAt (s : State) {n : Nat} (hn : n < 256) :
    s.reportRestart.mbxAt n = (s.mbxAt n).restarted s.rst.cause := by
  rw [State.mbxAt, reportRestart_mbx, tget, tget?_map_keys, if_pos (List.mem_range.mpr hn), Option.getD_some]

theorem reportRestart_spares (s : State) (hm : .mbx ∈ l) (hh : .hostRegs ∈ l) : Spares l s s.reportRestart :=
  ⟨rfl, fun p hp => by cases p <;> simp_all [Kept, State.reportRestart]⟩

/-! ### What the reset cut of calibration (R430) -/

theorem calFail_spares (s : State) (hl : .cal ∈ l) (cause object index source : Nat) :
    Spares l s (s.calFail cause object index source) := by
  unfold State.calFail
  have h : Spares l s (s.modCalib fun c => { c with failCnt := bump c.failCnt }) := spares_cal hl
  exact h.trans (.of_quiet (by rw [raise_quiet, log_quiet]))

theorem calFail_cut (s : State) (cause object index source : Nat) :
    (s.calFail cause object index source).cal.cut = s.cal.cut := by
  unfold State.calFail
  rw [cal_of_quiet ((raise_quiet _ _).trans (log_quiet _ _))]
  rfl

/-- One cut is recorded. -/
def State.recordOneCut (s : State) (x : Nat × Nat × Nat) : State :=
  if 0x7000 ≤ x.2.2 then (s.calFail calInterrupted x.1 x.2.1 x.2.2).raiseGrp ((x.2.2 - 0x7000) / 32) 8
  else s.calFail calInterrupted x.1 x.2.1 x.2.2

theorem recordOneCut_spares (s : State) (hl : .cal ∈ l) (x : Nat × Nat × Nat) : Spares l s (s.recordOneCut x) := by
  unfold State.recordOneCut
  have h := calFail_spares s hl calInterrupted x.1 x.2.1 x.2.2
  exact .ite (h.trans (.of_quiet (raise_quiet _ _))) h

theorem recordOneCut_cut (s : State) (x : Nat × Nat × Nat) : (s.recordOneCut x).cal.cut = s.cal.cut := by
  unfold State.recordOneCut
  split
  · rw [State.raiseGrp, cal_of_quiet (raise_quiet _ _), calFail_cut]
  · rw [calFail_cut]

theorem recordCut_eq (s : State) : s.recordCut = s.cal.cut.foldl State.recordOneCut
    (if s.cal.cut.isEmpty then s.modCalib (fun c => { c with cut := [] })
      else (s.modCalib (fun c => { c with cut := [] })).calFlag 0x80#32) := rfl

theorem recordCut_spares (s : State) (hl : .cal ∈ l) : Spares l s s.recordCut := by
  rw [recordCut_eq]
  have h : Spares l s (s.modCalib fun c => { c with cut := [] }) := spares_cal hl
  have hf : Spares l s ((s.modCalib fun c => { c with cut := [] }).calFlag 0x80#32) := h.trans (spares_cal hl)
  exact (Spares.ite h hf).trans (.foldl (fun t x => recordOneCut_spares t hl x) _ _)

theorem recordCut_cut (s : State) : s.recordCut.cal.cut = [] := by
  have hfold (xs : List (Nat × Nat × Nat)) (t : State) (ht : t.cal.cut = []) :
      (xs.foldl State.recordOneCut t).cal.cut = [] := by
    induction xs generalizing t with
    | nil => exact ht
    | cons x xs ih => exact ih _ ((recordOneCut_cut t x).trans ht)
  rw [recordCut_eq]
  refine hfold _ _ ?_
  split <;> rfl

theorem recordCut_none (s : State) (h : s.cal.cut = []) : s.recordCut = s := by
  rw [recordCut_eq, h]
  have hcal : { s.cal with cut := [] } = s.cal := by rw [← h]
  show { s with cal := { s.cal with cut := [] } } = s
  rw [hcal]

/-! ### The copy that a reset met (R464) -/

theorem copied_spares (s : State) (hl : .sets ∈ l) : Spares l s s.copied := by
  unfold State.copied
  have h : Spares l s (s.modMaq fun _ => maquetteOf s.sets.cast) := spares_sets hl
  exact .ite ((h.trans (unfreeze_spares _ hl)).trans (spares_sets hl)) .refl

theorem copied_none (s : State) (h : s.sets.copyDue = false) : s.copied = s := if_neg (ne_true_of_eq_false h)

theorem copied_sets (s : State) (h : s.sets.copyDue = true) : s.copied.sets.copyDue = false ∧
    s.copied.sets.frozen = false ∧ s.copied.sets.phase = 0 ∧ s.copied.sets.cast = s.sets.cast ∧
    { s.copied.sets.maq with descs := s.sets.cast.descs } =
      { maquetteOf s.sets.cast with descs := s.sets.cast.descs } := by
  obtain ⟨m, d, hu⟩ := unfreeze_sets (s.modMaq fun _ => maquetteOf s.sets.cast)
  have hc : s.copied.sets = { (s.modMaq fun _ => maquetteOf s.sets.cast).unfreeze.sets with copyDue := false } := by
    rw [State.copied, if_pos h]
  rw [hc, hu]
  exact ⟨rfl, rfl, rfl, rfl, rfl⟩

/-! ### The step -/

/-- The parts that the boot of the management plane may change. -/
def bootParts : List Piece := [.rst, .mbx, .hostRegs, .sets, .cal, .peat, .pfe, .que, .sto, .fig]

/-- The state at the boot of the management plane, the data plane still to follow. -/
def State.bootDone (s : State) : State := s.copied.mgmtBooted.reportRestart.recordCut

theorem bootDone_rst (s : State) : s.bootDone.rst = { s.rst with mgmtUp := true, spiUp := true, booted := true } := by
  have hcut : s.bootDone.rst = s.copied.mgmtBooted.reportRestart.rst := rst_of_reserved (recordCut_reserved _)
  have hcopied : s.copied.rst = s.rst := (copied_spares s (l := [.sets]) (by decide)).parts .rst (by decide)
  rw [hcut, ← hcopied]
  rfl

theorem bootDone_spares (s : State) : Spares bootParts s s.bootDone := by
  have h1 : Spares bootParts s s.copied := copied_spares s (by decide)
  have h2 : Spares bootParts s.copied s.copied.mgmtBooted := spares_rst (by decide)
  exact ((h1.trans h2).trans (reportRestart_spares _ (by decide) (by decide))).trans (recordCut_spares _ (by decide))

/-- What the release of the data plane and the end of the step leave of the host interface. -/
theorem bootDone_mbxAt (s : State) {n : Nat} (hn : n < 256) :
    (State.done s s.bootDone.dataRelease).mbxAt n = (s.mbxAt n).restarted s.rst.cause := by
  have hmbx : (State.done s s.bootDone.dataRelease).host.mbx = s.copied.mgmtBooted.reportRestart.host.mbx :=
    (((recordCut_spares _ (l := [.cal]) (by decide)).parts .mbx (by decide)).trans
      ((dataRelease_spares s.bootDone).parts .mbx (by decide))).trans (done_kept s _ .mbx)
  have hcopied := copied_spares s (l := [.sets]) (by decide)
  have hrst : s.copied.rst = s.rst := hcopied.parts .rst (by decide)
  have hold : s.copied.host.mbx = s.host.mbx := hcopied.parts .mbx (by decide)
  have h := reportRestart_mbxAt s.copied.mgmtBooted hn
  rw [State.mbxAt, hmbx, ← State.mbxAt, h]
  show (tget Mbx.init s.copied.host.mbx n).restarted s.copied.rst.cause = _
  rw [hold, hrst, State.mbxAt]

end

end Sys2Proof.Machine

namespace Sys2Proof.Machine

section
variable {s t u : State} {l : List Piece}

/-- What follows the boot keeps a part that neither the records of the cut nor the release reach. -/
theorem bootDone_kept (s : State) {p : Piece} (hc : p ≠ .cal) (hp : p ∉ releaseParts) :
    Kept s.copied.mgmtBooted.reportRestart (State.done s s.bootDone.dataRelease) p :=
  (((recordCut_spares _ (l := [.cal]) (by decide)).parts p (by simpa using hc)).trans
    ((dataRelease_spares s.bootDone).parts p hp)).trans (done_kept s _ p)

/-- MGMT_BOOT_DONE: every mailbox reports the restart, the cut of calibration is recorded, a copy is repeated, and
the data plane follows where staging DRAM is ready. -/
theorem exec_mgmtBootDone_boots (hp : s.rst.phase = .running) (hc : s.rst.ctrlUp = true) (hm : s.rst.mgmtUp = false)
    (hh : s.rst.hold ≠ some 1 ∧ s.rst.hold ≠ some 2) :
    ∃ t, exec (.mgmtBootDone) s = .next t ∧
      t.rst = { s.rst with
        mgmtUp := true, spiUp := true, booted := true
        dataUp := s.rst.dataUp || (s.rst.staging && s.rst.hold != some 5) } ∧
      (∀ n, n < 256 → t.mbxAt n = (s.mbxAt n).restarted s.rst.cause) ∧
      t.host.mbxRst = bumpBy s.host.mbxRst 256 ∧ t.cal.cut = [] ∧
      (s.sets.copyDue = false → t.sets = s.sets) ∧
      (s.sets.copyDue = true → t.sets.copyDue = false ∧ t.sets.frozen = false ∧ t.sets.phase = 0 ∧
        t.sets.cast = s.sets.cast ∧
        { t.sets.maq with descs := s.sets.cast.descs } = { (maquetteOf s.sets.cast) with descs := s.sets.cast.descs }) ∧
      (s.rst.staging = false → s.sets.copyDue = false → s.cal.cut = [] → KeptBut [.rst, .mbx, .hostRegs] s t) ∧
      KeptBut [.rst, .mbx, .hostRegs, .sets, .cal, .peat, .pfe, .que, .sto, .misc, .grp, .fig, .sp] s t := by
  have hrst := dataRelease_rst_running s.bootDone (by rw [bootDone_rst]; exact hp) (by rw [bootDone_rst]; exact hh)
  have hsets : (State.done s s.bootDone.dataRelease).sets = s.copied.sets :=
    bootDone_kept s (p := .sets) (by decide) (by decide)
  have hhost : s.copied.host.mbxRst = s.host.mbxRst := by
    obtain ⟨-, h, -⟩ := (copied_spares s (l := [.sets]) (by decide)).parts .hostRegs (by decide)
    exact h
  refine ⟨_, exec_mgmtBootDone hp hc hm hh, ?_, fun n hn => bootDone_mbxAt s hn, ?_, ?_, fun h => ?_, fun h => ?_,
    fun hst hcd hcut => ?_, ?_⟩
  · refine (done_rst s _).trans (hrst.trans ?_)
    rw [bootDone_rst]
    dsimp only
    rw [Bool.and_true]
  · obtain ⟨-, h, -⟩ := bootDone_kept s (p := .hostRegs) (by decide) (by decide)
    exact h.trans (congrArg (bumpBy · 256) hhost)
  · have hcal : (State.done s s.bootDone.dataRelease).cal = s.bootDone.cal :=
      ((dataRelease_spares s.bootDone).parts .cal (by decide)).trans (done_kept s _ .cal)
    exact (congrArg Cal.cut hcal).trans (recordCut_cut _)
  · exact hsets.trans (congrArg State.sets (copied_none s h))
  · refine hsets ▸ copied_sets s h
  · have hboot : s.bootDone = s.mgmtBooted.reportRestart := by
      rw [State.bootDone, copied_none s hcd, recordCut_none]
      exact hcut
    have hsame : s.bootDone.dataRelease = s.mgmtBooted.reportRestart := by
      rw [dataRelease_same, hboot]
      refine releases_false (.inr (.inl ?_))
      rw [bootDone_rst]
      exact hst
    have h : Spares [.rst, .mbx, .hostRegs] s s.mgmtBooted.reportRestart :=
      (spares_rst (by decide)).trans (reportRestart_spares s.mgmtBooted (by decide) (by decide))
    exact (h.trans (.of_eq hsame)).done
  · exact (((bootDone_spares s).mono (by decide)).trans ((dataRelease_spares _).mono (by decide))).done

end

end Sys2Proof.Machine

/-! SUPPORT. The reads of a group's stage EEPROMs (R175, R177, R178), port by port. -/

namespace Sys2Proof.Machine

section
variable {s t u : State} {l : List Piece}

/-- A port whose EEPROM was read: what a read gave, and whether it holds a descriptor. -/
def Sp.eepromRead (x : Sp) (d : Option (BitVec 2048)) : Sp :=
  match d with
  | none => { x with eepromState := 0 }
  | some d => { x with eeprom := d, eepromState := if descFault d = none then 1 else 2 }

theorem readEeprom_quiet (s : State) (p : Nat) (d : Option (BitVec 2048)) :
    (s.readEeprom p d).quiet = (s.modSp p fun x => x.eepromRead d).quiet := by
  unfold State.readEeprom
  cases d with
  | none => rfl
  | some d =>
    dsimp only [Sp.eepromRead]
    split
    next h => rw [h, if_pos rfl]
    next off h => rw [log_quiet, h, if_neg (Option.some_ne_none off)]

/-- One port's EEPROM is read and its descriptor considered. -/
def State.descRead (s : State) (p : Nat) (d : Option (BitVec 2048)) : State := (s.readEeprom p d).startDesc p

theorem descRead_spares (s : State) (p : Nat) (d : Option (BitVec 2048)) : Spares [.sp, .sets] s (s.descRead p d) := by
  have h : Spares [.sp, .sets] s (s.modSp p fun x => x.eepromRead d) := spares_sp (by decide)
  exact (h.trans (.of_quiet (readEeprom_quiet s p d))).trans (startDesc_spares _ p (by decide))

theorem readEeprom_sets (s : State) (p : Nat) (d : Option (BitVec 2048)) : (s.readEeprom p d).sets = s.sets :=
  (field_of_quiet State.sets (fun _ => rfl) (readEeprom_quiet s p d) :).trans rfl

theorem descRead_sp (s : State) (p : Nat) (d : Option (BitVec 2048)) :
    (s.descRead p d).sp = (s.modSp p fun x => x.eepromRead d).sp := by
  have h : (s.descRead p d).sp = (s.readEeprom p d).sp :=
    (startDesc_spares (s.readEeprom p d) p (l := [.sets]) (by decide)).parts .sp (by decide)
  exact h.trans (field_of_quiet State.sp (fun _ => rfl) (readEeprom_quiet s p d))

theorem descRead_spAt_self (s : State) (p : Nat) (d : Option (BitVec 2048)) :
    (s.descRead p d).spAt p = (s.spAt p).eepromRead d := by
  rw [State.spAt, descRead_sp]
  exact tget_tput_self

theorem descRead_spAt_other (s : State) {p q : Nat} (d : Option (BitVec 2048)) (h : q ≠ p) :
    (s.descRead p d).spAt q = s.spAt q := by
  rw [State.spAt, descRead_sp]
  exact tget_tput_other h

theorem descRead_sets (s : State) (p : Nat) (d : Option (BitVec 2048)) : (s.descRead p d).sets =
    { s.sets with maq := { s.sets.maq with descs := (s.readEeprom p d).broughtDescs p } } := by
  rw [State.descRead, startDesc_sets, readEeprom_sets]

/-- What a port offers hangs on the port, the storage and the reset block. -/
theorem offered_congr {p : Nat} (hsp : t.spAt p = s.spAt p) (hsto : t.sto = s.sto) (hrst : t.rst = s.rst) :
    t.offered p = s.offered p := by
  unfold State.offered
  rw [hsp, hsto, hrst]

/-- A descriptor as the Maquette has it once a port has offered one: a written one stands. -/
def broughtDesc (held offered : Option Desc) : Option Desc :=
  match held with
  | some ⟨d, .written⟩ => some ⟨d, .written⟩
  | _ => offered

theorem broughtDescs_self (s : State) (p : Nat) :
    tget? (s.broughtDescs p) p = broughtDesc (tget? s.sets.maq.descs p) (s.offered p) := by
  have hoffer : tget? (match s.offered p with
      | some d => tput s.sets.maq.descs p d
      | none => tdel s.sets.maq.descs p) p = s.offered p := by
    split
    next d hd => rw [tget?_tput_self, hd]
    next hd => rw [tget?_tdel_self, hd]
  unfold State.broughtDescs
  cases h : tget? s.sets.maq.descs p with
  | none => exact hoffer
  | some x =>
    obtain ⟨d, src⟩ := x
    cases src with
    | written => exact h
    | _ => exact hoffer

theorem broughtDescs_other (s : State) {p q : Nat} (h : q ≠ p) :
    tget? (s.broughtDescs p) q = tget? s.sets.maq.descs q := by
  unfold State.broughtDescs
  split
  · rfl
  · split
    · exact tget?_tput_other h
    · exact tget?_tdel_other _ h

/-! ### The eight reads -/

/-- What the reads gave for a port; a port not listed has no EEPROM. -/
def readOf (reads : List (Nat × Option (BitVec 2048))) (p : Nat) : Option (BitVec 2048) :=
  ((reads.find? (fun r => r.1 == p)).map (fun r => r.2)).getD none

/-- The first `n` ports of a group have been read. -/
structure DescsRead (grp : Nat) (reads : List (Nat × Option (BitVec 2048))) (s t : State) (n : Nat) : Prop where
  spares : Spares [.sp, .sets] s t
  sets : { t.sets with maq := { t.sets.maq with descs := s.sets.maq.descs } } = s.sets
  port : ∀ k < n, t.spAt (8 * grp + k) = (s.spAt (8 * grp + k)).eepromRead (readOf reads (8 * grp + k))
  desc : ∀ k < n, tget? t.sets.maq.descs (8 * grp + k) =
    broughtDesc (tget? s.sets.maq.descs (8 * grp + k)) (t.offered (8 * grp + k))
  others : ∀ p, (∀ k < n, p ≠ 8 * grp + k) → t.spAt p = s.spAt p ∧ tget? t.sets.maq.descs p = tget? s.sets.maq.descs p

theorem DescsRead.next {grp n : Nat} {reads : List (Nat × Option (BitVec 2048))} (h : DescsRead grp reads s t n) :
    DescsRead grp reads s (t.descRead (8 * grp + n) (readOf reads (8 * grp + n))) (n + 1) := by
  have hstep := descRead_spares t (8 * grp + n) (readOf reads (8 * grp + n))
  have hsets := descRead_sets t (8 * grp + n) (readOf reads (8 * grp + n))
  have hread := readEeprom_sets t (8 * grp + n) (readOf reads (8 * grp + n))
  obtain ⟨hsp, hdesc⟩ := h.others (8 * grp + n) (by omega)
  constructor
  case spares => exact h.spares.trans hstep
  case sets =>
    rw [hsets]
    exact h.sets
  case port =>
    intro k hk
    obtain hk | rfl := Nat.lt_succ_iff_lt_or_eq.mp hk
    · rw [descRead_spAt_other t _ (by omega), h.port k hk]
    · rw [descRead_spAt_self, hsp]
  case desc =>
    intro k hk
    rw [hsets]
    obtain hk | rfl := Nat.lt_succ_iff_lt_or_eq.mp hk
    · have hoff : (t.descRead (8 * grp + n) (readOf reads (8 * grp + n))).offered (8 * grp + k) =
          t.offered (8 * grp + k) :=
        offered_congr (descRead_spAt_other t _ (by omega)) (hstep.parts .sto (by decide)) (hstep.parts .rst (by decide))
      rw [broughtDescs_other _ (by omega), hread, hoff, h.desc k hk]
    · have hstart := startDesc_spares (t.readEeprom (8 * grp + k) (readOf reads (8 * grp + k))) (8 * grp + k)
        (l := [.sets]) (by decide)
      have hoff : (t.descRead (8 * grp + k) (readOf reads (8 * grp + k))).offered (8 * grp + k) =
          (t.readEeprom (8 * grp + k) (readOf reads (8 * grp + k))).offered (8 * grp + k) :=
        offered_congr (congrArg (fun x => tget Sp.init x (8 * grp + k)) (hstart.parts .sp (by decide)))
          (hstart.parts .sto (by decide)) (hstart.parts .rst (by decide))
      rw [broughtDescs_self, hread, hdesc, hoff]
  case others =>
    intro p hp
    obtain ⟨hsp, hdesc⟩ := h.others p fun k hk => hp k (by omega)
    have hne : p ≠ 8 * grp + n := hp n (by omega)
    rw [hsets, descRead_spAt_other t _ hne, broughtDescs_other _ hne, hread]
    exact ⟨hsp, hdesc⟩

theorem descsRead_range (grp : Nat) (reads : List (Nat × Option (BitVec 2048))) (s : State) (n : Nat) :
    DescsRead grp reads s ((List.range n).foldl (fun t k =>
      t.descRead (8 * grp + k) (readOf reads (8 * grp + k))) s) n := by
  induction n with
  | zero =>
    exact ⟨.refl, rfl, fun k hk => absurd hk (Nat.not_lt_zero k), fun k hk => absurd hk (Nat.not_lt_zero k),
      fun _ _ => ⟨rfl, rfl⟩⟩
  | succ n ih =>
    rw [List.range_succ, List.foldl_append, List.foldl_cons, List.foldl_nil]
    exact ih.next

end

end Sys2Proof.Machine

namespace Sys2Proof.Machine

section
variable {s t u : State} {l : List Piece}

/-- DESC_READS_END: the eight reads, and the group is done with them. -/
theorem exec_descReadsEnd {grp : Nat} (reads : List (Nat × Option (BitVec 2048))) (hg : s.hasGrp grp = true)
    (hp : s.rst.phase = .running) (hc : s.rst.ctrlUp = true) (hd : (s.grpAt grp).descDone = false)
    (hh : s.rst.hold ≠ some 1 ∧ s.rst.hold ≠ some 2)
    (hr : s.pairStrap = false ∨ s.twin.role = .solo ∨ s.twin.role = .active) :
    exec (.descReadsEnd grp reads) s = .next (State.done s
      (((List.range 8).foldl (fun t k => t.descRead (8 * grp + k) (readOf reads (8 * grp + k))) s).modGrp grp
        fun x => { x with descDone := true })) := by
  have hheld := heldAt_12 hh
  have hrole : (!s.pairStrap || s.twin.role == .solo || s.twin.role == .active) = true := by
    obtain h | h | h := hr <;> simp [h]
  show finish s (if s.hasGrp grp && s.rst.phase == .running && s.rst.ctrlUp && !(s.grpAt grp).descDone &&
    !s.heldAt [1, 2] && (!s.pairStrap || s.twin.role == .solo || s.twin.role == .active) then
    ((List.range 8).foldl (fun t k => t.descRead (8 * grp + k) (readOf reads (8 * grp + k))) s).modGrp grp
        (fun x => { x with descDone := true }) else s) = _
  rw [if_pos (by simp [hg, hp, hc, hd, hheld, hrole]), finish]

theorem exec_descReadsEnd_reads {grp : Nat} (reads : List (Nat × Option (BitVec 2048))) (hg : s.hasGrp grp = true)
    (hp : s.rst.phase = .running) (hc : s.rst.ctrlUp = true) (hd : (s.grpAt grp).descDone = false)
    (hh : s.rst.hold ≠ some 1 ∧ s.rst.hold ≠ some 2)
    (hr : s.pairStrap = false ∨ s.twin.role = .solo ∨ s.twin.role = .active) :
    ∃ t, exec (.descReadsEnd grp reads) s = .next t ∧
      t.grpAt grp = { s.grpAt grp with descDone := true } ∧
      (∀ p, p / 8 = grp → t.spAt p = (s.spAt p).eepromRead (readOf reads p)) ∧
      (∀ p, p / 8 = grp → tget? t.sets.maq.descs p = broughtDesc (tget? s.sets.maq.descs p) (t.offered p)) ∧
      (∀ p, p / 8 ≠ grp → t.spAt p = s.spAt p ∧ tget? t.sets.maq.descs p = tget? s.sets.maq.descs p) ∧
      { t.sets with maq := { t.sets.maq with descs := s.sets.maq.descs } } = s.sets ∧
      OnlyGrp grp s t ∧ KeptBut [.grp, .sp, .sets] s t := by
  have h := descsRead_range grp reads s 8
  refine ⟨_, exec_descReadsEnd reads hg hp hc hd hh hr, ?_⟩
  generalize (List.range 8).foldl _ s = v at h ⊢
  have hgrp : v.grp = s.grp := h.spares.parts .grp (by decide)
  have hport (p : Nat) (hp : p / 8 = grp) : p = 8 * grp + p % 8 ∧ p % 8 < 8 := by omega
  have hoff (p : Nat) : (State.done s (v.modGrp grp fun x => { x with descDone := true })).offered p = v.offered p :=
    offered_congr rfl rfl rfl
  refine ⟨?_, fun p hp => ?_, fun p hp => ?_, fun p hp => ?_, h.sets, fun k hk => ?_, ?_⟩
  · rw [done_grpAt, grpAt_modGrp_self, State.grpAt, hgrp, State.grpAt]
  · obtain ⟨he, hlt⟩ := hport p hp
    have hk := h.port (p % 8) hlt
    rwa [← he] at hk
  · obtain ⟨he, hlt⟩ := hport p hp
    have hk := h.desc (p % 8) hlt
    rw [← he] at hk
    rw [hoff]
    exact hk
  · exact h.others p fun k hk => by omega
  · rw [done_grpAt, grpAt_modGrp_other _ _ hk, State.grpAt, hgrp, State.grpAt]
  · exact ((h.spares.mono (by simp)).trans (modGrp_spares v (by decide) _ _)).done

end

end Sys2Proof.Machine

/-! SUPPORT. The Mire at a start (R508, R511, R512): what the scan of the targets found, and the state taken of it. -/

namespace Sys2Proof.Machine

section
variable {s t u : State} {l : List Piece}

/-! ### The scan -/

/-- A target as the scan found it. -/
def Target.scanned (x : Target) (n : NandScan) : Target :=
  if n.inLimits then
    { x with
      fitted := true, healthy := !x.retired, luns := n.luns, blocks := n.blocks
      pagesPerBlock := n.pagesPerBlock, tprogUs := n.tprogUs, bad := n.factoryBad.foldl insAsc x.bad }
  else { x with fitted := false }

/-- The storage after the scan of one target. -/
def Sto.scanned (x : Sto) (n : NandScan) : Sto :=
  { x with
    targets := tput x.targets n.target ((tget Target.init x.targets n.target).scanned n)
    flags := if n.inLimits then x.flags else x.flags ||| 0x400#32 }

theorem withSto_of_quiet (h : t.quiet = s.quiet) (x : Sto) :
    State.quiet { t with sto := x } = State.quiet { s with sto := x } := by
  have hq (u : State) : State.quiet { u with sto := x } = State.quiet { u.quiet with sto := x } := rfl
  rw [hq, h, ← hq]

theorem attach_quiet (s : State) (n : NandScan) :
    (s.attach n).quiet = State.quiet { s with sto := s.sto.scanned n } := by
  unfold State.attach Sto.scanned Target.scanned
  dsimp only
  split
  next h => rfl
  next h => rw [log_quiet]; rfl

theorem foldl_attach_quiet (scan : List NandScan) (s : State) :
    (scan.foldl State.attach s).quiet = State.quiet { s with sto := scan.foldl Sto.scanned s.sto } := by
  induction scan generalizing s with
  | nil => rfl
  | cons n scan ih =>
    have hsto : (s.attach n).sto = s.sto.scanned n := field_of_quiet State.sto (fun _ => rfl) (attach_quiet s n)
    rw [List.foldl_cons, ih, hsto, List.foldl_cons, withSto_of_quiet (attach_quiet s n)]

theorem foldl_attach_rst (scan : List NandScan) (s : State) : (scan.foldl State.attach s).rst = s.rst :=
  (rst_of_quiet (foldl_attach_quiet scan s) :)

theorem foldl_attach_sto (scan : List NandScan) (s : State) :
    (scan.foldl State.attach s).sto = scan.foldl Sto.scanned s.sto :=
  (field_of_quiet State.sto (fun _ => rfl) (foldl_attach_quiet scan s) :)

/-- The scan leaves what the log holds and whether the Mire is formatted for this module. -/
theorem foldl_scanned (scan : List NandScan) (x : Sto) : (scan.foldl Sto.scanned x).log = x.log ∧
    (scan.foldl Sto.scanned x).state = x.state ∧ (scan.foldl Sto.scanned x).formatted = x.formatted ∧
    (scan.foldl Sto.scanned x).own = x.own := by
  induction scan generalizing x with
  | nil => exact ⟨rfl, rfl, rfl, rfl⟩
  | cons n scan ih =>
    obtain ⟨hl, hs, hf, ho⟩ := ih (x.scanned n)
    exact ⟨hl, hs, hf, ho⟩

/-! ### The state taken -/

/-- What of the storage the steps after the scan leave: its state, the log and the targets. -/
def State.mire (s : State) : StoState × List Page × Tab Target := (s.sto.state, s.sto.log, s.sto.targets)

/-- The Mire's state by what the scan found (R512). -/
def Sto.foundState (x : Sto) : StoState :=
  if x.formatted && x.own then (if x.healthyCount = 0 then .failed else .ready) else .unformatted

theorem mireState_mire (s : State) (h : s.noMire = false) :
    s.mireState.mire = (s.sto.foundState, s.sto.log, s.sto.targets) := by
  unfold State.mireState Sto.foundState
  rw [if_neg (ne_true_of_eq_false h)]
  split
  · rfl
  · dsimp only
    split <;> rfl

theorem mireState_spares (s : State) (hl : .sto ∈ l) : Spares l s s.mireState := by
  unfold State.mireState
  have h : Spares l s { s with sto := { s.sto with state := .unformatted } } := spares_sto hl
  exact .ite (spares_sto hl) (.ite (spares_sto hl) (.ite (h.trans (spares_sto hl)) h))

/-! ### Into use -/

theorem syncPeat_mire (s : State) : s.syncPeat.mire = s.mire := by
  unfold State.syncPeat
  dsimp only
  split
  · rfl
  · split <;> rfl

@[simp] theorem mire_ite (c : Prop) [Decidable c] (t u : State) :
    (if c then t else u).mire = if c then t.mire else u.mire := apply_ite State.mire c t u

/-- What the steps after the scan leave stands where the storage does. -/
theorem mire_of_spares (h : Spares l s t) (hl : .sto ∉ l) : t.mire = s.mire :=
  congrArg (fun x : Sto => (x.state, x.log, x.targets)) (h.parts .sto hl)

@[simp] theorem raise_mire (s : State) (c : Nat) : (s.raise c).mire = s.mire :=
  mire_of_spares (.of_quiet (l := []) (raise_quiet s c)) (by decide)

theorem stoWatch_mire (s : State) : s.stoWatch.mire = s.mire := by
  unfold State.stoWatch
  extract_lets v held full near up x t1 t2 t3
  have h1 : t1.mire = s.mire := syncPeat_mire s
  have h2 : t2.mire = t1.mire := by simp [t2]
  have h3 : t3.mire = t2.mire := by simp [t3]
  simp [h3, h2, h1]

theorem stoWatch_spares (s : State) (hs : .sto ∈ l) (hp : .peat ∈ l) : Spares l s s.stoWatch := by
  unfold State.stoWatch
  extract_lets v held full near up x t1 t2 t3
  have hr (t : State) (c : Nat) : Spares l t (t.raise c) := .of_quiet (raise_quiet t c)
  have h1 : Spares l s t1 := (syncPeat_spares s hp).trans (spares_sto hs)
  have h2 : Spares l t1 t2 := .ite (hr _ _) .refl
  have h3 : Spares l t2 t3 := .ite (hr _ _) .refl
  exact ((h1.trans h2).trans h3).trans (.ite (hr _ _) .refl)

/-- A Mire that came up unformatted loses the staged pages; the log and the targets stand. -/
theorem pagesLost_mire (s : State) : s.pagesLost.mire = s.mire := by
  unfold State.pagesLost
  extract_lets pkts qids era t
  have ht : Spares [.que] s t :=
    .foldl (fun t _ => .foldl (fun t _ => reportLoss_spares t (by decide) ..) _ _) _ s
  have hm : t.mire = s.mire := mire_of_spares ht (by decide)
  exact hm

theorem assignMire_spares (s : State) (hl : .cal ∈ l) : Spares l s s.assignMire := by
  unfold State.assignMire
  split
  · exact .ite .refl (spares_cal hl)
  · exact .refl

end

end Sys2Proof.Machine

/-! PROOF: the map of the Mire rebuilt (step 8; R508, R511, R512). -/

namespace Sys2Proof.Machine

section
variable {s t u : State} {l : List Piece}

/-- The parts that the steps after the Mire's state is taken may change. -/
def serveParts : List Piece := [.sto, .peat, .que, .sets, .cal]

/-- The Mire's own content comes into use: its calibration record and, unless the Maquette is frozen, its
descriptors (R178, R511). -/
def State.mireServes (s : State) : State :=
  let u := s.assignMire
  if u.sets.frozen then { u with sets := { u.sets with mireDue := true } } else u.mireDescs

/-- The Mire comes into use after its state is taken: an unformatted one loses the staged pages, one that was
not measured takes the default rate, a ready one serves. -/
def State.mireStarts (s : State) : State :=
  let t := if s.sto.state = .unformatted then s.pagesLost else s
  let t := if t.sto.measured then t else { t with sto := { t.sto with rate := t.sto.defaultRate } }
  (if t.sto.state = .ready then t.mireServes else t).stoWatch

theorem mireServes_spares (s : State) : Spares [.sets, .cal] s s.mireServes := by
  unfold State.mireServes
  have h : Spares [.sets, .cal] s s.assignMire := assignMire_spares s (by decide)
  exact .ite (h.trans (spares_sets (by decide))) (h.trans (mireDescs_spares _ (by decide)))

theorem mireStarts_spares (s : State) : Spares serveParts s s.mireStarts := by
  unfold State.mireStarts
  extract_lets t1 x t2
  have h1 : Spares serveParts s t1 := .ite (pagesLost_spares s (by decide) (by decide) (by decide)) .refl
  have h2 : Spares serveParts t1 t2 := .ite .refl (spares_sto (by decide))
  have h3 : Spares serveParts t2 (if t2.sto.state = .ready then t2.mireServes else t2) :=
    .ite ((mireServes_spares t2).mono (by decide)) .refl
  exact ((h1.trans h2).trans h3).trans (stoWatch_spares _ (by decide) (by decide))

/-- Coming into use leaves the Mire's state, the log and the targets. -/
theorem mireStarts_mire (s : State) : s.mireStarts.mire = s.mire := by
  unfold State.mireStarts
  extract_lets t1 x t2
  have h1 : t1.mire = s.mire := by
    simp only [t1]
    split
    · exact pagesLost_mire s
    · rfl
  have h2 : t2.mire = t1.mire := by
    simp only [t2]
    split <;> rfl
  rw [stoWatch_mire, ← h1, ← h2]
  split
  · exact mire_of_spares (mireServes_spares t2) (by decide)
  · rfl

/-- The Mire is up with what the scan found. -/
def State.mireFound (s : State) (scan : List NandScan) : State :=
  let t := (scan.foldl State.attach s).modRst (fun r => { r with mireUp := true })
  if s.sto.state = .scanning then t.mireState else t

theorem mireFound_spares (s : State) (scan : List NandScan) : Spares [.rst, .sto] s (s.mireFound scan) := by
  unfold State.mireFound
  extract_lets t
  have h0 : Spares [.rst, .sto] s (scan.foldl State.attach s) :=
    (spares_sto (by decide)).trans (.of_quiet (foldl_attach_quiet scan s))
  have h : Spares [.rst, .sto] s t := h0.trans (spares_rst (by decide))
  exact .ite (h.trans (mireState_spares t (by decide))) h

theorem mireFound_rst (s : State) (scan : List NandScan) :
    (s.mireFound scan).rst = { s.rst with mireUp := true } := by
  unfold State.mireFound
  extract_lets t
  have h : t.rst = { s.rst with mireUp := true } :=
    congrArg (fun r : Rst => { r with mireUp := true }) (foldl_attach_rst scan s)
  split
  · have hm : Spares [.sto] t t.mireState := mireState_spares t (by decide)
    have hr : t.mireState.rst = t.rst := hm.parts .rst (by decide)
    exact hr.trans h
  · exact h

/-- The Mire's state by what the scan found, with the log and the targets of the scan. -/
theorem mireFound_mire (scan : List NandScan) (h : s.noMire = false) :
    (s.mireFound scan).mire =
      (if s.sto.state = .scanning then (scan.foldl Sto.scanned s.sto).foundState else s.sto.state,
        s.sto.log, (scan.foldl Sto.scanned s.sto).targets) := by
  obtain ⟨hlog, hst, -, -⟩ := foldl_scanned scan s.sto
  unfold State.mireFound
  extract_lets t
  have hsto : t.sto = scan.foldl Sto.scanned s.sto := foldl_attach_sto scan s
  have hstrap : t.noMire = s.noMire := (congrArg (fun r : Rst => r.strap.getLsbD 0) (foldl_attach_rst scan s) :)
  have hn : t.noMire = false := hstrap.trans h
  split
  next hscan => rw [mireState_mire t hn, hsto, hlog]
  next hscan => rw [State.mire, hsto, hst, hlog]

theorem exec_mireMapRebuilt {scan : List NandScan}
    (hr : s.rst.dataUp = true ∧ s.rst.mgmtUp = true ∧ s.rst.mireUp = false) (hn : s.noMire = false)
    (hh : s.heldAt [1, 2, 5] = false) :
    exec (.mireMapRebuilt scan) s = .next (State.done s (s.mireFound scan).mireStarts) := by
  obtain ⟨hd, hm, hu⟩ := hr
  show finish s (if _ then (s.mireFound scan).mireStarts else s) = _
  rw [if_pos (by simp [hd, hm, hu, hn, hh])]
  rfl

theorem mireRebuilt_frame (s : State) (scan : List NandScan) : KeptBut [.rst, .sto, .peat, .que, .sets, .cal, .pfe] s
    (State.done s (s.mireFound scan).mireStarts) :=
  (((mireFound_spares s scan).mono (by decide)).trans ((mireStarts_spares _).mono (by decide))).done

theorem mireRebuilt_rst (s : State) (scan : List NandScan) :
    (State.done s (s.mireFound scan).mireStarts).rst = { s.rst with mireUp := true } := by
  have h : (s.mireFound scan).mireStarts.rst = (s.mireFound scan).rst := (mireStarts_spares _).parts .rst (by decide)
  rw [done_rst, h, mireFound_rst]

theorem mireRebuilt_mire (scan : List NandScan) (h : s.noMire = false) :
    (State.done s (s.mireFound scan).mireStarts).mire =
      (if s.sto.state = .scanning then (scan.foldl Sto.scanned s.sto).foundState else s.sto.state,
        s.sto.log, (scan.foldl Sto.scanned s.sto).targets) :=
  (congrArg (fun x : Sto => (x.state, x.log, x.targets)) (done_sto s _)).trans
    ((mireStarts_mire _).trans (mireFound_mire scan h))

/-- The Mire takes its state of what the scan found; the log stands. -/
theorem exec_mireMapRebuilt_found (scan : List NandScan)
    (hr : s.rst.dataUp = true ∧ s.rst.mgmtUp = true ∧ s.rst.mireUp = false) (hn : s.noMire = false)
    (hh : s.heldAt [1, 2, 5] = false) :
    ∃ t, exec (.mireMapRebuilt scan) s = .next t ∧
      t.rst = { s.rst with mireUp := true } ∧
      t.sto.state = (if s.sto.state = .scanning then
        (if s.sto.formatted = true ∧ s.sto.own = true then (if t.sto.healthyCount = 0 then .failed else .ready)
          else .unformatted)
        else s.sto.state) ∧
      t.sto.log = s.sto.log ∧
      KeptBut [.rst, .sto, .peat, .que, .sets, .cal, .pfe] s t := by
  have hm := mireRebuilt_mire scan hn
  obtain ⟨-, -, hf, ho⟩ := foldl_scanned scan s.sto
  refine ⟨_, exec_mireMapRebuilt hr hn hh, mireRebuilt_rst s scan, ?_, congrArg (fun x => x.2.1) hm, mireRebuilt_frame s scan⟩
  generalize State.done s (s.mireFound scan).mireStarts = t at hm
  simp only [State.mire, Prod.mk.injEq] at hm
  obtain ⟨hstate, -, htargets⟩ := hm
  have hc : t.sto.healthyCount = (scan.foldl Sto.scanned s.sto).healthyCount := by
    rw [Sto.healthyCount, Sto.healthyCount, htargets]
  rw [hstate, Sto.foundState, hf, ho, hc]
  simp only [Bool.and_eq_true]

/-- A target scanned shows what the scan found; the others stand. -/
theorem exec_mireMapRebuilt_target (x : NandScan)
    (hr : s.rst.dataUp = true ∧ s.rst.mgmtUp = true ∧ s.rst.mireUp = false) (hn : s.noMire = false)
    (hh : s.heldAt [1, 2, 5] = false) :
    ∃ t, exec (.mireMapRebuilt [x]) s = .next t ∧
      t.targetAt x.target = (s.targetAt x.target).scanned x ∧
      (∀ n, n ≠ x.target → t.targetAt n = s.targetAt n) ∧
      KeptBut [.rst, .sto, .peat, .que, .sets, .cal, .pfe] s t := by
  have hm := mireRebuilt_mire [x] hn
  refine ⟨_, exec_mireMapRebuilt hr hn hh, ?_, ?_, mireRebuilt_frame s [x]⟩
  all_goals
    generalize State.done s (s.mireFound [x]).mireStarts = t at hm
    have ht : t.sto.targets = tput s.sto.targets x.target ((s.targetAt x.target).scanned x) :=
      congrArg (fun x => x.2.2) hm
  · rw [State.targetAt, ht, tget_tput_self]
  · intro n hne
    rw [State.targetAt, ht, tget_tput_other hne]
    rfl

end

end Sys2Proof.Machine

/-! PROOF: O36. The exit from reset and the steps of the start (R131, R133, R139, R175, R512, R533). -/

namespace Sys2Proof.Machine

section
variable {s : State}

/-- An exit from L0 lands only with the DRAM to be trained, one from L1 in any case (R131). -/
theorem landed_of_planesDown (h : s.rst.ctrlUp = false ∧ s.rst.dataUp = false ∧ s.rst.staging = false)
    (hl : s.rst.level ≠ 0 ∨ s.rst.train = true) : s.landed = true := by
  obtain ⟨hc, hd, hs⟩ := h
  obtain hl | ht := hl
  · simp [State.landed, hc, hd, hs, hl]
  · simp [State.landed, hc, hd, hs, ht]

/-- The reset block after the exit, with the level it came from written out. -/
theorem exited_rst_of_level {n : Nat} (hl : s.rst.level = n) : s.exited.rst = { s.rst with
    cause := at32 s.rst.reqLevel 12 ||| at32 n 8 ||| s.rst.seen.zeroExtend 32
    exits := s.rst.exits ++ [at32 s.rst.reqLevel 12 ||| at32 n 8 ||| s.rst.seen.zeroExtend 32]
    seen := 0#8, reqLevel := 0, level := 4, startLevel := n, phase := .running } := by
  subst hl
  rfl

/-- Settles O36: the way out of the stretch, the PLL lock with the check of the peat store, the planes marked
ready, the reads of the descriptors and the Mire's map, each by the lemma about its command. -/
theorem theStartRunsItsSteps : Obligations.TheStartRunsItsSteps := by
  unfold Obligations.TheStartRunsItsSteps
  refine ⟨fun s found hp ha hl hc => ?_, fun s found hp ha hl hc => ?_, fun s found hp ha hl hd => ?_,
    fun s found hp ha hl hd => ?_, fun s hp hc hh h => exec_pllLock_valid hp hc hh h,
    fun s hp hc hh h => exec_pllLock_lost hp hc hh h,
    fun s retained hp hc hr hh => exec_stagingReady_marks hp hc.1 hc.2 hr hh,
    fun s hp hc hh => exec_mgmtBootDone_boots hp hc.1 hc.2 hh,
    fun s grp reads hg hp hd hh hr => exec_descReadsEnd_reads reads hg hp.1 hp.2 hd hh hr,
    fun s scan hr hn hh => exec_mireMapRebuilt_found scan hr hn hh,
    fun s x hr hn hh => exec_mireMapRebuilt_target x hr hn hh⟩
  · obtain ⟨t, he, hr, hcount, hhist, hk⟩ := exec_stretchEnd_records found hp ha hl hc
    refine ⟨t, he, hr, hcount, ?_, hk⟩
    rw [hhist, hr]
  · obtain ⟨t, he, hr, hrest⟩ := exec_stretchEnd_waits found hp ha hl hc
    exact ⟨t, he, hr.trans (exited_rst_of_level rfl), hrest⟩
  · obtain ⟨hl0, htrain⟩ := hl
    obtain ⟨t, he, hr, hrest⟩ :=
      exec_stretchEnd_reads found hp ha (by omega) (landed_of_planesDown hd (.inr htrain))
    refine ⟨t, he, ?_, hrest⟩
    rw [hr, exited_rst_of_level rfl]
  · obtain ⟨t, he, hr, hrest⟩ :=
      exec_stretchEnd_reads found hp ha hl.le (landed_of_planesDown hd (.inl (by omega)))
    refine ⟨t, he, ?_, hrest⟩
    rw [hr, exited_rst_of_level hl]

end

end Sys2Proof.Machine

/-! SUPPORT. What taking the samples of a period leaves alone (R253, R258, R273): of a port everything but its
measurements and frozen counts, the counts only in the group sampled, and of the groups their rate, their tick and
the instants that wait. -/

namespace Sys2Proof.Machine

section
variable {s t u : State} {g : Nat} {l : List Piece}

/-! ### The relation -/

/-- A port without what a sample leaves in it: its measurements and its frozen counts (R258, R369). -/
def Sp.standing (x : Sp) : Sp :=
  { x with meas := Sp.init.meas, sup := { x.sup with froV := 0, froI := 0, codeV := 0, codeI := 0 } }

/-- The frozen counts of a port (R369). -/
def Sp.counts (x : Sp) : Nat × Nat := (x.sup.froV, x.sup.froI)

/-- The rate of a group, the clock of its tick and the instants of its comb that wait (R27, R225). -/
def Grp.combing (x : Grp) : Nat × Nat × List Instant := (x.rate, x.tickClk, x.acq.comb)

/-- One state comes from another by samples taken in a group. -/
structure Samples (g : Nat) (s t : State) : Prop where
  core : t.core = s.core
  misc : t.misc = s.misc
  grps : ∀ n, (t.grpAt n).combing = (s.grpAt n).combing
  ports : ∀ p, (t.spAt p).standing = (s.spAt p).standing
  counts : ∀ p, p / 8 ≠ g → (t.spAt p).counts = (s.spAt p).counts

theorem Samples.refl : Samples g s s := ⟨rfl, rfl, fun _ => rfl, fun _ => rfl, fun _ _ => rfl⟩

theorem Samples.trans (h : Samples g s t) (k : Samples g t u) : Samples g s u :=
  ⟨k.core.trans h.core, k.misc.trans h.misc, fun n => (k.grps n).trans (h.grps n),
    fun p => (k.ports p).trans (h.ports p), fun p hp => (k.counts p hp).trans (h.counts p hp)⟩

theorem Samples.foldl {β : Type} {f : State → β → State} {xs : List β}
    (hf : ∀ s, ∀ x ∈ xs, Samples g s (f s x)) (s : State) : Samples g s (xs.foldl f s) := by
  induction xs generalizing s with
  | nil => exact .refl
  | cons x xs ih => exact (hf s x (by simp)).trans (ih (fun s y hy => hf s y (by simp [hy])) _)

theorem Samples.ite {c : Prop} [Decidable c] (ht : Samples g s t) (hu : Samples g s u) :
    Samples g s (if c then t else u) := by
  split <;> assumption

/-! ### Changes of one object -/

/-- Neither groups nor ports change. -/
theorem Samples.of_core (hc : t.core = s.core) (hm : t.misc = s.misc) (hg : t.grp = s.grp) (hp : t.sp = s.sp) :
    Samples g s t :=
  ⟨hc, hm, fun n => by simp only [State.grpAt, hg], fun p => by simp only [State.spAt, hp],
    fun p _ => by simp only [State.spAt, hp]⟩

theorem samples_modQue (q : Nat) (f : Queue → Queue) : Samples g s (s.modQue q f) := .of_core rfl rfl rfl rfl

theorem samples_modFig (n : Nat) (f : Fig → Fig) (h : ∀ x, (f x).enabled = x.enabled := by intros; rfl) :
    Samples g s (s.modFig n f) :=
  .of_core (modFig_core s n f h) rfl rfl rfl

/-- The acquisition of a group changes, its comb apart. -/
theorem samples_modAcq (n : Nat) (f : Acq → Acq) (h : ∀ x, (f x).comb = x.comb := by intros; rfl) :
    Samples g s (s.modAcq n f) := by
  refine ⟨rfl, rfl, fun k => ?_, fun _ => rfl, fun _ _ => rfl⟩
  by_cases hk : k = n
  · subst hk
    simp [Grp.combing, h]
  · simp [grpAt_modGrp_other (h := hk)]

theorem modSp_spAt (s : State) (p q : Nat) (f : Sp → Sp) :
    (s.modSp q f).spAt p = if p = q then f (s.spAt p) else s.spAt p := by
  split_ifs with h
  · rw [h, spAt_modSp_self]
  · exact spAt_modSp_other s f h

/-- A port's measurements change, and its frozen counts where it is of the group. -/
theorem samples_modSp (p : Nat) (f : Sp → Sp) (hc : p / 8 ≠ g → ∀ x, (f x).counts = x.counts)
    (hs : ∀ x, (f x).standing = x.standing := by intros; rfl) : Samples g s (s.modSp p f) := by
  refine ⟨rfl, rfl, fun _ => rfl, fun k => ?_, fun k hk => ?_⟩
  · rw [modSp_spAt]
    split_ifs
    · exact hs _
    · rfl
  · rw [modSp_spAt]
    split_ifs with h
    · exact hc (h ▸ hk) _
    · rfl

/-! ### Raw capture (R249) -/

variable (s)

theorem produce_samples (qid : Nat) (b : Building) : Samples g s (s.produce qid b) :=
  .ite (samples_modQue _ _) .refl

theorem complete_samples (p : Outstanding → Bool) (a : Answer) : Samples g s (s.complete p a) := by
  refine .of_core (complete_core s p a) ?_ ?_ ?_ <;>
    · unfold State.complete
      split
      · rfl
      · simp only
        split <;> simp

theorem rawPush_samples (n : Nat) (c : RawCap) (w stamp : DWord) : Samples g s (s.rawPush n c w stamp) := by
  unfold State.rawPush
  exact .ite (samples_modQue _ _)
    (((samples_modQue _ _).trans (produce_samples _ _ _)).trans (samples_modAcq _ _))

theorem rawHalf_samples (n : Nat) (w : Word) (stamp : DWord) : Samples g s (s.rawHalf n w stamp) := by
  unfold State.rawHalf
  split
  · exact .refl
  · split
    · exact samples_modAcq _ _
    · exact (samples_modAcq _ _).trans (rawPush_samples _ _ _ _ _)

theorem rawEnd_samples (n : Nat) : Samples g s (s.rawEnd n) := by
  unfold State.rawEnd
  extract_lets u
  have hu : Samples g s u := by
    simp only [u]
    split
    · exact .ite (rawHalf_samples _ _ _ _) .refl
    · exact .refl
  split
  · exact hu
  · extract_lets q t
    have ht : Samples g u t := by
      simp only [t]
      split
      · exact .refl
      · exact (samples_modQue _ _).trans (produce_samples _ _ _)
    exact (hu.trans ht).trans ((samples_modAcq _ _).trans (complete_samples _ _ _))

theorem rawCount_samples (n : Nat) : Samples g s (s.rawCount n) := by
  unfold State.rawCount
  split
  · exact .refl
  · exact .ite ((samples_modAcq _ _).trans (rawEnd_samples _ _)) (samples_modAcq _ _)

theorem rawTake_samples (n : Nat) (words : List (Nat × Word)) (stamp : DWord) :
    Samples g s (s.rawTake n words stamp) := by
  unfold State.rawTake
  split
  · exact .refl
  · extract_lets mine seq u
    refine .ite .refl (Samples.trans (t := u) (.ite (samples_modAcq _ _) .refl) ?_)
    exact (Samples.foldl (fun t w _ => rawHalf_samples t _ _ _) _).trans (rawCount_samples _ _)

/-! ### Integrators, totals and the words of an instant (R258, R264, R270) -/

theorem apTake_samples (f : Nat) (x : Nat → Sample) : Samples g s (s.apTake f x) := by
  unfold State.apTake
  split
  · extract_lets stamp t a1
    have ht : Samples g s t := by
      refine .foldl (fun u p _ => ?_) s
      exact samples_modSp p _ fun _ _ => rfl
    exact .ite (ht.trans (samples_modFig _ _)) (.ite (samples_modFig _ _) .refl)
  · exact .refl

theorem totTake_samples (f : Nat) (x : Nat → Sample) : Samples g s (s.totTake f x) :=
  .ite (samples_modFig _ _) .refl

theorem rescaleAperture_samples (p rng vspan : Nat) : Samples g s (s.rescaleAperture p rng vspan) := by
  refine .foldl (fun t e _ => ?_) s
  split
  · extract_lets r t1
    have h1 : Samples g t t1 := samples_modSp p _ fun _ _ => rfl
    exact .ite .refl (h1.trans (samples_modFig _ _))
  · exact .refl

theorem keepSample_samples {p : Nat} (hp : p / 8 = g) (i : Instant) (x : Sample) :
    Samples g s (s.keepSample p i x) := by
  unfold State.keepSample
  extract_lets y n t
  have ht : Samples g s t := samples_modSp p _ fun h => absurd hp h
  exact ht.trans (samples_modSp p _ fun _ _ => rfl)

theorem takeInstant_samples (i : Instant) (stamp : DWord) : Samples g s (s.takeInstant g i stamp) := by
  unfold State.takeInstant
  extract_lets x at_ words now t t1
  have hkeep : Samples g s t := by
    refine .foldl (fun u k hk => keepSample_samples u ?_ _ _) s
    have := List.mem_range.mp hk
    omega
  have hrail : Samples g t t1 := samples_modAcq _ _
  refine (hkeep.trans hrail).trans (.ite ?_ .refl)
  exact ((Samples.foldl (fun t f _ => apTake_samples t f _) _).trans
    (.foldl (fun t f _ => totTake_samples t f _) _)).trans (rawTake_samples _ _ _ _)

end

/-! ### The comb (R225) -/

section
variable {s t : State} {g : Nat}

/-- Of a comb, by rate and tick of its group, the instants of the present period at its front. -/
def combFront (c : Nat × Nat × List Instant) : List Instant :=
  c.2.2.takeWhile (fun i => i.clk < c.2.1 + rateNs c.1 / 5)

/-- No instant of the present period waits at the front of a group's comb. -/
def State.drained (s : State) (g : Nat) : Prop := combFront (s.grpAt g).combing = []

theorem drained_congr (h : (t.grpAt g).combing = (s.grpAt g).combing) : t.drained g ↔ s.drained g := by
  rw [State.drained, h, State.drained]

/-- What is left of a group's comb once the instants of the present period are taken. -/
def State.combRest (s : State) (g : Nat) : State :=
  s.modAcq g (fun a => { a with
    comb := (s.grpAt g).acq.comb.dropWhile (fun i => i.clk < (s.grpAt g).tickClk + s.periodClk g) })

theorem combFinish_eq (s : State) (g : Nat) : s.combFinish g =
    (combFront (s.grpAt g).combing).foldl (fun t i => t.takeInstant g i (s.stampOf i)) (s.combRest g) := rfl

theorem combFinish_samples (s : State) (g : Nat) : Samples g (s.combRest g) (s.combFinish g) :=
  .foldl (fun t i _ => takeInstant_samples t i _) _

theorem combFinish_of_drained (h : s.drained g) : s.combFinish g = s.combRest g := by
  rw [combFinish_eq, h, List.foldl_nil]

theorem combRest_drained (s : State) (g : Nat) : (s.combRest g).drained g := by
  simp only [State.drained, State.combRest, modAcq_eq, grpAt_modGrp_self]
  exact List.takeWhile_eq_nil_iff.mpr (List.dropWhile_get_zero_not _ _)

theorem combFinish_drained (s : State) (g : Nat) : (s.combFinish g).drained g :=
  (drained_congr ((combFinish_samples s g).grps g)).mpr (combRest_drained s g)

/-- A comb that is drained stays so, whichever group's instants are taken. -/
theorem drained_combFinish {n : Nat} (h : s.drained n) (g : Nat) : (s.combFinish g).drained n := by
  obtain rfl | hn := eq_or_ne n g
  · exact combFinish_drained s n
  · refine (drained_congr ((combFinish_samples s g).grps n)).mpr ((drained_congr ?_).mpr h)
    rw [State.combRest, modAcq_eq, grpAt_modGrp_other (h := hn)]

theorem combFinish_standing (s : State) (g p : Nat) :
    ((s.combFinish g).spAt p).standing = (s.spAt p).standing := (combFinish_samples s g).ports p

/-- The frozen counts of a port stand where its group has no instant left to take. -/
theorem combFinish_counts {p : Nat} (h : s.drained (p / 8)) (g : Nat) :
    ((s.combFinish g).spAt p).counts = (s.spAt p).counts := by
  obtain rfl | hn := eq_or_ne (p / 8) g
  · rw [combFinish_of_drained h]
    rfl
  · exact (combFinish_samples s g).counts p hn

end

end Sys2Proof.Machine

/-! SUPPORT. The operations of a range window (R295, R299 to R306): what a switch boundary and a close do to a
member of the gang, and what they leave alone. -/

namespace Sys2Proof.Machine

section
variable {s t u : State} {g p q n : Nat} {l : List Piece}

/-! ### Frames -/

/-- The parts of the state that a range or span change may touch: samples are taken first (R264). -/
def rangeParts : List Piece := [.sp, .fig, .grp, .que, .requests, .mbx, .window, .free]

theorem Samples.spares (h : Samples g s t) : Spares rangeParts s t := by
  refine ⟨clk_of_steady (steady_of_core h.core), fun x hx => ?_⟩
  by_cases hm : x = .misc
  · subst hm
    exact h.misc
  · exact (Spares.of_core (l := workParts) h.core (List.Subset.refl _)).parts x
      fun hw => by cases x <;> simp_all [workParts, rangeParts]

theorem Spares.sets_eq (h : Spares l s t) (hl : .sets ∉ l) : t.sets = s.sets := h.parts .sets hl

theorem descOf_congr (h : t.sets = s.sets) (p : Nat) : t.descOf p = s.descOf p := by
  simp only [State.descOf, State.desc, h]

theorem castN_congr (h : t.sets = s.sets) (id i : Nat) : t.castN id i = s.castN id i := by
  simp only [State.castN, h]

/-! ### One change of a port after another -/

theorem tput_tput_self {α : Type} (t : Tab α) (k : Nat) (v w : α) : tput (tput t k v) k w = tput t k w := by
  induction t with
  | nil => simp [tput]
  | cons e t ih => simp only [tput]; split_ifs <;> simp_all [tput]

theorem modSp_modSp (s : State) (p : Nat) (f h : Sp → Sp) : (s.modSp p f).modSp p h = s.modSp p (fun x => h (f x)) := by
  simp only [State.modSp, State.spAt, tget_tput_self, tput_tput_self]

/-! ### Samples taken before a change (R264) -/

/-- The samples of a port's group are taken and the port's open aperture comes to a range and a span. -/
def State.resampled (s : State) (p rng vspan : Nat) : State := (s.combFinish (p / 8)).rescaleAperture p rng vspan

theorem resampled_samples (s : State) (p rng vspan : Nat) :
    Samples (p / 8) (s.combRest (p / 8)) (s.resampled p rng vspan) :=
  (combFinish_samples s (p / 8)).trans (rescaleAperture_samples _ _ _ _)

theorem resampled_spares (s : State) (p rng vspan : Nat) : Spares rangeParts s (s.resampled p rng vspan) :=
  (spares_grp (by decide) : Spares rangeParts s (s.combRest (p / 8))).trans (resampled_samples s p rng vspan).spares

theorem resampled_standing (s : State) (p rng vspan q : Nat) :
    ((s.resampled p rng vspan).spAt q).standing = (s.spAt q).standing := (resampled_samples s p rng vspan).ports q

theorem resampled_counts (h : s.drained (q / 8)) (p rng vspan : Nat) :
    ((s.resampled p rng vspan).spAt q).counts = (s.spAt q).counts := by
  have hr : Samples (q / 8 + 1) (s.combFinish (p / 8)) (s.resampled p rng vspan) := rescaleAperture_samples _ _ _ _
  rw [hr.counts q (by omega), combFinish_counts h]

theorem resampled_drained_iff (s : State) (p rng vspan n : Nat) :
    (s.resampled p rng vspan).drained n ↔ (s.combFinish (p / 8)).drained n :=
  drained_congr ((rescaleAperture_samples (g := 0) _ p rng vspan).grps n)

theorem resampled_drained (s : State) (p rng vspan : Nat) : (s.resampled p rng vspan).drained (p / 8) :=
  (resampled_drained_iff ..).mpr (combFinish_drained s _)

theorem drained_resampled (h : s.drained n) (p rng vspan : Nat) : (s.resampled p rng vspan).drained n :=
  (resampled_drained_iff ..).mpr (drained_combFinish h _)

theorem force_of_standing {x y : Sp} (h : x.standing = y.standing) : x.force = y.force := (congrArg Sp.force h :)

theorem loop_of_standing {x y : Sp} (h : x.standing = y.standing) : x.loop = y.loop := (congrArg Sp.loop h :)

theorem mon_of_standing {x y : Sp} (h : x.standing = y.standing) : x.sup.mon = y.sup.mon :=
  (congrArg (fun z : Sp => z.sup.mon) h :)

theorem tripped_of_standing {x y : Sp} (h : x.standing = y.standing) : x.sup.tripped = y.sup.tripped :=
  (congrArg (fun z : Sp => z.sup.tripped) h :)

/-! ### The switch boundary of one member (R299 step 2) -/

/-- A port after the switch boundary of its window: the new range, without the old one's line, the held current on
the new scale, every monitor masked, the frozen counts anew (R300, R358, R369). -/
def Sp.switched (d : BitVec 2048) (w : Window) (y : Sp) : Sp :=
  { y with
    force := { y.force with
      win := some { w with heldI := sat31 (rescaleWord (rhoI d w.a w.b) w.heldI) }
      rng := w.b
      lines := y.force.lines.filter (fun l => l != w.a)
      release := y.force.release.filter (fun l => l != w.a) }
    sup := { y.sup with mon := y.sup.mon.map (fun z => { z with mask := 2 }), froV := 0, froI := 0 } }

theorem switched_standing {x y : Sp} (h : x.standing = y.standing) (d : BitVec 2048) (w : Window) :
    (x.switched d w).standing = (y.switched d w).standing := (congrArg (Sp.switched d w) h :)

theorem rangeSwitch_of_none (h : (s.spAt p).force.win = none) : s.rangeSwitch p = s := by
  simp only [State.rangeSwitch, h]

/-- It takes the samples and changes one port. -/
theorem rangeSwitch_of_some {w : Window} (h : (s.spAt p).force.win = some w) : ∃ vspan,
    s.rangeSwitch p = (s.resampled p w.b vspan).modSp p (Sp.switched (s.descOf p) w) := by
  simp only [State.rangeSwitch, h, State.thaw, modForce_eq, modSup_eq, modSp_modSp]
  exact ⟨_, rfl⟩

theorem rangeSwitch_spares (s : State) (p : Nat) : Spares rangeParts s (s.rangeSwitch p) := by
  cases h : (s.spAt p).force.win with
  | none => exact .of_eq (rangeSwitch_of_none h)
  | some w =>
    obtain ⟨v, he⟩ := rangeSwitch_of_some h
    rw [he]
    exact (resampled_spares s p w.b v).trans (spares_sp (by decide))

theorem rangeSwitch_standing_self {w : Window} (h : (s.spAt p).force.win = some w) :
    ((s.rangeSwitch p).spAt p).standing = ((s.spAt p).switched (s.descOf p) w).standing := by
  obtain ⟨v, he⟩ := rangeSwitch_of_some h
  rw [he, spAt_modSp_self, switched_standing (resampled_standing s p w.b v p)]

theorem rangeSwitch_counts_self {w : Window} (h : (s.spAt p).force.win = some w) :
    ((s.rangeSwitch p).spAt p).counts = (0, 0) := by
  obtain ⟨v, he⟩ := rangeSwitch_of_some h
  rw [he, spAt_modSp_self]
  rfl

theorem rangeSwitch_drained_self {w : Window} (h : (s.spAt p).force.win = some w) :
    (s.rangeSwitch p).drained (p / 8) := by
  obtain ⟨v, he⟩ := rangeSwitch_of_some h
  rw [he]
  exact resampled_drained s p w.b v

theorem rangeSwitch_standing_other (h : q ≠ p) : ((s.rangeSwitch p).spAt q).standing = (s.spAt q).standing := by
  cases hw : (s.spAt p).force.win with
  | none => rw [rangeSwitch_of_none hw]
  | some w =>
    obtain ⟨v, he⟩ := rangeSwitch_of_some hw
    rw [he, spAt_modSp_other (h := h), resampled_standing]

theorem rangeSwitch_counts_other (h : q ≠ p) (hd : s.drained (q / 8)) :
    ((s.rangeSwitch p).spAt q).counts = (s.spAt q).counts := by
  cases hw : (s.spAt p).force.win with
  | none => rw [rangeSwitch_of_none hw]
  | some w =>
    obtain ⟨v, he⟩ := rangeSwitch_of_some hw
    rw [he, spAt_modSp_other (h := h), resampled_counts hd]

theorem drained_rangeSwitch (hd : s.drained n) (p : Nat) : (s.rangeSwitch p).drained n := by
  cases hw : (s.spAt p).force.win with
  | none => rwa [rangeSwitch_of_none hw]
  | some w =>
    obtain ⟨v, he⟩ := rangeSwitch_of_some hw
    rw [he]
    exact drained_resampled hd p w.b v

/-! ### The switch boundary of a gang (R303) -/

theorem foldl_rangeSwitch_standing {gang : List Nat} (h : q ∉ gang) (s : State) :
    ((gang.foldl State.rangeSwitch s).spAt q).standing = (s.spAt q).standing := by
  induction gang generalizing s with
  | nil => rfl
  | cons p gang ih =>
    simp only [List.mem_cons, not_or] at h
    rw [List.foldl_cons, ih h.2, rangeSwitch_standing_other h.1]

theorem foldl_rangeSwitch_counts {gang : List Nat} (h : q ∉ gang) (s : State) (hd : s.drained (q / 8)) :
    ((gang.foldl State.rangeSwitch s).spAt q).counts = (s.spAt q).counts := by
  induction gang generalizing s with
  | nil => rfl
  | cons p gang ih =>
    simp only [List.mem_cons, not_or] at h
    rw [List.foldl_cons, ih h.2 _ (drained_rangeSwitch hd p), rangeSwitch_counts_other h.1 hd]

theorem foldl_rangeSwitch_spares (gang : List Nat) (s : State) :
    Spares rangeParts s (gang.foldl State.rangeSwitch s) := .foldl rangeSwitch_spares gang s

/-- A member that stands once in the gang switches once, and no other member touches its counts after it: they
take the samples of a group that has none left. -/
theorem foldl_rangeSwitch_member {gang : List Nat} {x : Window} (hc : gang.count q = 1)
    (hw : (s.spAt q).force.win = some x) :
    ((gang.foldl State.rangeSwitch s).spAt q).standing = ((s.spAt q).switched (s.descOf q) x).standing ∧
    ((gang.foldl State.rangeSwitch s).spAt q).counts = (0, 0) := by
  obtain ⟨before, after, rfl, hb⟩ := List.eq_append_cons_of_mem (List.count_pos_iff.mp (by omega : 0 < gang.count q))
  have ha : q ∉ after := fun h => by
    have := List.count_pos_iff.mpr h
    simp only [List.count_append, List.count_cons_self] at hc
    omega
  let u := before.foldl State.rangeSwitch s
  have hu : (u.spAt q).standing = (s.spAt q).standing := foldl_rangeSwitch_standing hb s
  have hx : (u.spAt q).force.win = some x := (congrArg Force.win (force_of_standing hu)).trans hw
  have hd : u.descOf q = s.descOf q :=
    descOf_congr ((foldl_rangeSwitch_spares before s).sets_eq (by decide)) q
  rw [List.foldl_append, List.foldl_cons]
  constructor
  · rw [foldl_rangeSwitch_standing ha, rangeSwitch_standing_self hx, switched_standing hu, hd]
  · rw [foldl_rangeSwitch_counts ha _ (rangeSwitch_drained_self hx), rangeSwitch_counts_self hx]

/-! ### The close of a window (R299 step 3) -/

/-- A port after the close of its window: the change is counted, the model and the frozen counts start anew
(R301, R367, R369). -/
def Sp.closed (holdoff : Nat) (w : Window) (y : Sp) : Sp :=
  { y with
    force := { y.force with
      win := none, upRun := 0, downRuns := []
      rngUpCnt := if w.b < w.a then bump y.force.rngUpCnt else y.force.rngUpCnt
      rngDownCnt := if w.b < w.a then y.force.rngDownCnt else bump y.force.rngDownCnt
      flags := y.force.flags ||| (if w.b < w.a then 4#32 else 8#32) }
    sup := { y.sup with
      froV := 0, froI := 0
      model := { y.sup.model with hist := [], since := 0, holdoff := holdoff, fitted := 0 } } }

/-- How far a figure's runner and its point in flight have come, the marks of the point apart. -/
def Fig.progress (x : Fig) : RunState × Option Flight := (x.run, x.flight.map (fun y => { y with flags := 0#16 }))

@[simp] theorem raise_fig (s : State) (c : Nat) : (s.raise c).fig = s.fig := by
  unfold State.raise
  split <;> rfl

@[simp] theorem ptRngChange_sp (s : State) (p : Nat) : (s.ptRngChange p).sp = s.sp := by
  unfold State.ptRngChange
  split <;> rfl

theorem ptRngChange_spares (s : State) (p : Nat) : Spares [.sp, .fig] s (s.ptRngChange p) := by
  unfold State.ptRngChange
  split
  · exact .refl
  · exact spares_fig (by decide)

theorem ptRngChange_progress (s : State) (p f : Nat) :
    ((s.ptRngChange p).figAt f).progress = (s.figAt f).progress := by
  unfold State.ptRngChange
  split
  · rfl
  · next k _ =>
    obtain rfl | hn := eq_or_ne f k
    · simp only [figAt_modFig_self, Fig.progress, Option.map_map]
      rfl
    · rw [figAt_modFig_other (h := hn)]

theorem rangeClose_of_none (h : (s.spAt p).force.win = none) : s.rangeClose p = s := by
  simp only [State.rangeClose, h]

/-- FR_FLAGS of a change to a higher or to a lower full scale (R301). -/
theorem or_bitAt_two_three (y : Word) (up : Prop) [Decidable up] :
    y ||| bitAt (decide up) 2 ||| bitAt (!decide up) 3 = y ||| (if up then 4#32 else 8#32) := by
  by_cases h : up <;> simp [h, bitAt] <;> rfl

/-- It changes one port, marks a point and raises an event. -/
theorem rangeClose_of_some {w : Window} (h : (s.spAt p).force.win = some w) : ∃ k,
    s.rangeClose p = ((s.modSp p (Sp.closed (s.castN 0x163 0) w)).ptRngChange p).raisePort p k := by
  simp only [State.rangeClose, h, State.thaw, State.modelRestart, modForce_eq, modSup_eq, modSp_modSp,
    or_bitAt_two_three]
  exact ⟨_, rfl⟩

theorem rangeClose_sp {w : Window} (h : (s.spAt p).force.win = some w) :
    (s.rangeClose p).sp = (s.modSp p (Sp.closed (s.castN 0x163 0) w)).sp := by
  obtain ⟨k, he⟩ := rangeClose_of_some h
  rw [he, State.raisePort, raise_sp, ptRngChange_sp]

theorem rangeClose_spAt_self {w : Window} (h : (s.spAt p).force.win = some w) :
    (s.rangeClose p).spAt p = (s.spAt p).closed (s.castN 0x163 0) w := by
  rw [State.spAt, rangeClose_sp h, ← State.spAt, spAt_modSp_self]

theorem rangeClose_spAt_other (h : q ≠ p) : (s.rangeClose p).spAt q = s.spAt q := by
  cases hw : (s.spAt p).force.win with
  | none => rw [rangeClose_of_none hw]
  | some w => rw [State.spAt, rangeClose_sp hw, ← State.spAt, spAt_modSp_other (h := h)]

theorem rangeClose_spares (s : State) (p : Nat) : Spares [.sp, .fig] s (s.rangeClose p) := by
  cases h : (s.spAt p).force.win with
  | none => exact .of_eq (rangeClose_of_none h)
  | some w =>
    obtain ⟨k, he⟩ := rangeClose_of_some h
    rw [he]
    have hsp : Spares [.sp, .fig] s (s.modSp p (Sp.closed (s.castN 0x163 0) w)) := spares_sp (by decide)
    exact (hsp.trans (ptRngChange_spares _ p)).trans (.of_quiet (raise_quiet _ _))

theorem rangeClose_progress (s : State) (p f : Nat) :
    ((s.rangeClose p).figAt f).progress = (s.figAt f).progress := by
  cases h : (s.spAt p).force.win with
  | none => rw [rangeClose_of_none h]
  | some w =>
    obtain ⟨k, he⟩ := rangeClose_of_some h
    rw [he, State.figAt, State.raisePort, raise_fig, ← State.figAt, ptRngChange_progress]
    rfl

/-! ### The close of a gang's windows (R303) -/

theorem foldl_rangeClose_spares (gang : List Nat) (s : State) :
    Spares [.sp, .fig] s (gang.foldl State.rangeClose s) := .foldl rangeClose_spares gang s

theorem foldl_rangeClose_progress (gang : List Nat) (s : State) (f : Nat) :
    ((gang.foldl State.rangeClose s).figAt f).progress = (s.figAt f).progress := by
  induction gang generalizing s with
  | nil => rfl
  | cons p gang ih => rw [List.foldl_cons, ih, rangeClose_progress]

/-- A port that is no member, or has no window open, stands. -/
theorem foldl_rangeClose_sp_of_idle {gang : List Nat} (s : State)
    (h : q ∉ gang ∨ (s.spAt q).force.win = none) : (gang.foldl State.rangeClose s).spAt q = s.spAt q := by
  induction gang generalizing s with
  | nil => rfl
  | cons p gang ih =>
    have hp : (s.rangeClose p).spAt q = s.spAt q := by
      obtain rfl | hn := eq_or_ne q p
      · rw [rangeClose_of_none (by simpa using h)]
      · exact rangeClose_spAt_other hn
    rw [List.foldl_cons, ih, hp]
    rw [hp]
    exact h.imp_left fun h => (List.not_mem_of_not_mem_cons h :)

theorem foldl_rangeClose_member {gang : List Nat} {x : Window} (hq : q ∈ gang)
    (hw : (s.spAt q).force.win = some x) :
    (gang.foldl State.rangeClose s).spAt q = (s.spAt q).closed (s.castN 0x163 0) x := by
  obtain ⟨before, after, rfl, hb⟩ := List.eq_append_cons_of_mem hq
  let u := before.foldl State.rangeClose s
  have hu : u.spAt q = s.spAt q := foldl_rangeClose_sp_of_idle s (.inl hb)
  have hself : (u.rangeClose q).spAt q = (s.spAt q).closed (s.castN 0x163 0) x := by
    rw [rangeClose_spAt_self (by rw [hu, hw]), hu,
      castN_congr ((foldl_rangeClose_spares before s).sets_eq (by decide))]
  rw [List.foldl_append, List.foldl_cons, foldl_rangeClose_sp_of_idle _ (.inr ?_), hself]
  rw [hself]
  rfl

end

end Sys2Proof.Machine

/-! SUPPORT. Range and span parameters that take effect at the close of a window (R306, R637, Table 11.4): what the
requests they make leave of the port's force path. -/

namespace Sys2Proof.Machine

section
variable {s t : State} {p q : Nat}

/-! ### What a request leaves alone -/

/-- Of a force path: its output state, whether it ranges by itself, and whether parameters wait. -/
def Force.manner (x : Force) : OutState × Bool × Bool × Bool := (x.out, x.rngAuto, x.vspanAuto, x.paramsDue)

/-- Of a window: its ranges, its tick and who asked for it. -/
def Window.sight (w : Window) : Nat × Nat × Nat × Bool := (w.a, w.b, w.tick, w.requested)

/-- The window of a force path as it shows, and the range that waits. -/
def Force.ranging (x : Force) : Option (Nat × Nat × Nat × Bool) × Option Nat := (x.win.map Window.sight, x.downPend)

/-- The figure that leaves a port and the one whose slot runs there. -/
def Sp.role (x : Sp) : Option Leave × Option Nat := (x.leaving, x.slotFig)

theorem gangOf_congr (hr : ∀ q, (t.spAt q).role = (s.spAt q).role) (hs : t.sets = s.sets) (p : Nat) :
    t.gangOf p = s.gangOf p := by
  have hl : ∀ q, (t.spAt q).leaving = (s.spAt q).leaving := fun q => congrArg Prod.fst (hr q)
  have hslot : ∀ q, (t.spAt q).slotFig = (s.spAt q).slotFig := fun q => congrArg Prod.snd (hr q)
  simp only [State.gangOf, State.serves, State.figsOn, State.members, State.placeAt, hl, hslot, hs]
  rfl

theorem allowed_congr (h : t.sets = s.sets) (f p : Nat) : t.allowed f p = s.allowed f p := by
  simp only [State.allowed, descOf_congr h, h]

/-! ### One change of every member -/

section
variable {α : Type} {f : Nat → Sp → Sp}

/-- An aspect that the change of every member keeps. -/
theorem foldl_modSp_keeps (φ : Sp → α) (l : List Nat) (s : State) (p : Nat)
    (hf : ∀ q x, φ (f q x) = φ x := by intros; rfl) :
    φ ((l.foldl (fun t q => t.modSp q (f q)) s).spAt p) = φ (s.spAt p) := by
  induction l generalizing s with
  | nil => rfl
  | cons q l ih =>
    rw [List.foldl_cons, ih, modSp_spAt]
    split_ifs
    · exact hf q _
    · rfl

/-- An aspect that the change of a member brings about, whatever was before. -/
theorem foldl_modSp_sets (φ : Sp → α) {a : α} {l : List Nat} (hp : p ∈ l) (s : State)
    (hf : ∀ x, φ (f p x) = a := by intros; rfl) :
    φ ((l.foldl (fun t q => t.modSp q (f q)) s).spAt p) = a := by
  have hrest : ∀ (l : List Nat) (s : State), φ (s.spAt p) = a →
      φ ((l.foldl (fun t q => t.modSp q (f q)) s).spAt p) = a := by
    intro l
    induction l with
    | nil => exact fun _ h => h
    | cons q l ih =>
      refine fun s h => ih _ ?_
      rw [modSp_spAt]
      split_ifs with hq
      · exact hq ▸ hf _
      · exact h
  obtain ⟨before, after, rfl⟩ := List.append_of_mem hp
  rw [List.foldl_append, List.foldl_cons]
  exact hrest after _ (by rw [spAt_modSp_self, hf])

theorem foldl_modSp_spares (f : Nat → Sp → Sp) (l : List Nat) (s : State) :
    Spares rangeParts s (l.foldl (fun t q => t.modSp q (f q)) s) :=
  .foldl (fun _ _ => spares_sp (by decide)) l s

end

/-! ### A window starts (R299, R300) -/

/-- A port as its window starts. -/
def Sp.windowed (w : Window) (y : Sp) : Sp :=
  { y with
    force := { y.force with
      win := some w, lines := insAsc y.force.lines w.b, downPend := none, waited := 0, upRun := 0, downRuns := []
      flags := y.force.flags ||| bitAt w.holdV.isSome 6 }
    sup := { y.sup with mon := y.sup.mon.map (fun z => { z with mask := 2 }) }
    loop := if w.holdV.isSome then { y.loop with closing := some y.force.inCode } else y.loop }

/-- The window of one member starts. -/
def State.windowed (s : State) (q : Nat) (w : Window) : State :=
  let t := s.modForce q (fun y => { y with
    win := some w, lines := insAsc y.lines w.b, downPend := none, waited := 0, upRun := 0, downRuns := []
    flags := y.flags ||| bitAt w.holdV.isSome 6 })
  let t := t.modSup q (fun y => { y with mon := y.mon.map (fun z => { z with mask := 2 }) })
  if w.holdV.isSome then t.modLoop q (fun y => { y with closing := some (s.spAt q).force.inCode }) else t

theorem modSp_congr {f h : Sp → Sp} (e : f (s.spAt p) = h (s.spAt p)) : s.modSp p f = s.modSp p h := by
  simp only [State.modSp, e]

theorem windowed_eq (s : State) (q : Nat) (w : Window) : s.windowed q w = s.modSp q (Sp.windowed w) := by
  unfold State.windowed
  simp only [modForce_eq, modSup_eq, modLoop_eq, modSp_modSp]
  split_ifs with h
  · exact modSp_congr (by simp only [Sp.windowed, if_pos h])
  · exact modSp_congr (by simp only [Sp.windowed, if_neg h])

/-- The window to a range that starts on a member of a port's gang (R299, R303). -/
def State.startWindow (s : State) (p b : Nat) (requested : Bool) (q : Nat) : Window :=
  let g := s.gangOf p
  let a := (s.spAt p).force.rng
  let m := s.spAt (g.headD p)
  { a := a, b := b, tick := 0
    k := s.ticksUs (p / 8) (lmax (g.map (fun q => dMake (s.descOf q) b)))
    j := max 1 (s.ticksUs (p / 8) (lmax (g.map (fun q => dBreak (s.descOf q) a))))
    heldI := s.lastI q
    holdV := if m.loop.gov == 1 || !loopsClosed m then none else some (s.lastV (g.headD p))
    requested := requested }

theorem startWindow_sight (s : State) (p b : Nat) (requested : Bool) (q : Nat) :
    (s.startWindow p b requested q).sight = ((s.spAt p).force.rng, b, 0, requested) := rfl

theorem rangeStart_eq (s : State) (p b : Nat) (requested : Bool) : s.rangeStart p b requested =
    (s.gangOf p).foldl (fun t q => t.modSp q (Sp.windowed (s.startWindow p b requested q))) s := by
  simp only [← windowed_eq]
  rfl

theorem rangeStart_spares (s : State) (p b : Nat) (requested : Bool) :
    Spares rangeParts s (s.rangeStart p b requested) := by
  rw [rangeStart_eq]
  exact foldl_modSp_spares _ _ s

theorem rangeStart_manner (s : State) (p b : Nat) (requested : Bool) (q : Nat) :
    ((s.rangeStart p b requested).spAt q).force.manner = (s.spAt q).force.manner := by
  rw [rangeStart_eq]
  exact foldl_modSp_keeps (fun x => x.force.manner) _ s q

theorem rangeStart_ranging (h : p ∈ s.gangOf p) (b : Nat) (requested : Bool) :
    ((s.rangeStart p b requested).spAt p).force.ranging = (some ((s.spAt p).force.rng, b, 0, requested), none) := by
  rw [rangeStart_eq, ← startWindow_sight]
  exact foldl_modSp_sets (fun x => x.force.ranging) h s

/-! ### A range is asked for (R306) -/

theorem askRange_spares (s : State) (p b : Nat) : Spares rangeParts s (s.askRange p b) :=
  .ite .refl (.ite (rangeStart_spares s p b true) (foldl_modSp_spares _ _ s))

theorem askRange_manner (s : State) (p b q : Nat) :
    ((s.askRange p b).spAt q).force.manner = (s.spAt q).force.manner := by
  unfold State.askRange
  extract_lets x
  split_ifs
  · rfl
  · exact rangeStart_manner s p b true q
  · exact foldl_modSp_keeps (fun x => x.force.manner) _ s q

theorem askRange_same (hw : (s.spAt p).force.win = none) {b : Nat} (hb : b = (s.spAt p).force.rng) :
    s.askRange p b = s := by
  unfold State.askRange
  rw [if_pos ⟨hb, by rw [hw]; rfl⟩]

/-- A higher full scale starts at once. -/
theorem askRange_up (hp : p ∈ s.gangOf p) (hw : (s.spAt p).force.win = none) {b : Nat}
    (hb : b < (s.spAt p).force.rng) :
    ((s.askRange p b).spAt p).force.ranging = (some ((s.spAt p).force.rng, b, 0, true), none) := by
  unfold State.askRange
  rw [if_neg (fun h => hb.ne h.1), if_pos ⟨hb, by rw [hw]; rfl⟩]
  exact rangeStart_ranging hp b true

/-- A lower one waits. -/
theorem askRange_down (hp : p ∈ s.gangOf p) (hw : (s.spAt p).force.win = none) {b : Nat}
    (hb : (s.spAt p).force.rng < b) : ((s.askRange p b).spAt p).force.ranging = (none, some b) := by
  unfold State.askRange
  rw [if_neg (fun h => hb.ne' h.1), if_neg (fun h => absurd h.1 (by omega))]
  refine Prod.ext (congrArg (Option.map Window.sight) (Eq.trans ?_ hw)) ?_
  · exact foldl_modSp_keeps (fun x => x.force.win) _ s p
  · exact foldl_modSp_sets (fun x => x.force.downPend) hp s

/-! ### A voltage span is asked for (R295, R306) -/

/-- What a span change keeps of a force path. -/
def Force.lasting (x : Force) : (OutState × Bool × Bool × Bool) × Option (Nat × Nat × Nat × Bool) × Option Nat :=
  (x.manner, x.ranging)

theorem spanChange_of_ne {v : Nat} (h : (s.spAt p).force.vspan ≠ v) : ∃ rng, ∃ f : Sp → Sp, ∃ k,
    s.spanChange p v = (((s.resampled p rng v).modSp p f).ptRngChange p).raisePort p k ∧
    ∀ x, x.force = (s.spAt p).force → (f x).force.lasting = x.force.lasting := by
  have hc : ((s.combFinish (p / 8)).spAt p).force = (s.spAt p).force := force_of_standing (combFinish_standing ..)
  simp only [State.spanChange, if_neg h, State.thaw, modForce_eq, modLoop_eq, modSup_eq, modSp_modSp, hc]
  refine ⟨_, _, _, rfl, fun x hx => ?_⟩
  simp only [Force.lasting, Force.manner, Force.ranging, hx, Option.map_map]
  rfl

theorem spanChange_spares (s : State) (p v : Nat) : Spares rangeParts s (s.spanChange p v) := by
  by_cases h : (s.spAt p).force.vspan = v
  · exact .of_eq (if_pos h)
  · obtain ⟨rng, f, k, he, -⟩ := spanChange_of_ne h
    rw [he]
    have hp : Spares rangeParts s ((s.resampled p rng v).modSp p f) :=
      (resampled_spares s p rng v).trans (spares_sp (by decide))
    exact (hp.trans ((ptRngChange_spares _ p).mono (by decide))).trans (.of_quiet (raise_quiet _ _))

theorem spanChange_lasting (s : State) (p v q : Nat) :
    ((s.spanChange p v).spAt q).force.lasting = (s.spAt q).force.lasting := by
  by_cases h : (s.spAt p).force.vspan = v
  · rw [show s.spanChange p v = s from if_pos h]
  · obtain ⟨rng, f, k, he, hf⟩ := spanChange_of_ne h
    have hq : ((s.resampled p rng v).spAt q).force = (s.spAt q).force := force_of_standing (resampled_standing ..)
    have hsp : (s.spanChange p v).sp = ((s.resampled p rng v).modSp p f).sp := by
      rw [he, State.raisePort, raise_sp, ptRngChange_sp]
    rw [State.spAt, hsp, ← State.spAt, modSp_spAt]
    split_ifs with hqp
    · subst hqp
      rw [hf _ hq, hq]
    · rw [hq]

theorem askSpan_spares (s : State) (p v : Nat) : Spares rangeParts s (s.askSpan p v) :=
  .ite .refl (.ite (.foldl (fun t q => spanChange_spares t q v) _ s) (foldl_modSp_spares _ _ s))

theorem askSpan_lasting (s : State) (p v q : Nat) :
    ((s.askSpan p v).spAt q).force.lasting = (s.spAt q).force.lasting := by
  have hspan : ∀ (l : List Nat) (t : State),
      ((l.foldl (fun t r => t.spanChange r v) t).spAt q).force.lasting = (t.spAt q).force.lasting := by
    intro l
    induction l with
    | nil => exact fun _ => rfl
    | cons r l ih => exact fun t => (ih _).trans (spanChange_lasting t r v q)
  unfold State.askSpan
  extract_lets x
  split_ifs
  · rfl
  · exact hspan _ s
  · exact foldl_modSp_keeps (fun x => x.force.lasting) _ s q

/-! ### Parameters that waited for the close (R637) -/

/-- The parameters of a figure in a force path. -/
def Force.parameters (auto vauto : Bool) (y : Force) : Force :=
  { y with rngAuto := auto, vspanAuto := vauto, paramsDue := false }

/-- The force path once the figure's parameters are in force, before it asks for a range. -/
def State.paramsSet (s : State) (f p : Nat) : State :=
  (s.gangOf p).foldl (fun t q => t.modForce q (Force.parameters (s.castN 0x419 f == 1) (s.castN 0x421 f == 4))) s

theorem rangeParams_eq (s : State) (f p : Nat) : s.rangeParams f p =
    let t := (s.paramsSet f p).askRange p (nearest ((s.paramsSet f p).allowed f p) (s.spAt p).force.rng)
    if s.castN 0x421 f = 4 then t else t.askSpan p (s.castN 0x421 f) := rfl

theorem paramsSet_spares (s : State) (f p : Nat) : Spares rangeParts s (s.paramsSet f p) :=
  foldl_modSp_spares _ _ s

theorem paramsSet_gangOf (s : State) (f p q : Nat) : (s.paramsSet f p).gangOf q = s.gangOf q :=
  gangOf_congr (fun r => foldl_modSp_keeps Sp.role _ s r) ((paramsSet_spares s f p).sets_eq (by decide)) q

theorem paramsSet_win (s : State) (f p q : Nat) : ((s.paramsSet f p).spAt q).force.win = (s.spAt q).force.win :=
  foldl_modSp_keeps (fun x => x.force.win) _ s q

theorem paramsSet_rng (s : State) (f p q : Nat) : ((s.paramsSet f p).spAt q).force.rng = (s.spAt q).force.rng :=
  foldl_modSp_keeps (fun x => x.force.rng) _ s q

theorem paramsSet_manner (f : Nat) (hp : p ∈ s.gangOf p) : ((s.paramsSet f p).spAt p).force.manner =
    ((s.spAt p).force.out, s.castN 0x419 f == 1, s.castN 0x421 f == 4, false) := by
  refine Prod.ext (foldl_modSp_keeps (fun x => x.force.out) _ s p) ?_
  exact foldl_modSp_sets (fun x => x.force.manner.2) hp s

theorem rangeParams_spares (s : State) (f p : Nat) : Spares rangeParts s (s.rangeParams f p) := by
  rw [rangeParams_eq]
  extract_lets t
  have ht : Spares rangeParts s t := (paramsSet_spares s f p).trans (askRange_spares _ _ _)
  exact .ite ht (ht.trans (askSpan_spares _ _ _))

/-- What is asked of the span leaves the range's request alone. -/
theorem rangeParams_lasting (s : State) (f p : Nat) : ((s.rangeParams f p).spAt p).force.lasting =
    (((s.paramsSet f p).askRange p (nearest (s.allowed f p) (s.spAt p).force.rng)).spAt p).force.lasting := by
  rw [rangeParams_eq, allowed_congr ((paramsSet_spares s f p).sets_eq (by decide))]
  extract_lets t
  split_ifs
  · rfl
  · exact askSpan_lasting ..

theorem rangeParams_manner (f : Nat) (hp : p ∈ s.gangOf p) : ((s.rangeParams f p).spAt p).force.manner =
    ((s.spAt p).force.out, s.castN 0x419 f == 1, s.castN 0x421 f == 4, false) :=
  calc ((s.rangeParams f p).spAt p).force.manner
    _ = _ := congrArg Prod.fst (rangeParams_lasting s f p)
    _ = ((s.paramsSet f p).spAt p).force.manner := askRange_manner ..
    _ = _ := paramsSet_manner f hp

theorem rangeParams_ranging (s : State) (f p : Nat) : ((s.rangeParams f p).spAt p).force.ranging =
    (((s.paramsSet f p).askRange p (nearest (s.allowed f p) (s.spAt p).force.rng)).spAt p).force.ranging :=
  congrArg Prod.snd (rangeParams_lasting s f p)

theorem win_of_ranging {x : Force} {pend : Option Nat} (h : x.ranging = (none, pend)) : x.win = none :=
  Option.map_eq_none_iff.mp (congrArg Prod.fst h :)

/-- The range in force is an allowed one: no window. -/
theorem rangeParams_same (f : Nat) (hw : (s.spAt p).force.win = none)
    (hb : nearest (s.allowed f p) (s.spAt p).force.rng = (s.spAt p).force.rng) :
    ((s.rangeParams f p).spAt p).force.win = none := by
  have hw1 := (paramsSet_win s f p p).trans hw
  refine win_of_ranging (pend := ((s.paramsSet f p).spAt p).force.downPend) ?_
  rw [rangeParams_ranging, askRange_same hw1 (hb.trans (paramsSet_rng s f p p).symm), Force.ranging, hw1]
  rfl

/-- A higher full scale: its window starts. -/
theorem rangeParams_up (f : Nat) (hp : p ∈ s.gangOf p) (hw : (s.spAt p).force.win = none)
    (hb : nearest (s.allowed f p) (s.spAt p).force.rng < (s.spAt p).force.rng) :
    ((s.rangeParams f p).spAt p).force.win.map Window.sight =
      some ((s.spAt p).force.rng, nearest (s.allowed f p) (s.spAt p).force.rng, 0, true) := by
  have h := askRange_up (s := s.paramsSet f p) (by rwa [paramsSet_gangOf]) ((paramsSet_win s f p p).trans hw)
    (by rwa [paramsSet_rng])
  rw [← rangeParams_ranging, paramsSet_rng] at h
  exact congrArg Prod.fst h

/-- A lower full scale: it waits. -/
theorem rangeParams_down (f : Nat) (hp : p ∈ s.gangOf p) (hw : (s.spAt p).force.win = none)
    (hb : (s.spAt p).force.rng < nearest (s.allowed f p) (s.spAt p).force.rng) :
    ((s.rangeParams f p).spAt p).force.win = none ∧
    ((s.rangeParams f p).spAt p).force.downPend = some (nearest (s.allowed f p) (s.spAt p).force.rng) := by
  have h := askRange_down (s := s.paramsSet f p) (by rwa [paramsSet_gangOf]) ((paramsSet_win s f p p).trans hw)
    (by rwa [paramsSet_rng])
  rw [← rangeParams_ranging] at h
  exact ⟨win_of_ranging h, congrArg Prod.snd h⟩

end

end Sys2Proof.Machine

/-! PROOF: O43. The rows of a port's enable and disable sequences and of its range windows (R163, R164, R285, R288,
R299, R303, R357), each due and before its time, and the obligation. -/

namespace Sys2Proof.Machine

section
variable {s u : State} {port q : Nat} {w x : Window}

/-- A row whose condition fails changes nothing. -/
theorem finish_if_neg {c : Prop} [Decidable c] (h : ¬c) :
    ∃ t, finish s (if c then u else s) = .next t ∧ KeptBut [] s t :=
  ⟨_, by rw [if_neg h, finish], keptBut_same⟩

/-- A row that is due and changes its port alone. -/
theorem finish_if_modSp {c : Prop} [Decidable c] (h : c) (f : Sp → Sp) (hu : u = s.modSp port f) :
    ∃ t, finish s (if c then u else s) = .next t ∧
      t.spAt port = f (s.spAt port) ∧ OnlySp port s t ∧ KeptBut [.sp] s t := by
  subst hu
  refine ⟨State.done s (s.modSp port f), by rw [if_pos h, finish], ?_, fun k hk => ?_, ?_⟩
  · rw [done_spAt, spAt_modSp_self]
  · rw [done_spAt, spAt_modSp_other (h := hk)]
  · have hp : Spares [.sp] s (s.modSp port f) := spares_sp (by decide)
    exact hp.done

/-! ### The enable sequence (Table 7.2) -/

theorem exec_stgEnAssert_due (hr : s.grpRuns (port / 8) = true)
    (ho : (s.spAt port).force.out = .armed ∧ (s.spAt port).force.en = false)
    (hs : s.makeTicks port ≤ (s.spAt port).force.seq) (hl : (s.spAt port).force.lines.length = 1)
    (hm : s.allSettled port = true) : ∃ t, exec (.stgEnAssert port) s = .next t ∧
      t.spAt port = { s.spAt port with force := { (s.spAt port).force with en := true, seq := 0 } } ∧
      OnlySp port s t ∧ KeptBut [.sp] s t :=
  finish_if_modSp (by simp [hr, ho, hs, hl, hm]) _ rfl

theorem exec_stgEnAssert_early (h : (s.spAt port).force.seq < s.makeTicks port ∨ (s.spAt port).force.out ≠ .armed ∨
      (s.spAt port).force.lines.length ≠ 1 ∨ s.allSettled port = false) :
    ∃ t, exec (.stgEnAssert port) s = .next t ∧ KeptBut [] s t := by
  refine finish_if_neg fun hc => ?_
  simp only [Bool.and_eq_true, beq_iff_eq, Bool.not_eq_true', decide_eq_true_eq] at hc
  obtain ⟨⟨⟨⟨⟨-, ho⟩, -⟩, hs⟩, hl⟩, hm⟩ := hc
  rcases h with h | h | h | h
  · omega
  · exact h ho
  · exact h hl
  · exact absurd hm (ne_true_of_eq_false h)

/-- A port as its loops close, on a stage whose slot runs or on one that waits for a slot (R288, R337, R367, R397). -/
def Sp.loopsClosing (runs : Bool) (code : Int) (holdoff : Nat) (y : Sp) : Sp :=
  { y with
    force := { y.force with
      out := .ramp, seq := 0, iClip := false, down := if runs = true then none else some ⟨y.force.inCode, 1, 1⟩ }
    loop := { y.loop with closing := some code }
    sup := { y.sup with
      model := { y.sup.model with hist := [], since := 0, holdoff := holdoff, fitted := 0 } } }

theorem closeLoops_eq (s : State) (port : Nat) (code : Int) :
    s.closeLoops port code = s.modSp port (Sp.loopsClosing true code (s.castN 0x163 0)) := by
  simp only [State.closeLoops, State.modelRestart, modForce_eq, modLoop_eq, modSup_eq, modSp_modSp]
  rfl

theorem exec_loopsClose_due (hr : s.grpRuns (port / 8) = true)
    (ho : (s.spAt port).force.out = .armed ∧ (s.spAt port).force.en = true)
    (hs : s.ticksUs (port / 8) (dn (s.descOf port) 0xA8 2) ≤ (s.spAt port).force.seq) :
    ∃ t, exec (.loopsClose port) s = .next t ∧
      t.spAt port =
        (s.spAt port).loopsClosing (s.serves port).isSome (s.safeCode port) (s.castN 0x163 0) ∧
      OnlySp port s t ∧ KeptBut [.sp] s t := by
  refine finish_if_modSp (by simp [hr, ho, hs]) _ ?_
  rw [closeLoops_eq]
  split_ifs with h
  · rw [h]
  · rw [Bool.eq_false_of_not_eq_true h, modForce_eq, modSp_modSp]
    rfl

theorem exec_loopsClose_early (h : (s.spAt port).force.out ≠ .armed ∨ (s.spAt port).force.en = false ∨
      (s.spAt port).force.seq < s.ticksUs (port / 8) (dn (s.descOf port) 0xA8 2)) :
    ∃ t, exec (.loopsClose port) s = .next t ∧ KeptBut [] s t := by
  refine finish_if_neg fun hc => ?_
  simp only [Bool.and_eq_true, beq_iff_eq, decide_eq_true_eq] at hc
  obtain ⟨⟨⟨-, ho⟩, he⟩, hs⟩ := hc
  rcases h with h | h | h
  · exact h ho
  · exact absurd he (ne_true_of_eq_false h)
  · omega

/-! ### The disable sequence (R164, R285) -/

theorem atSafe_eq (f : Force) : atSafe f = f.down.any (fun r => decide (r.n ≤ r.j)) := by
  cases h : f.down <;> simp [atSafe, h]

theorem exec_rampDownEnd_due (hr : s.grpRuns (port / 8) = true) (ho : (s.spAt port).force.out = .rampDown)
    (hs : (s.spAt port).force.down.any (fun r => decide (r.n ≤ r.j)) = true) :
    ∃ t, exec (.rampDownEnd port) s = .next t ∧
      t.spAt port = { s.spAt port with
        force := { (s.spAt port).force with out := .park, en := false, down := none, seq := 0 } } ∧
      OnlySp port s t ∧ KeptBut [.sp] s t :=
  finish_if_modSp (by simp [hr, ho, atSafe_eq, hs]) _ rfl

theorem exec_rampDownEnd_early (h : (s.spAt port).force.out ≠ .rampDown ∨
      (s.spAt port).force.down.any (fun r => decide (r.n ≤ r.j)) = false) :
    ∃ t, exec (.rampDownEnd port) s = .next t ∧ KeptBut [] s t := by
  refine finish_if_neg fun hc => ?_
  simp only [Bool.and_eq_true, beq_iff_eq, atSafe_eq] at hc
  obtain ⟨⟨-, ho⟩, hs⟩ := hc
  rcases h with h | h
  · exact h ho
  · exact absurd hs (ne_true_of_eq_false h)

/-- A port whose drive ends, in an output state and with its lines to release. -/
def Sp.parked (out : OutState) (lines : List Nat) (y : Sp) : Sp :=
  { y with force := { y.force with out := out, leave := none, driven := false, release := lines, seq := 0 } }

/-- The port goes to OFF after a park; after a trip it stays in its state. -/
theorem exec_parkEnd_due {out : OutState} (hr : s.grpRuns (port / 8) = true)
    (ho : (s.spAt port).force.out = .park ∧ out = .off ∨ (s.spAt port).force.out = .tripped ∧ out = .tripped)
    (hd : (s.spAt port).force.driven = true)
    (hs : s.ticksUs (port / 8) (dn (s.descOf port) 0xAA 2) ≤ (s.spAt port).force.seq) :
    ∃ t, exec (.parkEnd port) s = .next t ∧ t.spAt port = (s.spAt port).parked out (s.releaseOrder port) ∧
      OnlySp port s t ∧ KeptBut [.sp] s t := by
  have hout : (s.spAt port).force.out = .park ∨ (s.spAt port).force.out = .tripped :=
    ho.imp And.left And.left
  refine finish_if_modSp (by simp [hr, hout, hd, hs]) _ (modSp_congr ?_)
  rcases ho with ⟨hp, ho⟩ | ⟨ht, ho⟩
  · simp only [Sp.parked, hp, ho, beq_self_eq_true, if_true]
  · simp only [Sp.parked, ht, ho]
    rfl

theorem exec_parkEnd_early (h : (s.spAt port).force.driven = false ∨
      (s.spAt port).force.seq < s.ticksUs (port / 8) (dn (s.descOf port) 0xAA 2)) :
    ∃ t, exec (.parkEnd port) s = .next t ∧ KeptBut [] s t := by
  refine finish_if_neg fun hc => ?_
  simp only [Bool.and_eq_true, decide_eq_true_eq] at hc
  obtain ⟨⟨⟨-, hd⟩, hs⟩, -⟩ := hc
  rcases h with h | h
  · exact absurd hd (ne_true_of_eq_false h)
  · omega

theorem exec_rngLineRelease_cons {l : Nat} {rest : List Nat} (h : (s.spAt port).force.release = l :: rest) :
    exec (.rngLineRelease port) s = finish s
      (if s.grpRuns (port / 8) && 1 ≤ (s.spAt port).force.seq && !(s.spAt port).force.driven &&
          (s.spAt port).force.win.isNone then
        s.modForce port (fun y => { y with lines := y.lines.filter (fun z => z != l), release := rest, seq := 0 })
      else s) := by
  show execRngLineRelease port s = _
  simp only [execRngLineRelease, h]

theorem exec_rngLineRelease_due {l : Nat} {rest : List Nat} (hr : s.grpRuns (port / 8) = true)
    (hl : (s.spAt port).force.release = l :: rest)
    (hs : 1 ≤ (s.spAt port).force.seq ∧ (s.spAt port).force.driven = false ∧ (s.spAt port).force.win = none) :
    ∃ t, exec (.rngLineRelease port) s = .next t ∧
      t.spAt port = { s.spAt port with
        force := { (s.spAt port).force with
          lines := (s.spAt port).force.lines.filter (fun y => y != l), release := rest, seq := 0 } } ∧
      OnlySp port s t ∧ KeptBut [.sp] s t := by
  rw [exec_rngLineRelease_cons hl]
  exact finish_if_modSp (by simp [hr, hs]) _ rfl

theorem exec_rngLineRelease_early (h : (s.spAt port).force.release = [] ∨ (s.spAt port).force.seq = 0 ∨
      (s.spAt port).force.driven = true ∨ (s.spAt port).force.win ≠ none) :
    ∃ t, exec (.rngLineRelease port) s = .next t ∧ KeptBut [] s t := by
  cases hl : (s.spAt port).force.release with
  | nil =>
    refine ⟨State.done s s, ?_, keptBut_same⟩
    show execRngLineRelease port s = _
    simp only [execRngLineRelease, hl, finish]
  | cons l rest =>
    rw [exec_rngLineRelease_cons hl]
    refine finish_if_neg fun hc => ?_
    simp only [Bool.and_eq_true, Bool.not_eq_true', decide_eq_true_eq, Option.isNone_iff_eq_none] at hc
    obtain ⟨⟨⟨-, hs⟩, hd⟩, hw⟩ := hc
    rcases h with h | h | h | h
    · exact absurd (hl.symm.trans h) (List.cons_ne_nil _ _)
    · omega
    · exact absurd h (ne_true_of_eq_false hd)
    · exact h hw

/-! ### The switch boundary of a range window (R299, R303) -/

theorem exec_rangeSwitchBoundary_some (hw : (s.spAt port).force.win = some w) :
    exec (.rangeSwitchBoundary port) s = finish s
      (if s.grpRuns (port / 8) && (s.spAt port).force.rng != w.b && w.k ≤ w.tick then
        (s.gangOf port).foldl State.rangeSwitch s else s) := by
  show execRangeSwitchBoundary port s = _
  simp only [execRangeSwitchBoundary, hw]

theorem exec_rangeSwitchBoundary_due (hr : s.grpRuns (port / 8) = true) (hw : (s.spAt port).force.win = some w)
    (hd : (s.spAt port).force.rng ≠ w.b ∧ w.k ≤ w.tick) :
    exec (.rangeSwitchBoundary port) s = .next (State.done s ((s.gangOf port).foldl State.rangeSwitch s)) := by
  rw [exec_rangeSwitchBoundary_some hw, if_pos (by simp [hr, hd]), finish]

theorem exec_rangeSwitchBoundary_early (hw : (s.spAt port).force.win = some w)
    (h : (s.spAt port).force.rng = w.b ∨ w.tick < w.k) :
    ∃ t, exec (.rangeSwitchBoundary port) s = .next t ∧ KeptBut [] s t := by
  rw [exec_rangeSwitchBoundary_some hw]
  refine finish_if_neg fun hc => ?_
  simp only [Bool.and_eq_true, bne_iff_ne, decide_eq_true_eq] at hc
  obtain ⟨⟨-, hb⟩, hk⟩ := hc
  rcases h with h | h
  · exact hb h
  · omega

/-! ### The close of a range window (R299, R301, R637) -/

/-- The state once a gang's windows have closed, with the parameters that waited for it in force. -/
def State.windowsClosed (s : State) (port : Nat) : State :=
  let t := (s.gangOf port).foldl State.rangeClose s
  match s.serves port with
  | some f => if (s.spAt port).force.paramsDue then t.rangeParams f port else t
  | none => t

theorem windowsClosed_plain (h : (s.spAt port).force.paramsDue = false ∨ s.serves port = none) :
    s.windowsClosed port = (s.gangOf port).foldl State.rangeClose s := by
  unfold State.windowsClosed
  rcases h with h | h
  · cases s.serves port <;> simp [h]
  · rw [h]

theorem windowsClosed_params {f : Nat} (h : (s.spAt port).force.paramsDue = true ∧ s.serves port = some f) :
    s.windowsClosed port = ((s.gangOf port).foldl State.rangeClose s).rangeParams f port := by
  simp [State.windowsClosed, h]

theorem exec_rangeWindowClose_some (hw : (s.spAt port).force.win = some w) :
    exec (.rangeWindowClose port) s = finish s
      (if s.grpRuns (port / 8) && (s.spAt port).force.rng == w.b && w.k + w.j ≤ w.tick then s.windowsClosed port
        else s) := by
  show execRangeWindowClose port s = _
  simp only [execRangeWindowClose, hw]
  rfl

theorem exec_rangeWindowClose_due (hr : s.grpRuns (port / 8) = true) (hw : (s.spAt port).force.win = some w)
    (hd : (s.spAt port).force.rng = w.b ∧ w.k + w.j ≤ w.tick) :
    exec (.rangeWindowClose port) s = .next (State.done s (s.windowsClosed port)) := by
  rw [exec_rangeWindowClose_some hw, if_pos (by simp [hr, hd]), finish]

theorem exec_rangeWindowClose_early (hw : (s.spAt port).force.win = some w)
    (h : (s.spAt port).force.rng ≠ w.b ∨ w.tick < w.k + w.j) :
    ∃ t, exec (.rangeWindowClose port) s = .next t ∧ KeptBut [] s t := by
  rw [exec_rangeWindowClose_some hw]
  refine finish_if_neg fun hc => ?_
  simp only [Bool.and_eq_true, beq_iff_eq, decide_eq_true_eq] at hc
  obtain ⟨⟨-, hb⟩, hk⟩ := hc
  rcases h with h | h
  · exact h hb
  · omega

/-- A close brings no port to another figure, so the gangs stay as they are. -/
theorem foldl_rangeClose_role (gang : List Nat) (s : State) (q : Nat) :
    ((gang.foldl State.rangeClose s).spAt q).role = (s.spAt q).role := by
  by_cases hq : q ∈ gang
  · cases hw : (s.spAt q).force.win with
    | none => rw [foldl_rangeClose_sp_of_idle s (.inr hw)]
    | some x =>
      rw [foldl_rangeClose_member hq hw]
      rfl
  · rw [foldl_rangeClose_sp_of_idle s (.inl hq)]

theorem foldl_rangeClose_gangOf (gang : List Nat) (s : State) (q : Nat) :
    (gang.foldl State.rangeClose s).gangOf q = s.gangOf q :=
  gangOf_congr (foldl_rangeClose_role gang s) ((foldl_rangeClose_spares gang s).sets_eq (by decide)) q

/-- The parameters that waited take effect on a port whose window has closed. -/
theorem windowsClosed_rangeParams {f : Nat} (hp : port ∈ s.gangOf port) (hw : (s.spAt port).force.win = some w)
    (hb : (s.spAt port).force.rng = w.b) (hf : (s.spAt port).force.paramsDue = true ∧ s.serves port = some f) :
    ((s.windowsClosed port).spAt port).force.manner =
      ((s.spAt port).force.out, s.castN 0x419 f == 1, s.castN 0x421 f == 4, false) ∧
    (nearest (s.allowed f port) w.b = w.b → ((s.windowsClosed port).spAt port).force.win = none) ∧
    (nearest (s.allowed f port) w.b < w.b →
      ((s.windowsClosed port).spAt port).force.win.map Window.sight =
        some (w.b, nearest (s.allowed f port) w.b, 0, true)) ∧
    (w.b < nearest (s.allowed f port) w.b →
      ((s.windowsClosed port).spAt port).force.win = none ∧
      ((s.windowsClosed port).spAt port).force.downPend = some (nearest (s.allowed f port) w.b)) := by
  let t := (s.gangOf port).foldl State.rangeClose s
  have hsp : t.spAt port = (s.spAt port).closed (s.castN 0x163 0) w := foldl_rangeClose_member hp hw
  have hsets : t.sets = s.sets := (foldl_rangeClose_spares _ s).sets_eq (by decide)
  have hpt : port ∈ t.gangOf port := by rwa [foldl_rangeClose_gangOf]
  have hwin : (t.spAt port).force.win = none := by rw [hsp]; rfl
  have hrng : (t.spAt port).force.rng = w.b := by rw [hsp]; exact hb
  have hout : (t.spAt port).force.out = (s.spAt port).force.out := by rw [hsp]; rfl
  have hall : t.allowed f port = s.allowed f port := allowed_congr hsets f port
  have hmanner := rangeParams_manner f hpt
  have hsame := rangeParams_same f hwin
  have hup := rangeParams_up f hpt hwin
  have hdown := rangeParams_down f hpt hwin
  rw [hout, castN_congr hsets, castN_congr hsets] at hmanner
  rw [hrng, hall] at hsame hup hdown
  rw [windowsClosed_params hf]
  exact ⟨hmanner, hsame, hup, hdown⟩

theorem windowsClosed_spares (s : State) (port : Nat) : Spares rangeParts s (s.windowsClosed port) := by
  unfold State.windowsClosed
  extract_lets t
  have ht : Spares rangeParts s t := (foldl_rangeClose_spares _ s).mono (by decide)
  split
  · exact .ite (ht.trans (rangeParams_spares _ _ _)) ht
  · exact ht

end

/-- Settles O43: each row of the sequences by the lemma about it; a switch boundary by `foldl_rangeSwitch_member`, a
close by `foldl_rangeClose_member`, the parameters that waited for it by `windowsClosed_rangeParams`. -/
theorem portsEnableRampAndOpen : Obligations.PortsEnableRampAndOpen := by
  unfold Obligations.PortsEnableRampAndOpen
  refine ⟨fun s port => exec_stgEnAssert_due, fun s port => exec_stgEnAssert_early,
    fun s port => exec_loopsClose_due, fun s port => exec_loopsClose_early,
    fun s port => exec_rampDownEnd_due, fun s port => exec_rampDownEnd_early,
    fun s port hr ho hs => ?_, fun s port hr ho hs => ?_, fun s port => exec_parkEnd_early,
    fun s port l rest => exec_rngLineRelease_due, fun s port => exec_rngLineRelease_early,
    fun s port q w x hr hw hd hq => ⟨_, exec_rangeSwitchBoundary_due hr hw hd, ?_⟩,
    fun s port w => exec_rangeSwitchBoundary_early,
    fun s port q w x hr hw hd hf hq => ⟨_, exec_rangeWindowClose_due hr hw hd, ?_⟩,
    fun s port f w hr hw hd hf hq => ⟨_, exec_rangeWindowClose_due hr hw hd, ?_⟩,
    fun s port w => exec_rangeWindowClose_early⟩
  · exact exec_parkEnd_due hr (.inl ⟨ho.1, rfl⟩) ho.2 hs
  · exact exec_parkEnd_due hr (.inr ⟨ho.1, ho.1⟩) ho.2 hs
  · obtain ⟨hc, hx⟩ := hq
    obtain ⟨hstanding, hcounts⟩ := foldl_rangeSwitch_member hc hx
    refine ⟨force_of_standing hstanding, congrArg Prod.fst hcounts, congrArg Prod.snd hcounts,
      mon_of_standing hstanding, (tripped_of_standing hstanding :), (loop_of_standing hstanding :), fun p hp => ?_,
      (foldl_rangeSwitch_spares _ s).done⟩
    have hother := foldl_rangeSwitch_standing hp s
    exact ⟨force_of_standing hother, loop_of_standing hother, mon_of_standing hother⟩
  · obtain ⟨hc, hx⟩ := hq
    rw [windowsClosed_plain hf]
    refine ⟨foldl_rangeClose_member (List.contains_iff_mem.mp hc) hx,
      fun p hp => foldl_rangeClose_sp_of_idle s (.inl hp), fun f => ?_, (foldl_rangeClose_spares _ s).done⟩
    have hprogress := foldl_rangeClose_progress (s.gangOf port) s f
    exact ⟨congrArg Prod.fst hprogress, congrArg Prod.snd hprogress⟩
  · obtain ⟨hmanner, hsame, hup, hdown⟩ :=
      windowsClosed_rangeParams (List.contains_iff_mem.mp hq) hw hd.1 hf
    simp only [Force.manner, Prod.mk.injEq] at hmanner
    obtain ⟨hout, hrng, hspan, hdue⟩ := hmanner
    exact ⟨hdue, hrng, hspan, hout, hsame, hup, hdown, (windowsClosed_spares s port).done⟩

end Sys2Proof.Machine

/-! SUPPORT. Requests that complete as they are accepted, and edits of the Maquette that end well (R454, R570,
R598): what the framework leaves of the state around what a command does. -/

namespace Sys2Proof.Machine

section
variable {s u : State} {r : Req} {op : Nat} {g : Gate} {l : List Piece}

theorem answer_spares (hm : .mbx ∈ l) (hw : .window ∈ l) (w : Waiter) (a : Answer) :
    Spares l s (s.answer w a) := by
  obtain ⟨m, c, y, z, i, e⟩ := answer_eq s w a
  rw [e]
  exact ⟨rfl, fun p hp => by cases p <;> simp_all [Kept]⟩

theorem take_spares (hr : .requests ∈ l) : Spares l s (s.take r) :=
  ⟨rfl, fun p hp => by cases p <;> simp_all [Kept, State.take]⟩

/-- An accepted request that passes the checks of the framework runs its body. -/
theorem umser_accepts {body : State → State} (h : Accepts s r op g) :
    umser r op g s body = .next (State.done s (body (s.take r))) := by
  obtain ⟨hb, hg⟩ := h
  simp [umser, finish, hb, hg]

theorem opened_of_accepts (h : Accepts s r op g) : (s.mbxAt r.mbx).state = .opened := by
  obtain ⟨hb, -⟩ := h
  simp only [State.canBegin, Bool.and_eq_true, beq_iff_eq] at hb
  obtain ⟨⟨⟨⟨⟨⟨-, ho⟩, -⟩, -⟩, -⟩, -⟩, -⟩ := hb
  exact ho

/-- A request that only reads is answered, and nothing else changes. -/
theorem take_ok_done {res out : List Byte} (h : Accepts s r op g) :
    Answers s (State.done s ((s.take r).ok r op res out)) r op ⟨stOk, 0, res, out, false⟩ ∧
      KeptBut [.mbx, .requests, .window] s (State.done s ((s.take r).ok r op res out)) :=
  ⟨answers_of_reply (opened_of_accepts h) rfl rfl rfl,
    ((take_spares (by decide)).trans (answer_spares (by decide) (by decide) _ _)).done⟩

theorem editCommand_accepts {body : State → State} (h : Accepts s r op { standbyOk := false })
    (hf : s.sets.frozen = false) : editCommand r op s body = .next (State.done s (body (s.take r))) := by
  rw [editCommand, umser_accepts h, take_sets, hf]
  rfl

@[simp] theorem editOk_sets (res : List Byte) : (u.editOk r op res).sets = u.sets := by
  unfold State.editOk
  split
  · rfl
  · exact answer_sets ..

theorem editOk_spares (res : List Byte) : Spares [.mbx, .window, .twin] u (u.editOk r op res) := by
  unfold State.editOk
  exact .ite (spares_twin (by decide)) (answer_spares (by decide) (by decide) _ _)

/-- A step that changes no figure sends no RUNNER frame. -/
theorem done_twin_of_fig (hf : u.fig = s.fig) : (State.done s u).twin = u.twin := by
  have h0 : State.runnersChanged s u = 0 := by simp [State.runnersChanged, State.figAt, hf]
  have hd : (State.done s u).twin = (State.sendRunners s u).twin := by simp only [State.done]
  rw [hd, State.sendRunners, h0]
  split <;> rfl

/-- An accepted edit ends as R598 asks once it has changed nothing but the sets, and of them not the Cast's number. -/
theorem editOk_ends {x : Sets} (res : List Byte) (h : Accepts s r op g) (hc : x.castSeq = s.sets.castSeq) :
    EditEnds s.leads s (State.done s (State.editOk { s.take r with sets := x } r op res)) r op res := by
  unfold EditEnds State.editOk
  have hl : State.leads { s.take r with sets := x } = s.leads := rfl
  rw [hl]
  split
  · refine ⟨done_twin_of_fig rfl, done_host_fetched .., done_host_outst .., ?_, ?_⟩
    · exact done_host_mbx ..
    · exact done_host_window ..
  · have hs : Spares [.mbx, .requests, .window, .sets] s { s.take r with sets := x } :=
      (take_spares (by decide)).trans (spares_sets (by decide))
    obtain ⟨-, -, -, hkept⟩ := (hs.trans (answer_spares (by decide) (by decide) _ _)).done
    exact ⟨answers_of_reply (opened_of_accepts h) rfl rfl hc, hkept .twin (by decide)⟩

theorem editOk_keptBut {x : Sets} (res : List Byte) :
    KeptBut [.mbx, .requests, .window, .sets, .twin] s
      (State.done s (State.editOk { s.take r with sets := x } r op res)) := by
  have ht : Spares [.mbx, .requests, .window, .sets, .twin] s { s.take r with sets := x } :=
    (take_spares (by decide)).trans (spares_sets (by decide))
  exact (ht.trans ((editOk_spares res).mono (by decide))).done

end

end Sys2Proof.Machine

/-! SUPPORT. Sparse tables and parameter values: an entry after a filter, a copy between tables, and what the
triples of a request leave (R457, R469). -/

namespace Sys2Proof.Machine

section
variable {α : Type} {k n : Nat}

/-! ### Sparse tables -/

theorem tget?_filter (p : Nat → Bool) (t : Tab α) (k : Nat) :
    tget? (t.filter (fun e => p e.1)) k = if p k = true then tget? t k else none := by
  induction t with
  | nil => simp [tget?]
  | cons e t ih =>
    by_cases he : e.1 = k
    · cases hp : p k <;> simp_all [tget?]
    · cases hp : p e.1 <;> simp_all [tget?]

theorem tget?_tdel (t : Tab α) (k n : Nat) : tget? (tdel t k) n = if n = k then none else tget? t n := by
  split
  · subst n; exact tget?_tdel_self t k
  · exact tget?_tdel_other t ‹_›

theorem mem_insAsc (l : List Nat) (n k : Nat) : k ∈ insAsc l n ↔ k = n ∨ k ∈ l := by
  induction l with
  | nil => simp [insAsc]
  | cons x l ih =>
    simp only [insAsc]
    split_ifs with h1 h2
    · subst h1; simp
    · simp
    · simp only [List.mem_cons, ih]; tauto

theorem tget?_tcopy (src t : Tab α) (old new k : Nat) :
    tget? (tcopy src old t new) k = if k = new then (tget? src old).or (tget? t k) else tget? t k := by
  unfold tcopy
  split
  next v h =>
    split
    · subst k; rw [tget?_tput_self, h]; rfl
    · exact tget?_tput_other ‹_›
  next h => simp [h]

theorem tget?_foldl_tcopy_other (src : Tab α) (f g : Nat → Nat) (l : List Nat) (t : Tab α)
    (h : ∀ i ∈ l, k ≠ g i) : tget? (l.foldl (fun t i => tcopy src (f i) t (g i)) t) k = tget? t k := by
  induction l generalizing t with
  | nil => rfl
  | cons i l ih =>
    rw [List.foldl_cons, ih _ fun j hj => h j (List.mem_cons_of_mem _ hj), tget?_tcopy,
      if_neg (h i List.mem_cons_self)]

/-- Copies to different keys: each key holds what the source has, or what it held before. -/
theorem tget?_foldl_tcopy_of_mem (src : Tab α) (f : Nat → Nat) {g : Nat → Nat} (hg : g.Injective) {l : List Nat}
    {i : Nat} (hi : i ∈ l) (t : Tab α) : tget? (l.foldl (fun t i => tcopy src (f i) t (g i)) t) (g i) =
      (tget? src (f i)).or (tget? t (g i)) := by
  induction l generalizing t with
  | nil => simp at hi
  | cons j l ih =>
    rw [List.foldl_cons]
    by_cases hl : i ∈ l
    · rw [ih hl, tget?_tcopy]
      split
      next h => rw [hg h, ← Option.or_assoc, Option.or_self]
      next => rfl
    · obtain rfl : i = j := by simpa [hl] using hi
      rw [tget?_foldl_tcopy_other _ _ _ _ _ fun k hk h => hl (by rwa [hg h]), tget?_tcopy, if_pos rfl]

/-! ### Parameter values -/

variable {id index a i : Nat} {v : Word} {l : List Triple}

theorem pkey_eq_iff (hi : i < 65536) (hx : index < 65536) : pkey a i = pkey id index ↔ a = id ∧ i = index := by
  unfold pkey; omega

theorem pval_congr {t u : Tab Word} {i j : Nat} (h : tget? t (pkey id i) = tget? u (pkey id j)) :
    pval t id i = pval u id j := by
  rw [pval, h, pval]

theorem pval_of_none {t : Tab Word} (h : tget? t (pkey id index) = none) : pval t id index = paramReset id := by
  rw [pval, h]

theorem pval_pset (hi : i < 65536) (hx : index < 65536) (t : Tab Word) :
    pval (pset t a i v) id index = if a = id ∧ i = index then v else pval t id index := by
  unfold pset
  split
  next hv =>
    split
    next h => rw [h.1, h.2, pval_of_none (tget?_tdel_self ..), hv, h.1]
    next h => exact pval_congr (tget?_tdel_other t fun e => h ((pkey_eq_iff hi hx).mp e.symm))
  next =>
    split
    next h => rw [h.1, h.2, pval, tget?_tput_self]
    next h => exact pval_congr (tget?_tput_other fun e => h ((pkey_eq_iff hi hx).mp e.symm))

/-! ### Triples -/

/-- The values a request's triples of set Cast/Maquette leave in a table (R457). -/
def setTriples (t : Tab Word) (l : List Triple) : Tab Word :=
  l.foldl (fun t x => if isLive x.id then t else pset t x.id x.index x.value) t

/-- The live values a request's triples leave to be applied (R453). -/
def liveTriples (l : List Triple) : List (Nat × Word) :=
  (l.filter (fun x => isLive x.id)).map (fun x => (pkey x.id x.index, x.value))

theorem applyTriples_eq (s : State) (l : List Triple) : s.applyTriples l = { s with sets := { s.sets with
    maq := { s.sets.maq with params := setTriples s.sets.maq.params l }
    livePending := s.sets.livePending ++ liveTriples l } } := by
  unfold State.applyTriples
  induction l generalizing s with
  | nil => simp [setTriples, liveTriples]
  | cons x l ih =>
    rw [List.foldl_cons, ih]
    cases hx : isLive x.id <;> simp [setTriples, liveTriples, hx, State.modMaq]

theorem afterTriples_cons (x : Triple) (old : Word) : afterTriples (x :: l) id index old =
    afterTriples l id index (if x.id = id ∧ x.index = index then x.value else old) := by
  unfold afterTriples
  rw [List.reverse_cons, List.find?_append]
  cases l.reverse.find? (fun t => t.id == id && t.index == index) with
  | some y => rfl
  | none => by_cases h : x.id = id ∧ x.index = index <;> simp [h]

theorem afterTriples_of_ne {old : Word} (h : ∀ x ∈ l, ¬ (x.id = id ∧ x.index = index)) :
    afterTriples l id index old = old := by
  unfold afterTriples
  rw [List.find?_eq_none.mpr]
  simpa using h

theorem pval_setTriples (hl : ∀ x ∈ l, x.index < 65536) (hx : index < 65536) (hid : isLive id = false)
    (t : Tab Word) : pval (setTriples t l) id index = afterTriples l id index (pval t id index) := by
  induction l generalizing t with
  | nil => rfl
  | cons x l ih =>
    have hxi := hl x List.mem_cons_self
    rw [afterTriples_cons, setTriples, List.foldl_cons, ← setTriples, ih fun y hy => hl y (List.mem_cons_of_mem _ hy)]
    cases hlive : isLive x.id
    · rw [if_neg Bool.false_ne_true, pval_pset hxi hx]
    · have hne : ¬ (x.id = id ∧ x.index = index) := fun h => by simp [← h.1, hlive] at hid
      rw [if_pos rfl, if_neg hne]

theorem pval_setTriples_live (hl : ∀ x ∈ l, x.index < 65536) (hx : index < 65536) (hid : isLive id = true)
    (t : Tab Word) : pval (setTriples t l) id index = pval t id index := by
  induction l generalizing t with
  | nil => rfl
  | cons x l ih =>
    have hxi := hl x List.mem_cons_self
    rw [setTriples, List.foldl_cons, ← setTriples, ih fun y hy => hl y (List.mem_cons_of_mem _ hy)]
    cases hlive : isLive x.id
    · have hne : ¬ (x.id = id ∧ x.index = index) := fun h => by simp [h.1, hid] at hlive
      rw [if_neg Bool.false_ne_true, pval_pset hxi hx, if_neg hne]
    · rw [if_pos rfl]

/-- The live value that stands is the last triple's for the parameter and index (R453). -/
theorem find?_liveTriples (hl : ∀ x ∈ l, x.index < 65536) (hx : index < 65536) (hid : isLive id = true) :
    (liveTriples l).reverse.find? (fun e => e.1 == pkey id index) =
      (l.reverse.find? (fun x => x.id == id && x.index == index)).map
        (fun x => (pkey x.id x.index, x.value)) := by
  rw [liveTriples, ← List.map_reverse, ← List.filter_reverse, List.find?_map, List.find?_filter]
  congr 1
  refine List.find?_congr fun x hm => ?_
  have hi := hl x (List.mem_reverse.mp hm)
  rw [Bool.eq_iff_iff]
  simp only [Function.comp, Bool.and_eq_true, decide_eq_true_eq, beq_iff_eq, pkey_eq_iff hi hx]
  exact ⟨fun h => h.2, fun h => ⟨h.1 ▸ hid, h⟩⟩

theorem liveAccepted_congr {s u : State} (h : u.sets = s.sets) (id index : Nat) :
    u.liveAccepted id index = s.liveAccepted id index := by
  simp only [State.liveAccepted, State.live, h]

theorem liveAccepted_applyTriples (hl : ∀ x ∈ l, x.index < 65536) (hx : index < 65536) (hid : isLive id = true)
    (s : State) : (s.applyTriples l).liveAccepted id index = afterTriples l id index (s.liveAccepted id index) := by
  rw [applyTriples_eq, State.liveAccepted, List.reverse_append, List.find?_append, find?_liveTriples hl hx hid,
    afterTriples]
  cases l.reverse.find? (fun x => x.id == id && x.index == index) <;> rfl

/-! ### The triples of a request -/

theorem firstBad_none {β : Type} {bad : Nat → β → Option (Nat × Nat)} {xs : List β} {n : Nat}
    (h : firstBad bad n xs = none) {x : β} (hx : x ∈ xs) : ∃ j, bad j x = none := by
  induction xs generalizing n with
  | nil => simp at hx
  | cons y xs ih =>
    rw [firstBad] at h
    split at h
    next => simp at h
    next hy =>
      rcases List.mem_cons.mp hx with rfl | hx
      · exact ⟨n, hy⟩
      · exact ih h hx

theorem mem_directory {e : DirEntry} (h : e ∈ dirBlock id) : e ∈ directory := by
  unfold dirBlock at h
  unfold directory
  split_ifs at h <;> simp_all

/-- The parameters of figures have the IDs 0x400 to 0x43F (Table 17.7). -/
theorem figure_range {e : DirEntry} (h : dirEntry id = some e) (hc : e.cls = .figure) :
    0x400 ≤ id ∧ id < 0x440 := by
  have hid : e.id = id := beq_iff_eq.mp (List.find?_some h :)
  have hall : directory.all (fun e => e.cls != .figure || (0x400 ≤ e.id && e.id < 0x440)) = true := by decide
  have he := List.all_eq_true.mp hall e (mem_directory (List.mem_of_find?_eq_some h))
  rw [hc, hid] at he
  simpa using he

/-- Every triple that FIG_DEFINE takes is of a parameter of its figure (R573). -/
theorem defineBad_none {fig : Nat} (h : firstBad (defineBad fig) 0 l = none) {x : Triple} (hx : x ∈ l) :
    (0x400 ≤ x.id ∧ x.id < 0x440) ∧ x.index = fig := by
  obtain ⟨j, hj⟩ := firstBad_none h hx
  unfold defineBad at hj
  split at hj
  next e he =>
    have hc : e.cls = .figure ∧ x.index = fig := by simpa using hj
    exact ⟨figure_range he hc.1, hc.2⟩
  next => simp at hj

end

end Sys2Proof.Machine

/-! SUPPORT. The definitions of figures in a set (R182, R573): what a figure holds once it is removed, defined or
copied, and what the other figures keep. -/

namespace Sys2Proof.Machine

section
variable {c : CfgSet} {fig src id index : Nat}

theorem isFigKey_pkey (h : index < 65536) (id fig : Nat) :
    isFigKey (pkey id index) fig = true ↔ (0x400 ≤ id ∧ id < 0x440) ∧ index = fig := by
  have hd : pkey id index / 65536 = id := by unfold pkey; omega
  have hm : pkey id index % 65536 = index := by unfold pkey; omega
  simp [isFigKey, hd, hm]

/-! ### A figure removed -/

theorem dropFig_params (hx : index < 65536) (h : (0x400 ≤ id ∧ id < 0x440) ∧ index = fig) :
    tget? (dropFig c fig).params (pkey id index) = none := by
  have hk := (isFigKey_pkey hx id fig).mpr h
  rw [dropFig, tget?_filter (fun k => !isFigKey k fig), if_neg (by simp [hk])]

theorem dropFig_params_other (hx : index < 65536) (h : ¬ ((0x400 ≤ id ∧ id < 0x440) ∧ index = fig)) :
    tget? (dropFig c fig).params (pkey id index) = tget? c.params (pkey id index) := by
  have hk := mt (isFigKey_pkey hx id fig).mp h
  rw [dropFig, tget?_filter (fun k => !isFigKey k fig), if_pos (by simpa using hk)]

theorem dropFig_coefs (k : Nat) :
    tget? (dropFig c fig).coefs k = if k / 4 = fig then none else tget? c.coefs k := by
  rw [dropFig, tget?_filter (fun k => k / 4 != fig)]
  by_cases h : k / 4 = fig <;> simp [h]

theorem dropFig_gens (f : Nat) : tget? (dropFig c fig).gens f = if f = fig then none else tget? c.gens f :=
  tget?_tdel ..

theorem mem_dropFig (f : Nat) : f ∈ (dropFig c fig).figs ↔ f ≠ fig ∧ f ∈ c.figs := by
  simp [dropFig, and_comm]

/-! ### A figure defined or copied -/

theorem mem_defineFig (f : Nat) : f ∈ (defineFig c fig).figs ↔ f = fig ∨ f ∈ c.figs := by
  simp only [defineFig, mem_insAsc, mem_dropFig]
  tauto

/-- A copy takes every parameter of its source but fig.en. -/
theorem copyFigure_params (hf : fig < 65536) (h : 0x401 ≤ id ∧ id < 0x440) :
    pval (copyFigure c fig src).params id fig = pval c.params id src := by
  have hinj : (fun i => pkey (0x401 + i) fig).Injective := fun i j hij => by
    have := (pkey_eq_iff hf hf).mp hij
    omega
  obtain ⟨i, hi, rfl⟩ : ∃ i, i < 63 ∧ id = 0x401 + i := ⟨id - 0x401, by omega, by omega⟩
  refine pval_congr ?_
  have hnone : tget? (dropFig c fig).params (pkey (0x401 + i) fig) = none :=
    dropFig_params hf ⟨⟨by omega, by omega⟩, rfl⟩
  rw [copyFigure, defineFig]
  refine (tget?_foldl_tcopy_of_mem c.params (fun i => pkey (0x401 + i) src) hinj (List.mem_range.mpr hi) _).trans ?_
  rw [hnone, Option.or_none]

theorem copyFigure_params_other (hx : index < 65536) (hf : fig < 65536)
    (h : ¬ ((0x401 ≤ id ∧ id < 0x440) ∧ index = fig)) :
    tget? (copyFigure c fig src).params (pkey id index) = tget? (dropFig c fig).params (pkey id index) := by
  rw [copyFigure, defineFig]
  refine tget?_foldl_tcopy_other c.params (fun i => pkey (0x401 + i) src) (fun i => pkey (0x401 + i) fig) _ _
    fun i hi e => ?_
  have := (pkey_eq_iff hx hf).mp e
  have := List.mem_range.mp hi
  omega

theorem copyFigure_coefs (k : Nat) : tget? (copyFigure c fig src).coefs k =
    if k / 4 = fig then tget? c.coefs (4 * src + k % 4) else tget? c.coefs k := by
  have hd := dropFig_coefs (c := c) (fig := fig) k
  rw [copyFigure, defineFig]
  split
  next h =>
    have hinj : (fun i => 4 * fig + i).Injective := fun i j hij => by simpa using hij
    have hk : k = 4 * fig + k % 4 := by omega
    have hcopy := tget?_foldl_tcopy_of_mem c.coefs (fun i => 4 * src + i) hinj
      (List.mem_range.mpr (Nat.mod_lt k four_pos)) (dropFig c fig).coefs
    simp only [← hk, hd, if_pos h, Option.or_none] at hcopy
    exact hcopy
  next h =>
    rw [if_neg h] at hd
    refine (tget?_foldl_tcopy_other c.coefs (fun i => 4 * src + i) (fun i => 4 * fig + i) _ _ fun i hi e => ?_).trans hd
    have := List.mem_range.mp hi
    omega

theorem copyFigure_gens (f : Nat) : tget? (copyFigure c fig src).gens f =
    if f = fig then tget? c.gens src else tget? c.gens f := by
  rw [copyFigure, defineFig, tget?_tcopy, dropFig_gens]
  split <;> simp

end

end Sys2Proof.Machine


/-! SUPPORT. FIG_DEFINE and FIG_LIST_READ (R182, R573): the state an accepted definition leaves, and the clauses
about it. -/

namespace Sys2Proof.Machine

section
variable {s : State} {r : Req} {fig source id index : Nat} {v : Word} {d : CfgSet} {l : List Triple}

/-! ### The state after a definition -/

/-- The state once a figure is defined by a new Maquette, its level and the triples of the request (R573). -/
def State.redefined (s : State) (d : CfgSet) (fig : Nat) (v : Word) (l : List Triple) : State :=
  (((s.modMaq fun _ => d).defineLevel fig v).applyTriples l).edited

theorem defineLevel_eq (s : State) (fig : Nat) (v : Word) : ∃ a b,
    s.defineLevel fig v = { s with sets := { s.sets with live := a, livePending := b } } := by
  unfold State.defineLevel
  split
  · exact ⟨s.sets.live, s.sets.livePending, rfl⟩
  · exact ⟨_, _, rfl⟩

theorem redefined_eq (s : State) (d : CfgSet) (fig : Nat) (v : Word) (l : List Triple) : ∃ a b,
    s.redefined d fig v l = { s with sets := { s.sets with
      maq := { d with params := setTriples d.params l }, live := a, livePending := b
      maqSeq := s.sets.maqSeq + 1#32, valid := false } } := by
  obtain ⟨a, b, e⟩ := defineLevel_eq (s.modMaq fun _ => d) fig v
  exact ⟨a, b ++ liveTriples l, by rw [State.redefined, e, applyTriples_eq]; rfl⟩

/-- A figure that the Cast does not hold takes the level it is given (log entry 15). -/
theorem liveAccepted_defineLevel (hf : fig < 65536) : (s.defineLevel fig v).liveAccepted 0x438 fig =
    if s.sets.cast.figs.contains fig then s.liveAccepted 0x438 fig else v := by
  unfold State.defineLevel
  split
  · rfl
  · rw [State.liveAccepted, List.find?_eq_none.mpr (by simp), State.live, pval_pset hf hf, if_pos ⟨rfl, rfl⟩]

theorem redefined_level (hl : ∀ x ∈ l, x.index < 65536) (hf : fig < 65536) :
    (s.redefined d fig v l).liveAccepted 0x438 fig = afterTriples l 0x438 fig
      (if s.sets.cast.figs.contains fig then s.liveAccepted 0x438 fig else v) := by
  have hedit (u : State) : u.edited.liveAccepted 0x438 fig = u.liveAccepted 0x438 fig := rfl
  rw [State.redefined, hedit, liveAccepted_applyTriples hl hf (by decide), liveAccepted_defineLevel hf]
  rfl

/-- Where an accepted FIG_DEFINE that defines or copies ends. -/
def State.definedEnd (s : State) (r : Req) (d : CfgSet) (fig : Nat) (v : Word) (l : List Triple) : State :=
  State.done s (((s.take r).redefined d fig v l).editOk r 0x0201 [])

theorem definedEnd_sets (s : State) (r : Req) (d : CfgSet) (fig : Nat) (v : Word) (l : List Triple) : ∃ a b,
    (s.definedEnd r d fig v l).sets = { s.sets with
      maq := { d with params := setTriples d.params l }, live := a, livePending := b
      maqSeq := s.sets.maqSeq + 1#32, valid := false } := by
  obtain ⟨a, b, e⟩ := redefined_eq (s.take r) d fig v l
  exact ⟨a, b, by rw [State.definedEnd, done_sets, editOk_sets, e]; rfl⟩

theorem definedEnd_level (hl : ∀ x ∈ l, x.index < 65536) (hf : fig < 65536) :
    (s.definedEnd r d fig v l).liveAccepted 0x438 fig = afterTriples l 0x438 fig
      (if s.sets.cast.figs.contains fig then s.liveAccepted 0x438 fig else v) := by
  have hsets : (s.definedEnd r d fig v l).sets = ((s.take r).redefined d fig v l).sets := by
    rw [State.definedEnd, done_sets, editOk_sets]
  exact (liveAccepted_congr hsets _ _).trans (redefined_level hl hf)

theorem definedEnd_ends (ha : Accepts s r 0x0201 { standbyOk := false }) :
    EditEnds s.leads s (s.definedEnd r d fig v l) r 0x0201 [] := by
  obtain ⟨a, b, e⟩ := redefined_eq (s.take r) d fig v l
  rw [State.definedEnd, e]
  exact editOk_ends [] ha rfl

theorem definedEnd_keptBut : KeptBut [.mbx, .requests, .window, .sets, .twin] s (s.definedEnd r d fig v l) := by
  obtain ⟨a, b, e⟩ := redefined_eq (s.take r) d fig v l
  rw [State.definedEnd, e]
  exact editOk_keptBut []

/-! ### The parameters after the triples of a definition -/

variable {c : CfgSet}

theorem index_of_defineBad (hf : fig < 4096) (hb : firstBad (defineBad fig) 0 l = none) :
    ∀ x ∈ l, x.index < 65536 := fun x hx => by
  have := (defineBad_none hb hx).2
  omega

theorem pval_defineFig (hl : ∀ x ∈ l, x.index < 65536) (hf : fig < 65536) (h : 0x400 ≤ id ∧ id < 0x440)
    (hid : isLive id = false) :
    pval (setTriples (defineFig c fig).params l) id fig = afterTriples l id fig (paramReset id) := by
  rw [pval_setTriples hl hf hid, defineFig, pval_of_none (dropFig_params hf ⟨h, rfl⟩)]

theorem pval_copyFigure (hl : ∀ x ∈ l, x.index < 65536) (hf : fig < 65536) (h : 0x401 ≤ id ∧ id < 0x440)
    (hid : isLive id = false) : pval (setTriples (copyFigure c fig source).params l) id fig =
      afterTriples l id fig (pval c.params id source) := by
  rw [pval_setTriples hl hf hid, copyFigure_params hf h]

/-- A copy begins disabled, whatever its source is. -/
theorem pval_copyFigure_en (hl : ∀ x ∈ l, x.index < 65536) (hf : fig < 65536) :
    pval (setTriples (copyFigure c fig source).params l) 0x400 fig = afterTriples l 0x400 fig 0#32 := by
  have hnone : tget? (copyFigure c fig source).params (pkey 0x400 fig) = none := by
    rw [copyFigure_params_other hf hf (by omega), dropFig_params hf (by omega)]
  rw [pval_setTriples hl hf (by decide), pval_of_none hnone]
  rfl

/-- The triples of a definition leave the parameters outside its figure alone. -/
theorem pval_setTriples_other (hf : fig < 4096) (hb : firstBad (defineBad fig) 0 l = none)
    (ho : id < 0x400 ∨ 0x440 ≤ id ∨ index ≠ fig) (hx : index < 65536) (t : Tab Word) :
    pval (setTriples t l) id index = pval t id index := by
  have hl := index_of_defineBad hf hb
  cases hid : isLive id
  · rw [pval_setTriples hl hx hid]
    refine afterTriples_of_ne fun x hm ⟨he, hi⟩ => ?_
    have := defineBad_none hb hm
    omega
  · exact pval_setTriples_live hl hx hid t

theorem pval_dropFig_other (ho : id < 0x400 ∨ 0x440 ≤ id ∨ index ≠ fig) (hx : index < 65536) :
    pval (dropFig c fig).params id index = pval c.params id index :=
  pval_congr (dropFig_params_other hx (by omega))

theorem pval_copyFigure_other (hf : fig < 65536) (ho : id < 0x400 ∨ 0x440 ≤ id ∨ index ≠ fig) (hx : index < 65536) :
    pval (copyFigure c fig source).params id index = pval c.params id index :=
  (pval_congr (copyFigure_params_other hx hf (by omega))).trans (pval_dropFig_other ho hx)

/-! ### What an accepted FIG_DEFINE does -/

theorem exec_figDefine_new (ha : Accepts s r 0x0201 { standbyOk := false }) (hz : s.sets.frozen = false)
    (hf : fig < 4096) (hn : fig ∉ s.sets.maq.figs) (hl : l.length ≤ 32) (hb : firstBad (defineBad fig) 0 l = none)
    (ht : s.triplesBad (defineFig s.sets.maq fig) l = none) : exec (.figDefine r fig 0 0 l) s =
      .next (s.definedEnd r (defineFig s.sets.maq fig) fig 0#32 l) := by
  have hfault : (s.take r).defineFault fig 0 0 l = none := by
    simp [State.defineFault, Nat.not_le.mpr hf, hn, Nat.not_lt.mpr hl, hb]
  have htriples : (s.take r).triplesBad (defineFig (s.take r).sets.maq fig) l = none := ht
  show execFigDefine r fig 0 0 l s = _
  rw [execFigDefine, editCommand_accepts ha hz]
  simp only [hfault, htriples, if_pos, if_neg (show ¬ (0 = 1) by decide)]
  rfl

theorem exec_figDefine_copy (ha : Accepts s r 0x0201 { standbyOk := false }) (hz : s.sets.frozen = false)
    (hf : fig < 4096) (hs : source ∈ s.sets.maq.figs) (hl : l.length ≤ 32)
    (hb : firstBad (defineBad fig) 0 l = none)
    (ht : s.triplesBad (copyFigure s.sets.maq fig source) l = none) : exec (.figDefine r fig 2 source l) s =
      .next (s.definedEnd r (copyFigure s.sets.maq fig source) fig (s.liveAccepted 0x438 source) l) := by
  have hfault : (s.take r).defineFault fig 2 source l = none := by
    simp [State.defineFault, Nat.not_le.mpr hf, hs, Nat.not_lt.mpr hl, hb]
  have htriples : (s.take r).triplesBad (copyFigure (s.take r).sets.maq fig source) l = none := ht
  show execFigDefine r fig 2 source l s = _
  rw [execFigDefine, editCommand_accepts ha hz]
  simp only [hfault, htriples, if_neg (show ¬ (2 = 1) by decide), if_neg (show ¬ (2 = 0) by decide)]
  rfl

theorem exec_figDefine_delete (ha : Accepts s r 0x0201 { standbyOk := false }) (hz : s.sets.frozen = false)
    (hf : fig < 4096) (hd : fig ∈ s.sets.maq.figs) (hm : pnat s.sets.maq.params 0x400 fig ≠ 1)
    (hc : s.castN 0x400 fig ≠ 1) : exec (.figDefine r fig 1 0 []) s =
      .next (State.done s (((s.take r).modMaq (fun m => dropFig m fig)).edited.editOk r 0x0201 [])) := by
  have hcast : (s.take r).castN 0x400 fig ≠ 1 := hc
  have hfault : (s.take r).defineFault fig 1 0 [] = none := by
    simp [State.defineFault, Nat.not_le.mpr hf, hd, hm, hcast, firstBad]
  show execFigDefine r fig 1 0 [] s = _
  rw [execFigDefine, editCommand_accepts ha hz]
  simp only [hfault, if_pos]

theorem exec_figListRead (ha : Accepts s r 0x0202 {}) : exec (.figListRead r) s =
    .next (State.done s ((s.take r).ok r 0x0202
      (leBytes 2 (s.setOf r.set).figs.length ++
        leBytes 2 ((s.setOf r.set).figs.filter (fun f => pnat (s.setOf r.set).params 0x400 f == 1)).length)
      (figBitmap (s.setOf r.set).figs ++
        figBitmap ((s.setOf r.set).figs.filter (fun f => pnat (s.setOf r.set).params 0x400 f == 1))))) := by
  show execFigListRead r s = _
  rw [execFigListRead, umser_accepts ha]
  rfl

end

/-- Settles O9: a definition or copy leaves the sets that `definedEnd_sets` gives, a removal the Maquette without its
figure; each clause about a table is the lemma about `defineFig`, `copyFigure` or `dropFig`, after the triples. -/
theorem figureDefinitionsEditTheMaquette : Obligations.FigureDefinitionsEditTheMaquette := by
  unfold Obligations.FigureDefinitionsEditTheMaquette
  refine ⟨fun s r fig l ha hz hf hn hlen hb ht => ?_, fun s r fig source l ha hz hf hs hsrc hlen hb ht => ?_,
    fun s r fig ha hz hf hd hm hc => ?_, fun s r ha => ⟨_, exec_figListRead ha, take_ok_done ha⟩⟩
  · have hl := index_of_defineBad hf hb
    have hf' : fig < 65536 := by omega
    obtain ⟨a, b, hsets⟩ := definedEnd_sets s r (defineFig s.sets.maq fig) fig 0#32 l
    refine ⟨_, exec_figDefine_new ha hz hf hn hlen hb ht, definedEnd_ends ha, ?_⟩
    rw [hsets]
    exact ⟨mem_defineFig, fun id h1 h2 hid => pval_defineFig hl hf' ⟨h1, h2⟩ hid,
      fun id index ho hx => (pval_setTriples_other hf hb ho hx _).trans (pval_dropFig_other ho hx),
      dropFig_coefs, dropFig_gens, definedEnd_level hl hf', rfl, rfl, rfl, rfl, definedEnd_keptBut⟩
  · have hl := index_of_defineBad hf hb
    have hf' : fig < 65536 := by omega
    obtain ⟨a, b, hsets⟩ :=
      definedEnd_sets s r (copyFigure s.sets.maq fig source) fig (s.liveAccepted 0x438 source) l
    refine ⟨_, exec_figDefine_copy ha hz hf hs hlen hb ht, definedEnd_ends ha, ?_⟩
    rw [hsets]
    exact ⟨mem_defineFig, pval_copyFigure_en hl hf', fun id h1 h2 hid => pval_copyFigure hl hf' ⟨h1, h2⟩ hid,
      fun id index ho hx => (pval_setTriples_other hf hb ho hx _).trans (pval_copyFigure_other hf' ho hx),
      copyFigure_coefs, copyFigure_gens, definedEnd_level hl hf', rfl, rfl, rfl, rfl, definedEnd_keptBut⟩
  · have hf' : fig < 65536 := by omega
    refine ⟨_, exec_figDefine_delete ha hz hf hd hm hc, editOk_ends [] ha rfl, ?_⟩
    rw [done_sets, editOk_sets]
    exact ⟨mem_dropFig, fun id h1 h2 => pval_of_none (dropFig_params hf' ⟨⟨h1, h2⟩, rfl⟩),
      fun id index ho hx => pval_dropFig_other ho hx, dropFig_coefs, dropFig_gens, rfl, rfl, rfl, rfl,
      editOk_keptBut []⟩

end Sys2Proof.Machine

/-! SUPPORT. Accepted requests that wait for their completion, with a change of one group's acquisition (R559); and a
run of entries put into a sparse table, zeros left out (R229). -/

namespace Sys2Proof.Machine

section
variable {s u : State} {r : Req} {op obj aux phase g : Nat} {l : List Piece}

/-! ### Requests that wait -/

@[simp] theorem take_hasGrp (g : Nat) : (s.take r).hasGrp g = s.hasGrp g := rfl
@[simp] theorem take_hasPort (p : Nat) : (s.take r).hasPort p = s.hasPort p := rfl
@[simp] theorem take_grpAt (g : Nat) : (s.take r).grpAt g = s.grpAt g := rfl
@[simp] theorem take_calAt (g : Nat) : (s.take r).calAt g = s.calAt g := rfl
@[simp] theorem take_defined (f : Nat) : (s.take r).defined f = s.defined f := rfl
@[simp] theorem defer_grpAt (g : Nat) : (s.defer r op obj aux phase).grpAt g = s.grpAt g := rfl

theorem defer_spares (hr : .requests ∈ l) : Spares l u (u.defer r op obj aux phase) :=
  ⟨rfl, fun p hp => by cases p <;> simp_all [Kept, State.defer]⟩

/-- A request put among the outstanding commands waits, whatever else its step changes outside the host interface. -/
theorem waits_of_defer (h : u.host = ((s.take r).defer r op obj aux phase).host) :
    Waits s (State.done s u) r op obj aux phase := by
  refine ⟨?_, ?_, ?_⟩
  · rw [done_host_outst, h]; rfl
  · rw [done_host_fetched, h]; rfl
  · rw [done_host_mbx, h]; rfl

theorem defer_keptBut : KeptBut [.requests] s (State.done s ((s.take r).defer r op obj aux phase)) :=
  ((take_spares (by decide)).trans (defer_spares (by decide))).done

/-- The end of a step that puts a request among the outstanding commands and changes the acquisition of a group. -/
def State.deferredAcq (s : State) (r : Req) (op obj aux phase g : Nat) (f : Acq → Acq) : State :=
  State.done s (((s.take r).defer r op obj aux phase).modAcq g f)

/-- The request waits, and the acquisition of that group is all that has changed besides. -/
theorem deferredAcq_changes (f : Acq → Acq) :
    Waits s (s.deferredAcq r op obj aux phase g f) r op obj aux phase ∧
      (s.deferredAcq r op obj aux phase g f).grpAt g = { s.grpAt g with acq := f (s.grpAt g).acq } ∧
      OnlyGrp g s (s.deferredAcq r op obj aux phase g f) ∧
      KeptBut [.requests, .grp] s (s.deferredAcq r op obj aux phase g f) := by
  have hs : Spares [.requests, .grp] s (((s.take r).defer r op obj aux phase).modAcq g f) :=
    ((take_spares (by decide)).trans (defer_spares (by decide))).trans (modGrp_spares _ (by decide) _ _)
  refine ⟨waits_of_defer rfl, ?_, fun k hk => ?_, hs.done⟩
  · rw [State.deferredAcq, done_grpAt, modAcq_eq, grpAt_modGrp_self]
    rfl
  · rw [State.deferredAcq, done_grpAt, modAcq_eq, grpAt_modGrp_other _ _ hk]
    rfl

/-! ### Runs of entries -/

variable {entries : List (BitVec 128)} {base k : Nat} {t : Tab (BitVec 128)}

/-- An entry of a run put at its place from a base; an entry of zeros is not listed. -/
def putEntry (base : Nat) (entries : List (BitVec 128)) (t : Tab (BitVec 128)) (i : Nat) : Tab (BitVec 128) :=
  if entries.getD i 0#128 = 0#128 then tdel t (base + i) else tput t (base + i) (entries.getD i 0#128)

theorem tget_putEntry (i : Nat) :
    tget 0#128 (putEntry base entries t i) k = if k = base + i then entries.getD i 0#128 else tget 0#128 t k := by
  unfold putEntry
  split
  next hz => rw [tget, tget?_tdel, hz]; split <;> rfl
  next =>
    split
    · subst k; exact tget_tput_self
    · exact tget_tput_other ‹_›

/-- Entries lie from the base on, and the rest of the table stands. -/
theorem tget_putEntries (n : Nat) : tget 0#128 ((List.range n).foldl (putEntry base entries) t) k =
    if base ≤ k ∧ k < base + n then entries.getD (k - base) 0#128 else tget 0#128 t k := by
  induction n with
  | zero => simp
  | succ n ih =>
    rw [List.range_succ, List.foldl_append, List.foldl_cons, List.foldl_nil, tget_putEntry, ih]
    by_cases hk : k = base + n
    · subst hk
      rw [if_pos rfl, if_pos (by omega), Nat.add_sub_cancel_left]
    · rw [if_neg hk]
      exact if_congr (by omega) rfl rfl

end

end Sys2Proof.Machine

/-! The acquisition commands (R229, R237, R238, R244, R246, R249): what each accepted one does, and the obligation
they settle. -/

namespace Sys2Proof.Machine

section
variable {s : State} {r : Req} {grp first slice : Nat} {entries : List (BitVec 128)}

/-! ### The aux table -/

/-- The sets with a run of entries in the Maquette's aux table, edited (R229, R454). -/
def Sets.auxPut (x : Sets) (base : Nat) (entries : List (BitVec 128)) : Sets :=
  { x with
    maq := { x.maq with aux := (List.range entries.length).foldl (putEntry base entries) x.maq.aux }
    maqSeq := x.maqSeq + 1#32, valid := false }

theorem firstBad_eq_none {α : Type} {bad : Nat → α → Option (Nat × Nat)} {xs : List α}
    (h : ∀ i, ∀ x ∈ xs, bad i x = none) (n : Nat) : firstBad bad n xs = none := by
  induction xs generalizing n with
  | nil => rfl
  | cons x xs ih =>
    rw [firstBad, h n x List.mem_cons_self]
    exact ih (fun i y hy => h i y (List.mem_cons_of_mem _ hy)) _

theorem exec_acqAuxWrite (ha : Accepts s r 0x0A01 { standbyOk := false }) (hz : s.sets.frozen = false)
    (hg : grp < 16 ∧ s.hasGrp grp = true) (hne : entries ≠ []) (hlen : first + entries.length ≤ 64)
    (harm : entries.all (fun e => !auxArm e) = true) : exec (.acqAuxWrite r grp first entries) s =
      .next (State.done s (State.editOk
        { s.take r with sets := s.sets.auxPut (64 * grp + first) entries } r 0x0A01 [])) := by
  obtain ⟨hgrp, hhas⟩ := hg
  have hpos : 0 < entries.length := List.length_pos_iff.mpr hne
  have hfirst : ¬ 64 ≤ first := by omega
  have hbad : firstBad (fun i e => if auxArm e then some (stRange, 16 * i) else none) 0 entries = none :=
    firstBad_eq_none (fun i e he => if_neg (by simpa using List.all_eq_true.mp harm e he)) 0
  show execAcqAuxWrite r grp first entries s = _
  rw [execAcqAuxWrite, editCommand_accepts ha hz]
  simp [Nat.not_le.mpr hgrp, hhas, hfirst, hne, Nat.not_lt.mpr hlen, hbad]
  rfl

theorem exec_acqAuxRead (ha : Accepts s r 0x0A02 {}) (hg : grp < 16 ∧ s.hasGrp grp = true)
    {arm all : List (Nat × BitVec 128)} (harm : arm = auxOf s.sets.cast.auxArm grp)
    (hall : all = (auxOf s.sets.cast.aux grp).filter (fun e => !arm.any (fun a => a.1 == e.1)) ++ arm) :
    exec (.acqAuxRead r grp) s = .next (State.done s ((s.take r).ok r 0x0A02
      (leBytes 1 ((auxOf s.sets.cast.aux grp).filter (fun e => auxValid e.2)).length ++ leBytes 1 arm.length ++
        leBytes 1 (s.grpAt grp).acq.auxClass)
      ((List.range 64).flatMap (fun i =>
        leBytes 16 (((all.find? (fun e => e.1 == i)).map (fun e => e.2)).getD 0#128).toNat)))) := by
  obtain ⟨hgrp, hhas⟩ := hg
  subst hall harm
  show execAcqAuxRead r grp s = _
  rw [execAcqAuxRead, umser_accepts ha]
  simp [Nat.not_le.mpr hgrp, hhas]

/-! ### Conversions, checks and captures -/

variable {port auxsel span settle avg fig mask count : Nat} {start : DWord} {path : Bool} {op : Nat}

/-- A sense quantity comes with the port's next loop sample: the request only waits (R237, R581). -/
theorem exec_acqMeasNow_sample (ha : Accepts s r 0x0A03 { long := true })
    (hp : port < 128 ∧ s.hasPort port = true) : exec (.acqMeasNow r port 0 0 0 0 0) s =
      .next (State.done s ((s.take r).defer r 0x0A03 port 0 0)) := by
  obtain ⟨hport, hhas⟩ := hp
  show execAcqMeasNow r port 0 0 0 0 0 s = _
  rw [execAcqMeasNow, umser_accepts ha]
  simp [Nat.not_le.mpr hport, hhas]

/-- The request of an urgent conversion for a command (R237). -/
def measUrg (s : State) (r : Req) (port auxsel span settle avg : Nat) : Urg :=
  { cls := 2, port := port, auxsel := auxsel, span := span, settle := settle, avg := avg
    owner := 65536 * r.mbx + r.tag.toNat, clk := s.clk, conv := Conv.init }

theorem exec_acqMeasNow_urgent (ha : Accepts s r 0x0A03 { long := true })
    (hp : port < 128 ∧ s.hasPort port = true) (hsel : auxsel < 16) (hspan : span < 4)
    (hset : 1 ≤ settle ∧ settle < 65536) (havg : avg < 7) (hq : (s.grpAt (port / 8)).acq.urg.length < 8) :
    exec (.acqMeasNow r port 1 auxsel span settle avg) s =
      .next (s.deferredAcq r 0x0A03 port 1 0 (port / 8) (fun a =>
        { a with urg := insertBy Urg.before (measUrg s r port auxsel span settle avg) a.urg })) := by
  obtain ⟨hport, hhas⟩ := hp
  obtain ⟨hset0, hset1⟩ := hset
  show execAcqMeasNow r port 1 auxsel span settle avg s = _
  rw [execAcqMeasNow, umser_accepts ha]
  simp [Nat.not_le.mpr hport, hhas, Nat.not_le.mpr hsel, Nat.not_le.mpr hspan, Nat.not_le.mpr havg,
    Nat.pos_iff_ne_zero.mp hset0, Nat.not_le.mpr hset1, State.urgAsk, hq]
  rfl

/-- An accepted check or path test joins the checks of its group (R244, R246). -/
theorem umser_askCheck (ha : Accepts s r op { long := true }) (hg : grp < 16 ∧ s.hasGrp grp = true)
    (hs : slice ≤ 16) (hf : (s.calAt grp).has 17 = true)
    (hq : ((s.grpAt grp).acq.checks.filter (fun c => !c.running)).length < 4) :
    umser r op { long := true } s (fun s => s.askCheck r op grp slice path) =
      .next (s.deferredAcq r op grp slice 0 grp (fun a =>
        { a with checks := a.checks ++ [⟨path, slice, r.mbx, r.tag, false⟩] })) := by
  obtain ⟨hgrp, hhas⟩ := hg
  rw [umser_accepts ha]
  simp [State.askCheck, Nat.not_le.mpr hgrp, hhas, Nat.not_lt.mpr hs, hf, Nat.not_le.mpr hq]
  rfl

theorem exec_acqRawCapture (ha : Accepts s r 0x0A06 { long := true, needs := [5], standbyOk := false })
    (hg : grp < 16 ∧ s.hasGrp grp = true) (hf : fig < 4096 ∧ s.defined fig = true)
    (hm : mask ≠ 0 ∧ mask < 2 ^ 18) (hc : count ≠ 0 ∧ count ≤ 65536) (hcap : (s.grpAt grp).acq.cap = none) :
    exec (.acqRawCapture r grp fig mask count start) s =
      .next (s.deferredAcq r 0x0A06 grp 0 0 grp (fun a =>
        { a with cap := some ⟨fig, mask, start, false, count, 0, 0#32, 0, r.mbx, r.tag, none⟩ })) := by
  obtain ⟨hgrp, hhas⟩ := hg
  obtain ⟨hfig, hdef⟩ := hf
  obtain ⟨hm0, hm1⟩ := hm
  have hmask : ¬ 262144 ≤ mask := Nat.not_le.mpr hm1
  obtain ⟨hc0, hc1⟩ := hc
  show execAcqRawCapture r grp fig mask count start s = _
  rw [execAcqRawCapture, umser_accepts ha]
  simp [Nat.not_le.mpr hgrp, hhas, Nat.not_le.mpr hfig, hdef, hm0, hmask, hc0, Nat.not_lt.mpr hc1, hcap]
  rfl

end

/-- Settles O22: a write of the aux table edits the Maquette as `tget_putEntries` gives it, a read only answers, and
the long commands wait, with the change of one group's acquisition that `deferredAcq_changes` frames. -/
theorem acquisitionCommands : Obligations.AcquisitionCommands := by
  unfold Obligations.AcquisitionCommands
  refine ⟨fun s r grp first entries ha hz hg hne hlen harm => ?_, fun s r grp arm all ha hg harm hall =>
      ⟨_, exec_acqAuxRead ha hg harm hall, take_ok_done ha⟩,
    fun s r port ha hp => ⟨_, exec_acqMeasNow_sample ha hp, waits_of_defer rfl, defer_keptBut⟩,
    fun s r port auxsel span settle avg ha hp hsel hspan hset havg hq =>
      ⟨_, exec_acqMeasNow_urgent ha hp hsel hspan hset havg hq, deferredAcq_changes _⟩,
    fun s r grp slice ha hg hs hf hq => ⟨_, umser_askCheck ha hg hs hf hq, deferredAcq_changes _⟩,
    fun s r grp slice ha hg hs hf hq => ⟨_, umser_askCheck ha hg hs hf hq, deferredAcq_changes _⟩,
    fun s r grp fig mask count start ha hg hf hm hc hcap =>
      ⟨_, exec_acqRawCapture ha hg hf hm hc hcap, deferredAcq_changes _⟩⟩
  refine ⟨_, exec_acqAuxWrite ha hz hg hne hlen harm, editOk_ends [] ha rfl, ?_⟩
  rw [done_sets, editOk_sets]
  refine ⟨fun i hi => ?_, fun k hk => ?_, rfl, rfl, rfl, editOk_keptBut []⟩
  · exact (tget_putEntries _).trans (by rw [if_pos (by omega), Nat.add_sub_cancel_left])
  · exact (tget_putEntries _).trans (if_neg hk)

end Sys2Proof.Machine

/-! SUPPORT. An armature entry ends on a port that its own gang does not hold: the stage is over temperature, and the
trip for it reaches no port (R196, R363). -/

namespace Sys2Proof.Machine

section

/-- The armature entry of port 0, on the widest span, with its one conversion still to come. -/
def strayEntry : AuxRun :=
  { entry := 0, image := 0xFFFF00000080#128, start := 0, conv := Conv.init, mark := 0 }

/-- `strayPort` with that entry in progress. The port has no descriptor, so that its limit is 0 °C. -/
def strayStage : State :=
  { strayPort with grp := [(0, { Grp.init with acq := { Acq.init with run := some strayEntry } })] }

/-- A conversion of 0 V gives 0 °C, which is past the limit; the port goes on regulating. -/
theorem auxEntryEnd_strayStage (t : State) (h : exec (.auxEntryEnd 0 [0]) strayStage = .next t) :
    (t.spAt 0).force.out = .regulating := by
  obtain rfl := Host.Outcome.next.inj h
  rw [done_spAt]
  decide +kernel

/-- Refutes O45: a live port that its own gang does not hold takes a temperature past its limit and goes on
regulating, where the over-temperature clause has it tripped (`strayStage`). No row leaves a port so; the statement
speaks of every state. -/
theorem not_groupsTriggerConvertAndCheck : ¬ Obligations.GroupsTriggerConvertAndCheck := by
  intro h
  obtain ⟨-, -, -, -, -, -, -, -, -, -, -, -, hot, -⟩ := h
  obtain ⟨t, ht, -, -, ⟨hout, -⟩, -⟩ := hot strayStage 0 0 [0] strayEntry _ _ (by decide +kernel) ⟨rfl, rfl⟩
    (by decide +kernel) rfl (by decide +kernel) (by decide +kernel) ⟨by decide +kernel, rfl⟩ (by decide +kernel)
    (by decide +kernel)
  rw [auxEntryEnd_strayStage t ht] at hout
  exact absurd hout (by decide)

end

end Sys2Proof.Machine

/-! SUPPORT. Accepted requests that complete as they are accepted, with a change of one figure. -/

namespace Sys2Proof.Machine

section
variable {s u : State} {r : Req} {op fig : Nat} {l : List Piece}

@[simp] theorem take_figAt (f : Nat) : (s.take r).figAt f = s.figAt f := rfl
@[simp] theorem take_figBad (f : Nat) : (s.take r).figBad f = s.figBad f := rfl
@[simp] theorem take_grpOf (f : Nat) : (s.take r).grpOf f = s.grpOf f := rfl
@[simp] theorem take_nextTick (g : Nat) : (s.take r).nextTick g = s.nextTick g := rfl
@[simp] theorem take_apFree (f : Nat) (start : DWord) : (s.take r).apFree f start = s.apFree f start := rfl

@[simp] theorem ok_figAt (res out : List Byte) (f : Nat) : (u.ok r op res out).figAt f = u.figAt f := by
  rw [State.figAt, State.ok, State.reply, answer_fig]
  rfl

theorem ok_spares (res out : List Byte) : Spares [.mbx, .window] u (u.ok r op res out) :=
  answer_spares (by decide) (by decide) _ _

/-- The end of a step that changes a figure for a request and answers ST_OK. -/
def State.figOk (s : State) (r : Req) (op fig : Nat) (f : Fig → Fig) (res : List Byte) : State :=
  State.done s (((s.take r).modFig fig f).ok r op res [])

/-- The request is answered, and that figure is all that has changed besides. -/
theorem figOk_changes {g : Gate} (h : Accepts s r op g) (f : Fig → Fig) (res : List Byte) :
    Answers s (s.figOk r op fig f res) r op ⟨stOk, 0, res, [], false⟩ ∧
      (s.figOk r op fig f res).figAt fig = f (s.figAt fig) ∧
      OnlyFig fig s (s.figOk r op fig f res) ∧
      KeptBut [.mbx, .requests, .window, .fig] s (s.figOk r op fig f res) := by
  have hs : Spares [.mbx, .requests, .window, .fig] s (((s.take r).modFig fig f).ok r op res []) :=
    ((take_spares (by decide)).trans (spares_fig (by decide))).trans ((ok_spares res []).mono (by decide))
  refine ⟨answers_of_reply (opened_of_accepts h) rfl rfl rfl, ?_, fun k hk => ?_, hs.done⟩
  · rw [State.figOk, done_figAt, ok_figAt, figAt_modFig_self, take_figAt]
  · rw [State.figOk, done_figAt, ok_figAt, figAt_modFig_other _ _ hk, take_figAt]

end

end Sys2Proof.Machine

/-! The measurement commands (R262, R274, R277): what each accepted one does, and the obligation they settle. -/

namespace Sys2Proof.Machine

section
variable {s : State} {r : Req} {fig code : Nat} {start : DWord}

/-- An aperture asked for with S = 0 or a start that has passed waits from acceptance for the next loop tick (R262);
with none open it is the one that opens there. -/
theorem exec_measAperture_soon (ha : Accepts s r 0x0B01 { needs := [5], standbyOk := false })
    (hb : s.figBad fig = none) (hs : start = 0#64 ∨ mtLe s.mt.mt start = false)
    (hf : s.apFree fig (s.nextTick (s.grpOf fig)) = true) : exec (.measAperture r fig code start) s =
      .next (s.figOk r 0x0B01 fig
        (fun x => { x with apWait := some (apRequest s.mt.mt code 0xFFFF true (decide (start ≠ 0#64))) })
        (leBytes 1 (if (s.figAt fig).apOpen = none then 1 else 2))) := by
  have hlate : (start != 0#64 && !mtLe s.mt.mt start) = decide (start ≠ 0#64) := by
    rcases hs with rfl | hm
    · rfl
    · simp [hm, bne, beq_eq_decide]
  have hasap : (decide (start ≠ 0#64) || start == 0#64) = true := by
    simp [beq_eq_decide]
  show execMeasAperture r fig code start s = _
  rw [execMeasAperture, umser_accepts ha]
  simp only [take_figBad, hb, take_mt, hlate, hasap, if_true, take_grpOf, take_nextTick, take_apFree, hf,
    Bool.not_true, Bool.false_eq_true, if_false, take_figAt, Bool.and_true, Option.isNone_iff_eq_none]
  rfl

/-- An aperture asked for with a start still to come waits for it (R262). -/
theorem exec_measAperture_later (ha : Accepts s r 0x0B01 { needs := [5], standbyOk := false })
    (hb : s.figBad fig = none) (hs : start ≠ 0#64 ∧ mtLe s.mt.mt start = true) (hf : s.apFree fig start = true) :
    exec (.measAperture r fig code start) s = .next (s.figOk r 0x0B01 fig
      (fun x => { x with apWait := some (apRequest start code 0xFFFF false false) }) (leBytes 1 2)) := by
  obtain ⟨hne, hm⟩ := hs
  have heq : (start == 0#64) = false := beq_eq_false_iff_ne.mpr hne
  show execMeasAperture r fig code start s = _
  rw [execMeasAperture, umser_accepts ha]
  simp [hb, hm, heq, hf]
  rfl

theorem exec_measTotalClear (ha : Accepts s r 0x0B03 { needs := [5], standbyOk := false })
    (hb : s.figBad fig = none) : exec (.measTotalClear r fig) s =
      .next (s.figOk r 0x0B03 fig (fun x => { x with totClear := true }) []) := by
  show execMeasTotalClear r fig s = _
  rw [execMeasTotalClear, umser_accepts ha]
  simp only [take_figBad, hb]
  rfl

/-- The request of a snapshot, which waits for the next boundary that all groups share (R274). -/
def snapRequest (s : State) (r : Req) (mask : BitVec 16) : SnapReq :=
  ⟨r.mbx, r.tag, mask, r.outLen, r.outAddr, s.mt.mt,
    1 + lmax ((List.range s.groups).map (fun g => (s.grpAt g).frames)), [], 0#64⟩

theorem exec_measSnapshot {mask : BitVec 16} (ha : Accepts s r 0x0B02 { needs := [5] })
    (hm : (setBits 16 mask.toNat).all s.hasGrp = true) : exec (.measSnapshot r mask) s = .next (State.done s
      { s.take r with misc := { s.misc with snaps := s.misc.snaps ++ [snapRequest s r mask] } }) := by
  have hall : (setBits 16 mask.toNat).find? (fun g => !s.hasGrp g) = none :=
    List.find?_eq_none.mpr fun g hg => by simp [List.all_eq_true.mp hm g hg]
  show execMeasSnapshot r mask s = _
  rw [execMeasSnapshot, umser_accepts ha]
  simp only [take_hasGrp, hall]
  rfl

end

/-- Settles O23: an aperture and a clear of the totals change their figure as `figOk_changes` frames it, and a
snapshot joins those that wait. -/
theorem measurementCommands : Obligations.MeasurementCommands := by
  unfold Obligations.MeasurementCommands
  refine ⟨fun s r fig code start ha hb hs hf => ⟨_, exec_measAperture_soon ha hb hs hf, figOk_changes ha _ _⟩,
    fun s r fig code start ha hb hs hf => ⟨_, exec_measAperture_later ha hb hs hf, figOk_changes ha _ _⟩,
    fun s r mask ha hm => ⟨_, exec_measSnapshot ha hm, rfl, ?_⟩,
    fun s r fig ha hb => ⟨_, exec_measTotalClear ha hb, figOk_changes ha _ _⟩⟩
  have hs : Spares [.requests, .misc] s
      { s.take r with misc := { s.misc with snaps := s.misc.snaps ++ [snapRequest s r mask] } } :=
    (take_spares (by decide)).trans (spares_misc (by decide))
  exact ⟨done_host_mbx .., done_host_outst .., done_host_fetched .., hs.done⟩

end Sys2Proof.Machine

/-! Select registers and writes of a single purpose (Table 0.3, R98, R111, R355, R444, R626): where each write
lands, and the obligation they settle. -/

namespace Sys2Proof.Machine

section
variable {s u : State} {port : Port} {off lo hi n : Nat} {v : Word} {l : List Piece}

/-! ### Select registers -/

theorem spares_sel {x : Sel} (hl : .sel ∈ l) : Spares l s { s with sel := x } :=
  ⟨rfl, fun p hp => by cases p <;> simp_all [Kept]⟩

theorem spares_fab {x : Fab} (hl : .routes ∈ l) : Spares l s { s with fab := x } :=
  ⟨rfl, fun _ hp => kept_fab hl hp⟩

theorem emptyHolding_spares (hl : .hostRegs ∈ l) : Spares l s (s.emptyHolding port lo hi) :=
  ⟨setHolding_clk .., fun _ hp => setHolding_kept _ hl hp⟩

/-- A port's holding registers between the two offsets are empty, and the others stand. -/
theorem tget?_emptyHolding (o : Nat) : tget? ((s.emptyHolding port lo hi).host.holding port) o =
    if lo ≤ o ∧ o < hi then none else tget? (s.host.holding port) o := by
  rw [State.emptyHolding, setHolding_holding_self, tfilter, tget?_filter (fun o => !(lo ≤ o && o < hi))]
  by_cases h : lo ≤ o ∧ o < hi
  · simp [h]
  · rw [if_neg h, if_pos (by simp; omega)]

theorem writeSelect_mp : s.writeSelect port 0x500 v =
    ({ s with sel := { s.sel with mp := v &&& 0x7F#32 } } : State).emptyHolding port 0x500 0x580 := rfl

theorem writeSelect_le : s.writeSelect port 0x600 v =
    ({ s with sel := { s.sel with le := v &&& 0x37F#32 } } : State).emptyHolding port 0x600 0x640 := rfl

theorem writeSelect_consumer :
    s.writeSelect port 0x804 v = { s with fab := { s.fab with csel := v &&& 0x7FF#32 } } := rfl

theorem writeSelect_que :
    s.writeSelect port 0x980 v = { s with que := { s.que with sel := v &&& 0x3FFFF#32 } } := rfl

/-- The selects of the force, supervision and sweep registers, whose tables hold no two-half register. -/
theorem writeSelect_plain (h : off = 0x580 ∨ off = 0x680 ∨ off = 0x700) : isSelect off = true ∧
    s.writeSelect port off v = { s with sel :=
      if off = 0x580 then { s.sel with fr := v &&& 0x7F#32 }
      else if off = 0x680 then { s.sel with sup := v &&& 0x7F#32 }
      else { s.sel with swp := v &&& 0xFFF#32 } } := by
  rcases h with rfl | rfl | rfl <;> exact ⟨rfl, rfl⟩

theorem exec_selectRegisterWrite (ho : s.opens port = true) (hs : isSelect off = true)
    (hu : s.writeSelect port off v = u) :
    exec (.selectRegisterWrite port off v) s = .next (State.done s u) := by
  show execSelectRegisterWrite port off v s = _
  simp [execSelectRegisterWrite, finish, ho, hs, hu]

/-- A select of a table of two-half registers is written, and that table's holding registers of the port are
emptied (R276, R349). -/
theorem done_select_emptyHolding (x : Sel) :
    (State.done s (({ s with sel := x } : State).emptyHolding port lo hi)).sel = x ∧
      (∀ o, tget? ((State.done s (({ s with sel := x } : State).emptyHolding port lo hi)).host.holding port) o =
        if lo ≤ o ∧ o < hi then none else tget? (s.host.holding port) o) ∧
      KeptBut [.sel, .hostRegs] s (State.done s (({ s with sel := x } : State).emptyHolding port lo hi)) := by
  refine ⟨?_, fun o => ?_, ((spares_sel (by decide)).trans (emptyHolding_spares (by decide))).done⟩
  · cases port <;> rfl
  · rw [done_holding, tget?_emptyHolding]

/-- The end of a step leaves the registers and routes of the event fabric as the command set them. -/
theorem done_fab_registers (s u : State) :
    (State.done s u).fab.csel = u.fab.csel ∧ (State.done s u).fab.persist = u.fab.persist ∧
      (State.done s u).fab.masks = u.fab.masks ∧ (State.done s u).fab.sel = u.fab.sel := by
  obtain ⟨hmasks, -, hsel, -, hcsel, -, hpersist⟩ := done_kept s u .routes
  exact ⟨hcsel, hpersist, hmasks, hsel⟩

/-! ### Writes of a single purpose -/

/-- Arming the first-error register raises no event and saturates no counter. -/
theorem silent_armFirst (h : s.fab.raised = []) : Silent s s.armFirst := ⟨h, rfl, List.Subset.refl _⟩

/-- The copy in the peat store that it also changes is no part a frame names (R626). -/
theorem armFirst_spares : Spares l s s.armFirst := .of_quiet rfl

theorem exec_supMonLatchWrite (hc : s.rst.ctrlUp = true) (hp : s.hasPort s.sel.sup.toNat = true) :
    exec (.supMonLatchWrite v) s = .next (State.done s (s.modSup s.sel.sup.toNat (fun x =>
      { x with monDue := x.monDue ||| v.toNat % 16 }))) := by
  show execSupMonLatchWrite v s = _
  simp [execSupMonLatchWrite, finish, State.writeSup, hc, hp]

theorem exec_relayFaultRetry (hc : s.rst.ctrlUp = true) : exec .relayFaultRetry s = .next (State.done s
    { s with pfe := { s.pfe with
      faults := s.pfe.faults &&& ~~~0x80#32, pri := { s.pfe.pri with relayFault := false } } }) := by
  show finish s s.relayRetry = _
  rw [State.relayRetry, if_pos hc]
  rfl

theorem persistClear_eq (hn : n < 8) : s.fab.persistClear n v =
    { s.fab with persist := tput s.fab.persist n (tget 0#32 s.fab.persist n &&& ~~~v) } := if_pos hn

theorem exec_fabPersistClear (hn : n < 8) : exec (.fabPersistClear n v) s = .next (State.done s
    { s with fab := { s.fab with persist := tput s.fab.persist n (tget 0#32 s.fab.persist n &&& ~~~v) } }) := by
  show execFabPersistClear n v s = _
  rw [execFabPersistClear, persistClear_eq hn]
  rfl

end

/-- Settles O31: each write lands on the one register or latch it names; MP_SEL and LE_SEL empty holding registers
besides (`done_select_emptyHolding`). -/
theorem selectAndLatchWrites : Obligations.SelectAndLatchWrites := by
  unfold Obligations.SelectAndLatchWrites
  refine ⟨fun s port off v ho hoff => ?_,
    fun s port v ho => ⟨_, exec_selectRegisterWrite ho rfl writeSelect_mp, done_select_emptyHolding _⟩,
    fun s port v ho => ⟨_, exec_selectRegisterWrite ho rfl writeSelect_le, done_select_emptyHolding _⟩,
    fun s port v ho => ?_,
    fun s port v ho => ⟨_, exec_selectRegisterWrite ho rfl writeSelect_que, rfl, (spares_que (by decide)).done⟩,
    fun s n v hn => ?_,
    fun s hr => ?_,
    fun s hc => ⟨_, exec_relayFaultRetry hc, rfl, (spares_pfe (by decide)).done⟩,
    fun s v hc hp => ⟨_, exec_supMonLatchWrite hc hp, ?_, fun k hk => ?_, (spares_sp (by decide)).done⟩⟩
  · obtain ⟨hs, hu⟩ := writeSelect_plain hoff
    exact ⟨_, exec_selectRegisterWrite ho hs hu, rfl, (spares_sel (by decide)).done⟩
  · obtain ⟨hcsel, -, hmasks, hsel⟩ := done_fab_registers s (s.writeSelect port 0x804 v)
    rw [writeSelect_consumer] at hcsel hmasks hsel
    exact ⟨_, exec_selectRegisterWrite ho rfl writeSelect_consumer, hcsel, hmasks, hsel,
      (spares_fab (by decide)).done⟩
  · obtain ⟨-, hpersist, hmasks, hsel⟩ := done_fab_registers s { s with fab := s.fab.persistClear n v }
    rw [persistClear_eq hn] at hpersist hmasks hsel
    refine ⟨_, exec_fabPersistClear hn, ?_, fun k hk => ?_, hmasks, hsel, (spares_fab (by decide)).done⟩
    · rw [hpersist, tget_tput_self]
    · rw [hpersist, tget_tput_other hk]
  · have herr : (State.done s s.armFirst).err = s.armFirst.err := (silent_armFirst hr).done_err
    exact ⟨_, rfl, (congrArg Err.first herr :), (congrArg Err.ring herr :), (congrArg Err.newest herr :),
      armFirst_spares.done⟩
  · rw [done_spAt, modSup_eq, spAt_modSp_self]
  · rw [done_spAt, modSup_eq, spAt_modSp_other _ _ hk]

end Sys2Proof.Machine

/-! SUPPORT. A run of values put into a sparse table whatever their kind, and requests that change one group: those
that wait for their completion and those that complete as they are accepted (R333, R559). -/

namespace Sys2Proof.Machine

section
variable {α : Type} [DecidableEq α] {z : α} {base k : Nat} {l : List α} {t : Tab α}

/-- A value of a run put at its place from a base; the default is not listed. -/
def putValue (z : α) (base : Nat) (l : List α) (t : Tab α) (i : Nat) : Tab α :=
  if l.getD i z = z then tdel t (base + i) else tput t (base + i) (l.getD i z)

theorem tget_putValue (i : Nat) :
    tget z (putValue z base l t i) k = if k = base + i then l.getD i z else tget z t k := by
  unfold putValue
  split
  next hz => rw [tget, tget?_tdel, hz]; split <;> rfl
  next =>
    split
    · subst k; exact tget_tput_self
    · exact tget_tput_other ‹_›

/-- Values lie from the base on, and the rest of the table stands. -/
theorem tget_putValues (n : Nat) : tget z ((List.range n).foldl (putValue z base l) t) k =
    if base ≤ k ∧ k < base + n then l.getD (k - base) z else tget z t k := by
  induction n with
  | zero => simp
  | succ n ih =>
    rw [List.range_succ, List.foldl_append, List.foldl_cons, List.foldl_nil, tget_putValue, ih]
    by_cases hk : k = base + n
    · subst hk
      rw [if_pos rfl, if_pos (by omega), Nat.add_sub_cancel_left]
    · rw [if_neg hk]
      exact if_congr (by omega) rfl rfl

end

section
variable {s u : State} {r : Req} {op obj aux phase g : Nat}

@[simp] theorem take_spAt (p : Nat) : (s.take r).spAt p = s.spAt p := rfl
@[simp] theorem take_members (f : Nat) : (s.take r).members f = s.members f := rfl
@[simp] theorem take_serves (p : Nat) : (s.take r).serves p = s.serves p := rfl
@[simp] theorem take_ffBad (port half : Nat) : (s.take r).ffBad port half = s.ffBad port half := rfl

@[simp] theorem ok_grpAt (res out : List Byte) (k : Nat) : (u.ok r op res out).grpAt k = u.grpAt k := by
  rw [State.grpAt, State.ok, State.reply, answer_grp]
  rfl

/-- The end of a step that puts a request among the outstanding commands and changes a group. -/
def State.deferredGrp (s : State) (r : Req) (op obj aux phase g : Nat) (f : Grp → Grp) : State :=
  State.done s (((s.take r).defer r op obj aux phase).modGrp g f)

/-- The request waits, and that group is all that has changed besides. -/
theorem deferredGrp_changes (f : Grp → Grp) :
    Waits s (s.deferredGrp r op obj aux phase g f) r op obj aux phase ∧
      (s.deferredGrp r op obj aux phase g f).grpAt g = f (s.grpAt g) ∧
      OnlyGrp g s (s.deferredGrp r op obj aux phase g f) ∧
      KeptBut [.requests, .grp] s (s.deferredGrp r op obj aux phase g f) := by
  have hs : Spares [.requests, .grp] s (((s.take r).defer r op obj aux phase).modGrp g f) :=
    ((take_spares (by decide)).trans (defer_spares (by decide))).trans (modGrp_spares _ (by decide) _ _)
  refine ⟨waits_of_defer rfl, ?_, fun k hk => ?_, hs.done⟩
  · rw [State.deferredGrp, done_grpAt, grpAt_modGrp_self, defer_grpAt, take_grpAt]
  · rw [State.deferredGrp, done_grpAt, grpAt_modGrp_other _ _ hk, defer_grpAt, take_grpAt]

/-- The end of a step that changes a group for a request and answers ST_OK. -/
def State.grpOk (s : State) (r : Req) (op g : Nat) (f : Grp → Grp) (res : List Byte) : State :=
  State.done s (((s.take r).modGrp g f).ok r op res [])

/-- The request is answered, and that group is all that has changed besides. -/
theorem grpOk_changes {gate : Gate} (h : Accepts s r op gate) (f : Grp → Grp) (res : List Byte) :
    Answers s (s.grpOk r op g f res) r op ⟨stOk, 0, res, [], false⟩ ∧
      (s.grpOk r op g f res).grpAt g = f (s.grpAt g) ∧
      OnlyGrp g s (s.grpOk r op g f res) ∧
      KeptBut [.mbx, .requests, .window, .grp] s (s.grpOk r op g f res) := by
  have hs : Spares [.mbx, .requests, .window, .grp] s (((s.take r).modGrp g f).ok r op res []) :=
    ((take_spares (by decide)).trans (modGrp_spares _ (by decide) _ _)).trans ((ok_spares res []).mono (by decide))
  refine ⟨answers_of_reply (opened_of_accepts h) rfl rfl rfl, ?_, fun k hk => ?_, hs.done⟩
  · rw [State.grpOk, done_grpAt, ok_grpAt, grpAt_modGrp_self, take_grpAt]
  · rw [State.grpOk, done_grpAt, ok_grpAt, grpAt_modGrp_other _ _ hk, take_grpAt]

end

end Sys2Proof.Machine

/-! The commands of the loop engine (R329, R333, R344, R347, R582, R598): what each accepted one does, and the
obligation they settle. -/

namespace Sys2Proof.Machine

section
variable {s : State} {r : Req} {fig mask port half : Nat} {block : BitVec 640} {table : List (BitVec 16)}

/-! ### Coefficients and feedforward tables -/

/-- The sets with a block put at its loop and figure in the Maquette, edited (R329, R454). -/
def Sets.coefPut (x : Sets) (fig : Nat) (block : BitVec 640) : Sets :=
  { x with
    maq := { x.maq with coefs := tput x.maq.coefs (4 * fig + cfLoop block) block }
    maqSeq := x.maqSeq + 1#32, valid := false }

/-- The sets with 256 entries put into the Maquette's feedforward tables, edited (R333, R454). -/
def Sets.ffPut (x : Sets) (base : Nat) (table : List (BitVec 16)) : Sets :=
  { x with
    maq := { x.maq with ff := (List.range 256).foldl (putValue 0#16 base table) x.maq.ff }
    maqSeq := x.maqSeq + 1#32, valid := false }

theorem tget_ffPut {x : Sets} {base k : Nat} : tget 0#16 (x.ffPut base table).maq.ff k =
    if base ≤ k ∧ k < base + 256 then table.getD (k - base) 0#16 else tget 0#16 x.maq.ff k := by
  rw [Sets.ffPut, tget_putValues]

theorem exec_loopCoefWrite (ha : Accepts s r 0x0C01 { standbyOk := false }) (hz : s.sets.frozen = false)
    (hf : fig ∈ s.sets.maq.figs) (hb : coefBad block = none) : exec (.loopCoefWrite r fig block) s =
      .next (State.done s (State.editOk { s.take r with sets := s.sets.coefPut fig block } r 0x0C01 [])) := by
  show execLoopCoefWrite r fig block s = _
  rw [execLoopCoefWrite, editCommand_accepts ha hz]
  simp only [take_sets, List.contains_iff_mem.mpr hf, hb]
  rfl

theorem exec_loopFfWrite (ha : Accepts s r 0x0C03 { standbyOk := false }) (hz : s.sets.frozen = false)
    (hb : s.ffBad port half = none) : exec (.loopFfWrite r port half table) s =
      .next (State.done s (State.editOk
        { s.take r with sets := s.sets.ffPut (512 * port + 256 * half) table } r 0x0C03 [])) := by
  show execLoopFfWrite r port half table s = _
  rw [execLoopFfWrite, editCommand_accepts ha hz]
  simp only [take_ffBad, hb]
  rfl

theorem exec_loopCoefRead (ha : Accepts s r 0x0C02 {}) (hd : s.defined fig = true) (hm : mask < 16) {held : List Nat}
    (hh : held = (List.range 4).filter (fun k =>
      mask.testBit k && (tget? s.sets.cast.coefs (4 * fig + k)).isSome)) :
    exec (.loopCoefRead r fig mask) s = .next (State.done s ((s.take r).ok r 0x0C02
      (leBytes 1 (nsum (held.map (fun k => 2 ^ k))))
      (held.flatMap (fun k => leBytes 80 ((tget? s.sets.cast.coefs (4 * fig + k)).getD 0#640).toNat)))) := by
  subst hh
  show execLoopCoefRead r fig mask s = _
  rw [execLoopCoefRead, umser_accepts ha]
  simp only [take_defined, hd, Nat.not_le.mpr hm]
  rfl

theorem exec_loopFfRead (ha : Accepts s r 0x0C04 {}) (hb : s.ffBad port half = none) :
    exec (.loopFfRead r port half) s = .next (State.done s ((s.take r).ok r 0x0C04 []
      ((List.range 256).flatMap (fun i =>
        leBytes 2 (tget 0#16 s.sets.cast.ff (512 * port + 256 * half + i)).toNat)))) := by
  show execLoopFfRead r port half s = _
  rw [execLoopFfRead, umser_accepts ha]
  simp only [take_ffBad, hb]
  rfl

/-! ### Tuning injections -/

variable {member point wave prbsL dec ftw n p grp : Nat} {amp : Int} {start : DWord}

/-- The injection that an accepted TUNE_START arms on a port (R344). -/
def armedTune (r : Req) (fig p point wave prbsL dec : Nat) (amp : Int) (ftw n : Nat) (start : DWord) : Tune :=
  ⟨fig, p, point == 1, wave, prbsL + 1, dec + 1, amp, ftw, n, start, 0#64, false, 0, 2 ^ (prbsTaps wave).1 - 1,
    [], 0, 0#64, 0, 0, r.mbx, r.tag, false, false, false⟩

/-- A member of the figure that the module has, or 0xFF for the master, passes the checks on the member (R582). -/
theorem memberChecks_pass (hp : p = if member = 0xFF then (s.members fig).headD 0 else member)
    (hm : s.hasPort p = true ∧ p ∈ s.members fig) :
    (member != 0xFF && member < 128 && !s.hasPort member) = false ∧
      (member != 0xFF && !(s.members fig).contains member) = false := by
  obtain ⟨hhas, hmem⟩ := hm
  by_cases hff : member = 0xFF
  · simp [hff]
  · obtain rfl : p = member := by rw [hp, if_neg hff]
    simp [hhas, hmem]

theorem exec_tuneStart (ha : Accepts s r 0x0C06 { long := true, standbyOk := false })
    (hf : fig < 4096 ∧ s.defined fig = true) (hp : p = if member = 0xFF then (s.members fig).headD 0 else member)
    (hm : s.hasPort p = true ∧ p ∈ s.members fig)
    (hb : tuneBad point wave prbsL dec amp ftw n (tuneMost point) = none) (hs : s.serves p = some fig)
    (hl : loopsClosed (s.spAt p) = true) (ht : (s.grpAt (p / 8)).tune = none) :
    exec (.tuneStart r fig member point wave prbsL dec amp ftw n start) s =
      .next (s.deferredGrp r 0x0C06 fig 0 0 (p / 8) (fun x =>
        { x with tune := some (armedTune r fig p point wave prbsL dec amp ftw n start) })) := by
  obtain ⟨hfig, hdef⟩ := hf
  obtain ⟨habsent, houtside⟩ := memberChecks_pass hp hm
  have hne : (s.members fig).isEmpty = false := List.isEmpty_eq_false_iff.mpr (List.ne_nil_of_mem hm.2)
  show execTuneStart r fig member point wave prbsL dec amp ftw n start s = _
  rw [execTuneStart, umser_accepts ha]
  simp only [take_defined, take_hasPort, take_members, take_serves, take_spAt, take_grpAt, habsent, houtside, hb, ← hp,
    Nat.not_le.mpr hfig, hdef, hne, hs, hl, ht, bne_self_eq_false]
  rfl

theorem exec_tuneStop {x : Tune} (ha : Accepts s r 0x0C07 { standbyOk := false })
    (hg : grp < 16 ∧ s.hasGrp grp = true) (ht : (s.grpAt grp).tune = some x) : exec (.tuneStop r grp) s =
      .next (s.grpOk r 0x0C07 grp (fun y => { y with tune := y.tune.map (fun t => { t with stop := true }) }) []) := by
  obtain ⟨hgrp, hhas⟩ := hg
  show execTuneStop r grp s = _
  rw [execTuneStop, umser_accepts ha]
  simp only [take_hasGrp, hhas, Nat.not_le.mpr hgrp, take_grpAt, ht]
  rfl

end

/-- Settles O24: a write edits the Maquette by `tput` or as `tget_putValues` gives it, a read only answers, and an
injection is armed or marked as a change of its group alone (`deferredGrp_changes`, `grpOk_changes`). -/
theorem loopCommands : Obligations.LoopCommands := by
  unfold Obligations.LoopCommands
  refine ⟨fun s r fig block ha hz hf hb => ⟨_, exec_loopCoefWrite ha hz hf hb, editOk_ends [] ha rfl, ?_⟩,
    fun s r fig mask held ha hd hm hh => ⟨_, exec_loopCoefRead ha hd hm hh, take_ok_done ha⟩,
    fun s r port half table ha hz hb => ⟨_, exec_loopFfWrite ha hz hb, editOk_ends [] ha rfl, ?_⟩,
    fun s r port half ha hb => ⟨_, exec_loopFfRead ha hb, take_ok_done ha⟩,
    fun s r fig member point wave prbsL dec amp ftw n start p ha hf hp hm hb hs hl ht =>
      ⟨_, exec_tuneStart ha hf hp hm hb hs hl ht, deferredGrp_changes _⟩,
    fun s r grp x ha hg ht => ⟨_, exec_tuneStop ha hg ht, ?_⟩⟩
  · rw [done_sets, editOk_sets]
    exact ⟨tget?_tput_self, fun k hk => tget?_tput_other hk, rfl, rfl, rfl, editOk_keptBut []⟩
  · rw [done_sets, editOk_sets]
    refine ⟨fun i hi => ?_, fun k hk => ?_, rfl, rfl, rfl, editOk_keptBut []⟩
    · exact tget_ffPut.trans (by rw [if_pos (by omega), Nat.add_sub_cancel_left])
    · exact tget_ffPut.trans (if_neg hk)
  · obtain ⟨hanswers, hgrp, honly, hkept⟩ := grpOk_changes (g := grp) ha
      (fun y => { y with tune := y.tune.map (fun t => { t with stop := true }) }) []
    exact ⟨hanswers, by rw [hgrp, ht]; rfl, honly, hkept⟩

end Sys2Proof.Machine

/-! SUPPORT. Requests that change one stage port: those that complete as they are accepted and those that wait for
their completion (R559). -/

namespace Sys2Proof.Machine

section
variable {s u : State} {r : Req} {op obj aux phase p : Nat} {l : List Piece}

@[simp] theorem take_portBad (p : Nat) : (s.take r).portBad p = s.portBad p := rfl
@[simp] theorem take_tripStands (p : Nat) : (s.take r).tripStands p = s.tripStands p := rfl
@[simp] theorem take_supRecord (p : Nat) : (s.take r).supRecord p = s.supRecord p := rfl

@[simp] theorem ok_spAt (res out : List Byte) (k : Nat) : (u.ok r op res out).spAt k = u.spAt k := by
  rw [State.spAt, State.ok, State.reply, answer_sp]
  rfl

theorem modSp_spares (hl : .sp ∈ l) (p : Nat) (f : Sp → Sp) : Spares l s (s.modSp p f) := spares_sp hl

/-- A port that the module has passes the checks of a command that names it. -/
theorem portBad_of_hasPort (h : p < 128 ∧ s.hasPort p = true) : s.portBad p = none := by
  obtain ⟨hp, hhas⟩ := h
  simp [State.portBad, Nat.not_le.mpr hp, hhas]

/-- The end of a step that changes a port's supervision for a request and answers ST_OK. -/
def State.supOk (s : State) (r : Req) (op p : Nat) (f : Sup → Sup) : State :=
  State.done s (((s.take r).modSup p f).ok r op [] [])

/-- The request is answered, and the supervision of that port is all that has changed besides. -/
theorem supOk_changes {g : Gate} (h : Accepts s r op g) (f : Sup → Sup) :
    Answers s (s.supOk r op p f) r op ⟨stOk, 0, [], [], false⟩ ∧
      (s.supOk r op p f).spAt p = { s.spAt p with sup := f (s.spAt p).sup } ∧
      OnlySp p s (s.supOk r op p f) ∧
      KeptBut [.mbx, .requests, .window, .sp] s (s.supOk r op p f) := by
  have hs : Spares [.mbx, .requests, .window, .sp] s (((s.take r).modSup p f).ok r op [] []) :=
    ((take_spares (by decide)).trans (modSp_spares (by decide) _ _)).trans ((ok_spares [] []).mono (by decide))
  refine ⟨answers_of_reply (opened_of_accepts h) rfl rfl rfl, ?_, fun k hk => ?_, hs.done⟩
  · rw [State.supOk, done_spAt, ok_spAt, modSup_eq, spAt_modSp_self, take_spAt]
  · rw [State.supOk, done_spAt, ok_spAt, modSup_eq, spAt_modSp_other _ _ hk, take_spAt]

/-- The end of a step that puts a request among the outstanding commands and changes a port's supervision. -/
def State.deferredSup (s : State) (r : Req) (op obj aux phase p : Nat) (f : Sup → Sup) : State :=
  State.done s (((s.take r).defer r op obj aux phase).modSup p f)

/-- The request waits, and the supervision of that port is all that has changed besides. -/
theorem deferredSup_changes (f : Sup → Sup) :
    Waits s (s.deferredSup r op obj aux phase p f) r op obj aux phase ∧
      (s.deferredSup r op obj aux phase p f).spAt p = { s.spAt p with sup := f (s.spAt p).sup } ∧
      OnlySp p s (s.deferredSup r op obj aux phase p f) ∧
      KeptBut [.requests, .sp] s (s.deferredSup r op obj aux phase p f) := by
  have hs : Spares [.requests, .sp] s (((s.take r).defer r op obj aux phase).modSup p f) :=
    ((take_spares (by decide)).trans (defer_spares (by decide))).trans (modSp_spares (by decide) _ _)
  refine ⟨waits_of_defer rfl, ?_, fun k hk => ?_, hs.done⟩
  · rw [State.deferredSup, done_spAt, modSup_eq, spAt_modSp_self]
    rfl
  · rw [State.deferredSup, done_spAt, modSup_eq, spAt_modSp_other _ _ hk]
    rfl

end

end Sys2Proof.Machine

/-! The supervision commands (R355, R364, R370, R371, R374, R584): what each accepted one does, and the obligation
they settle. -/

namespace Sys2Proof.Machine

section
variable {s : State} {r : Req} {port : Nat}

theorem exec_supMonClear {mask : Nat} (ha : Accepts s r 0x0D01 {}) (hp : port < 128 ∧ s.hasPort port = true)
    (hm : mask < 16) : exec (.supMonClear r port mask) s =
      .next (s.supOk r 0x0D01 port (fun x => { x with monDue := x.monDue ||| mask })) := by
  show execSupMonClear r port mask s = _
  rw [execSupMonClear, umser_accepts ha]
  simp only [take_portBad, portBad_of_hasPort hp, Nat.not_le.mpr hm, if_false]
  rfl

/-- A trip none of whose causes stands is to be cleared at the next loop tick (R364). -/
theorem exec_supTripClear_tripped (ha : Accepts s r 0x0D02 { standbyOk := false })
    (hp : port < 128 ∧ s.hasPort port = true) (ht : (s.spAt port).sup.tripped = true)
    (hn : s.tripStands port = none) : exec (.supTripClear r port) s =
      .next (s.supOk r 0x0D02 port (fun x => { x with clearDue := true })) := by
  show execSupTripClear r port s = _
  rw [execSupTripClear, umser_accepts ha]
  simp only [take_portBad, portBad_of_hasPort hp, take_spAt, ht, take_tripStands, hn]
  rfl

/-- With no trip there is nothing to clear. -/
theorem exec_supTripClear_untripped (ha : Accepts s r 0x0D02 { standbyOk := false })
    (hp : port < 128 ∧ s.hasPort port = true) (ht : (s.spAt port).sup.tripped = false) :
    exec (.supTripClear r port) s = .next (State.done s ((s.take r).ok r 0x0D02 [] [])) := by
  show execSupTripClear r port s = _
  rw [execSupTripClear, umser_accepts ha]
  simp only [take_portBad, portBad_of_hasPort hp, take_spAt, ht]
  rfl

theorem exec_supTripForce (ha : Accepts s r 0x0D03 { standbyOk := false })
    (hp : port < 128 ∧ s.hasPort port = true) (hl : tripLive (s.spAt port).force.out = true) :
    exec (.supTripForce r port) s = .next (s.supOk r 0x0D03 port (fun x => { x with force := true })) := by
  show execSupTripForce r port s = _
  rw [execSupTripForce, umser_accepts ha]
  simp only [take_portBad, portBad_of_hasPort hp, take_spAt, hl]
  rfl

theorem exec_supLeadCheck (ha : Accepts s r 0x0D04 { long := true, standbyOk := false })
    (hp : port < 128 ∧ s.hasPort port = true)
    (hf : (s.spAt port).sup.leadCmd = none ∧ (s.spAt port).sup.checking = false) :
    exec (.supLeadCheck r port) s =
      .next (s.deferredSup r 0x0D04 port 0 0 port (fun x => { x with leadCmd := some (r.mbx, r.tag) })) := by
  obtain ⟨hcmd, hchecking⟩ := hf
  show execSupLeadCheck r port s = _
  rw [execSupLeadCheck, umser_accepts ha]
  simp only [take_portBad, portBad_of_hasPort hp, take_spAt, hcmd, hchecking]
  rfl

theorem exec_supHoldRelease (ha : Accepts s r 0x0D05 { standbyOk := false })
    (hp : port < 128 ∧ s.hasPort port = true) (hh : (s.spAt port).sup.held = true)
    (hf : (s.spAt port).sup.releaseCmd = none) : exec (.supHoldRelease r port) s =
      .next (s.deferredSup r 0x0D05 port 0 0 port (fun x => { x with releaseCmd := some (r.mbx, r.tag) })) := by
  show execSupHoldRelease r port s = _
  rw [execSupHoldRelease, umser_accepts ha]
  simp only [take_portBad, portBad_of_hasPort hp, take_spAt, hh, hf]
  rfl

theorem exec_supStatusRead {first count : Nat} (ha : Accepts s r 0x0D06 {}) (hf : first < 128)
    (hc : count ≠ 0 ∧ first + count ≤ 128) : exec (.supStatusRead r first count) s =
      .next (State.done s ((s.take r).ok r 0x0D06 []
        ((List.range count).flatMap (fun i => s.supRecord (first + i))))) := by
  obtain ⟨hpos, hmost⟩ := hc
  have hcount : ¬ (count = 0 ∨ 128 < first + count) := by omega
  show execSupStatusRead r first count s = _
  rw [execSupStatusRead, umser_accepts ha]
  simp only [take_supRecord, Nat.not_le.mpr hf, if_neg hcount, if_false]

end

/-- Settles O26: each command that acts marks one port's supervision, answered at once (`supOk_changes`) or waiting
(`deferredSup_changes`); the rest only answer (`take_ok_done`). -/
theorem supervisionCommands : Obligations.SupervisionCommands := by
  unfold Obligations.SupervisionCommands
  exact ⟨fun s r port mask ha hp hm => ⟨_, exec_supMonClear ha hp hm, supOk_changes ha _⟩,
    fun s r port ha hp ht hn => ⟨_, exec_supTripClear_tripped ha hp ht hn, supOk_changes ha _⟩,
    fun s r port ha hp ht => ⟨_, exec_supTripClear_untripped ha hp ht, take_ok_done ha⟩,
    fun s r port ha hp hl => ⟨_, exec_supTripForce ha hp hl, supOk_changes ha _⟩,
    fun s r port ha hp hf => ⟨_, exec_supLeadCheck ha hp hf, deferredSup_changes _⟩,
    fun s r port ha hp hh hf => ⟨_, exec_supHoldRelease ha hp hh hf, deferredSup_changes _⟩,
    fun s r first count ha hf hc => ⟨_, exec_supStatusRead ha hf hc, take_ok_done ha⟩⟩

end Sys2Proof.Machine

/-! A hold that finds an aperture open takes the samples which that aperture still lacks, and the raw capture of the
group may end on one of them (R249, R266, R371): the obligation on the causes of trips leaves that out. -/

namespace Sys2Proof.Machine

section

/-- Port 0 carries a figure that holds on a fault, its loops closed and an aperture open; the V slice has been frozen
for 64 codes. The group's raw capture for that figure lacks one instant, which waits in the comb. -/
def heldCapture : State :=
  { State.reset with
    rst := { State.reset.rst with ctrlUp := true, dataUp := true }
    host := { State.reset.host with
      mbx := [(0, { Mbx.init with state := .opened })]
      outst := [{ mbx := 0, orphan := false, opcode := 0x0A06, tag := 9, outLen := 0, outAddr := 0
                  mtAccept := 0, obj := 0, aux := 0, phase := 0 }] }
    sets := { State.reset.sets with cast := { State.reset.sets.cast with
      figs := [5]
      params := [(pkey 0x425 5, 1)]
      place := [(5, { Placement.init with state := .placed, members := [0] })] } }
    sp := [(0, { Sp.init with
      force := { Force.init with out := .regulating, en := true }
      meas := { Sp.init.meas with integ := some (Integ.opened 0#2048 0 0) }
      sup := { Sup.init with froV := 64, codes := [5, 6] } })]
    fig := [(5, { Fig.init with
      enabled := true
      apOpen := some { apRequest 0#64 1 0xFFFF true false with members := [0] } })]
    grp := [(0, { Grp.init with acq := { Acq.init with
      comb := [{ ofs := 0, clk := 0, inputs := [], loop := true, rph := false, tmiss := false, stamp := none }]
      cap := some
        { fig := 5, mask := 1, start := 0, started := true, left := 1, done := 9, firstSeq := 0, packets := 0
          mbx := 0, tag := 9, half := none } } })] }

/-- The hold takes the instant, which ends the capture and with it its command. -/
theorem frozenFault_heldCapture (t : State) (h : exec (.frozenFault 0) heldCapture = .next t) :
    t.host.outst = [] := by
  obtain rfl := Host.Outcome.next.inj h
  rw [done_host_outst]
  rfl

/-- Refutes O42: the clause of a held fault keeps every outstanding command, and the hold of `heldCapture` completes
the raw capture of its group (R249, R266). -/
theorem not_tripsFallOnTheirCauses : ¬ Obligations.TripsFallOnTheirCauses := by
  intro h
  obtain ⟨-, -, -, hold, -⟩ := h
  obtain ⟨t, ht, -, -, -, -, -, -, -, -, -, -, -, -, -, -, hkept⟩ := hold heldCapture 0 5 rfl ⟨rfl, rfl⟩
    rfl (.inl le_rfl) ⟨rfl, by decide⟩ ⟨rfl, rfl, rfl⟩
  obtain ⟨-, houtst⟩ := hkept .requests (by decide)
  rw [frozenFault_heldCapture t ht] at houtst
  exact absurd houtst (by decide)

end

end Sys2Proof.Machine

/-! The move of a trip record raises err.record, and a counter of the event fabric that counts it may saturate; the
record of that saturation follows in the error ring (R447, R629, R631), which the obligation on monitors, checks and
records leaves out. -/

namespace Sys2Proof.Machine

section

/-- A complete trip record waits in group 0, and event counter 0, which counts err.record through sluice 0, is one
short of all-ones. -/
def countedMove : State :=
  { State.reset with
    rst := { State.reset.rst with ctrlUp := true, dataUp := true, mgmtUp := true }
    fab := { State.reset.fab with
      masks := [(0, [0xAA0])], sel := [(0x1A0, 0)], cnt := [(0, 0xFFFFFFFE#32)] }
    grp := [(0, { Grp.init with trips := [{ TripRec.init with auxf := 4 }] })] }

/-- That state once the record has left its group; err.record is still to be carried. -/
def movedRecord : State :=
  (countedMove.modGrp 0 (fun x => { x with trips := [] })).moveRecord { TripRec.init with auxf := 4 }

theorem exec_tripRecordMove_countedMove :
    exec (.tripRecordMove 0) countedMove = .next (State.done countedMove movedRecord) := rfl

/-- The move itself saturates no counter and changes no readiness. -/
theorem logSats_movedRecord :
    State.logSats countedMove (State.raiseReady countedMove movedRecord) = movedRecord := rfl

/-- Carrying err.record saturates FAB_CNT0. -/
theorem logSats_carry_movedRecord : State.logSats movedRecord movedRecord.carry =
    movedRecord.carry.logSat (0x8000 + 0x880 / 4, 0, 0, 0) := rfl

theorem carry_err (s : State) : s.carry.err = s.err := by
  unfold State.carry
  split <;> rfl

/-- The record of the trip and CTR_SAT both join the ring. -/
theorem done_movedRecord_codes :
    (State.done countedMove movedRecord).err.ring.map (fun e => e.body.code) = [0x8301#16, 0x3F02#16] := by
  simp only [State.done, State.settled, carry_err, logSats_movedRecord, logSats_carry_movedRecord]
  rfl

/-- Refutes O44: the clause of a record's move has the ring gain that record alone, and with `countedMove` it gains
the CTR_SAT record too (R629). -/
theorem not_monitorsChecksAndRecords : ¬ Obligations.MonitorsChecksAndRecords := by
  intro h
  obtain ⟨-, -, -, -, -, -, -, -, -, -, -, -, -, move, -⟩ := h
  obtain ⟨t, ht, -, -, -, hring, -⟩ :=
    move countedMove 0 { TripRec.init with auxf := 4 } ⟨rfl, rfl⟩ rfl (by decide)
  obtain rfl := Host.Outcome.next.inj (exec_tripRecordMove_countedMove.symm.trans ht)
  have hone : (State.done countedMove movedRecord).err.ring.length = 1 :=
    (List.length_map _).symm.trans (congrArg List.length hring)
  have htwo : (State.done countedMove movedRecord).err.ring.length = 2 :=
    (List.length_map _).symm.trans (congrArg List.length done_movedRecord_codes)
  omega

end

end Sys2Proof.Machine

/-! The theorems from here on are elaborated one after another: elaborated beside each other, at the end of a text of
this length, they need more threads than its memory limit has room for. -/

section
set_option Elab.async false

/-! SUPPORT. Every command ends in the end of a step (log entry 9): it answers a next state, whose signals have been
carried. -/

namespace Sys2Proof.Machine

section
variable {s u : State}

/-- A command answers the end of a step, with some work done before it. -/
theorem exec_finish (c : Instr) (s : State) : ∃ u, exec c s = finish s u := by
  cases c <;> exact ⟨_, rfl⟩

theorem carry_raised_nil (s : State) : s.carry.fab.raised = [] := by
  unfold State.carry
  split <;> rfl

theorem done_raised : (State.done s u).fab.raised = [] := by
  have hd : (State.done s u).fab = (State.logSats u (State.logSats s (State.raiseReady s u)).carry).carry.fab := by
    simp only [State.done, State.settled]
  rw [hd, carry_raised_nil]

theorem done_peat_stamped : (State.done s u).peat = s.peat ∨ (State.done s u).peat.writeSeq = s.peat.writeSeq + 1#32 := by
  have hd : (State.done s u).peat = s.peat.stamped (State.settled s u).peat := by simp only [State.done]
  rw [hd]
  unfold Peat.stamped
  split
  · exact .inl ‹_›
  · exact .inr rfl

/-- A step is the end of a step on the state without the command at its front. -/
theorem step_done (s : State) : ∃ u, step s = .next (State.done { s with pending := s.pending.drop 1 } u) := by
  obtain hp | ⟨c, rest, hp⟩ : s.pending = [] ∨ ∃ c rest, s.pending = c :: rest := by cases s.pending <;> simp
  · have hs : { s with pending := s.pending.drop 1 } = s := by rw [hp, List.drop_nil, ← hp]
    exact ⟨s.clock, by rw [hs, step, hp]; rfl⟩
  · obtain ⟨u, hu⟩ := exec_finish c { s with pending := rest }
    exact ⟨u, by rw [step, hp]; exact hu⟩

end

/-- Settles O59: a step is the end of a step (`step_done`), which carries every event and stamps the peat store. -/
theorem everyStepCompletes : Obligations.EveryStepCompletes := by
  intro s
  obtain ⟨u, hu⟩ := step_done s
  exact ⟨_, hu, done_raised, rfl, rfl, done_peat_stamped⟩

end Sys2Proof.Machine

/-! The queue of waiting commands (log entries 8 and 20): what an empty queue's clock leaves of the module's own
clock, and the obligations on the queue and on the state after reset. -/

namespace Sys2Proof.Machine

section
variable (s : State) (g : Nat)

theorem urgNext_clk : (s.urgNext g).clk = s.clk := by
  unfold State.urgNext
  extract_lets a
  split <;> rfl

theorem auxConvert_clk (input : Int) (clk : Nat) (stamp : DWord) :
    (s.auxConvert g input clk stamp).clk = s.clk := by
  unfold State.auxConvert
  extract_lets a
  split
  · rfl
  · extract_lets code w spare novr own words t
    rw [clk_ite, rawTake_clk, ite_self]
    rfl

theorem auxTick_clk : (s.auxTick g).clk = s.clk := by
  unfold State.auxTick
  extract_lets t a
  have ht : t.clk = s.clk := by simp only [t, clk_ite, urgNext_clk, ite_self]
  rw [clk_ite]
  split
  · split
    · rw [clk_ite, auxConvert_clk, ht, ite_self]
    · exact ht
  · rfl

theorem acqClock_clk : (s.acqClock g).clk = s.clk := by
  unfold State.acqClock
  simp only [clk_ite, auxTick_clk, combTake_clk]
  simp

/-- With nothing waiting the module's clock counts one core clock. -/
theorem clock_clk : s.clock.clk = s.clk + 1 := by
  unfold State.clock
  simp only
  rw [clk_ite, State.mtClock, modMt_clk, foldl_clk s _ fun t g => acqClock_clk t g, ite_self]

end

/-- Settles O56: a step is `exec` of the front by its definition, and an empty queue's step the end of a clock. -/
theorem theQueueRunsInOrder : Obligations.TheQueueRunsInOrder := by
  refine ⟨fun s c rest hp => by rw [step, hp], fun s hp => ?_, fun s nbits w => ⟨rfl, rfl⟩⟩
  exact ⟨State.done s s.clock, by rw [step, hp]; rfl, hp, clock_clk s, rfl⟩

/-- Settles O57: the registers and the state are evaluated (R405 and log entry 21 leave SWP_STATE out). -/
theorem resetLeavesTheRegistersAndIsSafe : Obligations.ResetLeavesTheRegistersAndIsSafe := by
  refine ⟨fun port => ?_, rfl, rfl, rfl, rfl, rfl, rfl, Nat.zero_le _⟩
  cases port <;> rfl

end Sys2Proof.Machine

/-! SUPPORT. Commands that change one mailbox: the doorbells that reach it (R534), the end of its session (R563) and
its faults (R536, Tables 20.8 and 20.9). -/

namespace Sys2Proof.Machine

section
variable {s u : State} {l : List Piece} {port : Port} {n : Nat} {p : Piece}

theorem modMbx_spares (hl : .mbx ∈ l) (n : Nat) (f : Mbx → Mbx) : Spares l s (s.modMbx n f) :=
  ⟨rfl, fun p hp => by cases p <;> simp_all [Kept, State.modMbx]⟩

theorem onlyMbx_modMbx (f : Mbx → Mbx) : OnlyMbx n s (State.done s (s.modMbx n f)) := fun k hk => by
  rw [done_mbxAt, mbxAt_modMbx_other _ _ hk]

/-- A command whose work is a change of one mailbox changes that mailbox alone. -/
theorem modMbx_changes (f : Mbx → Mbx) : (State.done s (s.modMbx n f)).mbxAt n = f (s.mbxAt n) ∧
    OnlyMbx n s (State.done s (s.modMbx n f)) ∧ KeptBut [.mbx] s (State.done s (s.modMbx n f)) :=
  ⟨by rw [done_mbxAt, mbxAt_modMbx_self], onlyMbx_modMbx f, (modMbx_spares (by decide) n f).done⟩

/-- A doorbell that reaches its mailbox acts on it (R534). -/
theorem doorbell_reached (h : Reached s port n) (body : Mbx → State) :
    s.doorbell port n body = body (s.mbxAt n) := by
  obtain ⟨hn, hr, ho⟩ := h
  have hown : ((s.mbxAt n).owned && (s.mbxAt n).port != port) = false := by
    cases hm : (s.mbxAt n).owned <;> simp_all
  have hserved : ¬ (256 ≤ n ∨ s.restarting = true) := by
    rw [hr, not_or, Nat.not_le]
    exact ⟨hn, Bool.false_ne_true⟩
  rw [State.doorbell, if_neg hserved, hown]
  rfl

/-! ### Sessions and faults -/

/-- The parts that the end of a session and a fault of a mailbox may change. -/
def sessionParts : List Piece := [.mbx, .requests, .hostRegs, .twin, .misc]

theorem endSession_spares : Spares [.mbx, .requests, .twin, .misc] s (s.endSession n) :=
  ⟨rfl, fun p hp => by cases p <;> simp_all [Kept, State.endSession]⟩

theorem hostFlag_spares (hl : .hostRegs ∈ l) (m : Word) : Spares l s (s.hostFlag m) :=
  ⟨rfl, fun p hp => by cases p <;> simp_all [Kept, State.hostFlag]⟩

@[simp] theorem hostFlag_mbxAt (m : Word) (k : Nat) : (s.hostFlag m).mbxAt k = s.mbxAt k := rfl
@[simp] theorem endSession_mbxAt (k : Nat) : (s.endSession n).mbxAt k = s.mbxAt k := rfl

/-- What entering RESET leaves in a mailbox (Table 20.9). -/
def Mbx.resetTo (m : Mbx) (reason code : Nat) : Mbx :=
  { m with state := .reset, reason := reason, code := BitVec.ofNat 16 code, setupBusy := false, unsignalled := 0 }

theorem resetMbx_mbx (reason code : Nat) : (s.resetMbx n reason code).host.mbx =
    ((s.endSession n).modMbx n (fun m => m.resetTo reason code)).host.mbx := rfl

theorem resetMbx_mbxAt_self (reason code : Nat) :
    (s.resetMbx n reason code).mbxAt n = (s.mbxAt n).resetTo reason code := by
  rw [State.mbxAt, resetMbx_mbx]
  exact mbxAt_modMbx_self ..

theorem resetMbx_mbxAt_other {k : Nat} (hk : k ≠ n) (reason code : Nat) :
    (s.resetMbx n reason code).mbxAt k = s.mbxAt k := by
  rw [State.mbxAt, resetMbx_mbx]
  exact mbxAt_modMbx_other _ _ hk

theorem resetMbx_spares (reason code : Nat) : Spares sessionParts s (s.resetMbx n reason code) := by
  have hm : Spares sessionParts s ((s.endSession n).modMbx n (fun m => m.resetTo reason code)) :=
    (endSession_spares.mono (by decide)).trans (modMbx_spares (by decide) _ _)
  refine ⟨hm.clk, fun p hp => (hm.parts p hp).trans ?_⟩
  cases p <;> simp_all [Kept, sessionParts, State.resetMbx, Mbx.resetTo]

theorem resetMbx_flags (reason code : Nat) : (s.resetMbx n reason code).host.flags = s.host.flags := rfl

theorem resetMbx_mbxRst (reason code : Nat) : (s.resetMbx n reason code).host.mbxRst = bump s.host.mbxRst := rfl

end

/-! ### The doorbells -/

section
variable {s : State} {port : Port} {mbx : Nat} {arg : BitVec 28} {value : Word}

theorem exec_rspHead (h : Reached s port mbx) (hs : (s.mbxAt mbx).state = .opened ∨ (s.mbxAt mbx).state = .closing) :
    exec (.rspHead port mbx arg) s = .next (State.done s (s.modMbx mbx (fun m =>
      { m with rspHead := arg.setWidth 16, responses := m.responses.drop (arg.setWidth 16 - m.rspHead).toNat }))) := by
  show finish s (s.rspHead port mbx arg) = _
  rw [State.rspHead, doorbell_reached h, if_pos hs]
  rfl

theorem exec_setupLo (h : Reached s port mbx) (hs : (s.mbxAt mbx).state = .closed) :
    exec (.setupLo port mbx arg) s =
      .next (State.done s (s.modMbx mbx (fun m => { m with setupAddr := arg.setWidth 64 <<< 6 }))) := by
  show finish s (s.setupLo port mbx arg) = _
  rw [State.setupLo, doorbell_reached h, if_pos hs]
  rfl

theorem exec_setupHi (h : Reached s port mbx) (hs : (s.mbxAt mbx).state = .closed) :
    exec (.setupHi port mbx arg) s = .next (State.done s (s.modMbx mbx (fun m =>
      { m with
        setupAddr := (m.setupAddr.setWidth 34).setWidth 64 ||| (arg.setWidth 64 <<< 34)
        setupBusy := true, port := port, owned := true }))) := by
  show finish s (s.setupHi port mbx arg) = _
  rw [State.setupHi, doorbell_reached h, if_pos hs]
  rfl

theorem exec_close (h : Reached s port mbx) (hs : (s.mbxAt mbx).state = .opened) :
    exec (.close port mbx) s = .next (State.done s ((s.endSession mbx).modMbx mbx (fun m =>
      { m with state := .closing, unsignalled := 0 }))) := by
  show finish s (s.closeMbx port mbx) = _
  rw [State.closeMbx, doorbell_reached h, if_pos hs]
  rfl

theorem exec_mailboxClosed (hs : (s.mbxAt mbx).state = .closing) : exec (.mailboxClosed mbx) s =
    .next (State.done s (s.modMbx mbx (fun m => { m with state := .closed, owned := false }))) := by
  show execMailboxClosed mbx s = _
  rw [execMailboxClosed, if_pos hs]
  rfl

theorem exec_ackReset (h : Reached s port mbx) (hs : (s.mbxAt mbx).state = .reset) :
    exec (.ackReset port mbx) s = .next (State.done s (s.modMbx mbx (fun m =>
      { m with state := .closed, reason := 0, code := 0#16, owned := false }))) := by
  show finish s (s.ackReset port mbx) = _
  rw [State.ackReset, doorbell_reached h, if_pos hs]
  rfl

theorem exec_mbxTailWrite_within (h : Reached s port mbx)
    (hv : (value.setWidth 16 - (s.mbxAt mbx).reqHead).toNat ≤ 2 ^ (s.mbxAt mbx).reqLog2) :
    exec (.mbxTailWrite port mbx value) s =
      .next (State.done s (s.modMbx mbx (fun m => { m with reqTail := value.setWidth 16 }))) := by
  show finish s (s.tailWrite port mbx value) = _
  rw [State.tailWrite, doorbell_reached h, if_neg fun hf => absurd hf.2 (Nat.not_lt.mpr hv)]
  rfl

theorem exec_mbxTailWrite_beyond (h : Reached s port mbx) (hs : (s.mbxAt mbx).state = .opened)
    (hv : 2 ^ (s.mbxAt mbx).reqLog2 < (value.setWidth 16 - (s.mbxAt mbx).reqHead).toNat) :
    exec (.mbxTailWrite port mbx value) s = .next (State.done s
      (((s.modMbx mbx (fun m => { m with reqTail := value.setWidth 16 })).resetMbx mbx 3 3).hostFlag 0x20#32)) := by
  show finish s (s.tailWrite port mbx value) = _
  rw [State.tailWrite, doorbell_reached h, if_pos ⟨hs, hv⟩]
  rfl

end

section
variable {s : State}

/-- What CLOSE leaves of a mailbox, its requests and the outstanding commands. -/
theorem close_changes (n : Nat) {t : State} (ht : t = State.done s ((s.endSession n).modMbx n (fun m =>
      { m with state := .closing, unsignalled := 0 }))) :
    (t.mbxAt n).state = .closing ∧ OnlyMbx n s t ∧
      t.host.fetched = s.host.fetched.filter (fun f => f.mbx != n) ∧
      (∀ o ∈ t.host.outst, o.mbx = n → o.orphan = true) ∧ KeptBut [.mbx, .requests, .twin, .misc] s t := by
  subst ht
  refine ⟨?_, fun k hk => ?_, done_host_fetched .., fun o ho hn => ?_, ?_⟩
  · rw [done_mbxAt, mbxAt_modMbx_self]
  · rw [done_mbxAt, mbxAt_modMbx_other _ _ hk, endSession_mbxAt]
  · rw [done_host_outst] at ho
    obtain ⟨x, -, rfl⟩ := List.mem_map.mp ho
    by_cases hx : x.mbx = n
    · simp only [if_pos hx]
    · rw [if_neg hx] at hn
      exact absurd hn hx
  · exact (endSession_spares.trans (modMbx_spares (by decide) _ _)).done

end

/-- Settles O1: each doorbell that reaches its mailbox is a change of that mailbox (`modMbx_changes`), CLOSE with the
end of its session. -/
theorem doorbellsMoveMailboxStates : Obligations.DoorbellsMoveMailboxStates := by
  unfold Obligations.DoorbellsMoveMailboxStates
  refine ⟨fun s port mbx arg h hs => ⟨_, exec_rspHead h hs, ?_⟩, fun s port mbx arg h hs => ⟨_, exec_setupLo h hs, ?_⟩,
    fun s port mbx arg h hs => ⟨_, exec_setupHi h hs, ?_⟩,
    fun s port mbx h hs => ⟨_, exec_close h hs, close_changes mbx rfl⟩,
    fun s mbx hs => ⟨_, exec_mailboxClosed hs, ?_⟩, fun s port mbx h hs => ⟨_, exec_ackReset h hs, ?_⟩,
    fun s port mbx value h hv => ⟨_, exec_mbxTailWrite_within h hv, ?_⟩⟩
  all_goals
    obtain ⟨hm, honly, hkept⟩ := modMbx_changes (s := s) (n := mbx) _
    rw [hm]
  · exact ⟨rfl, rfl, rfl, honly, hkept⟩
  · exact ⟨rfl, hs, honly, hkept⟩
  · exact ⟨rfl, rfl, rfl, rfl, honly, hkept⟩
  · exact ⟨rfl, rfl, honly, hkept⟩
  · exact ⟨rfl, rfl, rfl, honly, hkept⟩
  · exact ⟨rfl, rfl, honly, hkept⟩

end Sys2Proof.Machine

/-! SUPPORT. Setup of a mailbox, a request fetched and its first checks (R535, R536, R555), and the obligations on
both. -/

namespace Sys2Proof.Machine

section
variable {s : State} {mbx : Nat} {block desc : BitVec 512} {input : HostRead} {l : List Piece}

/-! ### Setup blocks -/

theorem exec_setupBlockCheck_valid (hm : s.rst.mgmtUp = true) (hb : (s.mbxAt mbx).setupBusy = true)
    (hc : (s.mbxAt mbx).state = .closed) (hp : (s.mbxAt mbx).port = .pcie) (hr : s.reaches .pcie = true)
    (hok : setupOk block = true) : exec (.setupBlockCheck mbx .ok block) s =
      .next (State.done s (s.modMbx mbx (fun m => m.opening block))) := by
  show execSetupBlockCheck mbx .ok block s = _
  simp [execSetupBlockCheck, finish, hm, hb, hc, hp, hr, hok]

theorem exec_setupBlockCheck_invalid (hm : s.rst.mgmtUp = true) (hb : (s.mbxAt mbx).setupBusy = true)
    (hc : (s.mbxAt mbx).state = .closed) (hp : (s.mbxAt mbx).port = .pcie) (hr : s.reaches .pcie = true)
    (hok : setupOk block = false) : exec (.setupBlockCheck mbx .ok block) s =
      .next (State.done s ((s.resetMbx mbx 6 stRange).hostFlag 0x100#32)) := by
  show execSetupBlockCheck mbx .ok block s = _
  simp [execSetupBlockCheck, finish, hm, hb, hc, hp, hr, hok]

/-- A fault of a mailbox with a bit of HOST_FLAGS, whatever its entry was changed to before. -/
theorem fault_changes {u t : State} (hu : Spares [.mbx] s u) (ho : ∀ k, k ≠ mbx → u.mbxAt k = s.mbxAt k)
    (reason code : Nat) (m : Word) (ht : t = State.done s ((u.resetMbx mbx reason code).hostFlag m)) :
    t.mbxAt mbx = (u.mbxAt mbx).resetTo reason code ∧ t.host.flags = s.host.flags ||| m ∧
      t.host.mbxRst = bump s.host.mbxRst ∧ OnlyMbx mbx s t ∧ KeptBut sessionParts s t := by
  subst ht
  obtain ⟨hflags, hrst, -⟩ := hu.parts .hostRegs (by decide)
  refine ⟨?_, ?_, ?_, fun k hk => ?_, ?_⟩
  · rw [done_mbxAt, hostFlag_mbxAt, resetMbx_mbxAt_self]
  · rw [done_host_flags, ← hflags]
    rfl
  · rw [done_host_mbxRst, ← hrst]
    rfl
  · rw [done_mbxAt, hostFlag_mbxAt, resetMbx_mbxAt_other hk, ho k hk]
  · exact ((hu.mono (by decide)).trans ((resetMbx_spares ..).trans (hostFlag_spares (by decide) _))).done

/-! ### Fetching -/

/-- The mailbox as a request is fetched from its ring (R536). -/
def Mbx.fetches (m : Mbx) : Mbx := { m with reqHead := m.reqHead + 1#16 }

theorem exec_requestFetch (hm : s.rst.mgmtUp = true) (ho : (s.mbxAt mbx).state = .opened)
    (hp : (s.mbxAt mbx).port = .pcie) (hh : (s.mbxAt mbx).reqHead ≠ (s.mbxAt mbx).reqTail)
    (hf : s.slotFree mbx = true) (hr : s.reaches .pcie = true) : exec (.requestFetch mbx .ok desc input) s =
      .next (State.done s (s.fetched mbx desc input)) := by
  show execRequestFetch mbx .ok desc input s = _
  simp [execRequestFetch, finish, hm, ho, hp, hh, hf, hr]

theorem fetched_port (hp : (s.mbxAt mbx).port = .pcie) : ((s.modMbx mbx Mbx.fetches).mbxAt mbx).port = .pcie := by
  rw [mbxAt_modMbx_self, ← hp]
  rfl

/-- What is fetched of a descriptor (Table 21.1). -/
def fetchedOf (mbx : Nat) (desc : BitVec 512) : Fetched :=
  ⟨mbx, bits desc 15 0, desc.extractLsb' 16 16, desc.getLsbD 33, desc.getLsbD 32, bits desc 191 160,
    desc.extractLsb' 192 64⟩

/-- A request joins those that are fetched and wait to begin. -/
def State.addFetched (s : State) (f : Fetched) : State :=
  { s with host := { s.host with fetched := s.host.fetched ++ [f] } }

@[simp] theorem addFetched_mbxAt (f : Fetched) (k : Nat) : (s.addFetched f).mbxAt k = s.mbxAt k := rfl

theorem addFetched_spares (hl : .requests ∈ l) (f : Fetched) : Spares l s (s.addFetched f) :=
  ⟨rfl, fun p hp => by cases p <;> simp_all [Kept, State.addFetched]⟩

theorem fetched_pass (hp : (s.mbxAt mbx).port = .pcie) (hc : firstChecks desc .pcie input = none) :
    s.fetched mbx desc input = (s.modMbx mbx Mbx.fetches).addFetched (fetchedOf mbx desc) := by
  unfold State.fetched
  extract_lets u f
  have hport : (u.mbxAt mbx).port = .pcie := fetched_port hp
  rw [hport, hc]
  rfl

/-- The response of a request that its first checks refuse. -/
def refusedResponse (s : State) (desc : BitVec 512) (st detail : Nat) : Response :=
  { opcode := bits desc 15 0, tag := desc.extractLsb' 16 16, status := st, trunc := false, cancelled := false
    outWritten := 0, detail := BitVec.ofNat 32 detail, mtAccept := s.mt.mt, mtDone := s.mt.mt
    castSeq := s.sets.castSeq, result := [], out := [] }

/-- Put a response into a mailbox. -/
def State.respond (s : State) (n : Nat) (x : BitVec 64) (q : Response) : State :=
  { s with host := s.host.writeResponse n x q }

theorem fetched_refused {st detail : Nat} (ho : (s.mbxAt mbx).state = .opened) (hp : (s.mbxAt mbx).port = .pcie)
    (hc : firstChecks desc .pcie input = some (st, detail)) (hst : st ≠ stHostErr) :
    s.fetched mbx desc input = (s.modMbx mbx Mbx.fetches).respond mbx (desc.extractLsb' 192 64)
        (refusedResponse s desc st detail) := by
  unfold State.fetched
  extract_lets u f
  have hport : (u.mbxAt mbx).port = .pcie := fetched_port hp
  have hopen : (u.mbxAt mbx).state = .opened := by rw [← ho, mbxAt_modMbx_self]
  have hq : responseFor ⟨mbx, f.opcode, f.tag, f.outLen, f.outAddr, u.mt.mt⟩ { status := st, detail := detail } u.mt.mt
      u.sets.castSeq = refusedResponse s desc st detail := by
    simp [responseFor, refusedResponse, u, f]
  rw [hport, hc]
  simp only [if_neg hst, State.answer, hopen, if_true, hq]
  rfl

/-- A response to a mailbox of the PCIe port leaves the service window alone. -/
theorem writeResponse_pcie {h : HostIf} {n : Nat} (hp : (tget Mbx.init h.mbx n).port = .pcie) (x : BitVec 64)
    (q : Response) : ∃ m y z i, h.writeResponse n x q =
      { h with mbx := tput h.mbx n m, sent := y, pba := z, irqPend := i } ∧
      m.responses = (tget Mbx.init h.mbx n).responses ++ [q] ∧ m.reqHead = (tget Mbx.init h.mbx n).reqHead := by
  have hb : h.writeBack (tget Mbx.init h.mbx n) x q = h := by
    unfold HostIf.writeBack
    rw [hp]
  simp only [HostIf.writeResponse, hb]
  split
  · obtain ⟨y, z, i, hv⟩ := vecOf_eq _ _ _
    exact ⟨_, y, z, i, hv, rfl, rfl⟩
  · exact ⟨_, _, _, _, rfl, rfl, rfl⟩

theorem respond_pcie {n : Nat} (hp : (s.mbxAt n).port = .pcie) (x : BitVec 64) (q : Response) :
    ((s.respond n x q).mbxAt n).responses = (s.mbxAt n).responses ++ [q] ∧
      ((s.respond n x q).mbxAt n).reqHead = (s.mbxAt n).reqHead ∧
      (∀ k, k ≠ n → (s.respond n x q).mbxAt k = s.mbxAt k) ∧ Spares [.mbx] s (s.respond n x q) := by
  obtain ⟨m, y, z, i, he, hres, hhead⟩ := writeResponse_pcie (h := s.host) hp x q
  have hm : (s.respond n x q).mbxAt n = m := by
    rw [State.mbxAt, State.respond, he]
    exact tget_tput_self
  refine ⟨hm ▸ hres, hm ▸ hhead, fun k hk => ?_, ?_, fun p hp => ?_⟩
  · rw [State.mbxAt, State.respond, he]
    exact tget_tput_other hk
  · rfl
  · cases p <;> simp_all [Kept, State.respond]

theorem requestFetch_pass (hp : (s.mbxAt mbx).port = .pcie) (hc : firstChecks desc .pcie input = none)
    {t : State} (ht : t = State.done s (s.fetched mbx desc input)) :
    (t.mbxAt mbx).reqHead = (s.mbxAt mbx).reqHead + 1#16 ∧
      t.host.fetched = s.host.fetched ++ [fetchedOf mbx desc] ∧ t.host.outst = s.host.outst ∧
      (t.mbxAt mbx).responses = (s.mbxAt mbx).responses ∧ OnlyMbx mbx s t ∧ KeptBut [.mbx, .requests] s t := by
  rw [fetched_pass hp hc] at ht
  subst ht
  refine ⟨?_, done_host_fetched .., done_host_outst .., ?_, fun k hk => ?_, ?_⟩
  · rw [done_mbxAt, addFetched_mbxAt, mbxAt_modMbx_self, Mbx.fetches]
  · rw [done_mbxAt, addFetched_mbxAt, mbxAt_modMbx_self, Mbx.fetches]
  · rw [done_mbxAt, addFetched_mbxAt, mbxAt_modMbx_other _ _ hk]
  · exact ((modMbx_spares (by decide) ..).trans (addFetched_spares (by decide) _)).done

theorem requestFetch_refused {st detail : Nat} (ho : (s.mbxAt mbx).state = .opened) (hp : (s.mbxAt mbx).port = .pcie)
    (hc : firstChecks desc .pcie input = some (st, detail)) (hst : st ≠ stHostErr) {t : State}
    (ht : t = State.done s (s.fetched mbx desc input)) :
    (t.mbxAt mbx).reqHead = (s.mbxAt mbx).reqHead + 1#16 ∧
      (t.mbxAt mbx).responses = (s.mbxAt mbx).responses ++ [refusedResponse s desc st detail] ∧
      t.host.fetched = s.host.fetched ∧ t.host.outst = s.host.outst ∧ OnlyMbx mbx s t ∧ KeptBut [.mbx] s t := by
  rw [fetched_refused ho hp hc hst] at ht
  subst ht
  obtain ⟨hres, hhead, hother, hspares⟩ := respond_pcie (fetched_port hp) (desc.extractLsb' 192 64)
    (refusedResponse s desc st detail)
  obtain ⟨hfetched, houtst⟩ := hspares.parts .requests (by decide)
  refine ⟨?_, ?_, ?_, ?_, fun k hk => ?_, ((modMbx_spares (by decide) ..).trans hspares).done⟩
  · rw [done_mbxAt, hhead, mbxAt_modMbx_self, Mbx.fetches]
  · rw [done_mbxAt, hres, mbxAt_modMbx_self, Mbx.fetches]
  · rw [done_host_fetched, hfetched]
    rfl
  · rw [done_host_outst, houtst]
    rfl
  · rw [done_mbxAt, hother k hk, mbxAt_modMbx_other _ _ hk]

end

/-- Settles O2: a valid block is a change of its mailbox, and each fault as `fault_changes` gives it. -/
theorem mailboxSetupAndFaults : Obligations.MailboxSetupAndFaults := by
  unfold Obligations.MailboxSetupAndFaults
  refine ⟨fun s mbx block hm hb hc hp hr hok => ⟨_, exec_setupBlockCheck_valid hm hb hc hp hr hok, ?_⟩,
    fun s mbx block hm hb hc hp hr hok => ⟨_, exec_setupBlockCheck_invalid hm hb hc hp hr hok, ?_⟩,
    fun s port mbx value h hs hv => ⟨_, exec_mbxTailWrite_beyond h hs hv, ?_⟩⟩
  · obtain ⟨hself, honly, hkept⟩ := modMbx_changes (s := s) (n := mbx) (fun m => m.opening block)
    rw [hself]
    exact ⟨rfl, rfl, rfl, rfl, rfl, rfl, rfl, rfl, rfl, rfl, honly, hkept⟩
  · obtain ⟨hself, hflags, hrst, honly, hkept⟩ := fault_changes (mbx := mbx) .refl (fun _ _ => rfl) 6 stRange 0x100#32 rfl
    rw [hself]
    exact ⟨rfl, rfl, rfl, hflags, hrst, honly, hkept⟩
  · obtain ⟨hself, hflags, -, honly, hkept⟩ := fault_changes (mbx := mbx)
      (modMbx_spares (by decide) mbx (fun m => { m with reqTail := value.setWidth 16 }))
      (fun k hk => mbxAt_modMbx_other _ _ hk) 3 3 0x20#32 rfl
    rw [hself]
    exact ⟨rfl, rfl, rfl, hflags, honly, hkept⟩

/-- Settles O3: a request fetched from its ring waits (`requestFetch_pass`) or is answered (`requestFetch_refused`). -/
theorem fetchChecksRequests : Obligations.FetchChecksRequests := by
  unfold Obligations.FetchChecksRequests
  exact ⟨fun s mbx desc input hm ho hp hh hf hr hc =>
      ⟨_, exec_requestFetch hm ho hp hh hf hr, requestFetch_pass hp hc rfl⟩,
    fun s mbx desc input st detail hm ho hp hh hf hr hc hst =>
      ⟨_, exec_requestFetch hm ho hp hh hf hr, requestFetch_refused ho hp hc hst rfl⟩⟩

end Sys2Proof.Machine

/-! The session's own commands (R560, R561, Table 21.8), and the obligation they settle: SES_CANCEL answers the command
it stops before it is answered itself. -/

namespace Sys2Proof.Machine

section
variable {s u : State} {r : Req} {w : Waiter} {a : Answer} {tag : BitVec 16} {o : Outstanding}

/-- An answer to a mailbox in service is its newest response; the mailbox stays in service. -/
theorem answer_mbxAt (h : (s.mbxAt w.mbx).state = .opened) :
    ((s.answer w a).mbxAt w.mbx).responses =
      (s.mbxAt w.mbx).responses ++ [responseFor w a s.mt.mt s.sets.castSeq] ∧
    ((s.answer w a).mbxAt w.mbx).state = .opened := by
  have hs : (s.answer w a).mbxAt w.mbx = tget Mbx.init
      (s.host.writeResponse w.mbx w.outAddr (responseFor w a s.mt.mt s.sets.castSeq)).mbx w.mbx := by
    rw [State.answer, if_pos h]
    rfl
  rw [hs]
  simp only [HostIf.writeResponse]
  obtain ⟨c, hc⟩ := writeBack_eq s.host (tget Mbx.init s.host.mbx w.mbx) w.outAddr
    (responseFor w a s.mt.mt s.sets.castSeq)
  rw [hc]
  split
  · obtain ⟨y, z, i, hv⟩ := vecOf_eq _ _ _
    rw [hv, tget_tput_self]
    exact ⟨rfl, h⟩
  · rw [tget_tput_self]
    exact ⟨rfl, h⟩

theorem answer_outst : (s.answer w a).host.outst = s.host.outst := by
  obtain ⟨m, c, y, z, i, e⟩ := answer_eq s w a
  rw [e]

theorem exec_sesInfo (ha : Accepts s r 0x0101 {}) : exec (.sesInfo r) s =
    .next (State.done s ((s.take r).ok r 0x0101
      (leBytes 1 2 ++ leBytes 1 0 ++ leBytes 1 r.mbx ++ leBytes 1 (portCode (s.mbxAt r.mbx).port) ++
        leBytes 1 (s.mbxAt r.mbx).reqLog2 ++ leBytes 1 (s.mbxAt r.mbx).rspLog2 ++
        leBytes 2 (s.outstOf r.mbx).length ++ leBytes 2 s.host.outst.length)
      ((s.outstOf r.mbx).flatMap (fun o => leBytes 2 o.tag.toNat ++ leBytes 2 o.opcode ++ leBytes 1 o.phase ++
        leBytes 3 0 ++ leBytes 8 o.mtAccept.toNat)))) := by
  show execSesInfo r s = _
  rw [execSesInfo, umser_accepts ha]
  rfl

theorem exec_sesCancel_absent (ha : Accepts s r 0x0102 {})
    (hn : (s.outstOf r.mbx).find? (fun o => o.tag == tag) = none) : exec (.sesCancel r tag) s =
      .next (State.done s ((s.take r).reply r 0x0102 { status := stNotFound })) := by
  have hn' : ((s.take r).outstOf r.mbx).find? (fun o => o.tag == tag) = none := hn
  show execSesCancel r tag s = _
  rw [execSesCancel, umser_accepts ha]
  simp only [hn']
  rfl

/-- A validation that is the only outstanding command is stopped and answered, then the cancel is. -/
theorem exec_sesCancel_validate (ha : Accepts s r 0x0102 {}) (ho : s.host.outst = [o])
    (hm : o.mbx = r.mbx) (ht : o.tag = tag) (hl : o.orphan = false) (hop : o.opcode = 0x0502) :
    exec (.sesCancel r tag) s =
      .next (State.done s (((s.take r).unfreeze.cancelled o []).ok r 0x0102 [] [])) := by
  have hfind : ((s.take r).outstOf r.mbx).find? (fun x => x.tag == tag) = some o := by
    simp [State.outstOf, ho, hm, hl, ht]
  have hcancel : (s.take r).cancel o = (stOk, (s.take r).unfreeze.cancelled o []) := by
    rw [State.cancel, if_neg (by rw [hop]; omega), if_pos (.inr hop)]
  show execSesCancel r tag s = _
  rw [execSesCancel, umser_accepts ha]
  simp only [hfind, hcancel, if_true]

/-- What the two answers of a cancelled validation leave. -/
theorem cancelled_changes (hopen : (s.mbxAt r.mbx).state = .opened) (ho : s.host.outst = [o])
    (hm : o.mbx = r.mbx) (ht : o.tag = tag) (hl : o.orphan = false) (hop : o.opcode = 0x0502) {t : State}
    (he : t = State.done s (((s.take r).unfreeze.cancelled o []).ok r 0x0102 [] [])) :
    t.host.outst = [] ∧ t.sets.frozen = false ∧
      (t.mbxAt r.mbx).responses.map (fun q => (q.opcode, q.tag, q.status, q.cancelled)) =
        (s.mbxAt r.mbx).responses.map (fun q => (q.opcode, q.tag, q.status, q.cancelled)) ++
          [(0x0502, tag, stAborted, true), (0x0102, r.tag, stOk, false)] ∧
      KeptBut [.mbx, .requests, .window, .sets] s t := by
  subst he
  generalize hv : (s.take r).unfreeze = v
  have hspares : Spares [.requests, .sets] s v :=
    hv ▸ (take_spares (by decide)).trans (unfreeze_spares _ (by decide))
  have hthaw : Spares [.sets] (s.take r) v := hv ▸ unfreeze_spares _ (by decide)
  obtain ⟨-, houtst⟩ := hthaw.parts .requests (by decide)
  have hmbx : v.host.mbx = s.host.mbx := hthaw.parts .mbx (by decide)
  have hat (n : Nat) : v.mbxAt n = s.mbxAt n := by rw [State.mbxAt, hmbx]; rfl
  have hfrozen : v.sets.frozen = false := by
    obtain ⟨m, d, hs⟩ := unfreeze_sets (s.take r)
    rw [← hv, hs]
  have hlist : v.host.outst = [o] := houtst.trans ho
  have his : o.is o = true := by simp [Outstanding.is]
  have hcut : v.cancelled o [] = (v.unlist o.is).answer o.waiter { status := stAborted, cancelled := true } := by
    rw [State.cancelled, complete_found (o := o) _ (by rw [hlist, List.find?_cons_of_pos his]), hl]
    rfl
  have hfirst : ((v.unlist o.is).mbxAt o.waiter.mbx).state = .opened :=
    (congrArg Mbx.state (hat o.mbx)).trans (hm ▸ hopen)
  obtain ⟨hres, hst⟩ := answer_mbxAt (a := { status := stAborted, cancelled := true }) hfirst
  rw [← hcut] at hres hst
  obtain ⟨hres', -⟩ := answer_mbxAt (w := waiterOf r 0x0102 (v.cancelled o [])) (a := { status := stOk })
    (show ((v.cancelled o []).mbxAt r.mbx).state = .opened from hm ▸ hst)
  refine ⟨?_, ?_, ?_, ?_⟩
  · rw [done_host_outst, State.ok, State.reply, answer_outst, hcut, answer_outst, State.unlist, hlist, dropFirst,
      if_pos his]
  · rw [done_sets, State.ok, State.reply, answer_sets, hcut, answer_sets]
    exact hfrozen
  · have hw : o.waiter.mbx = r.mbx := hm
    have hold : ((v.unlist o.is).mbxAt r.mbx).responses = (s.mbxAt r.mbx).responses :=
      congrArg Mbx.responses (hat r.mbx)
    rw [hw, hold] at hres
    rw [done_mbxAt, State.ok, State.reply]
    erw [hres', hres]
    simp [responseFor, Outstanding.waiter, waiterOf, hop, ht]
  · have hcancel : Spares [.mbx, .requests, .window, .sets] v (v.cancelled o []) := by
      obtain ⟨m, c, y, z, i, n, e⟩ := complete_eq v o.is { status := stAborted, cancelled := true }
      exact ⟨by rw [State.cancelled, e], fun p hp => kept_complete (by decide) (by decide) (by decide) hp⟩
    exact ((hspares.mono (by decide)).trans (hcancel.trans ((ok_spares [] []).mono (by decide)))).done

end

/-- Settles O4: the query only answers, and a cancel of a validation answers twice (`cancelled_changes`). -/
theorem sessionQueriesAndCancel : Obligations.SessionQueriesAndCancel := by
  unfold Obligations.SessionQueriesAndCancel
  refine ⟨fun s r ha => ⟨_, exec_sesInfo ha, take_ok_done ha⟩,
    fun s r tag ha hn => ⟨_, exec_sesCancel_absent ha hn, answers_of_reply (opened_of_accepts ha) rfl rfl rfl, ?_⟩,
    fun s r tag o ha ho his => ?_⟩
  · exact ((take_spares (by decide)).trans (answer_spares (by decide) (by decide) _ _)).done
  · obtain ⟨hm, ht, hl, hop⟩ := his
    exact ⟨_, exec_sesCancel_validate ha ho hm ht hl hop,
      cancelled_changes (opened_of_accepts ha) ho hm ht hl hop rfl⟩

end Sys2Proof.Machine

/-! SUPPORT. Host drain rings (R540 to R542, R571): changes of one ring, what a ring gives back to its queues, and the
reads of the Mire that a ring ends. -/

namespace Sys2Proof.Machine

section
variable {s u : State} {l : List Piece} {ring qid : Nat}

theorem modHdr_spares (hl : .hdr ∈ l) (n : Nat) (f : Hdr → Hdr) : Spares l s (s.modHdr n f) :=
  ⟨rfl, fun p hp => by cases p <;> simp_all [Kept, State.modHdr]⟩

theorem modQue_spares (hl : .que ∈ l) (q : Nat) (f : Queue → Queue) : Spares l s (s.modQue q f) := spares_que hl

theorem onlyHdr_modHdr (f : Hdr → Hdr) : OnlyHdr ring s (s.modHdr ring f) := fun _ hk => hdrAt_modHdr_other _ _ hk

/-- A command whose work is a change of one ring changes that ring alone. -/
theorem modHdr_changes (f : Hdr → Hdr) : (State.done s (s.modHdr ring f)).hdrAt ring = f (s.hdrAt ring) ∧
    OnlyHdr ring s (State.done s (s.modHdr ring f)) ∧ KeptBut [.hdr] s (State.done s (s.modHdr ring f)) :=
  ⟨by rw [done_hdrAt, hdrAt_modHdr_self], fun k hk => by rw [done_hdrAt, hdrAt_modHdr_other _ _ hk],
    (modHdr_spares (by decide) ring f).done⟩

@[simp] theorem ok_hdrAt (r : Req) (op : Nat) (res out : List Byte) (k : Nat) :
    (u.ok r op res out).hdrAt k = u.hdrAt k := by
  obtain ⟨m, c, y, z, i, e⟩ := answer_eq u (waiterOf r op u) { status := stOk, result := res, out := out }
  rw [State.ok, State.reply, e]
  rfl

/-- A ring without queues gives nothing back. -/
theorem giveBack_unbound (h : (s.hdrAt ring).bound = []) : s.giveBack ring = s := by
  rw [State.giveBack, h, List.foldl_nil]

theorem giveBack_spares (hl : .que ∈ l) (ring : Nat) : Spares l s (s.giveBack ring) :=
  .foldl (fun _ _ => modQue_spares hl ..) _ _

theorem giveBack_host (ring : Nat) : (s.giveBack ring).host = s.host := by
  unfold State.giveBack
  generalize (s.hdrAt ring).bound = qs
  induction qs generalizing s with
  | nil => rfl
  | cons q qs ih => rw [List.foldl_cons, ih, modQue_host]

/-- Without reads of the Mire none is ended. -/
theorem abortReads_none (h : s.sto.reads = []) (p : MireRead → Bool) : s.abortReads p = s := by
  have hs : { s.sto with reads := [] } = s.sto := by rw [← h]
  unfold State.abortReads
  simp only [h, List.filter_nil, List.foldl_nil, hs]

/-! ### The requests about rings -/

/-- The parts of the state that an answer reads and changes, the sets apart. -/
def answerParts : List Piece := [.requests, .mbx, .window, .mt]

/-- A request is answered when what was done before left the mailboxes, the window, the requests, the time and the
Cast's number as they were. -/
theorem answers_of_spares {r : Req} {op : Nat} {a : Answer} (ho : (s.mbxAt r.mbx).state = .opened)
    (hu : Spares l (s.take r) u) (hl : ∀ p ∈ answerParts, p ∉ l) (hc : u.sets.castSeq = s.sets.castSeq) :
    Answers s (State.done s (u.reply r op a)) r op a := by
  obtain ⟨hfetched, houtst⟩ := hu.parts .requests (hl _ (by decide))
  have hmbx : u.host.mbx = s.host.mbx := hu.parts .mbx (hl _ (by decide))
  have hwin : u.host.window = s.host.window := hu.parts .window (hl _ (by decide))
  have hmt : u.mt = s.mt := hu.parts .mt (hl _ (by decide))
  have hat (n : Nat) : u.mbxAt n = s.mbxAt n := by rw [State.mbxAt, hmbx]; rfl
  have he : (u.reply r op a).host =
      u.host.writeResponse r.mbx r.outAddr (responseTo s r op a s.sets.castSeq) := by
    simp only [State.reply, State.answer, waiterOf, hat, ho, if_pos, responseTo, hmt, hc]
  obtain ⟨m, c, y, z, i, e, hnew, hc⟩ := writeResponse_eq u.host r.mbx r.outAddr
    (responseTo s r op a s.sets.castSeq)
  refine ⟨?_, fun n hn => ?_, ?_, ?_, fun x hx => ?_⟩
  · rw [done_mbxAt, State.mbxAt, he, e, tget_tput_self, hnew, ← hat]; rfl
  · rw [done_mbxAt, State.mbxAt, he, tget_writeResponse_other hn, ← hat]; rfl
  · rw [done_host_fetched, he, e, hfetched]
  · rw [done_host_outst, he, e, houtst]; rfl
  · rw [done_host_window, he, e]
    simp only
    have hm : tget Mbx.init u.host.mbx r.mbx = s.mbxAt r.mbx := hat r.mbx
    rw [hc, cellGet_writeBack]
    · rw [hwin]
    · rw [hm]
      simpa [answerWrites, windowWrites, responseTo, responseFor, waiterOf, List.length_take] using hx

/-- The end of a step that changes a ring for a request and answers ST_OK. -/
def State.hdrOk (s : State) (r : Req) (op ring : Nat) (f : Hdr → Hdr) : State :=
  State.done s (((s.take r).modHdr ring f).ok r op [] [])

/-- The request is answered, and that ring is all that has changed besides. -/
theorem hdrOk_changes {r : Req} {op : Nat} {g : Gate} (h : Accepts s r op g) (f : Hdr → Hdr) {x : Hdr}
    (hx : f (s.hdrAt ring) = x) : Answers s (s.hdrOk r op ring f) r op ⟨stOk, 0, [], [], false⟩ ∧
      (s.hdrOk r op ring f).hdrAt ring = x ∧ OnlyHdr ring s (s.hdrOk r op ring f) ∧
      KeptBut [.mbx, .requests, .window, .hdr] s (s.hdrOk r op ring f) := by
  have hs : Spares [.mbx, .requests, .window, .hdr] s (((s.take r).modHdr ring f).ok r op [] []) :=
    ((take_spares (by decide)).trans (modHdr_spares (by decide) _ _)).trans ((ok_spares [] []).mono (by decide))
  refine ⟨?_, ?_, fun k hk => ?_, hs.done⟩
  · exact answers_of_spares (opened_of_accepts h) (modHdr_spares (l := [.hdr]) (by decide) _ _) (by decide) rfl
  · rw [State.hdrOk, done_hdrAt, ok_hdrAt, hdrAt_modHdr_self, take_hdrAt, hx]
  · rw [State.hdrOk, done_hdrAt, ok_hdrAt, hdrAt_modHdr_other _ _ hk, take_hdrAt]

end

section
variable {s : State} {r : Req} {ring qid first count log2 vector modN modUs : Nat} {auto : Bool} {base : BitVec 64}
  {qids : List Nat}

/-- A ring that HDR_OPEN opens (R540, R571). -/
def Hdr.opens (h : Hdr) (log2 vector modN modUs : Nat) (auto : Bool) (base : BitVec 64) (port : Port) : Hdr :=
  { h with
    state := .opened, log2 := log2, vector := vector, modN := modN, modUs := modUs, auto := auto, base := base
    port := port, write := 0#32, head := 0#32, packets := [], flushBusy := false, unflushed := 0, unsignalled := 0 }

theorem exec_hdrOpen (ha : Accepts s r 0x0103 {}) (hring : ring < 64) (hlog : 6 ≤ log2 ∧ log2 ≤ 20)
    (hvec : vector = 0xFFFF ∨ (264 ≤ vector ∧ vector ≤ 279)) (hn : 1 ≤ modN ∧ modN ≤ 256) (hus : modUs ≤ 1000)
    (hbase : bits base 11 0 = 0 ∧ bits base 63 62 = 0) (hc : (s.hdrAt ring).state = .closed)
    (hb : (s.hdrAt ring).bound = []) : exec (.hdrOpen r ring log2 vector modN modUs auto base) s = .next
      (s.hdrOk r 0x0103 ring (fun h => h.opens log2 vector modN modUs auto base (s.mbxAt r.mbx).port)) := by
  have hlog' : ¬ (log2 < 6 ∨ 20 < log2) := by omega
  have hvec' : (vector != 0xFFFF && (decide (vector < 264) || decide (279 < vector))) = false := by
    rcases hvec with rfl | h
    · rfl
    · simp; omega
  have hn' : ¬ (modN = 0 ∨ 256 < modN) := by omega
  have hbase' : (bits base 11 0 != 0 || bits base 63 62 != 0) = false := by simp [hbase.1, hbase.2]
  have hfree : ((s.hdrAt ring).foreign (s.mbxAt r.mbx).port || (s.hdrAt ring).state == .opened ||
      (s.hdrAt ring).state == .closing) = false := by simp [Hdr.foreign, hc]
  have hback : (s.take r).giveBack ring = s.take r := giveBack_unbound hb
  show execHdrOpen r ring log2 vector modN modUs auto base s = _
  rw [execHdrOpen, umser_accepts ha]
  simp only [take_hdrAt, take_mbxAt, Nat.not_le.mpr hring, hlog', hvec', hn', Nat.not_lt.mpr hus, hbase', hfree, hback,
    if_false, Bool.false_eq_true]
  rfl

theorem exec_hdrBind (ha : Accepts s r 0x0105 {}) (hring : ring < 64) (hq : qids ≠ [] ∧ qids.length ≤ 64)
    (hs : ∀ q ∈ qids, streamOk q = true) (hf : (s.hdrAt ring).foreign (s.mbxAt r.mbx).port = false)
    (he : ∀ q ∈ qids, s.boundElsewhere ring q = false) : exec (.hdrBind r ring qids) s =
      .next (s.hdrOk r 0x0105 ring (fun h => { h with bound := qids.foldl insAsc h.bound })) := by
  have hq' : ¬ (qids = [] ∨ 64 < qids.length) := by
    rw [not_or, Nat.not_lt]
    exact hq
  have hstream : (List.range qids.length).find? (fun i => !streamOk (qids.getD i 0)) = none := by
    refine List.find?_eq_none.mpr fun i hi => ?_
    have hlt : i < qids.length := List.mem_range.mp hi
    rw [List.getD_eq_getElem _ _ hlt, hs _ (List.getElem_mem hlt)]
    decide
  have hany : qids.any ((s.take r).boundElsewhere ring) = false := List.any_eq_false.mpr fun q hm =>
    Bool.eq_false_iff.mp (he q hm)
  show execHdrBind r ring qids s = _
  rw [execHdrBind, umser_accepts ha]
  simp only [take_hdrAt, take_mbxAt, Nat.not_le.mpr hring, hq', hstream, hf, hany, Bool.or_self, if_false,
    Bool.false_eq_true]
  rfl

theorem mem_foldl_insAsc (qs l : List Nat) (k : Nat) : k ∈ qs.foldl insAsc l ↔ k ∈ qs ∨ k ∈ l := by
  induction qs generalizing l with
  | nil => simp
  | cons q qs ih => rw [List.foldl_cons, ih, mem_insAsc, List.mem_cons]; tauto

theorem exec_hdrStatusRead (ha : Accepts s r 0x0107 {}) (hf : first < 64) (hc : count ≠ 0 ∧ first + count ≤ 64) :
    exec (.hdrStatusRead r first count) s = .next (State.done s ((s.take r).ok r 0x0107 []
      ((List.range count).flatMap (fun i => (s.hdrAt (first + i)).bytes)))) := by
  have hc' : ¬ (count = 0 ∨ 64 < first + count) := by omega
  show execHdrStatusRead r first count s = _
  rw [execHdrStatusRead, umser_accepts ha]
  simp only [take_hdrAt, Nat.not_le.mpr hf, hc', if_false]

/-! ### HDR_CLOSE of a ring with nothing to flush -/

/-- A ring that has closed for good. -/
def Hdr.closes (h : Hdr) : Hdr :=
  { h with state := .closed, packets := [], flushBusy := false, unflushed := 0, unsignalled := 0 }

/-- The state with no command outstanding. -/
def State.noneOutst (s : State) : State := { s with host := { s.host with outst := [] } }

theorem noneOutst_same (h : s.host.outst = []) : s.noneOutst = s := by
  have hh : { s.host with outst := [] } = s.host := by rw [← h]
  rw [State.noneOutst, hh]

/-- Completing all of one outstanding command answers it. -/
theorem completeAll_single {u : State} {o : Outstanding} {p : Outstanding → Bool} (h : u.host.outst = [o])
    (hp : p o = true) (ho : o.orphan = false) (a : Outstanding → Answer) :
    u.completeAll p a = u.noneOutst.answer o.waiter (a o) := by
  unfold State.completeAll
  simp only [h, List.filter_cons_of_pos hp, List.filter_nil, List.foldl_cons, List.foldl_nil, ho]
  simp [hp, State.noneOutst]

/-- A ring without queues that no read of the Mire goes to closes, and its closing commands complete. -/
theorem closeRing_unbound {u : State} (hb : (u.hdrAt ring).bound = []) (hr : u.sto.reads = []) :
    u.closeRing ring = (u.modHdr ring Hdr.closes).completeAll (fun o => o.opcode == 0x0104 && o.obj == ring)
      (fun _ => { status := stOk, result := leBytes 4 ((u.hdrAt ring).write - 1#32).toNat }) := by
  have habort := abortReads_none (s := u.modHdr ring Hdr.closes) hr (fun m => m.ring == ring)
  rw [← habort, State.closeRing, giveBack_unbound hb]
  rfl

/-- The command that closes the ring is the only outstanding one, and is completed at once. -/
theorem exec_hdrClose (ha : Accepts s r 0x0104 { long := true }) (hring : ring < 64)
    (hp : (s.hdrAt ring).port = (s.mbxAt r.mbx).port)
    (hf : (s.hdrAt ring).flushBusy = false ∧ (s.hdrAt ring).unflushed = 0) (hb : (s.hdrAt ring).bound = [])
    (hr : s.sto.reads = []) (hout : s.host.outst = []) : exec (.hdrClose r ring) s =
      .next (State.done s (((s.take r).modHdr ring Hdr.closes).reply r 0x0104
        { status := stOk, result := leBytes 4 ((s.hdrAt ring).write - 1#32).toNat })) := by
  obtain ⟨hbusy, hun⟩ := hf
  have hforeign : (s.hdrAt ring).foreign (s.mbxAt r.mbx).port = false := by simp [Hdr.foreign, hp]
  have hclose : ((s.take r).defer r 0x0104 ring 0 0).closeRing ring =
      ((s.take r).modHdr ring Hdr.closes).reply r 0x0104
        { status := stOk, result := leBytes 4 ((s.hdrAt ring).write - 1#32).toNat } := by
    have hone : (((s.take r).defer r 0x0104 ring 0 0).modHdr ring Hdr.closes).host.outst =
        [{ mbx := r.mbx, orphan := false, opcode := 0x0104, tag := r.tag, outLen := r.outLen, outAddr := r.outAddr,
           mtAccept := s.mt.mt, obj := ring, aux := 0, phase := 0 }] := by
      show s.host.outst ++ _ = _
      rw [hout]
      rfl
    have hnone : State.noneOutst (((s.take r).defer r 0x0104 ring 0 0).modHdr ring Hdr.closes) =
        (s.take r).modHdr ring Hdr.closes := noneOutst_same (s := (s.take r).modHdr ring Hdr.closes) hout
    rw [closeRing_unbound (u := (s.take r).defer r 0x0104 ring 0 0) hb hr, completeAll_single hone (by simp) rfl, hnone]
    rfl
  show execHdrClose r ring s = _
  rw [execHdrClose, umser_accepts ha]
  simp only [take_hdrAt, take_mbxAt, Nat.not_le.mpr hring, hforeign, hbusy, hun, if_false, Bool.false_eq_true,
    bne_self_eq_false, Bool.or_self, hclose]

/-! ### HDR_UNBIND -/

/-- An unbound queue is on no ring, and has no credit (R486). -/
theorem exec_hdrUnbind (ha : Accepts s r 0x0106 {}) (hs : streamOk qid = true) (hb : s.boundTo qid = some ring) :
    exec (.hdrUnbind r [qid]) s = .next (State.done s
      ((((s.take r).modHdr ring (fun h => { h with bound := h.bound.filter (· != qid) })).modQue qid
        (fun q => { q with credit := 0 })).ok r 0x0106 [] [])) := by
  have hb' : (s.take r).boundTo qid = some ring := hb
  show execHdrUnbind r [qid] s = _
  rw [execHdrUnbind, umser_accepts ha]
  simp [hs, State.unbind, hb']

end

end Sys2Proof.Machine

/-! The commands and events of the host drain rings (R540 to R542, R571, R572, R486), and the obligations they
settle. -/

namespace Sys2Proof.Machine

section
variable {s : State} {r : Req} {ring qid : Nat}

theorem modQue_hdrAt (q : Nat) (f : Queue → Queue) (k : Nat) : (s.modQue q f).hdrAt k = s.hdrAt k := rfl

theorem hdrClose_changes {a : Answer} {g : Gate} (ha : Accepts s r 0x0104 g) {t : State}
    (ht : t = State.done s (((s.take r).modHdr ring Hdr.closes).reply r 0x0104 a)) :
    Answers s t r 0x0104 a ∧ (t.hdrAt ring).state = .closed ∧ OnlyHdr ring s t ∧
      KeptBut [.mbx, .requests, .window, .hdr] s t := by
  subst ht
  have hs : Spares [.hdr] (s.take r) ((s.take r).modHdr ring Hdr.closes) := modHdr_spares (by decide) _ _
  have hat (k : Nat) : (((s.take r).modHdr ring Hdr.closes).reply r 0x0104 a).hdrAt k =
      ((s.take r).modHdr ring Hdr.closes).hdrAt k := by
    rw [State.reply]
    obtain ⟨m, c, y, z, i, e⟩ := answer_eq ((s.take r).modHdr ring Hdr.closes) (waiterOf r 0x0104 _) a
    rw [e]
    rfl
  refine ⟨answers_of_spares (opened_of_accepts ha) hs (by decide) rfl, ?_, fun k hk => ?_, ?_⟩
  · rw [done_hdrAt, hat, hdrAt_modHdr_self]
    rfl
  · rw [done_hdrAt, hat, hdrAt_modHdr_other _ _ hk, take_hdrAt]
  · exact ((take_spares (by decide)).trans ((hs.mono (by decide)).trans (answer_spares (by decide) (by decide) _ _))).done

theorem hdrUnbind_changes {g : Gate} (ha : Accepts s r 0x0106 g) {t : State} (ht : t = State.done s
      ((((s.take r).modHdr ring (fun h => { h with bound := h.bound.filter (· != qid) })).modQue qid
        (fun q => { q with credit := 0 })).ok r 0x0106 [] [])) :
    Answers s t r 0x0106 ⟨stOk, 0, [], [], false⟩ ∧ (t.queAt qid).credit = 0 ∧ qid ∉ (t.hdrAt ring).bound ∧
      OnlyHdr ring s t ∧ OnlyQue qid s t ∧ KeptBut [.mbx, .requests, .window, .hdr, .que] s t := by
  subst ht
  have hs : Spares [.hdr, .que] (s.take r) (((s.take r).modHdr ring
      (fun h => { h with bound := h.bound.filter (· != qid) })).modQue qid (fun q => { q with credit := 0 })) :=
    (modHdr_spares (by decide) _ _).trans (modQue_spares (by decide) _ _)
  have hque (u : State) (k : Nat) : (u.ok r 0x0106 [] []).queAt k = u.queAt k := by
    rw [State.queAt, State.ok, State.reply, answer_que]
    rfl
  refine ⟨answers_of_spares (opened_of_accepts ha) hs (by decide) rfl, ?_, ?_, fun k hk => ?_, fun k hk => ?_, ?_⟩
  · rw [done_queAt, hque, queAt_modQue_self]
  · have hself : ∀ h : Hdr, qid ∉ h.bound.filter (· != qid) := fun h => by simp
    rw [done_hdrAt, ok_hdrAt]
    rw [modQue_hdrAt, hdrAt_modHdr_self]
    exact hself _
  · rw [done_hdrAt, ok_hdrAt, modQue_hdrAt, hdrAt_modHdr_other _ _ hk, take_hdrAt]
  · rw [done_queAt, hque, queAt_modQue_other _ _ hk]
    rfl
  · exact ((take_spares (by decide)).trans ((hs.mono (by decide)).trans ((ok_spares [] []).mono (by decide)))).done

end

/-- Settles O5: HDR_OPEN, HDR_BIND and HDR_CLOSE change one ring, HDR_UNBIND its ring and its queue. -/
theorem ringsOpenBindAndClose : Obligations.RingsOpenBindAndClose := by
  unfold Obligations.RingsOpenBindAndClose
  refine ⟨fun s r ring log2 vector modN modUs auto base ha hring hlog hvec hn hus hbase hc hb =>
      ⟨_, exec_hdrOpen ha hring hlog hvec hn hus hbase hc hb, ?_⟩,
    fun s r ring ha hring _ hp hf hb hr hout => ⟨_, exec_hdrClose ha hring hp hf hb hr hout, hdrClose_changes ha rfl⟩,
    fun s r ring qids ha hring hq hs hf he => ⟨_, exec_hdrBind ha hring hq hs hf he, ?_⟩,
    fun s r qid ring ha hs hb => ⟨_, exec_hdrUnbind ha hs hb, hdrUnbind_changes ha rfl⟩,
    fun s r first count ha hf hc => ⟨_, exec_hdrStatusRead ha hf hc, take_ok_done ha⟩⟩
  · obtain ⟨hans, hat, honly, hkept⟩ := hdrOk_changes (ring := ring) ha
      (fun h => h.opens log2 vector modN modUs auto base (s.mbxAt r.mbx).port) rfl
    rw [hat]
    exact ⟨hans, rfl, rfl, rfl, rfl, rfl, rfl, rfl, rfl, rfl, rfl, honly, hkept⟩
  · obtain ⟨hans, hat, honly, hkept⟩ := hdrOk_changes (ring := ring) ha
      (fun h => { h with bound := qids.foldl insAsc h.bound }) rfl
    rw [hat]
    exact ⟨hans, fun q hq => (mem_foldl_insAsc _ _ _).mpr (.inl hq), fun q hq => (mem_foldl_insAsc _ _ _).mpr (.inr hq),
      fun q hq => (mem_foldl_insAsc _ _ _).mp hq, honly, hkept⟩

/-! ### Packets of a ring (R540 to R542) -/

section
variable {s u : State} {ring qid : Nat} {p : Packet} {l : List Piece} {value : Word}

theorem countPoison_spares (hl : .que ∈ l) (n : Nat) : Spares l s (s.countPoison n) := by
  unfold State.countPoison State.queFlag
  exact .ite .refl ((spares_que hl).trans (spares_que hl))

theorem countPoison_queAt (n k : Nat) : (s.countPoison n).queAt k = s.queAt k := by
  unfold State.countPoison
  split <;> rfl

theorem countPoison_host (n : Nat) : (s.countPoison n).host = s.host := by
  unfold State.countPoison
  split <;> rfl

/-- A ring's entry as a packet is written to it (R541). -/
def Hdr.takes (h : Hdr) (p : Packet) : Hdr :=
  { h with
    write := h.write + BitVec.ofNat 32 (cdiv p.words 7)
    packets := h.packets ++ [⟨p.qid, p.seq, p.words, (h.write.toNat + cdiv p.words 7) % 2 ^ 32, false⟩]
    unflushed := h.unflushed + 1
    unsignalled := if h.vector != 0xFFFF && (h.modN ≤ h.unsignalled + 1 || h.modUs == 0) then 0
      else h.unsignalled + 1 }

/-- A packet written to a ring of the PCIe port changes that ring alone, and counts poison. -/
theorem ringWrite_pcie (hp : (s.hdrAt ring).port = .pcie) (gap : Bool) :
    (s.ringWrite ring p gap).hdrAt ring = (s.hdrAt ring).takes p ∧
      (∀ k, k ≠ ring → (s.ringWrite ring p gap).hdrAt k = s.hdrAt k) ∧
      (∀ k, (s.ringWrite ring p gap).queAt k = s.queAt k) ∧ Spares [.hdr, .que] s (s.ringWrite ring p gap) := by
  generalize hv : (s.modHdr ring (fun h => h.takes p)).countPoison p.poison.length = v
  have hw : ∃ y z i, s.ringWrite ring p gap = { v with host := { v.host with sent := y, pba := z, irqPend := i } } := by
    unfold State.ringWrite
    extract_lets h n k signal t t1 t2
    have ht : t1 = v := by rw [← hv]; rfl
    have ht2 : t2 = v := by simp only [t2, h, hp, ht]
    rw [ht2]
    split
    · obtain ⟨y, z, i, e⟩ := vecOf_eq v.host h.port h.vector
      exact ⟨y, z, i, by rw [e]⟩
    · exact ⟨_, _, _, rfl⟩
  obtain ⟨y, z, i, e⟩ := hw
  have hat (k : Nat) : (s.ringWrite ring p gap).hdrAt k = (s.modHdr ring (fun h => h.takes p)).hdrAt k := by
    rw [e]
    show v.hdrAt k = _
    rw [← hv, State.hdrAt, countPoison_host]
    rfl
  refine ⟨by rw [hat, hdrAt_modHdr_self], fun k hk => by rw [hat, hdrAt_modHdr_other _ _ hk], fun k => ?_, ?_⟩
  · rw [e]
    show v.queAt k = _
    rw [← hv, countPoison_queAt]
    rfl
  · have hs : Spares [.hdr, .que] s v :=
      hv ▸ (modHdr_spares (by decide) _ _).trans (countPoison_spares (by decide) _)
    rw [e]
    exact hs.trans ⟨rfl, fun p hp => by cases p <;> simp_all [Kept]⟩

/-- A queue's packet goes to a ring: the queue as it is taken (R541, R486). -/
def Queue.hands (q : Queue) (p : Packet) : Queue :=
  { q with taken := q.taken + 1, pos := 0, gap := false, credit := q.credit - p.words }

theorem exec_hdrPacketWrite (hd : s.deliverable ring qid = some p) (ht : s.ringTakes ring p.words = true) :
    exec (.hdrPacketWrite ring qid) s = .next (State.done s
      ((s.modQue qid (fun q => q.hands p)).ringWrite ring p (s.queAt qid).gap)) := by
  show execHdrPacketWrite ring qid s = _
  unfold execHdrPacketWrite
  simp only [hd, ht, if_true]
  rfl

theorem exec_flushReadIssue (ho : (s.hdrAt ring).state = .opened) (hu : (s.hdrAt ring).unflushed ≠ 0)
    (hb : (s.hdrAt ring).flushBusy = false) (hr : s.reaches (s.hdrAt ring).port = true) :
    exec (.flushReadIssue ring) s =
      .next (State.done s (s.modHdr ring (fun h => { h with flushBusy := true, unflushed := 0 }))) := by
  show execFlushReadIssue ring s = _
  simp [execFlushReadIssue, finish, ho, hu, hb, hr]

theorem exec_flushReadDone_ok (ho : (s.hdrAt ring).state = .opened) (hb : (s.hdrAt ring).flushBusy = true) :
    exec (.flushReadDone ring .ok) s = .next (State.done s (s.flushed ring)) := by
  show execFlushReadDone ring .ok s = _
  simp [execFlushReadDone, finish, ho, hb]

theorem exec_flushReadDone_timeout (ho : (s.hdrAt ring).state = .opened) (hb : (s.hdrAt ring).flushBusy = true)
    (hp : (s.hdrAt ring).port = .pcie) : exec (.flushReadDone ring .timeout) s =
      .next (State.done s (s.faultRing ring .timeout)) := by
  show execFlushReadDone ring .timeout s = _
  simp [execFlushReadDone, finish, ho, hb, hp]

theorem delivered_spares (hl : .que ∈ l) (k : RingPacket) : Spares l s (s.delivered k) := by
  unfold State.delivered
  split
  · exact .ite (modQue_spares hl _ _) .refl
  · exact .refl

theorem delivered_host (k : RingPacket) : (s.delivered k).host = s.host := by
  unfold State.delivered
  split
  · split <;> rfl
  · rfl

theorem foldl_delivered_host (ks : List RingPacket) : (ks.foldl State.delivered s).host = s.host := by
  induction ks generalizing s with
  | nil => rfl
  | cons k ks ih => rw [List.foldl_cons, ih, delivered_host]

/-- A ring whose packets a flush read in flight covers (R542). -/
def Hdr.flushes (h : Hdr) (n : Nat) : Hdr :=
  { h with
    flushBusy := false
    packets := (h.packets.take n).map (fun k : RingPacket => { k with delivered := true }) ++ h.packets.drop n }

theorem flushed_hdrAt (k : Nat) : (s.flushed ring).hdrAt k = (s.modHdr ring
    (fun h => h.flushes ((s.hdrAt ring).packets.length - (s.hdrAt ring).unflushed))).hdrAt k := by
  unfold State.flushed
  rw [State.hdrAt, foldl_delivered_host]
  rfl

/-- With nothing unflushed the end of the flush read delivers every packet. -/
theorem flushed_all (hu : (s.hdrAt ring).unflushed = 0) :
    ((s.flushed ring).hdrAt ring).flushBusy = false ∧
      (∀ k ∈ ((s.flushed ring).hdrAt ring).packets, k.delivered = true) ∧
      ((s.flushed ring).hdrAt ring).state = (s.hdrAt ring).state := by
  rw [flushed_hdrAt, hdrAt_modHdr_self, hu, Nat.sub_zero]
  refine ⟨rfl, fun k hk => ?_, rfl⟩
  rw [Hdr.flushes, List.take_length, List.drop_length, List.append_nil] at hk
  obtain ⟨x, -, rfl⟩ := List.mem_map.mp hk
  rfl

theorem flushed_spares : Spares [.hdr, .que] s (s.flushed ring) := by
  unfold State.flushed
  exact (modHdr_spares (by decide) _ _).trans (.foldl (fun _ k => delivered_spares (by decide) k) _ _)

/-- The state with a ring faulted by a read that timed out, no read of the Mire going to it (R542). -/
theorem faultRing_timeout (hr : s.sto.reads = []) {v : State} (hv : v = s.faultRing ring .timeout) :
    (v.hdrAt ring).state = .faulted ∧ v.host.hdrFault = s.host.hdrFault ||| BitVec.twoPow 64 ring ∧
      v.host.cplErr = bump s.host.cplErr ∧ OnlyHdr ring s v ∧ Spares [.hdr, .que, .hostRegs] s v := by
  generalize hg : (s.cplError .timeout).giveBack ring = g
  have hgh : g.host = (s.cplError .timeout).host := hg ▸ giveBack_host ring
  have hgs : Spares [.hdr, .que, .hostRegs] s g := by
    rw [← hg]
    have hc : Spares [.hdr, .que, .hostRegs] s (s.cplError .timeout) :=
      ⟨rfl, fun p hp => by cases p <;> simp_all [Kept, State.cplError, State.hostFlag]⟩
    exact hc.trans (giveBack_spares (by decide) ring)
  have hgr : g.sto.reads = [] := by
    have hsto : g.sto = s.sto := hgs.parts .sto (by decide)
    rw [hsto, hr]
  generalize hf : (g.modHdr ring (fun h =>
    { h with state := .faulted, flushBusy := false, unflushed := 0 })).hostFlag 0x10#32 = f
  have hfr : f.sto.reads = [] := by rw [← hf]; exact hgr
  have he : v = { f with host := { f.host with hdrFault := f.host.hdrFault ||| BitVec.twoPow 64 ring } } := by
    rw [hv, State.faultRing]
    simp only [hg, hf, abortReads_none hfr]
  have hat (k : Nat) : v.hdrAt k = (g.modHdr ring (fun h =>
      { h with state := .faulted, flushBusy := false, unflushed := 0 })).hdrAt k := by
    rw [he, ← hf]
    rfl
  refine ⟨by rw [hat, hdrAt_modHdr_self], ?_, ?_, fun k hk => ?_, ?_⟩
  · rw [he, ← hf]
    show g.host.hdrFault ||| _ = _
    rw [hgh]
    rfl
  · rw [he, ← hf]
    show g.host.cplErr = _
    rw [hgh]
    rfl
  · rw [hat, hdrAt_modHdr_other _ _ hk, State.hdrAt, hgh]
    rfl
  · have hfs : Spares [.hdr, .que, .hostRegs] g f :=
      hf ▸ (modHdr_spares (by decide) _ _).trans (hostFlag_spares (by decide) _)
    rw [he]
    exact (hgs.trans hfs).trans ⟨rfl, fun p hp => by cases p <;> simp_all [Kept]⟩

/-- A head index of a ring that returns no credit (R541). -/
theorem exec_hdrHeadWrite (hring : ring < 64) (ha : (s.hdrAt ring).auto = false) :
    exec (.hdrHeadWrite ring value) s = .next (State.done s (s.modHdr ring (fun h =>
      { h with
        head := value
        packets := h.packets.filter (fun k => !(seqLe (BitVec.ofNat 32 k.endLine) value && k.delivered)) }))) := by
  show execHdrHeadWrite ring value s = _
  simp [execHdrHeadWrite, finish, hring, State.consumed, ha]

/-- A happening of a vector that belongs to an object of a port (R544). -/
def State.vec (s : State) (p : Port) (v : Nat) : State := { s with host := s.host.vecOf p v }

theorem vec_quiet (p : Port) (v : Nat) : (s.vec p v).quiet = s.quiet := by
  have h := vecOf_bare s.host p v
  simp only [State.vec, State.quiet, h]

theorem vec_mbxAt (p : Port) (v k : Nat) : (s.vec p v).mbxAt k = s.mbxAt k := by
  obtain ⟨y, z, i, e⟩ := vecOf_eq s.host p v
  rw [State.vec, e]
  rfl

theorem exec_irqHoldoffExpiry_mbx {n : Nat} (hi : (s.mbxAt n).irq = true) (ho : (s.mbxAt n).state = .opened)
    (hu : (s.mbxAt n).unsignalled ≠ 0) : exec (.irqHoldoffExpiry false n) s =
      .next (State.done s ((s.modMbx n (fun m => { m with unsignalled := 0 })).vec (s.mbxAt n).port n)) := by
  show execIrqHoldoffExpiry false n s = _
  simp [execIrqHoldoffExpiry, finish, hi, ho, hu, State.vec]

end

/-- A packet handed to a ring: the ring, its queue, and nothing else. -/
theorem hdrPacketWrite_changes {s t : State} {ring qid : Nat} {p : Packet} (hp : (s.hdrAt ring).port = .pcie)
    (ht : t = State.done s ((s.modQue qid (fun q => q.hands p)).ringWrite ring p (s.queAt qid).gap)) :
    t.hdrAt ring = (s.hdrAt ring).takes p ∧ t.queAt qid = (s.queAt qid).hands p ∧ OnlyHdr ring s t ∧
      OnlyQue qid s t ∧ KeptBut [.hdr, .que] s t := by
  subst ht
  obtain ⟨hself, hother, hque, hspares⟩ := ringWrite_pcie (s := s.modQue qid (fun q => q.hands p)) (ring := ring)
    (p := p) hp (s.queAt qid).gap
  refine ⟨by rw [done_hdrAt, hself]; rfl, by rw [done_queAt, hque, queAt_modQue_self], fun k hk => ?_, fun k hk => ?_,
    ((modQue_spares (by decide) _ _).trans hspares).done⟩
  · rw [done_hdrAt, hother k hk]
    rfl
  · rw [done_queAt, hque, queAt_modQue_other _ _ hk]

/-- Settles O6: a packet changes its ring and its queue (`hdrPacketWrite_changes`), a flush read its ring and what it
delivers (`flushed_all`), a fault its ring (`faultRing_timeout`); the rest are changes of one ring or mailbox. -/
theorem ringsDrainPackets : Obligations.RingsDrainPackets := by
  unfold Obligations.RingsDrainPackets
  refine ⟨fun s ring qid p hd ht hp => ⟨_, exec_hdrPacketWrite hd ht, ?_⟩,
    fun s ring ho hu hb hr => ⟨_, exec_flushReadIssue ho hu hb hr, ?_⟩,
    fun s ring ho hb hu => ⟨_, exec_flushReadDone_ok ho hb, ?_⟩,
    fun s ring ho hb hp hr => ⟨_, exec_flushReadDone_timeout ho hb hp, ?_⟩,
    fun s ring value hring ha => ⟨_, exec_hdrHeadWrite hring ha, ?_⟩, fun s n hi ho hu => ?_⟩
  · obtain ⟨hself, hque, honly, honlyQ, hkept⟩ := hdrPacketWrite_changes (qid := qid) (p := p) hp rfl
    rw [hself, hque]
    exact ⟨rfl, rfl, rfl, rfl, rfl, honly, honlyQ, hkept⟩
  · obtain ⟨hself, honly, hkept⟩ :=
      modHdr_changes (s := s) (ring := ring) (fun h => { h with flushBusy := true, unflushed := 0 })
    rw [hself]
    exact ⟨rfl, rfl, honly, hkept⟩
  · obtain ⟨hbusy, hall, hstate⟩ := flushed_all hu
    rw [done_hdrAt]
    exact ⟨hbusy, hall, hstate.trans ho,
      fun k hk => by rw [done_hdrAt, flushed_hdrAt, hdrAt_modHdr_other _ _ hk], flushed_spares.done⟩
  · obtain ⟨hstate, hfault, hcpl, honly, hspares⟩ := faultRing_timeout (ring := ring) hr rfl
    exact ⟨by rw [done_hdrAt, hstate], by rw [done_host_hdrFault, hfault], by rw [done_host_cplErr, hcpl],
      fun k hk => by rw [done_hdrAt, honly k hk], hspares.done⟩
  · obtain ⟨hself, honly, hkept⟩ := modHdr_changes (s := s) (ring := ring) (fun h =>
      { h with
        head := value
        packets := h.packets.filter (fun k => !(seqLe (BitVec.ofNat 32 k.endLine) value && k.delivered)) })
    rw [hself]
    exact ⟨rfl, rfl, honly, hkept⟩
  · refine ⟨_, exec_irqHoldoffExpiry_mbx hi ho hu, ?_, fun k hk => ?_, ?_⟩
    · rw [done_mbxAt, vec_mbxAt, mbxAt_modMbx_self]
    · rw [done_mbxAt, vec_mbxAt, mbxAt_modMbx_other _ _ hk]
    · exact ((modMbx_spares (by decide) _ _).trans (.of_quiet (vec_quiet ..))).done

end Sys2Proof.Machine

/-! The sweep commands (R378, R380, R385, R395, R402): what each accepted one does, and the obligation they settle. -/

namespace Sys2Proof.Machine

section
variable {s : State} {r : Req} {op : Nat} {g : Gate}

/-- An edit without a partner is answered as it is accepted, and the sets are all it has changed. -/
theorem editOk_alone {x : Sets} (res : List Byte) (ha : Accepts s r op g) (hl : s.leads = false)
    (hc : x.castSeq = s.sets.castSeq) :
    Answers s (State.done s (State.editOk { s.take r with sets := x } r op res)) r op ⟨stOk, 0, res, [], false⟩ ∧
      KeptBut [.mbx, .requests, .window, .sets] s
        (State.done s (State.editOk { s.take r with sets := x } r op res)) := by
  have hl' : State.leads { s.take r with sets := x } = false := hl
  rw [State.editOk, hl']
  have hs : Spares [.mbx, .requests, .window, .sets] s { s.take r with sets := x } :=
    (take_spares (by decide)).trans (spares_sets (by decide))
  exact ⟨answers_of_reply (opened_of_accepts ha) rfl rfl hc,
    (hs.trans (answer_spares (by decide) (by decide) _ _)).done⟩

/-! ### The table -/

variable {first count fig mode : Nat} {entries : List (BitVec 256)} {block : BitVec 512}

/-- The sets with a run of entries in the Maquette's table, edited (R378, R454). -/
def Sets.sweepPut (x : Sets) (first : Nat) (entries : List (BitVec 256)) : Sets :=
  { x with
    maq := { x.maq with sweep := (List.range entries.length).foldl (putValue 0#256 first entries) x.maq.sweep }
    maqSeq := x.maqSeq + 1#32, valid := false }

theorem exec_swpTableWrite (ha : Accepts s r 0x0401 { standbyOk := false }) (hz : s.sets.frozen = false)
    (hr : tableRange first entries.length = none) (he : entries.all (fun e => (entryBad e).isNone) = true) :
    exec (.swpTableWrite r first entries) s =
      .next (State.done s (State.editOk { s.take r with sets := s.sets.sweepPut first entries } r 0x0401 [])) := by
  have hbad : firstBad (fun i e => (entryBad e).map (fun o => (stRange, 32 * i + o))) 0 entries = none :=
    firstBad_eq_none (fun i e hm => by
      rw [Option.isNone_iff_eq_none.mp (List.all_eq_true.mp he e hm), Option.map_none]) 0
  show execSwpTableWrite r first entries s = _
  rw [execSwpTableWrite, editCommand_accepts ha hz]
  simp only [hr, hbad]
  rfl

/-- The end of an accepted SWP_TABLE_WRITE. -/
theorem swpTableWrite_changes (ha : Accepts s r 0x0401 { standbyOk := false }) (hl : s.leads = false) {t : State}
    (ht : t = State.done s (State.editOk { s.take r with sets := s.sets.sweepPut first entries } r 0x0401 [])) :
    Answers s t r 0x0401 ⟨stOk, 0, [], [], false⟩ ∧ t.sets = s.sets.sweepPut first entries ∧
      KeptBut [.mbx, .requests, .window, .sets] s t := by
  subst ht
  obtain ⟨hans, hkept⟩ := editOk_alone [] ha hl (x := s.sets.sweepPut first entries) rfl
  exact ⟨hans, by rw [done_sets, editOk_sets], hkept⟩

theorem exec_swpTableRead (ha : Accepts s r 0x0402 {}) (hr : tableRange first count = none) :
    exec (.swpTableRead r first count) s = .next (State.done s ((s.take r).ok r 0x0402 []
      ((List.range count).flatMap (fun i => leBytes 32 (tget 0#256 (s.setOf r.set).sweep (first + i)).toNat)))) := by
  show execSwpTableRead r first count s = _
  rw [execSwpTableRead, umser_accepts ha]
  simp only [hr]
  rfl

/-! ### Generators -/

/-- The sets with the generator of a figure of the Maquette set or removed, edited (R395, R454). -/
def Sets.genPut (x : Sets) (fig : Nat) (block : BitVec 512) : Sets :=
  { x with
    maq := { x.maq with gens := if genType block = 0 then tdel x.maq.gens fig else tput x.maq.gens fig block }
    maqSeq := x.maqSeq + 1#32, valid := false }

theorem genPut_self (x : Sets) : tget? (x.genPut fig block).maq.gens fig =
    if genType block = 0 then none else some block := by
  unfold Sets.genPut
  split
  · exact tget?_tdel_self ..
  · exact tget?_tput_self

theorem genPut_other (x : Sets) {f : Nat} (hf : f ≠ fig) :
    tget? (x.genPut fig block).maq.gens f = tget? x.maq.gens f := by
  unfold Sets.genPut
  split
  · exact tget?_tdel_other _ hf
  · exact tget?_tput_other hf

theorem exec_swpGenWrite (ha : Accepts s r 0x0403 { standbyOk := false }) (hz : s.sets.frozen = false)
    (hf : fig ∈ s.sets.maq.figs) (hb : genBad block = none) : exec (.swpGenWrite r fig block) s =
      .next (State.done s (State.editOk { s.take r with sets := s.sets.genPut fig block } r 0x0403 [])) := by
  have hc : (s.take r).sets.maq.figs.contains fig = true := List.contains_iff_mem.mpr hf
  show execSwpGenWrite r fig block s = _
  rw [execSwpGenWrite, editCommand_accepts ha hz]
  simp only [hc, hb]
  rfl

/-! ### Starts, stops and the status -/

/-- A figure asked to start its list at the next loop tick (R385). -/
def Fig.askStart (x : Fig) : Fig := { x with startDue := true }

/-- A figure whose list is to stop at the next loop tick; an Unveil's end of the list stays (R402). -/
def Fig.askStop (x : Fig) (mode : Nat) : Fig :=
  { x with stop := if x.stop == some 2 && mode == 0 then some 2 else some mode }

theorem askStop_stop {x : Fig} (h : x.stop ≠ some 2) : (x.askStop mode).stop = some mode := by
  simp [Fig.askStop, h]

theorem exec_swpStart (ha : Accepts s r 0x0404 { standbyOk := false }) (hf : fig < 4096)
    (hd : s.defined fig = true) (hr : (s.figAt fig).run = .armed ∨ (s.figAt fig).run = .ended) :
    exec (.swpStart r fig) s = .next (s.figOk r 0x0404 fig Fig.askStart []) := by
  show execSwpStart r fig s = _
  rw [execSwpStart, umser_accepts ha]
  simp only [take_defined, take_figAt, hd, Nat.not_le.mpr hf, hr, decide_false, Bool.not_true, Bool.or_self,
    Bool.false_eq_true, if_false, if_true]
  rfl

theorem exec_swpStart_notReady (ha : Accepts s r 0x0404 { standbyOk := false }) (hf : fig < 4096)
    (hd : s.defined fig = true) (hr : (s.figAt fig).run ≠ .armed ∧ (s.figAt fig).run ≠ .ended) :
    exec (.swpStart r fig) s = .next (State.done s ((s.take r).refuse r 0x0404 stNotReady)) := by
  show execSwpStart r fig s = _
  rw [execSwpStart, umser_accepts ha]
  simp [hd, Nat.not_le.mpr hf, hr]

theorem exec_swpStop (ha : Accepts s r 0x0405 { standbyOk := false }) (hf : fig < 4096)
    (hd : s.defined fig = true) (hm : mode ≤ 1) (hr : listRuns (s.figAt fig) = true ∨ (s.figAt fig).startDue = true) :
    exec (.swpStop r fig mode) s = .next (s.figOk r 0x0405 fig (fun x => x.askStop mode) []) := by
  have hc : (listRuns (s.figAt fig) || (s.figAt fig).startDue) = true := Bool.or_eq_true_iff.mpr hr
  show execSwpStop r fig mode s = _
  rw [execSwpStop, umser_accepts ha]
  simp only [take_defined, take_figAt, hd, Nat.not_le.mpr hf, hc, Nat.not_lt.mpr hm, decide_false, Bool.not_true,
    Bool.or_self, Bool.false_eq_true, if_false, if_true]
  rfl

theorem exec_swpStatusRead (ha : Accepts s r 0x0406 {}) (hf : first < 4096)
    (hc : count ≠ 0 ∧ first + count ≤ 4096) : exec (.swpStatusRead r first count) s =
      .next (State.done s ((s.take r).ok r 0x0406 []
        ((List.range count).flatMap (fun i => s.swpRecord (first + i))))) := by
  obtain ⟨hne, hle⟩ := hc
  have hr : ¬ (count = 0 ∨ 4096 < first + count) := by omega
  show execSwpStatusRead r first count s = _
  rw [execSwpStatusRead, umser_accepts ha]
  simp only [Nat.not_le.mpr hf, hr, if_false]
  rfl

end

/-- Settles O15: each accepted sweep command is its edit, its read-out or its mark on one figure. -/
theorem sweepCommandsEditAndStart : Obligations.SweepCommandsEditAndStart := by
  unfold Obligations.SweepCommandsEditAndStart
  refine ⟨fun s r first entries ha hl hz hr he => ⟨_, exec_swpTableWrite ha hz hr he, ?_⟩,
    fun s r first count ha hr => ⟨_, exec_swpTableRead ha hr, take_ok_done ha⟩,
    fun s r fig block ha hl hz hf hb => ⟨_, exec_swpGenWrite ha hz hf hb, ?_⟩,
    fun s r fig ha hf hd hr => ⟨_, exec_swpStart ha hf hd hr, ?_⟩,
    fun s r fig ha hf hd hr => ⟨_, exec_swpStart_notReady ha hf hd hr, ?_⟩,
    fun s r fig mode ha hf hd hm hr h2 => ⟨_, exec_swpStop ha hf hd hm hr, ?_⟩,
    fun s r first count ha hf hc => ⟨_, exec_swpStatusRead ha hf hc, take_ok_done ha⟩⟩
  · obtain ⟨hans, hsets, hkept⟩ := swpTableWrite_changes ha hl rfl
    rw [hsets]
    refine ⟨hans, fun i hi => ?_, fun k hk => ?_, rfl, rfl, rfl, hkept⟩
    · rw [Sets.sweepPut, tget_putValues, if_pos (by omega), Nat.add_sub_cancel_left]
    · rw [Sets.sweepPut, tget_putValues, if_neg (by omega)]
  · obtain ⟨hans, hkept⟩ := editOk_alone [] ha hl (x := s.sets.genPut fig block) rfl
    rw [done_sets, editOk_sets]
    exact ⟨hans, genPut_self _, fun f hne => genPut_other _ hne, rfl, rfl, rfl, hkept⟩
  · obtain ⟨hans, hfig, honly, hkept⟩ := figOk_changes ha Fig.askStart []
    rw [hfig]
    exact ⟨hans, rfl, rfl, honly, hkept⟩
  · exact ⟨answers_of_reply (opened_of_accepts ha) rfl rfl rfl,
      ((take_spares (by decide)).trans (answer_spares (by decide) (by decide) _ _)).done⟩
  · obtain ⟨hans, hfig, honly, hkept⟩ := figOk_changes ha (fun x => x.askStop mode) []
    rw [hfig]
    exact ⟨hans, askStop_stop h2, rfl, honly, hkept⟩

end Sys2Proof.Machine

/-! An aperture that closes or is cut takes the samples which it still lacks (R263, R266), and the instants they are
of belong to every figure of the group: to the open aperture of another figure (R260) and to a raw capture (R249).
The obligations on lists and on points leave that out. -/

namespace Sys2Proof.Machine

section

/-- An instant of the comb of group 0 that is still to be taken. -/
def lateInstant : Instant :=
  { ofs := 0, clk := 0, inputs := [], loop := true, rph := false, tmiss := false, stamp := none }

/-- A tick aperture in its last period on the given ports, asked for by the host. -/
def lastPeriod (members : List Nat) : Aperture :=
  { apRequest 0#64 0 0xFFFF true false with begun := true, ticksLeft := 1, members := members }

/-- Figure 5 on port 0 with a list that disables it at its end, to be stopped, and figure 6 on port 1; each has an
aperture open, and one instant of the period waits in the comb of their group. -/
def stoppedBesideAperture : State :=
  { State.reset with
    rst := { State.reset.rst with ctrlUp := true, dataUp := true }
    sets := { State.reset.sets with cast := { State.reset.sets.cast with
      figs := [5, 6]
      place := [(5, { Placement.init with state := .placed, members := [0] }),
                (6, { Placement.init with state := .placed, members := [1] })] } }
    fig := [(5, { Fig.init with
              enabled := true, run := .waiting, stop := some 0, endMode := 2, apOpen := some (lastPeriod [0]) }),
            (6, { Fig.init with enabled := true, apOpen := some (lastPeriod [1]) })]
    grp := [(0, { Grp.init with acq := { Acq.init with comb := [lateInstant] } })] }

/-- Whether an open aperture has taken a sample. -/
def Fig.sampled (x : Fig) : Bool := x.apOpen.any (fun a => a.first.isSome)

/-- The end of the list of figure 5 gives the aperture of figure 6 a sample. -/
theorem listEnd_stoppedBesideAperture (t : State) (h : exec (.listEnd 5) stoppedBesideAperture = .next t) :
    (t.figAt 6).sampled = true := by
  obtain rfl := Host.Outcome.next.inj h
  rw [done_figAt]
  rfl

/-- Refutes O16: the end of a list leaves every other figure alone, says its clause, and in `stoppedBesideAperture`
the disable of figure 5 cuts its aperture, whose last instant is also one of figure 6's (R260, R266). -/
theorem not_listsStartAndEnd : ¬ Obligations.ListsStartAndEnd := by
  intro h
  obtain ⟨-, -, ends, -⟩ := h
  obtain ⟨t, ht, -, -, -, -, -, -, -, -, -, -, -, -, honly, -⟩ :=
    ends stoppedBesideAperture 5 rfl rfl rfl (.inl rfl)
  have hsame : (t.figAt 6).sampled = false := congrArg Fig.sampled (honly 6 (by decide))
  rw [listEnd_stoppedBesideAperture t ht] at hsame
  exact absurd hsame (by decide)

/-- Figure 5 on port 0 with an aperture in its last period and a raw capture of its group that lacks one instant,
which waits in the comb. -/
def closedOnCapture : State :=
  { State.reset with
    rst := { State.reset.rst with ctrlUp := true, dataUp := true }
    sets := { State.reset.sets with cast := { State.reset.sets.cast with
      figs := [5], place := [(5, { Placement.init with state := .placed, members := [0] })] } }
    fig := [(5, { Fig.init with enabled := true, apOpen := some (lastPeriod [0]) })]
    grp := [(0, { Grp.init with acq := { Acq.init with
      comb := [lateInstant]
      cap := some
        { fig := 5, mask := 1, start := 0, started := true, left := 1, done := 9, firstSeq := 0, packets := 0
          mbx := 0, tag := 9, half := none } } })] }

/-- The close takes the instant, which ends the capture with its last packet. -/
theorem apertureClose_closedOnCapture (t : State) (h : exec (.apertureClose 5) closedOnCapture = .next t) :
    (t.queAt 325).due.length = 1 := by
  obtain rfl := Host.Outcome.next.inj h
  rw [done_queAt]
  rfl

/-- Refutes O17: the close of an aperture leaves every queue but the figure's result stream alone, says its clause,
and in `closedOnCapture` the last packet of the raw capture joins the figure's stream 5 (R249, R263). -/
theorem not_pointsRun : ¬ Obligations.PointsRun := by
  intro h
  obtain ⟨-, -, -, -, -, -, -, -, -, -, close⟩ := h
  obtain ⟨t, ht, -, -, -, -, honly, -⟩ := close closedOnCapture 5 (lastPeriod [0]) rfl ⟨rfl, rfl⟩ rfl
  have hsame : (t.queAt 325).due.length = 0 := congrArg (fun q => q.due.length) (honly 325 (by decide))
  rw [apertureClose_closedOnCapture t ht] at hsame
  exact absurd hsame (by decide)

end

end Sys2Proof.Machine

/-! The parameter commands (R457, R467, R469): what a run of triples leaves of the sets, and the obligation they
settle. -/

namespace Sys2Proof.Machine

section
variable {s : State} {r : Req} {l : List Triple} {id index : Nat}

/-- A request names a parameter of set Cast/Maquette. -/
def editsMaq (l : List Triple) : Bool := l.any (fun x => !isLive x.id)

/-- The sets with the triples of a request applied; one of the Maquette's is an edit (R454, R469). -/
def Sets.written (x : Sets) (l : List Triple) : Sets :=
  { x with
    maq := { x.maq with params := setTriples x.maq.params l }
    livePending := x.livePending ++ liveTriples l
    maqSeq := if editsMaq l then x.maqSeq + 1#32 else x.maqSeq
    valid := if editsMaq l then false else x.valid }

/-- The state as the triples of a request taken are applied. -/
def State.writtenBy (s : State) (r : Req) (l : List Triple) : State := { s.take r with sets := s.sets.written l }

/-- Where an accepted PARAM_WRITE ends: as an edit, or answered at once. -/
def State.paramEnd (s : State) (r : Req) (l : List Triple) : State :=
  State.done s (if editsMaq l then (s.writtenBy r l).editOk r 0x0601 [] else (s.writtenBy r l).ok r 0x0601 [] [])

/-- Every parameter that triples without a fault name is in the directory. -/
theorem dirEntry_of_triplesBad {m : CfgSet} (h : s.triplesBad m l = none) {x : Triple} (hx : x ∈ l) :
    (dirEntry x.id).isSome = true := by
  obtain ⟨j, hj⟩ := firstBad_none h hx
  cases hd : dirEntry x.id with
  | some e => rfl
  | none => simp [State.tripleBad, hd] at hj

theorem editsMaq_of_triplesBad {m : CfgSet} (h : s.triplesBad m l = none) :
    l.any (fun x => !isLive x.id && (dirEntry x.id).isSome) = editsMaq l := by
  rw [editsMaq, Bool.eq_iff_iff, List.any_eq_true, List.any_eq_true]
  exact ⟨fun ⟨x, hx, hb⟩ => ⟨x, hx, (Bool.and_eq_true_iff.mp hb).1⟩,
    fun ⟨x, hx, hb⟩ => ⟨x, hx, Bool.and_eq_true_iff.mpr ⟨hb, dirEntry_of_triplesBad h hx⟩⟩⟩

theorem editsMaq_of_all_live (h : l.all (fun x => isLive x.id) = true) : editsMaq l = false := by
  rw [editsMaq, List.any_eq_not_all_not]
  simpa using h

theorem applyTriples_written (h : editsMaq l = true) :
    (s.applyTriples l).edited = { s with sets := s.sets.written l } := by
  rw [applyTriples_eq, State.edited, Sets.written, if_pos h, if_pos h]

theorem applyTriples_live (h : editsMaq l = false) : s.applyTriples l = { s with sets := s.sets.written l } := by
  rw [applyTriples_eq, Sets.written, h]
  rfl

theorem exec_paramWrite (ha : Accepts s r 0x0601 {})
    (hs : s.twin.role ≠ .standby ∨ l.any standbyRefuses = false) (hlen : l ≠ [] ∧ l.length ≤ 32)
    (hz : s.sets.frozen = false ∨ l.all (fun x => isLive x.id) = true) (hb : s.triplesBad s.sets.maq l = none) :
    exec (.paramWrite r l) s = .next (s.paramEnd r l) := by
  obtain ⟨hne, hle⟩ := hlen
  have hstand : ((s.take r).twin.role == .standby && l.any standbyRefuses) = false := by
    rcases hs with hs | hs
    · rw [show ((s.take r).twin.role == .standby) = false from beq_eq_false_iff_ne.mpr hs, Bool.false_and]
    · rw [hs, Bool.and_false]
  have hfrozen : (editsMaq l && s.sets.frozen) = false := by
    rcases hz with hz | hz
    · rw [hz, Bool.and_false]
    · rw [editsMaq_of_all_live hz, Bool.false_and]
  have hcount : ¬ (l = [] ∨ 32 < l.length) := by simp [hne, Nat.not_lt.mpr hle]
  have hbad : (s.take r).triplesBad s.sets.maq l = none := hb
  show execParamWrite r l s = _
  rw [execParamWrite, umser_accepts ha]
  simp only [editsMaq_of_triplesBad hb, hbad, hstand, take_sets, hfrozen, if_neg hcount, if_false, Bool.false_eq_true]
  unfold State.paramEnd
  cases he : editsMaq l
  · rw [applyTriples_live he]
    rfl
  · rw [applyTriples_written he]
    rfl

theorem paramEnd_sets : (s.paramEnd r l).sets = s.sets.written l := by
  rw [State.paramEnd, done_sets]
  split
  · rw [editOk_sets]
    rfl
  · rw [State.ok, State.reply, answer_sets]
    rfl

theorem paramEnd_ends (ha : Accepts s r 0x0601 {}) :
    EditEnds (s.leads && editsMaq l) s (s.paramEnd r l) r 0x0601 [] ∧
      KeptBut [.mbx, .requests, .window, .sets, .twin] s (s.paramEnd r l) := by
  unfold State.paramEnd
  cases he : editsMaq l
  · rw [Bool.and_false, if_neg Bool.false_ne_true]
    have hs : Spares [.mbx, .requests, .window, .sets] s
        (State.ok { s.take r with sets := s.sets.written l } r 0x0601 [] []) :=
      ((take_spares (by decide)).trans (spares_sets (by decide))).trans (answer_spares (by decide) (by decide) _ _)
    obtain ⟨-, -, -, hkept⟩ := hs.done
    exact ⟨⟨answers_of_reply (opened_of_accepts ha) rfl rfl rfl, hkept .twin (by decide)⟩, (hs.mono (by decide)).done⟩
  · rw [Bool.and_true, if_pos rfl]
    exact ⟨editOk_ends [] ha rfl, editOk_keptBut []⟩

theorem paramEnd_live (hl : ∀ x ∈ l, x.index < 65536) (hid : isLive id = true) (hx : index < 65536) :
    (s.paramEnd r l).liveAccepted id index = afterTriples l id index (s.liveAccepted id index) := by
  rw [← liveAccepted_applyTriples hl hx hid]
  have h : (s.paramEnd r l).sets.livePending = (s.applyTriples l).sets.livePending ∧
      (s.paramEnd r l).sets.live = (s.applyTriples l).sets.live := by
    rw [paramEnd_sets, applyTriples_eq]
    exact ⟨rfl, rfl⟩
  simp only [State.liveAccepted, State.live, h.1, h.2]

theorem exec_paramRead {items : List (Nat × Nat)} (ha : Accepts s r 0x0602 {})
    (hlen : items ≠ [] ∧ items.length ≤ 32) (hb : firstBad (s.readBad (s.setOf r.set)) 0 items = none) :
    exec (.paramRead r items) s = .next (State.done s ((s.take r).ok r 0x0602 []
      (items.flatMap (fun x =>
        leBytes 2 x.1 ++ leBytes 2 x.2 ++ leBytes 4 (s.present (s.setOf r.set) x.1 x.2).toNat)))) := by
  obtain ⟨hne, hle⟩ := hlen
  have hcount : ¬ (items = [] ∨ 32 < items.length) := by simp [hne, Nat.not_lt.mpr hle]
  have hbad : firstBad ((s.take r).readBad ((s.take r).setOf r.set)) 0 items = none := hb
  show execParamRead r items s = _
  rw [execParamRead, umser_accepts ha]
  simp only [hbad, if_neg hcount]
  rfl

theorem exec_paramDirRead {first count : Nat} (ha : Accepts s r 0x0603 {}) (hc : count ≠ 0 ∧ count ≤ 64) :
    exec (.paramDirRead r first count) s = .next (State.done s ((s.take r).ok r 0x0603
      (leBytes 1 ((directory.filter (fun e => first ≤ e.id)).take count).length ++ leBytes 1 0 ++
        leBytes 2 (match (directory.filter (fun e => first ≤ e.id)).drop count with | [] => 0xFFFF | e :: _ => e.id))
      (((directory.filter (fun e => first ≤ e.id)).take count).flatMap DirEntry.bytes))) := by
  obtain ⟨hne, hle⟩ := hc
  show execParamDirRead r first count s = _
  rw [execParamDirRead, umser_accepts ha, if_neg (show ¬ (count = 0 ∨ 64 < count) by omega)] <;> rfl

end

/-- Settles O8: an accepted PARAM_WRITE leaves the sets that `paramEnd_sets` gives, each parameter at the value of the
last triple that names it; the reads answer. -/
theorem parameterCommands : Obligations.ParameterCommands := by
  unfold Obligations.ParameterCommands
  refine ⟨fun s r l ha hs hlen hz hl hb => ⟨_, exec_paramWrite ha hs hlen hz hb, ?_⟩,
    fun s r items ha hlen hb => ⟨_, exec_paramRead ha hlen hb, take_ok_done ha⟩,
    fun s r first count ha hc => ⟨_, exec_paramDirRead ha hc, take_ok_done ha⟩⟩
  obtain ⟨hends, hkept⟩ := paramEnd_ends (l := l) ha
  refine ⟨hends, fun id index hid hx => ?_, fun id index hid hx => paramEnd_live hl hid hx, ?_⟩
  · rw [paramEnd_sets]
    exact pval_setTriples hl hx hid _
  · rw [paramEnd_sets]
    exact ⟨rfl, rfl, rfl, hkept⟩

end Sys2Proof.Machine

/-! SUPPORT. Outstanding commands that complete at the end of a step's work, and a Maquette that thaws (R178, R455,
R553, R563). -/

namespace Sys2Proof.Machine

section
variable {s t u : State} {l m : List Piece} {o : Outstanding} {q : Outstanding → Bool} {a : Answer}

/-! ### Completions -/

theorem complete_spares (hr : .requests ∈ l) (hm : .mbx ∈ l) (hw : .window ∈ l) (q : Outstanding → Bool) (a : Answer) :
    Spares l s (s.complete q a) :=
  ⟨by obtain ⟨m, c, y, z, i, n, e⟩ := complete_eq s q a; rw [e], fun _ hp => kept_complete hr hm hw hp⟩

theorem complete_fetched : (s.complete q a).host.fetched = s.host.fetched := by
  obtain ⟨m, c, y, z, i, n, e⟩ := complete_eq s q a
  rw [e]

theorem complete_sets : (s.complete q a).sets = s.sets := by
  obtain ⟨m, c, y, z, i, n, e⟩ := complete_eq s q a
  rw [e]

/-- The first command that passes a test is answered and leaves the list, when what was done before left the host
interface, the time and the Cast's number as they were. -/
theorem completes_first (hu : Spares l s u) (hl : ∀ p ∈ answerParts, p ∉ l) (hc : u.sets.castSeq = s.sets.castSeq)
    (hf : s.host.outst.find? q = some o) :
    Completed s (State.done s (u.complete q a)) o a ∧
      (State.done s (u.complete q a)).host.outst = dropFirst q s.host.outst ∧
      (State.done s (u.complete q a)).host.fetched = s.host.fetched ∧
      KeptBut ([.mbx, .requests, .window] ++ l) s (State.done s (u.complete q a)) := by
  obtain ⟨hfetched, houtst⟩ := hu.parts .requests (hl _ (by decide))
  have hmt : u.mt = s.mt := hu.parts .mt (hl _ (by decide))
  obtain ⟨hdone, hleft⟩ := completed_of_complete (hu.parts .mbx (hl _ (by decide)))
    (hu.parts .window (hl _ (by decide))) houtst (congrArg _ hmt) hc hf (a := a)
  refine ⟨hdone, hleft, ?_, ?_⟩
  · rw [done_host_fetched, complete_fetched, hfetched]
  · exact ((hu.mono (List.subset_append_right _ _)).trans (complete_spares (by simp) (by simp) (by simp) q a)).done

/-- The first command that passes one of two tests passes this one. -/
theorem find?_of_or {α : Type} {p q : α → Bool} {xs : List α} {x : α}
    (h : xs.find? (fun y => p y || q y) = some x) (hp : p x = true) : xs.find? p = some x := by
  obtain ⟨-, as, bs, rfl, hbefore⟩ := List.find?_eq_some_iff_append.mp h
  refine List.find?_eq_some_iff_append.mpr ⟨hp, as, bs, rfl, fun y hy => ?_⟩
  have := hbefore y hy
  simp_all

/-! ### The Maquette thaws -/

/-- The descriptor a port has once its own is brought into force (R178). -/
def State.broughtDesc (s : State) (p : Nat) : Option Desc :=
  match tget? s.sets.maq.descs p with
  | some ⟨d, .written⟩ => some ⟨d, .written⟩
  | _ => s.offered p

theorem broughtDesc_written {p : Nat} {d : BitVec 2048} (h : tget? s.sets.maq.descs p = some ⟨d, .written⟩) :
    s.broughtDesc p = some ⟨d, .written⟩ := by
  rw [State.broughtDesc, h]

theorem broughtDesc_offered {p : Nat} (h : ∀ d, tget? s.sets.maq.descs p = some ⟨d, .written⟩ → False) :
    s.broughtDesc p = s.offered p := by
  unfold State.broughtDesc
  split
  next d hd => exact (h d hd).elim
  next => rfl

theorem tget?_broughtDescs (p k : Nat) :
    tget? (s.broughtDescs p) k = if k = p then s.broughtDesc p else tget? s.sets.maq.descs k := by
  unfold State.broughtDescs
  split
  next d h =>
    rw [broughtDesc_written h]
    split
    next hk => rw [hk, h]
    next => rfl
  next hne =>
    rw [broughtDesc_offered hne]
    split
    next d h =>
      rw [h]
      split
      next hk => rw [hk, tget?_tput_self]
      next hk => exact tget?_tput_other hk
    next h => rw [h, tget?_tdel]

/-- What is brought into force at a port hangs on its own descriptor, the ports, the storage and the reset block. -/
theorem broughtDesc_congr (h : Spares [.sets] s t) {p : Nat}
    (hd : tget? t.sets.maq.descs p = tget? s.sets.maq.descs p) : t.broughtDesc p = s.broughtDesc p := by
  have hsp : t.sp = s.sp := h.parts .sp (by decide)
  have hsto : t.sto = s.sto := h.parts .sto (by decide)
  have hrst : t.rst = s.rst := h.parts .rst (by decide)
  have ho : t.offered p = s.offered p := by
    simp only [State.offered, State.spAt, hsp, hsto, hrst]
    rfl
  unfold State.broughtDesc
  rw [hd, ho]

/-- One port's descriptor is considered where the Mire has one. -/
def State.mireDesc (s : State) (p : Nat) : State := if (tget? s.sto.sysDescs p).isSome then s.startDesc p else s

theorem mireDesc_spares (s : State) (p : Nat) : Spares [.sets] s (s.mireDesc p) :=
  .ite (startDesc_spares s p (by decide)) .refl

theorem mireDesc_descs (p k : Nat) : tget? (s.mireDesc p).sets.maq.descs k =
    if k = p ∧ (tget? s.sto.sysDescs p).isSome = true then s.broughtDesc p else tget? s.sets.maq.descs k := by
  unfold State.mireDesc
  split
  next h => rw [startDesc_sets, tget?_broughtDescs]; simp [h]
  next h => simp [h]

/-- The descriptors once those of the first ports have been considered. -/
theorem foldl_mireDesc_descs (n k : Nat) (s : State) :
    tget? ((List.range n).foldl State.mireDesc s).sets.maq.descs k =
      if k < n ∧ (tget? s.sto.sysDescs k).isSome = true then s.broughtDesc k else tget? s.sets.maq.descs k := by
  induction n with
  | zero => simp
  | succ n ih =>
    have hs : Spares [.sets] s ((List.range n).foldl State.mireDesc s) := .foldl mireDesc_spares _ _
    have hsto : ((List.range n).foldl State.mireDesc s).sto = s.sto := hs.parts .sto (by decide)
    rw [List.range_succ, List.foldl_append, List.foldl_cons, List.foldl_nil, mireDesc_descs, hsto]
    by_cases hk : k = n ∧ (tget? s.sto.sysDescs n).isSome = true
    · obtain ⟨rfl, hsome⟩ := hk
      have hd : tget? ((List.range k).foldl State.mireDesc s).sets.maq.descs k = tget? s.sets.maq.descs k := by
        rw [ih, if_neg (by omega)]
      rw [if_pos ⟨rfl, hsome⟩, if_pos ⟨Nat.lt_succ_self k, hsome⟩, broughtDesc_congr hs hd]
    · rw [if_neg hk, ih]
      refine if_congr ⟨fun h => ⟨by omega, h.2⟩, fun h => ⟨?_, h.2⟩⟩ rfl rfl
      rcases Nat.lt_succ_iff_lt_or_eq.mp h.1 with hlt | rfl
      · exact hlt
      · exact absurd ⟨rfl, h.2⟩ hk

theorem mireDescs_eq (s : State) : s.mireDescs =
    (List.range (8 * s.groups)).foldl State.mireDesc { s with sets := { s.sets with mireDue := false } } := rfl

/-- The descriptors of a thawed Maquette (R178). -/
theorem unfreeze_descs (s : State) (p : Nat) : tget? s.unfreeze.sets.maq.descs p = thawedDesc s s.sets.maq p := by
  unfold State.unfreeze thawedDesc
  dsimp only
  cases hd : s.sets.mireDue
  · simp
  · rw [if_pos rfl, mireDescs_eq, foldl_mireDesc_descs]
    simp only [Bool.true_and, Bool.and_eq_true, decide_eq_true_eq]
    rfl

/-- A Maquette of a content thaws, whatever the step that does it answers. -/
theorem thawsWith_unfreeze {v : State} {c : CfgSet} (hu : Spares [.sets] s u) (hg : u.ident = s.ident)
    (hm : u.sets.maq = c) (hd : u.sets.mireDue = s.sets.mireDue) (hv : v.sets = u.unfreeze.sets) :
    ThawsWith s (State.done s v) c := by
  have hsp : u.sp = s.sp := hu.parts .sp (by decide)
  have hsto : u.sto = s.sto := hu.parts .sto (by decide)
  have hrst : u.rst = s.rst := hu.parts .rst (by decide)
  have hdesc (p : Nat) : thawedDesc u c p = thawedDesc s c p := by
    simp only [thawedDesc, State.groups, State.offered, State.spAt, hg, hd, hsp, hsto, hrst]
    rfl
  obtain ⟨b, d, hset⟩ := unfreeze_sets u
  have hdue : u.unfreeze.sets.mireDue = false := by
    unfold State.unfreeze
    dsimp only
    split
    · obtain ⟨e, he⟩ := mireDescs_sets { u with sets := { u.sets with frozen := false, phase := 0 } }
      rw [he]
    · exact Bool.eq_false_iff.mpr ‹_›
  unfold ThawsWith
  rw [done_sets, hv]
  refine ⟨?_, fun p => ?_, ?_, ?_, hdue⟩
  · rw [hset, hm]
  · rw [unfreeze_descs, hm, hdesc]
  · rw [hset]
  · rw [hset]

end

end Sys2Proof.Machine

/-! The commands that freeze the Maquette (R455, R456, R458, R460, R574): what each accepted one does, what
REVERT_COPY_END leaves, and the obligations they settle. -/

namespace Sys2Proof.Machine

section
variable {s : State} {r : Req} {o : Outstanding} {op obj aux phase : Nat}

/-! ### Requests that wait with the Maquette frozen -/

/-- The end of a step that puts a request among the outstanding commands and changes the sets. -/
def State.deferredSets (s : State) (r : Req) (op obj aux phase : Nat) (f : Sets → Sets) : State :=
  State.done s { (s.take r).defer r op obj aux phase with sets := f s.sets }

/-- The request waits, and the sets are all that has changed besides. -/
theorem deferredSets_changes (f : Sets → Sets) :
    Waits s (s.deferredSets r op obj aux phase f) r op obj aux phase ∧
      (s.deferredSets r op obj aux phase f).sets = f s.sets ∧
      KeptBut [.requests, .sets] s (s.deferredSets r op obj aux phase f) := by
  refine ⟨waits_of_defer rfl, done_sets .., ?_⟩
  exact (((take_spares (by decide)).trans (defer_spares (by decide))).trans (spares_sets (by decide))).done

/-- A Maquette frozen for a validation. -/
def Sets.frozenFor (x : Sets) : Sets := { x with frozen := true, phase := 1 }

theorem expected_of_eq {expect : Option Word} (h : expect = none ∨ expect = some s.sets.maqSeq) :
    expect.any (fun e => e != s.sets.maqSeq) = false := by
  rcases h with rfl | rfl <;> simp

theorem exec_setUnveil {expect : Option Word} {at_ : Option DWord}
    (ha : Accepts s r 0x0501 { long := true, standbyOk := false }) (hz : s.sets.frozen = false)
    (hd : s.detaching = false) (he : expect = none ∨ expect = some s.sets.maqSeq) :
    exec (.setUnveil r expect at_) s = .next (s.deferredSets r 0x0501 (b2n at_.isSome) ((at_.getD 0#64).toNat) 1
      Sets.frozenFor) := by
  have hd' : (s.take r).detaching = false := hd
  show execSetUnveil r expect at_ s = _
  rw [execSetUnveil, umser_accepts ha]
  simp only [take_sets, hz, hd', expected_of_eq he]
  rfl

theorem exec_setUnveil_stale {expect : Word} {at_ : Option DWord}
    (ha : Accepts s r 0x0501 { long := true, standbyOk := false }) (hz : s.sets.frozen = false)
    (hd : s.detaching = false) (he : expect ≠ s.sets.maqSeq) : exec (.setUnveil r (some expect) at_) s =
      .next (State.done s ((s.take r).refuse r 0x0501 stStale s.sets.maqSeq.toNat)) := by
  have hd' : (s.take r).detaching = false := hd
  have hstale : (some expect).any (fun e => e != s.sets.maqSeq) = true := by simp [he]
  show execSetUnveil r (some expect) at_ s = _
  rw [execSetUnveil, umser_accepts ha]
  simp only [take_sets, hz, hd', hstale]
  rfl

theorem exec_setValidate {expect : Option Word} (ha : Accepts s r 0x0502 { long := true, standbyOk := false })
    (hz : s.sets.frozen = false) (he : expect = none ∨ expect = some s.sets.maqSeq) :
    exec (.setValidate r expect) s = .next (s.deferredSets r 0x0502 0 0 1 Sets.frozenFor) := by
  show execSetValidate r expect s = _
  rw [execSetValidate, umser_accepts ha]
  simp only [take_sets, hz, expected_of_eq he]
  rfl

theorem exec_placePreview {first count : Nat} (ha : Accepts s r 0x0211 { long := true }) (hf : first < 4096)
    (hc : count ≠ 0 ∧ count ≤ 2048 ∧ first + count ≤ 4096) : exec (.placePreview r first count) s =
      .next (State.done s ((s.take r).defer r 0x0211 first count 1)) := by
  obtain ⟨hne, hle, hsum⟩ := hc
  show execPlacePreview r first count s = _
  rw [execPlacePreview, umser_accepts ha, if_neg (by omega),
    if_neg (show ¬ (count = 0 ∨ 2048 < count ∨ 4096 < first + count) by omega)]

theorem exec_loopSchedRead (ha : Accepts s r 0x0C05 { long := true }) (hs : r.set = false) :
    exec (.loopSchedRead r) s = .next (State.done s ((s.take r).ok r 0x0C05 []
      ((List.range 16).flatMap (s.schedRecord s.sets.cast)))) := by
  show execLoopSchedRead r s = _
  rw [execLoopSchedRead, umser_accepts ha, hs]
  rfl

/-! ### SET_REVERT and SET_STATUS_READ -/

theorem exec_setRevert (ha : Accepts s r 0x0503 { long := true, standbyOk := false })
    (hz : s.sets.frozen = false) : exec (.setRevert r) s =
      .next (s.deferredSets r 0x0503 0 0 0 (fun x => { x with frozen := true })) := by
  show execSetRevert r s = _
  rw [execSetRevert, umser_accepts ha]
  simp only [take_sets, hz]
  rfl

theorem exec_setStatusRead (ha : Accepts s r 0x0504 {}) : exec (.setStatusRead r) s =
    .next (State.done s ((s.take r).ok r 0x0504
      (leBytes 4 s.sets.status.toNat ++ leBytes 4 s.sets.maqSeq.toNat ++ leBytes 4 s.sets.val.toNat ++
        leBytes 8 s.sets.digest.toNat ++ leBytes 8 s.sets.unvMt.toNat) [])) := by
  show execSetStatusRead r s = _
  rw [execSetStatusRead, umser_accepts ha]
  rfl

/-- The sets with the Cast's content in the Maquette, before it thaws (R458). -/
def Sets.reverted (x : Sets) : Sets :=
  { x with maq := maquetteOf x.cast, maqSeq := x.maqSeq + 1#32, valid := false, rstStale := false }

/-- The state once the Cast is copied back and the partner is told. -/
def State.reverts (s : State) : State :=
  { ((s.modMaq (fun _ => maquetteOf s.sets.cast)).edited).tell 6 with sets := s.sets.reverted }

theorem reverts_spares : Spares [.sets] s s.reverts :=
  ((spares_sets (by decide)).trans (tell_spares _ 6)).trans (spares_sets (by decide))

theorem reverts_ident : s.reverts.ident = s.ident := by
  show (((s.modMaq (fun _ => maquetteOf s.sets.cast)).edited).tell 6).ident = s.ident
  unfold State.tell
  split <;> rfl

theorem exec_revertCopyEnd (ho : s.host.outst.find? (fun x => x.opcode == 0x0503) = some o)
    (hm : s.rst.mgmtUp = true) : exec .revertCopyEnd s = .next (State.done s
      (s.reverts.unfreeze.complete (fun x => x.opcode == 0x0503)
        { status := stOk, result := leBytes 4 (s.sets.maqSeq + 1#32).toNat })) := by
  have hany : s.host.outst.any (fun x => x.opcode == 0x0503) = true :=
    List.any_eq_true.mpr ⟨o, List.mem_of_find?_eq_some ho, (List.find?_some ho :)⟩
  have htell : (((s.modMaq (fun _ => maquetteOf s.sets.cast)).edited).tell 6).sets =
      ((s.modMaq (fun _ => maquetteOf s.sets.cast)).edited).sets := tell_sets ..
  obtain ⟨b, d, hsets⟩ := unfreeze_sets s.reverts
  have hseq : s.reverts.unfreeze.sets.maqSeq = s.sets.maqSeq + 1#32 := by rw [hsets]; rfl
  rw [← hseq]
  show execRevertCopyEnd s = _
  rw [execRevertCopyEnd, hany, hm]
  simp only [htell]
  rfl

end

/-- Settles O10: a revert waits with the Maquette frozen; its end copies the Cast, thaws (`thawsWith_unfreeze`) and
answers the command (`completes_first`). -/
theorem setRevertAndStatus : Obligations.SetRevertAndStatus := by
  unfold Obligations.SetRevertAndStatus
  refine ⟨fun s r ha hz => ⟨_, exec_setRevert ha hz, ?_⟩, fun s o ho hm => ⟨_, exec_revertCopyEnd ho hm, ?_⟩,
    fun s r ha => ⟨_, exec_setStatusRead ha, take_ok_done ha⟩⟩
  · obtain ⟨hwaits, hsets, hkept⟩ := deferredSets_changes (s := s) (r := r) (op := 0x0503) (obj := 0) (aux := 0)
      (phase := 0) (fun x => { x with frozen := true })
    rw [hsets]
    exact ⟨hwaits, rfl, rfl, rfl, hkept⟩
  · obtain ⟨b, d, hsets⟩ := unfreeze_sets s.reverts
    obtain ⟨hdone, houtst, hfetched, hkept⟩ :=
      completes_first (reverts_spares.trans (unfreeze_spares _ (by decide))) (by decide) (by rw [hsets]; rfl) ho
    have hthaws := thawsWith_unfreeze reverts_spares reverts_ident rfl rfl
      (complete_sets (s := s.reverts.unfreeze) (q := fun x => x.opcode == 0x0503)
        (a := { status := stOk, result := leBytes 4 (s.sets.maqSeq + 1#32).toNat }))
    refine ⟨hthaws, ?_⟩
    rw [done_sets, complete_sets, hsets]
    exact ⟨rfl, rfl, rfl, rfl, hdone, houtst, hfetched, hkept⟩

/-- Settles O12: each accepted command that validates waits with its arguments, the Maquette frozen where it is to be
transferred or judged; a stale expectation and LOOP_SCHED_READ are answered at once. -/
theorem validationCommandsFreezeTheMaquette : Obligations.ValidationCommandsFreezeTheMaquette := by
  unfold Obligations.ValidationCommandsFreezeTheMaquette
  refine ⟨fun s r expect at_ ha hz hd he => ⟨_, exec_setUnveil ha hz hd he, ?_⟩,
    fun s r expect at_ ha hz hd he => ⟨_, exec_setUnveil_stale ha hz hd he, ?_⟩,
    fun s r expect ha hz he => ⟨_, exec_setValidate ha hz he, ?_⟩,
    fun s r first count ha hf hc => ⟨_, exec_placePreview ha hf hc, waits_of_defer rfl, defer_keptBut⟩,
    fun s r ha hs => ⟨_, exec_loopSchedRead ha hs, take_ok_done ha⟩⟩
  · obtain ⟨hwaits, hsets, hkept⟩ := deferredSets_changes (s := s) (r := r) (op := 0x0501) (obj := b2n at_.isSome)
      (aux := (at_.getD 0#64).toNat) (phase := 1) Sets.frozenFor
    rw [hsets]
    exact ⟨hwaits, rfl, rfl, rfl, rfl, hkept⟩
  · exact ⟨answers_of_reply (opened_of_accepts ha) rfl rfl rfl,
      ((take_spares (by decide)).trans (answer_spares (by decide) (by decide) _ _)).done⟩
  · obtain ⟨hwaits, hsets, hkept⟩ := deferredSets_changes (s := s) (r := r) (op := 0x0502) (obj := 0) (aux := 0)
      (phase := 1) Sets.frozenFor
    rw [hsets]
    exact ⟨hwaits, rfl, rfl, rfl, rfl, hkept⟩

end Sys2Proof.Machine

/-! The ends of a validation (R455, R459, R460, R461, R574): a set handed to the Unveil boundary, or a command
answered, and the obligation they settle. -/

namespace Sys2Proof.Machine

section
variable {s u : State} {o : Outstanding} {e : Failure} {image : CfgSet} {pl : Plan}

/-! ### A set handed over -/

/-- The set that SET_UNVEIL hands to the boundary (R461, R466). -/
def State.transferOf (s : State) (o : Outstanding) (image : CfgSet) : Transfer :=
  { image := image, internal := false, acked := false, migrated := []
    at_ := if o.obj = 1 then some (BitVec.ofNat 64 o.aux) else none
    late := decide (o.obj = 1) && mtLe (BitVec.ofNat 64 o.aux) s.mt.mt && BitVec.ofNat 64 o.aux != s.mt.mt
    paired := s.leads, target := s.pairTarget }

/-- The state with a valid Maquette handed over and its command in phase 2. -/
def State.transferring (s : State) (o : Outstanding) (image : CfgSet) (n : Nat) : State :=
  ({ s.modOutst 0x0501 (fun x => { x with phase := 2, aux := n }) with
      sets := { s.sets with val := 0#32, phase := 2, transfer := some (s.transferOf o image) } }).tell 8

theorem transferring_spares (n : Nat) : Spares [.sets, .requests] s (s.transferring o image n) := by
  have h : Spares [.sets, .requests] s (s.modOutst 0x0501 (fun x => { x with phase := 2, aux := n })) :=
    ⟨rfl, fun p hp => by cases p <;> simp_all [Kept, State.modOutst]⟩
  exact (h.trans (spares_sets (by decide))).trans (tell_spares _ 8)

theorem tell_host (s : State) (ftype : Nat) : (s.tell ftype).host = s.host := by
  unfold State.tell
  split <;> rfl

theorem exec_unveilTransfer_ok (ho : s.unveiling = some o) (hc : s.canTransfer = true) (hm : s.migrations = [])
    (hv : s.validate s.sets.maq = .ok (image, pl)) : exec .unveilTransfer s =
      .next (State.done s (s.transferring o image pl.unplaced.length)) := by
  show execUnveilTransfer s = _
  rw [execUnveilTransfer, ho, hc, hm, hv]
  unfold State.transferring State.transferOf
  by_cases hobj : o.obj = 1
  · simp only [if_pos hobj, decide_eq_true hobj, Bool.true_and]
    rfl
  · simp only [if_neg hobj, decide_eq_false hobj, Bool.false_and]
    rfl

/-! ### A command answered as the Maquette thaws -/

/-- The state once the sets are changed and the Maquette thaws. -/
def State.thaws (s : State) (x : Sets) : State := ({ s with sets := x }).unfreeze

theorem thaws_spares (x : Sets) : Spares [.sets] s (s.thaws x) :=
  (spares_sets (by decide)).trans (unfreeze_spares _ (by decide))

/-- The command of a validation is answered as its Maquette thaws, and the sets have changed otherwise as given. -/
theorem thaws_answered {x : Sets} {q : Outstanding → Bool} {a : Answer} {t : State}
    (hm : x.maq = s.sets.maq) (hd : x.mireDue = s.sets.mireDue) (hc : x.castSeq = s.sets.castSeq)
    (hf : s.host.outst.find? q = some o) (ht : t = State.done s ((s.thaws x).complete q a)) :
    Completed s t o a ∧ t.host.outst = dropFirst q s.host.outst ∧ t.host.fetched = s.host.fetched ∧
      ThawsWith s t s.sets.maq ∧
      { t.sets with maq := s.sets.maq, mireDue := s.sets.mireDue } = { x with frozen := false, phase := 0 } ∧
      KeptBut [.sets, .requests, .mbx, .window] s t := by
  subst ht
  obtain ⟨b, d, hsets⟩ := unfreeze_sets { s with sets := x }
  have hthawed : (s.thaws x).sets =
      { x with frozen := false, phase := 0, mireDue := b, maq := { x.maq with descs := d } } := hsets
  have hcast : (s.thaws x).sets.castSeq = s.sets.castSeq := by rw [hthawed]; exact hc
  obtain ⟨hdone, houtst, hfetched, -⟩ := completes_first (thaws_spares x) (by decide) hcast hf (a := a)
  refine ⟨hdone, houtst, hfetched, ?_, ?_, ?_⟩
  · exact thawsWith_unfreeze (u := { s with sets := x }) (spares_sets (by decide)) rfl hm hd complete_sets
  · rw [done_sets, complete_sets, hthawed, ← hm, ← hd]
  · exact (((thaws_spares x).mono (by decide)).trans (complete_spares (by decide) (by decide) (by decide) q a)).done

/-- The sets with the outcome of a validation that an Unveil, or a SET_VALIDATE, ends with (R459, R460). -/
def Sets.rejected (x : Sets) (e : Failure) : Sets := { x with val := e.word, rejCnt := bump x.rejCnt }
def Sets.failed (x : Sets) (e : Failure) : Sets := { x with val := e.word }
def Sets.passed (x : Sets) : Sets := { x with val := 0#32, valid := true, rstStale := false }

theorem exec_unveilTransfer_error (ho : s.unveiling = some o) (hc : s.canTransfer = true) (hm : s.migrations = [])
    (hv : s.validate s.sets.maq = .error e) : exec .unveilTransfer s =
      .next (State.done s ((s.thaws (s.sets.rejected e)).complete
        (fun x => x.opcode == 0x0501 && x.phase == 1) { status := e.status, detail := e.detail })) := by
  show execUnveilTransfer s = _
  rw [execUnveilTransfer, ho, hc, hm, hv]
  rfl

/-! ### Commands that only validate -/

/-- A command that only validates. -/
def validates (x : Outstanding) : Bool := x.opcode == 0x0502 || x.opcode == 0x0211

theorem exec_validationEnd_set (ho : s.host.outst.find? validates = some o) (hop : o.opcode = 0x0502)
    (hm : s.rst.mgmtUp = true) (hg : s.migrations = []) :
    exec .validationEnd s = .next (State.done s s.validateEnd) := by
  have ho' : s.host.outst.find? (fun o => o.opcode == 0x0502 || o.opcode == 0x0211) = some o := ho
  show execValidationEnd s = _
  rw [execValidationEnd, ho', hm, hg]
  simp [hop]
  rfl

theorem exec_validationEnd_preview (ho : s.host.outst.find? validates = some o) (hop : o.opcode = 0x0211)
    (hm : s.rst.mgmtUp = true) : exec .validationEnd s = .next (State.done s (s.previewEnd o)) := by
  have ho' : s.host.outst.find? (fun o => o.opcode == 0x0502 || o.opcode == 0x0211) = some o := ho
  show execValidationEnd s = _
  rw [execValidationEnd, ho', hm]
  simp [hop]
  rfl

theorem validateEnd_ok (hv : s.validate s.sets.maq = .ok (image, pl)) : s.validateEnd =
    (s.thaws s.sets.passed).complete
      (fun x => x.opcode == 0x0502) { status := stOk, result := leBytes 2 pl.unplaced.length } := by
  rw [State.validateEnd, hv]
  rfl

theorem validateEnd_error (hv : s.validate s.sets.maq = .error e) : s.validateEnd =
    (s.thaws (s.sets.failed e)).complete
      (fun x => x.opcode == 0x0502) { status := e.status, detail := e.detail } := by
  rw [State.validateEnd, hv]
  rfl

/-- The PLACE_PREVIEW that ends is the first one of its mailbox and tag. -/
theorem find?_preview (ho : s.host.outst.find? validates = some o) (hop : o.opcode = 0x0211) :
    s.host.outst.find? (fun x => x.opcode == 0x0211 && x.mbx == o.mbx && x.tag == o.tag) = some o := by
  obtain ⟨-, as, bs, hl, hbefore⟩ := List.find?_eq_some_iff_append.mp ho
  refine List.find?_eq_some_iff_append.mpr ⟨by simp [hop], as, bs, hl, fun x hx => ?_⟩
  have hb := hbefore x hx
  simp only [validates, Bool.not_eq_true', Bool.or_eq_false_iff] at hb
  rw [hb.2]
  rfl

theorem previewEnd_none (hc : check1 s.sets.maq = none) : s.previewEnd o =
    State.complete { s with free := s.free + 4096 } (fun x => x.opcode == 0x0211 && x.mbx == o.mbx && x.tag == o.tag)
      ⟨stOk, 0, leBytes 2 o.aux ++ leBytes 2 s.preview.2,
        (List.range o.aux).flatMap (fun i => placeRecord s.preview.1 (o.obj + i)), false⟩ := by
  rw [State.previewEnd, hc]

theorem previewEnd_some (hc : check1 s.sets.maq = some e) : s.previewEnd o =
    s.complete (fun x => x.opcode == 0x0211 && x.mbx == o.mbx && x.tag == o.tag)
      { status := e.status, detail := e.detail } := by
  rw [State.previewEnd, hc]

end

/-- Settles O13: a set that passes is handed over (`transferring`), and every other end answers its command as
`thaws_answered` or `completes_first` says. -/
theorem validationsEnd : Obligations.ValidationsEnd := by
  unfold Obligations.ValidationsEnd
  refine ⟨fun s o image pl ho hc hm hv => ⟨_, exec_unveilTransfer_ok ho hc hm hv, ?_⟩,
    fun s o e ho hc hm hv => ⟨_, exec_unveilTransfer_error ho hc hm hv, ?_⟩,
    fun s o image pl ho hop hm hg hv => ⟨_, exec_validationEnd_set ho hop hm hg, ?_⟩,
    fun s o e ho hop hm hg hv => ⟨_, exec_validationEnd_set ho hop hm hg, ?_⟩,
    fun s o ho hop hm hc => ⟨_, exec_validationEnd_preview ho hop hm, ?_⟩,
    fun s o e ho hop hm hc => ⟨_, exec_validationEnd_preview ho hop hm, ?_⟩⟩
  · refine ⟨?_, ?_, ?_, (transferring_spares _).done⟩
    · rw [done_sets, State.transferring, tell_sets]
      rfl
    · rw [done_host_outst, State.transferring, tell_host]
      rfl
    · rw [done_host_fetched, State.transferring, tell_host]
      rfl
  · exact thaws_answered (x := s.sets.rejected e) rfl rfl rfl ho rfl
  · rw [validateEnd_ok hv]
    exact thaws_answered (x := s.sets.passed) rfl rfl rfl (find?_of_or ho (by simp [hop])) rfl
  · rw [validateEnd_error hv]
    exact thaws_answered (x := s.sets.failed e) rfl rfl rfl (find?_of_or ho (by simp [hop])) rfl
  · rw [previewEnd_none hc]
    have hs : Spares [.free] s { s with free := s.free + 4096 } :=
      ⟨rfl, fun p hp => by cases p <;> simp_all [Kept]⟩
    obtain ⟨hdone, houtst, hfetched, hkept⟩ := completes_first hs (by decide) rfl (find?_preview ho hop)
    exact ⟨hdone, houtst, hfetched, hkept.mono (by decide)⟩
  · rw [previewEnd_some hc]
    obtain ⟨hdone, houtst, hfetched, hkept⟩ := completes_first (l := []) .refl (by decide) rfl (find?_preview ho hop)
    exact ⟨hdone, houtst, hfetched, hkept.mono (by decide)⟩

end Sys2Proof.Machine

/-! A transferred set whose placement table lists a figure twice, first on no stage and then on one: the swap goes by
the first entry for the figure's record and by every entry for the figures that enter (R461). The obligation on
Unveils has no premise that a table lists each figure once. -/

namespace Sys2Proof.Machine

section

/-- A host set that lands now, with figure 5 placed on no stage and listed again on port 0. -/
def listedTwice : State :=
  { State.reset with
    rst := { State.reset.rst with ctrlUp := true }
    sets := { State.reset.sets with transfer := some {
      image := { State.reset.sets.cast with
        figs := [5]
        place := [(5, { Placement.init with state := .placed, members := [] }),
                  (5, { Placement.init with state := .placed, members := [0] })] }
      at_ := none, late := false, internal := false, paired := false, target := 0#64, acked := false
      migrated := [] } } }

/-- The second entry brings figure 5 in, and its first has the swap enable it. -/
theorem unveilSwap_listedTwice (t : State) (h : exec .unveilSwap listedTwice = .next t) :
    (t.figAt 5).enabled = true := by
  obtain rfl := Host.Outcome.next.inj h
  rw [done_figAt]
  rfl

/-- Refutes O14: an Unveil disables the figures whose record names no stage, says its first clause, and the swap of
`listedTwice` enables figure 5. -/
theorem not_unveilsAndLiveWritesTakeEffect : ¬ Obligations.UnveilsAndLiveWritesTakeEffect := by
  intro h
  obtain ⟨swap, -⟩ := h
  obtain ⟨t, ht, -, -, hdisabled, -⟩ := swap listedTwice _ rfl rfl rfl
  have hoff := hdisabled 5 rfl
  rw [unveilSwap_listedTwice t ht] at hoff
  exact absurd hoff (by decide)

end

end Sys2Proof.Machine

/-! Pops of a queue (R483 to R485, R498): the words of the packet at its front, what is left of the queue, and the
obligation they settle. -/

namespace Sys2Proof.Machine

section
variable {s u : State} {r : Req} {op qid words first count : Nat} {g : Gate} {a : Answer} {p : Packet}
  {rest : List Packet}

/-! ### Requests that change the queues and are answered -/

theorem reply_que (a : Answer) : (u.reply r op a).que = u.que := by
  obtain ⟨m, c, y, z, i, e⟩ := answer_eq u (waiterOf r op u) a
  rw [State.reply, e]

/-- A request is answered once the queues are all it has changed. -/
theorem que_answered (ha : Accepts s r op g) (hu : Spares [.que] (s.take r) u) (hc : u.sets.castSeq = s.sets.castSeq) :
    Answers s (State.done s (u.reply r op a)) r op a ∧ (State.done s (u.reply r op a)).que = u.que ∧
      KeptBut [.mbx, .requests, .window, .que] s (State.done s (u.reply r op a)) := by
  refine ⟨answers_of_spares (opened_of_accepts ha) hu (by decide) hc, ?_, ?_⟩
  · rw [done_que, reply_que]
  · exact (((take_spares (by decide)).trans (hu.mono (by decide))).trans
      (answer_spares (by decide) (by decide) _ _)).done

/-- QUE_STAT hangs on the queues, the rings, the storage and the Cast. -/
theorem queStat_congr {t : State} (hq : t.que = u.que) (hh : t.host.hdr = u.host.hdr) (ho : t.sto = u.sto)
    (hs : t.sets = u.sets) : t.queStat qid = u.queStat qid := by
  have hmode (f : Nat) : t.archMode f = u.archMode f := by
    simp only [State.archMode, State.archiveOn, State.castN, ho, hs]
    rfl
  simp only [State.queStat, State.queAt, State.boundTo, State.defined, hmode, hq, hh, hs]
  rfl

/-- An answer of a pop reads QUE_STAT as the step leaves it. -/
theorem done_popAnswer {seq : Word} {l : List (DWord × Nat)} :
    (State.done s (u.reply r op a)).popAnswer qid seq l = u.popAnswer qid seq l := by
  have hr : Spares [.mbx, .window] u (u.reply r op a) := answer_spares (by decide) (by decide) _ _
  have hk (x : Piece) (hx : x ∉ [Piece.mbx, .window]) : Kept u (State.done s (u.reply r op a)) x :=
    (hr.parts x hx).trans (done_kept ..)
  rw [State.popAnswer, queStat_congr (hk .que (by decide)) (hk .hdr (by decide)) (hk .sto (by decide))
    (hk .sets (by decide)), State.popAnswer]

/-! ### The words of a packet -/

theorem tagged_length (gap : Bool) : (p.tagged gap).length = p.words := by
  simp only [Packet.tagged, List.length_map, List.length_range, List.length_cons, Packet.words]
  omega

/-- Words that do not reach the end of the packet at the front. -/
theorem pop_short {q : Queue} {n : Nat} (h : q.pkts = p :: rest) (hn : q.pos + n < p.words) :
    (q.pop n).pkts = p :: rest ∧ (q.pop n).pos = q.pos + n ∧ (q.pop n).next = q.next ∧
      (q.pop n).credit = q.credit := by
  have hle : ¬ p.words ≤ q.pos + n := Nat.not_le.mpr hn
  by_cases h0 : q.pos = 0
  · simp only [Queue.pop, h, if_pos h0, if_neg hle]
    exact ⟨trivial, trivial, trivial, trivial⟩
  · simp only [Queue.pop, h, if_neg h0, if_neg hle]
    exact ⟨trivial, trivial, trivial, trivial⟩

/-- Words up to the end of the packet at the front. -/
theorem pop_last {q : Queue} {n : Nat} (h : q.pkts = p :: rest) (hn : p.words ≤ q.pos + n) :
    (q.pop n).pkts = rest ∧ (q.pop n).pos = 0 ∧ (q.pop n).next = q.next := by
  by_cases h0 : q.pos = 0
  · simp only [Queue.pop, h, if_pos h0, if_pos hn]
    exact ⟨trivial, trivial, trivial⟩
  · simp only [Queue.pop, h, if_neg h0, if_pos hn]
    exact ⟨trivial, trivial, trivial⟩

/-! ### QUE_POP -/

/-- What a pop of up to n words takes of a packet at the front. -/
def State.popped (s : State) (qid n : Nat) (p : Packet) : List (DWord × Nat) :=
  ((p.tagged (s.queAt qid).gap).drop (s.queAt qid).pos).take n

/-- The state once words have gone, before the answer (R483, R493). -/
def State.pops (s : State) (qid : Nat) (ws : List (DWord × Nat)) : State :=
  (s.modQue qid (fun q => q.pop ws.length)).countPoison (ws.filter (fun w => w.2.testBit 2)).length

theorem pops_spares (ws : List (DWord × Nat)) : Spares [.que] s (s.pops qid ws) :=
  (modQue_spares (by decide) _ _).trans (countPoison_spares (by decide) _)

theorem pops_queAt (ws : List (DWord × Nat)) (k : Nat) :
    (s.pops qid ws).queAt k = if k = qid then (s.queAt qid).pop ws.length else s.queAt k := by
  rw [State.pops, countPoison_queAt]
  split
  next h => rw [h, queAt_modQue_self]
  next h => rw [queAt_modQue_other _ _ h]

theorem pops_sets (ws : List (DWord × Nat)) : (s.pops qid ws).sets = s.sets :=
  (pops_spares ws).parts .sets (by decide)

/-- A QUE_POP that passes its checks gives up to as many words as are asked for and fit (R484). -/
theorem exec_quePop (ha : Accepts s r 0x0701 { needs := [5] }) (ho : 48 ≤ r.outLen) (hs : streamOk qid = true)
    (hw : 1 ≤ words ∧ words ≤ 66) (hb : s.boundTo qid = none) : exec (.quePop r qid words) s =
      .next (State.done s ((s.take r).popWords r qid (min words ((r.outLen - 40) / 8)))) := by
  obtain ⟨hpos, hmost⟩ := hw
  have hb' : (s.take r).boundTo qid = none := hb
  show execQuePop r qid words s = _
  rw [execQuePop, umser_accepts ha, if_neg (Nat.not_lt.mpr ho), if_neg (by simp [hs]),
    if_neg (show ¬ (words = 0 ∨ 66 < words) by omega), if_neg (by simp [hb'])]

theorem popWords_packet {n : Nat} (hp : (s.queAt qid).pkts = p :: rest) : s.popWords r qid n =
    (s.pops qid (s.popped qid n p)).reply r 0x0701
      ((s.pops qid (s.popped qid n p)).popAnswer qid p.seq (s.popped qid n p)) := by
  rw [State.popWords]
  simp only [hp]
  rfl

/-- The end of a pop of a packet at the front. -/
theorem exec_quePop_packet (ha : Accepts s r 0x0701 { needs := [5] }) (ho : 48 ≤ r.outLen)
    (hs : streamOk qid = true) (hw : 1 ≤ words ∧ words ≤ 66) (hb : s.boundTo qid = none)
    (hp : (s.queAt qid).pkts = p :: rest) (hfit : words ≤ (r.outLen - 40) / 8) :
    ∃ t, exec (.quePop r qid words) s = .next t ∧
      Answers s t r 0x0701 (t.popAnswer qid p.seq (s.popped qid words p)) ∧
      t.queAt qid = (s.queAt qid).pop (s.popped qid words p).length ∧ OnlyQue qid s t ∧
      KeptBut [.mbx, .requests, .window, .que] s t := by
  have hp' : ((s.take r).queAt qid).pkts = p :: rest := hp
  refine ⟨_, exec_quePop ha ho hs hw hb, ?_⟩
  rw [Nat.min_eq_left hfit, popWords_packet hp', done_popAnswer]
  obtain ⟨hans, hque, hkept⟩ := que_answered ha (pops_spares (qid := qid) ((s.take r).popped qid words p))
    (congrArg Sets.castSeq (pops_sets _)) (a := ((s.take r).pops qid ((s.take r).popped qid words p)).popAnswer qid
      p.seq ((s.take r).popped qid words p))
  refine ⟨hans, ?_, fun k hk => ?_, hkept⟩
  · rw [State.queAt, hque, ← State.queAt, pops_queAt, if_pos rfl]
    rfl
  · rw [State.queAt, hque, ← State.queAt, pops_queAt, if_neg hk]
    rfl

/-- The queue once a pop has found it empty (R484). -/
def State.idles (s : State) (qid : Nat) : State := s.modQue qid (fun q => { q with idled := q.divert.isSome })

theorem popWords_empty {n : Nat} (hp : (s.queAt qid).pkts = []) : s.popWords r qid n =
    (s.idles qid).reply r 0x0701 ((s.idles qid).popAnswer qid (s.queAt qid).next [idleItem]) := by
  rw [State.popWords]
  simp only [hp]
  rfl

/-! ### QUE_DROP_REST and the status -/

/-- The state once the rest of a packet is dropped (R485). -/
def State.dropsRest (s : State) (qid : Nat) (rest : List Packet) : State :=
  let t := s.modQue qid (fun q => { q with pkts := rest, pos := 0 })
  { t with que := { t.que with flags := s.que.flags ||| 0x40#32, dropCnt := bump s.que.dropCnt } }

theorem dropsRest_spares (rest : List Packet) : Spares [.que] s (s.dropsRest qid rest) :=
  (modQue_spares (by decide) _ _).trans (spares_que (by decide))

theorem exec_queDropRest (ha : Accepts s r 0x0702 { needs := [5] }) (hs : streamOk qid = true)
    (hb : s.boundTo qid = none) (hp : (s.queAt qid).pkts = p :: rest) (h0 : (s.queAt qid).pos ≠ 0) :
    exec (.queDropRest r qid) s = .next (State.done s (((s.take r).dropsRest qid rest).ok r 0x0702
      (leBytes 2 (p.words - (s.queAt qid).pos) ++ leBytes 2 0 ++ leBytes 4 p.seq.toNat) [])) := by
  have hb' : (s.take r).boundTo qid = none := hb
  have hq : (s.take r).queAt qid = s.queAt qid := rfl
  show execQueDropRest r qid s = _
  rw [execQueDropRest, umser_accepts ha]
  simp only [hs, hb', hq, hp, if_neg h0, Bool.not_true, Option.isSome_none, if_neg Bool.false_ne_true]
  rfl

theorem exec_queStatusRead (ha : Accepts s r 0x0706 {}) (hf : first < 262144)
    (hc : count ≠ 0 ∧ count ≤ 64 ∧ first + count ≤ 262144) : exec (.queStatusRead r first count) s =
      .next (State.done s ((s.take r).ok r 0x0706 []
        ((List.range count).flatMap (fun i => s.queStatusEntry (first + i))))) := by
  obtain ⟨hne, hle, hsum⟩ := hc
  show execQueStatusRead r first count s = _
  rw [execQueStatusRead, umser_accepts ha, if_neg (by omega),
    if_neg (show ¬ (count = 0 ∨ 64 < count ∨ 262144 < first + count) by omega)]
  rfl

end

/-- Settles O18: a pop answers what it takes of the packet at the front (`exec_quePop_packet`), and the packet leaves
with its last word (`pop_short`, `pop_last`). -/
theorem queuesPopAndDrop : Obligations.QueuesPopAndDrop := by
  unfold Obligations.QueuesPopAndDrop
  refine ⟨fun s r qid words p rest ha ho hs hw hb hp hfit hn => ?_,
    fun s r qid words p rest ha ho hs hw hb hp hfit _ hn => ?_,
    fun s r qid words ha ho hs hw hb hp => ⟨_, exec_quePop ha ho hs hw hb, ?_⟩,
    fun s r qid p rest ha hs hb hp h0 => ⟨_, exec_queDropRest ha hs hb hp h0, ?_⟩,
    fun s r first count ha hf hc => ⟨_, exec_queStatusRead ha hf hc, take_ok_done ha⟩⟩
  · obtain ⟨t, ht, hans, hq, honly, hkept⟩ := exec_quePop_packet ha ho hs hw hb hp hfit
    have hlen : (s.popped qid words p).length = words := by
      rw [State.popped, List.length_take, List.length_drop, tagged_length]
      omega
    rw [hlen] at hq
    obtain ⟨hpkts, hpos, hnext, hcredit⟩ := pop_short hp hn
    exact ⟨t, ht, hans, by rw [hq, hpkts], by rw [hq, hpos], by rw [hq, hnext], by rw [hq, hcredit], honly, hkept⟩
  · obtain ⟨t, ht, hans, hq, honly, hkept⟩ := exec_quePop_packet ha ho hs hw hb hp hfit
    have hall : s.popped qid words p = (p.tagged (s.queAt qid).gap).drop (s.queAt qid).pos := by
      rw [State.popped, List.take_of_length_le]
      rw [List.length_drop, tagged_length]
      omega
    have hlen : (s.popped qid words p).length = p.words - (s.queAt qid).pos := by
      rw [hall, List.length_drop, tagged_length]
    obtain ⟨hpkts, hpos, hnext⟩ := pop_last (n := (s.popped qid words p).length) hp (by omega)
    rw [hall] at hans
    exact ⟨t, ht, hans, by rw [hq, hpkts], by rw [hq, hpos], by rw [hq, hnext], honly, hkept⟩
  · have hp' : ((s.take r).queAt qid).pkts = [] := hp
    rw [popWords_empty hp', done_popAnswer]
    obtain ⟨hans, hque, hkept⟩ := que_answered ha (u := (s.take r).idles qid) (modQue_spares (by decide) _ _) rfl
      (a := ((s.take r).idles qid).popAnswer qid (s.queAt qid).next [idleItem])
    have hat : (State.done s (((s.take r).idles qid).reply r 0x0701
        (((s.take r).idles qid).popAnswer qid (s.queAt qid).next [idleItem]))).queAt = ((s.take r).idles qid).queAt := by
      funext k
      rw [State.queAt, hque, ← State.queAt]
    refine ⟨hans, ?_, ?_, fun k hk => ?_, hkept⟩
    · exact (congrArg Queue.pkts (congrFun hat qid)).trans ((congrArg Queue.pkts (queAt_modQue_self ..)).trans hp)
    · exact (congrArg Queue.next (congrFun hat qid)).trans ((congrArg Queue.next (queAt_modQue_self ..)).trans rfl)
    · exact (congrFun hat k).trans (queAt_modQue_other _ _ hk)
  · obtain ⟨hans, hque, hkept⟩ := que_answered ha (dropsRest_spares (qid := qid) rest) rfl
      (a := ⟨stOk, 0, leBytes 2 (p.words - (s.queAt qid).pos) ++ leBytes 2 0 ++ leBytes 4 p.seq.toNat, [], false⟩)
    have hat (k : Nat) : tget Queue.init ((s.take r).dropsRest qid rest).que.q k =
        ((s.take r).modQue qid (fun q => { q with pkts := rest, pos := 0 })).queAt k := rfl
    unfold State.ok
    refine ⟨hans, ?_, ?_, ?_, ?_, fun k hk => ?_, hkept⟩
    · rw [State.queAt, hque, hat, queAt_modQue_self]
    · rw [State.queAt, hque, hat, queAt_modQue_self]
    · rw [hque]
      rfl
    · rw [hque]
      rfl
    · rw [State.queAt, hque, hat, queAt_modQue_other _ _ hk]
      rfl

end Sys2Proof.Machine

/-! SUPPORT. What the operations about one queue leave of the others (R476, R482, R487 to R490, R494): their records go
to stream 2 of the same figure, or to the error ring when they are about that stream itself. -/

namespace Sys2Proof.Machine

section
variable {s t u : State} {qid k : Nat} {l : List Piece} {p : Packet} {b : Building}

/-- No queue but stream 2 of a queue's figure, when that is another one, has changed. -/
structure Records (qid : Nat) (s t : State) : Prop where
  others : ∀ k, k ≠ 64 * qidFig qid + 2 ∨ k = qid → t.queAt k = s.queAt k
  flushes : t.que.flushes = s.que.flushes

theorem Records.refl : Records qid s s := ⟨fun _ _ => rfl, rfl⟩

theorem Records.trans (h : Records qid s t) (j : Records qid t u) : Records qid s u :=
  ⟨fun k hk => (j.others k hk).trans (h.others k hk), j.flushes.trans h.flushes⟩

theorem Records.of_que (h : t.que = s.que) : Records qid s t :=
  ⟨fun _ _ => by rw [State.queAt, h, State.queAt], by rw [h]⟩

theorem Records.self (h : Records qid s t) : t.queAt qid = s.queAt qid := h.others qid (.inr rfl)

/-- Of the other queues only stream 2 of the queue's figure has changed, and the queue itself keeps its next SEQ and
what is built for it. -/
structure Within (qid : Nat) (s t : State) : Prop where
  others : ∀ k, k ≠ qid → k ≠ 64 * qidFig qid + 2 → t.queAt k = s.queAt k
  next : (t.queAt qid).next = (s.queAt qid).next
  due : (t.queAt qid).due = (s.queAt qid).due

theorem Within.refl : Within qid s s := ⟨fun _ _ _ => rfl, rfl, rfl⟩

theorem Within.trans (h : Within qid s t) (j : Within qid t u) : Within qid s u :=
  ⟨fun k hk he => (j.others k hk he).trans (h.others k hk he), j.next.trans h.next, j.due.trans h.due⟩

theorem Records.within (h : Records qid s t) : Within qid s t :=
  ⟨fun k _ he => h.others k (.inl he), by rw [h.self], by rw [h.self]⟩

theorem within_of_que (h : t.que = s.que) : Within qid s t := (Records.of_que h).within

theorem Within.ite {c : Prop} [Decidable c] (ht : Within qid s t) (hu : Within qid s u) :
    Within qid s (if c then t else u) := by
  split <;> assumption

/-- A change of the queue itself that keeps its next SEQ and what is built for it. -/
theorem within_modQue (f : Queue → Queue) (hn : ∀ q, (f q).next = q.next) (hd : ∀ q, (f q).due = q.due) :
    Within qid s (s.modQue qid f) :=
  ⟨fun _ hk _ => queAt_modQue_other _ _ hk, by rw [queAt_modQue_self, hn], by rw [queAt_modQue_self, hd]⟩

/-! ### Records -/

theorem log_que (e : ErrSpec) : (s.log e).que = s.que := (log_spares (l := []) s e).parts .que (by decide)

theorem queueEvent_records (e : QueueEvent) : Records qid s (s.queueEvent qid e) := by
  unfold State.queueEvent
  split
  next => exact .of_que (log_que _)
  next h2 =>
    unfold State.produceRecord State.produce
    split
    next =>
      refine ⟨fun k hk => queAt_modQue_other _ _ ?_, rfl⟩
      rcases hk with hk | rfl
      · exact hk
      · unfold qidStream at h2
        unfold qidFig
        omega
    next => exact .refl

theorem queFlag_records (m : Word) : Records qid s (s.queFlag m) := ⟨fun _ _ => rfl, rfl⟩

theorem queFlag_spares (hl : .que ∈ l) (m : Word) : Spares l s (s.queFlag m) := spares_que hl

theorem abandon_records (cause : Nat) (b : Building) : Records qid s (s.abandon qid cause b) :=
  (queueEvent_records _).trans (queFlag_records _)

theorem abandon_spares (hl : .que ∈ l) (cause : Nat) (b : Building) : Spares l s (s.abandon qid cause b) :=
  (queueEvent_spares s hl _ _).trans (queFlag_spares hl _)

/-- A queue whose diversion has ended (R488). -/
def Queue.undiverted (q : Queue) : Queue :=
  match q.divert with
  | none => q
  | some _ => { q with divert := none, idled := false, gap := true }

theorem undiverted_fields (q : Queue) : q.undiverted.pkts = q.pkts ∧ q.undiverted.pos = q.pos ∧
    q.undiverted.building = q.building ∧ q.undiverted.divert = none ∧ q.undiverted.next = q.next ∧
    q.undiverted.due = q.due := by
  unfold Queue.undiverted
  split
  next h => exact ⟨rfl, rfl, rfl, h, rfl, rfl⟩
  next => exact ⟨rfl, rfl, rfl, rfl, rfl, rfl⟩

/-- The end of a diversion: what it leaves of the queue, of the others and of the flushes. -/
theorem endDivert_queAt (s : State) (qid : Nat) : (s.endDivert qid).queAt qid = (s.queAt qid).undiverted ∧
    (∀ k, k ≠ qid → k ≠ 64 * qidFig qid + 2 → (s.endDivert qid).queAt k = s.queAt k) ∧
    (s.endDivert qid).que.flushes = s.que.flushes := by
  unfold State.endDivert Queue.undiverted
  cases hd : (s.queAt qid).divert with
  | none => exact ⟨rfl, fun _ _ _ => rfl, rfl⟩
  | some r =>
    have hr := queueEvent_records (qid := qid) (s := s.modQue qid (fun q =>
      { q with divert := none, idled := false, gap := true }))
      { event := 3, first := r.first, last := r.last, count := BitVec.ofNat 32 r.count }
    exact ⟨hr.self.trans (queAt_modQue_self ..),
      fun k hk he => (hr.others k (.inl he)).trans (queAt_modQue_other _ _ hk), hr.flushes⟩

theorem endDivert_within : Within qid s (s.endDivert qid) := by
  obtain ⟨hself, hothers, -⟩ := endDivert_queAt s qid
  obtain ⟨-, -, -, -, hnext, hdue⟩ := undiverted_fields (s.queAt qid)
  exact ⟨hothers, by rw [hself, hnext], by rw [hself, hdue]⟩

theorem endDivert_spares (hl : .que ∈ l) (s : State) (qid : Nat) : Spares l s (s.endDivert qid) := by
  unfold State.endDivert
  split
  · exact .refl
  · exact (modQue_spares hl _ _).trans (queueEvent_spares _ hl _ _)

/-- The end of an overflow takes no packet from the ring (R490). -/
theorem endOverflow_within (s : State) (qid : Nat) : Within qid s (s.endOverflow qid) ∧
    ((s.endOverflow qid).queAt qid).pkts = (s.queAt qid).pkts := by
  unfold State.endOverflow
  split
  · exact ⟨.refl, rfl⟩
  · have hcleared : Within qid s (s.modQue qid (fun q => { q with overflow := none, gap := true })) :=
      within_modQue _ (fun _ => rfl) (fun _ => rfl)
    refine ⟨hcleared.trans (queueEvent_records _).within, ?_⟩
    rw [(queueEvent_records _).self, queAt_modQue_self]

theorem endOverflow_spares (hl : .que ∈ l) (s : State) (qid : Nat) : Spares l s (s.endOverflow qid) := by
  unfold State.endOverflow
  split
  · exact .refl
  · exact (modQue_spares hl _ _).trans (queueEvent_spares _ hl _ _)

/-! ### Where a packet goes -/

theorem closePage_spares (hl : .sto ∈ l) (id : Nat) : Spares l s (s.closePage id) := by
  unfold State.closePage
  exact .ite (spares_sto hl) .refl

theorem stagePacket_spares (hl : .sto ∈ l) (s : State) (prio set : Nat) (p : Packet) :
    Spares l s (s.stagePacket prio set p) := by
  unfold State.stagePacket State.newPage
  split
  · exact .ite (spares_sto hl) ((closePage_spares hl _).trans (spares_sto hl))
  · exact spares_sto hl

theorem stageSome_spares (hl : .sto ∈ l) (fig : Nat) (ps : List Packet) (s : State) :
    Spares l s (s.stageSome fig ps).1 := by
  induction ps generalizing s with
  | nil => exact .refl
  | cons p ps ih =>
    unfold State.stageSome
    split
    · exact (stagePacket_spares hl _ _ _ _).trans (ih _)
    · exact .refl

theorem stageSome_que (fig : Nat) (ps : List Packet) (s : State) : (s.stageSome fig ps).1.que = s.que :=
  (stageSome_spares (l := [.sto]) (by decide) fig ps s).parts .que (by decide)

theorem stoWatch_que (s : State) : s.stoWatch.que = s.que :=
  (stoWatch_spares (l := [.sto, .peat]) s (by decide) (by decide)).parts .que (by decide)

theorem overflowPacket_within (seq : Word) : Within qid s (s.overflowPacket qid seq) := by
  have h : Within qid s (s.modQue qid (fun q => { q with overflow := extendRun q.overflow seq })) :=
    within_modQue _ (fun _ => rfl) (fun _ => rfl)
  exact ⟨h.others, h.next, h.due⟩

theorem overflowPacket_spares (hl : .que ∈ l) (s : State) (seq : Word) : Spares l s (s.overflowPacket qid seq) :=
  (modQue_spares hl _ _).trans ((queFlag_spares hl _).trans (spares_que hl))

theorem divertAll_within (copied : Bool) : Within qid s (s.divertAll qid copied) := by
  unfold State.divertAll
  extract_lets q d moved v w
  have hd : d.1.que = s.que := by
    unfold d
    split
    · rfl
    · exact stageSome_que ..
  have hv : Within qid s v := (within_of_que hd).trans (within_modQue _ (fun _ => rfl) (fun _ => rfl))
  have hw : Within qid s w := hv.trans (.ite (queFlag_records _).within .refl)
  exact hw.trans (.ite .refl (within_of_que (stoWatch_que _)))

theorem divertAll_spares (hq : .que ∈ l) (hs : .sto ∈ l) (hp : .peat ∈ l) (s : State) (qid : Nat) (copied : Bool) :
    Spares l s (s.divertAll qid copied) := by
  unfold State.divertAll
  extract_lets q d moved v w
  have hd : Spares l s d.1 := by
    unfold d
    split
    · exact .refl
    · exact stageSome_spares hs ..
  have hv : Spares l s v := hd.trans (modQue_spares hq _ _)
  have hw : Spares l s w := hv.trans (.ite (queFlag_spares hq _) .refl)
  exact hw.trans (.ite .refl (stoWatch_spares _ hs hp))

/-- A queue that a packet has joined. -/
def Queue.joined (q : Queue) (p : Packet) : Queue := { q with pkts := q.pkts ++ [p] }

theorem place_within (copied : Bool) : Within qid s (s.place qid p copied) := by
  unfold State.place
  extract_lets q fits q1 past divert v w x
  have hv : Within qid s v := within_modQue _ (fun _ => rfl) (fun _ => rfl)
  have hw : Within qid s w := hv.trans (.ite (divertAll_within _) .refl)
  have hback : Within qid w (w.modQue qid (fun q => { q with pkts := q.pkts.dropLast })) :=
    within_modQue _ (fun _ => rfl) (fun _ => rfl)
  exact .ite (.ite (hw.trans (endOverflow_within w qid).1) ((hw.trans hback).trans (overflowPacket_within _)))
    (overflowPacket_within _)

theorem place_spares (hq : .que ∈ l) (hs : .sto ∈ l) (hp : .peat ∈ l) (s : State) (p : Packet) (copied : Bool) :
    Spares l s (s.place qid p copied) := by
  unfold State.place
  extract_lets q fits q1 past divert v w x
  have hv : Spares l s v := modQue_spares hq _ _
  have hw : Spares l s w := hv.trans (.ite (divertAll_spares hq hs hp _ _ _) .refl)
  exact .ite (.ite (hw.trans (endOverflow_spares hq w qid))
    (hw.trans ((modQue_spares hq _ _).trans (overflowPacket_spares hq _ _))))
    (overflowPacket_spares hq _ _)

theorem joined_fill (q : Queue) (p : Packet) : (q.joined p).fill ≤ q.fill + p.words := by
  have hdrop : packetWords ((q.pkts ++ [p]).drop q.taken) ≤ packetWords (q.pkts.drop q.taken) + p.words := by
    rw [List.drop_append, packetWords, List.map_append]
    cases hn : q.taken - q.pkts.length <;> simp [packetWords, nsum]
  simp only [Queue.fill, Queue.joined]
  omega

/-- A packet that fits a ring below its diversion threshold joins it (R487). -/
theorem place_pkts (hd : (s.queAt qid).divert = none) (hr : (s.queAt qid).room p.words = true)
    (hf : 100 * ((s.queAt qid).fill + p.words) < s.castN 0x158 0 * (s.queAt qid).ringWords) :
    ((s.place qid p false).queAt qid).pkts = (s.queAt qid).pkts ++ [p] := by
  have hfill := joined_fill (s.queAt qid) p
  have hpast : ¬ s.castN 0x158 0 * (s.queAt qid).ringWords ≤ 100 * ((s.queAt qid).joined p).fill := by omega
  unfold State.place
  extract_lets q fits q1 past divert v w x
  have hfits : fits = true := hr
  have hdivert : divert = false := by
    have hp : past = false := by
      show (!fits || decide (s.castN 0x158 0 * (s.queAt qid).ringWords ≤ 100 * ((s.queAt qid).joined p).fill)) = false
      rw [hfits, decide_eq_false hpast]
      rfl
    show (((s.queAt qid).divert.isSome || past) && (false || s.canStage)) = false
    rw [hd, hp]
    rfl
  have hw : w = v := if_neg (by rw [hdivert]; exact Bool.false_ne_true)
  rw [if_pos (by rw [hfits]; rfl), if_pos (by rw [hfits]; rfl), (endOverflow_within _ qid).2, hw, queAt_modQue_self]

end

end Sys2Proof.Machine

/-! SUPPORT. The commit of a packet and the flush point of a queue (R476, R487, R490, R494): what each leaves. -/

namespace Sys2Proof.Machine

section
variable {s t u : State} {qid k : Nat} {l : List Piece} {p : Packet} {b : Building} {poison : List Nat}
  {o : Outstanding} {a : Answer}

/-! ### The commit -/

theorem raiseFig_spares (s : State) (f kind : Nat) : Spares l s (s.raiseFig f kind) := .of_quiet (raise_quiet s _)

/-- The result registers a commit writes, and nothing else of the ports (R275). -/
theorem noteCommit_spares (fig : Nat) (n : Option ResNote) (h : n = none ∨ .sp ∈ l) :
    Spares l s (s.noteCommit fig n) := by
  unfold State.noteCommit
  rcases h with rfl | hl
  · exact .refl
  · cases n with
    | none => exact .refl
    | some x =>
      show Spares l s (s.resCommit fig x)
      unfold State.resCommit
      extract_lets v w
      have hv : Spares l s v := .foldl (fun t e => modSp_spares hl _ _) _ _
      exact (hv.trans (raiseFig_spares _ _ _)).trans (.ite (raiseFig_spares _ _ _) .refl)

/-- A port but for its result registers. -/
def Sp.sansRegs (x : Sp) : Sp := { x with meas := { x.meas with regs := Sp.init.meas.regs } }

theorem sansRegs_noteCommit (fig : Nat) (n : Option ResNote) (p : Nat) :
    ((s.noteCommit fig n).spAt p).sansRegs = (s.spAt p).sansRegs := by
  unfold State.noteCommit
  cases n with
  | none => rfl
  | some x =>
    have hfold (xs : List (Nat × ApRegs)) (t : State) : ((xs.foldl (fun t e => t.modSp e.1 (fun y =>
        { y with meas := { y.meas with regs := { e.2 with gen := (y.meas.regs.gen + 1) % 16 } } })) t).spAt p).sansRegs =
        (t.spAt p).sansRegs := by
      induction xs generalizing t with
      | nil => rfl
      | cons e xs ih =>
        rw [List.foldl_cons, ih]
        by_cases hp : p = e.1
        · rw [hp, spAt_modSp_self]
          rfl
        · rw [spAt_modSp_other _ _ hp]
    have hraise (t : State) (c : Nat) : (t.raiseFig fig c).spAt p = t.spAt p := by
      rw [State.spAt, State.raiseFig, raise_sp]
      rfl
    show ((s.resCommit fig x).spAt p).sansRegs = (s.spAt p).sansRegs
    unfold State.resCommit
    extract_lets v w
    have hw : (w.spAt p).sansRegs = (s.spAt p).sansRegs := by rw [hraise]; exact hfold _ _
    split
    · rw [hraise, hw]
    · exact hw

theorem tuneAnswer_spares (hm : .mbx ∈ l) (hr : .requests ∈ l) (hw : .window ∈ l) (s : State) (n : TuneNote) :
    Spares l s (s.tuneAnswer n) := complete_spares hr hm hw _ _

theorem tuneCommit_spares (n : Option TuneNote) (h : n = none ∨ .mbx ∈ l ∧ .requests ∈ l ∧ .window ∈ l) :
    Spares l s (s.tuneCommit n) := by
  unfold State.tuneCommit
  rcases h with rfl | ⟨hm, hr, hw⟩
  · exact .refl
  · cases n with
    | none => exact .refl
    | some x => exact (raiseFig_spares _ _ _).trans (tuneAnswer_spares hm hr hw _ _)

/-- A queue that has given its next SEQ to a packet (R476). -/
def Queue.numbered (q : Queue) : Queue := { q with next := q.next + 1#32 }

/-- A packet's commit up to what completes with it: the next SEQ, result registers, TUNE_START. -/
def State.numbered (s : State) (qid : Nat) (b : Building) : State :=
  ((s.modQue qid Queue.numbered).noteCommit (qidFig qid) b.note).tuneCommit b.tuned

/-- The list report that a packet ends with and the diversion it ends (R398, R488). -/
def State.announced (u : State) (qid : Nat) (q : Queue) (b : Building) : State :=
  let t := if b.listEnd then u.raiseFig (qidFig qid) 6 else u
  if q.divert.isSome && t.canResume qid q then t.endDivert qid else t

/-- The packet that a commit makes (R476). -/
def State.packetOf (s : State) (qid : Nat) (seq : Word) (b : Building) (poison : List Nat) : Packet :=
  { qid := qid, seq := seq, stamp := if qidStream qid ≤ 2 then s.mt.mt else b.stamp, payload := b.payload
    copy := false, mire := false, poison := poison }

/-- Where a packet that is committed goes, by its stream and the archiving of its figure (R487, R489, R506). -/
def State.lands (u : State) (qid : Nat) (p : Packet) : State :=
  if qidStream qid = 3 then
    if u.archiveOn then ((u.stagePacket 0 0xFF { p with copy := true }).stoWatch).place qid { p with copy := true } true
    else u.place qid p false
  else if u.archMode (qidFig qid) = 2 then
    if u.canStage then u.archivePacket (qidFig qid) p else u.overflowPacket qid p.seq
  else if u.archMode (qidFig qid) = 1 && u.canStage then
    (u.archivePacket (qidFig qid) { p with copy := true }).place qid { p with copy := true } true
  else u.place qid p false

theorem commitPacket_eq (s : State) (qid : Nat) (b : Building) (poison : List Nat) : s.commitPacket qid b poison =
    ((s.numbered qid b).announced qid (s.queAt qid) b).lands qid
      (((s.numbered qid b).announced qid (s.queAt qid) b).packetOf qid (s.queAt qid).next b poison) := rfl

theorem announced_within (q : Queue) : Within qid u (u.announced qid q b) := by
  unfold State.announced
  extract_lets t
  have ht : Within qid u t :=
    .ite (within_of_que ((raiseFig_spares (l := []) u _ _).parts .que (by decide))) .refl
  exact ht.trans (.ite endDivert_within .refl)

theorem announced_spares (hl : .que ∈ l) (u : State) (q : Queue) (b : Building) :
    Spares l u (u.announced qid q b) := by
  unfold State.announced
  extract_lets t
  have ht : Spares l u t := .ite (raiseFig_spares _ _ _) .refl
  exact ht.trans (.ite (endDivert_spares hl _ _) .refl)

theorem archivePacket_spares (hs : .sto ∈ l) (hp : .peat ∈ l) (s : State) (fig : Nat) (p : Packet) :
    Spares l s (s.archivePacket fig p) := (stagePacket_spares hs _ _ _ _).trans (stoWatch_spares _ hs hp)

theorem archivePacket_que (s : State) (fig : Nat) (p : Packet) : (s.archivePacket fig p).que = s.que :=
  (archivePacket_spares (l := [.sto, .peat]) (by decide) (by decide) s fig p).parts .que (by decide)

theorem lands_within : Within qid u (u.lands qid p) := by
  unfold State.lands
  have hstaged : (u.stagePacket 0 0xFF { p with copy := true }).stoWatch.que = u.que := by
    rw [stoWatch_que]
    exact (stagePacket_spares (l := [.sto]) (by decide) _ _ _ _).parts .que (by decide)
  exact .ite (.ite ((within_of_que hstaged).trans (place_within true)) (place_within false))
    (.ite (.ite (within_of_que (archivePacket_que ..)) (overflowPacket_within _))
      (.ite ((within_of_que (archivePacket_que ..)).trans (place_within true)) (place_within false)))

theorem lands_spares (hq : .que ∈ l) (hs : .sto ∈ l) (hp : .peat ∈ l) (u : State) (p : Packet) :
    Spares l u (u.lands qid p) := by
  unfold State.lands
  have hplace (t : State) (k : Packet) (c : Bool) : Spares l t (t.place qid k c) := place_spares hq hs hp ..
  have harchive (k : Packet) : Spares l u (u.archivePacket (qidFig qid) k) := archivePacket_spares hs hp ..
  have hstaged : Spares l u (u.stagePacket 0 0xFF { p with copy := true }).stoWatch :=
    (stagePacket_spares hs _ _ _ _).trans (stoWatch_spares _ hs hp)
  exact .ite (.ite (hstaged.trans (hplace ..)) (hplace ..))
    (.ite (.ite (harchive _) (overflowPacket_spares hq _ _)) (.ite ((harchive _).trans (hplace ..)) (hplace ..)))

theorem numbered_que (s : State) (qid : Nat) (b : Building) :
    (s.numbered qid b).que = (s.modQue qid Queue.numbered).que := by
  have hn : Spares [.sp] (s.modQue qid Queue.numbered) _ :=
    noteCommit_spares (qidFig qid) b.note (.inr (by decide))
  have ht : Spares [.mbx, .requests, .window] _ (s.numbered qid b) :=
    tuneCommit_spares b.tuned (.inr (by decide))
  have h1 := ht.parts .que (by decide)
  have h2 := hn.parts .que (by decide)
  exact h2.trans h1

theorem numbered_queAt (s : State) (qid : Nat) (b : Building) (k : Nat) : (s.numbered qid b).queAt k =
    (s.modQue qid Queue.numbered).queAt k := by
  rw [State.queAt, numbered_que, ← State.queAt]

theorem numbered_spares (hq : .que ∈ l) (hn : b.note = none ∨ .sp ∈ l)
    (ht : b.tuned = none ∨ .mbx ∈ l ∧ .requests ∈ l ∧ .window ∈ l) : Spares l s (s.numbered qid b) :=
  ((modQue_spares hq _ _).trans (noteCommit_spares _ _ hn)).trans (tuneCommit_spares _ ht)

/-- A commit takes the queue's next SEQ; of the queues only that one and its figure's stream 2 change. -/
theorem commitPacket_queAt (s : State) (qid : Nat) (b : Building) (poison : List Nat) :
    ((s.commitPacket qid b poison).queAt qid).next = (s.queAt qid).next + 1#32 ∧
      ((s.commitPacket qid b poison).queAt qid).due = (s.queAt qid).due ∧
      ∀ k, k ≠ qid → k ≠ 64 * qidFig qid + 2 → (s.commitPacket qid b poison).queAt k = s.queAt k := by
  have h : Within qid (s.numbered qid b) (s.commitPacket qid b poison) := by
    rw [commitPacket_eq]
    exact (announced_within _).trans lands_within
  refine ⟨?_, ?_, fun k hk he => ?_⟩
  · rw [h.next, numbered_queAt, queAt_modQue_self]
    rfl
  · rw [h.due, numbered_queAt, queAt_modQue_self]
    rfl
  · rw [h.others k hk he, numbered_queAt, queAt_modQue_other _ _ hk]

theorem commitPacket_spares (hq : .que ∈ l) (hs : .sto ∈ l) (hp : .peat ∈ l) (hn : b.note = none ∨ .sp ∈ l)
    (ht : b.tuned = none ∨ .mbx ∈ l ∧ .requests ∈ l ∧ .window ∈ l) : Spares l s (s.commitPacket qid b poison) := by
  rw [commitPacket_eq]
  exact ((numbered_spares hq hn ht).trans (announced_spares hq _ _ _)).trans (lands_spares hq hs hp _ _)

/-- What follows the numbering of a packet touches neither the host interface's answers nor the ports. -/
theorem commitPacket_after (s : State) (qid : Nat) (b : Building) (poison : List Nat) :
    Spares [.que, .sto, .peat] (s.numbered qid b) (s.commitPacket qid b poison) := by
  rw [commitPacket_eq]
  exact (announced_spares (by decide) _ _ _).trans (lands_spares (by decide) (by decide) (by decide) _ _)

/-- A packet that is not archived and fits a ring below its diversion threshold joins it. -/
theorem commitPacket_pkts (h3 : qidStream qid ≠ 3) (ha : s.archMode (qidFig qid) = 0)
    (hd : (s.queAt qid).divert = none) (hr : (s.queAt qid).room (b.payload.length + 2) = true)
    (hf : 100 * ((s.queAt qid).fill + b.payload.length + 2) < s.castN 0x158 0 * (s.queAt qid).ringWords) :
    ((s.commitPacket qid b poison).queAt qid).pkts = (s.queAt qid).pkts ++
      [⟨qid, (s.queAt qid).next, if qidStream qid ≤ 2 then s.mt.mt else b.stamp, b.payload, false, false, poison⟩] := by
  generalize hv : (s.numbered qid b).announced qid (s.queAt qid) b = v
  have hquiet : Spares [.que, .sp, .mbx, .requests, .window] s v := by
    rw [← hv]
    exact (numbered_spares (by decide) (.inr (by decide)) (.inr (by decide))).trans (announced_spares (by decide) _ _ _)
  have hsto : v.sto = s.sto := hquiet.parts .sto (by decide)
  have hsets : v.sets = s.sets := hquiet.parts .sets (by decide)
  have hmt : v.mt = s.mt := hquiet.parts .mt (by decide)
  have harch : v.archMode (qidFig qid) = 0 := by
    rw [← ha]
    simp only [State.archMode, State.archiveOn, State.castN, hsto, hsets]
    rfl
  have hcast : v.castN 0x158 0 = s.castN 0x158 0 := by simp only [State.castN, hsets]
  have hat : v.queAt qid = (s.queAt qid).numbered := by
    rw [← hv]
    unfold State.announced
    extract_lets t
    have ht : t.queAt qid = (s.numbered qid b).queAt qid := by
      have hraised : ((s.numbered qid b).raiseFig (qidFig qid) 6).que = (s.numbered qid b).que :=
        (raiseFig_spares (l := []) _ _ _).parts .que (by decide)
      unfold t
      split
      · rw [State.queAt, hraised, ← State.queAt]
      · rfl
    rw [if_neg (by simp [hd]), ht, numbered_queAt, queAt_modQue_self]
  have hp : v.packetOf qid (s.queAt qid).next b poison = ⟨qid, (s.queAt qid).next,
      if qidStream qid ≤ 2 then s.mt.mt else b.stamp, b.payload, false, false, poison⟩ := by
    rw [State.packetOf, hmt]
  rw [commitPacket_eq, hv, hp, State.lands, if_neg h3, harch, if_neg (by decide), if_neg (by simp), place_pkts]
  · rw [hat]
    rfl
  · rw [hat]; exact hd
  · rw [hat, Packet.words, Nat.add_comm 2]; exact hr
  · rw [hat, hcast, Packet.words, Nat.add_comm 2, ← Nat.add_assoc]
    exact hf

/-! ### Completions before the end of the work -/

/-- An answer stands in the mailboxes and the window. -/
theorem Completed.congr (h : Completed s t o a) (hm : u.host.mbx = t.host.mbx) (hw : u.host.window = t.host.window) :
    Completed s u o a := by
  have hat (n : Nat) : u.mbxAt n = t.mbxAt n := by rw [State.mbxAt, hm, State.mbxAt]
  unfold Completed at h ⊢
  split
  next hopen =>
    obtain ⟨hnew, hothers, hwin⟩ := (if_pos hopen).mp h
    exact ⟨by rw [hat, hnew], fun n hn => by rw [hat, hothers n hn], fun x hx => by rw [hw]; exact hwin x hx⟩
  next hclosed =>
    obtain ⟨hkept, hwin⟩ := (if_neg hclosed).mp h
    exact ⟨hm.trans hkept, hw.trans hwin⟩

/-- A command that completes before the rest of the step's work is answered all the same. -/
theorem completes_then {q : Outstanding → Bool} (hu : Spares l s u) (hl : ∀ p ∈ answerParts, p ∉ l)
    (hc : u.sets.castSeq = s.sets.castSeq) (hf : s.host.outst.find? q = some o)
    (ht : Spares l (u.complete q a) t) :
    Completed s (State.done s t) o a ∧ (State.done s t).host.outst = dropFirst q s.host.outst ∧
      (State.done s t).host.fetched = s.host.fetched := by
  obtain ⟨hdone, houtst, hfetched, -⟩ := completes_first hu hl hc hf (a := a)
  obtain ⟨hf', ho'⟩ := ht.parts .requests (hl _ (by decide))
  have hm : t.host.mbx = (u.complete q a).host.mbx := ht.parts .mbx (hl _ (by decide))
  have hw : t.host.window = (u.complete q a).host.window := ht.parts .window (hl _ (by decide))
  rw [done_host_outst] at houtst ⊢
  rw [done_host_fetched] at hfetched ⊢
  refine ⟨hdone.congr ?_ ?_, ho'.trans houtst, hf'.trans hfetched⟩
  · rw [done_host_mbx, done_host_mbx, hm]
  · rw [done_host_window, done_host_window, hw]

end

end Sys2Proof.Machine

/-! Flushes, credit, pushes and commits of queues (R476, R481, R486, R487, R493, R494, R498): what each step does, and
the obligation they settle. -/

namespace Sys2Proof.Machine

section
variable {s t u : State} {r : Req} {qid k scope obj grant corrected : Nat} {l : List Piece} {b : Building}
  {rest : List Building} {poison : List Nat} {words : List DWord} {o : Outstanding}

/-! ### QUE_FLUSH -/

/-- A scope that QUE_FLUSH takes (R494). -/
def flushScopeOk (scope obj : Nat) : Prop :=
  (scope = 0 ∧ streamOk obj = true) ∨ (scope = 1 ∧ obj < 4096) ∨ (scope = 2 ∧ obj = 0)

/-- The checks of QUE_FLUSH on its scope pass. -/
theorem flushScopeOk_checks (h : flushScopeOk scope obj) : ¬ 2 < scope ∧
    (decide (scope = 0) && !streamOk obj) = false ∧ (decide (scope = 1) && decide (4096 ≤ obj)) = false ∧
    (decide (scope = 2) && obj != 0) = false := by
  rcases h with ⟨rfl, h⟩ | ⟨rfl, h⟩ | ⟨rfl, rfl⟩
  · simp [h]
  · simp [Nat.not_le.mpr h]
  · simp

/-- The state once a flush waits for its flush points (R494). -/
def State.flushing (s : State) (r : Req) (scope obj : Nat) : State :=
  let t := (s.take r).defer r 0x0703 obj scope 0
  { t with que := { s.que with flushes := s.que.flushes ++ [⟨r.mbx, r.tag, s.flushScope scope obj, 0, 0⟩] } }

theorem exec_queFlush_waits (ha : Accepts s r 0x0703 { long := true, needs := [5] }) (hk : flushScopeOk scope obj)
    (hf : s.flushScope scope obj ≠ []) : exec (.queFlush r scope obj) s =
      .next (State.done s (s.flushing r scope obj)) := by
  obtain ⟨h2, h0, h1, h3⟩ := flushScopeOk_checks hk
  have hf' : ¬ (s.take r).flushScope scope obj = [] := hf
  show execQueFlush r scope obj s = _
  rw [execQueFlush, umser_accepts ha, if_neg h2]
  simp only [h0, h1, h3, if_neg Bool.false_ne_true, if_neg hf']
  rfl

theorem exec_queFlush_none (ha : Accepts s r 0x0703 { long := true, needs := [5] }) (hk : flushScopeOk scope obj)
    (hf : s.flushScope scope obj = []) : exec (.queFlush r scope obj) s =
      .next (State.done s ((s.take r).ok r 0x0703 (leBytes 4 0 ++ leBytes 4 0) [])) := by
  obtain ⟨h2, h0, h1, h3⟩ := flushScopeOk_checks hk
  have hf' : (s.take r).flushScope scope obj = [] := hf
  show execQueFlush r scope obj s = _
  rw [execQueFlush, umser_accepts ha, if_neg h2]
  simp only [h0, h1, h3, if_neg Bool.false_ne_true, if_pos hf']

/-! ### Flush points -/

/-- The record of what a flush discards (R494). -/
theorem flushRecord_records (ps : List Packet) : Records qid s (s.flushRecord qid false ps) := by
  unfold State.flushRecord
  split
  · exact queueEvent_records _
  · exact .refl

theorem flushRecord_spares (hl : .que ∈ l) (s : State) (ps : List Packet) :
    Spares l s (s.flushRecord qid false ps) := by
  unfold State.flushRecord
  split
  · exact queueEvent_spares _ hl _ _
  · exact .refl

/-- A queue whose producer a flush has cut (R481). -/
def Queue.cut (q : Queue) : Queue := { q with building := none }

theorem cut_of_none {q : Queue} (h : q.building = none) : q.cut = q := by rw [Queue.cut, ← h]

/-- A group whose injection begins its packet in progress anew (Table 18.6). -/
def Grp.rewound (x : Grp) : Grp := { x with tune := x.tune.map (fun t => { t with entries := [], nEntries := 0 }) }

theorem flushCut_building (hb : (s.queAt qid).building = some b) :
    s.flushCut qid = (((s.modQue qid Queue.cut).abandon qid 3 b).queFlag 8#32, 1) := by
  rw [State.flushCut, hb]
  rfl

theorem flushCut_tune {g : Nat} {x : Tune} (hb : (s.queAt qid).building = none) (ht : s.tuneAt qid = some (g, x)) :
    s.flushCut qid = (((s.modGrp g Grp.rewound).abandon qid 3
      { key := BitVec.ofNat 32 x.firstK, stamp := x.stamp, payload := x.entries }).queFlag 8#32, 1) := by
  rw [State.flushCut, hb, ht]
  rfl

theorem flushCut_none (hb : (s.queAt qid).building = none) (ht : s.tuneAt qid = none) :
    s.flushCut qid = (s, 0) := by
  rw [State.flushCut, hb, ht]

/-- A cut of a flush: what it leaves of the queue and of the others, and how many producers it cuts. -/
theorem flushCut_queAt (s : State) (qid : Nat) : (s.flushCut qid).1.queAt qid = (s.queAt qid).cut ∧
    (∀ k, k ≠ qid → k ≠ 64 * qidFig qid + 2 → (s.flushCut qid).1.queAt k = s.queAt k) ∧
    (s.flushCut qid).1.que.flushes = s.que.flushes ∧
    (s.flushCut qid).2 = if (s.queAt qid).building.isSome || (s.tuneAt qid).isSome then 1 else 0 := by
  cases hb : (s.queAt qid).building with
  | some b =>
    have hr : Records qid (s.modQue qid Queue.cut) (((s.modQue qid Queue.cut).abandon qid 3 b).queFlag 8#32) :=
      (abandon_records 3 b).trans (queFlag_records _)
    rw [flushCut_building hb]
    exact ⟨hr.self.trans (queAt_modQue_self ..),
      fun k hk he => (hr.others k (.inl he)).trans (queAt_modQue_other _ _ hk), hr.flushes, rfl⟩
  | none =>
    cases ht : s.tuneAt qid with
    | none =>
      rw [flushCut_none hb ht]
      exact ⟨(cut_of_none hb).symm, fun _ _ _ => rfl, rfl, rfl⟩
    | some x =>
      obtain ⟨g, x⟩ := x
      rw [flushCut_tune hb ht]
      generalize (⟨BitVec.ofNat 32 x.firstK, x.stamp, x.entries, none, none, false⟩ : Building) = b
      have hmod : Records qid s (s.modGrp g Grp.rewound) := .of_que rfl
      have hr : Records qid s (((s.modGrp g Grp.rewound).abandon qid 3 b).queFlag 8#32) :=
        hmod.trans ((abandon_records 3 b).trans (queFlag_records _))
      exact ⟨hr.self.trans (cut_of_none hb).symm, fun k _ he => hr.others k (.inl he), hr.flushes, rfl⟩

theorem flushCut_spares (hq : .que ∈ l) (hg : .grp ∈ l) (s : State) (qid : Nat) :
    Spares l s (s.flushCut qid).1 := by
  unfold State.flushCut
  split
  · exact (modQue_spares hq _ _).trans ((abandon_spares hq _ _).trans (queFlag_spares hq _))
  · exact (modGrp_spares _ hg _ _).trans ((abandon_spares hq _ _).trans (queFlag_spares hq _))
  · exact .refl

/-- A queue whose packets a flush has discarded but for those a drain has taken (R494). -/
def Queue.discarded (q : Queue) (n : Nat) : Queue :=
  { q with pkts := q.pkts.take q.taken, pos := 0, gap := q.gap || n != 0 }

/-- The state before a flush cuts a producer. -/
def State.discards (s : State) (qid : Nat) : State :=
  (s.modQue qid (fun q =>
    { q with pkts := q.pkts.take q.taken, pos := 0
             gap := q.gap || !((s.queAt qid).pkts.drop (s.queAt qid).taken).isEmpty })).flushRecord qid false
    ((s.queAt qid).pkts.drop (s.queAt qid).taken)

theorem flushQueue_eq (s : State) (qid : Nat) : s.flushQueue qid false =
    (((s.discards qid).flushCut qid).1.endDivert qid, ((s.queAt qid).pkts.drop (s.queAt qid).taken).length,
      ((s.discards qid).flushCut qid).2) := rfl

theorem discards_queAt (s : State) (qid : Nat) : ((s.discards qid).queAt qid).pkts =
      (s.queAt qid).pkts.take (s.queAt qid).taken ∧ ((s.discards qid).queAt qid).pos = 0 ∧
    ((s.discards qid).queAt qid).next = (s.queAt qid).next ∧
    ((s.discards qid).queAt qid).building = (s.queAt qid).building ∧
    (∀ k, k ≠ qid → k ≠ 64 * qidFig qid + 2 → (s.discards qid).queAt k = s.queAt k) ∧
    (s.discards qid).que.flushes = s.que.flushes := by
  generalize hv : s.modQue qid (fun q =>
    { q with pkts := q.pkts.take q.taken, pos := 0
             gap := q.gap || !((s.queAt qid).pkts.drop (s.queAt qid).taken).isEmpty }) = v
  have hr : Records qid v (s.discards qid) := by
    rw [State.discards, hv]
    exact flushRecord_records _
  have hat : (s.discards qid).queAt qid = v.queAt qid := hr.self
  have hself : v.queAt qid = { s.queAt qid with
      pkts := (s.queAt qid).pkts.take (s.queAt qid).taken, pos := 0
      gap := (s.queAt qid).gap || !((s.queAt qid).pkts.drop (s.queAt qid).taken).isEmpty } := by
    rw [← hv, queAt_modQue_self]
  rw [hat, hself]
  refine ⟨rfl, rfl, rfl, rfl, fun k hk he => ?_, ?_⟩
  · rw [hr.others k (.inl he), ← hv, queAt_modQue_other _ _ hk]
  · rw [hr.flushes, ← hv]
    rfl

theorem discards_spares (hq : .que ∈ l) (s : State) (qid : Nat) : Spares l s (s.discards qid) :=
  (modQue_spares hq _ _).trans (flushRecord_spares hq _ _)

/-- What a flush point leaves of the queues and counts (R494, R495). -/
theorem flushQueue_queAt (s : State) (qid : Nat) :
    (((s.flushQueue qid false).1.queAt qid).pkts = (s.queAt qid).pkts.take (s.queAt qid).taken ∧
      ((s.flushQueue qid false).1.queAt qid).pos = 0 ∧ ((s.flushQueue qid false).1.queAt qid).building = none ∧
      ((s.flushQueue qid false).1.queAt qid).divert = none ∧
      ((s.flushQueue qid false).1.queAt qid).next = (s.queAt qid).next) ∧
    (∀ k, k ≠ qid → k ≠ 64 * qidFig qid + 2 → (s.flushQueue qid false).1.queAt k = s.queAt k) ∧
    (s.flushQueue qid false).1.que.flushes = s.que.flushes ∧
    (s.flushQueue qid false).2 = (((s.queAt qid).pkts.drop (s.queAt qid).taken).length,
      if (s.queAt qid).building.isSome || (s.tuneAt qid).isSome then 1 else 0) := by
  obtain ⟨hpkts, hpos, hnext, hbuilding, hothers, hflushes⟩ := discards_queAt s qid
  obtain ⟨hcut, hothers', hflushes', hcount⟩ := flushCut_queAt (s.discards qid) qid
  obtain ⟨hend, hothers'', hflushes''⟩ := endDivert_queAt ((s.discards qid).flushCut qid).1 qid
  obtain ⟨epkts, epos, ebuilding, edivert, enext, -⟩ := undiverted_fields (((s.discards qid).flushCut qid).1.queAt qid)
  have hgrp : (s.discards qid).grp = s.grp := (discards_spares (l := [.que]) (by decide) s qid).parts .grp (by decide)
  have htune : (s.discards qid).tuneAt qid = s.tuneAt qid := by
    simp only [State.tuneAt, hgrp]
  rw [flushQueue_eq]
  dsimp only
  rw [hend, epkts, epos, ebuilding, edivert, enext, hcut]
  refine ⟨⟨hpkts, hpos, rfl, rfl, hnext⟩, fun k hk he => ?_, ?_, ?_⟩
  · rw [hothers'' k hk he, hothers' k hk he, hothers k hk he]
  · rw [hflushes'', hflushes', hflushes]
  · rw [hcount, hbuilding, htune]

theorem flushQueue_spares (s : State) (qid : Nat) : Spares [.que, .grp] s (s.flushQueue qid false).1 := by
  rw [flushQueue_eq]
  exact ((discards_spares (by decide) s qid).trans (flushCut_spares (by decide) (by decide) _ _)).trans
    (endDivert_spares (by decide) _ _)

/-- The state as a flush point passes, before the flushes it ends are completed. -/
def State.flushedAt (s : State) (qid : Nat) : State :=
  let d := s.flushQueue qid false
  { d.1 with que := { d.1.que with flushes := (flushPassed s qid).filter (fun f => !f.left.isEmpty) } }

theorem flushedAt_spares (s : State) (qid : Nat) : Spares [.que, .grp] s (s.flushedAt qid) :=
  (flushQueue_spares s qid).trans (spares_que (by decide))

/-- A flush's own command. -/
def FlushRun.mine (f : FlushRun) (x : Outstanding) : Bool := x.opcode == 0x0703 && x.mbx == f.mbx && x.tag == f.tag

/-- The answer of a flush whose last flush point has passed (R498). -/
def FlushRun.answer (f : FlushRun) : Answer := ⟨stOk, 0, leBytes 4 f.packets ++ leBytes 4 f.cut, [], false⟩

theorem exec_flushPoint (hd : s.rst.dataUp = true) (hf : s.que.flushes.any (fun x => x.left.contains qid) = true) :
    exec (.flushPoint qid) s = .next (State.done s (((flushPassed s qid).filter (fun f => f.left.isEmpty)).foldl
      (fun t f => t.complete f.mine f.answer) (s.flushedAt qid))) := by
  obtain ⟨-, -, hflushes, hcounts⟩ := flushQueue_queAt s qid
  have hpass : (s.flushQueue qid false).1.que.flushes.map (fun f : FlushRun =>
      f.pass qid (s.flushQueue qid false).2.1 (s.flushQueue qid false).2.2) = flushPassed s qid := by
    rw [hflushes, hcounts]
    rfl
  show execFlushPoint qid s = _
  rw [execFlushPoint, hd, hf]
  simp only [hpass, Bool.and_self, if_true]
  rfl

theorem completes_spares (fs : List FlushRun) (v : State) :
    Spares [.mbx, .requests, .window] v (fs.foldl (fun t f => t.complete f.mine f.answer) v) :=
  .foldl (fun t f => complete_spares (by decide) (by decide) (by decide) _ _) _ _

/-! ### Credit and pushes -/

theorem grant_queAt (s : State) (qid n : Nat) : (s.grant qid n).queAt qid =
      { s.queAt qid with credit := min ((s.queAt qid).credit + n) (2 ^ 32 - 1) } ∧
    (∀ k, k ≠ qid → (s.grant qid n).queAt k = s.queAt k) ∧
    { (s.grant qid n).que with q := s.que.q } = { s.que with
      flags := if 2 ^ 32 ≤ (s.queAt qid).credit + n then s.que.flags ||| 0x80#32 else s.que.flags } := by
  generalize hv : s.modQue qid (fun q => { q with credit := min ((s.queAt qid).credit + n) (2 ^ 32 - 1) }) = v
  have hself : v.queAt qid = { s.queAt qid with credit := min ((s.queAt qid).credit + n) (2 ^ 32 - 1) } := by
    rw [← hv, queAt_modQue_self]
  have hother (k : Nat) (hk : k ≠ qid) : v.queAt k = s.queAt k := by rw [← hv, queAt_modQue_other _ _ hk]
  have hque : { v.que with q := s.que.q } = s.que := by rw [← hv]; rfl
  have hflags : v.que.flags = s.que.flags := by rw [← hv]; rfl
  have he : s.grant qid n = if 2 ^ 32 - 1 < (s.queAt qid).credit + n then v.queFlag 0x80#32 else v := by
    rw [← hv]
    rfl
  by_cases h : 2 ^ 32 ≤ (s.queAt qid).credit + n
  · rw [he, if_pos (show 2 ^ 32 - 1 < (s.queAt qid).credit + n by omega), if_pos h, ← hflags, ← hque]
    exact ⟨hself, hother, rfl⟩
  · rw [he, if_neg (show ¬ 2 ^ 32 - 1 < (s.queAt qid).credit + n by omega), if_neg h]
    exact ⟨hself, hother, hque⟩

theorem grant_spares (s : State) (qid n : Nat) : Spares [.que] s (s.grant qid n) := by
  unfold State.grant
  exact .ite ((modQue_spares (by decide) _ _).trans (queFlag_spares (by decide) _)) (modQue_spares (by decide) _ _)

theorem exec_queCredit (ha : Accepts s r 0x0704 { needs := [5] }) (hs : streamOk qid = true)
    (hg : grant ≠ 0 ∧ grant < 2 ^ 32) (hb : (s.boundTo qid).isSome = true) : exec (.queCredit r qid grant) s =
      .next (State.done s (((s.take r).grant qid grant).ok r 0x0704
        (leBytes 4 (((s.take r).grant qid grant).queAt qid).credit) [])) := by
  obtain ⟨hne, hlt⟩ := hg
  have hb' : ((s.take r).boundTo qid).isNone = false := Option.isNone_eq_false_iff.mpr hb
  show execQueCredit r qid grant s = _
  rw [execQueCredit, umser_accepts ha]
  simp only [hs, hb', Bool.not_true, if_neg Bool.false_ne_true,
    if_neg (show ¬ (grant = 0 ∨ 2 ^ 32 ≤ grant) by omega)]

/-- The losses of a stream that wait for its first commit are reported (R478). -/
def State.lossesTold (s : State) (qid : Nat) : State := (s.reportLost (· == qid)).reportUnknown qid

theorem logQueueEvent_que (fig stream : Nat) (e : QueueEvent) : (s.logQueueEvent fig stream e).que = s.que :=
  log_que _

theorem reportLost_records (s : State) (qid : Nat) : Records qid s (s.reportLost (· == qid)) := by
  have hfold (ds : List LostDue) (hd : ∀ d ∈ ds, d.qid = qid) (t : State) : Records qid t
      (ds.foldl (fun t d => t.queueEvent d.qid
        { event := 5, cause := d.cause, first := d.first, last := d.last, count := d.count, key := d.era }) t) := by
    induction ds generalizing t with
    | nil => exact .refl
    | cons d ds ih =>
      rw [List.foldl_cons, hd d List.mem_cons_self]
      exact (queueEvent_records _).trans (ih (fun x hx => hd x (List.mem_cons_of_mem _ hx)) _)
  have hdue : Records qid s { s with que := { s.que with lostDue := s.que.lostDue.filter (fun d => !(d.qid == qid)) } } :=
    ⟨fun _ _ => rfl, rfl⟩
  exact hdue.trans (hfold _ (fun d hd => by simpa using (List.mem_filter.mp hd).2) _)

theorem reportUnknown_records (s : State) (qid : Nat) : Records qid s (s.reportUnknown qid) := by
  have hdone : Records qid s { s with que := { s.que with lostDone := insAsc s.que.lostDone qid } } :=
    ⟨fun _ _ => rfl, rfl⟩
  unfold State.reportUnknown
  split
  · exact .refl
  · split
    · exact .refl
    · split
      · exact hdone.trans (.of_que (logQueueEvent_que ..))
      · exact hdone.trans (queueEvent_records _)

theorem lossesTold_records (s : State) (qid : Nat) : Records qid s (s.lossesTold qid) :=
  (reportLost_records s qid).trans (reportUnknown_records _ qid)

theorem lossesTold_spares (hl : .que ∈ l) (s : State) (qid : Nat) : Spares l s (s.lossesTold qid) := by
  have hlost (t : State) : Spares l t (t.reportLost (· == qid)) :=
    (spares_que hl).trans (.foldl (fun t d => queueEvent_spares t hl _ _) _ _)
  have hunknown (t : State) : Spares l t (t.reportUnknown qid) := by
    unfold State.reportUnknown
    split
    · exact .refl
    · exact .ite .refl ((spares_que hl).trans (.ite (log_spares _ _) (queueEvent_spares _ hl _ _)))
  exact (hlost s).trans (hunknown _)

/-- What a push builds. -/
def pushed (words : List DWord) (mt : DWord) : Building := { key := 0xFFFFFFFF#32, stamp := mt, payload := words }

/-- The state once a push is committed, before its answer. -/
def State.pushes (s : State) (qid : Nat) (words : List DWord) : State :=
  (s.lossesTold qid).commitPacket qid (pushed words (s.lossesTold qid).mt.mt) []

theorem pushes_spares (s : State) (qid : Nat) (words : List DWord) : Spares [.que, .sto, .peat] s (s.pushes qid words) :=
  (lossesTold_spares (by decide) s qid).trans
    (commitPacket_spares (by decide) (by decide) (by decide) (.inl rfl) (.inl rfl))

theorem exec_quePush (ha : Accepts s r 0x0705 { needs := [5] }) (hq : qid < 262144 ∧ 16 ≤ qidStream qid)
    (hw : words ≠ [] ∧ words.length ≤ 64) (hd : s.defined (qidFig qid) = true) : exec (.quePush r qid words) s =
      .next (State.done s (((s.take r).pushes qid words).ok r 0x0705
        (leBytes 4 (s.queAt qid).next.toNat ++ leBytes 8 s.mt.mt.toNat) [])) := by
  obtain ⟨hlt, hstream⟩ := hq
  obtain ⟨hne, hle⟩ := hw
  have hd' : (s.take r).defined (qidFig qid) = true := hd
  have hseq : ((s.take r).lossesTold qid).queAt qid = s.queAt qid := (lossesTold_records (s.take r) qid).self
  have hmt : ((s.take r).lossesTold qid).mt = s.mt :=
    (lossesTold_spares (l := [.que]) (by decide) (s.take r) qid).parts .mt (by decide)
  rw [← hseq, ← hmt]
  show execQuePush r qid words s = _
  rw [execQuePush, umser_accepts ha, if_neg (show ¬ (qid ≥ 262144 ∨ qidStream qid < 16) by omega),
    if_neg (show ¬ (words = [] ∨ 64 < words.length) by simp [hne, Nat.not_lt.mpr hle])]
  simp only [hd', Bool.not_true, if_neg Bool.false_ne_true]
  rfl

end

end Sys2Proof.Machine

/-! The commit of the oldest packet built for a queue (R476, R481, R493), and the obligation on flushes, credit, pushes
and commits. -/

namespace Sys2Proof.Machine

section
variable {s t u : State} {qid corrected : Nat} {l : List Piece} {b : Building} {rest : List Building}
  {poison : List Nat} {n : TuneNote} {o : Outstanding}

/-- The state as the oldest packet built for a queue is taken for its commit (R476, R493). -/
def State.takesBuilt (s : State) (qid corrected : Nat) (rest : List Building) : State :=
  (s.modQue qid (fun q => { q with due := rest })).countCorrected qid corrected

theorem takesBuilt_queAt (s : State) (qid corrected : Nat) (rest : List Building) (k : Nat) :
    (s.takesBuilt qid corrected rest).queAt k = (s.modQue qid (fun q => { q with due := rest })).queAt k := by
  unfold State.takesBuilt State.countCorrected
  split <;> rfl

theorem takesBuilt_self : (s.takesBuilt qid corrected rest).queAt qid = { s.queAt qid with due := rest } := by
  rw [takesBuilt_queAt, queAt_modQue_self]

theorem takesBuilt_spares (hl : .que ∈ l) : Spares l s (s.takesBuilt qid corrected rest) := by
  unfold State.takesBuilt State.countCorrected
  exact (modQue_spares hl _ _).trans (.ite .refl ((queFlag_spares hl _).trans (spares_que hl)))

theorem exec_packetCommit (hd : s.rst.dataUp = true) (hq : (s.queAt qid).due = b :: rest) :
    exec (.packetCommit qid corrected false poison) s =
      .next (State.done s ((s.takesBuilt qid corrected rest).commitPacket qid b poison)) := by
  show execPacketCommit qid corrected false poison s = _
  rw [execPacketCommit, hd, hq]
  rfl

/-- The end of a packet whose input cannot be corrected (R493). -/
def State.abandons (s : State) (qid : Nat) (b : Building) : State :=
  match b.tuned with
  | some n => (s.abandon qid 2 b).tuneAnswer n
  | none => s.abandon qid 2 b

theorem exec_packetCommit_ecc (hd : s.rst.dataUp = true) (hq : (s.queAt qid).due = b :: rest) :
    exec (.packetCommit qid corrected true poison) s =
      .next (State.done s ((s.takesBuilt qid corrected rest).abandons qid b)) := by
  show execPacketCommit qid corrected true poison s = _
  rw [execPacketCommit, hd, hq]
  rfl

theorem abandons_spares (hq : .que ∈ l) (ht : b.tuned = none ∨ .mbx ∈ l ∧ .requests ∈ l ∧ .window ∈ l) :
    Spares l s (s.abandons qid b) := by
  unfold State.abandons
  cases hb : b.tuned with
  | none => exact abandon_spares hq 2 b
  | some n =>
    rw [hb] at ht
    obtain ⟨hm, hr, hw⟩ := ht.resolve_left (by simp)
    exact (abandon_spares hq 2 b).trans (tuneAnswer_spares hm hr hw _ _)

theorem abandons_que : (s.abandons qid b).que = (s.abandon qid 2 b).que := by
  unfold State.abandons
  cases b.tuned with
  | none => rfl
  | some n =>
    exact (tuneAnswer_spares (l := [.mbx, .requests, .window]) (by decide) (by decide) (by decide) _ n).parts .que
      (by decide)

theorem abandons_records : Records qid s (s.abandons qid b) :=
  (abandon_records 2 b).trans (.of_que abandons_que)

theorem abandons_flag : (s.abandons qid b).que.flags &&& 4#32 = 4#32 := by
  rw [abandons_que]
  show ((s.queueEvent qid _).que.flags ||| 4#32) &&& 4#32 = 4#32
  generalize (s.queueEvent qid _).que.flags = w
  rw [BitVec.and_or_distrib_right, BitVec.and_self]
  ext i hi
  simp

/-- A port whose result registers alone have changed. -/
theorem regs_of_sansRegs {x y : Sp} (h : x.sansRegs = y.sansRegs) :
    { x with meas := { x.meas with regs := y.meas.regs } } = y :=
  congrArg (fun z : Sp => { z with meas := { z.meas with regs := y.meas.regs } }) h

theorem commitPacket_sansRegs (s : State) (qid : Nat) (b : Building) (poison : List Nat) (p : Nat) :
    ((s.commitPacket qid b poison).spAt p).sansRegs = (s.spAt p).sansRegs := by
  have hafter : (s.commitPacket qid b poison).sp = (s.numbered qid b).sp :=
    (commitPacket_after s qid b poison).parts .sp (by decide)
  have htune : (s.numbered qid b).sp = ((s.modQue qid Queue.numbered).noteCommit (qidFig qid) b.note).sp :=
    (tuneCommit_spares (l := [.mbx, .requests, .window]) b.tuned (.inr (by decide))).parts .sp (by decide)
  rw [State.spAt, hafter, htune, ← State.spAt, sansRegs_noteCommit]
  rfl

/-- The TUNE_START of an injection's last packet is answered with its commit (R347). -/
theorem commitPacket_completes (hb : b.tuned = some n)
    (ho : s.host.outst.find? (fun x => x.opcode == 0x0C06 && x.mbx == n.mbx && x.tag == n.tag) = some o) :
    Completed s (State.done s ((s.takesBuilt qid corrected rest).commitPacket qid b poison)) o
        ⟨if n.ok then stOk else stAborted, 0,
          leBytes 8 n.startMt.toNat ++ leBytes 4 n.written ++ leBytes 4 n.packets, [], n.cancelled⟩ ∧
      (State.done s ((s.takesBuilt qid corrected rest).commitPacket qid b poison)).host.outst =
        dropFirst (fun x => x.opcode == 0x0C06 && x.mbx == n.mbx && x.tag == n.tag) s.host.outst := by
  generalize hv : s.takesBuilt qid corrected rest = v
  generalize hw : ((v.modQue qid Queue.numbered).noteCommit (qidFig qid) b.note).raiseFig n.fig 12 = w
  have hvw : Spares [.que, .sp, .sto, .peat] s w := by
    rw [← hw, ← hv]
    exact (((takesBuilt_spares (by decide)).trans (modQue_spares (by decide) _ _)).trans
      (noteCommit_spares _ _ (.inr (by decide)))).trans (raiseFig_spares _ _ _)
  have hnum : v.numbered qid b = w.tuneAnswer n := by
    rw [State.numbered, hb, State.tuneCommit, hw]
  have hafter : Spares [.que, .sp, .sto, .peat] (w.tuneAnswer n) (v.commitPacket qid b poison) := by
    rw [← hnum]
    exact (commitPacket_after v qid b poison).mono (by decide)
  have hsets : w.sets = s.sets := hvw.parts .sets (by decide)
  obtain ⟨hdone, houtst, -⟩ := completes_then hvw (by decide) (congrArg Sets.castSeq hsets) ho hafter
  exact ⟨hdone, houtst⟩

end

section
variable {s : State} {qid corrected : Nat} {b : Building} {rest : List Building} {poison : List Nat}

/-- What a commit leaves of the queues. -/
theorem packetCommit_queAt {t : State}
    (ht : t = State.done s ((s.takesBuilt qid corrected rest).commitPacket qid b poison)) :
    (t.queAt qid).next = (s.queAt qid).next + 1#32 ∧ (t.queAt qid).due = rest ∧
      ∀ k, k ≠ qid → k ≠ 64 * qidFig qid + 2 → t.queAt k = s.queAt k := by
  subst ht
  obtain ⟨hnext, hdue, hothers⟩ := commitPacket_queAt (s.takesBuilt qid corrected rest) qid b poison
  simp only [done_queAt]
  refine ⟨?_, ?_, fun k hk he => ?_⟩
  · rw [hnext, takesBuilt_self]
  · rw [hdue, takesBuilt_self]
  · rw [hothers k hk he, takesBuilt_queAt, queAt_modQue_other _ _ hk]

/-- The ring that a committed packet joins. -/
theorem packetCommit_pkts (h3 : qidStream qid ≠ 3) (ha : s.archMode (qidFig qid) = 0)
    (hd : (s.queAt qid).divert = none) (hr : (s.queAt qid).room (b.payload.length + 2) = true)
    (hf : 100 * ((s.queAt qid).fill + b.payload.length + 2) < s.castN 0x158 0 * (s.queAt qid).ringWords) :
    ((State.done s ((s.takesBuilt qid corrected rest).commitPacket qid b poison)).queAt qid).pkts =
      (s.queAt qid).pkts ++
      [⟨qid, (s.queAt qid).next, if qidStream qid ≤ 2 then s.mt.mt else b.stamp, b.payload, false, false, poison⟩] := by
  generalize hv : s.takesBuilt qid corrected rest = v
  have hspares : Spares [.que] s v := by rw [← hv]; exact takesBuilt_spares (by decide)
  have hat : v.queAt qid = { s.queAt qid with due := rest } := by rw [← hv, takesBuilt_self]
  have hsto : v.sto = s.sto := hspares.parts .sto (by decide)
  have hsets : v.sets = s.sets := hspares.parts .sets (by decide)
  have hmt : v.mt = s.mt := hspares.parts .mt (by decide)
  have harch : v.archMode (qidFig qid) = 0 := by
    rw [← ha]
    simp only [State.archMode, State.archiveOn, State.castN, hsto, hsets]
    rfl
  have hcast : v.castN 0x158 0 = s.castN 0x158 0 := by simp only [State.castN, hsets]
  have h := commitPacket_pkts (s := v) (b := b) (poison := poison) h3 harch (by rw [hat]; exact hd)
    (by rw [hat]; exact hr) (by rw [hat, hcast]; exact hf)
  rw [hat, hmt] at h
  exact h

end

/-- Settles O19: a flush waits for its flush points, each of which leaves what `flushQueue_queAt` says; credit adds up
(`grant_queAt`); a push and a commit take the next SEQ (`commitPacket_queAt`), and a packet that is neither archived
nor diverted joins the ring (`commitPacket_pkts`). -/
theorem queuesFlushCreditAndCommit : Obligations.QueuesFlushCreditAndCommit := by
  unfold Obligations.QueuesFlushCreditAndCommit
  refine ⟨fun s r scope obj ha hk hf => ⟨_, exec_queFlush_waits ha hk hf, ?_⟩,
    fun s r scope obj ha hk hf => ⟨_, exec_queFlush_none ha hk hf, take_ok_done ha⟩,
    fun s qid hd hf => ⟨_, exec_flushPoint hd hf, ?_⟩, fun s qid f o hd hf h1 ho => ⟨_, exec_flushPoint hd hf, ?_⟩,
    fun s r qid grant ha hs hg hb => ⟨_, exec_queCredit ha hs hg hb, ?_⟩,
    fun s r qid words ha hq hw hd => ⟨_, exec_quePush ha hq hw hd, ?_⟩,
    fun s qid corrected poison b rest hd hq => ⟨_, exec_packetCommit hd hq, ?_⟩,
    fun s qid corrected poison b rest n o hd hq hb ho => ⟨_, exec_packetCommit hd hq, ?_⟩,
    fun s qid corrected poison b rest hd hq => ⟨_, exec_packetCommit_ecc hd hq, ?_⟩⟩
  · refine ⟨waits_of_defer rfl, done_que .., ?_⟩
    exact (((take_spares (by decide)).trans (defer_spares (by decide))).trans (spares_que (by decide))).done
  · have hfold := completes_spares ((flushPassed s qid).filter (fun f => f.left.isEmpty)) (s.flushedAt qid)
    have hque : (((flushPassed s qid).filter (fun f => f.left.isEmpty)).foldl
        (fun t f => t.complete f.mine f.answer) (s.flushedAt qid)).que = (s.flushedAt qid).que :=
      hfold.parts .que (by decide)
    obtain ⟨⟨hpkts, hpos, hbuilding, hdivert, hnext⟩, hothers, -, -⟩ := flushQueue_queAt s qid
    have hat (k : Nat) : (s.flushedAt qid).queAt k = (s.flushQueue qid false).1.queAt k := rfl
    simp only [done_queAt, done_que]
    rw [hque]
    have hat' (k : Nat) : (((flushPassed s qid).filter (fun f => f.left.isEmpty)).foldl
        (fun t f => t.complete f.mine f.answer) (s.flushedAt qid)).queAt k = (s.flushQueue qid false).1.queAt k := by
      rw [State.queAt, hque, ← State.queAt, hat]
    rw [hat' qid]
    refine ⟨hpkts, hpos, hbuilding, hdivert, hnext, fun k hk he => (hat' k).trans (hothers k hk he), rfl, fun hall => ?_,
      (((flushedAt_spares s qid).mono (by decide)).trans (hfold.mono (by decide))).done⟩
    have hnone : (flushPassed s qid).filter (fun f => f.left.isEmpty) = [] :=
      List.filter_eq_nil_iff.mpr fun f hf => by simpa using List.all_eq_true.mp hall f hf
    rw [hnone]
    exact (flushedAt_spares s qid).done
  · rw [h1, List.foldl_cons, List.foldl_nil]
    have hsets : (s.flushedAt qid).sets = s.sets := (flushedAt_spares s qid).parts .sets (by decide)
    obtain ⟨hdone, houtst, hfetched, -⟩ :=
      completes_first (flushedAt_spares s qid) (by decide) (congrArg Sets.castSeq hsets) ho (a := f.answer)
    exact ⟨hdone, houtst, hfetched⟩
  · obtain ⟨hself, hothers, hque⟩ := grant_queAt (s.take r) qid grant
    have hsets : ((s.take r).grant qid grant).sets = s.sets := (grant_spares (s.take r) qid grant).parts .sets (by decide)
    obtain ⟨hans, hques, hkept⟩ := que_answered ha (grant_spares (s.take r) qid grant)
      (congrArg Sets.castSeq hsets)
      (a := ⟨stOk, 0, leBytes 4 (((s.take r).grant qid grant).queAt qid).credit, [], false⟩)
    have hat (k : Nat) : (State.done s (((s.take r).grant qid grant).ok r 0x0704
        (leBytes 4 (((s.take r).grant qid grant).queAt qid).credit) [])).queAt k =
        ((s.take r).grant qid grant).queAt k := by
      rw [State.queAt, State.ok, hques, ← State.queAt]
    have hcredit : (((s.take r).grant qid grant).queAt qid).credit =
        min ((s.queAt qid).credit + grant) (2 ^ 32 - 1) := congrArg Queue.credit hself
    refine ⟨?_, (hat qid).trans hself, fun k hk => (hat k).trans (hothers k hk), ?_, hkept⟩
    · rw [← hcredit]
      exact hans
    · rw [State.ok, hques]
      exact hque
  · have hspares := pushes_spares (s.take r) qid words
    have hsets : ((s.take r).pushes qid words).sets = s.sets := hspares.parts .sets (by decide)
    generalize hv : (s.take r).lossesTold qid = v
    have hrec : Records qid (s.take r) v := by rw [← hv]; exact lossesTold_records _ qid
    have hlosses : Spares [.que] (s.take r) v := by rw [← hv]; exact lossesTold_spares (by decide) _ qid
    have hpush : (s.take r).pushes qid words = v.commitPacket qid (pushed words v.mt.mt) [] := by rw [← hv]; rfl
    have hself : v.queAt qid = s.queAt qid := hrec.self
    have hmt : v.mt = s.mt := hlosses.parts .mt (by decide)
    have hsto : v.sto = s.sto := hlosses.parts .sto (by decide)
    have hvsets : v.sets = s.sets := hlosses.parts .sets (by decide)
    have hque (a : Answer) : ((s.take r).pushes qid words |>.reply r 0x0705 a).que =
        (v.commitPacket qid (pushed words v.mt.mt) []).que := by rw [reply_que, hpush]
    obtain ⟨hnext, -, hothers⟩ := commitPacket_queAt v qid (pushed words v.mt.mt) []
    have hat (a : Answer) (k : Nat) : (State.done s (((s.take r).pushes qid words).reply r 0x0705 a)).queAt k =
        (v.commitPacket qid (pushed words v.mt.mt) []).queAt k := by
      rw [done_queAt, State.queAt, hque, ← State.queAt]
    unfold State.ok
    simp only [hat]
    refine ⟨answers_of_spares (opened_of_accepts ha) hspares (by decide) (congrArg Sets.castSeq hsets), ?_,
      fun harch hd hr hf => ?_, fun k hk he => ?_, ?_⟩
    · rw [hnext, hself]
    · have hstream : ¬ qidStream qid ≤ 2 := by omega
      have hmode : v.archMode (qidFig qid) = 0 := by
        rw [← harch]
        simp only [State.archMode, State.archiveOn, State.castN, hsto, hvsets]
        rfl
      have hcast : v.castN 0x158 0 = s.castN 0x158 0 := by simp only [State.castN, hvsets]
      rw [commitPacket_pkts (by omega) hmode (by rw [hself]; exact hd) (by rw [hself]; exact hr)
        (by rw [hself, hcast]; exact hf), hself, if_neg hstream, hmt]
      rfl
    · rw [hothers k hk he]
      exact hrec.others k (.inl he)
    · exact (((take_spares (by decide)).trans (hspares.mono (by decide))).trans
        (answer_spares (by decide) (by decide) _ _)).done
  · obtain ⟨hnext, hdue, hothers⟩ := packetCommit_queAt (s := s) (b := b) (poison := poison) (corrected := corrected)
      (rest := rest) rfl
    have hcommit (l : List Piece) (hq : .que ∈ l) (hs : .sto ∈ l) (hp : .peat ∈ l) (hn : b.note = none ∨ .sp ∈ l)
        (ht : b.tuned = none ∨ .mbx ∈ l ∧ .requests ∈ l ∧ .window ∈ l) :
        KeptBut l s (State.done s ((s.takesBuilt qid corrected rest).commitPacket qid b poison)) :=
      ((takesBuilt_spares hq).trans (commitPacket_spares hq hs hp hn ht)).done
    refine ⟨hnext, hdue, fun h3 ha hdv hr hf => packetCommit_pkts h3 ha hdv hr hf, hothers, fun p => ?_, fun hn => ?_,
      fun ht => ?_, hcommit _ (by decide) (by decide) (by decide) (.inr (by decide)) (.inr (by decide))⟩
    · refine regs_of_sansRegs ?_
      rw [done_spAt, commitPacket_sansRegs]
      exact congrArg (fun t => Sp.sansRegs (tget Sp.init t p))
        ((takesBuilt_spares (l := [.que]) (by decide)).parts .sp (by decide))
    · obtain ⟨-, -, -, hkept⟩ := hcommit [.que, .sto, .peat, .mbx, .requests, .window] (by decide) (by decide)
        (by decide) (.inl hn) (.inr (by decide))
      exact hkept .sp (by decide)
    · obtain ⟨-, -, -, hkept⟩ := hcommit [.que, .sto, .peat, .sp] (by decide) (by decide) (by decide) (.inr (by decide))
        (.inl ht)
      exact ⟨hkept .mbx (by decide), hkept .requests (by decide), hkept .window (by decide)⟩
  · obtain ⟨hnext, hdue, -⟩ := packetCommit_queAt (s := s) (b := b) (poison := poison) (corrected := corrected)
      (rest := rest) rfl
    obtain ⟨hdone, houtst⟩ := commitPacket_completes hb ho (qid := qid) (corrected := corrected) (rest := rest)
      (poison := poison)
    exact ⟨hnext, hdue, hdone, houtst, ((takesBuilt_spares (by decide)).trans (commitPacket_spares (by decide)
      (by decide) (by decide) (.inr (by decide)) (.inr (by decide)))).done⟩
  · have hrec := abandons_records (s := s.takesBuilt qid corrected rest) (qid := qid) (b := b)
    simp only [done_queAt, done_que]
    refine ⟨hrec.self.trans takesBuilt_self, abandons_flag, fun k hk he => ?_, fun ht => ?_, ?_⟩
    · rw [hrec.others k (.inl he), takesBuilt_queAt, queAt_modQue_other _ _ hk]
    · exact ((takesBuilt_spares (by decide)).trans (abandons_spares (by decide) (.inl ht))).done
    · exact ((takesBuilt_spares (by decide)).trans (abandons_spares (by decide) (.inr (by decide)))).done

end Sys2Proof.Machine

/-! SUPPORT. The rules of the drains' shared operations: targets, retirement, relocation and grown bad blocks, the
operations and pages a channel takes back, and the watch over the store's fill (R502, R514 to R519). -/

namespace Sys2Proof.Machine

section
variable {s t u : State} {l : List Piece} {n k : Nat} {x y z : Sto}

/-! ### Targets -/

/-- A target of the store. -/
def Sto.target (x : Sto) (n : Nat) : Target := tget Target.init x.targets n

theorem targetAt_eq (s : State) (n : Nat) : s.targetAt n = s.sto.target n := rfl

theorem modTarget_sto (f : Target → Target) :
    (s.modTarget n f).sto = { s.sto with targets := tput s.sto.targets n (f (s.targetAt n)) } := rfl

theorem targetAt_modTarget_self (s : State) (n : Nat) (f : Target → Target) :
    (s.modTarget n f).targetAt n = f (s.targetAt n) := tget_tput_self

theorem targetAt_modTarget_other (s : State) (f : Target → Target) (h : k ≠ n) :
    (s.modTarget n f).targetAt k = s.targetAt k := tget_tput_other h

theorem raise_sto (s : State) (c : Nat) : (s.raise c).sto = s.sto :=
  (Spares.of_quiet (l := []) (raise_quiet s c)).parts .sto (by decide)

/-! ### Running operations -/

/-- No operation runs on a target exactly when none of its operations is marked running. -/
theorem running_eq_none : x.running n = none ↔ ∀ o ∈ x.ops, o.target = n → o.running = false := by
  simp only [Sto.running, List.find?_eq_none, Bool.and_eq_true, beq_iff_eq, not_and, Bool.not_eq_true]

theorem endOp_running : (x.endOp n).running n = none := by
  rw [running_eq_none]
  intro o ho ht
  have hkept := (List.mem_filter.mp ho).2
  simpa [ht] using hkept

theorem resume_running (c : Nat) (h : x.running n = none) : (x.resume c).running n = none := by
  rw [running_eq_none] at h ⊢
  intro o ho
  obtain ⟨q, hq, rfl⟩ := List.mem_map.mp ho
  split <;> exact h q hq

/-! ### What retirement, relocation and the watch leave -/

/-- The store after work that retires a target, queues reads and follows the fill: the other targets stand, of this one
all but its health; operations are only added, none of them running; of the pages only the target set changes. -/
structure Sto.Repairs (n : Nat) (x y : Sto) : Prop where
  others : ∀ k, k ≠ n → y.target k = x.target k
  self : { y.target n with retired := (x.target n).retired, healthy := (x.target n).healthy } = x.target n
  retired : (x.target n).retired = true → (y.target n).retired = true
  ops : ∃ more, y.ops = x.ops ++ more ∧ ∀ o ∈ more, o.running = false
  pages : ∃ f : Page → Nat, y.pages = x.pages.map (fun p => { p with set := f p })
  rest : { y with
    targets := x.targets, ops := x.ops, pages := x.pages, flags := x.flags, state := x.state
    intakeHeld := x.intakeHeld, full := x.full, nearFull := x.nearFull } = x

theorem Sto.Repairs.of_same (ht : y.targets = x.targets) (ho : y.ops = x.ops) (hp : y.pages = x.pages)
    (hr : { y with
      targets := x.targets, ops := x.ops, pages := x.pages, flags := x.flags, state := x.state
      intakeHeld := x.intakeHeld, full := x.full, nearFull := x.nearFull } = x) : x.Repairs n y where
  others _ _ := by rw [Sto.target, ht, Sto.target]
  self := by rw [Sto.target, ht]; rfl
  retired h := by rw [Sto.target, ht]; exact h
  ops := ⟨[], by simp [ho]⟩
  pages := ⟨Page.set, by simp [hp]⟩
  rest := hr

theorem Sto.Repairs.refl : x.Repairs n x := .of_same rfl rfl rfl rfl

theorem Sto.Repairs.trans (h : x.Repairs n y) (j : y.Repairs n z) : x.Repairs n z where
  others k hk := (j.others k hk).trans (h.others k hk)
  self := by
    rw [← h.self, ← j.self]
  retired hr := j.retired (h.retired hr)
  ops := by
    obtain ⟨a, ha, hra⟩ := h.ops
    obtain ⟨b, hb, hrb⟩ := j.ops
    refine ⟨a ++ b, by rw [hb, ha, List.append_assoc], fun o ho => ?_⟩
    rcases List.mem_append.mp ho with ho | ho
    · exact hra o ho
    · exact hrb o ho
  pages := by
    obtain ⟨f, hf⟩ := h.pages
    obtain ⟨g, hg⟩ := j.pages
    exact ⟨fun p => g { p with set := f p }, by rw [hg, hf, List.map_map]; rfl⟩
  rest := by
    rw [← h.rest, ← j.rest]

theorem Sto.Repairs.ite {c : Prop} [Decidable c] (hy : x.Repairs n y) (hz : x.Repairs n z) :
    x.Repairs n (if c then y else z) := by
  split <;> assumption

theorem Sto.Repairs.running (h : x.Repairs n y) (hx : x.running k = none) : y.running k = none := by
  obtain ⟨more, hops, hmore⟩ := h.ops
  rw [running_eq_none] at hx ⊢
  intro o ho
  rw [hops] at ho
  rcases List.mem_append.mp ho with ho | ho
  · exact hx o ho
  · exact fun _ => hmore o ho

/-- A target keeps all but its health. -/
theorem Sto.Repairs.field {α : Type} (h : x.Repairs n y) (f : Target → α)
    (hf : ∀ (a : Target) r g, f { a with retired := r, healthy := g } = f a) (k : Nat) :
    f (y.target k) = f (x.target k) := by
  by_cases hk : k = n
  · subst hk
    rw [← h.self]
    exact (hf _ _ _).symm
  · rw [h.others k hk]

/-- The store takes in whether it holds intake, is full or near full (Table 19.15). -/
def Sto.watched (x : Sto) (held full near : Bool) (m : Word) : Sto :=
  { x with intakeHeld := held, full := full, nearFull := near, flags := x.flags ||| m }

theorem syncPeat_sto (s : State) : s.syncPeat.sto = s.sto :=
  (syncPeat_spares (l := [.peat]) s (by decide)).parts .sto (by decide)

theorem stoWatch_sto (s : State) : ∃ held full near m, s.stoWatch.sto = s.sto.watched held full near m := by
  unfold State.stoWatch
  extract_lets v held full near up x t1 t2 t3
  have h2 : t2.sto = t1.sto := by
    simp only [t2]
    split
    · exact raise_sto _ _
    · rfl
  have h3 : t3.sto = t2.sto := by
    simp only [t3]
    split
    · exact raise_sto _ _
    · rfl
  have h4 : (if near && !v.sto.nearFull then t3.raise 0xA62 else t3).sto = t1.sto := by
    rw [← h2, ← h3]
    split
    · exact raise_sto _ _
    · rfl
  have hv : v.sto = s.sto := syncPeat_sto s
  refine ⟨held, full, near, up v.sto.intakeHeld held 0x80#32 ||| up v.sto.full full 0x100#32 |||
    up v.sto.nearFull near 0x200#32, h4.trans ?_⟩
  simp only [t1, Sto.watched, ← hv, BitVec.or_assoc]
  rfl

theorem stoWatch_repairs (s : State) (n : Nat) : s.sto.Repairs n s.stoWatch.sto := by
  obtain ⟨_, _, _, _, h⟩ := stoWatch_sto s
  rw [h]
  exact .of_same rfl rfl rfl rfl

/-- A step that ends with the watch leaves the parts its work leaves, and the store watched. -/
theorem watched_done (hu : Spares l s u) (hs : .sto ∈ l) (hp : .peat ∈ l) : KeptBut l s (State.done s u.stoWatch) :=
  (hu.trans (stoWatch_spares u hs hp)).done

/-! ### Retirement, grown bad blocks, relocation -/

/-- The reads that relocate pages of a target (R514, R519). -/
def relocations (n : Nat) (live : List Page) : List NandOp :=
  live.map (fun p => { kind := .read, prio := 3, target := n, obj := p.logical, running := false, paused := false })

theorem relocations_idle (live : List Page) {o : NandOp} (h : o ∈ relocations n live) : o.running = false := by
  obtain ⟨p, -, rfl⟩ := List.mem_map.mp h
  rfl

theorem relocate_sto (s : State) (n block : Nat) : (s.relocate n block).sto = { s.sto with
    ops := s.sto.ops ++
      relocations n (s.sto.log.filter (fun p => p.target == n && p.block == block && !p.pkts.isEmpty)) } := rfl

theorem relocate_spares (hs : .sto ∈ l) (n block : Nat) : Spares l s (s.relocate n block) := spares_sto hs

theorem relocate_repairs (s : State) (n block : Nat) : s.sto.Repairs n (s.relocate n block).sto where
  others _ _ := rfl
  self := rfl
  retired h := h
  ops := ⟨_, rfl, fun _ => relocations_idle _⟩
  pages := ⟨Page.set, by simp [relocate_sto]⟩
  rest := rfl

/-- A page whose set has no target left goes to any (R211, Table 19.8). -/
def Sto.spread (x : Sto) (set : Nat) (p : Page) : Page :=
  { p with set := if p.set = set ∧ !x.setUsable set then 0xFF else p.set }

theorem spread_eq (x : Sto) (set : Nat) (p : Page) :
    (if p.set = set ∧ !x.setUsable set then { p with set := 0xFF } else p) = x.spread set p := by
  rw [Sto.spread]
  split <;> rfl

/-- The store once a target that is still in use is retired, but for the state (R519). -/
def Sto.retiring (x : Sto) (n : Nat) : Sto :=
  let y : Sto := { x with
    targets := tput x.targets n { x.target n with retired := true, healthy := false }
    flags := x.flags ||| 0x20#32 }
  { y with
    ops := x.ops ++ relocations n (x.log.filter (fun p => p.target == n && !p.pkts.isEmpty))
    pages := x.pages.map (y.spread (n % 8)) }

/-- The store after a retirement: without a healthy target left a READY one has failed (R519). -/
def Sto.retired (x : Sto) (n : Nat) : Sto :=
  let y := x.retiring n
  if y.healthyCount = 0 && y.state == .ready then { y with state := .failed } else y

theorem retire_sto (s : State) (n : Nat) : (s.retire n).sto =
    if (s.targetAt n).retired || !(s.targetAt n).fitted then s.sto else s.sto.retired n := by
  unfold State.retire
  split
  · rfl
  · extract_lets t1 t2 live v t3 w
    have h2 : t2.sto = { s.sto with
      targets := tput s.sto.targets n { s.targetAt n with retired := true, healthy := false }
      flags := s.sto.flags ||| 0x20#32 } := raise_sto _ _
    have h3 : t3.sto = s.sto.retiring n := by
      simp only [t3, v, live, spread_eq, h2]
      rfl
    rw [apply_ite State.sto]
    simp only [w, h3]
    rfl

theorem retire_spares (hs : .sto ∈ l) (s : State) (n : Nat) : Spares l s (s.retire n) := by
  unfold State.retire
  refine .ite .refl ?_
  extract_lets t1 t2 live v t3
  have h2 : Spares l s t2 := ((spares_sto hs : Spares l s t1).trans (spares_sto hs)).trans (.of_quiet (raise_quiet _ _))
  exact (h2.trans (spares_sto hs)).trans (.ite (spares_sto hs) .refl)

theorem retiring_repairs (x : Sto) (n : Nat) : x.Repairs n (x.retiring n) where
  others k hk := tget_tput_other hk
  self := by
    rw [Sto.target, Sto.retiring, tget_tput_self]
  retired _ := by
    rw [Sto.target, Sto.retiring, tget_tput_self]
  ops := ⟨_, rfl, fun _ => relocations_idle _⟩
  pages := ⟨_, rfl⟩
  rest := rfl

theorem retired_repairs (x : Sto) (n : Nat) : x.Repairs n (x.retired n) :=
  (retiring_repairs x n).trans (.ite (.of_same rfl rfl rfl rfl) .refl)

theorem retire_repairs (s : State) (n : Nat) : s.sto.Repairs n (s.retire n).sto := by
  rw [retire_sto]
  exact .ite .refl (retired_repairs _ _)

/-- A fitted target is retired afterwards. -/
theorem retire_retired (hf : (s.targetAt n).fitted = true) : ((s.retire n).targetAt n).retired = true := by
  rw [targetAt_eq, retire_sto]
  split
  next h =>
    rw [← targetAt_eq]
    simpa only [hf, Bool.not_true, Bool.or_false] using h
  next =>
    rw [Sto.retired, Sto.target, apply_ite Sto.targets]
    rw [ite_self, Sto.retiring, tget_tput_self]

theorem growBad_spares (hs : .sto ∈ l) (n block : Nat) : Spares l s (s.growBad n block) := spares_sto hs

theorem growBad_sto (s : State) (n block : Nat) : (s.growBad n block).sto = { s.sto with
    targets := tput s.sto.targets n { s.targetAt n with
      bad := insAsc (s.targetAt n).bad block, grown := (s.targetAt n).grown + 1 }
    badBlk := bump s.sto.badBlk } := rfl

theorem growBad_target_self (s : State) (n block : Nat) : (s.growBad n block).sto.target n = { s.targetAt n with
    bad := insAsc (s.targetAt n).bad block, grown := (s.targetAt n).grown + 1 } := tget_tput_self

theorem growBad_target_other (s : State) (block : Nat) (h : k ≠ n) :
    (s.growBad n block).sto.target k = s.sto.target k := tget_tput_other h

/-! ### What a channel takes back -/

theorem requeue_rest (s : State) (n : Nat) :
    { (s.requeue n).sto with ops := s.sto.ops, pages := s.sto.pages } = s.sto := rfl

theorem requeue_running {o : NandOp} (h : o ∈ (s.requeue n).sto.ops) (hr : o.running = true) :
    o ∈ s.sto.ops ∧ o.target ≠ n := by
  obtain ⟨q, hq, rfl⟩ := List.mem_map.mp h
  have hmem : q ∈ s.sto.ops := (List.mem_filter.mp hq).1
  by_cases ht : q.target = n
  · rw [if_pos ht] at hr
    exact absurd hr Bool.false_ne_true
  · rw [if_neg ht]
    exact ⟨hmem, ht⟩

theorem requeue_underway {p : Page} (h : p ∈ (s.requeue n).sto.pages) (hp : p.state = .programming ∨ p.state = .paused) :
    p ∈ s.sto.pages ∧ p.target ≠ n := by
  obtain ⟨q, hq, rfl⟩ := List.mem_map.mp h
  by_cases ht : q.target = n ∧ (q.state = .programming ∨ q.state = .paused)
  · rw [if_pos ht] at hp
    exact hp.elim PageState.noConfusion PageState.noConfusion
  · rw [if_neg ht] at hp ⊢
    exact ⟨hq, fun hn => ht ⟨hn, hp⟩⟩

/-- The state after several targets' operations are taken back. -/
def State.requeues (s : State) (ns : List Nat) (base : Nat) : State := ns.foldl (fun t i => t.requeue (base + i)) s

theorem requeues_spares (hs : .sto ∈ l) (ns : List Nat) (base : Nat) : Spares l s (s.requeues ns base) :=
  .foldl (fun _ _ => spares_sto hs) _ _

theorem requeues_rest (ns : List Nat) (base : Nat) (s : State) :
    { (s.requeues ns base).sto with ops := s.sto.ops, pages := s.sto.pages } = s.sto := by
  induction ns generalizing s with
  | nil => rfl
  | cons i ns ih => exact congrArg (fun x : Sto => { x with ops := s.sto.ops, pages := s.sto.pages }) (ih (s.requeue (base + i)))

theorem requeues_running (ns : List Nat) {base : Nat} {o : NandOp} (h : o ∈ (s.requeues ns base).sto.ops)
    (hr : o.running = true) : o ∈ s.sto.ops ∧ ∀ i ∈ ns, o.target ≠ base + i := by
  induction ns generalizing s with
  | nil => exact ⟨h, by simp⟩
  | cons i ns ih =>
    obtain ⟨hmem, hns⟩ := ih h
    obtain ⟨hmem, hi⟩ := requeue_running hmem hr
    exact ⟨hmem, List.forall_mem_cons.mpr ⟨hi, hns⟩⟩

theorem requeues_underway (ns : List Nat) {base : Nat} {p : Page} (h : p ∈ (s.requeues ns base).sto.pages)
    (hp : p.state = .programming ∨ p.state = .paused) : p ∈ s.sto.pages ∧ ∀ i ∈ ns, p.target ≠ base + i := by
  induction ns generalizing s with
  | nil => exact ⟨h, by simp⟩
  | cons i ns ih =>
    obtain ⟨hmem, hns⟩ := ih h
    obtain ⟨hmem, hi⟩ := requeue_underway hmem hp
    exact ⟨hmem, List.forall_mem_cons.mpr ⟨hi, hns⟩⟩

/-- Nothing runs on a target whose operations were taken back. -/
theorem requeues_idle {ns : List Nat} {base i : Nat} (hi : i ∈ ns) :
    (s.requeues ns base).sto.running (base + i) = none :=
  running_eq_none.mpr fun _ ho ht => Bool.eq_false_iff.mpr fun hr => (requeues_running ns ho hr).2 i hi ht

end

end Sys2Proof.Machine

/-! The Mire's commands (Table 22.4; R512, R513, R519, R521, R522, R579). -/

namespace Sys2Proof.Machine

section
variable {s t u : State} {r : Req} {l : List Piece} {qid count ring : Nat} {first : Word} {n channel target : Nat} {g : Gate}

/-! ### MIRE_READ -/

/-- Packets of the range that are known to be lost (R517). -/
def Sto.lostIn (x : Sto) (qid : Nat) (first : Word) (count : Nat) : Nat :=
  (x.lostPkts.filter (fun e => e.1 == qid && inRange first count e.2)).length

/-- The reads of the log pages that hold packets of the range. -/
def Sto.readsFor (x : Sto) (qid : Nat) (first : Word) (count : Nat) : List NandOp :=
  (x.log.filter (fun p => p.pkts.any (fun k => k.qid == qid && inRange first count k.seq))).map
    (fun p => ⟨.read, 2, p.target, p.logical, false, false⟩)

/-- The read of a range into a ring, nothing delivered yet (R521). -/
def Sto.readOf (x : Sto) (r : Req) (qid : Nat) (first : Word) (count ring : Nat) : MireRead :=
  ⟨r.mbx, r.tag, qid, first, count, ring, 0, 0, count - (x.held qid first count).length - x.lostIn qid first count,
    x.lostIn qid first count, false, []⟩

/-- The end of a MIRE_READ of packets the Mire holds. -/
def State.readStarts (s : State) (r : Req) (qid : Nat) (first : Word) (count ring : Nat) : State :=
  let t := s.defer r 0x0801 qid ring 0
  { t with sto := { t.sto with
    reads := t.sto.reads ++ [s.sto.readOf r qid first count ring]
    ops := t.sto.ops ++ s.sto.readsFor qid first count } }

/-- The end of a MIRE_READ of which the Mire holds nothing. -/
def State.readFindsNone (s : State) (r : Req) (qid : Nat) (first : Word) (count : Nat) : State :=
  (s.ok r 0x0801 (leBytes 4 0 ++ leBytes 4 (count - (s.sto.held qid first count).length - s.sto.lostIn qid first count) ++
    leBytes 4 (s.sto.lostIn qid first count)) []).raise 0xA65

theorem exec_mireRead (ha : Accepts s r 0x0801 { long := true, needs := [7] }) (hm : s.mireReady = true)
    (hq : streamOk qid = true) (hc : count ≠ 0 ∧ count ≤ 16777216) (hr : ring < 64)
    (ho : (s.hdrAt ring).state = .opened) (hn : s.sto.reads.length < 16) (hs : s.sto.state ≠ .commit) :
    exec (.mireRead r qid first count ring) s = .next (State.done s
      (if (s.sto.held qid first count).isEmpty then (s.take r).readFindsNone r qid first count
      else (s.take r).readStarts r qid first count ring)) := by
  obtain ⟨hpos, hmost⟩ := hc
  have hm' : (s.take r).mireReady = true := hm
  show execMireRead r qid first count ring s = _
  rw [execMireRead, umser_accepts ha, if_neg (by simp [hm']), if_neg (by simp [hq]),
    if_neg (show ¬ (count = 0 ∨ 16777216 < count) by omega), if_neg (by omega : ¬ 64 ≤ ring),
    if_neg (by simp [ho]), if_neg (by simp [hs, Nat.not_le.mpr hn])]
  rfl

theorem readStarts_changes : Waits s (State.done s ((s.take r).readStarts r qid first count ring)) r 0x0801 qid ring 0 ∧
    KeptBut [.requests, .sto] s (State.done s ((s.take r).readStarts r qid first count ring)) :=
  ⟨waits_of_defer rfl, (((take_spares (by decide)).trans (defer_spares (by decide))).trans (spares_sto (by decide))).done⟩

/-- An answer stands whatever its step does afterwards outside the mailboxes, the requests and the window. -/
theorem Answers.after {op : Nat} {a : Answer} (h : Answers s (State.done s u) r op a) (hu : Spares l u t)
    (hl : ∀ p ∈ answerParts, p ∉ l) : Answers s (State.done s t) r op a := by
  obtain ⟨hnew, hothers, hfetched, houtst, hwin⟩ := h
  obtain ⟨hf, ho⟩ := hu.parts .requests (hl _ (by decide))
  have hm : t.host.mbx = u.host.mbx := hu.parts .mbx (hl _ (by decide))
  have hw : t.host.window = u.host.window := hu.parts .window (hl _ (by decide))
  have hat (n : Nat) : (State.done s t).mbxAt n = (State.done s u).mbxAt n := by
    rw [done_mbxAt, done_mbxAt, State.mbxAt, hm, State.mbxAt]
  rw [done_host_fetched] at hfetched
  rw [done_host_outst] at houtst
  rw [done_host_window] at hwin
  refine ⟨by rw [hat, hnew], fun k hk => by rw [hat, hothers k hk], ?_, ?_, fun x hx => ?_⟩
  · rw [done_host_fetched, hf, hfetched]
  · rw [done_host_outst, ho, houtst]
  · rw [done_host_window, hw, hwin x hx]

theorem readFindsNone_changes (ha : Accepts s r 0x0801 g) (hh : s.sto.held qid first count = []) :
    Answers s (State.done s ((s.take r).readFindsNone r qid first count)) r 0x0801
      ⟨stOk, 0, leBytes 4 0 ++ leBytes 4 (count - s.sto.lostIn qid first count) ++
        leBytes 4 (s.sto.lostIn qid first count), [], false⟩ ∧
      KeptBut [.mbx, .requests, .window] s (State.done s ((s.take r).readFindsNone r qid first count)) := by
  have hh' : (s.take r).sto.held qid first count = [] := hh
  have hr (v : State) : Spares [] v (v.raise 0xA65) := .of_quiet (raise_quiet v _)
  rw [State.readFindsNone, hh', List.length_nil, Nat.sub_zero]
  exact ⟨(take_ok_done ha).1.after (hr _) (by simp),
    ((take_spares (by decide)).trans ((answer_spares (by decide) (by decide) _ _).trans ((hr _).mono (by simp)))).done⟩

/-! ### MIRE_RELEASE -/

theorem reclaim_spares (hs : .sto ∈ l) (s : State) : Spares l s s.reclaim := by
  unfold State.reclaim
  exact .foldl (fun _ _ => .ite (.ite .refl (spares_sto hs)) (.ite (relocate_spares hs _ _) .refl)) _ _

/-- The store without its operations. -/
def Sto.sansOps (x : Sto) : Sto := { x with ops := [] }

theorem reclaim_sansOps (s : State) : s.reclaim.sto.sansOps = s.sto.sansOps := by
  unfold State.reclaim
  refine List.foldlRecOn (motive := fun t : State => t.sto.sansOps = s.sto.sansOps) _ _ rfl fun t ht nb _ => ?_
  dsimp only
  split
  · split <;> exact ht
  · split <;> exact ht

/-- A page without the packets that are released. -/
def Page.sans (gone : Page → Packet → Bool) (p : Page) : Page := { p with pkts := p.pkts.filter (fun k => !gone p k) }

/-- The released packets leave the pages and the log, whose pages without packets are free (R514, R522). -/
def State.cuts (s : State) (gone : Page → Packet → Bool) (keep : List Packet) : State :=
  { s with sto := { s.sto with
    pages := s.sto.pages.map (Page.sans gone)
    log := (s.sto.log.map (Page.sans gone)).filter (fun p => !p.pkts.isEmpty)
    releasedHeld := s.sto.releasedHeld ++ keep } }

/-- Every packet the Mire holds, page by page. -/
def Sto.packets (x : Sto) : List Packet := x.holding.flatMap Page.pkts

/-- The packets a release takes. -/
def Sto.taken (x : Sto) (gone : Page → Packet → Bool) : List Packet := x.holding.flatMap (fun p => p.pkts.filter (gone p))

theorem release_eq (s : State) (gone : Page → Packet → Bool) : ∃ keep, s.release gone =
    ((s.cuts gone keep).reclaim.stoWatch, (s.sto.taken gone).length) := ⟨_, rfl⟩

theorem flatMap_pkts_nonempty (ps : List Page) :
    (ps.filter (fun p => !p.pkts.isEmpty)).flatMap Page.pkts = ps.flatMap Page.pkts := by
  induction ps with
  | nil => rfl
  | cons p ps ih =>
    rw [List.filter_cons]
    split
    next => rw [List.flatMap_cons, List.flatMap_cons, ih]
    next h =>
      have he : p.pkts = [] := by simpa using h
      rw [List.flatMap_cons, ih, he, List.nil_append]

theorem cuts_packets (gone : Page → Packet → Bool) (keep : List Packet) : (s.cuts gone keep).sto.packets =
    s.sto.holding.flatMap (fun p => p.pkts.filter (fun k => !gone p k)) := by
  rw [Sto.packets, Sto.holding, List.flatMap_append, Sto.holding, List.flatMap_append]
  congr 1
  · rw [State.cuts, List.filter_map, List.flatMap_map]
    rfl
  · rw [State.cuts, flatMap_pkts_nonempty, List.flatMap_map]
    rfl

/-- The state once packets are released. -/
theorem release_changes (hs : .sto ∈ l) (hp : .peat ∈ l) (s : State) (gone : Page → Packet → Bool) :
    Spares l s (s.release gone).1 ∧
      (s.release gone).1.sto.packets = s.sto.holding.flatMap (fun p => p.pkts.filter (fun k => !gone p k)) ∧
      (s.release gone).1.sto.reads = s.sto.reads ∧ (s.release gone).1.sto.targets = s.sto.targets ∧
      (s.release gone).1.sto.state = s.sto.state := by
  obtain ⟨keep, h⟩ := release_eq s gone
  obtain ⟨_, _, _, _, hw⟩ := stoWatch_sto (s.cuts gone keep).reclaim
  have hr := reclaim_sansOps (s.cuts gone keep)
  rw [h]
  refine ⟨((spares_sto hs).trans (reclaim_spares hs _)).trans (stoWatch_spares _ hs hp), ?_, ?_, ?_, ?_⟩
  · rw [hw, ← cuts_packets gone keep]
    exact (congrArg Sto.packets hr :)
  · rw [hw]
    exact (congrArg Sto.reads hr :)
  · rw [hw]
    exact (congrArg Sto.targets hr :)
  · rw [hw]
    exact (congrArg Sto.state hr :)

/-- The packets of a queue up to a SEQ (mode 0 of MIRE_RELEASE). -/
def goneBySeq (qid : Nat) (seq : Word) (_ : Page) (k : Packet) : Bool := k.qid == qid && seqLe k.seq seq

/-- The packets of pages before a time (mode 1 of MIRE_RELEASE). -/
def goneByMt (mt : DWord) (p : Page) (_ : Packet) : Bool := p.mt != mt && mtLe p.mt mt

/-- The end of a release (R522). -/
def State.mireReleases (s : State) (r : Req) (gone : Page → Packet → Bool) : State :=
  (s.release gone).1.reply r 0x0802 ⟨stOk, 0, leBytes 4 (s.sto.taken gone).length, [], false⟩

theorem exec_mireRelease_seq {seq : Word} {mt : DWord} (ha : Accepts s r 0x0802 { needs := [7] })
    (hm : s.mireReady = true) (hq : streamOk qid = true) : exec (.mireRelease r 0 qid seq mt) s =
      .next (State.done s ((s.take r).mireReleases r (goneBySeq qid seq))) := by
  have hm' : (s.take r).mireReady = true := hm
  show execMireRelease r 0 qid seq mt s = _
  rw [execMireRelease, umser_accepts ha, if_neg (by simp [hm']), if_neg (by decide), if_neg (by simp [hq])]
  rfl

theorem exec_mireRelease_mt {seq : Word} {mt : DWord} (ha : Accepts s r 0x0802 { needs := [7] })
    (hm : s.mireReady = true) : exec (.mireRelease r 1 0 seq mt) s =
      .next (State.done s ((s.take r).mireReleases r (goneByMt mt))) := by
  have hm' : (s.take r).mireReady = true := hm
  show execMireRelease r 1 0 seq mt s = _
  rw [execMireRelease, umser_accepts ha, if_neg (by simp [hm']), if_neg (by decide), if_neg (by decide)]
  rfl

/-- A command that works on the store alone and is answered. -/
theorem sto_answered {op : Nat} {a : Answer} (ha : Accepts s r op g) (hu : Spares [.sto, .peat] (s.take r) u)
    (hc : u.sets.castSeq = s.sets.castSeq) :
    Answers s (State.done s (u.reply r op a)) r op a ∧ (State.done s (u.reply r op a)).sto = u.sto ∧
      KeptBut [.mbx, .requests, .window, .sto, .peat] s (State.done s (u.reply r op a)) :=
  ⟨answers_of_spares (opened_of_accepts ha) hu (by decide) hc,
    (answer_spares (l := [.mbx, .requests, .window]) (by decide) (by decide) _ _).parts .sto (by decide),
    ((take_spares (by decide)).trans ((hu.mono (by decide)).trans
      (answer_spares (by decide) (by decide) _ _))).done⟩

/-- A release is answered with how many packets it took; the others are still held. -/
theorem release_answers (ha : Accepts s r 0x0802 g) (gone : Page → Packet → Bool) {v : State}
    (hv : v = State.done s ((s.take r).mireReleases r gone)) :
    Answers s v r 0x0802 ⟨stOk, 0, leBytes 4 (s.sto.taken gone).length, [], false⟩ ∧
      v.sto.packets = s.sto.holding.flatMap (fun p => p.pkts.filter (fun k => !gone p k)) ∧
      v.sto.reads = s.sto.reads ∧ v.sto.targets = s.sto.targets ∧ v.sto.state = s.sto.state ∧
      KeptBut [.mbx, .requests, .window, .sto, .peat] s v := by
  obtain ⟨hu, hpackets, hreads, htargets, hstate⟩ :=
    release_changes (l := [.sto, .peat]) (by decide) (by decide) (s.take r) gone
  obtain ⟨hans, hsto, hkept⟩ := sto_answered (a := ⟨stOk, 0, leBytes 4 (s.sto.taken gone).length, [], false⟩) ha hu
    (congrArg Sets.castSeq (hu.parts .sets (by decide)))
  subst hv
  exact ⟨hans, by rw [State.mireReleases, take_sto, hsto]; exact hpackets, by rw [State.mireReleases, take_sto, hsto]; exact hreads, by rw [State.mireReleases, take_sto, hsto]; exact htargets,
    by rw [State.mireReleases, take_sto, hsto]; exact hstate, hkept⟩

theorem goneBySeq_taken (seq : Word) (x : Sto) : x.taken (goneBySeq qid seq) =
    (x.holding.flatMap (fun p => p.pkts)).filter (fun k => k.qid == qid && seqLe k.seq seq) :=
  List.filter_flatMap.symm

theorem goneBySeq_left (seq : Word) (x : Sto) :
    x.holding.flatMap (fun p => p.pkts.filter (fun k => !goneBySeq qid seq p k)) =
      (x.holding.flatMap (fun p => p.pkts)).filter (fun k => !(k.qid == qid && seqLe k.seq seq)) := by
  rw [List.filter_flatMap]
  rfl

theorem flatMap_filter_const (c : Page → Bool) (ps : List Page) :
    ps.flatMap (fun p => p.pkts.filter (fun _ => c p)) = (ps.filter c).flatMap (fun p => p.pkts) := by
  induction ps with
  | nil => rfl
  | cons p ps ih =>
    rw [List.flatMap_cons, ih, List.filter_cons]
    cases hc : c p with
    | true => simp
    | false => simp

theorem goneByMt_taken (mt : DWord) (x : Sto) : x.taken (goneByMt mt) =
    (x.holding.filter (fun p => p.mt != mt && mtLe p.mt mt)).flatMap (fun p => p.pkts) :=
  flatMap_filter_const (fun p => p.mt != mt && mtLe p.mt mt) _

theorem goneByMt_left (mt : DWord) (x : Sto) :
    x.holding.flatMap (fun p => p.pkts.filter (fun k => !goneByMt mt p k)) =
      (x.holding.filter (fun p => !(p.mt != mt && mtLe p.mt mt))).flatMap (fun p => p.pkts) :=
  flatMap_filter_const (fun p => !(p.mt != mt && mtLe p.mt mt)) _

theorem b2n_decide (c : Prop) [Decidable c] : b2n (decide c) = if c then 1 else 0 := by
  by_cases h : c <;> simp [b2n, h]

/-! ### MIRE_QUERY and MIRE_STATUS_READ -/

theorem exec_mireQuery {start : Word} (ha : Accepts s r 0x0803 { needs := [7] }) (hm : s.mireReady = true)
    (hq : streamOk qid = true) : exec (.mireQuery r qid start) s = .next (State.done s ((s.take r).ok r 0x0803
      (leBytes 1 (min 64 (runsOf ((s.sto.held qid start (2 ^ 31)).map (fun k => k.seq))).length) ++
        leBytes 1 (if 64 < (runsOf ((s.sto.held qid start (2 ^ 31)).map (fun k => k.seq))).length then 1 else 0))
      (((runsOf ((s.sto.held qid start (2 ^ 31)).map (fun k => k.seq))).take 64).flatMap (fun x =>
        leBytes 4 x.first.toNat ++ leBytes 4 x.last.toNat ++
        leBytes 8 (s.sto.pageMt qid x.first).toNat ++ leBytes 8 (s.sto.pageMt qid x.last).toNat)))) := by
  have hm' : (s.take r).mireReady = true := hm
  show execMireQuery r qid start s = _
  rw [execMireQuery, umser_accepts ha, if_neg (by simp [hm']), if_neg (by simp [hq])]
  simp only [take_sto]
  rw [← b2n_decide] <;> rfl

/-! ### MIRE_FORMAT -/

/-- The store as a format begins: no operations, every target at its first block (R513). -/
def Sto.formats (x : Sto) : Sto :=
  { x with state := .formatting, ops := [], targets := tmap (fun _ (y : Target) => { y with fmtNext := 0 }) x.targets }

/-- The state as a MIRE_FORMAT begins. -/
def State.formatStarts (s : State) (r : Req) : State :=
  let t := s.defer r 0x0804 0 0 0
  { t with sto := t.sto.formats }

theorem exec_mireFormat (ha : Accepts s r 0x0804 { long := true, needs := [7] })
    (hst : s.sto.state = .ready ∨ s.sto.state = .unformatted ∨ s.sto.state = .failed) (h0 : s.sto.staged = 0)
    (hr : s.sto.reads = [])
    (hf : s.sets.cast.figs.all (fun f => s.castN 0x400 f != 1 || s.castN 0x413 f == 0) = true) :
    exec (.mireFormat r 0xA5) s = .next (State.done s ((s.take r).formatStarts r).formatDone) := by
  have hb : ¬ ((s.take r).sto.staged != 0 || (s.take r).sto.state == .commit || (s.take r).sto.state == .formatting ||
      !(s.take r).sto.reads.isEmpty || (s.take r).sets.cast.figs.any (fun f =>
        (s.take r).castN 0x400 f == 1 && (s.take r).castN 0x413 f != 0)) = true := by
    have hf' : s.sets.cast.figs.any (fun f => s.castN 0x400 f == 1 && s.castN 0x413 f != 0) = false := by
      rw [List.any_eq_false]
      intro f hmem
      have := List.all_eq_true.mp hf f hmem
      simp at this ⊢
      tauto
    have hf2 : (s.take r).sets.cast.figs.any (fun f =>
        (s.take r).castN 0x400 f == 1 && (s.take r).castN 0x413 f != 0) = false := hf'
    rw [hf2, take_sto]
    rcases hst with h | h | h <;> simp [h, h0, hr]
  show execMireFormat r 0xA5 s = _
  rw [execMireFormat, umser_accepts ha, if_neg (by decide), if_neg, if_neg hb]
  · rfl
  · rcases hst with h | h | h <;> simp [h]

/-- Every block of every fitted target is erased. -/
def allErased (ts : Tab Target) : Bool := ts.all (fun e => !e.2.fitted || e.2.blocks ≤ e.2.fmtNext)

/-- The store after a format (R513, R579). -/
def Sto.formattedAnew (x : Sto) : Sto :=
  { x with
    state := .ready
    formatted := true
    own := true
    log := []
    lostPkts := []
    sinceCkpt := 0
    ckptDue := false
    sysDescs := []
    sysRef := none
    targets := tmap (fun _ (t : Target) =>
      { t with used := [], written := 0, grown := 0, retired := false, healthy := t.fitted && !t.worn }) x.targets }

theorem formatDone_eq (s : State) : s.formatDone = if s.sto.state = .formatting && allErased s.sto.targets then
    ({ s with sto := s.sto.formattedAnew } : State).complete (fun o => o.opcode == 0x0804) { status := stOk } else s := rfl

theorem formatDone_all (hs : s.sto.state = .formatting) (he : allErased s.sto.targets = true) : s.formatDone =
    ({ s with sto := s.sto.formattedAnew } : State).complete (fun o => o.opcode == 0x0804) { status := stOk } := by
  rw [formatDone_eq, hs, he]
  rfl

theorem formatDone_left (he : allErased s.sto.targets = false) : s.formatDone = s := by
  rw [formatDone_eq, he, Bool.and_false, if_neg Bool.false_ne_true]

theorem formats_erased (x : Sto) : allErased x.formats.targets = x.targets.all (fun e => !e.2.fitted || e.2.blocks == 0) := by
  rw [allErased, Sto.formats, tmap, List.all_map]
  refine congrArg (List.all x.targets) (funext fun e => ?_)
  simp only [Function.comp_apply, Nat.le_zero, beq_eq_decide]

theorem dropFirst_last {q : Outstanding → Bool} {xs : List Outstanding} {o : Outstanding} (hn : xs.any q = false)
    (hq : q o = true) : dropFirst q (xs ++ [o]) = xs := by
  induction xs with
  | nil => simp [dropFirst, hq]
  | cons x xs ih =>
    rw [List.any_cons, Bool.or_eq_false_iff] at hn
    obtain ⟨hx, hxs⟩ := hn
    rw [List.cons_append, dropFirst, hx, if_neg Bool.false_ne_true, ih hxs]

/-- A command that is put on the list and completes in the same step is answered as one that completes at once. -/
theorem defer_complete {op obj aux phase : Nat} {a : Answer} {q : Outstanding → Bool} (hn : u.host.outst.any q = false)
    (hq : q ⟨r.mbx, false, op, r.tag, r.outLen, r.outAddr, u.mt.mt, obj, aux, phase⟩ = true) :
    (u.defer r op obj aux phase).complete q a = u.reply r op a := by
  have hf : (u.defer r op obj aux phase).host.outst.find? q =
      some ⟨r.mbx, false, op, r.tag, r.outLen, r.outAddr, u.mt.mt, obj, aux, phase⟩ := by
    have h0 : u.host.outst.find? q = none := by
      rw [List.find?_eq_none]
      exact fun x hx => (List.any_eq_false.mp hn) x hx
    rw [State.defer, List.find?_append, h0, Option.none_or, List.find?_singleton, if_pos hq]
  rw [complete_found a hf, if_neg Bool.false_ne_true, State.unlist, State.defer]
  simp only [dropFirst_last hn hq]
  rfl

theorem exec_mireFormat_begins (ha : Accepts s r 0x0804 { long := true, needs := [7] })
    (hst : s.sto.state = .ready ∨ s.sto.state = .unformatted ∨ s.sto.state = .failed) (h0 : s.sto.staged = 0)
    (hr : s.sto.reads = [])
    (hf : s.sets.cast.figs.all (fun f => s.castN 0x400 f != 1 || s.castN 0x413 f == 0) = true)
    (he : s.sto.targets.all (fun e => !e.2.fitted || e.2.blocks == 0) = false) :
    exec (.mireFormat r 0xA5) s = .next (State.done s ((s.take r).formatStarts r)) := by
  have hn : allErased ((s.take r).formatStarts r).sto.targets = false := (formats_erased s.sto).trans he
  rw [exec_mireFormat ha hst h0 hr hf, formatDone_left hn]

theorem formatStarts_changes : Waits s (State.done s ((s.take r).formatStarts r)) r 0x0804 0 0 0 ∧
    (State.done s ((s.take r).formatStarts r)).sto = s.sto.formats ∧
    KeptBut [.requests, .sto] s (State.done s ((s.take r).formatStarts r)) :=
  ⟨waits_of_defer rfl, rfl,
    (((take_spares (by decide)).trans (defer_spares (by decide))).trans (spares_sto (by decide))).done⟩

/-- The state once a format without a block to erase is done. -/
def State.formatsAnew (s : State) (r : Req) : State := { s.take r with sto := s.sto.formats.formattedAnew }

theorem formatsAnew_kept {a : Answer} :
    KeptBut [.mbx, .requests, .window, .sto] s (State.done s ((s.formatsAnew r).reply r 0x0804 a)) :=
  ((take_spares (by decide)).trans ((spares_sto (by decide)).trans (answer_spares (by decide) (by decide) _ _))).done

theorem exec_mireFormat_done (ha : Accepts s r 0x0804 { long := true, needs := [7] })
    (hst : s.sto.state = .ready ∨ s.sto.state = .unformatted ∨ s.sto.state = .failed) (h0 : s.sto.staged = 0)
    (hr : s.sto.reads = [])
    (hf : s.sets.cast.figs.all (fun f => s.castN 0x400 f != 1 || s.castN 0x413 f == 0) = true)
    (he : s.sto.targets.all (fun e => !e.2.fitted || e.2.blocks == 0) = true)
    (hn : s.host.outst.any (fun o => o.opcode == 0x0804) = false) :
    exec (.mireFormat r 0xA5) s = .next (State.done s
      ((s.formatsAnew r).reply r 0x0804 ⟨stOk, 0, [], [], false⟩)) := by
  have hall : allErased ((s.take r).formatStarts r).sto.targets = true := (formats_erased s.sto).trans he
  have hc := defer_complete (u := s.formatsAnew r) (r := r) (op := 0x0804) (obj := 0)
    (aux := 0) (phase := 0) (a := ⟨stOk, 0, [], [], false⟩) hn rfl
  rw [exec_mireFormat ha hst h0 hr hf, formatDone_all rfl hall, ← hc]
  rfl

/-! ### MIRE_TARGET_RETIRE -/

theorem exec_mireTargetRetire (ha : Accepts s r 0x0806 { needs := [7] }) (hm : s.mireReady = true)
    (hc : channel < 4 ∧ target < 8) (hf : (s.targetAt (8 * channel + target)).fitted = true) :
    exec (.mireTargetRetire r channel target) s = .next (State.done s
      ((((s.take r).retire (8 * channel + target)).stoWatch).ok r 0x0806 [] [])) := by
  obtain ⟨hch, ht⟩ := hc
  have hm' : (s.take r).mireReady = true := hm
  have hf' : ((s.take r).targetAt (8 * channel + target)).fitted = true := hf
  show execMireTargetRetire r channel target s = _
  rw [execMireTargetRetire, umser_accepts ha, if_neg (by simp [hm']), if_neg (by omega), if_neg]
  rw [hf']
  simpa using ht

theorem retired_target (x : Sto) (n : Nat) : (x.retired n).target n = { x.target n with retired := true, healthy := false } := by
  rw [Sto.retired, Sto.target, apply_ite Sto.targets, ite_self, Sto.retiring, tget_tput_self]

theorem retired_ops (x : Sto) (n : Nat) : (x.retired n).ops =
    x.ops ++ relocations n (x.log.filter (fun p => p.target == n && !p.pkts.isEmpty)) := by
  rw [Sto.retired, apply_ite Sto.ops, ite_self]
  rfl

theorem retired_flag (x : Sto) (n : Nat) (m : Word) : ((x.retired n).flags ||| m) &&& 0x20#32 = 0x20#32 := by
  rw [Sto.retired, apply_ite Sto.flags, ite_self]
  show ((x.flags ||| 0x20#32) ||| m) &&& 0x20#32 = 0x20#32
  ext i hi
  simp
  tauto

/-- With no healthy target left a READY Mire has failed. -/
theorem retired_state {x : Sto} (h : x.state = .ready) :
    (x.retired n).state = if (x.retired n).healthyCount = 0 then .failed else .ready := by
  have hs : (x.retiring n).state = .ready := h
  have hc : (x.retired n).healthyCount = (x.retiring n).healthyCount := by
    rw [Sto.retired, apply_ite Sto.healthyCount]
    exact ite_self _
  rw [hc, Sto.retired, apply_ite Sto.state, hs]
  simp

/-- MIRE_TARGET_RETIRE is answered, and the store is what the retirement left, watched. -/
theorem retire_answers (ha : Accepts s r 0x0806 g) (n : Nat) {v : State}
    (hv : v = State.done s ((((s.take r).retire n).stoWatch).ok r 0x0806 [] [])) :
    Answers s v r 0x0806 ⟨stOk, 0, [], [], false⟩ ∧
      (∃ held full near m, v.sto = ((s.take r).retire n).sto.watched held full near m) ∧
      KeptBut [.mbx, .requests, .window, .sto, .peat] s v := by
  have hu : Spares [.sto, .peat] (s.take r) ((s.take r).retire n).stoWatch :=
    (retire_spares (by decide) _ n).trans (stoWatch_spares _ (by decide) (by decide))
  obtain ⟨hans, hsto, hkept⟩ := sto_answered (a := ⟨stOk, 0, [], [], false⟩) ha hu
    (congrArg Sets.castSeq (hu.parts .sets (by decide)))
  subst hv
  refine ⟨hans, ?_, hkept⟩
  rw [State.ok, hsto]
  exact stoWatch_sto _

end

/-- Settles O20: each command's end is written out (`exec_mireRead` and the others), a release takes just what it is
asked for (`release_answers`), and a format with no block to erase ends at once (`exec_mireFormat_done`). -/
theorem mireCommands : Obligations.MireCommands := by
  unfold Obligations.MireCommands
  refine ⟨fun s r qid first count ring ha hm hq hc hr ho hn hs hh => ?_,
    fun s r qid first count ring ha hm hq hc hr ho hn hs hh => ?_,
    fun s r qid seq mt ha hm hq => ?_,
    fun s r seq mt ha hm => ?_,
    fun s r qid start ha hm hq => ⟨_, exec_mireQuery ha hm hq, ⟨_, rfl, (take_ok_done ha).1⟩, (take_ok_done ha).2⟩,
    fun s r ha hst h0 hr hf he => ?_,
    fun s r ha hst h0 hr hf he hn => ?_,
    fun s r ha => ⟨_, umser_accepts ha, take_ok_done ha⟩,
    fun s r channel target ha hm hc hf hr => ⟨_, exec_mireTargetRetire ha hm hc hf, ?_⟩,
    fun s r channel target ha hm hc hf hr => ⟨_, exec_mireTargetRetire ha hm hc hf, ?_⟩⟩
  · have he : (s.sto.held qid first count).isEmpty = false := by simpa using hh
    have hx := exec_mireRead (first := first) ha hm hq hc hr ho hn hs
    rw [he, if_neg Bool.false_ne_true] at hx
    obtain ⟨hw, hk⟩ := readStarts_changes (s := s) (r := r) (qid := qid) (first := first) (count := count) (ring := ring)
    exact ⟨_, hx, hw, ⟨_, rfl, rfl⟩, hk⟩
  · have hx := exec_mireRead (first := first) ha hm hq hc hr ho hn hs
    rw [hh, List.isEmpty_nil, if_pos rfl] at hx
    obtain ⟨hans, hk⟩ := readFindsNone_changes (count := count) ha hh
    exact ⟨_, hx, ⟨_, rfl, hans⟩, hk⟩
  · obtain ⟨hans, hp, hrest⟩ := release_answers ha (goneBySeq qid seq) rfl
    rw [goneBySeq_taken] at hans
    rw [goneBySeq_left] at hp
    exact ⟨_, exec_mireRelease_seq ha hm hq, hans, hp, hrest⟩
  · obtain ⟨hans, hp, hrest⟩ := release_answers ha (goneByMt mt) rfl
    rw [goneByMt_taken] at hans
    rw [goneByMt_left] at hp
    exact ⟨_, exec_mireRelease_mt ha hm, hans, hp, hrest⟩
  · have he' : s.sto.targets.all (fun e => !e.2.fitted || e.2.blocks == 0) = false := by
      rw [List.all_eq_not_any_not, Bool.not_eq_false', ← he]
      simp only [Bool.not_or, Bool.not_not, bne]
    exact ⟨_, exec_mireFormat_begins ha hst h0 hr hf he', formatStarts_changes⟩
  · obtain ⟨hans, hsto, -⟩ := sto_answered (u := s.formatsAnew r) (a := ⟨stOk, 0, [], [], false⟩) ha
      (spares_sto (by decide)) rfl
    refine ⟨_, exec_mireFormat_done ha hst h0 hr hf he hn, hans, ?_, ?_, ?_, ?_, formatsAnew_kept⟩ <;>
      rw [hsto] <;> rfl
  · have hn : ¬ (((s.take r).targetAt (8 * channel + target)).retired ||
        !((s.take r).targetAt (8 * channel + target)).fitted) = true := by
      rw [show (s.take r).targetAt (8 * channel + target) = s.targetAt (8 * channel + target) from rfl, hf, hr]
      decide
    obtain ⟨hans, ⟨_, _, _, _, hsto⟩, hk⟩ := retire_answers ha (8 * channel + target) rfl
    rw [retire_sto, if_neg hn] at hsto
    have hrep := retired_repairs s.sto (8 * channel + target)
    obtain ⟨f, hpages⟩ := hrep.pages
    refine ⟨hans, ?_, fun k hk => ?_, ?_, ?_, ?_, ?_, fun hready => ?_, hk⟩
    · rw [targetAt_eq, hsto]
      exact retired_target s.sto _
    · rw [targetAt_eq, hsto]
      exact hrep.others k hk
    · rw [hsto]
      exact (congrArg Sto.log hrep.rest :)
    · rw [hsto]
      exact (congrArg (List.map (fun p : Page => (p.id, p.pkts))) hpages).trans (List.map_map ..)
    · rw [hsto]
      exact retired_ops s.sto _
    · rw [hsto]
      exact retired_flag s.sto _ _
    · rw [hsto]
      exact retired_state hready
  · obtain ⟨hans, ⟨_, _, _, _, hsto⟩, hk⟩ := retire_answers ha (8 * channel + target) rfl
    have hr' : ((s.take r).targetAt (8 * channel + target)).retired = true := hr
    rw [retire_sto, hr', Bool.true_or, if_pos rfl] at hsto
    refine ⟨hans, ?_, ?_, ?_, hk⟩ <;> rw [hsto] <;> rfl

end Sys2Proof.Machine

/-! SUPPORT. The drains' reports (R502 to R504, R511, R515 to R520): what each step's work leaves of the store. -/

namespace Sys2Proof.Machine

section
variable {s t u : State} {l : List Piece} {n k channel target block : Nat} {o : NandOp} {p x : Page} {pass : Bool}

/-! ### Starting (R502, R503) -/

/-- The transfer a class 0 page pauses (R503). -/
def Sto.transfer (x : Sto) (channel : Nat) : Option NandOp :=
  x.ops.find? (fun o => o.running && !o.paused && o.target / 8 == channel && decide (1 ≤ o.prio) && o.kind != .erase)

theorem pauseFor_spares (hs : .sto ∈ l) (s : State) (channel : Nat) : Spares l s (s.pauseFor channel) := by
  unfold State.pauseFor
  split
  · exact .refl
  · exact (spares_sto hs).trans (spares_sto hs)

theorem pauseFor_sto (s : State) (channel : Nat) :
    (s.pauseFor channel).sto.ops =
      s.sto.ops.map (fun o => if s.sto.transfer channel = some o then { o with paused := true } else o) ∧
    (s.pauseFor channel).sto.preempt =
      (if (s.sto.transfer channel).isSome then bump s.sto.preempt else s.sto.preempt) ∧
    { (s.pauseFor channel).sto with
      ops := s.sto.ops, pages := s.sto.pages, preempt := s.sto.preempt, flags := s.sto.flags } = s.sto := by
  unfold State.pauseFor
  cases hv : s.sto.transfer channel with
  | none =>
    rw [Sto.transfer] at hv
    simp only [hv]
    simp
  | some v =>
    rw [Sto.transfer] at hv
    simp only [hv, Option.some.injEq, Option.isSome_some, if_true]
    refine ⟨List.map_congr_left fun o _ => ?_, rfl, rfl⟩
    exact if_congr eq_comm rfl rfl

/-- The state as a channel starts something of a class: a class 0 page pauses a transfer, and the start counts
towards the share of classes 2 and 3 (R502, R503). -/
def State.begins (s : State) (channel cls : Nat) : State :=
  (if cls = 0 then s.pauseFor channel else s).countStart channel cls

theorem begins_spares (hs : .sto ∈ l) (s : State) (channel cls : Nat) : Spares l s (s.begins channel cls) :=
  (Spares.ite (pauseFor_spares hs s channel) .refl).trans (spares_sto hs)

theorem begins_of_ne {cls : Nat} (h : cls ≠ 0) : s.begins channel cls = s.countStart channel cls := by
  rw [State.begins, if_neg h]

theorem begins_zero : s.begins channel 0 = (s.pauseFor channel).countStart channel 0 := rfl

/-- The state as an operation starts. -/
def State.runs (s : State) (o : NandOp) : State :=
  { s with sto := { s.sto with ops := s.sto.ops.map (fun x => if x = o then { x with running := true } else x) } }

theorem exec_nandOpStart_op (ht : s.translates = true) (hd : tget 0 s.sto.drainReset channel ≤ s.clk)
    (hc : s.choose channel = some (.op o)) : exec (.nandOpStart channel) s =
      .next (State.done s ((s.begins channel o.prio).runs o)) := by
  show execNandOpStart channel s = _
  rw [execNandOpStart, if_pos (by simp [ht, hd]), hc]
  rfl

theorem exec_nandOpStart_page (ht : s.translates = true) (hd : tget 0 s.sto.drainReset channel ≤ s.clk)
    (hc : s.choose channel = some (.page p n)) : exec (.nandOpStart channel) s =
      .next (State.done s (((s.begins channel (p.class (s.sto.state == .commit))).startPage p n).stoWatch)) := by
  show execNandOpStart channel s = _
  rw [execNandOpStart, if_pos (by simp [ht, hd]), hc]
  rfl

theorem startPage_spares (hs : .sto ∈ l) (s : State) (p : Page) (n : Nat) : Spares l s (s.startPage p n) :=
  (spares_sto hs).trans (spares_sto hs)

theorem class_ne_zero (h : p.prio ≠ 0) (commit : Bool) : p.class commit ≠ 0 := by
  rw [Page.class]
  split
  · decide
  · exact h

theorem class_zero (h : p.prio = 0) (commit : Bool) : p.class commit = 0 := by
  rw [Page.class, h]
  simp

/-! ### The report of a program (R515, R516) -/

/-- The state once a target's operation has ended: paused transfers of its channel go on. -/
def State.reported (s : State) (target : Nat) : State :=
  { s with sto := (s.sto.endOp target).resume (target / 8) }

theorem reported_running : (s.reported target).sto.running target = none := resume_running _ endOp_running

theorem exec_programStatus (hd : s.rst.dataUp = true) (hc : target ∉ s.sto.cutOps)
    (hr : s.sto.running target = some o) (hk : o.kind = .program)
    (hp : s.sto.pages.find? (fun x => x.id == o.obj) = some p) : exec (.programStatus target pass) s =
      .next (State.done s ((if pass then (s.reported target).confirmPage p.id
        else (s.reported target).programFailed p).stoWatch)) := by
  show execProgramStatus target pass s = _
  rw [execProgramStatus, if_neg (by simpa using hc), hr]
  simp only [hk, hd, hp]
  rfl

/-- A page of a channel that is paused goes on. -/
def Page.resumed (channel : Nat) (p : Page) : Page :=
  if p.state = .paused ∧ p.target / 8 = channel then { p with state := .programming } else p

theorem resumed_fields (channel : Nat) (p : Page) : (p.resumed channel).id = p.id ∧
    (p.resumed channel).logSeq = p.logSeq ∧ (p.resumed channel).target = p.target ∧ (p.resumed channel).block = p.block ∧
    { p.resumed channel with state := .confirmed } = { p with state := .confirmed } := by
  unfold Page.resumed
  split <;> exact ⟨rfl, rfl, rfl, rfl, rfl⟩

theorem reported_find (hp : s.sto.pages.find? (fun x => x.id == o.obj) = some p) :
    (s.reported target).sto.pages.find? (fun x => x.id == p.id) = some (p.resumed (target / 8)) := by
  have hid : p.id = o.obj := by simpa using List.find?_some hp
  show (s.sto.pages.map (Page.resumed (target / 8))).find? (fun x => x.id == p.id) = _
  rw [List.find?_map]
  have hf : (fun x : Page => x.id == p.id) ∘ Page.resumed (target / 8) = fun x => x.id == o.obj := by
    funext x
    rw [Function.comp_apply, (resumed_fields _ x).1, hid]
  rw [hf, hp]
  rfl

/-- The state once a page is confirmed, its buffers still held (R515). -/
def State.confirms (s : State) (id : Nat) (p : Page) : State :=
  { s with sto := { s.sto with
      pages := s.sto.pages.map (fun (x : Page) => if x.id = id then { p with state := PageState.confirmed } else x)
      log := s.sto.log ++ [{ p with state := PageState.confirmed }]
      confirmedSeq := p.logSeq
      sinceCkpt := s.sto.sinceCkpt + 1
      ckptDue := s.sto.ckptDue || 65536 ≤ s.sto.sinceCkpt + 1 } }

theorem confirmPage_found {id : Nat} (h : s.sto.pages.find? (fun x => x.id == id) = some p) :
    s.confirmPage id = (s.confirms id p).releaseBuffers p.target p.block := by
  rw [State.confirmPage, h]
  rfl

theorem releaseBuffers_rest (s : State) (n block : Nat) :
    { (s.releaseBuffers n block).sto with pages := s.sto.pages } = s.sto := rfl

theorem mem_releaseBuffers (hx : x ∈ s.sto.pages) (hne : ¬ (x.target = n ∧ x.block = block)) :
    x ∈ (s.releaseBuffers n block).sto.pages := by
  refine List.mem_filter.mpr ⟨hx, ?_⟩
  rw [Bool.not_eq_true', Bool.and_eq_false_iff, Bool.and_eq_false_iff]
  exact .inl (.inl (by simpa [Decidable.not_and_iff_or_not] using hne))

theorem confirmPage_spares (hs : .sto ∈ l) (s : State) (id : Nat) : Spares l s (s.confirmPage id) := by
  unfold State.confirmPage
  split
  · exact .refl
  · exact (spares_sto hs).trans (spares_sto hs)

/-- A page of the block of a failed program goes again from staging if it is the page itself or was held (Table 19.6). -/
def Page.failed (p x : Page) : Page :=
  if x.target = p.target ∧ x.block = p.block ∧ (x.id = p.id ∨ x.state = .confirmed) then { x with state := .queued } else x

/-- The store once a program has failed, before its block's other pages are relocated (R516, R518). -/
def Sto.failing (y : Sto) (p : Page) : Sto :=
  { y with
    pages := y.pages.map p.failed
    log := y.log.filter (fun x => !((y.pages.filter (fun x => x.target == p.target && x.block == p.block &&
      x.state == .confirmed)).map (fun x => x.logical)).contains x.logical)
    progFail := bump y.progFail
    flags := y.flags ||| 1#32
    targets := tput y.targets p.target { y.target p.target with
      bad := insAsc (y.target p.target).bad p.block, grown := (y.target p.target).grown + 1 }
    badBlk := bump y.badBlk }

theorem programFailed_repairs (s : State) (p : Page) :
    (s.sto.failing p).Repairs p.target (s.programFailed p).sto := by
  unfold State.programFailed
  extract_lets again held x t1 t2 t3
  have h2 : t2.sto = s.sto.failing p := by
    simp only [t2, growBad_sto, targetAt_eq, raise_sto]
    rfl
  have h3 : (s.sto.failing p).Repairs p.target t3.sto := by
    rw [← h2]
    exact relocate_repairs _ _ _
  refine h3.trans ?_
  split
  · exact retire_repairs _ _
  · exact .refl

theorem programFailed_spares (hs : .sto ∈ l) (s : State) (p : Page) : Spares l s (s.programFailed p) := by
  unfold State.programFailed
  extract_lets again held x t1 t2 t3
  have h2 : Spares l s t2 := (((spares_sto hs : Spares l s t1).trans (spares_sto hs)).trans
    (.of_quiet (raise_quiet _ _))).trans (growBad_spares hs _ _)
  exact (h2.trans (relocate_spares hs _ _)).trans (.ite (retire_spares hs _ _) .refl)

/-- After a failed program only its own page can still be confirmed in its block. -/
theorem failing_confirmed {y : Sto} (hx : x ∈ (y.failing p).pages) (ht : x.target = p.target) (hb : x.block = p.block) :
    x.id = p.id ∨ x.state ≠ .confirmed := by
  obtain ⟨q, -, rfl⟩ := List.mem_map.mp hx
  unfold Page.failed at ht hb ⊢
  split
  next => exact .inr (fun h => PageState.noConfusion h)
  next h =>
    rw [if_neg h] at ht hb
    exact .inr fun hc => h ⟨ht, hb, .inr hc⟩

/-! ### The report of an erase (R513, R516) -/

/-- The state once an erase has failed: the block is grown bad, a worn target retired (R516, R518, R519). -/
def State.eraseFails (s : State) (n block : Nat) : State :=
  let t : State := { s with sto := { s.sto with eraseFail := bump s.sto.eraseFail } }
  let t := (t.stoFlag 2#32).growBad n block
  if (t.targetAt n).worn then t.retire n else t

/-- The store once a failed erase is counted. -/
def Sto.unerased (x : Sto) (n block : Nat) : Sto :=
  { x with
    eraseFail := bump x.eraseFail
    flags := x.flags ||| 2#32
    targets := tput x.targets n { x.target n with bad := insAsc (x.target n).bad block, grown := (x.target n).grown + 1 }
    badBlk := bump x.badBlk }

theorem eraseFails_repairs (s : State) (n block : Nat) : (s.sto.unerased n block).Repairs n (s.eraseFails n block).sto := by
  unfold State.eraseFails
  extract_lets x t1 t2
  have h2 : t2.sto = s.sto.unerased n block := rfl
  rw [← h2]
  split
  · exact retire_repairs _ _
  · exact .refl

theorem eraseFails_spares (hs : .sto ∈ l) (s : State) (n block : Nat) : Spares l s (s.eraseFails n block) := by
  unfold State.eraseFails
  extract_lets x t1 t2
  have h2 : Spares l s t2 := ((spares_sto hs : Spares l s t1).trans (spares_sto hs)).trans (growBad_spares hs _ _)
  exact h2.trans (.ite (retire_spares hs _ _) .refl)

/-- The state without the running operation of a target. -/
def State.ended (s : State) (target : Nat) : State := { s with sto := s.sto.endOp target }

theorem exec_eraseStatus (hd : s.rst.dataUp = true) (hf : s.sto.state ≠ .formatting)
    (hr : s.sto.running target = some o) (hk : o.kind = .erase) : exec (.eraseStatus target pass) s =
      .next (State.done s (if pass then ((s.ended target).blockErased target o.obj).stoWatch
        else ((s.ended target).eraseFails target o.obj).stoWatch)) := by
  show execEraseStatus target pass s = _
  rw [execEraseStatus, if_neg (by simp [hf]), hr]
  simp only [hk, hd]
  rfl

theorem blockErased_spares (hs : .sto ∈ l) (s : State) (n block : Nat) : Spares l s (s.blockErased n block) :=
  (spares_sto hs).trans (spares_sto hs)

theorem exec_eraseStatus_format (hf : s.sto.state = .formatting) (ht : (s.targetAt target).fitted = true)
    (hb : (s.targetAt target).fmtNext < (s.targetAt target).blocks) : exec (.eraseStatus target pass) s =
      .next (State.done s (s.modTarget target (fun t => t.formatBlock pass)).formatDone.stoWatch) := by
  show execEraseStatus target pass s = _
  rw [execEraseStatus, if_pos (by simp [hf, ht, hb])]
  rfl

theorem modTarget_spares (hs : .sto ∈ l) (n : Nat) (f : Target → Target) : Spares l s (s.modTarget n f) := spares_sto hs

/-! ### A page read (R509, R514, R516, R517) -/

theorem bumpBy_zero {w : Nat} (c : BitVec w) : bumpBy c 0 = c := by
  rw [bumpBy, Nat.add_zero, if_pos c.isLt, BitVec.ofNat_toNat, BitVec.setWidth_eq]

/-- The store without what a loss changes. -/
def Sto.sansLosses (x : Sto) : Sto := { x with lostCnt := 0, lostPkts := [], flags := 0 }

/-- Reporting packets lost changes queue records and, of the store, the loss count, the packets known lost and flags. -/
theorem reportStorageLoss_changes (hq : .que ∈ l) (hs : .sto ∈ l) (s : State) (era : Word) (ps : List Packet) :
    Spares l s (s.reportStorageLoss era ps) ∧ (s.reportStorageLoss era ps).sto.sansLosses = s.sto.sansLosses := by
  unfold State.reportStorageLoss
  extract_lets qids t0 x t1
  have h0 : Spares [.que] s t0 := .foldl (fun t q => .foldl (fun t r =>
    (queueEvent_spares _ (by decide) _ _).trans (.of_quiet (raise_quiet _ _))) _ _) _ _
  have hsto : t0.sto = s.sto := h0.parts .sto (by decide)
  have h1 : Spares l s t1 := (h0.mono (by simp [hq])).trans (spares_sto hs)
  refine ⟨h1.trans (.ite .refl (spares_sto hs)), ?_⟩
  rw [apply_ite State.sto, apply_ite Sto.sansLosses]
  have ht : t1.sto.sansLosses = t0.sto.sansLosses := rfl
  exact (ite_self _).trans (ht.trans (congrArg Sto.sansLosses hsto))

/-- Nothing lost, nothing changed. -/
theorem reportStorageLoss_nil (s : State) (era : Word) : s.reportStorageLoss era [] = s := by
  unfold State.reportStorageLoss
  simp only [List.foldl_nil, List.length_nil, bumpBy_zero, List.map_nil, List.append_nil, List.isEmpty_nil, if_true]

/-- The packets of a page that a read could not decode, by position. -/
def Page.undecoded (p : Page) (lost : List Nat) : List Packet :=
  (List.range p.pkts.length).filterMap (fun i => if lost.contains i then p.pkts[i]? else none)

theorem undecoded_nil {lost : List Nat} (h : lost.all (fun i => decide (p.pkts.length ≤ i)) = true) :
    p.undecoded lost = [] := by
  refine List.filterMap_eq_nil_iff.mpr fun i hi => ?_
  have hlt := List.mem_range.mp hi
  rw [if_neg fun hc => ?_]
  have := List.all_eq_true.mp h i (by simpa using hc)
  simp at this
  omega

/-- The state once a page read is decoded: the reads know the page (R521). -/
def State.decoded (s : State) (target corrected : Nat) (p : Page) (lost : List Nat) : State :=
  { s with sto := { (s.sto.endOp target).resume (target / 8) with
    rdCorr := bumpBy s.sto.rdCorr corrected
    log := s.sto.log.map (fun (x : Page) =>
      if x.logical = p.logical then { x with pkts := p.pkts.filter (fun k => !(p.undecoded lost).contains k) } else x)
    reads := s.sto.reads.map (fun (m : MireRead) => { m with loaded := insAsc m.loaded p.logical }) } }

/-- A weak block is grown bad and what lives in it relocated; a worn target is retired (R516, R518, R519). -/
def State.weakens (s : State) (n block : Nat) : State :=
  let t := (s.growBad n block).relocate n block
  if (t.targetAt n).worn then t.retire n else t

theorem weakens_spares (hs : .sto ∈ l) (s : State) (n block : Nat) : Spares l s (s.weakens n block) :=
  ((growBad_spares hs _ _).trans (relocate_spares hs _ _)).trans (.ite (retire_spares hs _ _) .refl)

theorem weakens_repairs (s : State) (n block : Nat) : (s.growBad n block).sto.Repairs n (s.weakens n block).sto := by
  unfold State.weakens
  extract_lets t
  refine (relocate_repairs (s.growBad n block) n block).trans ?_
  split
  · exact retire_repairs _ _
  · exact .refl

theorem exec_nandReadDone {corrected : Nat} {weak : Bool} {lost : List Nat} (hd : s.rst.dataUp = true)
    (hr : s.sto.running target = some o) (hk : o.kind = .read ∧ o.prio ≠ 3)
    (hp : s.sto.log.find? (fun x => x.logical == o.obj) = some p) : exec (.nandReadDone target corrected weak lost) s =
      .next (State.done s (if weak
        then (((s.decoded target corrected p lost).reportStorageLoss p.mtEra (p.undecoded lost)).weakens target p.block).stoWatch
        else ((s.decoded target corrected p lost).reportStorageLoss p.mtEra (p.undecoded lost)).stoWatch)) := by
  obtain ⟨hk, h3⟩ := hk
  show execNandReadDone target corrected weak lost s = _
  rw [execNandReadDone, hr]
  simp only [hk, hd, hp, if_neg h3]
  cases weak <;> rfl

/-! ### Timeouts and drain faults (R143, R504, R516, R519) -/

/-- The state once a target has timed out: what its channel did is taken back, and the channel is reset. -/
def State.timesOut (s : State) (target : Nat) : State :=
  let t := (List.range 8).foldl (fun t i => t.requeue (8 * (target / 8) + i)) s
  let t := t.modTarget target (fun x =>
    { x with timeouts := s.clk :: x.timeouts.filter (fun c => s.clk - c ≤ clocksPerHour) })
  let t := { t with sto := { t.sto with
    timeoutCnt := bump t.sto.timeoutCnt
    chanReset := insAsc t.sto.chanReset target } }
  t.stoFlag 4#32

/-- The store once a time-out is counted. -/
def Sto.timedOut (x : Sto) (n clk : Nat) : Sto :=
  { x with
    targets := tput x.targets n { x.target n with
      timeouts := clk :: (x.target n).timeouts.filter (fun c => clk - c ≤ clocksPerHour) }
    timeoutCnt := bump x.timeoutCnt
    chanReset := insAsc x.chanReset n
    flags := x.flags ||| 4#32 }

theorem timesOut_sto (s : State) (n : Nat) :
    (s.timesOut n).sto = (s.requeues (List.range 8) (8 * (n / 8))).sto.timedOut n s.clk := by
  unfold State.timesOut State.requeues
  generalize (List.range 8).foldl (fun t i => t.requeue (8 * (n / 8) + i)) s = t
  rfl

theorem exec_targetTimeout (hd : s.rst.dataUp = true) (hr : (s.sto.running target).isSome = true) :
    exec (.targetTimeout target) s = .next (State.done s
      (if 3 ≤ ((s.timesOut target).targetAt target).timeouts.length then (s.timesOut target).retire target
        else s.timesOut target).stoWatch) := by
  show execTargetTimeout target s = _
  rw [execTargetTimeout, if_pos (by simp [hd, hr])]
  rfl

theorem timesOut_spares (hs : .sto ∈ l) (s : State) (n : Nat) : Spares l s (s.timesOut n) := by
  unfold State.timesOut
  extract_lets t0 t1 x t2
  have h0 : Spares l s t0 := requeues_spares hs (List.range 8) (8 * (n / 8))
  have h1 : Spares l t0 t1 := modTarget_spares hs n _
  have h2 : Spares l t1 t2 := spares_sto hs
  exact ((h0.trans h1).trans h2).trans (spares_sto hs)

/-- The state once a channel reset is over. -/
def State.resetEnds (s : State) (target : Nat) : State :=
  { s with sto := { s.sto with chanReset := s.sto.chanReset.filter (· != target) } }

theorem exec_channelResetEnd {ready : Bool} (h : target ∈ s.sto.chanReset) : exec (.channelResetEnd target ready) s =
    .next (State.done s (if ready then s.resetEnds target else (s.resetEnds target).retire target).stoWatch) := by
  show execChannelResetEnd target ready s = _
  rw [execChannelResetEnd, if_pos (by simpa using h)]
  rfl

/-- The state once a drain's fault is counted: its reset ends after 2 µs. -/
def State.drainFaults (s : State) (drain : Nat) : State :=
  { s with sto := { s.sto with
    drainRst := bump s.sto.drainRst
    drainReset := tput s.sto.drainReset drain (s.clk + drainResetClocks) } }

theorem exec_drainFault {drain : Nat} (hd : s.rst.dataUp = true) (h : drain < 16) : exec (.drainFault drain) s =
    .next (State.done s (if drain < 4 then (s.drainFaults drain).requeues (List.range 8) (8 * drain)
      else s.drainFaults drain)) := by
  show execDrainFault drain s = _
  rw [execDrainFault, if_pos (by simp [hd, h])]
  rfl

end

end Sys2Proof.Machine

/-! The drains' reports (Table 19.6; R502 to R504, R506, R511, R515 to R520). -/

namespace Sys2Proof.Machine

section
variable {s t u : State} {n k channel target block : Nat} {o : NandOp} {p x : Page} {pass : Bool}

/-! ### Pages closed and operations started -/

theorem closePage_sto (h : s.sto.pages.any (fun p => p.id == n && p.state == .opened) = true) : (s.closePage n).sto =
    { s.sto with
      pages := s.sto.pages.map (fun p => if p.id = n ∧ p.state = .opened then
        { p with state := .queued, logSeq := s.sto.logSeq, logical := s.sto.nextLogical, mtEra := s.peat.era, mt := s.mt.mt }
        else p)
      logSeq := s.sto.logSeq + 1#32
      nextLogical := (s.sto.nextLogical + 1) % 2 ^ 24 } := by
  rw [State.closePage, if_pos h]

theorem exec_pageBufferClose (hd : s.rst.dataUp = true) :
    exec (.pageBufferClose n) s = .next (State.done s (s.closePage n).stoWatch) := by
  show execPageBufferClose n s = _
  rw [execPageBufferClose, if_pos hd]
  rfl

theorem startPage_sto (s : State) (p : Page) (n : Nat) : (s.startPage p n).sto = { s.sto with
    targets := tput s.sto.targets n { (s.targetAt n).advance with written := (s.targetAt n).advance.written + 1 }
    robin := s.sto.robin + 1
    pages := s.sto.pages.map (fun (x : Page) =>
      if x.id = p.id then { x with state := .programming, target := n, block := (s.targetAt n).advance.block } else x)
    ops := s.sto.ops ++ [⟨.program, p.class (s.sto.state == .commit), n, p.id, true, false⟩] } := rfl

/-- The store once a page has been given to a target, its watch included. -/
theorem startPage_target (s : State) (p : Page) (n : Nat) :
    (s.startPage p n).sto.target n =
      { (s.targetAt n).advance with written := (s.targetAt n).advance.written + 1 } ∧
    ∀ k, k ≠ n → (s.startPage p n).sto.target k = s.targetAt k :=
  ⟨tget_tput_self, fun _ hk => tget_tput_other hk⟩

/-- A page of class 1 to 3 starts. -/
theorem page_starts (hp : p.prio ≠ 0) {v : State}
    (hv : v = State.done s (((s.begins channel (p.class (s.sto.state == .commit))).startPage p n).stoWatch)) :
    v.sto.pages = s.sto.pages.map (fun x => if x.id = p.id then
        { x with state := .programming, target := n, block := (s.targetAt n).advance.block } else x) ∧
      v.sto.ops = s.sto.ops ++ [⟨.program, p.class (s.sto.state == .commit), n, p.id, true, false⟩] ∧
      v.targetAt n = { (s.targetAt n).advance with written := (s.targetAt n).advance.written + 1 } ∧
      (∀ k, k ≠ n → v.targetAt k = s.targetAt k) ∧
      v.sto.preempt = s.sto.preempt ∧ v.sto.log = s.sto.log ∧ KeptBut [.sto, .peat] s v := by
  rw [begins_of_ne (class_ne_zero hp _)] at hv
  obtain ⟨_, _, _, _, hsto⟩ :=
    stoWatch_sto ((s.countStart channel (p.class (s.sto.state == .commit))).startPage p n)
  obtain ⟨hself, hothers⟩ := startPage_target (s.countStart channel (p.class (s.sto.state == .commit))) p n
  subst hv
  refine ⟨?_, ?_, ?_, fun k hk => ?_, ?_, ?_, watched_done ((spares_sto (by decide)).trans (startPage_spares (by decide) _ _ _))
    (by decide) (by decide)⟩
  · rw [done_sto, hsto]; rfl
  · rw [done_sto, hsto]; rfl
  · rw [targetAt_eq, done_sto, hsto]; exact hself
  · rw [targetAt_eq, done_sto, hsto]; exact hothers k hk
  · rw [done_sto, hsto]; rfl
  · rw [done_sto, hsto]; rfl

/-- A page of class 0 starts and pauses a transfer of the channel. -/
theorem urgentPage_starts (hp : p.prio = 0) {v : State}
    (hv : v = State.done s (((s.begins channel (p.class (s.sto.state == .commit))).startPage p n).stoWatch)) :
    (∀ x ∈ v.sto.pages, x.id = p.id → x.state = .programming ∧ x.target = n) ∧
      v.sto.preempt = (if (s.sto.transfer channel).isSome then bump s.sto.preempt else s.sto.preempt) ∧
      v.sto.ops = s.sto.ops.map (fun o => if s.sto.transfer channel = some o then { o with paused := true } else o) ++
        [⟨.program, 0, n, p.id, true, false⟩] ∧
      (∀ k, k ≠ n → v.targetAt k = s.targetAt k) ∧ v.sto.log = s.sto.log ∧ KeptBut [.sto, .peat] s v := by
  rw [class_zero hp, begins_zero] at hv
  obtain ⟨hops, hpre, hrest⟩ := pauseFor_sto s channel
  obtain ⟨_, _, _, _, hsto⟩ := stoWatch_sto (((s.pauseFor channel).countStart channel 0).startPage p n)
  obtain ⟨-, hothers⟩ := startPage_target ((s.pauseFor channel).countStart channel 0) p n
  subst hv
  refine ⟨fun x hx hid => ?_, ?_, ?_, fun k hk => ?_, ?_, watched_done (((pauseFor_spares (by decide) _ _).trans
    (spares_sto (by decide))).trans (startPage_spares (by decide) _ _ _)) (by decide) (by decide)⟩
  · rw [done_sto, hsto] at hx
    obtain ⟨q, -, rfl⟩ := List.mem_map.mp hx
    by_cases hq : q.id = p.id
    · rw [if_pos hq]
      exact ⟨rfl, rfl⟩
    · rw [if_neg hq] at hid
      exact absurd hid hq
  · rw [done_sto, hsto]; exact hpre
  · rw [done_sto, hsto, ← hops, ← class_zero hp ((s.pauseFor channel).sto.state == .commit)]
    rfl
  · rw [targetAt_eq, done_sto, hsto]
    exact (hothers k hk).trans (congrArg (fun x : Sto => x.target k) hrest :)
  · rw [done_sto, hsto, ← hrest]
    rfl

/-! ### Programs reported -/

/-- A passing program puts its page in the log (R515). -/
theorem program_passes (hp : s.sto.pages.find? (fun x => x.id == o.obj) = some p) {v : State}
    (hv : v = State.done s ((s.reported target).confirmPage p.id).stoWatch) :
    v.sto.confirmedSeq = p.logSeq ∧
      v.sto.log = s.sto.log ++ [{ p with state := .confirmed }] ∧
      v.sto.sinceCkpt = s.sto.sinceCkpt + 1 ∧
      v.sto.ckptDue = (s.sto.ckptDue || decide (65536 ≤ s.sto.sinceCkpt + 1)) ∧
      v.sto.running target = none ∧ v.sto.targets = s.sto.targets ∧
      (∀ x ∈ s.sto.pages, x.id ≠ p.id → ¬ (x.target = p.target ∧ x.block = p.block) → x.state ≠ .paused → x ∈ v.sto.pages) ∧
      KeptBut [.sto, .peat] s v := by
  have hkept : KeptBut [.sto, .peat] s v := by
    rw [hv]
    exact watched_done ((spares_sto (by decide) : Spares _ s (s.reported target)).trans
      (confirmPage_spares (by decide) _ _)) (by decide) (by decide)
  obtain ⟨hid, hseq, htgt, hblk, hconf⟩ := resumed_fields (target / 8) p
  rw [confirmPage_found (reported_find hp)] at hv
  obtain ⟨_, _, _, _, hsto⟩ := stoWatch_sto (((s.reported target).confirms p.id (p.resumed (target / 8))).releaseBuffers
    (p.resumed (target / 8)).target (p.resumed (target / 8)).block)
  have hs : v.sto = _ := (congrArg State.sto hv).trans hsto
  refine ⟨?_, ?_, ?_, ?_, ?_, ?_, fun x hx hne hblock hpaused => ?_, hkept⟩
  · rw [hs]; exact hseq
  · rw [hs]; exact congrArg (fun c => s.sto.log ++ [c]) hconf
  · rw [hs]; rfl
  · rw [hs]; rfl
  · rw [hs]; exact reported_running
  · rw [hs]; rfl
  · rw [hs]
    refine mem_releaseBuffers (List.mem_map.mpr ⟨x, List.mem_map.mpr ⟨x, hx, if_neg fun h => hpaused h.1⟩, if_neg hne⟩) ?_
    rw [htgt, hblk]
    exact hblock

/-- Of a target that an L2 reset met, the report only shows that it is ready (R142). -/
theorem exec_programStatus_cut (h : target ∈ s.sto.cutOps) : exec (.programStatus target pass) s =
    .next (State.done s { s with sto := s.sto.deselect target }) := by
  show execProgramStatus target pass s = _
  rw [execProgramStatus, if_pos (by simpa using h)]
  rfl

/-- What a failed program leaves: its page and the held pages of the block go again, the block is bad (R516, R518). -/
theorem program_fails {v : State} (hv : v = State.done s ((s.reported target).programFailed p).stoWatch) :
    v.sto.progFail = bump s.sto.progFail ∧ p.block ∈ (v.targetAt p.target).bad ∧
      (v.targetAt p.target).grown = (s.targetAt p.target).grown + 1 ∧ v.sto.badBlk = bump s.sto.badBlk ∧
      v.sto.confirmedSeq = s.sto.confirmedSeq ∧
      (∀ x ∈ v.sto.pages, x.target = p.target → x.block = p.block → x.id = p.id ∨ x.state ≠ .confirmed) ∧
      (∀ k, k ≠ p.target → v.targetAt k = s.targetAt k) ∧ KeptBut [.sto, .peat] s v := by
  have hkept : KeptBut [.sto, .peat] s v := by
    rw [hv]
    exact watched_done ((spares_sto (by decide) : Spares _ s (s.reported target)).trans
      (programFailed_spares (by decide) _ _)) (by decide) (by decide)
  have hrep : ((s.reported target).sto.failing p).Repairs p.target v.sto := by
    rw [hv, done_sto]
    exact (programFailed_repairs _ _).trans (stoWatch_repairs _ _)
  have hself : ((s.reported target).sto.failing p).target p.target = { s.targetAt p.target with
      bad := insAsc (s.targetAt p.target).bad p.block, grown := (s.targetAt p.target).grown + 1 } := tget_tput_self
  obtain ⟨f, hpages⟩ := hrep.pages
  refine ⟨(congrArg Sto.progFail hrep.rest :), ?_, ?_, (congrArg Sto.badBlk hrep.rest :),
    (congrArg Sto.confirmedSeq hrep.rest :), fun x hx ht hb => ?_, fun k hk => ?_, hkept⟩
  · rw [targetAt_eq, hrep.field Target.bad (fun _ _ _ => rfl), hself, mem_insAsc]
    exact .inl rfl
  · rw [targetAt_eq, hrep.field Target.grown (fun _ _ _ => rfl), hself]
  · rw [hpages] at hx
    obtain ⟨q, hq, rfl⟩ := List.mem_map.mp hx
    exact failing_confirmed (x := q) hq ht hb
  · rw [targetAt_eq, hrep.others k hk]
    exact tget_tput_other hk

/-! ### Erases reported and formats -/

/-- A passing erase frees its block (R514). -/
theorem erase_passes {v : State} (hv : v = State.done s ((s.ended target).blockErased target block).stoWatch) :
    v.targetAt target = { s.targetAt target with
        erases := tput (s.targetAt target).erases block (tget 0 (s.targetAt target).erases block + 1)
        used := (s.targetAt target).used.filter (fun b => b != block) } ∧
      (∀ k, k ≠ target → v.targetAt k = s.targetAt k) ∧ v.sto.running target = none ∧
      v.sto.log = s.sto.log.filter (fun p => !(p.target == target && p.block == block)) ∧
      v.sto.pages = s.sto.pages ∧ KeptBut [.sto, .peat] s v := by
  obtain ⟨_, _, _, _, hsto⟩ := stoWatch_sto ((s.ended target).blockErased target block)
  subst hv
  refine ⟨?_, fun k hk => ?_, ?_, ?_, ?_, watched_done ((spares_sto (by decide) : Spares _ s (s.ended target)).trans
    (blockErased_spares (by decide) _ _ _)) (by decide) (by decide)⟩
  · rw [targetAt_eq, done_sto, hsto]; exact tget_tput_self
  · rw [targetAt_eq, done_sto, hsto]; exact tget_tput_other hk
  · rw [done_sto, hsto]; exact endOp_running
  · rw [done_sto, hsto]; rfl
  · rw [done_sto, hsto]; rfl

/-- A failed erase counts and makes its block bad (R516, R518). -/
theorem erase_fails {v : State} (hv : v = State.done s ((s.ended target).eraseFails target block).stoWatch) :
    v.sto.eraseFail = bump s.sto.eraseFail ∧ block ∈ (v.targetAt target).bad ∧ v.sto.badBlk = bump s.sto.badBlk ∧
      (∀ k, k ≠ target → v.targetAt k = s.targetAt k) ∧ v.sto.running target = none ∧ v.sto.log = s.sto.log ∧
      KeptBut [.sto, .peat] s v := by
  have hrep : ((s.ended target).sto.unerased target block).Repairs target v.sto := by
    rw [hv, done_sto]
    exact (eraseFails_repairs _ _ _).trans (stoWatch_repairs _ _)
  have hself : ((s.ended target).sto.unerased target block).target target = { s.targetAt target with
      bad := insAsc (s.targetAt target).bad block, grown := (s.targetAt target).grown + 1 } := tget_tput_self
  refine ⟨(congrArg Sto.eraseFail hrep.rest :), ?_, (congrArg Sto.badBlk hrep.rest :), fun k hk => ?_,
    hrep.running endOp_running, (congrArg Sto.log hrep.rest :), ?_⟩
  · rw [targetAt_eq, hrep.field Target.bad (fun _ _ _ => rfl), hself, mem_insAsc]
    exact .inl rfl
  · rw [targetAt_eq, hrep.others k hk]
    exact tget_tput_other hk
  · rw [hv]
    exact watched_done ((spares_sto (by decide) : Spares _ s (s.ended target)).trans
      (eraseFails_spares (by decide) _ _ _)) (by decide) (by decide)

/-- A block of a format is erased while others are left (R513). -/
theorem format_goesOn (hs : s.sto.state = .formatting)
    (he : allErased (tput s.sto.targets target ((s.targetAt target).formatBlock pass)) = false) {v : State}
    (hv : v = State.done s (s.modTarget target (fun t => t.formatBlock pass)).formatDone.stoWatch) :
    v.targetAt target = (s.targetAt target).formatBlock pass ∧ (∀ k, k ≠ target → v.targetAt k = s.targetAt k) ∧
      v.sto.state = .formatting ∧ v.sto.log = s.sto.log ∧ KeptBut [.sto, .peat] s v := by
  rw [formatDone_left he] at hv
  obtain ⟨_, _, _, _, hsto⟩ := stoWatch_sto (s.modTarget target (fun t => t.formatBlock pass))
  subst hv
  refine ⟨?_, fun k hk => ?_, ?_, ?_, watched_done (modTarget_spares (by decide) _ _) (by decide) (by decide)⟩
  · rw [targetAt_eq, done_sto, hsto]; exact tget_tput_self
  · rw [targetAt_eq, done_sto, hsto]; exact tget_tput_other hk
  · rw [done_sto, hsto]; exact hs
  · rw [done_sto, hsto]; rfl

/-- The state once the last block of a format is erased, before its command is answered. -/
def State.formatsLast (s : State) (target : Nat) (pass : Bool) : State :=
  { s with sto := (s.modTarget target (fun t => t.formatBlock pass)).sto.formattedAnew }

/-- The last block of a format ends it, and MIRE_FORMAT is answered (R513). -/
theorem format_ends {out : Outstanding} (hs : s.sto.state = .formatting)
    (he : allErased (tput s.sto.targets target ((s.targetAt target).formatBlock pass)) = true)
    (ho : s.host.outst.find? (fun x => x.opcode == 0x0804) = some out) {v : State}
    (hv : v = State.done s (s.modTarget target (fun t => t.formatBlock pass)).formatDone.stoWatch) :
    Completed s v out ⟨stOk, 0, [], [], false⟩ ∧
      v.host.outst = dropFirst (fun x => x.opcode == 0x0804) s.host.outst ∧ v.host.fetched = s.host.fetched ∧
      v.sto.state = .ready ∧ v.sto.formatted = true ∧ v.sto.own = true ∧ v.sto.log = [] ∧ v.sto.lostPkts = [] ∧
      KeptBut [.sto, .peat, .mbx, .requests, .window] s v := by
  have hd : (s.modTarget target (fun t => t.formatBlock pass)).formatDone =
      (s.formatsLast target pass).complete (fun o => o.opcode == 0x0804) ⟨stOk, 0, [], [], false⟩ := formatDone_all hs he
  rw [hd] at hv
  have hu : Spares [.sto, .peat] s (s.formatsLast target pass) := spares_sto (by decide)
  have hw : Spares [.sto, .peat]
      ((s.formatsLast target pass).complete (fun o => o.opcode == 0x0804) ⟨stOk, 0, [], [], false⟩) _ :=
    stoWatch_spares _ (by decide) (by decide)
  have hc : Spares [.mbx, .requests, .window] (s.formatsLast target pass)
      ((s.formatsLast target pass).complete (fun o => o.opcode == 0x0804) ⟨stOk, 0, [], [], false⟩) :=
    complete_spares (by decide) (by decide) (by decide) _ _
  obtain ⟨hans, hout, hfet⟩ := completes_then hu (by decide) rfl ho hw
  obtain ⟨_, _, _, _, hsto⟩ := stoWatch_sto
    ((s.formatsLast target pass).complete (fun o => o.opcode == 0x0804) ⟨stOk, 0, [], [], false⟩)
  have hformat : ((s.formatsLast target pass).complete (fun o => o.opcode == 0x0804) ⟨stOk, 0, [], [], false⟩).sto =
      (s.formatsLast target pass).sto := hc.parts .sto (by decide)
  subst hv
  refine ⟨hans, hout, hfet, ?_, ?_, ?_, ?_, ?_,
    ((hu.mono (by decide)).trans ((hc.mono (by decide)).trans (hw.mono (by decide)))).done⟩ <;>
    rw [done_sto, hsto, hformat] <;> rfl

/-! ### Page reads -/

/-- A good read makes its page known to the reads (R509, R521). -/
theorem read_decodes {corrected : Nat} {lost : List Nat} (hl : lost.all (fun i => decide (p.pkts.length ≤ i)) = true)
    {v : State} (hv : v = State.done s
      ((s.decoded target corrected p lost).reportStorageLoss p.mtEra (p.undecoded lost)).stoWatch) :
    v.sto.rdCorr = bumpBy s.sto.rdCorr corrected ∧
      v.sto.reads = s.sto.reads.map (fun m => { m with loaded := insAsc m.loaded p.logical }) ∧
      v.sto.running target = none ∧ v.sto.lostCnt = s.sto.lostCnt ∧ v.sto.targets = s.sto.targets ∧
      v.sto.log.map (fun x => (x.id, x.logical)) = s.sto.log.map (fun x => (x.id, x.logical)) ∧
      KeptBut [.sto, .peat] s v := by
  rw [undecoded_nil hl, reportStorageLoss_nil] at hv
  obtain ⟨_, _, _, _, hsto⟩ := stoWatch_sto (s.decoded target corrected p lost)
  subst hv
  refine ⟨?_, ?_, ?_, ?_, ?_, ?_, watched_done (spares_sto (by decide)) (by decide) (by decide)⟩
  · rw [done_sto, hsto]; rfl
  · rw [done_sto, hsto]; rfl
  · rw [done_sto, hsto]; exact resume_running _ endOp_running
  · rw [done_sto, hsto]; rfl
  · rw [done_sto, hsto]; rfl
  · rw [done_sto, hsto]
    refine (List.map_map ..).trans (List.map_congr_left fun x _ => ?_)
    rw [Function.comp_apply]
    split <;> rfl

/-- A weak read makes its block bad as well (R516). -/
theorem read_weakens {corrected : Nat} {lost : List Nat} {v : State} (hv : v = State.done s
      (((s.decoded target corrected p lost).reportStorageLoss p.mtEra (p.undecoded lost)).weakens target p.block).stoWatch) :
    v.sto.rdCorr = bumpBy s.sto.rdCorr corrected ∧ p.block ∈ (v.targetAt target).bad ∧
      v.sto.badBlk = bump s.sto.badBlk ∧
      v.sto.reads = s.sto.reads.map (fun m => { m with loaded := insAsc m.loaded p.logical }) ∧
      v.sto.running target = none ∧ KeptBut [.sto, .peat, .que] s v := by
  obtain ⟨hloss, hleft⟩ := reportStorageLoss_changes (l := [.sto, .peat, .que]) (by decide) (by decide)
    (s.decoded target corrected p lost) p.mtEra (p.undecoded lost)
  have hkept : KeptBut [.sto, .peat, .que] s v := by
    rw [hv]
    exact watched_done (((spares_sto (by decide) : Spares _ s (s.decoded target corrected p lost)).trans hloss).trans
      (weakens_spares (by decide) _ _ _)) (by decide) (by decide)
  generalize hw : (s.decoded target corrected p lost).reportStorageLoss p.mtEra (p.undecoded lost) = w at hv hleft
  have hrep : (w.growBad target p.block).sto.Repairs target v.sto := by
    rw [hv, done_sto]
    exact (weakens_repairs _ _ _).trans (stoWatch_repairs _ _)
  have hidle : (w.growBad target p.block).sto.running target = none := by
    have hops : w.sto.ops = _ := (congrArg Sto.ops hleft :)
    rw [running_eq_none]
    show ∀ o ∈ w.sto.ops, _
    rw [hops]
    exact running_eq_none.mp (resume_running _ endOp_running)
  refine ⟨?_, ?_, ?_, ?_, hrep.running hidle, hkept⟩
  · exact (congrArg Sto.rdCorr hrep.rest :).trans (congrArg Sto.rdCorr hleft :)
  · rw [targetAt_eq, hrep.field Target.bad (fun _ _ _ => rfl), growBad_target_self, mem_insAsc]
    exact .inl rfl
  · exact (congrArg Sto.badBlk hrep.rest :).trans (congrArg (fun x : Sto => bump x.badBlk) hleft :)
  · exact (congrArg Sto.reads hrep.rest :).trans (congrArg Sto.reads hleft :)

/-! ### Timeouts, channel resets and drain faults -/

theorem timedOut_running (y : Sto) (n clk k : Nat) : (y.timedOut n clk).running k = y.running k := rfl

theorem timedOut_pages (y : Sto) (n clk : Nat) : (y.timedOut n clk).pages = y.pages := rfl

/-- A time-out counts, takes back what its channel did and resets it; the third in an hour retires the target. -/
theorem target_timesOut {v : State} (hv : v = State.done s
      (if 3 ≤ ((s.timesOut target).targetAt target).timeouts.length then (s.timesOut target).retire target
        else s.timesOut target).stoWatch) :
    v.sto.timeoutCnt = bump s.sto.timeoutCnt ∧ v.sto.chanReset = insAsc s.sto.chanReset target ∧
      (∀ i, i < 8 → v.sto.running (8 * (target / 8) + i) = none) ∧
      (∀ p ∈ v.sto.pages, p.target / 8 = target / 8 → p.state ≠ .programming ∧ p.state ≠ .paused) ∧
      (v.targetAt target).timeouts =
        s.clk :: (s.targetAt target).timeouts.filter (fun c => decide (s.clk - c ≤ clocksPerHour)) ∧
      ((s.targetAt target).fitted = true → 3 ≤ (v.targetAt target).timeouts.length → (v.targetAt target).retired = true) ∧
      (∀ k, k ≠ target → v.targetAt k = s.targetAt k) ∧ v.sto.log = s.sto.log ∧ KeptBut [.sto, .peat] s v := by
  have hkept : KeptBut [.sto, .peat] s v := by
    rw [hv]
    exact watched_done ((timesOut_spares (by decide) s target).trans (.ite (retire_spares (by decide) _ _) .refl))
      (by decide) (by decide)
  have hrep : ((s.requeues (List.range 8) (8 * (target / 8))).sto.timedOut target s.clk).Repairs target v.sto := by
    rw [hv, done_sto, ← timesOut_sto]
    refine Sto.Repairs.trans ?_ (stoWatch_repairs _ _)
    split
    · exact retire_repairs _ _
    · exact .refl
  have hrest := requeues_rest (List.range 8) (8 * (target / 8)) s
  have htargets (k : Nat) : (s.requeues (List.range 8) (8 * (target / 8))).sto.target k = s.targetAt k :=
    (congrArg (fun x : Sto => x.target k) hrest :)
  have hself : ((s.requeues (List.range 8) (8 * (target / 8))).sto.timedOut target s.clk).target target = { s.targetAt target with
      timeouts := s.clk :: (s.targetAt target).timeouts.filter (fun c => decide (s.clk - c ≤ clocksPerHour)) } := by
    rw [Sto.timedOut, htargets]
    exact tget_tput_self
  obtain ⟨f, hpages⟩ := hrep.pages
  refine ⟨?_, ?_, fun i hi => hrep.running ?_, fun p hp ht => ?_, ?_, fun hfit h3 => ?_, fun k hk => ?_, ?_, hkept⟩
  · exact (congrArg Sto.timeoutCnt hrep.rest :).trans (congrArg (fun x : Sto => bump x.timeoutCnt) hrest :)
  · exact (congrArg Sto.chanReset hrep.rest :).trans (congrArg (fun x : Sto => insAsc x.chanReset target) hrest :)
  · rw [timedOut_running]
    exact requeues_idle (List.mem_range.mpr hi)
  · rw [hpages, timedOut_pages] at hp
    obtain ⟨q, hq, rfl⟩ := List.mem_map.mp hp
    have hfree (h : q.state = .programming ∨ q.state = .paused) : False :=
      (requeues_underway (s := s) (List.range 8) hq h).2 (q.target % 8) (List.mem_range.mpr (by omega)) (by
        have : q.target / 8 = target / 8 := ht
        omega)
    exact ⟨fun h => hfree (.inl h), fun h => hfree (.inr h)⟩
  · rw [targetAt_eq, hrep.field Target.timeouts (fun _ _ _ => rfl), hself]
  · have hlen : 3 ≤ ((s.timesOut target).targetAt target).timeouts.length := by
      rw [targetAt_eq, timesOut_sto, ← hrep.field Target.timeouts (fun _ _ _ => rfl)]
      exact h3
    have hfit' : ((s.timesOut target).targetAt target).fitted = true := by
      rw [targetAt_eq, timesOut_sto, hself]
      exact hfit
    rw [if_pos hlen] at hv
    rw [hv, targetAt_eq, done_sto]
    exact (stoWatch_repairs _ target).retired (retire_retired hfit')
  · rw [targetAt_eq, hrep.others k hk, ← htargets]
    exact tget_tput_other hk
  · exact (congrArg Sto.log hrep.rest :).trans (congrArg Sto.log hrest :)

/-- A channel reset ends, its target ready. -/
theorem reset_ends {v : State} (hv : v = State.done s (s.resetEnds target).stoWatch) :
    v.sto.chanReset = s.sto.chanReset.filter (fun n => n != target) ∧
      v.sto.pages = s.sto.pages ∧ v.sto.ops = s.sto.ops ∧ v.sto.targets = s.sto.targets ∧ v.sto.log = s.sto.log ∧
      KeptBut [.sto, .peat] s v := by
  obtain ⟨_, _, _, _, hsto⟩ := stoWatch_sto (s.resetEnds target)
  subst hv
  refine ⟨?_, ?_, ?_, ?_, ?_, watched_done (spares_sto (by decide)) (by decide) (by decide)⟩ <;>
    rw [done_sto, hsto] <;> rfl

/-- A channel reset without an end retires its target (R519). -/
theorem reset_retires (hf : (s.targetAt target).fitted = true) {v : State}
    (hv : v = State.done s ((s.resetEnds target).retire target).stoWatch) :
    v.sto.chanReset = s.sto.chanReset.filter (fun n => n != target) ∧ (v.targetAt target).retired = true ∧
      (∀ k, k ≠ target → v.targetAt k = s.targetAt k) ∧ v.sto.log = s.sto.log ∧ KeptBut [.sto, .peat] s v := by
  have hrep : (s.resetEnds target).sto.Repairs target v.sto := by
    rw [hv, done_sto]
    exact (retire_repairs _ _).trans (stoWatch_repairs _ _)
  refine ⟨(congrArg Sto.chanReset hrep.rest :), ?_, fun k hk => hrep.others k hk, (congrArg Sto.log hrep.rest :), ?_⟩
  · rw [hv, targetAt_eq, done_sto]
    exact (stoWatch_repairs _ target).retired (retire_retired (s := s.resetEnds target) hf)
  · rw [hv]
    exact watched_done ((spares_sto (by decide) : Spares _ s (s.resetEnds target)).trans (retire_spares (by decide) _ _))
      (by decide) (by decide)

/-- A faulty drain is reset; one of a channel takes back what it did (R143, R504). -/
theorem drain_faults {drain : Nat} {v : State} (hv : v = State.done s
      (if drain < 4 then (s.drainFaults drain).requeues (List.range 8) (8 * drain) else s.drainFaults drain)) :
    v.sto.drainRst = bump s.sto.drainRst ∧ v.sto.drainReset = tput s.sto.drainReset drain (s.clk + 400) ∧
      (∀ i, drain < 4 → i < 8 → v.sto.running (8 * drain + i) = none) ∧
      (4 ≤ drain → v.sto.ops = s.sto.ops ∧ v.sto.pages = s.sto.pages) ∧
      v.sto.log = s.sto.log ∧ v.sto.targets = s.sto.targets ∧ KeptBut [.sto] s v := by
  have hs : Spares [.sto] s (s.drainFaults drain) := spares_sto (by decide)
  subst hv
  by_cases hd : drain < 4
  · rw [if_pos hd]
    have hrest := requeues_rest (List.range 8) (8 * drain) (s.drainFaults drain)
    refine ⟨(congrArg Sto.drainRst hrest :), (congrArg Sto.drainReset hrest :), fun i _ hi => ?_, fun h => absurd h (by omega),
      (congrArg Sto.log hrest :), (congrArg Sto.targets hrest :), (hs.trans (requeues_spares (by decide) _ _)).done⟩
    exact requeues_idle (List.mem_range.mpr hi)
  · rw [if_neg hd]
    exact ⟨rfl, rfl, fun i h => absurd h hd, fun _ => ⟨rfl, rfl⟩, rfl, rfl, hs.done⟩

end

/-- Settles O21: each report's end is written out (`exec_programStatus` and the others), and what its work leaves of the
store follows from the rules of retirement, relocation and the watch (`Sto.Repairs`). -/
theorem drainsProgramConfirmAndRecover : Obligations.DrainsProgramConfirmAndRecover := by
  unfold Obligations.DrainsProgramConfirmAndRecover
  refine ⟨fun s page hd hany => ⟨_, exec_pageBufferClose hd, ?_⟩,
    fun s channel o ht hd hc hp => ⟨_, exec_nandOpStart_op ht hd hc, ?_⟩,
    fun s channel n p ht hd hc hp => ⟨_, exec_nandOpStart_page ht hd hc, page_starts hp rfl⟩,
    fun s channel n p ht hd hc hp => ⟨_, exec_nandOpStart_page ht hd hc, ?_⟩,
    fun s target o p hd hcut hr hk hp => ⟨_, exec_programStatus hd hcut hr hk hp, program_passes hp rfl⟩,
    fun s target o p hd hcut hr hk hp => ⟨_, exec_programStatus hd hcut hr hk hp, program_fails rfl⟩,
    fun s target pass hcut => ?_,
    fun s target o hd hf hr hk => ⟨_, exec_eraseStatus hd hf hr hk, erase_passes rfl⟩,
    fun s target o hd hf hr hk => ⟨_, exec_eraseStatus hd hf hr hk, erase_fails rfl⟩,
    fun s target pass hs hf hb he => ⟨_, exec_eraseStatus_format hs hf hb, format_goesOn hs he rfl⟩,
    fun s target pass o hs hf hb he ho => ⟨_, exec_eraseStatus_format hs hf hb, format_ends hs he ho rfl⟩,
    fun s target corrected lost o p hd hr hk hp hl => ⟨_, exec_nandReadDone hd hr hk hp, read_decodes hl rfl⟩,
    fun s target corrected lost o p hd hr hk hp => ⟨_, exec_nandReadDone hd hr hk hp, read_weakens rfl⟩,
    fun s target hd hr => ⟨_, exec_targetTimeout hd hr, target_timesOut rfl⟩,
    fun s target h => ⟨_, exec_channelResetEnd h, reset_ends rfl⟩,
    fun s target h hf => ⟨_, exec_channelResetEnd h, reset_retires hf rfl⟩,
    fun s drain hd h => ⟨_, exec_drainFault hd h, drain_faults rfl⟩,
    fun s busy mbps => ⟨_, rfl, ?_, (spares_sto (by decide)).done⟩,
    fun s => ⟨_, rfl, fun ht hc => ?_, fun h => ?_, ?_⟩⟩
  · obtain ⟨_, _, _, _, hsto⟩ := stoWatch_sto (s.closePage page)
    rw [closePage_sto hany] at hsto
    refine ⟨?_, ?_, ?_, ?_, ?_, ?_, watched_done (closePage_spares (by decide) _) (by decide) (by decide)⟩ <;>
      rw [done_sto, hsto] <;> rfl
  · rw [begins_of_ne hp]
    exact ⟨rfl, ((spares_sto (by decide)).trans (spares_sto (by decide))).done⟩
  · obtain ⟨hpages, hpre, hops, hrest⟩ := urgentPage_starts hp rfl
    exact ⟨hpages, ⟨_, rfl, hpre, hops⟩, hrest⟩
  · refine ⟨_, exec_programStatus_cut hcut, rfl, (spares_sto (by decide)).done⟩
  · cases busy <;> rfl
  · rw [done_sto, if_pos (by simp [ht, hc])]
  · rw [done_sto, if_neg (by simpa using h)]
  · exact (Spares.ite (spares_sto (by decide)) .refl).done

end Sys2Proof.Machine

/-! SUPPORT. What a step's events do in the fabric (R436, R437, R442, R446, R447): what each consumer's input shows, and
what only moves forward. -/

namespace Sys2Proof.Machine

section
variable {s u : State} {c i j k n : Nat} {α : Type} {f g : Fab} {l : List Piece}

/-! ### One consumer -/

/-- What is seen of one consumer: only what its own input receives moves it, by an action of its own. -/
structure Fab.Watches (obs : Fab → α) (toggle : Nat → Bool) (c : Nat) (act : α → α) : Prop where
  self : ∀ f h, h ≠ 0 → obs (f.receive toggle c h) = act (obs f)
  other : ∀ f d h, d ≠ c → obs (f.receive toggle d h) = obs f
  see : ∀ (f : Fab) h n, obs (f.see h n) = obs f
  raised : ∀ (f : Fab) l, obs { f with raised := l } = obs f

variable {obs : Fab → α} {toggle : Nat → Bool} {act : α → α}

/-- Of the consumers that receive, only the watched one counts. -/
theorem Fab.Watches.foldl_receive (w : Fab.Watches obs toggle c act) (h : Nat → Nat) (es : List (Nat × Nat)) (f : Fab) :
    obs (es.foldl (fun f e => f.receive toggle e.1 (h e.2)) f) =
      obs ((es.filter (fun e => e.1 == c)).foldl (fun f e => f.receive toggle e.1 (h e.2)) f) := by
  have gen (es : List (Nat × Nat)) : ∀ f g : Fab, obs f = obs g →
      obs (es.foldl (fun f e => f.receive toggle e.1 (h e.2)) f) =
        obs ((es.filter (fun e => e.1 == c)).foldl (fun f e => f.receive toggle e.1 (h e.2)) g) := by
    induction es with
    | nil => exact fun _ _ hfg => hfg
    | cons e es ih =>
      intro f g hfg
      rw [List.foldl_cons, List.filter_cons]
      by_cases he : e.1 = c
      · rw [if_pos (by simpa using he), List.foldl_cons]
        refine ih _ _ ?_
        by_cases h0 : h e.2 = 0
        · rw [h0, Fab.receive, if_pos rfl, Fab.receive, if_pos rfl, hfg]
        · rw [he, w.self f _ h0, w.self g _ h0, hfg]
      · rw [if_neg (by simpa using he)]
        exact ih _ _ ((w.other f _ _ he).trans hfg)
  exact gen es f f rfl

theorem Fab.Watches.foldl_see (w : Fab.Watches obs toggle c act) (h : Nat → Nat) (ms : List (Nat × List Nat)) (f : Fab) :
    obs (ms.foldl (fun f e => f.see (h e.1) e.1) f) = obs f := by
  induction ms generalizing f with
  | nil => rfl
  | cons m ms ih => rw [List.foldl_cons, ih, w.see]

/-- The land and counter consumers, which no context reset makes deaf. -/
theorem not_deaf (h : 0x190 ≤ c) (s : State) : s.deaf c = false := by
  rw [State.deaf, if_neg (by omega), if_neg (by omega)]

/-- A delivery moves a consumer that listens to one sluice just when the sluice carries an event. -/
theorem Fab.Watches.carry (hc : 0x190 ≤ c) (hj : j < 256)
    (w : Fab.Watches obs (fun n => s.live (0x188 + n) 0 == 1#32) c act)
    (hsel : s.fab.sel.filter (fun e => e.1 == c) = [(c, j)]) :
    obs s.carry.fab = if s.rst.ctrlUp = true ∧ s.fab.hits j ≠ 0 then act (obs s.fab) else obs s.fab := by
  unfold State.carry
  by_cases hu : s.rst.ctrlUp = true
  · rw [if_pos hu]
    refine (w.raised _ []).trans ((w.foldl_see s.fab.hits _ _).trans ((w.foldl_receive s.fab.hits _ _).trans ?_))
    rw [List.filter_comm, hsel]
    by_cases h0 : s.fab.hits j = 0
    · simp [h0]
    · simp [hj, not_deaf hc, Nat.pos_of_ne_zero h0, hu, h0, w.self _ _ h0]
  · rw [if_neg hu, if_neg (fun h => hu h.1)]
    exact w.raised _ _

/-- The records of saturated counters leave a consumer alone. -/
theorem Fab.Watches.logSats (w : Fab.Watches obs toggle c act) (s u : State) :
    obs (State.logSats s u).fab = obs u.fab :=
  (w.raised _ _).symm.trans ((congrArg obs (logSats_plainFab s u)).trans (w.raised _ _))

theorem logSats_sel (s u : State) : (State.logSats s u).fab.sel = u.fab.sel := by
  rw [← plainFab_sel, logSats_plainFab, plainFab_sel]

theorem logSats_masks (s u : State) : (State.logSats s u).fab.masks = u.fab.masks := by
  rw [← plainFab_masks, logSats_plainFab, plainFab_masks]

/-- The records of saturated counters raise the log's own events alone. -/
theorem logSats_raised (hr : u.fab.raised = []) (hc : c < 0xAA0) : c ∉ (State.logSats s u).fab.raised := by
  have hnone : (State.logSats s u).fab.raised.filter (fun c => c < 0xAA0) = [] := by
    rw [← plainFab_raised, logSats_plainFab, plainFab_raised, hr, List.filter_nil]
  exact fun h => List.filter_eq_nil_iff.mp hnone c h (decide_eq_true hc)

theorem raised_carry (s : State) : s.carry.fab.raised = [] := by
  unfold State.carry
  split <;> rfl

theorem logSats_live (s u : State) : (State.logSats s u).live = u.live := by
  have h : (State.logSats s u).sets = u.sets := (Spares.of_quiet (l := []) (logSats_quiet s u)).parts .sets (by decide)
  funext a b
  rw [State.live, h, State.live]

theorem carry_live (s : State) : s.carry.live = s.live := by
  have h : s.carry.sets = s.sets := (Spares.of_quiet (l := []) (carry_quiet s)).parts .sets (by decide)
  funext a b
  rw [State.live, h, State.live]

/-- A consumer that listens to one sluice, whose mask is one producer, moves once at the end of a step that raised the
producer, and not else. -/
theorem Fab.Watches.done (hc : 0x190 ≤ c) (hj : j < 256) (hn : n < 0xAA0)
    (w : Fab.Watches obs (fun n => u.live (0x188 + n) 0 == 1#32) c act)
    (hready : u.ready = s.ready) (hsat : u.saturated ⊆ s.saturated)
    (hsel : u.fab.sel.filter (fun e => e.1 == c) = [(c, j)]) (hm : tget [] u.fab.masks j = [n]) :
    obs (State.done s u).fab = if u.rst.ctrlUp = true ∧ n ∈ u.fab.raised then act (obs u.fab) else obs u.fab := by
  have hd : (State.done s u).fab = (State.logSats u u.carry).carry.fab := by
    have hx : State.raiseReady s u = u := if_pos hready
    simp only [State.done, State.settled, hx, logSats_of_subset hsat]
  have hm2 : tget [] (State.logSats u u.carry).fab.masks j = [n] := by rw [logSats_masks, carry_masks, hm]
  have h2 : (State.logSats u u.carry).fab.hits j = 0 := by
    rw [hits_single hm2, if_neg (logSats_raised (raised_carry u) hn)]
  have w2 : Fab.Watches obs (fun n => (State.logSats u u.carry).live (0x188 + n) 0 == 1#32) c act := by
    rw [logSats_live, carry_live]
    exact w
  rw [hd, w2.carry hc hj (by rw [logSats_sel, carry_sel, hsel]), if_neg (fun h => h.2 h2), w2.logSats, w.carry hc hj hsel,
    hits_single hm]
  by_cases h : n ∈ u.fab.raised <;> simp [h]

end

end Sys2Proof.Machine

/-! SUPPORT. The counters and the event lands among the consumers; what a step's end only moves forward: counts, marks
and flags of the fabric, records of the error log (R436, R442, R446, R447, R622 to R629). -/

namespace Sys2Proof.Machine

section
variable {s t u : State} {c i j k n m h : Nat} {f g : Fab} {l : List Piece} {toggle : Nat → Bool}

/-! ### Counters and event lands -/

/-- What an input receives, its coincidence mark apart. -/
theorem receive_parts (f : Fab) (toggle : Nat → Bool) (c : Nat) (hh : h ≠ 0) :
    (f.receive toggle c h).cnt = (f.consume toggle c).cnt ∧ (f.receive toggle c h).evtOut = (f.consume toggle c).evtOut := by
  rw [Fab.receive, if_neg hh]
  split <;> exact ⟨rfl, rfl⟩

theorem consume_cnt (f : Fab) (toggle : Nat → Bool) (c : Nat) : (f.consume toggle c).cnt =
    if 0x1A0 ≤ c ∧ c ≤ 0x1BF then tput f.cnt (c - 0x1A0) (bump (tget 0#32 f.cnt (c - 0x1A0))) else f.cnt := by
  unfold Fab.consume
  split
  · rfl
  · split <;> rfl

/-- What an event does to a land: it toggles in level mode and starts a pulse else (R446). -/
def EvtOut.strikes (level : Bool) (o : EvtOut) : EvtOut :=
  if level then { level := !o.level, pulse := false } else { level := true, pulse := true }

theorem consume_evtOut (f : Fab) (toggle : Nat → Bool) (c : Nat) : (f.consume toggle c).evtOut =
    if 0x190 ≤ c ∧ c ≤ 0x197 then
      tput f.evtOut (c - 0x190) ((tget EvtOut.init f.evtOut (c - 0x190)).strikes (toggle (c - 0x190)))
    else f.evtOut := by
  unfold Fab.consume
  by_cases h1 : 0x1A0 ≤ c ∧ c ≤ 0x1BF
  · rw [if_pos h1, if_neg (by omega)]
  · rw [if_neg h1]
    split <;> rfl

theorem see_evtOut (f : Fab) (h n : Nat) : (f.see h n).evtOut = f.evtOut := by unfold Fab.see; split <;> rfl

/-- An event counter moves by its own input alone, one up each time (R447). -/
theorem watches_cnt (hk : k < 32) (toggle : Nat → Bool) :
    Fab.Watches (fun f => tget 0#32 f.cnt k) toggle (0x1A0 + k) bump where
  self f h hh := by
    rw [(receive_parts f toggle _ hh).1, consume_cnt, if_pos (by omega), Nat.add_sub_cancel_left, tget_tput_self]
  other f d h hd := by
    by_cases hh : h = 0
    · rw [Fab.receive, if_pos hh]
    · rw [(receive_parts f toggle _ hh).1, consume_cnt]
      split
      · rw [tget_tput_other (by omega)]
      · rfl
  see f h n := by rw [see_cnt]
  raised _ _ := rfl

/-- An event land moves by its own input alone (R446). -/
theorem watches_evtOut (hm : m < 8) (toggle : Nat → Bool) :
    Fab.Watches (fun f => tget EvtOut.init f.evtOut m) toggle (0x190 + m) (EvtOut.strikes (toggle m)) where
  self f h hh := by
    rw [(receive_parts f toggle _ hh).2, consume_evtOut, if_pos (by omega), Nat.add_sub_cancel_left, tget_tput_self]
  other f d h hd := by
    by_cases hh : h = 0
    · rw [Fab.receive, if_pos hh]
    · rw [(receive_parts f toggle _ hh).2, consume_evtOut]
      split
      · rw [tget_tput_other (by omega)]
      · rfl
  see f h n := by rw [see_evtOut]
  raised _ _ := rfl

/-! ### What only moves forward -/

/-- Counters, marks of sluices and flags only move forward. -/
structure Fab.Advances (f g : Fab) : Prop where
  cnt : ∀ k, (tget 0#32 f.cnt k).toNat ≤ (tget 0#32 g.cnt k).toNat
  seen : ∀ i b, (tget 0#32 f.seen i).getLsbD b = true → (tget 0#32 g.seen i).getLsbD b = true
  flags : ∀ b, f.flags.getLsbD b = true → g.flags.getLsbD b = true

theorem Fab.Advances.refl : f.Advances f := ⟨fun _ => le_rfl, fun _ _ h => h, fun _ h => h⟩

theorem Fab.Advances.trans {d : Fab} (a : d.Advances f) (b : f.Advances g) : d.Advances g :=
  ⟨fun k => (a.cnt k).trans (b.cnt k), fun i n h => b.seen i n (a.seen i n h), fun n h => b.flags n (a.flags n h)⟩

theorem Fab.Advances.of_same (hc : g.cnt = f.cnt) (hs : g.seen = f.seen) (hf : g.flags = f.flags) : f.Advances g :=
  ⟨fun k => by rw [hc], fun i b h => by rw [hs]; exact h, fun b h => by rw [hf]; exact h⟩

/-- A counter counts up to all-ones (R10). -/
theorem bump_toNat {w : Nat} (x : BitVec w) : (bump x).toNat = min (x.toNat + 1) (2 ^ w - 1) := by
  have hx := x.isLt
  unfold bump
  split
  next h => rw [h, BitVec.toNat_allOnes]; omega
  next h =>
    have hne : x.toNat ≠ 2 ^ w - 1 := fun he => h (BitVec.eq_of_toNat_eq (by rw [he, BitVec.toNat_allOnes]))
    rw [BitVec.toNat_add, BitVec.toNat_ofNat, Nat.add_mod_mod, Nat.mod_eq_of_lt (by omega)]
    omega

theorem bump_le {w : Nat} (x : BitVec w) : x.toNat ≤ (bump x).toNat := by
  have := x.isLt
  rw [bump_toNat]
  omega

theorem bump_mono {w : Nat} {x y : BitVec w} (h : x.toNat ≤ y.toNat) : (bump x).toNat ≤ (bump y).toNat := by
  rw [bump_toNat, bump_toNat]
  omega

theorem or_getLsbD {w : Nat} {x y : BitVec w} {b : Nat} (h : x.getLsbD b = true) : (x ||| y).getLsbD b = true := by
  rw [BitVec.getLsbD_or, h, Bool.true_or]

theorem consume_advances (f : Fab) (toggle : Nat → Bool) (c : Nat) : f.Advances (f.consume toggle c) where
  cnt k := by
    rw [consume_cnt]
    split
    next =>
      by_cases hk : k = c - 0x1A0
      · rw [hk, tget_tput_self]
        exact bump_le _
      · rw [tget_tput_other hk]
    next => exact le_rfl
  seen i b h := by
    unfold Fab.consume
    split
    · exact h
    · split <;> exact h
  flags b h := by
    unfold Fab.consume
    split
    · exact h
    · split <;> exact h

theorem receive_advances (f : Fab) (toggle : Nat → Bool) (c h : Nat) : f.Advances (f.receive toggle c h) := by
  unfold Fab.receive
  split
  · exact .refl
  · refine (consume_advances f toggle c).trans ?_
    split
    · exact .refl
    · exact ⟨fun _ => le_rfl, fun _ _ h => h, fun _ h => or_getLsbD h⟩

theorem see_advances (f : Fab) (h n : Nat) : f.Advances (f.see h n) := by
  unfold Fab.see
  split
  · exact .refl
  · refine ⟨fun _ => le_rfl, fun i b hb => ?_, fun _ h => h⟩
    by_cases hi : i = n / 32
    · rw [hi] at hb
      rw [hi, tget_tput_self]
      exact or_getLsbD hb
    · rw [tget_tput_other hi]
      exact hb

theorem foldl_advances {β : Type} {step : Fab → β → Fab} (hstep : ∀ (f : Fab) b, f.Advances (step f b)) (bs : List β) (f : Fab) :
    f.Advances (bs.foldl step f) := by
  induction bs generalizing f with
  | nil => exact .refl
  | cons b bs ih => exact (hstep f b).trans (ih _)

theorem carry_advances (s : State) : s.fab.Advances s.carry.fab := by
  unfold State.carry
  split
  · exact ((foldl_advances (fun f e => receive_advances f _ _ _) _ _).trans
      (foldl_advances (fun f e => see_advances f _ _) _ _)).trans (.of_same rfl rfl rfl)
  · exact .of_same rfl rfl rfl

theorem raise_advances (s : State) (c : Nat) : s.fab.Advances (s.raise c).fab := by
  unfold State.raise
  split
  · exact .refl
  · exact .of_same rfl rfl rfl

theorem advances_of_plainFab (h : t.plainFab = s.plainFab) : s.fab.Advances t.fab :=
  .of_same (congrArg (fun f : Fab => f.cnt) h :) (congrArg (fun f : Fab => f.seen) h :) (congrArg (fun f : Fab => f.flags) h :)

/-- The end of a step, from the first delivery on. -/
theorem done_fab_eq (s u : State) : (State.done s u).fab =
    (State.logSats u (State.logSats s (State.raiseReady s u)).carry).carry.fab := by
  simp only [State.done, State.settled]

theorem done_advances_carry (s u : State) :
    (State.logSats s (State.raiseReady s u)).carry.fab.Advances (State.done s u).fab := by
  rw [done_fab_eq]
  exact (advances_of_plainFab (logSats_plainFab _ _)).trans (carry_advances _)

theorem raiseReady_advances (s u : State) : u.fab.Advances (State.raiseReady s u).fab := by
  unfold State.raiseReady
  split
  · exact .refl
  · exact raise_advances _ _

theorem done_advances (s u : State) : u.fab.Advances (State.done s u).fab :=
  (raiseReady_advances s u).trans ((advances_of_plainFab (logSats_plainFab _ _)).trans
    ((carry_advances _).trans (done_advances_carry s u)))

theorem done_fab_bare (s u : State) : (State.done s u).fab.bare = u.fab.bare := by
  have h : (State.done s u).fab = (State.settled s u).fab := by simp only [State.done]
  rw [h, settled_fab]

theorem done_raised_nil (s u : State) : (State.done s u).fab.raised = [] := by
  rw [done_fab_eq, raised_carry]

/-! ### An event that is raised is carried -/

/-- The mask of a sluice that has a producer is listed. -/
theorem tget?_mem {α : Type} {x : Tab α} {v : α} (h : tget? x j = some v) : (j, v) ∈ x := by
  induction x with
  | nil => exact absurd h (by simp [tget?])
  | cons e x ih =>
    rw [tget?] at h
    split at h
    next he =>
      rw [Option.some.injEq] at h
      exact List.mem_cons.mpr (.inl (by rw [← h, ← he]))
    next => exact List.mem_cons.mpr (.inr (ih h))

theorem hits_ne_zero (hm : n ∈ tget [] f.masks j) (hr : n ∈ f.raised) : f.hits j ≠ 0 := by
  rw [Fab.hits, Ne, List.length_eq_zero_iff, List.filter_eq_nil_iff]
  exact fun h => h n hm (by simpa using hr)

/-- A sluice that carries an event is marked. -/
theorem carry_seen (hu : s.rst.ctrlUp = true) (hm : n ∈ tget [] s.fab.masks j) (hr : n ∈ s.fab.raised) :
    (tget 0#32 s.carry.fab.seen (j / 32)).getLsbD (j % 32) = true := by
  obtain ⟨v, hv⟩ : ∃ v, tget? s.fab.masks j = some v := by
    cases h : tget? s.fab.masks j with
    | none => rw [tget, h] at hm; exact absurd hm (List.not_mem_nil)
    | some v => exact ⟨v, rfl⟩
  obtain ⟨before, after, hl⟩ := List.append_of_mem (tget?_mem hv)
  have hmark (f : Fab) : (tget 0#32 (f.see (s.fab.hits j) j).seen (j / 32)).getLsbD (j % 32) = true := by
    rw [Fab.see, if_neg (hits_ne_zero hm hr), tget_tput_self, BitVec.getLsbD_or, BitVec.getLsbD_twoPow]
    simp [Nat.mod_lt]
  rw [State.carry, if_pos hu]
  simp only [hl, List.foldl_append, List.foldl_cons]
  exact (foldl_advances (fun f e => see_advances f _ _) after _).seen _ _ (hmark _)

/-- A counter that listens to a sluice which carries an event counts at least once. -/
theorem carry_counts (hu : s.rst.ctrlUp = true) (hk : k < 32) (hj : s.fab.selOf (0x1A0 + k) = j) (hlt : j < 256)
    (hm : n ∈ tget [] s.fab.masks j) (hr : n ∈ s.fab.raised) :
    (bump (tget 0#32 s.fab.cnt k)).toNat ≤ (tget 0#32 s.carry.fab.cnt k).toNat := by
  obtain ⟨v, hv⟩ : ∃ v, tget? s.fab.sel (0x1A0 + k) = some v := by
    cases h : tget? s.fab.sel (0x1A0 + k) with
    | none => rw [Fab.selOf, tget, h] at hj; exact absurd hj (by simp; omega)
    | some v => exact ⟨v, rfl⟩
  have hvj : v = j := by rw [← hj, Fab.selOf, tget, hv]; rfl
  subst hvj
  have hhits := hits_ne_zero hm hr
  have hmem : (0x1A0 + k, v) ∈ s.fab.sel.filter (fun e => e.2 < 256 && !s.deaf e.1 && 0 < s.fab.hits e.2) := by
    refine List.mem_filter.mpr ⟨tget?_mem hv, ?_⟩
    simp [hlt, not_deaf (show 0x190 ≤ 0x1A0 + k by omega), Nat.pos_of_ne_zero hhits]
  obtain ⟨before, after, hl⟩ := List.append_of_mem hmem
  have hself (f : Fab) (g : Nat → Bool) : tget 0#32 (f.receive g (0x1A0 + k) (s.fab.hits v)).cnt k =
      bump (tget 0#32 f.cnt k) := (watches_cnt hk g).self f _ hhits
  rw [State.carry, if_pos hu]
  simp only [hl, List.foldl_append, List.foldl_cons]
  refine le_trans ?_ ((foldl_advances (fun f e => see_advances f _ _) _ _).cnt k)
  refine le_trans ?_ ((foldl_advances (fun f e => receive_advances f _ _ _) after _).cnt k)
  rw [hself]
  exact bump_mono ((foldl_advances (fun f e => receive_advances f _ _ _) before _).cnt k)

/-! ### Records of the error log -/

/-- What a record in the ring keeps: SEQ, code and source. -/
def ErrEntry.key (e : ErrEntry) : Word × BitVec 16 × Nat := (e.body.seq, e.body.code, e.body.source.toNat)

/-- Records join the log at its end; those there stay in place, and so does what is acknowledged. -/
structure Err.Keeps (e f : Err) : Prop where
  ring : e.ring.map ErrEntry.key <+: f.ring.map ErrEntry.key
  deferred : e.deferred <+: f.deferred
  ack : f.ack = e.ack

theorem Err.Keeps.refl {e : Err} : e.Keeps e := ⟨List.prefix_rfl, List.prefix_rfl, rfl⟩

theorem Err.Keeps.trans {d e f : Err} (a : d.Keeps e) (b : e.Keeps f) : d.Keeps f :=
  ⟨a.ring.trans b.ring, a.deferred.trans b.deferred, b.ack.trans a.ack⟩

theorem tryRepeat_keys {clk : Nat} {r : ErrRec} {es fs : List ErrEntry} (h : tryRepeat clk r es = some fs) :
    fs.map ErrEntry.key = es.map ErrEntry.key := by
  induction es generalizing fs with
  | nil => cases h
  | cons e es ih =>
    rw [tryRepeat] at h
    split at h
    next t' ht =>
      cases h
      rw [List.map_cons, ih ht, List.map_cons]
    next =>
      split_ifs at h
      cases h
      rfl

theorem freeze_ack (e : Err) (r : ErrRec) : (e.freeze r).ack = e.ack := by
  unfold Err.freeze
  split <;> rfl

theorem form_keeps (e : Err) (clk : Nat) (r : ErrRec) : e.Keeps (e.form clk r) := by
  refine ⟨?_, (form_grows e clk r).deferred, ?_⟩
  · unfold Err.form
    split
    next ring hr =>
      split_ifs at hr
      rw [tryRepeat_keys hr]
    next =>
      dsimp only
      split
      · rw [List.map_append]
        exact List.prefix_append _ _
      · rw [(freeze_log e { r with seq := BitVec.allOnes 32, flags := r.flags ||| 8#8 }).1]
  · unfold Err.form
    split
    · rfl
    · dsimp only
      split <;> exact freeze_ack _ _

theorem log_keeps (s : State) (e : ErrSpec) : s.err.Keeps (s.log e).err := by
  cases hd : s.rst.dataUp with
  | true =>
    rw [log_err_up hd]
    exact form_keeps ..
  | false =>
    rw [log_err_down hd]
    exact ⟨List.prefix_rfl, List.prefix_append .., rfl⟩

theorem done_keeps (s u : State) : u.err.Keeps (State.done s u).err :=
  done_err_of_log u.err.Keeps s u (fun x e _ h => h.trans (log_keeps x e)) (fun _ _ h => ⟨h.ring, h.deferred, h.ack⟩) .refl

/-- A record of a code whose repeats do not coalesce takes the next SEQ and a place of its own (R622, R623). -/
theorem log_ring_own {e : ErrSpec} (hd : s.rst.dataUp = true) (hl : s.err.ring.length < 4096)
    (hc : (e.record s.mt.mt).flags.getLsbD 0 = false) : (s.log e).err.ring.map ErrEntry.key =
      s.err.ring.map ErrEntry.key ++
        [(s.err.newest + 1#32, (e.record s.mt.mt).code, (e.record s.mt.mt).source.toNat)] := by
  rw [log_err_up hd, Err.form, hc]
  dsimp only
  rw [if_neg Bool.false_ne_true]
  dsimp only
  rw [if_pos (show s.err.ring.length < ringSize from hl), List.map_append]
  rfl

end

end Sys2Proof.Machine

/-! The commands of the event fabric (R436, R437, R439 to R441, R446, R447, R449). -/

namespace Sys2Proof.Machine

section
variable {s t u : State} {r : Req} {c i j k n : Nat} {l : List Piece} {a : Answer} {op : Nat} {g : Gate}

/-! ### Requests that change the fabric and are answered -/

theorem reply_fab (u : State) (r : Req) (op : Nat) (a : Answer) : (u.reply r op a).fab = u.fab := by
  obtain ⟨m, c, y, z, i, e⟩ := answer_eq u (waiterOf r op u) a
  rw [State.reply, e]

/-- A request is answered once the routing is all it has changed. -/
theorem fab_answered (ha : Accepts s r op g) {x : Fab} :
    Answers s (State.done s (({ s.take r with fab := x } : State).reply r op a)) r op a ∧
      (State.done s (({ s.take r with fab := x } : State).reply r op a)).fab.bare = x.bare ∧
      KeptBut [.mbx, .requests, .window, .routes] s
        (State.done s (({ s.take r with fab := x } : State).reply r op a)) := by
  refine ⟨answers_of_reply (opened_of_accepts ha) rfl rfl rfl, ?_, ?_⟩
  · rw [done_fab_bare, reply_fab]
  · exact ((take_spares (by decide)).trans ((spares_fab (by decide)).trans
      (answer_spares (by decide) (by decide) _ _))).done

/-! ### EVT_ROUTE -/

/-- The selection one item leaves. -/
theorem select_selOf (s : State) (c sel k : Nat) :
    (s.select c sel).fab.selOf k = if c = k then sel else s.fab.selOf k := by
  unfold State.select Fab.selOf
  by_cases hs : sel = 0x100
  · simp only [hs, if_true]
    split
    next h => rw [tget, ← h, tget?_tdel_self]; rfl
    next h => rw [tget, tget?_tdel_other _ (Ne.symm h), tget]
  · simp only [if_neg hs]
    split
    next h => rw [h, tget_tput_self]
    next h => rw [tget_tput_other (Ne.symm h)]

/-- A selection changes the selections and the lands alone. -/
theorem select_rest (s : State) (c sel : Nat) :
    { s.select c sel with fab := { (s.select c sel).fab with sel := s.fab.sel, evtOut := s.fab.evtOut } } = s := rfl

/-- The selections after a list of items: the last that names a consumer holds. -/
theorem selects_selOf (items : List (Nat × Nat)) (s : State) (k : Nat) :
    (items.foldl (fun t x => t.select x.1 x.2) s).fab.selOf k =
      ((items.reverse.find? (fun x => x.1 == k)).map (fun x => x.2)).getD (s.fab.selOf k) := by
  induction items generalizing s with
  | nil => rfl
  | cons x items ih =>
    rw [List.foldl_cons, ih, List.reverse_cons, List.find?_append, select_selOf]
    cases items.reverse.find? (fun x => x.1 == k) with
    | some y => rfl
    | none =>
      by_cases h : x.1 = k <;> simp [h]

/-- The state after a list of items, its selections and lands apart. -/
theorem selects_rest (items : List (Nat × Nat)) (s : State) :
    { items.foldl (fun t x => t.select x.1 x.2) s with
      fab := { (items.foldl (fun t x => t.select x.1 x.2) s).fab with sel := s.fab.sel, evtOut := s.fab.evtOut } } = s := by
  induction items generalizing s with
  | nil => rfl
  | cons x items ih =>
    have h := ih (s.select x.1 x.2)
    have h' := congrArg (fun t : State => ({ t with fab := { t.fab with sel := s.fab.sel, evtOut := s.fab.evtOut } } : State)) h
    exact h'

/-- The fabric an accepted EVT_ROUTE leaves. -/
def State.routedBy (s : State) (items : List (Nat × Nat)) : Fab := (items.foldl (fun t x => t.select x.1 x.2) s).fab.routed

theorem routedBy_selOf (s : State) (items : List (Nat × Nat)) (k : Nat) : (s.routedBy items).selOf k =
    ((items.reverse.find? (fun x => x.1 == k)).map (fun x => x.2)).getD (s.fab.selOf k) := selects_selOf items s k

theorem routedBy_rest (s : State) (items : List (Nat × Nat)) :
    { s.routedBy items with sel := s.fab.sel, evtOut := s.fab.evtOut, routeSeq := s.fab.routeSeq } = s.fab ∧
      (s.routedBy items).routeSeq = s.fab.routeSeq + 1#32 := by
  have h := congrArg State.fab (selects_rest items s)
  exact ⟨(congrArg (fun f : Fab => { f with routeSeq := s.fab.routeSeq }) h :),
    (congrArg (fun f : Fab => f.routeSeq + 1#32) h :)⟩

theorem exec_evtRoute {items : List (Nat × Nat)} (ha : Accepts s r 0x0F01 {}) (hn : items ≠ [] ∧ items.length ≤ 32)
    (hb : firstBad s.routeBad 0 items = none) : exec (.evtRoute r items) s = .next (State.done s
      (({ s.take r with fab := (s.take r).routedBy items } : State).reply r 0x0F01
        ⟨stOk, 0, leBytes 4 (s.fab.routeSeq + 1#32).toNat, [], false⟩)) := by
  obtain ⟨hne, hle⟩ := hn
  have hstate : ({ items.foldl (fun t x => t.select x.1 x.2) (s.take r) with
      fab := (items.foldl (fun t x => t.select x.1 x.2) (s.take r)).fab.routed } : State) =
      { s.take r with fab := (s.take r).routedBy items } :=
    (congrArg (fun t : State => ({ t with fab := (s.take r).routedBy items } : State)) (selects_rest items (s.take r)) :)
  have hb' : firstBad (s.take r).routeBad 0 items = none := hb
  have hseq : ((s.take r).routedBy items).routeSeq = s.fab.routeSeq + 1#32 := (routedBy_rest (s.take r) items).2
  show execEvtRoute r items s = _
  rw [execEvtRoute, umser_accepts ha, if_neg (by simp [hne, hle]), hb']
  dsimp only
  rw [hstate, ← hseq]
  rfl

/-! ### EVT_MASK -/

theorem tget_putOrDelete (x : Tab (List Nat)) (j k : Nat) (v : List Nat) :
    tget [] (if v = [] then tdel x j else tput x j v) k = if k = j then v else tget [] x k := by
  by_cases hk : k = j
  · rw [if_pos hk, hk]
    split
    next h => rw [tget, tget?_tdel_self, h]; rfl
    next => exact tget_tput_self
  · rw [if_neg hk]
    split
    next => rw [tget, tget?_tdel_other _ hk, tget]
    next => exact tget_tput_other hk

theorem addTaps_rest (codes : List Nat) (f : Fab) : { codes.foldl Fab.addTap f with taps := f.taps } = f := by
  induction codes generalizing f with
  | nil => rfl
  | cons c codes ih => exact (congrArg (fun x : Fab => { x with taps := f.taps }) (ih (f.addTap c)) :)

theorem setMask_rest (f : Fab) (j : Nat) (mask : List Nat) :
    { f.setMask j mask with taps := f.taps, masks := f.masks } = f ∧
      (f.setMask j mask).masks = if mask = [] then tdel f.masks j else tput f.masks j mask := by
  unfold Fab.setMask
  extract_lets f1
  have h := addTaps_rest (f1.freeTaps.newTaps mask) f1.freeTaps
  exact ⟨(congrArg (fun x : Fab => { x with taps := f.taps, masks := f.masks }) h :), (congrArg Fab.masks h :)⟩

theorem setMask_changes (f : Fab) (j : Nat) (mask : List Nat) : (f.setMask j mask).routed.routeSeq = f.routeSeq + 1#32 ∧
    (f.setMask j mask).routed.sel = f.sel ∧
    ∀ k, tget [] (f.setMask j mask).routed.masks k = if k = j then mask else tget [] f.masks k := by
  obtain ⟨hrest, hmasks⟩ := setMask_rest f j mask
  refine ⟨(congrArg (fun f : Fab => f.routeSeq + 1#32) hrest :), (congrArg Fab.sel hrest :), fun k => ?_⟩
  rw [← tget_putOrDelete, ← hmasks]
  rfl

theorem exec_evtMask {sluice : Nat} {codes : List Nat} (ha : Accepts s r 0x0F02 {}) (hs : sluice < 256) (ho : op ≤ 2)
    (hl : codes.length ≤ 32) (he : codes ≠ [] ∨ op = 2) (hb : firstBad s.codeBad 0 codes = none)
    (ht : s.fab.taps.length + (s.fab.newTaps (maskAfter op (tget [] s.fab.masks sluice) codes)).length ≤ 64) :
    exec (.evtMask r sluice op codes) s = .next (State.done s
      (({ s.take r with
        fab := (s.fab.setMask sluice (maskAfter op (tget [] s.fab.masks sluice) codes)).routed } : State).reply r 0x0F02
        ⟨stOk, 0, leBytes 4 (s.fab.routeSeq + 1#32).toNat, [], false⟩)) := by
  have hb' : firstBad (s.take r).codeBad 0 codes = none := hb
  have hseq : (s.fab.setMask sluice (maskAfter op (tget [] s.fab.masks sluice) codes)).routeSeq = s.fab.routeSeq :=
    (congrArg Fab.routeSeq (setMask_rest s.fab sluice (maskAfter op (tget [] s.fab.masks sluice) codes)).1 :)
  show execEvtMask r sluice op codes s = _
  rw [execEvtMask, umser_accepts ha]
  simp only [take_fab]
  rw [if_neg (Nat.not_le.mpr hs), if_neg (Nat.not_lt.mpr ho), if_neg (by simp [hl]; tauto), hb']
  dsimp only
  refine (congrArg (fun u => Host.Outcome.next (State.done s u)) (if_neg (Nat.not_lt.mpr ht))).trans ?_
  rw [← hseq]
  rfl

/-! ### EVT_READ -/

theorem exec_evtRead_sel {first count : Nat} (ha : Accepts s r 0x0F03 {}) (hc : count ≠ 0 ∧ count ≤ 1024)
    (hf : first + count ≤ 2048) : exec (.evtRead r 0 first count) s = .next (State.done s ((s.take r).ok r 0x0F03
      (leBytes 4 s.fab.routeSeq.toNat ++ leBytes 2 count)
      ((List.range count).flatMap (fun i => leBytes 2 (s.fab.selOf (first + i)))))) := by
  obtain ⟨hpos, hmost⟩ := hc
  show execEvtRead r 0 first count s = _
  rw [execEvtRead, umser_accepts ha]
  dsimp only
  rw [if_neg (by decide), if_neg (show ¬ (count = 0 ∨ 1024 < count) by omega), if_pos rfl,
    if_neg (by omega : ¬ 2048 < first + count)]
  rfl

theorem exec_evtRead_mask {first count : Nat} (ha : Accepts s r 0x0F03 {}) (hc : count ≠ 0 ∧ count ≤ 1024)
    (hf : first < 256) : exec (.evtRead r 1 first count) s = .next (State.done s ((s.take r).ok r 0x0F03
      (leBytes 4 s.fab.routeSeq.toNat ++ leBytes 2 ((tget [] s.fab.masks first).take count).length)
      (((tget [] s.fab.masks first).take count).flatMap (fun c => leBytes 2 c)))) := by
  obtain ⟨hpos, hmost⟩ := hc
  show execEvtRead r 1 first count s = _
  rw [execEvtRead, umser_accepts ha]
  dsimp only
  rw [if_neg (by decide), if_neg (show ¬ (count = 0 ∨ 1024 < count) by omega), if_neg (by decide), if_pos rfl,
    if_neg (by omega : ¬ 256 ≤ first)]
  rfl

theorem exec_evtRead_taps {first count : Nat} (ha : Accepts s r 0x0F03 {}) (hc : count ≠ 0 ∧ count ≤ 1024) :
    exec (.evtRead r 2 first count) s = .next (State.done s ((s.take r).ok r 0x0F03
      (leBytes 4 s.fab.routeSeq.toNat ++ leBytes 2 64) ((List.range 64).flatMap s.fab.tapBytes))) := by
  obtain ⟨hpos, hmost⟩ := hc
  show execEvtRead r 2 first count s = _
  rw [execEvtRead, umser_accepts ha]
  dsimp only
  rw [if_neg (by decide), if_neg (show ¬ (count = 0 ∨ 1024 < count) by omega), if_neg (by decide), if_neg (by decide)]
  rfl

/-! ### EVT_PULSE -/

/-- The events of a list of producers that no reset silences are raised, each once. -/
theorem raises_fab (codes : List Nat) (s : State) (hs : ∀ c ∈ codes, s.silent c = false) :
    ∃ x, codes.foldl (fun t c => t.raise c) s = { s with fab := { s.fab with raised := x } } ∧
      ∀ c, c ∈ x ↔ c ∈ s.fab.raised ∨ c ∈ codes := by
  induction codes generalizing s with
  | nil => exact ⟨s.fab.raised, rfl, by simp⟩
  | cons c codes ih =>
    have hq : ∃ x, s.raise c = { s with fab := { s.fab with raised := x } } ∧ ∀ d, d ∈ x ↔ d ∈ s.fab.raised ∨ d = c := by
      unfold State.raise
      rw [hs c (by simp), Bool.false_or]
      split
      next h =>
        have hc : c ∈ s.fab.raised := by simpa using h
        exact ⟨s.fab.raised, rfl, fun d => ⟨.inl, fun hd => hd.elim id (fun e => e ▸ hc)⟩⟩
      next => exact ⟨_, rfl, by simp⟩
    obtain ⟨x, hx, hmem⟩ := hq
    obtain ⟨y, hy, hmem'⟩ := ih ({ s with fab := { s.fab with raised := x } } : State) (fun d hd => hs d (by simp [hd]))
    refine ⟨y, by rw [List.foldl_cons, hx, hy], fun d => ?_⟩
    rw [hmem', List.mem_cons, ← or_assoc]
    exact or_congr (hmem d) Iff.rfl

/-- The switches of a mask. -/
def switches (mask : BitVec 8) : List Nat := (setBits 8 mask.toNat).map (fun n => 0x908 + n)

theorem mem_switches {mask : BitVec 8} (hn : n < 8) (hb : mask.getLsbD n = true) : 0x908 + n ∈ switches mask :=
  List.mem_map.mpr ⟨n, List.mem_filter.mpr ⟨List.mem_range.mpr hn, hb⟩, rfl⟩

theorem switches_lt {mask : BitVec 8} (h : c ∈ switches mask) : 0x908 ≤ c ∧ c < 0x910 := by
  obtain ⟨n, hn, rfl⟩ := List.mem_map.mp h
  have := List.mem_range.mp (List.mem_filter.mp hn).1
  omega

theorem switches_loud {mask : BitVec 8} (h : c ∈ switches mask) (s : State) : s.silent c = false := by
  obtain ⟨hlo, hhi⟩ := switches_lt h
  rw [State.silent, if_neg (by omega), if_neg (by omega), if_neg]
  simp
  omega

/-- The state once switches are raised and the command is answered. -/
def State.pulses (s : State) (r : Req) (x : List Nat) : State :=
  ({ s.take r with fab := { s.fab with raised := x } } : State).reply r 0x0F04 ⟨stOk, 0, [], [], false⟩

/-- The end of an EVT_PULSE: its switches are raised beside what waits. -/
theorem exec_evtPulse {mask : BitVec 8} (ha : Accepts s r 0x0F04 {}) :
    ∃ x, (∀ c, c ∈ x ↔ c ∈ s.fab.raised ∨ c ∈ switches mask) ∧
      exec (.evtPulse r mask) s = .next (State.done s (s.pulses r x)) := by
  obtain ⟨x, hx, hmem⟩ := raises_fab (switches mask) (s.take r) (fun c hc => switches_loud hc _)
  refine ⟨x, hmem, ?_⟩
  rw [switches, List.foldl_map] at hx
  show execEvtPulse r mask s = _
  rw [execEvtPulse, umser_accepts ha, hx]
  rfl

theorem pulses_spares (r : Req) (x : List Nat) : Spares [.mbx, .requests, .window] s (s.pulses r x) := by
  have hk : Spares [.mbx, .requests, .window] (s.take r)
      ({ s.take r with fab := { s.fab with raised := x } } : State) :=
    ⟨rfl, fun p _ => by cases p <;> simp [Kept]⟩
  exact (take_spares (by decide)).trans (hk.trans (answer_spares (by decide) (by decide) _ _))

theorem pulses_fab (s : State) (r : Req) (x : List Nat) : (s.pulses r x).fab = { s.fab with raised := x } :=
  reply_fab _ _ _ _

theorem pulses_plain (s : State) (r : Req) (x : List Nat) : (s.pulses r x).ready = s.ready ∧
    (s.pulses r x).saturated = s.saturated ∧ (s.pulses r x).rst = s.rst := by
  obtain ⟨m, c, y, z, i, e⟩ := answer_eq ({ s.take r with fab := { s.fab with raised := x } } : State)
    (waiterOf r 0x0F04 ({ s.take r with fab := { s.fab with raised := x } } : State)) ⟨stOk, 0, [], [], false⟩
  rw [State.pulses, State.reply, e]
  exact ⟨rfl, rfl, rfl⟩

/-! ### What a step's events do, whatever else it raises -/

/-- What a step raised is still raised at its first delivery. -/
theorem raised_first (s u : State) (hc : c ∈ u.fab.raised) (hlt : c < 0xAA0) :
    c ∈ (State.logSats s (State.raiseReady s u)).fab.raised := by
  have hready : c ∈ (State.raiseReady s u).fab.raised := by
    unfold State.raiseReady
    split
    · exact hc
    · unfold State.raise
      split
      · exact hc
      · exact List.mem_append_left _ hc
  have hmem : c ∈ (State.logSats s (State.raiseReady s u)).plainFab.raised := by
    rw [logSats_plainFab, plainFab_raised]
    exact List.mem_filter.mpr ⟨hready, by simpa using hlt⟩
  rw [plainFab_raised] at hmem
  exact List.mem_of_mem_filter hmem

theorem fab_of_plainFab (h : t.plainFab = s.plainFab) : { t.fab with raised := [] } = { s.fab with raised := [] } :=
  (congrArg (fun f : Fab => { f with raised := [] }) h :)

/-- Raising readiness and the records of saturated counters leave the fabric but for what is raised. -/
theorem first_fab (s u : State) : { (State.logSats s (State.raiseReady s u)).fab with raised := [] } =
    { u.fab with raised := [] } := by
  have hr : { (State.raiseReady s u).fab with raised := [] } = { u.fab with raised := [] } := by
    unfold State.raiseReady
    split
    · rfl
    · unfold State.raise
      split <;> rfl
  exact (fab_of_plainFab (logSats_plainFab s (State.raiseReady s u))).trans hr

theorem first_ctrlUp (s u : State) : (State.logSats s (State.raiseReady s u)).rst = u.rst :=
  (Spares.of_quiet (l := []) ((logSats_quiet s _).trans (raiseReady_quiet s u))).parts .rst (by decide)

/-- What the fabric keeps where the raised events alone have changed. -/
theorem parts_of_raised {f g : Fab} (h : { f with raised := [] } = { g with raised := [] }) :
    f.masks = g.masks ∧ f.selOf = g.selOf ∧ f.cnt = g.cnt :=
  ⟨(congrArg Fab.masks h :), (congrArg Fab.selOf h :), (congrArg Fab.cnt h :)⟩

/-- The routing that the end of a step keeps. -/
theorem parts_of_bare {f g : Fab} (h : f.bare = g.bare) : f.selOf = g.selOf ∧ f.sel = g.sel ∧ f.routeSeq = g.routeSeq ∧
    f.masks = g.masks ∧ f.taps = g.taps ∧ f.persist = g.persist ∧ f.evtIn = g.evtIn :=
  ⟨(congrArg Fab.selOf h :), (congrArg Fab.sel h :), (congrArg Fab.routeSeq h :), (congrArg Fab.masks h :),
    (congrArg Fab.taps h :), (congrArg Fab.persist h :), (congrArg Fab.evtIn h :)⟩

/-- A raised event marks every sluice whose mask has its producer (R436). -/
theorem done_seen (hu : u.rst.ctrlUp = true) (hc : c ∈ u.fab.raised) (hlt : c < 0xAA0)
    (hm : c ∈ tget [] u.fab.masks j) : (tget 0#32 (State.done s u).fab.seen (j / 32)).getLsbD (j % 32) = true := by
  obtain ⟨hmasks, -, -⟩ := parts_of_raised (first_fab s u)
  refine (done_advances_carry s u).seen _ _ (carry_seen (by rw [first_ctrlUp, hu]) ?_ (raised_first s u hc hlt))
  rw [hmasks]
  exact hm

/-- A raised event is counted at least once where a counter listens to a sluice that has its producer (R447). -/
theorem done_counts (hu : u.rst.ctrlUp = true) (hc : c ∈ u.fab.raised) (hlt : c < 0xAA0) (hk : k < 32)
    (hj : u.fab.selOf (0x1A0 + k) < 256) (hm : c ∈ tget [] u.fab.masks (u.fab.selOf (0x1A0 + k))) :
    (bump (tget 0#32 u.fab.cnt k)).toNat ≤ (tget 0#32 (State.done s u).fab.cnt k).toNat := by
  obtain ⟨hmasks, hsel, hcnt⟩ := parts_of_raised (first_fab s u)
  refine le_trans ?_ ((done_advances_carry s u).cnt k)
  rw [← hcnt]
  exact carry_counts (by rw [first_ctrlUp, hu]) hk (congrFun hsel _) hj (by rw [hmasks]; exact hm) (raised_first s u hc hlt)

end

/-- Settles O28: each command's end is written out (`exec_evtRoute` and the others); a raised switch marks the sluices
that have it and moves the counters that listen (`done_seen`, `done_counts`), one that listens to it alone just once
(`Fab.Watches.done`). -/
theorem eventCommands : Obligations.EventCommands := by
  unfold Obligations.EventCommands
  refine ⟨fun s r items ha hn hb => ?_,
    fun s r sluice op codes ha hs ho hl he hb ht => ?_,
    fun s r first count ha hc hf => ⟨_, exec_evtRead_sel ha hc hf, take_ok_done ha⟩,
    fun s r first count ha hc hf => ⟨_, exec_evtRead_mask ha hc hf, take_ok_done ha⟩,
    fun s r first count ha hc => ⟨_, exec_evtRead_taps ha hc, take_ok_done ha⟩,
    fun s r mask ha hu => ?_,
    fun s r mask n k j ha hu hn hk hsel hm => ?_⟩
  · obtain ⟨hans, hfab, hkept⟩ := fab_answered (x := (s.take r).routedBy items)
      (a := ⟨stOk, 0, leBytes 4 (s.fab.routeSeq + 1#32).toNat, [], false⟩) ha
    obtain ⟨hrest, hseq⟩ := routedBy_rest (s.take r) items
    obtain ⟨hselOf, -, hroute, hmasks, htaps, -, -⟩ := parts_of_bare hfab
    refine ⟨_, exec_evtRoute ha hn hb, hans, fun c => ?_, hroute.trans hseq, hmasks.trans (congrArg Fab.masks hrest :),
      htaps.trans (congrArg Fab.taps hrest :), hkept⟩
    rw [hselOf]
    exact routedBy_selOf (s.take r) items c
  · obtain ⟨hans, hfab, hkept⟩ := fab_answered
      (x := (s.fab.setMask sluice (maskAfter op (tget [] s.fab.masks sluice) codes)).routed)
      (a := ⟨stOk, 0, leBytes 4 (s.fab.routeSeq + 1#32).toNat, [], false⟩) ha
    obtain ⟨-, hsel, hroute, hmasks, -, -, -⟩ := parts_of_bare hfab
    obtain ⟨hr, hs', hat⟩ := setMask_changes s.fab sluice (maskAfter op (tget [] s.fab.masks sluice) codes)
    refine ⟨_, exec_evtMask ha hs ho hl he hb ht, hans, ?_, fun k hk => ?_, hroute.trans hr, hsel.trans hs', hkept⟩
    · rw [hmasks]
      exact (hat sluice).trans (if_pos rfl)
    · rw [hmasks]
      exact (hat k).trans (if_neg hk)
  · obtain ⟨x, hx, hexec⟩ := exec_evtPulse (mask := mask) ha
    have hfab := pulses_fab s r x
    obtain ⟨-, -, hrst⟩ := pulses_plain s r x
    have hup : (s.pulses r x).rst.ctrlUp = true := by rw [hrst, hu]
    have hraised (n : Nat) (hn : n < 8) (hb : mask.getLsbD n = true) : 0x908 + n ∈ (s.pulses r x).fab.raised := by
      rw [hfab]
      exact (hx _).mpr (.inr (mem_switches hn hb))
    refine ⟨_, hexec, answers_of_reply (opened_of_accepts ha) rfl rfl rfl, fun n j hn hb hj hm => ?_,
      fun n k hn hb hk hj hm => ?_, (pulses_spares r x).done⟩
    · exact done_seen hup (hraised n hn hb) (by omega) (by rw [hfab]; exact hm)
    · have hc := done_counts (s := s) hup (hraised n hn hb) (by omega) hk (by rw [hfab]; exact hj) (by rw [hfab]; exact hm)
      rw [hfab] at hc
      exact hc
  · obtain ⟨hu, hr⟩ := hu
    obtain ⟨hn, hb⟩ := hn
    obtain ⟨hk, hj⟩ := hk
    obtain ⟨x, hx, hexec⟩ := exec_evtPulse (mask := mask) ha
    have hfab := pulses_fab s r x
    obtain ⟨hready, hsat, hrst⟩ := pulses_plain s r x
    refine ⟨_, hexec, answers_of_reply (opened_of_accepts ha) rfl rfl rfl, ?_, (pulses_spares r x).done⟩
    have hd := (watches_cnt hk _).done (s := s) (u := s.pulses r x) (n := 0x908 + n) (j := j) (by omega) hj (by omega) hready
      (by rw [hsat]; exact List.Subset.refl _) (by rw [hfab, hsel]; simp) (by rw [hfab]; exact hm)
    rw [if_pos ⟨by rw [hrst, hu], by rw [hfab]; exact (hx _).mpr (.inr (mem_switches hn hb))⟩, hfab] at hd
    exact hd

end Sys2Proof.Machine

/-! Event inputs, event outputs and the report of a persistent sluice (R437, R444 to R447). -/

namespace Sys2Proof.Machine

section
variable {s t u : State} {c i j k m n sluice : Nat} {rising : Bool}

/-! ### An edge of EVT_IN (R445) -/

/-- The state once a land has moved, with the events the edge raises. -/
def State.edges (s : State) (n : Nat) (rising : Bool) (x : List Nat) : State :=
  { s with fab := { s.fab with evtIn := tput s.fab.evtIn n rising, raised := x } }

theorem evtIn_loud (hn : n < 8) (s : State) : s.silent (0x900 + n) = false := by
  rw [State.silent, if_neg (by omega), if_neg (by omega), if_neg]
  simp
  omega

/-- An edge that moves its land raises the input's event just when it is the one selected. -/
theorem exec_evtInEdge (h : n < 8 ∧ s.rst.ctrlUp = true ∧ tget false s.fab.evtIn n ≠ rising) (hr : s.fab.raised = []) :
    exec (.evtInEdge n rising) s = .next (State.done s (s.edges n rising
      (if (s.live (0x180 + n) 0).toNat = 2 ∨ ((s.live (0x180 + n) 0).toNat = 0 ∧ rising = true) ∨
        ((s.live (0x180 + n) 0).toNat = 1 ∧ rising = false) then [0x900 + n] else []))) := by
  obtain ⟨hn, hu, hne⟩ := h
  show execEvtInEdge n rising s = _
  rw [execEvtInEdge, if_pos (by simp [hn, hu, hne])]
  have hnot : ¬ rising = true ↔ rising = false := by simp
  dsimp only
  simp only [hnot]
  split
  · have hs : ({ s with fab := { s.fab with evtIn := tput s.fab.evtIn n rising } } : State).silent (0x900 + n) = false :=
      evtIn_loud hn _
    rw [State.raise, hs, hr]
    rfl
  · rw [State.edges, ← hr]
    rfl

theorem exec_evtInEdge_none (h : 8 ≤ n ∨ s.rst.ctrlUp = false ∨ tget false s.fab.evtIn n = rising) :
    exec (.evtInEdge n rising) s = .next (State.done s s) := by
  show execEvtInEdge n rising s = _
  rw [execEvtInEdge, if_neg]
  · rfl
  · rcases h with h | h | h <;> simp [h, Nat.not_lt.mpr]

/-- What the end of the step leaves of the land and the routing. -/
theorem edges_changes (s : State) (n : Nat) (rising : Bool) (x : List Nat) :
    tget false (State.done s (s.edges n rising x)).fab.evtIn n = rising ∧
      (∀ m, m ≠ n → tget false (State.done s (s.edges n rising x)).fab.evtIn m = tget false s.fab.evtIn m) ∧
      (State.done s (s.edges n rising x)).fab.masks = s.fab.masks ∧
      (State.done s (s.edges n rising x)).fab.taps = s.fab.taps ∧
      (State.done s (s.edges n rising x)).fab.sel = s.fab.sel ∧
      (State.done s (s.edges n rising x)).fab.persist = s.fab.persist ∧
      (State.done s (s.edges n rising x)).fab.raised = [] ∧
      KeptBut [.routes] s (State.done s (s.edges n rising x)) := by
  obtain ⟨-, hsel, -, hmasks, htaps, hpersist, hin⟩ := parts_of_bare (done_fab_bare s (s.edges n rising x))
  refine ⟨?_, fun m hm => ?_, hmasks, htaps, hsel, hpersist, done_raised_nil _ _, (spares_fab (by decide)).done⟩
  · rw [hin]
    exact tget_tput_self
  · rw [hin]
    exact tget_tput_other hm

/-- What of the state no event touches. -/
theorem edges_plain (s : State) (n : Nat) (rising : Bool) (x : List Nat) : (s.edges n rising x).ready = s.ready ∧
    (s.edges n rising x).saturated = s.saturated := ⟨rfl, rfl⟩

/-- A consumer that listens to the input alone moves just when the edge is one that is selected. -/
theorem edges_watched {α : Type} {obs : Fab → α} {act : α → α} {p : Prop} [Decidable p] (hu : s.rst.ctrlUp = true)
    (hn : n < 8) (hc : 0x190 ≤ c) (hj : j < 256) (w : Fab.Watches obs (fun n => s.live (0x188 + n) 0 == 1#32) c act)
    (hin : ∀ f x, obs { s.fab with evtIn := f, raised := x } = obs s.fab)
    (hsel : s.fab.sel.filter (fun e => e.1 == c) = [(c, j)]) (hm : tget [] s.fab.masks j = [0x900 + n]) :
    obs (State.done s (s.edges n rising (if p then [0x900 + n] else []))).fab =
      if p then act (obs s.fab) else obs s.fab := by
  obtain ⟨hready, hsat⟩ := edges_plain s n rising (if p then [0x900 + n] else [])
  have hd := w.done (s := s) (u := s.edges n rising (if p then [0x900 + n] else [])) hc hj (n := 0x900 + n) (by omega) hready
    (hsat ▸ List.Subset.refl _) hsel hm
  have hx : s.rst.ctrlUp = true ∧ 0x900 + n ∈ (if p then [0x900 + n] else []) ↔ p := by
    by_cases hp : p <;> simp [hp, hu]
  rw [hd]
  exact (if_congr hx rfl rfl).trans (by rw [State.edges, hin])

/-! ### A persistent sluice (R444) -/

/-- The fabric with a sluice's persistence marked. -/
def Fab.persists (f : Fab) (sluice : Nat) : Fab :=
  { f with
    persist := tput f.persist (sluice / 32) (tget 0#32 f.persist (sluice / 32) ||| BitVec.twoPow 32 (sluice % 32))
    flags := f.flags ||| 1#32 }

/-- The record of a persistent sluice. -/
def persistRecord (sluice : Nat) : ErrSpec := { code := 0x4801, source := 0x5000 + sluice }

theorem persistRecord_flags (sluice : Nat) (mt : DWord) : ((persistRecord sluice).record mt).flags.getLsbD 0 = false := by
  show (BitVec.ofNat 8 (0 ||| b2n (coalesces 0x4801))).getLsbD 0 = false
  decide

/-- The state once a sluice is reported persistent. -/
def State.persists (s : State) (sluice : Nat) : State :=
  ((({ s with fab := s.fab.persists sluice } : State).log (persistRecord sluice))).raise 0x940

theorem exec_persist (h : sluice < 256 ∧ s.rst.ctrlUp = true)
    (hp : (tget 0#32 s.fab.persist (sluice / 32)).getLsbD (sluice % 32) = false) :
    exec (.persist sluice) s = .next (State.done s (s.persists sluice)) := by
  obtain ⟨hs, hu⟩ := h
  show execPersist sluice s = _
  rw [execPersist]
  dsimp only
  rw [if_pos (by simp [hs, hu, hp])]
  rfl

theorem exec_persist_none (h : 256 ≤ sluice ∨ s.rst.ctrlUp = false ∨
    (tget 0#32 s.fab.persist (sluice / 32)).getLsbD (sluice % 32) = true) :
    exec (.persist sluice) s = .next (State.done s s) := by
  show execPersist sluice s = _
  rw [execPersist]
  dsimp only
  rw [if_neg]
  · rfl
  · rcases h with h | h | h <;> simp [h]

theorem persists_quiet (s : State) (sluice : Nat) :
    (s.persists sluice).quiet = ({ s with fab := s.fab.persists sluice } : State).quiet :=
  (raise_quiet _ _).trans (log_quiet _ _)

theorem persists_err (s : State) (sluice : Nat) : (s.persists sluice).err =
    (({ s with fab := s.fab.persists sluice } : State).log (persistRecord sluice)).err := raise_err _ _

/-- What the end of the step leaves of the fabric. -/
theorem persists_changes (s : State) (sluice : Nat) :
    tget 0#32 (State.done s (s.persists sluice)).fab.persist (sluice / 32) =
        tget 0#32 s.fab.persist (sluice / 32) ||| BitVec.twoPow 32 (sluice % 32) ∧
      (∀ n, n ≠ sluice / 32 →
        tget 0#32 (State.done s (s.persists sluice)).fab.persist n = tget 0#32 s.fab.persist n) ∧
      (State.done s (s.persists sluice)).fab.flags.getLsbD 0 = true ∧
      (State.done s (s.persists sluice)).fab.masks = s.fab.masks ∧
      (State.done s (s.persists sluice)).fab.taps = s.fab.taps ∧
      (State.done s (s.persists sluice)).fab.sel = s.fab.sel ∧
      (State.done s (s.persists sluice)).fab.evtIn = s.fab.evtIn := by
  have hbare : (State.done s (s.persists sluice)).fab.bare = (s.fab.persists sluice).bare :=
    (done_fab_bare s (s.persists sluice)).trans (congrArg State.fab (persists_quiet s sluice))
  obtain ⟨-, hsel, -, hmasks, htaps, hpersist, hin⟩ := parts_of_bare hbare
  refine ⟨?_, fun n hn => ?_, (done_advances s (s.persists sluice)).flags 0 ?_, hmasks, htaps, hsel, hin⟩
  · rw [hpersist]
    exact tget_tput_self
  · rw [hpersist]
    exact tget_tput_other hn
  · refine (raise_advances _ _).flags 0 ((advances_of_plainFab (log_plainFab _ _)).flags 0 ?_)
    show (s.fab.flags ||| 1#32).getLsbD 0 = true
    rw [BitVec.getLsbD_or]
    simp

theorem persists_kept (s : State) (sluice : Nat) : KeptBut [.routes] s (State.done s (s.persists sluice)) :=
  ((spares_fab (by decide) : Spares [.routes] s { s with fab := s.fab.persists sluice }).trans
    (.of_quiet (persists_quiet s sluice))).done

/-- The record takes the next SEQ while the data plane runs (R622). -/
theorem persists_ring (hs : sluice < 256) (hd : s.rst.dataUp = true) (hl : s.err.ring.length < 4096) :
    ((State.done s (s.persists sluice)).err.ring.map ErrEntry.key).take (s.err.ring.length + 1) =
      s.err.ring.map ErrEntry.key ++ [(s.err.newest + 1#32, 0x4801#16, 0x5000 + sluice)] := by
  have hnew := log_ring_own (s := { s with fab := s.fab.persists sluice }) (e := persistRecord sluice) hd hl
    (persistRecord_flags _ _)
  have hsrc : ((persistRecord sluice).record s.mt.mt).source.toNat = 0x5000 + sluice :=
    (BitVec.toNat_ofNat ..).trans (Nat.mod_eq_of_lt (by show 0x5000 + sluice < 2 ^ 16; omega))
  have hpre := (done_keeps s (s.persists sluice)).ring
  rw [persists_err, hnew] at hpre
  have ht := (List.prefix_iff_eq_take.mp hpre).symm
  rw [List.length_append, List.length_map, List.length_singleton] at ht
  exact ht.trans (congrArg (fun n => s.err.ring.map ErrEntry.key ++ [(s.err.newest + 1#32, 0x4801#16, n)]) hsrc)

/-- The record waits while the data plane is in reset (R628). -/
theorem persists_deferred (hs : sluice < 256) (hd : s.rst.dataUp = false) :
    ((State.done s (s.persists sluice)).err.deferred.map (fun r => (r.code, r.source.toNat))).take
        (s.err.deferred.length + 1) =
      s.err.deferred.map (fun r => (r.code, r.source.toNat)) ++ [(0x4801#16, 0x5000 + sluice)] := by
  have hsrc : ((persistRecord sluice).record s.mt.mt).source.toNat = 0x5000 + sluice :=
    (BitVec.toNat_ofNat ..).trans (Nat.mod_eq_of_lt (by show 0x5000 + sluice < 2 ^ 16; omega))
  have hpre := (done_keeps s (s.persists sluice)).deferred.map (fun r => (r.code, r.source.toNat))
  rw [persists_err, log_err_down (s := { s with fab := s.fab.persists sluice }) hd, List.map_append] at hpre
  have ht := (List.prefix_iff_eq_take.mp hpre).symm
  rw [List.length_append, List.length_map, List.length_map, List.length_singleton] at ht
  exact ht.trans (congrArg (fun n => s.err.deferred.map (fun r => (r.code, r.source.toNat)) ++ [(0x4801#16, n)]) hsrc)

/-! ### The end of an event output's pulse (R446) -/

/-- The state with a land low. -/
def State.landsLow (s : State) (n : Nat) : State :=
  { s with fab := { s.fab with evtOut := tput s.fab.evtOut n { level := false, pulse := false } } }

theorem exec_evtOutPulseEnd (h : n < 8 ∧ (tget EvtOut.init s.fab.evtOut n).pulse = true) :
    exec (.evtOutPulseEnd n) s = .next (State.done s (s.landsLow n)) := by
  obtain ⟨hn, hp⟩ := h
  show execEvtOutPulseEnd n s = _
  rw [execEvtOutPulseEnd, if_pos (by simp [hn, hp])]
  rfl

theorem exec_evtOutPulseEnd_none (h : 8 ≤ n ∨ (tget EvtOut.init s.fab.evtOut n).pulse = false) :
    exec (.evtOutPulseEnd n) s = .next (State.done s s) := by
  show execEvtOutPulseEnd n s = _
  rw [execEvtOutPulseEnd, if_neg]
  · rfl
  · rcases h with h | h <;> simp [h]

theorem silent_self (hr : s.fab.raised = []) : Silent s s := ⟨hr, rfl, List.Subset.refl _⟩

theorem silent_landsLow (hr : s.fab.raised = []) : Silent s (s.landsLow n) := ⟨hr, rfl, List.Subset.refl _⟩

theorem landsLow_kept : KeptBut [] s (State.done s (s.landsLow n)) :=
  (⟨rfl, fun p _ => by cases p <;> simp [Kept, State.landsLow]⟩ : Spares [] s (s.landsLow n)).done

end

/-- Settles O49: an edge raises its event just when it is selected (`exec_evtInEdge`), and a counter or a land that
listens to it alone then moves once (`edges_watched`); the record of a persistent sluice comes before what the step's end
adds to the log (`persists_ring`, `persists_deferred`). -/
theorem eventLandsAndPersistentSluices : Obligations.EventLandsAndPersistentSluices := by
  unfold Obligations.EventLandsAndPersistentSluices
  refine ⟨fun s n rising k j h hr hk hsel hm => ?_, fun s n rising m j h hr hk hsel hm => ?_,
    fun s n rising h hr => ⟨_, exec_evtInEdge h hr, edges_changes s n rising _⟩,
    fun s n rising h => ⟨_, exec_evtInEdge_none h, keptBut_same⟩,
    fun s sluice h hp hl hc => ?_, fun s sluice h hp => ?_,
    fun s sluice h => ⟨_, exec_persist_none h, keptBut_same⟩,
    fun s n h hr => ⟨_, exec_evtOutPulseEnd h, ?_⟩,
    fun s n h hr => ⟨_, exec_evtOutPulseEnd_none h, (silent_self hr).done_fab, keptBut_same⟩⟩
  · obtain ⟨hin, hothers, hmasks, htaps, hsel', hpersist, hraised, hkept⟩ := edges_changes s n rising
      (if (s.live (0x180 + n) 0).toNat = 2 ∨ ((s.live (0x180 + n) 0).toNat = 0 ∧ rising = true) ∨
        ((s.live (0x180 + n) 0).toNat = 1 ∧ rising = false) then [0x900 + n] else [])
    exact ⟨_, exec_evtInEdge h hr, hin, hothers, hmasks, htaps, hsel', hpersist, hraised,
      edges_watched (obs := fun f => tget 0#32 f.cnt k) h.2.1 h.1 (by omega) hk.2 (watches_cnt hk.1 _) (fun _ _ => rfl)
        hsel hm, hkept⟩
  · obtain ⟨hin, hothers, hmasks, htaps, hsel', hpersist, hraised, hkept⟩ := edges_changes s n rising
      (if (s.live (0x180 + n) 0).toNat = 2 ∨ ((s.live (0x180 + n) 0).toNat = 0 ∧ rising = true) ∨
        ((s.live (0x180 + n) 0).toNat = 1 ∧ rising = false) then [0x900 + n] else [])
    refine ⟨_, exec_evtInEdge h hr, hin, hothers, hmasks, htaps, hsel', hpersist, hraised, ?_, hkept⟩
    refine (edges_watched (obs := fun f => tget EvtOut.init f.evtOut m) h.2.1 h.1 (by omega) hk.2 (watches_evtOut hk.1 _)
      (fun _ _ => rfl) hsel hm).trans ?_
    simp only [EvtOut.strikes, beq_iff_eq]
  · obtain ⟨hs, hu, hd⟩ := h
    obtain ⟨hself, hothers, hflag, hmasks, htaps, hsel, hin⟩ := persists_changes s sluice
    exact ⟨_, exec_persist ⟨hs, hu⟩ hp, hself, hothers, hflag, hmasks, htaps, hsel, hin, persists_ring hs hd hl,
      persists_kept s sluice⟩
  · obtain ⟨hself, hothers, hflag, hmasks, htaps, hsel, hin⟩ := persists_changes s sluice
    exact ⟨_, exec_persist h hp, hself, hothers, hflag, hmasks, htaps, hsel, hin, fun hd => persists_deferred h.1 hd,
      persists_kept s sluice⟩
  · have hf := (silent_landsLow (n := n) hr).done_fab
    refine ⟨by rw [hf]; rfl, ?_, fun m hm => ?_, landsLow_kept⟩
    · rw [hf]
      exact tget_tput_self
    · rw [hf]
      exact tget_tput_other hm

end Sys2Proof.Machine

/-! The calibration commands (R408, R410 to R412, R414, R415, R432, R585). -/

namespace Sys2Proof.Machine

section
variable {s t u : State} {r : Req} {op obj aux phase : Nat} {g : Gate} {a : Answer}

/-- The end of a step that puts a request among the outstanding commands and changes the calibration. -/
def State.deferredCal (s : State) (r : Req) (op obj aux : Nat) (f : Cal → Cal) : State :=
  State.done s (((s.take r).defer r op obj aux 0).modCalib f)

/-- The request waits, and the calibration is all that has changed besides. -/
theorem deferredCal_changes (f : Cal → Cal) : Waits s (s.deferredCal r op obj aux f) r op obj aux 0 ∧
    (s.deferredCal r op obj aux f).cal = f s.cal ∧
    KeptBut [.requests, .cal] s (s.deferredCal r op obj aux f) :=
  ⟨waits_of_defer rfl, rfl, (((take_spares (by decide)).trans (defer_spares (by decide))).trans
    (spares_cal (by decide))).done⟩

/-- An answer leaves the calibration alone. -/
theorem reply_cal (a : Answer) : (u.reply r op a).cal = u.cal := by
  obtain ⟨m, c, y, z, i, e⟩ := answer_eq u (waiterOf r op u) a
  rw [State.reply, e]

/-- A request is answered once the calibration is all it has changed. -/
theorem cal_answered (ha : Accepts s r op g) (hu : Spares [.cal] (s.take r) u) (hc : u.sets = s.sets) :
    Answers s (State.done s (u.reply r op a)) r op a ∧ (State.done s (u.reply r op a)).cal = u.cal ∧
      KeptBut [.mbx, .requests, .window, .cal] s (State.done s (u.reply r op a)) := by
  refine ⟨answers_of_spares (opened_of_accepts ha) hu (by decide) (congrArg Sets.castSeq hc), ?_, ?_⟩
  · rw [done_cal, reply_cal]
  · exact ((take_spares (by decide)).trans ((hu.mono (by decide)).trans
      (answer_spares (by decide) (by decide) _ _))).done

/-! ### Telling the partner -/

theorem tellBusy_cal (b : State) : (State.tellBusy b u).cal = u.cal := by
  unfold State.tellBusy
  split <;> rfl

theorem tellBusy_sets (b : State) : (State.tellBusy b u).sets = u.sets := by
  unfold State.tellBusy
  split <;> rfl

theorem tellBusy_host (b : State) : (State.tellBusy b u).host = u.host := by
  unfold State.tellBusy
  split <;> rfl

/-! ### The commands -/

/-- A run of CAL_EXT armed, with the current source off (R408). -/
def Cal.armExt (c : Cal) (x : ExtRun) : Cal := { c with ext := some x, isrcOn := false }

theorem exec_calExt {nominal : Int} {tol rs : Nat} {date : Word} (ha : Accepts s r 0x0E01 { long := true })
    (hn : 1000000000 ≤ nominal.natAbs ∧ nominal.natAbs ≤ 10500000000)
    (hr : rs = 0 ∨ (1000000000 ≤ rs ∧ rs ≤ 10000000000)) (h2 : 2 ≤ s.cal.startStep)
    (hx : s.cal.ext = none ∧ s.twin.partnerCal = false) : exec (.calExt r nominal tol rs date) s =
      .next (State.done s (State.tellBusy (s.take r) (((s.take r).defer r 0x0E01 date.toNat 0 0).modCalib
        (fun c => c.armExt ⟨nominal, tol, rs, s.castN 0x17A 0⟩)))) := by
  obtain ⟨hlow, hhigh⟩ := hn
  obtain ⟨hext, hpartner⟩ := hx
  show execCalExt r nominal tol rs date s = _
  rw [execCalExt, umser_accepts ha]
  dsimp only
  rw [if_neg (show ¬ (nominal.natAbs < 1000000000 ∨ 10500000000 < nominal.natAbs) by omega),
    if_neg (show ¬ (rs ≠ 0 ∧ (rs < 1000000000 ∨ 10000000000 < rs)) by omega),
    if_neg (show ¬ (s.take r).cal.startStep < 2 from Nat.not_lt.mpr h2), if_neg (by simp [hext, hpartner])]
  rfl

theorem exec_calArbSelf {mask : BitVec 4} (ha : Accepts s r 0x0E02 { long := true }) (hne : mask ≠ 0#4)
    (hf : mask &&& (s.cal.arbRun ||| s.cal.arbWait) = 0#4) : exec (.calArbSelf r mask) s =
      .next (State.done s (((s.take r).defer r 0x0E02 mask.toNat 0 0).arbStart mask)) := by
  show execCalArbSelf r mask s = _
  rw [execCalArbSelf, umser_accepts ha, if_neg (by simp [hf]), if_neg hne]

theorem exec_calArbSelf_none (ha : Accepts s r 0x0E02 { long := true }) :
    exec (.calArbSelf r 0) s = .next (State.done s ((s.take r).ok r 0x0E02 [0#8] [])) := by
  show execCalArbSelf r 0 s = _
  rw [execCalArbSelf, umser_accepts ha, if_neg (by simp)]
  rfl

/-- A first channel of the mains converter that starts. -/
def Cal.startMains (c : Cal) : Cal := { c with mainsRun := some 0, mainsFirst := none, mainsCause := 0 }

/-- The end of CAL_MAINS_SELF. -/
def State.mainsStarts (s : State) (r : Req) : State :=
  (((s.take r).defer r 0x0E03 0 0 0).modCalib Cal.startMains).modIso (fun x => { x with mainsCalDue := true })

theorem exec_calMainsSelf (ha : Accepts s r 0x0E03 { long := true }) (hm : s.cal.mainsRun = none)
    (hp : s.priSeen = true) : exec (.calMainsSelf r) s = .next (State.done s (s.mainsStarts r)) := by
  have hp' : (s.take r).priSeen = true := hp
  have hp'' : ((s.take r).defer r 0x0E03 0 0 0).priSeen = true := hp
  have hm' : ((s.take r).defer r 0x0E03 0 0 0).cal.mainsRun = none := hm
  show execCalMainsSelf r s = _
  rw [execCalMainsSelf, umser_accepts ha, if_neg (by simp [hm]), if_neg (by simp [hp']), State.mainsStart,
    if_neg (by simp [hm', hp''])]
  rfl

theorem mainsStarts_changes : Waits s (State.done s (s.mainsStarts r)) r 0x0E03 0 0 0 ∧
    KeptBut [.requests, .cal, .iso] s (State.done s (s.mainsStarts r)) :=
  ⟨waits_of_defer rfl, (((take_spares (by decide)).trans (defer_spares (by decide))).trans
    ((spares_cal (by decide)).trans (spares_iso (by decide)))).done⟩

theorem assign_spares {l : List Piece} (hl : .cal ∈ l) (v i : Int) (date : Word) (src : Nat) :
    Spares l u (u.assign v i date src) := spares_cal hl

theorem exec_calRefWrite {vRef iCal : Int} {date : Word} (ha : Accepts s r 0x0E04 {})
    (hv : ((vRef - 7000000000) * 1000).natAbs ≤ 7000000000)
    (hi : ((iCal - 1000000000) * 1000).natAbs ≤ 1000000000) : exec (.calRefWrite r vRef iCal date) s =
      .next (State.done s (((s.take r).assign vRef iCal date 2).ok r 0x0E04 [] [])) := by
  have hv' : inBand vRef vRefNominal = true := decide_eq_true hv
  have hi' : inBand iCal iCalNominal = true := decide_eq_true hi
  show execCalRefWrite r vRef iCal date s = _
  rw [execCalRefWrite, umser_accepts ha, if_neg (by simp [hv']), if_neg (by simp [hi'])]

theorem exec_calSpare (ha : Accepts s r 0x0E05 { long := true }) (h2 : 2 ≤ s.cal.startStep)
    (hs : s.cal.slotDue = 0#4 ∧ s.cal.slotRun = 0#4) : exec (.calSpare r) s =
      .next (s.deferredCal r 0x0E05 (presentBuses s.groups).toNat 0
        (fun c => { c with slotDue := presentBuses s.groups })) := by
  obtain ⟨hdue, hrun⟩ := hs
  show execCalSpare r s = _
  rw [execCalSpare, umser_accepts ha, if_neg (show ¬ (s.take r).cal.startStep < 2 from Nat.not_lt.mpr h2),
    if_neg (by simp [hdue, hrun])]
  rfl

/-- The current source as CAL_ISRC sets it (R411). -/
def Cal.source (c : Cal) (mode : Nat) : Cal := { c with isrcOn := mode != 0, isrcNeg := mode == 2 }

theorem exec_calIsrc {mode : Nat} (ha : Accepts s r 0x0E06 {}) (hm : mode ≤ 2)
    (hx : s.cal.ext = none ∧ s.twin.partnerCal = false) : exec (.calIsrc r mode) s =
      .next (State.done s ((State.tellBusy (s.take r) ((s.take r).modCalib (fun c => c.source mode))).ok r 0x0E06
        (leBytes 4 (w32 s.cal.iCal).toNat) [])) := by
  obtain ⟨hext, hpartner⟩ := hx
  show execCalIsrc r mode s = _
  rw [execCalIsrc, umser_accepts ha, if_neg (by omega), if_neg (by simp [hext, hpartner])]
  rfl

theorem exec_calStatusRead (ha : Accepts s r 0x0E07 {}) : exec (.calStatusRead r) s =
    .next (State.done s ((s.take r).ok r 0x0E07 [] (leBytes 4 s.calStatus.toNat ++ leBytes 4 s.cal.flags.toNat ++
      (List.range 16).flatMap (fun g => leBytes 4 (s.calPass g).toNat) ++
        leBytes 8 (BitVec.ofInt 64 s.cal.vRef).toNat ++ leBytes 4 (w32 s.cal.iCal).toNat ++
          leBytes 4 s.cal.date.toNat))) := by
  show execCalStatusRead r s = _
  rw [execCalStatusRead, umser_accepts ha]
  rfl

end

/-- Settles O27: a run waits with the calibration changed (`deferredCal_changes`), a write or a setting of the
source is answered with it changed (`cal_answered`). -/
theorem calibrationCommands : Obligations.CalibrationCommands := by
  unfold Obligations.CalibrationCommands
  refine ⟨fun s r nominal tol rs date ha hn hr h2 hx => ⟨_, exec_calExt ha hn hr h2 hx, ?_⟩,
    fun s r mask wait ha hne hf hw => ⟨_, exec_calArbSelf ha hne hf, ?_⟩,
    fun s r ha => ⟨_, exec_calArbSelf_none ha, take_ok_done ha⟩,
    fun s r ha hm hp => ⟨_, exec_calMainsSelf ha hm hp, ?_⟩,
    fun s r vRef iCal date ha hv hi => ⟨_, exec_calRefWrite ha hv hi, ?_⟩,
    fun s r ha h2 hs => ⟨_, exec_calSpare ha h2 hs, deferredCal_changes _⟩,
    fun s r mode ha hm hx => ⟨_, exec_calIsrc ha hm hx, ?_⟩,
    fun s r ha => ⟨_, exec_calStatusRead ha, take_ok_done ha⟩⟩
  · refine ⟨waits_of_defer (by rw [tellBusy_host]; rfl), by rw [done_cal, tellBusy_cal]; rfl, ?_⟩
    exact (((take_spares (by decide)).trans (defer_spares (by decide))).trans
      ((spares_cal (by decide)).trans (tellBusy_spares _ _))).done
  · subst hw
    exact deferredCal_changes (r := r) (op := 0x0E02) (obj := mask.toNat) (aux := 0) _
  · obtain ⟨hwaits, hkept⟩ := mainsStarts_changes (s := s) (r := r)
    exact ⟨hwaits, rfl, rfl, hkept⟩
  · exact cal_answered ha (assign_spares (by decide) _ _ _ _) rfl
  · obtain ⟨hans, hcal, hkept⟩ := cal_answered (a := ⟨stOk, 0, leBytes 4 (w32 s.cal.iCal).toNat, [], false⟩) ha
      ((spares_cal (x := s.cal.source mode) (by decide)).trans (tellBusy_spares _ (s.take r)))
      ((tellBusy_sets _).trans rfl)
    exact ⟨hans, hcal.trans ((tellBusy_cal _).trans rfl), hkept⟩

end Sys2Proof.Machine

/-! GRP_RESET meets a live port that its own gang does not hold (R144, R363). -/

namespace Sys2Proof.Machine

section

/-- A GRP_RESET of group 0 that may begin, where port 0 regulates and leaves with a figure whose members do not name
it. No row leaves a port so (`State.leaveStages` lists the ports themselves); the statement speaks of every state. -/
def strayReset : State :=
  { State.reset with
    rst := { State.reset.rst with mgmtUp := true }
    host := { State.reset.host with mbx := [(0, { Mbx.init with state := .opened })] }
    sp := [(0, { Sp.init with force := { Force.init with
      out := .regulating, leave := some { fig := 0, mode := 0, members := [] } } })] }

/-- The request of mailbox 0. -/
def resetRequest : Req := { mbx := 0, tag := 0, outAddr := 0, outLen := 0, barrier := false, set := false }

theorem strayReset_accepts : Accepts strayReset resetRequest 0x1004 { long := true, standbyOk := false } := ⟨rfl, rfl⟩

/-- The trip that the reset asks for reaches no port. -/
theorem grpReset_strayReset (t : State) (h : exec (.grpReset resetRequest 1#16) strayReset = .next t) :
    (t.spAt 0).force.out = .regulating := by
  obtain rfl := Host.Outcome.next.inj h
  rw [done_spAt]
  rfl

/-- Refutes O29: GRP_RESET trips the live ports of its groups, says its last clause, and port 0 of `strayReset` goes
on regulating. -/
theorem not_errorFuseAndGroupCommands : ¬ Obligations.ErrorFuseAndGroupCommands := by
  intro h
  obtain ⟨-, -, -, -, -, -, reset⟩ := h
  obtain ⟨t, ht, -, -, htrips, -⟩ := reset strayReset resetRequest 1#16 strayReset_accepts (by decide) (by decide)
  obtain ⟨hout, -⟩ := htrips 0 (by decide) rfl rfl rfl rfl
  rw [grpReset_strayReset t ht] at hout
  exact absurd hout (by decide)

end

end Sys2Proof.Machine

/-! The runs of the arbiters and of the mains converter (R412 to R414, R422, R423): what each outcome leaves of the
calibration, and of the command that waits for it. -/

namespace Sys2Proof.Machine

section
variable {s u : State} {c : Cal} {x : SelfCal} {l : List Piece} {a arb k : Nat} {o : Outstanding}

/-! ### The block of calibration -/

theorem raise_cal (s : State) (e : Nat) : (s.raise e).cal = s.cal := cal_of_quiet (raise_quiet s e)

/-- A failure noted in the block: its flag and its count (R422). -/
def Cal.fails (c : Cal) (m : Word) : Cal := { c with flags := c.flags ||| m, failCnt := bump c.failCnt }

theorem calFailed_cal (s : State) (m : Word) (cause object index source : Nat) :
    ((s.calFlag m).calFail cause object index source).cal = s.cal.fails m := by
  unfold State.calFail
  rw [cal_of_quiet ((raise_quiet _ _).trans (log_quiet _ _))]
  rfl

theorem calFailed_spares (hl : .cal ∈ l) (s : State) (m : Word) (cause object index source : Nat) :
    Spares l s ((s.calFlag m).calFail cause object index source) :=
  (spares_cal hl).trans (calFail_spares _ hl _ _ _ _)

/-! ### Judging readings -/

theorem not_within {z : Int} {n : Nat} : (!within z n) = decide (n < z.natAbs) := by
  rw [within, ← decide_not, decide_eq_decide, Nat.not_le]

/-- The causes for which an arbiter's readings are refused, in their order (Table 15.7). -/
theorem judgeArb_eq (x : SelfCal) (f last : ArbFactors) (accepted : Bool) : judgeArb x f last (!accepted) =
    (if x.rms.any (fun r => 500 < r) = true then 1 else if 8 < x.drift then 5
      else if 10000 < f.ofs.natAbs ∨ 300000 < f.gain.natAbs then 6
      else if accepted = true ∧ (2000 < (f.ofs - last.ofs).natAbs ∨ 5000 < (f.gain - last.gain).natAbs) then 7
      else 0) := by
  have hr : SelfCal_refused x = if x.rms.any (fun r => 500 < r) = true then 1 else if 8 < x.drift then 5 else 0 := rfl
  rw [judgeArb, hr]
  by_cases hn : x.rms.any (fun r => 500 < r) = true
  · simp only [if_pos hn]
    rfl
  · by_cases hd : 8 < x.drift
    · simp only [if_neg hn, if_pos hd]
      rfl
    · simp only [if_neg hn, if_neg hd, Bool.not_and, not_within, Bool.not_not, bne_self_eq_false, Bool.false_eq_true,
        if_false, Bool.or_eq_true, Bool.and_eq_true, decide_eq_true_eq]

/-- The causes for which the readings of a mains converter channel are refused, in their order. -/
theorem judgeMains_eq (x : SelfCal) (f last : ArbFactors) (accepted : Bool) : judgeMains x f last (!accepted) =
    (if x.rms.any (fun r => 500 < r) = true then 1 else if 8 < x.drift then 5
      else if 50000 < f.ofs.natAbs ∨ 500000 < f.gain.natAbs then 6
      else if accepted = true ∧ (20000 < (f.gain - last.gain).natAbs) then 7 else 0) := by
  have hr : SelfCal_refused x = if x.rms.any (fun r => 500 < r) = true then 1 else if 8 < x.drift then 5 else 0 := rfl
  rw [judgeMains, hr]
  by_cases hn : x.rms.any (fun r => 500 < r) = true
  · simp only [if_pos hn]
    rfl
  · by_cases hd : 8 < x.drift
    · simp only [if_neg hn, if_pos hd]
      rfl
    · simp only [if_neg hn, if_neg hd, Bool.not_and, not_within, Bool.not_not, bne_self_eq_false, Bool.false_eq_true,
        if_false, Bool.or_eq_true, Bool.and_eq_true, decide_eq_true_eq]

/-! ### One arbiter -/

/-- The cause of an arbiter's outcome, 0 when it is accepted. -/
def Cal.arbJudged (c : Cal) (a : Nat) (x : SelfCal) : Nat :=
  judgeArb x (SelfCal_factors x c.vRef) (tget arbZero c.arb a) (!c.arbAccepted.getLsbD a)

/-- The block once an arbiter has taken an outcome. -/
def Cal.arbOutcome (c : Cal) (a : Nat) (x : SelfCal) : Cal :=
  if c.arbJudged a x = 0 then
    { c with arb := tput c.arb a (SelfCal_factors x c.vRef), arbAccepted := c.arbAccepted ||| BitVec.twoPow 4 a }
  else c.fails 4#32

theorem arbTake_cause : (s.arbTake a x).2 = s.cal.arbJudged a x := rfl

theorem arbTake_cal : (s.arbTake a x).1.cal = s.cal.arbOutcome a x := by
  show (State.raise _ _).cal = _
  rw [raise_cal, apply_ite State.cal, calFailed_cal]
  rfl

theorem arbTake_spares (hl : .cal ∈ l) : Spares l s (s.arbTake a x).1 :=
  (Spares.ite (spares_cal hl) (calFailed_spares hl _ _ _ _ _ _)).trans (.of_quiet (raise_quiet _ _))

theorem arbOutcome_eq (c : Cal) (a : Nat) (x : SelfCal) : c.arbOutcome a x =
    { c with
      arb := (c.arbOutcome a x).arb
      arbAccepted := if c.arbJudged a x = 0 then c.arbAccepted ||| BitVec.twoPow 4 a else c.arbAccepted
      flags := if c.arbJudged a x = 0 then c.flags else c.flags ||| 4#32
      failCnt := if c.arbJudged a x = 0 then c.failCnt else bump c.failCnt } := by
  unfold Cal.arbOutcome
  split <;> rfl

theorem arbOutcome_self (c : Cal) (a : Nat) (x : SelfCal) : tget? (c.arbOutcome a x).arb a =
    if c.arbJudged a x = 0 then some (SelfCal_factors x c.vRef) else tget? c.arb a := by
  unfold Cal.arbOutcome
  split
  · exact tget?_tput_self
  · rfl

theorem arbOutcome_other (c : Cal) (x : SelfCal) {j : Nat} (hj : j ≠ a) :
    tget? (c.arbOutcome a x).arb j = tget? c.arb j := by
  unfold Cal.arbOutcome
  split
  · exact tget?_tput_other hj
  · rfl

/-! ### The commands that wait for an arbiter -/

/-- A command that waits for an arbiter, once it knows of its outcome. -/
def Outstanding.notes (o : Outstanding) (a cause : Nat) : Outstanding :=
  if o.obj.testBit a then
    { o with
      obj := o.obj - 2 ^ a
      aux := if cause = 0 then o.aux + 2 ^ a else if o.aux < 16 then o.aux + 16 * cause else o.aux }
  else o

/-- The answer of a CAL_ARB_SELF whose arbiters have all ended. -/
def arbAnswer (o : Outstanding) : Answer :=
  { status := if o.aux < 16 then stOk else stCalFail, detail := o.aux / 16, result := leBytes 1 (o.aux % 16) }

theorem arbEnded_eq (u : State) (a cause : Nat) : u.arbEnded a cause =
    (u.modOutst 0x0E02 (fun o => o.notes a cause)).completeAll (fun o => o.opcode == 0x0E02 && o.obj == 0) arbAnswer :=
  rfl

/-- A command that an arbiter's outcome reaches: it waits for it, or for none. -/
def Outstanding.arbWaits (o : Outstanding) (a : Nat) : Bool := o.opcode == 0x0E02 && (o.obj == 0 || o.obj.testBit a)

/-- The outstanding commands once an arbiter's outcome is noted. -/
def noted (xs : List Outstanding) (a cause : Nat) : List Outstanding :=
  xs.map (fun o => if o.opcode = 0x0E02 then o.notes a cause else o)

theorem noted_of_not_waits (h : o.arbWaits a = false) : (if o.opcode = 0x0E02 then o.notes a k else o) = o ∧
    (o.opcode == 0x0E02 && o.obj == 0) = false := by
  by_cases hop : o.opcode = 0x0E02
  · have hw : (o.obj == 0 || o.obj.testBit a) = false := by simpa [Outstanding.arbWaits, hop] using h
    obtain ⟨hz, hb⟩ := Bool.or_eq_false_iff.mp hw
    rw [if_pos hop, Outstanding.notes, if_neg (by simp [hb]), hz, Bool.and_false]
    exact ⟨rfl, rfl⟩
  · rw [if_neg hop]
    exact ⟨rfl, by simp [hop]⟩

theorem completeAll_none {q : Outstanding → Bool} {f : Outstanding → Answer} (h : ∀ x ∈ u.host.outst, q x = false) :
    u.completeAll q f = u := by
  have hnone : u.host.outst.filter q = [] := List.filter_eq_nil_iff.mpr fun x hx => by simp [h x hx]
  have hall : u.host.outst.filter (fun x => !q x) = u.host.outst := List.filter_eq_self.mpr fun x hx => by simp [h x hx]
  rw [State.completeAll, hnone, hall]
  rfl

/-- Where no command waits for the arbiter, its outcome reaches none. -/
theorem arbEnded_none (h : u.host.outst.any (fun o => o.arbWaits a) = false) : u.arbEnded a k = u := by
  have hno (x : Outstanding) (hx : x ∈ u.host.outst) : x.arbWaits a = false := by simpa using List.any_eq_false.mp h x hx
  have hmap : noted u.host.outst a k = u.host.outst := by
    rw [noted, List.map_congr_left fun x hx => (noted_of_not_waits (hno x hx)).1, List.map_id']
  have hmod : u.modOutst 0x0E02 (fun o => o.notes a k) = u := by
    show ({ u with host := { u.host with outst := noted u.host.outst a k } } : State) = u
    rw [hmap]
  rw [arbEnded_eq, hmod]
  exact completeAll_none fun x hx => (noted_of_not_waits (k := k) (hno x hx)).2

/-- A list that holds one element of a kind, taken apart at it. -/
theorem split_of_filter {q : Outstanding → Bool} {xs : List Outstanding} (h : xs.filter q = [o]) :
    ∃ as bs, xs = as ++ o :: bs ∧ (∀ x ∈ as, q x = false) ∧ (∀ x ∈ bs, q x = false) ∧ q o = true := by
  obtain ⟨as, bs, rfl, has, ho, hbs⟩ := List.filter_eq_cons_iff.mp h
  exact ⟨as, bs, rfl, fun x hx => by simpa using has x hx,
    fun x hx => by simpa using List.filter_eq_nil_iff.mp hbs x hx, ho⟩

theorem noted_split {as bs : List Outstanding} (has : ∀ x ∈ as, x.arbWaits a = false)
    (hbs : ∀ x ∈ bs, x.arbWaits a = false) (ho : o.arbWaits a = true) :
    noted (as ++ o :: bs) a k = as ++ o.notes a k :: bs := by
  have hop : o.opcode = 0x0E02 := by
    simp only [Outstanding.arbWaits, Bool.and_eq_true, beq_iff_eq] at ho
    exact ho.1
  have h (xs : List Outstanding) (hx : ∀ x ∈ xs, x.arbWaits a = false) :
      xs.map (fun o => if o.opcode = 0x0E02 then o.notes a k else o) = xs := by
    rw [List.map_congr_left fun x hm => (noted_of_not_waits (hx x hm)).1, List.map_id']
  rw [noted, List.map_append, List.map_cons, h as has, h bs hbs, if_pos hop]

/-- The commands with others than this one in them. -/
theorem filter_ne_split {as bs : List Outstanding} (has : o ∉ as) (hbs : o ∉ bs) :
    (as ++ o :: bs).filter (fun y => y != o) = as ++ bs := by
  rw [List.filter_append, List.filter_cons_of_neg (by simp),
    List.filter_eq_self.mpr fun x hx => by simpa using ne_of_mem_of_not_mem hx has,
    List.filter_eq_self.mpr fun x hx => by simpa using ne_of_mem_of_not_mem hx hbs]

theorem map_split {as bs : List Outstanding} (p : Outstanding) (has : o ∉ as) (hbs : o ∉ bs) :
    (as ++ o :: bs).map (fun y => if y = o then p else y) = as ++ p :: bs := by
  have h (xs : List Outstanding) (hx : o ∉ xs) : xs.map (fun y => if y = o then p else y) = xs := by
    rw [List.map_congr_left fun y hy => if_neg (ne_of_mem_of_not_mem hy hx), List.map_id']
  rw [List.map_append, List.map_cons, h as has, h bs hbs, if_pos rfl]

/-- A state with other outstanding commands. -/
def State.withOutst (s : State) (xs : List Outstanding) : State := { s with host := { s.host with outst := xs } }

theorem withOutst_spares (hr : .requests ∈ l) (s : State) (xs : List Outstanding) : Spares l s (s.withOutst xs) :=
  ⟨rfl, fun p hp => by cases p <;> simp_all [Kept, State.withOutst]⟩

/-- The only command that waits for the arbiter, with others still to end: it notes the outcome. -/
theorem arbEnded_notes (h : u.host.outst.filter (fun o => o.arbWaits a) = [o]) (hb : o.obj.testBit a = true)
    (hne : o.obj ≠ 2 ^ a) : u.arbEnded a k =
      u.withOutst (u.host.outst.map (fun y => if y = o then o.notes a k else y)) := by
  obtain ⟨as, bs, hx, has, hbs, ho⟩ := split_of_filter h
  have hoa : o ∉ as := fun hm => by simp [has o hm] at ho
  have hob : o ∉ bs := fun hm => by simp [hbs o hm] at ho
  have hobj : (o.notes a k).obj ≠ 0 := by
    rw [Outstanding.notes, if_pos hb]
    show o.obj - 2 ^ a ≠ 0
    have := Nat.ge_two_pow_of_testBit hb
    omega
  have hmod : u.modOutst 0x0E02 (fun o => o.notes a k) = u.withOutst (as ++ o.notes a k :: bs) := by
    rw [← noted_split has hbs ho, ← hx]
    rfl
  rw [hx, map_split _ hoa hob, arbEnded_eq, hmod]
  refine completeAll_none fun y hy => ?_
  rcases List.mem_append.mp hy with hy | hy
  · exact (noted_of_not_waits (k := k) (has y hy)).2
  · rcases List.mem_cons.mp hy with rfl | hy
    · simp [hobj]
    · exact (noted_of_not_waits (k := k) (hbs y hy)).2

theorem dropFirst_split {as bs : List Outstanding} (has : o ∉ as) :
    dropFirst (fun y => y == o) (as ++ o :: bs) = as ++ bs := by
  induction as with
  | nil => simp [dropFirst]
  | cons y as ih =>
    obtain ⟨hne, has⟩ := not_or.mp (List.mem_cons.not.mp has)
    rw [List.cons_append, dropFirst, if_neg (by simpa using Ne.symm hne), ih has, List.cons_append]

/-- The only command that waits for the arbiter, and for no other, completes. -/
theorem arbEnded_answers (h : u.host.outst.filter (fun o => o.arbWaits a) = [o]) (ho2 : o.obj = 2 ^ a) :
    u.arbEnded a k = u.complete (fun y => y == o) (arbAnswer (o.notes a k)) ∧
      u.host.outst.find? (fun y => y == o) = some o ∧
      dropFirst (fun y => y == o) u.host.outst = u.host.outst.filter (fun y => y != o) := by
  obtain ⟨as, bs, hx, has, hbs, ho⟩ := split_of_filter h
  have hoa : o ∉ as := fun hm => by simp [has o hm] at ho
  have hob : o ∉ bs := fun hm => by simp [hbs o hm] at ho
  have hb : o.obj.testBit a = true := by rw [ho2, Nat.testBit_two_pow_self]
  have hop : o.opcode = 0x0E02 := by
    simp only [Outstanding.arbWaits, Bool.and_eq_true, beq_iff_eq] at ho
    exact ho.1
  have hn : o.notes a k = { o with obj := (o.notes a k).obj, aux := (o.notes a k).aux } := by
    rw [Outstanding.notes, if_pos hb]
  have hobj : (o.notes a k).obj = 0 := by
    rw [Outstanding.notes, if_pos hb]
    show o.obj - 2 ^ a = 0
    omega
  have hq : ((o.notes a k).opcode == 0x0E02 && (o.notes a k).obj == 0) = true := by
    rw [hobj, hn]
    simp [hop]
  have hmod : u.modOutst 0x0E02 (fun o => o.notes a k) = u.withOutst (as ++ o.notes a k :: bs) := by
    rw [← noted_split has hbs ho, ← hx]
    rfl
  have hone : (as ++ o.notes a k :: bs).filter (fun o => o.opcode == 0x0E02 && o.obj == 0) = [o.notes a k] := by
    rw [List.filter_append, List.filter_cons_of_pos (p := fun o : Outstanding => o.opcode == 0x0E02 && o.obj == 0) hq,
      List.filter_eq_nil_iff.mpr fun x hx => by simp only [(noted_of_not_waits (k := k) (has x hx)).2, Bool.false_eq_true, not_false_eq_true],
      List.filter_eq_nil_iff.mpr fun x hx => by simp only [(noted_of_not_waits (k := k) (hbs x hx)).2, Bool.false_eq_true, not_false_eq_true]]
    rfl
  have hrest : (as ++ o.notes a k :: bs).filter (fun o => !(o.opcode == 0x0E02 && o.obj == 0)) = as ++ bs := by
    rw [List.filter_append, List.filter_cons_of_neg (by simp [hq]),
      List.filter_eq_self.mpr fun x hx => by rw [(noted_of_not_waits (k := k) (has x hx)).2]; rfl,
      List.filter_eq_self.mpr fun x hx => by rw [(noted_of_not_waits (k := k) (hbs x hx)).2]; rfl]
  have hw : (o.notes a k).waiter = o.waiter ∧ (o.notes a k).orphan = o.orphan := by rw [hn]; exact ⟨rfl, rfl⟩
  have he : u.arbEnded a k = [o.notes a k].foldl
      (fun t o => if o.orphan then t else t.answer o.waiter (arbAnswer o)) (u.withOutst (as ++ bs)) := by
    rw [← hone, ← hrest, arbEnded_eq, hmod]
    rfl
  have hfind : u.host.outst.find? (fun y => y == o) = some o := by
    rw [hx, List.find?_append, List.find?_eq_none.mpr fun y hy => by simpa using ne_of_mem_of_not_mem hy hoa,
      Option.none_or, List.find?_cons_of_pos (by simp)]
  have hun : u.unlist (fun y => y == o) = u.withOutst (as ++ bs) := by
    rw [State.unlist, hx, dropFirst_split hoa]
    rfl
  rw [complete_found _ hfind, hun]
  refine ⟨?_, hfind, by rw [hx, dropFirst_split hoa, filter_ne_split hoa hob]⟩
  rw [he, List.foldl_cons, List.foldl_nil, hw.1, hw.2]

/-! ### The start sequence goes on (R429) -/

/-- Nothing that the present step of the sequence runs has ended. -/
def Cal.staysIn (c : Cal) : Prop :=
  (c.startStep ≠ 2 ∨ c.arbRun ≠ 0#4 ∨ c.arbWait ≠ 0#4) ∧ (c.startStep ≠ 3 ∨ c.slotDue ≠ 0#4 ∨ c.slotRun ≠ 0#4)

theorem calAdvance_stays (h : u.cal.staysIn) : u.calAdvance = u := by
  obtain ⟨h2, h3⟩ := h
  unfold State.calAdvance
  simp only [Bool.and_eq_true, decide_eq_true_eq, beq_iff_eq]
  rw [if_neg (by tauto), if_neg (by tauto)]

theorem calAdvance_two (h2 : u.cal.startStep = 2) (hr : u.cal.arbRun = 0#4) (hw : u.cal.arbWait = 0#4) :
    u.calAdvance = u.modCalib (fun c => { c with startStep := 3, slotDue := presentBuses u.groups }) := by
  unfold State.calAdvance
  rw [if_pos (by simp [h2, hr, hw])]

/-- Every group's rotation begins at slice 0. -/
def State.rotateAll (s : State) : State :=
  (List.range s.groups).foldl (fun t g => t.modCal g (fun x => { x with rotating := true, next := 0 }))
    (s.modCalib (fun x => { x with startStep := 4 }))

theorem calAdvance_three (h3 : u.cal.startStep = 3) (hd : u.cal.slotDue = 0#4) (hr : u.cal.slotRun = 0#4) :
    u.calAdvance = u.rotateAll := by
  unfold State.calAdvance
  rw [if_neg (by simp [h3]), if_pos (by simp [h3, hd, hr])]
  rfl

/-- A change of the calibration of groups, one after another, leaves the rest of the block. -/
theorem foldl_modCal_cal (f : CalGrp → CalGrp) (gs : List Nat) (s : State) :
    (gs.foldl (fun t g => t.modCal g f) s).cal = { s.cal with grp := (gs.foldl (fun t g => t.modCal g f) s).cal.grp } := by
  induction gs generalizing s with
  | nil => rfl
  | cons g gs ih => exact (ih (s.modCal g f)).trans rfl

theorem foldl_modCal_at (f : CalGrp → CalGrp) (gs : List Nat) (hn : gs.Nodup) (s : State) (g : Nat) :
    (gs.foldl (fun t g => t.modCal g f) s).calAt g = if g ∈ gs then f (s.calAt g) else s.calAt g := by
  induction gs generalizing s with
  | nil => rfl
  | cons b gs ih =>
    obtain ⟨hb, hn⟩ := List.nodup_cons.mp hn
    rw [List.foldl_cons, ih hn]
    by_cases h : g = b
    · subst h
      rw [if_neg hb, calAt_modCal_self, if_pos List.mem_cons_self]
    · simp only [calAt_modCal_other _ _ h, List.mem_cons, h, false_or]

theorem rotateAll_cal (s : State) : s.rotateAll.cal = { s.cal with startStep := 4, grp := s.rotateAll.cal.grp } :=
  foldl_modCal_cal _ _ _

theorem rotateAll_at (s : State) (g : Nat) : s.rotateAll.calAt g =
    if g < s.groups then { s.calAt g with rotating := true, next := 0 } else s.calAt g := by
  rw [State.rotateAll, foldl_modCal_at _ _ List.nodup_range]
  simp only [List.mem_range]
  rfl

theorem rotateAll_spares (hl : .cal ∈ l) (s : State) : Spares l s s.rotateAll :=
  (spares_cal hl).trans (.foldl (fun _ _ => spares_cal hl) _ _)

/-! ### ARBITER_SELF_CAL_DUE and ARBITER_SELF_CAL_END -/

/-- Arbiters of a mask start, but those that a slot or CAL_EXT uses. -/
theorem arbStart_cal {mask wait : BitVec 4} (h : wait = if s.cal.ext.isSome then mask else mask &&& s.cal.slotRun) :
    s.arbStart mask = s.modCalib (fun c =>
      { c with arbRun := c.arbRun ||| (mask &&& ~~~wait), arbWait := c.arbWait ||| wait }) := by
  subst h
  rfl

theorem mainsStart_spares (hc : .cal ∈ l) (hi : .iso ∈ l) (s : State) : Spares l s s.mainsStart := by
  unfold State.mainsStart
  exact .ite .refl ((spares_cal hc).trans (spares_iso hi))

/-- A mains converter run starts where the primary side is seen and no run is on. -/
theorem mainsStart_changes {m : Bool} (hm : m = (s.priSeen && s.cal.mainsRun.isNone)) : s.mainsStart.cal =
    { s.cal with
      mainsRun := if m = true then some 0 else s.cal.mainsRun
      mainsFirst := if m = true then none else s.cal.mainsFirst
      mainsCause := if m = true then 0 else s.cal.mainsCause } ∧
    s.mainsStart.iso = { s.iso with mainsCalDue := s.iso.mainsCalDue || m } := by
  subst hm
  unfold State.mainsStart
  split
  next h =>
    have hno : (s.priSeen && s.cal.mainsRun.isNone) = false := by
      rcases Bool.or_eq_true_iff.mp h with h | h
      · rw [Option.isSome_iff_exists] at h
        obtain ⟨n, h⟩ := h
        simp [h]
      · simp only [Bool.not_eq_true'] at h
        rw [h, Bool.false_and]
    rw [hno, Bool.or_false]
    exact ⟨rfl, rfl⟩
  next h =>
    have hyes : (s.priSeen && s.cal.mainsRun.isNone) = true := by simpa [and_comm] using h
    rw [hyes, Bool.or_true]
    exact ⟨rfl, rfl⟩

theorem exec_arbiterSelfCalDue (hm : s.rst.mgmtUp = true) (h2 : 2 ≤ s.cal.startStep) (hc : s.castN 0x172 0 ≠ 0) :
    exec .arbiterSelfCalDue s = .next (State.done s (s.arbStart (15#4 &&& ~~~s.cal.arbRun)).mainsStart) := by
  show execArbiterSelfCalDue s = _
  rw [execArbiterSelfCalDue, if_pos (by simp [hm, h2, hc])]
  rfl

theorem exec_arbiterSelfCalDue_none (h : s.rst.mgmtUp = false ∨ s.cal.startStep < 2 ∨ s.castN 0x172 0 = 0) :
    exec .arbiterSelfCalDue s = .next (State.done s s) := by
  show execArbiterSelfCalDue s = _
  rw [execArbiterSelfCalDue, if_neg ?_]
  · rfl
  · simp only [Bool.and_eq_true, decide_eq_true_eq, bne_iff_ne, ne_eq, not_and, not_not]
    intro ⟨hm, h2⟩
    rcases h with h | h | h
    · exact absurd hm (by simp [h])
    · omega
    · exact h

/-- The state with an arbiter's run ended and its outcome taken. -/
def State.arbRan (s : State) (arb : Nat) (x : SelfCal) : State :=
  ((s.modCalib (fun c => { c with arbRun := c.arbRun &&& ~~~(BitVec.twoPow 4 arb) })).arbTake arb x).1

/-- The block with that run ended. -/
def Cal.endRun (c : Cal) (arb : Nat) : Cal := { c with arbRun := c.arbRun &&& ~~~(BitVec.twoPow 4 arb) }

theorem arbRan_cal : (s.arbRan arb x).cal = (s.cal.endRun arb).arbOutcome arb x := arbTake_cal

theorem arbRan_spares (hl : .cal ∈ l) : Spares l s (s.arbRan arb x) := (spares_cal hl).trans (arbTake_spares hl)

theorem exec_arbiterSelfCalEnd (hm : s.rst.mgmtUp = true ∧ arb < 4 ∧ s.cal.arbRun.getLsbD arb = true) :
    exec (.arbiterSelfCalEnd arb x) s =
      .next (State.done s ((s.arbRan arb x).arbEnded arb (s.cal.arbJudged arb x)).calAdvance) := by
  obtain ⟨hm, hlt, hr⟩ := hm
  show execArbiterSelfCalEnd arb x s = _
  rw [execArbiterSelfCalEnd, if_pos (by simp [hm, hlt, hr])]
  rfl

theorem exec_arbiterSelfCalEnd_none (h : s.rst.mgmtUp = false ∨ 4 ≤ arb ∨ s.cal.arbRun.getLsbD arb = false) :
    exec (.arbiterSelfCalEnd arb x) s = .next (State.done s s) := by
  show execArbiterSelfCalEnd arb x s = _
  rw [execArbiterSelfCalEnd, if_neg ?_]
  · rfl
  · simp only [Bool.and_eq_true, decide_eq_true_eq, not_and, Bool.not_eq_true]
    intro ⟨hm, hlt⟩
    rcases h with h | h | h
    · exact absurd hm (by simp [h])
    · omega
    · exact h

/-- The outcome in the block of a state whose run of the arbiter ends. -/
theorem arbRan_judged {f : ArbFactors}
    (hf : f = ⟨rdiv x.zero 21, rdiv ((x.plus - x.minus) * 1000000000) (2 * s.cal.vRef.toNat) - 1000000000⟩)
    (hk : k = (if x.rms.any (fun x => 500 < x) = true then 1 else if 8 < x.drift then 5
      else if 10000 < f.ofs.natAbs ∨ 300000 < f.gain.natAbs then 6
      else if s.cal.arbAccepted.getLsbD arb = true ∧ (2000 < (f.ofs - (tget arbZero s.cal.arb arb).ofs).natAbs ∨ 5000 < (f.gain - (tget arbZero s.cal.arb arb).gain).natAbs) then 7 else 0)) :
    s.cal.arbJudged arb x = k ∧ SelfCal_factors x s.cal.vRef = f := by
  have hf' : SelfCal_factors x s.cal.vRef = f := hf.symm
  rw [Cal.arbJudged, hf', judgeArb_eq, hk]
  exact ⟨rfl, rfl⟩

/-- What the block is after an arbiter's outcome. -/
theorem arbRan_facts {f : ArbFactors} (hk : s.cal.arbJudged arb x = k) (hf : SelfCal_factors x s.cal.vRef = f) :
    (s.arbRan arb x).cal = { s.cal with
      arb := (s.arbRan arb x).cal.arb, arbRun := s.cal.arbRun &&& ~~~(BitVec.twoPow 4 arb)
      arbAccepted := if k = 0 then s.cal.arbAccepted ||| BitVec.twoPow 4 arb else s.cal.arbAccepted
      flags := if k = 0 then s.cal.flags else s.cal.flags ||| 4#32
      failCnt := if k = 0 then s.cal.failCnt else bump s.cal.failCnt } ∧
    tget? (s.arbRan arb x).cal.arb arb = (if k = 0 then some f else tget? s.cal.arb arb) ∧
    ∀ j, j ≠ arb → tget? (s.arbRan arb x).cal.arb j = tget? s.cal.arb j := by
  subst hk hf
  rw [arbRan_cal]
  exact ⟨arbOutcome_eq _ _ _, arbOutcome_self _ _ _, fun j hj => arbOutcome_other _ _ hj⟩

theorem arbRan_outst : (s.arbRan arb x).host.outst = s.host.outst :=
  ((arbRan_spares (l := [.cal]) (by decide)).parts .requests (by decide)).2

theorem arbTake_ident : (s.arbTake a x).1.ident = s.ident := by
  refine Eq.trans (b := State.ident (ite _ _ _)) (congrArg State.ident (raise_quiet _ _) :) ?_
  split
  · rfl
  · exact (congrArg State.ident ((raise_quiet _ _).trans (log_quiet _ _)) :)

theorem arbRan_groups : (s.arbRan arb x).groups = s.groups := by
  rw [State.groups, State.arbRan, arbTake_ident]
  rfl

end

end Sys2Proof.Machine

/-! The ends of the runs of one arbiter and of the mains converter, in every case (R412, R414, R429). -/

namespace Sys2Proof.Machine

section
variable {s u t : State} {x : SelfCal} {l : List Piece} {arb k q : Nat} {o : Outstanding} {f : ArbFactors}

/-- The calibration once an arbiter has taken a judged outcome. -/
def Cal.ranTo (c t : Cal) (arb k : Nat) : Cal :=
  { c with
    arb := t.arb, arbRun := c.arbRun &&& ~~~(BitVec.twoPow 4 arb)
    arbAccepted := if k = 0 then c.arbAccepted ||| BitVec.twoPow 4 arb else c.arbAccepted
    flags := if k = 0 then c.flags else c.flags ||| 4#32
    failCnt := if k = 0 then c.failCnt else bump c.failCnt }

/-- The factors of the arbiters once one has taken a judged outcome. -/
def Cal.FactorsOf (c t : Cal) (arb k : Nat) (f : ArbFactors) : Prop :=
  tget? t.arb arb = (if k = 0 then some f else tget? c.arb arb) ∧ ∀ j, j ≠ arb → tget? t.arb j = tget? c.arb j

/-- What the block is after an arbiter's outcome. -/
theorem arbRan_outcome (hk : s.cal.arbJudged arb x = k) (hf : SelfCal_factors x s.cal.vRef = f) :
    (s.arbRan arb x).cal = s.cal.ranTo (s.arbRan arb x).cal arb k ∧ s.cal.FactorsOf (s.arbRan arb x).cal arb k f :=
  arbRan_facts hk hf

theorem ranTo_staysIn {c t : Cal} (h : (c.endRun arb).staysIn) : (c.ranTo t arb k).staysIn := h

theorem arbRan_staysIn (hk : s.cal.arbJudged arb x = k) (hf : SelfCal_factors x s.cal.vRef = f)
    (h : (s.cal.endRun arb).staysIn) : (s.arbRan arb x).cal.staysIn := by
  rw [(arbRan_outcome hk hf).1]
  exact ranTo_staysIn h

theorem withOutst_staysIn (h : u.cal.staysIn) (xs : List Outstanding) : (u.withOutst xs).cal.staysIn := h

/-- The sequence stays where it is. -/
theorem arbEnd_stays (hm : s.rst.mgmtUp = true ∧ arb < 4 ∧ s.cal.arbRun.getLsbD arb = true)
    (hk : s.cal.arbJudged arb x = k) (hf : SelfCal_factors x s.cal.vRef = f) (hs : (s.cal.endRun arb).staysIn)
    (hn : s.host.outst.any (fun o => o.arbWaits arb) = false) : ∃ t, exec (.arbiterSelfCalEnd arb x) s = .next t ∧
      t.cal = s.cal.ranTo t.cal arb k ∧ s.cal.FactorsOf t.cal arb k f ∧ KeptBut [.cal] s t := by
  refine ⟨_, exec_arbiterSelfCalEnd hm, ?_⟩
  rw [arbEnded_none (by rw [arbRan_outst]; exact hn), calAdvance_stays (arbRan_staysIn hk hf hs)]
  obtain ⟨hcal, hfac⟩ := arbRan_outcome hk hf
  exact ⟨hcal, hfac, (arbRan_spares (by decide)).done⟩

/-- The last arbiter of the start-up ends: a slot is due on every present bus. -/
theorem arbEnd_two (hm : s.rst.mgmtUp = true ∧ arb < 4 ∧ s.cal.arbRun.getLsbD arb = true)
    (hk : s.cal.arbJudged arb x = k) (hf : SelfCal_factors x s.cal.vRef = f) (h2 : s.cal.startStep = 2)
    (hr : s.cal.arbRun &&& ~~~(BitVec.twoPow 4 arb) = 0#4) (hw : s.cal.arbWait = 0#4)
    (hn : s.host.outst.any (fun o => o.arbWaits arb) = false) : ∃ t, exec (.arbiterSelfCalEnd arb x) s = .next t ∧
      t.cal = { s.cal.ranTo t.cal arb k with startStep := 3, slotDue := presentBuses s.groups } ∧
      s.cal.FactorsOf t.cal arb k f ∧ KeptBut [.cal] s t := by
  refine ⟨_, exec_arbiterSelfCalEnd hm, ?_⟩
  obtain ⟨hcal, hfac⟩ := arbRan_outcome hk hf
  rw [arbEnded_none (by rw [arbRan_outst]; exact hn), calAdvance_two (by rw [hcal]; exact h2) (by rw [hcal]; exact hr)
    (by rw [hcal]; exact hw), arbRan_groups]
  refine ⟨?_, hfac, ((arbRan_spares (by decide)).trans (spares_cal (by decide))).done⟩
  exact (congrArg (fun c : Cal => { c with startStep := 3, slotDue := presentBuses s.groups }) hcal :)

/-- The sequence ends: every group's rotation begins. -/
theorem arbEnd_three (hm : s.rst.mgmtUp = true ∧ arb < 4 ∧ s.cal.arbRun.getLsbD arb = true)
    (hk : s.cal.arbJudged arb x = k) (hf : SelfCal_factors x s.cal.vRef = f) (h3 : s.cal.startStep = 3)
    (hd : s.cal.slotDue = 0#4) (hr : s.cal.slotRun = 0#4)
    (hn : s.host.outst.any (fun o => o.arbWaits arb) = false) : ∃ t, exec (.arbiterSelfCalEnd arb x) s = .next t ∧
      t.cal.startStep = 4 ∧
      (∀ g, g < s.groups → t.calAt g = { s.calAt g with rotating := true, next := 0 }) ∧
      (∀ g, s.groups ≤ g → t.calAt g = s.calAt g) ∧ s.cal.FactorsOf t.cal arb k f ∧ KeptBut [.cal] s t := by
  refine ⟨_, exec_arbiterSelfCalEnd hm, ?_⟩
  obtain ⟨hcal, hfac⟩ := arbRan_outcome hk hf
  have hat (g : Nat) : (s.arbRan arb x).calAt g = s.calAt g := by
    rw [State.calAt, hcal]
    rfl
  rw [arbEnded_none (by rw [arbRan_outst]; exact hn), calAdvance_three (by rw [hcal]; exact h3) (by rw [hcal]; exact hd)
    (by rw [hcal]; exact hr)]
  simp only [done_calAt, rotateAll_at, arbRan_groups, hat]
  refine ⟨?_, fun g hg => if_pos hg, fun g hg => if_neg (by omega), ?_,
    ((arbRan_spares (by decide)).trans (rotateAll_spares (by decide) _)).done⟩
  · rw [done_cal, rotateAll_cal]
  · rw [done_cal, rotateAll_cal]
    exact hfac

theorem complete_cal (p : Outstanding → Bool) (a : Answer) : (u.complete p a).cal = u.cal := by
  obtain ⟨m, c, y, z, i, n, e⟩ := complete_eq u p a
  rw [e]

/-- The command that waits for this arbiter is answered when it waits for no other, and notes the outcome else. -/
theorem arbEnd_command (hm : s.rst.mgmtUp = true ∧ arb < 4 ∧ s.cal.arbRun.getLsbD arb = true)
    (hk : s.cal.arbJudged arb x = k) (hf : SelfCal_factors x s.cal.vRef = f) (hs : (s.cal.endRun arb).staysIn)
    (hone : s.host.outst.filter (fun o => o.arbWaits arb) = [o]) (hb : o.obj.testBit arb = true)
    (hq : q = if k = 0 then o.aux + 2 ^ arb else if o.aux < 16 then o.aux + 16 * k else o.aux) :
    ∃ t, exec (.arbiterSelfCalEnd arb x) s = .next t ∧ t.cal = s.cal.ranTo t.cal arb k ∧
      s.cal.FactorsOf t.cal arb k f ∧
      (o.obj = 2 ^ arb → t.host.outst = s.host.outst.filter (fun y => y != o) ∧
        Completed s t o
          { status := if q < 16 then stOk else stCalFail, detail := q / 16, result := leBytes 1 (q % 16) }) ∧
      (o.obj ≠ 2 ^ arb →
        t.host.outst = s.host.outst.map (fun y => if y = o then { o with obj := o.obj - 2 ^ arb, aux := q } else y) ∧
        Kept s t .mbx ∧ Kept s t .window) ∧
      KeptBut [.cal, .requests, .mbx, .window] s t := by
  obtain ⟨hcal, hfac⟩ := arbRan_outcome hk hf
  have hran : Spares [.cal] s (s.arbRan arb x) := arbRan_spares (by decide)
  have hnote : o.notes arb k = { o with obj := o.obj - 2 ^ arb, aux := q } := by
    rw [Outstanding.notes, if_pos hb, hq]
  have hone' : (s.arbRan arb x).host.outst.filter (fun o => o.arbWaits arb) = [o] := by rw [arbRan_outst, hone]
  refine ⟨_, exec_arbiterSelfCalEnd hm, ?_⟩
  rw [hk]
  by_cases hlast : o.obj = 2 ^ arb
  · obtain ⟨hend, hfind, hdrop⟩ := arbEnded_answers (k := k) hone' hlast
    rw [hend, calAdvance_stays (by rw [complete_cal]; exact arbRan_staysIn hk hf hs), done_cal, complete_cal, hnote]
    rw [arbRan_outst] at hfind hdrop
    obtain ⟨hdone, houtst, -, hkept⟩ := completes_first hran (by decide)
      (congrArg Sets.castSeq (hran.parts .sets (by decide))) hfind
      (a := arbAnswer { o with obj := o.obj - 2 ^ arb, aux := q })
    exact ⟨hcal, hfac, fun _ => ⟨houtst.trans hdrop, hdone⟩, fun h => absurd hlast h, hkept.mono (by decide)⟩
  · rw [arbEnded_notes hone' hb hlast,
      calAdvance_stays (withOutst_staysIn (arbRan_staysIn hk hf hs) _), arbRan_outst, hnote]
    have hw : Spares [.requests] (s.arbRan arb x) ((s.arbRan arb x).withOutst (s.host.outst.map (fun y =>
        if y = o then { o with obj := o.obj - 2 ^ arb, aux := q } else y))) := withOutst_spares (by decide) _ _
    have hall := ((hran.mono (l := [.cal, .requests]) (by decide)).trans (hw.mono (by decide))).done
    exact ⟨hcal, hfac, fun h => absurd h hlast, fun _ => ⟨by rw [done_host_outst]; rfl, hall.2.2.2 .mbx (by decide),
      hall.2.2.2 .window (by decide)⟩, hall.mono (by decide)⟩

/-! ### The mains converter (R414) -/

/-- The cause of a channel's outcome, 0 when it is accepted. -/
def Cal.mainsJudged (c : Cal) (ch : Nat) (x : SelfCal) : Nat :=
  judgeMains x (SelfCal_factors x c.vRef) (tget arbZero c.mains ch) (!c.mainsAccepted.getLsbD ch)

theorem mains_judged {ch : Nat}
    (hf : f = ⟨rdiv x.zero 21, rdiv ((x.plus - x.minus) * 1000000000) (2 * s.cal.vRef.toNat) - 1000000000⟩)
    (hk : k = (if x.rms.any (fun x => 500 < x) = true then 1 else if 8 < x.drift then 5
      else if 50000 < f.ofs.natAbs ∨ 500000 < f.gain.natAbs then 6
      else if s.cal.mainsAccepted.getLsbD ch = true ∧ (20000 < (f.gain - (tget arbZero s.cal.mains ch).gain).natAbs) then 7 else 0)) :
    s.mainsJudge ch x = (if k = 0 then some f else none, k) := by
  have hf' : SelfCal_factors x s.cal.vRef = f := hf.symm
  have hj : s.mainsJudge ch x = (if s.cal.mainsJudged ch x = 0 then some (SelfCal_factors x s.cal.vRef) else none,
    s.cal.mainsJudged ch x) := rfl
  have hk' : s.cal.mainsJudged ch x = k := by rw [Cal.mainsJudged, hf', judgeMains_eq, hk]
  rw [hj, hk', hf']

theorem mainsFailed_cal (ch : Nat) : (u.mainsFailed ch k).cal = { u.cal with
    flags := if k = 0 then u.cal.flags else u.cal.flags ||| 0x10#32
    failCnt := if k = 0 then u.cal.failCnt else bump u.cal.failCnt } := by
  unfold State.mainsFailed
  split
  · rfl
  · rw [calFailed_cal]
    rfl

theorem mainsFailed_spares (hl : .cal ∈ l) (ch : Nat) : Spares l u (u.mainsFailed ch k) :=
  .ite .refl (calFailed_spares hl _ _ _ _ _ _)

/-- The block while the mains converter exchanges its channels, with the first one's outcome. -/
def Cal.exchanges (c : Cal) (j : Option ArbFactors × Nat) : Cal :=
  { c with mainsRun := some 1, mainsFirst := j.1, mainsCause := j.2 }

theorem exec_mainsConverterExchange (hm : s.rst.mgmtUp = true ∧ s.cal.mainsRun = some 0) :
    exec (.mainsConverterExchange x) s = .next (State.done s
      ((s.modCalib (fun c => c.exchanges (s.mainsJudge 0 x))).mainsFailed 0 (s.mainsJudge 0 x).2)) := by
  obtain ⟨hm, hr⟩ := hm
  show execMainsConverterExchange x s = _
  rw [execMainsConverterExchange, if_pos (by simp [hm, hr])]
  rfl

theorem exec_mainsConverterExchange_none (h : s.rst.mgmtUp = false ∨ s.cal.mainsRun ≠ some 0) :
    exec (.mainsConverterExchange x) s = .next (State.done s s) := by
  show execMainsConverterExchange x s = _
  rw [execMainsConverterExchange, if_neg ?_]
  · rfl
  · rcases h with h | h
    · simp [h]
    · simp [h]

/-- A channel's accepted factors in force. -/
def Cal.putMains (c : Cal) (ch : Nat) (f : Option ArbFactors) : Cal :=
  match f with
  | some v => { c with mains := tput c.mains ch v, mainsAccepted := c.mainsAccepted ||| BitVec.twoPow 2 ch }
  | none => c

/-- The block once both channels have ended. -/
def Cal.mainsEnded (c : Cal) (f : Option ArbFactors) : Cal :=
  { (c.putMains 0 c.mainsFirst).putMains 1 f with mainsRun := none, mainsFirst := none, mainsCause := 0 }

theorem exec_mainsConverterSelfCalEnd (hm : s.rst.mgmtUp = true ∧ s.cal.mainsRun = some 1) :
    exec (.mainsConverterSelfCalEnd x) s = .next (State.done s
      (((s.modCalib (fun c => c.mainsEnded (s.mainsJudge 1 x).1)).mainsFailed 1 (s.mainsJudge 1 x).2).complete
        (fun o => o.opcode == 0x0E03)
        { status := if (if s.cal.mainsCause = 0 then (s.mainsJudge 1 x).2 else s.cal.mainsCause) = 0 then stOk else stCalFail
          detail := if s.cal.mainsCause = 0 then (s.mainsJudge 1 x).2 else s.cal.mainsCause })) := by
  obtain ⟨hm, hr⟩ := hm
  show execMainsConverterSelfCalEnd x s = _
  rw [execMainsConverterSelfCalEnd, if_pos (by simp [hm, hr])]
  rfl

theorem exec_mainsConverterSelfCalEnd_none (h : s.rst.mgmtUp = false ∨ s.cal.mainsRun ≠ some 1) :
    exec (.mainsConverterSelfCalEnd x) s = .next (State.done s s) := by
  show execMainsConverterSelfCalEnd x s = _
  rw [execMainsConverterSelfCalEnd, if_neg ?_]
  · rfl
  · rcases h with h | h
    · simp [h]
    · simp [h]

/-- The accepted factors of both channels, and what has been accepted. -/
theorem mainsEnded_facts (c : Cal) (f : ArbFactors) (k : Nat) :
    c.mainsEnded (if k = 0 then some f else none) = { c with
      mains := (c.mainsEnded (if k = 0 then some f else none)).mains
      mainsRun := none, mainsFirst := none, mainsCause := 0
      mainsAccepted := c.mainsAccepted ||| (if c.mainsFirst.isSome = true then 1#2 else 0#2) |||
        (if k = 0 then 2#2 else 0#2) } ∧
    tget? (c.mainsEnded (if k = 0 then some f else none)).mains 0 = c.mainsFirst.or (tget? c.mains 0) ∧
    tget? (c.mainsEnded (if k = 0 then some f else none)).mains 1 = (if k = 0 then some f else tget? c.mains 1) := by
  have h0 : (BitVec.twoPow 2 0) = 1#2 := rfl
  have h1 : (BitVec.twoPow 2 1) = 2#2 := rfl
  cases hc : c.mainsFirst with
  | none =>
    by_cases hk : k = 0
    · simp only [Cal.mainsEnded, Cal.putMains, hc, hk, if_true, h1, tget?_tput_self, tget?_tput_other Nat.zero_ne_one]
      exact ⟨by simp, rfl, trivial⟩
    · simp only [Cal.mainsEnded, Cal.putMains, hc, hk, if_false]
      exact ⟨by simp, rfl, trivial⟩
  | some v =>
    by_cases hk : k = 0
    · simp only [Cal.mainsEnded, Cal.putMains, hc, hk, if_true, h0, h1, tget?_tput_self,
        tget?_tput_other Nat.zero_ne_one]
      exact ⟨by simp, rfl, trivial⟩
    · simp only [Cal.mainsEnded, Cal.putMains, hc, hk, if_false, h0, tget?_tput_self,
        tget?_tput_other Nat.one_ne_zero]
      exact ⟨by simp, rfl, trivial⟩

end

end Sys2Proof.Machine

/-! The end of a CAL_EXT run, the limit of the current source (R409 to R411, R422), and the obligation on the runs. -/

namespace Sys2Proof.Machine

section
variable {s u t : State} {c : Cal} {x : SelfCal} {xs : List SelfCal} {l : List Piece} {a b n k : Nat}
  {e : ExtCal} {r : ExtRun} {v i : Int}

/-! ### The arbiters of step 1, one after another -/

/-- The causes of the arbiters' outcomes, from a first arbiter on. -/
def Cal.causes (c : Cal) : Nat → List SelfCal → List Nat
  | _, [] => []
  | a, x :: xs => c.arbJudged a x :: c.causes (a + 1) xs

/-- The block once arbiters have taken outcomes, from a first one on. -/
def Cal.arbsOutcome (c : Cal) : Nat → List SelfCal → Cal
  | _, [] => c
  | a, x :: xs => (c.arbOutcome a x).arbsOutcome (a + 1) xs

theorem accepts_other {m : BitVec 4} (h : b ≠ a) : (m ||| BitVec.twoPow 4 a).getLsbD b = m.getLsbD b := by
  rw [BitVec.getLsbD_or, BitVec.getLsbD_twoPow, decide_eq_false (Ne.symm h), Bool.and_false, Bool.or_false]

/-- An arbiter's outcome leaves the judgement of the others. -/
theorem arbJudged_other (h : b ≠ a) (y : SelfCal) : (c.arbOutcome a x).arbJudged b y = c.arbJudged b y := by
  unfold Cal.arbJudged Cal.arbOutcome
  split
  · rw [tget, tget?_tput_other h, accepts_other h, tget]
  · rfl

theorem causes_after (h : a < n) : (c.arbOutcome a x).causes n xs = c.causes n xs := by
  induction xs generalizing n with
  | nil => rfl
  | cons y xs ih => rw [Cal.causes, Cal.causes, arbJudged_other (by omega), ih (by omega)]

theorem arbsOutcome_before (c : Cal) (xs : List SelfCal) (h : b < n) :
    tget? (c.arbsOutcome n xs).arb b = tget? c.arb b := by
  induction xs generalizing n c with
  | nil => rfl
  | cons y xs ih => rw [Cal.arbsOutcome, ih _ (by omega), arbOutcome_other _ _ (by omega)]

theorem arbOutcome_vRef : (c.arbOutcome a x).vRef = c.vRef := by
  rw [arbOutcome_eq]

/-- What the outcomes leave: factors where they are accepted, the flag where one is not, the count where all are. -/
structure Cal.Took (c t : Cal) (n : Nat) (xs : List SelfCal) : Prop where
  rest : t = { c with arb := t.arb, arbAccepted := t.arbAccepted, flags := t.flags, failCnt := t.failCnt }
  flags : t.flags = c.flags ||| (if (c.causes n xs).any (· != 0) = true then 4#32 else 0#32)
  failCnt : (c.causes n xs).all (· == 0) = true → t.failCnt = c.failCnt

theorem arbsOutcome_took (c : Cal) (n : Nat) (xs : List SelfCal) : c.Took (c.arbsOutcome n xs) n xs := by
  induction xs generalizing n c with
  | nil => exact ⟨rfl, (BitVec.or_zero).symm, fun _ => rfl⟩
  | cons x xs ih =>
    obtain ⟨hrest, hflags, hcnt⟩ := ih (c.arbOutcome n x) (n + 1)
    rw [causes_after (Nat.lt_succ_self n)] at hflags hcnt
    have hone := arbOutcome_eq c n x
    have hflag : (c.arbOutcome n x).flags = if c.arbJudged n x = 0 then c.flags else c.flags ||| 4#32 := by rw [hone]
    have hfail : (c.arbOutcome n x).failCnt = if c.arbJudged n x = 0 then c.failCnt else bump c.failCnt := by rw [hone]
    rw [hflag] at hflags
    rw [hfail] at hcnt
    refine ⟨hrest.trans (congrArg (fun y : Cal => { y with
      arb := (c.arbsOutcome n (x :: xs)).arb, arbAccepted := (c.arbsOutcome n (x :: xs)).arbAccepted
      flags := (c.arbsOutcome n (x :: xs)).flags, failCnt := (c.arbsOutcome n (x :: xs)).failCnt }) hone :), ?_,
      fun hall => ?_⟩
    · rw [Cal.arbsOutcome, hflags, Cal.causes, List.any_cons]
      by_cases hj : c.arbJudged n x = 0
      · simp only [hj, if_true, bne_self_eq_false, Bool.false_or]
      · have hne : (c.arbJudged n x != 0) = true := by simpa using hj
        simp only [hj, hne, if_false, Bool.true_or, if_true, BitVec.or_assoc]
        split
        · rw [BitVec.or_self]
        · rw [BitVec.or_zero]
    · rw [Cal.causes, List.all_cons, Bool.and_eq_true, beq_iff_eq] at hall
      rw [Cal.arbsOutcome, hcnt hall.2, if_pos hall.1]

theorem arbsOutcome_arb (c : Cal) (n : Nat) (xs : List SelfCal) {j : Nat} (hj : j < xs.length) :
    tget? (c.arbsOutcome n xs).arb (n + j) =
      if c.arbJudged (n + j) xs[j] = 0 then some (SelfCal_factors xs[j] c.vRef) else tget? c.arb (n + j) := by
  induction xs generalizing n c j with
  | nil => exact absurd hj (Nat.not_lt_zero _)
  | cons x xs ih =>
    rw [Cal.arbsOutcome]
    cases j with
    | zero => exact (arbsOutcome_before _ xs (Nat.lt_succ_self n)).trans (arbOutcome_self c n x)
    | succ j =>
      have h := ih (c.arbOutcome n x) (n + 1) (Nat.lt_of_succ_lt_succ hj)
      rw [show n + (j + 1) = n + 1 + j by omega, h, arbJudged_other (by omega), arbOutcome_vRef,
        arbOutcome_other _ _ (by omega)]
      rfl

theorem causes_length (c : Cal) (n : Nat) (xs : List SelfCal) : (c.causes n xs).length = xs.length := by
  induction xs generalizing n with
  | nil => rfl
  | cons x xs ih => rw [Cal.causes, List.length_cons, ih, List.length_cons]

theorem causes_get (c : Cal) (n : Nat) (xs : List SelfCal) {j : Nat} (h : j < (c.causes n xs).length)
    (h' : j < xs.length) : (c.causes n xs)[j] = c.arbJudged (n + j) xs[j] := by
  induction xs generalizing n j with
  | nil => exact absurd h' (Nat.not_lt_zero _)
  | cons x xs ih =>
    cases j with
    | zero => rfl
    | succ j =>
      have hi := ih (n + 1) (j := j) (by rw [causes_length]; exact Nat.lt_of_succ_lt_succ h') (Nat.lt_of_succ_lt_succ h')
      rw [show n + (j + 1) = n + 1 + j by omega]
      exact hi

/-- The readings of the arbiters that a CAL_EXT run has. -/
abbrev readingOf (e : ExtCal) (a : Nat) : SelfCal := e.selfCal.getD a ⟨0, 0, 0, [], 0⟩

theorem reading_eq (h : a < (e.selfCal.take 4).length) : (e.selfCal.take 4)[a] = readingOf e a := by
  have hl : a < e.selfCal.length := by
    rw [List.length_take] at h
    omega
  rw [List.getElem_take, readingOf, List.getD_eq_getElem _ _ hl]

theorem causes_eq (c : Cal) (e : ExtCal) : c.causes 0 (e.selfCal.take 4) =
    (List.range (min 4 e.selfCal.length)).map (fun a => c.arbJudged a (readingOf e a)) := by
  refine List.ext_getElem ?_ fun j h1 h2 => ?_
  · rw [causes_length, List.length_take, List.length_map, List.length_range]
  · have hj : j < (e.selfCal.take 4).length := by rwa [causes_length] at h1
    rw [causes_get _ _ _ _ hj, List.getElem_map, List.getElem_range, reading_eq hj, Nat.zero_add]

theorem extArbs_cal (s : State) (n : Nat) (xs : List SelfCal) : (s.extArbs n xs).1.cal = s.cal.arbsOutcome n xs := by
  induction xs generalizing s n with
  | nil => rfl
  | cons x xs ih =>
    show ((s.arbTake n x).1.extArbs (n + 1) xs).1.cal = _
    rw [ih, arbTake_cal, Cal.arbsOutcome]

theorem extArbs_spares (hl : .cal ∈ l) (s : State) (n : Nat) (xs : List SelfCal) : Spares l s (s.extArbs n xs).1 := by
  induction xs generalizing s n with
  | nil => exact .refl
  | cons x xs ih => exact (arbTake_spares hl).trans (ih _ _)

/-- The first cause of a failure among the arbiters. -/
theorem extArbs_cause (s : State) (n : Nat) (xs : List SelfCal) :
    (s.extArbs n xs).2 = ((s.cal.causes n xs).find? (· != 0)).getD 0 := by
  induction xs generalizing s n with
  | nil => rfl
  | cons x xs ih =>
    show (if (s.arbTake n x).2 = 0 then ((s.arbTake n x).1.extArbs (n + 1) xs).2 else (s.arbTake n x).2) = _
    rw [ih, arbTake_cal, causes_after (Nat.lt_succ_self n), arbTake_cause, Cal.causes]
    split
    next h => rw [List.find?_cons_of_neg (by simp [h])]
    next h => rw [List.find?_cons_of_pos (by simpa using h)]; rfl

/-! ### How the run ends -/

/-- The cause of a CAL_EXT run, 0 when it has none. -/
def State.extJudged (s : State) (r : ExtRun) (e : ExtCal) (v i : Int) : Nat :=
  ((s.cal.causes 0 (e.selfCal.take 4)).find? (fun j => j != 0)).getD
    (if extCause r e ≠ 0 then extCause r e else s.refCause r.refD v i)

/-- The date that the command gave (R408). -/
def State.extDate (s : State) : Word :=
  BitVec.ofNat 32 (((s.host.outst.find? (fun o => o.opcode == 0x0E01)).map (fun o => o.obj)).getD 0)

/-- An assignment in force, and in the record of the Mire (R410). -/
def State.assigned (s : State) (v i : Int) (d : Word) : State :=
  let t := s.assign v i d 1
  if t.rst.mireUp then { t with sto := { t.sto with sysRef := some (v, i, d) } } else t

/-- The answer of a run that assigns (R409). -/
def State.extAnswer (s : State) (v i : Int) (d : Word) : Answer :=
  { status := stOk
    result := leBytes 8 (BitVec.ofInt 64 v).toNat ++ leBytes 4 (w32 i).toNat ++ leBytes 8 s.mt.mt.toNat ++
      leBytes 4 d.toNat }

/-- What the judgement of a run does (R409, R425). -/
def State.extTakes (s : State) (r : ExtRun) (e : ExtCal) : State :=
  let arbs := s.extArbs 0 (e.selfCal.take 4)
  let t := arbs.1
  let v := meanOf (extRef r e)
  let i := if r.rs = 0 then t.cal.iCal else meanOf (extCurrent r e)
  let cause := if arbs.2 = 0 then extCause r e else arbs.2
  if cause != 0 then t.extFailed cause 5
  else if t.refCause r.refD v i != 0 then t.extFailed (t.refCause r.refD v i) 4
  else
    let t := t.assigned v i s.extDate
    t.complete (fun o => o.opcode == 0x0E01) (t.extAnswer v i s.extDate)

/-- The end of the run: the arbiters that waited start, the partner is told. -/
def State.extOver (s u : State) : State :=
  (State.tellBusy s (u.modCalib (fun y => { y with ext := none })).arbNext).raise 0x92A

theorem exec_calExtEnd (hm : s.rst.mgmtUp = true ∧ s.cal.ext = some r) :
    exec (.calExtEnd e) s = .next (State.done s (s.extOver (s.extTakes r e))) := by
  obtain ⟨hm, hx⟩ := hm
  show execCalExtEnd e s = _
  rw [execCalExtEnd]
  simp only [hx, hm]
  rfl

theorem exec_calExtEnd_none (h : s.rst.mgmtUp = false ∨ s.cal.ext = none) :
    exec (.calExtEnd e) s = .next (State.done s s) := by
  show execCalExtEnd e s = _
  rw [execCalExtEnd]
  cases hx : s.cal.ext with
  | none => rfl
  | some r =>
    have hm : s.rst.mgmtUp = false := h.resolve_right (by simp [hx])
    simp only [hm]
    rfl

/-- The block once the run is over. -/
def Cal.extOver (c : Cal) : Cal :=
  { c with
    ext := none, arbRun := c.arbRun ||| (c.arbWait &&& ~~~(c.arbWait &&& c.slotRun))
    arbWait := 0#4 ||| (c.arbWait &&& c.slotRun) }

theorem extOver_cal : (s.extOver u).cal = u.cal.extOver := by
  rw [State.extOver, raise_cal, tellBusy_cal]
  rfl

theorem extOver_spares (hl : .cal ∈ l) : Spares l u (s.extOver u) :=
  ((spares_cal hl).trans ((spares_cal hl).trans (spares_cal hl))).trans
    ((tellBusy_spares _ s).trans (.of_quiet (raise_quiet _ _)))

theorem wait_spares_slots (w m : BitVec 4) : w &&& ~~~(w &&& m) = w &&& ~~~m := by
  rw [BitVec.not_and, BitVec.and_or_distrib_left, BitVec.and_not_self]
  exact BitVec.zero_or

/-- The arbiters that waited start, but those that a slot uses. -/
theorem extOver_arbs (c : Cal) : c.extOver.ext = none ∧ c.extOver.arbWait = c.arbWait &&& c.slotRun ∧
    c.extOver.arbRun = c.arbRun ||| (c.arbWait &&& ~~~c.slotRun) := by
  refine ⟨rfl, BitVec.zero_or, ?_⟩
  rw [Cal.extOver, wait_spares_slots]

theorem refCause_congr (h : t.cal.refSrc = s.cal.refSrc ∧ t.cal.vRef = s.cal.vRef ∧ t.cal.iCal = s.cal.iCal) (d : Nat) :
    t.refCause d v i = s.refCause d v i := by
  obtain ⟨h1, h2, h3⟩ := h
  rw [State.refCause, h1, h2, h3, State.refCause]

/-- The state once the arbiters have taken their outcomes. -/
def State.extArb (s : State) (e : ExtCal) : State := (s.extArbs 0 (e.selfCal.take 4)).1

theorem extArb_took : s.cal.Took (s.extArb e).cal 0 (e.selfCal.take 4) := by
  rw [State.extArb, extArbs_cal]
  exact arbsOutcome_took _ _ _

theorem extArb_spares (hl : .cal ∈ l) : Spares l s (s.extArb e) := extArbs_spares hl _ _ _

theorem extArb_ref : (s.extArb e).cal.refSrc = s.cal.refSrc ∧ (s.extArb e).cal.vRef = s.cal.vRef ∧
    (s.extArb e).cal.iCal = s.cal.iCal := by
  rw [extArb_took.rest]
  exact ⟨rfl, rfl, rfl⟩

/-- The current of the run: the assigned one where no resistor is used. -/
def Cal.extI (c : Cal) (r : ExtRun) (e : ExtCal) : Int := if r.rs = 0 then c.iCal else meanOf (extCurrent r e)

theorem extTakes_eq : s.extTakes r e =
    (if (if (s.extArbs 0 (e.selfCal.take 4)).2 = 0 then extCause r e else (s.extArbs 0 (e.selfCal.take 4)).2) != 0 then
      (s.extArb e).extFailed
        (if (s.extArbs 0 (e.selfCal.take 4)).2 = 0 then extCause r e else (s.extArbs 0 (e.selfCal.take 4)).2) 5
    else if (s.extArb e).refCause r.refD (meanOf (extRef r e)) ((s.extArb e).cal.extI r e) != 0 then
      (s.extArb e).extFailed ((s.extArb e).refCause r.refD (meanOf (extRef r e)) ((s.extArb e).cal.extI r e)) 4
    else ((s.extArb e).assigned (meanOf (extRef r e)) ((s.extArb e).cal.extI r e) s.extDate).complete
      (fun o => o.opcode == 0x0E01) (((s.extArb e).assigned (meanOf (extRef r e)) ((s.extArb e).cal.extI r e)
        s.extDate).extAnswer (meanOf (extRef r e)) ((s.extArb e).cal.extI r e) s.extDate)) := rfl

theorem extI_extArb : (s.extArb e).cal.extI r e = s.cal.extI r e := by
  rw [Cal.extI, Cal.extI, extArb_ref.2.2]

/-- The cause that steps 1 to 5 find: the first of the arbiters', else that of the readings. -/
theorem extCause_steps (s : State) (r : ExtRun) (e : ExtCal) :
    (if (s.extArbs 0 (e.selfCal.take 4)).2 = 0 then extCause r e else (s.extArbs 0 (e.selfCal.take 4)).2) =
      ((s.cal.causes 0 (e.selfCal.take 4)).find? (fun j => j != 0)).getD (extCause r e) := by
  rw [extArbs_cause]
  cases hf : (s.cal.causes 0 (e.selfCal.take 4)).find? (fun j => j != 0) with
  | none => rfl
  | some j =>
    have hj : j ≠ 0 := by simpa using List.find?_some hf
    exact if_neg hj

theorem extJudged_of_steps {d : Nat} (h : (((s.cal.causes 0 (e.selfCal.take 4)).find? (fun j => j != 0)).getD
    (extCause r e)) = d) (hd : d ≠ 0) : s.extJudged r e v i = d := by
  rw [State.extJudged]
  cases hf : (s.cal.causes 0 (e.selfCal.take 4)).find? (fun j => j != 0) with
  | none =>
    rw [hf, Option.getD_none] at h
    rw [Option.getD_none, h, if_pos hd]
  | some j => rwa [hf] at h

theorem extJudged_of_none (h : (((s.cal.causes 0 (e.selfCal.take 4)).find? (fun j => j != 0)).getD
    (extCause r e)) = 0) : s.extJudged r e v i = s.refCause r.refD v i ∧
      (s.cal.causes 0 (e.selfCal.take 4)).all (· == 0) = true := by
  rw [State.extJudged]
  cases hf : (s.cal.causes 0 (e.selfCal.take 4)).find? (fun j => j != 0) with
  | none =>
    rw [hf, Option.getD_none] at h
    rw [Option.getD_none, h, if_neg (by simp)]
    refine ⟨rfl, List.all_eq_true.mpr fun y hy => ?_⟩
    simpa using List.find?_eq_none.mp hf y hy
  | some j =>
    rw [hf, Option.getD_some] at h
    have hj : j ≠ 0 := by simpa using List.find?_some hf
    exact absurd h hj

/-- A run with a cause fails with it. -/
theorem extTakes_fails (hk : s.extJudged r e (meanOf (extRef r e)) (s.cal.extI r e) = k) (h : k ≠ 0) :
    ∃ object, s.extTakes r e = (s.extArb e).extFailed k object := by
  rw [extTakes_eq, extCause_steps, extI_extArb, refCause_congr extArb_ref]
  by_cases hd : (((s.cal.causes 0 (e.selfCal.take 4)).find? (fun j => j != 0)).getD (extCause r e)) = 0
  · rw [(extJudged_of_none hd).1] at hk
    rw [hd, hk, if_neg (by simp), if_pos (by simpa using h)]
    exact ⟨_, rfl⟩
  · rw [extJudged_of_steps rfl hd] at hk
    rw [hk, if_pos (by simpa using h)]
    exact ⟨_, rfl⟩

/-- A run without a cause assigns and answers. -/
theorem extTakes_assigns (hk : s.extJudged r e (meanOf (extRef r e)) (s.cal.extI r e) = 0) : s.extTakes r e =
    ((s.extArb e).assigned (meanOf (extRef r e)) (s.cal.extI r e) s.extDate).complete (fun o => o.opcode == 0x0E01)
      (((s.extArb e).assigned (meanOf (extRef r e)) (s.cal.extI r e) s.extDate).extAnswer (meanOf (extRef r e))
        (s.cal.extI r e) s.extDate) ∧ (s.cal.causes 0 (e.selfCal.take 4)).all (· == 0) = true := by
  rw [extTakes_eq, extCause_steps, extI_extArb, refCause_congr extArb_ref]
  by_cases hd : (((s.cal.causes 0 (e.selfCal.take 4)).find? (fun j => j != 0)).getD (extCause r e)) = 0
  · obtain ⟨hj, hall⟩ := extJudged_of_none (v := meanOf (extRef r e)) (i := s.cal.extI r e) hd
    rw [hj] at hk
    rw [hd, hk, if_neg (by simp), if_neg (by simp)]
    exact ⟨rfl, hall⟩
  · rw [extJudged_of_steps rfl hd] at hk
    exact absurd hk hd

/-! ### What a failed run leaves -/

theorem extFailed_cal (object : Nat) : (u.extFailed k object).cal = u.cal.fails 8#32 := by
  rw [State.extFailed, complete_cal, calFailed_cal]

/-- The block once a run has failed and is over. -/
theorem failed_cal (object : Nat) : (s.extOver ((s.extArb e).extFailed k object)).cal =
    ((s.extArb e).cal.fails 8#32).extOver := by
  rw [extOver_cal, extFailed_cal]

/-- What a failed run leaves of the calibration (R409, R425). -/
def Cal.FailedRun (c t : Cal) (e : ExtCal) : Prop :=
  t.vRef = c.vRef ∧ t.iCal = c.iCal ∧ t.date = c.date ∧ t.refMt = c.refMt ∧ t.refSrc = c.refSrc ∧
  t.flags = c.flags ||| 8#32 ||| (if (List.range (min 4 e.selfCal.length)).any (fun a =>
    c.arbJudged a (readingOf e a) != 0) = true then 4#32 else 0#32) ∧
  (∀ a, a < min 4 e.selfCal.length → tget? t.arb a = (if c.arbJudged a (readingOf e a) = 0
    then some (SelfCal_factors (readingOf e a) c.vRef) else tget? c.arb a)) ∧
  ((List.range (min 4 e.selfCal.length)).all (fun a => c.arbJudged a (readingOf e a) == 0) = true →
    t.failCnt = bump c.failCnt) ∧
  t.ext = none ∧ t.arbWait = (c.arbWait &&& c.slotRun) ∧ t.arbRun = c.arbRun ||| (c.arbWait &&& ~~~c.slotRun) ∧
  t = { c with
    arb := t.arb, arbAccepted := t.arbAccepted, arbRun := t.arbRun, arbWait := t.arbWait
    ext := t.ext, vRef := t.vRef, iCal := t.iCal, date := t.date, refMt := t.refMt
    refSrc := t.refSrc, flags := t.flags, failCnt := t.failCnt }

theorem extArb_arb (h : a < min 4 e.selfCal.length) : tget? (s.extArb e).cal.arb a =
    if s.cal.arbJudged a (readingOf e a) = 0 then some (SelfCal_factors (readingOf e a) s.cal.vRef)
    else tget? s.cal.arb a := by
  have hl : a < (e.selfCal.take 4).length := by rwa [List.length_take]
  have h0 := arbsOutcome_arb s.cal 0 (e.selfCal.take 4) hl
  rw [Nat.zero_add, reading_eq hl] at h0
  rw [State.extArb, extArbs_cal, h0]

theorem failedRun_facts (s : State) (e : ExtCal) : s.cal.FailedRun ((s.extArb e).cal.fails 8#32).extOver e := by
  obtain ⟨hrest, hflags, hcnt⟩ := extArb_took (s := s) (e := e)
  obtain ⟨hext, hwait, hrun⟩ := extOver_arbs ((s.extArb e).cal.fails 8#32)
  rw [causes_eq, List.any_map] at hflags
  rw [causes_eq, List.all_map] at hcnt
  have harb (a : Nat) (h : a < min 4 e.selfCal.length) := extArb_arb (s := s) h
  generalize (s.extArb e).cal = d at hrest hflags hcnt hwait hrun harb
  refine ⟨?_, ?_, ?_, ?_, ?_, ?_, harb, fun hall => ?_, hext, ?_, ?_, ?_⟩
  · rw [hrest]; rfl
  · rw [hrest]; rfl
  · rw [hrest]; rfl
  · rw [hrest]; rfl
  · rw [hrest]; rfl
  · show d.flags ||| 8#32 = _
    rw [hflags, BitVec.or_assoc, BitVec.or_comm _ 8#32, ← BitVec.or_assoc]
    rfl
  · show bump d.failCnt = _
    rw [hcnt hall]
  · rw [hwait, hrest]; rfl
  · rw [hrun, hrest]; rfl
  · rw [hrest]; rfl

/-! ### What an assignment leaves -/

/-- The assignment, with the arbiters' gains scaled to a new V_REF (R410). -/
def Cal.assigned (c : Cal) (v i : Int) (d : Word) (mt : DWord) : Cal :=
  { c with
    arb := if v = c.vRef then c.arb else tmap (fun _ f =>
      { f with gain := rdiv ((1000000000 + f.gain) * c.vRef) v.toNat - 1000000000 }) c.arb
    vRef := v, iCal := i, date := d, refMt := mt, refSrc := 1 }

theorem assigned_cal (d : Word) : (u.assigned v i d).cal = u.cal.assigned v i d u.mt.mt := by
  unfold State.assigned
  dsimp only
  split <;> rfl

theorem assigned_sto (d : Word) : (u.assigned v i d).sto =
    if u.rst.mireUp = true then { u.sto with sysRef := some (v, i, d) } else u.sto := by
  unfold State.assigned
  exact apply_ite State.sto _ _ _

theorem assigned_spares (hc : .cal ∈ l) (hs : .sto ∈ l) (d : Word) : Spares l u (u.assigned v i d) := by
  unfold State.assigned
  exact (spares_cal hc).trans (.ite (spares_sto hs) .refl)

/-- What a run without a cause leaves of the calibration (R409, R410). -/
def Cal.AssignedRun (c t : Cal) (e : ExtCal) (v i : Int) (mt : DWord) : Prop :=
  t.vRef = v ∧ t.iCal = i ∧ t.refMt = mt ∧ t.refSrc = 1 ∧ t.flags = c.flags ∧ t.failCnt = c.failCnt ∧
  (v ≠ c.vRef → ∀ a, a < min 4 e.selfCal.length → tget? t.arb a = some { SelfCal_factors (readingOf e a) c.vRef with
    gain := rdiv ((1000000000 + (SelfCal_factors (readingOf e a) c.vRef).gain) * c.vRef) v.toNat - 1000000000 }) ∧
  (v = c.vRef → ∀ a, a < min 4 e.selfCal.length → tget? t.arb a = some (SelfCal_factors (readingOf e a) c.vRef))

/-- The rest of what such a run leaves. -/
def Cal.AssignedRest (c t : Cal) : Prop :=
  t.ext = none ∧ t.arbWait = (c.arbWait &&& c.slotRun) ∧ t.arbRun = c.arbRun ||| (c.arbWait &&& ~~~c.slotRun) ∧
  t = { c with
    arb := t.arb, arbAccepted := t.arbAccepted, arbRun := t.arbRun, arbWait := t.arbWait
    ext := t.ext, vRef := t.vRef, iCal := t.iCal, date := t.date, refMt := t.refMt
    refSrc := t.refSrc, flags := t.flags, failCnt := t.failCnt }

theorem assignedRun_facts (d : Word) (mt : DWord) (hall : (s.cal.causes 0 (e.selfCal.take 4)).all (· == 0) = true) :
    s.cal.AssignedRun ((s.extArb e).cal.assigned v i d mt).extOver e v i mt ∧
      ((s.extArb e).cal.assigned v i d mt).extOver.date = d ∧
      s.cal.AssignedRest ((s.extArb e).cal.assigned v i d mt).extOver := by
  obtain ⟨hrest, hflags, hcnt⟩ := extArb_took (s := s) (e := e)
  obtain ⟨hext, hwait, hrun⟩ := extOver_arbs ((s.extArb e).cal.assigned v i d mt)
  have hnone : (s.cal.causes 0 (e.selfCal.take 4)).any (· != 0) = false := by
    rw [List.any_eq_false]
    intro y hy
    simpa using List.all_eq_true.mp hall y hy
  rw [hnone, if_neg Bool.false_ne_true, BitVec.or_zero] at hflags
  replace hcnt := hcnt hall
  rw [causes_eq, List.all_map] at hall
  have harb (a : Nat) (h : a < min 4 e.selfCal.length) :
      tget? (s.extArb e).cal.arb a = some (SelfCal_factors (readingOf e a) s.cal.vRef) := by
    have hj : s.cal.arbJudged a (readingOf e a) = 0 := by
      simpa using List.all_eq_true.mp hall a (List.mem_range.mpr h)
    rw [extArb_arb h, if_pos hj]
  have href : (s.extArb e).cal.vRef = s.cal.vRef := extArb_ref.2.1
  generalize (s.extArb e).cal = b at hrest hflags hcnt hwait hrun harb href hext
  refine ⟨⟨rfl, rfl, rfl, rfl, hflags, hcnt, fun hv a ha => ?_, fun hv a ha => ?_⟩, rfl, hext, ?_, ?_, ?_⟩
  · show tget? (ite _ _ _) a = _
    rw [href, if_neg hv, tget?_tmap, harb a ha]
    rfl
  · show tget? (ite _ _ _) a = _
    rw [href, if_pos hv, harb a ha]
  · rw [hwait, hrest]; rfl
  · rw [hrun, hrest]; rfl
  · rw [hrest]; rfl

/-! ### ISRC_LIMIT -/

/-- The current source off at its limit, with its flag. -/
def State.isrcOff (s : State) : State := (s.modCalib (fun x => { x with isrcOn := false })).calFlag 0x100#32

theorem exec_isrcLimit (h : s.cal.isrcOn = true) :
    exec .isrcLimit s = .next (State.done s (State.tellBusy s s.isrcOff)) := by
  show execIsrcLimit s = _
  rw [execIsrcLimit, if_pos h]
  rfl

theorem exec_isrcLimit_none (h : s.cal.isrcOn = false) : exec .isrcLimit s = .next (State.done s s) := by
  show execIsrcLimit s = _
  rw [execIsrcLimit, if_neg (by simp [h])]
  rfl

/-- The partner is told where the source alone kept it from its own. -/
theorem isrcOff_tells (h : s.cal.isrcOn = true) (hx : s.cal.ext = none ∧ s.twin.link = .up) :
    State.tellBusy s s.isrcOff = s.isrcOff.sendReliable 0xA := by
  obtain ⟨hx, hl⟩ := hx
  have hbefore : s.calBusy = true := by rw [State.calBusy, h, Bool.or_true]
  have hafter : s.isrcOff.calBusy = false := by
    show (s.cal.ext.isSome || false) = false
    rw [hx]
    rfl
  have hlink : (s.isrcOff.twin.link == .up) = true := by
    show (s.twin.link == .up) = true
    rw [hl]
    rfl
  unfold State.tellBusy
  rw [if_pos (by rw [hbefore, hafter, hlink]; rfl)]

end

end Sys2Proof.Machine

/-! The obligation on the runs of calibration. -/

namespace Sys2Proof.Machine

section
variable {s t : State} {e : ExtCal} {r : ExtRun} {v i : Int} {k : Nat} {o : Outstanding} {x : SelfCal} {f : ArbFactors}

/-- A due self-calibration starts the arbiters that are idle and the mains converter (R413). -/
theorem selfCalDue_changes {w : BitVec 4} {m : Bool}
    (hw : w = ~~~s.cal.arbRun &&& (if s.cal.ext.isSome = true then 15#4 else s.cal.slotRun))
    (hm : m = (s.priSeen && s.cal.mainsRun.isNone)) :
    (s.arbStart (15#4 &&& ~~~s.cal.arbRun)).mainsStart.cal = { s.cal with
      arbRun := s.cal.arbRun ||| ~~~w, arbWait := s.cal.arbWait ||| w
      mainsRun := if m = true then some 0 else s.cal.mainsRun
      mainsFirst := if m = true then none else s.cal.mainsFirst
      mainsCause := if m = true then 0 else s.cal.mainsCause } ∧
    (s.arbStart (15#4 &&& ~~~s.cal.arbRun)).mainsStart.iso =
      { s.iso with mainsCalDue := s.iso.mainsCalDue || m } := by
  have hall : 15#4 &&& ~~~s.cal.arbRun = ~~~s.cal.arbRun := BitVec.allOnes_and
  have hrun : s.cal.arbRun ||| (~~~s.cal.arbRun &&& ~~~w) = s.cal.arbRun ||| ~~~w := by
    ext j hj
    simp only [BitVec.getElem_or, BitVec.getElem_and, BitVec.getElem_not]
    cases s.cal.arbRun[j] <;> rfl
  have hwait : w = if s.cal.ext.isSome then ~~~s.cal.arbRun else ~~~s.cal.arbRun &&& s.cal.slotRun := by
    rw [hw]
    split
    · exact BitVec.and_allOnes
    · rfl
  have hstart := arbStart_cal hwait
  obtain ⟨hcal, hiso⟩ := mainsStart_changes (s := s.arbStart (15#4 &&& ~~~s.cal.arbRun)) (m := m)
    (by rw [hm, hall, hstart]; rfl)
  rw [hcal, hiso, hall, hstart]
  refine ⟨?_, rfl⟩
  rw [← hrun]
  rfl

theorem extJudged_eq (hk : k = (((List.range (min 4 e.selfCal.length)).map (fun a =>
    s.cal.arbJudged a (readingOf e a))).find? (fun j => j != 0)).getD
      (if extCause r e ≠ 0 then extCause r e else s.refCause r.refD v i)) : s.extJudged r e v i = k := by
  rw [State.extJudged, causes_eq, hk]

theorem extDate_eq (ho : s.host.outst.find? (fun y => y.opcode == 0x0E01) = some o) :
    s.extDate = BitVec.ofNat 32 o.obj := by
  rw [State.extDate, ho]
  rfl

/-- A run with a cause leaves the assignment, notes the failure and answers with the cause. -/
theorem calExtEnd_fails (hm : s.rst.mgmtUp = true ∧ s.cal.ext = some r)
    (hv : v = meanOf (extRef r e) ∧ i = s.cal.extI r e) (hk : s.extJudged r e v i = k) (hne : k ≠ 0) :
    ∃ t, exec (.calExtEnd e) s = .next t ∧ s.cal.FailedRun t.cal e ∧
      (∀ o, s.host.outst.find? (fun y => y.opcode == 0x0E01) = some o →
        Completed s t o { status := stCalFail, detail := k } ∧
        t.host.outst = dropFirst (fun o => o.opcode == 0x0E01) s.host.outst) ∧
      (s.host.outst.find? (fun y => y.opcode == 0x0E01) = none → KeptBut [.cal] s t) ∧
      KeptBut [.cal, .requests, .mbx, .window] s t := by
  obtain ⟨rfl, rfl⟩ := hv
  obtain ⟨object, htakes⟩ := extTakes_fails hk hne
  refine ⟨_, exec_calExtEnd hm, ?_⟩
  rw [htakes, done_cal, failed_cal]
  have hbefore : Spares [.cal] s (((s.extArb e).calFlag 8#32).calFail k object 0 0) :=
    (extArb_spares (by decide)).trans (calFailed_spares (by decide) _ _ _ _ _ _)
  have hover (u : State) : Spares [.cal] u (s.extOver u) := extOver_spares (by decide)
  refine ⟨failedRun_facts s e, fun o ho => ?_, fun ho => ?_, ?_⟩
  · obtain ⟨hdone, houtst, -⟩ := completes_then hbefore (by decide)
      (congrArg Sets.castSeq (hbefore.parts .sets (by decide))) ho (hover _)
      (a := { status := stCalFail, detail := k })
    exact ⟨hdone, houtst⟩
  · have hnone : (((s.extArb e).calFlag 8#32).calFail k object 0 0).host.outst.find?
        (fun o => o.opcode == 0x0E01) = none := by rw [(hbefore.parts .requests (by decide)).2, ho]
    rw [State.extFailed, State.complete, hnone]
    exact (hbefore.trans (hover _)).done
  · exact ((hbefore.mono (by decide)).trans ((complete_spares (by decide) (by decide) (by decide) _ _).trans
      ((hover _).mono (by decide)))).done

/-- A run without a cause assigns what it measured and answers with it. -/
theorem calExtEnd_assigns (hm : s.rst.mgmtUp = true ∧ s.cal.ext = some r)
    (hv : v = meanOf (extRef r e) ∧ i = s.cal.extI r e) (hk : s.extJudged r e v i = 0)
    (ho : s.host.outst.find? (fun y => y.opcode == 0x0E01) = some o) :
    ∃ t, exec (.calExtEnd e) s = .next t ∧ s.cal.AssignedRun t.cal e v i s.mt.mt ∧
      t.cal.date = BitVec.ofNat 32 o.obj ∧ s.cal.AssignedRest t.cal ∧
      t.sto = (if s.rst.mireUp = true then { s.sto with sysRef := some (v, i, BitVec.ofNat 32 o.obj) } else s.sto) ∧
      Completed s t o (s.extAnswer v i (BitVec.ofNat 32 o.obj)) ∧
      t.host.outst = dropFirst (fun o => o.opcode == 0x0E01) s.host.outst ∧
      KeptBut [.cal, .sto, .requests, .mbx, .window] s t := by
  obtain ⟨rfl, rfl⟩ := hv
  obtain ⟨htakes, hall⟩ := extTakes_assigns hk
  have harb : Spares [.cal] s (s.extArb e) := extArb_spares (by decide)
  have hmt : (s.extArb e).mt = s.mt := harb.parts .mt (by decide)
  have hrst : (s.extArb e).rst = s.rst := harb.parts .rst (by decide)
  have hsto : (s.extArb e).sto = s.sto := harb.parts .sto (by decide)
  have hbefore : Spares [.cal, .sto] s
      ((s.extArb e).assigned (meanOf (extRef r e)) (s.cal.extI r e) (BitVec.ofNat 32 o.obj)) :=
    (harb.mono (by decide)).trans (assigned_spares (by decide) (by decide) _)
  have hmt' : ((s.extArb e).assigned (meanOf (extRef r e)) (s.cal.extI r e) (BitVec.ofNat 32 o.obj)).mt = s.mt :=
    hbefore.parts .mt (by decide)
  have hover (u : State) : Spares [.cal] u (s.extOver u) := extOver_spares (by decide)
  have hsto' (u : State) : (s.extOver u).sto = u.sto := (hover u).parts .sto (by decide)
  refine ⟨_, exec_calExtEnd hm, ?_⟩
  rw [htakes, extDate_eq ho, done_cal, extOver_cal, complete_cal, assigned_cal, hmt, State.extAnswer, hmt',
    ← State.extAnswer]
  obtain ⟨hrun, hdate, hrest⟩ := assignedRun_facts (s := s) (e := e) (v := meanOf (extRef r e)) (i := s.cal.extI r e)
    (BitVec.ofNat 32 o.obj) s.mt.mt hall
  obtain ⟨hdone, houtst, -⟩ := completes_then hbefore (by decide)
    (congrArg Sets.castSeq (hbefore.parts .sets (by decide))) ho ((hover _).mono (by decide))
    (a := s.extAnswer (meanOf (extRef r e)) (s.cal.extI r e) (BitVec.ofNat 32 o.obj))
  refine ⟨hrun, hdate, hrest, ?_, hdone, houtst, ?_⟩
  · have hc (u : State) (q : Outstanding → Bool) (a : Answer) : (u.complete q a).sto = u.sto := by
      obtain ⟨m, c, y, z, j, n, h⟩ := complete_eq u q a
      rw [h]
    rw [done_sto, hsto', hc, assigned_sto, hrst, hsto]
  · exact ((hbefore.mono (by decide)).trans ((complete_spares (by decide) (by decide) (by decide) _ _).trans
      ((hover _).mono (by decide)))).done

/-- The mains converter's run ends: accepted factors come into force. -/
theorem mainsEnd_cal {x : SelfCal} (hj : s.mainsJudge 1 x = (if k = 0 then some f else none, k)) :
    ((s.modCalib (fun c => c.mainsEnded (s.mainsJudge 1 x).1)).mainsFailed 1 (s.mainsJudge 1 x).2).cal =
      { s.cal with
        mains := ((s.modCalib (fun c => c.mainsEnded (s.mainsJudge 1 x).1)).mainsFailed 1 (s.mainsJudge 1 x).2).cal.mains
        mainsRun := none, mainsFirst := none, mainsCause := 0
        mainsAccepted := s.cal.mainsAccepted ||| (if s.cal.mainsFirst.isSome = true then 1#2 else 0#2) |||
          (if k = 0 then 2#2 else 0#2)
        flags := if k = 0 then s.cal.flags else s.cal.flags ||| 0x10#32
        failCnt := if k = 0 then s.cal.failCnt else bump s.cal.failCnt } ∧
    tget? ((s.modCalib (fun c => c.mainsEnded (s.mainsJudge 1 x).1)).mainsFailed 1 (s.mainsJudge 1 x).2).cal.mains 0 =
      s.cal.mainsFirst.or (tget? s.cal.mains 0) ∧
    tget? ((s.modCalib (fun c => c.mainsEnded (s.mainsJudge 1 x).1)).mainsFailed 1 (s.mainsJudge 1 x).2).cal.mains 1 =
      (if k = 0 then some f else tget? s.cal.mains 1) := by
  obtain ⟨hend, h0, h1⟩ := mainsEnded_facts s.cal f k
  rw [hj, mainsFailed_cal]
  refine ⟨?_, h0, h1⟩
  show ({ s.cal.mainsEnded (if k = 0 then some f else none) with
    flags := if k = 0 then (s.cal.mainsEnded (if k = 0 then some f else none)).flags
      else (s.cal.mainsEnded (if k = 0 then some f else none)).flags ||| 0x10#32
    failCnt := if k = 0 then (s.cal.mainsEnded (if k = 0 then some f else none)).failCnt
      else bump (s.cal.mainsEnded (if k = 0 then some f else none)).failCnt } : Cal) = _
  have hflags : (s.cal.mainsEnded (if k = 0 then some f else none)).flags = s.cal.flags := by rw [hend]
  have hcnt : (s.cal.mainsEnded (if k = 0 then some f else none)).failCnt = s.cal.failCnt := by rw [hend]
  rw [hflags, hcnt]
  exact (congrArg (fun y : Cal => { y with
    flags := if k = 0 then s.cal.flags else s.cal.flags ||| 0x10#32
    failCnt := if k = 0 then s.cal.failCnt else bump s.cal.failCnt }) hend :)

theorem mainsEnd_spares {x : SelfCal} :
    Spares [.cal] s ((s.modCalib (fun c => c.mainsEnded (s.mainsJudge 1 x).1)).mainsFailed 1 (s.mainsJudge 1 x).2) :=
  (spares_cal (by decide)).trans (mainsFailed_spares (by decide) _)

end

/-- Settles O47: a run of an arbiter in each case of the sequence (`arbEnd_stays` and its kin), the mains converter's
exchange and end, a CAL_EXT run judged (`extTakes_fails`, `extTakes_assigns`), and the source's limit. -/
theorem calibrationRunsEnd : Obligations.CalibrationRunsEnd := by
  unfold Obligations.CalibrationRunsEnd
  refine ⟨fun s w m ⟨hm, h2, hc⟩ hw hpri => ⟨_, exec_arbiterSelfCalDue hm h2 hc, ?_⟩,
    fun s h => ⟨_, exec_arbiterSelfCalDue_none h, keptBut_same⟩,
    fun s arb k x f hm hf hk hs hn => ?_, fun s arb k x f hm hf hk ⟨h2, hr, hw⟩ hn => ?_,
    fun s arb k x f hm hf hk ⟨h3, hd, hr⟩ hn => ?_, fun s arb k q x f o hm hf hk hs hone ⟨hb, hq⟩ => ?_,
    fun s arb x h => ⟨_, exec_arbiterSelfCalEnd_none h, keptBut_same⟩,
    fun s x f k hm hf hk => ⟨_, exec_mainsConverterExchange hm, ?_⟩,
    fun s x h => ⟨_, exec_mainsConverterExchange_none h, keptBut_same⟩,
    fun s x f k o hm hf hk ho => ⟨_, exec_mainsConverterSelfCalEnd hm, ?_⟩,
    fun s x f k hm hf hk ho => ⟨_, exec_mainsConverterSelfCalEnd hm, ?_⟩,
    fun s x h => ⟨_, exec_mainsConverterSelfCalEnd_none h, keptBut_same⟩,
    fun s e r v i k o hm hv hk h0 ho => ?_, fun s e r v i k o hm hv hk hne ho => ?_,
    fun s e r v i k hm hv hk hne ho => ?_, fun s e h => ⟨_, exec_calExtEnd_none h, keptBut_same⟩,
    fun s h => ⟨_, exec_isrcLimit h, ?_⟩, fun s h => ⟨_, exec_isrcLimit_none h, keptBut_same⟩⟩
  · obtain ⟨hcal, hiso⟩ := selfCalDue_changes hw hpri
    refine ⟨hcal, hiso, ((spares_cal (by decide)).trans (mainsStart_spares (by decide) (by decide) _)).done⟩
  · obtain ⟨hk, hf⟩ := arbRan_judged hf hk
    obtain ⟨t, ht, hcal, ⟨hself, hothers⟩, hkept⟩ := arbEnd_stays hm hk hf hs hn
    exact ⟨t, ht, hcal, hself, hothers, hkept⟩
  · obtain ⟨hk, hf⟩ := arbRan_judged hf hk
    obtain ⟨t, ht, hcal, ⟨hself, hothers⟩, hkept⟩ := arbEnd_two hm hk hf h2 hr hw hn
    exact ⟨t, ht, hcal, hself, hothers, hkept⟩
  · obtain ⟨hk, hf⟩ := arbRan_judged hf hk
    obtain ⟨t, ht, hstep, hin, hout, ⟨hself, hothers⟩, hkept⟩ := arbEnd_three hm hk hf h3 hd hr hn
    exact ⟨t, ht, hstep, hin, hout, hself, hothers, hkept⟩
  · obtain ⟨hk, hf⟩ := arbRan_judged hf hk
    obtain ⟨t, ht, hcal, ⟨hself, hothers⟩, hlast, hmore, hkept⟩ := arbEnd_command hm hk hf hs hone hb hq
    exact ⟨t, ht, hcal, hself, hothers, hlast, hmore, hkept⟩
  · rw [mains_judged hf hk, done_cal, mainsFailed_cal]
    exact ⟨rfl, ((spares_cal (by decide)).trans (mainsFailed_spares (by decide) _)).done⟩
  · have hj := mains_judged hf hk
    obtain ⟨hcal, h0, h1⟩ := mainsEnd_cal hj
    have hbefore := mainsEnd_spares (s := s) (x := x)
    rw [done_cal, complete_cal]
    rw [hj] at hcal h0 h1 hbefore ⊢
    obtain ⟨hdone, houtst, -, hkept⟩ := completes_first hbefore (by decide)
      (congrArg Sets.castSeq (hbefore.parts .sets (by decide))) ho
      (a := { status := if (if s.cal.mainsCause = 0 then k else s.cal.mainsCause) = 0 then stOk else stCalFail
              detail := if s.cal.mainsCause = 0 then k else s.cal.mainsCause })
    have hst : (if (if s.cal.mainsCause = 0 then k else s.cal.mainsCause) = 0 then stOk else stCalFail) =
        if s.cal.mainsCause = 0 ∧ k = 0 then stOk else stCalFail := by
      by_cases hc : s.cal.mainsCause = 0
      · simp only [hc, if_true, true_and]
      · simp only [hc, if_false, false_and]
    rw [hst] at hdone houtst hkept ⊢
    exact ⟨hcal, h0, h1, hdone, houtst, hkept.mono (by decide)⟩
  · have hj := mains_judged hf hk
    obtain ⟨hcal, h0, h1⟩ := mainsEnd_cal hj
    have hbefore := mainsEnd_spares (s := s) (x := x)
    rw [State.complete, (hbefore.parts .requests (by decide)).2, ho]
    exact ⟨hcal, h0, h1, hbefore.done⟩
  · subst h0
    obtain ⟨t, ht, hrun, hdate, hrest, hsto, hdone, houtst, hkept⟩ := calExtEnd_assigns hm hv (extJudged_eq hk) ho
    obtain ⟨hvr, hic, hmt, hsrc, hflags, hcnt, hscaled, hsame⟩ := hrun
    obtain ⟨hext, hwait, hruns, hcal⟩ := hrest
    exact ⟨t, ht, hvr, hic, hmt, hsrc, hflags, hcnt, hscaled, hsame, hdate, hext, hwait, hruns, hcal, hsto, hdone,
      houtst, hkept⟩
  · obtain ⟨t, ht, hrun, hends, -, hkept⟩ := calExtEnd_fails hm hv (extJudged_eq hk) hne
    obtain ⟨hvr, hic, hdate, hmt, hsrc, hflags, harb, hcnt, hext, hwait, hruns, hcal⟩ := hrun
    obtain ⟨hdone, houtst⟩ := hends o ho
    exact ⟨t, ht, hvr, hic, hdate, hmt, hsrc, hflags, harb, hcnt, hext, hwait, hruns, hcal, hdone, houtst, hkept⟩
  · obtain ⟨t, ht, hrun, -, hnone, -⟩ := calExtEnd_fails hm hv (extJudged_eq hk) hne
    obtain ⟨hvr, hic, hdate, hmt, hsrc, hflags, harb, hcnt, hext, hwait, hruns, hcal⟩ := hrun
    exact ⟨t, ht, hvr, hic, hdate, hmt, hsrc, hflags, harb, hcnt, hext, hwait, hruns, hcal, hnone ho⟩
  · refine ⟨by rw [done_cal, tellBusy_cal]; rfl, fun hx => ?_, ?_⟩
    · rw [isrcOff_tells h hx, done_twin_of_fig (s := s) (u := s.isrcOff.sendReliable 0xA) rfl]
      rfl
    · exact ((spares_cal (by decide)).trans ((spares_cal (by decide)).trans (tellBusy_spares _ s))).done

end Sys2Proof.Machine

/-! A spare slot that ends with a set of a span code no span has: its key lies beyond the keys of slice 17, and the
set comes into force there (R416). The obligation on the rotation has no premise on the span codes. -/

namespace Sys2Proof.Machine

section

/-- The management plane is up, and the slot of bus 0 runs. -/
def slotOnBus0 : State :=
  { State.reset with
    rst := { State.reset.rst with mgmtUp := true }
    cal := { State.reset.cal with slotRun := 1#4 } }

/-- The spare of group 0, found with a first set under span code 8. -/
def spareBeyond : SpareCal := { grp := 0, sets := [(8, factorDefault)], probe := [], agree := 0 }

/-- The set comes into force under key 144, of no slice. -/
theorem spareSlotEnd_slotOnBus0 (t : State) (h : exec (.spareSlotEnd 0 [spareBeyond]) slotOnBus0 = .next t) :
    (tget? (t.calAt 0).inForce 144).isSome = true := by
  obtain rfl := Host.Outcome.next.inj h
  rw [done_calAt]
  decide +kernel

/-- Refutes O48: the end of a slot leaves what is in force for the other slices, says the statement, and the slot of
`slotOnBus0` puts a set under a key that is none of slice 17. -/
theorem not_theRotationAndItsSlots : ¬ Obligations.TheRotationAndItsSlots := by
  intro h
  obtain ⟨-, -, -, -, -, -, -, -, -, -, -, slotEnd, -⟩ := h
  obtain ⟨t, ht, hspares, -⟩ := slotEnd slotOnBus0 0 [spareBeyond] ⟨rfl, by decide, rfl⟩ ⟨by decide, by decide⟩
    ⟨⟨rfl, by decide⟩, .inl (by decide)⟩ rfl
  obtain ⟨-, -, hstands, -⟩ := hspares spareBeyond List.mem_cons_self (by decide)
  have hforce := spareSlotEnd_slotOnBus0 t ht
  have hnone : (tget? (slotOnBus0.calAt spareBeyond.grp).inForce 144).isSome = false := rfl
  rw [← hstands 144 (by decide)] at hnone
  exact absurd (hforce.symm.trans hnone) (by decide)

end

end Sys2Proof.Machine

/-! A standby whose table of figures lists one twice, enabled in its second entry: a detach ends it by its first entry
(R614). The obligation on the partner's frames has no premise that a table lists each figure once. -/

namespace Sys2Proof.Machine

section

/-- A standby that the partner's detach reaches, with figure 5 listed twice. -/
def standbyListedTwice : State :=
  { State.reset with
    rst := { State.reset.rst with ctrlUp := true }
    twin := { State.reset.twin with train := .up, role := .standby }
    fig := [(5, Fig.init), (5, { Fig.init with enabled := true })] }

/-- The second entry stays enabled. -/
theorem controlFrame_standbyListedTwice (t : State)
    (h : exec (.controlFrame .detach 0#32) standbyListedTwice = .next t) :
    t.fig.all (fun e => !e.2.enabled) = false := by
  obtain rfl := Host.Outcome.next.inj h
  rw [done_fig]
  decide +kernel

/-- Refutes O50: a standby that is detached has every figure disabled, says the statement, and `standbyListedTwice`
keeps an entry that is enabled. -/
theorem not_framesOfThePartnerAct : ¬ Obligations.FramesOfThePartnerAct := by
  intro h
  obtain ⟨-, -, -, -, -, -, -, -, -, -, -, -, -, -, -, -, -, -, -, -, -, -, -, -, -, -, detach, -⟩ := h
  obtain ⟨t, ht, -, -, hstandby, -⟩ := detach standbyListedTwice 0#32 ⟨rfl, rfl⟩ rfl
  obtain ⟨-, hall⟩ := hstandby rfl
  rw [controlFrame_standbyListedTwice t ht] at hall
  exact absurd hall (by decide)

end

end Sys2Proof.Machine

/-! A standby that settles as the active module, and one that takes over while an edit waits. The first lists a figure
twice, enabled in its second entry; the second answers the edit as the link is lost, which moves its mailbox's response
tail (R595, R598, R613). -/

namespace Sys2Proof.Machine

section

/-- A standby in CONFIG, with groups seated and figure 5 listed twice. -/
def configListedTwice : State :=
  { State.reset with
    rst := { State.reset.rst with ctrlUp := true }
    twin := { State.reset.twin with train := .config, trying := true, role := .standby, seated := 1#16 }
    fig := [(5, Fig.init), (5, { Fig.init with enabled := true })] }

/-- What its partner says of itself: no group is seated there. -/
def unseatedPartner : ConfigMsg :=
  { part := partCode State.reset.ident.part, major := 2, serial := State.reset.ident.serial + 1#64, strap := 0#2
    pref := 0, seated := 0#16, era := 0#32, digest := 0#64, latency := 0 }

/-- The second entry stays enabled. -/
theorem config_configListedTwice (t : State) (h : exec (.config unseatedPartner) configListedTwice = .next t) :
    t.fig.all (fun e => !e.2.enabled) = false := by
  obtain rfl := Host.Outcome.next.inj h
  rw [done_fig]
  decide +kernel

/-- Refutes O51: a standby that settles as active has every figure disabled, says the statement, and
`configListedTwice` keeps an entry that is enabled. -/
theorem not_theCosynLinkTrains : ¬ Obligations.TheCosynLinkTrains := by
  intro h
  obtain ⟨-, -, -, -, -, -, -, -, config, -⟩ := h
  obtain ⟨t, ht, -, -, hstandby, -⟩ := config configListedTwice unseatedPartner ⟨rfl, rfl, rfl⟩
    ⟨rfl, rfl, by decide, by decide⟩ (by decide +kernel)
  obtain ⟨-, hall⟩ := hstandby rfl
  rw [config_configListedTwice t ht] at hall
  exact absurd hall (by decide)

/-- A standby that has missed two slots, with an edit of mailbox 0 that waits for its partner. -/
def standbyWithEdit : State :=
  { State.reset with
    rst := { State.reset.rst with ctrlUp := true }
    host := { State.reset.host with mbx := [(0, { Mbx.init with state := .opened })] }
    twin := { State.reset.twin with
      train := .up, role := .standby, missRun := 2, last := some State.reset.beat
      edits := [{ fseq := 0#32, mbx := 0, opcode := 0x0302, tag := 0#16, outLen := 0, outAddr := 0#64
                  mtAccept := 0#64, result := [] }] } }

/-- The answer to the edit is in the mailbox as the takeover resets it. -/
theorem heartbeatSlotClose_standbyWithEdit (t : State) (h : exec .heartbeatSlotClose standbyWithEdit = .next t) :
    (t.mbxAt 0).rspTail = 1#16 := by
  obtain rfl := Host.Outcome.next.inj h
  rw [done_mbxAt]
  decide +kernel

/-- Refutes O52: a takeover leaves the indices of the mailboxes, says the statement, and `standbyWithEdit` moves the
response tail of mailbox 0. -/
theorem not_theStandbyTakesOver : ¬ Obligations.TheStandbyTakesOver := by
  intro h
  obtain ⟨-, -, -, -, -, -, slotClose, -⟩ := h
  obtain ⟨t, ht, -, -, -, -, -, -, -, -, -, -, -, -, -, -, -, hmbx, -⟩ := slotClose standbyWithEdit ⟨rfl, rfl, .inl rfl⟩
    ⟨by decide, rfl, rfl⟩ (.inr rfl) (.inl rfl)
  have htail : (t.mbxAt 0).rspTail = 0#16 := (congrArg Mbx.rspTail (hmbx 0 (by decide))).trans rfl
  rw [heartbeatSlotClose_standbyWithEdit t ht] at htail
  exact absurd htail (by decide)

end

end Sys2Proof.Machine

/-! SUPPORT for O60. A state is sound while its service window is canonical and its error ring holds at most 4096
records (R544, R622). An operation that answers no command leaves both as they are; one that answers writes the window,
and keeps it canonical. One lemma for each, by the file of the model. -/

namespace Sys2Proof.Machine

section
variable {s t u : State}

/-- A canonical window and a ring within its size. -/
def soundOf (w : List Host.Cell) (r : List ErrEntry) : Prop := cellsWf w = true ∧ r.length ≤ ringSize

/-- The service window is canonical and the error ring within its size. -/
def State.sound (s : State) : Prop := soundOf s.host.window s.err.ring

@[simp] theorem sound_mk (a b c d e f g h i j k l m n o p q r x y z w) :
    State.sound ⟨a, b, c, d, e, f, g, h, i, j, k, l, m, n, o, p, q, r, x, y, z, w⟩ =
      soundOf o.window q.ring := by simp only [State.sound]

@[simp] theorem sound_eta (s : State) : soundOf s.host.window s.err.ring = s.sound := by
  simp only [State.sound]

@[simp] theorem sound_ite (c : Prop) [Decidable c] (t u : State) :
    (if c then t else u).sound = if c then t.sound else u.sound := apply_ite State.sound c t u

@[simp] theorem foldl_sound {β : Type} (f : State → β → State) (hf : ∀ s x, (f s x).sound = s.sound)
    (l : List β) (s : State) : (l.foldl f s).sound = s.sound := by
  induction l generalizing s with
  | nil => rfl
  | cons x l ih => rw [List.foldl_cons, ih, hf]

/-- The same for a fold that carries a result beside the state. -/
@[simp] theorem foldl_pair_sound {β γ : Type} (f : State × γ → β → State × γ)
    (hf : ∀ a x, (f a x).1.sound = a.1.sound) (l : List β) (a : State × γ) :
    (l.foldl f a).1.sound = a.1.sound := by
  induction l generalizing a with
  | nil => rfl
  | cons x l ih => rw [List.foldl_cons, ih, hf]

/-- A fold of an operation that answers commands. -/
@[simp] theorem foldl_keeps {β : Type} {f : State → β → State} (hs : s.sound)
    (hf : ∀ t x, t.sound → (f t x).sound) (l : List β) : (l.foldl f s).sound := by
  induction l generalizing s with
  | nil => exact hs
  | cons x l ih => exact ih (hf _ _ hs)

@[simp] theorem foldl_pair_keeps {β γ : Type} {f : State × γ → β → State × γ} {a : State × γ} (hs : a.1.sound)
    (hf : ∀ a x, a.1.sound → (f a x).1.sound) (l : List β) : (l.foldl f a).1.sound := by
  induction l generalizing a with
  | nil => exact hs
  | cons x l ih => exact ih (hf _ _ hs)

/-! ### The window and the ring -/

@[simp] theorem vecPcie_window (h : HostIf) (v : Nat) : (h.vecPcie v).window = h.window := by
  unfold HostIf.vecPcie; split <;> rfl

@[simp] theorem vecSpi_window (h : HostIf) (v : Nat) : (h.vecSpi v).window = h.window := rfl

@[simp] theorem vecOf_window (h : HostIf) (p : Port) (v : Nat) : (h.vecOf p v).window = h.window := by
  cases p
  · exact vecPcie_window h v
  · rfl

@[simp] theorem vecAll_window (h : HostIf) (v : Nat) : (h.vecAll v).window = h.window := vecPcie_window h v

@[simp] theorem flushPba_window (h : HostIf) : h.flushPba.window = h.window := rfl

@[simp] theorem foldl_window {β : Type} (f : HostIf → β → HostIf) (hf : ∀ h x, (f h x).window = h.window)
    (l : List β) (h : HostIf) : (l.foldl f h).window = h.window := by
  induction l generalizing h with
  | nil => rfl
  | cons x l ih => rw [List.foldl_cons, ih, hf]

/-- What is written into a canonical window leaves it canonical. -/
theorem soundOf_winWrite {h : HostIf} {r : List ErrEntry} (hs : soundOf h.window r) (a : Nat) (l : List Byte) :
    soundOf (h.winWrite a l).window r := ⟨cellsWf_winWrite l h a hs.1, hs.2⟩

theorem soundOf_writeResponse {h : HostIf} {r : List ErrEntry} (hs : soundOf h.window r) (n : Nat)
    (a : BitVec 64) (q : Response) : soundOf (h.writeResponse n a q).window r := by
  have hb (m : Mbx) : soundOf (h.writeBack m a q).window r := by
    unfold HostIf.writeBack
    split
    · exact hs
    · have h2 := soundOf_winWrite (soundOf_winWrite hs a.toNat q.out) (ringAddr m.rspBase m.rspLog2 m.rspTail)
        q.bytes
      dsimp only
      split
      · exact h2
      · exact soundOf_winWrite h2 ..
  unfold HostIf.writeResponse
  dsimp only
  split
  · rw [vecOf_window]
    exact hb _
  · exact hb _

/-- A record joins the ring only where it has room. -/
@[simp] theorem soundOf_form (w : List Host.Cell) (e : Err) (clk : Nat) (r : ErrRec) :
    soundOf w (e.form clk r).ring = soundOf w e.ring := by
  have hl : (e.form clk r).ring.length ≤ ringSize ↔ e.ring.length ≤ ringSize := by
    unfold Err.form
    split
    next l hl =>
      split_ifs at hl
      have := congrArg List.length (tryRepeat_mark hl)
      simp only [List.length_map] at this
      rw [this]
    next =>
      dsimp only
      split
      next h => simp [h.le, Nat.succ_le_of_lt h]
      next => rw [(freeze_log ..).1]
  rw [soundOf, soundOf, hl]

@[simp] theorem modMbx_window (s : State) (n : Nat) (f : Mbx → Mbx) : (s.modMbx n f).host.window = s.host.window :=
  rfl

@[simp] theorem modHdr_window (s : State) (n : Nat) (f : Hdr → Hdr) : (s.modHdr n f).host.window = s.host.window :=
  rfl

/-! ### Commands -/

/-- A command leaves a sound state sound. -/
def Stays (s : State) (o : Host.Outcome State Fault Refusal) : Prop :=
  s.sound → ∀ t, o = .next t → t.sound

/-- What the end of a step records leaves a sound state sound. -/
theorem done_sound (h : u.sound) : (State.done s u).sound := by
  obtain ⟨hw, hr⟩ := h
  refine ⟨?_, ?_⟩
  · rwa [done_host_window]
  · refine done_err_of_log (fun e => e.ring.length ≤ ringSize) s u (fun x e _ hx => ?_) (fun _ _ ha => ha) hr
    cases hd : x.rst.dataUp with
    | true =>
      rw [log_err_up hd]
      exact (cast (soundOf_form [] x.err x.clk _).symm ⟨rfl, hx⟩).2
    | false =>
      rw [log_err_down hd]
      exact hx

theorem stays_finish (h : s.sound → u.sound) : Stays s (finish s u) := by
  rintro hs t ht
  obtain rfl := Host.Outcome.next.inj ht
  exact done_sound (h hs)

end

end Sys2Proof.Machine

namespace Sys2Proof.Machine

section
variable (s : State)

/-! ### Machine/Ops.lean -/

@[simp] theorem modGrp_sound (g : Nat) (f : Grp → Grp) : (s.modGrp g f).sound = s.sound := by
  simp [State.modGrp]
@[simp] theorem modSp_sound (p : Nat) (f : Sp → Sp) : (s.modSp p f).sound = s.sound := by simp [State.modSp]
@[simp] theorem modFig_sound (n : Nat) (f : Fig → Fig) : (s.modFig n f).sound = s.sound := by
  simp [State.modFig]
@[simp] theorem modQue_sound (q : Nat) (f : Queue → Queue) : (s.modQue q f).sound = s.sound := by
  simp [State.modQue]
@[simp] theorem modMbx_sound (n : Nat) (f : Mbx → Mbx) : (s.modMbx n f).sound = s.sound := by
  simp [State.modMbx]
@[simp] theorem modHdr_sound (n : Nat) (f : Hdr → Hdr) : (s.modHdr n f).sound = s.sound := by
  simp [State.modHdr]
@[simp] theorem modCal_sound (g : Nat) (f : CalGrp → CalGrp) : (s.modCal g f).sound = s.sound := by
  simp [State.modCal]
@[simp] theorem modTwin_sound (f : Twin → Twin) : (s.modTwin f).sound = s.sound := by
  simp [State.modTwin]
@[simp] theorem modPlace_sound (n : Nat) (f : Placement → Placement) :
    (s.modPlace n f).sound = s.sound := by
  simp [State.modPlace]
@[simp] theorem raise_sound (code : Nat) : (s.raise code).sound = s.sound := by simp [State.raise]
@[simp] theorem raisePort_sound (p k : Nat) : (s.raisePort p k).sound = s.sound := by simp [State.raisePort]
@[simp] theorem raiseGrp_sound (g k : Nat) : (s.raiseGrp g k).sound = s.sound := by simp [State.raiseGrp]
@[simp] theorem raiseFig_sound (f kind : Nat) : (s.raiseFig f kind).sound = s.sound := by
  simp [State.raiseFig]
@[simp] theorem formErr_sound (r : ErrRec) :
    (s.formErr r).sound = s.sound := by
  simp [State.formErr]
@[simp] theorem log_sound (e : ErrSpec) :
    (s.log e).sound = s.sound := by simp [State.log]
@[simp] theorem logDeferred_sound : s.logDeferred.sound = s.sound := by simp [State.logDeferred]
@[simp] theorem carry_sound : s.carry.sound = s.sound := by simp [State.carry]
@[simp] theorem logSat_sound (k : SatKey) : (s.logSat k).sound = s.sound := by simp [State.logSat]
@[simp] theorem logSats_sound (s0 s1 : State) : (State.logSats s0 s1).sound = s1.sound := by
  simp [State.logSats]
@[simp] theorem sendReliable_sound (ftype : Nat) : (s.sendReliable ftype).sound = s.sound := by
  simp [State.sendReliable]
@[simp] theorem tell_sound (ftype : Nat) : (s.tell ftype).sound = s.sound := by simp [State.tell]
@[simp] theorem sendRunners_sound (s0 s1 : State) :
    (State.sendRunners s0 s1).sound = s1.sound := by
  simp [State.sendRunners]
@[simp] theorem raiseReady_sound (s0 s1 : State) : (State.raiseReady s0 s1).sound = s1.sound := by
  simp [State.raiseReady]
@[simp] theorem fresh_sound : s.fresh.sound = s.sound := by simp [State.fresh]
@[simp] theorem answer_sound (hs : s.sound) (w : Waiter) (a : Answer) : (s.answer w a).sound := by
  unfold State.answer
  split
  · exact soundOf_writeResponse hs ..
  · exact hs
@[simp] theorem answer_window_sound (hs : s.sound) (w : Waiter) (a : Answer) :
    soundOf (s.answer w a).host.window s.err.ring := answer_err (s := s) (w := w) (a := a) ▸ answer_sound s hs w a
@[simp] theorem reply_sound (hs : s.sound) (r : Req) (opcode : Nat) (a : Answer) :
    (s.reply r opcode a).sound := by
  simp [hs, State.reply]
@[simp] theorem refuse_sound (hs : s.sound) (r : Req) (opcode status detail : Nat) :
    (s.refuse r opcode status detail).sound := by
  simp [hs, State.refuse]
@[simp] theorem ok_sound (hs : s.sound) (r : Req) (opcode : Nat) (result out : List Byte) :
    (s.ok r opcode result out).sound := by
  simp [hs, State.ok]
@[simp] theorem take_sound (r : Req) : (s.take r).sound = s.sound := by simp [State.take]
@[simp] theorem defer_sound (r : Req) (opcode obj aux phase : Nat) :
    (s.defer r opcode obj aux phase).sound = s.sound := by
  simp [State.defer]
@[simp] theorem complete_sound (hs : s.sound) (p : Outstanding → Bool) (a : Answer) :
    (s.complete p a).sound := by
  unfold State.complete; split <;> simp [hs]
@[simp] theorem completeAll_sound (hs : s.sound) (p : Outstanding → Bool) (a : Outstanding → Answer) :
    (s.completeAll p a).sound :=
  foldl_keeps (by simp [hs]) (fun t o ht => by simp [ht]) _

section
variable {s}
theorem stays_umser {r : Req} {op : Nat} {g : Gate} {body : State → State}
    (hb : ∀ t, t.sound → (body t).sound) : Stays s (umser r op g s body) := by
  unfold umser
  refine stays_finish fun hs => ?_
  split
  · split
    · simp [hs]
    · exact hb _ (by simpa using hs)
  · exact hs
end

/-! ### Machine/Commit.lean -/

@[simp] theorem closePage_sound (id : Nat) : (s.closePage id).sound = s.sound := by
  simp [State.closePage]
@[simp] theorem newPage_sound (prio set : Nat) (k : Packet) :
    (s.newPage prio set k).sound = s.sound := by
  simp [State.newPage]
@[simp] theorem stagePacket_sound (prio set : Nat) (k : Packet) :
    (s.stagePacket prio set k).sound = s.sound := by
  unfold State.stagePacket; split <;> simp
@[simp] theorem stageSome_sound (fig : Nat) (l : List Packet) :
    (s.stageSome fig l).1.sound = s.sound := by
  induction l generalizing s with
  | nil => rfl
  | cons k l ih => simp only [State.stageSome]; split <;> simp [ih]
@[simp] theorem syncPeat_sound : s.syncPeat.sound = s.sound := by simp [State.syncPeat]
@[simp] theorem stoWatch_sound : s.stoWatch.sound = s.sound := by simp [State.stoWatch]
@[simp] theorem archivePacket_sound (fig : Nat) (k : Packet) :
    (s.archivePacket fig k).sound = s.sound := by
  simp [State.archivePacket]
@[simp] theorem produce_sound (qid : Nat) (b : Building) : (s.produce qid b).sound = s.sound := by
  simp [State.produce]
@[simp] theorem produceRecord_sound (fig stream : Nat) (key : Word) (bytes : List Byte) :
    (s.produceRecord fig stream key bytes).sound = s.sound := by simp [State.produceRecord]
@[simp] theorem logQueueEvent_sound (fig stream : Nat) (e : QueueEvent) :
    (s.logQueueEvent fig stream e).sound = s.sound := by
  simp [State.logQueueEvent]
@[simp] theorem queueEvent_sound (qid : Nat) (e : QueueEvent) :
    (s.queueEvent qid e).sound = s.sound := by simp [State.queueEvent]
@[simp] theorem queFlag_sound (m : Word) : (s.queFlag m).sound = s.sound := by simp [State.queFlag]
@[simp] theorem abandon_sound (qid cause : Nat) (b : Building) :
    (s.abandon qid cause b).sound = s.sound := by simp [State.abandon]
@[simp] theorem divertRecord_sound (qid : Nat) (r : SeqRun) :
    (s.divertRecord qid r).sound = s.sound := by
  simp [State.divertRecord]
@[simp] theorem endDivert_sound (qid : Nat) : (s.endDivert qid).sound = s.sound := by
  unfold State.endDivert; split <;> simp
@[simp] theorem endOverflow_sound (qid : Nat) : (s.endOverflow qid).sound = s.sound := by
  unfold State.endOverflow; split <;> simp
@[simp] theorem overflowPacket_sound (qid : Nat) (seq : Word) :
    (s.overflowPacket qid seq).sound = s.sound := by
  simp [State.overflowPacket]
@[simp] theorem divertAll_sound (qid : Nat) (copied : Bool) :
    (s.divertAll qid copied).sound = s.sound := by
  unfold State.divertAll
  extract_lets q d moved t t'
  have hd : d.1.sound = s.sound := by simp only [d]; split <;> simp
  have ht : t'.sound = s.sound := by simp [t', t, hd]
  simp [ht]
@[simp] theorem place_sound (qid : Nat) (p : Packet) (copied : Bool) :
    (s.place qid p copied).sound = s.sound := by
  simp [State.place]
@[simp] theorem resCommit_sound (fig : Nat) (n : ResNote) :
    (s.resCommit fig n).sound = s.sound := by
  simp [State.resCommit]
@[simp] theorem noteCommit_sound (fig : Nat) (n : Option ResNote) :
    (s.noteCommit fig n).sound = s.sound := by
  unfold State.noteCommit; split <;> simp
@[simp] theorem tuneAnswer_sound (hs : s.sound) (n : TuneNote) : (s.tuneAnswer n).sound := by
  simp [hs, State.tuneAnswer]
@[simp] theorem tuneCommit_sound (hs : s.sound) (n : Option TuneNote) : (s.tuneCommit n).sound := by
  unfold State.tuneCommit; split <;> simp [hs]
@[simp] theorem commitPacket_sound (hs : s.sound) (qid : Nat) (b : Building) (poison : List Nat) :
    (s.commitPacket qid b poison).sound := by
  simp [hs, State.commitPacket]
@[simp] theorem reportLost_sound (p : Nat → Bool) : (s.reportLost p).sound = s.sound := by
  simp [State.reportLost]
@[simp] theorem reportUnknown_sound (qid : Nat) : (s.reportUnknown qid).sound = s.sound := by
  unfold State.reportUnknown; split <;> simp

/-! ### Machine/Queues.lean -/

@[simp] theorem countPoison_sound (n : Nat) : (s.countPoison n).sound = s.sound := by
  simp [State.countPoison]
@[simp] theorem popWords_sound (hs : s.sound) (r : Req) (qid n : Nat) : (s.popWords r qid n).sound := by
  unfold State.popWords; simp only; split <;> simp [hs]
@[simp] theorem execQuePop_sound (r : Req) (qid words : Nat) : Stays s (execQuePop r qid words s) :=
  stays_umser fun t hs => by simp [hs]
@[simp] theorem execQueDropRest_sound (r : Req) (qid : Nat) : Stays s (execQueDropRest r qid s) := by
  refine stays_umser fun t hs => ?_
  simp only
  split
  · simp [hs]
  · split
    · simp [hs]
    · split <;> simp [hs]
@[simp] theorem flushCut_sound (qid : Nat) : (s.flushCut qid).1.sound = s.sound := by
  unfold State.flushCut; split <;> simp
@[simp] theorem flushRecord_sound (qid : Nat) (toRing : Bool) (l : List Packet) :
    (s.flushRecord qid toRing l).sound = s.sound := by
  unfold State.flushRecord; split <;> simp
@[simp] theorem flushQueue_sound (qid : Nat) (toRing : Bool) :
    (s.flushQueue qid toRing).1.sound = s.sound := by
  simp [State.flushQueue]
@[simp] theorem flushesDone_sound (hs : s.sound) : s.flushesDone.sound :=
  foldl_keeps (by simp [hs]) (fun t f ht => by simp [ht]) _
@[simp] theorem execQueFlush_sound (r : Req) (scope obj : Nat) : Stays s (execQueFlush r scope obj s) :=
  stays_umser fun t hs => by simp [hs]
@[simp] theorem execFlushPoint_sound (qid : Nat) : Stays s (execFlushPoint qid s) :=
  stays_finish fun hs => by simp [hs]
@[simp] theorem grant_sound (qid n : Nat) :
    (s.grant qid n).sound = s.sound := by simp [State.grant]
@[simp] theorem execQueCredit_sound (r : Req) (qid grant : Nat) :
    Stays s (execQueCredit r qid grant s) :=
  stays_umser fun t hs => by simp [hs]
@[simp] theorem execQuePush_sound (r : Req) (qid : Nat) (words : List DWord) :
    Stays s (execQuePush r qid words s) :=
  stays_umser fun t hs => by simp [hs]
@[simp] theorem execQueStatusRead_sound (r : Req) (first count : Nat) :
    Stays s (execQueStatusRead r first count s) :=
  stays_umser fun t hs => by simp [hs]
@[simp] theorem countCorrected_sound (qid n : Nat) : (s.countCorrected qid n).sound = s.sound := by
  simp [State.countCorrected]
@[simp] theorem execPacketCommit_sound (qid corrected : Nat) (ecc : Bool) (poison : List Nat) :
    Stays s (execPacketCommit qid corrected ecc poison s) := by
  unfold execPacketCommit; refine stays_finish fun hs => ?_; (repeat' split) <;> simp [hs]

end

end Sys2Proof.Machine

namespace Sys2Proof.Machine

section
variable (s : State)

/-! ### Machine/Storage.lean -/

@[simp] theorem modTarget_sound (n : Nat) (f : Target → Target) :
    (s.modTarget n f).sound = s.sound := by
  simp [State.modTarget]
@[simp] theorem stoFlag_sound (m : Word) : (s.stoFlag m).sound = s.sound := by simp [State.stoFlag]
@[simp] theorem pauseFor_sound (channel : Nat) : (s.pauseFor channel).sound = s.sound := by
  unfold State.pauseFor; split <;> simp
@[simp] theorem startPage_sound (p : Page) (n : Nat) : (s.startPage p n).sound = s.sound := by
  simp [State.startPage]
@[simp] theorem countStart_sound (channel cls : Nat) :
    (s.countStart channel cls).sound = s.sound := by
  simp [State.countStart]
@[simp] theorem execNandOpStart_sound (channel : Nat) : Stays s (execNandOpStart channel s) := by
  unfold execNandOpStart; refine stays_finish fun hs => ?_; (repeat' split) <;> simp [hs]
@[simp] theorem releaseBuffers_sound (n block : Nat) :
    (s.releaseBuffers n block).sound = s.sound := by
  simp [State.releaseBuffers]
@[simp] theorem confirmPage_sound (id : Nat) : (s.confirmPage id).sound = s.sound := by
  unfold State.confirmPage; split <;> simp
@[simp] theorem relocate_sound (n block : Nat) : (s.relocate n block).sound = s.sound := by
  simp [State.relocate]
@[simp] theorem growBad_sound (n block : Nat) : (s.growBad n block).sound = s.sound := by
  simp [State.growBad]
@[simp] theorem retire_sound (n : Nat) : (s.retire n).sound = s.sound := by simp [State.retire]
@[simp] theorem programFailed_sound (p : Page) : (s.programFailed p).sound = s.sound := by
  simp [State.programFailed]
@[simp] theorem execProgramStatus_sound (target : Nat) (pass : Bool) :
    Stays s (execProgramStatus target pass s) := by
  unfold execProgramStatus; refine stays_finish fun hs => ?_; (repeat' split) <;> simp [hs]
@[simp] theorem blockErased_sound (n block : Nat) : (s.blockErased n block).sound = s.sound := by
  simp [State.blockErased]
@[simp] theorem formatDone_sound (hs : s.sound) : s.formatDone.sound := by simp [hs, State.formatDone]
@[simp] theorem execEraseStatus_sound (target : Nat) (pass : Bool) :
    Stays s (execEraseStatus target pass s) := by
  unfold execEraseStatus; refine stays_finish fun hs => ?_; (repeat' split) <;> simp [hs]
@[simp] theorem execMireFormat_sound (r : Req) (key : Nat) : Stays s (execMireFormat r key s) :=
  stays_umser fun t hs => by simp [hs]
@[simp] theorem reportStorageLoss_sound (era : Word) (l : List Packet) :
    (s.reportStorageLoss era l).sound = s.sound := by
  simp [State.reportStorageLoss]
@[simp] theorem restage_sound (p : Page) : (s.restage p).sound = s.sound := by simp [State.restage]
@[simp] theorem execNandReadDone_sound (target corrected : Nat) (weak : Bool) (lost : List Nat) :
    Stays s (execNandReadDone target corrected weak lost s) := by
  unfold execNandReadDone; refine stays_finish fun hs => ?_; (repeat' split) <;> simp [hs]
@[simp] theorem requeue_sound (n : Nat) : (s.requeue n).sound = s.sound := by simp [State.requeue]
@[simp] theorem execTargetTimeout_sound (target : Nat) : Stays s (execTargetTimeout target s) :=
  stays_finish fun hs => by simp [hs]
@[simp] theorem execChannelResetEnd_sound (target : Nat) (ready : Bool) :
    Stays s (execChannelResetEnd target ready s) := stays_finish fun hs => by simp [hs]
@[simp] theorem execDrainFault_sound (drain : Nat) : Stays s (execDrainFault drain s) :=
  stays_finish fun hs => by simp [hs]
@[simp] theorem execRateMeasure_sound (busy : Bool) (mbps : Nat) :
    Stays s (execRateMeasure busy mbps s) := stays_finish fun hs => by simp [hs]
@[simp] theorem execMapCheckpoint_sound : Stays s (execMapCheckpoint s) := stays_finish fun hs => by simp [hs]
@[simp] theorem execPageBufferClose_sound (page : Nat) : Stays s (execPageBufferClose page s) :=
  stays_finish fun hs => by simp [hs]
@[simp] theorem execMireRead_sound (r : Req) (qid : Nat) (first : Word) (count ring : Nat) :
    Stays s (execMireRead r qid first count ring s) :=
  stays_umser fun t hs => by simp [hs]
@[simp] theorem reclaim_sound : s.reclaim.sound = s.sound := by simp [State.reclaim]
@[simp] theorem release_sound (gone : Page → Packet → Bool) :
    (s.release gone).1.sound = s.sound := by
  simp [State.release]
@[simp] theorem execMireRelease_sound (r : Req) (mode qid : Nat) (seq : Word) (mt : DWord) :
    Stays s (execMireRelease r mode qid seq mt s) :=
  stays_umser fun t hs => by simp [hs]
@[simp] theorem execMireQuery_sound (r : Req) (qid : Nat) (start : Word) :
    Stays s (execMireQuery r qid start s) :=
  stays_umser fun t hs => by simp [hs]
@[simp] theorem execMireStatusRead_sound (r : Req) : Stays s (execMireStatusRead r s) :=
  stays_umser fun t hs => by simp [hs]
@[simp] theorem execMireTargetRetire_sound (r : Req) (channel target : Nat) :
    Stays s (execMireTargetRetire r channel target s) :=
  stays_umser fun t hs => by simp [hs]
@[simp] theorem attach_sound (n : NandScan) :
    (s.attach n).sound = s.sound := by simp [State.attach]
@[simp] theorem mireState_sound : s.mireState.sound = s.sound := by simp [State.mireState]

/-! ### Machine/Host.lean -/

@[simp] theorem hostFlag_sound (m : Word) : (s.hostFlag m).sound = s.sound := by
  simp [State.hostFlag]
@[simp] theorem badAccess_sound : s.badAccess.sound = s.sound := by simp [State.badAccess]
@[simp] theorem cplError_sound (k : HostRead) : (s.cplError k).sound = s.sound := by
  simp [State.cplError]
@[simp] theorem endSession_sound (n : Nat) : (s.endSession n).sound = s.sound := by
  simp [State.endSession]
@[simp] theorem resetMbx_sound (n reason code : Nat) :
    (s.resetMbx n reason code).sound = s.sound := by
  simp [State.resetMbx]
@[simp] theorem doorbell_sound (port : Port) (n : Nat) (body : Mbx → State) (hf : ∀ m,
    (body m).sound = s.sound) :
    (s.doorbell port n body).sound = s.sound := by
  simp [State.doorbell, hf]
@[simp] theorem rspHead_sound (port : Port) (mbx : Nat) (arg : BitVec 28) :
    (s.rspHead port mbx arg).sound = s.sound := by
  simp [State.rspHead]
@[simp] theorem execRspHead_sound (port : Port) (mbx : Nat) (arg : BitVec 28) :
    Stays s (execRspHead port mbx arg s) := stays_finish fun hs => by simp [hs]
@[simp] theorem setupLo_sound (port : Port) (mbx : Nat) (arg : BitVec 28) :
    (s.setupLo port mbx arg).sound = s.sound := by
  simp [State.setupLo]
@[simp] theorem execSetupLo_sound (port : Port) (mbx : Nat) (arg : BitVec 28) :
    Stays s (execSetupLo port mbx arg s) := stays_finish fun hs => by simp [hs]
@[simp] theorem setupHi_sound (port : Port) (mbx : Nat) (arg : BitVec 28) :
    (s.setupHi port mbx arg).sound = s.sound := by
  simp [State.setupHi]
@[simp] theorem execSetupHi_sound (port : Port) (mbx : Nat) (arg : BitVec 28) :
    Stays s (execSetupHi port mbx arg s) := stays_finish fun hs => by simp [hs]
@[simp] theorem execSetupBlockCheck_sound (mbx : Nat) (read : HostRead) (block : BitVec 512) :
    Stays s (execSetupBlockCheck mbx read block s) := stays_finish fun hs => by simp [hs]
@[simp] theorem closeMbx_sound (port : Port) (mbx : Nat) :
    (s.closeMbx port mbx).sound = s.sound := by
  simp [State.closeMbx]
@[simp] theorem execClose_sound (port : Port) (mbx : Nat) : Stays s (execClose port mbx s) :=
  stays_finish fun hs => by simp [hs]
@[simp] theorem execMailboxClosed_sound (mbx : Nat) : Stays s (execMailboxClosed mbx s) :=
  stays_finish fun hs => by simp [hs]
@[simp] theorem ackReset_sound (port : Port) (mbx : Nat) :
    (s.ackReset port mbx).sound = s.sound := by
  simp [State.ackReset]
@[simp] theorem execAckReset_sound (port : Port) (mbx : Nat) : Stays s (execAckReset port mbx s) :=
  stays_finish fun hs => by simp [hs]
@[simp] theorem ringFault_sound (n code : Nat) : (s.ringFault n code).sound = s.sound := by
  simp [State.ringFault]
@[simp] theorem tailWrite_sound (port : Port) (mbx : Nat) (value : Word) :
    (s.tailWrite port mbx value).sound = s.sound := by
  simp [State.tailWrite]
@[simp] theorem execMbxTailWrite_sound (port : Port) (mbx : Nat) (value : Word) :
    Stays s (execMbxTailWrite port mbx value s) := stays_finish fun hs => by simp [hs]
@[simp] theorem fetched_sound (hs : s.sound) (n : Nat) (d : BitVec 512) (input : HostRead) :
    (s.fetched n d input).sound := by
  unfold State.fetched; simp only; split <;> simp [hs]
@[simp] theorem execRequestFetch_sound (mbx : Nat) (ring : HostRead) (desc : BitVec 512)
    (input : HostRead) :
    Stays s (execRequestFetch mbx ring desc input s) := stays_finish fun hs => by simp [hs]
@[simp] theorem execIrqHoldoffExpiry_sound (ring : Bool) (n : Nat) :
    Stays s (execIrqHoldoffExpiry ring n s) := stays_finish fun hs => by simp [hs]
@[simp] theorem execSesInfo_sound (r : Req) : Stays s (execSesInfo r s) :=
  stays_umser fun t hs => by simp [hs]
@[simp] theorem giveBack_sound (ring : Nat) : (s.giveBack ring).sound = s.sound := by
  simp [State.giveBack]
@[simp] theorem abortReads_sound (hs : s.sound) (p : MireRead → Bool) : (s.abortReads p).sound :=
  foldl_keeps (by simp [hs]) (fun t m ht => by simp [ht]) _
@[simp] theorem closeRing_sound (hs : s.sound) (ring : Nat) : (s.closeRing ring).sound := by
  simp [hs, State.closeRing]
@[simp] theorem execHdrOpen_sound (r : Req) (ring log2 vector modN modUs : Nat) (auto : Bool)
    (base : BitVec 64) :
    Stays s (execHdrOpen r ring log2 vector modN modUs auto base s) :=
  stays_umser fun t hs => by simp [hs]
@[simp] theorem execHdrClose_sound (r : Req) (ring : Nat) : Stays s (execHdrClose r ring s) :=
  stays_umser fun t hs => by simp [hs]
@[simp] theorem execHdrBind_sound (r : Req) (ring : Nat) (qids : List Nat) :
    Stays s (execHdrBind r ring qids s) :=
  stays_umser fun t hs => by (repeat' split) <;> simp [hs]
@[simp] theorem unbind_sound (qid : Nat) : (s.unbind qid).sound = s.sound := by
  unfold State.unbind; split <;> simp
@[simp] theorem execHdrUnbind_sound (r : Req) (qids : List Nat) : Stays s (execHdrUnbind r qids s) :=
  stays_umser fun t hs => by (repeat' split) <;> simp [hs]
@[simp] theorem execHdrStatusRead_sound (r : Req) (first count : Nat) :
    Stays s (execHdrStatusRead r first count s) :=
  stays_umser fun t hs => by simp [hs]
/-- The lines of a packet leave a canonical window canonical. -/
theorem soundOf_writeLines {h : HostIf} {r : List ErrEntry} (hs : soundOf h.window r) (base log2 n line : Nat)
    (ws : List (DWord × Nat)) : soundOf (h.writeLines base log2 n line ws).window r := by
  induction n generalizing h line ws with
  | zero => exact hs
  | succ n ih => exact ih (soundOf_winWrite hs ..) _ _
@[simp] theorem ringWrite_sound (hs : s.sound) (ring : Nat) (p : Packet) (gap : Bool) :
    (s.ringWrite ring p gap).sound := by
  unfold State.ringWrite
  extract_lets h n k signal t1 t2 t3
  have h2 : t2.sound := by simp [t2, t1, hs]
  have h3 : t3.sound := by
    simp only [t3]
    split
    · exact h2
    · exact soundOf_writeLines h2 ..
  clear_value t3
  split <;> simp [h3]
@[simp] theorem readsDone_sound (hs : s.sound) : s.readsDone.sound :=
  foldl_keeps (by simp [hs]) (fun t m ht => by simp [ht]) _
@[simp] theorem writeRead_sound (hs : s.sound) (ring qid : Nat) : (s.writeRead ring qid).sound := by
  unfold State.writeRead; (repeat' split) <;> simp [hs]
@[simp] theorem execHdrPacketWrite_sound (ring qid : Nat) : Stays s (execHdrPacketWrite ring qid s) := by
  unfold execHdrPacketWrite; refine stays_finish fun hs => ?_; split <;> simp [hs]
@[simp] theorem execFlushReadIssue_sound (ring : Nat) : Stays s (execFlushReadIssue ring s) :=
  stays_finish fun hs => by simp [hs]
@[simp] theorem delivered_sound (k : RingPacket) : (s.delivered k).sound = s.sound := by
  unfold State.delivered; split <;> simp
@[simp] theorem flushed_sound (ring : Nat) : (s.flushed ring).sound = s.sound := by
  simp [State.flushed]
@[simp] theorem faultRing_sound (hs : s.sound) (ring : Nat) (k : HostRead) :
    (s.faultRing ring k).sound := by
  simp [hs, State.faultRing]
@[simp] theorem execFlushReadDone_sound (ring : Nat) (read : HostRead) :
    Stays s (execFlushReadDone ring read s) := stays_finish fun hs => by simp [hs]
@[simp] theorem consumed_sound (ring : Nat) (head : Word) :
    (s.consumed ring head).sound = s.sound := by
  simp [State.consumed]
@[simp] theorem execHdrHeadWrite_sound (ring : Nat) (value : Word) :
    Stays s (execHdrHeadWrite ring value s) := stays_finish fun hs => by simp [hs]
@[simp] theorem pcieGone_sound (hs : s.sound) (reason : Nat) : (s.pcieGone reason).sound :=
  foldl_keeps (foldl_keeps hs (fun t n ht => by simp [ht]) _) (fun t n ht => by simp [ht]) _
@[simp] theorem functionReset_window (h : HostIf) : h.functionReset.window = h.window := rfl
@[simp] theorem execFunctionLevelReset_sound : Stays s (execFunctionLevelReset s) :=
  stays_finish fun hs => by simp [hs]
@[simp] theorem execPcieLinkDown_sound : Stays s (execPcieLinkDown s) := stays_finish fun hs => by simp [hs]
@[simp] theorem execPcieLinkUp_sound (speed width : Nat) : Stays s (execPcieLinkUp speed width s) :=
  stays_finish fun hs => by simp [hs]
@[simp] theorem execPcieConfigWrite_sound (msixEn busMaster funcMask : Bool) :
    Stays s (execPcieConfigWrite msixEn busMaster funcMask s) := stays_finish fun hs => by simp [hs]
@[simp] theorem execExtest_sound (on : Bool) : Stays s (execExtest on s) :=
  stays_finish fun hs => by simp [hs]
/-! ### Machine/Fabric.lean -/

@[simp] theorem select_sound (c sel : Nat) : (s.select c sel).sound = s.sound := by
  simp [State.select]
@[simp] theorem execEvtRoute_sound (r : Req) (items : List (Nat × Nat)) :
    Stays s (execEvtRoute r items s) :=
  stays_umser fun t hs => by (repeat' split) <;> simp [hs]
@[simp] theorem execEvtMask_sound (r : Req) (sluice op : Nat) (codes : List Nat) :
    Stays s (execEvtMask r sluice op codes s) :=
  stays_umser fun t hs => by (repeat' split) <;> simp [hs]
@[simp] theorem execEvtRead_sound (r : Req) (kind first count : Nat) :
    Stays s (execEvtRead r kind first count s) :=
  stays_umser fun t hs => by simp [hs]
@[simp] theorem execEvtPulse_sound (r : Req) (mask : BitVec 8) : Stays s (execEvtPulse r mask s) :=
  stays_umser fun t hs => by simp [hs]
@[simp] theorem execEvtInEdge_sound (n : Nat) (rising : Bool) : Stays s (execEvtInEdge n rising s) :=
  stays_finish fun hs => by simp [hs]
@[simp] theorem execPersist_sound (sluice : Nat) :
    Stays s (execPersist sluice s) := stays_finish fun hs => by simp [hs]
@[simp] theorem execFabPersistClear_sound (n : Nat) (value : Word) :
    Stays s (execFabPersistClear n value s) := stays_finish fun hs => by simp [hs]
@[simp] theorem execEvtOutPulseEnd_sound (n : Nat) : Stays s (execEvtOutPulseEnd n s) :=
  stays_finish fun hs => by simp [hs]
@[simp] theorem writeStorm_sound : s.writeStorm.sound = s.sound := by simp [State.writeStorm]
/-- A read closes records and, with ACK, frees some. -/
theorem soundOf_afterRead {w : List Host.Cell} {e : Err} (hs : soundOf w e.ring) (l : List ErrEntry) (ack : Bool) :
    soundOf w (e.afterRead l ack).ring := by
  obtain ⟨hw, hr⟩ := hs
  refine ⟨hw, ?_⟩
  unfold Err.afterRead
  dsimp only
  split
  · exact (List.length_filter_le ..).trans (by rwa [List.length_map])
  · simpa using hr
@[simp] theorem execErrRingRead_sound (r : Req) (start : Word) (count : Nat) (ack : Bool) :
    Stays s (execErrRingRead r start count ack s) := by
  refine stays_umser fun t hs => ?_
  split
  · simp [hs]
  · have h1 : soundOf t.host.window (t.err.afterRead (t.err.select start count) ack).ring := soundOf_afterRead hs ..
    simp only
    split <;> simp [h1]
@[simp] theorem armFirst_sound : s.armFirst.sound = s.sound := by simp [State.armFirst]
@[simp] theorem execErrFirstRead_sound (r : Req) : Stays s (execErrFirstRead r s) :=
  stays_umser fun t hs => by simp [hs]
@[simp] theorem execFirstArm_sound : Stays s (execFirstArm s) := stays_finish fun hs => by simp [hs]
/-! ### Machine/Edit.lean -/

@[simp] theorem modMaq_sound (f : CfgSet → CfgSet) : (s.modMaq f).sound = s.sound := by
  simp [State.modMaq]
@[simp] theorem edited_sound : s.edited.sound = s.sound := by simp [State.edited]
@[simp] theorem editOk_sound (hs : s.sound) (r : Req) (opcode : Nat) (result : List Byte) :
    (s.editOk r opcode result).sound := by
  simp [hs, State.editOk]

section
variable {s}
theorem stays_editCommand {r : Req} {op : Nat} {body : State → State}
    (hb : ∀ t, t.sound → (body t).sound) : Stays s (editCommand r op s body) := by
  refine stays_umser fun t ht => ?_
  split
  · simp [ht]
  · exact hb t ht
end

@[simp] theorem applyTriples_sound (l : List Triple) : (s.applyTriples l).sound = s.sound := by
  simp [State.applyTriples]
@[simp] theorem execParamWrite_sound (r : Req) (triples : List Triple) :
    Stays s (execParamWrite r triples s) :=
  stays_umser fun t hs => by (repeat' split) <;> simp [hs]
@[simp] theorem execParamRead_sound (r : Req) (items : List (Nat × Nat)) :
    Stays s (execParamRead r items s) := by
  refine stays_umser fun t hs => ?_
  simp only
  split
  · simp [hs]
  · split <;> simp [hs]
@[simp] theorem execParamDirRead_sound (r : Req) (first count : Nat) :
    Stays s (execParamDirRead r first count s) :=
  stays_umser fun t hs => by simp [hs]
@[simp] theorem defineLevel_sound (fig : Nat) (v : Word) :
    (s.defineLevel fig v).sound = s.sound := by
  simp [State.defineLevel]
@[simp] theorem execFigDefine_sound (r : Req) (fig op source : Nat) (triples : List Triple) :
    Stays s (execFigDefine r fig op source triples s) := by
  refine stays_editCommand fun t hs => ?_
  split
  · simp [hs]
  · split
    · simp [hs]
    · simp only
      split <;> simp [hs]
@[simp] theorem execFigListRead_sound (r : Req) : Stays s (execFigListRead r s) :=
  stays_umser fun t hs => by simp [hs]
@[simp] theorem execSetStatusRead_sound (r : Req) : Stays s (execSetStatusRead r s) :=
  stays_umser fun t hs => by simp [hs]
@[simp] theorem execSetRevert_sound (r : Req) : Stays s (execSetRevert r s) :=
  stays_umser fun t hs => by simp [hs]

end

end Sys2Proof.Machine

namespace Sys2Proof.Machine

section
variable (s : State)

/-! ### Machine/Stage.lean -/

@[simp] theorem bringDesc_sound (p : Nat) : (s.bringDesc p).sound = s.sound := by
  unfold State.bringDesc; simp only; (repeat' split) <;> simp
@[simp] theorem startDesc_sound (p : Nat) : (s.startDesc p).sound = s.sound := by
  simp [State.startDesc]
@[simp] theorem mireDescs_sound : s.mireDescs.sound = s.sound := by simp [State.mireDescs]
@[simp] theorem unfreeze_sound : s.unfreeze.sound = s.sound := by simp [State.unfreeze]
@[simp] theorem execRevertCopyEnd_sound : Stays s (execRevertCopyEnd s) := stays_finish fun hs => by simp [hs]
@[simp] theorem readEeprom_sound (p : Nat) (data : Option (BitVec 2048)) :
    (s.readEeprom p data).sound = s.sound := by
  unfold State.readEeprom; (repeat' split) <;> simp
@[simp] theorem execStgDescWrite_sound (r : Req) (port : Nat) (image : BitVec 2048) :
    Stays s (execStgDescWrite r port image s) :=
  stays_editCommand fun t hs => by (repeat' split) <;> simp [hs]
@[simp] theorem descReadNow_sound (hs : s.sound) (r : Req) (port : Nat) :
    (s.descReadNow r port).sound := by
  simp [hs, State.descReadNow]
@[simp] theorem i2cAdd_sound (x : I2c) : (s.i2cAdd x).sound = s.sound := by simp [State.i2cAdd]
@[simp] theorem execStgDescRead_sound (r : Req) (port mode : Nat) :
    Stays s (execStgDescRead r port mode s) :=
  stays_umser fun t hs => by simp [hs]
@[simp] theorem execStgEepromWrite_sound (r : Req) (port offset : Nat) (data : List Byte) :
    Stays s (execStgEepromWrite r port offset data s) :=
  stays_umser fun t hs => by simp [hs]
@[simp] theorem i2cNext_sound (grp : Nat) (x : Option I2c) :
    (s.i2cNext grp x).sound = s.sound := by
  simp [State.i2cNext]
@[simp] theorem rereadDone_sound (hs : s.sound) (x : I2c) (data : Option (BitVec 2048)) :
    (s.rereadDone x data).sound := by
  simp [hs, State.rereadDone]
@[simp] theorem execI2cTransferEnd_sound (grp : Nat) (ack : Bool) (data : Option (BitVec 2048)) :
    Stays s (execI2cTransferEnd grp ack data s) := by
  unfold execI2cTransferEnd; refine stays_finish fun hs => ?_; split <;> simp [hs]
@[simp] theorem execStgPlaceRead_sound (r : Req) (first count : Nat) :
    Stays s (execStgPlaceRead r first count s) :=
  stays_umser fun t hs => by simp [hs]
@[simp] theorem execFigPlaceRead_sound (r : Req) (first count : Nat) :
    Stays s (execFigPlaceRead r first count s) :=
  stays_umser fun t hs => by simp [hs]

/-! ### Machine/Measure.lean -/

@[simp] theorem rescaleAperture_sound (p rng vspan : Nat) :
    (s.rescaleAperture p rng vspan).sound = s.sound := by
  refine foldl_sound _ (fun t e => ?_) _ _
  split
  · simp
  · rfl
@[simp] theorem apTake_sound (f : Nat) (x : Nat → Sample) : (s.apTake f x).sound = s.sound := by
  unfold State.apTake; split <;> simp
@[simp] theorem apQual_sound : s.apQual.sound = s.sound := by simp [State.apQual]
@[simp] theorem totTake_sound (f : Nat) (x : Nat → Sample) : (s.totTake f x).sound = s.sound := by
  simp [State.totTake]
@[simp] theorem apAsk_sound (f : Nat) (a : Aperture) : (s.apAsk f a).sound = s.sound := by
  simp [State.apAsk]
@[simp] theorem apStart_sound (f : Nat) : (s.apStart f).sound = s.sound := by
  unfold State.apStart; split <;> simp
@[simp] theorem freshResult_sound : s.freshResult.sound = s.sound := by simp [State.freshResult]
@[simp] theorem apDeliver_sound (r : ApResult) : (s.apDeliver r).sound = s.sound := by
  simp [State.apDeliver]
@[simp] theorem apClose_sound (f cause : Nat) : (s.apClose f cause).sound = s.sound := by
  unfold State.apClose; split <;> simp
@[simp] theorem apDrop_sound (f cause : Nat) : (s.apDrop f cause).sound = s.sound := by
  unfold State.apDrop; split <;> simp
@[simp] theorem execMeasAperture_sound (r : Req) (fig code : Nat) (start : DWord) :
    Stays s (execMeasAperture r fig code start s) :=
  stays_umser fun t hs => by split <;> simp [hs]
@[simp] theorem execMeasTotalClear_sound (r : Req) (fig : Nat) : Stays s (execMeasTotalClear r fig s) :=
  stays_umser fun t hs => by split <;> simp [hs]
@[simp] theorem execMeasSnapshot_sound (r : Req) (mask : BitVec 16) :
    Stays s (execMeasSnapshot r mask s) :=
  stays_umser fun t hs => by split <;> simp [hs]

/-! ### Machine/Port.lean -/

@[simp] theorem modForce_sound (p : Nat) (f : Force → Force) :
    (s.modForce p f).sound = s.sound := by
  simp [State.modForce]
@[simp] theorem modLoop_sound (p : Nat) (f : Loop → Loop) : (s.modLoop p f).sound = s.sound := by
  simp [State.modLoop]
@[simp] theorem modSup_sound (p : Nat) (f : Sup → Sup) : (s.modSup p f).sound = s.sound := by
  simp [State.modSup]
@[simp] theorem modAcq_sound (g : Nat) (f : Acq → Acq) : (s.modAcq g f).sound = s.sound := by
  simp [State.modAcq]
@[simp] theorem acqFlag_sound (g : Nat) (m : Word) : (s.acqFlag g m).sound = s.sound := by
  simp [State.acqFlag]
/-! ### Machine/Acq.lean -/

@[simp] theorem trigger_sound (g ofs : Nat) (miss edge : Bool) :
    (s.trigger g ofs miss edge).sound = s.sound := by
  simp [State.trigger]
@[simp] theorem triggerBy_sound (g : Nat) (edges : List LandEdge) :
    (s.triggerBy g edges).sound = s.sound := by
  unfold State.triggerBy; split <;> simp
@[simp] theorem execGroupTrigger_sound (grp : Nat) (edges : List LandEdge) :
    Stays s (execGroupTrigger grp edges s) := stays_finish fun hs => by simp [hs]
@[simp] theorem execTriggerMiss_sound (p : GroupEdges) : Stays s (execTriggerMiss p s) :=
  stays_finish fun hs => by simp [hs]
@[simp] theorem defaultTrigger_sound (g : Nat) : (s.defaultTrigger g).sound = s.sound := by
  simp [State.defaultTrigger]
@[simp] theorem rawPush_sound (g : Nat) (c : RawCap) (w : DWord) (stamp : DWord) :
    (s.rawPush g c w stamp).sound = s.sound := by simp [State.rawPush]
@[simp] theorem rawHalf_sound (g : Nat) (w : Word) (stamp : DWord) :
    (s.rawHalf g w stamp).sound = s.sound := by
  unfold State.rawHalf
  split
  · simp
  · split <;> simp
@[simp] theorem rawEnd_sound (hs : s.sound) (g : Nat) : (s.rawEnd g).sound := by
  unfold State.rawEnd
  extract_lets u
  have hu : u.sound := by simp only [u]; split <;> simp [hs]
  split
  · exact hu
  · extract_lets q t
    have ht : t.sound := by simp only [t]; split <;> simp [hu]
    simp [ht]
@[simp] theorem rawCut_sound (hs : s.sound) (g detail : Nat) : (s.rawCut g detail).sound := by
  unfold State.rawCut
  split
  · simp [hs]
  · extract_lets q t
    have ht : t.sound = s.sound := by simp only [t]; split <;> simp [hs]
    simp [hs, ht]
@[simp] theorem rawCount_sound (hs : s.sound) (g : Nat) : (s.rawCount g).sound := by
  unfold State.rawCount; split <;> simp [hs]
@[simp] theorem rawTake_sound (hs : s.sound) (g : Nat) (words : List (Nat × Word)) (stamp : DWord) :
    (s.rawTake g words stamp).sound := by
  unfold State.rawTake
  split
  · simp [hs]
  · simp [hs, foldl_sound]
@[simp] theorem rawStart_sound (g : Nat) : (s.rawStart g).sound = s.sound := by
  unfold State.rawStart; split <;> simp
@[simp] theorem execAcqRawCapture_sound (r : Req) (grp fig mask count : Nat) (start : DWord) :
    Stays s (execAcqRawCapture r grp fig mask count start s) :=
  stays_umser fun t hs => by simp [hs]
@[simp] theorem execAcqAuxWrite_sound (r : Req) (grp first : Nat) (entries : List (BitVec 128)) :
    Stays s (execAcqAuxWrite r grp first entries s) :=
  stays_editCommand fun t hs => by (repeat' split) <;> simp [hs]
@[simp] theorem execAcqAuxRead_sound (r : Req) (grp : Nat) : Stays s (execAcqAuxRead r grp s) :=
  stays_umser fun t hs => by simp [hs]
@[simp] theorem auxConvert_sound (hs : s.sound) (g : Nat) (input : Int) (clk : Nat) (stamp : DWord) :
    (s.auxConvert g input clk stamp).sound := by
  unfold State.auxConvert; simp only; split <;> simp [hs]
@[simp] theorem auxFill_sound (hs : s.sound) (g : Nat) (inputs : List Int) :
    (s.auxFill g inputs).sound :=
  foldl_keeps hs (fun t i ht => by simp [ht]) _
@[simp] theorem auxDrive_sound (g code : Nat) : (s.auxDrive g code).sound = s.sound := by
  simp [State.auxDrive]
@[simp] theorem auxNext_sound (g : Nat) : (s.auxNext g).sound = s.sound := by
  unfold State.auxNext; simp only; split <;> simp
@[simp] theorem urgNext_sound (g : Nat) : (s.urgNext g).sound = s.sound := by
  unfold State.urgNext; simp only; split <;> simp
@[simp] theorem urgBack_sound (g : Nat) : (s.urgBack g).sound = s.sound := by
  unfold State.urgBack; simp only; (repeat' split) <;> simp
@[simp] theorem auxMissing_sound (f : Nat) : (s.auxMissing f).sound = s.sound := by simp [State.auxMissing]
@[simp] theorem tripAux_sound (g seq : Nat) (auxf : BitVec 8) (aux : List DWord) :
    (s.tripAux g seq auxf aux).sound = s.sound := by
  simp [State.tripAux]
@[simp] theorem urgLost_sound (hs : s.sound) (g : Nat) (u : Urg) (a : Answer) :
    (s.urgLost g u a).sound := by
  simp [hs, State.urgLost, State.tripAux]
@[simp] theorem urgDrop_sound (hs : s.sound) (g : Nat) (u : Urg) : (s.urgDrop g u).sound := by
  simp [hs, State.urgDrop]
@[simp] theorem urgEnter_sound (g : Nat) (u : Urg) : (s.urgEnter g u).sound = s.sound := by
  simp [State.urgEnter]
@[simp] theorem urgAsk_sound (hs : s.sound) (g : Nat) (u : Urg) : (s.urgAsk g u).sound := by
  unfold State.urgAsk
  simp only
  split_ifs
  · simp [hs]
  · split <;> simp [hs]
  · simp [hs]
@[simp] theorem auxOverrun_sound (g : Nat) : (s.auxOverrun g).sound = s.sound := by
  simp [State.auxOverrun]
@[simp] theorem execAuxPassStart_sound (grp : Nat) : Stays s (execAuxPassStart grp s) :=
  stays_finish fun hs => by simp [hs]
@[simp] theorem auxCycle_sound (g cycle : Nat) : (s.auxCycle g cycle).sound = s.sound := by
  simp [State.auxCycle]
@[simp] theorem auxDeliver_sound (r : AuxResult) : (s.auxDeliver r).sound = s.sound := by
  simp [State.auxDeliver]
@[simp] theorem freshConv_sound (c : Conv) : (s.freshConv c).sound = s.sound := by
  unfold State.freshConv; split <;> rfl
@[simp] theorem auxAbort_sound (g : Nat) (x : AuxRun) : (s.auxAbort g x).sound = s.sound := by
  simp [State.auxAbort]
@[simp] theorem auxCut_sound (g : Nat) : (s.auxCut g).sound = s.sound := by
  unfold State.auxCut; simp only; split <;> simp
@[simp] theorem auxFigCut_sound (g f : Nat) : (s.auxFigCut g f).sound = s.sound := by
  unfold State.auxFigCut; simp only; split <;> simp
@[simp] theorem urgDeliver_sound (hs : s.sound) (g : Nat) (u : Urg) (r : AuxResult) :
    (s.urgDeliver g u r).sound := by
  simp [hs, State.urgDeliver]
@[simp] theorem execUrgentConversionEnd_sound (grp : Nat) (inputs : List Int) :
    Stays s (execUrgentConversionEnd grp inputs s) := by
  unfold execUrgentConversionEnd
  refine stays_finish fun hs => ?_
  dsimp only
  split
  · split <;> simp [hs]
  · exact hs
@[simp] theorem auxTick_sound (hs : s.sound) (g : Nat) : (s.auxTick g).sound := by
  unfold State.auxTick; simp only; (repeat' split) <;> simp [hs]
@[simp] theorem urgEmpty_sound (hs : s.sound) (g : Nat) : (s.urgEmpty g).sound :=
  foldl_keeps (by simp [hs]) (fun t u ht => by simp [ht]) _
@[simp] theorem execAcqMeasNow_sound (r : Req) (port kind auxsel span settle avg : Nat) :
    Stays s (execAcqMeasNow r port kind auxsel span settle avg s) :=
  stays_umser fun t hs => by simp [hs]
@[simp] theorem askCheck_sound (hs : s.sound) (r : Req) (opcode grp slice : Nat) (path : Bool) :
    (s.askCheck r opcode grp slice path).sound := by
  simp [hs, State.askCheck]
@[simp] theorem execAcqShareCheck_sound (r : Req) (grp slice : Nat) :
    Stays s (execAcqShareCheck r grp slice s) :=
  stays_umser fun t hs => by simp [hs]
@[simp] theorem execAcqPathTest_sound (r : Req) (grp slice : Nat) :
    Stays s (execAcqPathTest r grp slice s) :=
  stays_umser fun t hs => by simp [hs]

end

end Sys2Proof.Machine

namespace Sys2Proof.Machine

section
variable (s : State)

/-! ### Machine/Comb.lean -/

@[simp] theorem eachPort_sound (g : Nat) (f : State → Nat → State) (hf : ∀ s x,
    (f s x).sound = s.sound) :
    (s.eachPort g f).sound = s.sound := foldl_sound _ (fun t _ => hf t _) _ s
@[simp] theorem keepSample_sound (p : Nat) (i : Instant) (x : Sample) :
    (s.keepSample p i x).sound = s.sound := by simp [State.keepSample]
@[simp] theorem takeInstant_sound (hs : s.sound) (g : Nat) (i : Instant) (stamp : DWord) :
    (s.takeInstant g i stamp).sound := by
  simp [hs, State.takeInstant, State.eachPort, foldl_sound]
@[simp] theorem combTake_sound (hs : s.sound) (g : Nat) (p : Instant → Bool) : (s.combTake g p).sound := by
  simp +contextual [hs, State.combTake]
@[simp] theorem combFinish_sound (hs : s.sound) (g : Nat) : (s.combFinish g).sound := by
  simp [hs, State.combFinish]
@[simp] theorem combDue_sound (hs : s.sound) (g : Nat) : (s.combDue g).sound := by simp [hs, State.combDue]
@[simp] theorem acqClock_sound (hs : s.sound) (g : Nat) :
    (s.acqClock g).sound := by simp [hs, State.acqClock]
@[simp] theorem combStart_sound (g : Nat) (x : PeriodIn) : (s.combStart g x).sound = s.sound := by
  unfold State.combStart; simp only; split <;> simp
@[simp] theorem apSamples_sound (hs : s.sound) (a : Aperture) : (s.apSamples a).sound := by
  simp [hs, State.apSamples]
@[simp] theorem apCut_sound (hs : s.sound) (f cause : Nat) : (s.apCut f cause).sound := by
  unfold State.apCut; split <;> simp [hs]
/-! ### Machine/Mains.lean -/

@[simp] theorem modMt_sound (f : MtBlk → MtBlk) : (s.modMt f).sound = s.sound := by
  simp [State.modMt]
@[simp] theorem mtClock_sound : s.mtClock.sound = s.sound := by simp [State.mtClock]
@[simp] theorem mtUnlock_sound : s.mtUnlock.sound = s.sound := by simp [State.mtUnlock]
@[simp] theorem mtAcquire_sound : s.mtAcquire.sound = s.sound := by simp [State.mtAcquire]
@[simp] theorem mtPullIn_sound (e : Int) :
    (s.mtPullIn e).sound = s.sound := by simp [State.mtPullIn]
@[simp] theorem mtTrack_sound (e : Int) : (s.mtTrack e).sound = s.sound := by simp [State.mtTrack]
@[simp] theorem execMainsCrossing_sound (ago : Nat) (rising : Bool) (amplitude : Nat) :
    Stays s (execMainsCrossing ago rising amplitude s) := by
  unfold execMainsCrossing
  refine stays_finish fun hs => ?_
  split
  · exact hs
  · split
    · exact hs
    · rw [apQual_sound]
      split
      · simp [hs]
      · simp [hs]
      · simp [hs]
      all_goals split <;> simp [hs]
@[simp] theorem mainsGone_sound (iso : Bool) : (s.mainsGone iso).sound = s.sound := by
  unfold State.mainsGone; split <;> simp
@[simp] theorem execSlewEnd_sound : Stays s (execSlewEnd s) := stays_finish fun hs => by simp [hs]
@[simp] theorem execMtPhaseEvent_sound (n : Nat) : Stays s (execMtPhaseEvent n s) :=
  stays_finish fun hs => by simp [hs]
@[simp] theorem execMtWrap_sound : Stays s (execMtWrap s) := stays_finish fun hs => by simp [hs]
@[simp] theorem execMtCapture_sound : Stays s (execMtCapture s) := stays_finish fun hs => by simp [hs]
@[simp] theorem mtMode_sound : s.mtMode.sound = s.sound := by
  unfold State.mtMode; (repeat' split) <;> simp

/-! ### Machine/Clock.lean -/

@[simp] theorem clock_sound (hs : s.sound) : s.clock.sound := by
  have h1 : ((List.range s.groups).foldl State.acqClock s).sound := by simp +contextual [hs]
  simp [hs, h1, State.clock]
/-! ### Machine/CalOps.lean -/

@[simp] theorem modCalib_sound (f : Cal → Cal) : (s.modCalib f).sound = s.sound := by
  simp [State.modCalib]
@[simp] theorem calFlag_sound (m : Word) : (s.calFlag m).sound = s.sound := by simp [State.calFlag]
@[simp] theorem calFail_sound (cause object index source : Nat) :
    (s.calFail cause object index source).sound = s.sound := by
  simp [State.calFail]
@[simp] theorem mainsCut_sound (hs : s.sound) : s.mainsCut.sound := by
  unfold State.mainsCut; split <;> simp [hs]
@[simp] theorem tellBusy_sound (before s : State) : (State.tellBusy before s).sound = s.sound := by
  simp [State.tellBusy]

/-! ### Machine/Spare.lean -/

@[simp] theorem spareFollow_sound (g : Nat) : (s.spareFollow g).sound = s.sound := by
  simp [State.spareFollow]
@[simp] theorem spare_sound (g : Nat) (role : SpareRole) (slice : Nat) :
    (s.spare g role slice).sound = s.sound := by
  simp [State.spare]
@[simp] theorem selector_sound (g slice : Nat) (x : InSel) :
    (s.selector g slice x).sound = s.sound := by
  simp [State.selector]
@[simp] theorem spareIdle_sound (g : Nat) : (s.spareIdle g).sound = s.sound := by
  simp [State.spareIdle, State.spare, State.spareFollow]
@[simp] theorem modPass_sound (g : Nat) (f : Pass → Pass) : (s.modPass g f).sound = s.sound := by
  simp [State.modPass]
@[simp] theorem passReturn_sound (g : Nat) : (s.passReturn g).sound = s.sound := by
  unfold State.passReturn; split <;> simp
@[simp] theorem slotPhase_sound (g : Nat) : (s.slotPhase g).sound = s.sound := by
  unfold State.slotPhase; split <;> simp
@[simp] theorem spareTick_sound (g : Nat) : (s.spareTick g).sound = s.sound := by
  simp [State.spareTick]
@[simp] theorem probeSet_sound (g slice span : Nat) (pct : Int) :
    (s.probeSet g slice span pct).sound = s.sound := by
  simp [State.probeSet]

/-! ### Machine/Point.lean -/

@[simp] theorem swpFlag_sound (f : Nat) (m : Word) : (s.swpFlag f m).sound = s.sound := by
  simp [State.swpFlag]
@[simp] theorem report_sound (f point state cause : Nat) (flags : BitVec 16) (pass : Word)
    (mtStart : DWord) :
    (s.report f point state cause flags pass mtStart).sound = s.sound := by simp [State.report]
@[simp] theorem forgetGo_sound (f : Nat) : (s.forgetGo f).sound = s.sound := by
  unfold State.forgetGo; split <;> rfl
@[simp] theorem ptFinal_sound (f state cause : Nat) (extra : BitVec 16) :
    (s.ptFinal f state cause extra).sound = s.sound := by
  unfold State.ptFinal; split <;> simp
@[simp] theorem ptNotRun_sound (f cause : Nat) : (s.ptNotRun f cause).sound = s.sound := by
  simp [State.ptNotRun, foldl_sound]
@[simp] theorem listReport_sound (f state cause : Nat) :
    (s.listReport f state cause).sound = s.sound := by
  simp [State.listReport]
@[simp] theorem setRun_sound (f : Nat) (r : RunState) : (s.setRun f r).sound = s.sound := by
  simp [State.setRun]
@[simp] theorem listCut_sound (f cause : Nat) (extra : BitVec 16) (after : RunState) :
    (s.listCut f cause extra after).sound = s.sound := by simp [State.listCut]
@[simp] theorem tuneFlush_sound (g : Nat) : (s.tuneFlush g).sound = s.sound := by
  unfold State.tuneFlush; split <;> simp
@[simp] theorem tuneNoted_sound (hs : s.sound) (n : TuneNote) : (s.tuneNoted n).sound := by
  unfold State.tuneNoted; simp only; split <;> simp [hs]
@[simp] theorem tuneEnd_sound (hs : s.sound) (g : Nat) (ok : Bool) : (s.tuneEnd g ok).sound := by
  unfold State.tuneEnd; split <;> simp [hs]
@[simp] theorem tuneCut_sound (hs : s.sound) (f : Nat) : (s.tuneCut f).sound := by
  simp +contextual [hs, State.tuneCut]
@[simp] theorem captureCut_sound (hs : s.sound) (f : Nat) : (s.captureCut f).sound := by
  simp +contextual [hs, State.captureCut]
/-! ### Machine/Force.lean -/

@[simp] theorem frFlag_sound (p : Nat) (m : Word) : (s.frFlag p m).sound = s.sound := by
  simp [State.frFlag]
@[simp] theorem openRamp_sound (p n : Nat) : (s.openRamp p n).sound = s.sound := by simp [State.openRamp]
@[simp] theorem strobe_sound (p j : Nat) : (s.strobe p j).sound = s.sound := by simp [State.strobe]
@[simp] theorem modelRestart_sound (p : Nat) : (s.modelRestart p).sound = s.sound := by
  simp [State.modelRestart]
@[simp] theorem thaw_sound (p : Nat) : (s.thaw p).sound = s.sound := by simp [State.thaw]
@[simp] theorem standbyPorts_sound : s.standbyPorts.sound = s.sound := by
  simp [State.standbyPorts]
@[simp] theorem enablePort_sound (f p : Nat) : (s.enablePort f p).sound = s.sound := by
  simp [State.enablePort]
@[simp] theorem execStgEnAssert_sound (port : Nat) : Stays s (execStgEnAssert port s) :=
  stays_finish fun hs => by simp [hs]
@[simp] theorem closeLoops_sound (p : Nat) (code : Int) :
    (s.closeLoops p code).sound = s.sound := by
  simp [State.closeLoops]
@[simp] theorem execLoopsClose_sound (port : Nat) : Stays s (execLoopsClose port s) :=
  stays_finish fun hs => by simp [hs]
@[simp] theorem ptRngChange_sound (p : Nat) : (s.ptRngChange p).sound = s.sound := by
  unfold State.ptRngChange; split <;> simp
@[simp] theorem rangeStart_sound (p b : Nat) (requested : Bool) :
    (s.rangeStart p b requested).sound = s.sound := by
  simp [State.rangeStart]
@[simp] theorem rangeSwitch_sound (hs : s.sound) (p : Nat) : (s.rangeSwitch p).sound := by
  unfold State.rangeSwitch; split <;> simp [hs]
@[simp] theorem execRangeSwitchBoundary_sound (port : Nat) :
    Stays s (execRangeSwitchBoundary port s) := by
  unfold execRangeSwitchBoundary; refine stays_finish fun hs => ?_; split <;> simp +contextual [hs]
@[simp] theorem rangeClose_sound (p : Nat) : (s.rangeClose p).sound = s.sound := by
  unfold State.rangeClose; split <;> simp
@[simp] theorem spanChange_sound (hs : s.sound) (p v : Nat) : (s.spanChange p v).sound := by
  simp [hs, State.spanChange]
@[simp] theorem askRange_sound (p b : Nat) : (s.askRange p b).sound = s.sound := by
  simp [State.askRange]
@[simp] theorem askSpan_sound (hs : s.sound) (p v : Nat) : (s.askSpan p v).sound := by
  simp +contextual [hs, State.askSpan]
@[simp] theorem rangeParams_sound (hs : s.sound) (f p : Nat) : (s.rangeParams f p).sound := by
  simp [hs, State.rangeParams]
@[simp] theorem execRangeWindowClose_sound (port : Nat) : Stays s (execRangeWindowClose port s) := by
  unfold execRangeWindowClose; refine stays_finish fun hs => ?_; (repeat' split) <;> simp [hs]
@[simp] theorem disablePort_sound (p n : Nat) : (s.disablePort p n).sound = s.sound := by
  unfold State.disablePort; split <;> simp
@[simp] theorem leaveSlot_sound (f p : Nat) : (s.leaveSlot f p).sound = s.sound := by
  simp [State.leaveSlot]
@[simp] theorem leaveStages_sound (f : Nat) : (s.leaveStages f).sound = s.sound := by
  simp [State.leaveStages, foldl_sound]
@[simp] theorem leaveNow_sound (p : Nat) : (s.leaveNow p).sound = s.sound := by
  unfold State.leaveNow; split <;> simp
@[simp] theorem figDisable_sound (hs : s.sound) (f cause : Nat) : (s.figDisable f cause).sound := by
  have h1 : ((s.apCut f cause).listCut f cause (s.cutFlags f ||| 0x10#16) .idle).sound := by simp [hs]
  simp [hs, h1, State.figDisable]
@[simp] theorem figMove_sound (hs : s.sound) (f : Nat) : (s.figMove f).sound := by
  have h1 : (s.apCut f 1).sound := by simp [hs]
  unfold State.figMove
  dsimp only
  split <;> simp [h1]
@[simp] theorem execRampDownEnd_sound (port : Nat) : Stays s (execRampDownEnd port s) :=
  stays_finish fun hs => by simp [hs]
@[simp] theorem execParkEnd_sound (port : Nat) : Stays s (execParkEnd port s) :=
  stays_finish fun hs => by simp [hs]
@[simp] theorem execRngLineRelease_sound (port : Nat) : Stays s (execRngLineRelease port s) := by
  unfold execRngLineRelease; refine stays_finish fun hs => ?_; split <;> simp [hs]

end

end Sys2Proof.Machine

namespace Sys2Proof.Machine

section
variable (s : State)

/-! ### Machine/Trip.lean -/

@[simp] theorem supFlag_sound (p : Nat) (m : Word) : (s.supFlag p m).sound = s.sound := by
  simp [State.supFlag]
@[simp] theorem monSample_sound (p k : Nat) (v i : Int) :
    (s.monSample p k v i).sound = s.sound := by
  simp [State.monSample]
@[simp] theorem execMonitorSample_sound (port : Nat) (v i : Int) :
    Stays s (execMonitorSample port v i s) := stays_finish fun hs => by simp [hs]
@[simp] theorem postRecord_sound (r : TripRec) : (s.postRecord r).sound = s.sound := by
  simp only [State.postRecord, sound_ite, log_sound, modGrp_sound, ite_self]
  rfl
@[simp] theorem snapAsk_sound (hs : s.sound) (r : TripRec) (p : Nat) : (s.snapAsk r p).sound := by
  simp [hs, State.snapAsk]
@[simp] theorem tripActions_sound (p : Nat) (cause : Word) (seq : Word) (fig : Nat) :
    (s.tripActions p cause seq fig).sound = s.sound := by simp [State.tripActions]
@[simp] theorem pointMigrates_sound (f : Nat) (flags : BitVec 16) :
    (s.pointMigrates f flags).sound = s.sound := by simp [State.pointMigrates]
@[simp] theorem tripFigure_sound (hs : s.sound) (f : Nat) (cause seq : Word) :
    (s.tripFigure f cause seq).sound := by
  have h1 (c : Nat) : (s.apCut f c).sound := by simp [hs]
  simp [h1, State.tripFigure]
@[simp] theorem addCause_sound (p : Nat) (cause : Word) : (s.addCause p cause).sound = s.sound := by
  simp [State.addCause]
@[simp] theorem trip_sound (hs : s.sound) (p : Nat) (cause : Word) (mtCause : DWord) (detail : Nat) :
    (s.trip p cause mtCause detail).sound := by
  unfold State.trip
  split_ifs
  · exact hs
  · simp [hs]
  · exact hs
  · simp only [tell_sound]
    refine foldl_keeps ?_ (fun t q ht => by split <;> simp [ht]) _
    have h1 (r : TripRec) (l : List Nat) : (l.foldl (fun t q => t.snapAsk r q) (s.postRecord r)).sound := by
      simp +contextual [hs]
    simp +contextual [h1]
@[simp] theorem pointHeld_sound (hs : s.sound) (f : Nat) : (s.pointHeld f).sound := by
  unfold State.pointHeld; simp only; split <;> simp [hs]
@[simp] theorem holdPort_sound (hs : s.sound) (p : Nat) (cause : Word) (mtCause : DWord) (detail ago : Nat) :
    (s.holdPort p cause mtCause detail ago).sound := by
  unfold State.holdPort; split <;> simp [hs]
@[simp] theorem fault_sound (hs : s.sound) (p : Nat) (cause : Word) (mtCause : DWord) (detail ago : Nat) :
    (s.fault p cause mtCause detail ago).sound := by
  simp [hs, State.fault]
@[simp] theorem execMonitorQualify_sound (port m : Nat) : Stays s (execMonitorQualify port m s) :=
  stays_finish fun hs => by simp [hs]
@[simp] theorem execStageFault_sound (port : Nat) : Stays s (execStageFault port s) :=
  stays_finish fun hs => by simp [hs]
@[simp] theorem execStgFltRelease_sound (port : Nat) : Stays s (execStgFltRelease port s) :=
  stays_finish fun hs => by simp [hs]
@[simp] theorem execExtTrip_sound (port : Nat) : Stays s (execExtTrip port s) :=
  stays_finish fun hs => by simp [hs]
@[simp] theorem execOverrunTrip_sound (port : Nat) : Stays s (execOverrunTrip port s) :=
  stays_finish fun hs => by simp [hs]
@[simp] theorem execShortCircuitTrip_sound (port : Nat) : Stays s (execShortCircuitTrip port s) :=
  stays_finish fun hs => by simp [hs]
@[simp] theorem execFrozenFault_sound (port : Nat) : Stays s (execFrozenFault port s) :=
  stays_finish fun hs => by simp [hs]
@[simp] theorem execUnsettled_sound (port : Nat) : Stays s (execUnsettled port s) :=
  stays_finish fun hs => by simp [hs]
@[simp] theorem execLeadCheckStart_sound (port : Nat) : Stays s (execLeadCheckStart port s) :=
  stays_finish fun hs => by simp [hs]
@[simp] theorem releaseHold_sound (p : Nat) : (s.releaseHold p).sound = s.sound := by
  unfold State.releaseHold; split <;> simp
@[simp] theorem execLeadCheckEnd_sound (port : Nat) (vs is : LeadIn) (rail : Bool) :
    Stays s (execLeadCheckEnd port vs is rail s) := by
  unfold execLeadCheckEnd
  refine stays_finish fun hs => ?_
  split
  · exact hs
  · extract_lets tested rv ri most lead t bad t1 t2 good t3
    have ht : t.sound := by simp [t, hs]
    have h1 : t1.sound := by simp [t1, ht]
    have h2 : t2.sound := by simp only [t2]; split <;> simp [h1]
    have h3 : t3.sound := by
      simp only [t3]
      split
      · exact h2
      · split <;> simp [h2]
    clear_value t t3
    split
    · simp [ht]
    · split <;> simp [h3]
@[simp] theorem moveRecord_sound (r : TripRec) : (s.moveRecord r).sound = s.sound := by
  simp [State.moveRecord]
@[simp] theorem execTripRecordMove_sound (grp : Nat) : Stays s (execTripRecordMove grp s) := by
  unfold execTripRecordMove; refine stays_finish fun hs => ?_; split <;> simp [hs]
@[simp] theorem clearLatches_sound (port mask : Nat) :
    (s.clearLatches port mask).sound = s.sound := by
  simp [State.clearLatches]
@[simp] theorem execSupMonClear_sound (r : Req) (port mask : Nat) :
    Stays s (execSupMonClear r port mask s) :=
  stays_umser fun t hs => by split <;> simp [hs]
@[simp] theorem clearTrip_sound (p : Nat) : (s.clearTrip p).sound = s.sound := by
  simp [State.clearTrip]
@[simp] theorem execSupTripClear_sound (r : Req) (port : Nat) : Stays s (execSupTripClear r port s) :=
  stays_umser fun t hs => by (repeat' split) <;> simp [hs]
@[simp] theorem execSupTripForce_sound (r : Req) (port : Nat) : Stays s (execSupTripForce r port s) :=
  stays_umser fun t hs => by split <;> simp [hs]
@[simp] theorem execSupLeadCheck_sound (r : Req) (port : Nat) : Stays s (execSupLeadCheck r port s) :=
  stays_umser fun t hs => by split <;> simp [hs]
@[simp] theorem execSupHoldRelease_sound (r : Req) (port : Nat) :
    Stays s (execSupHoldRelease r port s) :=
  stays_umser fun t hs => by split <;> simp [hs]
@[simp] theorem execSupStatusRead_sound (r : Req) (first count : Nat) :
    Stays s (execSupStatusRead r first count s) :=
  stays_umser fun t hs => by simp [hs]

/-! ### Machine/Sweep.lean -/

@[simp] theorem execSwpTableWrite_sound (r : Req) (first : Nat) (entries : List (BitVec 256)) :
    Stays s (execSwpTableWrite r first entries s) :=
  stays_editCommand fun t hs => by (repeat' split) <;> simp [hs]
@[simp] theorem execSwpTableRead_sound (r : Req) (first count : Nat) :
    Stays s (execSwpTableRead r first count s) :=
  stays_umser fun t hs => by split <;> simp [hs]
@[simp] theorem execSwpGenWrite_sound (r : Req) (fig : Nat) (block : BitVec 512) :
    Stays s (execSwpGenWrite r fig block s) :=
  stays_editCommand fun t hs => by (repeat' split) <;> simp [hs]
@[simp] theorem execSwpStatusRead_sound (r : Req) (first count : Nat) :
    Stays s (execSwpStatusRead r first count s) :=
  stays_umser fun t hs => by simp [hs]
@[simp] theorem execSwpStart_sound (r : Req) (fig : Nat) : Stays s (execSwpStart r fig s) :=
  stays_umser fun t hs => by simp [hs]
@[simp] theorem execSwpStop_sound (r : Req) (fig mode : Nat) : Stays s (execSwpStop r fig mode s) :=
  stays_umser fun t hs => by simp [hs]
@[simp] theorem setLevel_sound (f : Nat) (level : Int) : (s.setLevel f level).sound = s.sound := by
  simp [State.setLevel, ]
@[simp] theorem setMode_sound (f mode : Nat) : (s.setMode f mode).sound = s.sound := by
  simp [State.setMode, foldl_sound]
@[simp] theorem ownLevel_sound (f : Nat) : (s.ownLevel f).sound = s.sound := by simp [State.ownLevel]
@[simp] theorem levelWritten_sound (f : Nat) : (s.levelWritten f).sound = s.sound := by
  simp [State.levelWritten]
@[simp] theorem listOutput_sound (hs : s.sound) (f : Nat) : (s.listOutput f).sound := by
  simp [hs, State.listOutput]
@[simp] theorem endList_sound (hs : s.sound) (f state cause : Nat) :
    (s.endList f state cause).sound := by
  simp [hs, State.endList]
@[simp] theorem slotEnd_sound (f : Nat) : (s.slotEnd f).sound = s.sound := by
  unfold State.slotEnd; split <;> simp
@[simp] theorem pointEnd_sound (hs : s.sound) (f state cause : Nat) (extra : BitVec 16) :
    (s.pointEnd f state cause extra).sound := by
  unfold State.pointEnd; split <;> simp [hs]
@[simp] theorem ptFlag_sound (f : Nat) (m : BitVec 16) : (s.ptFlag f m).sound = s.sound := by
  simp [State.ptFlag]
@[simp] theorem execListStart_sound (fig : Nat) :
    Stays s (execListStart fig s) := stays_finish fun hs => by simp [hs]
@[simp] theorem ptRangeWork_sound (hs : s.sound) (f p : Nat) (e : BitVec 256) (anyWay : Bool) :
    (s.ptRangeWork f p e anyWay).sound := by
  unfold State.ptRangeWork
  extract_lets t
  have ht : t.sound := by
    simp only [t]
    (repeat' split) <;> simp [hs]
  clear_value t
  split
  · exact ht
  · split
    · simp +contextual [ht]
    · exact ht
@[simp] theorem ptSiteWork_sound (f : Nat) (e : BitVec 256) :
    (s.ptSiteWork f e).sound = s.sound := by
  simp [State.ptSiteWork]
@[simp] theorem ptAuxAsk_sound (hs : s.sound) (f : Nat) : (s.ptAuxAsk f).sound := by
  unfold State.ptAuxAsk; split <;> simp [hs]
@[simp] theorem firePoint_sound (hs : s.sound) (f : Nat) : (s.firePoint f).sound := by
  simp [hs, State.firePoint]
@[simp] theorem execPointFire_sound (fig : Nat) :
    Stays s (execPointFire fig s) := stays_finish fun hs => by simp [hs]
@[simp] theorem execSiteWaitEnd_sound (fig : Nat) : Stays s (execSiteWaitEnd fig s) :=
  stays_finish fun hs => by simp [hs]
@[simp] theorem execSettling_sound (fig : Nat) : Stays s (execSettling fig s) := by
  unfold execSettling
  refine stays_finish fun hs => ?_
  split
  · exact hs
  · split
    · extract_lets e m t1 t2 t3 t4
      have h4 : t4.sound := by
        simp only [t4]
        split <;> simp [hs, t3, t2, t1]
      split <;> simp [h4]
    · exact hs
@[simp] theorem ptOpen_sound (hs : s.sound) (f : Nat) (q : Flight) : (s.ptOpen f q).sound := by
  unfold State.ptOpen; (repeat' split) <;> simp [hs]
@[simp] theorem execDwellEnd_sound (fig : Nat) : Stays s (execDwellEnd fig s) := by
  unfold execDwellEnd; refine stays_finish fun hs => ?_; split <;> simp [hs]
@[simp] theorem waitRefused_sound (f : Nat) : (s.waitRefused f).sound = s.sound := by
  simp [State.waitRefused]
@[simp] theorem cancelRange_sound (f : Nat) : (s.cancelRange f).sound = s.sound := by
  simp [State.cancelRange]
@[simp] theorem cancelSpan_sound (f : Nat) : (s.cancelSpan f).sound = s.sound := by
  simp [State.cancelSpan]
@[simp] theorem cancelDown_sound (f : Nat) : (s.cancelDown f).sound = s.sound := by
  simp [State.cancelDown]
@[simp] theorem execRangeWaitTimeout_sound (fig : Nat) : Stays s (execRangeWaitTimeout fig s) := by
  unfold execRangeWaitTimeout; refine stays_finish fun hs => ?_; split <;> simp [hs]
@[simp] theorem stepLevel_sound (f : Nat) (level : Int) :
    (s.stepLevel f level).sound = s.sound := by
  simp [State.stepLevel]
@[simp] theorem execPulseLeadingEdge_sound (fig : Nat) : Stays s (execPulseLeadingEdge fig s) := by
  unfold execPulseLeadingEdge; refine stays_finish fun hs => ?_; split <;> simp [hs]
@[simp] theorem ptMeasured_sound (hs : s.sound) (f point : Nat) : (s.ptMeasured f point).sound := by
  unfold State.ptMeasured; split <;> simp [hs]
@[simp] theorem apFinish_sound (hs : s.sound) (f : Nat) : (s.apFinish f).sound := by
  unfold State.apFinish; split <;> simp [hs]
@[simp] theorem execApertureClose_sound (fig : Nat) : Stays s (execApertureClose fig s) :=
  stays_finish fun hs => by simp [hs]
@[simp] theorem apGone_sound (hs : s.sound) (f : Nat) (a : Aperture) : (s.apGone f a).sound := by
  unfold State.apGone; split <;> simp [hs]
@[simp] theorem execApertureOpen_sound (fig : Nat) : Stays s (execApertureOpen fig s) := by
  unfold execApertureOpen; refine stays_finish fun hs => ?_; split <;> simp [hs]
@[simp] theorem aperturesLost_sound (hs : s.sound) : s.aperturesLost.sound :=
  foldl_keeps hs (fun t e ht => by split <;> simp [ht]) _
@[simp] theorem execPulseTrailingEdge_sound (fig : Nat) : Stays s (execPulseTrailingEdge fig s) := by
  unfold execPulseTrailingEdge; refine stays_finish fun hs => ?_; split <;> simp [hs]
@[simp] theorem listReplaced_sound (f : Nat) : (s.listReplaced f).sound = s.sound := by
  simp [State.listReplaced]
@[simp] theorem execListEnd_sound (fig : Nat) : Stays s (execListEnd fig s) :=
  stays_finish fun hs => by simp [hs]
@[simp] theorem stopNow_sound (hs : s.sound) (f : Nat) : (s.stopNow f).sound := by simp [hs, State.stopNow]
@[simp] theorem execPointReport_sound (fig : Nat) : Stays s (execPointReport fig s) := by
  unfold execPointReport; refine stays_finish fun hs => ?_; split <;> simp [hs]

end

end Sys2Proof.Machine

namespace Sys2Proof.Machine

section
variable (s : State)

/-! ### Machine/Eval.lean -/

@[simp] theorem leFlag_sound (p : Nat) (m : Word) : (s.leFlag p m).sound = s.sound := by
  simp [State.leFlag]
@[simp] theorem reportGov_sound (p gov : Nat) (fig : Option Nat) :
    (s.reportGov p gov fig).sound = s.sound := by
  unfold State.reportGov; (repeat' split) <;> simp
@[simp] theorem memberWrite_sound (w : Work) (b : Bounds) (gov : Nat) (out : OutState) (sp : Int)
    (inj : Option Nat) (anySat : Bool) (k : Member) :
    (s.memberWrite w b gov out sp inj anySat k).sound = s.sound := by
  simp [State.memberWrite]
@[simp] theorem outerWrite_sound (w : Work) (b : Bounds) (sel : Selected)
    (clip folded anySat window : Bool) :
    (s.outerWrite w b sel clip folded anySat window).sound = s.sound := by
  simp [State.outerWrite]
@[simp] theorem tuneEntry_sound (g f : Nat) (d : Int) (stamp : DWord) :
    (s.tuneEntry g f d stamp).sound = s.sound := by
  unfold State.tuneEntry; split <;> simp
@[simp] theorem evalFigure_sound (f m : Nat) (mem : List Nat) (x : PeriodIn) :
    (s.evalFigure f m mem x).sound = s.sound := by
  simp [State.evalFigure]
@[simp] theorem openChannel_sound (p : Nat) (x : PeriodIn) :
    (s.openChannel p x).sound = s.sound := by
  simp [State.openChannel]
@[simp] theorem overruns_sound (p : Nat) (x : PeriodIn) : (s.overruns p x).sound = s.sound := by
  simp [State.overruns]
@[simp] theorem evalGroup_sound (g : Nat) (x : PeriodIn) : (s.evalGroup g x).sound = s.sound := by
  refine foldl_sound _ (fun t k => ?_) _ _
  simp only [overruns_sound]
  split <;> simp

/-! ### Machine/Watch.lean -/

@[simp] theorem modelStep_sound (p : Nat) (window span sat : Bool) :
    (s.modelStep p window span sat).sound = s.sound := by
  simp [State.modelStep]
@[simp] theorem residualFault_sound (hs : s.sound) (p : Nat) : (s.residualFault p).sound := by
  simp [hs, State.residualFault]
@[simp] theorem pendRange_sound (p : Nat) (b : Option Nat) :
    (s.pendRange p b).sound = s.sound := by
  simp [State.pendRange]
@[simp] theorem pendSpan_sound (p : Nat) (v : Option Nat) : (s.pendSpan p v).sound = s.sound := by
  simp [State.pendSpan]
@[simp] theorem waitFlag_sound (m : Nat) :
    (s.waitFlag m).sound = s.sound := by simp [State.waitFlag]
@[simp] theorem autoRange_sound (f m : Nat) : (s.autoRange f m).sound = s.sound := by
  unfold State.autoRange
  extract_lets x o live q y d downN bar a off go put
  have hput (t : State) : (put t).sound = t.sound := by simp [put]
  clear_value go put
  split
  · rfl
  · split
    · extract_lets n t
      have ht : t.sound = s.sound := by simp [t, hput]
      clear_value n t
      split_ifs
      · simp [hput]
      · simp
      · simp
      · simp
      · split
        · split <;> simp [ht]
        · exact ht
    · split <;> simp [hput]
@[simp] theorem autoSpan_sound (hs : s.sound) (f m : Nat) : (s.autoSpan f m).sound := by
  unfold State.autoSpan
  extract_lets x o live downN change bar low a off go put
  have hput (t : State) : (put t).sound = t.sound := by simp [put]
  have hchange (t : State) (v : Nat) (ht : t.sound) : (change t v).sound := by simp +contextual [ht, change]
  clear_value go put change
  split
  · exact hs
  · split
    · extract_lets n t
      have ht : t.sound := by simp [hs, t, hput]
      clear_value n t
      split_ifs
      · simp [hs, hput]
      · simp [hs, hchange]
      · simp [hs, hchange]
      · simp [hs, hchange]
      · split
        · split <;> simp [hchange, ht]
        · exact ht
    · split
      · split <;> simp [hs, hput, hchange]
      · simp [hs, hput]
@[simp] theorem snapBuild_sound (p : Nat) : (s.snapBuild p).sound = s.sound := by
  unfold State.snapBuild; split <;> simp
@[simp] theorem snapTake_sound (p : Nat) : (s.snapTake p).sound = s.sound := by
  unfold State.snapTake; simp only; split <;> simp

/-! ### Machine/Wipe.lean -/

@[simp] theorem wipeAsk_sound (g off sel : Nat) (v : Word) :
    (s.wipeAsk g off sel v).sound = s.sound := by
  simp [State.wipeAsk]
@[simp] theorem wipeNow_sound (w : W1c) : (s.wipeNow w).sound = s.sound := by simp [State.wipeNow]
@[simp] theorem wipeFlags_sound (g : Nat) : (s.wipeFlags g).sound = s.sound := by
  simp [State.wipeFlags]
@[simp] theorem wipeCounters_sound (g : Nat) : (s.wipeCounters g).sound = s.sound := by
  simp [State.wipeCounters]
@[simp] theorem clearsNow_sound (p : Nat) : (s.clearsNow p).sound = s.sound := by
  simp [State.clearsNow]
@[simp] theorem actionsNow_sound (g : Nat) : (s.actionsNow g).sound = s.sound := by
  simp [State.actionsNow]

/-! ### Machine/Period.lean -/

@[simp] theorem shadowPort_sound (p : Nat) : (s.shadowPort p).sound = s.sound := by
  unfold State.shadowPort; split <;> simp
@[simp] theorem reWarm_sound : s.reWarm.sound = s.sound := by simp [State.reWarm]
@[simp] theorem drivePort_sound (p : Nat) : (s.drivePort p).sound = s.sound := by
  unfold State.drivePort; split <;> simp
@[simp] theorem shadowApply_sound (g : Nat) : (s.shadowApply g).sound = s.sound := by
  simp [State.shadowApply]
@[simp] theorem tickStart_sound (g : Nat) : (s.tickStart g).sound = s.sound := by
  simp [State.tickStart]
@[simp] theorem strobePort_sound (p : Nat) : (s.strobePort p).sound = s.sound := by
  simp [State.strobePort]
@[simp] theorem siteStrobe_sound (hs : s.sound) (p : Nat) : (s.siteStrobe p).sound := by
  unfold State.siteStrobe; simp only; (repeat' split) <;> simp [hs]
@[simp] theorem latchClear_sound (p : Nat) : (s.latchClear p).sound = s.sound := by
  simp [State.latchClear]
@[simp] theorem forcedTrip_sound (hs : s.sound) (p : Nat) : (s.forcedTrip p).sound := by
  simp [hs, State.forcedTrip]
@[simp] theorem figTick_sound (hs : s.sound) (f : Nat) : (s.figTick f).sound := by simp [hs, State.figTick]
@[simp] theorem tuneTick_sound (hs : s.sound) (g : Nat) : (s.tuneTick g).sound := by
  unfold State.tuneTick; split <;> simp [hs]
@[simp] theorem powerTake_sound (p : Nat) : (s.powerTake p).sound = s.sound := by
  simp [State.powerTake]
@[simp] theorem tapsLost_sound (g : Nat) :
    (s.tapsLost g).sound = s.sound := by simp [State.tapsLost]
@[simp] theorem snapAnswer_sound (hs : s.sound) (w : SnapReq) : (s.snapAnswer w).sound := by
  simp [hs, State.snapAnswer]
@[simp] theorem snapTick_sound (hs : s.sound) (g : Nat) (common : Bool) :
    (s.snapTick g common).sound := by
  simp +contextual [hs, State.snapTick]
@[simp] theorem measNow_sound (hs : s.sound) (p : Nat) : (s.measNow p).sound := by simp [hs, State.measNow]
@[simp] theorem shortFlag_sound (p : Nat) (x : PeriodIn) : (s.shortFlag p x).sound = s.sound := by
  simp [State.shortFlag]
@[simp] theorem leadTick_sound (p : Nat) :
    (s.leadTick p).sound = s.sound := by simp [State.leadTick]
@[simp] theorem apTicks_sound (g : Nat) : (s.apTicks g).sound = s.sound := by simp [State.apTicks]
@[simp] theorem autoTick_sound (hs : s.sound) (p : Nat) : (s.autoTick p).sound := by
  unfold State.autoTick; split <;> simp [hs]
@[simp] theorem enableTick_sound (p : Nat) : (s.enableTick p).sound = s.sound := by
  unfold State.enableTick; simp only; split <;> simp
@[simp] theorem modelTick_sound (before : State) (p : Nat) :
    (State.modelTick before s p).sound = s.sound := by
  simp [State.modelTick]
/-- The ports of a group, each through an operation that answers commands. -/
@[simp] theorem eachPort_keeps (hs : s.sound) (g : Nat) (f : State → Nat → State)
    (hf : ∀ t p, t.sound → (f t p).sound) : (s.eachPort g f).sound := foldl_keeps hs (fun t _ => hf t _) _
@[simp] theorem period_sound (hs : s.sound) (g : Nat) (x : PeriodIn) : (s.period g x).sound := by
  unfold State.period
  extract_lets common t1 t2 t3 t4 t5 t6 t7 t8 t9 t10 t11 t12 t13 t14 before t16 t17 t18 t19 t20 t21 t22
  have h1 : t1.sound := by simp +contextual [t1, hs]
  have h7 : t7.sound := by simp +contextual [t7, t6, t5, t4, t3, t2, h1]
  have h9 : t9.sound := by simp +contextual [t9, t8, h7]
  have h10 : t10.sound := by simp +contextual [t10, h9]
  have h14 : t14.sound := by simp +contextual [t14, t13, t12, t11, h10]
  have h19 : t19.sound := by simp +contextual [t19, t18, t17, t16, h14]
  have h20 : (t19.eachPort g State.measNow).sound := by simp +contextual [h19]
  simp [t22, t21, t20, h20]
@[simp] theorem execLoopPeriodBoundary_sound (grp : Nat) (p : PeriodIn) :
    Stays s (execLoopPeriodBoundary grp p s) := stays_finish fun hs => by simp [hs]
@[simp] theorem takeTemp_sound (hs : s.sound) (p : Nat) (temp : Int) : (s.takeTemp p temp).sound := by
  simp [hs, State.takeTemp]
@[simp] theorem execAuxEntryEnd_sound (grp : Nat) (inputs : List Int) :
    Stays s (execAuxEntryEnd grp inputs s) := by
  unfold execAuxEntryEnd
  refine stays_finish fun hs => ?_
  split
  · have hf : (s.auxFill grp inputs).sound := by simp [hs]
    dsimp only
    generalize s.auxFill grp inputs = u at hf
    split
    · split
      · simp [hf]
      · split <;> simp [hf]
    · exact hf
  · exact hs
/-! ### Machine/Front.lean -/

@[simp] theorem modPfe_sound (f : Pfe → Pfe) :
    (s.modPfe f).sound = s.sound := by simp [State.modPfe]
@[simp] theorem modPri_sound (f : Primary → Primary) : (s.modPri f).sound = s.sound := by
  simp [State.modPri]
@[simp] theorem modIso_sound (f : Iso → Iso) :
    (s.modIso f).sound = s.sound := by simp [State.modIso]
@[simp] theorem pfeFault_sound (m : Word) : (s.pfeFault m).sound = s.sound := by
  simp [State.pfeFault]
@[simp] theorem priFault_sound (m : Word) : (s.priFault m).sound = s.sound := by
  simp [State.priFault]
@[simp] theorem pfcTry_sound : s.pfcTry.sound = s.sound := by simp [State.pfcTry]
@[simp] theorem pfcStop_sound (wait : Nat) : (s.pfcStop wait).sound = s.sound := by
  simp [State.pfcStop]
@[simp] theorem windDown_sound (hs : s.sound) : s.windDown.sound := by
  simp +contextual [hs, State.windDown]
@[simp] theorem huStart_sound : s.huStart.sound = s.sound := by simp [State.huStart]
@[simp] theorem mainsLoss_sound (hs : s.sound) (iso : Bool) : (s.mainsLoss iso).sound := by
  simp [hs, State.mainsLoss]
@[simp] theorem huNormal_sound : s.huNormal.sound = s.sound := by simp [State.huNormal]
@[simp] theorem execMainsLost_sound : Stays s (execMainsLost s) := stays_finish fun hs => by simp [hs]
@[simp] theorem frameToPrimary_sound : s.frameToPrimary.sound = s.sound := by
  simp [State.frameToPrimary]
@[simp] theorem execIsoFrameSend_sound : Stays s (execIsoFrameSend s) := stays_finish fun hs => by simp [hs]
@[simp] theorem frameArrives_sound (crcOk : Bool) : (s.frameArrives crcOk).sound = s.sound := by
  simp [State.frameArrives]
@[simp] theorem takeReports_sound (hs : s.sound) : s.takeReports.sound := by simp [hs, State.takeReports]
@[simp] theorem execIsoFrameReceive_sound (f : IsoIn) : Stays s (execIsoFrameReceive f s) := by
  unfold execIsoFrameReceive; refine stays_finish fun hs => ?_; split <;> simp [hs]
@[simp] theorem execIsoChannelFail_sound (secondary : Bool) :
    Stays s (execIsoChannelFail secondary s) := stays_finish fun hs => by simp [hs]
@[simp] theorem execIsoChannelRestore_sound (secondary : Bool) :
    Stays s (execIsoChannelRestore secondary s) := stays_finish fun hs => by simp [hs]
@[simp] theorem execVccPStart_sound : Stays s (execVccPStart s) := stays_finish fun hs => by simp [hs]
@[simp] theorem flybackOff_sound : s.flybackOff.sound = s.sound := by simp [State.flybackOff]
@[simp] theorem execVccPLow_sound : Stays s (execVccPLow s) := stays_finish fun hs => by simp [hs]
@[simp] theorem execAuxSecondaryRegulation_sound : Stays s (execAuxSecondaryRegulation s) :=
  stays_finish fun hs => by simp [hs]
@[simp] theorem execRelayClose_sound : Stays s (execRelayClose s) := by
  unfold execRelayClose; refine stays_finish fun hs => ?_; split <;> simp [hs]
@[simp] theorem execRelayCheck_sound (sensed : Bool) : Stays s (execRelayCheck sensed s) :=
  stays_finish fun hs => by simp [hs]
@[simp] theorem relayRetry_sound : s.relayRetry.sound = s.sound := by simp [State.relayRetry]
@[simp] theorem execRelayFaultRetry_sound : Stays s (execRelayFaultRetry s) :=
  stays_finish fun hs => by simp [hs]
@[simp] theorem execBulkOkChange_sound (ok : Bool) : Stays s (execBulkOkChange ok s) :=
  stays_finish fun hs => by simp [hs]
@[simp] theorem execPfcOvercurrent_sound : Stays s (execPfcOvercurrent s) :=
  stays_finish fun hs => by simp [hs]
@[simp] theorem execBulkOvervoltage_sound (high : Bool) : Stays s (execBulkOvervoltage high s) :=
  stays_finish fun hs => by simp [hs]
@[simp] theorem execBulkUndervoltage_sound : Stays s (execBulkUndervoltage s) :=
  stays_finish fun hs => by simp [hs]
@[simp] theorem execLineLoss_sound : Stays s (execLineLoss s) := stays_finish fun hs => by simp [hs]
@[simp] theorem execPrimaryOverTemperature_sound (hot : Bool) :
    Stays s (execPrimaryOverTemperature hot s) := stays_finish fun hs => by simp [hs]
@[simp] theorem execPriWarn_sound : Stays s (execPriWarn s) := stays_finish fun hs => by simp [hs]
@[simp] theorem execFlybackStop_sound : Stays s (execFlybackStop s) := by
  unfold execFlybackStop; refine stays_finish fun hs => ?_; split <;> simp [hs]
@[simp] theorem execHoldupEstimate_sound (vbulk : Option Nat) (linePeak lineRms : Nat) (temp : Int)
    (power : AuxPower) :
    Stays s (execHoldupEstimate vbulk linePeak lineRms temp power s) := stays_finish fun hs => by simp [hs]
@[simp] theorem execRideTimeout_sound : Stays s (execRideTimeout s) := stays_finish fun hs => by simp [hs]
@[simp] theorem closeRanges_sound : s.closeRanges.sound = s.sound := by simp [State.closeRanges]
@[simp] theorem mireCommit_sound (hs : s.sound) : s.mireCommit.sound := by simp [hs, State.mireCommit]
@[simp] theorem execCommit_sound : Stays s (execCommit s) := stays_finish fun hs => by
  have h1 (l : List (Nat × Sp)) (x : DWord) : (l.foldl (fun t e => t.trip e.1 (bitAt true 16) x 0) s).sound := by
    simp +contextual [hs]
  simp [hs, h1]
@[simp] theorem execCommitEnd_sound : Stays s (execCommitEnd s) := by
  unfold execCommitEnd
  refine stays_finish fun hs => ?_
  split_ifs <;> simp [hs]
@[simp] theorem execHoldupRestore_sound : Stays s (execHoldupRestore s) := stays_finish fun hs => by simp [hs]
@[simp] theorem execDcFail_sound : Stays s (execDcFail s) := stays_finish fun hs => by simp [hs]
@[simp] theorem dieWarn_sound (die : Nat) (temp : Int) : (s.dieWarn die temp).sound = s.sound := by
  simp [State.dieWarn]

end

end Sys2Proof.Machine

namespace Sys2Proof.Machine

section
variable (s : State)

/-! ### Machine/LoopCmd.lean -/

@[simp] theorem execLoopCoefWrite_sound (r : Req) (fig : Nat) (block : BitVec 640) :
    Stays s (execLoopCoefWrite r fig block s) :=
  stays_editCommand fun t hs => by (repeat' split) <;> simp [hs]
@[simp] theorem execLoopCoefRead_sound (r : Req) (fig mask : Nat) :
    Stays s (execLoopCoefRead r fig mask s) :=
  stays_umser fun t hs => by simp [hs]
@[simp] theorem execLoopFfWrite_sound (r : Req) (port half : Nat) (table : List (BitVec 16)) :
    Stays s (execLoopFfWrite r port half table s) :=
  stays_editCommand fun t hs => by split <;> simp [hs]
@[simp] theorem execLoopFfRead_sound (r : Req) (port half : Nat) :
    Stays s (execLoopFfRead r port half s) :=
  stays_umser fun t hs => by split <;> simp [hs]
@[simp] theorem execTuneStart_sound (r : Req) (fig member point wave prbsL dec : Nat) (amp : Int)
    (ftw n : Nat) (start : DWord) :
    Stays s (execTuneStart r fig member point wave prbsL dec amp ftw n start s) :=
  stays_umser fun t hs => by (repeat' split) <;> simp [hs]
@[simp] theorem execTuneStop_sound (r : Req) (grp : Nat) : Stays s (execTuneStop r grp s) :=
  stays_umser fun t hs => by (repeat' split) <;> simp [hs]

/-! ### Machine/Swap.lean -/

@[simp] theorem leaveCast_sound (hs : s.sound) (c : CfgSet) : (s.leaveCast c).sound :=
  foldl_keeps hs (fun t e ht => by (repeat' split) <;> simp [ht]) _
@[simp] theorem castIn_sound (c : CfgSet) : (s.castIn c).sound = s.sound := by simp [State.castIn]
@[simp] theorem groupIn_sound (s old : State) (g : Nat) : (s.groupIn old g).sound = s.sound := by
  simp [State.groupIn]
@[simp] theorem dataIn_sound : s.dataIn.sound = s.sound := by simp [State.dataIn]
@[simp] theorem rebaseLoop_sound (s old : State) (f p loop : Nat) (w : Work) :
    (s.rebaseLoop old f p loop w).sound = s.sound := by
  unfold State.rebaseLoop; split <;> simp
@[simp] theorem keepBlocks_sound (hs : s.sound) (old : State) (f : Nat) :
    (s.keepBlocks old f).sound := by
  unfold State.keepBlocks
  extract_lets mem
  split
  · refine tuneCut_sound _ ?_ _
    simp [hs]
  · exact hs
@[simp] theorem keepRange_sound (hs : s.sound) (old : State) (f : Nat) :
    (s.keepRange old f).sound := by
  unfold State.keepRange; simp only; (repeat' split) <;> simp [hs]
@[simp] theorem keepList_sound (s old : State) (f : Nat) : (s.keepList old f).sound = s.sound := by
  simp [State.keepList]
@[simp] theorem keepShare_sound (s old : State) (f : Nat) :
    (s.keepShare old f).sound = s.sound := by
  unfold State.keepShare; split <;> simp
@[simp] theorem keepFigure_sound (hs : s.sound) (old : State) (f : Nat) :
    (s.keepFigure old f).sound := by
  unfold State.keepFigure
  extract_lets t1 t2 t3 t4
  have h1 : t1.sound := by simp only [t1]; split <;> simp [hs]
  have h3 : t3.sound := by simp [t3, t2, h1]
  simp [t4, h3]
@[simp] theorem firstEnable_sound (f : Nat) : (s.firstEnable f).sound = s.sound := by
  simp [State.firstEnable]
@[simp] theorem figEnable_sound (f : Nat) : (s.figEnable f).sound = s.sound := by
  simp [State.figEnable]
@[simp] theorem routeRunner_sound (f : Nat) : (s.routeRunner f).sound = s.sound := by
  unfold State.routeRunner; split <;> simp
@[simp] theorem figuresIn_sound (hs : s.sound) (old : State) : (s.figuresIn old).sound :=
  foldl_keeps hs (fun t f ht => by
    simp only [routeRunner_sound]
    (repeat' split) <;> simp [ht]) _
@[simp] theorem frontIn_sound (s old : State) : (s.frontIn old).sound = s.sound := by
  simp [State.frontIn]
@[simp] theorem swapped_sound (s s0 : State) (internal paired : Bool) :
    (s.swapped s0 internal paired).sound = s.sound := by
  simp [State.swapped]
@[simp] theorem bringIn_sound (hs : s.sound) (c : CfgSet) (paired : Bool) :
    (s.bringIn c paired).sound := by
  have h1 : (s.leaveCast c).sound := by simp [hs]
  simp [h1, State.bringIn]
/-! ### Machine/Unveil.lean -/

@[simp] theorem freeze_sound : s.freeze.sound = s.sound := by simp [State.freeze]
@[simp] theorem execSetUnveil_sound (r : Req) (expect : Option Word) (at_ : Option DWord) :
    Stays s (execSetUnveil r expect at_ s) :=
  stays_umser fun t hs => by simp [hs]
@[simp] theorem execSetValidate_sound (r : Req) (expect : Option Word) :
    Stays s (execSetValidate r expect s) :=
  stays_umser fun t hs => by simp [hs]
@[simp] theorem execPlacePreview_sound (r : Req) (first count : Nat) :
    Stays s (execPlacePreview r first count s) :=
  stays_umser fun t hs => by simp [hs]
@[simp] theorem execLoopSchedRead_sound (r : Req) : Stays s (execLoopSchedRead r s) :=
  stays_umser fun t hs => by simp [hs]
@[simp] theorem modOutst_sound (opcode : Nat) (f : Outstanding → Outstanding) :
    (s.modOutst opcode f).sound = s.sound := by
  simp [State.modOutst]
@[simp] theorem handOver_sound (x : Transfer) : (s.handOver x).sound = s.sound := by
  simp [State.handOver]
@[simp] theorem execUnveilTransfer_sound : Stays s (execUnveilTransfer s) := by
  unfold execUnveilTransfer; refine stays_finish fun hs => ?_; (repeat' split) <;> simp [hs]
@[simp] theorem pairSwap_sound (x : Transfer) : (s.pairSwap x).sound = s.sound := by
  simp [State.pairSwap]
@[simp] theorem execUnveilSwap_sound : Stays s (execUnveilSwap s) := by
  unfold execUnveilSwap; refine stays_finish fun hs => ?_; split <;> simp [hs]
@[simp] theorem execMaquetteCopyEnd_sound : Stays s (execMaquetteCopyEnd s) :=
  stays_finish fun hs => by simp [hs]
@[simp] theorem validateEnd_sound (hs : s.sound) : s.validateEnd.sound := by
  unfold State.validateEnd; split <;> simp [hs]
@[simp] theorem previewEnd_sound (hs : s.sound) (o : Outstanding) : (s.previewEnd o).sound := by
  unfold State.previewEnd; split <;> simp [hs]
@[simp] theorem execValidationEnd_sound : Stays s (execValidationEnd s) := by
  unfold execValidationEnd; refine stays_finish fun hs => ?_; split <;> simp [hs]
@[simp] theorem noTarget_sound (f : Nat) :
    (s.noTarget f).sound = s.sound := by simp [State.noTarget]
@[simp] theorem execMigration_sound (port : Nat) : Stays s (execMigration port s) :=
  stays_finish fun hs => by simp [hs]
@[simp] theorem reshare_sound (s old : State) (ports : List Nat) :
    (s.reshare old ports).sound = s.sound := by
  simp [State.reshare]
@[simp] theorem migrated_sound (m : List Nat) (f : Nat) (cause tripSeq : Word) :
    (s.migrated m f cause tripSeq).sound = s.sound := by
  simp [State.migrated]
@[simp] theorem internalIn_sound (x : Transfer) : (s.internalIn x).sound = s.sound := by
  simp [State.internalIn]
@[simp] theorem execInternalUnveil_sound : Stays s (execInternalUnveil s) := by
  unfold execInternalUnveil; refine stays_finish fun hs => ?_; split <;> simp [hs]
@[simp] theorem liveIn_sound (key : Nat) (v : Word) : (s.liveIn key v).sound = s.sound := by
  simp [State.liveIn]
@[simp] theorem execLiveWriteApply_sound : Stays s (execLiveWriteApply s) := by
  unfold execLiveWriteApply; refine stays_finish fun hs => ?_; split <;> simp [hs]

/-! ### Machine/Calib.lean -/

@[simp] theorem execCalStatusRead_sound (r : Req) : Stays s (execCalStatusRead r s) :=
  stays_umser fun t hs => by simp [hs]
@[simp] theorem arbTake_sound (a : Nat) (c : SelfCal) : (s.arbTake a c).1.sound = s.sound := by
  simp [State.arbTake]
@[simp] theorem extArbs_sound (k : Nat) (l : List SelfCal) :
    (s.extArbs k l).1.sound = s.sound := by
  induction l generalizing s k with
  | nil => rfl
  | cons c l ih => simp only [State.extArbs, ih, arbTake_sound]
@[simp] theorem arbStart_sound (mask : BitVec 4) : (s.arbStart mask).sound = s.sound := by
  simp [State.arbStart]
@[simp] theorem arbNext_sound : s.arbNext.sound = s.sound := by simp [State.arbNext]
@[simp] theorem mainsStart_sound : s.mainsStart.sound = s.sound := by simp [State.mainsStart]
@[simp] theorem assign_sound (vRef iCal : Int) (date : Word) (src : Nat) :
    (s.assign vRef iCal date src).sound = s.sound := by
  simp [State.assign]
@[simp] theorem assignMire_sound : s.assignMire.sound = s.sound := by
  unfold State.assignMire; split <;> simp
@[simp] theorem calAdvance_sound : s.calAdvance.sound = s.sound := by simp [State.calAdvance]
@[simp] theorem execCalStartup_sound : Stays s (execCalStartup s) := stays_finish fun hs => by simp [hs]
@[simp] theorem execArbiterSelfCalDue_sound : Stays s (execArbiterSelfCalDue s) :=
  stays_finish fun hs => by simp [hs]
@[simp] theorem execCalArbSelf_sound (r : Req) (mask : BitVec 4) : Stays s (execCalArbSelf r mask s) :=
  stays_umser fun t hs => by simp [hs]
@[simp] theorem arbEnded_sound (hs : s.sound) (a cause : Nat) : (s.arbEnded a cause).sound := by
  simp [hs, State.arbEnded]
@[simp] theorem execArbiterSelfCalEnd_sound (arb : Nat) (c : SelfCal) :
    Stays s (execArbiterSelfCalEnd arb c s) := stays_finish fun hs => by simp [hs]
@[simp] theorem execCalMainsSelf_sound (r : Req) : Stays s (execCalMainsSelf r s) :=
  stays_umser fun t hs => by simp [hs]
@[simp] theorem mainsFailed_sound (ch cause : Nat) : (s.mainsFailed ch cause).sound = s.sound := by
  simp [State.mainsFailed]
@[simp] theorem execMainsConverterExchange_sound (c : SelfCal) :
    Stays s (execMainsConverterExchange c s) := stays_finish fun hs => by simp [hs]
@[simp] theorem execMainsConverterSelfCalEnd_sound (c : SelfCal) :
    Stays s (execMainsConverterSelfCalEnd c s) := stays_finish fun hs => by simp [hs]
@[simp] theorem execCalRefWrite_sound (r : Req) (vRef iCal : Int) (date : Word) :
    Stays s (execCalRefWrite r vRef iCal date s) :=
  stays_umser fun t hs => by simp [hs]
@[simp] theorem execCalExt_sound (r : Req) (nominal : Int) (tol rs : Nat) (date : Word) :
    Stays s (execCalExt r nominal tol rs date s) :=
  stays_umser fun t hs => by simp [hs]
@[simp] theorem execCalIsrc_sound (r : Req) (mode : Nat) : Stays s (execCalIsrc r mode s) :=
  stays_umser fun t hs => by simp [hs]
@[simp] theorem execIsrcLimit_sound : Stays s (execIsrcLimit s) := stays_finish fun hs => by simp [hs]
@[simp] theorem extFailed_sound (hs : s.sound) (cause object : Nat) :
    (s.extFailed cause object).sound := by
  simp [hs, State.extFailed]
@[simp] theorem execCalExtEnd_sound (c : ExtCal) : Stays s (execCalExtEnd c s) := by
  unfold execCalExtEnd
  refine stays_finish fun hs => ?_
  split
  · exact hs
  · split
    · exact hs
    · extract_lets date arbs t v i cause t1 src t2 u t3
      have ht : t.sound := by simp [t, arbs, hs]
      have h2 : t2.sound := by simp only [t2]; split <;> simp [src, t1, ht]
      have hu : u.sound := by
        simp only [u]
        (repeat' split) <;> simp [ht, h2]
      simp [t3, hu]
@[simp] theorem limitsAt_sound (g : Nat) :
    (s.limitsAt g).sound = s.sound := by simp [State.limitsAt]
@[simp] theorem setsEnd_sound (g slice cause : Nat) (sets : List (Nat × Factors)) :
    (s.setsEnd g slice cause sets).1.sound = s.sound := by
  unfold State.setsEnd; simp only; split <;> simp
@[simp] theorem execSpareSlotDue_sound : Stays s (execSpareSlotDue s) := stays_finish fun hs => by simp [hs]
@[simp] theorem execCalSpare_sound (r : Req) : Stays s (execCalSpare r s) :=
  stays_umser fun t hs => by simp [hs]
@[simp] theorem slotEnded_sound (hs : s.sound) (bus passed cause : Nat) :
    (s.slotEnded bus passed cause).sound := by
  simp [hs, State.slotEnded]
@[simp] theorem execSpareSlotStart_sound (bus : Nat) : Stays s (execSpareSlotStart bus s) :=
  stays_finish fun hs => by simp [hs]
@[simp] theorem spareEnd_sound (x : SpareCal) : (s.spareEnd x).1.sound = s.sound := by
  simp [State.spareEnd]
@[simp] theorem execSpareSlotEnd_sound (bus : Nat) (spares : List SpareCal) :
    Stays s (execSpareSlotEnd bus spares s) := by
  unfold execSpareSlotEnd
  refine stays_finish fun hs => ?_
  split
  · extract_lets l mine r t t1
    have ht : t1.sound := by simp [t1, t, r, hs]
    simp [ht]
  · exact hs
@[simp] theorem passBegin_sound (g : Nat) : (s.passBegin g).sound = s.sound := by
  simp [State.passBegin]
@[simp] theorem slotBegin_sound (g : Nat) : (s.slotBegin g).sound = s.sound := by
  unfold State.slotBegin; split <;> simp
@[simp] theorem execPatinaPassStart_sound (grp : Nat) : Stays s (execPatinaPassStart grp s) :=
  stays_finish fun hs => by simp [hs]
@[simp] theorem demandEnd_sound (hs : s.sound) (g : Nat) (c : CheckReq) (r : ShareResult) :
    (s.demandEnd g c r).sound := by
  simp [hs, State.demandEnd]
@[simp] theorem execShareCheckEnd_sound (grp : Nat) (own spare : List Int) (novr : List Nat) :
    Stays s (execShareCheckEnd grp own spare novr s) := by
  unfold execShareCheckEnd
  refine stays_finish fun hs => ?_
  split
  · exact hs
  · split
    next c _ =>
      split
      · exact hs
      · have h1 (r : ShareResult) : (s.demandEnd grp c r).sound := by simp [hs]
        dsimp only
        generalize s.shareResult grp c.slice none _ = r
        split
        · split <;> simp [h1]
        · simp [h1]
    · simp [hs]
    · exact hs
@[simp] theorem passEnd_sound (g : Nat) (p : Pass) : (s.passEnd g p).sound = s.sound := by
  simp [State.passEnd]
@[simp] theorem passHanded_sound (g : Nat) (p : Pass) : (s.passHanded g p).sound = s.sound := by
  simp [State.passHanded]
@[simp] theorem execCarryHandover_sound (grp : Nat) : Stays s (execCarryHandover grp s) := by
  unfold execCarryHandover; refine stays_finish fun hs => ?_; (repeat' split) <;> simp [hs]
@[simp] theorem execPatinaSetsComputed_sound (grp : Nat) (sets : List (Nat × Factors)) :
    Stays s (execPatinaSetsComputed grp sets s) := by
  unfold execPatinaSetsComputed; refine stays_finish fun hs => ?_; split <;> simp [hs]
@[simp] theorem execPathTestEnd_sound (grp : Nat) (readings : List (List (List Int))) :
    Stays s (execPathTestEnd grp readings s) := by
  unfold execPathTestEnd
  refine stays_finish fun hs => ?_
  split
  · split
    · refine complete_sound _ ?_ _ _
      split <;> simp [hs]
    · exact hs
  · exact hs
@[simp] theorem setsIn_sound (g : Nat) : (s.setsIn g).sound = s.sound := by simp [State.setsIn]
@[simp] theorem handBack_sound (g : Nat) : (s.handBack g).sound = s.sound := by
  unfold State.handBack; split <;> simp
@[simp] theorem govern_sound (hs : s.sound) : s.govern.sound := by
  unfold State.govern; simp only; (repeat' split) <;> simp [hs]
@[simp] theorem execMainsCycleBoundary_sound (grp : Nat) (tDie : Int) :
    Stays s (execMainsCycleBoundary grp tDie s) := stays_finish fun hs => by simp [hs]

end

end Sys2Proof.Machine

namespace Sys2Proof.Machine

section
variable (s : State)

/-! ### Machine/Reset.lean -/

@[simp] theorem calCut_sound : s.calCut.sound = s.sound := by simp [State.calCut]
@[simp] theorem disown_sound : s.disown.sound = s.sound := by simp [State.disown]
@[simp] theorem commitErrors_sound (hs : s.sound) : s.commitErrors.sound :=
  foldl_keeps hs (fun t e ht => by simp +contextual [ht]) _
@[simp] theorem moveTrips_sound (hs : s.sound) : s.moveTrips.sound := by
  have h1 : (s.grp.foldl (fun t e => e.2.trips.foldl State.moveRecord t) s).sound := by simp [hs]
  exact commitErrors_sound _ h1
@[simp] theorem depart_sound (kind level : Nat) (src : BitVec 8) :
    (s.depart kind level src).sound = s.sound := by
  simp [State.depart]
@[simp] theorem orderedActions_sound (hs : s.sound) : s.orderedActions.sound := by
  simp +contextual [hs, State.orderedActions]
@[simp] theorem settleRole_sound (role : Role) : (s.settleRole role).sound = s.sound := by
  unfold State.settleRole
  extract_lets seats t code t'
  have ht : t'.sound = s.sound := rfl
  split <;> simp [ht]
@[simp] theorem calFuses_sound : s.calFuses.sound = s.sound := by simp [State.calFuses]
@[simp] theorem reportLoss_sound (qid cause : Nat) (first last count era : Word) :
    (s.reportLoss qid cause first last count era).sound = s.sound := by
  simp [State.reportLoss]
@[simp] theorem reportSaved_sound : s.reportSaved.sound = s.sound := by simp [State.reportSaved]
@[simp] theorem reportRange_sound (era : Word) (r : LossRange) :
    (s.reportRange era r).sound = s.sound := by
  simp [State.reportRange]
@[simp] theorem reportExcess_sound : s.reportExcess.sound = s.sound := by
  simp [State.reportExcess]
@[simp] theorem reportPeat_sound : s.reportPeat.sound = s.sound := by simp [State.reportPeat]
@[simp] theorem pagesLost_sound : s.pagesLost.sound = s.sound := by simp [State.pagesLost]
@[simp] theorem reportApertures_sound : s.reportApertures.sound = s.sound := by
  simp [State.reportApertures]
@[simp] theorem reportRestart_sound : s.reportRestart.sound = s.sound := by
  simp [State.reportRestart]
@[simp] theorem recordCut_sound : s.recordCut.sound = s.sound := by simp [State.recordCut]
@[simp] theorem execDescReadsEnd_sound (grp : Nat) (reads : List (Nat × Option (BitVec 2048))) :
    Stays s (execDescReadsEnd grp reads s) := stays_finish fun hs => by simp [hs]
@[simp] theorem execRstFuseProgram_sound (r : Req) (map : Word) (lock : Bool) (key : Nat) :
    Stays s (execRstFuseProgram r map lock key s) :=
  stays_umser fun t hs => by simp [hs]
@[simp] theorem execGrpReset_sound (r : Req) (mask : BitVec 16) : Stays s (execGrpReset r mask s) :=
  stays_umser fun t hs => by
    split
    · simp [hs]
    · split
      · simp [hs]
      · refine foldl_keeps (by simp [hs]) (fun t g ht => ?_) _
        split <;> simp +contextual [ht]
@[simp] theorem checksCut_sound (hs : s.sound) (g : Nat) : (s.checksCut g).sound :=
  foldl_keeps (by simp [hs]) (fun t c ht => by simp [ht]) _
@[simp] theorem execGroupContextResetStart_sound (grp : Nat) :
    Stays s (execGroupContextResetStart grp s) :=
  stays_finish fun hs => by
    split
    · extract_lets figs t1 t2 t3 t4 t5
      have h1 : t1.sound := by
        refine foldl_keeps hs (fun t f ht => ?_) _
        have h (c : Nat) : (t.apCut f c).sound := by simp [ht]
        simp [h]
      have h2 : t2.sound := by simp [t2, h1]
      have h3 : ((t2.rawCut grp 5).urgEmpty grp).sound := by simp [h2]
      simp [t5, t4, t3, h3]
    · exact hs
@[simp] theorem passCut_sound (g : Nat) : (s.passCut g).sound = s.sound := by
  unfold State.passCut; split <;> simp
@[simp] theorem execGroupContextResetEnd_sound (grp : Nat) :
    Stays s (execGroupContextResetEnd grp s) := stays_finish fun hs => by simp [hs]
/-! ### Machine/Twin.lean -/

@[simp] theorem setLink_sound (l : Link) : (s.setLink l).sound = s.sound := by simp [State.setLink]
@[simp] theorem linkOff_sound : s.linkOff.sound = s.sound := by simp [State.linkOff]
@[simp] theorem editsDone_sound (hs : s.sound) (p : EditWait → Bool) : (s.editsDone p).sound :=
  foldl_keeps (by simp [hs]) (fun t w ht => by simp [ht]) _
@[simp] theorem portOff_sound (p : Nat) : (s.portOff p).sound = s.sound := by simp [State.portOff]
@[simp] theorem allOff_sound : s.allOff.sound = s.sound := by simp [State.allOff]
@[simp] theorem figuresLeft_sound (hs : s.sound) (enabled : Bool) : (s.figuresLeft enabled).sound := by
  have h1 (l : List Nat) : (l.foldl (fun t f => (t.tuneCut f).captureCut f) s).sound :=
    foldl_keeps hs (fun t f ht => by simp [ht]) _
  simp [h1, State.figuresLeft]
@[simp] theorem enterDetached_sound (hs : s.sound) (status : Nat) : (s.enterDetached status).sound := by
  unfold State.enterDetached
  extract_lets t1 t2 t3 t4
  have h1 : t1.sound := by simp only [t1]; split <;> simp [hs]
  have h3 : t3.sound := by simp only [t3]; split <;> simp [t2, h1]
  simp [t4, h3]
@[simp] theorem linkLost_sound (hs : s.sound) : s.linkLost.sound := by simp [hs, State.linkLost]
@[simp] theorem asStandby_sound (hs : s.sound) : s.asStandby.sound := by simp [hs, State.asStandby]
@[simp] theorem asActive_sound (hs : s.sound) : s.asActive.sound := by simp [hs, State.asActive]
@[simp] theorem settlePair_sound (hs : s.sound) (c : ConfigMsg) (partnerSeated : BitVec 16) :
    (s.settlePair c partnerSeated).sound := by
  simp [hs, State.settlePair]
@[simp] theorem attachFailed_sound (hs : s.sound) : s.attachFailed.sound := by
  simp [hs, State.attachFailed]
@[simp] theorem trainFailed_sound (hs : s.sound) : s.trainFailed.sound := by simp [hs, State.trainFailed]
@[simp] theorem execTrainAttemptStart_sound : Stays s (execTrainAttemptStart s) :=
  stays_finish fun hs => by simp [hs]
@[simp] theorem execTrainStateDone_sound (order : List Nat) (pol : BitVec 4) :
    Stays s (execTrainStateDone order pol s) := by
  unfold execTrainStateDone; refine stays_finish fun hs => ?_; (repeat' split) <;> simp [hs]
@[simp] theorem execConfig_sound (c : ConfigMsg) : Stays s (execConfig c s) :=
  stays_finish fun hs => by simp [hs]
@[simp] theorem execTrainTimeout_sound : Stays s (execTrainTimeout s) := stays_finish fun hs => by simp [hs]
@[simp] theorem execLatencyMeasure_sound (ns : Nat) : Stays s (execLatencyMeasure ns s) :=
  stays_finish fun hs => by simp [hs]
@[simp] theorem execHeartbeatSend_sound : Stays s (execHeartbeatSend s) := stays_finish fun hs => by simp [hs]
@[simp] theorem execStateSend_sound (grp : Nat) :
    Stays s (execStateSend grp s) := stays_finish fun hs => by simp [hs]
@[simp] theorem receive_sound (fseq : Word) (f : State → State) (hf : ∀ s, (f s).sound = s.sound) :
    (s.receive fseq f).sound = s.sound := by
  simp [State.receive, hf]
@[simp] theorem receive_keeps (hs : s.sound) (fseq : Word) (f : State → State)
    (hf : ∀ t, t.sound → (f t).sound) : (s.receive fseq f).sound := by
  simp [State.receive, hs, hf]
@[simp] theorem shadows_keeps (hs : s.sound) (fseq : Word) (f : State → State)
    (hf : ∀ t, t.sound → (f t).sound) : (s.shadows fseq f).sound := by
  unfold State.shadows
  split
  · exact hs
  · refine receive_keeps _ hs _ _ fun t ht => ?_
    split
    · exact hf t ht
    · exact ht
@[simp] theorem shadows_sound (fseq : Word) (f : State → State) (hf : ∀ s, (f s).sound = s.sound) :
    (s.shadows fseq f).sound = s.sound := by
  simp [State.shadows, hf]
@[simp] theorem execAck_sound (fseq : Word) : Stays s (execAck fseq s) := by
  unfold execAck; refine stays_finish fun hs => ?_; split <;> simp [hs]
@[simp] theorem execRetransmitTimeout_sound (fseq : Word) : Stays s (execRetransmitTimeout fseq s) := by
  unfold execRetransmitTimeout; refine stays_finish fun hs => ?_; split <;> simp [hs]
@[simp] theorem execCosynFrameDiscard_sound : Stays s (execCosynFrameDiscard s) :=
  stays_finish fun hs => by simp [hs]
@[simp] theorem execState_sound (grp : Nat) (chans : List ChanRec) :
    Stays s (execState grp chans s) := stays_finish fun hs => by simp [hs]
@[simp] theorem applyRunner_sound (r : RunnerRec) : (s.applyRunner r).sound = s.sound := by
  unfold State.applyRunner; split <;> simp
@[simp] theorem execRunner_sound (r : RunnerRec) (fseq : Word) : Stays s (execRunner r fseq s) :=
  stays_finish fun hs => by simp [hs]
@[simp] theorem applyAnns_sound (l : List (Nat × QueAnn)) : (s.applyAnns l).sound = s.sound := by
  simp [State.applyAnns]
@[simp] theorem execCommitFrame_sound (anns : List (Nat × QueAnn)) (fseq : Word) :
    Stays s (execCommitFrame anns fseq s) := stays_finish fun hs => by simp [hs]
@[simp] theorem mirrorTrip_sound (r : TripRec) (p : Nat) : (s.mirrorTrip r p).sound = s.sound := by
  simp [State.mirrorTrip]
@[simp] theorem applyTrip_sound (n : TripNote) : (s.applyTrip n).sound = s.sound := by
  unfold State.applyTrip; split <;> simp
@[simp] theorem execTripFrame_sound (n : TripNote) (fseq : Word) : Stays s (execTripFrame n fseq s) :=
  stays_finish fun hs => by simp [hs]
@[simp] theorem execMaq_sound (e : List MaqEdit) (fseq : Word) : Stays s (execMaq e fseq s) :=
  stays_finish fun hs => by simp [hs]
@[simp] theorem install_sound (hs : s.sound) (cast maq : CfgSet) (castSeq maqSeq : Word) :
    (s.install cast maq castSeq maqSeq).sound := by
  simp [hs, State.install]
@[simp] theorem execSync_sound (cast maq : CfgSet) (castSeq maqSeq : Word) (fseq : Word) :
    Stays s (execSync cast maq castSeq maqSeq fseq s) :=
  stays_finish fun hs => shadows_keeps _ hs _ _ fun t ht => by simp [ht]
@[simp] theorem execUnveilFrame_sound (target : DWord) (castSeq : Word) (digest : DWord)
    (place : Tab Placement)
    (auxArm : Tab (BitVec 128)) (internal : Bool) (fseq : Word) :
    Stays s (execUnveilFrame target castSeq digest place auxArm internal fseq s) :=
  stays_finish fun hs => shadows_keeps _ hs _ _ fun t ht => by simpa using ht
@[simp] theorem partnerLoss_sound (qid : Nat) : (s.partnerLoss qid).sound = s.sound := by
  simp [State.partnerLoss]
@[simp] theorem seqJump_sound : s.seqJump.sound = s.sound := by
  unfold State.seqJump
  extract_lets t1 t2 t3
  have h1 : t1.sound = s.sound := by simp [t1]
  have h2 : t2.sound = t1.sound := foldl_sound _ (fun t e => by split <;> simp) _ _
  simp [t3, h2, h1]
@[simp] theorem mailboxesTaken_sound (code : BitVec 16) :
    (s.mailboxesTaken code).sound = s.sound := by
  simp [State.mailboxesTaken]
@[simp] theorem takeOver_sound (kind level : Nat) (src : BitVec 8) (groups : BitVec 16) :
    (s.takeOver kind level src groups).sound = s.sound := by
  unfold State.takeOver
  simp [State.modPeat]
@[simp] theorem takePort_sound (p : Nat) (r : ChanRec) : (s.takePort p r).sound = s.sound := by
  unfold State.takePort; split <;> simp
@[simp] theorem restartPort_sound (p : Nat) (r : ChanRec) :
    (s.restartPort p r).sound = s.sound := by
  unfold State.restartPort; split <;> simp
@[simp] theorem seatPort_sound (p : Nat) (held : Bool) : (s.seatPort p held).sound = s.sound := by
  unfold State.seatPort; split <;> simp
@[simp] theorem seatFig_sound (hs : s.sound) (f : Nat) (held : Bool) : (s.seatFig f held).sound := by
  unfold State.seatFig; (repeat' split) <;> simp [hs]
@[simp] theorem seatGroup_sound (hs : s.sound) (g : Nat) (all : Bool) : (s.seatGroup g all).sound := by
  simp +contextual [hs, State.seatGroup]
@[simp] theorem execTakeoverB1_sound (grp : Nat) (enLow : List Nat) :
    Stays s (execTakeoverB1 grp enLow s) := stays_finish fun hs => by simp [hs]
@[simp] theorem execTakeoverB2_sound (grp : Nat) : Stays s (execTakeoverB2 grp s) :=
  stays_finish fun hs => by simp [hs]
@[simp] theorem execHandover_sound (m : HandoverMsg) (fseq : Word) :
    Stays s (execHandover m fseq s) := stays_finish fun hs => by simp [hs]
@[simp] theorem departNow_sound (hs : s.sound) (h : HandoverSt) : (s.departNow h).sound := by
  simp [hs, State.departNow]
@[simp] theorem arriveNow_sound (hs : s.sound) (h : HandoverSt) : (s.arriveNow h).sound := by
  have h1 : ((List.range s.groups).foldl (fun t g => t.seatGroup g true) s).sound := by simp +contextual [hs]
  unfold State.arriveNow
  dsimp only
  split <;> simp [h1]
@[simp] theorem execHandoverBoundary_sound : Stays s (execHandoverBoundary s) := by
  unfold execHandoverBoundary; refine stays_finish fun hs => ?_; split <;> simp [hs]
@[simp] theorem execHeartbeat_sound (b : Beat) : Stays s (execHeartbeat b s) := by
  unfold execHeartbeat
  refine stays_finish fun hs => ?_
  split
  · exact hs
  · extract_lets ahead differ t1 t2 back t3 u t4 t5 t6
    have h2 : t2.sound := by simp only [t2]; split <;> simp [t1, hs]
    have h3 : t3.sound := by simp only [t3]; split <;> simp [h2]
    have h4 : t4.sound := by
      simp only [t4]
      (repeat' split) <;> simp [u, h3]
    simp [t6, t5, h4]
@[simp] theorem execHeartbeatSlotClose_sound : Stays s (execHeartbeatSlotClose s) :=
  stays_finish fun hs => by simp [hs]
@[simp] theorem execAliveInChange_sound (active : Bool) : Stays s (execAliveInChange active s) :=
  stays_finish fun hs => by simp [hs]
@[simp] theorem execCosynSignalLoss_sound : Stays s (execCosynSignalLoss s) :=
  stays_finish fun hs => by simp [hs]
@[simp] theorem execControlFrame_sound (n : ControlNote) (fseq : Word) :
    Stays s (execControlFrame n fseq s) := stays_finish fun hs => by
  split
  · exact hs
  · refine receive_keeps _ hs _ _ fun t ht => ?_
    split <;> simp [ht]
@[simp] theorem execTwinStatusRead_sound (r : Req) : Stays s (execTwinStatusRead r s) :=
  stays_umser fun t hs => by simp [hs]
@[simp] theorem execTwinDetach_sound (r : Req) (mode key : Nat) :
    Stays s (execTwinDetach r mode key s) :=
  stays_umser fun t hs => by simp [hs]
@[simp] theorem execTwinAttach_sound (r : Req) : Stays s (execTwinAttach r s) :=
  stays_umser fun t hs => by simp [hs]

end

end Sys2Proof.Machine

namespace Sys2Proof.Machine

section
variable (s : State)

/-! ### Machine/Session.lean -/

@[simp] theorem cancelled_sound (hs : s.sound) (o : Outstanding) (result : List Byte) :
    (s.cancelled o result).sound := by
  simp [hs, State.cancelled]
@[simp] theorem calCancel_sound (o : Outstanding) : (s.calCancel o).sound = s.sound := by
  unfold State.calCancel; (repeat' split) <;> simp
@[simp] theorem uncheck_sound (o : Outstanding) : (s.uncheck o).sound = s.sound := by
  simp [State.uncheck]
@[simp] theorem cancel_sound (hs : s.sound) (o : Outstanding) : (s.cancel o).2.sound := by
  unfold State.cancel; simp only; (repeat' split) <;> simp [hs]
@[simp] theorem execSesCancel_sound (r : Req) (tag : BitVec 16) : Stays s (execSesCancel r tag s) :=
  stays_umser fun t hs => by split <;> simp [hs]

/-! ### Machine/Regs.lean -/

@[simp] theorem setHolding_sound (port : Port) (t : Tab Word) :
    (s.setHolding port t).sound = s.sound := by
  unfold State.setHolding; split <;> simp
@[simp] theorem readLow_sound (port : Port) (off : Nat) :
    (s.readLow port off).2.sound = s.sound := by
  simp [State.readLow]
@[simp] theorem readHigh_sound (port : Port) (off : Nat) :
    (s.readHigh port off).2.sound = s.sound := by
  unfold State.readHigh; split <;> simp
@[simp] theorem readAny_sound (port : Port) (off : Nat) :
    (s.readAny port off).2.sound = s.sound := by
  unfold State.readAny; (repeat' split) <;> simp
@[simp] theorem readWords_sound (space a n : Nat) : (s.readWords space a n).2.sound = s.sound := by
  induction n generalizing s a with
  | zero => rfl
  | succ n ih =>
    simp only [State.readWords, ih]
    split <;> simp
@[simp] theorem returns_sound (x : Word × State) (port : Port) :
    (State.returns x port).sound = x.2.sound := by
  cases port <;> rfl
@[simp] theorem execTwoHalfLowRead_sound (port : Port) (offset : Nat) :
    Stays s (execTwoHalfLowRead port offset s) := stays_finish fun hs => by
  split <;> simp [hs]
@[simp] theorem execTwoHalfHighRead_sound (port : Port) (offset : Nat) :
    Stays s (execTwoHalfHighRead port offset s) := stays_finish fun hs => by
  split <;> simp [hs]
@[simp] theorem emptyHolding_sound (port : Port) (lo hi : Nat) :
    (s.emptyHolding port lo hi).sound = s.sound := by
  simp [State.emptyHolding]
@[simp] theorem writeSelect_sound (port : Port) (off : Nat) (v : Word) :
    (s.writeSelect port off v).sound = s.sound := by
  simp [State.writeSelect]
@[simp] theorem execSelectRegisterWrite_sound (port : Port) (offset : Nat) (value : Word) :
    Stays s (execSelectRegisterWrite port offset value s) := stays_finish fun hs => by simp [hs]
@[simp] theorem ring_sound (port : Port) (n : Nat) (v : Word) :
    (s.ring port n v).sound = s.sound := by
  simp [State.ring]
@[simp] theorem writeHost_sound (off : Nat) (v : Word) : (s.writeHost off v).sound = s.sound := by
  simp [State.writeHost]
@[simp] theorem writeMtPfe_sound (off : Nat) (v : Word) :
    (s.writeMtPfe off v).sound = s.sound := by
  simp [State.writeMtPfe]
@[simp] theorem writeAcq_sound (off : Nat) (v : Word) : (s.writeAcq off v).sound = s.sound := by
  simp [State.writeAcq]
@[simp] theorem writeFr_sound (off : Nat) (v : Word) : (s.writeFr off v).sound = s.sound := by
  simp [State.writeFr]
@[simp] theorem writeLe_sound (off : Nat) (v : Word) : (s.writeLe off v).sound = s.sound := by
  simp [State.writeLe]
@[simp] theorem writeSup_sound (off : Nat) (v : Word) : (s.writeSup off v).sound = s.sound := by
  simp [State.writeSup]
@[simp] theorem writeSwp_sound (off : Nat) (v : Word) : (s.writeSwp off v).sound = s.sound := by
  simp [State.writeSwp]
@[simp] theorem writeErr_sound (off : Nat) (v : Word) : (s.writeErr off v).sound = s.sound := by
  simp [State.writeErr]
@[simp] theorem execSupMonLatchWrite_sound (value : Word) : Stays s (execSupMonLatchWrite value s) :=
  stays_finish fun hs => by simp [hs]
@[simp] theorem frameEnd_sound (status : BitVec 8) (ok : Bool) (miso : List Word) :
    (s.frameEnd status ok miso).sound = s.sound := by
  simp [State.frameEnd]
@[simp] theorem execSpiReadFrame_sound (address : Word) (words : Nat) :
    Stays s (execSpiReadFrame address words s) := stays_finish fun hs => by
  (repeat' split) <;> simp [hs]

end

end Sys2Proof.Machine

/-! SUPPORT for O60. The sources of a reset, the planes that stop and the start; the writes of the host; and every
command of the table. -/

namespace Sys2Proof.Machine

section
variable (s : State)

/-! ### The planes enter reset -/

@[simp] theorem modRst_sound (f : Rst → Rst) : (s.modRst f).sound = s.sound := by simp [State.modRst]
@[simp] theorem modPeat_sound (f : Peat → Peat) : (s.modPeat f).sound = s.sound := by simp [State.modPeat]
@[simp] theorem mgmtReset_sound : s.mgmtReset.sound = s.sound := by simp [State.mgmtReset]

/-- Staging DRAM loses the ring. -/
@[simp] theorem stagingLost_sound (hs : s.sound) : s.stagingLost.sound := ⟨hs.1, Nat.zero_le _⟩

@[simp] theorem dataStop_sound (hs : s.sound) : s.dataStop.sound := by
  unfold State.dataStop
  extract_lets deep busy t1 t2 saved q0 q1 qs0 qs1 sto host t3
  have h2 : t2.sound := by simp only [t2]; split <;> simp [t1, hs]
  have h3 : t3.sound := by simp [t3, host, h2]
  split <;> simp [h3]

@[simp] theorem stagingDown_sound (hs : s.sound) : s.stagingDown.sound := by
  unfold State.stagingDown
  extract_lets t
  have ht : t.sound := by simp only [t]; split <;> simp [hs]
  split <;> simp [ht]

/-- The control plane's reset empties the window and leaves the ring. -/
@[simp] theorem ctrlReset_sound (hs : s.sound) (lost : Word) : (s.ctrlReset lost).sound := ⟨rfl, hs.2⟩

@[simp] theorem enterReset_sound (hs : s.sound) (hard : Bool) : (s.enterReset hard).sound := by
  unfold State.enterReset
  extract_lets t lost
  have ht : t.sound := by simp only [t]; split <;> simp [hs]
  simp [ht]

@[simp] theorem assertSource_sound (hs : s.sound) (src level : Nat) : (s.assertSource src level).sound := by
  unfold State.assertSource
  extract_lets deepest ordered t hard u t1
  have ht : t.sound := by simp [t, hs]
  have hu : u.sound := by simp only [u]; split <;> simp [ht]
  have h1 : t1.sound := by simp [t1, ht]
  split_ifs <;> simp [ht, hu, h1]

@[simp] theorem assertFused_sound (hs : s.sound) (src : Nat) : (s.assertFused src).sound :=
  assertSource_sound _ hs ..

@[simp] theorem releaseSource_sound (src : Nat) : (s.releaseSource src).sound = s.sound := by
  simp [State.releaseSource]

@[simp] theorem rstReq_sound (hs : s.sound) (v : Word) : (s.rstReq v).sound := by
  unfold State.rstReq
  dsimp only
  split_ifs <;> simp [hs]

/-! ### The way out and the start -/

@[simp] theorem recordReset_sound (cause lost : Word) : (s.recordReset cause lost).sound = s.sound := by
  unfold State.recordReset
  dsimp only
  split <;> simp

@[simp] theorem recordExits_sound (lost : Word) : (s.recordExits lost).sound = s.sound := by
  unfold State.recordExits
  split <;> simp

@[simp] theorem readStrap_sound (x : Nat) : (s.readStrap x).sound = s.sound := by simp [State.readStrap]

/-- A log that starts anew keeps its ring. -/
@[simp] theorem restarted_ring (e : Err) : e.restarted.ring = e.ring := rfl

@[simp] theorem peatCheck_sound : s.peatCheck.sound = s.sound := by
  unfold State.peatCheck
  dsimp only
  split_ifs <;> simp

@[simp] theorem stagingUp_sound : s.stagingUp.sound = s.sound := by simp [State.stagingUp]

@[simp] theorem dataRelease_sound : s.dataRelease.sound = s.sound := by simp [State.dataRelease]

/-! ### Commands of chapter 6 -/

@[simp] theorem execSupply_sound (on : Bool) : Stays s (execSupply on s) := stays_finish fun hs => by
  split_ifs <;> simp [hs]
@[simp] theorem execSupplyMarginSample_sound (mv : Nat) : Stays s (execSupplyMarginSample mv s) :=
  stays_finish fun hs => by (repeat' split) <;> simp [hs]
@[simp] theorem execVretLoss_sound : Stays s (execVretLoss s) := stays_finish fun hs => by split <;> simp [hs]
@[simp] theorem execRstIn_sound (low : Bool) : Stays s (execRstIn low s) := stays_finish fun hs => by
  split_ifs <;> simp [hs]
@[simp] theorem execPerst_sound (low : Bool) : Stays s (execPerst low s) := stays_finish fun hs => by
  split_ifs <;> simp [hs]
@[simp] theorem execWdog_sound : Stays s (execWdog s) := stays_finish fun hs => by split <;> simp [hs]
@[simp] theorem execClk_sound : Stays s (execClk s) := stays_finish fun hs => by split <;> simp [hs]
@[simp] theorem execClkRelease_sound : Stays s (execClkRelease s) := stays_finish fun hs => by simp [hs]
@[simp] theorem execFatal_sound : Stays s (execFatal s) := stays_finish fun hs => by split <;> simp [hs]
@[simp] theorem execDbgResetInstruction_sound (on : Bool) : Stays s (execDbgResetInstruction on s) :=
  stays_finish fun hs => by split <;> simp [hs]
@[simp] theorem execRstReqWrite_sound (v : Word) : Stays s (execRstReqWrite v s) :=
  stays_finish fun hs => by simp [hs]
@[simp] theorem execResetPulseEnd_sound (src : Nat) : Stays s (execResetPulseEnd src s) :=
  stays_finish fun hs => by split <;> simp [hs]
@[simp] theorem execControlPlaneResetEntry_sound : Stays s (execControlPlaneResetEntry s) :=
  stays_finish fun hs => by split <;> simp [hs]
@[simp] theorem execDataPlaneStop_sound : Stays s (execDataPlaneStop s) :=
  stays_finish fun hs => by split <;> simp [hs]
@[simp] theorem execStretchStart_sound : Stays s (execStretchStart s) :=
  stays_finish fun hs => by split_ifs <;> simp [hs]
@[simp] theorem execStretchEnd_sound (found : ExitIn) : Stays s (execStretchEnd found s) :=
  stays_finish fun hs => by (repeat' split) <;> simp [hs]
@[simp] theorem execPllLock_sound : Stays s (execPllLock s) := stays_finish fun hs => by
  split
  · dsimp only
    split <;> simp [hs]
  · exact hs
@[simp] theorem execStagingReady_sound (kept : Bool) : Stays s (execStagingReady kept s) :=
  stays_finish fun hs => by split <;> simp [hs]
@[simp] theorem execMgmtBootDone_sound : Stays s (execMgmtBootDone s) := stays_finish fun hs => by
  split
  · dsimp only
    split <;> simp [hs]
  · exact hs
@[simp] theorem execTestHold_sound (step : Option Nat) : Stays s (execTestHold step s) :=
  stays_finish fun hs => by (repeat' split) <;> simp [hs]
@[simp] theorem execMireMapRebuilt_sound (scan : List NandScan) : Stays s (execMireMapRebuilt scan s) :=
  stays_finish fun hs => by
    split
    · simp [hs]
    · exact hs
@[simp] theorem execFuseProgramEnd_sound : Stays s (execFuseProgramEnd s) :=
  stays_finish fun hs => by
    split
    · refine complete_sound _ ?_ _ _
      simp [hs]
    · exact hs
@[simp] theorem execDieTempRead_sound (a b c : Int) : Stays s (execDieTempRead a b c s) :=
  stays_finish fun hs => by
    split
    · exact hs
    · extract_lets past hot r t1 t2
      have h2 : t2.sound := by simp [t2, t1, hs]
      split <;> simp +contextual [h2]

/-! ### The writes of the host -/

@[simp] theorem writeRst_sound (hs : s.sound) (off : Nat) (v : Word) : (s.writeRst off v).sound := by
  unfold State.writeRst
  split_ifs <;> simp [hs]

@[simp] theorem writeMsix_window (h : HostIf) (i : Nat) (v : Word) : (h.writeMsix i v).window = h.window :=
  rfl

@[simp] theorem writeReg_sound (hs : s.sound) (port : Port) (off : Nat) (v : Word) :
    (s.writeReg port off v).sound := by
  simp [State.writeReg, hs]

theorem writeWords_sound (hs : s.sound) (a : Nat) (d : List Byte) : (s.writeWords a d).sound := by
  fun_induction State.writeWords s a d with
  | case1 s a b0 b1 b2 b3 l ih => exact ih (writeReg_sound s hs ..)
  | case2 => exact hs

@[simp] theorem execRegisterWrite_sound (port : Port) (off size : Nat) (v : Word) :
    Stays s (execRegisterWrite port off size v s) :=
  stays_finish fun hs => by split_ifs <;> simp [hs]

@[simp] theorem execSpiWriteFrame_sound (a : Word) (d : List Byte) : Stays s (execSpiWriteFrame a d s) :=
  stays_finish fun hs => by
    split
    · exact hs
    · split
      · dsimp only
        rw [frameEnd_sound]
        split
        · exact writeWords_sound s hs ..
        · exact soundOf_winWrite hs ..
      · simp [hs]

/-! ### Every command -/

/-- No command of the table breaks the window or overfills the ring. -/
theorem exec_stays (c : Instr) : Stays s (exec c s) := by
  cases c <;> simp [exec]

theorem idle_stays : Stays s (idle s) := stays_finish fun hs => clock_sound s hs

theorem step_stays : Stays s (step s) := by
  unfold step
  split
  · exact idle_stays s
  next c rest _ =>
    intro hs
    exact exec_stays { s with pending := rest } c hs

end

/-- Settles O60: a command keeps the window canonical and the ring within its size, and the end of a step leaves no
event waiting. -/
theorem everyStepKeepsSafety : Obligations.EveryStepKeepsSafety := by
  rintro s t ⟨hwindow, -, hring⟩ h
  have hs : s.sound := ⟨hwindow, hring⟩
  have ht : t.sound := step_stays s hs t h
  obtain ⟨u, hu⟩ := step_done s
  obtain rfl := Host.Outcome.next.inj (hu.symm.trans h)
  exact ⟨ht.1, done_raised, ht.2⟩

end Sys2Proof.Machine

end
